-- ==== Sys2Proof/Word.lean ====
section
/-! DEFINITION. Word types of the SK-G840 model (00_scope.md, Numbers, units and names) and the table type
that holds numbered objects. -/

namespace Sys2Proof

/-- One byte. -/
abbrev Byte := BitVec 8
/-- A 16-bit word: a sensor word, a coefficient, a frame word. -/
abbrev Half := BitVec 16
/-- A 32-bit register. -/
abbrev Word := BitVec 32
/-- A 64-bit register or stitch number (R3, R7). -/
abbrev Dword := BitVec 64

/-- A numbered table: key and value, keys rising. A key that is not listed has no value of its own. -/
abbrev Tbl (α : Type) := List (Nat × α)

/-- Bytes in address order. -/
abbrev Bytes := List Byte

end Sys2Proof
end

