-- ==== Sys2Proof/Syntax.lean ====
section
/-! DEFINITION. The commands of the block: one constructor per row of spec/opcode_table.json, with the
operands the rule of its row names, and the plain records those operands are made of (frames, packets,
NVMe command fields). 95_what_each_step_holds.md says what is inside each step. -/

namespace Sys2Proof

/-- Cause of a warm reset (R368), in the order of PWR_RESET_CAUSE bits 1 to 6. -/
inductive WarmCause where
  | sysRst | lockstep | activation | dump | thermal | trip
deriving DecidableEq, Repr

/-- Who issues a request: the host by a BAR2 write, or the bay's domain controller (R11, R139). -/
inductive Src where
  | host | domain
deriving DecidableEq, Repr

/-- An object that queues commands with an effect stitch (R139, R171): heartbeat object byte of R298. -/
inductive Obj where
  | cell (n : Fin 96)
  | unit (n : Fin 8)
  | axis (n : Fin 32)
deriving DecidableEq, Repr

/-- The six modes of R374, by code. -/
inductive Mode where
  | ingest | recall | audit | rebuild | quiet | hold
deriving DecidableEq, Repr

/-- What the device samples at its own stitch edge: ALIVE_IN (R301), PWR_FAIL_N (R287), on the follower the
measured offset of its edge from the master's in nanoseconds (R46), the single-bit SECDED errors that the SRV corrected in the
stitch (R150), and the packets that the Spine Link resent in it (R295). -/
structure EdgeIn where
  aliveIn : Bool := false
  pwrFailN : Bool := true
  offsetNs : Int := 0
  corrected : Nat := 0
  resent : Nat := 0
deriving DecidableEq, Repr

/-- A wobble record of R313: the 56-bit address word as decoded and its VALID bit. -/
structure Wobble where
  word : BitVec 56 := 0
  stitch16 : Half := 0
  offset : BitVec 12 := 0
  valid : Bool := false
deriving DecidableEq, Repr

/-- An emitter record of R313, currents in 0.1 mA. -/
structure Emitter where
  iPw : Half := 0
  iNow : Half := 0
  iLim : Half := 0
  pwMissed : Bool := false
  pbMissed : Bool := false
  on : Bool := false
  streamEnd : Byte := 0
deriving DecidableEq, Repr

/-- The sample frame of R312. Sensor words of the two OPUs (32 each), 16 spindle words, 4 axis input words,
8 wobble and 8 emitter records. -/
structure SampleFrame where
  bay : Fin 8 := 0
  obeys : BitVec 2 := 2
  safeStop : Bool := false
  holding : Bool := false
  reset : Bool := false
  disc : Bool := false
  readySeen : Bool := false
  align : Bool := false
  misses : BitVec 7 := 0
  slice : Fin 6 := 0
  stitch : Dword := 0
  sensA : List Half := []
  sensB : List Half := []
  spin : List Half := []
  axis : List Half := []
  ident : Bytes := []
  wobble : List Wobble := []
  emit : List Emitter := []
  tempA : Int := 0
  tempB : Int := 0
  eyeD0 : Byte := 0
  eyeD1 : Byte := 0
  faults : BitVec 4 := 0
deriving DecidableEq, Repr

/-- The command frame of R315. -/
structure CmdFrame where
  bay : Fin 8 := 0
  safeStop : Bool := false
  coast : Bool := false
  claim : Bool := false
  owner : Bool := false
  handover : Bool := false
  hold : Byte := 8
  launch : Half := 3200
  stitch : Dword := 0
  u : List Half := []
  spin : List Half := []
  axis : List Half := []
  hStitch : Dword := 0
  readEn : Byte := 0
  rate : BitVec 2 := 0
  spotEn : Half := 0
  pb : List (BitVec 10) := []
  gain : List (BitVec 6) := []
  offs : List (BitVec 7) := []
  wake : Bool := false
  retrain : BitVec 5 := 0
deriving DecidableEq, Repr

/-- The keepalive of R316. -/
structure Keepalive where
  bay : Fin 8 := 0
  ready : Bool := false
  cause : Byte := 0
  stitch : Dword := 0
deriving DecidableEq, Repr

/-- What a BFE finds at one edge on one port: nothing whole, a command frame, or a keepalive, with the result of
its CRC check (R317). -/
inductive Arrival where
  | nothing
  | command (f : CmdFrame) (crcOk : Bool)
  | keep (k : Keepalive) (crcOk : Bool)
deriving DecidableEq, Repr

/-- A command of a heartbeat (R298): object, OP, ARG and effect stitch. -/
structure HbCmd where
  obj : Obj
  op : Byte
  arg : Word
  effect : Dword
deriving DecidableEq, Repr

/-- The heartbeat of R298. -/
structure Heartbeat where
  count : Dword := 0
  sender : Fin 2 := 0
  master : Bool := false
  single : Bool := false
  vaultOk : Bool := false
  paired : Bool := false
  run : Byte := 0
  ready : Byte := 0
  absent : Byte := 0
  overrun : Byte := 0
  capture : Byte := 0
  digests : List Word := []
  hStitch : Dword := 0
  kStitch : Dword := 0
  cmds : List HbCmd := []
deriving DecidableEq, Repr

/-- Status of a completion, by the name the spec (or NVMe 2.0, which it names) gives it; vendor codes are those of R247. -/
inductive Status where
  | success | invalidOpcode | invalidField | internalError | abortRequested | abortedSqDeletion | invalidNamespace
  | lbaRange | capacityExceeded | namespaceNotReady | cqInvalid | invalidQueueId | invalidQueueSize | aerLimit
  | invalidFwSlot | invalidFwImage | fwNeedsReset | fwProhibited | invalidVector | invalidLogPage | invalidQueueDeletion
  | featureNotSaveable | featureNotChangeable | nsCapacity | nsidUnavailable | nsAttached | nsNotAttached
  | invalidControllerList | zoneBoundary | zoneFull | zoneInvalidWrite | tooManyActive | tooManyOpen
  | invalidZoneTransition | writeFault | unrecoveredRead | guardCheck | appTagCheck | refTagCheck | internalPath
  | anaInaccessible | anaTransition | commandSequence | abortLimit | accessDenied | commandInterrupted
  | vendor (code : Fin 5)
deriving DecidableEq, Repr

/-- Names an NVMe command: controller, submission queue (0 is the admin queue), command identifier; `peer` for a command that the
other twin received and forwarded (R246). -/
structure CmdRef where
  peer : Bool := false
  ctrl : Fin 2 := 0
  sqid : Fin 65536 := 0
  cid : Half := 0
deriving DecidableEq, Repr

/-- One block of write data as fetched from host memory: its 4,096 bytes, its host metadata as a PI field, and what the
PI check of R244 reads from it. -/
structure BlockIn where
  data : Bytes := []
  pi : Bytes := []
  guardOk : Bool := true
  appOk : Bool := true
  refTag : Nat := 0
deriving DecidableEq, Repr

/-- Kind of a fetched command (R235); `other` is an opcode the G840 does not support. -/
inductive IoKind where
  | read | write | flush | verify | append | zoneSend | zoneRecv | admin | other
deriving DecidableEq, Repr

/-- A submission queue entry as COMMAND_FETCH reads it from host memory. -/
structure Sqe where
  cid : Half
  kind : IoKind
  nsid : Word := 0
  slba : Dword := 0
  nlb : Nat := 1
  fua : Bool := false
  prchk : BitVec 3 := 0
  pract : Bool := false
  ilbrt : Nat := 0
deriving DecidableEq, Repr

/-- A command between a home twin and the other (R246, packet types 0x20 and 0x21); `blocks` are the encrypted blocks of a forwarded
write, each IV, tag, ciphertext and PI field, once the receiving twin has them. -/
structure Forwarded where
  ref : CmdRef
  sqe : Sqe
  classU : Bool
  blocks : List Bytes := []
deriving DecidableEq, Repr

/-- Where one leaf of a disc lies: surface, layer, frame (R12, R62). -/
structure LeafAddr where
  surface : Fin 16
  layer : Fin 16
  frame : Nat
deriving DecidableEq, Repr

/-- A read request on a leaf as the RDC accepts it (R109, R110). `tag` names the requester, `act` the activity of R15 it serves. -/
structure ReadReq where
  tag : Nat
  leaf : LeafAddr
  slots : List Nat
  expect : Bool
  classU : Bool
  act : Fin 7
  volume : Half
deriving DecidableEq, Repr

/-- What the catalogue reads of a mount find on one surface (R205): blank, or the directory header's volume with the DISC field of the
folio headers, and the header's contents (R222) with what the blank search of R224 found: last recorded layer and frame, highest
generation read, last recorded frame of the catalogue band. -/
inductive CatFinding where
  | unread
  | blank
  | directory (volume : Half) (disc : Fin 8) (open_ : Bool) (width : Nat) (dirSeq : Nat)
      (layer frame gen cat : Nat) (state : Nat)
deriving DecidableEq, Repr

/-- Kinds of calibration in the order of CAL_REQ.KIND 1 to 6 (10_calibration.md). -/
inductive CalKind where
  | opc | equaliser | focus | tilt | corrector | bfeOffsets
deriving DecidableEq, Repr

/-- Zone Management Send actions of R243. -/
inductive ZoneSel where
  | one (slba : Dword)
  | all
deriving DecidableEq, Repr

/-- One entry of a namespace creation (R241, R242, R337). -/
structure NsCreate where
  csi : Byte
  nsze : Nat
  lbaf : Fin 4
  piType : Fin 4
  piFirst : Bool
  anaGroup : Nat
  slot : Fin 2048
  mode : Byte
deriving DecidableEq, Repr

/-- A feature of R236 with its dword 11 value. -/
inductive Feature where
  | arbitration | power | tempThreshold | queues | coalescing | vectorConfig | asyncConfig | timestamp | flushMedia
  | other (fid : Byte)
deriving DecidableEq, Repr

/-- Leaf states of R220: planned, writing, verified, abandoned, virtual. -/
structure Leaf where
  surface : Nat := 0
  st : Nat := 0
  layer : Nat := 0
  frame : Nat := 0
  gen : Nat := 0
  rowsHeld : List (Nat × Nat) := []
  spills : Nat := 0
  good : List Nat := []
  failed : List Nat := []
  peer : Bool := false
deriving DecidableEq, Repr

/-- A quire (R209, R220). Kind 0 zone, 1 conventional log, 2 rebuild, 3 directory; state 0 filling, 1 closed, 2 sealed,
3 abandoned. `seqs` are the versions it carries, with their first block and count. -/
structure Quire where
  number : Nat
  vol : Nat := 0
  width : Nat := 16
  st : Nat := 0
  cause : Nat := 0
  kind : Nat := 0
  folios : Nat := 0
  blocks : Nat := 0
  nsid : Nat := 0
  twin : Nat := 0
  firstLba : Nat := 0
  zone : Nat := 0
  closeAt : Nat := 0
  sealAt : Nat := 0
  born : Nat := 0
  leaves : List Leaf := []
  seqs : List Nat := []
  granules : List Nat := []
  committed : Bool := false
  sealing : Bool := false
  filed : Bool := false
  files : List Nat := []
  amends : List Nat := []
  lostRows : Tbl Nat := []
  moved : Tbl (Nat × Nat) := []
  image : Bytes := []
  seqBase : Nat := 0
  hurt : List Nat := []
  rowsDone : List Nat := []
deriving DecidableEq, Repr

/-- An amendment record (R228). -/
structure Amend where
  source : Nat
  target : Nat
  sleaf : Nat
  tleaf : Nat
  lost : Dword
deriving DecidableEq, Repr

/-- The journal records a mirror packet carries (R219 to R221, R228); a quire record comes with what the twin needs to write a leaf from
its mirror copy (R215): the directory image in the record, the bodies of a rebuild quire by folio number. -/
inductive JournalRec where
  | ingest (seq : Nat) (nsid : Word) (blocks : Nat) (fua : Bool) (twin : Fin 2) (slba : Dword)
  | quire (q : Quire) (bodies : List (Nat × Bytes))
  | pointer (surface : Fin 16) (layer frame gen : Nat)
  | amendment (a : Amend)
deriving DecidableEq, Repr

namespace Machine

/-! ### Servo (07_servo_loops.md) -/

/-- States of R136, by code. -/
inductive CellSt where
  | parked | search | closed | sequence | held | suspended | retract
deriving DecidableEq, Repr

/-- A queued command of a cell, unit or axis: OP, ARG, effect stitch (R139). -/
structure QCmd where
  op : Nat
  arg : Nat
  effect : Nat
deriving DecidableEq, Repr

/-- States of one second-order section (R133). -/
structure Sec where
  x1 : Int := 0
  x2 : Int := 0
  y1 : Int := 0
  y2 : Int := 0
deriving DecidableEq, Repr

/-- SRV_CELL_SEQ.KIND. -/
inductive SeqKind where
  | none | acquire | jump | pullIn | seek
deriving DecidableEq, Repr

/-- Steps of a layer jump (R147) and of a seek (R148). -/
inductive SeqStep where
  | idle | kick | coast | brake | dwell | settle | velocity | window
deriving DecidableEq, Repr

/-- The running sequence of a cell (R145 to R148): step, stitches in it, stitches since the kick began, target and
direction, layers remaining, D, v_f, armed flag, stitches of the capture window, whether a capture needs D to leave 0 first,
pre-notch value of SEARCH and of the capture stitch. -/
structure Seqn where
  kind : SeqKind := .none
  step : SeqStep := .idle
  stepSt : Nat := 0
  total : Nat := 0
  target : Nat := 0
  deeper : Bool := false
  remain : Int := 0
  d : Int := 0
  vf : Int := 0
  armed : Bool := false
  win : Nat := 0
  needLeave : Bool := false
  pre : Int := 0
deriving DecidableEq, Repr

/-- A loop cell (R129 to R151, R402 to R405). Words of 16 bits and the 40-bit integrator are kept as the integers they
stand for. `coef` is the coefficient block in force (R131). -/
structure Cell where
  named : Bool := false
  opu : Nat := 0
  loop : Nat := 0
  slot : Nat := 0
  order : Nat := 0
  ff : Option Nat := none
  action : Nat := 0
  allowance : Nat := 0
  coef : List Half := []
  st : CellSt := .parked
  fault : Bool := false
  cause : Nat := 0
  secs : List Sec := []
  iAcc : Int := 0
  vPrev : Int := 0
  u : Int := 0
  uPre : Int := 0
  z : Int := 0
  zh : Int := 0
  e : Int := 0
  ePrev : Option Int := none
  xm : List Int := []
  cnt : Nat := 0
  resid : Int := 0
  yhat : Int := 0
  spike : Bool := false
  saturated : Bool := false
  cal : Int := 0
  sweep : Int := 0
  trial : Int := 0
  layer : Option Nat := none
  queue : List QCmd := []
  result : Nat := 0
  effect : Nat := 0
  seq : Seqn := {}
  holdSt : Nat := 0
  zeroSt : Nat := 0
  rampI : Nat := 0
  rampU : Int := 0
  searchPos : Int := 0
  xcntRun : Nat := 0
  xcntPrev : Int := 0
  captured : Bool := false
  lowTerm : Int := 0
deriving DecidableEq, Repr

/-! ### Spindle (08_spindle.md) -/

/-- States of R161, by code. -/
inductive SpdSt where
  | off | sense | align | ramp | run | regen | short | coast | fault
deriving DecidableEq, Repr

/-- Why a unit is in SHORT: a stop, a start-path brake before ALIGN with the attempt, the backward brake of R163. -/
inductive Brake where
  | stop | start (attempt : Nat) | backward
deriving DecidableEq, Repr

/-- An inertia measurement (R200): bounds of its two adjacent intervals in rpm; sums and counts of i_q in each; complete. -/
structure Accel where
  b : Int
  t : Int
  sum1 : Int := 0
  n1 : Nat := 0
  sum2 : Int := 0
  n2 : Nat := 0
  whole : Bool := false
deriving DecidableEq, Repr

/-- A spindle unit (R152 to R171, R200). `floatQ`: what the words of the last two stitches float: a window's crossing 0 to 5, 6 every
phase (SENSE), 7 SHORT; `signSeen` counts what is known of IA's sign while shorted; `lossAge`: present stitches since the last loss of
sync; `senseSeen`: sample sets taken with the phases floated. -/
structure Unit where
  st : SpdSt := .off
  fault : Bool := false
  cause : Nat := 0
  theta : BitVec 32 := 0
  omega : BitVec 32 := 0
  target : Nat := 0
  want : Nat := 0
  capped : Bool := false
  ref : Int := 0
  idRef : Int := 0
  iqRef : Int := 0
  iSpeed : Int := 0
  iCur : Int × Int := (0, 0)
  vd : Int := 0
  vq : Int := 0
  clipped : Bool := false
  fraction : Nat := 1024
  pulsed : Bool := false
  brake : Brake := .stop
  attempt : Nat := 0
  timer : Nat := 0
  standRun : Nat := 0
  stood : Option Nat := none
  iaNeg : Bool := false
  signSeen : Nat := 0
  rpmShort : Int := 0
  clearAtRest : Bool := false
  missedRun : Nat := 0
  validRun : Nat := 0
  lastKind : Nat := 0
  intervals : List Nat := []
  sinceCross : Nat := 0
  floatQ : List (Option Nat) := []
  window : Option Nat := none
  winTheta : BitVec 32 := 0
  winSamples : List Int := []
  sincePeriod : Option Nat := none
  lockRun : Nat := 0
  outRun : Nat := 0
  locked : Bool := false
  lossAge : Option Nat := none
  senseSeen : Nat := 0
  senseAngles : Nat := 0
  senseLast : BitVec 32 := 0
  senseAcc : Int := 0
  rampRpm : Nat := 0
  overRun : Nat := 0
  result : Nat := 0
  queue : List QCmd := []
  words : List Half := []
  inertia : Option Nat := none
  accel : Option Accel := none
  skipped : Bool := false
  scaled : Bool := false
deriving DecidableEq, Repr

/-! ### Motion (09_motion.md) -/

/-- States of R176, by code. -/
inductive AxisSt where
  | down | unknown | idle | moving | stopping | homing | parking
deriving DecidableEq, Repr

/-- A stepper axis (R172 to R187). `hold`: it sends HOLD in this stitch and moves nothing (R181, R184); `due`: the change that the
stitch's frame decided for the next edge (R176): 0 none, 1 UNKNOWN by a limit or a position lost without a new FAULT, 2 UNKNOWN with
cause 2, 5 UNKNOWN with cause 5, 3 DOWN with cause 3, 6 DOWN after PARK, 7 IDLE with the position retained, 8 UNKNOWN on ENERGISE. -/
structure Axis where
  st : AxisSt := .down
  fault : Bool := false
  cause : Nat := 0
  p : Int := 0
  v : Int := 0
  aC : Int := 0
  tgt : Int := 0
  known : Bool := false
  pending : Option Int := none
  arrived : Bool := false
  follow : Bool := false
  followRun : Nat := 0
  followSign : Bool := false
  limitStop : Bool := false
  hold : Bool := false
  due : Nat := 0
  homeOut : Bool := false
  homeFrom : Int := 0
  retained : Bool := false
  released : Bool := false
  energise : Bool := false
  parkSent : Bool := false
  result : Nat := 0
  queue : List QCmd := []
  inBits : Nat := 0
  phase : Nat := 0
  out : Half := 0x6000
deriving DecidableEq, Repr

end Machine

/-- The states of a bay that a State packet carries (R302): its cells (R150), its spindle unit, its axes, by number. -/
structure StateImage where
  cells : List (Nat × Machine.Cell) := []
  unit : Machine.Unit := {}
  axes : List (Nat × Machine.Axis) := []
deriving DecidableEq, Repr

/-- Management packets (R296 type 0x30). -/
inductive MgmtMsg where
  | stageReport (digest : BitVec 384) (trim : Bool) (commitPeer : Dword)
  | armRefused (digest : BitVec 384)
  | stageContainer (bytes : Bytes)
  | abortBinding
  | dropBinding (digest : BitVec 384)
  | namespaceCreate (nsid : Word) (n : NsCreate)
  | namespaceDelete (nsid : Word)
  | namespaceAttach (nsid : Word) (ctrls : List Nat) (attach : Bool)
  | flushMedia (on : Bool)
  | powerFail
  | transition (body : Bytes) (commitPeer : Dword)
  | snapshotRequest (stitchPeer : Dword)
  | modeSet (r : CmdRef) (mask : Byte) (code : BitVec 4)
  | modeNote (bay : Fin 8) (code : BitVec 4)
  | bayControl (r : CmdRef) (bay : Fin 8) (action : Byte)
  | bayNote (bay : Fin 8) (action : Byte)
  | volumeMounted (number : Half) (found : List CatFinding) (rows : List (List Nat)) (collDigest : BitVec 384) (records : List Quire) (amends : List Amend)
  | volumeClosed
  | volumeUnmount
  | volumeFiled
  | surfaceNote (surface : Fin 16) (r20 strikes readOnly : Bool)
  | rebuildNote (quire : Nat)
deriving DecidableEq, Repr

/-- What a line that the Burnisher reads holds, as far as R274 tells lines apart: a block of a version of this twin's own write, a version
mirrored for the twin (both by admission sequence), Folio Map entries, the journal or pointer records, a queue context, a calibration record, a line of
the Map Cache, anything else. -/
inductive LineKind where
  | own (seq block : Nat)
  | mirror (seq : Nat)
  | folioMap
  | journal
  | queueContext (ctrl : Fin 2)
  | calibration (opu layer : Fin 16)
  | mapCache
  | other
deriving DecidableEq, Repr

/-- A firmware image as staged (R350): its header fields and whether digest and signature check out is decided from them. -/
structure FwImage where
  kind : Byte := 0
  raiseFloor : Bool := false
  spineVersion : Half := 0
  secVersion : Nat := 0
  revision : Bytes := []
  body : Bytes := []
  digest : BitVec 384 := 0
  signature : BitVec 768 := 0
  magicOk : Bool := false
deriving DecidableEq, Repr

/-- A slot record of the key area (R336) as the reset reload reads it: slot, state, KCV, key token, namespace. -/
structure SlotRecord where
  slot : Fin 2048
  active : Bool
  kcv : Word
  key : BitVec 256
  nsid : BitVec 6
  write : Bool
deriving DecidableEq, Repr

/-- The commands, one per row of spec/opcode_table.json, in its order. -/
inductive Instr where
  /-- R368 -/ | powerOnReset
  /-- R368 -/ | warmReset (cause : WarmCause)
  /-- R368 -/ | perstN (port : Fin 2)
  /-- R41 -/ | stitchEdge (inp : EdgeIn)
  /-- R312 -/ | sampleFrameLand (f : SampleFrame) (crcOk : Bool)
  /-- R44 -/ | sampleFrameAbsent (bay : Fin 8)
  /-- R322 -/ | absentStop (bay : Fin 8)
  /-- R314 -/ | spotPacket (bay : Fin 8) (spot : Fin 16) (stitch16 offset : Half) (samples : Bytes) (crcOk : Bool)
  /-- R49; check 1, 2, 3 of TCK_OVERRUN_INFO -/ | stitchOverrun (bays : Byte) (check : Fin 4)
  /-- R149 -/ | plausibilityAction (cell : Fin 96)
  /-- R46 -/ | alignmentFault
  /-- R51 -/ | snapshotRequest (pair : Bool)
  /-- R52 -/ | snapshotCapture
  /-- R52 -/ | snapshotRelease
  /-- R400 -/ | bindingLoad (r : CmdRef) (offset : Word) (chunk : Bytes) (last : Bool)
  /-- R400 -/ | bndCheck
  /-- R40 -/ | bndAbort
  /-- R35 -/ | bndArm
  /-- R35 -/ | bindingActivate (r : CmdRef) (commit : Dword)
  /-- R31 -/ | bindingCheckDone
  /-- R36 -/ | bindingPairTimeout
  /-- R37 -/ | trimCommit
  /-- R38 -/ | structuralCommit
  /-- R138 -/ | srvClose (cell : Fin 96) (src : Src)
  /-- R137 -/ | srvOpen (cell : Fin 96) (src : Src)
  /-- R147; ARG [8:0] -/ | srvJump (cell : Fin 96) (src : Src) (target present : BitVec 4) (given : Bool)
  /-- R148 -/ | srvSeek (cell : Fin 96) (src : Src) (tracks : BitVec 24)
  /-- R142 -/ | srvOffset (cell : Fin 96) (src : Src) (component : BitVec 2) (value : Half)
  /-- R139 -/ | effectStitchReached (obj : Obj)
  /-- R146, R148 -/ | searchTimeout (cell : Fin 96)
  /-- R147 -/ | jumpKickEnd (cell : Fin 96)
  /-- R147 -/ | jumpBrakeEnd (cell : Fin 96)
  /-- R147 -/ | jumpDwellEnd (cell : Fin 96)
  /-- R147 -/ | jumpSettleEnd (cell : Fin 96)
  /-- R147 -/ | jumpTimeout (cell : Fin 96)
  /-- R148 -/ | seekKickEnd (cell : Fin 96)
  /-- R148 -/ | seekCaptureWindowEnd (cell : Fin 96)
  /-- R148 -/ | seekSettleEnd (cell : Fin 96)
  /-- R148 -/ | seekTimeout (cell : Fin 96)
  /-- R137 -/ | holdMaxExpiry (cell : Fin 96)
  /-- R137 -/ | holdRelease (cell : Fin 96)
  /-- R136 -/ | retractComplete (cell : Fin 96)
  /-- R163 -/ | spdStart (unit : Fin 8) (src : Src) (rpm : BitVec 13)
  /-- R165 -/ | spdStop (unit : Fin 8) (src : Src) (coast : Bool)
  /-- R157 -/ | spdSpeed (unit : Fin 8) (src : Src) (rpm : BitVec 13)
  /-- R161 -/ | spdClear (unit : Fin 8) (src : Src)
  /-- R163 -/ | senseComplete (unit : Fin 8)
  /-- R161 -/ | alignComplete (unit : Fin 8)
  /-- R164 -/ | rampTimeout (unit : Fin 8)
  /-- R164 -/ | startBrakeEnd (unit : Fin 8)
  /-- R163 -/ | backwardBrakeTimeout (unit : Fin 8)
  /-- R160 -/ | lossOfSync (unit : Fin 8)
  /-- R160 -/ | spindleLock (unit : Fin 8)
  /-- R160 -/ | spindleUnlock (unit : Fin 8)
  /-- R159 -/ | overspeedFault (unit : Fin 8)
  /-- R162 -/ | standstill (unit : Fin 8)
  /-- R161 -/ | shortBrakeComplete (unit : Fin 8)
  /-- R167 -/ | busBlockClear (group : Fin 8)
  /-- R168 -/ | busTrip (group : Fin 8)
  /-- R200 -/ | inertiaMeasured (unit : Fin 8)
  /-- R178 -/ | motMove (axis : Fin 32) (src : Src) (target : BitVec 20)
  /-- R181 -/ | motRampStop (axis : Fin 32) (src : Src)
  /-- R181 -/ | motHardStop (axis : Fin 32) (src : Src)
  /-- R184 -/ | motHome (axis : Fin 32) (src : Src)
  /-- R185 -/ | motRelease (axis : Fin 32) (src : Src)
  /-- R185 -/ | motEnergise (axis : Fin 32) (src : Src)
  /-- R176 -/ | motClear (axis : Fin 32) (src : Src)
  /-- R184 -/ | homingTimeout (axis : Fin 32)
  /-- R186 -/ | followMoveStart (axis : Fin 16)
  /-- R110 -/ | folioReadRequest (r : ReadReq)
  /-- R107 -/ | readPassStart (tag : Nat)
  /-- R88 -/ | timingLockLoss (cell : Fin 64)
  /-- R97 -/ | folioReadEnd (tag slot : Nat)
  /-- R103 -/ | codewordDispatch
  /-- R102 -/ | ldpcDecodeDone (tag slot : Nat)
  /-- R110 -/ | readDeadlineExpiry (tag : Nat)
  /-- R213; by leaf index, payload bytes 0x0040 on of the row's folios that the other twin has read on surfaces it runs -/ | reconstructionDone (quire : Nat) (row : Fin 64) (told : List (Nat × Bytes)) (rebuild : Bool)
  /-- R114 -/ | writeRunStart (quire : Nat) (leaf : Fin 16) (reserve : Bool)
  /-- R114 -/ | encoderUnderrun (opu : Fin 16) (slot : Nat)
  /-- R122 -/ | folioVerdict (opu : Fin 16) (slot : Fin 68)
  /-- R127 -/ | laserReeval (mask : Half)
  /-- R217 -/ | quireAgeTimeout (quire : Nat)
  /-- R221 -/ | journalCommitDone (quire : Nat)
  /-- R222 -/ | directoryAgeTimeout
  /-- R222 -/ | fileNow
  /-- R205 -/ | mount
  /-- R205; per surface what was found; of the newest directories: Collation in use, filed quire records, amendments -/ | mountCatalogueReadDone (found : List CatFinding) (rows : List (List Nat)) (collDigest : BitVec 384) (records : List Quire) (amends : List Amend)
  /-- R208 -/ | unmount
  /-- R226 -/ | rebuildPause (hold : Bool)
  /-- R225 -/ | clearFail (surface : Fin 16)
  /-- R226 -/ | rebuildStart
  /-- R190; what the reads of the run search of R194 report, bit i read i: blank, where the search is made -/ | calibrationRunStart (opu layer : Fin 16) (kind : CalKind) (blank : BitVec 7)
  /-- R191; of a BFE offset run the 8 codes that bring the mean samples within ±2 LSB of zero (R198), where found -/ | calibrationRunDone (opu layer : Fin 16) (kind : CalKind) (codes : Option (List Int))
  /-- R192 -/ | calStep (opu : Fin 16)
  /-- R189 -/ | calElapsedTimer (opc : Bool)
  /-- R189 -/ | calReq (kind : BitVec 4) (opu layer : Fin 16)
  /-- R323 -/ | laneRetrain (port : Fin 8) (lane : Fin 5)
  /-- R232 -/ | sqTailDoorbell (ctrl : Fin 2) (qid : Fin 65536) (tail : Half)
  /-- R232 -/ | cqHeadDoorbell (ctrl : Fin 2) (qid : Fin 65536) (head : Half)
  /-- R233; CC as written, with CC.EN 1, and AQA, ASQ and ACQ as they stand -/ | controllerEnable (ctrl : Fin 2) (cc aqa : Word) (asq acq : Dword)
  /-- R268 -/ | controllerReset (ctrl : Fin 2)
  /-- R385 -/ | interruptMaskSet (ctrl : Fin 2) (mask : Word)
  /-- R385 -/ | interruptMaskClear (ctrl : Fin 2) (mask : Word)
  /-- R238 -/ | commandFetch (ctrl : Fin 2) (qid : Fin 65536) (entries : List Sqe)
  /-- R254 -/ | commandAdmission (r : CmdRef) (lateU : Bool)
  /-- R267 -/ | writeDataFetch (r : CmdRef) (blocks : List BlockIn)
  /-- R267 -/ | backpressureTimeout (r : CmdRef)
  /-- R331 -/ | cipherBlockDone (lane : Fin 8) (r : CmdRef) (block : Nat) (agree : Bool)
  /-- R328; the slot named in the block's IV, the tag comparison, the stored reference tag against the LBA's (type 1), which of guard,
  application and reference tag (bits 2, 1, 0 as PRCHK) disagree with the command -/ | blockDecryptDone (lane : Fin 8) (r : CmdRef) (block : Nat) (slot : Fin 2048) (tagOk refOk : Bool) (hostChk : BitVec 3) (fromBuffer : Bool) (final : Bool)
  /-- R260 -/ | writeAckPoint (r : CmdRef)
  /-- R255 -/ | read (r : CmdRef)
  /-- R260 -/ | write (r : CmdRef)
  /-- R264 -/ | flush (r : CmdRef)
  /-- R235 -/ | verify (r : CmdRef)
  /-- R243 -/ | zoneAppend (r : CmdRef)
  /-- R243 -/ | zoneOpen (r : CmdRef) (sel : ZoneSel)
  /-- R243 -/ | zoneClose (r : CmdRef) (sel : ZoneSel)
  /-- R243 -/ | zoneFinish (r : CmdRef) (sel : ZoneSel)
  /-- R243 -/ | zoneReset (r : CmdRef) (sel : ZoneSel)
  /-- R243 -/ | zoneOffline (r : CmdRef)
  /-- R243 -/ | zoneSetDescriptorExtension (r : CmdRef)
  /-- R243 -/ | zoneManagementReceive (r : CmdRef)
  /-- R238 -/ | createIoSq (r : CmdRef) (qid : Fin 65536) (size : Half) (cqid : Fin 65536)
  /-- R237 -/ | createIoCq (r : CmdRef) (qid : Fin 65536) (size : Half) (vector : Half) (ien : Bool)
  /-- R240 -/ | deleteIoSq (r : CmdRef) (qid : Fin 65536)
  /-- R240 -/ | deleteIoCq (r : CmdRef) (qid : Fin 65536)
  /-- R234 -/ | identify (r : CmdRef) (cns : Byte) (nsid : Word)
  /-- R249 -/ | getLogPage (r : CmdRef) (lid : Byte) (offset : Dword) (length : Word)
  /-- R266 -/ | abort (r : CmdRef) (sqid : Fin 65536) (cid : Half)
  /-- R236 -/ | setFeatures (r : CmdRef) (f : Feature) (value : Dword) (save : Bool)
  /-- R236 -/ | getFeatures (r : CmdRef) (f : Feature) (sel : BitVec 3)
  /-- R252 -/ | asyncEventRequest (r : CmdRef)
  /-- R241 -/ | namespaceCreate (r : CmdRef) (n : NsCreate)
  /-- R241 -/ | namespaceDelete (r : CmdRef) (nsid : Word)
  /-- R241 -/ | namespaceAttachment (r : CmdRef) (nsid : Word) (ctrls : List Nat) (attach : Bool)
  /-- R359 -/ | firmwareImageDownload (r : CmdRef) (offset : Word) (data : Bytes)
  /-- R359 -/ | fwCommitReplace (r : CmdRef) (slot : BitVec 3)
  /-- R359 -/ | fwCommitReplacePending (r : CmdRef) (slot : BitVec 3)
  /-- R359 -/ | fwCommitPending (r : CmdRef) (slot : BitVec 3)
  /-- R360 -/ | fwCommitActivate (r : CmdRef) (slot : BitVec 3)
  /-- R269 -/ | fetchPauseHandoff
  /-- R361 -/ | activationTimeout
  /-- R248, R364 -/ | mailboxPost (r : CmdRef) (msg : Bytes)
  /-- R248, R364 -/ | mailboxFetch (r : CmdRef) (length : Half)
  /-- R379 -/ | modeSet (r : CmdRef) (mask : Byte) (code : BitVec 4)
  /-- R377 -/ | modeChangeEffect (opu : Fin 16)
  /-- R378 -/ | holdWaitExpiry (bay : Fin 8)
  /-- R378 -/ | holdReached (bay : Fin 8)
  /-- R368 -/ | bayReset (r : CmdRef) (bay : Fin 8)
  /-- R401 -/ | leaveSafeStop (r : CmdRef) (bay : Fin 8)
  /-- R189 -/ | discLoaded (r : CmdRef) (bay : Fin 8)
  /-- R378 -/ | prepareExchange (r : CmdRef) (bay : Fin 8)
  /-- R355 -/ | colophonRead (r : CmdRef) (first count : Word)
  /-- R372 -/ | bayBringupStep (bay : Fin 8)
  /-- R372 -/ | spindleHandoff (bay : Fin 8)
  /-- R380; estimate of the window in 0.1 W, 1 ms means of the 16 die sensors (0.25 °C) and 12 voltage monitors (mV), SYS_REF offset in ppm, PCIe (bit 0) and SerDes (bit 1) references outside ±300 ppm -/ | powerWindow (est : Half) (temps : List Int) (volts : List Nat) (ppm : Int) (refs : BitVec 2)
  /-- R382 -/ | thermalShutdown
  /-- R382 -/ | thermalTrip
  /-- R287 -/ | powerFailDetect
  /-- R287 -/ | vaultDone
  /-- R289; of an image that did not end with VAULT_DONE: whether a commit page covers its control area, and the versions, by twin and
  admission sequence, whose data pages none covers -/ | vaultReplayDone (control : Bool) (dropped : List (Nat × Nat))
  /-- R290 -/ | replayedImageErase
  /-- R285 -/ | vaultEraseDone (bytes : Dword)
  /-- R286 -/ | vaultGroupClose
  /-- R286 -/ | vaultCommitDone
  /-- R281; the bits of the 16 words of the line found flipped, a tag parity error (Map Cache), what the line holds, another write reached
  the line since -/ | burnisherLine (flips : List (BitVec 39)) (tagParity : Bool) (holds : LineKind) (overtaken : Bool)
  /-- R275 -/ | flipMaskArm (ctl : Word)
  /-- R277 -/ | mapCacheLock (value : Word)
  /-- R298 -/ | heartbeatReceive (h : Heartbeat)
  /-- R298 -/ | heartbeatMissing
  /-- R304 -/ | spineLinkLost (linkDown : Bool)
  /-- R300 -/ | spineLinkRestored
  /-- R295 -/ | spineLaneDrop (lane : Fin 8)
  /-- R303; what the other twin shows: its strap, pair serial, active digest, whether it runs bays beyond its ownership -/ | pairing (peerId : Fin 2) (serial : BitVec 128) (digest : BitVec 384) (single : Bool)
  /-- R303 -/ | pairingBindingCheck (container : Bytes)
  /-- R301 -/ | aliveInDead
  /-- R301 -/ | aliveInLive
  /-- R302 -/ | resync (mask : Byte)
  /-- R302 -/ | resyncCapture (bay : Fin 8)
  /-- R302 -/ | statePacketReceive (bay : Fin 8) (image : StateImage)
  /-- R302 -/ | resyncTimeout (bay : Fin 8)
  /-- R49 -/ | overrunPacketReceive (bay : Fin 8) (stitch : Dword)
  /-- R297 -/ | mirrorDataReceive (twin : Fin 2) (seq : Dword) (nsid : Word) (slba : Dword) (blocks : List Bytes) (classU : Bool)
  /-- R297 -/ | journalRecordReceive (rec_ : JournalRec)
  /-- R297 -/ | mirrorAckReceive (seq : Dword)
  /-- R246 -/ | forwardedCommandReceive (f : Forwarded)
  /-- R246 -/ | forwardedCompletionReceive (r : CmdRef) (st : Status) (dw0 : Dword) (data : Bytes)
  /-- R215 -/ | peerLeafRequest (quire : Nat) (leaf : Fin 16) (surface : Fin 16)
  /-- R215 -/ | peerLeafReply (quire : Nat) (leaf : Fin 16) (layer : Fin 16) (frame gen : Nat)
  /-- R215 -/ | peerLeafVerdict (quire : Nat) (leaf : Fin 16) (verified : Bool) (counted : Bool)
  /-- R296 -/ | managementPacketReceive (m : MgmtMsg)
  /-- R307 -/ | handBackRequest (mask : Byte)
  /-- R307 -/ | handBackStart (bay : Fin 8)
  /-- R307 -/ | handoverStitch (bay : Fin 8)
  /-- R334 -/ | kcvMatch (slot : Fin 2048) (kcv : Word)
  /-- R335 -/ | keyImport
  /-- R337 -/ | keySlotClear (slot : Fin 2048)
  /-- R339 -/ | lcNonceRead
  /-- R339, R365 -/ | lifecycleTransition (tag : Word) (body : Bytes)
  /-- R339 -/ | lifecycleCommit
  /-- R335, R364 -/ | mailboxKeyImport (tag : Word) (blob : Bytes)
  /-- R340, R364 -/ | lowerVotedLimit (tag : Word) (which fuses : Byte)
  /-- R337, R364 -/ | newWriteSlot (tag : Word) (nsid : Word) (slot : Half)
  /-- R358, R364 -/ | endsheetOwnerSection (tag : Word) (offset : Word) (last : Bool) (data : Bytes)
  /-- R364 -/ | domainRequest (tag : Word) (offset : Word) (value : Dword) (width : Byte)
  /-- R364 -/ | mailboxResponseRead
  /-- R341; word 0 life-cycle, 1 Binding floor, 2 firmware floor, 3 spindle, 4 laser; the three copies as read -/ | votedWordMismatch (word : Fin 5) (a b c : Nat)
  /-- R330 -/ | drbgReseed
  /-- R330 -/ | entropyHealthFail
  /-- R330 -/ | entropyRecover
  /-- R345 -/ | lockstepMismatch
  /-- R346 -/ | bayRelease
  /-- R346 -/ | bayReleaseEnd
  /-- R363 -/ | eventLogPageWrite
  /-- R353 -/ | bfeIdentityAssembled (bay : Fin 8)
  /-- R310 -/ | headbandPortUp (port : Fin 8) (latNs : Half)
  /-- R319; what is on twin 0's port and on twin 1's port at the edge -/ | bfeEdge (bay : Fin 8) (port0 port1 : Arrival) (frameOffsetNs : Int)
  /-- R319 -/ | bfeHoldExpiry (bay : Fin 8) (other : Arrival)
  /-- R356 -/ | mctpSetEndpointId (eid : Byte)
  /-- R356 -/ | mctpGetEndpointId
  /-- R356 -/ | mctpGetVersionSupport (type : Byte)
  /-- R356 -/ | mctpGetMessageTypeSupport
  /-- R356; PLDM type 5: component, its image data when complete, or activate -/ | pldmFirmwareUpdate (component : Half) (offset : Word) (data : Bytes) (activate : Bool)
  /-- R356 -/ | nvmeMiReadDataStructure (kind : Byte)
  /-- R356 -/ | nvmeMiHealthStatusPoll (ctrl : Option (Fin 2))
  /-- R356 -/ | nvmeMiConfigurationGet (id : Byte)
  /-- R356 -/ | nvmeMiConfigurationSet (id : Byte) (value : Word)
  /-- R356 -/ | nvmeMiTunnelledAdmin (opcode : Byte) (arg : Byte)
  /-- R357 -/ | spdmGetCertificate (slot : Byte)
  /-- R357 -/ | spdmChallenge (slot : Byte) (nonce : BitVec 256)
  /-- R357 -/ | spdmGetMeasurements (index : Byte) (nonce : BitVec 256)
  /-- R5; BAR2 offset and access width in bytes -/ | splitReadLatch (offset : Nat) (width : Nat)
  /-- R368 -/ | resetCauseClear (mask : BitVec 7)
  /-- R386; the block whose CLR_CNT is written, in base order -/ | counterClear (block : Fin 17)
  /-- R3; BAR2 offset, access width in bytes, value -/ | registerWrite (offset : Nat) (width : Nat) (value : Dword)
  /-- R370; straps as sampled, DIMM sizes in GiB, vault rate measured in MB/s, the ONFI channels that answer, whether the vault programs -/
  | resetRelease (twinId : Fin 2) (split : Bool) (dimm0 dimm1 : Byte) (rate : Half) (channels : BitVec 4) (programs : Bool)
  /-- R370 -/ | startupComplete
  /-- R370 -/ | pairingTimeout
  /-- R399 -/ | powerFailClear
  /-- R295 -/ | spineLaneRestore (lane : Fin 8)
  /-- R324 -/ | headbandLaneLoss (port : Fin 8) (lane : Fin 3)
  /-- R321 -/ | bfeReset (bay : Fin 8)
  /-- R87 -/ | timingLockDeclared (cell : Fin 64)
  /-- R88 -/ | timingLockRegained (cell : Fin 64)
  /-- R269 -/ | activationFetchResume
deriving DecidableEq, Repr

end Sys2Proof
end

