-- ==== Sys2Proof/WellFormed.lean ====
section
/-! DEFINITION. Which commands are well formed: the shapes of their list operands, as the frame, packet and record tables give them. An
operand that the spec gives a refusal for is well formed: its meaning refuses it. -/

namespace Sys2Proof

/-- A sample frame has the words and records of R312 and R313. -/
def SampleFrame.wf (f : SampleFrame) : Bool :=
  f.sensA.length == 32 && f.sensB.length == 32 && f.spin.length == 16 && f.axis.length == 4 && f.ident.length == 8 && f.wobble.length == 8 &&
    f.emit.length == 8 && decide (f.misses.toNat ≤ 64) && f.obeys != 3

/-- A command frame has the words of R315. -/
def CmdFrame.wf (f : CmdFrame) : Bool :=
  f.u.length == 8 && f.spin.length == 3 && f.axis.length == 4 && decide (3 ≤ f.hold.toNat) && decide (f.hold.toNat ≤ 64)

/-- What arrives on a port of a bay front end. -/
def Arrival.wf : Arrival → Bool
  | .nothing => true
  | .command f _ => f.wf
  | .keep _ _ => true

/-- A heartbeat has a digest for each bay and counts its commands in one byte (R298). -/
def Heartbeat.wf (h : Heartbeat) : Bool := h.digests.length == 8 && decide (h.cmds.length < 256)

/-- A read request names slots of a leaf, none twice (R62, R109). -/
def ReadReq.wf (r : ReadReq) : Bool := !r.slots.isEmpty && r.slots.all (fun k => decide (k < 68)) && decide r.slots.Nodup

/-- A read row names each leaf of the row at most once (R213). -/
def rowWf (known : List (Nat × Bytes)) : Bool := known.all (fun e => decide (e.1 < 16)) && decide (known.map (·.1)).Nodup

/-- Eight analogue offset codes, signed 7 bits each (R198). -/
def codesWf (codes : Option (List Int)) : Bool :=
  match codes with
  | none => true
  | some v => v.length == 8 && v.all (fun c => decide (-64 ≤ c) && decide (c ≤ 63))

/-- Access widths of R3 in bytes. -/
def widthWf (w : Nat) : Bool := w == 1 || w == 2 || w == 4 || w == 8

/-- A command is well formed. -/
def Instr.wf : Instr → Bool
  | .sampleFrameLand f _ => f.wf
  | .spotPacket _ _ _ _ samples _ => samples.length == 256
  | .folioReadRequest r => r.wf
  | .reconstructionDone _ _ known _ => rowWf known
  | .mountCatalogueReadDone found _ _ _ _ => found.length == 16
  | .calibrationRunDone _ _ _ codes => codesWf codes
  | .writeDataFetch _ blocks => blocks.all (fun b => b.data.length == 4096)
  | .powerWindow _ temps volts _ _ => temps.length == 16 && volts.length == 12
  | .burnisherLine flips _ _ _ => flips.length == 16
  | .heartbeatReceive h => h.wf
  | .mirrorDataReceive _ _ _ _ blocks _ => !blocks.isEmpty
  | .bfeEdge _ port0 port1 _ => port0.wf && port1.wf
  | .bfeHoldExpiry _ other => other.wf
  | .splitReadLatch _ width => widthWf width
  | .registerWrite _ width _ => widthWf width
  | _ => true

end Sys2Proof
end

