-- ==== Sys2Proof/Config.lean ====
section
/-! DEFINITION. What the spec leaves open or names by an outside standard: uninterpreted functions (nothing in Lean
can compute them, log entry 3), and the fixed sizes of the device. -/

namespace Sys2Proof.Config

/-- SHA-384 (R26, R284, R352), a named standard the spec does not print. -/
opaque sha384 : Bytes → BitVec 384
/-- ECDSA P-384 verification under the Lanvowald Binding key (R27). -/
opaque sigLanvowald : BitVec 384 → Bytes → Bool
/-- ECDSA P-384 verification under the owner Binding key whose hash OTP holds (R27). -/
opaque sigOwner : BitVec 384 → BitVec 384 → Bytes → Bool
/-- ECDSA P-384 verification of a firmware header under the Lanvowald firmware key (R350). -/
opaque sigFirmware : BitVec 384 → BitVec 768 → Bool
/-- ECDSA P-384 verification of a life-cycle request: the signer's public key, body, signature (R365). -/
opaque sigRequest : Bytes → BitVec 384 → Bytes → Bool
/-- SHA-384 hash of the Lanvowald key, fixed in ROM (R27, R365). -/
opaque lanvowaldKeyHash : BitVec 384
/-- Signature of a Colophon record or SPDM message under the attestation key of a life-cycle state (R352, R357). -/
opaque attest : Nat → BitVec 384 → BitVec 768
/-- AES-256-GCM encryption of R325: key, IV, AAD, plaintext; the ciphertext. -/
opaque gcmText : BitVec 256 → Bytes → Bytes → Bytes → Bytes
/-- AES-256-GCM encryption of R325: key, IV, AAD, plaintext; the tag. -/
opaque gcmTag : BitVec 256 → Bytes → Bytes → Bytes → BitVec 128
/-- AES-256-GCM decryption of R328: key, IV, AAD, ciphertext, tag; the plaintext if the tag verifies. -/
opaque gcmOpen : BitVec 256 → Bytes → Bytes → Bytes → BitVec 128 → Option Bytes
/-- Unwrapping of an import blob under the import key of a life-cycle state (R333, R335). -/
opaque unwrapKey : Nat → Bytes → Option (BitVec 256)
/-- A key wrapped with AES-KW under the storage key of a life-cycle state: 40 bytes (R333, R336). -/
opaque wrapStore : Nat → BitVec 256 → Bytes
/-- The vault key of a life-cycle state and a vault epoch (R333). -/
opaque vaultKey : Nat → Nat → BitVec 256
/-- Inertia in per mille of the Flyleaf reference that i_q, its sum over a number of stitches, shows at an acceleration (R200). -/
opaque inertiaOf : Int → Nat → Nat → Nat
/-- Cache extent index of an ingest record, by twin and ingest sequence: no rule says how extents are numbered (R219). -/
opaque cacheExtent : Nat → Nat → Nat
/-- Key check value: first 4 bytes of AES-256 under the key of a zero block (R334). -/
opaque kcv : BitVec 256 → BitVec 32
/-- Public half of the import key pair in a life-cycle state, 97 bytes (R333, KST_IMPORT_PUB). -/
opaque importPub : Nat → Nat → BitVec 32
/-- The certificate chain the Flyleaf holds for a life-cycle state (R357). -/
opaque certChain : Nat → Bytes
/-- A fresh 64-bit nonce: the n-th value drawn (R339). -/
opaque freshNonce : Nat → BitVec 64
/-- A free 64-bit value: the n-th value drawn, for what the spec leaves open after an effect. -/
opaque freeWord : Nat → BitVec 64
/-- Bytes that the spec leaves open: the n-th value drawn. -/
opaque freeBytes : Nat → Bytes
/-- The PI field that the device generates with PRACT (R244) for an LBA format, PI type, block and reference tag: T10 and NVMe CRCs. -/
opaque makePi : Nat → Nat → Bytes → Nat → Bytes
/-- The snapshot window's layout is not printed (R52): word at an offset of the n-th snapshot. -/
opaque snapWord : Nat → Nat → BitVec 32
/-- Length of the n-th snapshot in units of 8 B. -/
opaque snapLength : Nat → BitVec 20
/-- Bytes of a standard data structure (NVMe 2.0, NVMe-MI 1.2, MCTP, PLDM) that the spec names and does not print:
structure number, argument. -/
opaque stdData : Nat → Nat → Bytes
/-- Sine of an electrical angle as a Q1.15 word (R157): the spec names the transforms and prints no table. -/
opaque sinQ15 : BitVec 32 → Int
/-- Two thirds of that sine as a Q1.15 word, for the transform of the phase currents (R157). -/
opaque sinTwoThirds : BitVec 32 → Int
/-- Whether an angle step times a part of a stitch that is no whole number rounds up (R156: rounding not printed). -/
opaque angleRoundsUp : Int → Bool
/-- Angle of the back-EMF vector of three floated phases (R163): an arctangent the spec prints no table of. -/
opaque emfAngle : Int → Int → Int → BitVec 32
/-- A result that its register cannot hold (R172: a velocity past 32 bits, a position past 64): the spec states none. -/
opaque outOfRange : Nat → Int → BitVec 64
/-- Duty of the align and ramp vectors (R161, R164): electrical angle, current in % of I_RATED, I_RATED, VBUS. -/
opaque spdVector : BitVec 32 → Nat → Nat → Nat → Nat × Nat × Nat
/-- The interpolator's value between recent samples, newest first, at a fraction of a sample in 2⁻²⁴ (R87): its filter is not printed. -/
opaque interpolate : List Int → Int → Int
/-- The tentative decision (an NRZ level) from recent equaliser outputs and decisions, newest first (R86): not printed. -/
opaque tentative : List Int → List Bool → Bool
/-- Phase error in 1/256 UI against the known preamble pattern, at a channel bit (R87): the detector is not printed. -/
opaque phaseKnown : Nat → List Int → Int
/-- Phase error in 1/256 UI against tentative decisions (R87): the detector is not printed. -/
opaque phaseDecided : List Int → List Bool → Int
/-- Size of a likelihood from D and a metric difference (R89): the scale is not printed. -/
opaque likelihoodSize : Nat → Nat → Nat
/-- Sequence Margin of a span without bits, or with D zero (R90): the spec states none. -/
opaque marginOfNothing : Nat → Int
/-- Identity of the Flyleaf depth position of a layer in corrector microsteps (R55, R188). -/
opaque correctorStart : Nat → Int
/-- Flyleaf strategy set and levels of a layer (R188), as the 72 bytes of R203 offsets 0x020 to 0x067. -/
opaque flyleafStrategy : Nat → Bytes
/-- Flyleaf equaliser preset table of the Channel Graph (R86): preset number to 15 taps. -/
opaque eqPreset : Nat → List Int
/-- A quotient whose divisor is zero (R180 with AMAX 0 or JMAX 0): the spec states no result. -/
opaque divByZero : Int → Int
/-- What an SPDM signature covers (R357): the hash of a transcript that the standard, not the spec, lays out: request code, parameters,
response. -/
opaque spdmHash : Nat → Bytes → BitVec 384
/-- Capacity of the staging buffer's slot in bytes (R347, R348). -/
def fwSlotBytes : Nat := 8 * 1024 * 1024
/-- Capacity of a boot loader slot (R348). -/
def bootSlotBytes : Nat := 512 * 1024
/-- Stitches in one millisecond (4 µs each). -/
def ms : Nat := 250
/-- Stitches in one second. -/
def sec : Nat := 250000

end Sys2Proof.Config
end

