-- ==== Sys2Proof/Machine/State.lean ====
section
/-! DEFINITION. The state of the block as plain data: one record per subsystem of R8, the bay front ends of
16_headband_link.md, the outgoing messages, and the queue of waiting commands. INVENTORY.md lists every field with its
rule and its reset value. -/

namespace Sys2Proof.Machine

/-- Bus groups (R166 to R168): blocked and tripped masks, clean runs per bay, consecutive trip stitches per bay. -/
structure Bus where
  blocked : Byte := 0
  tripped : Byte := 0
  clean : Tbl Nat := []
  overT : Tbl Nat := []
deriving DecidableEq, Repr

/-! ### Headband and bay front ends (16_headband_link.md) -/

/-- An address unit whose CRC was correct: its word, and the stitch (16 bits, in the bay's count) and offset of its first channel bit
(R60, R313). -/
structure AddrSeen where
  word : BitVec 56 := 0
  stitch : Nat := 0
  offset : Nat := 0
deriving DecidableEq, Repr

/-- A Headband port of the twin. By side: where a seek ends (in tracks), the layer, frame and position of the last address unit of a frame, the zone
of the last unit if it lay in a seam, the track of a move by sled; by emitter the last three wobble records, newest first. -/
structure Port where
  up : Bool := false
  lanes : BitVec 5 := 0
  latNs : Half := 0
  eyes : List Byte := []
  landed : Option SampleFrame := none
  last : Option SampleFrame := none
  prevA : List Half := []
  prevB : List Half := []
  absent : Bool := false
  absentRun : Nat := 0
  stopped : Bool := false
  slices : Tbl Bytes := []
  ident : Option Bytes := none
  idRecorded : Bool := false
  sent : Option CmdFrame := none
  formed : Option CmdFrame := none
  keep : Option Keepalive := none
  spotEn : Half := 0
  readEn : Byte := 0
  rate : BitVec 2 := 0
  gain : List (BitVec 6) := []
  offs : List (BitVec 7) := []
  pb : List (BitVec 10) := []
  retrain : BitVec 5 := 0
  wake : Bool := false
  addrTarget : Tbl Int := []
  addrLayer : Tbl Nat := []
  addrFrame : Tbl Nat := []
  addrPos : Tbl Nat := []
  addrSeam : Tbl Nat := []
  addrSeen : Tbl (List (Option AddrSeen)) := []
  moveTo : Tbl Int := []
deriving DecidableEq, Repr

/-- The driver of one axis in a front end (R173, R174, R185): its microstep position, power, the phase index a PARK latched, and whether the
last ENERGISE restored one. -/
structure BfeAxis where
  pos : Int := 0
  powered : Bool := false
  latched : Option Nat := none
  retained : Bool := false
deriving DecidableEq, Repr

/-- An emitter's stream in a front end (R116, R119 to R121): words not yet used, the instant of the next mark in T/32 from the edge of the stitch
under way (none before a start word), T_CL, T_MP and the levels in force, the drive of this stitch as spans in T/32 with their levels, whether a
run is on, the cause of its end, words of a level set still to come. -/
structure Beam where
  words : List Word := []
  at_ : Option Int := none
  tCl : Nat := 0
  tMp : Nat := 0
  levels : List Nat := []
  drive : List (Int × Int × Nat) := []
  on : Bool := false
  ended : Nat := 0
  awaits : Nat := 0
deriving DecidableEq, Repr

/-- A bay front end (R312 to R324, R406). -/
structure Bfe where
  obeys : Nat := 2
  misses : Nat := 0
  holding : Bool := false
  safeStop : Bool := false
  ownStop : Bool := false
  reset : Bool := true
  readySeen : Bool := false
  exempt : Bool := true
  count : Nat := 0
  hold : Nat := 8
  last : Option CmdFrame := none
  u : List Int := []
  spin : List Half := []
  axis : List Half := []
  drivers : Tbl BfeAxis := []
  beams : Tbl Beam := []
  emitters : Bool := false
  focusStart : List Int := []
  focusI : Nat := 0
  braking : Bool := false
  rate : Nat := 0
  alignNs : Int := 0
  outside : Nat := 0
  align : Bool := false
  actFault : Bool := false
  runEnd : Nat := 0
deriving DecidableEq, Repr

/-! ### Stitch, power, bays (03, 19) -/

/-- Outcome of a mark search of the framer: best match's position relative to the expected one, and its mismatches (R95 to R97). -/
structure MarkHit where
  off : Int
  errs : Nat
deriving DecidableEq, Repr

/-- One look of a channel cell at a folio (R85 to R88, R98): its channel bits so far, the equaliser outputs, newest first; the spans that the
envelope detector dropped or that were absent, and those without lock (the last one open while its end is none); the bit at which lock was
declared; extremes of the preamble; the stitch of channel bit 0, in 16 bits, and its offset in that stitch; the taps at its end. -/
structure Look where
  started : Bool := false
  n : Nat := 0
  vals : List Int := []
  drops : List (Nat × Nat) := []
  lost : List (Nat × Option Nat) := []
  lockAt : Option Nat := none
  ext : Option (Int × Int) := none
  stitch : Nat := 0
  bit : Nat := 0
  taps : List Int := []
deriving DecidableEq, Repr

/-- A channel cell (R81 to R98, RDC_CELL registers): what its registers show; the margins of the folio before in the run; timing loop (frequency
and next strobe in 2^-24 bits, phase errors of the last 256 bits); samples, filter inputs and outputs, decisions, newest first; taps with
their fractions; baseline in 1/256, digital gain Q2.10; the envelope's window and reference; the folio under way and those before it, newest first; the
frame buffer (R95). -/
structure Chan where
  st : Nat := 0
  opu : Nat := 0
  spot : Nat := 0
  shared : Bool := false
  gain : Nat := 0
  offs : Int := 0
  sqmFolio : Int := -128
  sqmSeg : Int := -128
  alarms : Nat := 0
  freq : Int := 0
  wA : Nat := 8
  wB : Nat := 8
  delay : Nat := 0x7F
  taps : List Int := []
  frac : List Int := []
  retrain : Bool := false
  blank : Bool := false
  prevFolio : Option Int := none
  prevSeg : Option Int := none
  nextAt : Option Nat := none
  raw : List Int := []
  pos : Int := 0
  errs : List Nat := []
  hist : List Int := []
  ys : List Int := []
  dec : List Bool := []
  base : Int := 0
  dgain : Nat := 1024
  win : List Int := []
  low : Nat := 0
  refSum : Nat := 0
  refN : Nat := 0
  segSum : Nat := 0
  segN : Nat := 0
  cur : Look := {}
  past : List Look := []
  frameBuf : List Int := []
  ppSum : Nat := 0
  ppN : Nat := 0
deriving DecidableEq, Repr

/-- The consistent snapshot of R52. -/
structure Snap where
  cells : Tbl Cell := []
  units : Tbl Unit := []
  axes : Tbl Axis := []
  chans : Tbl Chan := []
  stitch : Nat := 0
  bindingId : Dword := 0
  trimStitch : Dword := 0
  number : Nat := 0
deriving DecidableEq, Repr

/-- A kind of snapshot (R51): 0 empty, 1 pending for a stitch, 2 held. -/
structure SnapSlot where
  state : Nat := 0
  due : Nat := 0
  snap : Option Snap := none
deriving DecidableEq, Repr

/-- TCK (03_stitch.md): counter, alignment (the edge's shift so far, the offset last measured), alive line, the two kinds of snapshot, overrun
record, straps. -/
structure Tck where
  count : Nat := 0
  pairOffset : Int := 0
  master : Bool := false
  edgeNs : Int := 0
  outside : Nat := 0
  alignFault : Bool := false
  offsetNs : Int := 0
  aliveOut : Bool := false
  aliveOn : Bool := false
  snapTwin : SnapSlot := {}
  snapPair : SnapSlot := {}
  snapRefused : Bool := false
  snapNumber : Nat := 0
  ovStitch : Nat := 0
  ovCheck : Nat := 0
  ovBays : Byte := 0
  ovNow : Byte := 0
  twinId : Nat := 0
  split : Bool := false
deriving DecidableEq, Repr

/-- What holds the twin: running or starting (R370), POR_N low, warm reset, the holds of R382 (shutdown, analogue trip), no start (R271,
R351). -/
inductive Phase where
  | starting | running | porLow | warm | thermal | tripped | noBoot
deriving DecidableEq, Repr

/-- PWR (19_power_modes.md). Powers in 0.1 W. -/
structure Pwr where
  phase : Phase := .porLow
  stage : Nat := 0
  halted : Bool := false
  throttle : Nat := 0
  capUnmet : Bool := false
  therm : Nat := 0
  resetCause : BitVec 7 := 1
  domBdy : Bool := false
  domCore : Bool := false
  domRdc : Byte := 0
  domSerdes : BitVec 14 := 0
  domDdr : BitVec 2 := 0
  est : Nat := 0
  capCut : Nat := 0
  capMs : Nat := 0
  overRun : Nat := 0
  underRun : Nat := 0
  failLow : Bool := false
  failRun : Nat := 0
  failHigh : Nat := 0
  vaultDone : Bool := false
  thermTrip : Bool := false
  activating : Nat := 0
  quadsAt : Nat := 0
deriving DecidableEq, Repr

/-- Domain controller of one bay (R11): mode, faults, Hold entry, bring-up (R372, R374 to R379). `stopFrame`: the frame of this stitch is
the precomputed safe-stop frame (R401). -/
structure Bay where
  mode : Nat := 5
  req : Nat := 5
  runtime : Bool := false
  enablePending : Option Nat := none
  exchange : Bool := false
  safeStop : Bool := false
  stopFrame : Bool := false
  coast : Bool := false
  holdEntry : Bool := false
  holdAt : Nat := 0
  done : BitVec 2 := 0
  bringup : Nat := 0
  bringing : Bool := false
  emitAt : Nat := 0
  spinAt : Nat := 0
  handed : Bool := false
  opuThrottle : Bool := false
  spinThrottle : Bool := false
  overrun : Bool := false
  lastChange : Nat := 0
  claim : Bool := false
  grants : List (Nat × Nat) := []
  absentTotal : Nat := 0
deriving DecidableEq, Repr

/-! ### Spine (15_twin_pair.md) -/

/-- Pair state of one bay: role 0 none, 1 runs, 2 shadows; the stitch of a port switch to this twin; withholding cause (R294), heartbeats of the owner missed since the last
resynchronisation, matching digests; resynchronisation (R302): 0 none, 1 the runner's capture, 2 the shadow waits for it, 3 the shadow has
loaded it; hand-back (R307): requested, under way, when requested, hand-over stitch. `k`: the capture stitch, after the load the stitch of the load; `absentDiff`: the absent sets of this stitch differ. -/
structure PairBay where
  role : Nat := 0
  switchAt : Option Nat := none
  withhold : Nat := 0
  hits : Nat := 0
  handover : Nat := 0
  returnReq : Bool := false
  returning : Bool := false
  returnAt : Nat := 0
  missed : Bool := false
  absentDiff : Bool := false
  resync : Nat := 0
  k : Nat := 0
  kKnown : Bool := false
  ring : List (Nat × Option SampleFrame) := []
  readySent : Bool := false
  peerReady : Bool := false
  askedAt : Nat := 0
  digest : Word := 0
  cmdRing : List HbCmd := []
deriving DecidableEq, Repr

/-- A packet this twin puts on the Spine Link (R296), by what it carries. -/
inductive SpineMsg where
  | heartbeat (h : Heartbeat)
  | state (bay : Fin 8) (image : StateImage)
  | overrun (bay : Nat) (stitch : Nat)
  | mirrorData (seq : Nat) (nsid : Word) (slba : Dword) (blocks : List Bytes)
  | journal (r : JournalRec)
  | mirrorAck (seq : Nat)
  | forward (f : Forwarded)
  | completion (r : CmdRef) (st : Status) (dw0 : Dword) (data : Bytes)
  | leafRequest (quire leaf surface : Nat)
  | leafReply (quire leaf layer frame gen : Nat)
  | leafVerdict (quire leaf : Nat) (verified counted : Bool)
  | mgmt (m : MgmtMsg)
  | kcv (slot : Nat) (kcv : Word)
  | resend (seq : Nat)
deriving DecidableEq, Repr

/-- A packet with its service class: 0 S, 1 U, 2 B, 3 M (R16, R296). -/
structure Packet where
  cls : Nat := 3
  msg : SpineMsg
deriving DecidableEq, Repr

/-- SPN: link, lanes, heartbeat, alive line, pairing. Link 0 down, 1 training, 2 up, 3 lost. -/
structure Spn where
  link : Nat := 0
  lanes : Byte := 0
  rtt : Half := 0
  missing : Nat := 0
  present : Nat := 0
  peerAlive : Bool := false
  peerLost : Bool := false
  paired : Bool := false
  pairing : Bool := false
  awaitBinding : Bool := false
  aliveLevel : Bool := false
  aliveQuiet : Nat := 0
  aliveEdges : Nat := 0
  tookOver : Bool := false
  peer : Option Heartbeat := none
  issued : List HbCmd := []
  issuedPrev : List HbCmd := []
  bays : Tbl PairBay := []
  silent : Bool := false
  haltAt : Nat := 0
  exchange : List Nat := []
  txSeq : Nat := 0
  sent : List (Nat × Packet) := []
  sinceB : Nat := 0
  sinceM : Nat := 0
deriving DecidableEq, Repr

/-! ### Binding (02_binding.md) -/

/-- A Loop Graph record (R29 type 0x02) with its coefficient block (R131). -/
structure LoopRec where
  cell : Nat := 0
  opu : Nat := 0
  loop : Nat := 0
  sections : Nat := 0
  notches : Nat := 0
  forming : Nat := 0
  ff : Option Nat := none
  order : Nat := 0
  thr : Int := 0
  n : Nat := 0
  action : Nat := 0
  sat : Int := 0
  allowance : Nat := 0
  coefOff : Nat := 0
  coefLen : Nat := 0
  words : List Half := []
deriving DecidableEq, Repr

/-- A Tick Plan record (type 0x01). -/
structure TickRec where
  cell : Nat := 0
  slot : Nat := 0
  order : Nat := 0
deriving DecidableEq, Repr

/-- A Channel Graph record (type 0x03). -/
structure ChanRec where
  cell : Nat := 0
  opu : Nat := 0
  spot : Nat := 0
  group : Nat := 0
  target : Nat := 0
  partner : Option Nat := none
  preset : Nat := 0
deriving DecidableEq, Repr

/-- A Queue Classes record (type 0x05): class 0 U, 1 B; weight 0 high, 1 medium, 2 low. -/
structure QueueRec where
  first : Nat := 0
  last : Nat := 0
  cls : Nat := 1
  wrr : Nat := 1
deriving DecidableEq, Repr

/-- The Power Order record (type 0x06). -/
structure PowerRec where
  quadUs : Nat := 200
  groupUs : Nat := 50
  laserMs : Nat := 1
  handPct : Nat := 80
  handMs : Nat := 2000
  bays : List Nat := [0, 1, 2, 3, 4, 5, 6, 7]
deriving DecidableEq, Repr

/-- A Mode Table record (type 0x07). Caps in rpm and 0.1 W. -/
structure ModeRec where
  bay : Nat := 0
  mode : Nat := 5
  order : Nat := 0
  yield_ : Bool := false
  opus : Nat := 0
  spin : Nat := 0
  power : Nat := 0
  slowMs : Nat := 400
  ageS : Nat := 30
deriving DecidableEq, Repr

/-- The Limits record (type 0x08). -/
structure LimRec where
  spindle : Nat := 7500
  laser : Nat := 15
  fwl : Nat := 0
  suspectV : Nat := 2900
  tripV : Nat := 3100
  tripSt : Nat := 5
  dirtyGib : Nat := 24
  opcDt : Nat := 4
  eqDt : Nat := 6
  edec : Nat := 10000
deriving DecidableEq, Repr

/-- An Ownership record (type 0x09). -/
structure OwnRec where
  bay : Nat := 0
  owner : Nat := 0
  hold : Nat := 8
  shadow : Bool := true
deriving DecidableEq, Repr

/-- A Trim Set record (type 0x0B). -/
structure TrimRec where
  cell : Nat := 0
  off : Nat := 0
  value : Half := 0
deriving DecidableEq, Repr

/-- A parsed container (R26, R29). -/
structure Binding where
  ident : Dword := 0
  base : Dword := 0
  secver : Nat := 0
  trim : Bool := false
  digest : BitVec 384 := 0
  tick : List TickRec := []
  loops : List LoopRec := []
  chans : List ChanRec := []
  width : Nat := 16
  rows : List (List Nat) := []
  queues : List QueueRec := []
  power : PowerRec := {}
  modes : List ModeRec := []
  limits : LimRec := {}
  owners : List OwnRec := []
  groups : List Nat := []
  trims : List TrimRec := []
  collDigest : BitVec 384 := 0
deriving DecidableEq, Repr

/-- A staged or armed container (R31 to R40). -/
structure Staged where
  bytes : Bytes
  parsed : Binding
  armed : Option Nat := none
  peer : Bool := false
deriving DecidableEq, Repr

/-- A container under check: its bytes, whether its extent is whole (R400), who waits for the result, whether BND_CTL.ARM waits for the
end (R35), whether the twin sent it (R36). -/
structure Checking where
  bytes : Bytes
  whole : Bool
  ref : Option CmdRef
  armAfter : Bool := false
  fromPeer : Bool := false
deriving DecidableEq, Repr

/-- BND. -/
structure Bnd where
  active : Option Binding := none
  actBytes : Bytes := []
  source : Nat := 0
  fallback : Bool := false
  xfer : Option (List (Nat × Bytes)) := none
  stageWin : List Host.Cell := []
  checking : List Checking := []
  structural : Option Staged := none
  trim : Option Staged := none
  lastResult : Nat := 0
  detCode : Nat := 0
  detSection : Nat := 0
  detRecord : Nat := 0
  book : List Nat := []
  finish : List Nat := []
  total : Nat := 0
  affected : Byte := 0
  trimStitch : Nat := 0
  trimDigest : BitVec 384 := 0
deriving DecidableEq, Repr

/-! ### Read channel, write channel, calibration -/

/-- A folio of a read request: ladder step, pass within the step, outcome, framing; the stored likelihoods of its codewords and those decoded (R102,
R103), the stitch its stream ended, whether a recording is expected (R109), the sweep offset and the retrained taps by spot of the pass that read it (R108). -/
structure FolioRd where
  slot : Nat
  step : Nat := 1
  pass_ : Nat := 0
  inDecoder : Bool := false
  queued : Bool := false
  redecode : Bool := false
  started : Bool := false
  done : Option Nat := none
  blankAll : Bool := true
  iters : Nat := 0
  cws : Nat := 8
  dc : Nat := 0xFF
  sqmLead : Int := -128
  sqmTrail : Int := -128
  events : Byte := 0
  pointers : BitVec 32 := 0
  llr : List (List Int) := []
  words : Tbl (List Bool) := []
  at_ : Nat := 0
  expect : Bool := false
  sweptAt : Option (Bool × Int) := none
  taps : Tbl (List Int) := []
deriving DecidableEq, Repr

/-- A read request in service (R106 to R110). -/
structure ReadSt where
  req : ReadReq
  accepted : Nat
  deadline : Nat
  expired : Bool := false
  folios : List FolioRd
  granted : Bool := false
  sweep : Option (Bool × Int) := none
  alarm : Bool := false
  degraded : Bool := false
deriving DecidableEq, Repr

/-- A read report (R105), with the tag of the request it answers. -/
structure Report where
  tag : Nat
  fn : Nat
  result : Nat
  step : Nat
  iters : Nat
  dc : Nat
  sqmLead : Int
  sqmTrail : Int
  events : Byte
  opu : Nat
  blank : Bool
  lane : Nat
  pointers : BitVec 32
deriving DecidableEq, Repr

structure Rdc where
  chans : Tbl Chan := []
  reads : Tbl ReadSt := []
  queue : List (Nat × Nat × Nat) := []
  busy : Nat := 0
  spikes : List (Nat × Nat) := []
  reports : List Report := []
  payloads : Tbl Bytes := []
  runCfg : Tbl (List Nat) := []
deriving DecidableEq, Repr

/-- A write strategy set (R115): per mark class (2T, 3T, 4T, ≥5T) shape, T_TOP, T_LP, and D_LEAD and D_TRAIL per space class
(2T, 3T, ≥4T); then T_MP and T_CL. -/
structure Strategy where
  shape : List Bool := []
  tTop : List Nat := []
  tLp : List Nat := []
  dLead : List (List Int) := []
  dTrail : List (List Int) := []
  tMp : Nat := 0
  tCl : Nat := 0
deriving DecidableEq, Repr

/-- A verification record (R123). -/
structure VerRec where
  fn : Nat
  verdict : Nat
  bad : Nat
  total : Nat
  worst : Nat
  eWorst : Nat
  bias : Int
  sqm : Int
  events : BitVec 6
  opu : Nat
  lane : Nat
  pw : Half
deriving DecidableEq, Repr

/-- A folio header (R67). -/
structure Header where
  pfa : Dword
  quire : Dword
  gen : Nat
  seed : Nat
  leaf : Nat
  slot : Nat
  row : Nat
  kind : Nat
  width : Nat
  stitch : Dword
  twin : Nat
deriving DecidableEq, Repr

/-- A slot of a write run: its header, its payload as recorded (scrambled), the strategy set and the levels Pw, Pm, Pc, Pb it is recorded with, its
verdict. -/
structure RunSlot where
  slot : Nat
  header : Header
  payload : Bytes := []
  set_ : Strategy := {}
  levels : List Nat := []
  verdict : Option Nat := none
deriving DecidableEq, Repr

/-- A write run in progress on an OPU (R79, R114, R118 to R124): quire and leaf, or the number of an OPC test run; layer and frame; its slots in order;
the stitch of its start instant (channel bit 0 of its first slot) by the twin's count, by the bay's count in 16 bits, its offset there; how
many positions have been sent to the front end; slots held encoded; where it was cut: a position, and
whether that position was begun; records of its slots. -/
structure Run where
  quire : Nat
  leaf : Nat
  opc : Option Nat := none
  act : Nat := 3
  reserve : Bool := false
  layer : Nat
  frame : Nat
  slots : List RunSlot
  start : Nat
  stitch16 : Nat := 0
  bit : Nat := 0
  sent : Nat := 0
  encoded : List Nat := []
  cut : Option (Nat × Bool) := none
  records : List VerRec := []
deriving DecidableEq, Repr

/-- WRC per OPU (R115 to R127): the laser state, cleared and not evaluated again yet; the run; the edge-code words sent for its lanes in the
last run (R119). -/
structure OpuW where
  laser : Nat := 0
  capBind : Bool := false
  emitter : Nat := 0
  headroom : Nat := 0
  warned : Bool := false
  cleared : Bool := false
  run : Option Run := none
  streams : List (List Word) := []
deriving DecidableEq, Repr

structure SurfW where
  readOnly : Bool := false
  cause : Nat := 0
  abandoned : Nat := 0
deriving DecidableEq, Repr

structure Wrc where
  opus : Tbl OpuW := []
  surf : Tbl SurfW := []
  encBusy : Nat := 0
  records : List VerRec := []
  faults : Nat := 0
deriving DecidableEq, Repr

/-- The calibration record of one OPU and layer (R188, R203). -/
structure CalRec where
  used : Bool := false
  written : Bool := false
  searched : Bool := false
  valid : BitVec 5 := 0
  exhausted : Bool := false
  runOnly : Bool := false
  failed : Bool := false
  nextRun : Nat := 0
  tempOpc : Int := 0
  tempEq : Int := 0
  tempFt : Int := 0
  atOpc : Nat := 0
  atEq : Nat := 0
  focus : Int := 0
  tilt : Int := 0
  corrector : Option Int := none
  pw : List Int := []
  pm : List Int := []
  pc : List Int := []
  pbl : List Int := []
  set_ : Option Strategy := none
  trims : Tbl Int := []
  biasSum : Tbl Int := []
  biasN : Tbl Nat := []
  taps : Tbl (List Int) := []
  gains : Tbl Int := []
  offsets : Tbl Int := []
  centre : Option Int := none
  ignored : Nat := 0
  goal : List (CalKind × List Int) := []
  recent : List Bool := []
deriving DecidableEq, Repr

/-- A due or running calibration (R189 to R191); the sweep offset that worked on the ladder (R108): tilt or focus, value; the trial
point of a sweep in progress (R197); the stitch its run began. -/
structure CalJob where
  opu : Nat
  layer : Nat
  kind : CalKind
  blocking : Bool
  whole : Bool
  running : Bool := false
  runs : Nat := 0
  last : Option (List Int) := none
  offset : Option (Bool × Int) := none
  point : Nat := 0
  since : Nat := 0
deriving DecidableEq, Repr

/-- CAL: records, jobs, the stitch of each OPU's last step, temperatures, the layer in service by OPU; the quality log of Audit (R105); verification
records delivered (R123). -/
structure Cal where
  recs : Tbl CalRec := []
  jobs : List CalJob := []
  lastStep : Tbl Nat := []
  temps : Tbl Int := []
  curLayer : Tbl Nat := []
  quality : List Report := []
  results : List VerRec := []
deriving DecidableEq, Repr

/-! ### Quires (11_quires.md) -/

structure Surf where
  layer : Nat := 0
  frame : Nat := 8
  catFrame : Nat := 184
  gen : Nat := 0
  failedR20 : Bool := false
  failedStrikes : Bool := false
  missing : Bool := false
  full : Bool := false
  strikes : List Nat := []
deriving DecidableEq, Repr

/-- A row of the quire loss report (R229). -/
structure Loss where
  quire : Nat
  nsid : Nat
  row : Nat
  leaf : Nat
  vol : Nat
  lba : Nat
  stitch : Nat
deriving DecidableEq, Repr

/-- An ingest record (R219). -/
structure Ingest where
  seq : Nat
  nsid : Nat
  blocks : Nat
  fua : Bool
  twin : Nat
  lba : Nat
  version : Nat
deriving DecidableEq, Repr

structure Qre where
  vol : Nat := 0
  cur : Nat := 0
  width : Nat := 0
  rows : List (List Nat) := []
  collDigest : BitVec 384 := 0
  quires : Tbl Quire := []
  surf : Tbl Surf := []
  ingest : List Ingest := []
  amends : List Amend := []
  nextSeq : Nat := 0
  dirSeq : Nat := 0
  prevDir : Option Nat := none
  rebuild : List Nat := []
  rebuilding : Option Nat := none
  losses : List Loss := []
  lossCount : Nat := 0
  mounting : Bool := false
  unmounting : Bool := false
  unplaced : List Nat := []
  unfiledAt : Option Nat := none
  rebuilt : Tbl Bytes := []
  waiting : List (Nat × Nat × Dword) := []
  filedHere : Bool := false
  filedThere : Bool := false
deriving DecidableEq, Repr

/-! ### Host, commands, memory (12, 13, 14) -/

structure Ctrl where
  cc : Word := 0
  rdy : Bool := false
  cfs : Bool := false
  aqa : Word := 0
  asq : Dword := 0
  acq : Dword := 0
  intMask : Word := 0
  features : Tbl Dword := []
  aers : List Half := []
  events : List (Nat × Nat) := []
  pendingBits : List Nat := []
  msix : Tbl (BitVec 128) := []
deriving DecidableEq, Repr

structure Sq where
  size : Nat := 0
  head : Nat := 0
  tail : Nat := 0
  cqid : Nat := 0
  classU : Bool := false
  wrr : Nat := 1
  deleting : Option CmdRef := none
deriving DecidableEq, Repr

structure Cq where
  size : Nat := 0
  head : Nat := 0
  tail : Nat := 0
  vector : Nat := 0
  ien : Bool := false
deriving DecidableEq, Repr

/-- Where a command stands: fetched; admitted; a read waiting behind earlier writes (R256) or in service; a write with its data
fetched; a write committed to the protected cache. -/
inductive CmdSt where
  | fetched | admitted | waiting | media | data | committed
deriving DecidableEq, Repr

/-- An encrypted block: ciphertext, IV, tag (R325). -/
structure EncBlock where
  text : Bytes := []
  iv : Bytes := []
  tag : BitVec 128 := 0
deriving DecidableEq, Repr

/-- A command fetched and not complete (R239): its place in admission order, the range it names, whether it was forwarded (and which
side of a flush has reported), the media barrier it was admitted as, since when a write waits for dirty space, whether it has had media
time; per block of a read its source (0 buffer, 1 media, 2 unwritten), what reached the host and what awaits a second check; a write's
blocks, PI fields, first ingest sequence and ciphertexts, and how many of its pieces have committed (R259). -/
structure Cmd where
  ref : CmdRef
  sqe : Sqe
  st : CmdSt := .fetched
  classU : Bool := false
  seq : Nat := 0
  lba : Nat := 0
  nlb : Nat := 0
  remote : Bool := false
  localDone : Bool := false
  peerDone : Bool := false
  barrier : Bool := false
  waitFrom : Option Nat := none
  granted : Bool := false
  sources : Tbl Nat := []
  got : Tbl Bytes := []
  recheck : List Nat := []
  plain : List Bytes := []
  pis : List Bytes := []
  seqBase : Nat := 0
  enc : Tbl EncBlock := []
  pieces : Nat := 0
deriving DecidableEq, Repr

/-- A posted completion. -/
structure Comp where
  ref : CmdRef
  status : Status
  dw0 : Dword := 0
  data : Bytes := []
deriving DecidableEq, Repr

/-- A namespace (R241, R242, R337). -/
structure Ns where
  csi : Nat := 0
  nsze : Nat := 0
  lbaf : Nat := 0
  piType : Nat := 0
  piFirst : Bool := false
  ana : Nat := 1
  writeSlot : Nat := 0
  readSlots : List Nat := []
  tagOnly : Bool := false
  attached : List Nat := []
deriving DecidableEq, Repr

/-- A zone (R243): 0 Empty, 1 Implicitly Opened, 2 Explicitly Opened, 3 Closed, 4 Full. -/
structure Zone where
  st : Nat := 0
  wp : Nat := 0
deriving DecidableEq, Repr

/-- A version in the write buffer (R257): ciphertext, PI, IV and tag per block, admission sequence. -/
structure Version where
  seq : Nat
  nsid : Nat
  lba : Nat
  nlb : Nat
  blocks : List Bytes
  pis : List Bytes := []
  ivs : List Bytes := []
  tags : List (BitVec 128) := []
  twin : Nat := 0
  acked : Bool := false
  mirrored : Bool := false
  vaulted : Bool := false
  own : Bool := true
  classU : Bool := false
deriving DecidableEq, Repr

structure Hiu where
  ctrl : Tbl Ctrl := []
  sqs : Tbl Sq := []
  cqs : Tbl Cq := []
  cmds : List Cmd := []
  comps : List Comp := []
  ns : Tbl Ns := []
  zones : Tbl Zone := []
  flushMedia : Bool := false
  timestamp : Dword := 0
  timestampAt : Nat := 0
  uRun : Nat := 0
  wrrUsed : Tbl Nat := []
  rrLast : Tbl Nat := []
  ana : Tbl Nat := []
  anaChanges : Nat := 0
  held : List Comp := []
  irqs : List (Nat × Nat) := []
  onChip : List Nat := []
deriving DecidableEq, Repr

structure CmdBlk where
  prot : Nat := 0
  seq : Nat := 0
  versions : List Version := []
  fetchPaused : Bool := false
  pausedAt : Nat := 0
  admission : Bool := true
  lost : List (Nat × Nat) := []
deriving DecidableEq, Repr

/-- A Folio Map entry (R280): state 0 unmapped, 1 on media, 2 in buffer only. -/
structure MapEntry where
  st : Nat := 0
  quire : Nat := 0
  leaf : Nat := 0
  row : Nat := 0
  lost : BitVec 16 := 0
  seq : Nat := 0
deriving DecidableEq, Repr

/-- A vault image (R284 to R290): what it holds of the protected region when dumped. -/
structure Image where
  epoch : Nat := 0
  seq : Nat := 0
  complete : Bool := false
  bytes : Nat := 0
  versions : List Version := []
  ingest : List Ingest := []
  quires : Tbl Quire := []
  surf : Tbl Surf := []
  amends : List Amend := []
  map : Tbl MapEntry := []
  zones : Tbl Zone := []
  rebuilt : Tbl Bytes := []
  waiting : List (Nat × Nat × Dword) := []
  unplaced : List Nat := []
  seqs : Nat × Nat := (0, 0)
  prevDir : Option Nat := none
deriving DecidableEq, Repr

/-- A log group of single-board protection (R286): when its first version came, its versions by twin and admission sequence, its size. -/
structure Group where
  born : Nat := 0
  seqs : List (Nat × Nat) := []
  bytes : Nat := 0
deriving DecidableEq, Repr

structure Mem where
  dram : Tbl (BitVec 39) := []
  poisoned : List Nat := []
  holders : List (Nat × LineKind) := []
  vault : Nat := 0
  dimm0 : Nat := 0
  dimm1 : Nat := 0
  image : Option Image := none
  replayed : Bool := false
  dumping : Bool := false
  replaying : Bool := false
  dumpAt : Nat := 0
  vaultKind : Nat := 0
  log : List Version := []
  logIngest : List Ingest := []
  group : Option Group := none
  closing : List Group := []
  erased : Nat := 0
  rate : Nat := 0
  epoch : Nat := 0
  imageSeq : Nat := 0
  eccAddr : Nat := 0
  burnLine : Nat := 0
  burnLaps : Nat := 0
  injLeft : Nat := 0
  injArmed : Bool := false
  map : Tbl MapEntry := []
  cache : Tbl (List (Nat × Nat)) := []
  lockWays : Nat := 0
  window0 : Nat := 24
deriving DecidableEq, Repr

/-! ### Security and Bindery (17, 18) -/

/-- A key slot (R334): 0 EMPTY, 1 PENDING, 2 ACTIVE. -/
structure KeySlot where
  st : Nat := 0
  kcv : Word := 0
  key : BitVec 256 := 0
  nsid : Nat := 0
  write : Bool := false
deriving DecidableEq, Repr

/-- A voted word (R340): the three OTP copies and the value in force. -/
structure Voted where
  a : Nat := 0
  b : Nat := 0
  c : Nat := 0
deriving DecidableEq, Repr

structure Kst where
  slots : Tbl KeySlot := []
  nor : List SlotRecord := []
  result : Nat := 0
  importWin : List Host.Cell := []
  nonce : Option Dword := none
  lc : Voted := {}
  bndFloor : Voted := {}
  fwFloor : Voted := {}
  spindle : Voted := {}
  laser : Voted := {}
  ownerHash : BitVec 384 := 0
  transition : Option (Nat × Nat) := none
  votedFault : Bool := false
  requests : List Bytes := []
deriving DecidableEq, Repr

structure Cph where
  seq : Nat := 0
  seqEnd : Nat := 0
  norEnd : Nat := 0
  retired : Byte := 0
  drbg : Nat := 2
  drbgAt : Nat := 0
  buffers : Tbl (List Nat) := []
deriving DecidableEq, Repr

/-- A Colophon record as it lies in its NV page (R352). -/
structure ColRec where
  reason : Nat
  twin : Nat
  seq : Nat
  boot : Nat
  stitch : Nat
  hostTime : Dword
  lc : Nat
  source : Nat
  slot : Nat
  bfeMask : Byte
  fwFloor : Nat
  bndFloor : Nat
  restarts : Nat
  serial : BitVec 128
  meas : List (BitVec 384)
  prev : BitVec 384
  trimDigest : BitVec 384
  /-- Digest and signature as they lie in the sector. -/
  digest : BitVec 384
  signature : BitVec 768
deriving DecidableEq, Repr

/-- An event log entry (R363). -/
structure Event where
  seq : Nat
  time : Dword
  stitch : Nat
  code : Nat
  source : Nat
  severity : Nat
  bay : Nat := 0xFF
  opu : Nat := 0xFF
  detail : List Nat := []
deriving DecidableEq, Repr

/-- A copy of the NV directory (R349): its sequence number, what it names, and its CRC-32C. -/
structure DirCopy where
  seq : Nat := 0
  running : Nat := 1
  pendingSlot : Nat := 0
  attempts : Nat := 0
  sheetActive : Nat := 0
  crc : Word := 0
deriving DecidableEq, Repr

/-- A parameter override of the Endsheet (R358 type 0x20). -/
structure Override where
  offset : Nat
  mask : Word
  value : Word
deriving DecidableEq, Repr

/-- An Endsheet copy (R358): overrides, user Binding container, saved features, digest of the owner section. -/
structure Endsheet where
  overrides : List Override := []
  binding : Option Bytes := none
  features : Tbl Dword := []
  ownerDigest : BitVec 384 := 0
  raw : Bytes := []
deriving DecidableEq, Repr

structure Bdy where
  dirs : Tbl DirCopy := []
  running : Nat := 1
  booted : Nat := 1
  bootedLoader : Nat := 1
  pendingSlot : Nat := 0
  attempts : Nat := 0
  fwSlots : Tbl FwImage := []
  bootSlots : Tbl FwImage := []
  staging : Option Bytes := none
  stagingMi : Bool := false
  commitBusy : Bool := false
  released : Bool := false
  releasedAt : Nat := 0
  halted : Bool := false
  chainStart : Bool := false
  restarts : Nat := 0
  sheets : Tbl Endsheet := []
  sheetActive : Nat := 0
  overrides : List Override := []
  sheetRx : Bytes := []
  flyleaf : Bytes := []
  serial : BitVec 128 := 0
  romPatch : Bytes := []
  colophon : List ColRec := []
  bootCount : Nat := 0
  coloSeq : Nat := 0
  bootRecord : Bool := false
  evtSeq : Nat := 0
  staged : List Event := []
  stagedAt : Nat := 0
  pages : List (List Event) := []
  mboxBusy : Bool := false
  mboxReady : Bool := false
  mboxRefused : Bool := false
  mboxLen : Nat := 0
  mboxReq : List Host.Cell := []
  mboxRsp : List Host.Cell := []
  mboxMsg : Option (Nat × Nat × Bytes) := none
  eid : Nat := 0
  smbOut : List (Nat × Bytes) := []
  temps : List Int := []
  volts : List Nat := []
  ppm : Int := 0
  refs : BitVec 2 := 0
  warned : List Nat := []
  miConfig : Tbl Word := []
  running_ : FwImage := {}
  lastPair : Nat := 0
deriving DecidableEq, Repr

/-! ### The whole -/

/-- Counters: block number in base order (0 BDY to 16 BND) times 32 plus the counter's index, to its value. -/
abbrev Counters := Tbl Dword

/-- The state of the block. -/
structure State where
  pending : List Instr := []
  free : Nat := 0
  regs : Tbl Dword := []
  splitLatch : Option (Nat × Word) := none
  hostRead : Dword := 0
  cnt : Counters := []
  tck : Tck := {}
  pwr : Pwr := {}
  bays : Tbl Bay := []
  ports : Tbl Port := []
  bfes : Tbl Bfe := []
  spn : Spn := {}
  out : List Packet := []
  cells : Tbl Cell := []
  units : Tbl Unit := []
  bus : Bus := {}
  axes : Tbl Axis := []
  rdc : Rdc := {}
  wrc : Wrc := {}
  cal : Cal := {}
  qre : Qre := {}
  hiu : Hiu := {}
  cmd : CmdBlk := {}
  mem : Mem := {}
  kst : Kst := {}
  cph : Cph := {}
  bdy : Bdy := {}
  bnd : Bnd := {}
deriving DecidableEq, Repr

/-- Why a command could stop the machine. The spec gives every command an effect, so no meaning raises it; it is kept
for a command queue that the host interface could not spell (safe: nothing is claimed beyond it). -/
inductive Fault where
  | noSuchCommand
deriving DecidableEq, Repr

/-- Why a command has no meaning: raised by exec's arm of a row not modelled yet, by name (safe). -/
inductive Refusal where
  | notModelled (mnemonic : String)
deriving DecidableEq, Repr

/-- The machine right after power-on reset (R368): every table empty, so that every object reads as its default above;
the reset cause shows power-on, ALIVE_OUT low, the stitch counter 0. Values the spec does not give: log entry 4. -/
def State.reset : State := {}

end Sys2Proof.Machine
end

