-- ==== Sys2Proof/Machine/Table.lean ====
section
/-! DEFINITION. Reading and writing the sorted tables that hold the block's numbered objects, and the byte windows. -/

namespace Sys2Proof.Machine

variable {α : Type}

/-- The entry of key `k`, if listed. -/
def look : Tbl α → Nat → Option α
  | [], _ => none
  | (a, x) :: t, k => if a = k then some x else look t k

/-- The table with key `k` holding `v`, in rising order of keys. -/
def ins : Tbl α → Nat → α → Tbl α
  | [], k, v => [(k, v)]
  | (a, x) :: t, k, v => if k < a then (k, v) :: (a, x) :: t else if a = k then (k, v) :: t else (a, x) :: ins t k v

/-- The table without key `k`. -/
def del (t : Tbl α) (k : Nat) : Tbl α := t.filter (fun e => e.1 ≠ k)

/-- The value of key `k`, the default where the key is not listed. -/
def getD (t : Tbl α) (d : α) (k : Nat) : α := (look t k).getD d

/-- The table with key `k` holding `v`, an entry equal to the default being dropped, so that equal contents are equal data. -/
def put [DecidableEq α] (t : Tbl α) (d : α) (k : Nat) (v : α) : Tbl α := if v = d then del t k else ins t k v

/-- Keys rise strictly. -/
def sortedT : Tbl α → Bool
  | [] => true
  | [_] => true
  | (a, _) :: (b, y) :: t => decide (a < b) && sortedT ((b, y) :: t)

/-- The canonical form of a table with a default: keys rise, no entry is the default. -/
def wfT [DecidableEq α] (d : α) (t : Tbl α) : Bool := sortedT t && t.all (fun e => decide (e.2 ≠ d))

/-- Apply `f` to every listed entry. -/
def mapT {β : Type} (f : Nat → α → β) (t : Tbl α) : Tbl β := t.map (fun e => (e.1, f e.1 e.2))

/-- Byte `a` of a window: a byte that nothing has written reads 0 (log entry 6). -/
def winByte (w : List Host.Cell) (a : Nat) : Byte := getD w 0 a

/-- Write one byte of a window. -/
def winPut (w : List Host.Cell) (a : Nat) (b : Byte) : List Host.Cell := put w 0 a b

/-- Bytes `a` to `a + n - 1` of a window. -/
def winBytes (w : List Host.Cell) (a n : Nat) : Bytes := (List.range n).map (fun i => winByte w (a + i))

/-- Write bytes from `a` on. -/
def winWrite (w : List Host.Cell) (a : Nat) : Bytes → List Host.Cell
  | [] => w
  | b :: bs => winWrite (winPut w a b) (a + 1) bs

/-- Little-endian number of a list of bytes (R26: all multi-byte fields are little-endian). -/
def leNat : Bytes → Nat
  | [] => 0
  | b :: bs => b.toNat + 256 * leNat bs

/-- The `n` little-endian bytes of a number. -/
def natLe : Nat → Nat → Bytes
  | 0, _ => []
  | n + 1, v => BitVec.ofNat 8 v :: natLe n (v / 256)

/-- Little-endian field of `n` bytes at offset `o`; bytes past the end count as zero. -/
def field (bs : Bytes) (o n : Nat) : Nat := leNat ((bs.drop o).take n)

/-- `n` zero bytes. -/
def zeros (n : Nat) : Bytes := List.replicate n 0

/-- The field [hi:lo] of a number. -/
def bits (v hi lo : Nat) : Nat := v / 2 ^ lo % 2 ^ (hi + 1 - lo)

/-- Number whose low 16 bits are the two's complement word. -/
def sx (w : Nat) (v : Nat) : Int := if v % 2 ^ w < 2 ^ (w - 1) then (v % 2 ^ w : Nat) else (v % 2 ^ w : Nat) - (2 ^ w : Nat)

/-- The `w`-bit two's complement image of an integer as a natural number. -/
def ux (w : Nat) (v : Int) : Nat := (v % (2 ^ w : Nat)).toNat

end Sys2Proof.Machine
end

