-- ==== Sys2Proof/Machine/RegFile.lean ====
section
/-! DEFINITION. The registers of BAR2: name, offset, instances, width, read/write and write-only bits and reset value of
the read/write bits (R384, the register tables of the chapters, R3). -/

namespace Sys2Proof.Machine

/-- A register of the register index (20_register_index.md). -/
inductive RegId where
  | bdyCtl | bdyStatus | bdyNorCfg | bdyMboxCtl | bdyMboxStatus | bdyBootCount | bdyColoSeq | bdyEvtSeq
  | bdyClkStatus | bdyCnt | bdyTemp | bdyVolt | bdyMboxReq | bdyMboxRsp | tckCtl | tckStitchCount | tckPairOffset
  | tckAlign | tckSnapCtl | tckSnapStatus | tckSnapStitch | tckOverrunStitch | tckOverrunInfo | tckCnt
  | tckSnapWindow | pwrCtl | pwrStatus | pwrResetCause | pwrDomain | pwrEst | pwrThermCfg | pwrModeCfg | pwrBay
  | pwrBayCap | pwrCnt | hblCtl | hblCfg | hblCnt | hblPortStatus | hblPortLat | hblPortEye | hblPortId | spnCtl
  | spnStatus | spnRtt | spnHbGap | spnCnt | spnBay | spnHandover | srvCtl | srvStatus | srvSpike | srvCnt
  | srvCellCtl | srvCellStatus | srvCellCtlAt | srvCellOut | srvCellResid | srvCellOffset | srvCellTrial
  | srvCellInteg | srvCellSeq | srvCellEffect | srvCoef | spdCtl | spdGroupStatus | spdBusCfg | spdBusCfg2 | spdCnt
  | spdUnitCtl | spdUnitStatus | spdUnitCtlAt | spdUnitMotor | spdUnitStart | spdUnitLimits | spdUnitBrake
  | spdUnitGain | spdUnitEmf | spdUnitTheta | spdUnitOmega | motCtl | motCnt | motAxisCtl | motAxisStatus
  | motAxisCtlAt | motAxisPos | motAxisVmax | motAxisAmax | motAxisJmax | motAxisEdec | motAxisCfg | motAxisFollow
  | motAxisFollowV | motAxisHomeOff | rdcCtl | rdcDecCfg | rdcSqmCfg | rdcMarkCfg | rdcDefectCfg | rdcTimingCfg
  | rdcEqCfg | rdcSweepCfg | rdcGainCfg | rdcStatus | rdcCnt | rdcTarget | rdcCellStatus | rdcCellSqm | rdcCellFreq
  | rdcCellComb | rdcCellTap | wrcCtl | wrcVerifyCfg | wrcLaserCfg | wrcStatus | wrcCnt | wrcOpuStatus
  | wrcSurfStatus | qreCtl | qreStatus | qreVolume | qreJournalQuire | qreJournalIngest | qreSlowCfg | qreDirCfg
  | qreRebuild | qreNextQuire | qreCnt | qreCollateRow | qreSurf | qreSurfGen | qreSurfCtl | cphCtl | cphStatus
  | cphSeq | cphSeqEnd | cphCnt | kstCtl | kstStatus | kstVoted | kstLcNonce | kstImportPub | kstImportWindow
  | kstCnt | kstSlot | memCtl | memStatus | memWindow | memDirty | memHoldupCfg | memVaultCfg | memVaultRate
  | memVaultArmed | memInjCtl | memInjMask | memInjAddr | memMcLock | memBurnCfg | memEccAddr | memCnt | cmdCtl
  | cmdStatus | cmdBpCfg | cmdAdmitSeq | cmdCnt | calCtl | calReq | calTrigCfg | calInterval | calLaneCfg | calStatus
  | calCnt | calLayer | bndStatus | bndCtl | bndActiveId | bndStagedId | bndCommitStitch | bndLoadDetail | bndSource
  | bndSlotBook | bndTotalBook | bndActiveDigest | bndStageWindow
deriving DecidableEq, Repr

/-- A row of the register index: BAR2 offset of the first instance, outer and inner stride with their instance counts, 64-bit
flag, RW bits, WO bits, reset of the RW bits. -/
structure RegRow where
  id : RegId
  base : Nat
  s1 : Nat := 0
  n1 : Nat := 1
  s2 : Nat := 0
  n2 : Nat := 1
  wide : Bool := false
  rw : Nat := 0
  wo : Nat := 0
  reset : Nat := 0
deriving DecidableEq, Repr

/-- Registers of the BDY block. -/
def regsBdy : List RegRow :=
  [ { id := .bdyCtl, base := 0x0, wo := 0x1 },
    { id := .bdyStatus, base := 0x4 },
    { id := .bdyNorCfg, base := 0x8, rw := 0x3F, reset := 0x10 },
    { id := .bdyMboxCtl, base := 0xC, wo := 0x1 },
    { id := .bdyMboxStatus, base := 0x10 },
    { id := .bdyBootCount, base := 0x18, wide := true },
    { id := .bdyColoSeq, base := 0x20, wide := true },
    { id := .bdyEvtSeq, base := 0x28, wide := true },
    { id := .bdyClkStatus, base := 0x30 },
    { id := .bdyCnt, base := 0x80, s1 := 0x8, n1 := 8, wide := true },
    { id := .bdyTemp, base := 0x100, s1 := 0x4, n1 := 16 },
    { id := .bdyVolt, base := 0x140, s1 := 0x4, n1 := 12 },
    { id := .bdyMboxReq, base := 0x10000, s1 := 0x4, n1 := 1024, wo := 0xFFFFFFFF },
    { id := .bdyMboxRsp, base := 0x11000, s1 := 0x4, n1 := 1024 } ]

/-- Registers of the TCK block. -/
def regsTck : List RegRow :=
  [ { id := .tckCtl, base := 0x100000, wo := 0x1 },
    { id := .tckStitchCount, base := 0x100008, wide := true },
    { id := .tckPairOffset, base := 0x100010, wide := true },
    { id := .tckAlign, base := 0x100018 },
    { id := .tckSnapCtl, base := 0x100020, rw := 0x2, wo := 0x5 },
    { id := .tckSnapStatus, base := 0x100024 },
    { id := .tckSnapStitch, base := 0x100028, wide := true },
    { id := .tckOverrunStitch, base := 0x100030, wide := true },
    { id := .tckOverrunInfo, base := 0x100038 },
    { id := .tckCnt, base := 0x100080, s1 := 0x8, n1 := 4, wide := true },
    { id := .tckSnapWindow, base := 0x180000, s1 := 0x4, n1 := 131072 } ]

/-- Registers of the PWR block. -/
def regsPwr : List RegRow :=
  [ { id := .pwrCtl, base := 0x200000, wo := 0x1 },
    { id := .pwrStatus, base := 0x200004 },
    { id := .pwrResetCause, base := 0x200008 },
    { id := .pwrDomain, base := 0x20000C },
    { id := .pwrEst, base := 0x200010 },
    { id := .pwrThermCfg, base := 0x200014, rw := 0xFFFF, reset := 0x645F },
    { id := .pwrModeCfg, base := 0x200018, rw := 0xFFFFFFFF, reset := 0x4640064 },
    { id := .pwrBay, base := 0x200100, s1 := 0x4, n1 := 8 },
    { id := .pwrBayCap, base := 0x200120, s1 := 0x4, n1 := 8 },
    { id := .pwrCnt, base := 0x200180, s1 := 0x8, n1 := 6, wide := true } ]

/-- Registers of the HBL block. -/
def regsHbl : List RegRow :=
  [ { id := .hblCtl, base := 0x400000, wo := 0x1 },
    { id := .hblCfg, base := 0x400004, rw := 0xFF, reset := 0x10 },
    { id := .hblCnt, base := 0x400080, s1 := 0x8, n1 := 8, wide := true },
    { id := .hblPortStatus, base := 0x400100, s1 := 0x10, n1 := 8 },
    { id := .hblPortLat, base := 0x400104, s1 := 0x10, n1 := 8 },
    { id := .hblPortEye, base := 0x400108, s1 := 0x10, n1 := 8, wide := true },
    { id := .hblPortId, base := 0x400200, s1 := 0x40, n1 := 8, s2 := 0x4, n2 := 12 } ]

/-- Registers of the SPN block. -/
def regsSpn : List RegRow :=
  [ { id := .spnCtl, base := 0x600000, rw := 0x2, wo := 0xFFFF0001, reset := 0x2 },
    { id := .spnStatus, base := 0x600004 },
    { id := .spnRtt, base := 0x600008 },
    { id := .spnHbGap, base := 0x60000C },
    { id := .spnCnt, base := 0x600080, s1 := 0x8, n1 := 12, wide := true },
    { id := .spnBay, base := 0x600100, s1 := 0x4, n1 := 8 },
    { id := .spnHandover, base := 0x600180, s1 := 0x8, n1 := 8, wide := true } ]

/-- Registers of the SRV block. -/
def regsSrv : List RegRow :=
  [ { id := .srvCtl, base := 0x800000, wo := 0x1 },
    { id := .srvStatus, base := 0x800004 },
    { id := .srvSpike, base := 0x800008 },
    { id := .srvCnt, base := 0x800080, s1 := 0x8, n1 := 12, wide := true },
    { id := .srvCellCtl, base := 0x801000, s1 := 0x80, n1 := 96, wo := 0xFFFFFFFF },
    { id := .srvCellStatus, base := 0x801004, s1 := 0x80, n1 := 96 },
    { id := .srvCellCtlAt, base := 0x801008, s1 := 0x80, n1 := 96, wide := true, rw := 0xFFFFFFFFFFFFFFFF },
    { id := .srvCellOut, base := 0x801010, s1 := 0x80, n1 := 96 },
    { id := .srvCellResid, base := 0x801014, s1 := 0x80, n1 := 96 },
    { id := .srvCellOffset, base := 0x801018, s1 := 0x80, n1 := 96 },
    { id := .srvCellTrial, base := 0x80101C, s1 := 0x80, n1 := 96 },
    { id := .srvCellInteg, base := 0x801020, s1 := 0x80, n1 := 96, wide := true },
    { id := .srvCellSeq, base := 0x801028, s1 := 0x80, n1 := 96 },
    { id := .srvCellEffect, base := 0x801030, s1 := 0x80, n1 := 96, wide := true },
    { id := .srvCoef, base := 0x900000, s1 := 0x400, n1 := 96, s2 := 0x4, n2 := 256 } ]

/-- Registers of the SPD block. -/
def regsSpd : List RegRow :=
  [ { id := .spdCtl, base := 0xA00000, wo := 0x1 },
    { id := .spdGroupStatus, base := 0xA00004 },
    { id := .spdBusCfg, base := 0xA00008, rw := 0xFFFFFFFF, reset := 0xC1C0B54 },
    { id := .spdBusCfg2, base := 0xA0000C, rw := 0xFF, reset := 0x5 },
    { id := .spdCnt, base := 0xA00080, s1 := 0x8, n1 := 8, wide := true },
    { id := .spdUnitCtl, base := 0xA01000, s1 := 0x80, n1 := 8, wo := 0xFFFFFFFF },
    { id := .spdUnitStatus, base := 0xA01004, s1 := 0x80, n1 := 8 },
    { id := .spdUnitCtlAt, base := 0xA01008, s1 := 0x80, n1 := 8, wide := true, rw := 0xFFFFFFFFFFFFFFFF },
    { id := .spdUnitMotor, base := 0xA01010, s1 := 0x80, n1 := 8, rw := 0xFFFF1F0F, reset := 0xBB81204 },
    { id := .spdUnitStart, base := 0xA01014, s1 := 0x80, n1 := 8, rw := 0xFFFFFFFF, reset := 0x35DC3C32 },
    { id := .spdUnitLimits, base := 0xA01018, s1 := 0x80, n1 := 8, rw := 0xFFFFFFFF, reset := 0xFA00FA0 },
    { id := .spdUnitBrake, base := 0xA0101C, s1 := 0x80, n1 := 8, rw := 0x1FFFFFFF, reset := 0x9C40FA0 },
    { id := .spdUnitGain, base := 0xA01020, s1 := 0x80, n1 := 8, s2 := 0x4, n2 := 3, rw := 0xFFFFFFFF },
    { id := .spdUnitEmf, base := 0xA0102C, s1 := 0x80, n1 := 8, rw := 0xFFFF, reset := 0x32 },
    { id := .spdUnitTheta, base := 0xA01030, s1 := 0x80, n1 := 8 },
    { id := .spdUnitOmega, base := 0xA01034, s1 := 0x80, n1 := 8 } ]

/-- Registers of the MOT block. -/
def regsMot : List RegRow :=
  [ { id := .motCtl, base := 0xB00000, wo := 0x1 },
    { id := .motCnt, base := 0xB00080, s1 := 0x8, n1 := 8, wide := true },
    { id := .motAxisCtl, base := 0xB01000, s1 := 0x80, n1 := 32, wo := 0xFFFFFFFF },
    { id := .motAxisStatus, base := 0xB01004, s1 := 0x80, n1 := 32 },
    { id := .motAxisCtlAt, base := 0xB01008, s1 := 0x80, n1 := 32, wide := true, rw := 0xFFFFFFFFFFFFFFFF },
    { id := .motAxisPos, base := 0xB01010, s1 := 0x80, n1 := 32, wide := true },
    { id := .motAxisVmax, base := 0xB01018, s1 := 0x80, n1 := 32, rw := 0xFFFFFFFF },
    { id := .motAxisAmax, base := 0xB0101C, s1 := 0x80, n1 := 32, rw := 0xFFFFFFFF },
    { id := .motAxisJmax, base := 0xB01020, s1 := 0x80, n1 := 32, rw := 0xFFFFFFFF },
    { id := .motAxisEdec, base := 0xB01024, s1 := 0x80, n1 := 32, rw := 0xFFFFFFFF },
    { id := .motAxisCfg, base := 0xB01028, s1 := 0x80, n1 := 32, rw := 0xFFFFFF, reset := 0x800FAB },
    { id := .motAxisFollow, base := 0xB0102C, s1 := 0x80, n1 := 32, rw := 0xFFFFFFFF, reset := 0x2000015E },
    { id := .motAxisFollowV, base := 0xB01030, s1 := 0x80, n1 := 32, rw := 0xFFFFFFFF },
    { id := .motAxisHomeOff, base := 0xB01034, s1 := 0x80, n1 := 32, rw := 0xFFFFFFFF } ]

/-- Registers of the RDC block. -/
def regsRdc : List RegRow :=
  [ { id := .rdcCtl, base := 0xC00000, rw := 0x6, wo := 0x8 },
    { id := .rdcDecCfg, base := 0xC00004, rw := 0xFFFF, reset := 0x180A },
    { id := .rdcSqmCfg, base := 0xC00008, rw := 0xFFFF, reset := 0x1408 },
    { id := .rdcMarkCfg, base := 0xC0000C, rw := 0xFFF00000, reset := 0x44300000 },
    { id := .rdcDefectCfg, base := 0xC00010, rw := 0x1FF3F, reset := 0x11020 },
    { id := .rdcTimingCfg, base := 0xC00014, rw := 0xFFFFFFFF, reset := 0x368E1A40 },
    { id := .rdcEqCfg, base := 0xC00018, rw := 0xFF, reset := 0x8B },
    { id := .rdcSweepCfg, base := 0xC0001C, rw := 0xFFFFFFFF, reset := 0x320028 },
    { id := .rdcGainCfg, base := 0xC00020, rw := 0xFF, reset := 0xA0 },
    { id := .rdcStatus, base := 0xC00024 },
    { id := .rdcCnt, base := 0xC00080, s1 := 0x8, n1 := 16, wide := true },
    { id := .rdcTarget, base := 0xC00100, s1 := 0x8, n1 := 8, wide := true, rw := 0xFFFFFFFFFF },
    { id := .rdcCellStatus, base := 0xC01000, s1 := 0x80, n1 := 64 },
    { id := .rdcCellSqm, base := 0xC01004, s1 := 0x80, n1 := 64 },
    { id := .rdcCellFreq, base := 0xC01008, s1 := 0x80, n1 := 64 },
    { id := .rdcCellComb, base := 0xC0100C, s1 := 0x80, n1 := 64 },
    { id := .rdcCellTap, base := 0xC01040, s1 := 0x80, n1 := 64, s2 := 0x4, n2 := 8 } ]

/-- Registers of the WRC block. -/
def regsWrc : List RegRow :=
  [ { id := .wrcCtl, base := 0xE00000, wo := 0xFFFF0001 },
    { id := .wrcVerifyCfg, base := 0xE00004, rw := 0xFFFFFFFF, reset := 0x5E2BC0BC },
    { id := .wrcLaserCfg, base := 0xE00008, rw := 0xFF, reset := 0x5A },
    { id := .wrcStatus, base := 0xE0000C },
    { id := .wrcCnt, base := 0xE00080, s1 := 0x8, n1 := 8, wide := true },
    { id := .wrcOpuStatus, base := 0xE00100, s1 := 0x4, n1 := 16 },
    { id := .wrcSurfStatus, base := 0xE00180, s1 := 0x4, n1 := 16 } ]

/-- Registers of the QRE block. -/
def regsQre : List RegRow :=
  [ { id := .qreCtl, base := 0x1000000, rw := 0x2, wo := 0x1D },
    { id := .qreStatus, base := 0x1000004 },
    { id := .qreVolume, base := 0x1000008, rw := 0xFFFF0000, reset := 0x10000 },
    { id := .qreJournalQuire, base := 0x100000C },
    { id := .qreJournalIngest, base := 0x1000010 },
    { id := .qreSlowCfg, base := 0x1000014, rw := 0xFFFF00FF, reset := 0x2580003 },
    { id := .qreDirCfg, base := 0x1000018, rw := 0xFFFF, reset := 0x12C },
    { id := .qreRebuild, base := 0x100001C },
    { id := .qreNextQuire, base := 0x1000020, wide := true },
    { id := .qreCnt, base := 0x1000080, s1 := 0x8, n1 := 12, wide := true },
    { id := .qreCollateRow, base := 0x1000200, s1 := 0x8, n1 := 64, wide := true },
    { id := .qreSurf, base := 0x1000800, s1 := 0x10, n1 := 16 },
    { id := .qreSurfGen, base := 0x1000804, s1 := 0x10, n1 := 16 },
    { id := .qreSurfCtl, base := 0x1000808, s1 := 0x10, n1 := 16, wo := 0x1 } ]

/-- Registers of the CPH block. -/
def regsCph : List RegRow :=
  [ { id := .cphCtl, base := 0x1400000, wo := 0x1 },
    { id := .cphStatus, base := 0x1400004 },
    { id := .cphSeq, base := 0x1400008, wide := true },
    { id := .cphSeqEnd, base := 0x1400010, wide := true },
    { id := .cphCnt, base := 0x1400080, s1 := 0x8, n1 := 8, wide := true } ]

/-- Registers of the KST block. -/
def regsKst : List RegRow :=
  [ { id := .kstCtl, base := 0x1500000, wo := 0x7FF0007 },
    { id := .kstStatus, base := 0x1500004 },
    { id := .kstVoted, base := 0x1500008 },
    { id := .kstLcNonce, base := 0x1500010, wide := true },
    { id := .kstImportPub, base := 0x1500040, s1 := 0x4, n1 := 25 },
    { id := .kstImportWindow, base := 0x1500100, s1 := 0x4, n1 := 64, wo := 0xFFFFFFFF },
    { id := .kstCnt, base := 0x1500280, s1 := 0x8, n1 := 4, wide := true },
    { id := .kstSlot, base := 0x1501000, s1 := 0x8, n1 := 2048, wide := true } ]

/-- Registers of the MEM block. -/
def regsMem : List RegRow :=
  [ { id := .memCtl, base := 0x1600000, rw := 0x2, wo := 0x1, reset := 0x2 },
    { id := .memStatus, base := 0x1600004 },
    { id := .memWindow, base := 0x1600008, wide := true },
    { id := .memDirty, base := 0x1600010, wide := true },
    { id := .memHoldupCfg, base := 0x1600018, rw := 0xFFFF, reset := 0x13EC },
    { id := .memVaultCfg, base := 0x160001C, rw := 0x3F, reset := 0x18 },
    { id := .memVaultRate, base := 0x1600020 },
    { id := .memVaultArmed, base := 0x1600028, wide := true },
    { id := .memInjCtl, base := 0x1600030, rw := 0xFFFF0001, reset := 0x10000 },
    { id := .memInjMask, base := 0x1600038, wide := true, rw := 0x7FFFFFFFFF },
    { id := .memInjAddr, base := 0x1600040, wide := true, rw := 0xFFFFFFFFFFFFFFC0 },
    { id := .memMcLock, base := 0x1600048, rw := 0xFFFFFFFF },
    { id := .memBurnCfg, base := 0x160004C, rw := 0xFFFF, reset := 0x8 },
    { id := .memEccAddr, base := 0x1600050, wide := true },
    { id := .memCnt, base := 0x1600080, s1 := 0x8, n1 := 8, wide := true } ]

/-- Registers of the CMD block. -/
def regsCmd : List RegRow :=
  [ { id := .cmdCtl, base := 0x1800000, wo := 0x1 },
    { id := .cmdStatus, base := 0x1800004 },
    { id := .cmdBpCfg, base := 0x1800008, rw := 0xFFFFFFFF, reset := 0xA0100 },
    { id := .cmdAdmitSeq, base := 0x1800010, wide := true },
    { id := .cmdCnt, base := 0x1800080, s1 := 0x8, n1 := 8, wide := true } ]

/-- Registers of the CAL block. -/
def regsCal : List RegRow :=
  [ { id := .calCtl, base := 0x1A00000, rw := 0x2, wo := 0x1 },
    { id := .calReq, base := 0x1A00004, wo := 0xFFF00000 },
    { id := .calTrigCfg, base := 0x1A00008, rw := 0xFFFFFFFF, reset := 0x406060A },
    { id := .calInterval, base := 0x1A0000C, rw := 0xFFFFFFFF, reset := 0xA80018 },
    { id := .calLaneCfg, base := 0x1A00010, rw := 0xFFFF, reset := 0x2319 },
    { id := .calStatus, base := 0x1A00014 },
    { id := .calCnt, base := 0x1A00080, s1 := 0x8, n1 := 8, wide := true },
    { id := .calLayer, base := 0x1A01000, s1 := 0x40, n1 := 16, s2 := 0x4, n2 := 16 } ]

/-- Registers of the BND block. -/
def regsBnd : List RegRow :=
  [ { id := .bndStatus, base := 0x1C00000 },
    { id := .bndCtl, base := 0x1C00004, wo := 0x7 },
    { id := .bndActiveId, base := 0x1C00008, wide := true },
    { id := .bndStagedId, base := 0x1C00010, wide := true },
    { id := .bndCommitStitch, base := 0x1C00018, wide := true, rw := 0xFFFFFFFFFFFFFFFF },
    { id := .bndLoadDetail, base := 0x1C00020 },
    { id := .bndSource, base := 0x1C00024 },
    { id := .bndSlotBook, base := 0x1C00040, s1 := 0x4, n1 := 5 },
    { id := .bndTotalBook, base := 0x1C00054 },
    { id := .bndActiveDigest, base := 0x1C00080, s1 := 0x4, n1 := 12 },
    { id := .bndStageWindow, base := 0x1C40000, s1 := 0x4, n1 := 65536, wo := 0xFFFFFFFF } ]

/-- The whole register index. -/
def regTable : List RegRow :=
  regsBdy ++ regsTck ++ regsPwr ++ regsHbl ++ regsSpn ++ regsSrv ++ regsSpd ++ regsMot ++ regsRdc ++ regsWrc ++ regsQre ++ regsCph ++ regsKst ++ regsMem ++ regsCmd ++ regsCal ++ regsBnd

/-- The row of a register. -/
def regRow (id : RegId) : RegRow := (regTable.find? (fun r => r.id = id)).getD { id := .bdyCtl, base := 0 }

/-- Instances of a row. -/
def RegRow.count (r : RegRow) : Nat := r.n1 * r.n2

/-- BAR2 offset of an instance, numbered outer index first. -/
def RegRow.offset (r : RegRow) (inst : Nat) : Nat := r.base + r.s1 * (inst / r.n2) + r.s2 * (inst % r.n2)

/-- BAR2 offset of an instance of a register. -/
def regOffset (id : RegId) (inst : Nat) : Nat := (regRow id).offset inst

/-- Size of an access in bytes. -/
def RegRow.bytes (r : RegRow) : Nat := if r.wide then 8 else 4

/-- The instance of a row that an offset names, if any. -/
def RegRow.hit (r : RegRow) (off : Nat) : Option Nat :=
  if off < r.base then none
  else
    let d := off - r.base
    let i := if r.s1 = 0 then 0 else d / r.s1
    let e := d - i * r.s1
    let j := if r.s2 = 0 then 0 else e / r.s2
    if i < r.n1 ∧ j < r.n2 ∧ e = j * r.s2 then some (i * r.n2 + j) else none

/-- The register and instance that begin at a BAR2 offset; none for an unassigned offset (R4, R384). -/
def findReg (off : Nat) : Option (RegRow × Nat) :=
  regTable.findSome? (fun r => (r.hit off).map (fun i => (r, i)))

/-- Reset values that differ by instance: RDC_TARGET, SPD_UNIT_GAIN and the axis registers of R172. -/
def resetByInst (id : RegId) (i : Nat) : Option Nat :=
  match id with
  | .rdcTarget => some (if i = 1 then 0x1020302010 else if i = 2 then 0x1030403010 else if i = 3 then 0x0010202010
      else 0x1020202010)
  | .spdUnitGain => some (if i % 3 = 0 then 0x18000030 else if i % 3 = 1 then 0x28000600 else 0x311E0206)
  | .motAxisVmax => some (if i < 16 then 171798692 else 16777216)
  | .motAxisAmax => some (if i < 16 then 22907 else 13422)
  | .motAxisEdec => some (if i < 16 then 45813 else 53687)
  | .motAxisCfg => some (0x800FA2 + (if i < 16 then 9 else 0))
  | .motAxisFollow => some (0x20000000 + (if i < 16 then 350 else 256))
  | .motAxisFollowV => some 2290649
  | _ => none

/-- Sled velocity or acceleration units of R172 for a value in mm/s², to the nearest integer. -/
def accUnits (mm : Nat) : Nat := (mm * 13743895347200 + 1500000000000) / 3000000000000

/-- Values that the active Binding gives registers (R23 layer 3): the Limits section's (R29 type 0x08). -/
def bindingReg (b : Binding) (id : RegId) (i : Nat) : Option Nat :=
  match id with
  | .spdBusCfg => some (b.limits.tripV * 65536 + b.limits.suspectV)
  | .spdBusCfg2 => some b.limits.tripSt
  | .calTrigCfg => some (b.limits.opcDt * 2 ^ 24 + b.limits.eqDt * 65536 + 0x60A)
  | .motAxisEdec => if i < 16 then some (accUnits b.limits.edec) else none
  | _ => none

/-- The value of a read/write register below the runtime layer and the Endsheet (R23 layer 3). -/
def regDefault (s : State) (id : RegId) (i : Nat) : Nat :=
  let fixed := (resetByInst id i).getD (regRow id).reset
  match s.bnd.active with
  | some b => (bindingReg b id i).getD fixed
  | none => fixed

/-- The Endsheet override of an offset, over a word: the bits of the field mask take the override's value (R358). -/
def overridden (os : List Override) (off v : Nat) : Nat :=
  os.foldl (fun v o => if o.offset = off then (v &&& (0xFFFFFFFF - o.mask.toNat)) ||| (o.value.toNat &&& o.mask.toNat) else v) v

/-- The overrides of a register over a value, its high word under the offset 4 above; other bits than RW ones do not change. -/
def overrideReg (os : List Override) (r : RegRow) (off v : Nat) : Nat :=
  (overridden os off (v % 2 ^ 32) + (if r.wide then overridden os (off + 4) (v / 2 ^ 32) * 2 ^ 32 else 0)) &&& r.rw

/-- Values that a register's table gives as a range: a value outside it is not taken (log entry 7). -/
def inRange (id : RegId) (v : Nat) : Bool :=
  let in_ (hi lo a b : Nat) : Bool := decide (a ≤ bits v hi lo) && decide (bits v hi lo ≤ b)
  match id with
  | .bdyNorCfg | .memVaultCfg => in_ 5 0 8 40
  | .pwrModeCfg => in_ 31 24 1 255 && in_ 23 16 1 255
  | .hblCfg => in_ 7 0 1 255
  | .spdBusCfg2 => in_ 7 0 1 255
  | .spdUnitMotor => in_ 12 8 12 30 && in_ 3 0 1 8
  | .rdcDecCfg => in_ 7 0 4 24 && in_ 15 8 (bits v 7 0) 24
  | .rdcMarkCfg => in_ 31 28 0 8 && in_ 27 24 0 8 && in_ 23 20 0 4
  | .rdcDefectCfg => in_ 15 8 4 255
  | .rdcEqCfg => in_ 7 4 6 15 && in_ 3 0 8 15
  | .wrcVerifyCfg => in_ 23 20 1 8 && decide (bits v 9 0 < bits v 19 10)
  | .wrcLaserCfg => in_ 7 0 50 99
  | .qreSlowCfg => in_ 31 16 60 3600 && in_ 7 0 1 15
  | .qreDirCfg => in_ 15 0 10 3600
  | .memBurnCfg => in_ 15 0 1 168
  | _ => true

/-- The tightest of two values of a register whose fields may be tightened and not loosened (R24, R382): the second value, each such field no
looser than the first's. -/
def tightest (id : RegId) (i d v : Nat) : Nat :=
  match id with
  | .spdBusCfg => min (bits v 31 16) (bits d 31 16) * 65536 + min (bits v 15 0) (bits d 15 0)
  | .spdBusCfg2 | .memHoldupCfg => min v d
  | .calTrigCfg => min (bits v 31 24) (bits d 31 24) * 2 ^ 24 + min (bits v 23 16) (bits d 23 16) * 65536 + bits v 15 0
  | .pwrThermCfg => min (bits v 15 8) (bits d 15 8) * 256 + min (bits v 7 0) (bits d 7 0)
  | .motAxisEdec => if i < 16 then max v d else v
  | _ => v

/-- The value of a read/write register: runtime write, else Endsheet override, else Binding or reset value (R23), never looser than the
last (R24). -/
def reg (s : State) (id : RegId) (i : Nat := 0) : Nat :=
  let d := regDefault s id i
  match look s.regs (regOffset id i) with
  | some v => tightest id i d v.toNat
  | none =>
    if s.bdy.overrides = [] then d
    else
      let v := overrideReg s.bdy.overrides (regRow id) (regOffset id i) d
      if inRange id v then tightest id i d v else d

/-- A field of a read/write register in force. -/
def regBits (s : State) (id : RegId) (i hi lo : Nat) : Nat := bits (reg s id i) hi lo

/-- Store a runtime write (R23 layer 1). -/
def setReg (s : State) (id : RegId) (i v : Nat) : State :=
  { s with regs := ins s.regs (regOffset id i) (BitVec.ofNat 64 v) }

end Sys2Proof.Machine
end

