-- ==== Sys2Proof/Machine/Ops.lean ====
section
/-! DEFINITION. Named operations over the state: objects by number, counters (R386), event entries (R363), asynchronous
events (R252), completions (R18), packets to the twin (R296), free values. -/

namespace Sys2Proof.Machine

/-- The outcome of a command that has an effect. -/
abbrev Out := Host.Outcome State Fault Refusal

/-! ### Numbered objects -/

/-- Loop cell `n`. -/
def cellAt (s : State) (n : Nat) : Cell := getD s.cells {} n
/-- The state with loop cell `n` holding `c`. -/
def setCell (s : State) (n : Nat) (c : Cell) : State := { s with cells := put s.cells {} n c }
/-- Spindle unit `n`. -/
def unitAt (s : State) (n : Nat) : Unit := getD s.units {} n
/-- The state with spindle unit `n` holding `u`. -/
def setUnit (s : State) (n : Nat) (u : Unit) : State := { s with units := put s.units {} n u }
/-- Axis `n`. -/
def axisAt (s : State) (n : Nat) : Axis := getD s.axes {} n
/-- The state with axis `n` holding `a`. -/
def setAxis (s : State) (n : Nat) (a : Axis) : State := { s with axes := put s.axes {} n a }
/-- Domain controller of bay `n`. -/
def bayAt (s : State) (n : Nat) : Bay := getD s.bays {} n
/-- The bay after a change of its mode, its safe stop or its Hold entry notes the stitch (R251). -/
def stampBay (now_ : Nat) (old new : Bay) : Bay :=
  if new.mode = old.mode ∧ new.safeStop = old.safeStop ∧ new.holdEntry = old.holdEntry then new else { new with lastChange := now_ }
/-- The state with the domain controller of bay `n` holding `b`. -/
def setBay (s : State) (n : Nat) (b : Bay) : State := { s with bays := put s.bays {} n (stampBay s.tck.count (bayAt s n) b) }
/-- Headband port `n`. -/
def portAt (s : State) (n : Nat) : Port := getD s.ports {} n
/-- The state with port `n` holding `p`. -/
def setPort (s : State) (n : Nat) (p : Port) : State := { s with ports := put s.ports {} n p }
/-- Bay front end `n`. -/
def bfeAt (s : State) (n : Nat) : Bfe := getD s.bfes {} n
/-- The state with bay front end `n` holding `b`. -/
def setBfe (s : State) (n : Nat) (b : Bfe) : State := { s with bfes := put s.bfes {} n b }
/-- Pair state of bay `n`. -/
def pairAt (s : State) (n : Nat) : PairBay := getD s.spn.bays {} n
/-- The state with the pair state of bay `n` holding `p`. -/
def setPair (s : State) (n : Nat) (p : PairBay) : State := { s with spn := { s.spn with bays := put s.spn.bays {} n p } }
/-- Channel cell `n`. -/
def chanAt (s : State) (n : Nat) : Chan := getD s.rdc.chans {} n
/-- The state with channel cell `n` holding `c`. -/
def setChan (s : State) (n : Nat) (c : Chan) : State := { s with rdc := { s.rdc with chans := put s.rdc.chans {} n c } }
/-- Write channel of OPU `n`. -/
def opuAt (s : State) (n : Nat) : OpuW := getD s.wrc.opus {} n
/-- The state with the write channel of OPU `n` holding `o`. -/
def setOpu (s : State) (n : Nat) (o : OpuW) : State := { s with wrc := { s.wrc with opus := put s.wrc.opus {} n o } }

/-- The current stitch (R7). -/
def now (s : State) : Nat := s.tck.count

/-! ### Counters (R386), event log (R363), asynchronous events (R252) -/

/-- Value of counter `i` of the block with number `blk` in base order. -/
def counter (s : State) (blk i : Nat) : Dword := getD s.cnt 0 (blk * 32 + i)

/-- Add one to a counter; 64-bit counters wrap. -/
def bump (s : State) (blk i : Nat) : State := { s with cnt := put s.cnt 0 (blk * 32 + i) (counter s blk i + 1) }

/-- Add `n` to a counter. -/
def bumpN (s : State) (blk i n : Nat) : State :=
  { s with cnt := put s.cnt 0 (blk * 32 + i) (counter s blk i + BitVec.ofNat 64 n) }

/-- Clear every counter of a block (CLR_CNT). -/
def clearCounters (s : State) (blk : Nat) : State := { s with cnt := s.cnt.filter (fun e => e.1 / 32 ≠ blk) }

/-- Host time in ms: what Timestamp was set to and the time since, 48 bits; 0 while it is not set (R236; PRESUMED, log entry 213). -/
def hostTime (s : State) : Dword :=
  if s.hiu.timestamp = 0 then 0
  else (s.hiu.timestamp + BitVec.ofNat 64 ((s.tck.count - s.hiu.timestampAt) / Config.ms)) &&& 0xFFFFFFFFFFFF

/-- Stage an event log entry (R363): code, source block, severity, bay, OPU, detail. -/
def event (s : State) (code source severity : Nat) (bay : Nat := 0xFF) (opu : Nat := 0xFF) (detail : List Nat := []) :
    State :=
  let e : Event := { seq := s.bdy.evtSeq + 1, time := hostTime s, stitch := s.tck.count, code := code,
                     source := source, severity := severity, bay := bay, opu := opu, detail := detail }
  { s with bdy := { s.bdy with
      evtSeq := s.bdy.evtSeq + 1
      stagedAt := if s.bdy.staged = [] then s.tck.count else s.bdy.stagedAt
      staged := s.bdy.staged ++ [e] } }

/-- Count an event and log it with the counter's code 0x0100 + index (R363). -/
def countEvent (s : State) (blk i severity : Nat) (bay : Nat := 0xFF) (opu : Nat := 0xFF) (detail : List Nat := []) :
    State :=
  event (bump s blk i) (0x100 + i) blk severity bay opu detail

/-- Controllers of the twin: 0, and 1 in split mode (R231). -/
def controllers (s : State) : List Nat := if s.tck.split then [0, 1] else [0]

/-- Controller `n`. -/
def ctrlAt (s : State) (n : Nat) : Ctrl := getD s.hiu.ctrl {} n
/-- The state with controller `n` holding `c`. -/
def setCtrl (s : State) (n : Nat) (c : Ctrl) : State := { s with hiu := { s.hiu with ctrl := put s.hiu.ctrl {} n c } }

/-- Key of a queue: controller, queue identifier. -/
def qKey (ctrl qid : Nat) : Nat := ctrl * 65536 + qid

/-- The completion queue of a command's submission queue. -/
def cqOf (s : State) (r : CmdRef) : Option (Nat × Cq) :=
  (look s.hiu.sqs (qKey r.ctrl r.sqid)).bind (fun q => (look s.hiu.cqs (qKey r.ctrl q.cqid)).map (fun c => (qKey r.ctrl q.cqid, c)))

/-- A completion queue has no free entry. -/
def Cq.full (q : Cq) : Bool := (q.tail + 1) % q.size == q.head

/-- Raise the interrupt of a vector, or keep it pending while INTMS masks it. -/
def interrupt (s : State) (n vector : Nat) : State :=
  let c := ctrlAt s n
  if vector < 32 ∧ c.intMask.getLsbD vector then
    setCtrl s n { c with pendingBits := if c.pendingBits.contains vector then c.pendingBits else c.pendingBits ++ [vector] }
  else { s with hiu := { s.hiu with irqs := s.hiu.irqs ++ [(n, vector)] } }

/-- Write a completion entry: the queue's tail moves on and its interrupt is raised. -/
def writeEntry (s : State) (c : Comp) : State :=
  let s' := { s with hiu := { s.hiu with comps := s.hiu.comps ++ [c] } }
  match cqOf s c.ref with
  | none => s'
  | some (k, q) =>
    let s' := { s' with hiu := { s'.hiu with cqs := ins s'.hiu.cqs k { q with tail := (q.tail + 1) % q.size } } }
    if q.ien then interrupt s' c.ref.ctrl q.vector else s'

/-- A completion waits while its queue is full, or behind an earlier one of the same queue that waits. -/
def mustWait (s : State) (c : Comp) : Bool :=
  match cqOf s c.ref with
  | none => false
  | some (k, q) => q.full || s.hiu.held.any (fun h => (cqOf s h.ref).any (fun x => x.1 == k))

/-- A fetched command by its reference. -/
def cmdAt (s : State) (r : CmdRef) : Option Cmd := s.hiu.cmds.find? (fun c => c.ref = r)

/-- Class U commands outstanding, from admission to completion (R50). -/
def urgentOut (s : State) : Nat := (s.hiu.cmds.filter (fun c => c.classU && c.st != .fetched)).length

/-- Packet type (R296); key check values and requests for a second copy go as management packets (DESIGN CHOICE, log entry 201). -/
def SpineMsg.type : SpineMsg → Nat
  | .heartbeat _ => 0x01
  | .state _ _ => 0x02
  | .overrun _ _ => 0x03
  | .mirrorData _ _ _ _ => 0x10
  | .journal _ => 0x11
  | .mirrorAck _ => 0x12
  | .forward _ => 0x20
  | .completion _ _ _ _ => 0x21
  | .leafRequest _ _ _ | .leafReply _ _ _ _ _ | .leafVerdict _ _ _ _ => 0x22
  | .mgmt _ | .kcv _ _ | .resend _ => 0x30

/-- A class U command is behind an admission sequence of this twin, or a class U write of the other twin behind a mirrored version (R17). -/
def urgentSeq (s : State) (own : Bool) (seq : Nat) : Bool :=
  if own then s.hiu.cmds.any (fun c => c.classU && c.seq == seq && c.st != .fetched)
  else s.cmd.versions.any (fun v => !v.own && v.seq == seq && v.classU)

/-- Service class of a packet (R17, R296): what acknowledges a command takes that command's class. -/
def classOf (s : State) (m : SpineMsg) : Nat :=
  let of_ (u : Bool) : Nat := if u then 1 else 2
  match m with
  | .heartbeat _ | .state _ _ | .overrun _ _ => 0
  | .mirrorData seq _ _ _ => of_ (urgentSeq s true seq)
  | .journal (.ingest seq _ _ _ _ _) => of_ (s.qre.ingest.any (fun i => i.twin == s.tck.twinId && i.seq == seq && urgentSeq s true i.version))
  | .mirrorAck seq => of_ (urgentSeq s false seq)
  | .forward f => of_ f.classU
  | .completion r _ _ _ => of_ ((cmdAt s { r with peer := true }).any (·.classU))
  | .journal _ | .leafRequest _ _ _ | .leafReply _ _ _ _ _ | .leafVerdict _ _ _ _ => 2
  | .mgmt _ | .kcv _ _ | .resend _ => 3

/-- Hand a packet to the Spine Link (R296); a link that is not up carries none. -/
def send (s : State) (m : SpineMsg) : State := if s.spn.link = 2 then { s with out := s.out ++ [{ cls := classOf s m, msg := m }] } else s

/-- The 8 bytes of a packet's header (R296): type, class, body length in 8-byte units, link sequence number. -/
def packetHeader (seq units : Nat) (p : Packet) : Bytes :=
  [BitVec.ofNat 8 p.msg.type, BitVec.ofNat 8 p.cls] ++ natLe 2 units ++ natLe 4 seq

/-- The class that the lanes serve next (R16, R17): S, then B and M when 31 and 63 grants have passed them by, then U, B, M. -/
def nextClass (b m : Nat) (ps : List Packet) : Option Nat :=
  let has (k : Nat) : Bool := ps.any (fun p => p.cls == k)
  if has 0 then some 0 else if has 2 && decide (31 ≤ b) then some 2 else if has 3 && decide (63 ≤ m) then some 3
  else [1, 2, 3].find? has

/-- The order in which waiting packets are served, each class first in, first out, with the grants since classes B and M last had one. -/
def serveOrder : Nat → Nat → Nat → List Packet → List Packet × Nat × Nat
  | 0, b, m, _ => ([], b, m)
  | n + 1, b, m, ps =>
    match nextClass b m ps with
    | none => ([], b, m)
    | some k =>
      let b := if k = 2 then 0 else min 31 (b + 1)
      let m := if k = 3 then 0 else min 63 (m + 1)
      let r := serveOrder n b m (ps.eraseP (fun p => p.cls == k))
      (((ps.find? (fun p => p.cls == k)).toList ++ r.1), r.2)

/-- What waits for the Spine Link in a stitch goes out over its lanes, in the order of R16, numbered (R296). How many stitches a packet takes is
left out with all link time. -/
def serveLink (s : State) : State :=
  let r := serveOrder s.out.length s.spn.sinceB s.spn.sinceM s.out
  { s with out := [], spn := { s.spn with
    sent := (List.range r.1.length).zip r.1 |>.map (fun e => ((s.spn.txSeq + e.1) % 2 ^ 32, e.2))
    txSeq := (s.spn.txSeq + r.1.length) % 2 ^ 32, sinceB := r.2.1, sinceM := r.2.2 } }

/-- Send a completion where it belongs: to the other twin for a command it forwarded (R246), else into its queue. -/
def emit (s : State) (c : Comp) : State :=
  if c.ref.peer then send s (.completion { c.ref with peer := false } c.status c.dw0 c.data)
  else if mustWait s c then { s with hiu := { s.hiu with held := s.hiu.held ++ [c] } }
  else writeEntry s c

/-- Submission queues whose deletion waits and whose last command has completed are deleted (R240). -/
def finishDeletes (s : State) : State :=
  s.hiu.sqs.foldl (fun s e => match e.2.deleting with
    | some r =>
      if s.hiu.cmds.any (fun d => !d.ref.peer && qKey d.ref.ctrl d.ref.sqid == e.1) then s
      else emit { s with hiu := { s.hiu with sqs := del s.hiu.sqs e.1, onChip := s.hiu.onChip.filter (· ≠ e.1), cmds := s.hiu.cmds.filter (fun d => d.ref ≠ r) } }
        { ref := r, status := .success }
    | none => s) s

/-- Post a completion and release the command (R18, R239); a waiting queue deletion may end with it (R240). -/
def post (s : State) (c : Comp) : State :=
  let s := emit s c
  finishDeletes { s with hiu := { s.hiu with cmds := s.hiu.cmds.filter (fun d => d.ref ≠ c.ref) } }

/-- Dword 0 of an asynchronous event completion: type, information, log page. -/
def asyncWord (type info lid : Nat) : Dword := BitVec.ofNat 64 (type + info * 256 + lid * 65536)

/-- Deliver pending asynchronous events of a controller to its outstanding requests, oldest first (R252). -/
def deliver (s : State) (n : Nat) : State :=
  let c := ctrlAt s n
  match c.aers, c.events with
  | cid :: aers, (ti, lid) :: events =>
    let s := setCtrl s n { c with aers := aers, events := events }
    post s { ref := { ctrl := if n = 0 then 0 else 1, sqid := 0, cid := cid }, status := .success,
             dw0 := asyncWord (ti % 8) (ti / 256) lid }
  | _, _ => s

/-- Post an asynchronous event of a type and information code on every controller (R252). -/
def asyncEvent (s : State) (type info lid : Nat) : State :=
  (controllers s).foldl (fun s n =>
    let c := ctrlAt s n
    deliver (setCtrl s n { c with events := c.events ++ [(type + info * 256, lid)] }) n) s

/-- A change of an ANA group's state (R246): log page 0x0C and the ANA change notice follow it. -/
def setAna (s : State) (g st : Nat) : State :=
  if look s.hiu.ana g = some st then s
  else asyncEvent { s with hiu := { s.hiu with ana := ins s.hiu.ana g st, anaChanges := s.hiu.anaChanges + 1 } } 2 3 0x0C

/-- State of an ANA group: 1 Optimized, 2 Non-Optimized, 3 Inaccessible, 15 Change; before pairing the own group is Optimized, the other
Inaccessible (R246). -/
def anaOf (s : State) (g : Nat) : Nat := (look s.hiu.ana g).getD (if g = s.tck.twinId + 1 then 1 else 3)

/-- A vendor specific asynchronous event of R252; log page 0xC4 holds its detail. -/
def vendorEvent (s : State) (info : Nat) : State := asyncEvent s 7 info 0xC4

/-- Complete a command; dword 0 and DNR as given. -/
def complete (s : State) (r : CmdRef) (st : Status) (dw0 : Dword := 0) (data : Bytes := []) : State :=
  post s { ref := r, status := st, dw0 := dw0, data := data }

/-! ### The twin, free values -/

/-- A free 64-bit value: nothing constrains it (log entry 3). -/
def freeValue (s : State) : Dword := Config.freeWord s.free

/-- The state after a free value has been drawn. -/
def drawn (s : State) : State := { s with free := s.free + 1 }

/-- The twin runs bay `b` (R292). -/
def runs (s : State) (b : Nat) : Bool := (pairAt s b).role == 1
/-- The twin shadows bay `b`. -/
def shadows (s : State) (b : Nat) : Bool := (pairAt s b).role == 2

/-- The Mode Table record of a bay in the active Binding (R29 type 0x07). -/
def modeRec (s : State) (b : Nat) : ModeRec :=
  ((s.bnd.active.bind (fun x => x.modes.find? (fun m => m.bay = b))).getD { bay := b })

/-- The Ownership record of a bay in the active Binding (R29 type 0x09); its defaults give bays 0 to 3 to twin 0. -/
def ownRec (s : State) (b : Nat) : OwnRec :=
  ((s.bnd.active.bind (fun x => x.owners.find? (fun o => o.bay = b))).getD { bay := b, owner := b / 4 })

/-- The loop cell that the active Binding gives loop `l` (0 focus, 1 tracking, 2 tilt, 3 yaw) of an OPU. -/
def cellOf (s : State) (opu l : Nat) : Option Nat :=
  (s.cells.find? (fun e => e.2.named && e.2.opu == opu && e.2.loop == l)).map (·.1)

/-- Loop cells of a bay. -/
def bayCells (s : State) (b : Nat) : List Nat :=
  (s.cells.filter (fun e => e.2.named && e.2.opu / 2 == b)).map (·.1)

/-- Axes of a bay: sleds 2b and 2b + 1, correctors 16 above them (R1). -/
def bayAxes (b : Nat) : List Nat := [2 * b, 2 * b + 1, 16 + 2 * b, 17 + 2 * b]

/-- Run `f` over a list of numbers. -/
def forEach (xs : List Nat) (f : State → Nat → State) (s : State) : State := xs.foldl f s

end Sys2Proof.Machine
end

