-- ==== Sys2Proof/Machine/Servo.lean ====
section
/-! DEFINITION. What one loop cell computes in one stitch (07_servo_loops.md R130 to R136, R142 to R148, R402 to R405):
the arithmetic primitives, the coefficient block, the loop law, the sequences and the plant model. -/

namespace Sys2Proof.Machine

/-! ### Arithmetic (R133) -/

/-- Clip to 16 bits. -/
def sat16 (x : Int) : Int := if x < -32768 then -32768 else if 32767 < x then 32767 else x
/-- Clip to 40 bits. -/
def sat40 (x : Int) : Int := if x < -(2 ^ 39) then -(2 ^ 39) else if 2 ^ 39 - 1 < x then 2 ^ 39 - 1 else x
/-- The multiply-accumulate primitive. -/
def mac (acc a b : Int) : Int := sat40 (acc + 2 * a * b)
/-- The rounding primitive: halves round towards plus infinity. -/
def rnd (acc : Int) (sh : Nat) : Int := sat16 ((sat40 (acc * 2 ^ sh) + 2 ^ 15) / 2 ^ 16)
/-- Quotient truncated towards zero. -/
def trunc (a b : Int) : Int := Int.tdiv a b
/-- Sign: -1, 0 or 1. -/
def sgn (x : Int) : Int := if x < 0 then -1 else if 0 < x then 1 else 0
/-- Signed value of a 16-bit word. -/
def s16 (h : Half) : Int := h.toInt

/-! ### The coefficient block (R131) -/

/-- Word `i` of a block as stored; words past the end read zero. -/
def cw (c : Cell) (i : Nat) : Nat := (c.coef.getD i 0).toNat
/-- Word `i` of a block, signed. -/
def cwS (c : Cell) (i : Nat) : Int := s16 (c.coef.getD i 0)
/-- Forming coefficients. -/
def nForm (c : Cell) : Nat := cw c 0
/-- Second-order sections, notches among them. -/
def nSec (c : Cell) : Nat := cw c 1 % 256
/-- Notches: the last sections. -/
def nNotch (c : Cell) : Nat := cw c 1 / 256
/-- Model order. -/
def nModel (c : Cell) : Nat := cw c 2 / 256
/-- PARK. -/
def park (c : Cell) : Int := cwS c 4
/-- RETRACT. -/
def retractLen (c : Cell) : Nat := cw c 5
/-- HOLD_MAX. -/
def holdMax (c : Cell) : Nat := cw c 6
/-- Output saturation. -/
def satOut (c : Cell) : Int := cwS c 8
/-- N, consecutive stitches of the plausibility rule. -/
def nPlaus (c : Cell) : Nat := cw c 10 % 256
/-- First word of the sections. -/
def secBase (c : Cell) : Nat := 16 + 2 * nForm c
/-- First word of the PID words. -/
def pidBase (c : Cell) : Nat := secBase c + 6 * nSec c
/-- First word of the model. -/
def modelBase (c : Cell) : Nat := pidBase c + 6
/-- PID shift. -/
def pidShift (c : Cell) : Nat := cw c (pidBase c + 5)
/-- First sequence word. -/
def seqBase (c : Cell) : Nat := modelBase c + (if nModel c = 0 then 0 else nModel c * nModel c + 2 * nModel c + 1)
/-- Sequence word `i` (R145), unsigned. -/
def sw (c : Cell) (i : Nat) : Nat := cw c (seqBase c + i)
/-- Sequence word `i`, signed. -/
def swS (c : Cell) (i : Nat) : Int := cwS c (seqBase c + i)

/-- A sensor word by index: 0 to 31 the current frame, 32 to 63 the last present frame before it (R130). -/
def sensor (cur prev : List Half) (i : Nat) : Int := if i < 32 then s16 (cur.getD i 0) else s16 (prev.getD (i - 32) 0)

/-- The sum: the word at the SUM index (R145). -/
def sumWord (c : Cell) (cur prev : List Half) : Int := sensor cur prev (cw c 3 % 64)

/-! ### Forming, sections, notches (R134) -/

/-- The offset input of R142. -/
def offsetIn (c : Cell) : Int := sat16 (c.cal + c.sweep + c.trial)

/-- Error e of the stitch: forming, normalisation, offset (R134). -/
def formE (c : Cell) (cur prev : List Half) : Int :=
  let acc := (List.range (nForm c)).foldl
    (fun a i => mac a (cwS c (16 + nForm c + i)) (sensor cur prev (cw c (16 + i) % 64))) 0
  let e := rnd acc (cw c 11 % 8)
  let e := if cw c 3 / 2 ^ 15 = 1 then sat16 (trunc (e * 16384) (max (sumWord c cur prev) 256)) else e
  sat16 (e + offsetIn c)

/-- One second-order section of R133: output and new states. -/
def section1 (c : Cell) (j : Nat) (z : Sec) (x : Int) : Int × Sec :=
  let b := secBase c + 6 * j
  let acc := mac (mac (mac 0 (cwS c b) x) (cwS c (b + 1)) z.x1) (cwS c (b + 2)) z.x2
  let acc := mac (mac acc (-(cwS c (b + 3))) z.y1) (-(cwS c (b + 4))) z.y2
  let y := rnd acc (cw c (b + 5))
  (y, { x1 := x, x2 := z.x1, y1 := y, y2 := z.y1 })

/-- Sections `lo` to `hi - 1` in order: output and new section states. -/
def runSections (c : Cell) (lo hi : Nat) (x : Int) : Int × List Sec :=
  (List.range (hi - lo)).foldl
    (fun (p : Int × List Sec) i =>
      let j := lo + i
      let r := section1 c j (p.2.getD j ({} : Sec)) p.1
      (r.1, p.2.set j r.2))
    (x, c.secs ++ List.replicate (nSec c - c.secs.length) ({} : Sec))

/-- Put a pre-notch value through the notches and saturate it: the command of the stitch (R134, R136). -/
def finish (c : Cell) (z : Int) : Cell :=
  let r := runSections c (nSec c - nNotch c) (nSec c) z
  let u := min (max r.1 (-(satOut c))) (satOut c)
  { c with secs := r.2, z := z, uPre := r.1, u := u, saturated := u != r.1 }

/-- The loop law of a CLOSED cell, from its error and its source's command (R134). -/
def law (c : Cell) (e usrc : Int) : Cell :=
  let r := runSections c 0 (nSec c - nNotch c) e
  let v := r.1
  let p := pidBase c
  let w := sat16 (c.u - c.uPre)
  let i := mac (mac c.iAcc (cwS c (p + 1)) v) (cwS c (p + 3)) w
  let acc := mac (mac 0 (cwS c p) v) (cwS c (p + 2)) (sat16 (v - c.vPrev))
  let acc := mac (sat40 (acc + i)) (cwS c (p + 4)) usrc
  let z := rnd acc (pidShift c)
  finish { c with secs := r.2, iAcc := i, vPrev := v, zh := z } z

/-- The low-frequency term of R144. -/
def lowTermOf (c : Cell) : Int := rnd c.iAcc (pidShift c)

/-- A zero crossing of e (R405). -/
def crossing (c : Cell) (e : Int) : Bool :=
  match c.ePrev with
  | none => false
  | some p => (p < 0 && 0 < e) || (0 < p && e < 0) || (e == 0 && p != 0)

/-- Sign that decides the pull-in direction: Kp, else Ki, else Kd (R148). -/
def pidSign (c : Cell) : Int :=
  let p := pidBase c
  if cwS c p ≠ 0 then sgn (cwS c p) else if cwS c (p + 1) ≠ 0 then sgn (cwS c (p + 1)) else sgn (cwS c (p + 2))

/-! ### Sequences (R145 to R148): one present stitch -/

/-- Counters of a running sequence step. -/
def tick (q : Seqn) : Seqn := { q with stepSt := q.stepSt + 1, total := q.total + 1 }

/-- Focus acquisition (R146): the search value starts at PARK and moves by S_RATE up to S_LIMIT; an armed cell captures. A carried
fraction is floored in the 16-bit value (DESIGN CHOICE, log entry 167). -/
def stepAcquire (c : Cell) (e sum : Int) : Cell :=
  let q := tick c.seq
  let lim := swS c 8 * 256
  let pos := if q.total = 1 then park c * 256 else min (c.searchPos + sw c 7) (max lim (park c * 256))
  let pre := pos / 256
  let armed := c.seq.armed || decide (sum < (sw c 4 : Int))
  let cap := armed && !decide (sum < (sw c 4 : Int)) && crossing c e
  finish { c with searchPos := pos, seq := { q with armed := armed, pre := pre }, captured := cap } pre

/-- Tracking pull-in (R148): the pre-notch value is held; capture once XCNT has rested for PULL_ST stitches. -/
def stepPullIn (c : Cell) (e xcnt : Int) : Cell :=
  let q := tick c.seq
  let run := if q.total = 1 then 0 else if xcnt = c.xcntPrev then c.xcntRun + 1 else 0
  let dir := match c.ePrev with | none => false | some p => sgn (e - p) == -(pidSign c) && pidSign c != 0
  let cap := decide (sw c 9 ≤ run) && crossing c e && dir
  finish { c with xcntRun := run, xcntPrev := xcnt, seq := q, captured := cap } q.pre

/-- A SEARCH stitch of a tilt or yaw cell: it captures in its first present stitch, at PARK (R137). -/
def stepPlainSearch (c : Cell) : Cell :=
  finish { c with seq := { tick c.seq with pre := park c }, captured := true } (park c)

/-- A SEQUENCE stitch of a layer jump (R147): kick, then capture once armed, then brake. -/
def stepJump (c : Cell) (e sum : Int) : Cell :=
  let q := tick c.seq
  let dir : Int := if q.deeper then 1 else -1
  match q.step with
  | .kick =>
    let sg := if q.stepSt ≤ sw c 1 then dir * swS c 0 else 0
    finish { c with seq := q } (sat16 (c.zh + sg))
  | .coast =>
    let low := decide (sum < (sw c 4 : Int))
    let armed := q.armed || low
    let cap := armed && !low && crossing c e
    finish { c with seq := { q with armed := armed, pre := sat16 c.zh }, captured := cap } (sat16 c.zh)
  | _ =>
    let sg := if q.stepSt ≤ sw c 3 then -dir * swS c 2 else 0
    finish { c with seq := q } (sat16 (c.zh + sg))

/-- A SEQUENCE stitch of a seek (R148). -/
def stepSeek (c : Cell) (e xcnt : Int) : Cell :=
  let q := tick c.seq
  let nu := if q.total = 1 then 0 else sx 16 (ux 16 (xcnt - c.xcntPrev))
  let d := q.d - nu
  let vf := if q.total = 1 then 0 else q.vf + trunc (256 * nu - q.vf) 4
  let vref := sgn d * min (sw c 2 : Int) ((d.natAbs : Int) * sw c 3)
  let sg := if q.step = .kick ∧ q.stepSt ≤ sw c 1 then sgn q.remain * swS c 0
            else rnd (mac 0 (swS c 4) (sat16 (vref - vf))) 0
  let z := sat16 (c.zh + sg)
  let win := if d ≠ 0 then 0 else if q.needLeave then 0 else q.win + 1
  let cap := decide (0 < win) && decide (win ≤ sw c 6) && crossing c e
  let step := if d = 0 then (if q.step = .velocity ∧ win = 1 then .window else q.step)
              else if q.step = .window then .velocity else q.step
  finish { c with
    xcntPrev := xcnt, captured := cap
    seq := { q with d := d, vf := vf, win := win, needLeave := q.needLeave && decide (d = 0), step := step, pre := z
                    stepSt := if step ≠ q.step then 1 else q.stepSt } } z

/-- RETRACT: the ramp from u_e to PARK in its i-th present stitch (R136). -/
def stepRetract (c : Cell) : Cell :=
  let l : Int := retractLen c
  let i : Int := (min (c.rampI + 1) (retractLen c) : Nat)
  let u := if l = 0 then park c else trunc (c.rampU * (l - i) + park c * i) l
  { c with rampI := c.rampI + 1, u := u, uPre := u, saturated := false }

/-- One present stitch of a cell, slots A to D (R134, R136, R402): the sensor words of its OPU, the last present frame's
words, and its feed-forward source's command. -/
def stepCell (c : Cell) (cur prev : List Half) (usrc : Int) : Cell :=
  let e := formE c cur prev
  let x := s16 (cur.getD 26 0)
  let spikeOn := decide (c.loop < 2) && decide ((e.natAbs : Int) > cwS c 7)
  let done (d : Cell) (sp : Bool) : Cell := { d with e := e, ePrev := some e, spike := sp }
  match c.st with
  | .parked => { c with u := park c, uPre := park c, spike := false, saturated := false }
  | .search =>
    let d := match c.loop with
      | 0 => stepAcquire c e (sumWord c cur prev)
      | 1 => stepPullIn c e x
      | _ => stepPlainSearch c
    done { d with uPre := d.u } false
  | .closed =>
    let c := { c with seq := if c.seq.kind = .none then c.seq else tick c.seq }
    done (law c e usrc) spikeOn
  | .sequence =>
    done (match c.seq.kind with
      | .seek => stepSeek c e x
      | _ => stepJump c e (sumWord c cur prev)) false
  | .held => done { c with saturated := false } false
  | .suspended => done { c with saturated := false } false
  | .retract => done (stepRetract c) false

/-! ### The plant model (R135, R403) -/

/-- Counting is on in CLOSED, SEQUENCE and HELD. -/
def counting (c : Cell) : Bool := c.st == .closed || c.st == .sequence || c.st == .held

/-- Slot P of a present stitch (R135). -/
def stepModel (c : Cell) (cur prev : List Half) : Cell :=
  let n := nModel c
  if n = 0 ∨ c.st = .parked then c
  else
    let m := modelBase c
    let sh := cw c (m + n * n + 2 * n)
    let acc := (List.range n).foldl (fun a i => mac a (cwS c (m + n * n + n + i)) (c.xm.getD i 0)) 0
    let yhat := rnd acc sh
    let r := sat16 (sensor cur prev (cw c 2 % 64) - yhat)
    let above := decide (cwS c 9 < (r.natAbs : Int))
    let cnt := if counting c then (if above then min (c.cnt + 1) 255 else 0) else c.cnt
    let xm := (List.range n).map (fun i =>
      rnd ((List.range n).foldl (fun a j => mac a (cwS c (m + i * n + j)) (c.xm.getD j 0))
        (mac 0 (cwS c (m + n * n + i)) c.u)) sh)
    { c with yhat := yhat, resid := r, cnt := cnt, xm := xm
             holdSt := if c.st = .held then c.holdSt + 1 else c.holdSt
             zeroSt := if c.st = .held then (if cnt = 0 then c.zeroSt + 1 else 0) else c.zeroSt }

/-- A cell without a model still counts the stitches of its hold. -/
def stepHold (c : Cell) : Cell :=
  if nModel c = 0 ∧ c.st = .held then { c with holdSt := c.holdSt + 1, zeroSt := c.zeroSt + 1 } else c

/-- The plausibility rule fires: counting is on and the count stands at N or more (R403). -/
def due (c : Cell) : Bool := decide (nModel c ≠ 0) && counting c && decide (nPlaus c ≤ c.cnt) && decide (0 < c.cnt)

/-! ### State changes of one cell (R136, R137) -/

/-- Entry to CLOSED or SEQUENCE: the count restarts (R403). -/
def enter (c : Cell) (st : CellSt) : Cell := { c with st := st, cnt := 0, holdSt := 0, zeroSt := 0 }

/-- CLOSED after a capture: the integrator is preset from the pre-notch value of the capture stitch (R137). -/
def closeAt (c : Cell) (zc : Int) : Cell :=
  enter { c with iAcc := sat40 (if pidShift c ≤ 16 then zc * 2 ^ (16 - pidShift c) else zc), captured := false } .closed

/-- SEARCH: law states and integrator zero (R136), the model's start value already set. -/
def enterSearch (c : Cell) (pre : Int) : Cell :=
  { c with
    st := .search, iAcc := 0, vPrev := 0, captured := false
    secs := (c.secs.take (nSec c - nNotch c)).map (fun _ => ({} : Sec)) ++ c.secs.drop (nSec c - nNotch c)
    seq := { kind := match c.loop with | 0 => .acquire | 1 => .pullIn | _ => .none, pre := pre }
    xcntRun := 0, searchPos := pre * 256 }

/-- RETRACT with a cause, FAULT latched if asked; a latched FAULT keeps its cause (R404). A focus cell loses its layer. -/
def enterRetract (c : Cell) (cause : Nat) (fault : Bool) : Cell :=
  { c with
    st := .retract, rampI := 0, rampU := c.u, seq := {}, captured := false, spike := false
    fault := c.fault || fault
    cause := if c.fault then c.cause else cause
    layer := if c.loop = 0 then none else c.layer }

/-- PARKED with every state zero, the offsets among them (R136, R142). The queue, FAULT and cause stay. -/
def enterParked (c : Cell) : Cell :=
  { c with
    st := .parked, secs := [], iAcc := 0, vPrev := 0, z := 0, zh := 0, e := 0, ePrev := none, xm := [], cnt := 0
    cal := 0, sweep := 0, trial := 0, u := park c, uPre := park c, spike := false, saturated := false, seq := {}
    captured := false, holdSt := 0, zeroSt := 0, rampI := 0, resid := 0, yhat := 0, layer := none }

/-- PARKED by a safe stop (R137 last row, R149): FAULT latched, with cause 1 where the cell is of those whose count brought it, states
kept until the bay reset or 0xC5, queue emptied. -/
def enterStopped (own : Bool) (c : Cell) : Cell :=
  { c with
    st := .parked, cause := if c.fault then c.cause else if own then 1 else 2, fault := true
    u := park c, uPre := park c, cal := 0, sweep := 0, trial := 0, ePrev := none, spike := false, seq := {}, captured := false
    queue := [], layer := none }

/-- SUSPENDED: a sequence so cut ends (R137). -/
def enterSuspended (c : Cell) : Cell := { c with st := .suspended, seq := {}, captured := false, spike := false }

/-- HELD (R149 action 0): a sequence in progress ends. -/
def enterHeld (c : Cell) : Cell :=
  { c with st := .held, seq := {}, captured := false, holdSt := 0, zeroSt := 0, spike := false }

/-- The change that a stitch's capture brings at the next edge (R137, R146 to R148); a plausibility action due in the same
stitch wins (R151). -/
def edgeCell (c : Cell) : Cell :=
  if !c.captured || due c then { c with captured := false }
  else match c.st, c.seq.kind with
    | .search, _ =>
      closeAt { c with layer := if c.loop = 0 then some 15 else c.layer, seq := {} } c.seq.pre
    | .sequence, .jump =>
      { c with
        captured := false
        layer := c.layer.map (fun l => if c.seq.deeper then l - 1 else l + 1)
        seq := { c.seq with step := .brake, stepSt := 0, remain := c.seq.remain - 1 } }
    | .sequence, .seek => closeAt { c with seq := { c.seq with step := .settle, stepSt := 0 } } c.seq.pre
    | _, _ => { c with captured := false }

end Sys2Proof.Machine
end

