-- ==== Sys2Proof/Machine/Spindle.lean ====
section
/-! DEFINITION. What one spindle unit computes in one stitch (08_spindle.md R152 to R165): angle, sense window and
crossings, drive and current loops, short brake, sense of a turning disc, and the phase words. -/

namespace Sys2Proof.Machine

/-- A quotient truncated towards zero; the spec states no result for a zero divisor (log entry 3). -/
def qdiv (a b : Int) : Int := if b = 0 then Config.divByZero a else Int.tdiv a b

/-! ### Parameters in force -/

/-- The configuration of a unit, read from its registers (SPD_UNIT_*), the Limits section and the bus group. -/
structure SpdPar where
  poles : Nat
  window : Nat
  rated : Nat
  blank : Nat
  rampAcc : Nat
  rampI : Nat
  alignI : Nat
  accMax : Nat
  decMax : Nat
  sbEntry : Nat
  sbIlim : Nat
  kpw : Int
  kiw : Int
  kpi : Int
  kii : Int
  shW : Nat
  shI : Nat
  rampEnd : Nat
  kth : Nat
  kom : Nat
  emfMin : Nat
  fwl : Nat
  limit : Nat
  blocked : Bool
deriving DecidableEq, Repr

/-- Bus group of a bay (R29 type 0x0A); without a Binding the pairs of the Flyleaf example. -/
def groupOf (s : State) (b : Nat) : Nat := ((s.bnd.active.map (·.groups)).getD []).getD b (b / 2)

/-- Group `g` is blocked (R167). -/
def blockedGroup (s : State) (g : Nat) : Bool := s.bus.blocked.getLsbD g

/-- Fuses of a voted word in force (R340, R341): two agreeing copies, else the most restrictive, which for every word is the
one with the most fuses blown. -/
def votedFuses (v : Voted) : Nat :=
  if v.a = v.b ∨ v.a = v.c then v.a else if v.b = v.c then v.b else max v.a (max v.b v.c)

/-- The voted spindle speed limit in rpm (R340). -/
def votedSpindle (s : State) : Nat := 7500 - 100 * votedFuses s.kst.spindle

/-- Ceiling that a mode's entry sets on the spindle (R374). -/
def modeSpin (m : Nat) : Nat := if m = 2 then 4500 else if m = 4 then 4000 else if m = 5 then 0 else 7500

/-- Effective speed limit of a bay in rpm (R159): Limits maximum, voted spindle limit, Mode Table cap under the mode's
ceiling (R374), and the ladder's ceiling (R381). -/
def speedLimit (s : State) (b : Nat) : Nat :=
  let lim := min 7500 ((s.bnd.active.map (·.limits.spindle)).getD 7500)
  let cap := (modeRec s b).spin
  min (min (min lim (votedSpindle s)) (if (bayAt s b).spinThrottle then 4000 else 7500)) (min (modeSpin (bayAt s b).mode) (if cap = 0 then 7500 else cap))

/-- The parameters of unit `u`. -/
def spdPar (s : State) (u : Nat) : SpdPar :=
  let g0 := reg s .spdUnitGain (3 * u)
  let g1 := reg s .spdUnitGain (3 * u + 1)
  let g2 := reg s .spdUnitGain (3 * u + 2)
  { poles := max 1 (min 8 (regBits s .spdUnitMotor u 3 0))
    window := regBits s .spdUnitMotor u 12 8
    rated := regBits s .spdUnitMotor u 31 16
    blank := regBits s .spdUnitStart u 31 28
    rampAcc := regBits s .spdUnitStart u 27 16
    rampI := regBits s .spdUnitStart u 15 8
    alignI := regBits s .spdUnitStart u 7 0
    accMax := regBits s .spdUnitLimits u 31 16
    decMax := regBits s .spdUnitLimits u 15 0
    sbEntry := regBits s .spdUnitBrake u 28 16
    sbIlim := regBits s .spdUnitBrake u 15 0
    kpw := sx 16 (g0 / 65536), kiw := sx 16 g0, kpi := sx 16 (g1 / 65536), kii := sx 16 g1
    shW := bits g2 31 28, shI := bits g2 27 24, rampEnd := 10 * bits g2 23 16, kth := bits g2 15 8, kom := bits g2 7 0
    emfMin := regBits s .spdUnitEmf u 15 0
    fwl := (s.bnd.active.map (·.limits.fwl)).getD 0
    limit := speedLimit s u
    blocked := blockedGroup s (groupOf s u) }

/-! ### Angle and speed (R154) -/

/-- Speed of an angle step per stitch, in rpm, truncated. -/
def rpmOf (p : SpdPar) (w : BitVec 32) : Int := Int.tdiv (w.toInt * 15000000) ((2 ^ 32 : Nat) * p.poles : Nat)

/-- Angle step per stitch of a speed given in 1/250,000 rpm. -/
def omegaOf (p : SpdPar) (r : Int) : BitVec 32 := BitVec.ofInt 32 (Int.tdiv (r * 2 ^ 32 * p.poles) (15000000 * 250000))

/-- The measured speed of a unit in its state. -/
def unitRpm (p : SpdPar) (u : Unit) : Int :=
  match u.st with
  | .off | .sense | .fault => 0
  | .short => u.rpmShort
  | _ => rpmOf p u.omega

/-! ### Sense windows (R155, R156) -/

/-- Expected crossing angle of kind 0 to 5: A rising, C falling, B rising, A falling, C rising, B falling. -/
def crossAngle (k : Nat) : BitVec 32 := BitVec.ofNat 32 (k * 2 ^ 32 / 6)

/-- Phase of a crossing: 0 A, 1 B, 2 C. -/
def crossPhase (k : Nat) : Nat := if k % 3 = 0 then 0 else if k % 3 = 1 then 2 else 1

/-- The crossing whose window holds an edge angle: from θx - W/2 until θ has passed θx + W/2. -/
def windowAt (p : SpdPar) (a : BitVec 32) : Option Nat :=
  let h : Int := (p.window * 2 ^ 32 / 720 : Nat)
  (List.range 6).find? (fun k => let o := (a - crossAngle k).toInt; decide (-h ≤ o) && decide (o < h))

/-- Signed terminal voltage of phase `x` in sample `i` of the spindle words. -/
def termV (spin : List Half) (x i : Nat) : Int := s16 (spin.getD (4 + 4 * x + i) 0)

/-- Twice d of R156 for the four samples of a frame. -/
def windowSamples (spin : List Half) (k : Nat) : List Int :=
  let x := crossPhase k
  (List.range 4).map (fun i => 2 * termV spin x i - termV spin ((x + 1) % 3) i - termV spin ((x + 2) % 3) i)

/-- Sample indices after which d changes sign, with its direction (true rising). -/
def signChanges (ds : List Int) (from_ : Nat) : List (Nat × Bool) :=
  (List.range (ds.length - 1)).filterMap (fun i =>
    let a := ds.getD i 0
    let b := ds.getD (i + 1) 0
    if i < from_ then none
    else if a < 0 ∧ 0 ≤ b then some (i, true) else if 0 ≤ a ∧ b < 0 then some (i, false) else none)

/-- Time of a valid crossing in 1/16 µs after the edge of the window's first stitch, none where the window has none. -/
def crossingTime (p : SpdPar) (k : Nat) (ds : List Int) : Option Nat :=
  match signChanges ds p.blank with
  | [(i, up)] =>
    if up = decide (k % 2 = 0) then
      let a := ds.getD i 0
      let b := ds.getD (i + 1) 0
      some (8 + 16 * i + (Int.tdiv (16 * a) (a - b)).toNat)
    else none
  | _ => none

/-- One electrical period of `t` sixteenths of a microsecond lies within `n`/1000 of the target speed (R160). -/
def within (p : SpdPar) (target t n : Nat) : Bool :=
  let x : Int := 960000000
  let y : Int := (target * t * p.poles : Nat)
  decide ((x - y).natAbs * 1000 ≤ n * target * t * p.poles)

/-- A kind-0 crossing ends an electrical period (R160): while the unit drives, braking included, so that a falling speed unlocks it. -/
def periodEnd (p : SpdPar) (u : Unit) (t : Nat) : Unit :=
  if u.st != .run && u.st != .regen then u
  else { u with lockRun := if within p u.target t 1 then u.lockRun + 1 else 0
                outRun := if within p u.target t 3 then 0 else u.outRun + 1 }

/-- The angle at which θ stood `t` sixteenths of a microsecond after a stitch edge (R156): θ and the part of ω that ran since. A product
that is no whole angle unit is rounded down or up: the spec prints no rounding (log entry 170). -/
def angleAt (th om : BitVec 32) (t : Nat) : BitVec 32 :=
  let x := om.toInt * t
  th + BitVec.ofInt 32 (x / 64 + (if x % 64 ≠ 0 ∧ Config.angleRoundsUp x then 1 else 0))

/-- The window that just ended is judged (R156): a valid crossing corrects θ and ω, a missed one is counted; a missed kind-0 crossing
ends the run of consecutive periods (R160). The intervals kept are those between consecutive crossings in phase order (R164). -/
def closeWindow (p : SpdPar) (u : Unit) : Unit :=
  match u.window with
  | none => u
  | some k =>
    let n := u.winSamples.length / 4
    let u' := { u with window := none, winSamples := [] }
    match crossingTime p k u.winSamples with
    | none =>
      { u' with
        missedRun := u.missedRun + 1, validRun := 0, intervals := []
        sincePeriod := if k = 0 then none else u.sincePeriod
        lockRun := if k = 0 then 0 else u.lockRun, outRun := if k = 0 then 0 else u.outRun }
    | some t =>
      let eps := crossAngle k - angleAt u.winTheta u.omega t
      let run := if u.validRun ≠ 0 ∧ k = (u.lastKind + 1) % 6 then u.validRun + 1 else 1
      let gap := u.sinceCross + t - n * 64
      let u' := { u' with
        theta := u.theta + eps.sshiftRight p.kth
        omega := u.omega + eps.sshiftRight p.kom
        missedRun := 0, validRun := run, lastKind := k
        intervals := if run = 1 then [] else (u.intervals ++ [gap]).drop ((u.intervals.length + 1) - 6)
        sinceCross := n * 64 - t }
      if k = 0 then
        let u'' := match u.sincePeriod with
          | some c => periodEnd p u' (c + t - n * 64)
          | none => u'
        { u'' with sincePeriod := some (n * 64 - t) }
      else u'

/-- What floated in the stitch that a frame sampled: the words formed two stitches before it (R42, R152). -/
def floated (u : Unit) : Option Nat := if u.floatQ.length < 2 then none else u.floatQ.headD none

/-- The words of a stitch follow those before them; an absent frame's stitch repeats the last (R44). -/
def pushFloat (u : Unit) (k : Option Nat) : Unit := { u with floatQ := (u.floatQ ++ [k]).drop ((u.floatQ.length + 1) - 2) }

/-- The samples of one present stitch enter the open window; the window of a stitch that is past is judged. -/
def senseStep (p : SpdPar) (spin : List Half) (u : Unit) : Unit :=
  let k := (floated u).filter (fun x => decide (x < 6))
  let u := if u.window.isSome && u.window != k then closeWindow p u else u
  let u := match k with
    | none => u
    | some x =>
      if u.window.isSome then { u with winSamples := u.winSamples ++ windowSamples spin x }
      else { u with window := some x, winTheta := u.theta - u.omega, winSamples := windowSamples spin x }
  { u with sinceCross := u.sinceCross + 64, sincePeriod := u.sincePeriod.map (· + 64) }

/-! ### Drive (R157, R158) -/

/-- A PI stage of R157 by the primitives of R133: the integrator takes ki times the error, the output is the proportional part and the
integrator, rounded by the shift. The composition, and the units (rpm, mA and mV in a 16-bit word), are not printed (log entry 171). -/
def piStep (kp ki : Int) (sh : Nat) (acc err : Int) : Int × Int :=
  let e := sat16 err
  let a := mac acc ki e
  (a, rnd (sat40 (mac 0 kp e + a)) sh)

/-- A third of a turn. -/
def third : BitVec 32 := BitVec.ofNat 32 (2 ^ 32 / 3)
/-- A quarter of a turn. -/
def quarter : BitVec 32 := BitVec.ofNat 32 (2 ^ 30)

/-- The back-EMF angles of phases A, B and C at θ: phase B crosses zero rising at 120°, phase C at 240° (R155). -/
def phaseAngles (th : BitVec 32) : List (BitVec 32) := [th, th - third, th + third]

/-- i_d and i_q of three phase currents at θ (R157): q along the back-EMF, d a quarter turn behind it (log entry 171). -/
def toRotor (th : BitVec 32) (is : List Int) : Int × Int :=
  let q := (List.zip (phaseAngles th) is).foldl (fun a x => mac a (Config.sinTwoThirds x.1) (sat16 x.2)) 0
  let d := (List.zip (phaseAngles th) is).foldl (fun a x => mac a (Config.sinTwoThirds (x.1 - quarter)) (sat16 x.2)) 0
  (rnd d 0, rnd q 0)

/-- v_A, v_B and v_C of v_d and v_q at θ: the inverse transform (R157). -/
def toPhases (th : BitVec 32) (vd vq : Int) : List Int :=
  (phaseAngles th).map (fun x => rnd (mac (mac 0 (Config.sinQ15 (x - quarter)) vd) (Config.sinQ15 x) vq) 0)

/-- Speed reference in 1/250,000 rpm, one stitch nearer to the target (R157). -/
def rampRef (up down : Nat) (ref : Int) (target : Nat) : Int :=
  let t : Int := (target * 250000 : Nat)
  if ref < t then min (ref + up) t else max (ref - down) t

/-- Field weakening (R158). -/
def weaken (p : SpdPar) (vbus : Int) (u : Unit) : Unit :=
  let m := (u.vd * u.vd + u.vq * u.vq) * 1000000
  let st : Int := (p.rated / 256 : Nat)
  let lo : Int := -((p.fwl * p.rated / 100 : Nat) : Int)
  if (475 * vbus) * (475 * vbus) < m then { u with idRef := max (u.idRef - st) lo }
  else if m < (450 * vbus) * (450 * vbus) then { u with idRef := min (u.idRef + st) 0 }
  else u

/-- Duty of a driven phase (R157). -/
def duty (v vbus : Int) : Int := min (max (2048 + qdiv (4096 * v) vbus) 0) 4095

/-- The three duties of the drive at the unit's angle. -/
def driveDuties (u : Unit) (vbus : Int) : List Int := (toPhases u.theta u.vd u.vq).map (duty · vbus)

/-- A phase voltage lies outside what a duty reaches: the output is clipped. -/
def dutyClipped (u : Unit) (vbus : Int) : Bool :=
  (toPhases u.theta u.vd u.vq).any (fun x => let d := 2048 + qdiv (4096 * x) vbus; decide (d < 0) || decide (4095 < d))

/-- A measurement of inertia from a bound to another, in rpm; none where they lie less than 600 rpm apart (R200). -/
def startAccel (b t : Int) : Option Accel := if t - b < 600 then none else some { b := b, t := t }

/-- i_q of one stitch of acceleration at ACC_MAX, in the interval that the measured speed lies in; the measurement is complete at its upper
bound, or where the speed reference has reached the target (R200). -/
def accelStep (p : SpdPar) (iq : Int) (u : Unit) : Unit :=
  let r := rpmOf p u.omega
  { u with accel := u.accel.map (fun a =>
    if a.whole || r < a.b then a
    else if a.t ≤ r || (u.target * 250000 : Nat) ≤ u.ref then { a with whole := true }
    else if 2 * r < a.b + a.t then { a with sum1 := a.sum1 + iq, n1 := a.n1 + 1 }
    else { a with sum2 := a.sum2 + iq, n2 := a.n2 + 1 }) }

/-- Speed loop, current loops and field weakening of one stitch of RUN or REGEN (R157, R158, R161, R167). -/
def driveStep (p : SpdPar) (spin : List Half) (u : Unit) : Unit :=
  let vbus : Int := (spin.getD 0 0).toNat
  let ref := rampRef p.accMax p.decMax u.ref (if u.st = .regen then 0 else u.target)
  let w := piStep p.kpw p.kiw p.shW u.iSpeed (Int.tdiv ref 250000 - rpmOf p u.omega)
  let iq := min (max w.2 (-(p.rated : Int))) p.rated
  let iq := if u.st = .regen then min iq 0 else iq
  let iq := if p.blocked then max iq 0 else iq
  let ia := s16 (spin.getD 1 0)
  let ib := s16 (spin.getD 2 0)
  let i := toRotor u.theta [ia, ib, -ia - ib]
  let d := piStep p.kpi p.kii p.shI u.iCur.1 (u.idRef - i.1)
  let q := piStep p.kpi p.kii p.shI u.iCur.2 (iq - i.2)
  let u := { u with ref := ref, iSpeed := w.1, iqRef := iq, iCur := if u.clipped then u.iCur else (d.1, q.1), vd := d.2, vq := q.2 }
  let u := if u.st = .run then accelStep p i.2 (weaken p vbus u) else u
  { u with clipped := dutyClipped u vbus }

/-! ### Brake, sense, coast (R162, R163) -/

/-- Largest phase current of a frame in mA. -/
def maxCurrent (spin : List Half) : Nat :=
  let a := s16 (spin.getD 1 0)
  let b := s16 (spin.getD 2 0)
  max a.natAbs (max b.natAbs (a + b).natAbs)

/-- Speed in rpm of two sign changes of IA that lie `n` stitches apart, half an electrical period (R162). -/
def halfPeriodRpm (p : SpdPar) (n : Nat) : Int := ((15000000 / (2 * n * p.poles) : Nat) : Int)

/-- The sign of IA while the phases are shorted (R162): the interval between two changes gives the speed, its direction kept. -/
def signStep (p : SpdPar) (spin : List Half) (u : Unit) : Unit :=
  let neg := decide (s16 (spin.getD 1 0) < 0)
  if floated u ≠ some 7 then { u with standRun := u.standRun + 1 }
  else if u.signSeen = 0 then { u with iaNeg := neg, signSeen := 1, standRun := u.standRun + 1 }
  else if neg = u.iaNeg then { u with standRun := u.standRun + 1 }
  else { u with
    iaNeg := neg, signSeen := 2, standRun := 0
    rpmShort := if u.signSeen = 2 then (if u.rpmShort < 0 then -1 else 1) * halfPeriodRpm p (u.standRun + 1) else u.rpmShort }

/-- One stitch of SHORT (R161 to R163): the brake before attempt 1 is continuous; otherwise it is pulsed above SB_ENTRY, from the fraction
1,024 on, adjusted in every later stitch. -/
def shortStep (p : SpdPar) (spin : List Half) (u : Unit) : Unit :=
  let u := signStep p spin u
  let u := { u with stood := u.stood.map (· + 1) }
  if u.pulsed && u.timer == 1 then u
  else if u.brake != .start 1 && decide ((p.sbEntry : Int) < u.rpmShort.natAbs) then
    { u with pulsed := true
             fraction := if !u.pulsed then 1024
                         else if p.sbIlim < maxCurrent spin then u.fraction - u.fraction / 16 else min (u.fraction + 64) 4095 }
  else { u with pulsed := false, fraction := 4095 }

/-- The back-EMF vector of sample set `i` is shorter than EMF_MIN: nine times the square of its length is
4 (a² + b² + c² - ab - bc - ca) (R162, R163). -/
def emfLow (p : SpdPar) (spin : List Half) (i : Nat) : Bool :=
  let a := termV spin 0 i
  let b := termV spin 1 i
  let c := termV spin 2 i
  decide (4 * (a * a + b * b + c * c - a * b - b * c - c * a) < 9 * (p.emfMin * p.emfMin : Nat))

/-- The angle of the back-EMF vector of sample set `i`. -/
def emfAngle (spin : List Half) (i : Nat) : BitVec 32 := Config.emfAngle (termV spin 0 i) (termV spin 1 i) (termV spin 2 i)

/-- One stitch of SENSE (R163): angles of the four sample sets whose amplitude reaches the floor, once the phases float. -/
def senseSets (p : SpdPar) (spin : List Half) (u : Unit) : Unit :=
  if floated u ≠ some 6 then u
  else (List.range 4).foldl (fun u i =>
    let u := { u with senseSeen := u.senseSeen + 1 }
    if emfLow p spin i then u
    else { u with
      senseAcc := if u.senseAngles = 0 then 0 else u.senseAcc + (emfAngle spin i - u.senseLast).toInt
      senseAngles := u.senseAngles + 1, senseLast := emfAngle spin i }) u

/-- One stitch of COAST (R162): the back-EMF amplitude stays below the floor. -/
def coastStep (p : SpdPar) (spin : List Half) (u : Unit) : Unit :=
  if (List.range 4).all (emfLow p spin) then { u with standRun := u.standRun + 1 } else { u with standRun := 0 }

/-- Speed measured by SENSE as an angle step per stitch; zero where fewer than half the samples gave an angle. -/
def senseOmega (u : Unit) : Int := if 2 * u.senseAngles < u.senseSeen ∨ u.senseAngles = 0 then 0 else Int.tdiv u.senseAcc 5000

/-! ### One present stitch -/

/-- The measured speed exceeds the limit by more than 5 % (R159): from ω while the unit drives, from IA while it is shorted. -/
def overspeed (p : SpdPar) (u : Unit) : Bool :=
  match u.st with
  | .ramp | .run | .regen => decide ((105 * p.limit * 2 ^ 32 * p.poles : Nat) < u.omega.toInt * 1500000000)
  | .short => decide ((105 * p.limit : Nat) < 100 * u.rpmShort)
  | _ => false

/-- Counts consecutive stitches above the limit by more than 5 % (R159). -/
def overspeedStep (p : SpdPar) (u : Unit) : Unit := { u with overRun := if overspeed p u then u.overRun + 1 else 0 }

/-- The target asked for, clipped to the effective limit as it stands (R159). -/
def clipTarget (p : SpdPar) (u : Unit) : Unit :=
  let t := min u.want p.limit
  { u with target := t, capped := decide (p.limit < u.want), lockRun := if t = u.target then u.lockRun else 0 }

/-- One present stitch of a unit, before its words are formed. -/
def stepUnit (p : SpdPar) (spin : List Half) (u : Unit) : Unit :=
  let u := clipTarget p { u with
    theta := u.theta + u.omega, timer := u.timer + 1, lossAge := u.lossAge.map (fun k => min (k + 1) (10 * Config.sec + 1)) }
  let u := match u.st with
    | .off | .align | .fault => u
    | .sense => senseSets p spin u
    | .ramp =>
      let r := min (u.rampRpm + p.rampAcc) (p.rampEnd * 250000)
      { senseStep p spin u with rampRpm := r, omega := omegaOf p r }
    | .run | .regen => driveStep p spin (senseStep p spin u)
    | .short => shortStep p spin u
    | .coast => coastStep p spin u
  overspeedStep p u

/-- Command word of one phase (R153). -/
def phaseWord (mode : Nat) (v : Int) : Half := BitVec.ofNat 16 (mode * 16384 + v.toNat % 4096)

/-- The three spindle words formed after the stitch's update, and the window they float a phase for (R153, R155, R161). -/
def formWords (p : SpdPar) (spin : List Half) (u : Unit) : Unit :=
  let vbus : Int := (spin.getD 0 0).toNat
  let win := match u.st with | .ramp | .run | .regen => windowAt p (u.theta + u.omega) | _ => none
  let drive (ds : List Int) : List Half :=
    (List.range 3).map (fun x =>
      if win.any (fun k => crossPhase k == x) then phaseWord 1 0 else phaseWord 0 (ds.getD x 0))
  let vec (a : BitVec 32) (pct : Nat) : List Int :=
    let v := Config.spdVector a pct p.rated vbus.toNat
    [(v.1 % 4096 : Nat), (v.2.1 % 4096 : Nat), (v.2.2 % 4096 : Nat)]
  let ws := match u.st with
    | .off | .coast | .fault => List.replicate 3 (phaseWord 3 0)
    | .sense => List.replicate 3 (phaseWord 1 0)
    | .align => drive (vec (BitVec.ofNat 32 ((u.attempt - 1) * 2 ^ 30)) p.alignI)
    | .ramp => drive (vec u.theta p.rampI)
    | .run | .regen => drive (driveDuties u vbus)
    | .short => List.replicate 3 (phaseWord 2 u.fraction)
  pushFloat { u with words := ws } (match u.st with | .sense => some 6 | .short => some 7 | _ => win)

/-! ### State changes of one unit (R161, R163, R164) -/

/-- A new state: timers, windows and lock start anew; outside RUN i_d,ref is 0 (R158). -/
def toState (u : Unit) (st : SpdSt) : Unit :=
  { u with
    st := st, timer := 0, standRun := 0, stood := none, window := none, winSamples := [], floatQ := []
    lockRun := 0, outRun := 0, locked := false, overRun := 0, missedRun := 0, validRun := 0, intervals := []
    sinceCross := 0, sincePeriod := none, idRef := 0, clipped := false, signSeen := 0, accel := none }

/-- SENSE (R163). -/
def toSense (u : Unit) : Unit := { toState u .sense with senseSeen := 0, senseAngles := 0, senseAcc := 0, senseLast := 0 }

/-- ALIGN with an attempt (R164). -/
def toAlign (u : Unit) (a : Nat) : Unit := { toState u .align with attempt := a, theta := BitVec.ofNat 32 ((a - 1) * 2 ^ 30), omega := 0 }

/-- RAMP. -/
def toRamp (u : Unit) : Unit := { toState u .ramp with rampRpm := 0, omega := 0 }

/-- RUN at an angle and speed; the speed reference starts at the speed and the integrators at zero. The spin-up's inertia is measured from
1,000 rpm, or from 100 rpm above a handover above that, to 3,000 rpm or the target (R200). -/
def toRun (p : SpdPar) (u : Unit) (th w : BitVec 32) : Unit :=
  let r := rpmOf p w
  let a := startAccel (if 1000 < r then r + 100 else 1000) (min 3000 (u.target : Int))
  { toState u .run with
    theta := th, omega := w, iSpeed := 0, iCur := (0, 0), ref := Int.tdiv (w.toInt * 15000000 * 250000) ((2 ^ 32 : Nat) * p.poles : Nat)
    accel := a, skipped := a.isNone }

/-- SHORT with its reason, from the speed measured so far: pulsed at the fraction 1,024 (R162, R165), or continuous where the
start path commands it or the speed is at or below SB_ENTRY. -/
def toShort (p : SpdPar) (u : Unit) (why : Brake) : Unit :=
  let r := match u.st with
    | .sense => rpmOf p (BitVec.ofInt 32 (senseOmega u))
    | .short => u.rpmShort
    | .off | .fault => 0
    | _ => rpmOf p u.omega
  let pulsed := decide (p.sbEntry < r.natAbs)
  { toState u .short with brake := why, rpmShort := r, pulsed := pulsed, fraction := if pulsed then 1024 else 4095 }

/-- SHORT of a safe stop or plausibility action 2, whatever the unit did before: pulsed, from the fraction 1,024 of the frame that stops
the bay (R165). -/
def toStopShort (p : SpdPar) (u : Unit) : Unit := { toShort p u .stop with pulsed := true, fraction := 1024 }

/-- COAST. -/
def toCoast (u : Unit) : Unit := toState u .coast

/-- Latch FAULT with a cause. Each of R159 to R169 sets its cause; that the latest shows is the model's reading (log entry 172). -/
def latchFault (u : Unit) (cause : Nat) : Unit := { u with fault := true, cause := cause }

/-- Set the target, clipped to the effective limit (R159). -/
def setTarget (p : SpdPar) (u : Unit) (rpm : Nat) : Unit := { clipTarget p { u with want := rpm } with lockRun := 0 }

/-- SPEED at its effect stitch. In RUN, an acceleration that crosses 600 rpm is measured where the spin-up was not; one ended below its upper
bound leaves the measurement to the next (R200; that it is dropped then, DESIGN CHOICE, log entry 209). -/
def speedUnit (p : SpdPar) (u : Unit) (rpm : Nat) : Unit :=
  let u := setTarget p u rpm
  if u.st ≠ .run then u
  else
    let u := if u.accel.any (fun a => !a.whole && decide ((u.target : Int) < a.t)) then { u with accel := none, skipped := true } else u
    if !u.skipped then u
    else
      let b := rpmOf p u.omega + 100
      let a := startAccel b (min (b + 2000) u.target)
      { u with accel := a, skipped := a.isNone }

/-- Handover of RAMP to RUN after six valid crossings in phase order (R164): ω from the mean of the intervals between them, each a sixth
of a period; six crossings bound five intervals, a seventh the sixth (log entry 173). -/
def handover (p : SpdPar) (u : Unit) : Unit :=
  let w := BitVec.ofNat 32 (2 ^ 32 * 64 * u.intervals.length / (6 * max u.intervals.sum 1))
  toRun p u (crossAngle u.lastKind + BitVec.ofNat 32 (w.toNat * u.sinceCross / 64)) w

/-- Changes that a stitch brings to a unit at the next edge without a row of their own: RAMP to RUN, REGEN to SHORT at 600 rpm. -/
def edgeUnit (p : SpdPar) (u : Unit) : Unit :=
  match u.st with
  | .ramp => if 6 ≤ u.validRun then handover p u else u
  | .regen => if rpmOf p u.omega ≤ 600 then toShort p u .stop else u
  | _ => u

end Sys2Proof.Machine
end

