-- ==== Sys2Proof/Machine/Motion.lean ====
section
/-! DEFINITION. What one stepper axis computes in one stitch (09_motion.md R172 to R187): profile, stops, homing, parking,
and the output word. -/

namespace Sys2Proof.Machine

/-- One microstep in units of R172. -/
def unitStep : Int := 2 ^ 24

/-- The configuration of an axis, read from its registers (MOT_AXIS_*). -/
structure MotPar where
  sled : Bool
  vmax : Int
  amax : Int
  jmax : Int
  edec : Int
  followStep : Int
  followSt : Nat
  followEn : Bool
  jerkEn : Bool
  retainEn : Bool
  limitRamp : Bool
  followTh : Int
  homeV : Int
  followV : Int
  homeOff : Int
deriving DecidableEq, Repr

/-- The parameters of axis `n`. -/
def motPar (s : State) (n : Nat) : MotPar :=
  let cfg := reg s .motAxisCfg n
  { sled := decide (n < 16)
    vmax := reg s .motAxisVmax n, amax := reg s .motAxisAmax n, jmax := reg s .motAxisJmax n, edec := reg s .motAxisEdec n
    followStep := bits cfg 23 16, followSt := bits cfg 15 4, followEn := cfg.testBit 3, jerkEn := cfg.testBit 2
    retainEn := cfg.testBit 1, limitRamp := cfg.testBit 0
    followTh := regBits s .motAxisFollow n 31 16
    homeV := (regBits s .motAxisFollow n 15 0 * 2 ^ 14 : Nat)
    followV := reg s .motAxisFollowV n, homeOff := sx 32 (reg s .motAxisHomeOff n) }

/-- Soft range in microsteps (R172). -/
def softRange (sled : Bool) : Int := if sled then 614400 else 51200

/-- Whole microsteps of a position. -/
def micro (p : Int) : Int := p / unitStep

/-- The phase index a position stands for (R172). -/
def phaseOf (sled : Bool) (p : Int) : Int := micro p % (if sled then 1024 else 256)

/-- A value kept in `w` bits, signed (R172). What the register shows of a result it cannot hold is left open (log entry 174). -/
def kept (w : Nat) (x : Int) : Int :=
  if -(2 ^ (w - 1) : Int) ≤ x ∧ x < 2 ^ (w - 1) then x else sx w (Config.outOfRange w x).toNat

/-- Clip. -/
def clip (x lo hi : Int) : Int := if x < lo then lo else if hi < x then hi else x

/-- The target acceleration of R180. -/
def accTarget (m : MotPar) (vmax d v : Int) : Int :=
  let s := sgn d
  let brake := qdiv (v * v) (2 * m.amax)
  let brake := if m.jerkEn then brake + v.natAbs * qdiv m.amax m.jmax else brake
  if 0 < s * v ∧ (d.natAbs : Int) ≤ brake + v.natAbs then
    -s * min m.edec (max m.amax (qdiv (v * v) (2 * d.natAbs)))
  else if vmax < (v.natAbs : Int) then -(sgn v) * m.amax
  else if s * v < 0 then s * m.amax
  else s * min m.amax (vmax - v.natAbs)

/-- One stitch of the profile towards the axis's target (R180). -/
def profile (m : MotPar) (vmax : Int) (a : Axis) : Axis :=
  let d := a.tgt - a.p
  if (d.natAbs : Int) ≤ a.v.natAbs ∧ (a.v.natAbs : Int) ≤ max m.amax a.aC.natAbs then
    { a with p := a.tgt, v := 0, aC := 0, arrived := true }
  else
    let t := accTarget m vmax d a.v
    let ac := if m.jerkEn then a.aC + clip (t - a.aC) (-m.jmax) m.jmax else t
    let v := kept 32 (a.v + ac)
    { a with aC := ac, v := v, p := kept 64 (a.p + v) }

/-- One stitch of STOPPING: brake at AMAX, after a limit at EDEC, as they now stand (R179, R181, R182). -/
def stopStep (m : MotPar) (a : Axis) : Axis :=
  let v := a.v - sgn a.v * min (a.v.natAbs : Int) (if a.limitStop then m.edec else m.amax)
  { a with v := v, p := kept 64 (a.p + v), aC := 0, arrived := decide (v = 0) }

/-- One stitch of HOMING (R184): inward at HOME_V until INNER, outward at a sixteenth until INNER clears. -/
def homeStep (m : MotPar) (a : Axis) : Axis :=
  let v := if a.homeOut then m.homeV / 16 else -m.homeV
  { a with v := v, p := kept 64 (a.p + v) }

/-- Nearest full step of a position, a tie going inward (R185). -/
def fullStep (sled : Bool) (p : Int) : Int :=
  let w := (if sled then 256 else 64) * unitStep
  let lo := p / w * w
  if p - lo ≤ w / 2 then lo else lo + w

/-- One present stitch of an axis: the position after it; an axis stopped hard in the stitch stands (R181). -/
def stepAxis (m : MotPar) (a : Axis) : Axis :=
  if a.hold then a
  else match a.st with
  | .moving => profile m (if a.follow then m.followV else m.vmax) a
  | .stopping => stopStep m a
  | .homing => homeStep m a
  | .parking => if a.parkSent then a else profile m m.vmax a
  | .down | .unknown | .idle => a

/-- The output word after the stitch (R173, R176). -/
def axisWord (a : Axis) : Half :=
  let step := BitVec.ofNat 16 (8192 + (micro a.p % 8192).toNat)
  if a.hold && a.st != .down then 0
  else match a.st with
  | .down => if a.energise then BitVec.ofNat 16 (4 * 8192) else BitVec.ofNat 16 ((if a.parkSent then 2 else 3) * 8192)
  | .unknown | .idle => 0
  | .moving | .stopping | .homing => step
  | .parking => if a.parkSent then BitVec.ofNat 16 (2 * 8192) else step

/-- Begin a move. The count of a follow move restarts with it (R186). -/
def startMove (a : Axis) (t : Int) (follow : Bool) : Axis :=
  { a with st := .moving, tgt := t, aC := 0, follow := follow, followRun := if follow then 0 else a.followRun }

/-- At rest: the pending move, else IDLE (R176); an axis that does not know its position is UNKNOWN (R177). -/
def atRest (a : Axis) : Axis :=
  let a := { a with v := 0, aC := 0, arrived := false, follow := false, limitStop := false, hold := false }
  if !a.known then { a with st := .unknown, pending := none }
  else match a.pending with
  | some t => startMove { a with pending := none } t false
  | none => { a with st := .idle }

/-- UNKNOWN; a cause other than 0 sets FAULT with it, latched until CLEAR. -/
def toUnknown (a : Axis) (cause : Nat) : Axis :=
  { a with st := .unknown, known := false, v := 0, aC := 0, pending := none, follow := false, limitStop := false, arrived := false,
           hold := false, fault := if cause = 0 then a.fault else true, cause := if cause = 0 then a.cause else cause }

/-- PARKING towards the nearest full step (R185). -/
def toParking (m : MotPar) (a : Axis) : Axis :=
  { a with st := .parking, tgt := fullStep m.sled a.p, pending := none, follow := false, parkSent := false, arrived := false, aC := 0 }

/-- DOWN: what an ENERGISE will find, the position known only after PARK (R176, R177, R185). -/
def toDown (a : Axis) (kept : Bool) : Axis :=
  { a with st := .down, known := a.known && kept, retained := kept, released := a.released && kept, v := 0, aC := 0, pending := none,
           follow := false, limitStop := false, arrived := false, hold := false, parkSent := a.parkSent && kept }

/-- The change that the stitch's frame decided, at the next edge (R137, R176). -/
def dueChange (a : Axis) : Axis :=
  let up (a : Axis) : Axis := { a with energise := false, retained := false, released := false, parkSent := false }
  match a.due with
  | 1 => toUnknown a 0
  | 2 => toUnknown (up a) 2
  | 3 => { toDown a false with fault := true, cause := 3 }
  | 5 => toUnknown (up a) 5
  | 6 => toDown a true
  | 7 => { up a with st := .idle, known := true, v := 0, hold := false }
  | 8 => toUnknown (up a) 0
  | _ => a

/-- Changes at the next edge: what the frame decided; arrival ends a move (R176, R178), rest ends a stop, arrival at the full step sends
PARK; a MOVE that waited out a hard stop starts (R181). -/
def edgeAxis (a : Axis) : Axis :=
  if a.due ≠ 0 then { dueChange a with due := 0 }
  else if a.arrived then
    match a.st with
    | .moving => atRest a
    | .stopping => if a.limitStop then toUnknown a 0 else atRest a
    | .parking => { a with parkSent := true, arrived := false, hold := false }
    | _ => { a with arrived := false, hold := false }
  else if a.hold && a.st == .idle then atRest a
  else { a with hold := false }

/-- A hard stop (R181): v = 0, HOLD in the same stitch, the running and pending moves end, the position stays known; after a limit it
ends in UNKNOWN all the same (R182, R187). -/
def hardStop (a : Axis) : Axis :=
  let b := { a with v := 0, aC := 0, pending := none, follow := false, arrived := false, hold := true }
  match a.st with
  | .moving | .stopping =>
    if a.limitStop then { b with limitStop := false, due := if a.due = 0 then 1 else a.due } else { b with st := .idle }
  | .homing => { b with st := if a.known then .idle else .unknown }
  | _ => { a with pending := none }

end Sys2Proof.Machine
end

