-- ==== Sys2Proof/Machine/Media.lean ====
section
/-! DEFINITION. The LVF-16 format (04_media_format.md R54 to R80), the edge-code stream (R113 to R120) and the parity
arithmetic of R212 and R213, down to the channel bit. -/

namespace Sys2Proof.Machine

/-! ### Checks -/

/-- One bit of the reflected CRC-32C register. -/
def crc32cBit (c : BitVec 32) : BitVec 32 := if c.getLsbD 0 then (c >>> 1) ^^^ 0x82F63B78#32 else c >>> 1
/-- One byte of CRC-32C. -/
def crc32cByte (c : BitVec 32) (b : Byte) : BitVec 32 :=
  (List.range 8).foldl (fun c _ => crc32cBit c) (c ^^^ b.zeroExtend 32)
/-- CRC-32C of bytes. -/
def crc32c (bs : Bytes) : BitVec 32 := ~~~ (bs.foldl crc32cByte 0xFFFFFFFF#32)

/-- CRC-16 of R60, polynomial 0x1021, initial value 0xFFFF, over bits most significant first. -/
def crc16Bits (bits : List Bool) : BitVec 16 :=
  bits.foldl (fun c b => if c.getLsbD 15 != b then (c <<< 1) ^^^ 0x1021#16 else c <<< 1) 0xFFFF#16

/-! ### Zones, frames, folio numbers (R57 to R63) -/

/-- Channel bits per turn of zone z: the nearest integer to 2π r_z / 30 nm with r_z = (240 + 4z)/10 mm (R57). -/
def zoneBits (z : Nat) : Nat := (314159265358979323846 * (240 + 4 * z) * 40000 + 3 * 10 ^ 20) / (6 * 10 ^ 20)
/-- Non-seam bands of a zone (R57, R61). -/
def zoneBands (z : Nat) : Nat := if z = 0 then 282 else if z = 85 then 313 else 595
/-- Channel bits of a leaf frame per lane (R61). -/
def frameBits : Nat := 7694336
/-- Leaf frames of a zone (R61). -/
def zoneFrames (z : Nat) : Nat := zoneBands z * zoneBits z / frameBits
/-- First frame index of a zone. -/
def zoneFirst (z : Nat) : Nat := ((List.range z).map zoneFrames).sum
/-- Frames of a layer. -/
def layerFrames : Nat := zoneFirst 86
/-- The zone of a frame: the last zone whose first frame is not above it. -/
def frameZone (f : Nat) : Nat := ((List.range 86).filter (fun z => zoneFirst z ≤ f)).length - 1
/-- First band of a zone (R57). -/
def zoneBand (z : Nat) : Nat := if z = 0 then 0 else 312 + 625 * (z - 1)
/-- Band of the first slot of a frame (R56, R61). -/
def frameBand (f : Nat) : Nat :=
  let z := frameZone f
  zoneBand z + (f - zoneFirst z) * frameBits / zoneBits z
/-- Speed of a zone in 1/10 rpm: 171,887.3 / r_z rpm, rounded to the nearest. -/
def zoneRpm10 (z : Nat) : Nat := (2 * 17188730 + (240 + 4 * z)) / (2 * (240 + 4 * z))
/-- OPC test frames (R64). -/
def opcFrame (f : Nat) : Bool := decide (f < 8)
/-- Frames of the catalogue band: zone 1 of layer 0 (R65). -/
def catalogueFrame (layer f : Nat) : Bool := decide (layer = 0) && decide (184 ≤ f) && decide (f ≤ 578)

/-- Folio number of a slot of a frame (R62). -/
def folioNumber (frame slot : Nat) : Nat := 68 * frame + slot
/-- Lane of a slot (R62). -/
def slotLane (slot : Nat) : Nat := slot % 4
/-- Position of a slot within its frame (R62). -/
def slotPosition (slot : Nat) : Nat := slot / 4

/-- The PFA of R63. -/
def pfa (volume disc side layer fn : Nat) : Dword :=
  BitVec.ofNat 64 (volume % 65536 * 2 ^ 48 + disc % 8 * 2 ^ 45 + side % 2 * 2 ^ 44 + layer % 16 * 2 ^ 40 + fn % 2 ^ 32)

/-- A PFA that the G840 does not refuse under R63, for the mounted volume. -/
def pfaOk (volume : Nat) (a : Dword) : Bool :=
  let n := a.toNat
  decide (bits n 63 48 = volume) && decide (bits n 39 32 = 0) && decide (bits n 31 0 < 68 * layerFrames)

/-- The fields of an address word (R60): layer, side, lane, zone, position, frame. -/
def addrField (w : BitVec 56) (hi lo : Nat) : Nat := bits w.toNat hi lo
/-- LAYER of an address word. -/
def addrLayer (w : BitVec 56) : Nat := addrField w 55 52
/-- SIDE of an address word. -/
def addrSide (w : BitVec 56) : Nat := addrField w 51 51
/-- LANE of an address word. -/
def addrLane (w : BitVec 56) : Nat := addrField w 50 49
/-- ZONE of an address word. -/
def addrZone (w : BitVec 56) : Nat := addrField w 48 42
/-- POSITION of an address word. -/
def addrPosition (w : BitVec 56) : Nat := addrField w 41 37
/-- FRAME of an address word. -/
def addrFrame (w : BitVec 56) : Nat := addrField w 36 21
/-- The CRC of an address word is correct: CRC-16 over bits [55:16] (R60). -/
def addrCrcOk (w : BitVec 56) : Bool :=
  crc16Bits ((List.range 40).map (fun i => w.getLsbD (55 - i))) == w.extractLsb' 0 16

/-! ### Folio payload (R66 to R69) -/

/-- Bytes 0x00 to 0x3B of a folio header (R67). -/
def headerBody (h : Header) : Bytes :=
  natLe 8 h.pfa.toNat ++ natLe 8 h.quire.toNat ++ natLe 4 h.gen ++ natLe 4 h.seed ++ natLe 1 h.leaf ++ natLe 1 h.slot ++
  natLe 1 h.row ++ natLe 1 h.kind ++ natLe 2 0x0100 ++ natLe 2 h.width ++ natLe 8 h.stitch.toNat ++ natLe 1 h.twin ++
  List.replicate 19 0

/-- The 64-byte folio header with its CRC-32C (R67). -/
def headerBytes (h : Header) : Bytes := headerBody h ++ natLe 4 (crc32c (headerBody h)).toNat

/-- The scrambler seed of R69. -/
def scrambleSeed (layer fn gen : Nat) : Nat :=
  let s := (Nat.xor (Nat.xor (layer * 2 ^ 27) fn) (gen * 2 ^ 7)) % 2 ^ 31
  if s = 0 then 1 else s

/-- One bit of the 31-bit register of R69: output and next register. -/
def lfsrBit (s : BitVec 31) : Bool × BitVec 31 :=
  let o := s.getLsbD 30 ^^ s.getLsbD 27
  (o, (s <<< 1) ||| (if o then 1 else 0))

/-- One byte of the register's output, most significant bit first. -/
def lfsrByte (s : BitVec 31) : Byte × BitVec 31 :=
  (List.range 8).foldl (fun p _ => let r := lfsrBit p.2; ((p.1 <<< 1) ||| (if r.1 then 1 else 0), r.2)) (0, s)

/-- XOR bytes with the register's output (R69). -/
def scrambleFrom (s : BitVec 31) : Bytes → Bytes
  | [] => []
  | b :: bs => let r := lfsrByte s; (b ^^^ r.1) :: scrambleFrom r.2 bs

/-- A payload with bytes 0x0040 on scrambled under a seed (R69). -/
def scramble (seed : Nat) (payload : Bytes) : Bytes :=
  payload.take 0x40 ++ scrambleFrom (BitVec.ofNat 31 seed) (payload.drop 0x40)

/-- A block as it stands in a folio: IV, tag, ciphertext, PI field (R66, R68). -/
structure FolioBlock where
  iv : Bytes := []
  tag : Bytes := []
  text : Bytes := []
  pi : Bytes := []
deriving DecidableEq, Repr

/-- Bytes cut or zero-filled to a length. -/
def fit (n : Nat) (bs : Bytes) : Bytes := (bs ++ List.replicate (n - bs.length) 0).take n

/-- Payload bytes 0x0040 to 0x827F of eight blocks (R66). -/
def folioBody (bs : List FolioBlock) : Bytes :=
  let b8 := (List.range 8).map (fun i => bs.getD i {})
  (b8.map (fun b => fit 12 b.iv ++ fit 16 b.tag)).flatten ++ List.replicate 224 0 ++
  (b8.map (fun b => fit 4096 b.text ++ fit 16 b.pi)).flatten

/-- The body of a pad folio: zero (R68). -/
def padBody : Bytes := List.replicate 33344 0

/-! ### Parity (R212, R213) -/

/-- Multiplication by α = 0x02 in GF(2⁸) with 0x11D. -/
def gfDouble (a : Byte) : Byte := if a.getLsbD 7 then (a <<< 1) ^^^ 0x1D#8 else a <<< 1
/-- Multiplication in GF(2⁸). -/
def gfMul (a b : Byte) : Byte :=
  ((List.range 8).foldl (fun (p : Byte × Byte) i => (if b.getLsbD i then p.1 ^^^ p.2 else p.1, gfDouble p.2)) (0, a)).1
/-- α to a power. -/
def gfPow : Nat → Byte
  | 0 => 1
  | n + 1 => gfDouble (gfPow n)
/-- Inverse in GF(2⁸): the 254th power. -/
def gfInv (a : Byte) : Byte := (List.range 253).foldl (fun p _ => gfMul p a) a

/-- Byte by byte XOR. -/
def xorBytes (a b : Bytes) : Bytes := List.zipWith (· ^^^ ·) a b
/-- Every byte multiplied by a constant. -/
def gfScale (c : Byte) (a : Bytes) : Bytes := a.map (gfMul c)

/-- P of the data bodies of a row, leaf 0 first (R212). -/
def parityP (ds : List Bytes) : Bytes := ds.foldl xorBytes padBody
/-- Q of the data bodies of a row (R212). -/
def parityQ (ds : List Bytes) : Bytes :=
  ((List.range ds.length).zip ds).foldl (fun q d => xorBytes q (gfScale (gfPow d.1) d.2)) padBody

/-- The bodies of a row from the known ones (R213): leaf index to body, with width w; none for a lost row. -/
def reconstruct (w : Nat) (known : Tbl Bytes) : Option (Tbl Bytes) :=
  let lost := (List.range w).filter (fun i => (look known i).isNone)
  let d (i : Nat) := (look known i).getD padBody
  let data := List.range (w - 2)
  let pxy := xorBytes ((look known (w - 2)).getD padBody) (parityP (data.map d))
  let qxy := xorBytes ((look known (w - 1)).getD padBody) (parityQ (data.map d))
  let full (t : Tbl Bytes) : Tbl Bytes :=
    let ds := data.map (fun i => (look t i).getD padBody)
    ins (ins t (w - 2) (parityP ds)) (w - 1) (parityQ ds)
  match lost with
  | [] => some known
  | [x] =>
    if x < w - 2 then some (full (ins known x pxy)) else some (full known)
  | [x, y] =>
    if w - 2 ≤ x then some (full known)
    else if y = w - 1 then some (full (ins known x pxy))
    else if y = w - 2 then some (full (ins known x (gfScale (gfInv (gfPow x)) qxy)))
    else
      let dx := gfScale (gfInv (gfPow x ^^^ gfPow y)) (xorBytes (gfScale (gfPow y) pxy) qxy)
      some (full (ins (ins known x dx) y (xorBytes pxy dx)))
  | _ => none

/-! ### Inner code and interleave (R70 to R72) -/

/-- Bits of bytes, most significant bit of the first byte first. -/
def byteBits (bs : Bytes) : List Bool := bs.flatMap (fun b => (List.range 8).map (fun i => b.getLsbD (7 - i)))

/-- Bit by bit XOR. -/
def xorBits (a b : List Bool) : List Bool := List.zipWith xor a b

/-- Circulant of block (i, j) of an information column, if the block is not zero (R70). -/
def ldpcShift (i j : Nat) : Option Nat :=
  if i ∈ [j % 9, (j + 2) % 9, (j + 5) % 9, (j + 7) % 9] then some ((i + 1) * (3 * j + 1) % 464) else none

/-- P_s times a column block: row r takes bit (r + s) mod 464. -/
def circulant (s : Nat) (u : List Bool) : List Bool := u.drop s ++ u.take s

/-- The sum λ_i of the information part of block row i (R71). -/
def ldpcLambda (info : List Bool) (i : Nat) : List Bool :=
  (List.range 72).foldl (fun acc j =>
    match ldpcShift i j with
    | some s => xorBits acc (circulant s ((info.drop (464 * j)).take 464))
    | none => acc) (List.replicate 464 false)

/-- The parity bits p_0 to p_8 (R71). -/
def ldpcParity (info : List Bool) : List Bool :=
  ((List.range 9).foldl (fun (p : List Bool × List Bool) i =>
    let g := if i = 0 then ldpcLambda info 0 else xorBits (ldpcLambda info i) p.2
    (p.1 ++ g, g)) ([], [])).1

/-- A codeword: information bits, then parity (R71). -/
def ldpcEncode (info : List Bool) : List Bool := info ++ ldpcParity info

/-- Codeword c of a scrambled payload (R71). -/
def codeword (payloadBits : List Bool) (c : Nat) : List Bool := ldpcEncode ((payloadBits.drop (33408 * c)).take 33408)

/-- The coded bits of segment g in emission order (R72): codeword index and bit index. -/
def segmentOrder (g : Nat) : List (Nat × Nat) :=
  (List.range 1175).flatMap (fun q => (List.range 8).filterMap (fun c =>
    let i := 32 * q + (g + 32 - (4 * c) % 32) % 32
    if i < 37584 then some (c, i) else none))

/-! ### Modulation and framing (R73 to R77) -/

/-- Bits of a number, most significant first. -/
def numBits (n v : Nat) : List Bool := (List.range n).map (fun i => v.testBit (n - 1 - i))

/-- Greedy modulation of bit pairs (R73); the last flag says whether the last word was the 000 of a substitution. -/
def modulatePairs : List (Bool × Bool) → List Bool × Bool
  | [] => ([], false)
  | [p] => (basic p, false)
  | p :: q :: rest =>
    if p.2 = false ∧ q.1 = false then
      let r := modulatePairs rest
      (subst p q ++ r.1, if rest = [] then true else r.2)
    else
      let r := modulatePairs (q :: rest)
      (basic p ++ r.1, r.2)
where
  /-- Basic words of R73. -/
  basic : Bool × Bool → List Bool
    | (false, false) => [true, false, true]
    | (false, true) => [true, false, false]
    | (true, false) => [false, false, true]
    | (true, true) => [false, true, false]
  /-- Substitutions of R73. -/
  subst : Bool × Bool → Bool × Bool → List Bool
    | (false, _), (_, false) => [true, false, false, false, false, false]
    | (false, _), (_, true) => [true, false, true, false, false, false]
    | (true, _), (_, false) => [false, true, false, false, false, false]
    | (true, _), (_, true) => [false, false, true, false, false, false]

/-- Consecutive pairs of bits. -/
def pairs : List Bool → List (Bool × Bool)
  | a :: b :: rest => (a, b) :: pairs rest
  | _ => []

/-- A segment's channel bits with termination (R73, R74). -/
def segmentBits (coded : List Bool) : List Bool :=
  let m := modulatePairs (pairs coded)
  m.1 ++ (if m.2 then [false, true, false, false] else [false, false, false, false])

/-- Preamble (R76). -/
def preambleBits : List Bool := (List.replicate 84 [true, false, false]).flatten ++ [true, false, false, false]
/-- Head mark (R76). -/
def headMarkBits : List Bool := numBits 64 0x800800A508A41448
/-- Catchword (R76). -/
def catchwordBits : List Bool := numBits 64 0x80040022A4282520
/-- Resync mark (R76). -/
def resyncBits : List Bool := numBits 32 0x80100250
/-- Postamble (R76). -/
def postambleBits : List Bool := (List.replicate 20 [true, false, false]).flatten ++ [true, false, false, false]

/-- Coded bits of every segment of a scrambled payload, in emission order (R71, R72). -/
def codedSegments (payload : Bytes) : List (List Bool) :=
  let pb := byteBits payload
  let cws := (List.range 8).map (codeword pb)
  (List.range 32).map (fun g => (segmentOrder g).map (fun p => (cws.getD p.1 []).getD p.2 false))

/-- The channel bits of a folio (R75). -/
def folioBits (payload : Bytes) : List Bool :=
  let segs := (codedSegments payload).map (fun s => resyncBits ++ segmentBits s)
  preambleBits ++ headMarkBits ++ (segs.take 4).flatten ++ catchwordBits ++ (segs.drop 4).flatten ++ postambleBits

/-! ### Edge codes (R116, R117, R119, R120) -/

/-- Class of a mark length. -/
def markClass (n : Nat) : Nat := min n 5 - 2
/-- Class of a space length. -/
def spaceClass (n : Nat) : Nat := min n 4 - 2

/-- D_LEAD of a mark length after a space, in T/32. -/
def Strategy.lead (s : Strategy) (n sp : Nat) : Int := (s.dLead.getD (markClass n) []).getD (spaceClass sp) 0
/-- D_TRAIL of a mark length before a space, in T/32. -/
def Strategy.trail (s : Strategy) (n sp : Nat) : Int := (s.dTrail.getD (markClass n) []).getD (spaceClass sp) 0

/-- The pulses of a mark of length n in T/32 from t0 (R116). -/
def pulses (s : Strategy) (n before after : Nat) : List (Int × Int) :=
  let l := s.lead n before
  let e := (32 * n : Nat) + s.trail n after
  let top : Int := s.tTop.getD (markClass n) 0
  let lp : Int := s.tLp.getD (markClass n) 0
  if n = 2 then [(l, e)]
  else if s.shape.getD (markClass n) false then [(l, l + top), (l + top, e - lp), (e - lp, e)]
  else [(l, l + top)] ++
    (List.range (n - 3)).map (fun k => let t : Int := (32 * (k + 2) + 16 : Nat); (t, t + s.tMp)) ++ [(e - lp, e)]

/-- Pulses that do not overlap and stand in order. -/
def pulsesOrdered : List (Int × Int) → Bool
  | [] => true
  | [p] => decide (p.1 ≤ p.2)
  | p :: q :: r => decide (p.1 ≤ p.2) && decide (p.2 ≤ q.1) && pulsesOrdered (q :: r)

/-- A strategy set that the G840 stores (R116): ordered pulses for every mark length 2 to 13 and any space classes. -/
def Strategy.ok (s : Strategy) : Bool :=
  (List.range 12).all (fun i => [2, 3, 4].all (fun a => [2, 3, 4].all (fun b => pulsesOrdered (pulses s (i + 2) a b))))

/-- A commanded level of R117: scaled by the zone trim in steps of 0.25 %, to the nearest with halves away from zero. -/
def trimmedLevel (level zoneTrim : Int) : Int := (2 * level * (400 + zoneTrim) + 400) / 800

/-- A level under the cap of the laser class code c: 64 × c units (R117). -/
def cappedLevel (c : Nat) (level : Int) : Nat := (min (max level 0) (64 * c : Nat)).toNat

/-- Transitions of a channel bit sequence from a position on. -/
def transitions (p : Nat) : List Bool → List Nat
  | [] => []
  | b :: bs => if b then p :: transitions (p + 1) bs else transitions (p + 1) bs

/-- A mark word of R119. -/
def markWord (s : Strategy) (n before after : Nat) : Word :=
  BitVec.ofNat 32 (n * 2 ^ 28 + after * 2 ^ 24 + (if s.shape.getD (markClass n) false then 2 ^ 23 else 0) +
    ux 6 (s.lead n before) * 2 ^ 17 + ux 6 (s.trail n after) * 2 ^ 11 + s.tTop.getD (markClass n) 0 % 64 * 2 ^ 5 +
    s.tLp.getD (markClass n) 0 % 32)

/-- Mark words of the marks that end at or before a last bit; t is the list of transitions, the run beginning at space. -/
def markWords (s : Strategy) (before last : Nat) : List Nat → List Word
  | a :: b :: c :: rest =>
    if b ≤ last then markWord s (b - a) before (min (c - b) 13) :: markWords s (c - b) last (c :: rest) else []
  | _ => []

/-- A start word (R119). -/
def startWord (stitch offset : Nat) : Word := BitVec.ofNat 32 (14 * 2 ^ 28 + stitch % 65536 * 2 ^ 12 + offset % 4096)

/-- A level set of three words (R119). -/
def levelSet (s : Strategy) (pw pm pc pb : Nat) : List Word :=
  [BitVec.ofNat 32 (2 ^ 28 + s.tCl % 64 * 2 ^ 10 + s.tMp % 32 * 2 ^ 5),
   BitVec.ofNat 32 (pw % 1024 * 2 ^ 20 + pm % 1024 * 2 ^ 10 + pc % 1024), BitVec.ofNat 32 (pb % 1024)]

/-- The edge-code stream of one lane of a run (R119, R120): the channel bits of its slots, the levels, the start instant. -/
def edgeStream (s : Strategy) (slots : List (List Bool)) (pw pm pc pb stitch offset : Nat) : List Word :=
  let bitsOf := slots.flatten
  let t := transitions 16 (bitsOf.drop 16)
  startWord stitch offset :: (levelSet s pw pm pc pb ++ markWords s 2 (452608 * slots.length - 17) t ++ [0])

end Sys2Proof.Machine
end

