-- ==== Sys2Proof/Machine/Cipher.lean ====
section
/-! DEFINITION. The Cipher Engine's per-block work (17_security.md R325 to R332): IV, AAD, ingest sequence, encryption,
decryption, lanes, key slots. -/

namespace Sys2Proof.Machine

/-- Key slot `n`. -/
def slotAt (s : State) (n : Nat) : KeySlot := getD s.kst.slots {} n
/-- The state with key slot `n` holding `k`. -/
def setSlot (s : State) (n : Nat) (k : KeySlot) : State :=
  { s with kst := { s.kst with
      slots := put s.kst.slots {} n k
      nor := s.kst.nor.map (fun r => if r.slot.val = n then { r with active := k.st == 2, nsid := BitVec.ofNat 6 k.nsid, write := k.write } else r) } }

/-- The 96-bit IV of a block (R325). -/
def ivBytes (seq slot twin : Nat) : Bytes := natLe 8 seq ++ natLe 2 (slot % 2048) ++ [BitVec.ofNat 8 twin, 1]
/-- Ingest sequence named by an IV. -/
def ivSeq (iv : Bytes) : Nat := field iv 0 8
/-- Key slot named by an IV. -/
def ivSlot (iv : Bytes) : Nat := field iv 8 2 % 2048

/-- A PI field padded to 16 bytes (R68). -/
def piField (pi : Bytes) : Bytes := fit 16 pi

/-- The 24-byte AAD of a host block (R325). -/
def aadHost (lba : Nat) (pi : Bytes) : Bytes := natLe 8 lba ++ piField pi
/-- The AAD of a directory block. -/
def aadDirectory : Bytes := List.replicate 8 0xFF ++ List.replicate 16 0

/-- Take `n` ingest sequences; entering a new range of 2^36 writes its end to the NOR sequence record first (R326). -/
def takeSeq (s : State) (n : Nat) : State × Nat :=
  let b := s.cph.seq
  let e := b + n
  let end_ := if e ≤ s.cph.seqEnd then s.cph.seqEnd else (e + 2 ^ 36 - 1) / 2 ^ 36 * 2 ^ 36
  ({ s with cph := { s.cph with seq := e, seqEnd := end_, norEnd := max s.cph.norEnd end_ } }, b)

/-- Encrypt a block under a slot (R325). -/
def encryptBlock (s : State) (seq slot twin : Nat) (aad data : Bytes) : EncBlock :=
  let iv := ivBytes seq slot twin
  let k := (slotAt s slot).key
  { text := Config.gcmText k iv aad (fit 4096 data), iv := iv, tag := Config.gcmTag k iv aad (fit 4096 data) }

/-- The blocks of a byte image, 4,096 bytes each. -/
def imageBlock (image : Bytes) (i : Nat) : Bytes := fit 4096 ((image.drop (4096 * i)).take 4096)

/-! ### Lanes (R331, R332) -/

/-- Lanes in service. -/
def lanesInService (s : State) : List Nat := (List.range 8).filter (fun n => !s.cph.retired.getLsbD n)

/-- Lanes that may encrypt: one less than those in service, and one fewer per throttle step 1 to 6, down to one (R332, R381).
The lowest-numbered lanes are taken (log entry 20). -/
def encryptLanes (s : State) : List Nat :=
  let l := lanesInService s
  let n := l.length - 1
  l.take (if n = 0 then 0 else max 1 (n - min s.pwr.throttle 6))

/-- Cipher work runs: the entropy source is healthy (R330) and a lane is left (R332). -/
def cipherRuns (s : State) : Bool := s.cph.drbg == 0 && !(lanesInService s).isEmpty

end Sys2Proof.Machine
end

