-- ==== Sys2Proof/Machine/Dram.lean ====
section
/-! DEFINITION. The protecting code, DRAM words, error injection, the Map Cache and the Folio Map (14_memory_and_vault.md R272, R273, R275
to R278, R280). -/

namespace Sys2Proof.Machine

/-! ### The protecting code (R273) -/

/-- Bits set in a number of seven bits. -/
def ones (v : Nat) : Nat := ((List.range 7).filter (fun i => v.testBit i)).length

/-- The columns h_i: the seven-bit values with exactly three bits set, ascending; the first 32 are those of the data bits. -/
def columns : List Nat := (List.range 128).filter (fun v => ones v == 3)

/-- XOR of the columns of the data bits that are set. -/
def checkBits (d : Nat) : Nat := ((List.range 32).filter (fun i => d.testBit i)).foldl (fun c i => c ^^^ columns.getD i 0) 0

/-- The 39-bit word of a data word: data in bits 31 to 0, check bits in 38 to 32. -/
def encodeWord (d : Nat) : Nat := d % 2 ^ 32 + checkBits d * 2 ^ 32

/-- Syndrome of a 39-bit word as read. -/
def syndrome (w : Nat) : Nat := w / 2 ^ 32 % 128 ^^^ checkBits (w % 2 ^ 32)

/-- What a syndrome decides. -/
inductive Decision where
  | clean | checkBit | dataBit (i : Nat) | uncorrectable
deriving DecidableEq, Repr

/-- The decision of the table of R273. -/
def decideSyndrome (s : Nat) : Decision :=
  if s = 0 then .clean
  else if ones s = 1 then .checkBit
  else if (columns.take 32).contains s then .dataBit (columns.idxOf s)
  else .uncorrectable

/-- The data that a 39-bit word as read delivers, if any. -/
def readWord (w : Nat) : Option Nat :=
  match decideSyndrome (syndrome w) with
  | .clean | .checkBit => some (w % 2 ^ 32)
  | .dataBit i => some (w % 2 ^ 32 ^^^ 2 ^ i)
  | .uncorrectable => none

/-! ### Writes to DRAM, injection (R275)

DRAM words are held as the difference from a correct encoding, by word number: a word that is not listed is correct. -/

/-- A write of `n` words from byte address `a`: correct words, the first under the flip mask while injection is armed for its line. -/
def dramWrite (s : State) (a n : Nat) : State :=
  let w := a / 4
  let d := s.mem.dram.filter (fun e => decide (e.1 < w) || decide (w + n ≤ e.1))
  let clear := if n = 16 ∧ a % 64 = 0 then s.mem.poisoned.filter (fun l => l ≠ a) else s.mem.poisoned
  if s.mem.injArmed ∧ a / 64 * 64 = reg s .memInjAddr then
    let left := s.mem.injLeft - 1
    { s with mem := { s.mem with dram := put d 0 w (BitVec.ofNat 39 (regBits s .memInjMask 0 38 0)), poisoned := clear
                                 injLeft := left, injArmed := left != 0 } }
  else { s with mem := { s.mem with dram := d, poisoned := clear } }

/-! ### The Map Cache (R276, R277) -/

/-- An access to a line: it moves to the front of its set, evicting the least recently used of the unlocked ways where none is free. -/
def cacheTouch (s : State) (line : Nat) : State :=
  let k := line / 64 % 8192
  let cur := getD s.mem.cache [] k
  let way := match cur.find? (fun e => e.2 == line) with
    | some e => e.1
    | none => ((List.range (16 - s.mem.lockWays)).find? (fun w => !cur.any (fun e => e.1 == w))).getD ((cur.getLast?.map (·.1)).getD 0)
  { s with mem := { s.mem with cache := put s.mem.cache [] k ((way, line) :: cur.filter (fun e => e.1 ≠ way)) } }

/-- Invalidate a whole set (R278). -/
def cacheDropSet (s : State) (k : Nat) : State := { s with mem := { s.mem with cache := del s.mem.cache k } }

/-! ### The Folio Map (R280) -/

/-- DRAM address of the entry of a granule: the map begins the control area, the control area begins DRAM (R272, R280). -/
def mapAddr (g : Nat) : Nat := 16 * g

/-- The Folio Map entry of a granule. -/
def mapAt (s : State) (g : Nat) : MapEntry := getD s.mem.map {} g

/-- Write the entry of a granule, through to DRAM (R276). -/
def setMap (s : State) (g : Nat) (e : MapEntry) : State := dramWrite { s with mem := { s.mem with map := put s.mem.map {} g e } } (mapAddr g) 4

/-- The 12 bytes of an entry that its CRC covers (R280). -/
def mapBody (e : MapEntry) : Bytes := natLe 8 e.quire ++ [BitVec.ofNat 8 (16 * e.st + e.leaf), BitVec.ofNat 8 e.row] ++ natLe 2 e.lost.toNat

/-- The 16 bytes of an entry as DRAM holds them. -/
def mapBytes (e : MapEntry) : Bytes := mapBody e ++ natLe 4 (crc32c (mapBody e)).toNat

end Sys2Proof.Machine
end

