-- ==== Sys2Proof/Machine/Channel.lean ====
section
/-! DEFINITION. What a channel cell, a combiner, a framer, the demodulator and a decoder compute (05_read_channel.md R85 to R98, R100 to R102):
functions of lists, over which the commands of the Read Channel Pool and the verdicts of the Write Channel are written. -/

namespace Sys2Proof.Machine

/-! ### One channel bit in a cell (R85 to R88, R98) -/

/-- Settings of a cell's run, latched at its start (R112): loop gains, thresholds, targets, the step shift of the equaliser. -/
structure ChanCfg where
  kpAcq : Nat := 3
  kpTrk : Nat := 6
  kiAcq : Nat := 8
  kiTrk : Nat := 14
  lockTh : Nat := 26
  lossTh : Nat := 64
  targetPp : Nat := 160
  minLen : Nat := 16
  ratio : Nat := 32
  hmErr : Nat := 4
  mu : Nat := 11
  freeze : Bool := false
  retrain : Bool := false
  h : List Int := []
deriving DecidableEq, Repr

/-- The unit of the sampling phase: 2^−24 of a channel bit. -/
def bitTime : Int := 2 ^ 24

/-- First channel bit of segment `g` of a folio, after its resync (R75). -/
def segmentFirst (g : Nat) : Nat := 352 + 14130 * g + (if 4 ≤ g then 64 else 0)

/-- A channel bit opens a segment. -/
def opensSegment (b : Nat) : Bool := (List.range 32).any (fun g => segmentFirst g == b)

/-- NRZ level as a number. -/
def nrz (a : Bool) : Int := if a then 1 else -1

/-- Output of a partial-response target for levels, newest first (R89). -/
def targetOut (h : List Int) (levels : List Bool) : Int := (List.zipWith (fun c a => c * nrz a) h levels).sum

/-- Peak-to-peak amplitude of a window. -/
def peakToPeak : List Int → Nat
  | [] => 0
  | x :: xs => (xs.foldl max x - xs.foldl min x).toNat

/-- Filter output: taps Q2.8 over the inputs, newest first (R86). -/
def firOut (taps hist : List Int) : Int := (List.zipWith (· * ·) taps hist).sum / 256

/-- LMS step of one tap: 2^−μ × e × x in tap LSBs, fractions kept to 2^−16, the tap held to signed 10 bits (R86; units: DEDUCED, log
entry 185). -/
def lmsTap (mu : Nat) (e x tap frac : Int) : Int × Int :=
  let a := max (-512 * 65536) (min (511 * 65536 + 65535) (65536 * tap + frac + e * x * 2 ^ 16 / 2 ^ mu))
  (a / 65536, a % 65536)

/-- Every tap after an LMS step. -/
def lmsStep (mu : Nat) (e : Int) (c : Chan) (hist : List Int) : List Int × List Int :=
  let r := (List.range 15).map (fun k => lmsTap mu e (hist.getD k 0) (c.taps.getD k 0) (c.frac.getD k 0))
  (r.map (·.1), r.map (·.2))

/-- The transitions of levels, newest first, as channel bits, oldest first (R77). -/
def transitionsOf (levels : List Bool) : List Bool := (List.zipWith (· != ·) levels (levels.drop 1)).reverse

/-- Places where two bit sequences differ. -/
def mismatches (a b : List Bool) : Nat := ((List.zipWith (· != ·) a b).filter id).length

/-- The cell's own head-mark correlator fires: the last 64 channel bits are the head mark within HM_ERR (R87; threshold: DESIGN CHOICE, log
entry 186). -/
def headFires (hmErr : Nat) (levels : List Bool) : Bool :=
  decide (65 ≤ levels.length) && decide (mismatches (transitionsOf (levels.take 65)) headMarkBits ≤ hmErr)

/-- Mean absolute phase error of the latest `n` bits lies below a threshold. -/
def errBelow (n th : Nat) (es : List Nat) : Bool := decide (n ≤ es.length) && decide ((es.take n).sum < n * th)
/-- Mean absolute phase error of the latest `n` bits lies above a threshold. -/
def errAbove (n th : Nat) (es : List Nat) : Bool := decide (n ≤ es.length) && decide (n * th < (es.take n).sum)

/-- The envelope of R98 after an input: the window, the run of low bits, the reference taken over the segment before. -/
def envelope (g : ChanCfg) (c : Chan) (v : Int) : Chan :=
  let win := v :: c.win.take 31
  let a := peakToPeak win
  let c := if opensSegment c.cur.n then { c with refSum := c.segSum, refN := c.segN, segSum := 0, segN := 0 } else c
  let low := if c.refN ≠ 0 ∧ 64 * a * c.refN < g.ratio * c.refSum then c.low + 1 else 0
  let l := c.cur
  let drops := if low = g.minLen ∧ low ≠ 0 then (l.n + 1 - low, l.n + 1) :: l.drops
    else if g.minLen < low then (match l.drops with | (a, _) :: ds => (a, l.n + 1) :: ds | [] => [(l.n + 1 - low, l.n + 1)])
    else l.drops
  { c with win := win, low := low, segSum := c.segSum + a, segN := c.segN + 1, cur := { l with drops := drops } }

/-- The digital gain brings the preamble to TARGET_PP, 0.25 to 4.0 in Q2.10; it holds from the head mark on (R85). -/
def preambleGain (g : ChanCfg) (c : Chan) (v : Int) : Chan :=
  if 256 ≤ c.cur.n then c
  else
    let x := match c.cur.ext with | some (a, b) => (min a v, max b v) | none => (v, v)
    let pp := (x.2 - x.1).toNat
    { c with cur := { c.cur with ext := some x }, dgain := if pp = 0 then c.dgain else max 256 (min 4096 (1024 * g.targetPp / pp)) }

/-- Gains of the timing loop in a state, phase and frequency shifts; the frequency is held in flywheel (R87). -/
def loopGains (g : ChanCfg) (st : Nat) : Nat × Option Nat :=
  if st = 1 then (g.kpAcq, some g.kiAcq) else if st = 2 then (g.kpTrk, some g.kiTrk) else (g.kpAcq, none)

/-- The timing loop after a phase error in 1/256 of a bit: next strobe, frequency within ±2 % (R87). -/
def timingStep (g : ChanCfg) (c : Chan) (err : Int) : Chan :=
  let k := loopGains g c.st
  let f := match k.2 with
    | some ki => max (-335544) (min 335544 (c.freq + err * 2 ^ 16 / 2 ^ ki))
    | none => c.freq
  { c with freq := f, pos := c.pos + bitTime + f + err * 2 ^ 16 / 2 ^ k.1, errs := err.natAbs :: c.errs.take 255 }

/-- The state after a channel bit: lock is declared while acquiring, before bit 240; tracking begins where the head-mark correlator fires, or
at bit 352 (R87). -/
def timingState (g : ChanCfg) (c : Chan) (b : Nat) : Chan :=
  if c.st ≠ 1 then c
  else
    let l := c.cur
    let l := if l.lockAt.isNone && decide (b < 240) && errBelow 64 g.lockTh c.errs then { l with lockAt := some b } else l
    { c with cur := l, st := if l.lockAt.isSome && (headFires g.hmErr c.dec || decide (352 ≤ b + 1)) then 2 else 1 }

/-- One channel bit: gain, baseline, filter, tentative decision, adaptation, timing, envelope (R85 to R88, R98). A slot without lock by bit
240 is not detected further (R87). -/
def bitStep (g : ChanCfg) (c : Chan) (v : Int) : Chan :=
  let b := c.cur.n
  if 240 ≤ b ∧ c.cur.lockAt = none then { c with cur := { c.cur with n := b + 1 }, pos := c.pos + bitTime + c.freq }
  else
    let c := envelope g (preambleGain g c v) v
    let x := (c.dgain : Int) * v / 1024 - c.base / 256
    let hist := x :: c.hist.take 14
    let y := firOut c.taps hist
    let ys := y :: c.ys.take 7
    let dec := Config.tentative ys c.dec :: c.dec.take 64
    let e := targetOut g.h dec - y
    let frozen := g.freeze || (c.st == 1 && !g.retrain) || decide (g.minLen ≤ c.low)
    let t := if frozen then (c.taps, c.frac) else lmsStep g.mu e c hist
    let err := if c.st = 1 then Config.phaseKnown b ys else Config.phaseDecided ys dec
    let c := { c with
      hist := hist, ys := ys, dec := dec, base := c.base - e, taps := t.1, frac := t.2
      cur := { c.cur with n := b + 1, vals := y :: c.cur.vals } }
    timingState g (timingStep g c err) b

/-- A channel bit of an absent span: it carries no evidence and counts as dropped (R98, R111). -/
def gapStep (c : Chan) : Chan :=
  let l := c.cur
  let drops := match l.drops with
    | (a, e) :: ds => if e = l.n then (a, l.n + 1) :: ds else (l.n, l.n + 1) :: l.drops
    | [] => [(l.n, l.n + 1)]
  { c with cur := { l with n := l.n + 1, vals := 0 :: l.vals, drops := drops }, pos := c.pos + bitTime + c.freq }

/-- A strobe of the interpolator, where one falls before the newest sample (R87). -/
def strobe (g : ChanCfg) (gap : Bool) (c : Chan) : Chan :=
  if c.pos < 0 then (if gap then gapStep c else bitStep g c (Config.interpolate c.raw (c.pos + bitTime))) else c

/-- A cell begins a folio at its channel bit 0: acquiring (R87). -/
def startFolio (c : Chan) (stitch bit : Nat) : Chan :=
  { c with past := ({ c.cur with taps := c.taps } :: c.past).take 4, cur := { started := true, stitch := stitch, bit := bit }, st := 1, pos := 0, errs := [], low := 0 }

/-- One sample, or an absent one. -/
def sampleStep (g : ChanCfg) (c : Chan) (x : Option Int) : Chan :=
  if !c.cur.started then c
  else
    let c := { c with raw := x.getD 0 :: c.raw.take 7, pos := c.pos - bitTime }
    strobe g x.isNone (strobe g x.isNone c)

/-- Channel bits of an address unit (R59). -/
def unitBits : Nat := 452608

/-- A run of samples from index `i` on, counted from the edge of a stitch numbered in 16 bits; `unit` is where an address unit begins on the same
count: each one that follows opens a folio (R59, R87). -/
def samplesFrom (g : ChanCfg) (n : Nat) (unit : Option Nat) : Nat → List (Option Int) → Chan → Chan
  | _, [], c => c
  | i, x :: xs, c =>
    let opens := unit.any (fun u => decide (u ≤ i) && (i - u) % unitBits == 0)
    let c := if opens then startFolio c (i / n) (i % n) else c
    samplesFrom g n unit (i + 1) xs (sampleStep g c x)

/-- A packet of a spot: samples that do not follow the last ones leave an absent span between them; after a span as long as a folio the cell
waits for the next channel bit 0; a packet of a span already passed is too late (R111, R314). Samples are unsigned about 128 (DESIGN CHOICE, log
entry 187). -/
def packetStep (g : ChanCfg) (n : Nat) (unit : Option Nat) (c : Chan) (first : Nat) (samples : Bytes) : Chan :=
  let all := 65536 * n
  let gap := match c.nextAt with | some e => (first + all - e) % all | none => 0
  if all < 2 * gap then c
  else
    let fill := if unitBits ≤ gap then 0 else gap
    let c := if unitBits ≤ gap then { c with cur := {}, past := [] } else c
    let from_ := first + all - fill
    let u := unit.map (fun v => if v ≤ first then all + v else v)
    let c := if c.st = 0 then c
      else samplesFrom g n u from_ (List.replicate fill none ++ samples.map (fun b => some ((b.toNat : Int) - 128))) c
    { c with nextAt := some ((first + samples.length) % all) }

/-- The look at the folio that ends: the one under way where it has reached its postamble, else the one before. -/
def Chan.look (c : Chan) : Look := if 452544 ≤ c.cur.n then c.cur else c.past.headD {}

/-! ### The detector (R89) -/

/-- The smaller of two metrics. -/
def minMetric : Option Nat → Option Nat → Option Nat
  | some a, some b => some (min a b)
  | some a, none => some a
  | none, b => b

/-- Level `i` back of a detector state: bit 0 is the level before. -/
def stateLevel (p i : Nat) : Bool := p.testBit i

/-- A branch that gives no two adjacent transitions. -/
def branchOk (p : Nat) (a : Bool) : Bool := !(a != stateLevel p 0 && stateLevel p 0 != stateLevel p 1)

/-- A state that holds no two adjacent transitions. -/
def stateOk (p : Nat) : Bool := branchOk (p / 2) (stateLevel p 0) && branchOk (p / 4) (stateLevel p 1)

/-- Output of a branch. -/
def branchOut (h : List Int) (p : Nat) (a : Bool) : Int := targetOut h [a, stateLevel p 0, stateLevel p 1, stateLevel p 2, stateLevel p 3]

/-- Squared distance of a branch from an equaliser output. -/
def branchCost (h : List Int) (y : Int) (p : Nat) (a : Bool) : Nat := ((y - branchOut h p a) ^ 2).toNat

/-- State after a branch. -/
def nextState (p : Nat) (a : Bool) : Nat := (2 * p + (if a then 1 else 0)) % 16

/-- The branches of the trellis. -/
def branches : List (Nat × Bool) :=
  ((List.range 16).flatMap (fun p => [(p, false), (p, true)])).filter (fun e => stateOk e.1 && branchOk e.1 e.2)

/-- A metric plus a cost. -/
def plusCost (m : Option Nat) (c : Nat) : Option Nat := m.map (· + c)

/-- Metrics of the states before the first bit, and after the last. -/
def freeMetrics : List (Option Nat) := (List.range 16).map (fun p => if stateOk p then some 0 else none)

/-- Metrics of the states after one more output. -/
def stepForward (h : List Int) (m : List (Option Nat)) (y : Int) : List (Option Nat) :=
  (List.range 16).map (fun q => branches.foldl (fun b e =>
    if nextState e.1 e.2 = q then minMetric b (plusCost (m.getD e.1 none) (branchCost h y e.1 e.2)) else b) none)

/-- Metrics of the states before an output, from those after it. -/
def stepBackward (h : List Int) (y : Int) (m : List (Option Nat)) : List (Option Nat) :=
  (List.range 16).map (fun p => branches.foldl (fun b e =>
    if e.1 = p then minMetric b (plusCost (m.getD (nextState e.1 e.2) none) (branchCost h y e.1 e.2)) else b) none)

/-- Metrics before each output, forwards. -/
def forwardMetrics (h : List Int) : List (Option Nat) → List Int → List (List (Option Nat))
  | _, [] => []
  | m, y :: ys => m :: forwardMetrics h (stepForward h m y) ys

/-- Metrics after each output, backwards, with those before the first in front. -/
def backwardMetrics (h : List Int) : List Int → List (List (Option Nat))
  | [] => [freeMetrics]
  | y :: ys =>
    let r := backwardMetrics h ys
    stepBackward h y (r.headD freeMetrics) :: r

/-- Metrics of the best path with channel bit 0 and with channel bit 1 at one place. -/
def bitMetrics (h : List Int) (y : Int) (f b : List (Option Nat)) : Option Nat × Option Nat :=
  branches.foldl (fun r e =>
    let m := match f.getD e.1 none, b.getD (nextState e.1 e.2) none with
      | some x, some z => some (x + branchCost h y e.1 e.2 + z)
      | _, _ => none
    if e.2 != stateLevel e.1 0 then (r.1, minMetric r.2 m) else (minMetric r.1 m, r.2)) (none, none)

/-- The detector over a stream of equaliser outputs: the two metrics of every channel bit. -/
def detect (h : List Int) (ys : List Int) : List (Option Nat × Option Nat) :=
  List.zipWith (fun y m => bitMetrics h y m.1 m.2) ys
    (List.zip (forwardMetrics h freeMetrics ys) ((backwardMetrics h ys).drop 1))

/-- A pair of paths one bit longer: squared distance of their outputs. -/
def pairCost (h : List Int) (p q : Nat × Bool) : Nat := ((branchOut h p.1 p.2 - branchOut h q.1 q.2) ^ 2).toNat

/-- Distances of pairs of paths that have parted and not met again, one bit later. -/
def partedStep (h : List Int) (m : Tbl Nat) : Tbl Nat :=
  branches.foldl (fun t p => branches.foldl (fun t q =>
    let from_ := if p.1 = q.1 then (if p.2 = q.2 then none else some 0) else look m (16 * p.1 + q.1)
    match from_ with
    | some d =>
      let k := 16 * nextState p.1 p.2 + nextState q.1 q.2
      let v := d + pairCost h p q
      ins t k (match look t k with | some w => min v w | none => v)
    | none => t) t) m

/-- Distances after `n` bits. -/
def partedAfter (h : List Int) : Nat → Tbl Nat
  | 0 => []
  | n + 1 => partedStep h (partedAfter h n)

/-- D: the minimum squared distance between target outputs of two valid paths that differ (R89): the least at which two paths that
parted have met again; 256 bits reach every pair of states. -/
def minDistance (h : List Int) : Nat :=
  ((List.range 16).foldl (fun b p => minMetric b (look (partedAfter h 256) (17 * p))) none).getD 0

/-- Difference of the metrics of a channel bit, clipped to D (R90). -/
def clippedDelta (d : Nat) : Option Nat × Option Nat → Nat
  | (some a, some b) => min d ((a - b) + (b - a))
  | _ => d

/-- The 6-bit likelihood of a channel bit: its sign by the nearer path, positive for 0, its size from −31 to 31 by a scale that the spec does
not print (log entry 188). -/
def likelihood (d : Nat) : Option Nat × Option Nat → Int
  | (some a, some b) => if a ≤ b then (min 31 (Config.likelihoodSize d (b - a)) : Nat) else -((min 31 (Config.likelihoodSize d (a - b)) : Nat) : Int)
  | (none, some _) => -31
  | _ => 31

/-- What a detector gives of a look: likelihoods and clipped differences of its channel bits. -/
structure Soft where
  lik : List Int := []
  delta : List Nat := []
deriving DecidableEq, Repr

/-- Detect a look with a target. -/
def softOf (h : List Int) (l : Look) : Soft :=
  let m := detect h l.vals.reverse
  let d := minDistance h
  { lik := m.map (likelihood d), delta := m.map (clippedDelta d) }

/-! ### Sequence Margin (R90) -/

/-- `100 × (μ − 3σ) / D` is at least `k` less a half: n values with sum `s` and sum of squares `q`. -/
def marginAtLeast (d n s q : Nat) (k : Int) : Bool :=
  let rhs : Int := 200 * s - (2 * k - 1) * (n * d : Nat)
  decide (0 ≤ rhs) && decide (360000 * ((n * q : Nat) - (s * s : Nat) : Int) ≤ rhs ^ 2)

/-- The Sequence Margin of a span of differences, to the nearest per cent, −100 to 100; over no bits the spec states none. -/
def sqmOf (d : Nat) (ds : List Nat) : Int :=
  if ds = [] ∨ d = 0 then Config.marginOfNothing d
  else
    let s := ds.sum
    let q := (ds.map (fun x => x * x)).sum
    ((List.range 201).findSome? (fun i => let k : Int := 100 - (i : Int); if marginAtLeast d ds.length s q k then some k else none)).getD (-100)

/-! ### Streams and marks -/

/-- `n` items from a position on; positions outside the stream hold `z`. -/
def slice {α : Type} (z : α) (xs : List α) (start : Int) (n : Nat) : List α :=
  let lead := min n (-start).toNat
  let body := (xs.drop start.toNat).take (n - lead)
  let out := List.replicate lead z ++ body
  out ++ List.replicate (n - out.length) z

/-- Hard decisions of likelihoods: 1 where the likelihood is negative. -/
def hard (xs : List Int) : List Bool := xs.map (fun x => decide (x < 0))

/-- Offsets of a search window, nearest first. -/
def window (w : Nat) : List Int := 0 :: (List.range w).flatMap (fun k => [-(k + 1 : Int), (k + 1 : Int)])

/-- The best match of a pattern within a window about a position, within a limit of mismatches; of equal ones the nearest, then the earlier (DESIGN
CHOICE, log entry 189). -/
def bestMark (pat : List Bool) (xs : List Int) (at_ : Int) (w errs : Nat) : Option MarkHit :=
  let score (o : Int) : Nat := mismatches pat (hard (slice 1 xs (at_ + o) pat.length))
  let best := (window w).foldl (fun (b : Int × Nat) o => if score o < b.2 then (o, score o) else b) (0, score 0)
  if best.2 ≤ errs then some { off := best.1, errs := best.2 } else none

/-- A position lies in one of the spans. -/
def inSpans (xs : List (Nat × Nat)) (i : Nat) : Bool := xs.any (fun e => decide (e.1 ≤ i) && decide (i < e.2))

/-- A span touches the `n` bits from a position on. -/
def touches (start : Int) (n : Nat) (e : Nat × Nat) : Bool := decide ((e.1 : Int) < start + n) && decide (start < (e.2 : Int))

/-- Spans moved by an offset. -/
def movedSpans (xs : List (Nat × Nat)) (d : Int) : List (Nat × Nat) := xs.map (fun e => (((e.1 : Int) + d).toNat, ((e.2 : Int) + d).toNat))

/-- The overlaps of two lists of spans. -/
def bothSpans (xs ys : List (Nat × Nat)) : List (Nat × Nat) :=
  (xs.flatMap (fun a => ys.map (fun b => (max a.1 b.1, min a.2 b.2)))).filter (fun e => decide (e.1 < e.2))

/-! ### Alignment and weights (R93, R94) -/

/-- Agreements of hard decisions over the 512 bits from `w0` of the trail stream, the lead delayed by a number of bits; both streams
count from their own channel bit 0, the trail's 400 later (R93). -/
def agreement (lead trail : List Int) (w0 : Int) (dc : Nat) : Nat :=
  512 - mismatches (hard (slice 1 trail w0 512)) (hard (slice 1 lead (w0 + 400 - dc) 512))

/-- Delay of the best agreement of the two looks, if it reaches 448 of 512: the smallest such delay (R93). -/
def alignDelay (agree : List (Nat × Nat)) : Option Nat :=
  let c := agree.filter (fun a => decide (368 ≤ a.1) && decide (a.1 ≤ 432))
  match c.foldl (fun (b : Option (Nat × Nat)) a => match b with
    | some x => if x.2 < a.2 ∨ (x.2 = a.2 ∧ a.1 < x.1) then some a else b
    | none => some a) none with
  | some (d, n) => if 448 ≤ n then some d else none
  | none => none

/-- Lead weight of R94 from the previous segment's margins: rounded to the nearest, halves up. -/
def leadWeight (lead trail : Int) : Nat :=
  let l := (max lead 0).toNat
  let t := (max trail 0).toNat
  if l + t = 0 then 8 else (32 * l + (l + t)) / (2 * (l + t))

/-- A combined likelihood (R94). -/
def combine (a b : Nat) (lLead lTrail : Int) : Int := max (-31) (min 31 (Int.tdiv (a * lLead + b * lTrail) 8))

/-- The combined stream at a lead weight; where only one spot has dropped the other carries the whole weight (R94). -/
def mixStreams (lead trail : List Int) (dropL dropT : List (Nat × Nat)) (a : Nat) : List Int :=
  List.zipWith (fun (i : Nat) (p : Int × Int) =>
    let l := inSpans dropL i
    let t := inSpans dropT i
    let a := if l && !t then 0 else if t && !l then 16 else a
    combine a (16 - a) p.1 p.2) (List.range trail.length) (List.zip lead trail)

/-! ### Framing (R95 to R97) -/

/-- A framed segment: its first bit, the resync before it, the lead weight in force. -/
structure Seg where
  start : Int := 0
  hit : Option MarkHit := none
  a : Nat := 8
deriving DecidableEq, Repr

/-- Where framing stands between segments: the slips so far, the weight, the segment before. -/
structure Framer where
  off : Int := 0
  a : Nat := 8
  segs : List Seg := []
deriving DecidableEq, Repr

/-- One resync and its segment: the resync within ±4 of where it is expected moves all that follow; each one found updates the weights by the
margins of the segment before (R94, R96). -/
def frameSegment (rsErr : Nat) (mix : Nat → List Int) (margin : Option (Int → Int × Int)) (x : Framer) (nominal : Int) : Framer :=
  let e := nominal + x.off
  let hit := bestMark resyncBits (mix x.a) e 4 rsErr
  let d := match hit with | some m => m.off | none => 0
  let a := match margin, hit, x.segs.getLast? with
    | some f, some _, some p => leadWeight (f p.start).1 (f p.start).2
    | _, _, _ => x.a
  { off := x.off + d, a := a, segs := x.segs ++ [{ start := e + d + 32, hit := hit, a := a }] }

/-- Resyncs at a list of places. -/
def frameSegments (rsErr : Nat) (mix : Nat → List Int) (margin : Option (Int → Int × Int)) (x : Framer) (places : List Int) : Framer :=
  places.foldl (frameSegment rsErr mix margin) x

/-- Resync found at offset 0. -/
def inPlace (m : Option MarkHit) : Bool := match m with | some h => h.off == 0 | none => false
/-- Resync found at an offset. -/
def slipped (m : Option MarkHit) : Bool := match m with | some h => h.off != 0 | none => false

/-- The frame buffer (R95): the 57,344 likelihoods from bit 224 on, as they were combined. -/
def frameBuffer (mix : Nat → List Int) (a0 : Nat) (first : List Seg) : List Int :=
  let parts := (a0, (224 : Int)) :: first.map (fun g => (g.a, g.start))
  let ends := (parts.drop 1).map (·.2) ++ [(57568 : Int)]
  ((List.zip parts ends).flatMap (fun p => slice 0 (mix p.1.1) p.1.2 (p.2 - p.1.2).toNat)).take 57344

/-- What framing a stream ends in: whether the folio is decoded, the events of the report (bits 0 head mark missed, 1 head mark false, 2 catchword
missing, 3 disagreement), the 32 segments with their likelihoods, the frame buffer, whether segments 0 to 3 are flagged. -/
structure Framed where
  decode : Bool
  events : Nat
  segs : List Seg := []
  lik : List (List Int) := []
  buffer : List Int := []
  first4 : Bool := false
deriving DecidableEq, Repr

/-- Places of resyncs 0 to 3 of a folio whose head mark stands at `h`. -/
def firstPlaces (h : Int) : List Int := (List.range 4).map (fun g => h + 64 + 14130 * (g : Int))
/-- Places of resyncs 4 to 31, the first expected at `p`. -/
def laterPlaces (p : Int) : List Int := (List.range 28).map (fun g => p + 14130 * (g : Int))

/-- Likelihoods of a segment. -/
def segLik (mix : Nat → List Int) (g : Seg) : List Int := slice 0 (mix g.a) g.start 14098

/-- Frame a stream (R95 to R97): `mix` is the stream at a lead weight, `a0` the weight at its start, `margin` the margins of the two spots over
a segment. -/
def frameStream (hmErr cwErr rsErr : Nat) (mix : Nat → List Int) (a0 : Nat) (margin : Option (Int → Int × Int)) : Framed :=
  let head := bestMark headMarkBits (mix a0) 256 32 hmErr
  let h : Int := match head with | some m => 256 + m.off | none => 256
  let first := if head.isSome then frameSegments rsErr mix margin { a := a0 } (firstPlaces h) else { a := a0 }
  let pred : Int := h + 56584
  let cw := bestMark catchwordBits (mix first.a) pred 64 cwErr
  let buf := frameBuffer mix a0 first.segs
  let hits := first.segs.map (·.hit)
  let suspect := !inPlace (hits.getD 0 none) && !inPlace (hits.getD 1 none)
  let stands : Framer := frameSegments rsErr mix margin first (laterPlaces (h + 56648))
  let keep (events : Nat) (decode : Bool) : Framed :=
    { decode := decode, events := events, segs := stands.segs, lik := stands.segs.map (segLik mix), buffer := buf }
  let rebase (c : Int) (events : Nat) (zero flag : Bool) : Framed :=
    let h' := c - 56584
    let cut (i : Nat) (x : Int) : Int := let p : Int := 224 + (i : Int); if zero && decide (min h h' ≤ p) && decide (p < max h h') then 0 else x
    let stream := List.replicate 224 0 ++ List.zipWith cut (List.range buf.length) buf
    let again := frameSegments rsErr (fun _ => stream) none { a := first.a } (firstPlaces h')
    let rest := frameSegments rsErr mix margin { again with off := 0 } (laterPlaces (c + 64))
    { decode := true, events := events, segs := rest.segs, buffer := stream.drop 224, first4 := flag
      lik := again.segs.map (segLik (fun _ => stream)) ++ (rest.segs.drop 4).map (segLik mix) }
  match head, cw with
  | some _, some m =>
    if m.off = 0 then keep 0 true
    else if m.off.natAbs ≤ 24 then rebase (pred + m.off) 2 true false
    else keep 8 false
  | some _, none => keep 4 (!suspect)
  | none, some m => rebase (pred + m.off) 1 false true
  | none, none => { decode := false, events := 5, buffer := buf }

/-- Erasure pointer of segment `g` from the resyncs (R96). -/
def resyncPointer (rs : List (Option MarkHit)) (g : Nat) : Bool :=
  let a := rs.getD g none
  let b := rs.getD (g + 1) none
  if g = 31 then a.isNone else slipped b || (a.isNone && b.isNone)

/-! ### Demodulation and deinterleaving (R73, R100, R101) -/

/-- Likelihoods of a flagged segment: zero where at most 3 are flagged, else a quarter, towards zero (R100). -/
def eraseLik (flagged : Nat) (xs : List Int) : List Int := if flagged ≤ 3 then xs.map (fun _ => 0) else xs.map (fun x => Int.tdiv x 4)

/-- Score of a channel word against its likelihoods. -/
def wordScore (w : List Bool) (xs : List Int) : Int := (List.zipWith (fun b x => if b then -x else x) w xs).sum

/-- The best of some scores. -/
def bestScore (xs : List Int) : Option Int := xs.foldl (fun b x => match b with | some y => some (max x y) | none => some x) none

/-- A saturated likelihood from the best scores of a bit's two values. -/
def scoreGap (zero one : Option Int) : Int :=
  match zero, one with
  | some a, some b => max (-31) (min 31 (a - b))
  | some _, none => 31
  | none, _ => -31

/-- The four bit pairs of R73. -/
def bitPairs : List (Bool × Bool) := [(false, false), (false, true), (true, false), (true, true)]
/-- The pairs that a substitution replaces. -/
def substPairs : List ((Bool × Bool) × (Bool × Bool)) :=
  [((false, false), (false, false)), ((false, false), (false, true)), ((true, false), (false, false)), ((true, false), (false, true))]

/-- The likelihood of a bit over scored hypotheses. -/
def hypGap {α : Type} (hs : List (α × Int)) (bit : α → Bool) : Int :=
  scoreGap (bestScore ((hs.filter (fun e => !bit e.1)).map (·.2))) (bestScore ((hs.filter (fun e => bit e.1)).map (·.2)))

/-- Max-log demodulation of channel words with one word of look-ahead: a word is a basic word followed by one that is not 000, or the first of a
substitution followed by 000 (R73, R101). -/
def demodulate : List (List Int) → List Int
  | [] => []
  | [w] =>
    let hs := bitPairs.map (fun p => (p, wordScore (modulatePairs.basic p) w))
    [hypGap hs (·.1), hypGap hs (·.2)]
  | w :: v :: rest =>
    let next := (bestScore (bitPairs.map (fun q => wordScore (modulatePairs.basic q) v))).getD 0
    let as := bitPairs.map (fun p => (p, wordScore (modulatePairs.basic p) w + next))
    let bs := substPairs.map (fun p => (p, wordScore (modulatePairs.subst p.1 p.2) (w ++ v)))
    let hs := as ++ bs.map (fun e => (e.1.1, e.2))
    let here := [hypGap hs (·.1), hypGap hs (·.2)]
    if (bestScore (as.map (·.2))).getD 0 < (bestScore (bs.map (·.2))).getD 0 then
      here ++ [hypGap bs (·.2.1), hypGap bs (·.2.2)] ++ demodulate rest
    else here ++ demodulate (v :: rest)

/-- The words of a segment's channel bits, its 4 termination bits ignored. -/
def segmentWords {α : Type} (xs : List α) : List (List α) := (List.range 4698).map (fun i => (xs.drop (3 * i)).take 3)

/-- Inverse of R73 on hard decisions: words and the 000 after them give the written pairs; a word that is none counts as 11 (log entry 190). -/
def demodulateHard : List (List Bool) → List Bool
  | [] => []
  | [w] => pairBits (basicOf w)
  | w :: v :: rest =>
    if v = [false, false, false] then
      match substPairs.find? (fun p => modulatePairs.subst p.1 p.2 == w ++ v) with
      | some p => pairBits p.1 ++ pairBits p.2 ++ demodulateHard rest
      | none => pairBits (basicOf w) ++ demodulateHard (v :: rest)
    else pairBits (basicOf w) ++ demodulateHard (v :: rest)
where
  /-- The pair of a basic word. -/
  basicOf (w : List Bool) : Bool × Bool := (bitPairs.find? (fun p => modulatePairs.basic p == w)).getD (true, true)
  /-- A pair's bits in order. -/
  pairBits (p : Bool × Bool) : List Bool := [p.1, p.2]

/-- The coded-bit likelihoods of a segment: demodulated, its termination bits dropped (R101). -/
def segmentCoded (xs : List Int) : List Int := demodulate (segmentWords xs)

/-- The likelihoods of codeword `c` in a segment, in the order of the coded bits (R72). -/
def codewordPart (g c : Nat) (xs : List Int) : List Int := ((List.zip (segmentOrder g) xs).filter (fun e => e.1.1 == c)).map (·.2)

/-- The deinterleaver reverses R72: coded bit i of codeword c lies in segment (i + 4c) mod 32, at place i div 32 of its part (R101). -/
def deinterleave (segs : List (List Int)) (c : Nat) : List Int :=
  let parts := (List.range 32).map (fun g => codewordPart g c (segs.getD g []))
  (List.range 37584).map (fun i => (parts.getD ((i + 4 * c) % 32) []).getD (i / 32) 0)

/-- The 8 codewords of a framed folio (R100, R101). -/
def codewordsOf (lik : List (List Int)) (ptr : BitVec 32) : List (List Int) :=
  let n := ((List.range 32).filter (fun g => ptr.getLsbD g)).length
  let segs := (List.range 32).map (fun g =>
    let x := segmentCoded (lik.getD g [])
    if ptr.getLsbD g then eraseLik n x else x)
  (List.range 8).map (deinterleave segs)

/-! ### The decoder (R70, R102) -/

/-- A column block of a row, shifted to the row's checks. -/
def rotate {α : Type} (k : Nat) (xs : List α) : List α := xs.drop k ++ xs.take k

/-- The blocks of a block row: column and shift (R70). -/
def rowBlocks (i : Nat) : List (Nat × Nat) :=
  (List.range 72).filterMap (fun j => (ldpcShift i j).map (fun k => (j, k))) ++ (if i = 0 then [] else [(71 + i, 0)]) ++ [(72 + i, 0)]

/-- A message of 6 bits. -/
def sat6 (x : Int) : Int := max (-31) (min 31 x)

/-- The messages of one check: for each input the sign of the others and three quarters of the least of their sizes, towards zero (log entry
191). -/
def checkNode (qs : List Int) : List Int :=
  (List.range qs.length).map (fun i =>
    let others := qs.eraseIdx i
    let neg := (others.filter (fun x => decide (x < 0))).length % 2 == 1
    let m := others.foldl (fun b x => min b x.natAbs) 31
    let v : Int := (3 * m / 4 : Nat)
    if neg then -v else v)

/-- Rows and transposed exchanged. -/
def transposed (n : Nat) (xss : List (List Int)) : List (List Int) := (List.range n).map (fun r => xss.map (fun x => x.getD r 0))

/-- A decoder's state: the sums of every column block, and the messages of every block row. -/
structure Decoder where
  sums : List (List Int) := []
  msgs : List (List (List Int)) := []
deriving DecidableEq, Repr

/-- One layer (R102). -/
def layerStep (d : Decoder) (i : Nat) : Decoder :=
  let bs := rowBlocks i
  let old := d.msgs.getD i []
  let q := (List.zip bs (List.range bs.length)).map (fun b =>
    List.zipWith (fun x m => sat6 (x - m)) (rotate b.1.2 (d.sums.getD b.1.1 [])) (old.getD b.2 (List.replicate 464 0)))
  let new := transposed bs.length ((transposed 464 q).map checkNode)
  let sums := (List.zip bs (List.zip q new)).foldl (fun (t : List (List Int)) b =>
    t.set b.1.1 (rotate ((464 - b.1.2) % 464) (List.zipWith (· + ·) b.2.1 b.2.2))) d.sums
  { sums := sums, msgs := d.msgs.set i new }

/-- One iteration: the 9 block rows as layers. -/
def iterate (d : Decoder) : Decoder := (List.range 9).foldl layerStep d

/-- Every check is even. -/
def syndromeZero (d : Decoder) : Bool :=
  (List.range 9).all (fun i => ((rowBlocks i).foldl (fun acc b => xorBits acc (rotate b.2 (hard (d.sums.getD b.1 [])))) (List.replicate 464 false)).all (!·))

/-- A decoder runs until the syndrome is zero or the limit is reached: whether it is zero, the iterations used, the information bits. -/
def decodeFrom : Nat → Nat → Decoder → Bool × Nat × List Bool
  | fuel, k, d =>
    if syndromeZero d then (true, k, ((d.sums.take 72).map hard).flatten)
    else match fuel with
      | 0 => (false, k, [])
      | fuel + 1 => decodeFrom fuel (k + 1) (iterate d)

/-- Decode a codeword of 37,584 likelihoods (R102). -/
def decodeWord (limit : Nat) (xs : List Int) : Bool × Nat × List Bool :=
  decodeFrom limit 0 { sums := (List.range 81).map (fun j => slice 0 xs ((464 * j : Nat) : Int) 464), msgs := List.replicate 9 [] }

/-- Bytes of bits, most significant first. -/
def bitsBytes (n : Nat) (bs : List Bool) : Bytes :=
  (List.range n).map (fun i => BitVec.ofNat 8 (((bs.drop (8 * i)).take 8).foldl (fun v b => 2 * v + (if b then 1 else 0)) 0))

end Sys2Proof.Machine
end

