-- ==== Sys2Proof/Machine/ReadCells.lean ====
section
/-! DEFINITION. The channel cells of an OPU: the settings a run keeps (R112), the Channel Graph's assignments (R82), calibration records
(R188), the start and the end of a cell's run (R84, R86, R87), detection over what the cells hold. -/

namespace Sys2Proof.Machine

/-! ### The read channel's configuration (R112) -/

/-- Configuration registers of the read channel, RDC_CTL to RDC_GAIN_CFG; the eight targets follow them in what a run keeps. -/
def rdcConfig : List RegId :=
  [.rdcCtl, .rdcDecCfg, .rdcSqmCfg, .rdcMarkCfg, .rdcDefectCfg, .rdcTimingCfg, .rdcEqCfg, .rdcSweepCfg, .rdcGainCfg]

/-- A read run of an OPU starts with the values in force now and keeps them (R112). -/
def latchCfg (s : State) (opu : Nat) : State :=
  { s with rdc := { s.rdc with runCfg := ins s.rdc.runCfg opu (rdcConfig.map (reg s) ++ (List.range 8).map (reg s .rdcTarget)) } }

/-- A field of a read channel configuration register, as an OPU's last read run started with it. -/
def runBits (s : State) (opu : Nat) (id : RegId) (hi lo : Nat) : Nat :=
  match look s.rdc.runCfg opu with
  | some vs => bits (vs.getD (rdcConfig.idxOf id) 0) hi lo
  | none => regBits s id 0 hi lo

/-- RDC_TARGET t as an OPU's last read run started with it: taps H0 to H4, signed Q3.4 (R89, R112). -/
def runTarget (s : State) (opu t : Nat) : List Int :=
  let v := match look s.rdc.runCfg opu with
    | some vs => vs.getD (rdcConfig.length + t) 0
    | none => reg s .rdcTarget t
  (List.range 5).map (fun i => sx 8 (bits v (8 * i + 7) (8 * i)))

/-! ### Assignments (R82, R83) -/

/-- Share group of an OPU in the Channel Graph, 0 dedicated (R82). -/
def shareGroup (s : State) (opu : Nat) : Nat :=
  ((s.bnd.active.bind (fun b => b.chans.find? (fun c => c.opu = opu))).map (·.group)).getD 0

/-- The Channel Graph record of a spot of an OPU (R82). -/
def chanRecOf (s : State) (opu spot : Nat) : Option ChanRec := s.bnd.active.bind (fun b => b.chans.find? (fun c => c.opu = opu ∧ c.spot = spot))

/-- The channel cell that serves a spot of an OPU (R82). -/
def chanOf (s : State) (opu spot : Nat) : Option Nat :=
  (chanRecOf s opu spot).map (·.cell)

/-- The channel cell of a lane's lead (0) or trail (1) spot of an OPU. -/
def laneCell (s : State) (opu lane side : Nat) : Option Nat := chanOf s opu (2 * lane + side)

/-- The track of a lane has a dual-look partner (R82, R92). -/
def hasPartner (s : State) (opu lane : Nat) : Bool :=
  (chanRecOf s opu (2 * lane)).any (fun c => c.partner.isSome)

/-! ### Calibration records (R188) -/

/-- The calibration record of an OPU and layer. -/
def calAt (s : State) (opu layer : Nat) : CalRec := getD s.cal.recs {} (opu * 16 + layer)
/-- Store a calibration record. -/
def setCal (s : State) (opu layer : Nat) (r : CalRec) : State :=
  { s with cal := { s.cal with recs := put s.cal.recs {} (opu * 16 + layer) r } }

/-- Corrector position of a layer: calibrated, else the Flyleaf depth position (R188). -/
def correctorPos (s : State) (opu layer : Nat) : Int := ((calAt s opu layer).corrector).getD (Config.correctorStart layer)

/-- Taps of an OPU and layer, spot-major: the record's, else the Channel Graph presets (R86, R188). -/
def currentTaps (s : State) (opu layer : Nat) : List Int :=
  (List.range 8).flatMap (fun spot => match look (calAt s opu layer).taps spot with
    | some ts => (List.range 15).map (fun i => ts.getD i 0)
    | none =>
      let pre := ((chanRecOf s opu spot).map (·.preset)).getD 0
      (List.range 15).map (fun i => (Config.eqPreset pre).getD i 0))

/-! ### Runs of the cells (R84, R86, R87, R89, R112) -/

/-- Load a channel cell for a run (R84, R86, R112): OPU, spot, stored gain, offset and taps. It waits for the first channel bit 0. -/
def loadChan (s : State) (opu layer lane side : Nat) (retrain : Bool) : State :=
  match laneCell s opu lane side with
  | none => s
  | some k =>
    let spot := 2 * lane + side
    let r := calAt s opu layer
    let g := getD r.gains 0 spot
    let o := getD r.offsets 0 spot
    let i := 8 * (opu % 2) + spot
    let p := portAt s (opu / 2)
    let gains := (List.range 16).map (fun j => if j = i then BitVec.ofInt 6 g else p.gain.getD j 0)
    let offs := (List.range 16).map (fun j => if j = i then BitVec.ofInt 7 o else p.offs.getD j 0)
    let s := setPort s (opu / 2) { p with gain := gains, offs := offs, spotEn := p.spotEn ||| BitVec.ofNat 16 (2 ^ i) }
    let c := chanAt s k
    setChan s k {
      st := 1, opu := opu, spot := spot, shared := shareGroup s opu != 0, gain := (BitVec.ofInt 6 g).toNat, offs := o
      sqmFolio := c.sqmFolio, sqmSeg := c.sqmSeg, alarms := c.alarms, retrain := retrain
      taps := ((currentTaps s opu layer).drop (15 * spot)).take 15 }

/-- Gain step of a channel cell at the end of a run (R84): mean amplitude more than 1 dB (10^(1/20)) from TARGET_PP. A higher code is
more gain (PRESUMED, log entry 23). -/
def gainStep (target sum n : Nat) : Int :=
  if n = 0 then 0
  else if 10 * (target * n) ^ 20 < sum ^ 20 then -1
  else if 10 * sum ^ 20 < (target * n) ^ 20 then 1
  else 0

/-- The layer an OPU's media time is spent on. -/
def runLayer (s : State) (opu : Nat) : Nat := getD s.cal.curLayer 0 opu

/-- The cells of an OPU go idle, their adapted taps with them; stored gain codes follow the mean preamble amplitude of the run (R84, R86). -/
def idleCells (s : State) (opu : Nat) : State :=
  (List.range 8).foldl (fun s spot =>
    match chanOf s opu spot with
    | none => s
    | some k =>
      let c := chanAt s k
      if c.st = 0 ∨ c.opu ≠ opu then s
      else
        let layer := runLayer s opu
        let r := calAt s opu layer
        let g := gainStep (runBits s opu .rdcGainCfg 7 0) c.ppSum c.ppN
        let s := if g = 0 then s else setCal s opu layer { r with gains := put r.gains 0 spot (max 0 (min 63 (getD r.gains 0 spot + g))) }
        let p := portAt s (opu / 2)
        let s := setPort s (opu / 2) { p with spotEn := p.spotEn &&& ~~~(BitVec.ofNat 16 (2 ^ (8 * (opu % 2) + spot))) }
        setChan s k { c with
          st := 0, taps := [], frac := [], nextAt := none, raw := [], pos := 0, errs := [], hist := [], ys := [], dec := [], base := 0, dgain := 1024
          win := [], low := 0, refSum := 0, refN := 0, segSum := 0, segN := 0, cur := {}, past := [], ppSum := 0, ppN := 0 }) s

/-- The settings of a cell's run (R112). -/
def chanCfg (s : State) (opu : Nat) (target : Nat) (retrain : Bool) : ChanCfg :=
  let t (hi lo : Nat) := runBits s opu .rdcTimingCfg hi lo
  { kpAcq := t 31 28, kpTrk := t 27 24, kiAcq := t 23 20, kiTrk := t 19 16, lockTh := t 15 8, lossTh := t 7 0
    targetPp := runBits s opu .rdcGainCfg 7 0, minLen := runBits s opu .rdcDefectCfg 15 8, ratio := runBits s opu .rdcDefectCfg 5 0
    hmErr := runBits s opu .rdcMarkCfg 31 28, mu := if retrain then runBits s opu .rdcEqCfg 7 4 else runBits s opu .rdcEqCfg 3 0
    freeze := runBits s opu .rdcCtl 1 1 == 1, retrain := retrain, h := runTarget s opu target }

/-- Detector target of a spot (R82, R89). -/
def spotTarget (s : State) (opu spot : Nat) : List Int := runTarget s opu (((chanRecOf s opu spot).map (·.target)).getD 0)

/-- The look that the cell of a lane's spot holds of the folio that ends. -/
def laneLook (s : State) (opu lane side : Nat) : Look := ((laneCell s opu lane side).map (fun k => (chanAt s k).look)).getD {}

/-- What the detector of a lane's spot makes of that look (R89). -/
def laneSoft (s : State) (opu lane side : Nat) : Soft := softOf (spotTarget s opu (2 * lane + side)) (laneLook s opu lane side)

/-- D of the target of a lane's spot. -/
def laneD (s : State) (opu lane side : Nat) : Nat := minDistance (spotTarget s opu (2 * lane + side))

/-- Spans of a look without timing lock; one still open reaches the end (R88). -/
def lostSpans (l : Look) : List (Nat × Nat) := l.lost.map (fun e => (e.1, e.2.getD unitBits))

/-! ### What a folio's stream gives (R88, R90, R93 to R99) -/

/-- Samples per stitch at a rate code. -/
def samplesPerStitch (rate : BitVec 2) : Nat := if rate = 1 then 1440 else if rate = 2 then 1200 else 2400

/-- The bay's own count of the stitch under way, by its last frame (R318). -/
def bayCount (s : State) (b : Nat) : Nat :=
  match (portAt s b).landed, (portAt s b).last with
  | some f, _ => f.stitch.toNat
  | none, some f => f.stitch.toNat + 1
  | none, none => now s

/-- A difference of two 16-bit stitch numbers, -32,768 to 32,767. -/
def diff16 (a b : Nat) : Int := ((a : Int) - b + 32768) % 65536 - 32768

/-- Bits of a mask of segments. -/
def segMask (p : Nat → Bool) : BitVec 32 := BitVec.ofNat 32 (((List.range 32).map (fun g => if p g then 2 ^ g else 0)).sum)

/-- Segments set in a mask. -/
def segCount (m : BitVec 32) : Nat := ((List.range 32).filter (fun g => m.getLsbD g)).length

/-- A segment of a look overlaps the stitches of a spike or the stitch before each (R99). -/
def spikePointer (s : State) (opu : Nat) (l : Look) (start : Int) : Bool :=
  let b := opu / 2
  let n := samplesPerStitch (portAt s b).rate
  runBits s opu .rdcDefectCfg 16 16 == 1 && s.rdc.spikes.any (fun e => e.1 == opu && [0, 1].any (fun k =>
    let lo : Int := n * (diff16 ((bayCount s b : Int) - (now s : Int) + (e.2 : Int)).toNat l.stitch - (k : Int)) - l.bit
    decide (lo < start + 14098) && decide (start < lo + n)))

/-- What the framing of a folio gives: the framing, erasure pointers, margins of the folio and of its last segment by spot, the lead weight at the end,
slips, whether lock was lost. -/
structure Heard where
  framed : Framed := { decode := false, events := 0 }
  ptr : BitVec 32 := 0
  sqm : Option Int × Option Int := (none, none)
  seg : Option Int × Option Int := (none, none)
  a : Nat := 8
  slips : Nat := 0
  lost : Bool := false
deriving DecidableEq, Repr

/-- The erasure pointers of a framed stream: drops, spans without lock, resyncs, a missed head mark, spikes, by union (R88, R96 to R100). -/
def pointersOf (s : State) (opu : Nat) (l : Look) (fr : Framed) (drops lost : List (Nat × Nat)) : BitVec 32 :=
  segMask (fun g =>
    let p := (fr.segs.getD g {}).start
    drops.any (touches p 14098) || lost.any (touches p 14098) || resyncPointer (fr.segs.map (·.hit)) g ||
      (fr.first4 && decide (g < 4)) || spikePointer s opu l p)

/-- Margin of a spot over the segments without a pointer (R90). -/
def folioMargin (d : Nat) (delta : List Nat) (fr : Framed) (ptr : BitVec 32) : Int :=
  sqmOf d ((List.range 32).flatMap (fun g => if ptr.getLsbD g then [] else slice 0 delta (fr.segs.getD g {}).start 14098))

/-- Margin of a spot over one segment. -/
def segMargin (d : Nat) (delta : List Nat) (p : Int) : Int := sqmOf d (slice 0 delta p 14098)

/-- Frame a stream under the OPU's mark limits (R95 to R97). -/
def frameFor (s : State) (opu : Nat) (mix : Nat → List Int) (a0 : Nat) (margin : Option (Int → Int × Int)) : Framed :=
  frameStream (runBits s opu .rdcMarkCfg 31 28) (runBits s opu .rdcMarkCfg 27 24) (runBits s opu .rdcMarkCfg 23 20) mix a0 margin

/-- A single look (R92): the stream of one spot, framed. -/
def hearLook (s : State) (opu lane side : Nat) (l : Look) : Heard :=
  let h := spotTarget s opu (2 * lane + side)
  let x := softOf h l
  let d := minDistance h
  let fr := frameFor s opu (fun _ => x.lik) 8 none
  let ptr := pointersOf s opu l fr l.drops (lostSpans l)
  let q := some (folioMargin d x.delta fr ptr)
  let g := some (segMargin d x.delta (fr.segs.getD 31 {}).start)
  { framed := fr, ptr := ptr, sqm := if side = 0 then (q, none) else (none, q), seg := if side = 0 then (g, none) else (none, g)
    slips := (fr.segs.filter (fun e => slipped e.hit)).length, lost := !l.lost.isEmpty }

/-- The single look that a cell holds of the folio that ends. -/
def hearSingle (s : State) (opu lane side : Nat) : Heard := hearLook s opu lane side (laneLook s opu lane side)

/-- The delay at which the two looks of a lane agree, over the 512 bits from 256 bits after the later declared lock (R93). -/
def findDelay (s : State) (opu lane : Nat) : Option Nat :=
  let l := laneLook s opu lane 0
  let t := laneLook s opu lane 1
  match l.lockAt, t.lockAt with
  | some a, some b =>
    let w0 : Int := max ((a : Int) - 400) b + 256
    let x := (laneSoft s opu lane 0).lik
    let y := (laneSoft s opu lane 1).lik
    alignDelay ((List.range 65).map (fun i => (368 + i, agreement x y w0 (368 + i))))
  | _, _ => none

/-- Lead weight of segment 0: by the margins of the last segment of the folio before in the run (R94). -/
def firstWeight (s : State) (opu lane : Nat) : Nat :=
  match (laneCell s opu lane 0).bind (fun k => (chanAt s k).prevSeg), (laneCell s opu lane 1).bind (fun k => (chanAt s k).prevSeg) with
  | some a, some b => leadWeight a b
  | _, _ => 8

/-- Two looks combined at a delay and framed (R94 to R98). -/
def hearDual (s : State) (opu lane dc : Nat) : Heard :=
  let l := laneLook s opu lane 0
  let t := laneLook s opu lane 1
  let x := laneSoft s opu lane 0
  let y := laneSoft s opu lane 1
  let move : Int := 400 - dc
  let n := y.lik.length
  let lead := slice 0 x.lik move n
  let dl := slice 0 x.delta move n
  let dropsL := movedSpans l.drops (-move)
  let d0 := laneD s opu lane 0
  let d1 := laneD s opu lane 1
  let fr := frameFor s opu (mixStreams lead y.lik dropsL t.drops) (firstWeight s opu lane)
    (some (fun p => (segMargin d0 dl p, segMargin d1 y.delta p)))
  let ptr := pointersOf s opu t fr (bothSpans dropsL t.drops) (movedSpans (lostSpans l) (-move) ++ lostSpans t)
  let p31 := (fr.segs.getD 31 {}).start
  { framed := fr, ptr := ptr, sqm := (some (folioMargin d0 dl fr ptr), some (folioMargin d1 y.delta fr ptr))
    seg := (some (segMargin d0 dl p31), some (segMargin d1 y.delta p31)), a := (fr.segs.getD 31 {}).a
    slips := (fr.segs.filter (fun e => slipped e.hit)).length, lost := !l.lost.isEmpty || !t.lost.isEmpty }

end Sys2Proof.Machine
end

