-- ==== Sys2Proof/Machine/Quires.lean ====
section
/-! DEFINITION. Shared operations of the Quire Engine (11_quires.md): surfaces, placement, filling, closing, spilling,
abandoning, sealing, the volume's close, and R20's loss of a surface. -/

namespace Sys2Proof.Machine

/-- Write pointer and failure marks of surface `m`. -/
def surfAt (s : State) (m : Nat) : Surf := getD s.qre.surf {} m
/-- The state with surface `m` holding `x`. -/
def setSurf (s : State) (m : Nat) (x : Surf) : State := { s with qre := { s.qre with surf := put s.qre.surf {} m x } }
/-- Write-channel state of surface `m`. -/
def surfWAt (s : State) (m : Nat) : SurfW := getD s.wrc.surf {} m
/-- The state with the write-channel state of surface `m` holding `x`. -/
def setSurfW (s : State) (m : Nat) (x : SurfW) : State := { s with wrc := { s.wrc with surf := put s.wrc.surf {} m x } }
/-- The record of a quire, if the journal or the zone lists hold one. -/
def quireAt (s : State) (n : Nat) : Option Quire := look s.qre.quires n
/-- Store a quire record under its number. -/
def setQuire (s : State) (q : Quire) : State := { s with qre := { s.qre with quires := ins s.qre.quires q.number q } }

/-- The write state of a member surface by QRE_SURF.STATE code: 0 writable, 1 read-only, 2 failed, 3 unreachable, 4 full
(R206). Where several causes hold, failed shows before unreachable, read-only and full (log entry 8). -/
def surfState (s : State) (m : Nat) : Nat :=
  let x := surfAt s m
  if x.failedR20 || x.failedStrikes || x.missing then 2
  else if !runs s (m / 2) && s.spn.link != 2 then 3
  else if (surfWAt s m).readOnly then 1
  else if 16 ≤ x.layer then 4
  else 0

/-- Surface `m` takes new leaves. -/
def writable (s : State) (m : Nat) : Bool := surfState s m == 0

/-- The catalogue band of a surface has a frame left (R65, R207). -/
def catalogueRoom (s : State) (m : Nat) : Bool := decide ((surfAt s m).catFrame ≤ 578)

/-- Surface `m` takes a leaf of a kind of quire: a directory's only while its catalogue band has a frame (R65, R79). -/
def placeable (s : State) (kind m : Nat) : Bool := writable s m && (kind != 3 || catalogueRoom s m)

/-- Surfaces that remain writable or unreachable (R207). -/
def usable (s : State) : Nat := ((List.range 16).filter (fun m => surfState s m = 0 ∨ surfState s m = 3)).length

/-- The Collation row of a quire number in the mounted volume (R210). -/
def rowOf (s : State) (n : Nat) : List Nat := s.qre.rows.getD (n % 64) []

/-- The next frame of a write pointer: up the layer, over OPC frames and the catalogue band, then the next layer (R214). -/
def nextFrame (layer frame : Nat) : Nat × Nat :=
  let f := frame + 1
  if layerFrames ≤ f then (layer + 1, 8) else if catalogueFrame layer f then (layer, 579) else (layer, f)

/-- Take the next frame and generation of a surface this twin runs, from the catalogue band for a directory quire
(R65, R214): layer, frame, first generation. -/
def takeFrame (s : State) (m : Nat) (dir : Bool) : State × (Nat × Nat × Nat) :=
  let x := surfAt s m
  if dir then (setSurf s m { x with catFrame := x.catFrame + 1, gen := x.gen + 68 }, (0, x.catFrame, x.gen))
  else
    let n := nextFrame x.layer x.frame
    (setSurf s m { x with layer := n.1, frame := n.2, gen := x.gen + 68 }, (x.layer, x.frame, x.gen))

/-- Journal records to the twin (R221): the pointer record of a surface. -/
def sendPointer (s : State) (m : Fin 16) : State :=
  let x := surfAt s m
  send s (.journal (.pointer m x.layer x.frame x.gen))

/-- Leaf `i` of a quire is virtual: a data leaf with no data folio (R211). -/
def virtualLeaf (q : Quire) (i : Nat) : Bool := decide (i + 2 < q.width) && decide (q.folios ≤ 64 * i)

/-- The spill members of a row: the surfaces it does not name, ascending, starting cyclically after the highest surface it
names (R216). -/
def spillMembers (row : List Nat) : List Nat :=
  let top := row.foldl max 0
  ((List.range 16).map (fun k => (top + 1 + k) % 16)).filter (fun m => !row.contains m)

/-- The first spill member that is writable, reachable and not already holding a leaf of the quire (R216). -/
def spillTarget (s : State) (q : Quire) : Option Nat :=
  (spillMembers (rowOf s q.number)).find? (fun m => placeable s q.kind m && !q.leaves.any (fun l => l.surface == m && l.st != 4))

/-- Place leaf `i` of a quire on a surface: a frame of its own write pointer, or a placement request to the twin that runs the
bay (R214, R215). -/
def placeLeaf (s : State) (q : Quire) (i m spills : Nat) : State × Quire :=
  if runs s (m / 2) then
    let r := takeFrame s m (q.kind == 3)
    let l : Leaf := { surface := m, st := 0, layer := r.2.1, frame := r.2.2.1, gen := r.2.2.2, spills := spills }
    (sendPointer r.1 (Fin.ofNat 16 m), { q with leaves := q.leaves.set i l, committed := false })
  else
    (send s (.leafRequest q.number i m),
     { q with leaves := q.leaves.set i { surface := m, st := 0, peer := true, spills := spills }, committed := false })

/-- Key of a folio's body among the rebuilt ones: quire, data folio. -/
def bodyKey (q n : Nat) : Nat := q * 1024 + n

/-- The table of bodies with the body of one key under another. -/
def rekey (t : Tbl Bytes) (a b : Nat) : Tbl Bytes := match look t a with | some x => ins (del t a) b x | none => t

/-- The 64 bodies of a leaf under one quire, moved to a leaf of another. -/
def moveBodies (s : State) (q i q' i' : Nat) : State :=
  let t := (List.range 64).foldl (fun t j => rekey t (bodyKey q (64 * i + j)) (bodyKey q' (64 * i' + j))) s.qre.rebuilt
  { s with qre := { s.qre with rebuilt := t } }

/-- Leaves relocated into an abandoned rebuild quire go back to the cache and wait for a new one (R230). -/
def unplaceRebuilt (s : State) (n : Nat) : State :=
  (s.qre.amends.filter (fun a => a.target = n)).foldl (fun s a =>
    let s := moveBodies s n a.tleaf a.source a.sleaf
    let s := match quireAt s a.source with
      | some q => setQuire s { q with moved := del q.moved a.sleaf }
      | none => s
    { s with qre := { s.qre with
        amends := s.qre.amends.filter (fun b => b ≠ a), waiting := s.qre.waiting ++ [(a.source, a.sleaf, a.lost)] } }) s

/-- Data of a version returns to filling (R216, R223): it waits for a quire to take it. -/
def refill (s : State) (q : Quire) : State :=
  { s with qre := { s.qre with
      unplaced := s.qre.unplaced ++ q.seqs.filter (fun n => !s.qre.unplaced.contains n)
      unfiledAt := if q.kind = 3 ∧ s.qre.unfiledAt = none then some s.tck.count else s.qre.unfiledAt } }

/-! ### Write runs in progress (R79, R114) -/

/-- Lanes that a run records. -/
def runLanes (slots : List RunSlot) : Nat := ((List.range 4).filter (fun k => slots.any (fun x => slotLane x.slot = k))).length

/-- First position of a run. -/
def Run.firstPosition (r : Run) : Nat := (r.slots.head?.map (fun x => slotPosition x.slot)).getD 0

/-- One past the last position of a run. -/
def Run.endPosition (r : Run) : Nat := r.slots.foldl (fun p x => max p (slotPosition x.slot + 1)) 0

/-- The position under the lead spots at a stitch: 2,400 channel bits pass in a stitch, 452,608 make a slot (R75, R99). -/
def Run.position (r : Run) (t : Nat) : Nat :=
  r.firstPosition + ((2400 * ((t : Int) - r.start) - r.bit) / (unitBits : Int)).toNat

/-- Cut a run at a position: `begun` says that its slots are in progress and dead, not left unrecorded (R79, R124). The earliest cut counts. -/
def Run.cutHere (r : Run) (p : Nat) (begun : Bool) : Run := if r.cut.any (fun c => decide (c.1 ≤ p)) then r else { r with cut := some (p, begun) }

/-- Cut the run in progress of an OPU: in the slots in progress, or at the next folio boundary (R79, R127). -/
def cutRun (s : State) (m : Nat) (boundary : Bool) : State :=
  let o := opuAt s m
  match o.run with
  | some r =>
    let p := r.position s.tck.count
    setOpu s m { o with run := some (if boundary then r.cutHere (p + 1) false else r.cutHere p true) }
  | none => s

/-- The run in progress on an OPU ends: its encoders, its channel cells and its grant are free again (R15, R84, R114). -/
def endRun (s : State) (opu : Nat) : State :=
  let o := opuAt s opu
  match o.run with
  | none => s
  | some r =>
    let b := bayAt s (opu / 2)
    let s := setBay s (opu / 2) { b with grants := b.grants.filter (fun g => g ≠ (opu, r.act)) }
    let s := setOpu s opu { o with run := none }
    idleCells { s with wrc := { s.wrc with encBusy := s.wrc.encBusy - runLanes r.slots } } opu

/-- Runs on leaves of a quire end. -/
def endRunsOf (s : State) (n : Nat) : State :=
  (List.range 16).foldl (fun s m => if (opuAt s m).run.any (fun r => r.opc.isNone && r.quire == n) then endRun s m else s) s

/-! ### Abandoning and spilling -/

/-- Abandon a quire: its leaves become dead folios, abandoned but not counted (R125), and runs on them end; its data returns to filling (R216,
R223, R230). -/
def abandonQuire (s : State) (n : Nat) : State :=
  match quireAt s n with
  | none => s
  | some q =>
    if q.st = 2 ∨ q.st = 3 then s
    else
      let q' := { q with st := 3, leaves := q.leaves.map (fun l => if l.st = 4 then l else { l with st := 3 }), sealing := false }
      let s := if s.qre.prevDir = some n then
          let p := field q.image 0x18 8
          { s with qre := { s.qre with prevDir := if p = 2 ^ 64 - 1 then none else some p } }
        else s
      let s := bumpN (setQuire s q') 9 6 (q.leaves.filter (fun l => !l.peer && decide (l.st < 3))).length
      let s := endRunsOf s n
      unplaceRebuilt (refill (countEvent s 10 1 1 0xFF 0xFF [n]) q) n

/-- Bodies of a rebuild quire's folios by number. -/
def bodiesOf (s : State) (q : Quire) : List (Nat × Bytes) :=
  if q.kind = 2 then (List.range q.folios).filterMap (fun n => (look s.qre.rebuilt (bodyKey q.number n)).map (fun b => (n, b))) else []

/-- Send the record of a quire to the twin (R221, R297). -/
def sendQuire (s : State) (n : Nat) : State :=
  match quireAt s n with
  | none => s
  | some q => send s (.journal (.quire q (bodiesOf s q)))

/-- Move leaf `i` of an unsealed quire to its first spill member, or abandon the quire where none qualifies (R216). -/
def spillLeaf (s : State) (n i : Nat) : State :=
  match quireAt s n with
  | none => s
  | some q =>
    match spillTarget s q with
    | none => abandonQuire s n
    | some m =>
      let l := q.leaves.getD i {}
      let r := placeLeaf s q i m (min (l.spills + 1) 15)
      sendQuire (bump (setQuire r.1 r.2) 10 4) n

/-- Abandon a leaf (R125, R20, R230): it continues on the next member; one of the other twin's quires is reported to its builder (R215). `counted`
adds to the surface's count, which the twin that writes there keeps. The caller seals the surface at eight (R126). -/
def abandonLeaf (s : State) (n i : Nat) (counted : Bool) : State :=
  match quireAt s n with
  | none => s
  | some q =>
    let l := q.leaves.getD i {}
    let s := setQuire s { q with leaves := q.leaves.set i { l with st := 3 }, sealing := false }
    let s := if l.peer then s
      else
        let w := surfWAt s l.surface
        bump (if counted then setSurfW s l.surface { w with abandoned := min (w.abandoned + 1) 255 } else s) 9 (if counted then 5 else 6)
    let s := if (opuAt s l.surface).run.any (fun r => r.opc.isNone && r.quire == n && r.leaf == i) then endRun s l.surface else s
    if q.twin = s.tck.twinId then spillLeaf s n i else send s (.leafVerdict n i false counted)

/-- Unsealed quires with a live leaf on a surface: quire number and leaf index. -/
def unsealedOn (s : State) (m : Nat) : List (Nat × Nat) :=
  s.qre.quires.flatMap (fun e =>
    if e.2.st = 1 then
      ((List.range e.2.leaves.length).filter (fun i =>
        let l := e.2.leaves.getD i {}
        l.surface == m && l.st != 3 && l.st != 4)).map (fun i => (e.1, i))
    else [])

/-- A quire of this twin, or of the lost one whose place it has taken (R305): it files and rebuilds it (log entry 24). -/
def builtHere (s : State) (q : Quire) : Bool := q.twin == s.tck.twinId || s.spn.tookOver

/-- Sealed quires that this twin rebuilds, with a leaf on a surface. -/
def sealedOn (s : State) (m : Nat) : List Nat :=
  (s.qre.quires.filter (fun e => e.2.st == 2 && builtHere s e.2 && e.2.leaves.any (fun l => l.surface == m && l.st == 2))).map (·.1)

/-- A quire number in the rebuild queue, which is ordered by quire number (R226). -/
def queueRebuild (s : State) (n : Nat) : State :=
  if s.qre.rebuild.contains n || s.qre.rebuilding == some n then s
  else { s with qre := { s.qre with
    rebuild := s.qre.rebuild.filter (· < n) ++ n :: s.qre.rebuild.filter (n < ·) } }

/-- A quire that files records: not yet sealed and of kind 3. -/
def inDirectory (s : State) (n : Nat) : Bool :=
  s.qre.quires.any (fun e => e.2.kind == 3 && (e.2.st == 0 || e.2.st == 1) && e.2.files.contains n)

/-- Sealed records of this twin, and after a takeover of the lost one, that no directory quire files yet (R222, R305). -/
def unfiled (s : State) : List Nat :=
  (s.qre.quires.filter (fun e => e.2.st == 2 && !e.2.filed && builtHere s e.2 && e.2.kind != 3 &&
    !inDirectory s e.1)).map (·.1)

/-- Names an amendment record: source quire and leaf. -/
def amendKey (a : Amend) : Nat := a.source * 16 + a.sleaf

/-- Amendment records that no directory quire files yet (R222, R228). -/
def unfiledAmends (s : State) : List Amend :=
  s.qre.amends.filter (fun a => !s.qre.quires.any (fun e => e.2.kind == 3 && (e.2.st == 0 || e.2.st == 1) && e.2.amends.contains (amendKey a)))

/-- Directory bytes of a quire record: tag, record, and for the conventional log the granule list (R222). -/
def filedBytes (s : State) (n : Nat) : Nat :=
  match quireAt s n with
  | none => 0
  | some q => 264 + (if q.kind = 1 then 8 + 4 * q.granules.length else 0)

/-- Bytes of a directory quire that files quire records and a number of amendments: header, records, end tag (R222). -/
def directoryBytes (s : State) (ns : List Nat) (amends : Nat) : Nat := 256 + (ns.map (filedBytes s)).sum + 40 * amends + 8

/-- Data bytes that one directory quire can hold. -/
def directoryRoom (s : State) : Nat := (s.qre.width - 2) * 2 ^ 21

/-- The records at the head of a list that fit into a number of bytes. -/
def takeFit (size : Nat → Nat) : Nat → List Nat → List Nat
  | _, [] => []
  | room, n :: ns => if size n ≤ room then n :: takeFit size (room - size n) ns else []

/-- New quires of a kind may open and close: the volume is open, or an unmount files the last records (R207, R208). -/
def placing (s : State) (kind : Nat) : Bool := s.qre.vol == 1 || (s.qre.vol == 2 && s.qre.unmounting && kind == 3)

/-- Close a quire (R214, R217): placement is fixed for each non-virtual leaf, on its row's surface or a spill member. The
journal must commit the record before a write run begins (R221). -/
def closeQuire (s : State) (n cause : Nat) : State :=
  match quireAt s n with
  | none => s
  | some q =>
    if q.st ≠ 0 ∨ !placing s q.kind then s
    else
      let row := rowOf s n
      let q0 := { q with
        st := 1, cause := cause, closeAt := s.tck.count, vol := s.qre.cur
        leaves := (List.range q.width).map (fun i =>
          if virtualLeaf q i then { surface := row.getD i 0, st := 4 } else { surface := row.getD i 0 }) }
      let nv := ((List.range q.width).filter (virtualLeaf q)).length
      let full := decide (64 * (q.width - 2) ≤ q.folios)
      let s := bumpN (if full then s else bump s 10 2) 10 3 nv
      let s := setQuire s q0
      sendQuire ((List.range q.width).foldl (fun s i =>
        match quireAt s n with
        | none => s
        | some q =>
          if q.st ≠ 1 ∨ virtualLeaf q i then s
          else
            let m := row.getD i 0
            if placeable s q.kind m then
              let r := placeLeaf s q i m 0
              setQuire r.1 r.2
            else spillLeaf s n i) s) n

/-- Quire records that the journal holds: those not yet filed (R220 to R222). -/
def journalQuires (s : State) : Nat :=
  (s.qre.quires.filter (fun e => !e.2.filed && e.2.twin == s.tck.twinId)).length

/-- Open a quire (R209, R210): none while no volume is open or the journal is full (R207, R221). -/
def openQuire (s : State) (kind nsid firstLba zone : Nat) : Option (State × Nat) :=
  if !placing s kind ∨ 65536 ≤ journalQuires s ∨ (s.qre.unmounting ∧ kind ≠ 3) then none
  else
    let n := 2 ^ 63 * s.tck.twinId + s.qre.nextSeq
    some (setQuire { s with qre := { s.qre with nextSeq := s.qre.nextSeq + 1 } }
      { number := n, vol := s.qre.cur, width := s.qre.width, kind := kind, nsid := nsid, twin := s.tck.twinId,
        firstLba := firstLba, zone := zone, born := s.tck.count }, n)

/-- A leaf descriptor of R220. -/
def leafBytes (l : Leaf) : Bytes :=
  let rows := (l.rowsHeld.map (fun e => e.1 * 64 ^ (e.2 - 64))).sum
  let used := (l.rowsHeld.map (fun e => 2 ^ (e.2 - 64))).sum
  natLe 1 l.surface ++ natLe 1 (l.st * 16 + l.layer % 16) ++ natLe 2 l.frame ++ natLe 4 l.gen ++ natLe 3 rows ++
  natLe 1 (l.spills * 16 + used)

/-- A 256-byte quire record (R220). -/
def quireRecord (q : Quire) : Bytes :=
  let body := natLe 8 q.number ++ natLe 2 q.vol ++ natLe 1 q.width ++ natLe 1 q.st ++ natLe 1 q.cause ++ natLe 1 q.kind ++
    natLe 2 q.folios ++ natLe 4 (if q.kind = 3 then 0 else q.nsid) ++ natLe 1 q.twin ++ zeros 3 ++
    natLe 8 (if q.kind = 0 then q.firstLba else 0) ++ natLe 8 q.closeAt ++ natLe 8 q.sealAt ++
    (List.range 16).flatMap (fun i => match q.leaves[i]? with | some l => leafBytes l | none => zeros 12) ++
    zeros 12
  body ++ natLe 4 (crc32c body).toNat

/-- A 32-byte ingest record (R219). -/
def ingestRecord (i : Ingest) : Bytes :=
  let body := natLe 8 i.seq ++ natLe 4 i.nsid ++ natLe 2 i.blocks ++ [if i.fua then 1 else 0] ++ natLe 1 i.twin ++ natLe 8 i.lba ++
    natLe 4 (Config.cacheExtent i.twin i.seq)
  body ++ natLe 4 (crc32c body).toNat

/-- A 32-byte amendment record (R228). -/
def amendRecord (a : Amend) : Bytes :=
  let body := natLe 8 a.source ++ natLe 8 a.target ++ natLe 1 a.sleaf ++ natLe 1 a.tleaf ++ zeros 2 ++ natLe 8 a.lost.toNat
  body ++ natLe 4 (crc32c body).toNat

/-- The tag before a directory record. -/
def dirTag (type len : Nat) : Bytes := natLe 1 type ++ zeros 3 ++ natLe 4 len

/-- The data of a directory quire (R222): header, the records with their granule lists, the amendments, the end tag. -/
def directoryImage (s : State) (ns : List Nat) (as : List Amend) : Bytes :=
  let recs := ns.flatMap (fun n => match quireAt s n with
    | some q => dirTag 1 256 ++ quireRecord q ++
        (if q.kind = 1 then dirTag 2 (4 * q.granules.length) ++ q.granules.flatMap (natLe 4) else [])
    | none => []) ++ as.flatMap (fun a => dirTag 3 32 ++ amendRecord a) ++ dirTag 0 0
  let head := ([0x53, 0x4B, 0x51, 0x44] : Bytes) ++ natLe 2 0x0100 ++ natLe 2 s.qre.cur ++ natLe 1 s.tck.twinId ++ natLe 1 s.qre.width ++
    zeros 2 ++ natLe 4 recs.length ++ natLe 8 s.qre.dirSeq ++ natLe 8 (s.qre.prevDir.getD (2 ^ 64 - 1)) ++
    natLe 48 s.qre.collDigest.toNat ++
    (List.range 16).flatMap (fun m => let x := surfAt s m
      natLe 1 x.layer ++ natLe 1 (surfState s m) ++ natLe 2 x.frame ++ natLe 4 x.gen) ++ zeros 44
  head ++ natLe 4 (crc32c head).toNat ++ recs

/-- Close a directory quire with the unfiled records, as many as it holds (R222); its blocks take ingest sequences (R326, R327). -/
def closeDirectory (s : State) (cause : Nat) : State :=
  let room := directoryRoom s - directoryBytes s [] 0
  let ns := takeFit (filedBytes s) room (unfiled s)
  let as := (unfiledAmends s).take ((room - (ns.map (filedBytes s)).sum) / 40)
  if ns = [] ∧ as = [] then s
  else
    match openQuire s 3 0 0 0 with
    | none => s
    | some (t, n) =>
      match quireAt t n with
      | none => s
      | some q =>
        let img := directoryImage s ns as
        let r := takeSeq t (8 * ((img.length + 32767) / 32768))
        let t := setQuire r.1 { q with
          files := ns, folios := (img.length + 32767) / 32768, amends := as.map amendKey, image := img, seqBase := r.2 }
        let rest := !(unfiled t).isEmpty || !(unfiledAmends t).isEmpty
        closeQuire { t with qre := { t.qre with
          unfiledAt := if rest then t.qre.unfiledAt else none, dirSeq := t.qre.dirSeq + 1, prevDir := some n } } n cause

/-- A close cause that the spec does not state: one of the five of R220, free (log entry 3). -/
def openCause (s : State) : Nat := (freeValue s).toNat % 5

/-- The volume closes other than by an unmount (R207): records are filed first (R222), then the state, an event to the host asking for media;
media barriers wait under the back-pressure timeout from here on. -/
def closeVolume (s : State) : State :=
  let s := closeDirectory (drawn s) (openCause s)
  let s := { s with hiu := { s.hiu with cmds := s.hiu.cmds.map (fun (c : Cmd) =>
    if c.barrier && c.st == CmdSt.admitted then { c with waitFrom := c.waitFrom <|> some (now s) } else c) } }
  vendorEvent (event { s with qre := { s.qre with vol := 2 } } 0x402 10 1) 0

/-- Close the volume where too few surfaces remain or a catalogue band is full (R207); the twin closes it too (R204). -/
def checkVolume (s : State) : State :=
  if s.qre.vol = 1 ∧ (usable s < s.qre.width ∨
      (List.range 16).any (fun m => !(surfAt s m).missing && !catalogueRoom s m)) then
    send (closeVolume s) (.mgmt .volumeClosed)
  else s

/-- The state of a surface whose bay this twin runs is told to the twin (R206, R226; that a management packet carries it DEDUCED, log entry
210). -/
def noteSurface (s : State) (m : Nat) : State :=
  let x := surfAt s m
  if runs s (m / 2) then send s (.mgmt (.surfaceNote (Fin.ofNat 16 m) x.failedR20 x.failedStrikes (surfWAt s m).readOnly)) else s

/-- A surface has failed (R20, R225): unsealed leaves there are abandoned without counting and spill, an unsealed rebuild quire with one is
abandoned whole (R230), sealed quires join the rebuild queue. -/
def surfaceFailed (s : State) (m : Nat) : State :=
  let s := (unsealedOn s m).foldl (fun s e =>
    if (quireAt s e.1).any (fun (q : Quire) => q.kind == 2 && q.twin == s.tck.twinId) then abandonQuire s e.1 else abandonLeaf s e.1 e.2 false) s
  noteSurface ((sealedOn s m).foldl queueRebuild s) m

/-- An event that ends an OPU's service ends placement on its surface at the same stitch (R20); the host is told (R252). -/
def surfaceLost (s : State) (m : Nat) : State :=
  if (surfAt s m).failedR20 then s
  else
    let s := setSurf s m { surfAt s m with failedR20 := true }
    let s := vendorEvent (event s 0x402 10 2 (m / 2) m) 4
    checkVolume (endRun (surfaceFailed s m) m)

/-- Both surfaces of a bay are lost. -/
def bayLost (s : State) (b : Nat) : State := surfaceLost (surfaceLost s (2 * b)) (2 * b + 1)

/-- Seal a surface read-only (R126, R127): no new leaf; open leaves finish. -/
def sealSurface (s : State) (m cause : Nat) : State :=
  let w := surfWAt s m
  if w.readOnly then s
  else checkVolume (noteSurface (vendorEvent (setSurfW s m { w with readOnly := true, cause := cause }) 4) m)

/-- The eighth counted abandonment seals the surface (R126). -/
def checkAbandoned (s : State) (m : Nat) : State := if 8 ≤ (surfWAt s m).abandoned then sealSurface s m 1 else s

/-- Every non-virtual leaf of a closed quire is verified (R218). -/
def allVerified (q : Quire) : Bool := q.st == 1 && q.leaves.all (fun l => l.st == 2 || l.st == 4)

/-- A quire whose leaves are verified asks the journal to commit its sealed record (R218, R221). -/
def checkSeal (s : State) (n : Nat) : State :=
  match quireAt s n with
  | none => s
  | some q => if allVerified q && !q.sealing then sendQuire (setQuire s { q with sealing := true, committed := false }) n else s

/-- A leaf is verified (R218, R124). -/
def leafVerified (s : State) (n i : Nat) : State :=
  match quireAt s n with
  | none => s
  | some q =>
    let l := q.leaves.getD i {}
    checkSeal (setQuire s { q with leaves := q.leaves.set i { l with st := 2 } }) n

/-! ### Filling -/

/-- The filling quire of this twin for rebuilt leaves of a zone or of the conventional log, or for the conventional log. -/
def fillingQuire (s : State) (kind nsid zone : Nat) : Option Quire :=
  (s.qre.quires.find? (fun e => e.2.st == 0 && e.2.kind == kind && e.2.nsid == nsid && e.2.zone == zone &&
    e.2.twin == s.tck.twinId)).map (·.2)

/-- Blocks that a quire can carry. -/
def quireBlocks (w : Nat) : Nat := 8 * (64 * (w - 2))

/-- Data folios of a number of blocks. -/
def blockFolios (b : Nat) : Nat := (b + 7) / 8

/-- The filling quire of a zone that goes on at an LBA and has room (R211). -/
def zoneQuire (s : State) (nsid lba : Nat) : Option Quire :=
  (s.qre.quires.find? (fun e => e.2.st == 0 && e.2.kind == 0 && e.2.nsid == nsid && e.2.zone == lba / 2 ^ 20 && e.2.twin == s.tck.twinId &&
    decide (e.2.firstLba + e.2.blocks = lba) && decide (e.2.blocks < quireBlocks e.2.width))).map (·.2)

/-- A version among those whose data a quire holds. -/
def addSeq (seq : Nat) (l : List Nat) : List Nat := if l.contains seq then l else l ++ [seq]

/-- A version waits for a quire (R207, R221). -/
def waitQuire (s : State) (seq : Nat) : State := { s with qre := { s.qre with unplaced := addSeq seq s.qre.unplaced } }

/-- A quire that is full closes (R217); while no volume is open it waits for one (R207). -/
def closeFull (s : State) (q : Quire) : State := if quireBlocks q.width ≤ q.blocks then closeQuire s q.number 0 else s

/-- Put blocks of a version into the filling quire that goes on at their LBA, opening quires as needed (R209 to R211); what finds no quire
waits (R207, R221). -/
def fillZone (s : State) (seq nsid lba : Nat) : Nat → Nat → State
  | 0, _ => s
  | _, 0 => s
  | fuel + 1, n =>
    match zoneQuire s nsid lba with
    | some q =>
      let take := min n (quireBlocks q.width - q.blocks)
      let q' := { q with
        blocks := q.blocks + take, folios := blockFolios (q.blocks + take), seqs := addSeq seq q.seqs
        born := if q.blocks = 0 then s.tck.count else q.born }
      fillZone (closeFull (setQuire s q') q') seq nsid (lba + take) fuel (n - take)
    | none =>
      match openQuire s 0 nsid lba (lba / 2 ^ 20) with
      | some (t, _) => fillZone t seq nsid lba fuel n
      | none => waitQuire s seq

/-- Add a granule of a version to a quire of the conventional log. -/
def addGranule (s : State) (q : Quire) (seq g : Nat) : State :=
  let q' := { q with granules := q.granules ++ [g], folios := q.folios + 2, blocks := q.blocks + 16, seqs := addSeq seq q.seqs }
  closeFull (setQuire s q') q'

/-- Add granules of a conventional write to the log's filling quire, opening quires as needed (R211, R258). -/
def fillGranules (s : State) (seq nsid : Nat) (gs : List Nat) : State :=
  gs.foldl (fun s g =>
    match fillingQuire s 1 nsid 0 with
    | some q =>
      if q.granules.contains g then setQuire s { q with seqs := addSeq seq q.seqs }
      else if quireBlocks q.width ≤ q.blocks then waitQuire s seq
      else addGranule s q seq g
    | none =>
      match openQuire s 1 nsid 0 0 with
      | some (t, n) => match quireAt t n with | some q => addGranule t q seq g | none => t
      | none => waitQuire s seq) s

/-- Granules that a block range touches. -/
def granulesOf (lba n : Nat) : List Nat :=
  (List.range ((lba + n + 15) / 16 - lba / 16)).map (fun k => lba / 16 + k)

/-- Place a version in filling quires: its zone's, or the conventional log's (R209). -/
def fillVersion (s : State) (v : Version) : State :=
  if v.nsid = 1 then fillGranules s v.seq 1 (granulesOf v.lba v.nlb)
  else fillZone s v.seq v.nsid v.lba (2 * v.nlb + 4) v.nlb

/-- Place what waited for a quire (R207, R216, R223). -/
def fillWaiting (s : State) : State :=
  let ns := s.qre.unplaced
  ns.foldl (fun s n =>
    (s.cmd.versions.filter (fun v => v.own && v.seq == n)).foldl fillVersion s) { s with qre := { s.qre with unplaced := [] } }

/-- Quires of a twin that carry data of one of its versions. -/
def quiresOf (s : State) (twin seq : Nat) : List Quire :=
  (s.qre.quires.filter (fun e => e.2.twin == twin && e.2.seqs.contains seq && e.2.st != 3)).map (·.2)

/-- A sealed quire of a twin holds a block of one of its versions. -/
def blockSealed (s : State) (twin seq lba : Nat) : Bool :=
  (quiresOf s twin seq).any (fun q => q.st == 2 &&
    (if q.kind = 1 then q.granules.contains (lba / 16) else decide (q.firstLba ≤ lba) && decide (lba < q.firstLba + q.blocks)))

/-- Every block of a version lies in a sealed quire, and no quire that is not sealed needs it (R218, R262). -/
def versionSealed (s : State) (twin seq : Nat) : Bool :=
  !(s.qre.unplaced.contains seq && twin == s.tck.twinId) && !(quiresOf s twin seq).isEmpty && (quiresOf s twin seq).all (fun q => q.st == 2) &&
    s.cmd.versions.all (fun v => v.twin != twin || v.seq != seq || (List.range v.nlb).all (fun i => blockSealed s twin seq (v.lba + i)))

/-- Close every filling quire that carries data of a version (R262, R265). -/
def closeFor (s : State) (seq cause : Nat) : State :=
  (quiresOf s s.tck.twinId seq).foldl (fun s q => if q.st = 0 then closeQuire s q.number cause else s) s

/-! ### The write buffer (R257), the dirty window (R282), SMART (R250) -/

/-- The dirty data: the size of every version held, own and mirrored (R282). -/
def dirtyBytes (s : State) : Nat := (s.cmd.versions.map (fun v => 4096 * v.nlb)).sum

/-- Size C of the control area, for the dirty window as it stood at start-up (R272). -/
def controlBytes (s : State) : Nat := 112 * 2 ^ 20 + s.mem.window0 * 2 ^ 30 / 64

/-- The largest W that the vault rate and the declared holdup allow (R282). -/
def holdupWindow (s : State) : Nat := (regBits s .memHoldupCfg 0 15 0 - 1000) * s.mem.rate * 1000 - controlBytes s

/-- The armed vault capacity: the erased blocks less 7 % for bad blocks (R285). -/
def armedBytes (s : State) : Nat := s.mem.erased * 93 / 100

/-- The effective window W_eff (R282); 0 while the replayed image still stands on the vault (R290). -/
def windowEff (s : State) : Nat :=
  if s.mem.replayed then 0
  else min ((s.bnd.active.map (·.limits.dirtyGib)).getD 24 * 2 ^ 30) (min (armedBytes s - controlBytes s) (holdupWindow s))

/-- A newer version covers every block of a version. -/
def covered (s : State) (v : Version) : Bool :=
  (List.range v.nlb).all (fun i => s.cmd.versions.any (fun w =>
    w.own == v.own && w.nsid == v.nsid && decide (v.seq < w.seq) && decide (w.lba ≤ v.lba + i) && decide (v.lba + i < w.lba + w.nlb)))

/-- Two block ranges of a namespace meet (R255). -/
def meets (n1 a1 c1 n2 a2 c2 : Nat) : Bool := n1 == n2 && decide (a1 < a2 + c2) && decide (a2 < a1 + c1)

/-- An outstanding read admitted after a version still may need it (R257). -/
def needed (s : State) (v : Version) : Bool :=
  s.hiu.cmds.any (fun c => (c.sqe.kind == .read || c.sqe.kind == .verify) && c.st != .fetched && decide (v.seq < c.seq) &&
    meets v.nsid v.lba v.nlb c.sqe.nsid.toNat c.lba c.nlb)

/-- The command of a version has not completed. -/
def awaited (s : State) (v : Version) : Bool := v.own && s.hiu.cmds.any (fun c => (c.st == .committed || c.st == .data) && c.seq == v.seq)

/-- Release the versions, with their ingest records, that R218 and R257 let go: sealed on media or wholly covered, and needed by no
read. -/
def releaseVersions (s : State) : State :=
  let keep (v : Version) : Bool := needed s v || awaited s v || !(versionSealed s v.twin v.seq || covered s v)
  { s with
    cmd := { s.cmd with versions := s.cmd.versions.filter keep }
    qre := { s.qre with ingest := s.qre.ingest.filter (fun r =>
      s.cmd.versions.any (fun v => keep v && v.seq == r.version && v.twin == r.twin)) } }

/-- Critical Warning of the SMART page (R250). -/
def critWarn (s : State) : Nat :=
  (if s.bdy.temps.any (fun t => decide (4 * (regBits s .pwrThermCfg 0 15 8 : Int) ≤ t)) then 2 else 0) +
  (if s.qre.lossCount ≠ 0 ∨ (s.qre.vol ≠ 0 ∧ (List.range 16).any (fun m => surfState s m == 2)) then 4 else 0) +
  (if s.qre.vol = 2 ∧ windowEff s ≤ dirtyBytes s then 8 else 0) + (if s.cmd.prot = 2 then 16 else 0)

/-- Each bit of Critical Warning that a step sets posts a SMART / Health event (R250): type 1, information 1 for temperature, 0 for
reliability. -/
def withSmart (s t : State) : State :=
  [1, 2, 3, 4].foldl (fun t b =>
    if (critWarn t).testBit b && !(critWarn s).testBit b then asyncEvent t 1 (if b = 1 then 1 else 0) 2 else t) t

end Sys2Proof.Machine
end

