-- ==== Sys2Proof/Machine/Stops.lean ====
section
/-! DEFINITION. Shared operations of a bay's control side: retraction and the prerequisite cascade (R137, R138), failed
sequences, grants (R15), the safe stop and the coast stop (R49, R149, R168, R401), command queues and effect stitches (R139). -/

namespace Sys2Proof.Machine

/-! ### Life-cycle and who may command -/

/-- Life-cycle code in force (R338): 0 Blank, 1 Provisioned, 2 Sealed, 3 Returned, 4 Retired. -/
def lifeCycle (s : State) : Nat := min 4 (votedFuses s.kst.lc)

/-- The Retired state leaves the Colophon and attestation only: firmware and Binding commands complete with Command Sequence Error, and mailbox
requests that change the twin are refused (R338; how far its row reaches DEDUCED, log entry 206). -/
def lifeRetired (s : State) : Bool := lifeCycle s == 4

/-- Host writes to BAR2 outside the mailbox are discarded (R6, R338). -/
def barSealed (s : State) : Bool := decide (2 ≤ lifeCycle s)

/-- A request from this source reaches the unit: the domain controller always, the host unless BAR2 is read-only (R6, R11). -/
def mayCommand (s : State) (src : Src) : Bool := src == .domain || !barSealed s

/-- The twin accepts commands for a bay: it runs it, and its port switch came in an earlier stitch (R139, R151, R170, R187). -/
def accepts (s : State) (b : Nat) : Bool := runs s b && (pairAt s b).switchAt != some (now s)

/-! ### Withholding (R294) -/

/-- Withhold shadow ready of a bay with a cause; the cause shown is the one that came first. What ends it is a resynchronisation begun after
the cause, so one under way ends. -/
def withhold (s : State) (b cause : Nat) : State :=
  let p := pairAt s b
  let under := decide (2 ≤ p.resync)
  setPair s b { p with
    withhold := if p.withhold = 0 then cause else p.withhold, hits := 0
    resync := if under then 0 else p.resync, kKnown := p.kKnown && !under
    ring := if under then [] else p.ring, cmdRing := if under then [] else p.cmdRing }

/-- The absent sets of the stitch that ends differ: the bay is withheld from the next keepalive on (R45). A difference up to the capture
stitch is made good by the capture. -/
def withholdAbsent (s : State) (b : Nat) : State :=
  let p := pairAt s b
  if !p.absentDiff then s
  else
    let s := setPair s b { p with absentDiff := false }
    if p.resync = 2 ∧ now s ≤ p.k then setPair s b { pairAt s b with withhold := if p.withhold = 0 then 2 else p.withhold, hits := 0 }
    else withhold s b 2

/-! ### Retraction and prerequisites (R137, R138, R149) -/

/-- Count a jump or seek that ends other than by its own close (R149, R151). -/
def seqFailed (s : State) (c : Cell) : State :=
  match c.seq.kind with
  | .jump => bump s 5 4
  | .seek => bump s 5 7
  | _ => s

/-- A JUMP that waits at the head of the focus cell's queue for a SEEK is dropped with result 2 when the SEEK's cell retracts (R151). -/
def dropHeldJump (s : State) (c : Cell) : State :=
  if c.seq.kind != .seek then s
  else match cellOf s c.opu 0 with
    | none => s
    | some m =>
      let d := cellAt s m
      match d.queue with
      | [] => s
      | q :: rest => if q.op = 3 ∧ q.effect ≤ now s then setCell s m { d with queue := rest, result := 2 } else s

/-- A cell enters RETRACT. -/
def retractCell (s : State) (n cause : Nat) (fault : Bool) : State :=
  let c := cellAt s n
  dropHeldJump (setCell (seqFailed s c) n (enterRetract c cause fault)) c

/-- The prerequisite cell of a cell of an OPU (R138). -/
def prereqOf (s : State) (c : Cell) : Option Nat :=
  match c.loop with
  | 0 => none
  | 1 => cellOf s c.opu 0
  | _ => cellOf s c.opu 1

/-- The change that a cell's prerequisite brings to it (R137): retract, suspend, or resume. -/
def followPrereq (s : State) (n : Nat) : State :=
  let c := cellAt s n
  match (prereqOf s c).map (cellAt s) with
  | none => s
  | some p =>
    if p.st == .retract || p.st == .parked then
      if c.st == .parked || c.st == .retract then s else retractCell s n 3 false
    else if c.st == .closed || c.st == .sequence then
      if p.st == .held || p.st == .sequence || p.st == .search || p.st == .suspended || p.seq.kind == .jump then
        setCell (seqFailed s c) n (enterSuspended c)
      else s
    else if c.st == .suspended && p.st == .closed && p.seq.kind == .none then
      setCell s n (if c.loop = 1 then enterSearch c c.zh else enter c .closed)
    else s

/-- The cascade over the dependants of one OPU: tracking, then tilt and yaw (R137). -/
def cascade (s : State) (opu : Nat) : State :=
  [1, 2, 3].foldl (fun s l => match cellOf s opu l with | some n => followPrereq s n | none => s) s

/-- The cascade over both OPUs of a bay. -/
def cascadeBay (s : State) (b : Nat) : State := cascade (cascade s (2 * b)) (2 * b + 1)

/-! ### Staged and armed containers (R36, R37, R40) -/

/-- The last result shown. -/
def setResult (s : State) (code : Nat) : State := { s with bnd := { s.bnd with lastResult := code } }

/-- Discard the staged or armed structural Binding. -/
def dropStruct (s : State) : State := { s with bnd := { s.bnd with structural := none, affected := 0 } }

/-- Discard the staged or armed trim. -/
def dropTrim (s : State) : State := { s with bnd := { s.bnd with trim := none } }

/-- Discard every staged or armed container. -/
def dropBoth (s : State) : State := dropTrim (dropStruct s)

/-- Discard the containers that a test names. -/
def dropWhere (s : State) (p : Staged → Bool) : State :=
  let s := if s.bnd.structural.any p then dropStruct s else s
  if s.bnd.trim.any p then dropTrim s else s

/-- Between arming and commit both containers are discarded with PAIR at the loss of the link or when a takeover begins (R40). -/
def loseArmed (s : State) : State :=
  if s.bnd.structural.any (fun x => x.armed.isSome) || s.bnd.trim.any (fun x => x.armed.isSome) then setResult (dropBoth s) 0x0C else s

/-- The armed trim commits at this edge: the twin has staged it, and no structural Binding is armed for the same stitch (R37, R40, R51). -/
def trimCommits (s : State) : Bool :=
  s.bnd.trim.any (fun x => x.armed == some (now s) && x.peer) && !s.bnd.structural.any (fun y => y.armed == some (now s))

/-! ### Command queues (R139, R171) -/

/-- The effect stitch of a command issued now: max(CTL_AT, I + 3), zero counting as I + 3 (R139). -/
def effectOf (s : State) (at_ : Nat) : Nat := max at_ (now s + 3)

/-- Insert a command: ordered by effect stitch, then by issue. -/
def enqueue (q : List QCmd) (c : QCmd) : List QCmd := q.filter (fun d => d.effect ≤ c.effect) ++ c :: q.filter (fun d => c.effect < d.effect)

/-- Record a command for the heartbeat of the next stitch (R139, R298). -/
def issue (s : State) (o : Obj) (op arg effect : Nat) : State :=
  { s with spn := { s.spn with issued := s.spn.issued ++
    [{ obj := o, op := BitVec.ofNat 8 op, arg := BitVec.ofNat 32 arg, effect := BitVec.ofNat 64 effect }] } }

/-- Set a cell's RESULT field. -/
def cellResult (s : State) (n r : Nat) : State := setCell s n { cellAt s n with result := r }

/-- The bay of a cell is in Hold mode, counted from the start of Hold entry (R407). -/
def inHold (s : State) (b : Nat) : Bool := (bayAt s b).mode == 5 || (bayAt s b).holdEntry

/-- Queue a command for a cell at an effect stitch asked for, or refuse it with result 1 or 2 (R139): another twin's cell, one not named,
a bay whose port switch came in this stitch (R151), the operation's own ground `bad`, a full queue. -/
def queueCell (s : State) (n op arg : Nat) (bad : Bool) (at_ : Nat) : State :=
  let c := cellAt s n
  if !c.named || !accepts s (c.opu / 2) || bad then cellResult s n 2
  else if 4 ≤ c.queue.length then cellResult s n 1
  else
    let e := effectOf s at_
    let s := setCell s n { c with queue := enqueue c.queue { op := op, arg := arg, effect := e }, result := 0 }
    if h : n < 96 then issue s (.cell ⟨n, h⟩) op arg e else s

/-- Bay of an axis: sleds 2b and 2b + 1, correctors 16 above (R1). -/
def axisBay (n : Nat) : Nat := n % 16 / 2

/-- Set an axis's RESULT field. -/
def axisResult (s : State) (n r : Nat) : State := setAxis s n { axisAt s n with result := r }

/-- A MOVE target lies outside the soft range (R178). -/
def moveBad (n : Nat) (t : Nat) : Bool := decide (softRange (decide (n < 16)) < (t : Int))

/-- A command that an axis refuses with result 2 (R177, R178): a MOVE out of range, and of an axis that does not know its position
anything but HOME, RELEASE and ENERGISE; a homing axis takes a MOVE as pending (R178). -/
def axisBad (a : Axis) (n op arg : Nat) : Bool :=
  (op == 1 && moveBad n arg) || (!a.known && op < 16 && op != 4 && op != 5 && op != 6 && !(op == 1 && a.st == .homing))

/-- Queue a command for an axis at an effect stitch asked for, or refuse it (R139, R171, R177, R178). -/
def queueAxis (s : State) (n op arg at_ : Nat) : State :=
  let a := axisAt s n
  if !accepts s (axisBay n) || axisBad a n op arg then axisResult s n 2
  else if 4 ≤ a.queue.length then axisResult s n 1
  else
    let e := effectOf s at_
    let s := setAxis s n { a with queue := enqueue a.queue { op := op, arg := arg, effect := e }, result := 0 }
    if h : n < 32 then issue s (.axis ⟨n, h⟩) op arg e else s

/-! ### Commands of the domain controller (R11, R139) -/

/-- A command of the domain controller for an axis. -/
def orderAxis (s : State) (n op arg : Nat) : State := queueAxis s n op arg 0

/-- A command of the domain controller or the media scheduler for a cell, at the effect stitch it names (R139, R142). -/
def orderCellAt (s : State) (n op arg at_ : Nat) : State :=
  queueCell s n op arg ((op == 1 && inHold s ((cellAt s n).opu / 2)) || (op == 3 && (cellAt s n).loop != 0) ||
    (op == 4 && ((cellAt s n).loop != 1 || decide (sw (cellAt s n) 5 < (sx 24 arg).natAbs)))) at_

/-- A command of the domain controller for a cell, at I + 3. -/
def orderCell (s : State) (n op arg : Nat) : State := orderCellAt s n op arg 0

/-! ### Offsets at folio boundaries (R142) -/

/-- The first stitch whose edge is at or after the next boundary of an address unit of the OPU; none where no unit has been read (R142). -/
def boundaryStitch (s : State) (opu : Nat) : Nat :=
  let p := portAt s (opu / 2)
  let es := (List.range 4).filterMap (fun l => ((getD p.addrSeen [] (4 * (opu % 2) + l)).findSome? id))
  match es.head? with
  | some a =>
    let n := samplesPerStitch p.rate
    let gone := n * (diff16 (bayCount s (opu / 2)) a.stitch + 3) - a.offset
    let left := -gone % unitBits
    now s + 3 + ((left + n - 1) / n).toNat
  | none => 0

/-- An offset component of a cell of the OPU, from the next folio boundary on (R108, R142, R192, R197). -/
def orderOffset (s : State) (opu l : Nat) (arg : Nat) : State :=
  match cellOf s opu l with
  | some n => orderCellAt s n 5 arg (boundaryStitch s opu)
  | none => s

/-! ### Calibrations that stop (R191, R197, R198, R202) -/

/-- A job ends. -/
def endJob (s : State) (opu layer : Nat) (k : CalKind) : State :=
  { s with cal := { s.cal with jobs := s.cal.jobs.filter (fun j => !(j.opu == opu && j.layer == layer && j.kind == k)) } }

/-- Order of the calibrations at first use (R190). -/
def firstOrder : CalKind → Nat
  | .bfeOffsets => 0 | .corrector => 1 | .focus => 2 | .tilt => 3 | .opc => 4 | .equaliser => 5

/-- A calibration fails (R191, R192): the record stands, FAILED is set, an event is logged. -/
def failCal (s : State) (opu layer : Nat) (k : CalKind) : State :=
  let s := setCal s opu layer { calAt s opu layer with failed := true }
  endJob (countEvent s 15 4 1 (opu / 2) opu [layer, firstOrder k]) opu layer k

/-- Restore what a run displaced: TRIAL returns to zero, the corrector to its position, the emitters on (R197, R198). -/
def afterRun (s : State) (opu layer : Nat) (k : CalKind) : State :=
  if !runs s (opu / 2) then s
  else match k with
  | .focus => orderOffset s opu 0 (2 * 65536)
  | .tilt => orderOffset s opu 2 (2 * 65536)
  | .corrector => orderAxis s (16 + opu) 1 (correctorPos s opu layer).toNat
  | .bfeOffsets =>
    let p := portAt s (opu / 2)
    if (bayAt s (opu / 2)).mode = 5 ∨ (bayAt s (opu / 2)).safeStop then s
    else setPort s (opu / 2) { p with readEn := p.readEn ||| (if opu % 2 = 0 then 0x0F else 0xF0) }
  | _ => s

/-- A plausibility action fails the calibration that the OPU runs (R202). -/
def failRunning (s : State) (opu : Nat) : State :=
  (s.cal.jobs.filter (fun j => j.opu == opu && j.running)).foldl (fun s j => failCal (afterRun s opu j.layer j.kind) opu j.layer j.kind) s

/-- The calibration run in progress on an OPU is void (R202): what it displaced is restored, its used test run stands consumed, the runs before
it keep their results (that only the run is lost, DEDUCED, log entry 207). -/
def voidRun (s : State) (opu : Nat) : State :=
  let s := (s.cal.jobs.filter (fun j => j.opu == opu && j.running)).foldl (fun s j => afterRun s opu j.layer j.kind) s
  { s with cal := { s.cal with jobs := s.cal.jobs.map (fun (j : CalJob) => if j.opu = opu then { j with running := false } else j) } }

/-! ### Grants (R15) -/

/-- End an OPU's grant: a write run in progress is cut and its channel cells stay for the verdicts due (R15, R79, R128); a read run ends, its folios
continue on the ladder (R111), its cells go idle (R84, R86). -/
def revokeGrants (s : State) (opu : Nat) : State :=
  let b := bayAt s (opu / 2)
  let s := setBay s (opu / 2) { b with grants := b.grants.filter (fun g => g.1 ≠ opu) }
  let s := if (opuAt s opu).run.isSome then cutRun s opu false else idleCells s opu
  let s := { s with rdc := { s.rdc with reads := mapT (fun _ (r : ReadSt) =>
    if r.req.leaf.surface.val = opu ∧ r.granted then { r with granted := false } else r) s.rdc.reads } }
  voidRun s opu

/-- The read requests of a bay that this twin no longer runs are lost, with their codewords queued or in decoders (R111). -/
def dropBayReads (s : State) (b : Nat) : State :=
  let gone (r : ReadSt) : Bool := r.req.leaf.surface.val / 2 == b
  let inDec := ((s.rdc.reads.filter (fun e => gone e.2)).map (fun e => ((e.2.folios.filter (·.inDecoder)).map (·.cws)).sum)).sum
  { s with rdc := { s.rdc with
    reads := s.rdc.reads.filter (fun e => !gone e.2), busy := s.rdc.busy - inDec
    queue := s.rdc.queue.filter (fun q => !(look s.rdc.reads q.1).any gone) } }

/-- Revoke the grants of both OPUs of a bay. -/
def revokeBay (s : State) (b : Nat) : State := revokeGrants (revokeGrants s (2 * b)) (2 * b + 1)

/-- A loop of an OPU is not as a folio in progress needs it: CLOSED with no plausibility action due, no layer jump; tracking may run
the seek of a jump back, tilt and yaw then wait for it (R14 item 1, R107, R148). -/
def loopLost (s : State) (opu l : Nat) : Bool :=
  match (cellOf s opu l).map (cellAt s) with
  | none => true
  | some c => due c || match c.st with
    | .closed => c.seq.kind == .jump
    | .sequence => l != 1
    | .suspended => !(decide (2 ≤ l) && ((cellOf s opu 1).map (cellAt s)).any (fun t => t.seq.kind == .seek))
    | _ => true

/-- The OPU has lost the readiness that its grant's folios need: a loop, the spindle's lock, the corrector at rest (R14). Calibration
grants (activities 1 and 6) move loops and corrector themselves. -/
def readyLost (s : State) (opu act : Nat) : Bool :=
  act != 1 && act != 6 &&
    ([0, 1, 2, 3].any (loopLost s opu) || !(unitAt s (opu / 2)).locked || (axisAt s (16 + opu)).st != .idle)

/-- A loss of readiness revokes the OPU's grant (R15). -/
def dropUnready (s : State) (opu : Nat) : State :=
  match (bayAt s (opu / 2)).grants.find? (fun g => g.1 == opu) with
  | some g => if readyLost s opu g.2 then revokeGrants s opu else s
  | none => s

/-! ### Safe stop and coast stop (R49, R149, R165, R168, R181, R401) -/

/-- A cell's own count brought a safe stop: it is due, and the strongest action of its OPU's due cells is 2 (R149, R151). -/
def countedStop (s : State) (c : Cell) : Bool :=
  due c && s.cells.any (fun e => e.2.named && e.2.opu == c.opu && due e.2 && e.2.action == 2)

/-- Spindle words of the precomputed safe-stop frame: SHORT at 1,024, OFF for a coast stop (R165, R168, R401). -/
def stopWords (coast : Bool) : List Half := List.replicate 3 (if coast then phaseWord 3 0 else phaseWord 2 1024)

/-- The bay enters safe stop: every cell PARKED with FAULT, the spindle in pulsed SHORT, or COAST for a coast stop, every
axis at HOLD, grants revoked; the stitch's frame is the precomputed one; Hold entry ends, and a mode set not yet in effect is dropped
(R379); the host is told (R252). -/
def safeStop (s : State) (b : Nat) (coast : Bool) : State :=
  let own := (bayCells s b).filter (fun n => countedStop s (cellAt s n))
  let s := forEach (bayCells s b) (fun s n => setCell s n (enterStopped (own.contains n) (cellAt s n))) s
  let u := unitAt s b
  let u := if coast then (if u.st == .off || u.st == .fault then u else toCoast u) else toStopShort (spdPar s b) u
  let s := setUnit s b { u with words := stopWords coast }
  let s := forEach (bayAxes b) (fun s n => setAxis s n { hardStop (axisAt s n) with hold := true, out := 0 }) s
  let y := bayAt s b
  let dropped := y.req != y.mode || y.enablePending.isSome
  let s := setBay s b { y with
    safeStop := true, stopFrame := true, coast := y.coast || coast, holdEntry := false, req := y.mode, enablePending := none, done := 0
    bringing := false }
  let s := if dropped && !y.safeStop then countEvent s 2 1 1 b else s
  let s := if runs s b && !y.safeStop then vendorEvent s 5 else s
  revokeBay s b

/-- A safe stop of a bay whose surfaces are lost with it (R20). -/
def stopBay (s : State) (b : Nat) (coast : Bool) : State :=
  if (bayAt s b).safeStop ∧ (!coast ∨ (bayAt s b).coast) then s else bayLost (safeStop s b coast) b

end Sys2Proof.Machine
end

