-- ==== Sys2Proof/Machine/SpindleCmd.lean ====
section
/-! DEFINITION. The spindle commands START, STOP, SPEED and CLEAR, their effect stitch, the events of a unit's states, and the
bus groups (08_spindle.md R157 to R171, R200). -/

namespace Sys2Proof.Machine

/-- Set a unit's RESULT field. -/
def unitResult (s : State) (n r : Nat) : State := setUnit s n { unitAt s n with result := r }

/-- The unit is on the start path: SENSE, ALIGN, RAMP or a start-path brake (R170). -/
def startPath (u : Unit) : Bool := u.st == .sense || u.st == .align || u.st == .ramp || (u.st == .short && u.brake != .stop)

/-- START or SPEED is refused now (R170). -/
def spdBad (u : Unit) (op : Nat) : Bool :=
  (op == 1 && u.fault) || (op == 3 && (u.fault || !(u.st == .run || startPath u)))

/-- Queue a command for a spindle unit at an effect stitch asked for, or refuse it (R171, R139, R170). -/
def queueUnit (s : State) (n op arg at_ : Nat) : State :=
  let u := unitAt s n
  if !accepts s n || spdBad u op then unitResult s n 2
  else if 4 ≤ u.queue.length then unitResult s n 1
  else
    let e := effectOf s at_
    let s := setUnit s n { u with queue := enqueue u.queue { op := op, arg := arg, effect := e }, result := 0 }
    if h : n < 8 then issue s (.unit ⟨n, h⟩) op arg e else s

/-- Accept a command for a spindle unit, or refuse it; the host's reaches it while BAR2 takes writes (R6, R171). -/
def acceptUnit (s : State) (n : Nat) (src : Src) (op arg : Nat) : State :=
  if !mayCommand s src then s else queueUnit s n op arg (reg s .spdUnitCtlAt n)

/-- START with a target speed (R163). -/
def execSpdStart (unit : Fin 8) (src : Src) (rpm : BitVec 13) (s : State) : Out := .next (acceptUnit s unit src 1 rpm.toNat)
/-- STOP: brake or coast (R165). -/
def execSpdStop (unit : Fin 8) (src : Src) (coast : Bool) (s : State) : Out :=
  .next (acceptUnit s unit src 2 (if coast then 1 else 0))
/-- SPEED: a new target (R157). -/
def execSpdSpeed (unit : Fin 8) (src : Src) (rpm : BitVec 13) (s : State) : Out := .next (acceptUnit s unit src 3 rpm.toNat)
/-- CLEAR: FAULT ends (R161). -/
def execSpdClear (unit : Fin 8) (src : Src) (s : State) : Out := .next (acceptUnit s unit src 4 0)

/-- STOP at its effect stitch (R161, R165, R167, R170). -/
def stopUnit (p : SpdPar) (u : Unit) (coast : Bool) : Unit :=
  match u.st with
  | .off | .coast | .fault => u
  | .sense | .align => toState u .off
  | .ramp => toShort p u .stop
  | .run => if coast then toCoast u else if p.blocked then toShort p u .stop else { u with st := .regen, timer := 0, idRef := 0 }
  | .regen => if coast then toCoast u else u
  | .short => if coast then toCoast u else { u with brake := .stop }

/-- START at its effect stitch (R163, R170). -/
def startUnit (p : SpdPar) (u : Unit) (rpm : Nat) : Unit :=
  let u := setTarget p u rpm
  match u.st with
  | .off | .regen | .short | .coast => { toSense u with attempt := 1 }
  | _ => u

/-- Configuration words of a unit or axis: op 16 + i writes the word at offset 4 i of the window of `n`;
the emergency deceleration of a sled is not lowered (R24). -/
def configWrite (s : State) (base n : Nat) (q : QCmd) : State :=
  if base = 0xB01000 ∧ q.op = 25 ∧ n < 16 ∧ q.arg < reg s .motAxisEdec n then s
  else { s with regs := ins s.regs (base + 0x80 * n + 4 * (q.op - 16)) (BitVec.ofNat 64 q.arg) }

/-- The tripped bit of a group clears with the CLEAR of its units. -/
def clearTrip (s : State) (g : Nat) : State := { s with bus := { s.bus with tripped := s.bus.tripped &&& ~~~((1 : Byte) <<< g) } }

/-- The command at the head of a unit's queue acts. -/
def actUnit (s : State) (n : Nat) (q : QCmd) : State :=
  let u := { unitAt s n with queue := (unitAt s n).queue.drop 1 }
  let p := spdPar s n
  if 16 ≤ q.op then configWrite (setUnit s n u) 0xA01000 n q
  else if spdBad u q.op then setUnit s n { u with result := 2 }
  else if q.op = 1 then
    let t := startUnit p u q.arg
    let s := setUnit s n t
    if t.st == .sense && u.st != .sense then bump s 6 0 else s
  else if q.op = 2 then setUnit s n (stopUnit p u (q.arg % 2 == 1))
  else if q.op = 3 then setUnit s n (speedUnit p u q.arg)
  else clearTrip (setUnit s n { u with fault := false, cause := 0, st := if u.st == .fault then .off else u.st }) (groupOf s n)

/-- The due commands of a unit act in order. -/
def actUnitAll : Nat → State → Nat → State
  | 0, s, _ => s
  | fuel + 1, s, n =>
    match (unitAt s n).queue with
    | [] => s
    | q :: _ => if s.tck.count < q.effect then s else actUnitAll fuel (actUnit s n q) n

/-- The commands of a unit at its effect stitch: only while the bay's frame is present (R139, R171). -/
def unitEffect (s : State) (n : Nat) : State := if (portAt s n).landed.isSome then actUnitAll 8 s n else s

/-! ### Inertia (R200) -/

/-- A speed gain of the Flyleaf scaled by an inertia in per mille of the reference. -/
def scaledGain (g per : Nat) : Nat := min (g * per / 1000) 0x7FFF

/-- Write the rescaled KP_W and KI_W of an accepted inertia under R171, at the first locked stitch (R200). -/
def applyInertia (s : State) (n : Nat) : State :=
  let u := unitAt s n
  match u.inertia with
  | some per =>
    if u.locked && runs s n && decide (u.queue.length < 4) then
      let v := scaledGain 0x1800 per * 65536 + scaledGain 0x0030 per
      let e := effectOf s 0
      let s := setUnit s n { u with inertia := none, scaled := true, queue := enqueue u.queue { op := 24, arg := v, effect := e } }
      if h : n < 8 then issue s (.unit ⟨n, h⟩) 24 v e else s
    else s
  | none => s

/-- INERTIA_MEASURED: the two intervals of a complete measurement are the two runs of R191; where they agree within 5 % the second run's result is
accepted (R200). -/
def execInertiaMeasured (unit : Fin 8) (s : State) : Out :=
  let u := unitAt s unit
  let acc := (spdPar s unit).accMax
  match u.accel with
  | none => .next s
  | some a =>
    let first := Config.inertiaOf a.sum1 a.n1 acc
    let second := Config.inertiaOf a.sum2 a.n2 acc
    if !a.whole || a.n1 == 0 || a.n2 == 0 then .next s
    else if (first - second : Int).natAbs * 100 ≤ 5 * second then
      .next (applyInertia (setUnit s unit { u with accel := none, inertia := some second }) unit)
    else .next (setUnit s unit { u with accel := none })

/-- With the disc go the gains accepted for it: the unit takes the Flyleaf's again (R200; when it does, DEDUCED, log entry 209). -/
def flyleafGains (s : State) (n : Nat) : State :=
  let u := unitAt s n
  if !u.scaled then setUnit s n { u with inertia := none }
  else
    let s := queueUnit (setUnit s n { u with inertia := none }) n 24 (0x1800 * 65536 + 0x0030) 0
    if (unitAt s n).result = 0 then setUnit s n { unitAt s n with scaled := false } else s

/-! ### Events of R160 to R164 -/

/-- SENSE_COMPLETE: after 5,000 stitches of SENSE, by the catch-spin table (R163). -/
def execSenseComplete (unit : Fin 8) (s : State) : Out :=
  let u := unitAt s unit
  let p := spdPar s unit
  if u.st != .sense || decide (u.timer < 5000) then .next s
  else
    let w := senseOmega u
    let r := rpmOf p (BitVec.ofInt 32 w)
    if w = 0 then .next (setUnit s unit (toAlign u 1))
    else if 300 ≤ r then .next (bump (setUnit s unit (toRun p u u.senseLast (BitVec.ofInt 32 w))) 6 2)
    else if -60 ≤ r then .next (setUnit s unit { toShort p u (.start 1) with pulsed := false, fraction := 4095 })
    else .next (setUnit s unit (toShort p u .backward))

/-- ALIGN_COMPLETE: after 50,000 stitches RAMP begins (R161). -/
def execAlignComplete (unit : Fin 8) (s : State) : Out :=
  let u := unitAt s unit
  if u.st == .align && decide (50000 ≤ u.timer) then .next (setUnit s unit (toRamp u)) else .next s

/-- RAMP_TIMEOUT: no six crossings within 375,000 stitches: short-brake and the next attempt; after the fourth FAULT cause 1 and
R20 for both surfaces (R164). -/
def execRampTimeout (unit : Fin 8) (s : State) : Out :=
  let u := unitAt s unit
  if u.st != .ramp || decide (u.timer < 375000) || decide (6 ≤ u.validRun) then .next s
  else if u.attempt < 4 then
    .next (bump (setUnit s unit (toShort (spdPar s unit) u (.start (u.attempt + 1)))) 6 1)
  else
    let s := event s 0x0408 6 2 unit 0xFF [1]
    .next (bayLost (setUnit s unit (latchFault (toState u .fault) 1)) unit)

/-- START_BRAKE_END: a start-path brake ends: 75,000 stitches after SENSE, 125,000 after a start timeout, or at 60 rpm of a
backward brake; ALIGN follows (R163, R164). -/
def execStartBrakeEnd (unit : Fin 8) (s : State) : Out :=
  let u := unitAt s unit
  if u.st != .short then .next s
  else match u.brake with
    | .stop => .next s
    | .start a =>
      if (if a = 1 then 75000 else 125000) ≤ u.timer then .next (setUnit s unit (toAlign u a)) else .next s
    | .backward => if u.rpmShort.natAbs ≤ 60 ∧ u.timer < 1000000 then .next (setUnit s unit (toAlign u 1)) else .next s

/-- BACKWARD_BRAKE_TIMEOUT: 60 rpm not reached in 1,000,000 stitches: FAULT cause 6 (R163): a start that failed ends the service of both
surfaces (R20). -/
def execBackwardBrakeTimeout (unit : Fin 8) (s : State) : Out :=
  let u := unitAt s unit
  if u.st == .short && u.brake == .backward && decide (1000000 ≤ u.timer) then
    .next (bayLost (event (setUnit s unit (latchFault (toState u .fault) 6)) 0x0408 6 2 unit 0xFF [6]) unit)
  else .next s

/-- LOSS_OF_SYNC: six missed crossings in RUN: SENSE, or on a second loss within 10 s, absent frames not counted, FAULT cause 2 and COAST
(R160, R170); the lock and with it every grant of the bay is gone (R15). -/
def execLossOfSync (unit : Fin 8) (s : State) : Out :=
  let u := unitAt s unit
  if u.st != .run || decide (u.missedRun < 6) then .next s
  else
    let again := u.lossAge.any (fun k => decide (k ≤ 10 * Config.sec))
    let s := countEvent s 6 4 1 unit 0xFF [if again then 1 else 0]
    let u := { u with lossAge := some 0 }
    if again then .next (bayLost (revokeBay (setUnit s unit (latchFault (toCoast u) 2)) unit) unit)
    else .next (revokeBay (setUnit s unit (toSense u)) unit)

/-- SPINDLE_LOCK: 16 consecutive periods within 0.1 % (R160). -/
def execSpindleLock (unit : Fin 8) (s : State) : Out :=
  let u := unitAt s unit
  if u.st == .run && decide (16 ≤ u.lockRun) then
    .next (applyInertia (setUnit s unit { u with locked := true, outRun := 0 }) unit)
  else .next s

/-- SPINDLE_UNLOCK: two consecutive periods outside 0.3 % (R160); a loss of readiness revokes grants (R15). -/
def execSpindleUnlock (unit : Fin 8) (s : State) : Out :=
  let u := unitAt s unit
  if u.locked && decide (2 ≤ u.outRun) then
    .next (revokeBay (setUnit s unit { u with locked := false, lockRun := 0 }) unit)
  else .next s

/-- OVERSPEED_FAULT: 64 stitches more than 5 % above the limit: SHORT with FAULT cause 4, the bay as after a safe stop (R159). -/
def execOverspeedFault (unit : Fin 8) (s : State) : Out :=
  let u := unitAt s unit
  if u.overRun < 64 then .next s
  else
    let s := countEvent s 6 7 2 unit 0xFF []
    .next (stopBay (setUnit s unit (latchFault { toShort (spdPar s unit) u .stop with pulsed := true, fraction := 1024 } 4)) unit false)

/-- OFF at standstill; the FAULT of a bay reset's unit ends there (R368). -/
def toOff (u : Unit) : Unit :=
  { toState u .off with
    omega := 0, clearAtRest := false, fault := u.fault && !u.clearAtRest, cause := if u.clearAtRest then 0 else u.cause }

/-- STANDSTILL: no sign change of IA, or no back-EMF, for 62,500 stitches (R162): COAST ends OFF, SHORT starts its last 500 ms. -/
def execStandstill (unit : Fin 8) (s : State) : Out :=
  let u := unitAt s unit
  if u.standRun < 62500 then .next s
  else match u.st with
    | .coast => .next (setUnit s unit (toOff u))
    | .short => if u.stood.isSome then .next s else .next (setUnit s unit { u with stood := some 0, rpmShort := 0 })
    | _ => .next s

/-- SHORT_BRAKE_COMPLETE: 125,000 stitches after standstill the unit is OFF (R161). -/
def execShortBrakeComplete (unit : Fin 8) (s : State) : Out :=
  let u := unitAt s unit
  if u.st == .short && u.brake == .stop && u.stood.any (fun k => decide (125000 ≤ k)) then
    .next (setUnit s unit (toOff u))
  else .next s

/-! ### Bus groups (R167, R168) -/

/-- Bays of a bus group whose units this twin computes. -/
def computedOf (s : State) (g : Nat) : List Nat := (List.range 8).filter (fun b => groupOf s b = g ∧ (pairAt s b).role ≠ 0)

/-- Bays of a bus group. -/
def baysOf (s : State) (g : Nat) : List Nat := (List.range 8).filter (fun b => groupOf s b = g)

/-- A group becomes blocked: every unit of it in REGEN changes to SHORT (R167). -/
def blockGroup (s : State) (g : Nat) : State :=
  let s := if s.bus.blocked.getLsbD g then s else bump s 6 5
  let s := { s with bus := { s.bus with blocked := s.bus.blocked ||| ((1 : Byte) <<< g) } }
  (computedOf s g).foldl (fun s b =>
    let u := unitAt s b
    if u.st == .regen then setUnit s b { toShort (spdPar s b) u .stop with pulsed := true, fraction := 1024 } else s) s

/-- Count a frame of bay `b` for its group's clear and trip conditions (R167, R168). -/
def busFrame (s : State) (b : Nat) (f : SampleFrame) : State :=
  let v := (f.spin.getD 0 0).toNat
  let fl := f.spin.getD 3 0
  let sus := 10 * regBits s .spdBusCfg 0 15 0
  let trip := 10 * regBits s .spdBusCfg 0 31 16
  let fine := !fl.getLsbD 1 && decide (v + 1000 < sus)
  let s := { s with bus := { s.bus with
    clean := put s.bus.clean 0 b (if fine then min (getD s.bus.clean 0 b + 1) 250 else 0)
    overT := put s.bus.overT 0 b (if trip < v then min (getD s.bus.overT 0 b + 1) 255 else 0) } }
  if fl.getLsbD 1 || (decide (sus < v) && fl.getLsbD 0) then blockGroup s (groupOf s b) else s

/-- BUS_BLOCK_CLEAR: every bay of the group has been clean for 250 present stitches (R167). -/
def execBusBlockClear (group : Fin 8) (s : State) : Out :=
  if s.bus.blocked.getLsbD group && (baysOf s group).all (fun b => decide (250 ≤ getD s.bus.clean 0 b)) then
    .next { s with bus := { s.bus with blocked := s.bus.blocked &&& ~~~((1 : Byte) <<< group.val) } }
  else .next s

/-- BUS_TRIP: the trip voltage stood for the trip stitches: COAST with FAULT cause 3, coast stop, R20 (R168, R170). -/
def execBusTrip (group : Fin 8) (s : State) : Out :=
  let n := regBits s .spdBusCfg2 0 7 0
  if (baysOf s group).any (fun b => decide (n ≤ getD s.bus.overT 0 b) && decide (0 < getD s.bus.overT 0 b)) &&
      !s.bus.tripped.getLsbD group then
    let s := countEvent s 6 6 2 0xFF 0xFF [group]
    let s := { s with bus := { s.bus with tripped := s.bus.tripped ||| ((1 : Byte) <<< group.val) } }
    .next ((computedOf s group).foldl (fun s b =>
      let u := unitAt s b
      let s := if 64 ≤ u.overRun then countEvent s 6 7 2 b 0xFF [] else s
      stopBay (setUnit s b (latchFault (toCoast u) 3)) b true) s)
  else .next s

/-- A frame with OVERCURRENT or STAGE_FAULT: COAST with FAULT cause 5, coast stop (R169). -/
def stageFault (s : State) (b : Nat) (f : SampleFrame) : State :=
  let fl := f.spin.getD 3 0
  let u := unitAt s b
  if (fl.getLsbD 2 || fl.getLsbD 3) && !(u.fault && u.cause == 5) then
    stopBay (event (setUnit s b (latchFault (toCoast u) 5)) 0x0407 6 2 b 0xFF [5]) b true
  else s

end Sys2Proof.Machine
end

