-- ==== Sys2Proof/Machine/MotionCmd.lean ====
section
/-! DEFINITION. The axis commands, their effect stitch, the axis inputs of a frame, homing and following
(09_motion.md R173 to R187). -/

namespace Sys2Proof.Machine

/-- Accept a command for an axis, or refuse it; the host's reaches it while BAR2 takes writes (R6, R171). -/
def acceptAxis (s : State) (n : Nat) (src : Src) (op arg : Nat) : State :=
  if !mayCommand s src then s else queueAxis s n op arg (reg s .motAxisCtlAt n)

/-- MOVE (R178). -/
def execMotMove (axis : Fin 32) (src : Src) (target : BitVec 20) (s : State) : Out := .next (acceptAxis s axis src 1 target.toNat)
/-- RAMP_STOP (R181). -/
def execMotRampStop (axis : Fin 32) (src : Src) (s : State) : Out := .next (acceptAxis s axis src 2 0)
/-- HARD_STOP (R181). -/
def execMotHardStop (axis : Fin 32) (src : Src) (s : State) : Out := .next (acceptAxis s axis src 3 0)
/-- HOME (R184). -/
def execMotHome (axis : Fin 32) (src : Src) (s : State) : Out := .next (acceptAxis s axis src 4 0)
/-- RELEASE (R185). -/
def execMotRelease (axis : Fin 32) (src : Src) (s : State) : Out := .next (acceptAxis s axis src 5 0)
/-- ENERGISE (R185). -/
def execMotEnergise (axis : Fin 32) (src : Src) (s : State) : Out := .next (acceptAxis s axis src 6 0)
/-- CLEAR: FAULT ends (R176). -/
def execMotClear (axis : Fin 32) (src : Src) (s : State) : Out := .next (acceptAxis s axis src 7 0)

/-- MOVE at its effect stitch (R177, R178, R181, R187): starts if IDLE, takes the pending slot if busy or stopped hard in this stitch;
result 2 refused, 3 busy. -/
def moveAxis (a : Axis) (n t : Nat) : Axis :=
  match a.st with
  | .idle =>
    if !a.hold then startMove a ((t : Int) * unitStep) false
    else if a.pending.isSome then { a with result := 3 } else { a with pending := some ((t : Int) * unitStep) }
  | .moving | .stopping | .homing =>
    if a.pending.isSome then { a with result := 3 } else { a with pending := some ((t : Int) * unitStep) }
  | _ => { a with result := 2 }

/-- RAMP_STOP at its effect stitch: brake at AMAX; the running and pending moves end (R181). A limit's stop keeps EDEC (R187). -/
def rampStop (a : Axis) : Axis :=
  match a.st with
  | .moving | .homing =>
    if a.hold then { a with pending := none }
    else { a with st := .stopping, pending := none, follow := false, arrived := false, aC := 0 }
  | _ => { a with pending := none }

/-- RELEASE (R176, R177, R185): PARKING first with RETAIN_EN where the position is known, else DOWN. -/
def releaseAxis (m : MotPar) (a : Axis) : Axis :=
  let down := { toDown a false with released := true }
  match a.st with
  | .down | .parking => a
  | .unknown => down
  | .idle => if m.retainEn then toParking m a else down
  | .moving | .stopping | .homing =>
    if !a.known then down
    else if a.limitStop ∨ a.due ≠ 0 ∨ !m.retainEn then { a with result := 2 } else toParking m a

/-- A command of an axis at its effect stitch (R176 to R185). -/
def actAxisOp (m : MotPar) (n : Nat) (a : Axis) (q : QCmd) : Axis :=
  if axisBad a n q.op q.arg then { a with result := 2 }
  else match q.op with
  | 1 => moveAxis a n q.arg
  | 2 => rampStop a
  | 3 => hardStop a
  | 4 =>
    if a.st == .unknown || a.st == .idle then
      { a with st := .homing, homeOut := false, homeFrom := a.p, pending := none }
    else { a with result := 2 }
  | 5 => releaseAxis m a
  | 6 => if a.st == .down || a.st == .parking then { a with energise := true } else a
  | 7 => { a with fault := false, cause := 0 }
  | _ => a

/-- The command at the head of an axis's queue acts. -/
def actAxis (s : State) (n : Nat) (q : QCmd) : State :=
  let a := { axisAt s n with queue := (axisAt s n).queue.drop 1 }
  if 16 ≤ q.op then configWrite (setAxis s n a) 0xB01000 n q
  else
    let a' := actAxisOp (motPar s n) n a q
    let s := setAxis s n a'
    if q.op = 1 ∧ a'.result = 3 ∧ a'.pending = a.pending ∧ a.pending.isSome then bump s 7 1 else s

/-- The due commands of an axis act in order. -/
def actAxisAll : Nat → State → Nat → State
  | 0, s, _ => s
  | fuel + 1, s, n =>
    match (axisAt s n).queue with
    | [] => s
    | q :: _ => if s.tck.count < q.effect then s else actAxisAll fuel (actAxis s n q) n

/-- The commands of an axis at its effect stitch: only while the bay's frame is present. -/
def axisEffect (s : State) (n : Nat) : State := if (portAt s (axisBay n)).landed.isSome then actAxisAll 8 s n else s

/-! ### Input words of a frame (R173, R175, R177, R182, R184, R185) -/

/-- A change that the frame decides for the next edge, and its counters: entries to unknown position, index mismatches, restores. -/
def noteChange (s : State) (n code : Nat) : State :=
  let a := axisAt s n
  let s := setAxis s n { a with due := code }
  let s := if code = 2 then bump s 7 6 else s
  if code = 7 then bump s 7 7 else if code = 6 ∨ a.st = .unknown then s else bump s 7 3

/-- The reported phase index is the one the position stands for (R175). -/
def phaseHolds (m : MotPar) (a : Axis) (w : Half) : Bool := ((w.toNat % 1024 : Nat) : Int) == phaseOf m.sled a.p

/-- Power, driver fault and phase index of a present frame (R175 to R177, R185). The index of an axis that does not know its position
has nothing to be held against (log entry 175). -/
def powerInput (s : State) (n : Nat) (w : Half) : State :=
  let a := axisAt s n
  let m := motPar s n
  if w.getLsbD 11 then (if a.st = .unknown ∧ a.cause = 5 then s else noteChange s n 5)
  else if !w.getLsbD 13 then
    if a.st = .down then s else if a.st = .parking ∧ a.parkSent then noteChange s n 6 else noteChange s n 3
  else if a.st = .down then
    if !a.energise then s
    else if !w.getLsbD 12 then noteChange s n 8
    else noteChange s n (if phaseHolds m a w then 7 else 2)
  else if a.known ∧ a.st ≠ .unknown ∧ !phaseHolds m a w then noteChange s n 2
  else s

/-- Limit inputs (R182): they act only while the axis moves towards them; homing ignores INNER. Mode 0 stops the axis in the stitch, mode
1 brakes at EDEC; either ends in UNKNOWN at rest. -/
def limitInput (s : State) (n : Nat) (w : Half) : State :=
  let a := axisAt s n
  let m := motPar s n
  let hit := (w.getLsbD 15 && decide (a.v < 0) && a.st != .homing) || (w.getLsbD 14 && decide (0 < a.v))
  if !hit || a.limitStop || a.due != 0 || !(a.st == .moving || a.st == .stopping || a.st == .homing || a.st == .parking) then s
  else
    let f := { a with fault := true, cause := 1, pending := none, follow := false, arrived := false }
    let s := bump s 7 2
    if m.limitRamp then setAxis s n { f with st := .stopping, limitStop := true }
    else noteChange (setAxis s n { f with v := 0, aC := 0, hold := true }) n 1

/-- Homing inputs (R184): INNER stops the axis hard and turns it; its clearing sets the position in the stitch of that frame. -/
def homeInput (s : State) (n : Nat) (w : Half) : State :=
  let a := axisAt s n
  if a.st != .homing || a.due != 0 then s
  else if !a.homeOut then (if w.getLsbD 15 then setAxis s n { a with homeOut := true, v := 0, hold := true } else s)
  else if w.getLsbD 15 then s
  else
    bump (setAxis s n { a with st := .idle, p := (motPar s n).homeOff * unitStep, v := 0, aC := 0, known := true, hold := true }) 7 4

/-- The input word of an axis in a landed frame. -/
def axisInput (s : State) (n : Nat) (w : Half) : State :=
  let a := axisAt s n
  let s := setAxis s n { a with inBits := w.toNat / 1024, phase := w.toNat % 1024 }
  homeInput (limitInput (powerInput s n w) n w) n w

/-- HOMING_TIMEOUT: INNER not seen within the soft range plus 10 %: UNKNOWN with FAULT cause 4 (R184). -/
def execHomingTimeout (axis : Fin 32) (s : State) : Out :=
  let a := axisAt s axis
  let m := motPar s axis
  if a.st == .homing && !a.homeOut && decide (softRange m.sled * 11 * unitStep ≤ 10 * (a.homeFrom - a.p)) then
    .next (bump (setAxis s axis (toUnknown a 4)) 7 3)
  else .next s

/-! ### Following (R186) -/

/-- The count of stitches in which the tracking cell's low-frequency term stands above FOLLOW_TH with one sign (R186). Following pauses,
the count kept, while the sled is not IDLE or tracking neither CLOSED nor in SEQUENCE. -/
def followCount (s : State) (n : Nat) : State :=
  let a := axisAt s n
  let m := motPar s n
  match cellOf s n 1 with
  | none => s
  | some t =>
    let c := cellAt s t
    if !m.followEn || a.st != .idle || !(c.st == .closed || c.st == .sequence) then s
    else if m.followTh < (c.lowTerm.natAbs : Int) then
      let neg := decide (c.lowTerm < 0)
      setAxis s n { a with followRun := if neg = a.followSign then a.followRun + 1 else 1, followSign := neg }
    else setAxis s n { a with followRun := 0 }

/-- FOLLOW_MOVE_START: the term stood above FOLLOW_TH for FOLLOW_ST stitches: an internal move of FOLLOW_STEP (R186). -/
def execFollowMoveStart (axis : Fin 16) (s : State) : Out :=
  let a := axisAt s axis
  let m := motPar s axis
  if m.followEn && a.st == .idle && !a.hold && decide (m.followSt ≤ a.followRun) && decide (0 < a.followRun) &&
      ((cellOf s axis 1).map (cellAt s)).any (fun c => c.st == .closed) then
    .next (bump (setAxis s axis
      (startMove a (a.p + (if a.followSign then -m.followStep else m.followStep) * unitStep) true)) 7 5)
  else .next s

end Sys2Proof.Machine
end

