-- ==== Sys2Proof/Machine/ServoCmd.lean ====
section
/-! DEFINITION. The servo commands CLOSE, OPEN, JUMP, SEEK and OFFSET, their effect stitch, and the events of a cell's
sequences, holds and retractions (07_servo_loops.md R136 to R151, R404). -/

namespace Sys2Proof.Machine

/-! ### Acceptance (R139) -/

/-- Accept a command for a cell, or refuse it (R139): the host's reaches the cell while BAR2 takes writes (R6). -/
def acceptCell (s : State) (n : Nat) (src : Src) (op arg : Nat) (bad : Bool) : State :=
  if !mayCommand s src then s else queueCell s n op arg bad (reg s .srvCellCtlAt n)

/-- CLOSE (R138). -/
def execSrvClose (cell : Fin 96) (src : Src) (s : State) : Out :=
  .next (acceptCell s cell src 1 0 (inHold s ((cellAt s cell).opu / 2)))

/-- OPEN (R137). -/
def execSrvOpen (cell : Fin 96) (src : Src) (s : State) : Out := .next (acceptCell s cell src 2 0 false)

/-- JUMP (R147): to a focus cell only. -/
def execSrvJump (cell : Fin 96) (src : Src) (target present : BitVec 4) (given : Bool) (s : State) : Out :=
  .next (acceptCell s cell src 3 (target.toNat + 16 * present.toNat + (if given then 256 else 0)) ((cellAt s cell).loop != 0))

/-- SEEK (R148): to a tracking cell only, of at most SHORT_MAX tracks. -/
def execSrvSeek (cell : Fin 96) (src : Src) (tracks : BitVec 24) (s : State) : Out :=
  let c := cellAt s cell
  .next (acceptCell s cell src 4 tracks.toNat (c.loop != 1 || decide (sw c 5 < tracks.toInt.natAbs)))

/-- OFFSET (R142): component 3 names none. -/
def execSrvOffset (cell : Fin 96) (src : Src) (component : BitVec 2) (value : Half) (s : State) : Out :=
  .next (acceptCell s cell src 5 (component.toNat * 65536 + value.toNat) (component == 3))

/-! ### The effect stitch (R139, R151) -/

/-- The track that a SEEK aims at, in tracks of the spiral: the last address unit's band and the tracks to go (R148). -/
def aimSeek (s : State) (opu : Nat) (d : Int) : State :=
  let p := portAt s (opu / 2)
  match look p.addrFrame (opu % 2) with
  | some f => setPort s (opu / 2) { p with addrTarget := ins p.addrTarget (opu % 2) (4 * (frameBand f : Int) + d) }
  | none => s

/-- What a command at the head of a cell's queue does now: none while it is held there (R138, R151). Where the table of R137 names no
effect the command is consumed: an OPEN of a SUSPENDED, PARKED or retracting cell without effect, a JUMP or SEEK of a PARKED or
retracting cell, or a JUMP without a present layer, with result 2 (DESIGN CHOICE, log entry 168). -/
def actCell (s : State) (n : Nat) (q : QCmd) : Option State :=
  let c := cellAt s n
  let done (s : State) : State := let d := cellAt s n; setCell s n { d with queue := d.queue.drop 1, effect := q.effect }
  let drop_ (s : State) : State := cellResult (done s) n 2
  let other (l : Nat) : SeqKind := ((cellOf s c.opu l).map (fun m => (cellAt s m).seq.kind)).getD .none
  if q.op = 1 then
    if c.st == .retract then none
    else if c.st != .parked then some (done s)
    else
      match (prereqOf s c).map (cellAt s) with
      | some p => if p.st == .closed then some (done (setCell s n (enterSearch { c with fault := false, cause := 0, xm := [] } (park c))))
                  else none
      | none => some (done (setCell s n (enterSearch { c with fault := false, cause := 0, xm := [] } (park c))))
  else if q.op = 2 then
    if c.st == .closed || c.st == .sequence || c.st == .held || (c.st == .search && c.seq.kind != .none) then
      some (done (retractCell s n 6 false))
    else some (done s)
  else if q.op = 3 then
    if c.st == .parked || c.st == .retract then some (drop_ s)
    else if c.st != .closed || c.seq.kind != .none || other 1 == .seek then none
    else
      let l0 := if bits q.arg 8 8 = 1 then some (bits q.arg 7 4) else c.layer
      let t := bits q.arg 3 0
      let c := { c with layer := l0 }
      match l0 with
      | none => some (drop_ s)
      | some l =>
        if l = t then some (done (setCell s n c))
        else some (bump (done (setCell s n { enter c .sequence with
          seq := { kind := .jump, step := .kick, target := t, deeper := decide (t < l), remain := ((t : Int) - l).natAbs } })) 5 3)
  else if q.op = 4 then
    if c.st == .retract || (c.st == .parked && other 0 != .acquire) then some (drop_ s)
    else if c.st != .closed || c.seq.kind != .none || other 0 == .jump || other 0 == .acquire then none
    else
      let d := sx 24 q.arg
      if d = 0 then some (done s)
      else some (bump (done (setCell s n { enter c .sequence with
        seq := { kind := .seek, step := .kick, d := d, remain := d, needLeave := false } }) |> (aimSeek · c.opu d)) 5 5)
  else
    let v := sat16 (trunc (sx 16 q.arg * (cw c 12 : Int)) 256)
    let c := match bits q.arg 17 16 with
      | 0 => { c with cal := v }
      | 1 => { c with sweep := v }
      | _ => { c with trial := v }
    some (done (setCell s n c))

/-- Let the due commands of a cell act, oldest first, until one is held. -/
def actCellAll : Nat → State → Nat → State
  | 0, s, _ => s
  | fuel + 1, s, n =>
    match (cellAt s n).queue with
    | [] => s
    | q :: _ =>
      if s.tck.count < q.effect then s
      else match actCell s n q with
        | none => s
        | some t => actCellAll fuel t n

/-- The commands of a cell at its effect stitch: they act only while the bay's frame of the stitch is present (R139). -/
def cellEffect (s : State) (n : Nat) : State :=
  let b := (cellAt s n).opu / 2
  if (portAt s b).landed.isSome then cascade (actCellAll 8 s n) (cellAt s n).opu else s

/-! ### Sequence events: their conditions, and what they do (R146 to R148) -/

/-- Acquisition has reached S_LIMIT, or pull-in T_TIMEOUT, without capture (R146, R148). -/
def searchExpired (c : Cell) : Bool :=
  c.st == .search && !c.captured && match c.loop with
    | 0 => decide (swS c 8 * 256 ≤ c.searchPos) && decide (0 < c.seq.total)
    | 1 => decide (sw c 7 ≤ c.seq.total)
    | _ => false

/-- SEARCH_TIMEOUT: RETRACT with FAULT cause 4 (R137, R146, R148). -/
def execSearchTimeout (cell : Fin 96) (s : State) : Out :=
  let c := cellAt s cell
  if searchExpired c then .next (dropUnready (cascade (bump (retractCell s cell 4 true) 5 8) c.opu) c.opu) else .next s

/-- A step of the cell's running sequence of this kind and step has run for `n` present stitches. -/
def stepOver (c : Cell) (k : SeqKind) (st : SeqStep) (n : Nat) : Bool :=
  c.seq.kind == k && c.seq.step == st && decide (n ≤ c.seq.stepSt) && !due c

/-- JUMP_KICK_END: σ returns to zero and capture is disarmed (R147 step 1). -/
def execJumpKickEnd (cell : Fin 96) (s : State) : Out :=
  let c := cellAt s cell
  if stepOver c .jump .kick (sw c 1) then
    .next (setCell s cell { c with seq := { c.seq with step := .coast, stepSt := 0, armed := false } })
  else .next s

/-- JUMP_BRAKE_END: CLOSED with the integrator preset (R147 step 4); a dwell follows while layers remain, else the settle. -/
def execJumpBrakeEnd (cell : Fin 96) (s : State) : Out :=
  let c := cellAt s cell
  if stepOver c .jump .brake (sw c 3) && c.st == .sequence then
    .next (setCell s cell (closeAt { c with seq := { c.seq with
      step := if 0 < c.seq.remain then .dwell else .settle, stepSt := 0 } } c.seq.pre))
  else .next s

/-- JUMP_DWELL_END: after 16 stitches CLOSED the next single jump starts with its kick (R147). -/
def execJumpDwellEnd (cell : Fin 96) (s : State) : Out :=
  let c := cellAt s cell
  if stepOver c .jump .dwell 16 && c.st == .closed then
    .next (setCell s cell { enter c .sequence with seq := { c.seq with step := .kick, stepSt := 0, total := 0, armed := false } })
  else .next s

/-- JUMP_SETTLE_END: the jump ends; tracking leaves SUSPENDED for pull-in (R147, R137). -/
def execJumpSettleEnd (cell : Fin 96) (s : State) : Out :=
  let c := cellAt s cell
  if stepOver c .jump .settle (sw c 6) && c.st == .closed then
    .next (cascade (setCell s cell { c with seq := {} }) c.opu)
  else .next s

/-- JUMP_TIMEOUT: a single jump without capture within J_TIMEOUT retracts with FAULT cause 5 (R147). -/
def execJumpTimeout (cell : Fin 96) (s : State) : Out :=
  let c := cellAt s cell
  if c.st == .sequence && c.seq.kind == .jump && (c.seq.step == .kick || c.seq.step == .coast) && !c.captured &&
      decide (sw c 5 ≤ c.seq.total) && !due c then
    .next (dropUnready (cascade (retractCell s cell 5 true) c.opu) c.opu)
  else .next s

/-- SEEK_KICK_END: from the next stitch on the velocity law applies (R148 step 4). -/
def execSeekKickEnd (cell : Fin 96) (s : State) : Out :=
  let c := cellAt s cell
  if stepOver c .seek .kick (sw c 1) then
    .next (setCell s cell { c with seq := { c.seq with step := if c.seq.d = 0 then .window else .velocity, stepSt := 0 } })
  else .next s

/-- SEEK_CAPTURE_WINDOW_END: the window ran out, so no crossing counts until D has left 0 (R148 step 5). -/
def execSeekCaptureWindowEnd (cell : Fin 96) (s : State) : Out :=
  let c := cellAt s cell
  if c.seq.kind == .seek && c.st == .sequence && !c.captured && decide (0 < c.seq.win) && decide (sw c 6 ≤ c.seq.win) then
    .next (setCell s cell { c with seq := { c.seq with
      needLeave := true, win := 0, step := if c.seq.step = .window then .velocity else c.seq.step } })
  else .next s

/-- SEEK_SETTLE_END: the seek ends; tilt and yaw resume (R148). -/
def execSeekSettleEnd (cell : Fin 96) (s : State) : Out :=
  let c := cellAt s cell
  if stepOver c .seek .settle (sw c 8) && c.st == .closed then
    .next (cascade (setCell s cell { c with seq := {} }) c.opu)
  else .next s

/-- SEEK_TIMEOUT: no close within T_TIMEOUT: RETRACT with FAULT cause 5 (R148). -/
def execSeekTimeout (cell : Fin 96) (s : State) : Out :=
  let c := cellAt s cell
  if c.st == .sequence && c.seq.kind == .seek && !c.captured && decide (sw c 7 ≤ c.seq.total) && !due c then
    .next (dropUnready (cascade (retractCell s cell 5 true) c.opu) c.opu)
  else .next s

/-- HOLD_MAX_EXPIRY: HOLD_MAX stitches in HELD: RETRACT with FAULT cause 1 (R137); the OPU's service ends as with a loop that a
plausibility action opens (R15, R20). -/
def execHoldMaxExpiry (cell : Fin 96) (s : State) : Out :=
  let c := cellAt s cell
  if c.st == .held && decide (holdMax c ≤ c.holdSt) && decide (c.zeroSt < nPlaus c) then
    .next (surfaceLost (revokeGrants (cascade (retractCell s cell 1 true) c.opu) c.opu) c.opu)
  else .next s

/-- HOLD_RELEASE: cnt has been 0 for N stitches: CLOSED, the law states resuming (R137). -/
def execHoldRelease (cell : Fin 96) (s : State) : Out :=
  let c := cellAt s cell
  if c.st == .held && decide (nPlaus c ≤ c.zeroSt) then .next (cascade (setCell s cell (enter c .closed)) c.opu) else .next s

/-- Every named cell of an OPU but focus is PARKED. -/
def othersParked (s : State) (opu : Nat) : Bool :=
  [1, 2, 3].all (fun l => match cellOf s opu l with | some n => (cellAt s n).st == .parked | none => true)

/-- In Hold entry a focus cell retracts once the other three cells of its OPU are PARKED (R137, R151). The spec gives such a retract no
CAUSE code: it shows 0 (DESIGN CHOICE, log entry 169). -/
def holdFocus (s : State) (opu : Nat) : State :=
  if (bayAt s (opu / 2)).holdEntry && othersParked s opu then
    match cellOf s opu 0 with
    | some n => if (cellAt s n).st == .parked || (cellAt s n).st == .retract then s else retractCell s n 0 false
    | none => s
  else s

/-! ### Hold entry (R378) -/

/-- A command of the domain controller for a spindle unit (R11, R171), accepted or refused as any other (R139). -/
def orderUnit (s : State) (n op arg : Nat) : State := queueUnit s n op arg 0

/-- Order an operation of a unit unless one of the same kind is queued. -/
def orderUnitOnce (s : State) (n op arg : Nat) : State :=
  if (unitAt s n).queue.any (fun q => q.op = op) then s else orderUnit s n op arg

/-- Every loop cell of a bay is PARKED. -/
def allParked (s : State) (b : Nat) : Bool := (bayCells s b).all (fun n => (cellAt s n).st == .parked)

/-- Steps 3 to 5 of Hold entry, once step 2 has parked every cell: the emitters go off, the spindle gets STOP with bit 0 clear (R165) unless
a mode that leaves Hold waits (R379), the axes stop. -/
def holdRest (s : State) (b : Nat) : State :=
  if !(bayAt s b).holdEntry || !(bayAt s b).grants.isEmpty || !allParked s b then s
  else
    let s := setPort s b { portAt s b with readEn := 0, spotEn := 0 }
    let u := unitAt s b
    let s := if (bayAt s b).enablePending.isNone && (u.st == .run || startPath u) then orderUnitOnce s b 2 0 else s
    forEach (bayAxes b) (fun s n =>
      let a := axisAt s n
      if (a.st == .moving || a.st == .homing) && !a.queue.any (fun q => q.op = 2) then orderAxis s n 2 0 else s) s

/-- Step 2 of Hold entry: the cells retract, focus last (R137, R151); steps 3 to 5 follow when all are PARKED. -/
def holdRetract (s : State) (b : Nat) : State :=
  let s := forEach (bayCells s b) (fun s n =>
    let c := cellAt s n
    if c.loop = 0 ∨ c.st = .parked ∨ c.st = .retract then s else retractCell s n 0 false) s
  holdRest (holdFocus (holdFocus s (2 * b)) (2 * b + 1)) b

/-- RETRACT_COMPLETE: the ramp has reached PARK: PARKED, states zero, offsets zero (R136, R137). -/
def execRetractComplete (cell : Fin 96) (s : State) : Out :=
  let c := cellAt s cell
  if c.st == .retract && decide (retractLen c ≤ c.rampI) then
    .next (holdRest (holdFocus (cascade (setCell s cell (enterParked c)) c.opu) c.opu) (c.opu / 2))
  else .next s

/-! ### Plausibility actions (R43, R149, R151, R403) -/

/-- Cells of an OPU whose count stands at N or more. -/
def dueCells (s : State) (opu : Nat) : List Nat :=
  (s.cells.filter (fun e => e.2.named && e.2.opu == opu && due e.2)).map (·.1)

/-- Take one action on every due cell of an OPU: 0 hold, 1 open the loop. A repeated action 0 changes nothing. -/
def plausHoldOpen (s : State) (opu act : Nat) : State :=
  let ns := dueCells s opu
  let many := decide (1 < ns.length)
  let s := ns.foldl (fun s n =>
    let c := cellAt s n
    if act = 0 then
      if c.st == .held then s
      else setCell (seqFailed s c) n (enterHeld { c with cause := if many && !c.fault then 1 else c.cause })
    else retractCell s n 1 true) s
  cascade s opu

/-- PLAUSIBILITY_ACTION: the count of a cell stands at N or more; the strongest action of its OPU's due cells is taken. -/
def execPlausibilityAction (cell : Fin 96) (s : State) : Out :=
  let c := cellAt s cell
  if !due c then .next s
  else
    let act := ((dueCells s c.opu).map (fun n => (cellAt s n).action)).foldl max 0
    let held := (dueCells s c.opu).all (fun n => (cellAt s n).st == .held)
    let s := if act = 0 ∧ held then s else failRunning s c.opu
    if act = 2 then
      let s := countEvent s 5 2 2 (c.opu / 2) c.opu [cell]
      .next (stopBay s (c.opu / 2) false)
    else if act = 1 then
      let s := countEvent s 5 1 2 (c.opu / 2) c.opu [cell]
      .next (surfaceLost (revokeGrants (plausHoldOpen s c.opu 1) c.opu) c.opu)
    else if held then .next s
    else
      .next (revokeGrants (plausHoldOpen (countEvent s 5 0 1 (c.opu / 2) c.opu [cell]) c.opu 0) c.opu)

end Sys2Proof.Machine
end

