-- ==== Sys2Proof/Machine/Wire.lean ====
section
/-! DEFINITION. Frames and packets as bytes: the sample frame, spot packets, the command frame and the keepalive (16_headband_link.md R310, R312
to R316), the heartbeat (15_twin_pair.md R298). Multi-byte fields are little-endian, and every frame ends in a CRC-32C over all before it. -/

namespace Sys2Proof.Machine

/-- The first `n` of a list of 16-bit words, little-endian; absent words are zero. -/
def halves (n : Nat) (hs : List Half) : Bytes := (List.range n).flatMap (fun i => natLe 2 (hs.getD i 0).toNat)

/-- One bit of a byte. -/
def bitIf (b : Bool) (i : Nat) : Nat := if b then 2 ^ i else 0

/-- A body with its CRC-32C (R310). -/
def sealed (b : Bytes) : Bytes := b ++ natLe 4 (crc32c b).toNat

/-- The 12 bytes of a wobble record (R313). -/
def wobbleBytes (w : Wobble) : Bytes :=
  natLe 7 w.word.toNat ++ natLe 2 w.stitch16.toNat ++ natLe 2 (w.offset.toNat + bitIf w.valid 15) ++ [0]

/-- The 8 bytes of an emitter record (R313). -/
def emitterBytes (e : Emitter) : Bytes :=
  natLe 2 e.iPw.toNat ++ natLe 2 e.iNow.toNat ++ natLe 2 e.iLim.toNat ++ [BitVec.ofNat 8 (bitIf e.pwMissed 0 + bitIf e.pbMissed 1 + bitIf e.on 2), e.streamEnd]

/-- A signed 16-bit field. -/
def signed16 (v : Int) : Bytes := natLe 2 (v % 65536).toNat

/-- The 368 bytes of a sample frame (R312). -/
def sampleFrameBytes (f : SampleFrame) : Bytes :=
  sealed ([0xA1, BitVec.ofNat 8 (16 + f.bay.val),
    BitVec.ofNat 8 (f.obeys.toNat + bitIf f.safeStop 2 + bitIf f.holding 3 + bitIf f.reset 4 + bitIf f.disc 5 + bitIf f.readySeen 6 + bitIf f.align 7),
    BitVec.ofNat 8 f.misses.toNat, BitVec.ofNat 8 f.slice.val] ++ zeros 3 ++ natLe 8 f.stitch.toNat ++ halves 32 f.sensA ++ halves 32 f.sensB ++
    halves 16 f.spin ++ halves 4 f.axis ++ fit 8 f.ident ++ (List.range 8).flatMap (fun e => wobbleBytes (f.wobble.getD e {})) ++
    (List.range 8).flatMap (fun e => emitterBytes (f.emit.getD e {})) ++ signed16 f.tempA ++ signed16 f.tempB ++ [f.eyeD0, f.eyeD1] ++
    [BitVec.ofNat 8 f.faults.toNat] ++ zeros 5)

/-- The 268 bytes of a spot packet (R314). -/
def spotPacketBytes (spot : Fin 16) (stitch16 offset : Half) (samples : Bytes) : Bytes :=
  sealed ([0xB1, BitVec.ofNat 8 spot.val] ++ natLe 2 stitch16.toNat ++ natLe 2 offset.toNat ++ zeros 2 ++ fit 256 samples)

/-- The 128 bytes of a command frame (R315). -/
def cmdFrameBytes (f : CmdFrame) : Bytes :=
  sealed ([0xC1, BitVec.ofNat 8 (16 + f.bay.val),
    BitVec.ofNat 8 (bitIf f.safeStop 0 + bitIf f.coast 1 + bitIf f.claim 2 + bitIf f.owner 3 + bitIf f.handover 4), f.hold] ++ natLe 2 f.launch.toNat ++ zeros 2 ++
    natLe 8 f.stitch.toNat ++ halves 8 f.u ++ halves 3 f.spin ++ zeros 2 ++ halves 4 f.axis ++ natLe 8 f.hStitch.toNat ++
    [f.readEn, BitVec.ofNat 8 f.rate.toNat] ++ natLe 2 f.spotEn.toNat ++ zeros 4 ++
    (List.range 8).flatMap (fun e => natLe 2 (f.pb.getD e 0).toNat) ++ (List.range 16).map (fun i => (f.gain.getD i 0).setWidth 8) ++
    (List.range 16).map (fun i => (f.offs.getD i 0).signExtend 8) ++ [BitVec.ofNat 8 (bitIf f.wake 0 + 2 * f.retrain.toNat)] ++ zeros 11)

/-- The 24 bytes of a keepalive; its launch offset is that of a command frame (R311, R316). -/
def keepaliveBytes (k : Keepalive) : Bytes :=
  sealed ([0xC2, BitVec.ofNat 8 k.bay.val, BitVec.ofNat 8 (bitIf k.ready 0), k.cause] ++ natLe 2 3200 ++ zeros 2 ++ natLe 8 k.stitch.toNat ++ zeros 4)

/-- The object byte of a heartbeat's command (R298). -/
def objCode : Obj → Nat
  | .cell n => n
  | .unit n => 0x80 + n
  | .axis n => 0xC0 + n

/-- The 16 bytes of a heartbeat's command (R298). -/
def hbCmdBytes (c : HbCmd) : Bytes :=
  [BitVec.ofNat 8 (objCode c.obj), c.op] ++ natLe 4 c.arg.toNat ++ zeros 2 ++ natLe 8 c.effect.toNat

/-- The body of a heartbeat (R298). -/
def heartbeatBytes (h : Heartbeat) : Bytes :=
  natLe 8 h.count.toNat ++ [BitVec.ofNat 8 h.sender.val,
    BitVec.ofNat 8 (bitIf h.master 0 + bitIf h.single 1 + bitIf h.vaultOk 2 + bitIf h.paired 3), h.run, h.ready, h.absent, h.overrun, h.capture,
    BitVec.ofNat 8 h.cmds.length] ++ (List.range 8).flatMap (fun b => natLe 4 (h.digests.getD b 0).toNat) ++ natLe 8 h.hStitch.toNat ++
    natLe 8 h.kStitch.toNat ++ h.cmds.flatMap hbCmdBytes

/-- The command digest of a frame (R298): CRC-32C over its byte 0x002, bits 7 to 2 taken as zero, and its bytes 0x010 to 0x02F. -/
def digestOf (f : CmdFrame) : Word :=
  let b := cmdFrameBytes f
  crc32c ((b.getD 2 0 &&& 3) :: (b.drop 0x10).take 0x20)

end Sys2Proof.Machine
end

