-- ==== Sys2Proof/Machine/Stitch.lean ====
section
/-! DEFINITION. One stitch of a twin (03_stitch.md R41 to R46): the computation of cells, units and axes, the command frame, the
keepalive and the heartbeat that go out (R293, R298, R315, R316), and the changes at the edge. -/

namespace Sys2Proof.Machine

/-! ### Computing a bay -/

/-- Sensor words of an OPU in a frame. -/
def frameSens (f : SampleFrame) (opu : Nat) : List Half := if opu % 2 = 0 then f.sensA else f.sensB

/-- The frame a bay computes from in this stitch: the landed one, of a bay the twin runs or shadows. -/
def computing (s : State) (b : Nat) : Option SampleFrame :=
  if (pairAt s b).role = 0 then none else (portAt s b).landed

/-- Loop laws of slot `k` of the Tick Plan (R32, R33, R134): every named cell of a present bay. -/
def slotCells (s : State) (bays : List Nat) (k : Nat) : State :=
  { s with cells := mapT (fun _ (c : Cell) =>
    if c.named && c.slot == k && bays.contains (c.opu / 2) then
      match (portAt s (c.opu / 2)).landed with
      | some f =>
        let prev := if c.opu % 2 = 0 then (portAt s (c.opu / 2)).prevA else (portAt s (c.opu / 2)).prevB
        let d := stepCell c (frameSens f c.opu) prev ((c.ff.map (fun n => (cellAt s n).u)).getD 0)
        if d.loop = 1 ∧ (d.st = .closed ∨ d.st = .sequence) then { d with lowTerm := lowTermOf d } else d
      | none => c
    else c) s.cells }

/-- Slot P: the models of every named cell of a present bay (R135). -/
def slotP (s : State) (bays : List Nat) : State :=
  { s with cells := mapT (fun _ (c : Cell) =>
    if c.named && bays.contains (c.opu / 2) then
      match (portAt s (c.opu / 2)).landed with
      | some f =>
        let prev := if c.opu % 2 = 0 then (portAt s (c.opu / 2)).prevA else (portAt s (c.opu / 2)).prevB
        stepHold (stepModel c (frameSens f c.opu) prev)
      | none => c
    else c) s.cells }

/-- The spindle unit of a present bay (R154 to R162). -/
def computeUnit (s : State) (b : Nat) : State :=
  match (portAt s b).landed with
  | none => s
  | some f =>
    let p := spdPar s b
    let u := unitAt s b
    let u' := formWords p f.spin (stepUnit p f.spin u)
    let s := setUnit s b u'
    if u.window.isSome ∧ u'.missedRun = u.missedRun + 1 then bump s 6 3 else s

/-- The words that a bay without a frame gets repeat the last, and so does what they float (R44, R152). -/
def repeatFloat (s : State) (b : Nat) : State :=
  if (pairAt s b).role ≠ 0 ∧ (portAt s b).landed.isNone then
    setUnit s b (pushFloat (unitAt s b) ((unitAt s b).floatQ.getLast?.getD none))
  else s

/-- Every due command of a present bay's cells, unit and axes acts (R139, R171). -/
def actDue (s : State) (b : Nat) : State :=
  forEach (bayAxes b) axisEffect (unitEffect (forEach (bayCells s b) cellEffect s) b)

/-- The four axes of a present bay (R180, R186). -/
def computeAxes (s : State) (b : Nat) : State :=
  match (portAt s b).landed with
  | none => s
  | some _ =>
    forEach (bayAxes b) (fun s n =>
      let a := axisAt s n
      let a' := stepAxis (motPar s n) a
      let s := setAxis s n { a' with out := axisWord a' }
      let s := if a.st == .moving && a'.arrived then bump s 7 0 else s
      if n < 16 then followCount s n else s) s

/-- Spike flags of focus and tracking cells of the OPUs being read, kept while a folio read then can still end (R99). -/
def noteSpikes (s : State) (bays : List Nat) : State :=
  let new := (s.cells.filter (fun e => e.2.named && e.2.spike && decide (e.2.loop ≤ 1) && bays.contains (e.2.opu / 2) &&
    runs s (e.2.opu / 2) && (bayAt s (e.2.opu / 2)).grants.any (fun g => g.1 == e.2.opu))).map (fun e => (e.2.opu, now s))
  { s with rdc := { s.rdc with spikes := s.rdc.spikes.filter (fun k => decide (now s < k.2 + 1024)) ++ new } }

/-- The due commands, slots A to D and the spindle and motion engines of the present bays, then slot P (R41, R139). -/
def computeBays (s : State) (bays : List Nat) : State :=
  let s := forEach bays actDue s
  let s := [0, 1, 2, 3].foldl (fun s k => slotCells s bays k) s
  let s := bays.foldl (fun s b => computeAxes (computeUnit s b) b) s
  let n := (s.cells.filter (fun e => e.2.named && e.2.spike && bays.contains (e.2.opu / 2))).length
  slotP (noteSpikes (if n = 0 then s else bumpN s 5 9 n) bays) bays

/-! ### The command frame (R315, R401), the digest (R298, R299), the keepalive (R316) -/

/-- A 16-bit word of an integer. -/
def half (x : Int) : Half := BitVec.ofInt 16 x

/-- Commands u of focus, tracking, tilt and yaw of both OPUs; a cell the Loop Graph does not name sends zero (R129). -/
def loopWords (s : State) (b : Nat) : List Half :=
  [2 * b, 2 * b + 1].flatMap (fun o => [0, 1, 2, 3].map (fun l =>
    match cellOf s o l with | some n => half (cellAt s n).u | none => 0))

/-- Spindle words of a unit that has formed none: all phases OFF. -/
def unitWords (u : Unit) : List Half := if u.words = [] then List.replicate 3 (phaseWord 3 0) else u.words

/-- The command frame that the twin forms for a bay in this stitch (R315, R401). -/
def formFrame (s : State) (b : Nat) : CmdFrame :=
  let y := bayAt s b
  let p := portAt s b
  let o := ownRec s b
  let h := (pairAt s b).handover
  { bay := Fin.ofNat 8 b
    safeStop := y.safeStop
    coast := y.safeStop && y.coast
    claim := y.claim
    owner := o.owner == s.tck.twinId
    handover := h != 0 && runs s b
    hold := BitVec.ofNat 8 o.hold
    stitch := BitVec.ofNat 64 s.tck.count
    u := if y.safeStop then List.replicate 8 0 else loopWords s b
    spin := if y.stopFrame then stopWords y.coast else unitWords (unitAt s b)
    axis := if y.stopFrame then List.replicate 4 0 else (bayAxes b).map (fun n => (axisAt s n).out)
    hStitch := if runs s b then BitVec.ofNat 64 h else 0
    readEn := if y.safeStop then 0 else p.readEn
    rate := p.rate
    spotEn := if y.safeStop then 0 else p.spotEn
    pb := p.pb, gain := p.gain, offs := p.offs, wake := p.wake, retrain := p.retrain }

/-- The withholding cause that holds for a bay (R294), 0 none: the alignment fault stands while it lasts, a missed heartbeat counts while
ALIVE_IN is live. -/
def causeOf (s : State) (b : Nat) : Nat :=
  let p := pairAt s b
  if p.withhold ≠ 0 then p.withhold else if s.tck.alignFault then 3 else if p.missed && s.spn.peerAlive then 7 else 0

/-- Shadow ready of a bay (R294): no withholding cause, no resynchronisation under way, the front end's identity recorded (R366). -/
def shadowReady (s : State) (b : Nat) : Bool :=
  shadows s b && causeOf s b == 0 && decide ((pairAt s b).resync < 2) && s.spn.paired && (portAt s b).idRecorded

/-- Silence after a lockstep mismatch, from the stitch after it (R345). -/
def silenced (s : State) : Bool := s.spn.silent && decide (s.spn.haltAt < s.tck.count + 64)

/-- The twin sends no frame and no keepalive: after a lockstep mismatch (R345) or in a bay release, from the next stitch (R346). -/
def quiet (s : State) : Bool := silenced s || s.bdy.released && decide (s.bdy.releasedAt < s.tck.count)

/-- The keepalive of a shadowed bay (R316). -/
def keepFrame (s : State) (b : Nat) : Keepalive :=
  { bay := Fin.ofNat 8 b, ready := shadowReady s b, cause := BitVec.ofNat 8 (causeOf s b)
    stitch := BitVec.ofNat 64 s.tck.count }

/-- What the twin sends a bay in this stitch: the command frame to a bay it runs or claims, the keepalive to one it shadows. A
bay whose frame is absent gets its previous outputs again (R44), with SAFE_STOP where the bay is in safe stop (R401). -/
def sendBay (s : State) (b : Nat) : State :=
  let p := portAt s b
  let y := bayAt s b
  let pr := pairAt s b
  let fresh := p.landed.isSome || y.safeStop || p.formed = none
  let f := if fresh then formFrame s b
    else { (p.formed.getD {}) with stitch := BitVec.ofNat 64 s.tck.count, claim := y.claim }
  let s := setPort s b { p with
    formed := if pr.role = 0 ∧ !y.claim then none else some f
    sent := if ((runs s b ∧ !p.stopped) ∨ y.claim) ∧ !quiet s then some f else none
    keep := if shadows s b ∧ !quiet s then some (keepFrame s b) else none
    retrain := 0, wake := false }
  let s := if (portAt s b).sent.any (·.wake) then bump s 3 6 else s
  setPair s b { pairAt s b with
    digest := if pr.role = 0 then 0 else digestOf f
    readySent := shadowReady s b }

/-! ### The heartbeat (R298) -/

/-- Bit mask of the bays with a property. -/
def maskOf (p : Nat → Bool) : Byte := BitVec.ofNat 8 (((List.range 8).map (fun b => if p b then 2 ^ b else 0)).sum)

/-- The vault can take a dump: ready or degraded (R283). -/
def vaultUsable (s : State) : Bool := decide (s.mem.vault < 2)

/-- The heartbeat of the stitch, with the digests of the frames formed in the previous one. -/
def heartbeat (s : State) : Heartbeat :=
  { count := BitVec.ofNat 64 s.tck.count
    sender := if s.tck.twinId = 0 then 0 else 1
    master := s.tck.master
    single := s.cmd.prot != 0 && !s.spn.paired
    vaultOk := vaultUsable s
    paired := s.spn.paired
    run := maskOf (runs s)
    ready := maskOf (fun b => (pairAt s b).readySent)
    absent := maskOf (fun b => (pairAt s b).role != 0 && (portAt s b).landed.isNone)
    overrun := s.tck.ovNow
    capture := maskOf (fun b => (pairAt s b).resync == 1)
    digests := (List.range 8).map (fun b => (pairAt s b).digest)
    hStitch := BitVec.ofNat 64 (((List.range 8).map (fun b => (pairAt s b).handover)).foldl max 0)
    kStitch := BitVec.ofNat 64 (((List.range 8).map (fun b => if (pairAt s b).resync = 1 then (pairAt s b).k else 0)).foldl max 0)
    cmds := s.spn.issuedPrev }

/-! ### The edge -/

/-- Frames after the stitch: the landed frame becomes the last present one (R130); an absence has been counted (R44). -/
def closePort (p : Port) : Port :=
  match p.landed with
  | some f => { p with landed := none, last := some f, prevA := f.sensA, prevB := f.sensB, absent := false }
  | none => { p with absent := false }

/-- State changes of every computed bay's cells, units and axes at the edge (R136, R137, R161, R176), and the cascade; the safe-stop frame
has gone (R401). -/
def edgeChanges (s : State) : State :=
  let bays := (List.range 8).filter (fun b => (pairAt s b).role ≠ 0)
  let s := { s with cells := mapT (fun _ (c : Cell) => if c.named then edgeCell c else c) s.cells }
  bays.foldl (fun s b =>
    let s := if (bayAt s b).stopFrame then setBay s b { bayAt s b with stopFrame := false } else s
    let u := unitAt s b
    let s := setUnit s b (edgeUnit (spdPar s b) u)
    let s := forEach (bayAxes b) (fun s n => setAxis s n (edgeAxis (axisAt s n))) s
    cascadeBay s b) s

/-- The ring of frames a resynchronising shadow keeps from stitch K + 1 on, with that of K for its differences (R302 step 2). -/
def keepRing (s : State) (b : Nat) : State :=
  let pr := pairAt s b
  if pr.resync = 2 ∧ pr.kKnown ∧ pr.k ≤ s.tck.count then
    setPair s b { pr with ring := (pr.ring ++ [(s.tck.count, (portAt s b).landed)]).drop ((pr.ring.length + 1) - 129) }
  else s

/-- No bay shows shadow ready. -/
def noneReady (s : State) : Bool := (List.range 8).all (fun b => !shadowReady s b)

/-- The offset of the follower's edge is measured (R46); the follower's edge moves 1 ns towards the master per stitch, or, past 1,000 ns with
no bay run and shadow ready withdrawn, whole. The master judges the offset by the follower's own marker (log entry 179), and shows 0. -/
def alignStep (s : State) (off : Int) : State :=
  if !(s.spn.link == 2) then s
  else
    let runsAny := (List.range 8).any (runs s)
    let step : Int := if s.tck.master then 0 else if 1000 < off.natAbs ∧ !runsAny ∧ noneReady s then -off else -(sgn off)
    let s := if step = 0 then s else bump s 1 3
    { s with tck := { s.tck with
        edgeNs := s.tck.edgeNs + step
        offsetNs := if s.tck.master then 0 else off
        outside := if 25 < off.natAbs then s.tck.outside + 1 else 0
        alignFault := s.tck.alignFault && decide (10 < off.natAbs) } }

/-- Sampling of ALIVE_IN and PWR_FAIL_N at the edge (R287, R301). -/
def samplePins (s : State) (i : EdgeIn) : State :=
  let moved := i.aliveIn != s.spn.aliveLevel
  { s with
    spn := { s.spn with
      aliveLevel := i.aliveIn
      aliveQuiet := if moved then 0 else min (s.spn.aliveQuiet + 1) 2
      aliveEdges := if moved then min (s.spn.aliveEdges + 1) 256 else 0 }
    pwr := { s.pwr with
      failLow := !i.pwrFailN
      failRun := if i.pwrFailN then 0 else min (s.pwr.failRun + 1) 2
      failHigh := if i.pwrFailN then min (s.pwr.failHigh + 1) 250 else 0 } }

/-- Stitches with more than 256 class U commands outstanding are counted (R50). -/
def countUrgent (s : State) : State := if urgentOut s ≤ 256 then s else bump s 1 2

/-- STITCH_EDGE: the stitch in progress computes and sends, then the counter steps and every change decided in it shows; an OPU no longer
ready loses its grant (R15), and the SECDED errors corrected in the stitch and the packets resent are counted (R150, R295). Held in reset, only the counter runs, from
the release of power-on reset on (R368, R370). -/
def execStitchEdge (inp : EdgeIn) (s : State) : Out :=
  if s.pwr.phase == .porLow then .next s
  else if s.pwr.phase != .starting && s.pwr.phase != .running then
    .next (samplePins { s with tck := { s.tck with count := s.tck.count + 1 } } inp)
  else
  let bays := (List.range 8).filter (fun b => (computing s b).isSome)
  let hb := heartbeat s
  let s := forEach (List.range 8) repeatFloat (computeBays s bays)
  let s := (List.range 8).foldl (fun s b => keepRing (sendBay s b) b) s
  let s := serveLink (if silenced s || s.spn.link == 0 then s else { s with out := s.out ++ [{ cls := 0, msg := .heartbeat hb }] })
  let s := edgeChanges s
  let s := { s with
    ports := mapT (fun _ p => closePort p) s.ports
    spn := { s.spn with issuedPrev := s.spn.issued, issued := [] }
    tck := { s.tck with count := s.tck.count + 1, aliveOut := s.tck.aliveOn && !s.tck.aliveOut, ovNow := 0 } }
  let s := forEach (List.range 16) dropUnready (forEach (List.range 8) withholdAbsent s)
  let s := if inp.corrected = 0 then s else bumpN s 5 11 inp.corrected
  let s := if inp.resent = 0 then s else bumpN s 4 9 inp.resent
  .next (samplePins (alignStep (countUrgent s) inp.offsetNs) inp)

/-- EFFECT_STITCH_REACHED: the due commands of a cell, unit or axis act, if the bay's frame is present (R139). -/
def execEffectStitchReached (obj : Obj) (s : State) : Out :=
  match obj with
  | .cell n => .next (cellEffect s n)
  | .unit n => .next (unitEffect s n)
  | .axis n => .next (axisEffect s n)

/-- ALIGNMENT_FAULT: 16 stitches outside 25 ns: no shadow ready on either twin until inside 10 ns; the follower logs it (R46, R294). -/
def execAlignmentFault (s : State) : Out :=
  if s.tck.outside < 16 ∨ s.tck.alignFault then .next s
  else
    let s := { s with tck := { s.tck with alignFault := true } }
    .next (if s.tck.master then s else event s 0 1 1)

end Sys2Proof.Machine
end

