-- ==== Sys2Proof/Machine/Bays.lean ====
section
/-! DEFINITION. A bay's mode ceilings (R374, R375), the readiness of its OPUs (R14), media grants (R15), calibration records and
requests (R21, R188, R189), and packets to the domain controller's commands. -/

namespace Sys2Proof.Machine

/-! ### Mode entries (R374) -/

/-- OPUs that a mode lets hold grants at once. -/
def modeOpus (m : Nat) : Nat := if m = 4 then 1 else if m = 5 then 0 else 2
/-- Power share of a mode in 0.1 W. -/
def modeShare (m : Nat) : Nat := if m = 4 then 75 else 145
/-- A Mode Table value acts only where it is tighter than the mode's entry; 0 selects the entry. -/
def tighter (entry table : Nat) : Nat := if table = 0 then entry else min entry table
/-- OPUs of a bay that may hold grants at once (R374, R381, R382). -/
def opusActive (s : State) (b : Nat) : Nat :=
  let n := tighter (modeOpus (bayAt s b).mode) (modeRec s b).opus
  if (bayAt s b).opuThrottle || decide (2 ≤ s.pwr.therm) then min n 1 else n
/-- Effective power share of a bay in 0.1 W (R374, R380). -/
def effShare (s : State) (b : Nat) : Nat := tighter (modeShare (bayAt s b).mode) (modeRec s b).power
/-- Byte 2 default of a mode's entry: the order of R15 items 3 to 6. -/
def modeOrder (m : Nat) : Nat := if m = 0 then 0xE4 else if m = 2 then 0x27 else if m = 3 then 0xD2 else 0xE1
/-- Order of the activities of R15 in a bay: items 1, 2, then items 3 to 6 as packed. -/
def grantOrder (s : State) (b : Nat) : List Nat :=
  let o := if (modeRec s b).order = 0 then modeOrder (bayAt s b).mode else (modeRec s b).order
  [1, 2] ++ (List.range 4).map (fun i => o / 4 ^ i % 4 + 3)
/-- Rank of an activity in the waiting order: lower goes first. -/
def grantRank (s : State) (b a : Nat) : Nat := (grantOrder s b).idxOf a
/-- A bay's mode is under the Quiet rate rule of R375, by its mode or by ladder steps 12 to 15 (R381). -/
def quietRate (s : State) (b : Nat) : Bool := (bayAt s b).mode == 4 || (bayAt s b).spinThrottle
/-- The mode an OPU works in: a mode set takes effect on each OPU at its own leaf boundary (R377). -/
def opuMode (s : State) (opu : Nat) : Nat :=
  let y := bayAt s (opu / 2)
  if y.done.getLsbD (opu % 2) then y.req else y.mode
/-- Write runs are granted on an OPU for a zone (R374, R375). -/
def writesGranted (s : State) (opu zone : Nat) : Bool :=
  let b := opu / 2
  let m := opuMode s opu
  !(bayAt s b).holdEntry && (m == 0 || m == 1 || m == 3 || m == 4) && !(quietRate s b && decide (zone < 48))
/-- Spindle target of a zone in rpm under the bay's rate factor (R160, R374, R375), to the nearest. -/
def zoneTarget (s : State) (b zone : Nat) : Nat :=
  let z := zoneRpm10 zone
  if (bayAt s b).mode = 2 then (z * 6 + 50) / 100
  else if quietRate s b && decide (zone < 48) then (z + 10) / 20
  else (z + 5) / 10
/-- Sample rate code of a bay's reads in a zone (R315, R375). -/
def rateCode (s : State) (b zone : Nat) : BitVec 2 :=
  if (bayAt s b).mode = 2 then 1 else if quietRate s b && decide (zone < 48) then 2 else 0

/-- A disc is present in a bay, by its last frame. -/
def discIn (s : State) (b : Nat) : Bool :=
  match (portAt s b).landed, (portAt s b).last with
  | some f, _ => f.disc
  | none, some f => f.disc
  | none, none => false

/-- The last frame of a bay. -/
def lastFrame (s : State) (b : Nat) : Option SampleFrame :=
  match (portAt s b).landed with | some f => some f | none => (portAt s b).last

/-! ### Calibration records and requests (R188, R189, R21) -/

/-- A trigger of a calibration (R189): it merges into one pending for the same OPU and layer; OPC is ignored and counted on a
running-OPC-only layer (R194). `whole` says how its result is applied (R192). -/
def dueCal (s : State) (opu layer : Nat) (k : CalKind) (blocking : Bool) (whole : Bool := blocking) : State :=
  let r := calAt s opu layer
  if k = .opc ∧ r.runOnly then setCal s opu layer { r with ignored := r.ignored + 1 }
  else if s.cal.jobs.any (fun j => j.opu == opu && j.layer == layer && j.kind == k) then
    { s with cal := { s.cal with jobs := s.cal.jobs.map (fun (j : CalJob) =>
      if j.opu = opu ∧ j.layer = layer ∧ j.kind = k then { j with blocking := j.blocking || blocking, whole := j.whole || whole }
      else j) } }
  else { s with cal := { s.cal with jobs := s.cal.jobs ++
    [{ opu := opu, layer := layer, kind := k, blocking := blocking, whole := whole }] } }

/-- The blocking calibrations that a quality finding asks for (R21, R189). -/
def qualityCal (s : State) (opu layer : Nat) (ks : List CalKind) : State := ks.foldl (fun s k => dueCal s opu layer k true) s

/-! ### Readiness (R14) and grants (R15) -/

/-- The four loops of an OPU are CLOSED, none with a plausibility action due, and no sequence runs. -/
def loopsClosed (s : State) (opu : Nat) : Bool :=
  [0, 1, 2, 3].all (fun l => match cellOf s opu l with
    | some n => let c := cellAt s n; c.st == .closed && !due c && c.seq.kind == .none
    | none => false)

/-- The OPU is focused on a layer: its layer register, confirmed by an address unit with a correct CRC (R14, R147). -/
def focusedOn (s : State) (opu layer : Nat) : Bool :=
  match cellOf s opu 0 with
  | some n => (cellAt s n).layer == some layer &&
      getD (portAt s (opu / 2)).addrLayer 16 (opu % 2) == layer
  | none => false

/-- Band in which a slot of a frame begins (R57, R61, R62). -/
def slotBand (frame slot : Nat) : Nat :=
  let z := frameZone frame
  zoneBand z + ((frame - zoneFirst z) * frameBits + slotPosition slot * unitBits) / zoneBits z

/-- First band of the seam that ends zone `z`; the lead-in (zone 127) ends at band 0 (R57, R58, R60). -/
def seamAfter (z : Nat) : Nat := if z = 127 then 0 else zoneBand z + zoneBands z

/-- The band that the OPU's last address unit lies in: its frame's and position's, or the seam's (R59, R60). -/
def hereBand (s : State) (opu : Nat) : Nat :=
  let p := portAt s (opu / 2)
  match look p.addrSeam (opu % 2) with
  | some z => seamAfter z
  | none => slotBand (getD p.addrFrame 0 (opu % 2)) (4 * getD p.addrPos 0 (opu % 2))

/-- Tracks between the OPU's present band and a frame's. -/
def trackDistance (s : State) (opu frame : Nat) : Nat := 4 * ((frameBand frame : Int) - hereBand s opu).natAbs

/-- The frame lies within the tracking cell's seek range. -/
def inSeekRange (s : State) (opu frame : Nat) : Bool :=
  match cellOf s opu 1 with | some n => decide (trackDistance s opu frame ≤ sw (cellAt s n) 5) | none => false

/-- The corrector is at rest at the layer's calibrated position. -/
def correctorReady (s : State) (opu layer : Nat) : Bool :=
  let a := axisAt s (16 + opu)
  a.st == .idle && decide (micro a.p = correctorPos s opu layer)

/-- The spindle is locked at the speed of the frame's zone (R159, R160). -/
def spindleReady (s : State) (b zone : Nat) : Bool :=
  let u := unitAt s b
  u.locked && decide (u.target = zoneTarget s b zone)

/-- R14 for a folio of a frame on a layer; a bay still in bring-up is not ready (R372). -/
def opuReady (s : State) (opu layer frame : Nat) : Bool :=
  runs s (opu / 2) && (bayAt s (opu / 2)).bringup == 5 && !(bayAt s (opu / 2)).safeStop && loopsClosed s opu &&
    focusedOn s opu layer && inSeekRange s opu frame && correctorReady s opu layer && spindleReady s (opu / 2) (frameZone frame)

/-- The activity that holds an OPU's media time, if any. -/
def holder (s : State) (opu : Nat) : Option Nat := ((bayAt s (opu / 2)).grants.find? (fun g => g.1 = opu)).map (·.2)

/-- No other OPU of the share group that this twin runs holds a grant (R83). -/
def shareFree (s : State) (opu : Nat) : Bool :=
  let g := shareGroup s opu
  g == 0 || (List.range 16).all (fun m => m == opu || shareGroup s m != g || !runs s (m / 2) || (holder s m).isNone)

/-- The folio needs media time: it is on the ladder and neither queued nor in a decoder (R106, R107). -/
def needsMedia (f : FolioRd) : Bool := f.done.isNone && !f.inDecoder && !f.queued && !f.redecode

/-- Activity of R15 that a quire's write runs serve: those of rebuilt leaves item 5, all others item 3. -/
def writeAct (q : Quire) : Nat := if q.kind = 2 then 5 else 3

/-- A write run of an open leaf of an activity waits for the OPU (R15). -/
def writeWaits (s : State) (opu act : Nat) : Bool :=
  s.qre.quires.any (fun e => writeAct e.2 == act && e.2.st == 1 && e.2.committed && e.2.leaves.any (fun l =>
    l.surface == opu && !l.peer && (l.st == 0 || (l.st == 1 && !l.failed.isEmpty)) && writesGranted s opu (frameZone l.frame)))

/-- The layer of a surface holds a verified leaf: something recorded other than test folios. -/
def recordedOn (s : State) (opu layer : Nat) : Bool :=
  s.qre.quires.any (fun e => e.2.leaves.any (fun l => l.surface == opu && l.layer == layer && l.st == 2))

/-- Kinds that reads of recorded folios need. -/
def sweepKind (k : CalKind) : Bool := k == .focus || k == .tilt || k == .corrector

/-- A sweep of a layer with nothing recorded but test folios waits for the layer's first verified leaf (R190). -/
def deferred (s : State) (opu layer : Nat) (k : CalKind) : Bool := sweepKind k && !recordedOn s opu layer

/-- Activities of R15 that wait for an OPU's media time. -/
def waiting (s : State) (opu : Nat) : List Nat :=
  let jobs := s.cal.jobs.filter (fun j => j.opu == opu && !j.running)
  let cal1 := if jobs.any (fun j => j.blocking && !deferred s opu j.layer j.kind) then [1] else []
  let cal6 := if regBits s .calCtl 0 1 1 = 0 && jobs.any (fun j => !j.blocking && getD s.cal.curLayer 16 opu == j.layer && !deferred s opu j.layer j.kind) then [6] else []
  let reads := (s.rdc.reads.filter (fun e => e.2.req.leaf.surface.val == opu && !e.2.granted && !e.2.expired &&
    e.2.folios.any needsMedia)).map (fun e => e.2.req.act.val)
  cal1 ++ reads ++ [3, 5].filter (writeWaits s opu) ++ cal6

/-- Another OPU of the share group that this twin runs has an activity of higher order waiting (R111). -/
def shareFirst (s : State) (opu act : Nat) : Bool :=
  let g := shareGroup s opu
  g == 0 || (List.range 16).all (fun m => m == opu || shareGroup s m != g || !runs s (m / 2) ||
    (waiting s m).all (fun a => decide (grantRank s (opu / 2) act ≤ grantRank s (m / 2) a)))

/-- A grant may be given: the OPU is free, its bay lets another OPU hold one, no Hold entry or mode change waits, and no
activity of higher order waits there or on an OPU of its share group (R15, R111, R374, R377, R378). -/
def grantable (s : State) (opu act : Nat) : Bool :=
  let b := opu / 2
  let y := bayAt s b
  (holder s opu).isNone && shareFree s opu && shareFirst s opu act && !y.holdEntry && decide (y.grants.length < opusActive s b) && !y.claim &&
    (pairAt s b).handover == 0 && !(pairAt s b).returning &&
    (waiting s opu).all (fun a => decide (grantRank s b act ≤ grantRank s b a))

/-- Give an OPU's media time to an activity. -/
def grant (s : State) (opu act : Nat) : State :=
  let y := bayAt s (opu / 2)
  setBay s (opu / 2) { y with grants := y.grants ++ [(opu, act)] }

/-! ### The end of a grant (R15, R378) -/

/-- The activity's grant ends; the last grant of a bay in Hold entry lets steps 2 to 5 begin. -/
def endGrant (s : State) (opu act : Nat) : State :=
  let y := bayAt s (opu / 2)
  let gs := y.grants.filter (fun g => g ≠ (opu, act))
  let s := setBay s (opu / 2) { y with grants := gs }
  if y.holdEntry && gs.isEmpty then holdRetract s (opu / 2) else s

end Sys2Proof.Machine
end

