-- ==== Sys2Proof/Machine/Goto.lean ====
section
/-! DEFINITION. How an OPU gets to a folio: seeks and moves by sled (07_servo_loops.md R148), layer jumps and the corrector (R14, R147), zone
changes through the seam (04_media_format.md R58), the OPU media scheduler's offsets at folio boundaries (R142). -/

namespace Sys2Proof.Machine

/-! ### Seeks and moves (R148) -/

/-- Microsteps of the sled for a number of bands: 0.64 µm to a band, 3 mm to 51,200 microsteps (R56, R172), to the nearest. -/
def bandMicro (d : Int) : Int := Int.fdiv (2 * d * 64000000 + 5859375) (2 * 5859375)

/-- A move beyond SHORT_MAX: tracking opens, the sled's target is remembered, and the track for the corrective SEEK (R148). -/
def farMove (s : State) (opu : Nat) (track : Int) : State :=
  let p := portAt s (opu / 2)
  match cellOf s opu 1 with
  | none => s
  | some n =>
    if (look p.moveTo (opu % 2)).isSome then s
    else
      let dest := micro (axisAt s opu).p + bandMicro (track / 4 - hereBand s opu)
      let s := setPort s (opu / 2) { p with
        moveTo := ins p.moveTo (opu % 2) (max 0 (min 614400 dest)), addrTarget := ins p.addrTarget (opu % 2) track }
      if (cellAt s n).st == .parked || (cellAt s n).queue.any (fun q => q.op = 2) then s else orderCell s n 2 0

/-- A move by sled goes on: MOVE once tracking is PARKED, CLOSE once the sled stands at its target; the address read then gives the corrective SEEK
(R148). -/
def resumeMove (s : State) (opu : Nat) : State :=
  let p := portAt s (opu / 2)
  match look p.moveTo (opu % 2), cellOf s opu 1 with
  | some x, some n =>
    let c := cellAt s n
    let a := axisAt s opu
    if c.st != .parked || a.st != .idle || !a.queue.isEmpty || !c.queue.isEmpty then s
    else if micro a.p = x then orderCell (setPort s (opu / 2) { p with moveTo := del p.moveTo (opu % 2) }) n 1 0
    else orderAxis s opu 1 x.toNat
  | _, _ => s

/-- A SEEK by some tracks, or a move by sled beyond SHORT_MAX (R107, R124, R148). -/
def seekBy (s : State) (opu : Nat) (d : Int) : State :=
  match cellOf s opu 1 with
  | none => s
  | some n =>
    let c := cellAt s n
    if d = 0 ∨ c.queue.any (fun q => q.op = 4) then s
    else if d.natAbs ≤ sw c 5 then (if c.st == .closed && c.seq.kind == .none then orderCell s n 4 (ux 24 d) else s)
    else farMove s opu (4 * (hereBand s opu : Int) + d)

/-- A SEEK, or a move, to a band. -/
def seekBand (s : State) (opu band : Nat) : State := seekBy s opu (4 * ((band : Int) - hereBand s opu))

/-- Before a pass or a reserve run the OPU jumps back to the turn on which a slot comes next: four tracks to a turn (R107, R124, R148); ahead of
the slot by less than a turn it stays. -/
def jumpBack (s : State) (opu frame slot : Nat) : State :=
  let p := portAt s (opu / 2)
  let f := getD p.addrFrame 0 (opu % 2)
  let z := frameZone frame
  if (look p.addrSeam (opu % 2)).isSome || frameZone f != z then seekBand s opu (slotBand frame slot)
  else
    let here : Int := (17 * (f : Int) + getD p.addrPos 0 (opu % 2) + 1) * unitBits
    let there : Int := (17 * (frame : Int) + slotPosition slot) * unitBits
    seekBy s opu (4 * Int.fdiv (there - here) (zoneBits z))

/-! ### Layer, corrector, zone (R14, R58, R147) -/

/-- A JUMP to a layer, with the present layer where an address unit has told it (R147). -/
def jumpTo (s : State) (opu layer : Nat) : State :=
  match cellOf s opu 0 with
  | none => s
  | some n =>
    let c := cellAt s n
    if c.st != .closed || c.seq.kind != .none || c.queue.any (fun q => q.op = 3) then s
    else
      let seen := match look (portAt s (opu / 2)).addrLayer (opu % 2) with | some l => 16 * l + 256 | none => 0
      orderCell s n 3 (layer + seen)

/-- The corrector moves to a layer's calibrated position (R14, R147). -/
def correctTo (s : State) (opu layer : Nat) : State :=
  let a := axisAt s (16 + opu)
  if a.st != .idle || !a.queue.isEmpty || decide (micro a.p = correctorPos s opu layer) then s
  else orderAxis s (16 + opu) 1 (correctorPos s opu layer).toNat

/-- The OPU follows the seam at the start of a zone: that of the zone before, or the lead-in (R58, R60). -/
def inSeam (s : State) (opu zone : Nat) : Bool :=
  (look (portAt s (opu / 2)).addrSeam (opu % 2)) == some (if zone = 0 then 127 else zone - 1)

/-- Band of the seam at the start of a zone. -/
def seamBefore (zone : Nat) : Nat := if zone = 0 then seamAfter 127 else seamAfter (zone - 1)

/-- One step of the way to a frame of a layer (R14, R58): the layer and its corrector position; a zone change moves the OPU into the seam first,
where it follows the turns while the spindle takes the zone's speed; then the frame's band. No SPEED is ordered while the bay's other OPU holds
a grant. -/
def goTo (s : State) (opu layer frame : Nat) : State :=
  let b := opu / 2
  let y := bayAt s b
  let u := unitAt s b
  let z := frameZone frame
  if !runs s b || y.safeStop || y.holdEntry || y.claim || y.bringup != 5 || (holder s opu).isSome then s
  else
    let s := correctTo s opu layer
    if !focusedOn s opu layer then
      match cellOf s opu 0 with
      | some n => if (cellAt s n).layer == some layer then s else jumpTo s opu layer
      | none => s
    else if u.target ≠ zoneTarget s b z then
      if !inSeam s opu z then seekBand s opu (seamBefore z)
      else if y.grants.isEmpty && u.st == .run && !u.queue.any (fun q => q.op = 3) then orderUnit s b 3 (zoneTarget s b z)
      else s
    else if u.locked && !inSeekRange s opu frame then seekBand s opu (frameBand frame)
    else s

end Sys2Proof.Machine
end

