-- ==== Sys2Proof/Machine/QuireData.lean ====
section
/-! DEFINITION. What a quire's folios carry (R66 to R69, R211, R212): blocks from the protected cache, directory blocks, rebuilt
folios, pads and parity, and the 33,408-byte payload of a slot. -/

namespace Sys2Proof.Machine

/-- The newest version, own or mirrored, among given sequences, that covers a block (R257). -/
def versionOf (s : State) (own : Bool) (seqs : List Nat) (nsid lba : Nat) : Option Version :=
  (s.cmd.versions.filter (fun v => v.own == own && seqs.contains v.seq && v.nsid == nsid && decide (v.lba ≤ lba) &&
    decide (lba < v.lba + v.nlb))).foldl (fun b v => match b with
      | some w => if w.seq < v.seq then some v else b
      | none => some v) none

/-- A block of a version as it stands in a folio. -/
def versionBlock (v : Version) (lba : Nat) : FolioBlock :=
  let i := lba - v.lba
  { iv := v.ivs.getD i [], tag := natLe 16 (v.tags.getD i 0).toNat, text := v.blocks.getD i [], pi := v.pis.getD i [] }

/-- Key of a decoded payload: surface, layer, folio number. -/
def payKey (m layer fn : Nat) : Nat := (m * 16 + layer) * 2 ^ 32 + fn

/-- Slot of the live copy of a row of a leaf (R220): the highest reserve slot that holds it, else the row's own. -/
def liveSlot (l : Leaf) (row : Nat) : Nat := (l.rowsHeld.filter (fun e => e.1 = row)).foldl (fun b e => max b e.2) row

/-- Where a row of a leaf of a quire is read: the leaf, or the rebuild quire it was relocated to (R228). -/
def liveLeaf (s : State) (n i : Nat) : Option (Quire × Nat) :=
  match quireAt s n with
  | none => none
  | some q =>
    match look q.moved i with
    | some (n', i') => match quireAt s n' with
      | some q' => if q'.st = 2 then some (q', i') else some (q, i)
      | none => some (q, i)
    | none => some (q, i)

/-- Descrambled payload of a row that a read has delivered, if any; a copy of another generation is dead (R79, R220). -/
def deliveredRow (s : State) (n i row : Nat) : Option Bytes :=
  (liveLeaf s n i).bind (fun x =>
    let l := x.1.leaves.getD x.2 {}
    (look s.rdc.payloads (payKey l.surface l.layer (folioNumber l.frame (liveSlot l row)))).filter (fun p =>
      decide (field p 0x10 4 = (l.gen + liveSlot l row) % 2 ^ 32)))

/-- Bytes 0x0040 on of a row as the device now holds them: read, or rebuilt and in the cache (R228). -/
def heldRow (s : State) (n i row : Nat) : Option Bytes :=
  match deliveredRow s n i row with
  | some p => some (p.drop 0x40)
  | none => look s.qre.rebuilt (bodyKey n (64 * i + row))

/-- Block `j` of a folio body (R66). -/
def bodyBlock (b : Bytes) (j : Nat) : FolioBlock :=
  { iv := (b.drop (28 * j)).take 12, tag := (b.drop (28 * j + 12)).take 16, text := (b.drop (448 + 4112 * j)).take 4096
    pi := (b.drop (448 + 4112 * j + 4096)).take 16 }

/-- The media copy of a block of the conventional namespace, as the device now holds it (R258). -/
def mediaBlock (s : State) (lba : Nat) : Option FolioBlock :=
  let e := mapAt s (lba / 16)
  if e.st = 1 then (heldRow s e.quire e.leaf (e.row + lba / 8 % 2)).map (bodyBlock · (lba % 8)) else some {}

/-- A block for a quire: the newest version's, else, in the conventional namespace, the live media copy's (R258). -/
def cacheBlock (s : State) (q : Quire) (lba : Nat) : FolioBlock :=
  match versionOf s (q.twin == s.tck.twinId) q.seqs q.nsid lba with
  | some v => versionBlock v lba
  | none => if q.kind = 1 then (mediaBlock s lba).getD {} else {}

/-- LBAs of data folio `n` of a zone or conventional-log quire (R211). -/
def folioLbas (q : Quire) (n : Nat) : List Nat :=
  let first := if q.kind = 1 then 16 * q.granules.getD (n / 2) 0 + 8 * (n % 2) else q.firstLba + 8 * n
  (List.range 8).map (first + ·)

/-- Directory block `i` of a directory quire, encrypted under the catalogue key (R327). -/
def directoryBlock (s : State) (q : Quire) (i : Nat) : FolioBlock :=
  let e := encryptBlock s (q.seqBase + i) 0 q.twin aadDirectory (imageBlock q.image i)
  { iv := e.iv, tag := natLe 16 e.tag.toNat, text := e.text, pi := [] }

/-- Bytes 0x0040 to 0x827F of data folio `n`, before scrambling (R66, R68, R211, R228). -/
def dataBody (s : State) (q : Quire) (n : Nat) : Bytes :=
  if q.folios ≤ n then padBody
  else match q.kind with
    | 2 => getD s.qre.rebuilt padBody (bodyKey q.number n)
    | 3 => folioBody ((List.range 8).map (fun i => directoryBlock s q (8 * n + i)))
    | _ => folioBody ((folioLbas q n).map (cacheBlock s q))

/-- The same bytes of leaf `i`, row `j`: a data leaf, P or Q (R211, R212). -/
def leafBody (s : State) (q : Quire) (i j : Nat) : Bytes :=
  let ds := (List.range (q.width - 2)).map (fun k => dataBody s q (64 * k + j))
  if i + 2 = q.width then parityP ds else if i + 1 = q.width then parityQ ds else dataBody s q (64 * i + j)

/-- The relocation that put a leaf into a rebuild quire (R228). -/
def relocation (s : State) (q : Quire) (t : Nat) : Option Amend := s.qre.amends.find? (fun a => decide (a.target = q.number) && a.tleaf == t)

/-- A folio of a rebuild quire that is a pad: of a lost row, or pad in the leaf it relocates (R228). -/
def rebuiltPad (s : State) (q : Quire) (t j : Nat) : Bool :=
  (relocation s q t).any (fun a => a.lost.getLsbD j || (quireAt s a.source).any (fun (o : Quire) =>
    decide (a.sleaf + 2 < o.width) && decide (o.folios ≤ 64 * a.sleaf + j)))

/-- Kind of the folio of leaf `i`, row `j` (R67). -/
def folioKind (s : State) (q : Quire) (i j : Nat) : Nat :=
  if i + 2 = q.width then 1 else if i + 1 = q.width then 2 else if q.folios ≤ 64 * i + j then 3
  else if q.kind = 3 then 4 else if q.kind = 2 && rebuiltPad s q i j then 3 else 0

/-- The row that a slot of a leaf carries (R67, R124). -/
def slotRow (l : Leaf) (slot : Nat) : Nat :=
  if slot < 64 then slot else ((l.rowsHeld.find? (fun e => e.2 = slot)).map (·.1)).getD 0

/-- The header of a slot of a write run (R63, R67). -/
def slotHeader (s : State) (q : Quire) (i slot start : Nat) : Header :=
  let l := q.leaves.getD i {}
  let fn := folioNumber l.frame slot
  let gen := l.gen + slot
  let row := slotRow l slot
  { pfa := pfa q.vol (l.surface / 2) (l.surface % 2) l.layer fn, quire := BitVec.ofNat 64 q.number, gen := gen
    seed := scrambleSeed l.layer fn gen, leaf := i, slot := slot, row := row, kind := folioKind s q i row, width := q.width
    stitch := BitVec.ofNat 64 start, twin := s.tck.twinId }

/-- The scrambled payload of a slot (R113 steps 1 to 3). -/
def slotPayload (s : State) (q : Quire) (i slot start : Nat) : Bytes :=
  let h := slotHeader s q i slot start
  scramble h.seed (headerBytes h ++ leafBody s q i h.row)

end Sys2Proof.Machine
end

