-- ==== Sys2Proof/Machine/WriteChan.lean ====
section
/-! DEFINITION. The Write Channel (06_write_and_verify.md R113 to R128): strategy and levels, write runs and their streams,
verdicts, reserve runs, abandonment, laser ageing. -/

namespace Sys2Proof.Machine

/-! ### Strategy and levels (R115 to R117, R188) -/

/-- Signed byte `i` of a byte list. -/
def byteS (bs : Bytes) (i : Nat) : Int := sx 8 (bs.getD i 0).toNat

/-- A value brought into a range. -/
def held (lo hi x : Int) : Int := max lo (min hi x)

/-- Every field of a strategy set lies in its range (R115). -/
def Strategy.inRange (s : Strategy) : Bool :=
  s.tTop.all (fun x => decide (1 ≤ x) && decide (x ≤ 63)) && s.tLp.all (fun x => decide (x ≤ 31)) &&
    (s.dLead ++ s.dTrail).all (fun r => r.all (fun x => decide (-16 ≤ x) && decide (x ≤ 15))) &&
    decide (4 ≤ s.tMp) && decide (s.tMp ≤ 16) && decide (s.tCl ≤ 32)

/-- The Flyleaf's strategy set of a layer, each field in its range (R115, R188). -/
def flyleafSet (layer : Nat) : Strategy :=
  let f := (Config.flyleafStrategy layer).drop 32
  { shape := (List.range 4).map (fun k => (f.getD (3 * k) 0) != 0)
    tTop := (List.range 4).map (fun k => (held 1 63 (f.getD (3 * k + 1) 0).toNat).toNat)
    tLp := (List.range 4).map (fun k => (held 0 31 (f.getD (3 * k + 2) 0).toNat).toNat)
    dLead := (List.range 4).map (fun k => (List.range 3).map (fun j => held (-16) 15 (byteS f (12 + 3 * k + j))))
    dTrail := (List.range 4).map (fun k => (List.range 3).map (fun j => held (-16) 15 (byteS f (24 + 3 * k + j))))
    tMp := (held 4 16 (f.getD 36 0).toNat).toNat, tCl := (held 0 32 (f.getD 37 0).toNat).toNat }

/-- The strategy set of an OPU and layer: the calibration record's, else the Flyleaf's (R115, R188). -/
def strategyOf (s : State) (opu layer : Nat) : Strategy := (calAt s opu layer).set_.getD (flyleafSet layer)

/-- A set with every D_LEAD moved (R193). -/
def Strategy.shifted (s : Strategy) (d : Int) : Strategy := { s with dLead := s.dLead.map (fun r => r.map (· + d)) }

/-- Store a strategy set: one whose pulses overlap or come out of order, or that leaves its ranges, is refused, and the previous set stands
(R115, R116; ranges: DEDUCED, log entry 192). -/
def storeSet (s : State) (opu layer : Nat) (x : Strategy) : State :=
  if x.ok && x.inRange then setCal s opu layer { calAt s opu layer with set_ := some x } else s

/-- A stored level of a lane, 0 to 1,023: `k` 0 Pw, 1 Pm, 2 Pc, 3 Pb; the calibrated value, else the Flyleaf's (R115, R188). -/
def storedLevel (s : State) (opu layer k lane : Nat) : Int :=
  let r := calAt s opu layer
  let l := match k with | 0 => r.pw | 1 => r.pm | 2 => r.pc | _ => r.pbl
  held 0 1023 (match l[lane]? with
  | some v => v
  | none => (field (Config.flyleafStrategy layer) (8 * k + 2 * lane) 2 : Nat))

/-- Effective laser class limit code (R117, R340). -/
def classCode (s : State) : Nat := min ((s.bnd.active.map (·.limits.laser)).getD 15) (15 - votedFuses s.kst.laser)

/-- Zone trim of an OPU, layer and zone. -/
def zoneTrim (s : State) (opu layer zone : Nat) : Int := getD (calAt s opu layer).trims 0 zone

/-- Levels before the cap. -/
def wantedLevel (s : State) (opu layer zone k lane : Nat) : Int :=
  if k = 3 then storedLevel s opu layer 3 lane else trimmedLevel (storedLevel s opu layer k lane) (zoneTrim s opu layer zone)

/-- Commanded levels of a lane: Pw, Pm, Pc, Pb (R117). -/
def laneLevels (s : State) (opu layer zone lane : Nat) : List Nat :=
  (List.range 4).map (fun k => cappedLevel (classCode s) (wantedLevel s opu layer zone k lane))

/-- A level of the run is capped (R117). -/
def capBinds (s : State) (opu layer zone : Nat) : Bool :=
  (List.range 4).any (fun lane => (List.range 4).any (fun k =>
    decide ((64 * classCode s : Nat) < wantedLevel s opu layer zone k lane)))

/-! ### The start of a run (R78, R114, R120) -/

/-- The address unit expected `j` places before a position of a frame: zone, position, frame; before a zone's first frame those of the seam or the
lead-in (R60, R61). -/
def expectedUnit (frame pos j : Nat) : Nat × Nat × Nat :=
  let z := frameZone frame
  let k := 17 * (frame - zoneFirst z) + pos
  if j ≤ k then (z, (k - j) % 17, zoneFirst z + (k - j) / 17) else (if z = 0 then 127 else z - 1, 31, 0xFFFF)

/-- The unit `j` places back on a lane decoded with a correct CRC and the expected values (R78). -/
def unitGood (s : State) (m layer frame pos lane j : Nat) : Bool :=
  let e := 4 * (m % 2) + lane
  match (getD (portAt s (m / 2)).addrSeen [] e)[j - 1]? with
  | some (some a) =>
    let x := expectedUnit frame pos j
    addrZone a.word == x.1 && addrPosition a.word == x.2.1 && addrFrame a.word == x.2.2 && addrLayer a.word == layer &&
      addrSide a.word == m % 2 && addrLane a.word == lane
  | _ => false

/-- At least two of the three preceding address units of every lane of the run decoded with the expected values (R78). -/
def lanesReady (s : State) (m layer frame pos : Nat) (slots : List Nat) : Bool :=
  slots.all (fun k => decide (2 ≤ ((List.range 3).filter (fun i => unitGood s m layer frame pos (slotLane k) (i + 1))).length))

/-- The stitch, by the bay's count in 16 bits, and the offset of channel bit 0 of a position: units of 452,608 bits from the newest good one (R59,
R313, R318; across a zone's first frame: log entry 193). -/
def startInstant (s : State) (m layer frame pos lane : Nat) : Option (Nat × Nat) :=
  ((List.range 3).find? (fun i => unitGood s m layer frame pos lane (i + 1))).bind (fun i =>
    match (getD (portAt s (m / 2)).addrSeen [] (4 * (m % 2) + lane))[i]? with
    | some (some a) =>
      let t := a.offset + (i + 1) * unitBits
      some ((a.stitch + t / 2400) % 65536, t % 2400)
    | _ => none)

/-- A run that may start: the stitches until its start instant and the instant, at least 2 stitches ahead (R120). -/
def startAhead (s : State) (m layer frame pos : Nat) (slots : List Nat) : Option (Nat × Nat × Nat) :=
  match slots with
  | [] => none
  | k :: _ =>
    match startInstant s m layer frame pos (slotLane k) with
    | some (t, o) =>
      let d := diff16 t (bayCount s (m / 2) % 65536)
      if 2 ≤ d then some (d.toNat, t, o) else none
    | none => none

/-- Slots of a run: the 64 data slots, or the failed rows on the lowest unused reserve slots in row order (R124). -/
def runRows (l : Leaf) (reserve : Bool) : List (Nat × Nat) :=
  if reserve then
    let free := [64, 65, 66, 67].filter (fun k => !l.rowsHeld.any (fun e => e.2 = k))
    List.zip ((List.range 64).filter (fun r => l.failed.contains r)) free
  else (List.range 64).map (fun r => (r, r))

/-- First use of a layer by a write asks for its calibrations (R189, R190); true where none was needed. -/
def firstWrite (s : State) (opu layer : Nat) : State × Bool :=
  let r := calAt s opu layer
  if r.written then (s, true)
  else
    let s := setCal s opu layer { r with written := true, used := true }
    let s := if r.used then s else [CalKind.corrector, .focus, .tilt].foldl (fun s k => dueCal s opu layer k true) s
    let s := dueCal s opu layer .opc true
    (if r.used then s else dueCal s opu layer .equaliser true, false)

/-- The layer has a write grant: an accepted OPC result, or running OPC only (R190, R194). -/
def layerWritable (s : State) (opu layer : Nat) : Bool := (calAt s opu layer).valid.getLsbD 0 || (calAt s opu layer).runOnly

/-- The granules of a conventional-log quire are whole: every block has a version, its media copy has been read, or it is lost (R258). -/
def mergeReady (s : State) (q : Quire) : Bool :=
  q.kind != 1 || q.granules.all (fun g => (List.range 16).all (fun b =>
    (versionOf s (q.twin == s.tck.twinId) q.seqs q.nsid (16 * g + b)).isSome || (mediaBlock s (16 * g + b)).isSome || (mapAt s g).lost.getLsbD b))

/-- Every payload of a quire is in the protected cache (R114): the blocks of its folios, the bodies of rebuilt ones, the directory's image. -/
def payloadsReady (s : State) (q : Quire) : Bool :=
  match q.kind with
  | 0 => (List.range q.blocks).all (fun i => (versionOf s (q.twin == s.tck.twinId) q.seqs q.nsid (q.firstLba + i)).isSome)
  | 1 => mergeReady s q
  | 2 => (List.range q.folios).all (fun n => (look s.qre.rebuilt (bodyKey q.number n)).isSome || rebuiltPad s q (n / 64) (n % 64))
  | _ => !q.image.isEmpty

/-- Another leaf on the OPU waits for its reserve run, which is the OPU's next write run (R124). -/
def reserveFirst (s : State) (m quire i : Nat) : Bool :=
  s.qre.quires.any (fun e => e.2.st == 1 && (List.range e.2.leaves.length).any (fun k =>
    let l := e.2.leaves.getD k {}
    l.surface == m && !l.peer && l.st == 1 && !l.failed.isEmpty && !(e.1 == quire && k == i)))

/-- A run of the leaf waits for nothing but the OPU's readiness and address (R15, R79, R114, R117, R221, R374). -/
def runWanted (s : State) (q : Quire) (i : Nat) (reserve : Bool) : Bool :=
  let l := q.leaves.getD i {}
  let m := l.surface
  decide (i < q.leaves.length) && q.st == 1 && q.committed && (if reserve then l.st == 1 && !l.failed.isEmpty else l.st == 0) &&
    (opuAt s m).run.isNone && !l.peer && runs s (m / 2) && !(bayAt s (m / 2)).safeStop && decide (0 < classCode s) &&
    writesGranted s m (frameZone l.frame) && grantable s m (writeAct q) && layerWritable s m l.layer &&
    payloadsReady s q && !reserveFirst s m q.number i && decide (s.wrc.encBusy + 4 ≤ 32)

/-- The first position of a data run or a reserve run. -/
def runPosition (reserve : Bool) : Nat := if reserve then 16 else 0

/-- A run of the leaf may start now: the OPU is ready and the address units before its first slot are good (R14, R78). -/
def runMayStart (s : State) (q : Quire) (i : Nat) (reserve : Bool) : Bool :=
  let l := q.leaves.getD i {}
  let ks := (runRows l reserve).map (·.2)
  runWanted s q i reserve && opuReady s l.surface l.layer l.frame && lanesReady s l.surface l.layer l.frame (runPosition reserve) ks &&
    (startAhead s l.surface l.layer l.frame (runPosition reserve) ks).isSome

/-- Slots that the lane encoders hold at a run's start: two folios of each lane (R114). -/
def firstEncoded (slots : List Nat) : List Nat := (List.range 4).flatMap (fun lane => (slots.filter (fun k => slotLane k = lane)).take 2)

/-! ### Streams (R118 to R120) -/

/-- A mark of a lane: its first bit, its length, the spaces before and after it. -/
structure Mark where
  t0 : Nat
  len : Nat
  before : Nat
  after : Nat
deriving DecidableEq, Repr

/-- The marks that end at or before a last bit, from the transitions of a run that begins at space (R77, R120). -/
def marksOf (before last : Nat) : List Nat → List Mark
  | a :: b :: c :: rest => if b ≤ last then { t0 := a, len := b - a, before := before, after := min (c - b) 13 } :: marksOf (c - b) last (c :: rest) else []
  | _ => []

/-- The slots of a run on a lane. -/
def Run.lane (r : Run) (lane : Nat) : List RunSlot := r.slots.filter (fun x => slotLane x.slot = lane)

/-- The marks of a run's lane, from channel bit 16 of its first slot on (R78, R120). -/
def Run.marks (r : Run) (lane : Nat) : List Mark :=
  let xs := r.lane lane
  marksOf 2 (unitBits * xs.length - 17) (transitions 16 ((xs.flatMap (fun x => folioBits x.payload)).drop 16))

/-- Edge-code words of the `j`-th slot of a lane (R119, R120): the start word and a level set first; a level set again where set or levels
change at the boundary (R118); the marks that begin in the slot; the end word after the last. -/
def slotWords (r : Run) (lane j : Nat) : List Word :=
  let xs := r.lane lane
  match xs[j]? with
  | none => []
  | some x =>
    let first := decide (j = 0)
    let same := !first && (match xs[j - 1]? with | some y => y.levels == x.levels && y.set_.tCl == x.set_.tCl && y.set_.tMp == x.set_.tMp | none => false)
    let t := r.bit + 18
    let l (k : Nat) := x.levels.getD k 0
    (if first then [startWord ((r.stitch16 + t / 2400) % 65536) (t % 2400)] else []) ++
    (if same then [] else levelSet x.set_ (l 0) (l 1) (l 2) (l 3)) ++
    ((r.marks lane).filter (fun m => m.t0 / unitBits = j)).map (fun m => markWord x.set_ m.len m.before m.after) ++
    (if j + 1 = xs.length then [0] else [])

/-- Edge-code words go down to a front end that obeys this twin (R119, R309). -/
def sendWords (s : State) (m lane : Nat) (ws : List Word) : State :=
  let x := bfeAt s (m / 2)
  let e := 4 * (m % 2) + lane
  let o := opuAt s m
  let s := setOpu s m { o with streams := (List.range 4).map (fun k => if k = lane then o.streams.getD k [] ++ ws else o.streams.getD k []) }
  if x.obeys ≠ s.tck.twinId then s
  else
    let b := getD x.beams {} e
    setBfe s (m / 2) { x with beams := put x.beams {} e { b with words := b.words ++ ws } }

/-- The commanded levels of a slot not sent yet: those now in force, a test folio's own under the cap (R118, R128, R193). -/
def freshLevels (s : State) (m : Nat) (r : Run) (x : RunSlot) : List Nat :=
  if r.opc.isSome then x.levels.map (fun v => cappedLevel (classCode s) v) else laneLevels s m r.layer (frameZone r.frame) (slotLane x.slot)

/-- The words of the next position go down, with the levels now in force (R118, R119). -/
def sendPosition (s : State) (m : Nat) (r : Run) : State :=
  let p := r.firstPosition + r.sent
  let r' := { r with
    sent := r.sent + 1
    slots := r.slots.map (fun x => if slotPosition x.slot < p then x else { x with levels := freshLevels s m r x }) }
  (List.range 4).foldl (fun s lane => sendWords s m lane (slotWords r' lane r.sent)) (setOpu s m { opuAt s m with run := some r' })

/-- A folio boundary of the run comes within two stitches: the words after it go down (R118, R119); a cut run gets no more. -/
def streamOn (s : State) (m : Nat) : State :=
  match (opuAt s m).run with
  | some r =>
    if r.cut.isNone ∧ r.firstPosition + r.sent < r.endPosition ∧ r.firstPosition + r.sent ≤ r.position (now s + 2) then sendPosition s m r else s
  | none => s

/-- A run begins (R114, R118, R120): settings and sets latched, the trail cells of its lanes loaded, encoders taken, the first position sent. -/
def startRun (s : State) (m : Nat) (r : Run) : State :=
  let s := latchCfg s m
  let lanes := (List.range 4).filter (fun k => r.slots.any (fun x => slotLane x.slot = k))
  let s := lanes.foldl (fun s k => loadChan s m r.layer k 1 false) s
  let cap := capBinds s m r.layer (frameZone r.frame)
  let o := opuAt s m
  let s := setOpu s m { o with run := some r, capBind := cap, cleared := false, streams := [] }
  let s := { s with wrc := { s.wrc with encBusy := s.wrc.encBusy + runLanes r.slots }, cal := { s.cal with curLayer := ins s.cal.curLayer m r.layer } }
  sendPosition (if cap then bump s 9 7 else s) m r

/-- WRITE_RUN_START: the OPU's media time goes to a data run or a reserve run of a leaf (R15, R79, R114, R118, R124); an OPU elsewhere is brought
there first (R58, R124, R148). -/
def execWriteRunStart (quire : Nat) (leaf : Fin 16) (reserve : Bool) (s : State) : Out :=
  match quireAt s quire with
  | none => .next s
  | some q =>
    let l := q.leaves.getD leaf {}
    let m := l.surface
    let first := firstWrite s m l.layer
    let rows := runRows l reserve
    let ks := rows.map (·.2)
    if !first.2 && runs s (m / 2) && q.st == 1 then .next first.1
    else if !runWanted s q leaf reserve then .next s
    else if !opuReady s m l.layer l.frame then .next (goTo s m l.layer l.frame)
    else match (if lanesReady s m l.layer l.frame (runPosition reserve) ks then startAhead s m l.layer l.frame (runPosition reserve) ks else none) with
      | none => .next (jumpBack s m l.frame (4 * runPosition reserve))
      | some (d, t, o) =>
        let l' := { l with st := 1, failed := [], rowsHeld := if reserve then l.rowsHeld ++ rows else l.rowsHeld }
        let q' := { q with leaves := q.leaves.set leaf l' }
        let start := now s + d
        let set_ := strategyOf s m l.layer
        let run : Run := { quire := quire, leaf := leaf, act := writeAct q, reserve := reserve, layer := l.layer, frame := l.frame, start := start
                           stitch16 := t, bit := o, encoded := firstEncoded ks
                           slots := ks.map (fun k => { slot := k, header := slotHeader s q' leaf k start, payload := slotPayload s q' leaf k start
                                                       set_ := set_, levels := laneLevels s m l.layer (frameZone l.frame) (slotLane k) }) }
        let s := startRun (grant (setQuire s q') m (writeAct q)) m run
        .next (if reserve then bumpN s 9 4 ks.length else s)

/-- ENCODER_UNDERRUN: an encoder that does not hold the folio of a slot at its start: the run is cut at that slot, an internal fault is logged
(R114). -/
def execEncoderUnderrun (opu : Fin 16) (slot : Nat) (s : State) : Out :=
  let o := opuAt s opu
  match o.run with
  | some r =>
    if r.slots.any (fun x => x.slot == slot) && r.cut.isNone && !r.encoded.contains slot then
      let s := setOpu s opu { o with run := some (r.cutHere (slotPosition slot) true) }
      .next (event { s with wrc := { s.wrc with faults := s.wrc.faults + 1 } } 0 9 2 (opu / 2) opu [slot])
    else .next s
  | none => .next s

/-! ### Verdicts (R122, R123) -/

/-- What the verification of a folio finds: whether its slot was cut, no timing lock, framing sent to retry, unequal bytes by segment, pointers, the
length bias, the trail margin, framing events. -/
structure Judged where
  cut : Bool
  locked : Bool
  retry : Bool
  errs : List Nat
  pointers : BitVec 32
  bias : Int
  sqm : Int
  events : Nat
deriving DecidableEq, Repr

/-- Units of 8 coded bits that differ, of 1,175, the last of 4 bits (R122). -/
def unequalBytes (a b : List Bool) : Nat :=
  ((List.range 1175).filter (fun i => (a.drop (8 * i)).take 8 ≠ (b.drop (8 * i)).take 8)).length

/-- e_g of every framed segment: hard decisions, demodulated, against the coded bits written (R122). -/
def segmentErrors (fr : Framed) (payload : Bytes) : List Nat :=
  List.zipWith (fun xs coded => unequalBytes (demodulateHard (segmentWords (hard xs))) coded) fr.lik (codedSegments payload)

/-- Lengths of the marks of a segment, written and read: its transitions in order, where as many were read as written (log entry 194); `mark`: the
segment opens within a mark. -/
def markPairs (mark : Bool) (written read : List Bool) : List (Nat × Nat) :=
  let w := transitions 0 written
  let r := transitions 0 read
  if w.length ≠ r.length then []
  else
    let d (xs : List Nat) := List.zipWith (fun a b => b - a) xs (xs.drop 1)
    ((List.zip (List.range w.length) (List.zip (d w) (d r))).filter (fun e => (e.1 % 2 == 0) != mark)).map (·.2)

/-- Length bias (R123): marks read longer less marks read shorter than written, per 1,000 marks compared, to the nearest, clipped; 0 where none is
(log entry 194). -/
def lengthBias (mark : List Bool) (written read : List (List Bool)) : Int :=
  let ps := (List.zip mark (List.zip written read)).flatMap (fun e => markPairs e.1 e.2.1 e.2.2)
  let n := ps.length
  let d : Int := ((ps.filter (fun e => e.1 < e.2)).length : Int) - (ps.filter (fun e => e.2 < e.1)).length
  if n = 0 then 0 else max (-127) (min 127 (Int.fdiv (2000 * d + n) (2 * n)))

/-- A level is a mark after these channel bits of a run, which begins at space (R77). -/
def atMark (bs : List Bool) : Bool := (bs.filter id).length % 2 == 1

/-- What the verification of a slot finds (R122, R123). -/
def judge (s : State) (m : Nat) (r : Run) (x : RunSlot) : Judged :=
  let lane := slotLane x.slot
  let l := laneLook s m lane 1
  let cut := r.cut.any (fun c => c.2 && c.1 == slotPosition x.slot)
  let ok := l.lockAt.isSome && !cut
  let h : Heard := if ok then hearSingle s m lane 1 else { ptr := BitVec.allOnes 32 }
  let coded := codedSegments x.payload
  let before := (((r.lane lane).takeWhile (fun y => y.slot ≠ x.slot)).flatMap (fun y => folioBits y.payload))
  let bits_ := folioBits x.payload
  let used := (List.range 32).filter (fun g => !h.ptr.getLsbD g)
  { cut := cut, locked := ok, retry := ok && !h.framed.decode, errs := segmentErrors h.framed x.payload, pointers := h.ptr
    bias := lengthBias (used.map (fun g => atMark ((before ++ bits_.take (segmentFirst g)).drop 16))) (used.map (fun g => segmentBits (coded.getD g [])))
      (used.map (fun g => hard (h.framed.lik.getD g [])))
    sqm := h.sqm.2.getD (-128), events := h.framed.events + (if h.slips = 0 then 0 else 16) + (if h.lost then 32 else 0) }

/-- Bad segments of a folio: more than SEG_BAD unequal bytes, or an erasure pointer. -/
def badSegments (segBad : Nat) (o : Judged) : Nat :=
  ((List.range 32).filter (fun g => o.pointers.getLsbD g || decide (segBad < o.errs.getD g 0))).length

/-- Unequal bytes of the segments without a pointer. -/
def totalErrors (o : Judged) : Nat := ((List.range 32).map (fun g => if o.pointers.getLsbD g then 0 else o.errs.getD g 0)).sum

/-- The verdict of R122: 0 pass, 1 marginal, 2 fail, 3 cut. -/
def verdictOf (cfg : Nat) (o : Judged) : Nat :=
  let bad := badSegments (bits cfg 31 24) o
  let total := totalErrors o
  if o.cut then 3
  else if !o.locked || o.retry then 2
  else if bits cfg 23 20 ≤ bad ∨ bits cfg 19 10 < total then 2
  else if 1 ≤ bad ∨ bits cfg 9 0 < total then 1
  else 0

/-- The verification record of R123. Of segments with equally many errors the first is the worst, and segments with a pointer count too (DESIGN
CHOICE, log entry 195). -/
def verRecord (opu fn verdict cfg : Nat) (o : Judged) (lane pw : Nat) : VerRec :=
  let worst := (List.range 32).foldl (fun b g => if o.errs.getD b 0 < o.errs.getD g 0 then g else b) 0
  { fn := fn, verdict := verdict, bad := badSegments (bits cfg 31 24) o, total := totalErrors o, worst := worst
    eWorst := min 255 (o.errs.getD worst 0), bias := o.bias, sqm := o.sqm, events := BitVec.ofNat 6 o.events, opu := opu, lane := lane
    pw := BitVec.ofNat 16 pw }

/-- The 16 bytes of a verification record (R123). -/
def verBytes (v : VerRec) : Bytes :=
  natLe 4 v.fn ++ natLe 1 v.verdict ++ natLe 1 v.bad ++ natLe 2 v.total ++ natLe 1 v.worst ++ natLe 1 v.eWorst ++ natLe 1 (ux 8 v.bias) ++
  natLe 1 (ux 8 v.sqm) ++ natLe 1 v.events.toNat ++ natLe 1 (16 * v.opu + v.lane) ++ natLe 2 v.pw.toNat

/-- Running OPC (R195): after 8 marginal records of a zone its trim follows the mean bias; the levels of a run follow at its next folio boundary
(R118). -/
def runningOpc (s : State) (opu layer zone : Nat) (bias : Int) : State :=
  let r := calAt s opu layer
  let n := getD r.biasN 0 zone + 1
  let sum := getD r.biasSum 0 zone + bias
  if n < 8 then setCal s opu layer { r with biasN := put r.biasN 0 zone n, biasSum := put r.biasSum 0 zone sum }
  else
    let th : Int := (regBits s .calTrigCfg 0 7 0 : Nat)
    let t := getD r.trims 0 zone
    let t' := if 8 * th < sum then t - 1 else if sum < -(8 * th) then t + 1 else t
    let t' := max (-32) (min 32 t')
    let s := setCal s opu layer { r with biasN := del r.biasN zone, biasSum := del r.biasSum zone, trims := put r.trims 0 zone t' }
    let s := if t' = t then s else bump s 15 5
    if t'.natAbs = 32 ∧ t' ≠ t then
      if r.runOnly then event s 0 15 1 (opu / 2) opu [layer, zone] else qualityCal s opu layer [.opc, .equaliser, .focus, .tilt]
    else s

/-- Marginal verdicts above 2 % of the last 1,024 folios of a layer ask for OPC (R189). -/
def marginalShare (s : State) (opu layer : Nat) (marginal : Bool) : State :=
  let r := calAt s opu layer
  let l := (r.recent ++ [marginal]).drop ((r.recent.length + 1) - 1024)
  let n := (l.filter id).length
  if 1024 * 2 < n * 100 then
    qualityCal (setCal s opu layer { r with recent := [] }) opu layer [.opc, .equaliser, .focus, .tilt]
  else setCal s opu layer { r with recent := l }

/-! ### The end of a run (R124 to R126) -/

/-- A slot that the run leaves unrecorded: behind a cut (R79, R124). -/
def Run.unrecorded (r : Run) (k : Nat) : Bool :=
  r.cut.any (fun c => if c.2 then decide (c.1 < slotPosition k) else decide (c.1 ≤ slotPosition k))

/-- Every slot of the run is judged or was left unrecorded by a cut. -/
def runOver (r : Run) : Bool := r.slots.all (fun x => x.verdict.isSome || r.unrecorded x.slot)

/-- Rows that the run leaves without a copy. -/
def failedRows (l : Leaf) (r : Run) : List Nat := (r.slots.filter (fun x => !x.verdict.any (fun v => decide (v < 2)))).map (fun x => slotRow l x.slot)

/-- Release a run's encoders, cells and grant. -/
def releaseRun (s : State) (m : Nat) (r : Run) : State := endGrant (endRun s m) m r.act

/-- The run of a leaf is over: verified, the next reserve run, or abandoned (R124, R125); a leaf of a peer's quire is reported
to its builder (R215). A run whose leaf has been given up meanwhile decides nothing. -/
def finishRun (s : State) (q : Quire) (i : Nat) (r : Run) : State :=
  let l := q.leaves.getD i {}
  let m := l.surface
  let s := releaseRun s m r
  let bad := failedRows l r
  let counted := r.cut.isNone
  let mine := q.twin == s.tck.twinId
  let store (s : State) (l : Leaf) : State := setQuire s { q with leaves := q.leaves.set i l }
  if q.st ≠ 1 ∨ l.st ≠ 1 then s
  else if bad = [] then
    if mine then leafVerified s q.number i
    else send (store s { l with st := 2 }) (.leafVerdict q.number i true false)
  else if 4 - l.rowsHeld.length < bad.length then checkAbandoned (abandonLeaf (store s l) q.number i counted) m
  else jumpBack (store s { l with failed := (List.range 64).filter (fun k => bad.contains k) }) m l.frame 64

/-- The verdict of a slot is stored; its lane's encoder takes the folio after the next (R114). -/
def Run.judgedAs (r : Run) (x : RunSlot) (v : Nat) (rec_ : VerRec) : Run :=
  let later := (r.lane (slotLane x.slot)).filter (fun y => x.slot < y.slot && !r.encoded.contains y.slot)
  { r with
    slots := r.slots.map (fun y => if y.slot = x.slot then { y with verdict := some v } else y)
    encoded := r.encoded.filter (· ≠ x.slot) ++ (later.take 1).map (·.slot), records := r.records ++ [rec_] }

/-- A verification record goes to Calibration with every marginal verdict and every test folio (R123). -/
def toCalibration (s : State) (v : Nat) (opc : Bool) (r : VerRec) : State :=
  if opc || v == 1 then { s with cal := { s.cal with results := s.cal.results ++ [r] } } else s

/-- The margins that a trail cell shows after a folio of a write run (R90). -/
def noteTrail (s : State) (m lane : Nat) (q : Int) : State :=
  match laneCell s m lane 1 with
  | some k => setChan s k { chanAt s k with sqmFolio := q }
  | none => s

/-- FOLIO_VERDICT: a written folio is judged and recorded; the last verdict of a run decides the leaf (R122 to R126, R195). Test folios are judged
the same way and never written again (R123). -/
def execFolioVerdict (opu : Fin 16) (slot : Fin 68) (s : State) : Out :=
  let m := opu.val
  let o := opuAt s m
  match o.run with
  | none => .next s
  | some r =>
    match r.slots.find? (fun x => x.slot == slot.val) with
    | none => .next s
    | some x =>
      if x.verdict.isSome || r.unrecorded slot then .next s
      else
        let cfg := reg s .wrcVerifyCfg
        let j := judge s m r x
        let v := verdictOf cfg j
        let rec1 := verRecord m (folioNumber r.frame slot) v cfg j (slotLane slot) (x.levels.getD 0 0)
        let r' := r.judgedAs x v rec1
        let s := bump { s with wrc := { s.wrc with records := s.wrc.records ++ [rec1] } } 9 v
        let s := noteTrail (toCalibration s v r.opc.isSome rec1) m (slotLane slot) j.sqm
        let s := setOpu s m { o with run := some r' }
        if r.opc.isSome then .next (if runOver r' then endRun s m else s)
        else match quireAt s r.quire with
          | none => .next (if runOver r' then releaseRun s m r' else s)
          | some q =>
            let l := q.leaves.getD r.leaf {}
            let row := slotRow l slot
            let l' := { l with good := if v < 2 then l.good.filter (· ≠ row) ++ [row] else l.good }
            let q' := { q with leaves := q.leaves.set r.leaf l' }
            let s := setQuire s q'
            let s := if v = 1 then runningOpc s m r.layer (frameZone r.frame) rec1.bias else s
            let s := marginalShare s m r.layer (v == 1)
            .next (if runOver r' then withSmart s (finishRun s q' r.leaf r') else s)

/-! ### Laser ageing (R127) -/

/-- Clear the latched laser state of the named OPUs; it is evaluated again at the OPU's next run. -/
def clearLaser (s : State) (mask : Half) : State :=
  (List.range 16).foldl (fun s k =>
    if mask.getLsbD k then setOpu s k { opuAt s k with laser := 0, warned := false, cleared := true } else s) s

/-- LASER_REEVAL: WRC_CTL.REEVAL. -/
def execLaserReeval (mask : Half) (s : State) : Out := if barSealed s then .next s else .next (clearLaser s mask)

/-- The emitter records of one OPU in a frame (R313): lanes 0 to 3. -/
def opuEmitters (f : SampleFrame) (side : Nat) : List Emitter := (List.range 4).map (fun l => f.emit.getD (4 * side + l) {})

/-- Current at Pw in per mille of the limit. -/
def headroom (e : Emitter) : Nat := (qdiv (1000 * (e.iPw.toNat : Int)) e.iLim.toNat).toNat

/-- Emitter currents of a landed frame set the OPU's laser state (R127) and report ended streams (R121, R313). Of emitters with equal currents the
lowest lane is the worst (DESIGN CHOICE, log entry 196). -/
def laserFrame (s : State) (m : Nat) (f : SampleFrame) : State :=
  let es := opuEmitters f (m % 2)
  if f.emit = [] then s
  else
    let s := if es.any (fun e => decide (2 ≤ e.streamEnd.toNat)) then cutRun s m false else s
    let lane := (List.range 4).foldl (fun b k => if headroom (es.getD b {}) < headroom (es.getD k {}) then k else b) 0
    let w := es.getD lane {}
    let o := opuAt s m
    let warn := decide (regBits s .wrcLaserCfg 0 7 0 * w.iLim.toNat ≤ 100 * w.iPw.toNat) && decide (w.iPw ≠ 0)
    let st := if o.cleared then 0 else if es.any (·.pbMissed) then 3 else if es.any (·.pwMissed) then 2 else if warn then 1 else 0
    let new := max o.laser st
    let s := setOpu s m { o with laser := new, emitter := lane, headroom := min (headroom w) 1023, warned := o.warned || decide (1 ≤ st) }
    let s := if 1 ≤ st ∧ !o.warned then event s 0x401 9 1 (m / 2) m [lane, headroom w] else s
    if new = 3 ∧ o.laser ≠ 3 then surfaceLost s m
    else if new = 2 ∧ o.laser < 2 then sealSurface (cutRun s m true) m 2
    else s

end Sys2Proof.Machine
end

