-- ==== Sys2Proof/Machine/Modes.lean ====
section
/-! DEFINITION. Operating modes and bay control: mode sets, Hold entry, safe-stop exit, bay reset, exchange, bring-up and spindle
hand-off (12_host_interface.md R248, 16_headband_link.md R321, 19_power_modes.md R368 to R379, R383, R407). -/

namespace Sys2Proof.Machine

/-! ### Zones and targets -/

/-- Zone that a bay's spindle turns for: the frame an OPU of the bay was last at, else the write pointer's zone. -/
def bayZone (s : State) (b : Nat) : Nat :=
  match look (portAt s b).addrFrame 0 with
  | some f => frameZone f
  | none => frameZone (surfAt s (2 * b)).frame

/-- SPEED to the bay's zone target under the rate rule and ceilings now in force (R374, R377). -/
def orderSpeed (s : State) (b : Nat) : State :=
  let u := unitAt s b
  if u.st == .run || startPath u then orderUnit s b 3 (zoneTarget s b (bayZone s b)) else s

/-- Port that a bay's front end obeys, by the bay's last frame: 0, 1, 2 none, 3 no frame yet. -/
def obeyed (s : State) (b : Nat) : Nat := match lastFrame s b with | some f => f.obeys.toNat | none => 3

/-- The other twin runs the bay. -/
def peerRuns (s : State) (b : Nat) : Bool := obeyed s b == 1 - s.tck.twinId

/-! ### Mode sets (R377 to R379) -/

/-- The bay lies within the window of R38: a structural Binding that affects it is armed. -/
def bayWindow (s : State) (b : Nat) : Bool := s.bnd.structural.any (fun x => x.armed.isSome) && s.bnd.affected.getLsbD b

/-- A mode set is refused for a bay (R38, R338, R379). -/
def modeRefused (s : State) (b m : Nat) : Bool :=
  let y := bayAt s b
  y.safeStop || (m != 5 && (!discIn s b || bayWindow s b)) || decide (3 ≤ lifeCycle s)

/-- Commands of a cell dropped by Hold entry: every queued CLOSE, JUMP and SEEK, with result 2 (R407). -/
def dropMoves (c : Cell) : Cell :=
  let keep := c.queue.filter (fun q => q.op != 1 && q.op != 3 && q.op != 4)
  { c with queue := keep, result := if keep.length < c.queue.length then 2 else c.result }

/-- Hold entry begins (R378, R407); non-blocking calibrations of idle OPUs are dropped, their triggers stay due (R202). -/
def beginHold (s : State) (b : Nat) : State :=
  let y := bayAt s b
  if y.mode = 5 ∧ !y.holdEntry then setBay s b { y with req := 5, enablePending := none }
  else
    let s := forEach (bayCells s b) (fun s n => setCell s n (dropMoves (cellAt s n))) s
    let s := { s with spn := { s.spn with issued := s.spn.issued.filter (fun h => match h.obj with
      | .cell n => !((cellAt s n).opu / 2 == b && (h.op == 1 || h.op == 3 || h.op == 4))
      | _ => true) } }
    let s := setBay s b { y with
      req := 5, enablePending := none, holdEntry := true, holdAt := if y.holdEntry then y.holdAt else now s, bringing := false
      done := 0 }
    let s := { s with cal := { s.cal with jobs := s.cal.jobs.map (fun (j : CalJob) =>
      if j.opu / 2 = b ∧ !j.blocking ∧ (holder s j.opu).isNone then { j with runs := 0, last := none } else j) } }
    if y.grants.isEmpty then holdRetract s b else s

/-- A bay leaves Hold: the mode stands and bring-up begins if a disc is present (R372). -/
def leaveHold (s : State) (b m : Nat) : State :=
  let y := bayAt s b
  let s := setBay s b { y with
    mode := m, req := m, enablePending := none, exchange := false, holdEntry := false, done := 0
    bringing := discIn s b, bringup := 0, handed := false }
  bump s 2 0

/-- An accepted mode set acts on a bay (R377, R379). -/
def setMode (s : State) (b m : Nat) : State :=
  let y := bayAt s b
  if y.safeStop then countEvent s 2 1 1 b
  else if m = 5 then beginHold s b
  else if y.holdEntry then
    let s := setBay s b { y with req := m, enablePending := some m }
    let u := unitAt s b
    if u.st == .regen || u.st == .short || u.st == .coast then orderUnit s b 1 (zoneTarget s b (bayZone s b)) else s
  else if y.mode = 5 then leaveHold s b m
  else
    let s := if m = 4 then { s with cal := { s.cal with jobs := s.cal.jobs.map (fun (j : CalJob) =>
      if j.opu / 2 = b ∧ !j.blocking ∧ (holder s j.opu).isNone then { j with runs := 0, last := none } else j) } } else s
    setBay s b { y with req := m, done := 0 }

/-- The mode set as the host's runtime write (R23, R248), told to the twin, which applies it at receipt (DESIGN CHOICE, log entry
21). -/
def hostMode (s : State) (b : Nat) (m : BitVec 4) : State :=
  let s := setBay s b { bayAt s b with runtime := true }
  send (setMode s b m.toNat) (.mgmt (.modeNote (Fin.ofNat 8 b) m))

/-- Bays of a mask. -/
def baysIn (mask : Byte) : List Nat := (List.range 8).filter (fun b => mask.getLsbD b)

/-- A mode set on the twin that executes it: every named bay or none (R379). -/
def modeSetHere (s : State) (mask : Byte) (code : BitVec 4) : State × Status :=
  if (baysIn mask).any (fun b => modeRefused s b code.toNat) then
    ((baysIn mask).foldl (fun s b => if modeRefused s b code.toNat then countEvent s 2 1 1 b else s) s, .vendor 3)
  else ((baysIn mask).foldl (fun s b => hostMode s b code) s, .success)

/-- MODE_SET: opcode 0xC4 (R248, R377 to R379). -/
def execModeSet (r : CmdRef) (mask : Byte) (code : BitVec 4) (s : State) : Out :=
  if 5 < code.toNat then .next (complete s r .invalidField)
  else if (baysIn mask).any (peerRuns s) then
    if s.spn.link = 2 then .next (send s (.mgmt (.modeSet r mask code))) else .next (complete s r (.vendor 1))
  else
    let x := modeSetHere s mask code
    .next (complete x.1 r x.2)

/-- A leaf of the OPU is not at its boundary: a run or a pass holds media time, a reserve run is owed, or a read is on the retry ladder (R377,
R383). -/
def insideLeaf (s : State) (opu : Nat) : Bool :=
  (holder s opu).any (fun a => a != 1 && a != 6) || (opuAt s opu).run.isSome ||
    s.qre.quires.any (fun e => e.2.leaves.any (fun l => l.surface == opu && !l.peer && l.st == 1 && !l.failed.isEmpty)) ||
    s.rdc.reads.any (fun e => e.2.req.leaf.surface.val == opu && e.2.folios.any (fun f => f.done.isNone && (f.redecode || decide (2 ≤ f.step))))

/-- MODE_CHANGE_EFFECT: a pending mode set takes effect on an OPU at its leaf boundary; with both OPUs changed it is in force, and
the spindle ceilings apply (R377). -/
def execModeChangeEffect (opu : Fin 16) (s : State) : Out :=
  let b := opu.val / 2
  let y := bayAt s b
  if y.req = y.mode ∨ y.holdEntry ∨ y.mode = 5 ∨ insideLeaf s opu then .next s
  else
    let d := y.done ||| (BitVec.ofNat 2 (2 ^ (opu.val % 2)))
    if d = 3 then .next (orderSpeed (bump (setBay s b { y with mode := y.req, done := 0 }) 2 0) b)
    else .next (setBay s b { y with done := d })

/-- HOLD_WAIT_EXPIRY: grants still open HOLD_WAIT after Hold entry began are revoked, and the entry goes on (R15, R378). -/
def execHoldWaitExpiry (bay : Fin 8) (s : State) : Out :=
  let y := bayAt s bay
  if !y.holdEntry ∨ (!y.grants.isEmpty ∧ now s < y.holdAt + regBits s .pwrModeCfg 0 15 0 * Config.ms) then .next s
  else .next (holdRetract (revokeBay s bay) bay)

/-- Every axis of a bay is released: PARKING, then DOWN (R185, R378). -/
def releaseAxes (s : State) (b : Nat) : State :=
  forEach (bayAxes b) (fun s n => if (axisAt s n).st == .down then s else orderAxis s n 5 0) s

/-- HOLD_REACHED: every cell PARKED and the spindle OFF at standstill: the bay reads Hold; a pending enable is executed
(R378, R379). -/
def execHoldReached (bay : Fin 8) (s : State) : Out :=
  let y := bayAt s bay
  let u := (unitAt s bay).st
  if !y.holdEntry || !allParked s bay ||
      !(u == .off || u == .fault || y.enablePending.isSome) then .next s
  else
    let s := bump (setBay s bay { y with mode := 5, req := 5, holdEntry := false, done := 0, bringup := 0, enablePending := none }) 2 0
    match y.enablePending with
    | some m => .next (leaveHold s bay m)
    | none => .next (if y.exchange then releaseAxes s bay else s)

/-! ### Bay control (R248, R321, R368, R369, R401) -/

/-- CLAIM is sent where the front end has no obeyed port (R321, R369). -/
def claimIfFree (s : State) (b : Nat) : State :=
  if obeyed s b = 2 then setBay s b { bayAt s b with claim := true } else s

/-- The bay leaves safe stop into Hold, the states of its cells zeroed (R137, R379, R401). -/
def leaveStop (s : State) (b : Nat) : State :=
  let s := forEach (bayCells s b) (fun s n => if (cellAt s n).st == .parked then setCell s n (enterParked (cellAt s n)) else s) s
  setBay s b { bayAt s b with
    safeStop := false, coast := false, overrun := false, holdEntry := false, enablePending := none, mode := 5, req := 5, done := 0
    bringing := false, bringup := 0 }

/-- Runtime writes to the registers of a bay's cells are lost with its reset (R369). -/
def dropCellRegs (s : State) (b : Nat) : State :=
  { s with regs := s.regs.filter (fun e =>
    let off := e.1 - 0x801000
    !(decide (0x801000 ≤ e.1) && decide (e.1 < 0x804000) && (cellAt s (off / 0x80)).named && (cellAt s (off / 0x80)).opu / 2 == b)) }

/-- An axis under a bay reset: running and pending moves end, position, state and FAULT stay (R187). Homing and parking are no moves:
they go on (log entry 176). -/
def resetAxis (a : Axis) : Axis := if a.st == .moving then hardStop a else { a with pending := none }

/-- Bay reset (R127, R137, R187, R368, R369): cells zeroed and PARKED, FAULT of the unit ends at standstill, the axes' moves end,
laser states clear, the bay is in Hold. A reset during Hold entry wins (R383). -/
def resetBay (s : State) (b : Nat) : State :=
  let changed := (bayAt s b).mode != 5
  let s := revokeBay s b
  let s := dropCellRegs s b
  let s := forEach (bayCells s b) (fun s n => setCell s n { enterParked (cellAt s n) with queue := [] }) s
  let u := unitAt s b
  let s := setUnit s b (if u.st == .off || u.st == .fault then { u with st := .off, fault := false, cause := 0 } else { u with clearAtRest := true })
  let s := forEach (bayAxes b) (fun s n => setAxis s n (resetAxis (axisAt s n))) s
  let s := [2 * b, 2 * b + 1].foldl (fun s m => setOpu s m { opuAt s m with laser := 0, warned := false }) s
  let s := leaveStop s b
  let s := setBay s b { bayAt s b with runtime := false, exchange := false }
  let s := setPort s b { portAt s b with readEn := 0, spotEn := 0 }
  let s := if u.st == .run || startPath u then orderUnitOnce s b 2 0 else s
  if changed then bump s 2 0 else s

/-- Disc-load triggers of an OPU of a bay this twin runs (R188, R189): BFE offsets, blocking. -/
def discLoad (s : State) (b : Nat) : State :=
  if runs s b then [2 * b, 2 * b + 1].foldl (fun s m => dueCal s m (getD s.cal.curLayer 0 m) .bfeOffsets true) s else s

/-- An action of opcode 0xC5 on a bay, as both twins apply it (R248). -/
def applyBay (s : State) (b action : Nat) : State :=
  if action = 1 then resetBay s b
  else if action = 2 then (if (bayAt s b).safeStop then leaveStop s b else s)
  else if action = 3 then discLoad s b
  else if action = 4 then
    let s := if (bayAt s b).safeStop then leaveStop s b else s
    let y := bayAt s b
    let s := setBay s b { y with exchange := true }
    if y.mode = 5 ∧ !y.holdEntry then releaseAxes s b else beginHold s b
  else s

/-- The completion status and effect of an action on the twin that executes it. Hold for robot exchange is accepted only once an unmount in
progress has ended (R208; its status DESIGN CHOICE, log entry 211). -/
def bayHere (s : State) (b action : Nat) : State × Status :=
  if obeyed s b = 3 then (s, .vendor 2)
  else if action = 4 ∧ s.qre.unmounting then (s, .vendor 3)
  else if action = 2 ∧ !(bayAt s b).safeStop then (s, .vendor 3)
  else
    let s := applyBay s b action
    let s := if action = 3 then s else claimIfFree s b
    (send s (.mgmt (.bayNote (Fin.ofNat 8 b) (BitVec.ofNat 8 action))), .success)

/-- Forward an action to the twin that runs the bay, or execute it (R248). -/
def bayControl (s : State) (r : CmdRef) (b action : Nat) : State :=
  if peerRuns s b then
    if s.spn.link = 2 then send s (.mgmt (.bayControl r (Fin.ofNat 8 b) (BitVec.ofNat 8 action))) else complete s r (.vendor 1)
  else
    let x := bayHere s b action
    complete x.1 r x.2

/-- BAY_RESET: opcode 0xC5 action 1. -/
def execBayReset (r : CmdRef) (bay : Fin 8) (s : State) : Out := .next (bayControl s r bay 1)
/-- LEAVE_SAFE_STOP: action 2. -/
def execLeaveSafeStop (r : CmdRef) (bay : Fin 8) (s : State) : Out := .next (bayControl s r bay 2)
/-- DISC_LOADED: action 3. -/
def execDiscLoaded (r : CmdRef) (bay : Fin 8) (s : State) : Out := .next (bayControl s r bay 3)
/-- PREPARE_EXCHANGE: action 4. -/
def execPrepareExchange (r : CmdRef) (bay : Fin 8) (s : State) : Out := .next (bayControl s r bay 4)

/-! ### Bring-up (R372) -/

/-- The Power Order section in force (R29 type 0x06). -/
def powerRec (s : State) : PowerRec := (s.bnd.active.map (·.power)).getD {}

/-- The laser stagger has passed since the twin last turned emitters on. -/
def laserTurn (s : State) : Bool :=
  s.bays.all (fun e => e.2.emitAt == 0 || decide (e.2.emitAt + (powerRec s).laserMs * Config.ms ≤ now s))

/-- Bays before `b` in the bay start order. -/
def before (s : State) (b : Nat) : List Nat := (powerRec s).bays.takeWhile (fun x => x ≠ b)

/-- The spindle of `b` may start: every earlier bay in bring-up has handed off, and no start is under way (R372). -/
def spindleTurn (s : State) (b : Nat) : Bool :=
  (before s b).all (fun x => !runs s x || !(bayAt s x).bringing || (bayAt s x).handed) &&
    (List.range 8).all (fun x => x == b || !runs s x || (bayAt s x).bringup != 3 || (bayAt s x).handed)

/-- Order CLOSE for a cell of an OPU that is PARKED with none queued. -/
def orderClose (s : State) (opu l : Nat) : State :=
  match cellOf s opu l with
  | some n =>
    let c := cellAt s n
    if c.st == .parked && !c.queue.any (fun q => q.op = 1) then orderCell s n 1 0 else s
  | none => s

/-- State of a loop of an OPU is CLOSED. -/
def loopClosed (s : State) (opu l : Nat) : Bool :=
  match cellOf s opu l with | some n => (cellAt s n).st == .closed && (cellAt s n).seq.kind == .none | none => false

/-- BAY_BRINGUP_STEP: the next step of R372 whose turn has come. Step 1 turns one OPU's emitters on at a time; step 4 closes
tracking, then tilt and yaw, each once its prerequisite is closed (R138). -/
def execBayBringupStep (bay : Fin 8) (s : State) : Out :=
  let b := bay.val
  let y := bayAt s b
  let p := portAt s b
  if !y.bringing || !runs s b || y.safeStop || y.holdEntry then .next s
  else match y.bringup with
    | 0 =>
      if !laserTurn s then .next s
      else if p.readEn.toNat % 16 = 0 then
        .next (setBay (setPort s b { p with readEn := p.readEn ||| 0x0F }) b { y with emitAt := now s })
      else .next (setBay (setPort s b { p with readEn := 0xFF }) b { y with emitAt := now s, bringup := 1 })
    | 1 => .next (orderClose (orderClose (setBay s b { y with bringup := 2 }) (2 * b) 0) (2 * b + 1) 0)
    | 2 =>
      if spindleTurn s b then
        .next (orderUnit (setBay s b { y with bringup := 3, spinAt := now s, handed := false }) b 1 (zoneTarget s b (bayZone s b)))
      else .next s
    | 3 =>
      if !(unitAt s b).locked then .next s
      else
        let s := [2 * b, 2 * b + 1].foldl (fun s o =>
          let s := if loopClosed s o 0 then orderClose s o 1 else s
          if loopClosed s o 1 then orderClose (orderClose s o 2) o 3 else s) s
        if loopsClosed s (2 * b) && loopsClosed s (2 * b + 1) then .next (setBay s b { bayAt s b with bringup := 4 }) else .next s
    | 4 => .next (discLoad (setBay s b { y with bringup := 5, bringing := false, handed := true }) b)
    | _ => .next s

/-- SPINDLE_HANDOFF: the bay's spindle reached the hand-off speed, or the hand-off time-out passed, or the start failed: the next
bay's may start (R372, R383). -/
def execSpindleHandoff (bay : Fin 8) (s : State) : Out :=
  let y := bayAt s bay
  let u := unitAt s bay
  let w := powerRec s
  if y.bringup < 3 ∨ y.handed then .next s
  else if ((w.handPct * u.target : Nat) : Int) ≤ 100 * unitRpm (spdPar s bay) u ∨ y.spinAt + w.handMs * Config.ms ≤ now s ∨ u.fault then
    .next (setBay s bay { y with handed := true })
  else .next s

end Sys2Proof.Machine
end

