-- ==== Sys2Proof/Machine/Calibrate.lean ====
section
/-! DEFINITION. Calibration (10_calibration.md R188 to R203): triggers, runs, agreement, application in steps, lane retraining. -/

namespace Sys2Proof.Machine

/-! ### Triggers (R189) -/

/-- The calibration kinds of CAL_REQ.KIND; 7 names all, other values none. -/
def reqKinds (k : Nat) : List CalKind :=
  let all := [CalKind.opc, .equaliser, .focus, .tilt, .corrector, .bfeOffsets]
  if k = 7 then all else if k = 0 then [] else (all[k - 1]?).toList

/-- The calibrations that a request names become due, non-blocking, their results applied whole, on an OPU of a bay the twin runs (R189,
R192). -/
def requestCal (s : State) (kind opu layer : Nat) : State :=
  if runs s (opu / 2) then (reqKinds kind).foldl (fun s k => dueCal s opu layer k false true) s else s

/-- CAL_REQ. -/
def execCalReq (kind : BitVec 4) (opu layer : Fin 16) (s : State) : Out :=
  if barSealed s then .next s else .next (requestCal s kind.toNat opu layer)

/-- CAL_ELAPSED_TIMER: OPC_H hours since a layer's last OPC, or EQ_H hours since its last equaliser calibration (R189). -/
def execCalElapsedTimer (opc : Bool) (s : State) : Out :=
  let h := if opc then regBits s .calInterval 0 31 16 else regBits s .calInterval 0 15 0
  if h = 0 then .next s
  else
    .next (s.cal.recs.foldl (fun s e =>
      let r := e.2
      let old (t : Nat) := decide (t + h * 3600 * Config.sec ≤ now s)
      if opc then (if r.valid.getLsbD 0 && old r.atOpc then dueCal s (e.1 / 16) (e.1 % 16) .opc false else s)
      else if r.valid.getLsbD 1 && old r.atEq then
        [CalKind.equaliser, .focus, .tilt, .corrector].foldl (fun s k => dueCal s (e.1 / 16) (e.1 % 16) k false) s
      else s) s)

/-- Difference of two temperatures reaches a delta in °C; temperatures are in 0.1 °C. -/
def moved (t u : Int) (d : Nat) : Bool := decide ((10 * d : Nat) ≤ (t - u).natAbs)

/-- Temperature triggers of an OPU (R189): against the temperature stored when that calibration was last accepted. -/
def tempTrigger (s : State) (opu : Nat) (t : Int) : State :=
  let s := { s with cal := { s.cal with temps := put s.cal.temps 0 opu t } }
  (List.range 16).foldl (fun s layer =>
    let r := calAt s opu layer
    let s := if r.written && r.valid.getLsbD 0 && moved t r.tempOpc (regBits s .calTrigCfg 0 31 24) then dueCal s opu layer .opc false else s
    let s := if r.valid.getLsbD 1 && moved t r.tempEq (regBits s .calTrigCfg 0 23 16) then dueCal s opu layer .equaliser false else s
    if (r.valid.getLsbD 2 || r.valid.getLsbD 3) && moved t r.tempFt (regBits s .calTrigCfg 0 15 8) then
      dueCal (dueCal s opu layer .focus false) opu layer .tilt false else s) s

/-- First use of a layer by a read asks for corrector, focus, tilt and equaliser (R189, R190). -/
def firstRead (s : State) (opu layer : Nat) : State :=
  let r := calAt s opu layer
  if r.used then s
  else
    [CalKind.corrector, .focus, .tilt, .equaliser].foldl (fun s k => dueCal s opu layer k true) (setCal s opu layer { r with used := true })

/-- Records of a bay are discarded: its disc is unloaded, or another twin takes the bay over (R188). -/
def dropRecords (s : State) (b : Nat) : State :=
  { s with cal := { s.cal with
      recs := s.cal.recs.filter (fun e => e.1 / 32 ≠ b), jobs := s.cal.jobs.filter (fun j => j.opu / 2 ≠ b) } }

/-! ### Runs (R190, R193, R194, R196 to R198) -/

/-- The waiting or running job of an OPU, layer and kind. -/
def jobOf (s : State) (opu layer : Nat) (k : CalKind) : Option CalJob :=
  s.cal.jobs.find? (fun j => j.opu == opu && j.layer == layer && j.kind == k)

/-- Store a job in place of the one of the same OPU, layer and kind. -/
def setJob (s : State) (n : CalJob) : State :=
  { s with cal := { s.cal with jobs := s.cal.jobs.map (fun (j : CalJob) =>
    if j.opu = n.opu ∧ j.layer = n.layer ∧ j.kind = n.kind then n else j) } }

/-- The binary search over runs 0 to 63 for the next unused one (R194): each read asks whether position 2 (r mod 8), lane 0, of frame r div 8 of
the run in the middle is blank; seven reads tell 65 outcomes apart. Bit `i` of `blank` is what read `i` reports. -/
def searchRun (blank : BitVec 7) : Nat :=
  ((List.range 7).foldl (fun (b : Nat × Nat) i =>
    if b.1 < b.2 then
      let m := (b.1 + b.2) / 2
      if blank.getLsbD i then (b.1, m) else (m + 1, b.2)
    else b) (0, 64)).1

/-- A run of a due calibration waits for nothing but the OPU's readiness and address (R15, R111, R190, R202). -/
def calWanted (s : State) (j : CalJob) : Bool :=
  !j.running && runs s (j.opu / 2) && !(bayAt s (j.opu / 2)).safeStop && !deferred s j.opu j.layer j.kind &&
    (j.blocking || regBits s .calCtl 0 1 1 == 0) &&
    (j.blocking || getD s.cal.curLayer 16 j.opu == j.layer) &&
    grantable s j.opu (if j.blocking then 1 else 6) &&
    !(s.rdc.reads.any (fun e => e.2.req.leaf.surface.val == j.opu && e.2.folios.any (fun f => decide (3 ≤ f.step) && f.done.isNone))) &&
    !(s.cal.jobs.any (fun i => i.opu == j.opu && i.layer == j.layer && i.blocking && decide (firstOrder i.kind < firstOrder j.kind) &&
      !deferred s i.opu i.layer i.kind))

/-- The frame that a run works on: the test frame of an OPC run (R64), else the frame under way (R196, R197). -/
def calFrame (s : State) (j : CalJob) (run : Nat) : Nat :=
  if j.kind = .opc then run / 8 else getD (portAt s (j.opu / 2)).addrFrame 8 (j.opu % 2)

/-- Slots of OPC run `n`: its two positions on the four lanes (R64). -/
def opcSlots (n : Nat) : List Nat := (List.range 8).map (fun i => 8 * (n % 8) + i)

/-- The start of an OPC run, where the address units before its first slot are good (R78). -/
def opcStart (s : State) (opu layer n : Nat) : Option (Nat × Nat × Nat) :=
  let ks := opcSlots n
  if lanesReady s opu layer (n / 8) (2 * (n % 8)) ks then startAhead s opu layer (n / 8) (2 * (n % 8)) ks else none

/-- A quotient rounded to the nearest integer, halves up. -/
def nearest (a b : Int) : Int := (2 * a + b) / (2 * b)

/-- Centre Pw of the next OPC run (R193): the stored Pw, then the previous run's power result. -/
def opcCentre (s : State) (opu layer : Nat) : Int := ((calAt s opu layer).centre).getD (storedLevel s opu layer 0 0)

/-- A level scaled with Pw: Pm and Pc keep their ratios (R193). -/
def scaledLevel (v old new : Int) : Int := if old = 0 then v else nearest (v * new) old

/-- Levels of a lane with Pw at `p`: Pm and Pc in their ratios, Pb unchanged (R193), under the cap (R117). -/
def levelsAt (s : State) (opu layer lane : Nat) (p : Int) : List Nat :=
  let l (k : Nat) := storedLevel s opu layer k lane
  [p, scaledLevel (l 1) (l 0) p, scaledLevel (l 2) (l 0) p, l 3].map (fun v => cappedLevel (classCode s) (held 0 1023 v))

/-- Header of a test folio (R67, R193): kind 5, no quire, its own row (log entry 197). -/
def testHeader (s : State) (opu layer n slot gen start : Nat) : Header :=
  let fn := folioNumber (n / 8) slot
  { pfa := pfa s.qre.cur (opu / 2) (opu % 2) layer fn, quire := 0, gen := gen, seed := scrambleSeed layer fn gen, leaf := 0, slot := slot, row := slot
    kind := 5, width := s.qre.width, stitch := BitVec.ofNat 64 start, twin := s.tck.twinId }

/-- Slot `i` of an OPC run (R193): the first position at four powers about the centre, the second at the centre with D_LEAD shifted. -/
def testSlot (s : State) (opu layer n i start : Nat) : RunSlot :=
  let k := 8 * (n % 8) + i
  let h := testHeader s opu layer n k ((surfAt s opu).gen + i) start
  let c := opcCentre s opu layer
  let p := if i < 4 then nearest (c * ([94, 98, 102, 106].getD i 100)) 100 else c
  let set_ := strategyOf s opu layer
  { slot := k, header := h, payload := scramble h.seed (headerBytes h ++ padBody)
    set_ := if i < 4 then set_ else set_.shifted ([-2, -1, 1, 2].getD (i - 4) 0), levels := levelsAt s opu layer (i % 4) p }

/-- OPC run `n` of a layer is written (R64, R193). -/
def startTest (s : State) (opu layer n act : Nat) (at_ : Nat × Nat × Nat) : State :=
  let start := now s + at_.1
  let run : Run := {
    quire := 0, leaf := 0, opc := some n, act := act, layer := layer, frame := n / 8, start := start, stitch16 := at_.2.1, bit := at_.2.2
    encoded := opcSlots n, slots := (List.range 8).map (fun i => testSlot s opu layer n i start) }
  let s := setSurf s opu { surfAt s opu with gen := (surfAt s opu).gen + 8 }
  startRun { s with cal := { s.cal with results := s.cal.results.filter (fun v => v.opu ≠ opu) } } opu run

/-- All 8 spots of an OPU are read, in an equaliser run with adaptation from the preamble on (R84, R86, R196, R197). -/
def readSpots (s : State) (opu layer : Nat) (retrain : Bool) : State :=
  (List.range 8).foldl (fun s k => loadChan s opu layer (k / 2) (k % 2) retrain) s

/-- Trial point `k` of a sweep: −2 to +2 steps, for the corrector of 16 microsteps (R197). -/
def trialPoint (s : State) (opu layer : Nat) (k : CalKind) (point : Nat) : State :=
  let n : Int := (point : Int) - 2
  match k with
  | .focus => orderOffset s opu 0 (2 * 65536 + ux 16 (n * (runBits s opu .rdcSweepCfg 15 0 : Nat)))
  | .tilt => orderOffset s opu 2 (2 * 65536 + ux 16 (n * (runBits s opu .rdcSweepCfg 31 16 : Nat)))
  | .corrector => orderAxis s (16 + opu) 1 (max 0 (correctorPos s opu layer + 16 * n)).toNat
  | _ => s

/-- The next unused run of a layer; with run 63 used its test zone is exhausted (R194). -/
def setNextRun (s : State) (opu layer n : Nat) : State :=
  let r := calAt s opu layer
  let s := setCal s opu layer { r with searched := true, nextRun := min n 64, exhausted := r.exhausted || decide (64 ≤ n) }
  if !r.exhausted && decide (64 ≤ n) then bump s 15 6 else s

/-- A run begins: OPC writes a test run (R193, R194); sweeps and the equaliser read the 8 spots, a sweep from its first trial point on; BFE
offsets turn the OPU's emitters off and read the spots (R196 to R198). -/
def beginRun (s : State) (opu layer : Nat) (k : CalKind) (n act : Nat) (at_ : Nat × Nat × Nat) : State :=
  match k with
  | .opc => startTest (bump (setNextRun s opu layer (n + 1)) 15 1) opu layer n act at_
  | .bfeOffsets =>
    let s := readSpots s opu layer false
    let p := portAt s (opu / 2)
    setPort s (opu / 2) { p with readEn := p.readEn &&& (if opu % 2 = 0 then 0xF0 else 0x0F) }
  | k => trialPoint (readSpots s opu layer (k == .equaliser)) opu layer k 0

/-- The layer's test zone is exhausted without agreement: running OPC only (R194). -/
def exhaustLayer (s : State) (opu layer : Nat) : State :=
  let s := setNextRun s opu layer 64
  let s := setCal s opu layer { calAt s opu layer with runOnly := true }
  vendorEvent (event (endJob s opu layer .opc) 0 15 1 (opu / 2) opu [layer]) 6

/-- CALIBRATION_RUN_START: media time goes to a run of a due calibration (R15, R190). An OPU that is elsewhere, or not ready, is brought there; a
non-blocking run only reaches the test zone for OPC (R14, R190). `blank` is what the reads of the search of R194 report, where it is made. -/
def execCalibrationRunStart (opu layer : Fin 16) (kind : CalKind) (blank : BitVec 7) (s : State) : Out :=
  match jobOf s opu layer kind with
  | none => .next s
  | some j =>
    if !calWanted s j then .next s
    else
      let r := calAt s opu layer
      let n := if r.searched then r.nextRun else searchRun blank
      let act := if j.blocking then 1 else 6
      let frame := calFrame s j n
      if kind = .opc ∧ 64 ≤ n then
        .next (exhaustLayer s opu layer)
      else if kind ≠ .bfeOffsets ∧ !opuReady s opu layer frame then
        .next (if j.blocking ∨ kind = .opc then goTo s opu layer frame else s)
      else
        let s0 := grant (setJob s { j with running := true, point := 0, since := now s }) opu act
        if kind = .opc then
          match opcStart s opu layer n with
          | none => .next (jumpBack s opu frame (8 * (n % 8)))
          | some at_ => .next (beginRun s0 opu layer kind n act at_)
        else
          let s0 := { s0 with cal := { s0.cal with curLayer := ins s0.cal.curLayer opu layer.val } }
          .next (beginRun (latchCfg s0 opu) opu layer kind n act (0, 0, 0))

/-! ### Results -/

/-- Power result of an OPC run (R193), as a fraction: the Pw at which the length bias crosses from negative to non-negative between adjacent
lanes. -/
def opcPower (c : Int) (bias : List Int) : Option (Int × Int) :=
  let p (k : Nat) : Int := nearest (c * ([94, 98, 102, 106].getD k 100)) 100
  ([0, 1, 2].find? (fun k => decide (bias.getD k 0 < 0) && decide (0 ≤ bias.getD (k + 1) 0))).map (fun k =>
    let a := -(bias.getD k 0)
    let b := bias.getD (k + 1) 0
    (p k * (a + b) + (p (k + 1) - p k) * a, a + b))

/-- Centre of the run after one without a power result (R193): 8 % against the sign that all four biases have. Where they have no one sign and
none crosses upward the spec moves nothing: the centre stays (DESIGN CHOICE, log entry 208). -/
def movedCentre (c : Int) (bias : List Int) : Int :=
  let neg (k : Nat) := decide (bias.getD k 0 < 0)
  if (List.range 4).all neg then nearest (c * 108) 100 else if (List.range 4).any neg then c else nearest (c * 92) 100

/-- Shift result of an OPC run: the lane of −2, −1, +1, +2 T/32 with the fewest byte errors, ties to the smaller magnitude. -/
def opcShift (totals : List Int) : Int :=
  let c : List (Int × Int) := [(-1, totals.getD 1 0), (1, totals.getD 2 0), (-2, totals.getD 0 0), (2, totals.getD 3 0)]
  (c.foldl (fun b x => if x.2 < b.2 then x else b) (-1, totals.getD 1 0)).1

/-- Vertex of the least-squares parabola of five points at −2 to +2 steps, times `step`, clipped to ±2 steps; none where it opens
upward or has no vertex (R197). -/
def vertex (step : Int) (ys : List Int) : Option Int :=
  let y (k : Nat) := ys.getD k 0
  let a := 2 * y 0 - y 1 - 2 * y 2 - y 3 + 2 * y 4
  let b := -2 * y 0 - y 1 + y 3 + 2 * y 4
  if 0 ≤ a then none else some (max (-2 * step) (min (2 * step) (nearest (7 * b * step) (-(10 * a)))))

/-- Biases and byte error totals of the run's records on lanes 0 to 3 (R123, R193): none before all 8 have been judged. -/
def opcMeasured (s : State) (opu : Nat) : Option (List Int) :=
  let rs := s.cal.results.filter (fun v => v.opu = opu)
  let at_ (odd : Nat) (lane : Nat) : Option VerRec := rs.find? (fun v => decide (v.fn % 68 / 4 % 2 = odd) && v.lane == lane)
  let a := (List.range 4).filterMap (at_ 0)
  let b := (List.range 4).filterMap (at_ 1)
  if a.length = 4 ∧ b.length = 4 then some (a.map (·.bias) ++ b.map (fun v => (v.total : Int))) else none

/-- The whole looks of a spot's cell in a run, oldest first, the last `n`. -/
def lookRun (s : State) (opu spot n : Nat) : Option (List Look) :=
  match (chanOf s opu spot).map (chanAt s) with
  | some c =>
    let ls := ((if 452544 ≤ c.cur.n then [{ c.cur with taps := c.taps }] else []) ++ c.past.filter (fun (l : Look) => decide (452544 ≤ l.n))).take n
    if c.opu = opu ∧ c.spot = spot ∧ ls.length = n then some ls.reverse else none
  | none => none

/-- Looks of all 8 spots. -/
def allLooks (s : State) (opu n : Nat) : Option (List (List Look)) :=
  let ls := (List.range 8).filterMap (fun k => lookRun s opu k n)
  if ls.length = 8 then some ls else none

/-- What a run measured: OPC its records' biases and totals; the equaliser the 120 taps after each of the two folios (R196); a sweep the sum over
the spots of the folio margins at its 5 points (R197); BFE offsets the codes found. -/
def measured (s : State) (opu : Nat) (k : CalKind) (codes : Option (List Int)) : Option (List Int) :=
  match k with
  | .opc => opcMeasured s opu
  | .equaliser => (allLooks s opu 2).map (fun ls =>
      (List.range 2).flatMap (fun j => ls.flatMap (fun l => (List.range 15).map (fun i => (l.getD j {}).taps.getD i 0))))
  | .bfeOffsets => codes
  | _ => (allLooks s opu 5).map (fun ls => (List.range 5).map (fun j =>
      ((List.range 8).map (fun spot =>
        let h := hearLook s opu (spot / 2) (spot % 2) ((ls.getD spot []).getD j {})
        ((if spot % 2 = 0 then h.sqm.1 else h.sqm.2).getD (-128)))).sum))

/-- One run's result from what it measured: Pw, a fraction, and shift; taps; an offset; the corrector's microsteps; offset codes. -/
def runResult (s : State) (opu layer : Nat) (k : CalKind) (m : List Int) : Option (List Int) :=
  match k with
  | .opc => (opcPower (opcCentre s opu layer) (m.take 4)).map (fun p => [p.1, p.2, opcShift (m.drop 4)])
  | .equaliser => some (m.take 120)
  | .focus => (vertex (runBits s opu .rdcSweepCfg 15 0 : Nat) m).map (fun v => [(calAt s opu layer).focus + v])
  | .tilt => (vertex (runBits s opu .rdcSweepCfg 31 16 : Nat) m).map (fun v => [(calAt s opu layer).tilt + v])
  | .corrector => (vertex 16 m).map (fun v => [correctorPos s opu layer + v])
  | .bfeOffsets => some (m.take 8)

/-- Two runs' results agree (R191). -/
def agrees (k : CalKind) (a b : List Int) : Bool :=
  let within (t : Nat) := (List.zip a b).all (fun e => decide ((e.1 - e.2).natAbs ≤ t))
  match k with
  | .opc =>
    let x := a.getD 0 0 * b.getD 1 1
    let y := b.getD 0 0 * a.getD 1 1
    decide (100 * (x - y).natAbs ≤ 2 * y.natAbs) && decide ((a.getD 2 0 - b.getD 2 0).natAbs ≤ 1)
  | .equaliser => within 4
  | .focus | .tilt => within 10
  | .corrector => within 2
  | .bfeOffsets => within 1

/-- CAL offset of a loop to its cell at the next boundary (R142, R192): focus component of loop 0, tilt of loop 2. -/
def orderCal (s : State) (opu l : Nat) (v : Int) : State := orderOffset s opu l (ux 16 v)

/-- Levels of a record moved so that lane 0's Pw becomes `p`. -/
def levelsTo (s : State) (opu layer : Nat) (p : Int) : CalRec :=
  let r := calAt s opu layer
  let l (k lane : Nat) := storedLevel s opu layer k lane
  { r with
    pw := List.replicate 4 (held 0 1023 p)
    pm := (List.range 4).map (fun i => held 0 1023 (scaledLevel (l 1 i) (l 0 i) p))
    pc := (List.range 4).map (fun i => held 0 1023 (scaledLevel (l 2 i) (l 0 i) p))
    pbl := (List.range 4).map (l 3) }

/-- The Pw of an OPC result, in whole units. -/
def resultPw (v : List Int) : Int := nearest (v.getD 0 0) (v.getD 1 1)

/-- A whole value takes effect at the next boundary (R192). BFE offsets, found with the lasers off, are the OPU's on every layer (R188, R198). -/
def applyWhole (s : State) (opu layer : Nat) (k : CalKind) (v : List Int) : State :=
  let r := calAt s opu layer
  match k with
  | .opc => storeSet (setCal s opu layer (levelsTo s opu layer (resultPw v))) opu layer ((strategyOf s opu layer).shifted (v.getD 2 0))
  | .equaliser => setCal s opu layer { r with taps := (List.range 8).map (fun i => (i, (v.drop (15 * i)).take 15)) }
  | .focus => orderCal (setCal s opu layer { r with focus := v.getD 0 0 }) opu 0 (v.getD 0 0)
  | .tilt => orderCal (setCal s opu layer { r with tilt := v.getD 0 0 }) opu 2 (v.getD 0 0)
  | .corrector => orderAxis (setCal s opu layer { r with corrector := some (v.getD 0 0) }) (16 + opu) 1 (v.getD 0 0).toNat
  | .bfeOffsets =>
    let p := portAt s (opu / 2)
    let old := (List.range 16).map (fun i => p.offs.getD i 0)
    let new := (List.range 16).map (fun i => if i / 8 = opu % 2 then BitVec.ofInt 7 (v.getD (i % 8) 0) else old.getD i 0)
    let s := (List.range 16).foldl (fun s l => setCal s opu l { calAt s opu l with offsets := (List.range 8).map (fun i => (i, v.getD i 0)) }) s
    setPort s (opu / 2) { p with offs := new }

/-- Valid bit, stored temperature and time of an accepted calibration. -/
def stamp (s : State) (opu layer : Nat) (k : CalKind) : State :=
  let r := calAt s opu layer
  let t := getD s.cal.temps 0 opu
  let bit (n : Nat) := r.valid ||| BitVec.ofNat 5 (2 ^ n)
  setCal s opu layer (match k with
    | .opc => { r with valid := bit 0, tempOpc := t, atOpc := now s, failed := false, centre := none }
    | .equaliser => { r with valid := bit 1, tempEq := t, atEq := now s, failed := false }
    | .focus => { r with valid := bit 2, tempFt := t, failed := false }
    | .tilt => { r with valid := bit 3, tempFt := t, failed := false }
    | .corrector => { r with valid := bit 4, failed := false }
    | .bfeOffsets => { r with failed := false })

/-- A result is accepted (R191, R192): counted, stamped, applied whole or step by step. -/
def acceptCal (s : State) (opu layer : Nat) (k : CalKind) (whole : Bool) (v : List Int) : State :=
  let s := match k with
    | .opc => bump s 15 0
    | .equaliser => bump s 15 2
    | .focus | .tilt | .corrector => bump s 15 3
    | .bfeOffsets => s
  let s := endJob (stamp s opu layer k) opu layer k
  if whole || k == .bfeOffsets then applyWhole s opu layer k v
  else
    let s := if k = .opc then storeSet s opu layer ((strategyOf s opu layer).shifted (v.getD 2 0)) else s
    let r := calAt s opu layer
    setCal s opu layer { r with goal := r.goal.filter (fun g => g.1 ≠ k) ++ [(k, v)] }

/-- CALIBRATION_RUN_DONE: the run's result is compared with the one before: agreement accepts it, four runs without agreement fail
(R191). An OPC run is done when its 8 folios have been judged, one of the BFE offsets after 64 stitches (R198); an OPC run whose biases have one sign moves the next centre 8 % against it (R193). -/
def execCalibrationRunDone (opu layer : Fin 16) (kind : CalKind) (codes : Option (List Int)) (s : State) : Out :=
  match jobOf s opu layer kind with
  | none => .next s
  | some j =>
    if !j.running || (kind == .opc && (opuAt s opu).run.isSome) || (kind == .bfeOffsets && decide (now s < j.since + 64)) then .next s
    else
      let m := measured s opu kind codes
      let res := m.bind (fun m => runResult s opu layer kind m)
      let c := opcCentre s opu layer
      let s := endGrant (idleCells (afterRun s opu layer kind) opu) opu (if j.blocking then 1 else 6)
      let r := calAt s opu layer
      let s := if kind = .opc then
          setCal s opu layer { r with centre := match res, m with
            | some v, _ => some (resultPw v)
            | none, none => r.centre
            | none, some m => some (movedCentre c (m.take 4)) }
        else s
      let seq := if kind = .equaliser then (match m with | some m => [m.take 120, m.drop 120] | none => []) else res.toList
      let hit := (List.zip (j.last.toList ++ seq) ((j.last.toList ++ seq).drop 1)).find? (fun e => agrees kind e.1 e.2)
      let n := j.runs + max 1 seq.length
      match hit with
      | some (_, v) => .next (acceptCal s opu layer kind j.whole v)
      | none =>
        if 4 ≤ n then .next (failCal s opu layer kind)
        else if kind = .opc ∧ 64 ≤ (calAt s opu layer).nextRun then .next (exhaustLayer s opu layer)
        else .next (setJob s { j with running := false, runs := n, last := seq.getLast? })

/-! ### One step per folio boundary (R192) -/

/-- Move `a` towards `b` by at most `n`. -/
def towards (a b : Int) (n : Int) : Int := if a < b then min b (a + n) else max b (a - n)

/-- The taps of all spots with the one furthest from its target moved by up to 4 LSB. -/
def tapStep (cur goal : List Int) : List Int :=
  let far := (List.range goal.length).foldl (fun b i =>
    if (cur.getD b 0 - goal.getD b 0).natAbs < (cur.getD i 0 - goal.getD i 0).natAbs then i else b) 0
  (List.range goal.length).map (fun i => if i = far then towards (cur.getD i 0) (goal.getD i 0) 4 else cur.getD i 0)

/-- A goal is dropped from a record. -/
def dropGoal (r : CalRec) (k : CalKind) : CalRec := { r with goal := r.goal.filter (fun g => g.1 ≠ k) }

/-- One step of one quantity towards its goal; none where the goal is already met. -/
def stepGoal (s : State) (opu layer : Nat) (k : CalKind) (v : List Int) : State × Bool :=
  let r := calAt s opu layer
  let t := v.getD 0 0
  match k with
  | .focus =>
    if r.focus = t then (setCal s opu layer (dropGoal r k), false)
    else
      let x := towards r.focus t 10
      (orderCal (setCal s opu layer { r with focus := x }) opu 0 x, true)
  | .tilt =>
    if r.tilt = t then (setCal s opu layer (dropGoal r k), false)
    else
      let x := towards r.tilt t 10
      (orderCal (setCal s opu layer { r with tilt := x }) opu 2 x, true)
  | .corrector =>
    let c := correctorPos s opu layer
    if c = t then (setCal s opu layer (dropGoal r k), false)
    else
      let x := towards c t 8
      (orderAxis (setCal s opu layer { r with corrector := some x }) (16 + opu) 1 x.toNat, true)
  | .equaliser =>
    let cur := currentTaps s opu layer
    if cur = v then (setCal s opu layer (dropGoal r k), false)
    else
      let x := tapStep cur v
      (setCal s opu layer { r with taps := (List.range 8).map (fun i => (i, (x.drop (15 * i)).take 15)) }, true)
  | .opc =>
    let p := storedLevel s opu layer 0 0
    let t := resultPw v
    if p = t then (setCal s opu layer (dropGoal r k), false)
    else
      (setCal s opu layer (levelsTo s opu layer (towards p t (max 1 (p / 100)))), true)
  | .bfeOffsets => (setCal s opu layer (dropGoal r k), false)

/-- The sweep in progress on an OPU goes to its next trial point, which takes effect at the next boundary (R197). -/
def sweepOn (s : State) (opu : Nat) : Option State :=
  (s.cal.jobs.find? (fun j => j.opu == opu && j.running && sweepKind j.kind && decide (j.point < 4))).map (fun j =>
    trialPoint (setJob s { j with point := j.point + 1 }) opu j.layer j.kind (j.point + 1))

/-- The OPU has taken a step in this stitch already: at most one falls to a folio boundary (R192). -/
def stepped (s : State) (opu : Nat) : Bool := look s.cal.lastStep opu == some (now s)

/-- One step of the record of the layer in service, of the first quantity with a goal: offsets, corrector, taps, levels (R192). -/
def recordStep (s : State) (opu : Nat) : State :=
  let layer := getD s.cal.curLayer 0 opu
  let order := [CalKind.focus, .tilt, .corrector, .equaliser, .opc]
  let r := order.foldl (fun (x : State × Bool) k =>
    if x.2 then x
    else match (calAt x.1 opu layer).goal.find? (fun g => g.1 = k) with
      | some g => stepGoal x.1 opu layer k g.2
      | none => x) (s, false)
  if r.2 then { r.1 with cal := { r.1.cal with lastStep := ins r.1.cal.lastStep opu (now s) } } else r.1

/-- CAL_STEP: at a folio boundary a sweep in progress goes to its next point (R197); else one quantity of the record moves one step (R192). -/
def execCalStep (opu : Fin 16) (s : State) : Out := .next ((sweepOn s opu).getD (if stepped s opu then s else recordStep s opu))

/-! ### Headband lanes (R199, R323) -/

/-- A read run of the bay is in progress. -/
def readingBay (s : State) (b : Nat) : Bool := (bayAt s b).grants.any (fun g => g.2 == 2 || g.2 == 4 || g.2 == 5)
/-- A write run of the bay is in progress. -/
def writingBay (s : State) (b : Nat) : Bool := (opuAt s (2 * b)).run.isSome || (opuAt s (2 * b + 1)).run.isSome

/-- LANE_RETRAIN: a lane whose eye is below RETRAIN_UI gets its retrain bit: U1 and U2 between read runs, D1 between write runs,
U0 and D0 in Hold only (R199, R323). -/
def execLaneRetrain (port : Fin 8) (lane : Fin 5) (s : State) : Out :=
  let b := port.val
  let p := portAt s b
  let eye := match p.eyes[lane.val]? with | some e => e.toNat | none => 0
  let ok := if lane.val = 0 ∨ lane.val = 3 then (bayAt s b).mode == 5 && !(bayAt s b).holdEntry
    else if lane.val = 4 then !writingBay s b else !readingBay s b
  if !runs s b || !ok || !p.lanes.getLsbD lane || decide (regBits s .calLaneCfg 0 15 8 ≤ eye) then .next s
  else .next (bump (bump (setPort s b { p with retrain := p.retrain ||| BitVec.ofNat 5 (2 ^ lane.val) }) 3 5) 15 7)

end Sys2Proof.Machine
end

