-- ==== Sys2Proof/Machine/Colophon.lean ====
section
/-! DEFINITION. The Colophon and the measurements (18_bindery.md R350, R352 to R355, R357), and the Endsheet's bytes (R358). -/

namespace Sys2Proof.Machine

/-- The 256-byte image header, the signature as stored (R350). -/
def fwHeader (i : FwImage) : Bytes :=
  (if i.magicOk then [0x53, 0x4B, 0x46, 0x57] else zeros 4) ++ [i.kind, if i.raiseFloor then 1 else 0] ++ natLe 2 i.spineVersion.toNat ++
  natLe 4 i.secVersion ++ natLe 4 i.body.length ++ fit 8 i.revision ++ zeros 40 ++ natLe 48 i.digest.toNat ++ zeros 48 ++
  natLe 96 i.signature.toNat

/-- Bytes of an image: header and body. -/
def fwBytes (i : FwImage) : Bytes := fwHeader i ++ i.body

/-- Floor values: fuses blown, at most 255 (R340). -/
def fwFloor (s : State) : Nat := min 255 (votedFuses s.kst.fwFloor)
/-- The Binding floor. -/
def bndFloor (s : State) : Nat := min 255 (votedFuses s.kst.bndFloor)

/-- An image is valid: magic, digest, signature, security version at least the firmware floor (R340, R350). -/
def fwValid (s : State) (i : FwImage) : Bool :=
  i.magicOk && (i.kind == 1 || i.kind == 2) && decide (Config.sha384 i.body = i.digest) &&
    Config.sigFirmware (Config.sha384 ((fwHeader i).take 160)) i.signature && decide (fwFloor s ≤ i.secVersion)

/-- The active Endsheet copy. -/
def sheet (s : State) : Endsheet := getD s.bdy.sheets {} s.bdy.sheetActive

/-- The device section: saved features (R358). -/
def deviceSection (e : Endsheet) : Bytes := e.features.flatMap (fun f => natLe 4 f.1 ++ natLe 8 f.2.toNat)

/-- Digest of a container, its digest field (R26). -/
def digestField (bs : Bytes) : BitVec 384 := BitVec.ofNat 384 (field bs (bs.length - 144) 48)

/-- Measurements 0 to 4 of R352 as now in force. -/
def measure (s : State) : List (BitVec 384) :=
  [Config.sha384 s.bdy.romPatch, Config.sha384 (fwBytes (getD s.bdy.bootSlots {} s.bdy.bootedLoader)), Config.sha384 (fwBytes s.bdy.running_),
   Config.sha384 (natLe 48 (sheet s).ownerDigest.toNat ++ natLe 48 (Config.sha384 (deviceSection (sheet s))).toNat),
   (s.bnd.active.map (·.digest)).getD 0]

/-- A BFE's identity as recorded, zero where it is not assembled. -/
def bfeIdent (s : State) (b : Nat) : BitVec 384 := match (portAt s b).ident with | some i => BitVec.ofNat 384 (leNat i) | none => 0

/-- Bytes 0x000 to 0x36F of a record (R352). -/
def colBody (c : ColRec) : Bytes :=
  [0x53, 0x4B, 0x43, 0x4C] ++ natLe 2 0x0100 ++ natLe 1 c.reason ++ natLe 1 c.twin ++ natLe 8 c.seq ++ natLe 8 c.boot ++ natLe 8 c.stitch ++
  natLe 8 c.hostTime.toNat ++ natLe 1 c.lc ++ natLe 1 c.source ++ natLe 1 c.slot ++ [c.bfeMask] ++ natLe 1 c.fwFloor ++ natLe 1 c.bndFloor ++
  natLe 1 c.restarts ++ zeros 1 ++ natLe 16 c.serial.toNat ++ (List.range 13).flatMap (fun i => natLe 48 (c.meas.getD i 0).toNat) ++
  natLe 48 c.prev.toNat ++ natLe 48 c.trimDigest.toNat ++ zeros 96

/-- Digest of a record, taken over its body. -/
def colDigest (c : ColRec) : BitVec 384 := Config.sha384 (colBody c)

/-- The 1,024 bytes of a record as they lie in its sector: body, digest, signature. -/
def colBytes (c : ColRec) : Bytes := colBody c ++ natLe 48 c.digest.toNat ++ natLe 96 c.signature.toNat

/-- A record's digest holds, and its signature is that of the attestation key of the recorded life-cycle state (R352). -/
def recValid (c : ColRec) : Bool := decide (colDigest c = c.digest) && decide (c.signature = Config.attest c.lc c.digest)

/-- The sector a record lies in (R353). -/
def colSector (c : ColRec) : Nat := c.seq % 4096

/-- The records that count, oldest first: one whose digest or signature fails counts as never written (R354). -/
def heldRecords (s : State) : List ColRec := s.bdy.colophon.filter recValid

/-- A record as the auditor of R355 checks it after `prev`. -/
def auditStep (prev : Option ColRec) (r : ColRec) : Bool :=
  recValid r &&
    if r.prev = 0 then prev.isNone && r.seq == 0 && r.boot == 0
    else match prev with
      | none => decide (0 < r.seq)
      | some p => decide (r.prev = p.digest) && r.seq == p.seq + 1 && r.boot == p.boot + (if r.reason = 0 then 1 else 0) && r.restarts == p.restarts

/-- The auditor's check of records in ascending sequence (R355). -/
def auditChain : Option ColRec → List ColRec → Bool
  | _, [] => true
  | prev, r :: rs => auditStep prev r && auditChain (some r) rs

/-- Write a record (R352, R353); the last 4,096 are kept, the newest last. Reason 0 steps the boot counter; with no record that counts the
record opens a chain: sequence 0, boot counter 0, previous digest zero (R355). A record that does not count gives up its sector and its
sequence (R354). -/
def writeColophon (s : State) (reason : Nat) : State :=
  let held := heldRecords s
  let last := held.getLast?
  let c : ColRec := {
    reason := reason, twin := s.tck.twinId, seq := (last.map (fun c => c.seq + 1)).getD 0
    boot := (last.map (fun c => if reason = 0 then c.boot + 1 else c.boot)).getD 0, stitch := s.tck.count, hostTime := hostTime s
    lc := lifeCycle s, source := s.bnd.source, slot := s.bdy.booted
    bfeMask := maskOf (fun b => (portAt s b).ident.isSome), fwFloor := fwFloor s, bndFloor := bndFloor s, restarts := s.bdy.restarts
    serial := s.bdy.serial, meas := measure s ++ (List.range 8).map (bfeIdent s)
    prev := (last.map (·.digest)).getD 0, trimDigest := s.bnd.trimDigest, digest := 0, signature := 0 }
  let d := colDigest c
  let c := { c with digest := d, signature := Config.attest c.lc d }
  bump { s with bdy := { s.bdy with colophon := (held ++ [c]).drop ((held.length + 1) - 4096), coloSeq := c.seq, bootCount := c.boot } } 0 0

/-- The Colophon after a reset: a record formed less than 10 ms before is perhaps not whole, which a free value tells: its signature then
lies there as the cut write left it (R353, R354; DESIGN CHOICE, log entry 214). -/
def tornColophon (s : State) : List ColRec :=
  match s.bdy.colophon.getLast? with
  | some c =>
    if s.bdy.bootRecord ∧ s.tck.count < c.stitch + 2500 ∧ (Config.freeWord s.free).getLsbD 63 then
      s.bdy.colophon.dropLast ++ [{ c with signature := BitVec.ofNat 768 (leNat (Config.freeBytes s.free)) }]
    else s.bdy.colophon
  | none => []

/-- Boot counter and sequence as the newest record that counts gives them. -/
def shownColophon (b : Bdy) : Bdy :=
  let last := (b.colophon.filter recValid).getLast?
  { b with bootCount := (last.map (·.boot)).getD 0, coloSeq := (last.map (·.seq)).getD 0 }

/-! ### The NV directory (R349) -/

/-- What the copy's CRC-32C covers; the spec prints no layout (DESIGN CHOICE, log entry 215). -/
def dirBytes (d : DirCopy) : Bytes := natLe 8 d.seq ++ natLe 1 d.running ++ natLe 1 d.pendingSlot ++ natLe 1 d.attempts ++ natLe 1 d.sheetActive

/-- A copy of the directory is valid. -/
def dirValid (d : DirCopy) : Bool := decide (d.crc = crc32c (dirBytes d))

/-- Number of the valid copy with the higher sequence. -/
def newestDir (b : Bdy) : Option Nat :=
  match (look b.dirs 0).filter dirValid, (look b.dirs 1).filter dirValid with
  | some x, some y => some (if x.seq < y.seq then 1 else 0)
  | some _, none => some 0
  | none, some _ => some 1
  | none, none => none

/-- The directory in force: the newest valid copy; from manufacture, slot A and Endsheet copy 0. -/
def directoryInForce (b : Bdy) : DirCopy := (newestDir b).elim {} (fun k => getD b.dirs {} k)

/-- File the directory: the copy that does not hold the newer sequence is written. -/
def fileDirectory (s : State) : State :=
  let k := (newestDir s.bdy).elim 0 (1 - ·)
  let d : DirCopy := { seq := (directoryInForce s.bdy).seq + 1, running := s.bdy.running, pendingSlot := s.bdy.pendingSlot
                       attempts := s.bdy.attempts, sheetActive := s.bdy.sheetActive }
  { s with bdy := { s.bdy with dirs := ins s.bdy.dirs k { d with crc := crc32c (dirBytes d) } } }

/-! ### The non-volatile store (R347, R348) -/

/-- The regions of the NOR device: offset and size in bytes, in the table's order (R347); the rest is reserved. -/
def norRegions : List (Nat × Nat) :=
  [(0, 0x10000), (0x10000, 0x100000), (0x110000, 0x100000), (0x210000, 0x1000000), (0x1210000, 0x1000000), (0x2210000, 0x100000),
   (0x2310000, 0x100000), (0x2410000, 0x40000), (0x2450000, 0x10000), (0x2460000, 0x1000000), (0x3460000, 0x800000)]

/-- Parity bytes of an NV page written now: ⌈15t / 8⌉ for t of BDY_NOR_CFG (R348). -/
def nvParityBytes (s : State) : Nat := (15 * regBits s .bdyNorCfg 0 5 0 + 7) / 8

/-- Data bytes a region of a size holds: 2,048 in each sector of 4 KiB (R348). -/
def nvCapacity (size : Nat) : Nat := size / 4096 * 2048

/-- The 7-bit SMBus address of the endpoint (R356). -/
def smbAddress (s : State) : BitVec 7 := BitVec.ofNat 7 (0x1D + s.tck.twinId)

/-- Signature of the device section under the attestation key (R358). -/
def deviceSignature (s : State) : BitVec 768 := Config.attest (lifeCycle s) (Config.sha384 (deviceSection (sheet s)))

end Sys2Proof.Machine
end

