-- ==== Sys2Proof/Machine/Frames.lean ====
section
/-! DEFINITION. Frames that land or do not (03_stitch.md R44, R45, 16_headband_link.md R312 to R314, R322): the bay's role
(R292, R293), inputs of the units and axes, wobble records, absent frames, spot packets; stitch overruns (R49) and snapshots
(R51, R52). -/

namespace Sys2Proof.Machine

/-! ### Address units (R59, R60, R147, R148, R313) -/

/-- An address unit of a frame: the layer, frame and position are remembered, a wrong layer is answered by a further JUMP (R147), a wrong track after
a seek or a move by a corrective SEEK, or a move beyond SHORT_MAX (R148). -/
def addressUnit (s : State) (b e : Nat) (w : BitVec 56) : State :=
  let side := e / 4
  let opu := 2 * b + side
  let p := portAt s b
  let s := setPort s b { p with
    addrLayer := ins p.addrLayer side (addrLayer w), addrFrame := ins p.addrFrame side (addrFrame w)
    addrPos := ins p.addrPos side (addrPosition w), addrSeam := del p.addrSeam side }
  let s := match cellOf s opu 0 with
    | some n =>
      let c := cellAt s n
      if runs s b && c.st == .closed && c.seq.kind == .none && c.layer.any (fun l => l != addrLayer w) && !c.queue.any (fun q => q.op = 3) then
        orderCell s n 3 (c.layer.getD 0 + 16 * addrLayer w + 256)
      else s
    | none => s
  match cellOf s opu 1, look p.addrTarget side with
  | some n, some t =>
    let c := cellAt s n
    if c.st != .closed || c.seq.kind != .none || c.queue.any (fun q => q.op = 4) then s
    else
      let d := t - (4 * (frameBand (addrFrame w) : Int) + addrLane w - (e % 4 : Nat))
      if d = 0 then setPort s b { portAt s b with addrTarget := del p.addrTarget side }
      else if !runs s b then s
      else if d.natAbs ≤ sw c 5 then bump (orderCell s n 4 (ux 24 d)) 5 6
      else farMove s opu t
  | _, _ => s

/-- An address unit of a seam, a zone tail or the lead-in: the OPU follows it (R58, R60). -/
def seamUnit (s : State) (b e : Nat) (w : BitVec 56) : State :=
  let p := portAt s b
  setPort s b { p with addrLayer := ins p.addrLayer (e / 4) (addrLayer w), addrSeam := ins p.addrSeam (e / 4) (addrZone w) }

/-- A wobble record of emitter `e` is one of the lane's last three address units (R78); one with a correct CRC tells where the OPU is (R60). -/
def wobbleRecord (s : State) (b e : Nat) (w : Wobble) : State :=
  if !w.valid then s
  else
    let ok := addrCrcOk w.word
    let p := portAt s b
    let x : Option AddrSeen := if ok then some { word := w.word, stitch := w.stitch16.toNat, offset := w.offset.toNat } else none
    let s := setPort s b { p with addrSeen := ins p.addrSeen e ((x :: getD p.addrSeen [] e).take 3) }
    if !ok then s
    else if addrPosition w.word < 17 then addressUnit s b e w.word
    else if addrPosition w.word = 31 then seamUnit s b e w.word
    else s

/-! ### Roles (R292, R293) -/

/-- The twin's role for a bay by a frame: 1 runs, 2 shadows, 0 neither. A front end whose identity no Colophon record holds is not
run (R353). -/
def roleOf (s : State) (b : Nat) (f : SampleFrame) : Nat :=
  if f.obeys.toNat = s.tck.twinId then (if s.pwr.phase == .running && !(portAt s b).idRecorded then 0 else 1)
  else if (ownRec s b).shadow then 2 else 0

/-- A hand-over named by this twin, or by the other in its heartbeat, has reached its stitch (R307). -/
def handedOver (s : State) (b : Nat) : Bool :=
  ((pairAt s b).handover != 0 && decide ((pairAt s b).handover ≤ now s)) ||
    s.spn.peer.any (fun h => h.hStitch != 0 && decide ((h.hStitch.toNat : Int) - s.tck.pairOffset ≤ now s))

/-- A bay changes role at a frame: a takeover, the loss of the bay, or the first stitch of shadowing (R40, R188, R292 to R294, R302,
R307, R372); the spot and edge-code lanes of a bay taken over are woken (R310; that the wake bit asks for it PRESUMED, log entry 204). -/
def changeRole (s : State) (b : Nat) (f : SampleFrame) : State :=
  let p := pairAt s b
  let new := roleOf s b f
  if new = p.role then s
  else
    let handed := handedOver s b
    let s := setPair s b { p with
      role := new, switchAt := if new = 1 then some (now s) else none, handover := if handed then p.handover else 0, returnReq := false, returning := false, missed := false, hits := 0, askedAt := 0, resync := 0, ring := [], cmdRing := []
      withhold := if new = 1 ∨ handed then 0 else if (ownRec s b).shadow then 10 else 1 }
    if new = 1 then
      let y := bayAt s b
      let running := loopsClosed s (2 * b) && loopsClosed s (2 * b + 1) && (unitAt s b).locked
      let s := setBay s b { y with
        claim := false
        bringup := if y.mode = 5 then 0 else if !y.bringing ∨ running then 5 else y.bringup
        bringing := y.bringing && !running }
      let s := setPort s b { portAt s b with wake := true }
      let s := if p.role = 2 ∧ !handed then bump (loseArmed s) 4 3 else s
      if p.role = 2 then discLoad (dropRecords s b) b else s
    else if p.role = 1 then dropBayReads (revokeBay (if !handed && f.obeys.toNat == 1 - s.tck.twinId then loseArmed s else s) b) b
    else s

/-! ### Landing (R312) -/

/-- HBL counters and status of a landed frame. -/
def frameCounters (s : State) (b : Nat) (f : SampleFrame) : State :=
  let last := (portAt s b).last
  let s := if f.holding then bump s 3 1 else s
  let s := if last.any (fun l => l.obeys != f.obeys && l.obeys != 2 && f.obeys != 2) then bump s 3 2 else s
  if f.safeStop && f.obeys == 2 && !(last.any (fun l => l.safeStop && l.obeys == 2)) then bump s 3 3 else s

/-- Port state from a landed frame: eye widths, identity slice, the end of an absence (R199, R312, R322). -/
def framePort (s : State) (b : Nat) (f : SampleFrame) : State :=
  let p := portAt s b
  let sl := ins p.slices f.slice f.ident
  let changed := p.ident.any (fun i => (i.drop (8 * f.slice.val)).take 8 != fit 8 f.ident)
  let eyes := (List.range 3).map (fun i => p.eyes.getD i 0) ++ [f.eyeD0, f.eyeD1]
  let alarm := regBits s .calLaneCfg 0 7 0
  let low := [3, 4].filter (fun i => decide ((eyes.getD i 0).toNat < alarm) && !decide ((p.eyes.getD i 255).toNat < alarm))
  let s := setPort s b { p with
    landed := some f, slices := sl, idRecorded := p.idRecorded && !changed, eyes := eyes, absentRun := 0, absent := false
    stopped := p.stopped && f.obeys.toNat != s.tck.twinId }
  low.foldl (fun s i => event s 0x300 3 1 b 0xFF [i]) s

/-- Disc removed, or a safe stop that the frame shows and the twin did not order: R20, R188, R320. -/
def frameStops (s : State) (b : Nat) (f : SampleFrame) : State :=
  let last := (portAt s b).last
  let s := if last.any (·.disc) && !f.disc then (if runs s b then flyleafGains (dropRecords s b) b else dropRecords s b) else s
  let rise := f.safeStop && !(last.any (·.safeStop))
  if rise && (f.obeys == 2 || !runs s b) && !f.reset then stopBay s b false else s

/-- SAMPLE_FRAME_LAND: the frame is the stitch's input of the bay; one that fails its check is absent (R44). -/
def execSampleFrameLand (f : SampleFrame) (crcOk : Bool) (s : State) : Out :=
  if !crcOk then .next s
  else
    let b := f.bay.val
    let s := framePort (frameStops (frameCounters s b f) b f) b f
    let s := busFrame (changeRole s b f) b f
    if (pairAt s b).role = 0 then
      if f.reset ∧ f.obeys = 2 ∧ (ownRec s b).owner = s.tck.twinId ∧ ((portAt s b).idRecorded ∨ s.pwr.phase ≠ .running) then
        .next (setBay s b { bayAt s b with claim := true })
      else .next s
    else
      let s := if f.reset ∧ f.obeys = 2 ∧ (ownRec s b).owner = s.tck.twinId ∧ ((portAt s b).idRecorded ∨ s.pwr.phase ≠ .running) then
          setBay s b { bayAt s b with claim := true } else s
      let s := stageFault s b f
      let s := (List.zip (bayAxes b) f.axis).foldl (fun s e => axisInput s e.1 e.2) s
      let s := (List.zip (List.range 8) f.wobble).foldl (fun s e => wobbleRecord s b e.1 e.2) s
      if runs s b then
        let s := laserFrame (laserFrame s (2 * b) f) (2 * b + 1) f
        let s := streamOn (streamOn s (2 * b)) (2 * b + 1)
        let s := resumeMove (resumeMove s (2 * b)) (2 * b + 1)
        .next (tempTrigger (tempTrigger s (2 * b) f.tempA) (2 * b + 1) f.tempB)
      else .next s

/-- SAMPLE_FRAME_ABSENT: no frame by 400 ns: nothing is computed for the bay; the absence is counted (R44, R322). -/
def execSampleFrameAbsent (bay : Fin 8) (s : State) : Out :=
  let p := portAt s bay
  if p.landed.isSome ∨ p.absent then .next s
  else
    let y := bayAt s bay
    .next (bump (setBay (setPort s bay { p with absent := true, absentRun := min (p.absentRun + 1) 255 }) bay
      { y with absentTotal := y.absentTotal + 1 }) 3 0)

/-- ABSENT_STOP: ABSENT_STOP consecutive absent frames of a bay the twin runs: no more command frames (R322). -/
def execAbsentStop (bay : Fin 8) (s : State) : Out :=
  let p := portAt s bay
  if !runs s bay ∨ p.stopped ∨ p.absentRun < regBits s .hblCfg 0 7 0 then .next s
  else .next (bump (setPort s bay { p with stopped := true }) 3 7)

/-! ### Spot packets (R85 to R88, R98, R111, R314) -/

/-- The address unit that a spot's folios are counted from, in samples: that of its lane's newest good wobble record; the trail spot comes 400 channel
bits later (R59, R87, R93, R313). -/
def unitBase (s : State) (b spot n : Nat) : Option Nat :=
  ((getD (portAt s b).addrSeen [] (4 * (spot / 8) + spot % 8 / 2)).findSome? id).map (fun a =>
    a.stitch * n + a.offset + (if spot % 2 = 1 then 400 else 0))

/-- SPOT_PACKET: 256 samples of an enabled spot go through its channel cell; a packet that fails its CRC, or whose offset is none of the stitch, is
discarded, and the samples that then lack are an absent span (R111, R314, R324). -/
def execSpotPacket (bay : Fin 8) (spot : Fin 16) (stitch16 offset : Half) (samples : Bytes) (crcOk : Bool) (s : State) : Out :=
  let n := samplesPerStitch (portAt s bay).rate
  let opu := 2 * bay.val + spot.val / 8
  if !runs s bay || !(portAt s bay).spotEn.getLsbD spot then .next s
  else match chanOf s opu (spot.val % 8) with
    | none => .next s
    | some k =>
      let c := chanAt s k
      if !crcOk then .next (bump s 3 4)
      else if n ≤ offset.toNat then .next s
      else
        let g := chanCfg s opu (((chanRecOf s opu (spot.val % 8)).map (·.target)).getD 0) c.retrain
        .next (setChan s k (packetStep g n (unitBase s bay spot n) c (stitch16.toNat * n + offset.toNat) samples))

/-! ### Stitch overruns (R49, R150, R294) -/

/-- STITCH_OVERRUN: the deadline monitor's check 1, 2 or 3 failed for some bays, or an uncorrected error stands in a cell (check 0,
R150): an owned bay safe-stops and the twin is told; a shadow bay withholds (R49). Check 3 comes after the stitch's frame has left,
so it concerns the stitch before. -/
def execStitchOverrun (bays : Byte) (check : Fin 4) (s : State) : Out :=
  let k := if check = 3 then now s - 1 else now s
  let hit := (baysIn bays).filter (fun b => (pairAt s b).role ≠ 0)
  if hit = [] then .next s
  else
    let s := { s with tck := { s.tck with
      ovStitch := k, ovCheck := check, ovBays := maskOf (fun b => hit.contains b), ovNow := s.tck.ovNow ||| maskOf (fun b => hit.contains b) } }
    let s := countEvent s 1 0 2 0xFF 0xFF [check, bays.toNat]
    .next (hit.foldl (fun s b =>
      if runs s b then
        let s := setBay s b { bayAt s b with overrun := true }
        send (stopBay s b false) (.overrun b k)
      else withhold s b 6) s)

/-- OVERRUN_PACKET_RECEIVE: the owner stopped the bay: no shadow ready until it has left safe stop and resynchronised (R49, R294). -/
def execOverrunPacketReceive (bay : Fin 8) (stitch : Dword) (s : State) : Out :=
  let _ := stitch
  if shadows s bay then .next (withhold (setBay s bay { bayAt s bay with overrun := true }) bay 4) else .next s

/-! ### Snapshots (R51, R52) -/

/-- The slot of a kind of snapshot. -/
def snapOf (s : State) (pair : Bool) : SnapSlot := if pair then s.tck.snapPair else s.tck.snapTwin
/-- The state with the slot of a kind holding `x`. -/
def setSnap (s : State) (pair : Bool) (x : SnapSlot) : State :=
  { s with tck := if pair then { s.tck with snapPair := x } else { s.tck with snapTwin := x } }

/-- Take a request for a snapshot at a stitch, or refuse it as busy: one pending or held of its kind (R51). -/
def askSnapshot (s : State) (due : Nat) (pair : Bool) : State :=
  let busy := (snapOf s pair).state != 0
  let s := { s with tck := { s.tck with snapRefused := busy } }
  if busy then s else setSnap s pair { state := 1, due := due }

/-- A request for a snapshot: at the next edge, or a pair snapshot at the third edge on both twins. While the link is down no other twin
hears of it and this one captures alone (DESIGN CHOICE, log entry 177). -/
def requestSnapshot (s : State) (pair : Bool) : State :=
  let due := if pair then now s + 3 else now s + 1
  let free := (snapOf s pair).state = 0
  let s := askSnapshot s due pair
  if pair ∧ free then send s (.mgmt (.snapshotRequest (BitVec.ofNat 64 due))) else s

/-- The kind that the registers show: the one held, the twin's first; else the one pending (log entry 178). -/
def shownPair (s : State) : Bool :=
  if s.tck.snapTwin.state = 2 then false else if s.tck.snapPair.state = 2 then true else decide (s.tck.snapTwin.state = 0)

/-- The snapshot that the registers show. -/
def shownSnap (s : State) : SnapSlot := snapOf s (shownPair s)

/-- The held snapshot that the registers show is released. -/
def releaseSnapshot (s : State) : State := if (shownSnap s).state = 2 then setSnap s (shownPair s) {} else s

/-- SNAPSHOT_REQUEST: TCK_SNAP_CTL.REQ. -/
def execSnapshotRequest (pair : Bool) (s : State) : Out := if barSealed s then .next s else .next (requestSnapshot s pair)

/-- What a snapshot holds (R52): the states of every unit as they stand at the edge, and the commit stitch of the last trim applied, one that
commits at this edge included. -/
def takeSnap (s : State) : Snap :=
  { cells := s.cells, units := s.units, axes := s.axes, chans := s.rdc.chans, stitch := now s
    bindingId := (s.bnd.active.map (·.ident)).getD 0
    trimStitch := BitVec.ofNat 64 (if trimCommits s then now s else s.bnd.trimStitch), number := s.tck.snapNumber + 1 }

/-- Capture a kind of snapshot at its edge. -/
def captureKind (s : State) (pair : Bool) : State :=
  let x := snapOf s pair
  if x.state = 1 ∧ x.due = now s then
    let s' := setSnap s pair { x with state := 2, snap := some (takeSnap s) }
    { s' with tck := { s'.tck with snapNumber := s.tck.snapNumber + 1 } }
  else s

/-- SNAPSHOT_CAPTURE: at the named edge, and at no other, every unit latches (R51, R52). -/
def execSnapshotCapture (s : State) : Out := .next (captureKind (captureKind s false) true)

/-- SNAPSHOT_RELEASE: TCK_SNAP_CTL.RELEASE. -/
def execSnapshotRelease (s : State) : Out := if barSealed s then .next s else .next (releaseSnapshot s)

end Sys2Proof.Machine
end

