-- ==== Sys2Proof/Machine/Headband.lean ====
section
/-! DEFINITION. The bay front end and its ports (16_headband_link.md R309 to R324, R406), and the identity of a front end (R353). -/

namespace Sys2Proof.Machine

/-! ### What a port carries at an edge -/

/-- The command frame that an arrival carries with a correct CRC for this bay. -/
def cmdIn (b : Nat) : Arrival → Option CmdFrame
  | .command f true => if f.bay.val = b then some f else none
  | _ => none

/-- The arrival is a keepalive of this bay that shows shadow ready (R317). -/
def showsReady (b : Nat) : Arrival → Bool
  | .keep k true => decide (k.bay.val = b) && k.ready
  | _ => false

/-- The valid frame of the obeyed port at this edge (R317): its stitch is the front end's count, unless the first frame after a
switch or claim is exempt. -/
def validFrame (x : Bfe) (b : Nat) (a : Arrival) : Option CmdFrame :=
  (cmdIn b a).bind (fun f => if x.exempt || decide (f.stitch.toNat = x.count) then some f else none)

/-! ### Axis drivers (R173, R174, R185) -/

/-- Microsteps of a driver's phase index: four full steps (R172); drivers 0 and 1 are the sleds. -/
def indexSpan (i : Nat) : Nat := if i < 2 then 1024 else 256

/-- The signed way to a target named by its low 13 bits, from -4,096 to +4,095 (R174). -/
def stepWay (pos : Int) (x : Nat) : Int := ((x : Int) - pos + 4096) % 8192 - 4096

/-- A driver under an output word (R173): HOLD and STEP while energised, PARK latches the index, RELEASE drops it, ENERGISE restores it or
starts at 0. -/
def driveAxis (i : Nat) (d : BfeAxis) (w : Half) : BfeAxis :=
  match w.toNat / 8192 with
  | 1 => if d.powered then { d with pos := d.pos + stepWay d.pos (w.toNat % 8192) } else d
  | 2 => if d.powered then { d with powered := false, latched := some (d.pos % indexSpan i).toNat, retained := false } else d
  | 3 => { d with powered := false, latched := none, retained := false }
  | 4 => if d.powered then d
         else { d with powered := true, pos := ((d.latched.getD 0 : Nat) : Int), retained := d.latched.isSome, latched := none }
  | _ => d

/-- The front end's four drivers under the axis words in force. -/
def driveAxes (x : Bfe) : Bfe :=
  { x with drivers := (List.range 4).foldl (fun t i => put t {} i (driveAxis i (getD t {} i) (x.axis.getD i 0))) x.drivers }

/-! ### Streams and emitters (R116, R119 to R121) -/

/-- A field of an edge-code word. -/
def wordBits (w : Word) (hi lo : Nat) : Nat := bits w.toNat hi lo

/-- The drive of a mark of length `n` whose first bit lies at `t`, in T/32, with D_LEAD `dl`, D_TRAIL `dt` (R116): the pulses at Pw, Pc in the gaps of a
multi-pulse mark or Pm in a castle, then Pc for T_CL. Levels are numbered 0 Pw, 1 Pm, 2 Pc. -/
def markDrive (castle : Bool) (n : Nat) (t dl dt : Int) (tTop tLp tMp tCl : Nat) : List (Int × Int × Nat) :=
  let l := t + dl
  let e := t + (32 * n : Nat) + dt
  let body : List (Int × Int × Nat) :=
    if n = 2 then [(l, e, 0)]
    else if castle then [(l, l + tTop, 0), (l + tTop, e - tLp, 1), (e - tLp, e, 0)]
    else
      let ps : List (Int × Int) := (l, l + tTop) :: (List.range (n - 3)).map (fun k =>
        let a : Int := t + (32 * (k + 2) + 16 : Nat); (a, a + tMp)) ++ [(e - tLp, e)]
      ps.map (fun p => (p.1, p.2, 0)) ++ (List.zipWith (fun p q => (p.2, q.1, 2)) ps (ps.drop 1)).filter (fun x => decide (x.1 < x.2.1))
  body ++ (if tCl = 0 then [] else [(e, e + tCl, 2)])

/-- The run of a beam ends: Pb at once, with a cause (R121, R313). -/
def endBeam (b : Beam) (cause : Nat) : Beam := { b with words := [], at_ := none, drive := [], on := false, ended := cause, awaits := 0 }

/-- T/32 in a stitch of 2,400 channel bits. -/
def stitchUnits : Int := 76800

/-- A beam uses the words due in the stitch numbered `count`: start words and level sets at once, marks in the stitch they begin; an end word, a reserved
MARK, or no word where a mark is due ends the run (R119, R121); words of a run already ended are dropped. -/
def playBeam (count : Nat) : List Word → Beam → Beam
  | [], b => if b.on && b.at_.any (fun a => decide (a < stitchUnits)) then endBeam b 3 else { b with words := [] }
  | w :: ws, b =>
    let k := wordBits w 31 28
    if b.awaits = 2 then playBeam count ws { b with awaits := 1, levels := [wordBits w 29 20, wordBits w 19 10, wordBits w 9 0, b.levels.getD 3 0] }
    else if b.awaits = 1 then playBeam count ws { b with awaits := 0, levels := b.levels.take 3 ++ [wordBits w 9 0] }
    else if k = 14 then
      playBeam count ws { b with
        on := true, ended := 0, at_ := some (diff16 (wordBits w 27 12) (count % 65536) * stitchUnits + 32 * (wordBits w 11 0 : Nat)) }
    else if k = 1 then playBeam count ws { b with awaits := 2, tCl := wordBits w 15 10, tMp := wordBits w 9 5 }
    else match b.at_ with
      | none => playBeam count ws b
      | some a =>
        if stitchUnits ≤ a then { b with words := w :: ws }
        else if k = 0 then endBeam b 1
        else if k = 9 ∨ k = 10 ∨ k = 15 then endBeam b 2
        else
          let d := markDrive ((wordBits w 23 23) == 1) k a (sx 6 (wordBits w 22 17)) (sx 6 (wordBits w 16 11)) (wordBits w 10 5) (wordBits w 4 0) b.tMp b.tCl
          playBeam count ws { b with at_ := some (a + 32 * (k + wordBits w 27 24 : Nat)), drive := b.drive ++ d.map (fun x => (x.1, x.2.1, b.levels.getD x.2.2 0)) }

/-- A beam over the edge into the stitch numbered `count`: what of its drive lies ahead stays, the next mark's instant counts from the new edge. -/
def stepBeam (count : Nat) (b : Beam) : Beam :=
  let b := { b with
    at_ := b.at_.map (· - stitchUnits)
    drive := (b.drive.map (fun x => (x.1 - stitchUnits, x.2.1 - stitchUnits, x.2.2))).filter (fun x => decide (0 < x.2.1)) }
  playBeam count b.words b

/-- The causes of the ends of runs have been reported in one frame (R313). -/
def clearEnds (x : Bfe) : Bfe := { x with beams := x.beams.map (fun e => (e.1, { e.2 with ended := 0 })) }

/-- Every beam of a front end over an edge. -/
def stepBeams (x : Bfe) : Bfe := { x with beams := x.beams.map (fun e => (e.1, stepBeam x.count e.2)) }

/-- Every run of a front end ends (R121, R319, R320). -/
def endBeams (x : Bfe) : Bfe := { x with beams := x.beams.map (fun e => (e.1, if e.2.on then endBeam e.2 4 else { e.2 with words := [] })) }

/-! ### Safe stop (R320) -/

/-- Focus commands of both OPUs among the eight. -/
def focusOf (u : List Int) : List Int := [u.getD 0 0, u.getD 4 0]

/-- The eight commands with the given focus commands and zero elsewhere. -/
def focusOnly (fs : List Int) : List Int := [fs.getD 0 0, 0, 0, 0, fs.getD 1 0, 0, 0, 0]

/-- Spindle words that put all three phases OFF. -/
def allOff (ws : List Half) : Bool := ws.all (fun w => w.toNat / 16384 == 3)

/-- The loop and emitter steps of a safe stop begin: emitters off, focus ramps to zero, the other loops and axes at once. -/
def stopLoops (x : Bfe) : Bfe :=
  let x := endBeams x
  if x.safeStop then { x with emitters := false, axis := List.replicate 4 0 }
  else { x with
    safeStop := true, emitters := false, focusStart := focusOf x.u, focusI := 0, u := focusOnly (focusOf x.u), axis := List.replicate 4 0 }

/-- One edge of the focus ramp: trunc(u0 × (500 − i) / 500) (R320). -/
def rampFocus (x : Bfe) : Bfe :=
  if x.safeStop then
    let i := min (x.focusI + 1) 500
    { x with focusI := i, u := focusOnly (x.focusStart.map (fun u0 => Int.tdiv (u0 * (500 - i : Nat)) 500)) }
  else x

/-- Safe stop without a live port (R320): the spindle short-brakes unless its words put all phases OFF. -/
def ownStop (x : Bfe) : Bfe :=
  let x' := stopLoops x
  { x' with ownStop := true, obeys := 2, readySeen := false, braking := !allOff x.spin, runEnd := 4 }

/-! ### Applying a frame (R315, R318 to R320, R323) -/

/-- Alignment of the front end's edge to the sender's: at most 1 ns per stitch; ALIGN after 16 stitches outside 25 ns, until inside
10 ns (R318). -/
def alignEdge (x : Bfe) (off : Int) : Bfe :=
  let out := if 25 < off.natAbs then x.outside + 1 else 0
  { x with alignNs := x.alignNs + sgn off, outside := min out 16, align := if 16 ≤ out then true else if off.natAbs ≤ 10 then false else x.align }

/-- Rate code and retrain bits of an applied frame: reserved code 3 and a retrain of U0 or D0 outside Hold report an actuator driver
fault (R315, R323). -/
def frameExtras (x : Bfe) (f : CmdFrame) (hold : Bool) : Bfe :=
  { x with
    rate := if f.rate = 3 then x.rate else f.rate.toNat
    actFault := f.rate == 3 || (!hold && (f.retrain.getLsbD 0 || f.retrain.getLsbD 3)) }

/-- Apply a valid frame (R319 item 1): the miss count clears, HOLDING ends, the count follows the frame. A SAFE_STOP frame acts as
R320 and its spindle words are obeyed; a claimed front end finishes its safe-stop steps first (R321). -/
def applyFrame (x : Bfe) (f : CmdFrame) (off : Int) (hold : Bool) : Bfe :=
  let x := alignEdge { x with
    misses := 0, holding := false, last := some f, count := f.stitch.toNat + 1, exempt := false, hold := f.hold.toNat
    spin := f.spin, braking := false } off
  let x := frameExtras x f hold
  driveAxes <|
  if f.safeStop then { stopLoops x with ownStop := false }
  else if x.ownStop && decide (x.focusI < 500) then { x with axis := f.axis }
  else { x with
    safeStop := false, ownStop := false, u := (List.range 8).map (fun i => (f.u.getD i 0).toInt), axis := f.axis
    emitters := f.readEn != 0, runEnd := 0 }

/-- Obey the other port from this edge: the miss count restarts, the new port's first frame is exempt (R317, R319, R406). -/
def switchPort (x : Bfe) : Bfe := { x with obeys := 1 - x.obeys, misses := 0, exempt := true, readySeen := false }

/-- The frame names this edge as its hand-over edge: HANDOVER with H the stitch after the frame's. -/
def handsOver (f : CmdFrame) : Bool := f.handover && decide (f.hStitch.toNat = f.stitch.toNat + 1)

/-- The claim that a front end without a port accepts (R321): the only one, the owner's, else twin 0's. -/
def chosenClaim (b : Nat) (p0 p1 : Arrival) : Option (Nat × CmdFrame) :=
  let c (a : Arrival) := (cmdIn b a).bind (fun f => if f.claim then some f else none)
  match c p0, c p1 with
  | some f, some g => if g.owner && !f.owner then some (1, g) else some (0, f)
  | some f, none => some (0, f)
  | none, some g => some (1, g)
  | none, none => none

/-- One edge of a front end (R317 to R321); a claimed one follows the spindle words from the next edge. -/
def bfeStep (x : Bfe) (b : Nat) (p0 p1 : Arrival) (off : Int) (hold : Bool) : Bfe :=
  let x := rampFocus x
  if x.obeys = 2 then
    match chosenClaim b p0 p1 with
    | some (p, f) =>
      { x with
        obeys := p, reset := false, exempt := true, misses := 0, holding := false, count := f.stitch.toNat + 1, hold := f.hold.toNat
        last := some f, readySeen := false }
    | none => { x with count := x.count + 1, readySeen := false }
  else
    let mine := if x.obeys = 0 then p0 else p1
    let other := if x.obeys = 0 then p1 else p0
    let ready := showsReady b other
    match validFrame x b mine with
    | some f =>
      let y := { applyFrame x f off hold with readySeen := ready }
      if handsOver f && ready then switchPort y else y
    | none => { endBeams x with
        misses := min (x.misses + 1) 64, holding := true, count := x.count + 1, readySeen := ready
        runEnd := if x.emitters then 4 else x.runEnd }

/-- What a front end says of itself in the sample frame of its stitch (R312, R313): its port, its holds, its count, the ends of its streams, an
actuator driver fault. What its sensors read is not its state. -/
def bfeFrame (x : Bfe) (b : Fin 8) : SampleFrame :=
  { bay := b, obeys := BitVec.ofNat 2 x.obeys, safeStop := x.safeStop, holding := x.holding, reset := x.reset, readySeen := x.readySeen && x.obeys != 2
    align := x.align, misses := BitVec.ofNat 7 x.misses, slice := Fin.ofNat 6 x.count, stitch := BitVec.ofNat 64 x.count
    emit := (List.range 8).map (fun e => let m := getD x.beams {} e; { on := m.on || x.emitters, streamEnd := BitVec.ofNat 8 m.ended })
    faults := if x.actFault then 2 else 0 }

/-- BFE_EDGE: the front end applies a valid frame, holds, or accepts a claim; a hand-over may switch it; its emitters follow their streams (R116, R121,
R319, R321). -/
def execBfeEdge (bay : Fin 8) (port0 port1 : Arrival) (frameOffsetNs : Int) (s : State) : Out :=
  .next (setBfe s bay (stepBeams (bfeStep (clearEnds (bfeAt s bay)) bay port0 port1 frameOffsetNs ((bayAt s bay).mode == 5))))

/-- BFE_HOLD_EXPIRY: the miss count reached the hold stitches: the other port if its keepalive shows shadow ready, else safe stop
(R319 item 3, R320, R324). -/
def execBfeHoldExpiry (bay : Fin 8) (other : Arrival) (s : State) : Out :=
  let x := bfeAt s bay
  if x.obeys = 2 ∨ x.misses < x.hold then .next s
  else .next (setBfe s bay (if showsReady bay other then switchPort x else ownStop x))

/-- BFE_RESET: no port is obeyed, hold stitches 8, RESET shows until the first claim (R312, R319, R321). -/
def execBfeReset (bay : Fin 8) (s : State) : Out := .next (setBfe s bay {})

/-! ### Ports (R310, R324) -/

/-- HEADBAND_PORT_UP: U0 and D0 are trained; a port whose latency exceeds 150 ns is not brought up (R310). -/
def execHeadbandPortUp (port : Fin 8) (latNs : Half) (s : State) : Out :=
  if 150 < latNs.toNat then .next s
  else
    .next (setPort s port { portAt s port with
      up := true, lanes := 0x1F, latNs := latNs, slices := [], ident := none, idRecorded := false, wake := true })

/-- Spot streams that the upstream lanes left can carry, of 16: 12 on two lanes, 6 on one (R310, R324). -/
def streamsOn (lanes : Nat) : Nat := if 3 ≤ lanes then 16 else if lanes = 2 then 12 else if lanes = 1 then 6 else 0

/-- A mask cut to its first `n` set bits (log entry 22). -/
def firstBits (m : Half) (n : Nat) : Half :=
  let ks := ((List.range 16).filter (fun k => m.getLsbD k)).take n
  BitVec.ofNat 16 ((ks.map (fun k => 2 ^ k)).sum)

/-- HEADBAND_LANE_LOSS: an upstream lane is lost: packets move to the remaining lanes, fewer streams are enabled; without U0 the
port is down (R310, R324). -/
def execHeadbandLaneLoss (port : Fin 8) (lane : Fin 3) (s : State) : Out :=
  let p := portAt s port
  if !p.lanes.getLsbD lane then .next s
  else
    let l := p.lanes &&& ~~~(BitVec.ofNat 5 (2 ^ lane.val))
    let n := ((List.range 3).filter (fun i => l.getLsbD i)).length
    .next (event (setPort s port { p with
      lanes := l, up := p.up && l.getLsbD 0 && l.getLsbD 3, spotEn := firstBits p.spotEn (streamsOn n) }) 0 3 1 port 0xFF [lane])

/-- The identity that six slices spell. -/
def sliceIdent (p : Port) : Option Bytes :=
  if (List.range 6).all (fun i => (look p.slices i).isSome) then
    some ((List.range 6).flatMap (fun i => fit 8 (getD p.slices [] i)))
  else none

/-- BFE_IDENTITY_ASSEMBLED: all six slices have been seen; in service a new or changed identity is recorded in the Colophon before
the bay is run or claimed (R353 reason 5). -/
def execBfeIdentityAssembled (bay : Fin 8) (s : State) : Out :=
  let p := portAt s bay
  match sliceIdent p with
  | none => .next s
  | some i =>
    if s.pwr.phase ≠ .running then .next (setPort s bay { p with ident := some i })
    else if p.idRecorded ∧ p.ident = some i then .next s
    else
      let s := writeColophon (setPort s bay { p with ident := some i }) 5
      .next (setPort s bay { portAt s bay with idRecorded := true })

end Sys2Proof.Machine
end

