-- ==== Sys2Proof/Machine/Read.lean ====
section
/-! DEFINITION. The Read Channel Pool (05_read_channel.md R81 to R112): requests, passes, timing lock, framing, erasure pointers,
decoding, the retry ladder, the deadline. -/

namespace Sys2Proof.Machine

/-! ### Requests and passes -/

/-- The read request with a tag. -/
def readAt (s : State) (tag : Nat) : Option ReadSt := look s.rdc.reads tag
/-- Store a read request. -/
def setRead (s : State) (r : ReadSt) : State := { s with rdc := { s.rdc with reads := ins s.rdc.reads r.req.tag r } }
/-- The folio of a slot of a request. -/
def folioAt (r : ReadSt) (slot : Nat) : Option FolioRd := r.folios.find? (fun f => f.slot = slot)
/-- A request with a folio stored in place of the one of its slot. -/
def setFolio (r : ReadSt) (f : FolioRd) : ReadSt := { r with folios := r.folios.map (fun g => if g.slot = f.slot then f else g) }

/-- A request whose address names slots of the mounted volume (R63). -/
def readOk (s : State) (q : ReadReq) : Bool :=
  let m := q.leaf.surface.val
  s.qre.vol != 0 && !(surfAt s m).missing && !q.slots.isEmpty && q.slots.all (fun k => decide (k < 68) &&
    pfaOk s.qre.cur (pfa q.volume.toNat (m / 2) (m % 2) q.leaf.layer (folioNumber q.leaf.frame k)))

/-- The journal or the directory lists a slot of a leaf as written (R109): a leaf of a quire lies there, verified or with the slot's row good. -/
def listedWritten (s : State) (a : LeafAddr) (slot : Nat) : Bool :=
  s.qre.quires.any (fun e => e.2.leaves.any (fun l => l.surface == a.surface.val && l.layer == a.layer.val && l.frame == a.frame &&
    (l.st == 1 || l.st == 2) && decide (liveSlot l (slotRow l slot) = slot) && (l.st == 2 || l.good.contains (slotRow l slot))))

/-- A host command whose read names a bad address completes with Invalid Field (R63). -/
def refuseRead (s : State) (tag : Nat) : State :=
  match s.hiu.cmds.find? (fun c => (c.sqe.kind == .read || c.sqe.kind == .verify) && c.st == .media && c.seq == tag / 1024) with
  | some c => complete s c.ref .invalidField
  | none => s

/-- FOLIO_READ_REQUEST: a leaf's slots are asked for; the deadline runs from this stitch (R110). A request outside the volume is
refused (R63); one for a bay the other twin runs, or on a failed surface, is not accepted here: reconstruction serves it (R20, R81, R225). -/
def execFolioReadRequest (r : ReadReq) (s : State) : Out :=
  let b := r.leaf.surface.val / 2
  if (readAt s r.tag).isSome then .next s
  else if !readOk s r then .next (refuseRead s r.tag)
  else if !runs s b || surfState s r.leaf.surface == 2 then .next s
  else
    .next (setRead s {
      req := r, accepted := now s, deadline := now s + (modeRec s b).slowMs * Config.ms
      folios := r.slots.eraseDups.map (fun k => { slot := k, expect := r.expect || listedWritten s r.leaf k }) })

/-- Spots that a track is read from at a ladder step and pass (R92, R106): 0 lead, 1 trail. -/
def looks (s : State) (opu lane step pass : Nat) : List Nat :=
  if step = 4 then [pass % 2]
  else if runBits s opu .rdcCtl 2 2 = 1 || !hasPartner s opu lane then [0]
  else [0, 1]

/-- Passes of a ladder step (R106). -/
def passesOf (step : Nat) : Nat := if step = 4 then 2 else if step = 5 ∨ step = 6 then 4 else 1

/-- Sweep offset of a pass: +1, −1, +2, −2 steps (R106). -/
def sweepOf (s : State) (opu step pass : Nat) : Option (Bool × Int) :=
  let k : Int := [1, -1, 2, -2].getD pass 0
  if step = 5 then some (false, k * (runBits s opu .rdcSweepCfg 15 0 : Nat))
  else if step = 6 then some (true, k * (runBits s opu .rdcSweepCfg 31 16 : Nat))
  else none

/-- Apply a sweep offset through the loop cell's SWEEP input from the next folio boundary on (R108, R142): tilt or focus. -/
def orderSweep (s : State) (opu : Nat) (tilt : Bool) (v : Int) : State := orderOffset s opu (if tilt then 2 else 0) (65536 + ux 16 v)

/-- Remove the sweep offset of a request, if one is in force; it stays while another request on the OPU reads with it (R108, R110). -/
def dropSweep (s : State) (r : ReadSt) : State × ReadSt :=
  match r.sweep with
  | some (tilt, _) =>
    let others := s.rdc.reads.any (fun e => e.1 != r.req.tag && e.2.req.leaf.surface == r.req.leaf.surface && e.2.sweep == r.sweep)
    (if others then s else orderSweep s r.req.leaf.surface tilt 0, { r with sweep := none })
  | none => (s, r)

/-- Folios of a request that need media at a ladder step and pass. -/
def atStep (r : ReadSt) (step pass : Nat) : List FolioRd := r.folios.filter (fun f => needsMedia f && f.step == step && f.pass_ == pass)

/-- The lowest ladder step and pass at which a request needs media. -/
def nextPass (r : ReadSt) : Option (Nat × Nat) :=
  let w := r.folios.filter needsMedia
  let k := w.foldl (fun b f => min b (8 * f.step + f.pass_)) 64
  if w.isEmpty then none else some (k / 8, k % 8)

/-- Requests of the same leaf with folios that stand at a step and pass (R107). -/
def passRequests (s : State) (a : LeafAddr) (step pass : Nat) : List ReadSt :=
  (s.rdc.reads.map (·.2)).filter (fun r => r.req.leaf == a && !r.granted && !r.expired && !(atStep r step pass).isEmpty)

/-- Sample rate code and spot streams of the bay for a run (R87, R315, R375): the code changes only between read runs. -/
def runRate (s : State) (b zone : Nat) : State :=
  if readingBay s b then s else setPort s b { portAt s b with rate := rateCode s b zone }

/-- A pass of a read request waits for nothing but the OPU's readiness (R15, R83, R107, R110, R375). -/
def passWanted (s : State) (r : ReadSt) : Bool :=
  let opu := r.req.leaf.surface.val
  let b := opu / 2
  !r.granted && !r.expired && (nextPass r).isSome && runs s b && !(bayAt s b).safeStop && grantable s opu r.req.act &&
    (!readingBay s b || (portAt s b).rate == rateCode s b (frameZone r.req.leaf.frame))

/-- A pass of a read request may start now (R14). -/
def passMayStart (s : State) (r : ReadSt) : Bool := passWanted s r && opuReady s r.req.leaf.surface r.req.leaf.layer r.req.leaf.frame

/-- The layer's first use asks for its calibrations (R189, R190); the read then waits for them. -/
def layerUnused (s : State) (r : ReadSt) : Bool := !(calAt s r.req.leaf.surface r.req.leaf.layer).used

/-- The requests of a pass are in it: their folios at its step and pass begin, with its sweep offset. -/
def enterPass (s : State) (step pass : Nat) (want : Option (Bool × Int)) (r : ReadSt) : State :=
  setRead s { r with
    granted := true, sweep := want
    folios := r.folios.map (fun g => { g with started := needsMedia g && g.step == step && g.pass_ == pass }) }

/-- Sweep offset of the pass, in place of one in force (R108). -/
def changeSweep (s : State) (r : ReadSt) (want : Option (Bool × Int)) : State :=
  if r.sweep = want then s
  else
    let s := (dropSweep s r).1
    match want with
    | some (t, v) => orderSweep s r.req.leaf.surface t v
    | none => s

/-- A pass over a leaf starts (R15, R84, R106 to R108): every folio of the leaf at the step, from the first in folio order on. -/
def startPass (s : State) (r : ReadSt) (step pass : Nat) : State :=
  let opu := r.req.leaf.surface.val
  let s := latchCfg s opu
  let rs := passRequests s r.req.leaf step pass
  let slots := rs.flatMap (fun x => (atStep x step pass).map (·.slot))
  let want := sweepOf s opu step pass
  let s := runRate (changeSweep s r want) (opu / 2) (frameZone r.req.leaf.frame)
  let lanes := (List.range 4).filter (fun l => slots.any (fun k => slotLane k = l))
  let s := lanes.foldl (fun s l => (looks s opu l step pass).foldl (fun s d => loadChan s opu r.req.leaf.layer l d (step == 3)) s) s
  let s := jumpBack s opu r.req.leaf.frame (slots.foldl min 67)
  let s := { s with cal := { s.cal with curLayer := ins s.cal.curLayer opu r.req.leaf.layer } }
  let s := rs.foldl (fun s x => enterPass s step pass want x) s
  let s := { s with hiu := { s.hiu with cmds := s.hiu.cmds.map (fun (c : Cmd) =>
    if (c.sqe.kind = .read ∨ c.sqe.kind = .verify) ∧ c.st = .media ∧ rs.any (fun x => decide (c.seq = x.req.tag / 1024)) then { c with granted := true }
    else c) } }
  grant s opu r.req.act

/-- Requests that serve a host command carry its admission sequence × 1024 plus a number in their tag: a granted pass is media time for
that command (R266).
READ_PASS_START: media time goes to a pass over the leaf's folios at one ladder step (R15, R107); an OPU elsewhere is brought there first (R58,
R147, R148). -/
def execReadPassStart (tag : Nat) (s : State) : Out :=
  match readAt s tag with
  | none => .next s
  | some r =>
    let opu := r.req.leaf.surface.val
    if layerUnused s r && runs s (opu / 2) then .next (firstRead s opu r.req.leaf.layer)
    else if !passWanted s r then .next s
    else if !opuReady s opu r.req.leaf.layer r.req.leaf.frame then .next (goTo s opu r.req.leaf.layer r.req.leaf.frame)
    else match nextPass r with
      | none => .next s
      | some (step, pass) => .next (startPass s r step pass)

/-! ### Timing lock (R87, R88) -/

/-- TIMING_LOCK_DECLARED: the cell's mean phase error over 64 bits fell below LOCK_TH before channel bit 240; a slot without lock by then is blank
(R80, R87). -/
def execTimingLockDeclared (cell : Fin 64) (s : State) : Out :=
  let c := chanAt s cell
  if c.st = 0 then .next s
  else if c.cur.lockAt.isSome then .next (setChan s cell { c with blank := false })
  else if 240 ≤ c.cur.n then .next (setChan s cell { c with blank := true })
  else .next s

/-- TIMING_LOCK_LOSS: while tracking, a mean phase error above LOSS_TH over 256 bits: flywheel; the span without lock begins (R88). -/
def execTimingLockLoss (cell : Fin 64) (s : State) : Out :=
  let c := chanAt s cell
  if c.st = 2 ∧ errAbove 256 (runBits s c.opu .rdcTimingCfg 7 0) c.errs then
    .next (setChan s cell { c with st := 3, cur := { c.cur with lost := c.cur.lost ++ [(c.cur.n, none)] } })
  else .next s

/-- The first resync that begins after a bit of a look and is found at 4 bits or less from its place (R88, R96). -/
def nextResync (s : State) (c : Chan) (n : Nat) : Option Nat :=
  let x := (softOf (spotTarget s c.opu c.spot) c.cur).lik
  ((List.range 32).map (fun g => segmentFirst g - 32)).find? (fun p =>
    decide (n ≤ p) && decide (p + 36 ≤ c.cur.n) && (bestMark resyncBits x p 4 (runBits s c.opu .rdcMarkCfg 23 20)).isSome)

/-- TIMING_LOCK_REGAINED: the framer's next resync at 4 bits or less returns the cell to tracking, and the span without lock ends there (R88). -/
def execTimingLockRegained (cell : Fin 64) (s : State) : Out :=
  let c := chanAt s cell
  match c.cur.lost.getLast? with
  | some (n, none) =>
    if c.st ≠ 3 then .next s
    else match nextResync s c n with
      | some p => .next (setChan s cell { c with st := 2, cur := { c.cur with lost := c.cur.lost.dropLast ++ [(n, some p)] } })
      | none => .next s
  | _ => .next s

/-! ### The ladder (R106) -/

/-- Next media pass of the ladder after a failed decode (R106). -/
def climb (s : State) (opu : Nat) (f : FolioRd) : FolioRd :=
  let f := { f with inDecoder := false, queued := false, redecode := false, started := false }
  if f.step ≤ 2 then { f with step := 3, pass_ := 0 }
  else if f.pass_ + 1 < passesOf f.step then { f with pass_ := f.pass_ + 1 }
  else
    let n := f.step + 1
    let n := if n = 4 ∧ !hasPartner s opu (slotLane f.slot) then 5 else n
    { f with step := n, pass_ := 0 }

/-- A request with a folio one media pass further; a ladder that reaches the sweeps asks for calibration at its end (R21, R111). -/
def climbIn (s : State) (r : ReadSt) (f : FolioRd) : ReadSt :=
  let g := climb s r.req.leaf.surface f
  { setFolio r g with alarm := r.alarm || decide (5 ≤ g.step) }

/-- Signed report byte of a margin. -/
def sqmByte (v : Int) : Nat := ux 8 v

/-- Report of a folio that leaves the RDC (R105). -/
def reportOf (r : ReadSt) (f : FolioRd) (result : Nat) : Report :=
  { tag := r.req.tag, fn := folioNumber r.req.leaf.frame f.slot, result := result, step := f.step, iters := f.iters, dc := f.dc, sqmLead := f.sqmLead
    sqmTrail := f.sqmTrail, events := if r.degraded then f.events ||| 0x80 else f.events, opu := r.req.leaf.surface.val
    blank := result == 2 && f.blankAll, lane := slotLane f.slot, pointers := f.pointers }

/-- The 16 bytes of a report (R105). -/
def reportBytes (p : Report) : Bytes :=
  natLe 4 p.fn ++ natLe 1 p.result ++ natLe 1 p.step ++ natLe 1 p.iters ++ natLe 1 p.dc ++ natLe 1 (sqmByte p.sqmLead) ++
  natLe 1 (sqmByte p.sqmTrail) ++ [p.events] ++ natLe 1 (16 * p.opu + (if p.blank then 4 else 0) + p.lane) ++ natLe 4 p.pointers.toNat

/-- A folio leaves the RDC with a result: reported, in Audit also to the quality log, and counted; its likelihoods go (R103, R105, R112). -/
def deliver_ (s : State) (tag slot result : Nat) : State :=
  match readAt s tag with
  | none => s
  | some r =>
    match folioAt r slot with
    | none => s
    | some f =>
      let f' := { f with done := some result, inDecoder := false, queued := false, redecode := false, started := false, llr := [], words := [] }
      let i := if result = 0 then f.step - 1 else if result = 1 then 8 else if result = 2 then 6 else 7
      let s := setRead s (setFolio r f')
      let p := reportOf r f result
      let s := if opuMode s r.req.leaf.surface = 2 then { s with cal := { s.cal with quality := s.cal.quality ++ [p] } } else s
      bump { s with rdc := { s.rdc with
        reports := s.rdc.reports ++ [p]
        queue := s.rdc.queue.filter (fun q => !(q.1 == tag && q.2.1 == slot)) } } 8 i

/-! ### Strikes and failed surfaces (R225) -/

/-- A bay in Hold entry whose last grant has ended goes on to steps 2 to 5 (R378). -/
def settleHold (s : State) (b : Nat) : State :=
  let y := bayAt s b
  if y.holdEntry && y.grants.isEmpty then holdRetract s b else s

/-- A strike of a surface (R225): enough within the window fail it for scheduling, under R20, and ask for calibration. -/
def strike (s : State) (m layer : Nat) : State :=
  let x := surfAt s m
  let w := regBits s .qreSlowCfg 0 31 16 * Config.sec
  let ks := (x.strikes.filter (fun t => decide (now s < t + w))) ++ [now s]
  let s := bump (setSurf s m { x with strikes := ks }) 10 5
  if regBits s .qreSlowCfg 0 7 0 ≤ ks.length ∧ !x.failedStrikes then
    let s := setSurf s m { surfAt s m with failedStrikes := true }
    let s := vendorEvent (countEvent s 10 6 2 (m / 2) m) 4
    let s := surfaceFailed s m
    settleHold (checkVolume (qualityCal s m layer [.equaliser, .focus, .tilt])) (m / 2)
  else s

/-! ### The end of a pass and of a request -/

/-- The mean margin of a spot over the folios of the leaf read so far lies below HEALTHY (R91). -/
def leafDegraded (h : Nat) (r : ReadSt) : Bool :=
  let low (lane : Nat) (f : FolioRd → Int) : Bool :=
    let v := ((r.folios.filter (fun g => slotLane g.slot = lane)).map f).filter (fun x => x ≠ -128)
    !v.isEmpty && decide (v.sum < (h : Int) * v.length)
  (List.range 4).any (fun lane => low lane (·.sqmLead) || low lane (·.sqmTrail))

/-- The reports of a leaf's request carry the degraded mark, those delivered before too (R91, R105; log entry 200). -/
def markDegraded (s : State) (tag : Nat) : State :=
  let m (p : Report) : Report := if p.tag = tag then { p with events := p.events ||| 0x80 } else p
  { s with rdc := { s.rdc with reports := s.rdc.reports.map m }, cal := { s.cal with quality := s.cal.quality.map m } }

/-- The read run of an OPU ends when no request is left in its pass: cells idle, grant given back (R15, R84). -/
def endReads (s : State) (opu : Nat) : State :=
  if s.rdc.reads.any (fun e => e.2.granted && e.2.req.leaf.surface.val == opu) then s
  else match holder s opu with
    | some a => endGrant (idleCells s opu) opu a
    | none => s

/-- A request leaves its pass (R15, R91, R110). -/
def endPass (s : State) (tag : Nat) : State :=
  match readAt s tag with
  | none => s
  | some r =>
    let x := if r.expired then dropSweep s r else (s, r)
    let s := x.1
    let r := x.2
    let opu := r.req.leaf.surface.val
    let d := leafDegraded (runBits s opu .rdcSqmCfg 15 8) r
    let s := setRead s { r with
      granted := false, degraded := r.degraded || d, folios := r.folios.map (fun f => { f with started := false }) }
    let s := if d && !r.degraded then qualityCal (markDegraded s tag) opu r.req.leaf.layer [.equaliser, .focus, .tilt] else s
    endReads s opu

/-- The ladder of the leaf ends with the request: sweeps are removed, waiting calibration requests go out, a deadline counts a strike,
and the request is closed (R108, R111, R225). -/
def closeRead (s : State) (tag : Nat) : State :=
  match readAt s tag with
  | none => s
  | some r =>
    if r.granted || r.folios.any (fun f => f.done.isNone) then s
    else
      let opu := r.req.leaf.surface.val
      let x := dropSweep s r
      let s := if r.alarm then qualityCal x.1 opu r.req.leaf.layer [.equaliser, .focus, .tilt] else x.1
      let s := if r.folios.any (fun f => f.done = some 3) then strike s opu r.req.leaf.layer else s
      { s with rdc := { s.rdc with reads := del s.rdc.reads tag } }

/-- A request whose deadline expired and whose pass was ended by a loss of its grant: its sweep goes, and it is closed when nothing of it stands in
a decoder (R110). -/
def settleExpired (s : State) (tag : Nat) : State :=
  match readAt s tag with
  | none => s
  | some r =>
    if r.expired && !r.granted then
      let x := dropSweep s r
      closeRead (setRead x.1 x.2) tag
    else s

/-- A folio given up at step 7 puts its sealed quire into the rebuild queue, at the twin that built it (R226, log entries 24, 210). -/
def gaveUp (s : State) (r : ReadSt) : State :=
  match s.qre.quires.find? (fun e => e.2.st == 2 && e.2.leaves.any (fun l =>
    l.surface == r.req.leaf.surface.val && l.layer == r.req.leaf.layer.val && l.frame == r.req.leaf.frame && l.st == 2)) with
  | some e => if builtHere s e.2 then queueRebuild s e.1 else send s (.mgmt (.rebuildNote e.1))
  | none => s

/-- A folio that has climbed to step 7 goes to the Quire Engine as an erasure (R106). -/
def giveUp (s : State) (tag slot : Nat) : State :=
  match readAt s tag with
  | none => s
  | some r => if ((folioAt r slot).map (·.step)) = some 7 then gaveUp (deliver_ s tag slot 2) r else s

/-! ### FOLIO_READ_END -/

/-- What reading a folio gives: what the framer heard, D_c where two looks were combined, whether alignment failed, the spots read. -/
structure Reading where
  heard : Heard := {}
  dc : Option Nat := none
  fail : Bool := false
  spots : List Nat := []
deriving DecidableEq, Repr

/-- The margin of a spot's folio before in the run; at the start of a run none (R93). -/
def prevMargin (s : State) (opu lane side : Nat) : Option Int := (laneCell s opu lane side).bind (fun k => (chanAt s k).prevFolio)

/-- The spot that the combiner passes alone after a failed alignment: the one with the higher margin in the folio before, else the lead (R93). -/
def betterSpot (s : State) (opu lane : Nat) : Nat :=
  match prevMargin s opu lane 0, prevMargin s opu lane 1 with
  | some a, some b => if a < b then 1 else 0
  | _, _ => 0

/-- A cell has timing lock on the folio that ends (R87). -/
def lockedOn (s : State) (opu lane side : Nat) : Bool := (laneLook s opu lane side).lockAt.isSome

/-- A single look in a read of two: the margins of both spots are reported. -/
def hearOne (s : State) (opu lane side : Nat) : Heard :=
  let h := hearSingle s opu lane side
  let o := if lockedOn s opu lane (1 - side) then hearSingle s opu lane (1 - side) else {}
  if side = 0 then { h with sqm := (h.sqm.1, o.sqm.2), seg := (h.seg.1, o.seg.2) } else { h with sqm := (o.sqm.1, h.sqm.2), seg := (o.seg.1, h.seg.2) }

/-- Read a folio from the looks of a lane (R92 to R100); none where no cell read has lock: the slot is blank (R80). With lock on one spot of two, that one is
read alone (log entry 198). -/
def readLane (s : State) (opu lane : Nat) (ls : List Nat) : Option Reading :=
  match ls with
  | [0, 1] =>
    if lockedOn s opu lane 0 && lockedOn s opu lane 1 then
      match findDelay s opu lane with
      | some dc => some { heard := hearDual s opu lane dc, dc := some dc, spots := ls }
      | none => some { heard := hearOne s opu lane (betterSpot s opu lane), fail := true, spots := ls }
    else if lockedOn s opu lane 0 then some { heard := hearSingle s opu lane 0, fail := true, spots := [0] }
    else if lockedOn s opu lane 1 then some { heard := hearSingle s opu lane 1, fail := true, spots := [1] }
    else none
  | [d] => if lockedOn s opu lane d then some { heard := hearSingle s opu lane d, spots := ls } else none
  | _ => none

/-- Margin, weights, delay, amplitude and frame buffer of the cells of a lane after a folio (R84, R90, R91, R94, R95). -/
def noteCells (s : State) (opu lane : Nat) (x : Reading) : State :=
  x.spots.foldl (fun s d =>
    match laneCell s opu lane d with
    | none => s
    | some k =>
      let c := chanAt s k
      let q := (if d = 0 then x.heard.sqm.1 else x.heard.sqm.2).getD (-128)
      let g := if d = 0 then x.heard.seg.1 else x.heard.seg.2
      let alarm := decide (q < ((runBits s opu .rdcSqmCfg 7 0 : Nat) : Int))
      let pp := match c.look.ext with | some (a, b) => (b - a).toNat | none => 0
      setChan s k { c with
        sqmFolio := q, sqmSeg := g.getD (-128), prevFolio := some q, prevSeg := g
        wA := if x.dc.isSome then x.heard.a else 8, wB := if x.dc.isSome then 16 - x.heard.a else 8
        delay := match x.dc with | some v => v - 368 | none => 0x7F
        alarms := if alarm then min 65535 (c.alarms + 1) else c.alarms
        frameBuf := if d = 1 ∨ x.dc.isNone then x.heard.framed.buffer else c.frameBuf
        ppSum := c.ppSum + pp, ppN := c.ppN + 1, blank := false }) s

/-- Alarms of the spots read (R91): counted, and a calibration request, held back while the folio stands on the ladder (R111). -/
def sqmAlarms (s : State) (tag opu layer step : Nat) (qs : List Int) : State :=
  let n := (qs.filter (fun q => decide (q < ((runBits s opu .rdcSqmCfg 7 0 : Nat) : Int)))).length
  if n = 0 then s
  else
    let s := bumpN s 8 15 n
    if step < 3 then qualityCal s opu layer [.equaliser, .focus, .tilt]
    else match readAt s tag with
      | some r => setRead s { r with alarm := true }
      | none => s

/-- Counters of a folio's framing (RDC_CNT 9 to 14). -/
def frameCounts (s : State) (ev slips : Nat) (align : Bool) : State :=
  let s := if ev.testBit 0 then bump s 8 9 else s
  let s := if ev.testBit 1 then bump s 8 10 else s
  let s := if ev.testBit 2 then bump s 8 11 else s
  let s := if ev.testBit 3 then bump s 8 12 else s
  let s := if slips = 0 then s else bumpN s 8 13 slips
  if align then bump s 8 14 else s

/-- An activity of higher order waits, and the bay's Mode Table lets a pass yield to it (R15). -/
def yieldsNow (s : State) (opu act : Nat) : Bool :=
  (modeRec s (opu / 2)).yield_ && (waiting s opu).any (fun a => decide (grantRank s (opu / 2) a < grantRank s (opu / 2) act))

/-- After a folio's end: a request leaves the pass when its last folio has ended or its deadline has expired, every one at a yield (R15, R107,
R110). -/
def afterFolio (s : State) (tag : Nat) : State :=
  match readAt s tag with
  | none => s
  | some r =>
    let opu := r.req.leaf.surface.val
    let s := if r.granted && (r.expired || !(r.folios.any (·.started))) then endPass s tag else s
    let s := if yieldsNow s opu r.req.act then
        ((s.rdc.reads.filter (fun e => e.2.granted && e.2.req.leaf.surface.val == opu)).map (·.1)).foldl endPass s
      else s
    closeRead s tag

/-- A blank slot (R80, R109): returned at once, or, where a recording is expected, a step up the ladder. -/
def blankFolio (s : State) (tag : Nat) (r : ReadSt) (f : FolioRd) : State :=
  if !f.expect then deliver_ (setRead s (setFolio r { f with started := false })) tag f.slot 1
  else giveUp (setRead s (climbIn s r f)) tag f.slot

/-- Taps of the spots of a lane as a retrain pass left them, by spot (R106, R108). -/
def retrained (s : State) (opu lane : Nat) (f : FolioRd) : Tbl (List Int) :=
  if f.step ≠ 3 then []
  else [0, 1].filterMap (fun d => (laneCell s opu lane d).bind (fun k =>
    let c := chanAt s k
    if c.st ≠ 0 ∧ c.opu = opu ∧ c.spot = 2 * lane + d then some (2 * lane + d, c.taps) else none))

/-- A folio as read: pointers, events, margins, the stored likelihoods of its codewords (R100, R101, R103, R105). -/
def storeReading (s : State) (r : ReadSt) (f : FolioRd) (x : Reading) : FolioRd :=
  let h := x.heard
  { f with
    blankAll := false, started := false, pointers := h.ptr
    events := BitVec.ofNat 8 (h.framed.events + (if h.slips = 0 then 0 else 16) + (if h.lost then 32 else 0) + (if x.fail then 64 else 0))
    dc := match x.dc with | some d => d - 368 | none => 0xFF
    sqmLead := h.sqm.1.getD (-128), sqmTrail := h.sqm.2.getD (-128)
    llr := if h.framed.decode then codewordsOf h.framed.lik h.ptr else [], words := [], at_ := now s, sweptAt := r.sweep
    taps := retrained s r.req.leaf.surface (slotLane f.slot) f, cws := 8 }

/-- FOLIO_READ_END: a folio's stream has ended: framing, pointers, margins, and the codewords go to the decoder queue, or the folio
climbs the ladder (R88, R90 to R101, R109). -/
def execFolioReadEnd (tag slot : Nat) (s : State) : Out :=
  match readAt s tag with
  | none => .next s
  | some r =>
    match folioAt r slot with
    | none => .next s
    | some f =>
      if r.expired then .next (if r.granted then closeRead (endPass s tag) tag else settleExpired s tag)
      else if !r.granted || !f.started || f.done.isSome then .next s
      else
        let opu := r.req.leaf.surface.val
        let layer := r.req.leaf.layer.val
        match readLane s opu (slotLane slot) (looks s opu (slotLane slot) f.step f.pass_) with
        | none => .next (afterFolio (blankFolio s tag r f) tag)
        | some x =>
          let f' := storeReading s r f x
          let s := noteCells s opu (slotLane slot) x
          let s := frameCounts s x.heard.framed.events x.heard.slips x.fail
          let qs := [x.heard.sqm.1, x.heard.sqm.2].filterMap id
          if x.heard.framed.decode then
            let s := setRead s (setFolio r { f' with queued := true })
            let band := if r.req.classU then 0 else 1
            let s := { s with rdc := { s.rdc with queue := s.rdc.queue ++ [(tag, slot, band)] } }
            .next (afterFolio (sqmAlarms s tag opu layer f.step qs) tag)
          else
            let s := setRead s (climbIn s r f')
            .next (afterFolio (giveUp (sqmAlarms s tag opu layer f.step qs) tag slot) tag)

/-! ### Decoding (R102 to R104) -/

/-- Codewords that a queued folio needs decoders for. -/
def cwNeed (s : State) (tag slot : Nat) : Nat := (((readAt s tag).bind (folioAt · slot)).map (·.cws)).getD 8

/-- The stitch at which a queued folio was read. -/
def readTime (s : State) (q : Nat × Nat × Nat) : Nat := (((readAt s q.1).bind (folioAt · q.2.1)).map (·.at_)).getD 0

/-- Decoders that may be busy: 12, and 8 from ladder step 7 on (R102, R381). -/
def decoderLimit (s : State) : Nat := if 7 ≤ s.pwr.throttle then 8 else 12

/-- The folio that goes next: the oldest of the first band that has one (R103). -/
def nextQueued (s : State) : Option (Nat × Nat × Nat) :=
  [0, 1, 2].findSome? (fun b => (s.rdc.queue.filter (fun q => q.2.2 = b)).foldl (fun x q => match x with
    | some y => if readTime s q < readTime s y then some q else some y
    | none => some q) none)

/-- CODEWORD_DISPATCH: the codewords of the oldest folio of the first band go to decoders when enough are free (R103). -/
def execCodewordDispatch (s : State) : Out :=
  match nextQueued s with
  | none => .next s
  | some q =>
    let n := cwNeed s q.1 q.2.1
    if decoderLimit s < s.rdc.busy + n then .next s
    else
      let s := { s with rdc := { s.rdc with queue := s.rdc.queue.filter (fun x => x ≠ q), busy := s.rdc.busy + n } }
      match readAt s q.1 with
      | none => .next s
      | some r =>
        match folioAt r q.2.1 with
        | none => .next s
        | some f => .next (setRead s (setFolio r { f with queued := false, inDecoder := true }))

/-- The header of a payload names the folio addressed, with a correct CRC and the seed of R69 (R80, R104). -/
def headerOk (s : State) (r : ReadSt) (slot : Nat) (payload : Bytes) : Bool :=
  let m := r.req.leaf.surface.val
  let fn := folioNumber r.req.leaf.frame slot
  let want := pfa s.qre.cur (m / 2) (m % 2) r.req.leaf.layer fn
  let hp := field payload 0 8
  decide (payload.length = 33408) && decide (crc32c (payload.take 0x3C) = BitVec.ofNat 32 (field payload 0x3C 4)) &&
    decide (BitVec.ofNat 64 hp = want) &&
    decide (field payload 0x14 4 = scrambleSeed (bits hp 43 40) (bits hp 31 0) (field payload 0x10 4))

/-- Taps retrained on the ladder are offered as the first of two agreeing equaliser results (R108, R196). -/
def offerTaps (s : State) (opu layer : Nat) (taps : Tbl (List Int)) : State :=
  let cur := currentTaps s opu layer
  let cand := (List.range 8).flatMap (fun spot => match look taps spot with
    | some t => (List.range 15).map (fun i => t.getD i 0)
    | none => (cur.drop (15 * spot)).take 15)
  let s := dueCal s opu layer .equaliser false
  match jobOf s opu layer .equaliser with
  | some j => if j.running then s else setJob s { j with last := some cand }
  | none => s

/-- The sweep offset that worked goes to the calibration request of R21 (R108). -/
def sweepWorked (s : State) (opu layer : Nat) (tilt : Bool) (v : Int) : State :=
  let s := qualityCal s opu layer [.equaliser, .focus, .tilt]
  match jobOf s opu layer (if tilt then .tilt else .focus) with
  | some j => setJob s { j with offset := some (tilt, v) }
  | none => s

/-- A folio is accepted (R104, R108): its descrambled payload goes to the requester; a sweep or a retrain that worked is told to
calibration. -/
def acceptFolio (s : State) (tag slot : Nat) (r : ReadSt) (f : FolioRd) (payload : Bytes) : State :=
  let opu := r.req.leaf.surface.val
  let layer := r.req.leaf.layer.val
  let s := { s with rdc := { s.rdc with payloads := ins s.rdc.payloads (payKey opu layer (folioNumber r.req.leaf.frame slot)) (scramble (field payload 0x14 4) payload) } }
  let s := match f.sweptAt with
    | some (tilt, v) => if f.step = 5 ∨ f.step = 6 then sweepWorked s opu layer tilt v else s
    | none => s
  let s := if f.step = 3 then offerTaps s opu layer f.taps else s
  deliver_ s tag slot 0

/-- A decode of a folio's codewords that have none yet, under a limit: those with zero syndrome are kept; the most iterations used (R102, R106). -/
def decodeFolio (limit : Nat) (f : FolioRd) : FolioRd :=
  let todo := (List.range 8).filter (fun c => (look f.words c).isNone)
  let done := todo.map (fun c => (c, decodeWord limit (f.llr.getD c [])))
  { f with
    iters := done.foldl (fun m e => max m e.2.2.1) 0
    words := done.foldl (fun t e => if e.2.1 then ins t e.1 e.2.2.2 else t) f.words }

/-- Codewords of a folio without a zero syndrome. -/
def badWords (f : FolioRd) : Nat := ((List.range 8).filter (fun c => (look f.words c).isNone)).length

/-- The 33,408 bytes of a folio's 8 codewords (R71). -/
def wordsPayload (f : FolioRd) : Bytes := bitsBytes 33408 ((List.range 8).flatMap (fun c => getD f.words [] c))

/-- LDPC_DECODE_DONE: all 8 codewords with zero syndrome and a good header accept the folio; else the re-decode of step 2, or the next
ladder step (R102, R104, R106, R110). The second decode of a re-read, too, goes in the band of step 2 (DESIGN CHOICE, log entry 199). -/
def execLdpcDecodeDone (tag slot : Nat) (s : State) : Out :=
  match readAt s tag with
  | none => .next s
  | some r =>
    match folioAt r slot with
    | none => .next s
    | some f =>
      if !f.inDecoder then .next s
      else
        let opu := r.req.leaf.surface.val
        let again := decide (f.step = 2) || f.redecode
        let limit := if again then runBits s opu .rdcDecCfg 15 8 else runBits s opu .rdcDecCfg 7 0
        let f := { decodeFolio limit f with inDecoder := false }
        let bad := badWords f
        let payload := wordsPayload f
        let s := { s with rdc := { s.rdc with busy := s.rdc.busy - f.cws } }
        let r := setFolio r f
        let s := setRead s r
        if bad = 0 ∧ headerOk s r slot payload then
          .next (closeRead (acceptFolio s tag slot r f payload) tag)
        else if r.expired then .next (closeRead (deliver_ s tag slot 3) tag)
        else if 0 < bad ∧ !again then
          let f := { f with step := if f.step = 1 then 2 else f.step, queued := true, redecode := true, cws := bad }
          let s := setRead s (setFolio r f)
          .next { s with rdc := { s.rdc with queue := s.rdc.queue ++ [(tag, slot, 2)] } }
        else
          let s := setRead s (climbIn s r { f with cws := 8 })
          .next (closeRead (giveUp s tag slot) tag)

/-! ### The deadline (R110) -/

/-- READ_DEADLINE_EXPIRY: no new pass; folios neither decoded nor in a decoder return with result 3; sweeps go. A pass in
progress ends, and its sweep goes, at the end of the folio being read. -/
def execReadDeadlineExpiry (tag : Nat) (s : State) : Out :=
  match readAt s tag with
  | none => .next s
  | some r =>
    if now s < r.deadline then .next s
    else if r.expired then .next (settleExpired s tag)
    else
      let x := if r.granted then (s, { r with expired := true }) else dropSweep s { r with expired := true }
      let s := setRead x.1 x.2
      let s := (r.folios.filter (fun f => f.done.isNone && !f.inDecoder)).foldl (fun s f => deliver_ s tag f.slot 3) s
      .next (closeRead s tag)

end Sys2Proof.Machine
end

