-- ==== Sys2Proof/Machine/QuireCmd.lean ====
section
/-! DEFINITION. Events of the Quire Engine (11_quires.md R204 to R230): ages, journal commits and seals, the directory, mount and
unmount, reconstruction and rebuild. -/

namespace Sys2Proof.Machine

/-! ### Rebuilt leaves (R228) -/

/-- Folio Map entries of a leaf follow its relocation (R280). -/
def moveMap (s : State) (q i q' i' : Nat) : State :=
  (s.mem.map.filter (fun e => e.2.st == 1 && e.2.quire == q && e.2.leaf == i)).foldl (fun s e =>
    setMap s e.1 { e.2 with quire := q', leaf := i' }) s

/-- Journal an amendment record, in place of an earlier one of its leaf (R221, R228). -/
def recordAmend (s : State) (a : Amend) : State :=
  send { s with qre := { s.qre with amends := s.qre.amends.filter (fun b => decide (amendKey b ≠ amendKey a)) ++ [a] } } (.journal (.amendment a))

/-- Put a rebuilt leaf into the filling rebuild quire of its zone, or of the conventional log, opening one; it waits in the cache
where none opens (R207, R228). -/
def placeRebuilt (s : State) (n i : Nat) (lost : Dword) : State :=
  match quireAt s n with
  | none => s
  | some src =>
    let x := match fillingQuire s 2 src.nsid src.zone with
      | some q => some (s, q)
      | none => (openQuire s 2 src.nsid 0 src.zone).bind (fun y => (quireAt y.1 y.2).map (fun q => (y.1, q)))
    match x with
    | none => { s with qre := { s.qre with waiting := s.qre.waiting ++ [(n, i, lost)] } }
    | some (s, q) =>
      let t := q.folios / 64
      let s := moveBodies s n i q.number t
      let s := setQuire s { q with
        folios := q.folios + 64, blocks := q.blocks + 512, files := if q.files.contains n then q.files else q.files ++ [n]
        born := if q.folios = 0 then now s else q.born }
      let s := setQuire s { src with moved := ins src.moved i (q.number, t) }
      let a : Amend := { source := n, target := q.number, sleaf := i, tleaf := t, lost := lost }
      let s := recordAmend s a
      let s := bump (moveMap s n i q.number t) 10 8
      if t + 1 = q.width - 2 then closeQuire s q.number 0 else s

/-- Place the rebuilt leaves that wait (R228, R230). -/
def placeWaiting (s : State) : State :=
  let ws := s.qre.waiting
  ws.foldl (fun s w => placeRebuilt s w.1 w.2.1 w.2.2) { s with qre := { s.qre with waiting := [] } }

/-! ### Writes in the protected cache (R257, R259 to R262, R265, R286, R297) -/

/-- Write or Zone Append. -/
def isWrite (c : Cmd) : Bool := c.sqe.kind == .write || c.sqe.kind == .append
/-- Namespaces that a flush names: NSID 0xFFFF_FFFF names every one (R264). -/
def flushNames (c : Cmd) (nsid : Nat) : Bool := c.sqe.nsid == 0xFFFFFFFF || c.sqe.nsid.toNat == nsid

/-- A media barrier closes each filling quire that holds an earlier write, with cause 3 (R265). -/
def barrierClose (s : State) (c : Cmd) : State :=
  if c.barrier then
    (s.cmd.versions.filter (fun v => v.own && decide (v.seq < c.seq) && flushNames c v.nsid)).foldl (fun s v => closeFor s v.seq 3) s
  else s

/-- Close the filling quires of a FUA write at once, counting them (R262). -/
def fuaClose (s : State) (seq : Nat) : State :=
  let n := ((quiresOf s s.tck.twinId seq).filter (fun q => q.st = 0)).length
  closeFor (bumpN s 14 6 n) seq 2

/-- What waits for the seal of its data closes the filling quires that hold it, refilled ones too: FUA writes with cause 2, media barriers with
cause 3 (R262, R265, R270). -/
def closeWanted (s : State) : State :=
  s.hiu.cmds.foldl (fun s c =>
    if isWrite c && c.sqe.fua && c.st == .committed && !c.remote then fuaClose s c.seq
    else if c.sqe.kind == .flush && c.barrier && c.st == .admitted then barrierClose s c else s) s

/-- Data and leaves that wait for a quire go into new ones (R207, R216, R223, R228). -/
def refillNow (s : State) : State := closeWanted (placeWaiting (fillWaiting s))

/-- A block as it travels to the twin: IV, tag, ciphertext, PI field. -/
def packBlock (e : EncBlock) (pi : Bytes) : Bytes := fit 12 e.iv ++ natLe 16 e.tag.toNat ++ fit 4096 e.text ++ piField pi
/-- The block of its packed form. -/
def unpackBlock (b : Bytes) : EncBlock × Bytes :=
  ({ iv := b.take 12, tag := BitVec.ofNat 128 (field b 12 16), text := (b.drop 28).take 4096 }, (b.drop 4124).take 16)

/-- The journal record of an ingest record. -/
def ingestRec (i : Ingest) : JournalRec :=
  .ingest i.seq (BitVec.ofNat 32 i.nsid) i.blocks i.fua (if i.twin = 0 then 0 else 1) (BitVec.ofNat 64 i.lba)

/-- Mirror a version and its ingest records to the twin (R297). -/
def sendMirror (s : State) (v : Version) (is : List Ingest) : State :=
  let bs := (List.range v.nlb).map (fun i =>
    packBlock { text := v.blocks.getD i [], iv := v.ivs.getD i [], tag := v.tags.getD i 0 } (v.pis.getD i []))
  is.foldl (fun s i => send s (.journal (ingestRec i))) (send s (.mirrorData v.seq (BitVec.ofNat 32 v.nsid) (BitVec.ofNat 64 v.lba) bs))

/-- Granules that a write first touches are in the write buffer only (R280). -/
def mapBuffered (s : State) (v : Version) : State :=
  if v.nsid ≠ 1 then s
  else (granulesOf v.lba v.nlb).foldl (fun s g =>
    let e := mapAt s g
    if e.st = 0 then setMap s g { e with st := 2 } else s) s

/-- Put a version into the vault log's group; one that has its 4 MiB closes first (R261, R286). -/
def logVersion (s : State) (v : Version) : State :=
  let full := s.mem.group.filter (fun g => decide (4194304 ≤ g.bytes))
  let s := if full.isSome then { s with mem := { s.mem with group := none, closing := s.mem.closing ++ full.toList } } else s
  let g := (s.mem.group).getD { born := now s }
  { s with mem := { s.mem with group := some { g with seqs := g.seqs ++ [(v.twin, v.seq)], bytes := g.bytes + 4096 * v.nlb } } }

/-- A version whose write ends: its mirror, or the vault log's group, and its filling quires (R211, R261, R297). -/
def settleVersion (s : State) (seq : Nat) : State :=
  match s.cmd.versions.find? (fun v => v.own && v.seq == seq) with
  | none => s
  | some v =>
    let s := sendMirror s v (s.qre.ingest.filter (fun i => i.twin == v.twin && i.version == v.seq))
    let s := if s.cmd.prot = 1 then logVersion s v else s
    closeWanted (fillVersion s v)

/-- A write that ends before its last piece has committed keeps the pieces that have (R259, R268). -/
def keepPieces (s : State) (c : Cmd) : State := if isWrite c ∧ c.st = .data ∧ 0 < c.pieces ∧ !c.remote then settleVersion s c.seq else s

/-! ### Ages (R217, R376) -/

/-- The quire age timeout in stitches: the smallest value over the bays not in Hold, or over all bays (R217). -/
def ageTimeout (s : State) : Nat :=
  let out := (List.range 8).filter (fun b => (bayAt s b).mode ≠ 5)
  let over_ := if out = [] then List.range 8 else out
  (over_.map (fun b => (modeRec s b).ageS)).foldl min 255 * Config.sec

/-- QUIRE_AGE_TIMEOUT: a filling quire of this twin has reached its age: it closes, once a volume is open. -/
def execQuireAgeTimeout (quire : Nat) (s : State) : Out :=
  match quireAt s quire with
  | none => .next s
  | some q =>
    if q.st ≠ 0 ∨ q.twin ≠ s.tck.twinId ∨ q.folios = 0 ∨ now s < q.born + ageTimeout s then .next s
    else .next (refillNow (closeQuire s quire 1))

/-! ### Seal (R218, R221, R222) -/

/-- Sequence of the newest version of a quire that covers part of a granule. -/
def granuleSeq (s : State) (q : Quire) (g : Nat) : Nat :=
  (s.cmd.versions.filter (fun v => q.seqs.contains v.seq && v.twin == q.twin && meets v.nsid v.lba v.nlb q.nsid (16 * g) 16)).foldl
    (fun m v => max m v.seq) 0

/-- The Folio Map entries of a sealed conventional-log quire (R258, R280); a granule that a newer quire placed keeps its entry. -/
def mapGranules (s : State) (q : Quire) : State :=
  ((List.range q.granules.length).zip q.granules).foldl (fun s e =>
    let k := e.1
    let g := e.2
    let old := mapAt s g
    let n := granuleSeq s q g
    if old.st = 1 ∧ n < old.seq then s
    else
      let lost := (List.range 16).filter (fun b => old.lost.getLsbD b && (versionOf s (q.twin == s.tck.twinId) q.seqs q.nsid (16 * g + b)).isNone)
      setMap s g {
          st := 1, quire := q.number, leaf := 2 * k / 64, row := 2 * k % 64, lost := BitVec.ofNat 16 ((lost.map (fun b => 2 ^ b)).sum)
          seq := n }) s

/-- Records that a sealed directory quire files leave the journal (R222). -/
def fileRecords (s : State) (q : Quire) : State :=
  let s := { s with qre := { s.qre with amends := s.qre.amends.filter (fun a => !q.amends.contains (amendKey a)) } }
  q.files.foldl (fun s n => match quireAt s n with
    | some r => setQuire s { r with filed := true }
    | none => s) s

/-- The quire record in state sealed has committed: the quire is sealed, its data and ingest records may go (R218, R257). -/
def sealQuire (s : State) (q : Quire) : State :=
  let q' := { q with st := 2, sealAt := now s, sealing := false, committed := true, filed := q.kind == 3 }
  let s := bump (setQuire s q') 10 0
  let s := if q.kind = 2 then bump s 10 7 else s
  let s := if q.kind = 1 then mapGranules s q' else s
  let s := if q.kind = 3 then fileRecords s q'
    else { s with qre := { s.qre with unfiledAt := s.qre.unfiledAt <|> some (now s) } }
  releaseVersions (sendQuire s q.number)

/-- A directory quire closes when the unfiled records would fill it (R222). -/
def fileIfFull (s : State) : State := if s.qre.width ≠ 0 ∧ directoryRoom s ≤ directoryBytes s (unfiled s) (unfiledAmends s).length then closeDirectory s 0 else s

/-- The volume goes once this twin, and the other of a pair, have filed every record (R204, R208). -/
def finishUnmount (s : State) : State :=
  if s.qre.unmounting && s.qre.filedHere && (s.qre.filedThere || !s.spn.paired) then
    { s with qre := { s.qre with vol := 0, cur := 0, unmounting := false, filedHere := false, filedThere := false } }
  else s

/-- The next step of an unmount (R208): filling quires closed and sealed, then every record filed, then the volume goes. -/
def unmountStep (s : State) : State :=
  let busy (s : State) : Bool := s.qre.quires.any (fun e => e.2.st == 1 && e.2.twin == s.tck.twinId)
  if !s.qre.unmounting || s.qre.filedHere || busy s then s
  else
    let t := closeDirectory s 4
    if busy t then t
    else finishUnmount (send { t with qre := { t.qre with filedHere := true } } (.mgmt .volumeFiled))

/-- Every non-virtual leaf has a frame: a peer leaf has one once the other twin has answered; frames 0 to 7 are never given (R214,
R215). -/
def allPlaced (q : Quire) : Bool := q.leaves.all (fun l => l.st == 4 || decide (8 ≤ l.frame))

/-- JOURNAL_COMMIT_DONE: the record stands in both copies, or in the vault: a closed quire's write runs may begin, or its seal takes
effect (R218, R221, R222). -/
def execJournalCommitDone (quire : Nat) (s : State) : Out :=
  match quireAt s quire with
  | none => .next s
  | some q =>
    if q.twin ≠ s.tck.twinId ∨ q.st ≠ 1 then .next s
    else if q.sealing then
      if allVerified q then .next (refillNow (unmountStep (fileIfFull (sealQuire s q)))) else .next s
    else if allPlaced q then .next (refillNow (setQuire s { q with committed := true })) else .next s

/-- DIRECTORY_AGE_TIMEOUT: the oldest unfiled record has reached DIR_AGE (R222). -/
def execDirectoryAgeTimeout (s : State) : Out :=
  match s.qre.unfiledAt with
  | none => .next s
  | some t =>
    if now s < t + regBits s .qreDirCfg 0 15 0 * Config.sec ∨ !placing s 3 then .next s
    else .next (checkVolume (closeDirectory s 1))

/-- Close a directory quire with the unfiled records (R222); its close cause is not stated. -/
def fileNow (s : State) : State := checkVolume (closeDirectory (drawn s) (openCause s))

/-- FILE_NOW: QRE_CTL.FILE_NOW. -/
def execFileNow (s : State) : Out := if barSealed s then .next s else .next (fileNow s)

/-! ### Mount and unmount (R204 to R208, R224) -/

/-- The catalogue reads of a mount begin, if the catalogue key is ACTIVE and no volume is mounted (R205, R334). -/
def beginMount (s : State) : State :=
  if s.qre.vol != 0 || s.qre.mounting then s
  else if (getD s.kst.slots {} 0).st ≠ 2 then event s 0 10 1
  else { s with qre := { s.qre with mounting := true } }

/-- MOUNT: QRE_CTL.MOUNT. -/
def execMount (s : State) : Out := if barSealed s then .next s else .next (beginMount s)

/-- Volume number of a directory finding whose disc is in its own bay. -/
def findVolume (m : Nat) : CatFinding → Option Nat
  | .directory v d _ _ _ _ _ _ _ _ => if d.val = m / 2 then some v.toNat else none
  | _ => none

/-- Directory sequence, open state and width of a finding. -/
def findState : CatFinding → Option (Nat × Bool × Nat)
  | .directory _ _ o w n _ _ _ _ _ => some (n, o, w)
  | _ => none

/-- A surface at a mount: afresh, missing where its bay holds no disc (R206, log entry 25). -/
def freshSurface (s : State) (m : Nat) : State :=
  setSurfW (setSurf s m { missing := !discIn s (m / 2) }) m {}

/-- Counted abandonments of a surface as the quire records show them: leaves that the Collation placed there and that have moved on (R126). The
records do not say which of them counted: every one does here (DESIGN CHOICE, log entry 212). -/
def countedAt (s : State) (rows : List (List Nat)) (v m : Nat) : Nat :=
  (s.qre.quires.map (fun e => if e.2.vol ≠ v then 0 else
    ((List.range e.2.leaves.length).filter (fun i =>
      decide (0 < (e.2.leaves.getD i {}).spills) && (rows.getD (e.1 % 64) []).getD i 16 == m)).length)).sum

/-- A surface's count at a restored mount, and the cause of its seal (R126). -/
def restoreCount (s : State) (rows : List (List Nat)) (v m : Nat) (found : CatFinding) : State :=
  let n := countedAt s rows v m
  let sealed := match found with | .directory _ _ _ _ _ _ _ _ _ state => state == 1 | _ => false
  setSurfW s m { abandoned := min n 255, readOnly := sealed || decide (8 ≤ n), cause := if 8 ≤ n then 1 else if sealed then 2 else 0 }

/-- A surface at a restored mount: without a journal for the volume its pointer follows the last recorded frame, its generation
stands 68 above the highest read (R224); with one, the pointer record stands (R223). -/
def restoreSurface (s : State) (m : Nat) (journal : Bool) (f : CatFinding) : State :=
  match f with
  | .directory _ _ _ _ _ layer frame gen cat _ =>
    let old := surfAt s m
    let n := nextFrame layer frame
    let x : Surf := if journal then { layer := old.layer, frame := old.frame, catFrame := old.catFrame, gen := old.gen }
      else { layer := n.1, frame := n.2, catFrame := max 184 (cat + 1), gen := gen + 68 }
    setSurf s m x
  | _ => setSurf s m { surfAt s m with missing := true }

/-- Absent sample frames are counted from the mount on (R251). -/
def clearAbsent (s : State) : State := forEach (List.range 8) (fun s b => setBay s b { bayAt s b with absentTotal := 0 }) s

/-- Filling quires of another width take the data that waits with them out again: it goes into quires of the volume that opens (R207, R209). -/
def rewidth (s : State) : State :=
  (s.qre.quires.filter (fun e => e.2.st == 0 && e.2.twin == s.tck.twinId && e.2.width != s.qre.width)).foldl (fun s e =>
    let s := unplaceRebuilt (refill s e.2) e.1
    { s with qre := { s.qre with quires := del s.qre.quires e.1 } }) s

/-- Closes that waited for a volume (R217): filling quires that are full, and those that have reached their age. -/
def closeDue (s : State) : State :=
  (s.qre.quires.filter (fun e => e.2.st == 0 && e.2.twin == s.tck.twinId && decide (0 < e.2.folios))).foldl (fun s e =>
    if quireBlocks e.2.width ≤ e.2.blocks then closeQuire s e.1 0
    else if e.2.born + ageTimeout s ≤ now s then closeQuire s e.1 1 else s) s

/-- A volume has opened: what waited for one goes on (R207, R217). -/
def volumeOpen (s : State) : State := refillNow (closeDue (rewidth s))

/-- Nothing read from the volume before stands (R204). -/
def freshPayloads (s : State) : State := { s with rdc := { s.rdc with payloads := [] } }

/-- A new volume (R205), numbered from QRE_VOLUME.NEXT, under the active Binding's Collation (R39). -/
def newVolume (s : State) (n : Nat) : State :=
  let s := forEach (List.range 16) freshSurface (clearAbsent (freshPayloads s))
  let b := s.bnd.active.getD {}
  volumeOpen (setReg { s with qre := { s.qre with
    vol := 1, cur := n, mounting := false, width := b.width, rows := b.rows, collDigest := b.collDigest, lossCount := 0, losses := []
    dirSeq := 0, prevDir := none } } .qreVolume 0 ((n + 1) % 65536 * 65536))

/-- A restored volume (R205, R222, R224). -/
def oldVolume (s : State) (v : Nat) (found : List CatFinding) (rows : List (List Nat)) (coll : BitVec 384) (records : List Quire)
    (amends : List Amend) : State :=
  let s := clearAbsent (freshPayloads s)
  let journal := decide (s.qre.cur = v)
  let st := (found.filterMap findState).foldl (fun b x => if b.1 ≤ x.1 then x else b) (0, false, 16)
  let s := (List.range 16).foldl (fun s m => restoreSurface s m journal (if discIn s (m / 2) then found.getD m .unread else .unread)) s
  let s := records.foldl (fun s q => if (quireAt s q.number).isSome then s else setQuire s { q with filed := true, committed := true }) s
  let s := amends.foldl (fun s a => match quireAt s a.source with
    | some q => setQuire s { q with
        moved := if a.target = 2 ^ 64 - 1 then q.moved else ins q.moved a.sleaf (a.target, a.tleaf)
        lostRows := ins q.lostRows a.sleaf a.lost.toNat }
    | none => s) s
  let s := (List.range 16).foldl (fun s m => restoreCount s rows v m (if discIn s (m / 2) then found.getD m .unread else .unread)) s
  let mine := records.filter (fun q => q.twin = s.tck.twinId)
  let s := mapGranules_ s records
  let s := { s with qre := { s.qre with
    vol := 1, cur := v, mounting := false, width := st.2.2, rows := rows, collDigest := coll, lossCount := 0, losses := []
    dirSeq := st.1 + 1, nextSeq := mine.foldl (fun n q => max n (q.number % 2 ^ 63 + 1)) s.qre.nextSeq
    prevDir := (mine.filter (fun q => q.kind = 3)).foldl (fun b q => some (max (b.getD 0) q.number)) s.qre.prevDir } }
  let open_ := st.2.1 && decide (st.2.2 ≤ ((List.range 16).filter (writable s)).length)
  if open_ then volumeOpen s else { s with qre := { s.qre with vol := 2 } }
where
  /-- Folio Map of restored conventional-log quires, in the order of their numbers. -/
  mapGranules_ (s : State) (qs : List Quire) : State := (qs.filter (fun q => q.kind = 1)).foldl mapGranules s

/-- What the catalogue reads lead to (R205): a new volume of a number, the restored one, or nothing. -/
def mountVolume (s : State) (n : Nat) (found : List CatFinding) (rows : List (List Nat)) (collDigest : BitVec 384) (records : List Quire)
    (amends : List Amend) : Option State :=
  let read := (List.range 16).filter (fun m => discIn s (m / 2))
  let f (m : Nat) := found.getD m .unread
  if read.length = 16 ∧ read.all (fun m => f m = .blank) then some (newVolume s n)
  else (read.head?.bind (fun m => findVolume m (f m))).bind (fun v =>
    if read.all (fun m => findVolume m (f m) = some v) then some (oldVolume s v found rows collDigest records amends) else none)

/-- MOUNT_CATALOGUE_READ_DONE: the catalogue reads form a new volume, restore one, or refuse the mount (R205); what was found goes to the twin,
which mounts the same (R204, log entry 210). -/
def execMountCatalogueReadDone (found : List CatFinding) (rows : List (List Nat)) (collDigest : BitVec 384) (records : List Quire)
    (amends : List Amend) (s : State) : Out :=
  if !s.qre.mounting then .next s
  else
    let n := regBits s .qreVolume 0 31 16
    match mountVolume s n found rows collDigest records amends with
    | some t => .next (send t (.mgmt (.volumeMounted (BitVec.ofNat 16 n) found rows collDigest records amends)))
    | none => .next (event { s with qre := { s.qre with mounting := false } } 0 10 1)

/-- An unmount begins: filling quires close with padding (R208, R217). -/
def beginUnmount (s : State) : State :=
  if s.qre.vol == 0 || s.qre.unmounting then s
  else
    let fill := (s.qre.quires.filter (fun e => e.2.st == 0 && e.2.twin == s.tck.twinId && decide (0 < e.2.folios))).map (·.1)
    let s := fill.foldl (fun s n => closeQuire s n 4) s
    unmountStep { s with qre := { s.qre with unmounting := true } }

/-- An unmount asked of this twin; the other unmounts with it (R204). -/
def askUnmount (s : State) : State := if s.qre.vol == 0 || s.qre.unmounting then s else send (beginUnmount s) (.mgmt .volumeUnmount)

/-- UNMOUNT: QRE_CTL.UNMOUNT. -/
def execUnmount (s : State) : Out := if barSealed s then .next s else .next (askUnmount s)

/-! ### Reconstruction (R213, R225, R227 to R229) -/

/-- First LBA of a data folio in the loss report (R229); a rebuild quire's leaf reports the blocks of the leaf it relocates. -/
def lossLba (s : State) (q : Quire) (i j : Nat) : Nat :=
  if q.kind = 2 then
    match s.qre.quires.find? (fun e => e.2.moved.any (fun m => m.2 = (q.number, i))) with
    | some e => match e.2.moved.find? (fun m => m.2 = (q.number, i)) with
      | some m => (folioLbas e.2 (64 * m.1 + j)).headD 0
      | none => 0
    | none => 0
  else (folioLbas q (64 * i + j)).headD 0

/-- A lost data folio enters the loss report, once; the report keeps the last 4,096 (R229). -/
def reportLoss (s : State) (q : Quire) (i j : Nat) : State :=
  if s.qre.losses.any (fun l => l.quire == q.number && l.leaf == i && l.row == j) then s
  else
    let e : Loss := { quire := q.number, nsid := q.nsid, row := j, leaf := i, vol := q.vol, lba := lossLba s q i j, stitch := now s }
    { s with qre := { s.qre with
        losses := (s.qre.losses ++ [e]).drop ((s.qre.losses.length + 1) - 4096), lossCount := s.qre.lossCount + 1 } }

/-- Blocks of a lost folio of the conventional namespace are marked lost in their Folio Map entry (R258). -/
def markLost (s : State) (q : Quire) (i j : Nat) : State :=
  if q.kind ≠ 1 then s
  else
    let g := q.granules.getD ((64 * i + j) / 2) 0
    let e := mapAt s g
    if e.st = 1 ∧ e.quire = q.number then
      setMap s g { e with lost := e.lost ||| (if j % 2 = 0 then 0x00FF else 0xFF00) }
    else s

/-- A lost row of a leaf that is not relocated stands in an amendment record (R228). -/
def amendLost (s : State) (q : Quire) (i j : Nat) : State :=
  let was := getD q.lostRows 0 i
  if was.testBit j ∨ !builtHere s q then s
  else
    let m := was + 2 ^ j
    let s := match quireAt s q.number with
      | some o => setQuire s { o with lostRows := ins o.lostRows i m }
      | none => s
    match look q.moved i with
    | some _ => s
    | none => recordAmend s { source := q.number, target := 2 ^ 64 - 1, sleaf := i, tleaf := 255, lost := BitVec.ofNat 64 m }

/-- Leaves of a row whose folio is pad by position or virtual (R213). -/
def padLeaf (q : Quire) (i j : Nat) : Bool := decide (i + 2 < q.width) && decide (q.folios ≤ 64 * i + j)

/-- The body of a row's folio that this twin knows: decoded here, or by the other twin on a surface that it runs (R213, R215). -/
def knownBody (s : State) (q : Quire) (i j : Nat) (told : List (Nat × Bytes)) : Option Bytes :=
  let m := (q.leaves.getD i {}).surface
  match (deliveredRow s q.number i j).map (·.drop 0x40) with
  | some b => some b
  | none => if !runs s (m / 2) && s.spn.paired then (told.find? (fun e => e.1 = i)).map (fun e => fit 33344 e.2) else none

/-- Known bodies of a row, the pads among them (R213). -/
def knownRow (s : State) (q : Quire) (j : Nat) (told : List (Nat × Bytes)) : Tbl Bytes :=
  (List.range q.width).foldl (fun t i =>
    if padLeaf q i j then ins t i padBody
    else match knownBody s q i j told with
      | some b => ins t i b
      | none => t) []

/-- A folio of an expired request that is still in a decoder is returned with result 3: the reconstruction came first (R110). -/
def cancelLate (s : State) (q : Quire) (j : Nat) : State :=
  s.rdc.reads.foldl (fun s e =>
    let r := e.2
    let hits := r.folios.filter (fun f => f.inDecoder && r.expired && q.leaves.any (fun l =>
      l.surface == r.req.leaf.surface.val && l.layer == r.req.leaf.layer.val && l.frame == r.req.leaf.frame && slotRow l f.slot == j))
    hits.foldl (fun s f => closeRead (deliver_ { s with rdc := { s.rdc with busy := s.rdc.busy - f.cws } } e.1 f.slot 3) e.1) s) s

/-- A row's outcome in a reconstruction: counted, lost folios reported (R213, R227, R229). -/
def rowOutcome (s : State) (q : Quire) (j : Nat) (lost : List Nat) (rebuild : Bool) : State :=
  if 3 ≤ lost.length then
    lost.foldl (fun s i =>
      let s := if rebuild then s else amendLost s q i j
      if i + 2 < q.width then markLost (reportLoss s q i j) q i j else s) (bump s 10 11)
  else if rebuild ∧ lost.length = 1 then bump s 10 9
  else if rebuild ∧ lost.length = 2 then bump s 10 10
  else s

/-- Store the bodies of a row under the quire. -/
def storeRow (s : State) (q : Quire) (j : Nat) (t : Tbl Bytes) : State :=
  { s with qre := { s.qre with rebuilt := t.foldl (fun r e => ins r (bodyKey q.number (64 * e.1 + j)) e.2) s.qre.rebuilt } }

/-- The rebuild of a quire ends when every row has its outcome: hurt leaves are relocated (R228). -/
def finishRebuild (s : State) (n : Nat) : State :=
  match quireAt s n with
  | none => { s with qre := { s.qre with rebuilding := none } }
  | some q =>
    if q.rowsDone.length < 64 then s
    else
      let s := { s with qre := { s.qre with rebuilding := none } }
      let s := q.hurt.foldl (fun s i => placeRebuilt s n i (BitVec.ofNat 64 (getD q.lostRows 0 i))) s
      { s with qre := { s.qre with rebuilt := s.qre.rebuilt.filter (fun e =>
        decide (e.1 / 1024 ≠ n) || s.qre.waiting.any (fun w => w.1 == n && w.2.1 == e.1 % 1024 / 64)) } }

/-- RECONSTRUCTION_DONE: a row is reconstructed from the known folios, or is a lost row; in a rebuild the leaf's progress is kept
(R213, R225 to R229). -/
def execReconstructionDone (quire : Nat) (row : Fin 64) (told : List (Nat × Bytes)) (rebuild : Bool) (s : State) : Out :=
  match quireAt s quire with
  | none => .next s
  | some q =>
    if q.st ≠ 2 ∨ (rebuild ∧ (s.qre.rebuilding ≠ some quire ∨ q.rowsDone.contains row.val)) then .next s
    else
      let t := knownRow s q row told
      let lost := (List.range q.width).filter (fun i => (look t i).isNone)
      let s1 := cancelLate (rowOutcome s q row lost rebuild) q row
      let s2 := match reconstruct q.width t with
        | some full => storeRow s1 q row full
        | none => if rebuild then storeRow s1 q row t else s1
      if rebuild then
        let mask (i : Nat) : Nat := getD q.lostRows 0 i + (if 3 ≤ lost.length ∧ lost.contains i then 2 ^ row.val else 0)
        let q' := { q with
          rowsDone := q.rowsDone ++ [row.val], hurt := q.hurt ++ lost.filter (fun i => !q.hurt.contains i)
          lostRows := (List.range q.width).foldl (fun r i => put r 0 i (mask i)) q.lostRows }
        .next (withSmart s (finishRebuild (setQuire s2 q') quire))
      else .next (withSmart s s2)

/-! ### Rebuild (R225, R226) -/

/-- REBUILD_PAUSE: QRE_CTL.REBUILD_PAUSE holds or releases the queue. -/
def execRebuildPause (hold : Bool) (s : State) : Out := if barSealed s then .next s else .next (setReg s .qreCtl 0 (if hold then 2 else 0))

/-- REBUILD_START: the first quire of the queue is taken, if none is in rebuild and the queue is not held. -/
def execRebuildStart (s : State) : Out :=
  if regBits s .qreCtl 0 1 1 = 1 ∨ s.qre.rebuilding.isSome then .next s
  else match s.qre.rebuild with
    | [] => .next s
    | n :: rest =>
      let s := { s with qre := { s.qre with rebuild := rest } }
      match quireAt s n with
      | some q =>
        if q.st = 2 then .next (setQuire { s with qre := { s.qre with rebuilding := some n } } { q with hurt := [], rowsDone := [] })
        else .next s
      | none => .next s

/-- Clear the failure of a surface that strikes alone caused (R225). -/
def clearFail (s : State) (m : Nat) : State := noteSurface (setSurf s m { surfAt s m with failedStrikes := false, strikes := [] }) m

/-- CLEAR_FAIL: QRE_SURF_CTL.CLEAR_FAIL. -/
def execClearFail (surface : Fin 16) (s : State) : Out := if barSealed s then .next s else .next (clearFail s surface)

end Sys2Proof.Machine
end

