-- ==== Sys2Proof/Machine/Queues.lean ====
section
/-! DEFINITION. Queues, doorbells, controllers and fetch (12_host_interface.md R231 to R233, R235, R237 to R240, R253; R17, R50, R268,
R385). -/

namespace Sys2Proof.Machine

/-! ### Queues (R231, R237, R238) -/

/-- Queue pairs of a controller, admin included (R231). -/
def queueLimit (s : State) : Nat := if s.tck.split then 32768 else 65536
/-- MSI-X vectors of a controller (R231). -/
def vectorLimit (s : State) : Nat := if s.tck.split then 1024 else 2048
/-- Submission queue `q` of a controller. -/
def sqAt (s : State) (n q : Nat) : Option Sq := look s.hiu.sqs (qKey n q)
/-- Completion queue `q` of a controller. -/
def cqAt (s : State) (n q : Nat) : Option Cq := look s.hiu.cqs (qKey n q)
/-- The state with a submission queue stored. -/
def setSq (s : State) (n q : Nat) (x : Sq) : State := { s with hiu := { s.hiu with sqs := ins s.hiu.sqs (qKey n q) x } }
/-- The state with a completion queue stored. -/
def setCq (s : State) (n q : Nat) (x : Cq) : State := { s with hiu := { s.hiu with cqs := ins s.hiu.cqs (qKey n q) x } }

/-- The Queue Classes record of an I/O queue identifier (R29 type 0x05), the same on every controller; class B, medium, where none
names it. -/
def queueRec (s : State) (q : Nat) : QueueRec :=
  ((s.bnd.active.bind (fun b => b.queues.find? (fun x => decide (x.first ≤ q) && decide (q ≤ x.last)))).getD {})

/-- A queue is of class U: the admin queue, or as the Queue Classes section says (R50, R238). -/
def classU (s : State) (q : Nat) : Bool := q == 0 || (queueRec s q).cls == 0

/-- Queue contexts that a twin holds on chip (R237). -/
def chipContexts : Nat := 4096

/-- Contexts pinned on chip from creation to deletion: of admin queues and of class U queues (R237). -/
def pinned (s : State) : List Nat := (s.hiu.sqs.filter (fun e => e.2.classU)).map (·.1)

/-- A queue's context stands on chip (R237). -/
def contextHere (s : State) (k : Nat) : Bool := (pinned s).contains k || s.hiu.onChip.contains k

/-- A class B queue is used: its context comes on chip, the least recently used one goes where there is no room (R237). -/
def useContext (s : State) (k : Nat) : State :=
  if (pinned s).contains k ∨ (look s.hiu.sqs k).isNone then s
  else { s with hiu := { s.hiu with onChip := (k :: s.hiu.onChip.filter (· ≠ k)).take (chipContexts - (pinned s).length) } }

/-- Contexts of queues that are gone leave, and class B ones make room for pinned ones (R237). -/
def trimContexts (s : State) : State :=
  { s with hiu := { s.hiu with onChip :=
    (s.hiu.onChip.filter (fun k => (look s.hiu.sqs k).any (fun q => !q.classU))).take (chipContexts - (pinned s).length) } }

/-! ### Doorbells (R232) -/

/-- BAR0 offset of the tail doorbell of submission queue `y` (R232, R385). -/
def sqDoorbell (y : Nat) : Nat := 0x1000 + 8 * y
/-- BAR0 offset of the head doorbell of completion queue `y`. -/
def cqDoorbell (y : Nat) : Nat := 0x1004 + 8 * y

/-- A doorbell that names no queue, or a value beyond the queue, is discarded and raises an Error Status event. -/
def badDoorbell (s : State) (info : Nat) : State := asyncEvent s 0 info 1

/-- SQ_TAIL_DOORBELL: the tail moves and its commands become visible to the arbiter; never refused (R232, R239, R253). -/
def execSqTailDoorbell (ctrl : Fin 2) (qid : Fin 65536) (tail : Half) (s : State) : Out :=
  match sqAt s ctrl qid with
  | none => .next (badDoorbell s 0)
  | some q => if q.size ≤ tail.toNat then .next (badDoorbell s 1) else .next (useContext (setSq s ctrl qid { q with tail := tail.toNat }) (qKey ctrl qid))

/-- Completions that waited for a free entry are written, in the order they were posted, as far as their queues have room. -/
def drainHeld (s : State) : State :=
  s.hiu.held.foldl (fun s c =>
    if mustWait s c then { s with hiu := { s.hiu with held := s.hiu.held ++ [c] } } else writeEntry s c)
    { s with hiu := { s.hiu with held := [] } }

/-- CQ_HEAD_DOORBELL: the host has taken entries: they are free again (R232). -/
def execCqHeadDoorbell (ctrl : Fin 2) (qid : Fin 65536) (head : Half) (s : State) : Out :=
  match cqAt s ctrl qid with
  | none => .next (badDoorbell s 0)
  | some q => if q.size ≤ head.toNat then .next (badDoorbell s 1) else .next (useContext (drainHeld (setCq s ctrl qid { q with head := head.toNat })) (qKey ctrl qid))

/-! ### Controllers (R233, R268, R342, R385) -/

/-- Size of the admin queues in AQA: ASQS [11:0], ACQS [27:16], each zero-based. -/
def adminSizes (aqa : Word) : Nat × Nat := (bits aqa.toNat 11 0 + 1, bits aqa.toNat 27 16 + 1)

/-- The first readiness of a controller confirms a pending slot: it becomes the running one, and raises the firmware floor if its image asks
for it (R351). -/
def confirmSlot (s : State) : State :=
  if s.bdy.pendingSlot ≠ 0 ∧ s.bdy.booted = s.bdy.pendingSlot then
    let f := if s.bdy.running_.raiseFloor then min 255 s.bdy.running_.secVersion else 0
    fileDirectory { s with
             bdy := { s.bdy with running := s.bdy.pendingSlot, pendingSlot := 0, attempts := 0 }
             kst := { s.kst with fwFloor := { a := max s.kst.fwFloor.a f, b := max s.kst.fwFloor.b f, c := max s.kst.fwFloor.c f } } }
  else s

/-- CONTROLLER_ENABLE: CC.EN is set: the admin queues exist; CSTS.RDY follows at once in service, or at the end of start-up (R233,
R370). -/
def execControllerEnable (ctrl : Fin 2) (cc aqa : Word) (asq acq : Dword) (s : State) : Out :=
  let c := ctrlAt s ctrl
  if !(controllers s).contains ctrl.val || c.cc.getLsbD 0 || !cc.getLsbD 0 then .next s
  else
    let n := adminSizes aqa
    let s := setCtrl s ctrl { c with cc := cc, aqa := aqa, asq := asq, acq := acq, rdy := decide (s.pwr.phase = .running) && !c.cfs }
    let s := if (ctrlAt s ctrl).rdy then confirmSlot s else s
    .next (trimContexts (setCq (setSq s ctrl 0 { size := n.1, classU := true }) ctrl 0 { size := n.2, ien := true }))

/-- Every command of a controller ends without a completion; its queues and contexts go; runtime feature values are lost; the pieces of
writes that had committed keep their versions at their own admission order (R23, R259, R268, R342). Reads that waited on a dropped write proceed. -/
def endController (s : State) (n : Nat) : State :=
  let mine (r : CmdRef) : Bool := !r.peer && r.ctrl.val == n
  let s := (s.hiu.cmds.filter (fun d => mine d.ref)).foldl keepPieces s
  let c := ctrlAt s n
  { setCtrl s n { aqa := c.aqa, asq := c.asq, acq := c.acq, cfs := c.cfs } with
    hiu := { (setCtrl s n { aqa := c.aqa, asq := c.asq, acq := c.acq, cfs := c.cfs }).hiu with
      sqs := s.hiu.sqs.filter (fun e => decide (e.1 / 65536 ≠ n)), onChip := s.hiu.onChip.filter (fun k => decide (k / 65536 ≠ n))
      cqs := s.hiu.cqs.filter (fun e => decide (e.1 / 65536 ≠ n))
      held := s.hiu.held.filter (fun x => !mine x.ref)
      cmds := s.hiu.cmds.filter (fun d => !mine d.ref) } }

/-- CONTROLLER_RESET: CC.EN is cleared (R268, R369): other controllers are not touched. -/
def execControllerReset (ctrl : Fin 2) (s : State) : Out :=
  let s := endController s ctrl
  .next (releaseVersions (setCtrl s ctrl { ctrlAt s ctrl with cfs := false }))

/-- INTERRUPT_MASK_SET: INTMS: the vectors of the mask are masked (R385). -/
def execInterruptMaskSet (ctrl : Fin 2) (mask : Word) (s : State) : Out :=
  let c := ctrlAt s ctrl
  .next (setCtrl s ctrl { c with intMask := c.intMask ||| mask })

/-- INTERRUPT_MASK_CLEAR: INTMC: the vectors of the mask are unmasked, and those pending are sent (R385). -/
def execInterruptMaskClear (ctrl : Fin 2) (mask : Word) (s : State) : Out :=
  let c := ctrlAt s ctrl
  let m := c.intMask &&& ~~~mask
  let s := setCtrl s ctrl { c with intMask := m, pendingBits := [] }
  .next (c.pendingBits.foldl (fun s v => interrupt s ctrl v) s)

/-! ### Fetch (R17, R235, R238, R239) -/

/-- Value of feature 0x01, Arbitration: AB [2:0], LPW, MPW and HPW in the bytes above, zero-based; defaults 3, 0, 3, 7 (R236). -/
def arbitration (s : State) (n : Nat) : Nat :=
  (((look (ctrlAt s n).features 1).map (·.toNat)).orElse (fun _ =>
    (look (getD s.bdy.sheets {} s.bdy.sheetActive).features 1).map (·.toNat))).getD 0x07030003

/-- Commands of one fetch: 2^AB, unlimited with AB = 7. -/
def burst (s : State) (n : Nat) : Nat := let ab := arbitration s n % 8; if ab = 7 then 65536 else 2 ^ ab

/-- Entries of a submission queue not yet fetched. -/
def Sq.waiting (q : Sq) : Nat := (q.tail + q.size - q.head) % q.size

/-- The arbiter sees work in a queue: its controller is ready, it is not being deleted, entries wait. -/
def visible (s : State) (k : Nat) (q : Sq) : Bool :=
  (ctrlAt s (k / 65536)).rdy && q.deleting.isNone && decide (0 < q.waiting)

/-- Weighted round robin is in force: CC.AMS = 0b001. -/
def weighted (s : State) (n : Nat) : Bool := decide (bits (ctrlAt s n).cc.toNat 13 11 = 1)

/-- Group of a queue in the arbitration: 0 class U, else 1 high, 2 medium, 3 low; without weights all class B queues are one group. -/
def arbGroup (s : State) (k : Nat) (q : Sq) : Nat := if q.classU then 0 else if weighted s (k / 65536) then q.wrr + 1 else 2

/-- Keys of the queues of a group that have work. -/
def groupQueues (s : State) (g : Nat) : List Nat :=
  (s.hiu.sqs.filter (fun e => visible s e.1 e.2 && arbGroup s e.1 e.2 == g)).map (·.1)

/-- A group has work in the queues of a controller. -/
def groupWaits (s : State) (n g : Nat) : Bool := (groupQueues s g).any (fun k => k / 65536 == n)

/-- The queue of a group whose turn it is: the next one in the order of keys after the last one served. -/
def turn (s : State) (g : Nat) : Option Nat :=
  let ks := groupQueues s g
  match look s.hiu.rrLast g with
  | none => ks.head?
  | some l => (ks.find? (fun k => decide (l < k))).orElse (fun _ => ks.head?)

/-- Weight of a class B group in commands: HPW, MPW, LPW plus one. -/
def weightOf (s : State) (n g : Nat) : Nat :=
  let a := arbitration s n
  1 + (if g = 1 then bits a 31 24 else if g = 2 then bits a 23 16 else bits a 15 8)

/-- Commands that a class B group may still fetch before the weights start over. -/
def creditLeft (s : State) (n g : Nat) : Nat := weightOf s n g - getD s.hiu.wrrUsed 0 (4 * n + g)

/-- A class B group may be served: weights do not bind, or it has credit left, or no group with work has (then they start over). -/
def mayServe (s : State) (n g : Nat) : Bool :=
  !weighted s n || decide (0 < creditLeft s n g) || [1, 2, 3].all (fun h => !groupWaits s n h || creditLeft s n h == 0)

/-- Class B work waits. -/
def classBWaits (s : State) : Bool := [1, 2, 3].any (fun g => !(groupQueues s g).isEmpty)

/-- The arbiter may fetch from a queue now: class U first, except that after 31 class U fetches in a row one class B fetch is made
(R17, R238). -/
def fetchable (s : State) (k : Nat) (q : Sq) : Bool :=
  let g := arbGroup s k q
  visible s k q && turn s g == some k &&
    (if g = 0 then !(decide (31 ≤ s.hiu.uRun) && classBWaits s)
     else ((groupQueues s 0).isEmpty || decide (31 ≤ s.hiu.uRun)) && mayServe s (k / 65536) g)

/-- Commands fetched here that are not complete (R239). -/
def fetchedCount (s : State) : Nat := (s.hiu.cmds.filter (fun c => !c.ref.peer)).length

/-- The arbiter's record of a fetch of `n` commands; at the limit of R239 class U fetch is the first to go on. -/
def noteFetch (s : State) (k : Nat) (q : Sq) (n : Nat) : State :=
  let g := arbGroup s k q
  let u := if g = 0 then (if classBWaits s then s.hiu.uRun + 1 else 0) else 0
  let c := 4 * (k / 65536)
  let fresh := g ≠ 0 ∧ creditLeft s (k / 65536) g = 0
  let old := if fresh then s.hiu.wrrUsed.filter (fun e => e.1 / 4 ≠ k / 65536) else s.hiu.wrrUsed
  let used := if g = 0 then s.hiu.wrrUsed else put old 0 (c + g) (getD old 0 (c + g) + n)
  let u := if 131072 ≤ fetchedCount s + n then 0 else u
  { s with hiu := { s.hiu with uRun := u, wrrUsed := used, rrLast := ins s.hiu.rrLast g k } }

/-- A fetched entry becomes an outstanding command; an opcode that the G840 does not support completes at once (R235). -/
def takeEntry (s : State) (ctrl : Fin 2) (qid : Fin 65536) (u : Bool) (e : Sqe) : State :=
  let r : CmdRef := { ctrl := ctrl, sqid := qid, cid := e.cid }
  let s := { s with hiu := { s.hiu with cmds := s.hiu.cmds ++ [{ ref := r, sqe := e, classU := u, nlb := e.nlb }] } }
  if e.kind = .other then complete s r .invalidOpcode else s

/-- COMMAND_FETCH: the arbiter fetches up to AB commands from one queue, while the twin holds fewer than 131,072 and fetch is not
stopped (R238, R239, R269, R287). -/
def execCommandFetch (ctrl : Fin 2) (qid : Fin 65536) (entries : List Sqe) (s : State) : Out :=
  match sqAt s ctrl qid with
  | none => .next s
  | some q =>
    if !fetchable s (qKey ctrl qid) q || entries.isEmpty || decide (min (burst s ctrl) q.waiting < entries.length) ||
        decide (131072 < fetchedCount s + entries.length) || s.cmd.fetchPaused || !s.cmd.admission then .next s
    else
      let s := noteFetch s (qKey ctrl qid) q entries.length
      let s := setSq s ctrl qid { q with head := (q.head + entries.length) % q.size }
      .next (entries.foldl (fun s e => takeEntry s ctrl qid q.classU e) (useContext s (qKey ctrl qid)))

/-! ### Creating and deleting queues (R237, R240) -/

/-- CREATE_IO_CQ: a zero-based size of at least 1, an unused identifier, a vector of the controller. -/
def execCreateIoCq (r : CmdRef) (qid : Fin 65536) (size : Half) (vector : Half) (ien : Bool) (s : State) : Out :=
  if qid = 0 ∨ queueLimit s ≤ qid.val ∨ (cqAt s r.ctrl qid).isSome then .next (complete s r .invalidQueueId)
  else if size = 0 then .next (complete s r .invalidQueueSize)
  else if vectorLimit s ≤ vector.toNat then .next (complete s r .invalidVector)
  else .next (complete (setCq s r.ctrl qid { size := size.toNat + 1, vector := vector.toNat, ien := ien }) r .success)

/-- CREATE_IO_SQ: classes come from the Queue Classes section; QPRIO is ignored (R238). -/
def execCreateIoSq (r : CmdRef) (qid : Fin 65536) (size : Half) (cqid : Fin 65536) (s : State) : Out :=
  if qid = 0 ∨ queueLimit s ≤ qid.val ∨ (sqAt s r.ctrl qid).isSome then .next (complete s r .invalidQueueId)
  else if size = 0 then .next (complete s r .invalidQueueSize)
  else if cqid = 0 ∨ (cqAt s r.ctrl cqid).isNone then .next (complete s r .cqInvalid)
  else
    .next (complete (trimContexts (setSq s r.ctrl qid {
      size := size.toNat + 1, cqid := cqid, classU := classU s qid, wrr := (queueRec s qid).wrr })) r .success)

/-- DELETE_IO_SQ: fetch stops at once; completed when every command fetched from the queue has completed (R240). -/
def execDeleteIoSq (r : CmdRef) (qid : Fin 65536) (s : State) : Out :=
  match sqAt s r.ctrl qid with
  | none => .next (complete s r .invalidQueueId)
  | some q =>
    if qid = 0 ∨ q.deleting.isSome then .next (complete s r .invalidQueueId)
    else .next (finishDeletes (setSq s r.ctrl qid { q with deleting := some r }))

/-- DELETE_IO_CQ: refused while a submission queue uses it (R240). -/
def execDeleteIoCq (r : CmdRef) (qid : Fin 65536) (s : State) : Out :=
  if qid = 0 ∨ (cqAt s r.ctrl qid).isNone then .next (complete s r .invalidQueueId)
  else if s.hiu.sqs.any (fun e => e.1 / 65536 == r.ctrl.val && e.2.cqid == qid.val) then .next (complete s r .invalidQueueDeletion)
  else .next (complete { s with hiu := { s.hiu with cqs := del s.hiu.cqs (qKey r.ctrl qid) } } r .success)

end Sys2Proof.Machine
end

