-- ==== Sys2Proof/Machine/Pages.lean ====
section
/-! DEFINITION. What Identify and Get Log Page return (12_host_interface.md R231, R234, R241 to R243, R249 to R251; R203, R229, R355,
R363). The places of standard fields are those of NVMe 2.0 and ZNS (PRESUMED, log entry 26). -/

namespace Sys2Proof.Machine

/-- Fields at rising offsets, zeros between them, cut or filled to `n` bytes. -/
def layout (n : Nat) (fields : List (Nat × Bytes)) : Bytes :=
  fit n (fields.foldl (fun b f => fit f.1 b ++ f.2) [])

/-- Namespace `n`. -/
def nsAt (s : State) (n : Nat) : Option Ns := look s.hiu.ns n

/-- CNTLID of a controller (R231). -/
def cntlid (s : State) (n : Nat) : Nat := 1 + 2 * s.tck.twinId + n

/-- Hex digit of a number as a character code. -/
def hexDigit (n : Nat) : Byte := BitVec.ofNat 8 (if n < 10 then 48 + n else 87 + n)

/-- SUBNQN: the fixed prefix, then the pair serial in hexadecimal (R234). -/
def subnqn (s : State) : Bytes :=
  ("nqn.2021-04.com.lanvowald:sk-g840:".toList.map (fun c => BitVec.ofNat 8 c.toNat)) ++
    (List.range 32).map (fun i => hexDigit (s.bdy.serial.toNat / 16 ^ (31 - i) % 16))

/-- Identify Controller (R234): fields that its table does not list read as zero. -/
def identifyController (s : State) (n : Nat) : Bytes :=
  layout 4096 [(76, [0x0B, 9]), (78, natLe 2 (cntlid s n)), (92, natLe 4 0xB00), (256, natLe 2 0x0C), (258, [255, 15, 0x14, 0x06, 255, 0]), (266, natLe 2 373),
    (268, natLe 2 378), (342, [10, 0x17]), (344, natLe 4 2), (348, natLe 4 2), (512, [0x66, 0x44]), (516, natLe 4 32),
    (520, natLe 2 0xD0), (525, [0]), (526, natLe 2 63), (528, natLe 2 63), (536, natLe 4 1), (768, fit 256 (subnqn s)),
    (2048, natLe 2 5800)]

/-- Metadata bytes of an LBA format (R242). -/
def lbafMeta (f : Nat) : Nat := if f = 0 then 0 else if f = 1 then 8 else 16

/-- Identify Namespace (R241, R242). -/
def identifyNamespace (n : Ns) : Bytes :=
  layout 4096 [(0, natLe 8 n.nsze), (8, natLe 8 n.nsze), (16, natLe 8 n.nsze), (25, [3, BitVec.ofNat 8 n.lbaf, 3, 0x1F,
    BitVec.ofNat 8 (n.piType + if n.piFirst then 8 else 0), 1]), (92, natLe 4 n.ana),
    (128, (List.range 4).flatMap (fun f => natLe 2 (lbafMeta f) ++ [12, 0])), (3072, natLe 2 n.writeSlot),
    (3074, [if n.tagOnly then 1 else 0])]

/-- Identify Namespace for CSI 0x02 (R243). -/
def identifyZoned : Bytes :=
  layout 4096 [(4, natLe 4 1023), (8, natLe 4 1023), (2816, (List.range 4).flatMap (fun _ => natLe 8 1048576 ++ zeros 8))]

/-- A list of namespace identifiers above a given one. -/
def nsList (s : State) (above : Nat) (p : Ns → Bool) : Bytes :=
  fit 4096 ((s.hiu.ns.filter (fun e => decide (above < e.1) && p e.2)).flatMap (fun e => natLe 4 e.1))

/-- What Identify returns for a CNS value; none for one that is not supported. -/
def identifyData (s : State) (n cns nsid : Nat) : Option Bytes :=
  match cns with
  | 0x00 => if nsid = 0 ∨ 32 < nsid then none else some (((nsAt s nsid).map identifyNamespace).getD (zeros 4096))
  | 0x01 => some (identifyController s n)
  | 0x02 => some (nsList s nsid (fun x => x.attached.contains (cntlid s n)))
  | 0x03 => (nsAt s nsid).map (fun x => layout 4096 [(0, [4, 1, 0, 0, BitVec.ofNat 8 x.csi])])
  | 0x05 => (nsAt s nsid).map (fun x => if x.csi = 2 then identifyZoned else zeros 4096)
  | 0x06 => some (layout 4096 [(0, [9])])
  | 0x07 => some (nsList s nsid (fun x => x.csi == 2 && x.attached.contains (cntlid s n)))
  | 0x10 => some (nsList s nsid (fun _ => true))
  | 0x11 => some (((nsAt s nsid).map identifyNamespace).getD (zeros 4096))
  | 0x12 => (nsAt s nsid).map (fun x => fit 4096 (natLe 2 x.attached.length ++ x.attached.flatMap (natLe 2)))
  | 0x1C => some (layout 4096 [(0, natLe 8 5)])
  | _ => none

/-- IDENTIFY (R234). -/
def execIdentify (r : CmdRef) (cns : Byte) (nsid : Word) (s : State) : Out :=
  match identifyData s r.ctrl cns.toNat nsid.toNat with
  | some d => .next (complete s r .success 0 d)
  | none => .next (complete s r (if cns = 0 ∨ cns = 3 ∨ cns = 5 ∨ cns = 0x12 then .invalidNamespace else .invalidField))

/-! ### Log pages -/

/-- Composite temperature in kelvin: the hottest die sensor, 0.25 °C units (R234, R362). -/
def compositeK (s : State) : Nat := ((s.bdy.temps.foldl max (s.bdy.temps.headD 0)) / 4 + 273).toNat

/-- Data frames of a volume: every layer's frames but those of OPC, over 16 surfaces. -/
def placedFrames (s : State) : Nat := ((List.range 16).map (fun m => let x := surfAt s m; x.layer * (layerFrames - 8) + (x.frame - 8))).sum

/-- The SMART page (R250); Percentage Used counts frames placed against the data frames of 16 surfaces of 16 layers. -/
def smartPage (s : State) : Bytes :=
  let spare := 100 * ((List.range 16).filter (writable s)).length / 16
  let used := if s.qre.vol = 1 then 100 * placedFrames s / (16 * 16 * (layerFrames - 8)) else 0
  layout 512 [(0, natLe 1 (critWarn s)), (1, natLe 2 (compositeK s)), (3, natLe 1 spare), (4, natLe 1 ((100 * s.qre.width + 15) / 16)),
    (5, natLe 1 used), (6, Config.stdData 0x02 0)]

/-- Firmware Slot Information: the running and the pending slot, the revisions of both slots. -/
def firmwarePage (s : State) : Bytes :=
  layout 512 [(0, natLe 1 (s.bdy.booted + 16 * s.bdy.pendingSlot)), (8, fit 8 (getD s.bdy.fwSlots {} 1).revision),
    (16, fit 8 (getD s.bdy.fwSlots {} 2).revision)]

/-- The ANA page (R246): change count, the two groups with their namespaces and states. -/
def anaPage (s : State) : Bytes :=
  natLe 8 s.hiu.anaChanges ++ natLe 2 2 ++ zeros 6 ++ [1, 2].flatMap (fun g =>
    let ns := (s.hiu.ns.filter (fun e => e.2.ana == g)).map (·.1)
    natLe 4 g ++ natLe 4 ns.length ++ natLe 8 s.hiu.anaChanges ++ natLe 1 (anaOf s g) ++ zeros 15 ++ ns.flatMap (natLe 4))

/-- Code of a cell state (R136). -/
def CellSt.code : CellSt → Nat
  | .parked => 0 | .search => 1 | .closed => 2 | .sequence => 3 | .held => 4 | .suspended => 5 | .retract => 6

/-- Code of a spindle state (R161). -/
def SpdSt.code : SpdSt → Nat
  | .off => 0 | .sense => 1 | .align => 2 | .ramp => 3 | .run => 4 | .regen => 5 | .short => 6 | .coast => 7 | .fault => 8

/-- Four 4-bit codes of an OPU's loops, focus in the low bits. -/
def loopCodes (s : State) (opu : Nat) (f : Cell → Nat) : Nat :=
  ((List.range 4).map (fun l => 16 ^ l * (match cellOf s opu l with | some n => f (cellAt s n) % 16 | none => 0))).sum

/-- Temperature of an OPU in its bay's last frame, 0.1 °C. -/
def opuTemp (s : State) (opu : Nat) : Int :=
  match lastFrame s (opu / 2) with | some f => if opu % 2 = 0 then f.tempA else f.tempB | none => 0

/-- One side of a bay in page 0xC0: 16 bytes (R251). -/
def sideStatus (s : State) (opu : Nat) : Bytes :=
  let layer := match cellOf s opu 0 with | some n => ((cellAt s n).layer).getD 0xFF | none => 0xFF
  let x := portAt s (opu / 2)
  natLe 2 (loopCodes s opu (fun c => c.st.code)) ++ natLe 2 (loopCodes s opu (·.cause)) ++ natLe 1 layer ++ natLe 1 (opuAt s opu).laser ++
  natLe 1 (surfState s opu) ++ natLe 1 (if opuReady s opu (getD x.addrLayer 16 (opu % 2)) (getD x.addrFrame 0 (opu % 2)) then 1 else 0) ++
  natLe 4 (ux 32 (micro (axisAt s opu).p)) ++ natLe 2 (ux 16 (micro (axisAt s (16 + opu)).p)) ++ natLe 2 (ux 16 (opuTemp s opu))

/-- The twin that runs a bay, by its last frame: 0xFF none. -/
def runner (s : State) (b : Nat) : Nat := if runs s b then s.tck.twinId else if obeyed s b ≤ 1 then obeyed s b else 0xFF

/-- A 64-byte entry of page 0xC0 (R251). -/
def bayStatus (s : State) (b : Nat) : Bytes :=
  let y := bayAt s b
  let p := portAt s b
  let u := unitAt s b
  let g := groupOf s b
  let flag (c : Bool) (k : Nat) : Nat := if c then 2 ^ k else 0
  let f := lastFrame s b
  let eyes := p.eyes ++ (match f with | some x => [x.eyeD0, x.eyeD1] | none => [])
  natLe 1 b ++ natLe 1 (ownRec s b).owner ++ natLe 1 (runner s b) ++ natLe 1 y.mode ++
  natLe 1 (flag (discIn s b) 0 + flag y.safeStop 1 + flag ((pairAt s b).peerReady || (pairAt s b).readySent) 2 + flag (s.bus.blocked.getLsbD g) 3 +
    flag (s.bus.tripped.getLsbD g) 4 + flag (s.tck.ovBays.getLsbD b) 5 +
    flag (s.cal.jobs.any (fun j => j.opu / 2 == b && j.running && j.blocking)) 6) ++
  natLe 1 (u.cause % 8 * 16 + u.st.code) ++ natLe 2 (ux 16 (unitRpm (spdPar s b) u)) ++ natLe 8 y.lastChange ++
  sideStatus s (2 * b) ++ sideStatus s (2 * b + 1) ++ natLe 2 ((match f with | some x => (x.spin.getD 0 0).toNat | none => 0) / 10) ++
  natLe 1 p.lanes.toNat ++ natLe 1 (eyes.foldl (fun m e => min m e.toNat) 255) ++ natLe 4 y.absentTotal ++ zeros 8

/-- Page 0xC0 (R251). -/
def bayPage (s : State) : Bytes := natLe 8 (now s) ++ natLe 1 s.tck.twinId ++ zeros 7 ++ (List.range 8).flatMap (bayStatus s)

/-- Page 0xC1, the quire loss report (R229). -/
def lossPage (s : State) : Bytes :=
  natLe 4 s.qre.losses.length ++ natLe 4 s.qre.lossCount ++ natLe 2 s.qre.cur ++ zeros 6 ++ s.qre.losses.flatMap (fun l =>
    natLe 8 l.quire ++ natLe 4 l.nsid ++ natLe 1 l.row ++ natLe 1 l.leaf ++ natLe 2 l.vol ++ natLe 8 l.lba ++ natLe 8 l.stitch)

/-- A strategy set as the 40 bytes of a calibration record. -/
def strategyBytes (t : Strategy) : Bytes :=
  (List.range 4).flatMap (fun k => [if t.shape.getD k false then 1 else 0] ++ natLe 1 (t.tTop.getD k 0) ++ natLe 1 (t.tLp.getD k 0)) ++
  t.dLead.flatten.map (fun v => BitVec.ofInt 8 v) ++ t.dTrail.flatten.map (fun v => BitVec.ofInt 8 v) ++ natLe 1 t.tMp ++ natLe 1 t.tCl ++ zeros 2

/-- A 512-byte calibration record (R203); zero for an entry that is not mounted, or whose bay this twin does not run (R188). -/
def calBytes (s : State) (opu layer : Nat) : Bytes :=
  let r := calAt s opu layer
  if s.qre.vol = 0 ∨ runs s (opu / 2) = false then zeros 512
  else
    let flags := r.valid.toNat + (if r.exhausted then 32 else 0) + (if r.runOnly then 64 else 0) + (if r.failed then 128 else 0)
    layout 512 [(0, natLe 2 s.qre.cur), (2, natLe 1 opu), (3, natLe 1 layer), (4, natLe 1 flags), (5, natLe 1 r.nextRun),
      (6, natLe 2 (ux 16 r.tempOpc)), (8, natLe 8 r.atOpc), (16, natLe 8 r.atEq), (24, natLe 2 (ux 16 r.focus)), (26, natLe 2 (ux 16 r.tilt)),
      (28, natLe 4 (ux 32 (correctorPos s opu layer))),
      (32, [0, 1, 2, 3].flatMap (fun k => (List.range 4).flatMap (fun l => natLe 2 (ux 16 (storedLevel s opu layer k l))))),
      (64, fit 40 (strategyBytes (strategyOf s opu layer))),
      (104, (List.range 86).map (fun z => BitVec.ofInt 8 (zoneTrim s opu layer z))),
      (192, (List.range 8).map (fun k => BitVec.ofInt 8 (getD r.gains 0 k))), (200, (List.range 8).map (fun k => BitVec.ofInt 8 (getD r.offsets 0 k))),
      (208, (currentTaps s opu layer).flatMap (fun v => natLe 2 (ux 16 v)))]

/-- Page 0xC2 (R203). -/
def calPage (s : State) : Bytes := (List.range 16).flatMap (fun o => (List.range 16).flatMap (calBytes s o))

/-- Page 0xC3: Colophon records, newest first (R355). -/
def colophonPage (s : State) : Bytes := (heldRecords s).reverse.flatMap colBytes

/-- A 64-byte event log entry (R363). -/
def eventBytes (s : State) (e : Event) : Bytes :=
  let body := natLe 8 e.seq ++ natLe 8 e.stitch ++ natLe 8 e.time.toNat ++ natLe 2 e.code ++ natLe 1 e.source ++ natLe 1 e.severity ++
    natLe 1 s.tck.twinId ++ natLe 1 e.bay ++ natLe 1 e.opu ++ zeros 1 ++ fit 28 (e.detail.flatMap (natLe 4))
  body ++ natLe 4 (crc32c body).toNat

/-- Every entry held: the pages in NOR, then the staged ones. -/
def eventsHeld (s : State) : List Event := s.bdy.pages.flatten ++ s.bdy.staged

/-- Page 0xC4 (R363). -/
def eventPage (s : State) : Bytes :=
  natLe 4 (eventsHeld s).length ++ natLe 8 (((eventsHeld s).head?.map (·.seq)).getD 0) ++ zeros 4 ++ (eventsHeld s).flatMap (eventBytes s)

/-- The page of a log identifier (R249). -/
def logPage (s : State) (lid : Nat) : Option Bytes :=
  match lid with
  | 0x01 => some (Config.stdData 0x01 s.bdy.evtSeq)
  | 0x02 => some (smartPage s)
  | 0x03 => some (firmwarePage s)
  | 0x05 => some (Config.stdData 0x05 0)
  | 0x0C => some (anaPage s)
  | 0xBF => some (Config.stdData 0xBF s.bdy.evtSeq)
  | 0xC0 => some (bayPage s)
  | 0xC1 => some (lossPage s)
  | 0xC2 => some (calPage s)
  | 0xC3 => some (colophonPage s)
  | 0xC4 => some (eventPage s)
  | _ => none

/-- GET_LOG_PAGE (R249): bytes past the page's end are zero. -/
def execGetLogPage (r : CmdRef) (lid : Byte) (offset : Dword) (length : Word) (s : State) : Out :=
  match logPage s lid.toNat with
  | some p => .next (complete s r .success 0 (fit length.toNat (p.drop offset.toNat)))
  | none => .next (complete s r .invalidLogPage)

end Sys2Proof.Machine
end

