-- ==== Sys2Proof/Machine/Admin.lean ====
section
/-! DEFINITION. Abort, features, asynchronous event requests and namespaces (12_host_interface.md R236, R241, R242, R252, R253; R266,
R270, R337, R338). -/

namespace Sys2Proof.Machine

/-! ### ABORT (R266, R270) -/

/-- A command can still be aborted: fetched and not admitted, or a Read or Verify without media time; never a Flush or a write (R270; of one
not yet admitted DEDUCED, log entry 202). -/
def abortable (c : Cmd) : Bool :=
  match c.sqe.kind with
  | .read | .verify => (c.st == .fetched || c.st == .admitted || c.st == .waiting || c.st == .media) && !c.granted && !c.remote
  | .admin | .write | .append | .flush => false
  | _ => c.st == .fetched

/-- Read requests of a command leave the read channel's queue. -/
def dropReads (s : State) (c : Cmd) : State :=
  { s with rdc := { s.rdc with reads := s.rdc.reads.filter (fun e => decide (e.1 / 1024 ≠ c.seq) || e.2.granted) } }

/-- ABORT: best effort; bit 0 of dword 0 says that the command was not aborted. -/
def execAbort (r : CmdRef) (sqid : Fin 65536) (cid : Half) (s : State) : Out :=
  let t : CmdRef := { ctrl := r.ctrl, sqid := sqid, cid := cid }
  match s.hiu.cmds.find? (fun c => c.ref = t) with
  | some c =>
    if abortable c then .next (complete (complete (dropReads (bump s 14 4) c) t .abortRequested) r .success)
    else .next (complete (bump s 14 5) r .success 1)
  | none => .next (complete (bump s 14 5) r .success 1)

/-! ### Features (R236) -/

/-- Feature identifiers. -/
def fidOf : Feature → Nat
  | .arbitration => 0x01 | .power => 0x02 | .tempThreshold => 0x04 | .queues => 0x07 | .coalescing => 0x08
  | .vectorConfig => 0x09 | .asyncConfig => 0x0B | .timestamp => 0x0E | .flushMedia => 0xC0 | .other f => f.toNat

/-- Default value of a feature; those of NVMe 2.0 that the spec does not print are zero, the temperature threshold is WCTEMP. -/
def featDefault (s : State) : Feature → Nat
  | .arbitration => 0x07030003
  | .tempThreshold => 373
  | .queues => if s.tck.split then 0x7FFE7FFE else 0xFFFEFFFE
  | _ => 0

/-- Features whose value may be saved in the Endsheet. -/
def saveable : Feature → Bool
  | .queues | .timestamp | .other _ => false
  | _ => true

/-- The saved value of a feature (R236, R358). -/
def featSaved (s : State) (f : Feature) : Nat := ((look (sheet s).features (fidOf f)).map (·.toNat)).getD (featDefault s f)

/-- The value of a feature in force: a runtime value, else the saved one, else the default (R23). -/
def featCurrent (s : State) (n : Nat) (f : Feature) : Nat :=
  match f with
  | .queues => featDefault s f
  | .timestamp => (hostTime s).toNat
  | .flushMedia => if s.hiu.flushMedia then 1 else 0
  | _ => match look (ctrlAt s n).features (fidOf f) with
    | some v => v.toNat
    | none => featSaved s f

/-- A value that the feature takes: power state 0 only, the composite temperature only. -/
def featOk : Feature → Nat → Bool
  | .power, v => bits v 4 0 == 0
  | .tempThreshold, v => bits v 19 16 == 0
  | .other _, _ => false
  | _, _ => true

/-- Store a runtime value; flush to media is pair-wide (R236). -/
def setFeature (s : State) (n : Nat) (f : Feature) (v : Dword) : State :=
  match f with
  | .queues => s
  | .timestamp => { s with hiu := { s.hiu with timestamp := v &&& 0xFFFFFFFFFFFF, timestampAt := now s } }
  | .flushMedia => send { s with hiu := { s.hiu with flushMedia := v.getLsbD 0 } } (.mgmt (.flushMedia (v.getLsbD 0)))
  | _ => let c := ctrlAt s n; setCtrl s n { c with features := ins c.features (fidOf f) v }

/-- Save a value in the Endsheet's device section (R236, R358). -/
def saveFeature (s : State) (f : Feature) (v : Dword) : State :=
  let e := sheet s
  { s with bdy := { s.bdy with sheets := ins s.bdy.sheets s.bdy.sheetActive { e with features := ins e.features (fidOf f) v } } }

/-- SET_FEATURES: commands in flight keep the meaning they were admitted with (R253, R270). -/
def execSetFeatures (r : CmdRef) (f : Feature) (value : Dword) (save : Bool) (s : State) : Out :=
  if !featOk f value.toNat then .next (complete s r .invalidField)
  else if save && !saveable f then .next (complete s r .featureNotSaveable)
  else
    let s := setFeature s r.ctrl f value
    let s := if save then saveFeature s f value else s
    .next (complete s r .success (if f = .queues then BitVec.ofNat 64 (featDefault s .queues) else 0))

/-- GET_FEATURES: SEL 0 current, 1 default, 2 saved, 3 capabilities (bit 0 saveable, bit 2 changeable). -/
def execGetFeatures (r : CmdRef) (f : Feature) (sel : BitVec 3) (s : State) : Out :=
  match f with
  | .other _ => .next (complete s r .invalidField)
  | _ =>
    let v := match sel.toNat with
      | 0 => featCurrent s r.ctrl f
      | 1 => featDefault s f
      | 2 => featSaved s f
      | _ => (if saveable f then 1 else 0) + 4
    .next (complete s r .success (BitVec.ofNat 64 v) (if f = .timestamp then natLe 8 v else []))

/-- ASYNC_EVENT_REQUEST: up to 16 wait (AERL 15, R234); a pending event completes the oldest at once (R252). -/
def execAsyncEventRequest (r : CmdRef) (s : State) : Out :=
  let c := ctrlAt s r.ctrl
  if 16 ≤ c.aers.length then .next (complete s r .aerLimit)
  else .next (deliver (setCtrl s r.ctrl { c with aers := c.aers ++ [r.cid] }) r.ctrl)

/-! ### Namespaces (R241, R242, R337, R338) -/

/-- The fields of a creation are well-formed (R241, R242). -/
def nsFieldsOk (n : NsCreate) : Bool :=
  let csi := n.csi.toNat
  (csi == 0 || csi == 2) && decide (0 < n.nsze) &&
  (if csi = 0 then decide (n.nsze % 16 = 0) && decide (n.nsze ≤ 67108864) else decide (n.nsze % 1048576 = 0) && decide (n.nsze ≤ 65536 * 1048576)) &&
  !(n.lbaf == 0 && n.piType != 0) && (n.anaGroup == 1 || n.anaGroup == 2) && decide (n.mode.toNat ≤ 1)

/-- The write slot is a namespace slot, ACTIVE and unbound (R337). -/
def slotFree (s : State) (k : Nat) : Bool :=
  k != 0 && (slotAt s k).st == 2 && (slotAt s k).nsid == 0

/-- The identifier a creation takes: 1 for the conventional namespace, the lowest free of 2 to 32 for a zoned one. -/
def freeNsid (s : State) (csi : Nat) : Option Nat :=
  if csi = 0 then (if (nsAt s 1).isSome then none else some 1)
  else ((List.range 31).map (· + 2)).find? (fun k => (nsAt s k).isNone)

/-- Store a namespace and bind its slot; shared, attached to every controller of both twins (R241). -/
def putNs (s : State) (nsid : Nat) (n : NsCreate) : State :=
  let ids := [0, 1].flatMap (fun t => [1 + 2 * t] ++ (if s.tck.split then [2 + 2 * t] else []))
  let x : Ns := {
    csi := n.csi.toNat, nsze := n.nsze, lbaf := n.lbaf, piType := n.piType, piFirst := n.piFirst, ana := n.anaGroup, writeSlot := n.slot
    readSlots := [n.slot.val], tagOnly := n.mode == 1, attached := ids }
  let s := { s with hiu := { s.hiu with ns := ins s.hiu.ns nsid x } }
  asyncEvent (setSlot s n.slot { slotAt s n.slot with nsid := nsid, write := true }) 2 0 4

/-- Remove a namespace with its zones; its slots are bound no longer. -/
def dropNs (s : State) (nsid : Nat) : State :=
  match nsAt s nsid with
  | none => s
  | some n =>
    let s := { s with hiu := { s.hiu with ns := del s.hiu.ns nsid, zones := s.hiu.zones.filter (fun e => decide (e.1 / 65536 ≠ nsid)) } }
    let s := (n.writeSlot :: n.readSlots).foldl (fun s k => setSlot s k { slotAt s k with nsid := 0, write := false }) s
    let s := if nsid = 1 then { s with mem := { s.mem with map := [] } } else s
    asyncEvent s 2 0 4

/-- The life-cycle state lets namespaces be created (R338). -/
def nsCreateAllowed (s : State) : Bool := lifeCycle s == 1 || lifeCycle s == 2

/-- NAMESPACE_CREATE: forwarded over the Spine Link; 0x7_01 while it is down or either twin is in takeover (R241, R253). -/
def execNamespaceCreate (r : CmdRef) (n : NsCreate) (s : State) : Out :=
  if !nsCreateAllowed s then .next (complete s r .commandSequence)
  else if s.spn.link ≠ 2 ∨ s.spn.paired = false then .next (complete s r (.vendor 1))
  else if !nsFieldsOk n || !slotFree s n.slot then .next (complete s r .invalidField)
  else match freeNsid s n.csi.toNat with
    | none => .next (complete s r .nsidUnavailable)
    | some k =>
      let s := send (putNs s k n) (.mgmt (.namespaceCreate (BitVec.ofNat 32 k) n))
      .next (complete s r .success (BitVec.ofNat 64 k))

/-- NAMESPACE_DELETE: not in the Sealed state, where it completes with Invalid Field (R241, R338). All ones names every namespace. -/
def execNamespaceDelete (r : CmdRef) (nsid : Word) (s : State) : Out :=
  if lifeCycle s = 2 then .next (complete s r .invalidField)
  else if lifeCycle s ≠ 1 then .next (complete s r .commandSequence)
  else if s.spn.link ≠ 2 ∨ s.spn.paired = false then .next (complete s r (.vendor 1))
  else
    let ks := if nsid = 0xFFFFFFFF then s.hiu.ns.map (·.1) else [nsid.toNat]
    if nsid ≠ 0xFFFFFFFF ∧ (nsAt s nsid.toNat).isNone then .next (complete s r .invalidNamespace)
    else .next (complete (send (ks.foldl dropNs s) (.mgmt (.namespaceDelete nsid))) r .success)

/-- Attach or detach controllers. -/
def attachNs (s : State) (nsid : Nat) (ctrls : List Nat) (attach : Bool) : State :=
  match nsAt s nsid with
  | none => s
  | some x =>
    let a := if attach then x.attached ++ ctrls.filter (fun c => !x.attached.contains c) else x.attached.filter (fun c => !ctrls.contains c)
    asyncEvent { s with hiu := { s.hiu with ns := ins s.hiu.ns nsid { x with attached := a } } } 2 0 4

/-- Controller identifiers of the subsystem (R231). -/
def allControllers (s : State) : List Nat := if s.tck.split then [1, 2, 3, 4] else [1, 3]

/-- NAMESPACE_ATTACHMENT: attach or detach of a list of controllers, on both twins (R235, R241). -/
def execNamespaceAttachment (r : CmdRef) (nsid : Word) (ctrls : List Nat) (attach : Bool) (s : State) : Out :=
  match nsAt s nsid.toNat with
  | none => .next (complete s r .invalidNamespace)
  | some x =>
    if !nsCreateAllowed s then .next (complete s r .commandSequence)
    else if ctrls.isEmpty || !ctrls.all (fun c => (allControllers s).contains c) then .next (complete s r .invalidControllerList)
    else if attach && ctrls.any (fun c => x.attached.contains c) then .next (complete s r .nsAttached)
    else if !attach && ctrls.any (fun c => !x.attached.contains c) then .next (complete s r .nsNotAttached)
    else .next (complete (send (attachNs s nsid.toNat ctrls attach) (.mgmt (.namespaceAttach nsid ctrls attach))) r .success)

end Sys2Proof.Machine
end

