-- ==== Sys2Proof/Machine/Zones.lean ====
section
/-! DEFINITION. Zones (12_host_interface.md R243, R253): states, limits, the write pointer, Zone Management Send and Receive. -/

namespace Sys2Proof.Machine

/-- Blocks of a zone. -/
def zoneBlocks : Nat := 1048576
/-- Key of a zone: namespace, zone number. -/
def zoneKey (nsid z : Nat) : Nat := nsid * 65536 + z
/-- Zone `z` of a namespace. -/
def zoneAt (s : State) (nsid z : Nat) : Zone := getD s.hiu.zones {} (zoneKey nsid z)
/-- The state with a zone stored. -/
def setZone (s : State) (nsid z : Nat) (x : Zone) : State := { s with hiu := { s.hiu with zones := put s.hiu.zones {} (zoneKey nsid z) x } }
/-- Open or Closed: the zone is active. -/
def Zone.active (x : Zone) : Bool := x.st == 1 || x.st == 2 || x.st == 3
/-- Active zones that the twin knows of, over all zoned namespaces. -/
def activeZones (s : State) : Nat := (s.hiu.zones.filter (fun e => e.2.active)).length
/-- Zones of a namespace. -/
def zoneCount (n : Ns) : Nat := n.nsze / zoneBlocks

/-- Where a Write, or a Zone Append, may go (R243): its first LBA, or the status that refuses it. -/
def zonePlace (s : State) (nsid slba nlb : Nat) (append : Bool) : Except Status Nat :=
  let z := slba / zoneBlocks
  let x := zoneAt s nsid z
  let wp := z * zoneBlocks + x.wp
  if append && decide (slba % zoneBlocks ≠ 0) then .error .invalidField
  else if x.st = 4 then .error .zoneFull
  else if zoneBlocks < (if append then x.wp else slba % zoneBlocks) + nlb then .error .zoneBoundary
  else if !append && decide (slba ≠ wp) then .error .zoneInvalidWrite
  else if !x.active && decide (1024 ≤ activeZones s) then .error .tooManyActive
  else .ok wp

/-- The zone after `nlb` blocks have been given at its write pointer: implicitly opened, Full at capacity. -/
def zoneTake (s : State) (nsid z nlb : Nat) : State :=
  let x := zoneAt s nsid z
  let wp := x.wp + nlb
  setZone s nsid z { st := if zoneBlocks ≤ wp then 4 else if x.st = 2 then 2 else 1, wp := wp }

/-- The state with an outstanding command replaced. -/
def setCmd (s : State) (c : Cmd) : State :=
  { s with hiu := { s.hiu with cmds := s.hiu.cmds.map (fun (d : Cmd) => if d.ref = c.ref then c else d) } }

/-- Open a zone explicitly (ZNS). -/
def zoneOpenOne (s : State) (nsid z : Nat) : Except Status State :=
  let x := zoneAt s nsid z
  if x.st = 4 then .error .invalidZoneTransition
  else if x.st = 0 ∧ 1024 ≤ activeZones s then .error .tooManyActive
  else .ok (setZone s nsid z { x with st := 2 })
/-- Close a zone (ZNS). -/
def zoneCloseOne (s : State) (nsid z : Nat) : Except Status State :=
  let x := zoneAt s nsid z
  if x.st = 0 ∨ x.st = 4 then .error .invalidZoneTransition else .ok (setZone s nsid z { x with st := 3 })
/-- Finish a zone: Full; its filling quire is not closed early (R243). -/
def zoneFinishOne (s : State) (nsid z : Nat) : Except Status State := .ok (setZone s nsid z { zoneAt s nsid z with st := 4 })
/-- Reset a zone: only an Empty one succeeds, without effect (R243). -/
def zoneResetOne (s : State) (nsid z : Nat) : Except Status State :=
  if (zoneAt s nsid z).st = 0 then .ok s else .error .invalidZoneTransition

/-- Zones that Select All of an action touches, by state (ZNS); Reset is refused over them all. -/
def selected (s : State) (nsid : Nat) (sts : List Nat) : List Nat :=
  (s.hiu.zones.filter (fun e => e.1 / 65536 == nsid && sts.contains e.2.st)).map (fun e => e.1 % 65536)

/-- Run an action over zones, stopping at the first refusal with nothing changed. -/
def overZones (f : State → Nat → Except Status State) : List Nat → State → Except Status State
  | [], s => .ok s
  | z :: zs, s => match f s z with
    | .ok t => overZones f zs t
    | .error e => .error e

/-- A Zone Management Send on the twin that admitted it (R243, R254): complete with the action's status. -/
def zoneSend (s : State) (r : CmdRef) (sel : ZoneSel) (sts : List Nat) (f : State → Nat → Nat → Except Status State) : State :=
  match cmdAt s r with
  | none => s
  | some c =>
    let nsid := c.sqe.nsid.toNat
    if c.sqe.kind ≠ .zoneSend ∨ c.st ≠ .admitted ∨ c.remote then s
    else match nsAt s nsid with
      | none => complete s r .invalidNamespace
      | some n =>
        let zs := match sel with
          | .all => some (selected s nsid sts)
          | .one a => if a.toNat % zoneBlocks = 0 ∧ a.toNat < n.nsze then some [a.toNat / zoneBlocks] else none
        match zs with
        | none => complete s r .invalidField
        | some zs => match overZones (fun s z => f s nsid z) zs s with
          | .ok t => complete t r .success
          | .error e => complete s r e

/-- ZONE_OPEN: Select All opens Closed zones. -/
def execZoneOpen (r : CmdRef) (sel : ZoneSel) (s : State) : Out := .next (zoneSend s r sel [3] zoneOpenOne)
/-- ZONE_CLOSE: Select All closes opened zones. -/
def execZoneClose (r : CmdRef) (sel : ZoneSel) (s : State) : Out := .next (zoneSend s r sel [1, 2] zoneCloseOne)
/-- ZONE_FINISH: Select All finishes opened and Closed zones. -/
def execZoneFinish (r : CmdRef) (sel : ZoneSel) (s : State) : Out := .next (zoneSend s r sel [1, 2, 3] zoneFinishOne)
/-- ZONE_RESET: success only for Empty zones; with Select All refused if any zone is not Empty. -/
def execZoneReset (r : CmdRef) (sel : ZoneSel) (s : State) : Out := .next (zoneSend s r sel [1, 2, 3, 4] zoneResetOne)

/-- Complete an admitted command of a kind with a status. -/
def refuseKind (s : State) (r : CmdRef) (st : Status) : State :=
  match cmdAt s r with
  | none => s
  | some c => if c.sqe.kind ≠ .zoneSend ∨ c.st ≠ .admitted ∨ c.remote then s else complete s r st

/-- ZONE_OFFLINE: Invalid Field (R243). -/
def execZoneOffline (r : CmdRef) (s : State) : Out := .next (refuseKind s r .invalidField)
/-- ZONE_SET_DESCRIPTOR_EXTENSION: Invalid Field (R243). -/
def execZoneSetDescriptorExtension (r : CmdRef) (s : State) : Out := .next (refuseKind s r .invalidField)

/-- ZNS code of a zone state: 1 Empty, 2 Implicitly, 3 Explicitly Opened, 4 Closed, 14 Full. -/
def zoneCode (st : Nat) : Nat := if st = 4 then 14 else st + 1

/-- A 64-byte zone descriptor. -/
def zoneDescriptor (s : State) (nsid z : Nat) : Bytes :=
  let x := zoneAt s nsid z
  layout 64 [(0, [2, BitVec.ofNat 8 (16 * zoneCode x.st)]), (8, natLe 8 zoneBlocks), (16, natLe 8 (z * zoneBlocks)),
    (24, natLe 8 (z * zoneBlocks + x.wp))]

/-- ZONE_MANAGEMENT_RECEIVE: Report Zones from the zone of the command's LBA on, up to the transfer length (1 per 4 KiB block named). -/
def execZoneManagementReceive (r : CmdRef) (s : State) : Out :=
  match cmdAt s r with
  | none => .next s
  | some c =>
    let nsid := c.sqe.nsid.toNat
    if c.sqe.kind ≠ .zoneRecv ∨ c.st ≠ .admitted ∨ c.remote then .next s
    else match nsAt s nsid with
      | none => .next (complete s r .invalidNamespace)
      | some n =>
        let first := c.sqe.slba.toNat / zoneBlocks
        let zs := ((List.range (zoneCount n - first)).map (· + first)).take ((4096 * c.sqe.nlb - 64) / 64)
        .next (complete s r .success 0 (layout 64 [(0, natLe 8 (zoneCount n - first))] ++ zs.flatMap (zoneDescriptor s nsid)))

end Sys2Proof.Machine
end

