-- ==== Sys2Proof/Machine/Order.lean ====
section
/-! DEFINITION. Admission, reads, writes, flushes and verifies (13_command_ordering.md R254 to R267, R270; R18, R19, R50, R235, R243 to
R246, R328 to R332). -/

namespace Sys2Proof.Machine

/-! ### Conflicts (R255, R256) -/

/-- Read or Verify. -/
def isRead (c : Cmd) : Bool := c.sqe.kind == .read || c.sqe.kind == .verify
/-- An admitted write of this home twin that has not completed. -/
def openWrite (c : Cmd) : Bool := isWrite c && !c.remote && (c.st == .admitted || c.st == .data || c.st == .committed)

/-- A read waits: an earlier admitted overlapping write has not reached its acknowledgement point (R256). -/
def blocked (s : State) (c : Cmd) : Bool :=
  s.hiu.cmds.any (fun d => openWrite d && decide (d.seq < c.seq) && meets d.sqe.nsid.toNat d.lba d.nlb c.sqe.nsid.toNat c.lba c.nlb)

/-- What a flush waits for on this twin: earlier writes not acknowledged, and as a media barrier those not sealed (R264, R265). -/
def flushOpen (s : State) (c : Cmd) : Bool :=
  s.hiu.cmds.any (fun d => openWrite d && decide (d.seq < c.seq) && flushNames c d.sqe.nsid.toNat) ||
    (c.barrier && s.cmd.versions.any (fun v => v.own && decide (v.seq < c.seq) && flushNames c v.nsid && !versionSealed s v.twin v.seq))

/-- A flush completes once nothing it waits for is left, here and, for every namespace, on the other twin; while the volume is closed a media
barrier waits under the back-pressure timeout (R265). -/
def flushStep (s : State) (r : CmdRef) : State :=
  match cmdAt s r with
  | none => s
  | some c =>
    let s := barrierClose s c
    let c := { c with localDone := !flushOpen s c, waitFrom := if c.barrier ∧ s.qre.vol = 2 then c.waitFrom <|> some (now s) else none }
    if c.localDone && (c.peerDone || !c.remote) then complete s r .success else setCmd s c

/-! ### Admission (R50, R254) -/

/-- The next command of its queue to be admitted (R254). -/
def firstOfQueue (s : State) (c : Cmd) : Bool :=
  (s.hiu.cmds.find? (fun d => d.ref.peer == c.ref.peer && d.ref.ctrl == c.ref.ctrl && d.ref.sqid == c.ref.sqid && d.st == .fetched &&
    d.sqe.kind != .admin)).any (fun d => d.ref == c.ref)

/-- Forward a command to its home twin (R246). -/
def forward (s : State) (c : Cmd) : State :=
  send (setCmd s { c with remote := true, st := .admitted, lba := c.sqe.slba.toNat })
    (.forward { ref := { c.ref with peer := true }, sqe := c.sqe, classU := c.classU })

/-- A late admission of a class U command counts while, with it, at most 256 are outstanding; not while fetch is stopped (R50, R269). -/
def noteLate (s : State) (c : Cmd) (lateU : Bool) : State :=
  if c.classU && lateU && decide (urgentOut s < 256) && !s.cmd.fetchPaused then bump s 1 1 else s

/-- Give a command its admission sequence (R50, R254). -/
def giveSeq (s : State) (c : Cmd) (lba : Nat) (lateU : Bool) : State × Cmd :=
  let s := noteLate s c lateU
  let c := { c with st := .admitted, seq := s.cmd.seq, lba := lba }
  (setCmd (bump { s with cmd := { s.cmd with seq := s.cmd.seq + 1 } } 14 0) c, c)

/-- The checks of a command on its namespace before it is admitted here: the status that ends it, else its first LBA. -/
def admitCheck (s : State) (c : Cmd) (n : Ns) : Except Status Nat :=
  let a := c.sqe.slba.toNat
  let nsid := c.sqe.nsid.toNat
  let zoned := n.csi == 2
  match c.sqe.kind with
  | .read | .verify =>
    if n.nsze < a + c.sqe.nlb then .error .lbaRange
    else if c.sqe.kind = .read ∧ 512 < c.sqe.nlb then .error .invalidField
    else if c.sqe.kind = .read ∧ n.tagOnly then .error .accessDenied
    else .ok a
  | .write | .append =>
    if c.sqe.kind = .append ∧ !zoned then .error .invalidOpcode
    else if n.nsze < a + (if c.sqe.kind = .append then 1 else c.sqe.nlb) then .error .lbaRange
    else if 512 < c.sqe.nlb then .error .invalidField
    else if zoned then zonePlace s nsid a c.sqe.nlb (c.sqe.kind == .append)
    else .ok a
  | .zoneSend | .zoneRecv => if zoned then .ok a else .error .invalidOpcode
  | _ => .ok a

/-- Tell the receiving twin that its write is admitted, and at which LBA, which its encryption needs (R243, R246, R325). -/
def grantWrite (s : State) (c : Cmd) : State :=
  send s (.forward { ref := { c.ref with peer := false }, sqe := { c.sqe with slba := BitVec.ofNat 64 c.lba }, classU := c.classU })

/-- Admission of a command whose home is this twin. -/
def admitHere (s : State) (c : Cmd) (n : Ns) (lateU : Bool) : State :=
  match admitCheck s c n with
  | .error e => complete s c.ref e
  | .ok lba =>
    let s := if isWrite c && n.csi == 2 then zoneTake s c.sqe.nsid.toNat (lba / zoneBlocks) c.sqe.nlb else s
    let x := giveSeq s c lba lateU
    let x := if isWrite c && c.ref.peer then (grantWrite x.1 x.2, x.2) else x
    if isRead x.2 && blocked x.1 x.2 then bump (setCmd x.1 { x.2 with st := .waiting }) 14 1
    else if c.sqe.kind = .flush then flushStep (setCmd x.1 { x.2 with barrier := s.hiu.flushMedia }) c.ref
    else x.1

/-- A flush of every namespace: the other twin's part is forwarded (R264). -/
def admitFlushAll (s : State) (c : Cmd) (lateU : Bool) : State :=
  let x := giveSeq s c 0 lateU
  let far := !c.ref.peer && s.spn.link == 2 && anaOf s (2 - s.tck.twinId) == 2
  let c' := { x.2 with barrier := s.hiu.flushMedia, remote := far }
  let s := setCmd x.1 c'
  let s := if far then send s (.forward { ref := { c.ref with peer := true }, sqe := c.sqe, classU := c.classU }) else s
  flushStep s c.ref

/-- Admission (R246, R254, R338): here, forwarded, or ended by the state of its path. An admin command names no namespace's data and gets no
sequence, but its admission counts as class U (R50). -/
def admitCmd (s : State) (c : Cmd) (lateU : Bool) : State :=
  if !s.cmd.admission || c.st != .fetched then s
  else if c.sqe.kind == .admin then setCmd (noteLate s c lateU) { c with st := .admitted }
  else if !firstOfQueue s c then s
  else if !nsCreateAllowed s then complete s c.ref .commandSequence
  else if c.sqe.kind == .flush && c.sqe.nsid == 0xFFFFFFFF then admitFlushAll s c lateU
  else match nsAt s c.sqe.nsid.toNat with
    | none => complete s c.ref .invalidNamespace
    | some n =>
      if !c.ref.peer && !n.attached.contains (cntlid s c.ref.ctrl) then complete s c.ref .invalidNamespace
      else
        let a := anaOf s n.ana
        if a = 1 then admitHere s c n lateU
        else if c.ref.peer ∨ a = 15 then complete s c.ref .anaTransition
        else if a = 2 ∧ s.spn.link = 2 then forward s c
        else complete s c.ref .anaInaccessible

/-- COMMAND_ADMISSION: the conflict checker gives a command its place. -/
def execCommandAdmission (r : CmdRef) (lateU : Bool) (s : State) : Out :=
  match cmdAt s r with
  | none => .next s
  | some c => .next (admitCmd s c lateU)

/-! ### Write data (R244, R267, R331) -/

/-- Limit of the dirty data for a write: W_eff, less the class U reserve for class B (R267, R282). -/
def dirtyLimit (s : State) (c : Cmd) : Nat :=
  if c.classU then windowEff s else windowEff s - regBits s .cmdBpCfg 0 15 0 * 2 ^ 20

/-- Bits of the reference tag of an LBA format (R242). -/
def refWidth (lbaf : Nat) : Nat := if lbaf = 2 then 48 else 32

/-- The reference tag expected of block `i` (R244): the LBA's low bits for type 1, ILBRT plus the offset for type 2. -/
def expectedRef (n : Ns) (c : Cmd) (i : Nat) : Nat :=
  (if n.piType = 1 then c.lba + i else c.sqe.ilbrt + i) % 2 ^ refWidth n.lbaf

/-- The PI check of a block (R244): none, or the status of the first failing check. Type 3 has no reference tag to expect (log entry 27). -/
def piCheck (n : Ns) (c : Cmd) (i : Nat) (b : BlockIn) : Option Status :=
  if n.piType = 0 ∨ c.sqe.pract then none
  else if c.sqe.prchk.getLsbD 2 && !b.guardOk then some .guardCheck
  else if c.sqe.prchk.getLsbD 1 && !b.appOk then some .appTagCheck
  else if n.piType ≤ 2 ∧ b.refTag ≠ expectedRef n c i then some .refTagCheck
  else none

/-- The first failing block of a command. -/
def piFail (n : Ns) (c : Cmd) (bs : List BlockIn) : Option Status :=
  ((List.range bs.length).zip bs).findSome? (fun x => piCheck n c x.1 x.2)

/-- The PI field stored with a block: the host's, or generated (R68, R244). -/
def storedPi (n : Ns) (c : Cmd) (i : Nat) (b : BlockIn) : Bytes :=
  piField (if c.sqe.pract ∧ n.piType ≠ 0 then Config.makePi n.lbaf n.piType b.data (expectedRef n c i) else b.pi)

/-- Lanes are gone: a command that needs the cipher engine completes with Internal Error (R332). -/
def noLanes (s : State) : Bool := (lanesInService s).isEmpty

/-- WRITE_DATA_FETCH: once dirty space allows, the data is fetched and checked; a failing check ends the command and no version forms
(R244, R267, R270). -/
def execWriteDataFetch (r : CmdRef) (blocks : List BlockIn) (s : State) : Out :=
  match cmdAt s r with
  | none => .next s
  | some c =>
    match nsAt s c.sqe.nsid.toNat with
    | none => .next s
    | some n =>
      if !isWrite c || c.st != .admitted || r.peer || (c.remote && !c.peerDone) || blocks.length != c.nlb then .next s
      else if noLanes s then .next (complete (event s 0 11 2) r .internalError)
      else if dirtyLimit s c ≤ dirtyBytes s + 4096 * c.nlb then
        .next (setCmd s { c with waitFrom := c.waitFrom <|> some (now s) })
      else match piFail n c blocks with
        | some e => .next (complete s r e)
        | none =>
          let x := takeSeq s c.nlb
          .next (setCmd x.1 { c with
            st := .data, waitFrom := none, seqBase := x.2, plain := blocks.map (·.data)
            pis := ((List.range blocks.length).zip blocks).map (fun b => storedPi n c b.1 b.2) })

/-- BACKPRESSURE_TIMEOUT: a write that waited BP_TIMEOUT seconds for dirty space, or a media barrier that waited as long for the next volume,
completes with Command Interrupted; its sequence is withdrawn, and reads that waited on it proceed (R265, R267, R270). -/
def execBackpressureTimeout (r : CmdRef) (s : State) : Out :=
  match cmdAt s r with
  | none => .next s
  | some c =>
    let t := regBits s .cmdBpCfg 0 31 16
    match c.waitFrom with
    | none => .next s
    | some from_ =>
      if t = 0 ∨ c.st ≠ .admitted ∨ now s < from_ + t * Config.sec then .next s
      else .next (complete (bump s 14 7) r .commandInterrupted)

/-- Commands that wait for a lane end with Internal Error once none is left (R332). -/
def failForLanes (s : State) : State :=
  if noLanes s then
    (s.hiu.cmds.filter (fun c => c.st == .data || (isRead c && c.st == .media && !c.remote))).foldl
      (fun s c => complete (keepPieces s c) c.ref .internalError) (event s 0 11 3)
  else s

/-- A lane whose passes disagree is retired, its buffer wiped (R331). -/
def retireLane (s : State) (lane : Nat) : State :=
  let s := countEvent (bump s 11 4) 11 5 2 0xFF 0xFF [lane]
  failForLanes { s with cph := { s.cph with retired := s.cph.retired ||| BitVec.ofNat 8 (2 ^ lane), buffers := del s.cph.buffers lane } }

/-- CIPHER_BLOCK_DONE: a lane finishes both passes of a block: agreeing, the ciphertext leaves the lane; else the lane is retired and the
block is done again on another with the same IV (R325, R326, R331). -/
def execCipherBlockDone (lane : Fin 8) (r : CmdRef) (block : Nat) (agree : Bool) (s : State) : Out :=
  match cmdAt s r with
  | none => .next s
  | some c =>
    if !cipherRuns s || !(lanesInService s).contains lane.val then .next s
    else if !agree then .next (retireLane s lane)
    else
      match nsAt s c.sqe.nsid.toNat with
      | none => .next s
      | some n =>
        if !isWrite c || c.st != .data || !(encryptLanes s).contains lane.val || c.nlb ≤ block || (look c.enc block).isSome then .next s
        else
          let e := encryptBlock s (c.seqBase + block) n.writeSlot s.tck.twinId (aadHost (c.lba + block) (c.pis.getD block [])) (c.plain.getD block [])
          .next (bump (setCmd s { c with enc := ins c.enc block e }) 11 0)

/-! ### Commit and completion of a write (R18, R219, R257 to R262) -/

/-- Pieces of 64 blocks of a write (R259). -/
def pieceCount (c : Cmd) : Nat := (c.nlb + 63) / 64

/-- Leading pieces of a write whose every block has left its lane: a piece commits only after the one before it (R259). -/
def readyPieces (c : Cmd) : Nat :=
  ((List.range (pieceCount c)).takeWhile (fun k =>
    (List.range (min 64 (c.nlb - 64 * k))).all (fun i => (look c.enc (64 * k + i)).isSome))).length

/-- The version that the first `k` pieces of a write leave in the write buffer (R257, R259). -/
def versionOfCmd (s : State) (c : Cmd) (k : Nat) : Version :=
  let n := min c.nlb (64 * k)
  let es := (List.range n).map (fun i => (look c.enc i).getD {})
  { seq := c.seq, nsid := c.sqe.nsid.toNat, lba := c.lba, nlb := n, blocks := es.map (·.text), pis := c.pis.take n, ivs := es.map (·.iv)
    tags := es.map (·.tag), twin := s.tck.twinId, classU := c.classU }

/-- Ingest records of a write's pieces from `a` up to `b`, in ascending LBA order (R219, R259). -/
def ingestOf (s : State) (c : Cmd) (a b : Nat) : List Ingest :=
  ((List.range b).drop a).map (fun k =>
    let e := (look c.enc (64 * k)).getD {}
    { seq := ivSeq e.iv, nsid := c.sqe.nsid.toNat, blocks := min 64 (c.nlb - 64 * k), fua := c.sqe.fua, twin := s.tck.twinId
      lba := c.lba + 64 * k, version := c.seq })

/-- Commit the pieces of a write that are ready: their blocks join the version in the protected cache, each with its ingest record (R219,
R257, R259). -/
def commitPieces (s : State) (c : Cmd) : State :=
  let k := readyPieces c
  if k ≤ c.pieces then s
  else
    let v := versionOfCmd s c k
    let s := { s with
      cmd := { s.cmd with versions := if c.pieces = 0 then s.cmd.versions ++ [v] else s.cmd.versions.map (fun (w : Version) =>
        if w.own ∧ w.seq = c.seq then v else w) }
      qre := { s.qre with ingest := s.qre.ingest ++ ingestOf s c c.pieces k } }
    mapBuffered (setCmd s { c with pieces := k }) v

/-- Commit a write to the protected cache, piece by piece; with the last one the version goes to the mirror or the vault log and into filling
quires (R257, R259 to R262, R265). -/
def commitWrite (s : State) (c : Cmd) : State :=
  let s := commitPieces s c
  if readyPieces c < pieceCount c then s
  else
    let s := setCmd s { c with st := .committed, plain := [], enc := [], pieces := pieceCount c }
    refillNow (releaseVersions (settleVersion s c.seq))

/-- Every block of a write has left its lane. -/
def encrypted (c : Cmd) : Bool := (List.range c.nlb).all (fun i => (look c.enc i).isSome)

/-- Send the encrypted blocks of a forwarded write to its home twin (R246). -/
def sendForwarded (s : State) (c : Cmd) : State :=
  let bs := (List.range c.nlb).map (fun i => packBlock ((look c.enc i).getD {}) (c.pis.getD i []))
  send (setCmd s { c with st := .committed, plain := [], enc := [] })
    (.forward { ref := { c.ref with peer := true }, sqe := c.sqe, classU := c.classU, blocks := bs })

/-- The next stage of a write or append: its admission, then, its blocks encrypted, its commit here or its way to the home twin. -/
def writeStage (s : State) (c : Cmd) : State :=
  if c.st = .fetched then admitCmd s c false
  else if c.st ≠ .data then s
  else if c.remote then (if encrypted c then sendForwarded s c else s)
  else commitWrite s c

/-- WRITE: a Write is admitted, then its pieces are committed as their blocks are encrypted. -/
def execWrite (r : CmdRef) (s : State) : Out :=
  match cmdAt s r with
  | none => .next s
  | some c => if c.sqe.kind = .write then .next (writeStage s c) else .next s

/-- ZONE_APPEND: as a Write; its LBA is assigned at admission (R243, R253, R270). -/
def execZoneAppend (r : CmdRef) (s : State) : Out :=
  match cmdAt s r with
  | none => .next s
  | some c => if c.sqe.kind = .append then .next (writeStage s c) else .next s

/-- A committed write has reached the acknowledgement point of the protection state (R260, R262). -/
def ackReached (s : State) (c : Cmd) : Bool :=
  match s.cmd.versions.find? (fun v => v.own && v.seq == c.seq) with
  | none => false
  | some v =>
    if c.sqe.fua || s.cmd.prot == 2 then versionSealed s v.twin v.seq
    else if s.cmd.prot = 1 then v.vaulted
    else v.mirrored

/-- WRITE_ACK_POINT: the write completes; dword 0 of a Zone Append is its LBA (R18, R260, R261). -/
def execWriteAckPoint (r : CmdRef) (s : State) : Out :=
  match cmdAt s r with
  | none => .next s
  | some c =>
    if c.st ≠ .committed ∨ c.remote ∨ !ackReached s c then .next s
    else
      let s := { s with cmd := { s.cmd with versions := s.cmd.versions.map (fun (v : Version) =>
        if v.own ∧ v.seq = c.seq then { v with acked := true } else v) } }
      .next (releaseVersions (complete s r .success (if c.sqe.kind = .append then BitVec.ofNat 64 c.lba else 0)))

/-! ### Reads (R255 to R258, R262, R280) -/

/-- The newest version of this home twin below a sequence that covers a block (R257). -/
def versionBelow (s : State) (seq nsid lba : Nat) : Option Version :=
  (s.cmd.versions.filter (fun v => v.own && decide (v.seq < seq) && v.nsid == nsid && decide (v.lba ≤ lba) && decide (lba < v.lba + v.nlb))).foldl
    (fun b v => match b with | some w => if w.seq < v.seq then some v else b | none => some v) none

/-- Where a block lies on media: quire, leaf, row, block of the folio, lost flag: by the zone's quires, or the Folio Map (R258, R280). -/
def locate (s : State) (nsid lba : Nat) : Option (Nat × Nat × Nat × Nat × Bool) :=
  if nsid = 1 then
    let e := mapAt s (lba / 16)
    if e.st = 1 then
      let row := e.row + lba / 8 % 2
      let gone := match quireAt s e.quire with | some q => (getD q.lostRows 0 e.leaf).testBit row | none => false
      some (e.quire, e.leaf, row, lba % 8, e.lost.getLsbD (lba % 16) || gone)
    else none
  else
    (s.qre.quires.find? (fun e => e.2.st == 2 && e.2.kind == 0 && e.2.nsid == nsid && decide (e.2.firstLba ≤ lba) &&
      decide (lba < e.2.firstLba + e.2.blocks))).map (fun e =>
        let d := lba - e.2.firstLba
        let n := d / 8
        (e.1, n / 64, n % 64, d % 8, (getD e.2.lostRows 0 (n / 64)).testBit (n % 64)))

/-- Source of a block of a read: 0 the write buffer, 1 media, 2 unwritten, 3 lost (R229, R258, R274). A FUA read takes media. -/
def sourceOf (s : State) (c : Cmd) (i : Nat) : Nat :=
  let nsid := c.sqe.nsid.toNat
  if s.cmd.lost.contains (nsid, c.lba + i) then 3
  else if !c.sqe.fua && (versionBelow s c.seq nsid (c.lba + i)).isSome then 0
  else match locate s nsid (c.lba + i) with
    | some x => if x.2.2.2.2 then 3 else 1
    | none => 2

/-- An unwritten block, with the metadata bytes of its format: zeros in the conventional namespace and in a finished zone (R243, R280), else
what the spec leaves open. -/
def unwritten (s : State) (c : Cmd) (i : Nat) : Bytes :=
  let nsid := c.sqe.nsid.toNat
  let n := 4096 + lbafMeta (((nsAt s nsid).map (·.lbaf)).getD 0)
  if nsid = 1 ∨ (zoneAt s nsid ((c.lba + i) / zoneBlocks)).st = 4 then zeros n else fit n (Config.freeBytes (s.free * 65536 + i))

/-- A block as the host gets it: data, then the metadata bytes of its format. -/
def hostBlock (n : Ns) (plain pi : Bytes) : Bytes := plain ++ fit (lbafMeta n.lbaf) pi

/-- The data of a read's blocks up to a block. -/
def dataUpTo (c : Cmd) (k : Nat) : Bytes := if c.sqe.kind = .verify then [] else (List.range k).flatMap (fun i => (look c.got i).getD [])

/-- A read completes once every block has been delivered (R245). -/
def finishRead (s : State) (c : Cmd) : State :=
  if (List.range c.nlb).all (fun i => (look c.got i).isSome) then
    releaseVersions (complete s c.ref .success 0 (dataUpTo c c.nlb))
  else setCmd s c

/-- End a read on a failing block: no data of it or of a later block has left the device (R245). -/
def failRead (s : State) (c : Cmd) (block : Nat) (st : Status) : State := releaseVersions (complete s c.ref st 0 (dataUpTo c block))

/-- Versions that a FUA read would return and that are not sealed (R262). -/
def unsealedFor (s : State) (c : Cmd) : List Version :=
  ((List.range c.nlb).filterMap (fun i => versionBelow s c.seq c.sqe.nsid.toNat (c.lba + i))).filter (fun v => !versionSealed s v.twin v.seq)

/-- Choose the sources of a read and begin its service; counted by what the buffer serves. -/
def beginRead (s : State) (c : Cmd) : State :=
  let src := (List.range c.nlb).map (sourceOf s c)
  let s := if c.sqe.nsid = 1 then (granulesOf c.lba c.nlb).foldl (fun s g => cacheTouch s (mapAddr g / 64 * 64)) s else s
  let nb := (src.filter (· = 0)).length
  let s := if nb = c.nlb then bump s 14 2 else if nb = 0 then s else bump s 14 3
  match src.findIdx? (· = 3) with
  | some k => failRead (event s 0 14 2 0xFF 0xFF [c.sqe.nsid.toNat, c.lba + k]) c 0 .unrecoveredRead
  | none =>
    let got : Tbl Bytes := ((List.range c.nlb).zip src).foldl (fun t e => if e.2 = 2 then ins t e.1 (unwritten s c e.1) else t) []
    finishRead (drawn s) { c with st := .media, sources := (List.range c.nlb).zip src, got := got }

/-- The next stage of a Read or Verify: its admission, its turn behind earlier writes, a FUA read's wait for seals, its sources. -/
def readStage (s : State) (c : Cmd) : State :=
  if c.st = .fetched then admitCmd s c false
  else if c.remote ∨ !(c.st == .admitted || c.st == .waiting) then s
  else if noLanes s then complete (event s 0 11 2) c.ref .internalError
  else if blocked s c then setCmd s { c with st := .waiting }
  else if c.sqe.fua ∧ !(unsealedFor s c).isEmpty then
    (unsealedFor s c).foldl (fun s v => fuaClose s v.seq) (setCmd s { c with st := .waiting })
  else beginRead s c

/-- READ: each block from the newest earlier version or from media (R255 to R257, R262). -/
def execRead (r : CmdRef) (s : State) : Out :=
  match cmdAt s r with
  | none => .next s
  | some c => if c.sqe.kind = .read then .next (readStage s c) else .next s

/-- VERIFY: the read path with every check and no data (R235). -/
def execVerify (r : CmdRef) (s : State) : Out :=
  match cmdAt s r with
  | none => .next s
  | some c => if c.sqe.kind = .verify then .next (readStage s c) else .next s

/-- FLUSH (R264, R265): admitted, then completed when what it waits for is done. -/
def execFlush (r : CmdRef) (s : State) : Out :=
  match cmdAt s r with
  | none => .next s
  | some c =>
    if c.sqe.kind ≠ .flush then .next s
    else if c.st = .fetched then .next (admitCmd s c false)
    else if c.remote ∧ c.sqe.nsid ≠ 0xFFFFFFFF then .next s
    else .next (refillNow (flushStep s r))

/-- The stored form of a block of a read, once the device holds it; a poisoned line gives nothing until it has come again (R274). -/
def readBlock (s : State) (c : Cmd) (i : Nat) : Option FolioBlock :=
  if (look c.sources i).getD 2 = 0 then
    ((versionBelow s c.seq c.sqe.nsid.toNat (c.lba + i)).filter (fun v => !s.mem.holders.any (fun e => e.2 == .own v.seq (c.lba + i - v.lba)))).map
      (fun v => versionBlock v (c.lba + i))
  else (locate s c.sqe.nsid.toNat (c.lba + i)).bind (fun x => (heldRow s x.1 x.2.1 x.2.2.1).map (fun b => bodyBlock b x.2.2.2.1))

/-- A first mismatch (R329): a media folio counts as given up for this read, so that its row is reconstructed; a buffer block is fetched
again from the twin's mirror. -/
def secondTry (s : State) (c : Cmd) (i : Nat) : State :=
  let s := setCmd s { c with recheck := c.recheck ++ [i] }
  if (look c.sources i).getD 2 = 0 then
    match versionBelow s c.seq c.sqe.nsid.toNat (c.lba + i) with
    | some v => send s (.resend v.seq)
    | none => s
  else match locate s c.sqe.nsid.toNat (c.lba + i) with
    | some x => match liveLeaf s x.1 x.2.1 with
      | some y =>
        let l := y.1.leaves.getD y.2 {}
        { s with rdc := { s.rdc with payloads := del s.rdc.payloads (payKey l.surface l.layer (folioNumber l.frame (liveSlot l x.2.2.1))) } }
      | none => s
    | none => s

/-- The status of the host's checks (R245): bits 2, 1, 0 of PRCHK against what was found. -/
def hostCheck (n : Ns) (c : Cmd) (chk : BitVec 3) : Option Status :=
  let f := if n.piType = 0 ∨ c.sqe.pract then 0 else c.sqe.prchk &&& chk
  if f.getLsbD 2 then some .guardCheck else if f.getLsbD 1 then some .appTagCheck else if f.getLsbD 0 then some .refTagCheck else none

/-- A second copy of a buffer block stands: the twin's mirror, or the vault log (R274, R329). -/
def copyStands (s : State) (c : Cmd) (i : Nat) : Bool :=
  (versionBelow s c.seq c.sqe.nsid.toNat (c.lba + i)).any (fun v => (v.mirrored && s.spn.link == 2 && s.spn.paired) || v.vaulted)

/-- What a decryption of a block leads to (R19, R245, R328, R329). The last word of a failing check's log entry names it: 0 the tag, 1 the tag, its
slot unbound, 2 the reference tag (DESIGN CHOICE, log entry 205). -/
def decryptOutcome (s : State) (c : Cmd) (n : Ns) (b : FolioBlock) (i : Nat) (tagOk refOk : Bool) (chk : BitVec 3) (final : Bool) : State :=
  let k := slotAt s (ivSlot b.iv)
  let bound := k.st == 2 && k.nsid == c.sqe.nsid.toNat
  let s := bump s 11 (if c.sqe.kind = .read then 1 else 2)
  let detail := [ivSlot b.iv, c.lba + i, if bound then 0 else 1]
  let media := decide ((look c.sources i).getD 2 ≠ 0)
  if !(tagOk && bound) then
    let s := bump s 11 3
    if final ∨ c.recheck.contains i then failRead (event s 0x103 11 2 0xFF 0xFF detail) c i .unrecoveredRead
    else if media || copyStands s c i then secondTry s c i
    else
      let s := { s with cmd := { s.cmd with lost := s.cmd.lost ++ [(c.sqe.nsid.toNat, c.lba + i)] } }
      failRead (event s 0x103 11 2 0xFF 0xFF detail) c i .unrecoveredRead
  else if n.piType = 1 ∧ !refOk then failRead (event s 0 11 2 0xFF 0xFF [ivSlot b.iv, c.lba + i, 2]) c i .unrecoveredRead
  else match hostCheck n c chk with
    | some e => failRead s c i e
    | none =>
      let plain := (Config.gcmOpen k.key b.iv (aadHost (c.lba + i) b.pi) b.text (BitVec.ofNat 128 (leNat b.tag))).getD []
      finishRead s { c with got := ins c.got i (hostBlock n plain b.pi) }

/-- BLOCK_DECRYPT_DONE: a lane has decrypted and checked a block of a read (R19, R245, R328, R329). -/
def execBlockDecryptDone (lane : Fin 8) (r : CmdRef) (block : Nat) (slot : Fin 2048) (tagOk refOk : Bool) (hostChk : BitVec 3)
    (fromBuffer : Bool) (final : Bool) (s : State) : Out :=
  match cmdAt s r with
  | none => .next s
  | some c =>
    match nsAt s c.sqe.nsid.toNat, readBlock s c block with
    | some n, some b =>
      if !cipherRuns s || !(lanesInService s).contains lane.val || !isRead c || c.st != .media || c.nlb ≤ block || (look c.got block).isSome ||
          ivSlot b.iv != slot.val || fromBuffer != ((look c.sources block).getD 2 == 0) then .next s
      else .next (decryptOutcome s c n b block tagOk refOk hostChk final)
    | _, _ => .next s

end Sys2Proof.Machine
end

