-- ==== Sys2Proof/Machine/Parse.lean ====
section
/-! DEFINITION. The Binding container: layout, records and the checks at load (02_binding.md R26 to R34; R82, R129, R131 to R133, R145,
R166, R237, R374). -/

namespace Sys2Proof.Machine

/-- The outcome of a check: code of R31, section at fault, record at fault (R31, BND_LOAD_DETAIL). -/
structure Verdict where
  code : Nat := 0
  section_ : Nat := 0
  record : Nat := 0
deriving DecidableEq, Repr

/-- A test with the section and record it blames. -/
abbrev Test := Bool × Nat × Nat

/-- The first failing test, under a result code. -/
def firstFail (code : Nat) : List Test → Option Verdict
  | [] => none
  | (ok, sec, rec_) :: ts => if ok then firstFail code ts else some { code := code, section_ := sec, record := rec_ }

/-! ### FORMAT (R26) -/

/-- An entry of the section directory: type, offset, length. -/
structure Entry where
  type : Nat
  off : Nat
  len : Nat
deriving DecidableEq, Repr

/-- Sections of a container. -/
def sectionCount (bs : Bytes) : Nat := field bs 6 2

/-- The section directory. -/
def directory (bs : Bytes) : List Entry :=
  (List.range (sectionCount bs)).map (fun i => { type := field bs (40 + 16 * i) 2, off := field bs (44 + 16 * i) 4, len := field bs (48 + 16 * i) 4 })

/-- The container is a trim. -/
def isTrim (bs : Bytes) : Bool := field bs 12 4 == 1

/-- Two sections meet. -/
def entriesMeet (a b : Entry) : Bool := decide (a.off < b.off + b.len) && decide (b.off < a.off + a.len)

/-- The section directory lies within the body, aligned, without overlap, its reserved words zero. -/
def directoryOk (bs : Bytes) : Bool :=
  let es := directory bs
  let n := es.length
  let body := bs.length - 144
  decide (40 + 16 * n ≤ body) &&
  (List.range n).all (fun i =>
    let e := es.getD i ⟨0, 0, 0⟩
    field bs (52 + 16 * i) 4 == 0 && e.off % 8 == 0 && decide (40 + 16 * n ≤ e.off) && decide (e.off + e.len ≤ body) &&
    (List.range i).all (fun j => !entriesMeet e (es.getD j ⟨0, 0, 0⟩)))

/-- FORMAT: the header of a container with magic `magic` whose bytes are its whole extent; `counts` gives the section counts of a
structural container and of a trim. -/
def formatOk (magic : Bytes) (counts : Nat × Nat) (bs : Bytes) : Bool :=
  bs.take 4 == magic && field bs 5 1 == 2 && decide (field bs 4 1 ≤ 3) && field bs 8 4 == bs.length && bs.length % 8 == 0 &&
  decide (512 ≤ bs.length) && decide (bs.length ≤ 262144) && decide (field bs 12 4 ≤ 1) &&
  sectionCount bs == (if isTrim bs then counts.2 else counts.1) && field bs 16 8 != 0 && (isTrim bs || field bs 24 8 == 0) && field bs 36 4 == 0 &&
  directoryOk bs

/-- Magic of a Binding container. -/
def bindingMagic : Bytes := [0x53, 0x4B, 0x42, 0x44]

/-- Digest of a container's body: bytes 0 to L − 145. -/
def bodyDigest (bs : Bytes) : BitVec 384 := Config.sha384 (bs.take (bs.length - 144))

/-- The signature verifies under the Lanvowald Binding key or the owner key (R27). -/
def signatureOk (s : State) (bs : Bytes) : Bool :=
  let sig := bs.drop (bs.length - 96)
  Config.sigLanvowald (digestField bs) sig || Config.sigOwner s.kst.ownerHash (digestField bs) sig

/-! ### Records (R29) -/

/-- Bytes of a section; empty where the container has none. -/
def sectionOf (bs : Bytes) (t : Nat) : Bytes :=
  match (directory bs).find? (fun e => e.type = t) with
  | some e => (bs.drop e.off).take e.len
  | none => []

/-- Records of a section, `n` bytes each. -/
def recordsOf (n : Nat) (bs : Bytes) : List Bytes := (List.range (bs.length / n)).map (fun i => (bs.drop (n * i)).take n)

/-- 0xFF for none. -/
def optByte (v : Nat) : Option Nat := if v = 255 then none else some v

/-- Words of a coefficient block. -/
def wordsOf (bs : Bytes) : List Half := (List.range (bs.length / 2)).map (fun i => BitVec.ofNat 16 (field bs (2 * i) 2))

/-- A Loop Graph record of a section. -/
def loopRec (sec r : Bytes) : LoopRec :=
  let o := field r 16 4
  let n := field r 20 4
  { cell := field r 0 1, opu := field r 1 1, loop := field r 2 1, sections := field r 3 1, notches := field r 4 1, forming := field r 5 1
    ff := optByte (field r 6 1), order := field r 7 1, thr := sx 16 (field r 8 2), n := field r 10 1, action := field r 11 1
    sat := sx 16 (field r 12 2), allowance := field r 14 2, coefOff := o, coefLen := n, words := wordsOf ((sec.drop o).take n) }

/-- Records read from offset 0 until they reach the lowest coefficient block offset named so far (R29). -/
def readLoops (sec : Bytes) : Nat → Nat → Nat → List LoopRec → List LoopRec × Bool
  | 0, i, low, acc => (acc, 24 * i == low)
  | fuel + 1, i, low, acc =>
    if low ≤ 24 * i then (acc, 24 * i == low)
    else if sec.length < 24 * i + 24 then (acc, false)
    else
      let r := loopRec sec ((sec.drop (24 * i)).take 24)
      readLoops sec fuel (i + 1) (min low r.coefOff) (acc ++ [r])

/-- The Loop Graph, and whether its records end where its first block begins. -/
def loopsOf (sec : Bytes) : List LoopRec × Bool := readLoops sec 97 0 (2 ^ 32) []

def tickRec (r : Bytes) : TickRec := { cell := field r 0 1, slot := field r 1 1, order := field r 2 2 }
def chanRec (r : Bytes) : ChanRec :=
  { cell := field r 0 1, opu := field r 1 1, spot := field r 2 1, group := field r 3 1, target := field r 4 1, partner := optByte (field r 5 1)
    preset := field r 6 2 }
def queueRecOf (r : Bytes) : QueueRec := { first := field r 0 2, last := field r 2 2, cls := field r 4 1, wrr := field r 5 1 }
def powerRecOf (r : Bytes) : PowerRec :=
  { quadUs := field r 0 2, groupUs := field r 2 2, laserMs := field r 4 1, handPct := field r 5 1, handMs := field r 6 2
    bays := (List.range 8).map (fun i => field r (8 + i) 1) }
def modeRecOf (r : Bytes) : ModeRec :=
  { bay := field r 0 1, mode := field r 1 1, order := field r 2 1, yield_ := field r 3 1 == 1, opus := field r 4 1, spin := field r 5 2
    power := field r 7 2, slowMs := field r 9 2, ageS := field r 11 1 }
def limRecOf (r : Bytes) : LimRec :=
  { spindle := field r 0 2, laser := field r 2 1, fwl := field r 3 1, suspectV := field r 4 2, tripV := field r 6 2, tripSt := field r 8 1
    dirtyGib := field r 9 1, opcDt := field r 10 1, eqDt := field r 11 1, edec := field r 12 2 }
def ownRecOf (r : Bytes) : OwnRec := { bay := field r 0 1, owner := field r 1 1, hold := field r 2 1, shadow := field r 3 1 == 1 }
def trimRecOf (r : Bytes) : TrimRec := { cell := field r 0 2, off := field r 2 2, value := BitVec.ofNat 16 (field r 4 2) }

/-- The container's fields and records. -/
def parse (bs : Bytes) : Binding :=
  let coll := sectionOf bs 4
  let w := field coll 0 1
  { ident := BitVec.ofNat 64 (field bs 16 8), base := BitVec.ofNat 64 (field bs 24 8), secver := field bs 32 4, trim := isTrim bs
    digest := digestField bs
    tick := (recordsOf 4 (sectionOf bs 1)).map tickRec
    loops := (loopsOf (sectionOf bs 2)).1
    chans := (recordsOf 8 (sectionOf bs 3)).map chanRec
    width := w
    rows := (List.range 64).map (fun i => (List.range w).map (fun j => field coll (8 + w * i + j) 1))
    queues := (recordsOf 8 (sectionOf bs 5)).map queueRecOf
    power := powerRecOf (sectionOf bs 6)
    modes := (recordsOf 16 (sectionOf bs 7)).map modeRecOf
    limits := limRecOf (sectionOf bs 8)
    owners := (recordsOf 4 (sectionOf bs 9)).map ownRecOf
    groups := (List.range 8).map (fun i => field (sectionOf bs 10) i 1)
    trims := (recordsOf 8 (sectionOf bs 11)).map trimRecOf
    collDigest := Config.sha384 coll }

/-! ### STRUCTURE -/

/-- Indexed list. -/
def indexed {α : Type} (xs : List α) : List (Nat × α) := (List.range xs.length).zip xs

/-- No value of a key repeats before record `i`. -/
def freshAt {α : Type} (xs : List α) (i : Nat) (same : α → α → Bool) (x : α) : Bool := !(xs.take i).any (fun y => same y x)

/-- Word `i` of a block. -/
def bw (ws : List Half) (i : Nat) : Nat := (ws.getD i 0).toNat
/-- Signed word. -/
def bwS (ws : List Half) (i : Nat) : Int := (ws.getD i 0).toInt

/-- A section's coefficients: shift 0 to 7, a1 and a2 not −32,768, and unity gain at zero frequency for a notch (R131 to R133). -/
def sectionOk (ws : List Half) (at_ : Nat) (notch : Bool) : Bool :=
  let sh := bw ws (at_ + 5)
  decide (sh ≤ 7) && bw ws (at_ + 3) != 0x8000 && bw ws (at_ + 4) != 0x8000 &&
  (!notch || decide ((2 ^ sh * (bwS ws at_ + bwS ws (at_ + 1) + bwS ws (at_ + 2) - bwS ws (at_ + 3) - bwS ws (at_ + 4)) - 32768).natAbs ≤ 512))

/-- Ranges of the sequence words (R145). -/
def seqOk (loop : Nat) (ws : List Half) (q : Nat) : Bool :=
  let w (i : Nat) : Nat := bw ws (q + i)
  let within (i lo hi : Nat) : Bool := decide (lo ≤ w i) && decide (w i ≤ hi)
  match loop with
  | 0 => within 1 1 64 && within 3 1 64 && within 4 0 32767 && within 5 64 4000 && within 6 1 1000 && (List.range 7).all (fun i => w (9 + i) == 0)
  | 1 => within 5 4 4096 && within 9 2 64 && (List.range 6).all (fun i => w (10 + i) == 0)
  | _ => (List.range 16).all (fun i => w i == 0)

/-- Model words for a plausibility order. -/
def modelWords (n : Nat) : Nat := if n = 0 then 0 else n * n + 2 * n + 1

/-- Words of a coefficient block before its padding. -/
def blockWords (f sec n : Nat) : Nat := 16 + 2 * f + 6 * sec + 6 + modelWords n + 16

/-- The ranges and zeros of a coefficient block that hold at load and after a trim (R131 to R133). -/
def blockRanges (r : LoopRec) (ws : List Half) : Bool :=
  let f := r.forming
  let sec := 16 + 2 * f
  let pid := sec + 6 * r.sections
  let model := pid + 6
  let q := model + modelWords r.order
  let total := blockWords f r.sections r.order
  decide (bw ws 2 % 256 ≤ 63) && bits (bw ws 3) 14 6 == 0 && decide (1 ≤ bw ws 5) && decide (bw ws 5 ≤ 1000) && decide (1 ≤ bw ws 6) &&
  decide (bw ws 6 ≤ 4000) && decide (1 ≤ bw ws 7) && decide (bw ws 7 ≤ 32767) && decide (1 ≤ bw ws 8) && decide (bw ws 8 ≤ 32767) &&
  decide (1 ≤ bw ws 10) && decide (bw ws 10 ≤ 255) && decide (bw ws 11 ≤ 7) && bw ws 13 == 0 && bw ws 14 == 0 && bw ws 15 == 0 &&
  (List.range f).all (fun i => decide (bw ws (16 + i) ≤ 63)) &&
  (List.range r.sections).all (fun j => sectionOk ws (sec + 6 * j) (decide (r.sections ≤ j + r.notches))) &&
  decide (bw ws (pid + 5) ≤ 7) && (r.ff.isSome || bw ws (pid + 4) == 0) && (r.order == 0 || decide (bw ws (q - 1) ≤ 7)) &&
  seqOk r.loop ws q && (List.range (ws.length - total)).all (fun i => bw ws (total + i) == 0)

/-- A coefficient block at load (R131): ranges, the equalities with the record, the length with its padding. -/
def blockOk (r : LoopRec) : Bool :=
  let ws := r.words
  let total := blockWords r.forming r.sections r.order
  r.coefLen == (2 * total + 7) / 8 * 8 && ws.length == r.coefLen / 2 && bw ws 0 == r.forming && bw ws 1 == 256 * r.notches + r.sections &&
  bw ws 2 / 256 == r.order && bwS ws 8 == r.sat && bwS ws 9 == r.thr && bw ws 10 == r.n && blockRanges r ws

/-- A Loop Graph record's own ranges. -/
def loopFieldsOk (r : LoopRec) : Bool :=
  decide (r.cell ≤ 95) && decide (r.opu ≤ 15) && decide (r.loop ≤ 3) && decide (1 ≤ r.sections) && decide (r.sections ≤ 16) && decide (r.notches ≤ 4) &&
  decide (r.notches ≤ r.sections) && decide (1 ≤ r.forming) && decide (r.forming ≤ 64) && decide (r.order ≤ 4) && decide (1 ≤ r.n) &&
  decide (r.action ≤ 2) && decide (0 < r.sat) && decide (r.allowance ≤ 64) && r.coefOff % 8 == 0

/-- Every byte of the Loop Graph in no record and no coefficient block is zero (R28). -/
def gapsZero (sec : Bytes) (ls : List LoopRec) : Bool :=
  (indexed sec).all (fun e => e.2 == 0 || decide (e.1 < 24 * ls.length) ||
    ls.any (fun r => decide (r.coefOff ≤ e.1) && decide (e.1 < r.coefOff + r.coefLen)))

/-- The Loop Graph (R28, R29, R129, R131). -/
def loopTests (sec : Bytes) : List Test :=
  let x := loopsOf sec
  let ls := x.1
  (decide (1 ≤ ls.length) && decide (ls.length ≤ 96) && x.2, 2, 0) :: (indexed ls).map (fun e =>
    let r := e.2
    (loopFieldsOk r && freshAt ls e.1 (fun a b => a.cell == b.cell || (a.opu == b.opu && a.loop == b.loop)) r &&
     (match r.ff with | none => true | some c => ls.any (fun y => y.cell == c && y.cell != r.cell)) &&
     decide (24 * ls.length ≤ r.coefOff) && decide (r.coefOff + r.coefLen ≤ sec.length) &&
     freshAt ls e.1 (fun a b => decide (a.coefOff < b.coefOff + b.coefLen) && decide (b.coefOff < a.coefOff + a.coefLen)) r && blockOk r, 2, e.1)) ++
    [(gapsZero sec ls, 2, 0)]

/-- The Tick Plan (R29, R31). -/
def tickTests (sec : Bytes) (b : Binding) : List Test :=
  (sec.length % 4 == 0 && b.tick.length == b.loops.length, 1, 0) :: (indexed b.tick).map (fun e =>
    let t := e.2
    (b.loops.any (fun r => r.cell == t.cell) && decide (t.slot ≤ 3) &&
      freshAt b.tick e.1 (fun a c => a.cell == c.cell || (a.slot == c.slot && a.order == c.order)) t, 1, e.1))

/-- Every OPU that has a cell has its four loops, and all 8 spots in the Channel Graph (R31). -/
def opuTests (b : Binding) : List Test :=
  (List.range 16).map (fun o =>
    (!b.loops.any (fun r => r.opu == o) ||
      ([0, 1, 2, 3].all (fun l => b.loops.any (fun r => r.opu == o && r.loop == l)) &&
       (List.range 8).all (fun k => b.chans.any (fun c => c.opu == o && c.spot == k))), 2, 0))

/-- OPUs of a share group. -/
def groupOpus (b : Binding) (g : Nat) : List Nat := (List.range 16).filter (fun o => b.chans.any (fun c => c.opu == o && c.group == g))

/-- One record of the Channel Graph against R82. -/
def chanOk (b : Binding) (i : Nat) (c : ChanRec) : Bool :=
  let mine := b.chans.filter (fun d => d.cell == c.cell)
  decide (c.cell ≤ 63) && decide (c.opu ≤ 15) && decide (c.spot ≤ 7) && decide (c.group ≤ 15) && decide (c.target ≤ 7) && decide (c.preset ≤ 255) &&
  freshAt b.chans i (fun a d => a.opu == d.opu && a.spot == d.spot) c &&
  (if c.group = 0 then mine.length == 1
   else mine.all (fun d => d.group == c.group && d.spot == c.spot && d.target == c.target) && mine.length == (groupOpus b c.group).length &&
     (groupOpus b c.group).all (fun o => mine.any (fun d => d.opu == o))) &&
  (b.chans.filter (fun d => d.opu == c.opu)).all (fun d => d.group == c.group) &&
  (b.chans.filter (fun d => d.opu == c.opu && d.group == c.group)).length == 8 &&
  (match c.partner with
   | none => true
   | some p => p != c.cell && b.chans.any (fun d => d.cell == p && d.opu == c.opu && d.partner == some c.cell && d.spot / 2 == c.spot / 2 && d.spot != c.spot) &&
     mine.all (fun d => d.partner == some p))

/-- The Channel Graph (R82): every OPU of the pair appears; one left out fails STRUCTURE (DESIGN CHOICE, log entry 180: R82 says that every OPU
appears, and no rule names the result). -/
def chanTests (sec : Bytes) (b : Binding) : List Test :=
  (sec.length % 8 == 0 && (List.range 16).all (fun o => b.chans.any (fun c => c.opu == o)), 3, 0) ::
    (indexed b.chans).map (fun e => (chanOk b e.1 e.2, 3, e.1))

/-- The Collation header and row bytes (R29). -/
def collationTests (sec : Bytes) (b : Binding) : List Test :=
  [(decide (6 ≤ b.width) && decide (b.width ≤ 16) && sec.length == 8 + 64 * b.width && (List.range 7).all (fun i => field sec (1 + i) 1 == 0), 4, 0)] ++
    (indexed b.rows).map (fun e => (e.2.all (fun m => decide (m ≤ 15)), 4, e.1))

/-- Queue Classes (R29, R237). -/
def queueTests (sec : Bytes) (b : Binding) (ctrls : Nat) : List Test :=
  let u := ((b.queues.filter (fun q => q.cls = 0)).map (fun q => q.last + 1 - q.first)).sum
  (sec.length % 8 == 0, 5, 0) :: (indexed b.queues).map (fun e =>
    let q := e.2
    (decide (1 ≤ q.first) && decide (q.first ≤ q.last) && decide (q.cls ≤ 1) && decide (q.wrr ≤ 2) && field sec (8 * e.1 + 6) 2 == 0 &&
      freshAt b.queues e.1 (fun a c => decide (a.first ≤ c.last) && decide (c.first ≤ a.last)) q, 5, e.1)) ++ [(decide (ctrls * (1 + u) ≤ 1024), 5, 0)]

/-- The numbers 0 to 7 in some order. -/
def permutes8 (l : List Nat) : Bool := (List.range 8).all (fun k => l.contains k)

/-- Power Order (R29). -/
def powerTests (sec : Bytes) (b : Binding) : List Test :=
  [(sec.length == 16 && decide (1 ≤ b.power.handPct) && decide (b.power.handPct ≤ 100) && permutes8 b.power.bays, 6, 0)]

/-- Byte 2 of a Mode Table record: 0 or a permutation of the four items (R374). -/
def orderOk (o : Nat) : Bool := o == 0 || (List.range 4).all (fun k => (List.range 4).any (fun i => o / 4 ^ i % 4 == k))

/-- Mode Table (R29, R374). -/
def modeTests (sec : Bytes) (b : Binding) : List Test :=
  (sec.length == 128, 7, 0) :: (indexed b.modes).map (fun e =>
    let m := e.2
    (decide (m.bay ≤ 7) && freshAt b.modes e.1 (fun a c => a.bay == c.bay) m && decide (m.mode ≤ 5) && orderOk m.order && decide (field sec (16 * e.1 + 3) 1 ≤ 1) &&
      decide (m.opus ≤ 2) && decide (50 ≤ m.slowMs) && decide (m.slowMs ≤ 2000) && decide (1 ≤ m.ageS) && field sec (16 * e.1 + 12) 4 == 0, 7, e.1))

/-- The Limits section's length and reserved bytes; its ranges fail LIMIT (R28). -/
def limitTests (sec : Bytes) : List Test := [(sec.length == 32 && field sec 14 18 == 0, 8, 0)]

/-- Ownership (R29). -/
def ownTests (sec : Bytes) (b : Binding) : List Test :=
  (sec.length == 32, 9, 0) :: (indexed b.owners).map (fun e =>
    let o := e.2
    (decide (o.bay ≤ 7) && freshAt b.owners e.1 (fun a c => a.bay == c.bay) o && decide (o.owner ≤ 1) && decide (3 ≤ o.hold) && decide (o.hold ≤ 64) &&
      decide (field sec (4 * e.1 + 3) 1 ≤ 1), 9, e.1))

/-- Bus Groups (R29, R166). -/
def busTests (sec : Bytes) (b : Binding) : List Test :=
  let own (n : Nat) : OwnRec := (b.owners.find? (fun o => o.bay = n)).getD {}
  [(sec.length == 8 && b.groups.all (fun g => decide (g ≤ 7)), 10, 0)] ++ (List.range 8).map (fun g =>
    let bs := (List.range 8).filter (fun n => b.groups.getD n 0 == g)
    (!(bs.any (fun n => (own n).owner == 0) && bs.any (fun n => (own n).owner == 1) && bs.any (fun n => !(own n).shadow)), 10, 0))

/-- STRUCTURE of a structural Binding. -/
def structureTests (bs : Bytes) (b : Binding) (ctrls : Nat) : List Test :=
  (indexed (directory bs)).map (fun e =>
    (decide (1 ≤ e.2.type) && decide (e.2.type ≤ 10) && freshAt (directory bs) e.1 (fun a c => a.type == c.type) e.2, e.2.type % 256, 0)) ++
  tickTests (sectionOf bs 1) b ++ loopTests (sectionOf bs 2) ++ opuTests b ++ chanTests (sectionOf bs 3) b ++ collationTests (sectionOf bs 4) b ++
  queueTests (sectionOf bs 5) b ctrls ++ powerTests (sectionOf bs 6) b ++ modeTests (sectionOf bs 7) b ++ limitTests (sectionOf bs 8) ++
  ownTests (sectionOf bs 9) b ++ busTests (sectionOf bs 10) b

/-! ### LIMIT, COLLATION, SCHEDULE -/

/-- LIMIT (R28, R29, R31, R340). -/
def limitOk (s : State) (l : LimRec) : Bool :=
  decide (l.spindle ≤ min 7500 (votedSpindle s)) && decide (l.laser ≤ min 15 (15 - votedFuses s.kst.laser)) && decide (l.fwl ≤ 100) &&
  decide (1 ≤ l.tripSt) && decide (l.tripSt ≤ 255) && decide (l.dirtyGib ≤ 48)

/-- The balance rule (R34). -/
def balanced (w : Nat) (rows : List (List Nat)) : Bool :=
  rows.all (fun r => decide r.Nodup) &&
  (List.range 16).all (fun m => (rows.filter (fun r => r.contains m)).length == 4 * w &&
    (rows.filter (fun r => (r.drop (w - 2)).contains m)).length == 8) &&
  (List.range 16).all (fun m => (List.range m).all (fun n => rows.any (fun r => r.contains m && r.contains n)))

/-- MACs of a cell's loop law and of its model (R32). -/
def lawMacs (r : LoopRec) : Nat := r.forming + 5 * r.sections + 4 + (if r.ff.isSome then 1 else 0) + r.allowance
def modelMacs (r : LoopRec) : Nat := r.order * r.order + 2 * r.order

/-- Start and end of a booking slot in nanoseconds: A to D, then P. -/
def slotStart (k : Nat) : Nat := 400 + 700 * k
def slotEnd (k : Nat) : Nat := 1100 + 700 * k
/-- Finish time of a slot with `m` MACs booked (R32). -/
def finishNs (k m : Nat) : Nat := slotStart k + 40 + (m + 7) / 8

/-- Bookings of the five slots after one Tick Plan record. -/
def book (b : Binding) (ms : List Nat) (t : TickRec) : List Nat :=
  match b.loops.find? (fun r => r.cell = t.cell) with
  | none => ms
  | some r =>
    let ms := ms.set t.slot (ms.getD t.slot 0 + lawMacs r)
    ms.set 4 (ms.getD 4 0 + modelMacs r)

/-- Bookings of the whole container. -/
def booked (b : Binding) : List Nat := b.tick.foldl (book b) [0, 0, 0, 0, 0]

/-- Bookings fit: every slot ends in time and the total stays within 24,000. -/
def bookOk (ms : List Nat) : Bool := (List.range 5).all (fun k => decide (finishNs k (ms.getD k 0) ≤ slotEnd k)) && decide (ms.sum ≤ 24000)

/-- The Tick Plan record of a cell. -/
def tickOf (b : Binding) (c : Nat) : Option TickRec := b.tick.find? (fun t => t.cell = c)

/-- A cell with a feed-forward source lies in a later slot than its source (R32). -/
def ffLater (b : Binding) (t : TickRec) : Bool :=
  match (b.loops.find? (fun r => r.cell = t.cell)).bind (fun r => r.ff) with
  | none => true
  | some c => match tickOf b c with | some u => decide (u.slot < t.slot) | none => true

/-- The first Tick Plan record whose booking breaks a limit. -/
def bookFail (b : Binding) : Nat → List Nat → List TickRec → Option Nat
  | _, _, [] => none
  | i, ms, t :: ts =>
    let ms := book b ms t
    if bookOk ms then bookFail b (i + 1) ms ts else some i

/-- SCHEDULE: the record at fault (R32). -/
def scheduleFail (b : Binding) : Option Nat :=
  (bookFail b 0 [0, 0, 0, 0, 0] b.tick).orElse (fun _ => b.tick.findIdx? (fun t => !ffLater b t))

/-- What the registers show of a check: its detail, and the bookings of a structural container whose records were reached (R31, R32). After an
earlier failure the bookings of the container before stand (DESIGN CHOICE, log entry 181). -/
def showCheck (s : State) (v : Verdict) (b : Binding) : State :=
  let s := { s with bnd := { s.bnd with detCode := v.code, detSection := v.section_, detRecord := v.record } }
  if (v.code = 0 ∨ 6 ≤ v.code ∧ v.code ≤ 8) ∧ !b.trim then
    { s with bnd := { s.bnd with
      book := booked b, finish := (List.range 5).map (fun k => finishNs k ((booked b).getD k 0)), total := (booked b).sum } }
  else s

/-! ### The factory Binding (R23, R29, R82) -/

/-- The Flyleaf's Binding by the defaults that the spec prints: the bracketed ones of R29 and the Channel Graph of R82. What it does not print
(identifier, Loop Graph, Collation, Bus Groups, the Limits without a bracket) is the model's (DESIGN CHOICE, log entry 183). -/
def flyleafDefaults : Binding :=
  { ident := 1
    chans := (List.range 16).flatMap (fun o => (List.range 8).map (fun k =>
      { cell := 8 * (o % 8) + k, opu := o, spot := k, group := o % 8 + 1, partner := some (8 * (o % 8) + (if k % 2 = 0 then k + 1 else k - 1)) }))
    rows := (List.range 64).map (fun i => (List.range 16).map (fun j => (i + j) % 16))
    modes := (List.range 8).map (fun b => { bay := b })
    owners := (List.range 8).map (fun b => { bay := b, owner := b / 4 })
    groups := (List.range 8).map (· / 2) }

/-- The factory Binding: the Flyleaf's container where its bytes are held, else the printed defaults. -/
def factoryBinding (s : State) : Binding := if s.bdy.flyleaf = [] then flyleafDefaults else parse s.bdy.flyleaf

/-! ### Trims (R30, R37) -/

/-- A word of a coefficient block that a trim may change (R30, R131). -/
def trimmable (r : LoopRec) (w : Nat) : Bool :=
  let f := r.forming
  let q := 16 + 2 * f + 6 * r.sections + 6 + modelWords r.order
  (decide (8 ≤ w) && decide (w ≤ 12)) || (decide (16 + f ≤ w) && decide (w < q))

/-- The words of a cell after a trim's records. -/
def trimWords (ts : List TrimRec) (cell : Nat) (ws : List Half) : List Half :=
  (ts.filter (fun t => t.cell = cell)).foldl (fun ws t => ws.set t.off t.value) ws

/-- STRUCTURE of a trim against the active Binding. -/
def trimTests (bs : Bytes) (b : Binding) (act : Binding) (words : Nat → List Half) : List Test :=
  let sec := sectionOf bs 11
  [((directory bs).all (fun e => e.type == 11), 11, 0), (sec.length % 8 == 0, 11, 0)] ++ (indexed b.trims).map (fun e =>
    let t := e.2
    match act.loops.find? (fun r => r.cell = t.cell) with
    | none => (false, 11, e.1)
    | some r => (decide (t.cell ≤ 0x5F) && trimmable r t.off && field sec (8 * e.1 + 6) 2 == 0 &&
        blockRanges r (trimWords b.trims t.cell (words t.cell)), 11, e.1))

/-! ### The checks in order (R31) -/

/-- Checks 0x02 to 0x04. -/
def signedChecks (s : State) (bs : Bytes) : Option Verdict :=
  if bodyDigest bs ≠ digestField bs then some { code := 2 }
  else if !signatureOk s bs then some { code := 3 }
  else if field bs 32 4 < bndFloor s then some { code := 4 }
  else none

/-- Checks 0x05 to 0x08 of a structural Binding. -/
def structChecks (s : State) (bs : Bytes) (b : Binding) : Option Verdict :=
  match firstFail 5 (structureTests bs b (controllers s).length) with
  | some v => some v
  | none =>
    if !limitOk s b.limits then some { code := 6, section_ := 8 }
    else if !balanced b.width b.rows then some { code := 7, section_ := 4 }
    else (scheduleFail b).map (fun i => { code := 8, section_ := 1, record := i })

/-- Checks 0x09 and 0x05 of a trim. -/
def trimChecks (s : State) (bs : Bytes) (b : Binding) : Option Verdict :=
  match s.bnd.active with
  | none => some { code := 9 }
  | some act =>
    if b.base ≠ act.ident then some { code := 9 }
    else firstFail 5 (trimTests bs b act (fun c => (cellAt s c).coef))

/-- The load checks of a container whose extent is `whole` (R31, R400); where a structural Binding is required a trim fails STRUCTURE (R25,
R28, R303). -/
def loadChecks (s : State) (bs : Bytes) (whole mustBeStruct : Bool) : Verdict :=
  if !whole || !formatOk bindingMagic (10, 1) bs then { code := 1 }
  else match signedChecks s bs with
    | some v => v
    | none =>
      let b := parse bs
      if b.trim then (if mustBeStruct then { code := 5 } else (trimChecks s bs b).getD {})
      else (structChecks s bs b).getD {}

end Sys2Proof.Machine
end

