-- ==== Sys2Proof/Machine/BindingCmd.lean ====
section
/-! DEFINITION. Loading, arming and committing Bindings (02_binding.md R25, R27, R31, R35 to R40, R400; 12_host_interface.md R247, R248;
15_twin_pair.md R306). -/

namespace Sys2Proof.Machine

/-! ### The pair (R40, R306) -/

/-- Single operation on either twin: a bay is run by the twin that does not own it. -/
def singleOp (s : State) : Bool :=
  (List.range 8).any (fun b => if (ownRec s b).owner = s.tck.twinId then peerRuns s b else runs s b)

/-- Binding work is open: the link is up, the pair is Paired and neither twin is in Single operation (R40, R306). -/
def pairUp (s : State) : Bool := s.spn.link == 2 && s.spn.paired && s.cmd.prot != 1 && !singleOp s

/-! ### Results (R31, R247, R248) -/

/-- The status of a completion whose dword 0 carries a result code: R247's where it names the case, else one of NVMe's, which the spec does
not state (a free value, log entry 3). -/
def codeStatus (s : State) (code : Nat) : Status :=
  if code = 0 then .success
  else if code = 0x0C then .vendor 1
  else if code = 0x0B then .vendor 3
  else if code = 0x0D then .vendor 4
  else if (freeValue s).toNat % 2 = 0 then .success else .invalidField

/-- Complete 0xC1 or 0xC2 with its result code in dword 0 (R248). -/
def completeCode (s : State) (r : CmdRef) (code : Nat) : State := complete (drawn s) r (codeStatus s code) (BitVec.ofNat 64 code)

/-! ### Gathering a container (R400) -/

/-- Byte `i` of a transfer: the last chunk that wrote it. -/
def chunkByte (xs : List (Nat × Bytes)) (i : Nat) : Option Byte :=
  xs.foldl (fun acc c => if c.1 ≤ i ∧ i < c.1 + c.2.length then c.2[i - c.1]? else acc) none

/-- Extent of a transfer: the highest byte offset written plus one. -/
def extent (xs : List (Nat × Bytes)) : Nat := xs.foldl (fun m c => if c.2 = [] then m else max m (c.1 + c.2.length)) 0

/-- The gathered bytes, and whether every byte up to the extent was written. An extent beyond the largest container fails FORMAT whatever
it holds (R26). -/
def gather (xs : List (Nat × Bytes)) : Bytes × Bool :=
  if 262144 < extent xs then ([], false)
  else
    let bs := (List.range (extent xs)).map (chunkByte xs)
    (bs.map (fun b => b.getD 0), bs.all (fun b => b.isSome))

/-- The container of the stage window, which ends at its length field where that meets FORMAT (R400). -/
def windowContainer (s : State) : Bytes × Bool :=
  let n := leNat (winBytes s.bnd.stageWin 8 4)
  if n % 8 = 0 ∧ 512 ≤ n ∧ n ≤ 262144 then (winBytes s.bnd.stageWin 0 n, true) else ([], false)

/-- Put a container under check; checks run in the order they were asked for. -/
def beginCheck (s : State) (c : Checking) : State := { s with bnd := { s.bnd with checking := s.bnd.checking ++ [c] } }

/-- BINDING_LOAD: opcode 0xC1 (R35, R40, R400). A chunk whose length is no multiple of 8 is refused with Invalid Field (DESIGN CHOICE, log
entry 182: the spec names no result). -/
def execBindingLoad (r : CmdRef) (offset : Word) (chunk : Bytes) (last : Bool) (s : State) : Out :=
  if lifeRetired s then .next (complete s r .commandSequence)
  else if chunk.length % 8 ≠ 0 ∨ (offset ≠ 0 ∧ s.bnd.xfer = none) then .next (complete s r .invalidField)
  else if !pairUp s then .next (completeCode (setResult { s with bnd := { s.bnd with xfer := none } } 0x0C) r 0x0C)
  else
    let xs := if offset = 0 then [(0, chunk)] else (s.bnd.xfer.getD []) ++ [(offset.toNat, chunk)]
    if last then
      let g := gather xs
      .next (beginCheck { s with bnd := { s.bnd with xfer := none } } { bytes := g.1, whole := g.2, ref := some r })
    else .next (completeCode { s with bnd := { s.bnd with xfer := some xs } } r 0)

/-- BND_CTL.CHECK, with ARM of the same write waiting for the end of the check (R35, R400). -/
def checkWindow (s : State) (armAfter : Bool) : State :=
  let g := windowContainer s
  beginCheck s { bytes := g.1, whole := g.2, ref := none, armAfter := armAfter }

/-- BND_CHECK: the host's write of BND_CTL.CHECK. -/
def execBndCheck (s : State) : Out := if barSealed s then .next s else .next (checkWindow s false)

/-! ### Discarding (R40) -/

/-- BND_CTL.ABORT: every staged or armed container goes, on both twins (R40). -/
def abortAll (s : State) : State := send (dropBoth s) (.mgmt .abortBinding)

/-- BND_ABORT. -/
def execBndAbort (s : State) : Out := if barSealed s then .next s else .next (abortAll s)

/-! ### Affected bays (R38) -/

/-- Loop cells of a bay in a Binding. -/
def namesCells (b : Binding) (bay : Nat) : List Nat := (b.loops.filter (fun r => r.opu / 2 == bay)).map (·.cell)

/-- Channel cells of a bay in a Binding. -/
def namesChans (b : Binding) (bay : Nat) : List Nat := (b.chans.filter (fun c => c.opu / 2 == bay)).map (·.cell)

/-- The records of a Binding that name a bay, its OPUs, their cells or their channel cells, by what they name. The Power Order names a bay
by its place in the start order, the Bus Groups by its byte. -/
def bayRecords (b : Binding) (bay : Nat) :
    List (Option LoopRec × Option TickRec) × List (Option ChanRec) × (Option ModeRec × Option OwnRec) × (Nat × Nat) :=
  let cs := namesCells b bay
  let ks := namesChans b bay
  ((List.range 96).map (fun n => ((b.loops.find? (fun r => r.cell == n && (r.opu / 2 == bay || r.ff.any (cs.contains ·)))),
      b.tick.find? (fun t => t.cell == n && cs.contains n))),
    (List.range 128).map (fun n => b.chans.find? (fun c => 8 * c.opu + c.spot == n &&
      (c.opu / 2 == bay || ks.contains c.cell || c.partner.any (ks.contains ·)))),
    (b.modes.find? (fun m => m.bay == bay), b.owners.find? (fun o => o.bay == bay)), (b.power.bays.idxOf bay, b.groups.getD bay 0))

/-- Bays affected by a structural Binding; every bay where none is active. -/
def affectedBays (s : State) (b : Binding) : Byte :=
  match s.bnd.active with
  | none => 0xFF
  | some a => maskOf (fun n => bayRecords a n != bayRecords b n)

/-- Every bay of a mask reads Hold (R378, R407). -/
def readHold (s : State) (mask : Byte) : Bool := (baysIn mask).all (fun b => (bayAt s b).mode == 5)

/-! ### Arming (R35 to R37) -/

/-- The first refusal of an arming for a stitch, 0 where none. -/
def armCode (s : State) (commit : Nat) : Nat :=
  let open_ (x : Option Staged) : Bool := x.any (fun y => y.armed.isNone)
  if !open_ s.bnd.structural && !open_ s.bnd.trim then 0x0E
  else if commit < now s + 256 then 0x0A
  else if open_ s.bnd.structural && !readHold s s.bnd.affected then 0x0B
  else if !pairUp s then 0x0C
  else 0

/-- A staged container, armed for a stitch unless it already is. -/
def armOne (commit : Nat) (x : Option Staged) : Option Staged :=
  x.map (fun y => if y.armed.isSome then y else { y with armed := some commit })

/-- The packet that tells the twin of a container staged or armed here (R36); stitches in this twin's own count (R46). -/
def stageNote (x : Staged) : MgmtMsg := .stageReport x.parsed.digest x.parsed.trim (BitVec.ofNat 64 (x.armed.getD 0))

/-- Arm every staged container not yet armed (R35); a commit stitch of zero means the current stitch plus 256. -/
def arm (s : State) (commit : Nat) : State × Nat :=
  let k := if commit = 0 then now s + 256 else commit
  let code := armCode s k
  let s := setResult s code
  if code = 0 then
    let s := { s with bnd := { s.bnd with structural := armOne k s.bnd.structural, trim := armOne k s.bnd.trim } }
    ((s.bnd.structural.toList ++ s.bnd.trim.toList).foldl (fun s x => send s (.mgmt (stageNote x))) s, 0)
  else if code = 0x0C then
    let todo := (s.bnd.structural.toList ++ s.bnd.trim.toList).filter (fun x => x.armed.isNone)
    (todo.foldl (fun s x => send s (.mgmt (.dropBinding x.parsed.digest))) (dropWhere s (fun x => x.armed.isNone)), code)
  else (s, code)

/-- BND_ARM: BND_CTL.ARM, for BND_COMMIT_STITCH. -/
def execBndArm (s : State) : Out := if barSealed s then .next s else .next (arm s (reg s .bndCommitStitch)).1

/-- BINDING_ACTIVATE: opcode 0xC2. -/
def execBindingActivate (r : CmdRef) (commit : Dword) (s : State) : Out :=
  if lifeRetired s then .next (complete s r .commandSequence)
  else
    let x := arm s commit.toNat
    .next (completeCode x.1 r x.2)

/-! ### The end of a check (R31, R36) -/

/-- Result of a check whose load checks gave `code`: PAIR and BUSY follow them (R31, R40). -/
def checkResult (s : State) (c : Checking) (b : Binding) (code : Nat) : Nat :=
  if code ≠ 0 then code
  else if !c.fromPeer && !pairUp s then 0x0C
  else if (if b.trim then s.bnd.trim.isSome else s.bnd.structural.isSome) then 0x0D
  else 0

/-- Stage a checked container, and forward it or report it to the twin (R36). -/
def stage (s : State) (c : Checking) (b : Binding) : State :=
  let x : Staged := { bytes := c.bytes, parsed := b, peer := c.fromPeer }
  let s := if b.trim then { s with bnd := { s.bnd with trim := some x } }
    else { s with bnd := { s.bnd with structural := some x, affected := affectedBays s b } }
  send s (.mgmt (if c.fromPeer then stageNote x else .stageContainer c.bytes))

/-- BINDING_CHECK_DONE: the oldest check ends (R31, R35, R36). -/
def execBindingCheckDone (s : State) : Out :=
  match s.bnd.checking with
  | [] => .next s
  | c :: rest =>
    let v := loadChecks s c.bytes c.whole false
    let b := parse c.bytes
    let code := checkResult s c b v.code
    let s := setResult (showCheck { s with bnd := { s.bnd with checking := rest } } v b) code
    let s := if code = 0 then stage s c b else s
    let s := match c.ref with | some r => completeCode s r code | none => s
    .next (if c.armAfter then (arm s (reg s .bndCommitStitch)).1 else s)

/-- BINDING_PAIR_TIMEOUT: 16 stitches before the commit stitch the twin has not staged the same container: it goes with PAIR, on both twins
(R36). -/
def execBindingPairTimeout (s : State) : Out :=
  let late (x : Staged) : Bool := !x.peer && x.armed.any (fun k => decide (k ≤ now s + 16))
  let todo := (s.bnd.structural.toList ++ s.bnd.trim.toList).filter late
  if todo = [] then .next s
  else .next (todo.foldl (fun s x => send s (.mgmt (.dropBinding x.parsed.digest))) (setResult (dropWhere s late) 0x0C))

/-! ### Commits (R27, R37, R38) -/

/-- A voted word raised to a number of fuses (R340). -/
def blow (v : Voted) (n : Nat) : Voted := { a := max v.a n, b := max v.b n, c := max v.c n }

/-- Activating a Binding raises the Binding floor to its security version, at most 255 (R27, R340). -/
def raiseFloor (s : State) (secver : Nat) : State :=
  { s with kst := { s.kst with bndFloor := blow s.kst.bndFloor (min secver 255) } }

/-- A trim's words in the Binding in force. -/
def trimmed (b : Binding) (ts : List TrimRec) : Binding := { b with loops := b.loops.map (fun r => { r with words := trimWords ts r.cell r.words }) }

/-- The bays that a staged structural Binding affects, found again against the Binding now in force (R38). -/
def reaffect (s : State) : State :=
  match s.bnd.structural with
  | some y => { s with bnd := { s.bnd with affected := affectedBays s y.parsed } }
  | none => s

/-- TRIM_COMMIT: at edge k, and at no other, the words take effect, loop states standing (R37, R51); a structural Binding armed for the same
stitch goes first, and without the pair it is discarded (R40). -/
def execTrimCommit (s : State) : Out :=
  match s.bnd.trim with
  | none => .next s
  | some x =>
    match x.armed with
    | none => .next s
    | some k =>
      if !trimCommits s then .next s
      else if !pairUp s then .next (loseArmed s)
      else
        let s := { s with
          cells := mapT (fun n (c : Cell) => if c.named then { c with coef := trimWords x.parsed.trims n c.coef } else c) s.cells
          bnd := { s.bnd with
            active := s.bnd.active.map (fun b => trimmed b x.parsed.trims), trim := none, trimStitch := k, trimDigest := x.parsed.digest } }
        .next (writeColophon (raiseFloor (reaffect s) x.parsed.secver) 3)

/-- The loop cells of a bay as a Binding names them: zeroed, PARKED at PARK (R129, R136, R402). -/
def bayCellsOf (b : Binding) (bay : Nat) : Tbl Cell :=
  (b.loops.filter (fun r => r.opu / 2 == bay)).map (fun r =>
    let t := (tickOf b r.cell).getD {}
    (r.cell, { named := true, opu := r.opu, loop := r.loop, slot := t.slot, order := t.order, ff := r.ff, action := r.action
               allowance := r.allowance, coef := r.words, u := s16 (r.words.getD 4 0), uPre := s16 (r.words.getD 4 0) }))

/-- The cells of the bays of a mask are replaced by those of a Binding; the other bays keep theirs. -/
def installCells (s : State) (b : Binding) (mask : Byte) : State :=
  let kept := s.cells.filter (fun e => !mask.getLsbD (e.2.opu / 2))
  { s with cells := ((baysIn mask).flatMap (bayCellsOf b)).foldl (fun t e => ins t e.1 e.2) kept }

/-- The modes of a Mode Table for the bays of a mask: a runtime mode set keeps precedence (R23, R377); a bay without a disc stays in Hold
(R379). -/
def tableModes (s : State) (mask : Byte) : State :=
  (baysIn mask).foldl (fun s b =>
    let m := (modeRec s b).mode
    if (bayAt s b).runtime ∨ (bayAt s b).safeStop ∨ (m ≠ 5 ∧ !discIn s b) then s else setMode s b m) s

/-- A staged trim against another identifier goes, and BASE_MISMATCH is logged (R40). -/
def orphanTrim (s : State) : State := if s.bnd.trim.isSome then event (dropTrim s) 0x209 16 1 else s

/-- A structural Binding takes effect with its affected bays (R27, R38, R39, R40). -/
def activate (s : State) (b : Binding) (bytes : Bytes) (source : Nat) (mask : Byte) : State :=
  let s := { s with bnd := { s.bnd with active := some b, actBytes := bytes, source := source, structural := none, affected := 0 } }
  orphanTrim (tableModes (raiseFloor (installCells s b mask) b.secver) mask)

/-- STRUCTURAL_COMMIT: at the edge of the commit stitch, and at no other, if every affected bay still reads Hold; else it is abandoned (R38,
R51); without the pair it is discarded (R40). -/
def execStructuralCommit (s : State) : Out :=
  match s.bnd.structural with
  | none => .next s
  | some x =>
    match x.armed with
    | none => .next s
    | some k =>
      if now s ≠ k ∨ !x.peer then .next s
      else if !pairUp s then .next (loseArmed s)
      else if !readHold s s.bnd.affected then .next (setResult (dropStruct s) 0x0B)
      else .next (writeColophon (activate s x.parsed x.bytes 2 s.bnd.affected) 2)

end Sys2Proof.Machine
end

