-- ==== Sys2Proof/Machine/Reset.lean ====
section
/-! DEFINITION. Resets and start-up (19_power_modes.md R367 to R371; 17_security.md R326, R331, R336, R342; 02_binding.md R25;
18_bindery.md R349, R351, R355; 11_quires.md R223; 14_memory_and_vault.md R271, R283; 21_electrical.md R399). -/

namespace Sys2Proof.Machine

/-! ### The event log's pages (R363) -/

/-- Entries of the newest page while it is not full. -/
def openPage (b : Bdy) : List Event :=
  match b.pages.getLast? with
  | some p => if p.length < 32 then p else []
  | none => []

/-- Write a page of 32 entries at most to the ring of 2,048: a page written before it was full is filled up first, as the rule's example
counts it (DEDUCED, log entry 216). -/
def writePage (s : State) : State :=
  let p := openPage s.bdy
  let rest := if p = [] then s.bdy.pages else s.bdy.pages.dropLast
  if s.bdy.staged = [] then s
  else { s with bdy := { s.bdy with
      pages := (rest ++ [p ++ s.bdy.staged.take (32 - p.length)]).drop ((rest.length + 1) - 2048)
      staged := s.bdy.staged.drop (32 - p.length), stagedAt := s.tck.count } }

/-- Write every staged entry. -/
def writePages (s : State) : State := (List.range (s.bdy.staged.length / 32 + 2)).foldl (fun s _ => writePage s) s

/-- EVENT_LOG_PAGE_WRITE: a page is full, or 1 s has passed since its first entry. -/
def execEventLogPageWrite (s : State) : Out :=
  if 32 ≤ (openPage s.bdy).length + s.bdy.staged.length ∨ s.bdy.stagedAt + Config.sec ≤ now s then .next (writePage s) else .next s

/-! ### What a reset leaves (R342, R368, R369) -/

/-- A BAR2 offset lies in a block of the AON domain: TCK or PWR (R367). -/
def aonOffset (o : Nat) : Bool := decide (0x100000 ≤ o) && decide (o < 0x400000)

/-- Key slots as the reset reload finds them: the ACTIVE records of NOR (R336). -/
def reloadSlots (rs : List SlotRecord) : Tbl KeySlot :=
  (rs.filter (fun r => r.active)).foldl (fun t r =>
    ins t r.slot { st := 2, kcv := r.kcv, key := r.key, nsid := r.nsid.toNat, write := r.write }) []

/-- The Quire Engine after a warm reset: the journal and what waits in the protected cache, the committed pieces of cut writes among it (R268);
no volume is mounted. -/
def keptQuires (s : State) : Qre :=
  let q := s.qre
  let cut := (s.hiu.cmds.filter (fun c => isWrite c && c.st == .data && decide (0 < c.pieces) && !c.remote)).map (·.seq)
  { cur := q.cur, quires := q.quires, surf := mapT (fun _ (x : Surf) => { layer := x.layer, frame := x.frame, catFrame := x.catFrame, gen := x.gen }) q.surf
    ingest := q.ingest, amends := q.amends, nextSeq := q.nextSeq, dirSeq := q.dirSeq, prevDir := q.prevDir
    unplaced := q.unplaced ++ cut, rebuilt := q.rebuilt, waiting := q.waiting }

/-- Memory after a warm reset: the protected region with its DRAM words, and the vault. -/
def keptMem (s : State) : Mem :=
  let top := controlBytes s + s.mem.window0 * 2 ^ 30
  { dram := s.mem.dram.filter (fun e => decide (4 * e.1 < top)), poisoned := s.mem.poisoned.filter (fun l => decide (l < top))
    holders := s.mem.holders
    image := s.mem.image, replayed := s.mem.replayed, replaying := s.mem.replaying, log := s.mem.log, logIngest := s.mem.logIngest
    erased := s.mem.erased, epoch := s.mem.epoch, imageSeq := s.mem.imageSeq, map := s.mem.map, window0 := s.mem.window0 }

/-- The Bindery after a warm reset: what NOR and OTP hold. Entries not yet written to a page are gone with its SRAM. -/
def keptBindery (s : State) : Bdy :=
  let b := s.bdy
  let d := directoryInForce b
  { dirs := b.dirs, running := d.running, pendingSlot := d.pendingSlot, attempts := d.attempts, fwSlots := b.fwSlots, bootSlots := b.bootSlots
    restarts := b.restarts, sheets := b.sheets, sheetActive := d.sheetActive, flyleaf := b.flyleaf, serial := b.serial, romPatch := b.romPatch
    colophon := tornColophon s, bootCount := b.bootCount, coloSeq := b.coloSeq, pages := b.pages
    evtSeq := ((b.pages.flatten.getLast?).map (·.seq)).getD 0, smbOut := b.smbOut, lastPair := b.lastPair }

/-- The key store after a warm reset: slots reloaded from NOR, voted words as OTP holds them. -/
def keptKeys (k : Kst) : Kst :=
  { slots := reloadSlots k.nor, nor := k.nor, lc := k.lc, bndFloor := k.bndFloor, fwFloor := k.fwFloor, spindle := k.spindle, laser := k.laser
    ownerHash := k.ownerHash, requests := k.requests }

/-- A warm reset: every domain but AON; the protected region, OTP, NOR and the vault stay (R368). Completions already posted, and the bay
front ends, are outside the twin; a retired lane returns if it passes its known-answer tests, which a free value tells (R331, log entry 3); packets that wait for the link go. -/
def warmed (s : State) (phase : Phase) (cause : Nat) : State :=
  { pending := s.pending, free := s.free + 1, bfes := s.bfes
    regs := s.regs.filter (fun e => aonOffset e.1), cnt := s.cnt.filter (fun e => decide (e.1 / 32 = 1) || decide (e.1 / 32 = 2))
    tck := { s.tck with aliveOut := false, aliveOn := false }
    pwr := { s.pwr with
      phase := phase, stage := 0, halted := false, resetCause := s.pwr.resetCause ||| BitVec.ofNat 7 (2 ^ cause)
      domBdy := true, domCore := false, domRdc := 0, domSerdes := 0, domDdr := 0, vaultDone := false, activating := 0 }
    qre := keptQuires s
    hiu := { comps := s.hiu.comps, irqs := s.hiu.irqs, ns := s.hiu.ns, zones := s.hiu.zones }
    cmd := { seq := s.cmd.seq, versions := s.cmd.versions, lost := s.cmd.lost }
    mem := keptMem s, kst := keptKeys s.kst
    cph := { seq := s.cph.norEnd, seqEnd := s.cph.norEnd, norEnd := s.cph.norEnd, drbg := 2, retired := s.cph.retired &&& (freeValue s).setWidth 8 }
    bdy := shownColophon (keptBindery s) }

/-- Power-on reset: everything but OTP, NOR and the vault; the counter restarts at 0, and what the vault holds awaits replay (R289, R368). -/
def powered (s : State) : State :=
  let w := warmed s .porLow 0
  let vaulted := s.mem.image.isSome || !s.mem.log.isEmpty
  { w with
    regs := [], cnt := [], tck := {}, pwr := { phase := .porLow }
    qre := {}, cmd := {}, hiu := { w.hiu with zones := [] }
    mem := { image := s.mem.image, replayed := s.mem.replayed, replaying := vaulted, log := s.mem.log, logIngest := s.mem.logIngest, erased := s.mem.erased
             epoch := s.mem.epoch, imageSeq := s.mem.imageSeq } }

/-- POWER_ON_RESET: POR_N goes low. A dump in progress stops (R399). -/
def execPowerOnReset (s : State) : Out := .next (powered s)

/-- Number of a warm reset's cause in PWR_RESET_CAUSE. -/
def causeBit : WarmCause → Nat
  | .sysRst => 1 | .lockstep => 2 | .activation => 3 | .dump => 4 | .thermal => 5 | .trip => 6

/-- WARM_RESET: SYS_RST_N is ignored during a dump (R399); a lockstep mismatch resets 64 stitches after it (R345). -/
def execWarmReset (cause : WarmCause) (s : State) : Out :=
  if s.mem.dumping ∧ cause ≠ .trip ∨ cause = .lockstep ∧ (!s.bdy.halted ∨ now s < s.spn.haltAt) then .next s
  else .next (warmed s (if cause = .trip then .tripped else if cause = .thermal then .thermal else .warm) (causeBit cause))

/-- PERST_N: a PCIe port's reset takes its controller and that controller's queues (R368); ignored during a dump (R399). -/
def execPerstN (port : Fin 2) (s : State) : Out :=
  if s.mem.dumping || !(controllers s).contains port.val then .next s
  else .next (releaseVersions (setCtrl (endController s port) port {}))

/-! ### Start-up (R370) -/

/-- The slot from which an image starts: the wanted one if its image is valid, else the other (R351). -/
def pickSlot (s : State) (slots : Tbl FwImage) (kind want : Nat) : Option Nat :=
  [want, 3 - want].find? (fun n => (look slots n).any (fun i => fwValid s i && i.kind.toNat == kind))

/-- Boot (R349, R351): the slot wanted, its attempts, the loader and the firmware that start; none where no valid image is found. -/
def boot (s : State) : Option State :=
  let pend := decide (s.bdy.pendingSlot ≠ 0) && decide (0 < s.bdy.attempts)
  let spent := decide (s.bdy.pendingSlot ≠ 0) && !pend
  let want := if pend then s.bdy.pendingSlot else s.bdy.running
  let s := if pend then fileDirectory { s with bdy := { s.bdy with attempts := s.bdy.attempts - 1 } } else s
  let s := if spent then countEvent (fileDirectory { s with bdy := { s.bdy with pendingSlot := 0 } }) 0 3 2 else s
  (pickSlot s s.bdy.bootSlots 1 want).bind (fun l =>
    (pickSlot s s.bdy.fwSlots 2 want).map (fun f =>
      let s := { s with bdy := { s.bdy with bootedLoader := l, booted := f, running_ := (look s.bdy.fwSlots f).getD {} } }
      if l = want ∧ f = want then s else countEvent s 0 3 1))

/-- Loop cells of a structural Binding, all bays. -/
def installAll (s : State) (b : Binding) : State := installCells { s with cells := [] } b 0xFF

/-- The Binding becomes active at start-up: its cells stand, its security version raises the floor (R27). -/
def startBinding (s : State) (b : Binding) (bytes : Bytes) (source : Nat) : State :=
  raiseFloor (installAll { s with bnd := { s.bnd with active := some b, actBytes := bytes, source := source } } b) b.secver

/-- Load the Endsheet's user Binding, or the factory Binding; a failing one falls back, logged with its code, every bay in Hold and the
host told (R25). -/
def loadBinding (s : State) : State :=
  let factory (s : State) : State := startBinding s (factoryBinding s) s.bdy.flyleaf 0
  match (sheet s).binding with
  | none => factory s
  | some bs =>
    let v := loadChecks s bs true true
    let s := setResult (showCheck s v (parse bs)) v.code
    if v.code = 0 then startBinding s (parse bs) bs 1
    else vendorEvent (event { factory s with bnd := { (factory s).bnd with fallback := true } } (0x200 + v.code) 16 2) 1

/-- Status of the vault from the test at start-up (R283): 0 ready, 1 degraded, 2 failed. -/
def vaultTest (rate : Nat) (channels : BitVec 4) (programs : Bool) : Nat :=
  if !programs then 2 else if rate < 6000 ∨ channels ≠ 15 then 1 else 0

/-- The DDR channels and the read pool come on (R370 rows 5 to 7). -/
def trained (s : State) : State := { s with pwr := { s.pwr with halted := false, stage := 7, domDdr := 3, domRdc := 0xFF } }

/-- The TWIN_ID and PCIE_SPLIT straps are sampled at the end of a power-on reset, and stand over a warm one (R1, R231, R392). -/
def strapped (s : State) (twinId : Nat) (split : Bool) : Tck :=
  if s.pwr.phase = .porLow then { s.tck with twinId := twinId, split := split } else s.tck

/-- RESET_RELEASE: start-up to the trained memory: straps, boot, domains, Endsheet and Binding, vault test. A twin that finds no valid
image, or DIMMs of unequal size, does not start (R271, R351); PWR_FAIL_N low holds it before training (R399), and after a dump it holds
the release itself (R392). -/
def execResetRelease (twinId : Fin 2) (split : Bool) (dimm0 dimm1 : Byte) (rate : Half) (channels : BitVec 4) (programs : Bool) (s : State) :
    Out :=
  if s.pwr.phase != .porLow && s.pwr.phase != .warm || s.pwr.vaultDone && s.pwr.failLow then .next s
  else
    let s := { s with tck := strapped s twinId split, pwr := { s.pwr with domBdy := true, vaultDone := false } }
    match boot s with
    | none => .next { s with pwr := { s.pwr with phase := .noBoot } }
    | some s =>
      let s := { s with
        pwr := { s.pwr with phase := .starting, domCore := true, domSerdes := 0x3FFF, stage := 4, quadsAt := now s }
        tck := { s.tck with aliveOn := true }
        spn := { s.spn with link := 1 }
        cph := { s.cph with drbg := 0, drbgAt := now s }
        bdy := { s.bdy with overrides := (sheet s).overrides }
        mem := { s.mem with dimm0 := dimm0.toNat, dimm1 := dimm1.toNat, vaultKind := vaultTest rate.toNat channels programs
                            vault := vaultTest rate.toNat channels programs, rate := rate.toNat } }
      let s := loadBinding s
      let s := { s with mem := { s.mem with window0 := (s.bnd.active.map (fun (b : Binding) => b.limits.dirtyGib)).getD 24 } }
      if dimm0 ≠ dimm1 then .next (event { s with pwr := { s.pwr with phase := .noBoot }, tck := { s.tck with aliveOn := false } } 0 13 3)
      else if s.pwr.failLow then .next { s with pwr := { s.pwr with halted := true } }
      else .next (trained s)

/-- POWER_FAIL_CLEAR: PWR_FAIL_N has been high for 250 stitches: start-up goes on (R399). -/
def execPowerFailClear (s : State) : Out :=
  if s.pwr.phase == .starting && s.pwr.halted && decide (250 ≤ s.pwr.failHigh) then .next (trained s) else .next s

/-! ### Protection (R260, R261) -/

/-- The write of a version still commits its pieces. -/
def partial_ (s : State) (v : Version) : Bool := s.hiu.cmds.any (fun c => isWrite c && c.st == .data && c.seq == v.seq)

/-- Enter single-board or seal-only protection: the host is told; in single-board every acknowledged version whose quire is not sealed goes
to the vault log, and so does every committed one whose write has yet to complete there (R252, R261). -/
def loseMirror (s : State) : State :=
  if s.mem.vaultKind = 2 then vendorEvent { s with cmd := { s.cmd with prot := 2 } } 3
  else if s.cmd.prot = 1 then s
  else
    let s := vendorEvent { s with cmd := { s.cmd with prot := 1 } } 2
    (s.cmd.versions.filter (fun v => !v.vaulted && if v.acked then !versionSealed s v.twin v.seq else v.own && !partial_ s v)).foldl logVersion s

/-- PAIRING_TIMEOUT: 10 s after the Spine quads came up the other twin has not answered: the twin starts without it (R370). -/
def execPairingTimeout (s : State) : Out :=
  if s.pwr.phase == .starting && decide (s.pwr.stage < 9) && !s.mem.replaying && !s.pwr.halted && !s.spn.paired &&
      decide (s.pwr.quadsAt + 10 * Config.sec ≤ now s) then
    .next (loseMirror { s with pwr := { s.pwr with stage := 9 } })
  else .next s

/-- The restart rules of the journal (R223): unsealed quires abandoned without counting, their data back to filling; sealed records not yet
filed wait for filing. -/
def restartJournal (s : State) : State :=
  let n := s.qre.quires
  let s := n.foldl (fun s e => if e.2.twin = s.tck.twinId then abandonQuire s e.1 else s) s
  let s := (s.cmd.versions.filter (fun v => v.own && !versionSealed s s.tck.twinId v.seq)).foldl (fun s v => waitQuire s v.seq) s
  if (unfiled s).isEmpty then s else { s with qre := { s.qre with unfiledAt := some (now s) } }

/-- Colophon reason 0; with no record held the restart count steps, at most 64, and a chain starts (R353, R355). -/
def bootRecord (s : State) : State :=
  let s := if (heldRecords s).isEmpty then { s with bdy := { s.bdy with restarts := min 64 (s.bdy.restarts + 1), chainStart := true } } else s
  let s := writeColophon s 0
  { s with bdy := { s.bdy with bootRecord := true }, ports := mapT (fun _ (p : Port) => { p with idRecorded := p.idRecorded || p.ident.isSome }) s.ports }

/-- Every enabled controller becomes ready; the first readiness confirms a pending slot (R351, R370). -/
def readyAll (s : State) : State :=
  (controllers s).foldl (fun s n =>
    let c := ctrlAt s n
    if c.cc.getLsbD 0 && !c.cfs then confirmSlot (setCtrl s n { c with rdy := true }) else s) s

/-- STARTUP_COMPLETE: restart rules, the boot record, the Mode Table's modes, readiness (R223, R353, R370, R372, R377). -/
def execStartupComplete (s : State) : Out :=
  if s.pwr.phase != .starting || s.pwr.halted || s.mem.replaying || decide (s.pwr.stage < 9) then .next s
  else
    let s := bootRecord (restartJournal s)
    let s := { s with pwr := { s.pwr with phase := .running, stage := 11 } }
    .next (readyAll (if s.bnd.fallback then s else tableModes s 0xFF))

/-- RESET_CAUSE_CLEAR: PWR_RESET_CAUSE bits written 1 clear (R4). -/
def execResetCauseClear (mask : BitVec 7) (s : State) : Out :=
  if barSealed s then .next s else .next { s with pwr := { s.pwr with resetCause := s.pwr.resetCause &&& ~~~ mask } }

/-- COUNTER_CLEAR: CLR_CNT of a block (R386). -/
def execCounterClear (block : Fin 17) (s : State) : Out := if barSealed s then .next s else .next (clearCounters s block)

end Sys2Proof.Machine
end

