-- ==== Sys2Proof/Machine/Vault.lean ====
section
/-! DEFINITION. Power failure, the vault, replay, the Burnisher, injection and the Map Cache lock (14_memory_and_vault.md R273 to R291;
13_command_ordering.md R259; 17_security.md R343; 18_bindery.md R363; 19_power_modes.md R382, R383). -/

namespace Sys2Proof.Machine

/-! ### The dump (R287, R288) -/

/-- What the protected region holds, as an image (R272, R288). -/
def imageOf (s : State) : Image :=
  { epoch := s.mem.epoch, seq := s.mem.imageSeq + 1, bytes := dirtyBytes s + controlBytes s, versions := s.cmd.versions, ingest := s.qre.ingest
    quires := s.qre.quires, surf := s.qre.surf, amends := s.qre.amends, map := s.mem.map, zones := s.hiu.zones, rebuilt := s.qre.rebuilt
    waiting := s.qre.waiting, unplaced := s.qre.unplaced, seqs := (s.qre.nextSeq, s.qre.dirSeq), prevDir := s.qre.prevDir }

/-- A dump begins: fetch and admission stop, writes not acknowledged are abandoned, every bay the twin runs safe-stops, the twin is told,
the partial event page is written, a pending transition is dropped; an image that still awaits its erasure stays the valid one and nothing
new is dumped (R259, R287, R290, R343, R363). -/
def beginDump (s : State) : State :=
  let s := { s with
    cmd := { s.cmd with admission := false, versions := s.cmd.versions.filter (fun v => v.acked || !v.own) }
    qre := { s.qre with ingest := s.qre.ingest.filter (fun i =>
      s.cmd.versions.any (fun v => (v.acked || !v.own) && v.seq == i.version && v.twin == i.twin)) }
    hiu := { s.hiu with cmds := s.hiu.cmds.filter (fun c => !isWrite c) }
    kst := { s.kst with transition := none } }
  let s := (List.range 8).foldl (fun s b => if runs s b then stopBay s b false else s) s
  let s := send s (.mgmt .powerFail)
  let s := countEvent s 13 5 2
  let s := writePages s
  let fresh := !s.mem.replayed && decide (s.mem.vault ≠ 2)
  { s with mem := { s.mem with
      dumping := true, dumpAt := now s, imageSeq := if fresh then s.mem.imageSeq + 1 else s.mem.imageSeq
      image := if fresh then some (imageOf s) else s.mem.image } }

/-- The twin runs or starts, and no dump is in progress. -/
def alive (s : State) : Bool := (s.pwr.phase == .starting || s.pwr.phase == .running) && !s.mem.dumping

/-- POWER_FAIL_DETECT: PWR_FAIL_N read low at two consecutive edges. During replay, replay stops and the image stays (R287, R291). -/
def execPowerFailDetect (s : State) : Out :=
  if !alive s || decide (s.pwr.failRun < 2) then .next s
  else if s.mem.replaying then .next { s with pwr := { s.pwr with halted := true } }
  else .next (beginDump s)

/-- VAULT_DONE: the last commit page has programmed: the image is complete, and the twin resets, to replay it (R287); after a thermal
shutdown THERM_TRIP_N goes low and the twin is held (R382). -/
def execVaultDone (s : State) : Out :=
  if !s.mem.dumping then .next s
  else
    let heat := s.pwr.therm == 3
    let s := { s with mem := { s.mem with
      image := s.mem.image.map (fun i => { i with complete := true })
      log := if s.mem.replayed then s.mem.log else [], logIngest := if s.mem.replayed then s.mem.logIngest else []
      erased := if s.mem.replayed then s.mem.erased else s.mem.erased - ((s.mem.image.map (·.bytes)).getD 0)
      dumping := false, replaying := s.mem.image.isSome } }
    let s := warmed s (if heat then .thermal else .warm) (if heat then 5 else 4)
    .next { s with pwr := { s.pwr with vaultDone := true, thermTrip := heat } }

/-! ### Replay (R289, R290) -/

/-- Ingest records of a version. -/
def ingestsOf (is : List Ingest) (v : Version) : List Ingest := is.filter (fun i => i.twin == v.twin && i.version == v.seq)

/-- A version whose data was dropped: each of its ingest records is reported, its blocks are lost (R289). -/
def loseVersion (s : State) (v : Version) : State :=
  let s := (ingestsOf s.qre.ingest v).foldl (fun s i => event s 0 13 3 0xFF 0xFF [i.nsid, i.lba, i.blocks, i.seq]) s
  { s with
    cmd := { s.cmd with lost := s.cmd.lost ++ (List.range v.nlb).map (fun k => (v.nsid, v.lba + k)) }
    qre := { s.qre with ingest := s.qre.ingest.filter (fun i => !(i.twin == v.twin && i.version == v.seq)) } }

/-- Load an image into the protected region. -/
def loadImage (s : State) (i : Image) : State :=
  { s with
    cmd := { s.cmd with versions := i.versions }
    qre := { s.qre with quires := i.quires, surf := i.surf, ingest := i.ingest, amends := i.amends, rebuilt := i.rebuilt, waiting := i.waiting
                        unplaced := i.unplaced, nextSeq := i.seqs.1, dirSeq := i.seqs.2, prevDir := i.prevDir }
    mem := { s.mem with map := i.map }
    hiu := { s.hiu with zones := i.zones } }

/-- Load the log segments that follow: versions and ingest records the image does not hold, one copy of each. -/
def loadLog (s : State) : State :=
  { s with
    cmd := { s.cmd with versions := s.cmd.versions ++ s.mem.log.filter (fun v => !s.cmd.versions.any (fun w => w.twin == v.twin && w.seq == v.seq)) }
    qre := { s.qre with ingest := s.qre.ingest ++ s.mem.logIngest.filter (fun i => !s.qre.ingest.any (fun j => j.twin == i.twin && j.seq == i.seq)) } }

/-- Admission resumes above every sequence held. -/
def aboveAll (s : State) : State := { s with cmd := { s.cmd with seq := s.cmd.versions.foldl (fun n v => max n v.seq) s.cmd.seq } }

/-- An image that replay takes: complete, or with its control area under a commit page (R284, R289). -/
def imageValid (i : Image) (control : Bool) : Bool := i.complete || control

/-- The versions of an image in the order its data pages are written: oldest admission sequence first (R287). -/
def dumpOrder (vs : List Version) : List Version := vs.mergeSort (fun a b => decide (a.seq ≤ b.seq))

/-- The number of the commit page that covers each version's last data page: one after every 1 GiB (R287). -/
def commitPages (vs : List Version) : List (Version × Nat) :=
  (((dumpOrder vs).foldl (fun (x : List (Version × Nat) × Nat) v =>
    let n := x.2 + 4096 * v.nlb
    (x.1 ++ [(v, (n - 1) / 2 ^ 30)], n)) ([], 0))).1

/-- Versions of an image that ended early whose data no commit page covers: from the first page group with a dropped version on (R284, R289). -/
def droppedOf (i : Image) (dropped : List (Nat × Nat)) : List Version :=
  if i.complete then []
  else
    let ps := commitPages i.versions
    match (ps.filter (fun e => dropped.contains (e.1.twin, e.1.seq))).map (·.2) with
    | [] => []
    | k :: ks => let first := ks.foldl min k; (ps.filter (fun e => decide (first ≤ e.2))).map (·.1)

/-- The 32 bytes that begin a vault page (R284): type 1 control, 2 data, 3 commit, 4 log record. -/
def vaultPageHeader (epoch imageSeq index type : Nat) : Bytes :=
  let b := [0x53, 0x4B, 0x56, 0x54] ++ natLe 4 epoch ++ natLe 8 imageSeq ++ natLe 4 index ++ [BitVec.ofNat 8 type] ++ zeros 7
  b ++ natLe 4 (crc32c b).toNat

/-- A page as the vault holds it (R284, R327): data and commit pages as they are, control and log pages encrypted under the vault key, IV the
image sequence followed by the page index, the tag after the data. -/
def vaultPage (s : State) (imageSeq index type : Nat) (data : Bytes) : Bytes :=
  let h := vaultPageHeader s.mem.epoch imageSeq index type
  if type = 2 ∨ type = 3 then h ++ data
  else
    let k := Config.vaultKey (lifeCycle s) s.mem.epoch
    let iv := natLe 8 imageSeq ++ natLe 4 index
    h ++ Config.gcmText k iv [] data ++ natLe 16 (Config.gcmTag k iv [] data).toNat

/-- A commit page: the digest of every page since the one before it (R284). -/
def commitPage (s : State) (imageSeq index : Nat) (pages : List Bytes) : Bytes := vaultPage s imageSeq index 3 (natLe 48 (Config.sha384 pages.flatten).toNat)

/-- VAULT_REPLAY_DONE: the valid image and what follows it are in the protected region; dropped data is lost (R289). -/
def execVaultReplayDone (control : Bool) (dropped : List (Nat × Nat)) (s : State) : Out :=
  if !(s.pwr.phase == .starting) || !s.mem.replaying || s.pwr.halted then .next s
  else
    let img := s.mem.image.filter (fun i => imageValid i control)
    let s := match img with
      | none => loadLog { s with mem := { s.mem with image := none, replayed := false } }
      | some i =>
        let gone := droppedOf i dropped
        let s := gone.foldl loseVersion (loadImage s { i with versions := i.versions.filter (fun v => !gone.contains v) })
        let s := if s.mem.replayed then loadLog s else { s with mem := { s.mem with log := [], logIngest := [] } }
        { s with mem := { s.mem with image := some { i with complete := true }, replayed := true } }
    .next (bump (aboveAll { s with mem := { s.mem with replaying := false }, pwr := { s.pwr with stage := max s.pwr.stage 8 } }) 13 6)

/-- REPLAYED_IMAGE_ERASE: the armed capacity can take a complete new image: the replayed one is given up (R290). -/
def execReplayedImageErase (s : State) : Out :=
  if s.mem.replayed ∧ !s.mem.dumping ∧ dirtyBytes s + controlBytes s ≤ armedBytes s then
    .next { s with mem := { s.mem with image := none, replayed := false } }
  else .next s

/-- VAULT_ERASE_DONE: blocks outside every image that replay may need are erased; log records all sealed on media are gone (R285, R286). -/
def execVaultEraseDone (bytes : Dword) (s : State) : Out :=
  let log := s.mem.log.filter (fun v => !versionSealed s v.twin v.seq)
  .next { s with mem := { s.mem with
    erased := s.mem.erased + bytes.toNat, log := log
    logIngest := s.mem.logIngest.filter (fun i => log.any (fun v => v.twin == i.twin && v.seq == i.version)) } }

/-! ### The log of single-board protection (R286) -/

/-- VAULT_GROUP_CLOSE: a group closes at 16 stitches or 4 MiB. -/
def execVaultGroupClose (s : State) : Out :=
  match s.mem.group with
  | some g =>
    if g.born + 16 ≤ now s ∨ 4194304 ≤ g.bytes then .next { s with mem := { s.mem with group := none, closing := s.mem.closing ++ [g] } }
    else .next s
  | none => .next s

/-- VAULT_COMMIT_DONE: the commit page of the oldest closed group has programmed: its versions stand in the vault (R260, R286). -/
def execVaultCommitDone (s : State) : Out :=
  match s.mem.closing with
  | [] => .next s
  | g :: rest =>
    let mark (v : Version) : Version := if g.seqs.contains (v.twin, v.seq) then { v with vaulted := true } else v
    let vs := s.cmd.versions.map mark
    let new := vs.filter (fun v => g.seqs.contains (v.twin, v.seq))
    .next { s with
      cmd := { s.cmd with versions := vs }
      mem := { s.mem with
        closing := rest, log := s.mem.log ++ new, logIngest := s.mem.logIngest ++ new.flatMap (ingestsOf s.qre.ingest)
        imageSeq := s.mem.imageSeq + 1, erased := s.mem.erased - g.bytes } }

/-! ### The Burnisher (R274, R278, R281) -/

/-- DRAM lines of the twin, 64 bytes each; the Map Cache's follow them in the lap. -/
def dramLines (s : State) : Nat := (s.mem.dimm0 + s.mem.dimm1) * 2 ^ 24

/-- Lines of the Map Cache: 16 ways of 8,192 sets. -/
def cacheLines : Nat := 131072

/-- The Burnisher runs: enabled, and neither a dump nor a replay nor a reset holds it. -/
def burns (s : State) : Bool := alive s && !s.mem.replaying && decide (s.pwr.failRun < 2) && (reg s .memCtl).testBit 1 && decide (0 < dramLines s)

/-- Difference from a correct encoding that the Burnisher finds in word `j` of a line. -/
def wordErr (s : State) (flips : List (BitVec 39)) (a j : Nat) : BitVec 39 := getD s.mem.dram 0 (a / 4 + j) ^^^ flips.getD j 0

/-- The difference that remains after a word's correction. -/
def corrected (e : BitVec 39) : BitVec 39 :=
  match decideSyndrome (syndrome e.toNat) with
  | .clean | .uncorrectable => e
  | .checkBit => e ^^^ BitVec.ofNat 39 (syndrome e.toNat * 2 ^ 32)
  | .dataBit i => e ^^^ BitVec.ofNat 39 (2 ^ i)

/-- The line is poisoned and logged (R274). -/
def poisonLine (s : State) (a : Nat) : State :=
  countEvent { s with mem := { s.mem with poisoned := if s.mem.poisoned.contains a then s.mem.poisoned else s.mem.poisoned ++ [a], eccAddr := a } } 13 2 2
    0xFF 0xFF [a]

/-- A poisoned line has been written whole again. -/
def mended (s : State) (a : Nat) : State := dramWrite s a 16

/-- A line waits, poisoned, for the copy that the other twin has been asked for. -/
def awaitCopy (s : State) (a : Nat) (k : LineKind) (seq : Nat) : State :=
  send { s with mem := { s.mem with holders := s.mem.holders.filter (fun e => e.1 ≠ a) ++ [(a, k)] } } (.resend seq)

/-- What follows an uncorrectable line, by what it holds (R274): a version's line is fetched again from the twin's mirror or read back from
the vault log, else its blocks are lost; the Folio Map and the journal are at once what their records say. -/
def actOnLine (s : State) (a : Nat) : LineKind → State
  | .own seq block =>
    match s.cmd.versions.find? (fun v => v.own && v.seq == seq) with
    | none => s
    | some v =>
      if v.mirrored && s.spn.link == 2 && s.spn.paired then awaitCopy s a (.own seq block) seq
      else if v.vaulted then mended s a
      else { s with cmd := { s.cmd with lost := s.cmd.lost ++ [(v.nsid, v.lba + block)] } }
  | .mirror seq => awaitCopy s a (.mirror seq) seq
  | .folioMap => mended s a
  | .journal =>
    if s.spn.link = 2 then mended s a else vendorEvent { s with cmd := { s.cmd with prot := 2 } } 3
  | .queueContext c => setCtrl s c { ctrlAt s c with cfs := true }
  | .calibration opu layer => discLoad (setCal s opu layer {}) (opu / 2)
  | .mapCache | .other => s

/-- Regions of DRAM in the order of the table of R272 (that they lie in that order DEDUCED, log entry 203). -/
inductive Region where
  | control | dirty | contexts | calibration | general
deriving DecidableEq, Repr

/-- The region of a DRAM address: the control area from 0, the dirty area, the queue contexts, the calibration records, the rest (R272). -/
def regionOf (s : State) (a : Nat) : Region :=
  let c := controlBytes s
  let d := c + s.mem.window0 * 2 ^ 30
  if a < c then .control else if a < d then .dirty else if a < d + 2 ^ 23 then .contexts else if a < d + 2 ^ 23 + 2 ^ 17 then .calibration else .general

/-- What a line can hold where it lies: the Folio Map begins the control area (R272, R280). -/
def lineHolds (s : State) (a : Nat) (k : LineKind) : LineKind :=
  match k, regionOf s a with
  | .own _ _, .dirty | .mirror _, .dirty | .queueContext _, .contexts | .calibration _ _, .calibration => k
  | .folioMap, .control => if a < 2 ^ 26 then k else .other
  | .journal, .control => if a < 2 ^ 26 then .other else k
  | _, _ => .other

/-- A line of DRAM (R281): single-bit errors are corrected and counted, the line written back unless another write reached it. -/
def burnDram (s : State) (flips : List (BitVec 39)) (holds : LineKind) (overtaken : Bool) : State :=
  let a := 64 * s.mem.burnLine
  let es := (List.range 16).map (wordErr s flips a)
  if es.any (fun e => decideSyndrome (syndrome e.toNat) == .uncorrectable) then actOnLine (poisonLine s a) a (lineHolds s a holds)
  else
    let n := (es.filter (fun e => decideSyndrome (syndrome e.toNat) != .clean)).length
    if n = 0 then s
    else
      let s : State := bumpN (bumpN s 13 (a / 4096 % 2) n) 13 4 n
      if overtaken then s
      else
        let s : State := { s with mem := { s.mem with dram := (List.range 16).foldl (fun t j => put t 0 (a / 4 + j) (corrected (es.getD j 0))) s.mem.dram } }
        if s.mem.injArmed ∧ a = reg s .memInjAddr then
          let t := dramWrite s a 16
          { t with mem := { t.mem with dram := (List.range 16).foldl (fun d j =>
              put d 0 (a / 4 + j) (getD t.mem.dram 0 (a / 4 + j) ^^^ corrected (es.getD j 0))) t.mem.dram } }
        else s

/-- A line of the Map Cache (R278): a tag parity error drops its set; an uncorrectable word drops the line, or in the scratchpad is logged
as a fault of the firmware. -/
def burnCache (s : State) (flips : List (BitVec 39)) (tagParity : Bool) : State :=
  let k := (s.mem.burnLine - dramLines s) % 8192
  let way := (s.mem.burnLine - dramLines s) / 8192
  if tagParity then countEvent (cacheDropSet s k) 13 3 1
  else
    let ds := (List.range 16).map (fun j => decideSyndrome (syndrome (flips.getD j 0).toNat))
    if ds.contains .uncorrectable then
      if 16 - s.mem.lockWays ≤ way then countEvent s 13 2 2
      else { bump s 13 2 with mem := { s.mem with cache := put s.mem.cache [] k ((getD s.mem.cache [] k).filter (fun e => e.1 ≠ way)) } }
    else
      let n := (ds.filter (fun d => d != .clean)).length
      if n = 0 then s else bumpN s 13 4 n

/-- The Burnisher moves to the next line; laps are counted, saturating. -/
def nextLine (s : State) : State :=
  if s.mem.burnLine + 1 < dramLines s + cacheLines then { s with mem := { s.mem with burnLine := s.mem.burnLine + 1 } }
  else { s with mem := { s.mem with burnLine := 0, burnLaps := min 65535 (s.mem.burnLaps + 1) } }

/-- BURNISHER_LINE: one line is read, corrected and written back (R281). -/
def execBurnisherLine (flips : List (BitVec 39)) (tagParity : Bool) (holds : LineKind) (overtaken : Bool) (s : State) : Out :=
  if !burns s then .next s
  else .next (nextLine (if s.mem.burnLine < dramLines s then burnDram s flips holds overtaken else burnCache s flips tagParity))

/-! ### Injection and the lock (R275, R277) -/

/-- A write of MEM_INJ_CTL: refused while the vault dumps or replays. -/
def writeInjCtl (s : State) (v : Nat) : State :=
  if s.mem.dumping ∨ s.mem.replaying then s
  else
    let n := v / 65536 % 65536
    { setReg s .memInjCtl 0 (n * 65536) with
      mem := { s.mem with injArmed := v.testBit 0, injLeft := if v.testBit 0 then max n 1 else 0 } }

/-- FLIP_MASK_ARM: the host's write of MEM_INJ_CTL (R275). -/
def execFlipMaskArm (ctl : Word) (s : State) : Out := if barSealed s then .next s else .next (writeInjCtl s ctl.toNat)

/-- A write of MEM_MC_LOCK: the ways that change hold no tags afterwards (R277). More than 8 ways is out of range and ignored. -/
def writeMcLock (s : State) (v : Nat) : State :=
  let n := v / 2 ^ 28 % 16
  if 8 < n then s
  else
    let o := s.mem.lockWays
    let hit (w : Nat) : Bool := decide (16 - n ≤ w) != decide (16 - o ≤ w)
    let cache := s.mem.cache.filterMap (fun e => let l := e.2.filter (fun x => !hit x.1); if l = [] then none else some (e.1, l))
    { setReg s .memMcLock 0 v with mem := { s.mem with lockWays := n, cache := cache } }

/-- MAP_CACHE_LOCK: the host's write of MEM_MC_LOCK. -/
def execMapCacheLock (value : Word) (s : State) : Out := if barSealed s then .next s else .next (writeMcLock s value.toNat)

end Sys2Proof.Machine
end

