-- ==== Sys2Proof/Machine/Power.lean ====
section
/-! DEFINITION. The power window: caps, the throttle ladder, the thermal response and the voltage warnings (19_power_modes.md R380 to R383;
18_bindery.md R362). Powers in 0.1 W, temperatures in 0.25 °C. -/

namespace Sys2Proof.Machine

/-- The composite temperature: the hottest die sensor (R362). -/
def composite (temps : List Int) : Int := temps.foldl max (temps.headD 0)

/-- Sum of the effective power shares of the bays the twin runs, up to 58 W (R380); while it runs none, the reset value of PWR_EST.CAP. -/
def baseCap (s : State) : Nat :=
  let bs := (List.range 8).filter (runs s)
  if bs = [] then 580 else min 580 (bs.map (effShare s)).sum

/-- The twin cap in force (R380, R382): 30 W while hot, else reduced, not below 30 W. -/
def twinCap (s : State) : Nat :=
  let b := baseCap s
  if 2 ≤ s.pwr.therm then min b 300 else max (min b 300) (b - s.pwr.capCut)

/-- The cap's reduction moves by 2 W per second: 0.1 W in 50 windows (R382). -/
def moveCut (s : State) (t : Int) : State :=
  let thr : Int := 4 * (regBits s .pwrThermCfg 0 7 0 : Int)
  let n := s.pwr.capMs + 1
  if thr ≤ t then
    if n < 50 then { s with pwr := { s.pwr with capMs := n } } else { s with pwr := { s.pwr with capMs := 0, capCut := min 280 (s.pwr.capCut + 1) } }
  else if t < thr - 12 ∧ s.pwr.capCut ≠ 0 then
    if n < 50 then { s with pwr := { s.pwr with capMs := n } } else { s with pwr := { s.pwr with capMs := 0, capCut := s.pwr.capCut - 1 } }
  else { s with pwr := { s.pwr with capMs := 0 } }

/-- Thermal state of the twin: 2 from T_HOT, 1 from T_THROT or while the cap is reduced; a shutdown stands (R382). -/
def thermState (s : State) (t : Int) : Nat :=
  if s.pwr.therm = 3 then 3
  else if 4 * (regBits s .pwrThermCfg 0 15 8 : Int) ≤ t then 2
  else if 4 * (regBits s .pwrThermCfg 0 7 0 : Int) ≤ t ∨ s.pwr.capCut ≠ 0 then 1
  else 0

/-- The temperature acts on the cap; an entry into throttling is counted. -/
def thermalStep (s : State) (t : Int) : State :=
  let s := moveCut s t
  let n := thermState s t
  let s := if s.pwr.therm = 0 ∧ n ≠ 0 then countEvent s 2 4 1 else s
  { s with pwr := { s.pwr with therm := n } }

/-- Bays the twin runs, in reverse bay start order: the ladder's steps 8 to 11 and 12 to 15 take them in turn (R381). -/
def ladderBays (s : State) : List Nat := ((powerRec s).bays.filter (runs s)).reverse

/-- The flags of the ladder's step in force, and the speed of the bays whose rate rule changed. -/
def applyLadder (s : State) : State :=
  (List.range 8).foldl (fun s b =>
    let i := (ladderBays s).idxOf b
    let mine := runs s b
    let o := mine && decide (i < 4) && decide (8 + i ≤ s.pwr.throttle)
    let p := mine && decide (i < 4) && decide (12 + i ≤ s.pwr.throttle)
    let y := bayAt s b
    let t := setBay s b { y with opuThrottle := o, spinThrottle := p }
    if y.spinThrottle != p && mine then orderSpeed t b else t) s

/-- One window of the ladder (R381): THR_UP windows above the cap take a step, THR_DOWN windows below it less 2 W undo one. -/
def ladderStep (s : State) (est : Nat) : State :=
  let cap := twinCap s
  let s := if cap < est then bump s 2 3 else s
  let up := if cap < est then s.pwr.overRun + 1 else 0
  let down := if est + 20 < cap then s.pwr.underRun + 1 else 0
  let s := { s with pwr := { s.pwr with est := est, overRun := up, underRun := down, capUnmet := s.pwr.capUnmet && decide (cap < est) } }
  if regBits s .pwrModeCfg 0 31 24 ≤ up ∧ 0 < up then
    if s.pwr.throttle < 15 then bump { s with pwr := { s.pwr with throttle := s.pwr.throttle + 1, overRun := 0 } } 2 2
    else if s.pwr.capUnmet then s
    else event { s with pwr := { s.pwr with capUnmet := true } } 0 2 2
  else if regBits s .pwrModeCfg 0 23 16 ≤ down ∧ 0 < down ∧ 0 < s.pwr.throttle then
    { s with pwr := { s.pwr with throttle := s.pwr.throttle - 1, underRun := 0 } }
  else s

/-- Nominal voltage of monitor `i` in mV (R362). -/
def nominal (i : Nat) : Nat := [750, 750, 750, 750, 750, 800, 800, 850, 1200, 1100, 1100, 1800].getD i 0

/-- A mean lies outside a percentage of nominal. -/
def outsidePct (i v p : Nat) : Bool := decide (p * nominal i < 100 * ((v : Int) - nominal i).natAbs)

/-- Voltage warnings: one per excursion beyond ±3 % (R362). -/
def voltWarnings (s : State) (volts : List Nat) : State :=
  (List.range 12).foldl (fun s i =>
    let bad := outsidePct i (volts.getD i (nominal i)) 3
    let old := s.bdy.warned.contains i
    if bad && !old then
      event { s with bdy := { s.bdy with warned := s.bdy.warned ++ [i] } } (0x300 + i) 0 1 0xFF 0xFF [volts.getD i 0]
    else if !bad && old then { s with bdy := { s.bdy with warned := s.bdy.warned.filter (fun k => k ≠ i) } }
    else s) s

/-- POWER_WINDOW: 250 stitches have passed: sensors' means, thermal response, estimate and ladder. A twin held by a thermal shutdown is let
go below T_THROT (R382). -/
def execPowerWindow (est : Half) (temps : List Int) (volts : List Nat) (ppm : Int) (refs : BitVec 2) (s : State) : Out :=
  let t := composite temps
  let before := s
  let s := { s with bdy := { s.bdy with temps := temps, volts := volts, ppm := ppm, refs := refs } }
  match s.pwr.phase with
  | .thermal =>
    if t < 4 * (regBits s .pwrThermCfg 0 7 0 : Int) then .next { s with pwr := { s.pwr with phase := .warm, thermTrip := false, therm := 0 } } else .next s
  | .starting | .running => .next (withSmart before (applyLadder (ladderStep (thermalStep (voltWarnings s volts) t) est.toNat)))
  | _ => .next s

/-- THERMAL_SHUTDOWN: 105 °C for 1 ms: the dump runs as on power failure, one dump for both causes (R382, R383). -/
def execThermalShutdown (s : State) : Out :=
  if !(s.pwr.phase == .starting || s.pwr.phase == .running) || decide (composite s.bdy.temps < 420) || s.pwr.therm == 3 then .next s
  else
    let s := countEvent { s with pwr := { s.pwr with therm := 3 } } 2 5 3
    if s.mem.dumping then .next s
    else if s.mem.replaying then .next (let w := warmed s .thermal 5; { w with pwr := { w.pwr with thermTrip := true } })
    else .next (beginDump s)

/-- THERMAL_TRIP: the analogue sensor at 115 °C: THERM_TRIP_N low, warm reset without a dump (R382). -/
def execThermalTrip (s : State) : Out :=
  let w := warmed s .tripped 6
  .next { w with pwr := { w.pwr with thermTrip := true } }

end Sys2Proof.Machine
end

