-- ==== Sys2Proof/Machine/Keys.lean ====
section
/-! DEFINITION. The mailbox's frame, keys and slots, the life-cycle, voted words, the entropy source (17_security.md R330 to R343; 18_bindery.md
R358, R364 to R366; 12_host_interface.md R248). -/

namespace Sys2Proof.Machine

/-! ### The mailbox (R364) -/

/-- A mailbox header with its CRC over the first 12 bytes and the body. -/
def mailFrame (type status tag : Nat) (body : Bytes) : Bytes :=
  let h := natLe 2 type ++ natLe 2 status ++ natLe 4 tag ++ natLe 4 body.length
  h ++ natLe 4 (crc32c (h ++ body)).toNat ++ body

/-- A response takes the mailbox: the message is no longer in hand. -/
def respond (s : State) (type : Nat) (tag : Word) (status : Nat) : State :=
  let r := mailFrame type status tag.toNat []
  { s with bdy := { s.bdy with
      mboxBusy := false, mboxReady := true, mboxLen := r.length, mboxRsp := winWrite [] 0 r, mboxMsg := none } }

/-- Header fields of a message: type, tag, body. -/
def mailParts (m : Bytes) : Nat × Nat × Bytes := (field m 0 2, field m 4 4, (m.drop 16).take (field m 8 4))

/-- A well-formed message: bytes 2 and 3 zero, its length within the bytes posted, its CRC. -/
def mailOk (m : Bytes) : Bool :=
  let p := mailParts m
  decide (16 ≤ m.length) && field m 2 2 == 0 && decide (16 + field m 8 4 ≤ m.length) && field m 12 4 == (crc32c (m.take 12 ++ p.2.2)).toNat

/-- Take a message in hand: malformed ones and unknown types are answered at once, with status 1 and 5. -/
def takeMail (s : State) (m : Bytes) : State :=
  let p := mailParts m
  let s := bump { s with bdy := { s.bdy with mboxReady := false, mboxRefused := false } } 0 4
  if !mailOk m then respond s p.1 (BitVec.ofNat 32 p.2.1) 1
  else if p.1 = 0 ∨ 6 < p.1 then respond s p.1 (BitVec.ofNat 32 p.2.1) 5
  else { s with bdy := { s.bdy with mboxBusy := true, mboxMsg := some p } }

/-- Post a message through the registers: BDY_MBOX_CTL.POST; a post while one is in hand is refused. -/
def postMail (s : State) (m : Bytes) : State :=
  if s.bdy.mboxBusy then bump { s with bdy := { s.bdy with mboxRefused := true } } 0 5 else takeMail s m

/-- The message in hand is this one. -/
def inHand (s : State) (type : Nat) (tag : Word) (body : Bytes) : Bool := s.bdy.mboxMsg == some (type, tag.toNat, body)

/-- The response as bytes. -/
def mailResponse (s : State) : Bytes := winBytes s.bdy.mboxRsp 0 s.bdy.mboxLen

/-- MAILBOX_FETCH: opcode 0xC0 with CDW11 bit 0 set: the response goes to the host. What a fetch with none waiting completes with is not
stated: busy while a message is in hand, else a free status (log entry 3). -/
def execMailboxFetch (r : CmdRef) (length : Half) (s : State) : Out :=
  if length.toNat % 4 ≠ 0 ∨ 4096 < length.toNat then .next (complete s r .invalidField)
  else if s.bdy.mboxReady then
    let s := complete s r .success 0 ((mailResponse s).take length.toNat)
    .next { s with bdy := { s.bdy with mboxReady := s.bdy.mboxReady && decide (length.toNat < s.bdy.mboxLen) } }
  else if s.bdy.mboxBusy then .next (complete s r (.vendor 4))
  else .next (complete (drawn s) r (if (freeValue s).toNat % 2 = 0 then .success else .commandSequence))

/-- MAILBOX_RESPONSE_READ: the last word of the response is read from BDY_MBOX_RSP, which ends it; as any read of BAR2 it releases a latched
high word (R5, R364). -/
def execMailboxResponseRead (s : State) : Out :=
  .next { s with
    splitLatch := none, hostRead := BitVec.ofNat 64 (leNat (winBytes s.bdy.mboxRsp ((s.bdy.mboxLen - 1) / 4 * 4) 4))
    bdy := { s.bdy with mboxReady := false } }

/-! ### Key slots (R334 to R337) -/

/-- Tell the twin the key check value of a slot. -/
def sendKcv (s : State) (n : Nat) : State := send s (.kcv n (slotAt s n).kcv)

/-- KCV_MATCH: the twin reports a slot's key check value: a PENDING slot with the same one becomes ACTIVE, and reports back (R334). -/
def execKcvMatch (slot : Fin 2048) (kcv : Word) (s : State) : Out :=
  let k := slotAt s slot
  if k.st = 1 ∧ k.kcv = kcv then .next (sendKcv (setSlot s slot { k with st := 2 }) slot) else .next s

/-- The 64-byte slot record of the key area in NOR (R336): slot, purpose, state, KCV, wrapped key, NSID, zeros, CRC-32C. -/
def slotRecordBytes (s : State) (r : SlotRecord) : Bytes :=
  let b := natLe 2 r.slot.val ++ [if r.slot.val = 0 then 1 else 0, if r.active then 2 else 1] ++ natLe 4 r.kcv.toNat ++
    fit 40 (Config.wrapStore (lifeCycle s) r.key) ++ natLe 4 r.nsid.toNat ++ zeros 8
  b ++ natLe 4 (crc32c b).toNat

/-- Format of an import blob (R335). -/
def blobOk (b : Bytes) : Bool :=
  b.length == 152 && b.take 4 == [0x53, 0x4B, 0x4B, 0x57] && decide (field b 4 2 < 2048) && field b 7 1 == 0 && field b 0x69 3 == 0 &&
  field b 6 1 == (if field b 4 2 = 0 then 1 else 0)

/-- Result of an import (KST_STATUS.RESULT): where several causes hold, the first of this order shows. -/
def importResult (s : State) (b : Bytes) : Nat :=
  if !(lifeCycle s == 1 || lifeCycle s == 2) then 5
  else if !blobOk b then 1
  else if (slotAt s (field b 4 2)).st ≠ 0 then 4
  else match Config.unwrapKey (lifeCycle s) b with
    | none => 2
    | some k => if (Config.kcv k).toNat = field b 0x94 4 then 0 else 3

/-- Import the blob in the window: the slot becomes PENDING, its record is written, the twin is told; the window is wiped (R334 to R336). -/
def importKey (s : State) : State :=
  let b := winBytes s.kst.importWin 0 152
  let res := importResult s b
  let n := field b 4 2
  let s' : State := { s with kst := { s.kst with importWin := [], result := res } }
  if res ≠ 0 then countEvent s' 12 1 1 0xFF 0xFF [n, res]
  else
    let key := (Config.unwrapKey (lifeCycle s) b).getD 0
    let r : SlotRecord := { slot := Fin.ofNat 2048 n, active := false, kcv := Config.kcv key, key := key, nsid := 0, write := false }
    let s' := { s' with kst := { s'.kst with nor := s'.kst.nor.filter (fun x => x.slot.val ≠ n) ++ [r] } }
    sendKcv (bump (setSlot s' n { st := 1, kcv := Config.kcv key, key := key }) 12 0) n

/-- KEY_IMPORT: KST_CTL.IMPORT. -/
def execKeyImport (s : State) : Out := if barSealed s then .next s else .next (importKey s)

/-- MAILBOX_KEY_IMPORT: the blob of the message in hand goes to the window and is imported (R335, R364). -/
def execMailboxKeyImport (tag : Word) (blob : Bytes) (s : State) : Out :=
  if !inHand s 2 tag blob then .next s
  else if blob.length ≠ 152 then .next (respond s 2 tag 1)
  else
    let s := importKey { s with kst := { s.kst with importWin := winWrite [] 0 blob } }
    .next (respond s 2 tag (if s.kst.result = 0 then 0 else if s.kst.result = 1 then 1 else 3))

/-- Empty an unbound slot; result 5 for a bound one (R337). -/
def clearSlot (s : State) (n : Nat) : State :=
  if (slotAt s n).nsid ≠ 0 then { s with kst := { s.kst with result := 5 } }
  else
    let s := { s with kst := { s.kst with nor := s.kst.nor.filter (fun x => x.slot.val ≠ n), result := 0 } }
    setSlot s n {}

/-- KEY_SLOT_CLEAR: KST_CTL.CLEAR. -/
def execKeySlotClear (slot : Fin 2048) (s : State) : Out := if barSealed s then .next s else .next (clearSlot s slot)

/-- NEW_WRITE_SLOT: a namespace gets a new write slot; the old one stays bound for reading (R337). -/
def execNewWriteSlot (tag : Word) (nsid : Word) (slot : Half) (s : State) : Out :=
  if !inHand s 4 tag (natLe 4 nsid.toNat ++ natLe 2 slot.toNat) then .next s
  else match nsAt s nsid.toNat with
    | none => .next (respond s 4 tag 3)
    | some n =>
      if 2048 ≤ slot.toNat then .next (respond s 4 tag 1)
      else if !slotFree s slot.toNat || !nsCreateAllowed s then .next (respond s 4 tag 3)
      else
        let s := setSlot s n.writeSlot { slotAt s n.writeSlot with write := false }
        let s := setSlot s slot.toNat { slotAt s slot.toNat with nsid := nsid.toNat, write := true }
        let s := { s with hiu := { s.hiu with ns := ins s.hiu.ns nsid.toNat { n with writeSlot := slot.toNat, readSlots := n.readSlots ++ [slot.toNat] } } }
        .next (respond s 4 tag 0)

/-! ### Life-cycle (R338, R339, R365) -/

/-- Draw the nonce of KST_LC_NONCE: fresh at each read. -/
def drawNonce (s : State) : State :=
  let n := Config.freshNonce s.free
  { drawn s with hostRead := n, kst := { s.kst with nonce := some n } }

/-- LC_NONCE_READ: a read of BAR2 of the register's own width, so a latched high word is released (R5, R339). -/
def execLcNonceRead (s : State) : Out := .next (drawNonce { s with splitLatch := none })

/-- The pair and the store stand as a transition needs them (R339). -/
def transitionReady (s : State) : Bool :=
  s.qre.vol == 0 && dirtyBytes s == 0 && s.qre.ingest.isEmpty && journalQuires s == 0 && s.qre.amends.isEmpty && readHold s 0xFF

/-- A transition body is well formed (R365). -/
def transitionFormat (b : Bytes) : Bool :=
  b.length == 276 && decide (field b 1 1 ≤ 1) && field b 2 6 == 0 && field b 0xB1 3 == 0 &&
  (if field b 0 1 = 1 then field b 0x50 97 == 0 && field b 0xB4 96 == 0 else field b 0x20 48 == 0)

/-- The request is authorised (R339, R365): no signature into Provisioned; the owner key; the Lanvowald key too for Retired. -/
def transitionSigned (s : State) (b : Bytes) : Bool :=
  let pub := (b.drop 0x50).take 97
  let hash := Config.sha384 pub
  field b 0 1 == 1 ||
    ((if field b 1 1 = 0 then hash == s.kst.ownerHash else field b 0 1 == 4 && hash == Config.lanvowaldKeyHash) &&
      Config.sigRequest pub (Config.sha384 (b.take 0xB4)) (b.drop 0xB4))

/-- A firmware update is in progress: an image is staged or being written (R366). -/
def updating (s : State) : Bool := s.bdy.staging.isSome || s.bdy.commitBusy

/-- Mailbox status of a transition request: format, busy with an update, one state forward, serial and nonce, signature, state of the pair
(R339, R364 to R366). -/
def transitionStatus (s : State) (b : Bytes) : Nat :=
  if !transitionFormat b then 1
  else if updating s then 4
  else if field b 0 1 ≠ lifeCycle s + 1 ∨ field b 0x10 16 ≠ s.bdy.serial.toNat ∨ s.kst.nonce ≠ some (BitVec.ofNat 64 (field b 8 8)) ∨
      s.kst.transition.isSome then 3
  else if !transitionSigned s b then 2
  else if !(s.spn.paired && s.spn.link == 2) || !transitionReady s then 3
  else 0

/-- A transition is pending on this twin for a commit stitch. -/
def armTransition (s : State) (b : Bytes) (commit : Nat) : State :=
  { s with kst := { s.kst with transition := some (field b 0 1, commit), requests := s.kst.requests ++ [b], nonce := none } }

/-- LIFECYCLE_TRANSITION: the request in hand is accepted for a stitch 256 ahead on both twins, or refused (R339). -/
def execLifecycleTransition (tag : Word) (body : Bytes) (s : State) : Out :=
  if !inHand s 1 tag body then .next s
  else
    let st := transitionStatus s body
    if st ≠ 0 then .next (respond s 1 tag st)
    else
      let k := now s + 256
      .next (respond (send (armTransition s body k) (.mgmt (.transition body (BitVec.ofNat 64 k)))) 1 tag 0)

/-- The steps of a transition into a state (R339, R342): the state is blown, everything but the Colophon and the event log is wiped, every
namespace goes, the vault is crypto-erased, and the twin resets; its cause bits show none. -/
def transit (s : State) (target : Nat) : State :=
  let body := (s.kst.requests.getLast?).getD []
  let s := writePages (event (bump s 12 3) (0x400 + target) 12 0)
  let w := warmed s .warm 0
  let hash := if target = 1 then BitVec.ofNat 384 (field body 0x20 48) else s.kst.ownerHash
  { w with
    pwr := { w.pwr with resetCause := s.pwr.resetCause }
    qre := {}, cmd := {}, hiu := { comps := w.hiu.comps, irqs := w.hiu.irqs }
    kst := { w.kst with slots := [], nor := [], lc := blow w.kst.lc target, ownerHash := hash }
    cph := { drbg := 2, retired := w.cph.retired }
    mem := { erased := s.mem.erased, epoch := s.mem.epoch + 1, imageSeq := s.mem.imageSeq } }

/-- LIFECYCLE_COMMIT: at the commit stitch and at no other, unless a dump has dropped the transition (R339, R343). -/
def execLifecycleCommit (s : State) : Out :=
  match s.kst.transition with
  | none => .next s
  | some (t, k) => if now s = k then .next (transit s t) else .next s

/-- MAILBOX_POST: opcode 0xC0: a message arrives; a second one is refused with 0x7_04. A transition request is refused with 0x7_01 where the
pair is not Paired, and with 0x7_03 where a volume, dirty data, the journal or a bay stands against it (R248, R339, R364). -/
def execMailboxPost (r : CmdRef) (msg : Bytes) (s : State) : Out :=
  if msg.length % 4 ≠ 0 ∨ 4096 < msg.length then .next (complete s r .invalidField)
  else if s.bdy.mboxBusy then .next (complete (bump s 0 5) r (.vendor 4))
  else
    let t := takeMail s msg
    if mailOk msg ∧ (mailParts msg).1 = 1 ∧ !(s.spn.paired && s.spn.link == 2) then
      .next (complete (respond t 1 (BitVec.ofNat 32 (mailParts msg).2.1) 3) r (.vendor 1))
    else if mailOk msg ∧ (mailParts msg).1 = 1 ∧ !transitionReady s then
      .next (complete (respond t 1 (BitVec.ofNat 32 (mailParts msg).2.1) 3) r (.vendor 3))
    else .next (complete t r .success)

/-! ### Voted words (R340, R341) -/

/-- LOWER_VOTED_LIMIT: fuses of the spindle or laser limit are blown, in Provisioned and Sealed (R340). -/
def execLowerVotedLimit (tag : Word) (which fuses : Byte) (s : State) : Out :=
  if !inHand s 3 tag [which, fuses] then .next s
  else if 1 < which.toNat ∨ fuses.toNat = 0 ∨ 15 < fuses.toNat then .next (respond s 3 tag 1)
  else if !(lifeCycle s == 1 || lifeCycle s == 2) then .next (respond s 3 tag 3)
  else if which = 0 then
    let s := { s with kst := { s.kst with spindle := blow s.kst.spindle (min 75 (votedFuses s.kst.spindle + fuses.toNat)) } }
    .next (respond s 3 tag 0)
  else
    let s := { s with kst := { s.kst with laser := blow s.kst.laser (min 15 (votedFuses s.kst.laser + fuses.toNat)) } }
    .next (respond s 3 tag 0)

/-- Store a voted word by its number. -/
def setVoted (s : State) (word : Nat) (v : Voted) : State :=
  match word with
  | 0 => { s with kst := { s.kst with lc := v } }
  | 1 => { s with kst := { s.kst with bndFloor := v } }
  | 2 => { s with kst := { s.kst with fwFloor := v } }
  | 3 => { s with kst := { s.kst with spindle := v } }
  | _ => { s with kst := { s.kst with laser := v } }

/-- VOTED_WORD_MISMATCH: two copies that agree restore the odd one; with all three different the most restrictive counts, every bay run is
stopped and every controller shows CFS (R341). -/
def execVotedWordMismatch (word : Fin 5) (a b c : Nat) (s : State) : Out :=
  if a = b ∧ b = c then .next s
  else if a = b ∨ a = c ∨ b = c then
    let m := votedFuses { a := a, b := b, c := c }
    .next (countEvent (setVoted s word { a := m, b := m, c := m }) 12 2 2 0xFF 0xFF [word, a, b, c])
  else
    let s := event (setVoted s word { a := a, b := b, c := c }) 0 12 3 0xFF 0xFF [word, a, b, c]
    let s := { s with kst := { s.kst with votedFault := true } }
    let s := (List.range 8).foldl (fun s k => if runs s k then stopBay s k false else s) s
    .next ((controllers s).foldl (fun s n => setCtrl s n { ctrlAt s n with cfs := true }) s)

/-! ### The entropy source (R330) -/

/-- DRBG_RESEED: after 2^16 generate calls, or 1 s. -/
def execDrbgReseed (s : State) : Out :=
  if s.cph.drbg ≠ 0 then .next s else .next (bump { s with cph := { s.cph with drbgAt := now s } } 11 6)

/-- ENTROPY_HEALTH_FAIL: a health test fails: cipher work stops after the current blocks; a dump goes on, its vault key unmasked, which is logged
(R330, R343). -/
def execEntropyHealthFail (s : State) : Out :=
  if s.cph.drbg = 1 then .next s
  else
    let s := countEvent { s with cph := { s.cph with drbg := 1 } } 11 7 2
    .next (if s.mem.dumping then event s 0 12 1 else s)

/-- ENTROPY_RECOVER: the source has passed 1,024 consecutive samples. -/
def execEntropyRecover (s : State) : Out :=
  if s.cph.drbg = 1 then .next { s with cph := { s.cph with drbg := 0 } } else .next s

end Sys2Proof.Machine
end

