-- ==== Sys2Proof/Machine/Bindery.lean ====
section
/-! DEFINITION. Firmware images and activation, the Colophon read, the Endsheet's owner section, the lockstep pair, the bay release and the
SMBus endpoint (18_bindery.md R345, R346, R350, R355 to R361, R364, R366; 13_command_ordering.md R269). -/

namespace Sys2Proof.Machine

/-! ### Images (R350, R359) -/

/-- The staged bytes as an image; one whose reserved fields are not zero, or whose body is cut short, has no valid header. -/
def parseImage (b : Bytes) : FwImage :=
  let n := field b 0x0C 4
  let clean := field b 5 1 / 2 == 0 && field b 0x18 40 == 0 && field b 0x70 48 == 0
  { kind := BitVec.ofNat 8 (field b 4 1), raiseFloor := field b 5 1 % 2 == 1, spineVersion := BitVec.ofNat 16 (field b 6 2)
    secVersion := field b 8 4, revision := (b.drop 0x10).take 8, body := (b.drop 256).take n
    digest := BitVec.ofNat 384 (field b 0x40 48), signature := BitVec.ofNat 768 (field b 0xA0 96)
    magicOk := b.take 4 == [0x53, 0x4B, 0x46, 0x57] && clean && decide (256 + n ≤ b.length) }

/-- An image fits the slot of its kind (R348). -/
def fwFits (i : FwImage) : Bool := decide (256 + i.body.length ≤ (if i.kind = 1 then Config.bootSlotBytes else Config.fwSlotBytes))

/-- The slot from which an image of a kind runs. -/
def runningSlot (s : State) (kind : Byte) : Nat := if kind = 1 then s.bdy.bootedLoader else s.bdy.booted

/-- The image of a kind in a slot. -/
def slotImage (s : State) (kind : Byte) (slot : Nat) : Option FwImage := look (if kind = 1 then s.bdy.bootSlots else s.bdy.fwSlots) slot

/-- A slot holds a valid image. -/
def slotValid (s : State) (slot : Nat) : Bool :=
  (look s.bdy.bootSlots slot).any (fun i => fwValid s i && i.kind == 1) || (look s.bdy.fwSlots slot).any (fun i => fwValid s i && i.kind == 2)

/-- Write an image to a slot; the staging buffer is free again. -/
def writeSlot (s : State) (i : FwImage) (slot : Nat) : State :=
  let b := { s.bdy with staging := none, stagingMi := false }
  if i.kind = 1 then { s with bdy := { b with bootSlots := ins b.bootSlots slot i } } else { s with bdy := { b with fwSlots := ins b.fwSlots slot i } }

/-- Make a slot pending for the next reset, with three attempts (R349, R351). -/
def makePending (s : State) (slot : Nat) : State := fileDirectory { s with bdy := { s.bdy with pendingSlot := slot, attempts := 3 } }

/-- Bytes of the staging buffer after a chunk at a byte offset. -/
def stageAt (old : Bytes) (offset : Nat) (data : Bytes) : Bytes := fit offset old ++ data ++ old.drop (offset + data.length)

/-- The staging buffer is in use: by the other path, or by an activation (R359). -/
def stagingBusy (s : State) (mi : Bool) : Bool := s.bdy.commitBusy || s.bdy.staging.isSome && s.bdy.stagingMi != mi

/-- A chunk of an image enters the staging buffer. -/
def stageChunk (s : State) (mi : Bool) (offset : Nat) (data : Bytes) : State :=
  { s with bdy := { s.bdy with staging := some (stageAt (s.bdy.staging.getD []) offset data), stagingMi := mi } }

/-- FIRMWARE_IMAGE_DOWNLOAD: dword offsets, up to the slot's capacity (R359). -/
def execFirmwareImageDownload (r : CmdRef) (offset : Word) (data : Bytes) (s : State) : Out :=
  if lifeRetired s then .next (complete s r .commandSequence)
  else if data.length % 4 ≠ 0 ∨ Config.fwSlotBytes < 4 * offset.toNat + data.length then .next (complete s r .invalidField)
  else if stagingBusy s false then .next (complete s r (.vendor 4))
  else .next (complete (stageChunk s false (4 * offset.toNat) data) r .success)

/-- What stands against writing the staged image to a slot; none where it may be written. -/
def commitFault (s : State) (mi : Bool) (slot : Nat) : Option Status :=
  if lifeRetired s then some .commandSequence
  else if stagingBusy s mi then some (.vendor 4)
  else if slot ≠ 1 ∧ slot ≠ 2 then some .invalidFwSlot
  else match s.bdy.staging with
    | none => some .invalidFwImage
    | some b =>
      let i := parseImage b
      if !fwValid s i || !fwFits i then some .invalidFwImage
      else if runningSlot s i.kind = slot then some .invalidFwSlot
      else none

/-- The staged image. -/
def stagedImage (s : State) : FwImage := parseImage (s.bdy.staging.getD [])

/-- FW_COMMIT_REPLACE: action 0: validate the staged image and write it to the slot. -/
def execFwCommitReplace (r : CmdRef) (slot : BitVec 3) (s : State) : Out :=
  match commitFault s false slot.toNat with
  | some st => .next (complete s r st)
  | none => .next (complete (writeSlot s (stagedImage s) slot.toNat) r .success)

/-- FW_COMMIT_REPLACE_PENDING: action 1: as 0, and the slot is pending for the next reset. -/
def execFwCommitReplacePending (r : CmdRef) (slot : BitVec 3) (s : State) : Out :=
  match commitFault s false slot.toNat with
  | some st => .next (complete s r st)
  | none => .next (complete (makePending (writeSlot s (stagedImage s) slot.toNat) slot.toNat) r .success)

/-- FW_COMMIT_PENDING: action 2: a slot that holds a valid image becomes pending. -/
def execFwCommitPending (r : CmdRef) (slot : BitVec 3) (s : State) : Out :=
  if lifeRetired s then .next (complete s r .commandSequence)
  else if stagingBusy s false then .next (complete s r (.vendor 4))
  else if slot ≠ 1 ∧ slot ≠ 2 then .next (complete s r .invalidFwSlot)
  else if !slotValid s slot.toNat then .next (complete s r .invalidFwImage)
  else .next (complete (makePending s slot.toNat) r .success)

/-! ### Activation without reset (R269, R360, R361) -/

/-- A resynchronisation or a hand-back runs on either twin. A takeover is one step of this model. -/
def pairMoves (s : State) : Bool :=
  (List.range 8).any (fun b => (pairAt s b).resync != 0 || (pairAt s b).handover != 0) ||
    s.spn.peer.any (fun h => h.capture != 0 || h.hStitch != 0)

/-- Activation of an image is prohibited (R360); a boot loader is never activated without reset (R359). -/
def prohibited (s : State) (i : FwImage) : Bool :=
  s.mem.dumping || s.mem.replaying || s.bnd.structural.isSome || s.bnd.trim.isSome || s.kst.transition.isSome || pairMoves s ||
    i.spineVersion != s.bdy.running_.spineVersion || i.kind == 1

/-- Fetch stops for the activation of a slot. -/
def pauseFetch (s : State) (slot : Nat) : State :=
  { s with pwr := { s.pwr with activating := slot }, cmd := { s.cmd with fetchPaused := true, pausedAt := now s }, bdy := { s.bdy with commitBusy := true } }

/-- What stands against an activation, and the image it would start: the staged one, else the slot's. -/
def activateFault (s : State) (mi : Bool) (slot : Nat) : Option Status :=
  if lifeRetired s then some .commandSequence
  else if s.bdy.staging.isSome then
    match commitFault s mi slot with
    | some st => some st
    | none => if prohibited s (stagedImage s) then some .fwProhibited else none
  else if s.bdy.commitBusy then some (.vendor 4)
  else if slot ≠ 1 ∧ slot ≠ 2 ∨ slot = s.bdy.booted then some .invalidFwSlot
  else match slotImage s 2 slot with
    | none => some .invalidFwImage
    | some i => if !fwValid s i then some .invalidFwImage else if prohibited s i then some .fwProhibited else none

/-- The activation begins: a staged image is written first. -/
def beginActivation (s : State) (slot : Nat) : State :=
  pauseFetch (if s.bdy.staging.isSome then writeSlot s (stagedImage s) slot else s) slot

/-- FW_COMMIT_ACTIVATE: action 3. -/
def execFwCommitActivate (r : CmdRef) (slot : BitVec 3) (s : State) : Out :=
  match activateFault s false slot.toNat with
  | some st => .next (complete s r st)
  | none => .next (complete (beginActivation s slot.toNat) r .success)

/-- FETCH_PAUSE_HANDOFF: 100 ms after fetch stopped, or once every admitted command has completed, the new image takes the command contexts;
its record is written within the pause (R269, R353). -/
def execFetchPauseHandoff (s : State) : Out :=
  let k := s.pwr.activating
  if !s.cmd.fetchPaused || k == 0 || s.bdy.booted == k || decide (now s < s.cmd.pausedAt + 25000) && s.hiu.cmds.any (fun c => c.st != .fetched) then .next s
  else .next (writeColophon { s with bdy := { s.bdy with booted := k, running_ := (look s.bdy.fwSlots k).getD {} } } 1)

/-- ACTIVATION_FETCH_RESUME: within 200 ms of the stop the new image resumes fetch; the directory names its slot as running. -/
def execActivationFetchResume (s : State) : Out :=
  let k := s.pwr.activating
  if !s.cmd.fetchPaused || k == 0 || s.bdy.booted != k || decide (s.cmd.pausedAt + 50000 < now s) then .next s
  else
    let s := countEvent s 0 1 0
    .next <| fileDirectory { s with
      pwr := { s.pwr with activating := 0 }, cmd := { s.cmd with fetchPaused := false }
      bdy := { s.bdy with running := k, commitBusy := false, pendingSlot := if s.bdy.pendingSlot = k then 0 else s.bdy.pendingSlot } }

/-- ACTIVATION_TIMEOUT: fetch has not resumed 200 ms after it stopped: warm reset into the previous slot, which the directory still names
(R361). -/
def execActivationTimeout (s : State) : Out :=
  let k := s.pwr.activating
  if !s.cmd.fetchPaused || k == 0 || decide (now s < s.cmd.pausedAt + 50000) then .next s
  else
    let w := warmed s .warm 3
    .next (countEvent (fileDirectory { w with bdy := { w.bdy with pendingSlot := if w.bdy.pendingSlot = k then 0 else w.bdy.pendingSlot } }) 0 2 2)

/-! ### Colophon and Endsheet (R355, R358) -/

/-- COLOPHON_READ: `count` records of 1,024 bytes, newest first, from the `first`-th on; zeros beyond those held. -/
def execColophonRead (r : CmdRef) (first count : Word) (s : State) : Out :=
  let held := ((heldRecords s).reverse.drop first.toNat).take count.toNat
  .next (complete s r .success 0 (held.flatMap colBytes ++ zeros (1024 * (count.toNat - held.length))))

/-- Magic of an Endsheet owner section, "SKES". -/
def sheetMagic : Bytes := [0x53, 0x4B, 0x45, 0x53]

/-- The overrides of an owner section. -/
def sheetOverrides (bs : Bytes) : List Override :=
  (recordsOf 16 (sectionOf bs 0x20)).map (fun x =>
    { offset := field x 0 4, mask := BitVec.ofNat 32 (field x 4 4), value := BitVec.ofNat 32 (field x 8 4) })

/-- An owner section in the layout of R26: types 0x20 and 0x21, each at most once; every override whole and its last word zero. -/
def sheetFormat (bs : Bytes) : Bool :=
  let n := sectionCount bs
  let types : List Nat := (directory bs).map (·.type)
  !isTrim bs && decide (1 ≤ n) && formatOk sheetMagic (n, 0) bs && types.all (fun t => t == 0x20 || t == 0x21) && decide types.Nodup &&
    (sectionOf bs 0x20).length % 16 == 0 && (recordsOf 16 (sectionOf bs 0x20)).all (fun x => field x 12 4 == 0)

/-- Status of a complete owner section: format, or signature and digest. -/
def sheetStatus (s : State) (bs : Bytes) : Nat :=
  if !sheetFormat bs then 1 else if bodyDigest bs ≠ digestField bs ∨ !signatureOk s bs then 2 else 0

/-- The owner section as a copy of the Endsheet; the device section's features are carried over. -/
def sheetOf (s : State) (bs : Bytes) : Endsheet :=
  { overrides := sheetOverrides bs, binding := if (sectionOf bs 0x21).isEmpty then none else some (sectionOf bs 0x21)
    features := (sheet s).features, ownerDigest := digestField bs, raw := bs }

/-- Write the inactive copy and make it active through the directory; its values take effect at the next reset (R349, R353, R358). -/
def writeSheet (s : State) (bs : Bytes) : State :=
  let k := 1 - s.bdy.sheetActive
  writeColophon (fileDirectory { s with bdy := { s.bdy with sheets := ins s.bdy.sheets k (sheetOf s bs), sheetActive := k, sheetRx := [] } }) 4

/-- The message in hand is this chunk of an owner section. -/
def sheetInHand (s : State) (tag offset : Word) (last : Bool) (data : Bytes) : Bool :=
  match s.bdy.mboxMsg with
  | some (5, t, b) => t == tag.toNat && field b 0 4 == offset.toNat && (field b 4 4 % 2 == 1) == last && b.drop 8 == data && decide (8 ≤ b.length)
  | _ => false

/-- ENDSHEET_OWNER_SECTION: a chunk arrives through the mailbox; the last one closes the section (R358, R364). -/
def execEndsheetOwnerSection (tag : Word) (offset : Word) (last : Bool) (data : Bytes) (s : State) : Out :=
  if !sheetInHand s tag offset last data then .next s
  else if lifeRetired s then .next (respond s 5 tag 3)
  else if 262144 < offset.toNat + data.length then .next (respond s 5 tag 1)
  else
    let rx := stageAt (if offset = 0 then [] else s.bdy.sheetRx) offset.toNat data
    if !last then .next (respond { s with bdy := { s.bdy with sheetRx := rx } } 5 tag 0)
    else
      let st := sheetStatus s rx
      .next (respond (if st = 0 then writeSheet s rx else { s with bdy := { s.bdy with sheetRx := [] } }) 5 tag st)

/-! ### Lockstep and bay release (R345, R346) -/

/-- LOCKSTEP_MISMATCH: both cores halt, ALIVE_OUT is held low, the twin falls silent from the next stitch; the warm reset comes 64 stitches
later. -/
def execLockstepMismatch (s : State) : Out :=
  if s.bdy.halted || !alive s then .next s
  else .next { s with
    bdy := { s.bdy with halted := true }, tck := { s.tck with aliveOn := false, aliveOut := false }
    spn := { s.spn with silent := true, haltAt := now s + 64 } }

/-- BAY_RELEASE: a voltage monitor or SYS_REF has been outside its window for 16 stitches: the bays the twin runs and the keepalives it sends
fall silent; heartbeat, data role and ALIVE_OUT stay. -/
def execBayRelease (s : State) : Out :=
  if s.bdy.released || !alive s then .next s
  else .next (countEvent { s with bdy := { s.bdy with released := true, releasedAt := now s } } 0 6 2)

/-- BAY_RELEASE_END: the condition has been clear for 1 s: shadowing resumes after resynchronisation. -/
def execBayReleaseEnd (s : State) : Out :=
  if !s.bdy.released || decide (now s < s.bdy.releasedAt + Config.sec) then .next s
  else
    let s := { s with bdy := { s.bdy with released := false } }
    .next ((List.range 8).foldl (fun s b => if shadows s b then withhold s b 10 else s) s)

/-! ### The SMBus endpoint (R356) -/

/-- The endpoint answers: the Bindery runs. -/
def endpointUp (s : State) : Bool := alive s && !s.bdy.halted

/-- A response of a message type leaves on SMBus. -/
def answer (s : State) (type : Nat) (bs : Bytes) : State :=
  if endpointUp s then { s with bdy := { s.bdy with smbOut := s.bdy.smbOut ++ [(type, bs)] } } else s

/-- MCTP_SET_ENDPOINT_ID: the controller assigns the endpoint ID; 0x00 and 0xFF are no endpoint IDs (DSP0236). -/
def execMctpSetEndpointId (eid : Byte) (s : State) : Out :=
  if eid = 0 ∨ eid = 0xFF ∨ !endpointUp s then .next (answer s 0 [1, 2])
  else .next (answer { s with bdy := { s.bdy with eid := eid.toNat } } 0 [1, 0, 0, eid, 0])

/-- MCTP_GET_ENDPOINT_ID. -/
def execMctpGetEndpointId (s : State) : Out := .next (answer s 0 [2, 0, BitVec.ofNat 8 s.bdy.eid, 0, 0])

/-- Version entries of a supported message type, as DSP0236 codes them: MCTP 1.3, the versions of the others by their standards. -/
def versions (type : Byte) : Option Bytes :=
  if type = 0 ∨ type = 0xFF then some [1, 0xF1, 0xF3, 0xFF, 0]
  else if type = 1 ∨ type = 4 ∨ type = 5 then some (Config.stdData 0x30 type.toNat)
  else none

/-- MCTP_GET_VERSION_SUPPORT. -/
def execMctpGetVersionSupport (type : Byte) (s : State) : Out :=
  match versions type with
  | some v => .next (answer s 0 ([4, 0] ++ v))
  | none => .next (answer s 0 [4, 0x80])

/-- MCTP_GET_MESSAGE_TYPE_SUPPORT: the four types of R356. -/
def execMctpGetMessageTypeSupport (s : State) : Out := .next (answer s 0 [5, 0, 4, 0, 1, 4, 5])

/-- Response of the firmware update: 0 done, 1 busy, 2 refused; its bytes are the standard's. -/
def pldmAnswer (s : State) (code : Nat) : State := answer s 1 (Config.stdData 0x20 code)

/-- PLDM_FIRMWARE_UPDATE: image data of a component enters the staging buffer; activation writes the slot not running, then starts firmware
without reset, or makes a boot loader's slot pending (R356, R359). -/
def execPldmFirmwareUpdate (component : Half) (offset : Word) (data : Bytes) (activate : Bool) (s : State) : Out :=
  if !endpointUp s then .next s
  else if component ≠ 1 ∧ component ≠ 2 then .next (pldmAnswer s 2)
  else if stagingBusy s true then .next (pldmAnswer s 1)
  else if !activate then
    if Config.fwSlotBytes < offset.toNat + data.length then .next (pldmAnswer s 2)
    else .next (pldmAnswer (stageChunk s true offset.toNat data) 0)
  else
    let i := stagedImage s
    let slot := 3 - runningSlot s i.kind
    if i.kind.toNat ≠ component.toNat then .next (pldmAnswer s 2)
    else if i.kind = 1 then
      if (commitFault s true slot).isSome then .next (pldmAnswer s 2)
      else .next (pldmAnswer (makePending (writeSlot s i slot) slot) 0)
    else if (activateFault s true slot).isSome then .next (pldmAnswer s 2)
    else .next (pldmAnswer (beginActivation s slot) 0)

/-- NVME_MI_READ_DATA_STRUCTURE: the standard's structures. -/
def execNvmeMiReadDataStructure (kind : Byte) (s : State) : Out := .next (answer s 4 ([0] ++ Config.stdData 0x40 kind.toNat))

/-- Subsystem health: critical warning bits, composite temperature in °C, spare (NVMe-MI 1.2). -/
def subsystemHealth (s : State) : Bytes :=
  [BitVec.ofNat 8 (255 - critWarn s), BitVec.ofNat 8 (compositeK s - 273), 0, 0, 0, 0, 0]

/-- Controller health: its identifier, CSTS bits, composite temperature in kelvin, warnings. -/
def controllerHealth (s : State) (n : Nat) : Bytes :=
  let c := ctrlAt s n
  natLe 2 (cntlid s n) ++ natLe 2 ((if c.rdy then 1 else 0) + (if c.cfs then 2 else 0)) ++ natLe 2 (compositeK s) ++ zeros 2 ++ natLe 1 (critWarn s) ++
    zeros 7

/-- NVME_MI_HEALTH_STATUS_POLL: of the subsystem, or of a controller. -/
def execNvmeMiHealthStatusPoll (ctrl : Option (Fin 2)) (s : State) : Out :=
  match ctrl with
  | none => .next (answer s 4 ([0] ++ subsystemHealth s))
  | some n => if (controllers s).contains n.val then .next (answer s 4 ([0] ++ controllerHealth s n)) else .next (answer s 4 [4])

/-- Configurations of NVMe-MI: SMBus frequency, health status change, transmission unit size. -/
def miKnown (id : Byte) : Bool := decide (1 ≤ id.toNat) && decide (id.toNat ≤ 3)

/-- NVME_MI_CONFIGURATION_GET. -/
def execNvmeMiConfigurationGet (id : Byte) (s : State) : Out :=
  if miKnown id then .next (answer s 4 ([0] ++ natLe 4 (getD s.bdy.miConfig 0 id.toNat).toNat)) else .next (answer s 4 [4])

/-- NVME_MI_CONFIGURATION_SET. -/
def execNvmeMiConfigurationSet (id : Byte) (value : Word) (s : State) : Out :=
  if !miKnown id then .next (answer s 4 [4])
  else if !endpointUp s then .next s
  else .next (answer { s with bdy := { s.bdy with miConfig := put s.bdy.miConfig 0 id.toNat value } } 4 [0])

/-- Feature of an identifier. -/
def featureOf (id : Byte) : Feature :=
  ([Feature.arbitration, .power, .tempThreshold, .queues, .coalescing, .vectorConfig, .asyncConfig, .timestamp, .flushMedia].find?
    (fun f => fidOf f == id.toNat)).getD (.other id)

/-- NVME_MI_TUNNELLED_ADMIN: Identify, Get Log Page and Get Features only; others are invalid opcodes. -/
def execNvmeMiTunnelledAdmin (opcode : Byte) (arg : Byte) (s : State) : Out :=
  if opcode = 0x06 then
    match identifyData s 0 arg.toNat 0 with
    | some d => .next (answer s 4 ([0] ++ d))
    | none => .next (answer s 4 [4])
  else if opcode = 0x02 then
    match logPage s arg.toNat with
    | some d => .next (answer s 4 ([0] ++ d))
    | none => .next (answer s 4 [4])
  else if opcode = 0x0A then
    match featureOf arg with
    | .other _ => .next (answer s 4 [4])
    | f => .next (answer s 4 ([0] ++ natLe 8 (featCurrent s 0 f)))
  else .next (answer s 4 [3])

/-! ### SPDM (R357) -/

/-- SPDM_GET_CERTIFICATE: slots 0 to 4 return the chains of life-cycle states 0 to 4. -/
def execSpdmGetCertificate (slot : Byte) (s : State) : Out :=
  if slot.toNat ≤ 4 then .next (answer s 5 ([0] ++ Config.certChain slot.toNat)) else .next (answer s 5 [0x7F])

/-- Block `i` of GET_MEASUREMENTS. -/
def measurement (s : State) (i : Nat) : Bytes :=
  if i ≤ 5 then natLe 48 ((measure s).getD (i - 1) 0).toNat
  else if i ≤ 13 then natLe 48 (bfeIdent s (i - 6)).toNat
  else if i = 14 then natLe 1 (lifeCycle s)
  else natLe 48 (((heldRecords s).getLast?.map ColRec.digest).getD 0).toNat

/-- A response signed under the current state's attestation key. -/
def signedAnswer (s : State) (code : Nat) (bs : Bytes) : Bytes := bs ++ natLe 96 (Config.attest (lifeCycle s) (Config.spdmHash code bs)).toNat

/-- SPDM_CHALLENGE: the chain's hash, a fresh responder nonce, signed. -/
def execSpdmChallenge (slot : Byte) (nonce : BitVec 256) (s : State) : Out :=
  if 4 < slot.toNat then .next (answer s 5 [0x7F])
  else
    let bs := [slot] ++ natLe 32 nonce.toNat ++ natLe 48 (Config.sha384 (Config.certChain slot.toNat)).toNat ++ natLe 8 (freeValue s).toNat
    .next (answer (drawn s) 5 ([0] ++ signedAnswer s 3 bs))

/-- SPDM_GET_MEASUREMENTS: index 0 gives the number of blocks, 1 to 15 a block, 0xFF all; each raw, signed. -/
def execSpdmGetMeasurements (index : Byte) (nonce : BitVec 256) (s : State) : Out :=
  let k := index.toNat
  if 15 < k ∧ k ≠ 255 then .next (answer s 5 [0x7F])
  else
    let blocks := if k = 0 then [15] else if k = 255 then (List.range 15).flatMap (fun i => measurement s (i + 1)) else measurement s k
    .next (answer s 5 ([0] ++ signedAnswer s 0x60 ([index] ++ natLe 32 nonce.toNat ++ blocks)))

end Sys2Proof.Machine
end

