-- ==== Sys2Proof/Machine/Resync.lean ====
section
/-! DEFINITION. Resynchronisation of a shadowed bay and hand-back (15_twin_pair.md R292 to R294, R302, R307, R308). -/

namespace Sys2Proof.Machine

/-! ### Stitches of the other twin (R46) -/

/-- A stitch of the other twin's count in this twin's own. -/
def ownStitch (s : State) (k : Nat) : Nat := ((k : Int) - s.tck.pairOffset).toNat
/-- A stitch of this twin's count in the other's. -/
def peerStitch (s : State) (k : Nat) : Nat := ((k : Int) + s.tck.pairOffset).toNat

/-! ### Capture (R150, R302) -/

/-- The states of a bay. -/
def captureBay (s : State) (b : Nat) : StateImage :=
  { cells := (bayCells s b).map (fun n => (n, cellAt s n)), unit := unitAt s b, axes := (bayAxes b).map (fun n => (n, axisAt s n)) }

/-- The runner names a capture stitch K, four stitches ahead. -/
def nameCapture (s : State) (b : Nat) : State :=
  let k := now s + 4
  setPair s b { pairAt s b with resync := 1, k := k, kKnown := true, askedAt := k }

/-- A cell's states taken from an image: everything but what the Binding fixes; its queued effect stitches in this twin's count. -/
def loadCell (s : State) (mine c : Cell) : Cell :=
  { c with
    named := mine.named, opu := mine.opu, loop := mine.loop, slot := mine.slot, order := mine.order, ff := mine.ff, action := mine.action
    allowance := mine.allowance, coef := mine.coef
    queue := c.queue.map (fun (q : QCmd) => { q with effect := ownStitch s q.effect }), effect := ownStitch s c.effect }

/-- Load an image into a bay. -/
def loadBay (s : State) (b : Nat) (i : StateImage) : State :=
  let own (q : QCmd) : QCmd := { q with effect := ownStitch s q.effect }
  let s := i.cells.foldl (fun s e => if (bayCells s b).contains e.1 then setCell s e.1 (loadCell s (cellAt s e.1) e.2) else s) s
  let s := setUnit s b { i.unit with queue := i.unit.queue.map own }
  i.axes.foldl (fun s e => if (bayAxes b).contains e.1 then setAxis s e.1 { e.2 with queue := e.2.queue.map own } else s) s

/-! ### Commands of the heartbeat at the shadow (R139, R140) -/

/-- The bay of an object. -/
def objBay (s : State) : Obj → Nat
  | .cell n => (cellAt s n).opu / 2
  | .unit n => n
  | .axis n => axisBay n

/-- Queue a command of the owner for an object of a shadowed bay, for its effect stitch in this twin's count. -/
def queueShadow (s : State) (c : HbCmd) : State :=
  let q : QCmd := { op := c.op.toNat, arg := c.arg.toNat, effect := ownStitch s c.effect.toNat }
  match c.obj with
  | .cell n => let x := cellAt s n; setCell s n { x with queue := enqueue x.queue q }
  | .unit n => let x := unitAt s n; setUnit s n { x with queue := enqueue x.queue q }
  | .axis n => let x := axisAt s n; setAxis s n { x with queue := enqueue x.queue q }

/-- A command arrives at the shadow: kept for the recomputation while a resynchronisation runs; after the edge of its effect stitch not
applied, and the bay withheld (R140). -/
def shadowCommand (s : State) (hb : Nat) (c : HbCmd) : State :=
  let b := objBay s c.obj
  let p := pairAt s b
  if !shadows s b then s
  else if p.resync = 2 then
    if p.kKnown ∧ p.k + 1 < ownStitch s hb then setPair s b { p with cmdRing := p.cmdRing ++ [c] } else s
  else if ownStitch s c.effect.toNat ≤ now s then bump (withhold s b 5) 5 10
  else queueShadow s c

/-! ### Recomputation (R302 step 3) -/

/-- The state that a meaning gives. -/
def after (s : State) : Out → State
  | .next t => t
  | _ => s

/-- Timed changes of a cell that stand due. -/
def cellTimers (s : State) (n : Nat) : State :=
  let c := Fin.ofNat 96 n
  [execPlausibilityAction, execSearchTimeout, execJumpKickEnd, execJumpBrakeEnd, execJumpDwellEnd, execJumpSettleEnd, execJumpTimeout, execSeekKickEnd,
    execSeekCaptureWindowEnd, execSeekSettleEnd, execSeekTimeout, execHoldMaxExpiry, execHoldRelease, execRetractComplete].foldl
    (fun s f => after s (f c s)) s

/-- Timed changes of a unit that stand due. -/
def unitTimers (s : State) (n : Nat) : State :=
  let u := Fin.ofNat 8 n
  [execSenseComplete, execAlignComplete, execRampTimeout, execStartBrakeEnd, execBackwardBrakeTimeout, execLossOfSync, execSpindleLock,
    execSpindleUnlock, execOverspeedFault, execStandstill, execShortBrakeComplete].foldl (fun s f => after s (f u s)) s

/-- Timed changes of an axis that stand due. -/
def axisTimers (s : State) (n : Nat) : State :=
  let s := after s (execHomingTimeout (Fin.ofNat 32 n) s)
  if n < 16 then after s (execFollowMoveStart (Fin.ofNat 16 n) s) else s

/-- One recomputed stitch of a bay from a frame of the ring; an absent frame leaves the states as they are. -/
def replayStitch (b : Nat) (s : State) (e : Nat × Option SampleFrame) : State :=
  match e.2 with
  | none => setUnit s b (pushFloat (unitAt s b) ((unitAt s b).floatQ.getLast?.getD none))
  | some f =>
    let s := setPort { s with tck := { s.tck with count := e.1 } } b { portAt s b with landed := some f }
    let s := (List.zip (bayAxes b) f.axis).foldl (fun s x => axisInput s x.1 x.2) s
    let s := (bayAxes b).foldl axisTimers (unitTimers ((bayCells s b).foldl cellTimers s) b)
    let s := computeBays s [b]
    let s := (bayCells s b).foldl (fun s n => setCell s n (edgeCell (cellAt s n))) s
    let s := setUnit s b (edgeUnit (spdPar s b) (unitAt s b))
    let s := (bayAxes b).foldl (fun s n => setAxis s n (edgeAxis (axisAt s n))) s
    setPort (cascadeBay s b) b (closePort (portAt s b))

/-- Recompute a bay from its ring, whose first frame is that of stitch K; the present stitch and port then stand again. -/
def replayBay (s : State) (b : Nat) : State :=
  let p := pairAt s b
  let port := portAt s b
  let start := match (p.ring.find? (fun e => decide (e.1 = p.k))).bind (·.2) with
    | some f => { port with prevA := f.sensA, prevB := f.sensB }
    | none => port
  let t := (p.ring.filter (fun e => decide (p.k < e.1))).foldl (replayStitch b) (setPort s b start)
  setPort { t with tck := { t.tck with count := s.tck.count } } b port

/-! ### The rows of R302 -/

/-- Resynchronisation of bays asked for (SPN_CTL.RESYNC). -/
def askResync (s : State) (mask : Byte) : State :=
  (baysIn mask).foldl (fun s b =>
    if runs s b && (pairAt s b).resync == 0 then nameCapture s b else if shadows s b then withhold s b 10 else s) s

/-- RESYNC: SPN_CTL.RESYNC: the runner names a capture stitch; at the shadow shadow ready is withdrawn, which starts the procedure. -/
def execResync (mask : Byte) (s : State) : Out := if barSealed s then .next s else .next (askResync s mask)

/-- RESYNC_CAPTURE: after slot P of stitch K, at the edge that ends it and at no other, the runner captures the bay and sends its State
packet; one missed is asked for again (RESYNC_TIMEOUT). -/
def execResyncCapture (bay : Fin 8) (s : State) : Out :=
  let p := pairAt s bay
  if !runs s bay || p.resync != 1 || decide (now s ≠ p.k + 1) then .next s
  else .next (bump (send (setPair s bay { p with resync := 0 }) (.state bay (captureBay s bay))) 4 5)

/-- STATE_PACKET_RECEIVE: the shadow loads the states, takes the commands of the ring, recomputes to the present and goes on live. -/
def execStatePacketReceive (bay : Fin 8) (image : StateImage) (s : State) : Out :=
  let p := pairAt s bay
  if !shadows s bay || p.resync != 2 || !p.kKnown then .next s
  else
    let s := p.cmdRing.foldl queueShadow (loadBay s bay image)
    let s := replayBay s bay
    .next (setPair s bay { pairAt s bay with resync := 3, k := now s, kKnown := false, ring := [], cmdRing := [], hits := 0, missed := false })

/-- RESYNC_TIMEOUT: shadow ready has not returned 64 stitches after K: the procedure starts again and is counted. -/
def execResyncTimeout (bay : Fin 8) (s : State) : Out :=
  let p := pairAt s bay
  if !runs s bay || p.askedAt == 0 || p.peerReady || decide (now s < p.askedAt + 64) then .next s
  else .next (bump (nameCapture s bay) 4 6)

/-- The runner starts a resynchronisation of a bay that the other twin shadows and does not show ready (R302): not while the bay is in safe
stop (R294), nor while one runs. -/
def wantResync (s : State) (b : Nat) : Bool :=
  let p := pairAt s b
  runs s b && s.spn.paired && (ownRec s b).shadow && !p.peerReady && p.askedAt == 0 && p.resync == 0 && !(bayAt s b).safeStop && !s.tck.alignFault

/-! ### Hand-back (R307) -/

/-- Another bay is being handed back. -/
def handing (s : State) (b : Nat) : Bool := (List.range 8).any (fun x => x != b && ((pairAt s x).returning || (pairAt s x).handover != 0))

/-- The conditions of a hand-back (R307). -/
def mayReturn (s : State) (b : Nat) : Bool :=
  let p := pairAt s b
  runs s b && (ownRec s b).owner != s.tck.twinId && s.spn.paired && s.spn.link == 2 && p.peerReady &&
    (p.returnReq || regBits s .spnCtl 0 1 1 == 1) && !handing s b

/-- Ask for the hand-back of bays (SPN_CTL.RETURN). -/
def askReturn (s : State) (mask : Byte) : State :=
  (baysIn mask).foldl (fun s b =>
    if runs s b && (ownRec s b).owner != s.tck.twinId then setPair s b { pairAt s b with returnReq := true, returnAt := now s } else s) s

/-- HAND_BACK_REQUEST. -/
def execHandBackRequest (mask : Byte) (s : State) : Out := if barSealed s then .next s else .next (askReturn s mask)

/-- HAND_BACK_START: the twin stops granting media time on the bay's OPUs; once neither holds a grant it names H, at least 256 stitches after
the request and 8 after the last grant. -/
def execHandBackStart (bay : Fin 8) (s : State) : Out :=
  let p := pairAt s bay
  if !mayReturn s bay || p.handover != 0 then .next s
  else
    let at_ := if p.returning || p.returnReq then p.returnAt else now s
    let h := if (bayAt s bay).grants.isEmpty then max (at_ + 256) (now s + 8) else 0
    .next (setPair s bay { p with returning := true, returnAt := at_, handover := h })

/-- HANDOVER_STITCH: the sample frame of H tells: the front end obeys the other port and the hand-back is done, or it still obeys this one:
the hand-over has failed, grants resume, and it is tried again. Both are counted. -/
def execHandoverStitch (bay : Fin 8) (s : State) : Out :=
  let p := pairAt s bay
  if p.handover == 0 || decide (now s < p.handover) || (portAt s bay).landed.isNone then .next s
  else
    let s := bump s 4 4
    if runs s bay then
      .next (event (setPair s bay { p with handover := 0, returning := false, returnAt := now s }) 0x104 4 1 bay)
    else .next (setPair s bay { p with handover := 0 })

end Sys2Proof.Machine
end

