-- ==== Sys2Proof/Machine/Spine.lean ====
section
/-! DEFINITION. The Spine Link, heartbeats, the alive line, pairing, the loss of the link and of the twin, and the packets (15_twin_pair.md
R292 to R306; 11_quires.md R215, R219 to R223, R230; 12_host_interface.md R246, R253; 02_binding.md R36, R40; 03_stitch.md R45, R46, R52). -/

namespace Sys2Proof.Machine

/-! ### Heartbeats (R45, R298, R299) -/

/-- The other twin's part of a heartbeat on a bay that this twin shadows and the other runs: absent sets (R45), digests of the frames of the
stitch before (R299), the sixteenth match after a load (R302). -/
def shadowBeat (h : Heartbeat) (s : State) (b : Nat) : State :=
  if !shadows s b || !h.run.getLsbD b then s
  else
    let s := if h.absent.getLsbD b != (portAt s b).landed.isNone then bump (setPair s b { pairAt s b with absentDiff := true }) 4 8 else s
    let p := pairAt s b
    if p.resync = 2 ∨ (p.resync = 3 ∧ now s ≤ p.k) then s
    else if h.digests.getD b 0 ≠ p.digest then bump (withhold s b 8) 4 7
    else
      let n := min (p.hits + 1) 65535
      if p.resync = 3 ∧ 16 ≤ n then setPair s b { p with hits := n, resync := 0, withhold := if p.withhold = 1 then 1 else 0 }
      else setPair s b { p with hits := n }

/-- The capture stitch that the runner names (R302 steps 1 and 2). -/
def shadowCapture (h : Heartbeat) (s : State) (b : Nat) : State :=
  let p := pairAt s b
  let k := ownStitch s h.kStitch.toNat
  if !shadows s b || !h.capture.getLsbD b || h.kStitch == 0 || (p.resync == 2 && p.k == k) then s
  else setPair s b { p with resync := 2, k := k, kKnown := true, ring := [], cmdRing := [], hits := 0 }

/-- What a heartbeat says of a bay that this twin runs: the other twin's shadow ready; a hand-over waits for it (R307). -/
def runnerBeat (h : Heartbeat) (s : State) (b : Nat) : State :=
  if !runs s b then s
  else
    let p := pairAt s b
    let ready := h.ready.getLsbD b
    let s := setPair s b { p with
      peerReady := ready, askedAt := if ready then 0 else p.askedAt, handover := if !ready && decide (now s < p.handover) then 0 else p.handover }
    if wantResync s b then nameCapture s b else s

/-- A heartbeat of the pair in service. -/
def pairBeat (s : State) (h : Heartbeat) : State :=
  let s := h.cmds.foldl (fun s c => shadowCommand s h.count.toNat c) s
  (List.range 8).foldl (fun s b => runnerBeat h (shadowCapture h (shadowBeat h s b) b) b) s

/-- HEARTBEAT_RECEIVE: the other twin's heartbeat of the corresponding stitch has arrived whole; of one that comes late only the commands count:
those whose effect stitch is still ahead are taken, the others withhold their bay (R140). While the link is not up the offset of the
counts is taken from it (R46). -/
def execHeartbeatReceive (h : Heartbeat) (s : State) : Out :=
  if h.sender.val = s.tck.twinId ∨ s.spn.link = 0 ∨ s.pwr.phase = .porLow then .next s
  else if s.spn.link = 2 then
    if (h.count.toNat : Int) < now s + s.tck.pairOffset then
      .next (if s.spn.paired then h.cmds.foldl (fun s c => shadowCommand s h.count.toNat c) s else s)
    else if (h.count.toNat : Int) ≠ now s + s.tck.pairOffset then .next s
    else
      let s := { s with spn := { s.spn with peer := some h, missing := 0, present := min (s.spn.present + 1) 256 } }
      .next (if s.spn.paired then pairBeat s h else s)
  else
    .next { s with
      spn := { s.spn with peer := some h, missing := 0, present := min (s.spn.present + 1) 256 }
      tck := { s.tck with pairOffset := (h.count.toNat : Int) - now s } }

/-- HEARTBEAT_MISSING: it has not arrived whole by 2,000 ns: a hand-over is cancelled, shadow ready is withdrawn while ALIVE_IN is live until a
resynchronisation whose capture comes after it (R294, R298, R308). -/
def execHeartbeatMissing (s : State) : Out :=
  if s.spn.link = 0 ∨ s.pwr.phase = .porLow ∨ s.spn.peer.any (fun h => decide ((h.count.toNat : Int) = now s + s.tck.pairOffset)) then .next s
  else
    let owned := s.spn.peer.any (fun _ => true)
    let s := { s with spn := { s.spn with missing := min (s.spn.missing + 1) 65535, present := 0 } }
    let s := if s.spn.link = 2 then bump s 4 0 else s
    .next ((List.range 8).foldl (fun s b =>
      let p := pairAt s b
      if shadows s b then
        let void := owned && (p.resync == 3 || p.resync == 2 && decide (p.k < now s))
        setPair s b { p with
          missed := p.missed || owned, resync := if void then 0 else p.resync, kKnown := p.kKnown && !void, ring := if void then [] else p.ring }
      else if runs s b then
        let cancel := decide (now s < p.handover)
        setPair s b { p with peerReady := false, handover := if cancel then 0 else p.handover, returning := p.returning && !cancel }
      else s) s)

/-! ### The loss of a twin (R305) -/

/-- A version of the lost twin becomes this twin's own, behind everything it has admitted, in the order it was admitted. -/
def adoptVersion (s : State) (v : Version) : Version :=
  if v.own then v else { v with own := true, twin := s.tck.twinId, seq := s.cmd.seq + v.seq }

/-- The mirrored ingest records whose data is complete in the cache, with the number of their version. -/
def adoptIngest (s : State) (i : Ingest) : Option Ingest :=
  if i.twin = s.tck.twinId then some i
  else if s.cmd.versions.any (fun v => !v.own && v.twin == i.twin && v.seq == i.version) then
    some { i with twin := s.tck.twinId, version := s.cmd.seq + i.version }
  else none

/-- Quires that the loss of the twin ends: unsealed, built by it or with a leaf that it wrote. -/
def endsWithTwin (s : State) (q : Quire) : Bool :=
  q.st != 2 && q.st != 3 && (q.twin != s.tck.twinId || q.leaves.any (fun l => l.peer && l.st != 4))

/-- Steps 1 and 2 of R305: the mirrored records are authoritative; unsealed quires are refilled from the adopted versions; admission goes on
above them. -/
def adoptJournal (s : State) : State :=
  let base := s.cmd.seq
  let ended := s.qre.quires.filter (fun e => endsWithTwin s e.2)
  let lostSeqs := (s.cmd.versions.filter (fun v => !v.own && !versionSealed s v.twin v.seq)).map (base + ·.seq)
  let s := { s with
    cmd := { s.cmd with
      versions := s.cmd.versions.map (adoptVersion s)
      seq := s.cmd.versions.foldl (fun n v => if v.own then n else max n (base + v.seq + 1)) base }
    qre := { s.qre with ingest := s.qre.ingest.filterMap (adoptIngest s) } }
  let s := ended.foldl (fun s e =>
    if e.2.twin = s.tck.twinId then abandonQuire s e.1
    else countEvent (setQuire s { e.2 with st := 3, leaves := e.2.leaves.map (fun l => if l.st = 4 then l else { l with st := 3 }) }) 10 1 1 0xFF 0xFF [e.1]) s
  let back := (lostSeqs.filter (fun n => s.cmd.versions.any (fun v => v.own && v.seq == n))).dedup
  let s := { s with
    qre := { s.qre with unplaced := s.qre.unplaced ++ back.filter (fun n => !s.qre.unplaced.contains n) }
    spn := { s.spn with tookOver := true } }
  let s := if (unfiled s).isEmpty then s else { s with qre := { s.qre with unfiledAt := s.qre.unfiledAt <|> some (now s) } }
  refillNow s

/-- The twin is lost: this twin is master on its own reference; with complete copies it takes the lost twin's place, else its group stays
Inaccessible (R46, R246, R305). -/
def loseTwin (s : State) (complete_ : Bool) : State :=
  let s := countEvent { s with
    spn := { s.spn with peerLost := true }
    tck := { s.tck with master := true, outside := 0, alignFault := false, offsetNs := 0 } } 4 2 3
  let g := 2 - s.tck.twinId
  let s := if complete_ then setAna (adoptJournal (setAna s g 15)) g 1 else s
  loseMirror s

/-! ### The loss of the link (R253, R300, R304) -/

/-- Forwarded commands of this twin complete with Internal Path Error; those of the other twin that stand here without data go. -/
def endForwarded (s : State) : State :=
  let mine := s.hiu.cmds.filter (fun c => c.remote && c.sqe.kind != .admin && !c.ref.peer)
  let s := mine.foldl (fun s c => complete s c.ref .internalPath) s
  { s with hiu := { s.hiu with cmds := s.hiu.cmds.filter (fun c => !(c.ref.peer && (c.st == .fetched || c.st == .admitted || c.st == .waiting || c.st == .media))) } }

/-- Peer leaves not verified of this twin's quires are abandoned, not counted, and spill (R230); this twin writes no more leaves of the
other's quires. -/
def dropPeerLeaves (s : State) : State :=
  let open_ := s.qre.quires.filter (fun e => e.2.st == 1)
  open_.foldl (fun s e =>
    if e.2.twin = s.tck.twinId then
      ((List.range e.2.leaves.length).filter (fun i => let l := e.2.leaves.getD i {}; l.peer && l.st != 2 && l.st != 3 && l.st != 4)).foldl
        (fun s i => abandonLeaf s e.1 i false) s
    else setQuire s { e.2 with committed := false }) s

/-- The pair state of a bay after the loss of the link: shadow ready withdrawn with cause 9 (R304). -/
def linkLostBay (s : State) (b : Nat) : State :=
  let p := pairAt s b
  setPair s b { p with
    withhold := if p.role = 2 then (if p.withhold = 1 then 1 else 9) else p.withhold, hits := 0, handover := 0, returning := false, resync := 0, kKnown := false
    ring := [], cmdRing := [], askedAt := 0, peerReady := false, missed := false }

/-- The link is lost, or down: an exchange is abandoned, packets that waited go (R308). With ALIVE_IN dead the twin is lost, its copies complete. -/
def loseLink (s : State) (state : Nat) : State :=
  let was := s.spn.link
  let s := { s with out := [], spn := { s.spn with link := state, paired := false, pairing := false, awaitBinding := false, exchange := [], present := 0 } }
  if was ≠ 2 then s
  else
    let s := countEvent s 4 1 2
    let s := (List.range 8).foldl linkLostBay (loseArmed (endForwarded s))
    if s.spn.peerAlive then
      finishUnmount (loseMirror (setAna (dropPeerLeaves s) (2 - s.tck.twinId) 3))
    else finishUnmount (loseTwin s true)

/-- SPINE_LINK_LOST: 16 consecutive heartbeats missing, or the link down. -/
def execSpineLinkLost (linkDown : Bool) (s : State) : Out :=
  if s.spn.link ≠ 2 ∨ (!linkDown ∧ s.spn.missing < 16) then .next s else .next (loseLink s (if linkDown then 0 else 3))

/-- SPINE_LANE_DROP: a lane's error rate exceeds 10⁻¹²: the link runs on with the others; with none it is down (R295). -/
def execSpineLaneDrop (lane : Fin 8) (s : State) : Out :=
  if !s.spn.lanes.getLsbD lane then .next s
  else
    let s := countEvent { s with spn := { s.spn with lanes := s.spn.lanes &&& ~~~((1 : Byte) <<< lane.val) } } 4 10 1 0xFF 0xFF [lane]
    .next (if s.spn.lanes = 0 then loseLink s 0 else s)

/-- SPINE_LANE_RESTORE: a dropped lane retrains without stopping the others (R295); a link that was down is then lost until its heartbeats
have been present (R300). -/
def execSpineLaneRestore (lane : Fin 8) (s : State) : Out :=
  .next { s with spn := { s.spn with
    lanes := s.spn.lanes ||| ((1 : Byte) <<< lane.val), link := if s.spn.link = 0 ∧ s.pwr.phase ≠ .porLow then 3 else s.spn.link } }

/-- SPINE_LINK_RESTORED: the link has trained at start-up, with its round-trip time measured, or 256 consecutive heartbeats have been present
after a loss (R300). -/
def execSpineLinkRestored (s : State) : Out :=
  if s.spn.link = 1 then
    .next (drawn { s with spn := { s.spn with link := 2, missing := 0, lanes := 0xFF, rtt := (freeValue s).setWidth 16 } })
  else if s.spn.link = 3 ∧ 256 ≤ s.spn.present then .next { s with spn := { s.spn with link := 2, missing := 0 } }
  else .next s

/-! ### The alive line (R301) -/

/-- ALIVE_IN_DEAD: no transition at two consecutive edges: with the link already lost the twin is lost, its copies stale; with heartbeats
still arriving an alive-line fault is logged and nothing else. -/
def execAliveInDead (s : State) : Out :=
  if s.spn.aliveQuiet < 2 ∨ !s.spn.peerAlive then .next s
  else
    let t := { s with spn := { s.spn with peerAlive := false } }
    if s.spn.link = 2 then .next (if s.spn.missing = 0 then countEvent t 4 11 1 else t)
    else if s.spn.link = 1 then .next t
    else .next (loseTwin t false)

/-- ALIVE_IN_LIVE: 256 consecutive transitions. -/
def execAliveInLive (s : State) : Out :=
  if s.spn.aliveEdges < 256 ∨ s.spn.peerAlive then .next s else .next { s with spn := { s.spn with peerAlive := true, peerLost := false } }

/-! ### Pairing (R46, R303, R339, R343) -/

/-- This twin runs bays beyond its Binding ownership. -/
def beyond (s : State) : Bool := (List.range 8).any (fun b => runs s b && (ownRec s b).owner != s.tck.twinId)

/-- The stitch master that a pairing names (R46). -/
def namedMaster (s : State) (peerSingle : Bool) : Bool := if beyond s then true else if peerSingle then false else s.tck.twinId == 0

/-- What this twin holds and the other may lack: journal records, unreleased versions, pointers of its surfaces, key check values, recorded
transition requests. -/
def exchange (s : State) : State :=
  let s := (s.cmd.versions.filter (·.own)).foldl (fun s v => sendMirror s v (ingestsOf s.qre.ingest v)) s
  let s := ((s.qre.quires.filter (fun e => e.2.twin == s.tck.twinId && !e.2.filed)).map (·.1)).foldl sendQuire s
  let s := s.qre.amends.foldl (fun s a => send s (.journal (.amendment a))) s
  let s := ((List.range 16).filter (fun m => runs s (m / 2))).foldl (fun s m => noteSurface (sendPointer s (Fin.ofNat 16 m)) m) s
  let s := ((s.kst.slots.filter (fun e => decide (e.2.st ≠ 0))).map (·.1)).foldl sendKcv s
  s.kst.requests.foldl (fun s b => send s (.mgmt (.transition b 0))) s

/-- Both vaults have failed: this twin's, and the other's by its last heartbeat (R298). -/
def bothVaultsFailed (s : State) : Bool := s.mem.vaultKind == 2 && s.spn.peer.any (fun h => !h.vaultOk)

/-- Seal-only is told to the host (R252, R260). -/
def tellSealOnly (s : State) : State := if bothVaultsFailed s && s.cmd.prot != 2 then vendorEvent s 3 else s

/-- The exchange is done: Paired protection, or seal-only, told to the host, where both vaults have failed (R252, R260); the other group
Non-Optimized, every shadowed bay to be resynchronised. -/
def enterPaired (s : State) : State :=
  let s := tellSealOnly s
  let s := { s with
    spn := { s.spn with paired := true, pairing := false, peerLost := false, tookOver := false }
    cmd := { s.cmd with prot := if bothVaultsFailed s then 2 else 0 }
    pwr := { s.pwr with stage := if s.pwr.phase = .starting then max s.pwr.stage 9 else s.pwr.stage } }
  let s := setAna (setAna s (s.tck.twinId + 1) 1) (2 - s.tck.twinId) 2
  (List.range 8).foldl (fun s b => if shadows s b then withhold s b 10 else s) s

/-- The exchange ends once the other twin has acknowledged every version that it was sent for it. -/
def endExchange (s : State) : State := if s.spn.pairing ∧ !s.spn.awaitBinding ∧ s.spn.exchange = [] then enterPaired s else s

/-- Pairing succeeds: the exchange of records and unreleased versions begins, and Paired protection follows it (R303). -/
def completePairing (s : State) : State :=
  endExchange (exchange { s with spn := { s.spn with
    pairing := true, awaitBinding := false, exchange := (s.cmd.versions.filter (·.own)).map (·.seq) } })

/-- Pairing is refused: logged, both twins stay in single-board protection. -/
def refusePairing (s : State) (code : Nat) : State :=
  loseMirror (event { s with spn := { s.spn with pairing := false, awaitBinding := false } } code 4 2)

/-- PAIRING: what the other twin shows; with unequal Binding digests the stitch master sends its container and the other waits for its bays
to read Hold. -/
def execPairing (peerId : Fin 2) (serial : BitVec 128) (digest : BitVec 384) (single : Bool) (s : State) : Out :=
  if s.spn.link ≠ 2 ∨ s.spn.paired ∨ s.spn.pairing ∨ !alive s ∨ s.mem.replaying then .next s
  else if peerId.val = s.tck.twinId ∨ serial ≠ s.bdy.serial then .next (refusePairing s 0)
  else
    let s := { s with tck := { s.tck with master := namedMaster s single } }
    if (s.bnd.active.map (fun (b : Binding) => b.digest)).getD 0 = digest then .next (completePairing s)
    else if s.tck.master then .next (loseMirror (send { s with spn := { s.spn with pairing := true } } (.mgmt (.stageContainer s.bnd.actBytes))))
    else .next (loseMirror { s with spn := { s.spn with pairing := true, awaitBinding := true } })

/-- PAIRING_BINDING_CHECK: every bay this twin runs reads Hold: the master's container passes the load checks and is activated at once, or
pairing is refused; the registers show the check (R31, R32). -/
def execPairingBindingCheck (container : Bytes) (s : State) : Out :=
  if !s.spn.awaitBinding || s.spn.link != 2 || !(List.range 8).all (fun b => !runs s b || (bayAt s b).mode == 5) then .next s
  else
    let v := loadChecks s container true true
    let s := setResult (showCheck s v (parse container)) v.code
    if v.code = 0 then
      let s := activate s (parse container) container 3 0xFF
      .next (completePairing (if s.pwr.phase = .running then writeColophon s 2 else s))
    else .next (refusePairing s (0x200 + v.code))

/-! ### Mirror and journal packets (R215 to R221, R297) -/

/-- A mirrored version from its packet, with the class of its command (R17). -/
def mirrored (twin seq nsid lba : Nat) (blocks : List Bytes) (classU : Bool) : Version :=
  let bs := blocks.map unpackBlock
  { seq := seq, nsid := nsid, lba := lba, nlb := blocks.length, blocks := bs.map (·.1.text), pis := bs.map (·.2), ivs := bs.map (·.1.iv)
    tags := bs.map (·.1.tag), twin := twin, own := false, acked := true, mirrored := true, classU := classU }

/-- The acknowledgement returns once data and ingest records are both in the protected cache (R297). -/
def ackMirror (s : State) (v : Version) : State :=
  let n := ((s.qre.ingest.filter (fun i => i.twin == v.twin && i.version == v.seq)).map (·.blocks)).sum
  if v.nlb ≤ n then send s (.mirrorAck v.seq) else s

/-- Lines that were poisoned and whose version has come again are written whole (R274). -/
def mendVersion (s : State) (own : Bool) (seq : Nat) : State :=
  let hit (k : LineKind) : Bool := match k with | .own n _ => own && n == seq | .mirror n => !own && n == seq | _ => false
  let s := (s.mem.holders.filter (fun e => hit e.2)).foldl (fun s e => mended s e.1) s
  { s with mem := { s.mem with holders := s.mem.holders.filter (fun e => !hit e.2) } }

/-- MIRROR_DATA_RECEIVE: the ciphertext blocks of a version of the other twin; of a version of this twin's own they are the copy it asked for
after a mismatch or for a poisoned line (R274, R329). -/
def execMirrorDataReceive (twin : Fin 2) (seq : Dword) (nsid : Word) (slba : Dword) (blocks : List Bytes) (classU : Bool) (s : State) : Out :=
  if s.spn.link ≠ 2 then .next s
  else
    let v := mirrored twin seq.toNat nsid.toNat slba.toNat blocks classU
    let s := mendVersion s (twin.val == s.tck.twinId) seq.toNat
    if twin.val = s.tck.twinId then
      .next { s with cmd := { s.cmd with versions := s.cmd.versions.map (fun (w : Version) =>
        if w.own && w.seq == v.seq then { w with blocks := v.blocks, pis := v.pis, ivs := v.ivs, tags := v.tags } else w) } }
    else
      let keep := s.cmd.versions.filter (fun w => !(!w.own && w.twin == v.twin && w.seq == v.seq))
      .next (ackMirror (mapBuffered { s with cmd := { s.cmd with versions := keep ++ [v] } } v) v)

/-- The zone of the other twin's home follows its ingest records, for a takeover. -/
def followZone (s : State) (nsid lba blocks : Nat) : State :=
  if nsid < 2 then s
  else
    let z := lba / zoneBlocks
    let x := zoneAt s nsid z
    let wp := max x.wp (lba % zoneBlocks + blocks)
    setZone s nsid z { st := if zoneBlocks ≤ wp then 4 else if x.st = 0 ∨ x.st = 3 then 1 else x.st, wp := wp }

/-- An ingest record of the other twin: kept with the version it belongs to. -/
def takeIngest (s : State) (seq nsid blocks : Nat) (fua : Bool) (twin lba : Nat) : State :=
  let vs := s.cmd.versions.filter (fun v => !v.own && v.twin == twin && v.nsid == nsid && decide (v.lba ≤ lba) && decide (lba + blocks ≤ v.lba + v.nlb))
  let v := vs.foldl (fun b v => match b with | some w => if w.seq < v.seq then some v else b | none => some v) none
  let i : Ingest := { seq := seq, nsid := nsid, blocks := blocks, fua := fua, twin := twin, lba := lba, version := (v.map (·.seq)).getD 0 }
  let s := { s with qre := { s.qre with ingest := s.qre.ingest.filter (fun j => !(j.twin == twin && j.seq == seq)) ++ [i] } }
  let s := followZone s nsid lba blocks
  match v with | some v => ackMirror s v | none => s

/-- A leaf of the other twin's quire as this twin keeps it: on a surface it runs, its own progress in the same frame stands. -/
def mergeLeaf (s : State) (old new : Leaf) : Leaf :=
  let mine := runs s (new.surface / 2)
  if mine && old.surface == new.surface && old.frame == new.frame && old.gen == new.gen && decide (new.st < 3) && decide (8 ≤ new.frame) then
    { old with peer := false }
  else { new with peer := !mine }

/-- A quire record of the other twin, with what this twin needs to write leaves of it; its closed state stands in both copies once every leaf
has a frame. -/
def takeQuire (s : State) (q : Quire) (bodies : List (Nat × Bytes)) : State :=
  if q.twin = s.tck.twinId then s
  else
    let old := (quireAt s q.number).getD { number := q.number }
    let ls := (List.range q.leaves.length).map (fun i => mergeLeaf s (old.leaves.getD i {}) (q.leaves.getD i {}))
    let s := setQuire s { q with leaves := ls, committed := allPlaced q, sealing := false }
    let s := { s with qre := { s.qre with rebuilt := bodies.foldl (fun t e => ins t (bodyKey q.number e.1) e.2) s.qre.rebuilt } }
    let s := if q.st = 2 ∧ old.st ≠ 2 ∧ q.kind = 1 then mapGranules s q else s
    if q.st = 2 ∧ q.kind = 3 then fileRecords s q else s

/-- JOURNAL_RECORD_RECEIVE: ingest, quire, pointer and amendment records of the other twin's journal (R219 to R221, R228); lost rows enter this
twin's report too (R229). -/
def execJournalRecordReceive (rec_ : JournalRec) (s : State) : Out :=
  if s.spn.link ≠ 2 then .next s
  else match rec_ with
    | .ingest seq nsid blocks fua twin lba =>
      if twin.val = s.tck.twinId then .next s else .next (takeIngest s seq nsid.toNat blocks fua twin lba.toNat)
    | .quire q bodies => .next (releaseVersions (takeQuire s q bodies))
    | .pointer m layer frame gen =>
      if runs s (m.val / 2) then .next s
      else
        let x := surfAt s m
        let band := catalogueFrame layer frame
        .next (setSurf s m { x with
          layer := if band then x.layer else layer, frame := if band then x.frame else frame, catFrame := if band then frame else x.catFrame, gen := gen })
    | .amendment a =>
      let s0 := s
      let s := { s with qre := { s.qre with amends := s.qre.amends.filter (fun b => decide (amendKey b ≠ amendKey a)) ++ [a] } }
      match quireAt s a.source with
      | some q =>
        let s := setQuire s { q with
          moved := if a.target = 2 ^ 64 - 1 then q.moved else ins q.moved a.sleaf (a.target, a.tleaf), lostRows := ins q.lostRows a.sleaf a.lost.toNat }
        .next (withSmart s0 ((List.range 64).foldl (fun s j =>
          if a.lost.getLsbD j && decide (a.sleaf + 2 < q.width) && !padLeaf q a.sleaf j then markLost (reportLoss s q a.sleaf j) q a.sleaf j else s) s))
      | none => .next s

/-- MIRROR_ACK_RECEIVE: the other twin has a version and its ingest records in its protected cache (R297); the last one that the exchange of
a pairing awaits ends it (R303). -/
def execMirrorAckReceive (seq : Dword) (s : State) : Out :=
  .next (endExchange { s with
    cmd := { s.cmd with versions := s.cmd.versions.map (fun (v : Version) => if v.own && v.seq == seq.toNat then { v with mirrored := true } else v) }
    spn := { s.spn with exchange := s.spn.exchange.filter (fun n => n ≠ seq.toNat) } })

/-! ### Forwarded commands (R246, R254, R264) -/

/-- Attach the encrypted blocks of a forwarded write to its command. -/
def takeBlocks (s : State) (c : Cmd) (blocks : List Bytes) : State :=
  let bs := blocks.map unpackBlock
  setCmd s { c with st := .data, enc := (List.range bs.length).zip (bs.map (·.1)), pis := bs.map (·.2) }

/-- FORWARDED_COMMAND_RECEIVE: a command the other twin received for a namespace of this home; the blocks of one admitted here; or the
admission of one this twin forwarded, with its LBA. -/
def execForwardedCommandReceive (f : Forwarded) (s : State) : Out :=
  if s.spn.link ≠ 2 then .next s
  else match cmdAt s f.ref with
    | none =>
      if f.ref.peer && f.blocks.isEmpty then
        .next { s with hiu := { s.hiu with cmds := s.hiu.cmds ++ [{ ref := f.ref, sqe := f.sqe, classU := f.classU, nlb := f.sqe.nlb }] } }
      else .next s
    | some c =>
      if f.ref.peer then
        if !f.blocks.isEmpty && c.st == .admitted && f.blocks.length == c.nlb then .next (takeBlocks s c f.blocks) else .next s
      else if c.remote then .next (setCmd s { c with lba := f.sqe.slba.toNat, peerDone := true })
      else .next s

/-- FORWARDED_COMPLETION_RECEIVE: the home twin has completed a command: its data and status go to the host; of a flush of every namespace it is
the other twin's part. -/
def execForwardedCompletionReceive (r : CmdRef) (st : Status) (dw0 : Dword) (data : Bytes) (s : State) : Out :=
  match cmdAt s r with
  | none => .next s
  | some c =>
    if c.sqe.kind = .flush ∧ c.sqe.nsid = 0xFFFFFFFF ∧ st = .success then .next (flushStep (setCmd s { c with peerDone := true }) r)
    else if c.remote || c.sqe.kind == .admin then .next (complete s r st dw0 data)
    else .next s

/-! ### Peer leaves (R215) -/

/-- PEER_LEAF_REQUEST: the other twin places a leaf on a surface whose bay this twin runs: frame and generation go back; a surface that is not
writable takes none. -/
def execPeerLeafRequest (quire : Nat) (leaf : Fin 16) (surface : Fin 16) (s : State) : Out :=
  let dir := (quireAt s quire).any (fun (q : Quire) => q.kind == 3)
  if !runs s (surface.val / 2) || !placeable s (if dir then 3 else 0) surface then .next (send s (.leafVerdict quire leaf false false))
  else
    let r := takeFrame s surface dir
    let s := send (sendPointer r.1 surface) (.leafReply quire leaf r.2.1 r.2.2.1 r.2.2.2)
    match quireAt s quire with
    | some q =>
      let l : Leaf := { surface := surface, layer := r.2.1, frame := r.2.2.1, gen := r.2.2.2 }
      .next (setQuire s { q with leaves := q.leaves.set leaf l })
    | none => .next s

/-- PEER_LEAF_REPLY: the frame and generation of a peer leaf; the closed record, now placed, goes to the journal's other copy. -/
def execPeerLeafReply (quire : Nat) (leaf : Fin 16) (layer : Fin 16) (frame gen : Nat) (s : State) : Out :=
  match quireAt s quire with
  | none => .next s
  | some q =>
    let l := q.leaves.getD leaf {}
    if q.twin ≠ s.tck.twinId ∨ q.st ≠ 1 ∨ !l.peer ∨ l.st ≠ 0 then .next s
    else .next (sendQuire (setQuire s { q with leaves := q.leaves.set leaf { l with layer := layer, frame := frame, gen := gen } }) quire)

/-- PEER_LEAF_VERDICT: the other twin reports a leaf verified, or abandoned (R124 to R126). -/
def execPeerLeafVerdict (quire : Nat) (leaf : Fin 16) (verified : Bool) (counted : Bool) (s : State) : Out :=
  match quireAt s quire with
  | none => .next s
  | some q =>
    let l := q.leaves.getD leaf {}
    if q.twin ≠ s.tck.twinId ∨ q.st ≠ 1 ∨ !l.peer ∨ 2 ≤ l.st then .next s
    else if verified then .next (leafVerified s quire leaf)
    else .next (checkAbandoned (abandonLeaf s quire leaf counted) l.surface)

/-! ### Management packets (R36, R40, R52, R241, R248, R287, R303, R339) -/

/-- An arming by the other twin holds here too: a structural Binding asks that every affected bay reads Hold on both twins (R38). -/
def armsHere (s : State) (x : Staged) : Bool := x.parsed.trim || readHold s s.bnd.affected

/-- The other twin has staged, or armed, a container of this digest. -/
def peerStaged (s : State) (commit : Nat) (x : Staged) : Staged :=
  { x with peer := true, armed := if commit ≠ 0 ∧ x.armed.isNone ∧ armsHere s x then some (ownStitch s commit) else x.armed }

/-- A stage report: the matching container is staged on both twins; an arming not yet known there is told again, and one that finds an affected
bay not in Hold here is refused (DEDUCED, log entry 184). -/
def stageReport (s : State) (digest : BitVec 384) (trim : Bool) (commit : Nat) : State :=
  let hit (x : Option Staged) : Bool := x.any (fun y => y.parsed.digest == digest && y.parsed.trim == trim)
  let again (x : Option Staged) (s : State) : State := match x with
    | some y =>
      if commit = 0 ∧ y.armed.isSome ∧ !y.peer then send s (.mgmt (stageNote y))
      else if commit ≠ 0 ∧ y.armed.isNone ∧ !armsHere s y then send s (.mgmt (.armRefused digest))
      else s
    | none => s
  let s := if hit s.bnd.structural then
      again s.bnd.structural { s with bnd := { s.bnd with structural := s.bnd.structural.map (peerStaged s commit) } } else s
  if hit s.bnd.trim then again s.bnd.trim { s with bnd := { s.bnd with trim := s.bnd.trim.map (peerStaged s commit) } } else s

/-- The other twin refuses an arming as NOT_QUIESCED: the container stays staged (R35, R38). -/
def armRefused (s : State) (digest : BitVec 384) : State :=
  let off (x : Option Staged) : Option Staged := x.map (fun y => if y.parsed.digest = digest then { y with armed := none } else y)
  setResult { s with bnd := { s.bnd with structural := off s.bnd.structural, trim := off s.bnd.trim } } 0x0B

/-- A recorded transition request of the other twin that this one has missed is applied after its checks (R343). -/
def recordedTransition (s : State) (b : Bytes) : State :=
  if transitionFormat b && field b 0 1 == lifeCycle s + 1 && field b 0x10 16 == s.bdy.serial.toNat && transitionSigned s b then
    transit { s with kst := { s.kst with requests := s.kst.requests ++ [b] } } (field b 0 1)
  else s

/-- The state of a surface whose bay the other twin runs (R206): where it has failed, the sealed quires of this twin there join the rebuild queue
(R226). -/
def surfaceNoted (s : State) (m : Nat) (r20 strikes readOnly : Bool) : State :=
  if runs s (m / 2) then s
  else
    let x := surfAt s m
    let s := setSurfW (setSurf s m { x with failedR20 := r20, failedStrikes := strikes }) m { surfWAt s m with readOnly := readOnly }
    let s := if (r20 || strikes) && !x.failedR20 && !x.failedStrikes then (sealedOn s m).foldl queueRebuild s else s
    checkVolume s

/-- MANAGEMENT_PACKET_RECEIVE. -/
def execManagementPacketReceive (m : MgmtMsg) (s : State) : Out :=
  if s.spn.link ≠ 2 then .next s
  else match m with
    | .stageReport digest trim commit => .next (stageReport s digest trim commit.toNat)
    | .stageContainer bytes =>
      if s.spn.awaitBinding then .next s else .next (beginCheck s { bytes := bytes, whole := true, ref := none, fromPeer := true })
    | .armRefused digest => .next (armRefused s digest)
    | .abortBinding => .next (dropBoth s)
    | .dropBinding digest =>
      if s.bnd.structural.any (fun (x : Staged) => x.parsed.digest == digest) || s.bnd.trim.any (fun (x : Staged) => x.parsed.digest == digest) then
        .next (setResult (dropWhere s (fun x => x.parsed.digest == digest)) 0x0C)
      else .next s
    | .namespaceCreate nsid n => .next (putNs s nsid.toNat n)
    | .namespaceDelete nsid =>
      .next ((if nsid = 0xFFFFFFFF then s.hiu.ns.map (·.1) else [nsid.toNat]).foldl dropNs s)
    | .namespaceAttach nsid ctrls attach => .next (attachNs s nsid.toNat ctrls attach)
    | .flushMedia on => .next { s with hiu := { s.hiu with flushMedia := on } }
    | .powerFail => .next ((List.range 8).foldl (fun s b => if shadows s b then withhold s b 4 else s) s)
    | .transition body commit =>
      if commit = 0 then .next (recordedTransition s body)
      else if transitionFormat body && transitionSigned s body then .next (armTransition s body (ownStitch s commit.toNat))
      else .next s
    | .snapshotRequest k => .next (askSnapshot s (ownStitch s k.toNat) true)
    | .modeSet r mask code =>
      let x := modeSetHere s mask code
      .next (send x.1 (.completion r x.2 0 []))
    | .modeNote bay code => .next (setMode (setBay s bay { bayAt s bay with runtime := true }) bay code.toNat)
    | .bayControl r bay action =>
      let x := bayHere s bay action.toNat
      .next (send x.1 (.completion r x.2 0 []))
    | .bayNote bay action => .next (applyBay s bay action.toNat)
    | .volumeMounted n found rows coll records amends =>
      .next (if s.qre.vol = 0 then (mountVolume s n.toNat found rows coll records amends).getD s else s)
    | .volumeClosed => .next (if s.qre.vol = 1 then closeVolume s else s)
    | .volumeUnmount => .next (beginUnmount s)
    | .volumeFiled => .next (finishUnmount { s with qre := { s.qre with filedThere := s.qre.unmounting } })
    | .surfaceNote m r20 strikes readOnly => .next (surfaceNoted s m r20 strikes readOnly)
    | .rebuildNote n => .next (if (quireAt s n).any (fun (q : Quire) => q.st == 2) then queueRebuild s n else s)

end Sys2Proof.Machine
end

