-- ==== Sys2Proof/Machine/Registers.lean ====
section
/-! DEFINITION. Host access to BAR2: what each register reads as, the split read, what a write does (00_scope.md R3 to R6;
20_register_index.md R384 to R386; the register tables of the chapters; 02_binding.md R24; 08_spindle.md R171; 09_motion.md R179), and the
domain request of the mailbox (18_bindery.md R364). -/

namespace Sys2Proof.Machine

/-! ### Read-only fields -/

/-- A flag at a bit of a register. -/
def flagAt (c : Bool) (k : Nat) : Nat := if c then 2 ^ k else 0

/-- Word `i` of a list of bytes. -/
def wordOf (bs : Bytes) (i : Nat) : Nat := field bs (4 * i) 4

/-- BDY and TCK. -/
def viewBdy (s : State) (id : RegId) (i : Nat) : Nat :=
  let b := s.bdy
  match id with
  | .bdyStatus => b.running % 4 * 2 ^ 30 + b.pendingSlot % 4 * 2 ^ 28 + b.attempts % 4 * 2 ^ 26 + flagAt b.released 25 + flagAt b.chainStart 24 +
      b.restarts % 256 * 2 ^ 16
  | .bdyMboxStatus => flagAt b.mboxBusy 31 + flagAt b.mboxReady 30 + flagAt b.mboxRefused 29 + b.mboxLen % 8192
  | .bdyBootCount => b.bootCount
  | .bdyColoSeq => b.coloSeq
  | .bdyEvtSeq => b.evtSeq
  | .bdyClkStatus => ux 16 b.ppm * 65536 + b.refs.toNat * 2 + flagAt (decide (300 < b.ppm.natAbs)) 0
  | .bdyCnt => (counter s 0 i).toNat
  | .bdyTemp => ux 16 (b.temps.getD i 0)
  | .bdyVolt => b.volts.getD i 0 % 65536
  | .bdyMboxRsp => leNat (winBytes b.mboxRsp (4 * i) 4)
  | .tckStitchCount => s.tck.count
  | .tckPairOffset => ux 64 s.tck.pairOffset
  | .tckAlign => flagAt s.tck.alignFault 16 + ux 16 (if s.tck.master then 0 else s.tck.offsetNs)
  | .tckSnapStatus => (shownSnap s).state % 4 * 2 ^ 30 + flagAt s.tck.snapRefused 29 +
      (match (shownSnap s).snap with | some n => (Config.snapLength n.number).toNat | none => 0)
  | .tckSnapStitch => ((shownSnap s).snap.map (·.stitch)).getD 0
  | .tckOverrunStitch => s.tck.ovStitch
  | .tckOverrunInfo => s.tck.ovCheck % 4 * 256 + s.tck.ovBays.toNat
  | .tckCnt => (counter s 1 i).toNat
  | .tckSnapWindow => match (shownSnap s).snap with | some n => (Config.snapWord n.number (4 * i)).toNat | none => 0
  | _ => 0

/-- PWR, HBL and SPN. -/
def viewLink (s : State) (id : RegId) (i : Nat) : Nat :=
  let p := portAt s i
  let y := bayAt s i
  match id with
  | .pwrStatus => s.pwr.stage % 16 * 2 ^ 28 + s.pwr.throttle % 16 * 2 ^ 24 + flagAt s.pwr.capUnmet 23 + s.pwr.therm % 8 * 2 ^ 20
  | .pwrResetCause => s.pwr.resetCause.toNat
  | .pwrDomain => s.pwr.domDdr.toNat * 2 ^ 26 + s.pwr.domSerdes.toNat * 2 ^ 12 + s.pwr.domRdc.toNat * 16 + flagAt s.pwr.domCore 2 +
      flagAt s.pwr.domBdy 1 + 1
  | .pwrEst => twinCap s % 65536 * 65536 + s.pwr.est % 65536
  | .pwrBay => y.mode % 16 * 2 ^ 28 + y.req % 16 * 2 ^ 24 + flagAt y.enablePending.isSome 23 + flagAt y.exchange 22 + opusActive s i % 4 * 2 ^ 20 +
      y.bringup % 16 * 2 ^ 16 + speedLimit s i % 8192
  | .pwrBayCap => effShare s i % 65536
  | .pwrCnt => (counter s 2 i).toNat
  | .hblCnt => (counter s 3 i).toNat
  | .hblPortStatus =>
      (match p.landed <|> p.last with
        | some f => f.obeys.toNat * 2 ^ 30 + flagAt f.safeStop 29 + flagAt f.readySeen 28 + flagAt f.align 27 + f.misses.toNat * 2 ^ 16
        | none => 3 * 2 ^ 30) +
      p.lanes.toNat * 256 + min 255 p.absentRun
  | .hblPortLat => p.latNs.toNat
  | .hblPortEye => leNat (fit 5 p.eyes)
  | .hblPortId => wordOf ((portAt s (i / 12)).ident.getD []) (i % 12)
  | .spnStatus => s.spn.link % 4 * 2 ^ 30 + flagAt s.tck.master 29 + flagAt s.spn.peerAlive 28 + flagAt s.spn.peerLost 27 + flagAt s.spn.paired 26 +
      s.spn.lanes.toNat * 2 ^ 16 + (maskOf (runs s)).toNat * 256 + (maskOf (fun b => (pairAt s b).readySent)).toNat
  | .spnRtt => s.spn.rtt.toNat
  | .spnHbGap => min 65535 s.spn.missing
  | .spnCnt => (counter s 4 i).toNat
  | .spnBay => (pairAt s i).role % 4 * 2 ^ 30 + (if runs s i then 0 else causeOf s i % 32) * 2 ^ 20 + min 65535 (pairAt s i).hits
  | .spnHandover => (pairAt s i).handover
  | _ => 0

/-- Named cells whose bay meets a condition. -/
def cellCount (s : State) (p : Nat → Bool) : Nat := (s.cells.filter (fun e => e.2.named && p (e.2.opu / 2))).length

/-- Mask of the OPUs whose loop `l` shows the spike flag. -/
def spikeMask (s : State) (l : Nat) : Nat :=
  ((List.range 16).map (fun k => flagAt ((cellOf s k l).any (fun n => (cellAt s n).spike)) k)).sum

/-- Kinds of sequences (SRV_CELL_SEQ.KIND). -/
def SeqKind.code : SeqKind → Nat
  | .none => 0 | .acquire => 1 | .jump => 2 | .pullIn => 3 | .seek => 4

/-- SRV. -/
def viewSrv (s : State) (id : RegId) (i : Nat) : Nat :=
  let c := cellAt s i
  match id with
  | .srvStatus => cellCount s (shadows s) % 128 * 65536 + cellCount s (runs s) % 128
  | .srvSpike => spikeMask s 1 * 65536 + spikeMask s 0
  | .srvCnt => (counter s 5 i).toNat
  | .srvCellStatus =>
    c.st.code * 2 ^ 28 + flagAt c.fault 27 + c.cause % 8 * 2 ^ 24 + flagAt (c.named && runs s (c.opu / 2)) 23 +
      flagAt (c.named && shadows s (c.opu / 2)) 22 + min 4 c.queue.length * 2 ^ 19 + flagAt c.spike 18 + flagAt c.saturated 17 +
      min 255 c.cnt * 256 + c.opu % 16 * 16 + c.loop % 4 * 4 + c.result % 4
  | .srvCellOut => ux 16 c.u * 65536 + ux 16 c.e
  | .srvCellResid => ux 16 c.resid * 65536 + ux 16 c.yhat
  | .srvCellOffset => ux 16 c.sweep * 65536 + ux 16 c.cal
  | .srvCellTrial => ux 16 c.trial
  | .srvCellInteg => ux 40 c.iAcc
  | .srvCellSeq => c.seq.kind.code * 2 ^ 28 + min 4095 c.seq.stepSt * 65536 + ux 16 (if c.seq.kind = .seek then c.seq.d else c.seq.remain)
  | .srvCellEffect => c.effect
  | .srvCoef =>
    let x := cellAt s (i / 256)
    cw x (2 * (i % 256) + 1) * 65536 + cw x (2 * (i % 256))
  | _ => 0

/-- Code of an axis state (R176). -/
def AxisSt.code : AxisSt → Nat
  | .down => 0 | .unknown => 1 | .idle => 2 | .moving => 3 | .stopping => 4 | .homing => 5 | .parking => 6

/-- SPD and MOT. -/
def viewDrive (s : State) (id : RegId) (i : Nat) : Nat :=
  let u := unitAt s i
  let a := axisAt s i
  match id with
  | .spdGroupStatus => s.bus.tripped.toNat * 256 + s.bus.blocked.toNat
  | .spdCnt => (counter s 6 i).toNat
  | .spdUnitStatus =>
    u.st.code * 2 ^ 28 + flagAt u.fault 27 + u.cause % 8 * 2 ^ 24 + flagAt u.locked 23 + flagAt u.capped 22 + flagAt (decide (u.idRef < 0)) 21 +
      (u.attempt - 1) % 4 * 2 ^ 19 + u.result % 4 * 65536 + ux 16 (unitRpm (spdPar s i) u)
  | .spdUnitEmf => ux 16 u.idRef * 65536
  | .spdUnitTheta => u.theta.toNat
  | .spdUnitOmega => u.omega.toNat
  | .motCnt => (counter s 7 i).toNat
  | .motAxisStatus =>
    a.st.code * 2 ^ 28 + flagAt a.fault 27 + a.cause % 8 * 2 ^ 24 + flagAt a.pending.isSome 23 + flagAt a.follow 22 + a.result % 4 * 65536 +
      a.inBits % 64 * 1024 + a.phase % 1024
  | .motAxisPos => ux 64 a.p
  | _ => 0

/-- RDC and WRC. -/
def viewChan (s : State) (id : RegId) (i : Nat) : Nat :=
  let c := chanAt s i
  let o := opuAt s i
  match id with
  | .rdcMarkCfg => 0x42018
  | .rdcStatus => ((s.rdc.queue.map (fun q => cwNeed s q.1 q.2.1)).sum % 4096) * 65536 + s.rdc.busy % 16
  | .rdcCnt => (counter s 8 i).toNat
  | .rdcCellStatus =>
    c.st % 16 * 2 ^ 28 + c.opu % 16 * 2 ^ 24 + c.spot % 8 * 2 ^ 20 + flagAt c.shared 19 + c.gain % 64 * 256 + ux 7 c.offs
  | .rdcCellSqm => ux 8 c.sqmFolio * 2 ^ 24 + ux 8 c.sqmSeg * 65536 + min 65535 c.alarms
  | .rdcCellFreq => ux 16 c.freq
  | .rdcCellComb => c.wA % 256 * 2 ^ 24 + c.wB % 256 * 65536 + c.delay % 128
  | .rdcCellTap =>
    let x := chanAt s (i / 8)
    let k := i % 8
    (if k = 7 then 0 else ux 10 (x.taps.getD (2 * k + 1) 0)) * 65536 + ux 10 (x.taps.getD (2 * k) 0)
  | .wrcLaserCfg => classCode s % 16 * 256
  | .wrcStatus => s.wrc.encBusy % 64
  | .wrcCnt => (counter s 9 i).toNat
  | .wrcOpuStatus => o.laser % 4 * 2 ^ 30 + flagAt o.capBind 29 + o.emitter % 4 * 1024 + min 1023 o.headroom
  | .wrcSurfStatus => flagAt (surfWAt s i).readOnly 31 + (surfWAt s i).cause % 4 * 2 ^ 29 + min 255 (surfWAt s i).abandoned
  | _ => 0

/-- Strikes of a surface in the current window (R225). -/
def liveStrikes (s : State) (m : Nat) : Nat :=
  ((surfAt s m).strikes.filter (fun t => decide (now s < t + regBits s .qreSlowCfg 0 31 16 * Config.sec))).length

/-- QRE, CPH and KST. -/
def viewQuire (s : State) (id : RegId) (i : Nat) : Nat :=
  match id with
  | .qreStatus => s.qre.vol % 4 * 2 ^ 30 + s.qre.width % 32 * 2 ^ 23 + ((List.range 16).map (fun m => flagAt (s.qre.vol != 0 && writable s m) m)).sum
  | .qreVolume => s.qre.cur % 65536
  | .qreJournalQuire => journalQuires s
  | .qreJournalIngest => s.qre.ingest.length
  | .qreRebuild => s.qre.rebuild.length
  | .qreNextQuire => 2 ^ 63 * s.tck.twinId + s.qre.nextSeq
  | .qreCnt => (counter s 10 i).toNat
  | .qreCollateRow => (((s.qre.rows.getD i []).zip (List.range 16)).map (fun e => e.1 % 16 * 16 ^ e.2)).sum
  | .qreSurf => if s.qre.vol = 0 then 0 else surfState s i * 2 ^ 29 + min 15 (liveStrikes s i) * 2 ^ 24 + (surfAt s i).layer % 16 * 65536 + (surfAt s i).frame % 65536
  | .qreSurfGen => (surfAt s i).gen % 2 ^ 32
  | .cphStatus =>
    if s.pwr.domCore then s.cph.drbg % 4 * 2 ^ 30 + s.cph.retired.toNat * 256 + ((encryptLanes s).map (fun n => 2 ^ n)).sum else 0
  | .cphSeq => s.cph.seq
  | .cphSeqEnd => s.cph.seqEnd
  | .cphCnt => (counter s 11 i).toNat
  | .kstStatus => s.kst.result % 16 * 2 ^ 28 + lifeCycle s * 2 ^ 24 + (s.kst.slots.filter (fun e => e.2.st == 2)).length
  | .kstVoted => fwFloor s * 2 ^ 24 + bndFloor s * 65536 + (15 - votedFuses s.kst.laser) * 4096 + votedSpindle s / 100
  | .kstLcNonce => (s.kst.nonce.getD 0).toNat
  | .kstImportPub => if i = 24 then (Config.importPub (lifeCycle s) i).toNat % 256 else (Config.importPub (lifeCycle s) i).toNat
  | .kstCnt => (counter s 12 i).toNat
  | .kstSlot =>
    let k := slotAt s i
    k.kcv.toNat * 2 ^ 32 + k.st % 4 * 2 ^ 30 + flagAt k.write 29 + k.nsid % 64
  | _ => 0

/-- BND_STATUS.STATE: an armed container shows before one under check, one staged, and one being received; commits end at once. -/
def bndState (s : State) : Nat :=
  let xs := s.bnd.structural.toList ++ s.bnd.trim.toList
  if xs.any (fun x => x.armed.isSome) then 4 else if s.bnd.checking ≠ [] then 2 else if xs ≠ [] then 3 else if s.bnd.xfer.isSome then 1 else 0

/-- Zone trim of the current zone of an OPU, on a layer. -/
def currentTrim (s : State) (opu layer : Nat) : Int :=
  match look (portAt s (opu / 2)).addrFrame (opu % 2) with | some f => zoneTrim s opu layer (frameZone f) | none => 0

/-- MEM, CMD, CAL and BND. -/
def viewStore (s : State) (id : RegId) (i : Nat) : Nat :=
  let r := getD s.cal.recs {} i
  let b := s.bnd
  match id with
  | .memStatus => (if s.mem.dumping || s.mem.replaying then 3 else s.mem.vault % 4) * 2 ^ 30 + s.mem.dimm1 % 256 * 256 + s.mem.dimm0 % 256
  | .memWindow => windowEff s
  | .memDirty => dirtyBytes s
  | .memVaultRate => s.mem.rate
  | .memVaultArmed => armedBytes s
  | .memInjCtl => flagAt s.mem.injArmed 0
  | .memBurnCfg => min 65535 s.mem.burnLaps * 65536
  | .memEccAddr => s.mem.eccAddr
  | .memCnt => (counter s 13 i).toNat
  | .cmdStatus =>
    s.cmd.prot % 4 * 2 ^ 30 + flagAt (s.hiu.cmds.any (fun c => isWrite c && c.waitFrom.isSome)) 29 + flagAt s.cmd.fetchPaused 28 +
      min 262144 (s.hiu.cmds.filter (fun c => c.st != .fetched)).length
  | .cmdAdmitSeq => s.cmd.seq
  | .cmdCnt => (counter s 14 i).toNat
  | .calStatus =>
    ((List.range 16).map (fun k => flagAt (s.cal.jobs.any (fun j => j.opu == k)) (k + 16) +
      flagAt (s.cal.jobs.any (fun j => j.opu == k && j.running)) k)).sum
  | .calCnt => (counter s 15 i).toNat
  | .calLayer =>
    flagAt r.exhausted 31 + flagAt r.runOnly 30 + flagAt r.failed 29 + r.valid.toNat * 2 ^ 24 + r.nextRun % 256 * 65536 +
      ux 8 (currentTrim s (i / 16) (i % 16)) * 256
  | .bndStatus => b.lastResult % 256 * 65536 + flagAt b.trim.isSome 7 + flagAt b.structural.isSome 6 + bndState s
  | .bndActiveId => ((b.active.map (fun (x : Binding) => x.ident)).getD 0).toNat
  | .bndStagedId => ((match b.structural with | some x => x.parsed.ident | none => (b.trim.map (fun (x : Staged) => x.parsed.ident)).getD 0 : Dword)).toNat
  | .bndLoadDetail => b.detCode % 256 * 2 ^ 24 + b.detSection % 256 * 65536 + b.detRecord % 65536
  | .bndSource => b.affected.toNat * 256 + b.source % 4
  | .bndSlotBook => b.finish.getD i 0 % 65536 * 65536 + b.book.getD i 0 % 65536
  | .bndTotalBook => b.total * 1000 / 32000 % 65536 * 65536 + b.total % 65536
  | .bndActiveDigest => ((b.active.map (fun (x : Binding) => x.digest)).getD 0).toNat / 2 ^ (32 * i) % 2 ^ 32
  | _ => 0

/-- What a register reads as: its read/write fields in force and its read-only fields; fields written and not read are 0 (R4). -/
def regView (s : State) (r : RegRow) (i : Nat) : Nat :=
  (if r.rw = 0 then 0 else reg s r.id i &&& r.rw) + viewBdy s r.id i + viewLink s r.id i + viewSrv s r.id i + viewDrive s r.id i + viewChan s r.id i +
    viewQuire s r.id i + viewStore s r.id i

/-! ### BAR0 (R233, R385) -/

/-- CAP: MQES, CQR, AMS, TO, DSTRD, NSSRS, CSS, MPSMIN, MPSMAX as R233 gives them. -/
def capValue : Nat := 0x004008207803FFFF

/-- CSTS: RDY and CFS. -/
def cstsValue (c : Ctrl) : Nat := flagAt c.rdy 0 + flagAt c.cfs 1

/-- A word of the MSI-X table of a controller. -/
def msixWord (c : Ctrl) (v i : Nat) : Nat := (getD c.msix 0 v).toNat / 2 ^ (32 * i) % 2 ^ 32

/-- What a 32-bit read of a controller's BAR0 returns (R232, R233, R385): its registers, the MSI-X table, the pending bits; all else is 0. -/
def bar0Word (s : State) (n off : Nat) : Nat :=
  let c := ctrlAt s n
  let vectors := if s.tck.split then 1024 else 2048
  let half (v : Nat) (hi : Bool) : Nat := if hi then v / 2 ^ 32 else v % 2 ^ 32
  match off with
  | 0x00 => half capValue false
  | 0x04 => half capValue true
  | 0x08 => 0x00020000
  | 0x0C | 0x10 => c.intMask.toNat
  | 0x14 => c.cc.toNat
  | 0x1C => cstsValue c
  | 0x24 => c.aqa.toNat
  | 0x28 => half c.asq.toNat false
  | 0x2C => half c.asq.toNat true
  | 0x30 => half c.acq.toNat false
  | 0x34 => half c.acq.toNat true
  | _ =>
    if 0xC0000 ≤ off ∧ off < 0xC0000 + 16 * vectors then msixWord c ((off - 0xC0000) / 16) (off % 16 / 4)
    else if 0xC8000 ≤ off ∧ off < 0xC8000 + vectors / 8 then
      ((List.range 32).map (fun i => flagAt (c.pendingBits.contains (8 * (off - 0xC8000) + i)) i)).sum
    else 0

/-! ### Reads (R3 to R5) -/

/-- Effects of a read: KST_LC_NONCE is fresh at each read (R339); the last word of a mailbox response read ends it (R364). -/
def readEffect (s : State) (id : RegId) (i : Nat) : State :=
  match id with
  | .kstLcNonce => drawNonce s
  | .bdyMboxRsp => if 4 * i < s.bdy.mboxLen ∧ s.bdy.mboxLen ≤ 4 * i + 4 then { s with bdy := { s.bdy with mboxReady := false } } else s
  | _ => s

/-- A read of BAR2: the value returned, and the state after it. -/
def readBar (s : State) (off width : Nat) : State × Nat :=
  match s.splitLatch with
  | some (o, v) =>
    if o = off ∧ width = 4 then ({ s with splitLatch := none }, v.toNat)
    else readLive { s with splitLatch := none } off width
  | none => readLive s off width
where
  /-- A read with no latch held for it. -/
  readLive (s : State) (off width : Nat) : State × Nat :=
    match findReg off with
    | some (r, i) =>
      if width = r.bytes then
        let t := readEffect s r.id i
        (t, regView t r i)
      else if width = 4 then
        let t := readEffect s r.id i
        let v := regView t r i
        ({ t with splitLatch := some (off + 4, BitVec.ofNat 32 (v / 2 ^ 32)) }, v % 2 ^ 32)
      else (s, 0)
    | none =>
      if off < 4 ∨ width ≠ 4 then (s, 0)
      else match findReg (off - 4) with
        | some (r, i) =>
          if r.wide then
            let t := readEffect s r.id i
            (t, regView t r i / 2 ^ 32)
          else (s, 0)
        | none => (s, 0)

/-- SPLIT_READ_LATCH: a host read of BAR2, of the width given in bytes: a read of the low word of a 64-bit register latches its high word for
the next read (R5). -/
def execSplitReadLatch (offset width : Nat) (s : State) : Out :=
  let x := readBar s offset width
  .next { x.1 with hostRead := BitVec.ofNat 64 x.2 }

/-! ### Writes (R3, R4, R6, R24) -/

/-- Store a read/write register: reserved bits are dropped; a value out of range, or looser than R24 allows, leaves the register as it is. -/
def storeReg (s : State) (r : RegRow) (i v : Nat) : State :=
  let w := v &&& r.rw
  if inRange r.id w ∧ tightest r.id i (reg s r.id i) w = w then setReg s r.id i w else s

/-- A configuration word of a spindle unit, queued for its effect stitch (R171); the owner alone accepts it. -/
def writeUnit (s : State) (r : RegRow) (n word v : Nat) : State :=
  let w := v &&& r.rw
  let u := unitAt s n
  if !inRange r.id w then s
  else if !runs s n then unitResult s n 2
  else if 4 ≤ u.queue.length then unitResult s n 1
  else
    let e := effectOf s (reg s .spdUnitCtlAt n)
    let s := setUnit s n { u with queue := enqueue u.queue { op := 16 + word, arg := w, effect := e }, result := 0 }
    if h : n < 8 then issue s (.unit ⟨n, h⟩) (16 + word) w e else s

/-- A configuration word of an axis, queued for its effect stitch (R171, R179); a sled's EDEC is not lowered (R24). -/
def writeAxis (s : State) (r : RegRow) (n word v : Nat) : State :=
  let w := v &&& r.rw
  let a := axisAt s n
  if !runs s (axisBay n) ∨ tightest r.id n (reg s r.id n) w ≠ w then axisResult s n 2
  else if 4 ≤ a.queue.length then axisResult s n 1
  else
    let e := effectOf s (reg s .motAxisCtlAt n)
    let s := setAxis s n { a with queue := enqueue a.queue { op := 16 + word, arg := w, effect := e }, result := 0 }
    if h : n < 32 then issue s (.axis ⟨n, h⟩) (16 + word) w e else s

/-- SRV_CELL_CTL: CLOSE, OPEN, JUMP, SEEK, OFFSET; other operations are ignored. -/
def writeCellCtl (s : State) (src : Src) (n v : Nat) : State :=
  let arg := v % 2 ^ 28
  let c := cellAt s n
  match v / 2 ^ 28 with
  | 1 => acceptCell s n src 1 0 (inHold s (c.opu / 2))
  | 2 => acceptCell s n src 2 0 false
  | 3 => acceptCell s n src 3 (arg % 512) (c.loop != 0)
  | 4 => acceptCell s n src 4 (arg % 2 ^ 24) (c.loop != 1 || decide (sw c 5 < (sx 24 arg).natAbs))
  | 5 => acceptCell s n src 5 (arg % 2 ^ 18) (bits arg 17 16 == 3)
  | _ => s

/-- SPD_UNIT_CTL: START, STOP, SPEED, CLEAR; other operations are ignored. -/
def writeUnitCtl (s : State) (src : Src) (n v : Nat) : State :=
  match v / 2 ^ 28 with
  | 1 => acceptUnit s n src 1 (v % 2 ^ 13)
  | 2 => acceptUnit s n src 2 (v % 2)
  | 3 => acceptUnit s n src 3 (v % 2 ^ 13)
  | 4 => acceptUnit s n src 4 0
  | _ => s

/-- MOT_AXIS_CTL: MOVE to CLEAR; other operations are ignored. -/
def writeAxisCtl (s : State) (src : Src) (n v : Nat) : State :=
  let op := v / 2 ^ 28
  if op = 0 ∨ 7 < op then s else acceptAxis s n src op (if op = 1 then v % 2 ^ 20 else 0)

/-- CLR_CNT of a block, where the bit is written 1 (R386). -/
def clrCnt (s : State) (blk : Nat) (c : Bool) : State := if c then clearCounters s blk else s

/-- BND_CTL: ABORT, CHECK, ARM in this order (R35). -/
def writeBndCtl (s : State) (v : Nat) : State :=
  let s := if v.testBit 2 then abortAll s else s
  if v.testBit 0 then checkWindow s (v.testBit 1)
  else if v.testBit 1 then (arm s (reg s .bndCommitStitch)).1 else s

/-- SPN_CTL: AUTO_RETURN, then RETURN and RESYNC. -/
def writeSpnCtl (s : State) (r : RegRow) (v : Nat) : State :=
  askResync (askReturn (storeReg (clrCnt s 4 (v.testBit 0)) r 0 v) (BitVec.ofNat 8 (v / 65536))) (BitVec.ofNat 8 (v / 2 ^ 24))

/-- TCK_SNAP_CTL: PAIR is stored, RELEASE acts before REQ. -/
def writeSnapCtl (s : State) (r : RegRow) (v : Nat) : State :=
  let s := storeReg s r 0 v
  let s := if v.testBit 2 then releaseSnapshot s else s
  if v.testBit 0 then requestSnapshot s (v.testBit 1) else s

/-- QRE_CTL: REBUILD_PAUSE is stored; FILE_NOW, MOUNT, UNMOUNT act in this order. -/
def writeQreCtl (s : State) (r : RegRow) (v : Nat) : State :=
  let s := storeReg (clrCnt s 10 (v.testBit 0)) r 0 v
  let s := if v.testBit 2 then fileNow s else s
  let s := if v.testBit 3 then beginMount s else s
  if v.testBit 4 then askUnmount s else s

/-- KST_CTL: IMPORT, then CLEAR. -/
def writeKstCtl (s : State) (v : Nat) : State :=
  let s := clrCnt s 12 (v.testBit 0)
  let s := if v.testBit 1 then importKey s else s
  if v.testBit 2 then clearSlot s (bits v 26 16) else s

/-- The message in BDY_MBOX_REQ, as long as its header says. -/
def postedMail (s : State) : Bytes := winBytes s.bdy.mboxReq 0 (min 4096 (16 + leNat (winBytes s.bdy.mboxReq 8 4)))

/-- What a write of a register does, at its own offset and width. -/
def writeReg (s : State) (src : Src) (r : RegRow) (i v : Nat) : State :=
  match r.id with
  | .bdyCtl => clrCnt s 0 (v.testBit 0)
  | .bdyMboxCtl => if v.testBit 0 then postMail s (postedMail s) else s
  | .bdyMboxReq => { s with bdy := { s.bdy with mboxReq := winWrite s.bdy.mboxReq (4 * i) (natLe 4 v) } }
  | .tckCtl => clrCnt s 1 (v.testBit 0)
  | .tckSnapCtl => writeSnapCtl s r v
  | .pwrCtl => clrCnt s 2 (v.testBit 0)
  | .pwrResetCause => { s with pwr := { s.pwr with resetCause := s.pwr.resetCause &&& ~~~ (BitVec.ofNat 7 v) } }
  | .hblCtl => clrCnt s 3 (v.testBit 0)
  | .spnCtl => writeSpnCtl s r v
  | .srvCtl => clrCnt s 5 (v.testBit 0)
  | .srvCellCtl => writeCellCtl s src i v
  | .spdCtl => clrCnt s 6 (v.testBit 0)
  | .spdUnitCtl => writeUnitCtl s src i v
  | .spdUnitMotor => writeUnit s r i 4 v
  | .spdUnitStart => writeUnit s r i 5 v
  | .spdUnitLimits => writeUnit s r i 6 v
  | .spdUnitBrake => writeUnit s r i 7 v
  | .spdUnitGain => writeUnit s r (i / 3) (8 + i % 3) v
  | .spdUnitEmf => writeUnit s r i 11 v
  | .motCtl => clrCnt s 7 (v.testBit 0)
  | .motAxisCtl => writeAxisCtl s src i v
  | .motAxisVmax => writeAxis s r i 6 v
  | .motAxisAmax => writeAxis s r i 7 v
  | .motAxisJmax => writeAxis s r i 8 v
  | .motAxisEdec => writeAxis s r i 9 v
  | .motAxisCfg => writeAxis s r i 10 v
  | .motAxisFollow => writeAxis s r i 11 v
  | .motAxisFollowV => writeAxis s r i 12 v
  | .motAxisHomeOff => writeAxis s r i 13 v
  | .rdcCtl => storeReg (clrCnt s 8 (v.testBit 3)) r i v
  | .wrcCtl => clearLaser (clrCnt s 9 (v.testBit 0)) (BitVec.ofNat 16 (v / 65536))
  | .qreCtl => writeQreCtl s r v
  | .qreSurfCtl => if v.testBit 0 then clearFail s i else s
  | .cphCtl => clrCnt s 11 (v.testBit 0)
  | .kstCtl => writeKstCtl s v
  | .kstImportWindow => { s with kst := { s.kst with importWin := winWrite s.kst.importWin (4 * i) (natLe 4 v) } }
  | .memCtl => storeReg (clrCnt s 13 (v.testBit 0)) r i v
  | .memInjCtl => writeInjCtl s v
  | .memInjMask | .memInjAddr => if s.mem.dumping ∨ s.mem.replaying then s else storeReg s r i v
  | .memMcLock => writeMcLock s v
  | .cmdCtl => clrCnt s 14 (v.testBit 0)
  | .calCtl => storeReg (clrCnt s 15 (v.testBit 0)) r i v
  | .calReq => requestCal s (bits v 31 28) (bits v 27 24) (bits v 23 20)
  | .bndCtl => writeBndCtl s v
  | .bndStageWindow => { s with bnd := { s.bnd with stageWin := winWrite s.bnd.stageWin (4 * i) (natLe 4 v) } }
  | _ => if r.rw = 0 then s else storeReg s r i v

/-- A write of BAR2 outside the Sealed state: one that is misaligned, not of the register's width, or to an unassigned offset does nothing
(R3, R4). -/
def writeBar (s : State) (src : Src) (off width v : Nat) : State :=
  match findReg off with
  | some (r, i) => if width = r.bytes then writeReg s src r i (v % 2 ^ (8 * r.bytes)) else s
  | none => s

/-- Registers of the mailbox that stay writable in the Sealed state (R6). -/
def mailboxOffset (off : Nat) : Bool := off == 0xC || (decide (0x10000 ≤ off) && decide (off < 0x11000))

/-- REGISTER_WRITE: a host write of BAR2, of the width given in bytes. -/
def execRegisterWrite (offset width : Nat) (value : Dword) (s : State) : Out :=
  if barSealed s && !mailboxOffset offset then .next s else .next (writeBar s .host offset width value.toNat)

/-! ### The domain request (R364) -/

/-- Blocks that a domain request may not write, and the injection registers. -/
def requestRefused (off : Nat) : Bool :=
  decide (off < 0x400000) || (decide (0x1500000 ≤ off) && decide (off < 0x1600000)) || decide (0x1C00000 ≤ off) ||
    (decide (0x1600030 ≤ off) && decide (off < 0x1600048))

/-- DOMAIN_REQUEST: a BAR2 write through the mailbox, with the effect of a host write outside the Sealed state. -/
def execDomainRequest (tag : Word) (offset : Word) (value : Dword) (width : Byte) (s : State) : Out :=
  if !inHand s 6 tag (natLe 4 offset.toNat ++ natLe 8 value.toNat ++ [width]) then .next s
  else if lifeRetired s || requestRefused offset.toNat then .next (respond s 6 tag 3)
  else .next (respond (writeBar s .domain offset.toNat width.toNat value.toNat) 6 tag 0)

end Sys2Proof.Machine
end

