-- ==== Sys2Proof/Machine/Dispatch.lean ====
section
/-! DEFINITION. One arm per command: its meaning on everything but the queue. -/

namespace Sys2Proof.Machine

/-- The effect of a command on the state (the queue apart). -/
def exec (i : Instr) (s : State) : Host.Outcome State Fault Refusal :=
  match i with
  | .powerOnReset => Sys2Proof.Machine.execPowerOnReset s
  | .warmReset cause => Sys2Proof.Machine.execWarmReset cause s
  | .perstN port => Sys2Proof.Machine.execPerstN port s
  | .stitchEdge inp => Sys2Proof.Machine.execStitchEdge inp s
  | .sampleFrameLand f crcOk => Sys2Proof.Machine.execSampleFrameLand f crcOk s
  | .sampleFrameAbsent bay => Sys2Proof.Machine.execSampleFrameAbsent bay s
  | .absentStop bay => Sys2Proof.Machine.execAbsentStop bay s
  | .spotPacket bay spot stitch16 offset samples crcOk => Sys2Proof.Machine.execSpotPacket bay spot stitch16 offset samples crcOk s
  | .stitchOverrun bays check => Sys2Proof.Machine.execStitchOverrun bays check s
  | .plausibilityAction cell => Sys2Proof.Machine.execPlausibilityAction cell s
  | .alignmentFault => Sys2Proof.Machine.execAlignmentFault s
  | .snapshotRequest pair => Sys2Proof.Machine.execSnapshotRequest pair s
  | .snapshotCapture => Sys2Proof.Machine.execSnapshotCapture s
  | .snapshotRelease => Sys2Proof.Machine.execSnapshotRelease s
  | .bindingLoad r offset chunk last => Sys2Proof.Machine.execBindingLoad r offset chunk last s
  | .bndCheck => Sys2Proof.Machine.execBndCheck s
  | .bndAbort => Sys2Proof.Machine.execBndAbort s
  | .bndArm => Sys2Proof.Machine.execBndArm s
  | .bindingActivate r commit => Sys2Proof.Machine.execBindingActivate r commit s
  | .bindingCheckDone => Sys2Proof.Machine.execBindingCheckDone s
  | .bindingPairTimeout => Sys2Proof.Machine.execBindingPairTimeout s
  | .trimCommit => Sys2Proof.Machine.execTrimCommit s
  | .structuralCommit => Sys2Proof.Machine.execStructuralCommit s
  | .srvClose cell src => Sys2Proof.Machine.execSrvClose cell src s
  | .srvOpen cell src => Sys2Proof.Machine.execSrvOpen cell src s
  | .srvJump cell src target present given => Sys2Proof.Machine.execSrvJump cell src target present given s
  | .srvSeek cell src tracks => Sys2Proof.Machine.execSrvSeek cell src tracks s
  | .srvOffset cell src component value => Sys2Proof.Machine.execSrvOffset cell src component value s
  | .effectStitchReached obj => Sys2Proof.Machine.execEffectStitchReached obj s
  | .searchTimeout cell => Sys2Proof.Machine.execSearchTimeout cell s
  | .jumpKickEnd cell => Sys2Proof.Machine.execJumpKickEnd cell s
  | .jumpBrakeEnd cell => Sys2Proof.Machine.execJumpBrakeEnd cell s
  | .jumpDwellEnd cell => Sys2Proof.Machine.execJumpDwellEnd cell s
  | .jumpSettleEnd cell => Sys2Proof.Machine.execJumpSettleEnd cell s
  | .jumpTimeout cell => Sys2Proof.Machine.execJumpTimeout cell s
  | .seekKickEnd cell => Sys2Proof.Machine.execSeekKickEnd cell s
  | .seekCaptureWindowEnd cell => Sys2Proof.Machine.execSeekCaptureWindowEnd cell s
  | .seekSettleEnd cell => Sys2Proof.Machine.execSeekSettleEnd cell s
  | .seekTimeout cell => Sys2Proof.Machine.execSeekTimeout cell s
  | .holdMaxExpiry cell => Sys2Proof.Machine.execHoldMaxExpiry cell s
  | .holdRelease cell => Sys2Proof.Machine.execHoldRelease cell s
  | .retractComplete cell => Sys2Proof.Machine.execRetractComplete cell s
  | .spdStart unit src rpm => Sys2Proof.Machine.execSpdStart unit src rpm s
  | .spdStop unit src coast => Sys2Proof.Machine.execSpdStop unit src coast s
  | .spdSpeed unit src rpm => Sys2Proof.Machine.execSpdSpeed unit src rpm s
  | .spdClear unit src => Sys2Proof.Machine.execSpdClear unit src s
  | .senseComplete unit => Sys2Proof.Machine.execSenseComplete unit s
  | .alignComplete unit => Sys2Proof.Machine.execAlignComplete unit s
  | .rampTimeout unit => Sys2Proof.Machine.execRampTimeout unit s
  | .startBrakeEnd unit => Sys2Proof.Machine.execStartBrakeEnd unit s
  | .backwardBrakeTimeout unit => Sys2Proof.Machine.execBackwardBrakeTimeout unit s
  | .lossOfSync unit => Sys2Proof.Machine.execLossOfSync unit s
  | .spindleLock unit => Sys2Proof.Machine.execSpindleLock unit s
  | .spindleUnlock unit => Sys2Proof.Machine.execSpindleUnlock unit s
  | .overspeedFault unit => Sys2Proof.Machine.execOverspeedFault unit s
  | .standstill unit => Sys2Proof.Machine.execStandstill unit s
  | .shortBrakeComplete unit => Sys2Proof.Machine.execShortBrakeComplete unit s
  | .busBlockClear group => Sys2Proof.Machine.execBusBlockClear group s
  | .busTrip group => Sys2Proof.Machine.execBusTrip group s
  | .inertiaMeasured unit => Sys2Proof.Machine.execInertiaMeasured unit s
  | .motMove axis src target => Sys2Proof.Machine.execMotMove axis src target s
  | .motRampStop axis src => Sys2Proof.Machine.execMotRampStop axis src s
  | .motHardStop axis src => Sys2Proof.Machine.execMotHardStop axis src s
  | .motHome axis src => Sys2Proof.Machine.execMotHome axis src s
  | .motRelease axis src => Sys2Proof.Machine.execMotRelease axis src s
  | .motEnergise axis src => Sys2Proof.Machine.execMotEnergise axis src s
  | .motClear axis src => Sys2Proof.Machine.execMotClear axis src s
  | .homingTimeout axis => Sys2Proof.Machine.execHomingTimeout axis s
  | .followMoveStart axis => Sys2Proof.Machine.execFollowMoveStart axis s
  | .folioReadRequest r => Sys2Proof.Machine.execFolioReadRequest r s
  | .readPassStart tag => Sys2Proof.Machine.execReadPassStart tag s
  | .timingLockLoss cell => Sys2Proof.Machine.execTimingLockLoss cell s
  | .folioReadEnd tag slot => Sys2Proof.Machine.execFolioReadEnd tag slot s
  | .codewordDispatch => Sys2Proof.Machine.execCodewordDispatch s
  | .ldpcDecodeDone tag slot => Sys2Proof.Machine.execLdpcDecodeDone tag slot s
  | .readDeadlineExpiry tag => Sys2Proof.Machine.execReadDeadlineExpiry tag s
  | .reconstructionDone quire row known rebuild => Sys2Proof.Machine.execReconstructionDone quire row known rebuild s
  | .writeRunStart quire leaf reserve => Sys2Proof.Machine.execWriteRunStart quire leaf reserve s
  | .encoderUnderrun opu slot => Sys2Proof.Machine.execEncoderUnderrun opu slot s
  | .folioVerdict opu slot => Sys2Proof.Machine.execFolioVerdict opu slot s
  | .laserReeval mask => Sys2Proof.Machine.execLaserReeval mask s
  | .quireAgeTimeout quire => Sys2Proof.Machine.execQuireAgeTimeout quire s
  | .journalCommitDone quire => Sys2Proof.Machine.execJournalCommitDone quire s
  | .directoryAgeTimeout => Sys2Proof.Machine.execDirectoryAgeTimeout s
  | .fileNow => Sys2Proof.Machine.execFileNow s
  | .mount => Sys2Proof.Machine.execMount s
  | .mountCatalogueReadDone found rows collDigest records amends => Sys2Proof.Machine.execMountCatalogueReadDone found rows collDigest records amends s
  | .unmount => Sys2Proof.Machine.execUnmount s
  | .rebuildPause hold => Sys2Proof.Machine.execRebuildPause hold s
  | .clearFail surface => Sys2Proof.Machine.execClearFail surface s
  | .rebuildStart => Sys2Proof.Machine.execRebuildStart s
  | .calibrationRunStart opu layer kind blank => Sys2Proof.Machine.execCalibrationRunStart opu layer kind blank s
  | .calibrationRunDone opu layer kind codes => Sys2Proof.Machine.execCalibrationRunDone opu layer kind codes s
  | .calStep opu => Sys2Proof.Machine.execCalStep opu s
  | .calElapsedTimer opc => Sys2Proof.Machine.execCalElapsedTimer opc s
  | .calReq kind opu layer => Sys2Proof.Machine.execCalReq kind opu layer s
  | .laneRetrain port lane => Sys2Proof.Machine.execLaneRetrain port lane s
  | .sqTailDoorbell ctrl qid tail => Sys2Proof.Machine.execSqTailDoorbell ctrl qid tail s
  | .cqHeadDoorbell ctrl qid head => Sys2Proof.Machine.execCqHeadDoorbell ctrl qid head s
  | .controllerEnable ctrl cc aqa asq acq => Sys2Proof.Machine.execControllerEnable ctrl cc aqa asq acq s
  | .controllerReset ctrl => Sys2Proof.Machine.execControllerReset ctrl s
  | .interruptMaskSet ctrl mask => Sys2Proof.Machine.execInterruptMaskSet ctrl mask s
  | .interruptMaskClear ctrl mask => Sys2Proof.Machine.execInterruptMaskClear ctrl mask s
  | .commandFetch ctrl qid entries => Sys2Proof.Machine.execCommandFetch ctrl qid entries s
  | .commandAdmission r lateU => Sys2Proof.Machine.execCommandAdmission r lateU s
  | .writeDataFetch r blocks => Sys2Proof.Machine.execWriteDataFetch r blocks s
  | .backpressureTimeout r => Sys2Proof.Machine.execBackpressureTimeout r s
  | .cipherBlockDone lane r block agree => Sys2Proof.Machine.execCipherBlockDone lane r block agree s
  | .blockDecryptDone lane r block slot tagOk refOk hostChk fromBuffer final => Sys2Proof.Machine.execBlockDecryptDone lane r block slot tagOk refOk hostChk fromBuffer final s
  | .writeAckPoint r => Sys2Proof.Machine.execWriteAckPoint r s
  | .read r => Sys2Proof.Machine.execRead r s
  | .write r => Sys2Proof.Machine.execWrite r s
  | .flush r => Sys2Proof.Machine.execFlush r s
  | .verify r => Sys2Proof.Machine.execVerify r s
  | .zoneAppend r => Sys2Proof.Machine.execZoneAppend r s
  | .zoneOpen r sel => Sys2Proof.Machine.execZoneOpen r sel s
  | .zoneClose r sel => Sys2Proof.Machine.execZoneClose r sel s
  | .zoneFinish r sel => Sys2Proof.Machine.execZoneFinish r sel s
  | .zoneReset r sel => Sys2Proof.Machine.execZoneReset r sel s
  | .zoneOffline r => Sys2Proof.Machine.execZoneOffline r s
  | .zoneSetDescriptorExtension r => Sys2Proof.Machine.execZoneSetDescriptorExtension r s
  | .zoneManagementReceive r => Sys2Proof.Machine.execZoneManagementReceive r s
  | .createIoSq r qid size cqid => Sys2Proof.Machine.execCreateIoSq r qid size cqid s
  | .createIoCq r qid size vector ien => Sys2Proof.Machine.execCreateIoCq r qid size vector ien s
  | .deleteIoSq r qid => Sys2Proof.Machine.execDeleteIoSq r qid s
  | .deleteIoCq r qid => Sys2Proof.Machine.execDeleteIoCq r qid s
  | .identify r cns nsid => Sys2Proof.Machine.execIdentify r cns nsid s
  | .getLogPage r lid offset length => Sys2Proof.Machine.execGetLogPage r lid offset length s
  | .abort r sqid cid => Sys2Proof.Machine.execAbort r sqid cid s
  | .setFeatures r f value save => Sys2Proof.Machine.execSetFeatures r f value save s
  | .getFeatures r f sel => Sys2Proof.Machine.execGetFeatures r f sel s
  | .asyncEventRequest r => Sys2Proof.Machine.execAsyncEventRequest r s
  | .namespaceCreate r n => Sys2Proof.Machine.execNamespaceCreate r n s
  | .namespaceDelete r nsid => Sys2Proof.Machine.execNamespaceDelete r nsid s
  | .namespaceAttachment r nsid ctrls attach => Sys2Proof.Machine.execNamespaceAttachment r nsid ctrls attach s
  | .firmwareImageDownload r offset data => Sys2Proof.Machine.execFirmwareImageDownload r offset data s
  | .fwCommitReplace r slot => Sys2Proof.Machine.execFwCommitReplace r slot s
  | .fwCommitReplacePending r slot => Sys2Proof.Machine.execFwCommitReplacePending r slot s
  | .fwCommitPending r slot => Sys2Proof.Machine.execFwCommitPending r slot s
  | .fwCommitActivate r slot => Sys2Proof.Machine.execFwCommitActivate r slot s
  | .fetchPauseHandoff => Sys2Proof.Machine.execFetchPauseHandoff s
  | .activationTimeout => Sys2Proof.Machine.execActivationTimeout s
  | .mailboxPost r msg => Sys2Proof.Machine.execMailboxPost r msg s
  | .mailboxFetch r length => Sys2Proof.Machine.execMailboxFetch r length s
  | .modeSet r mask code => Sys2Proof.Machine.execModeSet r mask code s
  | .modeChangeEffect opu => Sys2Proof.Machine.execModeChangeEffect opu s
  | .holdWaitExpiry bay => Sys2Proof.Machine.execHoldWaitExpiry bay s
  | .holdReached bay => Sys2Proof.Machine.execHoldReached bay s
  | .bayReset r bay => Sys2Proof.Machine.execBayReset r bay s
  | .leaveSafeStop r bay => Sys2Proof.Machine.execLeaveSafeStop r bay s
  | .discLoaded r bay => Sys2Proof.Machine.execDiscLoaded r bay s
  | .prepareExchange r bay => Sys2Proof.Machine.execPrepareExchange r bay s
  | .colophonRead r first count => Sys2Proof.Machine.execColophonRead r first count s
  | .bayBringupStep bay => Sys2Proof.Machine.execBayBringupStep bay s
  | .spindleHandoff bay => Sys2Proof.Machine.execSpindleHandoff bay s
  | .powerWindow est temps volts ppm refs => Sys2Proof.Machine.execPowerWindow est temps volts ppm refs s
  | .thermalShutdown => Sys2Proof.Machine.execThermalShutdown s
  | .thermalTrip => Sys2Proof.Machine.execThermalTrip s
  | .powerFailDetect => Sys2Proof.Machine.execPowerFailDetect s
  | .vaultDone => Sys2Proof.Machine.execVaultDone s
  | .vaultReplayDone control dropped => Sys2Proof.Machine.execVaultReplayDone control dropped s
  | .replayedImageErase => Sys2Proof.Machine.execReplayedImageErase s
  | .vaultEraseDone bytes => Sys2Proof.Machine.execVaultEraseDone bytes s
  | .vaultGroupClose => Sys2Proof.Machine.execVaultGroupClose s
  | .vaultCommitDone => Sys2Proof.Machine.execVaultCommitDone s
  | .burnisherLine flips tagParity holds overtaken => Sys2Proof.Machine.execBurnisherLine flips tagParity holds overtaken s
  | .flipMaskArm ctl => Sys2Proof.Machine.execFlipMaskArm ctl s
  | .mapCacheLock value => Sys2Proof.Machine.execMapCacheLock value s
  | .heartbeatReceive h => Sys2Proof.Machine.execHeartbeatReceive h s
  | .heartbeatMissing => Sys2Proof.Machine.execHeartbeatMissing s
  | .spineLinkLost linkDown => Sys2Proof.Machine.execSpineLinkLost linkDown s
  | .spineLinkRestored => Sys2Proof.Machine.execSpineLinkRestored s
  | .spineLaneDrop lane => Sys2Proof.Machine.execSpineLaneDrop lane s
  | .pairing peerId serial digest single => Sys2Proof.Machine.execPairing peerId serial digest single s
  | .pairingBindingCheck container => Sys2Proof.Machine.execPairingBindingCheck container s
  | .aliveInDead => Sys2Proof.Machine.execAliveInDead s
  | .aliveInLive => Sys2Proof.Machine.execAliveInLive s
  | .resync mask => Sys2Proof.Machine.execResync mask s
  | .resyncCapture bay => Sys2Proof.Machine.execResyncCapture bay s
  | .statePacketReceive bay image => Sys2Proof.Machine.execStatePacketReceive bay image s
  | .resyncTimeout bay => Sys2Proof.Machine.execResyncTimeout bay s
  | .overrunPacketReceive bay stitch => Sys2Proof.Machine.execOverrunPacketReceive bay stitch s
  | .mirrorDataReceive twin seq nsid slba blocks classU => Sys2Proof.Machine.execMirrorDataReceive twin seq nsid slba blocks classU s
  | .journalRecordReceive rec_ => Sys2Proof.Machine.execJournalRecordReceive rec_ s
  | .mirrorAckReceive seq => Sys2Proof.Machine.execMirrorAckReceive seq s
  | .forwardedCommandReceive f => Sys2Proof.Machine.execForwardedCommandReceive f s
  | .forwardedCompletionReceive r st dw0 data => Sys2Proof.Machine.execForwardedCompletionReceive r st dw0 data s
  | .peerLeafRequest quire leaf surface => Sys2Proof.Machine.execPeerLeafRequest quire leaf surface s
  | .peerLeafReply quire leaf layer frame gen => Sys2Proof.Machine.execPeerLeafReply quire leaf layer frame gen s
  | .peerLeafVerdict quire leaf verified counted => Sys2Proof.Machine.execPeerLeafVerdict quire leaf verified counted s
  | .managementPacketReceive m => Sys2Proof.Machine.execManagementPacketReceive m s
  | .handBackRequest mask => Sys2Proof.Machine.execHandBackRequest mask s
  | .handBackStart bay => Sys2Proof.Machine.execHandBackStart bay s
  | .handoverStitch bay => Sys2Proof.Machine.execHandoverStitch bay s
  | .kcvMatch slot kcv => Sys2Proof.Machine.execKcvMatch slot kcv s
  | .keyImport => Sys2Proof.Machine.execKeyImport s
  | .keySlotClear slot => Sys2Proof.Machine.execKeySlotClear slot s
  | .lcNonceRead => Sys2Proof.Machine.execLcNonceRead s
  | .lifecycleTransition tag body => Sys2Proof.Machine.execLifecycleTransition tag body s
  | .lifecycleCommit => Sys2Proof.Machine.execLifecycleCommit s
  | .mailboxKeyImport tag blob => Sys2Proof.Machine.execMailboxKeyImport tag blob s
  | .lowerVotedLimit tag which fuses => Sys2Proof.Machine.execLowerVotedLimit tag which fuses s
  | .newWriteSlot tag nsid slot => Sys2Proof.Machine.execNewWriteSlot tag nsid slot s
  | .endsheetOwnerSection tag offset last data => Sys2Proof.Machine.execEndsheetOwnerSection tag offset last data s
  | .domainRequest tag offset value width => Sys2Proof.Machine.execDomainRequest tag offset value width s
  | .mailboxResponseRead => Sys2Proof.Machine.execMailboxResponseRead s
  | .votedWordMismatch word a b c => Sys2Proof.Machine.execVotedWordMismatch word a b c s
  | .drbgReseed => Sys2Proof.Machine.execDrbgReseed s
  | .entropyHealthFail => Sys2Proof.Machine.execEntropyHealthFail s
  | .entropyRecover => Sys2Proof.Machine.execEntropyRecover s
  | .lockstepMismatch => Sys2Proof.Machine.execLockstepMismatch s
  | .bayRelease => Sys2Proof.Machine.execBayRelease s
  | .bayReleaseEnd => Sys2Proof.Machine.execBayReleaseEnd s
  | .eventLogPageWrite => Sys2Proof.Machine.execEventLogPageWrite s
  | .bfeIdentityAssembled bay => Sys2Proof.Machine.execBfeIdentityAssembled bay s
  | .headbandPortUp port latNs => Sys2Proof.Machine.execHeadbandPortUp port latNs s
  | .bfeEdge bay port0 port1 frameOffsetNs => Sys2Proof.Machine.execBfeEdge bay port0 port1 frameOffsetNs s
  | .bfeHoldExpiry bay other => Sys2Proof.Machine.execBfeHoldExpiry bay other s
  | .mctpSetEndpointId eid => Sys2Proof.Machine.execMctpSetEndpointId eid s
  | .mctpGetEndpointId => Sys2Proof.Machine.execMctpGetEndpointId s
  | .mctpGetVersionSupport type => Sys2Proof.Machine.execMctpGetVersionSupport type s
  | .mctpGetMessageTypeSupport => Sys2Proof.Machine.execMctpGetMessageTypeSupport s
  | .pldmFirmwareUpdate component offset data activate => Sys2Proof.Machine.execPldmFirmwareUpdate component offset data activate s
  | .nvmeMiReadDataStructure kind => Sys2Proof.Machine.execNvmeMiReadDataStructure kind s
  | .nvmeMiHealthStatusPoll ctrl => Sys2Proof.Machine.execNvmeMiHealthStatusPoll ctrl s
  | .nvmeMiConfigurationGet id => Sys2Proof.Machine.execNvmeMiConfigurationGet id s
  | .nvmeMiConfigurationSet id value => Sys2Proof.Machine.execNvmeMiConfigurationSet id value s
  | .nvmeMiTunnelledAdmin opcode arg => Sys2Proof.Machine.execNvmeMiTunnelledAdmin opcode arg s
  | .spdmGetCertificate slot => Sys2Proof.Machine.execSpdmGetCertificate slot s
  | .spdmChallenge slot nonce => Sys2Proof.Machine.execSpdmChallenge slot nonce s
  | .spdmGetMeasurements index nonce => Sys2Proof.Machine.execSpdmGetMeasurements index nonce s
  | .splitReadLatch offset width => Sys2Proof.Machine.execSplitReadLatch offset width s
  | .resetCauseClear mask => Sys2Proof.Machine.execResetCauseClear mask s
  | .counterClear block => Sys2Proof.Machine.execCounterClear block s
  | .registerWrite offset width value => Sys2Proof.Machine.execRegisterWrite offset width value s
  | .resetRelease twinId split dimm0 dimm1 rate channels programs => Sys2Proof.Machine.execResetRelease twinId split dimm0 dimm1 rate channels programs s
  | .startupComplete => Sys2Proof.Machine.execStartupComplete s
  | .pairingTimeout => Sys2Proof.Machine.execPairingTimeout s
  | .powerFailClear => Sys2Proof.Machine.execPowerFailClear s
  | .spineLaneRestore lane => Sys2Proof.Machine.execSpineLaneRestore lane s
  | .headbandLaneLoss port lane => Sys2Proof.Machine.execHeadbandLaneLoss port lane s
  | .bfeReset bay => Sys2Proof.Machine.execBfeReset bay s
  | .timingLockDeclared cell => Sys2Proof.Machine.execTimingLockDeclared cell s
  | .timingLockRegained cell => Sys2Proof.Machine.execTimingLockRegained cell s
  | .activationFetchResume => Sys2Proof.Machine.execActivationFetchResume s

end Sys2Proof.Machine
end

