-- ==== Sys2Proof/Safety.lean ====
section
/-! DEFINITION. What a safe run is: the block answers a next state, its sorted stores keep their canonical form, and no ingest sequence is
given twice; the parts of the state, in which the frame of a command is said. -/

namespace Sys2Proof

open Machine

/-- The step answered a next state. -/
def Running (s : State) : Prop := ∃ t, step s = .next t

/-- The outcome is a next state with the property. -/
def Answers (P : State → Prop) (o : Out) : Prop := ∃ t, o = .next t ∧ P t

/-- The parts of the state other than the queue: its fields. -/
inductive Part where
  | free | regs | splitLatch | hostRead | cnt | tck | pwr | bays | ports | bfes | spn | out | cells | units | bus | axes | rdc | wrc | cal
    | qre | hiu | cmd | mem | kst | cph | bdy | bnd
deriving DecidableEq, Repr

/-- A part is the same in two states. -/
def Part.same (s t : State) : Part → Prop
  | .free => t.free = s.free
  | .regs => t.regs = s.regs
  | .splitLatch => t.splitLatch = s.splitLatch
  | .hostRead => t.hostRead = s.hostRead
  | .cnt => t.cnt = s.cnt
  | .tck => t.tck = s.tck
  | .pwr => t.pwr = s.pwr
  | .bays => t.bays = s.bays
  | .ports => t.ports = s.ports
  | .bfes => t.bfes = s.bfes
  | .spn => t.spn = s.spn
  | .out => t.out = s.out
  | .cells => t.cells = s.cells
  | .units => t.units = s.units
  | .bus => t.bus = s.bus
  | .axes => t.axes = s.axes
  | .rdc => t.rdc = s.rdc
  | .wrc => t.wrc = s.wrc
  | .cal => t.cal = s.cal
  | .qre => t.qre = s.qre
  | .hiu => t.hiu = s.hiu
  | .cmd => t.cmd = s.cmd
  | .mem => t.mem = s.mem
  | .kst => t.kst = s.kst
  | .cph => t.cph = s.cph
  | .bdy => t.bdy = s.bdy
  | .bnd => t.bnd = s.bnd

/-- Nothing but the listed parts differs, and the queue is the same. -/
def OnlyIn (parts : List Part) (s t : State) : Prop := t.pending = s.pending ∧ ∀ p, p ∉ parts → p.same s t

/-- The register store, the counters, DRAM and the byte windows are in canonical form: keys rise strictly, and (the register store apart) no
entry holds what an unlisted key reads as. -/
def Canonical (s : State) : Prop :=
  sortedT s.regs = true ∧ wfT 0 s.cnt = true ∧ wfT 0 s.mem.dram = true ∧ wfT 0 s.bdy.mboxReq = true ∧ wfT 0 s.bdy.mboxRsp = true ∧
    wfT 0 s.kst.importWin = true ∧ wfT 0 s.bnd.stageWin = true

/-- The ingest sequence is inside the range held, and the range held inside the one that NOR records (R326). -/
def SequenceReserved (s : State) : Prop := s.cph.seq ≤ s.cph.seqEnd ∧ s.cph.seqEnd ≤ s.cph.norEnd

/-- The ingest sequence does not fall, but where the vault epoch advances: a life-cycle transition, which wipes every key slot (R326, R342). -/
def SequenceRises (s t : State) : Prop := s.mem.epoch < t.mem.epoch ∨ s.mem.epoch = t.mem.epoch ∧ s.cph.seq ≤ t.cph.seq

/-- What an operation keeps: the queue, the canonical form, the ingest sequence's way up, and every part it does not name. -/
structure Follows (T : Part → Bool) (s t : State) : Prop where
  queue : t.pending = s.pending
  canonical : Canonical s → Canonical t
  reserved : SequenceReserved s → SequenceReserved t
  rising : SequenceReserved s → SequenceRises s t
  frame : ∀ p, T p = false → p.same s t

/-- The parts of the state that a command may change: its subsystem of R8 and those its rules reach. -/
def Instr.reach : Instr → List Part
  | .powerOnReset | .warmReset _ | .activationTimeout | .thermalShutdown | .thermalTrip | .vaultDone | .managementPacketReceive _
    | .lifecycleCommit =>
    [.free, .regs, .splitLatch, .hostRead, .cnt, .tck, .pwr, .bays, .ports, .spn, .out, .cells, .units, .bus, .axes, .rdc, .wrc, .cal,
     .qre, .hiu, .cmd, .mem, .kst, .cph, .bdy, .bnd]
  | .perstN _ | .controllerReset _ | .write _ | .flush _ | .zoneAppend _ =>
    [.cnt, .bays, .ports, .out, .rdc, .wrc, .cal, .qre, .hiu, .cmd, .mem, .bdy]
  | .stitchEdge _ => [.regs, .cnt, .tck, .pwr, .bays, .ports, .spn, .out, .cells, .units, .bus, .axes, .rdc, .wrc, .cal]
  | .sampleFrameLand _ _ =>
    [.free, .cnt, .bays, .ports, .bfes, .spn, .out, .cells, .units, .bus, .axes, .rdc, .wrc, .cal, .qre, .hiu, .cph, .bdy, .bnd]
  | .sampleFrameAbsent _ => [.cnt, .bays, .ports]
  | .absentStop _ | .laneRetrain _ _ => [.cnt, .ports]
  | .spotPacket _ _ _ _ _ _ => [.cnt, .rdc]
  | .stitchOverrun _ _ => [.free, .cnt, .tck, .bays, .ports, .spn, .out, .cells, .units, .axes, .rdc, .wrc, .cal, .qre, .hiu, .cph, .bdy]
  | .plausibilityAction _ | .lossOfSync _ | .overspeedFault _ | .folioReadEnd _ _ | .ldpcDecodeDone _ _ | .readDeadlineExpiry _
    | .folioVerdict _ _ => [.free, .cnt, .bays, .ports, .spn, .out, .cells, .units, .axes, .rdc, .wrc, .cal, .qre, .hiu, .cph, .bdy]
  | .alignmentFault => [.tck, .bdy]
  | .snapshotRequest _ => [.tck, .out]
  | .snapshotCapture | .snapshotRelease => [.tck]
  | .bindingLoad _ _ _ _ | .bindingActivate _ _ | .bindingCheckDone => [.free, .out, .hiu, .bnd]
  | .bndCheck => [.bnd]
  | .bndAbort | .bndArm | .bindingPairTimeout => [.out, .bnd]
  | .trimCommit => [.cnt, .cells, .kst, .bdy, .bnd]
  | .structuralCommit => [.cnt, .bays, .ports, .spn, .cells, .units, .axes, .cal, .kst, .bdy, .bnd]
  | .srvClose _ _ | .srvOpen _ _ | .srvJump _ _ _ _ _ | .srvSeek _ _ _ | .srvOffset _ _ _ _ => [.spn, .cells]
  | .effectStitchReached _ => [.regs, .cnt, .ports, .cells, .units, .bus, .axes]
  | .searchTimeout _ | .jumpTimeout _ | .seekTimeout _ => [.cnt, .bays, .ports, .spn, .cells, .axes, .rdc, .wrc, .cal]
  | .jumpKickEnd _ | .jumpBrakeEnd _ | .jumpDwellEnd _ | .seekKickEnd _ | .seekCaptureWindowEnd _ => [.cells]
  | .jumpSettleEnd _ | .seekSettleEnd _ | .holdRelease _ => [.cnt, .cells]
  | .holdMaxExpiry _ => [.free, .cnt, .bays, .ports, .spn, .out, .cells, .axes, .rdc, .wrc, .cal, .qre, .hiu, .cph, .bdy]
  | .retractComplete _ => [.cnt, .ports, .spn, .cells, .units, .axes]
  | .spdStart _ _ _ | .spdStop _ _ _ | .spdSpeed _ _ _ | .spdClear _ _ | .spindleLock _ | .inertiaMeasured _ => [.spn, .units]
  | .senseComplete _ => [.cnt, .units]
  | .alignComplete _ | .startBrakeEnd _ | .standstill _ | .shortBrakeComplete _ => [.units]
  | .rampTimeout _ | .backwardBrakeTimeout _ => [.free, .cnt, .bays, .ports, .out, .units, .rdc, .wrc, .cal, .qre, .hiu, .cph, .bdy]
  | .spindleUnlock _ => [.bays, .ports, .spn, .cells, .units, .axes, .rdc, .wrc, .cal]
  | .busBlockClear _ => [.bus]
  | .busTrip _ => [.free, .cnt, .bays, .ports, .spn, .out, .cells, .units, .bus, .axes, .rdc, .wrc, .cal, .qre, .hiu, .cph, .bdy]
  | .motMove _ _ _ | .motRampStop _ _ | .motHardStop _ _ | .motHome _ _ | .motRelease _ _ | .motEnergise _ _ | .motClear _ _ =>
    [.spn, .axes]
  | .homingTimeout _ | .followMoveStart _ => [.cnt, .axes]
  | .folioReadRequest _ => [.out, .rdc, .hiu]
  | .readPassStart _ => [.bays, .ports, .spn, .cells, .units, .axes, .rdc, .cal, .hiu]
  | .timingLockLoss _ | .codewordDispatch | .timingLockDeclared _ | .timingLockRegained _ => [.rdc]
  | .reconstructionDone _ _ _ _ =>
    [.free, .cnt, .bays, .ports, .spn, .out, .cells, .units, .axes, .rdc, .wrc, .cal, .qre, .hiu, .mem, .cph, .bdy]
  | .writeRunStart _ _ _ => [.cnt, .bays, .ports, .bfes, .spn, .cells, .units, .axes, .rdc, .wrc, .cal, .qre]
  | .encoderUnderrun _ _ => [.wrc, .bdy]
  | .laserReeval _ => [.wrc]
  | .quireAgeTimeout _ => [.cnt, .bays, .ports, .out, .rdc, .wrc, .cal, .qre, .mem, .bdy]
  | .journalCommitDone _ => [.cnt, .bays, .ports, .out, .rdc, .wrc, .cal, .qre, .cmd, .mem, .cph, .bdy]
  | .directoryAgeTimeout | .fileNow | .peerLeafVerdict _ _ _ _ =>
    [.free, .cnt, .bays, .ports, .out, .rdc, .wrc, .cal, .qre, .hiu, .cph, .bdy]
  | .mount => [.qre, .bdy]
  | .mountCatalogueReadDone _ _ _ _ _ => [.regs, .cnt, .bays, .ports, .out, .rdc, .wrc, .cal, .qre, .mem, .bdy]
  | .unmount => [.cnt, .bays, .ports, .out, .rdc, .wrc, .cal, .qre, .cph, .bdy]
  | .rebuildPause _ => [.regs]
  | .clearFail _ | .peerLeafRequest _ _ _ | .peerLeafReply _ _ _ _ _ => [.out, .qre]
  | .rebuildStart => [.qre]
  | .calibrationRunStart _ _ _ _ => [.cnt, .bays, .ports, .bfes, .spn, .out, .cells, .units, .axes, .rdc, .wrc, .cal, .qre, .hiu, .bdy]
  | .calibrationRunDone _ _ _ _ => [.cnt, .bays, .ports, .spn, .out, .cells, .units, .axes, .rdc, .cal, .hiu, .bdy]
  | .calStep _ => [.spn, .cells, .axes, .cal]
  | .calElapsedTimer _ | .calReq _ _ _ => [.cal]
  | .sqTailDoorbell _ _ _ | .cqHeadDoorbell _ _ _ | .commandFetch _ _ _ | .zoneOpen _ _ | .zoneClose _ _ | .zoneFinish _ _
    | .zoneReset _ _ | .zoneOffline _ | .zoneSetDescriptorExtension _ | .zoneManagementReceive _ | .createIoSq _ _ _ _
    | .createIoCq _ _ _ _ _ | .deleteIoSq _ _ | .deleteIoCq _ _ | .identify _ _ _ | .getLogPage _ _ _ _ | .getFeatures _ _ _
    | .asyncEventRequest _ | .namespaceAttachment _ _ _ _ | .colophonRead _ _ _ => [.out, .hiu]
  | .controllerEnable _ _ _ _ _ | .newWriteSlot _ _ _ => [.hiu, .kst, .bdy]
  | .interruptMaskSet _ _ | .interruptMaskClear _ _ | .forwardedCommandReceive _ => [.hiu]
  | .commandAdmission _ _ => [.cnt, .bays, .ports, .out, .rdc, .wrc, .cal, .qre, .hiu, .cmd, .bdy]
  | .writeDataFetch _ _ => [.out, .hiu, .cph, .bdy]
  | .backpressureTimeout _ => [.cnt, .out, .hiu]
  | .cipherBlockDone _ _ _ _ => [.cnt, .bays, .ports, .out, .rdc, .wrc, .cal, .qre, .hiu, .mem, .cph, .bdy]
  | .blockDecryptDone _ _ _ _ _ _ _ _ _ => [.cnt, .out, .rdc, .qre, .hiu, .cmd, .bdy]
  | .writeAckPoint _ => [.out, .qre, .hiu, .cmd]
  | .read _ | .verify _ => [.free, .cnt, .bays, .ports, .out, .rdc, .wrc, .cal, .qre, .hiu, .cmd, .mem, .bdy]
  | .abort _ _ _ => [.cnt, .out, .rdc, .hiu]
  | .setFeatures _ _ _ _ | .firmwareImageDownload _ _ _ | .fwCommitReplace _ _ | .fwCommitReplacePending _ _ | .fwCommitPending _ _ =>
    [.out, .hiu, .bdy]
  | .namespaceCreate _ _ => [.out, .hiu, .kst]
  | .namespaceDelete _ _ => [.out, .hiu, .mem, .kst]
  | .fwCommitActivate _ _ => [.pwr, .out, .hiu, .cmd, .bdy]
  | .fetchPauseHandoff | .endsheetOwnerSection _ _ _ _ | .bayRelease => [.cnt, .bdy]
  | .mailboxPost _ _ => [.cnt, .out, .hiu, .bdy]
  | .mailboxFetch _ _ => [.free, .out, .hiu, .bdy]
  | .modeSet _ _ _ => [.cnt, .bays, .ports, .spn, .out, .cells, .units, .axes, .cal, .hiu, .bdy]
  | .modeChangeEffect _ => [.cnt, .bays, .spn, .units]
  | .holdWaitExpiry _ => [.cnt, .bays, .ports, .spn, .cells, .units, .axes, .rdc, .wrc, .cal]
  | .holdReached _ => [.cnt, .bays, .spn, .axes]
  | .bayReset _ _ | .leaveSafeStop _ _ | .discLoaded _ _ | .prepareExchange _ _ =>
    [.regs, .cnt, .bays, .ports, .spn, .out, .cells, .units, .axes, .rdc, .wrc, .cal, .hiu]
  | .bayBringupStep _ => [.bays, .ports, .spn, .cells, .units, .cal]
  | .spindleHandoff _ => [.bays]
  | .powerWindow _ _ _ _ _ => [.cnt, .pwr, .bays, .spn, .out, .units, .hiu, .bdy]
  | .powerFailDetect =>
    [.free, .cnt, .pwr, .bays, .ports, .spn, .out, .cells, .units, .axes, .rdc, .wrc, .cal, .qre, .hiu, .cmd, .mem, .kst, .cph, .bdy]
  | .vaultReplayDone _ _ => [.cnt, .pwr, .qre, .hiu, .cmd, .mem, .bdy]
  | .replayedImageErase | .vaultEraseDone _ | .vaultGroupClose => [.mem]
  | .vaultCommitDone => [.cmd, .mem]
  | .burnisherLine _ _ _ _ => [.cnt, .out, .cal, .hiu, .cmd, .mem, .bdy]
  | .flipMaskArm _ | .mapCacheLock _ => [.regs, .mem]
  | .heartbeatReceive _ => [.cnt, .tck, .spn, .cells, .units, .axes]
  | .heartbeatMissing | .resyncTimeout _ => [.cnt, .spn]
  | .spineLinkLost _ | .spineLaneDrop _ => [.cnt, .tck, .bays, .ports, .spn, .out, .rdc, .wrc, .cal, .qre, .hiu, .cmd, .mem, .bdy, .bnd]
  | .spineLinkRestored => [.free, .spn]
  | .pairing _ _ _ _ => [.tck, .pwr, .spn, .out, .hiu, .cmd, .mem, .bdy]
  | .pairingBindingCheck _ => [.cnt, .pwr, .bays, .ports, .spn, .out, .cells, .units, .axes, .cal, .hiu, .cmd, .mem, .kst, .bdy, .bnd]
  | .aliveInDead => [.cnt, .tck, .bays, .ports, .spn, .out, .rdc, .wrc, .cal, .qre, .hiu, .cmd, .mem, .bdy]
  | .aliveInLive | .resync _ | .handBackRequest _ | .handBackStart _ | .spineLaneRestore _ => [.spn]
  | .resyncCapture _ => [.cnt, .spn, .out]
  | .statePacketReceive _ _ =>
    [.free, .regs, .cnt, .tck, .bays, .ports, .spn, .out, .cells, .units, .bus, .axes, .rdc, .wrc, .cal, .qre, .hiu, .cph, .bdy]
  | .overrunPacketReceive _ _ => [.bays, .spn]
  | .mirrorDataReceive _ _ _ _ _ _ => [.out, .cmd, .mem]
  | .journalRecordReceive _ => [.out, .qre, .hiu, .cmd, .mem]
  | .mirrorAckReceive _ => [.pwr, .spn, .out, .hiu, .cmd]
  | .forwardedCompletionReceive _ _ _ _ => [.cnt, .bays, .ports, .out, .rdc, .wrc, .cal, .qre, .hiu, .bdy]
  | .handoverStitch _ => [.cnt, .spn, .bdy]
  | .kcvMatch _ _ => [.out, .kst]
  | .keyImport | .mailboxKeyImport _ _ => [.cnt, .out, .kst, .bdy]
  | .keySlotClear _ => [.kst]
  | .lcNonceRead => [.free, .splitLatch, .hostRead, .kst]
  | .lifecycleTransition _ _ => [.out, .kst, .bdy]
  | .lowerVotedLimit _ _ _ => [.kst, .bdy]
  | .domainRequest _ _ _ _ | .registerWrite _ _ _ =>
    [.free, .regs, .cnt, .tck, .pwr, .bays, .ports, .spn, .out, .cells, .units, .axes, .rdc, .wrc, .cal, .qre, .hiu, .mem, .kst, .cph,
     .bdy, .bnd]
  | .mailboxResponseRead => [.splitLatch, .hostRead, .bdy]
  | .votedWordMismatch _ _ _ _ =>
    [.free, .cnt, .bays, .ports, .spn, .out, .cells, .units, .axes, .rdc, .wrc, .cal, .qre, .hiu, .kst, .cph, .bdy]
  | .drbgReseed => [.cnt, .cph]
  | .entropyHealthFail => [.cnt, .cph, .bdy]
  | .entropyRecover => [.cph]
  | .lockstepMismatch => [.tck, .spn, .bdy]
  | .bayReleaseEnd => [.spn, .bdy]
  | .eventLogPageWrite | .mctpSetEndpointId _ | .mctpGetEndpointId | .mctpGetVersionSupport _ | .mctpGetMessageTypeSupport
    | .nvmeMiReadDataStructure _ | .nvmeMiHealthStatusPoll _ | .nvmeMiConfigurationGet _ | .nvmeMiConfigurationSet _ _
    | .nvmeMiTunnelledAdmin _ _ | .spdmGetCertificate _ | .spdmGetMeasurements _ _ => [.bdy]
  | .bfeIdentityAssembled _ => [.cnt, .ports, .bdy]
  | .headbandPortUp _ _ => [.ports]
  | .bfeEdge _ _ _ _ | .bfeHoldExpiry _ _ | .bfeReset _ => [.bfes]
  | .pldmFirmwareUpdate _ _ _ _ => [.pwr, .cmd, .bdy]
  | .spdmChallenge _ _ => [.free, .bdy]
  | .splitReadLatch _ _ => [.free, .splitLatch, .hostRead, .kst, .bdy]
  | .resetCauseClear _ | .powerFailClear => [.pwr]
  | .counterClear _ => [.cnt]
  | .resetRelease _ _ _ _ _ _ _ => [.cnt, .tck, .pwr, .spn, .out, .cells, .hiu, .mem, .kst, .cph, .bdy, .bnd]
  | .startupComplete => [.cnt, .pwr, .bays, .ports, .spn, .cells, .units, .axes, .rdc, .wrc, .cal, .qre, .hiu, .kst, .bdy]
  | .pairingTimeout => [.pwr, .out, .hiu, .cmd, .mem]
  | .headbandLaneLoss _ _ => [.ports, .bdy]
  | .activationFetchResume => [.cnt, .pwr, .cmd, .bdy]

end Sys2Proof
end

