-- ==== Sys2Proof/Certificates/Slice0/Obligations.lean ====
section
/-! DEFINITION. The statements for the provers. A statement about a command says where it answers a next state and what that state holds;
what it leaves alone is said beside it, and for every command by EveryCommandStaysInItsReach. -/

open Sys2Proof Sys2Proof.Machine

/-- With no command waiting a step answers the same state (the model's choice, log entry 1). -/
def Obligations.EmptyQueueIdles : Prop := ∀ s : State, s.pending = [] → step s = .next s

/-- A step takes the command at the front of the queue and runs it on the state with the rest. -/
def Obligations.StepRunsFrontCommand : Prop :=
  ∀ (s : State) (c : Instr) (rest : List Instr), step { s with pending := c :: rest } = exec c { s with pending := rest }

/-- Every step answers a next state, and its queue is the old one without the front command. -/
def Obligations.StepTakesOneCommand : Prop := ∀ s : State, ∃ t, step s = .next t ∧ t.pending = s.pending.tail

/-- The state after power-on reset (R7, R368, R371); the bays' Hold and the zeros of counters and DRAM are the model's values (log entry 4). -/
def Obligations.ResetState : Prop :=
  State.reset.pwr.phase = .porLow ∧ State.reset.tck.aliveOut = false ∧ State.reset.tck.count = 0 ∧ State.reset.pwr.resetCause = 1 ∧
    (∀ n, (cellAt State.reset n).st = .parked) ∧ (∀ n, (unitAt State.reset n).st = .off ∧ (unitAt State.reset n).fault = false) ∧
    (∀ n, (axisAt State.reset n).st = .down) ∧ (∀ b, (bayAt State.reset b).mode = 5) ∧ (∀ b i, counter State.reset b i = 0) ∧
    (∀ w, getD State.reset.mem.dram 0 w = 0) ∧ State.reset.pending = [] ∧ (∀ b, (portAt State.reset b).landed = none) ∧ State.reset.out = []

/-- The invariants of the two statements below hold at reset. -/
def Obligations.ResetCanonical : Prop := Canonical State.reset ∧ SequenceReserved State.reset

/-- Whatever command runs, the sorted stores keep their canonical form. -/
def Obligations.StepKeepsCanonicalForm : Prop := ∀ s t : State, Canonical s → step s = .next t → Canonical t

/-- No command, reset or takeover lets the ingest sequence fall, but a transition, which advances the vault epoch (R326, R342). -/
def Obligations.IngestSequenceNeverGoesBack : Prop :=
  ∀ s t : State, SequenceReserved s → step s = .next t → SequenceReserved t ∧ SequenceRises s t

/-- What a command leaves unchanged (the frame): every part of the state that `Instr.reach` does not list for it. -/
def Obligations.EveryCommandStaysInItsReach : Prop := ∀ (c : Instr) (s t : State), exec c s = .next t → OnlyIn c.reach s t

/-- From R368, with R369 (ports), R399 (dumps), R345 (lockstep) and R342 (the ingest sequence): what each reset reaches and keeps. -/
def Obligations.ResetsReachTheirDomains : Prop :=
  (∀ s : State, ∃ t, exec .powerOnReset s = .next t ∧ t.tck = {} ∧ t.pwr = {} ∧ t.regs = [] ∧ t.cnt = [] ∧ t.cells = [] ∧ t.units = [] ∧
    t.axes = [] ∧ t.bays = [] ∧ t.ports = [] ∧ t.rdc = {} ∧ t.wrc = {} ∧ t.cal = {} ∧ t.spn = {} ∧ t.bus = {} ∧ t.qre = {} ∧ t.cmd = {} ∧
    t.out = [] ∧ t.mem.dram = [] ∧ t.kst.lc = s.kst.lc ∧ t.kst.bndFloor = s.kst.bndFloor ∧ t.kst.fwFloor = s.kst.fwFloor ∧
    t.kst.spindle = s.kst.spindle ∧ t.kst.laser = s.kst.laser ∧ t.kst.ownerHash = s.kst.ownerHash ∧ t.kst.nor = s.kst.nor ∧
    t.bdy.pages = s.bdy.pages ∧ t.bdy.fwSlots = s.bdy.fwSlots ∧ t.bdy.bootSlots = s.bdy.bootSlots ∧ t.bdy.sheets = s.bdy.sheets ∧
    t.bdy.dirs = s.bdy.dirs ∧ (s.bdy.bootRecord = false → t.bdy.colophon = s.bdy.colophon) ∧ t.mem.image = s.mem.image ∧
    t.mem.log = s.mem.log ∧ t.bfes = s.bfes ∧ t.cph.seq = s.cph.norEnd) ∧
  (∀ (s : State) (cause : WarmCause), (s.mem.dumping = true → cause = .trip) →
    (cause = .lockstep → s.bdy.halted = true ∧ s.spn.haltAt ≤ now s) →
    ∃ t, exec (.warmReset cause) s = .next t ∧ t.tck = { s.tck with aliveOut := false, aliveOn := false } ∧
      t.pwr.resetCause = s.pwr.resetCause ||| BitVec.ofNat 7 (2 ^ causeBit cause) ∧
      (∀ b i, i < 32 → counter t b i = if b = 1 ∨ b = 2 then counter s b i else 0) ∧
      (∀ k, look t.regs k = if aonOffset k then look s.regs k else none) ∧ t.cells = [] ∧ t.units = [] ∧ t.axes = [] ∧ t.bays = [] ∧
      t.hiu.ctrl = [] ∧ t.hiu.sqs = [] ∧ t.hiu.cqs = [] ∧ t.hiu.cmds = [] ∧ t.cmd.versions = s.cmd.versions ∧
      t.qre.quires = s.qre.quires ∧ t.qre.vol = 0 ∧ t.kst.lc = s.kst.lc ∧ t.kst.bndFloor = s.kst.bndFloor ∧ t.kst.fwFloor = s.kst.fwFloor ∧
      t.kst.spindle = s.kst.spindle ∧ t.kst.laser = s.kst.laser ∧ t.kst.nor = s.kst.nor ∧ t.bdy.fwSlots = s.bdy.fwSlots ∧
      t.bdy.bootSlots = s.bdy.bootSlots ∧ t.mem.image = s.mem.image ∧ t.mem.log = s.mem.log ∧ t.cph.seq = s.cph.norEnd) ∧
  (∀ (s : State) (port : Fin 2), s.mem.dumping = false → (controllers s).contains port.val = true →
    ∃ t, exec (.perstN port) s = .next t ∧ ctrlAt t port = {} ∧ (∀ n, n ≠ port.val → ctrlAt t n = ctrlAt s n) ∧
      (∀ e ∈ t.hiu.sqs, e.1 / 65536 ≠ port.val) ∧ (∀ e ∈ t.hiu.cqs, e.1 / 65536 ≠ port.val) ∧
      (∀ c ∈ t.hiu.cmds, c.ref.peer = true ∨ c.ref.ctrl ≠ port) ∧
      (∀ e ∈ s.hiu.sqs, e.1 / 65536 ≠ port.val → e ∈ t.hiu.sqs) ∧ (∀ e ∈ s.hiu.cqs, e.1 / 65536 ≠ port.val → e ∈ t.hiu.cqs) ∧
      OnlyIn [.qre, .hiu, .cmd] s t)

/-- From R368 and R386: PWR_RESET_CAUSE is cleared by ones; CLR_CNT clears the counters of its block only; a count after the clear reads 1.
R6: neither acts while BAR2 is read-only. -/
def Obligations.ClearingCausesAndCounters : Prop :=
  (∀ (s : State) (mask : BitVec 7), barSealed s = false →
    exec (.resetCauseClear mask) s = .next { s with pwr := { s.pwr with resetCause := s.pwr.resetCause &&& ~~~ mask } }) ∧
  (∀ (s : State) (b : Fin 17), barSealed s = false → ∃ t, exec (.counterClear b) s = .next t ∧
    (∀ i, i < 32 → counter t b i = 0 ∧ counter (bump t b i) b i = 1) ∧
    (∀ c i, i < 32 → c ≠ b.val → counter t c i = counter s c i) ∧ OnlyIn [.cnt] s t) ∧
  (∀ (s : State) (mask : BitVec 7) (b : Fin 17), barSealed s = true →
    exec (.resetCauseClear mask) s = .next s ∧ exec (.counterClear b) s = .next s)

/-- From R370 (the start-up order), R1 and R231 (straps), R271, R351, R399, R283, R260, R353; the log's page write from R363 (log entry 216). -/
def Obligations.StartUpRunsInOrder : Prop :=
  (∀ (s : State) (id : Fin 2) (split : Bool) (d : Byte) (rate : Half) (ch : BitVec 4) (ok : Bool),
    (s.pwr.phase = .porLow ∨ s.pwr.phase = .warm) → s.pwr.failLow = false →
    ∃ t, exec (.resetRelease id split d d rate ch ok) s = .next t ∧ t.tck.twinId = (if s.pwr.phase = .porLow then id.val else s.tck.twinId) ∧
      t.tck.split = (if s.pwr.phase = .porLow then split else s.tck.split) ∧ t.tck.count = s.tck.count ∧ t.pwr.domBdy = true ∧
      match boot { s with tck := strapped s id split, pwr := { s.pwr with domBdy := true, vaultDone := false } } with
      | none => t.pwr.phase = .noBoot ∧ t.tck.aliveOn = s.tck.aliveOn
      | some _ => t.pwr.phase = .starting ∧ t.pwr.domCore = true ∧ t.pwr.domSerdes = 0x3FFF ∧ t.pwr.domDdr = 3 ∧ t.pwr.domRdc = 0xFF ∧
        t.pwr.stage = 7 ∧ t.tck.aliveOn = true ∧ t.spn.link = 1 ∧ t.cph.drbg = 0 ∧ t.mem.vault = vaultTest rate.toNat ch ok) ∧
  (∀ (s : State) (id : Fin 2) (split : Bool) (d e : Byte) (rate : Half) (ch : BitVec 4) (ok : Bool),
    (s.pwr.phase = .porLow ∨ s.pwr.phase = .warm) → s.pwr.failLow = false → d ≠ e → s.tck.aliveOn = false →
    ∃ t, exec (.resetRelease id split d e rate ch ok) s = .next t ∧ t.pwr.phase = .noBoot ∧ t.tck.aliveOn = false) ∧
  (∀ s : State, s.pwr.phase = .starting → s.pwr.halted = true → 250 ≤ s.pwr.failHigh →
    exec .powerFailClear s = .next { s with pwr := { s.pwr with halted := false, stage := 7, domDdr := 3, domRdc := 0xFF } }) ∧
  (∀ s : State, s.pwr.phase = .starting → s.pwr.stage < 9 → s.mem.replaying = false → s.pwr.halted = false → s.spn.paired = false →
    s.pwr.quadsAt + 10 * Config.sec ≤ now s → ∃ t, exec .pairingTimeout s = .next t ∧ t.pwr = { s.pwr with stage := 9 } ∧
      t.cmd.prot = (if s.mem.vaultKind = 2 then 2 else 1) ∧ OnlyIn [.pwr, .out, .hiu, .cmd, .mem] s t) ∧
  (∀ s : State, s.pwr.phase = .starting → s.pwr.halted = false → s.mem.replaying = false → 9 ≤ s.pwr.stage →
    ∃ t, exec .startupComplete s = .next t ∧ t.pwr = { s.pwr with phase := .running, stage := 11 } ∧ t.bdy.bootRecord = true ∧
      (∃ c, t.bdy.colophon.getLast? = some c ∧ c.reason = 0) ∧ t.tck = s.tck ∧ t.regs = s.regs) ∧
  (∀ s : State, s.bdy.staged ≠ [] → (32 ≤ (openPage s.bdy).length + s.bdy.staged.length ∨ s.bdy.stagedAt + Config.sec ≤ now s) →
    s.bdy.pages.length < 2048 → ∃ t, exec .eventLogPageWrite s = .next t ∧ OnlyIn [.bdy] s t ∧
      t.bdy.pages.flatten ++ t.bdy.staged = s.bdy.pages.flatten ++ s.bdy.staged ∧ t.bdy.staged.length < s.bdy.staged.length ∧
      (openPage s.bdy = [] → t.bdy.pages = s.bdy.pages ++ [s.bdy.staged.take 32]) ∧
      (openPage s.bdy ≠ [] → t.bdy.pages = s.bdy.pages.dropLast ++ [openPage s.bdy ++ s.bdy.staged.take (32 - (openPage s.bdy).length)]))

/-- From R7, R41 and R371 (the edge), R46 (the alignment fault), R49 (overruns), R149, R151 and R202 (the plausibility actions). -/
def Obligations.StitchEdgesAndDeadlines : Prop :=
  (∀ (s : State) (i : EdgeIn), (s.pwr.phase = .starting ∨ s.pwr.phase = .running) → ∃ t, exec (.stitchEdge i) s = .next t ∧
    t.tck.count = s.tck.count + 1 ∧ t.tck.aliveOut = (s.tck.aliveOn && !s.tck.aliveOut) ∧ t.tck.ovNow = 0 ∧
    (∀ b, (portAt t b).landed = none) ∧ (∀ b f, b < 8 → (portAt t b).sent = some f → f.stitch = BitVec.ofNat 64 s.tck.count) ∧
    (silenced s = false → s.spn.link ≠ 0 → ∃ e ∈ t.spn.sent, ∃ h, e.2.msg = .heartbeat h ∧ h.count = BitVec.ofNat 64 s.tck.count) ∧
    t.spn.aliveLevel = i.aliveIn ∧ t.pwr.failLow = !i.pwrFailN) ∧
  (∀ (s : State) (i : EdgeIn), s.pwr.phase ≠ .starting → s.pwr.phase ≠ .running → s.pwr.phase ≠ .porLow →
    ∃ t, exec (.stitchEdge i) s = .next t ∧ t.tck = { s.tck with count := s.tck.count + 1 } ∧ t.spn.aliveLevel = i.aliveIn ∧
      t.pwr.failLow = (!i.pwrFailN) ∧ OnlyIn [.tck, .spn, .pwr] s t) ∧
  (∀ (s : State) (i : EdgeIn), s.pwr.phase = .porLow → exec (.stitchEdge i) s = .next s) ∧
  (∀ s : State, (16 ≤ s.tck.outside → s.tck.alignFault = false → ∃ t, exec .alignmentFault s = .next t ∧
      t.tck = { s.tck with alignFault := true } ∧ OnlyIn [.tck, .bdy] s t ∧ (s.tck.master = true → t.bdy = s.bdy) ∧
      (s.tck.master = false → t.bdy.staged.length = s.bdy.staged.length + 1)) ∧
    (s.tck.outside < 16 ∨ s.tck.alignFault = true → exec .alignmentFault s = .next s)) ∧
  (∀ (s : State) (bays : Byte) (check : Fin 4), ((baysIn bays).filter (fun b => (pairAt s b).role ≠ 0)) ≠ [] →
    exec (.stitchOverrun bays check) s = .next (
      let hit := (baysIn bays).filter (fun b => (pairAt s b).role ≠ 0)
      let k := if check = 3 then now s - 1 else now s
      let s := { s with tck := { s.tck with
        ovStitch := k, ovCheck := check, ovBays := maskOf hit.contains, ovNow := s.tck.ovNow ||| maskOf hit.contains } }
      hit.foldl (fun s b =>
        if runs s b then send (stopBay (setBay s b { bayAt s b with overrun := true }) b false) (.overrun b k) else withhold s b 6)
        (countEvent s 1 0 2 0xFF 0xFF [check, bays.toNat]))) ∧
  (∀ (s : State) (cell : Fin 96), due (cellAt s cell) = true →
    exec (.plausibilityAction cell) s = .next (
      let c := cellAt s cell
      let held := (dueCells s c.opu).all (fun n => (cellAt s n).st == .held)
      let counted := fun (i severity : Nat) => countEvent (failRunning s c.opu) 5 i severity (c.opu / 2) c.opu [cell]
      match ((dueCells s c.opu).map (fun n => (cellAt s n).action)).foldl max 0 with
      | 2 => stopBay (counted 2 2) (c.opu / 2) false
      | 1 => surfaceLost (revokeGrants (plausHoldOpen (counted 1 2) c.opu 1) c.opu) c.opu
      | _ => if held then s else revokeGrants (plausHoldOpen (counted 0 1) c.opu 0) c.opu)) ∧
  (∀ (s : State) (cell : Fin 96), due (cellAt s cell) = false → exec (.plausibilityAction cell) s = .next s)

/-- The safe stop that servo, spindle, overrun and electrical rules share (from R49, R149, R165, R168, R181, R379, R401). -/
def Obligations.SafeStopOfABay : Prop :=
  ∀ (s : State) (b : Nat) (coast : Bool), b < 8 → let t := safeStop s b coast
    (bayAt t b).safeStop = true ∧ (bayAt t b).stopFrame = true ∧ (bayAt t b).holdEntry = false ∧
    (bayAt t b).req = (bayAt t b).mode ∧ (bayAt t b).enablePending = none ∧
    (bayAt t b).bringing = false ∧ (coast = true → (bayAt t b).coast = true) ∧
    (∀ n ∈ bayCells s b, (cellAt t n).st = .parked ∧ (cellAt t n).fault = true) ∧
    (unitAt t b).words = stopWords coast ∧ (coast = false → (unitAt t b).st = .short) ∧
    (coast = true → (unitAt t b).st = .coast ∨ (unitAt t b).st = .off ∨ (unitAt t b).st = .fault) ∧
    (∀ n ∈ bayAxes b, (axisAt t n).out = 0 ∧ (axisAt t n).hold = true ∧ (axisAt t n).pending = none) ∧
    (∀ g ∈ (bayAt t b).grants, g.1 ≠ 2 * b ∧ g.1 ≠ 2 * b + 1) ∧
    t.regs = s.regs ∧ t.tck = s.tck ∧ t.bfes = s.bfes ∧ t.kst = s.kst

/-- From R44, R312, R314, R322 (frames and packets), R85 to R87 (the samples' way through a cell: `samplesFrom`). -/
def Obligations.FramesLandOrCount : Prop :=
  (∀ (s : State) (f : SampleFrame), ∃ t, exec (.sampleFrameLand f true) s = .next t ∧ (portAt t f.bay).landed = some f ∧
    (portAt t f.bay).absent = false ∧ (portAt t f.bay).absentRun = 0 ∧
    (portAt t f.bay).slices = ins (portAt s f.bay).slices f.slice f.ident ∧
    (∀ n, n ≠ f.bay.val → (portAt t n).landed = (portAt s n).landed)) ∧
  (∀ (s : State) (f : SampleFrame), exec (.sampleFrameLand f false) s = .next s) ∧
  (∀ (s : State) (b : Fin 8), (portAt s b).landed = none → (portAt s b).absent = false →
    ∃ t, exec (.sampleFrameAbsent b) s = .next t ∧
      portAt t b = { portAt s b with absent := true, absentRun := min ((portAt s b).absentRun + 1) 255 } ∧
      bayAt t b = { bayAt s b with absentTotal := (bayAt s b).absentTotal + 1 } ∧ counter t 3 0 = counter s 3 0 + 1 ∧
      (∀ i, i < 32 → i ≠ 0 → counter t 3 i = counter s 3 i) ∧
      (∀ n, n ≠ b.val → portAt t n = portAt s n ∧ bayAt t n = bayAt s n) ∧ OnlyIn [.ports, .bays, .cnt] s t) ∧
  (∀ (s : State) (b : Fin 8), (portAt s b).landed ≠ none → exec (.sampleFrameAbsent b) s = .next s) ∧
  (∀ (s : State) (b : Fin 8), runs s b = true → (portAt s b).stopped = false → regBits s .hblCfg 0 7 0 ≤ (portAt s b).absentRun →
    ∃ t, exec (.absentStop b) s = .next t ∧ portAt t b = { portAt s b with stopped := true } ∧ counter t 3 7 = counter s 3 7 + 1 ∧
      (∀ n, n ≠ b.val → portAt t n = portAt s n) ∧ OnlyIn [.ports, .cnt] s t) ∧
  (∀ (s : State) (b : Fin 8) (spot : Fin 16) (st off : Half) (x : Bytes) (k : Nat), runs s b = true →
    (portAt s b).spotEn.getLsbD spot = true → chanOf s (2 * b.val + spot.val / 8) (spot.val % 8) = some k →
    let n := samplesPerStitch (portAt s b).rate
    let first := st.toNat * n + off.toNat
    let c := chanAt s k
    let g := chanCfg s (2 * b.val + spot.val / 8) (((chanRecOf s (2 * b.val + spot.val / 8) (spot.val % 8)).map (·.target)).getD 0) c.retrain
    (∃ t, exec (.spotPacket b spot st off x false) s = .next t ∧ counter t 3 4 = counter s 3 4 + 1 ∧ OnlyIn [.cnt] s t) ∧
    (n ≤ off.toNat → exec (.spotPacket b spot st off x true) s = .next s) ∧
    (off.toNat < n → c.nextAt = some first ∨ c.nextAt = none → ∃ t, exec (.spotPacket b spot st off x true) s = .next t ∧
      (chanAt t k).nextAt = some ((first + x.length) % (65536 * n)) ∧
      (c.st = 0 → chanAt t k = { c with nextAt := (chanAt t k).nextAt }) ∧
      (c.st ≠ 0 → chanAt t k = { samplesFrom g n ((unitBase s b spot n).map (fun v => if v ≤ first then 65536 * n + v else v)) (first + 65536 * n)
        (x.map (fun a => some ((a.toNat : Int) - 128))) c with nextAt := (chanAt t k).nextAt }) ∧
      (∀ m, m ≠ k → chanAt t m = chanAt s m) ∧ OnlyIn [.rdc] s t))

/-- From R51 and R52: one consistent copy of the cells, units, axes and channel cells. A pair request with the link down: the model's choice (log
entry 177). -/
def Obligations.SnapshotsLatchTheTwin : Prop :=
  (∀ (s : State) (pair : Bool), barSealed s = false → (snapOf s pair).state = 0 → ∃ t, exec (.snapshotRequest pair) s = .next t ∧
    snapOf t pair = { state := 1, due := now s + (if pair then 3 else 1) } ∧ snapOf t (!pair) = snapOf s (!pair) ∧
    t.tck.snapRefused = false ∧ t.tck.count = s.tck.count ∧
    t.out = s.out ++ (if pair = true ∧ s.spn.link = 2 then [{ cls := 3, msg := .mgmt (.snapshotRequest (BitVec.ofNat 64 (now s + 3))) }] else []) ∧
    OnlyIn [.tck, .out] s t) ∧
  (∀ (s : State) (pair : Bool), barSealed s = false → (snapOf s pair).state ≠ 0 →
    exec (.snapshotRequest pair) s = .next { s with tck := { s.tck with snapRefused := true } }) ∧
  (∀ (s : State) (pair : Bool), (snapOf s pair).state = 1 → (snapOf s pair).due = now s →
    ((snapOf s (!pair)).state ≠ 1 ∨ (snapOf s (!pair)).due ≠ now s) → ∃ t x, exec .snapshotCapture s = .next t ∧
    snapOf t pair = { state := 2, due := now s, snap := some x } ∧ snapOf t (!pair) = snapOf s (!pair) ∧
    t.tck.snapNumber = s.tck.snapNumber + 1 ∧ OnlyIn [.tck] s t ∧ t.tck.count = s.tck.count ∧
    x.cells = s.cells ∧ x.units = s.units ∧ x.axes = s.axes ∧ x.chans = s.rdc.chans ∧ x.stitch = now s ∧
    x.bindingId = (s.bnd.active.map (·.ident)).getD 0 ∧
    x.trimStitch = BitVec.ofNat 64 (if trimCommits s then now s else s.bnd.trimStitch) ∧ x.number = s.tck.snapNumber + 1) ∧
  (∀ s : State, (∀ pair, (snapOf s pair).state = 1 → (snapOf s pair).due ≠ now s) → exec .snapshotCapture s = .next s) ∧
  (∀ s : State, barSealed s = false → (shownSnap s).state = 2 → ∃ t, exec .snapshotRelease s = .next t ∧
    snapOf t (shownPair s) = {} ∧ snapOf t (!shownPair s) = snapOf s (!shownPair s) ∧ t.tck.count = s.tck.count ∧ OnlyIn [.tck] s t) ∧
  (∀ (s : State) (pair : Bool), barSealed s = true → exec (.snapshotRequest pair) s = .next s ∧ exec .snapshotRelease s = .next s)

/-- Gathering, checks, staging and ABORT (from R31, R35, R36, R40, R400); the ragged chunk's status is log entry 182. -/
def Obligations.BindingContainersAreCheckedAndStaged : Prop :=
  (∀ (s : State) (r : CmdRef) (offset : Word) (chunk : Bytes) (last : Bool), lifeRetired s = false → chunk.length % 8 = 0 →
    (offset = 0 ∨ s.bnd.xfer ≠ none) →
    (pairUp s = false → exec (.bindingLoad r offset chunk last) s =
      .next (completeCode { s with bnd := { s.bnd with xfer := none, lastResult := 0x0C } } r 0x0C)) ∧
    (pairUp s = true → last = false → ∃ xs, exec (.bindingLoad r offset chunk last) s =
        .next (completeCode { s with bnd := { s.bnd with xfer := some xs } } r 0) ∧
      xs = (if offset = 0 then [] else s.bnd.xfer.getD []) ++ [(offset.toNat, chunk)]) ∧
    (pairUp s = true → last = true → ∃ xs, exec (.bindingLoad r offset chunk last) s =
        .next { s with bnd := { s.bnd with xfer := none, checking := s.bnd.checking ++
          [{ bytes := (gather xs).1, whole := (gather xs).2, ref := some r }] } } ∧
      xs = (if offset = 0 then [] else s.bnd.xfer.getD []) ++ [(offset.toNat, chunk)])) ∧
  (∀ (s : State) (r : CmdRef) (offset : Word) (chunk : Bytes) (last : Bool), lifeRetired s = false →
    (chunk.length % 8 ≠ 0 ∨ offset ≠ 0 ∧ s.bnd.xfer = none) →
    exec (.bindingLoad r offset chunk last) s = .next (complete s r .invalidField)) ∧
  (∀ s : State, barSealed s = false → exec .bndCheck s = .next { s with bnd := { s.bnd with checking := s.bnd.checking ++
    [{ bytes := (windowContainer s).1, whole := (windowContainer s).2, ref := none }] } }) ∧
  (∀ (s : State) (c : Checking) (rest : List Checking), s.bnd.checking = c :: rest → c.armAfter = false →
    let v := loadChecks s c.bytes c.whole false
    let b := parse c.bytes
    let twin := !c.fromPeer && !pairUp s
    let busy := if b.trim then s.bnd.trim.isSome else s.bnd.structural.isSome
    let code := if v.code ≠ 0 then v.code else if twin then 0x0C else if busy then 0x0D else 0
    ∃ t, exec .bindingCheckDone s = .next t ∧ t.bnd.checking = rest ∧ t.bnd.lastResult = code ∧ t.bnd.detCode = v.code ∧
      t.bnd.detSection = v.section_ ∧ t.bnd.detRecord = v.record ∧ t.bnd.active = s.bnd.active ∧
      (code ≠ 0 → t.bnd.structural = s.bnd.structural ∧ t.bnd.trim = s.bnd.trim) ∧
      (code = 0 → b.trim = true → t.bnd.structural = s.bnd.structural ∧
        t.bnd.trim = some { bytes := c.bytes, parsed := b, peer := c.fromPeer }) ∧
      (code = 0 → b.trim = false → t.bnd.trim = s.bnd.trim ∧ t.bnd.affected = affectedBays s b ∧
        t.bnd.structural = some { bytes := c.bytes, parsed := b, peer := c.fromPeer }) ∧
      exec .bindingCheckDone { s with bnd := { s.bnd with checking := { c with armAfter := true } :: rest } } =
        .next (arm t (reg s .bndCommitStitch)).1) ∧
  (∀ s : State, s.bnd.checking = [] → exec .bindingCheckDone s = .next s) ∧
  (∀ s : State, barSealed s = false → exec .bndAbort s =
    .next (send { s with bnd := { s.bnd with structural := none, affected := 0, trim := none } } (.mgmt .abortBinding)))

/-- Arming (from R35 to R38) and the agreement time-out (R36). -/
def Obligations.BindingsArmForAStitch : Prop :=
  (∀ s : State, barSealed s = false →
    let commit := reg s .bndCommitStitch
    let k := if commit = 0 then now s + 256 else commit
    let waits := fun (x : Option Staged) => x.any (fun y => y.armed.isNone)
    ∃ t, exec .bndArm s = .next t ∧ OnlyIn [.bnd, .out] s t ∧
      (∀ (r : CmdRef) (c : Dword), c.toNat = commit → lifeRetired s = false →
        exec (.bindingActivate r c) s = .next (completeCode t r t.bnd.lastResult)) ∧
      (waits s.bnd.structural = false → waits s.bnd.trim = false → t = { s with bnd := { s.bnd with lastResult := 0x0E } }) ∧
      (waits s.bnd.structural = true ∨ waits s.bnd.trim = true →
        (k < now s + 256 → t = { s with bnd := { s.bnd with lastResult := 0x0A } }) ∧
        (now s + 256 ≤ k → waits s.bnd.structural = true → readHold s s.bnd.affected = false →
          t = { s with bnd := { s.bnd with lastResult := 0x0B } }) ∧
        (now s + 256 ≤ k → (waits s.bnd.structural = true → readHold s s.bnd.affected = true) → pairUp s = false →
          t.bnd.lastResult = 0x0C ∧ waits t.bnd.structural = false ∧ waits t.bnd.trim = false ∧
          (waits s.bnd.structural = false → t.bnd.structural = s.bnd.structural) ∧ (waits s.bnd.trim = false → t.bnd.trim = s.bnd.trim)) ∧
        (now s + 256 ≤ k → (waits s.bnd.structural = true → readHold s s.bnd.affected = true) → pairUp s = true →
          t.bnd.lastResult = 0 ∧
          t.bnd.structural = s.bnd.structural.map (fun y => { y with armed := some (y.armed.getD k) }) ∧
          t.bnd.trim = s.bnd.trim.map (fun y => { y with armed := some (y.armed.getD k) }) ∧
          t.out = s.out ++ (t.bnd.structural.toList ++ t.bnd.trim.toList).map
            (fun y => { cls := 3, msg := .mgmt (.stageReport y.parsed.digest y.parsed.trim (BitVec.ofNat 64 (y.armed.getD 0))) })))) ∧
  (∀ (s : State) (r : CmdRef) (c : Dword), (barSealed s = true → exec .bndArm s = .next s) ∧
    (lifeRetired s = true → exec (.bindingActivate r c) s = .next (complete s r .commandSequence))) ∧
  (∀ s : State,
    let late := fun (x : Staged) => !x.peer && x.armed.any (fun k => decide (k ≤ now s + 16))
    (s.bnd.structural.any late = true ∨ s.bnd.trim.any late = true) →
    ∃ t, exec .bindingPairTimeout s = .next t ∧ t.bnd.lastResult = 0x0C ∧ t.bnd.structural = s.bnd.structural.filter (fun x => !late x) ∧
      t.bnd.trim = s.bnd.trim.filter (fun x => !late x) ∧ t.bnd.active = s.bnd.active ∧ OnlyIn [.bnd, .out] s t ∧
      (s.spn.link = 2 → t.out.length = s.out.length + ((s.bnd.structural.toList ++ s.bnd.trim.toList).filter late).length)) ∧
  (∀ s : State,
    let late := fun (x : Staged) => !x.peer && x.armed.any (fun k => decide (k ≤ now s + 16))
    s.bnd.structural.any late = false → s.bnd.trim.any late = false → exec .bindingPairTimeout s = .next s)

/-- The commits (from R27, R37 to R40, R51). -/
def Obligations.BindingsCommitAtTheirStitch : Prop :=
  (∀ (s : State) (x : Staged), s.bnd.trim = some x → x.armed = some (now s) → x.peer = true → pairUp s = true →
    s.bnd.structural.any (fun y => y.armed == some (now s)) = false →
    ∃ t, exec .trimCommit s = .next t ∧
      (∀ n, cellAt t n = if (cellAt s n).named then
        { cellAt s n with coef := trimWords x.parsed.trims n (cellAt s n).coef } else cellAt s n) ∧
      t.bnd = { s.bnd with active := s.bnd.active.map (fun b => trimmed b x.parsed.trims), trim := none, trimStitch := now s
                           trimDigest := x.parsed.digest, affected := t.bnd.affected } ∧
      (s.bnd.structural = none → t.bnd.affected = s.bnd.affected) ∧
      t.kst = { s.kst with bndFloor := blow s.kst.bndFloor (min x.parsed.secver 255) } ∧
      (∃ c, t.bdy.colophon.getLast? = some c ∧ c.reason = 3) ∧ OnlyIn [.cnt, .cells, .kst, .bdy, .bnd] s t) ∧
  (∀ (s : State) (x : Staged), s.bnd.structural = some x → x.armed = some (now s) → x.peer = true → pairUp s = true →
    readHold s s.bnd.affected = false → exec .structuralCommit s =
      .next { s with bnd := { s.bnd with structural := none, affected := 0, lastResult := 0x0B } }) ∧
  (∀ (s : State) (x : Staged), s.bnd.structural = some x → x.armed = some (now s) → x.peer = true → pairUp s = true →
    readHold s s.bnd.affected = true →
    let fresh := (baysIn s.bnd.affected).flatMap (bayCellsOf x.parsed)
    ∃ t, exec .structuralCommit s = .next t ∧ t.bnd.active = some x.parsed ∧ t.bnd.actBytes = x.bytes ∧ t.bnd.source = 2 ∧
      t.bnd.structural = none ∧ t.bnd.affected = 0 ∧ t.bnd.trim = none ∧
      t.kst = { s.kst with bndFloor := blow s.kst.bndFloor (min x.parsed.secver 255) } ∧
      (∃ c, t.bdy.colophon.getLast? = some c ∧ c.reason = 2) ∧
      ((∀ b ∈ baysIn s.bnd.affected, (bayAt s b).holdEntry = false) →
        (∀ n, (∃ c, (n, c) ∈ fresh) → (n, cellAt t n) ∈ fresh) ∧
        (∀ n, (∀ c, (n, c) ∉ fresh) → s.bnd.affected.getLsbD ((cellAt s n).opu / 2) = false → cellAt t n = cellAt s n) ∧
        (∀ e ∈ t.cells, s.bnd.affected.getLsbD (e.2.opu / 2) = true → e ∈ fresh))) ∧
  (∀ s : State, (∀ x, s.bnd.trim = some x → x.armed ≠ some (now s)) → exec .trimCommit s = .next s) ∧
  (∀ s : State, (∀ x, s.bnd.structural = some x → x.armed ≠ some (now s)) → exec .structuralCommit s = .next s) ∧
  (∀ (s : State) (x : Staged), s.bnd.structural = some x → x.armed = some (now s) → x.peer = true → pairUp s = false →
    ∃ t, exec .structuralCommit s = .next t ∧ t.bnd.structural = none ∧ t.bnd.trim = none ∧ t.bnd.lastResult = 0x0C ∧
      t.bnd.active = s.bnd.active ∧ t.cells = s.cells ∧ OnlyIn [.bnd] s t)

/-- Acceptance of the five servo commands (from R139, R137, R147, R148, R142, R151, R407, R6). -/
def Obligations.ServoCommandsAreQueued : Prop :=
  ∀ (s : State) (cell : Fin 96) (src : Src) (target present : BitVec 4) (given : Bool) (tracks : BitVec 24) (component : BitVec 2)
    (value : Half),
    let c := cellAt s cell
    let hold := (bayAt s (c.opu / 2)).mode = 5 ∨ (bayAt s (c.opu / 2)).holdEntry = true
    let effect := max (reg s .srvCellCtlAt cell) (now s + 3)
    let holds := fun (i : Instr) (op arg : Nat) (bad : Prop) =>
      (mayCommand s src = false → exec i s = .next s) ∧
      (mayCommand s src = true →
        (c.named = false ∨ accepts s (c.opu / 2) = false ∨ bad → exec i s = .next (setCell s cell { c with result := 2 })) ∧
        (c.named = true → accepts s (c.opu / 2) = true → ¬ bad → 4 ≤ c.queue.length → exec i s = .next (setCell s cell { c with result := 1 })) ∧
        (c.named = true → accepts s (c.opu / 2) = true → ¬ bad → c.queue.length < 4 → ∃ t, exec i s = .next t ∧
          cellAt t cell = { c with queue := enqueue c.queue { op := op, arg := arg, effect := effect }, result := 0 } ∧
          (∀ n, n ≠ cell.val → cellAt t n = cellAt s n) ∧
          t.spn = { s.spn with issued := s.spn.issued ++
            [{ obj := .cell cell, op := BitVec.ofNat 8 op, arg := BitVec.ofNat 32 arg, effect := BitVec.ofNat 64 effect }] } ∧
          OnlyIn [.cells, .spn] s t))
    holds (.srvClose cell src) 1 0 hold ∧ holds (.srvOpen cell src) 2 0 False ∧
    holds (.srvJump cell src target present given) 3 (target.toNat + 16 * present.toNat + (if given then 256 else 0)) (c.loop ≠ 0) ∧
    holds (.srvSeek cell src tracks) 4 tracks.toNat (c.loop ≠ 1 ∨ sw c 5 < tracks.toInt.natAbs) ∧
    holds (.srvOffset cell src component value) 5 (component.toNat * 65536 + value.toNat) (component = 3)

/-- What the commands do at their effect stitch (from R137 to R139, R142, R147, R148, R151, R163, R178). -/
def Obligations.CommandsActAtTheirEffectStitch : Prop :=
  (∀ (s : State) (n : Fin 96), (portAt s ((cellAt s n).opu / 2)).landed = none → exec (.effectStitchReached (.cell n)) s = .next s) ∧
  (∀ (s : State) (n : Fin 96) (q : QCmd), (portAt s ((cellAt s n).opu / 2)).landed ≠ none → (cellAt s n).queue = [q] → q.effect ≤ now s →
    let c := cellAt s n
    let done := fun (d : Cell) => { d with queue := [], effect := q.effect }
    let stands := fun (u : State) (m : Nat) => cellAt u m = { cellAt s m with queue := (cellAt u m).queue, result := (cellAt u m).result } ∧
      ((cellAt u m).queue = (cellAt s m).queue ∧ (cellAt u m).result = (cellAt s m).result ∨
        c.seq.kind = .seek ∧ q.op = 2 ∧ cellOf s c.opu 0 = some m ∧ (cellAt s m).queue.head?.any (fun k => k.op = 3) = true ∧
          (cellAt u m).queue = (cellAt s m).queue.tail ∧ (cellAt u m).result = 2)
    let becomes := fun (d : Cell) (counters : List Nat) => ∃ u, exec (.effectStitchReached (.cell n)) s = .next (cascade u c.opu) ∧
      cellAt u n = done d ∧ (∀ m, m ≠ n.val → stands u m) ∧
      (∀ i, i < 32 → counter u 5 i = counter s 5 i + (if counters.contains i then 1 else 0))
    (q.op = 1 → c.st = .parked → (∀ p, prereqOf s c = some p → (cellAt s p).st = .closed) →
      becomes (enterSearch { c with fault := false, cause := 0, xm := [] } (park c)) []) ∧
    (∀ p, q.op = 1 → c.st = .parked → prereqOf s c = some p → (cellAt s p).st ≠ .closed →
      exec (.effectStitchReached (.cell n)) s = .next (cascade s c.opu)) ∧
    (q.op = 1 → c.st ≠ .parked → c.st ≠ .retract → becomes c []) ∧
    (q.op = 2 → (c.st = .closed ∨ c.st = .sequence ∨ c.st = .held) →
      becomes (enterRetract c 6 false) (match c.seq.kind with | .jump => [4] | .seek => [7] | _ => [])) ∧
    (q.op = 3 → c.st = .closed → c.seq.kind = .none → (∀ m, cellOf s c.opu 1 = some m → (cellAt s m).seq.kind ≠ .seek) →
      ∀ l, (if bits q.arg 8 8 = 1 then some (bits q.arg 7 4) else c.layer) = some l → l ≠ bits q.arg 3 0 →
      becomes { enter { c with layer := some l } .sequence with seq :=
        { kind := .jump, step := .kick, target := bits q.arg 3 0, deeper := decide (bits q.arg 3 0 < l), remain := ((bits q.arg 3 0 : Int) - l).natAbs } } [3]) ∧
    (q.op = 4 → c.st = .closed → c.seq.kind = .none →
      (∀ m, cellOf s c.opu 0 = some m → (cellAt s m).seq.kind ≠ .jump ∧ (cellAt s m).seq.kind ≠ .acquire) → sx 24 q.arg ≠ 0 →
      becomes { enter c .sequence with seq := { kind := .seek, step := .kick, d := sx 24 q.arg, remain := sx 24 q.arg } } [5]) ∧
    (q.op = 5 → let v := sat16 (trunc (sx 16 q.arg * (cw c 12 : Int)) 256)
      becomes (match bits q.arg 17 16 with | 0 => { c with cal := v } | 1 => { c with sweep := v } | _ => { c with trial := v }) [])) ∧
  (∀ (s : State) (n : Fin 8) (q : QCmd), (portAt s n).landed ≠ none → (unitAt s n).queue = [q] → q.effect ≤ now s → q.op = 1 →
    (unitAt s n).st = .off → (unitAt s n).fault = false → ∃ t, exec (.effectStitchReached (.unit n)) s = .next t ∧
      unitAt t n = { toSense { unitAt s n with
        queue := [], want := q.arg, target := min q.arg (spdPar s n).limit, capped := decide ((spdPar s n).limit < q.arg), lockRun := 0 } with
          attempt := 1 } ∧ counter t 6 0 = counter s 6 0 + 1 ∧
      (∀ m, m ≠ n.val → unitAt t m = unitAt s m) ∧ OnlyIn [.units, .cnt] s t) ∧
  (∀ (s : State) (n : Fin 32) (q : QCmd), (portAt s (axisBay n)).landed ≠ none → (axisAt s n).queue = [q] → q.effect ≤ now s → q.op = 1 →
    (axisAt s n).st = .idle → (axisAt s n).known = true → (axisAt s n).hold = false → (q.arg : Int) ≤ softRange (decide (n.val < 16)) →
    ∃ t, exec (.effectStitchReached (.axis n)) s = .next t ∧ axisAt t n = { axisAt s n with
        queue := [], st := .moving, tgt := q.arg * unitStep, aC := 0, follow := false } ∧
      (∀ m, m ≠ n.val → axisAt t m = axisAt s m) ∧ OnlyIn [.axes, .cnt] s t)

/-- A jump's steps (from R147); the dependants follow where the cell's state ends the suspension (cascade, R137); a lost readiness revokes the
grant (R15). -/
def Obligations.LayerJumpSteps : Prop :=
  ∀ (s : State) (cell : Fin 96), due (cellAt s cell) = false → (cellAt s cell).seq.kind = .jump →
    let c := cellAt s cell
    (c.seq.step = .kick → exec (.jumpKickEnd cell) s = .next (if sw c 1 ≤ c.seq.stepSt then
      setCell s cell { c with seq := { c.seq with step := .coast, stepSt := 0, armed := false } } else s)) ∧
    (c.seq.step = .brake → c.st = .sequence → exec (.jumpBrakeEnd cell) s = .next (if sw c 3 ≤ c.seq.stepSt then
      setCell s cell (closeAt { c with seq := { c.seq with step := if 0 < c.seq.remain then .dwell else .settle, stepSt := 0 } } c.seq.pre)
      else s)) ∧
    (c.seq.step = .dwell → c.st = .closed → exec (.jumpDwellEnd cell) s = .next (if 16 ≤ c.seq.stepSt then
      setCell s cell { enter c .sequence with seq := { c.seq with step := .kick, stepSt := 0, total := 0, armed := false } } else s)) ∧
    (c.seq.step = .settle → c.st = .closed → exec (.jumpSettleEnd cell) s = .next (if sw c 6 ≤ c.seq.stepSt then
      cascade (setCell s cell { c with seq := {} }) c.opu else s)) ∧
    ((c.seq.step = .kick ∨ c.seq.step = .coast) → c.st = .sequence → c.captured = false → exec (.jumpTimeout cell) s = .next (
      if sw c 5 ≤ c.seq.total then dropUnready (cascade (setCell (bump s 5 4) cell (enterRetract c 5 true)) c.opu) c.opu else s))

/-- A seek's steps (from R148); a lost readiness revokes the grant (R15). -/
def Obligations.SeekSteps : Prop :=
  ∀ (s : State) (cell : Fin 96), due (cellAt s cell) = false → (cellAt s cell).seq.kind = .seek →
    let c := cellAt s cell
    (c.seq.step = .kick → exec (.seekKickEnd cell) s = .next (if sw c 1 ≤ c.seq.stepSt then
      setCell s cell { c with seq := { c.seq with step := if c.seq.d = 0 then .window else .velocity, stepSt := 0 } } else s)) ∧
    (c.st = .sequence → c.captured = false → 0 < c.seq.win → exec (.seekCaptureWindowEnd cell) s = .next (if sw c 6 ≤ c.seq.win then
      setCell s cell { c with seq := { c.seq with
        needLeave := true, win := 0, step := if c.seq.step = .window then .velocity else c.seq.step } } else s)) ∧
    (c.seq.step = .settle → c.st = .closed → exec (.seekSettleEnd cell) s = .next (if sw c 8 ≤ c.seq.stepSt then
      cascade (setCell s cell { c with seq := {} }) c.opu else s)) ∧
    (c.st = .sequence → c.captured = false → (c.seq.total < sw c 7 → exec (.seekTimeout cell) s = .next s) ∧
      (sw c 7 ≤ c.seq.total → c.loop ≠ 0 → ∃ u, exec (.seekTimeout cell) s = .next (dropUnready (cascade u c.opu) c.opu) ∧
        cellAt u cell = enterRetract c 5 true ∧ counter u 5 7 = counter s 5 7 + 1 ∧
        (∀ i, i < 32 → i ≠ 7 → counter u 5 i = counter s 5 i) ∧ OnlyIn [.cells, .cnt] s u))

/-- The ends of a search, a hold, a retraction (from R136, R137, R146, R148), and the prerequisite rule (R137, R138, R151). -/
def Obligations.SearchesHoldsAndRetractionsEnd : Prop :=
  (∀ (s : State) (cell : Fin 96), let c := cellAt s cell
    let alike := fun (d e : Cell) => d = { e with queue := d.queue, result := d.result }
    (c.st = .search → c.captured = false →
      (c.loop = 0 ∧ swS c 8 * 256 ≤ c.searchPos ∧ 0 < c.seq.total ∨ c.loop = 1 ∧ sw c 7 ≤ c.seq.total) →
      ∃ u, exec (.searchTimeout cell) s = .next (dropUnready (cascade u c.opu) c.opu) ∧ alike (cellAt u cell) (enterRetract c 4 true) ∧
        counter u 5 8 = counter s 5 8 + 1 ∧ (∀ n, n ≠ cell.val → alike (cellAt u n) (cellAt s n)) ∧ OnlyIn [.cells, .cnt] s u) ∧
    (c.st = .held → holdMax c ≤ c.holdSt → c.zeroSt < nPlaus c →
      ∃ u, exec (.holdMaxExpiry cell) s = .next (surfaceLost (revokeGrants (cascade u c.opu) c.opu) c.opu) ∧
        alike (cellAt u cell) (enterRetract c 1 true) ∧
        (∀ n, n ≠ cell.val → alike (cellAt u n) (cellAt s n)) ∧ OnlyIn [.cells, .cnt] s u) ∧
    (c.st = .held → nPlaus c ≤ c.zeroSt → exec (.holdRelease cell) s =
      .next (cascade (setCell s cell { c with st := .closed, cnt := 0, holdSt := 0, zeroSt := 0 }) c.opu)) ∧
    (c.st = .retract → retractLen c ≤ c.rampI → exec (.retractComplete cell) s =
      .next (holdRest (holdFocus (cascade (setCell s cell (enterParked c)) c.opu) c.opu) (c.opu / 2))) ∧
    (c.st ≠ .search → exec (.searchTimeout cell) s = .next s) ∧
    (c.st ≠ .held ∨ c.holdSt < holdMax c → exec (.holdMaxExpiry cell) s = .next s) ∧
    (c.st ≠ .held ∨ c.zeroSt < nPlaus c → exec (.holdRelease cell) s = .next s) ∧
    (c.st ≠ .retract ∨ c.rampI < retractLen c → exec (.retractComplete cell) s = .next s)) ∧
  (∀ (c : Cell) (cause : Nat), (enterRetract c cause true).st = .retract ∧ (enterRetract c cause true).fault = true ∧
    (enterRetract c cause true).cause = (if c.fault then c.cause else cause) ∧ (enterParked c).st = .parked ∧ (enterParked c).iAcc = 0 ∧
    (enterParked c).secs = [] ∧ (enterParked c).u = park c ∧ (enterParked c).uPre = park c ∧ offsetIn (enterParked c) = 0 ∧
    (enterParked c).queue = c.queue ∧ (enterParked c).fault = c.fault) ∧
  (∀ (s : State) (n p : Nat), prereqOf s (cellAt s n) = some p →
    let c := cellAt s n
    let q := cellAt s p
    let t := followPrereq s n
    let alike := fun (d e : Cell) => d = { e with queue := d.queue, result := d.result }
    ((q.st = .retract ∨ q.st = .parked) → c.st ≠ .parked → c.st ≠ .retract → alike (cellAt t n) (enterRetract c 3 false)) ∧
    ((q.st = .held ∨ q.st = .sequence ∨ q.st = .search ∨ q.st = .suspended ∨ q.st = .closed ∧ q.seq.kind = .jump) →
      (c.st = .closed ∨ c.st = .sequence) → cellAt t n = enterSuspended c) ∧
    (q.st = .closed → q.seq.kind = .none → c.st = .suspended → cellAt t n = if c.loop = 1 then enterSearch c c.zh else enter c .closed) ∧
    (∀ m, m ≠ n → alike (cellAt t m) (cellAt s m)))

/-- Acceptance of the spindle and axis commands (from R139, R170, R171, R177, R178, R187, R6). -/
def Obligations.SpindleAndAxisCommandsAreQueued : Prop :=
  (∀ (s : State) (n : Fin 8) (src : Src) (rpm : BitVec 13) (coast : Bool),
    let u := unitAt s n
    let effect := max (reg s .spdUnitCtlAt n) (now s + 3)
    let holds := fun (i : Instr) (op arg : Nat) (bad : Prop) =>
      (mayCommand s src = false → exec i s = .next s) ∧
      (mayCommand s src = true →
        (accepts s n = false ∨ bad → exec i s = .next (setUnit s n { u with result := 2 })) ∧
        (accepts s n = true → ¬ bad → 4 ≤ u.queue.length → exec i s = .next (setUnit s n { u with result := 1 })) ∧
        (accepts s n = true → ¬ bad → u.queue.length < 4 → ∃ t, exec i s = .next t ∧
          unitAt t n = { u with queue := enqueue u.queue { op := op, arg := arg, effect := effect }, result := 0 } ∧
          (∀ m, m ≠ n.val → unitAt t m = unitAt s m) ∧
          t.spn = { s.spn with issued := s.spn.issued ++
            [{ obj := .unit n, op := BitVec.ofNat 8 op, arg := BitVec.ofNat 32 arg, effect := BitVec.ofNat 64 effect }] } ∧
          OnlyIn [.units, .spn] s t))
    holds (.spdStart n src rpm) 1 rpm.toNat (u.fault = true) ∧ holds (.spdStop n src coast) 2 (if coast then 1 else 0) False ∧
    holds (.spdSpeed n src rpm) 3 rpm.toNat (u.fault = true ∨ u.st ≠ .run ∧ startPath u = false) ∧ holds (.spdClear n src) 4 0 False) ∧
  (∀ (s : State) (n : Fin 32) (src : Src) (target : BitVec 20),
    let a := axisAt s n
    let effect := max (reg s .motAxisCtlAt n) (now s + 3)
    let holds := fun (i : Instr) (op arg : Nat) (bad : Prop) =>
      (mayCommand s src = false → exec i s = .next s) ∧
      (mayCommand s src = true →
        (accepts s (axisBay n) = false ∨ bad → exec i s = .next (setAxis s n { a with result := 2 })) ∧
        (accepts s (axisBay n) = true → ¬ bad → 4 ≤ a.queue.length → exec i s = .next (setAxis s n { a with result := 1 })) ∧
        (accepts s (axisBay n) = true → ¬ bad → a.queue.length < 4 → ∃ t, exec i s = .next t ∧
          axisAt t n = { a with queue := enqueue a.queue { op := op, arg := arg, effect := effect }, result := 0 } ∧
          (∀ m, m ≠ n.val → axisAt t m = axisAt s m) ∧
          t.spn = { s.spn with issued := s.spn.issued ++
            [{ obj := .axis n, op := BitVec.ofNat 8 op, arg := BitVec.ofNat 32 arg, effect := BitVec.ofNat 64 effect }] } ∧
          OnlyIn [.axes, .spn] s t))
    holds (.motMove n src target) 1 target.toNat (softRange (decide (n.val < 16)) < (target.toNat : Int) ∨ a.known = false ∧ a.st ≠ .homing) ∧
    holds (.motRampStop n src) 2 0 (a.known = false) ∧ holds (.motHardStop n src) 3 0 (a.known = false) ∧ holds (.motHome n src) 4 0 False ∧
    holds (.motRelease n src) 5 0 False ∧ holds (.motEnergise n src) 6 0 False ∧ holds (.motClear n src) 7 0 (a.known = false))

/-- The start path (from R161, R163, R164, R170, R20). -/
def Obligations.SpindleStartsByItsTable : Prop :=
  ∀ (s : State) (n : Fin 8), let u := unitAt s n
    let becomes := fun (i : Instr) (v : Machine.Unit) => ∃ t, exec i s = .next t ∧ unitAt t n = v ∧ (∀ m, m ≠ n.val → unitAt t m = unitAt s m) ∧
      OnlyIn [.units] s t
    let fails := fun (i : Instr) (cause : Nat) => ∃ v, exec i s = .next (bayLost v n) ∧ (unitAt v n).st = .fault ∧ (unitAt v n).fault = true ∧
      (unitAt v n).cause = cause ∧ v.bdy.staged.length = s.bdy.staged.length + 1 ∧ (∀ m, m ≠ n.val → unitAt v m = unitAt s m) ∧
      OnlyIn [.units, .bdy] s v
    (u.st = .sense → 5000 ≤ u.timer →
      let w := senseOmega u
      let r := rpmOf (spdPar s n) (BitVec.ofInt 32 w)
      (w = 0 → becomes (.senseComplete n) (toAlign u 1)) ∧
      (w ≠ 0 → 300 ≤ r →
        exec (.senseComplete n) s = .next (bump (setUnit s n (toRun (spdPar s n) u u.senseLast (BitVec.ofInt 32 w))) 6 2)) ∧
      (w ≠ 0 → -60 ≤ r → r < 300 → ∃ v, becomes (.senseComplete n) v ∧ v.st = .short ∧ v.brake = .start 1 ∧
        v.pulsed = false ∧ v.fraction = 4095) ∧
      (w ≠ 0 → r < -60 → ∃ v, becomes (.senseComplete n) v ∧ v.st = .short ∧ v.brake = .backward)) ∧
    (u.st = .align → 50000 ≤ u.timer → becomes (.alignComplete n) (toRamp u)) ∧
    (u.st = .ramp → 375000 ≤ u.timer → u.validRun < 6 →
      (u.attempt < 4 → ∃ t, exec (.rampTimeout n) s = .next t ∧ (unitAt t n).st = .short ∧ (unitAt t n).brake = .start (u.attempt + 1) ∧
        counter t 6 1 = counter s 6 1 + 1 ∧ (∀ m, m ≠ n.val → unitAt t m = unitAt s m) ∧ OnlyIn [.units, .cnt] s t) ∧
      (4 ≤ u.attempt → fails (.rampTimeout n) 1)) ∧
    (∀ a, u.st = .short → u.brake = .start a → (if a = 1 then 75000 else 125000) ≤ u.timer → becomes (.startBrakeEnd n) (toAlign u a)) ∧
    (u.st = .short → u.brake = .backward → u.rpmShort.natAbs ≤ 60 → u.timer < 1000000 → becomes (.startBrakeEnd n) (toAlign u 1)) ∧
    (u.st = .short → u.brake = .backward → 1000000 ≤ u.timer → fails (.backwardBrakeTimeout n) 6) ∧
    (u.timer < 5000 → exec (.senseComplete n) s = .next s) ∧ (u.timer < 50000 → exec (.alignComplete n) s = .next s) ∧
    (u.timer < 375000 → exec (.rampTimeout n) s = .next s) ∧ (u.timer < 1000000 → exec (.backwardBrakeTimeout n) s = .next s) ∧
    (u.timer < 75000 → u.brake ≠ .backward → exec (.startBrakeEnd n) s = .next s) ∧
    (∀ v, (toAlign v 1).st = .align ∧ (toAlign v 1).attempt = 1 ∧ (toAlign v 1).timer = 0 ∧ (toRamp v).st = .ramp ∧ (toRamp v).timer = 0 ∧
      (∀ p th w, (toRun p v th w).st = .run ∧ (toRun p v th w).theta = th ∧ (toRun p v th w).omega = w ∧ (toRun p v th w).locked = false))

/-- Running, locking, faults and stops (from R159 to R162, R167, R168, R170, R15, R20), inertia (R200; the cause shown: log entry 172). -/
def Obligations.SpindleRunsLocksAndStops : Prop :=
  (∀ (s : State) (n : Fin 8), let u := unitAt s n
    (u.st = .run → 16 ≤ u.lockRun → exec (.spindleLock n) s = .next (applyInertia (setUnit s n { u with locked := true, outRun := 0 }) n)) ∧
    (u.st ≠ .run ∨ u.lockRun < 16 → exec (.spindleLock n) s = .next s) ∧ (u.inertia = none → applyInertia s n = s) ∧
    (u.locked = true → 2 ≤ u.outRun → ∃ t, exec (.spindleUnlock n) s = .next t ∧ unitAt t n = { u with locked := false, lockRun := 0 } ∧
      (∀ m, m ≠ n.val → unitAt t m = unitAt s m) ∧
      (∀ g ∈ (bayAt t n).grants, g.1 ≠ 2 * n.val ∧ g.1 ≠ 2 * n.val + 1) ∧
      OnlyIn [.units, .bays, .ports, .spn, .cells, .axes, .rdc, .wrc, .cal] s t) ∧
    (u.locked = false ∨ u.outRun < 2 → exec (.spindleUnlock n) s = .next s) ∧
    (u.st = .run → 6 ≤ u.missedRun → let again := u.lossAge.any (fun k => decide (k ≤ 2500000))
      ∃ v, unitAt v n = (if again then latchFault (toCoast { u with lossAge := some 0 }) 2 else toSense { u with lossAge := some 0 }) ∧
      (∀ m, m ≠ n.val → unitAt v m = unitAt s m) ∧ counter v 6 4 = counter s 6 4 + 1 ∧ OnlyIn [.units, .cnt, .bdy] s v ∧
      exec (.lossOfSync n) s = .next (if again then bayLost (revokeBay v n) n else revokeBay v n)) ∧
    (u.st ≠ .run ∨ u.missedRun < 6 → exec (.lossOfSync n) s = .next s) ∧
    (64 ≤ u.overRun → ∃ v, (unitAt v n).st = .short ∧ (unitAt v n).fault = true ∧ (unitAt v n).cause = 4 ∧
      (unitAt v n).pulsed = true ∧ (unitAt v n).fraction = 1024 ∧ (∀ m, m ≠ n.val → unitAt v m = unitAt s m) ∧
      counter v 6 7 = counter s 6 7 + 1 ∧ OnlyIn [.units, .cnt, .bdy] s v ∧ exec (.overspeedFault n) s = .next (stopBay v n false)) ∧
    (u.overRun < 64 → exec (.overspeedFault n) s = .next s) ∧
    (62500 ≤ u.standRun → (u.st = .coast → exec (.standstill n) s = .next (setUnit s n (toOff u))) ∧
      (u.st = .short → u.stood = none → exec (.standstill n) s = .next (setUnit s n { u with stood := some 0, rpmShort := 0 }))) ∧
    (u.standRun < 62500 → exec (.standstill n) s = .next s) ∧
    (u.st = .short → u.brake = .stop → (∃ k, u.stood = some k ∧ 125000 ≤ k) →
      exec (.shortBrakeComplete n) s = .next (setUnit s n (toOff u))) ∧
    ((∀ k, u.stood = some k → k < 125000) → exec (.shortBrakeComplete n) s = .next s) ∧
    (toOff u).st = .off ∧ (toOff u).omega = 0 ∧ (toOff u).fault = (u.fault && !u.clearAtRest)) ∧
  (∀ (s : State) (g : Fin 8), s.bus.blocked.getLsbD g = true → (∀ b, b < 8 → groupOf s b = g.val → 250 ≤ getD s.bus.clean 0 b) →
    ∃ t, exec (.busBlockClear g) s = .next t ∧ (∀ k, k < 8 → t.bus.blocked.getLsbD k = (s.bus.blocked.getLsbD k && k != g.val)) ∧
      t.bus.tripped = s.bus.tripped ∧ OnlyIn [.bus] s t) ∧
  (∀ (s : State) (g : Fin 8) (b : Nat), b < 8 → groupOf s b = g.val → 0 < getD s.bus.overT 0 b →
    regBits s .spdBusCfg2 0 7 0 ≤ getD s.bus.overT 0 b → s.bus.tripped.getLsbD g = false → ∃ t, exec (.busTrip g) s = .next t ∧
      t.bus.tripped = s.bus.tripped ||| ((1 : Byte) <<< g.val) ∧ t.bus.blocked = s.bus.blocked ∧ counter t 6 6 = counter s 6 6 + 1 ∧
      (∀ c, c < 8 → groupOf s c = g.val → (pairAt s c).role ≠ 0 → (unitAt t c).st = .coast ∧ (unitAt t c).fault = true ∧
        (unitAt t c).cause = 3 ∧ (bayAt t c).safeStop = true ∧ (bayAt t c).coast = true) ∧
      (∀ c, groupOf s c ≠ g.val → unitAt t c = unitAt s c)) ∧
  (∀ (s : State) (n : Fin 8), let u := unitAt s n
    (u.accel = none → exec (.inertiaMeasured n) s = .next s) ∧
    (∀ a, u.accel = some a → (a.whole = false ∨ a.n1 = 0 ∨ a.n2 = 0 → exec (.inertiaMeasured n) s = .next s) ∧
      (a.whole = true → a.n1 ≠ 0 → a.n2 ≠ 0 →
        let x := Config.inertiaOf a.sum1 a.n1 (spdPar s n).accMax
        let y := Config.inertiaOf a.sum2 a.n2 (spdPar s n).accMax
        exec (.inertiaMeasured n) s = .next (if ((x : Int) - y).natAbs * 100 ≤ 5 * y
          then applyInertia (setUnit s n { u with accel := none, inertia := some y }) n else setUnit s n { u with accel := none }))))

/-- Homing's time-out (from R184) and following (R186). -/
def Obligations.AxesLoseFindAndFollow : Prop :=
  (∀ (s : State) (n : Fin 32), let a := axisAt s n
    let far := softRange (motPar s n).sled * 11 * unitStep ≤ 10 * (a.homeFrom - a.p)
    (a.st = .homing → a.homeOut = false → far → ∃ t, exec (.homingTimeout n) s = .next t ∧ (axisAt t n).st = .unknown ∧
      (axisAt t n).known = false ∧ (axisAt t n).fault = true ∧ (axisAt t n).cause = 4 ∧ (axisAt t n).v = 0 ∧
      (∀ m, m ≠ n.val → axisAt t m = axisAt s m) ∧ counter t 7 3 = counter s 7 3 + 1 ∧
      (∀ i, i < 32 → i ≠ 3 → counter t 7 i = counter s 7 i) ∧ OnlyIn [.axes, .cnt] s t) ∧
    (a.st ≠ .homing ∨ a.homeOut = true ∨ ¬ far → exec (.homingTimeout n) s = .next s)) ∧
  (∀ (s : State) (n : Fin 16), let a := axisAt s n
    let m := motPar s n
    (m.followEn = true → a.st = .idle → a.hold = false → m.followSt ≤ a.followRun → 0 < a.followRun →
      (∃ k, cellOf s n 1 = some k ∧ (cellAt s k).st = .closed) → ∃ t, exec (.followMoveStart n) s = .next t ∧
      axisAt t n = { a with st := .moving, tgt := a.p + (if a.followSign then -m.followStep else m.followStep) * unitStep, aC := 0, follow := true, followRun := 0 } ∧
      counter t 7 5 = counter s 7 5 + 1 ∧ (∀ i, i < 32 → i ≠ 5 → counter t 7 i = counter s 7 i) ∧
      (∀ k, k ≠ n.val → axisAt t k = axisAt s k) ∧ OnlyIn [.axes, .cnt] s t) ∧
    (m.followEn = false ∨ a.st ≠ .idle ∨ a.followRun < m.followSt → exec (.followMoveStart n) s = .next s))

/-- From R63, R87, R88, R103, R106, R107, R110, R189: requests, passes, timing lock, dispatch (lowest step and pass first: `nextPass`). -/
def Obligations.ReadsAreAskedAndPassesStart : Prop :=
  (∀ (s : State) (r : ReadReq), readAt s r.tag = none → readOk s r = true → runs s (r.leaf.surface.val / 2) = true →
    surfState s r.leaf.surface ≠ 2 → ∃ t x, exec (.folioReadRequest r) s = .next t ∧ readAt t r.tag = some x ∧ x.req = r ∧
      x.granted = false ∧ x.expired = false ∧ x.deadline = now s + (modeRec s (r.leaf.surface.val / 2)).slowMs * 250 ∧
      (∀ k, k ∈ r.slots ↔ ∃ f ∈ x.folios, f.slot = k) ∧
      (∀ f ∈ x.folios, f.step = 1 ∧ f.pass_ = 0 ∧ f.done = none ∧ f.expect = (r.expect || listedWritten s r.leaf f.slot)) ∧
      (∀ n, n ≠ r.tag → readAt t n = readAt s n) ∧ t.rdc.queue = s.rdc.queue ∧ OnlyIn [.rdc] s t) ∧
  (∀ (s : State) (r : ReadReq), readAt s r.tag ≠ none ∨
    (readOk s r = true ∧ (runs s (r.leaf.surface.val / 2) = false ∨ surfState s r.leaf.surface = 2)) →
    exec (.folioReadRequest r) s = .next s) ∧
  (∀ (s : State) (r : ReadReq) (c : Cmd), readAt s r.tag = none → readOk s r = false →
    s.hiu.cmds.find? (fun c => (c.sqe.kind == .read || c.sqe.kind == .verify) && c.st == .media && c.seq == r.tag / 1024) = some c →
    exec (.folioReadRequest r) s = .next (complete s c.ref .invalidField)) ∧
  (∀ (s : State) (r : ReadSt), readAt s r.req.tag = some r → layerUnused s r = true → runs s (r.req.leaf.surface.val / 2) = true →
    exec (.readPassStart r.req.tag) s = .next (firstRead s r.req.leaf.surface r.req.leaf.layer)) ∧
  (∀ (s : State) (r : ReadSt) (step pass : Nat), readAt s r.req.tag = some r → (∀ e ∈ s.rdc.reads, e.2.req.tag = e.1) →
    (s.rdc.reads.map (·.1)).Nodup → (∀ f ∈ r.folios, f.step < 8 ∧ f.pass_ < 8) → layerUnused s r = false → passMayStart s r = true → nextPass r = some (step, pass) →
    let opu := r.req.leaf.surface.val
    let rs := passRequests s r.req.leaf step pass
    ∃ t, exec (.readPassStart r.req.tag) s = .next t ∧ r ∈ rs ∧ (∀ f ∈ r.folios, needsMedia f = true → 8 * step + pass ≤ 8 * f.step + f.pass_) ∧
      (∀ x ∈ rs, readAt t x.req.tag = some { x with
        granted := true, sweep := sweepOf (latchCfg s opu) opu step pass
        folios := x.folios.map (fun g => { g with started := needsMedia g && g.step == step && g.pass_ == pass }) }) ∧
      (∀ n, (∀ x ∈ rs, x.req.tag ≠ n) → readAt t n = readAt s n) ∧
      (bayAt t (opu / 2)).grants = (bayAt s (opu / 2)).grants ++ [(opu, r.req.act.val)] ∧ t.rdc.reports = s.rdc.reports ∧
      look t.rdc.runCfg opu = some (rdcConfig.map (reg s) ++ (List.range 8).map (reg s .rdcTarget))) ∧
  (∀ (s : State) (r : ReadSt), readAt s r.req.tag = some r → layerUnused s r = false → passWanted s r = true →
    opuReady s r.req.leaf.surface r.req.leaf.layer r.req.leaf.frame = false →
    ∃ t, exec (.readPassStart r.req.tag) s = .next t ∧ OnlyIn [.ports, .spn, .cells, .units, .axes] s t) ∧
  (∀ (s : State) (n : Fin 64), let c := chanAt s n
    (c.st ≠ 0 → c.cur.lockAt ≠ none → exec (.timingLockDeclared n) s = .next (setChan s n { c with blank := false })) ∧
    (c.st ≠ 0 → c.cur.lockAt = none → exec (.timingLockDeclared n) s = .next (if 240 ≤ c.cur.n then setChan s n { c with blank := true } else s)) ∧
    (c.st = 2 → exec (.timingLockLoss n) s = .next (
      if errAbove 256 (runBits s c.opu .rdcTimingCfg 7 0) c.errs = true then
        setChan s n { c with st := 3, cur := { c.cur with lost := c.cur.lost ++ [(c.cur.n, none)] } }
      else s)) ∧
    (∀ k l, c.st = 3 → c.cur.lost = l ++ [(k, none)] → exec (.timingLockRegained n) s = .next (match nextResync s c k with
      | some p => setChan s n { c with st := 2, cur := { c.cur with lost := l ++ [(k, some p)] } }
      | none => s)) ∧
    (c.st = 0 → exec (.timingLockDeclared n) s = .next s ∧ exec (.timingLockLoss n) s = .next s ∧ exec (.timingLockRegained n) s = .next s)) ∧
  (∀ (s : State) (q : Nat × Nat × Nat), nextQueued s = some q → q ∈ s.rdc.queue ∧
    (∀ y ∈ s.rdc.queue, y.2.2 ≤ 2 → q.2.2 ≤ y.2.2 ∧ (y.2.2 = q.2.2 → readTime s q ≤ readTime s y)) ∧
    (∀ (r : ReadSt) (f : FolioRd), q.1 = r.req.tag → readAt s r.req.tag = some r → folioAt r q.2.1 = some f →
      (s.rdc.busy + f.cws ≤ decoderLimit s → ∃ t x, exec .codewordDispatch s = .next t ∧ t.rdc.queue = s.rdc.queue.filter (fun y => y ≠ q) ∧
        t.rdc.busy = s.rdc.busy + f.cws ∧ readAt t r.req.tag = some x ∧
        folioAt x q.2.1 = some { f with queued := false, inDecoder := true } ∧
        (∀ n, n ≠ r.req.tag → readAt t n = readAt s n) ∧ OnlyIn [.rdc] s t) ∧
      (decoderLimit s < s.rdc.busy + f.cws → exec .codewordDispatch s = .next s))) ∧
  (∀ s : State, s.rdc.queue = [] → exec .codewordDispatch s = .next s)

/-- From R80, R93 to R106, R109 and R110: the end of a folio, decoding, the ladder and the deadline. -/
def Obligations.FoliosClimbTheLadder : Prop :=
  let told (s t : State) (r : ReadSt) (slot result : Nat) : Prop := t.rdc.reports.length = s.rdc.reports.length + 1 ∧
    ∃ p, t.rdc.reports.getLast? = some p ∧ p.result = result ∧ p.tag = r.req.tag ∧ p.fn = folioNumber r.req.leaf.frame slot
  let climbed (s t : State) (r : ReadSt) (f : FolioRd) : Prop := t.rdc.reports.length = s.rdc.reports.length ∧ t.rdc.queue = s.rdc.queue ∧
    ∃ x g, readAt t r.req.tag = some x ∧ folioAt x f.slot = some g ∧ g.done = none ∧ g.queued = false ∧ g.inDecoder = false ∧
      g.step = (climb s r.req.leaf.surface f).step ∧ g.pass_ = (climb s r.req.leaf.surface f).pass_
  (∀ (s : State) (r : ReadSt) (f : FolioRd), readAt s r.req.tag = some r → folioAt r f.slot = some f → r.granted = true →
    r.expired = false → f.started = true → f.done = none →
    let opu := r.req.leaf.surface.val
    let got := readLane s opu (slotLane f.slot) (looks s opu (slotLane f.slot) f.step f.pass_)
    let last := (climb s opu f).step
    (got = none → f.expect = false → ∃ t, exec (.folioReadEnd r.req.tag f.slot) s = .next t ∧ told s t r f.slot 1) ∧
    (got = none → f.expect = true → last ≠ 7 → ∃ t, exec (.folioReadEnd r.req.tag f.slot) s = .next t ∧ climbed s t r f) ∧
    (got = none → f.expect = true → last = 7 → ∃ t, exec (.folioReadEnd r.req.tag f.slot) s = .next t ∧ told s t r f.slot 2) ∧
    (∀ x, got = some x → x.heard.framed.decode = true → ∃ t y g, exec (.folioReadEnd r.req.tag f.slot) s = .next t ∧
      t.rdc.queue = s.rdc.queue ++ [(r.req.tag, f.slot, if r.req.classU then 0 else 1)] ∧ t.rdc.reports.length = s.rdc.reports.length ∧
      readAt t r.req.tag = some y ∧ folioAt y f.slot = some g ∧ g.queued = true ∧ g.started = false ∧ g.step = f.step ∧
      g.pass_ = f.pass_ ∧ g.cws = 8 ∧ g.done = none ∧ g.pointers = x.heard.ptr ∧ g.llr = codewordsOf x.heard.framed.lik x.heard.ptr ∧
      g.sqmLead = x.heard.sqm.1.getD (-128) ∧ g.sqmTrail = x.heard.sqm.2.getD (-128) ∧ g.at_ = now s) ∧
    (∀ x, got = some x → x.heard.framed.decode = false → last ≠ 7 →
      ∃ t, exec (.folioReadEnd r.req.tag f.slot) s = .next t ∧ climbed s t r f) ∧
    (∀ x, got = some x → x.heard.framed.decode = false → last = 7 →
      ∃ t, exec (.folioReadEnd r.req.tag f.slot) s = .next t ∧ told s t r f.slot 2)) ∧
  (∀ (s : State) (r : ReadSt) (f : FolioRd), readAt s r.req.tag = some r → folioAt r f.slot = some f → f.inDecoder = true → f.done = none →
    let opu := r.req.leaf.surface.val
    let again := f.step = 2 ∨ f.redecode = true
    let g := decodeFolio (if again then runBits s opu .rdcDecCfg 15 8 else runBits s opu .rdcDecCfg 7 0) f
    let good := badWords g = 0 ∧ headerOk s r f.slot (wordsPayload g) = true
    ∃ t, exec (.ldpcDecodeDone r.req.tag f.slot) s = .next t ∧ t.rdc.busy = s.rdc.busy - f.cws ∧
      (good → told s t r f.slot 0 ∧ look t.rdc.payloads (payKey opu r.req.leaf.layer (folioNumber r.req.leaf.frame f.slot)) =
        some (scramble (field (wordsPayload g) 0x14 4) (wordsPayload g))) ∧
      (¬ good → t.rdc.payloads = s.rdc.payloads) ∧
      (¬ good → r.expired = true → told s t r f.slot 3) ∧
      (¬ good → r.expired = false → badWords g ≠ 0 → ¬ again → t.rdc.queue = s.rdc.queue ++ [(r.req.tag, f.slot, 2)] ∧
        t.rdc.reports = s.rdc.reports ∧ OnlyIn [.rdc] s t ∧ ∃ x h, readAt t r.req.tag = some x ∧ folioAt x f.slot = some h ∧
        h.queued = true ∧ h.redecode = true ∧ h.inDecoder = false ∧ h.step = (if f.step = 1 then 2 else f.step) ∧
        h.cws = badWords g ∧ h.words = g.words) ∧
      (¬ good → r.expired = false → (badWords g = 0 ∨ again) → (climb s opu f).step ≠ 7 → climbed s t r f) ∧
      (¬ good → r.expired = false → (badWords g = 0 ∨ again) → (climb s opu f).step = 7 → told s t r f.slot 2)) ∧
  (∀ (s : State) (r : ReadSt), readAt s r.req.tag = some r → r.deadline ≤ now s → r.expired = false →
    (r.folios.map (·.slot)).Nodup →
    ∃ t, exec (.readDeadlineExpiry r.req.tag) s = .next t ∧
      (∀ p ∈ t.rdc.reports.drop s.rdc.reports.length, p.result = 3 ∧ p.tag = r.req.tag) ∧
      t.rdc.reports.take s.rdc.reports.length = s.rdc.reports ∧
      t.rdc.reports.length = s.rdc.reports.length + (r.folios.filter (fun f => f.done.isNone && !f.inDecoder)).length ∧
      (∀ x, readAt t r.req.tag = some x → x.expired = true ∧ ∀ f ∈ x.folios, f.done ≠ none ∨ f.inDecoder = true)) ∧
  (∀ (s : State) (r : ReadSt), readAt s r.req.tag = some r → now s < r.deadline → exec (.readDeadlineExpiry r.req.tag) s = .next s)

/-- From R79, R114, R118, R120, R122 to R124, R127 and R189: write runs, cuts, verdicts and laser re-evaluation. -/
def Obligations.WriteRunsAndVerdicts : Prop :=
  (∀ (s : State) (q : Quire) (i : Fin 16) (reserve : Bool), quireAt s q.number = some q → q.st = 1 →
    let l := q.leaves.getD i {}
    (firstWrite s l.surface l.layer).2 = false → runs s (l.surface / 2) = true →
    exec (.writeRunStart q.number i reserve) s = .next (firstWrite s l.surface l.layer).1) ∧
  (∀ (s : State) (q : Quire) (i : Fin 16) (reserve : Bool) (d w o : Nat), quireAt s q.number = some q →
    let l := q.leaves.getD i {}
    let m := l.surface
    let ks := (runRows l reserve).map (·.2)
    (firstWrite s m l.layer).2 = true → runMayStart s q i reserve = true →
    startAhead s m l.layer l.frame (runPosition reserve) ks = some (d, w, o) → 2 ≤ d ∧ ∃ t x y,
      exec (.writeRunStart q.number i reserve) s = .next t ∧ quireAt t q.number = some y ∧ (y.leaves.getD i {}).st = 1 ∧
      (y.leaves.getD i {}).failed = [] ∧ (y.leaves.getD i {}).rowsHeld = (if reserve then l.rowsHeld ++ runRows l reserve else l.rowsHeld) ∧
      (∀ j, j ≠ i.val → y.leaves.getD j {} = q.leaves.getD j {}) ∧ (opuAt t m).run = some x ∧
      x.quire = q.number ∧ x.leaf = i ∧ x.opc = none ∧ x.slots.map (·.slot) = ks ∧ (∀ k ∈ x.slots, k.verdict = none) ∧ x.cut = none ∧
      x.start = now s + d ∧ x.stitch16 = w ∧ x.bit = o ∧
      (bayAt t (m / 2)).grants = (bayAt s (m / 2)).grants ++ [(m, writeAct q)] ∧
      t.wrc.encBusy = s.wrc.encBusy + runLanes x.slots ∧ t.free = s.free ∧ (∀ n, n ≠ m → opuAt t n = opuAt s n)) ∧
  (∀ (s : State) (q : Quire) (i : Fin 16) (reserve : Bool), quireAt s q.number = some q →
    let l := q.leaves.getD i {}
    (firstWrite s l.surface l.layer).2 = true → runWanted s q i reserve = true → opuReady s l.surface l.layer l.frame = false →
    ∃ t, exec (.writeRunStart q.number i reserve) s = .next t ∧ OnlyIn [.ports, .spn, .cells, .units, .axes] s t) ∧
  (∀ (s : State) (m : Fin 16) (slot : Nat) (x : Run), (opuAt s m).run = some x → x.slots.any (fun y => y.slot == slot) = true → x.cut = none →
    (x.encoded.contains slot = false → ∃ t, exec (.encoderUnderrun m slot) s = .next t ∧
      opuAt t m = { opuAt s m with run := some { x with cut := some (slotPosition slot, true) } } ∧
      t.wrc.faults = s.wrc.faults + 1 ∧ t.bdy.staged.length = s.bdy.staged.length + 1 ∧ (∀ n, n ≠ m.val → opuAt t n = opuAt s n) ∧
      OnlyIn [.wrc, .bdy] s t) ∧
    (x.encoded.contains slot = true → exec (.encoderUnderrun m slot) s = .next s)) ∧
  (∀ (s : State) (m : Fin 16) (slot : Fin 68) (r : Run) (x : RunSlot), (opuAt s m).run = some r →
    r.slots.find? (fun x => x.slot == slot.val) = some x → (x.verdict = none → r.unrecorded slot = false →
      let v := verdictOf (reg s .wrcVerifyCfg) (judge s m r x)
      ∃ t p, exec (.folioVerdict m slot) s = .next t ∧ t.wrc.records = s.wrc.records ++ [p] ∧ p.verdict = v ∧
        p.fn = folioNumber r.frame slot ∧ p.opu = m.val ∧ p.lane = slotLane slot ∧ counter t 9 v = counter s 9 v + 1 ∧ v ≤ 3 ∧
        (v = 3 ↔ r.cut = some (slotPosition slot, true)) ∧
        (runOver (r.judgedAs x v p) = false → (opuAt t m).run = some (r.judgedAs x v p)) ∧
        (runOver (r.judgedAs x v p) = true → (opuAt t m).run = none)) ∧
    (x.verdict ≠ none ∨ r.unrecorded slot = true → exec (.folioVerdict m slot) s = .next s)) ∧
  (∀ (s : State) (mask : Half), (barSealed s = false → ∃ t, exec (.laserReeval mask) s = .next t ∧
    (∀ n, n < 16 → opuAt t n =
      if mask.getLsbD n then { opuAt s n with laser := 0, warned := false, cleared := true } else opuAt s n) ∧ OnlyIn [.wrc] s t) ∧
    (barSealed s = true → exec (.laserReeval mask) s = .next s))

/-- From R217, R218, R221 and R222: ages, commits, seals and filing. FILE_NOW's close cause is free (log entry 3). -/
def Obligations.QuiresCloseSealAndFile : Prop :=
  (∀ (s : State) (q : Quire), quireAt s q.number = some q →
    (q.st = 0 → q.twin = s.tck.twinId → 0 < q.folios → q.born + ageTimeout s ≤ now s →
      exec (.quireAgeTimeout q.number) s = .next (refillNow (closeQuire s q.number 1))) ∧
    (q.st ≠ 0 ∨ q.twin ≠ s.tck.twinId ∨ q.folios = 0 ∨ now s < q.born + ageTimeout s → exec (.quireAgeTimeout q.number) s = .next s) ∧
    (∀ b, b < 8 → (bayAt s b).mode ≠ 5 → ageTimeout s ≤ (modeRec s b).ageS * 250000) ∧
    (q.twin = s.tck.twinId → q.st = 1 → q.sealing = false → allPlaced q = true →
      exec (.journalCommitDone q.number) s = .next (refillNow (setQuire s { q with committed := true }))) ∧
    (q.twin = s.tck.twinId → q.st = 1 → q.sealing = true → allVerified q = true →
      exec (.journalCommitDone q.number) s = .next (refillNow (unmountStep (fileIfFull (sealQuire s q))))) ∧
    (q.kind ≠ 3 → quireAt (sealQuire s q) q.number = some { q with st := 2, sealAt := now s, sealing := false, committed := true, filed := false } ∧
      counter (sealQuire s q) 10 0 = counter s 10 0 + 1) ∧
    (q.twin ≠ s.tck.twinId ∨ q.st ≠ 1 ∨ (q.sealing = true ∧ allVerified q = false) ∨ (q.sealing = false ∧ allPlaced q = false) →
      exec (.journalCommitDone q.number) s = .next s)) ∧
  (∀ (s : State) (k : Nat), s.qre.unfiledAt = some k →
    (k + regBits s .qreDirCfg 0 15 0 * 250000 ≤ now s → placing s 3 = true →
      exec .directoryAgeTimeout s = .next (checkVolume (closeDirectory s 1))) ∧
    (now s < k + regBits s .qreDirCfg 0 15 0 * 250000 → exec .directoryAgeTimeout s = .next s)) ∧
  (∀ s : State, (barSealed s = false → exec .fileNow s = .next (checkVolume (closeDirectory (drawn s) ((freeValue s).toNat % 5)))) ∧
    (barSealed s = true → exec .fileNow s = .next s)) ∧
  (∀ (s : State) (cause : Nat),
    let room := directoryRoom s - directoryBytes s [] 0
    let ns := takeFit (filedBytes s) room (unfiled s)
    let as := (unfiledAmends s).take ((room - (ns.map (filedBytes s)).sum) / 40)
    let n := 2 ^ 63 * s.tck.twinId + s.qre.nextSeq
    ns ≠ [] ∨ as ≠ [] → placing s 3 = true → journalQuires s < 65536 →
    (closeDirectory s cause).qre.dirSeq = s.qre.dirSeq + 1 ∧ ∃ q, quireAt (closeDirectory s cause) n = some q ∧
      q.kind = 3 ∧ q.files = ns ∧ q.amends = as.map amendKey ∧ q.cause = cause ∧ q.image = directoryImage s ns as)

/-- From R204 to R208 and R334: mounts and unmounts; what the twin is told is log entry 210's. -/
def Obligations.VolumesMountAndUnmount : Prop :=
  (∀ s : State, barSealed s = false → s.qre.vol = 0 → s.qre.mounting = false →
    ((getD s.kst.slots {} 0).st = 2 → exec .mount s = .next { s with qre := { s.qre with mounting := true } }) ∧
    ((getD s.kst.slots {} 0).st ≠ 2 → exec .mount s = .next (event s 0 10 1))) ∧
  (∀ s : State, (s.qre.vol ≠ 0 ∨ s.qre.mounting = true ∨ barSealed s = true) → exec .mount s = .next s) ∧
  (∀ (s : State) (found : List CatFinding) (rows : List (List Nat)) (coll : BitVec 384) (recs : List Quire) (ams : List Amend),
    s.qre.mounting = true →
    let f := fun m => found.getD m .unread
    let read := (List.range 16).filter (fun m => discIn s (m / 2))
    let n := regBits s .qreVolume 0 31 16
    let told := SpineMsg.mgmt (.volumeMounted (BitVec.ofNat 16 n) found rows coll recs ams)
    (read.length = 16 → (∀ m, m < 16 → f m = .blank) →
      exec (.mountCatalogueReadDone found rows coll recs ams) s = .next (send (newVolume s n) told)) ∧
    (read = [] ∨ (∃ m ∈ read, f m = .unread) → exec (.mountCatalogueReadDone found rows coll recs ams) s =
      .next (event { s with qre := { s.qre with mounting := false } } 0 10 1)) ∧
    (∀ v, read ≠ [] → (∀ m ∈ read, findVolume m (f m) = some v) →
      exec (.mountCatalogueReadDone found rows coll recs ams) s = .next (send (oldVolume s v found rows coll recs ams) told))) ∧
  (∀ (s : State) (n : Nat), s.qre.unplaced = [] → s.qre.waiting = [] → (∀ e ∈ s.qre.quires, e.2.st ≠ 0) →
    let b := s.bnd.active.getD {}
    let t := newVolume s n
    t.qre.vol = 1 ∧ t.qre.cur = n ∧ t.qre.mounting = false ∧ t.qre.width = b.width ∧ t.qre.rows = b.rows ∧ t.qre.collDigest = b.collDigest ∧
    t.qre.losses = [] ∧ t.qre.lossCount = 0 ∧ t.rdc.payloads = [] ∧ regBits t .qreVolume 0 31 16 = (n + 1) % 65536 ∧
    (∀ m, m < 16 → surfAt t m = { missing := !discIn s (m / 2) } ∧ surfWAt t m = {})) ∧
  (∀ s : State, barSealed s = false → s.qre.vol ≠ 0 → s.qre.unmounting = false → s.qre.filedHere = false →
    s.qre.quires.any (fun e => e.2.twin == s.tck.twinId && e.2.st == 0) = false →
    let asked (t : State) := send t (.mgmt .volumeUnmount)
    let done := send { s with qre := { s.qre with unmounting := true, filedHere := true } } (.mgmt .volumeFiled)
    (s.qre.quires.any (fun e => e.2.st == 1 && e.2.twin == s.tck.twinId) = true →
      exec .unmount s = .next (asked { s with qre := { s.qre with unmounting := true } })) ∧
    (s.qre.quires.any (fun e => e.2.st == 1 && e.2.twin == s.tck.twinId) = false → unfiled s = [] → unfiledAmends s = [] →
      (s.spn.paired = true → s.qre.filedThere = false → exec .unmount s = .next (asked done)) ∧
      (s.spn.paired = false ∨ s.qre.filedThere = true → exec .unmount s = .next (asked { done with qre := { done.qre with
        vol := 0, cur := 0, unmounting := false, filedHere := false, filedThere := false } }))))

/-- From R213 and R225 to R229: reconstruction, rebuild and strikes. -/
def Obligations.RowsAreRebuilt : Prop :=
  (∀ (s : State) (hold : Bool), barSealed s = false → ∃ t, exec (.rebuildPause hold) s = .next t ∧ regBits t .qreCtl 0 1 1 = (if hold then 1 else 0) ∧
    OnlyIn [.regs] s t) ∧
  (∀ (s : State) (n : Nat) (rest : List Nat) (q : Quire), s.qre.rebuild = n :: rest → s.qre.rebuilding = none → regBits s .qreCtl 0 1 1 = 0 →
    quireAt s n = some q → q.number = n → q.st = 2 → ∃ t, exec .rebuildStart s = .next t ∧ t.qre.rebuild = rest ∧ t.qre.rebuilding = some n ∧
      quireAt t n = some { q with hurt := [], rowsDone := [] } ∧ OnlyIn [.qre] s t) ∧
  (∀ s : State, regBits s .qreCtl 0 1 1 = 1 ∨ s.qre.rebuilding ≠ none ∨ s.qre.rebuild = [] → exec .rebuildStart s = .next s) ∧
  (∀ (s : State) (q : Quire) (row : Fin 64) (known : List (Nat × Bytes)), quireAt s q.number = some q → q.st = 2 →
    let t0 := knownRow s q row known
    let lost := (List.range q.width).filter (fun i => (look t0 i).isNone)
    (3 ≤ lost.length → reconstruct q.width t0 = none → ∃ t, exec (.reconstructionDone q.number row known false) s = .next t ∧
      counter t 10 11 = counter s 10 11 + 1 ∧ (s.rdc.reads = [] → t.qre.rebuilt = s.qre.rebuilt) ∧ t.qre.rebuilding = s.qre.rebuilding ∧
      (s.qre.losses.length + q.width ≤ 4096 → ∀ i ∈ lost, i + 2 < q.width →
        ∃ l ∈ t.qre.losses, l.quire = q.number ∧ l.leaf = i ∧ l.row = row)) ∧
    (∀ full, lost.length < 3 → reconstruct q.width t0 = some full → ∃ t, exec (.reconstructionDone q.number row known false) s = .next t ∧
      (∀ i x, look full i = some x → (∀ e ∈ full, e.1 = i → e.2 = x) → i < 16 → (∀ e ∈ full, e.1 < 16) →
        look t.qre.rebuilt (bodyKey q.number (64 * i + row.val)) = some x) ∧
      counter t 10 11 = counter s 10 11 ∧ t.qre.losses = s.qre.losses) ∧
    (s.qre.rebuilding = some q.number → q.rowsDone.contains row.val = false → q.rowsDone.length < 63 →
      ∃ t y, exec (.reconstructionDone q.number row known true) s = .next t ∧ quireAt t q.number = some y ∧
        y.rowsDone = q.rowsDone ++ [row.val] ∧ (∀ i ∈ lost, i ∈ y.hurt) ∧ t.qre.rebuilding = some q.number) ∧
    (s.qre.rebuilding ≠ some q.number ∨ q.rowsDone.contains row.val = true → exec (.reconstructionDone q.number row known true) s = .next s)) ∧
  (∀ (s : State) (m : Fin 16), barSealed s = false → ∃ t, exec (.clearFail m) s = .next t ∧
    surfAt t m = { surfAt s m with failedStrikes := false, strikes := [] } ∧ (∀ n, n ≠ m.val → surfAt t n = surfAt s n) ∧ OnlyIn [.qre, .out] s t) ∧
  (∀ (s : State) (hold : Bool) (m : Fin 16), barSealed s = true → exec (.rebuildPause hold) s = .next s ∧ exec (.clearFail m) s = .next s)

/-- From R189 to R194 and R197: triggers, runs, agreement and steps. -/
def Obligations.CalibrationsRunAndAgree : Prop :=
  (∀ (s : State) (k : BitVec 4) (opu layer : Fin 16), (barSealed s = true → exec (.calReq k opu layer) s = .next s) ∧
    (barSealed s = false → runs s (opu.val / 2) = true → ∃ t, exec (.calReq k opu layer) s = .next t ∧ OnlyIn [.cal] s t ∧
      ∀ κ ∈ reqKinds k.toNat, (κ = .opc → (calAt s opu layer).runOnly = false) → jobOf t opu layer κ ≠ none)) ∧
  (∀ (s : State) (opc : Bool), (regBits s .calInterval 0 31 16 = 0 → exec (.calElapsedTimer true) s = .next s) ∧
    (regBits s .calInterval 0 15 0 = 0 → exec (.calElapsedTimer false) s = .next s) ∧
    (∃ t, exec (.calElapsedTimer opc) s = .next t ∧ OnlyIn [.cal] s t ∧
      (opc = true → regBits s .calInterval 0 31 16 ≠ 0 → ∀ e ∈ s.cal.recs, e.2.valid.getLsbD 0 = true →
        e.2.atOpc + regBits s .calInterval 0 31 16 * 3600 * 250000 ≤ now s → (calAt s (e.1 / 16) (e.1 % 16)).runOnly = false →
        jobOf t (e.1 / 16) (e.1 % 16) .opc ≠ none) ∧
      (opc = false → regBits s .calInterval 0 15 0 ≠ 0 → ∀ e ∈ s.cal.recs, e.2.valid.getLsbD 1 = true →
        e.2.atEq + regBits s .calInterval 0 15 0 * 3600 * 250000 ≤ now s →
        ∀ k ∈ [CalKind.equaliser, .focus, .tilt, .corrector], jobOf t (e.1 / 16) (e.1 % 16) k ≠ none))) ∧
  (∀ (s : State) (opu layer : Fin 16) (k : CalKind) (blank : BitVec 7) (j : CalJob), jobOf s opu layer k = some j →
    let r := calAt s opu layer
    let n := if r.searched then r.nextRun else searchRun blank
    let act := if j.blocking then 1 else 6
    let ready := opuReady s opu layer (calFrame s j n)
    let begun (t : State) : Prop := jobOf t opu layer k = some { j with running := true, point := 0, since := now s } ∧
      (bayAt t (opu.val / 2)).grants = (bayAt s (opu.val / 2)).grants ++ [(opu.val, act)]
    (calWanted s j = false → exec (.calibrationRunStart opu layer k blank) s = .next s) ∧
    (calWanted s j = true → k = .opc → 64 ≤ n → ∃ t, exec (.calibrationRunStart opu layer k blank) s = .next t ∧
      jobOf t opu layer k = none ∧ (calAt t opu layer).runOnly = true ∧ (calAt t opu layer).exhausted = true ∧ t.bays = s.bays) ∧
    (∀ a, calWanted s j = true → k = .opc → n < 64 → ready = true → opcStart s opu layer n = some a →
      ∃ t x, exec (.calibrationRunStart opu layer k blank) s = .next t ∧ begun t ∧ (calAt t opu layer).nextRun = n + 1 ∧
        counter t 15 1 = counter s 15 1 + 1 ∧ (opuAt t opu).run = some x ∧ x.opc = some n ∧ x.frame = n / 8 ∧
        x.slots.map (·.slot) = opcSlots n ∧ x.start = now s + a.1) ∧
    (calWanted s j = true → k ≠ .opc → (k = .bfeOffsets ∨ ready = true) →
      ∃ t, exec (.calibrationRunStart opu layer k blank) s = .next t ∧ begun t) ∧
    (calWanted s j = true → k ≠ .bfeOffsets → (k = .opc → n < 64) → ready = false →
      exec (.calibrationRunStart opu layer k blank) s = .next (if j.blocking = true ∨ k = .opc then goTo s opu layer (calFrame s j n) else s))) ∧
  (∀ (s : State) (opu layer : Fin 16) (k : CalKind) (codes : Option (List Int)) (j : CalJob), jobOf s opu layer k = some j →
    j.running = true → (k = .opc → (opuAt s opu).run = none) → (k = .bfeOffsets → j.since + 64 ≤ now s) →
    let m := measured s opu k codes
    let res := m.bind (fun m => runResult s opu layer k m)
    let seq := if k = .equaliser then (match m with | some m => [m.take 120, m.drop 120] | none => []) else res.toList
    let all := j.last.toList ++ seq
    let hit := (List.zip all (all.drop 1)).find? (fun e => agrees k e.1 e.2)
    let n := j.runs + max 1 seq.length
    ∃ t, exec (.calibrationRunDone opu layer k codes) s = .next t ∧
      (opu.val, if j.blocking then 1 else 6) ∉ (bayAt t (opu.val / 2)).grants ∧
      (∀ e, hit = some e → jobOf t opu layer k = none ∧ (calAt t opu layer).failed = false ∧
        (k ≠ .bfeOffsets → (calAt t opu layer).valid.getLsbD (match k with
          | .opc => 0 | .equaliser => 1 | .focus => 2 | .tilt => 3 | _ => 4) = true) ∧
        (k = .focus → j.whole = true → (calAt t opu layer).focus = e.2.getD 0 0) ∧
        (k ≠ .bfeOffsets → j.whole = false → (k, e.2) ∈ (calAt t opu layer).goal)) ∧
      (hit = none → 4 ≤ n → jobOf t opu layer k = none ∧ (calAt t opu layer).failed = true ∧ counter t 15 4 = counter s 15 4 + 1) ∧
      (hit = none → n < 4 → (k = .opc → (calAt s opu layer).nextRun < 64) →
        jobOf t opu layer k = some { j with running := false, runs := n, last := seq.getLast? }) ∧
      (hit = none → n < 4 → k = .opc → 64 ≤ (calAt s opu layer).nextRun → jobOf t opu layer k = none ∧ (calAt t opu layer).runOnly = true)) ∧
  (∀ (s : State) (opu layer : Fin 16) (k : CalKind) (codes : Option (List Int)) (j : CalJob), jobOf s opu layer k = some j →
    j.running = false → exec (.calibrationRunDone opu layer k codes) s = .next s) ∧
  (∀ (s : State) (opu : Fin 16), let layer := getD s.cal.curLayer 0 opu
    let r := calAt s opu layer
    (∀ v, sweepOn s opu = none → stepped s opu = false → r.goal.find? (fun g => g.1 = .focus) = some (.focus, v) → r.focus ≠ v.getD 0 0 →
      ∃ t, exec (.calStep opu) s = .next t ∧
        (calAt t opu layer).focus = towards r.focus (v.getD 0 0) 10 ∧ ((calAt t opu layer).focus - r.focus).natAbs ≤ 10 ∧
        stepped t opu = true ∧ (∀ m l, m * 16 + l ≠ opu.val * 16 + layer → calAt t m l = calAt s m l)) ∧
    (sweepOn s opu = none → (stepped s opu = true ∨ r.goal = []) → exec (.calStep opu) s = .next s) ∧
    (∀ y, sweepOn s opu = some y → exec (.calStep opu) s = .next y ∧ y.cal.recs = s.cal.recs))

/-- Lane retraining (R199, R323). -/
def Obligations.LanesRetrain : Prop :=
  ∀ (s : State) (b : Fin 8) (lane : Fin 5), let p := portAt s b
    let free := if lane.val = 0 ∨ lane.val = 3 then (bayAt s b).mode = 5 ∧ (bayAt s b).holdEntry = false
      else if lane.val = 4 then writingBay s b = false else readingBay s b = false
    let weak := (p.eyes.getD lane 0).toNat < regBits s .calLaneCfg 0 15 8
    (runs s b = true → p.lanes.getLsbD lane = true → weak → free → ∃ t, exec (.laneRetrain b lane) s = .next t ∧
      (∀ i, i < 5 → (portAt t b).retrain.getLsbD i = (p.retrain.getLsbD i || i == lane.val)) ∧
      { portAt t b with retrain := p.retrain } = p ∧ (∀ n, n ≠ b.val → portAt t n = portAt s n) ∧
      counter t 3 5 = counter s 3 5 + 1 ∧ counter t 15 7 = counter s 15 7 + 1 ∧ OnlyIn [.ports, .cnt] s t) ∧
    (runs s b = false ∨ p.lanes.getLsbD lane = false ∨ ¬ weak ∨ ¬ free → exec (.laneRetrain b lane) s = .next s)

/-- From R18, R232, R239, R240 and R246: where a completion goes. -/
def Obligations.CompletionsReachTheirQueue : Prop :=
  (∀ (s : State) (c : Comp), let t := post s c
    (∀ d ∈ t.hiu.cmds, d ∈ s.hiu.cmds ∧ d.ref ≠ c.ref) ∧
    (∀ d ∈ s.hiu.cmds, d.ref ≠ c.ref → (∀ e ∈ s.hiu.sqs, e.2.deleting ≠ some d.ref) → d ∈ t.hiu.cmds) ∧ OnlyIn [.hiu, .out] s t) ∧
  (∀ (s : State) (c : Comp), (∀ e ∈ s.hiu.sqs, e.2.deleting = none) → let t := post s c
    t.hiu.sqs = s.hiu.sqs ∧
    (c.ref.peer = true → t.hiu.comps = s.hiu.comps ∧ t.hiu.held = s.hiu.held ∧ t.hiu.cqs = s.hiu.cqs ∧ t.hiu.irqs = s.hiu.irqs ∧
      t.out = (send s (.completion { c.ref with peer := false } c.status c.dw0 c.data)).out) ∧
    (c.ref.peer = false → mustWait s c = true → t.hiu.held = s.hiu.held ++ [c] ∧ t.hiu.comps = s.hiu.comps ∧ t.hiu.cqs = s.hiu.cqs ∧
      t.hiu.irqs = s.hiu.irqs ∧ t.out = s.out) ∧
    (∀ k q, c.ref.peer = false → mustWait s c = false → cqOf s c.ref = some (k, q) → t.hiu.comps = s.hiu.comps ++ [c] ∧
      t.hiu.held = s.hiu.held ∧ t.out = s.out ∧ look t.hiu.cqs k = some { q with tail := (q.tail + 1) % q.size } ∧
      (∀ j, j ≠ k → look t.hiu.cqs j = look s.hiu.cqs j) ∧
      t.hiu.irqs = s.hiu.irqs ++ (if q.ien ∧ ¬ (q.vector < 32 ∧ (ctrlAt s c.ref.ctrl).intMask.getLsbD q.vector = true)
        then [(c.ref.ctrl.val, q.vector)] else [])) ∧
    (c.ref.peer = false → cqOf s c.ref = none → t.hiu.comps = s.hiu.comps ++ [c] ∧ t.hiu.held = s.hiu.held ∧ t.hiu.cqs = s.hiu.cqs ∧ t.out = s.out)) ∧
  (∀ (s : State) (c : Comp) (k : Nat) (q : Cq), cqOf s c.ref = some (k, q) → (q.tail + 1) % q.size = q.head → mustWait s c = true)

/-- From R232, R233, R237, R268, R351 and R385: doorbells, contexts, enable, reset and masks. -/
def Obligations.DoorbellsControllersAndMasks : Prop :=
  (∀ (s : State) (c : Fin 2) (q : Fin 65536) (v : Half),
    (sqAt s c q = none → exec (.sqTailDoorbell c q v) s = .next (asyncEvent s 0 0 1)) ∧
    (∀ x, sqAt s c q = some x → (x.size ≤ v.toNat → exec (.sqTailDoorbell c q v) s = .next (asyncEvent s 0 1 1)) ∧
      (v.toNat < x.size → ∃ t, exec (.sqTailDoorbell c q v) s = .next t ∧ sqAt t c q = some { x with tail := v.toNat } ∧
        (∀ d k, qKey d k ≠ qKey c q → sqAt t d k = sqAt s d k) ∧ { t.hiu with sqs := s.hiu.sqs, onChip := s.hiu.onChip } = s.hiu ∧
        ((pinned s).length + 1 < 4096 → contextHere t (qKey c q) = true) ∧ OnlyIn [.hiu] s t)) ∧
    (cqAt s c q = none → exec (.cqHeadDoorbell c q v) s = .next (asyncEvent s 0 0 1)) ∧
    (∀ x, cqAt s c q = some x → (x.size ≤ v.toNat → exec (.cqHeadDoorbell c q v) s = .next (asyncEvent s 0 1 1)) ∧
      (v.toNat < x.size → ∃ t, exec (.cqHeadDoorbell c q v) s = .next t ∧ (s.hiu.held = [] → cqAt t c q = some { x with head := v.toNat }) ∧
        (∃ done, t.hiu.comps = s.hiu.comps ++ done ∧ (done ++ t.hiu.held).Perm s.hiu.held) ∧
        t.hiu.cmds = s.hiu.cmds ∧ t.hiu.sqs = s.hiu.sqs ∧ OnlyIn [.hiu] s t))) ∧
  (∀ (s : State) (c : Fin 2) (cc aqa : Word) (asq acq : Dword), let x := ctrlAt s c
    (c.val ∈ controllers s → x.cc.getLsbD 0 = false → cc.getLsbD 0 = true → ∃ t, exec (.controllerEnable c cc aqa asq acq) s = .next t ∧
      ctrlAt t c = { x with cc := cc, aqa := aqa, asq := asq, acq := acq, rdy := decide (s.pwr.phase = .running) && !x.cfs } ∧
      sqAt t c 0 = some { size := bits aqa.toNat 11 0 + 1, classU := true } ∧
      cqAt t c 0 = some { size := bits aqa.toNat 27 16 + 1, ien := true } ∧
      (∀ d k, qKey d k ≠ qKey c 0 → sqAt t d k = sqAt s d k ∧ cqAt t d k = cqAt s d k) ∧
      (s.pwr.phase = .running → x.cfs = false → s.bdy.pendingSlot ≠ 0 → s.bdy.booted = s.bdy.pendingSlot →
        t.bdy.running = s.bdy.pendingSlot ∧ t.bdy.pendingSlot = 0 ∧ t.bdy.attempts = 0) ∧
      (s.pwr.phase ≠ .running ∨ s.bdy.pendingSlot = 0 ∨ s.bdy.booted ≠ s.bdy.pendingSlot → t.bdy = s.bdy ∧ t.kst = s.kst)) ∧
    (c.val ∉ controllers s ∨ x.cc.getLsbD 0 = true ∨ cc.getLsbD 0 = false → exec (.controllerEnable c cc aqa asq acq) s = .next s)) ∧
  (∀ (s : State) (c : Fin 2), ∃ t, exec (.controllerReset c) s = .next t ∧
    ctrlAt t c = { aqa := (ctrlAt s c).aqa, asq := (ctrlAt s c).asq, acq := (ctrlAt s c).acq } ∧
    (∀ q : Fin 65536, sqAt t c q = none ∧ cqAt t c q = none) ∧
    (∀ (d : Fin 2) (q : Fin 65536), d ≠ c → ctrlAt t d = ctrlAt s d ∧ sqAt t d q = sqAt s d q ∧ cqAt t d q = cqAt s d q) ∧
    t.hiu.cmds = s.hiu.cmds.filter (fun d => d.ref.peer || d.ref.ctrl != c) ∧ t.hiu.comps = s.hiu.comps ∧ t.hiu.ns = s.hiu.ns ∧
    t.hiu.zones = s.hiu.zones ∧ OnlyIn [.cnt, .bays, .ports, .out, .rdc, .wrc, .cal, .qre, .hiu, .cmd, .mem, .bdy] s t ∧
    ((∀ d ∈ s.hiu.cmds, d.ref.peer = false → d.ref.ctrl = c → d.pieces = 0) → OnlyIn [.hiu, .cmd, .qre] s t)) ∧
  (∀ (s : State) (c : Fin 2) (m : Word), ∃ t u, exec (.interruptMaskSet c m) s = .next t ∧ exec (.interruptMaskClear c m) s = .next u ∧
    (ctrlAt t c).intMask = (ctrlAt s c).intMask ||| m ∧ (ctrlAt u c).intMask = (ctrlAt s c).intMask &&& ~~~m ∧
    t.hiu.irqs = s.hiu.irqs ∧ (∃ l, u.hiu.irqs = s.hiu.irqs ++ l ∧ ∀ v ∈ l, v.1 = c.val ∧ v.2 ∈ (ctrlAt s c).pendingBits) ∧
    (∀ v ∈ (ctrlAt s c).pendingBits, v < 32 → m.getLsbD v = true → (c.val, v) ∈ u.hiu.irqs) ∧
    (∀ d, d ≠ c.val → ctrlAt t d = ctrlAt s d ∧ ctrlAt u d = ctrlAt s d) ∧ OnlyIn [.hiu] s t ∧ OnlyIn [.hiu] s u)

/-- From R17, R50, R238, R239, R246, R254 and R256: the arbiter and admission. -/
def Obligations.CommandsAreFetchedAndAdmitted : Prop :=
  (∀ (s : State) (k : Nat) (q : Sq), fetchable s k q = true → 0 < q.waiting ∧ (ctrlAt s (k / 65536)).rdy = true ∧ q.deleting = none ∧
    (q.classU = false → groupQueues s 0 = [] ∨ 31 ≤ s.hiu.uRun) ∧ (q.classU = true → classBWaits s = true → s.hiu.uRun < 31)) ∧
  (∀ (s : State) (c : Fin 2) (qid : Fin 65536) (q : Sq) (es : List Sqe), sqAt s c qid = some q → es ≠ [] →
    (fetchable s (qKey c qid) q = true → es.length ≤ burst s c → es.length ≤ q.waiting →
      (s.hiu.cmds.filter (fun c => !c.ref.peer)).length + es.length ≤ 131072 → s.cmd.fetchPaused = false → s.cmd.admission = true →
      (∀ e ∈ es, e.kind ≠ .other) → ∃ t, exec (.commandFetch c qid es) s = .next t ∧
        t.hiu.cmds = s.hiu.cmds ++ es.map (fun e =>
          { ref := { ctrl := c, sqid := qid, cid := e.cid }, sqe := e, classU := q.classU, nlb := e.nlb }) ∧
        sqAt t c qid = some { q with head := (q.head + es.length) % q.size } ∧
        (∀ d k, qKey d k ≠ qKey c qid → sqAt t d k = sqAt s d k) ∧ t.hiu.comps = s.hiu.comps ∧ OnlyIn [.hiu] s t) ∧
    (fetchable s (qKey c qid) q = false ∨ s.cmd.fetchPaused = true ∨ s.cmd.admission = false → exec (.commandFetch c qid es) s = .next s)) ∧
  (∀ (s : State) (r : CmdRef) (late : Bool) (c : Cmd) (n : Ns), cmdAt s r = some c → c.st = .fetched →
    c.sqe.kind ∈ [.read, .verify, .write, .append, .zoneSend, .zoneRecv] → s.cmd.admission = true → nsCreateAllowed s = true →
    nsAt s c.sqe.nsid.toNat = some n → (r.peer = true ∨ cntlid s r.ctrl ∈ n.attached) →
    (firstOfQueue s c = false → exec (.commandAdmission r late) s = .next s) ∧
    (firstOfQueue s c = true →
      (∀ e, anaOf s n.ana = 1 → admitCheck s c n = .error e → exec (.commandAdmission r late) s = .next (complete s r e)) ∧
      (∀ lba, anaOf s n.ana = 1 → admitCheck s c n = .ok lba → ∃ t x, exec (.commandAdmission r late) s = .next t ∧ cmdAt t r = some x ∧
        x.seq = s.cmd.seq ∧ t.cmd.seq = s.cmd.seq + 1 ∧ x.lba = lba ∧ x.sqe = c.sqe ∧
        x.st = (if isRead c && blocked t x then .waiting else .admitted) ∧ counter t 14 0 = counter s 14 0 + 1 ∧
        counter t 1 1 = counter s 1 1 + (if c.classU && late && decide (urgentOut s < 256) && !s.cmd.fetchPaused then 1 else 0) ∧
        (isWrite c = true → n.csi = 2 → (zoneAt t c.sqe.nsid.toNat (lba / zoneBlocks)).wp =
          (zoneAt s c.sqe.nsid.toNat (lba / zoneBlocks)).wp + c.sqe.nlb) ∧
        (∀ d ∈ s.hiu.cmds, d.ref ≠ r → d ∈ t.hiu.cmds)) ∧
      (anaOf s n.ana = 2 → r.peer = false → s.spn.link = 2 → ∃ t x, exec (.commandAdmission r late) s = .next t ∧ cmdAt t r = some x ∧
        x.remote = true ∧ x.st = .admitted ∧ t.cmd = s.cmd ∧
        t.out = s.out ++ [{ cls := if c.classU then 1 else 2, msg := .forward { ref := { r with peer := true }, sqe := c.sqe, classU := c.classU } }]) ∧
      (anaOf s n.ana = 15 → exec (.commandAdmission r late) s = .next (complete s r .anaTransition)) ∧
      (anaOf s n.ana = 3 → r.peer = false → exec (.commandAdmission r late) s = .next (complete s r .anaInaccessible)))) ∧
  (∀ (s : State) (r : CmdRef) (c : Cmd), cmdAt s r = some c → c.st = .fetched → c.sqe.kind = .read → s.cmd.admission = true →
    firstOfQueue s c = true → nsCreateAllowed s = true → nsAt s c.sqe.nsid.toNat = none →
    exec (.commandAdmission r false) s = .next (complete s r .invalidNamespace)) ∧
  (∀ (s : State) (r : CmdRef) (late : Bool) (c : Cmd), cmdAt s r = some c → c.st = .fetched → c.sqe.kind = .admin → s.cmd.admission = true →
    ∃ t, exec (.commandAdmission r late) s = .next t ∧ cmdAt t r = some { c with st := .admitted } ∧ t.cmd = s.cmd ∧ OnlyIn [.hiu, .cnt] s t) ∧
  (∀ (s : State) (r : CmdRef) (c : Cmd), cmdAt s r = some c → c.st = .fetched →
    (c.sqe.kind = .read → exec (.read r) s = exec (.commandAdmission r false) s) ∧
    (c.sqe.kind = .verify → exec (.verify r) s = exec (.commandAdmission r false) s) ∧
    (c.sqe.kind = .write → exec (.write r) s = exec (.commandAdmission r false) s) ∧
    (c.sqe.kind = .append → exec (.zoneAppend r) s = exec (.commandAdmission r false) s) ∧
    (c.sqe.kind = .flush → exec (.flush r) s = exec (.commandAdmission r false) s))

/-- From R219, R244, R246, R257, R259, R260, R262, R267, R270, R325, R326 and R331: writes from data to acknowledgement. -/
def Obligations.WritesAreCheckedEncryptedAndAcknowledged : Prop :=
  (∀ (s : State) (r : CmdRef) (c : Cmd) (n : Ns) (bs : List BlockIn), cmdAt s r = some c → nsAt s c.sqe.nsid.toNat = some n →
    isWrite c = true → c.st = .admitted → r.peer = false → c.remote = false → bs.length = c.nlb → noLanes s = false →
    (dirtyLimit s c ≤ dirtyBytes s + 4096 * c.nlb → ∃ t, exec (.writeDataFetch r bs) s = .next t ∧
      cmdAt t r = some { c with waitFrom := some (c.waitFrom.getD (now s)) } ∧ OnlyIn [.hiu] s t) ∧
    (dirtyBytes s + 4096 * c.nlb < dirtyLimit s c →
      (∀ e, piFail n c bs = some e → exec (.writeDataFetch r bs) s = .next (complete s r e)) ∧
      (piFail n c bs = none → ∃ t x, exec (.writeDataFetch r bs) s = .next t ∧ cmdAt t r = some x ∧ x.st = .data ∧ x.seqBase = s.cph.seq ∧
        x.plain = bs.map (·.data) ∧ x.pis.length = c.nlb ∧ x.enc = c.enc ∧ t.cph.seq = s.cph.seq + c.nlb ∧ t.cmd = s.cmd ∧
        OnlyIn [.hiu, .cph] s t)) ∧
    (piFail n c bs = none ↔ ∀ i b, bs[i]? = some b → piCheck n c i b = none)) ∧
  (∀ (s : State) (r : CmdRef) (c : Cmd) (bs : List BlockIn), cmdAt s r = some c → c.remote = true → c.peerDone = false →
    exec (.writeDataFetch r bs) s = .next s) ∧
  (∀ (s : State) (r : CmdRef) (c : Cmd) (from_ : Nat), cmdAt s r = some c → c.waitFrom = some from_ → c.st = .admitted →
    let lim := regBits s .cmdBpCfg 0 31 16
    (lim ≠ 0 → from_ + lim * 250000 ≤ now s → exec (.backpressureTimeout r) s = .next (complete (bump s 14 7) r .commandInterrupted)) ∧
    (lim = 0 ∨ now s < from_ + lim * 250000 → exec (.backpressureTimeout r) s = .next s)) ∧
  (∀ (s : State) (lane : Fin 8) (r : CmdRef) (c : Cmd) (n : Ns) (b : Nat), cmdAt s r = some c → nsAt s c.sqe.nsid.toNat = some n →
    cipherRuns s = true → lane.val ∈ lanesInService s →
    (isWrite c = true → c.st = .data → lane.val ∈ encryptLanes s → b < c.nlb → look c.enc b = none →
      ∃ t x e, exec (.cipherBlockDone lane r b true) s = .next t ∧ cmdAt t r = some x ∧ look x.enc b = some e ∧
        let iv := ivBytes (c.seqBase + b) n.writeSlot s.tck.twinId
        let key := (slotAt s n.writeSlot).key
        let aad := aadHost (c.lba + b) (c.pis.getD b [])
        e.iv = iv ∧ e.text = Config.gcmText key iv aad (fit 4096 (c.plain.getD b [])) ∧
        e.tag = Config.gcmTag key iv aad (fit 4096 (c.plain.getD b [])) ∧
        (∀ i, i ≠ b → look x.enc i = look c.enc i) ∧ counter t 11 0 = counter s 11 0 + 1 ∧ OnlyIn [.hiu, .cnt] s t) ∧
    (∃ t, exec (.cipherBlockDone lane r b false) s = .next t ∧ look t.cph.buffers lane.val = none ∧ (∀ k, k < 8 →
        t.cph.retired.getLsbD k = (s.cph.retired.getLsbD k || k == lane.val)) ∧ counter t 11 5 = counter s 11 5 + 1 ∧
      (lanesInService s ≠ [lane.val] → t.hiu = s.hiu))) ∧
  (∀ (s : State) (r : CmdRef) (c : Cmd), cmdAt s r = some c → c.st = .data → isWrite c = true →
    let o := if c.sqe.kind = .write then exec (.write r) s else exec (.zoneAppend r) s
    (c.remote = true → encrypted c = false → o = .next s) ∧
    (c.remote = true → encrypted c = true → ∃ t x f, o = .next t ∧ cmdAt t r = some x ∧ x.st = .committed ∧ t.cmd = s.cmd ∧
      f.ref = { r with peer := true } ∧ f.blocks.length = c.nlb ∧ (s.spn.link = 2 → ∃ p ∈ t.out, p.msg = .forward f)) ∧
    (encrypted c = true → readyPieces c = pieceCount c) ∧
    (c.remote = false → readyPieces c ≤ c.pieces → readyPieces c < pieceCount c → o = .next s) ∧
    (c.remote = false → c.pieces < readyPieces c → ∃ u x, cmdAt u r = some x ∧ x.pieces = readyPieces c ∧
      (c.pieces = 0 → u.cmd.versions = s.cmd.versions ++ [versionOfCmd s c (readyPieces c)]) ∧
      u.qre.ingest = s.qre.ingest ++ ingestOf s c c.pieces (readyPieces c) ∧ (readyPieces c < pieceCount c → o = .next u)) ∧
    (c.remote = false → readyPieces c = pieceCount c → ∃ w x, o = .next (refillNow (releaseVersions w)) ∧ cmdAt w r = some x ∧
      x.st = .committed ∧ x.plain = [] ∧ (c.pieces = 0 → 0 < c.nlb → (∀ v ∈ s.cmd.versions, v.own = true → v.seq ≠ c.seq) →
        versionOfCmd s c (pieceCount c) ∈ w.cmd.versions ∧ (versionOfCmd s c (pieceCount c)).nlb = c.nlb ∧
        (s.spn.link = 2 → ∃ p ∈ w.out, ∃ bs, bs.length = c.nlb ∧
          p.msg = .mirrorData c.seq (BitVec.ofNat 32 c.sqe.nsid.toNat) (BitVec.ofNat 64 c.lba) bs)))) ∧
  (∀ (s : State) (c : Cmd) (v : Version), s.cmd.versions.find? (fun v => v.own && v.seq == c.seq) = some v →
    (c.sqe.fua = true ∨ s.cmd.prot = 2 → ackReached s c = versionSealed s v.twin v.seq) ∧
    (c.sqe.fua = false → s.cmd.prot = 1 → ackReached s c = v.vaulted) ∧
    (c.sqe.fua = false → s.cmd.prot = 0 → ackReached s c = v.mirrored)) ∧
  (∀ (s : State) (r : CmdRef) (c : Cmd), cmdAt s r = some c →
    (c.st = .committed → c.remote = false → ackReached s c = true → ∃ u, exec (.writeAckPoint r) s =
        .next (releaseVersions (complete u r .success (if c.sqe.kind = .append then BitVec.ofNat 64 c.lba else 0))) ∧
      u.hiu = s.hiu ∧ u.cmd.versions = s.cmd.versions.map (fun v => { v with acked := v.acked || (v.own && v.seq == c.seq) }) ∧
      OnlyIn [.cmd] s u) ∧
    (c.st ≠ .committed ∨ c.remote = true ∨ ackReached s c = false → exec (.writeAckPoint r) s = .next s))

/-- From R19, R235, R245, R255 to R258, R262, R264, R265, R328 and R329: reads, verifies, decryptions and flushes. -/
def Obligations.ReadsTakeTheNewestVersionBelow : Prop :=
  (∀ (s : State) (seq nsid lba : Nat) (v : Version), versionBelow s seq nsid lba = some v →
    v ∈ s.cmd.versions ∧ v.own = true ∧ v.seq < seq ∧ v.nsid = nsid ∧ v.lba ≤ lba ∧ lba < v.lba + v.nlb ∧
    ∀ w ∈ s.cmd.versions, w.own = true → w.seq < seq → w.nsid = nsid → w.lba ≤ lba → lba < w.lba + w.nlb → w.seq ≤ v.seq) ∧
  (∀ (s : State) (r : CmdRef) (c : Cmd), cmdAt s r = some c → isRead c = true → c.st = .admitted ∨ c.st = .waiting → c.remote = false →
    noLanes s = false →
    let o := if c.sqe.kind = .read then exec (.read r) s else exec (.verify r) s
    (blocked s c = true → ∃ t x, o = .next t ∧ cmdAt t r = some x ∧ x.st = .waiting ∧ t.cmd = s.cmd ∧ OnlyIn [.hiu] s t) ∧
    (blocked s c = false → c.sqe.fua = false →
      (∀ i, i < c.nlb → sourceOf s c i = 3 → (∀ k, k < i → sourceOf s c k ≠ 3) →
        ∃ u, o = .next (releaseVersions (complete u r .unrecoveredRead)) ∧ u.cmd = s.cmd ∧ u.hiu = s.hiu) ∧
      ((∀ i, i < c.nlb → sourceOf s c i ≠ 3) → (∃ i, i < c.nlb ∧ sourceOf s c i ≠ 2) → ∃ t x, o = .next t ∧ cmdAt t r = some x ∧ x.st = .media ∧
        (∀ i, i < c.nlb → look x.sources i = some (sourceOf s c i) ∧ ((look x.got i).isSome = true ↔ sourceOf s c i = 2)) ∧
        t.cmd = s.cmd ∧ t.hiu.comps = s.hiu.comps) ∧
      ((∀ i, i < c.nlb → sourceOf s c i = 2) → ∃ u data, o = .next (releaseVersions (complete u r .success 0 data)) ∧ u.cmd = s.cmd ∧
        ∀ n, nsAt s c.sqe.nsid.toNat = some n → data.length = (if c.sqe.kind = .verify then 0 else (4096 + lbafMeta n.lbaf) * c.nlb)))) ∧
  (∀ (s : State) (lane : Fin 8) (r : CmdRef) (i : Nat) (slot : Fin 2048) (tagOk refOk buf final : Bool) (chk : BitVec 3) (c : Cmd) (n : Ns)
      (b : FolioBlock), cmdAt s r = some c → nsAt s c.sqe.nsid.toNat = some n → readBlock s c i = some b → cipherRuns s = true →
    lane.val ∈ lanesInService s → isRead c = true → c.st = .media → i < c.nlb → look c.got i = none → ivSlot b.iv = slot.val →
    buf = ((look c.sources i).getD 2 == 0) →
    let o := exec (.blockDecryptDone lane r i slot tagOk refOk chk buf final) s
    let good := tagOk && (slotAt s slot).st == 2 && (slotAt s slot).nsid == c.sqe.nsid.toNat
    let data := if c.sqe.kind = .verify then [] else (List.range i).flatMap (fun k => (look c.got k).getD [])
    (good = false → final = true ∨ i ∈ c.recheck → ∃ u, o = .next (releaseVersions (complete u r .unrecoveredRead 0 data)) ∧
      counter u 11 3 = counter s 11 3 + 1 ∧ u.hiu = s.hiu) ∧
    (good = false → final = false → i ∉ c.recheck → (buf = false ∨ copyStands s c i = true) → ∃ t x, o = .next t ∧ cmdAt t r = some x ∧ x.recheck = c.recheck ++ [i] ∧
      x.got = c.got ∧ t.hiu.comps = s.hiu.comps) ∧
    (good = false → final = false → i ∉ c.recheck → buf = true → copyStands s c i = false → ∃ u, u.hiu = s.hiu ∧
      o = .next (releaseVersions (complete u r .unrecoveredRead 0 data)) ∧ (c.sqe.nsid.toNat, c.lba + i) ∈ u.cmd.lost) ∧
    (good = true → n.piType = 1 → refOk = false → ∃ u, o = .next (releaseVersions (complete u r .unrecoveredRead 0 data)) ∧ u.hiu = s.hiu) ∧
    (good = true → n.piType ≠ 1 ∨ refOk = true → ∀ e, hostCheck n c chk = some e →
      ∃ u, o = .next (releaseVersions (complete u r e 0 data)) ∧ u.hiu = s.hiu) ∧
    (good = true → n.piType ≠ 1 ∨ refOk = true → hostCheck n c chk = none →
      let plain := (Config.gcmOpen (slotAt s slot).key b.iv (aadHost (c.lba + i) b.pi) b.text (BitVec.ofNat 128 (leNat b.tag))).getD []
      ((∃ k, k < c.nlb ∧ k ≠ i ∧ look c.got k = none) → ∃ t x, o = .next t ∧ cmdAt t r = some x ∧
        look x.got i = some (plain ++ fit (lbafMeta n.lbaf) b.pi) ∧ (∀ k, k ≠ i → look x.got k = look c.got k) ∧ t.hiu.comps = s.hiu.comps) ∧
      ((∀ k, k < c.nlb → k ≠ i → look c.got k ≠ none) → ∃ u d, o = .next (releaseVersions (complete u r .success 0 d)) ∧ u.hiu = s.hiu))) ∧
  (∀ (s : State) (r : CmdRef) (c : Cmd), cmdAt s r = some c → c.sqe.kind = .flush → c.st = .admitted → c.remote = false →
    (flushOpen (barrierClose s c) c = false → exec (.flush r) s = .next (refillNow (complete (barrierClose s c) r .success))) ∧
    (flushOpen (barrierClose s c) c = true → ∃ t x, exec (.flush r) s = .next t ∧ cmdAt t r = some x ∧ x.localDone = false ∧ x.st = .admitted ∧
      t.hiu.comps = s.hiu.comps)) ∧
  (∀ (s : State) (c : Cmd), c.barrier = false → barrierClose s c = s ∧ (flushOpen s c = true ↔ ∃ d ∈ s.hiu.cmds, openWrite d = true ∧ d.seq < c.seq ∧
    (c.sqe.nsid = 0xFFFFFFFF ∨ c.sqe.nsid.toNat = d.sqe.nsid.toNat)))

/-- From R243 and R253: zone actions and placement. -/
def Obligations.ZonesFollowTheirActions : Prop :=
  (∀ (s : State) (r : CmdRef) (c : Cmd) (n : Ns) (a : Dword), cmdAt s r = some c → c.sqe.kind = .zoneSend → c.st = .admitted → c.remote = false →
    nsAt s c.sqe.nsid.toNat = some n → a.toNat % 1048576 = 0 → a.toNat < n.nsze →
    let nsid := c.sqe.nsid.toNat
    let z := a.toNat / 1048576
    let x := zoneAt s nsid z
    (x.st = 4 → exec (.zoneOpen r (.one a)) s = .next (complete s r .invalidZoneTransition)) ∧
    (x.st = 0 → 1024 ≤ activeZones s → exec (.zoneOpen r (.one a)) s = .next (complete s r .tooManyActive)) ∧
    (x.st ≠ 4 → x.st ≠ 0 ∨ activeZones s < 1024 →
      exec (.zoneOpen r (.one a)) s = .next (complete (setZone s nsid z { x with st := 2 }) r .success)) ∧
    (x.st = 0 ∨ x.st = 4 → exec (.zoneClose r (.one a)) s = .next (complete s r .invalidZoneTransition)) ∧
    (x.st ≠ 0 → x.st ≠ 4 → exec (.zoneClose r (.one a)) s = .next (complete (setZone s nsid z { x with st := 3 }) r .success)) ∧
    exec (.zoneFinish r (.one a)) s = .next (complete (setZone s nsid z { x with st := 4 }) r .success) ∧
    (x.st = 0 → exec (.zoneReset r (.one a)) s = .next (complete s r .success)) ∧
    (x.st ≠ 0 → exec (.zoneReset r (.one a)) s = .next (complete s r .invalidZoneTransition))) ∧
  (∀ (s : State) (r : CmdRef) (c : Cmd) (n : Ns), cmdAt s r = some c → c.sqe.kind = .zoneSend → c.st = .admitted → c.remote = false →
    nsAt s c.sqe.nsid.toNat = some n → sortedT s.hiu.zones = true →
    (∀ a : Dword, a.toNat % 1048576 ≠ 0 ∨ n.nsze ≤ a.toNat → ∀ e ∈ [Instr.zoneOpen r (.one a), .zoneClose r (.one a), .zoneFinish r (.one a),
      .zoneReset r (.one a)], exec e s = .next (complete s r .invalidField)) ∧
    (∀ z, z < 65536 → (zoneAt s c.sqe.nsid.toNat z).st ∈ [1, 2, 3, 4] → exec (.zoneReset r .all) s = .next (complete s r .invalidZoneTransition)) ∧
    (∃ u, exec (.zoneOpen r .all) s = .next (complete u r .success) ∧ { u.hiu with zones := s.hiu.zones } = s.hiu ∧ OnlyIn [.hiu] s u ∧
      ∀ z, z < 65536 → zoneAt u c.sqe.nsid.toNat z = (let x := zoneAt s c.sqe.nsid.toNat z; if x.st = 3 then { x with st := 2 } else x)) ∧
    (∃ u, exec (.zoneFinish r .all) s = .next (complete u r .success) ∧
      ∀ z, z < 65536 → zoneAt u c.sqe.nsid.toNat z = (let x := zoneAt s c.sqe.nsid.toNat z; if x.st ∈ [1, 2, 3] then { x with st := 4 } else x)) ∧
    exec (.zoneOffline r) s = .next (complete s r .invalidField) ∧
    exec (.zoneSetDescriptorExtension r) s = .next (complete s r .invalidField)) ∧
  (∀ (s : State) (r : CmdRef) (c : Cmd) (n : Ns), cmdAt s r = some c → c.sqe.kind = .zoneRecv → c.st = .admitted → c.remote = false →
    nsAt s c.sqe.nsid.toNat = some n → ∃ data, exec (.zoneManagementReceive r) s = .next (complete s r .success 0 data) ∧
      data.take 8 = natLe 8 (n.nsze / 1048576 - c.sqe.slba.toNat / 1048576) ∧
      (1 ≤ c.sqe.nlb → ∀ i, i < min (n.nsze / 1048576 - c.sqe.slba.toNat / 1048576) (64 * c.sqe.nlb - 1) →
        (data.drop (64 + 64 * i)).take 64 = zoneDescriptor s c.sqe.nsid.toNat (c.sqe.slba.toNat / 1048576 + i))) ∧
  (∀ (s : State) (nsid slba nlb : Nat), let x := zoneAt s nsid (slba / 1048576)
    let wp := slba / 1048576 * 1048576 + x.wp
    (x.st = 4 → zonePlace s nsid slba nlb false = .error .zoneFull) ∧
    (x.st ≠ 4 → slba % 1048576 + nlb ≤ 1048576 → slba ≠ wp → zonePlace s nsid slba nlb false = .error .zoneInvalidWrite) ∧
    (x.st ≠ 4 → 1048576 < slba % 1048576 + nlb → zonePlace s nsid slba nlb false = .error .zoneBoundary) ∧
    (x.st = 0 → slba % 1048576 + nlb ≤ 1048576 → slba = wp → 1024 ≤ activeZones s → zonePlace s nsid slba nlb false = .error .tooManyActive) ∧
    (x.st ≠ 4 → x.active = true ∨ activeZones s < 1024 → slba % 1048576 = 0 → x.wp + nlb ≤ 1048576 → zonePlace s nsid slba nlb true = .ok wp))

/-- From R231, R237, R238 and R240: creating and deleting queues, contexts. -/
def Obligations.QueuesAreCreatedAndDeleted : Prop :=
  (∀ (s : State) (r : CmdRef) (q cq : Fin 65536) (size vec : Half) (ien : Bool),
    (q = 0 ∨ queueLimit s ≤ q.val ∨ cqAt s r.ctrl q ≠ none → exec (.createIoCq r q size vec ien) s = .next (complete s r .invalidQueueId)) ∧
    (q = 0 ∨ queueLimit s ≤ q.val ∨ sqAt s r.ctrl q ≠ none → exec (.createIoSq r q size cq) s = .next (complete s r .invalidQueueId)) ∧
    (q ≠ 0 → q.val < queueLimit s → cqAt s r.ctrl q = none →
      (size = 0 → exec (.createIoCq r q size vec ien) s = .next (complete s r .invalidQueueSize)) ∧
      (size ≠ 0 → vectorLimit s ≤ vec.toNat → exec (.createIoCq r q size vec ien) s = .next (complete s r .invalidVector)) ∧
      (size ≠ 0 → vec.toNat < vectorLimit s → ∃ u, exec (.createIoCq r q size vec ien) s = .next (complete u r .success) ∧
        cqAt u r.ctrl q = some { size := size.toNat + 1, vector := vec.toNat, ien := ien } ∧ { u.hiu with cqs := s.hiu.cqs } = s.hiu ∧
        (∀ d k, qKey d k ≠ qKey r.ctrl q → cqAt u d k = cqAt s d k) ∧ OnlyIn [.hiu] s u)) ∧
    (q ≠ 0 → q.val < queueLimit s → sqAt s r.ctrl q = none →
      (size = 0 → exec (.createIoSq r q size cq) s = .next (complete s r .invalidQueueSize)) ∧
      (size ≠ 0 → cq = 0 ∨ cqAt s r.ctrl cq = none → exec (.createIoSq r q size cq) s = .next (complete s r .cqInvalid)) ∧
      (size ≠ 0 → cq ≠ 0 → cqAt s r.ctrl cq ≠ none → ∃ u, exec (.createIoSq r q size cq) s = .next (complete u r .success) ∧
        sqAt u r.ctrl q = some { size := size.toNat + 1, cqid := cq, classU := (queueRec s q).cls == 0, wrr := (queueRec s q).wrr } ∧
        ((queueRec s q).cls = 0 → contextHere u (qKey r.ctrl q) = true) ∧ { u.hiu with sqs := s.hiu.sqs, onChip := s.hiu.onChip } = s.hiu ∧
        (∀ d k, qKey d k ≠ qKey r.ctrl q → sqAt u d k = sqAt s d k) ∧ OnlyIn [.hiu] s u))) ∧
  (∀ (s : State) (r : CmdRef) (q : Fin 65536),
    (q = 0 ∨ sqAt s r.ctrl q = none → exec (.deleteIoSq r q) s = .next (complete s r .invalidQueueId)) ∧
    (∀ x, q ≠ 0 → sqAt s r.ctrl q = some x → x.deleting = none → sortedT s.hiu.sqs = true → (∀ e ∈ s.hiu.sqs, e.2.deleting = none) →
      (∀ d ∈ s.hiu.cmds, d.ref.peer = false → d.ref.ctrl = r.ctrl → d.ref.sqid ≠ q) → r.peer = false → ∃ t, exec (.deleteIoSq r q) s = .next t ∧
        sqAt t r.ctrl q = none ∧ (∀ d k, qKey d k ≠ qKey r.ctrl q → sqAt t d k = sqAt s d k) ∧
        (∀ d ∈ t.hiu.cmds, d.ref ≠ r) ∧ ({ ref := r, status := .success } : Comp) ∈ t.hiu.comps ++ t.hiu.held) ∧
    (∀ x d, q ≠ 0 → sqAt s r.ctrl q = some x → x.deleting = none → sortedT s.hiu.sqs = true → (∀ e ∈ s.hiu.sqs, e.2.deleting = none) →
      d ∈ s.hiu.cmds → d.ref.peer = false → d.ref.ctrl = r.ctrl → d.ref.sqid = q → ∃ t, exec (.deleteIoSq r q) s = .next t ∧
        sqAt t r.ctrl q = some { x with deleting := some r } ∧ t.hiu.cmds = s.hiu.cmds ∧ t.hiu.comps = s.hiu.comps ∧
        t.hiu.held = s.hiu.held ∧ ∀ y : Sq, fetchable t (qKey r.ctrl q) { y with deleting := some r } = false)) ∧
  (∀ (s : State) (r : CmdRef) (q : Fin 65536),
    (q = 0 ∨ cqAt s r.ctrl q = none → exec (.deleteIoCq r q) s = .next (complete s r .invalidQueueId)) ∧
    (q ≠ 0 → cqAt s r.ctrl q ≠ none →
      (∀ k x, k < 65536 → sqAt s r.ctrl k = some x → x.cqid = q.val → exec (.deleteIoCq r q) s = .next (complete s r .invalidQueueDeletion)) ∧
      ((∀ e ∈ s.hiu.sqs, e.1 / 65536 = r.ctrl.val → e.2.cqid ≠ q.val) → ∃ u, exec (.deleteIoCq r q) s = .next (complete u r .success) ∧
        cqAt u r.ctrl q = none ∧ (∀ d k, qKey d k ≠ qKey r.ctrl q → cqAt u d k = cqAt s d k) ∧ OnlyIn [.hiu] s u)))

/-- From R234, R236, R249, R252, R266 and R270: Identify, Get Log Page, Abort, features and event requests. A command fetched and not admitted can
be aborted (log entry 202); the host's clock runs from its setting (log entry 213). -/
def Obligations.AdminCommandsAnswer : Prop :=
  (∀ (s : State) (r : CmdRef) (cns : Byte) (nsid : Word),
    (∀ d, identifyData s r.ctrl cns.toNat nsid.toNat = some d → exec (.identify r cns nsid) s = .next (complete s r .success 0 d)) ∧
    (identifyData s r.ctrl cns.toNat nsid.toNat = none → ∃ e, e ∈ [Status.invalidNamespace, .invalidField] ∧
      exec (.identify r cns nsid) s = .next (complete s r e)) ∧
    (∃ d, identifyData s r.ctrl 1 nsid.toNat = some d ∧ d.length = 4096)) ∧
  (∀ (s : State) (r : CmdRef) (lid : Byte) (off : Dword) (len : Word),
    (lid ∉ [0x01, 0x02, 0x03, 0x05, 0x0C, 0xBF, 0xC0, 0xC1, 0xC2, 0xC3, 0xC4] → exec (.getLogPage r lid off len) s =
      .next (complete s r .invalidLogPage)) ∧
    (lid ∈ [0x01, 0x02, 0x03, 0x05, 0x0C, 0xBF, 0xC0, 0xC1, 0xC2, 0xC3, 0xC4] → ∃ page data, logPage s lid.toNat = some page ∧
      exec (.getLogPage r lid off len) s = .next (complete s r .success 0 data) ∧ data.length = len.toNat ∧
      ∀ i, i < len.toNat → data.getD i 0 = page.getD (off.toNat + i) 0)) ∧
  (∀ (s : State) (r : CmdRef) (q : Fin 65536) (cid : Half), let ref : CmdRef := { ctrl := r.ctrl, sqid := q, cid := cid }
    (∀ c, cmdAt s ref = some c → (c.st = .fetched ∧ c.sqe.kind ∈ [.zoneSend, .zoneRecv]) ∨
        (isRead c = true ∧ c.st ∈ [.fetched, .admitted, .waiting, .media] ∧ c.granted = false ∧ c.remote = false) →
      ∃ u, exec (.abort r q cid) s = .next (complete (complete u ref .abortRequested) r .success) ∧ u.hiu = s.hiu ∧
        counter u 14 4 = counter s 14 4 + 1) ∧
    (∀ c, cmdAt s ref = some c → (isWrite c = true ∨ c.sqe.kind = .flush ∨ (isRead c = true ∧ c.granted = true)) →
      exec (.abort r q cid) s = .next (complete (bump s 14 5) r .success 1)) ∧
    (cmdAt s ref = none → exec (.abort r q cid) s = .next (complete (bump s 14 5) r .success 1))) ∧
  (∀ (s : State) (r : CmdRef) (f : Feature) (v : Dword) (save : Bool),
    (featOk f v.toNat = false → exec (.setFeatures r f v save) s = .next (complete s r .invalidField)) ∧
    (featOk f v.toNat = true → save = true → saveable f = false → exec (.setFeatures r f v save) s = .next (complete s r .featureNotSaveable)) ∧
    (featOk f v.toNat = true → save = false ∨ saveable f = true → f ∉ [.queues, .timestamp, .flushMedia] → ∃ u,
      exec (.setFeatures r f v save) s = .next (complete u r .success) ∧ featCurrent u r.ctrl f = v.toNat ∧
      (save = true → featSaved u f = v.toNat) ∧ (save = false → u.bdy = s.bdy) ∧
      (∀ n, n ≠ r.ctrl.val → ctrlAt u n = ctrlAt s n) ∧ u.hiu.cmds = s.hiu.cmds)) ∧
  (∀ (s : State) (r : CmdRef) (v : Dword), ∃ u, exec (.setFeatures r .flushMedia v false) s = .next (complete u r .success) ∧
    u.hiu.flushMedia = v.getLsbD 0 ∧ u.hiu.cmds = s.hiu.cmds ∧
    (s.spn.link = 2 → u.out = s.out ++ [{ cls := 3, msg := .mgmt (.flushMedia (v.getLsbD 0)) }])) ∧
  (∀ (s : State) (r : CmdRef) (v : Dword), ∃ u, exec (.setFeatures r .timestamp v false) s = .next (complete u r .success) ∧
    u.hiu.timestamp = v &&& 0xFFFFFFFFFFFF ∧ u.hiu.timestampAt = now s ∧ featCurrent u r.ctrl .timestamp = v.toNat % 2 ^ 48 ∧ u.bdy = s.bdy) ∧
  (∀ (s : State) (r : CmdRef) (f : Feature), (∀ fid, f ≠ .other fid) → ∃ data, exec (.getFeatures r f 0) s =
    .next (complete s r .success (BitVec.ofNat 64 (featCurrent s r.ctrl f)) data)) ∧
  (∀ (s : State) (r : CmdRef), let c := ctrlAt s r.ctrl
    (16 ≤ c.aers.length → exec (.asyncEventRequest r) s = .next (complete s r .aerLimit)) ∧
    (c.aers.length < 16 → c.events = [] → ∃ t, exec (.asyncEventRequest r) s = .next t ∧
      ctrlAt t r.ctrl = { c with aers := c.aers ++ [r.cid] } ∧ t.hiu.comps = s.hiu.comps ∧ OnlyIn [.hiu] s t) ∧
    (∀ ti lid es, c.aers = [] → c.events = (ti, lid) :: es → ∃ u, exec (.asyncEventRequest r) s =
        .next (complete u { ctrl := r.ctrl, sqid := 0, cid := r.cid } .success (asyncWord (ti % 8) (ti / 256) lid)) ∧
      ctrlAt u r.ctrl = { c with events := es } ∧ OnlyIn [.hiu] s u))

/-- From R241, R242, R253, R337 and R338: namespaces. -/
def Obligations.NamespacesComeAndGo : Prop :=
  (∀ (s : State) (r : CmdRef) (n : NsCreate),
    (lifeCycle s ≠ 1 → lifeCycle s ≠ 2 → exec (.namespaceCreate r n) s = .next (complete s r .commandSequence)) ∧
    (lifeCycle s = 1 ∨ lifeCycle s = 2 →
      (s.spn.link ≠ 2 ∨ s.spn.paired = false → exec (.namespaceCreate r n) s = .next (complete s r (.vendor 1))) ∧
      (s.spn.link = 2 → s.spn.paired = true →
        (nsFieldsOk n = false ∨ slotFree s n.slot = false → exec (.namespaceCreate r n) s = .next (complete s r .invalidField)) ∧
        (nsFieldsOk n = true → slotFree s n.slot = true →
          (freeNsid s n.csi.toNat = none → exec (.namespaceCreate r n) s = .next (complete s r .nsidUnavailable)) ∧
          (∀ k, freeNsid s n.csi.toNat = some k → nsAt s k = none ∧ (n.csi = 0 → k = 1) ∧ (n.csi ≠ 0 → 2 ≤ k ∧ k ≤ 32) ∧
            ∃ u x, exec (.namespaceCreate r n) s = .next (complete u r .success (BitVec.ofNat 64 k)) ∧ nsAt u k = some x ∧
              x.nsze = n.nsze ∧ x.csi = n.csi.toNat ∧ x.lbaf = n.lbaf.val ∧ x.piType = n.piType.val ∧ x.ana = n.anaGroup ∧
              x.writeSlot = n.slot.val ∧ (slotAt u n.slot).nsid = k ∧ (slotAt u n.slot).write = true ∧
              (∀ j, j ≠ k → nsAt u j = nsAt s j) ∧ (∀ j, j ≠ n.slot.val → slotAt u j = slotAt s j) ∧
              (∃ p ∈ u.out, p.msg = .mgmt (.namespaceCreate (BitVec.ofNat 32 k) n)))))) ∧
    (nsFieldsOk n = true → (n.csi = 0 → n.nsze ≤ 67108864 ∧ n.nsze % 16 = 0) ∧ (n.csi ≠ 0 → n.csi = 2 ∧ n.nsze ≤ 65536 * 1048576) ∧
      (n.anaGroup = 1 ∨ n.anaGroup = 2) ∧ (n.lbaf = 0 → n.piType = 0))) ∧
  (∀ (s : State) (r : CmdRef) (nsid : Word),
    (lifeCycle s = 2 → exec (.namespaceDelete r nsid) s = .next (complete s r .invalidField)) ∧
    (lifeCycle s ≠ 1 → lifeCycle s ≠ 2 → exec (.namespaceDelete r nsid) s = .next (complete s r .commandSequence)) ∧
    (lifeCycle s = 1 → s.spn.link ≠ 2 ∨ s.spn.paired = false → exec (.namespaceDelete r nsid) s = .next (complete s r (.vendor 1))) ∧
    (lifeCycle s = 1 → s.spn.link = 2 → s.spn.paired = true → nsid ≠ 0xFFFFFFFF →
      (nsAt s nsid.toNat = none → exec (.namespaceDelete r nsid) s = .next (complete s r .invalidNamespace)) ∧
      (nsAt s nsid.toNat ≠ none → ∃ u, exec (.namespaceDelete r nsid) s = .next (complete u r .success) ∧ nsAt u nsid.toNat = none ∧
        (∀ j, j ≠ nsid.toNat → nsAt u j = nsAt s j) ∧ (∀ z, z < 65536 → zoneAt u nsid.toNat z = {}) ∧
        (∃ p ∈ u.out, p.msg = .mgmt (.namespaceDelete nsid))))) ∧
  (∀ (s : State) (r : CmdRef) (nsid : Word) (cs : List Nat) (att : Bool),
    (nsAt s nsid.toNat = none → exec (.namespaceAttachment r nsid cs att) s = .next (complete s r .invalidNamespace)) ∧
    (∀ x, nsAt s nsid.toNat = some x → lifeCycle s = 1 ∨ lifeCycle s = 2 →
      (cs = [] ∨ (∃ c ∈ cs, c ∉ allControllers s) → exec (.namespaceAttachment r nsid cs att) s = .next (complete s r .invalidControllerList)) ∧
      (cs ≠ [] → (∀ c ∈ cs, c ∈ allControllers s) →
        ((∃ c ∈ cs, c ∈ x.attached) → att = true → exec (.namespaceAttachment r nsid cs att) s = .next (complete s r .nsAttached)) ∧
        ((∃ c ∈ cs, c ∉ x.attached) → att = false → exec (.namespaceAttachment r nsid cs att) s = .next (complete s r .nsNotAttached)) ∧
        ((∀ c ∈ cs, (c ∈ x.attached ↔ att = false)) → ∃ u y, exec (.namespaceAttachment r nsid cs att) s = .next (complete u r .success) ∧
          nsAt u nsid.toNat = some y ∧ { y with attached := x.attached } = x ∧
          (∀ c, c ∈ y.attached ↔ if att then c ∈ x.attached ∨ c ∈ cs else c ∈ x.attached ∧ c ∉ cs) ∧
          (∀ j, j ≠ nsid.toNat → nsAt u j = nsAt s j)))))

/-- From R269, R338, R348 to R351, R353 and R359 to R361: firmware download, commit and activation. That a Retired pair refuses them with
Command Sequence Error is log entry 206. -/
def Obligations.FirmwareIsDownloadedCommittedAndActivated : Prop :=
  (∀ (s : State) (r : CmdRef) (slot : BitVec 3) (off : Word) (data : Bytes), lifeRetired s = true →
    (∀ c ∈ [Instr.firmwareImageDownload r off data, .fwCommitReplace r slot, .fwCommitReplacePending r slot, .fwCommitPending r slot,
      .fwCommitActivate r slot], exec c s = .next (complete s r .commandSequence))) ∧
  (∀ (s : State) (r : CmdRef) (off : Word) (data : Bytes), lifeRetired s = false →
    (data.length % 4 ≠ 0 ∨ Config.fwSlotBytes < 4 * off.toNat + data.length → exec (.firmwareImageDownload r off data) s =
      .next (complete s r .invalidField)) ∧
    (data.length % 4 = 0 → 4 * off.toNat + data.length ≤ Config.fwSlotBytes →
      (stagingBusy s false = true → exec (.firmwareImageDownload r off data) s = .next (complete s r (.vendor 4))) ∧
      (stagingBusy s false = false → ∃ u b, exec (.firmwareImageDownload r off data) s = .next (complete u r .success) ∧
        u.bdy = { s.bdy with staging := some b, stagingMi := false } ∧ (b.drop (4 * off.toNat)).take data.length = data ∧
        (∀ i, i < 4 * off.toNat → b.getD i 0 = (s.bdy.staging.getD []).getD i 0) ∧
        (∀ i, 4 * off.toNat + data.length ≤ i → b.getD i 0 = (s.bdy.staging.getD []).getD i 0) ∧ OnlyIn [.bdy] s u))) ∧
  (∀ (s : State) (mi : Bool) (slot : Nat), commitFault s mi slot = none →
    let i := stagedImage s
    lifeRetired s = false ∧ stagingBusy s mi = false ∧ (slot = 1 ∨ slot = 2) ∧ s.bdy.staging ≠ none ∧ fwValid s i = true ∧ fwFloor s ≤ i.secVersion ∧
      runningSlot s i.kind ≠ slot ∧ 256 + i.body.length ≤ (if i.kind = 1 then Config.bootSlotBytes else Config.fwSlotBytes)) ∧
  (∀ (s : State) (r : CmdRef) (slot : BitVec 3), let n := slot.toNat
    (∀ e, commitFault s false n = some e → exec (.fwCommitReplace r slot) s = .next (complete s r e) ∧
      exec (.fwCommitReplacePending r slot) s = .next (complete s r e)) ∧
    (commitFault s false n = none → let i := stagedImage s
      ∃ u v, exec (.fwCommitReplace r slot) s = .next (complete u r .success) ∧
        exec (.fwCommitReplacePending r slot) s = .next (complete v r .success) ∧
        slotImage u i.kind n = some i ∧ slotImage v i.kind n = some i ∧
        (∀ k m, (k = 1 ∨ k = 2) → k ≠ i.kind ∨ m ≠ n → slotImage u k m = slotImage s k m ∧ slotImage v k m = slotImage s k m) ∧
        u.bdy.staging = none ∧ u.bdy.pendingSlot = s.bdy.pendingSlot ∧ u.bdy.attempts = s.bdy.attempts ∧ v.bdy.staging = none ∧ v.bdy.pendingSlot = n ∧ v.bdy.attempts = 3 ∧
        u.bdy.booted = s.bdy.booted ∧ u.bdy.running_ = s.bdy.running_ ∧ OnlyIn [.bdy] s u ∧ OnlyIn [.bdy] s v) ∧
    (lifeRetired s = false → stagingBusy s false = true → exec (.fwCommitPending r slot) s = .next (complete s r (.vendor 4))) ∧
    (lifeRetired s = false → stagingBusy s false = false → n ≠ 1 → n ≠ 2 → exec (.fwCommitPending r slot) s = .next (complete s r .invalidFwSlot)) ∧
    (lifeRetired s = false → stagingBusy s false = false → n = 1 ∨ n = 2 →
      (slotValid s n = false → exec (.fwCommitPending r slot) s = .next (complete s r .invalidFwImage)) ∧
      (slotValid s n = true → ∃ u, exec (.fwCommitPending r slot) s = .next (complete u r .success) ∧
        u.bdy.pendingSlot = n ∧ u.bdy.attempts = 3 ∧ (directoryInForce u.bdy).pendingSlot = n ∧ (directoryInForce u.bdy).attempts = 3 ∧
        { u.bdy with pendingSlot := s.bdy.pendingSlot, attempts := s.bdy.attempts, dirs := s.bdy.dirs } = s.bdy ∧ OnlyIn [.bdy] s u)) ∧
    (∀ e, activateFault s false n = some e → exec (.fwCommitActivate r slot) s = .next (complete s r e)) ∧
    (activateFault s false n = none → ∃ u, exec (.fwCommitActivate r slot) s = .next (complete u r .success) ∧ u.pwr.activating = n ∧
      u.cmd = { s.cmd with fetchPaused := true, pausedAt := now s } ∧ u.bdy.commitBusy = true ∧ u.bdy.booted = s.bdy.booted ∧
      u.bdy.running = s.bdy.running ∧ u.hiu = s.hiu) ∧
    (commitFault s false n = none → prohibited s (stagedImage s) = true → activateFault s false n = some .fwProhibited)) ∧
  (∀ (s : State) (i : FwImage), (s.mem.dumping = true ∨ s.mem.replaying = true ∨ s.kst.transition ≠ none ∨ s.bnd.structural ≠ none ∨
    s.bnd.trim ≠ none ∨ (∃ b, b < 8 ∧ ((pairAt s b).resync ≠ 0 ∨ (pairAt s b).handover ≠ 0)) ∨
    i.spineVersion ≠ s.bdy.running_.spineVersion ∨ i.kind = 1) → prohibited s i = true) ∧
  (∀ s : State, s.cmd.fetchPaused = true → s.pwr.activating ≠ 0 → let k := s.pwr.activating
    (s.bdy.booted ≠ k →
      (s.cmd.pausedAt + 25000 ≤ now s ∨ (∀ c ∈ s.hiu.cmds, c.st = .fetched) → ∃ t, exec .fetchPauseHandoff s = .next t ∧ t.bdy.booted = k ∧
        t.bdy.running_ = (look s.bdy.fwSlots k).getD {} ∧ (∃ c, t.bdy.colophon.getLast? = some c ∧ c.reason = 1) ∧ t.hiu = s.hiu ∧
        t.cmd = s.cmd ∧ counter t 0 0 = counter s 0 0 + 1 ∧ OnlyIn [.bdy, .cnt] s t) ∧
      (now s < s.cmd.pausedAt + 25000 → (∃ c ∈ s.hiu.cmds, c.st ≠ .fetched) → exec .fetchPauseHandoff s = .next s)) ∧
    (s.bdy.booted = k → now s ≤ s.cmd.pausedAt + 50000 → ∃ t, exec .activationFetchResume s = .next t ∧ t.cmd.fetchPaused = false ∧
      t.pwr.activating = 0 ∧ t.bdy.running = k ∧ (directoryInForce t.bdy).running = k ∧ t.bdy.commitBusy = false ∧ counter t 0 1 = counter s 0 1 + 1 ∧ t.hiu = s.hiu) ∧
    (s.bdy.booted ≠ k ∨ s.cmd.pausedAt + 50000 < now s → exec .activationFetchResume s = .next s) ∧
    (s.cmd.pausedAt + 50000 ≤ now s → ∃ t, exec .activationTimeout s = .next t ∧ t.pwr.phase = .warm ∧ t.cmd.fetchPaused = false ∧
      t.bdy.running = (directoryInForce s.bdy).running ∧ t.bdy.pendingSlot ≠ k ∧ t.pwr.resetCause = s.pwr.resetCause ||| 8 ∧ t.tck.aliveOut = false ∧
      counter t 0 2 = 1) ∧
    (now s < s.cmd.pausedAt + 50000 → exec .activationTimeout s = .next s)) ∧
  (∀ s : State, s.cmd.fetchPaused = false → exec .fetchPauseHandoff s = .next s ∧ exec .activationFetchResume s = .next s ∧
    exec .activationTimeout s = .next s)

/-- From R5, R247, R248, R335, R337 to R340, R353, R358 and R364: the mailbox and its requests. What a fetch with no message and no answer
completes with is a free status (log entry 3); that a Retired pair answers an owner section with 3 is log entry 206. -/
def Obligations.MailboxCarriesOneMessage : Prop :=
  (∀ (s : State) (r : CmdRef) (m : Bytes),
    (m.length % 4 ≠ 0 ∨ 4096 < m.length → exec (.mailboxPost r m) s = .next (complete s r .invalidField)) ∧
    (m.length % 4 = 0 → m.length ≤ 4096 →
      (s.bdy.mboxBusy = true → exec (.mailboxPost r m) s = .next (complete (bump s 0 5) r (.vendor 4))) ∧
      (s.bdy.mboxBusy = false → mailOk m = false → ∃ u, exec (.mailboxPost r m) s = .next (complete u r .success) ∧ u.bdy.mboxReady = true ∧
        u.bdy.mboxBusy = false ∧ (field (mailResponse u) 2 2 = 1) ∧ OnlyIn [.bdy, .cnt] s u) ∧
      (s.bdy.mboxBusy = false → mailOk m = true → (mailParts m).1 = 0 ∨ 6 < (mailParts m).1 → ∃ u,
        exec (.mailboxPost r m) s = .next (complete u r .success) ∧ u.bdy.mboxReady = true ∧ field (mailResponse u) 2 2 = 5) ∧
      (s.bdy.mboxBusy = false → mailOk m = true → 2 ≤ (mailParts m).1 → (mailParts m).1 ≤ 6 → ∃ u,
        exec (.mailboxPost r m) s = .next (complete u r .success) ∧ u.bdy.mboxMsg = some (mailParts m) ∧ u.bdy.mboxBusy = true ∧
        u.bdy.mboxReady = false ∧ counter u 0 4 = counter s 0 4 + 1 ∧ OnlyIn [.bdy, .cnt] s u) ∧
      (s.bdy.mboxBusy = false → mailOk m = true → (mailParts m).1 = 1 →
        (s.spn.paired = false ∨ s.spn.link ≠ 2 → ∃ u, exec (.mailboxPost r m) s = .next (complete u r (.vendor 1)) ∧ u.bdy.mboxBusy = false) ∧
        (s.spn.paired = true → s.spn.link = 2 → transitionReady s = false → ∃ u, exec (.mailboxPost r m) s = .next (complete u r (.vendor 3)) ∧
          u.bdy.mboxBusy = false) ∧
        (s.spn.paired = true → s.spn.link = 2 → transitionReady s = true → ∃ u, exec (.mailboxPost r m) s = .next (complete u r .success) ∧
          u.bdy.mboxMsg = some (mailParts m))))) ∧
  (∀ (s : State) (r : CmdRef) (len : Half),
    (len.toNat % 4 ≠ 0 ∨ 4096 < len.toNat → exec (.mailboxFetch r len) s = .next (complete s r .invalidField)) ∧
    (len.toNat % 4 = 0 → len.toNat ≤ 4096 → s.bdy.mboxReady = true → ∃ u, exec (.mailboxFetch r len) s = .next u ∧ u.bdy.mboxReady = decide (len.toNat < s.bdy.mboxLen) ∧
      u.hiu = (complete s r .success 0 ((mailResponse s).take len.toNat)).hiu) ∧
    (len.toNat % 4 = 0 → len.toNat ≤ 4096 → s.bdy.mboxReady = false → s.bdy.mboxBusy = false → ∃ st, exec (.mailboxFetch r len) s = .next (complete (drawn s) r st)) ∧
    (len.toNat % 4 = 0 → len.toNat ≤ 4096 → s.bdy.mboxReady = false → s.bdy.mboxBusy = true → exec (.mailboxFetch r len) s = .next (complete s r (.vendor 4)))) ∧
  (∀ s : State, ∃ t, exec .mailboxResponseRead s = .next t ∧ t.bdy = { s.bdy with mboxReady := false } ∧ t.splitLatch = none ∧
    (∀ m, s.bdy.mboxRsp = winWrite [] 0 m → s.bdy.mboxLen = m.length → m.length % 4 = 0 → 0 < m.length →
      t.hostRead = BitVec.ofNat 64 (leNat (m.drop (m.length - 4)))) ∧ OnlyIn [.bdy, .hostRead, .splitLatch] s t) ∧
  (∀ (s : State) (tag : Word) (blob : Bytes), s.bdy.mboxMsg = some (2, tag.toNat, blob) →
    let st := if blob.length ≠ 152 then 1 else
      let k := importResult s blob
      if k = 0 then 0 else if k = 1 then 1 else 3
    ∃ t, exec (.mailboxKeyImport tag blob) s = .next t ∧ t.bdy.mboxReady = true ∧ t.bdy.mboxBusy = false ∧ t.bdy.mboxMsg = none ∧
      field (mailResponse t) 2 2 = st ∧ field (mailResponse t) 4 4 = tag.toNat ∧
      (st = 0 → (slotAt t (field blob 4 2)).st = 1 ∧ (slotAt s (field blob 4 2)).st = 0) ∧ (st ≠ 0 → t.kst.slots = s.kst.slots)) ∧
  (∀ (s : State) (tag : Word) (which fuses : Byte), s.bdy.mboxMsg = some (3, tag.toNat, [which, fuses]) →
    let good := which.toNat ≤ 1 ∧ 1 ≤ fuses.toNat ∧ fuses.toNat ≤ 15
    ∃ t, exec (.lowerVotedLimit tag which fuses) s = .next t ∧ t.bdy.mboxReady = true ∧
      (¬ good → field (mailResponse t) 2 2 = 1 ∧ t.kst = s.kst) ∧
      (good → lifeCycle s ≠ 1 → lifeCycle s ≠ 2 → field (mailResponse t) 2 2 = 3 ∧ t.kst = s.kst) ∧
      (good → lifeCycle s = 1 ∨ lifeCycle s = 2 → field (mailResponse t) 2 2 = 0 ∧
        (which = 0 → let v := s.kst.spindle
          let m := min 75 (votedFuses v + fuses.toNat)
          t.kst = { s.kst with spindle := { a := max v.a m, b := max v.b m, c := max v.c m } }) ∧
        (which = 1 → let v := s.kst.laser
          let m := min 15 (votedFuses v + fuses.toNat)
          t.kst = { s.kst with laser := { a := max v.a m, b := max v.b m, c := max v.c m } }))) ∧
  (∀ (s : State) (tag nsid : Word) (slot : Half) (n : Ns), s.bdy.mboxMsg = some (4, tag.toNat, natLe 4 nsid.toNat ++ natLe 2 slot.toNat) →
    nsAt s nsid.toNat = some n → slot.toNat < 2048 →
    (slotFree s slot.toNat = true → nsCreateAllowed s = true → n.writeSlot ≠ slot.toNat → ∃ t x, exec (.newWriteSlot tag nsid slot) s = .next t ∧
      nsAt t nsid.toNat = some x ∧ x = { n with writeSlot := slot.toNat, readSlots := n.readSlots ++ [slot.toNat] } ∧
      (slotAt t slot.toNat).nsid = nsid.toNat ∧ (slotAt t slot.toNat).write = true ∧ (slotAt t n.writeSlot).write = false ∧
      (slotAt t n.writeSlot).nsid = (slotAt s n.writeSlot).nsid ∧ field (mailResponse t) 2 2 = 0) ∧
    (slotFree s slot.toNat = false ∨ nsCreateAllowed s = false → ∃ t, exec (.newWriteSlot tag nsid slot) s = .next t ∧
      field (mailResponse t) 2 2 = 3 ∧ t.hiu = s.hiu ∧ t.kst = s.kst)) ∧
  (∀ (s : State) (tag off : Word) (last : Bool) (data : Bytes), sheetInHand s tag off last data = true →
    (lifeRetired s = true → ∃ t, exec (.endsheetOwnerSection tag off last data) s = .next t ∧ field (mailResponse t) 2 2 = 3 ∧
      t.bdy.sheetRx = s.bdy.sheetRx ∧ t.bdy.sheets = s.bdy.sheets ∧ t.bdy.sheetActive = s.bdy.sheetActive) ∧
    (lifeRetired s = false → 262144 < off.toNat + data.length → ∃ t, exec (.endsheetOwnerSection tag off last data) s = .next t ∧
      field (mailResponse t) 2 2 = 1 ∧ t.bdy.sheetRx = s.bdy.sheetRx ∧ t.bdy.sheets = s.bdy.sheets ∧ t.bdy.sheetActive = s.bdy.sheetActive) ∧
    let rx := stageAt (if off = 0 then [] else s.bdy.sheetRx) off.toNat data
    (lifeRetired s = false → off.toNat + data.length ≤ 262144 → last = false → ∃ t, exec (.endsheetOwnerSection tag off false data) s = .next t ∧ t.bdy.sheetRx = rx ∧
      field (mailResponse t) 2 2 = 0 ∧ t.bdy.sheets = s.bdy.sheets ∧ t.bdy.sheetActive = s.bdy.sheetActive) ∧
    (lifeRetired s = false → off.toNat + data.length ≤ 262144 → last = true → ∃ t, exec (.endsheetOwnerSection tag off true data) s = .next t ∧ t.bdy.sheetRx = [] ∧
      field (mailResponse t) 2 2 = sheetStatus s rx ∧
      (sheetStatus s rx ≠ 0 → t.bdy.sheets = s.bdy.sheets ∧ t.bdy.sheetActive = s.bdy.sheetActive) ∧
      (sheetStatus s rx = 0 → signatureOk s rx = true ∧ t.bdy.sheetActive = 1 - s.bdy.sheetActive ∧ (sheet t).raw = rx ∧
        (sheet t).features = (sheet s).features ∧ (∃ c, t.bdy.colophon.getLast? = some c ∧ c.reason = 4) ∧ t.bnd = s.bnd))) ∧
  (∀ (s : State) (tag nsid off : Word) (which fuses : Byte) (slot : Half) (last : Bool) (data : Bytes), s.bdy.mboxMsg = none →
    exec (.mailboxKeyImport tag data) s = .next s ∧ exec (.lowerVotedLimit tag which fuses) s = .next s ∧
    exec (.newWriteSlot tag nsid slot) s = .next s ∧ exec (.endsheetOwnerSection tag off last data) s = .next s ∧
    exec (.lifecycleTransition tag data) s = .next s)

/-- From R5, R334 to R339, R341, R342, R363, R365 and R366: key slots, life-cycle and voted words. Which result shows where several causes
hold is the order of importResult. -/
def Obligations.KeysAndLifeCycleMoveForward : Prop :=
  (∀ s : State, barSealed s = false → let b := winBytes s.kst.importWin 0 152
    let n := field b 4 2
    (importResult s b = 0 → ∃ t k, exec .keyImport s = .next t ∧ Config.unwrapKey (lifeCycle s) b = some k ∧ n < 2048 ∧
      (slotAt s n).st = 0 ∧ slotAt t n = { st := 1, kcv := Config.kcv k, key := k } ∧ (∀ m, m ≠ n → slotAt t m = slotAt s m) ∧
      t.kst.result = 0 ∧ t.kst.importWin = [] ∧ (∃ e ∈ t.kst.nor, e.slot.val = n ∧ e.key = k ∧ e.active = false) ∧
      counter t 12 0 = counter s 12 0 + 1 ∧ (s.spn.link = 2 → t.out = s.out ++ [{ cls := 3, msg := .kcv n (Config.kcv k) }])) ∧
    (importResult s b ≠ 0 → ∃ t, exec .keyImport s = .next t ∧ t.kst = { s.kst with importWin := [], result := importResult s b } ∧
      counter t 12 1 = counter s 12 1 + 1 ∧ t.out = s.out) ∧
    (lifeCycle s ≠ 1 → lifeCycle s ≠ 2 → importResult s b = 5)) ∧
  (∀ s : State, barSealed s = true → exec .keyImport s = .next s ∧ ∀ n, exec (.keySlotClear n) s = .next s) ∧
  (∀ (s : State) (n : Fin 2048) (kcv : Word), let k := slotAt s n
    (k.st = 1 → k.kcv = kcv → ∃ t, exec (.kcvMatch n kcv) s = .next t ∧ slotAt t n = { k with st := 2 } ∧
      (∀ m, m ≠ n.val → slotAt t m = slotAt s m) ∧ (s.spn.link = 2 → t.out = s.out ++ [{ cls := 3, msg := .kcv n kcv }]) ∧ OnlyIn [.kst, .out] s t) ∧
    (k.st ≠ 1 ∨ k.kcv ≠ kcv → exec (.kcvMatch n kcv) s = .next s) ∧
    (barSealed s = false → k.nsid = 0 → ∃ t, exec (.keySlotClear n) s = .next t ∧ slotAt t n = {} ∧ (∀ e ∈ t.kst.nor, e.slot ≠ n) ∧
      (∀ m, m ≠ n.val → slotAt t m = slotAt s m) ∧ OnlyIn [.kst] s t) ∧
    (barSealed s = false → k.nsid ≠ 0 → exec (.keySlotClear n) s = .next { s with kst := { s.kst with result := 5 } })) ∧
  (∀ s : State, ∃ t, exec .lcNonceRead s = .next t ∧ t.kst = { s.kst with nonce := some (Config.freshNonce s.free) } ∧
    t.hostRead = Config.freshNonce s.free ∧ t.free = s.free + 1 ∧ t.splitLatch = none ∧ OnlyIn [.free, .hostRead, .kst, .splitLatch] s t) ∧
  (∀ (s : State) (tag : Word) (b : Bytes), s.bdy.mboxMsg = some (1, tag.toNat, b) →
    (transitionStatus s b = 0 → ∃ t, exec (.lifecycleTransition tag b) s = .next t ∧ t.kst.transition = some (field b 0 1, now s + 256) ∧
      t.kst.nonce = none ∧ field (mailResponse t) 2 2 = 0 ∧ t.out = s.out ++ [{ cls := 3, msg := .mgmt (.transition b (BitVec.ofNat 64 (now s + 256))) }] ∧
      OnlyIn [.kst, .bdy, .out] s t) ∧
    (transitionStatus s b ≠ 0 → ∃ t, exec (.lifecycleTransition tag b) s = .next t ∧ t.kst = s.kst ∧ t.out = s.out ∧
      field (mailResponse t) 2 2 = transitionStatus s b) ∧
    (transitionStatus s b = 0 → field b 0 1 = lifeCycle s + 1 ∧ field b 0x10 16 = s.bdy.serial.toNat ∧
      s.kst.nonce = some (BitVec.ofNat 64 (field b 8 8)) ∧ s.kst.transition = none ∧ s.bdy.staging = none ∧ s.spn.paired = true ∧
      s.spn.link = 2 ∧ s.qre.vol = 0 ∧ dirtyBytes s = 0 ∧ s.qre.ingest = [] ∧ journalQuires s = 0 ∧ s.qre.amends = [] ∧ readHold s 0xFF = true ∧
      s.bdy.commitBusy = false ∧ transitionSigned s b = true)) ∧
  (∀ (s : State) (target commit : Nat), s.kst.transition = some (target, commit) →
    (now s ≠ commit → exec .lifecycleCommit s = .next s) ∧
    (now s = commit → ∃ t, exec .lifecycleCommit s = .next t ∧ t.kst.slots = [] ∧
      t.kst.lc = { a := max s.kst.lc.a target, b := max s.kst.lc.b target, c := max s.kst.lc.c target } ∧ t.kst.nor = [] ∧ t.kst.transition = none ∧ t.hiu.ns = [] ∧ t.hiu.zones = [] ∧ t.hiu.cmds = [] ∧ t.qre = {} ∧ t.cmd = {} ∧
      t.mem.epoch = s.mem.epoch + 1 ∧ t.mem.image = none ∧ t.mem.log = [] ∧ t.bdy.colophon.dropLast = s.bdy.colophon.dropLast ∧
      ((∀ c, s.bdy.colophon.getLast? = some c → c.stitch + 2500 ≤ s.tck.count) → t.bdy.colophon = s.bdy.colophon) ∧ t.bdy.staged = [] ∧ t.pwr.phase = .warm ∧
      t.pwr.resetCause = s.pwr.resetCause ∧ t.tck.count = s.tck.count)) ∧
  (∀ (s : State), s.kst.transition = none → exec .lifecycleCommit s = .next s) ∧
  (∀ (s : State) (w : Fin 5) (a b c : Nat),
    let voted (t : State) : Voted := match w.val with | 0 => t.kst.lc | 1 => t.kst.bndFloor | 2 => t.kst.fwFloor | 3 => t.kst.spindle | _ => t.kst.laser
    (a = b → b = c → exec (.votedWordMismatch w a b c) s = .next s) ∧
    (a ≠ b ∨ b ≠ c → a = b ∨ a = c ∨ b = c → ∃ t m, exec (.votedWordMismatch w a b c) s = .next t ∧ voted t = { a := m, b := m, c := m } ∧
      (a = b → m = a) ∧ (a = c → m = a) ∧ (b = c → m = b) ∧ counter t 12 2 = counter s 12 2 + 1 ∧ OnlyIn [.kst, .cnt, .bdy] s t) ∧
    (a ≠ b → a ≠ c → b ≠ c → ∃ t, exec (.votedWordMismatch w a b c) s = .next t ∧ t.kst.votedFault = true ∧
      voted t = { a := a, b := b, c := c } ∧ ∀ n ∈ controllers s, (ctrlAt t n).cfs = true))

/-- From R330, R345, R346, R354 and R355: entropy, lockstep, release and the Colophon read. -/
def Obligations.TheBinderyWatchesItsTwin : Prop :=
  (∀ s : State, (s.cph.drbg = 0 → ∃ t, exec .drbgReseed s = .next t ∧ t.cph = { s.cph with drbgAt := now s } ∧
      counter t 11 6 = counter s 11 6 + 1 ∧ OnlyIn [.cph, .cnt] s t) ∧
    (s.cph.drbg ≠ 0 → exec .drbgReseed s = .next s) ∧
    (s.cph.drbg ≠ 1 → ∃ t, exec .entropyHealthFail s = .next t ∧ t.cph = { s.cph with drbg := 1 } ∧ cipherRuns t = false ∧
      counter t 11 7 = counter s 11 7 + 1 ∧ OnlyIn [.cph, .cnt, .bdy] s t) ∧
    (s.cph.drbg = 1 → exec .entropyHealthFail s = .next s ∧
      exec .entropyRecover s = .next { s with cph := { s.cph with drbg := 0 } }) ∧
    (s.cph.drbg ≠ 1 → exec .entropyRecover s = .next s)) ∧
  (∀ s : State, (s.bdy.halted = false → alive s = true → ∃ t, exec .lockstepMismatch s = .next t ∧ t.bdy = { s.bdy with halted := true } ∧
      t.tck.aliveOut = false ∧ t.tck.aliveOn = false ∧ t.spn.silent = true ∧ t.spn.haltAt = now s + 64 ∧ now t = now s ∧
      OnlyIn [.bdy, .tck, .spn] s t) ∧
    (s.bdy.halted = true ∨ alive s = false → exec .lockstepMismatch s = .next s)) ∧
  (∀ s : State, (s.bdy.released = false → alive s = true → ∃ t, exec .bayRelease s = .next t ∧ t.bdy.released = true ∧
      t.bdy.releasedAt = now s ∧ counter t 0 6 = counter s 0 6 + 1 ∧ OnlyIn [.bdy, .cnt] s t) ∧
    (s.bdy.released = false ∨ now s < s.bdy.releasedAt + 250000 → exec .bayReleaseEnd s = .next s) ∧
    (s.bdy.released = true → s.bdy.releasedAt + 250000 ≤ now s → ∃ t, exec .bayReleaseEnd s = .next t ∧ t.bdy = { s.bdy with released := false } ∧
      (∀ b, b < 8 → shadows s b = true → let p := pairAt s b
        (pairAt t b).withhold = (if p.withhold = 0 then 10 else p.withhold) ∧ (pairAt t b).hits = 0 ∧ (2 ≤ p.resync → (pairAt t b).resync = 0) ∧
        (p.resync < 2 → pairAt t b = { p with withhold := if p.withhold = 0 then 10 else p.withhold, hits := 0 })) ∧
      (∀ b, b < 8 → shadows s b = false → pairAt t b = pairAt s b) ∧ OnlyIn [.bdy, .spn] s t)) ∧
  (∀ (s : State) (r : CmdRef) (first count : Word), ∃ data, exec (.colophonRead r first count) s = .next (complete s r .success 0 data) ∧
    let held := s.bdy.colophon.filter recValid
    data.length = 1024 * count.toNat ∧ (held.length ≤ first.toNat → data = zeros (1024 * count.toNat)) ∧
    (∀ k c, k < count.toNat → first.toNat + k < held.length → held[held.length - 1 - (first.toNat + k)]? = some c →
      (data.drop (1024 * k)).take 1024 = colBytes c ∧ (colBytes c).take 880 = colBody c))

/-- From R356, R357 and R359: the SMBus endpoint. -/
def Obligations.TheEndpointAnswersOnSmbus : Prop :=
  let tells (c : Instr) (s : State) (type : Nat) (b : Bytes) := ∃ t, exec c s = .next t ∧ t.bdy = { s.bdy with smbOut := s.bdy.smbOut ++ [(type, b)] } ∧ OnlyIn [.bdy] s t
  (∀ s : State, endpointUp s = true →
    (∀ e : Byte, e ≠ 0 → e ≠ 0xFF → ∃ t, exec (.mctpSetEndpointId e) s = .next t ∧ t.bdy.eid = e.toNat ∧
      exec .mctpGetEndpointId t = .next (answer t 0 [2, 0, e, 0, 0]) ∧ OnlyIn [.bdy] s t) ∧
    tells (.mctpSetEndpointId 0) s 0 [1, 2] ∧ tells .mctpGetEndpointId s 0 [2, 0, BitVec.ofNat 8 s.bdy.eid, 0, 0] ∧
    tells .mctpGetMessageTypeSupport s 0 [5, 0, 4, 0, 1, 4, 5] ∧
    (∀ ty : Byte, ty ∉ [0, 0xFF, 1, 4, 5] → tells (.mctpGetVersionSupport ty) s 0 [4, 0x80]) ∧
    (∀ ty : Byte, ty ∈ [0, 0xFF, 1, 4, 5] → ∃ v, tells (.mctpGetVersionSupport ty) s 0 ([4, 0] ++ v)) ∧
    (∀ k : Byte, ∃ v, tells (.nvmeMiReadDataStructure k) s 4 v) ∧ tells (.nvmeMiHealthStatusPoll none) s 4 ([0] ++ subsystemHealth s) ∧
    (∀ n : Fin 2, n.val ∈ controllers s → tells (.nvmeMiHealthStatusPoll (some n)) s 4 ([0] ++ controllerHealth s n)) ∧
    (∀ (id : Byte) (v : Word), 1 ≤ id.toNat → id.toNat ≤ 3 → ∃ t, exec (.nvmeMiConfigurationSet id v) s = .next t ∧
      t.bdy.smbOut = s.bdy.smbOut ++ [(4, [0])] ∧ tells (.nvmeMiConfigurationGet id) t 4 ([0] ++ natLe 4 v.toNat)) ∧
    (∀ (id : Byte) (v : Word), id.toNat = 0 ∨ 3 < id.toNat → tells (.nvmeMiConfigurationSet id v) s 4 [4] ∧ tells (.nvmeMiConfigurationGet id) s 4 [4]) ∧
    (∀ (op arg : Byte), op ∉ [0x06, 0x02, 0x0A] → tells (.nvmeMiTunnelledAdmin op arg) s 4 [3]) ∧
    (∀ (op arg : Byte), ∃ v, tells (.nvmeMiTunnelledAdmin op arg) s 4 v) ∧
    (∀ (arg : Byte) (p : Bytes), logPage s arg.toNat = some p → tells (.nvmeMiTunnelledAdmin 0x02 arg) s 4 ([0] ++ p)) ∧
    (∀ k : Byte, (k.toNat ≤ 4 → tells (.spdmGetCertificate k) s 5 ([0] ++ Config.certChain k.toNat)) ∧
      (4 < k.toNat → tells (.spdmGetCertificate k) s 5 [0x7F])) ∧
    (∀ (k : Byte) (n : BitVec 256), (4 < k.toNat → tells (.spdmChallenge k n) s 5 [0x7F]) ∧ (k.toNat ≤ 4 → ∃ t m, exec (.spdmChallenge k n) s = .next t ∧
      t.free = s.free + 1 ∧ t.bdy.smbOut = s.bdy.smbOut ++ [(5, [0] ++ signedAnswer s 3 m)] ∧ (m.drop 1).take 32 = natLe 32 n.toNat)) ∧
    (∀ (k : Byte) (n : BitVec 256), (15 < k.toNat → k ≠ 255 → tells (.spdmGetMeasurements k n) s 5 [0x7F]) ∧
      (k.toNat ≤ 15 ∨ k = 255 → ∃ m, tells (.spdmGetMeasurements k n) s 5 ([0] ++ signedAnswer s 0x60 m)))) ∧
  (∀ (s : State) (comp : Half) (off : Word) (data : Bytes), endpointUp s = true → comp = 1 ∨ comp = 2 →
    (stagingBusy s true = true → tells (.pldmFirmwareUpdate comp off data false) s 1 (Config.stdData 0x20 1)) ∧
    (stagingBusy s true = false → off.toNat + data.length ≤ Config.fwSlotBytes → ∃ t b, exec (.pldmFirmwareUpdate comp off data false) s = .next t ∧
      t.bdy.staging = some b ∧ t.bdy.stagingMi = true ∧ (b.drop off.toNat).take data.length = data ∧
      t.bdy.smbOut = s.bdy.smbOut ++ [(1, Config.stdData 0x20 0)] ∧ OnlyIn [.bdy] s t) ∧
    (stagingBusy s true = false → (stagedImage s).kind.toNat = comp.toNat → (stagedImage s).kind = 2 →
      activateFault s true (3 - s.bdy.booted) = none → ∃ t, exec (.pldmFirmwareUpdate comp off data true) s = .next t ∧
      t.pwr.activating = 3 - s.bdy.booted ∧ t.cmd.fetchPaused = true ∧ t.bdy.booted = s.bdy.booted) ∧
    (stagingBusy s true = false → comp = 1 → (stagedImage s).kind = 1 → commitFault s true (3 - s.bdy.bootedLoader) = none →
      ∃ t, exec (.pldmFirmwareUpdate comp off data true) s = .next t ∧ slotImage t 1 (3 - s.bdy.bootedLoader) = some (stagedImage s) ∧
        t.bdy.pendingSlot = 3 - s.bdy.bootedLoader ∧ t.bdy.attempts = 3 ∧ t.bdy.staging = none ∧ OnlyIn [.bdy] s t)) ∧
  (∀ (s : State) (comp : Half) (off : Word) (data : Bytes) (act : Bool), endpointUp s = true → comp ≠ 1 → comp ≠ 2 →
    tells (.pldmFirmwareUpdate comp off data act) s 1 (Config.stdData 0x20 2)) ∧
  (∀ (s : State) (k arg : Byte) (v off : Word) (ct : Option (Fin 2)) (n : BitVec 256) (comp : Half) (data : Bytes) (act : Bool),
    endpointUp s = false →
    (∀ c ∈ [Instr.mctpSetEndpointId k, .mctpGetEndpointId, .mctpGetVersionSupport k, .mctpGetMessageTypeSupport, .nvmeMiReadDataStructure k,
      .nvmeMiHealthStatusPoll ct, .nvmeMiConfigurationGet k, .nvmeMiConfigurationSet k v, .nvmeMiTunnelledAdmin k arg, .spdmGetCertificate k,
      .spdmGetMeasurements k n, .pldmFirmwareUpdate comp off data act], exec c s = .next s) ∧
    (k.toNat ≤ 4 → exec (.spdmChallenge k n) s = .next (drawn s)) ∧ (4 < k.toNat → exec (.spdmChallenge k n) s = .next s))

/-- From R15, R38, R248, R338, R377 to R379, R383 and R407: mode sets and Hold. -/
def Obligations.ModesChangeAtLeafBoundariesAndThroughHold : Prop :=
  (∀ (s : State) (b m : Nat), ((bayAt s b).safeStop = true ∨ (m ≠ 5 ∧ (discIn s b = false ∨ bayWindow s b = true)) ∨ 3 ≤ lifeCycle s) ↔
    modeRefused s b m = true) ∧
  (∀ (s : State) (r : CmdRef) (mask : Byte) (m : BitVec 4),
    (5 < m.toNat → exec (.modeSet r mask m) s = .next (complete s r .invalidField)) ∧
    (m.toNat ≤ 5 → (∃ b ∈ baysIn mask, peerRuns s b = true) →
      (s.spn.link = 2 → exec (.modeSet r mask m) s = .next { s with out := s.out ++ [{ cls := 3, msg := .mgmt (.modeSet r mask m) }] }) ∧
      (s.spn.link ≠ 2 → exec (.modeSet r mask m) s = .next (complete s r (.vendor 1)))) ∧
    (m.toNat ≤ 5 → (∀ b ∈ baysIn mask, peerRuns s b = false) →
      ((∃ b ∈ baysIn mask, modeRefused s b m.toNat = true) → ∃ u, exec (.modeSet r mask m) s = .next (complete u r (.vendor 3)) ∧
        OnlyIn [.cnt, .bdy] s u) ∧
      ((∀ b ∈ baysIn mask, modeRefused s b m.toNat = false) → ∃ u, exec (.modeSet r mask m) s = .next (complete u r .success) ∧
        (∀ b, b ∉ baysIn mask → bayAt u b = bayAt s b) ∧
        (∀ b ∈ baysIn mask, (bayAt u b).req = m.toNat ∧ (bayAt u b).runtime = true ∧
          (m.toNat = 5 → ((bayAt s b).mode = 5 ∧ (bayAt s b).holdEntry = false ∧ (bayAt u b).mode = 5) ∨ (bayAt u b).holdEntry = true) ∧
          (m.toNat ≠ 5 → (bayAt s b).mode = 5 → (bayAt s b).holdEntry = false → (bayAt u b).mode = m.toNat ∧ (bayAt u b).bringing = true ∧
            (bayAt u b).bringup = 0) ∧
          (m.toNat ≠ 5 → (bayAt s b).mode ≠ 5 → (bayAt s b).holdEntry = false → (bayAt u b).mode = (bayAt s b).mode ∧ (bayAt u b).done = 0) ∧
          (m.toNat ≠ 5 → (bayAt s b).holdEntry = true → (bayAt u b).enablePending = some m.toNat ∧ (bayAt u b).holdEntry = true) ∧
          (s.spn.link = 2 → ∃ p ∈ u.out, p.msg = .mgmt (.modeNote (Fin.ofNat 8 b) m)))))) ∧
  (∀ (s : State) (opu : Fin 16), let b := opu.val / 2
    let y := bayAt s b
    let d := y.done ||| BitVec.ofNat 2 (2 ^ (opu.val % 2))
    ((opuAt s opu).run ≠ none ∨ (∃ a, holder s opu = some a ∧ a ≠ 1 ∧ a ≠ 6) ∨ (∃ e ∈ s.qre.quires, ∃ l ∈ e.2.leaves, l.surface = opu ∧
        l.peer = false ∧ l.st = 1 ∧ l.failed ≠ []) ∨ (∃ e ∈ s.rdc.reads, e.2.req.leaf.surface = opu ∧ ∃ f ∈ e.2.folios, f.done = none ∧
        (f.redecode = true ∨ 2 ≤ f.step)) ↔ insideLeaf s opu = true) ∧
    (y.req = y.mode ∨ y.holdEntry = true ∨ y.mode = 5 ∨ insideLeaf s opu = true → exec (.modeChangeEffect opu) s = .next s) ∧
    (y.req ≠ y.mode → y.holdEntry = false → y.mode ≠ 5 → insideLeaf s opu = false →
      ∃ t, exec (.modeChangeEffect opu) s = .next t ∧ (d ≠ 3 → bayAt t b = { y with done := d }) ∧
        (d = 3 → (bayAt t b).mode = y.req ∧ (bayAt t b).req = y.req ∧ (bayAt t b).done = 0 ∧ (bayAt t b).lastChange = now s ∧
          counter t 2 0 = counter s 2 0 + 1) ∧ (∀ n, n ≠ b → bayAt t n = bayAt s n))) ∧
  (∀ (s : State) (b : Fin 8), let y := bayAt s b
    let wait := y.holdAt + regBits s .pwrModeCfg 0 15 0 * 250
    (y.holdEntry = false ∨ (y.grants ≠ [] ∧ now s < wait) → exec (.holdWaitExpiry b) s = .next s) ∧
    (y.holdEntry = true → y.grants = [] ∨ wait ≤ now s → ∃ t, exec (.holdWaitExpiry b) s = .next t ∧
      (∀ g ∈ (bayAt t b).grants, g ∈ y.grants ∧ g.1 ≠ 2 * b.val ∧ g.1 ≠ 2 * b.val + 1) ∧ (bayAt t b).holdEntry = true ∧
      (∀ n ∈ bayCells s b, (cellAt s n).loop ≠ 0 → (cellAt t n).st = .parked ∨ (cellAt t n).st = .retract) ∧
      ((∀ n ∈ bayCells s b, (cellAt s n).st = .parked) → (∀ g ∈ y.grants, g.1 = 2 * b.val ∨ g.1 = 2 * b.val + 1) →
        (portAt t b).readEn = 0 ∧ (portAt t b).spotEn = 0) ∧ (∀ n, n ≠ b.val → portAt t n = portAt s n ∧ bayAt t n = bayAt s n))) ∧
  (∀ (s : State) (b : Fin 8), let y := bayAt s b
    let parked := ∀ n ∈ bayCells s b, (cellAt s n).st = .parked
    let rest := (unitAt s b).st = .off ∨ (unitAt s b).st = .fault
    (y.holdEntry = false ∨ ¬ parked ∨ (¬ rest ∧ y.enablePending = none) → exec (.holdReached b) s = .next s) ∧
    (y.holdEntry = true → parked → rest → y.enablePending = none → ∃ t, exec (.holdReached b) s = .next t ∧ (bayAt t b).mode = 5 ∧
      (bayAt t b).req = 5 ∧ (bayAt t b).holdEntry = false ∧ counter t 2 0 = counter s 2 0 + 1 ∧ t.cells = s.cells ∧ t.units = s.units ∧
      (y.exchange = false → t.axes = s.axes)) ∧
    (∀ m, y.holdEntry = true → parked → y.enablePending = some m → ∃ t, exec (.holdReached b) s = .next t ∧ (bayAt t b).mode = m ∧
      (bayAt t b).holdEntry = false ∧ (bayAt t b).enablePending = none ∧ (bayAt t b).bringing = discIn s b ∧
      counter t 2 0 = counter s 2 0 + 2))

/-- From R137, R139, R189, R208, R248, R321, R368, R369, R372, R378 and R401: bay control and bring-up. What an order needs to be taken: the twin
takes commands for the bay, and fewer than four are queued. The status of PREPARE_EXCHANGE while a volume unmounts is log entry 211. -/
def Obligations.BaysAreControlledAndBroughtUp : Prop :=
  (∀ (s : State) (r : CmdRef) (b : Fin 8) (a : Byte) (c : Instr),
    (c, a) ∈ [(Instr.bayReset r b, (1 : Byte)), (.leaveSafeStop r b, 2), (.discLoaded r b, 3), (.prepareExchange r b, 4)] →
    (peerRuns s b = true → s.spn.link = 2 → exec c s = .next { s with out := s.out ++ [{ cls := 3, msg := .mgmt (.bayControl r b a) }] }) ∧
    (peerRuns s b = true → s.spn.link ≠ 2 → exec c s = .next (complete s r (.vendor 1))) ∧
    (obeyed s b = 3 → exec c s = .next (complete s r (.vendor 2)))) ∧
  (∀ (s : State) (r : CmdRef) (b : Fin 8), peerRuns s b = false → obeyed s b ≠ 3 →
    (∃ u, exec (.bayReset r b) s = .next (complete u r .success) ∧ (bayAt u b).mode = 5 ∧ (bayAt u b).req = 5 ∧
      (bayAt u b).safeStop = false ∧ (bayAt u b).holdEntry = false ∧ (bayAt u b).runtime = false ∧ (bayAt u b).exchange = false ∧
      (bayAt u b).claim = ((bayAt s b).claim || obeyed s b == 2) ∧
      (∀ n ∈ bayCells s b, (cellAt u n).st = .parked ∧ (cellAt u n).queue = []) ∧
      (portAt u b).readEn = 0 ∧ (opuAt u (2 * b)).laser = 0 ∧ (opuAt u (2 * b + 1)).laser = 0 ∧
      (∀ n, n ≠ b.val → portAt u n = portAt s n ∧ bayAt u n = bayAt s n ∧ unitAt u n = unitAt s n) ∧
      (∀ n, n ∉ bayAxes b → axisAt u n = axisAt s n) ∧ u.tck = s.tck ∧ u.hiu = s.hiu) ∧
    ((bayAt s b).safeStop = false → exec (.leaveSafeStop r b) s = .next (complete s r (.vendor 3))) ∧
    ((bayAt s b).safeStop = true → ∃ u, exec (.leaveSafeStop r b) s = .next (complete u r .success) ∧ (bayAt u b).safeStop = false ∧
      (bayAt u b).mode = 5 ∧ (bayAt u b).coast = false ∧ (bayAt u b).claim = ((bayAt s b).claim || obeyed s b == 2) ∧
      (∀ n ∈ bayCells s b, (cellAt s n).st = .parked → cellAt u n = enterParked (cellAt s n)) ∧ (∀ n, n ∉ bayCells s b → cellAt u n = cellAt s n) ∧
      (∀ n, n ≠ b.val → bayAt u n = bayAt s n) ∧ OnlyIn [.bays, .cells, .out] s u) ∧
    (runs s b = true → ∃ u, exec (.discLoaded r b) s = .next (complete u r .success) ∧
      (∀ o, o = 2 * b.val ∨ o = 2 * b.val + 1 → ∃ j, jobOf u o (getD s.cal.curLayer 0 o) .bfeOffsets = some j ∧ j.blocking = true) ∧
      OnlyIn [.cal, .out] s u) ∧
    (s.qre.unmounting = true → exec (.prepareExchange r b) s = .next (complete s r (.vendor 3))) ∧
    (s.qre.unmounting = false → ∃ u, exec (.prepareExchange r b) s = .next (complete u r .success) ∧ (bayAt u b).exchange = true ∧ (bayAt u b).safeStop = false ∧
      (bayAt u b).claim = ((bayAt s b).claim || obeyed s b == 2) ∧ (∀ n, n ≠ b.val → bayAt u n = bayAt s n) ∧
      ((bayAt s b).safeStop = true ∨ ((bayAt s b).mode = 5 ∧ (bayAt s b).holdEntry = false) → (bayAt u b).mode = 5 ∧ (accepts s b = true →
        ∀ n ∈ bayAxes b, (axisAt s n).st ≠ .down → (axisAt s n).queue.length < 4 → ∃ q ∈ (axisAt u n).queue, q.op = 5)) ∧
      ((bayAt s b).safeStop = false → (bayAt s b).mode ≠ 5 ∨ (bayAt s b).holdEntry = true → (bayAt u b).holdEntry = true ∧ (bayAt u b).req = 5)) ∧
    (s.spn.link = 2 → ∃ u, exec (.bayReset r b) s = .next (complete u r .success) ∧ ∃ p ∈ u.out, p.msg = .mgmt (.bayNote b 1))) ∧
  (∀ (s : State) (b : Fin 8), let y := bayAt s b
    (y.bringing = false ∨ runs s b = false ∨ y.safeStop = true ∨ y.holdEntry = true → exec (.bayBringupStep b) s = .next s) ∧
    (y.bringing = true → runs s b = true → y.safeStop = false → y.holdEntry = false →
      (y.bringup = 0 → laserTurn s = false → exec (.bayBringupStep b) s = .next s) ∧
      (y.bringup = 0 → laserTurn s = true → ∃ t, exec (.bayBringupStep b) s = .next t ∧ (bayAt t b).emitAt = now s ∧
        ((portAt s b).readEn.toNat % 16 = 0 → (portAt t b).readEn = (portAt s b).readEn ||| 0x0F ∧ (bayAt t b).bringup = 0) ∧
        ((portAt s b).readEn.toNat % 16 ≠ 0 → (portAt t b).readEn = 0xFF ∧ (bayAt t b).bringup = 1) ∧ OnlyIn [.bays, .ports] s t) ∧
      (y.bringup = 1 → ∃ t, exec (.bayBringupStep b) s = .next t ∧ (bayAt t b).bringup = 2 ∧
        (∀ o n, o = 2 * b.val ∨ o = 2 * b.val + 1 → cellOf s o 0 = some n → (cellAt s n).named = true → (cellAt s n).opu = o →
          (cellAt s n).st = .parked → y.mode ≠ 5 → accepts s b = true → (cellAt s n).queue.length < 4 → ∃ q ∈ (cellAt t n).queue, q.op = 1) ∧
        OnlyIn [.bays, .cells, .spn] s t) ∧
      (y.bringup = 2 → spindleTurn s b = false → exec (.bayBringupStep b) s = .next s) ∧
      (y.bringup = 2 → spindleTurn s b = true → ∃ t, exec (.bayBringupStep b) s = .next t ∧ (bayAt t b).bringup = 3 ∧
        (bayAt t b).spinAt = now s ∧ (bayAt t b).handed = false ∧ (accepts s b = true → spdBad (unitAt s b) 1 = false →
          (unitAt s b).queue.length < 4 → ∃ q ∈ (unitAt t b).queue, q.op = 1 ∧ q.arg = zoneTarget s b (bayZone s b) ∧ q.effect = now s + 3) ∧
        OnlyIn [.bays, .units, .spn] s t) ∧
      (y.bringup = 3 → (unitAt s b).locked = false → exec (.bayBringupStep b) s = .next s) ∧
      (y.bringup = 3 → (unitAt s b).locked = true → loopsClosed s (2 * b) = true → loopsClosed s (2 * b + 1) = true →
        ∃ t, exec (.bayBringupStep b) s = .next t ∧ (bayAt t b).bringup = 4 ∧ t.units = s.units) ∧
      (y.bringup = 4 → ∃ t, exec (.bayBringupStep b) s = .next t ∧ (bayAt t b).bringup = 5 ∧ (bayAt t b).bringing = false ∧
        (∀ o, o = 2 * b.val ∨ o = 2 * b.val + 1 → ∃ j, jobOf t o (getD s.cal.curLayer 0 o) .bfeOffsets = some j ∧ j.blocking = true) ∧
        OnlyIn [.bays, .cal] s t) ∧
      (5 ≤ y.bringup → exec (.bayBringupStep b) s = .next s))) ∧
  (∀ (s : State) (b : Fin 8), let y := bayAt s b
    let w := (s.bnd.active.map (·.power)).getD {}
    let due := ((w.handPct * (unitAt s b).target : Nat) : Int) ≤ 100 * unitRpm (spdPar s b) (unitAt s b) ∨
      y.spinAt + w.handMs * 250 ≤ now s ∨ (unitAt s b).fault = true
    (3 ≤ y.bringup → y.handed = false → due → exec (.spindleHandoff b) s = .next (setBay s b { y with handed := true })) ∧
    (y.bringup < 3 ∨ y.handed = true ∨ ¬ due → exec (.spindleHandoff b) s = .next s))

/-- From R259, R287, R288, R290, R291, R343, R362 and R380 to R383: the power window and the ends of a run. -/
def Obligations.PowerAndHeatAreHeldDown : Prop :=
  (∀ (s : State) (est : Half) (temps : List Int) (volts : List Nat) (ppm : Int) (refs : BitVec 2), let hot := composite temps
    let lim := fun hi lo => 4 * (regBits s .pwrThermCfg 0 hi lo : Int)
    (s.pwr.phase = .starting ∨ s.pwr.phase = .running → ∃ t, exec (.powerWindow est temps volts ppm refs) s = .next t ∧
      t.bdy.temps = temps ∧ t.bdy.volts = volts ∧ t.bdy.ppm = ppm ∧ t.pwr.est = est.toNat ∧ t.pwr.phase = s.pwr.phase ∧
      (s.pwr.therm ≠ 3 → lim 15 8 ≤ hot → t.pwr.therm = 2) ∧ (s.pwr.therm ≠ 3 → lim 7 0 ≤ hot → hot < lim 15 8 → t.pwr.therm = 1) ∧
      (s.pwr.therm ≠ 3 → hot < lim 7 0 → hot < lim 15 8 → s.pwr.capCut = 0 → t.pwr.therm = 0) ∧
      (let up := if twinCap t < est.toNat then s.pwr.overRun + 1 else 0
       let down := if est.toNat + 20 < twinCap t then s.pwr.underRun + 1 else 0
       let climbs := regBits s .pwrModeCfg 0 31 24 ≤ up ∧ 0 < up
       let falls := regBits s .pwrModeCfg 0 23 16 ≤ down ∧ 0 < down
       (climbs → s.pwr.throttle < 15 → t.pwr.throttle = s.pwr.throttle + 1 ∧ t.pwr.overRun = 0 ∧ counter t 2 2 = counter s 2 2 + 1) ∧
       (climbs → 15 ≤ s.pwr.throttle → t.pwr.throttle = s.pwr.throttle ∧ t.pwr.capUnmet = true) ∧
       (¬ climbs → falls → 0 < s.pwr.throttle → t.pwr.throttle = s.pwr.throttle - 1 ∧ t.pwr.underRun = 0) ∧
       (¬ climbs → ¬ falls → t.pwr.throttle = s.pwr.throttle ∧ t.pwr.overRun = up ∧ t.pwr.underRun = down) ∧
       (twinCap t < est.toNat → counter t 2 3 = counter s 2 3 + 1) ∧ (est.toNat ≤ twinCap t → counter t 2 3 = counter s 2 3))) ∧
    (s.pwr.phase = .thermal → ∃ t, exec (.powerWindow est temps volts ppm refs) s = .next t ∧
      (hot < lim 7 0 → t.pwr = { s.pwr with phase := .warm, thermTrip := false, therm := 0 }) ∧ (lim 7 0 ≤ hot → t.pwr = s.pwr) ∧
      OnlyIn [.bdy, .pwr] s t)) ∧
  (∀ s : State, s.pwr.phase = .starting ∨ s.pwr.phase = .running → 420 ≤ composite s.bdy.temps → s.pwr.therm ≠ 3 →
    (s.mem.dumping = true → ∃ t, exec .thermalShutdown s = .next t ∧ t.pwr = { s.pwr with therm := 3 } ∧ t.mem = s.mem ∧
      counter t 2 5 = counter s 2 5 + 1) ∧
    (s.mem.dumping = false → s.mem.replaying = false → ∃ t, exec .thermalShutdown s = .next t ∧ t.pwr = { s.pwr with therm := 3 } ∧
      t.mem.dumping = true ∧ t.mem.dumpAt = now s ∧ t.cmd.admission = false) ∧
    (s.mem.dumping = false → s.mem.replaying = true → ∃ t, exec .thermalShutdown s = .next t ∧ t.pwr.phase = .thermal ∧ t.pwr.thermTrip = true ∧
      t.mem.dumping = false ∧ t.mem.image = s.mem.image)) ∧
  (∀ s : State, composite s.bdy.temps < 420 ∨ s.pwr.therm = 3 ∨ (s.pwr.phase ≠ .starting ∧ s.pwr.phase ≠ .running) → exec .thermalShutdown s = .next s) ∧
  (∀ s : State, ∃ t, exec .thermalTrip s = .next t ∧ t.pwr.phase = .tripped ∧ t.pwr.thermTrip = true ∧
    t.pwr.resetCause = s.pwr.resetCause ||| 0x40 ∧ t.mem.dumping = false ∧ t.mem.image = s.mem.image ∧ t.tck.aliveOut = false) ∧
  (∀ s : State,
    (alive s = false ∨ s.pwr.failRun < 2 → exec .powerFailDetect s = .next s) ∧
    (alive s = true → 2 ≤ s.pwr.failRun → s.mem.replaying = true → exec .powerFailDetect s = .next { s with pwr := { s.pwr with halted := true } }) ∧
    (alive s = true → 2 ≤ s.pwr.failRun → s.mem.replaying = false → ∃ t, exec .powerFailDetect s = .next t ∧ t.cmd.admission = false ∧
      t.cmd.versions = s.cmd.versions.filter (fun v => v.acked || !v.own) ∧ t.kst.transition = none ∧ t.mem.dumping = true ∧
      t.mem.dumpAt = now s ∧ (∀ b, b < 8 → runs s b = true → (bayAt t b).safeStop = true) ∧ t.pwr = s.pwr ∧ t.tck = s.tck ∧
      (s.mem.replayed = false → s.mem.vault ≠ 2 → ∃ i, t.mem.image = some i ∧ i.versions = t.cmd.versions ∧ i.quires = t.qre.quires ∧
        i.complete = false ∧ i.seq = t.mem.imageSeq ∧ i.epoch = s.mem.epoch) ∧
      (s.mem.replayed = true ∨ s.mem.vault = 2 → t.mem.image = s.mem.image)))

/-- From R260, R272 to R275, R277, R278, R281, R284 to R290 and R382: the vault, the Burnisher, injection and the lock. Where a line lies fixes what
it can hold (log entry 203). -/
def Obligations.TheVaultKeepsWhatWasHeld : Prop :=
  (∀ s : State, (s.mem.dumping = false → exec .vaultDone s = .next s) ∧
    (s.mem.dumping = true → ∃ t, exec .vaultDone s = .next t ∧ t.mem.dumping = false ∧ (∀ i, s.mem.image = some i → t.mem.replaying = true ∧
        t.mem.image = some { i with complete := true }) ∧ (s.mem.image = none → t.mem.replaying = false) ∧
      (s.pwr.therm ≠ 3 → t.pwr.phase = .warm ∧ t.pwr.resetCause = s.pwr.resetCause ||| 0x10 ∧ t.pwr.thermTrip = false) ∧
      (s.pwr.therm = 3 → t.pwr.phase = .thermal ∧ t.pwr.resetCause = s.pwr.resetCause ||| 0x20 ∧ t.pwr.thermTrip = true) ∧
      t.pwr.vaultDone = true ∧ t.tck.aliveOut = false ∧ t.tck.count = s.tck.count)) ∧
  (∀ (s : State) (ctl : Bool) (gone : List (Nat × Nat)), s.pwr.phase = .starting → s.mem.replaying = true → s.pwr.halted = false →
    (∀ i, s.mem.image = some i → i.complete = true → s.mem.replayed = false → ∃ t, exec (.vaultReplayDone ctl gone) s = .next t ∧
      t.cmd.versions = i.versions ∧ t.qre.quires = i.quires ∧ t.qre.ingest = i.ingest ∧ t.mem.map = i.map ∧ t.hiu.zones = i.zones ∧
      t.mem.image = some i ∧ t.mem.replayed = true ∧ t.mem.replaying = false ∧ t.mem.log = [] ∧ counter t 13 6 = counter s 13 6 + 1 ∧
      (∀ v ∈ i.versions, v.seq ≤ t.cmd.seq) ∧ t.cmd.lost = s.cmd.lost) ∧
    (∀ i, s.mem.image = some i → i.complete = false → ctl = true → ∃ t, exec (.vaultReplayDone ctl gone) s = .next t ∧
      (∀ v ∈ i.versions, (v.twin, v.seq) ∈ gone → ∀ k, k < v.nlb → (v.nsid, v.lba + k) ∈ t.cmd.lost) ∧
      (∀ v ∈ i.versions, v ∈ t.cmd.versions ∨ ∀ k, k < v.nlb → (v.nsid, v.lba + k) ∈ t.cmd.lost) ∧
      (∀ v ∈ i.versions, (∀ e ∈ commitPages i.versions, e.1 = v → ∀ f ∈ commitPages i.versions, (f.1.twin, f.1.seq) ∈ gone → e.2 < f.2) →
        v ∈ t.cmd.versions) ∧ t.mem.replaying = false ∧ t.mem.replayed = true) ∧
    ((s.mem.image = none ∨ ∃ i, s.mem.image = some i ∧ i.complete = false ∧ ctl = false) → ∃ t, exec (.vaultReplayDone ctl gone) s = .next t ∧
      t.mem.image = none ∧ t.mem.replayed = false ∧ t.mem.replaying = false ∧
      (∀ v ∈ s.mem.log, ∃ w ∈ t.cmd.versions, w.twin = v.twin ∧ w.seq = v.seq) ∧ (∀ v ∈ s.cmd.versions, v ∈ t.cmd.versions))) ∧
  (∀ s : State, s.pwr.phase ≠ .starting ∨ s.mem.replaying = false ∨ s.pwr.halted = true → ∀ c g, exec (.vaultReplayDone c g) s = .next s) ∧
  (∀ s : State, (s.mem.replayed = true → s.mem.dumping = false → dirtyBytes s + controlBytes s ≤ armedBytes s →
      exec .replayedImageErase s = .next { s with mem := { s.mem with image := none, replayed := false } }) ∧
    (s.mem.replayed = false ∨ s.mem.dumping = true ∨ armedBytes s < dirtyBytes s + controlBytes s → exec .replayedImageErase s = .next s)) ∧
  (∀ (s : State) (n : Dword), ∃ t, exec (.vaultEraseDone n) s = .next t ∧ t.mem.erased = s.mem.erased + n.toNat ∧ t.mem.image = s.mem.image ∧
    (∀ v ∈ s.mem.log, versionSealed s v.twin v.seq = false → v ∈ t.mem.log) ∧ OnlyIn [.mem] s t) ∧
  (∀ s : State, (∀ g, s.mem.group = some g → (g.born + 16 ≤ now s ∨ 4194304 ≤ g.bytes → exec .vaultGroupClose s =
        .next { s with mem := { s.mem with group := none, closing := s.mem.closing ++ [g] } }) ∧
      (now s < g.born + 16 → g.bytes < 4194304 → exec .vaultGroupClose s = .next s)) ∧
    (s.mem.group = none → exec .vaultGroupClose s = .next s) ∧ (s.mem.closing = [] → exec .vaultCommitDone s = .next s) ∧
    (∀ g rest, s.mem.closing = g :: rest → ∃ t, exec .vaultCommitDone s = .next t ∧ t.mem.closing = rest ∧ t.mem.imageSeq = s.mem.imageSeq + 1 ∧
      t.cmd.versions = s.cmd.versions.map (fun v => { v with vaulted := v.vaulted || g.seqs.contains (v.twin, v.seq) }) ∧
      (∀ v ∈ t.cmd.versions, (v.twin, v.seq) ∈ g.seqs → v ∈ t.mem.log ∧ v.vaulted = true) ∧ (∀ v ∈ s.mem.log, v ∈ t.mem.log) ∧
      OnlyIn [.cmd, .mem] s t)) ∧
  (∀ (s : State) (flips : List (BitVec 39)) (tp over_ : Bool) (k : LineKind), (burns s = false → exec (.burnisherLine flips tp k over_) s = .next s) ∧
    (burns s = true → let a := 64 * s.mem.burnLine
      let e := fun j => getD s.mem.dram 0 (a / 4 + j) ^^^ flips.getD j 0
      let d := fun j => decideSyndrome (syndrome (e j).toNat)
      ∃ t, exec (.burnisherLine flips tp k over_) s = .next t ∧
        (s.mem.burnLine + 1 < dramLines s + cacheLines → t.mem.burnLine = s.mem.burnLine + 1 ∧ t.mem.burnLaps = s.mem.burnLaps) ∧
        (dramLines s + cacheLines ≤ s.mem.burnLine + 1 → t.mem.burnLine = 0 ∧ t.mem.burnLaps = min 65535 (s.mem.burnLaps + 1)) ∧
        (s.mem.burnLine < dramLines s → (∀ j, j < 16 → d j = .clean) → t.mem.dram = s.mem.dram ∧ t.mem.poisoned = s.mem.poisoned ∧
          t.cnt = s.cnt ∧ t.cmd = s.cmd ∧ t.hiu = s.hiu) ∧
        (s.mem.burnLine < dramLines s → (∀ j, j < 16 → d j ≠ .uncorrectable) → over_ = false → s.mem.injArmed = false →
          (∃ j, j < 16 ∧ d j ≠ .clean) → (∀ j, j < 16 → (d j ≠ .clean → syndrome (getD t.mem.dram 0 (a / 4 + j)).toNat = 0)) ∧
          counter t 13 4 = counter s 13 4 + BitVec.ofNat 64 ((List.range 16).filter (fun j => d j != .clean)).length) ∧
        (s.mem.burnLine < dramLines s → (∃ j, j < 16 ∧ d j = .uncorrectable) → counter t 13 2 = counter s 13 2 + 1 ∧ t.mem.eccAddr = a ∧
          (lineHolds s a k = .other → a ∈ t.mem.poisoned) ∧ (lineHolds s a k = .folioMap → a ∉ t.mem.poisoned)) ∧
        (dramLines s ≤ s.mem.burnLine → t.mem.dram = s.mem.dram ∧ t.mem.poisoned = s.mem.poisoned ∧ t.cmd = s.cmd ∧ t.hiu = s.hiu))) ∧
  (∀ (s : State) (v : Word), (barSealed s = true → exec (.flipMaskArm v) s = .next s ∧ exec (.mapCacheLock v) s = .next s) ∧
    (barSealed s = false → s.mem.dumping = true ∨ s.mem.replaying = true → exec (.flipMaskArm v) s = .next s) ∧
    (barSealed s = false → s.mem.dumping = false → s.mem.replaying = false → ∃ t, exec (.flipMaskArm v) s = .next t ∧
      t.mem = { s.mem with injArmed := v.getLsbD 0, injLeft := if v.getLsbD 0 then max (v.toNat / 65536) 1 else 0 } ∧ OnlyIn [.regs, .mem] s t) ∧
    (barSealed s = false → 8 < v.toNat / 2 ^ 28 → exec (.mapCacheLock v) s = .next s) ∧
    (barSealed s = false → v.toNat / 2 ^ 28 ≤ 8 → ∃ t, exec (.mapCacheLock v) s = .next t ∧ t.mem.lockWays = v.toNat / 2 ^ 28 ∧
      (∀ e ∈ t.mem.cache, ∀ x ∈ e.2, (∃ f ∈ s.mem.cache, f.1 = e.1 ∧ x ∈ f.2) ∧
        ((16 - v.toNat / 2 ^ 28 ≤ x.1) ↔ (16 - s.mem.lockWays ≤ x.1))) ∧ t.mem.dram = s.mem.dram ∧ OnlyIn [.regs, .mem] s t))

/-- The Spine Link's loss and restoration, R300 whole: the two counts are of consecutive heartbeats, 16 missing lose it, a link that goes down is
lost at once, 256 present restore it. The lanes (R295), the alive line (R301) and what a loss does (R304) are said beside it. -/
def Obligations.SpineLinkIsLostAndRestored : Prop :=
  (∀ (s : State) (h : Heartbeat), h.sender.val ≠ s.tck.twinId → s.pwr.phase ≠ .porLow → s.spn.link ≠ 0 →
    (s.spn.link ≠ 2 ∨ (h.count.toNat : Int) = now s + s.tck.pairOffset → ∃ t, exec (.heartbeatReceive h) s = .next t ∧ t.spn.missing = 0 ∧
      t.spn.present = min (s.spn.present + 1) 256 ∧ t.spn.peer = some h ∧ t.spn.link = s.spn.link) ∧
    (s.spn.link = 2 → now s + s.tck.pairOffset < (h.count.toNat : Int) → exec (.heartbeatReceive h) s = .next s) ∧
    (s.spn.link = 2 → (h.count.toNat : Int) < now s + s.tck.pairOffset → ∃ t, exec (.heartbeatReceive h) s = .next t ∧
      t.spn.missing = s.spn.missing ∧ t.spn.present = s.spn.present ∧ t.spn.peer = s.spn.peer ∧ t.spn.link = s.spn.link ∧
      (h.cmds = [] → t = s))) ∧
  (∀ s : State, s.spn.link ≠ 0 → s.pwr.phase ≠ .porLow →
    ((∀ h, s.spn.peer = some h → (h.count.toNat : Int) ≠ now s + s.tck.pairOffset) → ∃ t, exec .heartbeatMissing s = .next t ∧
      t.spn.missing = min (s.spn.missing + 1) 65535 ∧ t.spn.present = 0 ∧ t.spn.link = s.spn.link ∧
      (∀ b, b < 8 → runs s b = true → (pairAt t b).peerReady = false ∧ (now s < (pairAt s b).handover → (pairAt t b).handover = 0))) ∧
    (∀ h, s.spn.peer = some h → (h.count.toNat : Int) = now s + s.tck.pairOffset → exec .heartbeatMissing s = .next s)) ∧
  (∀ s : State, s.spn.link = 2 →
    (s.spn.missing < 16 → exec (.spineLinkLost false) s = .next s) ∧
    (16 ≤ s.spn.missing → ∃ t, exec (.spineLinkLost false) s = .next t ∧ t.spn.link = 3 ∧ t.spn.paired = false ∧ t.spn.present = 0) ∧
    (∃ t, exec (.spineLinkLost true) s = .next t ∧ t.spn.link = 0 ∧ t.spn.paired = false ∧ t.spn.present = 0 ∧ counter t 4 1 = counter s 4 1 + 1 ∧
      (∀ b, b < 8 → (pairAt t b).peerReady = false ∧ (pairAt t b).handover = 0 ∧ (pairAt t b).resync = 0 ∧
        (shadows s b = true → (pairAt t b).withhold ≠ 0)) ∧
      (s.spn.peerAlive = true → anaOf t (2 - s.tck.twinId) = 3 ∧ 1 ≤ t.cmd.prot ∧ t.tck.master = s.tck.master) ∧
      (s.spn.peerAlive = false → anaOf t (2 - s.tck.twinId) = 1 ∧ t.spn.peerLost = true ∧ t.tck.master = true ∧ ∀ v ∈ t.cmd.versions, v.own = true))) ∧
  (∀ (s : State) (d : Bool), s.spn.link ≠ 2 → exec (.spineLinkLost d) s = .next s) ∧
  (∀ s : State, (s.spn.link = 3 → 256 ≤ s.spn.present → exec .spineLinkRestored s = .next { s with spn := { s.spn with link := 2, missing := 0 } }) ∧
    (s.spn.link = 3 → s.spn.present < 256 → exec .spineLinkRestored s = .next s) ∧
    (s.spn.link = 1 → ∃ t, exec .spineLinkRestored s = .next t ∧ t.spn.link = 2 ∧ t.spn.missing = 0 ∧ t.spn.lanes = 0xFF ∧ OnlyIn [.spn, .free] s t) ∧
    (s.spn.link = 0 ∨ s.spn.link = 2 → exec .spineLinkRestored s = .next s)) ∧
  (∀ (s : State) (lane : Fin 8), let rest := s.spn.lanes &&& ~~~((1 : Byte) <<< lane.val)
    (s.spn.lanes.getLsbD lane = false → exec (.spineLaneDrop lane) s = .next s) ∧
    (s.spn.lanes.getLsbD lane = true → ∃ t, exec (.spineLaneDrop lane) s = .next t ∧ t.spn.lanes = rest ∧ counter t 4 10 = counter s 4 10 + 1 ∧
      (rest ≠ 0 → t.spn = { s.spn with lanes := rest } ∧ OnlyIn [.spn, .cnt, .bdy] s t) ∧ (rest = 0 → t.spn.link = 0)) ∧
    (∃ t, exec (.spineLaneRestore lane) s = .next t ∧ t.spn.lanes.getLsbD lane = true ∧
      (∀ k, k < 8 → k ≠ lane.val → t.spn.lanes.getLsbD k = s.spn.lanes.getLsbD k) ∧
      t.spn.link = (if s.spn.link = 0 ∧ s.pwr.phase ≠ .porLow then 3 else s.spn.link) ∧ OnlyIn [.spn] s t)) ∧
  (∀ s : State, (s.spn.aliveQuiet < 2 ∨ s.spn.peerAlive = false → exec .aliveInDead s = .next s) ∧
    (2 ≤ s.spn.aliveQuiet → s.spn.peerAlive = true →
      (s.spn.link = 1 ∨ s.spn.link = 2 → ∃ t, exec .aliveInDead s = .next t ∧ t.spn = { s.spn with peerAlive := false } ∧
        OnlyIn [.spn, .cnt, .bdy] s t) ∧
      (s.spn.link = 0 ∨ s.spn.link = 3 → ∃ t, exec .aliveInDead s = .next t ∧ t.spn.peerAlive = false ∧ t.spn.peerLost = true ∧
        t.tck.master = true ∧ 1 ≤ t.cmd.prot ∧ t.hiu.ana = s.hiu.ana)) ∧
    (256 ≤ s.spn.aliveEdges → s.spn.peerAlive = false →
      exec .aliveInLive s = .next { s with spn := { s.spn with peerAlive := true, peerLost := false } }) ∧
    (s.spn.aliveEdges < 256 ∨ s.spn.peerAlive = true → exec .aliveInLive s = .next s))

/-- From R31, R46, R252, R260, R294, R303, R307 and R308: pairing and hand-back. -/
def Obligations.TwinsPairAndHandBack : Prop :=
  (∀ (s : State) (id : Fin 2) (ser : BitVec 128) (dig : BitVec 384) (single : Bool),
    (s.spn.link ≠ 2 ∨ s.spn.paired = true ∨ s.spn.pairing = true ∨ alive s = false ∨ s.mem.replaying = true → exec (.pairing id ser dig single) s = .next s) ∧
    (s.spn.link = 2 → s.spn.paired = false → s.spn.pairing = false → alive s = true → s.mem.replaying = false →
      (id.val = s.tck.twinId ∨ ser ≠ s.bdy.serial → ∃ t, exec (.pairing id ser dig single) s = .next t ∧ t.spn.paired = false ∧
        t.spn.pairing = false ∧ 1 ≤ t.cmd.prot ∧ t.tck = s.tck ∧ t.bdy.staged.length = s.bdy.staged.length + 1) ∧
      (id.val ≠ s.tck.twinId → ser = s.bdy.serial → ∃ t, exec (.pairing id ser dig single) s = .next t ∧
        t.tck = { s.tck with master := if beyond s then true else if single then false else s.tck.twinId == 0 } ∧
        ((s.bnd.active.map (fun b => b.digest)).getD 0 = dig → (∃ v ∈ s.cmd.versions, v.own = true) → t.spn.paired = false ∧ t.spn.pairing = true ∧
          t.spn.exchange = (s.cmd.versions.filter (fun v => v.own)).map (fun v => v.seq) ∧
          (∀ v ∈ s.cmd.versions, v.own = true → ∃ p ∈ t.out, ∃ n l bs, p.msg = .mirrorData v.seq n l bs)) ∧
        ((s.bnd.active.map (fun b => b.digest)).getD 0 = dig → (∀ v ∈ s.cmd.versions, v.own = false) → t.spn.paired = true ∧ t.spn.pairing = false ∧
          t.cmd.prot = (if s.mem.vaultKind = 2 ∧ s.spn.peer.any (fun h => !h.vaultOk) = true then 2 else 0) ∧ anaOf t (s.tck.twinId + 1) = 1 ∧
          (s.tck.twinId < 2 → anaOf t (2 - s.tck.twinId) = 2) ∧
          (∀ b, b < 8 → shadows s b = true → (pairAt t b).withhold ≠ 0)) ∧
        ((s.bnd.active.map (fun b => b.digest)).getD 0 ≠ dig → t.spn.paired = false ∧ t.spn.pairing = true ∧
          (t.tck.master = true → ∃ p ∈ t.out, p.msg = .mgmt (.stageContainer s.bnd.actBytes)) ∧
          (t.tck.master = false → t.spn.awaitBinding = true))))) ∧
  (∀ (s : State) (bytes : Bytes), let held := ∀ b, b < 8 → runs s b = true → (bayAt s b).mode = 5
    (s.spn.awaitBinding = false ∨ s.spn.link ≠ 2 ∨ ¬ held → exec (.pairingBindingCheck bytes) s = .next s) ∧
    (s.spn.awaitBinding = true → s.spn.link = 2 → held → ∃ t, exec (.pairingBindingCheck bytes) s = .next t ∧ t.spn.awaitBinding = false ∧
      t.bnd.lastResult = (loadChecks s bytes true true).code ∧ t.bnd.detCode = (loadChecks s bytes true true).code ∧
      ((loadChecks s bytes true true).code = 0 → t.bnd.active = some (parse bytes) ∧ t.bnd.source = 3 ∧
        ((∀ v ∈ s.cmd.versions, v.own = false) → t.spn.paired = true) ∧ ((∃ v ∈ s.cmd.versions, v.own = true) → t.spn.pairing = true)) ∧
      ((loadChecks s bytes true true).code ≠ 0 → t.spn.paired = s.spn.paired ∧ t.spn.pairing = false ∧ t.bnd.active = s.bnd.active ∧ 1 ≤ t.cmd.prot))) ∧
  (∀ (s : State) (mask : Byte), (barSealed s = true → exec (.handBackRequest mask) s = .next s) ∧
    (barSealed s = false → ∃ t, exec (.handBackRequest mask) s = .next t ∧ OnlyIn [.spn] s t ∧ ∀ b, b < 8 →
      pairAt t b = (if mask.getLsbD b ∧ runs s b = true ∧ (ownRec s b).owner ≠ s.tck.twinId
        then { pairAt s b with returnReq := true, returnAt := now s } else pairAt s b))) ∧
  (∀ (s : State) (b : Fin 8), let p := pairAt s b
    (mayReturn s b = false ∨ p.handover ≠ 0 → exec (.handBackStart b) s = .next s) ∧
    (mayReturn s b = true → p.handover = 0 → ∃ t, exec (.handBackStart b) s = .next t ∧ (pairAt t b).returning = true ∧
      (∀ act, grantable t (2 * b) act = false ∧ grantable t (2 * b + 1) act = false) ∧
      ((bayAt s b).grants ≠ [] → (pairAt t b).handover = 0) ∧
      ((bayAt s b).grants = [] → now s + 8 ≤ (pairAt t b).handover ∧ (pairAt t b).returnAt + 256 ≤ (pairAt t b).handover ∧
        ((pairAt t b).handover = now s + 8 ∨ (pairAt t b).handover = (pairAt t b).returnAt + 256)) ∧
      (∀ n, n ≠ b.val → pairAt t n = pairAt s n) ∧ OnlyIn [.spn] s t) ∧
    (mayReturn s b = true → runs s b = true ∧ (ownRec s b).owner ≠ s.tck.twinId ∧ s.spn.paired = true ∧ s.spn.link = 2 ∧ p.peerReady = true ∧
      handing s b = false) ∧
    (p.handover = 0 ∨ now s < p.handover ∨ (portAt s b).landed = none → exec (.handoverStitch b) s = .next s) ∧
    (p.handover ≠ 0 → p.handover ≤ now s → (portAt s b).landed ≠ none → ∃ t, exec (.handoverStitch b) s = .next t ∧
      (pairAt t b).handover = 0 ∧ counter t 4 4 = counter s 4 4 + 1 ∧ (runs s b = true → (pairAt t b).returning = false) ∧
      (runs s b = false → pairAt t b = { p with handover := 0 }) ∧ (∀ n, n ≠ b.val → pairAt t n = pairAt s n)))

/-- From R49, R140, R294 and R302: resynchronisation. -/
def Obligations.ShadowsResynchronise : Prop :=
  (∀ (s : State) (mask : Byte), (barSealed s = true → exec (.resync mask) s = .next s) ∧
    (barSealed s = false → ∃ t, exec (.resync mask) s = .next t ∧ OnlyIn [.spn] s t ∧ ∀ b, b < 8 → let p := pairAt s b
      (mask.getLsbD b = false → pairAt t b = p) ∧
      (mask.getLsbD b = true → runs s b = true → p.resync = 0 →
        pairAt t b = { p with resync := 1, k := now s + 4, kKnown := true, askedAt := now s + 4 }) ∧
      (mask.getLsbD b = true → runs s b = true → p.resync ≠ 0 → pairAt t b = p) ∧
      (mask.getLsbD b = true → shadows s b = true → (pairAt t b).withhold = (if p.withhold = 0 then 10 else p.withhold) ∧ (pairAt t b).hits = 0 ∧
        (2 ≤ p.resync → (pairAt t b).resync = 0) ∧
        (p.resync < 2 → pairAt t b = { p with withhold := if p.withhold = 0 then 10 else p.withhold, hits := 0 })))) ∧
  (∀ (s : State) (b : Fin 8), let p := pairAt s b
    (runs s b = false ∨ p.resync ≠ 1 ∨ now s ≠ p.k + 1 → exec (.resyncCapture b) s = .next s) ∧
    (runs s b = true → p.resync = 1 → now s = p.k + 1 → ∃ t, exec (.resyncCapture b) s = .next t ∧ pairAt t b = { p with resync := 0 } ∧
      (s.spn.link = 2 → t.out = s.out ++ [{ cls := 0, msg := .state b (captureBay s b) }]) ∧ counter t 4 5 = counter s 4 5 + 1 ∧ OnlyIn [.spn, .out, .cnt] s t) ∧
    (runs s b = false ∨ p.askedAt = 0 ∨ p.peerReady = true ∨ now s < p.askedAt + 64 → exec (.resyncTimeout b) s = .next s) ∧
    (runs s b = true → p.askedAt ≠ 0 → p.peerReady = false → p.askedAt + 64 ≤ now s → ∃ t, exec (.resyncTimeout b) s = .next t ∧
      pairAt t b = { p with resync := 1, k := now s + 4, kKnown := true, askedAt := now s + 4 } ∧ counter t 4 6 = counter s 4 6 + 1 ∧
      OnlyIn [.spn, .cnt] s t)) ∧
  (∀ (s : State) (b : Fin 8) (i : StateImage), let p := pairAt s b
    (shadows s b = false ∨ p.resync ≠ 2 ∨ p.kKnown = false → exec (.statePacketReceive b i) s = .next s) ∧
    (shadows s b = true → p.resync = 2 → p.kKnown = true → ∃ t, exec (.statePacketReceive b i) s = .next t ∧
      (pairAt t b).resync = 3 ∧ (pairAt t b).ring = [] ∧ (pairAt t b).cmdRing = [] ∧ (pairAt t b).hits = 0 ∧ now t = now s ∧
      portAt t b = portAt s b ∧
      (p.ring = [] → p.cmdRing = [] → unitAt t b = { i.unit with queue := i.unit.queue.map (fun q => { q with effect := ownStitch s q.effect }) } ∧
        (∀ n x, i.axes = [(n, x)] → n ∈ bayAxes b → axisAt t n =
          { x with queue := x.queue.map (fun q => { q with effect := ownStitch s q.effect }) })))) ∧
  (∀ (s : State) (b : Fin 8) (k : Dword), (shadows s b = false → exec (.overrunPacketReceive b k) s = .next s) ∧
    (shadows s b = true → ∃ t, exec (.overrunPacketReceive b k) s = .next t ∧ (bayAt t b).overrun = true ∧
      (pairAt t b).withhold = (if (pairAt s b).withhold = 0 then 4 else (pairAt s b).withhold) ∧ (pairAt t b).hits = 0 ∧
      (∀ n, n ≠ b.val → bayAt t n = bayAt s n ∧ pairAt t n = pairAt s n) ∧ OnlyIn [.bays, .spn] s t))

/-- The Spine Link's data (R215, R219, R221, R241, R246, R253, R287, R296, R297, R339). -/
def Obligations.PacketsCarryThePairsData : Prop :=
  (∀ (s : State) (w : Fin 2) (seq lba : Dword) (nsid : Word) (bs : List Bytes) (u : Bool), s.spn.link = 2 → w.val ≠ s.tck.twinId → ∃ t v,
    exec (.mirrorDataReceive w seq nsid lba bs u) s = .next t ∧ v ∈ t.cmd.versions ∧ v.own = false ∧ v.seq = seq.toNat ∧ v.nsid = nsid.toNat ∧
      v.lba = lba.toNat ∧ v.nlb = bs.length ∧ v.twin = w.val ∧ v.classU = u ∧ (∀ x ∈ s.cmd.versions, x.own = true → x ∈ t.cmd.versions) ∧
      (let n := ((s.qre.ingest.filter (fun i => i.twin == w.val && i.version == seq.toNat)).map (·.blocks)).sum
       t.out.map (fun p => p.msg) = s.out.map (fun p => p.msg) ++ (if bs.length ≤ n then [.mirrorAck seq.toNat] else []))) ∧
  (∀ (s : State) (w : Fin 2) (seq lba : Dword) (nsid : Word) (bs : List Bytes) (u : Bool), s.spn.link = 2 → w.val = s.tck.twinId → ∃ t,
    exec (.mirrorDataReceive w seq nsid lba bs u) s = .next t ∧ t.cmd.versions.length = s.cmd.versions.length ∧
      (∀ v ∈ t.cmd.versions, v.own = true → v.seq = seq.toNat → v.blocks.length = bs.length) ∧
      (∀ v ∈ s.cmd.versions, v.own = false ∨ v.seq ≠ seq.toNat → v ∈ t.cmd.versions) ∧ OnlyIn [.cmd, .mem] s t) ∧
  (∀ (s : State) (seq blocks : Nat) (nsid : Word) (fua : Bool) (w : Fin 2) (lba : Dword), s.spn.link = 2 → w.val ≠ s.tck.twinId → ∃ t i,
    exec (.journalRecordReceive (.ingest seq nsid blocks fua w lba)) s = .next t ∧ i ∈ t.qre.ingest ∧ i.seq = seq ∧ i.twin = w.val ∧
      i.nsid = nsid.toNat ∧ i.blocks = blocks ∧ i.lba = lba.toNat ∧ t.cmd = s.cmd ∧
      (2 ≤ nsid.toNat → lba.toNat % 1048576 + blocks ≤ (zoneAt t nsid.toNat (lba.toNat / 1048576)).wp)) ∧
  (∀ (s : State) (m : Fin 16) (layer frame gen : Nat), s.spn.link = 2 →
    (runs s (m.val / 2) = true → exec (.journalRecordReceive (.pointer m layer frame gen)) s = .next s) ∧
    (runs s (m.val / 2) = false → ∃ t, exec (.journalRecordReceive (.pointer m layer frame gen)) s = .next t ∧ (surfAt t m).gen = gen ∧
      (catalogueFrame layer frame = false → (surfAt t m).layer = layer ∧ (surfAt t m).frame = frame) ∧
      (∀ n, n ≠ m.val → surfAt t n = surfAt s n))) ∧
  (∀ (s : State) (seq : Dword), ∃ t, exec (.mirrorAckReceive seq) s = .next t ∧
    t.cmd.versions = s.cmd.versions.map (fun v => { v with mirrored := v.mirrored || (v.own && v.seq == seq.toNat) }) ∧
    (s.spn.pairing = false → OnlyIn [.cmd, .spn] s t ∧ t.spn.paired = s.spn.paired) ∧
    (s.spn.pairing = true → s.spn.awaitBinding = false → (∀ n ∈ s.spn.exchange, n = seq.toNat) → t.spn.paired = true) ∧
    (s.spn.pairing = true → (∃ n ∈ s.spn.exchange, n ≠ seq.toNat) → t.spn.paired = s.spn.paired ∧ t.spn.pairing = true)) ∧
  (∀ (s : State) (f : Forwarded), s.spn.link = 2 →
    (cmdAt s f.ref = none → f.ref.peer = true → f.blocks = [] → ∃ t x, exec (.forwardedCommandReceive f) s = .next t ∧ cmdAt t f.ref = some x ∧
      x.sqe = f.sqe ∧ x.st = .fetched ∧ x.classU = f.classU ∧ t.hiu.cmds = s.hiu.cmds ++ [x] ∧ OnlyIn [.hiu] s t) ∧
    (∀ c, cmdAt s f.ref = some c → f.ref.peer = true → c.st = .admitted → f.blocks ≠ [] → f.blocks.length = c.nlb → ∃ t x,
      exec (.forwardedCommandReceive f) s = .next t ∧ cmdAt t f.ref = some x ∧ x.st = .data ∧ encrypted x = true ∧ x.pis.length = c.nlb) ∧
    (∀ c, cmdAt s f.ref = some c → f.ref.peer = false → c.remote = true → exec (.forwardedCommandReceive f) s =
      .next (setCmd s { c with lba := f.sqe.slba.toNat, peerDone := true }))) ∧
  (∀ (s : State) (r : CmdRef) (st : Status) (dw : Dword) (data : Bytes) (c : Cmd), cmdAt s r = some c → c.sqe.kind ≠ .flush →
    (c.remote = true ∨ c.sqe.kind = .admin → exec (.forwardedCompletionReceive r st dw data) s = .next (complete s r st dw data)) ∧
    (c.remote = false → c.sqe.kind ≠ .admin → exec (.forwardedCompletionReceive r st dw data) s = .next s)) ∧
  (∀ (s : State) (q : Nat) (leaf m : Fin 16),
    (runs s (m.val / 2) = false ∨ writable s m = false → exec (.peerLeafRequest q leaf m) s = .next (send s (.leafVerdict q leaf false false))) ∧
    (∀ x, quireAt s q = some x → x.kind = 3 → catalogueRoom s m = false →
      exec (.peerLeafRequest q leaf m) s = .next (send s (.leafVerdict q leaf false false))) ∧
    (runs s (m.val / 2) = true → writable s m = true → s.spn.link = 2 → (∀ x, quireAt s q = some x → x.kind ≠ 3) → ∃ t,
      exec (.peerLeafRequest q leaf m) s = .next t ∧ (surfAt t m).gen = (surfAt s m).gen + 68 ∧
      (∃ p ∈ t.out, p.msg = .leafReply q leaf (surfAt s m).layer (surfAt s m).frame (surfAt s m).gen) ∧
      ((surfAt t m).layer, (surfAt t m).frame) = nextFrame (surfAt s m).layer (surfAt s m).frame ∧
      (∀ n, n ≠ m.val → surfAt t n = surfAt s n) ∧ OnlyIn [.qre, .out] s t)) ∧
  (∀ (s : State) (x : Quire) (leaf layer : Fin 16) (frame gen : Nat) (counted : Bool), quireAt s x.number = some x →
    let l := x.leaves.getD leaf {}
    (x.twin ≠ s.tck.twinId ∨ x.st ≠ 1 ∨ l.peer = false → exec (.peerLeafReply x.number leaf layer frame gen) s = .next s ∧
      ∀ v, exec (.peerLeafVerdict x.number leaf v counted) s = .next s) ∧
    (x.twin = s.tck.twinId → x.st = 1 → l.peer = true → leaf.val < x.leaves.length →
      (l.st = 0 → ∃ t y, exec (.peerLeafReply x.number leaf layer frame gen) s = .next t ∧ quireAt t x.number = some y ∧
        y.leaves.getD leaf {} = { l with layer := layer, frame := frame, gen := gen } ∧ (∀ k, k ≠ leaf.val → y.leaves.getD k {} = x.leaves.getD k {}) ∧
        OnlyIn [.qre, .out] s t) ∧
      (l.st < 2 → ∃ t y, exec (.peerLeafVerdict x.number leaf true counted) s = .next t ∧ quireAt t x.number = some y ∧
        (y.leaves.getD leaf {}).st = 2 ∧ (∀ k, k ≠ leaf.val → y.leaves.getD k {} = x.leaves.getD k {})))) ∧
  (∀ (s : State), s.spn.link = 2 →
    (∀ on, exec (.managementPacketReceive (.flushMedia on)) s = .next { s with hiu := { s.hiu with flushMedia := on } }) ∧
    (∃ t, exec (.managementPacketReceive .powerFail) s = .next t ∧ OnlyIn [.spn] s t ∧ ∀ b, b < 8 → shadows s b = true →
      (pairAt t b).withhold = (if (pairAt s b).withhold = 0 then 4 else (pairAt s b).withhold)) ∧
    (∀ nsid (n : NsCreate), ∃ t x, exec (.managementPacketReceive (.namespaceCreate nsid n)) s = .next t ∧ nsAt t nsid.toNat = some x ∧
      x.nsze = n.nsze ∧ x.csi = n.csi.toNat ∧ x.writeSlot = n.slot.val ∧ (slotAt t n.slot).nsid = nsid.toNat) ∧
    (∀ nsid : Word, nsid ≠ 0xFFFFFFFF → ∃ t, exec (.managementPacketReceive (.namespaceDelete nsid)) s = .next t ∧ nsAt t nsid.toNat = none ∧
      ∀ j, j ≠ nsid.toNat → nsAt t j = nsAt s j) ∧
    (∀ body (k : Dword), k ≠ 0 → transitionFormat body = true → transitionSigned s body = true → ∃ t,
      exec (.managementPacketReceive (.transition body k)) s = .next t ∧ t.kst.transition = some (field body 0 1, ownStitch s k.toNat)) ∧
    (∀ k : Dword, ∃ t, exec (.managementPacketReceive (.snapshotRequest k)) s = .next t ∧ OnlyIn [.tck] s t ∧ t.tck.snapTwin = s.tck.snapTwin ∧
      (s.tck.snapPair.state = 0 → t.tck.snapPair = { state := 1, due := ownStitch s k.toNat } ∧ t.tck.snapRefused = false) ∧
      (s.tck.snapPair.state ≠ 0 → t.tck.snapPair = s.tck.snapPair ∧ t.tck.snapRefused = true))) ∧
  (∀ s : State, s.spn.link ≠ 2 → (∀ m, exec (.managementPacketReceive m) s = .next s) ∧ (∀ r, exec (.journalRecordReceive r) s = .next s) ∧
    (∀ f, exec (.forwardedCommandReceive f) s = .next s) ∧ (∀ a b c d e u, exec (.mirrorDataReceive a b c d e u) s = .next s))

/-- From R121, R173, R174, R185, R310, R312, R315, R317 to R321, R324, R353 and R406: front ends and ports. -/
def Obligations.FrontEndsObeyOnePort : Prop :=
  (∀ (s : State) (b : Fin 8) (p0 p1 : Arrival) (off : Int), let x := bfeAt s b
    let mine := if x.obeys = 0 then p0 else p1
    let other := if x.obeys = 0 then p1 else p0
    ∃ t, exec (.bfeEdge b p0 p1 off) s = .next t ∧ (∀ n, n ≠ b.val → bfeAt t n = bfeAt s n) ∧ OnlyIn [.bfes] s t ∧
      (x.obeys ≠ 2 → (∀ f, mine = .command f true → f.bay ≠ b ∨ (x.exempt = false ∧ f.stitch.toNat ≠ x.count)) → (bfeAt t b).obeys = x.obeys ∧
        (bfeAt t b).misses = min (x.misses + 1) 64 ∧ (bfeAt t b).holding = true ∧ (bfeAt t b).count = x.count + 1 ∧
        (bfeAt t b).spin = x.spin ∧ (bfeAt t b).axis = x.axis ∧ (bfeAt t b).drivers = x.drivers ∧ (∀ e ∈ (bfeAt t b).beams, e.2.on = false) ∧
        (x.safeStop = false → (bfeAt t b).u = x.u)) ∧
      (∀ f, x.obeys ≠ 2 → mine = .command f true → f.bay = b → (x.exempt = true ∨ f.stitch.toNat = x.count) →
        let switched := f.handover = true ∧ f.hStitch.toNat = f.stitch.toNat + 1 ∧ ∃ k, other = .keep k true ∧ k.bay = b ∧ k.ready = true
        (bfeAt t b).misses = 0 ∧ (bfeAt t b).holding = false ∧ (bfeAt t b).count = f.stitch.toNat + 1 ∧ (bfeAt t b).spin = f.spin ∧
        (switched → (bfeAt t b).obeys = 1 - x.obeys ∧ (bfeAt t b).exempt = true) ∧ (¬ switched → (bfeAt t b).obeys = x.obeys ∧ (bfeAt t b).exempt = false) ∧
        (f.safeStop = false → x.ownStop = false → (bfeAt t b).safeStop = false ∧
          (∀ i, i < 8 → (bfeAt t b).u.getD i 0 = (f.u.getD i 0).toInt) ∧ (bfeAt t b).axis = f.axis ∧
          (∀ i, i < 4 → let d := getD x.drivers {} i
            let y := getD (bfeAt t b).drivers {} i
            let w := (f.axis.getD i 0).toNat
            (w / 8192 = 0 → y = d) ∧
            (w / 8192 = 1 → d.powered = true → y = { d with pos := d.pos + stepWay d.pos (w % 8192) } ∧ (y.pos - w) % 8192 = 0 ∧
              -4096 ≤ y.pos - d.pos ∧ y.pos - d.pos ≤ 4095) ∧
            (w / 8192 = 2 → d.powered = true → y.powered = false ∧ y.latched = some (d.pos % indexSpan i).toNat ∧ y.pos = d.pos) ∧
            (w / 8192 = 3 → y.powered = false ∧ y.latched = none) ∧
            (w / 8192 = 4 → d.powered = false → y.powered = true ∧ y.pos = ((d.latched.getD 0 : Nat) : Int) ∧ y.retained = d.latched.isSome))) ∧
        (f.safeStop = true → (bfeAt t b).safeStop = true ∧ (bfeAt t b).emitters = false)) ∧
      (x.obeys = 2 → (∀ f a, a ∈ [p0, p1] → a = .command f true → f.bay = b → f.claim = false) → (bfeAt t b).obeys = 2) ∧
      (∀ f g, x.obeys = 2 → p0 = .command f true → p1 = .command g true → f.bay = b → g.bay = b → f.claim = true → g.claim = true →
        (bfeAt t b).obeys = (if g.owner && !f.owner then 1 else 0) ∧ (bfeAt t b).reset = false ∧ (bfeAt t b).exempt = true)) ∧
  (∀ (s : State) (b : Fin 8) (a : Arrival), let x := bfeAt s b
    (x.obeys = 2 ∨ x.misses < x.hold → exec (.bfeHoldExpiry b a) s = .next s) ∧
    (x.obeys ≠ 2 → x.hold ≤ x.misses → ∃ t, exec (.bfeHoldExpiry b a) s = .next t ∧ OnlyIn [.bfes] s t ∧
      (∀ k, a = .keep k true → k.bay = b → k.ready = true → bfeAt t b = { x with obeys := 1 - x.obeys, misses := 0, exempt := true, readySeen := false }) ∧
      ((∀ k, a = .keep k true → k.bay ≠ b ∨ k.ready = false) → (bfeAt t b).obeys = 2 ∧ (bfeAt t b).safeStop = true ∧ (bfeAt t b).ownStop = true ∧
        (bfeAt t b).emitters = false ∧ (∀ w ∈ (bfeAt t b).axis, w = 0) ∧
        (x.safeStop = false → (bfeAt t b).u = [x.u.getD 0 0, 0, 0, 0, x.u.getD 4 0, 0, 0, 0]))) ∧
    (∃ t, exec (.bfeReset b) s = .next t ∧ (bfeAt t b).obeys = 2 ∧ (bfeAt t b).hold = 8 ∧ (bfeAt t b).reset = true ∧ (bfeAt t b).safeStop = false ∧
      (bfeAt t b).emitters = false ∧ (∀ n, n ≠ b.val → bfeAt t n = bfeAt s n) ∧ OnlyIn [.bfes] s t)) ∧
  (∀ (s : State) (b : Fin 8) (lat : Half) (lane : Fin 3), let p := portAt s b
    (150 < lat.toNat → exec (.headbandPortUp b lat) s = .next s) ∧
    (lat.toNat ≤ 150 → ∃ t, exec (.headbandPortUp b lat) s = .next t ∧ (portAt t b).up = true ∧ (portAt t b).lanes = 0x1F ∧
      (portAt t b).latNs = lat ∧ (portAt t b).ident = none ∧ (∀ n, n ≠ b.val → portAt t n = portAt s n) ∧ OnlyIn [.ports] s t) ∧
    (p.lanes.getLsbD lane = false → exec (.headbandLaneLoss b lane) s = .next s) ∧
    (p.lanes.getLsbD lane = true → ∃ t, exec (.headbandLaneLoss b lane) s = .next t ∧
      (∀ i, i < 5 → (portAt t b).lanes.getLsbD i = (p.lanes.getLsbD i && i != lane.val)) ∧ (lane = 0 → (portAt t b).up = false) ∧
      (let n := ((List.range 3).filter (fun i => (portAt t b).lanes.getLsbD i)).length
       ((List.range 16).filter (fun k => (portAt t b).spotEn.getLsbD k)).length ≤ (if n = 3 then 16 else 6 * n)) ∧
      (∀ k, k < 16 → (portAt t b).spotEn.getLsbD k = true → p.spotEn.getLsbD k = true) ∧ OnlyIn [.ports, .bdy] s t)) ∧
  (∀ (s : State) (b : Fin 8), let p := portAt s b
    (sliceIdent p = none → exec (.bfeIdentityAssembled b) s = .next s) ∧
    (∀ i, sliceIdent p = some i →
      (s.pwr.phase ≠ .running → exec (.bfeIdentityAssembled b) s = .next (setPort s b { p with ident := some i })) ∧
      (s.pwr.phase = .running → p.idRecorded = true → p.ident = some i → exec (.bfeIdentityAssembled b) s = .next s) ∧
      (s.pwr.phase = .running → p.idRecorded = false ∨ p.ident ≠ some i → ∃ t c, exec (.bfeIdentityAssembled b) s = .next t ∧
        portAt t b = { p with ident := some i, idRecorded := true } ∧ t.bdy.colophon.getLast? = some c ∧ c.reason = 5 ∧
        counter t 0 0 = counter s 0 0 + 1)))

/-- From R3 to R6, R24, R338, R339, R364 and R384: register access. That a Retired pair answers a domain request with 3 is log entry 206. -/
def Obligations.RegistersAreReadAndWritten : Prop :=
  (∀ (s : State) (off w : Nat), s.splitLatch = none → findReg off = none → (off < 4 ∨ w ≠ 4 ∨ findReg (off - 4) = none) →
    exec (.splitReadLatch off w) s = .next { s with hostRead := 0 }) ∧
  (∀ (s : State) (off w : Nat) (r : RegRow) (i : Nat), s.splitLatch = none → findReg off = some (r, i) → w ≠ r.bytes → w ≠ 4 →
    exec (.splitReadLatch off w) s = .next { s with hostRead := 0 }) ∧
  (∀ (s : State) (off : Nat) (r : RegRow) (i : Nat), s.splitLatch = none → findReg off = some (r, i) → r.wide = true → r.id ≠ .kstLcNonce →
    ∃ t, exec (.splitReadLatch off 4) s = .next t ∧ t.hostRead = BitVec.ofNat 64 (regView s r i % 2 ^ 32) ∧
      t.splitLatch = some (off + 4, BitVec.ofNat 32 (regView s r i / 2 ^ 32)) ∧
      (∀ u, u.splitLatch = t.splitLatch → exec (.splitReadLatch (off + 4) 4) u =
        .next { u with splitLatch := none, hostRead := BitVec.ofNat 64 (regView s r i / 2 ^ 32 % 2 ^ 32) }) ∧
      (∀ u off' w' v, u.splitLatch = t.splitLatch → off' ≠ off + 4 → off' ≠ off → exec (.splitReadLatch off' w') u = .next v →
        ∀ x, v.splitLatch ≠ some (off + 4, x))) ∧
  (∀ u : State, (∃ v, exec .lcNonceRead u = .next v ∧ v.splitLatch = none) ∧ (∃ v, exec .mailboxResponseRead u = .next v ∧ v.splitLatch = none)) ∧
  (∀ (c : Instr) (u v : State), Part.splitLatch ∉ c.reach → exec c u = .next v → v.splitLatch = u.splitLatch) ∧
  (∀ (s : State) (off w : Nat) (v : Dword),
    (findReg off = none → exec (.registerWrite off w v) s = .next s) ∧
    (∀ r i, findReg off = some (r, i) → w ≠ r.bytes → exec (.registerWrite off w v) s = .next s) ∧
    (barSealed s = true → mailboxOffset off = false → exec (.registerWrite off w v) s = .next s) ∧
    (∀ i r, findReg off = some (r, i) → r.id ∈ [RegId.hblCfg, .cmdBpCfg, .calInterval, .pwrModeCfg, .pwrThermCfg] → barSealed s = false → w = r.bytes →
      let x := v.toNat % 2 ^ (8 * r.bytes) &&& r.rw
      ∃ t, exec (.registerWrite off w v) s = .next t ∧ OnlyIn [.regs] s t ∧
        (inRange r.id x = true → tightest r.id i (reg s r.id i) x = x → look t.regs (regOffset r.id i) = some (BitVec.ofNat 64 x) ∧
          ∀ k, k ≠ regOffset r.id i → look t.regs k = look s.regs k) ∧
        (inRange r.id x = false ∨ tightest r.id i (reg s r.id i) x ≠ x → t = s))) ∧
  (∀ (s : State) (tag off : Word) (v : Dword) (w : Byte),
    (inHand s 6 tag (natLe 4 off.toNat ++ natLe 8 v.toNat ++ [w]) = false → exec (.domainRequest tag off v w) s = .next s) ∧
    (inHand s 6 tag (natLe 4 off.toNat ++ natLe 8 v.toNat ++ [w]) = true →
      (lifeRetired s = true ∨ requestRefused off.toNat = true → ∃ t, exec (.domainRequest tag off v w) s = .next t ∧ field (mailResponse t) 2 2 = 3 ∧ OnlyIn [.bdy] s t) ∧
      (lifeRetired s = false → requestRefused off.toNat = false → ∃ t, exec (.domainRequest tag off v w) s = .next t ∧ t.bdy.mboxReady = true ∧ t.bdy.mboxBusy = false ∧
        field (mailResponse t) 2 2 = 0 ∧ t.regs = (writeBar s .domain off.toNat w.toNat v.toNat).regs)))

/-- R240 whole: fetching stops at admission of the deletion, which completes with the last command fetched from the queue; entries never fetched
leave nothing; a completion queue in use stays. -/
def Obligations.QueueDeletionWaitsForItsCommands : Prop :=
  (∀ (s : State) (r : CmdRef) (q : Fin 65536) (x : Sq), q ≠ 0 → sqAt s r.ctrl q = some x → x.deleting = none → sortedT s.hiu.sqs = true →
    (∀ e ∈ s.hiu.sqs, e.2.deleting = none) → r.peer = false → r.sqid = 0 →
    let mine (d : Cmd) := d.ref.peer = false ∧ d.ref.ctrl = r.ctrl ∧ d.ref.sqid = q
    ((∃ d ∈ s.hiu.cmds, mine d) → ∃ t, exec (.deleteIoSq r q) s = .next t ∧ sqAt t r.ctrl q = some { x with deleting := some r } ∧
        t.hiu.cmds = s.hiu.cmds ∧ t.hiu.comps = s.hiu.comps ∧ t.hiu.held = s.hiu.held ∧ t.hiu.cqs = s.hiu.cqs ∧
        (∀ es, exec (.commandFetch r.ctrl q es) t = .next t) ∧
        (∀ c : Comp, (∃ d ∈ s.hiu.cmds, mine d ∧ d.ref ≠ c.ref) → c.ref ≠ r → c.ref.peer = false →
          sqAt (post t c) r.ctrl q = some { x with deleting := some r } ∧
          (post t c).hiu.comps ++ (post t c).hiu.held = t.hiu.comps ++ (if mustWait t c then [] else [c]) ++ t.hiu.held ++ (if mustWait t c then [c] else [])) ∧
        (∀ c : Comp, (∀ d ∈ s.hiu.cmds, mine d → d.ref = c.ref) → c.ref ≠ r → c.ref.peer = false →
          sqAt (post t c) r.ctrl q = none ∧ (∀ d ∈ (post t c).hiu.cmds, d.ref ≠ r) ∧
          ((post t c).hiu.comps ++ (post t c).hiu.held).Perm
            (t.hiu.comps ++ t.hiu.held ++ [c, { ref := r, status := .success }]))) ∧
    ((∀ d ∈ s.hiu.cmds, ¬ mine d) → ∃ t, exec (.deleteIoSq r q) s = .next t ∧ sqAt t r.ctrl q = none ∧
      (t.hiu.comps ++ t.hiu.held).Perm (s.hiu.comps ++ s.hiu.held ++ [{ ref := r, status := .success }]))) ∧
  (∀ (s : State) (r : CmdRef) (q : Fin 65536), q ≠ 0 → cqAt s r.ctrl q ≠ none →
    (∀ k x, k < 65536 → sqAt s r.ctrl k = some x → x.cqid = q.val → exec (.deleteIoCq r q) s = .next (complete s r .invalidQueueDeletion) ∧
      cqAt (complete s r .invalidQueueDeletion) r.ctrl q ≠ none) ∧
    ((∀ e ∈ s.hiu.sqs, e.1 / 65536 = r.ctrl.val → e.2.cqid ≠ q.val) → ∃ u, exec (.deleteIoCq r q) s = .next (complete u r .success) ∧
      cqAt u r.ctrl q = none))
end

