-- ==== Sys2Proof/Laws/Follows.lean ====
section
/-! SUPPORT. What every operation keeps, by composition: Follows is reflexive, is kept by an update that leaves the sorted stores, the queue
and the ingest sequence alone, and passes through folds. -/

namespace Sys2Proof.Machine

variable {T : Part → Bool}

/-- Follows through an optional state. -/
def FollowsOpt (T : Part → Bool) (s : State) (o : Option State) : Prop := ∀ t, o = some t → Follows T s t
/-- Follows through the first of a pair. -/
def FollowsFst {α : Type} (T : Part → Bool) (s : State) (p : State × α) : Prop := Follows T s p.1
/-- Follows through the first of an optional pair. -/
def FollowsOptFst {α : Type} (T : Part → Bool) (s : State) (o : Option (State × α)) : Prop := ∀ p, o = some p → Follows T s p.1
/-- Follows through a result that may be a refusal status. -/
def FollowsExc {ε : Type} (T : Part → Bool) (s : State) (o : Except ε State) : Prop := ∀ t, o = .ok t → Follows T s t

/-- The parts of a smaller list are named too. -/
theorem sub {A B : List Part} (h : ∀ p ∈ A, T p = true) (hB : B.all A.contains = true) : ∀ p ∈ B, T p = true := by
  intro p hp
  have := List.all_eq_true.1 hB p hp
  exact h p (by simpa using this)

/-- A part that is not named stands outside the list. -/
theorem outside_of {A : List Part} (h : ∀ p ∈ A, T p = true) {p : Part} (hp : T p = false) : A.contains p = false := by
  cases hc : A.contains p with
  | false => rfl
  | true => rw [h p (by simpa using hc)] at hp; exact Bool.noConfusion hp

/-- A part left as it was. -/
theorem same {a : Bool} {α : Type} {x : α} : a = true ∨ x = x := .inr rfl

theorem part_same_refl (s : State) (p : Part) : p.same s s := by cases p <;> rfl

theorem part_same_trans {a b c : State} {p : Part} (h : p.same a b) (g : p.same b c) : p.same a c := by
  cases p <;> exact g.trans h

theorem follows_refl (s : State) : Follows T s s :=
  ⟨rfl, id, id, fun _ => .inr ⟨rfl, Nat.le_refl _⟩, fun p _ => part_same_refl s p⟩

theorem follows_trans {a b c : State} (h : Follows T a b) (g : Follows T b c) : Follows T a c :=
  ⟨g.queue.trans h.queue, fun x => g.canonical (h.canonical x), fun x => g.reserved (h.reserved x),
   fun x => by
     rcases h.rising x with h1 | ⟨h1, h2⟩ <;> rcases g.rising (h.reserved x) with g1 | ⟨g1, g2⟩
     · exact .inl (Nat.lt_trans h1 g1)
     · exact .inl (g1 ▸ h1)
     · exact .inl (h1 ▸ g1)
     · exact .inr ⟨h1.trans g1, Nat.le_trans h2 g2⟩,
   fun p hp => part_same_trans (h.frame p hp) (g.frame p hp)⟩

/-- A state written out from `s`: its stores and its ingest sequence as they were, each other part as it was or named. -/
theorem follows_mk {s0 s : State} {free' : Nat} {regs' : Tbl Dword} {splitLatch' : Option (Nat × Word)} {hostRead' : Dword} {cnt' :
    Counters} {tck' : Tck} {pwr' : Pwr} {bays' : Tbl Bay} {ports' : Tbl Port} {bfes' : Tbl Bfe} {spn' : Spn} {out' : List Packet} {cells' :
    Tbl Cell} {units' : Tbl Unit} {bus' : Bus} {axes' : Tbl Axis} {rdc' : Rdc} {wrc' : Wrc} {cal' : Cal} {qre' : Qre} {hiu' : Hiu} {cmd' :
    CmdBlk} {mem' : Mem} {kst' : Kst} {cph' : Cph} {bdy' : Bdy} {bnd' : Bnd} (h : Follows T s0 s) (e2 : regs' = s.regs) (e3 : cnt' = s.cnt)
    (e4 : mem'.dram = s.mem.dram) (e5 : bdy'.mboxReq = s.bdy.mboxReq) (e6 : bdy'.mboxRsp = s.bdy.mboxRsp) (e7 : kst'.importWin =
    s.kst.importWin) (e8 : bnd'.stageWin = s.bnd.stageWin) (e9 : cph'.seq = s.cph.seq) (e10 : cph'.seqEnd = s.cph.seqEnd) (e11 : cph'.norEnd =
    s.cph.norEnd) (e12 : mem'.epoch = s.mem.epoch) (h_free : T .free = true ∨ free' = s.free) (h_regs : T .regs = true ∨ regs' = s.regs)
    (h_splitLatch : T .splitLatch = true ∨ splitLatch' = s.splitLatch) (h_hostRead : T .hostRead = true ∨ hostRead' = s.hostRead) (h_cnt : T
    .cnt = true ∨ cnt' = s.cnt) (h_tck : T .tck = true ∨ tck' = s.tck) (h_pwr : T .pwr = true ∨ pwr' = s.pwr) (h_bays : T .bays = true ∨ bays'
    = s.bays) (h_ports : T .ports = true ∨ ports' = s.ports) (h_bfes : T .bfes = true ∨ bfes' = s.bfes) (h_spn : T .spn = true ∨ spn' = s.spn)
    (h_out : T .out = true ∨ out' = s.out) (h_cells : T .cells = true ∨ cells' = s.cells) (h_units : T .units = true ∨ units' = s.units)
    (h_bus : T .bus = true ∨ bus' = s.bus) (h_axes : T .axes = true ∨ axes' = s.axes) (h_rdc : T .rdc = true ∨ rdc' = s.rdc) (h_wrc : T .wrc =
    true ∨ wrc' = s.wrc) (h_cal : T .cal = true ∨ cal' = s.cal) (h_qre : T .qre = true ∨ qre' = s.qre) (h_hiu : T .hiu = true ∨ hiu' = s.hiu)
    (h_cmd : T .cmd = true ∨ cmd' = s.cmd) (h_mem : T .mem = true ∨ mem' = s.mem) (h_kst : T .kst = true ∨ kst' = s.kst) (h_cph : T .cph =
    true ∨ cph' = s.cph) (h_bdy : T .bdy = true ∨ bdy' = s.bdy) (h_bnd : T .bnd = true ∨ bnd' = s.bnd) : Follows T s0 (State.mk s.pending
    free' regs' splitLatch' hostRead' cnt' tck' pwr' bays' ports' bfes' spn' out' cells' units' bus' axes' rdc' wrc' cal' qre' hiu' cmd' mem'
    kst' cph' bdy' bnd') := by
  refine follows_trans h ⟨rfl, ?_, ?_, ?_, ?_⟩
  · unfold Canonical
    dsimp only
    rw [e2, e3, e4, e5, e6, e7, e8]
    exact id
  · unfold SequenceReserved
    dsimp only
    rw [e9, e10, e11]
    exact id
  · intro _
    exact .inr ⟨e12.symm, Nat.le_of_eq e9.symm⟩
  · intro p hp
    cases p
    · exact (h_free.resolve_left (by rw [hp]; exact Bool.noConfusion))
    · exact (h_regs.resolve_left (by rw [hp]; exact Bool.noConfusion))
    · exact (h_splitLatch.resolve_left (by rw [hp]; exact Bool.noConfusion))
    · exact (h_hostRead.resolve_left (by rw [hp]; exact Bool.noConfusion))
    · exact (h_cnt.resolve_left (by rw [hp]; exact Bool.noConfusion))
    · exact (h_tck.resolve_left (by rw [hp]; exact Bool.noConfusion))
    · exact (h_pwr.resolve_left (by rw [hp]; exact Bool.noConfusion))
    · exact (h_bays.resolve_left (by rw [hp]; exact Bool.noConfusion))
    · exact (h_ports.resolve_left (by rw [hp]; exact Bool.noConfusion))
    · exact (h_bfes.resolve_left (by rw [hp]; exact Bool.noConfusion))
    · exact (h_spn.resolve_left (by rw [hp]; exact Bool.noConfusion))
    · exact (h_out.resolve_left (by rw [hp]; exact Bool.noConfusion))
    · exact (h_cells.resolve_left (by rw [hp]; exact Bool.noConfusion))
    · exact (h_units.resolve_left (by rw [hp]; exact Bool.noConfusion))
    · exact (h_bus.resolve_left (by rw [hp]; exact Bool.noConfusion))
    · exact (h_axes.resolve_left (by rw [hp]; exact Bool.noConfusion))
    · exact (h_rdc.resolve_left (by rw [hp]; exact Bool.noConfusion))
    · exact (h_wrc.resolve_left (by rw [hp]; exact Bool.noConfusion))
    · exact (h_cal.resolve_left (by rw [hp]; exact Bool.noConfusion))
    · exact (h_qre.resolve_left (by rw [hp]; exact Bool.noConfusion))
    · exact (h_hiu.resolve_left (by rw [hp]; exact Bool.noConfusion))
    · exact (h_cmd.resolve_left (by rw [hp]; exact Bool.noConfusion))
    · exact (h_mem.resolve_left (by rw [hp]; exact Bool.noConfusion))
    · exact (h_kst.resolve_left (by rw [hp]; exact Bool.noConfusion))
    · exact (h_cph.resolve_left (by rw [hp]; exact Bool.noConfusion))
    · exact (h_bdy.resolve_left (by rw [hp]; exact Bool.noConfusion))
    · exact (h_bnd.resolve_left (by rw [hp]; exact Bool.noConfusion))

theorem upd_free {s0 s : State} {free' : Nat} (hT : T .free = true) (h : Follows T s0 s) : Follows T s0 { s with free := free' } :=
  follows_mk h rfl rfl rfl rfl rfl rfl rfl rfl rfl rfl rfl (.inl hT) same same same same same same same same same same same same same same
    same same same same same same same same same same same same

theorem upd_splitLatch {s0 s : State} {splitLatch' : Option (Nat × Word)} (hT : T .splitLatch = true) (h : Follows T s0 s) : Follows T s0
    { s with splitLatch := splitLatch' } :=
  follows_mk h rfl rfl rfl rfl rfl rfl rfl rfl rfl rfl rfl same same (.inl hT) same same same same same same same same same same same same
    same same same same same same same same same same same same

theorem upd_hostRead {s0 s : State} {hostRead' : Dword} (hT : T .hostRead = true) (h : Follows T s0 s) : Follows T s0 { s with hostRead :=
    hostRead' } :=
  follows_mk h rfl rfl rfl rfl rfl rfl rfl rfl rfl rfl rfl same same same (.inl hT) same same same same same same same same same same same
    same same same same same same same same same same same same

theorem upd_tck {s0 s : State} {tck' : Tck} (hT : T .tck = true) (h : Follows T s0 s) : Follows T s0 { s with tck := tck' } :=
  follows_mk h rfl rfl rfl rfl rfl rfl rfl rfl rfl rfl rfl same same same same same (.inl hT) same same same same same same same same same
    same same same same same same same same same same same same

theorem upd_pwr {s0 s : State} {pwr' : Pwr} (hT : T .pwr = true) (h : Follows T s0 s) : Follows T s0 { s with pwr := pwr' } :=
  follows_mk h rfl rfl rfl rfl rfl rfl rfl rfl rfl rfl rfl same same same same same same (.inl hT) same same same same same same same same
    same same same same same same same same same same same same

theorem upd_bays {s0 s : State} {bays' : Tbl Bay} (hT : T .bays = true) (h : Follows T s0 s) : Follows T s0 { s with bays := bays' } :=
  follows_mk h rfl rfl rfl rfl rfl rfl rfl rfl rfl rfl rfl same same same same same same same (.inl hT) same same same same same same same
    same same same same same same same same same same same same

theorem upd_ports {s0 s : State} {ports' : Tbl Port} (hT : T .ports = true) (h : Follows T s0 s) : Follows T s0 { s with ports := ports' }
    :=
  follows_mk h rfl rfl rfl rfl rfl rfl rfl rfl rfl rfl rfl same same same same same same same same (.inl hT) same same same same same same
    same same same same same same same same same same same same

theorem upd_bfes {s0 s : State} {bfes' : Tbl Bfe} (hT : T .bfes = true) (h : Follows T s0 s) : Follows T s0 { s with bfes := bfes' } :=
  follows_mk h rfl rfl rfl rfl rfl rfl rfl rfl rfl rfl rfl same same same same same same same same same (.inl hT) same same same same same
    same same same same same same same same same same same same

theorem upd_spn {s0 s : State} {spn' : Spn} (hT : T .spn = true) (h : Follows T s0 s) : Follows T s0 { s with spn := spn' } :=
  follows_mk h rfl rfl rfl rfl rfl rfl rfl rfl rfl rfl rfl same same same same same same same same same same (.inl hT) same same same same
    same same same same same same same same same same same same

theorem upd_out {s0 s : State} {out' : List Packet} (hT : T .out = true) (h : Follows T s0 s) : Follows T s0 { s with out := out' } :=
  follows_mk h rfl rfl rfl rfl rfl rfl rfl rfl rfl rfl rfl same same same same same same same same same same same (.inl hT) same same same
    same same same same same same same same same same same same

theorem upd_cells {s0 s : State} {cells' : Tbl Cell} (hT : T .cells = true) (h : Follows T s0 s) : Follows T s0 { s with cells := cells' }
    :=
  follows_mk h rfl rfl rfl rfl rfl rfl rfl rfl rfl rfl rfl same same same same same same same same same same same same (.inl hT) same same
    same same same same same same same same same same same same

theorem upd_units {s0 s : State} {units' : Tbl Unit} (hT : T .units = true) (h : Follows T s0 s) : Follows T s0 { s with units := units' }
    :=
  follows_mk h rfl rfl rfl rfl rfl rfl rfl rfl rfl rfl rfl same same same same same same same same same same same same same (.inl hT) same
    same same same same same same same same same same same same

theorem upd_bus {s0 s : State} {bus' : Bus} (hT : T .bus = true) (h : Follows T s0 s) : Follows T s0 { s with bus := bus' } :=
  follows_mk h rfl rfl rfl rfl rfl rfl rfl rfl rfl rfl rfl same same same same same same same same same same same same same same (.inl hT)
    same same same same same same same same same same same same

theorem upd_axes {s0 s : State} {axes' : Tbl Axis} (hT : T .axes = true) (h : Follows T s0 s) : Follows T s0 { s with axes := axes' } :=
  follows_mk h rfl rfl rfl rfl rfl rfl rfl rfl rfl rfl rfl same same same same same same same same same same same same same same same
    (.inl hT) same same same same same same same same same same same

theorem upd_rdc {s0 s : State} {rdc' : Rdc} (hT : T .rdc = true) (h : Follows T s0 s) : Follows T s0 { s with rdc := rdc' } :=
  follows_mk h rfl rfl rfl rfl rfl rfl rfl rfl rfl rfl rfl same same same same same same same same same same same same same same same same
    (.inl hT) same same same same same same same same same same

theorem upd_wrc {s0 s : State} {wrc' : Wrc} (hT : T .wrc = true) (h : Follows T s0 s) : Follows T s0 { s with wrc := wrc' } :=
  follows_mk h rfl rfl rfl rfl rfl rfl rfl rfl rfl rfl rfl same same same same same same same same same same same same same same same same
    same (.inl hT) same same same same same same same same same

theorem upd_cal {s0 s : State} {cal' : Cal} (hT : T .cal = true) (h : Follows T s0 s) : Follows T s0 { s with cal := cal' } :=
  follows_mk h rfl rfl rfl rfl rfl rfl rfl rfl rfl rfl rfl same same same same same same same same same same same same same same same same
    same same (.inl hT) same same same same same same same same

theorem upd_qre {s0 s : State} {qre' : Qre} (hT : T .qre = true) (h : Follows T s0 s) : Follows T s0 { s with qre := qre' } :=
  follows_mk h rfl rfl rfl rfl rfl rfl rfl rfl rfl rfl rfl same same same same same same same same same same same same same same same same
    same same same (.inl hT) same same same same same same same

theorem upd_hiu {s0 s : State} {hiu' : Hiu} (hT : T .hiu = true) (h : Follows T s0 s) : Follows T s0 { s with hiu := hiu' } :=
  follows_mk h rfl rfl rfl rfl rfl rfl rfl rfl rfl rfl rfl same same same same same same same same same same same same same same same same
    same same same same (.inl hT) same same same same same same

theorem upd_cmd {s0 s : State} {cmd' : CmdBlk} (hT : T .cmd = true) (h : Follows T s0 s) : Follows T s0 { s with cmd := cmd' } :=
  follows_mk h rfl rfl rfl rfl rfl rfl rfl rfl rfl rfl rfl same same same same same same same same same same same same same same same same
    same same same same same (.inl hT) same same same same same

theorem upd_mem {s0 s : State} {mem' : Mem} (hT : T .mem = true) (e0 : mem'.dram = s.mem.dram) (e1 : mem'.epoch = s.mem.epoch) (h :
    Follows T s0 s) : Follows T s0 { s with mem := mem' } :=
  follows_mk h rfl rfl e0 rfl rfl rfl rfl rfl rfl rfl e1 same same same same same same same same same same same same same same same same
    same same same same same same (.inl hT) same same same same

theorem upd_kst {s0 s : State} {kst' : Kst} (hT : T .kst = true) (e0 : kst'.importWin = s.kst.importWin) (h : Follows T s0 s) : Follows T
    s0 { s with kst := kst' } :=
  follows_mk h rfl rfl rfl rfl rfl e0 rfl rfl rfl rfl rfl same same same same same same same same same same same same same same same same
    same same same same same same same (.inl hT) same same same

theorem upd_cph {s0 s : State} {cph' : Cph} (hT : T .cph = true) (e0 : cph'.seq = s.cph.seq) (e1 : cph'.seqEnd = s.cph.seqEnd) (e2 :
    cph'.norEnd = s.cph.norEnd) (h : Follows T s0 s) : Follows T s0 { s with cph := cph' } :=
  follows_mk h rfl rfl rfl rfl rfl rfl rfl e0 e1 e2 rfl same same same same same same same same same same same same same same same same
    same same same same same same same same (.inl hT) same same

theorem upd_bdy {s0 s : State} {bdy' : Bdy} (hT : T .bdy = true) (e0 : bdy'.mboxReq = s.bdy.mboxReq) (e1 : bdy'.mboxRsp = s.bdy.mboxRsp)
    (h : Follows T s0 s) : Follows T s0 { s with bdy := bdy' } :=
  follows_mk h rfl rfl rfl e0 e1 rfl rfl rfl rfl rfl rfl same same same same same same same same same same same same same same same same
    same same same same same same same same same (.inl hT) same

theorem upd_bnd {s0 s : State} {bnd' : Bnd} (hT : T .bnd = true) (e0 : bnd'.stageWin = s.bnd.stageWin) (h : Follows T s0 s) : Follows T s0
    { s with bnd := bnd' } :=
  follows_mk h rfl rfl rfl rfl rfl rfl e0 rfl rfl rfl rfl same same same same same same same same same same same same same same same same
    same same same same same same same same same same (.inl hT)

/-- The stores change, the ingest sequence does not. -/
theorem follows_stores {s0 s t : State} (h : Follows T s0 s) (e1 : t.pending = s.pending) (hc : Canonical s → Canonical t)
    (e9 : t.cph = s.cph) (e12 : t.mem.epoch = s.mem.epoch) (hf : ∀ p, T p = false → p.same s t) : Follows T s0 t := by
  refine follows_trans h ⟨e1, hc, ?_, ?_, hf⟩
  · unfold SequenceReserved; rw [e9]; exact id
  · intro _; unfold SequenceRises; rw [e9, e12]; exact .inr ⟨rfl, Nat.le_refl _⟩

/-- The frame of an update of one part. -/
theorem frame_one {s t : State} {q : Part} (hT : T q = true) (h : ∀ p, p ≠ q → p.same s t) : ∀ p, T p = false → p.same s t := by
  intro p hp
  refine h p ?_
  rintro rfl
  rw [hT] at hp
  exact Bool.noConfusion hp

theorem same_regs {s : State} {x : Tbl Dword} (p : Part) (h : p ≠ .regs) : p.same s { s with regs := x } := by
  cases p <;> first | rfl | exact absurd rfl h

theorem same_cnt {s : State} {x : Counters} (p : Part) (h : p ≠ .cnt) : p.same s { s with cnt := x } := by
  cases p <;> first | rfl | exact absurd rfl h

theorem same_mem {s : State} {x : Mem} (p : Part) (h : p ≠ .mem) : p.same s { s with mem := x } := by
  cases p <;> first | rfl | exact absurd rfl h

theorem same_bdy {s : State} {x : Bdy} (p : Part) (h : p ≠ .bdy) : p.same s { s with bdy := x } := by
  cases p <;> first | rfl | exact absurd rfl h

theorem same_kst {s : State} {x : Kst} (p : Part) (h : p ≠ .kst) : p.same s { s with kst := x } := by
  cases p <;> first | rfl | exact absurd rfl h

theorem same_cph {s : State} {x : Cph} (p : Part) (h : p ≠ .cph) : p.same s { s with cph := x } := by
  cases p <;> first | rfl | exact absurd rfl h

theorem same_bnd {s : State} {x : Bnd} (p : Part) (h : p ≠ .bnd) : p.same s { s with bnd := x } := by
  cases p <;> first | rfl | exact absurd rfl h

theorem follows_getD {s t : State} {o : Option State} (h : FollowsOpt T s o) (ht : Follows T s t) : Follows T s (o.getD t) := by
  cases o with
  | none => exact ht
  | some u => exact h u rfl

theorem follows_foldl {α : Type} {s0 s : State} {l : List α} {f : State → α → State} (h : Follows T s0 s)
    (hf : ∀ u a, Follows T s0 u → Follows T s0 (f u a)) : Follows T s0 (l.foldl f s) := by
  induction l generalizing s with
  | nil => exact h
  | cons a l ih => exact ih (hf s a h)

theorem follows_forEach {s0 s : State} {l : List Nat} {f : State → Nat → State} (h : Follows T s0 s)
    (hf : ∀ u a, Follows T s0 u → Follows T s0 (f u a)) : Follows T s0 (forEach l f s) := follows_foldl h hf

theorem follows_fst {α : Type} {s0 : State} {p : State × α} (h : FollowsFst T s0 p) : Follows T s0 p.1 := h

theorem follows_pair {α : Type} {s0 s : State} {a : α} (h : Follows T s0 s) : FollowsFst T s0 (s, a) := h

theorem follows_some {s0 s : State} (h : Follows T s0 s) : FollowsOpt T s0 (some s) := by
  intro t ht
  cases ht
  exact h

theorem follows_none' {s0 : State} : FollowsOpt T s0 none := by
  intro t ht
  cases ht

theorem follows_someFst {α : Type} {s0 : State} {p : State × α} (h : FollowsFst T s0 p) : FollowsOptFst T s0 (some p) := by
  intro t ht
  cases ht
  exact h

theorem follows_noneFst {α : Type} {s0 : State} : FollowsOptFst (α := α) T s0 none := by
  intro t ht
  cases ht

theorem follows_ok {ε : Type} {s0 s : State} (h : Follows T s0 s) : FollowsExc (ε := ε) T s0 (.ok s) := by
  intro t ht
  cases ht
  exact h

theorem follows_error {ε : Type} {s0 : State} {e : ε} : FollowsExc T s0 (.error e : Except ε State) := by
  intro t ht
  cases ht

theorem follows_ite {s0 a b : State} {p : Prop} [Decidable p] (h : Follows T s0 a) (g : Follows T s0 b) : Follows T s0 (if p then a else b) := by
  split
  · exact h
  · exact g

/-- The import window changes, nothing else of the stores. -/
theorem follows_window {s0 s : State} {k : Kst} (hT : T .kst = true) (h : Follows T s0 s) (hw : wfT 0 k.importWin = true) :
    Follows T s0 { s with kst := k } := by
  refine follows_stores h rfl ?_ rfl rfl (frame_one hT same_kst)
  rintro ⟨h1, h2, h3, h4, h5, h6, h7⟩
  exact ⟨h1, h2, h3, h4, h5, hw, h7⟩

theorem follows_optFst {α : Type} {s0 t : State} {a : α} {o : Option (State × α)} (h : FollowsOptFst T s0 o) (e : o = some (t, a)) :
    Follows T s0 t := h _ e

/-- What follows with only listed parts named differs in them alone. -/
theorem onlyIn_of_follows {parts : List Part} {s t : State} (h : Follows (fun p => parts.contains p) s t) : OnlyIn parts s t :=
  ⟨h.queue, fun p hp => h.frame p (by simpa using hp)⟩

/-! ### Sorted tables -/

variable {α : Type}

/-- The first key of a table lies above `a`. -/
def Above (a : Nat) (t : Tbl α) : Prop := ∀ e ∈ t, a < e.1

theorem sortedT_cons {a : Nat} {x : α} {t : Tbl α} : sortedT ((a, x) :: t) = true ↔ Above a t ∧ sortedT t = true := by
  induction t generalizing a x with
  | nil => simp [sortedT, Above]
  | cons e t ih =>
    obtain ⟨b, y⟩ := e
    simp only [sortedT, Bool.and_eq_true, decide_eq_true_eq, ih (a := b) (x := y)]
    constructor
    · rintro ⟨h, g, k⟩
      refine ⟨?_, g, k⟩
      intro e he
      rcases List.mem_cons.1 he with rfl | he
      · exact h
      · exact Nat.lt_trans h (g e he)
    · rintro ⟨h, g, k⟩
      exact ⟨h _ (List.mem_cons_self ..), g, k⟩

theorem above_ins {a k : Nat} {v : α} {t : Tbl α} (h : Above a t) (hk : a < k) : Above a (ins t k v) := by
  induction t with
  | nil => simpa [ins, Above] using hk
  | cons e t ih =>
    obtain ⟨b, y⟩ := e
    have hb : a < b := h (b, y) (List.mem_cons_self ..)
    have ht : Above a t := fun e he => h e (List.mem_cons_of_mem _ he)
    simp only [ins]
    split
    · intro e he
      rcases List.mem_cons.1 he with rfl | he
      · exact hk
      · exact h e he
    · split
      · intro e he
        rcases List.mem_cons.1 he with rfl | he
        · exact hk
        · exact ht e he
      · intro e he
        rcases List.mem_cons.1 he with rfl | he
        · exact hb
        · exact ih ht e he

theorem sortedT_ins {k : Nat} {v : α} {t : Tbl α} (h : sortedT t = true) : sortedT (ins t k v) = true := by
  induction t with
  | nil => simp [ins, sortedT]
  | cons e t ih =>
    obtain ⟨b, y⟩ := e
    have hs := h
    rw [sortedT_cons] at hs
    simp only [ins]
    split
    · rename_i hk
      rw [sortedT_cons]
      refine ⟨?_, h⟩
      intro e he
      rcases List.mem_cons.1 he with rfl | he
      · exact hk
      · exact Nat.lt_trans hk (hs.1 e he)
    · split
      · rename_i hk
        rw [sortedT_cons]
        exact ⟨hk ▸ hs.1, hs.2⟩
      · rw [sortedT_cons]
        exact ⟨above_ins hs.1 (by omega), ih hs.2⟩

theorem sortedT_filter {t : Tbl α} {p : Nat × α → Bool} (h : sortedT t = true) : sortedT (t.filter p) = true := by
  induction t with
  | nil => rfl
  | cons e t ih =>
    obtain ⟨b, y⟩ := e
    rw [sortedT_cons] at h
    simp only [List.filter]
    split
    · rw [sortedT_cons]
      exact ⟨fun e he => h.1 e (List.mem_filter.1 he).1, ih h.2⟩
    · exact ih h.2

theorem all_ins {k : Nat} {v : α} {t : Tbl α} {p : Nat × α → Bool} (h : t.all p = true) (hv : p (k, v) = true) :
    (ins t k v).all p = true := by
  induction t with
  | nil => simpa [ins] using hv
  | cons e t ih =>
    obtain ⟨b, y⟩ := e
    simp only [List.all_cons, Bool.and_eq_true] at h
    simp only [ins]
    split
    · simp [hv, h.1, h.2]
    · split
      · simp [hv, h.2]
      · simp [h.1, ih h.2]

theorem wfT_filter [DecidableEq α] {d : α} {t : Tbl α} {p : Nat × α → Bool} (h : wfT d t = true) : wfT d (t.filter p) = true := by
  simp only [wfT, Bool.and_eq_true, List.all_eq_true] at *
  exact ⟨sortedT_filter h.1, fun e he => h.2 e (List.mem_filter.1 he).1⟩

theorem wfT_put [DecidableEq α] {d v : α} {k : Nat} {t : Tbl α} (h : wfT d t = true) : wfT d (put t d k v) = true := by
  unfold put
  split
  · exact wfT_filter h
  · rename_i hv
    simp only [wfT, Bool.and_eq_true] at *
    exact ⟨sortedT_ins h.1, all_ins h.2 (by simpa using hv)⟩

theorem wfT_winWrite {w : List Host.Cell} {a : Nat} {bs : Bytes} (h : wfT 0 w = true) : wfT 0 (winWrite w a bs) = true := by
  induction bs generalizing w a with
  | nil => exact h
  | cons b bs ih => exact ih (wfT_put h)

theorem wfT_foldl_put [DecidableEq α] {β : Type} {d : α} {l : List β} {t : Tbl α} {k : β → Nat} {v : β → α} (h : wfT d t = true) :
    wfT d (l.foldl (fun t b => put t d (k b) (v b)) t) = true := by
  induction l generalizing t with
  | nil => exact h
  | cons b l ih => exact ih (wfT_put h)

end Sys2Proof.Machine
end

