-- ==== Sys2Proof/Laws/FollowsRegFile.lean ====
section
/-! SUPPORT. What the operations of Machine/RegFile.lean keep: the queue, the canonical form of the sorted stores, the ingest sequence. -/

namespace Sys2Proof.Machine

theorem follows_setReg {T : Part → Bool} {s0 s : State} {a1 : RegId} {a2 : Nat} {a3 : Nat} (hT : ∀ p ∈ ([.regs] : List Part), T p = true) (h : Follows T s0 s) : Follows T s0 (setReg s a1 a2 a3) := by
  refine follows_stores h rfl ?_ rfl rfl (frame_one (hT _ (by decide)) same_regs)
  rintro ⟨h1, h2⟩
  exact ⟨sortedT_ins h1, h2⟩


end Sys2Proof.Machine
end

