-- ==== Sys2Proof/Laws/FollowsOps.lean ====
section
/-! SUPPORT. What the operations of Machine/Ops.lean keep: the queue, the canonical form of the sorted stores, the ingest sequence. -/

namespace Sys2Proof.Machine

theorem follows_bump {T : Part → Bool} {s0 s : State} {a1 : Nat} {a2 : Nat} (hT : ∀ p ∈ ([.cnt] : List Part), T p = true) (h : Follows T s0 s) : Follows T s0 (bump s a1 a2) := by
  refine follows_stores h rfl ?_ rfl rfl (frame_one (hT _ (by decide)) same_cnt)
  rintro ⟨h1, h2, h3⟩
  exact ⟨h1, wfT_put h2, h3⟩


theorem follows_setBay {T : Part → Bool} {s0 s : State} {a1 : Nat} {a2 : Bay} (hT : ∀ p ∈ ([.bays] : List Part), T p = true) (h : Follows T s0 s) : Follows T s0 (setBay s a1 a2) := by
  unfold setBay
  refine upd_bays (hT _ (by decide)) ?_
  assumption


theorem follows_setOpu {T : Part → Bool} {s0 s : State} {a1 : Nat} {a2 : OpuW} (hT : ∀ p ∈ ([.wrc] : List Part), T p = true) (h : Follows T s0 s) : Follows T s0 (setOpu s a1 a2) := by
  unfold setOpu
  refine upd_wrc (hT _ (by decide)) ?_
  assumption


theorem follows_setPort {T : Part → Bool} {s0 s : State} {a1 : Nat} {a2 : Port} (hT : ∀ p ∈ ([.ports] : List Part), T p = true) (h : Follows T s0 s) : Follows T s0 (setPort s a1 a2) := by
  unfold setPort
  refine upd_ports (hT _ (by decide)) ?_
  assumption


theorem follows_setChan {T : Part → Bool} {s0 s : State} {a1 : Nat} {a2 : Chan} (hT : ∀ p ∈ ([.rdc] : List Part), T p = true) (h : Follows T s0 s) : Follows T s0 (setChan s a1 a2) := by
  unfold setChan
  refine upd_rdc (hT _ (by decide)) ?_
  assumption


theorem follows_bumpN {T : Part → Bool} {s0 s : State} {a1 : Nat} {a2 : Nat} {a3 : Nat} (hT : ∀ p ∈ ([.cnt] : List Part), T p = true) (h : Follows T s0 s) : Follows T s0 (bumpN s a1 a2 a3) := by
  refine follows_stores h rfl ?_ rfl rfl (frame_one (hT _ (by decide)) same_cnt)
  rintro ⟨h1, h2, h3⟩
  exact ⟨h1, wfT_put h2, h3⟩


theorem follows_event {T : Part → Bool} {s0 s : State} {a1 : Nat} {a2 : Nat} {a3 : Nat} {a4 : Nat} {a5 : Nat} {a6 : List Nat} (hT : ∀ p ∈ ([.bdy] : List Part), T p = true) (h : Follows T s0 s) : Follows T s0 (event s a1 a2 a3 a4 a5 a6) := by
  unfold event
  try extract_lets (merge := false) (underBinder := false) +onlyGivenNames e1
  try clear_value e1
  refine upd_bdy (hT _ (by decide)) rfl rfl ?_
  assumption


theorem follows_countEvent {T : Part → Bool} {s0 s : State} {a1 : Nat} {a2 : Nat} {a3 : Nat} {a4 : Nat} {a5 : Nat} {a6 : List Nat} (hT : ∀ p ∈ ([.cnt, .bdy] : List Part), T p = true) (h : Follows T s0 s) : Follows T s0 (countEvent s a1 a2 a3 a4 a5 a6) := by
  unfold countEvent
  refine follows_event (sub hT (by decide)) ?_
  refine follows_bump (sub hT (by decide)) ?_
  assumption


theorem follows_send {T : Part → Bool} {s0 s : State} {a1 : SpineMsg} (hT : ∀ p ∈ ([.out] : List Part), T p = true) (h : Follows T s0 s) : Follows T s0 (send s a1) := by
  unfold send
  split
  · refine upd_out (hT _ (by decide)) ?_
    assumption
  · assumption


theorem follows_setAxis {T : Part → Bool} {s0 s : State} {a1 : Nat} {a2 : Axis} (hT : ∀ p ∈ ([.axes] : List Part), T p = true) (h : Follows T s0 s) : Follows T s0 (setAxis s a1 a2) := by
  unfold setAxis
  refine upd_axes (hT _ (by decide)) ?_
  assumption


theorem follows_setCell {T : Part → Bool} {s0 s : State} {a1 : Nat} {a2 : Cell} (hT : ∀ p ∈ ([.cells] : List Part), T p = true) (h : Follows T s0 s) : Follows T s0 (setCell s a1 a2) := by
  unfold setCell
  refine upd_cells (hT _ (by decide)) ?_
  assumption


theorem follows_setUnit {T : Part → Bool} {s0 s : State} {a1 : Nat} {a2 : Unit} (hT : ∀ p ∈ ([.units] : List Part), T p = true) (h : Follows T s0 s) : Follows T s0 (setUnit s a1 a2) := by
  unfold setUnit
  refine upd_units (hT _ (by decide)) ?_
  assumption


theorem follows_setCtrl {T : Part → Bool} {s0 s : State} {a1 : Nat} {a2 : Ctrl} (hT : ∀ p ∈ ([.hiu] : List Part), T p = true) (h : Follows T s0 s) : Follows T s0 (setCtrl s a1 a2) := by
  unfold setCtrl
  refine upd_hiu (hT _ (by decide)) ?_
  assumption


theorem follows_interrupt {T : Part → Bool} {s0 s : State} {a1 : Nat} {a2 : Nat} (hT : ∀ p ∈ ([.hiu] : List Part), T p = true) (h : Follows T s0 s) : Follows T s0 (interrupt s a1 a2) := by
  unfold interrupt
  try extract_lets (merge := false) (underBinder := false) +onlyGivenNames c1
  try clear_value c1
  split
  · refine follows_setCtrl (sub hT (by decide)) ?_
    assumption
  · refine upd_hiu (hT _ (by decide)) ?_
    assumption


theorem follows_writeEntry {T : Part → Bool} {s0 s : State} {a1 : Comp} (hT : ∀ p ∈ ([.hiu] : List Part), T p = true) (h : Follows T s0 s) : Follows T s0 (writeEntry s a1) := by
  unfold writeEntry
  extract_lets (merge := false) (underBinder := false) +onlyGivenNames j1_0 s'1
  have hs'1 : Follows T s0 s'1 := by
    unfold s'1
    refine upd_hiu (hT _ (by decide)) ?_
    assumption
  clear_value s'1
  split
  · assumption
  · extract_lets (merge := false) (underBinder := false) +onlyGivenNames j2_0 s'2
    have hs'2 : Follows T s0 s'2 := by
      unfold s'2
      refine upd_hiu (hT _ (by decide)) ?_
      assumption
    clear_value s'2
    split
    · refine follows_interrupt (sub hT (by decide)) ?_
      assumption
    · assumption


theorem follows_emit {T : Part → Bool} {s0 s : State} {a1 : Comp} (hT : ∀ p ∈ ([.out, .hiu] : List Part), T p = true) (h : Follows T s0 s) : Follows T s0 (emit s a1) := by
  unfold emit
  split
  · refine follows_send (sub hT (by decide)) ?_
    assumption
  · split
    · refine upd_hiu (hT _ (by decide)) ?_
      assumption
    · refine follows_writeEntry (sub hT (by decide)) ?_
      assumption


theorem follows_finishDeletes {T : Part → Bool} {s0 s : State} (hT : ∀ p ∈ ([.out, .hiu] : List Part), T p = true) (h : Follows T s0 s) : Follows T s0 (finishDeletes s) := by
  unfold finishDeletes
  refine follows_foldl ?_ ?_
  · assumption
  · intro u1 a1 hu1
    split
    · split
      · assumption
      · refine follows_emit (sub hT (by decide)) ?_
        refine upd_hiu (hT _ (by decide)) ?_
        assumption
    · assumption


theorem follows_post {T : Part → Bool} {s0 s : State} {a1 : Comp} (hT : ∀ p ∈ ([.out, .hiu] : List Part), T p = true) (h : Follows T s0 s) : Follows T s0 (post s a1) := by
  unfold post
  extract_lets (merge := false) (underBinder := false) +onlyGivenNames s1
  have hs1 : Follows T s0 s1 := by
    unfold s1
    refine follows_emit (sub hT (by decide)) ?_
    assumption
  clear_value s1
  refine follows_finishDeletes (sub hT (by decide)) ?_
  refine upd_hiu (hT _ (by decide)) ?_
  assumption


theorem follows_deliver {T : Part → Bool} {s0 s : State} {a1 : Nat} (hT : ∀ p ∈ ([.out, .hiu] : List Part), T p = true) (h : Follows T s0 s) : Follows T s0 (deliver s a1) := by
  unfold deliver
  try extract_lets (merge := false) (underBinder := false) +onlyGivenNames c1
  try clear_value c1
  split
  · extract_lets (merge := false) (underBinder := false) +onlyGivenNames s2
    have hs2 : Follows T s0 s2 := by
      unfold s2
      refine follows_setCtrl (sub hT (by decide)) ?_
      assumption
    clear_value s2
    refine follows_post (sub hT (by decide)) ?_
    assumption
  · assumption


theorem follows_asyncEvent {T : Part → Bool} {s0 s : State} {a1 : Nat} {a2 : Nat} {a3 : Nat} (hT : ∀ p ∈ ([.out, .hiu] : List Part), T p = true) (h : Follows T s0 s) : Follows T s0 (asyncEvent s a1 a2 a3) := by
  unfold asyncEvent
  refine follows_foldl ?_ ?_
  · assumption
  · intro u2 a2 hu2
    try extract_lets (merge := false) (underBinder := false) +onlyGivenNames c1
    try clear_value c1
    refine follows_deliver (sub hT (by decide)) ?_
    refine follows_setCtrl (sub hT (by decide)) ?_
    assumption


theorem follows_vendorEvent {T : Part → Bool} {s0 s : State} {a1 : Nat} (hT : ∀ p ∈ ([.out, .hiu] : List Part), T p = true) (h : Follows T s0 s) : Follows T s0 (vendorEvent s a1) := by
  unfold vendorEvent
  refine follows_asyncEvent (sub hT (by decide)) ?_
  assumption


theorem follows_complete {T : Part → Bool} {s0 s : State} {a1 : CmdRef} {a2 : Status} {a3 : Dword} {a4 : Bytes} (hT : ∀ p ∈ ([.out, .hiu] : List Part), T p = true) (h : Follows T s0 s) : Follows T s0 (complete s a1 a2 a3 a4) := by
  unfold complete
  refine follows_post (sub hT (by decide)) ?_
  assumption


theorem follows_drawn {T : Part → Bool} {s0 s : State} (hT : ∀ p ∈ ([.free] : List Part), T p = true) (h : Follows T s0 s) : Follows T s0 (drawn s) := by
  unfold drawn
  refine upd_free (hT _ (by decide)) ?_
  assumption


theorem follows_setPair {T : Part → Bool} {s0 s : State} {a1 : Nat} {a2 : PairBay} (hT : ∀ p ∈ ([.spn] : List Part), T p = true) (h : Follows T s0 s) : Follows T s0 (setPair s a1 a2) := by
  unfold setPair
  refine upd_spn (hT _ (by decide)) ?_
  assumption


theorem follows_setBfe {T : Part → Bool} {s0 s : State} {a1 : Nat} {a2 : Bfe} (hT : ∀ p ∈ ([.bfes] : List Part), T p = true) (h : Follows T s0 s) : Follows T s0 (setBfe s a1 a2) := by
  unfold setBfe
  refine upd_bfes (hT _ (by decide)) ?_
  assumption


theorem follows_clearCounters {T : Part → Bool} {s0 s : State} {a1 : Nat} (hT : ∀ p ∈ ([.cnt] : List Part), T p = true) (h : Follows T s0 s) : Follows T s0 (clearCounters s a1) := by
  refine follows_stores h rfl ?_ rfl rfl (frame_one (hT _ (by decide)) same_cnt)
  rintro ⟨h1, h2, h3⟩
  exact ⟨h1, wfT_filter h2, h3⟩


theorem follows_setAna {T : Part → Bool} {s0 s : State} {a1 : Nat} {a2 : Nat} (hT : ∀ p ∈ ([.out, .hiu] : List Part), T p = true) (h : Follows T s0 s) : Follows T s0 (setAna s a1 a2) := by
  unfold setAna
  split
  · assumption
  · refine follows_asyncEvent (sub hT (by decide)) ?_
    refine upd_hiu (hT _ (by decide)) ?_
    assumption


theorem follows_serveLink {T : Part → Bool} {s0 s : State} (hT : ∀ p ∈ ([.spn, .out] : List Part), T p = true) (h : Follows T s0 s) : Follows T s0 (serveLink s) := by
  unfold serveLink
  try extract_lets (merge := false) (underBinder := false) +onlyGivenNames r1
  try clear_value r1
  refine follows_mk ?_ rfl rfl rfl rfl rfl rfl rfl rfl rfl rfl rfl same same same same same same same same same same (.inl (hT _ (by decide))) (.inl (hT _ (by decide))) same same same same same same same same same same same same same same same
  assumption


end Sys2Proof.Machine
end

