-- ==== Sys2Proof/Laws/FollowsCipher.lean ====
section
/-! SUPPORT. What the operations of Machine/Cipher.lean keep: the queue, the canonical form of the sorted stores, the ingest sequence. -/

namespace Sys2Proof.Machine

theorem follows_takeSeq {T : Part → Bool} {s0 s : State} {a1 : Nat} (hT : ∀ p ∈ ([.cph] : List Part), T p = true) (h : Follows T s0 s) : FollowsFst T s0 (takeSeq s a1) := by
  refine follows_trans h ⟨rfl, id, ?_, ?_, frame_one (hT _ (by decide)) same_cph⟩
  · rintro ⟨h1, h2⟩
    simp only [takeSeq, SequenceReserved]
    split <;> constructor <;> omega
  · rintro ⟨h1, h2⟩
    exact .inr ⟨rfl, Nat.le_add_right _ _⟩


theorem follows_setSlot {T : Part → Bool} {s0 s : State} {a1 : Nat} {a2 : KeySlot} (hT : ∀ p ∈ ([.kst] : List Part), T p = true) (h : Follows T s0 s) : Follows T s0 (setSlot s a1 a2) := by
  unfold setSlot
  refine upd_kst (hT _ (by decide)) rfl ?_
  assumption


end Sys2Proof.Machine
end

