-- ==== Sys2Proof/Laws/FollowsDram.lean ====
section
/-! SUPPORT. What the operations of Machine/Dram.lean keep: the queue, the canonical form of the sorted stores, the ingest sequence. -/

namespace Sys2Proof.Machine

theorem follows_dramWrite {T : Part → Bool} {s0 s : State} {a1 : Nat} {a2 : Nat} (hT : ∀ p ∈ ([.mem] : List Part), T p = true) (h : Follows T s0 s) : Follows T s0 (dramWrite s a1 a2) := by
  unfold dramWrite
  dsimp only
  split
  · refine follows_stores h rfl ?_ rfl rfl (frame_one (hT _ (by decide)) same_mem)
    rintro ⟨h1, h2, h3, h4⟩
    exact ⟨h1, h2, wfT_put (wfT_filter h3), h4⟩
  · refine follows_stores h rfl ?_ rfl rfl (frame_one (hT _ (by decide)) same_mem)
    rintro ⟨h1, h2, h3, h4⟩
    exact ⟨h1, h2, wfT_filter h3, h4⟩


theorem follows_setMap {T : Part → Bool} {s0 s : State} {a1 : Nat} {a2 : MapEntry} (hT : ∀ p ∈ ([.mem] : List Part), T p = true) (h : Follows T s0 s) : Follows T s0 (setMap s a1 a2) := by
  unfold setMap
  refine follows_dramWrite (sub hT (by decide)) ?_
  refine upd_mem (hT _ (by decide)) rfl rfl ?_
  assumption


theorem follows_cacheTouch {T : Part → Bool} {s0 s : State} {a1 : Nat} (hT : ∀ p ∈ ([.mem] : List Part), T p = true) (h : Follows T s0 s) : Follows T s0 (cacheTouch s a1) := by
  unfold cacheTouch
  try extract_lets (merge := false) (underBinder := false) +onlyGivenNames k1
  try clear_value k1
  try extract_lets (merge := false) (underBinder := false) +onlyGivenNames cur2
  try clear_value cur2
  try extract_lets (merge := false) (underBinder := false) +onlyGivenNames way3
  try clear_value way3
  refine upd_mem (hT _ (by decide)) rfl rfl ?_
  assumption


theorem follows_cacheDropSet {T : Part → Bool} {s0 s : State} {a1 : Nat} (hT : ∀ p ∈ ([.mem] : List Part), T p = true) (h : Follows T s0 s) : Follows T s0 (cacheDropSet s a1) := by
  unfold cacheDropSet
  refine upd_mem (hT _ (by decide)) rfl rfl ?_
  assumption


end Sys2Proof.Machine
end

