-- ==== Sys2Proof/Laws/FollowsReadCells.lean ====
section
/-! SUPPORT. What the operations of Machine/ReadCells.lean keep: the queue, the canonical form of the sorted stores, the ingest sequence. -/

namespace Sys2Proof.Machine

theorem follows_setCal {T : Part → Bool} {s0 s : State} {a1 : Nat} {a2 : Nat} {a3 : CalRec} (hT : ∀ p ∈ ([.cal] : List Part), T p = true) (h : Follows T s0 s) : Follows T s0 (setCal s a1 a2 a3) := by
  unfold setCal
  refine upd_cal (hT _ (by decide)) ?_
  assumption


theorem follows_idleCells {T : Part → Bool} {s0 s : State} {a1 : Nat} (hT : ∀ p ∈ ([.ports, .rdc, .cal] : List Part), T p = true) (h : Follows T s0 s) : Follows T s0 (idleCells s a1) := by
  unfold idleCells
  refine follows_foldl ?_ ?_
  · assumption
  · intro u8 a8 hu8
    split
    · assumption
    · try extract_lets (merge := false) (underBinder := false) +onlyGivenNames c1
      try clear_value c1
      split
      · assumption
      · try extract_lets (merge := false) (underBinder := false) +onlyGivenNames layer2
        try clear_value layer2
        try extract_lets (merge := false) (underBinder := false) +onlyGivenNames r3
        try clear_value r3
        try extract_lets (merge := false) (underBinder := false) +onlyGivenNames g4
        try clear_value g4
        extract_lets (merge := false) (underBinder := false) +onlyGivenNames s5
        have hs5 : Follows T s0 s5 := by
          unfold s5
          split
          · assumption
          · refine follows_setCal (sub hT (by decide)) ?_
            assumption
        clear_value s5
        try extract_lets (merge := false) (underBinder := false) +onlyGivenNames p6
        try clear_value p6
        extract_lets (merge := false) (underBinder := false) +onlyGivenNames s7
        have hs7 : Follows T s0 s7 := by
          unfold s7
          refine follows_setPort (sub hT (by decide)) ?_
          assumption
        clear_value s7
        refine follows_setChan (sub hT (by decide)) ?_
        assumption


theorem follows_latchCfg {T : Part → Bool} {s0 s : State} {a1 : Nat} (hT : ∀ p ∈ ([.rdc] : List Part), T p = true) (h : Follows T s0 s) : Follows T s0 (latchCfg s a1) := by
  unfold latchCfg
  refine upd_rdc (hT _ (by decide)) ?_
  assumption


theorem follows_loadChan {T : Part → Bool} {s0 s : State} {a1 : Nat} {a2 : Nat} {a3 : Nat} {a4 : Nat} {a5 : Bool} (hT : ∀ p ∈ ([.ports, .rdc] : List Part), T p = true) (h : Follows T s0 s) : Follows T s0 (loadChan s a1 a2 a3 a4 a5) := by
  unfold loadChan
  split
  · assumption
  · try extract_lets (merge := false) (underBinder := false) +onlyGivenNames spot1
    try clear_value spot1
    try extract_lets (merge := false) (underBinder := false) +onlyGivenNames r2
    try clear_value r2
    try extract_lets (merge := false) (underBinder := false) +onlyGivenNames g3
    try clear_value g3
    try extract_lets (merge := false) (underBinder := false) +onlyGivenNames o4
    try clear_value o4
    try extract_lets (merge := false) (underBinder := false) +onlyGivenNames i5
    try clear_value i5
    try extract_lets (merge := false) (underBinder := false) +onlyGivenNames p6
    try clear_value p6
    try extract_lets (merge := false) (underBinder := false) +onlyGivenNames gains7
    try clear_value gains7
    try extract_lets (merge := false) (underBinder := false) +onlyGivenNames offs8
    try clear_value offs8
    extract_lets (merge := false) (underBinder := false) +onlyGivenNames s9
    have hs9 : Follows T s0 s9 := by
      unfold s9
      refine follows_setPort (sub hT (by decide)) ?_
      assumption
    clear_value s9
    try extract_lets (merge := false) (underBinder := false) +onlyGivenNames c10
    try clear_value c10
    refine follows_setChan (sub hT (by decide)) ?_
    assumption


end Sys2Proof.Machine
end

