-- ==== Sys2Proof/Laws/FollowsQuires.lean ====
section
/-! SUPPORT. What the operations of Machine/Quires.lean keep: the queue, the canonical form of the sorted stores, the ingest sequence. -/

namespace Sys2Proof.Machine

theorem follows_setQuire {T : Part → Bool} {s0 s : State} {a1 : Quire} (hT : ∀ p ∈ ([.qre] : List Part), T p = true) (h : Follows T s0 s) : Follows T s0 (setQuire s a1) := by
  unfold setQuire
  refine upd_qre (hT _ (by decide)) ?_
  assumption


theorem follows_setSurfW {T : Part → Bool} {s0 s : State} {a1 : Nat} {a2 : SurfW} (hT : ∀ p ∈ ([.wrc] : List Part), T p = true) (h : Follows T s0 s) : Follows T s0 (setSurfW s a1 a2) := by
  unfold setSurfW
  refine upd_wrc (hT _ (by decide)) ?_
  assumption


theorem follows_endRun {T : Part → Bool} {s0 s : State} {a1 : Nat} (hT : ∀ p ∈ ([.bays, .ports, .rdc, .wrc, .cal] : List Part), T p = true) (h : Follows T s0 s) : Follows T s0 (endRun s a1) := by
  unfold endRun
  try extract_lets (merge := false) (underBinder := false) +onlyGivenNames o1
  try clear_value o1
  split
  · assumption
  · try extract_lets (merge := false) (underBinder := false) +onlyGivenNames b2
    try clear_value b2
    extract_lets (merge := false) (underBinder := false) +onlyGivenNames s3
    have hs3 : Follows T s0 s3 := by
      unfold s3
      refine follows_setBay (sub hT (by decide)) ?_
      assumption
    clear_value s3
    extract_lets (merge := false) (underBinder := false) +onlyGivenNames s4
    have hs4 : Follows T s0 s4 := by
      unfold s4
      refine follows_setOpu (sub hT (by decide)) ?_
      assumption
    clear_value s4
    refine follows_idleCells (sub hT (by decide)) ?_
    refine upd_wrc (hT _ (by decide)) ?_
    assumption


theorem follows_endRunsOf {T : Part → Bool} {s0 s : State} {a1 : Nat} (hT : ∀ p ∈ ([.bays, .ports, .rdc, .wrc, .cal] : List Part), T p = true) (h : Follows T s0 s) : Follows T s0 (endRunsOf s a1) := by
  unfold endRunsOf
  refine follows_foldl ?_ ?_
  · assumption
  · intro u1 a1 hu1
    split
    · refine follows_endRun (sub hT (by decide)) ?_
      assumption
    · assumption


theorem follows_moveBodies {T : Part → Bool} {s0 s : State} {a1 : Nat} {a2 : Nat} {a3 : Nat} {a4 : Nat} (hT : ∀ p ∈ ([.qre] : List Part), T p = true) (h : Follows T s0 s) : Follows T s0 (moveBodies s a1 a2 a3 a4) := by
  unfold moveBodies
  try extract_lets (merge := false) (underBinder := false) +onlyGivenNames t1
  try clear_value t1
  refine upd_qre (hT _ (by decide)) ?_
  assumption


theorem follows_unplaceRebuilt {T : Part → Bool} {s0 s : State} {a1 : Nat} (hT : ∀ p ∈ ([.qre] : List Part), T p = true) (h : Follows T s0 s) : Follows T s0 (unplaceRebuilt s a1) := by
  unfold unplaceRebuilt
  refine follows_foldl ?_ ?_
  · assumption
  · intro u3 a3 hu3
    extract_lets (merge := false) (underBinder := false) +onlyGivenNames s1
    have hs1 : Follows T s0 s1 := by
      unfold s1
      refine follows_moveBodies (sub hT (by decide)) ?_
      assumption
    clear_value s1
    extract_lets (merge := false) (underBinder := false) +onlyGivenNames s2
    have hs2 : Follows T s0 s2 := by
      unfold s2
      split
      · refine follows_setQuire (sub hT (by decide)) ?_
        assumption
      · assumption
    clear_value s2
    refine upd_qre (hT _ (by decide)) ?_
    assumption


theorem follows_refill {T : Part → Bool} {s0 s : State} {a1 : Quire} (hT : ∀ p ∈ ([.qre] : List Part), T p = true) (h : Follows T s0 s) : Follows T s0 (refill s a1) := by
  unfold refill
  refine upd_qre (hT _ (by decide)) ?_
  assumption


theorem follows_abandonQuire {T : Part → Bool} {s0 s : State} {a1 : Nat} (hT : ∀ p ∈ ([.cnt, .bays, .ports, .rdc, .wrc, .cal, .qre, .bdy] : List Part), T p = true) (h : Follows T s0 s) : Follows T s0 (abandonQuire s a1) := by
  unfold abandonQuire
  split
  · assumption
  · split
    · assumption
    · try extract_lets (merge := false) (underBinder := false) +onlyGivenNames q'1
      try clear_value q'1
      extract_lets (merge := false) (underBinder := false) +onlyGivenNames j2_0 j2_1 s2
      have hs2 : Follows T s0 s2 := by
        unfold s2
        split
        · try extract_lets (merge := false) (underBinder := false) +onlyGivenNames p3
          try clear_value p3
          refine upd_qre (hT _ (by decide)) ?_
          assumption
        · assumption
      clear_value s2
      extract_lets (merge := false) (underBinder := false) +onlyGivenNames s4
      have hs4 : Follows T s0 s4 := by
        unfold s4
        refine follows_bumpN (sub hT (by decide)) ?_
        refine follows_setQuire (sub hT (by decide)) ?_
        assumption
      clear_value s4
      extract_lets (merge := false) (underBinder := false) +onlyGivenNames s5
      have hs5 : Follows T s0 s5 := by
        unfold s5
        refine follows_endRunsOf (sub hT (by decide)) ?_
        assumption
      clear_value s5
      refine follows_unplaceRebuilt (sub hT (by decide)) ?_
      refine follows_refill (sub hT (by decide)) ?_
      refine follows_countEvent (sub hT (by decide)) ?_
      assumption


theorem follows_setSurf {T : Part → Bool} {s0 s : State} {a1 : Nat} {a2 : Surf} (hT : ∀ p ∈ ([.qre] : List Part), T p = true) (h : Follows T s0 s) : Follows T s0 (setSurf s a1 a2) := by
  unfold setSurf
  refine upd_qre (hT _ (by decide)) ?_
  assumption


theorem follows_takeFrame {T : Part → Bool} {s0 s : State} {a1 : Nat} {a2 : Bool} (hT : ∀ p ∈ ([.qre] : List Part), T p = true) (h : Follows T s0 s) : FollowsFst T s0 (takeFrame s a1 a2) := by
  unfold takeFrame
  try extract_lets (merge := false) (underBinder := false) +onlyGivenNames x1
  try clear_value x1
  split
  · refine follows_pair ?_
    refine follows_setSurf (sub hT (by decide)) ?_
    assumption
  · try extract_lets (merge := false) (underBinder := false) +onlyGivenNames n2
    try clear_value n2
    refine follows_pair ?_
    refine follows_setSurf (sub hT (by decide)) ?_
    assumption


theorem follows_sendPointer {T : Part → Bool} {s0 s : State} {a1 : Fin 16} (hT : ∀ p ∈ ([.out] : List Part), T p = true) (h : Follows T s0 s) : Follows T s0 (sendPointer s a1) := by
  unfold sendPointer
  try extract_lets (merge := false) (underBinder := false) +onlyGivenNames x1
  try clear_value x1
  refine follows_send (sub hT (by decide)) ?_
  assumption


theorem follows_placeLeaf {T : Part → Bool} {s0 s : State} {a1 : Quire} {a2 : Nat} {a3 : Nat} {a4 : Nat} (hT : ∀ p ∈ ([.out, .qre] : List Part), T p = true) (h : Follows T s0 s) : FollowsFst T s0 (placeLeaf s a1 a2 a3 a4) := by
  unfold placeLeaf
  split
  · extract_lets (merge := false) (underBinder := false) +onlyGivenNames r1
    have hr1 : FollowsFst T s0 r1 := by
      unfold r1
      refine follows_takeFrame (sub hT (by decide)) ?_
      assumption
    clear_value r1
    try extract_lets (merge := false) (underBinder := false) +onlyGivenNames l2
    try clear_value l2
    refine follows_pair ?_
    refine follows_sendPointer (sub hT (by decide)) ?_
    refine follows_fst ?_
    assumption
  · refine follows_pair ?_
    refine follows_send (sub hT (by decide)) ?_
    assumption


theorem follows_sendQuire {T : Part → Bool} {s0 s : State} {a1 : Nat} (hT : ∀ p ∈ ([.out] : List Part), T p = true) (h : Follows T s0 s) : Follows T s0 (sendQuire s a1) := by
  unfold sendQuire
  split
  · assumption
  · refine follows_send (sub hT (by decide)) ?_
    assumption


theorem follows_spillLeaf {T : Part → Bool} {s0 s : State} {a1 : Nat} {a2 : Nat} (hT : ∀ p ∈ ([.cnt, .bays, .ports, .out, .rdc, .wrc, .cal, .qre, .bdy] : List Part), T p = true) (h : Follows T s0 s) : Follows T s0 (spillLeaf s a1 a2) := by
  unfold spillLeaf
  split
  · assumption
  · split
    · refine follows_abandonQuire (sub hT (by decide)) ?_
      assumption
    · try extract_lets (merge := false) (underBinder := false) +onlyGivenNames l1
      try clear_value l1
      extract_lets (merge := false) (underBinder := false) +onlyGivenNames r2
      have hr2 : FollowsFst T s0 r2 := by
        unfold r2
        refine follows_placeLeaf (sub hT (by decide)) ?_
        assumption
      clear_value r2
      refine follows_sendQuire (sub hT (by decide)) ?_
      refine follows_bump (sub hT (by decide)) ?_
      refine follows_setQuire (sub hT (by decide)) ?_
      refine follows_fst ?_
      assumption


theorem follows_abandonLeaf {T : Part → Bool} {s0 s : State} {a1 : Nat} {a2 : Nat} {a3 : Bool} (hT : ∀ p ∈ ([.cnt, .bays, .ports, .out, .rdc, .wrc, .cal, .qre, .bdy] : List Part), T p = true) (h : Follows T s0 s) : Follows T s0 (abandonLeaf s a1 a2 a3) := by
  unfold abandonLeaf
  split
  · assumption
  · try extract_lets (merge := false) (underBinder := false) +onlyGivenNames l1
    try clear_value l1
    extract_lets (merge := false) (underBinder := false) +onlyGivenNames s2
    have hs2 : Follows T s0 s2 := by
      unfold s2
      refine follows_setQuire (sub hT (by decide)) ?_
      assumption
    clear_value s2
    extract_lets (merge := false) (underBinder := false) +onlyGivenNames j3_0 s3
    have hs3 : Follows T s0 s3 := by
      unfold s3
      split
      · assumption
      · try extract_lets (merge := false) (underBinder := false) +onlyGivenNames w4
        try clear_value w4
        refine follows_bump (sub hT (by decide)) ?_
        split
        · refine follows_setSurfW (sub hT (by decide)) ?_
          assumption
        · assumption
    clear_value s3
    extract_lets (merge := false) (underBinder := false) +onlyGivenNames s5
    have hs5 : Follows T s0 s5 := by
      unfold s5
      split
      · refine follows_endRun (sub hT (by decide)) ?_
        assumption
      · assumption
    clear_value s5
    split
    · refine follows_spillLeaf (sub hT (by decide)) ?_
      assumption
    · refine follows_send (sub hT (by decide)) ?_
      assumption


theorem follows_closeQuire {T : Part → Bool} {s0 s : State} {a1 : Nat} {a2 : Nat} (hT : ∀ p ∈ ([.cnt, .bays, .ports, .out, .rdc, .wrc, .cal, .qre, .bdy] : List Part), T p = true) (h : Follows T s0 s) : Follows T s0 (closeQuire s a1 a2) := by
  unfold closeQuire
  split
  · assumption
  · split
    · assumption
    · try extract_lets (merge := false) (underBinder := false) +onlyGivenNames row1
      try clear_value row1
      try extract_lets (merge := false) (underBinder := false) +onlyGivenNames q02
      try clear_value q02
      try extract_lets (merge := false) (underBinder := false) +onlyGivenNames nv3
      try clear_value nv3
      try extract_lets (merge := false) (underBinder := false) +onlyGivenNames full4
      try clear_value full4
      extract_lets (merge := false) (underBinder := false) +onlyGivenNames s5
      have hs5 : Follows T s0 s5 := by
        unfold s5
        refine follows_bumpN (sub hT (by decide)) ?_
        split
        · assumption
        · refine follows_bump (sub hT (by decide)) ?_
          assumption
      clear_value s5
      extract_lets (merge := false) (underBinder := false) +onlyGivenNames s6
      have hs6 : Follows T s0 s6 := by
        unfold s6
        refine follows_setQuire (sub hT (by decide)) ?_
        assumption
      clear_value s6
      refine follows_sendQuire (sub hT (by decide)) ?_
      refine follows_foldl ?_ ?_
      · assumption
      · intro u9 a9 hu9
        split
        · assumption
        · split
          · assumption
          · try extract_lets (merge := false) (underBinder := false) +onlyGivenNames m7
            try clear_value m7
            split
            · extract_lets (merge := false) (underBinder := false) +onlyGivenNames r8
              have hr8 : FollowsFst T s0 r8 := by
                unfold r8
                refine follows_placeLeaf (sub hT (by decide)) ?_
                assumption
              clear_value r8
              refine follows_setQuire (sub hT (by decide)) ?_
              refine follows_fst ?_
              assumption
            · refine follows_spillLeaf (sub hT (by decide)) ?_
              assumption


theorem follows_closeFull {T : Part → Bool} {s0 s : State} {a1 : Quire} (hT : ∀ p ∈ ([.cnt, .bays, .ports, .out, .rdc, .wrc, .cal, .qre, .bdy] : List Part), T p = true) (h : Follows T s0 s) : Follows T s0 (closeFull s a1) := by
  unfold closeFull
  split
  · refine follows_closeQuire (sub hT (by decide)) ?_
    assumption
  · assumption


theorem follows_addGranule {T : Part → Bool} {s0 s : State} {a1 : Quire} {a2 : Nat} {a3 : Nat} (hT : ∀ p ∈ ([.cnt, .bays, .ports, .out, .rdc, .wrc, .cal, .qre, .bdy] : List Part), T p = true) (h : Follows T s0 s) : Follows T s0 (addGranule s a1 a2 a3) := by
  unfold addGranule
  try extract_lets (merge := false) (underBinder := false) +onlyGivenNames q'1
  try clear_value q'1
  refine follows_closeFull (sub hT (by decide)) ?_
  refine follows_setQuire (sub hT (by decide)) ?_
  assumption


theorem follows_closeFor {T : Part → Bool} {s0 s : State} {a1 : Nat} {a2 : Nat} (hT : ∀ p ∈ ([.cnt, .bays, .ports, .out, .rdc, .wrc, .cal, .qre, .bdy] : List Part), T p = true) (h : Follows T s0 s) : Follows T s0 (closeFor s a1 a2) := by
  unfold closeFor
  refine follows_foldl ?_ ?_
  · assumption
  · intro u1 a1 hu1
    split
    · refine follows_closeQuire (sub hT (by decide)) ?_
      assumption
    · assumption


theorem follows_openQuire {T : Part → Bool} {s0 s : State} {a1 : Nat} {a2 : Nat} {a3 : Nat} {a4 : Nat} (hT : ∀ p ∈ ([.qre] : List Part), T p = true) (h : Follows T s0 s) : FollowsOptFst T s0 (openQuire s a1 a2 a3 a4) := by
  unfold openQuire
  split
  · exact follows_noneFst
  · try extract_lets (merge := false) (underBinder := false) +onlyGivenNames n1
    try clear_value n1
    refine follows_someFst ?_
    refine follows_pair ?_
    refine follows_setQuire (sub hT (by decide)) ?_
    refine upd_qre (hT _ (by decide)) ?_
    assumption


theorem follows_waitQuire {T : Part → Bool} {s0 s : State} {a1 : Nat} (hT : ∀ p ∈ ([.qre] : List Part), T p = true) (h : Follows T s0 s) : Follows T s0 (waitQuire s a1) := by
  unfold waitQuire
  refine upd_qre (hT _ (by decide)) ?_
  assumption


theorem follows_fillGranules {T : Part → Bool} {s0 s : State} {a1 : Nat} {a2 : Nat} {a3 : List Nat} (hT : ∀ p ∈ ([.cnt, .bays, .ports, .out, .rdc, .wrc, .cal, .qre, .bdy] : List Part), T p = true) (h : Follows T s0 s) : Follows T s0 (fillGranules s a1 a2 a3) := by
  unfold fillGranules
  refine follows_foldl h ?_
  intro u g hu
  split
  · split
    · exact follows_setQuire (sub hT (by decide)) hu
    · split
      · exact follows_waitQuire (sub hT (by decide)) hu
      · exact follows_addGranule (sub hT (by decide)) hu
  · split
    · rename_i t n ht
      have hs := follows_optFst (follows_openQuire (sub hT (by decide)) hu) ht
      split
      · exact follows_addGranule (sub hT (by decide)) hs
      · exact hs
    · exact follows_waitQuire (sub hT (by decide)) hu


theorem follows_fillZone {T : Part → Bool} {s0 s : State} {a1 : Nat} {a2 : Nat} {a3 : Nat} {a4 : Nat} {a5 : Nat} (hT : ∀ p ∈ ([.cnt, .bays, .ports, .out, .rdc, .wrc, .cal, .qre, .bdy] : List Part), T p = true) (h : Follows T s0 s) : Follows T s0 (fillZone s a1 a2 a3 a4 a5) := by
  induction a4 generalizing s a3 a5 with
  | zero => exact h
  | succ f ih =>
    cases a5 with
    | zero => exact h
    | succ n =>
      simp only [fillZone]
      split
      · exact ih (follows_closeFull (sub hT (by decide)) (follows_setQuire (sub hT (by decide)) h))
      · split
        · rename_i t n ht
          exact ih (follows_optFst (follows_openQuire (sub hT (by decide)) h) ht)
        · exact follows_waitQuire (sub hT (by decide)) h


theorem follows_fillVersion {T : Part → Bool} {s0 s : State} {a1 : Version} (hT : ∀ p ∈ ([.cnt, .bays, .ports, .out, .rdc, .wrc, .cal, .qre, .bdy] : List Part), T p = true) (h : Follows T s0 s) : Follows T s0 (fillVersion s a1) := by
  unfold fillVersion
  split
  · refine follows_fillGranules (sub hT (by decide)) ?_
    assumption
  · refine follows_fillZone (sub hT (by decide)) ?_
    assumption


theorem follows_fillWaiting {T : Part → Bool} {s0 s : State} (hT : ∀ p ∈ ([.cnt, .bays, .ports, .out, .rdc, .wrc, .cal, .qre, .bdy] : List Part), T p = true) (h : Follows T s0 s) : Follows T s0 (fillWaiting s) := by
  unfold fillWaiting
  try extract_lets (merge := false) (underBinder := false) +onlyGivenNames ns1
  try clear_value ns1
  refine follows_foldl ?_ ?_
  · refine upd_qre (hT _ (by decide)) ?_
    assumption
  · intro u3 a3 hu3
    refine follows_foldl ?_ ?_
    · assumption
    · intro u2 a2 hu2
      refine follows_fillVersion (sub hT (by decide)) ?_
      assumption


theorem follows_noteSurface {T : Part → Bool} {s0 s : State} {a1 : Nat} (hT : ∀ p ∈ ([.out] : List Part), T p = true) (h : Follows T s0 s) : Follows T s0 (noteSurface s a1) := by
  unfold noteSurface
  try extract_lets (merge := false) (underBinder := false) +onlyGivenNames x1
  try clear_value x1
  split
  · refine follows_send (sub hT (by decide)) ?_
    assumption
  · assumption


theorem follows_queueRebuild {T : Part → Bool} {s0 s : State} {a1 : Nat} (hT : ∀ p ∈ ([.qre] : List Part), T p = true) (h : Follows T s0 s) : Follows T s0 (queueRebuild s a1) := by
  unfold queueRebuild
  split
  · assumption
  · refine upd_qre (hT _ (by decide)) ?_
    assumption


theorem follows_surfaceFailed {T : Part → Bool} {s0 s : State} {a1 : Nat} (hT : ∀ p ∈ ([.cnt, .bays, .ports, .out, .rdc, .wrc, .cal, .qre, .bdy] : List Part), T p = true) (h : Follows T s0 s) : Follows T s0 (surfaceFailed s a1) := by
  unfold surfaceFailed
  extract_lets (merge := false) (underBinder := false) +onlyGivenNames s1
  have hs1 : Follows T s0 s1 := by
    unfold s1
    refine follows_foldl ?_ ?_
    · assumption
    · intro u2 a2 hu2
      split
      · refine follows_abandonQuire (sub hT (by decide)) ?_
        assumption
      · refine follows_abandonLeaf (sub hT (by decide)) ?_
        assumption
  clear_value s1
  refine follows_noteSurface (sub hT (by decide)) ?_
  refine follows_foldl ?_ ?_
  · assumption
  · intro u3 a3 hu3
    refine follows_queueRebuild (sub hT (by decide)) ?_
    assumption


theorem follows_closeDirectory {T : Part → Bool} {s0 s : State} {a1 : Nat} (hT : ∀ p ∈ ([.cnt, .bays, .ports, .out, .rdc, .wrc, .cal, .qre, .cph, .bdy] : List Part), T p = true) (h : Follows T s0 s) : Follows T s0 (closeDirectory s a1) := by
  have hw : ∀ (u : State) (q : Qre), Follows T s0 u → Follows T s0 { u with qre := q } :=
    fun u q hu => upd_qre (hT _ (by decide)) hu
  unfold closeDirectory
  dsimp only
  split
  · exact h
  · split
    · exact h
    · rename_i t n ht
      have hs := follows_optFst (follows_openQuire (sub hT (by decide)) h) ht
      split
      · exact h
      · have hq : ∀ k, Follows T s0 (takeSeq t k).1 := fun k => follows_takeSeq (sub hT (by decide)) (a1 := k) hs
        refine follows_closeQuire (sub hT (by decide)) ?_
        exact hw _ _ (follows_setQuire (sub hT (by decide)) (hq _))


theorem follows_closeVolume {T : Part → Bool} {s0 s : State} (hT : ∀ p ∈ ([.free, .cnt, .bays, .ports, .out, .rdc, .wrc, .cal, .qre, .hiu, .cph, .bdy] : List Part), T p = true) (h : Follows T s0 s) : Follows T s0 (closeVolume s) := by
  unfold closeVolume
  extract_lets (merge := false) (underBinder := false) +onlyGivenNames s1
  have hs1 : Follows T s0 s1 := by
    unfold s1
    refine follows_closeDirectory (sub hT (by decide)) ?_
    refine follows_drawn (sub hT (by decide)) ?_
    assumption
  clear_value s1
  extract_lets (merge := false) (underBinder := false) +onlyGivenNames j2_0 s2
  have hs2 : Follows T s0 s2 := by
    unfold s2
    refine upd_hiu (hT _ (by decide)) ?_
    assumption
  clear_value s2
  refine follows_vendorEvent (sub hT (by decide)) ?_
  refine follows_event (sub hT (by decide)) ?_
  refine upd_qre (hT _ (by decide)) ?_
  assumption


theorem follows_checkVolume {T : Part → Bool} {s0 s : State} (hT : ∀ p ∈ ([.free, .cnt, .bays, .ports, .out, .rdc, .wrc, .cal, .qre, .hiu, .cph, .bdy] : List Part), T p = true) (h : Follows T s0 s) : Follows T s0 (checkVolume s) := by
  unfold checkVolume
  split
  · refine follows_send (sub hT (by decide)) ?_
    refine follows_closeVolume (sub hT (by decide)) ?_
    assumption
  · assumption


theorem follows_cutRun {T : Part → Bool} {s0 s : State} {a1 : Nat} {a2 : Bool} (hT : ∀ p ∈ ([.wrc] : List Part), T p = true) (h : Follows T s0 s) : Follows T s0 (cutRun s a1 a2) := by
  unfold cutRun
  try extract_lets (merge := false) (underBinder := false) +onlyGivenNames o1
  try clear_value o1
  split
  · try extract_lets (merge := false) (underBinder := false) +onlyGivenNames p2
    try clear_value p2
    refine follows_setOpu (sub hT (by decide)) ?_
    assumption
  · assumption


theorem follows_surfaceLost {T : Part → Bool} {s0 s : State} {a1 : Nat} (hT : ∀ p ∈ ([.free, .cnt, .bays, .ports, .out, .rdc, .wrc, .cal, .qre, .hiu, .cph, .bdy] : List Part), T p = true) (h : Follows T s0 s) : Follows T s0 (surfaceLost s a1) := by
  unfold surfaceLost
  split
  · assumption
  · extract_lets (merge := false) (underBinder := false) +onlyGivenNames j1_0 s1
    have hs1 : Follows T s0 s1 := by
      unfold s1
      refine follows_setSurf (sub hT (by decide)) ?_
      assumption
    clear_value s1
    extract_lets (merge := false) (underBinder := false) +onlyGivenNames s2
    have hs2 : Follows T s0 s2 := by
      unfold s2
      refine follows_vendorEvent (sub hT (by decide)) ?_
      refine follows_event (sub hT (by decide)) ?_
      assumption
    clear_value s2
    refine follows_checkVolume (sub hT (by decide)) ?_
    refine follows_endRun (sub hT (by decide)) ?_
    refine follows_surfaceFailed (sub hT (by decide)) ?_
    assumption


theorem follows_bayLost {T : Part → Bool} {s0 s : State} {a1 : Nat} (hT : ∀ p ∈ ([.free, .cnt, .bays, .ports, .out, .rdc, .wrc, .cal, .qre, .hiu, .cph, .bdy] : List Part), T p = true) (h : Follows T s0 s) : Follows T s0 (bayLost s a1) := by
  unfold bayLost
  refine follows_surfaceLost (sub hT (by decide)) ?_
  refine follows_surfaceLost (sub hT (by decide)) ?_
  assumption


theorem follows_releaseVersions {T : Part → Bool} {s0 s : State} (hT : ∀ p ∈ ([.qre, .cmd] : List Part), T p = true) (h : Follows T s0 s) : Follows T s0 (releaseVersions s) := by
  unfold releaseVersions
  try extract_lets (merge := false) (underBinder := false) +onlyGivenNames keep1
  try clear_value keep1
  refine follows_mk ?_ rfl rfl rfl rfl rfl rfl rfl rfl rfl rfl rfl same same same same same same same same same same same same same same same same same same same (.inl (hT _ (by decide))) same (.inl (hT _ (by decide))) same same same same same
  assumption


theorem follows_sealSurface {T : Part → Bool} {s0 s : State} {a1 : Nat} {a2 : Nat} (hT : ∀ p ∈ ([.free, .cnt, .bays, .ports, .out, .rdc, .wrc, .cal, .qre, .hiu, .cph, .bdy] : List Part), T p = true) (h : Follows T s0 s) : Follows T s0 (sealSurface s a1 a2) := by
  unfold sealSurface
  try extract_lets (merge := false) (underBinder := false) +onlyGivenNames w1
  try clear_value w1
  split
  · assumption
  · refine follows_checkVolume (sub hT (by decide)) ?_
    refine follows_noteSurface (sub hT (by decide)) ?_
    refine follows_vendorEvent (sub hT (by decide)) ?_
    refine follows_setSurfW (sub hT (by decide)) ?_
    assumption


theorem follows_checkAbandoned {T : Part → Bool} {s0 s : State} {a1 : Nat} (hT : ∀ p ∈ ([.free, .cnt, .bays, .ports, .out, .rdc, .wrc, .cal, .qre, .hiu, .cph, .bdy] : List Part), T p = true) (h : Follows T s0 s) : Follows T s0 (checkAbandoned s a1) := by
  unfold checkAbandoned
  split
  · refine follows_sealSurface (sub hT (by decide)) ?_
    assumption
  · assumption


theorem follows_checkSeal {T : Part → Bool} {s0 s : State} {a1 : Nat} (hT : ∀ p ∈ ([.out, .qre] : List Part), T p = true) (h : Follows T s0 s) : Follows T s0 (checkSeal s a1) := by
  unfold checkSeal
  split
  · assumption
  · split
    · refine follows_sendQuire (sub hT (by decide)) ?_
      refine follows_setQuire (sub hT (by decide)) ?_
      assumption
    · assumption


theorem follows_withSmart {T : Part → Bool} {s0 s a0 : State} (hT : ∀ p ∈ ([.out, .hiu] : List Part), T p = true) (h : Follows T s0 s) : Follows T s0 (withSmart a0 s) := by
  refine follows_foldl h ?_
  intro u b hu
  split
  · exact follows_asyncEvent (sub hT (by decide)) hu
  · exact hu


theorem follows_leafVerified {T : Part → Bool} {s0 s : State} {a1 : Nat} {a2 : Nat} (hT : ∀ p ∈ ([.out, .qre] : List Part), T p = true) (h : Follows T s0 s) : Follows T s0 (leafVerified s a1 a2) := by
  unfold leafVerified
  split
  · assumption
  · try extract_lets (merge := false) (underBinder := false) +onlyGivenNames l1
    try clear_value l1
    refine follows_checkSeal (sub hT (by decide)) ?_
    refine follows_setQuire (sub hT (by decide)) ?_
    assumption


end Sys2Proof.Machine
end

