-- ==== Sys2Proof/Laws/FollowsStops.lean ====
section
/-! SUPPORT. What the operations of Machine/Stops.lean keep: the queue, the canonical form of the sorted stores, the ingest sequence. -/

namespace Sys2Proof.Machine

theorem follows_dropTrim {T : Part → Bool} {s0 s : State} (hT : ∀ p ∈ ([.bnd] : List Part), T p = true) (h : Follows T s0 s) : Follows T s0 (dropTrim s) := by
  unfold dropTrim
  refine upd_bnd (hT _ (by decide)) rfl ?_
  assumption


theorem follows_dropStruct {T : Part → Bool} {s0 s : State} (hT : ∀ p ∈ ([.bnd] : List Part), T p = true) (h : Follows T s0 s) : Follows T s0 (dropStruct s) := by
  unfold dropStruct
  refine upd_bnd (hT _ (by decide)) rfl ?_
  assumption


theorem follows_dropBoth {T : Part → Bool} {s0 s : State} (hT : ∀ p ∈ ([.bnd] : List Part), T p = true) (h : Follows T s0 s) : Follows T s0 (dropBoth s) := by
  unfold dropBoth
  refine follows_dropTrim (sub hT (by decide)) ?_
  refine follows_dropStruct (sub hT (by decide)) ?_
  assumption


theorem follows_axisResult {T : Part → Bool} {s0 s : State} {a1 : Nat} {a2 : Nat} (hT : ∀ p ∈ ([.axes] : List Part), T p = true) (h : Follows T s0 s) : Follows T s0 (axisResult s a1 a2) := by
  unfold axisResult
  refine follows_setAxis (sub hT (by decide)) ?_
  assumption


theorem follows_issue {T : Part → Bool} {s0 s : State} {a1 : Obj} {a2 : Nat} {a3 : Nat} {a4 : Nat} (hT : ∀ p ∈ ([.spn] : List Part), T p = true) (h : Follows T s0 s) : Follows T s0 (issue s a1 a2 a3 a4) := by
  unfold issue
  refine upd_spn (hT _ (by decide)) ?_
  assumption


theorem follows_queueAxis {T : Part → Bool} {s0 s : State} {a1 : Nat} {a2 : Nat} {a3 : Nat} {a4 : Nat} (hT : ∀ p ∈ ([.spn, .axes] : List Part), T p = true) (h : Follows T s0 s) : Follows T s0 (queueAxis s a1 a2 a3 a4) := by
  unfold queueAxis
  try extract_lets (merge := false) (underBinder := false) +onlyGivenNames a1
  try clear_value a1
  split
  · refine follows_axisResult (sub hT (by decide)) ?_
    assumption
  · split
    · refine follows_axisResult (sub hT (by decide)) ?_
      assumption
    · try extract_lets (merge := false) (underBinder := false) +onlyGivenNames e2
      try clear_value e2
      extract_lets (merge := false) (underBinder := false) +onlyGivenNames s3
      have hs3 : Follows T s0 s3 := by
        unfold s3
        refine follows_setAxis (sub hT (by decide)) ?_
        assumption
      clear_value s3
      split
      · refine follows_issue (sub hT (by decide)) ?_
        assumption
      · assumption


theorem follows_endJob {T : Part → Bool} {s0 s : State} {a1 : Nat} {a2 : Nat} {a3 : CalKind} (hT : ∀ p ∈ ([.cal] : List Part), T p = true) (h : Follows T s0 s) : Follows T s0 (endJob s a1 a2 a3) := by
  unfold endJob
  refine upd_cal (hT _ (by decide)) ?_
  assumption


theorem follows_cellResult {T : Part → Bool} {s0 s : State} {a1 : Nat} {a2 : Nat} (hT : ∀ p ∈ ([.cells] : List Part), T p = true) (h : Follows T s0 s) : Follows T s0 (cellResult s a1 a2) := by
  unfold cellResult
  refine follows_setCell (sub hT (by decide)) ?_
  assumption


theorem follows_queueCell {T : Part → Bool} {s0 s : State} {a1 : Nat} {a2 : Nat} {a3 : Nat} {a4 : Bool} {a5 : Nat} (hT : ∀ p ∈ ([.spn, .cells] : List Part), T p = true) (h : Follows T s0 s) : Follows T s0 (queueCell s a1 a2 a3 a4 a5) := by
  unfold queueCell
  try extract_lets (merge := false) (underBinder := false) +onlyGivenNames c1
  try clear_value c1
  split
  · refine follows_cellResult (sub hT (by decide)) ?_
    assumption
  · split
    · refine follows_cellResult (sub hT (by decide)) ?_
      assumption
    · try extract_lets (merge := false) (underBinder := false) +onlyGivenNames e2
      try clear_value e2
      extract_lets (merge := false) (underBinder := false) +onlyGivenNames s3
      have hs3 : Follows T s0 s3 := by
        unfold s3
        refine follows_setCell (sub hT (by decide)) ?_
        assumption
      clear_value s3
      split
      · refine follows_issue (sub hT (by decide)) ?_
        assumption
      · assumption


theorem follows_orderCellAt {T : Part → Bool} {s0 s : State} {a1 : Nat} {a2 : Nat} {a3 : Nat} {a4 : Nat} (hT : ∀ p ∈ ([.spn, .cells] : List Part), T p = true) (h : Follows T s0 s) : Follows T s0 (orderCellAt s a1 a2 a3 a4) := by
  unfold orderCellAt
  refine follows_queueCell (sub hT (by decide)) ?_
  assumption


theorem follows_orderOffset {T : Part → Bool} {s0 s : State} {a1 : Nat} {a2 : Nat} {a3 : Nat} (hT : ∀ p ∈ ([.spn, .cells] : List Part), T p = true) (h : Follows T s0 s) : Follows T s0 (orderOffset s a1 a2 a3) := by
  unfold orderOffset
  split
  · refine follows_orderCellAt (sub hT (by decide)) ?_
    assumption
  · assumption


theorem follows_orderAxis {T : Part → Bool} {s0 s : State} {a1 : Nat} {a2 : Nat} {a3 : Nat} (hT : ∀ p ∈ ([.spn, .axes] : List Part), T p = true) (h : Follows T s0 s) : Follows T s0 (orderAxis s a1 a2 a3) := by
  unfold orderAxis
  refine follows_queueAxis (sub hT (by decide)) ?_
  assumption


theorem follows_dropHeldJump {T : Part → Bool} {s0 s : State} {a1 : Cell} (hT : ∀ p ∈ ([.cells] : List Part), T p = true) (h : Follows T s0 s) : Follows T s0 (dropHeldJump s a1) := by
  unfold dropHeldJump
  split
  · assumption
  · split
    · assumption
    · try extract_lets (merge := false) (underBinder := false) +onlyGivenNames d1
      try clear_value d1
      split
      · assumption
      · split
        · refine follows_setCell (sub hT (by decide)) ?_
          assumption
        · assumption


theorem follows_seqFailed {T : Part → Bool} {s0 s : State} {a1 : Cell} (hT : ∀ p ∈ ([.cnt] : List Part), T p = true) (h : Follows T s0 s) : Follows T s0 (seqFailed s a1) := by
  unfold seqFailed
  split
  · refine follows_bump (sub hT (by decide)) ?_
    assumption
  · refine follows_bump (sub hT (by decide)) ?_
    assumption
  · assumption


theorem follows_retractCell {T : Part → Bool} {s0 s : State} {a1 : Nat} {a2 : Nat} {a3 : Bool} (hT : ∀ p ∈ ([.cnt, .cells] : List Part), T p = true) (h : Follows T s0 s) : Follows T s0 (retractCell s a1 a2 a3) := by
  unfold retractCell
  try extract_lets (merge := false) (underBinder := false) +onlyGivenNames c1
  try clear_value c1
  refine follows_dropHeldJump (sub hT (by decide)) ?_
  refine follows_setCell (sub hT (by decide)) ?_
  refine follows_seqFailed (sub hT (by decide)) ?_
  assumption


theorem follows_followPrereq {T : Part → Bool} {s0 s : State} {a1 : Nat} (hT : ∀ p ∈ ([.cnt, .cells] : List Part), T p = true) (h : Follows T s0 s) : Follows T s0 (followPrereq s a1) := by
  unfold followPrereq
  try extract_lets (merge := false) (underBinder := false) +onlyGivenNames c1
  try clear_value c1
  split
  · assumption
  · split
    · split
      · assumption
      · refine follows_retractCell (sub hT (by decide)) ?_
        assumption
    · split
      · split
        · refine follows_setCell (sub hT (by decide)) ?_
          refine follows_seqFailed (sub hT (by decide)) ?_
          assumption
        · assumption
      · split
        · refine follows_setCell (sub hT (by decide)) ?_
          assumption
        · assumption


theorem follows_cascade {T : Part → Bool} {s0 s : State} {a1 : Nat} (hT : ∀ p ∈ ([.cnt, .cells] : List Part), T p = true) (h : Follows T s0 s) : Follows T s0 (cascade s a1) := by
  unfold cascade
  refine follows_foldl ?_ ?_
  · assumption
  · intro u1 a1 hu1
    split
    · refine follows_followPrereq (sub hT (by decide)) ?_
      assumption
    · assumption


theorem follows_orderCell {T : Part → Bool} {s0 s : State} {a1 : Nat} {a2 : Nat} {a3 : Nat} (hT : ∀ p ∈ ([.spn, .cells] : List Part), T p = true) (h : Follows T s0 s) : Follows T s0 (orderCell s a1 a2 a3) := by
  unfold orderCell
  refine follows_orderCellAt (sub hT (by decide)) ?_
  assumption


theorem follows_afterRun {T : Part → Bool} {s0 s : State} {a1 : Nat} {a2 : Nat} {a3 : CalKind} (hT : ∀ p ∈ ([.ports, .spn, .cells, .axes] : List Part), T p = true) (h : Follows T s0 s) : Follows T s0 (afterRun s a1 a2 a3) := by
  unfold afterRun
  split
  · assumption
  · split
    · refine follows_orderOffset (sub hT (by decide)) ?_
      assumption
    · refine follows_orderOffset (sub hT (by decide)) ?_
      assumption
    · refine follows_orderAxis (sub hT (by decide)) ?_
      assumption
    · try extract_lets (merge := false) (underBinder := false) +onlyGivenNames p1
      try clear_value p1
      split
      · assumption
      · refine follows_setPort (sub hT (by decide)) ?_
        assumption
    · assumption


theorem follows_voidRun {T : Part → Bool} {s0 s : State} {a1 : Nat} (hT : ∀ p ∈ ([.ports, .spn, .cells, .axes, .cal] : List Part), T p = true) (h : Follows T s0 s) : Follows T s0 (voidRun s a1) := by
  unfold voidRun
  extract_lets (merge := false) (underBinder := false) +onlyGivenNames s1
  have hs1 : Follows T s0 s1 := by
    unfold s1
    refine follows_foldl ?_ ?_
    · assumption
    · intro u2 a2 hu2
      refine follows_afterRun (sub hT (by decide)) ?_
      assumption
  clear_value s1
  refine upd_cal (hT _ (by decide)) ?_
  assumption


theorem follows_revokeGrants {T : Part → Bool} {s0 s : State} {a1 : Nat} (hT : ∀ p ∈ ([.bays, .ports, .spn, .cells, .axes, .rdc, .wrc, .cal] : List Part), T p = true) (h : Follows T s0 s) : Follows T s0 (revokeGrants s a1) := by
  unfold revokeGrants
  try extract_lets (merge := false) (underBinder := false) +onlyGivenNames b1
  try clear_value b1
  extract_lets (merge := false) (underBinder := false) +onlyGivenNames s2
  have hs2 : Follows T s0 s2 := by
    unfold s2
    refine follows_setBay (sub hT (by decide)) ?_
    assumption
  clear_value s2
  extract_lets (merge := false) (underBinder := false) +onlyGivenNames s3
  have hs3 : Follows T s0 s3 := by
    unfold s3
    split
    · refine follows_cutRun (sub hT (by decide)) ?_
      assumption
    · refine follows_idleCells (sub hT (by decide)) ?_
      assumption
  clear_value s3
  extract_lets (merge := false) (underBinder := false) +onlyGivenNames j4_0 s4
  have hs4 : Follows T s0 s4 := by
    unfold s4
    refine upd_rdc (hT _ (by decide)) ?_
    assumption
  clear_value s4
  refine follows_voidRun (sub hT (by decide)) ?_
  assumption


theorem follows_revokeBay {T : Part → Bool} {s0 s : State} {a1 : Nat} (hT : ∀ p ∈ ([.bays, .ports, .spn, .cells, .axes, .rdc, .wrc, .cal] : List Part), T p = true) (h : Follows T s0 s) : Follows T s0 (revokeBay s a1) := by
  unfold revokeBay
  refine follows_revokeGrants (sub hT (by decide)) ?_
  refine follows_revokeGrants (sub hT (by decide)) ?_
  assumption


theorem follows_setResult {T : Part → Bool} {s0 s : State} {a1 : Nat} (hT : ∀ p ∈ ([.bnd] : List Part), T p = true) (h : Follows T s0 s) : Follows T s0 (setResult s a1) := by
  unfold setResult
  refine upd_bnd (hT _ (by decide)) rfl ?_
  assumption


theorem follows_dropWhere {T : Part → Bool} {s0 s : State} {a1 : Staged → Bool} (hT : ∀ p ∈ ([.bnd] : List Part), T p = true) (h : Follows T s0 s) : Follows T s0 (dropWhere s a1) := by
  unfold dropWhere
  extract_lets (merge := false) (underBinder := false) +onlyGivenNames s1
  have hs1 : Follows T s0 s1 := by
    unfold s1
    split
    · refine follows_dropStruct (sub hT (by decide)) ?_
      assumption
    · assumption
  clear_value s1
  split
  · refine follows_dropTrim (sub hT (by decide)) ?_
    assumption
  · assumption


theorem follows_withhold {T : Part → Bool} {s0 s : State} {a1 : Nat} {a2 : Nat} (hT : ∀ p ∈ ([.spn] : List Part), T p = true) (h : Follows T s0 s) : Follows T s0 (withhold s a1 a2) := by
  unfold withhold
  try extract_lets (merge := false) (underBinder := false) +onlyGivenNames p1
  try clear_value p1
  try extract_lets (merge := false) (underBinder := false) +onlyGivenNames under2
  try clear_value under2
  refine follows_setPair (sub hT (by decide)) ?_
  assumption


theorem follows_safeStop {T : Part → Bool} {s0 s : State} {a1 : Nat} {a2 : Bool} (hT : ∀ p ∈ ([.cnt, .bays, .ports, .spn, .out, .cells, .units, .axes, .rdc, .wrc, .cal, .hiu, .bdy] : List Part), T p = true) (h : Follows T s0 s) : Follows T s0 (safeStop s a1 a2) := by
  unfold safeStop
  try extract_lets (merge := false) (underBinder := false) +onlyGivenNames own1
  try clear_value own1
  extract_lets (merge := false) (underBinder := false) +onlyGivenNames s2
  have hs2 : Follows T s0 s2 := by
    unfold s2
    refine follows_forEach ?_ ?_
    · assumption
    · intro u3 a3 hu3
      refine follows_setCell (sub hT (by decide)) ?_
      assumption
  clear_value s2
  try extract_lets (merge := false) (underBinder := false) +onlyGivenNames u4
  try clear_value u4
  try extract_lets (merge := false) (underBinder := false) +onlyGivenNames u5
  try clear_value u5
  extract_lets (merge := false) (underBinder := false) +onlyGivenNames s6
  have hs6 : Follows T s0 s6 := by
    unfold s6
    refine follows_setUnit (sub hT (by decide)) ?_
    assumption
  clear_value s6
  extract_lets (merge := false) (underBinder := false) +onlyGivenNames s7
  have hs7 : Follows T s0 s7 := by
    unfold s7
    refine follows_forEach ?_ ?_
    · assumption
    · intro u8 a8 hu8
      refine follows_setAxis (sub hT (by decide)) ?_
      assumption
  clear_value s7
  try extract_lets (merge := false) (underBinder := false) +onlyGivenNames y9
  try clear_value y9
  try extract_lets (merge := false) (underBinder := false) +onlyGivenNames dropped10
  try clear_value dropped10
  extract_lets (merge := false) (underBinder := false) +onlyGivenNames s11
  have hs11 : Follows T s0 s11 := by
    unfold s11
    refine follows_setBay (sub hT (by decide)) ?_
    assumption
  clear_value s11
  extract_lets (merge := false) (underBinder := false) +onlyGivenNames s12
  have hs12 : Follows T s0 s12 := by
    unfold s12
    split
    · refine follows_countEvent (sub hT (by decide)) ?_
      assumption
    · assumption
  clear_value s12
  extract_lets (merge := false) (underBinder := false) +onlyGivenNames s13
  have hs13 : Follows T s0 s13 := by
    unfold s13
    split
    · refine follows_vendorEvent (sub hT (by decide)) ?_
      assumption
    · assumption
  clear_value s13
  refine follows_revokeBay (sub hT (by decide)) ?_
  assumption


theorem follows_stopBay {T : Part → Bool} {s0 s : State} {a1 : Nat} {a2 : Bool} (hT : ∀ p ∈ ([.free, .cnt, .bays, .ports, .spn, .out, .cells, .units, .axes, .rdc, .wrc, .cal, .qre, .hiu, .cph, .bdy] : List Part), T p = true) (h : Follows T s0 s) : Follows T s0 (stopBay s a1 a2) := by
  unfold stopBay
  split
  · assumption
  · refine follows_bayLost (sub hT (by decide)) ?_
    refine follows_safeStop (sub hT (by decide)) ?_
    assumption


theorem follows_cascadeBay {T : Part → Bool} {s0 s : State} {a1 : Nat} (hT : ∀ p ∈ ([.cnt, .cells] : List Part), T p = true) (h : Follows T s0 s) : Follows T s0 (cascadeBay s a1) := by
  unfold cascadeBay
  refine follows_cascade (sub hT (by decide)) ?_
  refine follows_cascade (sub hT (by decide)) ?_
  assumption


theorem follows_failCal {T : Part → Bool} {s0 s : State} {a1 : Nat} {a2 : Nat} {a3 : CalKind} (hT : ∀ p ∈ ([.cnt, .cal, .bdy] : List Part), T p = true) (h : Follows T s0 s) : Follows T s0 (failCal s a1 a2 a3) := by
  unfold failCal
  extract_lets (merge := false) (underBinder := false) +onlyGivenNames j1_0 s1
  have hs1 : Follows T s0 s1 := by
    unfold s1
    refine follows_setCal (sub hT (by decide)) ?_
    assumption
  clear_value s1
  refine follows_endJob (sub hT (by decide)) ?_
  refine follows_countEvent (sub hT (by decide)) ?_
  assumption


theorem follows_failRunning {T : Part → Bool} {s0 s : State} {a1 : Nat} (hT : ∀ p ∈ ([.cnt, .ports, .spn, .cells, .axes, .cal, .bdy] : List Part), T p = true) (h : Follows T s0 s) : Follows T s0 (failRunning s a1) := by
  unfold failRunning
  refine follows_foldl ?_ ?_
  · assumption
  · intro u1 a1 hu1
    refine follows_failCal (sub hT (by decide)) ?_
    refine follows_afterRun (sub hT (by decide)) ?_
    assumption


theorem follows_dropUnready {T : Part → Bool} {s0 s : State} {a1 : Nat} (hT : ∀ p ∈ ([.bays, .ports, .spn, .cells, .axes, .rdc, .wrc, .cal] : List Part), T p = true) (h : Follows T s0 s) : Follows T s0 (dropUnready s a1) := by
  unfold dropUnready
  split
  · split
    · refine follows_revokeGrants (sub hT (by decide)) ?_
      assumption
    · assumption
  · assumption


theorem follows_loseArmed {T : Part → Bool} {s0 s : State} (hT : ∀ p ∈ ([.bnd] : List Part), T p = true) (h : Follows T s0 s) : Follows T s0 (loseArmed s) := by
  unfold loseArmed
  split
  · refine follows_setResult (sub hT (by decide)) ?_
    refine follows_dropBoth (sub hT (by decide)) ?_
    assumption
  · assumption


theorem follows_dropBayReads {T : Part → Bool} {s0 s : State} {a1 : Nat} (hT : ∀ p ∈ ([.rdc] : List Part), T p = true) (h : Follows T s0 s) : Follows T s0 (dropBayReads s a1) := by
  unfold dropBayReads
  try extract_lets (merge := false) (underBinder := false) +onlyGivenNames gone1
  try clear_value gone1
  try extract_lets (merge := false) (underBinder := false) +onlyGivenNames inDec2
  try clear_value inDec2
  refine upd_rdc (hT _ (by decide)) ?_
  assumption


theorem follows_withholdAbsent {T : Part → Bool} {s0 s : State} {a1 : Nat} (hT : ∀ p ∈ ([.spn] : List Part), T p = true) (h : Follows T s0 s) : Follows T s0 (withholdAbsent s a1) := by
  unfold withholdAbsent
  try extract_lets (merge := false) (underBinder := false) +onlyGivenNames p1
  try clear_value p1
  split
  · assumption
  · extract_lets (merge := false) (underBinder := false) +onlyGivenNames s2
    have hs2 : Follows T s0 s2 := by
      unfold s2
      refine follows_setPair (sub hT (by decide)) ?_
      assumption
    clear_value s2
    split
    · refine follows_setPair (sub hT (by decide)) ?_
      assumption
    · refine follows_withhold (sub hT (by decide)) ?_
      assumption


end Sys2Proof.Machine
end

