-- ==== Sys2Proof/Laws/FollowsSpindleCmd.lean ====
section
/-! SUPPORT. What the operations of Machine/SpindleCmd.lean keep: the queue, the canonical form of the sorted stores, the ingest sequence. -/

namespace Sys2Proof.Machine

theorem follows_unitResult {T : Part → Bool} {s0 s : State} {a1 : Nat} {a2 : Nat} (hT : ∀ p ∈ ([.units] : List Part), T p = true) (h : Follows T s0 s) : Follows T s0 (unitResult s a1 a2) := by
  unfold unitResult
  refine follows_setUnit (sub hT (by decide)) ?_
  assumption


theorem follows_queueUnit {T : Part → Bool} {s0 s : State} {a1 : Nat} {a2 : Nat} {a3 : Nat} {a4 : Nat} (hT : ∀ p ∈ ([.spn, .units] : List Part), T p = true) (h : Follows T s0 s) : Follows T s0 (queueUnit s a1 a2 a3 a4) := by
  unfold queueUnit
  try extract_lets (merge := false) (underBinder := false) +onlyGivenNames u1
  try clear_value u1
  split
  · refine follows_unitResult (sub hT (by decide)) ?_
    assumption
  · split
    · refine follows_unitResult (sub hT (by decide)) ?_
      assumption
    · try extract_lets (merge := false) (underBinder := false) +onlyGivenNames e2
      try clear_value e2
      extract_lets (merge := false) (underBinder := false) +onlyGivenNames s3
      have hs3 : Follows T s0 s3 := by
        unfold s3
        refine follows_setUnit (sub hT (by decide)) ?_
        assumption
      clear_value s3
      split
      · refine follows_issue (sub hT (by decide)) ?_
        assumption
      · assumption


theorem follows_acceptUnit {T : Part → Bool} {s0 s : State} {a1 : Nat} {a2 : Src} {a3 : Nat} {a4 : Nat} (hT : ∀ p ∈ ([.spn, .units] : List Part), T p = true) (h : Follows T s0 s) : Follows T s0 (acceptUnit s a1 a2 a3 a4) := by
  unfold acceptUnit
  split
  · assumption
  · refine follows_queueUnit (sub hT (by decide)) ?_
    assumption


theorem follows_configWrite {T : Part → Bool} {s0 s : State} {a1 : Nat} {a2 : Nat} {a3 : QCmd} (hT : ∀ p ∈ ([.regs] : List Part), T p = true) (h : Follows T s0 s) : Follows T s0 (configWrite s a1 a2 a3) := by
  unfold configWrite
  split
  · exact h
  · refine follows_stores h rfl ?_ rfl rfl (frame_one (hT _ (by decide)) same_regs)
    rintro ⟨h1, h2⟩
    exact ⟨sortedT_ins h1, h2⟩


theorem follows_clearTrip {T : Part → Bool} {s0 s : State} {a1 : Nat} (hT : ∀ p ∈ ([.bus] : List Part), T p = true) (h : Follows T s0 s) : Follows T s0 (clearTrip s a1) := by
  unfold clearTrip
  refine upd_bus (hT _ (by decide)) ?_
  assumption


theorem follows_actUnit {T : Part → Bool} {s0 s : State} {a1 : Nat} {a2 : QCmd} (hT : ∀ p ∈ ([.regs, .cnt, .units, .bus] : List Part), T p = true) (h : Follows T s0 s) : Follows T s0 (actUnit s a1 a2) := by
  unfold actUnit
  try extract_lets (merge := false) (underBinder := false) +onlyGivenNames j1_0 u1
  try clear_value u1
  try extract_lets (merge := false) (underBinder := false) +onlyGivenNames p2
  try clear_value p2
  split
  · refine follows_configWrite (sub hT (by decide)) ?_
    refine follows_setUnit (sub hT (by decide)) ?_
    assumption
  · split
    · refine follows_setUnit (sub hT (by decide)) ?_
      assumption
    · split
      · try extract_lets (merge := false) (underBinder := false) +onlyGivenNames t3
        try clear_value t3
        extract_lets (merge := false) (underBinder := false) +onlyGivenNames s4
        have hs4 : Follows T s0 s4 := by
          unfold s4
          refine follows_setUnit (sub hT (by decide)) ?_
          assumption
        clear_value s4
        split
        · refine follows_bump (sub hT (by decide)) ?_
          assumption
        · assumption
      · split
        · refine follows_setUnit (sub hT (by decide)) ?_
          assumption
        · split
          · refine follows_setUnit (sub hT (by decide)) ?_
            assumption
          · refine follows_clearTrip (sub hT (by decide)) ?_
            refine follows_setUnit (sub hT (by decide)) ?_
            assumption


theorem follows_actUnitAll {T : Part → Bool} {s0 s : State} {a0 : Nat} {a2 : Nat} (hT : ∀ p ∈ ([.regs, .cnt, .units, .bus] : List Part), T p = true) (h : Follows T s0 s) : Follows T s0 (actUnitAll a0 s a2) := by
  induction a0 generalizing s with
  | zero => exact h
  | succ n ih =>
    simp only [actUnitAll]
    split
    · exact h
    · split
      · exact h
      · exact ih (follows_actUnit (sub hT (by decide)) h)


theorem follows_unitEffect {T : Part → Bool} {s0 s : State} {a1 : Nat} (hT : ∀ p ∈ ([.regs, .cnt, .units, .bus] : List Part), T p = true) (h : Follows T s0 s) : Follows T s0 (unitEffect s a1) := by
  unfold unitEffect
  split
  · refine follows_actUnitAll (sub hT (by decide)) ?_
    assumption
  · assumption


theorem follows_applyInertia {T : Part → Bool} {s0 s : State} {a1 : Nat} (hT : ∀ p ∈ ([.spn, .units] : List Part), T p = true) (h : Follows T s0 s) : Follows T s0 (applyInertia s a1) := by
  unfold applyInertia
  try extract_lets (merge := false) (underBinder := false) +onlyGivenNames u1
  try clear_value u1
  split
  · split
    · try extract_lets (merge := false) (underBinder := false) +onlyGivenNames v2
      try clear_value v2
      try extract_lets (merge := false) (underBinder := false) +onlyGivenNames e3
      try clear_value e3
      extract_lets (merge := false) (underBinder := false) +onlyGivenNames s4
      have hs4 : Follows T s0 s4 := by
        unfold s4
        refine follows_setUnit (sub hT (by decide)) ?_
        assumption
      clear_value s4
      split
      · refine follows_issue (sub hT (by decide)) ?_
        assumption
      · assumption
    · assumption
  · assumption


theorem follows_blockGroup {T : Part → Bool} {s0 s : State} {a1 : Nat} (hT : ∀ p ∈ ([.cnt, .units, .bus] : List Part), T p = true) (h : Follows T s0 s) : Follows T s0 (blockGroup s a1) := by
  unfold blockGroup
  extract_lets (merge := false) (underBinder := false) +onlyGivenNames s1
  have hs1 : Follows T s0 s1 := by
    unfold s1
    split
    · assumption
    · refine follows_bump (sub hT (by decide)) ?_
      assumption
  clear_value s1
  extract_lets (merge := false) (underBinder := false) +onlyGivenNames j2_0 s2
  have hs2 : Follows T s0 s2 := by
    unfold s2
    refine upd_bus (hT _ (by decide)) ?_
    assumption
  clear_value s2
  refine follows_foldl ?_ ?_
  · assumption
  · intro u4 a4 hu4
    try extract_lets (merge := false) (underBinder := false) +onlyGivenNames u3
    try clear_value u3
    split
    · refine follows_setUnit (sub hT (by decide)) ?_
      assumption
    · assumption


theorem follows_busFrame {T : Part → Bool} {s0 s : State} {a1 : Nat} {a2 : SampleFrame} (hT : ∀ p ∈ ([.cnt, .units, .bus] : List Part), T p = true) (h : Follows T s0 s) : Follows T s0 (busFrame s a1 a2) := by
  unfold busFrame
  try extract_lets (merge := false) (underBinder := false) +onlyGivenNames v1
  try clear_value v1
  try extract_lets (merge := false) (underBinder := false) +onlyGivenNames fl2
  try clear_value fl2
  try extract_lets (merge := false) (underBinder := false) +onlyGivenNames sus3
  try clear_value sus3
  try extract_lets (merge := false) (underBinder := false) +onlyGivenNames trip4
  try clear_value trip4
  try extract_lets (merge := false) (underBinder := false) +onlyGivenNames fine5
  try clear_value fine5
  extract_lets (merge := false) (underBinder := false) +onlyGivenNames j6_0 s6
  have hs6 : Follows T s0 s6 := by
    unfold s6
    refine upd_bus (hT _ (by decide)) ?_
    assumption
  clear_value s6
  split
  · refine follows_blockGroup (sub hT (by decide)) ?_
    assumption
  · assumption


theorem follows_flyleafGains {T : Part → Bool} {s0 s : State} {a1 : Nat} (hT : ∀ p ∈ ([.spn, .units] : List Part), T p = true) (h : Follows T s0 s) : Follows T s0 (flyleafGains s a1) := by
  unfold flyleafGains
  try extract_lets (merge := false) (underBinder := false) +onlyGivenNames u1
  try clear_value u1
  split
  · refine follows_setUnit (sub hT (by decide)) ?_
    assumption
  · extract_lets (merge := false) (underBinder := false) +onlyGivenNames s2
    have hs2 : Follows T s0 s2 := by
      unfold s2
      refine follows_queueUnit (sub hT (by decide)) ?_
      refine follows_setUnit (sub hT (by decide)) ?_
      assumption
    clear_value s2
    split
    · refine follows_setUnit (sub hT (by decide)) ?_
      assumption
    · assumption


theorem follows_stageFault {T : Part → Bool} {s0 s : State} {a1 : Nat} {a2 : SampleFrame} (hT : ∀ p ∈ ([.free, .cnt, .bays, .ports, .spn, .out, .cells, .units, .axes, .rdc, .wrc, .cal, .qre, .hiu, .cph, .bdy] : List Part), T p = true) (h : Follows T s0 s) : Follows T s0 (stageFault s a1 a2) := by
  unfold stageFault
  try extract_lets (merge := false) (underBinder := false) +onlyGivenNames fl1
  try clear_value fl1
  try extract_lets (merge := false) (underBinder := false) +onlyGivenNames u2
  try clear_value u2
  split
  · refine follows_stopBay (sub hT (by decide)) ?_
    refine follows_event (sub hT (by decide)) ?_
    refine follows_setUnit (sub hT (by decide)) ?_
    assumption
  · assumption


theorem follows_execSpdStart {T : Part → Bool} {s0 s : State} {a0 : Fin 8} {a1 : Src} {a2 : BitVec 13} (hT : ∀ p ∈ ([.spn, .units] : List Part), T p = true) (h : Follows T s0 s) : Answers (Follows T s0) (execSpdStart a0 a1 a2 s) := by
  unfold execSpdStart
  refine ⟨_, rfl, ?_⟩
  refine follows_acceptUnit (sub hT (by decide)) ?_
  assumption


theorem follows_execSpdStop {T : Part → Bool} {s0 s : State} {a0 : Fin 8} {a1 : Src} {a2 : Bool} (hT : ∀ p ∈ ([.spn, .units] : List Part), T p = true) (h : Follows T s0 s) : Answers (Follows T s0) (execSpdStop a0 a1 a2 s) := by
  unfold execSpdStop
  refine ⟨_, rfl, ?_⟩
  refine follows_acceptUnit (sub hT (by decide)) ?_
  assumption


theorem follows_execSpdSpeed {T : Part → Bool} {s0 s : State} {a0 : Fin 8} {a1 : Src} {a2 : BitVec 13} (hT : ∀ p ∈ ([.spn, .units] : List Part), T p = true) (h : Follows T s0 s) : Answers (Follows T s0) (execSpdSpeed a0 a1 a2 s) := by
  unfold execSpdSpeed
  refine ⟨_, rfl, ?_⟩
  refine follows_acceptUnit (sub hT (by decide)) ?_
  assumption


theorem follows_execSpdClear {T : Part → Bool} {s0 s : State} {a0 : Fin 8} {a1 : Src} (hT : ∀ p ∈ ([.spn, .units] : List Part), T p = true) (h : Follows T s0 s) : Answers (Follows T s0) (execSpdClear a0 a1 s) := by
  unfold execSpdClear
  refine ⟨_, rfl, ?_⟩
  refine follows_acceptUnit (sub hT (by decide)) ?_
  assumption


theorem follows_execSenseComplete {T : Part → Bool} {s0 s : State} {a0 : Fin 8} (hT : ∀ p ∈ ([.cnt, .units] : List Part), T p = true) (h : Follows T s0 s) : Answers (Follows T s0) (execSenseComplete a0 s) := by
  unfold execSenseComplete
  try extract_lets (merge := false) (underBinder := false) +onlyGivenNames u1
  try clear_value u1
  try extract_lets (merge := false) (underBinder := false) +onlyGivenNames p2
  try clear_value p2
  split
  · refine ⟨_, rfl, ?_⟩
    assumption
  · try extract_lets (merge := false) (underBinder := false) +onlyGivenNames w3
    try clear_value w3
    try extract_lets (merge := false) (underBinder := false) +onlyGivenNames r4
    try clear_value r4
    split
    · refine ⟨_, rfl, ?_⟩
      refine follows_setUnit (sub hT (by decide)) ?_
      assumption
    · split
      · refine ⟨_, rfl, ?_⟩
        refine follows_bump (sub hT (by decide)) ?_
        refine follows_setUnit (sub hT (by decide)) ?_
        assumption
      · split
        · refine ⟨_, rfl, ?_⟩
          refine follows_setUnit (sub hT (by decide)) ?_
          assumption
        · refine ⟨_, rfl, ?_⟩
          refine follows_setUnit (sub hT (by decide)) ?_
          assumption


theorem follows_execAlignComplete {T : Part → Bool} {s0 s : State} {a0 : Fin 8} (hT : ∀ p ∈ ([.units] : List Part), T p = true) (h : Follows T s0 s) : Answers (Follows T s0) (execAlignComplete a0 s) := by
  unfold execAlignComplete
  try extract_lets (merge := false) (underBinder := false) +onlyGivenNames u1
  try clear_value u1
  split
  · refine ⟨_, rfl, ?_⟩
    refine follows_setUnit (sub hT (by decide)) ?_
    assumption
  · refine ⟨_, rfl, ?_⟩
    assumption


theorem follows_execRampTimeout {T : Part → Bool} {s0 s : State} {a0 : Fin 8} (hT : ∀ p ∈ ([.free, .cnt, .bays, .ports, .out, .units, .rdc, .wrc, .cal, .qre, .hiu, .cph, .bdy] : List Part), T p = true) (h : Follows T s0 s) : Answers (Follows T s0) (execRampTimeout a0 s) := by
  unfold execRampTimeout
  try extract_lets (merge := false) (underBinder := false) +onlyGivenNames u1
  try clear_value u1
  split
  · refine ⟨_, rfl, ?_⟩
    assumption
  · split
    · refine ⟨_, rfl, ?_⟩
      refine follows_bump (sub hT (by decide)) ?_
      refine follows_setUnit (sub hT (by decide)) ?_
      assumption
    · extract_lets (merge := false) (underBinder := false) +onlyGivenNames s2
      have hs2 : Follows T s0 s2 := by
        unfold s2
        refine follows_event (sub hT (by decide)) ?_
        assumption
      clear_value s2
      refine ⟨_, rfl, ?_⟩
      refine follows_bayLost (sub hT (by decide)) ?_
      refine follows_setUnit (sub hT (by decide)) ?_
      assumption


theorem follows_execStartBrakeEnd {T : Part → Bool} {s0 s : State} {a0 : Fin 8} (hT : ∀ p ∈ ([.units] : List Part), T p = true) (h : Follows T s0 s) : Answers (Follows T s0) (execStartBrakeEnd a0 s) := by
  unfold execStartBrakeEnd
  dsimp only
  split
  · exact ⟨_, rfl, h⟩
  · split
    · exact ⟨_, rfl, h⟩
    · rename_i a _
      by_cases hc : (if a = 1 then 75000 else 125000) ≤ (unitAt s a0).timer
      · rw [if_pos hc]; exact ⟨_, rfl, follows_setUnit (sub hT (by decide)) h⟩
      · rw [if_neg hc]; exact ⟨_, rfl, h⟩
    · split
      · exact ⟨_, rfl, follows_setUnit (sub hT (by decide)) h⟩
      · exact ⟨_, rfl, h⟩


theorem follows_execBackwardBrakeTimeout {T : Part → Bool} {s0 s : State} {a0 : Fin 8} (hT : ∀ p ∈ ([.free, .cnt, .bays, .ports, .out, .units, .rdc, .wrc, .cal, .qre, .hiu, .cph, .bdy] : List Part), T p = true) (h : Follows T s0 s) : Answers (Follows T s0) (execBackwardBrakeTimeout a0 s) := by
  unfold execBackwardBrakeTimeout
  try extract_lets (merge := false) (underBinder := false) +onlyGivenNames u1
  try clear_value u1
  split
  · refine ⟨_, rfl, ?_⟩
    refine follows_bayLost (sub hT (by decide)) ?_
    refine follows_event (sub hT (by decide)) ?_
    refine follows_setUnit (sub hT (by decide)) ?_
    assumption
  · refine ⟨_, rfl, ?_⟩
    assumption


theorem follows_execLossOfSync {T : Part → Bool} {s0 s : State} {a0 : Fin 8} (hT : ∀ p ∈ ([.free, .cnt, .bays, .ports, .spn, .out, .cells, .units, .axes, .rdc, .wrc, .cal, .qre, .hiu, .cph, .bdy] : List Part), T p = true) (h : Follows T s0 s) : Answers (Follows T s0) (execLossOfSync a0 s) := by
  unfold execLossOfSync
  try extract_lets (merge := false) (underBinder := false) +onlyGivenNames u1
  try clear_value u1
  split
  · refine ⟨_, rfl, ?_⟩
    assumption
  · try extract_lets (merge := false) (underBinder := false) +onlyGivenNames again2
    try clear_value again2
    extract_lets (merge := false) (underBinder := false) +onlyGivenNames s3
    have hs3 : Follows T s0 s3 := by
      unfold s3
      refine follows_countEvent (sub hT (by decide)) ?_
      assumption
    clear_value s3
    try extract_lets (merge := false) (underBinder := false) +onlyGivenNames u4
    try clear_value u4
    split
    · refine ⟨_, rfl, ?_⟩
      refine follows_bayLost (sub hT (by decide)) ?_
      refine follows_revokeBay (sub hT (by decide)) ?_
      refine follows_setUnit (sub hT (by decide)) ?_
      assumption
    · refine ⟨_, rfl, ?_⟩
      refine follows_revokeBay (sub hT (by decide)) ?_
      refine follows_setUnit (sub hT (by decide)) ?_
      assumption


theorem follows_execSpindleLock {T : Part → Bool} {s0 s : State} {a0 : Fin 8} (hT : ∀ p ∈ ([.spn, .units] : List Part), T p = true) (h : Follows T s0 s) : Answers (Follows T s0) (execSpindleLock a0 s) := by
  unfold execSpindleLock
  try extract_lets (merge := false) (underBinder := false) +onlyGivenNames u1
  try clear_value u1
  split
  · refine ⟨_, rfl, ?_⟩
    refine follows_applyInertia (sub hT (by decide)) ?_
    refine follows_setUnit (sub hT (by decide)) ?_
    assumption
  · refine ⟨_, rfl, ?_⟩
    assumption


theorem follows_execSpindleUnlock {T : Part → Bool} {s0 s : State} {a0 : Fin 8} (hT : ∀ p ∈ ([.bays, .ports, .spn, .cells, .units, .axes, .rdc, .wrc, .cal] : List Part), T p = true) (h : Follows T s0 s) : Answers (Follows T s0) (execSpindleUnlock a0 s) := by
  unfold execSpindleUnlock
  try extract_lets (merge := false) (underBinder := false) +onlyGivenNames u1
  try clear_value u1
  split
  · refine ⟨_, rfl, ?_⟩
    refine follows_revokeBay (sub hT (by decide)) ?_
    refine follows_setUnit (sub hT (by decide)) ?_
    assumption
  · refine ⟨_, rfl, ?_⟩
    assumption


theorem follows_execOverspeedFault {T : Part → Bool} {s0 s : State} {a0 : Fin 8} (hT : ∀ p ∈ ([.free, .cnt, .bays, .ports, .spn, .out, .cells, .units, .axes, .rdc, .wrc, .cal, .qre, .hiu, .cph, .bdy] : List Part), T p = true) (h : Follows T s0 s) : Answers (Follows T s0) (execOverspeedFault a0 s) := by
  unfold execOverspeedFault
  try extract_lets (merge := false) (underBinder := false) +onlyGivenNames u1
  try clear_value u1
  split
  · refine ⟨_, rfl, ?_⟩
    assumption
  · extract_lets (merge := false) (underBinder := false) +onlyGivenNames s2
    have hs2 : Follows T s0 s2 := by
      unfold s2
      refine follows_countEvent (sub hT (by decide)) ?_
      assumption
    clear_value s2
    refine ⟨_, rfl, ?_⟩
    refine follows_stopBay (sub hT (by decide)) ?_
    refine follows_setUnit (sub hT (by decide)) ?_
    assumption


theorem follows_execStandstill {T : Part → Bool} {s0 s : State} {a0 : Fin 8} (hT : ∀ p ∈ ([.units] : List Part), T p = true) (h : Follows T s0 s) : Answers (Follows T s0) (execStandstill a0 s) := by
  unfold execStandstill
  try extract_lets (merge := false) (underBinder := false) +onlyGivenNames u1
  try clear_value u1
  split
  · refine ⟨_, rfl, ?_⟩
    assumption
  · split
    · refine ⟨_, rfl, ?_⟩
      refine follows_setUnit (sub hT (by decide)) ?_
      assumption
    · split
      · refine ⟨_, rfl, ?_⟩
        assumption
      · refine ⟨_, rfl, ?_⟩
        refine follows_setUnit (sub hT (by decide)) ?_
        assumption
    · refine ⟨_, rfl, ?_⟩
      assumption


theorem follows_execShortBrakeComplete {T : Part → Bool} {s0 s : State} {a0 : Fin 8} (hT : ∀ p ∈ ([.units] : List Part), T p = true) (h : Follows T s0 s) : Answers (Follows T s0) (execShortBrakeComplete a0 s) := by
  unfold execShortBrakeComplete
  try extract_lets (merge := false) (underBinder := false) +onlyGivenNames u1
  try clear_value u1
  split
  · refine ⟨_, rfl, ?_⟩
    refine follows_setUnit (sub hT (by decide)) ?_
    assumption
  · refine ⟨_, rfl, ?_⟩
    assumption


theorem follows_execBusBlockClear {T : Part → Bool} {s0 s : State} {a0 : Fin 8} (hT : ∀ p ∈ ([.bus] : List Part), T p = true) (h : Follows T s0 s) : Answers (Follows T s0) (execBusBlockClear a0 s) := by
  unfold execBusBlockClear
  split
  · refine ⟨_, rfl, ?_⟩
    refine upd_bus (hT _ (by decide)) ?_
    assumption
  · refine ⟨_, rfl, ?_⟩
    assumption


theorem follows_execBusTrip {T : Part → Bool} {s0 s : State} {a0 : Fin 8} (hT : ∀ p ∈ ([.free, .cnt, .bays, .ports, .spn, .out, .cells, .units, .bus, .axes, .rdc, .wrc, .cal, .qre, .hiu, .cph, .bdy] : List Part), T p = true) (h : Follows T s0 s) : Answers (Follows T s0) (execBusTrip a0 s) := by
  unfold execBusTrip
  try extract_lets (merge := false) (underBinder := false) +onlyGivenNames n1
  try clear_value n1
  split
  · extract_lets (merge := false) (underBinder := false) +onlyGivenNames s2
    have hs2 : Follows T s0 s2 := by
      unfold s2
      refine follows_countEvent (sub hT (by decide)) ?_
      assumption
    clear_value s2
    extract_lets (merge := false) (underBinder := false) +onlyGivenNames j3_0 s3
    have hs3 : Follows T s0 s3 := by
      unfold s3
      refine upd_bus (hT _ (by decide)) ?_
      assumption
    clear_value s3
    refine ⟨_, rfl, ?_⟩
    refine follows_foldl ?_ ?_
    · assumption
    · intro u6 a6 hu6
      try extract_lets (merge := false) (underBinder := false) +onlyGivenNames u4
      try clear_value u4
      extract_lets (merge := false) (underBinder := false) +onlyGivenNames s5
      have hs5 : Follows T s0 s5 := by
        unfold s5
        split
        · refine follows_countEvent (sub hT (by decide)) ?_
          assumption
        · assumption
      clear_value s5
      refine follows_stopBay (sub hT (by decide)) ?_
      refine follows_setUnit (sub hT (by decide)) ?_
      assumption
  · refine ⟨_, rfl, ?_⟩
    assumption


theorem follows_execInertiaMeasured {T : Part → Bool} {s0 s : State} {a0 : Fin 8} (hT : ∀ p ∈ ([.spn, .units] : List Part), T p = true) (h : Follows T s0 s) : Answers (Follows T s0) (execInertiaMeasured a0 s) := by
  unfold execInertiaMeasured
  try extract_lets (merge := false) (underBinder := false) +onlyGivenNames u1
  try clear_value u1
  try extract_lets (merge := false) (underBinder := false) +onlyGivenNames acc2
  try clear_value acc2
  split
  · refine ⟨_, rfl, ?_⟩
    assumption
  · try extract_lets (merge := false) (underBinder := false) +onlyGivenNames first3
    try clear_value first3
    try extract_lets (merge := false) (underBinder := false) +onlyGivenNames second4
    try clear_value second4
    split
    · refine ⟨_, rfl, ?_⟩
      assumption
    · split
      · refine ⟨_, rfl, ?_⟩
        refine follows_applyInertia (sub hT (by decide)) ?_
        refine follows_setUnit (sub hT (by decide)) ?_
        assumption
      · refine ⟨_, rfl, ?_⟩
        refine follows_setUnit (sub hT (by decide)) ?_
        assumption


end Sys2Proof.Machine
end

