-- ==== Sys2Proof/Laws/FollowsMotionCmd.lean ====
section
/-! SUPPORT. What the operations of Machine/MotionCmd.lean keep: the queue, the canonical form of the sorted stores, the ingest sequence. -/

namespace Sys2Proof.Machine

theorem follows_acceptAxis {T : Part → Bool} {s0 s : State} {a1 : Nat} {a2 : Src} {a3 : Nat} {a4 : Nat} (hT : ∀ p ∈ ([.spn, .axes] : List Part), T p = true) (h : Follows T s0 s) : Follows T s0 (acceptAxis s a1 a2 a3 a4) := by
  unfold acceptAxis
  split
  · assumption
  · refine follows_queueAxis (sub hT (by decide)) ?_
    assumption


theorem follows_actAxis {T : Part → Bool} {s0 s : State} {a1 : Nat} {a2 : QCmd} (hT : ∀ p ∈ ([.regs, .cnt, .axes] : List Part), T p = true) (h : Follows T s0 s) : Follows T s0 (actAxis s a1 a2) := by
  unfold actAxis
  try extract_lets (merge := false) (underBinder := false) +onlyGivenNames j1_0 a1
  try clear_value a1
  split
  · refine follows_configWrite (sub hT (by decide)) ?_
    refine follows_setAxis (sub hT (by decide)) ?_
    assumption
  · try extract_lets (merge := false) (underBinder := false) +onlyGivenNames a'2
    try clear_value a'2
    extract_lets (merge := false) (underBinder := false) +onlyGivenNames s3
    have hs3 : Follows T s0 s3 := by
      unfold s3
      refine follows_setAxis (sub hT (by decide)) ?_
      assumption
    clear_value s3
    split
    · refine follows_bump (sub hT (by decide)) ?_
      assumption
    · assumption


theorem follows_actAxisAll {T : Part → Bool} {s0 s : State} {a0 : Nat} {a2 : Nat} (hT : ∀ p ∈ ([.regs, .cnt, .axes] : List Part), T p = true) (h : Follows T s0 s) : Follows T s0 (actAxisAll a0 s a2) := by
  induction a0 generalizing s with
  | zero => exact h
  | succ n ih =>
    simp only [actAxisAll]
    split
    · exact h
    · split
      · exact h
      · exact ih (follows_actAxis (sub hT (by decide)) h)


theorem follows_axisEffect {T : Part → Bool} {s0 s : State} {a1 : Nat} (hT : ∀ p ∈ ([.regs, .cnt, .axes] : List Part), T p = true) (h : Follows T s0 s) : Follows T s0 (axisEffect s a1) := by
  unfold axisEffect
  split
  · refine follows_actAxisAll (sub hT (by decide)) ?_
    assumption
  · assumption


theorem follows_homeInput {T : Part → Bool} {s0 s : State} {a1 : Nat} {a2 : Half} (hT : ∀ p ∈ ([.cnt, .axes] : List Part), T p = true) (h : Follows T s0 s) : Follows T s0 (homeInput s a1 a2) := by
  unfold homeInput
  try extract_lets (merge := false) (underBinder := false) +onlyGivenNames a1
  try clear_value a1
  split
  · assumption
  · split
    · split
      · refine follows_setAxis (sub hT (by decide)) ?_
        assumption
      · assumption
    · split
      · assumption
      · refine follows_bump (sub hT (by decide)) ?_
        refine follows_setAxis (sub hT (by decide)) ?_
        assumption


theorem follows_noteChange {T : Part → Bool} {s0 s : State} {a1 : Nat} {a2 : Nat} (hT : ∀ p ∈ ([.cnt, .axes] : List Part), T p = true) (h : Follows T s0 s) : Follows T s0 (noteChange s a1 a2) := by
  unfold noteChange
  try extract_lets (merge := false) (underBinder := false) +onlyGivenNames a1
  try clear_value a1
  extract_lets (merge := false) (underBinder := false) +onlyGivenNames s2
  have hs2 : Follows T s0 s2 := by
    unfold s2
    refine follows_setAxis (sub hT (by decide)) ?_
    assumption
  clear_value s2
  extract_lets (merge := false) (underBinder := false) +onlyGivenNames s3
  have hs3 : Follows T s0 s3 := by
    unfold s3
    split
    · refine follows_bump (sub hT (by decide)) ?_
      assumption
    · assumption
  clear_value s3
  split
  · refine follows_bump (sub hT (by decide)) ?_
    assumption
  · split
    · assumption
    · refine follows_bump (sub hT (by decide)) ?_
      assumption


theorem follows_limitInput {T : Part → Bool} {s0 s : State} {a1 : Nat} {a2 : Half} (hT : ∀ p ∈ ([.cnt, .axes] : List Part), T p = true) (h : Follows T s0 s) : Follows T s0 (limitInput s a1 a2) := by
  unfold limitInput
  try extract_lets (merge := false) (underBinder := false) +onlyGivenNames a1
  try clear_value a1
  try extract_lets (merge := false) (underBinder := false) +onlyGivenNames m2
  try clear_value m2
  try extract_lets (merge := false) (underBinder := false) +onlyGivenNames hit3
  try clear_value hit3
  split
  · assumption
  · try extract_lets (merge := false) (underBinder := false) +onlyGivenNames f4
    try clear_value f4
    extract_lets (merge := false) (underBinder := false) +onlyGivenNames s5
    have hs5 : Follows T s0 s5 := by
      unfold s5
      refine follows_bump (sub hT (by decide)) ?_
      assumption
    clear_value s5
    split
    · refine follows_setAxis (sub hT (by decide)) ?_
      assumption
    · refine follows_noteChange (sub hT (by decide)) ?_
      refine follows_setAxis (sub hT (by decide)) ?_
      assumption


theorem follows_powerInput {T : Part → Bool} {s0 s : State} {a1 : Nat} {a2 : Half} (hT : ∀ p ∈ ([.cnt, .axes] : List Part), T p = true) (h : Follows T s0 s) : Follows T s0 (powerInput s a1 a2) := by
  unfold powerInput
  try extract_lets (merge := false) (underBinder := false) +onlyGivenNames a1
  try clear_value a1
  try extract_lets (merge := false) (underBinder := false) +onlyGivenNames m2
  try clear_value m2
  split
  · split
    · assumption
    · refine follows_noteChange (sub hT (by decide)) ?_
      assumption
  · split
    · split
      · assumption
      · split
        · refine follows_noteChange (sub hT (by decide)) ?_
          assumption
        · refine follows_noteChange (sub hT (by decide)) ?_
          assumption
    · split
      · split
        · assumption
        · split
          · refine follows_noteChange (sub hT (by decide)) ?_
            assumption
          · refine follows_noteChange (sub hT (by decide)) ?_
            assumption
      · split
        · refine follows_noteChange (sub hT (by decide)) ?_
          assumption
        · assumption


theorem follows_axisInput {T : Part → Bool} {s0 s : State} {a1 : Nat} {a2 : Half} (hT : ∀ p ∈ ([.cnt, .axes] : List Part), T p = true) (h : Follows T s0 s) : Follows T s0 (axisInput s a1 a2) := by
  unfold axisInput
  try extract_lets (merge := false) (underBinder := false) +onlyGivenNames a1
  try clear_value a1
  extract_lets (merge := false) (underBinder := false) +onlyGivenNames s2
  have hs2 : Follows T s0 s2 := by
    unfold s2
    refine follows_setAxis (sub hT (by decide)) ?_
    assumption
  clear_value s2
  refine follows_homeInput (sub hT (by decide)) ?_
  refine follows_limitInput (sub hT (by decide)) ?_
  refine follows_powerInput (sub hT (by decide)) ?_
  assumption


theorem follows_execHomingTimeout {T : Part → Bool} {s0 s : State} {a0 : Fin 32} (hT : ∀ p ∈ ([.cnt, .axes] : List Part), T p = true) (h : Follows T s0 s) : Answers (Follows T s0) (execHomingTimeout a0 s) := by
  unfold execHomingTimeout
  try extract_lets (merge := false) (underBinder := false) +onlyGivenNames a1
  try clear_value a1
  try extract_lets (merge := false) (underBinder := false) +onlyGivenNames m2
  try clear_value m2
  split
  · refine ⟨_, rfl, ?_⟩
    refine follows_bump (sub hT (by decide)) ?_
    refine follows_setAxis (sub hT (by decide)) ?_
    assumption
  · refine ⟨_, rfl, ?_⟩
    assumption


theorem follows_execFollowMoveStart {T : Part → Bool} {s0 s : State} {a0 : Fin 16} (hT : ∀ p ∈ ([.cnt, .axes] : List Part), T p = true) (h : Follows T s0 s) : Answers (Follows T s0) (execFollowMoveStart a0 s) := by
  unfold execFollowMoveStart
  try extract_lets (merge := false) (underBinder := false) +onlyGivenNames a1
  try clear_value a1
  try extract_lets (merge := false) (underBinder := false) +onlyGivenNames m2
  try clear_value m2
  split
  · refine ⟨_, rfl, ?_⟩
    refine follows_bump (sub hT (by decide)) ?_
    refine follows_setAxis (sub hT (by decide)) ?_
    assumption
  · refine ⟨_, rfl, ?_⟩
    assumption


theorem follows_followCount {T : Part → Bool} {s0 s : State} {a1 : Nat} (hT : ∀ p ∈ ([.axes] : List Part), T p = true) (h : Follows T s0 s) : Follows T s0 (followCount s a1) := by
  unfold followCount
  try extract_lets (merge := false) (underBinder := false) +onlyGivenNames a1
  try clear_value a1
  try extract_lets (merge := false) (underBinder := false) +onlyGivenNames m2
  try clear_value m2
  split
  · assumption
  · try extract_lets (merge := false) (underBinder := false) +onlyGivenNames c3
    try clear_value c3
    split
    · assumption
    · split
      · try extract_lets (merge := false) (underBinder := false) +onlyGivenNames neg4
        try clear_value neg4
        refine follows_setAxis (sub hT (by decide)) ?_
        assumption
      · refine follows_setAxis (sub hT (by decide)) ?_
        assumption


theorem follows_execMotMove {T : Part → Bool} {s0 s : State} {a0 : Fin 32} {a1 : Src} {a2 : BitVec 20} (hT : ∀ p ∈ ([.spn, .axes] : List Part), T p = true) (h : Follows T s0 s) : Answers (Follows T s0) (execMotMove a0 a1 a2 s) := by
  unfold execMotMove
  refine ⟨_, rfl, ?_⟩
  refine follows_acceptAxis (sub hT (by decide)) ?_
  assumption


theorem follows_execMotRampStop {T : Part → Bool} {s0 s : State} {a0 : Fin 32} {a1 : Src} (hT : ∀ p ∈ ([.spn, .axes] : List Part), T p = true) (h : Follows T s0 s) : Answers (Follows T s0) (execMotRampStop a0 a1 s) := by
  unfold execMotRampStop
  refine ⟨_, rfl, ?_⟩
  refine follows_acceptAxis (sub hT (by decide)) ?_
  assumption


theorem follows_execMotHardStop {T : Part → Bool} {s0 s : State} {a0 : Fin 32} {a1 : Src} (hT : ∀ p ∈ ([.spn, .axes] : List Part), T p = true) (h : Follows T s0 s) : Answers (Follows T s0) (execMotHardStop a0 a1 s) := by
  unfold execMotHardStop
  refine ⟨_, rfl, ?_⟩
  refine follows_acceptAxis (sub hT (by decide)) ?_
  assumption


theorem follows_execMotHome {T : Part → Bool} {s0 s : State} {a0 : Fin 32} {a1 : Src} (hT : ∀ p ∈ ([.spn, .axes] : List Part), T p = true) (h : Follows T s0 s) : Answers (Follows T s0) (execMotHome a0 a1 s) := by
  unfold execMotHome
  refine ⟨_, rfl, ?_⟩
  refine follows_acceptAxis (sub hT (by decide)) ?_
  assumption


theorem follows_execMotRelease {T : Part → Bool} {s0 s : State} {a0 : Fin 32} {a1 : Src} (hT : ∀ p ∈ ([.spn, .axes] : List Part), T p = true) (h : Follows T s0 s) : Answers (Follows T s0) (execMotRelease a0 a1 s) := by
  unfold execMotRelease
  refine ⟨_, rfl, ?_⟩
  refine follows_acceptAxis (sub hT (by decide)) ?_
  assumption


theorem follows_execMotEnergise {T : Part → Bool} {s0 s : State} {a0 : Fin 32} {a1 : Src} (hT : ∀ p ∈ ([.spn, .axes] : List Part), T p = true) (h : Follows T s0 s) : Answers (Follows T s0) (execMotEnergise a0 a1 s) := by
  unfold execMotEnergise
  refine ⟨_, rfl, ?_⟩
  refine follows_acceptAxis (sub hT (by decide)) ?_
  assumption


theorem follows_execMotClear {T : Part → Bool} {s0 s : State} {a0 : Fin 32} {a1 : Src} (hT : ∀ p ∈ ([.spn, .axes] : List Part), T p = true) (h : Follows T s0 s) : Answers (Follows T s0) (execMotClear a0 a1 s) := by
  unfold execMotClear
  refine ⟨_, rfl, ?_⟩
  refine follows_acceptAxis (sub hT (by decide)) ?_
  assumption


end Sys2Proof.Machine
end

