-- ==== Sys2Proof/Laws/FollowsServoCmd.lean ====
section
/-! SUPPORT. What the operations of Machine/ServoCmd.lean keep: the queue, the canonical form of the sorted stores, the ingest sequence. -/

namespace Sys2Proof.Machine

theorem follows_acceptCell {T : Part → Bool} {s0 s : State} {a1 : Nat} {a2 : Src} {a3 : Nat} {a4 : Nat} {a5 : Bool} (hT : ∀ p ∈ ([.spn, .cells] : List Part), T p = true) (h : Follows T s0 s) : Follows T s0 (acceptCell s a1 a2 a3 a4 a5) := by
  unfold acceptCell
  split
  · assumption
  · refine follows_queueCell (sub hT (by decide)) ?_
    assumption


theorem follows_aimSeek {T : Part → Bool} {s0 s : State} {a1 : Nat} {a2 : Int} (hT : ∀ p ∈ ([.ports] : List Part), T p = true) (h : Follows T s0 s) : Follows T s0 (aimSeek s a1 a2) := by
  unfold aimSeek
  try extract_lets (merge := false) (underBinder := false) +onlyGivenNames p1
  try clear_value p1
  split
  · refine follows_setPort (sub hT (by decide)) ?_
    assumption
  · assumption


theorem follows_actCell {T : Part → Bool} {s0 s : State} {a1 : Nat} {a2 : QCmd} (hT : ∀ p ∈ ([.cnt, .ports, .cells] : List Part), T p = true) (h : Follows T s0 s) : FollowsOpt T s0 (actCell s a1 a2) := by
  unfold actCell
  try extract_lets (merge := false) (underBinder := false) +onlyGivenNames c1
  try clear_value c1
  try extract_lets (merge := false) (underBinder := false) +onlyGivenNames done2
  have hfndone : ∀  u, Follows T s0 u → Follows T s0 (done2 u) := by
    intro  u hu
    unfold done2
    try extract_lets (merge := false) (underBinder := false) +onlyGivenNames d3
    try clear_value d3
    refine follows_setCell (sub hT (by decide)) ?_
    assumption
  try clear_value done2
  try extract_lets (merge := false) (underBinder := false) +onlyGivenNames drop_4
  have hfndrop_ : ∀  u, Follows T s0 u → Follows T s0 (drop_4 u) := by
    intro  u hu
    unfold drop_4
    refine follows_cellResult (sub hT (by decide)) ?_
    refine hfndone _ ?_
    assumption
  try clear_value drop_4
  try extract_lets (merge := false) (underBinder := false) +onlyGivenNames other5
  try clear_value other5
  split
  · split
    · exact follows_none'
    · split
      · refine follows_some ?_
        refine hfndone _ ?_
        assumption
      · split
        · split
          · refine follows_some ?_
            refine hfndone _ ?_
            refine follows_setCell (sub hT (by decide)) ?_
            assumption
          · exact follows_none'
        · refine follows_some ?_
          refine hfndone _ ?_
          refine follows_setCell (sub hT (by decide)) ?_
          assumption
  · split
    · split
      · refine follows_some ?_
        refine hfndone _ ?_
        refine follows_retractCell (sub hT (by decide)) ?_
        assumption
      · refine follows_some ?_
        refine hfndone _ ?_
        assumption
    · split
      · split
        · refine follows_some ?_
          refine hfndrop_ _ ?_
          assumption
        · split
          · exact follows_none'
          · try extract_lets (merge := false) (underBinder := false) +onlyGivenNames l06
            try clear_value l06
            try extract_lets (merge := false) (underBinder := false) +onlyGivenNames t7
            try clear_value t7
            try extract_lets (merge := false) (underBinder := false) +onlyGivenNames c8
            try clear_value c8
            split
            · refine follows_some ?_
              refine hfndrop_ _ ?_
              assumption
            · split
              · refine follows_some ?_
                refine hfndone _ ?_
                refine follows_setCell (sub hT (by decide)) ?_
                assumption
              · refine follows_some ?_
                refine follows_bump (sub hT (by decide)) ?_
                refine hfndone _ ?_
                refine follows_setCell (sub hT (by decide)) ?_
                assumption
      · split
        · split
          · refine follows_some ?_
            refine hfndrop_ _ ?_
            assumption
          · split
            · exact follows_none'
            · try extract_lets (merge := false) (underBinder := false) +onlyGivenNames d9
              try clear_value d9
              split
              · refine follows_some ?_
                refine hfndone _ ?_
                assumption
              · refine follows_some ?_
                refine follows_bump (sub hT (by decide)) ?_
                refine follows_aimSeek (sub hT (by decide)) ?_
                refine hfndone _ ?_
                refine follows_setCell (sub hT (by decide)) ?_
                assumption
        · try extract_lets (merge := false) (underBinder := false) +onlyGivenNames v10
          try clear_value v10
          try extract_lets (merge := false) (underBinder := false) +onlyGivenNames c11
          try clear_value c11
          refine follows_some ?_
          refine hfndone _ ?_
          refine follows_setCell (sub hT (by decide)) ?_
          assumption


theorem follows_actCellAll {T : Part → Bool} {s0 s : State} {a0 : Nat} {a2 : Nat} (hT : ∀ p ∈ ([.cnt, .ports, .cells] : List Part), T p = true) (h : Follows T s0 s) : Follows T s0 (actCellAll a0 s a2) := by
  induction a0 generalizing s with
  | zero => exact h
  | succ n ih =>
    simp only [actCellAll]
    split
    · exact h
    · split
      · exact h
      · split
        · exact h
        · rename_i t ht
          exact ih (follows_actCell (sub hT (by decide)) h t ht)


theorem follows_cellEffect {T : Part → Bool} {s0 s : State} {a1 : Nat} (hT : ∀ p ∈ ([.cnt, .ports, .cells] : List Part), T p = true) (h : Follows T s0 s) : Follows T s0 (cellEffect s a1) := by
  unfold cellEffect
  try extract_lets (merge := false) (underBinder := false) +onlyGivenNames b1
  try clear_value b1
  split
  · refine follows_cascade (sub hT (by decide)) ?_
    refine follows_actCellAll (sub hT (by decide)) ?_
    assumption
  · assumption


theorem follows_orderUnit {T : Part → Bool} {s0 s : State} {a1 : Nat} {a2 : Nat} {a3 : Nat} (hT : ∀ p ∈ ([.spn, .units] : List Part), T p = true) (h : Follows T s0 s) : Follows T s0 (orderUnit s a1 a2 a3) := by
  unfold orderUnit
  refine follows_queueUnit (sub hT (by decide)) ?_
  assumption


theorem follows_orderUnitOnce {T : Part → Bool} {s0 s : State} {a1 : Nat} {a2 : Nat} {a3 : Nat} (hT : ∀ p ∈ ([.spn, .units] : List Part), T p = true) (h : Follows T s0 s) : Follows T s0 (orderUnitOnce s a1 a2 a3) := by
  unfold orderUnitOnce
  split
  · assumption
  · refine follows_orderUnit (sub hT (by decide)) ?_
    assumption


theorem follows_holdRest {T : Part → Bool} {s0 s : State} {a1 : Nat} (hT : ∀ p ∈ ([.ports, .spn, .units, .axes] : List Part), T p = true) (h : Follows T s0 s) : Follows T s0 (holdRest s a1) := by
  unfold holdRest
  split
  · assumption
  · extract_lets (merge := false) (underBinder := false) +onlyGivenNames j1_0 s1
    have hs1 : Follows T s0 s1 := by
      unfold s1
      refine follows_setPort (sub hT (by decide)) ?_
      assumption
    clear_value s1
    try extract_lets (merge := false) (underBinder := false) +onlyGivenNames u2
    try clear_value u2
    extract_lets (merge := false) (underBinder := false) +onlyGivenNames s3
    have hs3 : Follows T s0 s3 := by
      unfold s3
      split
      · refine follows_orderUnitOnce (sub hT (by decide)) ?_
        assumption
      · assumption
    clear_value s3
    refine follows_forEach ?_ ?_
    · assumption
    · intro u4 a4 hu4
      try extract_lets (merge := false) (underBinder := false) +onlyGivenNames a5
      try clear_value a5
      split
      · refine follows_orderAxis (sub hT (by decide)) ?_
        assumption
      · assumption


theorem follows_holdFocus {T : Part → Bool} {s0 s : State} {a1 : Nat} (hT : ∀ p ∈ ([.cnt, .cells] : List Part), T p = true) (h : Follows T s0 s) : Follows T s0 (holdFocus s a1) := by
  unfold holdFocus
  split
  · split
    · split
      · assumption
      · refine follows_retractCell (sub hT (by decide)) ?_
        assumption
    · assumption
  · assumption


theorem follows_holdRetract {T : Part → Bool} {s0 s : State} {a1 : Nat} (hT : ∀ p ∈ ([.cnt, .ports, .spn, .cells, .units, .axes] : List Part), T p = true) (h : Follows T s0 s) : Follows T s0 (holdRetract s a1) := by
  unfold holdRetract
  extract_lets (merge := false) (underBinder := false) +onlyGivenNames s1
  have hs1 : Follows T s0 s1 := by
    unfold s1
    refine follows_forEach ?_ ?_
    · assumption
    · intro u2 a2 hu2
      try extract_lets (merge := false) (underBinder := false) +onlyGivenNames c3
      try clear_value c3
      split
      · assumption
      · refine follows_retractCell (sub hT (by decide)) ?_
        assumption
  clear_value s1
  refine follows_holdRest (sub hT (by decide)) ?_
  refine follows_holdFocus (sub hT (by decide)) ?_
  refine follows_holdFocus (sub hT (by decide)) ?_
  assumption


theorem follows_plausHoldOpen {T : Part → Bool} {s0 s : State} {a1 : Nat} {a2 : Nat} (hT : ∀ p ∈ ([.cnt, .cells] : List Part), T p = true) (h : Follows T s0 s) : Follows T s0 (plausHoldOpen s a1 a2) := by
  unfold plausHoldOpen
  try extract_lets (merge := false) (underBinder := false) +onlyGivenNames ns1
  try clear_value ns1
  try extract_lets (merge := false) (underBinder := false) +onlyGivenNames many2
  try clear_value many2
  extract_lets (merge := false) (underBinder := false) +onlyGivenNames s3
  have hs3 : Follows T s0 s3 := by
    unfold s3
    refine follows_foldl ?_ ?_
    · assumption
    · intro u5 a5 hu5
      try extract_lets (merge := false) (underBinder := false) +onlyGivenNames c4
      try clear_value c4
      split
      · split
        · assumption
        · refine follows_setCell (sub hT (by decide)) ?_
          refine follows_seqFailed (sub hT (by decide)) ?_
          assumption
      · refine follows_retractCell (sub hT (by decide)) ?_
        assumption
  clear_value s3
  refine follows_cascade (sub hT (by decide)) ?_
  assumption


theorem follows_execPlausibilityAction {T : Part → Bool} {s0 s : State} {a0 : Fin 96} (hT : ∀ p ∈ ([.free, .cnt, .bays, .ports, .spn, .out, .cells, .units, .axes, .rdc, .wrc, .cal, .qre, .hiu, .cph, .bdy] : List Part), T p = true) (h : Follows T s0 s) : Answers (Follows T s0) (execPlausibilityAction a0 s) := by
  unfold execPlausibilityAction
  try extract_lets (merge := false) (underBinder := false) +onlyGivenNames c1
  try clear_value c1
  split
  · refine ⟨_, rfl, ?_⟩
    assumption
  · try extract_lets (merge := false) (underBinder := false) +onlyGivenNames act2
    try clear_value act2
    try extract_lets (merge := false) (underBinder := false) +onlyGivenNames held3
    try clear_value held3
    extract_lets (merge := false) (underBinder := false) +onlyGivenNames s4
    have hs4 : Follows T s0 s4 := by
      unfold s4
      split
      · assumption
      · refine follows_failRunning (sub hT (by decide)) ?_
        assumption
    clear_value s4
    split
    · extract_lets (merge := false) (underBinder := false) +onlyGivenNames s5
      have hs5 : Follows T s0 s5 := by
        unfold s5
        refine follows_countEvent (sub hT (by decide)) ?_
        assumption
      clear_value s5
      refine ⟨_, rfl, ?_⟩
      refine follows_stopBay (sub hT (by decide)) ?_
      assumption
    · split
      · extract_lets (merge := false) (underBinder := false) +onlyGivenNames s6
        have hs6 : Follows T s0 s6 := by
          unfold s6
          refine follows_countEvent (sub hT (by decide)) ?_
          assumption
        clear_value s6
        refine ⟨_, rfl, ?_⟩
        refine follows_surfaceLost (sub hT (by decide)) ?_
        refine follows_revokeGrants (sub hT (by decide)) ?_
        refine follows_plausHoldOpen (sub hT (by decide)) ?_
        assumption
      · split
        · refine ⟨_, rfl, ?_⟩
          assumption
        · refine ⟨_, rfl, ?_⟩
          refine follows_revokeGrants (sub hT (by decide)) ?_
          refine follows_plausHoldOpen (sub hT (by decide)) ?_
          refine follows_countEvent (sub hT (by decide)) ?_
          assumption


theorem follows_execSearchTimeout {T : Part → Bool} {s0 s : State} {a0 : Fin 96} (hT : ∀ p ∈ ([.cnt, .bays, .ports, .spn, .cells, .axes, .rdc, .wrc, .cal] : List Part), T p = true) (h : Follows T s0 s) : Answers (Follows T s0) (execSearchTimeout a0 s) := by
  unfold execSearchTimeout
  try extract_lets (merge := false) (underBinder := false) +onlyGivenNames c1
  try clear_value c1
  split
  · refine ⟨_, rfl, ?_⟩
    refine follows_dropUnready (sub hT (by decide)) ?_
    refine follows_cascade (sub hT (by decide)) ?_
    refine follows_bump (sub hT (by decide)) ?_
    refine follows_retractCell (sub hT (by decide)) ?_
    assumption
  · refine ⟨_, rfl, ?_⟩
    assumption


theorem follows_execJumpKickEnd {T : Part → Bool} {s0 s : State} {a0 : Fin 96} (hT : ∀ p ∈ ([.cells] : List Part), T p = true) (h : Follows T s0 s) : Answers (Follows T s0) (execJumpKickEnd a0 s) := by
  unfold execJumpKickEnd
  try extract_lets (merge := false) (underBinder := false) +onlyGivenNames c1
  try clear_value c1
  split
  · refine ⟨_, rfl, ?_⟩
    refine follows_setCell (sub hT (by decide)) ?_
    assumption
  · refine ⟨_, rfl, ?_⟩
    assumption


theorem follows_execJumpBrakeEnd {T : Part → Bool} {s0 s : State} {a0 : Fin 96} (hT : ∀ p ∈ ([.cells] : List Part), T p = true) (h : Follows T s0 s) : Answers (Follows T s0) (execJumpBrakeEnd a0 s) := by
  unfold execJumpBrakeEnd
  try extract_lets (merge := false) (underBinder := false) +onlyGivenNames c1
  try clear_value c1
  split
  · refine ⟨_, rfl, ?_⟩
    refine follows_setCell (sub hT (by decide)) ?_
    assumption
  · refine ⟨_, rfl, ?_⟩
    assumption


theorem follows_execJumpDwellEnd {T : Part → Bool} {s0 s : State} {a0 : Fin 96} (hT : ∀ p ∈ ([.cells] : List Part), T p = true) (h : Follows T s0 s) : Answers (Follows T s0) (execJumpDwellEnd a0 s) := by
  unfold execJumpDwellEnd
  try extract_lets (merge := false) (underBinder := false) +onlyGivenNames c1
  try clear_value c1
  split
  · refine ⟨_, rfl, ?_⟩
    refine follows_setCell (sub hT (by decide)) ?_
    assumption
  · refine ⟨_, rfl, ?_⟩
    assumption


theorem follows_execJumpSettleEnd {T : Part → Bool} {s0 s : State} {a0 : Fin 96} (hT : ∀ p ∈ ([.cnt, .cells] : List Part), T p = true) (h : Follows T s0 s) : Answers (Follows T s0) (execJumpSettleEnd a0 s) := by
  unfold execJumpSettleEnd
  try extract_lets (merge := false) (underBinder := false) +onlyGivenNames c1
  try clear_value c1
  split
  · refine ⟨_, rfl, ?_⟩
    refine follows_cascade (sub hT (by decide)) ?_
    refine follows_setCell (sub hT (by decide)) ?_
    assumption
  · refine ⟨_, rfl, ?_⟩
    assumption


theorem follows_execJumpTimeout {T : Part → Bool} {s0 s : State} {a0 : Fin 96} (hT : ∀ p ∈ ([.cnt, .bays, .ports, .spn, .cells, .axes, .rdc, .wrc, .cal] : List Part), T p = true) (h : Follows T s0 s) : Answers (Follows T s0) (execJumpTimeout a0 s) := by
  unfold execJumpTimeout
  try extract_lets (merge := false) (underBinder := false) +onlyGivenNames c1
  try clear_value c1
  split
  · refine ⟨_, rfl, ?_⟩
    refine follows_dropUnready (sub hT (by decide)) ?_
    refine follows_cascade (sub hT (by decide)) ?_
    refine follows_retractCell (sub hT (by decide)) ?_
    assumption
  · refine ⟨_, rfl, ?_⟩
    assumption


theorem follows_execSeekKickEnd {T : Part → Bool} {s0 s : State} {a0 : Fin 96} (hT : ∀ p ∈ ([.cells] : List Part), T p = true) (h : Follows T s0 s) : Answers (Follows T s0) (execSeekKickEnd a0 s) := by
  unfold execSeekKickEnd
  try extract_lets (merge := false) (underBinder := false) +onlyGivenNames c1
  try clear_value c1
  split
  · refine ⟨_, rfl, ?_⟩
    refine follows_setCell (sub hT (by decide)) ?_
    assumption
  · refine ⟨_, rfl, ?_⟩
    assumption


theorem follows_execSeekCaptureWindowEnd {T : Part → Bool} {s0 s : State} {a0 : Fin 96} (hT : ∀ p ∈ ([.cells] : List Part), T p = true) (h : Follows T s0 s) : Answers (Follows T s0) (execSeekCaptureWindowEnd a0 s) := by
  unfold execSeekCaptureWindowEnd
  try extract_lets (merge := false) (underBinder := false) +onlyGivenNames c1
  try clear_value c1
  split
  · refine ⟨_, rfl, ?_⟩
    refine follows_setCell (sub hT (by decide)) ?_
    assumption
  · refine ⟨_, rfl, ?_⟩
    assumption


theorem follows_execSeekSettleEnd {T : Part → Bool} {s0 s : State} {a0 : Fin 96} (hT : ∀ p ∈ ([.cnt, .cells] : List Part), T p = true) (h : Follows T s0 s) : Answers (Follows T s0) (execSeekSettleEnd a0 s) := by
  unfold execSeekSettleEnd
  try extract_lets (merge := false) (underBinder := false) +onlyGivenNames c1
  try clear_value c1
  split
  · refine ⟨_, rfl, ?_⟩
    refine follows_cascade (sub hT (by decide)) ?_
    refine follows_setCell (sub hT (by decide)) ?_
    assumption
  · refine ⟨_, rfl, ?_⟩
    assumption


theorem follows_execSeekTimeout {T : Part → Bool} {s0 s : State} {a0 : Fin 96} (hT : ∀ p ∈ ([.cnt, .bays, .ports, .spn, .cells, .axes, .rdc, .wrc, .cal] : List Part), T p = true) (h : Follows T s0 s) : Answers (Follows T s0) (execSeekTimeout a0 s) := by
  unfold execSeekTimeout
  try extract_lets (merge := false) (underBinder := false) +onlyGivenNames c1
  try clear_value c1
  split
  · refine ⟨_, rfl, ?_⟩
    refine follows_dropUnready (sub hT (by decide)) ?_
    refine follows_cascade (sub hT (by decide)) ?_
    refine follows_retractCell (sub hT (by decide)) ?_
    assumption
  · refine ⟨_, rfl, ?_⟩
    assumption


theorem follows_execHoldMaxExpiry {T : Part → Bool} {s0 s : State} {a0 : Fin 96} (hT : ∀ p ∈ ([.free, .cnt, .bays, .ports, .spn, .out, .cells, .axes, .rdc, .wrc, .cal, .qre, .hiu, .cph, .bdy] : List Part), T p = true) (h : Follows T s0 s) : Answers (Follows T s0) (execHoldMaxExpiry a0 s) := by
  unfold execHoldMaxExpiry
  try extract_lets (merge := false) (underBinder := false) +onlyGivenNames c1
  try clear_value c1
  split
  · refine ⟨_, rfl, ?_⟩
    refine follows_surfaceLost (sub hT (by decide)) ?_
    refine follows_revokeGrants (sub hT (by decide)) ?_
    refine follows_cascade (sub hT (by decide)) ?_
    refine follows_retractCell (sub hT (by decide)) ?_
    assumption
  · refine ⟨_, rfl, ?_⟩
    assumption


theorem follows_execHoldRelease {T : Part → Bool} {s0 s : State} {a0 : Fin 96} (hT : ∀ p ∈ ([.cnt, .cells] : List Part), T p = true) (h : Follows T s0 s) : Answers (Follows T s0) (execHoldRelease a0 s) := by
  unfold execHoldRelease
  try extract_lets (merge := false) (underBinder := false) +onlyGivenNames c1
  try clear_value c1
  split
  · refine ⟨_, rfl, ?_⟩
    refine follows_cascade (sub hT (by decide)) ?_
    refine follows_setCell (sub hT (by decide)) ?_
    assumption
  · refine ⟨_, rfl, ?_⟩
    assumption


theorem follows_execRetractComplete {T : Part → Bool} {s0 s : State} {a0 : Fin 96} (hT : ∀ p ∈ ([.cnt, .ports, .spn, .cells, .units, .axes] : List Part), T p = true) (h : Follows T s0 s) : Answers (Follows T s0) (execRetractComplete a0 s) := by
  unfold execRetractComplete
  try extract_lets (merge := false) (underBinder := false) +onlyGivenNames c1
  try clear_value c1
  split
  · refine ⟨_, rfl, ?_⟩
    refine follows_holdRest (sub hT (by decide)) ?_
    refine follows_holdFocus (sub hT (by decide)) ?_
    refine follows_cascade (sub hT (by decide)) ?_
    refine follows_setCell (sub hT (by decide)) ?_
    assumption
  · refine ⟨_, rfl, ?_⟩
    assumption


theorem follows_execSrvClose {T : Part → Bool} {s0 s : State} {a0 : Fin 96} {a1 : Src} (hT : ∀ p ∈ ([.spn, .cells] : List Part), T p = true) (h : Follows T s0 s) : Answers (Follows T s0) (execSrvClose a0 a1 s) := by
  unfold execSrvClose
  refine ⟨_, rfl, ?_⟩
  refine follows_acceptCell (sub hT (by decide)) ?_
  assumption


theorem follows_execSrvOpen {T : Part → Bool} {s0 s : State} {a0 : Fin 96} {a1 : Src} (hT : ∀ p ∈ ([.spn, .cells] : List Part), T p = true) (h : Follows T s0 s) : Answers (Follows T s0) (execSrvOpen a0 a1 s) := by
  unfold execSrvOpen
  refine ⟨_, rfl, ?_⟩
  refine follows_acceptCell (sub hT (by decide)) ?_
  assumption


theorem follows_execSrvJump {T : Part → Bool} {s0 s : State} {a0 : Fin 96} {a1 : Src} {a2 : BitVec 4} {a3 : BitVec 4} {a4 : Bool} (hT : ∀ p ∈ ([.spn, .cells] : List Part), T p = true) (h : Follows T s0 s) : Answers (Follows T s0) (execSrvJump a0 a1 a2 a3 a4 s) := by
  unfold execSrvJump
  refine ⟨_, rfl, ?_⟩
  refine follows_acceptCell (sub hT (by decide)) ?_
  assumption


theorem follows_execSrvSeek {T : Part → Bool} {s0 s : State} {a0 : Fin 96} {a1 : Src} {a2 : BitVec 24} (hT : ∀ p ∈ ([.spn, .cells] : List Part), T p = true) (h : Follows T s0 s) : Answers (Follows T s0) (execSrvSeek a0 a1 a2 s) := by
  unfold execSrvSeek
  try extract_lets (merge := false) (underBinder := false) +onlyGivenNames c1
  try clear_value c1
  refine ⟨_, rfl, ?_⟩
  refine follows_acceptCell (sub hT (by decide)) ?_
  assumption


theorem follows_execSrvOffset {T : Part → Bool} {s0 s : State} {a0 : Fin 96} {a1 : Src} {a2 : BitVec 2} {a3 : Half} (hT : ∀ p ∈ ([.spn, .cells] : List Part), T p = true) (h : Follows T s0 s) : Answers (Follows T s0) (execSrvOffset a0 a1 a2 a3 s) := by
  unfold execSrvOffset
  refine ⟨_, rfl, ?_⟩
  refine follows_acceptCell (sub hT (by decide)) ?_
  assumption


end Sys2Proof.Machine
end

