-- ==== Sys2Proof/Laws/FollowsStitch.lean ====
section
/-! SUPPORT. What the operations of Machine/Stitch.lean keep: the queue, the canonical form of the sorted stores, the ingest sequence. -/

namespace Sys2Proof.Machine

theorem follows_actDue {T : Part → Bool} {s0 s : State} {a1 : Nat} (hT : ∀ p ∈ ([.regs, .cnt, .ports, .cells, .units, .bus, .axes] : List Part), T p = true) (h : Follows T s0 s) : Follows T s0 (actDue s a1) := by
  unfold actDue
  refine follows_forEach ?_ ?_
  · refine follows_unitEffect (sub hT (by decide)) ?_
    refine follows_forEach ?_ ?_
    · assumption
    · intro u2 a2 hu2
      refine follows_cellEffect (sub hT (by decide)) ?_
      assumption
  · intro u1 a1 hu1
    refine follows_axisEffect (sub hT (by decide)) ?_
    assumption


theorem follows_alignStep {T : Part → Bool} {s0 s : State} {a1 : Int} (hT : ∀ p ∈ ([.cnt, .tck] : List Part), T p = true) (h : Follows T s0 s) : Follows T s0 (alignStep s a1) := by
  unfold alignStep
  split
  · assumption
  · try extract_lets (merge := false) (underBinder := false) +onlyGivenNames runsAny1
    try clear_value runsAny1
    try extract_lets (merge := false) (underBinder := false) +onlyGivenNames step2
    try clear_value step2
    extract_lets (merge := false) (underBinder := false) +onlyGivenNames s3
    have hs3 : Follows T s0 s3 := by
      unfold s3
      split
      · assumption
      · refine follows_bump (sub hT (by decide)) ?_
        assumption
    clear_value s3
    refine upd_tck (hT _ (by decide)) ?_
    assumption


theorem follows_computeAxes {T : Part → Bool} {s0 s : State} {a1 : Nat} (hT : ∀ p ∈ ([.cnt, .axes] : List Part), T p = true) (h : Follows T s0 s) : Follows T s0 (computeAxes s a1) := by
  unfold computeAxes
  split
  · assumption
  · refine follows_forEach ?_ ?_
    · assumption
    · intro u1 a1 hu1
      try extract_lets (merge := false) (underBinder := false) +onlyGivenNames a2
      try clear_value a2
      try extract_lets (merge := false) (underBinder := false) +onlyGivenNames a'3
      try clear_value a'3
      extract_lets (merge := false) (underBinder := false) +onlyGivenNames s4
      have hs4 : Follows T s0 s4 := by
        unfold s4
        refine follows_setAxis (sub hT (by decide)) ?_
        assumption
      clear_value s4
      extract_lets (merge := false) (underBinder := false) +onlyGivenNames s5
      have hs5 : Follows T s0 s5 := by
        unfold s5
        split
        · refine follows_bump (sub hT (by decide)) ?_
          assumption
        · assumption
      clear_value s5
      split
      · refine follows_followCount (sub hT (by decide)) ?_
        assumption
      · assumption


theorem follows_slotCells {T : Part → Bool} {s0 s : State} {a1 : List Nat} {a2 : Nat} (hT : ∀ p ∈ ([.cells] : List Part), T p = true) (h : Follows T s0 s) : Follows T s0 (slotCells s a1 a2) := by
  unfold slotCells
  refine upd_cells (hT _ (by decide)) ?_
  assumption


theorem follows_computeUnit {T : Part → Bool} {s0 s : State} {a1 : Nat} (hT : ∀ p ∈ ([.cnt, .units] : List Part), T p = true) (h : Follows T s0 s) : Follows T s0 (computeUnit s a1) := by
  unfold computeUnit
  split
  · assumption
  · try extract_lets (merge := false) (underBinder := false) +onlyGivenNames p1
    try clear_value p1
    try extract_lets (merge := false) (underBinder := false) +onlyGivenNames u2
    try clear_value u2
    try extract_lets (merge := false) (underBinder := false) +onlyGivenNames u'3
    try clear_value u'3
    extract_lets (merge := false) (underBinder := false) +onlyGivenNames s4
    have hs4 : Follows T s0 s4 := by
      unfold s4
      refine follows_setUnit (sub hT (by decide)) ?_
      assumption
    clear_value s4
    split
    · refine follows_bump (sub hT (by decide)) ?_
      assumption
    · assumption


theorem follows_slotP {T : Part → Bool} {s0 s : State} {a1 : List Nat} (hT : ∀ p ∈ ([.cells] : List Part), T p = true) (h : Follows T s0 s) : Follows T s0 (slotP s a1) := by
  unfold slotP
  refine upd_cells (hT _ (by decide)) ?_
  assumption


theorem follows_noteSpikes {T : Part → Bool} {s0 s : State} {a1 : List Nat} (hT : ∀ p ∈ ([.rdc] : List Part), T p = true) (h : Follows T s0 s) : Follows T s0 (noteSpikes s a1) := by
  unfold noteSpikes
  try extract_lets (merge := false) (underBinder := false) +onlyGivenNames new1
  try clear_value new1
  refine upd_rdc (hT _ (by decide)) ?_
  assumption


theorem follows_computeBays {T : Part → Bool} {s0 s : State} {a1 : List Nat} (hT : ∀ p ∈ ([.regs, .cnt, .ports, .cells, .units, .bus, .axes, .rdc] : List Part), T p = true) (h : Follows T s0 s) : Follows T s0 (computeBays s a1) := by
  unfold computeBays
  extract_lets (merge := false) (underBinder := false) +onlyGivenNames s1
  have hs1 : Follows T s0 s1 := by
    unfold s1
    refine follows_forEach ?_ ?_
    · assumption
    · intro u2 a2 hu2
      refine follows_actDue (sub hT (by decide)) ?_
      assumption
  clear_value s1
  extract_lets (merge := false) (underBinder := false) +onlyGivenNames s3
  have hs3 : Follows T s0 s3 := by
    unfold s3
    refine follows_foldl ?_ ?_
    · assumption
    · intro u4 a4 hu4
      refine follows_slotCells (sub hT (by decide)) ?_
      assumption
  clear_value s3
  extract_lets (merge := false) (underBinder := false) +onlyGivenNames s5
  have hs5 : Follows T s0 s5 := by
    unfold s5
    refine follows_foldl ?_ ?_
    · assumption
    · intro u6 a6 hu6
      refine follows_computeAxes (sub hT (by decide)) ?_
      refine follows_computeUnit (sub hT (by decide)) ?_
      assumption
  clear_value s5
  try extract_lets (merge := false) (underBinder := false) +onlyGivenNames n7
  try clear_value n7
  refine follows_slotP (sub hT (by decide)) ?_
  refine follows_noteSpikes (sub hT (by decide)) ?_
  split
  · assumption
  · refine follows_bumpN (sub hT (by decide)) ?_
    assumption


theorem follows_countUrgent {T : Part → Bool} {s0 s : State} (hT : ∀ p ∈ ([.cnt] : List Part), T p = true) (h : Follows T s0 s) : Follows T s0 (countUrgent s) := by
  unfold countUrgent
  split
  · assumption
  · refine follows_bump (sub hT (by decide)) ?_
    assumption


theorem follows_edgeChanges {T : Part → Bool} {s0 s : State} (hT : ∀ p ∈ ([.cnt, .bays, .cells, .units, .axes] : List Part), T p = true) (h : Follows T s0 s) : Follows T s0 (edgeChanges s) := by
  unfold edgeChanges
  try extract_lets (merge := false) (underBinder := false) +onlyGivenNames bays1
  try clear_value bays1
  extract_lets (merge := false) (underBinder := false) +onlyGivenNames s2
  have hs2 : Follows T s0 s2 := by
    unfold s2
    refine upd_cells (hT _ (by decide)) ?_
    assumption
  clear_value s2
  refine follows_foldl ?_ ?_
  · assumption
  · intro u8 a8 hu8
    extract_lets (merge := false) (underBinder := false) +onlyGivenNames j3_0 s3
    have hs3 : Follows T s0 s3 := by
      unfold s3
      split
      · refine follows_setBay (sub hT (by decide)) ?_
        assumption
      · assumption
    clear_value s3
    try extract_lets (merge := false) (underBinder := false) +onlyGivenNames u4
    try clear_value u4
    extract_lets (merge := false) (underBinder := false) +onlyGivenNames s5
    have hs5 : Follows T s0 s5 := by
      unfold s5
      refine follows_setUnit (sub hT (by decide)) ?_
      assumption
    clear_value s5
    extract_lets (merge := false) (underBinder := false) +onlyGivenNames s6
    have hs6 : Follows T s0 s6 := by
      unfold s6
      refine follows_forEach ?_ ?_
      · assumption
      · intro u7 a7 hu7
        refine follows_setAxis (sub hT (by decide)) ?_
        assumption
    clear_value s6
    refine follows_cascadeBay (sub hT (by decide)) ?_
    assumption


theorem follows_samplePins {T : Part → Bool} {s0 s : State} {a1 : EdgeIn} (hT : ∀ p ∈ ([.pwr, .spn] : List Part), T p = true) (h : Follows T s0 s) : Follows T s0 (samplePins s a1) := by
  unfold samplePins
  try extract_lets (merge := false) (underBinder := false) +onlyGivenNames moved1
  try clear_value moved1
  refine follows_mk ?_ rfl rfl rfl rfl rfl rfl rfl rfl rfl rfl rfl same same same same same same (.inl (hT _ (by decide))) same same same (.inl (hT _ (by decide))) same same same same same same same same same same same same same same same same
  assumption


theorem follows_repeatFloat {T : Part → Bool} {s0 s : State} {a1 : Nat} (hT : ∀ p ∈ ([.units] : List Part), T p = true) (h : Follows T s0 s) : Follows T s0 (repeatFloat s a1) := by
  unfold repeatFloat
  split
  · refine follows_setUnit (sub hT (by decide)) ?_
    assumption
  · assumption


theorem follows_keepRing {T : Part → Bool} {s0 s : State} {a1 : Nat} (hT : ∀ p ∈ ([.spn] : List Part), T p = true) (h : Follows T s0 s) : Follows T s0 (keepRing s a1) := by
  unfold keepRing
  try extract_lets (merge := false) (underBinder := false) +onlyGivenNames pr1
  try clear_value pr1
  split
  · refine follows_setPair (sub hT (by decide)) ?_
    assumption
  · assumption


theorem follows_sendBay {T : Part → Bool} {s0 s : State} {a1 : Nat} (hT : ∀ p ∈ ([.cnt, .ports, .spn] : List Part), T p = true) (h : Follows T s0 s) : Follows T s0 (sendBay s a1) := by
  unfold sendBay
  try extract_lets (merge := false) (underBinder := false) +onlyGivenNames p1
  try clear_value p1
  try extract_lets (merge := false) (underBinder := false) +onlyGivenNames y2
  try clear_value y2
  try extract_lets (merge := false) (underBinder := false) +onlyGivenNames pr3
  try clear_value pr3
  try extract_lets (merge := false) (underBinder := false) +onlyGivenNames fresh4
  try clear_value fresh4
  try extract_lets (merge := false) (underBinder := false) +onlyGivenNames j5_0 f5
  try clear_value f5
  extract_lets (merge := false) (underBinder := false) +onlyGivenNames s6
  have hs6 : Follows T s0 s6 := by
    unfold s6
    refine follows_setPort (sub hT (by decide)) ?_
    assumption
  clear_value s6
  extract_lets (merge := false) (underBinder := false) +onlyGivenNames s7
  have hs7 : Follows T s0 s7 := by
    unfold s7
    split
    · refine follows_bump (sub hT (by decide)) ?_
      assumption
    · assumption
  clear_value s7
  refine follows_setPair (sub hT (by decide)) ?_
  assumption


theorem follows_execStitchEdge {T : Part → Bool} {s0 s : State} {a0 : EdgeIn} (hT : ∀ p ∈ ([.regs, .cnt, .tck, .pwr, .bays, .ports, .spn, .out, .cells, .units, .bus, .axes, .rdc, .wrc, .cal] : List Part), T p = true) (h : Follows T s0 s) : Answers (Follows T s0) (execStitchEdge a0 s) := by
  unfold execStitchEdge
  split
  · refine ⟨_, rfl, ?_⟩
    assumption
  · split
    · refine ⟨_, rfl, ?_⟩
      refine follows_samplePins (sub hT (by decide)) ?_
      refine upd_tck (hT _ (by decide)) ?_
      assumption
    · try extract_lets (merge := false) (underBinder := false) +onlyGivenNames bays1
      try clear_value bays1
      try extract_lets (merge := false) (underBinder := false) +onlyGivenNames hb2
      try clear_value hb2
      extract_lets (merge := false) (underBinder := false) +onlyGivenNames s3
      have hs3 : Follows T s0 s3 := by
        unfold s3
        refine follows_forEach ?_ ?_
        · refine follows_computeBays (sub hT (by decide)) ?_
          assumption
        · intro u4 a4 hu4
          refine follows_repeatFloat (sub hT (by decide)) ?_
          assumption
      clear_value s3
      extract_lets (merge := false) (underBinder := false) +onlyGivenNames s5
      have hs5 : Follows T s0 s5 := by
        unfold s5
        refine follows_foldl ?_ ?_
        · assumption
        · intro u6 a6 hu6
          refine follows_keepRing (sub hT (by decide)) ?_
          refine follows_sendBay (sub hT (by decide)) ?_
          assumption
      clear_value s5
      extract_lets (merge := false) (underBinder := false) +onlyGivenNames s7
      have hs7 : Follows T s0 s7 := by
        unfold s7
        refine follows_serveLink (sub hT (by decide)) ?_
        split
        · assumption
        · refine upd_out (hT _ (by decide)) ?_
          assumption
      clear_value s7
      extract_lets (merge := false) (underBinder := false) +onlyGivenNames s8
      have hs8 : Follows T s0 s8 := by
        unfold s8
        refine follows_edgeChanges (sub hT (by decide)) ?_
        assumption
      clear_value s8
      extract_lets (merge := false) (underBinder := false) +onlyGivenNames j9_0 j9_1 s9
      have hs9 : Follows T s0 s9 := by
        unfold s9
        refine follows_mk ?_ rfl rfl rfl rfl rfl rfl rfl rfl rfl rfl rfl same same same same same (.inl (hT _ (by decide))) same same (.inl (hT _ (by decide))) same (.inl (hT _ (by decide))) same same same same same same same same same same same same same same same same
        assumption
      clear_value s9
      extract_lets (merge := false) (underBinder := false) +onlyGivenNames s10
      have hs10 : Follows T s0 s10 := by
        unfold s10
        refine follows_forEach ?_ ?_
        · refine follows_forEach ?_ ?_
          · assumption
          · intro u12 a12 hu12
            refine follows_withholdAbsent (sub hT (by decide)) ?_
            assumption
        · intro u11 a11 hu11
          refine follows_dropUnready (sub hT (by decide)) ?_
          assumption
      clear_value s10
      extract_lets (merge := false) (underBinder := false) +onlyGivenNames s13
      have hs13 : Follows T s0 s13 := by
        unfold s13
        split
        · assumption
        · refine follows_bumpN (sub hT (by decide)) ?_
          assumption
      clear_value s13
      extract_lets (merge := false) (underBinder := false) +onlyGivenNames s14
      have hs14 : Follows T s0 s14 := by
        unfold s14
        split
        · assumption
        · refine follows_bumpN (sub hT (by decide)) ?_
          assumption
      clear_value s14
      refine ⟨_, rfl, ?_⟩
      refine follows_samplePins (sub hT (by decide)) ?_
      refine follows_alignStep (sub hT (by decide)) ?_
      refine follows_countUrgent (sub hT (by decide)) ?_
      assumption


theorem follows_execAlignmentFault {T : Part → Bool} {s0 s : State} (hT : ∀ p ∈ ([.tck, .bdy] : List Part), T p = true) (h : Follows T s0 s) : Answers (Follows T s0) (execAlignmentFault s) := by
  unfold execAlignmentFault
  split
  · refine ⟨_, rfl, ?_⟩
    assumption
  · extract_lets (merge := false) (underBinder := false) +onlyGivenNames j1_0 s1
    have hs1 : Follows T s0 s1 := by
      unfold s1
      refine upd_tck (hT _ (by decide)) ?_
      assumption
    clear_value s1
    refine ⟨_, rfl, ?_⟩
    split
    · assumption
    · refine follows_event (sub hT (by decide)) ?_
      assumption


theorem follows_execEffectStitchReached {T : Part → Bool} {s0 s : State} {a0 : Obj} (hT : ∀ p ∈ ([.regs, .cnt, .ports, .cells, .units, .bus, .axes] : List Part), T p = true) (h : Follows T s0 s) : Answers (Follows T s0) (execEffectStitchReached a0 s) := by
  unfold execEffectStitchReached
  split
  · refine ⟨_, rfl, ?_⟩
    refine follows_cellEffect (sub hT (by decide)) ?_
    assumption
  · refine ⟨_, rfl, ?_⟩
    refine follows_unitEffect (sub hT (by decide)) ?_
    assumption
  · refine ⟨_, rfl, ?_⟩
    refine follows_axisEffect (sub hT (by decide)) ?_
    assumption


end Sys2Proof.Machine
end

