-- ==== Sys2Proof/Laws/FollowsBays.lean ====
section
/-! SUPPORT. What the operations of Machine/Bays.lean keep: the queue, the canonical form of the sorted stores, the ingest sequence. -/

namespace Sys2Proof.Machine

theorem follows_dueCal {T : Part → Bool} {s0 s : State} {a1 : Nat} {a2 : Nat} {a3 : CalKind} {a4 : Bool} {a5 : Bool} (hT : ∀ p ∈ ([.cal] : List Part), T p = true) (h : Follows T s0 s) : Follows T s0 (dueCal s a1 a2 a3 a4 a5) := by
  unfold dueCal
  try extract_lets (merge := false) (underBinder := false) +onlyGivenNames r1
  try clear_value r1
  split
  · refine follows_setCal (sub hT (by decide)) ?_
    assumption
  · split
    · refine upd_cal (hT _ (by decide)) ?_
      assumption
    · refine upd_cal (hT _ (by decide)) ?_
      assumption


theorem follows_qualityCal {T : Part → Bool} {s0 s : State} {a1 : Nat} {a2 : Nat} {a3 : List CalKind} (hT : ∀ p ∈ ([.cal] : List Part), T p = true) (h : Follows T s0 s) : Follows T s0 (qualityCal s a1 a2 a3) := by
  unfold qualityCal
  refine follows_foldl ?_ ?_
  · assumption
  · intro u1 a1 hu1
    refine follows_dueCal (sub hT (by decide)) ?_
    assumption


theorem follows_endGrant {T : Part → Bool} {s0 s : State} {a1 : Nat} {a2 : Nat} (hT : ∀ p ∈ ([.cnt, .bays, .ports, .spn, .cells, .units, .axes] : List Part), T p = true) (h : Follows T s0 s) : Follows T s0 (endGrant s a1 a2) := by
  unfold endGrant
  try extract_lets (merge := false) (underBinder := false) +onlyGivenNames y1
  try clear_value y1
  try extract_lets (merge := false) (underBinder := false) +onlyGivenNames gs2
  try clear_value gs2
  extract_lets (merge := false) (underBinder := false) +onlyGivenNames s3
  have hs3 : Follows T s0 s3 := by
    unfold s3
    refine follows_setBay (sub hT (by decide)) ?_
    assumption
  clear_value s3
  split
  · refine follows_holdRetract (sub hT (by decide)) ?_
    assumption
  · assumption


theorem follows_grant {T : Part → Bool} {s0 s : State} {a1 : Nat} {a2 : Nat} (hT : ∀ p ∈ ([.bays] : List Part), T p = true) (h : Follows T s0 s) : Follows T s0 (grant s a1 a2) := by
  unfold grant
  try extract_lets (merge := false) (underBinder := false) +onlyGivenNames y1
  try clear_value y1
  refine follows_setBay (sub hT (by decide)) ?_
  assumption


end Sys2Proof.Machine
end

