-- ==== Sys2Proof/Laws/FollowsGoto.lean ====
section
/-! SUPPORT. What the operations of Machine/Goto.lean keep: the queue, the canonical form of the sorted stores, the ingest sequence. -/

namespace Sys2Proof.Machine

theorem follows_farMove {T : Part → Bool} {s0 s : State} {a1 : Nat} {a2 : Int} (hT : ∀ p ∈ ([.ports, .spn, .cells] : List Part), T p = true) (h : Follows T s0 s) : Follows T s0 (farMove s a1 a2) := by
  unfold farMove
  try extract_lets (merge := false) (underBinder := false) +onlyGivenNames p1
  try clear_value p1
  split
  · assumption
  · split
    · assumption
    · try extract_lets (merge := false) (underBinder := false) +onlyGivenNames dest2
      try clear_value dest2
      extract_lets (merge := false) (underBinder := false) +onlyGivenNames s3
      have hs3 : Follows T s0 s3 := by
        unfold s3
        refine follows_setPort (sub hT (by decide)) ?_
        assumption
      clear_value s3
      split
      · assumption
      · refine follows_orderCell (sub hT (by decide)) ?_
        assumption


theorem follows_correctTo {T : Part → Bool} {s0 s : State} {a1 : Nat} {a2 : Nat} (hT : ∀ p ∈ ([.spn, .axes] : List Part), T p = true) (h : Follows T s0 s) : Follows T s0 (correctTo s a1 a2) := by
  unfold correctTo
  try extract_lets (merge := false) (underBinder := false) +onlyGivenNames a1
  try clear_value a1
  split
  · assumption
  · refine follows_orderAxis (sub hT (by decide)) ?_
    assumption


theorem follows_resumeMove {T : Part → Bool} {s0 s : State} {a1 : Nat} (hT : ∀ p ∈ ([.ports, .spn, .cells, .axes] : List Part), T p = true) (h : Follows T s0 s) : Follows T s0 (resumeMove s a1) := by
  unfold resumeMove
  try extract_lets (merge := false) (underBinder := false) +onlyGivenNames p1
  try clear_value p1
  split
  · try extract_lets (merge := false) (underBinder := false) +onlyGivenNames c2
    try clear_value c2
    try extract_lets (merge := false) (underBinder := false) +onlyGivenNames a3
    try clear_value a3
    split
    · assumption
    · split
      · refine follows_orderCell (sub hT (by decide)) ?_
        refine follows_setPort (sub hT (by decide)) ?_
        assumption
      · refine follows_orderAxis (sub hT (by decide)) ?_
        assumption
  · assumption


theorem follows_jumpTo {T : Part → Bool} {s0 s : State} {a1 : Nat} {a2 : Nat} (hT : ∀ p ∈ ([.spn, .cells] : List Part), T p = true) (h : Follows T s0 s) : Follows T s0 (jumpTo s a1 a2) := by
  unfold jumpTo
  split
  · assumption
  · try extract_lets (merge := false) (underBinder := false) +onlyGivenNames c1
    try clear_value c1
    split
    · assumption
    · try extract_lets (merge := false) (underBinder := false) +onlyGivenNames seen2
      try clear_value seen2
      refine follows_orderCell (sub hT (by decide)) ?_
      assumption


theorem follows_seekBy {T : Part → Bool} {s0 s : State} {a1 : Nat} {a2 : Int} (hT : ∀ p ∈ ([.ports, .spn, .cells] : List Part), T p = true) (h : Follows T s0 s) : Follows T s0 (seekBy s a1 a2) := by
  unfold seekBy
  split
  · assumption
  · try extract_lets (merge := false) (underBinder := false) +onlyGivenNames c1
    try clear_value c1
    split
    · assumption
    · split
      · split
        · refine follows_orderCell (sub hT (by decide)) ?_
          assumption
        · assumption
      · refine follows_farMove (sub hT (by decide)) ?_
        assumption


theorem follows_seekBand {T : Part → Bool} {s0 s : State} {a1 : Nat} {a2 : Nat} (hT : ∀ p ∈ ([.ports, .spn, .cells] : List Part), T p = true) (h : Follows T s0 s) : Follows T s0 (seekBand s a1 a2) := by
  unfold seekBand
  refine follows_seekBy (sub hT (by decide)) ?_
  assumption


theorem follows_goTo {T : Part → Bool} {s0 s : State} {a1 : Nat} {a2 : Nat} {a3 : Nat} (hT : ∀ p ∈ ([.ports, .spn, .cells, .units, .axes] : List Part), T p = true) (h : Follows T s0 s) : Follows T s0 (goTo s a1 a2 a3) := by
  unfold goTo
  try extract_lets (merge := false) (underBinder := false) +onlyGivenNames b1
  try clear_value b1
  try extract_lets (merge := false) (underBinder := false) +onlyGivenNames y2
  try clear_value y2
  try extract_lets (merge := false) (underBinder := false) +onlyGivenNames u3
  try clear_value u3
  try extract_lets (merge := false) (underBinder := false) +onlyGivenNames z4
  try clear_value z4
  split
  · assumption
  · extract_lets (merge := false) (underBinder := false) +onlyGivenNames s5
    have hs5 : Follows T s0 s5 := by
      unfold s5
      refine follows_correctTo (sub hT (by decide)) ?_
      assumption
    clear_value s5
    split
    · split
      · split
        · assumption
        · refine follows_jumpTo (sub hT (by decide)) ?_
          assumption
      · assumption
    · split
      · split
        · refine follows_seekBand (sub hT (by decide)) ?_
          assumption
        · split
          · refine follows_orderUnit (sub hT (by decide)) ?_
            assumption
          · assumption
      · split
        · refine follows_seekBand (sub hT (by decide)) ?_
          assumption
        · assumption


theorem follows_jumpBack {T : Part → Bool} {s0 s : State} {a1 : Nat} {a2 : Nat} {a3 : Nat} (hT : ∀ p ∈ ([.ports, .spn, .cells] : List Part), T p = true) (h : Follows T s0 s) : Follows T s0 (jumpBack s a1 a2 a3) := by
  unfold jumpBack
  try extract_lets (merge := false) (underBinder := false) +onlyGivenNames p1
  try clear_value p1
  try extract_lets (merge := false) (underBinder := false) +onlyGivenNames f2
  try clear_value f2
  try extract_lets (merge := false) (underBinder := false) +onlyGivenNames z3
  try clear_value z3
  split
  · refine follows_seekBand (sub hT (by decide)) ?_
    assumption
  · try extract_lets (merge := false) (underBinder := false) +onlyGivenNames here4
    try clear_value here4
    try extract_lets (merge := false) (underBinder := false) +onlyGivenNames there5
    try clear_value there5
    refine follows_seekBy (sub hT (by decide)) ?_
    assumption


end Sys2Proof.Machine
end

