-- ==== Sys2Proof/Laws/FollowsWriteChan.lean ====
section
/-! SUPPORT. What the operations of Machine/WriteChan.lean keep: the queue, the canonical form of the sorted stores, the ingest sequence. -/

namespace Sys2Proof.Machine

theorem follows_storeSet {T : Part → Bool} {s0 s : State} {a1 : Nat} {a2 : Nat} {a3 : Strategy} (hT : ∀ p ∈ ([.cal] : List Part), T p = true) (h : Follows T s0 s) : Follows T s0 (storeSet s a1 a2 a3) := by
  unfold storeSet
  split
  · refine follows_setCal (sub hT (by decide)) ?_
    assumption
  · assumption


theorem follows_sendWords {T : Part → Bool} {s0 s : State} {a1 : Nat} {a2 : Nat} {a3 : List Word} (hT : ∀ p ∈ ([.bfes, .wrc] : List Part), T p = true) (h : Follows T s0 s) : Follows T s0 (sendWords s a1 a2 a3) := by
  unfold sendWords
  try extract_lets (merge := false) (underBinder := false) +onlyGivenNames x1
  try clear_value x1
  try extract_lets (merge := false) (underBinder := false) +onlyGivenNames e2
  try clear_value e2
  try extract_lets (merge := false) (underBinder := false) +onlyGivenNames o3
  try clear_value o3
  extract_lets (merge := false) (underBinder := false) +onlyGivenNames s4
  have hs4 : Follows T s0 s4 := by
    unfold s4
    refine follows_setOpu (sub hT (by decide)) ?_
    assumption
  clear_value s4
  split
  · assumption
  · try extract_lets (merge := false) (underBinder := false) +onlyGivenNames b5
    try clear_value b5
    refine follows_setBfe (sub hT (by decide)) ?_
    assumption


theorem follows_sendPosition {T : Part → Bool} {s0 s : State} {a1 : Nat} {a2 : Run} (hT : ∀ p ∈ ([.bfes, .wrc] : List Part), T p = true) (h : Follows T s0 s) : Follows T s0 (sendPosition s a1 a2) := by
  unfold sendPosition
  try extract_lets (merge := false) (underBinder := false) +onlyGivenNames p1
  try clear_value p1
  try extract_lets (merge := false) (underBinder := false) +onlyGivenNames r'2
  try clear_value r'2
  refine follows_foldl ?_ ?_
  · refine follows_setOpu (sub hT (by decide)) ?_
    assumption
  · intro u3 a3 hu3
    refine follows_sendWords (sub hT (by decide)) ?_
    assumption


theorem follows_startRun {T : Part → Bool} {s0 s : State} {a1 : Nat} {a2 : Run} (hT : ∀ p ∈ ([.cnt, .ports, .bfes, .rdc, .wrc, .cal] : List Part), T p = true) (h : Follows T s0 s) : Follows T s0 (startRun s a1 a2) := by
  unfold startRun
  extract_lets (merge := false) (underBinder := false) +onlyGivenNames s1
  have hs1 : Follows T s0 s1 := by
    unfold s1
    refine follows_latchCfg (sub hT (by decide)) ?_
    assumption
  clear_value s1
  try extract_lets (merge := false) (underBinder := false) +onlyGivenNames lanes2
  try clear_value lanes2
  extract_lets (merge := false) (underBinder := false) +onlyGivenNames s3
  have hs3 : Follows T s0 s3 := by
    unfold s3
    refine follows_foldl ?_ ?_
    · assumption
    · intro u4 a4 hu4
      refine follows_loadChan (sub hT (by decide)) ?_
      assumption
  clear_value s3
  try extract_lets (merge := false) (underBinder := false) +onlyGivenNames cap5
  try clear_value cap5
  try extract_lets (merge := false) (underBinder := false) +onlyGivenNames o6
  try clear_value o6
  extract_lets (merge := false) (underBinder := false) +onlyGivenNames s7
  have hs7 : Follows T s0 s7 := by
    unfold s7
    refine follows_setOpu (sub hT (by decide)) ?_
    assumption
  clear_value s7
  extract_lets (merge := false) (underBinder := false) +onlyGivenNames j8_0 j8_1 s8
  have hs8 : Follows T s0 s8 := by
    unfold s8
    refine follows_mk ?_ rfl rfl rfl rfl rfl rfl rfl rfl rfl rfl rfl same same same same same same same same same same same same same same same same same (.inl (hT _ (by decide))) (.inl (hT _ (by decide))) same same same same same same same same
    assumption
  clear_value s8
  refine follows_sendPosition (sub hT (by decide)) ?_
  split
  · refine follows_bump (sub hT (by decide)) ?_
    assumption
  · assumption


theorem follows_clearLaser {T : Part → Bool} {s0 s : State} {a1 : Half} (hT : ∀ p ∈ ([.wrc] : List Part), T p = true) (h : Follows T s0 s) : Follows T s0 (clearLaser s a1) := by
  unfold clearLaser
  refine follows_foldl ?_ ?_
  · assumption
  · intro u1 a1 hu1
    split
    · refine follows_setOpu (sub hT (by decide)) ?_
      assumption
    · assumption


theorem follows_laserFrame {T : Part → Bool} {s0 s : State} {a1 : Nat} {a2 : SampleFrame} (hT : ∀ p ∈ ([.free, .cnt, .bays, .ports, .out, .rdc, .wrc, .cal, .qre, .hiu, .cph, .bdy] : List Part), T p = true) (h : Follows T s0 s) : Follows T s0 (laserFrame s a1 a2) := by
  unfold laserFrame
  try extract_lets (merge := false) (underBinder := false) +onlyGivenNames es1
  try clear_value es1
  split
  · assumption
  · extract_lets (merge := false) (underBinder := false) +onlyGivenNames s2
    have hs2 : Follows T s0 s2 := by
      unfold s2
      split
      · refine follows_cutRun (sub hT (by decide)) ?_
        assumption
      · assumption
    clear_value s2
    try extract_lets (merge := false) (underBinder := false) +onlyGivenNames lane3
    try clear_value lane3
    try extract_lets (merge := false) (underBinder := false) +onlyGivenNames w4
    try clear_value w4
    try extract_lets (merge := false) (underBinder := false) +onlyGivenNames o5
    try clear_value o5
    try extract_lets (merge := false) (underBinder := false) +onlyGivenNames warn6
    try clear_value warn6
    try extract_lets (merge := false) (underBinder := false) +onlyGivenNames st7
    try clear_value st7
    try extract_lets (merge := false) (underBinder := false) +onlyGivenNames new8
    try clear_value new8
    extract_lets (merge := false) (underBinder := false) +onlyGivenNames s9
    have hs9 : Follows T s0 s9 := by
      unfold s9
      refine follows_setOpu (sub hT (by decide)) ?_
      assumption
    clear_value s9
    extract_lets (merge := false) (underBinder := false) +onlyGivenNames s10
    have hs10 : Follows T s0 s10 := by
      unfold s10
      split
      · refine follows_event (sub hT (by decide)) ?_
        assumption
      · assumption
    clear_value s10
    split
    · refine follows_surfaceLost (sub hT (by decide)) ?_
      assumption
    · split
      · refine follows_sealSurface (sub hT (by decide)) ?_
        refine follows_cutRun (sub hT (by decide)) ?_
        assumption
      · assumption


theorem follows_streamOn {T : Part → Bool} {s0 s : State} {a1 : Nat} (hT : ∀ p ∈ ([.bfes, .wrc] : List Part), T p = true) (h : Follows T s0 s) : Follows T s0 (streamOn s a1) := by
  unfold streamOn
  split
  · split
    · refine follows_sendPosition (sub hT (by decide)) ?_
      assumption
    · assumption
  · assumption


theorem follows_firstWrite {T : Part → Bool} {s0 s : State} {a1 : Nat} {a2 : Nat} (hT : ∀ p ∈ ([.cal] : List Part), T p = true) (h : Follows T s0 s) : FollowsFst T s0 (firstWrite s a1 a2) := by
  unfold firstWrite
  try extract_lets (merge := false) (underBinder := false) +onlyGivenNames r1
  try clear_value r1
  split
  · refine follows_pair ?_
    assumption
  · extract_lets (merge := false) (underBinder := false) +onlyGivenNames s2
    have hs2 : Follows T s0 s2 := by
      unfold s2
      refine follows_setCal (sub hT (by decide)) ?_
      assumption
    clear_value s2
    extract_lets (merge := false) (underBinder := false) +onlyGivenNames s3
    have hs3 : Follows T s0 s3 := by
      unfold s3
      split
      · assumption
      · refine follows_foldl ?_ ?_
        · assumption
        · intro u4 a4 hu4
          refine follows_dueCal (sub hT (by decide)) ?_
          assumption
    clear_value s3
    extract_lets (merge := false) (underBinder := false) +onlyGivenNames s5
    have hs5 : Follows T s0 s5 := by
      unfold s5
      refine follows_dueCal (sub hT (by decide)) ?_
      assumption
    clear_value s5
    refine follows_pair ?_
    split
    · assumption
    · refine follows_dueCal (sub hT (by decide)) ?_
      assumption


theorem follows_execWriteRunStart {T : Part → Bool} {s0 s : State} {a0 : Nat} {a1 : Fin 16} {a2 : Bool} (hT : ∀ p ∈ ([.cnt, .bays, .ports, .bfes, .spn, .cells, .units, .axes, .rdc, .wrc, .cal, .qre] : List Part), T p = true) (h : Follows T s0 s) : Answers (Follows T s0) (execWriteRunStart a0 a1 a2 s) := by
  unfold execWriteRunStart
  split
  · refine ⟨_, rfl, ?_⟩
    assumption
  · try extract_lets (merge := false) (underBinder := false) +onlyGivenNames l1
    try clear_value l1
    try extract_lets (merge := false) (underBinder := false) +onlyGivenNames m2
    try clear_value m2
    extract_lets (merge := false) (underBinder := false) +onlyGivenNames first3
    have hfirst3 : FollowsFst T s0 first3 := by
      unfold first3
      refine follows_firstWrite (sub hT (by decide)) ?_
      assumption
    clear_value first3
    try extract_lets (merge := false) (underBinder := false) +onlyGivenNames rows4
    try clear_value rows4
    try extract_lets (merge := false) (underBinder := false) +onlyGivenNames ks5
    try clear_value ks5
    split
    · refine ⟨_, rfl, ?_⟩
      refine follows_fst ?_
      assumption
    · split
      · refine ⟨_, rfl, ?_⟩
        assumption
      · split
        · refine ⟨_, rfl, ?_⟩
          refine follows_goTo (sub hT (by decide)) ?_
          assumption
        · split
          · refine ⟨_, rfl, ?_⟩
            refine follows_jumpBack (sub hT (by decide)) ?_
            assumption
          · try extract_lets (merge := false) (underBinder := false) +onlyGivenNames l'6
            try clear_value l'6
            try extract_lets (merge := false) (underBinder := false) +onlyGivenNames q'7
            try clear_value q'7
            try extract_lets (merge := false) (underBinder := false) +onlyGivenNames start8
            try clear_value start8
            try extract_lets (merge := false) (underBinder := false) +onlyGivenNames set_9
            try clear_value set_9
            try extract_lets (merge := false) (underBinder := false) +onlyGivenNames run10
            try clear_value run10
            extract_lets (merge := false) (underBinder := false) +onlyGivenNames s11
            have hs11 : Follows T s0 s11 := by
              unfold s11
              refine follows_startRun (sub hT (by decide)) ?_
              refine follows_grant (sub hT (by decide)) ?_
              refine follows_setQuire (sub hT (by decide)) ?_
              assumption
            clear_value s11
            refine ⟨_, rfl, ?_⟩
            split
            · refine follows_bumpN (sub hT (by decide)) ?_
              assumption
            · assumption


theorem follows_execEncoderUnderrun {T : Part → Bool} {s0 s : State} {a0 : Fin 16} {a1 : Nat} (hT : ∀ p ∈ ([.wrc, .bdy] : List Part), T p = true) (h : Follows T s0 s) : Answers (Follows T s0) (execEncoderUnderrun a0 a1 s) := by
  unfold execEncoderUnderrun
  try extract_lets (merge := false) (underBinder := false) +onlyGivenNames o1
  try clear_value o1
  split
  · split
    · extract_lets (merge := false) (underBinder := false) +onlyGivenNames s2
      have hs2 : Follows T s0 s2 := by
        unfold s2
        refine follows_setOpu (sub hT (by decide)) ?_
        assumption
      clear_value s2
      refine ⟨_, rfl, ?_⟩
      refine follows_event (sub hT (by decide)) ?_
      refine upd_wrc (hT _ (by decide)) ?_
      assumption
    · refine ⟨_, rfl, ?_⟩
      assumption
  · refine ⟨_, rfl, ?_⟩
    assumption


theorem follows_noteTrail {T : Part → Bool} {s0 s : State} {a1 : Nat} {a2 : Nat} {a3 : Int} (hT : ∀ p ∈ ([.rdc] : List Part), T p = true) (h : Follows T s0 s) : Follows T s0 (noteTrail s a1 a2 a3) := by
  unfold noteTrail
  split
  · refine follows_setChan (sub hT (by decide)) ?_
    assumption
  · assumption


theorem follows_toCalibration {T : Part → Bool} {s0 s : State} {a1 : Nat} {a2 : Bool} {a3 : VerRec} (hT : ∀ p ∈ ([.cal] : List Part), T p = true) (h : Follows T s0 s) : Follows T s0 (toCalibration s a1 a2 a3) := by
  unfold toCalibration
  split
  · refine upd_cal (hT _ (by decide)) ?_
    assumption
  · assumption


theorem follows_releaseRun {T : Part → Bool} {s0 s : State} {a1 : Nat} {a2 : Run} (hT : ∀ p ∈ ([.cnt, .bays, .ports, .spn, .cells, .units, .axes, .rdc, .wrc, .cal] : List Part), T p = true) (h : Follows T s0 s) : Follows T s0 (releaseRun s a1 a2) := by
  unfold releaseRun
  refine follows_endGrant (sub hT (by decide)) ?_
  refine follows_endRun (sub hT (by decide)) ?_
  assumption


theorem follows_runningOpc {T : Part → Bool} {s0 s : State} {a1 : Nat} {a2 : Nat} {a3 : Nat} {a4 : Int} (hT : ∀ p ∈ ([.cnt, .cal, .bdy] : List Part), T p = true) (h : Follows T s0 s) : Follows T s0 (runningOpc s a1 a2 a3 a4) := by
  unfold runningOpc
  try extract_lets (merge := false) (underBinder := false) +onlyGivenNames r1
  try clear_value r1
  try extract_lets (merge := false) (underBinder := false) +onlyGivenNames n2
  try clear_value n2
  try extract_lets (merge := false) (underBinder := false) +onlyGivenNames sum3
  try clear_value sum3
  split
  · refine follows_setCal (sub hT (by decide)) ?_
    assumption
  · try extract_lets (merge := false) (underBinder := false) +onlyGivenNames th4
    try clear_value th4
    try extract_lets (merge := false) (underBinder := false) +onlyGivenNames t5
    try clear_value t5
    try extract_lets (merge := false) (underBinder := false) +onlyGivenNames t'6
    try clear_value t'6
    try extract_lets (merge := false) (underBinder := false) +onlyGivenNames t'7
    try clear_value t'7
    extract_lets (merge := false) (underBinder := false) +onlyGivenNames s8
    have hs8 : Follows T s0 s8 := by
      unfold s8
      refine follows_setCal (sub hT (by decide)) ?_
      assumption
    clear_value s8
    extract_lets (merge := false) (underBinder := false) +onlyGivenNames s9
    have hs9 : Follows T s0 s9 := by
      unfold s9
      split
      · assumption
      · refine follows_bump (sub hT (by decide)) ?_
        assumption
    clear_value s9
    split
    · split
      · refine follows_event (sub hT (by decide)) ?_
        assumption
      · refine follows_qualityCal (sub hT (by decide)) ?_
        assumption
    · assumption


theorem follows_marginalShare {T : Part → Bool} {s0 s : State} {a1 : Nat} {a2 : Nat} {a3 : Bool} (hT : ∀ p ∈ ([.cal] : List Part), T p = true) (h : Follows T s0 s) : Follows T s0 (marginalShare s a1 a2 a3) := by
  unfold marginalShare
  try extract_lets (merge := false) (underBinder := false) +onlyGivenNames r1
  try clear_value r1
  try extract_lets (merge := false) (underBinder := false) +onlyGivenNames l2
  try clear_value l2
  try extract_lets (merge := false) (underBinder := false) +onlyGivenNames n3
  try clear_value n3
  split
  · refine follows_qualityCal (sub hT (by decide)) ?_
    refine follows_setCal (sub hT (by decide)) ?_
    assumption
  · refine follows_setCal (sub hT (by decide)) ?_
    assumption


theorem follows_finishRun {T : Part → Bool} {s0 s : State} {a1 : Quire} {a2 : Nat} {a3 : Run} (hT : ∀ p ∈ ([.free, .cnt, .bays, .ports, .spn, .out, .cells, .units, .axes, .rdc, .wrc, .cal, .qre, .hiu, .cph, .bdy] : List Part), T p = true) (h : Follows T s0 s) : Follows T s0 (finishRun s a1 a2 a3) := by
  unfold finishRun
  try extract_lets (merge := false) (underBinder := false) +onlyGivenNames l1
  try clear_value l1
  try extract_lets (merge := false) (underBinder := false) +onlyGivenNames m2
  try clear_value m2
  extract_lets (merge := false) (underBinder := false) +onlyGivenNames s3
  have hs3 : Follows T s0 s3 := by
    unfold s3
    refine follows_releaseRun (sub hT (by decide)) ?_
    assumption
  clear_value s3
  try extract_lets (merge := false) (underBinder := false) +onlyGivenNames bad4
  try clear_value bad4
  try extract_lets (merge := false) (underBinder := false) +onlyGivenNames counted5
  try clear_value counted5
  try extract_lets (merge := false) (underBinder := false) +onlyGivenNames mine6
  try clear_value mine6
  try extract_lets (merge := false) (underBinder := false) +onlyGivenNames store7
  have hfnstore : ∀  u a1_1, Follows T s0 u → Follows T s0 (store7 u a1_1) := by
    intro  u a1_1 hu
    unfold store7
    refine follows_setQuire (sub hT (by decide)) ?_
    assumption
  try clear_value store7
  split
  · assumption
  · split
    · split
      · refine follows_leafVerified (sub hT (by decide)) ?_
        assumption
      · refine follows_send (sub hT (by decide)) ?_
        refine hfnstore _ _ ?_
        assumption
    · split
      · refine follows_checkAbandoned (sub hT (by decide)) ?_
        refine follows_abandonLeaf (sub hT (by decide)) ?_
        refine hfnstore _ _ ?_
        assumption
      · refine follows_jumpBack (sub hT (by decide)) ?_
        refine hfnstore _ _ ?_
        assumption


theorem follows_execFolioVerdict {T : Part → Bool} {s0 s : State} {a0 : Fin 16} {a1 : Fin 68} (hT : ∀ p ∈ ([.free, .cnt, .bays, .ports, .spn, .out, .cells, .units, .axes, .rdc, .wrc, .cal, .qre, .hiu, .cph, .bdy] : List Part), T p = true) (h : Follows T s0 s) : Answers (Follows T s0) (execFolioVerdict a0 a1 s) := by
  unfold execFolioVerdict
  try extract_lets (merge := false) (underBinder := false) +onlyGivenNames m1
  try clear_value m1
  try extract_lets (merge := false) (underBinder := false) +onlyGivenNames o2
  try clear_value o2
  split
  · refine ⟨_, rfl, ?_⟩
    assumption
  · split
    · refine ⟨_, rfl, ?_⟩
      assumption
    · split
      · refine ⟨_, rfl, ?_⟩
        assumption
      · try extract_lets (merge := false) (underBinder := false) +onlyGivenNames cfg3
        try clear_value cfg3
        try extract_lets (merge := false) (underBinder := false) +onlyGivenNames j4
        try clear_value j4
        try extract_lets (merge := false) (underBinder := false) +onlyGivenNames v5
        try clear_value v5
        try extract_lets (merge := false) (underBinder := false) +onlyGivenNames rec16
        try clear_value rec16
        try extract_lets (merge := false) (underBinder := false) +onlyGivenNames r'7
        try clear_value r'7
        extract_lets (merge := false) (underBinder := false) +onlyGivenNames j8_0 s8
        have hs8 : Follows T s0 s8 := by
          unfold s8
          refine follows_bump (sub hT (by decide)) ?_
          refine upd_wrc (hT _ (by decide)) ?_
          assumption
        clear_value s8
        extract_lets (merge := false) (underBinder := false) +onlyGivenNames s9
        have hs9 : Follows T s0 s9 := by
          unfold s9
          refine follows_noteTrail (sub hT (by decide)) ?_
          refine follows_toCalibration (sub hT (by decide)) ?_
          assumption
        clear_value s9
        extract_lets (merge := false) (underBinder := false) +onlyGivenNames s10
        have hs10 : Follows T s0 s10 := by
          unfold s10
          refine follows_setOpu (sub hT (by decide)) ?_
          assumption
        clear_value s10
        split
        · refine ⟨_, rfl, ?_⟩
          split
          · refine follows_endRun (sub hT (by decide)) ?_
            assumption
          · assumption
        · split
          · refine ⟨_, rfl, ?_⟩
            split
            · refine follows_releaseRun (sub hT (by decide)) ?_
              assumption
            · assumption
          · try extract_lets (merge := false) (underBinder := false) +onlyGivenNames l11
            try clear_value l11
            try extract_lets (merge := false) (underBinder := false) +onlyGivenNames row12
            try clear_value row12
            try extract_lets (merge := false) (underBinder := false) +onlyGivenNames l'13
            try clear_value l'13
            try extract_lets (merge := false) (underBinder := false) +onlyGivenNames q'14
            try clear_value q'14
            extract_lets (merge := false) (underBinder := false) +onlyGivenNames s15
            have hs15 : Follows T s0 s15 := by
              unfold s15
              refine follows_setQuire (sub hT (by decide)) ?_
              assumption
            clear_value s15
            extract_lets (merge := false) (underBinder := false) +onlyGivenNames s16
            have hs16 : Follows T s0 s16 := by
              unfold s16
              split
              · refine follows_runningOpc (sub hT (by decide)) ?_
                assumption
              · assumption
            clear_value s16
            extract_lets (merge := false) (underBinder := false) +onlyGivenNames s17
            have hs17 : Follows T s0 s17 := by
              unfold s17
              refine follows_marginalShare (sub hT (by decide)) ?_
              assumption
            clear_value s17
            refine ⟨_, rfl, ?_⟩
            split
            · refine follows_withSmart (sub hT (by decide)) ?_
              refine follows_finishRun (sub hT (by decide)) ?_
              assumption
            · assumption


theorem follows_execLaserReeval {T : Part → Bool} {s0 s : State} {a0 : Half} (hT : ∀ p ∈ ([.wrc] : List Part), T p = true) (h : Follows T s0 s) : Answers (Follows T s0) (execLaserReeval a0 s) := by
  unfold execLaserReeval
  split
  · refine ⟨_, rfl, ?_⟩
    assumption
  · refine ⟨_, rfl, ?_⟩
    refine follows_clearLaser (sub hT (by decide)) ?_
    assumption


end Sys2Proof.Machine
end

