-- ==== Sys2Proof/Laws/FollowsModes.lean ====
section
/-! SUPPORT. What the operations of Machine/Modes.lean keep: the queue, the canonical form of the sorted stores, the ingest sequence. -/

namespace Sys2Proof.Machine

theorem follows_discLoad {T : Part → Bool} {s0 s : State} {a1 : Nat} (hT : ∀ p ∈ ([.cal] : List Part), T p = true) (h : Follows T s0 s) : Follows T s0 (discLoad s a1) := by
  unfold discLoad
  split
  · refine follows_foldl ?_ ?_
    · assumption
    · intro u1 a1 hu1
      refine follows_dueCal (sub hT (by decide)) ?_
      assumption
  · assumption


theorem follows_beginHold {T : Part → Bool} {s0 s : State} {a1 : Nat} (hT : ∀ p ∈ ([.cnt, .bays, .ports, .spn, .cells, .units, .axes, .cal] : List Part), T p = true) (h : Follows T s0 s) : Follows T s0 (beginHold s a1) := by
  unfold beginHold
  try extract_lets (merge := false) (underBinder := false) +onlyGivenNames y1
  try clear_value y1
  split
  · refine follows_setBay (sub hT (by decide)) ?_
    assumption
  · extract_lets (merge := false) (underBinder := false) +onlyGivenNames s2
    have hs2 : Follows T s0 s2 := by
      unfold s2
      refine follows_forEach ?_ ?_
      · assumption
      · intro u3 a3 hu3
        refine follows_setCell (sub hT (by decide)) ?_
        assumption
    clear_value s2
    extract_lets (merge := false) (underBinder := false) +onlyGivenNames j4_0 s4
    have hs4 : Follows T s0 s4 := by
      unfold s4
      refine upd_spn (hT _ (by decide)) ?_
      assumption
    clear_value s4
    extract_lets (merge := false) (underBinder := false) +onlyGivenNames s5
    have hs5 : Follows T s0 s5 := by
      unfold s5
      refine follows_setBay (sub hT (by decide)) ?_
      assumption
    clear_value s5
    extract_lets (merge := false) (underBinder := false) +onlyGivenNames j6_0 s6
    have hs6 : Follows T s0 s6 := by
      unfold s6
      refine upd_cal (hT _ (by decide)) ?_
      assumption
    clear_value s6
    split
    · refine follows_holdRetract (sub hT (by decide)) ?_
      assumption
    · assumption


theorem follows_leaveHold {T : Part → Bool} {s0 s : State} {a1 : Nat} {a2 : Nat} (hT : ∀ p ∈ ([.cnt, .bays] : List Part), T p = true) (h : Follows T s0 s) : Follows T s0 (leaveHold s a1 a2) := by
  unfold leaveHold
  try extract_lets (merge := false) (underBinder := false) +onlyGivenNames y1
  try clear_value y1
  extract_lets (merge := false) (underBinder := false) +onlyGivenNames s2
  have hs2 : Follows T s0 s2 := by
    unfold s2
    refine follows_setBay (sub hT (by decide)) ?_
    assumption
  clear_value s2
  refine follows_bump (sub hT (by decide)) ?_
  assumption


theorem follows_setMode {T : Part → Bool} {s0 s : State} {a1 : Nat} {a2 : Nat} (hT : ∀ p ∈ ([.cnt, .bays, .ports, .spn, .cells, .units, .axes, .cal, .bdy] : List Part), T p = true) (h : Follows T s0 s) : Follows T s0 (setMode s a1 a2) := by
  unfold setMode
  try extract_lets (merge := false) (underBinder := false) +onlyGivenNames y1
  try clear_value y1
  split
  · refine follows_countEvent (sub hT (by decide)) ?_
    assumption
  · split
    · refine follows_beginHold (sub hT (by decide)) ?_
      assumption
    · split
      · extract_lets (merge := false) (underBinder := false) +onlyGivenNames s2
        have hs2 : Follows T s0 s2 := by
          unfold s2
          refine follows_setBay (sub hT (by decide)) ?_
          assumption
        clear_value s2
        try extract_lets (merge := false) (underBinder := false) +onlyGivenNames u3
        try clear_value u3
        split
        · refine follows_orderUnit (sub hT (by decide)) ?_
          assumption
        · assumption
      · split
        · refine follows_leaveHold (sub hT (by decide)) ?_
          assumption
        · extract_lets (merge := false) (underBinder := false) +onlyGivenNames j4_0 s4
          have hs4 : Follows T s0 s4 := by
            unfold s4
            split
            · refine upd_cal (hT _ (by decide)) ?_
              assumption
            · assumption
          clear_value s4
          refine follows_setBay (sub hT (by decide)) ?_
          assumption


theorem follows_dropCellRegs {T : Part → Bool} {s0 s : State} {a1 : Nat} (hT : ∀ p ∈ ([.regs] : List Part), T p = true) (h : Follows T s0 s) : Follows T s0 (dropCellRegs s a1) := by
  refine follows_stores h rfl ?_ rfl rfl (frame_one (hT _ (by decide)) same_regs)
  rintro ⟨h1, h2⟩
  exact ⟨sortedT_filter h1, h2⟩


theorem follows_leaveStop {T : Part → Bool} {s0 s : State} {a1 : Nat} (hT : ∀ p ∈ ([.bays, .cells] : List Part), T p = true) (h : Follows T s0 s) : Follows T s0 (leaveStop s a1) := by
  unfold leaveStop
  extract_lets (merge := false) (underBinder := false) +onlyGivenNames s1
  have hs1 : Follows T s0 s1 := by
    unfold s1
    refine follows_forEach ?_ ?_
    · assumption
    · intro u2 a2 hu2
      split
      · refine follows_setCell (sub hT (by decide)) ?_
        assumption
      · assumption
  clear_value s1
  refine follows_setBay (sub hT (by decide)) ?_
  assumption


theorem follows_resetBay {T : Part → Bool} {s0 s : State} {a1 : Nat} (hT : ∀ p ∈ ([.regs, .cnt, .bays, .ports, .spn, .cells, .units, .axes, .rdc, .wrc, .cal] : List Part), T p = true) (h : Follows T s0 s) : Follows T s0 (resetBay s a1) := by
  unfold resetBay
  try extract_lets (merge := false) (underBinder := false) +onlyGivenNames changed1
  try clear_value changed1
  extract_lets (merge := false) (underBinder := false) +onlyGivenNames s2
  have hs2 : Follows T s0 s2 := by
    unfold s2
    refine follows_revokeBay (sub hT (by decide)) ?_
    assumption
  clear_value s2
  extract_lets (merge := false) (underBinder := false) +onlyGivenNames s3
  have hs3 : Follows T s0 s3 := by
    unfold s3
    refine follows_dropCellRegs (sub hT (by decide)) ?_
    assumption
  clear_value s3
  extract_lets (merge := false) (underBinder := false) +onlyGivenNames s4
  have hs4 : Follows T s0 s4 := by
    unfold s4
    refine follows_forEach ?_ ?_
    · assumption
    · intro u5 a5 hu5
      refine follows_setCell (sub hT (by decide)) ?_
      assumption
  clear_value s4
  try extract_lets (merge := false) (underBinder := false) +onlyGivenNames u6
  try clear_value u6
  extract_lets (merge := false) (underBinder := false) +onlyGivenNames s7
  have hs7 : Follows T s0 s7 := by
    unfold s7
    refine follows_setUnit (sub hT (by decide)) ?_
    assumption
  clear_value s7
  extract_lets (merge := false) (underBinder := false) +onlyGivenNames s8
  have hs8 : Follows T s0 s8 := by
    unfold s8
    refine follows_forEach ?_ ?_
    · assumption
    · intro u9 a9 hu9
      refine follows_setAxis (sub hT (by decide)) ?_
      assumption
  clear_value s8
  extract_lets (merge := false) (underBinder := false) +onlyGivenNames s10
  have hs10 : Follows T s0 s10 := by
    unfold s10
    refine follows_foldl ?_ ?_
    · assumption
    · intro u11 a11 hu11
      refine follows_setOpu (sub hT (by decide)) ?_
      assumption
  clear_value s10
  extract_lets (merge := false) (underBinder := false) +onlyGivenNames s12
  have hs12 : Follows T s0 s12 := by
    unfold s12
    refine follows_leaveStop (sub hT (by decide)) ?_
    assumption
  clear_value s12
  extract_lets (merge := false) (underBinder := false) +onlyGivenNames j13_0 s13
  have hs13 : Follows T s0 s13 := by
    unfold s13
    refine follows_setBay (sub hT (by decide)) ?_
    assumption
  clear_value s13
  extract_lets (merge := false) (underBinder := false) +onlyGivenNames j14_0 s14
  have hs14 : Follows T s0 s14 := by
    unfold s14
    refine follows_setPort (sub hT (by decide)) ?_
    assumption
  clear_value s14
  extract_lets (merge := false) (underBinder := false) +onlyGivenNames s15
  have hs15 : Follows T s0 s15 := by
    unfold s15
    split
    · refine follows_orderUnitOnce (sub hT (by decide)) ?_
      assumption
    · assumption
  clear_value s15
  split
  · refine follows_bump (sub hT (by decide)) ?_
    assumption
  · assumption


theorem follows_releaseAxes {T : Part → Bool} {s0 s : State} {a1 : Nat} (hT : ∀ p ∈ ([.spn, .axes] : List Part), T p = true) (h : Follows T s0 s) : Follows T s0 (releaseAxes s a1) := by
  unfold releaseAxes
  refine follows_forEach ?_ ?_
  · assumption
  · intro u1 a1 hu1
    split
    · assumption
    · refine follows_orderAxis (sub hT (by decide)) ?_
      assumption


theorem follows_applyBay {T : Part → Bool} {s0 s : State} {a1 : Nat} {a2 : Nat} (hT : ∀ p ∈ ([.regs, .cnt, .bays, .ports, .spn, .cells, .units, .axes, .rdc, .wrc, .cal] : List Part), T p = true) (h : Follows T s0 s) : Follows T s0 (applyBay s a1 a2) := by
  unfold applyBay
  split
  · refine follows_resetBay (sub hT (by decide)) ?_
    assumption
  · split
    · split
      · refine follows_leaveStop (sub hT (by decide)) ?_
        assumption
      · assumption
    · split
      · refine follows_discLoad (sub hT (by decide)) ?_
        assumption
      · split
        · extract_lets (merge := false) (underBinder := false) +onlyGivenNames s1
          have hs1 : Follows T s0 s1 := by
            unfold s1
            split
            · refine follows_leaveStop (sub hT (by decide)) ?_
              assumption
            · assumption
          clear_value s1
          try extract_lets (merge := false) (underBinder := false) +onlyGivenNames y2
          try clear_value y2
          extract_lets (merge := false) (underBinder := false) +onlyGivenNames s3
          have hs3 : Follows T s0 s3 := by
            unfold s3
            refine follows_setBay (sub hT (by decide)) ?_
            assumption
          clear_value s3
          split
          · refine follows_releaseAxes (sub hT (by decide)) ?_
            assumption
          · refine follows_beginHold (sub hT (by decide)) ?_
            assumption
        · assumption


theorem follows_orderSpeed {T : Part → Bool} {s0 s : State} {a1 : Nat} (hT : ∀ p ∈ ([.spn, .units] : List Part), T p = true) (h : Follows T s0 s) : Follows T s0 (orderSpeed s a1) := by
  unfold orderSpeed
  try extract_lets (merge := false) (underBinder := false) +onlyGivenNames u1
  try clear_value u1
  split
  · refine follows_orderUnit (sub hT (by decide)) ?_
    assumption
  · assumption


theorem follows_claimIfFree {T : Part → Bool} {s0 s : State} {a1 : Nat} (hT : ∀ p ∈ ([.bays] : List Part), T p = true) (h : Follows T s0 s) : Follows T s0 (claimIfFree s a1) := by
  unfold claimIfFree
  split
  · refine follows_setBay (sub hT (by decide)) ?_
    assumption
  · assumption


theorem follows_bayHere {T : Part → Bool} {s0 s : State} {a1 : Nat} {a2 : Nat} (hT : ∀ p ∈ ([.regs, .cnt, .bays, .ports, .spn, .out, .cells, .units, .axes, .rdc, .wrc, .cal] : List Part), T p = true) (h : Follows T s0 s) : FollowsFst T s0 (bayHere s a1 a2) := by
  unfold bayHere
  split
  · refine follows_pair ?_
    assumption
  · split
    · refine follows_pair ?_
      assumption
    · split
      · refine follows_pair ?_
        assumption
      · extract_lets (merge := false) (underBinder := false) +onlyGivenNames s1
        have hs1 : Follows T s0 s1 := by
          unfold s1
          refine follows_applyBay (sub hT (by decide)) ?_
          assumption
        clear_value s1
        extract_lets (merge := false) (underBinder := false) +onlyGivenNames s2
        have hs2 : Follows T s0 s2 := by
          unfold s2
          split
          · assumption
          · refine follows_claimIfFree (sub hT (by decide)) ?_
            assumption
        clear_value s2
        refine follows_pair ?_
        refine follows_send (sub hT (by decide)) ?_
        assumption


theorem follows_bayControl {T : Part → Bool} {s0 s : State} {a1 : CmdRef} {a2 : Nat} {a3 : Nat} (hT : ∀ p ∈ ([.regs, .cnt, .bays, .ports, .spn, .out, .cells, .units, .axes, .rdc, .wrc, .cal, .hiu] : List Part), T p = true) (h : Follows T s0 s) : Follows T s0 (bayControl s a1 a2 a3) := by
  unfold bayControl
  split
  · split
    · refine follows_send (sub hT (by decide)) ?_
      assumption
    · refine follows_complete (sub hT (by decide)) ?_
      assumption
  · extract_lets (merge := false) (underBinder := false) +onlyGivenNames x1
    have hx1 : FollowsFst T s0 x1 := by
      unfold x1
      refine follows_bayHere (sub hT (by decide)) ?_
      assumption
    clear_value x1
    refine follows_complete (sub hT (by decide)) ?_
    refine follows_fst ?_
    assumption


theorem follows_hostMode {T : Part → Bool} {s0 s : State} {a1 : Nat} {a2 : BitVec 4} (hT : ∀ p ∈ ([.cnt, .bays, .ports, .spn, .out, .cells, .units, .axes, .cal, .bdy] : List Part), T p = true) (h : Follows T s0 s) : Follows T s0 (hostMode s a1 a2) := by
  unfold hostMode
  extract_lets (merge := false) (underBinder := false) +onlyGivenNames j1_0 s1
  have hs1 : Follows T s0 s1 := by
    unfold s1
    refine follows_setBay (sub hT (by decide)) ?_
    assumption
  clear_value s1
  refine follows_send (sub hT (by decide)) ?_
  refine follows_setMode (sub hT (by decide)) ?_
  assumption


theorem follows_modeSetHere {T : Part → Bool} {s0 s : State} {a1 : Byte} {a2 : BitVec 4} (hT : ∀ p ∈ ([.cnt, .bays, .ports, .spn, .out, .cells, .units, .axes, .cal, .bdy] : List Part), T p = true) (h : Follows T s0 s) : FollowsFst T s0 (modeSetHere s a1 a2) := by
  unfold modeSetHere
  split
  · refine follows_pair ?_
    refine follows_foldl ?_ ?_
    · assumption
    · intro u1 a1 hu1
      split
      · refine follows_countEvent (sub hT (by decide)) ?_
        assumption
      · assumption
  · refine follows_pair ?_
    refine follows_foldl ?_ ?_
    · assumption
    · intro u2 a2 hu2
      refine follows_hostMode (sub hT (by decide)) ?_
      assumption


theorem follows_execModeSet {T : Part → Bool} {s0 s : State} {a0 : CmdRef} {a1 : Byte} {a2 : BitVec 4} (hT : ∀ p ∈ ([.cnt, .bays, .ports, .spn, .out, .cells, .units, .axes, .cal, .hiu, .bdy] : List Part), T p = true) (h : Follows T s0 s) : Answers (Follows T s0) (execModeSet a0 a1 a2 s) := by
  unfold execModeSet
  split
  · refine ⟨_, rfl, ?_⟩
    refine follows_complete (sub hT (by decide)) ?_
    assumption
  · split
    · split
      · refine ⟨_, rfl, ?_⟩
        refine follows_send (sub hT (by decide)) ?_
        assumption
      · refine ⟨_, rfl, ?_⟩
        refine follows_complete (sub hT (by decide)) ?_
        assumption
    · extract_lets (merge := false) (underBinder := false) +onlyGivenNames x1
      have hx1 : FollowsFst T s0 x1 := by
        unfold x1
        refine follows_modeSetHere (sub hT (by decide)) ?_
        assumption
      clear_value x1
      refine ⟨_, rfl, ?_⟩
      refine follows_complete (sub hT (by decide)) ?_
      refine follows_fst ?_
      assumption


theorem follows_execModeChangeEffect {T : Part → Bool} {s0 s : State} {a0 : Fin 16} (hT : ∀ p ∈ ([.cnt, .bays, .spn, .units] : List Part), T p = true) (h : Follows T s0 s) : Answers (Follows T s0) (execModeChangeEffect a0 s) := by
  unfold execModeChangeEffect
  try extract_lets (merge := false) (underBinder := false) +onlyGivenNames b1
  try clear_value b1
  try extract_lets (merge := false) (underBinder := false) +onlyGivenNames y2
  try clear_value y2
  split
  · refine ⟨_, rfl, ?_⟩
    assumption
  · try extract_lets (merge := false) (underBinder := false) +onlyGivenNames d3
    try clear_value d3
    split
    · refine ⟨_, rfl, ?_⟩
      refine follows_orderSpeed (sub hT (by decide)) ?_
      refine follows_bump (sub hT (by decide)) ?_
      refine follows_setBay (sub hT (by decide)) ?_
      assumption
    · refine ⟨_, rfl, ?_⟩
      refine follows_setBay (sub hT (by decide)) ?_
      assumption


theorem follows_execHoldWaitExpiry {T : Part → Bool} {s0 s : State} {a0 : Fin 8} (hT : ∀ p ∈ ([.cnt, .bays, .ports, .spn, .cells, .units, .axes, .rdc, .wrc, .cal] : List Part), T p = true) (h : Follows T s0 s) : Answers (Follows T s0) (execHoldWaitExpiry a0 s) := by
  unfold execHoldWaitExpiry
  try extract_lets (merge := false) (underBinder := false) +onlyGivenNames y1
  try clear_value y1
  split
  · refine ⟨_, rfl, ?_⟩
    assumption
  · refine ⟨_, rfl, ?_⟩
    refine follows_holdRetract (sub hT (by decide)) ?_
    refine follows_revokeBay (sub hT (by decide)) ?_
    assumption


theorem follows_execHoldReached {T : Part → Bool} {s0 s : State} {a0 : Fin 8} (hT : ∀ p ∈ ([.cnt, .bays, .spn, .axes] : List Part), T p = true) (h : Follows T s0 s) : Answers (Follows T s0) (execHoldReached a0 s) := by
  unfold execHoldReached
  try extract_lets (merge := false) (underBinder := false) +onlyGivenNames y1
  try clear_value y1
  try extract_lets (merge := false) (underBinder := false) +onlyGivenNames u2
  try clear_value u2
  split
  · refine ⟨_, rfl, ?_⟩
    assumption
  · extract_lets (merge := false) (underBinder := false) +onlyGivenNames s3
    have hs3 : Follows T s0 s3 := by
      unfold s3
      refine follows_bump (sub hT (by decide)) ?_
      refine follows_setBay (sub hT (by decide)) ?_
      assumption
    clear_value s3
    split
    · refine ⟨_, rfl, ?_⟩
      refine follows_leaveHold (sub hT (by decide)) ?_
      assumption
    · refine ⟨_, rfl, ?_⟩
      split
      · refine follows_releaseAxes (sub hT (by decide)) ?_
        assumption
      · assumption


theorem follows_execBayReset {T : Part → Bool} {s0 s : State} {a0 : CmdRef} {a1 : Fin 8} (hT : ∀ p ∈ ([.regs, .cnt, .bays, .ports, .spn, .out, .cells, .units, .axes, .rdc, .wrc, .cal, .hiu] : List Part), T p = true) (h : Follows T s0 s) : Answers (Follows T s0) (execBayReset a0 a1 s) := by
  unfold execBayReset
  refine ⟨_, rfl, ?_⟩
  refine follows_bayControl (sub hT (by decide)) ?_
  assumption


theorem follows_execLeaveSafeStop {T : Part → Bool} {s0 s : State} {a0 : CmdRef} {a1 : Fin 8} (hT : ∀ p ∈ ([.regs, .cnt, .bays, .ports, .spn, .out, .cells, .units, .axes, .rdc, .wrc, .cal, .hiu] : List Part), T p = true) (h : Follows T s0 s) : Answers (Follows T s0) (execLeaveSafeStop a0 a1 s) := by
  unfold execLeaveSafeStop
  refine ⟨_, rfl, ?_⟩
  refine follows_bayControl (sub hT (by decide)) ?_
  assumption


theorem follows_execDiscLoaded {T : Part → Bool} {s0 s : State} {a0 : CmdRef} {a1 : Fin 8} (hT : ∀ p ∈ ([.regs, .cnt, .bays, .ports, .spn, .out, .cells, .units, .axes, .rdc, .wrc, .cal, .hiu] : List Part), T p = true) (h : Follows T s0 s) : Answers (Follows T s0) (execDiscLoaded a0 a1 s) := by
  unfold execDiscLoaded
  refine ⟨_, rfl, ?_⟩
  refine follows_bayControl (sub hT (by decide)) ?_
  assumption


theorem follows_execPrepareExchange {T : Part → Bool} {s0 s : State} {a0 : CmdRef} {a1 : Fin 8} (hT : ∀ p ∈ ([.regs, .cnt, .bays, .ports, .spn, .out, .cells, .units, .axes, .rdc, .wrc, .cal, .hiu] : List Part), T p = true) (h : Follows T s0 s) : Answers (Follows T s0) (execPrepareExchange a0 a1 s) := by
  unfold execPrepareExchange
  refine ⟨_, rfl, ?_⟩
  refine follows_bayControl (sub hT (by decide)) ?_
  assumption


theorem follows_orderClose {T : Part → Bool} {s0 s : State} {a1 : Nat} {a2 : Nat} (hT : ∀ p ∈ ([.spn, .cells] : List Part), T p = true) (h : Follows T s0 s) : Follows T s0 (orderClose s a1 a2) := by
  unfold orderClose
  split
  · try extract_lets (merge := false) (underBinder := false) +onlyGivenNames c1
    try clear_value c1
    split
    · refine follows_orderCell (sub hT (by decide)) ?_
      assumption
    · assumption
  · assumption


theorem follows_execBayBringupStep {T : Part → Bool} {s0 s : State} {a0 : Fin 8} (hT : ∀ p ∈ ([.bays, .ports, .spn, .cells, .units, .cal] : List Part), T p = true) (h : Follows T s0 s) : Answers (Follows T s0) (execBayBringupStep a0 s) := by
  unfold execBayBringupStep
  try extract_lets (merge := false) (underBinder := false) +onlyGivenNames b1
  try clear_value b1
  try extract_lets (merge := false) (underBinder := false) +onlyGivenNames y2
  try clear_value y2
  try extract_lets (merge := false) (underBinder := false) +onlyGivenNames p3
  try clear_value p3
  split
  · refine ⟨_, rfl, ?_⟩
    assumption
  · split
    · split
      · refine ⟨_, rfl, ?_⟩
        assumption
      · split
        · refine ⟨_, rfl, ?_⟩
          refine follows_setBay (sub hT (by decide)) ?_
          refine follows_setPort (sub hT (by decide)) ?_
          assumption
        · refine ⟨_, rfl, ?_⟩
          refine follows_setBay (sub hT (by decide)) ?_
          refine follows_setPort (sub hT (by decide)) ?_
          assumption
    · refine ⟨_, rfl, ?_⟩
      refine follows_orderClose (sub hT (by decide)) ?_
      refine follows_orderClose (sub hT (by decide)) ?_
      refine follows_setBay (sub hT (by decide)) ?_
      assumption
    · split
      · refine ⟨_, rfl, ?_⟩
        refine follows_orderUnit (sub hT (by decide)) ?_
        refine follows_setBay (sub hT (by decide)) ?_
        assumption
      · refine ⟨_, rfl, ?_⟩
        assumption
    · split
      · refine ⟨_, rfl, ?_⟩
        assumption
      · extract_lets (merge := false) (underBinder := false) +onlyGivenNames s4
        have hs4 : Follows T s0 s4 := by
          unfold s4
          refine follows_foldl ?_ ?_
          · assumption
          · intro u6 a6 hu6
            extract_lets (merge := false) (underBinder := false) +onlyGivenNames s5
            have hs5 : Follows T s0 s5 := by
              unfold s5
              split
              · refine follows_orderClose (sub hT (by decide)) ?_
                assumption
              · assumption
            clear_value s5
            split
            · refine follows_orderClose (sub hT (by decide)) ?_
              refine follows_orderClose (sub hT (by decide)) ?_
              assumption
            · assumption
        clear_value s4
        split
        · refine ⟨_, rfl, ?_⟩
          refine follows_setBay (sub hT (by decide)) ?_
          assumption
        · refine ⟨_, rfl, ?_⟩
          assumption
    · refine ⟨_, rfl, ?_⟩
      refine follows_discLoad (sub hT (by decide)) ?_
      refine follows_setBay (sub hT (by decide)) ?_
      assumption
    · refine ⟨_, rfl, ?_⟩
      assumption


theorem follows_execSpindleHandoff {T : Part → Bool} {s0 s : State} {a0 : Fin 8} (hT : ∀ p ∈ ([.bays] : List Part), T p = true) (h : Follows T s0 s) : Answers (Follows T s0) (execSpindleHandoff a0 s) := by
  unfold execSpindleHandoff
  try extract_lets (merge := false) (underBinder := false) +onlyGivenNames y1
  try clear_value y1
  try extract_lets (merge := false) (underBinder := false) +onlyGivenNames u2
  try clear_value u2
  try extract_lets (merge := false) (underBinder := false) +onlyGivenNames w3
  try clear_value w3
  split
  · refine ⟨_, rfl, ?_⟩
    assumption
  · split
    · refine ⟨_, rfl, ?_⟩
      refine follows_setBay (sub hT (by decide)) ?_
      assumption
    · refine ⟨_, rfl, ?_⟩
      assumption


end Sys2Proof.Machine
end

