-- ==== Sys2Proof/Laws/FollowsCalibrate.lean ====
section
/-! SUPPORT. What the operations of Machine/Calibrate.lean keep: the queue, the canonical form of the sorted stores, the ingest sequence. -/

namespace Sys2Proof.Machine

theorem follows_stamp {T : Part → Bool} {s0 s : State} {a1 : Nat} {a2 : Nat} {a3 : CalKind} (hT : ∀ p ∈ ([.cal] : List Part), T p = true) (h : Follows T s0 s) : Follows T s0 (stamp s a1 a2 a3) := by
  unfold stamp
  try extract_lets (merge := false) (underBinder := false) +onlyGivenNames r1
  try clear_value r1
  try extract_lets (merge := false) (underBinder := false) +onlyGivenNames t2
  try clear_value t2
  try extract_lets (merge := false) (underBinder := false) +onlyGivenNames bit3
  try clear_value bit3
  refine follows_setCal (sub hT (by decide)) ?_
  assumption


theorem follows_orderCal {T : Part → Bool} {s0 s : State} {a1 : Nat} {a2 : Nat} {a3 : Int} (hT : ∀ p ∈ ([.spn, .cells] : List Part), T p = true) (h : Follows T s0 s) : Follows T s0 (orderCal s a1 a2 a3) := by
  unfold orderCal
  refine follows_orderOffset (sub hT (by decide)) ?_
  assumption


theorem follows_applyWhole {T : Part → Bool} {s0 s : State} {a1 : Nat} {a2 : Nat} {a3 : CalKind} {a4 : List Int} (hT : ∀ p ∈ ([.ports, .spn, .cells, .axes, .cal] : List Part), T p = true) (h : Follows T s0 s) : Follows T s0 (applyWhole s a1 a2 a3 a4) := by
  unfold applyWhole
  try extract_lets (merge := false) (underBinder := false) +onlyGivenNames r1
  try clear_value r1
  split
  · refine follows_storeSet (sub hT (by decide)) ?_
    refine follows_setCal (sub hT (by decide)) ?_
    assumption
  · refine follows_setCal (sub hT (by decide)) ?_
    assumption
  · refine follows_orderCal (sub hT (by decide)) ?_
    refine follows_setCal (sub hT (by decide)) ?_
    assumption
  · refine follows_orderCal (sub hT (by decide)) ?_
    refine follows_setCal (sub hT (by decide)) ?_
    assumption
  · refine follows_orderAxis (sub hT (by decide)) ?_
    refine follows_setCal (sub hT (by decide)) ?_
    assumption
  · try extract_lets (merge := false) (underBinder := false) +onlyGivenNames p2
    try clear_value p2
    try extract_lets (merge := false) (underBinder := false) +onlyGivenNames old3
    try clear_value old3
    try extract_lets (merge := false) (underBinder := false) +onlyGivenNames new4
    try clear_value new4
    extract_lets (merge := false) (underBinder := false) +onlyGivenNames s5
    have hs5 : Follows T s0 s5 := by
      unfold s5
      refine follows_foldl ?_ ?_
      · assumption
      · intro u6 a6 hu6
        refine follows_setCal (sub hT (by decide)) ?_
        assumption
    clear_value s5
    refine follows_setPort (sub hT (by decide)) ?_
    assumption


theorem follows_acceptCal {T : Part → Bool} {s0 s : State} {a1 : Nat} {a2 : Nat} {a3 : CalKind} {a4 : Bool} {a5 : List Int} (hT : ∀ p ∈ ([.cnt, .ports, .spn, .cells, .axes, .cal] : List Part), T p = true) (h : Follows T s0 s) : Follows T s0 (acceptCal s a1 a2 a3 a4 a5) := by
  unfold acceptCal
  extract_lets (merge := false) (underBinder := false) +onlyGivenNames s1
  have hs1 : Follows T s0 s1 := by
    unfold s1
    split
    · refine follows_bump (sub hT (by decide)) ?_
      assumption
    · refine follows_bump (sub hT (by decide)) ?_
      assumption
    · refine follows_bump (sub hT (by decide)) ?_
      assumption
    · refine follows_bump (sub hT (by decide)) ?_
      assumption
    · refine follows_bump (sub hT (by decide)) ?_
      assumption
    · assumption
  clear_value s1
  extract_lets (merge := false) (underBinder := false) +onlyGivenNames s2
  have hs2 : Follows T s0 s2 := by
    unfold s2
    refine follows_endJob (sub hT (by decide)) ?_
    refine follows_stamp (sub hT (by decide)) ?_
    assumption
  clear_value s2
  split
  · refine follows_applyWhole (sub hT (by decide)) ?_
    assumption
  · extract_lets (merge := false) (underBinder := false) +onlyGivenNames s3
    have hs3 : Follows T s0 s3 := by
      unfold s3
      split
      · refine follows_storeSet (sub hT (by decide)) ?_
        assumption
      · assumption
    clear_value s3
    try extract_lets (merge := false) (underBinder := false) +onlyGivenNames r4
    try clear_value r4
    refine follows_setCal (sub hT (by decide)) ?_
    assumption


theorem follows_setJob {T : Part → Bool} {s0 s : State} {a1 : CalJob} (hT : ∀ p ∈ ([.cal] : List Part), T p = true) (h : Follows T s0 s) : Follows T s0 (setJob s a1) := by
  unfold setJob
  refine upd_cal (hT _ (by decide)) ?_
  assumption


theorem follows_startTest {T : Part → Bool} {s0 s : State} {a1 : Nat} {a2 : Nat} {a3 : Nat} {a4 : Nat} {a5 : Nat × Nat × Nat} (hT : ∀ p ∈ ([.cnt, .ports, .bfes, .rdc, .wrc, .cal, .qre] : List Part), T p = true) (h : Follows T s0 s) : Follows T s0 (startTest s a1 a2 a3 a4 a5) := by
  unfold startTest
  try extract_lets (merge := false) (underBinder := false) +onlyGivenNames start1
  try clear_value start1
  try extract_lets (merge := false) (underBinder := false) +onlyGivenNames run2
  try clear_value run2
  extract_lets (merge := false) (underBinder := false) +onlyGivenNames j3_0 s3
  have hs3 : Follows T s0 s3 := by
    unfold s3
    refine follows_setSurf (sub hT (by decide)) ?_
    assumption
  clear_value s3
  refine follows_startRun (sub hT (by decide)) ?_
  refine upd_cal (hT _ (by decide)) ?_
  assumption


theorem follows_setNextRun {T : Part → Bool} {s0 s : State} {a1 : Nat} {a2 : Nat} {a3 : Nat} (hT : ∀ p ∈ ([.cnt, .cal] : List Part), T p = true) (h : Follows T s0 s) : Follows T s0 (setNextRun s a1 a2 a3) := by
  unfold setNextRun
  try extract_lets (merge := false) (underBinder := false) +onlyGivenNames r1
  try clear_value r1
  extract_lets (merge := false) (underBinder := false) +onlyGivenNames s2
  have hs2 : Follows T s0 s2 := by
    unfold s2
    refine follows_setCal (sub hT (by decide)) ?_
    assumption
  clear_value s2
  split
  · refine follows_bump (sub hT (by decide)) ?_
    assumption
  · assumption


theorem follows_readSpots {T : Part → Bool} {s0 s : State} {a1 : Nat} {a2 : Nat} {a3 : Bool} (hT : ∀ p ∈ ([.ports, .rdc] : List Part), T p = true) (h : Follows T s0 s) : Follows T s0 (readSpots s a1 a2 a3) := by
  unfold readSpots
  refine follows_foldl ?_ ?_
  · assumption
  · intro u1 a1 hu1
    refine follows_loadChan (sub hT (by decide)) ?_
    assumption


theorem follows_trialPoint {T : Part → Bool} {s0 s : State} {a1 : Nat} {a2 : Nat} {a3 : CalKind} {a4 : Nat} (hT : ∀ p ∈ ([.spn, .cells, .axes] : List Part), T p = true) (h : Follows T s0 s) : Follows T s0 (trialPoint s a1 a2 a3 a4) := by
  unfold trialPoint
  try extract_lets (merge := false) (underBinder := false) +onlyGivenNames n1
  try clear_value n1
  split
  · refine follows_orderOffset (sub hT (by decide)) ?_
    assumption
  · refine follows_orderOffset (sub hT (by decide)) ?_
    assumption
  · refine follows_orderAxis (sub hT (by decide)) ?_
    assumption
  · assumption


theorem follows_beginRun {T : Part → Bool} {s0 s : State} {a1 : Nat} {a2 : Nat} {a3 : CalKind} {a4 : Nat} {a5 : Nat} {a6 : Nat × Nat × Nat} (hT : ∀ p ∈ ([.cnt, .ports, .bfes, .spn, .cells, .axes, .rdc, .wrc, .cal, .qre] : List Part), T p = true) (h : Follows T s0 s) : Follows T s0 (beginRun s a1 a2 a3 a4 a5 a6) := by
  unfold beginRun
  split
  · refine follows_startTest (sub hT (by decide)) ?_
    refine follows_bump (sub hT (by decide)) ?_
    refine follows_setNextRun (sub hT (by decide)) ?_
    assumption
  · extract_lets (merge := false) (underBinder := false) +onlyGivenNames s1
    have hs1 : Follows T s0 s1 := by
      unfold s1
      refine follows_readSpots (sub hT (by decide)) ?_
      assumption
    clear_value s1
    try extract_lets (merge := false) (underBinder := false) +onlyGivenNames p2
    try clear_value p2
    refine follows_setPort (sub hT (by decide)) ?_
    assumption
  · refine follows_trialPoint (sub hT (by decide)) ?_
    refine follows_readSpots (sub hT (by decide)) ?_
    assumption


theorem follows_dropRecords {T : Part → Bool} {s0 s : State} {a1 : Nat} (hT : ∀ p ∈ ([.cal] : List Part), T p = true) (h : Follows T s0 s) : Follows T s0 (dropRecords s a1) := by
  unfold dropRecords
  refine upd_cal (hT _ (by decide)) ?_
  assumption


theorem follows_tempTrigger {T : Part → Bool} {s0 s : State} {a1 : Nat} {a2 : Int} (hT : ∀ p ∈ ([.cal] : List Part), T p = true) (h : Follows T s0 s) : Follows T s0 (tempTrigger s a1 a2) := by
  unfold tempTrigger
  extract_lets (merge := false) (underBinder := false) +onlyGivenNames j1_0 s1
  have hs1 : Follows T s0 s1 := by
    unfold s1
    refine upd_cal (hT _ (by decide)) ?_
    assumption
  clear_value s1
  refine follows_foldl ?_ ?_
  · assumption
  · intro u5 a5 hu5
    try extract_lets (merge := false) (underBinder := false) +onlyGivenNames r2
    try clear_value r2
    extract_lets (merge := false) (underBinder := false) +onlyGivenNames s3
    have hs3 : Follows T s0 s3 := by
      unfold s3
      split
      · refine follows_dueCal (sub hT (by decide)) ?_
        assumption
      · assumption
    clear_value s3
    extract_lets (merge := false) (underBinder := false) +onlyGivenNames s4
    have hs4 : Follows T s0 s4 := by
      unfold s4
      split
      · refine follows_dueCal (sub hT (by decide)) ?_
        assumption
      · assumption
    clear_value s4
    split
    · refine follows_dueCal (sub hT (by decide)) ?_
      refine follows_dueCal (sub hT (by decide)) ?_
      assumption
    · assumption


theorem follows_firstRead {T : Part → Bool} {s0 s : State} {a1 : Nat} {a2 : Nat} (hT : ∀ p ∈ ([.cal] : List Part), T p = true) (h : Follows T s0 s) : Follows T s0 (firstRead s a1 a2) := by
  unfold firstRead
  try extract_lets (merge := false) (underBinder := false) +onlyGivenNames r1
  try clear_value r1
  split
  · assumption
  · refine follows_foldl ?_ ?_
    · refine follows_setCal (sub hT (by decide)) ?_
      assumption
    · intro u2 a2 hu2
      refine follows_dueCal (sub hT (by decide)) ?_
      assumption


theorem follows_exhaustLayer {T : Part → Bool} {s0 s : State} {a1 : Nat} {a2 : Nat} (hT : ∀ p ∈ ([.cnt, .out, .cal, .hiu, .bdy] : List Part), T p = true) (h : Follows T s0 s) : Follows T s0 (exhaustLayer s a1 a2) := by
  unfold exhaustLayer
  extract_lets (merge := false) (underBinder := false) +onlyGivenNames s1
  have hs1 : Follows T s0 s1 := by
    unfold s1
    refine follows_setNextRun (sub hT (by decide)) ?_
    assumption
  clear_value s1
  extract_lets (merge := false) (underBinder := false) +onlyGivenNames j2_0 s2
  have hs2 : Follows T s0 s2 := by
    unfold s2
    refine follows_setCal (sub hT (by decide)) ?_
    assumption
  clear_value s2
  refine follows_vendorEvent (sub hT (by decide)) ?_
  refine follows_event (sub hT (by decide)) ?_
  refine follows_endJob (sub hT (by decide)) ?_
  assumption


theorem follows_execCalibrationRunStart {T : Part → Bool} {s0 s : State} {a0 : Fin 16} {a1 : Fin 16} {a2 : CalKind} {a3 : BitVec 7} (hT : ∀ p ∈ ([.cnt, .bays, .ports, .bfes, .spn, .out, .cells, .units, .axes, .rdc, .wrc, .cal, .qre, .hiu, .bdy] : List Part), T p = true) (h : Follows T s0 s) : Answers (Follows T s0) (execCalibrationRunStart a0 a1 a2 a3 s) := by
  unfold execCalibrationRunStart
  split
  · refine ⟨_, rfl, ?_⟩
    assumption
  · split
    · refine ⟨_, rfl, ?_⟩
      assumption
    · try extract_lets (merge := false) (underBinder := false) +onlyGivenNames r1
      try clear_value r1
      try extract_lets (merge := false) (underBinder := false) +onlyGivenNames n2
      try clear_value n2
      try extract_lets (merge := false) (underBinder := false) +onlyGivenNames act3
      try clear_value act3
      try extract_lets (merge := false) (underBinder := false) +onlyGivenNames frame4
      try clear_value frame4
      split
      · refine ⟨_, rfl, ?_⟩
        refine follows_exhaustLayer (sub hT (by decide)) ?_
        assumption
      · split
        · refine ⟨_, rfl, ?_⟩
          split
          · refine follows_goTo (sub hT (by decide)) ?_
            assumption
          · assumption
        · extract_lets (merge := false) (underBinder := false) +onlyGivenNames s05
          have hs05 : Follows T s0 s05 := by
            unfold s05
            refine follows_grant (sub hT (by decide)) ?_
            refine follows_setJob (sub hT (by decide)) ?_
            assumption
          clear_value s05
          split
          · split
            · refine ⟨_, rfl, ?_⟩
              refine follows_jumpBack (sub hT (by decide)) ?_
              assumption
            · refine ⟨_, rfl, ?_⟩
              refine follows_beginRun (sub hT (by decide)) ?_
              assumption
          · extract_lets (merge := false) (underBinder := false) +onlyGivenNames j6_0 s06
            have hs06 : Follows T s0 s06 := by
              unfold s06
              refine upd_cal (hT _ (by decide)) ?_
              assumption
            clear_value s06
            refine ⟨_, rfl, ?_⟩
            refine follows_beginRun (sub hT (by decide)) ?_
            refine follows_latchCfg (sub hT (by decide)) ?_
            assumption


theorem follows_execCalibrationRunDone {T : Part → Bool} {s0 s : State} {a0 : Fin 16} {a1 : Fin 16} {a2 : CalKind} {a3 : Option (List Int)} (hT : ∀ p ∈ ([.cnt, .bays, .ports, .spn, .out, .cells, .units, .axes, .rdc, .cal, .hiu, .bdy] : List Part), T p = true) (h : Follows T s0 s) : Answers (Follows T s0) (execCalibrationRunDone a0 a1 a2 a3 s) := by
  unfold execCalibrationRunDone
  split
  · refine ⟨_, rfl, ?_⟩
    assumption
  · split
    · refine ⟨_, rfl, ?_⟩
      assumption
    · try extract_lets (merge := false) (underBinder := false) +onlyGivenNames m1
      try clear_value m1
      try extract_lets (merge := false) (underBinder := false) +onlyGivenNames res2
      try clear_value res2
      try extract_lets (merge := false) (underBinder := false) +onlyGivenNames c3
      try clear_value c3
      extract_lets (merge := false) (underBinder := false) +onlyGivenNames s4
      have hs4 : Follows T s0 s4 := by
        unfold s4
        refine follows_endGrant (sub hT (by decide)) ?_
        refine follows_idleCells (sub hT (by decide)) ?_
        refine follows_afterRun (sub hT (by decide)) ?_
        assumption
      clear_value s4
      try extract_lets (merge := false) (underBinder := false) +onlyGivenNames r5
      try clear_value r5
      extract_lets (merge := false) (underBinder := false) +onlyGivenNames s6
      have hs6 : Follows T s0 s6 := by
        unfold s6
        split
        · refine follows_setCal (sub hT (by decide)) ?_
          assumption
        · assumption
      clear_value s6
      try extract_lets (merge := false) (underBinder := false) +onlyGivenNames seq7
      try clear_value seq7
      try extract_lets (merge := false) (underBinder := false) +onlyGivenNames hit8
      try clear_value hit8
      try extract_lets (merge := false) (underBinder := false) +onlyGivenNames n9
      try clear_value n9
      split
      · refine ⟨_, rfl, ?_⟩
        refine follows_acceptCal (sub hT (by decide)) ?_
        assumption
      · split
        · refine ⟨_, rfl, ?_⟩
          refine follows_failCal (sub hT (by decide)) ?_
          assumption
        · split
          · refine ⟨_, rfl, ?_⟩
            refine follows_exhaustLayer (sub hT (by decide)) ?_
            assumption
          · refine ⟨_, rfl, ?_⟩
            refine follows_setJob (sub hT (by decide)) ?_
            assumption


theorem follows_sweepOn {T : Part → Bool} {s0 s : State} {a1 : Nat} (hT : ∀ p ∈ ([.spn, .cells, .axes, .cal] : List Part), T p = true) (h : Follows T s0 s) : FollowsOpt T s0 (sweepOn s a1) := by
  intro t ht
  obtain ⟨j, -, rfl⟩ := Option.map_eq_some_iff.1 ht
  exact follows_trialPoint (sub hT (by decide)) (follows_setJob (sub hT (by decide)) h)


theorem follows_stepGoal {T : Part → Bool} {s0 s : State} {a1 : Nat} {a2 : Nat} {a3 : CalKind} {a4 : List Int} (hT : ∀ p ∈ ([.spn, .cells, .axes, .cal] : List Part), T p = true) (h : Follows T s0 s) : FollowsFst T s0 (stepGoal s a1 a2 a3 a4) := by
  unfold stepGoal
  try extract_lets (merge := false) (underBinder := false) +onlyGivenNames r1
  try clear_value r1
  try extract_lets (merge := false) (underBinder := false) +onlyGivenNames t2
  try clear_value t2
  split
  · split
    · refine follows_pair ?_
      refine follows_setCal (sub hT (by decide)) ?_
      assumption
    · try extract_lets (merge := false) (underBinder := false) +onlyGivenNames x3
      try clear_value x3
      refine follows_pair ?_
      refine follows_orderCal (sub hT (by decide)) ?_
      refine follows_setCal (sub hT (by decide)) ?_
      assumption
  · split
    · refine follows_pair ?_
      refine follows_setCal (sub hT (by decide)) ?_
      assumption
    · try extract_lets (merge := false) (underBinder := false) +onlyGivenNames x4
      try clear_value x4
      refine follows_pair ?_
      refine follows_orderCal (sub hT (by decide)) ?_
      refine follows_setCal (sub hT (by decide)) ?_
      assumption
  · try extract_lets (merge := false) (underBinder := false) +onlyGivenNames c5
    try clear_value c5
    split
    · refine follows_pair ?_
      refine follows_setCal (sub hT (by decide)) ?_
      assumption
    · try extract_lets (merge := false) (underBinder := false) +onlyGivenNames x6
      try clear_value x6
      refine follows_pair ?_
      refine follows_orderAxis (sub hT (by decide)) ?_
      refine follows_setCal (sub hT (by decide)) ?_
      assumption
  · try extract_lets (merge := false) (underBinder := false) +onlyGivenNames cur7
    try clear_value cur7
    split
    · refine follows_pair ?_
      refine follows_setCal (sub hT (by decide)) ?_
      assumption
    · try extract_lets (merge := false) (underBinder := false) +onlyGivenNames x8
      try clear_value x8
      refine follows_pair ?_
      refine follows_setCal (sub hT (by decide)) ?_
      assumption
  · try extract_lets (merge := false) (underBinder := false) +onlyGivenNames p9
    try clear_value p9
    try extract_lets (merge := false) (underBinder := false) +onlyGivenNames t10
    try clear_value t10
    split
    · refine follows_pair ?_
      refine follows_setCal (sub hT (by decide)) ?_
      assumption
    · refine follows_pair ?_
      refine follows_setCal (sub hT (by decide)) ?_
      assumption
  · refine follows_pair ?_
    refine follows_setCal (sub hT (by decide)) ?_
    assumption


theorem follows_recordStep {T : Part → Bool} {s0 s : State} {a1 : Nat} (hT : ∀ p ∈ ([.spn, .cells, .axes, .cal] : List Part), T p = true) (h : Follows T s0 s) : Follows T s0 (recordStep s a1) := by
  have key : ∀ (l : List CalKind) (x : State × Bool) (n : Nat), Follows T s0 x.1 → Follows T s0 (l.foldl (fun (x : State × Bool) k =>
      if x.2 then x else match (calAt x.1 a1 n).goal.find? (fun g => g.1 = k) with
        | some g => stepGoal x.1 a1 n k g.2
        | none => x) x).1 := by
    intro l
    induction l with
    | nil => intro x n hx; exact hx
    | cons k l ih =>
      intro x n hx
      refine ih _ n ?_
      dsimp only
      split
      · exact hx
      · split
        · exact follows_stepGoal (sub hT (by decide)) hx
        · exact hx
  have hk := key [CalKind.focus, .tilt, .corrector, .equaliser, .opc] (s, false) (getD s.cal.curLayer 0 a1) h
  unfold recordStep
  dsimp only
  split
  · exact upd_cal (hT _ (by decide)) hk
  · exact hk


theorem follows_execCalStep {T : Part → Bool} {s0 s : State} {a0 : Fin 16} (hT : ∀ p ∈ ([.spn, .cells, .axes, .cal] : List Part), T p = true) (h : Follows T s0 s) : Answers (Follows T s0) (execCalStep a0 s) := by
  refine ⟨_, rfl, ?_⟩
  have hs := follows_sweepOn (T := T) (a1 := a0) (sub hT (by decide)) h
  cases ho : sweepOn s a0 with
  | some t => exact hs t ho
  | none =>
    show Follows T s0 (if stepped s a0 then s else recordStep s a0)
    split
    · exact h
    · exact follows_recordStep (sub hT (by decide)) h


theorem follows_execCalElapsedTimer {T : Part → Bool} {s0 s : State} {a0 : Bool} (hT : ∀ p ∈ ([.cal] : List Part), T p = true) (h : Follows T s0 s) : Answers (Follows T s0) (execCalElapsedTimer a0 s) := by
  unfold execCalElapsedTimer
  try extract_lets (merge := false) (underBinder := false) +onlyGivenNames h1
  try clear_value h1
  split
  · refine ⟨_, rfl, ?_⟩
    assumption
  · refine ⟨_, rfl, ?_⟩
    refine follows_foldl ?_ ?_
    · assumption
    · intro u5 a5 hu5
      try extract_lets (merge := false) (underBinder := false) +onlyGivenNames r2
      try clear_value r2
      try extract_lets (merge := false) (underBinder := false) +onlyGivenNames old3
      try clear_value old3
      split
      · split
        · refine follows_dueCal (sub hT (by decide)) ?_
          assumption
        · assumption
      · split
        · refine follows_foldl ?_ ?_
          · assumption
          · intro u4 a4 hu4
            refine follows_dueCal (sub hT (by decide)) ?_
            assumption
        · assumption


theorem follows_requestCal {T : Part → Bool} {s0 s : State} {a1 : Nat} {a2 : Nat} {a3 : Nat} (hT : ∀ p ∈ ([.cal] : List Part), T p = true) (h : Follows T s0 s) : Follows T s0 (requestCal s a1 a2 a3) := by
  unfold requestCal
  split
  · refine follows_foldl ?_ ?_
    · assumption
    · intro u1 a1 hu1
      refine follows_dueCal (sub hT (by decide)) ?_
      assumption
  · assumption


theorem follows_execCalReq {T : Part → Bool} {s0 s : State} {a0 : BitVec 4} {a1 : Fin 16} {a2 : Fin 16} (hT : ∀ p ∈ ([.cal] : List Part), T p = true) (h : Follows T s0 s) : Answers (Follows T s0) (execCalReq a0 a1 a2 s) := by
  unfold execCalReq
  split
  · refine ⟨_, rfl, ?_⟩
    assumption
  · refine ⟨_, rfl, ?_⟩
    refine follows_requestCal (sub hT (by decide)) ?_
    assumption


theorem follows_execLaneRetrain {T : Part → Bool} {s0 s : State} {a0 : Fin 8} {a1 : Fin 5} (hT : ∀ p ∈ ([.cnt, .ports] : List Part), T p = true) (h : Follows T s0 s) : Answers (Follows T s0) (execLaneRetrain a0 a1 s) := by
  unfold execLaneRetrain
  try extract_lets (merge := false) (underBinder := false) +onlyGivenNames b1
  try clear_value b1
  try extract_lets (merge := false) (underBinder := false) +onlyGivenNames p2
  try clear_value p2
  try extract_lets (merge := false) (underBinder := false) +onlyGivenNames eye3
  try clear_value eye3
  try extract_lets (merge := false) (underBinder := false) +onlyGivenNames ok4
  try clear_value ok4
  split
  · refine ⟨_, rfl, ?_⟩
    assumption
  · refine ⟨_, rfl, ?_⟩
    refine follows_bump (sub hT (by decide)) ?_
    refine follows_bump (sub hT (by decide)) ?_
    refine follows_setPort (sub hT (by decide)) ?_
    assumption


end Sys2Proof.Machine
end

