-- ==== Sys2Proof/Laws/FollowsColophon.lean ====
section
/-! SUPPORT. What the operations of Machine/Colophon.lean keep: the queue, the canonical form of the sorted stores, the ingest sequence. -/

namespace Sys2Proof.Machine

theorem follows_fileDirectory {T : Part → Bool} {s0 s : State} (hT : ∀ p ∈ ([.bdy] : List Part), T p = true) (h : Follows T s0 s) : Follows T s0 (fileDirectory s) := by
  unfold fileDirectory
  try extract_lets (merge := false) (underBinder := false) +onlyGivenNames k1
  try clear_value k1
  try extract_lets (merge := false) (underBinder := false) +onlyGivenNames d2
  try clear_value d2
  refine upd_bdy (hT _ (by decide)) rfl rfl ?_
  assumption


theorem follows_writeColophon {T : Part → Bool} {s0 s : State} {a1 : Nat} (hT : ∀ p ∈ ([.cnt, .bdy] : List Part), T p = true) (h : Follows T s0 s) : Follows T s0 (writeColophon s a1) := by
  unfold writeColophon
  try extract_lets (merge := false) (underBinder := false) +onlyGivenNames held1
  try clear_value held1
  try extract_lets (merge := false) (underBinder := false) +onlyGivenNames last2
  try clear_value last2
  try extract_lets (merge := false) (underBinder := false) +onlyGivenNames c3
  try clear_value c3
  try extract_lets (merge := false) (underBinder := false) +onlyGivenNames d4
  try clear_value d4
  try extract_lets (merge := false) (underBinder := false) +onlyGivenNames c5
  try clear_value c5
  refine follows_bump (sub hT (by decide)) ?_
  refine upd_bdy (hT _ (by decide)) rfl rfl ?_
  assumption


end Sys2Proof.Machine
end

