-- ==== Sys2Proof/Laws/FollowsFrames.lean ====
section
/-! SUPPORT. What the operations of Machine/Frames.lean keep: the queue, the canonical form of the sorted stores, the ingest sequence. -/

namespace Sys2Proof.Machine

theorem follows_addressUnit {T : Part → Bool} {s0 s : State} {a1 : Nat} {a2 : Nat} {a3 : BitVec 56} (hT : ∀ p ∈ ([.cnt, .ports, .spn, .cells] : List Part), T p = true) (h : Follows T s0 s) : Follows T s0 (addressUnit s a1 a2 a3) := by
  unfold addressUnit
  try extract_lets (merge := false) (underBinder := false) +onlyGivenNames side1
  try clear_value side1
  try extract_lets (merge := false) (underBinder := false) +onlyGivenNames opu2
  try clear_value opu2
  try extract_lets (merge := false) (underBinder := false) +onlyGivenNames p3
  try clear_value p3
  extract_lets (merge := false) (underBinder := false) +onlyGivenNames s4
  have hs4 : Follows T s0 s4 := by
    unfold s4
    refine follows_setPort (sub hT (by decide)) ?_
    assumption
  clear_value s4
  extract_lets (merge := false) (underBinder := false) +onlyGivenNames s5
  have hs5 : Follows T s0 s5 := by
    unfold s5
    split
    · try extract_lets (merge := false) (underBinder := false) +onlyGivenNames c6
      try clear_value c6
      split
      · refine follows_orderCell (sub hT (by decide)) ?_
        assumption
      · assumption
    · assumption
  clear_value s5
  split
  · try extract_lets (merge := false) (underBinder := false) +onlyGivenNames c7
    try clear_value c7
    split
    · assumption
    · try extract_lets (merge := false) (underBinder := false) +onlyGivenNames d8
      try clear_value d8
      split
      · refine follows_setPort (sub hT (by decide)) ?_
        assumption
      · split
        · assumption
        · split
          · refine follows_bump (sub hT (by decide)) ?_
            refine follows_orderCell (sub hT (by decide)) ?_
            assumption
          · refine follows_farMove (sub hT (by decide)) ?_
            assumption
  · assumption


theorem follows_setSnap {T : Part → Bool} {s0 s : State} {a1 : Bool} {a2 : SnapSlot} (hT : ∀ p ∈ ([.tck] : List Part), T p = true) (h : Follows T s0 s) : Follows T s0 (setSnap s a1 a2) := by
  unfold setSnap
  refine upd_tck (hT _ (by decide)) ?_
  assumption


theorem follows_askSnapshot {T : Part → Bool} {s0 s : State} {a1 : Nat} {a2 : Bool} (hT : ∀ p ∈ ([.tck] : List Part), T p = true) (h : Follows T s0 s) : Follows T s0 (askSnapshot s a1 a2) := by
  unfold askSnapshot
  try extract_lets (merge := false) (underBinder := false) +onlyGivenNames busy1
  try clear_value busy1
  extract_lets (merge := false) (underBinder := false) +onlyGivenNames j2_0 s2
  have hs2 : Follows T s0 s2 := by
    unfold s2
    refine upd_tck (hT _ (by decide)) ?_
    assumption
  clear_value s2
  split
  · assumption
  · refine follows_setSnap (sub hT (by decide)) ?_
    assumption


theorem follows_captureKind {T : Part → Bool} {s0 s : State} {a1 : Bool} (hT : ∀ p ∈ ([.tck] : List Part), T p = true) (h : Follows T s0 s) : Follows T s0 (captureKind s a1) := by
  unfold captureKind
  try extract_lets (merge := false) (underBinder := false) +onlyGivenNames x1
  try clear_value x1
  split
  · extract_lets (merge := false) (underBinder := false) +onlyGivenNames s'2
    have hs'2 : Follows T s0 s'2 := by
      unfold s'2
      refine follows_setSnap (sub hT (by decide)) ?_
      assumption
    clear_value s'2
    refine upd_tck (hT _ (by decide)) ?_
    assumption
  · assumption


theorem follows_changeRole {T : Part → Bool} {s0 s : State} {a1 : Nat} {a2 : SampleFrame} (hT : ∀ p ∈ ([.cnt, .bays, .ports, .spn, .cells, .axes, .rdc, .wrc, .cal, .bnd] : List Part), T p = true) (h : Follows T s0 s) : Follows T s0 (changeRole s a1 a2) := by
  unfold changeRole
  try extract_lets (merge := false) (underBinder := false) +onlyGivenNames p1
  try clear_value p1
  try extract_lets (merge := false) (underBinder := false) +onlyGivenNames new2
  try clear_value new2
  split
  · assumption
  · try extract_lets (merge := false) (underBinder := false) +onlyGivenNames handed3
    try clear_value handed3
    extract_lets (merge := false) (underBinder := false) +onlyGivenNames s4
    have hs4 : Follows T s0 s4 := by
      unfold s4
      refine follows_setPair (sub hT (by decide)) ?_
      assumption
    clear_value s4
    split
    · try extract_lets (merge := false) (underBinder := false) +onlyGivenNames y5
      try clear_value y5
      try extract_lets (merge := false) (underBinder := false) +onlyGivenNames running6
      try clear_value running6
      extract_lets (merge := false) (underBinder := false) +onlyGivenNames s7
      have hs7 : Follows T s0 s7 := by
        unfold s7
        refine follows_setBay (sub hT (by decide)) ?_
        assumption
      clear_value s7
      extract_lets (merge := false) (underBinder := false) +onlyGivenNames j8_0 s8
      have hs8 : Follows T s0 s8 := by
        unfold s8
        refine follows_setPort (sub hT (by decide)) ?_
        assumption
      clear_value s8
      extract_lets (merge := false) (underBinder := false) +onlyGivenNames s9
      have hs9 : Follows T s0 s9 := by
        unfold s9
        split
        · refine follows_bump (sub hT (by decide)) ?_
          refine follows_loseArmed (sub hT (by decide)) ?_
          assumption
        · assumption
      clear_value s9
      split
      · refine follows_discLoad (sub hT (by decide)) ?_
        refine follows_dropRecords (sub hT (by decide)) ?_
        assumption
      · assumption
    · split
      · refine follows_dropBayReads (sub hT (by decide)) ?_
        refine follows_revokeBay (sub hT (by decide)) ?_
        split
        · refine follows_loseArmed (sub hT (by decide)) ?_
          assumption
        · assumption
      · assumption


theorem follows_framePort {T : Part → Bool} {s0 s : State} {a1 : Nat} {a2 : SampleFrame} (hT : ∀ p ∈ ([.ports, .bdy] : List Part), T p = true) (h : Follows T s0 s) : Follows T s0 (framePort s a1 a2) := by
  unfold framePort
  try extract_lets (merge := false) (underBinder := false) +onlyGivenNames p1
  try clear_value p1
  try extract_lets (merge := false) (underBinder := false) +onlyGivenNames sl2
  try clear_value sl2
  try extract_lets (merge := false) (underBinder := false) +onlyGivenNames changed3
  try clear_value changed3
  try extract_lets (merge := false) (underBinder := false) +onlyGivenNames eyes4
  try clear_value eyes4
  try extract_lets (merge := false) (underBinder := false) +onlyGivenNames alarm5
  try clear_value alarm5
  try extract_lets (merge := false) (underBinder := false) +onlyGivenNames low6
  try clear_value low6
  extract_lets (merge := false) (underBinder := false) +onlyGivenNames s7
  have hs7 : Follows T s0 s7 := by
    unfold s7
    refine follows_setPort (sub hT (by decide)) ?_
    assumption
  clear_value s7
  refine follows_foldl ?_ ?_
  · assumption
  · intro u8 a8 hu8
    refine follows_event (sub hT (by decide)) ?_
    assumption


theorem follows_frameStops {T : Part → Bool} {s0 s : State} {a1 : Nat} {a2 : SampleFrame} (hT : ∀ p ∈ ([.free, .cnt, .bays, .ports, .spn, .out, .cells, .units, .axes, .rdc, .wrc, .cal, .qre, .hiu, .cph, .bdy] : List Part), T p = true) (h : Follows T s0 s) : Follows T s0 (frameStops s a1 a2) := by
  unfold frameStops
  try extract_lets (merge := false) (underBinder := false) +onlyGivenNames last1
  try clear_value last1
  extract_lets (merge := false) (underBinder := false) +onlyGivenNames s2
  have hs2 : Follows T s0 s2 := by
    unfold s2
    split
    · split
      · refine follows_flyleafGains (sub hT (by decide)) ?_
        refine follows_dropRecords (sub hT (by decide)) ?_
        assumption
      · refine follows_dropRecords (sub hT (by decide)) ?_
        assumption
    · assumption
  clear_value s2
  try extract_lets (merge := false) (underBinder := false) +onlyGivenNames rise3
  try clear_value rise3
  split
  · refine follows_stopBay (sub hT (by decide)) ?_
    assumption
  · assumption


theorem follows_frameCounters {T : Part → Bool} {s0 s : State} {a1 : Nat} {a2 : SampleFrame} (hT : ∀ p ∈ ([.cnt] : List Part), T p = true) (h : Follows T s0 s) : Follows T s0 (frameCounters s a1 a2) := by
  unfold frameCounters
  try extract_lets (merge := false) (underBinder := false) +onlyGivenNames last1
  try clear_value last1
  extract_lets (merge := false) (underBinder := false) +onlyGivenNames s2
  have hs2 : Follows T s0 s2 := by
    unfold s2
    split
    · refine follows_bump (sub hT (by decide)) ?_
      assumption
    · assumption
  clear_value s2
  extract_lets (merge := false) (underBinder := false) +onlyGivenNames s3
  have hs3 : Follows T s0 s3 := by
    unfold s3
    split
    · refine follows_bump (sub hT (by decide)) ?_
      assumption
    · assumption
  clear_value s3
  split
  · refine follows_bump (sub hT (by decide)) ?_
    assumption
  · assumption


theorem follows_seamUnit {T : Part → Bool} {s0 s : State} {a1 : Nat} {a2 : Nat} {a3 : BitVec 56} (hT : ∀ p ∈ ([.ports] : List Part), T p = true) (h : Follows T s0 s) : Follows T s0 (seamUnit s a1 a2 a3) := by
  unfold seamUnit
  try extract_lets (merge := false) (underBinder := false) +onlyGivenNames p1
  try clear_value p1
  refine follows_setPort (sub hT (by decide)) ?_
  assumption


theorem follows_wobbleRecord {T : Part → Bool} {s0 s : State} {a1 : Nat} {a2 : Nat} {a3 : Wobble} (hT : ∀ p ∈ ([.cnt, .ports, .spn, .cells] : List Part), T p = true) (h : Follows T s0 s) : Follows T s0 (wobbleRecord s a1 a2 a3) := by
  unfold wobbleRecord
  split
  · assumption
  · try extract_lets (merge := false) (underBinder := false) +onlyGivenNames ok1
    try clear_value ok1
    try extract_lets (merge := false) (underBinder := false) +onlyGivenNames p2
    try clear_value p2
    try extract_lets (merge := false) (underBinder := false) +onlyGivenNames x3
    try clear_value x3
    extract_lets (merge := false) (underBinder := false) +onlyGivenNames s4
    have hs4 : Follows T s0 s4 := by
      unfold s4
      refine follows_setPort (sub hT (by decide)) ?_
      assumption
    clear_value s4
    split
    · assumption
    · split
      · refine follows_addressUnit (sub hT (by decide)) ?_
        assumption
      · split
        · refine follows_seamUnit (sub hT (by decide)) ?_
          assumption
        · assumption


theorem follows_execSampleFrameLand {T : Part → Bool} {s0 s : State} {a0 : SampleFrame} {a1 : Bool} (hT : ∀ p ∈ ([.free, .cnt, .bays, .ports, .bfes, .spn, .out, .cells, .units, .bus, .axes, .rdc, .wrc, .cal, .qre, .hiu, .cph, .bdy, .bnd] : List Part), T p = true) (h : Follows T s0 s) : Answers (Follows T s0) (execSampleFrameLand a0 a1 s) := by
  unfold execSampleFrameLand
  split
  · refine ⟨_, rfl, ?_⟩
    assumption
  · try extract_lets (merge := false) (underBinder := false) +onlyGivenNames b1
    try clear_value b1
    extract_lets (merge := false) (underBinder := false) +onlyGivenNames s2
    have hs2 : Follows T s0 s2 := by
      unfold s2
      refine follows_framePort (sub hT (by decide)) ?_
      refine follows_frameStops (sub hT (by decide)) ?_
      refine follows_frameCounters (sub hT (by decide)) ?_
      assumption
    clear_value s2
    extract_lets (merge := false) (underBinder := false) +onlyGivenNames s3
    have hs3 : Follows T s0 s3 := by
      unfold s3
      refine follows_busFrame (sub hT (by decide)) ?_
      refine follows_changeRole (sub hT (by decide)) ?_
      assumption
    clear_value s3
    split
    · split
      · refine ⟨_, rfl, ?_⟩
        refine follows_setBay (sub hT (by decide)) ?_
        assumption
      · refine ⟨_, rfl, ?_⟩
        assumption
    · extract_lets (merge := false) (underBinder := false) +onlyGivenNames j4_0 s4
      have hs4 : Follows T s0 s4 := by
        unfold s4
        split
        · refine follows_setBay (sub hT (by decide)) ?_
          assumption
        · assumption
      clear_value s4
      extract_lets (merge := false) (underBinder := false) +onlyGivenNames s5
      have hs5 : Follows T s0 s5 := by
        unfold s5
        refine follows_stageFault (sub hT (by decide)) ?_
        assumption
      clear_value s5
      extract_lets (merge := false) (underBinder := false) +onlyGivenNames s6
      have hs6 : Follows T s0 s6 := by
        unfold s6
        refine follows_foldl ?_ ?_
        · assumption
        · intro u7 a7 hu7
          refine follows_axisInput (sub hT (by decide)) ?_
          assumption
      clear_value s6
      extract_lets (merge := false) (underBinder := false) +onlyGivenNames s8
      have hs8 : Follows T s0 s8 := by
        unfold s8
        refine follows_foldl ?_ ?_
        · assumption
        · intro u9 a9 hu9
          refine follows_wobbleRecord (sub hT (by decide)) ?_
          assumption
      clear_value s8
      split
      · extract_lets (merge := false) (underBinder := false) +onlyGivenNames s10
        have hs10 : Follows T s0 s10 := by
          unfold s10
          refine follows_laserFrame (sub hT (by decide)) ?_
          refine follows_laserFrame (sub hT (by decide)) ?_
          assumption
        clear_value s10
        extract_lets (merge := false) (underBinder := false) +onlyGivenNames s11
        have hs11 : Follows T s0 s11 := by
          unfold s11
          refine follows_streamOn (sub hT (by decide)) ?_
          refine follows_streamOn (sub hT (by decide)) ?_
          assumption
        clear_value s11
        extract_lets (merge := false) (underBinder := false) +onlyGivenNames s12
        have hs12 : Follows T s0 s12 := by
          unfold s12
          refine follows_resumeMove (sub hT (by decide)) ?_
          refine follows_resumeMove (sub hT (by decide)) ?_
          assumption
        clear_value s12
        refine ⟨_, rfl, ?_⟩
        refine follows_tempTrigger (sub hT (by decide)) ?_
        refine follows_tempTrigger (sub hT (by decide)) ?_
        assumption
      · refine ⟨_, rfl, ?_⟩
        assumption


theorem follows_execSampleFrameAbsent {T : Part → Bool} {s0 s : State} {a0 : Fin 8} (hT : ∀ p ∈ ([.cnt, .bays, .ports] : List Part), T p = true) (h : Follows T s0 s) : Answers (Follows T s0) (execSampleFrameAbsent a0 s) := by
  unfold execSampleFrameAbsent
  try extract_lets (merge := false) (underBinder := false) +onlyGivenNames p1
  try clear_value p1
  split
  · refine ⟨_, rfl, ?_⟩
    assumption
  · try extract_lets (merge := false) (underBinder := false) +onlyGivenNames y2
    try clear_value y2
    refine ⟨_, rfl, ?_⟩
    refine follows_bump (sub hT (by decide)) ?_
    refine follows_setBay (sub hT (by decide)) ?_
    refine follows_setPort (sub hT (by decide)) ?_
    assumption


theorem follows_execAbsentStop {T : Part → Bool} {s0 s : State} {a0 : Fin 8} (hT : ∀ p ∈ ([.cnt, .ports] : List Part), T p = true) (h : Follows T s0 s) : Answers (Follows T s0) (execAbsentStop a0 s) := by
  unfold execAbsentStop
  try extract_lets (merge := false) (underBinder := false) +onlyGivenNames p1
  try clear_value p1
  split
  · refine ⟨_, rfl, ?_⟩
    assumption
  · refine ⟨_, rfl, ?_⟩
    refine follows_bump (sub hT (by decide)) ?_
    refine follows_setPort (sub hT (by decide)) ?_
    assumption


theorem follows_execSpotPacket {T : Part → Bool} {s0 s : State} {a0 : Fin 8} {a1 : Fin 16} {a2 : Half} {a3 : Half} {a4 : Bytes} {a5 : Bool} (hT : ∀ p ∈ ([.cnt, .rdc] : List Part), T p = true) (h : Follows T s0 s) : Answers (Follows T s0) (execSpotPacket a0 a1 a2 a3 a4 a5 s) := by
  unfold execSpotPacket
  try extract_lets (merge := false) (underBinder := false) +onlyGivenNames n1
  try clear_value n1
  try extract_lets (merge := false) (underBinder := false) +onlyGivenNames opu2
  try clear_value opu2
  split
  · refine ⟨_, rfl, ?_⟩
    assumption
  · split
    · refine ⟨_, rfl, ?_⟩
      assumption
    · try extract_lets (merge := false) (underBinder := false) +onlyGivenNames c3
      try clear_value c3
      split
      · refine ⟨_, rfl, ?_⟩
        refine follows_bump (sub hT (by decide)) ?_
        assumption
      · split
        · refine ⟨_, rfl, ?_⟩
          assumption
        · try extract_lets (merge := false) (underBinder := false) +onlyGivenNames g4
          try clear_value g4
          refine ⟨_, rfl, ?_⟩
          refine follows_setChan (sub hT (by decide)) ?_
          assumption


theorem follows_execStitchOverrun {T : Part → Bool} {s0 s : State} {a0 : Byte} {a1 : Fin 4} (hT : ∀ p ∈ ([.free, .cnt, .tck, .bays, .ports, .spn, .out, .cells, .units, .axes, .rdc, .wrc, .cal, .qre, .hiu, .cph, .bdy] : List Part), T p = true) (h : Follows T s0 s) : Answers (Follows T s0) (execStitchOverrun a0 a1 s) := by
  unfold execStitchOverrun
  try extract_lets (merge := false) (underBinder := false) +onlyGivenNames k1
  try clear_value k1
  try extract_lets (merge := false) (underBinder := false) +onlyGivenNames hit2
  try clear_value hit2
  split
  · refine ⟨_, rfl, ?_⟩
    assumption
  · extract_lets (merge := false) (underBinder := false) +onlyGivenNames j3_0 s3
    have hs3 : Follows T s0 s3 := by
      unfold s3
      refine upd_tck (hT _ (by decide)) ?_
      assumption
    clear_value s3
    extract_lets (merge := false) (underBinder := false) +onlyGivenNames s4
    have hs4 : Follows T s0 s4 := by
      unfold s4
      refine follows_countEvent (sub hT (by decide)) ?_
      assumption
    clear_value s4
    refine ⟨_, rfl, ?_⟩
    refine follows_foldl ?_ ?_
    · assumption
    · intro u6 a6 hu6
      split
      · extract_lets (merge := false) (underBinder := false) +onlyGivenNames j5_0 s5
        have hs5 : Follows T s0 s5 := by
          unfold s5
          refine follows_setBay (sub hT (by decide)) ?_
          assumption
        clear_value s5
        refine follows_send (sub hT (by decide)) ?_
        refine follows_stopBay (sub hT (by decide)) ?_
        assumption
      · refine follows_withhold (sub hT (by decide)) ?_
        assumption


theorem follows_requestSnapshot {T : Part → Bool} {s0 s : State} {a1 : Bool} (hT : ∀ p ∈ ([.tck, .out] : List Part), T p = true) (h : Follows T s0 s) : Follows T s0 (requestSnapshot s a1) := by
  unfold requestSnapshot
  try extract_lets (merge := false) (underBinder := false) +onlyGivenNames due1
  try clear_value due1
  try extract_lets (merge := false) (underBinder := false) +onlyGivenNames free2
  try clear_value free2
  extract_lets (merge := false) (underBinder := false) +onlyGivenNames s3
  have hs3 : Follows T s0 s3 := by
    unfold s3
    refine follows_askSnapshot (sub hT (by decide)) ?_
    assumption
  clear_value s3
  split
  · refine follows_send (sub hT (by decide)) ?_
    assumption
  · assumption


theorem follows_execSnapshotRequest {T : Part → Bool} {s0 s : State} {a0 : Bool} (hT : ∀ p ∈ ([.tck, .out] : List Part), T p = true) (h : Follows T s0 s) : Answers (Follows T s0) (execSnapshotRequest a0 s) := by
  unfold execSnapshotRequest
  split
  · refine ⟨_, rfl, ?_⟩
    assumption
  · refine ⟨_, rfl, ?_⟩
    refine follows_requestSnapshot (sub hT (by decide)) ?_
    assumption


theorem follows_execSnapshotCapture {T : Part → Bool} {s0 s : State} (hT : ∀ p ∈ ([.tck] : List Part), T p = true) (h : Follows T s0 s) : Answers (Follows T s0) (execSnapshotCapture s) := by
  unfold execSnapshotCapture
  refine ⟨_, rfl, ?_⟩
  refine follows_captureKind (sub hT (by decide)) ?_
  refine follows_captureKind (sub hT (by decide)) ?_
  assumption


theorem follows_releaseSnapshot {T : Part → Bool} {s0 s : State} (hT : ∀ p ∈ ([.tck] : List Part), T p = true) (h : Follows T s0 s) : Follows T s0 (releaseSnapshot s) := by
  unfold releaseSnapshot
  split
  · refine follows_setSnap (sub hT (by decide)) ?_
    assumption
  · assumption


theorem follows_execSnapshotRelease {T : Part → Bool} {s0 s : State} (hT : ∀ p ∈ ([.tck] : List Part), T p = true) (h : Follows T s0 s) : Answers (Follows T s0) (execSnapshotRelease s) := by
  unfold execSnapshotRelease
  split
  · refine ⟨_, rfl, ?_⟩
    assumption
  · refine ⟨_, rfl, ?_⟩
    refine follows_releaseSnapshot (sub hT (by decide)) ?_
    assumption


theorem follows_execOverrunPacketReceive {T : Part → Bool} {s0 s : State} {a0 : Fin 8} {a1 : Dword} (hT : ∀ p ∈ ([.bays, .spn] : List Part), T p = true) (h : Follows T s0 s) : Answers (Follows T s0) (execOverrunPacketReceive a0 a1 s) := by
  unfold execOverrunPacketReceive
  try extract_lets (merge := false) (underBinder := false) +onlyGivenNames x1
  try clear_value x1
  split
  · refine ⟨_, rfl, ?_⟩
    refine follows_withhold (sub hT (by decide)) ?_
    refine follows_setBay (sub hT (by decide)) ?_
    assumption
  · refine ⟨_, rfl, ?_⟩
    assumption


end Sys2Proof.Machine
end

