-- ==== Sys2Proof/Laws/FollowsHeadband.lean ====
section
/-! SUPPORT. What the operations of Machine/Headband.lean keep: the queue, the canonical form of the sorted stores, the ingest sequence. -/

namespace Sys2Proof.Machine

theorem follows_execBfeIdentityAssembled {T : Part → Bool} {s0 s : State} {a0 : Fin 8} (hT : ∀ p ∈ ([.cnt, .ports, .bdy] : List Part), T p = true) (h : Follows T s0 s) : Answers (Follows T s0) (execBfeIdentityAssembled a0 s) := by
  unfold execBfeIdentityAssembled
  try extract_lets (merge := false) (underBinder := false) +onlyGivenNames p1
  try clear_value p1
  split
  · refine ⟨_, rfl, ?_⟩
    assumption
  · split
    · refine ⟨_, rfl, ?_⟩
      refine follows_setPort (sub hT (by decide)) ?_
      assumption
    · split
      · refine ⟨_, rfl, ?_⟩
        assumption
      · extract_lets (merge := false) (underBinder := false) +onlyGivenNames s2
        have hs2 : Follows T s0 s2 := by
          unfold s2
          refine follows_writeColophon (sub hT (by decide)) ?_
          refine follows_setPort (sub hT (by decide)) ?_
          assumption
        clear_value s2
        refine ⟨_, rfl, ?_⟩
        refine follows_setPort (sub hT (by decide)) ?_
        assumption


theorem follows_execHeadbandPortUp {T : Part → Bool} {s0 s : State} {a0 : Fin 8} {a1 : Half} (hT : ∀ p ∈ ([.ports] : List Part), T p = true) (h : Follows T s0 s) : Answers (Follows T s0) (execHeadbandPortUp a0 a1 s) := by
  unfold execHeadbandPortUp
  split
  · refine ⟨_, rfl, ?_⟩
    assumption
  · refine ⟨_, rfl, ?_⟩
    refine follows_setPort (sub hT (by decide)) ?_
    assumption


theorem follows_execBfeEdge {T : Part → Bool} {s0 s : State} {a0 : Fin 8} {a1 : Arrival} {a2 : Arrival} {a3 : Int} (hT : ∀ p ∈ ([.bfes] : List Part), T p = true) (h : Follows T s0 s) : Answers (Follows T s0) (execBfeEdge a0 a1 a2 a3 s) := by
  unfold execBfeEdge
  refine ⟨_, rfl, ?_⟩
  refine follows_setBfe (sub hT (by decide)) ?_
  assumption


theorem follows_execBfeHoldExpiry {T : Part → Bool} {s0 s : State} {a0 : Fin 8} {a1 : Arrival} (hT : ∀ p ∈ ([.bfes] : List Part), T p = true) (h : Follows T s0 s) : Answers (Follows T s0) (execBfeHoldExpiry a0 a1 s) := by
  unfold execBfeHoldExpiry
  try extract_lets (merge := false) (underBinder := false) +onlyGivenNames x1
  try clear_value x1
  split
  · refine ⟨_, rfl, ?_⟩
    assumption
  · refine ⟨_, rfl, ?_⟩
    refine follows_setBfe (sub hT (by decide)) ?_
    assumption


theorem follows_execHeadbandLaneLoss {T : Part → Bool} {s0 s : State} {a0 : Fin 8} {a1 : Fin 3} (hT : ∀ p ∈ ([.ports, .bdy] : List Part), T p = true) (h : Follows T s0 s) : Answers (Follows T s0) (execHeadbandLaneLoss a0 a1 s) := by
  unfold execHeadbandLaneLoss
  try extract_lets (merge := false) (underBinder := false) +onlyGivenNames p1
  try clear_value p1
  split
  · refine ⟨_, rfl, ?_⟩
    assumption
  · try extract_lets (merge := false) (underBinder := false) +onlyGivenNames l2
    try clear_value l2
    try extract_lets (merge := false) (underBinder := false) +onlyGivenNames n3
    try clear_value n3
    refine ⟨_, rfl, ?_⟩
    refine follows_event (sub hT (by decide)) ?_
    refine follows_setPort (sub hT (by decide)) ?_
    assumption


theorem follows_execBfeReset {T : Part → Bool} {s0 s : State} {a0 : Fin 8} (hT : ∀ p ∈ ([.bfes] : List Part), T p = true) (h : Follows T s0 s) : Answers (Follows T s0) (execBfeReset a0 s) := by
  unfold execBfeReset
  refine ⟨_, rfl, ?_⟩
  refine follows_setBfe (sub hT (by decide)) ?_
  assumption


end Sys2Proof.Machine
end

