-- ==== Sys2Proof/Laws/FollowsRead.lean ====
section
/-! SUPPORT. What the operations of Machine/Read.lean keep: the queue, the canonical form of the sorted stores, the ingest sequence. -/

namespace Sys2Proof.Machine

theorem follows_sweepWorked {T : Part → Bool} {s0 s : State} {a1 : Nat} {a2 : Nat} {a3 : Bool} {a4 : Int} (hT : ∀ p ∈ ([.cal] : List Part), T p = true) (h : Follows T s0 s) : Follows T s0 (sweepWorked s a1 a2 a3 a4) := by
  unfold sweepWorked
  extract_lets (merge := false) (underBinder := false) +onlyGivenNames s1
  have hs1 : Follows T s0 s1 := by
    unfold s1
    refine follows_qualityCal (sub hT (by decide)) ?_
    assumption
  clear_value s1
  split
  · refine follows_setJob (sub hT (by decide)) ?_
    assumption
  · assumption


theorem follows_offerTaps {T : Part → Bool} {s0 s : State} {a1 : Nat} {a2 : Nat} {a3 : Tbl (List Int)} (hT : ∀ p ∈ ([.cal] : List Part), T p = true) (h : Follows T s0 s) : Follows T s0 (offerTaps s a1 a2 a3) := by
  unfold offerTaps
  try extract_lets (merge := false) (underBinder := false) +onlyGivenNames cur1
  try clear_value cur1
  try extract_lets (merge := false) (underBinder := false) +onlyGivenNames cand2
  try clear_value cand2
  extract_lets (merge := false) (underBinder := false) +onlyGivenNames s3
  have hs3 : Follows T s0 s3 := by
    unfold s3
    refine follows_dueCal (sub hT (by decide)) ?_
    assumption
  clear_value s3
  split
  · split
    · assumption
    · refine follows_setJob (sub hT (by decide)) ?_
      assumption
  · assumption


theorem follows_setRead {T : Part → Bool} {s0 s : State} {a1 : ReadSt} (hT : ∀ p ∈ ([.rdc] : List Part), T p = true) (h : Follows T s0 s) : Follows T s0 (setRead s a1) := by
  unfold setRead
  refine upd_rdc (hT _ (by decide)) ?_
  assumption


theorem follows_deliver_ {T : Part → Bool} {s0 s : State} {a1 : Nat} {a2 : Nat} {a3 : Nat} (hT : ∀ p ∈ ([.cnt, .rdc, .cal] : List Part), T p = true) (h : Follows T s0 s) : Follows T s0 (deliver_ s a1 a2 a3) := by
  unfold deliver_
  split
  · assumption
  · split
    · assumption
    · try extract_lets (merge := false) (underBinder := false) +onlyGivenNames f'1
      try clear_value f'1
      try extract_lets (merge := false) (underBinder := false) +onlyGivenNames i2
      try clear_value i2
      extract_lets (merge := false) (underBinder := false) +onlyGivenNames s3
      have hs3 : Follows T s0 s3 := by
        unfold s3
        refine follows_setRead (sub hT (by decide)) ?_
        assumption
      clear_value s3
      try extract_lets (merge := false) (underBinder := false) +onlyGivenNames p4
      try clear_value p4
      extract_lets (merge := false) (underBinder := false) +onlyGivenNames j5_0 s5
      have hs5 : Follows T s0 s5 := by
        unfold s5
        split
        · refine upd_cal (hT _ (by decide)) ?_
          assumption
        · assumption
      clear_value s5
      refine follows_bump (sub hT (by decide)) ?_
      refine upd_rdc (hT _ (by decide)) ?_
      assumption


theorem follows_acceptFolio {T : Part → Bool} {s0 s : State} {a1 : Nat} {a2 : Nat} {a3 : ReadSt} {a4 : FolioRd} {a5 : Bytes} (hT : ∀ p ∈ ([.cnt, .rdc, .cal] : List Part), T p = true) (h : Follows T s0 s) : Follows T s0 (acceptFolio s a1 a2 a3 a4 a5) := by
  unfold acceptFolio
  try extract_lets (merge := false) (underBinder := false) +onlyGivenNames opu1
  try clear_value opu1
  try extract_lets (merge := false) (underBinder := false) +onlyGivenNames layer2
  try clear_value layer2
  extract_lets (merge := false) (underBinder := false) +onlyGivenNames j3_0 s3
  have hs3 : Follows T s0 s3 := by
    unfold s3
    refine upd_rdc (hT _ (by decide)) ?_
    assumption
  clear_value s3
  extract_lets (merge := false) (underBinder := false) +onlyGivenNames s4
  have hs4 : Follows T s0 s4 := by
    unfold s4
    split
    · split
      · refine follows_sweepWorked (sub hT (by decide)) ?_
        assumption
      · assumption
    · assumption
  clear_value s4
  extract_lets (merge := false) (underBinder := false) +onlyGivenNames s5
  have hs5 : Follows T s0 s5 := by
    unfold s5
    split
    · refine follows_offerTaps (sub hT (by decide)) ?_
      assumption
    · assumption
  clear_value s5
  refine follows_deliver_ (sub hT (by decide)) ?_
  assumption


theorem follows_orderSweep {T : Part → Bool} {s0 s : State} {a1 : Nat} {a2 : Bool} {a3 : Int} (hT : ∀ p ∈ ([.spn, .cells] : List Part), T p = true) (h : Follows T s0 s) : Follows T s0 (orderSweep s a1 a2 a3) := by
  unfold orderSweep
  refine follows_orderOffset (sub hT (by decide)) ?_
  assumption


theorem follows_dropSweep {T : Part → Bool} {s0 s : State} {a1 : ReadSt} (hT : ∀ p ∈ ([.spn, .cells] : List Part), T p = true) (h : Follows T s0 s) : FollowsFst T s0 (dropSweep s a1) := by
  unfold dropSweep
  split
  · try extract_lets (merge := false) (underBinder := false) +onlyGivenNames others1
    try clear_value others1
    refine follows_pair ?_
    split
    · assumption
    · refine follows_orderSweep (sub hT (by decide)) ?_
      assumption
  · refine follows_pair ?_
    assumption


theorem follows_markDegraded {T : Part → Bool} {s0 s : State} {a1 : Nat} (hT : ∀ p ∈ ([.rdc, .cal] : List Part), T p = true) (h : Follows T s0 s) : Follows T s0 (markDegraded s a1) := by
  unfold markDegraded
  try extract_lets (merge := false) (underBinder := false) +onlyGivenNames m1
  try clear_value m1
  refine follows_mk ?_ rfl rfl rfl rfl rfl rfl rfl rfl rfl rfl rfl same same same same same same same same same same same same same same same same (.inl (hT _ (by decide))) same (.inl (hT _ (by decide))) same same same same same same same same
  assumption


theorem follows_endReads {T : Part → Bool} {s0 s : State} {a1 : Nat} (hT : ∀ p ∈ ([.cnt, .bays, .ports, .spn, .cells, .units, .axes, .rdc, .cal] : List Part), T p = true) (h : Follows T s0 s) : Follows T s0 (endReads s a1) := by
  unfold endReads
  split
  · assumption
  · split
    · refine follows_endGrant (sub hT (by decide)) ?_
      refine follows_idleCells (sub hT (by decide)) ?_
      assumption
    · assumption


theorem follows_endPass {T : Part → Bool} {s0 s : State} {a1 : Nat} (hT : ∀ p ∈ ([.cnt, .bays, .ports, .spn, .cells, .units, .axes, .rdc, .cal] : List Part), T p = true) (h : Follows T s0 s) : Follows T s0 (endPass s a1) := by
  unfold endPass
  split
  · assumption
  · extract_lets (merge := false) (underBinder := false) +onlyGivenNames x1
    have hx1 : FollowsFst T s0 x1 := by
      unfold x1
      split
      · refine follows_dropSweep (sub hT (by decide)) ?_
        assumption
      · refine follows_pair ?_
        assumption
    clear_value x1
    extract_lets (merge := false) (underBinder := false) +onlyGivenNames s2
    have hs2 : Follows T s0 s2 := by
      unfold s2
      refine follows_fst ?_
      assumption
    clear_value s2
    try extract_lets (merge := false) (underBinder := false) +onlyGivenNames r3
    try clear_value r3
    try extract_lets (merge := false) (underBinder := false) +onlyGivenNames opu4
    try clear_value opu4
    try extract_lets (merge := false) (underBinder := false) +onlyGivenNames d5
    try clear_value d5
    extract_lets (merge := false) (underBinder := false) +onlyGivenNames s6
    have hs6 : Follows T s0 s6 := by
      unfold s6
      refine follows_setRead (sub hT (by decide)) ?_
      assumption
    clear_value s6
    extract_lets (merge := false) (underBinder := false) +onlyGivenNames s7
    have hs7 : Follows T s0 s7 := by
      unfold s7
      split
      · refine follows_qualityCal (sub hT (by decide)) ?_
        refine follows_markDegraded (sub hT (by decide)) ?_
        assumption
      · assumption
    clear_value s7
    refine follows_endReads (sub hT (by decide)) ?_
    assumption


theorem follows_settleHold {T : Part → Bool} {s0 s : State} {a1 : Nat} (hT : ∀ p ∈ ([.cnt, .ports, .spn, .cells, .units, .axes] : List Part), T p = true) (h : Follows T s0 s) : Follows T s0 (settleHold s a1) := by
  unfold settleHold
  try extract_lets (merge := false) (underBinder := false) +onlyGivenNames y1
  try clear_value y1
  split
  · refine follows_holdRetract (sub hT (by decide)) ?_
    assumption
  · assumption


theorem follows_strike {T : Part → Bool} {s0 s : State} {a1 : Nat} {a2 : Nat} (hT : ∀ p ∈ ([.free, .cnt, .bays, .ports, .spn, .out, .cells, .units, .axes, .rdc, .wrc, .cal, .qre, .hiu, .cph, .bdy] : List Part), T p = true) (h : Follows T s0 s) : Follows T s0 (strike s a1 a2) := by
  unfold strike
  try extract_lets (merge := false) (underBinder := false) +onlyGivenNames x1
  try clear_value x1
  try extract_lets (merge := false) (underBinder := false) +onlyGivenNames w2
  try clear_value w2
  try extract_lets (merge := false) (underBinder := false) +onlyGivenNames ks3
  try clear_value ks3
  extract_lets (merge := false) (underBinder := false) +onlyGivenNames s4
  have hs4 : Follows T s0 s4 := by
    unfold s4
    refine follows_bump (sub hT (by decide)) ?_
    refine follows_setSurf (sub hT (by decide)) ?_
    assumption
  clear_value s4
  split
  · extract_lets (merge := false) (underBinder := false) +onlyGivenNames j5_0 s5
    have hs5 : Follows T s0 s5 := by
      unfold s5
      refine follows_setSurf (sub hT (by decide)) ?_
      assumption
    clear_value s5
    extract_lets (merge := false) (underBinder := false) +onlyGivenNames s6
    have hs6 : Follows T s0 s6 := by
      unfold s6
      refine follows_vendorEvent (sub hT (by decide)) ?_
      refine follows_countEvent (sub hT (by decide)) ?_
      assumption
    clear_value s6
    extract_lets (merge := false) (underBinder := false) +onlyGivenNames s7
    have hs7 : Follows T s0 s7 := by
      unfold s7
      refine follows_surfaceFailed (sub hT (by decide)) ?_
      assumption
    clear_value s7
    refine follows_settleHold (sub hT (by decide)) ?_
    refine follows_checkVolume (sub hT (by decide)) ?_
    refine follows_qualityCal (sub hT (by decide)) ?_
    assumption
  · assumption


theorem follows_closeRead {T : Part → Bool} {s0 s : State} {a1 : Nat} (hT : ∀ p ∈ ([.free, .cnt, .bays, .ports, .spn, .out, .cells, .units, .axes, .rdc, .wrc, .cal, .qre, .hiu, .cph, .bdy] : List Part), T p = true) (h : Follows T s0 s) : Follows T s0 (closeRead s a1) := by
  unfold closeRead
  split
  · assumption
  · split
    · assumption
    · try extract_lets (merge := false) (underBinder := false) +onlyGivenNames opu1
      try clear_value opu1
      extract_lets (merge := false) (underBinder := false) +onlyGivenNames x2
      have hx2 : FollowsFst T s0 x2 := by
        unfold x2
        refine follows_dropSweep (sub hT (by decide)) ?_
        assumption
      clear_value x2
      extract_lets (merge := false) (underBinder := false) +onlyGivenNames s3
      have hs3 : Follows T s0 s3 := by
        unfold s3
        split
        · refine follows_qualityCal (sub hT (by decide)) ?_
          refine follows_fst ?_
          assumption
        · refine follows_fst ?_
          assumption
      clear_value s3
      extract_lets (merge := false) (underBinder := false) +onlyGivenNames s4
      have hs4 : Follows T s0 s4 := by
        unfold s4
        split
        · refine follows_strike (sub hT (by decide)) ?_
          assumption
        · assumption
      clear_value s4
      refine upd_rdc (hT _ (by decide)) ?_
      assumption


theorem follows_afterFolio {T : Part → Bool} {s0 s : State} {a1 : Nat} (hT : ∀ p ∈ ([.free, .cnt, .bays, .ports, .spn, .out, .cells, .units, .axes, .rdc, .wrc, .cal, .qre, .hiu, .cph, .bdy] : List Part), T p = true) (h : Follows T s0 s) : Follows T s0 (afterFolio s a1) := by
  unfold afterFolio
  split
  · assumption
  · try extract_lets (merge := false) (underBinder := false) +onlyGivenNames opu1
    try clear_value opu1
    extract_lets (merge := false) (underBinder := false) +onlyGivenNames s2
    have hs2 : Follows T s0 s2 := by
      unfold s2
      split
      · refine follows_endPass (sub hT (by decide)) ?_
        assumption
      · assumption
    clear_value s2
    extract_lets (merge := false) (underBinder := false) +onlyGivenNames s3
    have hs3 : Follows T s0 s3 := by
      unfold s3
      split
      · refine follows_foldl ?_ ?_
        · assumption
        · intro u4 a4 hu4
          refine follows_endPass (sub hT (by decide)) ?_
          assumption
      · assumption
    clear_value s3
    refine follows_closeRead (sub hT (by decide)) ?_
    assumption


theorem follows_gaveUp {T : Part → Bool} {s0 s : State} {a1 : ReadSt} (hT : ∀ p ∈ ([.out, .qre] : List Part), T p = true) (h : Follows T s0 s) : Follows T s0 (gaveUp s a1) := by
  unfold gaveUp
  split
  · split
    · refine follows_queueRebuild (sub hT (by decide)) ?_
      assumption
    · refine follows_send (sub hT (by decide)) ?_
      assumption
  · assumption


theorem follows_giveUp {T : Part → Bool} {s0 s : State} {a1 : Nat} {a2 : Nat} (hT : ∀ p ∈ ([.cnt, .out, .rdc, .cal, .qre] : List Part), T p = true) (h : Follows T s0 s) : Follows T s0 (giveUp s a1 a2) := by
  unfold giveUp
  split
  · assumption
  · split
    · refine follows_gaveUp (sub hT (by decide)) ?_
      refine follows_deliver_ (sub hT (by decide)) ?_
      assumption
    · assumption


theorem follows_blankFolio {T : Part → Bool} {s0 s : State} {a1 : Nat} {a2 : ReadSt} {a3 : FolioRd} (hT : ∀ p ∈ ([.cnt, .out, .rdc, .cal, .qre] : List Part), T p = true) (h : Follows T s0 s) : Follows T s0 (blankFolio s a1 a2 a3) := by
  unfold blankFolio
  split
  · refine follows_deliver_ (sub hT (by decide)) ?_
    refine follows_setRead (sub hT (by decide)) ?_
    assumption
  · refine follows_giveUp (sub hT (by decide)) ?_
    refine follows_setRead (sub hT (by decide)) ?_
    assumption


theorem follows_changeSweep {T : Part → Bool} {s0 s : State} {a1 : ReadSt} {a2 : Option (Bool × Int)} (hT : ∀ p ∈ ([.spn, .cells] : List Part), T p = true) (h : Follows T s0 s) : Follows T s0 (changeSweep s a1 a2) := by
  unfold changeSweep
  split
  · assumption
  · extract_lets (merge := false) (underBinder := false) +onlyGivenNames s1
    have hs1 : Follows T s0 s1 := by
      unfold s1
      refine follows_fst ?_
      refine follows_dropSweep (sub hT (by decide)) ?_
      assumption
    clear_value s1
    split
    · refine follows_orderSweep (sub hT (by decide)) ?_
      assumption
    · assumption


theorem follows_enterPass {T : Part → Bool} {s0 s : State} {a1 : Nat} {a2 : Nat} {a3 : Option (Bool × Int)} {a4 : ReadSt} (hT : ∀ p ∈ ([.rdc] : List Part), T p = true) (h : Follows T s0 s) : Follows T s0 (enterPass s a1 a2 a3 a4) := by
  unfold enterPass
  refine follows_setRead (sub hT (by decide)) ?_
  assumption


theorem follows_refuseRead {T : Part → Bool} {s0 s : State} {a1 : Nat} (hT : ∀ p ∈ ([.out, .hiu] : List Part), T p = true) (h : Follows T s0 s) : Follows T s0 (refuseRead s a1) := by
  unfold refuseRead
  split
  · refine follows_complete (sub hT (by decide)) ?_
    assumption
  · assumption


theorem follows_execFolioReadRequest {T : Part → Bool} {s0 s : State} {a0 : ReadReq} (hT : ∀ p ∈ ([.out, .rdc, .hiu] : List Part), T p = true) (h : Follows T s0 s) : Answers (Follows T s0) (execFolioReadRequest a0 s) := by
  unfold execFolioReadRequest
  try extract_lets (merge := false) (underBinder := false) +onlyGivenNames b1
  try clear_value b1
  split
  · refine ⟨_, rfl, ?_⟩
    assumption
  · split
    · refine ⟨_, rfl, ?_⟩
      refine follows_refuseRead (sub hT (by decide)) ?_
      assumption
    · split
      · refine ⟨_, rfl, ?_⟩
        assumption
      · refine ⟨_, rfl, ?_⟩
        refine follows_setRead (sub hT (by decide)) ?_
        assumption


theorem follows_runRate {T : Part → Bool} {s0 s : State} {a1 : Nat} {a2 : Nat} (hT : ∀ p ∈ ([.ports] : List Part), T p = true) (h : Follows T s0 s) : Follows T s0 (runRate s a1 a2) := by
  unfold runRate
  split
  · assumption
  · refine follows_setPort (sub hT (by decide)) ?_
    assumption


theorem follows_startPass {T : Part → Bool} {s0 s : State} {a1 : ReadSt} {a2 : Nat} {a3 : Nat} (hT : ∀ p ∈ ([.bays, .ports, .spn, .cells, .rdc, .cal, .hiu] : List Part), T p = true) (h : Follows T s0 s) : Follows T s0 (startPass s a1 a2 a3) := by
  unfold startPass
  try extract_lets (merge := false) (underBinder := false) +onlyGivenNames opu1
  try clear_value opu1
  extract_lets (merge := false) (underBinder := false) +onlyGivenNames s2
  have hs2 : Follows T s0 s2 := by
    unfold s2
    refine follows_latchCfg (sub hT (by decide)) ?_
    assumption
  clear_value s2
  try extract_lets (merge := false) (underBinder := false) +onlyGivenNames rs3
  try clear_value rs3
  try extract_lets (merge := false) (underBinder := false) +onlyGivenNames slots4
  try clear_value slots4
  try extract_lets (merge := false) (underBinder := false) +onlyGivenNames want5
  try clear_value want5
  extract_lets (merge := false) (underBinder := false) +onlyGivenNames s6
  have hs6 : Follows T s0 s6 := by
    unfold s6
    refine follows_runRate (sub hT (by decide)) ?_
    refine follows_changeSweep (sub hT (by decide)) ?_
    assumption
  clear_value s6
  try extract_lets (merge := false) (underBinder := false) +onlyGivenNames lanes7
  try clear_value lanes7
  extract_lets (merge := false) (underBinder := false) +onlyGivenNames s8
  have hs8 : Follows T s0 s8 := by
    unfold s8
    refine follows_foldl ?_ ?_
    · assumption
    · intro u10 a10 hu10
      refine follows_foldl ?_ ?_
      · assumption
      · intro u9 a9 hu9
        refine follows_loadChan (sub hT (by decide)) ?_
        assumption
  clear_value s8
  extract_lets (merge := false) (underBinder := false) +onlyGivenNames s11
  have hs11 : Follows T s0 s11 := by
    unfold s11
    refine follows_jumpBack (sub hT (by decide)) ?_
    assumption
  clear_value s11
  extract_lets (merge := false) (underBinder := false) +onlyGivenNames j12_0 s12
  have hs12 : Follows T s0 s12 := by
    unfold s12
    refine upd_cal (hT _ (by decide)) ?_
    assumption
  clear_value s12
  extract_lets (merge := false) (underBinder := false) +onlyGivenNames s13
  have hs13 : Follows T s0 s13 := by
    unfold s13
    refine follows_foldl ?_ ?_
    · assumption
    · intro u14 a14 hu14
      refine follows_enterPass (sub hT (by decide)) ?_
      assumption
  clear_value s13
  extract_lets (merge := false) (underBinder := false) +onlyGivenNames j15_0 s15
  have hs15 : Follows T s0 s15 := by
    unfold s15
    refine upd_hiu (hT _ (by decide)) ?_
    assumption
  clear_value s15
  refine follows_grant (sub hT (by decide)) ?_
  assumption


theorem follows_execReadPassStart {T : Part → Bool} {s0 s : State} {a0 : Nat} (hT : ∀ p ∈ ([.bays, .ports, .spn, .cells, .units, .axes, .rdc, .cal, .hiu] : List Part), T p = true) (h : Follows T s0 s) : Answers (Follows T s0) (execReadPassStart a0 s) := by
  unfold execReadPassStart
  split
  · refine ⟨_, rfl, ?_⟩
    assumption
  · try extract_lets (merge := false) (underBinder := false) +onlyGivenNames opu1
    try clear_value opu1
    split
    · refine ⟨_, rfl, ?_⟩
      refine follows_firstRead (sub hT (by decide)) ?_
      assumption
    · split
      · refine ⟨_, rfl, ?_⟩
        assumption
      · split
        · refine ⟨_, rfl, ?_⟩
          refine follows_goTo (sub hT (by decide)) ?_
          assumption
        · split
          · refine ⟨_, rfl, ?_⟩
            assumption
          · refine ⟨_, rfl, ?_⟩
            refine follows_startPass (sub hT (by decide)) ?_
            assumption


theorem follows_execTimingLockLoss {T : Part → Bool} {s0 s : State} {a0 : Fin 64} (hT : ∀ p ∈ ([.rdc] : List Part), T p = true) (h : Follows T s0 s) : Answers (Follows T s0) (execTimingLockLoss a0 s) := by
  unfold execTimingLockLoss
  try extract_lets (merge := false) (underBinder := false) +onlyGivenNames c1
  try clear_value c1
  split
  · refine ⟨_, rfl, ?_⟩
    refine follows_setChan (sub hT (by decide)) ?_
    assumption
  · refine ⟨_, rfl, ?_⟩
    assumption


theorem follows_settleExpired {T : Part → Bool} {s0 s : State} {a1 : Nat} (hT : ∀ p ∈ ([.free, .cnt, .bays, .ports, .spn, .out, .cells, .units, .axes, .rdc, .wrc, .cal, .qre, .hiu, .cph, .bdy] : List Part), T p = true) (h : Follows T s0 s) : Follows T s0 (settleExpired s a1) := by
  unfold settleExpired
  split
  · assumption
  · split
    · extract_lets (merge := false) (underBinder := false) +onlyGivenNames x1
      have hx1 : FollowsFst T s0 x1 := by
        unfold x1
        refine follows_dropSweep (sub hT (by decide)) ?_
        assumption
      clear_value x1
      refine follows_closeRead (sub hT (by decide)) ?_
      refine follows_setRead (sub hT (by decide)) ?_
      refine follows_fst ?_
      assumption
    · assumption


theorem follows_noteCells {T : Part → Bool} {s0 s : State} {a1 : Nat} {a2 : Nat} {a3 : Reading} (hT : ∀ p ∈ ([.rdc] : List Part), T p = true) (h : Follows T s0 s) : Follows T s0 (noteCells s a1 a2 a3) := by
  unfold noteCells
  refine follows_foldl ?_ ?_
  · assumption
  · intro u6 a6 hu6
    split
    · assumption
    · try extract_lets (merge := false) (underBinder := false) +onlyGivenNames c1
      try clear_value c1
      try extract_lets (merge := false) (underBinder := false) +onlyGivenNames q2
      try clear_value q2
      try extract_lets (merge := false) (underBinder := false) +onlyGivenNames g3
      try clear_value g3
      try extract_lets (merge := false) (underBinder := false) +onlyGivenNames alarm4
      try clear_value alarm4
      try extract_lets (merge := false) (underBinder := false) +onlyGivenNames pp5
      try clear_value pp5
      refine follows_setChan (sub hT (by decide)) ?_
      assumption


theorem follows_frameCounts {T : Part → Bool} {s0 s : State} {a1 : Nat} {a2 : Nat} {a3 : Bool} (hT : ∀ p ∈ ([.cnt] : List Part), T p = true) (h : Follows T s0 s) : Follows T s0 (frameCounts s a1 a2 a3) := by
  unfold frameCounts
  extract_lets (merge := false) (underBinder := false) +onlyGivenNames s1
  have hs1 : Follows T s0 s1 := by
    unfold s1
    split
    · refine follows_bump (sub hT (by decide)) ?_
      assumption
    · assumption
  clear_value s1
  extract_lets (merge := false) (underBinder := false) +onlyGivenNames s2
  have hs2 : Follows T s0 s2 := by
    unfold s2
    split
    · refine follows_bump (sub hT (by decide)) ?_
      assumption
    · assumption
  clear_value s2
  extract_lets (merge := false) (underBinder := false) +onlyGivenNames s3
  have hs3 : Follows T s0 s3 := by
    unfold s3
    split
    · refine follows_bump (sub hT (by decide)) ?_
      assumption
    · assumption
  clear_value s3
  extract_lets (merge := false) (underBinder := false) +onlyGivenNames s4
  have hs4 : Follows T s0 s4 := by
    unfold s4
    split
    · refine follows_bump (sub hT (by decide)) ?_
      assumption
    · assumption
  clear_value s4
  extract_lets (merge := false) (underBinder := false) +onlyGivenNames s5
  have hs5 : Follows T s0 s5 := by
    unfold s5
    split
    · assumption
    · refine follows_bumpN (sub hT (by decide)) ?_
      assumption
  clear_value s5
  split
  · refine follows_bump (sub hT (by decide)) ?_
    assumption
  · assumption


theorem follows_sqmAlarms {T : Part → Bool} {s0 s : State} {a1 : Nat} {a2 : Nat} {a3 : Nat} {a4 : Nat} {a5 : List Int} (hT : ∀ p ∈ ([.cnt, .rdc, .cal] : List Part), T p = true) (h : Follows T s0 s) : Follows T s0 (sqmAlarms s a1 a2 a3 a4 a5) := by
  unfold sqmAlarms
  try extract_lets (merge := false) (underBinder := false) +onlyGivenNames n1
  try clear_value n1
  split
  · assumption
  · extract_lets (merge := false) (underBinder := false) +onlyGivenNames s2
    have hs2 : Follows T s0 s2 := by
      unfold s2
      refine follows_bumpN (sub hT (by decide)) ?_
      assumption
    clear_value s2
    split
    · refine follows_qualityCal (sub hT (by decide)) ?_
      assumption
    · split
      · refine follows_setRead (sub hT (by decide)) ?_
        assumption
      · assumption


theorem follows_execFolioReadEnd {T : Part → Bool} {s0 s : State} {a0 : Nat} {a1 : Nat} (hT : ∀ p ∈ ([.free, .cnt, .bays, .ports, .spn, .out, .cells, .units, .axes, .rdc, .wrc, .cal, .qre, .hiu, .cph, .bdy] : List Part), T p = true) (h : Follows T s0 s) : Answers (Follows T s0) (execFolioReadEnd a0 a1 s) := by
  unfold execFolioReadEnd
  split
  · refine ⟨_, rfl, ?_⟩
    assumption
  · split
    · refine ⟨_, rfl, ?_⟩
      assumption
    · split
      · refine ⟨_, rfl, ?_⟩
        split
        · refine follows_closeRead (sub hT (by decide)) ?_
          refine follows_endPass (sub hT (by decide)) ?_
          assumption
        · refine follows_settleExpired (sub hT (by decide)) ?_
          assumption
      · split
        · refine ⟨_, rfl, ?_⟩
          assumption
        · try extract_lets (merge := false) (underBinder := false) +onlyGivenNames opu1
          try clear_value opu1
          try extract_lets (merge := false) (underBinder := false) +onlyGivenNames layer2
          try clear_value layer2
          split
          · refine ⟨_, rfl, ?_⟩
            refine follows_afterFolio (sub hT (by decide)) ?_
            refine follows_blankFolio (sub hT (by decide)) ?_
            assumption
          · try extract_lets (merge := false) (underBinder := false) +onlyGivenNames f'3
            try clear_value f'3
            extract_lets (merge := false) (underBinder := false) +onlyGivenNames s4
            have hs4 : Follows T s0 s4 := by
              unfold s4
              refine follows_noteCells (sub hT (by decide)) ?_
              assumption
            clear_value s4
            extract_lets (merge := false) (underBinder := false) +onlyGivenNames s5
            have hs5 : Follows T s0 s5 := by
              unfold s5
              refine follows_frameCounts (sub hT (by decide)) ?_
              assumption
            clear_value s5
            try extract_lets (merge := false) (underBinder := false) +onlyGivenNames qs6
            try clear_value qs6
            split
            · extract_lets (merge := false) (underBinder := false) +onlyGivenNames s7
              have hs7 : Follows T s0 s7 := by
                unfold s7
                refine follows_setRead (sub hT (by decide)) ?_
                assumption
              clear_value s7
              try extract_lets (merge := false) (underBinder := false) +onlyGivenNames band8
              try clear_value band8
              extract_lets (merge := false) (underBinder := false) +onlyGivenNames j9_0 s9
              have hs9 : Follows T s0 s9 := by
                unfold s9
                refine upd_rdc (hT _ (by decide)) ?_
                assumption
              clear_value s9
              refine ⟨_, rfl, ?_⟩
              refine follows_afterFolio (sub hT (by decide)) ?_
              refine follows_sqmAlarms (sub hT (by decide)) ?_
              assumption
            · extract_lets (merge := false) (underBinder := false) +onlyGivenNames s10
              have hs10 : Follows T s0 s10 := by
                unfold s10
                refine follows_setRead (sub hT (by decide)) ?_
                assumption
              clear_value s10
              refine ⟨_, rfl, ?_⟩
              refine follows_afterFolio (sub hT (by decide)) ?_
              refine follows_giveUp (sub hT (by decide)) ?_
              refine follows_sqmAlarms (sub hT (by decide)) ?_
              assumption


theorem follows_execCodewordDispatch {T : Part → Bool} {s0 s : State} (hT : ∀ p ∈ ([.rdc] : List Part), T p = true) (h : Follows T s0 s) : Answers (Follows T s0) (execCodewordDispatch s) := by
  unfold execCodewordDispatch
  split
  · refine ⟨_, rfl, ?_⟩
    assumption
  · try extract_lets (merge := false) (underBinder := false) +onlyGivenNames n1
    try clear_value n1
    split
    · refine ⟨_, rfl, ?_⟩
      assumption
    · extract_lets (merge := false) (underBinder := false) +onlyGivenNames j2_0 s2
      have hs2 : Follows T s0 s2 := by
        unfold s2
        refine upd_rdc (hT _ (by decide)) ?_
        assumption
      clear_value s2
      split
      · refine ⟨_, rfl, ?_⟩
        assumption
      · split
        · refine ⟨_, rfl, ?_⟩
          assumption
        · refine ⟨_, rfl, ?_⟩
          refine follows_setRead (sub hT (by decide)) ?_
          assumption


theorem follows_execLdpcDecodeDone {T : Part → Bool} {s0 s : State} {a0 : Nat} {a1 : Nat} (hT : ∀ p ∈ ([.free, .cnt, .bays, .ports, .spn, .out, .cells, .units, .axes, .rdc, .wrc, .cal, .qre, .hiu, .cph, .bdy] : List Part), T p = true) (h : Follows T s0 s) : Answers (Follows T s0) (execLdpcDecodeDone a0 a1 s) := by
  unfold execLdpcDecodeDone
  split
  · refine ⟨_, rfl, ?_⟩
    assumption
  · split
    · refine ⟨_, rfl, ?_⟩
      assumption
    · split
      · refine ⟨_, rfl, ?_⟩
        assumption
      · try extract_lets (merge := false) (underBinder := false) +onlyGivenNames opu1
        try clear_value opu1
        try extract_lets (merge := false) (underBinder := false) +onlyGivenNames again2
        try clear_value again2
        try extract_lets (merge := false) (underBinder := false) +onlyGivenNames limit3
        try clear_value limit3
        try extract_lets (merge := false) (underBinder := false) +onlyGivenNames j4_0 f4
        try clear_value f4
        try extract_lets (merge := false) (underBinder := false) +onlyGivenNames bad5
        try clear_value bad5
        try extract_lets (merge := false) (underBinder := false) +onlyGivenNames payload6
        try clear_value payload6
        extract_lets (merge := false) (underBinder := false) +onlyGivenNames j7_0 s7
        have hs7 : Follows T s0 s7 := by
          unfold s7
          refine upd_rdc (hT _ (by decide)) ?_
          assumption
        clear_value s7
        try extract_lets (merge := false) (underBinder := false) +onlyGivenNames r8
        try clear_value r8
        extract_lets (merge := false) (underBinder := false) +onlyGivenNames s9
        have hs9 : Follows T s0 s9 := by
          unfold s9
          refine follows_setRead (sub hT (by decide)) ?_
          assumption
        clear_value s9
        split
        · refine ⟨_, rfl, ?_⟩
          refine follows_closeRead (sub hT (by decide)) ?_
          refine follows_acceptFolio (sub hT (by decide)) ?_
          assumption
        · split
          · refine ⟨_, rfl, ?_⟩
            refine follows_closeRead (sub hT (by decide)) ?_
            refine follows_deliver_ (sub hT (by decide)) ?_
            assumption
          · split
            · try extract_lets (merge := false) (underBinder := false) +onlyGivenNames f10
              try clear_value f10
              extract_lets (merge := false) (underBinder := false) +onlyGivenNames s11
              have hs11 : Follows T s0 s11 := by
                unfold s11
                refine follows_setRead (sub hT (by decide)) ?_
                assumption
              clear_value s11
              refine ⟨_, rfl, ?_⟩
              refine upd_rdc (hT _ (by decide)) ?_
              assumption
            · extract_lets (merge := false) (underBinder := false) +onlyGivenNames s12
              have hs12 : Follows T s0 s12 := by
                unfold s12
                refine follows_setRead (sub hT (by decide)) ?_
                assumption
              clear_value s12
              refine ⟨_, rfl, ?_⟩
              refine follows_closeRead (sub hT (by decide)) ?_
              refine follows_giveUp (sub hT (by decide)) ?_
              assumption


theorem follows_execReadDeadlineExpiry {T : Part → Bool} {s0 s : State} {a0 : Nat} (hT : ∀ p ∈ ([.free, .cnt, .bays, .ports, .spn, .out, .cells, .units, .axes, .rdc, .wrc, .cal, .qre, .hiu, .cph, .bdy] : List Part), T p = true) (h : Follows T s0 s) : Answers (Follows T s0) (execReadDeadlineExpiry a0 s) := by
  unfold execReadDeadlineExpiry
  split
  · refine ⟨_, rfl, ?_⟩
    assumption
  · split
    · refine ⟨_, rfl, ?_⟩
      assumption
    · split
      · refine ⟨_, rfl, ?_⟩
        refine follows_settleExpired (sub hT (by decide)) ?_
        assumption
      · extract_lets (merge := false) (underBinder := false) +onlyGivenNames x1
        have hx1 : FollowsFst T s0 x1 := by
          unfold x1
          split
          · refine follows_pair ?_
            assumption
          · refine follows_dropSweep (sub hT (by decide)) ?_
            assumption
        clear_value x1
        extract_lets (merge := false) (underBinder := false) +onlyGivenNames s2
        have hs2 : Follows T s0 s2 := by
          unfold s2
          refine follows_setRead (sub hT (by decide)) ?_
          refine follows_fst ?_
          assumption
        clear_value s2
        extract_lets (merge := false) (underBinder := false) +onlyGivenNames s3
        have hs3 : Follows T s0 s3 := by
          unfold s3
          refine follows_foldl ?_ ?_
          · assumption
          · intro u4 a4 hu4
            refine follows_deliver_ (sub hT (by decide)) ?_
            assumption
        clear_value s3
        refine ⟨_, rfl, ?_⟩
        refine follows_closeRead (sub hT (by decide)) ?_
        assumption


theorem follows_execTimingLockDeclared {T : Part → Bool} {s0 s : State} {a0 : Fin 64} (hT : ∀ p ∈ ([.rdc] : List Part), T p = true) (h : Follows T s0 s) : Answers (Follows T s0) (execTimingLockDeclared a0 s) := by
  unfold execTimingLockDeclared
  try extract_lets (merge := false) (underBinder := false) +onlyGivenNames c1
  try clear_value c1
  split
  · refine ⟨_, rfl, ?_⟩
    assumption
  · split
    · refine ⟨_, rfl, ?_⟩
      refine follows_setChan (sub hT (by decide)) ?_
      assumption
    · split
      · refine ⟨_, rfl, ?_⟩
        refine follows_setChan (sub hT (by decide)) ?_
        assumption
      · refine ⟨_, rfl, ?_⟩
        assumption


theorem follows_execTimingLockRegained {T : Part → Bool} {s0 s : State} {a0 : Fin 64} (hT : ∀ p ∈ ([.rdc] : List Part), T p = true) (h : Follows T s0 s) : Answers (Follows T s0) (execTimingLockRegained a0 s) := by
  unfold execTimingLockRegained
  try extract_lets (merge := false) (underBinder := false) +onlyGivenNames c1
  try clear_value c1
  split
  · split
    · refine ⟨_, rfl, ?_⟩
      assumption
    · split
      · refine ⟨_, rfl, ?_⟩
        refine follows_setChan (sub hT (by decide)) ?_
        assumption
      · refine ⟨_, rfl, ?_⟩
        assumption
  · refine ⟨_, rfl, ?_⟩
    assumption


end Sys2Proof.Machine
end

