-- ==== Sys2Proof/Laws/FollowsQuireCmd.lean ====
section
/-! SUPPORT. What the operations of Machine/QuireCmd.lean keep: the queue, the canonical form of the sorted stores, the ingest sequence. -/

namespace Sys2Proof.Machine

theorem follows_barrierClose {T : Part → Bool} {s0 s : State} {a1 : Cmd} (hT : ∀ p ∈ ([.cnt, .bays, .ports, .out, .rdc, .wrc, .cal, .qre, .bdy] : List Part), T p = true) (h : Follows T s0 s) : Follows T s0 (barrierClose s a1) := by
  unfold barrierClose
  split
  · refine follows_foldl ?_ ?_
    · assumption
    · intro u1 a1 hu1
      refine follows_closeFor (sub hT (by decide)) ?_
      assumption
  · assumption


theorem follows_fuaClose {T : Part → Bool} {s0 s : State} {a1 : Nat} (hT : ∀ p ∈ ([.cnt, .bays, .ports, .out, .rdc, .wrc, .cal, .qre, .bdy] : List Part), T p = true) (h : Follows T s0 s) : Follows T s0 (fuaClose s a1) := by
  unfold fuaClose
  try extract_lets (merge := false) (underBinder := false) +onlyGivenNames n1
  try clear_value n1
  refine follows_closeFor (sub hT (by decide)) ?_
  refine follows_bumpN (sub hT (by decide)) ?_
  assumption


theorem follows_closeWanted {T : Part → Bool} {s0 s : State} (hT : ∀ p ∈ ([.cnt, .bays, .ports, .out, .rdc, .wrc, .cal, .qre, .bdy] : List Part), T p = true) (h : Follows T s0 s) : Follows T s0 (closeWanted s) := by
  unfold closeWanted
  refine follows_foldl ?_ ?_
  · assumption
  · intro u1 a1 hu1
    split
    · refine follows_fuaClose (sub hT (by decide)) ?_
      assumption
    · split
      · refine follows_barrierClose (sub hT (by decide)) ?_
        assumption
      · assumption


theorem follows_recordAmend {T : Part → Bool} {s0 s : State} {a1 : Amend} (hT : ∀ p ∈ ([.out, .qre] : List Part), T p = true) (h : Follows T s0 s) : Follows T s0 (recordAmend s a1) := by
  unfold recordAmend
  refine follows_send (sub hT (by decide)) ?_
  refine upd_qre (hT _ (by decide)) ?_
  assumption


theorem follows_moveMap {T : Part → Bool} {s0 s : State} {a1 : Nat} {a2 : Nat} {a3 : Nat} {a4 : Nat} (hT : ∀ p ∈ ([.mem] : List Part), T p = true) (h : Follows T s0 s) : Follows T s0 (moveMap s a1 a2 a3 a4) := by
  unfold moveMap
  refine follows_foldl ?_ ?_
  · assumption
  · intro u1 a1 hu1
    refine follows_setMap (sub hT (by decide)) ?_
    assumption


theorem follows_placeRebuilt {T : Part → Bool} {s0 s : State} {a1 : Nat} {a2 : Nat} {a3 : Dword} (hT : ∀ p ∈ ([.cnt, .bays, .ports, .out, .rdc, .wrc, .cal, .qre, .mem, .bdy] : List Part), T p = true) (h : Follows T s0 s) : Follows T s0 (placeRebuilt s a1 a2 a3) := by
  have hw : ∀ (u : State) (q : Qre), Follows T s0 u → Follows T s0 { u with qre := q } :=
    fun u q hu => upd_qre (hT _ (by decide)) hu
  unfold placeRebuilt
  split
  · exact h
  · rename_i src hsrc
    have hx : FollowsOptFst T s0 (match fillingQuire s 2 src.nsid src.zone with
        | some q => some (s, q)
        | none => (openQuire s 2 src.nsid 0 src.zone).bind (fun y => (quireAt y.1 y.2).map (fun q => (y.1, q)))) := by
      split
      · exact follows_someFst h
      · intro p hp
        obtain ⟨y, hy, hp⟩ := Option.bind_eq_some_iff.1 hp
        obtain ⟨q, -, rfl⟩ := Option.map_eq_some_iff.1 hp
        exact follows_openQuire (sub hT (by decide)) h y hy
    extract_lets x
    replace hx : FollowsOptFst T s0 x := hx
    clear_value x
    split
    · exact hw _ _ h
    · rename_i u q
      have hu : Follows T s0 u := hx (u, q) rfl
      extract_lets (merge := false) (underBinder := false) +onlyGivenNames t s1 s2 s3 a s4 s5
      have h1 : Follows T s0 s1 := follows_moveBodies (sub hT (by decide)) hu
      have h2 : Follows T s0 s2 := follows_setQuire (sub hT (by decide)) h1
      have h3 : Follows T s0 s3 := follows_setQuire (sub hT (by decide)) h2
      have h4 : Follows T s0 s4 := follows_recordAmend (sub hT (by decide)) h3
      have h5 : Follows T s0 s5 := follows_bump (sub hT (by decide)) (follows_moveMap (sub hT (by decide)) h4)
      clear_value s5
      split
      · exact follows_closeQuire (sub hT (by decide)) h5
      · exact h5


theorem follows_placeWaiting {T : Part → Bool} {s0 s : State} (hT : ∀ p ∈ ([.cnt, .bays, .ports, .out, .rdc, .wrc, .cal, .qre, .mem, .bdy] : List Part), T p = true) (h : Follows T s0 s) : Follows T s0 (placeWaiting s) := by
  unfold placeWaiting
  try extract_lets (merge := false) (underBinder := false) +onlyGivenNames ws1
  try clear_value ws1
  refine follows_foldl ?_ ?_
  · refine upd_qre (hT _ (by decide)) ?_
    assumption
  · intro u2 a2 hu2
    refine follows_placeRebuilt (sub hT (by decide)) ?_
    assumption


theorem follows_refillNow {T : Part → Bool} {s0 s : State} (hT : ∀ p ∈ ([.cnt, .bays, .ports, .out, .rdc, .wrc, .cal, .qre, .mem, .bdy] : List Part), T p = true) (h : Follows T s0 s) : Follows T s0 (refillNow s) := by
  unfold refillNow
  refine follows_closeWanted (sub hT (by decide)) ?_
  refine follows_placeWaiting (sub hT (by decide)) ?_
  refine follows_fillWaiting (sub hT (by decide)) ?_
  assumption


theorem follows_amendLost {T : Part → Bool} {s0 s : State} {a1 : Quire} {a2 : Nat} {a3 : Nat} (hT : ∀ p ∈ ([.out, .qre] : List Part), T p = true) (h : Follows T s0 s) : Follows T s0 (amendLost s a1 a2 a3) := by
  unfold amendLost
  try extract_lets (merge := false) (underBinder := false) +onlyGivenNames was1
  try clear_value was1
  split
  · assumption
  · try extract_lets (merge := false) (underBinder := false) +onlyGivenNames m2
    try clear_value m2
    extract_lets (merge := false) (underBinder := false) +onlyGivenNames s3
    have hs3 : Follows T s0 s3 := by
      unfold s3
      split
      · refine follows_setQuire (sub hT (by decide)) ?_
        assumption
      · assumption
    clear_value s3
    split
    · assumption
    · refine follows_recordAmend (sub hT (by decide)) ?_
      assumption


theorem follows_finishUnmount {T : Part → Bool} {s0 s : State} (hT : ∀ p ∈ ([.qre] : List Part), T p = true) (h : Follows T s0 s) : Follows T s0 (finishUnmount s) := by
  unfold finishUnmount
  split
  · refine upd_qre (hT _ (by decide)) ?_
    assumption
  · assumption


theorem follows_unmountStep {T : Part → Bool} {s0 s : State} (hT : ∀ p ∈ ([.cnt, .bays, .ports, .out, .rdc, .wrc, .cal, .qre, .cph, .bdy] : List Part), T p = true) (h : Follows T s0 s) : Follows T s0 (unmountStep s) := by
  unfold unmountStep
  try extract_lets (merge := false) (underBinder := false) +onlyGivenNames busy1
  try clear_value busy1
  split
  · assumption
  · extract_lets (merge := false) (underBinder := false) +onlyGivenNames t2
    have ht2 : Follows T s0 t2 := by
      unfold t2
      refine follows_closeDirectory (sub hT (by decide)) ?_
      assumption
    clear_value t2
    split
    · assumption
    · refine follows_finishUnmount (sub hT (by decide)) ?_
      refine follows_send (sub hT (by decide)) ?_
      refine upd_qre (hT _ (by decide)) ?_
      assumption


theorem follows_beginUnmount {T : Part → Bool} {s0 s : State} (hT : ∀ p ∈ ([.cnt, .bays, .ports, .out, .rdc, .wrc, .cal, .qre, .cph, .bdy] : List Part), T p = true) (h : Follows T s0 s) : Follows T s0 (beginUnmount s) := by
  unfold beginUnmount
  split
  · assumption
  · try extract_lets (merge := false) (underBinder := false) +onlyGivenNames fill1
    try clear_value fill1
    extract_lets (merge := false) (underBinder := false) +onlyGivenNames s2
    have hs2 : Follows T s0 s2 := by
      unfold s2
      refine follows_foldl ?_ ?_
      · assumption
      · intro u3 a3 hu3
        refine follows_closeQuire (sub hT (by decide)) ?_
        assumption
    clear_value s2
    refine follows_unmountStep (sub hT (by decide)) ?_
    refine upd_qre (hT _ (by decide)) ?_
    assumption


theorem follows_askUnmount {T : Part → Bool} {s0 s : State} (hT : ∀ p ∈ ([.cnt, .bays, .ports, .out, .rdc, .wrc, .cal, .qre, .cph, .bdy] : List Part), T p = true) (h : Follows T s0 s) : Follows T s0 (askUnmount s) := by
  unfold askUnmount
  split
  · assumption
  · refine follows_send (sub hT (by decide)) ?_
    refine follows_beginUnmount (sub hT (by decide)) ?_
    assumption


theorem follows_beginMount {T : Part → Bool} {s0 s : State} (hT : ∀ p ∈ ([.qre, .bdy] : List Part), T p = true) (h : Follows T s0 s) : Follows T s0 (beginMount s) := by
  unfold beginMount
  split
  · assumption
  · split
    · refine follows_event (sub hT (by decide)) ?_
      assumption
    · refine upd_qre (hT _ (by decide)) ?_
      assumption


theorem follows_cancelLate {T : Part → Bool} {s0 s : State} {a1 : Quire} {a2 : Nat} (hT : ∀ p ∈ ([.free, .cnt, .bays, .ports, .spn, .out, .cells, .units, .axes, .rdc, .wrc, .cal, .qre, .hiu, .cph, .bdy] : List Part), T p = true) (h : Follows T s0 s) : Follows T s0 (cancelLate s a1 a2) := by
  unfold cancelLate
  refine follows_foldl ?_ ?_
  · assumption
  · intro u4 a4 hu4
    try extract_lets (merge := false) (underBinder := false) +onlyGivenNames r1
    try clear_value r1
    try extract_lets (merge := false) (underBinder := false) +onlyGivenNames hits2
    try clear_value hits2
    refine follows_foldl ?_ ?_
    · assumption
    · intro u3 a3 hu3
      refine follows_closeRead (sub hT (by decide)) ?_
      refine follows_deliver_ (sub hT (by decide)) ?_
      refine upd_rdc (hT _ (by decide)) ?_
      assumption


theorem follows_clearAbsent {T : Part → Bool} {s0 s : State} (hT : ∀ p ∈ ([.bays] : List Part), T p = true) (h : Follows T s0 s) : Follows T s0 (clearAbsent s) := by
  unfold clearAbsent
  refine follows_forEach ?_ ?_
  · assumption
  · intro u1 a1 hu1
    refine follows_setBay (sub hT (by decide)) ?_
    assumption


theorem follows_clearFail {T : Part → Bool} {s0 s : State} {a1 : Nat} (hT : ∀ p ∈ ([.out, .qre] : List Part), T p = true) (h : Follows T s0 s) : Follows T s0 (clearFail s a1) := by
  unfold clearFail
  refine follows_noteSurface (sub hT (by decide)) ?_
  refine follows_setSurf (sub hT (by decide)) ?_
  assumption


theorem follows_closeDue {T : Part → Bool} {s0 s : State} (hT : ∀ p ∈ ([.cnt, .bays, .ports, .out, .rdc, .wrc, .cal, .qre, .bdy] : List Part), T p = true) (h : Follows T s0 s) : Follows T s0 (closeDue s) := by
  unfold closeDue
  refine follows_foldl ?_ ?_
  · assumption
  · intro u1 a1 hu1
    split
    · refine follows_closeQuire (sub hT (by decide)) ?_
      assumption
    · split
      · refine follows_closeQuire (sub hT (by decide)) ?_
        assumption
      · assumption


theorem follows_mapBuffered {T : Part → Bool} {s0 s : State} {a1 : Version} (hT : ∀ p ∈ ([.mem] : List Part), T p = true) (h : Follows T s0 s) : Follows T s0 (mapBuffered s a1) := by
  unfold mapBuffered
  split
  · assumption
  · refine follows_foldl ?_ ?_
    · assumption
    · intro u2 a2 hu2
      try extract_lets (merge := false) (underBinder := false) +onlyGivenNames e1
      try clear_value e1
      split
      · refine follows_setMap (sub hT (by decide)) ?_
        assumption
      · assumption


theorem follows_sendMirror {T : Part → Bool} {s0 s : State} {a1 : Version} {a2 : List Ingest} (hT : ∀ p ∈ ([.out] : List Part), T p = true) (h : Follows T s0 s) : Follows T s0 (sendMirror s a1 a2) := by
  unfold sendMirror
  try extract_lets (merge := false) (underBinder := false) +onlyGivenNames bs1
  try clear_value bs1
  refine follows_foldl ?_ ?_
  · refine follows_send (sub hT (by decide)) ?_
    assumption
  · intro u2 a2 hu2
    refine follows_send (sub hT (by decide)) ?_
    assumption


theorem follows_logVersion {T : Part → Bool} {s0 s : State} {a1 : Version} (hT : ∀ p ∈ ([.mem] : List Part), T p = true) (h : Follows T s0 s) : Follows T s0 (logVersion s a1) := by
  unfold logVersion
  try extract_lets (merge := false) (underBinder := false) +onlyGivenNames full1
  try clear_value full1
  extract_lets (merge := false) (underBinder := false) +onlyGivenNames j2_0 s2
  have hs2 : Follows T s0 s2 := by
    unfold s2
    split
    · refine upd_mem (hT _ (by decide)) rfl rfl ?_
      assumption
    · assumption
  clear_value s2
  try extract_lets (merge := false) (underBinder := false) +onlyGivenNames g3
  try clear_value g3
  refine upd_mem (hT _ (by decide)) rfl rfl ?_
  assumption


theorem follows_settleVersion {T : Part → Bool} {s0 s : State} {a1 : Nat} (hT : ∀ p ∈ ([.cnt, .bays, .ports, .out, .rdc, .wrc, .cal, .qre, .mem, .bdy] : List Part), T p = true) (h : Follows T s0 s) : Follows T s0 (settleVersion s a1) := by
  unfold settleVersion
  split
  · assumption
  · extract_lets (merge := false) (underBinder := false) +onlyGivenNames s1
    have hs1 : Follows T s0 s1 := by
      unfold s1
      refine follows_sendMirror (sub hT (by decide)) ?_
      assumption
    clear_value s1
    extract_lets (merge := false) (underBinder := false) +onlyGivenNames s2
    have hs2 : Follows T s0 s2 := by
      unfold s2
      split
      · refine follows_logVersion (sub hT (by decide)) ?_
        assumption
      · assumption
    clear_value s2
    refine follows_closeWanted (sub hT (by decide)) ?_
    refine follows_fillVersion (sub hT (by decide)) ?_
    assumption


theorem follows_keepPieces {T : Part → Bool} {s0 s : State} {a1 : Cmd} (hT : ∀ p ∈ ([.cnt, .bays, .ports, .out, .rdc, .wrc, .cal, .qre, .mem, .bdy] : List Part), T p = true) (h : Follows T s0 s) : Follows T s0 (keepPieces s a1) := by
  unfold keepPieces
  split
  · refine follows_settleVersion (sub hT (by decide)) ?_
    assumption
  · assumption


theorem follows_markLost {T : Part → Bool} {s0 s : State} {a1 : Quire} {a2 : Nat} {a3 : Nat} (hT : ∀ p ∈ ([.mem] : List Part), T p = true) (h : Follows T s0 s) : Follows T s0 (markLost s a1 a2 a3) := by
  unfold markLost
  split
  · assumption
  · try extract_lets (merge := false) (underBinder := false) +onlyGivenNames g1
    try clear_value g1
    try extract_lets (merge := false) (underBinder := false) +onlyGivenNames e2
    try clear_value e2
    split
    · refine follows_setMap (sub hT (by decide)) ?_
      assumption
    · assumption


theorem follows_reportLoss {T : Part → Bool} {s0 s : State} {a1 : Quire} {a2 : Nat} {a3 : Nat} (hT : ∀ p ∈ ([.qre] : List Part), T p = true) (h : Follows T s0 s) : Follows T s0 (reportLoss s a1 a2 a3) := by
  unfold reportLoss
  split
  · assumption
  · try extract_lets (merge := false) (underBinder := false) +onlyGivenNames e1
    try clear_value e1
    refine upd_qre (hT _ (by decide)) ?_
    assumption


theorem follows_rowOutcome {T : Part → Bool} {s0 s : State} {a1 : Quire} {a2 : Nat} {a3 : List Nat} {a4 : Bool} (hT : ∀ p ∈ ([.cnt, .out, .qre, .mem] : List Part), T p = true) (h : Follows T s0 s) : Follows T s0 (rowOutcome s a1 a2 a3 a4) := by
  unfold rowOutcome
  split
  · refine follows_foldl ?_ ?_
    · refine follows_bump (sub hT (by decide)) ?_
      assumption
    · intro u2 a2 hu2
      extract_lets (merge := false) (underBinder := false) +onlyGivenNames s1
      have hs1 : Follows T s0 s1 := by
        unfold s1
        split
        · assumption
        · refine follows_amendLost (sub hT (by decide)) ?_
          assumption
      clear_value s1
      split
      · refine follows_markLost (sub hT (by decide)) ?_
        refine follows_reportLoss (sub hT (by decide)) ?_
        assumption
      · assumption
  · split
    · refine follows_bump (sub hT (by decide)) ?_
      assumption
    · split
      · refine follows_bump (sub hT (by decide)) ?_
        assumption
      · assumption


theorem follows_storeRow {T : Part → Bool} {s0 s : State} {a1 : Quire} {a2 : Nat} {a3 : Tbl Bytes} (hT : ∀ p ∈ ([.qre] : List Part), T p = true) (h : Follows T s0 s) : Follows T s0 (storeRow s a1 a2 a3) := by
  unfold storeRow
  refine upd_qre (hT _ (by decide)) ?_
  assumption


theorem follows_finishRebuild {T : Part → Bool} {s0 s : State} {a1 : Nat} (hT : ∀ p ∈ ([.cnt, .bays, .ports, .out, .rdc, .wrc, .cal, .qre, .mem, .bdy] : List Part), T p = true) (h : Follows T s0 s) : Follows T s0 (finishRebuild s a1) := by
  unfold finishRebuild
  split
  · refine upd_qre (hT _ (by decide)) ?_
    assumption
  · split
    · assumption
    · extract_lets (merge := false) (underBinder := false) +onlyGivenNames j1_0 s1
      have hs1 : Follows T s0 s1 := by
        unfold s1
        refine upd_qre (hT _ (by decide)) ?_
        assumption
      clear_value s1
      extract_lets (merge := false) (underBinder := false) +onlyGivenNames s2
      have hs2 : Follows T s0 s2 := by
        unfold s2
        refine follows_foldl ?_ ?_
        · assumption
        · intro u3 a3 hu3
          refine follows_placeRebuilt (sub hT (by decide)) ?_
          assumption
      clear_value s2
      refine upd_qre (hT _ (by decide)) ?_
      assumption


theorem follows_execReconstructionDone {T : Part → Bool} {s0 s : State} {a0 : Nat} {a1 : Fin 64} {a2 : List (Nat × Bytes)} {a3 : Bool} (hT : ∀ p ∈ ([.free, .cnt, .bays, .ports, .spn, .out, .cells, .units, .axes, .rdc, .wrc, .cal, .qre, .hiu, .mem, .cph, .bdy] : List Part), T p = true) (h : Follows T s0 s) : Answers (Follows T s0) (execReconstructionDone a0 a1 a2 a3 s) := by
  unfold execReconstructionDone
  split
  · refine ⟨_, rfl, ?_⟩
    assumption
  · split
    · refine ⟨_, rfl, ?_⟩
      assumption
    · try extract_lets (merge := false) (underBinder := false) +onlyGivenNames t1
      try clear_value t1
      try extract_lets (merge := false) (underBinder := false) +onlyGivenNames lost2
      try clear_value lost2
      extract_lets (merge := false) (underBinder := false) +onlyGivenNames s13
      have hs13 : Follows T s0 s13 := by
        unfold s13
        refine follows_cancelLate (sub hT (by decide)) ?_
        refine follows_rowOutcome (sub hT (by decide)) ?_
        assumption
      clear_value s13
      extract_lets (merge := false) (underBinder := false) +onlyGivenNames s24
      have hs24 : Follows T s0 s24 := by
        unfold s24
        split
        · refine follows_storeRow (sub hT (by decide)) ?_
          assumption
        · split
          · refine follows_storeRow (sub hT (by decide)) ?_
            assumption
          · assumption
      clear_value s24
      split
      · try extract_lets (merge := false) (underBinder := false) +onlyGivenNames mask5
        try clear_value mask5
        try extract_lets (merge := false) (underBinder := false) +onlyGivenNames q'6
        try clear_value q'6
        refine ⟨_, rfl, ?_⟩
        refine follows_withSmart (sub hT (by decide)) ?_
        refine follows_finishRebuild (sub hT (by decide)) ?_
        refine follows_setQuire (sub hT (by decide)) ?_
        assumption
      · refine ⟨_, rfl, ?_⟩
        refine follows_withSmart (sub hT (by decide)) ?_
        assumption


theorem follows_execQuireAgeTimeout {T : Part → Bool} {s0 s : State} {a0 : Nat} (hT : ∀ p ∈ ([.cnt, .bays, .ports, .out, .rdc, .wrc, .cal, .qre, .mem, .bdy] : List Part), T p = true) (h : Follows T s0 s) : Answers (Follows T s0) (execQuireAgeTimeout a0 s) := by
  unfold execQuireAgeTimeout
  split
  · refine ⟨_, rfl, ?_⟩
    assumption
  · split
    · refine ⟨_, rfl, ?_⟩
      assumption
    · refine ⟨_, rfl, ?_⟩
      refine follows_refillNow (sub hT (by decide)) ?_
      refine follows_closeQuire (sub hT (by decide)) ?_
      assumption


theorem follows_fileIfFull {T : Part → Bool} {s0 s : State} (hT : ∀ p ∈ ([.cnt, .bays, .ports, .out, .rdc, .wrc, .cal, .qre, .cph, .bdy] : List Part), T p = true) (h : Follows T s0 s) : Follows T s0 (fileIfFull s) := by
  unfold fileIfFull
  split
  · refine follows_closeDirectory (sub hT (by decide)) ?_
    assumption
  · assumption


theorem follows_mapGranules {T : Part → Bool} {s0 s : State} {a1 : Quire} (hT : ∀ p ∈ ([.mem] : List Part), T p = true) (h : Follows T s0 s) : Follows T s0 (mapGranules s a1) := by
  unfold mapGranules
  refine follows_foldl ?_ ?_
  · assumption
  · intro u6 a6 hu6
    try extract_lets (merge := false) (underBinder := false) +onlyGivenNames k1
    try clear_value k1
    try extract_lets (merge := false) (underBinder := false) +onlyGivenNames g2
    try clear_value g2
    try extract_lets (merge := false) (underBinder := false) +onlyGivenNames old3
    try clear_value old3
    try extract_lets (merge := false) (underBinder := false) +onlyGivenNames n4
    try clear_value n4
    split
    · assumption
    · try extract_lets (merge := false) (underBinder := false) +onlyGivenNames lost5
      try clear_value lost5
      refine follows_setMap (sub hT (by decide)) ?_
      assumption


theorem follows_fileRecords {T : Part → Bool} {s0 s : State} {a1 : Quire} (hT : ∀ p ∈ ([.qre] : List Part), T p = true) (h : Follows T s0 s) : Follows T s0 (fileRecords s a1) := by
  unfold fileRecords
  extract_lets (merge := false) (underBinder := false) +onlyGivenNames j1_0 s1
  have hs1 : Follows T s0 s1 := by
    unfold s1
    refine upd_qre (hT _ (by decide)) ?_
    assumption
  clear_value s1
  refine follows_foldl ?_ ?_
  · assumption
  · intro u2 a2 hu2
    split
    · refine follows_setQuire (sub hT (by decide)) ?_
      assumption
    · assumption


theorem follows_sealQuire {T : Part → Bool} {s0 s : State} {a1 : Quire} (hT : ∀ p ∈ ([.cnt, .out, .qre, .cmd, .mem] : List Part), T p = true) (h : Follows T s0 s) : Follows T s0 (sealQuire s a1) := by
  unfold sealQuire
  try extract_lets (merge := false) (underBinder := false) +onlyGivenNames q'1
  try clear_value q'1
  extract_lets (merge := false) (underBinder := false) +onlyGivenNames s2
  have hs2 : Follows T s0 s2 := by
    unfold s2
    refine follows_bump (sub hT (by decide)) ?_
    refine follows_setQuire (sub hT (by decide)) ?_
    assumption
  clear_value s2
  extract_lets (merge := false) (underBinder := false) +onlyGivenNames s3
  have hs3 : Follows T s0 s3 := by
    unfold s3
    split
    · refine follows_bump (sub hT (by decide)) ?_
      assumption
    · assumption
  clear_value s3
  extract_lets (merge := false) (underBinder := false) +onlyGivenNames s4
  have hs4 : Follows T s0 s4 := by
    unfold s4
    split
    · refine follows_mapGranules (sub hT (by decide)) ?_
      assumption
    · assumption
  clear_value s4
  extract_lets (merge := false) (underBinder := false) +onlyGivenNames j5_0 s5
  have hs5 : Follows T s0 s5 := by
    unfold s5
    split
    · refine follows_fileRecords (sub hT (by decide)) ?_
      assumption
    · refine upd_qre (hT _ (by decide)) ?_
      assumption
  clear_value s5
  refine follows_releaseVersions (sub hT (by decide)) ?_
  refine follows_sendQuire (sub hT (by decide)) ?_
  assumption


theorem follows_execJournalCommitDone {T : Part → Bool} {s0 s : State} {a0 : Nat} (hT : ∀ p ∈ ([.cnt, .bays, .ports, .out, .rdc, .wrc, .cal, .qre, .cmd, .mem, .cph, .bdy] : List Part), T p = true) (h : Follows T s0 s) : Answers (Follows T s0) (execJournalCommitDone a0 s) := by
  unfold execJournalCommitDone
  split
  · refine ⟨_, rfl, ?_⟩
    assumption
  · split
    · refine ⟨_, rfl, ?_⟩
      assumption
    · split
      · split
        · refine ⟨_, rfl, ?_⟩
          refine follows_refillNow (sub hT (by decide)) ?_
          refine follows_unmountStep (sub hT (by decide)) ?_
          refine follows_fileIfFull (sub hT (by decide)) ?_
          refine follows_sealQuire (sub hT (by decide)) ?_
          assumption
        · refine ⟨_, rfl, ?_⟩
          assumption
      · split
        · refine ⟨_, rfl, ?_⟩
          refine follows_refillNow (sub hT (by decide)) ?_
          refine follows_setQuire (sub hT (by decide)) ?_
          assumption
        · refine ⟨_, rfl, ?_⟩
          assumption


theorem follows_execDirectoryAgeTimeout {T : Part → Bool} {s0 s : State} (hT : ∀ p ∈ ([.free, .cnt, .bays, .ports, .out, .rdc, .wrc, .cal, .qre, .hiu, .cph, .bdy] : List Part), T p = true) (h : Follows T s0 s) : Answers (Follows T s0) (execDirectoryAgeTimeout s) := by
  unfold execDirectoryAgeTimeout
  split
  · refine ⟨_, rfl, ?_⟩
    assumption
  · split
    · refine ⟨_, rfl, ?_⟩
      assumption
    · refine ⟨_, rfl, ?_⟩
      refine follows_checkVolume (sub hT (by decide)) ?_
      refine follows_closeDirectory (sub hT (by decide)) ?_
      assumption


theorem follows_fileNow {T : Part → Bool} {s0 s : State} (hT : ∀ p ∈ ([.free, .cnt, .bays, .ports, .out, .rdc, .wrc, .cal, .qre, .hiu, .cph, .bdy] : List Part), T p = true) (h : Follows T s0 s) : Follows T s0 (fileNow s) := by
  unfold fileNow
  refine follows_checkVolume (sub hT (by decide)) ?_
  refine follows_closeDirectory (sub hT (by decide)) ?_
  refine follows_drawn (sub hT (by decide)) ?_
  assumption


theorem follows_execFileNow {T : Part → Bool} {s0 s : State} (hT : ∀ p ∈ ([.free, .cnt, .bays, .ports, .out, .rdc, .wrc, .cal, .qre, .hiu, .cph, .bdy] : List Part), T p = true) (h : Follows T s0 s) : Answers (Follows T s0) (execFileNow s) := by
  unfold execFileNow
  split
  · refine ⟨_, rfl, ?_⟩
    assumption
  · refine ⟨_, rfl, ?_⟩
    refine follows_fileNow (sub hT (by decide)) ?_
    assumption


theorem follows_execMount {T : Part → Bool} {s0 s : State} (hT : ∀ p ∈ ([.qre, .bdy] : List Part), T p = true) (h : Follows T s0 s) : Answers (Follows T s0) (execMount s) := by
  unfold execMount
  split
  · refine ⟨_, rfl, ?_⟩
    assumption
  · refine ⟨_, rfl, ?_⟩
    refine follows_beginMount (sub hT (by decide)) ?_
    assumption


theorem follows_freshSurface {T : Part → Bool} {s0 s : State} {a1 : Nat} (hT : ∀ p ∈ ([.wrc, .qre] : List Part), T p = true) (h : Follows T s0 s) : Follows T s0 (freshSurface s a1) := by
  unfold freshSurface
  refine follows_setSurfW (sub hT (by decide)) ?_
  refine follows_setSurf (sub hT (by decide)) ?_
  assumption


theorem follows_freshPayloads {T : Part → Bool} {s0 s : State} (hT : ∀ p ∈ ([.rdc] : List Part), T p = true) (h : Follows T s0 s) : Follows T s0 (freshPayloads s) := by
  unfold freshPayloads
  refine upd_rdc (hT _ (by decide)) ?_
  assumption


theorem follows_rewidth {T : Part → Bool} {s0 s : State} (hT : ∀ p ∈ ([.qre] : List Part), T p = true) (h : Follows T s0 s) : Follows T s0 (rewidth s) := by
  unfold rewidth
  refine follows_foldl ?_ ?_
  · assumption
  · intro u2 a2 hu2
    extract_lets (merge := false) (underBinder := false) +onlyGivenNames s1
    have hs1 : Follows T s0 s1 := by
      unfold s1
      refine follows_unplaceRebuilt (sub hT (by decide)) ?_
      refine follows_refill (sub hT (by decide)) ?_
      assumption
    clear_value s1
    refine upd_qre (hT _ (by decide)) ?_
    assumption


theorem follows_volumeOpen {T : Part → Bool} {s0 s : State} (hT : ∀ p ∈ ([.cnt, .bays, .ports, .out, .rdc, .wrc, .cal, .qre, .mem, .bdy] : List Part), T p = true) (h : Follows T s0 s) : Follows T s0 (volumeOpen s) := by
  unfold volumeOpen
  refine follows_refillNow (sub hT (by decide)) ?_
  refine follows_closeDue (sub hT (by decide)) ?_
  refine follows_rewidth (sub hT (by decide)) ?_
  assumption


theorem follows_newVolume {T : Part → Bool} {s0 s : State} {a1 : Nat} (hT : ∀ p ∈ ([.regs, .cnt, .bays, .ports, .out, .rdc, .wrc, .cal, .qre, .mem, .bdy] : List Part), T p = true) (h : Follows T s0 s) : Follows T s0 (newVolume s a1) := by
  unfold newVolume
  extract_lets (merge := false) (underBinder := false) +onlyGivenNames s1
  have hs1 : Follows T s0 s1 := by
    unfold s1
    refine follows_forEach ?_ ?_
    · refine follows_clearAbsent (sub hT (by decide)) ?_
      refine follows_freshPayloads (sub hT (by decide)) ?_
      assumption
    · intro u2 a2 hu2
      refine follows_freshSurface (sub hT (by decide)) ?_
      assumption
  clear_value s1
  try extract_lets (merge := false) (underBinder := false) +onlyGivenNames b3
  try clear_value b3
  refine follows_volumeOpen (sub hT (by decide)) ?_
  refine follows_setReg (sub hT (by decide)) ?_
  refine upd_qre (hT _ (by decide)) ?_
  assumption


theorem follows_restoreSurface {T : Part → Bool} {s0 s : State} {a1 : Nat} {a2 : Bool} {a3 : CatFinding} (hT : ∀ p ∈ ([.qre] : List Part), T p = true) (h : Follows T s0 s) : Follows T s0 (restoreSurface s a1 a2 a3) := by
  unfold restoreSurface
  split
  · try extract_lets (merge := false) (underBinder := false) +onlyGivenNames old1
    try clear_value old1
    try extract_lets (merge := false) (underBinder := false) +onlyGivenNames n2
    try clear_value n2
    try extract_lets (merge := false) (underBinder := false) +onlyGivenNames x3
    try clear_value x3
    refine follows_setSurf (sub hT (by decide)) ?_
    assumption
  · refine follows_setSurf (sub hT (by decide)) ?_
    assumption


theorem follows_restoreCount {T : Part → Bool} {s0 s : State} {a1 : List (List Nat)} {a2 : Nat} {a3 : Nat} {a4 : CatFinding} (hT : ∀ p ∈ ([.wrc] : List Part), T p = true) (h : Follows T s0 s) : Follows T s0 (restoreCount s a1 a2 a3 a4) := by
  unfold restoreCount
  try extract_lets (merge := false) (underBinder := false) +onlyGivenNames n1
  try clear_value n1
  try extract_lets (merge := false) (underBinder := false) +onlyGivenNames sealed2
  try clear_value sealed2
  refine follows_setSurfW (sub hT (by decide)) ?_
  assumption


theorem follows_oldVolume_mapGranules_ {T : Part → Bool} {s0 s : State} {a1 : List Quire} (hT : ∀ p ∈ ([.mem] : List Part), T p = true) (h : Follows T s0 s) : Follows T s0 (oldVolume.mapGranules_ s a1) := by
  unfold oldVolume.mapGranules_
  refine follows_foldl ?_ ?_
  · assumption
  · intro u1 a1 hu1
    refine follows_mapGranules (sub hT (by decide)) ?_
    assumption


theorem follows_oldVolume {T : Part → Bool} {s0 s : State} {a1 : Nat} {a2 : List CatFinding} {a3 : List (List Nat)} {a4 : BitVec 384} {a5 : List Quire} {a6 : List Amend} (hT : ∀ p ∈ ([.cnt, .bays, .ports, .out, .rdc, .wrc, .cal, .qre, .mem, .bdy] : List Part), T p = true) (h : Follows T s0 s) : Follows T s0 (oldVolume s a1 a2 a3 a4 a5 a6) := by
  unfold oldVolume
  extract_lets (merge := false) (underBinder := false) +onlyGivenNames s1
  have hs1 : Follows T s0 s1 := by
    unfold s1
    refine follows_clearAbsent (sub hT (by decide)) ?_
    refine follows_freshPayloads (sub hT (by decide)) ?_
    assumption
  clear_value s1
  try extract_lets (merge := false) (underBinder := false) +onlyGivenNames journal2
  try clear_value journal2
  try extract_lets (merge := false) (underBinder := false) +onlyGivenNames st3
  try clear_value st3
  extract_lets (merge := false) (underBinder := false) +onlyGivenNames s4
  have hs4 : Follows T s0 s4 := by
    unfold s4
    refine follows_foldl ?_ ?_
    · assumption
    · intro u5 a5 hu5
      refine follows_restoreSurface (sub hT (by decide)) ?_
      assumption
  clear_value s4
  extract_lets (merge := false) (underBinder := false) +onlyGivenNames s6
  have hs6 : Follows T s0 s6 := by
    unfold s6
    refine follows_foldl ?_ ?_
    · assumption
    · intro u7 a7 hu7
      split
      · assumption
      · refine follows_setQuire (sub hT (by decide)) ?_
        assumption
  clear_value s6
  extract_lets (merge := false) (underBinder := false) +onlyGivenNames s8
  have hs8 : Follows T s0 s8 := by
    unfold s8
    refine follows_foldl ?_ ?_
    · assumption
    · intro u9 a9 hu9
      split
      · refine follows_setQuire (sub hT (by decide)) ?_
        assumption
      · assumption
  clear_value s8
  extract_lets (merge := false) (underBinder := false) +onlyGivenNames s10
  have hs10 : Follows T s0 s10 := by
    unfold s10
    refine follows_foldl ?_ ?_
    · assumption
    · intro u11 a11 hu11
      refine follows_restoreCount (sub hT (by decide)) ?_
      assumption
  clear_value s10
  try extract_lets (merge := false) (underBinder := false) +onlyGivenNames mine12
  try clear_value mine12
  extract_lets (merge := false) (underBinder := false) +onlyGivenNames s13
  have hs13 : Follows T s0 s13 := by
    unfold s13
    refine follows_oldVolume_mapGranules_ (sub hT (by decide)) ?_
    assumption
  clear_value s13
  extract_lets (merge := false) (underBinder := false) +onlyGivenNames j14_0 s14
  have hs14 : Follows T s0 s14 := by
    unfold s14
    refine upd_qre (hT _ (by decide)) ?_
    assumption
  clear_value s14
  try extract_lets (merge := false) (underBinder := false) +onlyGivenNames open_15
  try clear_value open_15
  split
  · refine follows_volumeOpen (sub hT (by decide)) ?_
    assumption
  · refine upd_qre (hT _ (by decide)) ?_
    assumption


theorem follows_mountVolume {T : Part → Bool} {s0 s : State} {a1 : Nat} {a2 : List CatFinding} {a3 : List (List Nat)} {a4 : BitVec 384} {a5 : List Quire} {a6 : List Amend} (hT : ∀ p ∈ ([.regs, .cnt, .bays, .ports, .out, .rdc, .wrc, .cal, .qre, .mem, .bdy] : List Part), T p = true) (h : Follows T s0 s) : FollowsOpt T s0 (mountVolume s a1 a2 a3 a4 a5 a6) := by
  unfold mountVolume
  dsimp only
  split
  · exact follows_some (follows_newVolume (sub hT (by decide)) h)
  · intro t ht
    obtain ⟨v, -, ht⟩ := Option.bind_eq_some_iff.1 ht
    split at ht
    · cases ht
      exact follows_oldVolume (sub hT (by decide)) h
    · cases ht


theorem follows_execMountCatalogueReadDone {T : Part → Bool} {s0 s : State} {a0 : List CatFinding} {a1 : List (List Nat)} {a2 : BitVec 384} {a3 : List Quire} {a4 : List Amend} (hT : ∀ p ∈ ([.regs, .cnt, .bays, .ports, .out, .rdc, .wrc, .cal, .qre, .mem, .bdy] : List Part), T p = true) (h : Follows T s0 s) : Answers (Follows T s0) (execMountCatalogueReadDone a0 a1 a2 a3 a4 s) := by
  unfold execMountCatalogueReadDone
  dsimp only
  split
  · exact ⟨_, rfl, h⟩
  · split
    · rename_i t ht
      exact ⟨_, rfl, follows_send (sub hT (by decide)) (follows_mountVolume (sub hT (by decide)) h t ht)⟩
    · exact ⟨_, rfl, follows_event (sub hT (by decide)) (upd_qre (hT _ (by decide)) h)⟩

theorem follows_execUnmount {T : Part → Bool} {s0 s : State} (hT : ∀ p ∈ ([.cnt, .bays, .ports, .out, .rdc, .wrc, .cal, .qre, .cph, .bdy] : List Part), T p = true) (h : Follows T s0 s) : Answers (Follows T s0) (execUnmount s) := by
  unfold execUnmount
  split
  · refine ⟨_, rfl, ?_⟩
    assumption
  · refine ⟨_, rfl, ?_⟩
    refine follows_askUnmount (sub hT (by decide)) ?_
    assumption


theorem follows_execRebuildPause {T : Part → Bool} {s0 s : State} {a0 : Bool} (hT : ∀ p ∈ ([.regs] : List Part), T p = true) (h : Follows T s0 s) : Answers (Follows T s0) (execRebuildPause a0 s) := by
  unfold execRebuildPause
  split
  · refine ⟨_, rfl, ?_⟩
    assumption
  · refine ⟨_, rfl, ?_⟩
    refine follows_setReg (sub hT (by decide)) ?_
    assumption


theorem follows_execClearFail {T : Part → Bool} {s0 s : State} {a0 : Fin 16} (hT : ∀ p ∈ ([.out, .qre] : List Part), T p = true) (h : Follows T s0 s) : Answers (Follows T s0) (execClearFail a0 s) := by
  unfold execClearFail
  split
  · refine ⟨_, rfl, ?_⟩
    assumption
  · refine ⟨_, rfl, ?_⟩
    refine follows_clearFail (sub hT (by decide)) ?_
    assumption


theorem follows_execRebuildStart {T : Part → Bool} {s0 s : State} (hT : ∀ p ∈ ([.qre] : List Part), T p = true) (h : Follows T s0 s) : Answers (Follows T s0) (execRebuildStart s) := by
  unfold execRebuildStart
  split
  · refine ⟨_, rfl, ?_⟩
    assumption
  · split
    · refine ⟨_, rfl, ?_⟩
      assumption
    · extract_lets (merge := false) (underBinder := false) +onlyGivenNames j1_0 s1
      have hs1 : Follows T s0 s1 := by
        unfold s1
        refine upd_qre (hT _ (by decide)) ?_
        assumption
      clear_value s1
      split
      · split
        · refine ⟨_, rfl, ?_⟩
          refine follows_setQuire (sub hT (by decide)) ?_
          refine upd_qre (hT _ (by decide)) ?_
          assumption
        · refine ⟨_, rfl, ?_⟩
          assumption
      · refine ⟨_, rfl, ?_⟩
        assumption


end Sys2Proof.Machine
end

