-- ==== Sys2Proof/Laws/FollowsQueues.lean ====
section
/-! SUPPORT. What the operations of Machine/Queues.lean keep: the queue, the canonical form of the sorted stores, the ingest sequence. -/

namespace Sys2Proof.Machine

theorem follows_badDoorbell {T : Part → Bool} {s0 s : State} {a1 : Nat} (hT : ∀ p ∈ ([.out, .hiu] : List Part), T p = true) (h : Follows T s0 s) : Follows T s0 (badDoorbell s a1) := by
  unfold badDoorbell
  refine follows_asyncEvent (sub hT (by decide)) ?_
  assumption


theorem follows_confirmSlot {T : Part → Bool} {s0 s : State} (hT : ∀ p ∈ ([.kst, .bdy] : List Part), T p = true) (h : Follows T s0 s) : Follows T s0 (confirmSlot s) := by
  unfold confirmSlot
  split
  · try extract_lets (merge := false) (underBinder := false) +onlyGivenNames f1
    try clear_value f1
    refine follows_fileDirectory (sub hT (by decide)) ?_
    refine follows_mk ?_ rfl rfl rfl rfl rfl rfl rfl rfl rfl rfl rfl same same same same same same same same same same same same same same same same same same same same same same same (.inl (hT _ (by decide))) same (.inl (hT _ (by decide))) same
    assumption
  · assumption


theorem follows_drainHeld {T : Part → Bool} {s0 s : State} (hT : ∀ p ∈ ([.hiu] : List Part), T p = true) (h : Follows T s0 s) : Follows T s0 (drainHeld s) := by
  unfold drainHeld
  refine follows_foldl ?_ ?_
  · refine upd_hiu (hT _ (by decide)) ?_
    assumption
  · intro u1 a1 hu1
    split
    · refine upd_hiu (hT _ (by decide)) ?_
      assumption
    · refine follows_writeEntry (sub hT (by decide)) ?_
      assumption


theorem follows_endController {T : Part → Bool} {s0 s : State} {a1 : Nat} (hT : ∀ p ∈ ([.cnt, .bays, .ports, .out, .rdc, .wrc, .cal, .qre, .hiu, .mem, .bdy] : List Part), T p = true) (h : Follows T s0 s) : Follows T s0 (endController s a1) := by
  unfold endController
  try extract_lets (merge := false) (underBinder := false) +onlyGivenNames mine1
  try clear_value mine1
  extract_lets (merge := false) (underBinder := false) +onlyGivenNames s2
  have hs2 : Follows T s0 s2 := by
    unfold s2
    refine follows_foldl ?_ ?_
    · assumption
    · intro u3 a3 hu3
      refine follows_keepPieces (sub hT (by decide)) ?_
      assumption
  clear_value s2
  try extract_lets (merge := false) (underBinder := false) +onlyGivenNames c4
  try clear_value c4
  extract_lets (merge := false) (underBinder := false) +onlyGivenNames __src5
  have h__src5 : Follows T s0 __src5 := by
    unfold __src5
    refine follows_setCtrl (sub hT (by decide)) ?_
    assumption
  clear_value __src5
  refine upd_hiu (hT _ (by decide)) ?_
  assumption


theorem follows_useContext {T : Part → Bool} {s0 s : State} {a1 : Nat} (hT : ∀ p ∈ ([.hiu] : List Part), T p = true) (h : Follows T s0 s) : Follows T s0 (useContext s a1) := by
  unfold useContext
  split
  · assumption
  · refine upd_hiu (hT _ (by decide)) ?_
    assumption


theorem follows_setSq {T : Part → Bool} {s0 s : State} {a1 : Nat} {a2 : Nat} {a3 : Sq} (hT : ∀ p ∈ ([.hiu] : List Part), T p = true) (h : Follows T s0 s) : Follows T s0 (setSq s a1 a2 a3) := by
  unfold setSq
  refine upd_hiu (hT _ (by decide)) ?_
  assumption


theorem follows_execSqTailDoorbell {T : Part → Bool} {s0 s : State} {a0 : Fin 2} {a1 : Fin 65536} {a2 : Half} (hT : ∀ p ∈ ([.out, .hiu] : List Part), T p = true) (h : Follows T s0 s) : Answers (Follows T s0) (execSqTailDoorbell a0 a1 a2 s) := by
  unfold execSqTailDoorbell
  split
  · refine ⟨_, rfl, ?_⟩
    refine follows_badDoorbell (sub hT (by decide)) ?_
    assumption
  · split
    · refine ⟨_, rfl, ?_⟩
      refine follows_badDoorbell (sub hT (by decide)) ?_
      assumption
    · refine ⟨_, rfl, ?_⟩
      refine follows_useContext (sub hT (by decide)) ?_
      refine follows_setSq (sub hT (by decide)) ?_
      assumption


theorem follows_setCq {T : Part → Bool} {s0 s : State} {a1 : Nat} {a2 : Nat} {a3 : Cq} (hT : ∀ p ∈ ([.hiu] : List Part), T p = true) (h : Follows T s0 s) : Follows T s0 (setCq s a1 a2 a3) := by
  unfold setCq
  refine upd_hiu (hT _ (by decide)) ?_
  assumption


theorem follows_execCqHeadDoorbell {T : Part → Bool} {s0 s : State} {a0 : Fin 2} {a1 : Fin 65536} {a2 : Half} (hT : ∀ p ∈ ([.out, .hiu] : List Part), T p = true) (h : Follows T s0 s) : Answers (Follows T s0) (execCqHeadDoorbell a0 a1 a2 s) := by
  unfold execCqHeadDoorbell
  split
  · refine ⟨_, rfl, ?_⟩
    refine follows_badDoorbell (sub hT (by decide)) ?_
    assumption
  · split
    · refine ⟨_, rfl, ?_⟩
      refine follows_badDoorbell (sub hT (by decide)) ?_
      assumption
    · refine ⟨_, rfl, ?_⟩
      refine follows_useContext (sub hT (by decide)) ?_
      refine follows_drainHeld (sub hT (by decide)) ?_
      refine follows_setCq (sub hT (by decide)) ?_
      assumption


theorem follows_trimContexts {T : Part → Bool} {s0 s : State} (hT : ∀ p ∈ ([.hiu] : List Part), T p = true) (h : Follows T s0 s) : Follows T s0 (trimContexts s) := by
  unfold trimContexts
  refine upd_hiu (hT _ (by decide)) ?_
  assumption


theorem follows_execControllerEnable {T : Part → Bool} {s0 s : State} {a0 : Fin 2} {a1 : Word} {a2 : Word} {a3 : Dword} {a4 : Dword} (hT : ∀ p ∈ ([.hiu, .kst, .bdy] : List Part), T p = true) (h : Follows T s0 s) : Answers (Follows T s0) (execControllerEnable a0 a1 a2 a3 a4 s) := by
  unfold execControllerEnable
  try extract_lets (merge := false) (underBinder := false) +onlyGivenNames c1
  try clear_value c1
  split
  · refine ⟨_, rfl, ?_⟩
    assumption
  · try extract_lets (merge := false) (underBinder := false) +onlyGivenNames n2
    try clear_value n2
    extract_lets (merge := false) (underBinder := false) +onlyGivenNames s3
    have hs3 : Follows T s0 s3 := by
      unfold s3
      refine follows_setCtrl (sub hT (by decide)) ?_
      assumption
    clear_value s3
    extract_lets (merge := false) (underBinder := false) +onlyGivenNames s4
    have hs4 : Follows T s0 s4 := by
      unfold s4
      split
      · refine follows_confirmSlot (sub hT (by decide)) ?_
        assumption
      · assumption
    clear_value s4
    refine ⟨_, rfl, ?_⟩
    refine follows_trimContexts (sub hT (by decide)) ?_
    refine follows_setCq (sub hT (by decide)) ?_
    refine follows_setSq (sub hT (by decide)) ?_
    assumption


theorem follows_execControllerReset {T : Part → Bool} {s0 s : State} {a0 : Fin 2} (hT : ∀ p ∈ ([.cnt, .bays, .ports, .out, .rdc, .wrc, .cal, .qre, .hiu, .cmd, .mem, .bdy] : List Part), T p = true) (h : Follows T s0 s) : Answers (Follows T s0) (execControllerReset a0 s) := by
  unfold execControllerReset
  extract_lets (merge := false) (underBinder := false) +onlyGivenNames s1
  have hs1 : Follows T s0 s1 := by
    unfold s1
    refine follows_endController (sub hT (by decide)) ?_
    assumption
  clear_value s1
  refine ⟨_, rfl, ?_⟩
  refine follows_releaseVersions (sub hT (by decide)) ?_
  refine follows_setCtrl (sub hT (by decide)) ?_
  assumption


theorem follows_execInterruptMaskSet {T : Part → Bool} {s0 s : State} {a0 : Fin 2} {a1 : Word} (hT : ∀ p ∈ ([.hiu] : List Part), T p = true) (h : Follows T s0 s) : Answers (Follows T s0) (execInterruptMaskSet a0 a1 s) := by
  unfold execInterruptMaskSet
  try extract_lets (merge := false) (underBinder := false) +onlyGivenNames c1
  try clear_value c1
  refine ⟨_, rfl, ?_⟩
  refine follows_setCtrl (sub hT (by decide)) ?_
  assumption


theorem follows_execInterruptMaskClear {T : Part → Bool} {s0 s : State} {a0 : Fin 2} {a1 : Word} (hT : ∀ p ∈ ([.hiu] : List Part), T p = true) (h : Follows T s0 s) : Answers (Follows T s0) (execInterruptMaskClear a0 a1 s) := by
  unfold execInterruptMaskClear
  try extract_lets (merge := false) (underBinder := false) +onlyGivenNames c1
  try clear_value c1
  try extract_lets (merge := false) (underBinder := false) +onlyGivenNames m2
  try clear_value m2
  extract_lets (merge := false) (underBinder := false) +onlyGivenNames s3
  have hs3 : Follows T s0 s3 := by
    unfold s3
    refine follows_setCtrl (sub hT (by decide)) ?_
    assumption
  clear_value s3
  refine ⟨_, rfl, ?_⟩
  refine follows_foldl ?_ ?_
  · assumption
  · intro u4 a4 hu4
    refine follows_interrupt (sub hT (by decide)) ?_
    assumption


theorem follows_noteFetch {T : Part → Bool} {s0 s : State} {a1 : Nat} {a2 : Sq} {a3 : Nat} (hT : ∀ p ∈ ([.hiu] : List Part), T p = true) (h : Follows T s0 s) : Follows T s0 (noteFetch s a1 a2 a3) := by
  unfold noteFetch
  try extract_lets (merge := false) (underBinder := false) +onlyGivenNames g1
  try clear_value g1
  try extract_lets (merge := false) (underBinder := false) +onlyGivenNames u2
  try clear_value u2
  try extract_lets (merge := false) (underBinder := false) +onlyGivenNames c3
  try clear_value c3
  try extract_lets (merge := false) (underBinder := false) +onlyGivenNames fresh4
  try clear_value fresh4
  try extract_lets (merge := false) (underBinder := false) +onlyGivenNames old5
  try clear_value old5
  try extract_lets (merge := false) (underBinder := false) +onlyGivenNames used6
  try clear_value used6
  try extract_lets (merge := false) (underBinder := false) +onlyGivenNames u7
  try clear_value u7
  refine upd_hiu (hT _ (by decide)) ?_
  assumption


theorem follows_takeEntry {T : Part → Bool} {s0 s : State} {a1 : Fin 2} {a2 : Fin 65536} {a3 : Bool} {a4 : Sqe} (hT : ∀ p ∈ ([.out, .hiu] : List Part), T p = true) (h : Follows T s0 s) : Follows T s0 (takeEntry s a1 a2 a3 a4) := by
  unfold takeEntry
  try extract_lets (merge := false) (underBinder := false) +onlyGivenNames r1
  try clear_value r1
  extract_lets (merge := false) (underBinder := false) +onlyGivenNames j2_0 s2
  have hs2 : Follows T s0 s2 := by
    unfold s2
    refine upd_hiu (hT _ (by decide)) ?_
    assumption
  clear_value s2
  split
  · refine follows_complete (sub hT (by decide)) ?_
    assumption
  · assumption


theorem follows_execCommandFetch {T : Part → Bool} {s0 s : State} {a0 : Fin 2} {a1 : Fin 65536} {a2 : List Sqe} (hT : ∀ p ∈ ([.out, .hiu] : List Part), T p = true) (h : Follows T s0 s) : Answers (Follows T s0) (execCommandFetch a0 a1 a2 s) := by
  unfold execCommandFetch
  split
  · refine ⟨_, rfl, ?_⟩
    assumption
  · split
    · refine ⟨_, rfl, ?_⟩
      assumption
    · extract_lets (merge := false) (underBinder := false) +onlyGivenNames s1
      have hs1 : Follows T s0 s1 := by
        unfold s1
        refine follows_noteFetch (sub hT (by decide)) ?_
        assumption
      clear_value s1
      extract_lets (merge := false) (underBinder := false) +onlyGivenNames s2
      have hs2 : Follows T s0 s2 := by
        unfold s2
        refine follows_setSq (sub hT (by decide)) ?_
        assumption
      clear_value s2
      refine ⟨_, rfl, ?_⟩
      refine follows_foldl ?_ ?_
      · refine follows_useContext (sub hT (by decide)) ?_
        assumption
      · intro u3 a3 hu3
        refine follows_takeEntry (sub hT (by decide)) ?_
        assumption


theorem follows_execCreateIoSq {T : Part → Bool} {s0 s : State} {a0 : CmdRef} {a1 : Fin 65536} {a2 : Half} {a3 : Fin 65536} (hT : ∀ p ∈ ([.out, .hiu] : List Part), T p = true) (h : Follows T s0 s) : Answers (Follows T s0) (execCreateIoSq a0 a1 a2 a3 s) := by
  unfold execCreateIoSq
  split
  · refine ⟨_, rfl, ?_⟩
    refine follows_complete (sub hT (by decide)) ?_
    assumption
  · split
    · refine ⟨_, rfl, ?_⟩
      refine follows_complete (sub hT (by decide)) ?_
      assumption
    · split
      · refine ⟨_, rfl, ?_⟩
        refine follows_complete (sub hT (by decide)) ?_
        assumption
      · refine ⟨_, rfl, ?_⟩
        refine follows_complete (sub hT (by decide)) ?_
        refine follows_trimContexts (sub hT (by decide)) ?_
        refine follows_setSq (sub hT (by decide)) ?_
        assumption


theorem follows_execCreateIoCq {T : Part → Bool} {s0 s : State} {a0 : CmdRef} {a1 : Fin 65536} {a2 : Half} {a3 : Half} {a4 : Bool} (hT : ∀ p ∈ ([.out, .hiu] : List Part), T p = true) (h : Follows T s0 s) : Answers (Follows T s0) (execCreateIoCq a0 a1 a2 a3 a4 s) := by
  unfold execCreateIoCq
  split
  · refine ⟨_, rfl, ?_⟩
    refine follows_complete (sub hT (by decide)) ?_
    assumption
  · split
    · refine ⟨_, rfl, ?_⟩
      refine follows_complete (sub hT (by decide)) ?_
      assumption
    · split
      · refine ⟨_, rfl, ?_⟩
        refine follows_complete (sub hT (by decide)) ?_
        assumption
      · refine ⟨_, rfl, ?_⟩
        refine follows_complete (sub hT (by decide)) ?_
        refine follows_setCq (sub hT (by decide)) ?_
        assumption


theorem follows_execDeleteIoSq {T : Part → Bool} {s0 s : State} {a0 : CmdRef} {a1 : Fin 65536} (hT : ∀ p ∈ ([.out, .hiu] : List Part), T p = true) (h : Follows T s0 s) : Answers (Follows T s0) (execDeleteIoSq a0 a1 s) := by
  unfold execDeleteIoSq
  split
  · refine ⟨_, rfl, ?_⟩
    refine follows_complete (sub hT (by decide)) ?_
    assumption
  · split
    · refine ⟨_, rfl, ?_⟩
      refine follows_complete (sub hT (by decide)) ?_
      assumption
    · refine ⟨_, rfl, ?_⟩
      refine follows_finishDeletes (sub hT (by decide)) ?_
      refine follows_setSq (sub hT (by decide)) ?_
      assumption


theorem follows_execDeleteIoCq {T : Part → Bool} {s0 s : State} {a0 : CmdRef} {a1 : Fin 65536} (hT : ∀ p ∈ ([.out, .hiu] : List Part), T p = true) (h : Follows T s0 s) : Answers (Follows T s0) (execDeleteIoCq a0 a1 s) := by
  unfold execDeleteIoCq
  split
  · refine ⟨_, rfl, ?_⟩
    refine follows_complete (sub hT (by decide)) ?_
    assumption
  · split
    · refine ⟨_, rfl, ?_⟩
      refine follows_complete (sub hT (by decide)) ?_
      assumption
    · refine ⟨_, rfl, ?_⟩
      refine follows_complete (sub hT (by decide)) ?_
      refine upd_hiu (hT _ (by decide)) ?_
      assumption


end Sys2Proof.Machine
end

