-- ==== Sys2Proof/Laws/FollowsPages.lean ====
section
/-! SUPPORT. What the operations of Machine/Pages.lean keep: the queue, the canonical form of the sorted stores, the ingest sequence. -/

namespace Sys2Proof.Machine

theorem follows_execIdentify {T : Part → Bool} {s0 s : State} {a0 : CmdRef} {a1 : Byte} {a2 : Word} (hT : ∀ p ∈ ([.out, .hiu] : List Part), T p = true) (h : Follows T s0 s) : Answers (Follows T s0) (execIdentify a0 a1 a2 s) := by
  unfold execIdentify
  split
  · refine ⟨_, rfl, ?_⟩
    refine follows_complete (sub hT (by decide)) ?_
    assumption
  · refine ⟨_, rfl, ?_⟩
    refine follows_complete (sub hT (by decide)) ?_
    assumption


theorem follows_execGetLogPage {T : Part → Bool} {s0 s : State} {a0 : CmdRef} {a1 : Byte} {a2 : Dword} {a3 : Word} (hT : ∀ p ∈ ([.out, .hiu] : List Part), T p = true) (h : Follows T s0 s) : Answers (Follows T s0) (execGetLogPage a0 a1 a2 a3 s) := by
  unfold execGetLogPage
  split
  · refine ⟨_, rfl, ?_⟩
    refine follows_complete (sub hT (by decide)) ?_
    assumption
  · refine ⟨_, rfl, ?_⟩
    refine follows_complete (sub hT (by decide)) ?_
    assumption


end Sys2Proof.Machine
end

