-- ==== Sys2Proof/Laws/FollowsAdmin.lean ====
section
/-! SUPPORT. What the operations of Machine/Admin.lean keep: the queue, the canonical form of the sorted stores, the ingest sequence. -/

namespace Sys2Proof.Machine

theorem follows_attachNs {T : Part → Bool} {s0 s : State} {a1 : Nat} {a2 : List Nat} {a3 : Bool} (hT : ∀ p ∈ ([.out, .hiu] : List Part), T p = true) (h : Follows T s0 s) : Follows T s0 (attachNs s a1 a2 a3) := by
  unfold attachNs
  split
  · assumption
  · try extract_lets (merge := false) (underBinder := false) +onlyGivenNames a1
    try clear_value a1
    refine follows_asyncEvent (sub hT (by decide)) ?_
    refine upd_hiu (hT _ (by decide)) ?_
    assumption


theorem follows_dropNs {T : Part → Bool} {s0 s : State} {a1 : Nat} (hT : ∀ p ∈ ([.out, .hiu, .mem, .kst] : List Part), T p = true) (h : Follows T s0 s) : Follows T s0 (dropNs s a1) := by
  unfold dropNs
  split
  · assumption
  · extract_lets (merge := false) (underBinder := false) +onlyGivenNames j1_0 s1
    have hs1 : Follows T s0 s1 := by
      unfold s1
      refine upd_hiu (hT _ (by decide)) ?_
      assumption
    clear_value s1
    extract_lets (merge := false) (underBinder := false) +onlyGivenNames s2
    have hs2 : Follows T s0 s2 := by
      unfold s2
      refine follows_foldl ?_ ?_
      · assumption
      · intro u3 a3 hu3
        refine follows_setSlot (sub hT (by decide)) ?_
        assumption
    clear_value s2
    extract_lets (merge := false) (underBinder := false) +onlyGivenNames j4_0 s4
    have hs4 : Follows T s0 s4 := by
      unfold s4
      split
      · refine upd_mem (hT _ (by decide)) rfl rfl ?_
        assumption
      · assumption
    clear_value s4
    refine follows_asyncEvent (sub hT (by decide)) ?_
    assumption


theorem follows_dropReads {T : Part → Bool} {s0 s : State} {a1 : Cmd} (hT : ∀ p ∈ ([.rdc] : List Part), T p = true) (h : Follows T s0 s) : Follows T s0 (dropReads s a1) := by
  unfold dropReads
  refine upd_rdc (hT _ (by decide)) ?_
  assumption


theorem follows_execAbort {T : Part → Bool} {s0 s : State} {a0 : CmdRef} {a1 : Fin 65536} {a2 : Half} (hT : ∀ p ∈ ([.cnt, .out, .rdc, .hiu] : List Part), T p = true) (h : Follows T s0 s) : Answers (Follows T s0) (execAbort a0 a1 a2 s) := by
  unfold execAbort
  try extract_lets (merge := false) (underBinder := false) +onlyGivenNames t1
  try clear_value t1
  split
  · split
    · refine ⟨_, rfl, ?_⟩
      refine follows_complete (sub hT (by decide)) ?_
      refine follows_complete (sub hT (by decide)) ?_
      refine follows_dropReads (sub hT (by decide)) ?_
      refine follows_bump (sub hT (by decide)) ?_
      assumption
    · refine ⟨_, rfl, ?_⟩
      refine follows_complete (sub hT (by decide)) ?_
      refine follows_bump (sub hT (by decide)) ?_
      assumption
  · refine ⟨_, rfl, ?_⟩
    refine follows_complete (sub hT (by decide)) ?_
    refine follows_bump (sub hT (by decide)) ?_
    assumption


theorem follows_setFeature {T : Part → Bool} {s0 s : State} {a1 : Nat} {a2 : Feature} {a3 : Dword} (hT : ∀ p ∈ ([.out, .hiu] : List Part), T p = true) (h : Follows T s0 s) : Follows T s0 (setFeature s a1 a2 a3) := by
  unfold setFeature
  split
  · assumption
  · refine upd_hiu (hT _ (by decide)) ?_
    assumption
  · refine follows_send (sub hT (by decide)) ?_
    refine upd_hiu (hT _ (by decide)) ?_
    assumption
  · try extract_lets (merge := false) (underBinder := false) +onlyGivenNames c1
    try clear_value c1
    refine follows_setCtrl (sub hT (by decide)) ?_
    assumption


theorem follows_saveFeature {T : Part → Bool} {s0 s : State} {a1 : Feature} {a2 : Dword} (hT : ∀ p ∈ ([.bdy] : List Part), T p = true) (h : Follows T s0 s) : Follows T s0 (saveFeature s a1 a2) := by
  unfold saveFeature
  try extract_lets (merge := false) (underBinder := false) +onlyGivenNames e1
  try clear_value e1
  refine upd_bdy (hT _ (by decide)) rfl rfl ?_
  assumption


theorem follows_execSetFeatures {T : Part → Bool} {s0 s : State} {a0 : CmdRef} {a1 : Feature} {a2 : Dword} {a3 : Bool} (hT : ∀ p ∈ ([.out, .hiu, .bdy] : List Part), T p = true) (h : Follows T s0 s) : Answers (Follows T s0) (execSetFeatures a0 a1 a2 a3 s) := by
  unfold execSetFeatures
  split
  · refine ⟨_, rfl, ?_⟩
    refine follows_complete (sub hT (by decide)) ?_
    assumption
  · split
    · refine ⟨_, rfl, ?_⟩
      refine follows_complete (sub hT (by decide)) ?_
      assumption
    · extract_lets (merge := false) (underBinder := false) +onlyGivenNames s1
      have hs1 : Follows T s0 s1 := by
        unfold s1
        refine follows_setFeature (sub hT (by decide)) ?_
        assumption
      clear_value s1
      extract_lets (merge := false) (underBinder := false) +onlyGivenNames s2
      have hs2 : Follows T s0 s2 := by
        unfold s2
        split
        · refine follows_saveFeature (sub hT (by decide)) ?_
          assumption
        · assumption
      clear_value s2
      refine ⟨_, rfl, ?_⟩
      refine follows_complete (sub hT (by decide)) ?_
      assumption


theorem follows_execGetFeatures {T : Part → Bool} {s0 s : State} {a0 : CmdRef} {a1 : Feature} {a2 : BitVec 3} (hT : ∀ p ∈ ([.out, .hiu] : List Part), T p = true) (h : Follows T s0 s) : Answers (Follows T s0) (execGetFeatures a0 a1 a2 s) := by
  unfold execGetFeatures
  split
  · refine ⟨_, rfl, ?_⟩
    refine follows_complete (sub hT (by decide)) ?_
    assumption
  · try extract_lets (merge := false) (underBinder := false) +onlyGivenNames v1
    try clear_value v1
    refine ⟨_, rfl, ?_⟩
    refine follows_complete (sub hT (by decide)) ?_
    assumption


theorem follows_execAsyncEventRequest {T : Part → Bool} {s0 s : State} {a0 : CmdRef} (hT : ∀ p ∈ ([.out, .hiu] : List Part), T p = true) (h : Follows T s0 s) : Answers (Follows T s0) (execAsyncEventRequest a0 s) := by
  unfold execAsyncEventRequest
  try extract_lets (merge := false) (underBinder := false) +onlyGivenNames c1
  try clear_value c1
  split
  · refine ⟨_, rfl, ?_⟩
    refine follows_complete (sub hT (by decide)) ?_
    assumption
  · refine ⟨_, rfl, ?_⟩
    refine follows_deliver (sub hT (by decide)) ?_
    refine follows_setCtrl (sub hT (by decide)) ?_
    assumption


theorem follows_putNs {T : Part → Bool} {s0 s : State} {a1 : Nat} {a2 : NsCreate} (hT : ∀ p ∈ ([.out, .hiu, .kst] : List Part), T p = true) (h : Follows T s0 s) : Follows T s0 (putNs s a1 a2) := by
  unfold putNs
  try extract_lets (merge := false) (underBinder := false) +onlyGivenNames ids1
  try clear_value ids1
  try extract_lets (merge := false) (underBinder := false) +onlyGivenNames x2
  try clear_value x2
  extract_lets (merge := false) (underBinder := false) +onlyGivenNames j3_0 s3
  have hs3 : Follows T s0 s3 := by
    unfold s3
    refine upd_hiu (hT _ (by decide)) ?_
    assumption
  clear_value s3
  refine follows_asyncEvent (sub hT (by decide)) ?_
  refine follows_setSlot (sub hT (by decide)) ?_
  assumption


theorem follows_execNamespaceCreate {T : Part → Bool} {s0 s : State} {a0 : CmdRef} {a1 : NsCreate} (hT : ∀ p ∈ ([.out, .hiu, .kst] : List Part), T p = true) (h : Follows T s0 s) : Answers (Follows T s0) (execNamespaceCreate a0 a1 s) := by
  unfold execNamespaceCreate
  split
  · refine ⟨_, rfl, ?_⟩
    refine follows_complete (sub hT (by decide)) ?_
    assumption
  · split
    · refine ⟨_, rfl, ?_⟩
      refine follows_complete (sub hT (by decide)) ?_
      assumption
    · split
      · refine ⟨_, rfl, ?_⟩
        refine follows_complete (sub hT (by decide)) ?_
        assumption
      · split
        · refine ⟨_, rfl, ?_⟩
          refine follows_complete (sub hT (by decide)) ?_
          assumption
        · extract_lets (merge := false) (underBinder := false) +onlyGivenNames s1
          have hs1 : Follows T s0 s1 := by
            unfold s1
            refine follows_send (sub hT (by decide)) ?_
            refine follows_putNs (sub hT (by decide)) ?_
            assumption
          clear_value s1
          refine ⟨_, rfl, ?_⟩
          refine follows_complete (sub hT (by decide)) ?_
          assumption


theorem follows_execNamespaceDelete {T : Part → Bool} {s0 s : State} {a0 : CmdRef} {a1 : Word} (hT : ∀ p ∈ ([.out, .hiu, .mem, .kst] : List Part), T p = true) (h : Follows T s0 s) : Answers (Follows T s0) (execNamespaceDelete a0 a1 s) := by
  unfold execNamespaceDelete
  split
  · refine ⟨_, rfl, ?_⟩
    refine follows_complete (sub hT (by decide)) ?_
    assumption
  · split
    · refine ⟨_, rfl, ?_⟩
      refine follows_complete (sub hT (by decide)) ?_
      assumption
    · split
      · refine ⟨_, rfl, ?_⟩
        refine follows_complete (sub hT (by decide)) ?_
        assumption
      · try extract_lets (merge := false) (underBinder := false) +onlyGivenNames ks1
        try clear_value ks1
        split
        · refine ⟨_, rfl, ?_⟩
          refine follows_complete (sub hT (by decide)) ?_
          assumption
        · refine ⟨_, rfl, ?_⟩
          refine follows_complete (sub hT (by decide)) ?_
          refine follows_send (sub hT (by decide)) ?_
          refine follows_foldl ?_ ?_
          · assumption
          · intro u2 a2 hu2
            refine follows_dropNs (sub hT (by decide)) ?_
            assumption


theorem follows_execNamespaceAttachment {T : Part → Bool} {s0 s : State} {a0 : CmdRef} {a1 : Word} {a2 : List Nat} {a3 : Bool} (hT : ∀ p ∈ ([.out, .hiu] : List Part), T p = true) (h : Follows T s0 s) : Answers (Follows T s0) (execNamespaceAttachment a0 a1 a2 a3 s) := by
  unfold execNamespaceAttachment
  split
  · refine ⟨_, rfl, ?_⟩
    refine follows_complete (sub hT (by decide)) ?_
    assumption
  · split
    · refine ⟨_, rfl, ?_⟩
      refine follows_complete (sub hT (by decide)) ?_
      assumption
    · split
      · refine ⟨_, rfl, ?_⟩
        refine follows_complete (sub hT (by decide)) ?_
        assumption
      · split
        · refine ⟨_, rfl, ?_⟩
          refine follows_complete (sub hT (by decide)) ?_
          assumption
        · split
          · refine ⟨_, rfl, ?_⟩
            refine follows_complete (sub hT (by decide)) ?_
            assumption
          · refine ⟨_, rfl, ?_⟩
            refine follows_complete (sub hT (by decide)) ?_
            refine follows_send (sub hT (by decide)) ?_
            refine follows_attachNs (sub hT (by decide)) ?_
            assumption


end Sys2Proof.Machine
end

