-- ==== Sys2Proof/Laws/FollowsZones.lean ====
section
/-! SUPPORT. What the operations of Machine/Zones.lean keep: the queue, the canonical form of the sorted stores, the ingest sequence. -/

namespace Sys2Proof.Machine

theorem follows_setCmd {T : Part → Bool} {s0 s : State} {a1 : Cmd} (hT : ∀ p ∈ ([.hiu] : List Part), T p = true) (h : Follows T s0 s) : Follows T s0 (setCmd s a1) := by
  unfold setCmd
  refine upd_hiu (hT _ (by decide)) ?_
  assumption


theorem follows_setZone {T : Part → Bool} {s0 s : State} {a1 : Nat} {a2 : Nat} {a3 : Zone} (hT : ∀ p ∈ ([.hiu] : List Part), T p = true) (h : Follows T s0 s) : Follows T s0 (setZone s a1 a2 a3) := by
  unfold setZone
  refine upd_hiu (hT _ (by decide)) ?_
  assumption


theorem follows_zoneTake {T : Part → Bool} {s0 s : State} {a1 : Nat} {a2 : Nat} {a3 : Nat} (hT : ∀ p ∈ ([.hiu] : List Part), T p = true) (h : Follows T s0 s) : Follows T s0 (zoneTake s a1 a2 a3) := by
  unfold zoneTake
  try extract_lets (merge := false) (underBinder := false) +onlyGivenNames x1
  try clear_value x1
  try extract_lets (merge := false) (underBinder := false) +onlyGivenNames wp2
  try clear_value wp2
  refine follows_setZone (sub hT (by decide)) ?_
  assumption


theorem follows_overZones {T : Part → Bool} {s0 s : State} {f : State → Nat → Except Status State} {zs : List Nat} (hT : ∀ p ∈ ([] : List Part), T p = true) (h : Follows T s0 s)
    (hf : ∀ u z, Follows T s0 u → FollowsExc T s0 (f u z)) : FollowsExc T s0 (overZones f zs s) := by
  induction zs generalizing s with
  | nil => exact follows_ok h
  | cons z zs ih =>
    simp only [overZones]
    split
    · rename_i t ht
      exact ih (hf _ _ h t ht)
    · exact follows_error


theorem follows_zoneSend {T : Part → Bool} {s0 s : State} {r : CmdRef} {sel : ZoneSel} {l : List Nat} {f : State → Nat → Nat → Except Status State}
    (hT : ∀ p ∈ ([.out, .hiu] : List Part), T p = true) (h : Follows T s0 s) (hf : ∀ u n z, Follows T s0 u → FollowsExc T s0 (f u n z)) : Follows T s0 (zoneSend s r sel l f) := by
  unfold zoneSend
  split
  · exact h
  · dsimp only
    split
    · exact h
    · split
      · exact follows_complete (sub hT (by decide)) h
      · split
        · exact follows_complete (sub hT (by decide)) h
        · split
          · rename_i t ht
            exact follows_complete (sub hT (by decide)) (follows_overZones (sub hT (by decide)) h (fun u z => hf u _ z) t ht)
          · exact follows_complete (sub hT (by decide)) h


theorem follows_zoneOpenOne {T : Part → Bool} {s0 s : State} {a1 : Nat} {a2 : Nat} (hT : ∀ p ∈ ([.hiu] : List Part), T p = true) (h : Follows T s0 s) : FollowsExc T s0 (zoneOpenOne s a1 a2) := by
  unfold zoneOpenOne
  try extract_lets (merge := false) (underBinder := false) +onlyGivenNames x1
  try clear_value x1
  split
  · exact follows_error
  · split
    · exact follows_error
    · refine follows_ok ?_
      refine follows_setZone (sub hT (by decide)) ?_
      assumption


theorem follows_execZoneOpen {T : Part → Bool} {s0 s : State} {a0 : CmdRef} {a1 : ZoneSel} (hT : ∀ p ∈ ([.out, .hiu] : List Part), T p = true) (h : Follows T s0 s) : Answers (Follows T s0) (execZoneOpen a0 a1 s) :=
  ⟨_, rfl, follows_zoneSend (sub hT (by decide)) h (fun _ _ _ hu => follows_zoneOpenOne (sub hT (by decide)) hu)⟩


theorem follows_zoneCloseOne {T : Part → Bool} {s0 s : State} {a1 : Nat} {a2 : Nat} (hT : ∀ p ∈ ([.hiu] : List Part), T p = true) (h : Follows T s0 s) : FollowsExc T s0 (zoneCloseOne s a1 a2) := by
  unfold zoneCloseOne
  try extract_lets (merge := false) (underBinder := false) +onlyGivenNames x1
  try clear_value x1
  split
  · exact follows_error
  · refine follows_ok ?_
    refine follows_setZone (sub hT (by decide)) ?_
    assumption


theorem follows_execZoneClose {T : Part → Bool} {s0 s : State} {a0 : CmdRef} {a1 : ZoneSel} (hT : ∀ p ∈ ([.out, .hiu] : List Part), T p = true) (h : Follows T s0 s) : Answers (Follows T s0) (execZoneClose a0 a1 s) :=
  ⟨_, rfl, follows_zoneSend (sub hT (by decide)) h (fun _ _ _ hu => follows_zoneCloseOne (sub hT (by decide)) hu)⟩


theorem follows_zoneFinishOne {T : Part → Bool} {s0 s : State} {a1 : Nat} {a2 : Nat} (hT : ∀ p ∈ ([.hiu] : List Part), T p = true) (h : Follows T s0 s) : FollowsExc T s0 (zoneFinishOne s a1 a2) := by
  unfold zoneFinishOne
  refine follows_ok ?_
  refine follows_setZone (sub hT (by decide)) ?_
  assumption


theorem follows_execZoneFinish {T : Part → Bool} {s0 s : State} {a0 : CmdRef} {a1 : ZoneSel} (hT : ∀ p ∈ ([.out, .hiu] : List Part), T p = true) (h : Follows T s0 s) : Answers (Follows T s0) (execZoneFinish a0 a1 s) :=
  ⟨_, rfl, follows_zoneSend (sub hT (by decide)) h (fun _ _ _ hu => follows_zoneFinishOne (sub hT (by decide)) hu)⟩


theorem follows_zoneResetOne {T : Part → Bool} {s0 s : State} {a1 : Nat} {a2 : Nat} (hT : ∀ p ∈ ([] : List Part), T p = true) (h : Follows T s0 s) : FollowsExc T s0 (zoneResetOne s a1 a2) := by
  unfold zoneResetOne
  split
  · refine follows_ok ?_
    assumption
  · exact follows_error


theorem follows_execZoneReset {T : Part → Bool} {s0 s : State} {a0 : CmdRef} {a1 : ZoneSel} (hT : ∀ p ∈ ([.out, .hiu] : List Part), T p = true) (h : Follows T s0 s) : Answers (Follows T s0) (execZoneReset a0 a1 s) :=
  ⟨_, rfl, follows_zoneSend (sub hT (by decide)) h (fun _ _ _ hu => follows_zoneResetOne (sub hT (by decide)) hu)⟩


theorem follows_refuseKind {T : Part → Bool} {s0 s : State} {a1 : CmdRef} {a2 : Status} (hT : ∀ p ∈ ([.out, .hiu] : List Part), T p = true) (h : Follows T s0 s) : Follows T s0 (refuseKind s a1 a2) := by
  unfold refuseKind
  split
  · assumption
  · split
    · assumption
    · refine follows_complete (sub hT (by decide)) ?_
      assumption


theorem follows_execZoneOffline {T : Part → Bool} {s0 s : State} {a0 : CmdRef} (hT : ∀ p ∈ ([.out, .hiu] : List Part), T p = true) (h : Follows T s0 s) : Answers (Follows T s0) (execZoneOffline a0 s) := by
  unfold execZoneOffline
  refine ⟨_, rfl, ?_⟩
  refine follows_refuseKind (sub hT (by decide)) ?_
  assumption


theorem follows_execZoneSetDescriptorExtension {T : Part → Bool} {s0 s : State} {a0 : CmdRef} (hT : ∀ p ∈ ([.out, .hiu] : List Part), T p = true) (h : Follows T s0 s) : Answers (Follows T s0) (execZoneSetDescriptorExtension a0 s) := by
  unfold execZoneSetDescriptorExtension
  refine ⟨_, rfl, ?_⟩
  refine follows_refuseKind (sub hT (by decide)) ?_
  assumption


theorem follows_execZoneManagementReceive {T : Part → Bool} {s0 s : State} {a0 : CmdRef} (hT : ∀ p ∈ ([.out, .hiu] : List Part), T p = true) (h : Follows T s0 s) : Answers (Follows T s0) (execZoneManagementReceive a0 s) := by
  unfold execZoneManagementReceive
  split
  · refine ⟨_, rfl, ?_⟩
    assumption
  · try extract_lets (merge := false) (underBinder := false) +onlyGivenNames nsid1
    try clear_value nsid1
    split
    · refine ⟨_, rfl, ?_⟩
      assumption
    · split
      · refine ⟨_, rfl, ?_⟩
        refine follows_complete (sub hT (by decide)) ?_
        assumption
      · try extract_lets (merge := false) (underBinder := false) +onlyGivenNames first2
        try clear_value first2
        try extract_lets (merge := false) (underBinder := false) +onlyGivenNames zs3
        try clear_value zs3
        refine ⟨_, rfl, ?_⟩
        refine follows_complete (sub hT (by decide)) ?_
        assumption


end Sys2Proof.Machine
end

