-- ==== Sys2Proof/Laws/FollowsOrder.lean ====
section
/-! SUPPORT. What the operations of Machine/Order.lean keep: the queue, the canonical form of the sorted stores, the ingest sequence. -/

namespace Sys2Proof.Machine

theorem follows_noteLate {T : Part → Bool} {s0 s : State} {a1 : Cmd} {a2 : Bool} (hT : ∀ p ∈ ([.cnt] : List Part), T p = true) (h : Follows T s0 s) : Follows T s0 (noteLate s a1 a2) := by
  unfold noteLate
  split
  · refine follows_bump (sub hT (by decide)) ?_
    assumption
  · assumption


theorem follows_giveSeq {T : Part → Bool} {s0 s : State} {a1 : Cmd} {a2 : Nat} {a3 : Bool} (hT : ∀ p ∈ ([.cnt, .hiu, .cmd] : List Part), T p = true) (h : Follows T s0 s) : FollowsFst T s0 (giveSeq s a1 a2 a3) := by
  unfold giveSeq
  extract_lets (merge := false) (underBinder := false) +onlyGivenNames s1
  have hs1 : Follows T s0 s1 := by
    unfold s1
    refine follows_noteLate (sub hT (by decide)) ?_
    assumption
  clear_value s1
  try extract_lets (merge := false) (underBinder := false) +onlyGivenNames c2
  try clear_value c2
  refine follows_pair ?_
  refine follows_setCmd (sub hT (by decide)) ?_
  refine follows_bump (sub hT (by decide)) ?_
  refine upd_cmd (hT _ (by decide)) ?_
  assumption


theorem follows_flushStep {T : Part → Bool} {s0 s : State} {a1 : CmdRef} (hT : ∀ p ∈ ([.cnt, .bays, .ports, .out, .rdc, .wrc, .cal, .qre, .hiu, .bdy] : List Part), T p = true) (h : Follows T s0 s) : Follows T s0 (flushStep s a1) := by
  unfold flushStep
  split
  · assumption
  · extract_lets (merge := false) (underBinder := false) +onlyGivenNames s1
    have hs1 : Follows T s0 s1 := by
      unfold s1
      refine follows_barrierClose (sub hT (by decide)) ?_
      assumption
    clear_value s1
    try extract_lets (merge := false) (underBinder := false) +onlyGivenNames c2
    try clear_value c2
    split
    · refine follows_complete (sub hT (by decide)) ?_
      assumption
    · refine follows_setCmd (sub hT (by decide)) ?_
      assumption


theorem follows_admitFlushAll {T : Part → Bool} {s0 s : State} {a1 : Cmd} {a2 : Bool} (hT : ∀ p ∈ ([.cnt, .bays, .ports, .out, .rdc, .wrc, .cal, .qre, .hiu, .cmd, .bdy] : List Part), T p = true) (h : Follows T s0 s) : Follows T s0 (admitFlushAll s a1 a2) := by
  unfold admitFlushAll
  extract_lets (merge := false) (underBinder := false) +onlyGivenNames x1
  have hx1 : FollowsFst T s0 x1 := by
    unfold x1
    refine follows_giveSeq (sub hT (by decide)) ?_
    assumption
  clear_value x1
  try extract_lets (merge := false) (underBinder := false) +onlyGivenNames far2
  try clear_value far2
  try extract_lets (merge := false) (underBinder := false) +onlyGivenNames j3_0 c'3
  try clear_value c'3
  extract_lets (merge := false) (underBinder := false) +onlyGivenNames s4
  have hs4 : Follows T s0 s4 := by
    unfold s4
    refine follows_setCmd (sub hT (by decide)) ?_
    refine follows_fst ?_
    assumption
  clear_value s4
  extract_lets (merge := false) (underBinder := false) +onlyGivenNames j5_0 s5
  have hs5 : Follows T s0 s5 := by
    unfold s5
    split
    · refine follows_send (sub hT (by decide)) ?_
      assumption
    · assumption
  clear_value s5
  refine follows_flushStep (sub hT (by decide)) ?_
  assumption


theorem follows_grantWrite {T : Part → Bool} {s0 s : State} {a1 : Cmd} (hT : ∀ p ∈ ([.out] : List Part), T p = true) (h : Follows T s0 s) : Follows T s0 (grantWrite s a1) := by
  unfold grantWrite
  refine follows_send (sub hT (by decide)) ?_
  assumption


theorem follows_admitHere {T : Part → Bool} {s0 s : State} {a1 : Cmd} {a2 : Ns} {a3 : Bool} (hT : ∀ p ∈ ([.cnt, .bays, .ports, .out, .rdc, .wrc, .cal, .qre, .hiu, .cmd, .bdy] : List Part), T p = true) (h : Follows T s0 s) : Follows T s0 (admitHere s a1 a2 a3) := by
  unfold admitHere
  split
  · refine follows_complete (sub hT (by decide)) ?_
    assumption
  · extract_lets (merge := false) (underBinder := false) +onlyGivenNames s1
    have hs1 : Follows T s0 s1 := by
      unfold s1
      split
      · refine follows_zoneTake (sub hT (by decide)) ?_
        assumption
      · assumption
    clear_value s1
    extract_lets (merge := false) (underBinder := false) +onlyGivenNames x2
    have hx2 : FollowsFst T s0 x2 := by
      unfold x2
      refine follows_giveSeq (sub hT (by decide)) ?_
      assumption
    clear_value x2
    extract_lets (merge := false) (underBinder := false) +onlyGivenNames x3
    have hx3 : FollowsFst T s0 x3 := by
      unfold x3
      split
      · refine follows_pair ?_
        refine follows_grantWrite (sub hT (by decide)) ?_
        refine follows_fst ?_
        assumption
      · assumption
    clear_value x3
    split
    · refine follows_bump (sub hT (by decide)) ?_
      refine follows_setCmd (sub hT (by decide)) ?_
      refine follows_fst ?_
      assumption
    · split
      · refine follows_flushStep (sub hT (by decide)) ?_
        refine follows_setCmd (sub hT (by decide)) ?_
        refine follows_fst ?_
        assumption
      · refine follows_fst ?_
        assumption


theorem follows_forward {T : Part → Bool} {s0 s : State} {a1 : Cmd} (hT : ∀ p ∈ ([.out, .hiu] : List Part), T p = true) (h : Follows T s0 s) : Follows T s0 (forward s a1) := by
  unfold forward
  refine follows_send (sub hT (by decide)) ?_
  refine follows_setCmd (sub hT (by decide)) ?_
  assumption


theorem follows_admitCmd {T : Part → Bool} {s0 s : State} {a1 : Cmd} {a2 : Bool} (hT : ∀ p ∈ ([.cnt, .bays, .ports, .out, .rdc, .wrc, .cal, .qre, .hiu, .cmd, .bdy] : List Part), T p = true) (h : Follows T s0 s) : Follows T s0 (admitCmd s a1 a2) := by
  unfold admitCmd
  split
  · assumption
  · split
    · refine follows_setCmd (sub hT (by decide)) ?_
      refine follows_noteLate (sub hT (by decide)) ?_
      assumption
    · split
      · assumption
      · split
        · refine follows_complete (sub hT (by decide)) ?_
          assumption
        · split
          · refine follows_admitFlushAll (sub hT (by decide)) ?_
            assumption
          · split
            · refine follows_complete (sub hT (by decide)) ?_
              assumption
            · split
              · refine follows_complete (sub hT (by decide)) ?_
                assumption
              · try extract_lets (merge := false) (underBinder := false) +onlyGivenNames a1
                try clear_value a1
                split
                · refine follows_admitHere (sub hT (by decide)) ?_
                  assumption
                · split
                  · refine follows_complete (sub hT (by decide)) ?_
                    assumption
                  · split
                    · refine follows_forward (sub hT (by decide)) ?_
                      assumption
                    · refine follows_complete (sub hT (by decide)) ?_
                      assumption


theorem follows_failRead {T : Part → Bool} {s0 s : State} {a1 : Cmd} {a2 : Nat} {a3 : Status} (hT : ∀ p ∈ ([.out, .qre, .hiu, .cmd] : List Part), T p = true) (h : Follows T s0 s) : Follows T s0 (failRead s a1 a2 a3) := by
  unfold failRead
  refine follows_releaseVersions (sub hT (by decide)) ?_
  refine follows_complete (sub hT (by decide)) ?_
  assumption


theorem follows_finishRead {T : Part → Bool} {s0 s : State} {a1 : Cmd} (hT : ∀ p ∈ ([.out, .qre, .hiu, .cmd] : List Part), T p = true) (h : Follows T s0 s) : Follows T s0 (finishRead s a1) := by
  unfold finishRead
  split
  · refine follows_releaseVersions (sub hT (by decide)) ?_
    refine follows_complete (sub hT (by decide)) ?_
    assumption
  · refine follows_setCmd (sub hT (by decide)) ?_
    assumption


theorem follows_beginRead {T : Part → Bool} {s0 s : State} {a1 : Cmd} (hT : ∀ p ∈ ([.free, .cnt, .out, .qre, .hiu, .cmd, .mem, .bdy] : List Part), T p = true) (h : Follows T s0 s) : Follows T s0 (beginRead s a1) := by
  unfold beginRead
  try extract_lets (merge := false) (underBinder := false) +onlyGivenNames src1
  try clear_value src1
  extract_lets (merge := false) (underBinder := false) +onlyGivenNames s2
  have hs2 : Follows T s0 s2 := by
    unfold s2
    split
    · refine follows_foldl ?_ ?_
      · assumption
      · intro u3 a3 hu3
        refine follows_cacheTouch (sub hT (by decide)) ?_
        assumption
    · assumption
  clear_value s2
  try extract_lets (merge := false) (underBinder := false) +onlyGivenNames nb4
  try clear_value nb4
  extract_lets (merge := false) (underBinder := false) +onlyGivenNames s5
  have hs5 : Follows T s0 s5 := by
    unfold s5
    split
    · refine follows_bump (sub hT (by decide)) ?_
      assumption
    · split
      · assumption
      · refine follows_bump (sub hT (by decide)) ?_
        assumption
  clear_value s5
  split
  · refine follows_failRead (sub hT (by decide)) ?_
    refine follows_event (sub hT (by decide)) ?_
    assumption
  · try extract_lets (merge := false) (underBinder := false) +onlyGivenNames got6
    try clear_value got6
    refine follows_finishRead (sub hT (by decide)) ?_
    refine follows_drawn (sub hT (by decide)) ?_
    assumption


theorem follows_commitPieces {T : Part → Bool} {s0 s : State} {a1 : Cmd} (hT : ∀ p ∈ ([.qre, .hiu, .cmd, .mem] : List Part), T p = true) (h : Follows T s0 s) : Follows T s0 (commitPieces s a1) := by
  unfold commitPieces
  try extract_lets (merge := false) (underBinder := false) +onlyGivenNames k1
  try clear_value k1
  split
  · assumption
  · try extract_lets (merge := false) (underBinder := false) +onlyGivenNames v2
    try clear_value v2
    extract_lets (merge := false) (underBinder := false) +onlyGivenNames j3_0 j3_1 s3
    have hs3 : Follows T s0 s3 := by
      unfold s3
      refine follows_mk ?_ rfl rfl rfl rfl rfl rfl rfl rfl rfl rfl rfl same same same same same same same same same same same same same same same same same same same (.inl (hT _ (by decide))) same (.inl (hT _ (by decide))) same same same same same
      assumption
    clear_value s3
    refine follows_mapBuffered (sub hT (by decide)) ?_
    refine follows_setCmd (sub hT (by decide)) ?_
    assumption


theorem follows_commitWrite {T : Part → Bool} {s0 s : State} {a1 : Cmd} (hT : ∀ p ∈ ([.cnt, .bays, .ports, .out, .rdc, .wrc, .cal, .qre, .hiu, .cmd, .mem, .bdy] : List Part), T p = true) (h : Follows T s0 s) : Follows T s0 (commitWrite s a1) := by
  unfold commitWrite
  extract_lets (merge := false) (underBinder := false) +onlyGivenNames s1
  have hs1 : Follows T s0 s1 := by
    unfold s1
    refine follows_commitPieces (sub hT (by decide)) ?_
    assumption
  clear_value s1
  split
  · assumption
  · extract_lets (merge := false) (underBinder := false) +onlyGivenNames s2
    have hs2 : Follows T s0 s2 := by
      unfold s2
      refine follows_setCmd (sub hT (by decide)) ?_
      assumption
    clear_value s2
    refine follows_refillNow (sub hT (by decide)) ?_
    refine follows_releaseVersions (sub hT (by decide)) ?_
    refine follows_settleVersion (sub hT (by decide)) ?_
    assumption


theorem follows_secondTry {T : Part → Bool} {s0 s : State} {a1 : Cmd} {a2 : Nat} (hT : ∀ p ∈ ([.out, .rdc, .hiu] : List Part), T p = true) (h : Follows T s0 s) : Follows T s0 (secondTry s a1 a2) := by
  unfold secondTry
  extract_lets (merge := false) (underBinder := false) +onlyGivenNames s1
  have hs1 : Follows T s0 s1 := by
    unfold s1
    refine follows_setCmd (sub hT (by decide)) ?_
    assumption
  clear_value s1
  split
  · split
    · refine follows_send (sub hT (by decide)) ?_
      assumption
    · assumption
  · split
    · split
      · try extract_lets (merge := false) (underBinder := false) +onlyGivenNames l2
        try clear_value l2
        refine upd_rdc (hT _ (by decide)) ?_
        assumption
      · assumption
    · assumption


theorem follows_decryptOutcome {T : Part → Bool} {s0 s : State} {a1 : Cmd} {a2 : Ns} {a3 : FolioBlock} {a4 : Nat} {a5 : Bool} {a6 : Bool} {a7 : BitVec 3} {a8 : Bool} (hT : ∀ p ∈ ([.cnt, .out, .rdc, .qre, .hiu, .cmd, .bdy] : List Part), T p = true) (h : Follows T s0 s) : Follows T s0 (decryptOutcome s a1 a2 a3 a4 a5 a6 a7 a8) := by
  unfold decryptOutcome
  try extract_lets (merge := false) (underBinder := false) +onlyGivenNames k1
  try clear_value k1
  try extract_lets (merge := false) (underBinder := false) +onlyGivenNames bound2
  try clear_value bound2
  extract_lets (merge := false) (underBinder := false) +onlyGivenNames s3
  have hs3 : Follows T s0 s3 := by
    unfold s3
    refine follows_bump (sub hT (by decide)) ?_
    assumption
  clear_value s3
  try extract_lets (merge := false) (underBinder := false) +onlyGivenNames detail4
  try clear_value detail4
  try extract_lets (merge := false) (underBinder := false) +onlyGivenNames media5
  try clear_value media5
  split
  · extract_lets (merge := false) (underBinder := false) +onlyGivenNames s6
    have hs6 : Follows T s0 s6 := by
      unfold s6
      refine follows_bump (sub hT (by decide)) ?_
      assumption
    clear_value s6
    split
    · refine follows_failRead (sub hT (by decide)) ?_
      refine follows_event (sub hT (by decide)) ?_
      assumption
    · split
      · refine follows_secondTry (sub hT (by decide)) ?_
        assumption
      · extract_lets (merge := false) (underBinder := false) +onlyGivenNames j7_0 s7
        have hs7 : Follows T s0 s7 := by
          unfold s7
          refine upd_cmd (hT _ (by decide)) ?_
          assumption
        clear_value s7
        refine follows_failRead (sub hT (by decide)) ?_
        refine follows_event (sub hT (by decide)) ?_
        assumption
  · split
    · refine follows_failRead (sub hT (by decide)) ?_
      refine follows_event (sub hT (by decide)) ?_
      assumption
    · split
      · refine follows_failRead (sub hT (by decide)) ?_
        assumption
      · try extract_lets (merge := false) (underBinder := false) +onlyGivenNames plain8
        try clear_value plain8
        refine follows_finishRead (sub hT (by decide)) ?_
        assumption


theorem follows_execCommandAdmission {T : Part → Bool} {s0 s : State} {a0 : CmdRef} {a1 : Bool} (hT : ∀ p ∈ ([.cnt, .bays, .ports, .out, .rdc, .wrc, .cal, .qre, .hiu, .cmd, .bdy] : List Part), T p = true) (h : Follows T s0 s) : Answers (Follows T s0) (execCommandAdmission a0 a1 s) := by
  unfold execCommandAdmission
  split
  · refine ⟨_, rfl, ?_⟩
    assumption
  · refine ⟨_, rfl, ?_⟩
    refine follows_admitCmd (sub hT (by decide)) ?_
    assumption


theorem follows_execWriteDataFetch {T : Part → Bool} {s0 s : State} {a0 : CmdRef} {a1 : List BlockIn} (hT : ∀ p ∈ ([.out, .hiu, .cph, .bdy] : List Part), T p = true) (h : Follows T s0 s) : Answers (Follows T s0) (execWriteDataFetch a0 a1 s) := by
  unfold execWriteDataFetch
  split
  · refine ⟨_, rfl, ?_⟩
    assumption
  · split
    · refine ⟨_, rfl, ?_⟩
      assumption
    · split
      · refine ⟨_, rfl, ?_⟩
        assumption
      · split
        · refine ⟨_, rfl, ?_⟩
          refine follows_complete (sub hT (by decide)) ?_
          refine follows_event (sub hT (by decide)) ?_
          assumption
        · split
          · refine ⟨_, rfl, ?_⟩
            refine follows_setCmd (sub hT (by decide)) ?_
            assumption
          · split
            · refine ⟨_, rfl, ?_⟩
              refine follows_complete (sub hT (by decide)) ?_
              assumption
            · extract_lets (merge := false) (underBinder := false) +onlyGivenNames x1
              have hx1 : FollowsFst T s0 x1 := by
                unfold x1
                refine follows_takeSeq (sub hT (by decide)) ?_
                assumption
              clear_value x1
              refine ⟨_, rfl, ?_⟩
              refine follows_setCmd (sub hT (by decide)) ?_
              refine follows_fst ?_
              assumption


theorem follows_execBackpressureTimeout {T : Part → Bool} {s0 s : State} {a0 : CmdRef} (hT : ∀ p ∈ ([.cnt, .out, .hiu] : List Part), T p = true) (h : Follows T s0 s) : Answers (Follows T s0) (execBackpressureTimeout a0 s) := by
  unfold execBackpressureTimeout
  split
  · refine ⟨_, rfl, ?_⟩
    assumption
  · try extract_lets (merge := false) (underBinder := false) +onlyGivenNames t1
    try clear_value t1
    split
    · refine ⟨_, rfl, ?_⟩
      assumption
    · split
      · refine ⟨_, rfl, ?_⟩
        assumption
      · refine ⟨_, rfl, ?_⟩
        refine follows_complete (sub hT (by decide)) ?_
        refine follows_bump (sub hT (by decide)) ?_
        assumption


theorem follows_failForLanes {T : Part → Bool} {s0 s : State} (hT : ∀ p ∈ ([.cnt, .bays, .ports, .out, .rdc, .wrc, .cal, .qre, .hiu, .mem, .bdy] : List Part), T p = true) (h : Follows T s0 s) : Follows T s0 (failForLanes s) := by
  unfold failForLanes
  split
  · refine follows_foldl ?_ ?_
    · refine follows_event (sub hT (by decide)) ?_
      assumption
    · intro u1 a1 hu1
      refine follows_complete (sub hT (by decide)) ?_
      refine follows_keepPieces (sub hT (by decide)) ?_
      assumption
  · assumption


theorem follows_retireLane {T : Part → Bool} {s0 s : State} {a1 : Nat} (hT : ∀ p ∈ ([.cnt, .bays, .ports, .out, .rdc, .wrc, .cal, .qre, .hiu, .mem, .cph, .bdy] : List Part), T p = true) (h : Follows T s0 s) : Follows T s0 (retireLane s a1) := by
  unfold retireLane
  extract_lets (merge := false) (underBinder := false) +onlyGivenNames s1
  have hs1 : Follows T s0 s1 := by
    unfold s1
    refine follows_countEvent (sub hT (by decide)) ?_
    refine follows_bump (sub hT (by decide)) ?_
    assumption
  clear_value s1
  refine follows_failForLanes (sub hT (by decide)) ?_
  refine upd_cph (hT _ (by decide)) rfl rfl rfl ?_
  assumption


theorem follows_execCipherBlockDone {T : Part → Bool} {s0 s : State} {a0 : Fin 8} {a1 : CmdRef} {a2 : Nat} {a3 : Bool} (hT : ∀ p ∈ ([.cnt, .bays, .ports, .out, .rdc, .wrc, .cal, .qre, .hiu, .mem, .cph, .bdy] : List Part), T p = true) (h : Follows T s0 s) : Answers (Follows T s0) (execCipherBlockDone a0 a1 a2 a3 s) := by
  unfold execCipherBlockDone
  split
  · refine ⟨_, rfl, ?_⟩
    assumption
  · split
    · refine ⟨_, rfl, ?_⟩
      assumption
    · split
      · refine ⟨_, rfl, ?_⟩
        refine follows_retireLane (sub hT (by decide)) ?_
        assumption
      · split
        · refine ⟨_, rfl, ?_⟩
          assumption
        · split
          · refine ⟨_, rfl, ?_⟩
            assumption
          · try extract_lets (merge := false) (underBinder := false) +onlyGivenNames e1
            try clear_value e1
            refine ⟨_, rfl, ?_⟩
            refine follows_bump (sub hT (by decide)) ?_
            refine follows_setCmd (sub hT (by decide)) ?_
            assumption


theorem follows_execBlockDecryptDone {T : Part → Bool} {s0 s : State} {a0 : Fin 8} {a1 : CmdRef} {a2 : Nat} {a3 : Fin 2048} {a4 : Bool} {a5 : Bool} {a6 : BitVec 3} {a7 : Bool} {a8 : Bool} (hT : ∀ p ∈ ([.cnt, .out, .rdc, .qre, .hiu, .cmd, .bdy] : List Part), T p = true) (h : Follows T s0 s) : Answers (Follows T s0) (execBlockDecryptDone a0 a1 a2 a3 a4 a5 a6 a7 a8 s) := by
  unfold execBlockDecryptDone
  split
  · refine ⟨_, rfl, ?_⟩
    assumption
  · split
    · split
      · refine ⟨_, rfl, ?_⟩
        assumption
      · refine ⟨_, rfl, ?_⟩
        refine follows_decryptOutcome (sub hT (by decide)) ?_
        assumption
    · refine ⟨_, rfl, ?_⟩
      assumption


theorem follows_execWriteAckPoint {T : Part → Bool} {s0 s : State} {a0 : CmdRef} (hT : ∀ p ∈ ([.out, .qre, .hiu, .cmd] : List Part), T p = true) (h : Follows T s0 s) : Answers (Follows T s0) (execWriteAckPoint a0 s) := by
  unfold execWriteAckPoint
  split
  · refine ⟨_, rfl, ?_⟩
    assumption
  · split
    · refine ⟨_, rfl, ?_⟩
      assumption
    · extract_lets (merge := false) (underBinder := false) +onlyGivenNames j1_0 s1
      have hs1 : Follows T s0 s1 := by
        unfold s1
        refine upd_cmd (hT _ (by decide)) ?_
        assumption
      clear_value s1
      refine ⟨_, rfl, ?_⟩
      refine follows_releaseVersions (sub hT (by decide)) ?_
      refine follows_complete (sub hT (by decide)) ?_
      assumption


theorem follows_readStage {T : Part → Bool} {s0 s : State} {a1 : Cmd} (hT : ∀ p ∈ ([.free, .cnt, .bays, .ports, .out, .rdc, .wrc, .cal, .qre, .hiu, .cmd, .mem, .bdy] : List Part), T p = true) (h : Follows T s0 s) : Follows T s0 (readStage s a1) := by
  unfold readStage
  split
  · refine follows_admitCmd (sub hT (by decide)) ?_
    assumption
  · split
    · assumption
    · split
      · refine follows_complete (sub hT (by decide)) ?_
        refine follows_event (sub hT (by decide)) ?_
        assumption
      · split
        · refine follows_setCmd (sub hT (by decide)) ?_
          assumption
        · split
          · refine follows_foldl ?_ ?_
            · refine follows_setCmd (sub hT (by decide)) ?_
              assumption
            · intro u1 a1 hu1
              refine follows_fuaClose (sub hT (by decide)) ?_
              assumption
          · refine follows_beginRead (sub hT (by decide)) ?_
            assumption


theorem follows_execRead {T : Part → Bool} {s0 s : State} {a0 : CmdRef} (hT : ∀ p ∈ ([.free, .cnt, .bays, .ports, .out, .rdc, .wrc, .cal, .qre, .hiu, .cmd, .mem, .bdy] : List Part), T p = true) (h : Follows T s0 s) : Answers (Follows T s0) (execRead a0 s) := by
  unfold execRead
  split
  · refine ⟨_, rfl, ?_⟩
    assumption
  · split
    · refine ⟨_, rfl, ?_⟩
      refine follows_readStage (sub hT (by decide)) ?_
      assumption
    · refine ⟨_, rfl, ?_⟩
      assumption


theorem follows_sendForwarded {T : Part → Bool} {s0 s : State} {a1 : Cmd} (hT : ∀ p ∈ ([.out, .hiu] : List Part), T p = true) (h : Follows T s0 s) : Follows T s0 (sendForwarded s a1) := by
  unfold sendForwarded
  try extract_lets (merge := false) (underBinder := false) +onlyGivenNames bs1
  try clear_value bs1
  refine follows_send (sub hT (by decide)) ?_
  refine follows_setCmd (sub hT (by decide)) ?_
  assumption


theorem follows_writeStage {T : Part → Bool} {s0 s : State} {a1 : Cmd} (hT : ∀ p ∈ ([.cnt, .bays, .ports, .out, .rdc, .wrc, .cal, .qre, .hiu, .cmd, .mem, .bdy] : List Part), T p = true) (h : Follows T s0 s) : Follows T s0 (writeStage s a1) := by
  unfold writeStage
  split
  · refine follows_admitCmd (sub hT (by decide)) ?_
    assumption
  · split
    · assumption
    · split
      · split
        · refine follows_sendForwarded (sub hT (by decide)) ?_
          assumption
        · assumption
      · refine follows_commitWrite (sub hT (by decide)) ?_
        assumption


theorem follows_execWrite {T : Part → Bool} {s0 s : State} {a0 : CmdRef} (hT : ∀ p ∈ ([.cnt, .bays, .ports, .out, .rdc, .wrc, .cal, .qre, .hiu, .cmd, .mem, .bdy] : List Part), T p = true) (h : Follows T s0 s) : Answers (Follows T s0) (execWrite a0 s) := by
  unfold execWrite
  split
  · refine ⟨_, rfl, ?_⟩
    assumption
  · split
    · refine ⟨_, rfl, ?_⟩
      refine follows_writeStage (sub hT (by decide)) ?_
      assumption
    · refine ⟨_, rfl, ?_⟩
      assumption


theorem follows_execFlush {T : Part → Bool} {s0 s : State} {a0 : CmdRef} (hT : ∀ p ∈ ([.cnt, .bays, .ports, .out, .rdc, .wrc, .cal, .qre, .hiu, .cmd, .mem, .bdy] : List Part), T p = true) (h : Follows T s0 s) : Answers (Follows T s0) (execFlush a0 s) := by
  unfold execFlush
  split
  · refine ⟨_, rfl, ?_⟩
    assumption
  · split
    · refine ⟨_, rfl, ?_⟩
      assumption
    · split
      · refine ⟨_, rfl, ?_⟩
        refine follows_admitCmd (sub hT (by decide)) ?_
        assumption
      · split
        · refine ⟨_, rfl, ?_⟩
          assumption
        · refine ⟨_, rfl, ?_⟩
          refine follows_refillNow (sub hT (by decide)) ?_
          refine follows_flushStep (sub hT (by decide)) ?_
          assumption


theorem follows_execVerify {T : Part → Bool} {s0 s : State} {a0 : CmdRef} (hT : ∀ p ∈ ([.free, .cnt, .bays, .ports, .out, .rdc, .wrc, .cal, .qre, .hiu, .cmd, .mem, .bdy] : List Part), T p = true) (h : Follows T s0 s) : Answers (Follows T s0) (execVerify a0 s) := by
  unfold execVerify
  split
  · refine ⟨_, rfl, ?_⟩
    assumption
  · split
    · refine ⟨_, rfl, ?_⟩
      refine follows_readStage (sub hT (by decide)) ?_
      assumption
    · refine ⟨_, rfl, ?_⟩
      assumption


theorem follows_execZoneAppend {T : Part → Bool} {s0 s : State} {a0 : CmdRef} (hT : ∀ p ∈ ([.cnt, .bays, .ports, .out, .rdc, .wrc, .cal, .qre, .hiu, .cmd, .mem, .bdy] : List Part), T p = true) (h : Follows T s0 s) : Answers (Follows T s0) (execZoneAppend a0 s) := by
  unfold execZoneAppend
  split
  · refine ⟨_, rfl, ?_⟩
    assumption
  · split
    · refine ⟨_, rfl, ?_⟩
      refine follows_writeStage (sub hT (by decide)) ?_
      assumption
    · refine ⟨_, rfl, ?_⟩
      assumption


end Sys2Proof.Machine
end

