-- ==== Sys2Proof/Laws/FollowsParse.lean ====
section
/-! SUPPORT. What the operations of Machine/Parse.lean keep: the queue, the canonical form of the sorted stores, the ingest sequence. -/

namespace Sys2Proof.Machine

theorem follows_showCheck {T : Part → Bool} {s0 s : State} {a1 : Verdict} {a2 : Binding} (hT : ∀ p ∈ ([.bnd] : List Part), T p = true) (h : Follows T s0 s) : Follows T s0 (showCheck s a1 a2) := by
  unfold showCheck
  extract_lets (merge := false) (underBinder := false) +onlyGivenNames j1_0 s1
  have hs1 : Follows T s0 s1 := by
    unfold s1
    refine upd_bnd (hT _ (by decide)) rfl ?_
    assumption
  clear_value s1
  split
  · refine upd_bnd (hT _ (by decide)) rfl ?_
    assumption
  · assumption


end Sys2Proof.Machine
end

