-- ==== Sys2Proof/Laws/FollowsBindingCmd.lean ====
section
/-! SUPPORT. What the operations of Machine/BindingCmd.lean keep: the queue, the canonical form of the sorted stores, the ingest sequence. -/

namespace Sys2Proof.Machine

theorem follows_abortAll {T : Part → Bool} {s0 s : State} (hT : ∀ p ∈ ([.out, .bnd] : List Part), T p = true) (h : Follows T s0 s) : Follows T s0 (abortAll s) := by
  unfold abortAll
  refine follows_send (sub hT (by decide)) ?_
  refine follows_dropBoth (sub hT (by decide)) ?_
  assumption


theorem follows_orphanTrim {T : Part → Bool} {s0 s : State} (hT : ∀ p ∈ ([.bdy, .bnd] : List Part), T p = true) (h : Follows T s0 s) : Follows T s0 (orphanTrim s) := by
  unfold orphanTrim
  split
  · refine follows_event (sub hT (by decide)) ?_
    refine follows_dropTrim (sub hT (by decide)) ?_
    assumption
  · assumption


theorem follows_tableModes {T : Part → Bool} {s0 s : State} {a1 : Byte} (hT : ∀ p ∈ ([.cnt, .bays, .ports, .spn, .cells, .units, .axes, .cal, .bdy] : List Part), T p = true) (h : Follows T s0 s) : Follows T s0 (tableModes s a1) := by
  unfold tableModes
  refine follows_foldl ?_ ?_
  · assumption
  · intro u2 a2 hu2
    try extract_lets (merge := false) (underBinder := false) +onlyGivenNames m1
    try clear_value m1
    split
    · assumption
    · refine follows_setMode (sub hT (by decide)) ?_
      assumption


theorem follows_raiseFloor {T : Part → Bool} {s0 s : State} {a1 : Nat} (hT : ∀ p ∈ ([.kst] : List Part), T p = true) (h : Follows T s0 s) : Follows T s0 (raiseFloor s a1) := by
  unfold raiseFloor
  refine upd_kst (hT _ (by decide)) rfl ?_
  assumption


theorem follows_installCells {T : Part → Bool} {s0 s : State} {a1 : Binding} {a2 : Byte} (hT : ∀ p ∈ ([.cells] : List Part), T p = true) (h : Follows T s0 s) : Follows T s0 (installCells s a1 a2) := by
  unfold installCells
  try extract_lets (merge := false) (underBinder := false) +onlyGivenNames kept1
  try clear_value kept1
  refine upd_cells (hT _ (by decide)) ?_
  assumption


theorem follows_activate {T : Part → Bool} {s0 s : State} {a1 : Binding} {a2 : Bytes} {a3 : Nat} {a4 : Byte} (hT : ∀ p ∈ ([.cnt, .bays, .ports, .spn, .cells, .units, .axes, .cal, .kst, .bdy, .bnd] : List Part), T p = true) (h : Follows T s0 s) : Follows T s0 (activate s a1 a2 a3 a4) := by
  unfold activate
  extract_lets (merge := false) (underBinder := false) +onlyGivenNames j1_0 s1
  have hs1 : Follows T s0 s1 := by
    unfold s1
    refine upd_bnd (hT _ (by decide)) rfl ?_
    assumption
  clear_value s1
  refine follows_orphanTrim (sub hT (by decide)) ?_
  refine follows_tableModes (sub hT (by decide)) ?_
  refine follows_raiseFloor (sub hT (by decide)) ?_
  refine follows_installCells (sub hT (by decide)) ?_
  assumption


theorem follows_arm {T : Part → Bool} {s0 s : State} {a1 : Nat} (hT : ∀ p ∈ ([.out, .bnd] : List Part), T p = true) (h : Follows T s0 s) : FollowsFst T s0 (arm s a1) := by
  unfold arm
  try extract_lets (merge := false) (underBinder := false) +onlyGivenNames k1
  try clear_value k1
  try extract_lets (merge := false) (underBinder := false) +onlyGivenNames code2
  try clear_value code2
  extract_lets (merge := false) (underBinder := false) +onlyGivenNames s3
  have hs3 : Follows T s0 s3 := by
    unfold s3
    refine follows_setResult (sub hT (by decide)) ?_
    assumption
  clear_value s3
  split
  · extract_lets (merge := false) (underBinder := false) +onlyGivenNames j4_0 s4
    have hs4 : Follows T s0 s4 := by
      unfold s4
      refine upd_bnd (hT _ (by decide)) rfl ?_
      assumption
    clear_value s4
    refine follows_pair ?_
    refine follows_foldl ?_ ?_
    · assumption
    · intro u5 a5 hu5
      refine follows_send (sub hT (by decide)) ?_
      assumption
  · split
    · try extract_lets (merge := false) (underBinder := false) +onlyGivenNames todo6
      try clear_value todo6
      refine follows_pair ?_
      refine follows_foldl ?_ ?_
      · refine follows_dropWhere (sub hT (by decide)) ?_
        assumption
      · intro u7 a7 hu7
        refine follows_send (sub hT (by decide)) ?_
        assumption
    · refine follows_pair ?_
      assumption


theorem follows_beginCheck {T : Part → Bool} {s0 s : State} {a1 : Checking} (hT : ∀ p ∈ ([.bnd] : List Part), T p = true) (h : Follows T s0 s) : Follows T s0 (beginCheck s a1) := by
  unfold beginCheck
  refine upd_bnd (hT _ (by decide)) rfl ?_
  assumption


theorem follows_checkWindow {T : Part → Bool} {s0 s : State} {a1 : Bool} (hT : ∀ p ∈ ([.bnd] : List Part), T p = true) (h : Follows T s0 s) : Follows T s0 (checkWindow s a1) := by
  unfold checkWindow
  try extract_lets (merge := false) (underBinder := false) +onlyGivenNames g1
  try clear_value g1
  refine follows_beginCheck (sub hT (by decide)) ?_
  assumption


theorem follows_completeCode {T : Part → Bool} {s0 s : State} {a1 : CmdRef} {a2 : Nat} (hT : ∀ p ∈ ([.free, .out, .hiu] : List Part), T p = true) (h : Follows T s0 s) : Follows T s0 (completeCode s a1 a2) := by
  unfold completeCode
  refine follows_complete (sub hT (by decide)) ?_
  refine follows_drawn (sub hT (by decide)) ?_
  assumption


theorem follows_execBindingLoad {T : Part → Bool} {s0 s : State} {a0 : CmdRef} {a1 : Word} {a2 : Bytes} {a3 : Bool} (hT : ∀ p ∈ ([.free, .out, .hiu, .bnd] : List Part), T p = true) (h : Follows T s0 s) : Answers (Follows T s0) (execBindingLoad a0 a1 a2 a3 s) := by
  unfold execBindingLoad
  split
  · refine ⟨_, rfl, ?_⟩
    refine follows_complete (sub hT (by decide)) ?_
    assumption
  · split
    · refine ⟨_, rfl, ?_⟩
      refine follows_complete (sub hT (by decide)) ?_
      assumption
    · split
      · refine ⟨_, rfl, ?_⟩
        refine follows_completeCode (sub hT (by decide)) ?_
        refine follows_setResult (sub hT (by decide)) ?_
        refine upd_bnd (hT _ (by decide)) rfl ?_
        assumption
      · try extract_lets (merge := false) (underBinder := false) +onlyGivenNames xs1
        try clear_value xs1
        split
        · try extract_lets (merge := false) (underBinder := false) +onlyGivenNames g2
          try clear_value g2
          refine ⟨_, rfl, ?_⟩
          refine follows_beginCheck (sub hT (by decide)) ?_
          refine upd_bnd (hT _ (by decide)) rfl ?_
          assumption
        · refine ⟨_, rfl, ?_⟩
          refine follows_completeCode (sub hT (by decide)) ?_
          refine upd_bnd (hT _ (by decide)) rfl ?_
          assumption


theorem follows_execBndCheck {T : Part → Bool} {s0 s : State} (hT : ∀ p ∈ ([.bnd] : List Part), T p = true) (h : Follows T s0 s) : Answers (Follows T s0) (execBndCheck s) := by
  unfold execBndCheck
  split
  · refine ⟨_, rfl, ?_⟩
    assumption
  · refine ⟨_, rfl, ?_⟩
    refine follows_checkWindow (sub hT (by decide)) ?_
    assumption


theorem follows_execBndAbort {T : Part → Bool} {s0 s : State} (hT : ∀ p ∈ ([.out, .bnd] : List Part), T p = true) (h : Follows T s0 s) : Answers (Follows T s0) (execBndAbort s) := by
  unfold execBndAbort
  split
  · refine ⟨_, rfl, ?_⟩
    assumption
  · refine ⟨_, rfl, ?_⟩
    refine follows_abortAll (sub hT (by decide)) ?_
    assumption


theorem follows_execBndArm {T : Part → Bool} {s0 s : State} (hT : ∀ p ∈ ([.out, .bnd] : List Part), T p = true) (h : Follows T s0 s) : Answers (Follows T s0) (execBndArm s) := by
  unfold execBndArm
  split
  · refine ⟨_, rfl, ?_⟩
    assumption
  · refine ⟨_, rfl, ?_⟩
    refine follows_fst ?_
    refine follows_arm (sub hT (by decide)) ?_
    assumption


theorem follows_execBindingActivate {T : Part → Bool} {s0 s : State} {a0 : CmdRef} {a1 : Dword} (hT : ∀ p ∈ ([.free, .out, .hiu, .bnd] : List Part), T p = true) (h : Follows T s0 s) : Answers (Follows T s0) (execBindingActivate a0 a1 s) := by
  unfold execBindingActivate
  split
  · refine ⟨_, rfl, ?_⟩
    refine follows_complete (sub hT (by decide)) ?_
    assumption
  · extract_lets (merge := false) (underBinder := false) +onlyGivenNames x1
    have hx1 : FollowsFst T s0 x1 := by
      unfold x1
      refine follows_arm (sub hT (by decide)) ?_
      assumption
    clear_value x1
    refine ⟨_, rfl, ?_⟩
    refine follows_completeCode (sub hT (by decide)) ?_
    refine follows_fst ?_
    assumption


theorem follows_stage {T : Part → Bool} {s0 s : State} {a1 : Checking} {a2 : Binding} (hT : ∀ p ∈ ([.out, .bnd] : List Part), T p = true) (h : Follows T s0 s) : Follows T s0 (stage s a1 a2) := by
  unfold stage
  try extract_lets (merge := false) (underBinder := false) +onlyGivenNames x1
  try clear_value x1
  extract_lets (merge := false) (underBinder := false) +onlyGivenNames j2_0 j2_1 s2
  have hs2 : Follows T s0 s2 := by
    unfold s2
    split
    · refine upd_bnd (hT _ (by decide)) rfl ?_
      assumption
    · refine upd_bnd (hT _ (by decide)) rfl ?_
      assumption
  clear_value s2
  refine follows_send (sub hT (by decide)) ?_
  assumption


theorem follows_execBindingCheckDone {T : Part → Bool} {s0 s : State} (hT : ∀ p ∈ ([.free, .out, .hiu, .bnd] : List Part), T p = true) (h : Follows T s0 s) : Answers (Follows T s0) (execBindingCheckDone s) := by
  unfold execBindingCheckDone
  split
  · refine ⟨_, rfl, ?_⟩
    assumption
  · try extract_lets (merge := false) (underBinder := false) +onlyGivenNames v1
    try clear_value v1
    try extract_lets (merge := false) (underBinder := false) +onlyGivenNames b2
    try clear_value b2
    try extract_lets (merge := false) (underBinder := false) +onlyGivenNames code3
    try clear_value code3
    extract_lets (merge := false) (underBinder := false) +onlyGivenNames j4_0 s4
    have hs4 : Follows T s0 s4 := by
      unfold s4
      refine follows_setResult (sub hT (by decide)) ?_
      refine follows_showCheck (sub hT (by decide)) ?_
      refine upd_bnd (hT _ (by decide)) rfl ?_
      assumption
    clear_value s4
    extract_lets (merge := false) (underBinder := false) +onlyGivenNames s5
    have hs5 : Follows T s0 s5 := by
      unfold s5
      split
      · refine follows_stage (sub hT (by decide)) ?_
        assumption
      · assumption
    clear_value s5
    extract_lets (merge := false) (underBinder := false) +onlyGivenNames s6
    have hs6 : Follows T s0 s6 := by
      unfold s6
      split
      · refine follows_completeCode (sub hT (by decide)) ?_
        assumption
      · assumption
    clear_value s6
    refine ⟨_, rfl, ?_⟩
    split
    · refine follows_fst ?_
      refine follows_arm (sub hT (by decide)) ?_
      assumption
    · assumption


theorem follows_execBindingPairTimeout {T : Part → Bool} {s0 s : State} (hT : ∀ p ∈ ([.out, .bnd] : List Part), T p = true) (h : Follows T s0 s) : Answers (Follows T s0) (execBindingPairTimeout s) := by
  unfold execBindingPairTimeout
  try extract_lets (merge := false) (underBinder := false) +onlyGivenNames late1
  try clear_value late1
  try extract_lets (merge := false) (underBinder := false) +onlyGivenNames todo2
  try clear_value todo2
  split
  · refine ⟨_, rfl, ?_⟩
    assumption
  · refine ⟨_, rfl, ?_⟩
    refine follows_foldl ?_ ?_
    · refine follows_setResult (sub hT (by decide)) ?_
      refine follows_dropWhere (sub hT (by decide)) ?_
      assumption
    · intro u3 a3 hu3
      refine follows_send (sub hT (by decide)) ?_
      assumption


theorem follows_reaffect {T : Part → Bool} {s0 s : State} (hT : ∀ p ∈ ([.bnd] : List Part), T p = true) (h : Follows T s0 s) : Follows T s0 (reaffect s) := by
  unfold reaffect
  split
  · refine upd_bnd (hT _ (by decide)) rfl ?_
    assumption
  · assumption


theorem follows_execTrimCommit {T : Part → Bool} {s0 s : State} (hT : ∀ p ∈ ([.cnt, .cells, .kst, .bdy, .bnd] : List Part), T p = true) (h : Follows T s0 s) : Answers (Follows T s0) (execTrimCommit s) := by
  unfold execTrimCommit
  split
  · refine ⟨_, rfl, ?_⟩
    assumption
  · split
    · refine ⟨_, rfl, ?_⟩
      assumption
    · split
      · refine ⟨_, rfl, ?_⟩
        assumption
      · split
        · refine ⟨_, rfl, ?_⟩
          refine follows_loseArmed (sub hT (by decide)) ?_
          assumption
        · extract_lets (merge := false) (underBinder := false) +onlyGivenNames j1_0 s1
          have hs1 : Follows T s0 s1 := by
            unfold s1
            refine follows_mk ?_ rfl rfl rfl rfl rfl rfl rfl rfl rfl rfl rfl same same same same same same same same same same same same (.inl (hT _ (by decide))) same same same same same same same same same same same same same (.inl (hT _ (by decide)))
            assumption
          clear_value s1
          refine ⟨_, rfl, ?_⟩
          refine follows_writeColophon (sub hT (by decide)) ?_
          refine follows_raiseFloor (sub hT (by decide)) ?_
          refine follows_reaffect (sub hT (by decide)) ?_
          assumption


theorem follows_execStructuralCommit {T : Part → Bool} {s0 s : State} (hT : ∀ p ∈ ([.cnt, .bays, .ports, .spn, .cells, .units, .axes, .cal, .kst, .bdy, .bnd] : List Part), T p = true) (h : Follows T s0 s) : Answers (Follows T s0) (execStructuralCommit s) := by
  unfold execStructuralCommit
  split
  · refine ⟨_, rfl, ?_⟩
    assumption
  · split
    · refine ⟨_, rfl, ?_⟩
      assumption
    · split
      · refine ⟨_, rfl, ?_⟩
        assumption
      · split
        · refine ⟨_, rfl, ?_⟩
          refine follows_loseArmed (sub hT (by decide)) ?_
          assumption
        · split
          · refine ⟨_, rfl, ?_⟩
            refine follows_setResult (sub hT (by decide)) ?_
            refine follows_dropStruct (sub hT (by decide)) ?_
            assumption
          · refine ⟨_, rfl, ?_⟩
            refine follows_writeColophon (sub hT (by decide)) ?_
            refine follows_activate (sub hT (by decide)) ?_
            assumption


end Sys2Proof.Machine
end

