-- ==== Sys2Proof/Laws/FollowsReset.lean ====
section
/-! SUPPORT. What the operations of Machine/Reset.lean keep: the queue, the canonical form of the sorted stores, the ingest sequence. -/

namespace Sys2Proof.Machine

theorem follows_writePage {T : Part → Bool} {s0 s : State} (hT : ∀ p ∈ ([.bdy] : List Part), T p = true) (h : Follows T s0 s) : Follows T s0 (writePage s) := by
  unfold writePage
  try extract_lets (merge := false) (underBinder := false) +onlyGivenNames p1
  try clear_value p1
  try extract_lets (merge := false) (underBinder := false) +onlyGivenNames rest2
  try clear_value rest2
  split
  · assumption
  · refine upd_bdy (hT _ (by decide)) rfl rfl ?_
    assumption


theorem follows_writePages {T : Part → Bool} {s0 s : State} (hT : ∀ p ∈ ([.bdy] : List Part), T p = true) (h : Follows T s0 s) : Follows T s0 (writePages s) := by
  unfold writePages
  refine follows_foldl ?_ ?_
  · assumption
  · intro u1 a1 hu1
    refine follows_writePage (sub hT (by decide)) ?_
    assumption


theorem follows_boot {T : Part → Bool} {s0 s : State} (hT : ∀ p ∈ ([.cnt, .bdy] : List Part), T p = true) (h : Follows T s0 s) : FollowsOpt T s0 (boot s) := by
  have hb : ∀ (u : State) (b : Bdy), Follows T s0 u → b.mboxReq = u.bdy.mboxReq → b.mboxRsp = u.bdy.mboxRsp → Follows T s0 { u with bdy := b } :=
    fun u q hu e f => upd_bdy (hT _ (by decide)) e f hu
  unfold boot
  extract_lets (merge := false) (underBinder := false) +onlyGivenNames pend spent want j1 s1 j2 s2
  have h1 : Follows T s0 s1 := by
    unfold s1
    split
    · exact follows_fileDirectory (sub hT (by decide)) (hb _ _ h rfl rfl)
    · exact h
  clear_value s1
  have h2 : Follows T s0 s2 := by
    unfold s2
    split
    · exact follows_countEvent (sub hT (by decide)) (follows_fileDirectory (sub hT (by decide)) (hb _ _ h1 rfl rfl))
    · exact h1
  clear_value s2
  intro t ht
  obtain ⟨l, -, ht⟩ := Option.bind_eq_some_iff.1 ht
  obtain ⟨f, -, rfl⟩ := Option.map_eq_some_iff.1 ht
  dsimp only
  split
  · exact hb _ _ h2 rfl rfl
  · exact follows_countEvent (sub hT (by decide)) (hb _ _ h2 rfl rfl)


theorem follows_bootRecord {T : Part → Bool} {s0 s : State} (hT : ∀ p ∈ ([.cnt, .ports, .bdy] : List Part), T p = true) (h : Follows T s0 s) : Follows T s0 (bootRecord s) := by
  unfold bootRecord
  extract_lets (merge := false) (underBinder := false) +onlyGivenNames j1_0 s1
  have hs1 : Follows T s0 s1 := by
    unfold s1
    split
    · refine upd_bdy (hT _ (by decide)) rfl rfl ?_
      assumption
    · assumption
  clear_value s1
  extract_lets (merge := false) (underBinder := false) +onlyGivenNames s2
  have hs2 : Follows T s0 s2 := by
    unfold s2
    refine follows_writeColophon (sub hT (by decide)) ?_
    assumption
  clear_value s2
  refine follows_mk ?_ rfl rfl rfl rfl rfl rfl rfl rfl rfl rfl rfl same same same same same same same same (.inl (hT _ (by decide))) same same same same same same same same same same same same same same same same (.inl (hT _ (by decide))) same
  assumption


theorem follows_warmed {T : Part → Bool} {s0 s : State} {a1 : Phase} {a2 : Nat} (hT : ∀ p ∈ ([.free, .regs, .splitLatch, .hostRead, .cnt, .tck, .pwr, .bays, .ports, .spn, .out, .cells, .units, .bus, .axes, .rdc, .wrc, .cal, .qre, .hiu, .cmd, .mem, .kst, .cph, .bdy, .bnd] : List Part), T p = true) (h : Follows T s0 s) : Follows T s0 (warmed s a1 a2) := by
  refine follows_trans h ⟨rfl, ?_, ?_, ?_, ?_⟩
  · rintro ⟨h1, h2, h3, h4⟩
    exact ⟨sortedT_filter h1, wfT_filter h2, wfT_filter h3, rfl, rfl, rfl, rfl⟩
  · intro _
    exact ⟨Nat.le_refl _, Nat.le_refl _⟩
  · rintro ⟨h1, h2⟩
    exact .inr ⟨rfl, Nat.le_trans h1 h2⟩
  · intro p hp
    have hq : p = .bfes := by
      have hc := outside_of hT hp
      revert hc
      cases p <;> decide
    subst hq
    rfl


theorem follows_powered {T : Part → Bool} {s0 s : State} (hT : ∀ p ∈ ([.free, .regs, .splitLatch, .hostRead, .cnt, .tck, .pwr, .bays, .ports, .spn, .out, .cells, .units, .bus, .axes, .rdc, .wrc, .cal, .qre, .hiu, .cmd, .mem, .kst, .cph, .bdy, .bnd] : List Part), T p = true) (h : Follows T s0 s) : Follows T s0 (powered s) := by
  refine follows_trans h ⟨rfl, ?_, ?_, ?_, ?_⟩
  · intro _
    exact ⟨rfl, rfl, rfl, rfl, rfl, rfl, rfl⟩
  · intro _
    exact ⟨Nat.le_refl _, Nat.le_refl _⟩
  · rintro ⟨h1, h2⟩
    exact .inr ⟨rfl, Nat.le_trans h1 h2⟩
  · intro p hp
    have hq : p = .bfes := by
      have hc := outside_of hT hp
      revert hc
      cases p <;> decide
    subst hq
    rfl


theorem follows_execPowerOnReset {T : Part → Bool} {s0 s : State} (hT : ∀ p ∈ ([.free, .regs, .splitLatch, .hostRead, .cnt, .tck, .pwr, .bays, .ports, .spn, .out, .cells, .units, .bus, .axes, .rdc, .wrc, .cal, .qre, .hiu, .cmd, .mem, .kst, .cph, .bdy, .bnd] : List Part), T p = true) (h : Follows T s0 s) : Answers (Follows T s0) (execPowerOnReset s) := by
  unfold execPowerOnReset
  refine ⟨_, rfl, ?_⟩
  refine follows_powered (sub hT (by decide)) ?_
  assumption


theorem follows_execWarmReset {T : Part → Bool} {s0 s : State} {a0 : WarmCause} (hT : ∀ p ∈ ([.free, .regs, .splitLatch, .hostRead, .cnt, .tck, .pwr, .bays, .ports, .spn, .out, .cells, .units, .bus, .axes, .rdc, .wrc, .cal, .qre, .hiu, .cmd, .mem, .kst, .cph, .bdy, .bnd] : List Part), T p = true) (h : Follows T s0 s) : Answers (Follows T s0) (execWarmReset a0 s) := by
  unfold execWarmReset
  split
  · refine ⟨_, rfl, ?_⟩
    assumption
  · refine ⟨_, rfl, ?_⟩
    refine follows_warmed (sub hT (by decide)) ?_
    assumption


theorem follows_execPerstN {T : Part → Bool} {s0 s : State} {a0 : Fin 2} (hT : ∀ p ∈ ([.cnt, .bays, .ports, .out, .rdc, .wrc, .cal, .qre, .hiu, .cmd, .mem, .bdy] : List Part), T p = true) (h : Follows T s0 s) : Answers (Follows T s0) (execPerstN a0 s) := by
  unfold execPerstN
  split
  · refine ⟨_, rfl, ?_⟩
    assumption
  · refine ⟨_, rfl, ?_⟩
    refine follows_releaseVersions (sub hT (by decide)) ?_
    refine follows_setCtrl (sub hT (by decide)) ?_
    refine follows_endController (sub hT (by decide)) ?_
    assumption


theorem follows_loseMirror {T : Part → Bool} {s0 s : State} (hT : ∀ p ∈ ([.out, .hiu, .cmd, .mem] : List Part), T p = true) (h : Follows T s0 s) : Follows T s0 (loseMirror s) := by
  unfold loseMirror
  split
  · refine follows_vendorEvent (sub hT (by decide)) ?_
    refine upd_cmd (hT _ (by decide)) ?_
    assumption
  · split
    · assumption
    · extract_lets (merge := false) (underBinder := false) +onlyGivenNames j1_0 s1
      have hs1 : Follows T s0 s1 := by
        unfold s1
        refine follows_vendorEvent (sub hT (by decide)) ?_
        refine upd_cmd (hT _ (by decide)) ?_
        assumption
      clear_value s1
      refine follows_foldl ?_ ?_
      · assumption
      · intro u2 a2 hu2
        refine follows_logVersion (sub hT (by decide)) ?_
        assumption


theorem follows_execEventLogPageWrite {T : Part → Bool} {s0 s : State} (hT : ∀ p ∈ ([.bdy] : List Part), T p = true) (h : Follows T s0 s) : Answers (Follows T s0) (execEventLogPageWrite s) := by
  unfold execEventLogPageWrite
  split
  · refine ⟨_, rfl, ?_⟩
    refine follows_writePage (sub hT (by decide)) ?_
    assumption
  · refine ⟨_, rfl, ?_⟩
    assumption


theorem follows_execResetCauseClear {T : Part → Bool} {s0 s : State} {a0 : BitVec 7} (hT : ∀ p ∈ ([.pwr] : List Part), T p = true) (h : Follows T s0 s) : Answers (Follows T s0) (execResetCauseClear a0 s) := by
  unfold execResetCauseClear
  split
  · refine ⟨_, rfl, ?_⟩
    assumption
  · refine ⟨_, rfl, ?_⟩
    refine upd_pwr (hT _ (by decide)) ?_
    assumption


theorem follows_execCounterClear {T : Part → Bool} {s0 s : State} {a0 : Fin 17} (hT : ∀ p ∈ ([.cnt] : List Part), T p = true) (h : Follows T s0 s) : Answers (Follows T s0) (execCounterClear a0 s) := by
  unfold execCounterClear
  split
  · refine ⟨_, rfl, ?_⟩
    assumption
  · refine ⟨_, rfl, ?_⟩
    refine follows_clearCounters (sub hT (by decide)) ?_
    assumption


theorem follows_installAll {T : Part → Bool} {s0 s : State} {a1 : Binding} (hT : ∀ p ∈ ([.cells] : List Part), T p = true) (h : Follows T s0 s) : Follows T s0 (installAll s a1) := by
  unfold installAll
  refine follows_installCells (sub hT (by decide)) ?_
  refine upd_cells (hT _ (by decide)) ?_
  assumption


theorem follows_startBinding {T : Part → Bool} {s0 s : State} {a1 : Binding} {a2 : Bytes} {a3 : Nat} (hT : ∀ p ∈ ([.cells, .kst, .bnd] : List Part), T p = true) (h : Follows T s0 s) : Follows T s0 (startBinding s a1 a2 a3) := by
  unfold startBinding
  refine follows_raiseFloor (sub hT (by decide)) ?_
  refine follows_installAll (sub hT (by decide)) ?_
  refine upd_bnd (hT _ (by decide)) rfl ?_
  assumption


theorem follows_loadBinding {T : Part → Bool} {s0 s : State} (hT : ∀ p ∈ ([.out, .cells, .hiu, .kst, .bdy, .bnd] : List Part), T p = true) (h : Follows T s0 s) : Follows T s0 (loadBinding s) := by
  unfold loadBinding
  dsimp only
  split
  · exact follows_startBinding (sub hT (by decide)) h
  · rename_i bs _
    have hr := follows_setResult (T := T) (a1 := (loadChecks s bs true true).code) (sub hT (by decide))
      (follows_showCheck (T := T) (a1 := loadChecks s bs true true) (a2 := parse bs) (sub hT (by decide)) h)
    generalize setResult _ _ = u at hr ⊢
    split
    · exact follows_startBinding (sub hT (by decide)) hr
    · refine follows_vendorEvent (sub hT (by decide)) (follows_event (sub hT (by decide)) ?_)
      exact upd_bnd (hT _ (by decide)) rfl (follows_startBinding (sub hT (by decide)) hr)


theorem follows_trained {T : Part → Bool} {s0 s : State} (hT : ∀ p ∈ ([.pwr] : List Part), T p = true) (h : Follows T s0 s) : Follows T s0 (trained s) := by
  unfold trained
  refine upd_pwr (hT _ (by decide)) ?_
  assumption


theorem follows_execResetRelease {T : Part → Bool} {s0 s : State} {a0 : Fin 2} {a1 : Bool} {a2 : Byte} {a3 : Byte} {a4 : Half} {a5 : BitVec 4} {a6 : Bool} (hT : ∀ p ∈ ([.cnt, .tck, .pwr, .spn, .out, .cells, .hiu, .mem, .kst, .cph, .bdy, .bnd] : List Part), T p = true) (h : Follows T s0 s) : Answers (Follows T s0) (execResetRelease a0 a1 a2 a3 a4 a5 a6 s) := by
  unfold execResetRelease
  dsimp only
  split
  · exact ⟨_, rfl, h⟩
  · have h1 : ∀ (t : Tck) (p : Pwr), Follows T s0 { s with tck := t, pwr := p } :=
      fun t p => follows_mk h rfl rfl rfl rfl rfl rfl rfl rfl rfl rfl rfl same same same same same (.inl (hT _ (by decide))) (.inl (hT _ (by decide))) same same same same same same same same same same same same same same same same same same same same
    split
    · refine ⟨_, rfl, ?_⟩
      exact follows_mk h rfl rfl rfl rfl rfl rfl rfl rfl rfl rfl rfl same same same same same (.inl (hT _ (by decide))) (.inl (hT _ (by decide))) same same same same same same same same same same same same same same same same same same same same
    · rename_i u hu
      have h2 : Follows T s0 u := follows_boot (sub hT (by decide)) (h1 _ _) u hu
      have h3 := follows_loadBinding (sub hT (by decide)) (s := { u with
        pwr := { u.pwr with phase := .starting, domCore := true, domSerdes := 0x3FFF, stage := 4, quadsAt := now u }
        tck := { u.tck with aliveOn := true }
        spn := { u.spn with link := 1 }
        cph := { u.cph with drbg := 0, drbgAt := now u }
        bdy := { u.bdy with overrides := (sheet u).overrides }
        mem := { u.mem with dimm0 := a2.toNat, dimm1 := a3.toNat, vaultKind := vaultTest a4.toNat a5 a6
                            vault := vaultTest a4.toNat a5 a6, rate := a4.toNat } })
        (follows_mk h2 rfl rfl rfl rfl rfl rfl rfl rfl rfl rfl rfl same same same same same (.inl (hT _ (by decide))) (.inl (hT _ (by decide))) same same same (.inl (hT _ (by decide))) same same same same same same same same same same same (.inl (hT _ (by decide))) same (.inl (hT _ (by decide))) (.inl (hT _ (by decide))) same)
      generalize loadBinding _ = w at h3 ⊢
      have h4 : Follows T s0 { w with mem := { w.mem with window0 := (w.bnd.active.map (fun (b : Binding) => b.limits.dirtyGib)).getD 24 } } :=
        upd_mem (hT _ (by decide)) rfl rfl h3
      split
      · refine ⟨_, rfl, follows_event (sub hT (by decide)) ?_⟩
        exact follows_mk h3 rfl rfl rfl rfl rfl rfl rfl rfl rfl rfl rfl same same same same same (.inl (hT _ (by decide))) (.inl (hT _ (by decide))) same same same same same same same same same same same same same same same (.inl (hT _ (by decide))) same same same same
      · split
        · refine ⟨_, rfl, ?_⟩
          exact follows_mk h3 rfl rfl rfl rfl rfl rfl rfl rfl rfl rfl rfl same same same same same same (.inl (hT _ (by decide))) same same same same same same same same same same same same same same same (.inl (hT _ (by decide))) same same same same
        · exact ⟨_, rfl, follows_trained (sub hT (by decide)) h4⟩


theorem follows_restartJournal {T : Part → Bool} {s0 s : State} (hT : ∀ p ∈ ([.cnt, .bays, .ports, .rdc, .wrc, .cal, .qre, .bdy] : List Part), T p = true) (h : Follows T s0 s) : Follows T s0 (restartJournal s) := by
  unfold restartJournal
  try extract_lets (merge := false) (underBinder := false) +onlyGivenNames n1
  try clear_value n1
  extract_lets (merge := false) (underBinder := false) +onlyGivenNames s2
  have hs2 : Follows T s0 s2 := by
    unfold s2
    refine follows_foldl ?_ ?_
    · assumption
    · intro u3 a3 hu3
      split
      · refine follows_abandonQuire (sub hT (by decide)) ?_
        assumption
      · assumption
  clear_value s2
  extract_lets (merge := false) (underBinder := false) +onlyGivenNames s4
  have hs4 : Follows T s0 s4 := by
    unfold s4
    refine follows_foldl ?_ ?_
    · assumption
    · intro u5 a5 hu5
      refine follows_waitQuire (sub hT (by decide)) ?_
      assumption
  clear_value s4
  split
  · assumption
  · refine upd_qre (hT _ (by decide)) ?_
    assumption


theorem follows_readyAll {T : Part → Bool} {s0 s : State} (hT : ∀ p ∈ ([.hiu, .kst, .bdy] : List Part), T p = true) (h : Follows T s0 s) : Follows T s0 (readyAll s) := by
  unfold readyAll
  refine follows_foldl ?_ ?_
  · assumption
  · intro u2 a2 hu2
    try extract_lets (merge := false) (underBinder := false) +onlyGivenNames c1
    try clear_value c1
    split
    · refine follows_confirmSlot (sub hT (by decide)) ?_
      refine follows_setCtrl (sub hT (by decide)) ?_
      assumption
    · assumption


theorem follows_execStartupComplete {T : Part → Bool} {s0 s : State} (hT : ∀ p ∈ ([.cnt, .pwr, .bays, .ports, .spn, .cells, .units, .axes, .rdc, .wrc, .cal, .qre, .hiu, .kst, .bdy] : List Part), T p = true) (h : Follows T s0 s) : Answers (Follows T s0) (execStartupComplete s) := by
  unfold execStartupComplete
  split
  · refine ⟨_, rfl, ?_⟩
    assumption
  · extract_lets (merge := false) (underBinder := false) +onlyGivenNames s1
    have hs1 : Follows T s0 s1 := by
      unfold s1
      refine follows_bootRecord (sub hT (by decide)) ?_
      refine follows_restartJournal (sub hT (by decide)) ?_
      assumption
    clear_value s1
    extract_lets (merge := false) (underBinder := false) +onlyGivenNames j2_0 s2
    have hs2 : Follows T s0 s2 := by
      unfold s2
      refine upd_pwr (hT _ (by decide)) ?_
      assumption
    clear_value s2
    refine ⟨_, rfl, ?_⟩
    refine follows_readyAll (sub hT (by decide)) ?_
    split
    · assumption
    · refine follows_tableModes (sub hT (by decide)) ?_
      assumption


theorem follows_execPairingTimeout {T : Part → Bool} {s0 s : State} (hT : ∀ p ∈ ([.pwr, .out, .hiu, .cmd, .mem] : List Part), T p = true) (h : Follows T s0 s) : Answers (Follows T s0) (execPairingTimeout s) := by
  unfold execPairingTimeout
  split
  · refine ⟨_, rfl, ?_⟩
    refine follows_loseMirror (sub hT (by decide)) ?_
    refine upd_pwr (hT _ (by decide)) ?_
    assumption
  · refine ⟨_, rfl, ?_⟩
    assumption


theorem follows_execPowerFailClear {T : Part → Bool} {s0 s : State} (hT : ∀ p ∈ ([.pwr] : List Part), T p = true) (h : Follows T s0 s) : Answers (Follows T s0) (execPowerFailClear s) := by
  unfold execPowerFailClear
  split
  · refine ⟨_, rfl, ?_⟩
    refine follows_trained (sub hT (by decide)) ?_
    assumption
  · refine ⟨_, rfl, ?_⟩
    assumption


end Sys2Proof.Machine
end

