-- ==== Sys2Proof/Laws/FollowsVault.lean ====
section
/-! SUPPORT. What the operations of Machine/Vault.lean keep: the queue, the canonical form of the sorted stores, the ingest sequence. -/

namespace Sys2Proof.Machine

theorem follows_aboveAll {T : Part → Bool} {s0 s : State} (hT : ∀ p ∈ ([.cmd] : List Part), T p = true) (h : Follows T s0 s) : Follows T s0 (aboveAll s) := by
  unfold aboveAll
  refine upd_cmd (hT _ (by decide)) ?_
  assumption


theorem follows_awaitCopy {T : Part → Bool} {s0 s : State} {a1 : Nat} {a2 : LineKind} {a3 : Nat} (hT : ∀ p ∈ ([.out, .mem] : List Part), T p = true) (h : Follows T s0 s) : Follows T s0 (awaitCopy s a1 a2 a3) := by
  unfold awaitCopy
  refine follows_send (sub hT (by decide)) ?_
  refine upd_mem (hT _ (by decide)) rfl rfl ?_
  assumption


theorem follows_mended {T : Part → Bool} {s0 s : State} {a1 : Nat} (hT : ∀ p ∈ ([.mem] : List Part), T p = true) (h : Follows T s0 s) : Follows T s0 (mended s a1) := by
  unfold mended
  refine follows_dramWrite (sub hT (by decide)) ?_
  assumption


theorem follows_actOnLine {T : Part → Bool} {s0 s : State} {a1 : Nat} {a2 : LineKind} (hT : ∀ p ∈ ([.out, .cal, .hiu, .cmd, .mem] : List Part), T p = true) (h : Follows T s0 s) : Follows T s0 (actOnLine s a1 a2) := by
  unfold actOnLine
  split
  · split
    · assumption
    · split
      · refine follows_awaitCopy (sub hT (by decide)) ?_
        assumption
      · split
        · refine follows_mended (sub hT (by decide)) ?_
          assumption
        · refine upd_cmd (hT _ (by decide)) ?_
          assumption
  · refine follows_awaitCopy (sub hT (by decide)) ?_
    assumption
  · refine follows_mended (sub hT (by decide)) ?_
    assumption
  · split
    · refine follows_mended (sub hT (by decide)) ?_
      assumption
    · refine follows_vendorEvent (sub hT (by decide)) ?_
      refine upd_cmd (hT _ (by decide)) ?_
      assumption
  · refine follows_setCtrl (sub hT (by decide)) ?_
    assumption
  · refine follows_discLoad (sub hT (by decide)) ?_
    refine follows_setCal (sub hT (by decide)) ?_
    assumption
  · assumption
  · assumption


theorem follows_beginDump {T : Part → Bool} {s0 s : State} (hT : ∀ p ∈ ([.free, .cnt, .bays, .ports, .spn, .out, .cells, .units, .axes, .rdc, .wrc, .cal, .qre, .hiu, .cmd, .mem, .kst, .cph, .bdy] : List Part), T p = true) (h : Follows T s0 s) : Follows T s0 (beginDump s) := by
  unfold beginDump
  extract_lets (merge := false) (underBinder := false) +onlyGivenNames j1_0 j1_1 j1_2 j1_3 s1
  have hs1 : Follows T s0 s1 := by
    unfold s1
    refine follows_mk ?_ rfl rfl rfl rfl rfl rfl rfl rfl rfl rfl rfl same same same same same same same same same same same same same same same same same same same (.inl (hT _ (by decide))) (.inl (hT _ (by decide))) (.inl (hT _ (by decide))) same (.inl (hT _ (by decide))) same same same
    assumption
  clear_value s1
  extract_lets (merge := false) (underBinder := false) +onlyGivenNames s2
  have hs2 : Follows T s0 s2 := by
    unfold s2
    refine follows_foldl ?_ ?_
    · assumption
    · intro u3 a3 hu3
      split
      · refine follows_stopBay (sub hT (by decide)) ?_
        assumption
      · assumption
  clear_value s2
  extract_lets (merge := false) (underBinder := false) +onlyGivenNames s4
  have hs4 : Follows T s0 s4 := by
    unfold s4
    refine follows_send (sub hT (by decide)) ?_
    assumption
  clear_value s4
  extract_lets (merge := false) (underBinder := false) +onlyGivenNames s5
  have hs5 : Follows T s0 s5 := by
    unfold s5
    refine follows_countEvent (sub hT (by decide)) ?_
    assumption
  clear_value s5
  extract_lets (merge := false) (underBinder := false) +onlyGivenNames s6
  have hs6 : Follows T s0 s6 := by
    unfold s6
    refine follows_writePages (sub hT (by decide)) ?_
    assumption
  clear_value s6
  try extract_lets (merge := false) (underBinder := false) +onlyGivenNames fresh7
  try clear_value fresh7
  refine upd_mem (hT _ (by decide)) rfl rfl ?_
  assumption


theorem follows_burnCache {T : Part → Bool} {s0 s : State} {a1 : List (BitVec 39)} {a2 : Bool} (hT : ∀ p ∈ ([.cnt, .mem, .bdy] : List Part), T p = true) (h : Follows T s0 s) : Follows T s0 (burnCache s a1 a2) := by
  unfold burnCache
  dsimp only
  split
  · exact follows_countEvent (sub hT (by decide)) (follows_cacheDropSet (sub hT (by decide)) h)
  · split
    · split
      · exact follows_countEvent (sub hT (by decide)) h
      · exact upd_mem (hT _ (by decide)) rfl rfl (follows_bump (sub hT (by decide)) (a1 := 13) (a2 := 2) h)
    · split
      · exact h
      · exact follows_bumpN (sub hT (by decide)) h


theorem follows_poisonLine {T : Part → Bool} {s0 s : State} {a1 : Nat} (hT : ∀ p ∈ ([.cnt, .mem, .bdy] : List Part), T p = true) (h : Follows T s0 s) : Follows T s0 (poisonLine s a1) := by
  unfold poisonLine
  refine follows_countEvent (sub hT (by decide)) ?_
  refine upd_mem (hT _ (by decide)) rfl rfl ?_
  assumption


theorem follows_burnDram {T : Part → Bool} {s0 s : State} {a1 : List (BitVec 39)} {a2 : LineKind} {a3 : Bool} (hT : ∀ p ∈ ([.cnt, .out, .cal, .hiu, .cmd, .mem, .bdy] : List Part), T p = true) (h : Follows T s0 s) : Follows T s0 (burnDram s a1 a2 a3) := by
  unfold burnDram
  dsimp only
  split
  · exact follows_actOnLine (sub hT (by decide)) (follows_poisonLine (sub hT (by decide)) h)
  · split
    · exact h
    · have hb := follows_bumpN (sub hT (by decide)) (a1 := 13) (a2 := 4) (a3 := ((List.filter (fun e => decideSyndrome (syndrome e.toNat) != .clean)
          ((List.range 16).map (wordErr s a1 (64 * s.mem.burnLine)))).length)) (follows_bumpN (sub hT (by decide)) (a1 := 13)
          (a2 := 64 * s.mem.burnLine / 4096 % 2) (a3 := ((List.filter (fun e => decideSyndrome (syndrome e.toNat) != .clean)
          ((List.range 16).map (wordErr s a1 (64 * s.mem.burnLine)))).length)) h)
      generalize bumpN _ _ _ _ = u at hb ⊢
      have hd : ∀ (v : State) (d : Tbl (BitVec 39)) (l : List Nat) (k : Nat → Nat) (x : Nat → BitVec 39), Follows T s0 v → d = v.mem.dram →
          Follows T s0 { v with mem := { v.mem with dram := l.foldl (fun t j => put t 0 (k j) (x j)) d } } := by
        rintro v d l k x hv rfl
        refine follows_stores hv rfl ?_ rfl rfl (frame_one (hT _ (by decide)) same_mem)
        rintro ⟨h1, h2, h3, h4⟩
        exact ⟨h1, h2, wfT_foldl_put h3, h4⟩
      split
      · exact hb
      · split
        · exact hd _ _ _ _ _ (follows_dramWrite (sub hT (by decide)) (hd _ _ _ _ _ hb rfl)) rfl
        · exact hd _ _ _ _ _ hb rfl


theorem follows_execPowerFailDetect {T : Part → Bool} {s0 s : State} (hT : ∀ p ∈ ([.free, .cnt, .pwr, .bays, .ports, .spn, .out, .cells, .units, .axes, .rdc, .wrc, .cal, .qre, .hiu, .cmd, .mem, .kst, .cph, .bdy] : List Part), T p = true) (h : Follows T s0 s) : Answers (Follows T s0) (execPowerFailDetect s) := by
  unfold execPowerFailDetect
  split
  · refine ⟨_, rfl, ?_⟩
    assumption
  · split
    · refine ⟨_, rfl, ?_⟩
      refine upd_pwr (hT _ (by decide)) ?_
      assumption
    · refine ⟨_, rfl, ?_⟩
      refine follows_beginDump (sub hT (by decide)) ?_
      assumption


theorem follows_execVaultDone {T : Part → Bool} {s0 s : State} (hT : ∀ p ∈ ([.free, .regs, .splitLatch, .hostRead, .cnt, .tck, .pwr, .bays, .ports, .spn, .out, .cells, .units, .bus, .axes, .rdc, .wrc, .cal, .qre, .hiu, .cmd, .mem, .kst, .cph, .bdy, .bnd] : List Part), T p = true) (h : Follows T s0 s) : Answers (Follows T s0) (execVaultDone s) := by
  unfold execVaultDone
  split
  · refine ⟨_, rfl, ?_⟩
    assumption
  · try extract_lets (merge := false) (underBinder := false) +onlyGivenNames heat1
    try clear_value heat1
    extract_lets (merge := false) (underBinder := false) +onlyGivenNames j2_0 s2
    have hs2 : Follows T s0 s2 := by
      unfold s2
      refine upd_mem (hT _ (by decide)) rfl rfl ?_
      assumption
    clear_value s2
    extract_lets (merge := false) (underBinder := false) +onlyGivenNames s3
    have hs3 : Follows T s0 s3 := by
      unfold s3
      refine follows_warmed (sub hT (by decide)) ?_
      assumption
    clear_value s3
    refine ⟨_, rfl, ?_⟩
    refine upd_pwr (hT _ (by decide)) ?_
    assumption


theorem follows_loadLog {T : Part → Bool} {s0 s : State} (hT : ∀ p ∈ ([.qre, .cmd] : List Part), T p = true) (h : Follows T s0 s) : Follows T s0 (loadLog s) := by
  unfold loadLog
  refine follows_mk ?_ rfl rfl rfl rfl rfl rfl rfl rfl rfl rfl rfl same same same same same same same same same same same same same same same same same same same (.inl (hT _ (by decide))) same (.inl (hT _ (by decide))) same same same same same
  assumption


theorem follows_loseVersion {T : Part → Bool} {s0 s : State} {a1 : Version} (hT : ∀ p ∈ ([.qre, .cmd, .bdy] : List Part), T p = true) (h : Follows T s0 s) : Follows T s0 (loseVersion s a1) := by
  unfold loseVersion
  extract_lets (merge := false) (underBinder := false) +onlyGivenNames s1
  have hs1 : Follows T s0 s1 := by
    unfold s1
    refine follows_foldl ?_ ?_
    · assumption
    · intro u2 a2 hu2
      refine follows_event (sub hT (by decide)) ?_
      assumption
  clear_value s1
  refine follows_mk ?_ rfl rfl rfl rfl rfl rfl rfl rfl rfl rfl rfl same same same same same same same same same same same same same same same same same same same (.inl (hT _ (by decide))) same (.inl (hT _ (by decide))) same same same same same
  assumption


theorem follows_loadImage {T : Part → Bool} {s0 s : State} {a1 : Image} (hT : ∀ p ∈ ([.qre, .hiu, .cmd, .mem] : List Part), T p = true) (h : Follows T s0 s) : Follows T s0 (loadImage s a1) := by
  unfold loadImage
  refine follows_mk ?_ rfl rfl rfl rfl rfl rfl rfl rfl rfl rfl rfl same same same same same same same same same same same same same same same same same same same (.inl (hT _ (by decide))) (.inl (hT _ (by decide))) (.inl (hT _ (by decide))) (.inl (hT _ (by decide))) same same same same
  assumption


theorem follows_execVaultReplayDone {T : Part → Bool} {s0 s : State} {a0 : Bool} {a1 : List (Nat × Nat)} (hT : ∀ p ∈ ([.cnt, .pwr, .qre, .hiu, .cmd, .mem, .bdy] : List Part), T p = true) (h : Follows T s0 s) : Answers (Follows T s0) (execVaultReplayDone a0 a1 s) := by
  unfold execVaultReplayDone
  split
  · refine ⟨_, rfl, ?_⟩
    assumption
  · try extract_lets (merge := false) (underBinder := false) +onlyGivenNames img1
    try clear_value img1
    extract_lets (merge := false) (underBinder := false) +onlyGivenNames s2
    have hs2 : Follows T s0 s2 := by
      unfold s2
      split
      · refine follows_loadLog (sub hT (by decide)) ?_
        refine upd_mem (hT _ (by decide)) rfl rfl ?_
        assumption
      · try extract_lets (merge := false) (underBinder := false) +onlyGivenNames gone3
        try clear_value gone3
        extract_lets (merge := false) (underBinder := false) +onlyGivenNames s4
        have hs4 : Follows T s0 s4 := by
          unfold s4
          refine follows_foldl ?_ ?_
          · refine follows_loadImage (sub hT (by decide)) ?_
            assumption
          · intro u5 a5 hu5
            refine follows_loseVersion (sub hT (by decide)) ?_
            assumption
        clear_value s4
        extract_lets (merge := false) (underBinder := false) +onlyGivenNames j6_0 s6
        have hs6 : Follows T s0 s6 := by
          unfold s6
          split
          · refine follows_loadLog (sub hT (by decide)) ?_
            assumption
          · refine upd_mem (hT _ (by decide)) rfl rfl ?_
            assumption
        clear_value s6
        refine upd_mem (hT _ (by decide)) rfl rfl ?_
        assumption
    clear_value s2
    refine ⟨_, rfl, ?_⟩
    refine follows_bump (sub hT (by decide)) ?_
    refine follows_aboveAll (sub hT (by decide)) ?_
    refine follows_mk ?_ rfl rfl rfl rfl rfl rfl rfl rfl rfl rfl rfl same same same same same same (.inl (hT _ (by decide))) same same same same same same same same same same same same same same same (.inl (hT _ (by decide))) same same same same
    assumption


theorem follows_execReplayedImageErase {T : Part → Bool} {s0 s : State} (hT : ∀ p ∈ ([.mem] : List Part), T p = true) (h : Follows T s0 s) : Answers (Follows T s0) (execReplayedImageErase s) := by
  unfold execReplayedImageErase
  split
  · refine ⟨_, rfl, ?_⟩
    refine upd_mem (hT _ (by decide)) rfl rfl ?_
    assumption
  · refine ⟨_, rfl, ?_⟩
    assumption


theorem follows_execVaultEraseDone {T : Part → Bool} {s0 s : State} {a0 : Dword} (hT : ∀ p ∈ ([.mem] : List Part), T p = true) (h : Follows T s0 s) : Answers (Follows T s0) (execVaultEraseDone a0 s) := by
  unfold execVaultEraseDone
  try extract_lets (merge := false) (underBinder := false) +onlyGivenNames log1
  try clear_value log1
  refine ⟨_, rfl, ?_⟩
  refine upd_mem (hT _ (by decide)) rfl rfl ?_
  assumption


theorem follows_execVaultGroupClose {T : Part → Bool} {s0 s : State} (hT : ∀ p ∈ ([.mem] : List Part), T p = true) (h : Follows T s0 s) : Answers (Follows T s0) (execVaultGroupClose s) := by
  unfold execVaultGroupClose
  split
  · split
    · refine ⟨_, rfl, ?_⟩
      refine upd_mem (hT _ (by decide)) rfl rfl ?_
      assumption
    · refine ⟨_, rfl, ?_⟩
      assumption
  · refine ⟨_, rfl, ?_⟩
    assumption


theorem follows_execVaultCommitDone {T : Part → Bool} {s0 s : State} (hT : ∀ p ∈ ([.cmd, .mem] : List Part), T p = true) (h : Follows T s0 s) : Answers (Follows T s0) (execVaultCommitDone s) := by
  unfold execVaultCommitDone
  split
  · refine ⟨_, rfl, ?_⟩
    assumption
  · try extract_lets (merge := false) (underBinder := false) +onlyGivenNames mark1
    try clear_value mark1
    try extract_lets (merge := false) (underBinder := false) +onlyGivenNames vs2
    try clear_value vs2
    try extract_lets (merge := false) (underBinder := false) +onlyGivenNames new3
    try clear_value new3
    refine ⟨_, rfl, ?_⟩
    refine follows_mk ?_ rfl rfl rfl rfl rfl rfl rfl rfl rfl rfl rfl same same same same same same same same same same same same same same same same same same same same same (.inl (hT _ (by decide))) (.inl (hT _ (by decide))) same same same same
    assumption


theorem follows_nextLine {T : Part → Bool} {s0 s : State} (hT : ∀ p ∈ ([.mem] : List Part), T p = true) (h : Follows T s0 s) : Follows T s0 (nextLine s) := by
  unfold nextLine
  split
  · refine upd_mem (hT _ (by decide)) rfl rfl ?_
    assumption
  · refine upd_mem (hT _ (by decide)) rfl rfl ?_
    assumption


theorem follows_execBurnisherLine {T : Part → Bool} {s0 s : State} {a0 : List (BitVec 39)} {a1 : Bool} {a2 : LineKind} {a3 : Bool} (hT : ∀ p ∈ ([.cnt, .out, .cal, .hiu, .cmd, .mem, .bdy] : List Part), T p = true) (h : Follows T s0 s) : Answers (Follows T s0) (execBurnisherLine a0 a1 a2 a3 s) := by
  unfold execBurnisherLine
  split
  · refine ⟨_, rfl, ?_⟩
    assumption
  · refine ⟨_, rfl, ?_⟩
    refine follows_nextLine (sub hT (by decide)) ?_
    split
    · refine follows_burnDram (sub hT (by decide)) ?_
      assumption
    · refine follows_burnCache (sub hT (by decide)) ?_
      assumption


theorem follows_writeInjCtl {T : Part → Bool} {s0 s : State} {a1 : Nat} (hT : ∀ p ∈ ([.regs, .mem] : List Part), T p = true) (h : Follows T s0 s) : Follows T s0 (writeInjCtl s a1) := by
  unfold writeInjCtl
  dsimp only
  split
  · exact h
  · exact upd_mem (hT _ (by decide)) rfl rfl (follows_setReg (sub hT (by decide)) (a1 := .memInjCtl) (a2 := 0) (a3 := a1 / 65536 % 65536 * 65536) h)


theorem follows_execFlipMaskArm {T : Part → Bool} {s0 s : State} {a0 : Word} (hT : ∀ p ∈ ([.regs, .mem] : List Part), T p = true) (h : Follows T s0 s) : Answers (Follows T s0) (execFlipMaskArm a0 s) := by
  unfold execFlipMaskArm
  split
  · refine ⟨_, rfl, ?_⟩
    assumption
  · refine ⟨_, rfl, ?_⟩
    refine follows_writeInjCtl (sub hT (by decide)) ?_
    assumption


theorem follows_writeMcLock {T : Part → Bool} {s0 s : State} {a1 : Nat} (hT : ∀ p ∈ ([.regs, .mem] : List Part), T p = true) (h : Follows T s0 s) : Follows T s0 (writeMcLock s a1) := by
  unfold writeMcLock
  dsimp only
  split
  · exact h
  · exact upd_mem (hT _ (by decide)) rfl rfl (follows_setReg (sub hT (by decide)) (a1 := .memMcLock) (a2 := 0) (a3 := a1) h)


theorem follows_execMapCacheLock {T : Part → Bool} {s0 s : State} {a0 : Word} (hT : ∀ p ∈ ([.regs, .mem] : List Part), T p = true) (h : Follows T s0 s) : Answers (Follows T s0) (execMapCacheLock a0 s) := by
  unfold execMapCacheLock
  split
  · refine ⟨_, rfl, ?_⟩
    assumption
  · refine ⟨_, rfl, ?_⟩
    refine follows_writeMcLock (sub hT (by decide)) ?_
    assumption


end Sys2Proof.Machine
end

