-- ==== Sys2Proof/Laws/FollowsPower.lean ====
section
/-! SUPPORT. What the operations of Machine/Power.lean keep: the queue, the canonical form of the sorted stores, the ingest sequence. -/

namespace Sys2Proof.Machine

theorem follows_applyLadder {T : Part → Bool} {s0 s : State} (hT : ∀ p ∈ ([.bays, .spn, .units] : List Part), T p = true) (h : Follows T s0 s) : Follows T s0 (applyLadder s) := by
  unfold applyLadder
  refine follows_foldl ?_ ?_
  · assumption
  · intro u7 a7 hu7
    try extract_lets (merge := false) (underBinder := false) +onlyGivenNames i1
    try clear_value i1
    try extract_lets (merge := false) (underBinder := false) +onlyGivenNames mine2
    try clear_value mine2
    try extract_lets (merge := false) (underBinder := false) +onlyGivenNames o3
    try clear_value o3
    try extract_lets (merge := false) (underBinder := false) +onlyGivenNames p4
    try clear_value p4
    try extract_lets (merge := false) (underBinder := false) +onlyGivenNames y5
    try clear_value y5
    extract_lets (merge := false) (underBinder := false) +onlyGivenNames t6
    have ht6 : Follows T s0 t6 := by
      unfold t6
      refine follows_setBay (sub hT (by decide)) ?_
      assumption
    clear_value t6
    split
    · refine follows_orderSpeed (sub hT (by decide)) ?_
      assumption
    · assumption


theorem follows_ladderStep {T : Part → Bool} {s0 s : State} {a1 : Nat} (hT : ∀ p ∈ ([.cnt, .pwr, .bdy] : List Part), T p = true) (h : Follows T s0 s) : Follows T s0 (ladderStep s a1) := by
  unfold ladderStep
  try extract_lets (merge := false) (underBinder := false) +onlyGivenNames cap1
  try clear_value cap1
  extract_lets (merge := false) (underBinder := false) +onlyGivenNames s2
  have hs2 : Follows T s0 s2 := by
    unfold s2
    split
    · refine follows_bump (sub hT (by decide)) ?_
      assumption
    · assumption
  clear_value s2
  try extract_lets (merge := false) (underBinder := false) +onlyGivenNames up3
  try clear_value up3
  try extract_lets (merge := false) (underBinder := false) +onlyGivenNames down4
  try clear_value down4
  extract_lets (merge := false) (underBinder := false) +onlyGivenNames j5_0 s5
  have hs5 : Follows T s0 s5 := by
    unfold s5
    refine upd_pwr (hT _ (by decide)) ?_
    assumption
  clear_value s5
  split
  · split
    · refine follows_bump (sub hT (by decide)) ?_
      refine upd_pwr (hT _ (by decide)) ?_
      assumption
    · split
      · assumption
      · refine follows_event (sub hT (by decide)) ?_
        refine upd_pwr (hT _ (by decide)) ?_
        assumption
  · split
    · refine upd_pwr (hT _ (by decide)) ?_
      assumption
    · assumption


theorem follows_moveCut {T : Part → Bool} {s0 s : State} {a1 : Int} (hT : ∀ p ∈ ([.pwr] : List Part), T p = true) (h : Follows T s0 s) : Follows T s0 (moveCut s a1) := by
  unfold moveCut
  try extract_lets (merge := false) (underBinder := false) +onlyGivenNames thr1
  try clear_value thr1
  try extract_lets (merge := false) (underBinder := false) +onlyGivenNames n2
  try clear_value n2
  split
  · split
    · refine upd_pwr (hT _ (by decide)) ?_
      assumption
    · refine upd_pwr (hT _ (by decide)) ?_
      assumption
  · split
    · split
      · refine upd_pwr (hT _ (by decide)) ?_
        assumption
      · refine upd_pwr (hT _ (by decide)) ?_
        assumption
    · refine upd_pwr (hT _ (by decide)) ?_
      assumption


theorem follows_thermalStep {T : Part → Bool} {s0 s : State} {a1 : Int} (hT : ∀ p ∈ ([.cnt, .pwr, .bdy] : List Part), T p = true) (h : Follows T s0 s) : Follows T s0 (thermalStep s a1) := by
  unfold thermalStep
  extract_lets (merge := false) (underBinder := false) +onlyGivenNames s1
  have hs1 : Follows T s0 s1 := by
    unfold s1
    refine follows_moveCut (sub hT (by decide)) ?_
    assumption
  clear_value s1
  try extract_lets (merge := false) (underBinder := false) +onlyGivenNames n2
  try clear_value n2
  extract_lets (merge := false) (underBinder := false) +onlyGivenNames s3
  have hs3 : Follows T s0 s3 := by
    unfold s3
    split
    · refine follows_countEvent (sub hT (by decide)) ?_
      assumption
    · assumption
  clear_value s3
  refine upd_pwr (hT _ (by decide)) ?_
  assumption


theorem follows_voltWarnings {T : Part → Bool} {s0 s : State} {a1 : List Nat} (hT : ∀ p ∈ ([.bdy] : List Part), T p = true) (h : Follows T s0 s) : Follows T s0 (voltWarnings s a1) := by
  unfold voltWarnings
  refine follows_foldl ?_ ?_
  · assumption
  · intro u3 a3 hu3
    try extract_lets (merge := false) (underBinder := false) +onlyGivenNames bad1
    try clear_value bad1
    try extract_lets (merge := false) (underBinder := false) +onlyGivenNames old2
    try clear_value old2
    split
    · refine follows_event (sub hT (by decide)) ?_
      refine upd_bdy (hT _ (by decide)) rfl rfl ?_
      assumption
    · split
      · refine upd_bdy (hT _ (by decide)) rfl rfl ?_
        assumption
      · assumption


theorem follows_execPowerWindow {T : Part → Bool} {s0 s : State} {a0 : Half} {a1 : List Int} {a2 : List Nat} {a3 : Int} {a4 : BitVec 2} (hT : ∀ p ∈ ([.cnt, .pwr, .bays, .spn, .out, .units, .hiu, .bdy] : List Part), T p = true) (h : Follows T s0 s) : Answers (Follows T s0) (execPowerWindow a0 a1 a2 a3 a4 s) := by
  unfold execPowerWindow
  try extract_lets (merge := false) (underBinder := false) +onlyGivenNames t1
  try clear_value t1
  extract_lets (merge := false) (underBinder := false) +onlyGivenNames before2
  have hbefore2 : Follows T s0 before2 := by
    unfold before2
    assumption
  clear_value before2
  extract_lets (merge := false) (underBinder := false) +onlyGivenNames j3_0 s3
  have hs3 : Follows T s0 s3 := by
    unfold s3
    refine upd_bdy (hT _ (by decide)) rfl rfl ?_
    assumption
  clear_value s3
  split
  · split
    · refine ⟨_, rfl, ?_⟩
      refine upd_pwr (hT _ (by decide)) ?_
      assumption
    · refine ⟨_, rfl, ?_⟩
      assumption
  · refine ⟨_, rfl, ?_⟩
    refine follows_withSmart (sub hT (by decide)) ?_
    refine follows_applyLadder (sub hT (by decide)) ?_
    refine follows_ladderStep (sub hT (by decide)) ?_
    refine follows_thermalStep (sub hT (by decide)) ?_
    refine follows_voltWarnings (sub hT (by decide)) ?_
    assumption
  · refine ⟨_, rfl, ?_⟩
    refine follows_withSmart (sub hT (by decide)) ?_
    refine follows_applyLadder (sub hT (by decide)) ?_
    refine follows_ladderStep (sub hT (by decide)) ?_
    refine follows_thermalStep (sub hT (by decide)) ?_
    refine follows_voltWarnings (sub hT (by decide)) ?_
    assumption
  · refine ⟨_, rfl, ?_⟩
    assumption


theorem follows_execThermalShutdown {T : Part → Bool} {s0 s : State} (hT : ∀ p ∈ ([.free, .regs, .splitLatch, .hostRead, .cnt, .tck, .pwr, .bays, .ports, .spn, .out, .cells, .units, .bus, .axes, .rdc, .wrc, .cal, .qre, .hiu, .cmd, .mem, .kst, .cph, .bdy, .bnd] : List Part), T p = true) (h : Follows T s0 s) : Answers (Follows T s0) (execThermalShutdown s) := by
  unfold execThermalShutdown
  split
  · refine ⟨_, rfl, ?_⟩
    assumption
  · extract_lets (merge := false) (underBinder := false) +onlyGivenNames j1_0 s1
    have hs1 : Follows T s0 s1 := by
      unfold s1
      refine follows_countEvent (sub hT (by decide)) ?_
      refine upd_pwr (hT _ (by decide)) ?_
      assumption
    clear_value s1
    split
    · refine ⟨_, rfl, ?_⟩
      assumption
    · split
      · refine ⟨_, rfl, ?_⟩
        extract_lets (merge := false) (underBinder := false) +onlyGivenNames w2
        have hw2 : Follows T s0 w2 := by
          unfold w2
          refine follows_warmed (sub hT (by decide)) ?_
          assumption
        clear_value w2
        refine upd_pwr (hT _ (by decide)) ?_
        assumption
      · refine ⟨_, rfl, ?_⟩
        refine follows_beginDump (sub hT (by decide)) ?_
        assumption


theorem follows_execThermalTrip {T : Part → Bool} {s0 s : State} (hT : ∀ p ∈ ([.free, .regs, .splitLatch, .hostRead, .cnt, .tck, .pwr, .bays, .ports, .spn, .out, .cells, .units, .bus, .axes, .rdc, .wrc, .cal, .qre, .hiu, .cmd, .mem, .kst, .cph, .bdy, .bnd] : List Part), T p = true) (h : Follows T s0 s) : Answers (Follows T s0) (execThermalTrip s) := by
  unfold execThermalTrip
  extract_lets (merge := false) (underBinder := false) +onlyGivenNames w1
  have hw1 : Follows T s0 w1 := by
    unfold w1
    refine follows_warmed (sub hT (by decide)) ?_
    assumption
  clear_value w1
  refine ⟨_, rfl, ?_⟩
  refine upd_pwr (hT _ (by decide)) ?_
  assumption


end Sys2Proof.Machine
end

