-- ==== Sys2Proof/Laws/FollowsKeys.lean ====
section
/-! SUPPORT. What the operations of Machine/Keys.lean keep: the queue, the canonical form of the sorted stores, the ingest sequence. -/

namespace Sys2Proof.Machine

theorem follows_armTransition {T : Part → Bool} {s0 s : State} {a1 : Bytes} {a2 : Nat} (hT : ∀ p ∈ ([.kst] : List Part), T p = true) (h : Follows T s0 s) : Follows T s0 (armTransition s a1 a2) := by
  unfold armTransition
  refine upd_kst (hT _ (by decide)) rfl ?_
  assumption


theorem follows_clearSlot {T : Part → Bool} {s0 s : State} {a1 : Nat} (hT : ∀ p ∈ ([.kst] : List Part), T p = true) (h : Follows T s0 s) : Follows T s0 (clearSlot s a1) := by
  unfold clearSlot
  split
  · refine upd_kst (hT _ (by decide)) rfl ?_
    assumption
  · extract_lets (merge := false) (underBinder := false) +onlyGivenNames j1_0 s1
    have hs1 : Follows T s0 s1 := by
      unfold s1
      refine upd_kst (hT _ (by decide)) rfl ?_
      assumption
    clear_value s1
    refine follows_setSlot (sub hT (by decide)) ?_
    assumption


theorem follows_sendKcv {T : Part → Bool} {s0 s : State} {a1 : Nat} (hT : ∀ p ∈ ([.out] : List Part), T p = true) (h : Follows T s0 s) : Follows T s0 (sendKcv s a1) := by
  unfold sendKcv
  refine follows_send (sub hT (by decide)) ?_
  assumption


theorem follows_drawNonce {T : Part → Bool} {s0 s : State} (hT : ∀ p ∈ ([.free, .hostRead, .kst] : List Part), T p = true) (h : Follows T s0 s) : Follows T s0 (drawNonce s) := by
  exact follows_mk (follows_drawn (sub hT (by decide)) h) rfl rfl rfl rfl rfl rfl rfl rfl rfl rfl rfl same same same (.inl (hT _ (by decide))) same same same same same same same same same same same same same same same same same same same (.inl (hT _ (by decide))) same same same


theorem follows_respond {T : Part → Bool} {s0 s : State} {a1 : Nat} {a2 : Word} {a3 : Nat} (hT : ∀ p ∈ ([.bdy] : List Part), T p = true) (h : Follows T s0 s) : Follows T s0 (respond s a1 a2 a3) := by
  refine follows_stores h rfl ?_ rfl rfl (frame_one (hT _ (by decide)) same_bdy)
  rintro ⟨h1, h2, h3, h4, h5, h6⟩
  exact ⟨h1, h2, h3, h4, wfT_winWrite rfl, h6⟩


theorem follows_takeMail {T : Part → Bool} {s0 s : State} {a1 : Bytes} (hT : ∀ p ∈ ([.cnt, .bdy] : List Part), T p = true) (h : Follows T s0 s) : Follows T s0 (takeMail s a1) := by
  unfold takeMail
  try extract_lets (merge := false) (underBinder := false) +onlyGivenNames p1
  try clear_value p1
  extract_lets (merge := false) (underBinder := false) +onlyGivenNames j2_0 s2
  have hs2 : Follows T s0 s2 := by
    unfold s2
    refine follows_bump (sub hT (by decide)) ?_
    refine upd_bdy (hT _ (by decide)) rfl rfl ?_
    assumption
  clear_value s2
  split
  · refine follows_respond (sub hT (by decide)) ?_
    assumption
  · split
    · refine follows_respond (sub hT (by decide)) ?_
      assumption
    · refine upd_bdy (hT _ (by decide)) rfl rfl ?_
      assumption


theorem follows_execMailboxPost {T : Part → Bool} {s0 s : State} {a0 : CmdRef} {a1 : Bytes} (hT : ∀ p ∈ ([.cnt, .out, .hiu, .bdy] : List Part), T p = true) (h : Follows T s0 s) : Answers (Follows T s0) (execMailboxPost a0 a1 s) := by
  unfold execMailboxPost
  split
  · refine ⟨_, rfl, ?_⟩
    refine follows_complete (sub hT (by decide)) ?_
    assumption
  · split
    · refine ⟨_, rfl, ?_⟩
      refine follows_complete (sub hT (by decide)) ?_
      refine follows_bump (sub hT (by decide)) ?_
      assumption
    · extract_lets (merge := false) (underBinder := false) +onlyGivenNames t1
      have ht1 : Follows T s0 t1 := by
        unfold t1
        refine follows_takeMail (sub hT (by decide)) ?_
        assumption
      clear_value t1
      split
      · refine ⟨_, rfl, ?_⟩
        refine follows_complete (sub hT (by decide)) ?_
        refine follows_respond (sub hT (by decide)) ?_
        assumption
      · split
        · refine ⟨_, rfl, ?_⟩
          refine follows_complete (sub hT (by decide)) ?_
          refine follows_respond (sub hT (by decide)) ?_
          assumption
        · refine ⟨_, rfl, ?_⟩
          refine follows_complete (sub hT (by decide)) ?_
          assumption


theorem follows_execMailboxFetch {T : Part → Bool} {s0 s : State} {a0 : CmdRef} {a1 : Half} (hT : ∀ p ∈ ([.free, .out, .hiu, .bdy] : List Part), T p = true) (h : Follows T s0 s) : Answers (Follows T s0) (execMailboxFetch a0 a1 s) := by
  unfold execMailboxFetch
  split
  · refine ⟨_, rfl, ?_⟩
    refine follows_complete (sub hT (by decide)) ?_
    assumption
  · split
    · extract_lets (merge := false) (underBinder := false) +onlyGivenNames s1
      have hs1 : Follows T s0 s1 := by
        unfold s1
        refine follows_complete (sub hT (by decide)) ?_
        assumption
      clear_value s1
      refine ⟨_, rfl, ?_⟩
      refine upd_bdy (hT _ (by decide)) rfl rfl ?_
      assumption
    · split
      · refine ⟨_, rfl, ?_⟩
        refine follows_complete (sub hT (by decide)) ?_
        assumption
      · refine ⟨_, rfl, ?_⟩
        refine follows_complete (sub hT (by decide)) ?_
        refine follows_drawn (sub hT (by decide)) ?_
        assumption


theorem follows_transit {T : Part → Bool} {s0 s : State} {a1 : Nat} (hT : ∀ p ∈ ([.free, .regs, .splitLatch, .hostRead, .cnt, .tck, .pwr, .bays, .ports, .spn, .out, .cells, .units, .bus, .axes, .rdc, .wrc, .cal, .qre, .hiu, .cmd, .mem, .kst, .cph, .bdy, .bnd] : List Part), T p = true) (h : Follows T s0 s) : Follows T s0 (transit s a1) := by
  have hu : Follows T s0 (writePages (event (bump s 12 3) (0x400 + a1) 12 0)) := follows_writePages (sub hT (by decide)) (follows_event (sub hT (by decide)) (follows_bump (sub hT (by decide)) h))
  have hp : ∀ (l : List Nat) (v : State), (l.foldl (fun s _ => writePage s) v).mem = v.mem := by
    intro l
    induction l with
    | nil => exact fun _ => rfl
    | cons x l ih =>
      intro v
      refine (ih _).trans ?_
      dsimp only [writePage]
      split <;> rfl
  have he : (writePages (event (bump s 12 3) (0x400 + a1) 12 0)).mem = s.mem := (hp _ _).trans rfl
  unfold transit
  dsimp only
  rw [he]
  generalize writePages (event (bump s 12 3) (0x400 + a1) 12 0) = u at hu he
  refine ⟨hu.queue, ?_, ?_, ?_, ?_⟩
  · intro hc
    obtain ⟨h1, h2, -⟩ := hu.canonical hc
    exact ⟨sortedT_filter h1, wfT_filter h2, rfl, rfl, rfl, rfl, rfl⟩
  · intro _
    exact ⟨Nat.le_refl _, Nat.le_refl _⟩
  · intro hr
    refine .inl ?_
    rcases h.rising hr with hh | ⟨hh, -⟩
    · exact Nat.lt_succ_of_lt hh
    · exact hh ▸ Nat.lt_succ_self _
  · intro p hp
    have hq : p = .bfes := by
      have hc := outside_of hT hp
      revert hc
      cases p <;> decide
    subst hq
    exact hu.frame _ hp


theorem follows_execKcvMatch {T : Part → Bool} {s0 s : State} {a0 : Fin 2048} {a1 : Word} (hT : ∀ p ∈ ([.out, .kst] : List Part), T p = true) (h : Follows T s0 s) : Answers (Follows T s0) (execKcvMatch a0 a1 s) := by
  unfold execKcvMatch
  try extract_lets (merge := false) (underBinder := false) +onlyGivenNames k1
  try clear_value k1
  split
  · refine ⟨_, rfl, ?_⟩
    refine follows_sendKcv (sub hT (by decide)) ?_
    refine follows_setSlot (sub hT (by decide)) ?_
    assumption
  · refine ⟨_, rfl, ?_⟩
    assumption


theorem follows_importKey {T : Part → Bool} {s0 s : State} (hT : ∀ p ∈ ([.cnt, .out, .kst, .bdy] : List Part), T p = true) (h : Follows T s0 s) : Follows T s0 (importKey s) := by
  unfold importKey
  dsimp only
  split
  · exact follows_countEvent (sub hT (by decide)) (follows_window (hT _ (by decide)) h rfl)
  · exact follows_sendKcv (sub hT (by decide)) (follows_bump (sub hT (by decide)) (follows_setSlot (sub hT (by decide)) (follows_window (hT _ (by decide)) h rfl)))


theorem follows_execKeyImport {T : Part → Bool} {s0 s : State} (hT : ∀ p ∈ ([.cnt, .out, .kst, .bdy] : List Part), T p = true) (h : Follows T s0 s) : Answers (Follows T s0) (execKeyImport s) := by
  unfold execKeyImport
  split
  · refine ⟨_, rfl, ?_⟩
    assumption
  · refine ⟨_, rfl, ?_⟩
    refine follows_importKey (sub hT (by decide)) ?_
    assumption


theorem follows_execKeySlotClear {T : Part → Bool} {s0 s : State} {a0 : Fin 2048} (hT : ∀ p ∈ ([.kst] : List Part), T p = true) (h : Follows T s0 s) : Answers (Follows T s0) (execKeySlotClear a0 s) := by
  unfold execKeySlotClear
  split
  · refine ⟨_, rfl, ?_⟩
    assumption
  · refine ⟨_, rfl, ?_⟩
    refine follows_clearSlot (sub hT (by decide)) ?_
    assumption


theorem follows_execLcNonceRead {T : Part → Bool} {s0 s : State} (hT : ∀ p ∈ ([.free, .splitLatch, .hostRead, .kst] : List Part), T p = true) (h : Follows T s0 s) : Answers (Follows T s0) (execLcNonceRead s) := by
  unfold execLcNonceRead
  refine ⟨_, rfl, ?_⟩
  refine follows_drawNonce (sub hT (by decide)) ?_
  refine upd_splitLatch (hT _ (by decide)) ?_
  assumption


theorem follows_execLifecycleTransition {T : Part → Bool} {s0 s : State} {a0 : Word} {a1 : Bytes} (hT : ∀ p ∈ ([.out, .kst, .bdy] : List Part), T p = true) (h : Follows T s0 s) : Answers (Follows T s0) (execLifecycleTransition a0 a1 s) := by
  unfold execLifecycleTransition
  split
  · refine ⟨_, rfl, ?_⟩
    assumption
  · try extract_lets (merge := false) (underBinder := false) +onlyGivenNames st1
    try clear_value st1
    split
    · refine ⟨_, rfl, ?_⟩
      refine follows_respond (sub hT (by decide)) ?_
      assumption
    · try extract_lets (merge := false) (underBinder := false) +onlyGivenNames k2
      try clear_value k2
      refine ⟨_, rfl, ?_⟩
      refine follows_respond (sub hT (by decide)) ?_
      refine follows_send (sub hT (by decide)) ?_
      refine follows_armTransition (sub hT (by decide)) ?_
      assumption


theorem follows_execLifecycleCommit {T : Part → Bool} {s0 s : State} (hT : ∀ p ∈ ([.free, .regs, .splitLatch, .hostRead, .cnt, .tck, .pwr, .bays, .ports, .spn, .out, .cells, .units, .bus, .axes, .rdc, .wrc, .cal, .qre, .hiu, .cmd, .mem, .kst, .cph, .bdy, .bnd] : List Part), T p = true) (h : Follows T s0 s) : Answers (Follows T s0) (execLifecycleCommit s) := by
  unfold execLifecycleCommit
  split
  · refine ⟨_, rfl, ?_⟩
    assumption
  · split
    · refine ⟨_, rfl, ?_⟩
      refine follows_transit (sub hT (by decide)) ?_
      assumption
    · refine ⟨_, rfl, ?_⟩
      assumption


theorem follows_execMailboxKeyImport {T : Part → Bool} {s0 s : State} {a0 : Word} {a1 : Bytes} (hT : ∀ p ∈ ([.cnt, .out, .kst, .bdy] : List Part), T p = true) (h : Follows T s0 s) : Answers (Follows T s0) (execMailboxKeyImport a0 a1 s) := by
  unfold execMailboxKeyImport
  dsimp only
  split
  · exact ⟨_, rfl, h⟩
  · split
    · exact ⟨_, rfl, follows_respond (sub hT (by decide)) h⟩
    · exact ⟨_, rfl, follows_respond (sub hT (by decide)) (follows_importKey (sub hT (by decide)) (follows_window (hT _ (by decide)) h (wfT_winWrite rfl)))⟩


theorem follows_execLowerVotedLimit {T : Part → Bool} {s0 s : State} {a0 : Word} {a1 : Byte} {a2 : Byte} (hT : ∀ p ∈ ([.kst, .bdy] : List Part), T p = true) (h : Follows T s0 s) : Answers (Follows T s0) (execLowerVotedLimit a0 a1 a2 s) := by
  unfold execLowerVotedLimit
  split
  · refine ⟨_, rfl, ?_⟩
    assumption
  · split
    · refine ⟨_, rfl, ?_⟩
      refine follows_respond (sub hT (by decide)) ?_
      assumption
    · split
      · refine ⟨_, rfl, ?_⟩
        refine follows_respond (sub hT (by decide)) ?_
        assumption
      · split
        · extract_lets (merge := false) (underBinder := false) +onlyGivenNames j1_0 s1
          have hs1 : Follows T s0 s1 := by
            unfold s1
            refine upd_kst (hT _ (by decide)) rfl ?_
            assumption
          clear_value s1
          refine ⟨_, rfl, ?_⟩
          refine follows_respond (sub hT (by decide)) ?_
          assumption
        · extract_lets (merge := false) (underBinder := false) +onlyGivenNames j2_0 s2
          have hs2 : Follows T s0 s2 := by
            unfold s2
            refine upd_kst (hT _ (by decide)) rfl ?_
            assumption
          clear_value s2
          refine ⟨_, rfl, ?_⟩
          refine follows_respond (sub hT (by decide)) ?_
          assumption


theorem follows_execNewWriteSlot {T : Part → Bool} {s0 s : State} {a0 : Word} {a1 : Word} {a2 : Half} (hT : ∀ p ∈ ([.hiu, .kst, .bdy] : List Part), T p = true) (h : Follows T s0 s) : Answers (Follows T s0) (execNewWriteSlot a0 a1 a2 s) := by
  unfold execNewWriteSlot
  split
  · refine ⟨_, rfl, ?_⟩
    assumption
  · split
    · refine ⟨_, rfl, ?_⟩
      refine follows_respond (sub hT (by decide)) ?_
      assumption
    · split
      · refine ⟨_, rfl, ?_⟩
        refine follows_respond (sub hT (by decide)) ?_
        assumption
      · split
        · refine ⟨_, rfl, ?_⟩
          refine follows_respond (sub hT (by decide)) ?_
          assumption
        · extract_lets (merge := false) (underBinder := false) +onlyGivenNames j1_0 s1
          have hs1 : Follows T s0 s1 := by
            unfold s1
            refine follows_setSlot (sub hT (by decide)) ?_
            assumption
          clear_value s1
          extract_lets (merge := false) (underBinder := false) +onlyGivenNames j2_0 s2
          have hs2 : Follows T s0 s2 := by
            unfold s2
            refine follows_setSlot (sub hT (by decide)) ?_
            assumption
          clear_value s2
          extract_lets (merge := false) (underBinder := false) +onlyGivenNames j3_0 s3
          have hs3 : Follows T s0 s3 := by
            unfold s3
            refine upd_hiu (hT _ (by decide)) ?_
            assumption
          clear_value s3
          refine ⟨_, rfl, ?_⟩
          refine follows_respond (sub hT (by decide)) ?_
          assumption


theorem follows_postMail {T : Part → Bool} {s0 s : State} {a1 : Bytes} (hT : ∀ p ∈ ([.cnt, .bdy] : List Part), T p = true) (h : Follows T s0 s) : Follows T s0 (postMail s a1) := by
  unfold postMail
  split
  · refine follows_bump (sub hT (by decide)) ?_
    refine upd_bdy (hT _ (by decide)) rfl rfl ?_
    assumption
  · refine follows_takeMail (sub hT (by decide)) ?_
    assumption


theorem follows_execMailboxResponseRead {T : Part → Bool} {s0 s : State} (hT : ∀ p ∈ ([.splitLatch, .hostRead, .bdy] : List Part), T p = true) (h : Follows T s0 s) : Answers (Follows T s0) (execMailboxResponseRead s) := by
  unfold execMailboxResponseRead
  refine ⟨_, rfl, ?_⟩
  refine follows_mk ?_ rfl rfl rfl rfl rfl rfl rfl rfl rfl rfl rfl same same (.inl (hT _ (by decide))) (.inl (hT _ (by decide))) same same same same same same same same same same same same same same same same same same same same same (.inl (hT _ (by decide))) same
  assumption


theorem follows_setVoted {T : Part → Bool} {s0 s : State} {a1 : Nat} {a2 : Voted} (hT : ∀ p ∈ ([.kst] : List Part), T p = true) (h : Follows T s0 s) : Follows T s0 (setVoted s a1 a2) := by
  unfold setVoted
  split
  · refine upd_kst (hT _ (by decide)) rfl ?_
    assumption
  · refine upd_kst (hT _ (by decide)) rfl ?_
    assumption
  · refine upd_kst (hT _ (by decide)) rfl ?_
    assumption
  · refine upd_kst (hT _ (by decide)) rfl ?_
    assumption
  · refine upd_kst (hT _ (by decide)) rfl ?_
    assumption


theorem follows_execVotedWordMismatch {T : Part → Bool} {s0 s : State} {a0 : Fin 5} {a1 : Nat} {a2 : Nat} {a3 : Nat} (hT : ∀ p ∈ ([.free, .cnt, .bays, .ports, .spn, .out, .cells, .units, .axes, .rdc, .wrc, .cal, .qre, .hiu, .kst, .cph, .bdy] : List Part), T p = true) (h : Follows T s0 s) : Answers (Follows T s0) (execVotedWordMismatch a0 a1 a2 a3 s) := by
  unfold execVotedWordMismatch
  split
  · refine ⟨_, rfl, ?_⟩
    assumption
  · split
    · try extract_lets (merge := false) (underBinder := false) +onlyGivenNames m1
      try clear_value m1
      refine ⟨_, rfl, ?_⟩
      refine follows_countEvent (sub hT (by decide)) ?_
      refine follows_setVoted (sub hT (by decide)) ?_
      assumption
    · extract_lets (merge := false) (underBinder := false) +onlyGivenNames s2
      have hs2 : Follows T s0 s2 := by
        unfold s2
        refine follows_event (sub hT (by decide)) ?_
        refine follows_setVoted (sub hT (by decide)) ?_
        assumption
      clear_value s2
      extract_lets (merge := false) (underBinder := false) +onlyGivenNames j3_0 s3
      have hs3 : Follows T s0 s3 := by
        unfold s3
        refine upd_kst (hT _ (by decide)) rfl ?_
        assumption
      clear_value s3
      extract_lets (merge := false) (underBinder := false) +onlyGivenNames s4
      have hs4 : Follows T s0 s4 := by
        unfold s4
        refine follows_foldl ?_ ?_
        · assumption
        · intro u5 a5 hu5
          split
          · refine follows_stopBay (sub hT (by decide)) ?_
            assumption
          · assumption
      clear_value s4
      refine ⟨_, rfl, ?_⟩
      refine follows_foldl ?_ ?_
      · assumption
      · intro u6 a6 hu6
        refine follows_setCtrl (sub hT (by decide)) ?_
        assumption


theorem follows_execDrbgReseed {T : Part → Bool} {s0 s : State} (hT : ∀ p ∈ ([.cnt, .cph] : List Part), T p = true) (h : Follows T s0 s) : Answers (Follows T s0) (execDrbgReseed s) := by
  unfold execDrbgReseed
  split
  · refine ⟨_, rfl, ?_⟩
    assumption
  · refine ⟨_, rfl, ?_⟩
    refine follows_bump (sub hT (by decide)) ?_
    refine upd_cph (hT _ (by decide)) rfl rfl rfl ?_
    assumption


theorem follows_execEntropyHealthFail {T : Part → Bool} {s0 s : State} (hT : ∀ p ∈ ([.cnt, .cph, .bdy] : List Part), T p = true) (h : Follows T s0 s) : Answers (Follows T s0) (execEntropyHealthFail s) := by
  unfold execEntropyHealthFail
  split
  · refine ⟨_, rfl, ?_⟩
    assumption
  · extract_lets (merge := false) (underBinder := false) +onlyGivenNames j1_0 s1
    have hs1 : Follows T s0 s1 := by
      unfold s1
      refine follows_countEvent (sub hT (by decide)) ?_
      refine upd_cph (hT _ (by decide)) rfl rfl rfl ?_
      assumption
    clear_value s1
    refine ⟨_, rfl, ?_⟩
    split
    · refine follows_event (sub hT (by decide)) ?_
      assumption
    · assumption


theorem follows_execEntropyRecover {T : Part → Bool} {s0 s : State} (hT : ∀ p ∈ ([.cph] : List Part), T p = true) (h : Follows T s0 s) : Answers (Follows T s0) (execEntropyRecover s) := by
  unfold execEntropyRecover
  split
  · refine ⟨_, rfl, ?_⟩
    refine upd_cph (hT _ (by decide)) rfl rfl rfl ?_
    assumption
  · refine ⟨_, rfl, ?_⟩
    assumption


end Sys2Proof.Machine
end

