-- ==== Sys2Proof/Laws/FollowsBindery.lean ====
section
/-! SUPPORT. What the operations of Machine/Bindery.lean keep: the queue, the canonical form of the sorted stores, the ingest sequence. -/

namespace Sys2Proof.Machine

theorem follows_answer {T : Part → Bool} {s0 s : State} {a1 : Nat} {a2 : Bytes} (hT : ∀ p ∈ ([.bdy] : List Part), T p = true) (h : Follows T s0 s) : Follows T s0 (answer s a1 a2) := by
  unfold answer
  split
  · refine upd_bdy (hT _ (by decide)) rfl rfl ?_
    assumption
  · assumption


theorem follows_pauseFetch {T : Part → Bool} {s0 s : State} {a1 : Nat} (hT : ∀ p ∈ ([.pwr, .cmd, .bdy] : List Part), T p = true) (h : Follows T s0 s) : Follows T s0 (pauseFetch s a1) := by
  unfold pauseFetch
  refine follows_mk ?_ rfl rfl rfl rfl rfl rfl rfl rfl rfl rfl rfl same same same same same same (.inl (hT _ (by decide))) same same same same same same same same same same same same same same (.inl (hT _ (by decide))) same same same (.inl (hT _ (by decide))) same
  assumption


theorem follows_writeSlot {T : Part → Bool} {s0 s : State} {a1 : FwImage} {a2 : Nat} (hT : ∀ p ∈ ([.bdy] : List Part), T p = true) (h : Follows T s0 s) : Follows T s0 (writeSlot s a1 a2) := by
  unfold writeSlot
  dsimp only
  split
  · exact upd_bdy (hT _ (by decide)) rfl rfl h
  · exact upd_bdy (hT _ (by decide)) rfl rfl h


theorem follows_beginActivation {T : Part → Bool} {s0 s : State} {a1 : Nat} (hT : ∀ p ∈ ([.pwr, .cmd, .bdy] : List Part), T p = true) (h : Follows T s0 s) : Follows T s0 (beginActivation s a1) := by
  unfold beginActivation
  refine follows_pauseFetch (sub hT (by decide)) ?_
  split
  · refine follows_writeSlot (sub hT (by decide)) ?_
    assumption
  · assumption


theorem follows_stageChunk {T : Part → Bool} {s0 s : State} {a1 : Bool} {a2 : Nat} {a3 : Bytes} (hT : ∀ p ∈ ([.bdy] : List Part), T p = true) (h : Follows T s0 s) : Follows T s0 (stageChunk s a1 a2 a3) := by
  unfold stageChunk
  refine upd_bdy (hT _ (by decide)) rfl rfl ?_
  assumption


theorem follows_execFirmwareImageDownload {T : Part → Bool} {s0 s : State} {a0 : CmdRef} {a1 : Word} {a2 : Bytes} (hT : ∀ p ∈ ([.out, .hiu, .bdy] : List Part), T p = true) (h : Follows T s0 s) : Answers (Follows T s0) (execFirmwareImageDownload a0 a1 a2 s) := by
  unfold execFirmwareImageDownload
  split
  · refine ⟨_, rfl, ?_⟩
    refine follows_complete (sub hT (by decide)) ?_
    assumption
  · split
    · refine ⟨_, rfl, ?_⟩
      refine follows_complete (sub hT (by decide)) ?_
      assumption
    · split
      · refine ⟨_, rfl, ?_⟩
        refine follows_complete (sub hT (by decide)) ?_
        assumption
      · refine ⟨_, rfl, ?_⟩
        refine follows_complete (sub hT (by decide)) ?_
        refine follows_stageChunk (sub hT (by decide)) ?_
        assumption


theorem follows_execFwCommitReplace {T : Part → Bool} {s0 s : State} {a0 : CmdRef} {a1 : BitVec 3} (hT : ∀ p ∈ ([.out, .hiu, .bdy] : List Part), T p = true) (h : Follows T s0 s) : Answers (Follows T s0) (execFwCommitReplace a0 a1 s) := by
  unfold execFwCommitReplace
  split
  · refine ⟨_, rfl, ?_⟩
    refine follows_complete (sub hT (by decide)) ?_
    assumption
  · refine ⟨_, rfl, ?_⟩
    refine follows_complete (sub hT (by decide)) ?_
    refine follows_writeSlot (sub hT (by decide)) ?_
    assumption


theorem follows_makePending {T : Part → Bool} {s0 s : State} {a1 : Nat} (hT : ∀ p ∈ ([.bdy] : List Part), T p = true) (h : Follows T s0 s) : Follows T s0 (makePending s a1) := by
  unfold makePending
  refine follows_fileDirectory (sub hT (by decide)) ?_
  refine upd_bdy (hT _ (by decide)) rfl rfl ?_
  assumption


theorem follows_execFwCommitReplacePending {T : Part → Bool} {s0 s : State} {a0 : CmdRef} {a1 : BitVec 3} (hT : ∀ p ∈ ([.out, .hiu, .bdy] : List Part), T p = true) (h : Follows T s0 s) : Answers (Follows T s0) (execFwCommitReplacePending a0 a1 s) := by
  unfold execFwCommitReplacePending
  split
  · refine ⟨_, rfl, ?_⟩
    refine follows_complete (sub hT (by decide)) ?_
    assumption
  · refine ⟨_, rfl, ?_⟩
    refine follows_complete (sub hT (by decide)) ?_
    refine follows_makePending (sub hT (by decide)) ?_
    refine follows_writeSlot (sub hT (by decide)) ?_
    assumption


theorem follows_execFwCommitPending {T : Part → Bool} {s0 s : State} {a0 : CmdRef} {a1 : BitVec 3} (hT : ∀ p ∈ ([.out, .hiu, .bdy] : List Part), T p = true) (h : Follows T s0 s) : Answers (Follows T s0) (execFwCommitPending a0 a1 s) := by
  unfold execFwCommitPending
  split
  · refine ⟨_, rfl, ?_⟩
    refine follows_complete (sub hT (by decide)) ?_
    assumption
  · split
    · refine ⟨_, rfl, ?_⟩
      refine follows_complete (sub hT (by decide)) ?_
      assumption
    · split
      · refine ⟨_, rfl, ?_⟩
        refine follows_complete (sub hT (by decide)) ?_
        assumption
      · split
        · refine ⟨_, rfl, ?_⟩
          refine follows_complete (sub hT (by decide)) ?_
          assumption
        · refine ⟨_, rfl, ?_⟩
          refine follows_complete (sub hT (by decide)) ?_
          refine follows_makePending (sub hT (by decide)) ?_
          assumption


theorem follows_execFwCommitActivate {T : Part → Bool} {s0 s : State} {a0 : CmdRef} {a1 : BitVec 3} (hT : ∀ p ∈ ([.pwr, .out, .hiu, .cmd, .bdy] : List Part), T p = true) (h : Follows T s0 s) : Answers (Follows T s0) (execFwCommitActivate a0 a1 s) := by
  unfold execFwCommitActivate
  split
  · refine ⟨_, rfl, ?_⟩
    refine follows_complete (sub hT (by decide)) ?_
    assumption
  · refine ⟨_, rfl, ?_⟩
    refine follows_complete (sub hT (by decide)) ?_
    refine follows_beginActivation (sub hT (by decide)) ?_
    assumption


theorem follows_execFetchPauseHandoff {T : Part → Bool} {s0 s : State} (hT : ∀ p ∈ ([.cnt, .bdy] : List Part), T p = true) (h : Follows T s0 s) : Answers (Follows T s0) (execFetchPauseHandoff s) := by
  unfold execFetchPauseHandoff
  try extract_lets (merge := false) (underBinder := false) +onlyGivenNames k1
  try clear_value k1
  split
  · refine ⟨_, rfl, ?_⟩
    assumption
  · refine ⟨_, rfl, ?_⟩
    refine follows_writeColophon (sub hT (by decide)) ?_
    refine upd_bdy (hT _ (by decide)) rfl rfl ?_
    assumption


theorem follows_execActivationTimeout {T : Part → Bool} {s0 s : State} (hT : ∀ p ∈ ([.free, .regs, .splitLatch, .hostRead, .cnt, .tck, .pwr, .bays, .ports, .spn, .out, .cells, .units, .bus, .axes, .rdc, .wrc, .cal, .qre, .hiu, .cmd, .mem, .kst, .cph, .bdy, .bnd] : List Part), T p = true) (h : Follows T s0 s) : Answers (Follows T s0) (execActivationTimeout s) := by
  unfold execActivationTimeout
  try extract_lets (merge := false) (underBinder := false) +onlyGivenNames k1
  try clear_value k1
  split
  · refine ⟨_, rfl, ?_⟩
    assumption
  · extract_lets (merge := false) (underBinder := false) +onlyGivenNames w2
    have hw2 : Follows T s0 w2 := by
      unfold w2
      refine follows_warmed (sub hT (by decide)) ?_
      assumption
    clear_value w2
    refine ⟨_, rfl, ?_⟩
    refine follows_countEvent (sub hT (by decide)) ?_
    refine follows_fileDirectory (sub hT (by decide)) ?_
    refine upd_bdy (hT _ (by decide)) rfl rfl ?_
    assumption


theorem follows_execColophonRead {T : Part → Bool} {s0 s : State} {a0 : CmdRef} {a1 : Word} {a2 : Word} (hT : ∀ p ∈ ([.out, .hiu] : List Part), T p = true) (h : Follows T s0 s) : Answers (Follows T s0) (execColophonRead a0 a1 a2 s) := by
  unfold execColophonRead
  try extract_lets (merge := false) (underBinder := false) +onlyGivenNames held1
  try clear_value held1
  refine ⟨_, rfl, ?_⟩
  refine follows_complete (sub hT (by decide)) ?_
  assumption


theorem follows_writeSheet {T : Part → Bool} {s0 s : State} {a1 : Bytes} (hT : ∀ p ∈ ([.cnt, .bdy] : List Part), T p = true) (h : Follows T s0 s) : Follows T s0 (writeSheet s a1) := by
  unfold writeSheet
  try extract_lets (merge := false) (underBinder := false) +onlyGivenNames k1
  try clear_value k1
  refine follows_writeColophon (sub hT (by decide)) ?_
  refine follows_fileDirectory (sub hT (by decide)) ?_
  refine upd_bdy (hT _ (by decide)) rfl rfl ?_
  assumption


theorem follows_execEndsheetOwnerSection {T : Part → Bool} {s0 s : State} {a0 : Word} {a1 : Word} {a2 : Bool} {a3 : Bytes} (hT : ∀ p ∈ ([.cnt, .bdy] : List Part), T p = true) (h : Follows T s0 s) : Answers (Follows T s0) (execEndsheetOwnerSection a0 a1 a2 a3 s) := by
  unfold execEndsheetOwnerSection
  split
  · refine ⟨_, rfl, ?_⟩
    assumption
  · split
    · refine ⟨_, rfl, ?_⟩
      refine follows_respond (sub hT (by decide)) ?_
      assumption
    · split
      · refine ⟨_, rfl, ?_⟩
        refine follows_respond (sub hT (by decide)) ?_
        assumption
      · try extract_lets (merge := false) (underBinder := false) +onlyGivenNames rx1
        try clear_value rx1
        split
        · refine ⟨_, rfl, ?_⟩
          refine follows_respond (sub hT (by decide)) ?_
          refine upd_bdy (hT _ (by decide)) rfl rfl ?_
          assumption
        · try extract_lets (merge := false) (underBinder := false) +onlyGivenNames st2
          try clear_value st2
          refine ⟨_, rfl, ?_⟩
          refine follows_respond (sub hT (by decide)) ?_
          split
          · refine follows_writeSheet (sub hT (by decide)) ?_
            assumption
          · refine upd_bdy (hT _ (by decide)) rfl rfl ?_
            assumption


theorem follows_execLockstepMismatch {T : Part → Bool} {s0 s : State} (hT : ∀ p ∈ ([.tck, .spn, .bdy] : List Part), T p = true) (h : Follows T s0 s) : Answers (Follows T s0) (execLockstepMismatch s) := by
  unfold execLockstepMismatch
  split
  · refine ⟨_, rfl, ?_⟩
    assumption
  · refine ⟨_, rfl, ?_⟩
    refine follows_mk ?_ rfl rfl rfl rfl rfl rfl rfl rfl rfl rfl rfl same same same same same (.inl (hT _ (by decide))) same same same same (.inl (hT _ (by decide))) same same same same same same same same same same same same same same (.inl (hT _ (by decide))) same
    assumption


theorem follows_execBayRelease {T : Part → Bool} {s0 s : State} (hT : ∀ p ∈ ([.cnt, .bdy] : List Part), T p = true) (h : Follows T s0 s) : Answers (Follows T s0) (execBayRelease s) := by
  unfold execBayRelease
  split
  · refine ⟨_, rfl, ?_⟩
    assumption
  · refine ⟨_, rfl, ?_⟩
    refine follows_countEvent (sub hT (by decide)) ?_
    refine upd_bdy (hT _ (by decide)) rfl rfl ?_
    assumption


theorem follows_execBayReleaseEnd {T : Part → Bool} {s0 s : State} (hT : ∀ p ∈ ([.spn, .bdy] : List Part), T p = true) (h : Follows T s0 s) : Answers (Follows T s0) (execBayReleaseEnd s) := by
  unfold execBayReleaseEnd
  split
  · refine ⟨_, rfl, ?_⟩
    assumption
  · extract_lets (merge := false) (underBinder := false) +onlyGivenNames j1_0 s1
    have hs1 : Follows T s0 s1 := by
      unfold s1
      refine upd_bdy (hT _ (by decide)) rfl rfl ?_
      assumption
    clear_value s1
    refine ⟨_, rfl, ?_⟩
    refine follows_foldl ?_ ?_
    · assumption
    · intro u2 a2 hu2
      split
      · refine follows_withhold (sub hT (by decide)) ?_
        assumption
      · assumption


theorem follows_execMctpSetEndpointId {T : Part → Bool} {s0 s : State} {a0 : Byte} (hT : ∀ p ∈ ([.bdy] : List Part), T p = true) (h : Follows T s0 s) : Answers (Follows T s0) (execMctpSetEndpointId a0 s) := by
  unfold execMctpSetEndpointId
  split
  · refine ⟨_, rfl, ?_⟩
    refine follows_answer (sub hT (by decide)) ?_
    assumption
  · refine ⟨_, rfl, ?_⟩
    refine follows_answer (sub hT (by decide)) ?_
    refine upd_bdy (hT _ (by decide)) rfl rfl ?_
    assumption


theorem follows_execMctpGetEndpointId {T : Part → Bool} {s0 s : State} (hT : ∀ p ∈ ([.bdy] : List Part), T p = true) (h : Follows T s0 s) : Answers (Follows T s0) (execMctpGetEndpointId s) := by
  unfold execMctpGetEndpointId
  refine ⟨_, rfl, ?_⟩
  refine follows_answer (sub hT (by decide)) ?_
  assumption


theorem follows_execMctpGetVersionSupport {T : Part → Bool} {s0 s : State} {a0 : Byte} (hT : ∀ p ∈ ([.bdy] : List Part), T p = true) (h : Follows T s0 s) : Answers (Follows T s0) (execMctpGetVersionSupport a0 s) := by
  unfold execMctpGetVersionSupport
  split
  · refine ⟨_, rfl, ?_⟩
    refine follows_answer (sub hT (by decide)) ?_
    assumption
  · refine ⟨_, rfl, ?_⟩
    refine follows_answer (sub hT (by decide)) ?_
    assumption


theorem follows_execMctpGetMessageTypeSupport {T : Part → Bool} {s0 s : State} (hT : ∀ p ∈ ([.bdy] : List Part), T p = true) (h : Follows T s0 s) : Answers (Follows T s0) (execMctpGetMessageTypeSupport s) := by
  unfold execMctpGetMessageTypeSupport
  refine ⟨_, rfl, ?_⟩
  refine follows_answer (sub hT (by decide)) ?_
  assumption


theorem follows_pldmAnswer {T : Part → Bool} {s0 s : State} {a1 : Nat} (hT : ∀ p ∈ ([.bdy] : List Part), T p = true) (h : Follows T s0 s) : Follows T s0 (pldmAnswer s a1) := by
  unfold pldmAnswer
  refine follows_answer (sub hT (by decide)) ?_
  assumption


theorem follows_execPldmFirmwareUpdate {T : Part → Bool} {s0 s : State} {a0 : Half} {a1 : Word} {a2 : Bytes} {a3 : Bool} (hT : ∀ p ∈ ([.pwr, .cmd, .bdy] : List Part), T p = true) (h : Follows T s0 s) : Answers (Follows T s0) (execPldmFirmwareUpdate a0 a1 a2 a3 s) := by
  unfold execPldmFirmwareUpdate
  split
  · refine ⟨_, rfl, ?_⟩
    assumption
  · split
    · refine ⟨_, rfl, ?_⟩
      refine follows_pldmAnswer (sub hT (by decide)) ?_
      assumption
    · split
      · refine ⟨_, rfl, ?_⟩
        refine follows_pldmAnswer (sub hT (by decide)) ?_
        assumption
      · split
        · split
          · refine ⟨_, rfl, ?_⟩
            refine follows_pldmAnswer (sub hT (by decide)) ?_
            assumption
          · refine ⟨_, rfl, ?_⟩
            refine follows_pldmAnswer (sub hT (by decide)) ?_
            refine follows_stageChunk (sub hT (by decide)) ?_
            assumption
        · try extract_lets (merge := false) (underBinder := false) +onlyGivenNames i1
          try clear_value i1
          try extract_lets (merge := false) (underBinder := false) +onlyGivenNames slot2
          try clear_value slot2
          split
          · refine ⟨_, rfl, ?_⟩
            refine follows_pldmAnswer (sub hT (by decide)) ?_
            assumption
          · split
            · split
              · refine ⟨_, rfl, ?_⟩
                refine follows_pldmAnswer (sub hT (by decide)) ?_
                assumption
              · refine ⟨_, rfl, ?_⟩
                refine follows_pldmAnswer (sub hT (by decide)) ?_
                refine follows_makePending (sub hT (by decide)) ?_
                refine follows_writeSlot (sub hT (by decide)) ?_
                assumption
            · split
              · refine ⟨_, rfl, ?_⟩
                refine follows_pldmAnswer (sub hT (by decide)) ?_
                assumption
              · refine ⟨_, rfl, ?_⟩
                refine follows_pldmAnswer (sub hT (by decide)) ?_
                refine follows_beginActivation (sub hT (by decide)) ?_
                assumption


theorem follows_execNvmeMiReadDataStructure {T : Part → Bool} {s0 s : State} {a0 : Byte} (hT : ∀ p ∈ ([.bdy] : List Part), T p = true) (h : Follows T s0 s) : Answers (Follows T s0) (execNvmeMiReadDataStructure a0 s) := by
  unfold execNvmeMiReadDataStructure
  refine ⟨_, rfl, ?_⟩
  refine follows_answer (sub hT (by decide)) ?_
  assumption


theorem follows_execNvmeMiHealthStatusPoll {T : Part → Bool} {s0 s : State} {a0 : Option (Fin 2)} (hT : ∀ p ∈ ([.bdy] : List Part), T p = true) (h : Follows T s0 s) : Answers (Follows T s0) (execNvmeMiHealthStatusPoll a0 s) := by
  unfold execNvmeMiHealthStatusPoll
  split
  · refine ⟨_, rfl, ?_⟩
    refine follows_answer (sub hT (by decide)) ?_
    assumption
  · split
    · refine ⟨_, rfl, ?_⟩
      refine follows_answer (sub hT (by decide)) ?_
      assumption
    · refine ⟨_, rfl, ?_⟩
      refine follows_answer (sub hT (by decide)) ?_
      assumption


theorem follows_execNvmeMiConfigurationGet {T : Part → Bool} {s0 s : State} {a0 : Byte} (hT : ∀ p ∈ ([.bdy] : List Part), T p = true) (h : Follows T s0 s) : Answers (Follows T s0) (execNvmeMiConfigurationGet a0 s) := by
  unfold execNvmeMiConfigurationGet
  split
  · refine ⟨_, rfl, ?_⟩
    refine follows_answer (sub hT (by decide)) ?_
    assumption
  · refine ⟨_, rfl, ?_⟩
    refine follows_answer (sub hT (by decide)) ?_
    assumption


theorem follows_execNvmeMiConfigurationSet {T : Part → Bool} {s0 s : State} {a0 : Byte} {a1 : Word} (hT : ∀ p ∈ ([.bdy] : List Part), T p = true) (h : Follows T s0 s) : Answers (Follows T s0) (execNvmeMiConfigurationSet a0 a1 s) := by
  unfold execNvmeMiConfigurationSet
  split
  · refine ⟨_, rfl, ?_⟩
    refine follows_answer (sub hT (by decide)) ?_
    assumption
  · split
    · refine ⟨_, rfl, ?_⟩
      assumption
    · refine ⟨_, rfl, ?_⟩
      refine follows_answer (sub hT (by decide)) ?_
      refine upd_bdy (hT _ (by decide)) rfl rfl ?_
      assumption


theorem follows_execNvmeMiTunnelledAdmin {T : Part → Bool} {s0 s : State} {a0 : Byte} {a1 : Byte} (hT : ∀ p ∈ ([.bdy] : List Part), T p = true) (h : Follows T s0 s) : Answers (Follows T s0) (execNvmeMiTunnelledAdmin a0 a1 s) := by
  unfold execNvmeMiTunnelledAdmin
  split
  · split
    · refine ⟨_, rfl, ?_⟩
      refine follows_answer (sub hT (by decide)) ?_
      assumption
    · refine ⟨_, rfl, ?_⟩
      refine follows_answer (sub hT (by decide)) ?_
      assumption
  · split
    · split
      · refine ⟨_, rfl, ?_⟩
        refine follows_answer (sub hT (by decide)) ?_
        assumption
      · refine ⟨_, rfl, ?_⟩
        refine follows_answer (sub hT (by decide)) ?_
        assumption
    · split
      · split
        · refine ⟨_, rfl, ?_⟩
          refine follows_answer (sub hT (by decide)) ?_
          assumption
        · refine ⟨_, rfl, ?_⟩
          refine follows_answer (sub hT (by decide)) ?_
          assumption
      · refine ⟨_, rfl, ?_⟩
        refine follows_answer (sub hT (by decide)) ?_
        assumption


theorem follows_execSpdmGetCertificate {T : Part → Bool} {s0 s : State} {a0 : Byte} (hT : ∀ p ∈ ([.bdy] : List Part), T p = true) (h : Follows T s0 s) : Answers (Follows T s0) (execSpdmGetCertificate a0 s) := by
  unfold execSpdmGetCertificate
  split
  · refine ⟨_, rfl, ?_⟩
    refine follows_answer (sub hT (by decide)) ?_
    assumption
  · refine ⟨_, rfl, ?_⟩
    refine follows_answer (sub hT (by decide)) ?_
    assumption


theorem follows_execSpdmChallenge {T : Part → Bool} {s0 s : State} {a0 : Byte} {a1 : BitVec 256} (hT : ∀ p ∈ ([.free, .bdy] : List Part), T p = true) (h : Follows T s0 s) : Answers (Follows T s0) (execSpdmChallenge a0 a1 s) := by
  unfold execSpdmChallenge
  split
  · refine ⟨_, rfl, ?_⟩
    refine follows_answer (sub hT (by decide)) ?_
    assumption
  · try extract_lets (merge := false) (underBinder := false) +onlyGivenNames bs1
    try clear_value bs1
    refine ⟨_, rfl, ?_⟩
    refine follows_answer (sub hT (by decide)) ?_
    refine follows_drawn (sub hT (by decide)) ?_
    assumption


theorem follows_execSpdmGetMeasurements {T : Part → Bool} {s0 s : State} {a0 : Byte} {a1 : BitVec 256} (hT : ∀ p ∈ ([.bdy] : List Part), T p = true) (h : Follows T s0 s) : Answers (Follows T s0) (execSpdmGetMeasurements a0 a1 s) := by
  unfold execSpdmGetMeasurements
  try extract_lets (merge := false) (underBinder := false) +onlyGivenNames k1
  try clear_value k1
  split
  · refine ⟨_, rfl, ?_⟩
    refine follows_answer (sub hT (by decide)) ?_
    assumption
  · try extract_lets (merge := false) (underBinder := false) +onlyGivenNames blocks2
    try clear_value blocks2
    refine ⟨_, rfl, ?_⟩
    refine follows_answer (sub hT (by decide)) ?_
    assumption


theorem follows_execActivationFetchResume {T : Part → Bool} {s0 s : State} (hT : ∀ p ∈ ([.cnt, .pwr, .cmd, .bdy] : List Part), T p = true) (h : Follows T s0 s) : Answers (Follows T s0) (execActivationFetchResume s) := by
  unfold execActivationFetchResume
  try extract_lets (merge := false) (underBinder := false) +onlyGivenNames k1
  try clear_value k1
  split
  · refine ⟨_, rfl, ?_⟩
    assumption
  · extract_lets (merge := false) (underBinder := false) +onlyGivenNames s2
    have hs2 : Follows T s0 s2 := by
      unfold s2
      refine follows_countEvent (sub hT (by decide)) ?_
      assumption
    clear_value s2
    refine ⟨_, rfl, ?_⟩
    refine follows_fileDirectory (sub hT (by decide)) ?_
    refine follows_mk ?_ rfl rfl rfl rfl rfl rfl rfl rfl rfl rfl rfl same same same same same same (.inl (hT _ (by decide))) same same same same same same same same same same same same same same (.inl (hT _ (by decide))) same same same (.inl (hT _ (by decide))) same
    assumption


end Sys2Proof.Machine
end

