-- ==== Sys2Proof/Laws/FollowsResync.lean ====
section
/-! SUPPORT. What the operations of Machine/Resync.lean keep: the queue, the canonical form of the sorted stores, the ingest sequence. -/

namespace Sys2Proof.Machine

theorem follows_after {T : Part → Bool} {s0 s : State} {a1 : Out} (hT : ∀ p ∈ ([] : List Part), T p = true) (h : Follows T s0 s) (g : Answers (Follows T s0) a1) : Follows T s0 (after s a1) := by
  obtain ⟨t, rfl, ht⟩ := g
  exact ht

 theorem follows_afterOf {s0 s : State} {f : State → Out} (g : ∀ {u}, Follows T s0 u → Answers (Follows T s0) (f u)) (h : Follows T s0 s) :
    Follows T s0 (after s (f s)) := follows_after (T := T) (fun _ h => by cases h) h (g h)


theorem follows_nameCapture {T : Part → Bool} {s0 s : State} {a1 : Nat} (hT : ∀ p ∈ ([.spn] : List Part), T p = true) (h : Follows T s0 s) : Follows T s0 (nameCapture s a1) := by
  unfold nameCapture
  try extract_lets (merge := false) (underBinder := false) +onlyGivenNames k1
  try clear_value k1
  refine follows_setPair (sub hT (by decide)) ?_
  assumption


theorem follows_askResync {T : Part → Bool} {s0 s : State} {a1 : Byte} (hT : ∀ p ∈ ([.spn] : List Part), T p = true) (h : Follows T s0 s) : Follows T s0 (askResync s a1) := by
  unfold askResync
  refine follows_foldl ?_ ?_
  · assumption
  · intro u1 a1 hu1
    split
    · refine follows_nameCapture (sub hT (by decide)) ?_
      assumption
    · split
      · refine follows_withhold (sub hT (by decide)) ?_
        assumption
      · assumption


theorem follows_askReturn {T : Part → Bool} {s0 s : State} {a1 : Byte} (hT : ∀ p ∈ ([.spn] : List Part), T p = true) (h : Follows T s0 s) : Follows T s0 (askReturn s a1) := by
  unfold askReturn
  refine follows_foldl ?_ ?_
  · assumption
  · intro u1 a1 hu1
    split
    · refine follows_setPair (sub hT (by decide)) ?_
      assumption
    · assumption


theorem follows_axisTimers {T : Part → Bool} {s0 s : State} {a1 : Nat} (hT : ∀ p ∈ ([.cnt, .axes] : List Part), T p = true) (h : Follows T s0 s) : Follows T s0 (axisTimers s a1) := by
  have h1 := follows_afterOf (f := execHomingTimeout (Fin.ofNat 32 a1)) (fun h => follows_execHomingTimeout (sub hT (by decide)) h) h
  unfold axisTimers
  dsimp only
  split
  · exact follows_afterOf (fun h => follows_execFollowMoveStart (sub hT (by decide)) h) h1
  · exact h1


theorem follows_cellTimers {T : Part → Bool} {s0 s : State} {a1 : Nat} (hT : ∀ p ∈ ([.free, .cnt, .bays, .ports, .spn, .out, .cells, .units, .axes, .rdc, .wrc, .cal, .qre, .hiu, .cph, .bdy] : List Part), T p = true) (h : Follows T s0 s) : Follows T s0 (cellTimers s a1) := by
  unfold cellTimers
  simp only [List.foldl]
  exact follows_afterOf (fun h => follows_execRetractComplete (sub hT (by decide)) h) <| follows_afterOf (fun h => follows_execHoldRelease (sub hT (by decide)) h) <|
    follows_afterOf (fun h => follows_execHoldMaxExpiry (sub hT (by decide)) h) <| follows_afterOf (fun h => follows_execSeekTimeout (sub hT (by decide)) h) <|
    follows_afterOf (fun h => follows_execSeekSettleEnd (sub hT (by decide)) h) <| follows_afterOf (fun h => follows_execSeekCaptureWindowEnd (sub hT (by decide)) h) <|
    follows_afterOf (fun h => follows_execSeekKickEnd (sub hT (by decide)) h) <| follows_afterOf (fun h => follows_execJumpTimeout (sub hT (by decide)) h) <|
    follows_afterOf (fun h => follows_execJumpSettleEnd (sub hT (by decide)) h) <| follows_afterOf (fun h => follows_execJumpDwellEnd (sub hT (by decide)) h) <|
    follows_afterOf (fun h => follows_execJumpBrakeEnd (sub hT (by decide)) h) <| follows_afterOf (fun h => follows_execJumpKickEnd (sub hT (by decide)) h) <|
    follows_afterOf (fun h => follows_execSearchTimeout (sub hT (by decide)) h) <| follows_afterOf (fun h => follows_execPlausibilityAction (sub hT (by decide)) h) h


theorem follows_queueShadow {T : Part → Bool} {s0 s : State} {a1 : HbCmd} (hT : ∀ p ∈ ([.cells, .units, .axes] : List Part), T p = true) (h : Follows T s0 s) : Follows T s0 (queueShadow s a1) := by
  unfold queueShadow
  try extract_lets (merge := false) (underBinder := false) +onlyGivenNames q1
  try clear_value q1
  split
  · try extract_lets (merge := false) (underBinder := false) +onlyGivenNames x2
    try clear_value x2
    refine follows_setCell (sub hT (by decide)) ?_
    assumption
  · try extract_lets (merge := false) (underBinder := false) +onlyGivenNames x3
    try clear_value x3
    refine follows_setUnit (sub hT (by decide)) ?_
    assumption
  · try extract_lets (merge := false) (underBinder := false) +onlyGivenNames x4
    try clear_value x4
    refine follows_setAxis (sub hT (by decide)) ?_
    assumption


theorem follows_shadowCommand {T : Part → Bool} {s0 s : State} {a1 : Nat} {a2 : HbCmd} (hT : ∀ p ∈ ([.cnt, .spn, .cells, .units, .axes] : List Part), T p = true) (h : Follows T s0 s) : Follows T s0 (shadowCommand s a1 a2) := by
  unfold shadowCommand
  try extract_lets (merge := false) (underBinder := false) +onlyGivenNames b1
  try clear_value b1
  try extract_lets (merge := false) (underBinder := false) +onlyGivenNames p2
  try clear_value p2
  split
  · assumption
  · split
    · split
      · refine follows_setPair (sub hT (by decide)) ?_
        assumption
      · assumption
    · split
      · refine follows_bump (sub hT (by decide)) ?_
        refine follows_withhold (sub hT (by decide)) ?_
        assumption
      · refine follows_queueShadow (sub hT (by decide)) ?_
        assumption


theorem follows_execResync {T : Part → Bool} {s0 s : State} {a0 : Byte} (hT : ∀ p ∈ ([.spn] : List Part), T p = true) (h : Follows T s0 s) : Answers (Follows T s0) (execResync a0 s) := by
  unfold execResync
  split
  · refine ⟨_, rfl, ?_⟩
    assumption
  · refine ⟨_, rfl, ?_⟩
    refine follows_askResync (sub hT (by decide)) ?_
    assumption


theorem follows_execResyncCapture {T : Part → Bool} {s0 s : State} {a0 : Fin 8} (hT : ∀ p ∈ ([.cnt, .spn, .out] : List Part), T p = true) (h : Follows T s0 s) : Answers (Follows T s0) (execResyncCapture a0 s) := by
  unfold execResyncCapture
  try extract_lets (merge := false) (underBinder := false) +onlyGivenNames p1
  try clear_value p1
  split
  · refine ⟨_, rfl, ?_⟩
    assumption
  · refine ⟨_, rfl, ?_⟩
    refine follows_bump (sub hT (by decide)) ?_
    refine follows_send (sub hT (by decide)) ?_
    refine follows_setPair (sub hT (by decide)) ?_
    assumption


theorem follows_loadBay {T : Part → Bool} {s0 s : State} {a1 : Nat} {a2 : StateImage} (hT : ∀ p ∈ ([.cells, .units, .axes] : List Part), T p = true) (h : Follows T s0 s) : Follows T s0 (loadBay s a1 a2) := by
  unfold loadBay
  try extract_lets (merge := false) (underBinder := false) +onlyGivenNames own1
  try clear_value own1
  extract_lets (merge := false) (underBinder := false) +onlyGivenNames s2
  have hs2 : Follows T s0 s2 := by
    unfold s2
    refine follows_foldl ?_ ?_
    · assumption
    · intro u3 a3 hu3
      split
      · refine follows_setCell (sub hT (by decide)) ?_
        assumption
      · assumption
  clear_value s2
  extract_lets (merge := false) (underBinder := false) +onlyGivenNames j4_0 s4
  have hs4 : Follows T s0 s4 := by
    unfold s4
    refine follows_setUnit (sub hT (by decide)) ?_
    assumption
  clear_value s4
  refine follows_foldl ?_ ?_
  · assumption
  · intro u5 a5 hu5
    split
    · refine follows_setAxis (sub hT (by decide)) ?_
      assumption
    · assumption


theorem follows_unitTimers {T : Part → Bool} {s0 s : State} {a1 : Nat} (hT : ∀ p ∈ ([.free, .cnt, .bays, .ports, .spn, .out, .cells, .units, .axes, .rdc, .wrc, .cal, .qre, .hiu, .cph, .bdy] : List Part), T p = true) (h : Follows T s0 s) : Follows T s0 (unitTimers s a1) := by
  unfold unitTimers
  simp only [List.foldl]
  exact follows_afterOf (fun h => follows_execShortBrakeComplete (sub hT (by decide)) h) <| follows_afterOf (fun h => follows_execStandstill (sub hT (by decide)) h) <|
    follows_afterOf (fun h => follows_execOverspeedFault (sub hT (by decide)) h) <| follows_afterOf (fun h => follows_execSpindleUnlock (sub hT (by decide)) h) <|
    follows_afterOf (fun h => follows_execSpindleLock (sub hT (by decide)) h) <| follows_afterOf (fun h => follows_execLossOfSync (sub hT (by decide)) h) <|
    follows_afterOf (fun h => follows_execBackwardBrakeTimeout (sub hT (by decide)) h) <| follows_afterOf (fun h => follows_execStartBrakeEnd (sub hT (by decide)) h) <|
    follows_afterOf (fun h => follows_execRampTimeout (sub hT (by decide)) h) <| follows_afterOf (fun h => follows_execAlignComplete (sub hT (by decide)) h) <|
    follows_afterOf (fun h => follows_execSenseComplete (sub hT (by decide)) h) h


theorem follows_replayStitch {T : Part → Bool} {s0 s : State} {a0 : Nat} {a2 : Nat × Option SampleFrame} (hT : ∀ p ∈ ([.free, .regs, .cnt, .tck, .bays, .ports, .spn, .out, .cells, .units, .bus, .axes, .rdc, .wrc, .cal, .qre, .hiu, .cph, .bdy] : List Part), T p = true) (h : Follows T s0 s) : Follows T s0 (replayStitch a0 s a2) := by
  unfold replayStitch
  split
  · refine follows_setUnit (sub hT (by decide)) ?_
    assumption
  · extract_lets (merge := false) (underBinder := false) +onlyGivenNames j1_0 j1_1 s1
    have hs1 : Follows T s0 s1 := by
      unfold s1
      refine follows_setPort (sub hT (by decide)) ?_
      refine upd_tck (hT _ (by decide)) ?_
      assumption
    clear_value s1
    extract_lets (merge := false) (underBinder := false) +onlyGivenNames s2
    have hs2 : Follows T s0 s2 := by
      unfold s2
      refine follows_foldl ?_ ?_
      · assumption
      · intro u3 a3 hu3
        refine follows_axisInput (sub hT (by decide)) ?_
        assumption
    clear_value s2
    extract_lets (merge := false) (underBinder := false) +onlyGivenNames s4
    have hs4 : Follows T s0 s4 := by
      unfold s4
      refine follows_foldl ?_ ?_
      · refine follows_unitTimers (sub hT (by decide)) ?_
        refine follows_foldl ?_ ?_
        · assumption
        · intro u5 a5 hu5
          refine follows_cellTimers (sub hT (by decide)) ?_
          assumption
      · intro u6 a6 hu6
        refine follows_axisTimers (sub hT (by decide)) ?_
        assumption
    clear_value s4
    extract_lets (merge := false) (underBinder := false) +onlyGivenNames s7
    have hs7 : Follows T s0 s7 := by
      unfold s7
      refine follows_computeBays (sub hT (by decide)) ?_
      assumption
    clear_value s7
    extract_lets (merge := false) (underBinder := false) +onlyGivenNames s8
    have hs8 : Follows T s0 s8 := by
      unfold s8
      refine follows_foldl ?_ ?_
      · assumption
      · intro u9 a9 hu9
        refine follows_setCell (sub hT (by decide)) ?_
        assumption
    clear_value s8
    extract_lets (merge := false) (underBinder := false) +onlyGivenNames s10
    have hs10 : Follows T s0 s10 := by
      unfold s10
      refine follows_setUnit (sub hT (by decide)) ?_
      assumption
    clear_value s10
    extract_lets (merge := false) (underBinder := false) +onlyGivenNames s11
    have hs11 : Follows T s0 s11 := by
      unfold s11
      refine follows_foldl ?_ ?_
      · assumption
      · intro u12 a12 hu12
        refine follows_setAxis (sub hT (by decide)) ?_
        assumption
    clear_value s11
    refine follows_setPort (sub hT (by decide)) ?_
    refine follows_cascadeBay (sub hT (by decide)) ?_
    assumption


theorem follows_replayBay {T : Part → Bool} {s0 s : State} {a1 : Nat} (hT : ∀ p ∈ ([.free, .regs, .cnt, .tck, .bays, .ports, .spn, .out, .cells, .units, .bus, .axes, .rdc, .wrc, .cal, .qre, .hiu, .cph, .bdy] : List Part), T p = true) (h : Follows T s0 s) : Follows T s0 (replayBay s a1) := by
  unfold replayBay
  try extract_lets (merge := false) (underBinder := false) +onlyGivenNames p1
  try clear_value p1
  try extract_lets (merge := false) (underBinder := false) +onlyGivenNames port2
  try clear_value port2
  try extract_lets (merge := false) (underBinder := false) +onlyGivenNames start3
  try clear_value start3
  extract_lets (merge := false) (underBinder := false) +onlyGivenNames t4
  have ht4 : Follows T s0 t4 := by
    unfold t4
    refine follows_foldl ?_ ?_
    · refine follows_setPort (sub hT (by decide)) ?_
      assumption
    · intro u5 a5 hu5
      refine follows_replayStitch (sub hT (by decide)) ?_
      assumption
  clear_value t4
  refine follows_setPort (sub hT (by decide)) ?_
  refine upd_tck (hT _ (by decide)) ?_
  assumption


theorem follows_execStatePacketReceive {T : Part → Bool} {s0 s : State} {a0 : Fin 8} {a1 : StateImage} (hT : ∀ p ∈ ([.free, .regs, .cnt, .tck, .bays, .ports, .spn, .out, .cells, .units, .bus, .axes, .rdc, .wrc, .cal, .qre, .hiu, .cph, .bdy] : List Part), T p = true) (h : Follows T s0 s) : Answers (Follows T s0) (execStatePacketReceive a0 a1 s) := by
  unfold execStatePacketReceive
  try extract_lets (merge := false) (underBinder := false) +onlyGivenNames p1
  try clear_value p1
  split
  · refine ⟨_, rfl, ?_⟩
    assumption
  · extract_lets (merge := false) (underBinder := false) +onlyGivenNames s2
    have hs2 : Follows T s0 s2 := by
      unfold s2
      refine follows_foldl ?_ ?_
      · refine follows_loadBay (sub hT (by decide)) ?_
        assumption
      · intro u3 a3 hu3
        refine follows_queueShadow (sub hT (by decide)) ?_
        assumption
    clear_value s2
    extract_lets (merge := false) (underBinder := false) +onlyGivenNames s4
    have hs4 : Follows T s0 s4 := by
      unfold s4
      refine follows_replayBay (sub hT (by decide)) ?_
      assumption
    clear_value s4
    refine ⟨_, rfl, ?_⟩
    refine follows_setPair (sub hT (by decide)) ?_
    assumption


theorem follows_execResyncTimeout {T : Part → Bool} {s0 s : State} {a0 : Fin 8} (hT : ∀ p ∈ ([.cnt, .spn] : List Part), T p = true) (h : Follows T s0 s) : Answers (Follows T s0) (execResyncTimeout a0 s) := by
  unfold execResyncTimeout
  try extract_lets (merge := false) (underBinder := false) +onlyGivenNames p1
  try clear_value p1
  split
  · refine ⟨_, rfl, ?_⟩
    assumption
  · refine ⟨_, rfl, ?_⟩
    refine follows_bump (sub hT (by decide)) ?_
    refine follows_nameCapture (sub hT (by decide)) ?_
    assumption


theorem follows_execHandBackRequest {T : Part → Bool} {s0 s : State} {a0 : Byte} (hT : ∀ p ∈ ([.spn] : List Part), T p = true) (h : Follows T s0 s) : Answers (Follows T s0) (execHandBackRequest a0 s) := by
  unfold execHandBackRequest
  split
  · refine ⟨_, rfl, ?_⟩
    assumption
  · refine ⟨_, rfl, ?_⟩
    refine follows_askReturn (sub hT (by decide)) ?_
    assumption


theorem follows_execHandBackStart {T : Part → Bool} {s0 s : State} {a0 : Fin 8} (hT : ∀ p ∈ ([.spn] : List Part), T p = true) (h : Follows T s0 s) : Answers (Follows T s0) (execHandBackStart a0 s) := by
  unfold execHandBackStart
  try extract_lets (merge := false) (underBinder := false) +onlyGivenNames p1
  try clear_value p1
  split
  · refine ⟨_, rfl, ?_⟩
    assumption
  · try extract_lets (merge := false) (underBinder := false) +onlyGivenNames at_2
    try clear_value at_2
    try extract_lets (merge := false) (underBinder := false) +onlyGivenNames h3
    try clear_value h3
    refine ⟨_, rfl, ?_⟩
    refine follows_setPair (sub hT (by decide)) ?_
    assumption


theorem follows_execHandoverStitch {T : Part → Bool} {s0 s : State} {a0 : Fin 8} (hT : ∀ p ∈ ([.cnt, .spn, .bdy] : List Part), T p = true) (h : Follows T s0 s) : Answers (Follows T s0) (execHandoverStitch a0 s) := by
  unfold execHandoverStitch
  try extract_lets (merge := false) (underBinder := false) +onlyGivenNames p1
  try clear_value p1
  split
  · refine ⟨_, rfl, ?_⟩
    assumption
  · extract_lets (merge := false) (underBinder := false) +onlyGivenNames s2
    have hs2 : Follows T s0 s2 := by
      unfold s2
      refine follows_bump (sub hT (by decide)) ?_
      assumption
    clear_value s2
    split
    · refine ⟨_, rfl, ?_⟩
      refine follows_event (sub hT (by decide)) ?_
      refine follows_setPair (sub hT (by decide)) ?_
      assumption
    · refine ⟨_, rfl, ?_⟩
      refine follows_setPair (sub hT (by decide)) ?_
      assumption


end Sys2Proof.Machine
end

