-- ==== Sys2Proof/Laws/FollowsSpine.lean ====
section
/-! SUPPORT. What the operations of Machine/Spine.lean keep: the queue, the canonical form of the sorted stores, the ingest sequence. -/

namespace Sys2Proof.Machine

theorem follows_ackMirror {T : Part → Bool} {s0 s : State} {a1 : Version} (hT : ∀ p ∈ ([.out] : List Part), T p = true) (h : Follows T s0 s) : Follows T s0 (ackMirror s a1) := by
  unfold ackMirror
  try extract_lets (merge := false) (underBinder := false) +onlyGivenNames n1
  try clear_value n1
  split
  · refine follows_send (sub hT (by decide)) ?_
    assumption
  · assumption


theorem follows_adoptJournal {T : Part → Bool} {s0 s : State} (hT : ∀ p ∈ ([.cnt, .bays, .ports, .spn, .out, .rdc, .wrc, .cal, .qre, .cmd, .mem, .bdy] : List Part), T p = true) (h : Follows T s0 s) : Follows T s0 (adoptJournal s) := by
  unfold adoptJournal
  try extract_lets (merge := false) (underBinder := false) +onlyGivenNames base1
  try clear_value base1
  try extract_lets (merge := false) (underBinder := false) +onlyGivenNames ended2
  try clear_value ended2
  try extract_lets (merge := false) (underBinder := false) +onlyGivenNames lostSeqs3
  try clear_value lostSeqs3
  extract_lets (merge := false) (underBinder := false) +onlyGivenNames j4_0 j4_1 s4
  have hs4 : Follows T s0 s4 := by
    unfold s4
    refine follows_mk ?_ rfl rfl rfl rfl rfl rfl rfl rfl rfl rfl rfl same same same same same same same same same same same same same same same same same same same (.inl (hT _ (by decide))) same (.inl (hT _ (by decide))) same same same same same
    assumption
  clear_value s4
  extract_lets (merge := false) (underBinder := false) +onlyGivenNames s5
  have hs5 : Follows T s0 s5 := by
    unfold s5
    refine follows_foldl ?_ ?_
    · assumption
    · intro u6 a6 hu6
      split
      · refine follows_abandonQuire (sub hT (by decide)) ?_
        assumption
      · refine follows_countEvent (sub hT (by decide)) ?_
        refine follows_setQuire (sub hT (by decide)) ?_
        assumption
  clear_value s5
  try extract_lets (merge := false) (underBinder := false) +onlyGivenNames back7
  try clear_value back7
  extract_lets (merge := false) (underBinder := false) +onlyGivenNames j8_0 j8_1 s8
  have hs8 : Follows T s0 s8 := by
    unfold s8
    refine follows_mk ?_ rfl rfl rfl rfl rfl rfl rfl rfl rfl rfl rfl same same same same same same same same same same (.inl (hT _ (by decide))) same same same same same same same same (.inl (hT _ (by decide))) same same same same same same same
    assumption
  clear_value s8
  extract_lets (merge := false) (underBinder := false) +onlyGivenNames j9_0 s9
  have hs9 : Follows T s0 s9 := by
    unfold s9
    split
    · assumption
    · refine upd_qre (hT _ (by decide)) ?_
      assumption
  clear_value s9
  refine follows_refillNow (sub hT (by decide)) ?_
  assumption


theorem follows_armRefused {T : Part → Bool} {s0 s : State} {a1 : BitVec 384} (hT : ∀ p ∈ ([.bnd] : List Part), T p = true) (h : Follows T s0 s) : Follows T s0 (armRefused s a1) := by
  unfold armRefused
  try extract_lets (merge := false) (underBinder := false) +onlyGivenNames off1
  try clear_value off1
  refine follows_setResult (sub hT (by decide)) ?_
  refine upd_bnd (hT _ (by decide)) rfl ?_
  assumption


theorem follows_tellSealOnly {T : Part → Bool} {s0 s : State} (hT : ∀ p ∈ ([.out, .hiu] : List Part), T p = true) (h : Follows T s0 s) : Follows T s0 (tellSealOnly s) := by
  unfold tellSealOnly
  split
  · refine follows_vendorEvent (sub hT (by decide)) ?_
    assumption
  · assumption


theorem follows_enterPaired {T : Part → Bool} {s0 s : State} (hT : ∀ p ∈ ([.pwr, .spn, .out, .hiu, .cmd] : List Part), T p = true) (h : Follows T s0 s) : Follows T s0 (enterPaired s) := by
  unfold enterPaired
  extract_lets (merge := false) (underBinder := false) +onlyGivenNames s1
  have hs1 : Follows T s0 s1 := by
    unfold s1
    refine follows_tellSealOnly (sub hT (by decide)) ?_
    assumption
  clear_value s1
  extract_lets (merge := false) (underBinder := false) +onlyGivenNames j2_0 j2_1 j2_2 s2
  have hs2 : Follows T s0 s2 := by
    unfold s2
    refine follows_mk ?_ rfl rfl rfl rfl rfl rfl rfl rfl rfl rfl rfl same same same same same same (.inl (hT _ (by decide))) same same same (.inl (hT _ (by decide))) same same same same same same same same same same (.inl (hT _ (by decide))) same same same same same
    assumption
  clear_value s2
  extract_lets (merge := false) (underBinder := false) +onlyGivenNames s3
  have hs3 : Follows T s0 s3 := by
    unfold s3
    refine follows_setAna (sub hT (by decide)) ?_
    refine follows_setAna (sub hT (by decide)) ?_
    assumption
  clear_value s3
  refine follows_foldl ?_ ?_
  · assumption
  · intro u4 a4 hu4
    split
    · refine follows_withhold (sub hT (by decide)) ?_
      assumption
    · assumption


theorem follows_endExchange {T : Part → Bool} {s0 s : State} (hT : ∀ p ∈ ([.pwr, .spn, .out, .hiu, .cmd] : List Part), T p = true) (h : Follows T s0 s) : Follows T s0 (endExchange s) := by
  unfold endExchange
  split
  · refine follows_enterPaired (sub hT (by decide)) ?_
    assumption
  · assumption


theorem follows_exchange {T : Part → Bool} {s0 s : State} (hT : ∀ p ∈ ([.out] : List Part), T p = true) (h : Follows T s0 s) : Follows T s0 (exchange s) := by
  unfold exchange
  extract_lets (merge := false) (underBinder := false) +onlyGivenNames s1
  have hs1 : Follows T s0 s1 := by
    unfold s1
    refine follows_foldl ?_ ?_
    · assumption
    · intro u2 a2 hu2
      refine follows_sendMirror (sub hT (by decide)) ?_
      assumption
  clear_value s1
  extract_lets (merge := false) (underBinder := false) +onlyGivenNames s3
  have hs3 : Follows T s0 s3 := by
    unfold s3
    refine follows_foldl ?_ ?_
    · assumption
    · intro u4 a4 hu4
      refine follows_sendQuire (sub hT (by decide)) ?_
      assumption
  clear_value s3
  extract_lets (merge := false) (underBinder := false) +onlyGivenNames s5
  have hs5 : Follows T s0 s5 := by
    unfold s5
    refine follows_foldl ?_ ?_
    · assumption
    · intro u6 a6 hu6
      refine follows_send (sub hT (by decide)) ?_
      assumption
  clear_value s5
  extract_lets (merge := false) (underBinder := false) +onlyGivenNames s7
  have hs7 : Follows T s0 s7 := by
    unfold s7
    refine follows_foldl ?_ ?_
    · assumption
    · intro u8 a8 hu8
      refine follows_noteSurface (sub hT (by decide)) ?_
      refine follows_sendPointer (sub hT (by decide)) ?_
      assumption
  clear_value s7
  extract_lets (merge := false) (underBinder := false) +onlyGivenNames s9
  have hs9 : Follows T s0 s9 := by
    unfold s9
    refine follows_foldl ?_ ?_
    · assumption
    · intro u10 a10 hu10
      refine follows_sendKcv (sub hT (by decide)) ?_
      assumption
  clear_value s9
  refine follows_foldl ?_ ?_
  · assumption
  · intro u11 a11 hu11
    refine follows_send (sub hT (by decide)) ?_
    assumption


theorem follows_completePairing {T : Part → Bool} {s0 s : State} (hT : ∀ p ∈ ([.pwr, .spn, .out, .hiu, .cmd] : List Part), T p = true) (h : Follows T s0 s) : Follows T s0 (completePairing s) := by
  unfold completePairing
  refine follows_endExchange (sub hT (by decide)) ?_
  refine follows_exchange (sub hT (by decide)) ?_
  refine upd_spn (hT _ (by decide)) ?_
  assumption


theorem follows_dropPeerLeaves {T : Part → Bool} {s0 s : State} (hT : ∀ p ∈ ([.cnt, .bays, .ports, .out, .rdc, .wrc, .cal, .qre, .bdy] : List Part), T p = true) (h : Follows T s0 s) : Follows T s0 (dropPeerLeaves s) := by
  unfold dropPeerLeaves
  try extract_lets (merge := false) (underBinder := false) +onlyGivenNames open_1
  try clear_value open_1
  refine follows_foldl ?_ ?_
  · assumption
  · intro u3 a3 hu3
    split
    · refine follows_foldl ?_ ?_
      · assumption
      · intro u2 a2 hu2
        refine follows_abandonLeaf (sub hT (by decide)) ?_
        assumption
    · refine follows_setQuire (sub hT (by decide)) ?_
      assumption


theorem follows_endForwarded {T : Part → Bool} {s0 s : State} (hT : ∀ p ∈ ([.out, .hiu] : List Part), T p = true) (h : Follows T s0 s) : Follows T s0 (endForwarded s) := by
  unfold endForwarded
  try extract_lets (merge := false) (underBinder := false) +onlyGivenNames mine1
  try clear_value mine1
  extract_lets (merge := false) (underBinder := false) +onlyGivenNames s2
  have hs2 : Follows T s0 s2 := by
    unfold s2
    refine follows_foldl ?_ ?_
    · assumption
    · intro u3 a3 hu3
      refine follows_complete (sub hT (by decide)) ?_
      assumption
  clear_value s2
  refine upd_hiu (hT _ (by decide)) ?_
  assumption


theorem follows_runnerBeat {T : Part → Bool} {s0 s : State} {a0 : Heartbeat} {a2 : Nat} (hT : ∀ p ∈ ([.spn] : List Part), T p = true) (h : Follows T s0 s) : Follows T s0 (runnerBeat a0 s a2) := by
  unfold runnerBeat
  split
  · assumption
  · try extract_lets (merge := false) (underBinder := false) +onlyGivenNames p1
    try clear_value p1
    try extract_lets (merge := false) (underBinder := false) +onlyGivenNames ready2
    try clear_value ready2
    extract_lets (merge := false) (underBinder := false) +onlyGivenNames s3
    have hs3 : Follows T s0 s3 := by
      unfold s3
      refine follows_setPair (sub hT (by decide)) ?_
      assumption
    clear_value s3
    split
    · refine follows_nameCapture (sub hT (by decide)) ?_
      assumption
    · assumption


theorem follows_shadowCapture {T : Part → Bool} {s0 s : State} {a0 : Heartbeat} {a2 : Nat} (hT : ∀ p ∈ ([.spn] : List Part), T p = true) (h : Follows T s0 s) : Follows T s0 (shadowCapture a0 s a2) := by
  unfold shadowCapture
  try extract_lets (merge := false) (underBinder := false) +onlyGivenNames p1
  try clear_value p1
  try extract_lets (merge := false) (underBinder := false) +onlyGivenNames k2
  try clear_value k2
  split
  · assumption
  · refine follows_setPair (sub hT (by decide)) ?_
    assumption


theorem follows_shadowBeat {T : Part → Bool} {s0 s : State} {a0 : Heartbeat} {a2 : Nat} (hT : ∀ p ∈ ([.cnt, .spn] : List Part), T p = true) (h : Follows T s0 s) : Follows T s0 (shadowBeat a0 s a2) := by
  unfold shadowBeat
  split
  · assumption
  · extract_lets (merge := false) (underBinder := false) +onlyGivenNames j1_0 s1
    have hs1 : Follows T s0 s1 := by
      unfold s1
      split
      · refine follows_bump (sub hT (by decide)) ?_
        refine follows_setPair (sub hT (by decide)) ?_
        assumption
      · assumption
    clear_value s1
    try extract_lets (merge := false) (underBinder := false) +onlyGivenNames p2
    try clear_value p2
    split
    · assumption
    · split
      · refine follows_bump (sub hT (by decide)) ?_
        refine follows_withhold (sub hT (by decide)) ?_
        assumption
      · try extract_lets (merge := false) (underBinder := false) +onlyGivenNames n3
        try clear_value n3
        split
        · refine follows_setPair (sub hT (by decide)) ?_
          assumption
        · refine follows_setPair (sub hT (by decide)) ?_
          assumption


theorem follows_pairBeat {T : Part → Bool} {s0 s : State} {a1 : Heartbeat} (hT : ∀ p ∈ ([.cnt, .spn, .cells, .units, .axes] : List Part), T p = true) (h : Follows T s0 s) : Follows T s0 (pairBeat s a1) := by
  unfold pairBeat
  extract_lets (merge := false) (underBinder := false) +onlyGivenNames s1
  have hs1 : Follows T s0 s1 := by
    unfold s1
    refine follows_foldl ?_ ?_
    · assumption
    · intro u2 a2 hu2
      refine follows_shadowCommand (sub hT (by decide)) ?_
      assumption
  clear_value s1
  refine follows_foldl ?_ ?_
  · assumption
  · intro u3 a3 hu3
    refine follows_runnerBeat (sub hT (by decide)) ?_
    refine follows_shadowCapture (sub hT (by decide)) ?_
    refine follows_shadowBeat (sub hT (by decide)) ?_
    assumption


theorem follows_execHeartbeatReceive {T : Part → Bool} {s0 s : State} {a0 : Heartbeat} (hT : ∀ p ∈ ([.cnt, .tck, .spn, .cells, .units, .axes] : List Part), T p = true) (h : Follows T s0 s) : Answers (Follows T s0) (execHeartbeatReceive a0 s) := by
  unfold execHeartbeatReceive
  split
  · refine ⟨_, rfl, ?_⟩
    assumption
  · split
    · split
      · refine ⟨_, rfl, ?_⟩
        split
        · refine follows_foldl ?_ ?_
          · assumption
          · intro u1 a1 hu1
            refine follows_shadowCommand (sub hT (by decide)) ?_
            assumption
        · assumption
      · split
        · refine ⟨_, rfl, ?_⟩
          assumption
        · extract_lets (merge := false) (underBinder := false) +onlyGivenNames j2_0 s2
          have hs2 : Follows T s0 s2 := by
            unfold s2
            refine upd_spn (hT _ (by decide)) ?_
            assumption
          clear_value s2
          refine ⟨_, rfl, ?_⟩
          split
          · refine follows_pairBeat (sub hT (by decide)) ?_
            assumption
          · assumption
    · refine ⟨_, rfl, ?_⟩
      refine follows_mk ?_ rfl rfl rfl rfl rfl rfl rfl rfl rfl rfl rfl same same same same same (.inl (hT _ (by decide))) same same same same (.inl (hT _ (by decide))) same same same same same same same same same same same same same same same same
      assumption


theorem follows_execHeartbeatMissing {T : Part → Bool} {s0 s : State} (hT : ∀ p ∈ ([.cnt, .spn] : List Part), T p = true) (h : Follows T s0 s) : Answers (Follows T s0) (execHeartbeatMissing s) := by
  have hw : ∀ (p : Spn), Follows T s0 { s with spn := p } := fun p => upd_spn (hT _ (by decide)) h
  unfold execHeartbeatMissing
  dsimp only
  split
  · exact ⟨_, rfl, h⟩
  · refine ⟨_, rfl, follows_foldl ?_ ?_⟩
    · split
      · exact follows_bump (sub hT (by decide)) (hw _)
      · exact hw _
    · intro u b hu
      split
      · exact follows_setPair (sub hT (by decide)) hu
      · split
        · exact follows_setPair (sub hT (by decide)) hu
        · exact hu



theorem follows_linkLostBay {T : Part → Bool} {s0 s : State} {a1 : Nat} (hT : ∀ p ∈ ([.spn] : List Part), T p = true) (h : Follows T s0 s) : Follows T s0 (linkLostBay s a1) := by
  unfold linkLostBay
  try extract_lets (merge := false) (underBinder := false) +onlyGivenNames p1
  try clear_value p1
  refine follows_setPair (sub hT (by decide)) ?_
  assumption


theorem follows_loseTwin {T : Part → Bool} {s0 s : State} {a1 : Bool} (hT : ∀ p ∈ ([.cnt, .tck, .bays, .ports, .spn, .out, .rdc, .wrc, .cal, .qre, .hiu, .cmd, .mem, .bdy] : List Part), T p = true) (h : Follows T s0 s) : Follows T s0 (loseTwin s a1) := by
  unfold loseTwin
  extract_lets (merge := false) (underBinder := false) +onlyGivenNames j1_0 j1_1 s1
  have hs1 : Follows T s0 s1 := by
    unfold s1
    refine follows_countEvent (sub hT (by decide)) ?_
    refine follows_mk ?_ rfl rfl rfl rfl rfl rfl rfl rfl rfl rfl rfl same same same same same (.inl (hT _ (by decide))) same same same same (.inl (hT _ (by decide))) same same same same same same same same same same same same same same same same
    assumption
  clear_value s1
  try extract_lets (merge := false) (underBinder := false) +onlyGivenNames g2
  try clear_value g2
  extract_lets (merge := false) (underBinder := false) +onlyGivenNames s3
  have hs3 : Follows T s0 s3 := by
    unfold s3
    split
    · refine follows_setAna (sub hT (by decide)) ?_
      refine follows_adoptJournal (sub hT (by decide)) ?_
      refine follows_setAna (sub hT (by decide)) ?_
      assumption
    · assumption
  clear_value s3
  refine follows_loseMirror (sub hT (by decide)) ?_
  assumption


theorem follows_loseLink {T : Part → Bool} {s0 s : State} {a1 : Nat} (hT : ∀ p ∈ ([.cnt, .tck, .bays, .ports, .spn, .out, .rdc, .wrc, .cal, .qre, .hiu, .cmd, .mem, .bdy, .bnd] : List Part), T p = true) (h : Follows T s0 s) : Follows T s0 (loseLink s a1) := by
  unfold loseLink
  try extract_lets (merge := false) (underBinder := false) +onlyGivenNames was1
  try clear_value was1
  extract_lets (merge := false) (underBinder := false) +onlyGivenNames j2_0 s2
  have hs2 : Follows T s0 s2 := by
    unfold s2
    refine follows_mk ?_ rfl rfl rfl rfl rfl rfl rfl rfl rfl rfl rfl same same same same same same same same same same (.inl (hT _ (by decide))) (.inl (hT _ (by decide))) same same same same same same same same same same same same same same same
    assumption
  clear_value s2
  split
  · assumption
  · extract_lets (merge := false) (underBinder := false) +onlyGivenNames s3
    have hs3 : Follows T s0 s3 := by
      unfold s3
      refine follows_countEvent (sub hT (by decide)) ?_
      assumption
    clear_value s3
    extract_lets (merge := false) (underBinder := false) +onlyGivenNames s4
    have hs4 : Follows T s0 s4 := by
      unfold s4
      refine follows_foldl ?_ ?_
      · refine follows_loseArmed (sub hT (by decide)) ?_
        refine follows_endForwarded (sub hT (by decide)) ?_
        assumption
      · intro u5 a5 hu5
        refine follows_linkLostBay (sub hT (by decide)) ?_
        assumption
    clear_value s4
    split
    · refine follows_finishUnmount (sub hT (by decide)) ?_
      refine follows_loseMirror (sub hT (by decide)) ?_
      refine follows_setAna (sub hT (by decide)) ?_
      refine follows_dropPeerLeaves (sub hT (by decide)) ?_
      assumption
    · refine follows_finishUnmount (sub hT (by decide)) ?_
      refine follows_loseTwin (sub hT (by decide)) ?_
      assumption


theorem follows_execSpineLinkLost {T : Part → Bool} {s0 s : State} {a0 : Bool} (hT : ∀ p ∈ ([.cnt, .tck, .bays, .ports, .spn, .out, .rdc, .wrc, .cal, .qre, .hiu, .cmd, .mem, .bdy, .bnd] : List Part), T p = true) (h : Follows T s0 s) : Answers (Follows T s0) (execSpineLinkLost a0 s) := by
  unfold execSpineLinkLost
  split
  · refine ⟨_, rfl, ?_⟩
    assumption
  · refine ⟨_, rfl, ?_⟩
    refine follows_loseLink (sub hT (by decide)) ?_
    assumption


theorem follows_execSpineLinkRestored {T : Part → Bool} {s0 s : State} (hT : ∀ p ∈ ([.free, .spn] : List Part), T p = true) (h : Follows T s0 s) : Answers (Follows T s0) (execSpineLinkRestored s) := by
  unfold execSpineLinkRestored
  split
  · refine ⟨_, rfl, ?_⟩
    refine follows_drawn (sub hT (by decide)) ?_
    refine upd_spn (hT _ (by decide)) ?_
    assumption
  · split
    · refine ⟨_, rfl, ?_⟩
      refine upd_spn (hT _ (by decide)) ?_
      assumption
    · refine ⟨_, rfl, ?_⟩
      assumption


theorem follows_execSpineLaneDrop {T : Part → Bool} {s0 s : State} {a0 : Fin 8} (hT : ∀ p ∈ ([.cnt, .tck, .bays, .ports, .spn, .out, .rdc, .wrc, .cal, .qre, .hiu, .cmd, .mem, .bdy, .bnd] : List Part), T p = true) (h : Follows T s0 s) : Answers (Follows T s0) (execSpineLaneDrop a0 s) := by
  unfold execSpineLaneDrop
  split
  · refine ⟨_, rfl, ?_⟩
    assumption
  · extract_lets (merge := false) (underBinder := false) +onlyGivenNames j1_0 s1
    have hs1 : Follows T s0 s1 := by
      unfold s1
      refine follows_countEvent (sub hT (by decide)) ?_
      refine upd_spn (hT _ (by decide)) ?_
      assumption
    clear_value s1
    refine ⟨_, rfl, ?_⟩
    split
    · refine follows_loseLink (sub hT (by decide)) ?_
      assumption
    · assumption


theorem follows_refusePairing {T : Part → Bool} {s0 s : State} {a1 : Nat} (hT : ∀ p ∈ ([.spn, .out, .hiu, .cmd, .mem, .bdy] : List Part), T p = true) (h : Follows T s0 s) : Follows T s0 (refusePairing s a1) := by
  unfold refusePairing
  refine follows_loseMirror (sub hT (by decide)) ?_
  refine follows_event (sub hT (by decide)) ?_
  refine upd_spn (hT _ (by decide)) ?_
  assumption


theorem follows_execPairing {T : Part → Bool} {s0 s : State} {a0 : Fin 2} {a1 : BitVec 128} {a2 : BitVec 384} {a3 : Bool} (hT : ∀ p ∈ ([.tck, .pwr, .spn, .out, .hiu, .cmd, .mem, .bdy] : List Part), T p = true) (h : Follows T s0 s) : Answers (Follows T s0) (execPairing a0 a1 a2 a3 s) := by
  unfold execPairing
  split
  · refine ⟨_, rfl, ?_⟩
    assumption
  · split
    · refine ⟨_, rfl, ?_⟩
      refine follows_refusePairing (sub hT (by decide)) ?_
      assumption
    · extract_lets (merge := false) (underBinder := false) +onlyGivenNames j1_0 s1
      have hs1 : Follows T s0 s1 := by
        unfold s1
        refine upd_tck (hT _ (by decide)) ?_
        assumption
      clear_value s1
      split
      · refine ⟨_, rfl, ?_⟩
        refine follows_completePairing (sub hT (by decide)) ?_
        assumption
      · split
        · refine ⟨_, rfl, ?_⟩
          refine follows_loseMirror (sub hT (by decide)) ?_
          refine follows_send (sub hT (by decide)) ?_
          refine upd_spn (hT _ (by decide)) ?_
          assumption
        · refine ⟨_, rfl, ?_⟩
          refine follows_loseMirror (sub hT (by decide)) ?_
          refine upd_spn (hT _ (by decide)) ?_
          assumption


theorem follows_execPairingBindingCheck {T : Part → Bool} {s0 s : State} {a0 : Bytes} (hT : ∀ p ∈ ([.cnt, .pwr, .bays, .ports, .spn, .out, .cells, .units, .axes, .cal, .hiu, .cmd, .mem, .kst, .bdy, .bnd] : List Part), T p = true) (h : Follows T s0 s) : Answers (Follows T s0) (execPairingBindingCheck a0 s) := by
  unfold execPairingBindingCheck
  split
  · refine ⟨_, rfl, ?_⟩
    assumption
  · try extract_lets (merge := false) (underBinder := false) +onlyGivenNames v1
    try clear_value v1
    extract_lets (merge := false) (underBinder := false) +onlyGivenNames s2
    have hs2 : Follows T s0 s2 := by
      unfold s2
      refine follows_setResult (sub hT (by decide)) ?_
      refine follows_showCheck (sub hT (by decide)) ?_
      assumption
    clear_value s2
    split
    · extract_lets (merge := false) (underBinder := false) +onlyGivenNames s3
      have hs3 : Follows T s0 s3 := by
        unfold s3
        refine follows_activate (sub hT (by decide)) ?_
        assumption
      clear_value s3
      refine ⟨_, rfl, ?_⟩
      refine follows_completePairing (sub hT (by decide)) ?_
      split
      · refine follows_writeColophon (sub hT (by decide)) ?_
        assumption
      · assumption
    · refine ⟨_, rfl, ?_⟩
      refine follows_refusePairing (sub hT (by decide)) ?_
      assumption


theorem follows_execAliveInDead {T : Part → Bool} {s0 s : State} (hT : ∀ p ∈ ([.cnt, .tck, .bays, .ports, .spn, .out, .rdc, .wrc, .cal, .qre, .hiu, .cmd, .mem, .bdy] : List Part), T p = true) (h : Follows T s0 s) : Answers (Follows T s0) (execAliveInDead s) := by
  unfold execAliveInDead
  split
  · refine ⟨_, rfl, ?_⟩
    assumption
  · extract_lets (merge := false) (underBinder := false) +onlyGivenNames j1_0 t1
    have ht1 : Follows T s0 t1 := by
      unfold t1
      refine upd_spn (hT _ (by decide)) ?_
      assumption
    clear_value t1
    split
    · refine ⟨_, rfl, ?_⟩
      split
      · refine follows_countEvent (sub hT (by decide)) ?_
        assumption
      · assumption
    · split
      · refine ⟨_, rfl, ?_⟩
        assumption
      · refine ⟨_, rfl, ?_⟩
        refine follows_loseTwin (sub hT (by decide)) ?_
        assumption


theorem follows_execAliveInLive {T : Part → Bool} {s0 s : State} (hT : ∀ p ∈ ([.spn] : List Part), T p = true) (h : Follows T s0 s) : Answers (Follows T s0) (execAliveInLive s) := by
  unfold execAliveInLive
  split
  · refine ⟨_, rfl, ?_⟩
    assumption
  · refine ⟨_, rfl, ?_⟩
    refine upd_spn (hT _ (by decide)) ?_
    assumption


theorem follows_mendVersion {T : Part → Bool} {s0 s : State} {a1 : Bool} {a2 : Nat} (hT : ∀ p ∈ ([.mem] : List Part), T p = true) (h : Follows T s0 s) : Follows T s0 (mendVersion s a1 a2) := by
  unfold mendVersion
  try extract_lets (merge := false) (underBinder := false) +onlyGivenNames hit1
  try clear_value hit1
  extract_lets (merge := false) (underBinder := false) +onlyGivenNames s2
  have hs2 : Follows T s0 s2 := by
    unfold s2
    refine follows_foldl ?_ ?_
    · assumption
    · intro u3 a3 hu3
      refine follows_mended (sub hT (by decide)) ?_
      assumption
  clear_value s2
  refine upd_mem (hT _ (by decide)) rfl rfl ?_
  assumption


theorem follows_execMirrorDataReceive {T : Part → Bool} {s0 s : State} {a0 : Fin 2} {a1 : Dword} {a2 : Word} {a3 : Dword} {a4 : List Bytes} {a5 : Bool} (hT : ∀ p ∈ ([.out, .cmd, .mem] : List Part), T p = true) (h : Follows T s0 s) : Answers (Follows T s0) (execMirrorDataReceive a0 a1 a2 a3 a4 a5 s) := by
  unfold execMirrorDataReceive
  split
  · refine ⟨_, rfl, ?_⟩
    assumption
  · try extract_lets (merge := false) (underBinder := false) +onlyGivenNames v1
    try clear_value v1
    extract_lets (merge := false) (underBinder := false) +onlyGivenNames s2
    have hs2 : Follows T s0 s2 := by
      unfold s2
      refine follows_mendVersion (sub hT (by decide)) ?_
      assumption
    clear_value s2
    split
    · refine ⟨_, rfl, ?_⟩
      refine upd_cmd (hT _ (by decide)) ?_
      assumption
    · try extract_lets (merge := false) (underBinder := false) +onlyGivenNames keep3
      try clear_value keep3
      refine ⟨_, rfl, ?_⟩
      refine follows_ackMirror (sub hT (by decide)) ?_
      refine follows_mapBuffered (sub hT (by decide)) ?_
      refine upd_cmd (hT _ (by decide)) ?_
      assumption


theorem follows_followZone {T : Part → Bool} {s0 s : State} {a1 : Nat} {a2 : Nat} {a3 : Nat} (hT : ∀ p ∈ ([.hiu] : List Part), T p = true) (h : Follows T s0 s) : Follows T s0 (followZone s a1 a2 a3) := by
  unfold followZone
  split
  · assumption
  · try extract_lets (merge := false) (underBinder := false) +onlyGivenNames z1
    try clear_value z1
    try extract_lets (merge := false) (underBinder := false) +onlyGivenNames x2
    try clear_value x2
    try extract_lets (merge := false) (underBinder := false) +onlyGivenNames wp3
    try clear_value wp3
    refine follows_setZone (sub hT (by decide)) ?_
    assumption


theorem follows_takeIngest {T : Part → Bool} {s0 s : State} {a1 : Nat} {a2 : Nat} {a3 : Nat} {a4 : Bool} {a5 : Nat} {a6 : Nat} (hT : ∀ p ∈ ([.out, .qre, .hiu] : List Part), T p = true) (h : Follows T s0 s) : Follows T s0 (takeIngest s a1 a2 a3 a4 a5 a6) := by
  unfold takeIngest
  try extract_lets (merge := false) (underBinder := false) +onlyGivenNames vs1
  try clear_value vs1
  try extract_lets (merge := false) (underBinder := false) +onlyGivenNames v2
  try clear_value v2
  try extract_lets (merge := false) (underBinder := false) +onlyGivenNames i3
  try clear_value i3
  extract_lets (merge := false) (underBinder := false) +onlyGivenNames j4_0 s4
  have hs4 : Follows T s0 s4 := by
    unfold s4
    refine upd_qre (hT _ (by decide)) ?_
    assumption
  clear_value s4
  extract_lets (merge := false) (underBinder := false) +onlyGivenNames s5
  have hs5 : Follows T s0 s5 := by
    unfold s5
    refine follows_followZone (sub hT (by decide)) ?_
    assumption
  clear_value s5
  split
  · refine follows_ackMirror (sub hT (by decide)) ?_
    assumption
  · assumption


theorem follows_takeQuire {T : Part → Bool} {s0 s : State} {a1 : Quire} {a2 : List (Nat × Bytes)} (hT : ∀ p ∈ ([.qre, .mem] : List Part), T p = true) (h : Follows T s0 s) : Follows T s0 (takeQuire s a1 a2) := by
  unfold takeQuire
  split
  · assumption
  · try extract_lets (merge := false) (underBinder := false) +onlyGivenNames old1
    try clear_value old1
    try extract_lets (merge := false) (underBinder := false) +onlyGivenNames ls2
    try clear_value ls2
    extract_lets (merge := false) (underBinder := false) +onlyGivenNames s3
    have hs3 : Follows T s0 s3 := by
      unfold s3
      refine follows_setQuire (sub hT (by decide)) ?_
      assumption
    clear_value s3
    extract_lets (merge := false) (underBinder := false) +onlyGivenNames j4_0 s4
    have hs4 : Follows T s0 s4 := by
      unfold s4
      refine upd_qre (hT _ (by decide)) ?_
      assumption
    clear_value s4
    extract_lets (merge := false) (underBinder := false) +onlyGivenNames s5
    have hs5 : Follows T s0 s5 := by
      unfold s5
      split
      · refine follows_mapGranules (sub hT (by decide)) ?_
        assumption
      · assumption
    clear_value s5
    split
    · refine follows_fileRecords (sub hT (by decide)) ?_
      assumption
    · assumption


theorem follows_execJournalRecordReceive {T : Part → Bool} {s0 s : State} {a0 : JournalRec} (hT : ∀ p ∈ ([.out, .qre, .hiu, .cmd, .mem] : List Part), T p = true) (h : Follows T s0 s) : Answers (Follows T s0) (execJournalRecordReceive a0 s) := by
  unfold execJournalRecordReceive
  split
  · refine ⟨_, rfl, ?_⟩
    assumption
  · split
    · split
      · refine ⟨_, rfl, ?_⟩
        assumption
      · refine ⟨_, rfl, ?_⟩
        refine follows_takeIngest (sub hT (by decide)) ?_
        assumption
    · refine ⟨_, rfl, ?_⟩
      refine follows_releaseVersions (sub hT (by decide)) ?_
      refine follows_takeQuire (sub hT (by decide)) ?_
      assumption
    · split
      · refine ⟨_, rfl, ?_⟩
        assumption
      · try extract_lets (merge := false) (underBinder := false) +onlyGivenNames x1
        try clear_value x1
        try extract_lets (merge := false) (underBinder := false) +onlyGivenNames band2
        try clear_value band2
        refine ⟨_, rfl, ?_⟩
        refine follows_setSurf (sub hT (by decide)) ?_
        assumption
    · extract_lets (merge := false) (underBinder := false) +onlyGivenNames s03
      have hs03 : Follows T s0 s03 := by
        unfold s03
        assumption
      clear_value s03
      extract_lets (merge := false) (underBinder := false) +onlyGivenNames j4_0 s4
      have hs4 : Follows T s0 s4 := by
        unfold s4
        refine upd_qre (hT _ (by decide)) ?_
        assumption
      clear_value s4
      split
      · extract_lets (merge := false) (underBinder := false) +onlyGivenNames s5
        have hs5 : Follows T s0 s5 := by
          unfold s5
          refine follows_setQuire (sub hT (by decide)) ?_
          assumption
        clear_value s5
        refine ⟨_, rfl, ?_⟩
        refine follows_withSmart (sub hT (by decide)) ?_
        refine follows_foldl ?_ ?_
        · assumption
        · intro u6 a6 hu6
          split
          · refine follows_markLost (sub hT (by decide)) ?_
            refine follows_reportLoss (sub hT (by decide)) ?_
            assumption
          · assumption
      · refine ⟨_, rfl, ?_⟩
        assumption


theorem follows_execMirrorAckReceive {T : Part → Bool} {s0 s : State} {a0 : Dword} (hT : ∀ p ∈ ([.pwr, .spn, .out, .hiu, .cmd] : List Part), T p = true) (h : Follows T s0 s) : Answers (Follows T s0) (execMirrorAckReceive a0 s) := by
  unfold execMirrorAckReceive
  refine ⟨_, rfl, ?_⟩
  refine follows_endExchange (sub hT (by decide)) ?_
  refine follows_mk ?_ rfl rfl rfl rfl rfl rfl rfl rfl rfl rfl rfl same same same same same same same same same same (.inl (hT _ (by decide))) same same same same same same same same same same (.inl (hT _ (by decide))) same same same same same
  assumption


theorem follows_takeBlocks {T : Part → Bool} {s0 s : State} {a1 : Cmd} {a2 : List Bytes} (hT : ∀ p ∈ ([.hiu] : List Part), T p = true) (h : Follows T s0 s) : Follows T s0 (takeBlocks s a1 a2) := by
  unfold takeBlocks
  try extract_lets (merge := false) (underBinder := false) +onlyGivenNames bs1
  try clear_value bs1
  refine follows_setCmd (sub hT (by decide)) ?_
  assumption


theorem follows_execForwardedCommandReceive {T : Part → Bool} {s0 s : State} {a0 : Forwarded} (hT : ∀ p ∈ ([.hiu] : List Part), T p = true) (h : Follows T s0 s) : Answers (Follows T s0) (execForwardedCommandReceive a0 s) := by
  unfold execForwardedCommandReceive
  split
  · refine ⟨_, rfl, ?_⟩
    assumption
  · split
    · split
      · refine ⟨_, rfl, ?_⟩
        refine upd_hiu (hT _ (by decide)) ?_
        assumption
      · refine ⟨_, rfl, ?_⟩
        assumption
    · split
      · split
        · refine ⟨_, rfl, ?_⟩
          refine follows_takeBlocks (sub hT (by decide)) ?_
          assumption
        · refine ⟨_, rfl, ?_⟩
          assumption
      · split
        · refine ⟨_, rfl, ?_⟩
          refine follows_setCmd (sub hT (by decide)) ?_
          assumption
        · refine ⟨_, rfl, ?_⟩
          assumption


theorem follows_execForwardedCompletionReceive {T : Part → Bool} {s0 s : State} {a0 : CmdRef} {a1 : Status} {a2 : Dword} {a3 : Bytes} (hT : ∀ p ∈ ([.cnt, .bays, .ports, .out, .rdc, .wrc, .cal, .qre, .hiu, .bdy] : List Part), T p = true) (h : Follows T s0 s) : Answers (Follows T s0) (execForwardedCompletionReceive a0 a1 a2 a3 s) := by
  unfold execForwardedCompletionReceive
  split
  · refine ⟨_, rfl, ?_⟩
    assumption
  · split
    · refine ⟨_, rfl, ?_⟩
      refine follows_flushStep (sub hT (by decide)) ?_
      refine follows_setCmd (sub hT (by decide)) ?_
      assumption
    · split
      · refine ⟨_, rfl, ?_⟩
        refine follows_complete (sub hT (by decide)) ?_
        assumption
      · refine ⟨_, rfl, ?_⟩
        assumption


theorem follows_execPeerLeafRequest {T : Part → Bool} {s0 s : State} {a0 : Nat} {a1 : Fin 16} {a2 : Fin 16} (hT : ∀ p ∈ ([.out, .qre] : List Part), T p = true) (h : Follows T s0 s) : Answers (Follows T s0) (execPeerLeafRequest a0 a1 a2 s) := by
  unfold execPeerLeafRequest
  dsimp only
  generalize ((quireAt s a0).any (fun (q : Quire) => q.kind == 3)) = dir
  generalize (if dir = true then 3 else 0) = k
  split
  · exact ⟨_, rfl, follows_send (sub hT (by decide)) h⟩
  · have hs : Follows T s0 (send (sendPointer (takeFrame s a2 dir).1 a2) (.leafReply a0 a1 (takeFrame s a2 dir).2.1 (takeFrame s a2 dir).2.2.1 (takeFrame s a2 dir).2.2.2)) :=
      follows_send (sub hT (by decide)) (follows_sendPointer (sub hT (by decide)) (follows_takeFrame (sub hT (by decide)) h))
    generalize send (sendPointer (takeFrame s a2 dir).1 a2) _ = u at hs ⊢
    split
    · exact ⟨_, rfl, follows_setQuire (sub hT (by decide)) hs⟩
    · exact ⟨_, rfl, hs⟩


theorem follows_execPeerLeafReply {T : Part → Bool} {s0 s : State} {a0 : Nat} {a1 : Fin 16} {a2 : Fin 16} {a3 : Nat} {a4 : Nat} (hT : ∀ p ∈ ([.out, .qre] : List Part), T p = true) (h : Follows T s0 s) : Answers (Follows T s0) (execPeerLeafReply a0 a1 a2 a3 a4 s) := by
  unfold execPeerLeafReply
  split
  · refine ⟨_, rfl, ?_⟩
    assumption
  · try extract_lets (merge := false) (underBinder := false) +onlyGivenNames l1
    try clear_value l1
    split
    · refine ⟨_, rfl, ?_⟩
      assumption
    · refine ⟨_, rfl, ?_⟩
      refine follows_sendQuire (sub hT (by decide)) ?_
      refine follows_setQuire (sub hT (by decide)) ?_
      assumption


theorem follows_execPeerLeafVerdict {T : Part → Bool} {s0 s : State} {a0 : Nat} {a1 : Fin 16} {a2 : Bool} {a3 : Bool} (hT : ∀ p ∈ ([.free, .cnt, .bays, .ports, .out, .rdc, .wrc, .cal, .qre, .hiu, .cph, .bdy] : List Part), T p = true) (h : Follows T s0 s) : Answers (Follows T s0) (execPeerLeafVerdict a0 a1 a2 a3 s) := by
  unfold execPeerLeafVerdict
  split
  · refine ⟨_, rfl, ?_⟩
    assumption
  · try extract_lets (merge := false) (underBinder := false) +onlyGivenNames l1
    try clear_value l1
    split
    · refine ⟨_, rfl, ?_⟩
      assumption
    · split
      · refine ⟨_, rfl, ?_⟩
        refine follows_leafVerified (sub hT (by decide)) ?_
        assumption
      · refine ⟨_, rfl, ?_⟩
        refine follows_checkAbandoned (sub hT (by decide)) ?_
        refine follows_abandonLeaf (sub hT (by decide)) ?_
        assumption


theorem follows_stageReport {T : Part → Bool} {s0 s : State} {a1 : BitVec 384} {a2 : Bool} {a3 : Nat} (hT : ∀ p ∈ ([.out, .bnd] : List Part), T p = true) (h : Follows T s0 s) : Follows T s0 (stageReport s a1 a2 a3) := by
  unfold stageReport
  try extract_lets (merge := false) (underBinder := false) +onlyGivenNames hit1
  try clear_value hit1
  try extract_lets (merge := false) (underBinder := false) +onlyGivenNames again2
  have hfnagain : ∀  a0_0 u, Follows T s0 u → Follows T s0 (again2 a0_0 u) := by
    intro  a0_0 u hu
    unfold again2
    split
    · split
      · refine follows_send (sub hT (by decide)) ?_
        assumption
      · split
        · refine follows_send (sub hT (by decide)) ?_
          assumption
        · assumption
    · assumption
  try clear_value again2
  extract_lets (merge := false) (underBinder := false) +onlyGivenNames j3_0 s3
  have hs3 : Follows T s0 s3 := by
    unfold s3
    split
    · refine hfnagain _ _ ?_
      refine upd_bnd (hT _ (by decide)) rfl ?_
      assumption
    · assumption
  clear_value s3
  split
  · refine hfnagain _ _ ?_
    refine upd_bnd (hT _ (by decide)) rfl ?_
    assumption
  · assumption


theorem follows_recordedTransition {T : Part → Bool} {s0 s : State} {a1 : Bytes} (hT : ∀ p ∈ ([.free, .regs, .splitLatch, .hostRead, .cnt, .tck, .pwr, .bays, .ports, .spn, .out, .cells, .units, .bus, .axes, .rdc, .wrc, .cal, .qre, .hiu, .cmd, .mem, .kst, .cph, .bdy, .bnd] : List Part), T p = true) (h : Follows T s0 s) : Follows T s0 (recordedTransition s a1) := by
  unfold recordedTransition
  split
  · refine follows_transit (sub hT (by decide)) ?_
    refine upd_kst (hT _ (by decide)) rfl ?_
    assumption
  · assumption


theorem follows_surfaceNoted {T : Part → Bool} {s0 s : State} {a1 : Nat} {a2 : Bool} {a3 : Bool} {a4 : Bool} (hT : ∀ p ∈ ([.free, .cnt, .bays, .ports, .out, .rdc, .wrc, .cal, .qre, .hiu, .cph, .bdy] : List Part), T p = true) (h : Follows T s0 s) : Follows T s0 (surfaceNoted s a1 a2 a3 a4) := by
  unfold surfaceNoted
  split
  · assumption
  · try extract_lets (merge := false) (underBinder := false) +onlyGivenNames x1
    try clear_value x1
    extract_lets (merge := false) (underBinder := false) +onlyGivenNames j2_0 s2
    have hs2 : Follows T s0 s2 := by
      unfold s2
      refine follows_setSurfW (sub hT (by decide)) ?_
      refine follows_setSurf (sub hT (by decide)) ?_
      assumption
    clear_value s2
    extract_lets (merge := false) (underBinder := false) +onlyGivenNames s3
    have hs3 : Follows T s0 s3 := by
      unfold s3
      split
      · refine follows_foldl ?_ ?_
        · assumption
        · intro u4 a4 hu4
          refine follows_queueRebuild (sub hT (by decide)) ?_
          assumption
      · assumption
    clear_value s3
    refine follows_checkVolume (sub hT (by decide)) ?_
    assumption


theorem follows_execManagementPacketReceive {T : Part → Bool} {s0 s : State} {a0 : MgmtMsg} (hT : ∀ p ∈ ([.free, .regs, .splitLatch, .hostRead, .cnt, .tck, .pwr, .bays, .ports, .spn, .out, .cells, .units, .bus, .axes, .rdc, .wrc, .cal, .qre, .hiu, .cmd, .mem, .kst, .cph, .bdy, .bnd] : List Part), T p = true) (h : Follows T s0 s) : Answers (Follows T s0) (execManagementPacketReceive a0 s) := by
  unfold execManagementPacketReceive
  split
  · refine ⟨_, rfl, ?_⟩
    assumption
  · split
    · refine ⟨_, rfl, ?_⟩
      refine follows_stageReport (sub hT (by decide)) ?_
      assumption
    · split
      · refine ⟨_, rfl, ?_⟩
        assumption
      · refine ⟨_, rfl, ?_⟩
        refine follows_beginCheck (sub hT (by decide)) ?_
        assumption
    · refine ⟨_, rfl, ?_⟩
      refine follows_armRefused (sub hT (by decide)) ?_
      assumption
    · refine ⟨_, rfl, ?_⟩
      refine follows_dropBoth (sub hT (by decide)) ?_
      assumption
    · split
      · refine ⟨_, rfl, ?_⟩
        refine follows_setResult (sub hT (by decide)) ?_
        refine follows_dropWhere (sub hT (by decide)) ?_
        assumption
      · refine ⟨_, rfl, ?_⟩
        assumption
    · refine ⟨_, rfl, ?_⟩
      refine follows_putNs (sub hT (by decide)) ?_
      assumption
    · refine ⟨_, rfl, ?_⟩
      refine follows_foldl ?_ ?_
      · assumption
      · intro u1 a1 hu1
        refine follows_dropNs (sub hT (by decide)) ?_
        assumption
    · refine ⟨_, rfl, ?_⟩
      refine follows_attachNs (sub hT (by decide)) ?_
      assumption
    · refine ⟨_, rfl, ?_⟩
      refine upd_hiu (hT _ (by decide)) ?_
      assumption
    · refine ⟨_, rfl, ?_⟩
      refine follows_foldl ?_ ?_
      · assumption
      · intro u2 a2 hu2
        split
        · refine follows_withhold (sub hT (by decide)) ?_
          assumption
        · assumption
    · split
      · refine ⟨_, rfl, ?_⟩
        refine follows_recordedTransition (sub hT (by decide)) ?_
        assumption
      · split
        · refine ⟨_, rfl, ?_⟩
          refine follows_armTransition (sub hT (by decide)) ?_
          assumption
        · refine ⟨_, rfl, ?_⟩
          assumption
    · refine ⟨_, rfl, ?_⟩
      refine follows_askSnapshot (sub hT (by decide)) ?_
      assumption
    · extract_lets (merge := false) (underBinder := false) +onlyGivenNames x3
      have hx3 : FollowsFst T s0 x3 := by
        unfold x3
        refine follows_modeSetHere (sub hT (by decide)) ?_
        assumption
      clear_value x3
      refine ⟨_, rfl, ?_⟩
      refine follows_send (sub hT (by decide)) ?_
      refine follows_fst ?_
      assumption
    · refine ⟨_, rfl, ?_⟩
      refine follows_setMode (sub hT (by decide)) ?_
      refine follows_setBay (sub hT (by decide)) ?_
      assumption
    · extract_lets (merge := false) (underBinder := false) +onlyGivenNames x4
      have hx4 : FollowsFst T s0 x4 := by
        unfold x4
        refine follows_bayHere (sub hT (by decide)) ?_
        assumption
      clear_value x4
      refine ⟨_, rfl, ?_⟩
      refine follows_send (sub hT (by decide)) ?_
      refine follows_fst ?_
      assumption
    · refine ⟨_, rfl, ?_⟩
      refine follows_applyBay (sub hT (by decide)) ?_
      assumption
    · refine ⟨_, rfl, ?_⟩
      split
      · exact follows_getD (follows_mountVolume (sub hT (by decide)) h) h
      · assumption
    · refine ⟨_, rfl, ?_⟩
      split
      · refine follows_closeVolume (sub hT (by decide)) ?_
        assumption
      · assumption
    · refine ⟨_, rfl, ?_⟩
      refine follows_beginUnmount (sub hT (by decide)) ?_
      assumption
    · refine ⟨_, rfl, ?_⟩
      refine follows_finishUnmount (sub hT (by decide)) ?_
      refine upd_qre (hT _ (by decide)) ?_
      assumption
    · refine ⟨_, rfl, ?_⟩
      refine follows_surfaceNoted (sub hT (by decide)) ?_
      assumption
    · refine ⟨_, rfl, ?_⟩
      split
      · refine follows_queueRebuild (sub hT (by decide)) ?_
        assumption
      · assumption


theorem follows_execSpineLaneRestore {T : Part → Bool} {s0 s : State} {a0 : Fin 8} (hT : ∀ p ∈ ([.spn] : List Part), T p = true) (h : Follows T s0 s) : Answers (Follows T s0) (execSpineLaneRestore a0 s) := by
  unfold execSpineLaneRestore
  refine ⟨_, rfl, ?_⟩
  refine upd_spn (hT _ (by decide)) ?_
  assumption


end Sys2Proof.Machine
end

