-- ==== Sys2Proof/Laws/FollowsRegisters.lean ====
section
/-! SUPPORT. What the operations of Machine/Registers.lean keep: the queue, the canonical form of the sorted stores, the ingest sequence. -/

namespace Sys2Proof.Machine

theorem follows_clrCnt {T : Part → Bool} {s0 s : State} {a1 : Nat} {a2 : Bool} (hT : ∀ p ∈ ([.cnt] : List Part), T p = true) (h : Follows T s0 s) : Follows T s0 (clrCnt s a1 a2) := by
  unfold clrCnt
  split
  · refine follows_clearCounters (sub hT (by decide)) ?_
    assumption
  · assumption


theorem follows_storeReg {T : Part → Bool} {s0 s : State} {a1 : RegRow} {a2 : Nat} {a3 : Nat} (hT : ∀ p ∈ ([.regs] : List Part), T p = true) (h : Follows T s0 s) : Follows T s0 (storeReg s a1 a2 a3) := by
  unfold storeReg
  try extract_lets (merge := false) (underBinder := false) +onlyGivenNames w1
  try clear_value w1
  split
  · refine follows_setReg (sub hT (by decide)) ?_
    assumption
  · assumption


theorem follows_writeSnapCtl {T : Part → Bool} {s0 s : State} {a1 : RegRow} {a2 : Nat} (hT : ∀ p ∈ ([.regs, .tck, .out] : List Part), T p = true) (h : Follows T s0 s) : Follows T s0 (writeSnapCtl s a1 a2) := by
  unfold writeSnapCtl
  extract_lets (merge := false) (underBinder := false) +onlyGivenNames s1
  have hs1 : Follows T s0 s1 := by
    unfold s1
    refine follows_storeReg (sub hT (by decide)) ?_
    assumption
  clear_value s1
  extract_lets (merge := false) (underBinder := false) +onlyGivenNames s2
  have hs2 : Follows T s0 s2 := by
    unfold s2
    split
    · refine follows_releaseSnapshot (sub hT (by decide)) ?_
      assumption
    · assumption
  clear_value s2
  split
  · refine follows_requestSnapshot (sub hT (by decide)) ?_
    assumption
  · assumption


theorem follows_writeSpnCtl {T : Part → Bool} {s0 s : State} {a1 : RegRow} {a2 : Nat} (hT : ∀ p ∈ ([.regs, .cnt, .spn] : List Part), T p = true) (h : Follows T s0 s) : Follows T s0 (writeSpnCtl s a1 a2) := by
  unfold writeSpnCtl
  refine follows_askResync (sub hT (by decide)) ?_
  refine follows_askReturn (sub hT (by decide)) ?_
  refine follows_storeReg (sub hT (by decide)) ?_
  refine follows_clrCnt (sub hT (by decide)) ?_
  assumption


theorem follows_writeCellCtl {T : Part → Bool} {s0 s : State} {a1 : Src} {a2 : Nat} {a3 : Nat} (hT : ∀ p ∈ ([.spn, .cells] : List Part), T p = true) (h : Follows T s0 s) : Follows T s0 (writeCellCtl s a1 a2 a3) := by
  unfold writeCellCtl
  try extract_lets (merge := false) (underBinder := false) +onlyGivenNames arg1
  try clear_value arg1
  try extract_lets (merge := false) (underBinder := false) +onlyGivenNames c2
  try clear_value c2
  split
  · refine follows_acceptCell (sub hT (by decide)) ?_
    assumption
  · refine follows_acceptCell (sub hT (by decide)) ?_
    assumption
  · refine follows_acceptCell (sub hT (by decide)) ?_
    assumption
  · refine follows_acceptCell (sub hT (by decide)) ?_
    assumption
  · refine follows_acceptCell (sub hT (by decide)) ?_
    assumption
  · assumption


theorem follows_writeUnitCtl {T : Part → Bool} {s0 s : State} {a1 : Src} {a2 : Nat} {a3 : Nat} (hT : ∀ p ∈ ([.spn, .units] : List Part), T p = true) (h : Follows T s0 s) : Follows T s0 (writeUnitCtl s a1 a2 a3) := by
  unfold writeUnitCtl
  split
  · refine follows_acceptUnit (sub hT (by decide)) ?_
    assumption
  · refine follows_acceptUnit (sub hT (by decide)) ?_
    assumption
  · refine follows_acceptUnit (sub hT (by decide)) ?_
    assumption
  · refine follows_acceptUnit (sub hT (by decide)) ?_
    assumption
  · assumption


theorem follows_writeUnit {T : Part → Bool} {s0 s : State} {a1 : RegRow} {a2 : Nat} {a3 : Nat} {a4 : Nat} (hT : ∀ p ∈ ([.spn, .units] : List Part), T p = true) (h : Follows T s0 s) : Follows T s0 (writeUnit s a1 a2 a3 a4) := by
  unfold writeUnit
  try extract_lets (merge := false) (underBinder := false) +onlyGivenNames w1
  try clear_value w1
  try extract_lets (merge := false) (underBinder := false) +onlyGivenNames u2
  try clear_value u2
  split
  · assumption
  · split
    · refine follows_unitResult (sub hT (by decide)) ?_
      assumption
    · split
      · refine follows_unitResult (sub hT (by decide)) ?_
        assumption
      · try extract_lets (merge := false) (underBinder := false) +onlyGivenNames e3
        try clear_value e3
        extract_lets (merge := false) (underBinder := false) +onlyGivenNames s4
        have hs4 : Follows T s0 s4 := by
          unfold s4
          refine follows_setUnit (sub hT (by decide)) ?_
          assumption
        clear_value s4
        split
        · refine follows_issue (sub hT (by decide)) ?_
          assumption
        · assumption


theorem follows_writeAxisCtl {T : Part → Bool} {s0 s : State} {a1 : Src} {a2 : Nat} {a3 : Nat} (hT : ∀ p ∈ ([.spn, .axes] : List Part), T p = true) (h : Follows T s0 s) : Follows T s0 (writeAxisCtl s a1 a2 a3) := by
  unfold writeAxisCtl
  try extract_lets (merge := false) (underBinder := false) +onlyGivenNames op1
  try clear_value op1
  split
  · assumption
  · refine follows_acceptAxis (sub hT (by decide)) ?_
    assumption


theorem follows_writeAxis {T : Part → Bool} {s0 s : State} {a1 : RegRow} {a2 : Nat} {a3 : Nat} {a4 : Nat} (hT : ∀ p ∈ ([.spn, .axes] : List Part), T p = true) (h : Follows T s0 s) : Follows T s0 (writeAxis s a1 a2 a3 a4) := by
  unfold writeAxis
  try extract_lets (merge := false) (underBinder := false) +onlyGivenNames w1
  try clear_value w1
  try extract_lets (merge := false) (underBinder := false) +onlyGivenNames a2
  try clear_value a2
  split
  · refine follows_axisResult (sub hT (by decide)) ?_
    assumption
  · split
    · refine follows_axisResult (sub hT (by decide)) ?_
      assumption
    · try extract_lets (merge := false) (underBinder := false) +onlyGivenNames e3
      try clear_value e3
      extract_lets (merge := false) (underBinder := false) +onlyGivenNames s4
      have hs4 : Follows T s0 s4 := by
        unfold s4
        refine follows_setAxis (sub hT (by decide)) ?_
        assumption
      clear_value s4
      split
      · refine follows_issue (sub hT (by decide)) ?_
        assumption
      · assumption


theorem follows_writeQreCtl {T : Part → Bool} {s0 s : State} {a1 : RegRow} {a2 : Nat} (hT : ∀ p ∈ ([.free, .regs, .cnt, .bays, .ports, .out, .rdc, .wrc, .cal, .qre, .hiu, .cph, .bdy] : List Part), T p = true) (h : Follows T s0 s) : Follows T s0 (writeQreCtl s a1 a2) := by
  unfold writeQreCtl
  extract_lets (merge := false) (underBinder := false) +onlyGivenNames s1
  have hs1 : Follows T s0 s1 := by
    unfold s1
    refine follows_storeReg (sub hT (by decide)) ?_
    refine follows_clrCnt (sub hT (by decide)) ?_
    assumption
  clear_value s1
  extract_lets (merge := false) (underBinder := false) +onlyGivenNames s2
  have hs2 : Follows T s0 s2 := by
    unfold s2
    split
    · refine follows_fileNow (sub hT (by decide)) ?_
      assumption
    · assumption
  clear_value s2
  extract_lets (merge := false) (underBinder := false) +onlyGivenNames s3
  have hs3 : Follows T s0 s3 := by
    unfold s3
    split
    · refine follows_beginMount (sub hT (by decide)) ?_
      assumption
    · assumption
  clear_value s3
  split
  · refine follows_askUnmount (sub hT (by decide)) ?_
    assumption
  · assumption


theorem follows_writeKstCtl {T : Part → Bool} {s0 s : State} {a1 : Nat} (hT : ∀ p ∈ ([.cnt, .out, .kst, .bdy] : List Part), T p = true) (h : Follows T s0 s) : Follows T s0 (writeKstCtl s a1) := by
  unfold writeKstCtl
  extract_lets (merge := false) (underBinder := false) +onlyGivenNames s1
  have hs1 : Follows T s0 s1 := by
    unfold s1
    refine follows_clrCnt (sub hT (by decide)) ?_
    assumption
  clear_value s1
  extract_lets (merge := false) (underBinder := false) +onlyGivenNames s2
  have hs2 : Follows T s0 s2 := by
    unfold s2
    split
    · refine follows_importKey (sub hT (by decide)) ?_
      assumption
    · assumption
  clear_value s2
  split
  · refine follows_clearSlot (sub hT (by decide)) ?_
    assumption
  · assumption


theorem follows_writeBndCtl {T : Part → Bool} {s0 s : State} {a1 : Nat} (hT : ∀ p ∈ ([.out, .bnd] : List Part), T p = true) (h : Follows T s0 s) : Follows T s0 (writeBndCtl s a1) := by
  unfold writeBndCtl
  extract_lets (merge := false) (underBinder := false) +onlyGivenNames s1
  have hs1 : Follows T s0 s1 := by
    unfold s1
    split
    · refine follows_abortAll (sub hT (by decide)) ?_
      assumption
    · assumption
  clear_value s1
  split
  · refine follows_checkWindow (sub hT (by decide)) ?_
    assumption
  · split
    · refine follows_fst ?_
      refine follows_arm (sub hT (by decide)) ?_
      assumption
    · assumption


theorem follows_writeReg {T : Part → Bool} {s0 s : State} {a1 : Src} {a2 : RegRow} {a3 : Nat} {a4 : Nat} (hT : ∀ p ∈ ([.free, .regs, .cnt, .tck, .pwr, .bays, .ports, .spn, .out, .cells, .units, .axes, .rdc, .wrc, .cal, .qre, .hiu, .mem, .kst, .cph, .bdy, .bnd] : List Part), T p = true) (h : Follows T s0 s) : Follows T s0 (writeReg s a1 a2 a3 a4) := by
  unfold writeReg
  split
  · refine follows_clrCnt (sub hT (by decide)) ?_
    assumption
  · split
    · refine follows_postMail (sub hT (by decide)) ?_
      assumption
    · assumption
  · refine follows_stores h rfl ?_ rfl rfl (frame_one (hT _ (by decide)) same_bdy)
    rintro ⟨h1, h2, h3, h4, h5⟩
    exact ⟨h1, h2, h3, wfT_winWrite h4, h5⟩
  · refine follows_clrCnt (sub hT (by decide)) ?_
    assumption
  · refine follows_writeSnapCtl (sub hT (by decide)) ?_
    assumption
  · refine follows_clrCnt (sub hT (by decide)) ?_
    assumption
  · refine upd_pwr (hT _ (by decide)) ?_
    assumption
  · refine follows_clrCnt (sub hT (by decide)) ?_
    assumption
  · refine follows_writeSpnCtl (sub hT (by decide)) ?_
    assumption
  · refine follows_clrCnt (sub hT (by decide)) ?_
    assumption
  · refine follows_writeCellCtl (sub hT (by decide)) ?_
    assumption
  · refine follows_clrCnt (sub hT (by decide)) ?_
    assumption
  · refine follows_writeUnitCtl (sub hT (by decide)) ?_
    assumption
  · refine follows_writeUnit (sub hT (by decide)) ?_
    assumption
  · refine follows_writeUnit (sub hT (by decide)) ?_
    assumption
  · refine follows_writeUnit (sub hT (by decide)) ?_
    assumption
  · refine follows_writeUnit (sub hT (by decide)) ?_
    assumption
  · refine follows_writeUnit (sub hT (by decide)) ?_
    assumption
  · refine follows_writeUnit (sub hT (by decide)) ?_
    assumption
  · refine follows_clrCnt (sub hT (by decide)) ?_
    assumption
  · refine follows_writeAxisCtl (sub hT (by decide)) ?_
    assumption
  · refine follows_writeAxis (sub hT (by decide)) ?_
    assumption
  · refine follows_writeAxis (sub hT (by decide)) ?_
    assumption
  · refine follows_writeAxis (sub hT (by decide)) ?_
    assumption
  · refine follows_writeAxis (sub hT (by decide)) ?_
    assumption
  · refine follows_writeAxis (sub hT (by decide)) ?_
    assumption
  · refine follows_writeAxis (sub hT (by decide)) ?_
    assumption
  · refine follows_writeAxis (sub hT (by decide)) ?_
    assumption
  · refine follows_writeAxis (sub hT (by decide)) ?_
    assumption
  · refine follows_storeReg (sub hT (by decide)) ?_
    refine follows_clrCnt (sub hT (by decide)) ?_
    assumption
  · refine follows_clearLaser (sub hT (by decide)) ?_
    refine follows_clrCnt (sub hT (by decide)) ?_
    assumption
  · refine follows_writeQreCtl (sub hT (by decide)) ?_
    assumption
  · split
    · refine follows_clearFail (sub hT (by decide)) ?_
      assumption
    · assumption
  · refine follows_clrCnt (sub hT (by decide)) ?_
    assumption
  · refine follows_writeKstCtl (sub hT (by decide)) ?_
    assumption
  · refine follows_stores h rfl ?_ rfl rfl (frame_one (hT _ (by decide)) same_kst)
    rintro ⟨h1, h2, h3, h4, h5, h6, h7⟩
    exact ⟨h1, h2, h3, h4, h5, wfT_winWrite h6, h7⟩
  · refine follows_storeReg (sub hT (by decide)) ?_
    refine follows_clrCnt (sub hT (by decide)) ?_
    assumption
  · refine follows_writeInjCtl (sub hT (by decide)) ?_
    assumption
  · split
    · assumption
    · refine follows_storeReg (sub hT (by decide)) ?_
      assumption
  · split
    · assumption
    · refine follows_storeReg (sub hT (by decide)) ?_
      assumption
  · refine follows_writeMcLock (sub hT (by decide)) ?_
    assumption
  · refine follows_clrCnt (sub hT (by decide)) ?_
    assumption
  · refine follows_storeReg (sub hT (by decide)) ?_
    refine follows_clrCnt (sub hT (by decide)) ?_
    assumption
  · refine follows_requestCal (sub hT (by decide)) ?_
    assumption
  · refine follows_writeBndCtl (sub hT (by decide)) ?_
    assumption
  · refine follows_stores h rfl ?_ rfl rfl (frame_one (hT _ (by decide)) same_bnd)
    rintro ⟨h1, h2, h3, h4, h5, h6, h7⟩
    exact ⟨h1, h2, h3, h4, h5, h6, wfT_winWrite h7⟩
  · split
    · assumption
    · refine follows_storeReg (sub hT (by decide)) ?_
      assumption



theorem follows_writeBar {T : Part → Bool} {s0 s : State} {a1 : Src} {a2 : Nat} {a3 : Nat} {a4 : Nat} (hT : ∀ p ∈ ([.free, .regs, .cnt, .tck, .pwr, .bays, .ports, .spn, .out, .cells, .units, .axes, .rdc, .wrc, .cal, .qre, .hiu, .mem, .kst, .cph, .bdy, .bnd] : List Part), T p = true) (h : Follows T s0 s) : Follows T s0 (writeBar s a1 a2 a3 a4) := by
  unfold writeBar
  split
  · split
    · refine follows_writeReg (sub hT (by decide)) ?_
      assumption
    · assumption
  · assumption


theorem follows_execDomainRequest {T : Part → Bool} {s0 s : State} {a0 : Word} {a1 : Word} {a2 : Dword} {a3 : Byte} (hT : ∀ p ∈ ([.free, .regs, .cnt, .tck, .pwr, .bays, .ports, .spn, .out, .cells, .units, .axes, .rdc, .wrc, .cal, .qre, .hiu, .mem, .kst, .cph, .bdy, .bnd] : List Part), T p = true) (h : Follows T s0 s) : Answers (Follows T s0) (execDomainRequest a0 a1 a2 a3 s) := by
  unfold execDomainRequest
  split
  · refine ⟨_, rfl, ?_⟩
    assumption
  · split
    · refine ⟨_, rfl, ?_⟩
      refine follows_respond (sub hT (by decide)) ?_
      assumption
    · refine ⟨_, rfl, ?_⟩
      refine follows_respond (sub hT (by decide)) ?_
      refine follows_writeBar (sub hT (by decide)) ?_
      assumption


theorem follows_readEffect {T : Part → Bool} {s0 s : State} {a1 : RegId} {a2 : Nat} (hT : ∀ p ∈ ([.free, .hostRead, .kst, .bdy] : List Part), T p = true) (h : Follows T s0 s) : Follows T s0 (readEffect s a1 a2) := by
  unfold readEffect
  split
  · refine follows_drawNonce (sub hT (by decide)) ?_
    assumption
  · split
    · refine upd_bdy (hT _ (by decide)) rfl rfl ?_
      assumption
    · assumption
  · assumption


theorem follows_readBar_readLive {T : Part → Bool} {s0 s : State} {a1 : Nat} {a2 : Nat} (hT : ∀ p ∈ ([.free, .splitLatch, .hostRead, .kst, .bdy] : List Part), T p = true) (h : Follows T s0 s) : FollowsFst T s0 (readBar.readLive s a1 a2) := by
  unfold readBar.readLive
  split
  · split
    · extract_lets (merge := false) (underBinder := false) +onlyGivenNames t1
      have ht1 : Follows T s0 t1 := by
        unfold t1
        refine follows_readEffect (sub hT (by decide)) ?_
        assumption
      clear_value t1
      refine follows_pair ?_
      assumption
    · split
      · extract_lets (merge := false) (underBinder := false) +onlyGivenNames t2
        have ht2 : Follows T s0 t2 := by
          unfold t2
          refine follows_readEffect (sub hT (by decide)) ?_
          assumption
        clear_value t2
        try extract_lets (merge := false) (underBinder := false) +onlyGivenNames v3
        try clear_value v3
        refine follows_pair ?_
        refine upd_splitLatch (hT _ (by decide)) ?_
        assumption
      · refine follows_pair ?_
        assumption
  · split
    · refine follows_pair ?_
      assumption
    · split
      · split
        · extract_lets (merge := false) (underBinder := false) +onlyGivenNames t4
          have ht4 : Follows T s0 t4 := by
            unfold t4
            refine follows_readEffect (sub hT (by decide)) ?_
            assumption
          clear_value t4
          refine follows_pair ?_
          assumption
        · refine follows_pair ?_
          assumption
      · refine follows_pair ?_
        assumption


theorem follows_readBar {T : Part → Bool} {s0 s : State} {a1 : Nat} {a2 : Nat} (hT : ∀ p ∈ ([.free, .splitLatch, .hostRead, .kst, .bdy] : List Part), T p = true) (h : Follows T s0 s) : FollowsFst T s0 (readBar s a1 a2) := by
  unfold readBar
  split
  · split
    · refine follows_pair ?_
      refine upd_splitLatch (hT _ (by decide)) ?_
      assumption
    · refine follows_readBar_readLive (sub hT (by decide)) ?_
      refine upd_splitLatch (hT _ (by decide)) ?_
      assumption
  · refine follows_readBar_readLive (sub hT (by decide)) ?_
    assumption


theorem follows_execSplitReadLatch {T : Part → Bool} {s0 s : State} {a0 : Nat} {a1 : Nat} (hT : ∀ p ∈ ([.free, .splitLatch, .hostRead, .kst, .bdy] : List Part), T p = true) (h : Follows T s0 s) : Answers (Follows T s0) (execSplitReadLatch a0 a1 s) := by
  unfold execSplitReadLatch
  extract_lets (merge := false) (underBinder := false) +onlyGivenNames x1
  have hx1 : FollowsFst T s0 x1 := by
    unfold x1
    refine follows_readBar (sub hT (by decide)) ?_
    assumption
  clear_value x1
  refine ⟨_, rfl, ?_⟩
  extract_lets (merge := false) (underBinder := false) +onlyGivenNames __src2
  have h__src2 : Follows T s0 __src2 := by
    unfold __src2
    refine follows_fst ?_
    assumption
  clear_value __src2
  refine upd_hostRead (hT _ (by decide)) ?_
  assumption


theorem follows_execRegisterWrite {T : Part → Bool} {s0 s : State} {a0 : Nat} {a1 : Nat} {a2 : Dword} (hT : ∀ p ∈ ([.free, .regs, .cnt, .tck, .pwr, .bays, .ports, .spn, .out, .cells, .units, .axes, .rdc, .wrc, .cal, .qre, .hiu, .mem, .kst, .cph, .bdy, .bnd] : List Part), T p = true) (h : Follows T s0 s) : Answers (Follows T s0) (execRegisterWrite a0 a1 a2 s) := by
  unfold execRegisterWrite
  split
  · refine ⟨_, rfl, ?_⟩
    assumption
  · refine ⟨_, rfl, ?_⟩
    refine follows_writeBar (sub hT (by decide)) ?_
    assumption


end Sys2Proof.Machine
end

