-- ==== Sys2Proof/Laws/FollowsDispatch.lean ====
section
/-! SUPPORT. What the operations of Machine/Dispatch.lean keep: the queue, the canonical form of the sorted stores, the ingest sequence. -/

namespace Sys2Proof.Machine

theorem follows_exec {T : Part → Bool} {s0 s : State} {a0 : Instr} (hT : ∀ p ∈ ([.free, .regs, .splitLatch, .hostRead, .cnt, .tck, .pwr, .bays, .ports, .bfes, .spn, .out, .cells, .units, .bus, .axes, .rdc, .wrc, .cal, .qre, .hiu, .cmd, .mem, .kst, .cph, .bdy, .bnd] : List Part), T p = true) (h : Follows T s0 s) : Answers (Follows T s0) (exec a0 s) := by
  unfold exec
  split
  · refine follows_execPowerOnReset (sub hT (by decide)) ?_
    assumption
  · refine follows_execWarmReset (sub hT (by decide)) ?_
    assumption
  · refine follows_execPerstN (sub hT (by decide)) ?_
    assumption
  · refine follows_execStitchEdge (sub hT (by decide)) ?_
    assumption
  · refine follows_execSampleFrameLand (sub hT (by decide)) ?_
    assumption
  · refine follows_execSampleFrameAbsent (sub hT (by decide)) ?_
    assumption
  · refine follows_execAbsentStop (sub hT (by decide)) ?_
    assumption
  · refine follows_execSpotPacket (sub hT (by decide)) ?_
    assumption
  · refine follows_execStitchOverrun (sub hT (by decide)) ?_
    assumption
  · refine follows_execPlausibilityAction (sub hT (by decide)) ?_
    assumption
  · refine follows_execAlignmentFault (sub hT (by decide)) ?_
    assumption
  · refine follows_execSnapshotRequest (sub hT (by decide)) ?_
    assumption
  · refine follows_execSnapshotCapture (sub hT (by decide)) ?_
    assumption
  · refine follows_execSnapshotRelease (sub hT (by decide)) ?_
    assumption
  · refine follows_execBindingLoad (sub hT (by decide)) ?_
    assumption
  · refine follows_execBndCheck (sub hT (by decide)) ?_
    assumption
  · refine follows_execBndAbort (sub hT (by decide)) ?_
    assumption
  · refine follows_execBndArm (sub hT (by decide)) ?_
    assumption
  · refine follows_execBindingActivate (sub hT (by decide)) ?_
    assumption
  · refine follows_execBindingCheckDone (sub hT (by decide)) ?_
    assumption
  · refine follows_execBindingPairTimeout (sub hT (by decide)) ?_
    assumption
  · refine follows_execTrimCommit (sub hT (by decide)) ?_
    assumption
  · refine follows_execStructuralCommit (sub hT (by decide)) ?_
    assumption
  · refine follows_execSrvClose (sub hT (by decide)) ?_
    assumption
  · refine follows_execSrvOpen (sub hT (by decide)) ?_
    assumption
  · refine follows_execSrvJump (sub hT (by decide)) ?_
    assumption
  · refine follows_execSrvSeek (sub hT (by decide)) ?_
    assumption
  · refine follows_execSrvOffset (sub hT (by decide)) ?_
    assumption
  · refine follows_execEffectStitchReached (sub hT (by decide)) ?_
    assumption
  · refine follows_execSearchTimeout (sub hT (by decide)) ?_
    assumption
  · refine follows_execJumpKickEnd (sub hT (by decide)) ?_
    assumption
  · refine follows_execJumpBrakeEnd (sub hT (by decide)) ?_
    assumption
  · refine follows_execJumpDwellEnd (sub hT (by decide)) ?_
    assumption
  · refine follows_execJumpSettleEnd (sub hT (by decide)) ?_
    assumption
  · refine follows_execJumpTimeout (sub hT (by decide)) ?_
    assumption
  · refine follows_execSeekKickEnd (sub hT (by decide)) ?_
    assumption
  · refine follows_execSeekCaptureWindowEnd (sub hT (by decide)) ?_
    assumption
  · refine follows_execSeekSettleEnd (sub hT (by decide)) ?_
    assumption
  · refine follows_execSeekTimeout (sub hT (by decide)) ?_
    assumption
  · refine follows_execHoldMaxExpiry (sub hT (by decide)) ?_
    assumption
  · refine follows_execHoldRelease (sub hT (by decide)) ?_
    assumption
  · refine follows_execRetractComplete (sub hT (by decide)) ?_
    assumption
  · refine follows_execSpdStart (sub hT (by decide)) ?_
    assumption
  · refine follows_execSpdStop (sub hT (by decide)) ?_
    assumption
  · refine follows_execSpdSpeed (sub hT (by decide)) ?_
    assumption
  · refine follows_execSpdClear (sub hT (by decide)) ?_
    assumption
  · refine follows_execSenseComplete (sub hT (by decide)) ?_
    assumption
  · refine follows_execAlignComplete (sub hT (by decide)) ?_
    assumption
  · refine follows_execRampTimeout (sub hT (by decide)) ?_
    assumption
  · refine follows_execStartBrakeEnd (sub hT (by decide)) ?_
    assumption
  · refine follows_execBackwardBrakeTimeout (sub hT (by decide)) ?_
    assumption
  · refine follows_execLossOfSync (sub hT (by decide)) ?_
    assumption
  · refine follows_execSpindleLock (sub hT (by decide)) ?_
    assumption
  · refine follows_execSpindleUnlock (sub hT (by decide)) ?_
    assumption
  · refine follows_execOverspeedFault (sub hT (by decide)) ?_
    assumption
  · refine follows_execStandstill (sub hT (by decide)) ?_
    assumption
  · refine follows_execShortBrakeComplete (sub hT (by decide)) ?_
    assumption
  · refine follows_execBusBlockClear (sub hT (by decide)) ?_
    assumption
  · refine follows_execBusTrip (sub hT (by decide)) ?_
    assumption
  · refine follows_execInertiaMeasured (sub hT (by decide)) ?_
    assumption
  · refine follows_execMotMove (sub hT (by decide)) ?_
    assumption
  · refine follows_execMotRampStop (sub hT (by decide)) ?_
    assumption
  · refine follows_execMotHardStop (sub hT (by decide)) ?_
    assumption
  · refine follows_execMotHome (sub hT (by decide)) ?_
    assumption
  · refine follows_execMotRelease (sub hT (by decide)) ?_
    assumption
  · refine follows_execMotEnergise (sub hT (by decide)) ?_
    assumption
  · refine follows_execMotClear (sub hT (by decide)) ?_
    assumption
  · refine follows_execHomingTimeout (sub hT (by decide)) ?_
    assumption
  · refine follows_execFollowMoveStart (sub hT (by decide)) ?_
    assumption
  · refine follows_execFolioReadRequest (sub hT (by decide)) ?_
    assumption
  · refine follows_execReadPassStart (sub hT (by decide)) ?_
    assumption
  · refine follows_execTimingLockLoss (sub hT (by decide)) ?_
    assumption
  · refine follows_execFolioReadEnd (sub hT (by decide)) ?_
    assumption
  · refine follows_execCodewordDispatch (sub hT (by decide)) ?_
    assumption
  · refine follows_execLdpcDecodeDone (sub hT (by decide)) ?_
    assumption
  · refine follows_execReadDeadlineExpiry (sub hT (by decide)) ?_
    assumption
  · refine follows_execReconstructionDone (sub hT (by decide)) ?_
    assumption
  · refine follows_execWriteRunStart (sub hT (by decide)) ?_
    assumption
  · refine follows_execEncoderUnderrun (sub hT (by decide)) ?_
    assumption
  · refine follows_execFolioVerdict (sub hT (by decide)) ?_
    assumption
  · refine follows_execLaserReeval (sub hT (by decide)) ?_
    assumption
  · refine follows_execQuireAgeTimeout (sub hT (by decide)) ?_
    assumption
  · refine follows_execJournalCommitDone (sub hT (by decide)) ?_
    assumption
  · refine follows_execDirectoryAgeTimeout (sub hT (by decide)) ?_
    assumption
  · refine follows_execFileNow (sub hT (by decide)) ?_
    assumption
  · refine follows_execMount (sub hT (by decide)) ?_
    assumption
  · refine follows_execMountCatalogueReadDone (sub hT (by decide)) ?_
    assumption
  · refine follows_execUnmount (sub hT (by decide)) ?_
    assumption
  · refine follows_execRebuildPause (sub hT (by decide)) ?_
    assumption
  · refine follows_execClearFail (sub hT (by decide)) ?_
    assumption
  · refine follows_execRebuildStart (sub hT (by decide)) ?_
    assumption
  · refine follows_execCalibrationRunStart (sub hT (by decide)) ?_
    assumption
  · refine follows_execCalibrationRunDone (sub hT (by decide)) ?_
    assumption
  · refine follows_execCalStep (sub hT (by decide)) ?_
    assumption
  · refine follows_execCalElapsedTimer (sub hT (by decide)) ?_
    assumption
  · refine follows_execCalReq (sub hT (by decide)) ?_
    assumption
  · refine follows_execLaneRetrain (sub hT (by decide)) ?_
    assumption
  · refine follows_execSqTailDoorbell (sub hT (by decide)) ?_
    assumption
  · refine follows_execCqHeadDoorbell (sub hT (by decide)) ?_
    assumption
  · refine follows_execControllerEnable (sub hT (by decide)) ?_
    assumption
  · refine follows_execControllerReset (sub hT (by decide)) ?_
    assumption
  · refine follows_execInterruptMaskSet (sub hT (by decide)) ?_
    assumption
  · refine follows_execInterruptMaskClear (sub hT (by decide)) ?_
    assumption
  · refine follows_execCommandFetch (sub hT (by decide)) ?_
    assumption
  · refine follows_execCommandAdmission (sub hT (by decide)) ?_
    assumption
  · refine follows_execWriteDataFetch (sub hT (by decide)) ?_
    assumption
  · refine follows_execBackpressureTimeout (sub hT (by decide)) ?_
    assumption
  · refine follows_execCipherBlockDone (sub hT (by decide)) ?_
    assumption
  · refine follows_execBlockDecryptDone (sub hT (by decide)) ?_
    assumption
  · refine follows_execWriteAckPoint (sub hT (by decide)) ?_
    assumption
  · refine follows_execRead (sub hT (by decide)) ?_
    assumption
  · refine follows_execWrite (sub hT (by decide)) ?_
    assumption
  · refine follows_execFlush (sub hT (by decide)) ?_
    assumption
  · refine follows_execVerify (sub hT (by decide)) ?_
    assumption
  · refine follows_execZoneAppend (sub hT (by decide)) ?_
    assumption
  · refine follows_execZoneOpen (sub hT (by decide)) ?_
    assumption
  · refine follows_execZoneClose (sub hT (by decide)) ?_
    assumption
  · refine follows_execZoneFinish (sub hT (by decide)) ?_
    assumption
  · refine follows_execZoneReset (sub hT (by decide)) ?_
    assumption
  · refine follows_execZoneOffline (sub hT (by decide)) ?_
    assumption
  · refine follows_execZoneSetDescriptorExtension (sub hT (by decide)) ?_
    assumption
  · refine follows_execZoneManagementReceive (sub hT (by decide)) ?_
    assumption
  · refine follows_execCreateIoSq (sub hT (by decide)) ?_
    assumption
  · refine follows_execCreateIoCq (sub hT (by decide)) ?_
    assumption
  · refine follows_execDeleteIoSq (sub hT (by decide)) ?_
    assumption
  · refine follows_execDeleteIoCq (sub hT (by decide)) ?_
    assumption
  · refine follows_execIdentify (sub hT (by decide)) ?_
    assumption
  · refine follows_execGetLogPage (sub hT (by decide)) ?_
    assumption
  · refine follows_execAbort (sub hT (by decide)) ?_
    assumption
  · refine follows_execSetFeatures (sub hT (by decide)) ?_
    assumption
  · refine follows_execGetFeatures (sub hT (by decide)) ?_
    assumption
  · refine follows_execAsyncEventRequest (sub hT (by decide)) ?_
    assumption
  · refine follows_execNamespaceCreate (sub hT (by decide)) ?_
    assumption
  · refine follows_execNamespaceDelete (sub hT (by decide)) ?_
    assumption
  · refine follows_execNamespaceAttachment (sub hT (by decide)) ?_
    assumption
  · refine follows_execFirmwareImageDownload (sub hT (by decide)) ?_
    assumption
  · refine follows_execFwCommitReplace (sub hT (by decide)) ?_
    assumption
  · refine follows_execFwCommitReplacePending (sub hT (by decide)) ?_
    assumption
  · refine follows_execFwCommitPending (sub hT (by decide)) ?_
    assumption
  · refine follows_execFwCommitActivate (sub hT (by decide)) ?_
    assumption
  · refine follows_execFetchPauseHandoff (sub hT (by decide)) ?_
    assumption
  · refine follows_execActivationTimeout (sub hT (by decide)) ?_
    assumption
  · refine follows_execMailboxPost (sub hT (by decide)) ?_
    assumption
  · refine follows_execMailboxFetch (sub hT (by decide)) ?_
    assumption
  · refine follows_execModeSet (sub hT (by decide)) ?_
    assumption
  · refine follows_execModeChangeEffect (sub hT (by decide)) ?_
    assumption
  · refine follows_execHoldWaitExpiry (sub hT (by decide)) ?_
    assumption
  · refine follows_execHoldReached (sub hT (by decide)) ?_
    assumption
  · refine follows_execBayReset (sub hT (by decide)) ?_
    assumption
  · refine follows_execLeaveSafeStop (sub hT (by decide)) ?_
    assumption
  · refine follows_execDiscLoaded (sub hT (by decide)) ?_
    assumption
  · refine follows_execPrepareExchange (sub hT (by decide)) ?_
    assumption
  · refine follows_execColophonRead (sub hT (by decide)) ?_
    assumption
  · refine follows_execBayBringupStep (sub hT (by decide)) ?_
    assumption
  · refine follows_execSpindleHandoff (sub hT (by decide)) ?_
    assumption
  · refine follows_execPowerWindow (sub hT (by decide)) ?_
    assumption
  · refine follows_execThermalShutdown (sub hT (by decide)) ?_
    assumption
  · refine follows_execThermalTrip (sub hT (by decide)) ?_
    assumption
  · refine follows_execPowerFailDetect (sub hT (by decide)) ?_
    assumption
  · refine follows_execVaultDone (sub hT (by decide)) ?_
    assumption
  · refine follows_execVaultReplayDone (sub hT (by decide)) ?_
    assumption
  · refine follows_execReplayedImageErase (sub hT (by decide)) ?_
    assumption
  · refine follows_execVaultEraseDone (sub hT (by decide)) ?_
    assumption
  · refine follows_execVaultGroupClose (sub hT (by decide)) ?_
    assumption
  · refine follows_execVaultCommitDone (sub hT (by decide)) ?_
    assumption
  · refine follows_execBurnisherLine (sub hT (by decide)) ?_
    assumption
  · refine follows_execFlipMaskArm (sub hT (by decide)) ?_
    assumption
  · refine follows_execMapCacheLock (sub hT (by decide)) ?_
    assumption
  · refine follows_execHeartbeatReceive (sub hT (by decide)) ?_
    assumption
  · refine follows_execHeartbeatMissing (sub hT (by decide)) ?_
    assumption
  · refine follows_execSpineLinkLost (sub hT (by decide)) ?_
    assumption
  · refine follows_execSpineLinkRestored (sub hT (by decide)) ?_
    assumption
  · refine follows_execSpineLaneDrop (sub hT (by decide)) ?_
    assumption
  · refine follows_execPairing (sub hT (by decide)) ?_
    assumption
  · refine follows_execPairingBindingCheck (sub hT (by decide)) ?_
    assumption
  · refine follows_execAliveInDead (sub hT (by decide)) ?_
    assumption
  · refine follows_execAliveInLive (sub hT (by decide)) ?_
    assumption
  · refine follows_execResync (sub hT (by decide)) ?_
    assumption
  · refine follows_execResyncCapture (sub hT (by decide)) ?_
    assumption
  · refine follows_execStatePacketReceive (sub hT (by decide)) ?_
    assumption
  · refine follows_execResyncTimeout (sub hT (by decide)) ?_
    assumption
  · refine follows_execOverrunPacketReceive (sub hT (by decide)) ?_
    assumption
  · refine follows_execMirrorDataReceive (sub hT (by decide)) ?_
    assumption
  · refine follows_execJournalRecordReceive (sub hT (by decide)) ?_
    assumption
  · refine follows_execMirrorAckReceive (sub hT (by decide)) ?_
    assumption
  · refine follows_execForwardedCommandReceive (sub hT (by decide)) ?_
    assumption
  · refine follows_execForwardedCompletionReceive (sub hT (by decide)) ?_
    assumption
  · refine follows_execPeerLeafRequest (sub hT (by decide)) ?_
    assumption
  · refine follows_execPeerLeafReply (sub hT (by decide)) ?_
    assumption
  · refine follows_execPeerLeafVerdict (sub hT (by decide)) ?_
    assumption
  · refine follows_execManagementPacketReceive (sub hT (by decide)) ?_
    assumption
  · refine follows_execHandBackRequest (sub hT (by decide)) ?_
    assumption
  · refine follows_execHandBackStart (sub hT (by decide)) ?_
    assumption
  · refine follows_execHandoverStitch (sub hT (by decide)) ?_
    assumption
  · refine follows_execKcvMatch (sub hT (by decide)) ?_
    assumption
  · refine follows_execKeyImport (sub hT (by decide)) ?_
    assumption
  · refine follows_execKeySlotClear (sub hT (by decide)) ?_
    assumption
  · refine follows_execLcNonceRead (sub hT (by decide)) ?_
    assumption
  · refine follows_execLifecycleTransition (sub hT (by decide)) ?_
    assumption
  · refine follows_execLifecycleCommit (sub hT (by decide)) ?_
    assumption
  · refine follows_execMailboxKeyImport (sub hT (by decide)) ?_
    assumption
  · refine follows_execLowerVotedLimit (sub hT (by decide)) ?_
    assumption
  · refine follows_execNewWriteSlot (sub hT (by decide)) ?_
    assumption
  · refine follows_execEndsheetOwnerSection (sub hT (by decide)) ?_
    assumption
  · refine follows_execDomainRequest (sub hT (by decide)) ?_
    assumption
  · refine follows_execMailboxResponseRead (sub hT (by decide)) ?_
    assumption
  · refine follows_execVotedWordMismatch (sub hT (by decide)) ?_
    assumption
  · refine follows_execDrbgReseed (sub hT (by decide)) ?_
    assumption
  · refine follows_execEntropyHealthFail (sub hT (by decide)) ?_
    assumption
  · refine follows_execEntropyRecover (sub hT (by decide)) ?_
    assumption
  · refine follows_execLockstepMismatch (sub hT (by decide)) ?_
    assumption
  · refine follows_execBayRelease (sub hT (by decide)) ?_
    assumption
  · refine follows_execBayReleaseEnd (sub hT (by decide)) ?_
    assumption
  · refine follows_execEventLogPageWrite (sub hT (by decide)) ?_
    assumption
  · refine follows_execBfeIdentityAssembled (sub hT (by decide)) ?_
    assumption
  · refine follows_execHeadbandPortUp (sub hT (by decide)) ?_
    assumption
  · refine follows_execBfeEdge (sub hT (by decide)) ?_
    assumption
  · refine follows_execBfeHoldExpiry (sub hT (by decide)) ?_
    assumption
  · refine follows_execMctpSetEndpointId (sub hT (by decide)) ?_
    assumption
  · refine follows_execMctpGetEndpointId (sub hT (by decide)) ?_
    assumption
  · refine follows_execMctpGetVersionSupport (sub hT (by decide)) ?_
    assumption
  · refine follows_execMctpGetMessageTypeSupport (sub hT (by decide)) ?_
    assumption
  · refine follows_execPldmFirmwareUpdate (sub hT (by decide)) ?_
    assumption
  · refine follows_execNvmeMiReadDataStructure (sub hT (by decide)) ?_
    assumption
  · refine follows_execNvmeMiHealthStatusPoll (sub hT (by decide)) ?_
    assumption
  · refine follows_execNvmeMiConfigurationGet (sub hT (by decide)) ?_
    assumption
  · refine follows_execNvmeMiConfigurationSet (sub hT (by decide)) ?_
    assumption
  · refine follows_execNvmeMiTunnelledAdmin (sub hT (by decide)) ?_
    assumption
  · refine follows_execSpdmGetCertificate (sub hT (by decide)) ?_
    assumption
  · refine follows_execSpdmChallenge (sub hT (by decide)) ?_
    assumption
  · refine follows_execSpdmGetMeasurements (sub hT (by decide)) ?_
    assumption
  · refine follows_execSplitReadLatch (sub hT (by decide)) ?_
    assumption
  · refine follows_execResetCauseClear (sub hT (by decide)) ?_
    assumption
  · refine follows_execCounterClear (sub hT (by decide)) ?_
    assumption
  · refine follows_execRegisterWrite (sub hT (by decide)) ?_
    assumption
  · refine follows_execResetRelease (sub hT (by decide)) ?_
    assumption
  · refine follows_execStartupComplete (sub hT (by decide)) ?_
    assumption
  · refine follows_execPairingTimeout (sub hT (by decide)) ?_
    assumption
  · refine follows_execPowerFailClear (sub hT (by decide)) ?_
    assumption
  · refine follows_execSpineLaneRestore (sub hT (by decide)) ?_
    assumption
  · refine follows_execHeadbandLaneLoss (sub hT (by decide)) ?_
    assumption
  · refine follows_execBfeReset (sub hT (by decide)) ?_
    assumption
  · refine follows_execTimingLockDeclared (sub hT (by decide)) ?_
    assumption
  · refine follows_execTimingLockRegained (sub hT (by decide)) ?_
    assumption
  · refine follows_execActivationFetchResume (sub hT (by decide)) ?_
    assumption


end Sys2Proof.Machine
end

