-- ==== Sys2Proof/Laws/Frames.lean ====
section
/-! SUPPORT. The frame of the shared operations, field by field. -/

namespace Sys2Proof.Machine

@[simp] theorem complete_frame (s : State) (a1 : CmdRef) (a2 : Status) (a3 : Dword) (a4 : Bytes) :
    (complete s a1 a2 a3 a4).pending = s.pending ∧ (complete s a1 a2 a3 a4).free = s.free ∧ (complete s a1 a2 a3 a4).regs = s.regs ∧
      (complete s a1 a2 a3 a4).splitLatch = s.splitLatch ∧ (complete s a1 a2 a3 a4).hostRead = s.hostRead ∧ (complete s a1 a2 a3 a4).cnt =
      s.cnt ∧ (complete s a1 a2 a3 a4).tck = s.tck ∧ (complete s a1 a2 a3 a4).pwr = s.pwr ∧ (complete s a1 a2 a3 a4).bays = s.bays ∧
      (complete s a1 a2 a3 a4).ports = s.ports ∧ (complete s a1 a2 a3 a4).bfes = s.bfes ∧ (complete s a1 a2 a3 a4).spn = s.spn ∧ (complete s
      a1 a2 a3 a4).cells = s.cells ∧ (complete s a1 a2 a3 a4).units = s.units ∧ (complete s a1 a2 a3 a4).bus = s.bus ∧ (complete s a1 a2 a3
      a4).axes = s.axes ∧ (complete s a1 a2 a3 a4).rdc = s.rdc ∧ (complete s a1 a2 a3 a4).wrc = s.wrc ∧ (complete s a1 a2 a3 a4).cal = s.cal
      ∧ (complete s a1 a2 a3 a4).qre = s.qre ∧ (complete s a1 a2 a3 a4).cmd = s.cmd ∧ (complete s a1 a2 a3 a4).mem = s.mem ∧ (complete s a1
      a2 a3 a4).kst = s.kst ∧ (complete s a1 a2 a3 a4).cph = s.cph ∧ (complete s a1 a2 a3 a4).bdy = s.bdy ∧ (complete s a1 a2 a3 a4).bnd =
      s.bnd := by
  have h := follows_complete (T := fun p => ([.out, .hiu] : List Part).contains p) (by decide) (follows_refl s) (a1 := a1) (a2 := a2)
    (a3 := a3) (a4 := a4)
  exact ⟨h.queue, h.frame .free rfl, h.frame .regs rfl, h.frame .splitLatch rfl, h.frame .hostRead rfl, h.frame .cnt rfl, h.frame .tck
    rfl, h.frame .pwr rfl, h.frame .bays rfl, h.frame .ports rfl, h.frame .bfes rfl, h.frame .spn rfl, h.frame .cells rfl, h.frame .units
    rfl, h.frame .bus rfl, h.frame .axes rfl, h.frame .rdc rfl, h.frame .wrc rfl, h.frame .cal rfl, h.frame .qre rfl, h.frame .cmd rfl,
    h.frame .mem rfl, h.frame .kst rfl, h.frame .cph rfl, h.frame .bdy rfl, h.frame .bnd rfl⟩

@[simp] theorem post_frame (s : State) (a1 : Comp) :
    (post s a1).pending = s.pending ∧ (post s a1).free = s.free ∧ (post s a1).regs = s.regs ∧ (post s a1).splitLatch = s.splitLatch ∧
      (post s a1).hostRead = s.hostRead ∧ (post s a1).cnt = s.cnt ∧ (post s a1).tck = s.tck ∧ (post s a1).pwr = s.pwr ∧ (post s a1).bays =
      s.bays ∧ (post s a1).ports = s.ports ∧ (post s a1).bfes = s.bfes ∧ (post s a1).spn = s.spn ∧ (post s a1).cells = s.cells ∧ (post s
      a1).units = s.units ∧ (post s a1).bus = s.bus ∧ (post s a1).axes = s.axes ∧ (post s a1).rdc = s.rdc ∧ (post s a1).wrc = s.wrc ∧ (post
      s a1).cal = s.cal ∧ (post s a1).qre = s.qre ∧ (post s a1).cmd = s.cmd ∧ (post s a1).mem = s.mem ∧ (post s a1).kst = s.kst ∧ (post s
      a1).cph = s.cph ∧ (post s a1).bdy = s.bdy ∧ (post s a1).bnd = s.bnd := by
  have h := follows_post (T := fun p => ([.out, .hiu] : List Part).contains p) (by decide) (follows_refl s) (a1 := a1)
  exact ⟨h.queue, h.frame .free rfl, h.frame .regs rfl, h.frame .splitLatch rfl, h.frame .hostRead rfl, h.frame .cnt rfl, h.frame .tck
    rfl, h.frame .pwr rfl, h.frame .bays rfl, h.frame .ports rfl, h.frame .bfes rfl, h.frame .spn rfl, h.frame .cells rfl, h.frame .units
    rfl, h.frame .bus rfl, h.frame .axes rfl, h.frame .rdc rfl, h.frame .wrc rfl, h.frame .cal rfl, h.frame .qre rfl, h.frame .cmd rfl,
    h.frame .mem rfl, h.frame .kst rfl, h.frame .cph rfl, h.frame .bdy rfl, h.frame .bnd rfl⟩

@[simp] theorem emit_frame (s : State) (a1 : Comp) :
    (emit s a1).pending = s.pending ∧ (emit s a1).free = s.free ∧ (emit s a1).regs = s.regs ∧ (emit s a1).splitLatch = s.splitLatch ∧
      (emit s a1).hostRead = s.hostRead ∧ (emit s a1).cnt = s.cnt ∧ (emit s a1).tck = s.tck ∧ (emit s a1).pwr = s.pwr ∧ (emit s a1).bays =
      s.bays ∧ (emit s a1).ports = s.ports ∧ (emit s a1).bfes = s.bfes ∧ (emit s a1).spn = s.spn ∧ (emit s a1).cells = s.cells ∧ (emit s
      a1).units = s.units ∧ (emit s a1).bus = s.bus ∧ (emit s a1).axes = s.axes ∧ (emit s a1).rdc = s.rdc ∧ (emit s a1).wrc = s.wrc ∧ (emit
      s a1).cal = s.cal ∧ (emit s a1).qre = s.qre ∧ (emit s a1).cmd = s.cmd ∧ (emit s a1).mem = s.mem ∧ (emit s a1).kst = s.kst ∧ (emit s
      a1).cph = s.cph ∧ (emit s a1).bdy = s.bdy ∧ (emit s a1).bnd = s.bnd := by
  have h := follows_emit (T := fun p => ([.out, .hiu] : List Part).contains p) (by decide) (follows_refl s) (a1 := a1)
  exact ⟨h.queue, h.frame .free rfl, h.frame .regs rfl, h.frame .splitLatch rfl, h.frame .hostRead rfl, h.frame .cnt rfl, h.frame .tck
    rfl, h.frame .pwr rfl, h.frame .bays rfl, h.frame .ports rfl, h.frame .bfes rfl, h.frame .spn rfl, h.frame .cells rfl, h.frame .units
    rfl, h.frame .bus rfl, h.frame .axes rfl, h.frame .rdc rfl, h.frame .wrc rfl, h.frame .cal rfl, h.frame .qre rfl, h.frame .cmd rfl,
    h.frame .mem rfl, h.frame .kst rfl, h.frame .cph rfl, h.frame .bdy rfl, h.frame .bnd rfl⟩

@[simp] theorem send_frame (s : State) (a1 : SpineMsg) :
    (send s a1).pending = s.pending ∧ (send s a1).free = s.free ∧ (send s a1).regs = s.regs ∧ (send s a1).splitLatch = s.splitLatch ∧
      (send s a1).hostRead = s.hostRead ∧ (send s a1).cnt = s.cnt ∧ (send s a1).tck = s.tck ∧ (send s a1).pwr = s.pwr ∧ (send s a1).bays =
      s.bays ∧ (send s a1).ports = s.ports ∧ (send s a1).bfes = s.bfes ∧ (send s a1).spn = s.spn ∧ (send s a1).cells = s.cells ∧ (send s
      a1).units = s.units ∧ (send s a1).bus = s.bus ∧ (send s a1).axes = s.axes ∧ (send s a1).rdc = s.rdc ∧ (send s a1).wrc = s.wrc ∧ (send
      s a1).cal = s.cal ∧ (send s a1).qre = s.qre ∧ (send s a1).hiu = s.hiu ∧ (send s a1).cmd = s.cmd ∧ (send s a1).mem = s.mem ∧ (send s
      a1).kst = s.kst ∧ (send s a1).cph = s.cph ∧ (send s a1).bdy = s.bdy ∧ (send s a1).bnd = s.bnd := by
  have h := follows_send (T := fun p => ([.out] : List Part).contains p) (by decide) (follows_refl s) (a1 := a1)
  exact ⟨h.queue, h.frame .free rfl, h.frame .regs rfl, h.frame .splitLatch rfl, h.frame .hostRead rfl, h.frame .cnt rfl, h.frame .tck
    rfl, h.frame .pwr rfl, h.frame .bays rfl, h.frame .ports rfl, h.frame .bfes rfl, h.frame .spn rfl, h.frame .cells rfl, h.frame .units
    rfl, h.frame .bus rfl, h.frame .axes rfl, h.frame .rdc rfl, h.frame .wrc rfl, h.frame .cal rfl, h.frame .qre rfl, h.frame .hiu rfl,
    h.frame .cmd rfl, h.frame .mem rfl, h.frame .kst rfl, h.frame .cph rfl, h.frame .bdy rfl, h.frame .bnd rfl⟩

@[simp] theorem vendorEvent_frame (s : State) (a1 : Nat) :
    (vendorEvent s a1).pending = s.pending ∧ (vendorEvent s a1).free = s.free ∧ (vendorEvent s a1).regs = s.regs ∧ (vendorEvent s
      a1).splitLatch = s.splitLatch ∧ (vendorEvent s a1).hostRead = s.hostRead ∧ (vendorEvent s a1).cnt = s.cnt ∧ (vendorEvent s a1).tck =
      s.tck ∧ (vendorEvent s a1).pwr = s.pwr ∧ (vendorEvent s a1).bays = s.bays ∧ (vendorEvent s a1).ports = s.ports ∧ (vendorEvent s
      a1).bfes = s.bfes ∧ (vendorEvent s a1).spn = s.spn ∧ (vendorEvent s a1).cells = s.cells ∧ (vendorEvent s a1).units = s.units ∧
      (vendorEvent s a1).bus = s.bus ∧ (vendorEvent s a1).axes = s.axes ∧ (vendorEvent s a1).rdc = s.rdc ∧ (vendorEvent s a1).wrc = s.wrc ∧
      (vendorEvent s a1).cal = s.cal ∧ (vendorEvent s a1).qre = s.qre ∧ (vendorEvent s a1).cmd = s.cmd ∧ (vendorEvent s a1).mem = s.mem ∧
      (vendorEvent s a1).kst = s.kst ∧ (vendorEvent s a1).cph = s.cph ∧ (vendorEvent s a1).bdy = s.bdy ∧ (vendorEvent s a1).bnd = s.bnd :=
      by
  have h := follows_vendorEvent (T := fun p => ([.out, .hiu] : List Part).contains p) (by decide) (follows_refl s) (a1 := a1)
  exact ⟨h.queue, h.frame .free rfl, h.frame .regs rfl, h.frame .splitLatch rfl, h.frame .hostRead rfl, h.frame .cnt rfl, h.frame .tck
    rfl, h.frame .pwr rfl, h.frame .bays rfl, h.frame .ports rfl, h.frame .bfes rfl, h.frame .spn rfl, h.frame .cells rfl, h.frame .units
    rfl, h.frame .bus rfl, h.frame .axes rfl, h.frame .rdc rfl, h.frame .wrc rfl, h.frame .cal rfl, h.frame .qre rfl, h.frame .cmd rfl,
    h.frame .mem rfl, h.frame .kst rfl, h.frame .cph rfl, h.frame .bdy rfl, h.frame .bnd rfl⟩

@[simp] theorem asyncEvent_frame (s : State) (a1 : Nat) (a2 : Nat) (a3 : Nat) :
    (asyncEvent s a1 a2 a3).pending = s.pending ∧ (asyncEvent s a1 a2 a3).free = s.free ∧ (asyncEvent s a1 a2 a3).regs = s.regs ∧
      (asyncEvent s a1 a2 a3).splitLatch = s.splitLatch ∧ (asyncEvent s a1 a2 a3).hostRead = s.hostRead ∧ (asyncEvent s a1 a2 a3).cnt =
      s.cnt ∧ (asyncEvent s a1 a2 a3).tck = s.tck ∧ (asyncEvent s a1 a2 a3).pwr = s.pwr ∧ (asyncEvent s a1 a2 a3).bays = s.bays ∧
      (asyncEvent s a1 a2 a3).ports = s.ports ∧ (asyncEvent s a1 a2 a3).bfes = s.bfes ∧ (asyncEvent s a1 a2 a3).spn = s.spn ∧ (asyncEvent s
      a1 a2 a3).cells = s.cells ∧ (asyncEvent s a1 a2 a3).units = s.units ∧ (asyncEvent s a1 a2 a3).bus = s.bus ∧ (asyncEvent s a1 a2
      a3).axes = s.axes ∧ (asyncEvent s a1 a2 a3).rdc = s.rdc ∧ (asyncEvent s a1 a2 a3).wrc = s.wrc ∧ (asyncEvent s a1 a2 a3).cal = s.cal ∧
      (asyncEvent s a1 a2 a3).qre = s.qre ∧ (asyncEvent s a1 a2 a3).cmd = s.cmd ∧ (asyncEvent s a1 a2 a3).mem = s.mem ∧ (asyncEvent s a1 a2
      a3).kst = s.kst ∧ (asyncEvent s a1 a2 a3).cph = s.cph ∧ (asyncEvent s a1 a2 a3).bdy = s.bdy ∧ (asyncEvent s a1 a2 a3).bnd = s.bnd :=
      by
  have h := follows_asyncEvent (T := fun p => ([.out, .hiu] : List Part).contains p) (by decide) (follows_refl s) (a1 := a1) (a2 := a2)
    (a3 := a3)
  exact ⟨h.queue, h.frame .free rfl, h.frame .regs rfl, h.frame .splitLatch rfl, h.frame .hostRead rfl, h.frame .cnt rfl, h.frame .tck
    rfl, h.frame .pwr rfl, h.frame .bays rfl, h.frame .ports rfl, h.frame .bfes rfl, h.frame .spn rfl, h.frame .cells rfl, h.frame .units
    rfl, h.frame .bus rfl, h.frame .axes rfl, h.frame .rdc rfl, h.frame .wrc rfl, h.frame .cal rfl, h.frame .qre rfl, h.frame .cmd rfl,
    h.frame .mem rfl, h.frame .kst rfl, h.frame .cph rfl, h.frame .bdy rfl, h.frame .bnd rfl⟩

@[simp] theorem cascade_frame (s : State) (a1 : Nat) :
    (cascade s a1).pending = s.pending ∧ (cascade s a1).free = s.free ∧ (cascade s a1).regs = s.regs ∧ (cascade s a1).splitLatch =
      s.splitLatch ∧ (cascade s a1).hostRead = s.hostRead ∧ (cascade s a1).tck = s.tck ∧ (cascade s a1).pwr = s.pwr ∧ (cascade s a1).bays =
      s.bays ∧ (cascade s a1).ports = s.ports ∧ (cascade s a1).bfes = s.bfes ∧ (cascade s a1).spn = s.spn ∧ (cascade s a1).out = s.out ∧
      (cascade s a1).units = s.units ∧ (cascade s a1).bus = s.bus ∧ (cascade s a1).axes = s.axes ∧ (cascade s a1).rdc = s.rdc ∧ (cascade s
      a1).wrc = s.wrc ∧ (cascade s a1).cal = s.cal ∧ (cascade s a1).qre = s.qre ∧ (cascade s a1).hiu = s.hiu ∧ (cascade s a1).cmd = s.cmd ∧
      (cascade s a1).mem = s.mem ∧ (cascade s a1).kst = s.kst ∧ (cascade s a1).cph = s.cph ∧ (cascade s a1).bdy = s.bdy ∧ (cascade s a1).bnd
      = s.bnd := by
  have h := follows_cascade (T := fun p => ([.cnt, .cells] : List Part).contains p) (by decide) (follows_refl s) (a1 := a1)
  exact ⟨h.queue, h.frame .free rfl, h.frame .regs rfl, h.frame .splitLatch rfl, h.frame .hostRead rfl, h.frame .tck rfl, h.frame .pwr
    rfl, h.frame .bays rfl, h.frame .ports rfl, h.frame .bfes rfl, h.frame .spn rfl, h.frame .out rfl, h.frame .units rfl, h.frame .bus
    rfl, h.frame .axes rfl, h.frame .rdc rfl, h.frame .wrc rfl, h.frame .cal rfl, h.frame .qre rfl, h.frame .hiu rfl, h.frame .cmd rfl,
    h.frame .mem rfl, h.frame .kst rfl, h.frame .cph rfl, h.frame .bdy rfl, h.frame .bnd rfl⟩

@[simp] theorem cascadeBay_frame (s : State) (a1 : Nat) :
    (cascadeBay s a1).pending = s.pending ∧ (cascadeBay s a1).free = s.free ∧ (cascadeBay s a1).regs = s.regs ∧ (cascadeBay s
      a1).splitLatch = s.splitLatch ∧ (cascadeBay s a1).hostRead = s.hostRead ∧ (cascadeBay s a1).tck = s.tck ∧ (cascadeBay s a1).pwr =
      s.pwr ∧ (cascadeBay s a1).bays = s.bays ∧ (cascadeBay s a1).ports = s.ports ∧ (cascadeBay s a1).bfes = s.bfes ∧ (cascadeBay s a1).spn
      = s.spn ∧ (cascadeBay s a1).out = s.out ∧ (cascadeBay s a1).units = s.units ∧ (cascadeBay s a1).bus = s.bus ∧ (cascadeBay s a1).axes =
      s.axes ∧ (cascadeBay s a1).rdc = s.rdc ∧ (cascadeBay s a1).wrc = s.wrc ∧ (cascadeBay s a1).cal = s.cal ∧ (cascadeBay s a1).qre = s.qre
      ∧ (cascadeBay s a1).hiu = s.hiu ∧ (cascadeBay s a1).cmd = s.cmd ∧ (cascadeBay s a1).mem = s.mem ∧ (cascadeBay s a1).kst = s.kst ∧
      (cascadeBay s a1).cph = s.cph ∧ (cascadeBay s a1).bdy = s.bdy ∧ (cascadeBay s a1).bnd = s.bnd := by
  have h := follows_cascadeBay (T := fun p => ([.cnt, .cells] : List Part).contains p) (by decide) (follows_refl s) (a1 := a1)
  exact ⟨h.queue, h.frame .free rfl, h.frame .regs rfl, h.frame .splitLatch rfl, h.frame .hostRead rfl, h.frame .tck rfl, h.frame .pwr
    rfl, h.frame .bays rfl, h.frame .ports rfl, h.frame .bfes rfl, h.frame .spn rfl, h.frame .out rfl, h.frame .units rfl, h.frame .bus
    rfl, h.frame .axes rfl, h.frame .rdc rfl, h.frame .wrc rfl, h.frame .cal rfl, h.frame .qre rfl, h.frame .hiu rfl, h.frame .cmd rfl,
    h.frame .mem rfl, h.frame .kst rfl, h.frame .cph rfl, h.frame .bdy rfl, h.frame .bnd rfl⟩

@[simp] theorem revokeGrants_frame (s : State) (a1 : Nat) :
    (revokeGrants s a1).pending = s.pending ∧ (revokeGrants s a1).free = s.free ∧ (revokeGrants s a1).regs = s.regs ∧ (revokeGrants s
      a1).splitLatch = s.splitLatch ∧ (revokeGrants s a1).hostRead = s.hostRead ∧ (revokeGrants s a1).cnt = s.cnt ∧ (revokeGrants s a1).tck
      = s.tck ∧ (revokeGrants s a1).pwr = s.pwr ∧ (revokeGrants s a1).bfes = s.bfes ∧ (revokeGrants s a1).out = s.out ∧ (revokeGrants s
      a1).units = s.units ∧ (revokeGrants s a1).bus = s.bus ∧ (revokeGrants s a1).qre = s.qre ∧ (revokeGrants s a1).hiu = s.hiu ∧
      (revokeGrants s a1).cmd = s.cmd ∧ (revokeGrants s a1).mem = s.mem ∧ (revokeGrants s a1).kst = s.kst ∧ (revokeGrants s a1).cph = s.cph
      ∧ (revokeGrants s a1).bdy = s.bdy ∧ (revokeGrants s a1).bnd = s.bnd := by
  have h := follows_revokeGrants (T := fun p => ([.bays, .ports, .spn, .cells, .axes, .rdc, .wrc, .cal] : List Part).contains p) (by
    decide) (follows_refl s) (a1 := a1)
  exact ⟨h.queue, h.frame .free rfl, h.frame .regs rfl, h.frame .splitLatch rfl, h.frame .hostRead rfl, h.frame .cnt rfl, h.frame .tck
    rfl, h.frame .pwr rfl, h.frame .bfes rfl, h.frame .out rfl, h.frame .units rfl, h.frame .bus rfl, h.frame .qre rfl, h.frame .hiu rfl,
    h.frame .cmd rfl, h.frame .mem rfl, h.frame .kst rfl, h.frame .cph rfl, h.frame .bdy rfl, h.frame .bnd rfl⟩

@[simp] theorem safeStop_frame (s : State) (a1 : Nat) (a2 : Bool) :
    (safeStop s a1 a2).pending = s.pending ∧ (safeStop s a1 a2).free = s.free ∧ (safeStop s a1 a2).regs = s.regs ∧ (safeStop s a1
      a2).splitLatch = s.splitLatch ∧ (safeStop s a1 a2).hostRead = s.hostRead ∧ (safeStop s a1 a2).tck = s.tck ∧ (safeStop s a1 a2).pwr =
      s.pwr ∧ (safeStop s a1 a2).bfes = s.bfes ∧ (safeStop s a1 a2).bus = s.bus ∧ (safeStop s a1 a2).qre = s.qre ∧ (safeStop s a1 a2).cmd =
      s.cmd ∧ (safeStop s a1 a2).mem = s.mem ∧ (safeStop s a1 a2).kst = s.kst ∧ (safeStop s a1 a2).cph = s.cph ∧ (safeStop s a1 a2).bnd =
      s.bnd := by
  have h := follows_safeStop (T := fun p => ([.cnt, .bays, .ports, .spn, .out, .cells, .units, .axes, .rdc, .wrc, .cal, .hiu, .bdy] :
    List Part).contains p) (by decide) (follows_refl s) (a1 := a1) (a2 := a2)
  exact ⟨h.queue, h.frame .free rfl, h.frame .regs rfl, h.frame .splitLatch rfl, h.frame .hostRead rfl, h.frame .tck rfl, h.frame .pwr
    rfl, h.frame .bfes rfl, h.frame .bus rfl, h.frame .qre rfl, h.frame .cmd rfl, h.frame .mem rfl, h.frame .kst rfl, h.frame .cph rfl,
    h.frame .bnd rfl⟩

@[simp] theorem stopBay_frame (s : State) (a1 : Nat) (a2 : Bool) :
    (stopBay s a1 a2).pending = s.pending ∧ (stopBay s a1 a2).regs = s.regs ∧ (stopBay s a1 a2).splitLatch = s.splitLatch ∧ (stopBay s a1
      a2).hostRead = s.hostRead ∧ (stopBay s a1 a2).tck = s.tck ∧ (stopBay s a1 a2).pwr = s.pwr ∧ (stopBay s a1 a2).bfes = s.bfes ∧ (stopBay
      s a1 a2).bus = s.bus ∧ (stopBay s a1 a2).cmd = s.cmd ∧ (stopBay s a1 a2).mem = s.mem ∧ (stopBay s a1 a2).kst = s.kst ∧ (stopBay s a1
      a2).bnd = s.bnd := by
  have h := follows_stopBay (T := fun p => ([.free, .cnt, .bays, .ports, .spn, .out, .cells, .units, .axes, .rdc, .wrc, .cal, .qre,
    .hiu, .cph, .bdy] : List Part).contains p) (by decide) (follows_refl s) (a1 := a1) (a2 := a2)
  exact ⟨h.queue, h.frame .regs rfl, h.frame .splitLatch rfl, h.frame .hostRead rfl, h.frame .tck rfl, h.frame .pwr rfl, h.frame .bfes
    rfl, h.frame .bus rfl, h.frame .cmd rfl, h.frame .mem rfl, h.frame .kst rfl, h.frame .bnd rfl⟩

@[simp] theorem bayLost_frame (s : State) (a1 : Nat) :
    (bayLost s a1).pending = s.pending ∧ (bayLost s a1).regs = s.regs ∧ (bayLost s a1).splitLatch = s.splitLatch ∧ (bayLost s a1).hostRead
      = s.hostRead ∧ (bayLost s a1).tck = s.tck ∧ (bayLost s a1).pwr = s.pwr ∧ (bayLost s a1).bfes = s.bfes ∧ (bayLost s a1).spn = s.spn ∧
      (bayLost s a1).cells = s.cells ∧ (bayLost s a1).units = s.units ∧ (bayLost s a1).bus = s.bus ∧ (bayLost s a1).axes = s.axes ∧ (bayLost
      s a1).cmd = s.cmd ∧ (bayLost s a1).mem = s.mem ∧ (bayLost s a1).kst = s.kst ∧ (bayLost s a1).bnd = s.bnd := by
  have h := follows_bayLost (T := fun p => ([.free, .cnt, .bays, .ports, .out, .rdc, .wrc, .cal, .qre, .hiu, .cph, .bdy] : List
    Part).contains p) (by decide) (follows_refl s) (a1 := a1)
  exact ⟨h.queue, h.frame .regs rfl, h.frame .splitLatch rfl, h.frame .hostRead rfl, h.frame .tck rfl, h.frame .pwr rfl, h.frame .bfes
    rfl, h.frame .spn rfl, h.frame .cells rfl, h.frame .units rfl, h.frame .bus rfl, h.frame .axes rfl, h.frame .cmd rfl, h.frame .mem
    rfl, h.frame .kst rfl, h.frame .bnd rfl⟩

@[simp] theorem issue_frame (s : State) (a1 : Obj) (a2 : Nat) (a3 : Nat) (a4 : Nat) :
    (issue s a1 a2 a3 a4).pending = s.pending ∧ (issue s a1 a2 a3 a4).free = s.free ∧ (issue s a1 a2 a3 a4).regs = s.regs ∧ (issue s a1 a2
      a3 a4).splitLatch = s.splitLatch ∧ (issue s a1 a2 a3 a4).hostRead = s.hostRead ∧ (issue s a1 a2 a3 a4).cnt = s.cnt ∧ (issue s a1 a2 a3
      a4).tck = s.tck ∧ (issue s a1 a2 a3 a4).pwr = s.pwr ∧ (issue s a1 a2 a3 a4).bays = s.bays ∧ (issue s a1 a2 a3 a4).ports = s.ports ∧
      (issue s a1 a2 a3 a4).bfes = s.bfes ∧ (issue s a1 a2 a3 a4).out = s.out ∧ (issue s a1 a2 a3 a4).cells = s.cells ∧ (issue s a1 a2 a3
      a4).units = s.units ∧ (issue s a1 a2 a3 a4).bus = s.bus ∧ (issue s a1 a2 a3 a4).axes = s.axes ∧ (issue s a1 a2 a3 a4).rdc = s.rdc ∧
      (issue s a1 a2 a3 a4).wrc = s.wrc ∧ (issue s a1 a2 a3 a4).cal = s.cal ∧ (issue s a1 a2 a3 a4).qre = s.qre ∧ (issue s a1 a2 a3 a4).hiu
      = s.hiu ∧ (issue s a1 a2 a3 a4).cmd = s.cmd ∧ (issue s a1 a2 a3 a4).mem = s.mem ∧ (issue s a1 a2 a3 a4).kst = s.kst ∧ (issue s a1 a2
      a3 a4).cph = s.cph ∧ (issue s a1 a2 a3 a4).bdy = s.bdy ∧ (issue s a1 a2 a3 a4).bnd = s.bnd := by
  have h := follows_issue (T := fun p => ([.spn] : List Part).contains p) (by decide) (follows_refl s) (a1 := a1) (a2 := a2) (a3 := a3)
    (a4 := a4)
  exact ⟨h.queue, h.frame .free rfl, h.frame .regs rfl, h.frame .splitLatch rfl, h.frame .hostRead rfl, h.frame .cnt rfl, h.frame .tck
    rfl, h.frame .pwr rfl, h.frame .bays rfl, h.frame .ports rfl, h.frame .bfes rfl, h.frame .out rfl, h.frame .cells rfl, h.frame .units
    rfl, h.frame .bus rfl, h.frame .axes rfl, h.frame .rdc rfl, h.frame .wrc rfl, h.frame .cal rfl, h.frame .qre rfl, h.frame .hiu rfl,
    h.frame .cmd rfl, h.frame .mem rfl, h.frame .kst rfl, h.frame .cph rfl, h.frame .bdy rfl, h.frame .bnd rfl⟩

@[simp] theorem respond_frame (s : State) (a1 : Nat) (a2 : Word) (a3 : Nat) :
    (respond s a1 a2 a3).pending = s.pending ∧ (respond s a1 a2 a3).free = s.free ∧ (respond s a1 a2 a3).regs = s.regs ∧ (respond s a1 a2
      a3).splitLatch = s.splitLatch ∧ (respond s a1 a2 a3).hostRead = s.hostRead ∧ (respond s a1 a2 a3).cnt = s.cnt ∧ (respond s a1 a2
      a3).tck = s.tck ∧ (respond s a1 a2 a3).pwr = s.pwr ∧ (respond s a1 a2 a3).bays = s.bays ∧ (respond s a1 a2 a3).ports = s.ports ∧
      (respond s a1 a2 a3).bfes = s.bfes ∧ (respond s a1 a2 a3).spn = s.spn ∧ (respond s a1 a2 a3).out = s.out ∧ (respond s a1 a2 a3).cells
      = s.cells ∧ (respond s a1 a2 a3).units = s.units ∧ (respond s a1 a2 a3).bus = s.bus ∧ (respond s a1 a2 a3).axes = s.axes ∧ (respond s
      a1 a2 a3).rdc = s.rdc ∧ (respond s a1 a2 a3).wrc = s.wrc ∧ (respond s a1 a2 a3).cal = s.cal ∧ (respond s a1 a2 a3).qre = s.qre ∧
      (respond s a1 a2 a3).hiu = s.hiu ∧ (respond s a1 a2 a3).cmd = s.cmd ∧ (respond s a1 a2 a3).mem = s.mem ∧ (respond s a1 a2 a3).kst =
      s.kst ∧ (respond s a1 a2 a3).cph = s.cph ∧ (respond s a1 a2 a3).bnd = s.bnd := by
  have h := follows_respond (T := fun p => ([.bdy] : List Part).contains p) (by decide) (follows_refl s) (a1 := a1) (a2 := a2) (a3 := a3)
  exact ⟨h.queue, h.frame .free rfl, h.frame .regs rfl, h.frame .splitLatch rfl, h.frame .hostRead rfl, h.frame .cnt rfl, h.frame .tck
    rfl, h.frame .pwr rfl, h.frame .bays rfl, h.frame .ports rfl, h.frame .bfes rfl, h.frame .spn rfl, h.frame .out rfl, h.frame .cells
    rfl, h.frame .units rfl, h.frame .bus rfl, h.frame .axes rfl, h.frame .rdc rfl, h.frame .wrc rfl, h.frame .cal rfl, h.frame .qre rfl,
    h.frame .hiu rfl, h.frame .cmd rfl, h.frame .mem rfl, h.frame .kst rfl, h.frame .cph rfl, h.frame .bnd rfl⟩

@[simp] theorem orderCell_frame (s : State) (a1 : Nat) (a2 : Nat) (a3 : Nat) :
    (orderCell s a1 a2 a3).pending = s.pending ∧ (orderCell s a1 a2 a3).free = s.free ∧ (orderCell s a1 a2 a3).regs = s.regs ∧ (orderCell
      s a1 a2 a3).splitLatch = s.splitLatch ∧ (orderCell s a1 a2 a3).hostRead = s.hostRead ∧ (orderCell s a1 a2 a3).cnt = s.cnt ∧ (orderCell
      s a1 a2 a3).tck = s.tck ∧ (orderCell s a1 a2 a3).pwr = s.pwr ∧ (orderCell s a1 a2 a3).bays = s.bays ∧ (orderCell s a1 a2 a3).ports =
      s.ports ∧ (orderCell s a1 a2 a3).bfes = s.bfes ∧ (orderCell s a1 a2 a3).out = s.out ∧ (orderCell s a1 a2 a3).units = s.units ∧
      (orderCell s a1 a2 a3).bus = s.bus ∧ (orderCell s a1 a2 a3).axes = s.axes ∧ (orderCell s a1 a2 a3).rdc = s.rdc ∧ (orderCell s a1 a2
      a3).wrc = s.wrc ∧ (orderCell s a1 a2 a3).cal = s.cal ∧ (orderCell s a1 a2 a3).qre = s.qre ∧ (orderCell s a1 a2 a3).hiu = s.hiu ∧
      (orderCell s a1 a2 a3).cmd = s.cmd ∧ (orderCell s a1 a2 a3).mem = s.mem ∧ (orderCell s a1 a2 a3).kst = s.kst ∧ (orderCell s a1 a2
      a3).cph = s.cph ∧ (orderCell s a1 a2 a3).bdy = s.bdy ∧ (orderCell s a1 a2 a3).bnd = s.bnd := by
  have h := follows_orderCell (T := fun p => ([.spn, .cells] : List Part).contains p) (by decide) (follows_refl s) (a1 := a1) (a2 := a2)
    (a3 := a3)
  exact ⟨h.queue, h.frame .free rfl, h.frame .regs rfl, h.frame .splitLatch rfl, h.frame .hostRead rfl, h.frame .cnt rfl, h.frame .tck
    rfl, h.frame .pwr rfl, h.frame .bays rfl, h.frame .ports rfl, h.frame .bfes rfl, h.frame .out rfl, h.frame .units rfl, h.frame .bus
    rfl, h.frame .axes rfl, h.frame .rdc rfl, h.frame .wrc rfl, h.frame .cal rfl, h.frame .qre rfl, h.frame .hiu rfl, h.frame .cmd rfl,
    h.frame .mem rfl, h.frame .kst rfl, h.frame .cph rfl, h.frame .bdy rfl, h.frame .bnd rfl⟩

@[simp] theorem orderAxis_frame (s : State) (a1 : Nat) (a2 : Nat) (a3 : Nat) :
    (orderAxis s a1 a2 a3).pending = s.pending ∧ (orderAxis s a1 a2 a3).free = s.free ∧ (orderAxis s a1 a2 a3).regs = s.regs ∧ (orderAxis
      s a1 a2 a3).splitLatch = s.splitLatch ∧ (orderAxis s a1 a2 a3).hostRead = s.hostRead ∧ (orderAxis s a1 a2 a3).cnt = s.cnt ∧ (orderAxis
      s a1 a2 a3).tck = s.tck ∧ (orderAxis s a1 a2 a3).pwr = s.pwr ∧ (orderAxis s a1 a2 a3).bays = s.bays ∧ (orderAxis s a1 a2 a3).ports =
      s.ports ∧ (orderAxis s a1 a2 a3).bfes = s.bfes ∧ (orderAxis s a1 a2 a3).out = s.out ∧ (orderAxis s a1 a2 a3).cells = s.cells ∧
      (orderAxis s a1 a2 a3).units = s.units ∧ (orderAxis s a1 a2 a3).bus = s.bus ∧ (orderAxis s a1 a2 a3).rdc = s.rdc ∧ (orderAxis s a1 a2
      a3).wrc = s.wrc ∧ (orderAxis s a1 a2 a3).cal = s.cal ∧ (orderAxis s a1 a2 a3).qre = s.qre ∧ (orderAxis s a1 a2 a3).hiu = s.hiu ∧
      (orderAxis s a1 a2 a3).cmd = s.cmd ∧ (orderAxis s a1 a2 a3).mem = s.mem ∧ (orderAxis s a1 a2 a3).kst = s.kst ∧ (orderAxis s a1 a2
      a3).cph = s.cph ∧ (orderAxis s a1 a2 a3).bdy = s.bdy ∧ (orderAxis s a1 a2 a3).bnd = s.bnd := by
  have h := follows_orderAxis (T := fun p => ([.spn, .axes] : List Part).contains p) (by decide) (follows_refl s) (a1 := a1) (a2 := a2)
    (a3 := a3)
  exact ⟨h.queue, h.frame .free rfl, h.frame .regs rfl, h.frame .splitLatch rfl, h.frame .hostRead rfl, h.frame .cnt rfl, h.frame .tck
    rfl, h.frame .pwr rfl, h.frame .bays rfl, h.frame .ports rfl, h.frame .bfes rfl, h.frame .out rfl, h.frame .cells rfl, h.frame .units
    rfl, h.frame .bus rfl, h.frame .rdc rfl, h.frame .wrc rfl, h.frame .cal rfl, h.frame .qre rfl, h.frame .hiu rfl, h.frame .cmd rfl,
    h.frame .mem rfl, h.frame .kst rfl, h.frame .cph rfl, h.frame .bdy rfl, h.frame .bnd rfl⟩

@[simp] theorem orderUnit_frame (s : State) (a1 : Nat) (a2 : Nat) (a3 : Nat) :
    (orderUnit s a1 a2 a3).pending = s.pending ∧ (orderUnit s a1 a2 a3).free = s.free ∧ (orderUnit s a1 a2 a3).regs = s.regs ∧ (orderUnit
      s a1 a2 a3).splitLatch = s.splitLatch ∧ (orderUnit s a1 a2 a3).hostRead = s.hostRead ∧ (orderUnit s a1 a2 a3).cnt = s.cnt ∧ (orderUnit
      s a1 a2 a3).tck = s.tck ∧ (orderUnit s a1 a2 a3).pwr = s.pwr ∧ (orderUnit s a1 a2 a3).bays = s.bays ∧ (orderUnit s a1 a2 a3).ports =
      s.ports ∧ (orderUnit s a1 a2 a3).bfes = s.bfes ∧ (orderUnit s a1 a2 a3).out = s.out ∧ (orderUnit s a1 a2 a3).cells = s.cells ∧
      (orderUnit s a1 a2 a3).bus = s.bus ∧ (orderUnit s a1 a2 a3).axes = s.axes ∧ (orderUnit s a1 a2 a3).rdc = s.rdc ∧ (orderUnit s a1 a2
      a3).wrc = s.wrc ∧ (orderUnit s a1 a2 a3).cal = s.cal ∧ (orderUnit s a1 a2 a3).qre = s.qre ∧ (orderUnit s a1 a2 a3).hiu = s.hiu ∧
      (orderUnit s a1 a2 a3).cmd = s.cmd ∧ (orderUnit s a1 a2 a3).mem = s.mem ∧ (orderUnit s a1 a2 a3).kst = s.kst ∧ (orderUnit s a1 a2
      a3).cph = s.cph ∧ (orderUnit s a1 a2 a3).bdy = s.bdy ∧ (orderUnit s a1 a2 a3).bnd = s.bnd := by
  have h := follows_orderUnit (T := fun p => ([.spn, .units] : List Part).contains p) (by decide) (follows_refl s) (a1 := a1) (a2 := a2)
    (a3 := a3)
  exact ⟨h.queue, h.frame .free rfl, h.frame .regs rfl, h.frame .splitLatch rfl, h.frame .hostRead rfl, h.frame .cnt rfl, h.frame .tck
    rfl, h.frame .pwr rfl, h.frame .bays rfl, h.frame .ports rfl, h.frame .bfes rfl, h.frame .out rfl, h.frame .cells rfl, h.frame .bus
    rfl, h.frame .axes rfl, h.frame .rdc rfl, h.frame .wrc rfl, h.frame .cal rfl, h.frame .qre rfl, h.frame .hiu rfl, h.frame .cmd rfl,
    h.frame .mem rfl, h.frame .kst rfl, h.frame .cph rfl, h.frame .bdy rfl, h.frame .bnd rfl⟩

@[simp] theorem retractCell_frame (s : State) (a1 : Nat) (a2 : Nat) (a3 : Bool) :
    (retractCell s a1 a2 a3).pending = s.pending ∧ (retractCell s a1 a2 a3).free = s.free ∧ (retractCell s a1 a2 a3).regs = s.regs ∧
      (retractCell s a1 a2 a3).splitLatch = s.splitLatch ∧ (retractCell s a1 a2 a3).hostRead = s.hostRead ∧ (retractCell s a1 a2 a3).tck =
      s.tck ∧ (retractCell s a1 a2 a3).pwr = s.pwr ∧ (retractCell s a1 a2 a3).bays = s.bays ∧ (retractCell s a1 a2 a3).ports = s.ports ∧
      (retractCell s a1 a2 a3).bfes = s.bfes ∧ (retractCell s a1 a2 a3).spn = s.spn ∧ (retractCell s a1 a2 a3).out = s.out ∧ (retractCell s
      a1 a2 a3).units = s.units ∧ (retractCell s a1 a2 a3).bus = s.bus ∧ (retractCell s a1 a2 a3).axes = s.axes ∧ (retractCell s a1 a2
      a3).rdc = s.rdc ∧ (retractCell s a1 a2 a3).wrc = s.wrc ∧ (retractCell s a1 a2 a3).cal = s.cal ∧ (retractCell s a1 a2 a3).qre = s.qre ∧
      (retractCell s a1 a2 a3).hiu = s.hiu ∧ (retractCell s a1 a2 a3).cmd = s.cmd ∧ (retractCell s a1 a2 a3).mem = s.mem ∧ (retractCell s a1
      a2 a3).kst = s.kst ∧ (retractCell s a1 a2 a3).cph = s.cph ∧ (retractCell s a1 a2 a3).bdy = s.bdy ∧ (retractCell s a1 a2 a3).bnd =
      s.bnd := by
  have h := follows_retractCell (T := fun p => ([.cnt, .cells] : List Part).contains p) (by decide) (follows_refl s) (a1 := a1) (a2 :=
    a2) (a3 := a3)
  exact ⟨h.queue, h.frame .free rfl, h.frame .regs rfl, h.frame .splitLatch rfl, h.frame .hostRead rfl, h.frame .tck rfl, h.frame .pwr
    rfl, h.frame .bays rfl, h.frame .ports rfl, h.frame .bfes rfl, h.frame .spn rfl, h.frame .out rfl, h.frame .units rfl, h.frame .bus
    rfl, h.frame .axes rfl, h.frame .rdc rfl, h.frame .wrc rfl, h.frame .cal rfl, h.frame .qre rfl, h.frame .hiu rfl, h.frame .cmd rfl,
    h.frame .mem rfl, h.frame .kst rfl, h.frame .cph rfl, h.frame .bdy rfl, h.frame .bnd rfl⟩

@[simp] theorem seqFailed_frame (s : State) (a1 : Cell) :
    (seqFailed s a1).pending = s.pending ∧ (seqFailed s a1).free = s.free ∧ (seqFailed s a1).regs = s.regs ∧ (seqFailed s a1).splitLatch =
      s.splitLatch ∧ (seqFailed s a1).hostRead = s.hostRead ∧ (seqFailed s a1).tck = s.tck ∧ (seqFailed s a1).pwr = s.pwr ∧ (seqFailed s
      a1).bays = s.bays ∧ (seqFailed s a1).ports = s.ports ∧ (seqFailed s a1).bfes = s.bfes ∧ (seqFailed s a1).spn = s.spn ∧ (seqFailed s
      a1).out = s.out ∧ (seqFailed s a1).cells = s.cells ∧ (seqFailed s a1).units = s.units ∧ (seqFailed s a1).bus = s.bus ∧ (seqFailed s
      a1).axes = s.axes ∧ (seqFailed s a1).rdc = s.rdc ∧ (seqFailed s a1).wrc = s.wrc ∧ (seqFailed s a1).cal = s.cal ∧ (seqFailed s a1).qre
      = s.qre ∧ (seqFailed s a1).hiu = s.hiu ∧ (seqFailed s a1).cmd = s.cmd ∧ (seqFailed s a1).mem = s.mem ∧ (seqFailed s a1).kst = s.kst ∧
      (seqFailed s a1).cph = s.cph ∧ (seqFailed s a1).bdy = s.bdy ∧ (seqFailed s a1).bnd = s.bnd := by
  have h := follows_seqFailed (T := fun p => ([.cnt] : List Part).contains p) (by decide) (follows_refl s) (a1 := a1)
  exact ⟨h.queue, h.frame .free rfl, h.frame .regs rfl, h.frame .splitLatch rfl, h.frame .hostRead rfl, h.frame .tck rfl, h.frame .pwr
    rfl, h.frame .bays rfl, h.frame .ports rfl, h.frame .bfes rfl, h.frame .spn rfl, h.frame .out rfl, h.frame .cells rfl, h.frame .units
    rfl, h.frame .bus rfl, h.frame .axes rfl, h.frame .rdc rfl, h.frame .wrc rfl, h.frame .cal rfl, h.frame .qre rfl, h.frame .hiu rfl,
    h.frame .cmd rfl, h.frame .mem rfl, h.frame .kst rfl, h.frame .cph rfl, h.frame .bdy rfl, h.frame .bnd rfl⟩

@[simp] theorem claimIfFree_frame (s : State) (a1 : Nat) :
    (claimIfFree s a1).pending = s.pending ∧ (claimIfFree s a1).free = s.free ∧ (claimIfFree s a1).regs = s.regs ∧ (claimIfFree s
      a1).splitLatch = s.splitLatch ∧ (claimIfFree s a1).hostRead = s.hostRead ∧ (claimIfFree s a1).cnt = s.cnt ∧ (claimIfFree s a1).tck =
      s.tck ∧ (claimIfFree s a1).pwr = s.pwr ∧ (claimIfFree s a1).ports = s.ports ∧ (claimIfFree s a1).bfes = s.bfes ∧ (claimIfFree s
      a1).spn = s.spn ∧ (claimIfFree s a1).out = s.out ∧ (claimIfFree s a1).cells = s.cells ∧ (claimIfFree s a1).units = s.units ∧
      (claimIfFree s a1).bus = s.bus ∧ (claimIfFree s a1).axes = s.axes ∧ (claimIfFree s a1).rdc = s.rdc ∧ (claimIfFree s a1).wrc = s.wrc ∧
      (claimIfFree s a1).cal = s.cal ∧ (claimIfFree s a1).qre = s.qre ∧ (claimIfFree s a1).hiu = s.hiu ∧ (claimIfFree s a1).cmd = s.cmd ∧
      (claimIfFree s a1).mem = s.mem ∧ (claimIfFree s a1).kst = s.kst ∧ (claimIfFree s a1).cph = s.cph ∧ (claimIfFree s a1).bdy = s.bdy ∧
      (claimIfFree s a1).bnd = s.bnd := by
  have h := follows_claimIfFree (T := fun p => ([.bays] : List Part).contains p) (by decide) (follows_refl s) (a1 := a1)
  exact ⟨h.queue, h.frame .free rfl, h.frame .regs rfl, h.frame .splitLatch rfl, h.frame .hostRead rfl, h.frame .cnt rfl, h.frame .tck
    rfl, h.frame .pwr rfl, h.frame .ports rfl, h.frame .bfes rfl, h.frame .spn rfl, h.frame .out rfl, h.frame .cells rfl, h.frame .units
    rfl, h.frame .bus rfl, h.frame .axes rfl, h.frame .rdc rfl, h.frame .wrc rfl, h.frame .cal rfl, h.frame .qre rfl, h.frame .hiu rfl,
    h.frame .cmd rfl, h.frame .mem rfl, h.frame .kst rfl, h.frame .cph rfl, h.frame .bdy rfl, h.frame .bnd rfl⟩

@[simp] theorem leaveStop_frame (s : State) (a1 : Nat) :
    (leaveStop s a1).pending = s.pending ∧ (leaveStop s a1).free = s.free ∧ (leaveStop s a1).regs = s.regs ∧ (leaveStop s a1).splitLatch =
      s.splitLatch ∧ (leaveStop s a1).hostRead = s.hostRead ∧ (leaveStop s a1).cnt = s.cnt ∧ (leaveStop s a1).tck = s.tck ∧ (leaveStop s
      a1).pwr = s.pwr ∧ (leaveStop s a1).ports = s.ports ∧ (leaveStop s a1).bfes = s.bfes ∧ (leaveStop s a1).spn = s.spn ∧ (leaveStop s
      a1).out = s.out ∧ (leaveStop s a1).units = s.units ∧ (leaveStop s a1).bus = s.bus ∧ (leaveStop s a1).axes = s.axes ∧ (leaveStop s
      a1).rdc = s.rdc ∧ (leaveStop s a1).wrc = s.wrc ∧ (leaveStop s a1).cal = s.cal ∧ (leaveStop s a1).qre = s.qre ∧ (leaveStop s a1).hiu =
      s.hiu ∧ (leaveStop s a1).cmd = s.cmd ∧ (leaveStop s a1).mem = s.mem ∧ (leaveStop s a1).kst = s.kst ∧ (leaveStop s a1).cph = s.cph ∧
      (leaveStop s a1).bdy = s.bdy ∧ (leaveStop s a1).bnd = s.bnd := by
  have h := follows_leaveStop (T := fun p => ([.bays, .cells] : List Part).contains p) (by decide) (follows_refl s) (a1 := a1)
  exact ⟨h.queue, h.frame .free rfl, h.frame .regs rfl, h.frame .splitLatch rfl, h.frame .hostRead rfl, h.frame .cnt rfl, h.frame .tck
    rfl, h.frame .pwr rfl, h.frame .ports rfl, h.frame .bfes rfl, h.frame .spn rfl, h.frame .out rfl, h.frame .units rfl, h.frame .bus
    rfl, h.frame .axes rfl, h.frame .rdc rfl, h.frame .wrc rfl, h.frame .cal rfl, h.frame .qre rfl, h.frame .hiu rfl, h.frame .cmd rfl,
    h.frame .mem rfl, h.frame .kst rfl, h.frame .cph rfl, h.frame .bdy rfl, h.frame .bnd rfl⟩

@[simp] theorem beginHold_frame (s : State) (a1 : Nat) :
    (beginHold s a1).pending = s.pending ∧ (beginHold s a1).free = s.free ∧ (beginHold s a1).regs = s.regs ∧ (beginHold s a1).splitLatch =
      s.splitLatch ∧ (beginHold s a1).hostRead = s.hostRead ∧ (beginHold s a1).tck = s.tck ∧ (beginHold s a1).pwr = s.pwr ∧ (beginHold s
      a1).bfes = s.bfes ∧ (beginHold s a1).out = s.out ∧ (beginHold s a1).bus = s.bus ∧ (beginHold s a1).rdc = s.rdc ∧ (beginHold s a1).wrc
      = s.wrc ∧ (beginHold s a1).qre = s.qre ∧ (beginHold s a1).hiu = s.hiu ∧ (beginHold s a1).cmd = s.cmd ∧ (beginHold s a1).mem = s.mem ∧
      (beginHold s a1).kst = s.kst ∧ (beginHold s a1).cph = s.cph ∧ (beginHold s a1).bdy = s.bdy ∧ (beginHold s a1).bnd = s.bnd := by
  have h := follows_beginHold (T := fun p => ([.cnt, .bays, .ports, .spn, .cells, .units, .axes, .cal] : List Part).contains p) (by
    decide) (follows_refl s) (a1 := a1)
  exact ⟨h.queue, h.frame .free rfl, h.frame .regs rfl, h.frame .splitLatch rfl, h.frame .hostRead rfl, h.frame .tck rfl, h.frame .pwr
    rfl, h.frame .bfes rfl, h.frame .out rfl, h.frame .bus rfl, h.frame .rdc rfl, h.frame .wrc rfl, h.frame .qre rfl, h.frame .hiu rfl,
    h.frame .cmd rfl, h.frame .mem rfl, h.frame .kst rfl, h.frame .cph rfl, h.frame .bdy rfl, h.frame .bnd rfl⟩

@[simp] theorem deliver_frame (s : State) (a1 : Nat) :
    (deliver s a1).pending = s.pending ∧ (deliver s a1).free = s.free ∧ (deliver s a1).regs = s.regs ∧ (deliver s a1).splitLatch =
      s.splitLatch ∧ (deliver s a1).hostRead = s.hostRead ∧ (deliver s a1).cnt = s.cnt ∧ (deliver s a1).tck = s.tck ∧ (deliver s a1).pwr =
      s.pwr ∧ (deliver s a1).bays = s.bays ∧ (deliver s a1).ports = s.ports ∧ (deliver s a1).bfes = s.bfes ∧ (deliver s a1).spn = s.spn ∧
      (deliver s a1).cells = s.cells ∧ (deliver s a1).units = s.units ∧ (deliver s a1).bus = s.bus ∧ (deliver s a1).axes = s.axes ∧ (deliver
      s a1).rdc = s.rdc ∧ (deliver s a1).wrc = s.wrc ∧ (deliver s a1).cal = s.cal ∧ (deliver s a1).qre = s.qre ∧ (deliver s a1).cmd = s.cmd
      ∧ (deliver s a1).mem = s.mem ∧ (deliver s a1).kst = s.kst ∧ (deliver s a1).cph = s.cph ∧ (deliver s a1).bdy = s.bdy ∧ (deliver s
      a1).bnd = s.bnd := by
  have h := follows_deliver (T := fun p => ([.out, .hiu] : List Part).contains p) (by decide) (follows_refl s) (a1 := a1)
  exact ⟨h.queue, h.frame .free rfl, h.frame .regs rfl, h.frame .splitLatch rfl, h.frame .hostRead rfl, h.frame .cnt rfl, h.frame .tck
    rfl, h.frame .pwr rfl, h.frame .bays rfl, h.frame .ports rfl, h.frame .bfes rfl, h.frame .spn rfl, h.frame .cells rfl, h.frame .units
    rfl, h.frame .bus rfl, h.frame .axes rfl, h.frame .rdc rfl, h.frame .wrc rfl, h.frame .cal rfl, h.frame .qre rfl, h.frame .cmd rfl,
    h.frame .mem rfl, h.frame .kst rfl, h.frame .cph rfl, h.frame .bdy rfl, h.frame .bnd rfl⟩

@[simp] theorem finishDeletes_frame (s : State) :
    (finishDeletes s).pending = s.pending ∧ (finishDeletes s).free = s.free ∧ (finishDeletes s).regs = s.regs ∧ (finishDeletes
      s).splitLatch = s.splitLatch ∧ (finishDeletes s).hostRead = s.hostRead ∧ (finishDeletes s).cnt = s.cnt ∧ (finishDeletes s).tck = s.tck
      ∧ (finishDeletes s).pwr = s.pwr ∧ (finishDeletes s).bays = s.bays ∧ (finishDeletes s).ports = s.ports ∧ (finishDeletes s).bfes =
      s.bfes ∧ (finishDeletes s).spn = s.spn ∧ (finishDeletes s).cells = s.cells ∧ (finishDeletes s).units = s.units ∧ (finishDeletes s).bus
      = s.bus ∧ (finishDeletes s).axes = s.axes ∧ (finishDeletes s).rdc = s.rdc ∧ (finishDeletes s).wrc = s.wrc ∧ (finishDeletes s).cal =
      s.cal ∧ (finishDeletes s).qre = s.qre ∧ (finishDeletes s).cmd = s.cmd ∧ (finishDeletes s).mem = s.mem ∧ (finishDeletes s).kst = s.kst
      ∧ (finishDeletes s).cph = s.cph ∧ (finishDeletes s).bdy = s.bdy ∧ (finishDeletes s).bnd = s.bnd := by
  have h := follows_finishDeletes (T := fun p => ([.out, .hiu] : List Part).contains p) (by decide) (follows_refl s)
  exact ⟨h.queue, h.frame .free rfl, h.frame .regs rfl, h.frame .splitLatch rfl, h.frame .hostRead rfl, h.frame .cnt rfl, h.frame .tck
    rfl, h.frame .pwr rfl, h.frame .bays rfl, h.frame .ports rfl, h.frame .bfes rfl, h.frame .spn rfl, h.frame .cells rfl, h.frame .units
    rfl, h.frame .bus rfl, h.frame .axes rfl, h.frame .rdc rfl, h.frame .wrc rfl, h.frame .cal rfl, h.frame .qre rfl, h.frame .cmd rfl,
    h.frame .mem rfl, h.frame .kst rfl, h.frame .cph rfl, h.frame .bdy rfl, h.frame .bnd rfl⟩

@[simp] theorem writeEntry_frame (s : State) (a1 : Comp) :
    (writeEntry s a1).pending = s.pending ∧ (writeEntry s a1).free = s.free ∧ (writeEntry s a1).regs = s.regs ∧ (writeEntry s
      a1).splitLatch = s.splitLatch ∧ (writeEntry s a1).hostRead = s.hostRead ∧ (writeEntry s a1).cnt = s.cnt ∧ (writeEntry s a1).tck =
      s.tck ∧ (writeEntry s a1).pwr = s.pwr ∧ (writeEntry s a1).bays = s.bays ∧ (writeEntry s a1).ports = s.ports ∧ (writeEntry s a1).bfes =
      s.bfes ∧ (writeEntry s a1).spn = s.spn ∧ (writeEntry s a1).out = s.out ∧ (writeEntry s a1).cells = s.cells ∧ (writeEntry s a1).units =
      s.units ∧ (writeEntry s a1).bus = s.bus ∧ (writeEntry s a1).axes = s.axes ∧ (writeEntry s a1).rdc = s.rdc ∧ (writeEntry s a1).wrc =
      s.wrc ∧ (writeEntry s a1).cal = s.cal ∧ (writeEntry s a1).qre = s.qre ∧ (writeEntry s a1).cmd = s.cmd ∧ (writeEntry s a1).mem = s.mem
      ∧ (writeEntry s a1).kst = s.kst ∧ (writeEntry s a1).cph = s.cph ∧ (writeEntry s a1).bdy = s.bdy ∧ (writeEntry s a1).bnd = s.bnd := by
  have h := follows_writeEntry (T := fun p => ([.hiu] : List Part).contains p) (by decide) (follows_refl s) (a1 := a1)
  exact ⟨h.queue, h.frame .free rfl, h.frame .regs rfl, h.frame .splitLatch rfl, h.frame .hostRead rfl, h.frame .cnt rfl, h.frame .tck
    rfl, h.frame .pwr rfl, h.frame .bays rfl, h.frame .ports rfl, h.frame .bfes rfl, h.frame .spn rfl, h.frame .out rfl, h.frame .cells
    rfl, h.frame .units rfl, h.frame .bus rfl, h.frame .axes rfl, h.frame .rdc rfl, h.frame .wrc rfl, h.frame .cal rfl, h.frame .qre rfl,
    h.frame .cmd rfl, h.frame .mem rfl, h.frame .kst rfl, h.frame .cph rfl, h.frame .bdy rfl, h.frame .bnd rfl⟩

@[simp] theorem interrupt_frame (s : State) (a1 : Nat) (a2 : Nat) :
    (interrupt s a1 a2).pending = s.pending ∧ (interrupt s a1 a2).free = s.free ∧ (interrupt s a1 a2).regs = s.regs ∧ (interrupt s a1
      a2).splitLatch = s.splitLatch ∧ (interrupt s a1 a2).hostRead = s.hostRead ∧ (interrupt s a1 a2).cnt = s.cnt ∧ (interrupt s a1 a2).tck
      = s.tck ∧ (interrupt s a1 a2).pwr = s.pwr ∧ (interrupt s a1 a2).bays = s.bays ∧ (interrupt s a1 a2).ports = s.ports ∧ (interrupt s a1
      a2).bfes = s.bfes ∧ (interrupt s a1 a2).spn = s.spn ∧ (interrupt s a1 a2).out = s.out ∧ (interrupt s a1 a2).cells = s.cells ∧
      (interrupt s a1 a2).units = s.units ∧ (interrupt s a1 a2).bus = s.bus ∧ (interrupt s a1 a2).axes = s.axes ∧ (interrupt s a1 a2).rdc =
      s.rdc ∧ (interrupt s a1 a2).wrc = s.wrc ∧ (interrupt s a1 a2).cal = s.cal ∧ (interrupt s a1 a2).qre = s.qre ∧ (interrupt s a1 a2).cmd
      = s.cmd ∧ (interrupt s a1 a2).mem = s.mem ∧ (interrupt s a1 a2).kst = s.kst ∧ (interrupt s a1 a2).cph = s.cph ∧ (interrupt s a1
      a2).bdy = s.bdy ∧ (interrupt s a1 a2).bnd = s.bnd := by
  have h := follows_interrupt (T := fun p => ([.hiu] : List Part).contains p) (by decide) (follows_refl s) (a1 := a1) (a2 := a2)
  exact ⟨h.queue, h.frame .free rfl, h.frame .regs rfl, h.frame .splitLatch rfl, h.frame .hostRead rfl, h.frame .cnt rfl, h.frame .tck
    rfl, h.frame .pwr rfl, h.frame .bays rfl, h.frame .ports rfl, h.frame .bfes rfl, h.frame .spn rfl, h.frame .out rfl, h.frame .cells
    rfl, h.frame .units rfl, h.frame .bus rfl, h.frame .axes rfl, h.frame .rdc rfl, h.frame .wrc rfl, h.frame .cal rfl, h.frame .qre rfl,
    h.frame .cmd rfl, h.frame .mem rfl, h.frame .kst rfl, h.frame .cph rfl, h.frame .bdy rfl, h.frame .bnd rfl⟩

@[simp] theorem setQuire_frame (s : State) (a1 : Quire) :
    (setQuire s a1).pending = s.pending ∧ (setQuire s a1).free = s.free ∧ (setQuire s a1).regs = s.regs ∧ (setQuire s a1).splitLatch =
      s.splitLatch ∧ (setQuire s a1).hostRead = s.hostRead ∧ (setQuire s a1).cnt = s.cnt ∧ (setQuire s a1).tck = s.tck ∧ (setQuire s a1).pwr
      = s.pwr ∧ (setQuire s a1).bays = s.bays ∧ (setQuire s a1).ports = s.ports ∧ (setQuire s a1).bfes = s.bfes ∧ (setQuire s a1).spn =
      s.spn ∧ (setQuire s a1).out = s.out ∧ (setQuire s a1).cells = s.cells ∧ (setQuire s a1).units = s.units ∧ (setQuire s a1).bus = s.bus
      ∧ (setQuire s a1).axes = s.axes ∧ (setQuire s a1).rdc = s.rdc ∧ (setQuire s a1).wrc = s.wrc ∧ (setQuire s a1).cal = s.cal ∧ (setQuire
      s a1).hiu = s.hiu ∧ (setQuire s a1).cmd = s.cmd ∧ (setQuire s a1).mem = s.mem ∧ (setQuire s a1).kst = s.kst ∧ (setQuire s a1).cph =
      s.cph ∧ (setQuire s a1).bdy = s.bdy ∧ (setQuire s a1).bnd = s.bnd := by
  have h := follows_setQuire (T := fun p => ([.qre] : List Part).contains p) (by decide) (follows_refl s) (a1 := a1)
  exact ⟨h.queue, h.frame .free rfl, h.frame .regs rfl, h.frame .splitLatch rfl, h.frame .hostRead rfl, h.frame .cnt rfl, h.frame .tck
    rfl, h.frame .pwr rfl, h.frame .bays rfl, h.frame .ports rfl, h.frame .bfes rfl, h.frame .spn rfl, h.frame .out rfl, h.frame .cells
    rfl, h.frame .units rfl, h.frame .bus rfl, h.frame .axes rfl, h.frame .rdc rfl, h.frame .wrc rfl, h.frame .cal rfl, h.frame .hiu rfl,
    h.frame .cmd rfl, h.frame .mem rfl, h.frame .kst rfl, h.frame .cph rfl, h.frame .bdy rfl, h.frame .bnd rfl⟩

@[simp] theorem setSurfW_frame (s : State) (a1 : Nat) (a2 : SurfW) :
    (setSurfW s a1 a2).pending = s.pending ∧ (setSurfW s a1 a2).free = s.free ∧ (setSurfW s a1 a2).regs = s.regs ∧ (setSurfW s a1
      a2).splitLatch = s.splitLatch ∧ (setSurfW s a1 a2).hostRead = s.hostRead ∧ (setSurfW s a1 a2).cnt = s.cnt ∧ (setSurfW s a1 a2).tck =
      s.tck ∧ (setSurfW s a1 a2).pwr = s.pwr ∧ (setSurfW s a1 a2).bays = s.bays ∧ (setSurfW s a1 a2).ports = s.ports ∧ (setSurfW s a1
      a2).bfes = s.bfes ∧ (setSurfW s a1 a2).spn = s.spn ∧ (setSurfW s a1 a2).out = s.out ∧ (setSurfW s a1 a2).cells = s.cells ∧ (setSurfW s
      a1 a2).units = s.units ∧ (setSurfW s a1 a2).bus = s.bus ∧ (setSurfW s a1 a2).axes = s.axes ∧ (setSurfW s a1 a2).rdc = s.rdc ∧
      (setSurfW s a1 a2).cal = s.cal ∧ (setSurfW s a1 a2).qre = s.qre ∧ (setSurfW s a1 a2).hiu = s.hiu ∧ (setSurfW s a1 a2).cmd = s.cmd ∧
      (setSurfW s a1 a2).mem = s.mem ∧ (setSurfW s a1 a2).kst = s.kst ∧ (setSurfW s a1 a2).cph = s.cph ∧ (setSurfW s a1 a2).bdy = s.bdy ∧
      (setSurfW s a1 a2).bnd = s.bnd := by
  have h := follows_setSurfW (T := fun p => ([.wrc] : List Part).contains p) (by decide) (follows_refl s) (a1 := a1) (a2 := a2)
  exact ⟨h.queue, h.frame .free rfl, h.frame .regs rfl, h.frame .splitLatch rfl, h.frame .hostRead rfl, h.frame .cnt rfl, h.frame .tck
    rfl, h.frame .pwr rfl, h.frame .bays rfl, h.frame .ports rfl, h.frame .bfes rfl, h.frame .spn rfl, h.frame .out rfl, h.frame .cells
    rfl, h.frame .units rfl, h.frame .bus rfl, h.frame .axes rfl, h.frame .rdc rfl, h.frame .cal rfl, h.frame .qre rfl, h.frame .hiu rfl,
    h.frame .cmd rfl, h.frame .mem rfl, h.frame .kst rfl, h.frame .cph rfl, h.frame .bdy rfl, h.frame .bnd rfl⟩

@[simp] theorem endRun_frame (s : State) (a1 : Nat) :
    (endRun s a1).pending = s.pending ∧ (endRun s a1).free = s.free ∧ (endRun s a1).regs = s.regs ∧ (endRun s a1).splitLatch =
      s.splitLatch ∧ (endRun s a1).hostRead = s.hostRead ∧ (endRun s a1).cnt = s.cnt ∧ (endRun s a1).tck = s.tck ∧ (endRun s a1).pwr = s.pwr
      ∧ (endRun s a1).bfes = s.bfes ∧ (endRun s a1).spn = s.spn ∧ (endRun s a1).out = s.out ∧ (endRun s a1).cells = s.cells ∧ (endRun s
      a1).units = s.units ∧ (endRun s a1).bus = s.bus ∧ (endRun s a1).axes = s.axes ∧ (endRun s a1).qre = s.qre ∧ (endRun s a1).hiu = s.hiu
      ∧ (endRun s a1).cmd = s.cmd ∧ (endRun s a1).mem = s.mem ∧ (endRun s a1).kst = s.kst ∧ (endRun s a1).cph = s.cph ∧ (endRun s a1).bdy =
      s.bdy ∧ (endRun s a1).bnd = s.bnd := by
  have h := follows_endRun (T := fun p => ([.bays, .ports, .rdc, .wrc, .cal] : List Part).contains p) (by decide) (follows_refl s) (a1
    := a1)
  exact ⟨h.queue, h.frame .free rfl, h.frame .regs rfl, h.frame .splitLatch rfl, h.frame .hostRead rfl, h.frame .cnt rfl, h.frame .tck
    rfl, h.frame .pwr rfl, h.frame .bfes rfl, h.frame .spn rfl, h.frame .out rfl, h.frame .cells rfl, h.frame .units rfl, h.frame .bus
    rfl, h.frame .axes rfl, h.frame .qre rfl, h.frame .hiu rfl, h.frame .cmd rfl, h.frame .mem rfl, h.frame .kst rfl, h.frame .cph rfl,
    h.frame .bdy rfl, h.frame .bnd rfl⟩

@[simp] theorem closeQuire_frame (s : State) (a1 : Nat) (a2 : Nat) :
    (closeQuire s a1 a2).pending = s.pending ∧ (closeQuire s a1 a2).free = s.free ∧ (closeQuire s a1 a2).regs = s.regs ∧ (closeQuire s a1
      a2).splitLatch = s.splitLatch ∧ (closeQuire s a1 a2).hostRead = s.hostRead ∧ (closeQuire s a1 a2).tck = s.tck ∧ (closeQuire s a1
      a2).pwr = s.pwr ∧ (closeQuire s a1 a2).bfes = s.bfes ∧ (closeQuire s a1 a2).spn = s.spn ∧ (closeQuire s a1 a2).cells = s.cells ∧
      (closeQuire s a1 a2).units = s.units ∧ (closeQuire s a1 a2).bus = s.bus ∧ (closeQuire s a1 a2).axes = s.axes ∧ (closeQuire s a1
      a2).hiu = s.hiu ∧ (closeQuire s a1 a2).cmd = s.cmd ∧ (closeQuire s a1 a2).mem = s.mem ∧ (closeQuire s a1 a2).kst = s.kst ∧ (closeQuire
      s a1 a2).cph = s.cph ∧ (closeQuire s a1 a2).bnd = s.bnd := by
  have h := follows_closeQuire (T := fun p => ([.cnt, .bays, .ports, .out, .rdc, .wrc, .cal, .qre, .bdy] : List Part).contains p) (by
    decide) (follows_refl s) (a1 := a1) (a2 := a2)
  exact ⟨h.queue, h.frame .free rfl, h.frame .regs rfl, h.frame .splitLatch rfl, h.frame .hostRead rfl, h.frame .tck rfl, h.frame .pwr
    rfl, h.frame .bfes rfl, h.frame .spn rfl, h.frame .cells rfl, h.frame .units rfl, h.frame .bus rfl, h.frame .axes rfl, h.frame .hiu
    rfl, h.frame .cmd rfl, h.frame .mem rfl, h.frame .kst rfl, h.frame .cph rfl, h.frame .bnd rfl⟩

@[simp] theorem abandonQuire_frame (s : State) (a1 : Nat) :
    (abandonQuire s a1).pending = s.pending ∧ (abandonQuire s a1).free = s.free ∧ (abandonQuire s a1).regs = s.regs ∧ (abandonQuire s
      a1).splitLatch = s.splitLatch ∧ (abandonQuire s a1).hostRead = s.hostRead ∧ (abandonQuire s a1).tck = s.tck ∧ (abandonQuire s a1).pwr
      = s.pwr ∧ (abandonQuire s a1).bfes = s.bfes ∧ (abandonQuire s a1).spn = s.spn ∧ (abandonQuire s a1).out = s.out ∧ (abandonQuire s
      a1).cells = s.cells ∧ (abandonQuire s a1).units = s.units ∧ (abandonQuire s a1).bus = s.bus ∧ (abandonQuire s a1).axes = s.axes ∧
      (abandonQuire s a1).hiu = s.hiu ∧ (abandonQuire s a1).cmd = s.cmd ∧ (abandonQuire s a1).mem = s.mem ∧ (abandonQuire s a1).kst = s.kst
      ∧ (abandonQuire s a1).cph = s.cph ∧ (abandonQuire s a1).bnd = s.bnd := by
  have h := follows_abandonQuire (T := fun p => ([.cnt, .bays, .ports, .rdc, .wrc, .cal, .qre, .bdy] : List Part).contains p) (by
    decide) (follows_refl s) (a1 := a1)
  exact ⟨h.queue, h.frame .free rfl, h.frame .regs rfl, h.frame .splitLatch rfl, h.frame .hostRead rfl, h.frame .tck rfl, h.frame .pwr
    rfl, h.frame .bfes rfl, h.frame .spn rfl, h.frame .out rfl, h.frame .cells rfl, h.frame .units rfl, h.frame .bus rfl, h.frame .axes
    rfl, h.frame .hiu rfl, h.frame .cmd rfl, h.frame .mem rfl, h.frame .kst rfl, h.frame .cph rfl, h.frame .bnd rfl⟩

@[simp] theorem setCal_frame (s : State) (a1 : Nat) (a2 : Nat) (a3 : CalRec) :
    (setCal s a1 a2 a3).pending = s.pending ∧ (setCal s a1 a2 a3).free = s.free ∧ (setCal s a1 a2 a3).regs = s.regs ∧ (setCal s a1 a2
      a3).splitLatch = s.splitLatch ∧ (setCal s a1 a2 a3).hostRead = s.hostRead ∧ (setCal s a1 a2 a3).cnt = s.cnt ∧ (setCal s a1 a2 a3).tck
      = s.tck ∧ (setCal s a1 a2 a3).pwr = s.pwr ∧ (setCal s a1 a2 a3).bays = s.bays ∧ (setCal s a1 a2 a3).ports = s.ports ∧ (setCal s a1 a2
      a3).bfes = s.bfes ∧ (setCal s a1 a2 a3).spn = s.spn ∧ (setCal s a1 a2 a3).out = s.out ∧ (setCal s a1 a2 a3).cells = s.cells ∧ (setCal
      s a1 a2 a3).units = s.units ∧ (setCal s a1 a2 a3).bus = s.bus ∧ (setCal s a1 a2 a3).axes = s.axes ∧ (setCal s a1 a2 a3).rdc = s.rdc ∧
      (setCal s a1 a2 a3).wrc = s.wrc ∧ (setCal s a1 a2 a3).qre = s.qre ∧ (setCal s a1 a2 a3).hiu = s.hiu ∧ (setCal s a1 a2 a3).cmd = s.cmd
      ∧ (setCal s a1 a2 a3).mem = s.mem ∧ (setCal s a1 a2 a3).kst = s.kst ∧ (setCal s a1 a2 a3).cph = s.cph ∧ (setCal s a1 a2 a3).bdy =
      s.bdy ∧ (setCal s a1 a2 a3).bnd = s.bnd := by
  have h := follows_setCal (T := fun p => ([.cal] : List Part).contains p) (by decide) (follows_refl s) (a1 := a1) (a2 := a2) (a3 := a3)
  exact ⟨h.queue, h.frame .free rfl, h.frame .regs rfl, h.frame .splitLatch rfl, h.frame .hostRead rfl, h.frame .cnt rfl, h.frame .tck
    rfl, h.frame .pwr rfl, h.frame .bays rfl, h.frame .ports rfl, h.frame .bfes rfl, h.frame .spn rfl, h.frame .out rfl, h.frame .cells
    rfl, h.frame .units rfl, h.frame .bus rfl, h.frame .axes rfl, h.frame .rdc rfl, h.frame .wrc rfl, h.frame .qre rfl, h.frame .hiu rfl,
    h.frame .cmd rfl, h.frame .mem rfl, h.frame .kst rfl, h.frame .cph rfl, h.frame .bdy rfl, h.frame .bnd rfl⟩

@[simp] theorem dueCal_frame (s : State) (a1 : Nat) (a2 : Nat) (a3 : CalKind) (a4 : Bool) (a5 : Bool) :
    (dueCal s a1 a2 a3 a4 a5).pending = s.pending ∧ (dueCal s a1 a2 a3 a4 a5).free = s.free ∧ (dueCal s a1 a2 a3 a4 a5).regs = s.regs ∧
      (dueCal s a1 a2 a3 a4 a5).splitLatch = s.splitLatch ∧ (dueCal s a1 a2 a3 a4 a5).hostRead = s.hostRead ∧ (dueCal s a1 a2 a3 a4 a5).cnt
      = s.cnt ∧ (dueCal s a1 a2 a3 a4 a5).tck = s.tck ∧ (dueCal s a1 a2 a3 a4 a5).pwr = s.pwr ∧ (dueCal s a1 a2 a3 a4 a5).bays = s.bays ∧
      (dueCal s a1 a2 a3 a4 a5).ports = s.ports ∧ (dueCal s a1 a2 a3 a4 a5).bfes = s.bfes ∧ (dueCal s a1 a2 a3 a4 a5).spn = s.spn ∧ (dueCal
      s a1 a2 a3 a4 a5).out = s.out ∧ (dueCal s a1 a2 a3 a4 a5).cells = s.cells ∧ (dueCal s a1 a2 a3 a4 a5).units = s.units ∧ (dueCal s a1
      a2 a3 a4 a5).bus = s.bus ∧ (dueCal s a1 a2 a3 a4 a5).axes = s.axes ∧ (dueCal s a1 a2 a3 a4 a5).rdc = s.rdc ∧ (dueCal s a1 a2 a3 a4
      a5).wrc = s.wrc ∧ (dueCal s a1 a2 a3 a4 a5).qre = s.qre ∧ (dueCal s a1 a2 a3 a4 a5).hiu = s.hiu ∧ (dueCal s a1 a2 a3 a4 a5).cmd =
      s.cmd ∧ (dueCal s a1 a2 a3 a4 a5).mem = s.mem ∧ (dueCal s a1 a2 a3 a4 a5).kst = s.kst ∧ (dueCal s a1 a2 a3 a4 a5).cph = s.cph ∧
      (dueCal s a1 a2 a3 a4 a5).bdy = s.bdy ∧ (dueCal s a1 a2 a3 a4 a5).bnd = s.bnd := by
  have h := follows_dueCal (T := fun p => ([.cal] : List Part).contains p) (by decide) (follows_refl s) (a1 := a1) (a2 := a2) (a3 := a3)
    (a4 := a4) (a5 := a5)
  exact ⟨h.queue, h.frame .free rfl, h.frame .regs rfl, h.frame .splitLatch rfl, h.frame .hostRead rfl, h.frame .cnt rfl, h.frame .tck
    rfl, h.frame .pwr rfl, h.frame .bays rfl, h.frame .ports rfl, h.frame .bfes rfl, h.frame .spn rfl, h.frame .out rfl, h.frame .cells
    rfl, h.frame .units rfl, h.frame .bus rfl, h.frame .axes rfl, h.frame .rdc rfl, h.frame .wrc rfl, h.frame .qre rfl, h.frame .hiu rfl,
    h.frame .cmd rfl, h.frame .mem rfl, h.frame .kst rfl, h.frame .cph rfl, h.frame .bdy rfl, h.frame .bnd rfl⟩

@[simp] theorem endGrant_frame (s : State) (a1 : Nat) (a2 : Nat) :
    (endGrant s a1 a2).pending = s.pending ∧ (endGrant s a1 a2).free = s.free ∧ (endGrant s a1 a2).regs = s.regs ∧ (endGrant s a1
      a2).splitLatch = s.splitLatch ∧ (endGrant s a1 a2).hostRead = s.hostRead ∧ (endGrant s a1 a2).tck = s.tck ∧ (endGrant s a1 a2).pwr =
      s.pwr ∧ (endGrant s a1 a2).bfes = s.bfes ∧ (endGrant s a1 a2).out = s.out ∧ (endGrant s a1 a2).bus = s.bus ∧ (endGrant s a1 a2).rdc =
      s.rdc ∧ (endGrant s a1 a2).wrc = s.wrc ∧ (endGrant s a1 a2).cal = s.cal ∧ (endGrant s a1 a2).qre = s.qre ∧ (endGrant s a1 a2).hiu =
      s.hiu ∧ (endGrant s a1 a2).cmd = s.cmd ∧ (endGrant s a1 a2).mem = s.mem ∧ (endGrant s a1 a2).kst = s.kst ∧ (endGrant s a1 a2).cph =
      s.cph ∧ (endGrant s a1 a2).bdy = s.bdy ∧ (endGrant s a1 a2).bnd = s.bnd := by
  have h := follows_endGrant (T := fun p => ([.cnt, .bays, .ports, .spn, .cells, .units, .axes] : List Part).contains p) (by decide)
    (follows_refl s) (a1 := a1) (a2 := a2)
  exact ⟨h.queue, h.frame .free rfl, h.frame .regs rfl, h.frame .splitLatch rfl, h.frame .hostRead rfl, h.frame .tck rfl, h.frame .pwr
    rfl, h.frame .bfes rfl, h.frame .out rfl, h.frame .bus rfl, h.frame .rdc rfl, h.frame .wrc rfl, h.frame .cal rfl, h.frame .qre rfl,
    h.frame .hiu rfl, h.frame .cmd rfl, h.frame .mem rfl, h.frame .kst rfl, h.frame .cph rfl, h.frame .bdy rfl, h.frame .bnd rfl⟩

@[simp] theorem grant_frame (s : State) (a1 : Nat) (a2 : Nat) :
    (grant s a1 a2).pending = s.pending ∧ (grant s a1 a2).free = s.free ∧ (grant s a1 a2).regs = s.regs ∧ (grant s a1 a2).splitLatch =
      s.splitLatch ∧ (grant s a1 a2).hostRead = s.hostRead ∧ (grant s a1 a2).cnt = s.cnt ∧ (grant s a1 a2).tck = s.tck ∧ (grant s a1 a2).pwr
      = s.pwr ∧ (grant s a1 a2).ports = s.ports ∧ (grant s a1 a2).bfes = s.bfes ∧ (grant s a1 a2).spn = s.spn ∧ (grant s a1 a2).out = s.out
      ∧ (grant s a1 a2).cells = s.cells ∧ (grant s a1 a2).units = s.units ∧ (grant s a1 a2).bus = s.bus ∧ (grant s a1 a2).axes = s.axes ∧
      (grant s a1 a2).rdc = s.rdc ∧ (grant s a1 a2).wrc = s.wrc ∧ (grant s a1 a2).cal = s.cal ∧ (grant s a1 a2).qre = s.qre ∧ (grant s a1
      a2).hiu = s.hiu ∧ (grant s a1 a2).cmd = s.cmd ∧ (grant s a1 a2).mem = s.mem ∧ (grant s a1 a2).kst = s.kst ∧ (grant s a1 a2).cph =
      s.cph ∧ (grant s a1 a2).bdy = s.bdy ∧ (grant s a1 a2).bnd = s.bnd := by
  have h := follows_grant (T := fun p => ([.bays] : List Part).contains p) (by decide) (follows_refl s) (a1 := a1) (a2 := a2)
  exact ⟨h.queue, h.frame .free rfl, h.frame .regs rfl, h.frame .splitLatch rfl, h.frame .hostRead rfl, h.frame .cnt rfl, h.frame .tck
    rfl, h.frame .pwr rfl, h.frame .ports rfl, h.frame .bfes rfl, h.frame .spn rfl, h.frame .out rfl, h.frame .cells rfl, h.frame .units
    rfl, h.frame .bus rfl, h.frame .axes rfl, h.frame .rdc rfl, h.frame .wrc rfl, h.frame .cal rfl, h.frame .qre rfl, h.frame .hiu rfl,
    h.frame .cmd rfl, h.frame .mem rfl, h.frame .kst rfl, h.frame .cph rfl, h.frame .bdy rfl, h.frame .bnd rfl⟩

@[simp] theorem computeBays_frame (s : State) (a1 : List Nat) :
    (computeBays s a1).pending = s.pending ∧ (computeBays s a1).free = s.free ∧ (computeBays s a1).splitLatch = s.splitLatch ∧
      (computeBays s a1).hostRead = s.hostRead ∧ (computeBays s a1).tck = s.tck ∧ (computeBays s a1).pwr = s.pwr ∧ (computeBays s a1).bays =
      s.bays ∧ (computeBays s a1).bfes = s.bfes ∧ (computeBays s a1).spn = s.spn ∧ (computeBays s a1).out = s.out ∧ (computeBays s a1).wrc =
      s.wrc ∧ (computeBays s a1).cal = s.cal ∧ (computeBays s a1).qre = s.qre ∧ (computeBays s a1).hiu = s.hiu ∧ (computeBays s a1).cmd =
      s.cmd ∧ (computeBays s a1).mem = s.mem ∧ (computeBays s a1).kst = s.kst ∧ (computeBays s a1).cph = s.cph ∧ (computeBays s a1).bdy =
      s.bdy ∧ (computeBays s a1).bnd = s.bnd := by
  have h := follows_computeBays (T := fun p => ([.regs, .cnt, .ports, .cells, .units, .bus, .axes, .rdc] : List Part).contains p) (by
    decide) (follows_refl s) (a1 := a1)
  exact ⟨h.queue, h.frame .free rfl, h.frame .splitLatch rfl, h.frame .hostRead rfl, h.frame .tck rfl, h.frame .pwr rfl, h.frame .bays
    rfl, h.frame .bfes rfl, h.frame .spn rfl, h.frame .out rfl, h.frame .wrc rfl, h.frame .cal rfl, h.frame .qre rfl, h.frame .hiu rfl,
    h.frame .cmd rfl, h.frame .mem rfl, h.frame .kst rfl, h.frame .cph rfl, h.frame .bdy rfl, h.frame .bnd rfl⟩

@[simp] theorem sendBay_frame (s : State) (a1 : Nat) :
    (sendBay s a1).pending = s.pending ∧ (sendBay s a1).free = s.free ∧ (sendBay s a1).regs = s.regs ∧ (sendBay s a1).splitLatch =
      s.splitLatch ∧ (sendBay s a1).hostRead = s.hostRead ∧ (sendBay s a1).tck = s.tck ∧ (sendBay s a1).pwr = s.pwr ∧ (sendBay s a1).bays =
      s.bays ∧ (sendBay s a1).bfes = s.bfes ∧ (sendBay s a1).out = s.out ∧ (sendBay s a1).cells = s.cells ∧ (sendBay s a1).units = s.units ∧
      (sendBay s a1).bus = s.bus ∧ (sendBay s a1).axes = s.axes ∧ (sendBay s a1).rdc = s.rdc ∧ (sendBay s a1).wrc = s.wrc ∧ (sendBay s
      a1).cal = s.cal ∧ (sendBay s a1).qre = s.qre ∧ (sendBay s a1).hiu = s.hiu ∧ (sendBay s a1).cmd = s.cmd ∧ (sendBay s a1).mem = s.mem ∧
      (sendBay s a1).kst = s.kst ∧ (sendBay s a1).cph = s.cph ∧ (sendBay s a1).bdy = s.bdy ∧ (sendBay s a1).bnd = s.bnd := by
  have h := follows_sendBay (T := fun p => ([.cnt, .ports, .spn] : List Part).contains p) (by decide) (follows_refl s) (a1 := a1)
  exact ⟨h.queue, h.frame .free rfl, h.frame .regs rfl, h.frame .splitLatch rfl, h.frame .hostRead rfl, h.frame .tck rfl, h.frame .pwr
    rfl, h.frame .bays rfl, h.frame .bfes rfl, h.frame .out rfl, h.frame .cells rfl, h.frame .units rfl, h.frame .bus rfl, h.frame .axes
    rfl, h.frame .rdc rfl, h.frame .wrc rfl, h.frame .cal rfl, h.frame .qre rfl, h.frame .hiu rfl, h.frame .cmd rfl, h.frame .mem rfl,
    h.frame .kst rfl, h.frame .cph rfl, h.frame .bdy rfl, h.frame .bnd rfl⟩

@[simp] theorem keepRing_frame (s : State) (a1 : Nat) :
    (keepRing s a1).pending = s.pending ∧ (keepRing s a1).free = s.free ∧ (keepRing s a1).regs = s.regs ∧ (keepRing s a1).splitLatch =
      s.splitLatch ∧ (keepRing s a1).hostRead = s.hostRead ∧ (keepRing s a1).cnt = s.cnt ∧ (keepRing s a1).tck = s.tck ∧ (keepRing s a1).pwr
      = s.pwr ∧ (keepRing s a1).bays = s.bays ∧ (keepRing s a1).ports = s.ports ∧ (keepRing s a1).bfes = s.bfes ∧ (keepRing s a1).out =
      s.out ∧ (keepRing s a1).cells = s.cells ∧ (keepRing s a1).units = s.units ∧ (keepRing s a1).bus = s.bus ∧ (keepRing s a1).axes =
      s.axes ∧ (keepRing s a1).rdc = s.rdc ∧ (keepRing s a1).wrc = s.wrc ∧ (keepRing s a1).cal = s.cal ∧ (keepRing s a1).qre = s.qre ∧
      (keepRing s a1).hiu = s.hiu ∧ (keepRing s a1).cmd = s.cmd ∧ (keepRing s a1).mem = s.mem ∧ (keepRing s a1).kst = s.kst ∧ (keepRing s
      a1).cph = s.cph ∧ (keepRing s a1).bdy = s.bdy ∧ (keepRing s a1).bnd = s.bnd := by
  have h := follows_keepRing (T := fun p => ([.spn] : List Part).contains p) (by decide) (follows_refl s) (a1 := a1)
  exact ⟨h.queue, h.frame .free rfl, h.frame .regs rfl, h.frame .splitLatch rfl, h.frame .hostRead rfl, h.frame .cnt rfl, h.frame .tck
    rfl, h.frame .pwr rfl, h.frame .bays rfl, h.frame .ports rfl, h.frame .bfes rfl, h.frame .out rfl, h.frame .cells rfl, h.frame .units
    rfl, h.frame .bus rfl, h.frame .axes rfl, h.frame .rdc rfl, h.frame .wrc rfl, h.frame .cal rfl, h.frame .qre rfl, h.frame .hiu rfl,
    h.frame .cmd rfl, h.frame .mem rfl, h.frame .kst rfl, h.frame .cph rfl, h.frame .bdy rfl, h.frame .bnd rfl⟩

@[simp] theorem edgeChanges_frame (s : State) :
    (edgeChanges s).pending = s.pending ∧ (edgeChanges s).free = s.free ∧ (edgeChanges s).regs = s.regs ∧ (edgeChanges s).splitLatch =
      s.splitLatch ∧ (edgeChanges s).hostRead = s.hostRead ∧ (edgeChanges s).tck = s.tck ∧ (edgeChanges s).pwr = s.pwr ∧ (edgeChanges
      s).ports = s.ports ∧ (edgeChanges s).bfes = s.bfes ∧ (edgeChanges s).spn = s.spn ∧ (edgeChanges s).out = s.out ∧ (edgeChanges s).bus =
      s.bus ∧ (edgeChanges s).rdc = s.rdc ∧ (edgeChanges s).wrc = s.wrc ∧ (edgeChanges s).cal = s.cal ∧ (edgeChanges s).qre = s.qre ∧
      (edgeChanges s).hiu = s.hiu ∧ (edgeChanges s).cmd = s.cmd ∧ (edgeChanges s).mem = s.mem ∧ (edgeChanges s).kst = s.kst ∧ (edgeChanges
      s).cph = s.cph ∧ (edgeChanges s).bdy = s.bdy ∧ (edgeChanges s).bnd = s.bnd := by
  have h := follows_edgeChanges (T := fun p => ([.cnt, .bays, .cells, .units, .axes] : List Part).contains p) (by decide) (follows_refl s)
  exact ⟨h.queue, h.frame .free rfl, h.frame .regs rfl, h.frame .splitLatch rfl, h.frame .hostRead rfl, h.frame .tck rfl, h.frame .pwr
    rfl, h.frame .ports rfl, h.frame .bfes rfl, h.frame .spn rfl, h.frame .out rfl, h.frame .bus rfl, h.frame .rdc rfl, h.frame .wrc rfl,
    h.frame .cal rfl, h.frame .qre rfl, h.frame .hiu rfl, h.frame .cmd rfl, h.frame .mem rfl, h.frame .kst rfl, h.frame .cph rfl, h.frame
    .bdy rfl, h.frame .bnd rfl⟩

@[simp] theorem alignStep_frame (s : State) (a1 : Int) :
    (alignStep s a1).pending = s.pending ∧ (alignStep s a1).free = s.free ∧ (alignStep s a1).regs = s.regs ∧ (alignStep s a1).splitLatch =
      s.splitLatch ∧ (alignStep s a1).hostRead = s.hostRead ∧ (alignStep s a1).pwr = s.pwr ∧ (alignStep s a1).bays = s.bays ∧ (alignStep s
      a1).ports = s.ports ∧ (alignStep s a1).bfes = s.bfes ∧ (alignStep s a1).spn = s.spn ∧ (alignStep s a1).out = s.out ∧ (alignStep s
      a1).cells = s.cells ∧ (alignStep s a1).units = s.units ∧ (alignStep s a1).bus = s.bus ∧ (alignStep s a1).axes = s.axes ∧ (alignStep s
      a1).rdc = s.rdc ∧ (alignStep s a1).wrc = s.wrc ∧ (alignStep s a1).cal = s.cal ∧ (alignStep s a1).qre = s.qre ∧ (alignStep s a1).hiu =
      s.hiu ∧ (alignStep s a1).cmd = s.cmd ∧ (alignStep s a1).mem = s.mem ∧ (alignStep s a1).kst = s.kst ∧ (alignStep s a1).cph = s.cph ∧
      (alignStep s a1).bdy = s.bdy ∧ (alignStep s a1).bnd = s.bnd := by
  have h := follows_alignStep (T := fun p => ([.cnt, .tck] : List Part).contains p) (by decide) (follows_refl s) (a1 := a1)
  exact ⟨h.queue, h.frame .free rfl, h.frame .regs rfl, h.frame .splitLatch rfl, h.frame .hostRead rfl, h.frame .pwr rfl, h.frame .bays
    rfl, h.frame .ports rfl, h.frame .bfes rfl, h.frame .spn rfl, h.frame .out rfl, h.frame .cells rfl, h.frame .units rfl, h.frame .bus
    rfl, h.frame .axes rfl, h.frame .rdc rfl, h.frame .wrc rfl, h.frame .cal rfl, h.frame .qre rfl, h.frame .hiu rfl, h.frame .cmd rfl,
    h.frame .mem rfl, h.frame .kst rfl, h.frame .cph rfl, h.frame .bdy rfl, h.frame .bnd rfl⟩

@[simp] theorem samplePins_frame (s : State) (a1 : EdgeIn) :
    (samplePins s a1).pending = s.pending ∧ (samplePins s a1).free = s.free ∧ (samplePins s a1).regs = s.regs ∧ (samplePins s
      a1).splitLatch = s.splitLatch ∧ (samplePins s a1).hostRead = s.hostRead ∧ (samplePins s a1).cnt = s.cnt ∧ (samplePins s a1).tck =
      s.tck ∧ (samplePins s a1).bays = s.bays ∧ (samplePins s a1).ports = s.ports ∧ (samplePins s a1).bfes = s.bfes ∧ (samplePins s a1).out
      = s.out ∧ (samplePins s a1).cells = s.cells ∧ (samplePins s a1).units = s.units ∧ (samplePins s a1).bus = s.bus ∧ (samplePins s
      a1).axes = s.axes ∧ (samplePins s a1).rdc = s.rdc ∧ (samplePins s a1).wrc = s.wrc ∧ (samplePins s a1).cal = s.cal ∧ (samplePins s
      a1).qre = s.qre ∧ (samplePins s a1).hiu = s.hiu ∧ (samplePins s a1).cmd = s.cmd ∧ (samplePins s a1).mem = s.mem ∧ (samplePins s
      a1).kst = s.kst ∧ (samplePins s a1).cph = s.cph ∧ (samplePins s a1).bdy = s.bdy ∧ (samplePins s a1).bnd = s.bnd := by
  have h := follows_samplePins (T := fun p => ([.pwr, .spn] : List Part).contains p) (by decide) (follows_refl s) (a1 := a1)
  exact ⟨h.queue, h.frame .free rfl, h.frame .regs rfl, h.frame .splitLatch rfl, h.frame .hostRead rfl, h.frame .cnt rfl, h.frame .tck
    rfl, h.frame .bays rfl, h.frame .ports rfl, h.frame .bfes rfl, h.frame .out rfl, h.frame .cells rfl, h.frame .units rfl, h.frame .bus
    rfl, h.frame .axes rfl, h.frame .rdc rfl, h.frame .wrc rfl, h.frame .cal rfl, h.frame .qre rfl, h.frame .hiu rfl, h.frame .cmd rfl,
    h.frame .mem rfl, h.frame .kst rfl, h.frame .cph rfl, h.frame .bdy rfl, h.frame .bnd rfl⟩

@[simp] theorem countUrgent_frame (s : State) :
    (countUrgent s).pending = s.pending ∧ (countUrgent s).free = s.free ∧ (countUrgent s).regs = s.regs ∧ (countUrgent s).splitLatch =
      s.splitLatch ∧ (countUrgent s).hostRead = s.hostRead ∧ (countUrgent s).tck = s.tck ∧ (countUrgent s).pwr = s.pwr ∧ (countUrgent
      s).bays = s.bays ∧ (countUrgent s).ports = s.ports ∧ (countUrgent s).bfes = s.bfes ∧ (countUrgent s).spn = s.spn ∧ (countUrgent s).out
      = s.out ∧ (countUrgent s).cells = s.cells ∧ (countUrgent s).units = s.units ∧ (countUrgent s).bus = s.bus ∧ (countUrgent s).axes =
      s.axes ∧ (countUrgent s).rdc = s.rdc ∧ (countUrgent s).wrc = s.wrc ∧ (countUrgent s).cal = s.cal ∧ (countUrgent s).qre = s.qre ∧
      (countUrgent s).hiu = s.hiu ∧ (countUrgent s).cmd = s.cmd ∧ (countUrgent s).mem = s.mem ∧ (countUrgent s).kst = s.kst ∧ (countUrgent
      s).cph = s.cph ∧ (countUrgent s).bdy = s.bdy ∧ (countUrgent s).bnd = s.bnd := by
  have h := follows_countUrgent (T := fun p => ([.cnt] : List Part).contains p) (by decide) (follows_refl s)
  exact ⟨h.queue, h.frame .free rfl, h.frame .regs rfl, h.frame .splitLatch rfl, h.frame .hostRead rfl, h.frame .tck rfl, h.frame .pwr
    rfl, h.frame .bays rfl, h.frame .ports rfl, h.frame .bfes rfl, h.frame .spn rfl, h.frame .out rfl, h.frame .cells rfl, h.frame .units
    rfl, h.frame .bus rfl, h.frame .axes rfl, h.frame .rdc rfl, h.frame .wrc rfl, h.frame .cal rfl, h.frame .qre rfl, h.frame .hiu rfl,
    h.frame .cmd rfl, h.frame .mem rfl, h.frame .kst rfl, h.frame .cph rfl, h.frame .bdy rfl, h.frame .bnd rfl⟩

@[simp] theorem surfaceLost_frame (s : State) (a1 : Nat) :
    (surfaceLost s a1).pending = s.pending ∧ (surfaceLost s a1).regs = s.regs ∧ (surfaceLost s a1).splitLatch = s.splitLatch ∧
      (surfaceLost s a1).hostRead = s.hostRead ∧ (surfaceLost s a1).tck = s.tck ∧ (surfaceLost s a1).pwr = s.pwr ∧ (surfaceLost s a1).bfes =
      s.bfes ∧ (surfaceLost s a1).spn = s.spn ∧ (surfaceLost s a1).cells = s.cells ∧ (surfaceLost s a1).units = s.units ∧ (surfaceLost s
      a1).bus = s.bus ∧ (surfaceLost s a1).axes = s.axes ∧ (surfaceLost s a1).cmd = s.cmd ∧ (surfaceLost s a1).mem = s.mem ∧ (surfaceLost s
      a1).kst = s.kst ∧ (surfaceLost s a1).bnd = s.bnd := by
  have h := follows_surfaceLost (T := fun p => ([.free, .cnt, .bays, .ports, .out, .rdc, .wrc, .cal, .qre, .hiu, .cph, .bdy] : List
    Part).contains p) (by decide) (follows_refl s) (a1 := a1)
  exact ⟨h.queue, h.frame .regs rfl, h.frame .splitLatch rfl, h.frame .hostRead rfl, h.frame .tck rfl, h.frame .pwr rfl, h.frame .bfes
    rfl, h.frame .spn rfl, h.frame .cells rfl, h.frame .units rfl, h.frame .bus rfl, h.frame .axes rfl, h.frame .cmd rfl, h.frame .mem
    rfl, h.frame .kst rfl, h.frame .bnd rfl⟩

@[simp] theorem plausHoldOpen_frame (s : State) (a1 : Nat) (a2 : Nat) :
    (plausHoldOpen s a1 a2).pending = s.pending ∧ (plausHoldOpen s a1 a2).free = s.free ∧ (plausHoldOpen s a1 a2).regs = s.regs ∧
      (plausHoldOpen s a1 a2).splitLatch = s.splitLatch ∧ (plausHoldOpen s a1 a2).hostRead = s.hostRead ∧ (plausHoldOpen s a1 a2).tck =
      s.tck ∧ (plausHoldOpen s a1 a2).pwr = s.pwr ∧ (plausHoldOpen s a1 a2).bays = s.bays ∧ (plausHoldOpen s a1 a2).ports = s.ports ∧
      (plausHoldOpen s a1 a2).bfes = s.bfes ∧ (plausHoldOpen s a1 a2).spn = s.spn ∧ (plausHoldOpen s a1 a2).out = s.out ∧ (plausHoldOpen s
      a1 a2).units = s.units ∧ (plausHoldOpen s a1 a2).bus = s.bus ∧ (plausHoldOpen s a1 a2).axes = s.axes ∧ (plausHoldOpen s a1 a2).rdc =
      s.rdc ∧ (plausHoldOpen s a1 a2).wrc = s.wrc ∧ (plausHoldOpen s a1 a2).cal = s.cal ∧ (plausHoldOpen s a1 a2).qre = s.qre ∧
      (plausHoldOpen s a1 a2).hiu = s.hiu ∧ (plausHoldOpen s a1 a2).cmd = s.cmd ∧ (plausHoldOpen s a1 a2).mem = s.mem ∧ (plausHoldOpen s a1
      a2).kst = s.kst ∧ (plausHoldOpen s a1 a2).cph = s.cph ∧ (plausHoldOpen s a1 a2).bdy = s.bdy ∧ (plausHoldOpen s a1 a2).bnd = s.bnd :=
      by
  have h := follows_plausHoldOpen (T := fun p => ([.cnt, .cells] : List Part).contains p) (by decide) (follows_refl s) (a1 := a1) (a2 := a2)
  exact ⟨h.queue, h.frame .free rfl, h.frame .regs rfl, h.frame .splitLatch rfl, h.frame .hostRead rfl, h.frame .tck rfl, h.frame .pwr
    rfl, h.frame .bays rfl, h.frame .ports rfl, h.frame .bfes rfl, h.frame .spn rfl, h.frame .out rfl, h.frame .units rfl, h.frame .bus
    rfl, h.frame .axes rfl, h.frame .rdc rfl, h.frame .wrc rfl, h.frame .cal rfl, h.frame .qre rfl, h.frame .hiu rfl, h.frame .cmd rfl,
    h.frame .mem rfl, h.frame .kst rfl, h.frame .cph rfl, h.frame .bdy rfl, h.frame .bnd rfl⟩

@[simp] theorem bumpN_frame (s : State) (a1 : Nat) (a2 : Nat) (a3 : Nat) :
    (bumpN s a1 a2 a3).pending = s.pending ∧ (bumpN s a1 a2 a3).free = s.free ∧ (bumpN s a1 a2 a3).regs = s.regs ∧ (bumpN s a1 a2
      a3).splitLatch = s.splitLatch ∧ (bumpN s a1 a2 a3).hostRead = s.hostRead ∧ (bumpN s a1 a2 a3).tck = s.tck ∧ (bumpN s a1 a2 a3).pwr =
      s.pwr ∧ (bumpN s a1 a2 a3).bays = s.bays ∧ (bumpN s a1 a2 a3).ports = s.ports ∧ (bumpN s a1 a2 a3).bfes = s.bfes ∧ (bumpN s a1 a2
      a3).spn = s.spn ∧ (bumpN s a1 a2 a3).out = s.out ∧ (bumpN s a1 a2 a3).cells = s.cells ∧ (bumpN s a1 a2 a3).units = s.units ∧ (bumpN s
      a1 a2 a3).bus = s.bus ∧ (bumpN s a1 a2 a3).axes = s.axes ∧ (bumpN s a1 a2 a3).rdc = s.rdc ∧ (bumpN s a1 a2 a3).wrc = s.wrc ∧ (bumpN s
      a1 a2 a3).cal = s.cal ∧ (bumpN s a1 a2 a3).qre = s.qre ∧ (bumpN s a1 a2 a3).hiu = s.hiu ∧ (bumpN s a1 a2 a3).cmd = s.cmd ∧ (bumpN s a1
      a2 a3).mem = s.mem ∧ (bumpN s a1 a2 a3).kst = s.kst ∧ (bumpN s a1 a2 a3).cph = s.cph ∧ (bumpN s a1 a2 a3).bdy = s.bdy ∧ (bumpN s a1 a2
      a3).bnd = s.bnd := by
  have h := follows_bumpN (T := fun p => ([.cnt] : List Part).contains p) (by decide) (follows_refl s) (a1 := a1) (a2 := a2) (a3 := a3)
  exact ⟨h.queue, h.frame .free rfl, h.frame .regs rfl, h.frame .splitLatch rfl, h.frame .hostRead rfl, h.frame .tck rfl, h.frame .pwr
    rfl, h.frame .bays rfl, h.frame .ports rfl, h.frame .bfes rfl, h.frame .spn rfl, h.frame .out rfl, h.frame .cells rfl, h.frame .units
    rfl, h.frame .bus rfl, h.frame .axes rfl, h.frame .rdc rfl, h.frame .wrc rfl, h.frame .cal rfl, h.frame .qre rfl, h.frame .hiu rfl,
    h.frame .cmd rfl, h.frame .mem rfl, h.frame .kst rfl, h.frame .cph rfl, h.frame .bdy rfl, h.frame .bnd rfl⟩

@[simp] theorem releaseVersions_frame (s : State) :
    (releaseVersions s).pending = s.pending ∧ (releaseVersions s).free = s.free ∧ (releaseVersions s).regs = s.regs ∧ (releaseVersions
      s).splitLatch = s.splitLatch ∧ (releaseVersions s).hostRead = s.hostRead ∧ (releaseVersions s).cnt = s.cnt ∧ (releaseVersions s).tck =
      s.tck ∧ (releaseVersions s).pwr = s.pwr ∧ (releaseVersions s).bays = s.bays ∧ (releaseVersions s).ports = s.ports ∧ (releaseVersions
      s).bfes = s.bfes ∧ (releaseVersions s).spn = s.spn ∧ (releaseVersions s).out = s.out ∧ (releaseVersions s).cells = s.cells ∧
      (releaseVersions s).units = s.units ∧ (releaseVersions s).bus = s.bus ∧ (releaseVersions s).axes = s.axes ∧ (releaseVersions s).rdc =
      s.rdc ∧ (releaseVersions s).wrc = s.wrc ∧ (releaseVersions s).cal = s.cal ∧ (releaseVersions s).hiu = s.hiu ∧ (releaseVersions s).mem
      = s.mem ∧ (releaseVersions s).kst = s.kst ∧ (releaseVersions s).cph = s.cph ∧ (releaseVersions s).bdy = s.bdy ∧ (releaseVersions
      s).bnd = s.bnd := by
  have h := follows_releaseVersions (T := fun p => ([.qre, .cmd] : List Part).contains p) (by decide) (follows_refl s)
  exact ⟨h.queue, h.frame .free rfl, h.frame .regs rfl, h.frame .splitLatch rfl, h.frame .hostRead rfl, h.frame .cnt rfl, h.frame .tck
    rfl, h.frame .pwr rfl, h.frame .bays rfl, h.frame .ports rfl, h.frame .bfes rfl, h.frame .spn rfl, h.frame .out rfl, h.frame .cells
    rfl, h.frame .units rfl, h.frame .bus rfl, h.frame .axes rfl, h.frame .rdc rfl, h.frame .wrc rfl, h.frame .cal rfl, h.frame .hiu rfl,
    h.frame .mem rfl, h.frame .kst rfl, h.frame .cph rfl, h.frame .bdy rfl, h.frame .bnd rfl⟩

@[simp] theorem loseMirror_frame (s : State) :
    (loseMirror s).pending = s.pending ∧ (loseMirror s).free = s.free ∧ (loseMirror s).regs = s.regs ∧ (loseMirror s).splitLatch =
      s.splitLatch ∧ (loseMirror s).hostRead = s.hostRead ∧ (loseMirror s).cnt = s.cnt ∧ (loseMirror s).tck = s.tck ∧ (loseMirror s).pwr =
      s.pwr ∧ (loseMirror s).bays = s.bays ∧ (loseMirror s).ports = s.ports ∧ (loseMirror s).bfes = s.bfes ∧ (loseMirror s).spn = s.spn ∧
      (loseMirror s).cells = s.cells ∧ (loseMirror s).units = s.units ∧ (loseMirror s).bus = s.bus ∧ (loseMirror s).axes = s.axes ∧
      (loseMirror s).rdc = s.rdc ∧ (loseMirror s).wrc = s.wrc ∧ (loseMirror s).cal = s.cal ∧ (loseMirror s).qre = s.qre ∧ (loseMirror s).kst
      = s.kst ∧ (loseMirror s).cph = s.cph ∧ (loseMirror s).bdy = s.bdy ∧ (loseMirror s).bnd = s.bnd := by
  have h := follows_loseMirror (T := fun p => ([.out, .hiu, .cmd, .mem] : List Part).contains p) (by decide) (follows_refl s)
  exact ⟨h.queue, h.frame .free rfl, h.frame .regs rfl, h.frame .splitLatch rfl, h.frame .hostRead rfl, h.frame .cnt rfl, h.frame .tck
    rfl, h.frame .pwr rfl, h.frame .bays rfl, h.frame .ports rfl, h.frame .bfes rfl, h.frame .spn rfl, h.frame .cells rfl, h.frame .units
    rfl, h.frame .bus rfl, h.frame .axes rfl, h.frame .rdc rfl, h.frame .wrc rfl, h.frame .cal rfl, h.frame .qre rfl, h.frame .kst rfl,
    h.frame .cph rfl, h.frame .bdy rfl, h.frame .bnd rfl⟩

@[simp] theorem bootRecord_frame (s : State) :
    (bootRecord s).pending = s.pending ∧ (bootRecord s).free = s.free ∧ (bootRecord s).regs = s.regs ∧ (bootRecord s).splitLatch =
      s.splitLatch ∧ (bootRecord s).hostRead = s.hostRead ∧ (bootRecord s).tck = s.tck ∧ (bootRecord s).pwr = s.pwr ∧ (bootRecord s).bays =
      s.bays ∧ (bootRecord s).bfes = s.bfes ∧ (bootRecord s).spn = s.spn ∧ (bootRecord s).out = s.out ∧ (bootRecord s).cells = s.cells ∧
      (bootRecord s).units = s.units ∧ (bootRecord s).bus = s.bus ∧ (bootRecord s).axes = s.axes ∧ (bootRecord s).rdc = s.rdc ∧ (bootRecord
      s).wrc = s.wrc ∧ (bootRecord s).cal = s.cal ∧ (bootRecord s).qre = s.qre ∧ (bootRecord s).hiu = s.hiu ∧ (bootRecord s).cmd = s.cmd ∧
      (bootRecord s).mem = s.mem ∧ (bootRecord s).kst = s.kst ∧ (bootRecord s).cph = s.cph ∧ (bootRecord s).bnd = s.bnd := by
  have h := follows_bootRecord (T := fun p => ([.cnt, .ports, .bdy] : List Part).contains p) (by decide) (follows_refl s)
  exact ⟨h.queue, h.frame .free rfl, h.frame .regs rfl, h.frame .splitLatch rfl, h.frame .hostRead rfl, h.frame .tck rfl, h.frame .pwr
    rfl, h.frame .bays rfl, h.frame .bfes rfl, h.frame .spn rfl, h.frame .out rfl, h.frame .cells rfl, h.frame .units rfl, h.frame .bus
    rfl, h.frame .axes rfl, h.frame .rdc rfl, h.frame .wrc rfl, h.frame .cal rfl, h.frame .qre rfl, h.frame .hiu rfl, h.frame .cmd rfl,
    h.frame .mem rfl, h.frame .kst rfl, h.frame .cph rfl, h.frame .bnd rfl⟩

@[simp] theorem restartJournal_frame (s : State) :
    (restartJournal s).pending = s.pending ∧ (restartJournal s).free = s.free ∧ (restartJournal s).regs = s.regs ∧ (restartJournal
      s).splitLatch = s.splitLatch ∧ (restartJournal s).hostRead = s.hostRead ∧ (restartJournal s).tck = s.tck ∧ (restartJournal s).pwr =
      s.pwr ∧ (restartJournal s).bfes = s.bfes ∧ (restartJournal s).spn = s.spn ∧ (restartJournal s).out = s.out ∧ (restartJournal s).cells
      = s.cells ∧ (restartJournal s).units = s.units ∧ (restartJournal s).bus = s.bus ∧ (restartJournal s).axes = s.axes ∧ (restartJournal
      s).hiu = s.hiu ∧ (restartJournal s).cmd = s.cmd ∧ (restartJournal s).mem = s.mem ∧ (restartJournal s).kst = s.kst ∧ (restartJournal
      s).cph = s.cph ∧ (restartJournal s).bnd = s.bnd := by
  have h := follows_restartJournal (T := fun p => ([.cnt, .bays, .ports, .rdc, .wrc, .cal, .qre, .bdy] : List Part).contains p) (by
    decide) (follows_refl s)
  exact ⟨h.queue, h.frame .free rfl, h.frame .regs rfl, h.frame .splitLatch rfl, h.frame .hostRead rfl, h.frame .tck rfl, h.frame .pwr
    rfl, h.frame .bfes rfl, h.frame .spn rfl, h.frame .out rfl, h.frame .cells rfl, h.frame .units rfl, h.frame .bus rfl, h.frame .axes
    rfl, h.frame .hiu rfl, h.frame .cmd rfl, h.frame .mem rfl, h.frame .kst rfl, h.frame .cph rfl, h.frame .bnd rfl⟩

@[simp] theorem tableModes_frame (s : State) (a1 : Byte) :
    (tableModes s a1).pending = s.pending ∧ (tableModes s a1).free = s.free ∧ (tableModes s a1).regs = s.regs ∧ (tableModes s
      a1).splitLatch = s.splitLatch ∧ (tableModes s a1).hostRead = s.hostRead ∧ (tableModes s a1).tck = s.tck ∧ (tableModes s a1).pwr =
      s.pwr ∧ (tableModes s a1).bfes = s.bfes ∧ (tableModes s a1).out = s.out ∧ (tableModes s a1).bus = s.bus ∧ (tableModes s a1).rdc =
      s.rdc ∧ (tableModes s a1).wrc = s.wrc ∧ (tableModes s a1).qre = s.qre ∧ (tableModes s a1).hiu = s.hiu ∧ (tableModes s a1).cmd = s.cmd
      ∧ (tableModes s a1).mem = s.mem ∧ (tableModes s a1).kst = s.kst ∧ (tableModes s a1).cph = s.cph ∧ (tableModes s a1).bnd = s.bnd := by
  have h := follows_tableModes (T := fun p => ([.cnt, .bays, .ports, .spn, .cells, .units, .axes, .cal, .bdy] : List Part).contains p)
    (by decide) (follows_refl s) (a1 := a1)
  exact ⟨h.queue, h.frame .free rfl, h.frame .regs rfl, h.frame .splitLatch rfl, h.frame .hostRead rfl, h.frame .tck rfl, h.frame .pwr
    rfl, h.frame .bfes rfl, h.frame .out rfl, h.frame .bus rfl, h.frame .rdc rfl, h.frame .wrc rfl, h.frame .qre rfl, h.frame .hiu rfl,
    h.frame .cmd rfl, h.frame .mem rfl, h.frame .kst rfl, h.frame .cph rfl, h.frame .bnd rfl⟩

@[simp] theorem readyAll_frame (s : State) :
    (readyAll s).pending = s.pending ∧ (readyAll s).free = s.free ∧ (readyAll s).regs = s.regs ∧ (readyAll s).splitLatch = s.splitLatch ∧
      (readyAll s).hostRead = s.hostRead ∧ (readyAll s).cnt = s.cnt ∧ (readyAll s).tck = s.tck ∧ (readyAll s).pwr = s.pwr ∧ (readyAll
      s).bays = s.bays ∧ (readyAll s).ports = s.ports ∧ (readyAll s).bfes = s.bfes ∧ (readyAll s).spn = s.spn ∧ (readyAll s).out = s.out ∧
      (readyAll s).cells = s.cells ∧ (readyAll s).units = s.units ∧ (readyAll s).bus = s.bus ∧ (readyAll s).axes = s.axes ∧ (readyAll s).rdc
      = s.rdc ∧ (readyAll s).wrc = s.wrc ∧ (readyAll s).cal = s.cal ∧ (readyAll s).qre = s.qre ∧ (readyAll s).cmd = s.cmd ∧ (readyAll s).mem
      = s.mem ∧ (readyAll s).cph = s.cph ∧ (readyAll s).bnd = s.bnd := by
  have h := follows_readyAll (T := fun p => ([.hiu, .kst, .bdy] : List Part).contains p) (by decide) (follows_refl s)
  exact ⟨h.queue, h.frame .free rfl, h.frame .regs rfl, h.frame .splitLatch rfl, h.frame .hostRead rfl, h.frame .cnt rfl, h.frame .tck
    rfl, h.frame .pwr rfl, h.frame .bays rfl, h.frame .ports rfl, h.frame .bfes rfl, h.frame .spn rfl, h.frame .out rfl, h.frame .cells
    rfl, h.frame .units rfl, h.frame .bus rfl, h.frame .axes rfl, h.frame .rdc rfl, h.frame .wrc rfl, h.frame .cal rfl, h.frame .qre rfl,
    h.frame .cmd rfl, h.frame .mem rfl, h.frame .cph rfl, h.frame .bnd rfl⟩

@[simp] theorem confirmSlot_frame (s : State) :
    (confirmSlot s).pending = s.pending ∧ (confirmSlot s).free = s.free ∧ (confirmSlot s).regs = s.regs ∧ (confirmSlot s).splitLatch =
      s.splitLatch ∧ (confirmSlot s).hostRead = s.hostRead ∧ (confirmSlot s).cnt = s.cnt ∧ (confirmSlot s).tck = s.tck ∧ (confirmSlot s).pwr
      = s.pwr ∧ (confirmSlot s).bays = s.bays ∧ (confirmSlot s).ports = s.ports ∧ (confirmSlot s).bfes = s.bfes ∧ (confirmSlot s).spn =
      s.spn ∧ (confirmSlot s).out = s.out ∧ (confirmSlot s).cells = s.cells ∧ (confirmSlot s).units = s.units ∧ (confirmSlot s).bus = s.bus
      ∧ (confirmSlot s).axes = s.axes ∧ (confirmSlot s).rdc = s.rdc ∧ (confirmSlot s).wrc = s.wrc ∧ (confirmSlot s).cal = s.cal ∧
      (confirmSlot s).qre = s.qre ∧ (confirmSlot s).hiu = s.hiu ∧ (confirmSlot s).cmd = s.cmd ∧ (confirmSlot s).mem = s.mem ∧ (confirmSlot
      s).cph = s.cph ∧ (confirmSlot s).bnd = s.bnd := by
  have h := follows_confirmSlot (T := fun p => ([.kst, .bdy] : List Part).contains p) (by decide) (follows_refl s)
  exact ⟨h.queue, h.frame .free rfl, h.frame .regs rfl, h.frame .splitLatch rfl, h.frame .hostRead rfl, h.frame .cnt rfl, h.frame .tck
    rfl, h.frame .pwr rfl, h.frame .bays rfl, h.frame .ports rfl, h.frame .bfes rfl, h.frame .spn rfl, h.frame .out rfl, h.frame .cells
    rfl, h.frame .units rfl, h.frame .bus rfl, h.frame .axes rfl, h.frame .rdc rfl, h.frame .wrc rfl, h.frame .cal rfl, h.frame .qre rfl,
    h.frame .hiu rfl, h.frame .cmd rfl, h.frame .mem rfl, h.frame .cph rfl, h.frame .bnd rfl⟩

@[simp] theorem writeColophon_frame (s : State) (a1 : Nat) :
    (writeColophon s a1).pending = s.pending ∧ (writeColophon s a1).free = s.free ∧ (writeColophon s a1).regs = s.regs ∧ (writeColophon s
      a1).splitLatch = s.splitLatch ∧ (writeColophon s a1).hostRead = s.hostRead ∧ (writeColophon s a1).tck = s.tck ∧ (writeColophon s
      a1).pwr = s.pwr ∧ (writeColophon s a1).bays = s.bays ∧ (writeColophon s a1).ports = s.ports ∧ (writeColophon s a1).bfes = s.bfes ∧
      (writeColophon s a1).spn = s.spn ∧ (writeColophon s a1).out = s.out ∧ (writeColophon s a1).cells = s.cells ∧ (writeColophon s
      a1).units = s.units ∧ (writeColophon s a1).bus = s.bus ∧ (writeColophon s a1).axes = s.axes ∧ (writeColophon s a1).rdc = s.rdc ∧
      (writeColophon s a1).wrc = s.wrc ∧ (writeColophon s a1).cal = s.cal ∧ (writeColophon s a1).qre = s.qre ∧ (writeColophon s a1).hiu =
      s.hiu ∧ (writeColophon s a1).cmd = s.cmd ∧ (writeColophon s a1).mem = s.mem ∧ (writeColophon s a1).kst = s.kst ∧ (writeColophon s
      a1).cph = s.cph ∧ (writeColophon s a1).bnd = s.bnd := by
  have h := follows_writeColophon (T := fun p => ([.cnt, .bdy] : List Part).contains p) (by decide) (follows_refl s) (a1 := a1)
  exact ⟨h.queue, h.frame .free rfl, h.frame .regs rfl, h.frame .splitLatch rfl, h.frame .hostRead rfl, h.frame .tck rfl, h.frame .pwr
    rfl, h.frame .bays rfl, h.frame .ports rfl, h.frame .bfes rfl, h.frame .spn rfl, h.frame .out rfl, h.frame .cells rfl, h.frame .units
    rfl, h.frame .bus rfl, h.frame .axes rfl, h.frame .rdc rfl, h.frame .wrc rfl, h.frame .cal rfl, h.frame .qre rfl, h.frame .hiu rfl,
    h.frame .cmd rfl, h.frame .mem rfl, h.frame .kst rfl, h.frame .cph rfl, h.frame .bnd rfl⟩

@[simp] theorem trained_frame (s : State) :
    (trained s).pending = s.pending ∧ (trained s).free = s.free ∧ (trained s).regs = s.regs ∧ (trained s).splitLatch = s.splitLatch ∧
      (trained s).hostRead = s.hostRead ∧ (trained s).cnt = s.cnt ∧ (trained s).tck = s.tck ∧ (trained s).bays = s.bays ∧ (trained s).ports
      = s.ports ∧ (trained s).bfes = s.bfes ∧ (trained s).spn = s.spn ∧ (trained s).out = s.out ∧ (trained s).cells = s.cells ∧ (trained
      s).units = s.units ∧ (trained s).bus = s.bus ∧ (trained s).axes = s.axes ∧ (trained s).rdc = s.rdc ∧ (trained s).wrc = s.wrc ∧
      (trained s).cal = s.cal ∧ (trained s).qre = s.qre ∧ (trained s).hiu = s.hiu ∧ (trained s).cmd = s.cmd ∧ (trained s).mem = s.mem ∧
      (trained s).kst = s.kst ∧ (trained s).cph = s.cph ∧ (trained s).bdy = s.bdy ∧ (trained s).bnd = s.bnd := by
  have h := follows_trained (T := fun p => ([.pwr] : List Part).contains p) (by decide) (follows_refl s)
  exact ⟨h.queue, h.frame .free rfl, h.frame .regs rfl, h.frame .splitLatch rfl, h.frame .hostRead rfl, h.frame .cnt rfl, h.frame .tck
    rfl, h.frame .bays rfl, h.frame .ports rfl, h.frame .bfes rfl, h.frame .spn rfl, h.frame .out rfl, h.frame .cells rfl, h.frame .units
    rfl, h.frame .bus rfl, h.frame .axes rfl, h.frame .rdc rfl, h.frame .wrc rfl, h.frame .cal rfl, h.frame .qre rfl, h.frame .hiu rfl,
    h.frame .cmd rfl, h.frame .mem rfl, h.frame .kst rfl, h.frame .cph rfl, h.frame .bdy rfl, h.frame .bnd rfl⟩

@[simp] theorem loadBinding_frame (s : State) :
    (loadBinding s).pending = s.pending ∧ (loadBinding s).free = s.free ∧ (loadBinding s).regs = s.regs ∧ (loadBinding s).splitLatch =
      s.splitLatch ∧ (loadBinding s).hostRead = s.hostRead ∧ (loadBinding s).cnt = s.cnt ∧ (loadBinding s).tck = s.tck ∧ (loadBinding s).pwr
      = s.pwr ∧ (loadBinding s).bays = s.bays ∧ (loadBinding s).ports = s.ports ∧ (loadBinding s).bfes = s.bfes ∧ (loadBinding s).spn =
      s.spn ∧ (loadBinding s).units = s.units ∧ (loadBinding s).bus = s.bus ∧ (loadBinding s).axes = s.axes ∧ (loadBinding s).rdc = s.rdc ∧
      (loadBinding s).wrc = s.wrc ∧ (loadBinding s).cal = s.cal ∧ (loadBinding s).qre = s.qre ∧ (loadBinding s).cmd = s.cmd ∧ (loadBinding
      s).mem = s.mem ∧ (loadBinding s).cph = s.cph := by
  have h := follows_loadBinding (T := fun p => ([.out, .cells, .hiu, .kst, .bdy, .bnd] : List Part).contains p) (by decide) (follows_refl s)
  exact ⟨h.queue, h.frame .free rfl, h.frame .regs rfl, h.frame .splitLatch rfl, h.frame .hostRead rfl, h.frame .cnt rfl, h.frame .tck
    rfl, h.frame .pwr rfl, h.frame .bays rfl, h.frame .ports rfl, h.frame .bfes rfl, h.frame .spn rfl, h.frame .units rfl, h.frame .bus
    rfl, h.frame .axes rfl, h.frame .rdc rfl, h.frame .wrc rfl, h.frame .cal rfl, h.frame .qre rfl, h.frame .cmd rfl, h.frame .mem rfl,
    h.frame .cph rfl⟩

@[simp] theorem logVersion_frame (s : State) (a1 : Version) :
    (logVersion s a1).pending = s.pending ∧ (logVersion s a1).free = s.free ∧ (logVersion s a1).regs = s.regs ∧ (logVersion s
      a1).splitLatch = s.splitLatch ∧ (logVersion s a1).hostRead = s.hostRead ∧ (logVersion s a1).cnt = s.cnt ∧ (logVersion s a1).tck =
      s.tck ∧ (logVersion s a1).pwr = s.pwr ∧ (logVersion s a1).bays = s.bays ∧ (logVersion s a1).ports = s.ports ∧ (logVersion s a1).bfes =
      s.bfes ∧ (logVersion s a1).spn = s.spn ∧ (logVersion s a1).out = s.out ∧ (logVersion s a1).cells = s.cells ∧ (logVersion s a1).units =
      s.units ∧ (logVersion s a1).bus = s.bus ∧ (logVersion s a1).axes = s.axes ∧ (logVersion s a1).rdc = s.rdc ∧ (logVersion s a1).wrc =
      s.wrc ∧ (logVersion s a1).cal = s.cal ∧ (logVersion s a1).qre = s.qre ∧ (logVersion s a1).hiu = s.hiu ∧ (logVersion s a1).cmd = s.cmd
      ∧ (logVersion s a1).kst = s.kst ∧ (logVersion s a1).cph = s.cph ∧ (logVersion s a1).bdy = s.bdy ∧ (logVersion s a1).bnd = s.bnd := by
  have h := follows_logVersion (T := fun p => ([.mem] : List Part).contains p) (by decide) (follows_refl s) (a1 := a1)
  exact ⟨h.queue, h.frame .free rfl, h.frame .regs rfl, h.frame .splitLatch rfl, h.frame .hostRead rfl, h.frame .cnt rfl, h.frame .tck
    rfl, h.frame .pwr rfl, h.frame .bays rfl, h.frame .ports rfl, h.frame .bfes rfl, h.frame .spn rfl, h.frame .out rfl, h.frame .cells
    rfl, h.frame .units rfl, h.frame .bus rfl, h.frame .axes rfl, h.frame .rdc rfl, h.frame .wrc rfl, h.frame .cal rfl, h.frame .qre rfl,
    h.frame .hiu rfl, h.frame .cmd rfl, h.frame .kst rfl, h.frame .cph rfl, h.frame .bdy rfl, h.frame .bnd rfl⟩

@[simp] theorem setAna_frame (s : State) (a1 : Nat) (a2 : Nat) :
    (setAna s a1 a2).pending = s.pending ∧ (setAna s a1 a2).free = s.free ∧ (setAna s a1 a2).regs = s.regs ∧ (setAna s a1 a2).splitLatch =
      s.splitLatch ∧ (setAna s a1 a2).hostRead = s.hostRead ∧ (setAna s a1 a2).cnt = s.cnt ∧ (setAna s a1 a2).tck = s.tck ∧ (setAna s a1
      a2).pwr = s.pwr ∧ (setAna s a1 a2).bays = s.bays ∧ (setAna s a1 a2).ports = s.ports ∧ (setAna s a1 a2).bfes = s.bfes ∧ (setAna s a1
      a2).spn = s.spn ∧ (setAna s a1 a2).cells = s.cells ∧ (setAna s a1 a2).units = s.units ∧ (setAna s a1 a2).bus = s.bus ∧ (setAna s a1
      a2).axes = s.axes ∧ (setAna s a1 a2).rdc = s.rdc ∧ (setAna s a1 a2).wrc = s.wrc ∧ (setAna s a1 a2).cal = s.cal ∧ (setAna s a1 a2).qre
      = s.qre ∧ (setAna s a1 a2).cmd = s.cmd ∧ (setAna s a1 a2).mem = s.mem ∧ (setAna s a1 a2).kst = s.kst ∧ (setAna s a1 a2).cph = s.cph ∧
      (setAna s a1 a2).bdy = s.bdy ∧ (setAna s a1 a2).bnd = s.bnd := by
  have h := follows_setAna (T := fun p => ([.out, .hiu] : List Part).contains p) (by decide) (follows_refl s) (a1 := a1) (a2 := a2)
  exact ⟨h.queue, h.frame .free rfl, h.frame .regs rfl, h.frame .splitLatch rfl, h.frame .hostRead rfl, h.frame .cnt rfl, h.frame .tck
    rfl, h.frame .pwr rfl, h.frame .bays rfl, h.frame .ports rfl, h.frame .bfes rfl, h.frame .spn rfl, h.frame .cells rfl, h.frame .units
    rfl, h.frame .bus rfl, h.frame .axes rfl, h.frame .rdc rfl, h.frame .wrc rfl, h.frame .cal rfl, h.frame .qre rfl, h.frame .cmd rfl,
    h.frame .mem rfl, h.frame .kst rfl, h.frame .cph rfl, h.frame .bdy rfl, h.frame .bnd rfl⟩

@[simp] theorem setSlot_frame (s : State) (a1 : Nat) (a2 : KeySlot) :
    (setSlot s a1 a2).pending = s.pending ∧ (setSlot s a1 a2).free = s.free ∧ (setSlot s a1 a2).regs = s.regs ∧ (setSlot s a1
      a2).splitLatch = s.splitLatch ∧ (setSlot s a1 a2).hostRead = s.hostRead ∧ (setSlot s a1 a2).cnt = s.cnt ∧ (setSlot s a1 a2).tck =
      s.tck ∧ (setSlot s a1 a2).pwr = s.pwr ∧ (setSlot s a1 a2).bays = s.bays ∧ (setSlot s a1 a2).ports = s.ports ∧ (setSlot s a1 a2).bfes =
      s.bfes ∧ (setSlot s a1 a2).spn = s.spn ∧ (setSlot s a1 a2).out = s.out ∧ (setSlot s a1 a2).cells = s.cells ∧ (setSlot s a1 a2).units =
      s.units ∧ (setSlot s a1 a2).bus = s.bus ∧ (setSlot s a1 a2).axes = s.axes ∧ (setSlot s a1 a2).rdc = s.rdc ∧ (setSlot s a1 a2).wrc =
      s.wrc ∧ (setSlot s a1 a2).cal = s.cal ∧ (setSlot s a1 a2).qre = s.qre ∧ (setSlot s a1 a2).hiu = s.hiu ∧ (setSlot s a1 a2).cmd = s.cmd
      ∧ (setSlot s a1 a2).mem = s.mem ∧ (setSlot s a1 a2).cph = s.cph ∧ (setSlot s a1 a2).bdy = s.bdy ∧ (setSlot s a1 a2).bnd = s.bnd := by
  have h := follows_setSlot (T := fun p => ([.kst] : List Part).contains p) (by decide) (follows_refl s) (a1 := a1) (a2 := a2)
  exact ⟨h.queue, h.frame .free rfl, h.frame .regs rfl, h.frame .splitLatch rfl, h.frame .hostRead rfl, h.frame .cnt rfl, h.frame .tck
    rfl, h.frame .pwr rfl, h.frame .bays rfl, h.frame .ports rfl, h.frame .bfes rfl, h.frame .spn rfl, h.frame .out rfl, h.frame .cells
    rfl, h.frame .units rfl, h.frame .bus rfl, h.frame .axes rfl, h.frame .rdc rfl, h.frame .wrc rfl, h.frame .cal rfl, h.frame .qre rfl,
    h.frame .hiu rfl, h.frame .cmd rfl, h.frame .mem rfl, h.frame .cph rfl, h.frame .bdy rfl, h.frame .bnd rfl⟩

@[simp] theorem sendKcv_frame (s : State) (a1 : Nat) :
    (sendKcv s a1).pending = s.pending ∧ (sendKcv s a1).free = s.free ∧ (sendKcv s a1).regs = s.regs ∧ (sendKcv s a1).splitLatch =
      s.splitLatch ∧ (sendKcv s a1).hostRead = s.hostRead ∧ (sendKcv s a1).cnt = s.cnt ∧ (sendKcv s a1).tck = s.tck ∧ (sendKcv s a1).pwr =
      s.pwr ∧ (sendKcv s a1).bays = s.bays ∧ (sendKcv s a1).ports = s.ports ∧ (sendKcv s a1).bfes = s.bfes ∧ (sendKcv s a1).spn = s.spn ∧
      (sendKcv s a1).cells = s.cells ∧ (sendKcv s a1).units = s.units ∧ (sendKcv s a1).bus = s.bus ∧ (sendKcv s a1).axes = s.axes ∧ (sendKcv
      s a1).rdc = s.rdc ∧ (sendKcv s a1).wrc = s.wrc ∧ (sendKcv s a1).cal = s.cal ∧ (sendKcv s a1).qre = s.qre ∧ (sendKcv s a1).hiu = s.hiu
      ∧ (sendKcv s a1).cmd = s.cmd ∧ (sendKcv s a1).mem = s.mem ∧ (sendKcv s a1).kst = s.kst ∧ (sendKcv s a1).cph = s.cph ∧ (sendKcv s
      a1).bdy = s.bdy ∧ (sendKcv s a1).bnd = s.bnd := by
  have h := follows_sendKcv (T := fun p => ([.out] : List Part).contains p) (by decide) (follows_refl s) (a1 := a1)
  exact ⟨h.queue, h.frame .free rfl, h.frame .regs rfl, h.frame .splitLatch rfl, h.frame .hostRead rfl, h.frame .cnt rfl, h.frame .tck
    rfl, h.frame .pwr rfl, h.frame .bays rfl, h.frame .ports rfl, h.frame .bfes rfl, h.frame .spn rfl, h.frame .cells rfl, h.frame .units
    rfl, h.frame .bus rfl, h.frame .axes rfl, h.frame .rdc rfl, h.frame .wrc rfl, h.frame .cal rfl, h.frame .qre rfl, h.frame .hiu rfl,
    h.frame .cmd rfl, h.frame .mem rfl, h.frame .kst rfl, h.frame .cph rfl, h.frame .bdy rfl, h.frame .bnd rfl⟩

@[simp] theorem writePage_frame (s : State) :
    (writePage s).pending = s.pending ∧ (writePage s).free = s.free ∧ (writePage s).regs = s.regs ∧ (writePage s).splitLatch =
      s.splitLatch ∧ (writePage s).hostRead = s.hostRead ∧ (writePage s).cnt = s.cnt ∧ (writePage s).tck = s.tck ∧ (writePage s).pwr = s.pwr
      ∧ (writePage s).bays = s.bays ∧ (writePage s).ports = s.ports ∧ (writePage s).bfes = s.bfes ∧ (writePage s).spn = s.spn ∧ (writePage
      s).out = s.out ∧ (writePage s).cells = s.cells ∧ (writePage s).units = s.units ∧ (writePage s).bus = s.bus ∧ (writePage s).axes =
      s.axes ∧ (writePage s).rdc = s.rdc ∧ (writePage s).wrc = s.wrc ∧ (writePage s).cal = s.cal ∧ (writePage s).qre = s.qre ∧ (writePage
      s).hiu = s.hiu ∧ (writePage s).cmd = s.cmd ∧ (writePage s).mem = s.mem ∧ (writePage s).kst = s.kst ∧ (writePage s).cph = s.cph ∧
      (writePage s).bnd = s.bnd := by
  have h := follows_writePage (T := fun p => ([.bdy] : List Part).contains p) (by decide) (follows_refl s)
  exact ⟨h.queue, h.frame .free rfl, h.frame .regs rfl, h.frame .splitLatch rfl, h.frame .hostRead rfl, h.frame .cnt rfl, h.frame .tck
    rfl, h.frame .pwr rfl, h.frame .bays rfl, h.frame .ports rfl, h.frame .bfes rfl, h.frame .spn rfl, h.frame .out rfl, h.frame .cells
    rfl, h.frame .units rfl, h.frame .bus rfl, h.frame .axes rfl, h.frame .rdc rfl, h.frame .wrc rfl, h.frame .cal rfl, h.frame .qre rfl,
    h.frame .hiu rfl, h.frame .cmd rfl, h.frame .mem rfl, h.frame .kst rfl, h.frame .cph rfl, h.frame .bnd rfl⟩

@[simp] theorem framePort_frame (s : State) (a1 : Nat) (a2 : SampleFrame) :
    (framePort s a1 a2).pending = s.pending ∧ (framePort s a1 a2).free = s.free ∧ (framePort s a1 a2).regs = s.regs ∧ (framePort s a1
      a2).splitLatch = s.splitLatch ∧ (framePort s a1 a2).hostRead = s.hostRead ∧ (framePort s a1 a2).cnt = s.cnt ∧ (framePort s a1 a2).tck
      = s.tck ∧ (framePort s a1 a2).pwr = s.pwr ∧ (framePort s a1 a2).bays = s.bays ∧ (framePort s a1 a2).bfes = s.bfes ∧ (framePort s a1
      a2).spn = s.spn ∧ (framePort s a1 a2).out = s.out ∧ (framePort s a1 a2).cells = s.cells ∧ (framePort s a1 a2).units = s.units ∧
      (framePort s a1 a2).bus = s.bus ∧ (framePort s a1 a2).axes = s.axes ∧ (framePort s a1 a2).rdc = s.rdc ∧ (framePort s a1 a2).wrc =
      s.wrc ∧ (framePort s a1 a2).cal = s.cal ∧ (framePort s a1 a2).qre = s.qre ∧ (framePort s a1 a2).hiu = s.hiu ∧ (framePort s a1 a2).cmd
      = s.cmd ∧ (framePort s a1 a2).mem = s.mem ∧ (framePort s a1 a2).kst = s.kst ∧ (framePort s a1 a2).cph = s.cph ∧ (framePort s a1
      a2).bnd = s.bnd := by
  have h := follows_framePort (T := fun p => ([.ports, .bdy] : List Part).contains p) (by decide) (follows_refl s) (a1 := a1) (a2 := a2)
  exact ⟨h.queue, h.frame .free rfl, h.frame .regs rfl, h.frame .splitLatch rfl, h.frame .hostRead rfl, h.frame .cnt rfl, h.frame .tck
    rfl, h.frame .pwr rfl, h.frame .bays rfl, h.frame .bfes rfl, h.frame .spn rfl, h.frame .out rfl, h.frame .cells rfl, h.frame .units
    rfl, h.frame .bus rfl, h.frame .axes rfl, h.frame .rdc rfl, h.frame .wrc rfl, h.frame .cal rfl, h.frame .qre rfl, h.frame .hiu rfl,
    h.frame .cmd rfl, h.frame .mem rfl, h.frame .kst rfl, h.frame .cph rfl, h.frame .bnd rfl⟩

@[simp] theorem frameStops_frame (s : State) (a1 : Nat) (a2 : SampleFrame) :
    (frameStops s a1 a2).pending = s.pending ∧ (frameStops s a1 a2).regs = s.regs ∧ (frameStops s a1 a2).splitLatch = s.splitLatch ∧
      (frameStops s a1 a2).hostRead = s.hostRead ∧ (frameStops s a1 a2).tck = s.tck ∧ (frameStops s a1 a2).pwr = s.pwr ∧ (frameStops s a1
      a2).bfes = s.bfes ∧ (frameStops s a1 a2).bus = s.bus ∧ (frameStops s a1 a2).cmd = s.cmd ∧ (frameStops s a1 a2).mem = s.mem ∧
      (frameStops s a1 a2).kst = s.kst ∧ (frameStops s a1 a2).bnd = s.bnd := by
  have h := follows_frameStops (T := fun p => ([.free, .cnt, .bays, .ports, .spn, .out, .cells, .units, .axes, .rdc, .wrc, .cal, .qre,
    .hiu, .cph, .bdy] : List Part).contains p) (by decide) (follows_refl s) (a1 := a1) (a2 := a2)
  exact ⟨h.queue, h.frame .regs rfl, h.frame .splitLatch rfl, h.frame .hostRead rfl, h.frame .tck rfl, h.frame .pwr rfl, h.frame .bfes
    rfl, h.frame .bus rfl, h.frame .cmd rfl, h.frame .mem rfl, h.frame .kst rfl, h.frame .bnd rfl⟩

@[simp] theorem frameCounters_frame (s : State) (a1 : Nat) (a2 : SampleFrame) :
    (frameCounters s a1 a2).pending = s.pending ∧ (frameCounters s a1 a2).free = s.free ∧ (frameCounters s a1 a2).regs = s.regs ∧
      (frameCounters s a1 a2).splitLatch = s.splitLatch ∧ (frameCounters s a1 a2).hostRead = s.hostRead ∧ (frameCounters s a1 a2).tck =
      s.tck ∧ (frameCounters s a1 a2).pwr = s.pwr ∧ (frameCounters s a1 a2).bays = s.bays ∧ (frameCounters s a1 a2).ports = s.ports ∧
      (frameCounters s a1 a2).bfes = s.bfes ∧ (frameCounters s a1 a2).spn = s.spn ∧ (frameCounters s a1 a2).out = s.out ∧ (frameCounters s
      a1 a2).cells = s.cells ∧ (frameCounters s a1 a2).units = s.units ∧ (frameCounters s a1 a2).bus = s.bus ∧ (frameCounters s a1 a2).axes
      = s.axes ∧ (frameCounters s a1 a2).rdc = s.rdc ∧ (frameCounters s a1 a2).wrc = s.wrc ∧ (frameCounters s a1 a2).cal = s.cal ∧
      (frameCounters s a1 a2).qre = s.qre ∧ (frameCounters s a1 a2).hiu = s.hiu ∧ (frameCounters s a1 a2).cmd = s.cmd ∧ (frameCounters s a1
      a2).mem = s.mem ∧ (frameCounters s a1 a2).kst = s.kst ∧ (frameCounters s a1 a2).cph = s.cph ∧ (frameCounters s a1 a2).bdy = s.bdy ∧
      (frameCounters s a1 a2).bnd = s.bnd := by
  have h := follows_frameCounters (T := fun p => ([.cnt] : List Part).contains p) (by decide) (follows_refl s) (a1 := a1) (a2 := a2)
  exact ⟨h.queue, h.frame .free rfl, h.frame .regs rfl, h.frame .splitLatch rfl, h.frame .hostRead rfl, h.frame .tck rfl, h.frame .pwr
    rfl, h.frame .bays rfl, h.frame .ports rfl, h.frame .bfes rfl, h.frame .spn rfl, h.frame .out rfl, h.frame .cells rfl, h.frame .units
    rfl, h.frame .bus rfl, h.frame .axes rfl, h.frame .rdc rfl, h.frame .wrc rfl, h.frame .cal rfl, h.frame .qre rfl, h.frame .hiu rfl,
    h.frame .cmd rfl, h.frame .mem rfl, h.frame .kst rfl, h.frame .cph rfl, h.frame .bdy rfl, h.frame .bnd rfl⟩

@[simp] theorem changeRole_frame (s : State) (a1 : Nat) (a2 : SampleFrame) :
    (changeRole s a1 a2).pending = s.pending ∧ (changeRole s a1 a2).free = s.free ∧ (changeRole s a1 a2).regs = s.regs ∧ (changeRole s a1
      a2).splitLatch = s.splitLatch ∧ (changeRole s a1 a2).hostRead = s.hostRead ∧ (changeRole s a1 a2).tck = s.tck ∧ (changeRole s a1
      a2).pwr = s.pwr ∧ (changeRole s a1 a2).bfes = s.bfes ∧ (changeRole s a1 a2).out = s.out ∧ (changeRole s a1 a2).units = s.units ∧
      (changeRole s a1 a2).bus = s.bus ∧ (changeRole s a1 a2).qre = s.qre ∧ (changeRole s a1 a2).hiu = s.hiu ∧ (changeRole s a1 a2).cmd =
      s.cmd ∧ (changeRole s a1 a2).mem = s.mem ∧ (changeRole s a1 a2).kst = s.kst ∧ (changeRole s a1 a2).cph = s.cph ∧ (changeRole s a1
      a2).bdy = s.bdy := by
  have h := follows_changeRole (T := fun p => ([.cnt, .bays, .ports, .spn, .cells, .axes, .rdc, .wrc, .cal, .bnd] : List Part).contains
    p) (by decide) (follows_refl s) (a1 := a1) (a2 := a2)
  exact ⟨h.queue, h.frame .free rfl, h.frame .regs rfl, h.frame .splitLatch rfl, h.frame .hostRead rfl, h.frame .tck rfl, h.frame .pwr
    rfl, h.frame .bfes rfl, h.frame .out rfl, h.frame .units rfl, h.frame .bus rfl, h.frame .qre rfl, h.frame .hiu rfl, h.frame .cmd rfl,
    h.frame .mem rfl, h.frame .kst rfl, h.frame .cph rfl, h.frame .bdy rfl⟩

@[simp] theorem busFrame_frame (s : State) (a1 : Nat) (a2 : SampleFrame) :
    (busFrame s a1 a2).pending = s.pending ∧ (busFrame s a1 a2).free = s.free ∧ (busFrame s a1 a2).regs = s.regs ∧ (busFrame s a1
      a2).splitLatch = s.splitLatch ∧ (busFrame s a1 a2).hostRead = s.hostRead ∧ (busFrame s a1 a2).tck = s.tck ∧ (busFrame s a1 a2).pwr =
      s.pwr ∧ (busFrame s a1 a2).bays = s.bays ∧ (busFrame s a1 a2).ports = s.ports ∧ (busFrame s a1 a2).bfes = s.bfes ∧ (busFrame s a1
      a2).spn = s.spn ∧ (busFrame s a1 a2).out = s.out ∧ (busFrame s a1 a2).cells = s.cells ∧ (busFrame s a1 a2).axes = s.axes ∧ (busFrame s
      a1 a2).rdc = s.rdc ∧ (busFrame s a1 a2).wrc = s.wrc ∧ (busFrame s a1 a2).cal = s.cal ∧ (busFrame s a1 a2).qre = s.qre ∧ (busFrame s a1
      a2).hiu = s.hiu ∧ (busFrame s a1 a2).cmd = s.cmd ∧ (busFrame s a1 a2).mem = s.mem ∧ (busFrame s a1 a2).kst = s.kst ∧ (busFrame s a1
      a2).cph = s.cph ∧ (busFrame s a1 a2).bdy = s.bdy ∧ (busFrame s a1 a2).bnd = s.bnd := by
  have h := follows_busFrame (T := fun p => ([.cnt, .units, .bus] : List Part).contains p) (by decide) (follows_refl s) (a1 := a1) (a2
    := a2)
  exact ⟨h.queue, h.frame .free rfl, h.frame .regs rfl, h.frame .splitLatch rfl, h.frame .hostRead rfl, h.frame .tck rfl, h.frame .pwr
    rfl, h.frame .bays rfl, h.frame .ports rfl, h.frame .bfes rfl, h.frame .spn rfl, h.frame .out rfl, h.frame .cells rfl, h.frame .axes
    rfl, h.frame .rdc rfl, h.frame .wrc rfl, h.frame .cal rfl, h.frame .qre rfl, h.frame .hiu rfl, h.frame .cmd rfl, h.frame .mem rfl,
    h.frame .kst rfl, h.frame .cph rfl, h.frame .bdy rfl, h.frame .bnd rfl⟩

@[simp] theorem stageFault_frame (s : State) (a1 : Nat) (a2 : SampleFrame) :
    (stageFault s a1 a2).pending = s.pending ∧ (stageFault s a1 a2).regs = s.regs ∧ (stageFault s a1 a2).splitLatch = s.splitLatch ∧
      (stageFault s a1 a2).hostRead = s.hostRead ∧ (stageFault s a1 a2).tck = s.tck ∧ (stageFault s a1 a2).pwr = s.pwr ∧ (stageFault s a1
      a2).bfes = s.bfes ∧ (stageFault s a1 a2).bus = s.bus ∧ (stageFault s a1 a2).cmd = s.cmd ∧ (stageFault s a1 a2).mem = s.mem ∧
      (stageFault s a1 a2).kst = s.kst ∧ (stageFault s a1 a2).bnd = s.bnd := by
  have h := follows_stageFault (T := fun p => ([.free, .cnt, .bays, .ports, .spn, .out, .cells, .units, .axes, .rdc, .wrc, .cal, .qre,
    .hiu, .cph, .bdy] : List Part).contains p) (by decide) (follows_refl s) (a1 := a1) (a2 := a2)
  exact ⟨h.queue, h.frame .regs rfl, h.frame .splitLatch rfl, h.frame .hostRead rfl, h.frame .tck rfl, h.frame .pwr rfl, h.frame .bfes
    rfl, h.frame .bus rfl, h.frame .cmd rfl, h.frame .mem rfl, h.frame .kst rfl, h.frame .bnd rfl⟩

@[simp] theorem axisInput_frame (s : State) (a1 : Nat) (a2 : Half) :
    (axisInput s a1 a2).pending = s.pending ∧ (axisInput s a1 a2).free = s.free ∧ (axisInput s a1 a2).regs = s.regs ∧ (axisInput s a1
      a2).splitLatch = s.splitLatch ∧ (axisInput s a1 a2).hostRead = s.hostRead ∧ (axisInput s a1 a2).tck = s.tck ∧ (axisInput s a1 a2).pwr
      = s.pwr ∧ (axisInput s a1 a2).bays = s.bays ∧ (axisInput s a1 a2).ports = s.ports ∧ (axisInput s a1 a2).bfes = s.bfes ∧ (axisInput s
      a1 a2).spn = s.spn ∧ (axisInput s a1 a2).out = s.out ∧ (axisInput s a1 a2).cells = s.cells ∧ (axisInput s a1 a2).units = s.units ∧
      (axisInput s a1 a2).bus = s.bus ∧ (axisInput s a1 a2).rdc = s.rdc ∧ (axisInput s a1 a2).wrc = s.wrc ∧ (axisInput s a1 a2).cal = s.cal
      ∧ (axisInput s a1 a2).qre = s.qre ∧ (axisInput s a1 a2).hiu = s.hiu ∧ (axisInput s a1 a2).cmd = s.cmd ∧ (axisInput s a1 a2).mem =
      s.mem ∧ (axisInput s a1 a2).kst = s.kst ∧ (axisInput s a1 a2).cph = s.cph ∧ (axisInput s a1 a2).bdy = s.bdy ∧ (axisInput s a1 a2).bnd
      = s.bnd := by
  have h := follows_axisInput (T := fun p => ([.cnt, .axes] : List Part).contains p) (by decide) (follows_refl s) (a1 := a1) (a2 := a2)
  exact ⟨h.queue, h.frame .free rfl, h.frame .regs rfl, h.frame .splitLatch rfl, h.frame .hostRead rfl, h.frame .tck rfl, h.frame .pwr
    rfl, h.frame .bays rfl, h.frame .ports rfl, h.frame .bfes rfl, h.frame .spn rfl, h.frame .out rfl, h.frame .cells rfl, h.frame .units
    rfl, h.frame .bus rfl, h.frame .rdc rfl, h.frame .wrc rfl, h.frame .cal rfl, h.frame .qre rfl, h.frame .hiu rfl, h.frame .cmd rfl,
    h.frame .mem rfl, h.frame .kst rfl, h.frame .cph rfl, h.frame .bdy rfl, h.frame .bnd rfl⟩

@[simp] theorem wobbleRecord_frame (s : State) (a1 : Nat) (a2 : Nat) (a3 : Wobble) :
    (wobbleRecord s a1 a2 a3).pending = s.pending ∧ (wobbleRecord s a1 a2 a3).free = s.free ∧ (wobbleRecord s a1 a2 a3).regs = s.regs ∧
      (wobbleRecord s a1 a2 a3).splitLatch = s.splitLatch ∧ (wobbleRecord s a1 a2 a3).hostRead = s.hostRead ∧ (wobbleRecord s a1 a2 a3).tck
      = s.tck ∧ (wobbleRecord s a1 a2 a3).pwr = s.pwr ∧ (wobbleRecord s a1 a2 a3).bays = s.bays ∧ (wobbleRecord s a1 a2 a3).bfes = s.bfes ∧
      (wobbleRecord s a1 a2 a3).out = s.out ∧ (wobbleRecord s a1 a2 a3).units = s.units ∧ (wobbleRecord s a1 a2 a3).bus = s.bus ∧
      (wobbleRecord s a1 a2 a3).axes = s.axes ∧ (wobbleRecord s a1 a2 a3).rdc = s.rdc ∧ (wobbleRecord s a1 a2 a3).wrc = s.wrc ∧
      (wobbleRecord s a1 a2 a3).cal = s.cal ∧ (wobbleRecord s a1 a2 a3).qre = s.qre ∧ (wobbleRecord s a1 a2 a3).hiu = s.hiu ∧ (wobbleRecord
      s a1 a2 a3).cmd = s.cmd ∧ (wobbleRecord s a1 a2 a3).mem = s.mem ∧ (wobbleRecord s a1 a2 a3).kst = s.kst ∧ (wobbleRecord s a1 a2
      a3).cph = s.cph ∧ (wobbleRecord s a1 a2 a3).bdy = s.bdy ∧ (wobbleRecord s a1 a2 a3).bnd = s.bnd := by
  have h := follows_wobbleRecord (T := fun p => ([.cnt, .ports, .spn, .cells] : List Part).contains p) (by decide) (follows_refl s) (a1
    := a1) (a2 := a2) (a3 := a3)
  exact ⟨h.queue, h.frame .free rfl, h.frame .regs rfl, h.frame .splitLatch rfl, h.frame .hostRead rfl, h.frame .tck rfl, h.frame .pwr
    rfl, h.frame .bays rfl, h.frame .bfes rfl, h.frame .out rfl, h.frame .units rfl, h.frame .bus rfl, h.frame .axes rfl, h.frame .rdc
    rfl, h.frame .wrc rfl, h.frame .cal rfl, h.frame .qre rfl, h.frame .hiu rfl, h.frame .cmd rfl, h.frame .mem rfl, h.frame .kst rfl,
    h.frame .cph rfl, h.frame .bdy rfl, h.frame .bnd rfl⟩

@[simp] theorem addressUnit_frame (s : State) (a1 : Nat) (a2 : Nat) (a3 : BitVec 56) :
    (addressUnit s a1 a2 a3).pending = s.pending ∧ (addressUnit s a1 a2 a3).free = s.free ∧ (addressUnit s a1 a2 a3).regs = s.regs ∧
      (addressUnit s a1 a2 a3).splitLatch = s.splitLatch ∧ (addressUnit s a1 a2 a3).hostRead = s.hostRead ∧ (addressUnit s a1 a2 a3).tck =
      s.tck ∧ (addressUnit s a1 a2 a3).pwr = s.pwr ∧ (addressUnit s a1 a2 a3).bays = s.bays ∧ (addressUnit s a1 a2 a3).bfes = s.bfes ∧
      (addressUnit s a1 a2 a3).out = s.out ∧ (addressUnit s a1 a2 a3).units = s.units ∧ (addressUnit s a1 a2 a3).bus = s.bus ∧ (addressUnit
      s a1 a2 a3).axes = s.axes ∧ (addressUnit s a1 a2 a3).rdc = s.rdc ∧ (addressUnit s a1 a2 a3).wrc = s.wrc ∧ (addressUnit s a1 a2 a3).cal
      = s.cal ∧ (addressUnit s a1 a2 a3).qre = s.qre ∧ (addressUnit s a1 a2 a3).hiu = s.hiu ∧ (addressUnit s a1 a2 a3).cmd = s.cmd ∧
      (addressUnit s a1 a2 a3).mem = s.mem ∧ (addressUnit s a1 a2 a3).kst = s.kst ∧ (addressUnit s a1 a2 a3).cph = s.cph ∧ (addressUnit s a1
      a2 a3).bdy = s.bdy ∧ (addressUnit s a1 a2 a3).bnd = s.bnd := by
  have h := follows_addressUnit (T := fun p => ([.cnt, .ports, .spn, .cells] : List Part).contains p) (by decide) (follows_refl s) (a1
    := a1) (a2 := a2) (a3 := a3)
  exact ⟨h.queue, h.frame .free rfl, h.frame .regs rfl, h.frame .splitLatch rfl, h.frame .hostRead rfl, h.frame .tck rfl, h.frame .pwr
    rfl, h.frame .bays rfl, h.frame .bfes rfl, h.frame .out rfl, h.frame .units rfl, h.frame .bus rfl, h.frame .axes rfl, h.frame .rdc
    rfl, h.frame .wrc rfl, h.frame .cal rfl, h.frame .qre rfl, h.frame .hiu rfl, h.frame .cmd rfl, h.frame .mem rfl, h.frame .kst rfl,
    h.frame .cph rfl, h.frame .bdy rfl, h.frame .bnd rfl⟩

@[simp] theorem laserFrame_frame (s : State) (a1 : Nat) (a2 : SampleFrame) :
    (laserFrame s a1 a2).pending = s.pending ∧ (laserFrame s a1 a2).regs = s.regs ∧ (laserFrame s a1 a2).splitLatch = s.splitLatch ∧
      (laserFrame s a1 a2).hostRead = s.hostRead ∧ (laserFrame s a1 a2).tck = s.tck ∧ (laserFrame s a1 a2).pwr = s.pwr ∧ (laserFrame s a1
      a2).bfes = s.bfes ∧ (laserFrame s a1 a2).spn = s.spn ∧ (laserFrame s a1 a2).cells = s.cells ∧ (laserFrame s a1 a2).units = s.units ∧
      (laserFrame s a1 a2).bus = s.bus ∧ (laserFrame s a1 a2).axes = s.axes ∧ (laserFrame s a1 a2).cmd = s.cmd ∧ (laserFrame s a1 a2).mem =
      s.mem ∧ (laserFrame s a1 a2).kst = s.kst ∧ (laserFrame s a1 a2).bnd = s.bnd := by
  have h := follows_laserFrame (T := fun p => ([.free, .cnt, .bays, .ports, .out, .rdc, .wrc, .cal, .qre, .hiu, .cph, .bdy] : List
    Part).contains p) (by decide) (follows_refl s) (a1 := a1) (a2 := a2)
  exact ⟨h.queue, h.frame .regs rfl, h.frame .splitLatch rfl, h.frame .hostRead rfl, h.frame .tck rfl, h.frame .pwr rfl, h.frame .bfes
    rfl, h.frame .spn rfl, h.frame .cells rfl, h.frame .units rfl, h.frame .bus rfl, h.frame .axes rfl, h.frame .cmd rfl, h.frame .mem
    rfl, h.frame .kst rfl, h.frame .bnd rfl⟩

@[simp] theorem tempTrigger_frame (s : State) (a1 : Nat) (a2 : Int) :
    (tempTrigger s a1 a2).pending = s.pending ∧ (tempTrigger s a1 a2).free = s.free ∧ (tempTrigger s a1 a2).regs = s.regs ∧ (tempTrigger s
      a1 a2).splitLatch = s.splitLatch ∧ (tempTrigger s a1 a2).hostRead = s.hostRead ∧ (tempTrigger s a1 a2).cnt = s.cnt ∧ (tempTrigger s a1
      a2).tck = s.tck ∧ (tempTrigger s a1 a2).pwr = s.pwr ∧ (tempTrigger s a1 a2).bays = s.bays ∧ (tempTrigger s a1 a2).ports = s.ports ∧
      (tempTrigger s a1 a2).bfes = s.bfes ∧ (tempTrigger s a1 a2).spn = s.spn ∧ (tempTrigger s a1 a2).out = s.out ∧ (tempTrigger s a1
      a2).cells = s.cells ∧ (tempTrigger s a1 a2).units = s.units ∧ (tempTrigger s a1 a2).bus = s.bus ∧ (tempTrigger s a1 a2).axes = s.axes
      ∧ (tempTrigger s a1 a2).rdc = s.rdc ∧ (tempTrigger s a1 a2).wrc = s.wrc ∧ (tempTrigger s a1 a2).qre = s.qre ∧ (tempTrigger s a1
      a2).hiu = s.hiu ∧ (tempTrigger s a1 a2).cmd = s.cmd ∧ (tempTrigger s a1 a2).mem = s.mem ∧ (tempTrigger s a1 a2).kst = s.kst ∧
      (tempTrigger s a1 a2).cph = s.cph ∧ (tempTrigger s a1 a2).bdy = s.bdy ∧ (tempTrigger s a1 a2).bnd = s.bnd := by
  have h := follows_tempTrigger (T := fun p => ([.cal] : List Part).contains p) (by decide) (follows_refl s) (a1 := a1) (a2 := a2)
  exact ⟨h.queue, h.frame .free rfl, h.frame .regs rfl, h.frame .splitLatch rfl, h.frame .hostRead rfl, h.frame .cnt rfl, h.frame .tck
    rfl, h.frame .pwr rfl, h.frame .bays rfl, h.frame .ports rfl, h.frame .bfes rfl, h.frame .spn rfl, h.frame .out rfl, h.frame .cells
    rfl, h.frame .units rfl, h.frame .bus rfl, h.frame .axes rfl, h.frame .rdc rfl, h.frame .wrc rfl, h.frame .qre rfl, h.frame .hiu rfl,
    h.frame .cmd rfl, h.frame .mem rfl, h.frame .kst rfl, h.frame .cph rfl, h.frame .bdy rfl, h.frame .bnd rfl⟩

@[simp] theorem withhold_frame (s : State) (a1 : Nat) (a2 : Nat) :
    (withhold s a1 a2).pending = s.pending ∧ (withhold s a1 a2).free = s.free ∧ (withhold s a1 a2).regs = s.regs ∧ (withhold s a1
      a2).splitLatch = s.splitLatch ∧ (withhold s a1 a2).hostRead = s.hostRead ∧ (withhold s a1 a2).cnt = s.cnt ∧ (withhold s a1 a2).tck =
      s.tck ∧ (withhold s a1 a2).pwr = s.pwr ∧ (withhold s a1 a2).bays = s.bays ∧ (withhold s a1 a2).ports = s.ports ∧ (withhold s a1
      a2).bfes = s.bfes ∧ (withhold s a1 a2).out = s.out ∧ (withhold s a1 a2).cells = s.cells ∧ (withhold s a1 a2).units = s.units ∧
      (withhold s a1 a2).bus = s.bus ∧ (withhold s a1 a2).axes = s.axes ∧ (withhold s a1 a2).rdc = s.rdc ∧ (withhold s a1 a2).wrc = s.wrc ∧
      (withhold s a1 a2).cal = s.cal ∧ (withhold s a1 a2).qre = s.qre ∧ (withhold s a1 a2).hiu = s.hiu ∧ (withhold s a1 a2).cmd = s.cmd ∧
      (withhold s a1 a2).mem = s.mem ∧ (withhold s a1 a2).kst = s.kst ∧ (withhold s a1 a2).cph = s.cph ∧ (withhold s a1 a2).bdy = s.bdy ∧
      (withhold s a1 a2).bnd = s.bnd := by
  have h := follows_withhold (T := fun p => ([.spn] : List Part).contains p) (by decide) (follows_refl s) (a1 := a1) (a2 := a2)
  exact ⟨h.queue, h.frame .free rfl, h.frame .regs rfl, h.frame .splitLatch rfl, h.frame .hostRead rfl, h.frame .cnt rfl, h.frame .tck
    rfl, h.frame .pwr rfl, h.frame .bays rfl, h.frame .ports rfl, h.frame .bfes rfl, h.frame .out rfl, h.frame .cells rfl, h.frame .units
    rfl, h.frame .bus rfl, h.frame .axes rfl, h.frame .rdc rfl, h.frame .wrc rfl, h.frame .cal rfl, h.frame .qre rfl, h.frame .hiu rfl,
    h.frame .cmd rfl, h.frame .mem rfl, h.frame .kst rfl, h.frame .cph rfl, h.frame .bdy rfl, h.frame .bnd rfl⟩

@[simp] theorem applyInertia_frame (s : State) (a1 : Nat) :
    (applyInertia s a1).pending = s.pending ∧ (applyInertia s a1).free = s.free ∧ (applyInertia s a1).regs = s.regs ∧ (applyInertia s
      a1).splitLatch = s.splitLatch ∧ (applyInertia s a1).hostRead = s.hostRead ∧ (applyInertia s a1).cnt = s.cnt ∧ (applyInertia s a1).tck
      = s.tck ∧ (applyInertia s a1).pwr = s.pwr ∧ (applyInertia s a1).bays = s.bays ∧ (applyInertia s a1).ports = s.ports ∧ (applyInertia s
      a1).bfes = s.bfes ∧ (applyInertia s a1).out = s.out ∧ (applyInertia s a1).cells = s.cells ∧ (applyInertia s a1).bus = s.bus ∧
      (applyInertia s a1).axes = s.axes ∧ (applyInertia s a1).rdc = s.rdc ∧ (applyInertia s a1).wrc = s.wrc ∧ (applyInertia s a1).cal =
      s.cal ∧ (applyInertia s a1).qre = s.qre ∧ (applyInertia s a1).hiu = s.hiu ∧ (applyInertia s a1).cmd = s.cmd ∧ (applyInertia s a1).mem
      = s.mem ∧ (applyInertia s a1).kst = s.kst ∧ (applyInertia s a1).cph = s.cph ∧ (applyInertia s a1).bdy = s.bdy ∧ (applyInertia s
      a1).bnd = s.bnd := by
  have h := follows_applyInertia (T := fun p => ([.spn, .units] : List Part).contains p) (by decide) (follows_refl s) (a1 := a1)
  exact ⟨h.queue, h.frame .free rfl, h.frame .regs rfl, h.frame .splitLatch rfl, h.frame .hostRead rfl, h.frame .cnt rfl, h.frame .tck
    rfl, h.frame .pwr rfl, h.frame .bays rfl, h.frame .ports rfl, h.frame .bfes rfl, h.frame .out rfl, h.frame .cells rfl, h.frame .bus
    rfl, h.frame .axes rfl, h.frame .rdc rfl, h.frame .wrc rfl, h.frame .cal rfl, h.frame .qre rfl, h.frame .hiu rfl, h.frame .cmd rfl,
    h.frame .mem rfl, h.frame .kst rfl, h.frame .cph rfl, h.frame .bdy rfl, h.frame .bnd rfl⟩

@[simp] theorem blockGroup_frame (s : State) (a1 : Nat) :
    (blockGroup s a1).pending = s.pending ∧ (blockGroup s a1).free = s.free ∧ (blockGroup s a1).regs = s.regs ∧ (blockGroup s
      a1).splitLatch = s.splitLatch ∧ (blockGroup s a1).hostRead = s.hostRead ∧ (blockGroup s a1).tck = s.tck ∧ (blockGroup s a1).pwr =
      s.pwr ∧ (blockGroup s a1).bays = s.bays ∧ (blockGroup s a1).ports = s.ports ∧ (blockGroup s a1).bfes = s.bfes ∧ (blockGroup s a1).spn
      = s.spn ∧ (blockGroup s a1).out = s.out ∧ (blockGroup s a1).cells = s.cells ∧ (blockGroup s a1).axes = s.axes ∧ (blockGroup s a1).rdc
      = s.rdc ∧ (blockGroup s a1).wrc = s.wrc ∧ (blockGroup s a1).cal = s.cal ∧ (blockGroup s a1).qre = s.qre ∧ (blockGroup s a1).hiu =
      s.hiu ∧ (blockGroup s a1).cmd = s.cmd ∧ (blockGroup s a1).mem = s.mem ∧ (blockGroup s a1).kst = s.kst ∧ (blockGroup s a1).cph = s.cph
      ∧ (blockGroup s a1).bdy = s.bdy ∧ (blockGroup s a1).bnd = s.bnd := by
  have h := follows_blockGroup (T := fun p => ([.cnt, .units, .bus] : List Part).contains p) (by decide) (follows_refl s) (a1 := a1)
  exact ⟨h.queue, h.frame .free rfl, h.frame .regs rfl, h.frame .splitLatch rfl, h.frame .hostRead rfl, h.frame .tck rfl, h.frame .pwr
    rfl, h.frame .bays rfl, h.frame .ports rfl, h.frame .bfes rfl, h.frame .spn rfl, h.frame .out rfl, h.frame .cells rfl, h.frame .axes
    rfl, h.frame .rdc rfl, h.frame .wrc rfl, h.frame .cal rfl, h.frame .qre rfl, h.frame .hiu rfl, h.frame .cmd rfl, h.frame .mem rfl,
    h.frame .kst rfl, h.frame .cph rfl, h.frame .bdy rfl, h.frame .bnd rfl⟩

@[simp] theorem acceptCell_frame (s : State) (a1 : Nat) (a2 : Src) (a3 : Nat) (a4 : Nat) (a5 : Bool) :
    (acceptCell s a1 a2 a3 a4 a5).pending = s.pending ∧ (acceptCell s a1 a2 a3 a4 a5).free = s.free ∧ (acceptCell s a1 a2 a3 a4 a5).regs =
      s.regs ∧ (acceptCell s a1 a2 a3 a4 a5).splitLatch = s.splitLatch ∧ (acceptCell s a1 a2 a3 a4 a5).hostRead = s.hostRead ∧ (acceptCell s
      a1 a2 a3 a4 a5).cnt = s.cnt ∧ (acceptCell s a1 a2 a3 a4 a5).tck = s.tck ∧ (acceptCell s a1 a2 a3 a4 a5).pwr = s.pwr ∧ (acceptCell s a1
      a2 a3 a4 a5).bays = s.bays ∧ (acceptCell s a1 a2 a3 a4 a5).ports = s.ports ∧ (acceptCell s a1 a2 a3 a4 a5).bfes = s.bfes ∧ (acceptCell
      s a1 a2 a3 a4 a5).out = s.out ∧ (acceptCell s a1 a2 a3 a4 a5).units = s.units ∧ (acceptCell s a1 a2 a3 a4 a5).bus = s.bus ∧
      (acceptCell s a1 a2 a3 a4 a5).axes = s.axes ∧ (acceptCell s a1 a2 a3 a4 a5).rdc = s.rdc ∧ (acceptCell s a1 a2 a3 a4 a5).wrc = s.wrc ∧
      (acceptCell s a1 a2 a3 a4 a5).cal = s.cal ∧ (acceptCell s a1 a2 a3 a4 a5).qre = s.qre ∧ (acceptCell s a1 a2 a3 a4 a5).hiu = s.hiu ∧
      (acceptCell s a1 a2 a3 a4 a5).cmd = s.cmd ∧ (acceptCell s a1 a2 a3 a4 a5).mem = s.mem ∧ (acceptCell s a1 a2 a3 a4 a5).kst = s.kst ∧
      (acceptCell s a1 a2 a3 a4 a5).cph = s.cph ∧ (acceptCell s a1 a2 a3 a4 a5).bdy = s.bdy ∧ (acceptCell s a1 a2 a3 a4 a5).bnd = s.bnd :=
      by
  have h := follows_acceptCell (T := fun p => ([.spn, .cells] : List Part).contains p) (by decide) (follows_refl s) (a1 := a1) (a2 :=
    a2) (a3 := a3) (a4 := a4) (a5 := a5)
  exact ⟨h.queue, h.frame .free rfl, h.frame .regs rfl, h.frame .splitLatch rfl, h.frame .hostRead rfl, h.frame .cnt rfl, h.frame .tck
    rfl, h.frame .pwr rfl, h.frame .bays rfl, h.frame .ports rfl, h.frame .bfes rfl, h.frame .out rfl, h.frame .units rfl, h.frame .bus
    rfl, h.frame .axes rfl, h.frame .rdc rfl, h.frame .wrc rfl, h.frame .cal rfl, h.frame .qre rfl, h.frame .hiu rfl, h.frame .cmd rfl,
    h.frame .mem rfl, h.frame .kst rfl, h.frame .cph rfl, h.frame .bdy rfl, h.frame .bnd rfl⟩

@[simp] theorem acceptUnit_frame (s : State) (a1 : Nat) (a2 : Src) (a3 : Nat) (a4 : Nat) :
    (acceptUnit s a1 a2 a3 a4).pending = s.pending ∧ (acceptUnit s a1 a2 a3 a4).free = s.free ∧ (acceptUnit s a1 a2 a3 a4).regs = s.regs ∧
      (acceptUnit s a1 a2 a3 a4).splitLatch = s.splitLatch ∧ (acceptUnit s a1 a2 a3 a4).hostRead = s.hostRead ∧ (acceptUnit s a1 a2 a3
      a4).cnt = s.cnt ∧ (acceptUnit s a1 a2 a3 a4).tck = s.tck ∧ (acceptUnit s a1 a2 a3 a4).pwr = s.pwr ∧ (acceptUnit s a1 a2 a3 a4).bays =
      s.bays ∧ (acceptUnit s a1 a2 a3 a4).ports = s.ports ∧ (acceptUnit s a1 a2 a3 a4).bfes = s.bfes ∧ (acceptUnit s a1 a2 a3 a4).out =
      s.out ∧ (acceptUnit s a1 a2 a3 a4).cells = s.cells ∧ (acceptUnit s a1 a2 a3 a4).bus = s.bus ∧ (acceptUnit s a1 a2 a3 a4).axes = s.axes
      ∧ (acceptUnit s a1 a2 a3 a4).rdc = s.rdc ∧ (acceptUnit s a1 a2 a3 a4).wrc = s.wrc ∧ (acceptUnit s a1 a2 a3 a4).cal = s.cal ∧
      (acceptUnit s a1 a2 a3 a4).qre = s.qre ∧ (acceptUnit s a1 a2 a3 a4).hiu = s.hiu ∧ (acceptUnit s a1 a2 a3 a4).cmd = s.cmd ∧ (acceptUnit
      s a1 a2 a3 a4).mem = s.mem ∧ (acceptUnit s a1 a2 a3 a4).kst = s.kst ∧ (acceptUnit s a1 a2 a3 a4).cph = s.cph ∧ (acceptUnit s a1 a2 a3
      a4).bdy = s.bdy ∧ (acceptUnit s a1 a2 a3 a4).bnd = s.bnd := by
  have h := follows_acceptUnit (T := fun p => ([.spn, .units] : List Part).contains p) (by decide) (follows_refl s) (a1 := a1) (a2 :=
    a2) (a3 := a3) (a4 := a4)
  exact ⟨h.queue, h.frame .free rfl, h.frame .regs rfl, h.frame .splitLatch rfl, h.frame .hostRead rfl, h.frame .cnt rfl, h.frame .tck
    rfl, h.frame .pwr rfl, h.frame .bays rfl, h.frame .ports rfl, h.frame .bfes rfl, h.frame .out rfl, h.frame .cells rfl, h.frame .bus
    rfl, h.frame .axes rfl, h.frame .rdc rfl, h.frame .wrc rfl, h.frame .cal rfl, h.frame .qre rfl, h.frame .hiu rfl, h.frame .cmd rfl,
    h.frame .mem rfl, h.frame .kst rfl, h.frame .cph rfl, h.frame .bdy rfl, h.frame .bnd rfl⟩

@[simp] theorem acceptAxis_frame (s : State) (a1 : Nat) (a2 : Src) (a3 : Nat) (a4 : Nat) :
    (acceptAxis s a1 a2 a3 a4).pending = s.pending ∧ (acceptAxis s a1 a2 a3 a4).free = s.free ∧ (acceptAxis s a1 a2 a3 a4).regs = s.regs ∧
      (acceptAxis s a1 a2 a3 a4).splitLatch = s.splitLatch ∧ (acceptAxis s a1 a2 a3 a4).hostRead = s.hostRead ∧ (acceptAxis s a1 a2 a3
      a4).cnt = s.cnt ∧ (acceptAxis s a1 a2 a3 a4).tck = s.tck ∧ (acceptAxis s a1 a2 a3 a4).pwr = s.pwr ∧ (acceptAxis s a1 a2 a3 a4).bays =
      s.bays ∧ (acceptAxis s a1 a2 a3 a4).ports = s.ports ∧ (acceptAxis s a1 a2 a3 a4).bfes = s.bfes ∧ (acceptAxis s a1 a2 a3 a4).out =
      s.out ∧ (acceptAxis s a1 a2 a3 a4).cells = s.cells ∧ (acceptAxis s a1 a2 a3 a4).units = s.units ∧ (acceptAxis s a1 a2 a3 a4).bus =
      s.bus ∧ (acceptAxis s a1 a2 a3 a4).rdc = s.rdc ∧ (acceptAxis s a1 a2 a3 a4).wrc = s.wrc ∧ (acceptAxis s a1 a2 a3 a4).cal = s.cal ∧
      (acceptAxis s a1 a2 a3 a4).qre = s.qre ∧ (acceptAxis s a1 a2 a3 a4).hiu = s.hiu ∧ (acceptAxis s a1 a2 a3 a4).cmd = s.cmd ∧ (acceptAxis
      s a1 a2 a3 a4).mem = s.mem ∧ (acceptAxis s a1 a2 a3 a4).kst = s.kst ∧ (acceptAxis s a1 a2 a3 a4).cph = s.cph ∧ (acceptAxis s a1 a2 a3
      a4).bdy = s.bdy ∧ (acceptAxis s a1 a2 a3 a4).bnd = s.bnd := by
  have h := follows_acceptAxis (T := fun p => ([.spn, .axes] : List Part).contains p) (by decide) (follows_refl s) (a1 := a1) (a2 := a2)
    (a3 := a3) (a4 := a4)
  exact ⟨h.queue, h.frame .free rfl, h.frame .regs rfl, h.frame .splitLatch rfl, h.frame .hostRead rfl, h.frame .cnt rfl, h.frame .tck
    rfl, h.frame .pwr rfl, h.frame .bays rfl, h.frame .ports rfl, h.frame .bfes rfl, h.frame .out rfl, h.frame .cells rfl, h.frame .units
    rfl, h.frame .bus rfl, h.frame .rdc rfl, h.frame .wrc rfl, h.frame .cal rfl, h.frame .qre rfl, h.frame .hiu rfl, h.frame .cmd rfl,
    h.frame .mem rfl, h.frame .kst rfl, h.frame .cph rfl, h.frame .bdy rfl, h.frame .bnd rfl⟩

@[simp] theorem actCellAll_frame (s : State) (a0 : Nat) (a2 : Nat) :
    (actCellAll a0 s a2).pending = s.pending ∧ (actCellAll a0 s a2).free = s.free ∧ (actCellAll a0 s a2).regs = s.regs ∧ (actCellAll a0 s
      a2).splitLatch = s.splitLatch ∧ (actCellAll a0 s a2).hostRead = s.hostRead ∧ (actCellAll a0 s a2).tck = s.tck ∧ (actCellAll a0 s
      a2).pwr = s.pwr ∧ (actCellAll a0 s a2).bays = s.bays ∧ (actCellAll a0 s a2).bfes = s.bfes ∧ (actCellAll a0 s a2).spn = s.spn ∧
      (actCellAll a0 s a2).out = s.out ∧ (actCellAll a0 s a2).units = s.units ∧ (actCellAll a0 s a2).bus = s.bus ∧ (actCellAll a0 s a2).axes
      = s.axes ∧ (actCellAll a0 s a2).rdc = s.rdc ∧ (actCellAll a0 s a2).wrc = s.wrc ∧ (actCellAll a0 s a2).cal = s.cal ∧ (actCellAll a0 s
      a2).qre = s.qre ∧ (actCellAll a0 s a2).hiu = s.hiu ∧ (actCellAll a0 s a2).cmd = s.cmd ∧ (actCellAll a0 s a2).mem = s.mem ∧ (actCellAll
      a0 s a2).kst = s.kst ∧ (actCellAll a0 s a2).cph = s.cph ∧ (actCellAll a0 s a2).bdy = s.bdy ∧ (actCellAll a0 s a2).bnd = s.bnd := by
  have h := follows_actCellAll (T := fun p => ([.cnt, .ports, .cells] : List Part).contains p) (by decide) (follows_refl s) (a0 := a0)
    (a2 := a2)
  exact ⟨h.queue, h.frame .free rfl, h.frame .regs rfl, h.frame .splitLatch rfl, h.frame .hostRead rfl, h.frame .tck rfl, h.frame .pwr
    rfl, h.frame .bays rfl, h.frame .bfes rfl, h.frame .spn rfl, h.frame .out rfl, h.frame .units rfl, h.frame .bus rfl, h.frame .axes
    rfl, h.frame .rdc rfl, h.frame .wrc rfl, h.frame .cal rfl, h.frame .qre rfl, h.frame .hiu rfl, h.frame .cmd rfl, h.frame .mem rfl,
    h.frame .kst rfl, h.frame .cph rfl, h.frame .bdy rfl, h.frame .bnd rfl⟩

@[simp] theorem cellEffect_frame (s : State) (a1 : Nat) :
    (cellEffect s a1).pending = s.pending ∧ (cellEffect s a1).free = s.free ∧ (cellEffect s a1).regs = s.regs ∧ (cellEffect s
      a1).splitLatch = s.splitLatch ∧ (cellEffect s a1).hostRead = s.hostRead ∧ (cellEffect s a1).tck = s.tck ∧ (cellEffect s a1).pwr =
      s.pwr ∧ (cellEffect s a1).bays = s.bays ∧ (cellEffect s a1).bfes = s.bfes ∧ (cellEffect s a1).spn = s.spn ∧ (cellEffect s a1).out =
      s.out ∧ (cellEffect s a1).units = s.units ∧ (cellEffect s a1).bus = s.bus ∧ (cellEffect s a1).axes = s.axes ∧ (cellEffect s a1).rdc =
      s.rdc ∧ (cellEffect s a1).wrc = s.wrc ∧ (cellEffect s a1).cal = s.cal ∧ (cellEffect s a1).qre = s.qre ∧ (cellEffect s a1).hiu = s.hiu
      ∧ (cellEffect s a1).cmd = s.cmd ∧ (cellEffect s a1).mem = s.mem ∧ (cellEffect s a1).kst = s.kst ∧ (cellEffect s a1).cph = s.cph ∧
      (cellEffect s a1).bdy = s.bdy ∧ (cellEffect s a1).bnd = s.bnd := by
  have h := follows_cellEffect (T := fun p => ([.cnt, .ports, .cells] : List Part).contains p) (by decide) (follows_refl s) (a1 := a1)
  exact ⟨h.queue, h.frame .free rfl, h.frame .regs rfl, h.frame .splitLatch rfl, h.frame .hostRead rfl, h.frame .tck rfl, h.frame .pwr
    rfl, h.frame .bays rfl, h.frame .bfes rfl, h.frame .spn rfl, h.frame .out rfl, h.frame .units rfl, h.frame .bus rfl, h.frame .axes
    rfl, h.frame .rdc rfl, h.frame .wrc rfl, h.frame .cal rfl, h.frame .qre rfl, h.frame .hiu rfl, h.frame .cmd rfl, h.frame .mem rfl,
    h.frame .kst rfl, h.frame .cph rfl, h.frame .bdy rfl, h.frame .bnd rfl⟩

@[simp] theorem unitEffect_frame (s : State) (a1 : Nat) :
    (unitEffect s a1).pending = s.pending ∧ (unitEffect s a1).free = s.free ∧ (unitEffect s a1).splitLatch = s.splitLatch ∧ (unitEffect s
      a1).hostRead = s.hostRead ∧ (unitEffect s a1).tck = s.tck ∧ (unitEffect s a1).pwr = s.pwr ∧ (unitEffect s a1).bays = s.bays ∧
      (unitEffect s a1).ports = s.ports ∧ (unitEffect s a1).bfes = s.bfes ∧ (unitEffect s a1).spn = s.spn ∧ (unitEffect s a1).out = s.out ∧
      (unitEffect s a1).cells = s.cells ∧ (unitEffect s a1).axes = s.axes ∧ (unitEffect s a1).rdc = s.rdc ∧ (unitEffect s a1).wrc = s.wrc ∧
      (unitEffect s a1).cal = s.cal ∧ (unitEffect s a1).qre = s.qre ∧ (unitEffect s a1).hiu = s.hiu ∧ (unitEffect s a1).cmd = s.cmd ∧
      (unitEffect s a1).mem = s.mem ∧ (unitEffect s a1).kst = s.kst ∧ (unitEffect s a1).cph = s.cph ∧ (unitEffect s a1).bdy = s.bdy ∧
      (unitEffect s a1).bnd = s.bnd := by
  have h := follows_unitEffect (T := fun p => ([.regs, .cnt, .units, .bus] : List Part).contains p) (by decide) (follows_refl s) (a1 := a1)
  exact ⟨h.queue, h.frame .free rfl, h.frame .splitLatch rfl, h.frame .hostRead rfl, h.frame .tck rfl, h.frame .pwr rfl, h.frame .bays
    rfl, h.frame .ports rfl, h.frame .bfes rfl, h.frame .spn rfl, h.frame .out rfl, h.frame .cells rfl, h.frame .axes rfl, h.frame .rdc
    rfl, h.frame .wrc rfl, h.frame .cal rfl, h.frame .qre rfl, h.frame .hiu rfl, h.frame .cmd rfl, h.frame .mem rfl, h.frame .kst rfl,
    h.frame .cph rfl, h.frame .bdy rfl, h.frame .bnd rfl⟩

@[simp] theorem axisEffect_frame (s : State) (a1 : Nat) :
    (axisEffect s a1).pending = s.pending ∧ (axisEffect s a1).free = s.free ∧ (axisEffect s a1).splitLatch = s.splitLatch ∧ (axisEffect s
      a1).hostRead = s.hostRead ∧ (axisEffect s a1).tck = s.tck ∧ (axisEffect s a1).pwr = s.pwr ∧ (axisEffect s a1).bays = s.bays ∧
      (axisEffect s a1).ports = s.ports ∧ (axisEffect s a1).bfes = s.bfes ∧ (axisEffect s a1).spn = s.spn ∧ (axisEffect s a1).out = s.out ∧
      (axisEffect s a1).cells = s.cells ∧ (axisEffect s a1).units = s.units ∧ (axisEffect s a1).bus = s.bus ∧ (axisEffect s a1).rdc = s.rdc
      ∧ (axisEffect s a1).wrc = s.wrc ∧ (axisEffect s a1).cal = s.cal ∧ (axisEffect s a1).qre = s.qre ∧ (axisEffect s a1).hiu = s.hiu ∧
      (axisEffect s a1).cmd = s.cmd ∧ (axisEffect s a1).mem = s.mem ∧ (axisEffect s a1).kst = s.kst ∧ (axisEffect s a1).cph = s.cph ∧
      (axisEffect s a1).bdy = s.bdy ∧ (axisEffect s a1).bnd = s.bnd := by
  have h := follows_axisEffect (T := fun p => ([.regs, .cnt, .axes] : List Part).contains p) (by decide) (follows_refl s) (a1 := a1)
  exact ⟨h.queue, h.frame .free rfl, h.frame .splitLatch rfl, h.frame .hostRead rfl, h.frame .tck rfl, h.frame .pwr rfl, h.frame .bays
    rfl, h.frame .ports rfl, h.frame .bfes rfl, h.frame .spn rfl, h.frame .out rfl, h.frame .cells rfl, h.frame .units rfl, h.frame .bus
    rfl, h.frame .rdc rfl, h.frame .wrc rfl, h.frame .cal rfl, h.frame .qre rfl, h.frame .hiu rfl, h.frame .cmd rfl, h.frame .mem rfl,
    h.frame .kst rfl, h.frame .cph rfl, h.frame .bdy rfl, h.frame .bnd rfl⟩

@[simp] theorem holdFocus_frame (s : State) (a1 : Nat) :
    (holdFocus s a1).pending = s.pending ∧ (holdFocus s a1).free = s.free ∧ (holdFocus s a1).regs = s.regs ∧ (holdFocus s a1).splitLatch =
      s.splitLatch ∧ (holdFocus s a1).hostRead = s.hostRead ∧ (holdFocus s a1).tck = s.tck ∧ (holdFocus s a1).pwr = s.pwr ∧ (holdFocus s
      a1).bays = s.bays ∧ (holdFocus s a1).ports = s.ports ∧ (holdFocus s a1).bfes = s.bfes ∧ (holdFocus s a1).spn = s.spn ∧ (holdFocus s
      a1).out = s.out ∧ (holdFocus s a1).units = s.units ∧ (holdFocus s a1).bus = s.bus ∧ (holdFocus s a1).axes = s.axes ∧ (holdFocus s
      a1).rdc = s.rdc ∧ (holdFocus s a1).wrc = s.wrc ∧ (holdFocus s a1).cal = s.cal ∧ (holdFocus s a1).qre = s.qre ∧ (holdFocus s a1).hiu =
      s.hiu ∧ (holdFocus s a1).cmd = s.cmd ∧ (holdFocus s a1).mem = s.mem ∧ (holdFocus s a1).kst = s.kst ∧ (holdFocus s a1).cph = s.cph ∧
      (holdFocus s a1).bdy = s.bdy ∧ (holdFocus s a1).bnd = s.bnd := by
  have h := follows_holdFocus (T := fun p => ([.cnt, .cells] : List Part).contains p) (by decide) (follows_refl s) (a1 := a1)
  exact ⟨h.queue, h.frame .free rfl, h.frame .regs rfl, h.frame .splitLatch rfl, h.frame .hostRead rfl, h.frame .tck rfl, h.frame .pwr
    rfl, h.frame .bays rfl, h.frame .ports rfl, h.frame .bfes rfl, h.frame .spn rfl, h.frame .out rfl, h.frame .units rfl, h.frame .bus
    rfl, h.frame .axes rfl, h.frame .rdc rfl, h.frame .wrc rfl, h.frame .cal rfl, h.frame .qre rfl, h.frame .hiu rfl, h.frame .cmd rfl,
    h.frame .mem rfl, h.frame .kst rfl, h.frame .cph rfl, h.frame .bdy rfl, h.frame .bnd rfl⟩

@[simp] theorem followPrereq_frame (s : State) (a1 : Nat) :
    (followPrereq s a1).pending = s.pending ∧ (followPrereq s a1).free = s.free ∧ (followPrereq s a1).regs = s.regs ∧ (followPrereq s
      a1).splitLatch = s.splitLatch ∧ (followPrereq s a1).hostRead = s.hostRead ∧ (followPrereq s a1).tck = s.tck ∧ (followPrereq s a1).pwr
      = s.pwr ∧ (followPrereq s a1).bays = s.bays ∧ (followPrereq s a1).ports = s.ports ∧ (followPrereq s a1).bfes = s.bfes ∧ (followPrereq
      s a1).spn = s.spn ∧ (followPrereq s a1).out = s.out ∧ (followPrereq s a1).units = s.units ∧ (followPrereq s a1).bus = s.bus ∧
      (followPrereq s a1).axes = s.axes ∧ (followPrereq s a1).rdc = s.rdc ∧ (followPrereq s a1).wrc = s.wrc ∧ (followPrereq s a1).cal =
      s.cal ∧ (followPrereq s a1).qre = s.qre ∧ (followPrereq s a1).hiu = s.hiu ∧ (followPrereq s a1).cmd = s.cmd ∧ (followPrereq s a1).mem
      = s.mem ∧ (followPrereq s a1).kst = s.kst ∧ (followPrereq s a1).cph = s.cph ∧ (followPrereq s a1).bdy = s.bdy ∧ (followPrereq s
      a1).bnd = s.bnd := by
  have h := follows_followPrereq (T := fun p => ([.cnt, .cells] : List Part).contains p) (by decide) (follows_refl s) (a1 := a1)
  exact ⟨h.queue, h.frame .free rfl, h.frame .regs rfl, h.frame .splitLatch rfl, h.frame .hostRead rfl, h.frame .tck rfl, h.frame .pwr
    rfl, h.frame .bays rfl, h.frame .ports rfl, h.frame .bfes rfl, h.frame .spn rfl, h.frame .out rfl, h.frame .units rfl, h.frame .bus
    rfl, h.frame .axes rfl, h.frame .rdc rfl, h.frame .wrc rfl, h.frame .cal rfl, h.frame .qre rfl, h.frame .hiu rfl, h.frame .cmd rfl,
    h.frame .mem rfl, h.frame .kst rfl, h.frame .cph rfl, h.frame .bdy rfl, h.frame .bnd rfl⟩

@[simp] theorem setSnap_frame (s : State) (a1 : Bool) (a2 : SnapSlot) :
    (setSnap s a1 a2).pending = s.pending ∧ (setSnap s a1 a2).free = s.free ∧ (setSnap s a1 a2).regs = s.regs ∧ (setSnap s a1
      a2).splitLatch = s.splitLatch ∧ (setSnap s a1 a2).hostRead = s.hostRead ∧ (setSnap s a1 a2).cnt = s.cnt ∧ (setSnap s a1 a2).pwr =
      s.pwr ∧ (setSnap s a1 a2).bays = s.bays ∧ (setSnap s a1 a2).ports = s.ports ∧ (setSnap s a1 a2).bfes = s.bfes ∧ (setSnap s a1 a2).spn
      = s.spn ∧ (setSnap s a1 a2).out = s.out ∧ (setSnap s a1 a2).cells = s.cells ∧ (setSnap s a1 a2).units = s.units ∧ (setSnap s a1
      a2).bus = s.bus ∧ (setSnap s a1 a2).axes = s.axes ∧ (setSnap s a1 a2).rdc = s.rdc ∧ (setSnap s a1 a2).wrc = s.wrc ∧ (setSnap s a1
      a2).cal = s.cal ∧ (setSnap s a1 a2).qre = s.qre ∧ (setSnap s a1 a2).hiu = s.hiu ∧ (setSnap s a1 a2).cmd = s.cmd ∧ (setSnap s a1
      a2).mem = s.mem ∧ (setSnap s a1 a2).kst = s.kst ∧ (setSnap s a1 a2).cph = s.cph ∧ (setSnap s a1 a2).bdy = s.bdy ∧ (setSnap s a1
      a2).bnd = s.bnd := by
  have h := follows_setSnap (T := fun p => ([.tck] : List Part).contains p) (by decide) (follows_refl s) (a1 := a1) (a2 := a2)
  exact ⟨h.queue, h.frame .free rfl, h.frame .regs rfl, h.frame .splitLatch rfl, h.frame .hostRead rfl, h.frame .cnt rfl, h.frame .pwr
    rfl, h.frame .bays rfl, h.frame .ports rfl, h.frame .bfes rfl, h.frame .spn rfl, h.frame .out rfl, h.frame .cells rfl, h.frame .units
    rfl, h.frame .bus rfl, h.frame .axes rfl, h.frame .rdc rfl, h.frame .wrc rfl, h.frame .cal rfl, h.frame .qre rfl, h.frame .hiu rfl,
    h.frame .cmd rfl, h.frame .mem rfl, h.frame .kst rfl, h.frame .cph rfl, h.frame .bdy rfl, h.frame .bnd rfl⟩

@[simp] theorem setResult_frame (s : State) (a1 : Nat) :
    (setResult s a1).pending = s.pending ∧ (setResult s a1).free = s.free ∧ (setResult s a1).regs = s.regs ∧ (setResult s a1).splitLatch =
      s.splitLatch ∧ (setResult s a1).hostRead = s.hostRead ∧ (setResult s a1).cnt = s.cnt ∧ (setResult s a1).tck = s.tck ∧ (setResult s
      a1).pwr = s.pwr ∧ (setResult s a1).bays = s.bays ∧ (setResult s a1).ports = s.ports ∧ (setResult s a1).bfes = s.bfes ∧ (setResult s
      a1).spn = s.spn ∧ (setResult s a1).out = s.out ∧ (setResult s a1).cells = s.cells ∧ (setResult s a1).units = s.units ∧ (setResult s
      a1).bus = s.bus ∧ (setResult s a1).axes = s.axes ∧ (setResult s a1).rdc = s.rdc ∧ (setResult s a1).wrc = s.wrc ∧ (setResult s a1).cal
      = s.cal ∧ (setResult s a1).qre = s.qre ∧ (setResult s a1).hiu = s.hiu ∧ (setResult s a1).cmd = s.cmd ∧ (setResult s a1).mem = s.mem ∧
      (setResult s a1).kst = s.kst ∧ (setResult s a1).cph = s.cph ∧ (setResult s a1).bdy = s.bdy := by
  have h := follows_setResult (T := fun p => ([.bnd] : List Part).contains p) (by decide) (follows_refl s) (a1 := a1)
  exact ⟨h.queue, h.frame .free rfl, h.frame .regs rfl, h.frame .splitLatch rfl, h.frame .hostRead rfl, h.frame .cnt rfl, h.frame .tck
    rfl, h.frame .pwr rfl, h.frame .bays rfl, h.frame .ports rfl, h.frame .bfes rfl, h.frame .spn rfl, h.frame .out rfl, h.frame .cells
    rfl, h.frame .units rfl, h.frame .bus rfl, h.frame .axes rfl, h.frame .rdc rfl, h.frame .wrc rfl, h.frame .cal rfl, h.frame .qre rfl,
    h.frame .hiu rfl, h.frame .cmd rfl, h.frame .mem rfl, h.frame .kst rfl, h.frame .cph rfl, h.frame .bdy rfl⟩

@[simp] theorem setFeature_frame (s : State) (a1 : Nat) (a2 : Feature) (a3 : Dword) :
    (setFeature s a1 a2 a3).pending = s.pending ∧ (setFeature s a1 a2 a3).free = s.free ∧ (setFeature s a1 a2 a3).regs = s.regs ∧
      (setFeature s a1 a2 a3).splitLatch = s.splitLatch ∧ (setFeature s a1 a2 a3).hostRead = s.hostRead ∧ (setFeature s a1 a2 a3).cnt =
      s.cnt ∧ (setFeature s a1 a2 a3).tck = s.tck ∧ (setFeature s a1 a2 a3).pwr = s.pwr ∧ (setFeature s a1 a2 a3).bays = s.bays ∧
      (setFeature s a1 a2 a3).ports = s.ports ∧ (setFeature s a1 a2 a3).bfes = s.bfes ∧ (setFeature s a1 a2 a3).spn = s.spn ∧ (setFeature s
      a1 a2 a3).cells = s.cells ∧ (setFeature s a1 a2 a3).units = s.units ∧ (setFeature s a1 a2 a3).bus = s.bus ∧ (setFeature s a1 a2
      a3).axes = s.axes ∧ (setFeature s a1 a2 a3).rdc = s.rdc ∧ (setFeature s a1 a2 a3).wrc = s.wrc ∧ (setFeature s a1 a2 a3).cal = s.cal ∧
      (setFeature s a1 a2 a3).qre = s.qre ∧ (setFeature s a1 a2 a3).cmd = s.cmd ∧ (setFeature s a1 a2 a3).mem = s.mem ∧ (setFeature s a1 a2
      a3).kst = s.kst ∧ (setFeature s a1 a2 a3).cph = s.cph ∧ (setFeature s a1 a2 a3).bdy = s.bdy ∧ (setFeature s a1 a2 a3).bnd = s.bnd :=
      by
  have h := follows_setFeature (T := fun p => ([.out, .hiu] : List Part).contains p) (by decide) (follows_refl s) (a1 := a1) (a2 := a2)
    (a3 := a3)
  exact ⟨h.queue, h.frame .free rfl, h.frame .regs rfl, h.frame .splitLatch rfl, h.frame .hostRead rfl, h.frame .cnt rfl, h.frame .tck
    rfl, h.frame .pwr rfl, h.frame .bays rfl, h.frame .ports rfl, h.frame .bfes rfl, h.frame .spn rfl, h.frame .cells rfl, h.frame .units
    rfl, h.frame .bus rfl, h.frame .axes rfl, h.frame .rdc rfl, h.frame .wrc rfl, h.frame .cal rfl, h.frame .qre rfl, h.frame .cmd rfl,
    h.frame .mem rfl, h.frame .kst rfl, h.frame .cph rfl, h.frame .bdy rfl, h.frame .bnd rfl⟩

@[simp] theorem setZone_frame (s : State) (a1 : Nat) (a2 : Nat) (a3 : Zone) :
    (setZone s a1 a2 a3).pending = s.pending ∧ (setZone s a1 a2 a3).free = s.free ∧ (setZone s a1 a2 a3).regs = s.regs ∧ (setZone s a1 a2
      a3).splitLatch = s.splitLatch ∧ (setZone s a1 a2 a3).hostRead = s.hostRead ∧ (setZone s a1 a2 a3).cnt = s.cnt ∧ (setZone s a1 a2
      a3).tck = s.tck ∧ (setZone s a1 a2 a3).pwr = s.pwr ∧ (setZone s a1 a2 a3).bays = s.bays ∧ (setZone s a1 a2 a3).ports = s.ports ∧
      (setZone s a1 a2 a3).bfes = s.bfes ∧ (setZone s a1 a2 a3).spn = s.spn ∧ (setZone s a1 a2 a3).out = s.out ∧ (setZone s a1 a2 a3).cells
      = s.cells ∧ (setZone s a1 a2 a3).units = s.units ∧ (setZone s a1 a2 a3).bus = s.bus ∧ (setZone s a1 a2 a3).axes = s.axes ∧ (setZone s
      a1 a2 a3).rdc = s.rdc ∧ (setZone s a1 a2 a3).wrc = s.wrc ∧ (setZone s a1 a2 a3).cal = s.cal ∧ (setZone s a1 a2 a3).qre = s.qre ∧
      (setZone s a1 a2 a3).cmd = s.cmd ∧ (setZone s a1 a2 a3).mem = s.mem ∧ (setZone s a1 a2 a3).kst = s.kst ∧ (setZone s a1 a2 a3).cph =
      s.cph ∧ (setZone s a1 a2 a3).bdy = s.bdy ∧ (setZone s a1 a2 a3).bnd = s.bnd := by
  have h := follows_setZone (T := fun p => ([.hiu] : List Part).contains p) (by decide) (follows_refl s) (a1 := a1) (a2 := a2) (a3 := a3)
  exact ⟨h.queue, h.frame .free rfl, h.frame .regs rfl, h.frame .splitLatch rfl, h.frame .hostRead rfl, h.frame .cnt rfl, h.frame .tck
    rfl, h.frame .pwr rfl, h.frame .bays rfl, h.frame .ports rfl, h.frame .bfes rfl, h.frame .spn rfl, h.frame .out rfl, h.frame .cells
    rfl, h.frame .units rfl, h.frame .bus rfl, h.frame .axes rfl, h.frame .rdc rfl, h.frame .wrc rfl, h.frame .cal rfl, h.frame .qre rfl,
    h.frame .cmd rfl, h.frame .mem rfl, h.frame .kst rfl, h.frame .cph rfl, h.frame .bdy rfl, h.frame .bnd rfl⟩

@[simp] theorem setCmd_frame (s : State) (a1 : Cmd) :
    (setCmd s a1).pending = s.pending ∧ (setCmd s a1).free = s.free ∧ (setCmd s a1).regs = s.regs ∧ (setCmd s a1).splitLatch =
      s.splitLatch ∧ (setCmd s a1).hostRead = s.hostRead ∧ (setCmd s a1).cnt = s.cnt ∧ (setCmd s a1).tck = s.tck ∧ (setCmd s a1).pwr = s.pwr
      ∧ (setCmd s a1).bays = s.bays ∧ (setCmd s a1).ports = s.ports ∧ (setCmd s a1).bfes = s.bfes ∧ (setCmd s a1).spn = s.spn ∧ (setCmd s
      a1).out = s.out ∧ (setCmd s a1).cells = s.cells ∧ (setCmd s a1).units = s.units ∧ (setCmd s a1).bus = s.bus ∧ (setCmd s a1).axes =
      s.axes ∧ (setCmd s a1).rdc = s.rdc ∧ (setCmd s a1).wrc = s.wrc ∧ (setCmd s a1).cal = s.cal ∧ (setCmd s a1).qre = s.qre ∧ (setCmd s
      a1).cmd = s.cmd ∧ (setCmd s a1).mem = s.mem ∧ (setCmd s a1).kst = s.kst ∧ (setCmd s a1).cph = s.cph ∧ (setCmd s a1).bdy = s.bdy ∧
      (setCmd s a1).bnd = s.bnd := by
  have h := follows_setCmd (T := fun p => ([.hiu] : List Part).contains p) (by decide) (follows_refl s) (a1 := a1)
  exact ⟨h.queue, h.frame .free rfl, h.frame .regs rfl, h.frame .splitLatch rfl, h.frame .hostRead rfl, h.frame .cnt rfl, h.frame .tck
    rfl, h.frame .pwr rfl, h.frame .bays rfl, h.frame .ports rfl, h.frame .bfes rfl, h.frame .spn rfl, h.frame .out rfl, h.frame .cells
    rfl, h.frame .units rfl, h.frame .bus rfl, h.frame .axes rfl, h.frame .rdc rfl, h.frame .wrc rfl, h.frame .cal rfl, h.frame .qre rfl,
    h.frame .cmd rfl, h.frame .mem rfl, h.frame .kst rfl, h.frame .cph rfl, h.frame .bdy rfl, h.frame .bnd rfl⟩

@[simp] theorem setRead_frame (s : State) (a1 : ReadSt) :
    (setRead s a1).pending = s.pending ∧ (setRead s a1).free = s.free ∧ (setRead s a1).regs = s.regs ∧ (setRead s a1).splitLatch =
      s.splitLatch ∧ (setRead s a1).hostRead = s.hostRead ∧ (setRead s a1).cnt = s.cnt ∧ (setRead s a1).tck = s.tck ∧ (setRead s a1).pwr =
      s.pwr ∧ (setRead s a1).bays = s.bays ∧ (setRead s a1).ports = s.ports ∧ (setRead s a1).bfes = s.bfes ∧ (setRead s a1).spn = s.spn ∧
      (setRead s a1).out = s.out ∧ (setRead s a1).cells = s.cells ∧ (setRead s a1).units = s.units ∧ (setRead s a1).bus = s.bus ∧ (setRead s
      a1).axes = s.axes ∧ (setRead s a1).wrc = s.wrc ∧ (setRead s a1).cal = s.cal ∧ (setRead s a1).qre = s.qre ∧ (setRead s a1).hiu = s.hiu
      ∧ (setRead s a1).cmd = s.cmd ∧ (setRead s a1).mem = s.mem ∧ (setRead s a1).kst = s.kst ∧ (setRead s a1).cph = s.cph ∧ (setRead s
      a1).bdy = s.bdy ∧ (setRead s a1).bnd = s.bnd := by
  have h := follows_setRead (T := fun p => ([.rdc] : List Part).contains p) (by decide) (follows_refl s) (a1 := a1)
  exact ⟨h.queue, h.frame .free rfl, h.frame .regs rfl, h.frame .splitLatch rfl, h.frame .hostRead rfl, h.frame .cnt rfl, h.frame .tck
    rfl, h.frame .pwr rfl, h.frame .bays rfl, h.frame .ports rfl, h.frame .bfes rfl, h.frame .spn rfl, h.frame .out rfl, h.frame .cells
    rfl, h.frame .units rfl, h.frame .bus rfl, h.frame .axes rfl, h.frame .wrc rfl, h.frame .cal rfl, h.frame .qre rfl, h.frame .hiu rfl,
    h.frame .cmd rfl, h.frame .mem rfl, h.frame .kst rfl, h.frame .cph rfl, h.frame .bdy rfl, h.frame .bnd rfl⟩

@[simp] theorem setSurf_frame (s : State) (a1 : Nat) (a2 : Surf) :
    (setSurf s a1 a2).pending = s.pending ∧ (setSurf s a1 a2).free = s.free ∧ (setSurf s a1 a2).regs = s.regs ∧ (setSurf s a1
      a2).splitLatch = s.splitLatch ∧ (setSurf s a1 a2).hostRead = s.hostRead ∧ (setSurf s a1 a2).cnt = s.cnt ∧ (setSurf s a1 a2).tck =
      s.tck ∧ (setSurf s a1 a2).pwr = s.pwr ∧ (setSurf s a1 a2).bays = s.bays ∧ (setSurf s a1 a2).ports = s.ports ∧ (setSurf s a1 a2).bfes =
      s.bfes ∧ (setSurf s a1 a2).spn = s.spn ∧ (setSurf s a1 a2).out = s.out ∧ (setSurf s a1 a2).cells = s.cells ∧ (setSurf s a1 a2).units =
      s.units ∧ (setSurf s a1 a2).bus = s.bus ∧ (setSurf s a1 a2).axes = s.axes ∧ (setSurf s a1 a2).rdc = s.rdc ∧ (setSurf s a1 a2).wrc =
      s.wrc ∧ (setSurf s a1 a2).cal = s.cal ∧ (setSurf s a1 a2).hiu = s.hiu ∧ (setSurf s a1 a2).cmd = s.cmd ∧ (setSurf s a1 a2).mem = s.mem
      ∧ (setSurf s a1 a2).kst = s.kst ∧ (setSurf s a1 a2).cph = s.cph ∧ (setSurf s a1 a2).bdy = s.bdy ∧ (setSurf s a1 a2).bnd = s.bnd := by
  have h := follows_setSurf (T := fun p => ([.qre] : List Part).contains p) (by decide) (follows_refl s) (a1 := a1) (a2 := a2)
  exact ⟨h.queue, h.frame .free rfl, h.frame .regs rfl, h.frame .splitLatch rfl, h.frame .hostRead rfl, h.frame .cnt rfl, h.frame .tck
    rfl, h.frame .pwr rfl, h.frame .bays rfl, h.frame .ports rfl, h.frame .bfes rfl, h.frame .spn rfl, h.frame .out rfl, h.frame .cells
    rfl, h.frame .units rfl, h.frame .bus rfl, h.frame .axes rfl, h.frame .rdc rfl, h.frame .wrc rfl, h.frame .cal rfl, h.frame .hiu rfl,
    h.frame .cmd rfl, h.frame .mem rfl, h.frame .kst rfl, h.frame .cph rfl, h.frame .bdy rfl, h.frame .bnd rfl⟩

@[simp] theorem setMode_frame (s : State) (a1 : Nat) (a2 : Nat) :
    (setMode s a1 a2).pending = s.pending ∧ (setMode s a1 a2).free = s.free ∧ (setMode s a1 a2).regs = s.regs ∧ (setMode s a1
      a2).splitLatch = s.splitLatch ∧ (setMode s a1 a2).hostRead = s.hostRead ∧ (setMode s a1 a2).tck = s.tck ∧ (setMode s a1 a2).pwr =
      s.pwr ∧ (setMode s a1 a2).bfes = s.bfes ∧ (setMode s a1 a2).out = s.out ∧ (setMode s a1 a2).bus = s.bus ∧ (setMode s a1 a2).rdc =
      s.rdc ∧ (setMode s a1 a2).wrc = s.wrc ∧ (setMode s a1 a2).qre = s.qre ∧ (setMode s a1 a2).hiu = s.hiu ∧ (setMode s a1 a2).cmd = s.cmd
      ∧ (setMode s a1 a2).mem = s.mem ∧ (setMode s a1 a2).kst = s.kst ∧ (setMode s a1 a2).cph = s.cph ∧ (setMode s a1 a2).bnd = s.bnd := by
  have h := follows_setMode (T := fun p => ([.cnt, .bays, .ports, .spn, .cells, .units, .axes, .cal, .bdy] : List Part).contains p) (by
    decide) (follows_refl s) (a1 := a1) (a2 := a2)
  exact ⟨h.queue, h.frame .free rfl, h.frame .regs rfl, h.frame .splitLatch rfl, h.frame .hostRead rfl, h.frame .tck rfl, h.frame .pwr
    rfl, h.frame .bfes rfl, h.frame .out rfl, h.frame .bus rfl, h.frame .rdc rfl, h.frame .wrc rfl, h.frame .qre rfl, h.frame .hiu rfl,
    h.frame .cmd rfl, h.frame .mem rfl, h.frame .kst rfl, h.frame .cph rfl, h.frame .bnd rfl⟩

@[simp] theorem fileDirectory_frame (s : State) :
    (fileDirectory s).pending = s.pending ∧ (fileDirectory s).free = s.free ∧ (fileDirectory s).regs = s.regs ∧ (fileDirectory
      s).splitLatch = s.splitLatch ∧ (fileDirectory s).hostRead = s.hostRead ∧ (fileDirectory s).cnt = s.cnt ∧ (fileDirectory s).tck = s.tck
      ∧ (fileDirectory s).pwr = s.pwr ∧ (fileDirectory s).bays = s.bays ∧ (fileDirectory s).ports = s.ports ∧ (fileDirectory s).bfes =
      s.bfes ∧ (fileDirectory s).spn = s.spn ∧ (fileDirectory s).out = s.out ∧ (fileDirectory s).cells = s.cells ∧ (fileDirectory s).units =
      s.units ∧ (fileDirectory s).bus = s.bus ∧ (fileDirectory s).axes = s.axes ∧ (fileDirectory s).rdc = s.rdc ∧ (fileDirectory s).wrc =
      s.wrc ∧ (fileDirectory s).cal = s.cal ∧ (fileDirectory s).qre = s.qre ∧ (fileDirectory s).hiu = s.hiu ∧ (fileDirectory s).cmd = s.cmd
      ∧ (fileDirectory s).mem = s.mem ∧ (fileDirectory s).kst = s.kst ∧ (fileDirectory s).cph = s.cph ∧ (fileDirectory s).bnd = s.bnd := by
  have h := follows_fileDirectory (T := fun p => ([.bdy] : List Part).contains p) (by decide) (follows_refl s)
  exact ⟨h.queue, h.frame .free rfl, h.frame .regs rfl, h.frame .splitLatch rfl, h.frame .hostRead rfl, h.frame .cnt rfl, h.frame .tck
    rfl, h.frame .pwr rfl, h.frame .bays rfl, h.frame .ports rfl, h.frame .bfes rfl, h.frame .spn rfl, h.frame .out rfl, h.frame .cells
    rfl, h.frame .units rfl, h.frame .bus rfl, h.frame .axes rfl, h.frame .rdc rfl, h.frame .wrc rfl, h.frame .cal rfl, h.frame .qre rfl,
    h.frame .hiu rfl, h.frame .cmd rfl, h.frame .mem rfl, h.frame .kst rfl, h.frame .cph rfl, h.frame .bnd rfl⟩

@[simp] theorem recordAmend_frame (s : State) (a1 : Amend) :
    (recordAmend s a1).pending = s.pending ∧ (recordAmend s a1).free = s.free ∧ (recordAmend s a1).regs = s.regs ∧ (recordAmend s
      a1).splitLatch = s.splitLatch ∧ (recordAmend s a1).hostRead = s.hostRead ∧ (recordAmend s a1).cnt = s.cnt ∧ (recordAmend s a1).tck =
      s.tck ∧ (recordAmend s a1).pwr = s.pwr ∧ (recordAmend s a1).bays = s.bays ∧ (recordAmend s a1).ports = s.ports ∧ (recordAmend s
      a1).bfes = s.bfes ∧ (recordAmend s a1).spn = s.spn ∧ (recordAmend s a1).cells = s.cells ∧ (recordAmend s a1).units = s.units ∧
      (recordAmend s a1).bus = s.bus ∧ (recordAmend s a1).axes = s.axes ∧ (recordAmend s a1).rdc = s.rdc ∧ (recordAmend s a1).wrc = s.wrc ∧
      (recordAmend s a1).cal = s.cal ∧ (recordAmend s a1).hiu = s.hiu ∧ (recordAmend s a1).cmd = s.cmd ∧ (recordAmend s a1).mem = s.mem ∧
      (recordAmend s a1).kst = s.kst ∧ (recordAmend s a1).cph = s.cph ∧ (recordAmend s a1).bdy = s.bdy ∧ (recordAmend s a1).bnd = s.bnd :=
      by
  have h := follows_recordAmend (T := fun p => ([.out, .qre] : List Part).contains p) (by decide) (follows_refl s) (a1 := a1)
  exact ⟨h.queue, h.frame .free rfl, h.frame .regs rfl, h.frame .splitLatch rfl, h.frame .hostRead rfl, h.frame .cnt rfl, h.frame .tck
    rfl, h.frame .pwr rfl, h.frame .bays rfl, h.frame .ports rfl, h.frame .bfes rfl, h.frame .spn rfl, h.frame .cells rfl, h.frame .units
    rfl, h.frame .bus rfl, h.frame .axes rfl, h.frame .rdc rfl, h.frame .wrc rfl, h.frame .cal rfl, h.frame .hiu rfl, h.frame .cmd rfl,
    h.frame .mem rfl, h.frame .kst rfl, h.frame .cph rfl, h.frame .bdy rfl, h.frame .bnd rfl⟩

@[simp] theorem holdRest_frame (s : State) (a1 : Nat) :
    (holdRest s a1).pending = s.pending ∧ (holdRest s a1).free = s.free ∧ (holdRest s a1).regs = s.regs ∧ (holdRest s a1).splitLatch =
      s.splitLatch ∧ (holdRest s a1).hostRead = s.hostRead ∧ (holdRest s a1).cnt = s.cnt ∧ (holdRest s a1).tck = s.tck ∧ (holdRest s a1).pwr
      = s.pwr ∧ (holdRest s a1).bays = s.bays ∧ (holdRest s a1).bfes = s.bfes ∧ (holdRest s a1).out = s.out ∧ (holdRest s a1).cells =
      s.cells ∧ (holdRest s a1).bus = s.bus ∧ (holdRest s a1).rdc = s.rdc ∧ (holdRest s a1).wrc = s.wrc ∧ (holdRest s a1).cal = s.cal ∧
      (holdRest s a1).qre = s.qre ∧ (holdRest s a1).hiu = s.hiu ∧ (holdRest s a1).cmd = s.cmd ∧ (holdRest s a1).mem = s.mem ∧ (holdRest s
      a1).kst = s.kst ∧ (holdRest s a1).cph = s.cph ∧ (holdRest s a1).bdy = s.bdy ∧ (holdRest s a1).bnd = s.bnd := by
  have h := follows_holdRest (T := fun p => ([.ports, .spn, .units, .axes] : List Part).contains p) (by decide) (follows_refl s) (a1 := a1)
  exact ⟨h.queue, h.frame .free rfl, h.frame .regs rfl, h.frame .splitLatch rfl, h.frame .hostRead rfl, h.frame .cnt rfl, h.frame .tck
    rfl, h.frame .pwr rfl, h.frame .bays rfl, h.frame .bfes rfl, h.frame .out rfl, h.frame .cells rfl, h.frame .bus rfl, h.frame .rdc rfl,
    h.frame .wrc rfl, h.frame .cal rfl, h.frame .qre rfl, h.frame .hiu rfl, h.frame .cmd rfl, h.frame .mem rfl, h.frame .kst rfl, h.frame
    .cph rfl, h.frame .bdy rfl, h.frame .bnd rfl⟩

@[simp] theorem writePages_frame (s : State) :
    (writePages s).pending = s.pending ∧ (writePages s).free = s.free ∧ (writePages s).regs = s.regs ∧ (writePages s).splitLatch =
      s.splitLatch ∧ (writePages s).hostRead = s.hostRead ∧ (writePages s).cnt = s.cnt ∧ (writePages s).tck = s.tck ∧ (writePages s).pwr =
      s.pwr ∧ (writePages s).bays = s.bays ∧ (writePages s).ports = s.ports ∧ (writePages s).bfes = s.bfes ∧ (writePages s).spn = s.spn ∧
      (writePages s).out = s.out ∧ (writePages s).cells = s.cells ∧ (writePages s).units = s.units ∧ (writePages s).bus = s.bus ∧
      (writePages s).axes = s.axes ∧ (writePages s).rdc = s.rdc ∧ (writePages s).wrc = s.wrc ∧ (writePages s).cal = s.cal ∧ (writePages
      s).qre = s.qre ∧ (writePages s).hiu = s.hiu ∧ (writePages s).cmd = s.cmd ∧ (writePages s).mem = s.mem ∧ (writePages s).kst = s.kst ∧
      (writePages s).cph = s.cph ∧ (writePages s).bnd = s.bnd := by
  have h := follows_writePages (T := fun p => ([.bdy] : List Part).contains p) (by decide) (follows_refl s)
  exact ⟨h.queue, h.frame .free rfl, h.frame .regs rfl, h.frame .splitLatch rfl, h.frame .hostRead rfl, h.frame .cnt rfl, h.frame .tck
    rfl, h.frame .pwr rfl, h.frame .bays rfl, h.frame .ports rfl, h.frame .bfes rfl, h.frame .spn rfl, h.frame .out rfl, h.frame .cells
    rfl, h.frame .units rfl, h.frame .bus rfl, h.frame .axes rfl, h.frame .rdc rfl, h.frame .wrc rfl, h.frame .cal rfl, h.frame .qre rfl,
    h.frame .hiu rfl, h.frame .cmd rfl, h.frame .mem rfl, h.frame .kst rfl, h.frame .cph rfl, h.frame .bnd rfl⟩

@[simp] theorem raiseFloor_frame (s : State) (a1 : Nat) :
    (raiseFloor s a1).pending = s.pending ∧ (raiseFloor s a1).free = s.free ∧ (raiseFloor s a1).regs = s.regs ∧ (raiseFloor s
      a1).splitLatch = s.splitLatch ∧ (raiseFloor s a1).hostRead = s.hostRead ∧ (raiseFloor s a1).cnt = s.cnt ∧ (raiseFloor s a1).tck =
      s.tck ∧ (raiseFloor s a1).pwr = s.pwr ∧ (raiseFloor s a1).bays = s.bays ∧ (raiseFloor s a1).ports = s.ports ∧ (raiseFloor s a1).bfes =
      s.bfes ∧ (raiseFloor s a1).spn = s.spn ∧ (raiseFloor s a1).out = s.out ∧ (raiseFloor s a1).cells = s.cells ∧ (raiseFloor s a1).units =
      s.units ∧ (raiseFloor s a1).bus = s.bus ∧ (raiseFloor s a1).axes = s.axes ∧ (raiseFloor s a1).rdc = s.rdc ∧ (raiseFloor s a1).wrc =
      s.wrc ∧ (raiseFloor s a1).cal = s.cal ∧ (raiseFloor s a1).qre = s.qre ∧ (raiseFloor s a1).hiu = s.hiu ∧ (raiseFloor s a1).cmd = s.cmd
      ∧ (raiseFloor s a1).mem = s.mem ∧ (raiseFloor s a1).cph = s.cph ∧ (raiseFloor s a1).bdy = s.bdy ∧ (raiseFloor s a1).bnd = s.bnd := by
  have h := follows_raiseFloor (T := fun p => ([.kst] : List Part).contains p) (by decide) (follows_refl s) (a1 := a1)
  exact ⟨h.queue, h.frame .free rfl, h.frame .regs rfl, h.frame .splitLatch rfl, h.frame .hostRead rfl, h.frame .cnt rfl, h.frame .tck
    rfl, h.frame .pwr rfl, h.frame .bays rfl, h.frame .ports rfl, h.frame .bfes rfl, h.frame .spn rfl, h.frame .out rfl, h.frame .cells
    rfl, h.frame .units rfl, h.frame .bus rfl, h.frame .axes rfl, h.frame .rdc rfl, h.frame .wrc rfl, h.frame .cal rfl, h.frame .qre rfl,
    h.frame .hiu rfl, h.frame .cmd rfl, h.frame .mem rfl, h.frame .cph rfl, h.frame .bdy rfl, h.frame .bnd rfl⟩

end Sys2Proof.Machine
end

