-- ==== Sys2Proof/Laws/Table.lean ====
section
/-! SUPPORT. Read after write in the sorted tables and the byte windows. -/

namespace Sys2Proof.Machine

variable {α : Type}

@[simp] theorem look_ins (t : Tbl α) (k j : Nat) (v : α) : look (ins t k v) j = if k = j then some v else look t j := by
  induction t with
  | nil => simp [ins, look]
  | cons e t ih =>
    obtain ⟨a, x⟩ := e
    simp only [ins]
    split
    · simp [look]
    · split
      · rename_i h
        subst h
        simp only [look]
        split <;> simp_all
      · rename_i h
        simp only [look, ih]
        split
        · rename_i haj
          subst haj
          rw [if_neg (fun e => h e.symm)]
        · rfl

@[simp] theorem look_del (t : Tbl α) (k j : Nat) : look (del t k) j = if k = j then none else look t j := by
  induction t with
  | nil => simp [del, look]
  | cons e t ih =>
    obtain ⟨a, x⟩ := e
    unfold del at ih ⊢
    by_cases h : a = k
    · subst h
      rw [List.filter_cons_of_neg (by simp), ih]
      simp only [look]
      split <;> simp_all
    · rw [List.filter_cons_of_pos (by simpa using h)]
      simp only [look, ih]
      split
      · rename_i haj
        subst haj
        rw [if_neg (fun e => h e.symm)]
      · rfl

/-- A filter by key keeps what the kept keys read as. -/
theorem look_filter (t : Tbl α) (p : Nat → Bool) (j : Nat) : look (t.filter (fun e => p e.1)) j = if p j then look t j else none := by
  induction t with
  | nil => simp [look]
  | cons e t ih =>
    obtain ⟨a, x⟩ := e
    by_cases h : p a
    · rw [List.filter_cons_of_pos (by simpa using h)]
      simp only [look, ih]
      split
      · rename_i haj
        subst haj
        rw [if_pos h]
      · rfl
    · rw [List.filter_cons_of_neg (by simpa using h), ih]
      by_cases haj : a = j
      · subst haj
        simp [h]
      · simp [look, haj]

/-- A map over a table reads as the map of what it held. -/
@[simp] theorem look_mapT {β : Type} (t : Tbl α) (f : Nat → α → β) (j : Nat) : look (mapT f t) j = (look t j).map (f j) := by
  induction t with
  | nil => rfl
  | cons e t ih =>
    obtain ⟨a, x⟩ := e
    unfold mapT at ih ⊢
    simp only [List.map_cons, look, ih]
    split
    · rename_i h
      subst h
      rfl
    · rfl

/-- Read after write: the written key holds the value, every other key what it held. -/
@[simp] theorem getD_put [DecidableEq α] (t : Tbl α) (d v : α) (k j : Nat) :
    getD (put t d k v) d j = if k = j then v else getD t d j := by
  unfold put getD
  split
  · rename_i h
    rw [look_del]
    split <;> simp_all
  · rw [look_ins]
    split <;> simp_all

theorem getD_ins (t : Tbl α) (d v : α) (k j : Nat) : getD (ins t k v) d j = if k = j then v else getD t d j := by
  unfold getD
  rw [look_ins]
  split <;> simp_all

/-- A write of the value that stands changes no read. -/
theorem winByte_winPut (w : List Host.Cell) (a j : Nat) (b : Byte) : winByte (winPut w a b) j = if a = j then b else winByte w j :=
  getD_put w 0 b a j

/-- Bytes outside the written ones read as before. -/
theorem winByte_winWrite_other (w : List Host.Cell) (a j : Nat) (bs : Bytes) (h : j < a ∨ a + bs.length ≤ j) :
    winByte (winWrite w a bs) j = winByte w j := by
  induction bs generalizing w a with
  | nil => rfl
  | cons b bs ih =>
    simp only [List.length_cons] at h
    rw [winWrite, ih _ _ (by omega), winByte_winPut, if_neg (by omega)]

/-- The written bytes read back. -/
theorem winByte_winWrite (w : List Host.Cell) (a i : Nat) (bs : Bytes) (h : i < bs.length) :
    winByte (winWrite w a bs) (a + i) = bs.getD i 0 := by
  induction bs generalizing w a i with
  | nil => exact absurd h (Nat.not_lt_zero _)
  | cons b bs ih =>
    rw [winWrite]
    cases i with
    | zero => rw [winByte_winWrite_other _ _ _ _ (by omega), winByte_winPut, if_pos (by omega)]; rfl
    | succ i =>
      have := ih (winPut w a b) (a + 1) i (by simpa using h)
      rw [show a + (i + 1) = a + 1 + i by omega, this]
      rfl

end Sys2Proof.Machine
end

