-- ==== Sys2Proof/Laws/State.lean ====
section
/-! SUPPORT. What each update of one part leaves as it was, and what it reads as afterwards; all true by computation. -/

namespace Sys2Proof.Machine

variable (s : State)

@[simp] theorem setCell_pending (n : Nat) (c : Cell) : (setCell s n c).pending = s.pending := rfl
@[simp] theorem setCell_free (n : Nat) (c : Cell) : (setCell s n c).free = s.free := rfl
@[simp] theorem setCell_regs (n : Nat) (c : Cell) : (setCell s n c).regs = s.regs := rfl
@[simp] theorem setCell_splitLatch (n : Nat) (c : Cell) : (setCell s n c).splitLatch = s.splitLatch := rfl
@[simp] theorem setCell_hostRead (n : Nat) (c : Cell) : (setCell s n c).hostRead = s.hostRead := rfl
@[simp] theorem setCell_cnt (n : Nat) (c : Cell) : (setCell s n c).cnt = s.cnt := rfl
@[simp] theorem setCell_tck (n : Nat) (c : Cell) : (setCell s n c).tck = s.tck := rfl
@[simp] theorem setCell_pwr (n : Nat) (c : Cell) : (setCell s n c).pwr = s.pwr := rfl
@[simp] theorem setCell_bays (n : Nat) (c : Cell) : (setCell s n c).bays = s.bays := rfl
@[simp] theorem setCell_ports (n : Nat) (c : Cell) : (setCell s n c).ports = s.ports := rfl
@[simp] theorem setCell_bfes (n : Nat) (c : Cell) : (setCell s n c).bfes = s.bfes := rfl
@[simp] theorem setCell_spn (n : Nat) (c : Cell) : (setCell s n c).spn = s.spn := rfl
@[simp] theorem setCell_out (n : Nat) (c : Cell) : (setCell s n c).out = s.out := rfl
@[simp] theorem setCell_units (n : Nat) (c : Cell) : (setCell s n c).units = s.units := rfl
@[simp] theorem setCell_bus (n : Nat) (c : Cell) : (setCell s n c).bus = s.bus := rfl
@[simp] theorem setCell_axes (n : Nat) (c : Cell) : (setCell s n c).axes = s.axes := rfl
@[simp] theorem setCell_rdc (n : Nat) (c : Cell) : (setCell s n c).rdc = s.rdc := rfl
@[simp] theorem setCell_wrc (n : Nat) (c : Cell) : (setCell s n c).wrc = s.wrc := rfl
@[simp] theorem setCell_cal (n : Nat) (c : Cell) : (setCell s n c).cal = s.cal := rfl
@[simp] theorem setCell_qre (n : Nat) (c : Cell) : (setCell s n c).qre = s.qre := rfl
@[simp] theorem setCell_hiu (n : Nat) (c : Cell) : (setCell s n c).hiu = s.hiu := rfl
@[simp] theorem setCell_cmd (n : Nat) (c : Cell) : (setCell s n c).cmd = s.cmd := rfl
@[simp] theorem setCell_mem (n : Nat) (c : Cell) : (setCell s n c).mem = s.mem := rfl
@[simp] theorem setCell_kst (n : Nat) (c : Cell) : (setCell s n c).kst = s.kst := rfl
@[simp] theorem setCell_cph (n : Nat) (c : Cell) : (setCell s n c).cph = s.cph := rfl
@[simp] theorem setCell_bdy (n : Nat) (c : Cell) : (setCell s n c).bdy = s.bdy := rfl
@[simp] theorem setCell_bnd (n : Nat) (c : Cell) : (setCell s n c).bnd = s.bnd := rfl

@[simp] theorem setUnit_pending (n : Nat) (u : Unit) : (setUnit s n u).pending = s.pending := rfl
@[simp] theorem setUnit_free (n : Nat) (u : Unit) : (setUnit s n u).free = s.free := rfl
@[simp] theorem setUnit_regs (n : Nat) (u : Unit) : (setUnit s n u).regs = s.regs := rfl
@[simp] theorem setUnit_splitLatch (n : Nat) (u : Unit) : (setUnit s n u).splitLatch = s.splitLatch := rfl
@[simp] theorem setUnit_hostRead (n : Nat) (u : Unit) : (setUnit s n u).hostRead = s.hostRead := rfl
@[simp] theorem setUnit_cnt (n : Nat) (u : Unit) : (setUnit s n u).cnt = s.cnt := rfl
@[simp] theorem setUnit_tck (n : Nat) (u : Unit) : (setUnit s n u).tck = s.tck := rfl
@[simp] theorem setUnit_pwr (n : Nat) (u : Unit) : (setUnit s n u).pwr = s.pwr := rfl
@[simp] theorem setUnit_bays (n : Nat) (u : Unit) : (setUnit s n u).bays = s.bays := rfl
@[simp] theorem setUnit_ports (n : Nat) (u : Unit) : (setUnit s n u).ports = s.ports := rfl
@[simp] theorem setUnit_bfes (n : Nat) (u : Unit) : (setUnit s n u).bfes = s.bfes := rfl
@[simp] theorem setUnit_spn (n : Nat) (u : Unit) : (setUnit s n u).spn = s.spn := rfl
@[simp] theorem setUnit_out (n : Nat) (u : Unit) : (setUnit s n u).out = s.out := rfl
@[simp] theorem setUnit_cells (n : Nat) (u : Unit) : (setUnit s n u).cells = s.cells := rfl
@[simp] theorem setUnit_bus (n : Nat) (u : Unit) : (setUnit s n u).bus = s.bus := rfl
@[simp] theorem setUnit_axes (n : Nat) (u : Unit) : (setUnit s n u).axes = s.axes := rfl
@[simp] theorem setUnit_rdc (n : Nat) (u : Unit) : (setUnit s n u).rdc = s.rdc := rfl
@[simp] theorem setUnit_wrc (n : Nat) (u : Unit) : (setUnit s n u).wrc = s.wrc := rfl
@[simp] theorem setUnit_cal (n : Nat) (u : Unit) : (setUnit s n u).cal = s.cal := rfl
@[simp] theorem setUnit_qre (n : Nat) (u : Unit) : (setUnit s n u).qre = s.qre := rfl
@[simp] theorem setUnit_hiu (n : Nat) (u : Unit) : (setUnit s n u).hiu = s.hiu := rfl
@[simp] theorem setUnit_cmd (n : Nat) (u : Unit) : (setUnit s n u).cmd = s.cmd := rfl
@[simp] theorem setUnit_mem (n : Nat) (u : Unit) : (setUnit s n u).mem = s.mem := rfl
@[simp] theorem setUnit_kst (n : Nat) (u : Unit) : (setUnit s n u).kst = s.kst := rfl
@[simp] theorem setUnit_cph (n : Nat) (u : Unit) : (setUnit s n u).cph = s.cph := rfl
@[simp] theorem setUnit_bdy (n : Nat) (u : Unit) : (setUnit s n u).bdy = s.bdy := rfl
@[simp] theorem setUnit_bnd (n : Nat) (u : Unit) : (setUnit s n u).bnd = s.bnd := rfl

@[simp] theorem setAxis_pending (n : Nat) (a : Axis) : (setAxis s n a).pending = s.pending := rfl
@[simp] theorem setAxis_free (n : Nat) (a : Axis) : (setAxis s n a).free = s.free := rfl
@[simp] theorem setAxis_regs (n : Nat) (a : Axis) : (setAxis s n a).regs = s.regs := rfl
@[simp] theorem setAxis_splitLatch (n : Nat) (a : Axis) : (setAxis s n a).splitLatch = s.splitLatch := rfl
@[simp] theorem setAxis_hostRead (n : Nat) (a : Axis) : (setAxis s n a).hostRead = s.hostRead := rfl
@[simp] theorem setAxis_cnt (n : Nat) (a : Axis) : (setAxis s n a).cnt = s.cnt := rfl
@[simp] theorem setAxis_tck (n : Nat) (a : Axis) : (setAxis s n a).tck = s.tck := rfl
@[simp] theorem setAxis_pwr (n : Nat) (a : Axis) : (setAxis s n a).pwr = s.pwr := rfl
@[simp] theorem setAxis_bays (n : Nat) (a : Axis) : (setAxis s n a).bays = s.bays := rfl
@[simp] theorem setAxis_ports (n : Nat) (a : Axis) : (setAxis s n a).ports = s.ports := rfl
@[simp] theorem setAxis_bfes (n : Nat) (a : Axis) : (setAxis s n a).bfes = s.bfes := rfl
@[simp] theorem setAxis_spn (n : Nat) (a : Axis) : (setAxis s n a).spn = s.spn := rfl
@[simp] theorem setAxis_out (n : Nat) (a : Axis) : (setAxis s n a).out = s.out := rfl
@[simp] theorem setAxis_cells (n : Nat) (a : Axis) : (setAxis s n a).cells = s.cells := rfl
@[simp] theorem setAxis_units (n : Nat) (a : Axis) : (setAxis s n a).units = s.units := rfl
@[simp] theorem setAxis_bus (n : Nat) (a : Axis) : (setAxis s n a).bus = s.bus := rfl
@[simp] theorem setAxis_rdc (n : Nat) (a : Axis) : (setAxis s n a).rdc = s.rdc := rfl
@[simp] theorem setAxis_wrc (n : Nat) (a : Axis) : (setAxis s n a).wrc = s.wrc := rfl
@[simp] theorem setAxis_cal (n : Nat) (a : Axis) : (setAxis s n a).cal = s.cal := rfl
@[simp] theorem setAxis_qre (n : Nat) (a : Axis) : (setAxis s n a).qre = s.qre := rfl
@[simp] theorem setAxis_hiu (n : Nat) (a : Axis) : (setAxis s n a).hiu = s.hiu := rfl
@[simp] theorem setAxis_cmd (n : Nat) (a : Axis) : (setAxis s n a).cmd = s.cmd := rfl
@[simp] theorem setAxis_mem (n : Nat) (a : Axis) : (setAxis s n a).mem = s.mem := rfl
@[simp] theorem setAxis_kst (n : Nat) (a : Axis) : (setAxis s n a).kst = s.kst := rfl
@[simp] theorem setAxis_cph (n : Nat) (a : Axis) : (setAxis s n a).cph = s.cph := rfl
@[simp] theorem setAxis_bdy (n : Nat) (a : Axis) : (setAxis s n a).bdy = s.bdy := rfl
@[simp] theorem setAxis_bnd (n : Nat) (a : Axis) : (setAxis s n a).bnd = s.bnd := rfl

@[simp] theorem setBay_pending (n : Nat) (b : Bay) : (setBay s n b).pending = s.pending := rfl
@[simp] theorem setBay_free (n : Nat) (b : Bay) : (setBay s n b).free = s.free := rfl
@[simp] theorem setBay_regs (n : Nat) (b : Bay) : (setBay s n b).regs = s.regs := rfl
@[simp] theorem setBay_splitLatch (n : Nat) (b : Bay) : (setBay s n b).splitLatch = s.splitLatch := rfl
@[simp] theorem setBay_hostRead (n : Nat) (b : Bay) : (setBay s n b).hostRead = s.hostRead := rfl
@[simp] theorem setBay_cnt (n : Nat) (b : Bay) : (setBay s n b).cnt = s.cnt := rfl
@[simp] theorem setBay_tck (n : Nat) (b : Bay) : (setBay s n b).tck = s.tck := rfl
@[simp] theorem setBay_pwr (n : Nat) (b : Bay) : (setBay s n b).pwr = s.pwr := rfl
@[simp] theorem setBay_ports (n : Nat) (b : Bay) : (setBay s n b).ports = s.ports := rfl
@[simp] theorem setBay_bfes (n : Nat) (b : Bay) : (setBay s n b).bfes = s.bfes := rfl
@[simp] theorem setBay_spn (n : Nat) (b : Bay) : (setBay s n b).spn = s.spn := rfl
@[simp] theorem setBay_out (n : Nat) (b : Bay) : (setBay s n b).out = s.out := rfl
@[simp] theorem setBay_cells (n : Nat) (b : Bay) : (setBay s n b).cells = s.cells := rfl
@[simp] theorem setBay_units (n : Nat) (b : Bay) : (setBay s n b).units = s.units := rfl
@[simp] theorem setBay_bus (n : Nat) (b : Bay) : (setBay s n b).bus = s.bus := rfl
@[simp] theorem setBay_axes (n : Nat) (b : Bay) : (setBay s n b).axes = s.axes := rfl
@[simp] theorem setBay_rdc (n : Nat) (b : Bay) : (setBay s n b).rdc = s.rdc := rfl
@[simp] theorem setBay_wrc (n : Nat) (b : Bay) : (setBay s n b).wrc = s.wrc := rfl
@[simp] theorem setBay_cal (n : Nat) (b : Bay) : (setBay s n b).cal = s.cal := rfl
@[simp] theorem setBay_qre (n : Nat) (b : Bay) : (setBay s n b).qre = s.qre := rfl
@[simp] theorem setBay_hiu (n : Nat) (b : Bay) : (setBay s n b).hiu = s.hiu := rfl
@[simp] theorem setBay_cmd (n : Nat) (b : Bay) : (setBay s n b).cmd = s.cmd := rfl
@[simp] theorem setBay_mem (n : Nat) (b : Bay) : (setBay s n b).mem = s.mem := rfl
@[simp] theorem setBay_kst (n : Nat) (b : Bay) : (setBay s n b).kst = s.kst := rfl
@[simp] theorem setBay_cph (n : Nat) (b : Bay) : (setBay s n b).cph = s.cph := rfl
@[simp] theorem setBay_bdy (n : Nat) (b : Bay) : (setBay s n b).bdy = s.bdy := rfl
@[simp] theorem setBay_bnd (n : Nat) (b : Bay) : (setBay s n b).bnd = s.bnd := rfl

@[simp] theorem setPort_pending (n : Nat) (p : Port) : (setPort s n p).pending = s.pending := rfl
@[simp] theorem setPort_free (n : Nat) (p : Port) : (setPort s n p).free = s.free := rfl
@[simp] theorem setPort_regs (n : Nat) (p : Port) : (setPort s n p).regs = s.regs := rfl
@[simp] theorem setPort_splitLatch (n : Nat) (p : Port) : (setPort s n p).splitLatch = s.splitLatch := rfl
@[simp] theorem setPort_hostRead (n : Nat) (p : Port) : (setPort s n p).hostRead = s.hostRead := rfl
@[simp] theorem setPort_cnt (n : Nat) (p : Port) : (setPort s n p).cnt = s.cnt := rfl
@[simp] theorem setPort_tck (n : Nat) (p : Port) : (setPort s n p).tck = s.tck := rfl
@[simp] theorem setPort_pwr (n : Nat) (p : Port) : (setPort s n p).pwr = s.pwr := rfl
@[simp] theorem setPort_bays (n : Nat) (p : Port) : (setPort s n p).bays = s.bays := rfl
@[simp] theorem setPort_bfes (n : Nat) (p : Port) : (setPort s n p).bfes = s.bfes := rfl
@[simp] theorem setPort_spn (n : Nat) (p : Port) : (setPort s n p).spn = s.spn := rfl
@[simp] theorem setPort_out (n : Nat) (p : Port) : (setPort s n p).out = s.out := rfl
@[simp] theorem setPort_cells (n : Nat) (p : Port) : (setPort s n p).cells = s.cells := rfl
@[simp] theorem setPort_units (n : Nat) (p : Port) : (setPort s n p).units = s.units := rfl
@[simp] theorem setPort_bus (n : Nat) (p : Port) : (setPort s n p).bus = s.bus := rfl
@[simp] theorem setPort_axes (n : Nat) (p : Port) : (setPort s n p).axes = s.axes := rfl
@[simp] theorem setPort_rdc (n : Nat) (p : Port) : (setPort s n p).rdc = s.rdc := rfl
@[simp] theorem setPort_wrc (n : Nat) (p : Port) : (setPort s n p).wrc = s.wrc := rfl
@[simp] theorem setPort_cal (n : Nat) (p : Port) : (setPort s n p).cal = s.cal := rfl
@[simp] theorem setPort_qre (n : Nat) (p : Port) : (setPort s n p).qre = s.qre := rfl
@[simp] theorem setPort_hiu (n : Nat) (p : Port) : (setPort s n p).hiu = s.hiu := rfl
@[simp] theorem setPort_cmd (n : Nat) (p : Port) : (setPort s n p).cmd = s.cmd := rfl
@[simp] theorem setPort_mem (n : Nat) (p : Port) : (setPort s n p).mem = s.mem := rfl
@[simp] theorem setPort_kst (n : Nat) (p : Port) : (setPort s n p).kst = s.kst := rfl
@[simp] theorem setPort_cph (n : Nat) (p : Port) : (setPort s n p).cph = s.cph := rfl
@[simp] theorem setPort_bdy (n : Nat) (p : Port) : (setPort s n p).bdy = s.bdy := rfl
@[simp] theorem setPort_bnd (n : Nat) (p : Port) : (setPort s n p).bnd = s.bnd := rfl

@[simp] theorem setBfe_pending (n : Nat) (b : Bfe) : (setBfe s n b).pending = s.pending := rfl
@[simp] theorem setBfe_free (n : Nat) (b : Bfe) : (setBfe s n b).free = s.free := rfl
@[simp] theorem setBfe_regs (n : Nat) (b : Bfe) : (setBfe s n b).regs = s.regs := rfl
@[simp] theorem setBfe_splitLatch (n : Nat) (b : Bfe) : (setBfe s n b).splitLatch = s.splitLatch := rfl
@[simp] theorem setBfe_hostRead (n : Nat) (b : Bfe) : (setBfe s n b).hostRead = s.hostRead := rfl
@[simp] theorem setBfe_cnt (n : Nat) (b : Bfe) : (setBfe s n b).cnt = s.cnt := rfl
@[simp] theorem setBfe_tck (n : Nat) (b : Bfe) : (setBfe s n b).tck = s.tck := rfl
@[simp] theorem setBfe_pwr (n : Nat) (b : Bfe) : (setBfe s n b).pwr = s.pwr := rfl
@[simp] theorem setBfe_bays (n : Nat) (b : Bfe) : (setBfe s n b).bays = s.bays := rfl
@[simp] theorem setBfe_ports (n : Nat) (b : Bfe) : (setBfe s n b).ports = s.ports := rfl
@[simp] theorem setBfe_spn (n : Nat) (b : Bfe) : (setBfe s n b).spn = s.spn := rfl
@[simp] theorem setBfe_out (n : Nat) (b : Bfe) : (setBfe s n b).out = s.out := rfl
@[simp] theorem setBfe_cells (n : Nat) (b : Bfe) : (setBfe s n b).cells = s.cells := rfl
@[simp] theorem setBfe_units (n : Nat) (b : Bfe) : (setBfe s n b).units = s.units := rfl
@[simp] theorem setBfe_bus (n : Nat) (b : Bfe) : (setBfe s n b).bus = s.bus := rfl
@[simp] theorem setBfe_axes (n : Nat) (b : Bfe) : (setBfe s n b).axes = s.axes := rfl
@[simp] theorem setBfe_rdc (n : Nat) (b : Bfe) : (setBfe s n b).rdc = s.rdc := rfl
@[simp] theorem setBfe_wrc (n : Nat) (b : Bfe) : (setBfe s n b).wrc = s.wrc := rfl
@[simp] theorem setBfe_cal (n : Nat) (b : Bfe) : (setBfe s n b).cal = s.cal := rfl
@[simp] theorem setBfe_qre (n : Nat) (b : Bfe) : (setBfe s n b).qre = s.qre := rfl
@[simp] theorem setBfe_hiu (n : Nat) (b : Bfe) : (setBfe s n b).hiu = s.hiu := rfl
@[simp] theorem setBfe_cmd (n : Nat) (b : Bfe) : (setBfe s n b).cmd = s.cmd := rfl
@[simp] theorem setBfe_mem (n : Nat) (b : Bfe) : (setBfe s n b).mem = s.mem := rfl
@[simp] theorem setBfe_kst (n : Nat) (b : Bfe) : (setBfe s n b).kst = s.kst := rfl
@[simp] theorem setBfe_cph (n : Nat) (b : Bfe) : (setBfe s n b).cph = s.cph := rfl
@[simp] theorem setBfe_bdy (n : Nat) (b : Bfe) : (setBfe s n b).bdy = s.bdy := rfl
@[simp] theorem setBfe_bnd (n : Nat) (b : Bfe) : (setBfe s n b).bnd = s.bnd := rfl

@[simp] theorem setPair_pending (n : Nat) (p : PairBay) : (setPair s n p).pending = s.pending := rfl
@[simp] theorem setPair_free (n : Nat) (p : PairBay) : (setPair s n p).free = s.free := rfl
@[simp] theorem setPair_regs (n : Nat) (p : PairBay) : (setPair s n p).regs = s.regs := rfl
@[simp] theorem setPair_splitLatch (n : Nat) (p : PairBay) : (setPair s n p).splitLatch = s.splitLatch := rfl
@[simp] theorem setPair_hostRead (n : Nat) (p : PairBay) : (setPair s n p).hostRead = s.hostRead := rfl
@[simp] theorem setPair_cnt (n : Nat) (p : PairBay) : (setPair s n p).cnt = s.cnt := rfl
@[simp] theorem setPair_tck (n : Nat) (p : PairBay) : (setPair s n p).tck = s.tck := rfl
@[simp] theorem setPair_pwr (n : Nat) (p : PairBay) : (setPair s n p).pwr = s.pwr := rfl
@[simp] theorem setPair_bays (n : Nat) (p : PairBay) : (setPair s n p).bays = s.bays := rfl
@[simp] theorem setPair_ports (n : Nat) (p : PairBay) : (setPair s n p).ports = s.ports := rfl
@[simp] theorem setPair_bfes (n : Nat) (p : PairBay) : (setPair s n p).bfes = s.bfes := rfl
@[simp] theorem setPair_out (n : Nat) (p : PairBay) : (setPair s n p).out = s.out := rfl
@[simp] theorem setPair_cells (n : Nat) (p : PairBay) : (setPair s n p).cells = s.cells := rfl
@[simp] theorem setPair_units (n : Nat) (p : PairBay) : (setPair s n p).units = s.units := rfl
@[simp] theorem setPair_bus (n : Nat) (p : PairBay) : (setPair s n p).bus = s.bus := rfl
@[simp] theorem setPair_axes (n : Nat) (p : PairBay) : (setPair s n p).axes = s.axes := rfl
@[simp] theorem setPair_rdc (n : Nat) (p : PairBay) : (setPair s n p).rdc = s.rdc := rfl
@[simp] theorem setPair_wrc (n : Nat) (p : PairBay) : (setPair s n p).wrc = s.wrc := rfl
@[simp] theorem setPair_cal (n : Nat) (p : PairBay) : (setPair s n p).cal = s.cal := rfl
@[simp] theorem setPair_qre (n : Nat) (p : PairBay) : (setPair s n p).qre = s.qre := rfl
@[simp] theorem setPair_hiu (n : Nat) (p : PairBay) : (setPair s n p).hiu = s.hiu := rfl
@[simp] theorem setPair_cmd (n : Nat) (p : PairBay) : (setPair s n p).cmd = s.cmd := rfl
@[simp] theorem setPair_mem (n : Nat) (p : PairBay) : (setPair s n p).mem = s.mem := rfl
@[simp] theorem setPair_kst (n : Nat) (p : PairBay) : (setPair s n p).kst = s.kst := rfl
@[simp] theorem setPair_cph (n : Nat) (p : PairBay) : (setPair s n p).cph = s.cph := rfl
@[simp] theorem setPair_bdy (n : Nat) (p : PairBay) : (setPair s n p).bdy = s.bdy := rfl
@[simp] theorem setPair_bnd (n : Nat) (p : PairBay) : (setPair s n p).bnd = s.bnd := rfl

@[simp] theorem setChan_pending (n : Nat) (c : Chan) : (setChan s n c).pending = s.pending := rfl
@[simp] theorem setChan_free (n : Nat) (c : Chan) : (setChan s n c).free = s.free := rfl
@[simp] theorem setChan_regs (n : Nat) (c : Chan) : (setChan s n c).regs = s.regs := rfl
@[simp] theorem setChan_splitLatch (n : Nat) (c : Chan) : (setChan s n c).splitLatch = s.splitLatch := rfl
@[simp] theorem setChan_hostRead (n : Nat) (c : Chan) : (setChan s n c).hostRead = s.hostRead := rfl
@[simp] theorem setChan_cnt (n : Nat) (c : Chan) : (setChan s n c).cnt = s.cnt := rfl
@[simp] theorem setChan_tck (n : Nat) (c : Chan) : (setChan s n c).tck = s.tck := rfl
@[simp] theorem setChan_pwr (n : Nat) (c : Chan) : (setChan s n c).pwr = s.pwr := rfl
@[simp] theorem setChan_bays (n : Nat) (c : Chan) : (setChan s n c).bays = s.bays := rfl
@[simp] theorem setChan_ports (n : Nat) (c : Chan) : (setChan s n c).ports = s.ports := rfl
@[simp] theorem setChan_bfes (n : Nat) (c : Chan) : (setChan s n c).bfes = s.bfes := rfl
@[simp] theorem setChan_spn (n : Nat) (c : Chan) : (setChan s n c).spn = s.spn := rfl
@[simp] theorem setChan_out (n : Nat) (c : Chan) : (setChan s n c).out = s.out := rfl
@[simp] theorem setChan_cells (n : Nat) (c : Chan) : (setChan s n c).cells = s.cells := rfl
@[simp] theorem setChan_units (n : Nat) (c : Chan) : (setChan s n c).units = s.units := rfl
@[simp] theorem setChan_bus (n : Nat) (c : Chan) : (setChan s n c).bus = s.bus := rfl
@[simp] theorem setChan_axes (n : Nat) (c : Chan) : (setChan s n c).axes = s.axes := rfl
@[simp] theorem setChan_wrc (n : Nat) (c : Chan) : (setChan s n c).wrc = s.wrc := rfl
@[simp] theorem setChan_cal (n : Nat) (c : Chan) : (setChan s n c).cal = s.cal := rfl
@[simp] theorem setChan_qre (n : Nat) (c : Chan) : (setChan s n c).qre = s.qre := rfl
@[simp] theorem setChan_hiu (n : Nat) (c : Chan) : (setChan s n c).hiu = s.hiu := rfl
@[simp] theorem setChan_cmd (n : Nat) (c : Chan) : (setChan s n c).cmd = s.cmd := rfl
@[simp] theorem setChan_mem (n : Nat) (c : Chan) : (setChan s n c).mem = s.mem := rfl
@[simp] theorem setChan_kst (n : Nat) (c : Chan) : (setChan s n c).kst = s.kst := rfl
@[simp] theorem setChan_cph (n : Nat) (c : Chan) : (setChan s n c).cph = s.cph := rfl
@[simp] theorem setChan_bdy (n : Nat) (c : Chan) : (setChan s n c).bdy = s.bdy := rfl
@[simp] theorem setChan_bnd (n : Nat) (c : Chan) : (setChan s n c).bnd = s.bnd := rfl

@[simp] theorem setOpu_pending (n : Nat) (o : OpuW) : (setOpu s n o).pending = s.pending := rfl
@[simp] theorem setOpu_free (n : Nat) (o : OpuW) : (setOpu s n o).free = s.free := rfl
@[simp] theorem setOpu_regs (n : Nat) (o : OpuW) : (setOpu s n o).regs = s.regs := rfl
@[simp] theorem setOpu_splitLatch (n : Nat) (o : OpuW) : (setOpu s n o).splitLatch = s.splitLatch := rfl
@[simp] theorem setOpu_hostRead (n : Nat) (o : OpuW) : (setOpu s n o).hostRead = s.hostRead := rfl
@[simp] theorem setOpu_cnt (n : Nat) (o : OpuW) : (setOpu s n o).cnt = s.cnt := rfl
@[simp] theorem setOpu_tck (n : Nat) (o : OpuW) : (setOpu s n o).tck = s.tck := rfl
@[simp] theorem setOpu_pwr (n : Nat) (o : OpuW) : (setOpu s n o).pwr = s.pwr := rfl
@[simp] theorem setOpu_bays (n : Nat) (o : OpuW) : (setOpu s n o).bays = s.bays := rfl
@[simp] theorem setOpu_ports (n : Nat) (o : OpuW) : (setOpu s n o).ports = s.ports := rfl
@[simp] theorem setOpu_bfes (n : Nat) (o : OpuW) : (setOpu s n o).bfes = s.bfes := rfl
@[simp] theorem setOpu_spn (n : Nat) (o : OpuW) : (setOpu s n o).spn = s.spn := rfl
@[simp] theorem setOpu_out (n : Nat) (o : OpuW) : (setOpu s n o).out = s.out := rfl
@[simp] theorem setOpu_cells (n : Nat) (o : OpuW) : (setOpu s n o).cells = s.cells := rfl
@[simp] theorem setOpu_units (n : Nat) (o : OpuW) : (setOpu s n o).units = s.units := rfl
@[simp] theorem setOpu_bus (n : Nat) (o : OpuW) : (setOpu s n o).bus = s.bus := rfl
@[simp] theorem setOpu_axes (n : Nat) (o : OpuW) : (setOpu s n o).axes = s.axes := rfl
@[simp] theorem setOpu_rdc (n : Nat) (o : OpuW) : (setOpu s n o).rdc = s.rdc := rfl
@[simp] theorem setOpu_cal (n : Nat) (o : OpuW) : (setOpu s n o).cal = s.cal := rfl
@[simp] theorem setOpu_qre (n : Nat) (o : OpuW) : (setOpu s n o).qre = s.qre := rfl
@[simp] theorem setOpu_hiu (n : Nat) (o : OpuW) : (setOpu s n o).hiu = s.hiu := rfl
@[simp] theorem setOpu_cmd (n : Nat) (o : OpuW) : (setOpu s n o).cmd = s.cmd := rfl
@[simp] theorem setOpu_mem (n : Nat) (o : OpuW) : (setOpu s n o).mem = s.mem := rfl
@[simp] theorem setOpu_kst (n : Nat) (o : OpuW) : (setOpu s n o).kst = s.kst := rfl
@[simp] theorem setOpu_cph (n : Nat) (o : OpuW) : (setOpu s n o).cph = s.cph := rfl
@[simp] theorem setOpu_bdy (n : Nat) (o : OpuW) : (setOpu s n o).bdy = s.bdy := rfl
@[simp] theorem setOpu_bnd (n : Nat) (o : OpuW) : (setOpu s n o).bnd = s.bnd := rfl

@[simp] theorem setCtrl_pending (n : Nat) (c : Ctrl) : (setCtrl s n c).pending = s.pending := rfl
@[simp] theorem setCtrl_free (n : Nat) (c : Ctrl) : (setCtrl s n c).free = s.free := rfl
@[simp] theorem setCtrl_regs (n : Nat) (c : Ctrl) : (setCtrl s n c).regs = s.regs := rfl
@[simp] theorem setCtrl_splitLatch (n : Nat) (c : Ctrl) : (setCtrl s n c).splitLatch = s.splitLatch := rfl
@[simp] theorem setCtrl_hostRead (n : Nat) (c : Ctrl) : (setCtrl s n c).hostRead = s.hostRead := rfl
@[simp] theorem setCtrl_cnt (n : Nat) (c : Ctrl) : (setCtrl s n c).cnt = s.cnt := rfl
@[simp] theorem setCtrl_tck (n : Nat) (c : Ctrl) : (setCtrl s n c).tck = s.tck := rfl
@[simp] theorem setCtrl_pwr (n : Nat) (c : Ctrl) : (setCtrl s n c).pwr = s.pwr := rfl
@[simp] theorem setCtrl_bays (n : Nat) (c : Ctrl) : (setCtrl s n c).bays = s.bays := rfl
@[simp] theorem setCtrl_ports (n : Nat) (c : Ctrl) : (setCtrl s n c).ports = s.ports := rfl
@[simp] theorem setCtrl_bfes (n : Nat) (c : Ctrl) : (setCtrl s n c).bfes = s.bfes := rfl
@[simp] theorem setCtrl_spn (n : Nat) (c : Ctrl) : (setCtrl s n c).spn = s.spn := rfl
@[simp] theorem setCtrl_out (n : Nat) (c : Ctrl) : (setCtrl s n c).out = s.out := rfl
@[simp] theorem setCtrl_cells (n : Nat) (c : Ctrl) : (setCtrl s n c).cells = s.cells := rfl
@[simp] theorem setCtrl_units (n : Nat) (c : Ctrl) : (setCtrl s n c).units = s.units := rfl
@[simp] theorem setCtrl_bus (n : Nat) (c : Ctrl) : (setCtrl s n c).bus = s.bus := rfl
@[simp] theorem setCtrl_axes (n : Nat) (c : Ctrl) : (setCtrl s n c).axes = s.axes := rfl
@[simp] theorem setCtrl_rdc (n : Nat) (c : Ctrl) : (setCtrl s n c).rdc = s.rdc := rfl
@[simp] theorem setCtrl_wrc (n : Nat) (c : Ctrl) : (setCtrl s n c).wrc = s.wrc := rfl
@[simp] theorem setCtrl_cal (n : Nat) (c : Ctrl) : (setCtrl s n c).cal = s.cal := rfl
@[simp] theorem setCtrl_qre (n : Nat) (c : Ctrl) : (setCtrl s n c).qre = s.qre := rfl
@[simp] theorem setCtrl_cmd (n : Nat) (c : Ctrl) : (setCtrl s n c).cmd = s.cmd := rfl
@[simp] theorem setCtrl_mem (n : Nat) (c : Ctrl) : (setCtrl s n c).mem = s.mem := rfl
@[simp] theorem setCtrl_kst (n : Nat) (c : Ctrl) : (setCtrl s n c).kst = s.kst := rfl
@[simp] theorem setCtrl_cph (n : Nat) (c : Ctrl) : (setCtrl s n c).cph = s.cph := rfl
@[simp] theorem setCtrl_bdy (n : Nat) (c : Ctrl) : (setCtrl s n c).bdy = s.bdy := rfl
@[simp] theorem setCtrl_bnd (n : Nat) (c : Ctrl) : (setCtrl s n c).bnd = s.bnd := rfl

@[simp] theorem bump_pending (b i : Nat) : (bump s b i).pending = s.pending := rfl
@[simp] theorem bump_free (b i : Nat) : (bump s b i).free = s.free := rfl
@[simp] theorem bump_regs (b i : Nat) : (bump s b i).regs = s.regs := rfl
@[simp] theorem bump_splitLatch (b i : Nat) : (bump s b i).splitLatch = s.splitLatch := rfl
@[simp] theorem bump_hostRead (b i : Nat) : (bump s b i).hostRead = s.hostRead := rfl
@[simp] theorem bump_tck (b i : Nat) : (bump s b i).tck = s.tck := rfl
@[simp] theorem bump_pwr (b i : Nat) : (bump s b i).pwr = s.pwr := rfl
@[simp] theorem bump_bays (b i : Nat) : (bump s b i).bays = s.bays := rfl
@[simp] theorem bump_ports (b i : Nat) : (bump s b i).ports = s.ports := rfl
@[simp] theorem bump_bfes (b i : Nat) : (bump s b i).bfes = s.bfes := rfl
@[simp] theorem bump_spn (b i : Nat) : (bump s b i).spn = s.spn := rfl
@[simp] theorem bump_out (b i : Nat) : (bump s b i).out = s.out := rfl
@[simp] theorem bump_cells (b i : Nat) : (bump s b i).cells = s.cells := rfl
@[simp] theorem bump_units (b i : Nat) : (bump s b i).units = s.units := rfl
@[simp] theorem bump_bus (b i : Nat) : (bump s b i).bus = s.bus := rfl
@[simp] theorem bump_axes (b i : Nat) : (bump s b i).axes = s.axes := rfl
@[simp] theorem bump_rdc (b i : Nat) : (bump s b i).rdc = s.rdc := rfl
@[simp] theorem bump_wrc (b i : Nat) : (bump s b i).wrc = s.wrc := rfl
@[simp] theorem bump_cal (b i : Nat) : (bump s b i).cal = s.cal := rfl
@[simp] theorem bump_qre (b i : Nat) : (bump s b i).qre = s.qre := rfl
@[simp] theorem bump_hiu (b i : Nat) : (bump s b i).hiu = s.hiu := rfl
@[simp] theorem bump_cmd (b i : Nat) : (bump s b i).cmd = s.cmd := rfl
@[simp] theorem bump_mem (b i : Nat) : (bump s b i).mem = s.mem := rfl
@[simp] theorem bump_kst (b i : Nat) : (bump s b i).kst = s.kst := rfl
@[simp] theorem bump_cph (b i : Nat) : (bump s b i).cph = s.cph := rfl
@[simp] theorem bump_bdy (b i : Nat) : (bump s b i).bdy = s.bdy := rfl
@[simp] theorem bump_bnd (b i : Nat) : (bump s b i).bnd = s.bnd := rfl

@[simp] theorem bumpN_pending (b i n : Nat) : (bumpN s b i n).pending = s.pending := rfl
@[simp] theorem bumpN_free (b i n : Nat) : (bumpN s b i n).free = s.free := rfl
@[simp] theorem bumpN_regs (b i n : Nat) : (bumpN s b i n).regs = s.regs := rfl
@[simp] theorem bumpN_splitLatch (b i n : Nat) : (bumpN s b i n).splitLatch = s.splitLatch := rfl
@[simp] theorem bumpN_hostRead (b i n : Nat) : (bumpN s b i n).hostRead = s.hostRead := rfl
@[simp] theorem bumpN_tck (b i n : Nat) : (bumpN s b i n).tck = s.tck := rfl
@[simp] theorem bumpN_pwr (b i n : Nat) : (bumpN s b i n).pwr = s.pwr := rfl
@[simp] theorem bumpN_bays (b i n : Nat) : (bumpN s b i n).bays = s.bays := rfl
@[simp] theorem bumpN_ports (b i n : Nat) : (bumpN s b i n).ports = s.ports := rfl
@[simp] theorem bumpN_bfes (b i n : Nat) : (bumpN s b i n).bfes = s.bfes := rfl
@[simp] theorem bumpN_spn (b i n : Nat) : (bumpN s b i n).spn = s.spn := rfl
@[simp] theorem bumpN_out (b i n : Nat) : (bumpN s b i n).out = s.out := rfl
@[simp] theorem bumpN_cells (b i n : Nat) : (bumpN s b i n).cells = s.cells := rfl
@[simp] theorem bumpN_units (b i n : Nat) : (bumpN s b i n).units = s.units := rfl
@[simp] theorem bumpN_bus (b i n : Nat) : (bumpN s b i n).bus = s.bus := rfl
@[simp] theorem bumpN_axes (b i n : Nat) : (bumpN s b i n).axes = s.axes := rfl
@[simp] theorem bumpN_rdc (b i n : Nat) : (bumpN s b i n).rdc = s.rdc := rfl
@[simp] theorem bumpN_wrc (b i n : Nat) : (bumpN s b i n).wrc = s.wrc := rfl
@[simp] theorem bumpN_cal (b i n : Nat) : (bumpN s b i n).cal = s.cal := rfl
@[simp] theorem bumpN_qre (b i n : Nat) : (bumpN s b i n).qre = s.qre := rfl
@[simp] theorem bumpN_hiu (b i n : Nat) : (bumpN s b i n).hiu = s.hiu := rfl
@[simp] theorem bumpN_cmd (b i n : Nat) : (bumpN s b i n).cmd = s.cmd := rfl
@[simp] theorem bumpN_mem (b i n : Nat) : (bumpN s b i n).mem = s.mem := rfl
@[simp] theorem bumpN_kst (b i n : Nat) : (bumpN s b i n).kst = s.kst := rfl
@[simp] theorem bumpN_cph (b i n : Nat) : (bumpN s b i n).cph = s.cph := rfl
@[simp] theorem bumpN_bdy (b i n : Nat) : (bumpN s b i n).bdy = s.bdy := rfl
@[simp] theorem bumpN_bnd (b i n : Nat) : (bumpN s b i n).bnd = s.bnd := rfl

@[simp] theorem clearCounters_pending (b : Nat) : (clearCounters s b).pending = s.pending := rfl
@[simp] theorem clearCounters_free (b : Nat) : (clearCounters s b).free = s.free := rfl
@[simp] theorem clearCounters_regs (b : Nat) : (clearCounters s b).regs = s.regs := rfl
@[simp] theorem clearCounters_splitLatch (b : Nat) : (clearCounters s b).splitLatch = s.splitLatch := rfl
@[simp] theorem clearCounters_hostRead (b : Nat) : (clearCounters s b).hostRead = s.hostRead := rfl
@[simp] theorem clearCounters_tck (b : Nat) : (clearCounters s b).tck = s.tck := rfl
@[simp] theorem clearCounters_pwr (b : Nat) : (clearCounters s b).pwr = s.pwr := rfl
@[simp] theorem clearCounters_bays (b : Nat) : (clearCounters s b).bays = s.bays := rfl
@[simp] theorem clearCounters_ports (b : Nat) : (clearCounters s b).ports = s.ports := rfl
@[simp] theorem clearCounters_bfes (b : Nat) : (clearCounters s b).bfes = s.bfes := rfl
@[simp] theorem clearCounters_spn (b : Nat) : (clearCounters s b).spn = s.spn := rfl
@[simp] theorem clearCounters_out (b : Nat) : (clearCounters s b).out = s.out := rfl
@[simp] theorem clearCounters_cells (b : Nat) : (clearCounters s b).cells = s.cells := rfl
@[simp] theorem clearCounters_units (b : Nat) : (clearCounters s b).units = s.units := rfl
@[simp] theorem clearCounters_bus (b : Nat) : (clearCounters s b).bus = s.bus := rfl
@[simp] theorem clearCounters_axes (b : Nat) : (clearCounters s b).axes = s.axes := rfl
@[simp] theorem clearCounters_rdc (b : Nat) : (clearCounters s b).rdc = s.rdc := rfl
@[simp] theorem clearCounters_wrc (b : Nat) : (clearCounters s b).wrc = s.wrc := rfl
@[simp] theorem clearCounters_cal (b : Nat) : (clearCounters s b).cal = s.cal := rfl
@[simp] theorem clearCounters_qre (b : Nat) : (clearCounters s b).qre = s.qre := rfl
@[simp] theorem clearCounters_hiu (b : Nat) : (clearCounters s b).hiu = s.hiu := rfl
@[simp] theorem clearCounters_cmd (b : Nat) : (clearCounters s b).cmd = s.cmd := rfl
@[simp] theorem clearCounters_mem (b : Nat) : (clearCounters s b).mem = s.mem := rfl
@[simp] theorem clearCounters_kst (b : Nat) : (clearCounters s b).kst = s.kst := rfl
@[simp] theorem clearCounters_cph (b : Nat) : (clearCounters s b).cph = s.cph := rfl
@[simp] theorem clearCounters_bdy (b : Nat) : (clearCounters s b).bdy = s.bdy := rfl
@[simp] theorem clearCounters_bnd (b : Nat) : (clearCounters s b).bnd = s.bnd := rfl

@[simp] theorem drawn_pending : (drawn s).pending = s.pending := rfl
@[simp] theorem drawn_regs : (drawn s).regs = s.regs := rfl
@[simp] theorem drawn_splitLatch : (drawn s).splitLatch = s.splitLatch := rfl
@[simp] theorem drawn_hostRead : (drawn s).hostRead = s.hostRead := rfl
@[simp] theorem drawn_cnt : (drawn s).cnt = s.cnt := rfl
@[simp] theorem drawn_tck : (drawn s).tck = s.tck := rfl
@[simp] theorem drawn_pwr : (drawn s).pwr = s.pwr := rfl
@[simp] theorem drawn_bays : (drawn s).bays = s.bays := rfl
@[simp] theorem drawn_ports : (drawn s).ports = s.ports := rfl
@[simp] theorem drawn_bfes : (drawn s).bfes = s.bfes := rfl
@[simp] theorem drawn_spn : (drawn s).spn = s.spn := rfl
@[simp] theorem drawn_out : (drawn s).out = s.out := rfl
@[simp] theorem drawn_cells : (drawn s).cells = s.cells := rfl
@[simp] theorem drawn_units : (drawn s).units = s.units := rfl
@[simp] theorem drawn_bus : (drawn s).bus = s.bus := rfl
@[simp] theorem drawn_axes : (drawn s).axes = s.axes := rfl
@[simp] theorem drawn_rdc : (drawn s).rdc = s.rdc := rfl
@[simp] theorem drawn_wrc : (drawn s).wrc = s.wrc := rfl
@[simp] theorem drawn_cal : (drawn s).cal = s.cal := rfl
@[simp] theorem drawn_qre : (drawn s).qre = s.qre := rfl
@[simp] theorem drawn_hiu : (drawn s).hiu = s.hiu := rfl
@[simp] theorem drawn_cmd : (drawn s).cmd = s.cmd := rfl
@[simp] theorem drawn_mem : (drawn s).mem = s.mem := rfl
@[simp] theorem drawn_kst : (drawn s).kst = s.kst := rfl
@[simp] theorem drawn_cph : (drawn s).cph = s.cph := rfl
@[simp] theorem drawn_bdy : (drawn s).bdy = s.bdy := rfl
@[simp] theorem drawn_bnd : (drawn s).bnd = s.bnd := rfl

@[simp] theorem event_pending (c k v b o : Nat) (d : List Nat) : (event s c k v b o d).pending = s.pending := rfl
@[simp] theorem event_free (c k v b o : Nat) (d : List Nat) : (event s c k v b o d).free = s.free := rfl
@[simp] theorem event_regs (c k v b o : Nat) (d : List Nat) : (event s c k v b o d).regs = s.regs := rfl
@[simp] theorem event_splitLatch (c k v b o : Nat) (d : List Nat) : (event s c k v b o d).splitLatch = s.splitLatch := rfl
@[simp] theorem event_hostRead (c k v b o : Nat) (d : List Nat) : (event s c k v b o d).hostRead = s.hostRead := rfl
@[simp] theorem event_cnt (c k v b o : Nat) (d : List Nat) : (event s c k v b o d).cnt = s.cnt := rfl
@[simp] theorem event_tck (c k v b o : Nat) (d : List Nat) : (event s c k v b o d).tck = s.tck := rfl
@[simp] theorem event_pwr (c k v b o : Nat) (d : List Nat) : (event s c k v b o d).pwr = s.pwr := rfl
@[simp] theorem event_bays (c k v b o : Nat) (d : List Nat) : (event s c k v b o d).bays = s.bays := rfl
@[simp] theorem event_ports (c k v b o : Nat) (d : List Nat) : (event s c k v b o d).ports = s.ports := rfl
@[simp] theorem event_bfes (c k v b o : Nat) (d : List Nat) : (event s c k v b o d).bfes = s.bfes := rfl
@[simp] theorem event_spn (c k v b o : Nat) (d : List Nat) : (event s c k v b o d).spn = s.spn := rfl
@[simp] theorem event_out (c k v b o : Nat) (d : List Nat) : (event s c k v b o d).out = s.out := rfl
@[simp] theorem event_cells (c k v b o : Nat) (d : List Nat) : (event s c k v b o d).cells = s.cells := rfl
@[simp] theorem event_units (c k v b o : Nat) (d : List Nat) : (event s c k v b o d).units = s.units := rfl
@[simp] theorem event_bus (c k v b o : Nat) (d : List Nat) : (event s c k v b o d).bus = s.bus := rfl
@[simp] theorem event_axes (c k v b o : Nat) (d : List Nat) : (event s c k v b o d).axes = s.axes := rfl
@[simp] theorem event_rdc (c k v b o : Nat) (d : List Nat) : (event s c k v b o d).rdc = s.rdc := rfl
@[simp] theorem event_wrc (c k v b o : Nat) (d : List Nat) : (event s c k v b o d).wrc = s.wrc := rfl
@[simp] theorem event_cal (c k v b o : Nat) (d : List Nat) : (event s c k v b o d).cal = s.cal := rfl
@[simp] theorem event_qre (c k v b o : Nat) (d : List Nat) : (event s c k v b o d).qre = s.qre := rfl
@[simp] theorem event_hiu (c k v b o : Nat) (d : List Nat) : (event s c k v b o d).hiu = s.hiu := rfl
@[simp] theorem event_cmd (c k v b o : Nat) (d : List Nat) : (event s c k v b o d).cmd = s.cmd := rfl
@[simp] theorem event_mem (c k v b o : Nat) (d : List Nat) : (event s c k v b o d).mem = s.mem := rfl
@[simp] theorem event_kst (c k v b o : Nat) (d : List Nat) : (event s c k v b o d).kst = s.kst := rfl
@[simp] theorem event_cph (c k v b o : Nat) (d : List Nat) : (event s c k v b o d).cph = s.cph := rfl
@[simp] theorem event_bnd (c k v b o : Nat) (d : List Nat) : (event s c k v b o d).bnd = s.bnd := rfl

@[simp] theorem countEvent_pending (c k v b o : Nat) (d : List Nat) : (countEvent s c k v b o d).pending = s.pending := rfl
@[simp] theorem countEvent_free (c k v b o : Nat) (d : List Nat) : (countEvent s c k v b o d).free = s.free := rfl
@[simp] theorem countEvent_regs (c k v b o : Nat) (d : List Nat) : (countEvent s c k v b o d).regs = s.regs := rfl
@[simp] theorem countEvent_splitLatch (c k v b o : Nat) (d : List Nat) : (countEvent s c k v b o d).splitLatch = s.splitLatch := rfl
@[simp] theorem countEvent_hostRead (c k v b o : Nat) (d : List Nat) : (countEvent s c k v b o d).hostRead = s.hostRead := rfl
@[simp] theorem countEvent_tck (c k v b o : Nat) (d : List Nat) : (countEvent s c k v b o d).tck = s.tck := rfl
@[simp] theorem countEvent_pwr (c k v b o : Nat) (d : List Nat) : (countEvent s c k v b o d).pwr = s.pwr := rfl
@[simp] theorem countEvent_bays (c k v b o : Nat) (d : List Nat) : (countEvent s c k v b o d).bays = s.bays := rfl
@[simp] theorem countEvent_ports (c k v b o : Nat) (d : List Nat) : (countEvent s c k v b o d).ports = s.ports := rfl
@[simp] theorem countEvent_bfes (c k v b o : Nat) (d : List Nat) : (countEvent s c k v b o d).bfes = s.bfes := rfl
@[simp] theorem countEvent_spn (c k v b o : Nat) (d : List Nat) : (countEvent s c k v b o d).spn = s.spn := rfl
@[simp] theorem countEvent_out (c k v b o : Nat) (d : List Nat) : (countEvent s c k v b o d).out = s.out := rfl
@[simp] theorem countEvent_cells (c k v b o : Nat) (d : List Nat) : (countEvent s c k v b o d).cells = s.cells := rfl
@[simp] theorem countEvent_units (c k v b o : Nat) (d : List Nat) : (countEvent s c k v b o d).units = s.units := rfl
@[simp] theorem countEvent_bus (c k v b o : Nat) (d : List Nat) : (countEvent s c k v b o d).bus = s.bus := rfl
@[simp] theorem countEvent_axes (c k v b o : Nat) (d : List Nat) : (countEvent s c k v b o d).axes = s.axes := rfl
@[simp] theorem countEvent_rdc (c k v b o : Nat) (d : List Nat) : (countEvent s c k v b o d).rdc = s.rdc := rfl
@[simp] theorem countEvent_wrc (c k v b o : Nat) (d : List Nat) : (countEvent s c k v b o d).wrc = s.wrc := rfl
@[simp] theorem countEvent_cal (c k v b o : Nat) (d : List Nat) : (countEvent s c k v b o d).cal = s.cal := rfl
@[simp] theorem countEvent_qre (c k v b o : Nat) (d : List Nat) : (countEvent s c k v b o d).qre = s.qre := rfl
@[simp] theorem countEvent_hiu (c k v b o : Nat) (d : List Nat) : (countEvent s c k v b o d).hiu = s.hiu := rfl
@[simp] theorem countEvent_cmd (c k v b o : Nat) (d : List Nat) : (countEvent s c k v b o d).cmd = s.cmd := rfl
@[simp] theorem countEvent_mem (c k v b o : Nat) (d : List Nat) : (countEvent s c k v b o d).mem = s.mem := rfl
@[simp] theorem countEvent_kst (c k v b o : Nat) (d : List Nat) : (countEvent s c k v b o d).kst = s.kst := rfl
@[simp] theorem countEvent_cph (c k v b o : Nat) (d : List Nat) : (countEvent s c k v b o d).cph = s.cph := rfl
@[simp] theorem countEvent_bnd (c k v b o : Nat) (d : List Nat) : (countEvent s c k v b o d).bnd = s.bnd := rfl

@[simp] theorem cellAt_setCell (n m : Nat) (x : Cell) : cellAt (setCell s n x) m = if n = m then x else cellAt s m := getD_put _ _ _ _ _
@[simp] theorem unitAt_setUnit (n m : Nat) (x : Unit) : unitAt (setUnit s n x) m = if n = m then x else unitAt s m := getD_put _ _ _ _ _
@[simp] theorem axisAt_setAxis (n m : Nat) (x : Axis) : axisAt (setAxis s n x) m = if n = m then x else axisAt s m := getD_put _ _ _ _ _
@[simp] theorem portAt_setPort (n m : Nat) (x : Port) : portAt (setPort s n x) m = if n = m then x else portAt s m := getD_put _ _ _ _ _
@[simp] theorem bfeAt_setBfe (n m : Nat) (x : Bfe) : bfeAt (setBfe s n x) m = if n = m then x else bfeAt s m := getD_put _ _ _ _ _
@[simp] theorem pairAt_setPair (n m : Nat) (x : PairBay) : pairAt (setPair s n x) m = if n = m then x else pairAt s m := getD_put _ _ _ _ _
@[simp] theorem chanAt_setChan (n m : Nat) (x : Chan) : chanAt (setChan s n x) m = if n = m then x else chanAt s m := getD_put _ _ _ _ _
@[simp] theorem opuAt_setOpu (n m : Nat) (x : OpuW) : opuAt (setOpu s n x) m = if n = m then x else opuAt s m := getD_put _ _ _ _ _
@[simp] theorem ctrlAt_setCtrl (n m : Nat) (x : Ctrl) : ctrlAt (setCtrl s n x) m = if n = m then x else ctrlAt s m := getD_put _ _ _ _ _
@[simp] theorem bayAt_setBay (n m : Nat) (x : Bay) :
    bayAt (setBay s n x) m = if n = m then stampBay s.tck.count (bayAt s n) x else bayAt s m := getD_put _ _ _ _ _
@[simp] theorem counter_bump (b i c j : Nat) :
    counter (bump s b i) c j = if b * 32 + i = c * 32 + j then counter s b i + 1 else counter s c j := getD_put _ _ _ _ _
@[simp] theorem counter_bumpN (b i n c j : Nat) :
    counter (bumpN s b i n) c j = if b * 32 + i = c * 32 + j then counter s b i + BitVec.ofNat 64 n else counter s c j := getD_put _ _ _ _ _

@[simp] theorem cellAt_setUnit (n : Nat) (u : Unit) (j : Nat) : cellAt (setUnit s n u) j = cellAt s j := rfl
@[simp] theorem cellAt_setAxis (n : Nat) (a : Axis) (j : Nat) : cellAt (setAxis s n a) j = cellAt s j := rfl
@[simp] theorem cellAt_setBay (n : Nat) (b : Bay) (j : Nat) : cellAt (setBay s n b) j = cellAt s j := rfl
@[simp] theorem cellAt_setPort (n : Nat) (p : Port) (j : Nat) : cellAt (setPort s n p) j = cellAt s j := rfl
@[simp] theorem cellAt_setBfe (n : Nat) (b : Bfe) (j : Nat) : cellAt (setBfe s n b) j = cellAt s j := rfl
@[simp] theorem cellAt_setPair (n : Nat) (p : PairBay) (j : Nat) : cellAt (setPair s n p) j = cellAt s j := rfl
@[simp] theorem cellAt_setChan (n : Nat) (c : Chan) (j : Nat) : cellAt (setChan s n c) j = cellAt s j := rfl
@[simp] theorem cellAt_setOpu (n : Nat) (o : OpuW) (j : Nat) : cellAt (setOpu s n o) j = cellAt s j := rfl
@[simp] theorem cellAt_setCtrl (n : Nat) (c : Ctrl) (j : Nat) : cellAt (setCtrl s n c) j = cellAt s j := rfl
@[simp] theorem cellAt_bump (b i : Nat) (j : Nat) : cellAt (bump s b i) j = cellAt s j := rfl
@[simp] theorem cellAt_bumpN (b i n : Nat) (j : Nat) : cellAt (bumpN s b i n) j = cellAt s j := rfl
@[simp] theorem cellAt_clearCounters (b : Nat) (j : Nat) : cellAt (clearCounters s b) j = cellAt s j := rfl
@[simp] theorem cellAt_drawn (j : Nat) : cellAt (drawn s) j = cellAt s j := rfl
@[simp] theorem cellAt_event (c k v b o : Nat) (d : List Nat) (j : Nat) : cellAt (event s c k v b o d) j = cellAt s j := rfl
@[simp] theorem cellAt_countEvent (c k v b o : Nat) (d : List Nat) (j : Nat) : cellAt (countEvent s c k v b o d) j = cellAt s j := rfl
@[simp] theorem unitAt_setCell (n : Nat) (c : Cell) (j : Nat) : unitAt (setCell s n c) j = unitAt s j := rfl
@[simp] theorem unitAt_setAxis (n : Nat) (a : Axis) (j : Nat) : unitAt (setAxis s n a) j = unitAt s j := rfl
@[simp] theorem unitAt_setBay (n : Nat) (b : Bay) (j : Nat) : unitAt (setBay s n b) j = unitAt s j := rfl
@[simp] theorem unitAt_setPort (n : Nat) (p : Port) (j : Nat) : unitAt (setPort s n p) j = unitAt s j := rfl
@[simp] theorem unitAt_setBfe (n : Nat) (b : Bfe) (j : Nat) : unitAt (setBfe s n b) j = unitAt s j := rfl
@[simp] theorem unitAt_setPair (n : Nat) (p : PairBay) (j : Nat) : unitAt (setPair s n p) j = unitAt s j := rfl
@[simp] theorem unitAt_setChan (n : Nat) (c : Chan) (j : Nat) : unitAt (setChan s n c) j = unitAt s j := rfl
@[simp] theorem unitAt_setOpu (n : Nat) (o : OpuW) (j : Nat) : unitAt (setOpu s n o) j = unitAt s j := rfl
@[simp] theorem unitAt_setCtrl (n : Nat) (c : Ctrl) (j : Nat) : unitAt (setCtrl s n c) j = unitAt s j := rfl
@[simp] theorem unitAt_bump (b i : Nat) (j : Nat) : unitAt (bump s b i) j = unitAt s j := rfl
@[simp] theorem unitAt_bumpN (b i n : Nat) (j : Nat) : unitAt (bumpN s b i n) j = unitAt s j := rfl
@[simp] theorem unitAt_clearCounters (b : Nat) (j : Nat) : unitAt (clearCounters s b) j = unitAt s j := rfl
@[simp] theorem unitAt_drawn (j : Nat) : unitAt (drawn s) j = unitAt s j := rfl
@[simp] theorem unitAt_event (c k v b o : Nat) (d : List Nat) (j : Nat) : unitAt (event s c k v b o d) j = unitAt s j := rfl
@[simp] theorem unitAt_countEvent (c k v b o : Nat) (d : List Nat) (j : Nat) : unitAt (countEvent s c k v b o d) j = unitAt s j := rfl
@[simp] theorem axisAt_setCell (n : Nat) (c : Cell) (j : Nat) : axisAt (setCell s n c) j = axisAt s j := rfl
@[simp] theorem axisAt_setUnit (n : Nat) (u : Unit) (j : Nat) : axisAt (setUnit s n u) j = axisAt s j := rfl
@[simp] theorem axisAt_setBay (n : Nat) (b : Bay) (j : Nat) : axisAt (setBay s n b) j = axisAt s j := rfl
@[simp] theorem axisAt_setPort (n : Nat) (p : Port) (j : Nat) : axisAt (setPort s n p) j = axisAt s j := rfl
@[simp] theorem axisAt_setBfe (n : Nat) (b : Bfe) (j : Nat) : axisAt (setBfe s n b) j = axisAt s j := rfl
@[simp] theorem axisAt_setPair (n : Nat) (p : PairBay) (j : Nat) : axisAt (setPair s n p) j = axisAt s j := rfl
@[simp] theorem axisAt_setChan (n : Nat) (c : Chan) (j : Nat) : axisAt (setChan s n c) j = axisAt s j := rfl
@[simp] theorem axisAt_setOpu (n : Nat) (o : OpuW) (j : Nat) : axisAt (setOpu s n o) j = axisAt s j := rfl
@[simp] theorem axisAt_setCtrl (n : Nat) (c : Ctrl) (j : Nat) : axisAt (setCtrl s n c) j = axisAt s j := rfl
@[simp] theorem axisAt_bump (b i : Nat) (j : Nat) : axisAt (bump s b i) j = axisAt s j := rfl
@[simp] theorem axisAt_bumpN (b i n : Nat) (j : Nat) : axisAt (bumpN s b i n) j = axisAt s j := rfl
@[simp] theorem axisAt_clearCounters (b : Nat) (j : Nat) : axisAt (clearCounters s b) j = axisAt s j := rfl
@[simp] theorem axisAt_drawn (j : Nat) : axisAt (drawn s) j = axisAt s j := rfl
@[simp] theorem axisAt_event (c k v b o : Nat) (d : List Nat) (j : Nat) : axisAt (event s c k v b o d) j = axisAt s j := rfl
@[simp] theorem axisAt_countEvent (c k v b o : Nat) (d : List Nat) (j : Nat) : axisAt (countEvent s c k v b o d) j = axisAt s j := rfl
@[simp] theorem portAt_setCell (n : Nat) (c : Cell) (j : Nat) : portAt (setCell s n c) j = portAt s j := rfl
@[simp] theorem portAt_setUnit (n : Nat) (u : Unit) (j : Nat) : portAt (setUnit s n u) j = portAt s j := rfl
@[simp] theorem portAt_setAxis (n : Nat) (a : Axis) (j : Nat) : portAt (setAxis s n a) j = portAt s j := rfl
@[simp] theorem portAt_setBay (n : Nat) (b : Bay) (j : Nat) : portAt (setBay s n b) j = portAt s j := rfl
@[simp] theorem portAt_setBfe (n : Nat) (b : Bfe) (j : Nat) : portAt (setBfe s n b) j = portAt s j := rfl
@[simp] theorem portAt_setPair (n : Nat) (p : PairBay) (j : Nat) : portAt (setPair s n p) j = portAt s j := rfl
@[simp] theorem portAt_setChan (n : Nat) (c : Chan) (j : Nat) : portAt (setChan s n c) j = portAt s j := rfl
@[simp] theorem portAt_setOpu (n : Nat) (o : OpuW) (j : Nat) : portAt (setOpu s n o) j = portAt s j := rfl
@[simp] theorem portAt_setCtrl (n : Nat) (c : Ctrl) (j : Nat) : portAt (setCtrl s n c) j = portAt s j := rfl
@[simp] theorem portAt_bump (b i : Nat) (j : Nat) : portAt (bump s b i) j = portAt s j := rfl
@[simp] theorem portAt_bumpN (b i n : Nat) (j : Nat) : portAt (bumpN s b i n) j = portAt s j := rfl
@[simp] theorem portAt_clearCounters (b : Nat) (j : Nat) : portAt (clearCounters s b) j = portAt s j := rfl
@[simp] theorem portAt_drawn (j : Nat) : portAt (drawn s) j = portAt s j := rfl
@[simp] theorem portAt_event (c k v b o : Nat) (d : List Nat) (j : Nat) : portAt (event s c k v b o d) j = portAt s j := rfl
@[simp] theorem portAt_countEvent (c k v b o : Nat) (d : List Nat) (j : Nat) : portAt (countEvent s c k v b o d) j = portAt s j := rfl
@[simp] theorem bfeAt_setCell (n : Nat) (c : Cell) (j : Nat) : bfeAt (setCell s n c) j = bfeAt s j := rfl
@[simp] theorem bfeAt_setUnit (n : Nat) (u : Unit) (j : Nat) : bfeAt (setUnit s n u) j = bfeAt s j := rfl
@[simp] theorem bfeAt_setAxis (n : Nat) (a : Axis) (j : Nat) : bfeAt (setAxis s n a) j = bfeAt s j := rfl
@[simp] theorem bfeAt_setBay (n : Nat) (b : Bay) (j : Nat) : bfeAt (setBay s n b) j = bfeAt s j := rfl
@[simp] theorem bfeAt_setPort (n : Nat) (p : Port) (j : Nat) : bfeAt (setPort s n p) j = bfeAt s j := rfl
@[simp] theorem bfeAt_setPair (n : Nat) (p : PairBay) (j : Nat) : bfeAt (setPair s n p) j = bfeAt s j := rfl
@[simp] theorem bfeAt_setChan (n : Nat) (c : Chan) (j : Nat) : bfeAt (setChan s n c) j = bfeAt s j := rfl
@[simp] theorem bfeAt_setOpu (n : Nat) (o : OpuW) (j : Nat) : bfeAt (setOpu s n o) j = bfeAt s j := rfl
@[simp] theorem bfeAt_setCtrl (n : Nat) (c : Ctrl) (j : Nat) : bfeAt (setCtrl s n c) j = bfeAt s j := rfl
@[simp] theorem bfeAt_bump (b i : Nat) (j : Nat) : bfeAt (bump s b i) j = bfeAt s j := rfl
@[simp] theorem bfeAt_bumpN (b i n : Nat) (j : Nat) : bfeAt (bumpN s b i n) j = bfeAt s j := rfl
@[simp] theorem bfeAt_clearCounters (b : Nat) (j : Nat) : bfeAt (clearCounters s b) j = bfeAt s j := rfl
@[simp] theorem bfeAt_drawn (j : Nat) : bfeAt (drawn s) j = bfeAt s j := rfl
@[simp] theorem bfeAt_event (c k v b o : Nat) (d : List Nat) (j : Nat) : bfeAt (event s c k v b o d) j = bfeAt s j := rfl
@[simp] theorem bfeAt_countEvent (c k v b o : Nat) (d : List Nat) (j : Nat) : bfeAt (countEvent s c k v b o d) j = bfeAt s j := rfl
@[simp] theorem pairAt_setCell (n : Nat) (c : Cell) (j : Nat) : pairAt (setCell s n c) j = pairAt s j := rfl
@[simp] theorem pairAt_setUnit (n : Nat) (u : Unit) (j : Nat) : pairAt (setUnit s n u) j = pairAt s j := rfl
@[simp] theorem pairAt_setAxis (n : Nat) (a : Axis) (j : Nat) : pairAt (setAxis s n a) j = pairAt s j := rfl
@[simp] theorem pairAt_setBay (n : Nat) (b : Bay) (j : Nat) : pairAt (setBay s n b) j = pairAt s j := rfl
@[simp] theorem pairAt_setPort (n : Nat) (p : Port) (j : Nat) : pairAt (setPort s n p) j = pairAt s j := rfl
@[simp] theorem pairAt_setBfe (n : Nat) (b : Bfe) (j : Nat) : pairAt (setBfe s n b) j = pairAt s j := rfl
@[simp] theorem pairAt_setChan (n : Nat) (c : Chan) (j : Nat) : pairAt (setChan s n c) j = pairAt s j := rfl
@[simp] theorem pairAt_setOpu (n : Nat) (o : OpuW) (j : Nat) : pairAt (setOpu s n o) j = pairAt s j := rfl
@[simp] theorem pairAt_setCtrl (n : Nat) (c : Ctrl) (j : Nat) : pairAt (setCtrl s n c) j = pairAt s j := rfl
@[simp] theorem pairAt_bump (b i : Nat) (j : Nat) : pairAt (bump s b i) j = pairAt s j := rfl
@[simp] theorem pairAt_bumpN (b i n : Nat) (j : Nat) : pairAt (bumpN s b i n) j = pairAt s j := rfl
@[simp] theorem pairAt_clearCounters (b : Nat) (j : Nat) : pairAt (clearCounters s b) j = pairAt s j := rfl
@[simp] theorem pairAt_drawn (j : Nat) : pairAt (drawn s) j = pairAt s j := rfl
@[simp] theorem pairAt_event (c k v b o : Nat) (d : List Nat) (j : Nat) : pairAt (event s c k v b o d) j = pairAt s j := rfl
@[simp] theorem pairAt_countEvent (c k v b o : Nat) (d : List Nat) (j : Nat) : pairAt (countEvent s c k v b o d) j = pairAt s j := rfl
@[simp] theorem chanAt_setCell (n : Nat) (c : Cell) (j : Nat) : chanAt (setCell s n c) j = chanAt s j := rfl
@[simp] theorem chanAt_setUnit (n : Nat) (u : Unit) (j : Nat) : chanAt (setUnit s n u) j = chanAt s j := rfl
@[simp] theorem chanAt_setAxis (n : Nat) (a : Axis) (j : Nat) : chanAt (setAxis s n a) j = chanAt s j := rfl
@[simp] theorem chanAt_setBay (n : Nat) (b : Bay) (j : Nat) : chanAt (setBay s n b) j = chanAt s j := rfl
@[simp] theorem chanAt_setPort (n : Nat) (p : Port) (j : Nat) : chanAt (setPort s n p) j = chanAt s j := rfl
@[simp] theorem chanAt_setBfe (n : Nat) (b : Bfe) (j : Nat) : chanAt (setBfe s n b) j = chanAt s j := rfl
@[simp] theorem chanAt_setPair (n : Nat) (p : PairBay) (j : Nat) : chanAt (setPair s n p) j = chanAt s j := rfl
@[simp] theorem chanAt_setOpu (n : Nat) (o : OpuW) (j : Nat) : chanAt (setOpu s n o) j = chanAt s j := rfl
@[simp] theorem chanAt_setCtrl (n : Nat) (c : Ctrl) (j : Nat) : chanAt (setCtrl s n c) j = chanAt s j := rfl
@[simp] theorem chanAt_bump (b i : Nat) (j : Nat) : chanAt (bump s b i) j = chanAt s j := rfl
@[simp] theorem chanAt_bumpN (b i n : Nat) (j : Nat) : chanAt (bumpN s b i n) j = chanAt s j := rfl
@[simp] theorem chanAt_clearCounters (b : Nat) (j : Nat) : chanAt (clearCounters s b) j = chanAt s j := rfl
@[simp] theorem chanAt_drawn (j : Nat) : chanAt (drawn s) j = chanAt s j := rfl
@[simp] theorem chanAt_event (c k v b o : Nat) (d : List Nat) (j : Nat) : chanAt (event s c k v b o d) j = chanAt s j := rfl
@[simp] theorem chanAt_countEvent (c k v b o : Nat) (d : List Nat) (j : Nat) : chanAt (countEvent s c k v b o d) j = chanAt s j := rfl
@[simp] theorem opuAt_setCell (n : Nat) (c : Cell) (j : Nat) : opuAt (setCell s n c) j = opuAt s j := rfl
@[simp] theorem opuAt_setUnit (n : Nat) (u : Unit) (j : Nat) : opuAt (setUnit s n u) j = opuAt s j := rfl
@[simp] theorem opuAt_setAxis (n : Nat) (a : Axis) (j : Nat) : opuAt (setAxis s n a) j = opuAt s j := rfl
@[simp] theorem opuAt_setBay (n : Nat) (b : Bay) (j : Nat) : opuAt (setBay s n b) j = opuAt s j := rfl
@[simp] theorem opuAt_setPort (n : Nat) (p : Port) (j : Nat) : opuAt (setPort s n p) j = opuAt s j := rfl
@[simp] theorem opuAt_setBfe (n : Nat) (b : Bfe) (j : Nat) : opuAt (setBfe s n b) j = opuAt s j := rfl
@[simp] theorem opuAt_setPair (n : Nat) (p : PairBay) (j : Nat) : opuAt (setPair s n p) j = opuAt s j := rfl
@[simp] theorem opuAt_setChan (n : Nat) (c : Chan) (j : Nat) : opuAt (setChan s n c) j = opuAt s j := rfl
@[simp] theorem opuAt_setCtrl (n : Nat) (c : Ctrl) (j : Nat) : opuAt (setCtrl s n c) j = opuAt s j := rfl
@[simp] theorem opuAt_bump (b i : Nat) (j : Nat) : opuAt (bump s b i) j = opuAt s j := rfl
@[simp] theorem opuAt_bumpN (b i n : Nat) (j : Nat) : opuAt (bumpN s b i n) j = opuAt s j := rfl
@[simp] theorem opuAt_clearCounters (b : Nat) (j : Nat) : opuAt (clearCounters s b) j = opuAt s j := rfl
@[simp] theorem opuAt_drawn (j : Nat) : opuAt (drawn s) j = opuAt s j := rfl
@[simp] theorem opuAt_event (c k v b o : Nat) (d : List Nat) (j : Nat) : opuAt (event s c k v b o d) j = opuAt s j := rfl
@[simp] theorem opuAt_countEvent (c k v b o : Nat) (d : List Nat) (j : Nat) : opuAt (countEvent s c k v b o d) j = opuAt s j := rfl
@[simp] theorem ctrlAt_setCell (n : Nat) (c : Cell) (j : Nat) : ctrlAt (setCell s n c) j = ctrlAt s j := rfl
@[simp] theorem ctrlAt_setUnit (n : Nat) (u : Unit) (j : Nat) : ctrlAt (setUnit s n u) j = ctrlAt s j := rfl
@[simp] theorem ctrlAt_setAxis (n : Nat) (a : Axis) (j : Nat) : ctrlAt (setAxis s n a) j = ctrlAt s j := rfl
@[simp] theorem ctrlAt_setBay (n : Nat) (b : Bay) (j : Nat) : ctrlAt (setBay s n b) j = ctrlAt s j := rfl
@[simp] theorem ctrlAt_setPort (n : Nat) (p : Port) (j : Nat) : ctrlAt (setPort s n p) j = ctrlAt s j := rfl
@[simp] theorem ctrlAt_setBfe (n : Nat) (b : Bfe) (j : Nat) : ctrlAt (setBfe s n b) j = ctrlAt s j := rfl
@[simp] theorem ctrlAt_setPair (n : Nat) (p : PairBay) (j : Nat) : ctrlAt (setPair s n p) j = ctrlAt s j := rfl
@[simp] theorem ctrlAt_setChan (n : Nat) (c : Chan) (j : Nat) : ctrlAt (setChan s n c) j = ctrlAt s j := rfl
@[simp] theorem ctrlAt_setOpu (n : Nat) (o : OpuW) (j : Nat) : ctrlAt (setOpu s n o) j = ctrlAt s j := rfl
@[simp] theorem ctrlAt_bump (b i : Nat) (j : Nat) : ctrlAt (bump s b i) j = ctrlAt s j := rfl
@[simp] theorem ctrlAt_bumpN (b i n : Nat) (j : Nat) : ctrlAt (bumpN s b i n) j = ctrlAt s j := rfl
@[simp] theorem ctrlAt_clearCounters (b : Nat) (j : Nat) : ctrlAt (clearCounters s b) j = ctrlAt s j := rfl
@[simp] theorem ctrlAt_drawn (j : Nat) : ctrlAt (drawn s) j = ctrlAt s j := rfl
@[simp] theorem ctrlAt_event (c k v b o : Nat) (d : List Nat) (j : Nat) : ctrlAt (event s c k v b o d) j = ctrlAt s j := rfl
@[simp] theorem ctrlAt_countEvent (c k v b o : Nat) (d : List Nat) (j : Nat) : ctrlAt (countEvent s c k v b o d) j = ctrlAt s j := rfl
@[simp] theorem bayAt_setCell (n : Nat) (c : Cell) (j : Nat) : bayAt (setCell s n c) j = bayAt s j := rfl
@[simp] theorem bayAt_setUnit (n : Nat) (u : Unit) (j : Nat) : bayAt (setUnit s n u) j = bayAt s j := rfl
@[simp] theorem bayAt_setAxis (n : Nat) (a : Axis) (j : Nat) : bayAt (setAxis s n a) j = bayAt s j := rfl
@[simp] theorem bayAt_setPort (n : Nat) (p : Port) (j : Nat) : bayAt (setPort s n p) j = bayAt s j := rfl
@[simp] theorem bayAt_setBfe (n : Nat) (b : Bfe) (j : Nat) : bayAt (setBfe s n b) j = bayAt s j := rfl
@[simp] theorem bayAt_setPair (n : Nat) (p : PairBay) (j : Nat) : bayAt (setPair s n p) j = bayAt s j := rfl
@[simp] theorem bayAt_setChan (n : Nat) (c : Chan) (j : Nat) : bayAt (setChan s n c) j = bayAt s j := rfl
@[simp] theorem bayAt_setOpu (n : Nat) (o : OpuW) (j : Nat) : bayAt (setOpu s n o) j = bayAt s j := rfl
@[simp] theorem bayAt_setCtrl (n : Nat) (c : Ctrl) (j : Nat) : bayAt (setCtrl s n c) j = bayAt s j := rfl
@[simp] theorem bayAt_bump (b i : Nat) (j : Nat) : bayAt (bump s b i) j = bayAt s j := rfl
@[simp] theorem bayAt_bumpN (b i n : Nat) (j : Nat) : bayAt (bumpN s b i n) j = bayAt s j := rfl
@[simp] theorem bayAt_clearCounters (b : Nat) (j : Nat) : bayAt (clearCounters s b) j = bayAt s j := rfl
@[simp] theorem bayAt_drawn (j : Nat) : bayAt (drawn s) j = bayAt s j := rfl
@[simp] theorem bayAt_event (c k v b o : Nat) (d : List Nat) (j : Nat) : bayAt (event s c k v b o d) j = bayAt s j := rfl
@[simp] theorem bayAt_countEvent (c k v b o : Nat) (d : List Nat) (j : Nat) : bayAt (countEvent s c k v b o d) j = bayAt s j := rfl

@[simp] theorem counter_setCell (n : Nat) (c : Cell) (i j : Nat) : counter (setCell s n c) i j = counter s i j := rfl
@[simp] theorem counter_setUnit (n : Nat) (u : Unit) (i j : Nat) : counter (setUnit s n u) i j = counter s i j := rfl
@[simp] theorem counter_setAxis (n : Nat) (a : Axis) (i j : Nat) : counter (setAxis s n a) i j = counter s i j := rfl
@[simp] theorem counter_setBay (n : Nat) (b : Bay) (i j : Nat) : counter (setBay s n b) i j = counter s i j := rfl
@[simp] theorem counter_setPort (n : Nat) (p : Port) (i j : Nat) : counter (setPort s n p) i j = counter s i j := rfl
@[simp] theorem counter_setBfe (n : Nat) (b : Bfe) (i j : Nat) : counter (setBfe s n b) i j = counter s i j := rfl
@[simp] theorem counter_setPair (n : Nat) (p : PairBay) (i j : Nat) : counter (setPair s n p) i j = counter s i j := rfl
@[simp] theorem counter_setChan (n : Nat) (c : Chan) (i j : Nat) : counter (setChan s n c) i j = counter s i j := rfl
@[simp] theorem counter_setOpu (n : Nat) (o : OpuW) (i j : Nat) : counter (setOpu s n o) i j = counter s i j := rfl
@[simp] theorem counter_setCtrl (n : Nat) (c : Ctrl) (i j : Nat) : counter (setCtrl s n c) i j = counter s i j := rfl
@[simp] theorem counter_drawn (i j : Nat) : counter (drawn s ) i j = counter s i j := rfl
@[simp] theorem counter_event (c k v b o : Nat) (d : List Nat) (i j : Nat) : counter (event s c k v b o d) i j = counter s i j := rfl
@[simp] theorem counter_countEvent (c k v b o : Nat) (d : List Nat) (i j : Nat) :
    counter (countEvent s c k v b o d) i j = if c * 32 + k = i * 32 + j then counter s c k + 1 else counter s i j := getD_put _ _ _ _ _
/-- CLR_CNT zeroes the counters of its block and keeps the others. -/
@[simp] theorem counter_clearCounters (b i j : Nat) : counter (clearCounters s b) i j = if (i * 32 + j) / 32 = b then 0 else counter s i j := by
  have e := look_filter s.cnt (fun k => decide (k / 32 ≠ b)) (i * 32 + j)
  simp only [counter, clearCounters, getD]
  rw [e]
  by_cases h : (i * 32 + j) / 32 = b <;> simp [h]

end Sys2Proof.Machine
end

