-- ==== Sys2Proof/Tests/Slice0.lean ====
section
/-! SUPPORT. The model's own tests. `test_…`: ill-formed terms are refused, and values that the spec's worked examples and tables give.
`wit_<statement>`: for each statement with hypotheses, concrete states and operands that meet the hypotheses of its clauses, boundary values
among them. Hypotheses that ask what a signature, a digest or an unwrapping answers (functions without a body, log entry 3) are met in the
lemmas that take that answer as a premise. -/

namespace Sys2Proof.Tests

-- one theorem at a time: evaluations that wait for each other would each hold a thread
set_option Elab.async false
open Machine

/-- A running twin 0 at stitch 1,000, its life cycle at state 0, alone. -/
def up : State := { tck := { count := 1000 }, pwr := { phase := .running, stage := 11, domCore := true } }
/-- The same in the Sealed state. -/
def sealed_ : State := { up with kst := { lc := { a := 2, b := 2, c := 2 } } }
/-- The same with bay 0 run and bay 4 shadowed, the link in service and the pair paired. -/
def pair : State := { up with spn := { link := 2, lanes := 0xFF, paired := true, bays := [(0, { role := 1 }), (4, { role := 2 })] } }
/-- A model cell of OPU 0, closed, whose plausibility count stands at N = 3. -/
def cell0 : Cell := { named := true, opu := 0, loop := 0, coef := [0, 0, 0x0100, 0, 0, 0, 0, 0, 0, 0, 3], st := .closed, cnt := 3 }
/-- A Binding with one channel cell for spot 0 of OPU 0. -/
def bind0 : Binding := { chans := [{ cell := 5, opu := 0, spot := 0 }] }
/-- A container staged by this twin and reported by the other, armed for stitch 1,000. -/
def staged0 : Staged := { bytes := [1], parsed := { secver := 2 }, armed := some 1000, peer := true }

theorem wit_EmptyQueueIdles : State.reset.pending = [] := by decide
theorem wit_StepKeepsCanonicalForm : Canonical { up with pending := [.powerOnReset], cnt := [(3, 7)] } ∧
    ∃ t, step { up with pending := [.powerOnReset], cnt := [(3, 7)] } = .next t := ⟨⟨rfl, by decide, by decide, by decide, by decide, by decide, by decide⟩, _, rfl⟩
theorem wit_IngestSequenceNeverGoesBack : SequenceReserved { up with cph := { seq := 4, seqEnd := 5, norEnd := 5 } } ∧
    ∃ t, step { up with pending := [.powerOnReset], cph := { seq := 4, seqEnd := 5, norEnd := 5 } } = .next t := ⟨⟨by decide, by decide⟩, _, rfl⟩
theorem wit_EveryCommandStaysInItsReach : ∃ t, exec .powerOnReset up = .next t := ⟨_, rfl⟩

theorem wit_ResetsReachTheirDomains :
    ((up.mem.dumping = true → WarmCause.sysRst = .trip) ∧ (WarmCause.sysRst = .lockstep → up.bdy.halted = true)) ∧
    (let s : State := { up with mem := { dumping := true } }; (s.mem.dumping = true → WarmCause.trip = .trip) ∧ WarmCause.trip ≠ .lockstep) ∧
    (let s : State := { up with bdy := { halted := true }, spn := { haltAt := 1000 } }
     s.mem.dumping = false ∧ s.bdy.halted = true ∧ s.spn.haltAt ≤ now s) ∧
    (up.mem.dumping = false ∧ (controllers up).contains 0 = true ∧ up.bdy.bootRecord = false) ∧
    (controllers { up with tck := { split := true } }).contains 1 = true := by decide
theorem wit_ClearingCausesAndCounters : barSealed up = false ∧ barSealed sealed_ = true := by decide
theorem wit_StartUpRunsInOrder :
    (State.reset.pwr.phase = .porLow ∧ State.reset.pwr.failLow = false) ∧
    (let s : State := { pwr := { phase := .warm } }; s.pwr.phase = .warm ∧ s.pwr.failLow = false) ∧
    (let s : State := { pwr := { phase := .starting, halted := true, failHigh := 250 } }
     s.pwr.phase = .starting ∧ s.pwr.halted = true ∧ 250 ≤ s.pwr.failHigh) ∧
    ((5 : Byte) ≠ 6 ∧ State.reset.tck.aliveOn = false) ∧
    (let s : State := { pwr := { phase := .starting, stage := 8 }, tck := { count := 2500000 } }
     s.pwr.phase = .starting ∧ s.pwr.stage < 9 ∧ s.mem.replaying = false ∧ s.pwr.halted = false ∧ s.spn.paired = false ∧
       s.pwr.quadsAt + 10 * Config.sec ≤ now s) ∧
    (let s : State := { pwr := { phase := .starting, stage := 9 } }
     s.pwr.phase = .starting ∧ s.pwr.halted = false ∧ s.mem.replaying = false ∧ 9 ≤ s.pwr.stage) ∧
    (let s := (List.range 32).foldl (fun s _ => event s 0 0 1) up; s.bdy.staged ≠ [] ∧ 32 ≤ (openPage s.bdy).length + s.bdy.staged.length ∧ s.bdy.pages.length < 2048 ∧ openPage s.bdy = []) ∧
    (let s : State := { event up 0 0 1 with tck := { count := 251000 } }; s.bdy.staged ≠ [] ∧ s.bdy.stagedAt + Config.sec ≤ now s) ∧
    (let e := (event up 0 0 1).bdy.staged; let s := event { up with bdy := { pages := [e] } } 0 0 1; openPage s.bdy ≠ [] ∧ s.bdy.staged ≠ []) := by decide

theorem wit_StitchEdgesAndDeadlines :
    up.pwr.phase = .running ∧ ({ pwr := { phase := .starting } } : State).pwr.phase = .starting ∧
    (let s : State := { pwr := { phase := .warm } }; s.pwr.phase ≠ .starting ∧ s.pwr.phase ≠ .running ∧ s.pwr.phase ≠ .porLow) ∧
    State.reset.pwr.phase = .porLow ∧
    (let s : State := { tck := { outside := 16 } }; 16 ≤ s.tck.outside ∧ s.tck.alignFault = false) ∧ up.tck.outside < 16 ∧ up.tck.master = false ∧
    silenced up = false ∧ pair.spn.link ≠ 0 ∧
    ((baysIn 0x11).filter (fun b => (pairAt pair b).role ≠ 0)) = [0, 4] ∧
    due (cellAt { up with cells := [(7, cell0)] } 7) = true := by decide
theorem wit_SafeStopOfABay : (7 : Nat) < 8 ∧ bayAxes 7 = [14, 15, 30, 31] := by decide
theorem wit_FramesLandOrCount :
    ((portAt up 0).landed = none ∧ (portAt up 0).absent = false) ∧
    (let s : State := { pair with ports := [(0, { absentRun := 16 })] }
     runs s 0 = true ∧ (portAt s 0).stopped = false ∧ regBits s .hblCfg 0 7 0 ≤ (portAt s 0).absentRun) ∧
    (let s : State := { pair with ports := [(0, { spotEn := 1 })], bnd := { active := some bind0 }, rdc := { chans := [(5, { st := 3 })] } }
     runs s 0 = true ∧ (portAt s 0).spotEn.getLsbD 0 = true ∧ chanOf s 0 0 = some 5 ∧ samplesPerStitch (portAt s 0).rate ≤ 2400 ∧
       2399 < samplesPerStitch (portAt s 0).rate ∧ (chanAt s 5).st ≠ 0 ∧ (chanAt { s with rdc := {} } 5).st = 0) := by decide
theorem wit_SnapshotsLatchTheTwin :
    (barSealed up = false ∧ barSealed sealed_ = true ∧ (∀ p, (snapOf up p).state = 0) ∧ pair.spn.link = 2) ∧
    (let s : State := { up with tck := { count := 1000, snapPair := { state := 1, due := 1000 } } }
     (snapOf s true).state = 1 ∧ (snapOf s true).due = now s ∧ (snapOf s false).state ≠ 1) ∧
    (let s : State := { up with tck := { count := 999, snapPair := { state := 1, due := 1000 } } }; ∀ p, (snapOf s p).state = 1 → (snapOf s p).due ≠ now s) ∧
    (let s : State := { up with tck := { snapTwin := { state := 2 } } }; barSealed s = false ∧ (shownSnap s).state = 2 ∧ (snapOf s false).state ≠ 0) := by decide

theorem wit_BindingContainersAreCheckedAndStaged :
    ((zeros 8).length % 8 = 0 ∧ pairUp up = false ∧ pairUp pair = true ∧ (zeros 7).length % 8 ≠ 0 ∧
      (let s : State := { pair with bnd := { xfer := some [(0, zeros 8)] } }; s.bnd.xfer ≠ none) ∧ (8 : Word) ≠ 0 ∧ up.bnd.xfer = none) ∧
    barSealed up = false ∧
    (let c : Checking := { bytes := [], whole := true, ref := none }; ({ up with bnd := { checking := [c] } } : State).bnd.checking = c :: [] ∧
      c.armAfter = false) ∧ lifeRetired up = false ∧ up.bnd.checking = [] := by decide
theorem wit_BindingsArmForAStitch :
    let x : Staged := { staged0 with armed := none }
    (barSealed up = false ∧ up.bnd.structural = none ∧ up.bnd.trim = none ∧ reg up .bndCommitStitch = 0 ∧ now up + 256 ≤ now up + 256) ∧
    (let s : State := { pair with bnd := { structural := some x, affected := 1 } }
     x.armed.isNone = true ∧ lifeRetired s = false ∧ lifeRetired { s with kst := { lc := { a := 4, b := 4, c := 4 } } } = true ∧ readHold s s.bnd.affected = true ∧ pairUp s = true ∧ pairUp { s with spn := {} } = false ∧
       readHold { s with bays := [(0, { mode := 0 })] } s.bnd.affected = false ∧ reg { s with regs := [(0x1C00018, 1255)] } .bndCommitStitch < now s + 256) ∧
    (let y : Staged := { staged0 with armed := some 1016, peer := false }
     (!y.peer && y.armed.any (fun k => decide (k ≤ now up + 16))) = true ∧ pair.spn.link = 2) := by decide
theorem wit_BindingsCommitAtTheirStitch :
    (let s : State := { pair with bnd := { trim := some staged0 } }
     s.bnd.trim = some staged0 ∧ staged0.armed = some (now s) ∧ staged0.peer = true ∧ pairUp s = true ∧
       s.bnd.structural.any (fun y => y.armed == some (now s)) = false) ∧
    (let s : State := { pair with bnd := { structural := some staged0, affected := 1 } }
     s.bnd.structural = some staged0 ∧ readHold s s.bnd.affected = true ∧ (∀ b ∈ baysIn s.bnd.affected, (bayAt s b).holdEntry = false) ∧
       pairUp { s with spn := {} } = false ∧ readHold { s with bays := [(0, { mode := 0 })] } s.bnd.affected = false) ∧
    (let s : State := { pair with tck := { count := 999 }, bnd := { trim := some staged0 } }
     ∀ x, s.bnd.trim = some x → x.armed ≠ some (now s)) := ⟨⟨rfl, rfl, rfl, by decide, by decide⟩, ⟨rfl, by decide, by decide, by decide, by decide⟩,
      fun _ h => by cases h; decide⟩

/-- The state with cell 7 as given, bay 0's frame landed. -/
def withCell (c : Cell) : State := { pair with cells := [(7, c)], ports := [(0, { landed := some {} })] }
/-- Sequence words: kick 3, brake 3, time-out 9 (jump) and 9 (seek), settle 3. -/
def seqCell : Cell := { named := true, coef := List.replicate 22 0 ++ [0, 3, 0, 3, 0, 9, 3, 9, 3] }
/-- The state with unit 0 as given, bay 0's frame landed. -/
def withUnit (u : Machine.Unit) : State := { pair with units := [(0, u)], ports := [(0, { landed := some {} })] }
/-- The state with axis 0 as given, bay 0's frame landed. -/
def withAxis (a : Axis) : State := { pair with axes := [(0, a)], ports := [(0, { landed := some {} })] }
/-- A waiting command due at stitch 1,000. -/
def due0 (op arg : Nat) : QCmd := { op := op, arg := arg, effect := 1000 }

theorem wit_ServoCommandsAreQueued :
    mayCommand sealed_ .host = false ∧ mayCommand sealed_ .domain = true ∧ mayCommand up .host = true ∧
    (let s := withCell cell0; let c := cellAt s 7
     c.named = true ∧ accepts s (c.opu / 2) = true ∧ (bayAt s (c.opu / 2)).mode = 5 ∧ c.queue.length < 4 ∧
       (bayAt { s with bays := [(0, { mode := 0 })] } (c.opu / 2)).mode ≠ 5 ∧ (bayAt s (c.opu / 2)).holdEntry = false ∧ c.loop = 0 ∧
       (cellAt up 7).named = false ∧ accepts up 0 = false) ∧
    (let c := cellAt (withCell { cell0 with queue := List.replicate 4 (due0 2 0) }) 7; 4 ≤ c.queue.length) ∧
    (let c := cellAt (withCell { seqCell with loop := 1, coef := List.replicate 27 0 ++ [9] }) 7
     c.loop = 1 ∧ (9 : BitVec 24).toInt.natAbs ≤ sw c 5 ∧ sw c 5 < (10 : BitVec 24).toInt.natAbs) ∧ (2 : BitVec 2) ≠ 3 := by decide
theorem wit_CommandsActAtTheirEffectStitch :
    (portAt up 0).landed = none ∧
    (let f (st : CellSt) : State := { pair with ports := [(0, { landed := some {} })], cells := [(7, { named := true, st := st }), (8, { named := true, loop := 1, queue := [due0 1 0] })] }
     prereqOf (f .closed) (cellAt (f .closed) 8) = some 7 ∧ (cellAt (f .closed) 7).st = .closed ∧ (cellAt (f .held) 7).st ≠ .closed ∧
       (cellAt (f .held) 8).st = .parked ∧ (cellAt (f .held) 8).queue = [due0 1 0] ∧ prereqOf (withCell cell0) (cellAt (withCell cell0) 7) = none) ∧
    (let f (c : Cell) (op arg : Nat) := withCell { c with queue := [due0 op arg] }
     (portAt (f cell0 2 0) ((cellAt (f cell0 2 0) 7).opu / 2)).landed ≠ none ∧ (cellAt (f cell0 2 0) 7).queue = [due0 2 0] ∧
       (due0 2 0).effect ≤ now (f cell0 2 0) ∧ (cellAt (f seqCell 1 0) 7).st = .parked ∧ (cellAt (f seqCell 1 0) 7).loop = 0 ∧
       (cellAt (f cell0 2 0) 7).st = .closed ∧ cell0.st ≠ .parked ∧ cell0.st ≠ .retract ∧ cell0.seq.kind = .none ∧
       cellOf (f cell0 3 0x130) 0 1 = none ∧ bits (due0 3 0x130).arg 8 8 = 1 ∧ bits (due0 3 0x130).arg 7 4 ≠ bits (due0 3 0x130).arg 3 0 ∧
       sx 24 (due0 4 0xFFFFFF).arg ≠ 0 ∧ cellOf (f { cell0 with loop := 1 } 4 1) 0 0 = none) ∧
    (let s := withUnit { queue := [due0 1 7500] }
     (portAt s 0).landed ≠ none ∧ (unitAt s 0).queue = [due0 1 7500] ∧ (unitAt s 0).st = .off ∧ (unitAt s 0).fault = false) ∧
    (let s := withAxis { st := .idle, known := true, queue := [due0 1 100] }
     (portAt s (axisBay 0)).landed ≠ none ∧ (axisAt s 0).queue = [due0 1 100] ∧ (axisAt s 0).st = .idle ∧ (axisAt s 0).known = true ∧
       (axisAt s 0).hold = false ∧ ((due0 1 100).arg : Int) ≤ softRange true) := by decide

theorem wit_LayerJumpSteps :
    let f (st : CellSt) (step : SeqStep) (k : Nat) := cellAt (withCell { seqCell with st := st, seq := { kind := .jump, step := step, stepSt := k, total := 9 } }) 7
    due (f .sequence .kick 3) = false ∧ (f .sequence .kick 3).seq.kind = .jump ∧ (f .sequence .kick 3).seq.step = .kick ∧
    sw (f .sequence .kick 3) 1 = 3 ∧ ((f .sequence .brake 3).seq.step = .brake ∧ (f .sequence .brake 3).st = .sequence) ∧
    ((f .closed .dwell 16).seq.step = .dwell ∧ (f .closed .dwell 16).st = .closed ∧ due (f .closed .dwell 16) = false) ∧
    ((f .closed .settle 3).seq.step = .settle ∧ (f .closed .settle 3).st = .closed) ∧
    ((f .sequence .coast 0).seq.step = .coast ∧ (f .sequence .coast 0).captured = false ∧ sw (f .sequence .coast 0) 5 ≤ (f .sequence .coast 0).seq.total) := by decide
theorem wit_SeekSteps :
    let f (st : CellSt) (step : SeqStep) (k : Nat) := cellAt (withCell { seqCell with st := st, loop := 1, seq := { kind := .seek, step := step, stepSt := k, total := 9, win := 3 } }) 7
    due (f .sequence .kick 3) = false ∧ (f .sequence .kick 3).seq.kind = .seek ∧ (f .sequence .kick 3).seq.step = .kick ∧
    ((f .sequence .window 0).st = .sequence ∧ (f .sequence .window 0).captured = false ∧ 0 < (f .sequence .window 0).seq.win ∧ sw (f .sequence .window 0) 6 = 3) ∧
    ((f .closed .settle 3).seq.step = .settle ∧ (f .closed .settle 3).st = .closed ∧ sw (f .closed .settle 3) 8 = 3) ∧
    sw (f .sequence .velocity 0) 7 = 9 := by decide
theorem wit_SearchesHoldsAndRetractionsEnd :
    (let c := cellAt (withCell { seqCell with st := .search, searchPos := 768, seq := { total := 1 }, coef := List.replicate 30 0 ++ [3] }) 7
     c.st = .search ∧ c.captured = false ∧ c.loop = 0 ∧ swS c 8 * 256 ≤ c.searchPos ∧ 0 < c.seq.total) ∧
    (let c := cellAt (withCell { seqCell with st := .search, loop := 1, seq := { total := 9 } }) 7; c.loop = 1 ∧ sw c 7 ≤ c.seq.total) ∧
    (let c : Cell := { cell0 with coef := [0, 0, 0, 0, 0, 2, 5, 0, 0, 0, 3], st := .held, holdSt := 5, zeroSt := 2 }
     c.st = .held ∧ holdMax c ≤ c.holdSt ∧ c.zeroSt < nPlaus c ∧ nPlaus c ≤ 3) ∧
    (let c : Cell := { cell0 with coef := [0, 0, 0, 0, 0, 2], st := .retract, rampI := 2 }; c.st = .retract ∧ retractLen c ≤ c.rampI) ∧
    (let f (q c : CellSt) : State := { pair with cells := [(7, { cell0 with st := q }), (8, { cell0 with loop := 1, st := c })] }
     prereqOf (f .retract .closed) (cellAt (f .retract .closed) 8) = some 7 ∧ prereqOf (f .held .closed) (cellAt (f .held .closed) 8) = some 7 ∧
       (cellAt (f .held .closed) 7).st = .held ∧ (cellAt (f .closed .suspended) 7).seq.kind = .none ∧
       (cellAt (f .closed .suspended) 8).st = .suspended ∧ prereqOf (f .closed .suspended) (cellAt (f .closed .suspended) 8) = some 7) := by decide

theorem wit_SpindleAndAxisCommandsAreQueued :
    mayCommand sealed_ .host = false ∧ mayCommand up .host = true ∧
    (let s := withUnit { fault := true, queue := List.replicate 4 (due0 1 1) }; accepts s 0 = true ∧ (unitAt s 0).fault = true ∧ 4 ≤ (unitAt s 0).queue.length) ∧
    (let u := unitAt (withUnit { st := .ramp }) 0; u.fault = false ∧ u.queue.length < 4 ∧ startPath u = true) ∧
    (let s := withAxis { known := true }; accepts s (axisBay 0) = true ∧ accepts up 0 = false ∧ (axisAt s 0).known = true ∧ (axisAt s 0).queue.length < 4 ∧
       ((0 : BitVec 20).toNat : Int) ≤ softRange true ∧ softRange true < ((0xFFFFF : BitVec 20).toNat : Int)) := by decide
theorem wit_SpindleStartsByItsTable :
    (let u : Machine.Unit := { st := .sense, timer := 5000 }; u.st = .sense ∧ 5000 ≤ u.timer ∧ senseOmega u = 0) ∧
    (let u : Machine.Unit := { st := .align, timer := 50000 }; u.st = .align ∧ 50000 ≤ u.timer) ∧
    (let u : Machine.Unit := { st := .ramp, timer := 375000, validRun := 5, attempt := 3 }; 375000 ≤ u.timer ∧ u.validRun < 6 ∧ u.attempt < 4 ∧
       4 ≤ ({ u with attempt := 4 } : Machine.Unit).attempt ∧ u.fault = false) ∧
    (let u : Machine.Unit := { st := .short, brake := .start 1, timer := 75000 }; u.st = .short ∧ u.brake = .start 1 ∧ 75000 ≤ u.timer) ∧
    (let u : Machine.Unit := { st := .short, brake := .start 2, timer := 125000 }; u.brake = .start 2 ∧ 125000 ≤ u.timer) ∧
    (let u : Machine.Unit := { st := .short, brake := .backward, rpmShort := -60, timer := 999999 }; u.rpmShort.natAbs ≤ 60 ∧ u.timer < 1000000) ∧
    (let u : Machine.Unit := { st := .short, brake := .backward, timer := 1000000 }; u.brake = .backward ∧ 1000000 ≤ u.timer) ∧
    ({ timer := 4999 } : Machine.Unit).timer < 5000 := by decide
theorem wit_SpindleRunsLocksAndStops :
    (let u : Machine.Unit := { st := .run, lockRun := 16 }; u.st = .run ∧ 16 ≤ u.lockRun ∧ u.inertia = none) ∧
    (let u : Machine.Unit := { locked := true, outRun := 2 }; u.locked = true ∧ 2 ≤ u.outRun) ∧
    (let u : Machine.Unit := { st := .run, missedRun := 6, lossAge := some 2500000 }; 6 ≤ u.missedRun ∧ u.lossAge.any (fun k => decide (k ≤ 2500000)) = true ∧ (some 2500001).any (fun k => decide (k ≤ 2500000)) = false) ∧
    64 ≤ ({ overRun := 64 } : Machine.Unit).overRun ∧
    (let u : Machine.Unit := { st := .coast, standRun := 62500 }; 62500 ≤ u.standRun ∧ u.st = .coast) ∧
    (let u : Machine.Unit := { st := .short, standRun := 62500 }; u.st = .short ∧ u.stood = none) ∧
    (let u : Machine.Unit := { st := .short, stood := some 125000 }; u.brake = .stop ∧ (∃ k, u.stood = some k ∧ 125000 ≤ k) ∧ ∀ k, ({ u with stood := some 124999 } : Machine.Unit).stood = some k → k < 125000) ∧
    (let s : State := { up with bus := { blocked := 1, clean := (List.range 8).map (fun b => (b, 250)) } }
     s.bus.blocked.getLsbD 0 = true ∧ ∀ b, b < 8 → groupOf s b = 0 → 250 ≤ getD s.bus.clean 0 b) ∧
    (let s : State := { up with bus := { overT := [(0, 5)] } }
     groupOf s 0 = 0 ∧ 0 < getD s.bus.overT 0 0 ∧ regBits s .spdBusCfg2 0 7 0 ≤ getD s.bus.overT 0 0 ∧ s.bus.tripped.getLsbD 0 = false) ∧
    (let a : Accel := { b := 0, t := 0, whole := true, sum1 := 600, n1 := 1, sum2 := 600, n2 := 1 }; a.whole = true ∧ a.n1 ≠ 0 ∧ a.n2 ≠ 0 ∧ ({} : Machine.Unit).accel = none) := by
  refine ⟨by decide, by decide, by decide, by decide, by decide, by decide, ⟨rfl, ⟨125000, rfl, by decide⟩, fun k h => by cases h; decide⟩, by decide, by decide, by decide⟩
theorem wit_AxesLoseFindAndFollow :
    (let s := withAxis { st := .homing, homeFrom := softRange true * 11 * unitStep, p := 0 }; let a := axisAt s 0
     a.st = .homing ∧ a.homeOut = false ∧ softRange (motPar s 0).sled * 11 * unitStep ≤ 10 * (a.homeFrom - a.p)) ∧
    (axisAt up 0).st ≠ .homing ∧
    (let s : State := { withAxis { st := .idle, followRun := 250 } with cells := [(8, { named := true, loop := 1, st := .closed })] }
     (motPar s 0).followEn = true ∧ (axisAt s 0).st = .idle ∧ (motPar s 0).followSt ≤ (axisAt s 0).followRun ∧ 0 < (axisAt s 0).followRun ∧
       (axisAt s 0).hold = false ∧ cellOf s 0 1 = some 8 ∧ (cellAt s 8).st = .closed) := by decide

/-- The four loop cells of OPU 0, closed. -/
def loop0 (l : Nat) : Nat × Cell := (l, { named := true, loop := l, st := .closed, layer := some 0 })
/-- A calibration record used and written, with its corrector position and OPC valid. -/
def rec0 : CalRec := { used := true, written := true, corrector := some 0, valid := 1 }
/-- The address word of a lane and position of frame 7, side 0, layer 0. -/
def unitWord (lane pos : Nat) : BitVec 56 := BitVec.ofNat 56 (lane * 2 ^ 49 + pos * 2 ^ 37 + 7 * 2 ^ 21)
/-- Bay 0 in Recall and brought up, OPU 0 on layer 0 at frame 8 with everything a pass needs. -/
def ready : State := { pair with
  bays := [(0, { mode := 1, bringup := 5 })], cells := [loop0 0, loop0 1, loop0 2, loop0 3], axes := [(16, { st := .idle })]
  units := [(0, { st := .run, locked := true, target := zoneTarget { up with bays := [(0, { mode := 1, bringup := 5 })] } 0 0 })]
  ports := [(0, { addrLayer := [(0, 0)], addrFrame := [(0, 8)]
                  addrSeen := (List.range 4).map (fun e => (e, [16, 15, 14].map (fun p => some { word := unitWord e p, stitch := 1000 }))) })]
  cal := { recs := [(0, rec0)] } }

/-- A request for slot 0 of frame 8 of surface 0, layer 0, of volume 1, and a request in service. -/
def req0 : ReadReq := { tag := 1024, leaf := { surface := 0, layer := 0, frame := 8 }, slots := [0], expect := false, classU := true, act := 4, volume := 1 }
def read0 (f : FolioRd) : ReadSt := { req := req0, accepted := 0, deadline := 1000, folios := [f] }
def withRead (r : ReadSt) : State := { ready with qre := { vol := 1, cur := 1 }, rdc := { reads := [(1024, r)] } }
/-- A closed, committed quire of one planned leaf on surface 0. -/
def quire0 : Quire := { number := 5, st := 1, committed := true, folios := 64, leaves := [{ surface := 0, layer := 0, frame := 8 }] }
def withQuire (q : Quire) : State := { ready with qre := { vol := 1, quires := [(5, q)] } }
def run0 (cut : Option (Nat × Bool)) (judged : Option Nat) : Run :=
  { quire := 5, leaf := 0, layer := 0, frame := 8, start := 900, cut := cut, encoded := [0],
    slots := [0, 1].map (fun k => { slot := k, header := slotHeader ready quire0 0 k 900, verdict := if k = 0 then none else judged }) }

theorem wit_ReadsAreAskedAndPassesStart :
    (let s : State := { ready with qre := { vol := 1, cur := 1 } }; readAt s req0.tag = none ∧ readOk s req0 = true ∧ runs s 0 = true ∧
       surfState s 0 ≠ 2 ∧ readOk up req0 = false ∧ runs { s with spn := {} } 0 = false ∧
       surfState { s with qre := { vol := 1, cur := 1, surf := [(0, { failedR20 := true })] } } 0 = 2) ∧
    (let c : Cmd := { ref := { sqid := 1, cid := 1 }, sqe := { cid := 1, kind := .read }, st := .media, seq := 1 }
     let s : State := { up with hiu := { cmds := [c] } }
     s.hiu.cmds.find? (fun c => (c.sqe.kind == .read || c.sqe.kind == .verify) && c.st == .media && c.seq == req0.tag / 1024) = some c) ∧
    (let r := read0 { slot := 0 }
     let s := withRead r
     readAt s r.req.tag = some r ∧ layerUnused s r = false ∧ passMayStart s r = true ∧ passWanted s r = true ∧ nextPass r = some (1, 0) ∧
       (∀ e ∈ s.rdc.reads, e.2.req.tag = e.1) ∧ (s.rdc.reads.map (·.1)).Nodup ∧ (∀ f ∈ r.folios, f.step < 8 ∧ f.pass_ < 8) ∧
       layerUnused { s with cal := {} } r = true ∧ passWanted { s with units := [] } r = true ∧ opuReady { s with units := [] } 0 0 8 = false) ∧
    (let f (c : Chan) : State := { up with rdc := { chans := [(9, c)] } }
     (chanAt (f { st := 1, cur := { lockAt := some 60 } }) 9).cur.lockAt ≠ none ∧ (chanAt (f { st := 1 }) 9).cur.lockAt = none ∧
       (chanAt (f { st := 2 }) 9).st = 2 ∧ (chanAt up 9).st = 0 ∧
       (let c := chanAt (f { st := 3, cur := { lost := [(7, none)] } }) 9; c.st = 3 ∧ c.cur.lost = [] ++ [(7, none)])) ∧
    (let r := read0 { slot := 0, queued := true }
     let s : State := { withRead r with rdc := { reads := [(1024, r)], queue := [(1024, 0, 1)], busy := 4 } }
     nextQueued s = some (1024, 0, 1) ∧ readAt s r.req.tag = some r ∧ folioAt r 0 = some { slot := 0, queued := true } ∧ s.rdc.busy + 8 ≤ decoderLimit s ∧
       decoderLimit { s with pwr := { throttle := 7 } } < s.rdc.busy + 8) ∧ up.rdc.queue = [] := by decide +kernel

/-- A folio's read ends: spot 0's cell locked on nothing but spaces; `marks` is the mark limit of the run. -/
def heard (marks lock : Nat) (f : FolioRd) : State := { withRead { read0 f with granted := true } with
  bnd := { active := some bind0 }
  rdc := { reads := [(1024, { read0 f with granted := true })], runCfg := [(0, List.replicate 16 (marks * 2 ^ 24))]
           chans := if lock = 0 then [] else [(5, { st := 1, past := [{ started := true, lockAt := some lock }] })] } }
/-- Header of slot 0 of `req0`. -/
def head0 : Header := { pfa := pfa 1 0 0 0 (folioNumber 8 0), quire := 5, gen := 0, seed := scrambleSeed 0 (folioNumber 8 0) 0, leaf := 0, slot := 0, row := 0, kind := 0, width := 16, stitch := 0, twin := 0 }
/-- A folio whose 8 codewords stand decoded: that header, and zeros. -/
def decoded0 : FolioRd := { slot := 0, inDecoder := true, words := (List.range 8).map (fun c => (c, if c = 0 then
  (headerBytes head0).flatMap (fun b => (List.range 8).map (fun i => b.getLsbD (7 - i))) ++ List.replicate 32896 false else List.replicate 33408 false)) }
theorem bitsBytes_length (n : Nat) (bs : List Bool) : (bitsBytes n bs).length = n := by simp [bitsBytes]
theorem wit_FoliosClimbTheLadder_read :
    (let f : FolioRd := { slot := 0, started := true }
     let s := heard 0 0 f
     let r : ReadSt := { read0 f with granted := true }
     readAt s r.req.tag = some r ∧ folioAt r f.slot = some f ∧ r.granted = true ∧ r.expired = false ∧ f.started = true ∧ f.done = none ∧
       f.expect = false ∧ ({ f with expect := true } : FolioRd).expect = true ∧ looks s 0 0 1 0 = [0] ∧ (readLane s 0 0 [0]) = none ∧
       (climb s 0 f).step = 3 ∧ (climb s 0 { f with step := 6, pass_ := 3 }).step = 7) ∧
    (∃ x, readLane (heard 0xFF 60 { slot := 0 }) 0 0 (looks (heard 0xFF 60 { slot := 0 }) 0 0 1 0) = some x ∧ x.heard.framed.decode = true) ∧
    (∃ x, readLane (heard 0 60 { slot := 0 }) 0 0 (looks (heard 0 60 { slot := 0 }) 0 0 1 0) = some x ∧ x.heard.framed.decode = false) :=
  ⟨by decide +kernel, ⟨_, rfl, by decide +kernel⟩, ⟨_, rfl, by decide +kernel⟩⟩
theorem wit_FoliosClimbTheLadder_good :
    let r := read0 decoded0
    let s := withRead r
    readAt s r.req.tag = some r ∧ folioAt r 0 = some decoded0 ∧ badWords (decodeFolio 24 decoded0) = 0 ∧
      headerOk s r 0 (wordsPayload (decodeFolio 24 decoded0)) = true := by
  refine ⟨rfl, rfl, rfl, ?_⟩
  simp only [headerOk, wordsPayload, bitsBytes_length, decide_true, Bool.true_and]
  decide +kernel
theorem wit_FoliosClimbTheLadder_bad :
    (let f : FolioRd := { slot := 0, inDecoder := true, llr := [[-1]], words := (List.range 7).map (fun c => (c + 1, [])) }
     let r := read0 f
     let s := withRead r
     readAt s r.req.tag = some r ∧ folioAt r f.slot = some f ∧ f.inDecoder = true ∧ f.done = none ∧ badWords (decodeFolio 0 f) ≠ 0 ∧
       f.step ≠ 2 ∧ f.redecode = false ∧ ({ f with redecode := true } : FolioRd).redecode = true ∧ ({ r with expired := true } : ReadSt).expired = true ∧
       r.deadline ≤ now s ∧ r.expired = false ∧ (r.folios.map (·.slot)).Nodup ∧ now s < ({ r with deadline := 1001 } : ReadSt).deadline) ∧
    (let f : FolioRd := { slot := 0, inDecoder := true, words := (List.range 8).map (fun c => (c, [])) }
     badWords (decodeFolio 0 f) = 0 ∧ headerOk (withRead (read0 f)) (read0 f) 0 (wordsPayload (decodeFolio 0 f)) = false) := by
  refine ⟨by decide +kernel, rfl, ?_⟩
  simp only [headerOk, wordsPayload, bitsBytes_length, decide_true, Bool.true_and]
  decide +kernel

theorem wit_WriteRunsAndVerdicts :
    (let s := withQuire quire0
     quireAt s quire0.number = some quire0 ∧ (firstWrite s 0 0).2 = true ∧ runMayStart s quire0 0 false = true ∧ runWanted s quire0 0 false = true ∧
      (startAhead s 0 0 8 (runPosition false) ((runRows (quire0.leaves.getD 0 {}) false).map (·.2))).isSome = true ∧ runWanted { s with units := [] } quire0 0 false = true ∧
      opuReady { s with units := [] } 0 0 8 = false ∧ (firstWrite { s with cal := {} } 0 0).2 = false ∧ quire0.st = 1 ∧ runs s 0 = true) ∧
    (let q : Quire := { quire0 with leaves := [{ surface := 0, st := 1, frame := 8, failed := [3] }] }
     runWanted (withQuire q) q 0 true = true ∧ quireAt (withQuire q) q.number = some q) ∧
    (let f (r : Run) : State := { withQuire quire0 with wrc := { opus := [(0, { run := some r })] } }
     (opuAt (f (run0 none none)) 0).run = some (run0 none none) ∧ (run0 none none).slots.any (fun y => y.slot == 1) = true ∧ (run0 none none).cut = none ∧
       (run0 none none).encoded.contains 1 = false ∧ (run0 none none).encoded.contains 0 = true ∧
       ((run0 none none).slots.find? (fun x => x.slot == 1)).map (·.verdict) = some none ∧ (run0 none none).unrecorded 1 = false ∧
       ((run0 none (some 0)).slots.find? (fun x => x.slot == 1)).map (·.verdict) = some (some 0) ∧ (run0 (some (0, true)) none).unrecorded 4 = true ∧
       (∀ x y, runOver ((run0 none (some 0)).judgedAs { slot := 0, header := x } 0 y) = true) ∧
       ∀ x y, runOver ((run0 none none).judgedAs { slot := 0, header := x } 0 y) = false) ∧
    barSealed up = false ∧ barSealed sealed_ = true := by
  refine ⟨by decide +kernel, by decide +kernel, ⟨rfl, rfl, rfl, by decide, by decide, rfl, by decide +kernel, rfl, by decide +kernel, fun _ _ => rfl, fun _ _ => rfl⟩, by decide, by decide⟩

theorem wit_QuiresCloseSealAndFile :
    (let q : Quire := { number := 5, folios := 1, born := 0 }
     let s : State := { up with qre := { quires := [(5, q)] }, tck := { count := 7500000 } }
     quireAt s q.number = some q ∧ q.st = 0 ∧ q.twin = s.tck.twinId ∧ 0 < q.folios ∧ q.born + ageTimeout s ≤ now s ∧
       now { s with tck := { count := 7499999 } } < q.born + ageTimeout s) ∧
    (bayAt ready 0).mode ≠ 5 ∧ quireAt (withQuire quire0) 5 = some quire0 ∧ (quire0.st = 1 ∧ quire0.sealing = false ∧ allPlaced quire0 = true ∧ quire0.kind ≠ 3) ∧
    (let q : Quire := { quire0 with sealing := true, leaves := [{ st := 2 }] }; q.sealing = true ∧ allVerified q = true) ∧
    (let s : State := { up with qre := { vol := 1, unfiledAt := some 0, quires := [(5, { quire0 with st := 2 })] }, tck := { count := 75000000 } }
     s.qre.unfiledAt = some 0 ∧ 0 + regBits s .qreDirCfg 0 15 0 * 250000 ≤ now s ∧ placing s 3 = true ∧ unfiled s ≠ [] ∧ journalQuires s < 65536) := by decide
theorem wit_VolumesMountAndUnmount :
    (barSealed up = false ∧ up.qre.vol = 0 ∧ up.qre.mounting = false ∧ (getD up.kst.slots {} 0).st ≠ 2 ∧
      (getD ({ up with kst := { slots := [(0, { st := 2 })] } } : State).kst.slots {} 0).st = 2 ∧ ready.qre.vol = 0 ∧ (withQuire quire0).qre.vol ≠ 0) ∧
    (let s : State := { up with qre := { mounting := true }, ports := (List.range 8).map (fun b => (b, { last := some { disc := true } })) }
     s.qre.mounting = true ∧ ((List.range 16).filter (fun m => discIn s (m / 2))).length = 16 ∧
       (∀ m, m < 16 → (List.replicate 16 CatFinding.blank).getD m .unread = .blank) ∧ ([] : List CatFinding).getD 0 .unread = .unread ∧
       findVolume 2 (.directory 7 1 true 16 0 0 8 0 184 0) = some 7 ∧ s.qre.unplaced = [] ∧ s.qre.waiting = []) ∧
    (let s := withQuire { quire0 with filed := true, st := 2 }
     s.qre.vol ≠ 0 ∧ s.qre.unmounting = false ∧ s.qre.quires.any (fun e => e.2.twin == s.tck.twinId && (e.2.st == 0 || e.2.st == 1)) = false ∧
       unfiled s = [] ∧ unfiledAmends s = []) ∧
    (let s := withQuire quire0
     s.qre.quires.any (fun e => e.2.twin == s.tck.twinId && e.2.st == 0) = false ∧ s.qre.quires.any (fun e => e.2.st == 1 && e.2.twin == s.tck.twinId) = true) := by decide
theorem wit_RowsAreRebuilt :
    let q : Quire := { number := 5, st := 2, width := 8, folios := 384 }
    (let s : State := { up with qre := { quires := [(5, q)], rebuild := [5] } }
     s.qre.rebuild = [5] ∧ s.qre.rebuilding = none ∧ regBits s .qreCtl 0 1 1 = 0 ∧ quireAt s 5 = some q ∧ q.number = 5 ∧ q.st = 2 ∧
       regBits { s with regs := [(0x1000000, 2)] } .qreCtl 0 1 1 = 1) ∧
    ((List.range q.width).filter (fun i => (look (knownRow up q 0 []) i).isNone)).length = 8 ∧ reconstruct q.width (knownRow up q 0 []) = none ∧
    ((List.range 8).filter (fun i => (look ([(0, []), (1, []), (2, []), (3, []), (4, []), (5, [])] : Tbl Bytes) i).isNone)) = [6, 7] := by decide
theorem wit_CalibrationsRunAndAgree :
    (regBits { up with regs := [(0x1A0000C, 0)] } .calInterval 0 31 16 = 0 ∧ regBits up .calInterval 0 31 16 = 168 ∧ regBits up .calInterval 0 15 0 = 24) ∧
    (let s : State := { ready with tck := { count := 168 * 3600 * 250000 }, cal := { recs := [(0, { rec0 with valid := 3 })] } }
     s.cal.recs = [(0, { rec0 with valid := 3 })] ∧ (3 : BitVec 5).getLsbD 0 = true ∧ (3 : BitVec 5).getLsbD 1 = true ∧
       0 + regBits s .calInterval 0 31 16 * 3600 * 250000 ≤ now s ∧ (calAt s 0 0).runOnly = false) ∧
    (let j : CalJob := { opu := 0, layer := 0, kind := .opc, blocking := true, whole := true }
     let s : State := { ready with cal := { recs := [(0, { rec0 with searched := true, nextRun := 63 })], jobs := [j] } }
     jobOf s 0 0 .opc = some j ∧ calWanted s j = true ∧ calWanted s { j with running := true } = false ∧ opuReady { s with ports := [(0, { addrLayer := [(0, 0)], addrFrame := [(0, 7)] })] } 0 0 (calFrame s j 63) = true ∧
       (opcStart { s with ports := [(0, { addrSeen := (List.range 4).map (fun e => (e, [13, 12, 11].map (fun p => some { word := unitWord e p, stitch := 1000 }))) })] } 0 0 63).isSome = true ∧ opuReady { s with units := [] } 0 0 (calFrame s j 63) = false ∧ (calAt s 0 0).searched = true ∧ (calAt s 0 0).nextRun < 64 ∧
       64 ≤ (calAt { s with cal := { recs := [(0, { rec0 with nextRun := 64 })] } } 0 0).nextRun ∧ (64 : Fin 65).val = 64) ∧
    (let j : CalJob := { opu := 0, layer := 0, kind := .bfeOffsets, blocking := false, whole := false, running := true, runs := 3, last := some [5] }
     j.running = true ∧ (opuAt ready 0).run = none ∧ j.since + 64 ≤ now ready ∧ agrees .bfeOffsets [5] [6] = true ∧ agrees .bfeOffsets [5] [7] = false ∧ 4 ≤ j.runs + max 1 1 ∧ 0 + max 1 1 < 4) ∧
    (let r : CalRec := { rec0 with goal := [(.focus, [25])] }
     r.goal.find? (fun g => g.1 = .focus) = some (.focus, [25]) ∧ r.focus ≠ 25 ∧ rec0.goal = [] ∧ sweepOn ready 0 = none ∧ stepped ready 0 = false ∧
       stepped { ready with cal := { ready.cal with lastStep := [(0, 1000)] } } 0 = true) := by decide +kernel
theorem wit_LanesRetrain :
    let s : State := { pair with ports := [(0, { lanes := 0x1F, eyes := [0, 0, 0, 0, 0] })] }
    runs s 0 = true ∧ (portAt s 0).lanes.getLsbD 0 = true ∧ ((portAt s 0).eyes.getD 0 0).toNat < regBits s .calLaneCfg 0 15 8 ∧
    ((bayAt s 0).mode = 5 ∧ (bayAt s 0).holdEntry = false) ∧ writingBay s 0 = false ∧ readingBay s 0 = false ∧ runs up 0 = false := by decide

/-- A Provisioned twin with one controller, an I/O queue pair and a conventional and a zoned namespace, both homed here. -/
def host : State := { pair with
  kst := { lc := { a := 1, b := 1, c := 1 }, slots := [(7, { st := 2, nsid := 1, write := true }), (9, { st := 2 })] }, cph := { drbg := 0 }
  mem := { rate := 5120, erased := 68719476736 }
  hiu := {
    ctrl := [(0, { cc := 1, rdy := true })], sqs := [(0, { size := 2, classU := true }), (1, { size := 4, tail := 2, cqid := 1 })]
    cqs := [(0, { size := 2 }), (1, { size := 2, ien := true, vector := 3 })]
    ns := [(1, { nsze := 32, attached := [1], writeSlot := 7 }), (2, { csi := 2, nsze := 2097152, attached := [1], writeSlot := 7 })] } }
def ref0 : CmdRef := { sqid := 1, cid := 5 }
def cmd0 (k : IoKind) (st : CmdSt) : Cmd := { ref := ref0, sqe := { cid := 5, kind := k, nsid := 1 }, st := st, nlb := 1, seq := 3 }
def withCmd (c : Cmd) : State := { host with hiu := { host.hiu with cmds := [c] } }
/-- A write's version, one block at LBA 0 of namespace 1, admitted as 2. -/
def ver0 : Version := { seq := 2, nsid := 1, lba := 0, nlb := 1, blocks := [zeros 4] }
/-- A zone command on namespace 2. -/
def zcmd (k : IoKind) : Cmd := { cmd0 k .admitted with sqe := { cid := 5, kind := k, nsid := 2 } }
def withZone (x : Zone) : State := { withCmd (zcmd .zoneSend) with hiu := { (withCmd (zcmd .zoneSend)).hiu with zones := [(131073, x)] } }

theorem wit_CompletionsReachTheirQueue :
    (let c : Comp := { ref := ref0, status := .success }
     (∀ e ∈ host.hiu.sqs, e.2.deleting = none) ∧ c.ref.peer = false ∧ mustWait host c = false ∧
       cqOf host c.ref = some (1, { size := 2, ien := true, vector := 3 }) ∧
       (let s : State := { host with hiu := { host.hiu with cqs := [(1, { size := 2, tail := 1 })] } }
        mustWait s c = true ∧ cqOf s c.ref = some (1, { size := 2, tail := 1 }) ∧ (1 + 1) % 2 = 0)) ∧
    (∃ d ∈ (withCmd (cmd0 .read .admitted)).hiu.cmds, d.ref ≠ { ref0 with cid := 6 }) ∧ ({ ref0 with peer := true } : CmdRef).peer = true := by decide
theorem wit_DoorbellsControllersAndMasks :
    (sqAt host 0 9 = none ∧ cqAt host 0 9 = none ∧ sqAt host 0 1 = some { size := 4, tail := 2, cqid := 1 } ∧ (4 : Nat) ≤ (4 : Half).toNat ∧
      (3 : Half).toNat < 4 ∧ cqAt host 0 1 = some { size := 2, ien := true, vector := 3 } ∧ host.hiu.held = []) ∧
    (0 ∈ controllers up ∧ (ctrlAt up 0).cc.getLsbD 0 = false ∧ (1 : Word).getLsbD 0 = true ∧ (ctrlAt up 0).cfs = false ∧ up.pwr.phase = .running ∧
      (let s : State := { up with bdy := { pendingSlot := 2, booted := 2 } }; s.bdy.pendingSlot ≠ 0 ∧ s.bdy.booted = s.bdy.pendingSlot) ∧
      1 ∉ controllers up ∧ (ctrlAt host 0).cc.getLsbD 0 = true) ∧
    (let s : State := { up with hiu := { ctrl := [(0, { intMask := 8, pendingBits := [3] })] } }
     3 ∈ (ctrlAt s 0).pendingBits ∧ (8 : Word).getLsbD 3 = true) := by decide
theorem wit_CommandsAreFetchedAndAdmitted :
    (let q : Sq := { size := 4, tail := 2, cqid := 1 }
     fetchable host 1 q = true ∧ q.classU = false ∧ sqAt host 0 1 = some q ∧ 2 ≤ burst { host with hiu := { host.hiu with ctrl := [(0, { cc := 1, rdy := true, features := [(1, 1)] })] } } 0 ∧
       1 ≤ burst host 0 ∧ 1 ≤ q.waiting ∧ host.cmd.fetchPaused = false ∧ host.cmd.admission = true ∧ (.read : IoKind) ≠ .other ∧
       fetchable up 1 q = false) ∧
    (let s : State := { host with hiu := { host.hiu with sqs := [(0, { size := 2, tail := 1, classU := true }), (1, { size := 4, tail := 2, cqid := 1 })] } }
     fetchable s 0 { size := 2, tail := 1, classU := true } = true ∧ classBWaits s = true) ∧
    (let c := cmd0 .read .fetched
     let s := withCmd c
     cmdAt s ref0 = some c ∧ c.st = .fetched ∧ nsCreateAllowed s = true ∧ nsAt s 1 = some { nsze := 32, attached := [1], writeSlot := 7 } ∧
       cntlid s 0 ∈ [1] ∧ firstOfQueue s c = true ∧ anaOf s 1 = 1 ∧ admitCheck s c { nsze := 32 } = .ok 0 ∧ admitCheck s c {} = .error .lbaRange ∧
       anaOf { s with hiu := { s.hiu with ana := [(1, 2)] } } 1 = 2 ∧ anaOf { s with hiu := { s.hiu with ana := [(1, 15)] } } 1 = 15 ∧
       anaOf { s with hiu := { s.hiu with ana := [(1, 3)] } } 1 = 3 ∧ ref0.peer = false ∧ s.spn.link = 2 ∧
       firstOfQueue { s with hiu := { s.hiu with cmds := [{ c with ref := { ref0 with cid := 4 } }, c] } } c = false ∧
       nsAt { s with hiu := { s.hiu with ns := [] } } 1 = none) ∧
    (let c := { zcmd .append with st := .fetched }; isWrite c = true ∧ admitCheck (withCmd c) c { csi := 2, nsze := 2097152 } = .ok 0 ∧
       cmdAt (withCmd c) ref0 = some c ∧ c.sqe.kind = .append) ∧
    (cmd0 .verify .fetched).sqe.kind = .verify ∧ (cmd0 .write .fetched).sqe.kind = .write ∧ (cmd0 .flush .fetched).sqe.kind = .flush := by decide +kernel
theorem wit_WritesAreCheckedEncryptedAndAcknowledged :
    (let c := cmd0 .write .admitted
     let s := withCmd c
     cmdAt s ref0 = some c ∧ nsAt s 1 = some { nsze := 32, attached := [1], writeSlot := 7 } ∧ isWrite c = true ∧ c.st = .admitted ∧ c.remote = false ∧
       noLanes s = false ∧ dirtyBytes s + 4096 * c.nlb < dirtyLimit s c ∧ dirtyLimit { s with mem := { replayed := true } } c ≤ dirtyBytes s + 4096 * c.nlb ∧
       piFail {} c [{}] = none ∧ piFail { piType := 1 } { c with sqe := { c.sqe with prchk := 4 } } [{ guardOk := false }] = some .guardCheck) ∧
    (let c := { cmd0 .write .admitted with waitFrom := some 0 }
     let s : State := { withCmd c with tck := { count := 2500000 } }
     cmdAt s ref0 = some c ∧ c.waitFrom = some 0 ∧ regBits s .cmdBpCfg 0 31 16 ≠ 0 ∧ 0 + regBits s .cmdBpCfg 0 31 16 * 250000 ≤ now s ∧
       now { s with tck := { count := 2499999 } } < 0 + regBits s .cmdBpCfg 0 31 16 * 250000) ∧
    (let c := cmd0 .write .data
     let s := withCmd c
     cipherRuns s = true ∧ 0 ∈ lanesInService s ∧ 0 ∈ encryptLanes s ∧ 0 < c.nlb ∧ look c.enc 0 = none ∧ lanesInService s ≠ [0] ∧ encrypted c = false ∧
       encrypted { c with enc := [(0, {})] } = true ∧ c.sqe.fua = false ∧ ({ c with remote := true } : Cmd).remote = true) ∧
    (let c := { cmd0 .write .committed with seq := 2 }
     let s : State := { withCmd c with cmd := { versions := [{ ver0 with mirrored := true }] } }
     cmdAt s ref0 = some c ∧ s.cmd.versions.find? (fun v => v.own && v.seq == c.seq) = some { ver0 with mirrored := true } ∧ s.cmd.prot = 0 ∧
       ackReached s c = true ∧ ackReached { s with cmd := { s.cmd with versions := [ver0] } } c = false ∧
       ackReached { s with cmd := { s.cmd with prot := 1, versions := [{ ver0 with vaulted := true }] } } c = true ∧
       ackReached { s with cmd := { s.cmd with prot := 2 } } c = false) := by decide +kernel
theorem wit_ReadsTakeTheNewestVersionBelow :
    (let c := cmd0 .read .admitted
     let s : State := { withCmd c with cmd := { versions := [ver0] } }
     versionBelow s 3 1 0 = some ver0 ∧ cmdAt s ref0 = some c ∧ isRead c = true ∧ noLanes s = false ∧ blocked s c = false ∧ c.sqe.fua = false ∧
       sourceOf s c 0 = 0 ∧ sourceOf (withCmd c) c 0 = 2 ∧ sourceOf { s with cmd := { lost := [(1, 0)] } } c 0 = 3 ∧
       blocked { s with hiu := { s.hiu with cmds := [{ cmd0 .write .admitted with ref := {}, sqe := { cid := 1, kind := .write, nsid := 1 }, seq := 2 }] } } c = true) ∧
    (let c := { cmd0 .read .media with sources := [(0, 0)] }
     let s : State := { withCmd c with cmd := { versions := [{ ver0 with ivs := [ivBytes 2 7 0] }] } }
     cmdAt s ref0 = some c ∧ (readBlock s c 0).any (fun b => ivSlot b.iv == 7) = true ∧ cipherRuns s = true ∧ 0 ∈ lanesInService s ∧ c.st = .media ∧
       look c.got 0 = none ∧ true = ((look c.sources 0).getD 2 == 0) ∧ (slotAt s 7).st = 2 ∧ (slotAt s 7).nsid = 1 ∧ 0 ∉ c.recheck ∧
       hostCheck { piType := 1 } { c with sqe := { c.sqe with prchk := 1 } } 1 = some .refTagCheck ∧ hostCheck {} c 7 = none ∧
       (∃ k, k < ({ c with nlb := 2 } : Cmd).nlb ∧ k ≠ 0 ∧ look c.got k = none)) ∧
    (let c := cmd0 .flush .admitted
     let s := withCmd c
     cmdAt s ref0 = some c ∧ c.remote = false ∧ flushOpen (barrierClose s c) c = false ∧ c.barrier = false ∧
       flushOpen { s with hiu := { s.hiu with cmds := [{ cmd0 .write .admitted with seq := 2 }] } } c = true) := by decide +kernel
theorem wit_ZonesFollowTheirActions :
    (let s := withZone { st := 4, wp := 1048576 }
     cmdAt s ref0 = some (zcmd .zoneSend) ∧ nsAt s 2 = some { csi := 2, nsze := 2097152, attached := [1], writeSlot := 7 } ∧ (1048576 : Dword).toNat % 1048576 = 0 ∧
       (1048576 : Dword).toNat < 2097152 ∧ (2097152 : Nat) ≤ (2097152 : Dword).toNat ∧ (zoneAt s 2 1).st = 4 ∧ (zoneAt s 2 0).st = 0 ∧ activeZones s < 1024 ∧ sortedT s.hiu.zones = true) ∧
    (let s : State := { withZone {} with hiu := { (withZone {}).hiu with zones := (List.range 1024).map (fun z => (131074 + z, { st := 3 })) } }
     1024 ≤ activeZones s ∧ (zoneAt s 2 0).st = 0 ∧ (zoneAt s 2 2).st = 3) ∧
    cmdAt (withCmd (zcmd .zoneRecv)) ref0 = some (zcmd .zoneRecv) ∧
    (let s := withZone { st := 1, wp := 8 }
     (zoneAt s 2 1).st ≠ 4 ∧ 1048576 % 1048576 + 1 ≤ 1048576 ∧ 1048576 ≠ 1048576 + (zoneAt s 2 1).wp ∧ (zoneAt s 2 1).active = true ∧
       1048576 < (1048576 + 1048575) % 1048576 + 2) := by decide +kernel
theorem wit_QueuesAreCreatedAndDeleted :
    queueLimit { host with tck := { split := true } } ≤ (32768 : Fin 65536).val ∧ (2 : Fin 65536).val < queueLimit host ∧ cqAt host 0 2 = none ∧ sqAt host 0 2 = none ∧
    cqAt host 0 1 ≠ none ∧ sqAt host 0 1 ≠ none ∧ vectorLimit host ≤ (2048 : Half).toNat ∧ (2047 : Half).toNat < vectorLimit host ∧
    (sqAt host 0 1 = some { size := 4, tail := 2, cqid := 1 } ∧ sortedT host.hiu.sqs = true ∧ (∀ e ∈ host.hiu.sqs, e.2.deleting = none) ∧ host.hiu.cmds = []) ∧
    (∃ d ∈ (withCmd (cmd0 .read .media)).hiu.cmds, d.ref.peer = false ∧ d.ref.ctrl = 0 ∧ d.ref.sqid = 1) ∧
    (let s : State := { host with hiu := { host.hiu with sqs := [] } }; cqAt s 0 1 ≠ none ∧ ∀ e ∈ s.hiu.sqs, e.1 / 65536 = 0 → e.2.cqid ≠ 1) := by decide
theorem wit_QueueDeletionWaitsForItsCommands :
    (let s := withCmd (cmd0 .read .media)
     sqAt s 0 1 = some { size := 4, tail := 2, cqid := 1 } ∧ sortedT s.hiu.sqs = true ∧ (∀ e ∈ s.hiu.sqs, e.2.deleting = none) ∧
       (∃ d ∈ s.hiu.cmds, d.ref.peer = false ∧ d.ref.ctrl = 0 ∧ d.ref.sqid = 1 ∧ d.ref ≠ { ref0 with cid := 9 }) ∧
       (∀ d ∈ s.hiu.cmds, d.ref = ref0) ∧ ref0 ≠ ({ cid := 8 } : CmdRef)) ∧
    (∀ d ∈ host.hiu.cmds, ¬ (d.ref.sqid = 1)) ∧ cqAt host 0 1 ≠ none := by decide
theorem wit_AdminCommandsAnswer :
    (0x7F : Byte) ∉ [(0x01 : Byte), 0x02, 0x03, 0x05, 0x0C, 0xBF, 0xC0, 0xC1, 0xC2, 0xC3, 0xC4] ∧
    (identifyData host 0 0x7F 1).isNone = true ∧ (identifyData host 0 3 30).isNone = true ∧
    (let c := cmd0 .write .fetched; cmdAt (withCmd c) ref0 = some c ∧ c.st = .fetched ∧ isRead c = false) ∧
    (let c := cmd0 .read .waiting; cmdAt (withCmd c) ref0 = some c ∧ isRead c = true ∧ c.granted = false ∧ c.got = [] ∧ c.remote = false) ∧
    (let c := cmd0 .write .admitted; isWrite c = true ∧ c.st ≠ .fetched) ∧ cmdAt host ref0 = none ∧
    featOk .power 1 = false ∧ featOk .arbitration 7 = true ∧ featOk .queues 0 = true ∧ saveable .queues = false ∧ saveable .arbitration = true ∧
    (let f (n : Nat) (ev : List (Nat × Nat)) : State := { up with hiu := { ctrl := [(0, { aers := List.replicate n 1, events := ev })] } }
     16 ≤ (ctrlAt (f 16 []) 0).aers.length ∧ (ctrlAt (f 15 []) 0).aers.length < 16 ∧ (ctrlAt (f 15 []) 0).events = [] ∧
       (ctrlAt (f 0 [(2, 4)]) 0).aers = [] ∧ (ctrlAt (f 0 [(2, 4)]) 0).events = [(2, 4)]) := by decide
theorem wit_NamespacesComeAndGo :
    let n : NsCreate := { csi := 2, nsze := 1048576, lbaf := 0, piType := 0, piFirst := false, anaGroup := 1, slot := 9, mode := 0 }
    (lifeCycle up ≠ 1 ∧ lifeCycle up ≠ 2) ∧ lifeCycle host = 1 ∧ lifeCycle sealed_ = 2 ∧ (host.spn.link = 2 ∧ host.spn.paired = true) ∧ up.spn.link ≠ 2 ∧
    nsFieldsOk n = true ∧ slotFree host 9 = true ∧ slotFree host 7 = false ∧ nsFieldsOk { n with piType := 1 } = false ∧
    freeNsid host 2 = some 3 ∧ freeNsid host 0 = none ∧ freeNsid { host with hiu := {} } 0 = some 1 ∧ nsAt host 3 = none ∧ nsAt host 2 ≠ none ∧
    (1 ∈ allControllers host ∧ 2 ∉ allControllers host ∧ 1 ∈ [1] ∧ 3 ∉ [1]) := by decide

theorem wit_CommandsAreFetchedAndAdmitted_admin :
    (let c := cmd0 .admin .fetched; cmdAt (withCmd c) ref0 = some c ∧ c.st = .fetched ∧ c.sqe.kind = .admin ∧ (withCmd c).cmd.admission = true) ∧
    (host.hiu.cmds.filter (fun c => !c.ref.peer)).length + 1 ≤ 131072 := by decide
theorem wit_WritesAreCheckedEncryptedAndAcknowledged_pieces :
    (let c := { cmd0 .write .data with nlb := 65 }; readyPieces c ≤ c.pieces ∧ readyPieces c < pieceCount c ∧ c.remote = false) ∧
    (let c := { cmd0 .write .data with nlb := 65, enc := (List.range 64).map (fun i => (i, {})) }
     c.pieces < readyPieces c ∧ readyPieces c < pieceCount c) ∧
    (let c := { cmd0 .write .data with enc := [(0, {})] }
     readyPieces c = pieceCount c ∧ c.pieces = 0 ∧ 0 < c.nlb ∧ ∀ v ∈ (withCmd c).cmd.versions, v.own = true → v.seq ≠ c.seq) ∧
    (let c := { cmd0 .write .admitted with remote := true }; cmdAt (withCmd c) ref0 = some c ∧ c.remote = true ∧ c.peerDone = false) ∧
    ({ cmd0 .write .committed with sqe := { cid := 5, kind := .write, nsid := 1, fua := true } } : Cmd).sqe.fua = true := by decide +kernel
theorem wit_ReadsTakeTheNewestVersionBelow_copies :
    (let c := { cmd0 .read .media with sources := [(0, 0)] }
     copyStands (withCmd c) c 0 = false ∧ look c.sources 0 = some 0) ∧
    (let c := { cmd0 .read .media with sources := [(0, 1)], recheck := [0] }; ((look c.sources 0).getD 2 == 0) = false ∧ 0 ∈ c.recheck) ∧
    (let c := cmd0 .read .admitted; ∃ i, i < ({ c with nlb := 2 } : Cmd).nlb ∧ sourceOf (withCmd c) c i = 2) := by decide +kernel

/-- A staged firmware image of kind 2 with a one-dword body, but for what the signature functions say of it. -/
def image0 : Bytes := [0x53, 0x4B, 0x46, 0x57, 2, 0, 0, 0, 0, 0, 0, 0, 4, 0, 0, 0] ++ zeros 240 ++ zeros 4
/-- A mailbox message of a type with a tag and a body (R364). -/
def mail (type tag : Nat) (body : Bytes) : Bytes :=
  let h := natLe 2 type ++ [0, 0] ++ natLe 4 tag ++ natLe 4 body.length
  h ++ natLe 4 (crc32c (h ++ body)).toNat ++ body
def withMail (s : State) (x : Nat × Nat × Bytes) : State := { s with bdy := { s.bdy with mboxMsg := some x, mboxBusy := true } }
/-- A life-cycle request from Manufacturing to Provisioned (R342, which asks no signature of it). -/
def forward : Bytes := [1] ++ zeros 7 ++ natLe 8 9 ++ natLe 16 5 ++ zeros 244
def quiet : State := { pair with spn := { pair.spn with bays := [] }, bdy := { serial := 5 }, kst := { nonce := some 9 } }

/-- The staged image of the witness below. -/
def fwStaged : State := { up with bdy := { staging := some image0 } }
/-- The image in slot 2. -/
def fwSlot2 : State := { up with bdy := { fwSlots := [(2, parseImage image0)] } }

theorem commitFault_none (s : State) (slot : Nat) (b : Bytes) (hb : s.bdy.staging = some b) (h0 : stagingBusy s false = false)
    (h1 : slot = 1 ∨ slot = 2) (h2 : fwValid s (parseImage b) = true) (h3 : fwFits (parseImage b) = true)
    (h4 : runningSlot s (parseImage b).kind ≠ slot) (hr : lifeRetired s = false) : commitFault s false slot = none := by
  have h5 : ¬ (slot ≠ 1 ∧ slot ≠ 2) := by omega
  simp [commitFault, hb, h0, h2, h3, h4, h5, hr]
theorem wit_staged_image_is_committed (h : fwValid fwStaged (parseImage image0) = true) : commitFault fwStaged false 2 = none :=
  commitFault_none _ _ _ rfl (by decide) (.inr rfl) h (by decide +kernel) (by decide +kernel) (by decide)
theorem wit_staged_image_is_activated (h : fwValid fwStaged (parseImage image0) = true) : activateFault fwStaged false 2 = none := by
  have h1 : fwStaged.bdy.staging.isSome = true := rfl
  have h2 : prohibited fwStaged (stagedImage fwStaged) = false := by decide +kernel
  have h3 : lifeRetired fwStaged = false := by decide
  simp [activateFault, wit_staged_image_is_committed h, h1, h2, h3]
theorem wit_valid_slot (h : fwValid fwSlot2 (parseImage image0) = true) : slotValid fwSlot2 2 = true := by
  have h1 : look fwSlot2.bdy.fwSlots 2 = some (parseImage image0) := rfl
  have h2 : (parseImage image0).kind = 2 := by decide +kernel
  simp [slotValid, h1, h, h2]
theorem wit_FirmwareIsDownloadedCommittedAndActivated :
    ((zeros 3).length % 4 ≠ 0 ∧ (zeros 4).length % 4 = 0 ∧ 4 * (0 : Word).toNat + (zeros 4).length ≤ Config.fwSlotBytes ∧
      Config.fwSlotBytes < 4 * (0xFFFFFFFF : Word).toNat + 4 ∧ stagingBusy up false = false ∧
      stagingBusy { up with bdy := { commitBusy := true } } false = true) ∧
    (commitFault fwStaged false 3 = some .invalidFwSlot ∧ commitFault up false 2 = some .invalidFwImage ∧
      activateFault up false 1 = some .invalidFwSlot ∧ stagingBusy fwStaged false = false ∧ slotValid up 1 = false ∧
      ({ up with mem := { dumping := true } } : State).mem.dumping = true) ∧
    (let s : State := { up with cmd := { fetchPaused := true, pausedAt := 900 }, pwr := { up.pwr with activating := 2 } }
     s.cmd.fetchPaused = true ∧ s.pwr.activating ≠ 0 ∧ s.bdy.booted ≠ s.pwr.activating ∧ (∀ c ∈ s.hiu.cmds, c.st = .fetched) ∧
       now s < s.cmd.pausedAt + 25000 ∧ (∃ c ∈ (withCmd (cmd0 .read .media)).hiu.cmds, c.st ≠ .fetched) ∧
       ({ s with bdy := { booted := 2 } } : State).bdy.booted = s.pwr.activating ∧ s.cmd.pausedAt + 50000 ≤ now { s with tck := { count := 50900 } }) ∧
    up.cmd.fetchPaused = false := by decide +kernel

theorem wit_MailboxCarriesOneMessage :
    ((zeros 3).length % 4 ≠ 0 ∧ (zeros 16).length % 4 = 0 ∧ mailOk (zeros 16) = false ∧
      ({ up with bdy := { mboxBusy := true } } : State).bdy.mboxBusy = true ∧ mailOk (mail 7 1 []) = true ∧ (mailParts (mail 7 1 [])).1 = 7 ∧
      mailOk (mail 3 1 [0, 1]) = true ∧ (mailParts (mail 3 1 [0, 1])).1 = 3 ∧ mailOk (mail 1 1 []) = true ∧ (mailParts (mail 1 1 [])).1 = 1) ∧
    (up.spn.paired = false ∧ pair.spn.paired = true ∧ pair.spn.link = 2 ∧ transitionReady quiet = true ∧
      transitionReady { quiet with qre := { vol := 1 } } = false) ∧
    ((16 : Half).toNat % 4 = 0 ∧ ({ up with bdy := { mboxReady := true, mboxLen := 16 } } : State).bdy.mboxReady = true) ∧
    ((withMail up (2, 7, zeros 8)).bdy.mboxMsg = some (2, (7 : Word).toNat, zeros 8) ∧ (zeros 8).length ≠ 152) ∧
    ((withMail up (3, 7, [1, 15])).bdy.mboxMsg = some (3, (7 : Word).toNat, [1, 15]) ∧ lifeCycle up = 0 ∧ lifeCycle host = 1 ∧ lifeCycle sealed_ = 2) ∧
    (let s := withMail host (4, 7, natLe 4 (1 : Word).toNat ++ natLe 2 (9 : Half).toNat)
     s.bdy.mboxMsg = some (4, (7 : Word).toNat, natLe 4 (1 : Word).toNat ++ natLe 2 (9 : Half).toNat) ∧
       nsAt s (1 : Word).toNat = some { nsze := 32, attached := [1], writeSlot := 7 } ∧ slotFree s 9 = true ∧ nsCreateAllowed s = true ∧
       slotFree s 7 = false ∧ nsCreateAllowed up = false) ∧
    (sheetInHand (withMail up (5, 7, natLe 4 0 ++ natLe 4 0 ++ [1])) 7 0 false [1] = true ∧
      sheetInHand (withMail up (5, 7, natLe 4 262143 ++ natLe 4 1 ++ [1])) 7 262143 true [1] = true ∧ sheetStatus up [1] = 1) ∧
    up.bdy.mboxMsg = none := by decide +kernel
theorem wit_a_long_post : ∃ m : Bytes, 4096 < m.length ∧ m.length % 4 = 0 := by
  refine ⟨zeros (4 * 1025), ?_⟩
  generalize h : 4 * 1025 = n
  have e : (zeros n).length = n := List.length_replicate ..
  omega
/-- A key blob for slot 8, but for what the unwrapping says of it. -/
def blob0 : Bytes := [0x53, 0x4B, 0x4B, 0x57, 8, 0] ++ zeros 146
theorem wit_key_imported (k : BitVec 256) (h : Config.unwrapKey 1 blob0 = some k) (h2 : (Config.kcv k).toNat = 0) : importResult host blob0 = 0 := by
  have h1 : blobOk blob0 = true := by decide +kernel
  have h3 : (slotAt host (field blob0 4 2)).st = 0 := by decide +kernel
  have h4 : field blob0 0x94 4 = 0 := by decide +kernel
  have h5 : lifeCycle host = 1 := by decide +kernel
  simp [importResult, h, h1, h2, h3, h4, h5]
theorem wit_KeysAndLifeCycleMoveForward :
    (barSealed host = false ∧ importResult up [] = 5 ∧ importResult host (zeros 152) = 1 ∧ barSealed sealed_ = true) ∧
    (let s : State := { up with kst := { slots := [(2047, { st := 1, kcv := 3 }), (8, { st := 2, nsid := 4 })] } }
     (slotAt s (2047 : Fin 2048)).st = 1 ∧ (slotAt s (2047 : Fin 2048)).kcv = 3 ∧ (slotAt s (2047 : Fin 2048)).nsid = 0 ∧ (slotAt s (8 : Fin 2048)).nsid ≠ 0 ∧
       (slotAt s (0 : Fin 2048)).st ≠ 1) ∧
    (let s := withMail quiet (1, 7, forward)
     s.bdy.mboxMsg = some (1, (7 : Word).toNat, forward) ∧ transitionStatus s forward = 0 ∧
       transitionStatus { s with kst := {} } forward = 3 ∧ transitionStatus s (zeros 8) = 1 ∧ transitionStatus { s with spn := {} } forward = 3) ∧
    (let s : State := { up with kst := { transition := some (1, 1000) } }
     s.kst.transition = some (1, 1000) ∧ 1000 ≤ now s ∧ now { s with tck := { count := 999 } } < 1000) ∧ up.kst.transition = none ∧ 0 ∈ controllers up := by
  decide +kernel
theorem wit_TheBinderyWatchesItsTwin :
    (host.cph.drbg = 0 ∧ State.reset.cph.drbg ≠ 1 ∧ ({ up with cph := { drbg := 1 } } : State).cph.drbg = 1) ∧
    (up.bdy.halted = false ∧ alive up = true ∧ alive State.reset = false ∧ up.bdy.released = false) ∧
    (let s : State := { pair with bdy := { released := true, releasedAt := 750 }, tck := { count := 250750 } }
     s.bdy.released = true ∧ s.bdy.releasedAt + 250000 ≤ now s ∧ now { s with tck := { count := 250749 } } < s.bdy.releasedAt + 250000 ∧
       shadows s 4 = true ∧ shadows s 0 = false) ∧
    (let s := writeColophon up 1
     s.bdy.colophon[s.bdy.colophon.length - 1 - (0 : Word).toNat]?.isSome = true ∧ (0 : Word).toNat < s.bdy.colophon.length ∧
       up.bdy.colophon.length ≤ (0 : Word).toNat) := by decide
theorem wit_TheEndpointAnswersOnSmbus :
    (endpointUp up = true ∧ endpointUp State.reset = false ∧ (8 : Byte) ∉ [(0 : Byte), 0xFF, 1, 4, 5] ∧ (1 : Fin 2).val ∉ controllers up ∧ (0 : Fin 2).val ∈ controllers up) ∧
    (0x7F : Byte) ∉ [(0x06 : Byte), 0x02, 0x0A] ∧ (logPage up (2 : Byte).toNat).isSome = true ∧
    stagingBusy { up with bdy := { staging := some [], stagingMi := false } } true = true ∧ stagingBusy up true = false ∧
    (0xFFFFFFFF : Word).toNat + 1 > Config.fwSlotBytes ∧
    (let s : State := { up with bdy := { staging := some image0, stagingMi := true } }
     (stagedImage s).kind.toNat = (2 : Half).toNat ∧ (stagedImage s).kind = 2 ∧ stagingBusy s true = false) := by decide

/-- A twin of a Retired pair. -/
def retired0 : State := { up with kst := { lc := { a := 4, b := 4, c := 4 } } }
theorem wit_Retired : lifeRetired retired0 = true ∧ lifeRetired up = false ∧ lifeCycle retired0 = 4 := by decide
theorem wit_FirmwareIsDownloadedCommittedAndActivated_late :
    (let s : State := { up with cmd := { fetchPaused := true, pausedAt := 900 }, pwr := { up.pwr with activating := 2 }, bdy := { booted := 2 } }
     s.bdy.booted = s.pwr.activating ∧ now s ≤ s.cmd.pausedAt + 50000 ∧ s.cmd.pausedAt + 50000 < now { s with tck := { count := 50901 } } ∧
       s.cmd.pausedAt + 50000 ≤ now { s with tck := { count := 50900 } } ∧ now { s with tck := { count := 50899 } } < s.cmd.pausedAt + 50000) ∧
    (let s : State := { up with cmd := { fetchPaused := true, pausedAt := 900 }, pwr := { up.pwr with activating := 2 } }
     s.cmd.pausedAt + 25000 ≤ now { s with tck := { count := 25900 } }) ∧
    (prohibited { up with mem := { replaying := true } } {} = true ∧ (7 < 8 ∧ (pairAt { up with spn := { bays := [(7, { resync := 1 })] } } 7).resync ≠ 0)) := by decide
theorem wit_MailboxCarriesOneMessage_fetch :
    ((16 : Half).toNat % 4 = 0 ∧ (16 : Half).toNat ≤ 4096 ∧ (4096 : Half).toNat ≤ 4096 ∧ 4096 < (4100 : Half).toNat ∧ (2 : Half).toNat % 4 ≠ 0) ∧
    (up.bdy.mboxReady = false ∧ up.bdy.mboxBusy = false ∧ (withMail up (2, 7, [])).bdy.mboxBusy = true) ∧
    (let s : State := { up with bdy := { mboxRsp := winWrite [] 0 (mail 1 7 []), mboxLen := 16 } }
     s.bdy.mboxRsp = winWrite [] 0 (mail 1 7 []) ∧ s.bdy.mboxLen = (mail 1 7 []).length ∧ (mail 1 7 []).length % 4 = 0 ∧ 0 < (mail 1 7 []).length) ∧
    ((2 ≤ (mailParts (mail 2 1 [])).1 ∧ (mailParts (mail 6 1 [])).1 ≤ 6 ∧ mailOk (mail 6 1 []) = true ∧ mailOk (mail 0 1 []) = true ∧ (mailParts (mail 0 1 [])).1 = 0)) ∧
    ((7 : Half).toNat < 2048 ∧ ({ nsze := 32, attached := [1], writeSlot := 7 } : Ns).writeSlot ≠ (9 : Half).toNat) ∧
    (sheetInHand (withMail retired0 (5, 7, natLe 4 0 ++ natLe 4 0 ++ [1])) 7 0 false [1] = true ∧ lifeRetired (withMail retired0 (5, 7, [])) = true) ∧
    (sheetInHand (withMail up (5, 7, natLe 4 262144 ++ natLe 4 0 ++ [1])) 7 262144 false [1] = true ∧ 262144 < (262144 : Word).toNat + ([1] : Bytes).length ∧
      (262143 : Word).toNat + ([1] : Bytes).length ≤ 262144) := by decide +kernel
theorem wit_KeysAndLifeCycleMoveForward_commit :
    (let s : State := { up with kst := { transition := some (1, 1000) } }
     s.kst.transition = some (1, 1000) ∧ now s = 1000 ∧ now { s with tck := { count := 1001 } } ≠ 1000 ∧ ∀ c, s.bdy.colophon.getLast? = some c → c.stitch + 2500 ≤ s.tck.count) ∧
    ((1 : Nat) = 1 ∧ (1 : Nat) ≠ 2 ∧ ((1 : Nat) = 1 ∨ 1 = 2) ∧ (1 : Nat) ≠ 3 ∧ (2 : Nat) ≠ 3) ∧ ¬ (lifeCycle up = 1 ∨ lifeCycle up = 2) := by
  refine ⟨⟨rfl, by decide, by decide, fun c h => by cases h⟩, by decide, by decide⟩
theorem wit_TheEndpointAnswersOnSmbus_update :
    ((1 : Half) = 1 ∧ (3 : Half) ≠ 1 ∧ (3 : Half) ≠ 2 ∧ (0 : Word).toNat + (zeros 4).length ≤ Config.fwSlotBytes ∧ 4 < (5 : Byte).toNat ∧
      (255 : Byte).toNat ≤ 255 ∧ 15 < (16 : Byte).toNat ∧ (16 : Byte) ≠ 255 ∧ (15 : Byte).toNat ≤ 15 ∧ 3 < (4 : Byte).toNat) ∧
    (let s : State := { up with bdy := { staging := some ([0x53, 0x4B, 0x46, 0x57, 1]), stagingMi := true } }
     (stagedImage s).kind = 1 ∧ stagingBusy s true = false) := by decide +kernel

/-- Bay 0 of `pair` as given, with a disc and a front end that obeys this twin. -/
def withBay (y : Bay) : State := { pair with bays := [(0, y)], ports := [(0, { landed := some { disc := true, obeys := 0 } })] }
/-- A bay in bring-up at a step. -/
def rising (n : Nat) : Bay := { mode := 1, req := 1, bringing := true, bringup := n }
/-- Bay 4 shadowed as given, bay 0 run as given. -/
def twinBays (p q : PairBay) : State := { pair with spn := { pair.spn with bays := [(0, { p with role := 1 }), (4, { q with role := 2 })] } }

theorem wit_ModesChangeAtLeafBoundariesAndThroughHold :
    ((6 : BitVec 4).toNat > 5 ∧ (∃ b ∈ baysIn 1, peerRuns { pair with ports := [(0, { landed := some { obeys := 1 } })] } b = true) ∧
      (let s := withBay { mode := 1, req := 1 }; (∀ b ∈ baysIn 1, peerRuns s b = false) ∧ (∀ b ∈ baysIn 1, modeRefused s b 2 = false)) ∧
      (∃ b ∈ baysIn 1, modeRefused (withBay { safeStop := true }) b 5 = true) ∧ (∃ b ∈ baysIn 1, modeRefused pair b 1 = true) ∧
      (∀ b ∈ baysIn 1, modeRefused (withBay { mode := 5, req := 5 }) b 1 = false) ∧
      (∀ b ∈ baysIn 1, modeRefused (withBay { mode := 1, holdEntry := true }) b 1 = false)) ∧
    (let s := withBay { mode := 1, req := 2 }
     (bayAt s 0).req ≠ (bayAt s 0).mode ∧ (bayAt s 0).holdEntry = false ∧ (bayAt s 0).mode ≠ 5 ∧ holder s (1 : Fin 16) = none ∧ (opuAt s (1 : Fin 16)).run = none ∧
       ((bayAt s 0).done ||| BitVec.ofNat 2 (2 ^ 1)) ≠ 3 ∧ ((bayAt (withBay { mode := 1, req := 2, done := 1 }) 0).done ||| BitVec.ofNat 2 (2 ^ 1)) = 3) ∧
    (let s := withBay { mode := 1, holdEntry := true, grants := [(0, 4)] }
     (bayAt s 0).grants ≠ [] ∧ now s < (bayAt s 0).holdAt + regBits s .pwrModeCfg 0 15 0 * 250 ∧
       (bayAt s 0).holdAt + regBits s .pwrModeCfg 0 15 0 * 250 ≤ now { s with tck := { count := 25000 } } ∧ (bayAt (withBay { holdEntry := true }) 0).grants = []) ∧
    (let s := withBay { mode := 1, holdEntry := true }
     (∀ n ∈ bayCells s 0, (cellAt s n).st = .parked) ∧ (unitAt s 0).st = .off ∧ (bayAt s 0).enablePending = none ∧
       (bayAt (withBay { mode := 1, holdEntry := true, enablePending := some 2 }) 0).enablePending = some 2) := by decide
theorem wit_BaysAreControlledAndBroughtUp :
    (let s : State := { pair with ports := [(0, { landed := some { obeys := 1 } })] }; peerRuns s 0 = true ∧ s.spn.link = 2 ∧ obeyed up 0 = 3 ∧
       peerRuns { up with ports := s.ports } 0 = true) ∧
    (let s := withBay { mode := 1, safeStop := true }
     peerRuns s 0 = false ∧ obeyed s 0 ≠ 3 ∧ (bayAt s 0).safeStop = true ∧ runs s 0 = true ∧
       (axisAt { s with axes := [(0, { st := .idle })] } 0).st ≠ .down ∧ (bayAt (withBay { mode := 1 }) 0).mode ≠ 5) ∧
    (let f (n : Nat) := withBay (rising n)
     (bayAt (f 0) 0).bringing = true ∧ runs (f 0) 0 = true ∧ laserTurn (f 0) = true ∧ (portAt (f 0) 0).readEn.toNat % 16 = 0 ∧
       laserTurn { f 0 with bays := [(0, rising 0), (1, { emitAt := 999 })], bnd := { active := some { power := { laserMs := 1 } } } } = false ∧
       (portAt { f 0 with ports := [(0, { readEn := 0x0F })] } 0).readEn.toNat % 16 ≠ 0 ∧ (bayAt (f 1) 0).bringup = 1 ∧
       cellOf { f 1 with cells := [(0, { named := true })] } 0 0 = some 0 ∧ (cellAt { f 1 with cells := [(0, { named := true })] } 0).st = .parked ∧
       spindleTurn (f 2) 0 = true ∧
       spindleTurn { pair with bays := [(0, rising 2), (1, rising 3)], spn := { pair.spn with bays := [(0, { role := 1 }), (1, { role := 1 })] } } 0 = false ∧
       (unitAt (f 3) 0).locked = false ∧ (bayAt (f 4) 0).bringup = 4) ∧
    (let s : State := { ready with bays := [(0, rising 3)], cells := [loop0 0, loop0 1, loop0 2, loop0 3] ++ [0, 1, 2, 3].map (fun l => (4 + l, { (loop0 l).2 with opu := 1 })) }
     (unitAt s 0).locked = true ∧ loopsClosed s 0 = true ∧ loopsClosed s 1 = true) ∧
    (let s : State := { withBay { rising 3 with spinAt := 1000 } with units := [(0, { target := 1500 })], bnd := { active := some { power := { handPct := 95, handMs := 1 } } } }
     3 ≤ (bayAt s 0).bringup ∧ (bayAt s 0).handed = false ∧ ¬ (((95 * 1500 : Nat) : Int) ≤ 100 * unitRpm (spdPar s 0) (unitAt s 0)) ∧
       ¬ (1000 + 1 * 250 ≤ now s) ∧ (unitAt s 0).fault = false ∧ (unitAt { s with units := [(0, { fault := true })] } 0).fault = true) := by decide
theorem wit_PowerAndHeatAreHeldDown :
    (let k : State := up
     k.pwr.phase = .running ∧ 4 * (regBits k .pwrThermCfg 0 15 8 : Int) ≤ composite [400] ∧ 4 * (regBits k .pwrThermCfg 0 7 0 : Int) ≤ composite [399] ∧
       composite [399] < 4 * (regBits k .pwrThermCfg 0 15 8 : Int) ∧ composite [379] < 4 * (regBits k .pwrThermCfg 0 7 0 : Int) ∧ k.pwr.therm ≠ 3 ∧
       (let s : State := { k with pwr := { k.pwr with overRun := 3, throttle := 14 } }
        twinCap s < (581 : Half).toNat ∧ regBits s .pwrModeCfg 0 31 24 ≤ s.pwr.overRun + 1 ∧ s.pwr.throttle < 15) ∧
       (let s : State := { k with pwr := { k.pwr with underRun := 99, throttle := 1 } }
        (559 : Half).toNat + 20 < twinCap s ∧ ¬ ((560 : Half).toNat + 20 < twinCap s) ∧ regBits s .pwrModeCfg 0 23 16 ≤ s.pwr.underRun + 1 ∧ 0 < s.pwr.throttle)) ∧
    ({ up with pwr := { phase := .thermal } } : State).pwr.phase = .thermal ∧
    (let s : State := { up with bdy := { temps := [100, 420] } }
     420 ≤ composite s.bdy.temps ∧ s.mem.dumping = false ∧ s.mem.replaying = false ∧ composite up.bdy.temps < 420) ∧
    (let s : State := { pair with pwr := { pair.pwr with failRun := 2 } }
     alive s = true ∧ 2 ≤ s.pwr.failRun ∧ alive State.reset = false ∧ up.pwr.failRun < 2 ∧ alive { s with mem := { replaying := true } } = true ∧ runs s 0 = true ∧
       s.mem.replayed = false ∧ s.mem.vault ≠ 2) := by decide
theorem wit_TheVaultKeepsWhatWasHeld :
    (let i : Image := { complete := true, versions := [ver0] }
     let s : State := { up with pwr := { phase := .starting, stage := 8 }, mem := { image := some i, replaying := true } }
     s.pwr.phase = .starting ∧ s.mem.replaying = true ∧ s.pwr.halted = false ∧ s.mem.image = some i ∧ i.complete = true ∧ s.mem.replayed = false ∧
       ver0 ∈ i.versions ∧ (ver0.twin, ver0.seq) = (0, 2) ∧ ({ i with complete := false } : Image).complete = false) ∧
    (({ up with mem := { dumping := true, image := some {} } } : State).mem.dumping = true ∧ up.mem.dumping = false ∧ up.mem.image = none) ∧
    (let s : State := { up with mem := { replayed := true, erased := 2 ^ 30 } }
     s.mem.replayed = true ∧ dirtyBytes s + controlBytes s ≤ armedBytes s ∧ armedBytes up < dirtyBytes up + controlBytes up) ∧
    (let s : State := { up with mem := { log := [ver0] } }; ver0 ∈ s.mem.log ∧ versionSealed s ver0.twin ver0.seq = false) ∧
    (let g : Group := { born := 984 }
     g.born + 16 ≤ now up ∧ now { up with tck := { count := 999 } } < g.born + 16 ∧ g.bytes < 4194304 ∧ up.mem.closing = [] ∧
       ({ up with mem := { closing := [g] } } : State).mem.closing = g :: []) ∧
    (let s : State := { up with mem := { dimm0 := 16 } }
     let e := fun (w : Nat) => decideSyndrome (syndrome w)
     burns s = true ∧ burns up = false ∧ s.mem.burnLine < dramLines s ∧ e 0 = .clean ∧ e 1 = .dataBit 0 ∧ e 3 = .uncorrectable ∧ s.mem.injArmed = false) ∧
    (barSealed sealed_ = true ∧ barSealed up = false ∧ 8 < (0x90000000 : Word).toNat / 2 ^ 28 ∧ (0x80000000 : Word).toNat / 2 ^ 28 ≤ 8 ∧
      ({ up with mem := { replaying := true } } : State).mem.replaying = true) := by decide +kernel

theorem wit_ModesChangeAtLeafBoundariesAndThroughHold_leaf :
    (let s := withBay { mode := 1, req := 2 }; insideLeaf s (1 : Fin 16) = false) ∧
    (let s : State := { withBay { mode := 1, req := 2 } with wrc := { opus := [(1, { run := some (run0 none none) })] } }
     insideLeaf s (1 : Fin 16) = true ∧ (opuAt s 1).run ≠ none) ∧
    (∃ a, holder (withBay { mode := 1, grants := [(0, 4)] }) 0 = some a ∧ a ≠ 1 ∧ a ≠ 6) ∧
    insideLeaf (withBay { mode := 1, grants := [(0, 6)] }) 0 = false ∧
    (let s := withBay { mode := 1, holdEntry := true, grants := [(0, 4), (1, 4)] }
     (∀ n ∈ bayCells s (0 : Fin 8), (cellAt s n).st = .parked) ∧ (∀ g ∈ (bayAt s 0).grants, g.1 = 0 ∨ g.1 = 1)) ∧
    modeRefused { withBay { mode := 1 } with kst := { lc := { a := 3, b := 3, c := 3 } } } 0 5 = true ∧ bayWindow { up with } 0 = false := by decide
theorem wit_BaysAreControlledAndBroughtUp_orders :
    (accepts (withBay { mode := 1 }) 0 = true ∧ spdBad (unitAt (withBay { mode := 1 }) 0) 1 = false ∧ (unitAt (withBay { mode := 1 }) 0).queue.length < 4) ∧
    (withQuire { quire0 with st := 2 }).qre.unmounting = false ∧ ({ up with qre := { vol := 1, unmounting := true } } : State).qre.unmounting = true ∧
    (let s := withBay { mode := 1, safeStop := true }
     accepts s 0 = true ∧ ∃ n ∈ bayAxes 0, (axisAt { s with axes := [(n, { st := .idle })] } n).st ≠ .down) ∧
    (let s : State := { withBay { mode := 1, safeStop := true } with cells := [(7, { cell0 with st := .parked })] }
     7 ∈ bayCells s (0 : Fin 8) ∧ (cellAt s 7).st = .parked) := by decide
theorem wit_PowerAndHeatAreHeldDown_replay :
    (let s : State := { up with bdy := { temps := [420] }, mem := { replaying := true } }
     420 ≤ composite s.bdy.temps ∧ s.mem.dumping = false ∧ s.mem.replaying = true ∧ s.pwr.therm ≠ 3) ∧
    (let s : State := { up with mem := { dumping := true } }; s.mem.dumping = true) := by decide
theorem wit_TheVaultKeepsWhatWasHeld_lost :
    (let i : Image := { versions := [ver0] }
     (∀ e ∈ commitPages i.versions, e.1 = ver0 → ∀ f ∈ commitPages i.versions, (f.1.twin, f.1.seq) ∈ ([] : List (Nat × Nat)) → e.2 < f.2) ∧
       (ver0.twin, ver0.seq) ∈ [(0, 2)] ∧ 0 < ver0.nlb) ∧
    (let s : State := { up with mem := { replayed := true, erased := 2 ^ 30 } }
     dirtyBytes s + controlBytes s ≤ armedBytes s ∧ s.mem.dumping = false) ∧
    (let s : State := { up with mem := { dimm0 := 16 } }
     lineHolds s 0 .other = .other ∨ lineHolds s 0 .folioMap = .folioMap) := by decide +kernel

def beat : Heartbeat := { count := 1000, sender := 1 }
def withLink (n : Nat) (p m : Nat) : State := { pair with spn := { pair.spn with link := n, present := p, missing := m } }
/-- A front end in command of port 0, and a whole frame for it of its own count. -/
def withBfe (x : Bfe) : State := { up with bfes := [(0, x)] }
def frame0 : CmdFrame := { stitch := 1000, u := List.replicate 8 5 }
/-- A quire of this twin whose leaf 0 lies at the other. -/
def peerQuire : State := withQuire { quire0 with leaves := [{ surface := 8, layer := 0, frame := 8, peer := true }] }

theorem wit_SpineLinkIsLostAndRestored :
    (beat.sender.val ≠ pair.tck.twinId ∧ pair.pwr.phase ≠ .porLow ∧ pair.spn.link ≠ 0 ∧ (beat.count.toNat : Int) = now pair + pair.tck.pairOffset ∧
      (({ beat with count := 999 } : Heartbeat).count.toNat : Int) ≠ now pair + pair.tck.pairOffset ∧ (withLink 3 0 0).spn.link ≠ 2 ∧
      (∀ h, pair.spn.peer = some h → (h.count.toNat : Int) ≠ now pair + pair.tck.pairOffset) ∧ runs pair 0 = true ∧
      (let s := { pair with spn := { pair.spn with peer := some beat } }; s.spn.peer = some beat)) ∧
    ((withLink 2 0 15).spn.missing < 16 ∧ 16 ≤ (withLink 2 0 16).spn.missing ∧ shadows pair 4 = true ∧ pair.spn.peerAlive = false ∧
      ({ pair with spn := { pair.spn with peerAlive := true } } : State).spn.peerAlive = true ∧ up.spn.link ≠ 2) ∧
    ((withLink 3 256 0).spn.link = 3 ∧ 256 ≤ (withLink 3 256 0).spn.present ∧ (withLink 3 255 0).spn.present < 256 ∧ (withLink 1 0 0).spn.link = 1) ∧
    (pair.spn.lanes.getLsbD (7 : Fin 8) = true ∧ up.spn.lanes.getLsbD (7 : Fin 8) = false ∧ pair.spn.lanes &&& ~~~((1 : Byte) <<< 7) ≠ 0 ∧
      ({ up with spn := { lanes := 0x80 } } : State).spn.lanes &&& ~~~((1 : Byte) <<< 7) = 0) ∧
    (let f (n q e : Nat) (a : Bool) : Spn := { link := n, aliveQuiet := q, aliveEdges := e, peerAlive := a }
     2 ≤ (f 2 2 0 true).aliveQuiet ∧ (f 2 1 0 true).aliveQuiet < 2 ∧ 256 ≤ (f 2 0 256 false).aliveEdges ∧ (f 2 0 255 false).aliveEdges < 256) := by
  decide
theorem wit_TwinsPairAndHandBack :
    (let s : State := { pair with spn := { pair.spn with paired := false } }
     s.spn.link = 2 ∧ s.spn.paired = false ∧ alive s = true ∧ s.mem.replaying = false ∧ (0 : Fin 2).val = s.tck.twinId ∧ (1 : Fin 2).val ≠ s.tck.twinId ∧
       (0 : BitVec 128) = s.bdy.serial ∧ (1 : BitVec 128) ≠ s.bdy.serial ∧ (s.bnd.active.map (fun b => b.digest)).getD 0 = 0 ∧
       (s.bnd.active.map (fun b => b.digest)).getD 0 ≠ 1) ∧
    (let s : State := { pair with spn := { pair.spn with awaitBinding := true } }
     s.spn.awaitBinding = true ∧ s.spn.link = 2 ∧ (∀ b, b < 8 → runs s b = true → (bayAt s b).mode = 5) ∧ (loadChecks s [] true true).code ≠ 0 ∧ up.spn.awaitBinding = false) ∧
    (barSealed up = false ∧ barSealed sealed_ = true) ∧
    (let s : State := { pair with spn := { pair.spn with bays := [(7, { role := 1, peerReady := true, returnReq := true, returnAt := 1000 })] } }
     mayReturn s 7 = true ∧ (pairAt s 7).handover = 0 ∧ (bayAt s 7).grants = [] ∧ mayReturn pair 0 = false ∧
       (bayAt { s with bays := [(7, { grants := [(14, 4)] })] } 7).grants ≠ []) ∧
    (let s : State := { twinBays { handover := 1000 } {} with ports := [(0, { landed := some {} })] }
     (pairAt s 0).handover ≠ 0 ∧ (pairAt s 0).handover ≤ now s ∧ (portAt s 0).landed ≠ none ∧ runs s 0 = true ∧ (portAt pair 0).landed = none ∧
       now { s with tck := { count := 999 } } < (pairAt s 0).handover ∧ runs { s with spn := { bays := [(0, { handover := 1000 })] } } 0 = false) := by
  decide +kernel
theorem wit_ShadowsResynchronise :
    (barSealed pair = false ∧ barSealed sealed_ = true ∧ (1 : Byte).getLsbD 0 = true ∧ (1 : Byte).getLsbD 4 = false ∧ runs pair 0 = true ∧ (pairAt pair 0).resync = 0 ∧
      shadows pair 4 = true ∧ (0x10 : Byte).getLsbD 4 = true) ∧
    (let s := twinBays { resync := 1, k := 999, askedAt := 936 } { resync := 2, kKnown := true }
     runs s 0 = true ∧ (pairAt s 0).resync = 1 ∧ (pairAt s 0).k < now s ∧ (pairAt s 0).askedAt ≠ 0 ∧ (pairAt s 0).peerReady = false ∧ (pairAt s 0).askedAt + 64 ≤ now s ∧
       shadows s 4 = true ∧ (pairAt s 4).resync = 2 ∧ (pairAt s 4).kKnown = true ∧ (pairAt s 4).ring = [] ∧ (pairAt s 4).cmdRing = [] ∧
       now s ≤ (pairAt (twinBays { k := 1000 } {}) 0).k ∧ now s < (pairAt (twinBays { askedAt := 937 } {}) 0).askedAt + 64 ∧ (8 : Nat) ∈ bayAxes 4 ∧
       shadows s 0 = false) := by decide
theorem wit_PacketsCarryThePairsData :
    (pair.spn.link = 2 ∧ up.spn.link ≠ 2 ∧ (1 : Fin 2).val ≠ pair.tck.twinId ∧ (0 : Fin 2).val = pair.tck.twinId ∧ (2 : Nat) ≤ (2 : Word).toNat ∧
      runs pair ((1 : Fin 16).val / 2) = true ∧ runs pair ((2 : Fin 16).val / 2) = false ∧ catalogueFrame 0 8 = false ∧ catalogueFrame 0 184 = true) ∧
    (let r : CmdRef := { ref0 with peer := true }
     let c : Cmd := { cmd0 .write .admitted with ref := r }
     cmdAt host r = none ∧ cmdAt (withCmd c) r = some c ∧ c.st = .admitted ∧ [zeros 4].length = c.nlb ∧
       (let d : Cmd := { cmd0 .flush .admitted with remote := true }; cmdAt (withCmd d) ref0 = some d ∧ d.ref.peer = false ∧ d.remote = true) ∧
       (let d : Cmd := { cmd0 .read .admitted with remote := true }; cmdAt (withCmd d) ref0 = some d ∧ d.sqe.kind ≠ .flush ∧ (cmd0 .read .admitted).remote = false)) ∧
    (writable pair 0 = true ∧ writable { pair with qre := { surf := [(0, { missing := true })] } } 0 = false ∧ (∀ x, quireAt pair 5 = some x → x.kind ≠ 3) ∧
      (let x := (quireAt peerQuire 5).getD quire0
       quireAt peerQuire x.number = some x ∧ x.twin = peerQuire.tck.twinId ∧ x.st = 1 ∧ (x.leaves.getD 0 {}).peer = true ∧ (0 : Fin 16).val < x.leaves.length ∧
         (x.leaves.getD 0 {}).st = 0) ∧ (quire0.leaves.getD 0 {}).peer = false) ∧
    (let k : Dword := 5
     k ≠ 0 ∧ transitionFormat forward = true ∧ transitionSigned quiet forward = true ∧ pair.tck.snapPair.state = 0 ∧ ({ pair with tck := { snapPair := { state := 2 } } } : State).tck.snapPair.state ≠ 0 ∧ (7 : Word) ≠ 0xFFFFFFFF) := by decide +kernel
theorem wit_FrontEndsObeyOnePort :
    (let s := withBfe { obeys := 0, count := 1000, exempt := false }
     let h : CmdFrame := { frame0 with handover := true, hStitch := 1001 }
     (bfeAt s 0).obeys ≠ 2 ∧ frame0.bay = 0 ∧ frame0.stitch.toNat = (bfeAt s 0).count ∧ frame0.safeStop = false ∧ (bfeAt s 0).ownStop = false ∧
       ({ frame0 with stitch := 999 } : CmdFrame).stitch.toNat ≠ (bfeAt s 0).count ∧ h.handover = true ∧ h.hStitch.toNat = h.stitch.toNat + 1 ∧
       (bfeAt (withBfe { obeys := 0, count := 999, exempt := true }) 0).exempt = true ∧ (bfeAt s 0).safeStop = false ∧
       (bfeAt up 0).obeys = 2 ∧ frame0.claim = false ∧ ({ frame0 with claim := true } : CmdFrame).claim = true) ∧
    ((bfeAt (withBfe { obeys := 0, misses := 8 }) 0).hold ≤ 8 ∧ (7 : Nat) < (bfeAt up 0).hold ∧ ({ ready := true } : Keepalive).ready = true ∧
      ({} : Keepalive).ready = false) ∧
    (150 < (151 : Half).toNat ∧ (150 : Half).toNat ≤ 150 ∧ (portAt up 0).lanes.getLsbD (0 : Fin 3) = false ∧
      (portAt { up with ports := [(0, { lanes := 0x1F })] } 0).lanes.getLsbD (2 : Fin 3) = true) ∧
    (let p : Port := { slices := (List.range 6).map (fun i => (i, zeros 8)) }
     sliceIdent p = some (zeros 48) ∧ sliceIdent {} = none ∧ up.pwr.phase = .running ∧ State.reset.pwr.phase ≠ .running ∧ p.idRecorded = false ∧
       ({ p with ident := some (zeros 48), idRecorded := true } : Port).ident = some (zeros 48)) := by decide
theorem wit_RegistersAreReadAndWritten :
    (up.splitLatch = none ∧ findReg 0xFFC = none ∧ findReg 0xFF8 = none ∧ (findReg (regOffset .memCtl 0)).isSome = true) ∧
    (regTable.any (fun r => r.wide && r.id != .kstLcNonce) = true ∧ regTable.all (fun r => (findReg (regOffset r.id 0)).isSome) = true ∧
      (findReg (regOffset .hblCfg 0)).any (fun x => x.1.id == .hblCfg && x.1.bytes == 4) = true ∧
      (findReg (regOffset .calInterval 0)).any (fun x => x.1.id == .calInterval && x.1.bytes != 2) = true) ∧
    (barSealed up = false ∧ barSealed sealed_ = true ∧ mailboxOffset 0x10 = false ∧ inRange .hblCfg 255 = true ∧ inRange .hblCfg 0 = false ∧
      tightest .pwrThermCfg 0 (reg up .pwrThermCfg 0) 0x6460 ≠ 0x6460 ∧ tightest .hblCfg 0 8 255 = 255) ∧
    (let body := natLe 4 (0x500000 : Word).toNat ++ natLe 8 (1 : Dword).toNat ++ [(4 : Byte)]
     inHand (withMail up (6, 7, body)) 6 7 body = true ∧ inHand up 6 7 body = false ∧ requestRefused 0x3FFFFC = true ∧ requestRefused 0x400000 = false) ∧
    Part.splitLatch ∉ Instr.reach .heartbeatMissing := by decide +kernel

theorem wit_SpineLinkIsLostAndRestored_counts :
    now pair + pair.tck.pairOffset < (({ beat with count := 1001 } : Heartbeat).count.toNat : Int) ∧
    (({ beat with count := 999 } : Heartbeat).count.toNat : Int) < now pair + pair.tck.pairOffset ∧ beat.cmds = [] ∧ pair.spn.link = 2 ∧
    (let s := twinBays { handover := 1001 } {}; runs s 0 = true ∧ now s < (pairAt s 0).handover) := by decide
theorem wit_TwinsPairAndHandBack_exchange :
    (let s : State := { pair with spn := { pair.spn with paired := false } }
     s.spn.pairing = false ∧ (∀ v ∈ s.cmd.versions, v.own = false) ∧ (∃ v ∈ ({ s with cmd := { versions := [ver0] } } : State).cmd.versions, v.own = true) ∧
       ({ s with spn := { s.spn with pairing := true } } : State).spn.pairing = true ∧ s.tck.twinId < 2) ∧
    (let s : State := { pair with spn := { pair.spn with bays := [(7, { role := 1, peerReady := true, returnReq := true, returnAt := 1000 })] }, bays := [(7, { grants := [(14, 4)] })] }
     mayReturn s 7 = true ∧ (pairAt s 7).handover = 0 ∧ (bayAt s 7).grants ≠ []) := by decide +kernel
theorem wit_ShadowsResynchronise_capture :
    (let s := twinBays { resync := 1, k := 999 } { resync := 2, kKnown := true }
     now s = (pairAt s 0).k + 1 ∧ now s ≠ (pairAt (twinBays { k := 998 } {}) 0).k + 1 ∧ s.spn.link = 2 ∧ (1 : Byte).getLsbD 0 = true ∧ (pairAt s 0).resync ≠ 0) := by decide
theorem wit_PacketsCarryThePairsData_more :
    (let s : State := { pair with spn := { pair.spn with pairing := true, exchange := [7] } }
     s.spn.pairing = true ∧ s.spn.awaitBinding = false ∧ (∀ n ∈ s.spn.exchange, n = 7) ∧ ∃ n ∈ s.spn.exchange, n ≠ 8) ∧
    (let s := withQuire { quire0 with kind := 3 }
     (∃ x, quireAt s 5 = some x ∧ x.kind = 3) ∧ catalogueRoom { s with qre := { s.qre with surf := [(0, { catFrame := 580 })] } } 0 = false) ∧
    (let c : Cmd := cmd0 .admin .admitted; cmdAt (withCmd c) ref0 = some c ∧ c.sqe.kind ≠ .flush ∧ c.sqe.kind = .admin) ∧
    ((1 : Fin 2).val ≠ pair.tck.twinId ∧ ∀ x ∈ pair.cmd.versions, x.own = true → x ∈ pair.cmd.versions) := by
  refine ⟨by decide, ⟨⟨_, rfl, rfl⟩, by decide⟩, by decide, by decide, fun _ h _ => h⟩
theorem wit_FrontEndsObeyOnePort_drivers :
    (let s := withBfe { obeys := 0, count := 1000, exempt := false, drivers := [(0, { powered := true }), (1, {})] }
     (getD (bfeAt s 0).drivers {} 0).powered = true ∧ (getD (bfeAt s 0).drivers {} 1).powered = false ∧ (0x2005 : Half).toNat / 8192 = 1 ∧
       (0x4000 : Half).toNat / 8192 = 2 ∧ (0x6000 : Half).toNat / 8192 = 3 ∧ (0x8000 : Half).toNat / 8192 = 4 ∧
       (∀ f, Arrival.nothing = .command f true → f.bay ≠ 0 ∨ False)) ∧
    ((bfeAt up 0).obeys = 2 ∧ ({ frame0 with claim := true, owner := true } : CmdFrame).claim = true ∧
      ({ frame0 with safeStop := true } : CmdFrame).safeStop = true ∧ ({ bay := 0, ready := true } : Keepalive).bay = 0) := by
  refine ⟨⟨by decide, by decide, by decide, by decide, by decide, by decide, fun f h => by cases h⟩, by decide⟩
theorem wit_RegistersAreReadAndWritten_retired :
    (let body := natLe 4 (0x400000 : Word).toNat ++ natLe 8 (1 : Dword).toNat ++ [(4 : Byte)]
     inHand (withMail retired0 (6, 7, body)) 6 7 body = true ∧ lifeRetired (withMail retired0 (6, 7, body)) = true ∧ lifeRetired (withMail up (6, 7, body)) = false) := by
  decide +kernel

/-! ### Ill-formed terms are refused -/

def goodFrame : SampleFrame := { sensA := List.replicate 32 0, sensB := List.replicate 32 0, spin := List.replicate 16 0, axis := List.replicate 4 0
                                 ident := zeros 8, wobble := List.replicate 8 {}, emit := List.replicate 8 {} }
def goodCmd : CmdFrame := { u := List.replicate 8 0, spin := List.replicate 3 0, axis := List.replicate 4 0 }
theorem test_a_sample_frame_has_its_words : goodFrame.wf = true ∧ ({ goodFrame with spin := [] } : SampleFrame).wf = false ∧
    ({ goodFrame with misses := 65 } : SampleFrame).wf = false ∧ ({ goodFrame with obeys := 3 } : SampleFrame).wf = false := by decide
theorem test_a_command_frame_has_its_words : goodCmd.wf = true ∧ ({ goodCmd with hold := 65 } : CmdFrame).wf = false ∧
    ({ goodCmd with hold := 2 } : CmdFrame).wf = false ∧ ({ goodCmd with u := [] } : CmdFrame).wf = false := by decide
theorem test_an_arrival_holds_a_frame : (Arrival.command {} true).wf = false ∧ (Instr.bfeEdge 0 .nothing (.command {} true) 0).wf = false ∧
    (Instr.bfeHoldExpiry 0 (.command {} true)).wf = false ∧ (Instr.bfeEdge 0 .nothing (.command goodCmd true) 0).wf = true := by decide
theorem test_a_heartbeat_has_eight_digests : (Instr.heartbeatReceive {}).wf = false ∧ (Instr.heartbeatReceive { digests := List.replicate 8 0 }).wf = true := by decide
theorem test_a_read_names_slots_once : (Instr.folioReadRequest { req0 with slots := [5, 5] }).wf = false ∧
    (Instr.folioReadRequest { req0 with slots := [68] }).wf = false ∧ (Instr.folioReadRequest { req0 with slots := [] }).wf = false ∧
    (Instr.folioReadRequest { req0 with slots := [67, 0] }).wf = true := by decide
theorem test_a_row_names_leaves_once : (Instr.reconstructionDone 1 0 [(3, []), (3, [])] false).wf = false ∧
    (Instr.reconstructionDone 1 0 [(16, [])] false).wf = false ∧ (Instr.reconstructionDone 1 0 [(3, []), (4, [])] false).wf = true := by decide
theorem test_offset_codes_are_eight_of_seven_bits : codesWf (some [1]) = false ∧ codesWf (some (List.replicate 8 64)) = false ∧
    codesWf (some (List.replicate 8 (-64))) = true ∧ codesWf none = true ∧ (Instr.calibrationRunDone 0 0 .bfeOffsets (some [1])).wf = false := by decide

theorem test_widths_are_those_of_R3 : widthWf 3 = false ∧ (Instr.splitReadLatch 0 16).wf = false ∧ (Instr.registerWrite 0 3 0).wf = false ∧
    (Instr.registerWrite 0 8 0).wf = true := by decide
theorem test_other_lists_have_their_length : (Instr.spotPacket 0 0 0 0 [1] true).wf = false ∧ (Instr.writeDataFetch ref0 [{ data := [1] }]).wf = false ∧
    (Instr.powerWindow 0 [] [] 0 0).wf = false ∧ (Instr.burnisherLine [] false .other false).wf = false ∧ (Instr.mirrorDataReceive 0 0 0 0 [] false).wf = false := by decide
theorem test_a_mount_reads_sixteen_surfaces : (Instr.mountCatalogueReadDone [] [] 0 [] []).wf = false := by decide

/-! ### Values from the spec's worked examples and tables -/

/-- The example under R63. -/
theorem test_a_folio_address : pfa 42 5 1 9 439525 = 0x002AB9000006B4E5#64 ∧ folioNumber 6463 41 = 439525 ∧ slotPosition 41 = 10 ∧ slotLane 41 = 1 ∧
    pfaOk 42 0x002AB9000006B4E5#64 = true ∧ pfaOk 42 0x002AB9010006B4E5#64 = false := by decide +kernel
/-- The example under R94. -/
theorem test_two_looks_are_weighed : leadWeight 30 10 = 12 ∧ combine 12 4 10 (-6) = 12 := by decide
/-- The example of the section primitive. -/
theorem test_a_section_rounds_halves_up :
    let c : Cell := { coef := List.replicate 16 0 ++ [0x6000, 0, 0, 0, 0, 1] }
    (section1 c 0 {} 0x2000).1 = 0x3000 ∧ (section1 c 0 {} 1).1 = 2 ∧ (section1 c 0 {} (-1)).1 = -1 := by decide
/-- The example under R325. -/
theorem test_an_iv : ivBytes 0x000000032A000015 42 1 = [0x15, 0, 0, 0x2A, 3, 0, 0, 0, 0x2A, 0, 1, 1] := by decide
/-- The example under R195: runs 12 and 13. -/
theorem test_two_power_runs : opcPower 400 [-18, -7, 4, 15] = some (392 * 11 + 16 * 7, 11) ∧ opcPower 402 [-16, -5, 6, 17] = some (394 * 11 + 16 * 5, 11) ∧
    opcShift [140, 96, 88, 130] = 1 ∧ opcShift [131, 92, 85, 127] = 1 ∧ agrees .opc [4424, 11, 1] [4414, 11, 1] = true ∧ nearest 4414 11 = 401 := by decide
/-- The example under R57: channel bits per turn of zone 1. -/
theorem test_bits_of_a_turn : zoneBits 1 = 5110324 := by decide +kernel
/-- The three addresses of the register index. -/
theorem test_register_addresses : regOffset .spdUnitGain (3 * 6 + 2) = 0xA01328 ∧ regOffset .calLayer (16 * 13 + 9) = 0x1A01364 ∧
    regOffset .kstSlot 42 = 0x1501150 := by decide +kernel
/-- The example under R282: C is 496 MiB. -/
theorem test_the_control_area : controlBytes up = 520093696 := by decide
/-- The example under R383: four bays in Ingest are capped at 58 W, two of them in Quiet at 44 W. -/
theorem test_the_cap :
    let s (a b : Nat) : State := { up with spn := { bays := [0, 1, 2, 3].map (fun k => (k, { role := 1 })) }
                                           bays := [(0, { mode := 0 }), (1, { mode := 0 }), (2, { mode := a }), (3, { mode := b })] }
    twinCap (s 0 0) = 580 ∧ twinCap (s 4 4) = 440 := by decide
/-- R300: the sixteenth missing heartbeat loses the link. -/
theorem test_the_link_is_lost : (match exec (.spineLinkLost false) (withLink 2 0 16) with | .next t => t.spn.link | _ => 9) = 3 := by decide
/-- R5: the high word is latched with the low. -/
theorem test_a_split_read : (match step { up with pending := [.splitReadLatch (regOffset .tckStitchCount 0) 4] } with
    | .next t => (t.hostRead, t.splitLatch, t.pending) | _ => (0, none, [])) = (1000, some (regOffset .tckStitchCount 0 + 4, 0), []) := by decide +kernel
/-- R295: a dropped lane is taken out of use. -/
theorem test_a_lane_drops : (match exec (.spineLaneDrop 0) pair with | .next t => t.spn.lanes | _ => 0) = 0xFE := by decide

/-! ### A container that passes -/

/-- A coefficient block of a loop with one forming coefficient, one section, no notch and no model. -/
def block0 (loop : Nat) : Bytes :=
  let w (v : Nat) := natLe 2 v
  let seq : List Nat := if loop = 0 then [0, 1, 0, 1, 0, 64, 1] ++ List.replicate 9 0 else
    if loop = 1 then [0, 0, 0, 0, 0, 4, 0, 0, 0, 2] ++ List.replicate 6 0 else List.replicate 16 0
  let words : List Nat := [1, 1, 0, 0, 0, 1, 1, 1, 100, 5, 3, 0, 0, 0, 0, 0] ++ [0, 0x100] ++ [0x4000, 0, 0, 0, 0, 0] ++ [0, 0, 0, 0, 0, 0] ++ seq
  words.flatMap w ++ zeros ((8 - 2 * words.length % 8) % 8)
def blockLen : Nat := (block0 0).length
def loop1 (i : Nat) : Bytes :=
  [BitVec.ofNat 8 i, 0, BitVec.ofNat 8 i, 1, 0, 1, 0xFF, 0] ++ natLe 2 5 ++ [3, 0] ++ natLe 2 100 ++ natLe 2 0 ++ natLe 4 (96 + i * blockLen) ++ natLe 4 blockLen
/-- The ten sections in order: one OPU with its four cells, every channel cell shared by four OPUs, rows that turn by one surface. -/
def sections0 : List Bytes :=
  [ (List.range 4).flatMap (fun i => [BitVec.ofNat 8 i, 0] ++ natLe 2 i),
    (List.range 4).flatMap loop1 ++ (List.range 4).flatMap block0,
    (List.range 128).flatMap (fun k => [BitVec.ofNat 8 (k / 32 * 8 + k % 8), BitVec.ofNat 8 (k / 8), BitVec.ofNat 8 (k % 8), BitVec.ofNat 8 (k / 32 + 1), 0, 0xFF, 0, 0]),
    natLe 8 16 ++ (List.range 64).flatMap (fun r => (List.range 16).map (fun j => BitVec.ofNat 8 ((r + j) % 16))),
    natLe 2 1 ++ natLe 2 4 ++ [0, 0, 0, 0],
    natLe 2 200 ++ natLe 2 50 ++ [1, 80] ++ natLe 2 2000 ++ (List.range 8).map (BitVec.ofNat 8),
    (List.range 8).flatMap (fun b => [BitVec.ofNat 8 b, 5, 0, 0, 0] ++ natLe 2 0 ++ natLe 2 0 ++ natLe 2 400 ++ [30, 0, 0, 0, 0]),
    natLe 2 7500 ++ [15, 50] ++ natLe 2 2900 ++ natLe 2 3100 ++ [5, 24, 4, 6] ++ natLe 2 9000 ++ zeros 18,
    (List.range 8).flatMap (fun b => [BitVec.ofNat 8 b, BitVec.ofNat 8 (b / 4), 8, 1]),
    (List.range 8).map (fun b => BitVec.ofNat 8 (b / 2)) ]
/-- The container around sections of given types; its digest and signature are zeros. -/
def container (secs : List (Nat × Bytes)) (flags ident base : Nat) : Bytes :=
  let h := 40 + 16 * secs.length
  let dir := (secs.foldl (fun (a : Bytes × Nat) e => (a.1 ++ natLe 4 e.1 ++ natLe 4 a.2 ++ natLe 4 e.2.length ++ natLe 4 0, a.2 + (e.2.length + 7) / 8 * 8)) ([], h)).1
  let body := secs.flatMap (fun e => e.2 ++ zeros ((8 - e.2.length % 8) % 8))
  let n := h + body.length + 144
  [0x53, 0x4B, 0x42, 0x44, 0, 2] ++ natLe 2 secs.length ++ natLe 4 n ++ natLe 4 flags ++ natLe 8 ident ++ natLe 8 base ++ natLe 4 0 ++ natLe 4 0 ++ dir ++ body ++ zeros 144
def container0 : Bytes := container ((List.range 10).zip sections0 |>.map (fun e => (e.1 + 1, e.2))) 0 7 0
theorem container0_is_well_formed : formatOk bindingMagic (10, 1) container0 = true := by decide +kernel
/-- Where the digest, a signature and the structural checks agree the container passes. No definition decides the digest and the signature (log
entry 3); that the structural checks of this container find nothing is left a premise for its length: the kernel takes minutes over it (evaluated
outside the package, it holds). -/
theorem wit_container_passes (h1 : bodyDigest container0 = digestField container0) (h2 : signatureOk up container0 = true)
    (h5 : structChecks up container0 (parse container0) = none) : (loadChecks up container0 true true).code = 0 := by
  have h3 : ¬ (field container0 32 4 < bndFloor up) := by decide +kernel
  have h4 : (parse container0).trim = false := by decide +kernel
  simp [loadChecks, signedChecks, container0_is_well_formed, h5, h1, h2, h3, h4]
/-- A row that names a surface twice breaks the balance rule (R34). -/
theorem test_the_balance_rule : balanced 6 (List.replicate 64 [3, 3, 4, 5, 6, 7]) = false := by decide +kernel
/-- R32: the Recall example's slot A with all 64 laws ends at 1,210 ns, after it does; with tracking in slot B both end in time. -/
theorem test_the_recall_example : finishNs 0 6160 = 1210 ∧ slotEnd 0 = 1100 ∧ finishNs 0 3520 = 880 ∧ finishNs 1 2640 = 1470 ∧ finishNs 4 1024 = 3368 ∧
    bookOk [6160, 0, 0, 0, 1024] = false ∧ bookOk [3520, 2640, 0, 0, 1024] = true := by decide
/-- An owner section of one record, and its status where its digest and a signature agree. -/
def owner0 : Bytes := (sheetMagic ++ (container [(0x20, (natLe 4 0x300000 ++ zeros 12) ++ zeros 304)] 0 7 0).drop 4)
theorem wit_owner_section_accepted (h1 : bodyDigest owner0 = digestField owner0) (h2 : signatureOk up owner0 = true) : sheetStatus up owner0 = 0 := by
  have h : sheetFormat owner0 = true := by decide +kernel
  simp [sheetStatus, h, h1, h2]

end Sys2Proof.Tests
end

section
/-! PROOFS. R240: a submission queue's deletion waits for the commands fetched from it, and completes with the last of them; a completion
queue in use stays. The deletion that waits is the only one in its state, so `finishDeletes` is one step at that queue. -/

namespace Sys2Proof.Machine

/-! ### What the two deletions and a fetch mean -/

theorem exec_deleteIoSq (r : CmdRef) (q : Fin 65536) (s : State) : exec (.deleteIoSq r q) s = execDeleteIoSq r q s := rfl

theorem exec_deleteIoCq (r : CmdRef) (q : Fin 65536) (s : State) : exec (.deleteIoCq r q) s = execDeleteIoCq r q s := rfl

theorem exec_commandFetch (n : Fin 2) (q : Fin 65536) (es : List Sqe) (s : State) :
    exec (.commandFetch n q es) s = execCommandFetch n q es s := rfl

/-! ### Keys of queues -/

/-- Two queues have the same key only where controller and identifier agree. -/
theorem qKey_eq_iff (a c : Fin 2) (b d : Fin 65536) : qKey a b = qKey c d ↔ a = c ∧ b = d := by
  simp only [qKey, Fin.ext_iff]
  omega

theorem qKey_div {q : Nat} (n : Nat) (h : q < 65536) : qKey n q / 65536 = n := by
  unfold qKey
  omega

/-! ### Table entries -/

theorem mem_of_look {α : Type} {t : Tbl α} {k : Nat} {v : α} (h : look t k = some v) : (k, v) ∈ t := by
  induction t with
  | nil => simp [look] at h
  | cons e t ih =>
    obtain ⟨a, x⟩ := e
    simp only [look] at h
    split at h
    · next hak =>
      obtain rfl := Option.some.inj h
      exact hak ▸ List.mem_cons_self ..
    · exact List.mem_cons_of_mem _ (ih h)

/-- A table after a write is the written entry between entries it held before. -/
theorem ins_eq_append {α : Type} (t : Tbl α) (k : Nat) (v : α) :
    ∃ l m, ins t k v = l ++ (k, v) :: m ∧ ∀ e ∈ l ++ m, e ∈ t := by
  induction t with
  | nil => exact ⟨[], [], rfl, by simp⟩
  | cons e t ih =>
    obtain ⟨a, x⟩ := e
    obtain ⟨l, m, hins, hmem⟩ := ih
    simp only [ins]
    split
    · exact ⟨[], (a, x) :: t, rfl, by simp⟩
    · split
      · exact ⟨[], t, rfl, fun e he => List.mem_cons_of_mem _ he⟩
      · exact ⟨(a, x) :: l, m, by rw [hins]; rfl, List.cons_subset_cons _ hmem⟩

/-- A write removes no key. -/
theorem look_ins_ne_none {α : Type} {t : Tbl α} {j : Nat} (k : Nat) (v : α) (h : look t j ≠ none) : look (ins t k v) j ≠ none := by
  rw [look_ins]
  split
  · exact Option.some_ne_none v
  · exact h

/-! ### Completion entries -/

@[simp] theorem interrupt_queues (s : State) (n v : Nat) :
    (interrupt s n v).hiu.sqs = s.hiu.sqs ∧ (interrupt s n v).hiu.cqs = s.hiu.cqs ∧ (interrupt s n v).hiu.cmds = s.hiu.cmds ∧
      (interrupt s n v).hiu.comps = s.hiu.comps ∧ (interrupt s n v).hiu.held = s.hiu.held := by
  unfold interrupt
  dsimp only
  split <;> exact ⟨rfl, rfl, rfl, rfl, rfl⟩

@[simp] theorem writeEntry_queues (s : State) (c : Comp) :
    (writeEntry s c).hiu.sqs = s.hiu.sqs ∧ (writeEntry s c).hiu.cmds = s.hiu.cmds ∧
      (writeEntry s c).hiu.comps = s.hiu.comps ++ [c] ∧ (writeEntry s c).hiu.held = s.hiu.held := by
  unfold writeEntry
  split
  · exact ⟨rfl, rfl, rfl, rfl⟩
  · dsimp only
    split <;> simp

theorem writeEntry_keeps_cq {s : State} {k : Nat} (c : Comp) (h : look s.hiu.cqs k ≠ none) : look (writeEntry s c).hiu.cqs k ≠ none := by
  unfold writeEntry
  split
  · exact h
  · dsimp only
    split
    · simpa using look_ins_ne_none _ _ h
    · exact look_ins_ne_none _ _ h

@[simp] theorem send_hiu (s : State) (m : SpineMsg) : (send s m).hiu = s.hiu := by
  unfold send
  split <;> rfl

@[simp] theorem emit_sqs (s : State) (c : Comp) : (emit s c).hiu.sqs = s.hiu.sqs := by
  unfold emit
  split
  · simp
  · split <;> simp

@[simp] theorem emit_cmds (s : State) (c : Comp) : (emit s c).hiu.cmds = s.hiu.cmds := by
  unfold emit
  split
  · simp
  · split <;> simp

theorem emit_keeps_cq {s : State} {k : Nat} (c : Comp) (h : look s.hiu.cqs k ≠ none) : look (emit s c).hiu.cqs k ≠ none := by
  unfold emit
  split
  · simpa using h
  · split
    · exact h
    · exact writeEntry_keeps_cq c h

theorem emit_comps {s : State} {c : Comp} (h : c.ref.peer = false) :
    (emit s c).hiu.comps = s.hiu.comps ++ (if mustWait s c then [] else [c]) := by
  cases hw : mustWait s c <;> simp [emit, h, hw]

theorem emit_held {s : State} {c : Comp} (h : c.ref.peer = false) :
    (emit s c).hiu.held = s.hiu.held ++ (if mustWait s c then [c] else []) := by
  cases hw : mustWait s c <;> simp [emit, h, hw]

/-- A completion of the twin's own command is written or waits, once. -/
theorem emit_perm {s : State} {c : Comp} (h : c.ref.peer = false) :
    ((emit s c).hiu.comps ++ (emit s c).hiu.held).Perm (s.hiu.comps ++ s.hiu.held ++ [c]) := by
  rw [emit_comps h, emit_held h]
  cases mustWait s c
  · simpa using (List.perm_append_singleton c s.hiu.held).symm.append_left s.hiu.comps
  · simp

/-! ### One queue's deletion -/

/-- A command fetched here from the queue of a key is not complete. -/
def Outstanding (s : State) (k : Nat) : Prop := ∃ d ∈ s.hiu.cmds, d.ref.peer = false ∧ qKey d.ref.ctrl d.ref.sqid = k

/-- The state without a submission queue, its context and the command that deletes it. -/
def dropSq (s : State) (k : Nat) (r : CmdRef) : State :=
  { s with hiu := { s.hiu with
      sqs := del s.hiu.sqs k, onChip := s.hiu.onChip.filter (· ≠ k), cmds := s.hiu.cmds.filter (fun d => d.ref ≠ r) } }

/-- The state without a command. -/
def dropCmd (s : State) (r : CmdRef) : State := { s with hiu := { s.hiu with cmds := s.hiu.cmds.filter (fun d => d.ref ≠ r) } }

/-- The step of `finishDeletes` at one queue. -/
def finishDelete (s : State) (e : Nat × Sq) : State :=
  match e.2.deleting with
  | some r =>
    if s.hiu.cmds.any (fun d => !d.ref.peer && qKey d.ref.ctrl d.ref.sqid == e.1) then s
    else emit (dropSq s e.1 r) { ref := r, status := .success }
  | none => s

theorem finishDeletes_eq_foldl (s : State) : finishDeletes s = s.hiu.sqs.foldl finishDelete s := rfl

theorem post_eq_finishDeletes (s : State) (c : Comp) : post s c = finishDeletes (dropCmd (emit s c) c.ref) := rfl

theorem any_iff_outstanding (s : State) (k : Nat) :
    s.hiu.cmds.any (fun d => !d.ref.peer && qKey d.ref.ctrl d.ref.sqid == k) = true ↔ Outstanding s k := by
  simp [Outstanding]

theorem finishDelete_of_none {s : State} {e : Nat × Sq} (h : e.2.deleting = none) : finishDelete s e = s := by
  simp [finishDelete, h]

theorem finishDelete_of_outstanding {s : State} {k : Nat} (x : Sq) (h : Outstanding s k) : finishDelete s (k, x) = s := by
  unfold finishDelete
  split
  · exact if_pos ((any_iff_outstanding s k).2 h)
  · rfl

theorem finishDelete_of_not_outstanding {s : State} {k : Nat} {x : Sq} {r : CmdRef} (hx : x.deleting = some r) (h : ¬ Outstanding s k) :
    finishDelete s (k, x) = emit (dropSq s k r) { ref := r, status := .success } := by
  simp only [finishDelete, hx]
  exact if_neg (fun hany => h ((any_iff_outstanding s k).1 hany))

theorem finishDelete_keeps_cq {s : State} {k : Nat} (e : Nat × Sq) (h : look s.hiu.cqs k ≠ none) :
    look (finishDelete s e).hiu.cqs k ≠ none := by
  unfold finishDelete
  split
  · split
    · exact h
    · exact emit_keeps_cq _ h
  · exact h

theorem foldl_finishDelete_keeps_cq {k : Nat} (l : Tbl Sq) {s : State} (h : look s.hiu.cqs k ≠ none) :
    look (l.foldl finishDelete s).hiu.cqs k ≠ none := by
  induction l generalizing s with
  | nil => exact h
  | cons e l ih => exact ih (finishDelete_keeps_cq e h)

/-- No completion removes a completion queue. -/
theorem complete_keeps_cq {s : State} {k : Nat} (r : CmdRef) (st : Status) (h : look s.hiu.cqs k ≠ none) :
    look (complete s r st).hiu.cqs k ≠ none :=
  foldl_finishDelete_keeps_cq _ (s := dropCmd (emit s { ref := r, status := st }) r) (emit_keeps_cq _ h)

/-! ### The only deletion that waits -/

/-- The queue of key `k` stands in the table, and no other queue is being deleted. -/
def OnlyDeletion (t : Tbl Sq) (k : Nat) (x : Sq) : Prop := ∃ l m, t = l ++ (k, x) :: m ∧ ∀ e ∈ l ++ m, e.2.deleting = none

theorem onlyDeletion_ins {t : Tbl Sq} (k : Nat) (x : Sq) (h : ∀ e ∈ t, e.2.deleting = none) : OnlyDeletion (ins t k x) k x := by
  obtain ⟨l, m, hins, hmem⟩ := ins_eq_append t k x
  exact ⟨l, m, hins, fun e he => h e (hmem e he)⟩

theorem foldl_finishDelete_of_none {l : Tbl Sq} (s : State) (h : ∀ e ∈ l, e.2.deleting = none) : l.foldl finishDelete s = s := by
  induction l with
  | nil => rfl
  | cons e l ih =>
    rw [List.foldl_cons, finishDelete_of_none (h e (List.mem_cons_self ..))]
    exact ih (fun e he => h e (List.mem_cons_of_mem _ he))

theorem finishDeletes_of_onlyDeletion {s : State} {k : Nat} {x : Sq} (h : OnlyDeletion s.hiu.sqs k x) :
    finishDeletes s = finishDelete s (k, x) := by
  obtain ⟨l, m, hsqs, hnone⟩ := h
  rw [finishDeletes_eq_foldl, hsqs, List.foldl_append, List.foldl_cons,
    foldl_finishDelete_of_none s (fun e he => hnone e (List.mem_append_left _ he)),
    foldl_finishDelete_of_none _ (fun e he => hnone e (List.mem_append_right _ he))]

theorem post_of_onlyDeletion {s : State} {k : Nat} {x : Sq} (c : Comp) (h : OnlyDeletion s.hiu.sqs k x) :
    post s c = finishDelete (dropCmd (emit s c) c.ref) (k, x) :=
  (post_eq_finishDeletes s c).trans (finishDeletes_of_onlyDeletion (by simpa [dropCmd] using h))

/-- After a completion the commands outstanding are those of another reference. -/
theorem outstanding_dropCmd_emit (s : State) (c : Comp) (k : Nat) :
    Outstanding (dropCmd (emit s c) c.ref) k ↔
      ∃ d ∈ s.hiu.cmds, (d.ref.peer = false ∧ qKey d.ref.ctrl d.ref.sqid = k) ∧ d.ref ≠ c.ref := by
  simp only [Outstanding, dropCmd, emit_cmds, List.mem_filter, decide_eq_true_eq]
  exact exists_congr fun d => by rw [and_assoc, and_comm (a := d.ref ≠ c.ref)]

/-! ### DELETE_IO_SQ -/

/-- The state with a submission queue marked by the command that deletes it. -/
def markSq (s : State) (r : CmdRef) (q : Fin 65536) (x : Sq) : State := setSq s r.ctrl q { x with deleting := some r }

theorem sqAt_markSq (s : State) (r : CmdRef) (q : Fin 65536) (x : Sq) :
    sqAt (markSq s r q x) r.ctrl q = some { x with deleting := some r } := by
  simp [sqAt, markSq, setSq]

theorem onlyDeletion_markSq {s : State} (r : CmdRef) (q : Fin 65536) (x : Sq) (h : ∀ e ∈ s.hiu.sqs, e.2.deleting = none) :
    OnlyDeletion (markSq s r q x).hiu.sqs (qKey r.ctrl q) { x with deleting := some r } :=
  onlyDeletion_ins _ _ h

theorem exec_deleteIoSq_of_queue {s : State} {r : CmdRef} {q : Fin 65536} {x : Sq} (hq : q ≠ 0) (hsq : sqAt s r.ctrl q = some x)
    (hx : x.deleting = none) (hnone : ∀ e ∈ s.hiu.sqs, e.2.deleting = none) :
    exec (.deleteIoSq r q) s = .next (finishDelete (markSq s r q x) (qKey r.ctrl q, { x with deleting := some r })) := by
  rw [exec_deleteIoSq, ← finishDeletes_of_onlyDeletion (onlyDeletion_markSq r q x hnone)]
  simp [execDeleteIoSq, hsq, hq, hx, markSq]

/-- Nothing is fetched from a queue that is being deleted. -/
theorem exec_commandFetch_of_deleting {s : State} {n : Fin 2} {q : Fin 65536} {x : Sq} {r : CmdRef} (es : List Sqe)
    (hsq : sqAt s n q = some x) (hx : x.deleting = some r) : exec (.commandFetch n q es) s = .next s := by
  simp [exec_commandFetch, execCommandFetch, hsq, fetchable, visible, hx]

/-- The end of a deletion: the queue is gone, with it the command, and the one completion posted is its own. -/
theorem emit_dropSq {s : State} {r : CmdRef} {n q : Nat} (hr : r.peer = false) :
    let t := emit (dropSq s (qKey n q) r) { ref := r, status := .success }
    sqAt t n q = none ∧ (∀ d ∈ t.hiu.cmds, d.ref ≠ r) ∧
      (t.hiu.comps ++ t.hiu.held).Perm (s.hiu.comps ++ s.hiu.held ++ [{ ref := r, status := .success }]) := by
  refine ⟨by simp [sqAt, dropSq], ?_, emit_perm hr⟩
  simp [dropSq]

section
variable {s : State} {r : CmdRef} {q : Fin 65536} {x : Sq} {c : Comp}

/-- A completion that leaves a command of the queue outstanding does not end the deletion. -/
theorem post_markSq_of_outstanding (hnone : ∀ e ∈ s.hiu.sqs, e.2.deleting = none) (hc : c.ref.peer = false)
    (hout : ∃ d ∈ s.hiu.cmds, (d.ref.peer = false ∧ qKey d.ref.ctrl d.ref.sqid = qKey r.ctrl q) ∧ d.ref ≠ c.ref) :
    let t := markSq s r q x
    sqAt (post t c) r.ctrl q = some { x with deleting := some r } ∧
      (post t c).hiu.comps ++ (post t c).hiu.held =
        t.hiu.comps ++ (if mustWait t c then [] else [c]) ++ t.hiu.held ++ (if mustWait t c then [c] else []) := by
  intro t
  have hpost : post t c = dropCmd (emit t c) c.ref := by
    rw [post_of_onlyDeletion c (onlyDeletion_markSq r q x hnone)]
    exact finishDelete_of_outstanding _ ((outstanding_dropCmd_emit t c _).2 hout)
  rw [hpost]
  constructor
  · simpa [sqAt, dropCmd] using sqAt_markSq s r q x
  · simp only [dropCmd, emit_comps hc, emit_held hc, List.append_assoc]

/-- The completion that leaves no command of the queue outstanding ends the deletion. -/
theorem post_markSq_of_last (hnone : ∀ e ∈ s.hiu.sqs, e.2.deleting = none) (hc : c.ref.peer = false) (hr : r.peer = false)
    (hlast : ¬ ∃ d ∈ s.hiu.cmds, (d.ref.peer = false ∧ qKey d.ref.ctrl d.ref.sqid = qKey r.ctrl q) ∧ d.ref ≠ c.ref) :
    let t := markSq s r q x
    sqAt (post t c) r.ctrl q = none ∧ (∀ d ∈ (post t c).hiu.cmds, d.ref ≠ r) ∧
      ((post t c).hiu.comps ++ (post t c).hiu.held).Perm (t.hiu.comps ++ t.hiu.held ++ [c, { ref := r, status := .success }]) := by
  intro t
  have hpost : post t c = emit (dropSq (dropCmd (emit t c) c.ref) (qKey r.ctrl q) r) { ref := r, status := .success } := by
    rw [post_of_onlyDeletion c (onlyDeletion_markSq r q x hnone)]
    exact finishDelete_of_not_outstanding rfl (fun h => hlast ((outstanding_dropCmd_emit t c _).1 h))
  obtain ⟨hgone, hcmds, hcomps⟩ := emit_dropSq (s := dropCmd (emit t c) c.ref) (n := r.ctrl) (q := q) hr
  rw [hpost]
  refine ⟨hgone, hcmds, hcomps.trans ?_⟩
  simpa [dropCmd] using (emit_perm (s := t) hc).append_right [{ ref := r, status := .success }]

end

/-! ### DELETE_IO_CQ -/

/-- A completion queue that a submission queue uses is not deleted. -/
theorem exec_deleteIoCq_of_used {s : State} {r : CmdRef} {q : Fin 65536} {k : Nat} {x : Sq} (hq : q ≠ 0) (hcq : cqAt s r.ctrl q ≠ none)
    (hk : k < 65536) (hsq : sqAt s r.ctrl k = some x) (hx : x.cqid = q.val) :
    exec (.deleteIoCq r q) s = .next (complete s r .invalidQueueDeletion) := by
  have hused : s.hiu.sqs.any (fun e => e.1 / 65536 == r.ctrl.val && e.2.cqid == q.val) = true :=
    List.any_eq_true.2 ⟨_, mem_of_look hsq, by simp [qKey_div _ hk, hx]⟩
  simp [exec_deleteIoCq, execDeleteIoCq, hq, hcq, hused]

/-- A completion queue that no submission queue uses is removed. -/
theorem exec_deleteIoCq_of_unused {s : State} {r : CmdRef} {q : Fin 65536} (hq : q ≠ 0) (hcq : cqAt s r.ctrl q ≠ none)
    (hfree : ∀ e ∈ s.hiu.sqs, e.1 / 65536 = r.ctrl.val → e.2.cqid ≠ q.val) :
    exec (.deleteIoCq r q) s = .next (complete { s with hiu := { s.hiu with cqs := del s.hiu.cqs (qKey r.ctrl q) } } r .success) := by
  have hunused : s.hiu.sqs.any (fun e => e.1 / 65536 == r.ctrl.val && e.2.cqid == q.val) = false := by
    simpa using fun a b he ha => hfree (a, b) he ha
  simp [exec_deleteIoCq, execDeleteIoCq, hq, hcq, hunused]

/-! ### R240 -/

/-- Settles O60: the marked queue is the only one being deleted, so a completion ends its deletion exactly when no other command fetched from
it is outstanding. -/
theorem queueDeletionWaitsForItsCommands : Obligations.QueueDeletionWaitsForItsCommands := by
  unfold Obligations.QueueDeletionWaitsForItsCommands
  refine ⟨?_, ?_⟩
  · intro s r q x hq hsq hx _ hnone hr _ mine
    have mine_iff (d : Cmd) : mine d ↔ d.ref.peer = false ∧ qKey d.ref.ctrl d.ref.sqid = qKey r.ctrl q := by
      rw [qKey_eq_iff]
    have hexec := exec_deleteIoSq_of_queue hq hsq hx hnone
    refine ⟨fun hout => ⟨markSq s r q x, ?_, sqAt_markSq s r q x, rfl, rfl, rfl, rfl, ?_, ?_, ?_⟩, fun hout => ?_⟩
    · obtain ⟨d, hd, hmine⟩ := hout
      rw [hexec, finishDelete_of_outstanding (s := markSq s r q x) _ ⟨d, hd, (mine_iff d).1 hmine⟩]
    · exact fun es => exec_commandFetch_of_deleting es (sqAt_markSq s r q x) rfl
    · rintro c ⟨d, hd, hmine, hne⟩ _ hc
      exact post_markSq_of_outstanding hnone hc ⟨d, hd, (mine_iff d).1 hmine, hne⟩
    · intro c hlast _ hc
      refine post_markSq_of_last hnone hc hr ?_
      rintro ⟨d, hd, hmine, hne⟩
      exact hne (hlast d hd ((mine_iff d).2 hmine))
    · have hnot : ¬ Outstanding (markSq s r q x) (qKey r.ctrl q) := fun ⟨d, hd, hmine⟩ => hout d hd ((mine_iff d).2 hmine)
      obtain ⟨hgone, _, hcomps⟩ := emit_dropSq (s := markSq s r q x) (n := r.ctrl) (q := q) hr
      exact ⟨_, by rw [hexec, finishDelete_of_not_outstanding rfl hnot], hgone, hcomps⟩
  · intro s r q hq hcq
    refine ⟨fun k x hk hsq hx => ⟨exec_deleteIoCq_of_used hq hcq hk hsq hx, complete_keeps_cq r _ hcq⟩,
      fun hfree => ⟨_, exec_deleteIoCq_of_unused hq hcq hfree, ?_⟩⟩
    simp [cqAt]

end Sys2Proof.Machine
end

section
/-! PROOFS. What operations that act on the whole twin leave alone: folds over lists and bays, the counters of the Spine Link under the
Quire Engine's work, the states of the ANA groups under completions and asynchronous events. -/

namespace Sys2Proof.Machine

/-! ### Folds -/

/-- What the step keeps at every member of a list, the fold over the list keeps. -/
theorem foldl_keeps_of_mem {α β γ : Type} (g : α → γ) {f : α → β → α} {l : List β} (h : ∀ a, ∀ b ∈ l, g (f a b) = g a) (a : α) :
    g (l.foldl f a) = g a := by
  induction l generalizing a with
  | nil => rfl
  | cons b l ih =>
    rw [List.foldl_cons, ih (fun a c hc => h a c (List.mem_cons_of_mem b hc)), h a b (List.mem_cons_self ..)]

/-- What every step of a fold keeps, the fold keeps. -/
theorem foldl_keeps {α β γ : Type} (g : α → γ) {f : α → β → α} (h : ∀ a b, g (f a b) = g a) (l : List β) (a : α) :
    g (l.foldl f a) = g a :=
  foldl_keeps_of_mem g (fun a b _ => h a b) a

/-- A fold over the eight bays does to what `g` reads of one bay what the step at that bay does. -/
theorem foldl_bays {γ : Type} (g : State → γ) (F : γ → γ) {f : State → Nat → State} {b : Nat} (hb : b < 8)
    (hat : ∀ s, g (f s b) = F (g s)) (hne : ∀ s a, a ≠ b → g (f s a) = g s) (s : State) : g ((List.range 8).foldl f s) = F (g s) := by
  obtain ⟨l, m, hlm⟩ := List.append_of_mem (List.mem_range.2 hb)
  have hnd : (l ++ b :: m).Nodup := hlm ▸ List.nodup_range
  obtain ⟨-, hm, hl⟩ := List.nodup_append.1 hnd
  rw [hlm, List.foldl_append, List.foldl_cons, foldl_keeps_of_mem g (fun s a ha => hne s a (fun h => (List.nodup_cons.1 hm).1 (h ▸ ha))), hat,
    foldl_keeps_of_mem g (fun s a ha => hne s a (hl a ha b (List.mem_cons_self ..)))]

/-! ### Counters of the Spine Link (R386, block 4) -/

/-- The counters of block 4. -/
def spineCounts (c : Counters) (i : Fin 32) : Dword := getD c 0 (128 + i)

theorem counter_eq_of_spineCounts {s t : State} {i : Nat} (hi : i < 32) (h : spineCounts t.cnt = spineCounts s.cnt) :
    counter t 4 i = counter s 4 i :=
  congrFun h ⟨i, hi⟩

/-- A count in a block above 4 is none of them. -/
theorem spineCounts_put (c : Counters) {k : Nat} (v : Dword) (hk : 160 ≤ k) : spineCounts (put c 0 k v) = spineCounts c := by
  funext i
  rw [spineCounts, getD_put, if_neg (by omega), spineCounts]

@[simp] theorem spineCounts_bump (s : State) {b i : Nat} (h : 160 ≤ b * 32 + i) : spineCounts (bump s b i).cnt = spineCounts s.cnt :=
  spineCounts_put _ _ h

@[simp] theorem spineCounts_bumpN (s : State) {b i : Nat} (n : Nat) (h : 160 ≤ b * 32 + i) :
    spineCounts (bumpN s b i n).cnt = spineCounts s.cnt :=
  spineCounts_put _ _ h

@[simp] theorem spineCounts_countEvent (s : State) {b i : Nat} (v y o : Nat) (d : List Nat) (h : 160 ≤ b * 32 + i) :
    spineCounts (countEvent s b i v y o d).cnt = spineCounts s.cnt :=
  spineCounts_put _ _ h

@[simp] theorem endRunsOf_cnt (s : State) (n : Nat) : (endRunsOf s n).cnt = s.cnt :=
  (follows_endRunsOf (T := fun p => ([.bays, .ports, .rdc, .wrc, .cal] : List Part).contains p) (by decide) (follows_refl s)).frame .cnt rfl

@[simp] theorem unplaceRebuilt_cnt (s : State) (n : Nat) : (unplaceRebuilt s n).cnt = s.cnt :=
  (follows_unplaceRebuilt (T := fun p => ([.qre] : List Part).contains p) (by decide) (follows_refl s)).frame .cnt rfl

@[simp] theorem refill_cnt (s : State) (q : Quire) : (refill s q).cnt = s.cnt := rfl

@[simp] theorem sendQuire_cnt (s : State) (n : Nat) : (sendQuire s n).cnt = s.cnt :=
  (follows_sendQuire (T := fun p => ([.out] : List Part).contains p) (by decide) (follows_refl s)).frame .cnt rfl

@[simp] theorem placeLeaf_cnt (s : State) (q : Quire) (i m k : Nat) : (placeLeaf s q i m k).1.cnt = s.cnt :=
  (follows_placeLeaf (T := fun p => ([.out, .qre] : List Part).contains p) (by decide) (follows_refl s)).frame .cnt rfl

theorem openQuire_cnt {s t : State} {k n l z m : Nat} (h : openQuire s k n l z = some (t, m)) : t.cnt = s.cnt :=
  (follows_openQuire (T := fun p => ([.qre] : List Part).contains p) (by decide) (follows_refl s) _ h).frame .cnt rfl

@[simp] theorem moveBodies_cnt (s : State) (a b c d : Nat) : (moveBodies s a b c d).cnt = s.cnt :=
  (follows_moveBodies (T := fun p => ([.qre] : List Part).contains p) (by decide) (follows_refl s)).frame .cnt rfl

@[simp] theorem moveMap_cnt (s : State) (a b c d : Nat) : (moveMap s a b c d).cnt = s.cnt :=
  (follows_moveMap (T := fun p => ([.mem] : List Part).contains p) (by decide) (follows_refl s)).frame .cnt rfl

@[simp] theorem spineCounts_abandonQuire (s : State) (n : Nat) : spineCounts (abandonQuire s n).cnt = spineCounts s.cnt := by
  unfold abandonQuire
  split
  · rfl
  · split
    · rfl
    · dsimp only
      split <;> simp

@[simp] theorem spineCounts_spillLeaf (s : State) (n i : Nat) : spineCounts (spillLeaf s n i).cnt = spineCounts s.cnt := by
  unfold spillLeaf
  split
  · rfl
  · split
    · exact spineCounts_abandonQuire s n
    · simp

@[simp] theorem spineCounts_abandonLeaf (s : State) (n i : Nat) (counted : Bool) :
    spineCounts (abandonLeaf s n i counted).cnt = spineCounts s.cnt := by
  unfold abandonLeaf
  split
  · rfl
  · extract_lets l s1 w s2 s3
    have h2 : spineCounts s2.cnt = spineCounts s.cnt := by
      unfold s2
      split
      · rfl
      · cases counted <;> simp [s1]
    have h3 : spineCounts s3.cnt = spineCounts s.cnt := by
      rw [← h2]
      unfold s3
      split
      · simp
      · rfl
    rw [← h3]
    split <;> simp

@[simp] theorem spineCounts_closeQuire (s : State) (n cause : Nat) : spineCounts (closeQuire s n cause).cnt = spineCounts s.cnt := by
  unfold closeQuire
  split
  · rfl
  · split
    · rfl
    · dsimp only
      rw [sendQuire_cnt, foldl_keeps (fun u : State => spineCounts u.cnt)]
      · split <;> simp
      · intro u i
        split
        · rfl
        · split
          · rfl
          · split <;> simp

@[simp] theorem spineCounts_closeFull (s : State) (q : Quire) : spineCounts (closeFull s q).cnt = spineCounts s.cnt := by
  unfold closeFull
  split <;> simp

@[simp] theorem spineCounts_addGranule (s : State) (q : Quire) (seq g : Nat) :
    spineCounts (addGranule s q seq g).cnt = spineCounts s.cnt := by
  simp [addGranule]

@[simp] theorem waitQuire_cnt (s : State) (seq : Nat) : (waitQuire s seq).cnt = s.cnt := rfl

@[simp] theorem spineCounts_fillGranules (s : State) (seq nsid : Nat) (gs : List Nat) :
    spineCounts (fillGranules s seq nsid gs).cnt = spineCounts s.cnt := by
  refine foldl_keeps (fun u : State => spineCounts u.cnt) (fun u g => ?_) gs s
  split
  · split
    · simp
    · split <;> simp
  · split
    · next hopen =>
      rw [← openQuire_cnt hopen]
      split <;> simp
    · simp

@[simp] theorem spineCounts_fillZone (s : State) (seq nsid lba fuel n : Nat) :
    spineCounts (fillZone s seq nsid lba fuel n).cnt = spineCounts s.cnt := by
  induction fuel generalizing s lba n with
  | zero => simp [fillZone]
  | succ fuel ih =>
    cases n with
    | zero => simp [fillZone]
    | succ n =>
      simp only [fillZone]
      split
      · simp [ih]
      · split
        · next hopen => rw [ih, openQuire_cnt hopen]
        · simp

@[simp] theorem spineCounts_fillVersion (s : State) (v : Version) : spineCounts (fillVersion s v).cnt = spineCounts s.cnt := by
  unfold fillVersion
  split <;> simp

@[simp] theorem spineCounts_fillWaiting (s : State) : spineCounts (fillWaiting s).cnt = spineCounts s.cnt :=
  foldl_keeps (fun u : State => spineCounts u.cnt)
    (fun _ _ => foldl_keeps (fun u : State => spineCounts u.cnt) spineCounts_fillVersion _ _) _ _

@[simp] theorem spineCounts_placeRebuilt (s : State) (n i : Nat) (lost : Dword) :
    spineCounts (placeRebuilt s n i lost).cnt = spineCounts s.cnt := by
  unfold placeRebuilt
  split
  · rfl
  · next src hsrc =>
    extract_lets x
    have hx : ∀ y, x = some y → y.1.cnt = s.cnt := by
      intro y hy
      unfold x at hy
      split at hy
      · rw [← Option.some.inj hy]
      · obtain ⟨p, hp, hy⟩ := Option.bind_eq_some_iff.1 hy
        obtain ⟨q, -, rfl⟩ := Option.map_eq_some_iff.1 hy
        exact openQuire_cnt hp
    clear_value x
    split
    · rfl
    · next u q =>
      rw [← hx _ rfl]
      dsimp only
      split <;> simp [recordAmend]

@[simp] theorem spineCounts_placeWaiting (s : State) : spineCounts (placeWaiting s).cnt = spineCounts s.cnt :=
  foldl_keeps (fun u : State => spineCounts u.cnt) (fun _ _ => spineCounts_placeRebuilt ..) _ _

@[simp] theorem spineCounts_closeFor (s : State) (seq cause : Nat) : spineCounts (closeFor s seq cause).cnt = spineCounts s.cnt :=
  foldl_keeps (fun u : State => spineCounts u.cnt) (fun u q => by split <;> simp) _ _

@[simp] theorem spineCounts_closeWanted (s : State) : spineCounts (closeWanted s).cnt = spineCounts s.cnt := by
  refine foldl_keeps (fun u : State => spineCounts u.cnt) (fun u c => ?_) _ _
  split
  · simp [fuaClose]
  · split
    · unfold barrierClose
      split
      · exact foldl_keeps (fun u : State => spineCounts u.cnt) (fun _ _ => spineCounts_closeFor ..) _ _
      · rfl
    · rfl

@[simp] theorem spineCounts_refillNow (s : State) : spineCounts (refillNow s).cnt = spineCounts s.cnt := by
  simp [refillNow]

/-! ### States of the ANA groups (R246) -/

@[simp] theorem setCtrl_ana (s : State) (n : Nat) (c : Ctrl) : (setCtrl s n c).hiu.ana = s.hiu.ana := rfl

@[simp] theorem interrupt_ana (s : State) (n v : Nat) : (interrupt s n v).hiu.ana = s.hiu.ana := by
  unfold interrupt
  dsimp only
  split <;> rfl

@[simp] theorem writeEntry_ana (s : State) (c : Comp) : (writeEntry s c).hiu.ana = s.hiu.ana := by
  unfold writeEntry
  split
  · rfl
  · dsimp only
    split <;> simp

@[simp] theorem emit_ana (s : State) (c : Comp) : (emit s c).hiu.ana = s.hiu.ana := by
  unfold emit
  split
  · simp
  · split <;> simp

theorem finishDelete_ana (s : State) (e : Nat × Sq) : (finishDelete s e).hiu.ana = s.hiu.ana := by
  unfold finishDelete
  split
  · split
    · rfl
    · simp [dropSq]
  · rfl

@[simp] theorem post_ana (s : State) (c : Comp) : (post s c).hiu.ana = s.hiu.ana := by
  rw [post_eq_finishDeletes, finishDeletes_eq_foldl, foldl_keeps (fun u : State => u.hiu.ana) finishDelete_ana]
  exact emit_ana s c

@[simp] theorem deliver_ana (s : State) (n : Nat) : (deliver s n).hiu.ana = s.hiu.ana := by
  unfold deliver
  dsimp only
  split <;> simp

/-- An asynchronous event changes the state of no group. -/
@[simp] theorem asyncEvent_ana (s : State) (t i l : Nat) : (asyncEvent s t i l).hiu.ana = s.hiu.ana :=
  foldl_keeps (fun u : State => u.hiu.ana) (fun _ _ => by simp) _ _

@[simp] theorem vendorEvent_ana (s : State) (i : Nat) : (vendorEvent s i).hiu.ana = s.hiu.ana := asyncEvent_ana ..

/-- A group reads as the state it was set to. -/
theorem look_ana_setAna (s : State) (g st : Nat) : look (setAna s g st).hiu.ana g = some st := by
  unfold setAna
  split
  · assumption
  · simp

theorem anaOf_of_look {s : State} {g st : Nat} (h : look s.hiu.ana g = some st) : anaOf s g = st := by
  rw [anaOf, h, Option.getD_some]

end Sys2Proof.Machine
end

section
/-! PROOFS. R300, with R295, R298, R301, R304 and R305: the Spine Link's heartbeats, lanes and alive line; how the link is lost and restored,
and what its loss does to the bays, the groups and the versions. -/

namespace Sys2Proof.Machine

/-! ### The end of paired protection (R260, R261) -/

/-- The end of paired protection changes no group's state and no version, and leaves single-board or seal-only protection. -/
theorem loseMirror_spec (s : State) :
    (loseMirror s).hiu.ana = s.hiu.ana ∧ (loseMirror s).cmd.versions = s.cmd.versions ∧ 1 ≤ (loseMirror s).cmd.prot := by
  unfold loseMirror
  split
  · simp
  · split
    · next hprot => exact ⟨rfl, rfl, hprot.ge⟩
    · dsimp only
      rw [foldl_keeps (fun u : State => u.hiu.ana) (fun u v => by simp), foldl_keeps (fun u : State => u.cmd) (fun u v => by simp)]
      simp

/-! ### The loss of the twin (R305) -/

@[simp] theorem finishUnmount_frame (s : State) :
    (finishUnmount s).spn = s.spn ∧ (finishUnmount s).tck = s.tck ∧ (finishUnmount s).cnt = s.cnt ∧ (finishUnmount s).hiu = s.hiu ∧
      (finishUnmount s).cmd = s.cmd := by
  have h := follows_finishUnmount (T := fun p => ([.qre] : List Part).contains p) (by decide) (follows_refl s)
  exact ⟨h.frame .spn rfl, h.frame .tck rfl, h.frame .cnt rfl, h.frame .hiu rfl, h.frame .cmd rfl⟩

@[simp] theorem refillNow_frame (s : State) :
    (refillNow s).spn = s.spn ∧ (refillNow s).tck = s.tck ∧ (refillNow s).cmd = s.cmd := by
  have h := follows_refillNow (T := fun p => ([.cnt, .bays, .ports, .out, .rdc, .wrc, .cal, .qre, .mem, .bdy] : List Part).contains p)
    (by decide) (follows_refl s)
  exact ⟨h.frame .spn rfl, h.frame .tck rfl, h.frame .cmd rfl⟩

/-- A quire that the loss of the twin ends: abandoned where this twin builds it, else closed for good and counted. -/
def endQuire (s : State) (e : Nat × Quire) : State :=
  if e.2.twin = s.tck.twinId then abandonQuire s e.1
  else
    countEvent (setQuire s { e.2 with st := 3, leaves := e.2.leaves.map (fun l => if l.st = 4 then l else { l with st := 3 }) })
      10 1 1 0xFF 0xFF [e.1]

@[simp] theorem endQuire_frame (s : State) (e : Nat × Quire) :
    (endQuire s e).spn = s.spn ∧ (endQuire s e).tck = s.tck ∧ (endQuire s e).cmd = s.cmd ∧
      spineCounts (endQuire s e).cnt = spineCounts s.cnt := by
  unfold endQuire
  split <;> simp

theorem foldl_endQuire_frame (s : State) (es : Tbl Quire) :
    (es.foldl endQuire s).spn = s.spn ∧ (es.foldl endQuire s).tck = s.tck ∧ (es.foldl endQuire s).cmd = s.cmd ∧
      spineCounts (es.foldl endQuire s).cnt = spineCounts s.cnt :=
  ⟨foldl_keeps State.spn (by simp) es s, foldl_keeps State.tck (by simp) es s, foldl_keeps State.cmd (by simp) es s,
    foldl_keeps (fun u : State => spineCounts u.cnt) (by simp) es s⟩

/-- The takeover of the lost twin's records is noted in the pair's state; the versions held are those adopted; no counter of the link steps. -/
theorem adoptJournal_spec (s : State) :
    (adoptJournal s).spn = { s.spn with tookOver := true } ∧ (adoptJournal s).tck = s.tck ∧
      (adoptJournal s).cmd.versions = s.cmd.versions.map (adoptVersion s) ∧ spineCounts (adoptJournal s).cnt = spineCounts s.cnt := by
  unfold adoptJournal
  extract_lets base ended lostSeqs q1 c1 s1 s2 back p2 q2 s3 q3 s4
  obtain ⟨hspn, htck, hcmd, hcnt⟩ : s2.spn = s1.spn ∧ s2.tck = s1.tck ∧ s2.cmd = s1.cmd ∧ spineCounts s2.cnt = spineCounts s1.cnt :=
    foldl_endQuire_frame s1 ended
  have h4 : s4.spn = { s2.spn with tookOver := true } ∧ s4.tck = s2.tck ∧ s4.cmd = s2.cmd ∧ s4.cnt = s2.cnt := by
    unfold s4
    split <;> exact ⟨rfl, rfl, rfl, rfl⟩
  obtain ⟨hspn4, htck4, hcmd4, hcnt4⟩ := h4
  obtain ⟨hspn5, htck5, hcmd5⟩ := refillNow_frame s4
  refine ⟨?_, ?_, ?_, ?_⟩
  · rw [hspn5, hspn4]
    exact congrArg (fun p : Spn => { p with tookOver := true }) hspn
  · exact htck5.trans (htck4.trans htck)
  · exact congrArg CmdBlk.versions (hcmd5.trans (hcmd4.trans hcmd))
  · rw [spineCounts_refillNow, hcnt4]
    exact hcnt

theorem own_adoptVersion (s : State) (v : Version) : (adoptVersion s v).own = true := by
  unfold adoptVersion
  split
  · assumption
  · rfl

/-- This twin is master on its own reference, the loss of the other counted. -/
def masterAlone (s : State) : State :=
  countEvent { s with
    spn := { s.spn with peerLost := true }
    tck := { s.tck with master := true, outside := 0, alignFault := false, offsetNs := 0 } } 4 2 3

theorem loseTwin_false (s : State) : loseTwin s false = loseMirror (masterAlone s) := rfl

theorem loseTwin_true (s : State) :
    loseTwin s true =
      loseMirror (setAna (adoptJournal (setAna (masterAlone s) (2 - (masterAlone s).tck.twinId) 15)) (2 - (masterAlone s).tck.twinId) 1) := by
  rw [loseTwin, if_pos rfl, masterAlone]

/-- The twin lost with its copies stale: this twin is master without a mirror, and no group's state changes. -/
theorem loseTwin_stale (s : State) :
    (loseTwin s false).spn = { s.spn with peerLost := true } ∧ (loseTwin s false).tck.master = true ∧ 1 ≤ (loseTwin s false).cmd.prot ∧
      (loseTwin s false).hiu.ana = s.hiu.ana := by
  obtain ⟨hana, -, hprot⟩ := loseMirror_spec (masterAlone s)
  rw [loseTwin_false]
  exact ⟨by simp [masterAlone], by simp [masterAlone], hprot, hana⟩

/-- The twin lost with its copies complete: this twin is master, its group Optimized here, every version this twin's own. -/
theorem loseTwin_complete (s : State) :
    (loseTwin s true).spn = { s.spn with peerLost := true, tookOver := true } ∧ (loseTwin s true).tck.master = true ∧
      look (loseTwin s true).hiu.ana (2 - s.tck.twinId) = some 1 ∧ (∀ v ∈ (loseTwin s true).cmd.versions, v.own = true) ∧
      spineCounts (loseTwin s true).cnt = spineCounts (bump s 4 2).cnt := by
  rw [loseTwin_true, show s.tck.twinId = (masterAlone s).tck.twinId from rfl]
  generalize 2 - (masterAlone s).tck.twinId = g
  obtain ⟨hspn, htck, hver, hcnt⟩ := adoptJournal_spec (setAna (masterAlone s) g 15)
  obtain ⟨hana, hver', -⟩ := loseMirror_spec (setAna (adoptJournal (setAna (masterAlone s) g 15)) g 1)
  refine ⟨?_, ?_, ?_, ?_, ?_⟩
  · simp only [loseMirror_frame, setAna_frame, hspn]
    rfl
  · simp only [loseMirror_frame, setAna_frame, htck]
    rfl
  · rw [hana, look_ana_setAna]
  · intro v hv
    rw [hver'] at hv
    obtain ⟨w, -, rfl⟩ : ∃ w ∈ (setAna (masterAlone s) g 15).cmd.versions, adoptVersion (setAna (masterAlone s) g 15) w = v := by
      simpa [hver] using hv
    exact own_adoptVersion _ w
  · simp only [loseMirror_frame, setAna_frame, hcnt]
    rfl

/-! ### The loss of the link (R253, R300, R304) -/

@[simp] theorem endForwarded_frame (s : State) :
    (endForwarded s).spn = s.spn ∧ (endForwarded s).tck = s.tck ∧ (endForwarded s).cnt = s.cnt := by
  have h := follows_endForwarded (T := fun p => ([.out, .hiu] : List Part).contains p) (by decide) (follows_refl s)
  exact ⟨h.frame .spn rfl, h.frame .tck rfl, h.frame .cnt rfl⟩

@[simp] theorem loseArmed_frame (s : State) :
    (loseArmed s).spn = s.spn ∧ (loseArmed s).tck = s.tck ∧ (loseArmed s).cnt = s.cnt := by
  have h := follows_loseArmed (T := fun p => ([.bnd] : List Part).contains p) (by decide) (follows_refl s)
  exact ⟨h.frame .spn rfl, h.frame .tck rfl, h.frame .cnt rfl⟩

@[simp] theorem dropPeerLeaves_frame (s : State) :
    (dropPeerLeaves s).spn = s.spn ∧ (dropPeerLeaves s).tck = s.tck ∧ spineCounts (dropPeerLeaves s).cnt = spineCounts s.cnt := by
  have h := follows_dropPeerLeaves (T := fun p => ([.cnt, .bays, .ports, .out, .rdc, .wrc, .cal, .qre, .bdy] : List Part).contains p)
    (by decide) (follows_refl s)
  refine ⟨h.frame .spn rfl, h.frame .tck rfl, foldl_keeps (fun u : State => spineCounts u.cnt) (fun u e => ?_) _ _⟩
  split
  · exact foldl_keeps (fun u : State => spineCounts u.cnt) (fun u i => spineCounts_abandonLeaf u e.1 i false) _ _
  · simp

/-- The pair's state apart from the bays. -/
def linkOf (s : State) : Spn := { s.spn with bays := [] }

/-- The pair's state apart from the bays tells each of its fields. -/
theorem spn_of_linkOf {t : State} {p : Spn} (h : linkOf t = p) :
    t.spn.link = p.link ∧ t.spn.missing = p.missing ∧ t.spn.present = p.present ∧ t.spn.peer = p.peer ∧ t.spn.lanes = p.lanes ∧
      t.spn.paired = p.paired ∧ t.spn.peerAlive = p.peerAlive := by
  subst h
  exact ⟨rfl, rfl, rfl, rfl, rfl, rfl, rfl⟩

@[simp] theorem linkOf_setPair (s : State) (n : Nat) (p : PairBay) : linkOf (setPair s n p) = linkOf s := rfl

@[simp] theorem linkOf_bump (s : State) (b i : Nat) : linkOf (bump s b i) = linkOf s := rfl

@[simp] theorem linkOf_withhold (s : State) (b c : Nat) : linkOf (withhold s b c) = linkOf s := linkOf_setPair ..

@[simp] theorem linkOf_nameCapture (s : State) (b : Nat) : linkOf (nameCapture s b) = linkOf s := linkOf_setPair ..

/-- The pair's state with the link lost or down: neither paired nor pairing, no heartbeat present in a row. -/
def cutSpn (p : Spn) (k : Nat) : Spn :=
  { p with link := k, paired := false, pairing := false, awaitBinding := false, exchange := [], present := 0 }

/-- The pair state of a bay after the loss of the link. -/
def lostPair (p : PairBay) : PairBay :=
  { p with
    withhold := if p.role = 2 then (if p.withhold = 1 then 1 else 9) else p.withhold, hits := 0, handover := 0, returning := false
    resync := 0, kKnown := false, ring := [], cmdRing := [], askedAt := 0, peerReady := false, missed := false }

theorem linkLostBay_eq (s : State) (b : Nat) : linkLostBay s b = setPair s b (lostPair (pairAt s b)) := rfl

theorem withhold_lostPair {p : PairBay} (h : p.role = 2) : (lostPair p).withhold ≠ 0 := by
  unfold lostPair
  dsimp only
  rw [if_pos h]
  split <;> decide

/-- What the loss of a link in service does before it turns to the twin: packets and the exchange gone, the loss counted, forwarded commands
ended, armed containers discarded, every bay's pair state lost. -/
def cutLink (s : State) (k : Nat) : State :=
  (List.range 8).foldl linkLostBay (loseArmed (endForwarded (countEvent { s with out := [], spn := cutSpn s.spn k } 4 1 2)))

theorem linkOf_cutLink (s : State) (k : Nat) : linkOf (cutLink s k) = cutSpn (linkOf s) k := by
  rw [cutLink, foldl_keeps linkOf (f := linkLostBay) (fun _ _ => rfl)]
  simp [linkOf, cutSpn]

theorem cutLink_link (s : State) (k : Nat) :
    (cutLink s k).spn.link = k ∧ (cutLink s k).spn.lanes = s.spn.lanes ∧ (cutLink s k).spn.paired = false ∧ (cutLink s k).spn.present = 0 ∧
      (cutLink s k).spn.peerAlive = s.spn.peerAlive := by
  obtain ⟨hlink, -, hpresent, -, hlanes, hpaired, halive⟩ := spn_of_linkOf (linkOf_cutLink s k)
  exact ⟨hlink, hlanes, hpaired, hpresent, halive⟩

theorem cutLink_tck (s : State) (k : Nat) : (cutLink s k).tck = s.tck := by
  rw [cutLink, foldl_keeps State.tck (f := linkLostBay) (fun _ _ => rfl)]
  simp

theorem cutLink_cnt (s : State) (k : Nat) : (cutLink s k).cnt = (bump s 4 1).cnt := by
  rw [cutLink, foldl_keeps State.cnt (f := linkLostBay) (fun _ _ => rfl)]
  simp only [loseArmed_frame, endForwarded_frame]
  rfl

theorem pairAt_cutLink (s : State) (k : Nat) {b : Nat} (hb : b < 8) : pairAt (cutLink s k) b = lostPair (pairAt s b) := by
  rw [cutLink, foldl_bays (pairAt · b) lostPair hb]
  · simp [pairAt, cutSpn]
  · intro u
    rw [linkLostBay_eq, pairAt_setPair, if_pos rfl]
  · intro u a hne
    rw [linkLostBay_eq, pairAt_setPair, if_neg hne]

/-- A link not in service has nothing more to lose. -/
theorem loseLink_of_not_up {s : State} (k : Nat) (h : s.spn.link ≠ 2) :
    loseLink s k = { s with out := [], spn := cutSpn s.spn k } :=
  if_pos h

theorem loseLink_of_up {s : State} (k : Nat) (h : s.spn.link = 2) :
    loseLink s k =
      if (cutLink s k).spn.peerAlive then
        finishUnmount (loseMirror (setAna (dropPeerLeaves (cutLink s k)) (2 - (cutLink s k).tck.twinId) 3))
      else finishUnmount (loseTwin (cutLink s k) true) := by
  unfold loseLink cutLink cutSpn
  exact if_neg (not_not_intro h)

theorem loseLink_of_alive {s : State} (k : Nat) (h : s.spn.link = 2) (ha : s.spn.peerAlive = true) :
    loseLink s k = finishUnmount (loseMirror (setAna (dropPeerLeaves (cutLink s k)) (2 - s.tck.twinId) 3)) := by
  obtain ⟨-, -, -, -, hpa⟩ := cutLink_link s k
  rw [loseLink_of_up k h, if_pos (hpa.trans ha), cutLink_tck]

theorem loseLink_of_dead {s : State} (k : Nat) (h : s.spn.link = 2) (ha : s.spn.peerAlive = false) :
    loseLink s k = finishUnmount (loseTwin (cutLink s k) true) := by
  obtain ⟨-, -, -, -, hpa⟩ := cutLink_link s k
  rw [loseLink_of_up k h, if_neg (Bool.eq_false_iff.1 (hpa.trans ha))]

/-- What follows the cut leaves the link, its lanes and the bays as the cut made them. -/
theorem loseLink_spn_of_up {s : State} (k : Nat) (h : s.spn.link = 2) :
    (loseLink s k).spn.link = (cutLink s k).spn.link ∧ (loseLink s k).spn.lanes = (cutLink s k).spn.lanes ∧
      (loseLink s k).spn.paired = (cutLink s k).spn.paired ∧ (loseLink s k).spn.present = (cutLink s k).spn.present ∧
      (loseLink s k).spn.bays = (cutLink s k).spn.bays := by
  cases ha : s.spn.peerAlive with
  | true =>
    rw [loseLink_of_alive k h ha]
    simp
  | false =>
    obtain ⟨hspn, -⟩ := loseTwin_complete (cutLink s k)
    rw [loseLink_of_dead k h ha]
    simp [hspn]

/-- The link stands as lost or down, not paired, its lanes as they were. -/
theorem loseLink_link (s : State) (k : Nat) :
    (loseLink s k).spn.link = k ∧ (loseLink s k).spn.lanes = s.spn.lanes ∧ (loseLink s k).spn.paired = false ∧
      (loseLink s k).spn.present = 0 := by
  by_cases h : s.spn.link = 2
  · obtain ⟨hlink, hlanes, hpaired, hpresent, -⟩ := loseLink_spn_of_up k h
    obtain ⟨hlink', hlanes', hpaired', hpresent', -⟩ := cutLink_link s k
    exact ⟨hlink.trans hlink', hlanes.trans hlanes', hpaired.trans hpaired', hpresent.trans hpresent'⟩
  · rw [loseLink_of_not_up k h]
    exact ⟨rfl, rfl, rfl, rfl⟩

theorem pairAt_loseLink {s : State} (k : Nat) (h : s.spn.link = 2) {b : Nat} (hb : b < 8) :
    pairAt (loseLink s k) b = lostPair (pairAt s b) := by
  obtain ⟨-, -, -, -, hbays⟩ := loseLink_spn_of_up k h
  rw [← pairAt_cutLink s k hb, pairAt, hbays, pairAt]

/-- Of the link's counters its loss steps the one of link losses, and at most the one of lost twins. -/
theorem counter_loseLink {s : State} (k : Nat) (h : s.spn.link = 2) {i : Nat} (hi : i < 32) (hne : i ≠ 2) :
    counter (loseLink s k) 4 i = counter (bump s 4 1) 4 i := by
  have hcut : counter (cutLink s k) 4 i = counter (bump s 4 1) 4 i := by rw [counter, cutLink_cnt, counter]
  cases ha : s.spn.peerAlive with
  | true =>
    rw [loseLink_of_alive k h ha, ← hcut]
    exact counter_eq_of_spineCounts hi (by simp)
  | false =>
    rw [loseLink_of_dead k h ha, ← hcut, counter_eq_of_spineCounts (s := bump (cutLink s k) 4 2) hi]
    · rw [counter_bump, if_neg (by omega)]
    · obtain ⟨-, -, -, -, hcnt⟩ := loseTwin_complete (cutLink s k)
      simp only [finishUnmount_frame, hcnt]

/-! ### Heartbeats (R45, R298, R299) -/

theorem linkOf_shadowBeat (h : Heartbeat) (s : State) (b : Nat) : linkOf (shadowBeat h s b) = linkOf s := by
  unfold shadowBeat
  split
  · rfl
  · extract_lets p s1 p1 n
    have h1 : linkOf s1 = linkOf s := by
      unfold s1
      split <;> simp
    rw [← h1]
    split
    · rfl
    · split
      · simp
      · split <;> simp

theorem linkOf_shadowCapture (h : Heartbeat) (s : State) (b : Nat) : linkOf (shadowCapture h s b) = linkOf s := by
  unfold shadowCapture
  dsimp only
  split <;> simp

theorem linkOf_runnerBeat (h : Heartbeat) (s : State) (b : Nat) : linkOf (runnerBeat h s b) = linkOf s := by
  unfold runnerBeat
  split
  · rfl
  · dsimp only
    rw [apply_ite linkOf]
    simp

theorem linkOf_queueShadow (s : State) (c : HbCmd) : linkOf (queueShadow s c) = linkOf s := by
  unfold queueShadow
  dsimp only
  split <;> rfl

theorem linkOf_shadowCommand (s : State) (n : Nat) (c : HbCmd) : linkOf (shadowCommand s n c) = linkOf s := by
  unfold shadowCommand
  dsimp only
  split
  · rfl
  · split
    · split <;> simp
    · split
      · simp
      · exact linkOf_queueShadow s c

/-- The commands of a heartbeat, as the shadow takes them. -/
def shadowCommands (s : State) (h : Heartbeat) : State := h.cmds.foldl (fun s c => shadowCommand s h.count.toNat c) s

theorem linkOf_shadowCommands (s : State) (h : Heartbeat) : linkOf (shadowCommands s h) = linkOf s :=
  foldl_keeps linkOf (fun u c => linkOf_shadowCommand u h.count.toNat c) h.cmds s

/-- A heartbeat of the pair in service changes nothing of the pair's state but the bays. -/
theorem linkOf_pairBeat (s : State) (h : Heartbeat) : linkOf (pairBeat s h) = linkOf s :=
  (foldl_keeps linkOf (fun u b => by rw [linkOf_runnerBeat, linkOf_shadowCapture, linkOf_shadowBeat]) _ _).trans (linkOf_shadowCommands s h)

/-- A heartbeat present: no run of missing ones, one more in the run of present ones. -/
def presentSpn (p : Spn) (h : Heartbeat) : Spn := { p with peer := some h, missing := 0, present := min (p.present + 1) 256 }

section
variable {s : State} {h : Heartbeat} (hsender : h.sender.val ≠ s.tck.twinId) (hphase : s.pwr.phase ≠ .porLow) (hlink : s.spn.link ≠ 0)
include hsender hphase hlink

theorem exec_heartbeatReceive_not_up (hup : s.spn.link ≠ 2) :
    exec (.heartbeatReceive h) s =
      .next { s with spn := presentSpn s.spn h, tck := { s.tck with pairOffset := (h.count.toNat : Int) - now s } } :=
  (if_neg (by simp [hsender, hphase, hlink])).trans (if_neg hup)

theorem exec_heartbeatReceive_due (hup : s.spn.link = 2) (hcount : (h.count.toNat : Int) = now s + s.tck.pairOffset) :
    exec (.heartbeatReceive h) s =
      .next (if s.spn.paired then pairBeat { s with spn := presentSpn s.spn h } h else { s with spn := presentSpn s.spn h }) :=
  (if_neg (by simp [hsender, hphase, hlink])).trans ((if_pos hup).trans ((if_neg (by omega)).trans (if_neg (not_not_intro hcount))))

theorem exec_heartbeatReceive_early (hup : s.spn.link = 2) (hcount : now s + s.tck.pairOffset < (h.count.toNat : Int)) :
    exec (.heartbeatReceive h) s = .next s :=
  (if_neg (by simp [hsender, hphase, hlink])).trans ((if_pos hup).trans ((if_neg (by omega)).trans (if_pos (by omega))))

theorem exec_heartbeatReceive_late (hup : s.spn.link = 2) (hcount : (h.count.toNat : Int) < now s + s.tck.pairOffset) :
    exec (.heartbeatReceive h) s = .next (if s.spn.paired then shadowCommands s h else s) :=
  (if_neg (by simp [hsender, hphase, hlink])).trans ((if_pos hup).trans (if_pos hcount))

end

/-- What a missing heartbeat changes of a bay's pair state. -/
def missedPair (owned : Bool) (n : Nat) (p : PairBay) : PairBay :=
  if p.role == 2 then
    let void := owned && (p.resync == 3 || p.resync == 2 && decide (p.k < n))
    { p with missed := p.missed || owned, resync := if void then 0 else p.resync, kKnown := p.kKnown && !void, ring := if void then [] else p.ring }
  else if p.role == 1 then
    let cancel := decide (n < p.handover)
    { p with peerReady := false, handover := if cancel then 0 else p.handover, returning := p.returning && !cancel }
  else p

/-- The step of HEARTBEAT_MISSING at one bay, which the twin runs or shadows or has no part in. -/
def missBay (owned : Bool) (s : State) (b : Nat) : State :=
  if shadows s b || runs s b then setPair s b (missedPair owned (now s) (pairAt s b)) else s

/-- At its bay the step does what `missedPair` says; no other bay, the stitch and the rest of the pair's state stay. -/
theorem missBay_spec (owned : Bool) (s : State) (b : Nat) :
    pairAt (missBay owned s b) b = missedPair owned (now s) (pairAt s b) ∧ (∀ a, a ≠ b → pairAt (missBay owned s b) a = pairAt s a) ∧
      now (missBay owned s b) = now s ∧ linkOf (missBay owned s b) = linkOf s := by
  unfold missBay
  split
  · refine ⟨?_, fun a hne => ?_, rfl, rfl⟩
    · rw [pairAt_setPair, if_pos rfl]
    · rw [pairAt_setPair, if_neg hne.symm]
  · next hpart =>
    obtain ⟨hs, hr⟩ : shadows s b = false ∧ runs s b = false := by simpa using hpart
    have hnone : missedPair owned (now s) (pairAt s b) = pairAt s b :=
      (if_neg (Bool.eq_false_iff.1 hs)).trans (if_neg (Bool.eq_false_iff.1 hr))
    exact ⟨hnone.symm, fun _ _ => rfl, rfl, rfl⟩

/-- The counts of a missing heartbeat. -/
def missingSpn (p : Spn) : Spn := { p with missing := min (p.missing + 1) 65535, present := 0 }

/-- The state of a missing heartbeat before it turns to the bays. -/
def countMissing (s : State) : State :=
  if s.spn.link = 2 then bump { s with spn := missingSpn s.spn } 4 0 else { s with spn := missingSpn s.spn }

theorem exec_heartbeatMissing_of_present {s : State} {h : Heartbeat} (hpeer : s.spn.peer = some h)
    (hcount : (h.count.toNat : Int) = now s + s.tck.pairOffset) : exec .heartbeatMissing s = .next s :=
  if_pos (.inr (.inr (by simp [hpeer, hcount])))

theorem exec_heartbeatMissing_of_absent {s : State} (hlink : s.spn.link ≠ 0) (hphase : s.pwr.phase ≠ .porLow)
    (habsent : ∀ h, s.spn.peer = some h → (h.count.toNat : Int) ≠ now s + s.tck.pairOffset) :
    exec .heartbeatMissing s = .next ((List.range 8).foldl (missBay (s.spn.peer.any (fun _ => true))) (countMissing s)) := by
  have hgo : ¬ (s.spn.link = 0 ∨ s.pwr.phase = .porLow ∨
      s.spn.peer.any (fun h => decide ((h.count.toNat : Int) = now s + s.tck.pairOffset)) = true) := by
    cases hp : s.spn.peer with
    | none => simp [hlink, hphase]
    | some h => simp [hlink, hphase, habsent h hp]
  rw [show exec .heartbeatMissing s = execHeartbeatMissing s from rfl, execHeartbeatMissing, if_neg hgo]
  refine congrArg Host.Outcome.next (List.foldl_ext _ _ _ fun u b _ => ?_)
  have hs : shadows u b = ((pairAt u b).role == 2) := rfl
  have hr : runs u b = ((pairAt u b).role == 1) := rfl
  unfold missBay missedPair
  rw [hs, hr]
  cases (pairAt u b).role == 2 <;> cases (pairAt u b).role == 1 <;> rfl

theorem pairAt_foldl_missBay (owned : Bool) (s : State) {b : Nat} (hb : b < 8) :
    pairAt ((List.range 8).foldl (missBay owned) s) b = missedPair owned (now s) (pairAt s b) := by
  have hat (u : State) : (pairAt (missBay owned u b) b, now (missBay owned u b)) = (missedPair owned (now u) (pairAt u b), now u) := by
    obtain ⟨hat, -, hnow, -⟩ := missBay_spec owned u b
    rw [hat, hnow]
  have hne (u : State) (a : Nat) (hab : a ≠ b) : (pairAt (missBay owned u a) b, now (missBay owned u a)) = (pairAt u b, now u) := by
    obtain ⟨-, hother, hnow, -⟩ := missBay_spec owned u a
    rw [hother b hab.symm, hnow]
  have h := foldl_bays (fun u => (pairAt u b, now u)) (fun x => (missedPair owned x.2 x.1, x.2)) (f := missBay owned) hb hat hne s
  dsimp only at h
  exact (Prod.mk.inj h).1

/-! ### Heartbeats present, late and missing -/

theorem linkOf_ite_pairBeat (s : State) (h : Heartbeat) :
    linkOf (if s.spn.paired then pairBeat { s with spn := presentSpn s.spn h } h else { s with spn := presentSpn s.spn h }) =
      presentSpn (linkOf s) h := by
  split
  · exact linkOf_pairBeat _ h
  · rfl

section
variable {s : State} {h : Heartbeat} (hsender : h.sender.val ≠ s.tck.twinId) (hphase : s.pwr.phase ≠ .porLow) (hlink : s.spn.link ≠ 0)
include hsender hphase hlink

/-- A heartbeat that is present. -/
theorem heartbeat_present (hdue : s.spn.link ≠ 2 ∨ (h.count.toNat : Int) = now s + s.tck.pairOffset) :
    ∃ t, exec (.heartbeatReceive h) s = .next t ∧ t.spn.missing = 0 ∧ t.spn.present = min (s.spn.present + 1) 256 ∧ t.spn.peer = some h ∧
      t.spn.link = s.spn.link := by
  by_cases hup : s.spn.link = 2
  · refine ⟨_, exec_heartbeatReceive_due hsender hphase hlink hup (hdue.resolve_left (not_not_intro hup)), ?_⟩
    obtain ⟨hl, hmissing, hpresent, hpeer, -⟩ := spn_of_linkOf (linkOf_ite_pairBeat s h)
    exact ⟨hmissing, hpresent, hpeer, hl⟩
  · exact ⟨_, exec_heartbeatReceive_not_up hsender hphase hlink hup, rfl, rfl, rfl, rfl⟩

/-- A heartbeat that comes late. -/
theorem heartbeat_late (hup : s.spn.link = 2) (hcount : (h.count.toNat : Int) < now s + s.tck.pairOffset) :
    ∃ t, exec (.heartbeatReceive h) s = .next t ∧ t.spn.missing = s.spn.missing ∧ t.spn.present = s.spn.present ∧ t.spn.peer = s.spn.peer ∧
      t.spn.link = s.spn.link ∧ (h.cmds = [] → t = s) := by
  have hkeep : linkOf (if s.spn.paired then shadowCommands s h else s) = linkOf s := by
    split
    · exact linkOf_shadowCommands s h
    · rfl
  obtain ⟨hl, hmissing, hpresent, hpeer, -⟩ := spn_of_linkOf hkeep
  refine ⟨_, exec_heartbeatReceive_late hsender hphase hlink hup hcount, hmissing, hpresent, hpeer, hl, fun hnil => ?_⟩
  simp [shadowCommands, hnil]

end

/-- A heartbeat that is missing. -/
theorem heartbeat_missed {s : State} (hlink : s.spn.link ≠ 0) (hphase : s.pwr.phase ≠ .porLow)
    (habsent : ∀ h, s.spn.peer = some h → (h.count.toNat : Int) ≠ now s + s.tck.pairOffset) :
    ∃ t, exec .heartbeatMissing s = .next t ∧ t.spn.missing = min (s.spn.missing + 1) 65535 ∧ t.spn.present = 0 ∧ t.spn.link = s.spn.link ∧
      ∀ b, b < 8 → runs s b = true → (pairAt t b).peerReady = false ∧ (now s < (pairAt s b).handover → (pairAt t b).handover = 0) := by
  have hcount : (countMissing s).spn = missingSpn s.spn ∧ now (countMissing s) = now s := by
    unfold countMissing
    split <;> exact ⟨rfl, rfl⟩
  obtain ⟨hspn, hnow⟩ := hcount
  obtain ⟨hl, hmissing, hpresent, -⟩ := spn_of_linkOf
    (foldl_keeps linkOf (fun u b => (missBay_spec (s.spn.peer.any (fun _ => true)) u b).2.2.2) (List.range 8) (countMissing s))
  rw [linkOf, hspn] at hl hmissing hpresent
  refine ⟨_, exec_heartbeatMissing_of_absent hlink hphase habsent, hmissing, hpresent, hl, fun b hb hruns => ?_⟩
  have hpair : pairAt (countMissing s) b = pairAt s b := by rw [pairAt, hspn]; rfl
  have hrole : (pairAt s b).role = 1 := by simpa [runs] using hruns
  rw [pairAt_foldl_missBay _ _ hb, hnow, hpair]
  simp +contextual [missedPair, hrole]

/-! ### The loss and the return of the link (R246, R300, R304, R305) -/

/-- Heartbeats missing or the link down: the link in service is lost. -/
theorem exec_spineLinkLost_of_up {s : State} {d : Bool} (hup : s.spn.link = 2) (hd : d = true ∨ 16 ≤ s.spn.missing) :
    exec (.spineLinkLost d) s = .next (loseLink s (if d then 0 else 3)) :=
  if_neg (by
    have : d = false → ¬ s.spn.missing < 16 := fun hf => by simpa [hf] using hd
    simpa [hup] using this)

theorem exec_spineLinkLost_of_few {s : State} (hfew : s.spn.missing < 16) : exec (.spineLinkLost false) s = .next s :=
  if_pos (.inr ⟨rfl, hfew⟩)

theorem exec_spineLinkLost_of_not_up {s : State} (d : Bool) (h : s.spn.link ≠ 2) : exec (.spineLinkLost d) s = .next s :=
  if_pos (.inl h)

/-- The twin still toggles: its group is Inaccessible, and this twin goes on without a mirror. -/
theorem loseLink_twin_alive {s : State} (k : Nat) (hup : s.spn.link = 2) (ha : s.spn.peerAlive = true) :
    anaOf (loseLink s k) (2 - s.tck.twinId) = 3 ∧ 1 ≤ (loseLink s k).cmd.prot ∧ (loseLink s k).tck.master = s.tck.master := by
  rw [loseLink_of_alive k hup ha]
  obtain ⟨hana, -, hprot⟩ := loseMirror_spec (setAna (dropPeerLeaves (cutLink s k)) (2 - s.tck.twinId) 3)
  refine ⟨anaOf_of_look ?_, ?_, ?_⟩
  · simp only [finishUnmount_frame, hana, look_ana_setAna]
  · simpa only [finishUnmount_frame] using hprot
  · simp [cutLink_tck]

/-- The twin no longer toggles: it is lost, and this twin takes its place. -/
theorem loseLink_twin_dead {s : State} (k : Nat) (hup : s.spn.link = 2) (ha : s.spn.peerAlive = false) :
    anaOf (loseLink s k) (2 - s.tck.twinId) = 1 ∧ (loseLink s k).spn.peerLost = true ∧ (loseLink s k).tck.master = true ∧
      ∀ v ∈ (loseLink s k).cmd.versions, v.own = true := by
  rw [loseLink_of_dead k hup ha]
  obtain ⟨hspn, hmaster, hana, hown, -⟩ := loseTwin_complete (cutLink s k)
  obtain ⟨hspn', htck, -, hhiu, hcmd⟩ := finishUnmount_frame (loseTwin (cutLink s k) true)
  rw [cutLink_tck] at hana
  refine ⟨anaOf_of_look ?_, ?_, ?_, ?_⟩
  · rw [hhiu, hana]
  · rw [hspn', hspn]
  · rw [htck, hmaster]
  · rwa [hcmd]

/-- The link has trained: it is in service on all eight lanes. -/
theorem link_trained {s : State} (h : s.spn.link = 1) :
    ∃ t, exec .spineLinkRestored s = .next t ∧ t.spn.link = 2 ∧ t.spn.missing = 0 ∧ t.spn.lanes = 0xFF ∧ OnlyIn [.spn, .free] s t :=
  ⟨_, if_pos h, rfl, rfl, rfl, onlyIn_of_follows (follows_drawn (by decide) (upd_spn (by decide) (follows_refl s)))⟩

theorem exec_spineLinkRestored_of_present {s : State} (h : s.spn.link = 3) (hp : 256 ≤ s.spn.present) :
    exec .spineLinkRestored s = .next { s with spn := { s.spn with link := 2, missing := 0 } } :=
  (if_neg (by omega)).trans (if_pos ⟨h, hp⟩)

theorem exec_spineLinkRestored_of_not {s : State} (h : s.spn.link ≠ 1) (hp : s.spn.link = 3 → s.spn.present < 256) :
    exec .spineLinkRestored s = .next s :=
  (if_neg h).trans (if_neg (fun h3 => Nat.not_le.2 (hp h3.1) h3.2))

/-! ### Lanes (R295) -/

/-- The state of a dropped lane, the drop counted. -/
def dropLane (s : State) (lane : Fin 8) : State :=
  countEvent { s with spn := { s.spn with lanes := s.spn.lanes &&& ~~~((1 : Byte) <<< lane.val) } } 4 10 1 0xFF 0xFF [lane]

theorem exec_spineLaneDrop_of_dropped {s : State} {lane : Fin 8} (h : s.spn.lanes.getLsbD lane = false) :
    exec (.spineLaneDrop lane) s = .next s :=
  if_pos (by rw [h]; rfl)

theorem exec_spineLaneDrop_of_use {s : State} {lane : Fin 8} (h : s.spn.lanes.getLsbD lane = true) :
    exec (.spineLaneDrop lane) s =
      .next (if s.spn.lanes &&& ~~~((1 : Byte) <<< lane.val) = 0 then loseLink (dropLane s lane) 0 else dropLane s lane) :=
  if_neg (by simp [h])

theorem counter_dropLane (s : State) (lane : Fin 8) : counter (dropLane s lane) 4 10 = counter s 4 10 + 1 := by
  rw [dropLane, counter_countEvent, if_pos rfl]
  rfl

theorem onlyIn_dropLane (s : State) (lane : Fin 8) : OnlyIn [.spn, .cnt, .bdy] s (dropLane s lane) :=
  onlyIn_of_follows (follows_countEvent (by decide) (upd_spn (by decide) (follows_refl s)))

/-- The loss of the link, in service or not, does not step the counter of dropped lanes. -/
theorem counter_loseLink_lanes (s : State) (k : Nat) : counter (loseLink s k) 4 10 = counter s 4 10 := by
  by_cases h : s.spn.link = 2
  · rw [counter_loseLink k h (by decide) (by decide), counter_bump, if_neg (by decide)]
  · rw [loseLink_of_not_up k h]
    rfl

/-- A lane dropped: the link runs on with the others, and is down with none. -/
theorem lane_drop {s : State} {lane : Fin 8} (h : s.spn.lanes.getLsbD lane = true) :
    let rest := s.spn.lanes &&& ~~~((1 : Byte) <<< lane.val)
    ∃ t, exec (.spineLaneDrop lane) s = .next t ∧ t.spn.lanes = rest ∧ counter t 4 10 = counter s 4 10 + 1 ∧
      (rest ≠ 0 → t.spn = { s.spn with lanes := rest } ∧ OnlyIn [.spn, .cnt, .bdy] s t) ∧ (rest = 0 → t.spn.link = 0) := by
  intro rest
  by_cases hrest : rest = 0
  · obtain ⟨hlink, hlanes, -, -⟩ := loseLink_link (dropLane s lane) 0
    refine ⟨loseLink (dropLane s lane) 0, ?_, hlanes, ?_, fun hne => absurd hrest hne, fun _ => hlink⟩
    · rw [exec_spineLaneDrop_of_use h, if_pos hrest]
    · rw [counter_loseLink_lanes, counter_dropLane]
  · refine ⟨dropLane s lane, ?_, rfl, counter_dropLane s lane, fun _ => ⟨rfl, onlyIn_dropLane s lane⟩, fun h0 => absurd h0 hrest⟩
    rw [exec_spineLaneDrop_of_use h, if_neg hrest]

/-- The bit of one lane. -/
theorem getLsbD_lane (lane k : Fin 8) : ((1 : Byte) <<< lane.val).getLsbD k = decide (k = lane) := by
  revert lane k
  decide

/-- A lane restored: of the lanes its bit alone changes, and a link that was down is lost until its heartbeats are present. -/
theorem lane_restore (s : State) (lane : Fin 8) :
    ∃ t, exec (.spineLaneRestore lane) s = .next t ∧ t.spn.lanes.getLsbD lane = true ∧
      (∀ k, k < 8 → k ≠ lane.val → t.spn.lanes.getLsbD k = s.spn.lanes.getLsbD k) ∧
      t.spn.link = (if s.spn.link = 0 ∧ s.pwr.phase ≠ .porLow then 3 else s.spn.link) ∧ OnlyIn [.spn] s t := by
  refine ⟨_, rfl, ?_, fun k hk hne => ?_, rfl, onlyIn_of_follows (upd_spn (by decide) (follows_refl s))⟩
  · rw [BitVec.getLsbD_or, getLsbD_lane, decide_eq_true rfl, Bool.or_true]
  · rw [BitVec.getLsbD_or, getLsbD_lane lane ⟨k, hk⟩, decide_eq_false (fun h => hne (congrArg Fin.val h)), Bool.or_false]

/-! ### The alive line (R301) -/

theorem exec_aliveInDead_of_quiet {s : State} (h : s.spn.aliveQuiet < 2 ∨ s.spn.peerAlive = false) : exec .aliveInDead s = .next s :=
  if_pos (by simpa using h)

section
variable {s : State} (hquiet : 2 ≤ s.spn.aliveQuiet) (ha : s.spn.peerAlive = true)
include hquiet ha

/-- The line falls silent with the link in service or in training: no more than the line's state changes. -/
theorem alive_dead_in_service (hlink : s.spn.link = 1 ∨ s.spn.link = 2) :
    ∃ t, exec .aliveInDead s = .next t ∧ t.spn = { s.spn with peerAlive := false } ∧ OnlyIn [.spn, .cnt, .bdy] s t := by
  have hgo : ¬ (s.spn.aliveQuiet < 2 ∨ (!s.spn.peerAlive) = true) :=
    fun h => h.elim (Nat.not_lt.2 hquiet) (by simp [ha])
  have hframe : Follows (fun p => ([.spn, .cnt, .bdy] : List Part).contains p) s { s with spn := { s.spn with peerAlive := false } } :=
    upd_spn (by decide) (follows_refl s)
  rcases hlink with hlink | hlink
  · exact ⟨_, (if_neg hgo).trans ((if_neg (by omega)).trans (if_pos hlink)), rfl, onlyIn_of_follows hframe⟩
  · refine ⟨_, (if_neg hgo).trans (if_pos hlink), ?_⟩
    split
    · exact ⟨rfl, onlyIn_of_follows (follows_countEvent (by decide) hframe)⟩
    · exact ⟨rfl, onlyIn_of_follows hframe⟩

/-- The line falls silent with the link lost or down: the twin is lost, its copies stale. -/
theorem alive_dead_after_loss (hlink : s.spn.link = 0 ∨ s.spn.link = 3) :
    ∃ t, exec .aliveInDead s = .next t ∧ t.spn.peerAlive = false ∧ t.spn.peerLost = true ∧ t.tck.master = true ∧ 1 ≤ t.cmd.prot ∧
      t.hiu.ana = s.hiu.ana := by
  have hgo : ¬ (s.spn.aliveQuiet < 2 ∨ (!s.spn.peerAlive) = true) :=
    fun h => h.elim (Nat.not_lt.2 hquiet) (by simp [ha])
  obtain ⟨hspn, hmaster, hprot, hana⟩ := loseTwin_stale { s with spn := { s.spn with peerAlive := false } }
  refine ⟨_, (if_neg hgo).trans ((if_neg (by omega)).trans (if_neg (by omega))), ?_, ?_, hmaster, hprot, hana⟩
  · rw [hspn]
  · rw [hspn]

end

theorem exec_aliveInLive_of_edges {s : State} (hedges : 256 ≤ s.spn.aliveEdges) (ha : s.spn.peerAlive = false) :
    exec .aliveInLive s = .next { s with spn := { s.spn with peerAlive := true, peerLost := false } } :=
  if_neg (by simpa [ha] using hedges)

theorem exec_aliveInLive_of_few {s : State} (h : s.spn.aliveEdges < 256 ∨ s.spn.peerAlive = true) : exec .aliveInLive s = .next s :=
  if_pos h

/-! ### R300 -/

/-- Settles O54: a heartbeat touches nothing of the pair's state but its own counts and the bays; a lost link stands as `cutLink` left it, and
what follows for the twin and the quires steps no counter of the link but the one of lost twins. -/
theorem spineLinkIsLostAndRestored : Obligations.SpineLinkIsLostAndRestored := by
  unfold Obligations.SpineLinkIsLostAndRestored
  refine ⟨?_, ?_, ?_, ?_, ?_, ?_, ?_⟩
  · intro s h hsender hphase hlink
    exact ⟨heartbeat_present hsender hphase hlink, exec_heartbeatReceive_early hsender hphase hlink, heartbeat_late hsender hphase hlink⟩
  · intro s hlink hphase
    exact ⟨heartbeat_missed hlink hphase, fun h => exec_heartbeatMissing_of_present⟩
  · intro s hup
    refine ⟨exec_spineLinkLost_of_few, fun h16 => ?_, ?_⟩
    · obtain ⟨hlink, -, hpaired, hpresent⟩ := loseLink_link s 3
      exact ⟨_, exec_spineLinkLost_of_up hup (.inr h16), hlink, hpaired, hpresent⟩
    · obtain ⟨hlink, -, hpaired, hpresent⟩ := loseLink_link s 0
      refine ⟨_, exec_spineLinkLost_of_up hup (.inl rfl), hlink, hpaired, hpresent, ?_, fun b hb => ?_,
        loseLink_twin_alive 0 hup, loseLink_twin_dead 0 hup⟩
      · rw [if_pos rfl, counter_loseLink 0 hup (by decide) (by decide), counter_bump, if_pos rfl]
      · rw [if_pos rfl, pairAt_loseLink 0 hup hb]
        exact ⟨rfl, rfl, rfl, fun hs => withhold_lostPair (by simpa [shadows] using hs)⟩
  · exact fun s d => exec_spineLinkLost_of_not_up d
  · intro s
    exact ⟨exec_spineLinkRestored_of_present, fun h hfew => exec_spineLinkRestored_of_not (by omega) (fun _ => hfew), link_trained,
      fun h => exec_spineLinkRestored_of_not (by omega) (by omega)⟩
  · intro s lane
    exact ⟨exec_spineLaneDrop_of_dropped, lane_drop, lane_restore s lane⟩
  · intro s
    exact ⟨exec_aliveInDead_of_quiet, fun hquiet ha => ⟨alive_dead_in_service hquiet ha, alive_dead_after_loss hquiet ha⟩,
      exec_aliveInLive_of_edges, exec_aliveInLive_of_few⟩

end Sys2Proof.Machine
end

section
/-! PROOFS. What holds of every step, from the law of each meaning: the queue, the frame, the canonical form and the ingest sequence. -/

namespace Sys2Proof.Machine

/-! ### The frame of every command -/

/-- A list of parts inside another. -/
theorem listed {A B : List Part} (h : B.all A.contains = true) : ∀ p ∈ B, A.contains p = true := List.all_eq_true.1 h

/-- Every command answers a next state, which differs in no part outside its reach. -/
theorem exec_follows_reach (c : Instr) (s : State) : Answers (Follows (fun p => c.reach.contains p) s) (exec c s) := by
  have h (T : Part → Bool) : Follows T s s := follows_refl s
  cases c with
  | powerOnReset => exact follows_execPowerOnReset (listed rfl) (h _)
  | warmReset => exact follows_execWarmReset (listed rfl) (h _)
  | perstN => exact follows_execPerstN (listed rfl) (h _)
  | stitchEdge => exact follows_execStitchEdge (listed rfl) (h _)
  | sampleFrameLand => exact follows_execSampleFrameLand (listed rfl) (h _)
  | sampleFrameAbsent => exact follows_execSampleFrameAbsent (listed rfl) (h _)
  | absentStop => exact follows_execAbsentStop (listed rfl) (h _)
  | spotPacket => exact follows_execSpotPacket (listed rfl) (h _)
  | stitchOverrun => exact follows_execStitchOverrun (listed rfl) (h _)
  | plausibilityAction => exact follows_execPlausibilityAction (listed rfl) (h _)
  | alignmentFault => exact follows_execAlignmentFault (listed rfl) (h _)
  | snapshotRequest => exact follows_execSnapshotRequest (listed rfl) (h _)
  | snapshotCapture => exact follows_execSnapshotCapture (listed rfl) (h _)
  | snapshotRelease => exact follows_execSnapshotRelease (listed rfl) (h _)
  | bindingLoad => exact follows_execBindingLoad (listed rfl) (h _)
  | bndCheck => exact follows_execBndCheck (listed rfl) (h _)
  | bndAbort => exact follows_execBndAbort (listed rfl) (h _)
  | bndArm => exact follows_execBndArm (listed rfl) (h _)
  | bindingActivate => exact follows_execBindingActivate (listed rfl) (h _)
  | bindingCheckDone => exact follows_execBindingCheckDone (listed rfl) (h _)
  | bindingPairTimeout => exact follows_execBindingPairTimeout (listed rfl) (h _)
  | trimCommit => exact follows_execTrimCommit (listed rfl) (h _)
  | structuralCommit => exact follows_execStructuralCommit (listed rfl) (h _)
  | srvClose => exact follows_execSrvClose (listed rfl) (h _)
  | srvOpen => exact follows_execSrvOpen (listed rfl) (h _)
  | srvJump => exact follows_execSrvJump (listed rfl) (h _)
  | srvSeek => exact follows_execSrvSeek (listed rfl) (h _)
  | srvOffset => exact follows_execSrvOffset (listed rfl) (h _)
  | effectStitchReached => exact follows_execEffectStitchReached (listed rfl) (h _)
  | searchTimeout => exact follows_execSearchTimeout (listed rfl) (h _)
  | jumpKickEnd => exact follows_execJumpKickEnd (listed rfl) (h _)
  | jumpBrakeEnd => exact follows_execJumpBrakeEnd (listed rfl) (h _)
  | jumpDwellEnd => exact follows_execJumpDwellEnd (listed rfl) (h _)
  | jumpSettleEnd => exact follows_execJumpSettleEnd (listed rfl) (h _)
  | jumpTimeout => exact follows_execJumpTimeout (listed rfl) (h _)
  | seekKickEnd => exact follows_execSeekKickEnd (listed rfl) (h _)
  | seekCaptureWindowEnd => exact follows_execSeekCaptureWindowEnd (listed rfl) (h _)
  | seekSettleEnd => exact follows_execSeekSettleEnd (listed rfl) (h _)
  | seekTimeout => exact follows_execSeekTimeout (listed rfl) (h _)
  | holdMaxExpiry => exact follows_execHoldMaxExpiry (listed rfl) (h _)
  | holdRelease => exact follows_execHoldRelease (listed rfl) (h _)
  | retractComplete => exact follows_execRetractComplete (listed rfl) (h _)
  | spdStart => exact follows_execSpdStart (listed rfl) (h _)
  | spdStop => exact follows_execSpdStop (listed rfl) (h _)
  | spdSpeed => exact follows_execSpdSpeed (listed rfl) (h _)
  | spdClear => exact follows_execSpdClear (listed rfl) (h _)
  | senseComplete => exact follows_execSenseComplete (listed rfl) (h _)
  | alignComplete => exact follows_execAlignComplete (listed rfl) (h _)
  | rampTimeout => exact follows_execRampTimeout (listed rfl) (h _)
  | startBrakeEnd => exact follows_execStartBrakeEnd (listed rfl) (h _)
  | backwardBrakeTimeout => exact follows_execBackwardBrakeTimeout (listed rfl) (h _)
  | lossOfSync => exact follows_execLossOfSync (listed rfl) (h _)
  | spindleLock => exact follows_execSpindleLock (listed rfl) (h _)
  | spindleUnlock => exact follows_execSpindleUnlock (listed rfl) (h _)
  | overspeedFault => exact follows_execOverspeedFault (listed rfl) (h _)
  | standstill => exact follows_execStandstill (listed rfl) (h _)
  | shortBrakeComplete => exact follows_execShortBrakeComplete (listed rfl) (h _)
  | busBlockClear => exact follows_execBusBlockClear (listed rfl) (h _)
  | busTrip => exact follows_execBusTrip (listed rfl) (h _)
  | inertiaMeasured => exact follows_execInertiaMeasured (listed rfl) (h _)
  | motMove => exact follows_execMotMove (listed rfl) (h _)
  | motRampStop => exact follows_execMotRampStop (listed rfl) (h _)
  | motHardStop => exact follows_execMotHardStop (listed rfl) (h _)
  | motHome => exact follows_execMotHome (listed rfl) (h _)
  | motRelease => exact follows_execMotRelease (listed rfl) (h _)
  | motEnergise => exact follows_execMotEnergise (listed rfl) (h _)
  | motClear => exact follows_execMotClear (listed rfl) (h _)
  | homingTimeout => exact follows_execHomingTimeout (listed rfl) (h _)
  | followMoveStart => exact follows_execFollowMoveStart (listed rfl) (h _)
  | folioReadRequest => exact follows_execFolioReadRequest (listed rfl) (h _)
  | readPassStart => exact follows_execReadPassStart (listed rfl) (h _)
  | timingLockLoss => exact follows_execTimingLockLoss (listed rfl) (h _)
  | folioReadEnd => exact follows_execFolioReadEnd (listed rfl) (h _)
  | codewordDispatch => exact follows_execCodewordDispatch (listed rfl) (h _)
  | ldpcDecodeDone => exact follows_execLdpcDecodeDone (listed rfl) (h _)
  | readDeadlineExpiry => exact follows_execReadDeadlineExpiry (listed rfl) (h _)
  | reconstructionDone => exact follows_execReconstructionDone (listed rfl) (h _)
  | writeRunStart => exact follows_execWriteRunStart (listed rfl) (h _)
  | encoderUnderrun => exact follows_execEncoderUnderrun (listed rfl) (h _)
  | folioVerdict => exact follows_execFolioVerdict (listed rfl) (h _)
  | laserReeval => exact follows_execLaserReeval (listed rfl) (h _)
  | quireAgeTimeout => exact follows_execQuireAgeTimeout (listed rfl) (h _)
  | journalCommitDone => exact follows_execJournalCommitDone (listed rfl) (h _)
  | directoryAgeTimeout => exact follows_execDirectoryAgeTimeout (listed rfl) (h _)
  | fileNow => exact follows_execFileNow (listed rfl) (h _)
  | mount => exact follows_execMount (listed rfl) (h _)
  | mountCatalogueReadDone => exact follows_execMountCatalogueReadDone (listed rfl) (h _)
  | unmount => exact follows_execUnmount (listed rfl) (h _)
  | rebuildPause => exact follows_execRebuildPause (listed rfl) (h _)
  | clearFail => exact follows_execClearFail (listed rfl) (h _)
  | rebuildStart => exact follows_execRebuildStart (listed rfl) (h _)
  | calibrationRunStart => exact follows_execCalibrationRunStart (listed rfl) (h _)
  | calibrationRunDone => exact follows_execCalibrationRunDone (listed rfl) (h _)
  | calStep => exact follows_execCalStep (listed rfl) (h _)
  | calElapsedTimer => exact follows_execCalElapsedTimer (listed rfl) (h _)
  | calReq => exact follows_execCalReq (listed rfl) (h _)
  | laneRetrain => exact follows_execLaneRetrain (listed rfl) (h _)
  | sqTailDoorbell => exact follows_execSqTailDoorbell (listed rfl) (h _)
  | cqHeadDoorbell => exact follows_execCqHeadDoorbell (listed rfl) (h _)
  | controllerEnable => exact follows_execControllerEnable (listed rfl) (h _)
  | controllerReset => exact follows_execControllerReset (listed rfl) (h _)
  | interruptMaskSet => exact follows_execInterruptMaskSet (listed rfl) (h _)
  | interruptMaskClear => exact follows_execInterruptMaskClear (listed rfl) (h _)
  | commandFetch => exact follows_execCommandFetch (listed rfl) (h _)
  | commandAdmission => exact follows_execCommandAdmission (listed rfl) (h _)
  | writeDataFetch => exact follows_execWriteDataFetch (listed rfl) (h _)
  | backpressureTimeout => exact follows_execBackpressureTimeout (listed rfl) (h _)
  | cipherBlockDone => exact follows_execCipherBlockDone (listed rfl) (h _)
  | blockDecryptDone => exact follows_execBlockDecryptDone (listed rfl) (h _)
  | writeAckPoint => exact follows_execWriteAckPoint (listed rfl) (h _)
  | read => exact follows_execRead (listed rfl) (h _)
  | write => exact follows_execWrite (listed rfl) (h _)
  | flush => exact follows_execFlush (listed rfl) (h _)
  | verify => exact follows_execVerify (listed rfl) (h _)
  | zoneAppend => exact follows_execZoneAppend (listed rfl) (h _)
  | zoneOpen => exact follows_execZoneOpen (listed rfl) (h _)
  | zoneClose => exact follows_execZoneClose (listed rfl) (h _)
  | zoneFinish => exact follows_execZoneFinish (listed rfl) (h _)
  | zoneReset => exact follows_execZoneReset (listed rfl) (h _)
  | zoneOffline => exact follows_execZoneOffline (listed rfl) (h _)
  | zoneSetDescriptorExtension => exact follows_execZoneSetDescriptorExtension (listed rfl) (h _)
  | zoneManagementReceive => exact follows_execZoneManagementReceive (listed rfl) (h _)
  | createIoSq => exact follows_execCreateIoSq (listed rfl) (h _)
  | createIoCq => exact follows_execCreateIoCq (listed rfl) (h _)
  | deleteIoSq => exact follows_execDeleteIoSq (listed rfl) (h _)
  | deleteIoCq => exact follows_execDeleteIoCq (listed rfl) (h _)
  | identify => exact follows_execIdentify (listed rfl) (h _)
  | getLogPage => exact follows_execGetLogPage (listed rfl) (h _)
  | abort => exact follows_execAbort (listed rfl) (h _)
  | setFeatures => exact follows_execSetFeatures (listed rfl) (h _)
  | getFeatures => exact follows_execGetFeatures (listed rfl) (h _)
  | asyncEventRequest => exact follows_execAsyncEventRequest (listed rfl) (h _)
  | namespaceCreate => exact follows_execNamespaceCreate (listed rfl) (h _)
  | namespaceDelete => exact follows_execNamespaceDelete (listed rfl) (h _)
  | namespaceAttachment => exact follows_execNamespaceAttachment (listed rfl) (h _)
  | firmwareImageDownload => exact follows_execFirmwareImageDownload (listed rfl) (h _)
  | fwCommitReplace => exact follows_execFwCommitReplace (listed rfl) (h _)
  | fwCommitReplacePending => exact follows_execFwCommitReplacePending (listed rfl) (h _)
  | fwCommitPending => exact follows_execFwCommitPending (listed rfl) (h _)
  | fwCommitActivate => exact follows_execFwCommitActivate (listed rfl) (h _)
  | fetchPauseHandoff => exact follows_execFetchPauseHandoff (listed rfl) (h _)
  | activationTimeout => exact follows_execActivationTimeout (listed rfl) (h _)
  | mailboxPost => exact follows_execMailboxPost (listed rfl) (h _)
  | mailboxFetch => exact follows_execMailboxFetch (listed rfl) (h _)
  | modeSet => exact follows_execModeSet (listed rfl) (h _)
  | modeChangeEffect => exact follows_execModeChangeEffect (listed rfl) (h _)
  | holdWaitExpiry => exact follows_execHoldWaitExpiry (listed rfl) (h _)
  | holdReached => exact follows_execHoldReached (listed rfl) (h _)
  | bayReset => exact follows_execBayReset (listed rfl) (h _)
  | leaveSafeStop => exact follows_execLeaveSafeStop (listed rfl) (h _)
  | discLoaded => exact follows_execDiscLoaded (listed rfl) (h _)
  | prepareExchange => exact follows_execPrepareExchange (listed rfl) (h _)
  | colophonRead => exact follows_execColophonRead (listed rfl) (h _)
  | bayBringupStep => exact follows_execBayBringupStep (listed rfl) (h _)
  | spindleHandoff => exact follows_execSpindleHandoff (listed rfl) (h _)
  | powerWindow => exact follows_execPowerWindow (listed rfl) (h _)
  | thermalShutdown => exact follows_execThermalShutdown (listed rfl) (h _)
  | thermalTrip => exact follows_execThermalTrip (listed rfl) (h _)
  | powerFailDetect => exact follows_execPowerFailDetect (listed rfl) (h _)
  | vaultDone => exact follows_execVaultDone (listed rfl) (h _)
  | vaultReplayDone => exact follows_execVaultReplayDone (listed rfl) (h _)
  | replayedImageErase => exact follows_execReplayedImageErase (listed rfl) (h _)
  | vaultEraseDone => exact follows_execVaultEraseDone (listed rfl) (h _)
  | vaultGroupClose => exact follows_execVaultGroupClose (listed rfl) (h _)
  | vaultCommitDone => exact follows_execVaultCommitDone (listed rfl) (h _)
  | burnisherLine => exact follows_execBurnisherLine (listed rfl) (h _)
  | flipMaskArm => exact follows_execFlipMaskArm (listed rfl) (h _)
  | mapCacheLock => exact follows_execMapCacheLock (listed rfl) (h _)
  | heartbeatReceive => exact follows_execHeartbeatReceive (listed rfl) (h _)
  | heartbeatMissing => exact follows_execHeartbeatMissing (listed rfl) (h _)
  | spineLinkLost => exact follows_execSpineLinkLost (listed rfl) (h _)
  | spineLinkRestored => exact follows_execSpineLinkRestored (listed rfl) (h _)
  | spineLaneDrop => exact follows_execSpineLaneDrop (listed rfl) (h _)
  | pairing => exact follows_execPairing (listed rfl) (h _)
  | pairingBindingCheck => exact follows_execPairingBindingCheck (listed rfl) (h _)
  | aliveInDead => exact follows_execAliveInDead (listed rfl) (h _)
  | aliveInLive => exact follows_execAliveInLive (listed rfl) (h _)
  | resync => exact follows_execResync (listed rfl) (h _)
  | resyncCapture => exact follows_execResyncCapture (listed rfl) (h _)
  | statePacketReceive => exact follows_execStatePacketReceive (listed rfl) (h _)
  | resyncTimeout => exact follows_execResyncTimeout (listed rfl) (h _)
  | overrunPacketReceive bay stitch => exact follows_execOverrunPacketReceive (a1 := stitch) (listed rfl) (h _)
  | mirrorDataReceive => exact follows_execMirrorDataReceive (listed rfl) (h _)
  | journalRecordReceive => exact follows_execJournalRecordReceive (listed rfl) (h _)
  | mirrorAckReceive => exact follows_execMirrorAckReceive (listed rfl) (h _)
  | forwardedCommandReceive => exact follows_execForwardedCommandReceive (listed rfl) (h _)
  | forwardedCompletionReceive => exact follows_execForwardedCompletionReceive (listed rfl) (h _)
  | peerLeafRequest => exact follows_execPeerLeafRequest (listed rfl) (h _)
  | peerLeafReply => exact follows_execPeerLeafReply (listed rfl) (h _)
  | peerLeafVerdict => exact follows_execPeerLeafVerdict (listed rfl) (h _)
  | managementPacketReceive => exact follows_execManagementPacketReceive (listed rfl) (h _)
  | handBackRequest => exact follows_execHandBackRequest (listed rfl) (h _)
  | handBackStart => exact follows_execHandBackStart (listed rfl) (h _)
  | handoverStitch => exact follows_execHandoverStitch (listed rfl) (h _)
  | kcvMatch => exact follows_execKcvMatch (listed rfl) (h _)
  | keyImport => exact follows_execKeyImport (listed rfl) (h _)
  | keySlotClear => exact follows_execKeySlotClear (listed rfl) (h _)
  | lcNonceRead => exact follows_execLcNonceRead (listed rfl) (h _)
  | lifecycleTransition => exact follows_execLifecycleTransition (listed rfl) (h _)
  | lifecycleCommit => exact follows_execLifecycleCommit (listed rfl) (h _)
  | mailboxKeyImport => exact follows_execMailboxKeyImport (listed rfl) (h _)
  | lowerVotedLimit => exact follows_execLowerVotedLimit (listed rfl) (h _)
  | newWriteSlot => exact follows_execNewWriteSlot (listed rfl) (h _)
  | endsheetOwnerSection => exact follows_execEndsheetOwnerSection (listed rfl) (h _)
  | domainRequest => exact follows_execDomainRequest (listed rfl) (h _)
  | mailboxResponseRead => exact follows_execMailboxResponseRead (listed rfl) (h _)
  | votedWordMismatch => exact follows_execVotedWordMismatch (listed rfl) (h _)
  | drbgReseed => exact follows_execDrbgReseed (listed rfl) (h _)
  | entropyHealthFail => exact follows_execEntropyHealthFail (listed rfl) (h _)
  | entropyRecover => exact follows_execEntropyRecover (listed rfl) (h _)
  | lockstepMismatch => exact follows_execLockstepMismatch (listed rfl) (h _)
  | bayRelease => exact follows_execBayRelease (listed rfl) (h _)
  | bayReleaseEnd => exact follows_execBayReleaseEnd (listed rfl) (h _)
  | eventLogPageWrite => exact follows_execEventLogPageWrite (listed rfl) (h _)
  | bfeIdentityAssembled => exact follows_execBfeIdentityAssembled (listed rfl) (h _)
  | headbandPortUp => exact follows_execHeadbandPortUp (listed rfl) (h _)
  | bfeEdge => exact follows_execBfeEdge (listed rfl) (h _)
  | bfeHoldExpiry => exact follows_execBfeHoldExpiry (listed rfl) (h _)
  | mctpSetEndpointId => exact follows_execMctpSetEndpointId (listed rfl) (h _)
  | mctpGetEndpointId => exact follows_execMctpGetEndpointId (listed rfl) (h _)
  | mctpGetVersionSupport => exact follows_execMctpGetVersionSupport (listed rfl) (h _)
  | mctpGetMessageTypeSupport => exact follows_execMctpGetMessageTypeSupport (listed rfl) (h _)
  | pldmFirmwareUpdate => exact follows_execPldmFirmwareUpdate (listed rfl) (h _)
  | nvmeMiReadDataStructure => exact follows_execNvmeMiReadDataStructure (listed rfl) (h _)
  | nvmeMiHealthStatusPoll => exact follows_execNvmeMiHealthStatusPoll (listed rfl) (h _)
  | nvmeMiConfigurationGet => exact follows_execNvmeMiConfigurationGet (listed rfl) (h _)
  | nvmeMiConfigurationSet => exact follows_execNvmeMiConfigurationSet (listed rfl) (h _)
  | nvmeMiTunnelledAdmin => exact follows_execNvmeMiTunnelledAdmin (listed rfl) (h _)
  | spdmGetCertificate => exact follows_execSpdmGetCertificate (listed rfl) (h _)
  | spdmChallenge => exact follows_execSpdmChallenge (listed rfl) (h _)
  | spdmGetMeasurements => exact follows_execSpdmGetMeasurements (listed rfl) (h _)
  | splitReadLatch => exact follows_execSplitReadLatch (listed rfl) (h _)
  | resetCauseClear => exact follows_execResetCauseClear (listed rfl) (h _)
  | counterClear => exact follows_execCounterClear (listed rfl) (h _)
  | registerWrite => exact follows_execRegisterWrite (listed rfl) (h _)
  | resetRelease => exact follows_execResetRelease (listed rfl) (h _)
  | startupComplete => exact follows_execStartupComplete (listed rfl) (h _)
  | pairingTimeout => exact follows_execPairingTimeout (listed rfl) (h _)
  | powerFailClear => exact follows_execPowerFailClear (listed rfl) (h _)
  | spineLaneRestore => exact follows_execSpineLaneRestore (listed rfl) (h _)
  | headbandLaneLoss => exact follows_execHeadbandLaneLoss (listed rfl) (h _)
  | bfeReset => exact follows_execBfeReset (listed rfl) (h _)
  | timingLockDeclared => exact follows_execTimingLockDeclared (listed rfl) (h _)
  | timingLockRegained => exact follows_execTimingLockRegained (listed rfl) (h _)
  | activationFetchResume => exact follows_execActivationFetchResume (listed rfl) (h _)

/-- Settles O8: each meaning follows its reach, which leaves every other part and the queue alone. -/
theorem everyCommandStaysInItsReach : Obligations.EveryCommandStaysInItsReach := by
  unfold Obligations.EveryCommandStaysInItsReach
  intro c s t ht
  obtain ⟨u, hu, hf⟩ := exec_follows_reach c s
  obtain rfl := Host.Outcome.next.inj (hu.symm.trans ht)
  exact onlyIn_of_follows hf

/-! ### The step -/

theorem step_of_nil {s : State} (h : s.pending = []) : step s = .next s := by
  simp [step, h]

theorem step_of_cons {s : State} {c : Instr} {rest : List Instr} (h : s.pending = c :: rest) :
    step s = exec c { s with pending := rest } := by
  simp [step, h]

/-- What holds of the state and of each command's answer on the state without it holds of the step's answer. -/
theorem step_answers {s : State} {P : State → Prop} (hnil : s.pending = [] → P s)
    (hcons : ∀ c rest, s.pending = c :: rest → Answers P (exec c { s with pending := rest })) : Answers P (step s) := by
  cases h : s.pending with
  | nil => exact ⟨s, step_of_nil h, hnil h⟩
  | cons c rest =>
    rw [step_of_cons h]
    exact hcons c rest h

/-- What holds of a step's answer holds of the state it answers. -/
theorem of_step_answers {s t : State} {P : State → Prop} (h : Answers P (step s)) (ht : step s = .next t) : P t := by
  obtain ⟨u, hu, hp⟩ := h
  obtain rfl := Host.Outcome.next.inj (hu.symm.trans ht)
  exact hp

/-- Settles O1. -/
theorem emptyQueueIdles : Obligations.EmptyQueueIdles := fun _ => step_of_nil

/-- Settles O2. -/
theorem stepRunsFrontCommand : Obligations.StepRunsFrontCommand := fun _ _ _ => step_of_cons rfl

/-- Settles O3: every meaning answers a next state and leaves the queue it is given. -/
theorem stepTakesOneCommand : Obligations.StepTakesOneCommand := by
  unfold Obligations.StepTakesOneCommand
  intro s
  refine step_answers (fun h => by rw [h]; rfl) fun c rest h => ?_
  obtain ⟨t, ht, hf⟩ := exec_follows_reach c { s with pending := rest }
  exact ⟨t, ht, hf.queue.trans (by rw [h]; rfl)⟩

/-- Settles O6: the canonical form does not speak of the queue, and every meaning keeps it. -/
theorem stepKeepsCanonicalForm : Obligations.StepKeepsCanonicalForm := by
  unfold Obligations.StepKeepsCanonicalForm
  intro s t hs
  refine of_step_answers (step_answers (fun _ => hs) fun c rest _ => ?_)
  obtain ⟨t, ht, hf⟩ := exec_follows_reach c { s with pending := rest }
  exact ⟨t, ht, hf.canonical hs⟩

/-- Settles O7: the sequence does not speak of the queue, and in every meaning it rises or the epoch does. -/
theorem ingestSequenceNeverGoesBack : Obligations.IngestSequenceNeverGoesBack := by
  unfold Obligations.IngestSequenceNeverGoesBack
  intro s t hs
  refine of_step_answers (P := fun t => SequenceReserved t ∧ SequenceRises s t)
    (step_answers (fun _ => ⟨hs, .inr ⟨rfl, Nat.le_refl _⟩⟩) fun c rest _ => ?_)
  obtain ⟨t, ht, hf⟩ := exec_follows_reach c { s with pending := rest }
  exact ⟨t, ht, hf.reserved hs, hf.rising hs⟩

/-! ### The reset state -/

/-- Settles O4: at reset every table is empty, so each entry reads as its default. -/
theorem resetState : Obligations.ResetState := by
  unfold Obligations.ResetState
  exact ⟨rfl, rfl, rfl, rfl, fun _ => rfl, fun _ => ⟨rfl, rfl⟩, fun _ => rfl, fun _ => rfl, fun _ _ => rfl, fun _ => rfl, rfl, fun _ => rfl, rfl⟩

/-- Settles O5: empty stores are in canonical form, and no sequence is reserved yet. -/
theorem resetCanonical : Obligations.ResetCanonical := by
  unfold Obligations.ResetCanonical
  exact ⟨⟨rfl, rfl, rfl, rfl, rfl, rfl, rfl⟩, Nat.le_refl _, Nat.le_refl _⟩

end Sys2Proof.Machine
end

section
/-! PROOFS. R368 and R386 (clearing causes and counters), R51 and R52 (snapshots). -/

namespace Sys2Proof.Machine

/-! ### Clearing causes and counters -/

theorem exec_counterClear {s : State} (b : Fin 17) (h : barSealed s = false) : exec (.counterClear b) s = .next (clearCounters s b) :=
  if_neg (by simp [h])

/-- The counters of a block, and of no other, read zero after CLR_CNT. -/
theorem counter_clearCounters_of_lt (s : State) {b c i : Nat} (hi : i < 32) :
    counter (clearCounters s b) c i = if c = b then 0 else counter s c i := by
  rw [counter_clearCounters, show (c * 32 + i) / 32 = c by omega]

/-- Settles O10: the clear drops the entries of the block's keys, so each of its counters reads as unlisted, and counts on from zero. -/
theorem clearingCausesAndCounters : Obligations.ClearingCausesAndCounters := by
  unfold Obligations.ClearingCausesAndCounters
  refine ⟨?_, ?_, ?_⟩
  · intro s mask h
    exact if_neg (by simp [h])
  · intro s b h
    refine ⟨_, exec_counterClear b h, fun i hi => ?_, fun c i hi hc => ?_,
      onlyIn_of_follows (follows_clearCounters (by decide) (follows_refl s))⟩
    · have h0 : counter (clearCounters s b) b i = 0 := by rw [counter_clearCounters_of_lt s hi, if_pos rfl]
      rw [counter_bump, if_pos rfl, h0]
      exact ⟨rfl, rfl⟩
    · rw [counter_clearCounters_of_lt s hi, if_neg hc]
  · intro s mask b h
    exact ⟨if_pos h, if_pos h⟩

/-! ### Snapshots -/

@[simp] theorem snapOf_setSnap (s : State) (p q : Bool) (x : SnapSlot) : snapOf (setSnap s p x) q = if q = p then x else snapOf s q := by
  cases p <;> cases q <;> rfl

@[simp] theorem setSnap_counts (s : State) (p : Bool) (x : SnapSlot) :
    (setSnap s p x).tck.count = s.tck.count ∧ (setSnap s p x).tck.snapNumber = s.tck.snapNumber ∧
      (setSnap s p x).tck.snapRefused = s.tck.snapRefused := by
  cases p <;> exact ⟨rfl, rfl, rfl⟩

/-- A snapshot's due stitch: the next edge, or for the pair the third. -/
def snapDue (s : State) (pair : Bool) : Nat := if pair then now s + 3 else now s + 1

/-- A request taken: its slot waits for its stitch. -/
theorem askSnapshot_of_free {s : State} {pair : Bool} (due : Nat) (h : (snapOf s pair).state = 0) :
    askSnapshot s due pair = setSnap { s with tck := { s.tck with snapRefused := false } } pair { state := 1, due := due } := by
  simp [askSnapshot, h]

/-- A request refused: only that shows. -/
theorem askSnapshot_of_busy {s : State} {pair : Bool} (due : Nat) (h : (snapOf s pair).state ≠ 0) :
    askSnapshot s due pair = { s with tck := { s.tck with snapRefused := true } } := by
  simp [askSnapshot, h]

theorem exec_snapshotRequest {s : State} (pair : Bool) (h : barSealed s = false) :
    exec (.snapshotRequest pair) s = .next (requestSnapshot s pair) := if_neg (by simp [h])

theorem requestSnapshot_of_busy {s : State} {pair : Bool} (h : (snapOf s pair).state ≠ 0) :
    requestSnapshot s pair = { s with tck := { s.tck with snapRefused := true } } := by
  simp [requestSnapshot, askSnapshot_of_busy _ h, h]

/-- A packet for the twin joins those that wait, while the link is up. -/
theorem send_out (s : State) (m : SpineMsg) :
    (send s m).out = s.out ++ (if s.spn.link = 2 then [{ cls := classOf s m, msg := m }] else []) := by
  unfold send
  split <;> simp

/-- A request of a free kind: its slot waits, and of a pair the twin is told. -/
theorem requestSnapshot_of_free {s : State} {pair : Bool} (h : (snapOf s pair).state = 0) :
    let t := requestSnapshot s pair
    snapOf t pair = { state := 1, due := now s + (if pair then 3 else 1) } ∧ snapOf t (!pair) = snapOf s (!pair) ∧
      t.tck.snapRefused = false ∧ t.tck.count = s.tck.count ∧
      t.out = s.out ++ (if pair = true ∧ s.spn.link = 2 then
        [{ cls := 3, msg := .mgmt (.snapshotRequest (BitVec.ofNat 64 (now s + 3))) }] else []) := by
  have hsnap (u : State) (m : SpineMsg) (q : Bool) : snapOf (send u m) q = snapOf u q := by simp [snapOf]
  cases pair with
  | false => simp [requestSnapshot, askSnapshot_of_free _ h, snapOf, setSnap]
  | true =>
    simp only [requestSnapshot, askSnapshot_of_free _ h, h, if_true, and_self]
    refine ⟨?_, ?_, ?_, ?_, ?_⟩
    · rw [hsnap, snapOf_setSnap, if_pos rfl]
    · rw [hsnap, snapOf_setSnap, if_neg (by decide)]
      rfl
    · simp
    · simp
    · rw [send_out]
      simp [setSnap, classOf]

/-- At its stitch a kind of snapshot latches what stands. -/
theorem captureKind_of_due {s : State} {pair : Bool} (hst : (snapOf s pair).state = 1) (hdue : (snapOf s pair).due = now s) :
    let t := captureKind s pair
    snapOf t pair = { state := 2, due := now s, snap := some (takeSnap s) } ∧ snapOf t (!pair) = snapOf s (!pair) ∧
      t.tck.snapNumber = s.tck.snapNumber + 1 ∧ t.tck.count = s.tck.count := by
  cases pair <;> simp_all [captureKind, snapOf, setSnap]

theorem captureKind_of_not_due {s : State} {pair : Bool} (h : (snapOf s pair).state = 1 → (snapOf s pair).due ≠ now s) :
    captureKind s pair = s := if_neg (fun hx => h hx.1 hx.2)

/-- Where only one kind is due the edge captures that kind. -/
theorem exec_snapshotCapture_of_one {s : State} {pair : Bool} (hst : (snapOf s pair).state = 1) (hdue : (snapOf s pair).due = now s)
    (hother : (snapOf s (!pair)).state ≠ 1 ∨ (snapOf s (!pair)).due ≠ now s) :
    exec .snapshotCapture s = .next (captureKind s pair) := by
  have hno : (snapOf s (!pair)).state = 1 → (snapOf s (!pair)).due ≠ now s := fun h => hother.resolve_left (not_not_intro h)
  change Host.Outcome.next (captureKind (captureKind s false) true) = _
  cases pair with
  | false =>
    obtain ⟨-, hkeep, -, hcount⟩ := captureKind_of_due hst hdue
    rw [captureKind_of_not_due (pair := true) (s := captureKind s false)]
    rw [show snapOf (captureKind s false) true = snapOf s true from hkeep]
    intro h
    rw [now, hcount]
    exact hno h
  | true => rw [captureKind_of_not_due (pair := false) hno]

theorem releaseSnapshot_of_held {s : State} (h : (shownSnap s).state = 2) :
    releaseSnapshot s = setSnap s (shownPair s) {} := if_pos h

/-- Settles O15: each kind has its own slot, and request, capture and release write that slot alone. -/
theorem snapshotsLatchTheTwin : Obligations.SnapshotsLatchTheTwin := by
  unfold Obligations.SnapshotsLatchTheTwin
  refine ⟨?_, ?_, ?_, ?_, ?_, ?_⟩
  · intro s pair hs h
    obtain ⟨hslot, hother, href, hcount, hout⟩ := requestSnapshot_of_free h
    exact ⟨_, exec_snapshotRequest pair hs, hslot, hother, href, hcount, hout,
      onlyIn_of_follows (follows_requestSnapshot (by decide) (follows_refl s))⟩
  · intro s pair hs h
    rw [exec_snapshotRequest pair hs, requestSnapshot_of_busy h]
  · intro s pair hst hdue hother
    obtain ⟨hslot, hkeep, hnum, hcount⟩ := captureKind_of_due hst hdue
    exact ⟨_, takeSnap s, exec_snapshotCapture_of_one hst hdue hother, hslot, hkeep, hnum,
      onlyIn_of_follows (follows_captureKind (by decide) (follows_refl s)), hcount, rfl, rfl, rfl, rfl, rfl, rfl, rfl, rfl⟩
  · intro s h
    change Host.Outcome.next (captureKind (captureKind s false) true) = _
    rw [captureKind_of_not_due (h false), captureKind_of_not_due (h true)]
  · intro s hs h
    refine ⟨setSnap s (shownPair s) {}, ?_, ?_, ?_, (setSnap_counts ..).1, onlyIn_of_follows (follows_setSnap (by decide) (follows_refl s))⟩
    · rw [← releaseSnapshot_of_held h]
      exact if_neg (by simp [hs])
    · rw [snapOf_setSnap, if_pos rfl]
    · rw [snapOf_setSnap, if_neg (by simp)]
  · intro s pair hs
    exact ⟨if_pos hs, if_pos hs⟩

end Sys2Proof.Machine
end

section
/-! PROOFS. R139, R171: a command of a cell, a spindle unit or an axis joins its queue for the effect stitch, or is refused by result. -/

namespace Sys2Proof.Machine

section
variable {s : State} {n op arg at_ : Nat} {bad : Bool}

/-! ### Cells -/

/-- The entry a queue takes for a command issued now. -/
def entryFor (s : State) (op arg at_ : Nat) : QCmd := { op := op, arg := arg, effect := max at_ (now s + 3) }

theorem queueCell_of_refused (h : (cellAt s n).named = false ∨ accepts s ((cellAt s n).opu / 2) = false ∨ bad = true) :
    queueCell s n op arg bad at_ = setCell s n { cellAt s n with result := 2 } :=
  if_pos (by rcases h with h | h | h <;> simp [h])

theorem queueCell_of_full (hn : (cellAt s n).named = true) (ha : accepts s ((cellAt s n).opu / 2) = true) (hb : bad = false)
    (hq : 4 ≤ (cellAt s n).queue.length) : queueCell s n op arg bad at_ = setCell s n { cellAt s n with result := 1 } :=
  (if_neg (by simp [hn, ha, hb])).trans (if_pos hq)

theorem queueCell_of_room (hn : (cellAt s n).named = true) (ha : accepts s ((cellAt s n).opu / 2) = true) (hb : bad = false)
    (hq : (cellAt s n).queue.length < 4) (hlt : n < 96) :
    queueCell s n op arg bad at_ =
      issue (setCell s n { cellAt s n with queue := enqueue (cellAt s n).queue (entryFor s op arg at_), result := 0 })
        (.cell ⟨n, hlt⟩) op arg (max at_ (now s + 3)) :=
  (if_neg (by simp [hn, ha, hb])).trans ((if_neg (by omega)).trans (dif_pos hlt))

/-! ### Spindle units -/

theorem queueUnit_of_refused (h : accepts s n = false ∨ spdBad (unitAt s n) op = true) :
    queueUnit s n op arg at_ = setUnit s n { unitAt s n with result := 2 } :=
  if_pos (by rcases h with h | h <;> simp [h])

theorem queueUnit_of_full (ha : accepts s n = true) (hb : spdBad (unitAt s n) op = false) (hq : 4 ≤ (unitAt s n).queue.length) :
    queueUnit s n op arg at_ = setUnit s n { unitAt s n with result := 1 } :=
  (if_neg (by simp [ha, hb])).trans (if_pos hq)

theorem queueUnit_of_room (ha : accepts s n = true) (hb : spdBad (unitAt s n) op = false) (hq : (unitAt s n).queue.length < 4)
    (hlt : n < 8) :
    queueUnit s n op arg at_ =
      issue (setUnit s n { unitAt s n with queue := enqueue (unitAt s n).queue (entryFor s op arg at_), result := 0 })
        (.unit ⟨n, hlt⟩) op arg (max at_ (now s + 3)) :=
  (if_neg (by simp [ha, hb])).trans ((if_neg (by omega)).trans (dif_pos hlt))

/-! ### Axes -/

theorem queueAxis_of_refused (h : accepts s (axisBay n) = false ∨ axisBad (axisAt s n) n op arg = true) :
    queueAxis s n op arg at_ = setAxis s n { axisAt s n with result := 2 } :=
  if_pos (by rcases h with h | h <;> simp [h])

theorem queueAxis_of_full (ha : accepts s (axisBay n) = true) (hb : axisBad (axisAt s n) n op arg = false)
    (hq : 4 ≤ (axisAt s n).queue.length) : queueAxis s n op arg at_ = setAxis s n { axisAt s n with result := 1 } :=
  (if_neg (by simp [ha, hb])).trans (if_pos hq)

theorem queueAxis_of_room (ha : accepts s (axisBay n) = true) (hb : axisBad (axisAt s n) n op arg = false)
    (hq : (axisAt s n).queue.length < 4) (hlt : n < 32) :
    queueAxis s n op arg at_ =
      issue (setAxis s n { axisAt s n with queue := enqueue (axisAt s n).queue (entryFor s op arg at_), result := 0 })
        (.axis ⟨n, hlt⟩) op arg (max at_ (now s + 3)) :=
  (if_neg (by simp [ha, hb])).trans ((if_neg (by omega)).trans (dif_pos hlt))

end

/-! ### What acceptance means -/

/-- The command recorded for the heartbeat. -/
def issued (o : Obj) (op arg effect : Nat) : HbCmd :=
  { obj := o, op := BitVec.ofNat 8 op, arg := BitVec.ofNat 32 arg, effect := BitVec.ofNat 64 effect }

/-- A command of a cell is refused on the ground `bad`, or with a full queue, or queued. -/
def CellAccepts (s : State) (cell : Fin 96) (src : Src) (i : Instr) (op arg : Nat) (bad : Prop) : Prop :=
  let c := cellAt s cell
  let effect := max (reg s .srvCellCtlAt cell) (now s + 3)
  (mayCommand s src = false → exec i s = .next s) ∧
  (mayCommand s src = true →
    (c.named = false ∨ accepts s (c.opu / 2) = false ∨ bad → exec i s = .next (setCell s cell { c with result := 2 })) ∧
    (c.named = true → accepts s (c.opu / 2) = true → ¬ bad → 4 ≤ c.queue.length → exec i s = .next (setCell s cell { c with result := 1 })) ∧
    (c.named = true → accepts s (c.opu / 2) = true → ¬ bad → c.queue.length < 4 → ∃ t, exec i s = .next t ∧
      cellAt t cell = { c with queue := enqueue c.queue { op := op, arg := arg, effect := effect }, result := 0 } ∧
      (∀ n, n ≠ cell.val → cellAt t n = cellAt s n) ∧
      t.spn = { s.spn with issued := s.spn.issued ++ [issued (.cell cell) op arg effect] } ∧ OnlyIn [.cells, .spn] s t))

theorem cellAccepts_of_acceptCell {s : State} {cell : Fin 96} {src : Src} {i : Instr} {op arg : Nat} {bad : Bool} {p : Prop}
    (hi : exec i s = .next (acceptCell s cell src op arg bad)) (hp : bad = true ↔ p) : CellAccepts s cell src i op arg p := by
  refine ⟨fun hm => hi.trans (congrArg _ (if_pos (by simp [hm]))), fun hm => ?_⟩
  have hgo : acceptCell s cell src op arg bad = queueCell s cell op arg bad (reg s .srvCellCtlAt cell) := if_neg (by simp [hm])
  rw [hi, hgo, ← hp]
  refine ⟨fun h => congrArg _ (queueCell_of_refused h), fun hn ha hb hq => congrArg _ (queueCell_of_full hn ha (by simpa using hb) hq),
    fun hn ha hb hq => ⟨_, congrArg _ (queueCell_of_room hn ha (by simpa using hb) hq cell.isLt), ?_, fun n hne => ?_, rfl, ?_⟩⟩
  · exact (cellAt_setCell ..).trans (if_pos rfl)
  · exact (cellAt_setCell ..).trans (if_neg hne.symm)
  · exact onlyIn_of_follows (follows_issue (by decide) (follows_setCell (by decide) (follows_refl s)))

/-- A command of a spindle unit is refused on the ground `bad`, or with a full queue, or queued. -/
def UnitAccepts (s : State) (n : Fin 8) (src : Src) (i : Instr) (op arg : Nat) (bad : Prop) : Prop :=
  let u := unitAt s n
  let effect := max (reg s .spdUnitCtlAt n) (now s + 3)
  (mayCommand s src = false → exec i s = .next s) ∧
  (mayCommand s src = true →
    (accepts s n = false ∨ bad → exec i s = .next (setUnit s n { u with result := 2 })) ∧
    (accepts s n = true → ¬ bad → 4 ≤ u.queue.length → exec i s = .next (setUnit s n { u with result := 1 })) ∧
    (accepts s n = true → ¬ bad → u.queue.length < 4 → ∃ t, exec i s = .next t ∧
      unitAt t n = { u with queue := enqueue u.queue { op := op, arg := arg, effect := effect }, result := 0 } ∧
      (∀ m, m ≠ n.val → unitAt t m = unitAt s m) ∧
      t.spn = { s.spn with issued := s.spn.issued ++ [issued (.unit n) op arg effect] } ∧ OnlyIn [.units, .spn] s t))

theorem unitAccepts_of_acceptUnit {s : State} {n : Fin 8} {src : Src} {i : Instr} {op arg : Nat} {p : Prop}
    (hi : exec i s = .next (acceptUnit s n src op arg)) (hp : spdBad (unitAt s n) op = true ↔ p) : UnitAccepts s n src i op arg p := by
  refine ⟨fun hm => hi.trans (congrArg _ (if_pos (by simp [hm]))), fun hm => ?_⟩
  have hgo : acceptUnit s n src op arg = queueUnit s n op arg (reg s .spdUnitCtlAt n) := if_neg (by simp [hm])
  rw [hi, hgo, ← hp]
  refine ⟨fun h => congrArg _ (queueUnit_of_refused h), fun ha hb hq => congrArg _ (queueUnit_of_full ha (by simpa using hb) hq),
    fun ha hb hq => ⟨_, congrArg _ (queueUnit_of_room ha (by simpa using hb) hq n.isLt), ?_, fun m hne => ?_, rfl, ?_⟩⟩
  · exact (unitAt_setUnit ..).trans (if_pos rfl)
  · exact (unitAt_setUnit ..).trans (if_neg hne.symm)
  · exact onlyIn_of_follows (follows_issue (by decide) (follows_setUnit (by decide) (follows_refl s)))

/-- A command of an axis is refused on the ground `bad`, or with a full queue, or queued. -/
def AxisAccepts (s : State) (n : Fin 32) (src : Src) (i : Instr) (op arg : Nat) (bad : Prop) : Prop :=
  let a := axisAt s n
  let effect := max (reg s .motAxisCtlAt n) (now s + 3)
  (mayCommand s src = false → exec i s = .next s) ∧
  (mayCommand s src = true →
    (accepts s (axisBay n) = false ∨ bad → exec i s = .next (setAxis s n { a with result := 2 })) ∧
    (accepts s (axisBay n) = true → ¬ bad → 4 ≤ a.queue.length → exec i s = .next (setAxis s n { a with result := 1 })) ∧
    (accepts s (axisBay n) = true → ¬ bad → a.queue.length < 4 → ∃ t, exec i s = .next t ∧
      axisAt t n = { a with queue := enqueue a.queue { op := op, arg := arg, effect := effect }, result := 0 } ∧
      (∀ m, m ≠ n.val → axisAt t m = axisAt s m) ∧
      t.spn = { s.spn with issued := s.spn.issued ++ [issued (.axis n) op arg effect] } ∧ OnlyIn [.axes, .spn] s t))

theorem axisAccepts_of_acceptAxis {s : State} {n : Fin 32} {src : Src} {i : Instr} {op arg : Nat} {p : Prop}
    (hi : exec i s = .next (acceptAxis s n src op arg)) (hp : axisBad (axisAt s n) n op arg = true ↔ p) :
    AxisAccepts s n src i op arg p := by
  refine ⟨fun hm => hi.trans (congrArg _ (if_pos (by simp [hm]))), fun hm => ?_⟩
  have hgo : acceptAxis s n src op arg = queueAxis s n op arg (reg s .motAxisCtlAt n) := if_neg (by simp [hm])
  rw [hi, hgo, ← hp]
  refine ⟨fun h => congrArg _ (queueAxis_of_refused h), fun ha hb hq => congrArg _ (queueAxis_of_full ha (by simpa using hb) hq),
    fun ha hb hq => ⟨_, congrArg _ (queueAxis_of_room ha (by simpa using hb) hq n.isLt), ?_, fun m hne => ?_, rfl, ?_⟩⟩
  · exact (axisAt_setAxis ..).trans (if_pos rfl)
  · exact (axisAt_setAxis ..).trans (if_neg hne.symm)
  · exact onlyIn_of_follows (follows_issue (by decide) (follows_setAxis (by decide) (follows_refl s)))

/-! ### R139 -/

/-- Settles O19: each of the five is one acceptance with its own ground of refusal. -/
theorem servoCommandsAreQueued : Obligations.ServoCommandsAreQueued := by
  unfold Obligations.ServoCommandsAreQueued
  intro s cell src target present given tracks component value
  have hclose : CellAccepts s cell src (.srvClose cell src) 1 0
      ((bayAt s ((cellAt s cell).opu / 2)).mode = 5 ∨ (bayAt s ((cellAt s cell).opu / 2)).holdEntry = true) :=
    cellAccepts_of_acceptCell rfl (by simp [inHold])
  have hopen : CellAccepts s cell src (.srvOpen cell src) 2 0 False := cellAccepts_of_acceptCell rfl (by simp)
  have hjump : CellAccepts s cell src (.srvJump cell src target present given) 3
      (target.toNat + 16 * present.toNat + (if given then 256 else 0)) ((cellAt s cell).loop ≠ 0) :=
    cellAccepts_of_acceptCell rfl (by simp)
  have hseek : CellAccepts s cell src (.srvSeek cell src tracks) 4 tracks.toNat
      ((cellAt s cell).loop ≠ 1 ∨ sw (cellAt s cell) 5 < tracks.toInt.natAbs) :=
    cellAccepts_of_acceptCell rfl (by simp)
  have hoffset : CellAccepts s cell src (.srvOffset cell src component value) 5 (component.toNat * 65536 + value.toNat) (component = 3) :=
    cellAccepts_of_acceptCell rfl (by simp)
  exact ⟨hclose, hopen, hjump, hseek, hoffset⟩

/-- Settles O24: each command of a unit or an axis is one acceptance, its ground of refusal the operation's own. -/
theorem spindleAndAxisCommandsAreQueued : Obligations.SpindleAndAxisCommandsAreQueued := by
  unfold Obligations.SpindleAndAxisCommandsAreQueued
  constructor
  · intro s n src rpm coast
    have hstart : UnitAccepts s n src (.spdStart n src rpm) 1 rpm.toNat ((unitAt s n).fault = true) :=
      unitAccepts_of_acceptUnit rfl (by simp [spdBad])
    have hstop : UnitAccepts s n src (.spdStop n src coast) 2 (if coast then 1 else 0) False :=
      unitAccepts_of_acceptUnit rfl (by simp [spdBad])
    have hspeed : UnitAccepts s n src (.spdSpeed n src rpm) 3 rpm.toNat
        ((unitAt s n).fault = true ∨ (unitAt s n).st ≠ .run ∧ startPath (unitAt s n) = false) :=
      unitAccepts_of_acceptUnit rfl (by simp [spdBad])
    have hclear : UnitAccepts s n src (.spdClear n src) 4 0 False := unitAccepts_of_acceptUnit rfl (by simp [spdBad])
    exact ⟨hstart, hstop, hspeed, hclear⟩
  · intro s n src target
    have hmove : AxisAccepts s n src (.motMove n src target) 1 target.toNat
        (softRange (decide (n.val < 16)) < (target.toNat : Int) ∨ (axisAt s n).known = false ∧ (axisAt s n).st ≠ .homing) :=
      axisAccepts_of_acceptAxis rfl (by simp [axisBad, moveBad])
    have hramp : AxisAccepts s n src (.motRampStop n src) 2 0 ((axisAt s n).known = false) :=
      axisAccepts_of_acceptAxis rfl (by simp [axisBad])
    have hhard : AxisAccepts s n src (.motHardStop n src) 3 0 ((axisAt s n).known = false) :=
      axisAccepts_of_acceptAxis rfl (by simp [axisBad])
    have hhome : AxisAccepts s n src (.motHome n src) 4 0 False := axisAccepts_of_acceptAxis rfl (by simp [axisBad])
    have hrelease : AxisAccepts s n src (.motRelease n src) 5 0 False := axisAccepts_of_acceptAxis rfl (by simp [axisBad])
    have henergise : AxisAccepts s n src (.motEnergise n src) 6 0 False := axisAccepts_of_acceptAxis rfl (by simp [axisBad])
    have hclear : AxisAccepts s n src (.motClear n src) 7 0 ((axisAt s n).known = false) :=
      axisAccepts_of_acceptAxis rfl (by simp [axisBad])
    exact ⟨hmove, hramp, hhard, hhome, hrelease, henergise, hclear⟩

end Sys2Proof.Machine
end

section
/-! PROOFS. R137 to R151: what a retraction does to its cell, its counters and a JUMP that waits for a seek so cut; the ends of searches,
holds, jumps and seeks; what a queued command does at its effect stitch. -/

namespace Sys2Proof.Machine

/-! ### Cells alike but for their queue and result -/

/-- A cell is another but for its queue and its last result. -/
def Alike (d e : Cell) : Prop := d = { e with queue := d.queue, result := d.result }

theorem alike_refl (c : Cell) : Alike c c := rfl

theorem alike_of_eq {d e : Cell} (h : d = e) : Alike d e := h ▸ rfl

/-- The counters of SRV that a sequence cut short steps (R149, R151). -/
def cutCounters (k : SeqKind) : List Nat :=
  match k with
  | .jump => [4]
  | .seek => [7]
  | _ => []

theorem seqFailed_of_jump {c : Cell} (s : State) (h : c.seq.kind = .jump) : seqFailed s c = bump s 5 4 := by
  simp [seqFailed, h]

/-- An event steps one counter of its block. -/
theorem counter_bump_block (s : State) (b i j : Nat) : counter (bump s b i) b j = counter s b j + (if i = j then 1 else 0) := by
  rw [counter_bump]
  by_cases h : i = j
  · simp [h]
  · rw [if_neg (by omega), if_neg h]
    simp

theorem counter_seqFailed (s : State) (c : Cell) (i : Nat) :
    counter (seqFailed s c) 5 i = counter s 5 i + (if (cutCounters c.seq.kind).contains i then 1 else 0) := by
  cases h : c.seq.kind <;> simp [seqFailed, cutCounters, h, counter_bump_block, -counter_bump, eq_comm]

@[simp] theorem cellAt_seqFailed (s : State) (c : Cell) (n : Nat) : cellAt (seqFailed s c) n = cellAt s n := by
  simp [cellAt]

/-- A JUMP at the head of a focus cell's queue waits for the seek of a cell and is dropped with it. -/
def Dropped (s t : State) (c : Cell) (m : Nat) : Prop :=
  c.seq.kind = .seek ∧ cellOf s c.opu 0 = some m ∧ ∃ q rest, (cellAt s m).queue = q :: rest ∧ q.op = 3 ∧
    t = setCell s m { cellAt s m with queue := rest, result := 2 }

theorem dropHeldJump_cases (s : State) (c : Cell) : dropHeldJump s c = s ∨ ∃ m, Dropped s (dropHeldJump s c) c m := by
  unfold dropHeldJump
  split
  · exact .inl rfl
  · next hkind =>
    split
    · exact .inl rfl
    · next m hm =>
      dsimp only
      split
      · exact .inl rfl
      · next q rest hq =>
        split
        · next hop => exact .inr ⟨m, by simpa using hkind, hm, q, rest, hq, hop.1, rfl⟩
        · exact .inl rfl

/-- A drop changes one cell's queue and result. -/
theorem alike_of_dropped {s t : State} {c : Cell} {m : Nat} (h : Dropped s t c m) (n : Nat) : Alike (cellAt t n) (cellAt s n) := by
  obtain ⟨-, -, q, rest, -, -, rfl⟩ := h
  by_cases hmn : m = n
  · simp [Alike, hmn]
  · simp [Alike, hmn]

theorem counter_of_dropped {s t : State} {c : Cell} {m : Nat} (h : Dropped s t c m) (b i : Nat) : counter t b i = counter s b i := by
  obtain ⟨-, -, q, rest, -, -, rfl⟩ := h
  rfl

/-- The state of a retraction before a JUMP that waits is dropped. -/
def retracting (s : State) (n cause : Nat) (fault : Bool) : State :=
  setCell (seqFailed s (cellAt s n)) n (enterRetract (cellAt s n) cause fault)

theorem retractCell_cases (s : State) (n cause : Nat) (fault : Bool) :
    retractCell s n cause fault = retracting s n cause fault ∨
      ∃ m, Dropped (retracting s n cause fault) (retractCell s n cause fault) (cellAt s n) m :=
  dropHeldJump_cases _ _

theorem retractCell_of_not_seek {s : State} {n : Nat} (cause : Nat) (fault : Bool) (h : (cellAt s n).seq.kind ≠ .seek) :
    retractCell s n cause fault = retracting s n cause fault :=
  (retractCell_cases s n cause fault).elim id (fun ⟨_, hm⟩ => absurd hm.1 h)

theorem cellAt_retracting (s : State) (n cause : Nat) (fault : Bool) (m : Nat) :
    cellAt (retracting s n cause fault) m = if n = m then enterRetract (cellAt s n) cause fault else cellAt s m := by
  simp [retracting]

theorem alike_retractCell (s : State) (n cause : Nat) (fault : Bool) (m : Nat) :
    Alike (cellAt (retractCell s n cause fault) m) (if n = m then enterRetract (cellAt s n) cause fault else cellAt s m) := by
  rw [← cellAt_retracting]
  rcases retractCell_cases s n cause fault with h | ⟨k, h⟩
  · rw [h]
    exact alike_refl _
  · exact alike_of_dropped h m

/-- The retracting cell is alike what RETRACT leaves, every other cell alike what it was. -/
theorem alike_retractCell_same (s : State) (n cause : Nat) (fault : Bool) :
    Alike (cellAt (retractCell s n cause fault) n) (enterRetract (cellAt s n) cause fault) := by
  simpa using alike_retractCell s n cause fault n

theorem alike_retractCell_other (s : State) {n m : Nat} (cause : Nat) (fault : Bool) (h : m ≠ n) :
    Alike (cellAt (retractCell s n cause fault) m) (cellAt s m) := by
  simpa [h.symm] using alike_retractCell s n cause fault m

theorem counter_retractCell (s : State) (n cause : Nat) (fault : Bool) (i : Nat) :
    counter (retractCell s n cause fault) 5 i =
      counter s 5 i + (if (cutCounters (cellAt s n).seq.kind).contains i then 1 else 0) := by
  rw [← counter_seqFailed]
  rcases retractCell_cases s n cause fault with h | ⟨k, h⟩
  · rw [h]
    rfl
  · rw [counter_of_dropped h]
    rfl

/-! ### R147: the steps of a jump -/

/-- Settles O21: each event tests its own step and time; a jump holds no other cell's command, so its retraction drops none. -/
theorem layerJumpSteps : Obligations.LayerJumpSteps := by
  unfold Obligations.LayerJumpSteps
  intro s cell hdue hkind
  have hretract : retractCell s cell 5 true = setCell (bump s 5 4) cell (enterRetract (cellAt s cell) 5 true) := by
    rw [retractCell_of_not_seek _ _ (by rw [hkind]; decide), retracting, seqFailed_of_jump s hkind]
  refine ⟨fun hstep => ?_, fun hstep hst => ?_, fun hstep hst => ?_, fun hstep hst => ?_, fun hstep hst hcap => ?_⟩
  · change execJumpKickEnd cell s = _
    simp only [execJumpKickEnd, stepOver, hdue, hkind, hstep]
    split <;> simp_all
  · change execJumpBrakeEnd cell s = _
    simp only [execJumpBrakeEnd, stepOver, hdue, hkind, hstep, hst]
    split <;> simp_all
  · change execJumpDwellEnd cell s = _
    simp only [execJumpDwellEnd, stepOver, hdue, hkind, hstep, hst]
    split <;> simp_all
  · change execJumpSettleEnd cell s = _
    simp only [execJumpSettleEnd, stepOver, hdue, hkind, hstep, hst]
    split <;> simp_all
  · change execJumpTimeout cell s = _
    simp only [execJumpTimeout, hdue, hkind, hst, hcap, hretract]
    rcases hstep with hstep | hstep <;> simp only [hstep] <;> split <;> simp_all

/-! ### R136, R137: the ends of searches, holds and retractions, and the prerequisite rule -/

theorem exec_searchTimeout {s : State} {cell : Fin 96} (h : searchExpired (cellAt s cell) = true) :
    exec (.searchTimeout cell) s =
      .next (dropUnready (cascade (bump (retractCell s cell 4 true) 5 8) (cellAt s cell).opu) (cellAt s cell).opu) := if_pos h

theorem search_ends {s : State} {cell : Fin 96} (h : searchExpired (cellAt s cell) = true) :
    ∃ u, exec (.searchTimeout cell) s = .next (dropUnready (cascade u (cellAt s cell).opu) (cellAt s cell).opu) ∧
      Alike (cellAt u cell) (enterRetract (cellAt s cell) 4 true) ∧ counter u 5 8 = counter s 5 8 + 1 ∧
      (∀ n, n ≠ cell.val → Alike (cellAt u n) (cellAt s n)) ∧ OnlyIn [.cells, .cnt] s u := by
  refine ⟨_, exec_searchTimeout h, alike_retractCell_same .., ?_, fun n hn => alike_retractCell_other _ _ _ hn,
    onlyIn_of_follows (follows_bump (by decide) (follows_retractCell (by decide) (follows_refl s)))⟩
  have h8 : (cutCounters (cellAt s cell).seq.kind).contains 8 = false := by
    cases (cellAt s cell).seq.kind <;> rfl
  rw [counter_bump, if_pos rfl, counter_retractCell, h8]
  simp

theorem hold_expires {s : State} {cell : Fin 96} (hst : (cellAt s cell).st = .held) (hmax : holdMax (cellAt s cell) ≤ (cellAt s cell).holdSt)
    (hzero : (cellAt s cell).zeroSt < nPlaus (cellAt s cell)) :
    ∃ u, exec (.holdMaxExpiry cell) s =
        .next (surfaceLost (revokeGrants (cascade u (cellAt s cell).opu) (cellAt s cell).opu) (cellAt s cell).opu) ∧
      Alike (cellAt u cell) (enterRetract (cellAt s cell) 1 true) ∧
      (∀ n, n ≠ cell.val → Alike (cellAt u n) (cellAt s n)) ∧ OnlyIn [.cells, .cnt] s u :=
  ⟨retractCell s cell 1 true, if_pos (by simp [hst, hmax, hzero]), alike_retractCell_same .., fun n hn => alike_retractCell_other _ _ _ hn,
    onlyIn_of_follows (follows_retractCell (by decide) (follows_refl s))⟩

/-- What a prerequisite brings to a cell that it retracts. -/
theorem followPrereq_of_retract {s : State} {n p : Nat} (hp : prereqOf s (cellAt s n) = some p)
    (hq : (cellAt s p).st = .retract ∨ (cellAt s p).st = .parked) (hparked : (cellAt s n).st ≠ .parked)
    (hretract : (cellAt s n).st ≠ .retract) : followPrereq s n = retractCell s n 3 false := by
  simp only [followPrereq, hp, Option.map_some]
  rw [if_pos (by simpa using hq), if_neg (by simp [hparked, hretract])]

/-- What a prerequisite brings to a cell that it suspends. -/
theorem followPrereq_of_suspend {s : State} {n p : Nat} (hp : prereqOf s (cellAt s n) = some p)
    (hq : (cellAt s p).st = .held ∨ (cellAt s p).st = .sequence ∨ (cellAt s p).st = .search ∨ (cellAt s p).st = .suspended ∨
      (cellAt s p).st = .closed ∧ (cellAt s p).seq.kind = .jump)
    (hc : (cellAt s n).st = .closed ∨ (cellAt s n).st = .sequence) :
    followPrereq s n = setCell (seqFailed s (cellAt s n)) n (enterSuspended (cellAt s n)) := by
  simp only [followPrereq, hp, Option.map_some]
  rw [if_neg, if_pos (by simpa using hc), if_pos]
  · rcases hq with h | h | h | h | ⟨-, h⟩ <;> simp [h]
  · rcases hq with h | h | h | h | ⟨h, -⟩ <;> simp [h]

/-- What a prerequisite brings to a cell that it lets go on. -/
theorem followPrereq_of_resume {s : State} {n p : Nat} (hp : prereqOf s (cellAt s n) = some p) (hq : (cellAt s p).st = .closed)
    (hk : (cellAt s p).seq.kind = .none) (hc : (cellAt s n).st = .suspended) :
    followPrereq s n =
      setCell s n (if (cellAt s n).loop = 1 then enterSearch (cellAt s n) (cellAt s n).zh else enter (cellAt s n) .closed) := by
  simp [followPrereq, hp, hq, hk, hc]

theorem alike_followPrereq_other (s : State) {n m : Nat} (h : m ≠ n) : Alike (cellAt (followPrereq s n) m) (cellAt s m) := by
  unfold followPrereq
  dsimp only
  split
  · exact alike_refl _
  · split
    · split
      · exact alike_refl _
      · exact alike_retractCell_other _ _ _ h
    · split
      · split
        · exact alike_of_eq (by simp [h.symm])
        · exact alike_refl _
      · split
        · exact alike_of_eq (by simp [h.symm])
        · exact alike_refl _

/-- Settles O23: a retraction leaves its cell alike what RETRACT says, and every other cell alike what it was; a prerequisite brings one of
three changes. -/
theorem searchesHoldsAndRetractionsEnd : Obligations.SearchesHoldsAndRetractionsEnd := by
  unfold Obligations.SearchesHoldsAndRetractionsEnd
  refine ⟨?_, ?_, ?_⟩
  · intro s cell
    refine ⟨fun hst hcap hend => ?_, hold_expires, fun hst hz => ?_, fun hst hr => ?_, fun hst => ?_, fun h => ?_, fun h => ?_, fun h => ?_⟩
    · refine search_ends ?_
      rcases hend with ⟨hl, hpos, htot⟩ | ⟨hl, htot⟩ <;> simp_all [searchExpired]
    · exact if_pos (by simp [hst, hz])
    · exact if_pos (by simp [hst, hr])
    · exact if_neg (by simp [searchExpired, hst])
    · exact if_neg (by rcases h with h | h <;> simp [h])
    · exact if_neg (by rcases h with h | h <;> simp [h])
    · exact if_neg (by rcases h with h | h <;> simp [h])
  · intro c cause
    exact ⟨rfl, by simp [enterRetract], rfl, rfl, rfl, rfl, rfl, rfl, rfl, rfl, rfl⟩
  · intro s n p hp
    refine ⟨fun hq hparked hretract => ?_, fun hq hc => ?_, fun hq hk hc => ?_, fun m hm => alike_followPrereq_other s hm⟩
    · rw [followPrereq_of_retract hp hq hparked hretract]
      exact alike_retractCell_same ..
    · rw [followPrereq_of_suspend hp hq hc, cellAt_setCell, if_pos rfl]
    · rw [followPrereq_of_resume hp hq hk hc, cellAt_setCell, if_pos rfl]

end Sys2Proof.Machine
end

section
/-! PROOFS. R139, R171: what a queued command does at its effect stitch; and R148's seek time-out, refuted for a cell table with a key twice. -/

namespace Sys2Proof.Machine

/-! ### Finding an entry after a write -/

/-- After a write that keeps what the test sees of its key, the entry found has that key or is the one found before. -/
theorem find?_ins {α : Type} {t : Tbl α} {k m : Nat} {v : α} {p : Nat × α → Bool} (hp : ∀ x, look t k = some x → p (k, x) = p (k, v))
    (hm : ((ins t k v).find? p).map (·.1) = some m) : m = k ∨ (t.find? p).map (·.1) = some m := by
  induction t with
  | nil =>
    simp only [ins, List.find?_singleton] at hm
    split at hm <;> simp_all
  | cons e t ih =>
    obtain ⟨a, x⟩ := e
    simp only [ins] at hm
    split at hm
    · rw [List.find?_cons] at hm
      split at hm
      · exact .inl (by simpa using hm.symm)
      · exact .inr hm
    · split at hm
      · next hak =>
        have hx : p (a, x) = p (k, v) := by rw [hak]; exact hp x (by simp [look, hak])
        rw [List.find?_cons] at hm ⊢
        rw [hx]
        split at hm
        · exact .inl (by simpa using hm.symm)
        · exact .inr hm
      · next hak =>
        rw [List.find?_cons] at hm ⊢
        split at hm
        · exact .inr hm
        · exact ih (fun y hy => hp y (by simpa [look, hak] using hy)) hm

/-- The cell that an OPU's loop has while another retracts is that one or the one it had. -/
theorem cellOf_retracting {s : State} {n cause opu l m : Nat} {fault : Bool} (h : cellOf (retracting s n cause fault) opu l = some m) :
    m = n ∨ cellOf s opu l = some m := by
  have hne : enterRetract (cellAt s n) cause fault ≠ {} := fun h0 => CellSt.noConfusion (congrArg Cell.st h0)
  have hcells : (retracting s n cause fault).cells = ins s.cells n (enterRetract (cellAt s n) cause fault) := by
    simp [retracting, setCell, put, hne]
  rw [cellOf, hcells] at h
  refine find?_ins (fun x hx => ?_) h
  have hcell : cellAt s n = x := by simp [cellAt, getD, hx]
  simp [hcell, enterRetract]

/-! ### The effect stitch of a cell -/

theorem exec_effectStitchReached_cell (s : State) (n : Fin 96) : exec (.effectStitchReached (.cell n)) s = .next (cellEffect s n) := rfl

theorem cellEffect_of_absent {s : State} {n : Nat} (h : (portAt s ((cellAt s n).opu / 2)).landed = none) : cellEffect s n = s :=
  if_neg (by simp [h])

/-- The state after a cell's command was taken from its queue. -/
def taken (s : State) (n : Nat) (q : QCmd) : State :=
  setCell s n { cellAt s n with queue := (cellAt s n).queue.drop 1, effect := q.effect }

section
variable {s : State} {n : Fin 96} {q : QCmd} (hland : (portAt s ((cellAt s n).opu / 2)).landed ≠ none)
  (hq : (cellAt s n).queue = [q])
include hland hq

/-- The one command that waits is held. -/
theorem cellEffect_of_held (hact : actCell s n q = none) : cellEffect s n = cascade s (cellAt s n).opu := by
  rw [cellEffect, if_pos (Option.isSome_iff_ne_none.2 hland)]
  congr 1
  simp [actCellAll, hq, hact]

/-- The one command that waits acts. -/
theorem cellEffect_of_act {t : State} (hdue : q.effect ≤ now s) (hact : actCell s n q = some t) (ht : (cellAt t n).queue = []) :
    cellEffect s n = cascade t (cellAt s n).opu := by
  have hnot : ¬ s.tck.count < q.effect := Nat.not_lt.2 hdue
  rw [cellEffect, if_pos (Option.isSome_iff_ne_none.2 hland)]
  congr 1
  simp [actCellAll, hq, hnot, hact, ht]

end

/-- Another cell than the one whose command acts stands, but for a JUMP dropped from the focus cell's queue with the seek that OPEN cuts. -/
def Stands (s : State) (n : Fin 96) (q : QCmd) (u : State) (m : Nat) : Prop :=
  cellAt u m = { cellAt s m with queue := (cellAt u m).queue, result := (cellAt u m).result } ∧
    ((cellAt u m).queue = (cellAt s m).queue ∧ (cellAt u m).result = (cellAt s m).result ∨
      (cellAt s n).seq.kind = .seek ∧ q.op = 2 ∧ cellOf s (cellAt s n).opu 0 = some m ∧
        (cellAt s m).queue.head?.any (fun k => k.op = 3) = true ∧ (cellAt u m).queue = (cellAt s m).queue.tail ∧ (cellAt u m).result = 2)

theorem stands_of_eq {s u : State} {n : Fin 96} {q : QCmd} {m : Nat} (h : cellAt u m = cellAt s m) : Stands s n q u m := by
  simp [Stands, h]

/-- The cell's command acts: the cell is `d` with the command taken, the other cells stand, and of SRV's counters the listed ones step. -/
def CellBecomes (s : State) (n : Fin 96) (q : QCmd) (d : Cell) (counters : List Nat) : Prop :=
  ∃ u, exec (.effectStitchReached (.cell n)) s = .next (cascade u (cellAt s n).opu) ∧
    cellAt u n = { d with queue := [], effect := q.effect } ∧ (∀ m, m ≠ n.val → Stands s n q u m) ∧
    (∀ i, i < 32 → counter u 5 i = counter s 5 i + (if counters.contains i then 1 else 0))

@[simp] theorem aimSeek_cells (s : State) (o : Nat) (d : Int) : (aimSeek s o d).cells = s.cells ∧ (aimSeek s o d).cnt = s.cnt := by
  unfold aimSeek
  dsimp only
  split <;> exact ⟨rfl, rfl⟩

section
variable {s : State} {n : Fin 96} {q : QCmd} (hland : (portAt s ((cellAt s n).opu / 2)).landed ≠ none)
  (hq : (cellAt s n).queue = [q]) (hdue : q.effect ≤ now s)
include hland hq hdue

/-- A command that writes its own cell and steps no counter. -/
theorem cellBecomes_of_set {d : Cell} (hd : d.queue = [q]) (hact : actCell s n q = some (taken (setCell s n d) n q)) :
    CellBecomes s n q d [] := by
  have hcell : cellAt (taken (setCell s n d) n q) n = { d with queue := [], effect := q.effect } := by simp [taken, hd]
  refine ⟨_, congrArg _ (cellEffect_of_act hland hq hdue hact (by rw [hcell])), hcell, fun m hm => stands_of_eq ?_, fun i _ => ?_⟩
  · simp [taken, hm.symm]
  · simp [taken]

/-- A command that is taken without effect on its cell. -/
theorem cellBecomes_of_taken (hact : actCell s n q = some (taken s n q)) : CellBecomes s n q (cellAt s n) [] := by
  have hcell : cellAt (taken s n q) n = { cellAt s n with queue := [], effect := q.effect } := by simp [taken, hq]
  refine ⟨_, congrArg _ (cellEffect_of_act hland hq hdue hact (by rw [hcell])), hcell, fun m hm => stands_of_eq ?_, fun i _ => ?_⟩
  · simp [taken, hm.symm]
  · simp [taken]

/-- A command that writes its own cell and is counted; what else it does touches neither cells nor counters. -/
theorem cellBecomes_of_counted {d : Cell} {t : State} {k : Nat} (hd : d.queue = [q])
    (ht : t.cells = (taken (setCell s n d) n q).cells ∧ t.cnt = s.cnt) (hact : actCell s n q = some (bump t 5 k)) :
    CellBecomes s n q d [k] := by
  have hat (m : Nat) : cellAt (bump t 5 k) m = cellAt (taken (setCell s n d) n q) m := by
    rw [cellAt_bump, cellAt, ht.1]
    rfl
  have hcell : cellAt (bump t 5 k) n = { d with queue := [], effect := q.effect } := by rw [hat]; simp [taken, hd]
  refine ⟨_, congrArg _ (cellEffect_of_act hland hq hdue hact (by rw [hcell])), hcell, fun m hm => stands_of_eq ?_, fun i _ => ?_⟩
  · rw [hat]
    simp [taken, hm.symm]
  · rw [counter_bump_block, counter, ht.2]
    simp [counter, eq_comm]

/-- OPEN of a cell in service retracts it, and with a seek so cut goes the JUMP that waits for it. -/
theorem cellBecomes_of_open (hop : q.op = 2) (hact : actCell s n q = some (taken (retractCell s n 6 false) n q)) :
    CellBecomes s n q (enterRetract (cellAt s n) 6 false) (cutCounters (cellAt s n).seq.kind) := by
  have hqueue : (cellAt (retracting s n 6 false) n).queue = [q] := by
    rw [cellAt_retracting, if_pos rfl]
    exact hq
  have hne (m : Nat) (hm : m ≠ n.val) : cellAt (retracting s n 6 false) m = cellAt s m := by
    rw [cellAt_retracting, if_neg hm.symm]
  have hother : cellAt (retractCell s n 6 false) n = enterRetract (cellAt s n) 6 false ∧
      ∀ m, m ≠ n.val → Stands s n q (retractCell s n 6 false) m := by
    rcases retractCell_cases s n 6 false with h | ⟨k, hkind, hk, r, rest, hr, hrop, ht⟩
    · rw [h]
      exact ⟨by rw [cellAt_retracting, if_pos rfl], fun m hm => stands_of_eq (hne m hm)⟩
    · have hkn : k ≠ n.val := by
        rintro rfl
        rw [hqueue] at hr
        obtain rfl := (List.cons.inj hr).1
        omega
      rw [ht]
      refine ⟨by rw [cellAt_setCell, if_neg hkn, cellAt_retracting, if_pos rfl], fun m hm => ?_⟩
      by_cases hmk : k = m
      · subst hmk
        rw [hne k hkn] at hr
        have hfocus : cellOf s (cellAt s n).opu 0 = some k := (cellOf_retracting hk).resolve_left hkn
        simp [Stands, hne k hkn, hkind, hop, hfocus, hr, hrop]
      · exact stands_of_eq (by rw [cellAt_setCell, if_neg hmk, hne m hm])
  have hcell : cellAt (taken (retractCell s n 6 false) n q) n =
      { enterRetract (cellAt s n) 6 false with queue := [], effect := q.effect } := by
    simp [taken, hother.1, enterRetract, hq]
  refine ⟨_, congrArg _ (cellEffect_of_act hland hq hdue hact (by rw [hcell])), hcell, fun m hm => ?_, fun i _ => ?_⟩
  · have hsame : cellAt (taken (retractCell s n 6 false) n q) m = cellAt (retractCell s n 6 false) m := by simp [taken, hm.symm]
    have hstands := hother.2 m hm
    rw [Stands] at hstands ⊢
    rwa [hsame]
  · rw [← counter_retractCell]
    rfl

end

/-! ### What each operation of a cell does -/

section
variable {s : State} {n : Fin 96} {q : QCmd}

theorem actCell_close_of_ready (hop : q.op = 1) (hst : (cellAt s n).st = .parked)
    (hpre : ∀ p, prereqOf s (cellAt s n) = some p → (cellAt s p).st = .closed) :
    actCell s n q =
      some (taken (setCell s n (enterSearch { cellAt s n with fault := false, cause := 0, xm := [] } (park (cellAt s n)))) n q) := by
  unfold actCell
  cases hp : prereqOf s (cellAt s n) with
  | none => simp [hop, hst, hp, taken]
  | some p => simp [hop, hst, hp, hpre p hp, taken]

theorem actCell_close_of_waiting {p : Nat} (hop : q.op = 1) (hst : (cellAt s n).st = .parked)
    (hp : prereqOf s (cellAt s n) = some p) (hpre : (cellAt s p).st ≠ .closed) : actCell s n q = none := by
  simp [actCell, hop, hst, hp, hpre]

theorem actCell_close_of_open (hop : q.op = 1) (hst : (cellAt s n).st ≠ .parked) (hr : (cellAt s n).st ≠ .retract) :
    actCell s n q = some (taken s n q) := by
  simp [actCell, hop, hst, hr, taken]

theorem actCell_open (hop : q.op = 2) (hst : (cellAt s n).st = .closed ∨ (cellAt s n).st = .sequence ∨ (cellAt s n).st = .held) :
    actCell s n q = some (taken (retractCell s n 6 false) n q) := by
  rcases hst with h | h | h <;> simp [actCell, hop, h, taken]

/-- A loop's cell is in a sequence of a kind only where there is such a cell. -/
theorem kindOf_ne {s : State} {opu l : Nat} {k : SeqKind} (hk : k ≠ .none) (h : ∀ m, cellOf s opu l = some m → (cellAt s m).seq.kind ≠ k) :
    ((cellOf s opu l).map (fun m => (cellAt s m).seq.kind)).getD .none ≠ k := by
  cases hm : cellOf s opu l with
  | none => exact hk.symm
  | some m => exact h m hm

/-- The sequence of a layer jump from a layer towards a target. -/
def jumpSeq (l t : Nat) : Seqn :=
  { kind := .jump, step := .kick, target := t, deeper := decide (t < l), remain := ((t : Int) - l).natAbs }

theorem actCell_jump {l : Nat} (hop : q.op = 3) (hst : (cellAt s n).st = .closed) (hkind : (cellAt s n).seq.kind = .none)
    (hseek : ∀ m, cellOf s (cellAt s n).opu 1 = some m → (cellAt s m).seq.kind ≠ .seek)
    (hl : (if bits q.arg 8 8 = 1 then some (bits q.arg 7 4) else (cellAt s n).layer) = some l) (hne : l ≠ bits q.arg 3 0) :
    actCell s n q = some (bump (taken (setCell s n
      { enter { cellAt s n with layer := some l } .sequence with seq := jumpSeq l (bits q.arg 3 0) }) n q) 5 3) := by
  have hother := kindOf_ne (by decide) hseek
  simp [actCell, hop, hst, hkind, hother, hl, hne, taken, jumpSeq]

theorem actCell_seek (hop : q.op = 4) (hst : (cellAt s n).st = .closed) (hkind : (cellAt s n).seq.kind = .none)
    (hfocus : ∀ m, cellOf s (cellAt s n).opu 0 = some m → (cellAt s m).seq.kind ≠ .jump ∧ (cellAt s m).seq.kind ≠ .acquire)
    (hd : sx 24 q.arg ≠ 0) :
    actCell s n q = some (bump (aimSeek (taken (setCell s n
      { enter (cellAt s n) .sequence with seq := { kind := .seek, step := .kick, d := sx 24 q.arg, remain := sx 24 q.arg } }) n q)
        (cellAt s n).opu (sx 24 q.arg)) 5 5) := by
  have hjump := kindOf_ne (by decide) (fun m hm => (hfocus m hm).1)
  have hacquire := kindOf_ne (by decide) (fun m hm => (hfocus m hm).2)
  simp [actCell, hop, hst, hkind, hjump, hacquire, hd, taken]

/-- The cell with the offset component that an OFFSET names. -/
def withOffset (c : Cell) (component : Nat) (v : Int) : Cell :=
  match component with
  | 0 => { c with cal := v }
  | 1 => { c with sweep := v }
  | _ => { c with trial := v }

theorem withOffset_queue (c : Cell) (component : Nat) (v : Int) : (withOffset c component v).queue = c.queue := by
  unfold withOffset
  split <;> rfl

theorem actCell_offset (hop : q.op = 5) :
    actCell s n q = some (taken (setCell s n
      (withOffset (cellAt s n) (bits q.arg 17 16) (sat16 (trunc (sx 16 q.arg * (cw (cellAt s n) 12 : Int)) 256)))) n q) := by
  simp only [actCell, hop]
  rfl

end

/-! ### The effect stitch of a unit and of an axis -/

/-- A START of a unit at OFF senses, its queue as it was. -/
theorem startUnit_of_off {u : Unit} (p : SpdPar) (rpm : Nat) (h : u.st = .off) :
    startUnit p u rpm = { toSense (setTarget p u rpm) with attempt := 1 } := by
  simp [startUnit, setTarget, clipTarget, h]

/-- The unit whose command has been taken. -/
def unitTaken (u : Unit) : Unit := { u with queue := u.queue.drop 1 }

theorem actUnit_start {s : State} {n : Nat} {q : QCmd} (hop : q.op = 1) (hst : (unitAt s n).st = .off)
    (hfault : (unitAt s n).fault = false) :
    actUnit s n q = bump (setUnit s n (startUnit (spdPar s n) (unitTaken (unitAt s n)) q.arg)) 6 0 := by
  have hbad : ¬ spdBad (unitTaken (unitAt s n)) q.op = true := by simp [spdBad, unitTaken, hop, hfault]
  have hsense : (startUnit (spdPar s n) (unitTaken (unitAt s n)) q.arg).st = .sense := by
    rw [startUnit_of_off (u := unitTaken (unitAt s n)) _ _ hst]
    rfl
  have hoff : (unitTaken (unitAt s n)).st ≠ .sense := fun h => absurd (hst.symm.trans h) (by decide)
  exact (if_neg (by omega)).trans ((if_neg hbad).trans ((if_pos hop).trans
    (if_pos (Bool.and_eq_true_iff.2 ⟨beq_iff_eq.2 hsense, bne_iff_ne.2 hoff⟩))))

theorem unitEffect_of_start {s : State} {n : Nat} {q : QCmd} (hland : (portAt s n).landed ≠ none) (hq : (unitAt s n).queue = [q])
    (hdue : q.effect ≤ now s) (hop : q.op = 1) (hst : (unitAt s n).st = .off) (hfault : (unitAt s n).fault = false) :
    unitEffect s n = bump (setUnit s n (startUnit (spdPar s n) (unitTaken (unitAt s n)) q.arg)) 6 0 := by
  have hnot : ¬ s.tck.count < q.effect := Nat.not_lt.2 hdue
  have hempty : (startUnit (spdPar s n) (unitTaken (unitAt s n)) q.arg).queue = [] := by
    rw [startUnit_of_off (u := unitTaken (unitAt s n)) _ _ hst]
    simp [toSense, toState, setTarget, clipTarget, unitTaken, hq]
  rw [unitEffect, if_pos (Option.isSome_iff_ne_none.2 hland)]
  simp [actUnitAll, hq, hnot, actUnit_start hop hst hfault, hempty]

/-- The axis that a MOVE sets going. -/
def axisMoved (a : Axis) (t : Nat) : Axis := { a with queue := [], st := .moving, tgt := t * unitStep, aC := 0, follow := false }

theorem actAxisOp_move {a : Axis} {n : Nat} {q : QCmd} (m : MotPar) (hop : q.op = 1) (hst : a.st = .idle) (hknown : a.known = true)
    (hhold : a.hold = false) (hr : (q.arg : Int) ≤ softRange (decide (n < 16))) :
    actAxisOp m n a q = { a with st := .moving, tgt := q.arg * unitStep, aC := 0, follow := false } := by
  have hbad : axisBad a n 1 q.arg = false := by simp [axisBad, moveBad, hknown, Int.not_lt.2 hr]
  simp [actAxisOp, hop, hbad, moveAxis, hst, hhold, startMove]

theorem actAxis_move {s : State} {n : Nat} {q : QCmd} (hq : (axisAt s n).queue = [q]) (hop : q.op = 1) (hst : (axisAt s n).st = .idle)
    (hknown : (axisAt s n).known = true) (hhold : (axisAt s n).hold = false) (hr : (q.arg : Int) ≤ softRange (decide (n < 16))) :
    actAxis s n q = setAxis s n (axisMoved (axisAt s n) q.arg) ∨
      actAxis s n q = bump (setAxis s n (axisMoved (axisAt s n) q.arg)) 7 1 := by
  have hact := actAxisOp_move (a := { axisAt s n with queue := [] }) (motPar s n) hop hst hknown hhold hr
  simp only [actAxis, hq, List.drop_one, List.tail_cons, hact, hop]
  rw [if_neg (by decide)]
  split
  · exact .inr rfl
  · exact .inl rfl

theorem axisEffect_of_move {s : State} {n : Nat} {q : QCmd} (hland : (portAt s (axisBay n)).landed ≠ none)
    (hq : (axisAt s n).queue = [q]) (hdue : q.effect ≤ now s) (hop : q.op = 1) (hst : (axisAt s n).st = .idle)
    (hknown : (axisAt s n).known = true) (hhold : (axisAt s n).hold = false) (hr : (q.arg : Int) ≤ softRange (decide (n < 16))) :
    (∀ m, axisAt (axisEffect s n) m = if n = m then axisMoved (axisAt s n) q.arg else axisAt s m) ∧
      OnlyIn [.axes, .cnt] s (axisEffect s n) := by
  have hnot : ¬ s.tck.count < q.effect := Nat.not_lt.2 hdue
  have hset : Follows (fun p => ([.axes, .cnt] : List Part).contains p) s (setAxis s n (axisMoved (axisAt s n) q.arg)) :=
    follows_setAxis (by decide) (follows_refl s)
  have hall (t : State) (ht : actAxis s n q = t) (hempty : (axisAt t n).queue = []) : axisEffect s n = t := by
    rw [axisEffect, if_pos (Option.isSome_iff_ne_none.2 hland)]
    simp [actAxisAll, hq, hnot, ht, hempty]
  rcases actAxis_move hq hop hst hknown hhold hr with h | h
  · rw [hall _ h (by simp [axisMoved])]
    exact ⟨fun m => axisAt_setAxis .., onlyIn_of_follows hset⟩
  · rw [hall _ h (by simp [axisMoved])]
    exact ⟨fun m => by rw [axisAt_bump, axisAt_setAxis], onlyIn_of_follows (follows_bump (by decide) hset)⟩

/-- Settles O20: with one command waiting the effect stitch is that command's act, and each act writes its own object. -/
theorem commandsActAtTheirEffectStitch : Obligations.CommandsActAtTheirEffectStitch := by
  unfold Obligations.CommandsActAtTheirEffectStitch
  refine ⟨?_, ?_, ?_, ?_⟩
  · intro s n h
    rw [exec_effectStitchReached_cell, cellEffect_of_absent h]
  · intro s n q hland hq hdue
    refine ⟨fun hop hst hpre => cellBecomes_of_set hland hq hdue (by simpa [enterSearch] using hq) (actCell_close_of_ready hop hst hpre),
      fun p hop hst hp hpre => congrArg _ (cellEffect_of_held hland hq (actCell_close_of_waiting hop hst hp hpre)),
      fun hop hst hr => cellBecomes_of_taken hland hq hdue (actCell_close_of_open hop hst hr),
      fun hop hst => cellBecomes_of_open hland hq hdue hop (actCell_open hop hst),
      fun hop hst hkind hseek l hl hne =>
        cellBecomes_of_counted hland hq hdue (by simpa [enter] using hq) ⟨rfl, rfl⟩ (actCell_jump hop hst hkind hseek hl hne),
      fun hop hst hkind hfocus hd =>
        cellBecomes_of_counted hland hq hdue (by simpa [enter] using hq) (aimSeek_cells ..) (actCell_seek hop hst hkind hfocus hd),
      fun hop => cellBecomes_of_set hland hq hdue ((withOffset_queue ..).trans hq) (actCell_offset hop)⟩
  · intro s n q hland hq hdue hop hst hfault
    refine ⟨_, rfl, ?_⟩
    rw [unitEffect_of_start hland hq hdue hop hst hfault]
    refine ⟨?_, ?_, fun m hm => ?_, onlyIn_of_follows (follows_bump (by decide) (follows_setUnit (by decide) (follows_refl s)))⟩
    · rw [unitAt_bump, unitAt_setUnit, if_pos rfl, startUnit_of_off (u := unitTaken (unitAt s n)) _ _ hst]
      simp [setTarget, clipTarget, unitTaken, hq]
    · simp
    · simp [hm.symm]
  · intro s n q hland hq hdue hop hst hknown hhold hr
    obtain ⟨hat, hframe⟩ := axisEffect_of_move hland hq hdue hop hst hknown hhold hr
    exact ⟨_, rfl, (hat n).trans (if_pos rfl), fun m hm => (hat m).trans (if_neg hm.symm), hframe⟩

end Sys2Proof.Machine
end

section
/-! PROOFS. R148: the seek time-out, as stated for every cell table. A table with a key twice can give a tracking cell's own number as its
OPU's focus cell; the retraction then drops a JUMP from the very cell that it retracts. -/

namespace Sys2Proof.Machine

/-- Of a step over cells: the queue of cell `k` stands unless the counter of failed seeks steps, `j` times at most. -/
def DropsCounted (k j : Nat) (s t : State) : Prop :=
  ∃ i ≤ j, counter t 5 7 = counter s 5 7 + BitVec.ofNat 64 i ∧ (i = 0 → (cellAt t k).queue = (cellAt s k).queue)

theorem dropsCounted_refl (k j : Nat) (s : State) : DropsCounted k j s s := ⟨0, Nat.zero_le _, by simp, fun _ => rfl⟩

theorem dropsCounted_trans {k i j : Nat} {s t u : State} (h : DropsCounted k i s t) (g : DropsCounted k j t u) : DropsCounted k (i + j) s u := by
  obtain ⟨a, ha, hac, haq⟩ := h
  obtain ⟨b, hb, hbc, hbq⟩ := g
  refine ⟨a + b, Nat.add_le_add ha hb, ?_, fun h0 => ?_⟩
  · rw [hbc, hac, BitVec.ofNat_add, BitVec.add_assoc]
  · exact (hbq (Nat.eq_zero_of_add_eq_zero_left h0)).trans (haq (Nat.eq_zero_of_add_eq_zero_right h0))

theorem dropsCounted_retractCell (k : Nat) (s : State) (n cause : Nat) (fault : Bool) :
    DropsCounted k 1 s (retractCell s n cause fault) := by
  by_cases hseek : (cellAt s n).seq.kind = .seek
  · exact ⟨1, Nat.le_refl _, by rw [counter_retractCell, hseek]; rfl, fun h => absurd h (by decide)⟩
  · refine ⟨0, by omega, ?_, fun _ => ?_⟩
    · have h7 : (cutCounters (cellAt s n).seq.kind).contains 7 = false := by
        cases hk : (cellAt s n).seq.kind <;> simp_all [cutCounters]
      rw [counter_retractCell, h7]
      rfl
    · rw [retractCell_of_not_seek _ _ hseek, cellAt_retracting]
      split
      · next h => rw [← h]; rfl
      · rfl

theorem enterSuspended_queue (c : Cell) : (enterSuspended c).queue = c.queue := rfl

theorem dropsCounted_followPrereq (k : Nat) (s : State) (n : Nat) : DropsCounted k 1 s (followPrereq s n) := by
  have hsame (t : State) (hc : counter t 5 7 = counter s 5 7) (hq : (cellAt t k).queue = (cellAt s k).queue) : DropsCounted k 1 s t :=
    ⟨0, by omega, by simpa using hc, fun _ => hq⟩
  have hset (u : State) (c : Cell) (hu : ∀ m, cellAt u m = cellAt s m) (hq : c.queue = (cellAt s n).queue) :
      (cellAt (setCell u n c) k).queue = (cellAt s k).queue := by
    rw [cellAt_setCell]
    split
    · next h => rw [hq, h]
    · rw [hu]
  unfold followPrereq
  dsimp only
  split
  · exact dropsCounted_refl ..
  · split
    · split
      · exact dropsCounted_refl ..
      · exact dropsCounted_retractCell ..
    · split
      · split
        · refine ⟨if (cutCounters (cellAt s n).seq.kind).contains 7 then 1 else 0, by split <;> omega, ?_, fun _ => ?_⟩
          · rw [counter_setCell, counter_seqFailed]
            split <;> rfl
          · exact hset _ _ (fun m => cellAt_seqFailed ..) (enterSuspended_queue _)
        · exact dropsCounted_refl ..
      · split
        · refine hsame _ (counter_setCell ..) (hset _ _ (fun _ => rfl) ?_)
          split <;> rfl
        · exact dropsCounted_refl ..

theorem dropsCounted_cascade (k : Nat) (s : State) (opu : Nat) : DropsCounted k 3 s (cascade s opu) := by
  have hstep (u : State) (l : Nat) : DropsCounted k 1 u (match cellOf u opu l with | some n => followPrereq u n | none => u) := by
    split
    · exact dropsCounted_followPrereq ..
    · exact dropsCounted_refl ..
  exact dropsCounted_trans (dropsCounted_trans (hstep s 1) (hstep _ 2)) (hstep _ 3)

/-- A tracking cell in a seek, a JUMP at the head of its own queue. -/
def seekingCell : Cell :=
  { named := true, loop := 1, st := .sequence, seq := { kind := .seek }, queue := [{ op := 3, arg := 0, effect := 0 }] }

/-- A state whose cell table lists number 5 twice: first the tracking cell, then a focus cell of the same OPU. -/
def twiceListed : State := { cells := [(5, seekingCell), (5, { named := true })] }

theorem dropUnready_of_no_grant {s : State} (opu : Nat) (h : s.bays = []) : dropUnready s opu = s := by
  have hg : (bayAt s (opu / 2)).grants = [] := by rw [bayAt, h]; rfl
  simp [dropUnready, hg]

theorem exec_seekTimeout_twiceListed :
    exec (.seekTimeout 5) twiceListed = .next (dropUnready (cascade (retractCell twiceListed 5 5 true) 0) 0) := rfl

/-- The retraction empties the queue of the cell that it retracts, and its seek is counted once. -/
theorem retract_twiceListed :
    (cellAt (cascade (retractCell twiceListed 5 5 true) 0) 5).queue = [] ∧ counter (cascade (retractCell twiceListed 5 5 true) 0) 5 7 = 1 := by
  decide

/-- Refutes O22: no state with the JUMP still in the retracted cell's queue, and one failed seek counted, follows by the cascade to the state
that the command answers: each drop in the cascade would be counted again. -/
theorem not_seekSteps : ¬ Obligations.SeekSteps := by
  unfold Obligations.SeekSteps
  intro h
  obtain ⟨-, -, -, htimeout⟩ := h twiceListed 5 rfl rfl
  obtain ⟨u, hexec, hcell, hcount, -, hpending, hframe⟩ := (htimeout rfl rfl).2 (Nat.zero_le _) (by decide)
  have hubays : u.bays = [] := hframe .bays (by decide)
  have hbays : (cascade u 0).bays = [] := by simpa using hubays
  have hanswer : cascade (retractCell twiceListed 5 5 true) 0 = cascade u 0 := by
    have := Host.Outcome.next.inj (exec_seekTimeout_twiceListed.symm.trans hexec)
    rwa [dropUnready_of_no_grant 0 (by rfl), show (cellAt twiceListed (5 : Fin 96)).opu = 0 from rfl, dropUnready_of_no_grant 0 hbays] at this
  obtain ⟨hempty, hone⟩ := retract_twiceListed
  obtain ⟨j, hj, hjc, hjq⟩ := dropsCounted_cascade 5 u 0
  rw [← hanswer, hone, hcount] at hjc
  have hj0 : j = 0 := by
    have h0 : counter twiceListed 5 7 = 0 := rfl
    rw [h0] at hjc
    have hnat : (1 : Nat) = (1 + j % 2 ^ 64) % 2 ^ 64 := by simpa using congrArg BitVec.toNat hjc
    omega
  have hkeep := hjq hj0
  rw [← hanswer, hempty] at hkeep
  exact absurd (hkeep.trans (congrArg Cell.queue hcell)) (by decide)

end Sys2Proof.Machine
end

section
/-! PROOFS. R161 to R164: the start of a spindle by its table. R184, R186: homing's time-out and following. R199: lane retraining. -/

namespace Sys2Proof.Machine

theorem onlyIn_setUnit (s : State) (n : Nat) (u : Unit) : OnlyIn [.units] s (setUnit s n u) :=
  onlyIn_of_follows (follows_setUnit (by decide) (follows_refl s))

theorem onlyIn_bump_setUnit (s : State) (n b i : Nat) (u : Unit) : OnlyIn [.units, .cnt] s (bump (setUnit s n u) b i) :=
  onlyIn_of_follows (follows_bump (by decide) (follows_setUnit (by decide) (follows_refl s)))

theorem unitAt_setUnit_of_ne (s : State) {n m : Nat} (u : Unit) (h : m ≠ n) : unitAt (setUnit s n u) m = unitAt s m := by
  rw [unitAt_setUnit, if_neg h.symm]

theorem unitAt_setUnit_same (s : State) (n : Nat) (u : Unit) : unitAt (setUnit s n u) n = u := by rw [unitAt_setUnit, if_pos rfl]

/-- A command that writes one unit gives it that value and leaves the others. -/
theorem unitBecomes {i : Instr} {s : State} {n : Nat} {v : Unit} (h : exec i s = .next (setUnit s n v)) :
    ∃ t, exec i s = .next t ∧ unitAt t n = v ∧ (∀ m, m ≠ n → unitAt t m = unitAt s m) ∧ OnlyIn [.units] s t :=
  ⟨_, h, unitAt_setUnit_same .., fun _ hm => unitAt_setUnit_of_ne _ _ hm, onlyIn_setUnit ..⟩

/-- A start that fails latches FAULT with its cause and logs one event before the surfaces go. -/
theorem startFails {i : Instr} {s t : State} {n cause : Nat} {u : Unit} (h : exec i s = .next (bayLost t n))
    (hu : t.units = (setUnit s n (latchFault (toState u .fault) cause)).units) (hb : t.bdy.staged.length = s.bdy.staged.length + 1)
    (hf : OnlyIn [.units, .bdy] s t) :
    ∃ v, exec i s = .next (bayLost v n) ∧ (unitAt v n).st = .fault ∧ (unitAt v n).fault = true ∧ (unitAt v n).cause = cause ∧
      v.bdy.staged.length = s.bdy.staged.length + 1 ∧ (∀ m, m ≠ n → unitAt v m = unitAt s m) ∧ OnlyIn [.units, .bdy] s v := by
  have hat (m : Nat) : unitAt t m = unitAt (setUnit s n (latchFault (toState u .fault) cause)) m := by rw [unitAt, hu]; rfl
  have hn := (hat n).trans (unitAt_setUnit_same ..)
  refine ⟨t, h, ?_, ?_, ?_, hb, fun m hm => (hat m).trans (unitAt_setUnit_of_ne _ _ hm), hf⟩ <;> rw [hn] <;> rfl

/-! ### SENSE, ALIGN, RAMP and the brakes -/

section
variable {s : State} {n : Fin 8}

theorem exec_senseComplete_of_time (hst : (unitAt s n).st = .sense) (ht : 5000 ≤ (unitAt s n).timer) :
    exec (.senseComplete n) s =
      (let w := senseOmega (unitAt s n)
       let r := rpmOf (spdPar s n) (BitVec.ofInt 32 w)
       if w = 0 then .next (setUnit s n (toAlign (unitAt s n) 1))
       else if 300 ≤ r then .next (bump (setUnit s n (toRun (spdPar s n) (unitAt s n) (unitAt s n).senseLast (BitVec.ofInt 32 w))) 6 2)
       else if -60 ≤ r then .next (setUnit s n { toShort (spdPar s n) (unitAt s n) (.start 1) with pulsed := false, fraction := 4095 })
       else .next (setUnit s n (toShort (spdPar s n) (unitAt s n) .backward))) :=
  if_neg (by simp [hst, Nat.not_lt.2 ht])

theorem exec_rampTimeout_of_time (hst : (unitAt s n).st = .ramp) (ht : 375000 ≤ (unitAt s n).timer) (hv : (unitAt s n).validRun < 6) :
    exec (.rampTimeout n) s = (if (unitAt s n).attempt < 4 then
        .next (bump (setUnit s n (toShort (spdPar s n) (unitAt s n) (.start ((unitAt s n).attempt + 1)))) 6 1)
      else .next (bayLost (setUnit (event s 0x0408 6 2 n 0xFF [1]) n (latchFault (toState (unitAt s n) .fault) 1)) n)) :=
  if_neg (by simp [hst, Nat.not_lt.2 ht, Nat.not_le.2 hv])

theorem exec_startBrakeEnd_of_short (hst : (unitAt s n).st = .short) :
    exec (.startBrakeEnd n) s = (match (unitAt s n).brake with
      | .stop => .next s
      | .start a => if (if a = 1 then 75000 else 125000) ≤ (unitAt s n).timer then .next (setUnit s n (toAlign (unitAt s n) a)) else .next s
      | .backward => if (unitAt s n).rpmShort.natAbs ≤ 60 ∧ (unitAt s n).timer < 1000000
          then .next (setUnit s n (toAlign (unitAt s n) 1)) else .next s) :=
  (if_neg (by simp [hst])).trans (by rfl)

theorem exec_startBrakeEnd_of_young (ht : (unitAt s n).timer < 75000) (hb : (unitAt s n).brake ≠ .backward) :
    exec (.startBrakeEnd n) s = .next s := by
  by_cases hst : (unitAt s n).st = .short
  · rw [exec_startBrakeEnd_of_short hst]
    cases hbr : (unitAt s n).brake with
    | stop => rfl
    | start a => exact if_neg (by split <;> omega)
    | backward => exact absurd hbr hb
  · exact if_pos (by simpa using hst)

end

/-- Settles O25: each event's branch in its table is taken by the unit's state and timer. -/
theorem spindleStartsByItsTable : Obligations.SpindleStartsByItsTable := by
  unfold Obligations.SpindleStartsByItsTable
  intro s n
  refine ⟨fun hst ht => ?_, fun hst ht => unitBecomes (if_pos (by simp [hst, ht])), fun hst ht hv => ⟨fun ha => ?_, fun ha => ?_⟩,
    fun a hst hb ht => unitBecomes ?_, fun hst hb hr ht => unitBecomes ?_, fun hst hb ht => ?_,
    fun ht => if_pos (by simp [ht]), fun ht => if_neg (by simp; omega), fun ht => if_pos (by simp [ht]),
    fun ht => if_neg (by simp; omega), exec_startBrakeEnd_of_young, fun v => ⟨rfl, rfl, rfl, rfl, rfl, fun p th w => ⟨rfl, rfl, rfl, rfl⟩⟩⟩
  · have hx := exec_senseComplete_of_time hst ht
    exact ⟨fun hw => unitBecomes (hx.trans (if_pos hw)), fun hw hr => hx.trans ((if_neg hw).trans (if_pos hr)),
      fun hw hr hr' => ⟨{ toShort (spdPar s n) (unitAt s n) (.start 1) with pulsed := false, fraction := 4095 },
        unitBecomes (hx.trans ((if_neg hw).trans ((if_neg (by omega)).trans (if_pos hr)))), rfl, rfl, rfl, rfl⟩,
      fun hw hr => ⟨toShort (spdPar s n) (unitAt s n) .backward,
        unitBecomes (hx.trans ((if_neg hw).trans ((if_neg (by omega)).trans (if_neg (by omega))))), rfl, rfl⟩⟩
  · exact ⟨_, (exec_rampTimeout_of_time hst ht hv).trans (if_pos ha), by rw [unitAt_bump, unitAt_setUnit_same]; rfl,
      by rw [unitAt_bump, unitAt_setUnit_same]; rfl, by rw [counter_bump_block]; rfl,
      fun m hm => (unitAt_bump ..).trans (unitAt_setUnit_of_ne _ _ hm), onlyIn_bump_setUnit ..⟩
  · exact startFails (n := n) ((exec_rampTimeout_of_time hst ht hv).trans (if_neg (by omega))) rfl (by simp [event])
      (onlyIn_of_follows (follows_setUnit (by decide) (follows_event (by decide) (follows_refl s))))
  · rw [exec_startBrakeEnd_of_short hst, hb]
    exact if_pos ht
  · rw [exec_startBrakeEnd_of_short hst, hb]
    exact if_pos ⟨hr, ht⟩
  · exact startFails (n := n) (if_pos (by simp [hst, hb, ht])) rfl (by simp [event])
      (onlyIn_of_follows (follows_event (by decide) (follows_setUnit (by decide) (follows_refl s))))

/-! ### Homing and following -/

theorem onlyIn_bump_setAxis (s : State) (n b i : Nat) (a : Axis) : OnlyIn [.axes, .cnt] s (bump (setAxis s n a) b i) :=
  onlyIn_of_follows (follows_bump (by decide) (follows_setAxis (by decide) (follows_refl s)))

theorem axisAt_setAxis_same (s : State) (n : Nat) (a : Axis) : axisAt (setAxis s n a) n = a := by rw [axisAt_setAxis, if_pos rfl]

theorem axisAt_setAxis_of_ne (s : State) {n m : Nat} (a : Axis) (h : m ≠ n) : axisAt (setAxis s n a) m = axisAt s m := by
  rw [axisAt_setAxis, if_neg h.symm]

/-- Of an axis written and a counter stepped, the counters of the block but that one stand. -/
theorem counter_bump_setAxis (s : State) (n b i j : Nat) (a : Axis) :
    counter (bump (setAxis s n a) b i) b j = counter s b j + (if i = j then 1 else 0) := by
  rw [counter_bump_block, counter_setAxis]

theorem exec_homingTimeout_of_far {s : State} {n : Fin 32} (hst : (axisAt s n).st = .homing) (ho : (axisAt s n).homeOut = false)
    (hf : softRange (motPar s n).sled * 11 * unitStep ≤ 10 * ((axisAt s n).homeFrom - (axisAt s n).p)) :
    exec (.homingTimeout n) s = .next (bump (setAxis s n (toUnknown (axisAt s n) 4)) 7 3) :=
  if_pos (by simp only [hst, ho, hf]; rfl)

/-- Settles O27: each of the two events writes its own axis and steps its own counter. -/
theorem axesLoseFindAndFollow : Obligations.AxesLoseFindAndFollow := by
  unfold Obligations.AxesLoseFindAndFollow
  refine ⟨fun s n => ⟨fun hst ho hf => ⟨_, exec_homingTimeout_of_far hst ho hf, ?_⟩, fun h => if_neg ?_⟩,
    fun s n => ⟨fun hen hst hhold hrun hpos hcell => ⟨_, if_pos ?_, ?_⟩, fun h => if_neg ?_⟩⟩
  · simp only [axisAt_bump, axisAt_setAxis_same, counter_bump_setAxis]
    exact ⟨rfl, rfl, rfl, rfl, rfl, fun m hm => axisAt_setAxis_of_ne _ _ hm, rfl, fun i _ hi => by simp [hi.symm],
      onlyIn_bump_setAxis ..⟩
  · rcases h with h | h | h
    · simp [h]
    · simp [h]
    · simp [decide_eq_false h]
  · obtain ⟨k, hk, hc⟩ := hcell
    simp [hen, hst, hhold, hrun, hpos, hk, hc]
  · simp only [axisAt_bump, axisAt_setAxis_same, counter_bump_setAxis]
    exact ⟨rfl, rfl, fun i _ hi => by simp [hi.symm], fun m hm => axisAt_setAxis_of_ne _ _ hm,
      onlyIn_bump_setAxis ..⟩
  · rcases h with h | h | h
    · simp [h]
    · simp [h]
    · simp [Nat.not_le.2 h]

/-! ### Lane retraining -/

theorem getLsbD_laneBit (lane i : Fin 5) : (BitVec.ofNat 5 (2 ^ lane.val)).getLsbD i = (i.val == lane.val) := by
  revert lane i
  decide

/-- The lane may be taken out for training now. -/
def laneFree (s : State) (b : Nat) (lane : Fin 5) : Bool :=
  if lane.val = 0 ∨ lane.val = 3 then (bayAt s b).mode == 5 && !(bayAt s b).holdEntry
  else if lane.val = 4 then !writingBay s b else !readingBay s b

/-- The port with one lane's retrain bit set. -/
def retrainLane (p : Port) (lane : Fin 5) : Port := { p with retrain := p.retrain ||| BitVec.ofNat 5 (2 ^ lane.val) }

theorem exec_laneRetrain (s : State) (b : Fin 8) (lane : Fin 5) :
    exec (.laneRetrain b lane) s =
      if !runs s b || !laneFree s b lane || !(portAt s b).lanes.getLsbD lane ||
        decide (regBits s .calLaneCfg 0 15 8 ≤ ((portAt s b).eyes.getD lane 0).toNat) then .next s
      else .next (bump (bump (setPort s b (retrainLane (portAt s b) lane)) 3 5) 15 7) := by
  have heye : (match (portAt s b).eyes[lane.val]? with | some e => e.toNat | none => 0) = ((portAt s b).eyes.getD lane 0).toNat := by
    rw [List.getD_eq_getElem?_getD]
    cases (portAt s b).eyes[lane.val]? <;> rfl
  rw [← heye]
  rfl

/-- Settles O35: the event's own guard is the statement's, and it writes one port's retrain bit and two counters. -/
theorem lanesRetrain : Obligations.LanesRetrain := by
  unfold Obligations.LanesRetrain
  intro s b lane p free weak
  have hfree : laneFree s b lane = true ↔ free := by
    simp only [laneFree, free]
    split
    · simp
    · split <;> simp
  have hweak : weak ↔ ¬ regBits s .calLaneCfg 0 15 8 ≤ (p.eyes.getD lane 0).toNat := Nat.not_le.symm
  refine ⟨fun hr hl hw hf => ⟨bump (bump (setPort s b (retrainLane p lane)) 3 5) 15 7, ?_, fun i hi => ?_, ?_, fun n hn => ?_, ?_, ?_, ?_⟩,
    fun h => ?_⟩
  · refine (exec_laneRetrain ..).trans (if_neg ?_)
    rw [hr, hfree.2 hf, show (portAt s b).lanes.getLsbD lane = true from hl, decide_eq_false (hweak.1 hw)]
    decide
  · rw [portAt_bump, portAt_bump, portAt_setPort, if_pos rfl]
    exact (BitVec.getLsbD_or ..).trans (congrArg _ (getLsbD_laneBit lane ⟨i, hi⟩))
  · rw [portAt_bump, portAt_bump, portAt_setPort, if_pos rfl]
    rfl
  · rw [portAt_bump, portAt_bump, portAt_setPort, if_neg hn.symm]
  · simp
  · simp
  · exact onlyIn_of_follows (follows_bump (by decide) (follows_bump (by decide) (follows_setPort (by decide) (follows_refl s))))
  · refine (exec_laneRetrain ..).trans (if_pos ?_)
    rcases h with h | h | h | h
    · simp [h]
    · rw [show (portAt s b).lanes.getLsbD lane = false from h]
      simp
    · rw [decide_eq_true (Nat.not_lt.1 h), Bool.or_true]
    · simp [show laneFree s b lane = false from Bool.eq_false_iff.2 (fun hf => h (hfree.1 hf))]

end Sys2Proof.Machine
end

section
/-! PROOFS. What ending grants, stopping a bay and losing its surfaces leave of every loop cell, axis, bay, port and counter (R15, R20). -/

namespace Sys2Proof.Machine

/-- A cell but for its queue and the result it shows. -/
def CellKept (c d : Cell) : Prop := ∃ q r, d = { c with queue := q, result := r }

/-- An axis but for its queue and the result it shows. -/
def AxisKept (a b : Axis) : Prop := ∃ q r, b = { a with queue := q, result := r }

/-- A bay but for grants that ended. -/
def BayKept (x y : Bay) : Prop := ∃ p : Nat × Nat → Bool, y = { x with grants := x.grants.filter p }

/-- A port but for the enables of its spots and emitters. -/
def PortKept (p q : Port) : Prop := ∃ a b, q = { p with spotEn := a, readEn := b }

theorem cellKept_refl (c : Cell) : CellKept c c := ⟨c.queue, c.result, rfl⟩
theorem axisKept_refl (a : Axis) : AxisKept a a := ⟨a.queue, a.result, rfl⟩
theorem portKept_refl (p : Port) : PortKept p p := ⟨p.spotEn, p.readEn, rfl⟩
theorem bayKept_of_filter (x : Bay) (p : Nat × Nat → Bool) : BayKept x { x with grants := x.grants.filter p } := ⟨p, rfl⟩
theorem bayKept_refl (x : Bay) : BayKept x x := by
  refine ⟨fun _ => true, ?_⟩
  rw [List.filter_true]

theorem cellKept_trans {c d e : Cell} : CellKept c d → CellKept d e → CellKept c e := by
  rintro ⟨_, _, rfl⟩ ⟨q, r, rfl⟩
  exact ⟨q, r, rfl⟩

theorem axisKept_trans {a b c : Axis} : AxisKept a b → AxisKept b c → AxisKept a c := by
  rintro ⟨_, _, rfl⟩ ⟨q, r, rfl⟩
  exact ⟨q, r, rfl⟩

theorem portKept_trans {p q r : Port} : PortKept p q → PortKept q r → PortKept p r := by
  rintro ⟨_, _, rfl⟩ ⟨a, b, rfl⟩
  exact ⟨a, b, rfl⟩

theorem bayKept_trans {x y z : Bay} : BayKept x y → BayKept y z → BayKept x z := by
  rintro ⟨p, rfl⟩ ⟨q, rfl⟩
  refine ⟨fun g => q g && p g, ?_⟩
  rw [← List.filter_filter]

/-- What the ends of grants and the loss of surfaces leave: every unit, all of a cell and an axis but what waits in its queue, all of a bay but
its grants, all of a port but its enables, and every counter but those of blocks 9 and 10. -/
structure Quiet (s t : State) : Prop where
  cells : ∀ n, CellKept (cellAt s n) (cellAt t n)
  axes : ∀ n, AxisKept (axisAt s n) (axisAt t n)
  units : t.units = s.units
  bays : ∀ n, BayKept (bayAt s n) (bayAt t n)
  ports : ∀ n, PortKept (portAt s n) (portAt t n)
  cnt : ∀ b i, i < 32 → b ≠ 9 → b ≠ 10 → counter t b i = counter s b i

theorem quiet_refl (s : State) : Quiet s s :=
  ⟨fun _ => cellKept_refl _, fun _ => axisKept_refl _, rfl, fun _ => bayKept_refl _, fun _ => portKept_refl _, fun _ _ _ _ _ => rfl⟩

theorem quiet_trans {s t u : State} (h : Quiet s t) (g : Quiet t u) : Quiet s u :=
  ⟨fun n => cellKept_trans (h.cells n) (g.cells n), fun n => axisKept_trans (h.axes n) (g.axes n), g.units.trans h.units,
    fun n => bayKept_trans (h.bays n) (g.bays n), fun n => portKept_trans (h.ports n) (g.ports n),
    fun b i hi h9 h10 => (g.cnt b i hi h9 h10).trans (h.cnt b i hi h9 h10)⟩

/-- An operation that writes none of these parts is quiet. -/
theorem quiet_of_onlyIn {parts : List Part} {s t : State} (hp : ∀ p ∈ ([.cells, .axes, .units, .bays, .ports, .cnt] : List Part), p ∉ parts)
    (h : OnlyIn parts s t) : Quiet s t := by
  obtain ⟨-, hf⟩ := h
  have hc : t.cells = s.cells := hf .cells (hp _ (by decide))
  have ha : t.axes = s.axes := hf .axes (hp _ (by decide))
  have hu : t.units = s.units := hf .units (hp _ (by decide))
  have hb : t.bays = s.bays := hf .bays (hp _ (by decide))
  have hq : t.ports = s.ports := hf .ports (hp _ (by decide))
  have hn : t.cnt = s.cnt := hf .cnt (hp _ (by decide))
  refine ⟨fun n => ?_, fun n => ?_, hu, fun n => ?_, fun n => ?_, fun b i _ _ _ => by rw [counter, hn]; rfl⟩
  · rw [show cellAt t n = cellAt s n from congrArg (fun x => getD x ({} : Cell) n) hc]
    exact cellKept_refl _
  · rw [show axisAt t n = axisAt s n from congrArg (fun x => getD x ({} : Axis) n) ha]
    exact axisKept_refl _
  · rw [show bayAt t n = bayAt s n from congrArg (fun x => getD x ({} : Bay) n) hb]
    exact bayKept_refl _
  · rw [show portAt t n = portAt s n from congrArg (fun x => getD x ({} : Port) n) hq]
    exact portKept_refl _

/-- The parts that a quiet operation writes as it likes. -/
def quietParts : List Part := [.free, .regs, .splitLatch, .hostRead, .tck, .pwr, .bfes, .spn, .out, .bus, .rdc, .wrc, .cal, .qre, .hiu, .cmd, .mem,
  .kst, .cph, .bdy, .bnd]

/-- The same of an operation known by what it follows. -/
theorem quiet_of_follows {s t : State} (h : Follows (fun p => quietParts.contains p) s t) : Quiet s t :=
  quiet_of_onlyIn (parts := quietParts) (by decide) (onlyIn_of_follows h)

/-- A fold of quiet steps is quiet. -/
theorem quiet_foldl {α : Type} {f : State → α → State} (h : ∀ s a, Quiet s (f s a)) (l : List α) (s : State) : Quiet s (l.foldl f s) := by
  induction l generalizing s with
  | nil => exact quiet_refl s
  | cons a l ih => exact quiet_trans (h s a) (ih _)

theorem quiet_ite {s a b : State} {p : Prop} [Decidable p] (h : Quiet s a) (g : Quiet s b) : Quiet s (if p then a else b) := by
  split
  · exact h
  · exact g

/-! ### The primitive writes -/

theorem quiet_setCell {s : State} {n : Nat} {c : Cell} (h : CellKept (cellAt s n) c) : Quiet s (setCell s n c) := by
  refine ⟨fun m => ?_, fun _ => axisKept_refl _, rfl, fun _ => bayKept_refl _, fun _ => portKept_refl _, fun _ _ _ _ _ => rfl⟩
  rw [cellAt_setCell]
  split
  · next e => exact e ▸ h
  · exact cellKept_refl _

theorem quiet_setAxis {s : State} {n : Nat} {a : Axis} (h : AxisKept (axisAt s n) a) : Quiet s (setAxis s n a) := by
  refine ⟨fun _ => cellKept_refl _, fun m => ?_, rfl, fun _ => bayKept_refl _, fun _ => portKept_refl _, fun _ _ _ _ _ => rfl⟩
  rw [axisAt_setAxis]
  split
  · next e => exact e ▸ h
  · exact axisKept_refl _

theorem quiet_setPort {s : State} {n : Nat} {p : Port} (h : PortKept (portAt s n) p) : Quiet s (setPort s n p) := by
  refine ⟨fun _ => cellKept_refl _, fun _ => axisKept_refl _, rfl, fun _ => bayKept_refl _, fun m => ?_, fun _ _ _ _ _ => rfl⟩
  rw [portAt_setPort]
  split
  · next e => exact e ▸ h
  · exact portKept_refl _

/-- Grants alone are no change of a bay that it notes. -/
theorem stampBay_grants (k : Nat) (x : Bay) (g : List (Nat × Nat)) : stampBay k x { x with grants := g } = { x with grants := g } :=
  if_pos ⟨rfl, rfl, rfl⟩

/-- Grants that end leave the rest of their bay, its last change included. -/
theorem quiet_endGrants (s : State) (b : Nat) (p : Nat × Nat → Bool) :
    Quiet s (setBay s b { bayAt s b with grants := (bayAt s b).grants.filter p }) := by
  refine ⟨fun _ => cellKept_refl _, fun _ => axisKept_refl _, rfl, fun m => ?_, fun _ => portKept_refl _, fun _ _ _ _ _ => rfl⟩
  rw [bayAt_setBay, stampBay_grants]
  by_cases e : b = m
  · rw [if_pos e, e]
    exact bayKept_of_filter _ _
  · rw [if_neg e]
    exact bayKept_refl _

theorem quiet_bumpN (s : State) (b i n : Nat) (hb : b = 9 ∨ b = 10) (hi : i < 32) : Quiet s (bumpN s b i n) := by
  refine ⟨fun _ => cellKept_refl _, fun _ => axisKept_refl _, rfl, fun _ => bayKept_refl _, fun _ => portKept_refl _,
    fun c j hj h9 h10 => ?_⟩
  rw [counter_bumpN, if_neg (by omega)]

theorem quiet_bump (s : State) (b i : Nat) (hb : b = 9 ∨ b = 10) (hi : i < 32) : Quiet s (bump s b i) := by
  refine ⟨fun _ => cellKept_refl _, fun _ => axisKept_refl _, rfl, fun _ => bayKept_refl _, fun _ => portKept_refl _,
    fun c j hj h9 h10 => ?_⟩
  rw [counter_bump, if_neg (by omega)]

theorem quiet_event (s : State) (c k v b o : Nat) (d : List Nat) : Quiet s (event s c k v b o d) :=
  quiet_of_follows (follows_event (by decide) (follows_refl s))

theorem quiet_send (s : State) (m : SpineMsg) : Quiet s (send s m) := quiet_of_follows (follows_send (by decide) (follows_refl s))

theorem quiet_setQuire (s : State) (q : Quire) : Quiet s (setQuire s q) :=
  quiet_of_follows (follows_setQuire (by decide) (follows_refl s))

theorem quiet_vendorEvent (s : State) (i : Nat) : Quiet s (vendorEvent s i) :=
  quiet_of_follows (follows_vendorEvent (by decide) (follows_refl s))

/-! ### Orders, runs and grants -/

theorem quiet_issue (s : State) (o : Obj) (op arg e : Nat) : Quiet s (issue s o op arg e) :=
  quiet_of_follows (follows_issue (by decide) (follows_refl s))

theorem quiet_cellResult (s : State) (n r : Nat) : Quiet s (cellResult s n r) := quiet_setCell ⟨(cellAt s n).queue, r, rfl⟩

theorem quiet_axisResult (s : State) (n r : Nat) : Quiet s (axisResult s n r) := quiet_setAxis ⟨(axisAt s n).queue, r, rfl⟩

theorem quiet_queueCell (s : State) (n op arg : Nat) (bad : Bool) (at_ : Nat) : Quiet s (queueCell s n op arg bad at_) := by
  refine quiet_ite (quiet_cellResult ..) (quiet_ite (quiet_cellResult ..) ?_)
  have hset := quiet_setCell (s := s) (n := n) (c := { cellAt s n with queue := enqueue (cellAt s n).queue { op := op, arg := arg, effect := effectOf s at_ }, result := 0 }) ⟨_, _, rfl⟩
  dsimp only
  split
  · exact quiet_trans hset (quiet_issue ..)
  · exact hset

theorem quiet_queueAxis (s : State) (n op arg at_ : Nat) : Quiet s (queueAxis s n op arg at_) := by
  refine quiet_ite (quiet_axisResult ..) (quiet_ite (quiet_axisResult ..) ?_)
  have hset := quiet_setAxis (s := s) (n := n) (a := { axisAt s n with queue := enqueue (axisAt s n).queue { op := op, arg := arg, effect := effectOf s at_ }, result := 0 }) ⟨_, _, rfl⟩
  dsimp only
  split
  · exact quiet_trans hset (quiet_issue ..)
  · exact hset

theorem quiet_orderOffset (s : State) (opu l arg : Nat) : Quiet s (orderOffset s opu l arg) := by
  unfold orderOffset
  split
  · exact quiet_queueCell ..
  · exact quiet_refl s

theorem quiet_afterRun (s : State) (opu layer : Nat) (k : CalKind) : Quiet s (afterRun s opu layer k) := by
  refine quiet_ite (quiet_refl s) ?_
  cases k with
  | focus => exact quiet_orderOffset ..
  | tilt => exact quiet_orderOffset ..
  | corrector => exact quiet_queueAxis ..
  | bfeOffsets => exact quiet_ite (quiet_refl s) (quiet_setPort ⟨_, _, rfl⟩)
  | opc => exact quiet_refl s
  | equaliser => exact quiet_refl s

theorem quiet_voidRun (s : State) (opu : Nat) : Quiet s (voidRun s opu) :=
  quiet_trans (quiet_foldl (fun s (j : CalJob) => quiet_afterRun s opu j.layer j.kind) _ s)
    (quiet_of_follows (upd_cal (by decide) (follows_refl _)))

theorem quiet_cutRun (s : State) (m : Nat) (b : Bool) : Quiet s (cutRun s m b) :=
  quiet_of_follows (follows_cutRun (by decide) (follows_refl s))

theorem quiet_setChan (s : State) (n : Nat) (c : Chan) : Quiet s (setChan s n c) :=
  quiet_of_follows (follows_setChan (by decide) (follows_refl s))

theorem quiet_setCal (s : State) (o l : Nat) (r : CalRec) : Quiet s (setCal s o l r) :=
  quiet_of_follows (follows_setCal (by decide) (follows_refl s))

theorem quiet_idleCells (s : State) (opu : Nat) : Quiet s (idleCells s opu) := by
  refine quiet_foldl (fun s spot => ?_) _ s
  dsimp only
  split
  · exact quiet_refl s
  · refine quiet_ite (quiet_refl s) (quiet_trans ?_ (quiet_setChan ..))
    refine quiet_trans (quiet_ite (quiet_refl s) (quiet_setCal ..)) (quiet_setPort ⟨_, _, rfl⟩)

/-- The grants of an OPU end first; the rest is quiet. -/
theorem quiet_revokeGrants_ended (s : State) (opu : Nat) :
    Quiet (setBay s (opu / 2) { bayAt s (opu / 2) with grants := (bayAt s (opu / 2)).grants.filter (fun g => g.1 ≠ opu) })
      (revokeGrants s opu) := by
  refine quiet_trans ?_ (quiet_voidRun ..)
  refine quiet_trans ?_ (quiet_of_follows (upd_rdc (by decide) (follows_refl _)))
  exact quiet_ite (quiet_cutRun ..) (quiet_idleCells ..)

theorem quiet_revokeGrants (s : State) (opu : Nat) : Quiet s (revokeGrants s opu) :=
  quiet_trans (quiet_endGrants s (opu / 2) _) (quiet_revokeGrants_ended s opu)

theorem grants_of_bayKept {x y : Bay} (h : BayKept x y) : ∀ g ∈ y.grants, g ∈ x.grants := by
  obtain ⟨p, rfl⟩ := h
  exact fun g hg => (List.mem_filter.1 hg).1

/-- No grant of the OPU is left. -/
theorem revokeGrants_ends (s : State) (opu : Nat) : ∀ g ∈ (bayAt (revokeGrants s opu) (opu / 2)).grants, g.1 ≠ opu := by
  intro g hg
  have h := grants_of_bayKept ((quiet_revokeGrants_ended s opu).bays (opu / 2)) g hg
  rw [bayAt_setBay, stampBay_grants, if_pos rfl] at h
  simpa using (List.mem_filter.1 h).2

/-- No grant of either OPU of the bay is left. -/
theorem revokeBay_ends (s : State) (b : Nat) : ∀ g ∈ (bayAt (revokeBay s b) b).grants, g.1 ≠ 2 * b ∧ g.1 ≠ 2 * b + 1 := by
  intro g hg
  have h0 := revokeGrants_ends s (2 * b) g
  have h1 := revokeGrants_ends (revokeGrants s (2 * b)) (2 * b + 1) g
  rw [show 2 * b / 2 = b by omega] at h0
  rw [show (2 * b + 1) / 2 = b by omega] at h1
  exact ⟨h0 (grants_of_bayKept ((quiet_revokeGrants ..).bays b) g hg), h1 hg⟩

theorem quiet_revokeBay (s : State) (b : Nat) : Quiet s (revokeBay s b) :=
  quiet_trans (quiet_revokeGrants ..) (quiet_revokeGrants ..)

theorem quiet_endRun (s : State) (opu : Nat) : Quiet s (endRun s opu) := by
  unfold endRun
  extract_lets o
  split
  · exact quiet_refl s
  · next r _ =>
    refine quiet_trans (quiet_endGrants s (opu / 2) (fun g => g ≠ (opu, r.act))) (quiet_trans ?_ (quiet_idleCells ..))
    exact quiet_of_follows (upd_wrc (by decide) (follows_setOpu (by decide) (follows_refl _)))

theorem quiet_endRunsOf (s : State) (n : Nat) : Quiet s (endRunsOf s n) := by
  refine quiet_foldl (fun s m => ?_) _ s
  exact quiet_ite (quiet_endRun ..) (quiet_refl _)

/-! ### Quires and surfaces -/

theorem of_ite {R : State → State → Prop} {s a b : State} {p : Prop} [Decidable p] (h : R s a) (g : R s b) : R s (if p then a else b) := by
  split
  · exact h
  · exact g

/-- A relation of two states that closing and abandoning quires keeps, as ends of runs, counts of blocks 9 and 10 other than of verdicts, writes of the
quire engine that leave its loss report and the quire in rebuild, and writes of the parts named do. -/
structure Closing (parts : List Part) (R : State → State → Prop) : Prop where
  refl : ∀ s, R s s
  trans : ∀ {s t u}, R s t → R t u → R s u
  writes : ∀ {s t}, Follows (fun p => parts.contains p) s t → R s t
  qre : ∀ (s : State) (x : Qre), x.losses = s.qre.losses → x.rebuilding = s.qre.rebuilding → R s { s with qre := x }
  count : ∀ s b i n, (b = 9 ∧ 4 ≤ i ∨ b = 10 ∧ i < 11) → i < 32 → R s (bumpN s b i n)
  run : ∀ s m, R s (endRun s m)
  surfW : ∀ s m w, R s (setSurfW s m w)
  send : ∀ s m, R s (send s m)
  vendorEvent : ∀ s i, R s (vendorEvent s i)
  needs : ∀ p ∈ ([.free, .hiu, .cph, .bdy] : List Part), parts.contains p = true

namespace Closing

variable {parts : List Part} {R : State → State → Prop} (hR : Closing parts R)
include hR

theorem needs' {l : List Part} (h : ∀ p ∈ l, p ∈ ([.free, .hiu, .cph, .bdy] : List Part)) :
    ∀ p ∈ l, (fun p => parts.contains p) p = true := fun p hp => hR.needs p (h p hp)

theorem bump (s : State) (b i : Nat) (hb : b = 9 ∧ 4 ≤ i ∨ b = 10 ∧ i < 11) (hi : i < 32) : R s (Machine.bump s b i) := hR.count s b i 1 hb hi

theorem foldl {α : Type} {f : State → α → State} (h : ∀ s a, R s (f s a)) (l : List α) (s : State) : R s (l.foldl f s) := by
  induction l generalizing s with
  | nil => exact hR.refl s
  | cons a l ih => exact hR.trans (h s a) (ih _)

theorem event (s : State) (c k v b o : Nat) (d : List Nat) : R s (Machine.event s c k v b o d) :=
  hR.writes (follows_event (hR.needs' (by decide)) (follows_refl s))

theorem setQuire (s : State) (q : Quire) : R s (Machine.setQuire s q) := hR.qre _ _ rfl rfl

theorem unplaceRebuilt (s : State) (n : Nat) : R s (Machine.unplaceRebuilt s n) := by
  refine hR.foldl (fun s a => ?_) _ s
  refine hR.trans ?_ (hR.qre _ _ rfl rfl)
  refine hR.trans (hR.qre s _ rfl rfl : R s (moveBodies s n a.tleaf a.source a.sleaf)) ?_
  split
  · exact hR.setQuire ..
  · exact hR.refl _

theorem refill (s : State) (q : Quire) : R s (Machine.refill s q) := hR.qre _ _ rfl rfl

theorem setSurf (s : State) (m : Nat) (x : Surf) : R s (Machine.setSurf s m x) := hR.qre _ _ rfl rfl

theorem queueRebuild (s : State) (n : Nat) : R s (Machine.queueRebuild s n) := of_ite (hR.refl s) (hR.qre _ _ rfl rfl)

theorem openQuire {s t : State} {kind nsid lba zone n : Nat} (h : Machine.openQuire s kind nsid lba zone = some (t, n)) : R s t := by
  unfold Machine.openQuire at h
  split at h
  · exact absurd h (by simp)
  · obtain ⟨rfl, -⟩ := Prod.mk.inj (Option.some.inj h)
    exact hR.qre _ _ rfl rfl

theorem countEvent (s : State) (b i v x o : Nat) (d : List Nat) (hb : b = 9 ∧ 4 ≤ i ∨ b = 10 ∧ i < 11) (hi : i < 32) :
    R s (Machine.countEvent s b i v x o d) := hR.trans (hR.bump s b i hb hi) (hR.event ..)

theorem endRunsOf (s : State) (n : Nat) : R s (Machine.endRunsOf s n) := by
  refine hR.foldl (fun s m => ?_) _ s
  exact of_ite (hR.run ..) (hR.refl _)

theorem abandonQuire (s : State) (n : Nat) : R s (Machine.abandonQuire s n) := by
  unfold Machine.abandonQuire
  split
  · exact hR.refl s
  · refine of_ite (hR.refl s) ?_
    dsimp only
    refine hR.trans ?_ (hR.unplaceRebuilt ..)
    refine hR.trans ?_ (hR.refill ..)
    refine hR.trans ?_ (hR.countEvent _ _ _ _ _ _ _ (by decide) (by decide))
    refine hR.trans ?_ (hR.endRunsOf ..)
    refine hR.trans ?_ (hR.count _ _ _ _ (by decide) (by decide))
    refine hR.trans ?_ (hR.setQuire ..)
    exact of_ite (hR.qre _ _ rfl rfl) (hR.refl s)

theorem sendQuire (s : State) (n : Nat) : R s (Machine.sendQuire s n) := by
  unfold Machine.sendQuire
  split
  · exact hR.refl s
  · exact hR.send ..

theorem noteSurface (s : State) (m : Nat) : R s (Machine.noteSurface s m) := of_ite (hR.send ..) (hR.refl s)

theorem placeLeaf (s : State) (q : Quire) (i m k : Nat) : R s (Machine.placeLeaf s q i m k).1 := by
  have hf : R s (takeFrame s m (q.kind == 3)).1 := by
    unfold takeFrame
    split
    · exact hR.qre _ _ rfl rfl
    · exact hR.qre _ _ rfl rfl
  unfold Machine.placeLeaf
  split
  · exact hR.trans hf (hR.send ..)
  · exact hR.send ..

theorem spillLeaf (s : State) (n i : Nat) : R s (Machine.spillLeaf s n i) := by
  unfold Machine.spillLeaf
  split
  · exact hR.refl s
  · split
    · exact hR.abandonQuire ..
    · refine hR.trans ?_ (hR.sendQuire ..)
      refine hR.trans ?_ (hR.bump _ _ _ (by decide) (by decide))
      exact hR.trans (hR.placeLeaf ..) (hR.setQuire ..)

theorem abandonLeaf (s : State) (n i : Nat) (c : Bool) : R s (Machine.abandonLeaf s n i c) := by
  unfold Machine.abandonLeaf
  split
  · exact hR.refl s
  · refine hR.trans ?_ (of_ite (hR.spillLeaf ..) (hR.send ..))
    refine hR.trans ?_ (of_ite (hR.run ..) (hR.refl _))
    refine hR.trans (hR.setQuire ..) (of_ite (hR.refl _) ?_)
    refine hR.trans (of_ite ?_ (hR.refl _)) (hR.bump _ _ _ (by split <;> decide) (by split <;> decide))
    exact hR.surfW ..

theorem surfaceFailed (s : State) (m : Nat) : R s (Machine.surfaceFailed s m) := by
  refine hR.trans ?_ (hR.noteSurface ..)
  refine hR.trans ?_ (hR.foldl hR.queueRebuild _ _)
  refine hR.foldl (fun s e => ?_) _ s
  exact of_ite (hR.abandonQuire s e.1) (hR.abandonLeaf s e.1 e.2 false)

theorem closeQuire (s : State) (n cause : Nat) : R s (Machine.closeQuire s n cause) := by
  unfold Machine.closeQuire
  split
  · exact hR.refl s
  · refine of_ite (hR.refl s) ?_
    dsimp only
    refine hR.trans ?_ (hR.sendQuire ..)
    refine hR.trans ?_ (hR.foldl (fun s i => ?_) _ _)
    · refine hR.trans ?_ (hR.setQuire ..)
      refine hR.trans ?_ (hR.count _ _ _ _ (by decide) (by decide))
      exact of_ite (hR.refl s) (hR.bump _ _ _ (by decide) (by decide))
    · split
      · exact hR.refl s
      · refine of_ite (hR.refl s) (of_ite ?_ (hR.spillLeaf ..))
        exact hR.trans (hR.placeLeaf ..) (hR.setQuire ..)

theorem closeDirectory (s : State) (cause : Nat) : R s (Machine.closeDirectory s cause) := by
  unfold Machine.closeDirectory
  dsimp only
  refine of_ite (hR.refl s) ?_
  split
  · exact hR.refl s
  · next t n heq =>
    have ht : R s t := hR.openQuire heq
    split
    · exact hR.refl s
    · refine hR.trans ht (hR.trans ?_ (hR.closeQuire ..))
      refine hR.trans ?_ (hR.qre _ _ rfl rfl)
      exact hR.trans (hR.writes (follows_takeSeq (hR.needs' (by decide)) (follows_refl _))) (hR.setQuire ..)

theorem closeVolume (s : State) : R s (Machine.closeVolume s) := by
  refine hR.trans (hR.writes (t := drawn s) (follows_drawn (hR.needs' (by decide)) (follows_refl s))) ?_
  refine hR.trans ?_ (hR.vendorEvent ..)
  refine hR.trans ?_ (hR.event ..)
  refine hR.trans ?_ (hR.qre _ _ rfl rfl)
  exact hR.trans (hR.closeDirectory ..) (hR.writes (upd_hiu (hR.needs _ (by decide)) (follows_refl _)))

theorem checkVolume (s : State) : R s (Machine.checkVolume s) := of_ite (hR.trans (hR.closeVolume s) (hR.send ..)) (hR.refl s)

theorem sealSurface (s : State) (m cause : Nat) : R s (Machine.sealSurface s m cause) := by
  refine of_ite (hR.refl s) (hR.trans ?_ (hR.checkVolume _))
  refine hR.trans ?_ (hR.noteSurface ..)
  exact hR.trans (hR.surfW ..) (hR.vendorEvent ..)

theorem surfaceLost (s : State) (m : Nat) : R s (Machine.surfaceLost s m) := by
  refine of_ite (hR.refl s) ?_
  refine hR.trans ?_ (hR.checkVolume _)
  refine hR.trans ?_ (hR.run ..)
  refine hR.trans ?_ (hR.surfaceFailed ..)
  refine hR.trans ?_ (hR.vendorEvent ..)
  exact hR.trans (hR.setSurf ..) (hR.event ..)

end Closing

theorem closing_quiet : Closing quietParts Quiet where
  refl := quiet_refl
  trans := quiet_trans
  writes := quiet_of_follows
  qre _ _ _ _ := quiet_of_follows (upd_qre (by decide) (follows_refl _))
  count s b i n hb hi := quiet_bumpN s b i n (hb.imp And.left And.left) hi
  run := quiet_endRun
  surfW s m w := quiet_of_follows (follows_setSurfW (by decide) (follows_refl s))
  send s m := quiet_of_follows (follows_send (by decide) (follows_refl s))
  vendorEvent s i := quiet_of_follows (follows_vendorEvent (by decide) (follows_refl s))
  needs := by decide

theorem quiet_abandonLeaf (s : State) (n i : Nat) (c : Bool) : Quiet s (abandonLeaf s n i c) := closing_quiet.abandonLeaf s n i c

theorem quiet_checkVolume (s : State) : Quiet s (checkVolume s) := closing_quiet.checkVolume s

theorem quiet_surfaceLost (s : State) (m : Nat) : Quiet s (surfaceLost s m) := closing_quiet.surfaceLost s m

theorem quiet_bayLost (s : State) (b : Nat) : Quiet s (bayLost s b) := quiet_trans (quiet_surfaceLost ..) (quiet_surfaceLost ..)

end Sys2Proof.Machine
end

section
/-! PROOFS. R49, R149, R165, R168, R181, R401: the safe stop. R159 to R168: lock, loss, overspeed, standstill and the bus groups of the spindles. -/

namespace Sys2Proof.Machine

/-! ### The safe stop -/

/-- A write to each cell of a list leaves each of them as the write makes a cell. -/
theorem cellAt_foldl_setCell {P : Cell → Prop} {f : Nat → Cell → Cell} (h : ∀ n c, P (f n c)) {l : List Nat} {s : State} {n : Nat}
    (hn : n ∈ l ∨ P (cellAt s n)) : P (cellAt (l.foldl (fun s n => setCell s n (f n (cellAt s n))) s) n) := by
  induction l generalizing s with
  | nil => exact hn.resolve_left (List.not_mem_nil)
  | cons a l ih =>
    refine ih ?_
    rw [cellAt_setCell]
    by_cases e : a = n
    · exact .inr (by rw [if_pos e]; exact h a _)
    · rw [if_neg e]
      exact hn.imp (fun hm => (List.mem_cons.1 hm).resolve_left (fun x => e x.symm)) id

/-- The same of axes. -/
theorem axisAt_foldl_setAxis {P : Axis → Prop} {f : Axis → Axis} (h : ∀ a, P (f a)) {l : List Nat} {s : State} {n : Nat}
    (hn : n ∈ l ∨ P (axisAt s n)) : P (axisAt (l.foldl (fun s n => setAxis s n (f (axisAt s n))) s) n) := by
  induction l generalizing s with
  | nil => exact hn.resolve_left (List.not_mem_nil)
  | cons a l ih =>
    refine ih ?_
    rw [axisAt_setAxis]
    by_cases e : a = n
    · exact .inr (by rw [if_pos e]; exact h _)
    · rw [if_neg e]
      exact hn.imp (fun hm => (List.mem_cons.1 hm).resolve_left (fun x => e x.symm)) id

/-- The axis as a safe stop leaves it. -/
def axisStopped (a : Axis) : Axis := { hardStop a with hold := true, out := 0 }

theorem axisStopped_pending (a : Axis) : (axisStopped a).pending = none := by
  simp only [axisStopped, hardStop]
  cases a.st <;> dsimp only <;> split <;> rfl

/-- The unit as a safe stop leaves it. -/
def unitStopped (p : SpdPar) (coast : Bool) (u : Unit) : Unit :=
  { (if coast then (if u.st == .off || u.st == .fault then u else toCoast u) else toStopShort p u) with words := stopWords coast }

theorem unitStopped_short (p : SpdPar) (u : Unit) : (unitStopped p false u).st = .short := rfl

theorem unitStopped_coast (p : SpdPar) (u : Unit) :
    (unitStopped p true u).st = .coast ∨ (unitStopped p true u).st = .off ∨ (unitStopped p true u).st = .fault := by
  simp only [unitStopped, if_true]
  split
  · next h => exact .inr (by simpa using h)
  · exact .inl rfl

/-- The bay as a safe stop leaves it, its grants aside. -/
def bayStopped (coast : Bool) (y : Bay) : Bay :=
  { y with
    safeStop := true, stopFrame := true, coast := y.coast || coast, holdEntry := false, req := y.mode, enablePending := none, done := 0
    bringing := false }

/-- The cells of a bay are stopped. -/
def stopCells (s : State) (b : Nat) : State :=
  let own := (bayCells s b).filter (fun n => countedStop s (cellAt s n))
  forEach (bayCells s b) (fun s n => setCell s n (enterStopped (own.contains n) (cellAt s n))) s

/-- Then its spindle and its axes. -/
def stopDrives (s : State) (b : Nat) (coast : Bool) : State :=
  let s := stopCells s b
  forEach (bayAxes b) (fun s n => setAxis s n (axisStopped (axisAt s n))) (setUnit s b (unitStopped (spdPar s b) coast (unitAt s b)))

/-- Then the bay, and what is logged and told of it. -/
def stopNoted (s : State) (b : Nat) (coast : Bool) : State :=
  let y := bayAt s b
  let dropped := y.req != y.mode || y.enablePending.isSome
  let s := setBay s b (bayStopped coast y)
  let s := if dropped && !y.safeStop then countEvent s 2 1 1 b else s
  if runs s b && !y.safeStop then vendorEvent s 5 else s

theorem safeStop_eq (s : State) (b : Nat) (coast : Bool) : safeStop s b coast = revokeBay (stopNoted (stopDrives s b coast) b coast) b := rfl

theorem stopCells_spec (s : State) (b : Nat) :
    OnlyIn [.cells] s (stopCells s b) ∧
      ∀ n ∈ bayCells s b, (cellAt (stopCells s b) n).st = .parked ∧ (cellAt (stopCells s b) n).fault = true :=
  ⟨onlyIn_of_follows (follows_foldl (follows_refl s) (fun _ _ h => follows_setCell (by decide) h)),
    fun n hn => cellAt_foldl_setCell (P := fun c => c.st = .parked ∧ c.fault = true)
      (f := fun n c => enterStopped (((bayCells s b).filter (fun n => countedStop s (cellAt s n))).contains n) c)
      (fun _ _ => ⟨rfl, rfl⟩) (.inl hn)⟩

theorem stopDrives_units (s : State) (b : Nat) (coast : Bool) :
    (stopDrives s b coast).units =
      (setUnit (stopCells s b) b (unitStopped (spdPar (stopCells s b) b) coast (unitAt (stopCells s b) b))).units :=
  foldl_keeps State.units (f := fun s n => setAxis s n (axisStopped (axisAt s n))) (fun _ _ => rfl) _ _

theorem stopDrives_spec (s : State) (b : Nat) (coast : Bool) :
    OnlyIn [.cells, .units, .axes] s (stopDrives s b coast) ∧ (stopDrives s b coast).cells = (stopCells s b).cells ∧
      unitAt (stopDrives s b coast) b = unitStopped (spdPar (stopCells s b) b) coast (unitAt s b) ∧
      (∀ m, m ≠ b → unitAt (stopDrives s b coast) m = unitAt s m) ∧
      ∀ n ∈ bayAxes b, (axisAt (stopDrives s b coast) n).out = 0 ∧ (axisAt (stopDrives s b coast) n).hold = true ∧
        (axisAt (stopDrives s b coast) n).pending = none := by
  have hat (m : Nat) : unitAt (stopDrives s b coast) m = unitAt (setUnit (stopCells s b) b (unitStopped (spdPar (stopCells s b) b) coast (unitAt (stopCells s b) b))) m :=
    congrArg (fun x => getD x ({} : Unit) m) (stopDrives_units s b coast)
  have hsame (m : Nat) : unitAt (stopCells s b) m = unitAt s m :=
    congrArg (fun x => getD x ({} : Unit) m) ((stopCells_spec s b).1.2 .units (by decide))
  refine ⟨?_, foldl_keeps State.cells (f := fun s n => setAxis s n (axisStopped (axisAt s n))) (fun _ _ => rfl) _ _,
    by rw [hat, unitAt_setUnit_same, hsame], fun m hm => by rw [hat, unitAt_setUnit_of_ne _ _ hm, hsame], fun n hn => ?_⟩
  · refine onlyIn_of_follows (follows_foldl (follows_setUnit (by decide) ?_) (fun _ _ h => follows_setAxis (by decide) h))
    exact follows_foldl (follows_refl s) (fun _ _ h => follows_setCell (by decide) h)
  · exact axisAt_foldl_setAxis (P := fun a => a.out = 0 ∧ a.hold = true ∧ a.pending = none)
      (fun a => ⟨rfl, rfl, axisStopped_pending a⟩) (.inl hn)

/-- The bay that a safe stop notes is the stopped one, with the stitch of the change. -/
theorem stopNoted_spec (s : State) (b : Nat) (coast : Bool) :
    OnlyIn [.bays, .cnt, .bdy, .out, .hiu] s (stopNoted s b coast) ∧
      (∀ m, bayAt (stopNoted s b coast) m = if b = m then stampBay s.tck.count (bayAt s b) (bayStopped coast (bayAt s b)) else bayAt s m) ∧
      (∀ c i, i < 32 → c ≠ 2 → counter (stopNoted s b coast) c i = counter s c i) := by
  have hcnt (u : State) (c i : Nat) (hi : i < 32) (hc : c ≠ 2) : counter (countEvent u 2 1 1 b) c i = counter u c i := by
    rw [counter_countEvent, if_neg (by omega)]
  have hvb (u : State) (m : Nat) : bayAt (vendorEvent u 5) m = bayAt u m := by simp [bayAt]
  have hvc (u : State) (c i : Nat) : counter (vendorEvent u 5) c i = counter u c i := by simp [counter]
  refine ⟨onlyIn_of_follows ?_, fun m => ?_, fun c i hi hc => ?_⟩
  · refine follows_ite (follows_vendorEvent (by decide) ?_) ?_ <;>
      exact follows_ite (follows_countEvent (by decide) (follows_setBay (by decide) (follows_refl s))) (follows_setBay (by decide) (follows_refl s))
  · refine Eq.trans ?_ (bayAt_setBay (s := s) b m (bayStopped coast (bayAt s b)))
    simp only [stopNoted]
    split <;> split <;> simp [hvb]
  · simp only [stopNoted]
    split <;> split <;> simp [hvc, hcnt _ c i hi hc]

theorem stampBay_cases (k : Nat) (x y : Bay) : ∃ l, stampBay k x y = { y with lastChange := l } := by
  unfold stampBay
  split
  · exact ⟨y.lastChange, rfl⟩
  · exact ⟨k, rfl⟩

theorem cellKept_state {c d : Cell} : CellKept c d → d.st = c.st ∧ d.fault = c.fault := by
  rintro ⟨_, _, rfl⟩
  exact ⟨rfl, rfl⟩

theorem axisKept_output {a b : Axis} : AxisKept a b → b.out = a.out ∧ b.hold = a.hold ∧ b.pending = a.pending := by
  rintro ⟨_, _, rfl⟩
  exact ⟨rfl, rfl, rfl⟩

/-- Settles O13: each part is written once, and revoking the grants leaves it. -/
theorem safeStopOfABay : Obligations.SafeStopOfABay := by
  unfold Obligations.SafeStopOfABay
  intro s b coast hb t
  obtain ⟨hdf, hdc, hdu, -, hda⟩ := stopDrives_spec s b coast
  obtain ⟨hcf, hcc⟩ := stopCells_spec s b
  obtain ⟨hnf, hnb, -⟩ := stopNoted_spec (stopDrives s b coast) b coast
  have hq : Quiet (stopNoted (stopDrives s b coast) b coast) t := quiet_revokeBay _ b
  obtain ⟨p, hbay⟩ := hq.bays b
  obtain ⟨l, hst⟩ := stampBay_cases (stopDrives s b coast).tck.count (bayAt (stopDrives s b coast) b) (bayStopped coast (bayAt (stopDrives s b coast) b))
  rw [hnb, if_pos rfl, hst] at hbay
  have hcell (n : Nat) : cellAt (stopNoted (stopDrives s b coast) b coast) n = cellAt (stopCells s b) n :=
    congrArg (fun x => getD x ({} : Cell) n) ((hnf.2 .cells (by decide) : _ = _).trans hdc)
  have haxis (n : Nat) : axisAt (stopNoted (stopDrives s b coast) b coast) n = axisAt (stopDrives s b coast) n :=
    congrArg (fun x => getD x ({} : Axis) n) (hnf.2 .axes (by decide))
  have hunit : unitAt t b = unitStopped (spdPar (stopCells s b) b) coast (unitAt s b) :=
    (congrArg (fun x => getD x ({} : Unit) b) (hq.units.trans (hnf.2 .units (by decide)))).trans hdu
  have hall : OnlyIn [.cells, .units, .axes, .bays, .cnt, .bdy, .out, .hiu, .ports, .spn, .rdc, .wrc, .cal] s t :=
    onlyIn_of_follows (follows_safeStop (by decide) (follows_refl s))
  refine ⟨by rw [hbay]; rfl, by rw [hbay]; rfl, by rw [hbay]; rfl, by rw [hbay]; rfl, by rw [hbay]; rfl, by rw [hbay]; rfl,
    fun hc => by rw [hbay, hc]; exact Bool.or_true _, fun n hn => ?_, by rw [hunit]; rfl, fun hc => by rw [hunit, hc]; rfl,
    fun hc => by rw [hunit, hc]; exact unitStopped_coast .., fun n hn => ?_, revokeBay_ends _ b, hall.2 .regs (by decide),
    hall.2 .tck (by decide), hall.2 .bfes (by decide), hall.2 .kst (by decide)⟩
  · obtain ⟨hst, hfault⟩ := cellKept_state (hq.cells n)
    rw [hst, hfault, hcell]
    exact hcc n hn
  · obtain ⟨hout, hhold, hpend⟩ := axisKept_output (hq.axes n)
    rw [hout, hhold, hpend, haxis]
    exact hda n hn

/-! ### A bay stopped with its surfaces lost -/

theorem bayKept_stops {x y : Bay} : BayKept x y → y.safeStop = x.safeStop ∧ y.coast = x.coast := by
  rintro ⟨p, rfl⟩
  exact ⟨rfl, rfl⟩

/-- What stopping a bay leaves of its unit and itself, of the others, and of the counters. -/
structure Stopping (b : Nat) (coast : Bool) (s t : State) : Prop where
  unit : unitAt t b = unitAt s b ∨ ∃ p, unitAt t b = unitStopped p coast (unitAt s b)
  others : ∀ m, m ≠ b → unitAt t m = unitAt s m
  stopped : (bayAt t b).safeStop = true ∧ (coast = true → (bayAt t b).coast = true)
  bays : ∀ m, m ≠ b → BayKept (bayAt s m) (bayAt t m)
  ports : ∀ n, PortKept (portAt s n) (portAt t n)
  cnt : ∀ c i, i < 32 → c ≠ 2 → c ≠ 9 → c ≠ 10 → counter t c i = counter s c i

theorem unitAt_of_units {s t : State} (h : t.units = s.units) (m : Nat) : unitAt t m = unitAt s m :=
  congrArg (fun x => getD x ({} : Unit) m) h

theorem stopping_of_quiet {b : Nat} {coast : Bool} {s t u : State} (h : Stopping b coast s t) (g : Quiet t u) : Stopping b coast s u := by
  obtain ⟨hs, hc⟩ := bayKept_stops (g.bays b)
  refine ⟨?_, fun m hm => (unitAt_of_units g.units m).trans (h.others m hm), ?_, fun m hm => bayKept_trans (h.bays m hm) (g.bays m),
    fun n => portKept_trans (h.ports n) (g.ports n), fun c i hi h2 h9 h10 => (g.cnt c i hi h9 h10).trans (h.cnt c i hi h2 h9 h10)⟩
  · rw [unitAt_of_units g.units b]
    exact h.unit
  · rw [hs, hc]
    exact h.stopped

theorem stopping_safeStop (s : State) (b : Nat) (coast : Bool) : Stopping b coast s (safeStop s b coast) := by
  obtain ⟨hdf, -, hdu, hdo, -⟩ := stopDrives_spec s b coast
  obtain ⟨hnf, hnb, hnc⟩ := stopNoted_spec (stopDrives s b coast) b coast
  have hbay (m : Nat) : bayAt (stopDrives s b coast) m = bayAt s m := congrArg (fun x => getD x ({} : Bay) m) (hdf.2 .bays (by decide))
  refine stopping_of_quiet (t := stopNoted (stopDrives s b coast) b coast) 
    ⟨.inr ⟨spdPar (stopCells s b) b, ?_⟩, fun m hm => ?_, ?_, fun m hm => ?_, fun n => ?_, ?_⟩
    (quiet_revokeBay _ b)
  · exact (unitAt_of_units (hnf.2 .units (by decide)) b).trans hdu
  · exact (unitAt_of_units (hnf.2 .units (by decide)) m).trans (hdo m hm)
  · obtain ⟨l, hst⟩ := stampBay_cases (stopDrives s b coast).tck.count (bayAt (stopDrives s b coast) b)
      (bayStopped coast (bayAt (stopDrives s b coast) b))
    rw [hnb, if_pos rfl, hst]
    exact ⟨rfl, fun hc => by rw [hc]; exact Bool.or_true _⟩
  · rw [hnb, if_neg hm.symm, hbay]
    exact bayKept_refl _
  · rw [show portAt (stopNoted (stopDrives s b coast) b coast) n = portAt s n from
      congrArg (fun x => getD x ({} : Port) n) ((hnf.2 .ports (by decide) : _ = _).trans (hdf.2 .ports (by decide)))]
    exact portKept_refl _
  · exact fun c i hi h2 _ _ => (hnc c i hi h2).trans (congrArg (fun x => getD x 0 (c * 32 + i)) (hdf.2 .cnt (by decide)))

theorem stopping_stopBay (s : State) (b : Nat) (coast : Bool) : Stopping b coast s (stopBay s b coast) := by
  by_cases h : (bayAt s b).safeStop = true ∧ ((!coast) = true ∨ (bayAt s b).coast = true)
  · rw [stopBay, if_pos h]
    exact ⟨.inl rfl, fun _ _ => rfl, ⟨h.1, fun hc => h.2.resolve_left (by simp [hc])⟩, fun _ _ => bayKept_refl _, fun _ => portKept_refl _,
      fun _ _ _ _ _ _ => rfl⟩
  · rw [stopBay, if_neg h]
    exact stopping_of_quiet (stopping_safeStop s b coast) (quiet_bayLost _ b)

/-! ### The bus groups -/

/-- The state in which a trip stops a bay of its group: an overspeed that stood is counted, the unit coasts with cause 3. -/
def coastTripped (s : State) (b : Nat) : State :=
  setUnit (if 64 ≤ (unitAt s b).overRun then countEvent s 6 7 2 b 0xFF [] else s) b (latchFault (toCoast (unitAt s b)) 3)

/-- The bay is as a trip leaves it. -/
def Tripped (s : State) (b : Nat) : Prop :=
  (unitAt s b).st = .coast ∧ (unitAt s b).fault = true ∧ (unitAt s b).cause = 3 ∧ (bayAt s b).safeStop = true ∧ (bayAt s b).coast = true

theorem coastTripped_spec (s : State) (b : Nat) :
    unitAt (coastTripped s b) b = latchFault (toCoast (unitAt s b)) 3 ∧ (∀ m, m ≠ b → unitAt (coastTripped s b) m = unitAt s m) ∧
      (∀ m, bayAt (coastTripped s b) m = bayAt s m) ∧ counter (coastTripped s b) 6 6 = counter s 6 6 ∧ (coastTripped s b).bus = s.bus := by
  refine ⟨unitAt_setUnit_same .., fun m hm => (unitAt_setUnit_of_ne _ _ hm).trans ?_, fun m => (bayAt_setUnit ..).trans ?_,
    (counter_setUnit ..).trans ?_, ?_⟩
  · split <;> simp
  · split <;> simp
  · split <;> simp
  · rw [coastTripped]
    split <;> rfl

theorem tripped_stopBay (s : State) (b : Nat) : Tripped (stopBay (coastTripped s b) b true) b := by
  have h := stopping_stopBay (coastTripped s b) b true
  obtain ⟨hs, hc⟩ := h.stopped
  have hu : (unitAt (stopBay (coastTripped s b) b true) b).st = .coast ∧ (unitAt (stopBay (coastTripped s b) b true) b).fault = true ∧
      (unitAt (stopBay (coastTripped s b) b true) b).cause = 3 := by
    rcases h.unit with hu | ⟨p, hu⟩ <;> rw [hu, (coastTripped_spec s b).1]
    · exact ⟨rfl, rfl, rfl⟩
    · exact ⟨rfl, rfl, rfl⟩
  exact ⟨hu.1, hu.2.1, hu.2.2, hs, hc rfl⟩

theorem tripped_stopBay_of_tripped {s : State} {b c : Nat} (h : Tripped s c) : Tripped (stopBay (coastTripped s b) b true) c := by
  by_cases e : c = b
  · rw [e]
    exact tripped_stopBay s b
  · have g := stopping_stopBay (coastTripped s b) b true
    obtain ⟨-, hu, hb, -, -⟩ := coastTripped_spec s b
    obtain ⟨hs, hc⟩ := bayKept_stops (g.bays c e)
    rw [Tripped, g.others c e, hs, hc, hu c e, hb c]
    exact h

theorem tripped_foldl {l : List Nat} {s : State} {c : Nat} (h : c ∈ l ∨ Tripped s c) :
    Tripped (l.foldl (fun s b => stopBay (coastTripped s b) b true) s) c := by
  induction l generalizing s with
  | nil => exact h.resolve_left List.not_mem_nil
  | cons b l ih =>
    refine ih ?_
    rcases h with h | h
    · rcases List.mem_cons.1 h with e | e
      · exact .inr (e ▸ tripped_stopBay s c)
      · exact .inl e
    · exact .inr (tripped_stopBay_of_tripped h)

/-- A trip's stops leave what stands outside their bays, the voltages' counts and the trips counted. -/
theorem tripFold_keeps {l : List Nat} {s : State} :
    (l.foldl (fun s b => stopBay (coastTripped s b) b true) s).bus = s.bus ∧
      counter (l.foldl (fun s b => stopBay (coastTripped s b) b true) s) 6 6 = counter s 6 6 ∧
      ∀ c, c ∉ l → unitAt (l.foldl (fun s b => stopBay (coastTripped s b) b true) s) c = unitAt s c := by
  refine ⟨foldl_keeps State.bus (fun s b => ?_) l s, foldl_keeps (counter · 6 6) (fun s b => ?_) l s,
    fun c hc => foldl_keeps_of_mem (unitAt · c) (fun s b hb => ?_) s⟩
  · have h : OnlyIn [.free, .cnt, .bays, .ports, .spn, .out, .cells, .units, .axes, .rdc, .wrc, .cal, .qre, .hiu, .cph, .bdy] (coastTripped s b)
        (stopBay (coastTripped s b) b true) := onlyIn_of_follows (follows_stopBay (by decide) (follows_refl _))
    exact (h.2 .bus (by decide) : _ = _).trans (coastTripped_spec s b).2.2.2.2
  · exact ((stopping_stopBay ..).cnt 6 6 (by decide) (by decide) (by decide) (by decide)).trans (coastTripped_spec s b).2.2.2.1
  · have hne : c ≠ b := fun e => hc (e ▸ hb)
    exact ((stopping_stopBay ..).others c hne).trans ((coastTripped_spec s b).2.1 c hne)

/-- The trip is marked and counted before any bay stops. -/
def tripMarked (s : State) (g : Nat) : State :=
  let s := countEvent s 6 6 2 0xFF 0xFF [g]
  { s with bus := { s.bus with tripped := s.bus.tripped ||| ((1 : Byte) <<< g) } }

theorem exec_busTrip_of_over {s : State} {g : Fin 8} {b : Nat} (hb : b < 8) (hg : groupOf s b = g.val) (hpos : 0 < getD s.bus.overT 0 b)
    (hover : regBits s .spdBusCfg2 0 7 0 ≤ getD s.bus.overT 0 b) (ht : s.bus.tripped.getLsbD g = false) :
    exec (.busTrip g) s = .next ((computedOf s g).foldl (fun s b => stopBay (coastTripped s b) b true) (tripMarked s g)) := by
  refine if_pos ?_
  rw [ht, Bool.not_false, Bool.and_true, List.any_eq_true]
  exact ⟨b, by simp [baysOf, hb, hg], by simp [hover, hpos]⟩

/-- BUS_TRIP of a group above the trip voltage, not yet tripped. -/
theorem busTrip_of_over {s : State} {g : Fin 8} {b : Nat} (hb : b < 8) (hg : groupOf s b = g.val) (hpos : 0 < getD s.bus.overT 0 b)
    (hover : regBits s .spdBusCfg2 0 7 0 ≤ getD s.bus.overT 0 b) (ht : s.bus.tripped.getLsbD g = false) :
    ∃ t, exec (.busTrip g) s = .next t ∧
      t.bus.tripped = s.bus.tripped ||| ((1 : Byte) <<< g.val) ∧ t.bus.blocked = s.bus.blocked ∧ counter t 6 6 = counter s 6 6 + 1 ∧
      (∀ c, c < 8 → groupOf s c = g.val → (pairAt s c).role ≠ 0 → Tripped t c) ∧
      (∀ c, groupOf s c ≠ g.val → unitAt t c = unitAt s c) := by
  obtain ⟨hbus, hcnt, hu⟩ := tripFold_keeps (l := computedOf s g) (s := tripMarked s g)
  refine ⟨_, exec_busTrip_of_over hb hg hpos hover ht, (congrArg Bus.tripped hbus :), (congrArg Bus.blocked hbus :),
    hcnt.trans (counter_bump_block s 6 6 6), fun c hc hgc hr => tripped_foldl (.inl ?_), fun c hgc => hu c (fun hm => hgc ?_)⟩
  · simp [computedOf, hc, hgc, hr]
  · simp only [computedOf, List.mem_filter, decide_eq_true_eq] at hm
    exact hm.2.1

/-- BUS_BLOCK_CLEAR of a blocked group whose bays have all been clean long enough. -/
theorem busBlockClear_of_clean {s : State} {g : Fin 8} (h : s.bus.blocked.getLsbD g = true)
    (hc : ∀ b, b < 8 → groupOf s b = g.val → 250 ≤ getD s.bus.clean 0 b) :
    ∃ t, exec (.busBlockClear g) s = .next t ∧ (∀ k, k < 8 → t.bus.blocked.getLsbD k = (s.bus.blocked.getLsbD k && k != g.val)) ∧
      t.bus.tripped = s.bus.tripped ∧ OnlyIn [.bus] s t := by
  refine ⟨_, if_pos ?_, fun k hk => ?_, rfl, onlyIn_of_follows (upd_bus (by decide) (follows_refl s))⟩
  · rw [h, Bool.true_and, List.all_eq_true]
    intro b hb
    simp only [baysOf, List.mem_filter, List.mem_range, decide_eq_true_eq] at hb
    exact decide_eq_true (hc b hb.1 hb.2)
  · have hne : (k != g.val) = !decide ((⟨k, hk⟩ : Fin 8) = g) := by
      rw [Bool.eq_iff_iff]
      simp [Fin.ext_iff]
    rw [hne, ← getLsbD_lane g ⟨k, hk⟩, BitVec.getLsbD_and, BitVec.getLsbD_not, decide_eq_true hk, Bool.true_and]

/-! ### Lock, loss and overspeed -/

section
variable {s : State} {n : Fin 8}

/-- The state in which a loss of synchronism ends the grants of the bay: it is counted, and the unit senses, or coasts with cause 2. -/
def syncLost (s : State) (n : Nat) : State :=
  let u := unitAt s n
  let again := u.lossAge.any (fun k => decide (k ≤ 10 * Config.sec))
  setUnit (countEvent s 6 4 1 n 0xFF [if again then 1 else 0]) n
    (if again then latchFault (toCoast { u with lossAge := some 0 }) 2 else toSense { u with lossAge := some 0 })

theorem exec_lossOfSync_of_missed (hst : (unitAt s n).st = .run) (hm : 6 ≤ (unitAt s n).missedRun) :
    exec (.lossOfSync n) s = .next (if (unitAt s n).lossAge.any (fun k => decide (k ≤ 10 * Config.sec))
      then bayLost (revokeBay (syncLost s n) n) n else revokeBay (syncLost s n) n) := by
  change execLossOfSync n s = _
  cases h : (unitAt s n).lossAge.any (fun k => decide (k ≤ 10 * Config.sec)) <;>
    simp [execLossOfSync, syncLost, hst, Nat.not_lt.2 hm, h]

/-- The state in which an overspeed stops the bay: it is counted, the unit brakes pulsed with cause 4. -/
def overspeedNoted (s : State) (n : Nat) : State :=
  setUnit (countEvent s 6 7 2 n 0xFF []) n
    (latchFault { toShort (spdPar s n) (unitAt s n) .stop with pulsed := true, fraction := 1024 } 4)

theorem exec_inertiaMeasured_of_none (h : (unitAt s n).accel = none) : exec (.inertiaMeasured n) s = .next s := by
  change execInertiaMeasured n s = _
  rw [execInertiaMeasured, h]

theorem exec_inertiaMeasured_of_some {a : Accel} (h : (unitAt s n).accel = some a) :
    exec (.inertiaMeasured n) s =
      (let x := Config.inertiaOf a.sum1 a.n1 (spdPar s n).accMax
       let y := Config.inertiaOf a.sum2 a.n2 (spdPar s n).accMax
       if !a.whole || a.n1 == 0 || a.n2 == 0 then .next s
       else if ((x : Int) - y).natAbs * 100 ≤ 5 * y
         then .next (applyInertia (setUnit s n { unitAt s n with accel := none, inertia := some y }) n)
         else .next (setUnit s n { unitAt s n with accel := none })) := by
  change execInertiaMeasured n s = _
  rw [execInertiaMeasured, h]

end

/-- Settles O26. -/
theorem spindleRunsLocksAndStops : Obligations.SpindleRunsLocksAndStops := by
  unfold Obligations.SpindleRunsLocksAndStops
  refine ⟨fun s n => ⟨?_, ?_, ?_, ?_, ?_, ?_, ?_, ?_, ?_, ?_, ?_, ?_, ?_, rfl, rfl, rfl⟩, fun s g => busBlockClear_of_clean,
    fun s g b hb hg hpos hover ht => busTrip_of_over hb hg hpos hover ht, fun s n => ⟨exec_inertiaMeasured_of_none, fun a ha => ⟨?_, ?_⟩⟩⟩
  · exact fun hst hr => if_pos (by simp [hst, hr])
  · exact fun h => if_neg (by rcases h with h | h <;> simp [h])
  · exact fun h => by rw [applyInertia]; simp only [h]
  · intro hl ho
    refine ⟨_, if_pos (by simp [hl, ho]), ?_, fun m hm => ?_, revokeBay_ends _ n, ?_⟩
    · exact (unitAt_of_units (quiet_revokeBay _ n).units n).trans (unitAt_setUnit_same ..)
    · exact (unitAt_of_units (quiet_revokeBay _ n).units m).trans (unitAt_setUnit_of_ne _ _ hm)
    · exact onlyIn_of_follows (follows_revokeBay (by decide) (follows_setUnit (by decide) (follows_refl s)))
  · exact fun h => if_neg (by rcases h with h | h <;> simp [h])
  · intro hst hm
    refine ⟨syncLost s n, unitAt_setUnit_same .., fun m hm => unitAt_setUnit_of_ne _ _ hm, counter_bump_block s 6 4 4, ?_,
      exec_lossOfSync_of_missed hst hm⟩
    exact onlyIn_of_follows (follows_setUnit (by decide) (follows_countEvent (by decide) (follows_refl s)))
  · exact fun h => if_pos (by rcases h with h | h <;> simp [h])
  · intro h
    have hu : unitAt (overspeedNoted s n) n = _ := unitAt_setUnit_same ..
    refine ⟨overspeedNoted s n, by rw [hu]; rfl, by rw [hu]; rfl, by rw [hu]; rfl, by rw [hu]; rfl, by rw [hu]; rfl,
      fun m hm => unitAt_setUnit_of_ne _ _ hm, counter_bump_block s 6 7 7, ?_, if_neg (Nat.not_lt.2 h)⟩
    exact onlyIn_of_follows (follows_setUnit (by decide) (follows_countEvent (by decide) (follows_refl s)))
  · exact fun h => if_pos h
  · refine fun h => ⟨fun hst => (if_neg (Nat.not_lt.2 h)).trans ?_, fun hst hs => (if_neg (Nat.not_lt.2 h)).trans ?_⟩
    · simp only [hst]
    · simp only [hst, hs]
      rfl
  · exact fun h => if_pos h
  · rintro hst hb ⟨k, hs, hk⟩
    exact if_pos (by simp [hst, hb, hs, hk])
  · refine fun h => if_neg ?_
    cases hs : (unitAt s n).stood with
    | none => simp
    | some k => simp [h k hs]
  · exact fun h => (exec_inertiaMeasured_of_some ha).trans (if_pos (by rcases h with h | h | h <;> simp [h]))
  · intro hw h1 h2
    refine (exec_inertiaMeasured_of_some ha).trans ((if_neg (by simp [hw, h1, h2])).trans ?_)
    exact (apply_ite Host.Outcome.next _ _ _).symm

end Sys2Proof.Machine
end

section
/-! PROOFS. R149, R202: the plausibility actions, as stated for every action word. -/

namespace Sys2Proof.Machine

/-- A held focus cell whose count stands at N, with an action word that the Loop Graph does not give. -/
def heldCell : Cell := { named := true, st := .held, action := 3, cnt := 1, coef := List.replicate 16 256 }

/-- The cell alone in its table, its OPU in a calibration run. -/
def heldInRun : State := { cells := [(0, heldCell)], cal := { jobs := [{ opu := 0, layer := 0, kind := .opc, blocking := false, whole := false, running := true }] } }

theorem heldInRun_due : due (cellAt heldInRun (0 : Fin 96)) = true := by decide

/-- The model fails the calibration in progress, though every due cell is held. -/
theorem exec_plausibilityAction_heldInRun :
    exec (.plausibilityAction 0) heldInRun = .next (failRunning heldInRun 0) := rfl

/-- Refutes O12: with an action word of 3 and every due cell held, the OPU's calibration fails and is counted, where the statement has no change. -/
theorem not_stitchEdgesAndDeadlines : ¬ Obligations.StitchEdgesAndDeadlines := by
  unfold Obligations.StitchEdgesAndDeadlines
  rintro ⟨-, -, -, -, -, haction, -⟩
  have h : exec (.plausibilityAction 0) heldInRun = .next heldInRun := haction heldInRun 0 heldInRun_due
  have hsame : failRunning heldInRun 0 = heldInRun := Host.Outcome.next.inj (exec_plausibilityAction_heldInRun.symm.trans h)
  exact absurd (congrArg (counter · 15 4) hsame) (by decide)

end Sys2Proof.Machine
end

section
/-! PROOFS. R44, R312, R322: sample frames land in their port or count as absent. R85 to R87, R111, R314: spot packets go through their cell. -/

namespace Sys2Proof.Machine

/-! ### What the operations on a landed frame leave of the ports -/

/-- The part of a port that SAMPLE_FRAME_LAND and SAMPLE_FRAME_ABSENT write: the stitch's frame, its absence, the identity's slices. -/
def frameOf (p : Port) : Option SampleFrame × Bool × Nat × Tbl Bytes := (p.landed, p.absent, p.absentRun, p.slices)

/-- No port's frame, absence or identity slices change. -/
structure PortsFramed (s t : State) : Prop where
  frame : ∀ n, frameOf (portAt t n) = frameOf (portAt s n)

theorem framed_refl (s : State) : PortsFramed s s := ⟨fun _ => rfl⟩

theorem framed_trans {s t u : State} (h : PortsFramed s t) (g : PortsFramed t u) : PortsFramed s u := ⟨fun n => (g.frame n).trans (h.frame n)⟩

theorem framed_ite {s a b : State} {p : Prop} [Decidable p] (h : PortsFramed s a) (g : PortsFramed s b) : PortsFramed s (if p then a else b) := by
  split
  · exact h
  · exact g

theorem framed_foldl {α : Type} {f : State → α → State} (h : ∀ s a, PortsFramed s (f s a)) (l : List α) (s : State) : PortsFramed s (l.foldl f s) := by
  induction l generalizing s with
  | nil => exact framed_refl s
  | cons a l ih => exact framed_trans (h s a) (ih _)

theorem framed_of_portKept {s t : State} (h : ∀ n, PortKept (portAt s n) (portAt t n)) : PortsFramed s t := by
  refine ⟨fun n => ?_⟩
  obtain ⟨a, b, e⟩ := h n
  rw [e]
  rfl

theorem framed_of_quiet {s t : State} (h : Quiet s t) : PortsFramed s t := framed_of_portKept h.ports

/-- Every part but the ports. -/
def portlessParts : List Part := [.free, .regs, .splitLatch, .hostRead, .cnt, .tck, .pwr, .bays, .bfes, .spn, .out, .cells, .units, .bus, .axes,
  .rdc, .wrc, .cal, .qre, .hiu, .cmd, .mem, .kst, .cph, .bdy, .bnd]

/-- What follows without the ports leaves them. -/
theorem framed_of_follows {s t : State} (h : Follows (fun p => portlessParts.contains p) s t) : PortsFramed s t := by
  have hp : t.ports = s.ports := h.frame .ports (by decide)
  exact ⟨fun n => congrArg (fun x => frameOf (getD x ({} : Port) n)) hp⟩

theorem framed_setPort {s : State} {n : Nat} {p : Port} (h : frameOf p = frameOf (portAt s n)) : PortsFramed s (setPort s n p) := by
  refine ⟨fun m => ?_⟩
  rw [portAt_setPort]
  split
  · next e => exact e ▸ h
  · rfl

theorem framed_stopBay (s : State) (b : Nat) (coast : Bool) : PortsFramed s (stopBay s b coast) := framed_of_portKept (stopping_stopBay s b coast).ports

theorem framed_orderCell (s : State) (n op arg : Nat) : PortsFramed s (orderCell s n op arg) :=
  framed_of_follows (follows_orderCell (by decide) (follows_refl s))

theorem framed_bump (s : State) (b i : Nat) : PortsFramed s (bump s b i) := framed_of_follows (follows_bump (by decide) (follows_refl s))

theorem framed_event (s : State) (c k v b o : Nat) (d : List Nat) : PortsFramed s (event s c k v b o d) :=
  framed_of_follows (follows_event (by decide) (follows_refl s))

theorem framed_farMove (s : State) (opu : Nat) (t : Int) : PortsFramed s (farMove s opu t) := by
  unfold farMove
  extract_lets p
  split
  · exact framed_refl s
  · split
    · exact framed_refl s
    · next dest s1 _ k _ _ =>
      have h1 : PortsFramed s s1 := framed_setPort rfl
      clear_value s1
      exact framed_ite h1 (framed_trans h1 (framed_orderCell ..))

theorem framed_addressUnit (s : State) (b e : Nat) (w : BitVec 56) : PortsFramed s (addressUnit s b e w) := by
  unfold addressUnit
  extract_lets side opu p s1 s2
  have h1 : PortsFramed s s1 := framed_setPort rfl
  have h2 : PortsFramed s1 s2 := by
    unfold s2
    split
    · exact framed_ite (framed_orderCell ..) (framed_refl _)
    · exact framed_refl _
  refine framed_trans (framed_trans h1 h2) ?_
  clear_value s2
  split
  · refine framed_ite (framed_refl _) (framed_ite (framed_setPort rfl) (framed_ite (framed_refl _) (framed_ite ?_ (framed_farMove ..))))
    exact framed_trans (framed_orderCell ..) (framed_bump ..)
  · exact framed_refl _

theorem framed_wobbleRecord (s : State) (b e : Nat) (w : Wobble) : PortsFramed s (wobbleRecord s b e w) := by
  unfold wobbleRecord
  refine framed_ite (framed_refl s) ?_
  extract_lets ok p x s1
  have h1 : PortsFramed s s1 := framed_setPort rfl
  clear_value s1
  refine framed_trans h1 (framed_ite (framed_refl _) (framed_ite (framed_addressUnit ..) (framed_ite ?_ (framed_refl _))))
  exact framed_setPort rfl

theorem framed_resumeMove (s : State) (opu : Nat) : PortsFramed s (resumeMove s opu) := by
  unfold resumeMove
  extract_lets p
  split
  · refine framed_ite (framed_refl s) (framed_ite ?_ (framed_of_quiet (quiet_queueAxis ..)))
    generalize hq : setPort s (opu / 2) _ = t
    have h1 : PortsFramed s t := hq ▸ framed_setPort rfl
    exact framed_trans h1 (framed_orderCell ..)
  · exact framed_refl s

theorem quiet_sealSurface (s : State) (m cause : Nat) : Quiet s (sealSurface s m cause) := closing_quiet.sealSurface s m cause

theorem quiet_laserFrame (s : State) (m : Nat) (f : SampleFrame) : Quiet s (laserFrame s m f) := by
  unfold laserFrame
  extract_lets es s1 lane w o warn st new s2 s3
  refine quiet_ite (quiet_refl s) ?_
  have h1 : Quiet s s1 := quiet_ite (quiet_cutRun ..) (quiet_refl s)
  have h2 : Quiet s1 s2 := quiet_of_follows (follows_setOpu (by decide) (follows_refl _))
  have h3 : Quiet s2 s3 := quiet_ite (quiet_event ..) (quiet_refl _)
  refine quiet_trans (quiet_trans (quiet_trans h1 h2) h3) ?_
  clear_value s3
  exact quiet_ite (quiet_surfaceLost ..) (quiet_ite (quiet_trans (quiet_cutRun ..) (quiet_sealSurface ..)) (quiet_refl _))

theorem framed_changeRole (s : State) (b : Nat) (f : SampleFrame) : PortsFramed s (changeRole s b f) := by
  unfold changeRole
  extract_lets p new handed s1 y running s2 p2 s3 s4
  refine framed_ite (framed_refl s) ?_
  have h1 : PortsFramed s s1 := framed_of_follows (follows_setPair (by decide) (follows_refl s))
  have h4 : PortsFramed s1 s4 := by
    refine framed_trans (framed_of_follows (t := s2) (follows_setBay (by decide) (follows_refl s1)))
      (framed_trans (t := s3) (framed_setPort (n := b) rfl) (framed_ite ?_ (framed_refl _)))
    exact framed_of_follows (follows_bump (by decide) (follows_loseArmed (by decide) (follows_refl _)))
  refine framed_trans h1 (framed_ite (framed_trans h4 (framed_ite ?_ (framed_refl _))) (framed_ite ?_ (framed_refl _)))
  · exact framed_of_follows (follows_discLoad (by decide) (follows_dropRecords (by decide) (follows_refl _)))
  · refine framed_trans ?_ (framed_of_follows (follows_dropBayReads (by decide) (follows_refl _)))
    refine framed_trans ?_ (framed_of_quiet (quiet_revokeBay ..))
    exact framed_ite (framed_of_follows (follows_loseArmed (by decide) (follows_refl _))) (framed_refl _)

theorem framed_frameStops (s : State) (b : Nat) (f : SampleFrame) : PortsFramed s (frameStops s b f) := by
  refine framed_trans (framed_ite (framed_ite ?_ ?_) (framed_refl s)) (framed_ite (framed_stopBay ..) (framed_refl _))
  · exact framed_of_follows (follows_flyleafGains (by decide) (follows_dropRecords (by decide) (follows_refl s)))
  · exact framed_of_follows (follows_dropRecords (by decide) (follows_refl s))

/-- The port as a landed frame leaves it. -/
theorem frameOf_framePort (s : State) (b : Nat) (f : SampleFrame) (n : Nat) :
    frameOf (portAt (framePort s b f) n) =
      if b = n then (some f, false, 0, ins (portAt s b).slices f.slice f.ident) else frameOf (portAt s n) := by
  refine ((framed_foldl (fun s i => framed_event ..) _ _).frame n).trans ?_
  rw [portAt_setPort]
  split <;> rfl

/-! ### Landing -/

/-- A frame that claims its bay's port for the owner asks for it. -/
def claimOf (s : State) (b : Nat) (f : SampleFrame) : State :=
  if f.reset ∧ f.obeys = 2 ∧ (ownRec s b).owner = s.tck.twinId ∧ ((portAt s b).idRecorded ∨ s.pwr.phase ≠ .running) then
    setBay s b { bayAt s b with claim := true } else s

/-- What a frame of a bay the twin runs or shadows brings to its units, axes and lasers. -/
def frameInputs (s : State) (b : Nat) (f : SampleFrame) : State :=
  let s := stageFault s b f
  let s := (List.zip (bayAxes b) f.axis).foldl (fun s e => axisInput s e.1 e.2) s
  let s := (List.zip (List.range 8) f.wobble).foldl (fun s e => wobbleRecord s b e.1 e.2) s
  if runs s b then
    let s := laserFrame (laserFrame s (2 * b) f) (2 * b + 1) f
    let s := streamOn (streamOn s (2 * b)) (2 * b + 1)
    let s := resumeMove (resumeMove s (2 * b)) (2 * b + 1)
    tempTrigger (tempTrigger s (2 * b) f.tempA) (2 * b + 1) f.tempB
  else s

/-- The state of a landed frame before its inputs. -/
def frameTaken (s : State) (f : SampleFrame) : State :=
  busFrame (changeRole (framePort (frameStops (frameCounters s f.bay f) f.bay f) f.bay f) f.bay f) f.bay f

theorem exec_sampleFrameLand_good (s : State) (f : SampleFrame) :
    exec (.sampleFrameLand f true) s = .next (if (pairAt (frameTaken s f) f.bay).role = 0 then claimOf (frameTaken s f) f.bay f
      else frameInputs (claimOf (frameTaken s f) f.bay f) f.bay f) := by
  rw [apply_ite Host.Outcome.next]
  change execSampleFrameLand f true s = _
  unfold execSampleFrameLand
  rw [if_neg (by decide)]
  refine if_congr Iff.rfl ?_ ?_
  · exact (apply_ite Host.Outcome.next _ _ _).symm
  · exact (apply_ite Host.Outcome.next _ _ _).symm

theorem framed_claimOf (s : State) (b : Nat) (f : SampleFrame) : PortsFramed s (claimOf s b f) :=
  framed_ite (framed_of_follows (follows_setBay (by decide) (follows_refl s))) (framed_refl s)

theorem framed_stageFault (s : State) (b : Nat) (f : SampleFrame) : PortsFramed s (stageFault s b f) := by
  refine framed_ite (framed_trans ?_ (framed_stopBay ..)) (framed_refl s)
  exact framed_of_follows (follows_event (by decide) (follows_setUnit (by decide) (follows_refl s)))

theorem framed_frameInputs (s : State) (b : Nat) (f : SampleFrame) : PortsFramed s (frameInputs s b f) := by
  unfold frameInputs
  extract_lets s1 s2 s3 s4 s5 s6
  have h1 : PortsFramed s s1 := framed_stageFault ..
  have h2 : PortsFramed s1 s2 := framed_foldl (fun s e => framed_of_follows (follows_axisInput (by decide) (follows_refl s))) _ _
  have h3 : PortsFramed s2 s3 := framed_foldl (fun s e => framed_wobbleRecord ..) _ _
  have h4 : PortsFramed s3 s4 := framed_of_quiet (quiet_trans (quiet_laserFrame ..) (quiet_laserFrame ..))
  have h5 : PortsFramed s4 s5 := framed_of_follows (follows_streamOn (by decide) (follows_streamOn (by decide) (follows_refl s4)))
  have h6 : PortsFramed s5 s6 := framed_trans (framed_resumeMove ..) (framed_resumeMove ..)
  refine framed_trans (framed_trans (framed_trans h1 h2) h3) (framed_ite (framed_trans (framed_trans h4 (framed_trans h5 h6)) ?_) (framed_refl s3))
  exact framed_of_follows (follows_tempTrigger (by decide) (follows_tempTrigger (by decide) (follows_refl s6)))

theorem frameOf_frameTaken (s : State) (f : SampleFrame) (n : Nat) :
    frameOf (portAt (frameTaken s f) n) =
      if f.bay.val = n then (some f, false, 0, ins (portAt s f.bay).slices f.slice f.ident) else frameOf (portAt s n) := by
  have h0 : PortsFramed s (frameStops (frameCounters s f.bay f) f.bay f) :=
    framed_trans (framed_of_follows (follows_frameCounters (by decide) (follows_refl s))) (framed_frameStops ..)
  refine ((framed_of_follows (follows_busFrame (by decide) (follows_refl _))).frame n).trans ?_
  rw [(framed_changeRole ..).frame, frameOf_framePort, h0.frame n]
  have hs : (portAt (frameStops (frameCounters s f.bay f) f.bay f) f.bay).slices = (portAt s f.bay).slices :=
    congrArg (fun x => x.2.2.2) (h0.frame f.bay)
  rw [hs]

/-! ### Spot packets -/

section
variable {s : State} {b : Fin 8} {spot : Fin 16} {st off : Half} {x : Bytes} {k : Nat}

theorem exec_spotPacket_of_cell (hr : runs s b = true) (he : (portAt s b).spotEn.getLsbD spot = true)
    (hk : chanOf s (2 * b.val + spot.val / 8) (spot.val % 8) = some k) (ok : Bool) :
    exec (.spotPacket b spot st off x ok) s =
      if !ok then .next (bump s 3 4)
      else if samplesPerStitch (portAt s b).rate ≤ off.toNat then .next s
      else .next (setChan s k (packetStep
        (chanCfg s (2 * b.val + spot.val / 8) (((chanRecOf s (2 * b.val + spot.val / 8) (spot.val % 8)).map (·.target)).getD 0) (chanAt s k).retrain)
        (samplesPerStitch (portAt s b).rate) (unitBase s b spot (samplesPerStitch (portAt s b).rate)) (chanAt s k)
        (st.toNat * samplesPerStitch (portAt s b).rate + off.toNat) x)) := by
  refine (if_neg (by simp [hr, he])).trans ?_
  simp only [hk]

/-- A packet that follows the last samples leaves no span between them. -/
theorem packetStep_of_following {g : ChanCfg} {n : Nat} {unit : Option Nat} {c : Chan} {first : Nat}
    (h : c.nextAt = some first ∨ c.nextAt = none) :
    packetStep g n unit c first x =
      { (if c.st = 0 then c else samplesFrom g n (unit.map (fun v => if v ≤ first then 65536 * n + v else v)) (first + 65536 * n)
          (x.map (fun a => some ((a.toNat : Int) - 128))) c) with nextAt := some ((first + x.length) % (65536 * n)) } := by
  have hu : ¬ unitBits ≤ 0 := by decide
  rcases h with h | h <;> simp [packetStep, h, hu]

end

/-- Settles O14. -/
theorem framesLandOrCount : Obligations.FramesLandOrCount := by
  unfold Obligations.FramesLandOrCount
  refine ⟨fun s f => ⟨_, exec_sampleFrameLand_good s f, ?_⟩, fun s f => rfl, fun s b hl ha => ?_, fun s b hl => ?_, fun s b hr hs hn => ?_,
    fun s b spot st off x k hr he hk => ?_⟩
  · have h : PortsFramed (frameTaken s f) (if (pairAt (frameTaken s f) f.bay).role = 0 then claimOf (frameTaken s f) f.bay f
        else frameInputs (claimOf (frameTaken s f) f.bay f) f.bay f) :=
      framed_ite (framed_claimOf ..) (framed_trans (framed_claimOf ..) (framed_frameInputs ..))
    have hall (n : Nat) := (h.frame n).trans (frameOf_frameTaken s f n)
    have hb := (hall f.bay).trans (if_pos rfl)
    exact ⟨congrArg (·.1) hb, congrArg (·.2.1) hb, congrArg (·.2.2.1) hb, congrArg (·.2.2.2) hb,
      fun n hn => congrArg (·.1) ((hall n).trans (if_neg hn.symm))⟩
  · refine ⟨_, if_neg (by simp [hl, ha]), ?_, ?_, ?_, fun i hi h0 => ?_, fun n hn => ⟨?_, ?_⟩, ?_⟩
    · rw [portAt_bump, portAt_setBay, portAt_setPort, if_pos rfl]
    · rw [bayAt_bump, bayAt_setBay, if_pos rfl]
      exact if_pos ⟨rfl, rfl, rfl⟩
    · rw [counter_bump_block, counter_setBay, counter_setPort]
      rfl
    · rw [counter_bump_block, counter_setBay, counter_setPort, if_neg h0.symm]
      simp
    · rw [portAt_bump, portAt_setBay, portAt_setPort, if_neg hn.symm]
    · rw [bayAt_bump, bayAt_setBay, if_neg hn.symm]
      rfl
    · exact onlyIn_of_follows (follows_bump (by decide) (follows_setBay (by decide) (follows_setPort (by decide) (follows_refl s))))
  · exact if_pos (.inl (Option.isSome_iff_ne_none.2 hl))
  · refine ⟨_, if_neg (by simp [hr, hs, Nat.not_lt.2 hn]), ?_, ?_, fun n hn => ?_, ?_⟩
    · rw [portAt_bump, portAt_setPort, if_pos rfl]
    · rw [counter_bump_block, counter_setPort]
      rfl
    · rw [portAt_bump, portAt_setPort, if_neg hn.symm]
    · exact onlyIn_of_follows (follows_bump (by decide) (follows_setPort (by decide) (follows_refl s)))
  · refine ⟨⟨_, exec_spotPacket_of_cell hr he hk false, counter_bump_block s 3 4 4, onlyIn_of_follows (follows_bump (by decide) (follows_refl s))⟩,
      fun hoff => (exec_spotPacket_of_cell hr he hk true).trans (if_pos hoff), fun hoff hnext => ?_⟩
    refine ⟨_, (exec_spotPacket_of_cell hr he hk true).trans (if_neg (Nat.not_le.2 hoff)), ?_⟩
    rw [chanAt_setChan, if_pos rfl, packetStep_of_following hnext]
    exact ⟨rfl, fun h0 => by rw [if_pos h0], fun h0 => by rw [if_neg h0], fun m hm => by rw [chanAt_setChan, if_neg hm.symm],
      onlyIn_of_follows (follows_setChan (by decide) (follows_refl s))⟩

end Sys2Proof.Machine
end

section
/-! PROOFS. R259, R268, R369: a port reset under a write that has committed in part. -/

namespace Sys2Proof.Machine

/-- A write to the conventional log that has committed its first piece. -/
def partWrite : Cmd := { ref := {}, sqe := { cid := 0, kind := .write, nsid := 1 }, st := .data, seq := 5, pieces := 1 }

/-- Controller 0 with that write, its version held, in single-board protection. -/
def partWritten : State :=
  { hiu := { cmds := [partWrite] }, cmd := { prot := 1, versions := [{ seq := 5, nsid := 1, lba := 0, nlb := 1, blocks := [] }] } }

/-- The pieces that committed keep their version, which goes to the vault log's group. -/
theorem perstN_partWritten : ∃ t, exec (.perstN 0) partWritten = .next t ∧ t.mem.group.isSome = true := ⟨_, rfl, by decide⟩

/-- Refutes O9: a port reset settles the pieces that a cut write has committed, and in single-board protection their version joins the vault log's
group, which is memory outside the statement's reach. -/
theorem not_resetsReachTheirDomains : ¬ Obligations.ResetsReachTheirDomains := by
  unfold Obligations.ResetsReachTheirDomains
  rintro ⟨-, -, hport⟩
  obtain ⟨t, ht, -, -, -, -, -, -, -, -, hframe⟩ := hport partWritten 0 rfl (by decide)
  obtain ⟨u, hu, hgroup⟩ := perstN_partWritten
  have hsame : t.mem = partWritten.mem := hframe .mem (by decide)
  rw [← Host.Outcome.next.inj (ht.symm.trans hu), hsame] at hgroup
  exact absurd hgroup (by decide)

end Sys2Proof.Machine
end

section
/-! PROOFS. R370, R399: start-up in its order. R353: its Colophon record. R363: the event log's pages. -/

namespace Sys2Proof.Machine

/-! ### Release of the reset (R1, R271, R349, R370) -/

/-- The state that boot starts from: the straps sampled, the Bindery's domain on. -/
def released (s : State) (id : Fin 2) (split : Bool) : State :=
  { s with tck := strapped s id split, pwr := { s.pwr with domBdy := true, vaultDone := false } }

/-- The state after boot, with its domains on and the vault tested, before the Binding is loaded. -/
def bootedUp (s : State) (dimm0 dimm1 : Byte) (rate : Half) (channels : BitVec 4) (programs : Bool) : State :=
  { s with
    pwr := { s.pwr with phase := .starting, domCore := true, domSerdes := 0x3FFF, stage := 4, quadsAt := now s }
    tck := { s.tck with aliveOn := true }
    spn := { s.spn with link := 1 }
    cph := { s.cph with drbg := 0, drbgAt := now s }
    bdy := { s.bdy with overrides := (sheet s).overrides }
    mem := { s.mem with dimm0 := dimm0.toNat, dimm1 := dimm1.toNat, vaultKind := vaultTest rate.toNat channels programs
                        vault := vaultTest rate.toNat channels programs, rate := rate.toNat } }

/-- Then the Binding stands, and the dirty window with it. -/
def windowed (s : State) : State :=
  { s with mem := { s.mem with window0 := (s.bnd.active.map (fun (b : Binding) => b.limits.dirtyGib)).getD 24 } }

theorem exec_resetRelease_of_high {s : State} (id : Fin 2) (split : Bool) (d e : Byte) (rate : Half) (ch : BitVec 4) (ok : Bool)
    (hp : s.pwr.phase = .porLow ∨ s.pwr.phase = .warm) (hf : s.pwr.failLow = false) :
    exec (.resetRelease id split d e rate ch ok) s = (match boot (released s id split) with
      | none => .next { released s id split with pwr := { (released s id split).pwr with phase := .noBoot } }
      | some t =>
        let u := windowed (loadBinding (bootedUp t d e rate ch ok))
        if d ≠ e then .next (event { u with pwr := { u.pwr with phase := .noBoot }, tck := { u.tck with aliveOn := false } } 0 13 3)
        else if u.pwr.failLow then .next { u with pwr := { u.pwr with halted := true } } else .next (trained u)) := by
  change execResetRelease id split d e rate ch ok s = _
  unfold execResetRelease
  rw [if_neg (by rcases hp with hp | hp <;> simp [hp, hf])]
  rfl

theorem strapped_twinId (s : State) (id : Nat) (split : Bool) :
    (strapped s id split).twinId = (if s.pwr.phase = .porLow then id else s.tck.twinId) ∧
      (strapped s id split).split = (if s.pwr.phase = .porLow then split else s.tck.split) ∧ (strapped s id split).count = s.tck.count ∧
      (strapped s id split).aliveOn = s.tck.aliveOn := by
  unfold strapped
  split <;> exact ⟨rfl, rfl, rfl, rfl⟩

/-- Boot leaves the parts that start-up then writes. -/
theorem boot_keeps {s t : State} (h : boot s = some t) : t.tck = s.tck ∧ t.pwr = s.pwr ∧ t.spn = s.spn ∧ t.cph = s.cph ∧ t.mem = s.mem := by
  have hf : OnlyIn [.cnt, .bdy] s t := onlyIn_of_follows (follows_boot (by decide) (follows_refl s) t h)
  exact ⟨hf.2 .tck (by decide), hf.2 .pwr (by decide), hf.2 .spn (by decide), hf.2 .cph (by decide), hf.2 .mem (by decide)⟩

theorem windowed_loadBinding (s : State) :
    (windowed (loadBinding s)).tck = s.tck ∧ (windowed (loadBinding s)).pwr = s.pwr ∧ (windowed (loadBinding s)).spn = s.spn ∧
      (windowed (loadBinding s)).cph = s.cph ∧ (windowed (loadBinding s)).mem.vault = s.mem.vault := by
  have hf : OnlyIn [.out, .cells, .hiu, .kst, .bdy, .bnd] s (loadBinding s) := onlyIn_of_follows (follows_loadBinding (by decide) (follows_refl s))
  exact ⟨hf.2 .tck (by decide), hf.2 .pwr (by decide), hf.2 .spn (by decide), hf.2 .cph (by decide), (show (loadBinding s).mem.vault = s.mem.vault from congrArg Mem.vault (hf.2 .mem (by decide) : (loadBinding s).mem = s.mem))⟩

/-- A release with equal DIMMs: the twin starts, or finds nothing to boot. -/
theorem resetRelease_of_equal {s : State} (id : Fin 2) (split : Bool) (d : Byte) (rate : Half) (ch : BitVec 4) (ok : Bool)
    (hp : s.pwr.phase = .porLow ∨ s.pwr.phase = .warm) (hf : s.pwr.failLow = false) :
    ∃ t, exec (.resetRelease id split d d rate ch ok) s = .next t ∧ t.tck.twinId = (if s.pwr.phase = .porLow then id.val else s.tck.twinId) ∧
      t.tck.split = (if s.pwr.phase = .porLow then split else s.tck.split) ∧ t.tck.count = s.tck.count ∧ t.pwr.domBdy = true ∧
      match boot (released s id split) with
      | none => t.pwr.phase = .noBoot ∧ t.tck.aliveOn = s.tck.aliveOn
      | some _ => t.pwr.phase = .starting ∧ t.pwr.domCore = true ∧ t.pwr.domSerdes = 0x3FFF ∧ t.pwr.domDdr = 3 ∧ t.pwr.domRdc = 0xFF ∧
        t.pwr.stage = 7 ∧ t.tck.aliveOn = true ∧ t.spn.link = 1 ∧ t.cph.drbg = 0 ∧ t.mem.vault = vaultTest rate.toNat ch ok := by
  obtain ⟨hid, hsplit, hcount, halive⟩ := strapped_twinId s id split
  rw [exec_resetRelease_of_high id split d d rate ch ok hp hf]
  cases hb : boot (released s id split) with
  | none => exact ⟨_, rfl, hid, hsplit, hcount, rfl, rfl, halive⟩
  | some t =>
    obtain ⟨ht, hpw, hs, hc, hm⟩ := boot_keeps hb
    obtain ⟨gt, gpw, gs, gc, gm⟩ := windowed_loadBinding (bootedUp t d d rate ch ok)
    have hlow : (windowed (loadBinding (bootedUp t d d rate ch ok))).pwr.failLow = false := by rw [gpw, bootedUp, hpw]; exact hf
    dsimp only
    rw [if_neg (not_not_intro rfl), hlow, if_neg Bool.false_ne_true]
    refine ⟨_, rfl, ?_, ?_, ?_, ?_, ?_, ?_, ?_, rfl, rfl, rfl, ?_, ?_, ?_, ?_⟩
    · exact (congrArg Tck.twinId gt).trans ((congrArg Tck.twinId ht).trans hid)
    · exact (congrArg Tck.split gt).trans ((congrArg Tck.split ht).trans hsplit)
    · exact (congrArg Tck.count gt).trans ((congrArg Tck.count ht).trans hcount)
    · exact (congrArg Pwr.domBdy gpw).trans (congrArg Pwr.domBdy hpw)
    · exact congrArg Pwr.phase gpw
    · exact congrArg Pwr.domCore gpw
    · exact congrArg Pwr.domSerdes gpw
    · exact congrArg Tck.aliveOn gt
    · exact congrArg Spn.link gs
    · exact congrArg Cph.drbg gc
    · exact gm

/-- With DIMMs of unequal size the twin does not start. -/
theorem resetRelease_of_unequal {s : State} (id : Fin 2) (split : Bool) {d e : Byte} (rate : Half) (ch : BitVec 4) (ok : Bool)
    (hp : s.pwr.phase = .porLow ∨ s.pwr.phase = .warm) (hf : s.pwr.failLow = false) (hne : d ≠ e) (ha : s.tck.aliveOn = false) :
    ∃ t, exec (.resetRelease id split d e rate ch ok) s = .next t ∧ t.pwr.phase = .noBoot ∧ t.tck.aliveOn = false := by
  rw [exec_resetRelease_of_high id split d e rate ch ok hp hf]
  cases boot (released s id split) with
  | none => exact ⟨_, rfl, rfl, (strapped_twinId s id split).2.2.2.trans ha⟩
  | some t =>
    dsimp only
    rw [if_pos hne]
    exact ⟨_, rfl, rfl, rfl⟩

/-! ### Protection without a twin (R260, R370) -/

theorem loseMirror_prot (s : State) : (loseMirror s).cmd.prot = (if s.mem.vaultKind = 2 then 2 else 1) := by
  unfold loseMirror
  split
  · simp
  · split
    · next h => exact h
    · dsimp only
      rw [foldl_keeps (fun u : State => u.cmd) (fun u v => by simp)]
      simp

/-! ### The end of start-up (R353, R370) -/

/-- What the Bindery has recorded of this boot. -/
def bootNotes (s : State) : List ColRec × Bool := (s.bdy.colophon, s.bdy.bootRecord)

theorem bootNotes_of_onlyIn {parts : List Part} {s t : State} (hp : Part.bdy ∉ parts) (h : OnlyIn parts s t) : bootNotes t = bootNotes s :=
  congrArg (fun b : Bdy => (b.colophon, b.bootRecord)) (h.2 .bdy hp)

theorem bootNotes_setMode (s : State) (b m : Nat) : bootNotes (setMode s b m) = bootNotes s := by
  unfold setMode
  extract_lets y s1 u x s2
  split
  · rfl
  · split
    · exact bootNotes_of_onlyIn (by decide) (onlyIn_of_follows (follows_beginHold (T := fun p =>
        ([.cnt, .bays, .ports, .spn, .cells, .units, .axes, .cal] : List Part).contains p) (by decide) (follows_refl s)))
    · split
      · split
        · exact bootNotes_of_onlyIn (s := s1) (by decide) (onlyIn_of_follows (follows_orderUnit (T := fun p =>
            ([.spn, .units] : List Part).contains p) (by decide) (follows_refl s1)))
        · rfl
      · split
        · exact bootNotes_of_onlyIn (by decide) (onlyIn_of_follows (follows_leaveHold (T := fun p =>
            ([.cnt, .bays] : List Part).contains p) (by decide) (follows_refl s)))
        · unfold s2
          split <;> rfl

theorem bootNotes_tableModes (s : State) (mask : Byte) : bootNotes (tableModes s mask) = bootNotes s := by
  refine foldl_keeps bootNotes (fun s b => ?_) _ s
  dsimp only
  split
  · rfl
  · exact bootNotes_setMode ..

theorem bootNotes_confirmSlot (s : State) : bootNotes (confirmSlot s) = bootNotes s := by
  unfold confirmSlot
  split <;> rfl

theorem bootNotes_readyAll (s : State) : bootNotes (readyAll s) = bootNotes s := by
  refine foldl_keeps bootNotes (fun s n => ?_) _ s
  dsimp only
  split
  · exact bootNotes_confirmSlot _
  · rfl

/-- The last entry of a ring of `n` is the one put in last. -/
theorem getLast?_ring {α : Type} (l : List α) (a : α) (n : Nat) (h : 0 < n) : ((l ++ [a]).drop ((l.length + 1) - n)).getLast? = some a := by
  rw [List.getLast?_drop, if_neg (by rw [List.length_append, List.length_singleton]; omega), List.getLast?_concat]

/-- A record written is the Colophon's last. -/
theorem writeColophon_last (s : State) (reason : Nat) :
    ∃ c, (writeColophon s reason).bdy.colophon.getLast? = some c ∧ c.reason = reason := by
  unfold writeColophon
  extract_lets held last c d c'
  refine ⟨c', ?_, rfl⟩
  dsimp only [bump]
  exact getLast?_ring held c' 4096 (by decide)

/-- The boot record is the Colophon's last. -/
theorem bootRecord_last (s : State) :
    (bootRecord s).bdy.bootRecord = true ∧ ∃ c, (bootRecord s).bdy.colophon.getLast? = some c ∧ c.reason = 0 :=
  ⟨by simp only [bootRecord], by simp only [bootRecord]; exact writeColophon_last _ 0⟩

/-- The state in which start-up ends, its record written, before the modes and the controllers. -/
def startRecorded (s : State) : State :=
  let s := bootRecord (restartJournal s)
  { s with pwr := { s.pwr with phase := .running, stage := 11 } }

theorem exec_startupComplete_of_stage {s : State} (hp : s.pwr.phase = .starting) (hh : s.pwr.halted = false) (hr : s.mem.replaying = false)
    (hst : 9 ≤ s.pwr.stage) :
    exec .startupComplete s = .next (readyAll (if (startRecorded s).bnd.fallback then startRecorded s else tableModes (startRecorded s) 0xFF)) :=
  if_neg (by simp [hp, hh, hr, Nat.not_lt.2 hst])

/-! ### The event log's pages (R363) -/

theorem openPage_length_lt (b : Bdy) : (openPage b).length < 32 := by
  unfold openPage
  split
  · split
    · assumption
    · decide
  · decide

/-- A page that is open and not empty is the ring's last. -/
theorem pages_of_openPage {b : Bdy} (h : openPage b ≠ []) : b.pages = b.pages.dropLast ++ [openPage b] := by
  unfold openPage at h ⊢
  split at h
  · next p hp =>
    split at h
    · obtain ⟨l, hl⟩ := List.getLast?_eq_some_iff.1 hp
      next hlt => simp [hl, hlt]
    · exact absurd rfl h
  · exact absurd rfl h

/-- Writing a page files the oldest entries staged: into the open page, else into a new one. -/
theorem writePage_spec {s : State} (hs : s.bdy.staged ≠ []) (hl : s.bdy.pages.length < 2048) :
    (writePage s).bdy.pages.flatten ++ (writePage s).bdy.staged = s.bdy.pages.flatten ++ s.bdy.staged ∧
      (writePage s).bdy.staged.length < s.bdy.staged.length ∧
      (openPage s.bdy = [] → (writePage s).bdy.pages = s.bdy.pages ++ [s.bdy.staged.take 32]) ∧
      (openPage s.bdy ≠ [] →
        (writePage s).bdy.pages = s.bdy.pages.dropLast ++ [openPage s.bdy ++ s.bdy.staged.take (32 - (openPage s.bdy).length)]) := by
  have hlt := openPage_length_lt s.bdy
  have hpos := List.length_pos_iff.2 hs
  have hstaged : (writePage s).bdy.staged = s.bdy.staged.drop (32 - (openPage s.bdy).length) := by
    rw [writePage]
    simp [hs]
  have hempty (h : openPage s.bdy = []) : (writePage s).bdy.pages = s.bdy.pages ++ [s.bdy.staged.take 32] := by
    have h0 : s.bdy.pages.length + 1 - 2048 = 0 := by omega
    simp [writePage, hs, h, h0]
  have hopen (h : openPage s.bdy ≠ []) :
      (writePage s).bdy.pages = s.bdy.pages.dropLast ++ [openPage s.bdy ++ s.bdy.staged.take (32 - (openPage s.bdy).length)] := by
    have h0 : s.bdy.pages.length - 1 + 1 - 2048 = 0 := by omega
    simp [writePage, hs, h, h0]
  refine ⟨?_, ?_, hempty, hopen⟩
  · by_cases h : openPage s.bdy = []
    · rw [hempty h, hstaged, h]
      simp
    · rw [hopen h, hstaged]
      conv_rhs => rw [pages_of_openPage h]
      simp
  · rw [hstaged, List.length_drop]
    omega

/-- Settles O11. -/
theorem startUpRunsInOrder : Obligations.StartUpRunsInOrder := by
  unfold Obligations.StartUpRunsInOrder
  refine ⟨fun s id split d rate ch ok hp hf => resetRelease_of_equal id split d rate ch ok hp hf,
    fun s id split d e rate ch ok hp hf hne ha => resetRelease_of_unequal id split rate ch ok hp hf hne ha,
    fun s hp hh hf => if_pos (by simp [hp, hh, hf]), fun s hp hst hr hh hpair hq => ⟨_, if_pos ?_, ?_, ?_, ?_⟩,
    fun s hp hh hr hst => ⟨_, exec_startupComplete_of_stage hp hh hr hst, ?_⟩, fun s hs hw hl => ⟨_, if_pos hw, ?_, writePage_spec hs hl⟩⟩
  · simp [hp, hst, hr, hh, hpair, hq]
  · simp
  · exact loseMirror_prot _
  · exact onlyIn_of_follows (follows_loseMirror (by decide) (upd_pwr (by decide) (follows_refl s)))
  · have hrec : bootNotes (readyAll (if (startRecorded s).bnd.fallback then startRecorded s else tableModes (startRecorded s) 0xFF)) =
        bootNotes (startRecorded s) := by
      rw [bootNotes_readyAll]
      split
      · rfl
      · exact bootNotes_tableModes ..
    obtain ⟨hb, c, hc, h0⟩ := bootRecord_last (restartJournal s)
    rw [bootNotes, bootNotes, Prod.mk.injEq] at hrec
    obtain ⟨hcol, hflag⟩ := hrec
    refine ⟨?_, hflag.trans hb, ⟨c, by rw [hcol]; exact hc, h0⟩, ?_, ?_⟩
    · split <;> simp [startRecorded]
    · split <;> simp [startRecorded]
    · split <;> simp [startRecorded]
  · exact onlyIn_of_follows (follows_writePage (by decide) (follows_refl s))

end Sys2Proof.Machine
end

section
/-! PROOFS. R31, R35, R36, R40, R400: Binding containers are gathered, checked and staged. -/

namespace Sys2Proof.Machine

/-! ### The end of a check -/

/-- The state with the oldest check taken and its result shown. -/
def checkShown (s : State) (c : Checking) (rest : List Checking) : State :=
  setResult (showCheck { s with bnd := { s.bnd with checking := rest } } (loadChecks s c.bytes c.whole false) (parse c.bytes))
    (checkResult s c (parse c.bytes) (loadChecks s c.bytes c.whole false).code)

/-- Then the container is staged where it passed, and its command completes. -/
def checkEnded (s : State) (c : Checking) (rest : List Checking) : State :=
  let code := checkResult s c (parse c.bytes) (loadChecks s c.bytes c.whole false).code
  let t := if code = 0 then stage (checkShown s c rest) c (parse c.bytes) else checkShown s c rest
  match c.ref with
  | some r => completeCode t r code
  | none => t

theorem exec_bindingCheckDone {s : State} {c : Checking} {rest : List Checking} (h : s.bnd.checking = c :: rest) :
    exec .bindingCheckDone s = .next (if c.armAfter then (arm (checkEnded s c rest) (reg (checkEnded s c rest) .bndCommitStitch)).1
      else checkEnded s c rest) := by
  change execBindingCheckDone s = _
  simp only [execBindingCheckDone, h]
  rfl

/-- The state with another list of checks under way. -/
def withChecks (s : State) (l : List Checking) : State := { s with bnd := { s.bnd with checking := l } }

theorem signedChecks_withChecks (s : State) (l : List Checking) (bs : Bytes) : signedChecks (withChecks s l) bs = signedChecks s bs := rfl

theorem trimChecks_withChecks (s : State) (l : List Checking) (bs : Bytes) (b : Binding) :
    trimChecks (withChecks s l) bs b = trimChecks s bs b := rfl

theorem structChecks_withChecks (s : State) (l : List Checking) (bs : Bytes) (b : Binding) :
    structChecks (withChecks s l) bs b = structChecks s bs b := by
  have hl : limitOk (withChecks s l) b.limits = limitOk s b.limits := rfl
  have hc : controllers (withChecks s l) = controllers s := rfl
  simp only [structChecks, hl, hc]

/-- The load checks do not read the checks under way. -/
theorem loadChecks_withChecks (s : State) (l : List Checking) (bs : Bytes) (whole : Bool) :
    loadChecks (withChecks s l) bs whole false = loadChecks s bs whole false := by
  unfold loadChecks
  simp only [signedChecks_withChecks, trimChecks_withChecks, structChecks_withChecks]

theorem checkResult_withChecks (s : State) (l : List Checking) (c : Checking) (b : Binding) (code : Nat) :
    checkResult (withChecks s l) { c with armAfter := true } b code = checkResult s c b code := rfl

theorem checkShown_armAfter (s : State) (c : Checking) (l rest : List Checking) :
    checkShown (withChecks s l) { c with armAfter := true } rest = checkShown s c rest := by
  unfold checkShown
  rw [loadChecks_withChecks, checkResult_withChecks]
  rfl

theorem stage_armAfter (s : State) (c : Checking) (b : Binding) : stage s { c with armAfter := true } b = stage s c b := rfl

/-- Whether an arming waits for the end changes nothing of the check. -/
theorem checkEnded_armAfter (s : State) (c : Checking) (l rest : List Checking) :
    checkEnded (withChecks s l) { c with armAfter := true } rest = checkEnded s c rest := by
  unfold checkEnded
  rw [checkShown_armAfter, loadChecks_withChecks, checkResult_withChecks, stage_armAfter]

/-- What a check shows, and what it leaves of the containers. -/
theorem checkShown_bnd (s : State) (c : Checking) (rest : List Checking) :
    let v := loadChecks s c.bytes c.whole false
    let t := checkShown s c rest
    t.bnd.checking = rest ∧ t.bnd.lastResult = checkResult s c (parse c.bytes) v.code ∧ t.bnd.detCode = v.code ∧
      t.bnd.detSection = v.section_ ∧ t.bnd.detRecord = v.record ∧ t.bnd.active = s.bnd.active ∧ t.bnd.structural = s.bnd.structural ∧
      t.bnd.trim = s.bnd.trim := by
  dsimp only [checkShown, showCheck, setResult]
  split <;> exact ⟨rfl, rfl, rfl, rfl, rfl, rfl, rfl, rfl⟩

theorem completeCode_bnd (s : State) (r : CmdRef) (code : Nat) : (completeCode s r code).bnd = s.bnd := by simp [completeCode]

theorem send_bnd (s : State) (m : SpineMsg) : (send s m).bnd = s.bnd := by simp

/-- A container that is staged takes its own place and no other. -/
theorem stage_bnd (s : State) (c : Checking) (b : Binding) :
    (stage s c b).bnd = (if b.trim then { s.bnd with trim := some { bytes := c.bytes, parsed := b, peer := c.fromPeer } }
      else { s.bnd with structural := some { bytes := c.bytes, parsed := b, peer := c.fromPeer }, affected := affectedBays s b }) := by
  unfold stage
  rw [send_bnd]
  split <;> rfl

theorem checkEnded_bnd (s : State) (c : Checking) (rest : List Checking) :
    (checkEnded s c rest).bnd = (if checkResult s c (parse c.bytes) (loadChecks s c.bytes c.whole false).code = 0
      then (stage (checkShown s c rest) c (parse c.bytes)).bnd else (checkShown s c rest).bnd) := by
  dsimp only [checkEnded]
  split
  · rw [completeCode_bnd, apply_ite State.bnd]
  · rw [apply_ite State.bnd]

/-- A register's value is that of the store, the overrides and the active Binding. -/
theorem reg_congr {s t : State} (hr : t.regs = s.regs) (ho : t.bdy.overrides = s.bdy.overrides) (ha : t.bnd.active = s.bnd.active)
    (id : RegId) (i : Nat) : reg t id i = reg s id i := by
  unfold reg regDefault
  rw [hr, ho, ha]

theorem checkEnded_active (s : State) (c : Checking) (rest : List Checking) : (checkEnded s c rest).bnd.active = s.bnd.active := by
  have h := (checkShown_bnd s c rest).2.2.2.2.2.1
  rw [checkEnded_bnd, stage_bnd]
  split
  · split <;> exact h
  · exact h

/-- The arming that waits reads the commit stitch that stood before the check. -/
theorem reg_checkEnded (s : State) (c : Checking) (rest : List Checking) :
    reg (checkEnded s c rest) .bndCommitStitch = reg s .bndCommitStitch := by
  have hf : OnlyIn [.free, .out, .hiu, .bnd] s (checkEnded s c rest) := by
    refine onlyIn_of_follows ?_
    have h0 : Follows (fun p => ([.free, .out, .hiu, .bnd] : List Part).contains p) s (checkShown s c rest) :=
      follows_setResult (by decide) (follows_showCheck (by decide) (upd_bnd (by decide) rfl (follows_refl s)))
    have h1 := follows_ite (p := checkResult s c (parse c.bytes) (loadChecks s c.bytes c.whole false).code = 0)
      (follows_stage (a1 := c) (a2 := parse c.bytes) (by decide) h0) h0
    dsimp only [checkEnded]
    split
    · exact follows_completeCode (by decide) h1
    · exact h1
  have hr : (checkEnded s c rest).regs = s.regs := hf.2 .regs (by decide)
  have hb : (checkEnded s c rest).bdy = s.bdy := hf.2 .bdy (by decide)
  exact reg_congr hr (congrArg Bdy.overrides hb) (checkEnded_active s c rest) _ _

/-- Settles O16. -/
theorem bindingContainersAreCheckedAndStaged : Obligations.BindingContainersAreCheckedAndStaged := by
  unfold Obligations.BindingContainersAreCheckedAndStaged
  refine ⟨fun s r offset chunk last hl hc hx => ?_, fun s r offset chunk last hl h => ?_, fun s hs => if_neg (by simp [hs]),
    fun s c rest hck harm => ?_, fun s h => ?_, fun s hs => if_neg (by simp [hs])⟩
  · have hopen : ¬ (chunk.length % 8 ≠ 0 ∨ (offset ≠ 0 ∧ s.bnd.xfer = none)) := by
      rintro (h | ⟨h0, hn⟩)
      · exact h hc
      · exact hx.elim h0 (fun h => h hn)
    have hxs : (if offset = 0 then [(0, chunk)] else (s.bnd.xfer.getD []) ++ [(offset.toNat, chunk)]) =
        (if offset = 0 then [] else s.bnd.xfer.getD []) ++ [(offset.toNat, chunk)] := by
      split
      · next h => rw [h]; rfl
      · rfl
    refine ⟨fun hp => ?_, fun hp hla => ⟨_, ?_, hxs⟩, fun hp hla => ⟨_, ?_, hxs⟩⟩
    · exact (if_neg (by simp [hl])).trans ((if_neg hopen).trans (if_pos (by simp [hp])))
    · exact (if_neg (by simp [hl])).trans ((if_neg hopen).trans ((if_neg (by simp [hp])).trans (if_neg (by simp [hla]))))
    · exact (if_neg (by simp [hl])).trans ((if_neg hopen).trans ((if_neg (by simp [hp])).trans (if_pos hla)))
  · exact (if_neg (by simp [hl])).trans (if_pos h)
  · obtain ⟨h1, h2, h3, h4, h5, h6, h7, h8⟩ := checkShown_bnd s c rest
    intro v b twin busy code
    have hcode : checkResult s c b v.code = code := by
      dsimp only [checkResult, code, twin, busy]
    have hb := checkEnded_bnd s c rest
    rw [hcode] at hb
    refine ⟨checkEnded s c rest, (exec_bindingCheckDone hck).trans (congrArg _ (if_neg (by simp [harm]))), ?_⟩
    have hlast : exec .bindingCheckDone { s with bnd := { s.bnd with checking := { c with armAfter := true } :: rest } } =
        .next (arm (checkEnded s c rest) (reg s .bndCommitStitch)).1 := by
      refine (exec_bindingCheckDone (s := withChecks s ({ c with armAfter := true } :: rest)) (c := { c with armAfter := true }) rfl).trans ?_
      rw [if_pos rfl, checkEnded_armAfter, reg_checkEnded]
    rw [hb]
    by_cases h0 : code = 0
    · have hs := stage_bnd (checkShown s c rest) c b
      rw [if_pos h0, hs]
      cases ht : b.trim with
      | true =>
        rw [if_pos rfl]
        exact ⟨h1, h2.trans hcode, h3, h4, h5, h6, fun hn => absurd h0 hn, fun _ _ => ⟨h7, rfl⟩, fun _ hn => absurd hn (by decide), hlast⟩
      | false =>
        rw [if_neg (by decide)]
        have haff : affectedBays (checkShown s c rest) b = affectedBays s b := by
          unfold affectedBays
          rw [h6]
        exact ⟨h1, h2.trans hcode, h3, h4, h5, h6, fun hn => absurd h0 hn, fun _ hn => absurd hn (by decide), fun _ _ => ⟨h8, haff, rfl⟩, hlast⟩
    · rw [if_neg h0]
      exact ⟨h1, h2.trans hcode, h3, h4, h5, h6, fun _ => ⟨h7, h8⟩, fun hn => absurd hn h0, fun hn => absurd hn h0, hlast⟩
  · change execBindingCheckDone s = _
    simp only [execBindingCheckDone, h]

end Sys2Proof.Machine
end

section
/-! PROOFS. R35 to R40: Bindings are armed, time out and commit. -/

namespace Sys2Proof.Machine

/-! ### Containers that are dropped, packets that are sent -/

/-- A list of packets over a link that is up goes out in its order. -/
theorem foldl_send {α : Type} (f : α → SpineMsg) (l : List α) (s : State) :
    (l.foldl (fun s x => send s (f x)) s).bnd = s.bnd ∧
      (s.spn.link = 2 → (∀ (t : State) x, classOf t (f x) = 3) →
        (l.foldl (fun s x => send s (f x)) s).out = s.out ++ l.map (fun x => { cls := 3, msg := f x })) := by
  refine ⟨foldl_keeps State.bnd (fun _ _ => send_bnd ..) l s, fun hl hc => ?_⟩
  induction l generalizing s with
  | nil => simp
  | cons x l ih =>
    have hs : (send s (f x)).spn.link = 2 := by simp [hl]
    rw [List.foldl_cons, ih (send s (f x)) hs, send_out, if_pos hl, hc]
    simp

theorem dropWhere_bnd (s : State) (p : Staged → Bool) :
    (dropWhere s p).bnd.structural = s.bnd.structural.filter (fun x => !p x) ∧ (dropWhere s p).bnd.trim = s.bnd.trim.filter (fun x => !p x) ∧
      (dropWhere s p).bnd.active = s.bnd.active ∧ (dropWhere s p).out = s.out ∧ (dropWhere s p).spn = s.spn := by
  have hfilter (o : Option Staged) (h : o.any p = true) : o.filter (fun x => !p x) = none := by
    cases o with
    | none => rfl
    | some x => simpa [Option.filter] using h
  have hkeep (o : Option Staged) (h : ¬ o.any p = true) : o.filter (fun x => !p x) = o := by
    cases o with
    | none => rfl
    | some x => simpa [Option.filter] using h
  unfold dropWhere
  by_cases hs : s.bnd.structural.any p = true <;> by_cases ht : s.bnd.trim.any p = true <;>
    simp [hs, ht, dropStruct, dropTrim, hfilter, hkeep]

theorem dropWhere_lastResult (s : State) (p : Staged → Bool) : (dropWhere s p).bnd.lastResult = s.bnd.lastResult := by
  dsimp only [dropWhere]
  split <;> split <;> rfl

/-! ### Arming -/

/-- The stitch that an arming takes. -/
def armStitch (s : State) (commit : Nat) : Nat := if commit = 0 then now s + 256 else commit

/-- The container waits to be armed. -/
def waits (x : Option Staged) : Bool := x.any (fun y => y.armed.isNone)

/-- Both kinds of container, those staged here. -/
def stagedAll (s : State) : List Staged := s.bnd.structural.toList ++ s.bnd.trim.toList

/-- Every container staged is armed for a stitch. -/
def allArmed (s : State) (k : Nat) : State :=
  let s := setResult s 0
  { s with bnd := { s.bnd with structural := armOne k s.bnd.structural, trim := armOne k s.bnd.trim } }

theorem arm_eq (s : State) (commit : Nat) :
    arm s commit = (let k := armStitch s commit
      let code := armCode s k
      if code = 0 then ((stagedAll (allArmed s k)).foldl (fun s x => send s (.mgmt (stageNote x))) (allArmed s k), 0)
      else if code = 0x0C then
        (((stagedAll (setResult s code)).filter (fun x => x.armed.isNone)).foldl (fun s x => send s (.mgmt (.dropBinding x.parsed.digest)))
          (dropWhere (setResult s code) (fun x => x.armed.isNone)), code)
      else (setResult s code, code)) := by
  dsimp only [arm, armStitch]
  by_cases h0 : armCode s (if commit = 0 then now s + 256 else commit) = 0
  · rw [if_pos h0, if_pos h0, h0]
    rfl
  · rw [if_neg h0, if_neg h0]
    rfl

/-- The result shown is the arming's. -/
theorem arm_result (s : State) (commit : Nat) : (arm s commit).1.bnd.lastResult = (arm s commit).2 := by
  rw [arm_eq]
  dsimp only
  split
  · rw [(foldl_send (fun x => .mgmt (stageNote x)) _ _).1]
    rfl
  · split
    · rw [(foldl_send (fun (x : Staged) => .mgmt (.dropBinding x.parsed.digest)) _ _).1]
      exact dropWhere_lastResult ..
    · rfl

/-- A refusal other than PAIR shows its result and does nothing else. -/
theorem arm_of_refused {s : State} {commit code : Nat} (h : armCode s (armStitch s commit) = code) (h0 : code ≠ 0) (hc : code ≠ 0x0C) :
    (arm s commit).1 = setResult s code := by
  rw [arm_eq]
  dsimp only
  rw [h, if_neg h0, if_neg hc]

/-- PAIR drops what waits. -/
theorem arm_of_pair {s : State} {commit : Nat} (h : armCode s (armStitch s commit) = 0x0C) :
    (arm s commit).1.bnd = (dropWhere (setResult s 0x0C) (fun x => x.armed.isNone)).bnd := by
  rw [arm_eq]
  dsimp only
  rw [h, if_neg (by decide), if_pos rfl]
  exact (foldl_send (fun (x : Staged) => .mgmt (.dropBinding x.parsed.digest)) _ _).1

/-- A good arming arms all and tells the twin of each. -/
theorem arm_of_good {s : State} {commit : Nat} (h : armCode s (armStitch s commit) = 0) :
    (arm s commit).1.bnd = (allArmed s (armStitch s commit)).bnd ∧
      (s.spn.link = 2 → (arm s commit).1.out = s.out ++ (stagedAll (allArmed s (armStitch s commit))).map
        (fun x => { cls := 3, msg := .mgmt (stageNote x) })) := by
  rw [arm_eq]
  dsimp only
  rw [h, if_pos rfl]
  obtain ⟨hb, ho⟩ := foldl_send (fun x => .mgmt (stageNote x)) (stagedAll (allArmed s (armStitch s commit))) (allArmed s (armStitch s commit))
  exact ⟨hb, fun hl => ho hl (fun _ _ => rfl)⟩

theorem armOne_eq (k : Nat) (x : Option Staged) : armOne k x = x.map (fun y => { y with armed := some (y.armed.getD k) }) := by
  refine congrArg (Option.map · x) (funext fun y => ?_)
  cases h : y.armed with
  | none => simp
  | some a =>
    simp only [Option.isSome_some, if_true, Option.getD_some]
    rw [← h]

/-! ### The order of the refusals -/

section
variable {s : State} {k : Nat}

theorem armCode_of_none (hs : waits s.bnd.structural = false) (ht : waits s.bnd.trim = false) : armCode s k = 0x0E := by
  unfold waits at hs ht
  simp [armCode, hs, ht]

variable (hw : waits s.bnd.structural = true ∨ waits s.bnd.trim = true)
include hw

theorem armCode_of_waiting : armCode s k =
    if k < now s + 256 then 0x0A else if waits s.bnd.structural && !readHold s s.bnd.affected then 0x0B else if !pairUp s then 0x0C else 0 := by
  refine if_neg ?_
  unfold waits at hw
  rcases hw with h | h <;> simp [h]

theorem armCode_of_early (hk : k < now s + 256) : armCode s k = 0x0A := (armCode_of_waiting hw).trans (if_pos hk)

theorem armCode_of_running (hk : now s + 256 ≤ k) (hs : waits s.bnd.structural = true) (hh : readHold s s.bnd.affected = false) :
    armCode s k = 0x0B := (armCode_of_waiting hw).trans ((if_neg (Nat.not_lt.2 hk)).trans (if_pos (by simp [hs, hh])))

theorem armCode_of_held (hk : now s + 256 ≤ k) (hh : waits s.bnd.structural = true → readHold s s.bnd.affected = true) :
    armCode s k = if !pairUp s then 0x0C else 0 := by
  refine (armCode_of_waiting hw).trans ((if_neg (Nat.not_lt.2 hk)).trans (if_neg ?_))
  cases hs : waits s.bnd.structural with
  | false => simp
  | true => simp [hh hs]

end

/-- The containers that wait go, the armed ones stay. -/
theorem filter_waits (x : Option Staged) :
    waits (x.filter (fun y => !y.armed.isNone)) = false ∧ (waits x = false → x.filter (fun y => !y.armed.isNone) = x) := by
  cases x with
  | none => exact ⟨rfl, fun _ => rfl⟩
  | some y => cases h : y.armed <;> simp [waits, Option.filter, h]

theorem pairUp_link {s : State} (h : pairUp s = true) : s.spn.link = 2 := by
  simp only [pairUp, Bool.and_eq_true, beq_iff_eq] at h
  exact h.1.1.1

/-- Settles O17. -/
theorem bindingsArmForAStitch : Obligations.BindingsArmForAStitch := by
  unfold Obligations.BindingsArmForAStitch
  refine ⟨fun s hs => ?_, fun s r c => ⟨fun h => if_pos h, fun h => if_pos h⟩, ?_, ?_⟩
  · intro commit k wt
    have hk : armStitch s commit = k := rfl
    have hset (c : Nat) (h : armCode s k = c) (h0 : c ≠ 0) (hc : c ≠ 0x0C) :
        (arm s commit).1 = { s with bnd := { s.bnd with lastResult := c } } := arm_of_refused h h0 hc
    refine ⟨(arm s commit).1, if_neg (by simp [hs]), onlyIn_of_follows (follows_arm (by decide) (follows_refl s)), fun r c hc hl => ?_,
      fun h1 h2 => hset 0x0E (armCode_of_none h1 h2) (by decide) (by decide), fun hw => ⟨fun h => hset 0x0A (armCode_of_early hw h) (by decide) (by decide),
        fun h h1 h2 => hset 0x0B (armCode_of_running hw h h1 h2) (by decide) (by decide), fun h hh hp => ?_, fun h hh hp => ?_⟩⟩
    · rw [arm_result]
      refine (if_neg (by simp [hl])).trans ?_
      rw [hc]
    · have hcode : armCode s (armStitch s commit) = 0x0C := (armCode_of_held hw h hh).trans (if_pos (by simp [hp]))
      obtain ⟨d1, d2, -⟩ := dropWhere_bnd (setResult s 0x0C) (fun x => x.armed.isNone)
      have hb := arm_of_pair hcode
      have hres : (arm s commit).1.bnd.lastResult = 0x0C := by
        rw [arm_result, arm_eq]
        dsimp only
        rw [hcode, if_neg (by decide), if_pos rfl]
      refine ⟨hres, ?_⟩
      rw [hb, d1, d2]
      exact ⟨(filter_waits _).1, (filter_waits _).1, (filter_waits _).2, (filter_waits _).2⟩
    · have hcode : armCode s (armStitch s commit) = 0 := (armCode_of_held hw h hh).trans (if_neg (by simp [hp]))
      obtain ⟨hb, ho⟩ := arm_of_good hcode
      refine ⟨by rw [hb]; rfl, by rw [hb]; exact armOne_eq .., by rw [hb]; exact armOne_eq .., ?_⟩
      rw [ho (pairUp_link hp), hb]
      rfl
  · intro s late h
    have hne : (stagedAll s).filter late ≠ [] := by
      rcases h with h | h <;> obtain ⟨x, hx, hl⟩ := (Option.any_eq_true _ _).1 h
      · exact List.ne_nil_of_mem (List.mem_filter.2 ⟨List.mem_append_left _ (by simp [hx]), hl⟩)
      · exact List.ne_nil_of_mem (List.mem_filter.2 ⟨List.mem_append_right _ (by simp [hx]), hl⟩)
    obtain ⟨d1, d2, d3, d4, d5⟩ := dropWhere_bnd s late
    obtain ⟨hb, ho⟩ := foldl_send (fun (x : Staged) => .mgmt (.dropBinding x.parsed.digest)) ((stagedAll s).filter late) (setResult (dropWhere s late) 0x0C)
    refine ⟨_, if_neg hne, (congrArg Bnd.lastResult hb).trans rfl, (congrArg Bnd.structural hb).trans d1, (congrArg Bnd.trim hb).trans d2,
      (congrArg Bnd.active hb).trans d3, ?_, fun hl => ?_⟩
    · refine onlyIn_of_follows (follows_foldl (follows_setResult (by decide) (follows_dropWhere (by decide) (follows_refl s))) ?_)
      exact fun u x hu => follows_send (by decide) hu
    · have h2 := ho (by rw [show (setResult (dropWhere s late) 0x0C).spn = s.spn from d5]; exact hl) (fun _ _ => rfl)
      refine (congrArg List.length h2).trans ?_
      rw [List.length_append, List.length_map, show (setResult (dropWhere s late) 0x0C).out = s.out from d4]
      rfl
  · intro s late hs ht
    refine if_pos (List.filter_eq_nil_iff.2 (fun x hx hl => ?_))
    rcases List.mem_append.1 hx with hx | hx
    · exact Bool.false_ne_true (hs.symm.trans ((Option.any_eq_true _ _).2 ⟨x, by simpa using hx, hl⟩))
    · exact Bool.false_ne_true (ht.symm.trans ((Option.any_eq_true _ _).2 ⟨x, by simpa using hx, hl⟩))

end Sys2Proof.Machine
end

section
/-! PROOFS. R27, R37 to R40, R51: trims and structural Bindings commit at their stitch. -/

namespace Sys2Proof.Machine

/-! ### The trim -/

/-- The state with a trim's words in force. -/
def trimApplied (s : State) (x : Staged) (k : Nat) : State :=
  { s with
    cells := mapT (fun n (c : Cell) => if c.named then { c with coef := trimWords x.parsed.trims n c.coef } else c) s.cells
    bnd := { s.bnd with
      active := s.bnd.active.map (fun b => trimmed b x.parsed.trims), trim := none, trimStitch := k, trimDigest := x.parsed.digest } }

theorem exec_trimCommit_of_armed {s : State} {x : Staged} (hx : s.bnd.trim = some x) (ha : x.armed = some (now s)) (hp : x.peer = true)
    (hs : s.bnd.structural.any (fun y => y.armed == some (now s)) = false) (hu : pairUp s = true) :
    exec .trimCommit s = .next (writeColophon (raiseFloor (reaffect (trimApplied s x (now s))) x.parsed.secver) 3) := by
  have hc : trimCommits s = true := by
    unfold trimCommits
    rw [hx, hs]
    simp [ha, hp]
  change execTrimCommit s = _
  simp only [execTrimCommit, hx, ha, hc, hu]
  rfl

theorem exec_trimCommit_of_other {s : State} (h : ∀ x, s.bnd.trim = some x → x.armed ≠ some (now s)) : exec .trimCommit s = .next s := by
  change execTrimCommit s = _
  unfold execTrimCommit
  split
  · rfl
  · next x hx =>
    split
    · rfl
    · refine if_pos ?_
      simp [trimCommits, hx, h x hx]

theorem cellAt_trimApplied (s : State) (x : Staged) (k n : Nat) :
    cellAt (trimApplied s x k) n = if (cellAt s n).named then
      { cellAt s n with coef := trimWords x.parsed.trims n (cellAt s n).coef } else cellAt s n := by
  unfold cellAt trimApplied getD
  rw [look_mapT]
  cases look s.cells n <;> rfl

/-- A staged structural Binding is measured anew; nothing else of the Binding state changes. -/
theorem reaffect_bnd (s : State) : (reaffect s).bnd = { s.bnd with affected := (reaffect s).bnd.affected } ∧
    (s.bnd.structural = none → (reaffect s).bnd.affected = s.bnd.affected) := by
  unfold reaffect
  cases s.bnd.structural with
  | none => exact ⟨rfl, fun _ => rfl⟩
  | some y => exact ⟨rfl, fun h => absurd h (by simp)⟩

/-! ### The cells of a structural Binding -/

/-- Entries put into a table, one after the other. -/
def insAll (t : Tbl Cell) (l : Tbl Cell) : Tbl Cell := l.foldl (fun t e => ins t e.1 e.2) t

theorem look_insAll_of_notMem {l t : Tbl Cell} {n : Nat} (h : ∀ c, (n, c) ∉ l) : look (insAll t l) n = look t n := by
  induction l generalizing t with
  | nil => rfl
  | cons e l ih =>
    have hne : e.1 ≠ n := fun he => h e.2 (by rw [← he]; exact List.mem_cons_self ..)
    refine (ih (fun c hc => h c (List.mem_cons_of_mem _ hc))).trans ?_
    rw [look_ins, if_neg hne]

theorem look_insAll_of_mem {l t : Tbl Cell} {n : Nat} (h : ∃ c, (n, c) ∈ l) : ∃ c, look (insAll t l) n = some c ∧ (n, c) ∈ l := by
  induction l generalizing t with
  | nil => exact absurd h (by simp)
  | cons e l ih =>
    by_cases hl : ∃ c, (n, c) ∈ l
    · obtain ⟨c, hc, hm⟩ := ih (t := ins t e.1 e.2) hl
      exact ⟨c, hc, List.mem_cons_of_mem _ hm⟩
    · obtain ⟨c, hc⟩ := h
      have he : (n, c) = e := (List.mem_cons.1 hc).resolve_right (fun x => hl ⟨c, x⟩)
      refine ⟨c, ?_, hc⟩
      refine (look_insAll_of_notMem (fun d hd => hl ⟨d, hd⟩)).trans ?_
      rw [← he, look_ins, if_pos rfl]

theorem mem_ins {t : Tbl Cell} {k : Nat} {v : Cell} {e : Nat × Cell} (h : e ∈ ins t k v) : e = (k, v) ∨ e ∈ t := by
  obtain ⟨l, m, hlm, hin⟩ := ins_eq_append t k v
  rw [hlm] at h
  simp only [List.mem_append, List.mem_cons] at h hin
  rcases h with h | h | h
  · exact .inr (hin e (.inl h))
  · exact .inl h
  · exact .inr (hin e (.inr h))

theorem mem_insAll {l t : Tbl Cell} {e : Nat × Cell} (h : e ∈ insAll t l) : e ∈ l ∨ e ∈ t := by
  induction l generalizing t with
  | nil => exact .inr h
  | cons d l ih =>
    rcases ih h with h | h
    · exact .inl (List.mem_cons_of_mem _ h)
    · rcases mem_ins h with h | h
      · exact .inl (h ▸ List.mem_cons_self ..)
      · exact .inr h

/-- What a table gives for a key stands where the entries that go are others. -/
theorem look_filter_value {t : Tbl Cell} {p : Cell → Bool} {n : Nat} (h : ∀ c, look t n = some c → p c = true) :
    look (t.filter (fun e => p e.2)) n = look t n := by
  induction t with
  | nil => rfl
  | cons e t ih =>
    obtain ⟨a, c⟩ := e
    by_cases ha : a = n
    · have hp : p c = true := h c (by simp [look, ha])
      simp [hp, look, ha]
    · have ih := ih (fun d hd => h d (by simpa [look, ha] using hd))
      by_cases hp : p c = true
      · simp [hp, look, ha, ih]
      · simp [hp, look, ha, ih]

/-- The cells that a structural Binding brings to the bays it affects. -/
def freshCells (b : Binding) (mask : Byte) : Tbl Cell := (baysIn mask).flatMap (bayCellsOf b)

theorem installCells_cells (s : State) (b : Binding) (mask : Byte) :
    (installCells s b mask).cells = insAll (s.cells.filter (fun e => !mask.getLsbD (e.2.opu / 2))) (freshCells b mask) := rfl

theorem cellAt_of_look {s t : State} {n : Nat} (h : look t.cells n = look s.cells n) : cellAt t n = cellAt s n := by
  unfold cellAt getD
  rw [h]

/-- The cells of the affected bays are the fresh ones, the others stand. -/
theorem installed {s t : State} {b : Binding} {mask : Byte} (h : t.cells = (installCells s b mask).cells) :
    (∀ n, (∃ c, (n, c) ∈ freshCells b mask) → (n, cellAt t n) ∈ freshCells b mask) ∧
      (∀ n, (∀ c, (n, c) ∉ freshCells b mask) → mask.getLsbD ((cellAt s n).opu / 2) = false → cellAt t n = cellAt s n) ∧
      (∀ e ∈ t.cells, mask.getLsbD (e.2.opu / 2) = true → e ∈ freshCells b mask) := by
  rw [installCells_cells] at h
  refine ⟨fun n hn => ?_, fun n hn hm => ?_, fun e he hm => ?_⟩
  · obtain ⟨c, hc, hmem⟩ := look_insAll_of_mem (t := s.cells.filter (fun e => !mask.getLsbD (e.2.opu / 2))) hn
    rw [cellAt, getD, h, hc]
    exact hmem
  · refine cellAt_of_look ?_
    rw [h, look_insAll_of_notMem hn]
    refine look_filter_value (p := fun c => !mask.getLsbD (c.opu / 2)) (fun c hc => ?_)
    rw [cellAt, getD, hc] at hm
    simpa using hm
  · rw [h] at he
    refine (mem_insAll he).resolve_right (fun hk => ?_)
    have := (List.mem_filter.1 hk).2
    simp [hm] at this

/-! ### The modes that follow -/

/-- A mode set for a bay at rest in Hold changes no cell and no other bay. -/
theorem setMode_of_resting {s : State} {b : Nat} (m : Nat) (hm : (bayAt s b).mode = 5) (he : (bayAt s b).holdEntry = false) :
    (setMode s b m).cells = s.cells ∧ ∀ k, k ≠ b → bayAt (setMode s b m) k = bayAt s k := by
  unfold setMode
  extract_lets y s1 u x s2
  split
  · exact ⟨rfl, fun _ _ => rfl⟩
  · split
    · rw [beginHold]
      dsimp only
      rw [if_pos ⟨hm, by simp [he]⟩]
      exact ⟨rfl, fun k hk => by rw [bayAt_setBay, if_neg hk.symm]⟩
    · rw [if_neg (show ¬ y.holdEntry = true by simp [y, he]), leaveHold]
      exact ⟨rfl, fun k hk => by rw [bayAt_bump, bayAt_setBay, if_neg hk.symm]⟩

theorem tableModes_of_resting {s : State} {mask : Byte} (h : ∀ b ∈ baysIn mask, (bayAt s b).mode = 5 ∧ (bayAt s b).holdEntry = false) :
    (tableModes s mask).cells = s.cells := by
  have key (l : List Nat) (hnd : l.Nodup) (t : State) (ht : ∀ b ∈ l, (bayAt t b).mode = 5 ∧ (bayAt t b).holdEntry = false) :
      (l.foldl (fun s b =>
        let m := (modeRec s b).mode
        if (bayAt s b).runtime ∨ (bayAt s b).safeStop ∨ (m ≠ 5 ∧ !discIn s b) then s else setMode s b m) t).cells = t.cells := by
    induction l generalizing t with
    | nil => rfl
    | cons b l ih =>
      obtain ⟨hb, hnd⟩ := List.nodup_cons.1 hnd
      obtain ⟨hm, he⟩ := ht b (List.mem_cons_self ..)
      obtain ⟨hc, ho⟩ := setMode_of_resting (modeRec t b).mode hm he
      rw [List.foldl_cons]
      dsimp only
      split
      · exact ih hnd t (fun k hk => ht k (List.mem_cons_of_mem _ hk))
      · refine (ih hnd _ (fun k hk => ?_)).trans hc
        rw [ho k (fun e => hb (e ▸ hk))]
        exact ht k (List.mem_cons_of_mem _ hk)
  exact key _ (List.nodup_range.filter _) s h

/-! ### The structural Binding -/

theorem orphanTrim_spec (s : State) :
    (orphanTrim s).cells = s.cells ∧ (orphanTrim s).kst = s.kst ∧ (orphanTrim s).bnd = { s.bnd with trim := none } := by
  unfold orphanTrim
  cases h : s.bnd.trim with
  | none =>
    refine ⟨rfl, rfl, ?_⟩
    rw [if_neg (by simp), ← h]
  | some x => exact ⟨rfl, rfl, rfl⟩

/-- The state with a structural Binding active, before its cells stand. -/
def madeActive (s : State) (b : Binding) (bytes : Bytes) (source : Nat) : State :=
  { s with bnd := { s.bnd with active := some b, actBytes := bytes, source := source, structural := none, affected := 0 } }

theorem activate_spec (s : State) (b : Binding) (bytes : Bytes) (source : Nat) (mask : Byte) :
    (activate s b bytes source mask).bnd =
        { s.bnd with active := some b, actBytes := bytes, source := source, structural := none, affected := 0, trim := none } ∧
      (activate s b bytes source mask).kst = { s.kst with bndFloor := blow s.kst.bndFloor (min b.secver 255) } ∧
      ((∀ k ∈ baysIn mask, (bayAt s k).mode = 5 ∧ (bayAt s k).holdEntry = false) →
        (activate s b bytes source mask).cells = (installCells s b mask).cells) := by
  obtain ⟨hc, hk, hb⟩ := orphanTrim_spec (tableModes (raiseFloor (installCells (madeActive s b bytes source) b mask) b.secver) mask)
  refine ⟨hb.trans ?_, hk.trans ?_, fun h => hc.trans ?_⟩
  · simp [raiseFloor, installCells, madeActive]
  · simp [raiseFloor, installCells, madeActive]
  · exact tableModes_of_resting h

theorem exec_structuralCommit_of_armed {s : State} {x : Staged} (hx : s.bnd.structural = some x) (ha : x.armed = some (now s))
    (hp : x.peer = true) :
    exec .structuralCommit s = (if !pairUp s then .next (loseArmed s)
      else if !readHold s s.bnd.affected then .next (setResult (dropStruct s) 0x0B)
      else .next (writeColophon (activate s x.parsed x.bytes 2 s.bnd.affected) 2)) := by
  change execStructuralCommit s = _
  simp only [execStructuralCommit, hx, ha, hp]
  exact if_neg (by simp)

theorem exec_structuralCommit_of_other {s : State} (h : ∀ x, s.bnd.structural = some x → x.armed ≠ some (now s)) :
    exec .structuralCommit s = .next s := by
  change execStructuralCommit s = _
  unfold execStructuralCommit
  split
  · rfl
  · next x hx =>
    split
    · rfl
    · next k hk => exact if_pos (.inl (fun e => h x hx (by rw [hk, e])))

theorem loseArmed_of_armed {s : State} {x : Staged} (hx : s.bnd.structural = some x) (ha : x.armed = some (now s)) :
    loseArmed s = setResult (dropBoth s) 0x0C := if_pos (by simp [hx, ha])

theorem writeColophon_keeps (s : State) (r : Nat) :
    (writeColophon s r).bnd = s.bnd ∧ (writeColophon s r).kst = s.kst ∧ (writeColophon s r).cells = s.cells := by simp

/-- Settles O18. -/
theorem bindingsCommitAtTheirStitch : Obligations.BindingsCommitAtTheirStitch := by
  unfold Obligations.BindingsCommitAtTheirStitch
  refine ⟨fun s x hx ha hp hu hs => ?_, fun s x hx ha hp hu hh => ?_, fun s x hx ha hp hu hh => ?_, fun s h => exec_trimCommit_of_other h,
    fun s h => exec_structuralCommit_of_other h, fun s x hx ha hp hu => ?_⟩
  · have hexec := exec_trimCommit_of_armed hx ha hp hs hu
    obtain ⟨wb, wk, wc⟩ := writeColophon_keeps (raiseFloor (reaffect (trimApplied s x (now s))) x.parsed.secver) 3
    obtain ⟨rb, ra⟩ := reaffect_bnd (trimApplied s x (now s))
    have hrc : (reaffect (trimApplied s x (now s))).cells = (trimApplied s x (now s)).cells ∧
        (reaffect (trimApplied s x (now s))).kst = s.kst := by
      unfold reaffect
      split <;> exact ⟨rfl, rfl⟩
    refine ⟨_, hexec, fun n => ?_, ?_, fun h => ?_, ?_, writeColophon_last _ 3, everyCommandStaysInItsReach .trimCommit s _ hexec⟩
    · exact (congrArg (fun t => getD t ({} : Cell) n) (wc.trans hrc.1)).trans (cellAt_trimApplied s x (now s) n)
    · rw [wb]
      exact rb
    · rw [wb]
      exact ra h
    · rw [wk]
      exact congrArg (fun k : Kst => { k with bndFloor := blow k.bndFloor (min x.parsed.secver 255) }) hrc.2
  · exact (exec_structuralCommit_of_armed hx ha hp).trans ((if_neg (by simp [hu])).trans (if_pos (by simp [hh])))
  · intro fresh
    obtain ⟨ab, ak, ac⟩ := activate_spec s x.parsed x.bytes 2 s.bnd.affected
    obtain ⟨wb, wk, wc⟩ := writeColophon_keeps (activate s x.parsed x.bytes 2 s.bnd.affected) 2
    refine ⟨_, (exec_structuralCommit_of_armed hx ha hp).trans ((if_neg (by simp [hu])).trans (if_neg (by simp [hh]))), ?_⟩
    rw [wb, wk, ab, ak]
    refine ⟨rfl, rfl, rfl, rfl, rfl, rfl, rfl, writeColophon_last _ 2, fun hrest => ?_⟩
    refine installed (wc.trans (ac (fun k hk => ⟨?_, hrest k hk⟩)))
    simpa using List.all_eq_true.1 hh k hk
  · refine ⟨_, (exec_structuralCommit_of_armed hx ha hp).trans (if_pos (by simp [hu])), ?_⟩
    rw [loseArmed_of_armed hx ha]
    exact ⟨rfl, rfl, rfl, rfl, rfl, onlyIn_of_follows (follows_setResult (by decide) (follows_dropBoth (by decide) (follows_refl s)))⟩

end Sys2Proof.Machine
end

section
/-! PROOFS. R63, R87, R88, R103, R106, R107, R110, R189: read requests, passes, timing lock and the decoder queue. -/

namespace Sys2Proof.Machine

/-! ### Requests and folios -/

theorem readAt_setRead (s : State) (r : ReadSt) (n : Nat) : readAt (setRead s r) n = if r.req.tag = n then some r else readAt s n :=
  look_ins ..

theorem folioAt_setFolio {r : ReadSt} {f g : FolioRd} (h : folioAt r f.slot = some g) : folioAt (setFolio r f) f.slot = some f := by
  unfold folioAt setFolio at *
  generalize r.folios = l at *
  induction l with
  | nil => simp at h
  | cons e l ih =>
    by_cases he : e.slot = f.slot
    · simp [he]
    · simp only [List.find?_cons, List.map_cons, he, decide_false, if_false] at h ⊢
      exact ih h

theorem folioAt_slot {r : ReadSt} {n : Nat} {f : FolioRd} (h : folioAt r n = some f) : f.slot = n := by
  simpa using List.find?_some h

/-! ### The lowest step and pass -/

theorem foldl_min_le {α : Type} (g : α → Nat) (l : List α) (b : Nat) :
    l.foldl (fun b f => min b (g f)) b ≤ b ∧ (∀ f ∈ l, l.foldl (fun b f => min b (g f)) b ≤ g f) ∧
      (l.foldl (fun b f => min b (g f)) b = b ∨ ∃ f ∈ l, l.foldl (fun b f => min b (g f)) b = g f) := by
  induction l generalizing b with
  | nil => simp
  | cons e l ih =>
    obtain ⟨hb, hl, ha⟩ := ih (min b (g e))
    simp only [List.foldl_cons, List.mem_cons]
    refine ⟨by omega, fun f hf => ?_, ?_⟩
    · rcases hf with rfl | hf
      · omega
      · exact hl f hf
    · rcases ha with ha | ⟨f, hf, ha⟩
      · rcases Nat.le_total b (g e) with h | h
        · exact .inl (by omega)
        · exact .inr ⟨e, .inl rfl, by omega⟩
      · exact .inr ⟨f, .inr hf, ha⟩

/-- The next pass is the lowest that a folio stands at, and one does. -/
theorem nextPass_spec {r : ReadSt} {step pass : Nat} (hb : ∀ f ∈ r.folios, f.step < 8 ∧ f.pass_ < 8) (h : nextPass r = some (step, pass)) :
    (∀ f ∈ r.folios, needsMedia f = true → 8 * step + pass ≤ 8 * f.step + f.pass_) ∧ atStep r step pass ≠ [] := by
  unfold nextPass at h
  dsimp only at h
  split at h
  · exact absurd h (by simp)
  · next he =>
    obtain ⟨hs, hp⟩ := Prod.mk.inj (Option.some.inj h)
    obtain ⟨_, hl, ha⟩ := foldl_min_le (fun f : FolioRd => 8 * f.step + f.pass_) (r.folios.filter needsMedia) 64
    generalize (r.folios.filter needsMedia).foldl (fun b f => min b (8 * f.step + f.pass_)) 64 = k at *
    have hk : 8 * step + pass = k := by omega
    refine ⟨fun f hf hm => by have := hl f (List.mem_filter.2 ⟨hf, hm⟩); omega, fun hn => ?_⟩
    have hat : ∃ f ∈ r.folios, needsMedia f = true ∧ k = 8 * f.step + f.pass_ := by
      rcases ha with ha | ⟨f, hf, ha⟩
      · obtain ⟨f, hf⟩ := List.exists_mem_of_ne_nil (r.folios.filter needsMedia) (fun e => he (by rw [e]; rfl))
        have h1 := hl f hf
        obtain ⟨hf, hm⟩ := List.mem_filter.1 hf
        obtain ⟨h2, h3⟩ := hb f hf
        omega
      · obtain ⟨hf, hm⟩ := List.mem_filter.1 hf
        exact ⟨f, hf, hm, ha⟩
    obtain ⟨f, hf, hm, hfk⟩ := hat
    obtain ⟨h2, h3⟩ := hb f hf
    have : f ∈ atStep r step pass := List.mem_filter.2 ⟨hf, by simp [hm]; omega⟩
    rw [hn] at this
    exact absurd this (by simp)

/-! ### The start of a pass -/

/-- Requests, queue, reports and latched configuration stand, and the bays do. -/
structure ReadsKept (s t : State) : Prop where
  reads : t.rdc.reads = s.rdc.reads
  reports : t.rdc.reports = s.rdc.reports
  runCfg : t.rdc.runCfg = s.rdc.runCfg
  bays : t.bays = s.bays

theorem readsKept_refl (s : State) : ReadsKept s s := ⟨rfl, rfl, rfl, rfl⟩

theorem readsKept_trans {s t u : State} (h : ReadsKept s t) (k : ReadsKept t u) : ReadsKept s u :=
  ⟨k.reads.trans h.reads, k.reports.trans h.reports, k.runCfg.trans h.runCfg, k.bays.trans h.bays⟩

theorem readsKept_of_onlyIn {l : List Part} {s t : State} (h : OnlyIn l s t) (hr : Part.rdc ∉ l) (hb : Part.bays ∉ l) : ReadsKept s t := by
  have hrdc : t.rdc = s.rdc := h.2 .rdc hr
  exact ⟨by rw [hrdc], by rw [hrdc], by rw [hrdc], h.2 .bays hb⟩

theorem readsKept_loadChan (s : State) (opu layer lane side : Nat) (retrain : Bool) : ReadsKept s (loadChan s opu layer lane side retrain) := by
  unfold loadChan
  split
  · exact readsKept_refl s
  · exact ⟨rfl, rfl, rfl, rfl⟩

theorem readsKept_foldl {α : Type} (l : List α) (f : State → α → State) (h : ∀ t x, ReadsKept t (f t x)) (s : State) :
    ReadsKept s (l.foldl f s) := by
  induction l generalizing s with
  | nil => exact readsKept_refl s
  | cons x l ih => exact readsKept_trans (h s x) (ih (f s x))

/-- The cells, streams and sweep of a pass: all of a pass's start before its requests enter it. -/
def passLoaded (s : State) (r : ReadSt) (step pass : Nat) : State :=
  let opu := r.req.leaf.surface.val
  let slots := (passRequests s r.req.leaf step pass).flatMap (fun x => (atStep x step pass).map (·.slot))
  let s := runRate (changeSweep s r (sweepOf s opu step pass)) (opu / 2) (frameZone r.req.leaf.frame)
  let lanes := (List.range 4).filter (fun l => slots.any (fun k => slotLane k = l))
  let s := lanes.foldl (fun s l => (looks s opu l step pass).foldl (fun s d => loadChan s opu r.req.leaf.layer l d (step == 3)) s) s
  let s := jumpBack s opu r.req.leaf.frame (slots.foldl min 67)
  { s with cal := { s.cal with curLayer := ins s.cal.curLayer opu r.req.leaf.layer } }

theorem readsKept_passLoaded (s : State) (r : ReadSt) (step pass : Nat) : ReadsKept s (passLoaded s r step pass) := by
  unfold passLoaded
  extract_lets opu slots s1 lanes s2 s3
  have h1 : ReadsKept s s1 := by
    refine readsKept_of_onlyIn (l := [.ports, .spn, .cells]) (onlyIn_of_follows ?_) (by decide) (by decide)
    exact follows_runRate (by decide) (follows_changeSweep (by decide) (follows_refl s))
  have h2 : ReadsKept s1 s2 := readsKept_foldl _ _ (fun _ _ => readsKept_foldl _ _ (fun _ _ => readsKept_loadChan ..) _) _
  have h3 : ReadsKept s2 s3 := readsKept_of_onlyIn (l := [.ports, .spn, .cells]) (onlyIn_of_follows (follows_jumpBack (by decide) (follows_refl s2))) (by decide) (by decide)
  obtain ⟨a, b, c, d⟩ := readsKept_trans (readsKept_trans h1 h2) h3
  exact ⟨a, b, c, d⟩

/-- The commands a pass serves have media time. -/
def markMedia (s : State) (rs : List ReadSt) : State :=
  { s with hiu := { s.hiu with cmds := s.hiu.cmds.map (fun (c : Cmd) =>
    if (c.sqe.kind = .read ∨ c.sqe.kind = .verify) ∧ c.st = .media ∧ rs.any (fun x => decide (c.seq = x.req.tag / 1024)) then { c with granted := true }
    else c) } }

theorem startPass_eq (s : State) (r : ReadSt) (step pass : Nat) :
    startPass s r step pass = grant (markMedia ((passRequests s r.req.leaf step pass).foldl
      (fun t x => enterPass t step pass (sweepOf (latchCfg s r.req.leaf.surface.val) r.req.leaf.surface.val step pass) x)
      (passLoaded (latchCfg s r.req.leaf.surface.val) r step pass)) (passRequests s r.req.leaf step pass)) r.req.leaf.surface.val r.req.act := rfl

/-- A request in a pass. -/
def entered (step pass : Nat) (want : Option (Bool × Int)) (r : ReadSt) : ReadSt :=
  { r with
    granted := true, sweep := want
    folios := r.folios.map (fun g => { g with started := needsMedia g && g.step == step && g.pass_ == pass }) }

/-- Entering a pass stores the requests entered, and nothing else. -/
theorem enterAll_spec (step pass : Nat) (want : Option (Bool × Int)) (rs : List ReadSt) (s : State)
    (hnd : (rs.map (·.req.tag)).Nodup) :
    let t := rs.foldl (fun t x => enterPass t step pass want x) s
    (∀ x ∈ rs, readAt t x.req.tag = some (entered step pass want x)) ∧ (∀ n, (∀ x ∈ rs, x.req.tag ≠ n) → readAt t n = readAt s n) ∧
      t.rdc.reports = s.rdc.reports ∧ t.rdc.runCfg = s.rdc.runCfg ∧ t.bays = s.bays := by
  induction rs generalizing s with
  | nil => exact ⟨fun _ h => absurd h (by simp), fun _ _ => rfl, rfl, rfl, rfl⟩
  | cons r rs ih =>
    rw [List.map_cons, List.nodup_cons] at hnd
    obtain ⟨hn, hnd⟩ := hnd
    obtain ⟨hin, hout, hrep, hcfg, hbay⟩ := ih (enterPass s step pass want r) hnd
    have hr (n : Nat) : readAt (enterPass s step pass want r) n = if r.req.tag = n then some (entered step pass want r) else readAt s n :=
      readAt_setRead ..
    refine ⟨fun x hx => ?_, fun n h => ?_, hrep, hcfg, hbay⟩
    · rcases List.mem_cons.1 hx with rfl | hx
      · refine (hout _ (fun y hy e => hn (List.mem_map.2 ⟨y, hy, e⟩))).trans ?_
        rw [hr, if_pos rfl]
      · exact hin x hx
    · refine (hout n (fun x hx => h x (List.mem_cons_of_mem _ hx))).trans ?_
      rw [hr, if_neg (h r (List.mem_cons_self ..))]

theorem mem_passRequests {s : State} {r : ReadSt} {step pass : Nat} (hr : readAt s r.req.tag = some r) (hg : r.granted = false)
    (he : r.expired = false) (hat : atStep r step pass ≠ []) : r ∈ passRequests s r.req.leaf step pass := by
  refine List.mem_filter.2 ⟨List.mem_map.2 ⟨_, mem_of_look hr, rfl⟩, ?_⟩
  simp [hg, he, hat]

theorem passRequests_nodup {s : State} (a : LeafAddr) (step pass : Nat) (hk : ∀ e ∈ s.rdc.reads, e.2.req.tag = e.1)
    (hn : (s.rdc.reads.map (·.1)).Nodup) : ((passRequests s a step pass).map (·.req.tag)).Nodup := by
  have he : (s.rdc.reads.map (·.2)).map (·.req.tag) = s.rdc.reads.map (·.1) := by
    rw [List.map_map]
    exact List.map_congr_left (fun e h => hk e h)
  exact ((List.filter_sublist (l := s.rdc.reads.map (·.2))).map (·.req.tag)).nodup (he ▸ hn)

theorem look_ins_self {α : Type} (t : Tbl α) (k : Nat) (v : α) : look (ins t k v) k = some v := by
  rw [look_ins, if_pos rfl]

/-- What the start of a pass leaves. -/
theorem startPass_spec {s : State} {r : ReadSt} {step pass : Nat} (hk : ∀ e ∈ s.rdc.reads, e.2.req.tag = e.1)
    (hn : (s.rdc.reads.map (·.1)).Nodup) :
    let t := startPass s r step pass
    let opu := r.req.leaf.surface.val
    (∀ x ∈ passRequests s r.req.leaf step pass, readAt t x.req.tag = some (entered step pass (sweepOf (latchCfg s opu) opu step pass) x)) ∧
      (∀ n, (∀ x ∈ passRequests s r.req.leaf step pass, x.req.tag ≠ n) → readAt t n = readAt s n) ∧
      (bayAt t (opu / 2)).grants = (bayAt s (opu / 2)).grants ++ [(opu, r.req.act.val)] ∧ t.rdc.reports = s.rdc.reports ∧
      look t.rdc.runCfg opu = some (rdcConfig.map (reg s) ++ (List.range 8).map (reg s .rdcTarget)) := by
  intro t opu
  have hl := readsKept_passLoaded (latchCfg s opu) r step pass
  obtain ⟨hin, hout, hrep, hcfg, hbay⟩ := enterAll_spec step pass (sweepOf (latchCfg s opu) opu step pass)
    (passRequests s r.req.leaf step pass) (passLoaded (latchCfg s opu) r step pass) (passRequests_nodup r.req.leaf step pass hk hn)
  have ht : t = grant (markMedia ((passRequests s r.req.leaf step pass).foldl
      (fun t x => enterPass t step pass (sweepOf (latchCfg s opu) opu step pass) x)
      (passLoaded (latchCfg s opu) r step pass)) (passRequests s r.req.leaf step pass)) opu r.req.act := startPass_eq s r step pass
  clear_value t
  generalize (passRequests s r.req.leaf step pass).foldl
      (fun t x => enterPass t step pass (sweepOf (latchCfg s opu) opu step pass) x)
      (passLoaded (latchCfg s opu) r step pass) = e at *
  have hb : bayAt e (opu / 2) = bayAt s (opu / 2) := congrArg (fun y => getD y ({} : Bay) (opu / 2)) (hbay.trans hl.bays)
  subst ht
  refine ⟨hin, fun n h => (hout n h).trans ?_, ?_, hrep.trans hl.reports, ?_⟩
  · exact congrArg (look · n) hl.reads
  · refine (congrArg Bay.grants (bayAt_setBay ..)).trans ?_
    rw [if_pos rfl, stampBay_grants]
    exact congrArg (fun y : Bay => y.grants ++ [(opu, r.req.act.val)]) hb
  · refine (congrArg (look · opu) (hcfg.trans hl.runCfg)).trans ?_
    exact look_ins_self ..

/-! ### The decoder queue -/

/-- The older of the folio found so far and another. -/
def older (s : State) (x : Option (Nat × Nat × Nat)) (q : Nat × Nat × Nat) : Option (Nat × Nat × Nat) :=
  match x with
  | some y => if readTime s q < readTime s y then some q else some y
  | none => some q

theorem nextQueued_eq (s : State) : nextQueued s =
    [0, 1, 2].findSome? (fun b => (s.rdc.queue.filter (fun q => q.2.2 = b)).foldl (older s) none) := rfl

theorem oldest_spec (s : State) (l : List (Nat × Nat × Nat)) (x : Option (Nat × Nat × Nat)) :
    match l.foldl (older s) x with
    | none => x = none ∧ l = []
    | some q => (x = some q ∨ q ∈ l) ∧ (∀ y, x = some y → readTime s q ≤ readTime s y) ∧ ∀ y ∈ l, readTime s q ≤ readTime s y := by
  induction l generalizing x with
  | nil => cases x <;> simp
  | cons e l ih =>
    have ho : ∃ y, older s x e = some y ∧ (x = some y ∨ y = e) ∧ readTime s y ≤ readTime s e ∧
        ∀ z, x = some z → readTime s y ≤ readTime s z := by
      cases x with
      | none => exact ⟨e, rfl, .inr rfl, Nat.le_refl _, fun z h => absurd h (by simp)⟩
      | some z =>
        rcases Nat.lt_or_ge (readTime s e) (readTime s z) with h | h
        · exact ⟨e, if_pos h, .inr rfl, Nat.le_refl _, fun w hw => by cases hw; omega⟩
        · exact ⟨z, if_neg (by omega), .inl rfl, h, fun w hw => by cases hw; omega⟩
    obtain ⟨y, hy, hm, he, hx⟩ := ho
    have ih := ih (older s x e)
    rw [List.foldl_cons]
    split at ih
    · exact absurd ih.1 (by simp [hy])
    · next q _ =>
      obtain ⟨h1, h2, h3⟩ := ih
      have hqy := h2 y hy
      refine ⟨?_, fun z hz => Nat.le_trans hqy (hx z hz), fun z hz => ?_⟩
      · rcases h1 with h1 | h1
        · have hyq : y = q := Option.some.inj (hy.symm.trans h1)
          subst hyq
          exact hm.imp id (fun h => by simp [h])
        · exact .inr (List.mem_cons_of_mem _ h1)
      · rcases List.mem_cons.1 hz with rfl | hz
        · exact Nat.le_trans hqy he
        · exact h3 z hz

theorem oldest_of_some {s : State} {l : List (Nat × Nat × Nat)} {q : Nat × Nat × Nat} (h : l.foldl (older s) none = some q) :
    q ∈ l ∧ ∀ y ∈ l, readTime s q ≤ readTime s y := by
  have := oldest_spec s l none
  rw [h] at this
  exact ⟨this.1.resolve_left (by simp), this.2.2⟩

theorem oldest_of_none {s : State} {l : List (Nat × Nat × Nat)} (h : l.foldl (older s) none = none) : l = [] := by
  have := oldest_spec s l none
  rw [h] at this
  exact this.2

/-- The folio that goes next is of the first band that has one, and its oldest. -/
theorem nextQueued_spec {s : State} {q : Nat × Nat × Nat} (h : nextQueued s = some q) : q ∈ s.rdc.queue ∧
    ∀ y ∈ s.rdc.queue, y.2.2 ≤ 2 → q.2.2 ≤ y.2.2 ∧ (y.2.2 = q.2.2 → readTime s q ≤ readTime s y) := by
  rw [nextQueued_eq] at h
  have found {b : Nat} (hb : (s.rdc.queue.filter (fun q => q.2.2 = b)).foldl (older s) none = some q) :
      q ∈ s.rdc.queue ∧ q.2.2 = b ∧ ∀ y ∈ s.rdc.queue, y.2.2 = b → readTime s q ≤ readTime s y := by
    obtain ⟨hq, ho⟩ := oldest_of_some hb
    obtain ⟨hm, he⟩ := List.mem_filter.1 hq
    exact ⟨hm, by simpa using he, fun y hy hyb => ho y (List.mem_filter.2 ⟨hy, by simpa using hyb⟩)⟩
  have none_ {b : Nat} (hb : (s.rdc.queue.filter (fun q => q.2.2 = b)).foldl (older s) none = none) : ∀ y ∈ s.rdc.queue, y.2.2 ≠ b :=
    fun y hy hyb => by
      have := List.filter_eq_nil_iff.1 (oldest_of_none hb) y hy
      simp [hyb] at this
  simp only [List.findSome?_cons, List.findSome?_nil] at h
  split at h
  · next x h0 =>
    cases h
    obtain ⟨hm, hq, ho⟩ := found h0
    exact ⟨hm, fun y hy _ => ⟨by omega, fun e => ho y hy (by omega)⟩⟩
  · next h0 =>
    have n0 := none_ h0
    split at h
    · next x h1 =>
      cases h
      obtain ⟨hm, hq, ho⟩ := found h1
      exact ⟨hm, fun y hy _ => ⟨by have := n0 y hy; omega, fun e => ho y hy (by omega)⟩⟩
    · next h1 =>
      have n1 := none_ h1
      split at h
      · next x h2 =>
        cases h
        obtain ⟨hm, hq, ho⟩ := found h2
        exact ⟨hm, fun y hy _ => ⟨by have := n0 y hy; have := n1 y hy; omega, fun e => ho y hy (by omega)⟩⟩
      · exact absurd h (by simp)

/-- The state with a folio out of the queue and decoders taken for it. -/
def dequeued (s : State) (q : Nat × Nat × Nat) (n : Nat) : State :=
  { s with rdc := { s.rdc with queue := s.rdc.queue.filter (fun x => x ≠ q), busy := s.rdc.busy + n } }

theorem exec_codewordDispatch_of_folio {s : State} {q : Nat × Nat × Nat} {r : ReadSt} {f : FolioRd} (hq : nextQueued s = some q)
    (hr : readAt s q.1 = some r) (hf : folioAt r q.2.1 = some f) :
    exec .codewordDispatch s = if decoderLimit s < s.rdc.busy + f.cws then .next s
      else .next (setRead (dequeued s q f.cws) (setFolio r { f with queued := false, inDecoder := true })) := by
  have hn : cwNeed s q.1 q.2.1 = f.cws := by simp [cwNeed, hr, hf]
  have hr' : readAt (dequeued s q f.cws) q.1 = some r := hr
  change execCodewordDispatch s = _
  simp only [execCodewordDispatch, hq, hn]
  split
  · rfl
  · split
    · next h => exact absurd (h.symm.trans hr') (by simp)
    · next r' h =>
      cases Option.some.inj (h.symm.trans hr')
      rw [hf]
      rfl

theorem exec_codewordDispatch_of_empty {s : State} (h : s.rdc.queue = []) : exec .codewordDispatch s = .next s := by
  have hn : nextQueued s = none := by simp [nextQueued, h]
  change execCodewordDispatch s = _
  simp only [execCodewordDispatch, hn]

/-! ### Requests -/

/-- The folios a request begins with. -/
def firstFolios (s : State) (r : ReadReq) : List FolioRd :=
  r.slots.eraseDups.map (fun k => { slot := k, expect := r.expect || listedWritten s r.leaf k })

theorem exec_folioReadRequest_of_ok {s : State} {r : ReadReq} (ht : readAt s r.tag = none) (ho : readOk s r = true)
    (hr : runs s (r.leaf.surface.val / 2) = true) (hs : surfState s r.leaf.surface ≠ 2) :
    exec (.folioReadRequest r) s = .next (setRead s {
      req := r, accepted := now s, deadline := now s + (modeRec s (r.leaf.surface.val / 2)).slowMs * 250
      folios := firstFolios s r }) := by
  change execFolioReadRequest r s = _
  unfold execFolioReadRequest
  simp only [ht, ho, hr, hs, Option.isSome_none, Bool.not_true, Bool.false_or, beq_iff_eq, Bool.false_eq_true, if_false]
  rfl

theorem passWanted_open {s : State} {r : ReadSt} (h : passWanted s r = true) : r.granted = false ∧ r.expired = false := by
  unfold passWanted at h
  cases hg : r.granted <;> cases he : r.expired <;> simp [hg, he] at h ⊢

theorem execReadPassStart_of_used {s : State} {r : ReadSt} (hr : readAt s r.req.tag = some r) (hl : layerUnused s r = false)
    (hw : passWanted s r = true) : exec (.readPassStart r.req.tag) s =
      if !opuReady s r.req.leaf.surface r.req.leaf.layer r.req.leaf.frame then
        .next (goTo s r.req.leaf.surface r.req.leaf.layer r.req.leaf.frame)
      else match nextPass r with
        | none => .next s
        | some (step, pass) => .next (startPass s r step pass) := by
  change execReadPassStart r.req.tag s = _
  simp only [execReadPassStart, hr, hl, hw]
  rfl

/-! ### Timing lock -/

theorem timingLock_spec (s : State) (n : Fin 64) : let c := chanAt s n
    (c.st ≠ 0 → c.cur.lockAt ≠ none → exec (.timingLockDeclared n) s = .next (setChan s n { c with blank := false })) ∧
    (c.st ≠ 0 → c.cur.lockAt = none → exec (.timingLockDeclared n) s = .next (if 240 ≤ c.cur.n then setChan s n { c with blank := true } else s)) ∧
    (c.st = 2 → exec (.timingLockLoss n) s = .next (
      if errAbove 256 (runBits s c.opu .rdcTimingCfg 7 0) c.errs = true then
        setChan s n { c with st := 3, cur := { c.cur with lost := c.cur.lost ++ [(c.cur.n, none)] } }
      else s)) ∧
    (∀ k l, c.st = 3 → c.cur.lost = l ++ [(k, none)] → exec (.timingLockRegained n) s = .next (match nextResync s c k with
      | some p => setChan s n { c with st := 2, cur := { c.cur with lost := l ++ [(k, some p)] } }
      | none => s)) ∧
    (c.st = 0 → exec (.timingLockDeclared n) s = .next s ∧ exec (.timingLockLoss n) s = .next s ∧ exec (.timingLockRegained n) s = .next s) := by
  intro c
  refine ⟨fun h0 hl => ?_, fun h0 hl => ?_, fun h2 => ?_, fun k l h3 hl => ?_, fun h0 => ⟨if_pos h0, ?_, ?_⟩⟩
  · refine (if_neg h0).trans (if_pos ?_)
    cases h : c.cur.lockAt with
    | none => exact absurd h hl
    | some x => rfl
  · refine (if_neg h0).trans ((if_neg ?_).trans ?_)
    · rw [show (chanAt s n).cur.lockAt = none from hl]
      decide
    · split <;> rfl
  · by_cases he : errAbove 256 (runBits s c.opu .rdcTimingCfg 7 0) c.errs = true
    · rw [if_pos he]
      exact if_pos ⟨h2, he⟩
    · rw [if_neg he]
      exact if_neg (fun h => he h.2)
  · change execTimingLockRegained n s = _
    have hg : (chanAt s n).cur.lost.getLast? = some (k, none) := by
      change c.cur.lost.getLast? = _
      simp [hl]
    have hd : (chanAt s n).cur.lost.dropLast = l := by
      change c.cur.lost.dropLast = _
      simp [hl]
    simp only [execTimingLockRegained, hg, hd, show (chanAt s n).st = 3 from h3]
    change (match nextResync s c k with | some p => _ | none => _) = _
    cases nextResync s c k <;> rfl
  · exact if_neg (fun h => absurd (h0.symm.trans h.1) (by decide))
  · change execTimingLockRegained n s = _
    unfold execTimingLockRegained
    dsimp only
    split
    · exact if_pos (fun h => absurd (h0.symm.trans h) (by decide))
    · rfl

/-- Settles O28. -/
theorem readsAreAskedAndPassesStart : Obligations.ReadsAreAskedAndPassesStart := by
  unfold Obligations.ReadsAreAskedAndPassesStart
  refine ⟨fun s r ht ho hr hs => ?_, fun s r h => ?_, fun s r c ht ho hc => ?_, fun s r hr hl hb => ?_,
    fun s r step pass hr hk hnd hf hl hm hp => ?_, fun s r hr hl hw ho => ?_, timingLock_spec, fun s q hq => ?_,
    fun s h => exec_codewordDispatch_of_empty h⟩
  · refine ⟨_, _, exec_folioReadRequest_of_ok ht ho hr hs, (readAt_setRead ..).trans (if_pos rfl), rfl, rfl, rfl, rfl, fun k => ?_, ?_,
      fun n hn => (readAt_setRead ..).trans (if_neg (Ne.symm hn)), rfl, onlyIn_of_follows (follows_setRead (by decide) (follows_refl s))⟩
    · simp [firstFolios]
    · intro f hf
      obtain ⟨k, _, rfl⟩ := List.mem_map.1 hf
      exact ⟨rfl, rfl, rfl, rfl⟩
  · change execFolioReadRequest r s = _
    unfold execFolioReadRequest
    dsimp only
    rcases h with h | ⟨ho, h⟩
    · exact if_pos (Option.isSome_iff_ne_none.2 h)
    · split
      · rfl
      · exact (if_neg (by simp [ho])).trans (if_pos (by rcases h with h | h <;> simp [h]))
  · refine (if_neg (by simp [ht])).trans ((if_pos (by simp [ho])).trans ?_)
    unfold refuseRead
    rw [hc]
  · change execReadPassStart r.req.tag s = _
    simp only [execReadPassStart, hr, hl, hb]
    rfl
  · intro opu rs
    obtain ⟨hw, hready⟩ : passWanted s r = true ∧ opuReady s r.req.leaf.surface r.req.leaf.layer r.req.leaf.frame = true := by
      simpa [passMayStart] using hm
    obtain ⟨hlow, hat⟩ := nextPass_spec hf hp
    obtain ⟨hin, hout, hg, hrep, hcfg⟩ := startPass_spec (r := r) (step := step) (pass := pass) hk hnd
    obtain ⟨hgr, hex⟩ := passWanted_open hw
    refine ⟨startPass s r step pass, ?_, mem_passRequests hr hgr hex hat, hlow, hin, hout, hg, hrep, hcfg⟩
    refine (execReadPassStart_of_used hr hl hw).trans ((if_neg (by simp [hready])).trans ?_)
    rw [hp]
  · exact ⟨_, (execReadPassStart_of_used hr hl hw).trans (if_pos (by simp [ho])),
      onlyIn_of_follows (follows_goTo (by decide) (follows_refl s))⟩
  · obtain ⟨hm, hall⟩ := nextQueued_spec hq
    refine ⟨hm, hall, fun r f hqr hr hf => ?_⟩
    have he := exec_codewordDispatch_of_folio hq (hqr ▸ hr) hf
    refine ⟨fun h => ⟨_, _, he.trans (if_neg (by omega)), rfl, rfl, (readAt_setRead ..).trans (if_pos rfl), ?_, fun n hn => ?_, ?_⟩,
      fun h => he.trans (if_pos h)⟩
    · have hs := folioAt_slot hf
      have : folioAt r ({ f with queued := false, inDecoder := true } : FolioRd).slot = some f := hs.symm ▸ hf
      exact hs ▸ folioAt_setFolio this
    · exact (readAt_setRead ..).trans (if_neg (Ne.symm hn))
    · exact onlyIn_of_follows (follows_setRead (by decide) (upd_rdc (by decide) (follows_refl s)))

end Sys2Proof.Machine
end

section
/-! PROOFS. R15, R107: a yield in a store of requests that a request's tag does not key. -/

namespace Sys2Proof.Machine

/-- The read request of a command of low rank, on slot 0 of frame 8 of surface 0. -/
def lowReq : ReadReq := { tag := 3, leaf := { surface := 0, layer := 0, frame := 8 }, slots := [0], expect := true, classU := false, act := 0, volume := 1 }

/-- Its folio, started and expected. -/
def startedFolio : FolioRd := { slot := 0, started := true, expect := true }

/-- That request in its pass. -/
def inPass : ReadSt := { req := lowReq, accepted := 0, deadline := 1000, granted := true, folios := [startedFolio] }

/-- The request in its pass; a second in it stored under key 5 but with the first one's tag; a third, of higher rank, that waits. The bay yields. -/
def misKeyed : State :=
  { bnd := { active := some { modes := [{ bay := 0, yield_ := true }] } }
    rdc := { reads := [(3, inPass), (5, { inPass with folios := [] }),
      (7, { req := { lowReq with tag := 7, act := 2 }, accepted := 0, deadline := 1000, folios := [{ slot := 0 }] })] } }

theorem readLane_misKeyed : readLane misKeyed 0 0 (looks misKeyed 0 0 1 0) = none := by decide

/-- At the yield the second request takes the place of the first, and closes as it holds no folio. -/
theorem folioReadEnd_misKeyed : ∃ t, exec (.folioReadEnd 3 0) misKeyed = .next t ∧ readAt t 3 = none := ⟨_, rfl, by decide⟩

/-- Refutes O29: where a stored request carries another request's tag, a yield ends the pass under that tag, and the folio that climbs is lost with the
request it stands in. -/
theorem not_foliosClimbTheLadder : ¬ Obligations.FoliosClimbTheLadder := by
  unfold Obligations.FoliosClimbTheLadder
  rintro ⟨hread, -⟩
  obtain ⟨-, hclimb, -⟩ := hread misKeyed inPass startedFolio rfl rfl rfl rfl rfl rfl
  obtain ⟨t, ht, -, -, x, -, hx, -⟩ := hclimb readLane_misKeyed rfl (by decide)
  obtain ⟨u, hu, hgone⟩ := folioReadEnd_misKeyed
  have hsame : t = u := Host.Outcome.next.inj (ht.symm.trans hu)
  subst hsame
  exact absurd (hgone.symm.trans hx) (by simp)

end Sys2Proof.Machine
end

section
/-! PROOFS. R122, R124: the last verdict of a run whose leaf lies on another surface. -/

namespace Sys2Proof.Machine

/-- One slot, not yet judged. -/
def lastSlot : RunSlot :=
  { slot := 0
    header := { pfa := 0, quire := 5, gen := 0, seed := 0, leaf := 0, slot := 0, row := 0, kind := 0, width := 16, stitch := 0, twin := 0 } }

/-- A run of that slot for leaf 0 of quire 5. -/
def strayRun : Run := { quire := 5, leaf := 0, layer := 0, frame := 8, start := 0, slots := [lastSlot] }

/-- The run on OPU 0, while the leaf of quire 5 lies on surface 1. -/
def strayLeaf : State :=
  { wrc := { opus := [(0, { run := some strayRun })] }
    qre := { quires := [(5, { number := 5, leaves := [{ surface := 1, layer := 0, frame := 8 }] })] } }

/-- The run is over, but the OPU that the leaf names is released, not the one that recorded. -/
theorem folioVerdict_strayLeaf : ∃ t, exec (.folioVerdict 0 0) strayLeaf = .next t ∧ (opuAt t 0).run.isSome = true := ⟨_, rfl, by decide +kernel⟩

/-- Refutes O30: where the leaf of a run lies on another surface than the OPU's, the run stays on its OPU after its last verdict. -/
theorem not_writeRunsAndVerdicts : ¬ Obligations.WriteRunsAndVerdicts := by
  unfold Obligations.WriteRunsAndVerdicts
  rintro ⟨-, -, -, -, hverdict, -⟩
  obtain ⟨hjudged, -⟩ := hverdict strayLeaf 0 0 strayRun lastSlot rfl rfl
  obtain ⟨t, p, ht, -, -, -, -, -, -, -, -, -, hover⟩ := hjudged rfl rfl
  obtain ⟨u, hu, hrun⟩ := folioVerdict_strayLeaf
  have hsame : t = u := Host.Outcome.next.inj (ht.symm.trans hu)
  subst hsame
  have hnone : (opuAt t (0 : Fin 16).val).run = none := hover rfl
  rw [show (opuAt t 0).run = none from hnone] at hrun
  exact absurd hrun (by simp)

end Sys2Proof.Machine
end

section
/-! PROOFS. R216, R222, R230: a directory quire that finds no surface, among amendments of a misnumbered record. -/

namespace Sys2Proof.Machine

/-- A record stored under 9 that bears the next quire's number, 1, and an amendment from it to that number; no surface takes a leaf. -/
def misnumbered : State :=
  { qre := { vol := 1, width := 16, nextSeq := 1, surf := [(0, { missing := true })], quires := [(9, { number := 1, st := 2, filed := true })]
             amends := [{ source := 9, target := 1, sleaf := 0, tleaf := 0, lost := 0 }] } }

theorem unfiledAmends_misnumbered : (unfiledAmends misnumbered).take
    ((directoryRoom misnumbered - directoryBytes misnumbered [] 0 -
      ((takeFit (filedBytes misnumbered) (directoryRoom misnumbered - directoryBytes misnumbered [] 0) (unfiled misnumbered)).map
        (filedBytes misnumbered)).sum) / 40) ≠ [] := by decide +kernel

/-- The abandoned directory quire's place is taken by the record from which the amendment came. -/
theorem closeDirectory_misnumbered : (quireAt (closeDirectory misnumbered 1) 1).any (fun q => q.kind == 3) = false := by decide +kernel

/-- Refutes O31: a directory quire that is abandoned as it closes is overwritten by a record that bears its number under another key. -/
theorem not_quiresCloseSealAndFile : ¬ Obligations.QuiresCloseSealAndFile := by
  unfold Obligations.QuiresCloseSealAndFile
  rintro ⟨-, -, -, hdir⟩
  obtain ⟨-, q, hq, hkind, -⟩ := hdir misnumbered 1 (.inr unfiledAmends_misnumbered) rfl (by decide +kernel)
  have hq : quireAt (closeDirectory misnumbered 1) 1 = some q := hq
  have h := closeDirectory_misnumbered
  rw [hq] at h
  simp [hkind] at h

end Sys2Proof.Machine
end

section
/-! PROOFS. R204 to R208: mounts and unmounts. -/

namespace Sys2Proof.Machine

/-! ### What the catalogue reads lead to -/

theorem mountVolume_of_blank {s : State} {n : Nat} {found : List CatFinding} {rows : List (List Nat)} {coll : BitVec 384} {recs : List Quire}
    {ams : List Amend} (hl : ((List.range 16).filter (fun m => discIn s (m / 2))).length = 16) (hb : ∀ m, m < 16 → found.getD m .unread = .blank) :
    mountVolume s n found rows coll recs ams = some (newVolume s n) := by
  refine if_pos ⟨hl, List.all_eq_true.2 (fun m hm => ?_)⟩
  simpa using hb m (List.mem_range.1 (List.mem_filter.1 hm).1)

theorem mountVolume_of_unread {s : State} {n : Nat} {found : List CatFinding} {rows : List (List Nat)} {coll : BitVec 384} {recs : List Quire}
    {ams : List Amend} (h : (List.range 16).filter (fun m => discIn s (m / 2)) = [] ∨
      ∃ m ∈ (List.range 16).filter (fun m => discIn s (m / 2)), found.getD m .unread = .unread) :
    mountVolume s n found rows coll recs ams = none := by
  unfold mountVolume
  dsimp only
  generalize (List.range 16).filter (fun m => discIn s (m / 2)) = read at *
  rcases h with rfl | ⟨m, hm, hu⟩
  · rfl
  · rw [if_neg]
    · cases read with
      | nil => rfl
      | cons k read =>
        simp only [List.head?_cons, Option.bind_some]
        cases hv : findVolume k (found.getD k .unread) with
        | none => rfl
        | some v =>
          refine if_neg (fun ha => ?_)
          have := of_decide_eq_true (List.all_eq_true.1 ha m hm)
          rw [hu] at this
          exact absurd this (by simp [findVolume])
    · rintro ⟨-, ha⟩
      have := of_decide_eq_true (List.all_eq_true.1 ha m hm)
      rw [hu] at this
      exact absurd this (by decide)

theorem mountVolume_of_found {s : State} {n v : Nat} {found : List CatFinding} {rows : List (List Nat)} {coll : BitVec 384}
    {recs : List Quire} {ams : List Amend} (hne : (List.range 16).filter (fun m => discIn s (m / 2)) ≠ [])
    (hv : ∀ m ∈ (List.range 16).filter (fun m => discIn s (m / 2)), findVolume m (found.getD m .unread) = some v) :
    mountVolume s n found rows coll recs ams = some (oldVolume s v found rows coll recs ams) := by
  unfold mountVolume
  dsimp only
  generalize (List.range 16).filter (fun m => discIn s (m / 2)) = read at *
  cases read with
  | nil => exact absurd rfl hne
  | cons k read =>
    have hk := hv k (List.mem_cons_self ..)
    rw [if_neg]
    · simp only [List.head?_cons, Option.bind_some, hk]
      exact if_pos (List.all_eq_true.2 (fun m hm => by simpa using hv m hm))
    · rintro ⟨-, ha⟩
      have := of_decide_eq_true (List.all_eq_true.1 ha k (List.mem_cons_self ..))
      rw [this] at hk
      exact absurd hk (by simp [findVolume])

theorem exec_mountCatalogueReadDone {s : State} (hm : s.qre.mounting = true) (found : List CatFinding) (rows : List (List Nat))
    (coll : BitVec 384) (recs : List Quire) (ams : List Amend) : exec (.mountCatalogueReadDone found rows coll recs ams) s =
      match mountVolume s (regBits s .qreVolume 0 31 16) found rows coll recs ams with
      | some t => .next (send t (.mgmt (.volumeMounted (BitVec.ofNat 16 (regBits s .qreVolume 0 31 16)) found rows coll recs ams)))
      | none => .next (event { s with qre := { s.qre with mounting := false } } 0 10 1) := if_neg (by simp [hm])

/-! ### A new volume -/

/-- The surfaces afresh, nothing read before standing. -/
def volumeCleared (s : State) : State := forEach (List.range 16) freshSurface (clearAbsent (freshPayloads s))

/-- What clearing for a volume leaves, as far as a new volume reads it. -/
structure Cleared (s t : State) : Prop where
  ports : t.ports = s.ports
  bnd : t.bnd = s.bnd
  quires : t.qre.quires = s.qre.quires
  unplaced : t.qre.unplaced = s.qre.unplaced
  waiting : t.qre.waiting = s.qre.waiting
  payloads : t.rdc.payloads = s.rdc.payloads

theorem cleared_refl (s : State) : Cleared s s := ⟨rfl, rfl, rfl, rfl, rfl, rfl⟩

theorem cleared_trans {s t u : State} (h : Cleared s t) (k : Cleared t u) : Cleared s u :=
  ⟨k.ports.trans h.ports, k.bnd.trans h.bnd, k.quires.trans h.quires, k.unplaced.trans h.unplaced, k.waiting.trans h.waiting,
    k.payloads.trans h.payloads⟩

theorem cleared_foldl {α : Type} {f : State → α → State} (h : ∀ t x, Cleared t (f t x)) (l : List α) (s : State) : Cleared s (l.foldl f s) := by
  induction l generalizing s with
  | nil => exact cleared_refl s
  | cons x l ih => exact cleared_trans (h s x) (ih _)

theorem cleared_freshSurface (s : State) (m : Nat) : Cleared s (freshSurface s m) := ⟨rfl, rfl, rfl, rfl, rfl, rfl⟩

theorem cleared_clearAbsent (s : State) : Cleared s (clearAbsent s) :=
  cleared_foldl (f := fun s b => setBay s b { bayAt s b with absentTotal := 0 }) (fun _ _ => ⟨rfl, rfl, rfl, rfl, rfl, rfl⟩) (List.range 8) s

theorem cleared_volumeCleared (s : State) : Cleared (freshPayloads s) (volumeCleared s) :=
  cleared_trans (cleared_clearAbsent _) (cleared_foldl cleared_freshSurface _ _)

theorem discIn_of_ports {s t : State} (h : t.ports = s.ports) (b : Nat) : discIn t b = discIn s b := by
  unfold discIn portAt
  rw [h]

theorem surf_freshSurface (s : State) (m k : Nat) :
    surfAt (freshSurface s m) k = (if m = k then { missing := !discIn s (k / 2) } else surfAt s k) ∧
      surfWAt (freshSurface s m) k = if m = k then {} else surfWAt s k := by
  unfold freshSurface surfAt surfWAt setSurf setSurfW
  dsimp only
  rw [getD_put, getD_put]
  by_cases h : m = k <;> simp [h]

/-- Every surface starts afresh. -/
theorem surf_freshSurfaces (l : List Nat) (s : State) (k : Nat) (hk : k ∈ l) :
    surfAt (l.foldl freshSurface s) k = { missing := !discIn s (k / 2) } ∧ surfWAt (l.foldl freshSurface s) k = {} := by
  induction l using List.reverseRecOn with
  | nil => exact absurd hk (by simp)
  | append_singleton l m ih =>
    rw [List.foldl_append]
    have hc := cleared_foldl cleared_freshSurface l s
    obtain ⟨h1, h2⟩ := surf_freshSurface (l.foldl freshSurface s) m k
    simp only [List.foldl_cons, List.foldl_nil]
    rw [h1, h2, discIn_of_ports hc.ports]
    by_cases he : m = k
    · simp [he]
    · rw [if_neg he, if_neg he]
      refine ih ?_
      simp only [List.mem_append, List.mem_singleton] at hk
      exact hk.resolve_right (fun e => he e.symm)

/-! ### Nothing waits for the volume -/

/-- No quire is filling, no data and no leaf waits for one. -/
def NoneWaits (s : State) : Prop := s.qre.unplaced = [] ∧ s.qre.waiting = [] ∧ ∀ e ∈ s.qre.quires, e.2.st ≠ 0

theorem fillingOf_nil {s : State} (h : NoneWaits s) (p : Nat × Quire → Bool) : s.qre.quires.filter (fun e => e.2.st == 0 && p e) = [] := by
  refine List.filter_eq_nil_iff.2 (fun e he => ?_)
  simp [h.2.2 e he]

theorem closeFor_of_none {s : State} (h : NoneWaits s) (seq cause : Nat) : closeFor s seq cause = s := by
  refine foldl_keeps_of_mem id (fun t q hq => ?_) s
  obtain ⟨e, he, rfl⟩ := List.mem_map.1 hq
  exact if_neg (h.2.2 e (List.mem_filter.1 he).1)

/-- Only counters move. -/
structure Counted (s t : State) : Prop where
  qre : t.qre = s.qre
  rdc : t.rdc = s.rdc
  wrc : t.wrc = s.wrc
  regs : t.regs = s.regs
  bdy : t.bdy = s.bdy
  bnd : t.bnd = s.bnd

theorem counted_refl (s : State) : Counted s s := ⟨rfl, rfl, rfl, rfl, rfl, rfl⟩

theorem barrierClose_of_none {s : State} (h : NoneWaits s) (c : Cmd) : barrierClose s c = s := by
  unfold barrierClose
  split
  · generalize s.cmd.versions.filter (fun v => v.own && decide (v.seq < c.seq) && flushNames c v.nsid) = l
    induction l with
    | nil => rfl
    | cons v l ih => rwa [List.foldl_cons, closeFor_of_none h]
  · rfl

theorem counted_fuaClose {s : State} (h : NoneWaits s) (seq : Nat) : Counted s (fuaClose s seq) := by
  unfold fuaClose
  dsimp only
  rw [closeFor_of_none (show NoneWaits (bumpN s 14 6 _) from h)]
  exact ⟨rfl, rfl, rfl, rfl, rfl, rfl⟩

theorem noneWaits_of_counted {s t : State} (h : Counted s t) (hs : NoneWaits s) : NoneWaits t := by
  unfold NoneWaits
  rw [h.qre]
  exact hs

/-- What waits for a seal finds no filling quire. -/
theorem counted_closeWanted {s : State} (h : NoneWaits s) : Counted s (closeWanted s) := by
  unfold closeWanted
  generalize s.hiu.cmds = l
  induction l generalizing s with
  | nil => exact counted_refl s
  | cons c l ih =>
    have step : Counted s (if isWrite c && c.sqe.fua && c.st == .committed && !c.remote then fuaClose s c.seq
        else if c.sqe.kind == .flush && c.barrier && c.st == .admitted then barrierClose s c else s) := by
      refine of_ite (counted_fuaClose h c.seq) ?_
      rw [barrierClose_of_none h]
      exact of_ite (counted_refl s) (counted_refl s)
    obtain ⟨h1, h2, h3, h4, h5, h6⟩ := ih (noneWaits_of_counted step h)
    exact ⟨h1.trans step.qre, h2.trans step.rdc, h3.trans step.wrc, h4.trans step.regs, h5.trans step.bdy, h6.trans step.bnd⟩

/-- With nothing waiting, an opening volume moves only counters. -/
theorem counted_volumeOpen {s : State} (h : NoneWaits s) : Counted s (volumeOpen s) := by
  have hfill (p : Nat × Quire → Bool) := fillingOf_nil h p
  have hr : rewidth s = s := by
    unfold rewidth
    simp only [Bool.and_assoc, hfill, List.foldl_nil]
  have hc : closeDue s = s := by
    unfold closeDue
    simp only [Bool.and_assoc, hfill, List.foldl_nil]
  have hf : fillWaiting s = s := by
    unfold fillWaiting
    simp only [h.1, List.foldl_nil]
    exact congrArg (fun u => { s with qre := { s.qre with unplaced := u } }) h.1.symm
  have hp : placeWaiting s = s := by
    unfold placeWaiting
    simp only [h.2.1, List.foldl_nil]
    exact congrArg (fun u => { s with qre := { s.qre with waiting := u } }) h.2.1.symm
  rw [volumeOpen, hr, hc, refillNow, hf, hp]
  exact counted_closeWanted h

/-- The new volume's state, before what waits for it goes on. -/
def volumeMade (s : State) (n : Nat) : State :=
  let c := volumeCleared s
  let b := c.bnd.active.getD {}
  setReg { c with qre := { c.qre with
    vol := 1, cur := n, mounting := false, width := b.width, rows := b.rows, collDigest := b.collDigest, lossCount := 0, losses := []
    dirSeq := 0, prevDir := none } } .qreVolume 0 ((n + 1) % 65536 * 65536)

theorem newVolume_eq (s : State) (n : Nat) : newVolume s n = volumeOpen (volumeMade s n) := rfl

theorem regBits_volumeMade (s : State) (n : Nat) : regBits (volumeMade s n) .qreVolume 0 31 16 = (n + 1) % 65536 := by
  have hl : look (volumeMade s n).regs (regOffset .qreVolume 0) = some (BitVec.ofNat 64 ((n + 1) % 65536 * 65536)) := look_ins_self ..
  have hr : reg (volumeMade s n) .qreVolume 0 = (BitVec.ofNat 64 ((n + 1) % 65536 * 65536)).toNat := by
    unfold reg
    rw [hl]
    rfl
  rw [regBits, hr, BitVec.toNat_ofNat, bits]
  omega

theorem newVolume_spec (s : State) (n : Nat) (h : NoneWaits s) : let b := s.bnd.active.getD {}
    let t := newVolume s n
    t.qre.vol = 1 ∧ t.qre.cur = n ∧ t.qre.mounting = false ∧ t.qre.width = b.width ∧ t.qre.rows = b.rows ∧ t.qre.collDigest = b.collDigest ∧
    t.qre.losses = [] ∧ t.qre.lossCount = 0 ∧ t.rdc.payloads = [] ∧ regBits t .qreVolume 0 31 16 = (n + 1) % 65536 ∧
    (∀ m, m < 16 → surfAt t m = { missing := !discIn s (m / 2) } ∧ surfWAt t m = {}) := by
  intro b t
  have hc := cleared_volumeCleared s
  have hb : (volumeCleared s).bnd.active.getD {} = b := by rw [hc.bnd]; rfl
  have hw : NoneWaits (volumeMade s n) := ⟨hc.unplaced.trans h.1, hc.waiting.trans h.2.1, fun e he => h.2.2 e (hc.quires ▸ he)⟩
  obtain ⟨hq, hd, hwr, hreg, hbdy, hbnd⟩ := counted_volumeOpen hw
  have hqt : t.qre = (volumeMade s n).qre := hq
  rw [hqt, show t.rdc = _ from hd]
  refine ⟨rfl, rfl, rfl, congrArg Binding.width hb, congrArg Binding.rows hb, congrArg Binding.collDigest hb, rfl, rfl, hc.payloads, ?_,
    fun m hm => ?_⟩
  · change regBits (volumeOpen (volumeMade s n)) .qreVolume 0 31 16 = _
    rw [regBits, reg_congr hreg (congrArg Bdy.overrides hbdy) (congrArg Bnd.active hbnd)]
    exact regBits_volumeMade s n
  · obtain ⟨h1, h2⟩ := surf_freshSurfaces (List.range 16) (clearAbsent (freshPayloads s)) m (List.mem_range.2 hm)
    rw [discIn_of_ports (cleared_clearAbsent _).ports] at h1
    refine ⟨?_, ?_⟩
    · rw [surfAt, hqt]
      exact h1
    · rw [surfWAt, show t.wrc = _ from hwr]
      exact h2

/-! ### Unmounting -/

theorem closeDirectory_of_filed {s : State} (cause : Nat) (hu : unfiled s = []) (ha : unfiledAmends s = []) : closeDirectory s cause = s :=
  if_pos (by simp [hu, ha, takeFit])

/-- The unmount once nothing of this twin's is filling. -/
theorem exec_unmount_of_closed {s : State} (hs : barSealed s = false) (hv : s.qre.vol ≠ 0) (hu : s.qre.unmounting = false)
    (hq : s.qre.quires.any (fun e => e.2.twin == s.tck.twinId && e.2.st == 0) = false) :
    exec .unmount s = .next (send (unmountStep { s with qre := { s.qre with unmounting := true } }) (.mgmt .volumeUnmount)) := by
  have hf : s.qre.quires.filter (fun e => e.2.st == 0 && e.2.twin == s.tck.twinId && decide (0 < e.2.folios)) = [] := by
    refine List.filter_eq_nil_iff.2 (fun e he hp => ?_)
    have := List.any_eq_false.1 hq e he
    simp only [Bool.and_eq_true] at hp this
    exact this ⟨hp.1.2, hp.1.1⟩
  have hb : beginUnmount s = unmountStep { s with qre := { s.qre with unmounting := true } } := by
    refine (if_neg (by simp [hv, hu])).trans ?_
    rw [hf]
    rfl
  refine (if_neg (by simp [hs])).trans ?_
  rw [askUnmount, if_neg (by simp [hv, hu]), hb]

/-- Settles O32. -/
theorem volumesMountAndUnmount : Obligations.VolumesMountAndUnmount := by
  unfold Obligations.VolumesMountAndUnmount
  refine ⟨fun s hb hv hm => ⟨fun h2 => ?_, fun h2 => ?_⟩, fun s h => ?_, fun s found rows coll recs ams hm => ⟨fun hl hb => ?_, fun h => ?_,
    fun v hne hv => ?_⟩, fun s n hu hw hq => newVolume_spec s n ⟨hu, hw, hq⟩, ?_⟩
  · refine (if_neg (by simp [hb])).trans (congrArg _ ?_)
    exact (if_neg (by simp [hv, hm])).trans (if_neg (not_not_intro h2))
  · refine (if_neg (by simp [hb])).trans (congrArg _ ?_)
    exact (if_neg (by simp [hv, hm])).trans (if_pos h2)
  · change execMount s = _
    unfold execMount
    split
    · rfl
    · next hb => exact congrArg _ (if_pos (by rcases h with h | h | h <;> simp_all))
  · rw [exec_mountCatalogueReadDone hm, mountVolume_of_blank hl hb]
  · rw [exec_mountCatalogueReadDone hm, mountVolume_of_unread h]
  · rw [exec_mountCatalogueReadDone hm, mountVolume_of_found hne hv]
  · intro s hs hv hu hf hq asked done
    have he := exec_unmount_of_closed hs hv hu hq
    obtain ⟨d1, d2, d3, d4⟩ : done.qre.unmounting = true ∧ done.qre.filedHere = true ∧ done.qre.filedThere = s.qre.filedThere ∧
        done.spn.paired = s.spn.paired := by
      unfold done send
      split <;> exact ⟨rfl, rfl, rfl, rfl⟩
    refine ⟨fun hbusy => he.trans ?_, fun hbusy hun ham => ⟨fun hp ht => he.trans ?_, fun hor => he.trans ?_⟩⟩
    · exact congrArg (fun t => Host.Outcome.next (asked t)) (if_pos (by simp [hbusy]))
    all_goals
      have hstep : unmountStep { s with qre := { s.qre with unmounting := true } } = finishUnmount done := by
        refine (if_neg (by simp [hf, hbusy])).trans ?_
        have hd : closeDirectory { s with qre := { s.qre with unmounting := true } } 4 = { s with qre := { s.qre with unmounting := true } } :=
          closeDirectory_of_filed 4 hun ham
        rw [hd]
        exact if_neg (by simp [hbusy])
      rw [hstep]
    · exact congrArg (fun t => Host.Outcome.next (asked t)) (if_neg (by simp [d3, d4, hp, ht]))
    · exact congrArg (fun t => Host.Outcome.next (asked t)) (if_pos (by rcases hor with h | h <;> simp [d1, d2, d3, d4, h]))

end Sys2Proof.Machine
end

section
/-! PROOFS. R213, R225 to R229: reconstruction, the rebuild queue, strikes. -/

namespace Sys2Proof.Machine

/-! ### What the end of a late read leaves -/

/-- The loss report, the quire in rebuild and the count of lost rows stand. -/
structure LossesKept (s t : State) : Prop where
  losses : t.qre.losses = s.qre.losses
  rebuilding : t.qre.rebuilding = s.qre.rebuilding
  count : counter t 10 11 = counter s 10 11

theorem lossesKept_refl (s : State) : LossesKept s s := ⟨rfl, rfl, rfl⟩

theorem lossesKept_trans {s t u : State} (h : LossesKept s t) (k : LossesKept t u) : LossesKept s u :=
  ⟨k.losses.trans h.losses, k.rebuilding.trans h.rebuilding, k.count.trans h.count⟩

/-- Every part but the counters and the quires. -/
def lossParts : List Part := [.free, .regs, .splitLatch, .hostRead, .tck, .pwr, .bays, .ports, .bfes, .spn, .out, .cells, .units, .bus, .axes, .rdc,
  .wrc, .cal, .hiu, .cmd, .mem, .kst, .cph, .bdy, .bnd]

theorem lossesKept_of_follows {s t : State} (h : Follows (fun p => lossParts.contains p) s t) : LossesKept s t := by
  obtain ⟨-, hf⟩ := onlyIn_of_follows (parts := lossParts) h
  have hq : t.qre = s.qre := hf .qre (by decide)
  have hc : t.cnt = s.cnt := hf .cnt (by decide)
  exact ⟨by rw [hq], by rw [hq], by rw [counter, hc]; rfl⟩

theorem lossesKept_bumpN (s : State) (b i n : Nat) (h : b * 32 + i ≠ 331) : LossesKept s (bumpN s b i n) :=
  ⟨rfl, rfl, by rw [counter_bumpN, if_neg h]⟩

theorem closing_lossesKept : Closing lossParts LossesKept where
  refl := lossesKept_refl
  trans := lossesKept_trans
  writes := lossesKept_of_follows
  qre _ _ hl hr := ⟨hl, hr, rfl⟩
  count s b i n hb _ := lossesKept_bumpN s b i n (by omega)
  run s m := lossesKept_of_follows (follows_endRun (by decide) (follows_refl s))
  surfW s m w := lossesKept_of_follows (follows_setSurfW (by decide) (follows_refl s))
  send s m := lossesKept_of_follows (follows_send (by decide) (follows_refl s))
  vendorEvent s i := lossesKept_of_follows (follows_vendorEvent (by decide) (follows_refl s))
  needs := by decide

/-- A retraction counts in SRV counters 4 and 7 alone. -/
theorem counter_retractCell_other (s : State) (n cause : Nat) (fault : Bool) {b i : Nat} (h4 : b * 32 + i ≠ 164) (h7 : b * 32 + i ≠ 167) :
    counter (retractCell s n cause fault) b i = counter s b i := by
  have hs : counter (seqFailed s (cellAt s n)) b i = counter s b i := by
    unfold seqFailed
    split
    · rw [counter_bump, if_neg (by omega)]
    · rw [counter_bump, if_neg (by omega)]
    · rfl
  rcases retractCell_cases s n cause fault with h | ⟨m, h⟩
  · rw [h]
    exact hs
  · rw [counter_of_dropped h]
    exact hs

theorem counter_holdFocus_other (s : State) (opu : Nat) {b i : Nat} (h4 : b * 32 + i ≠ 164) (h7 : b * 32 + i ≠ 167) :
    counter (holdFocus s opu) b i = counter s b i := by
  unfold holdFocus
  split
  · split
    · split
      · rfl
      · exact counter_retractCell_other _ _ _ _ h4 h7
    · rfl
  · rfl

theorem counter_holdRetract_other (s : State) (k : Nat) {b i : Nat} (h4 : b * 32 + i ≠ 164) (h7 : b * 32 + i ≠ 167) :
    counter (holdRetract s k) b i = counter s b i := by
  unfold holdRetract
  extract_lets t
  have ht : counter t b i = counter s b i := by
    refine foldl_keeps (fun s => counter s b i) (fun s n => ?_) (bayCells s k) s
    dsimp only
    split
    · rfl
    · exact counter_retractCell_other _ _ _ _ h4 h7
  have hr (u : State) : counter (holdRest u k) b i = counter u b i := by
    have h : OnlyIn [.ports, .spn, .units, .axes] u (holdRest u k) := onlyIn_of_follows (follows_holdRest (by decide) (follows_refl u))
    have hc : (holdRest u k).cnt = u.cnt := h.2 .cnt (by decide)
    rw [counter, hc]
    rfl
  rw [hr, counter_holdFocus_other _ _ h4 h7, counter_holdFocus_other _ _ h4 h7, ht]

theorem lossesKept_settleHold (s : State) (b : Nat) : LossesKept s (settleHold s b) := by
  have h : OnlyIn [.cnt, .ports, .spn, .cells, .units, .axes] s (settleHold s b) :=
    onlyIn_of_follows (follows_settleHold (by decide) (follows_refl s))
  have hq : (settleHold s b).qre = s.qre := h.2 .qre (by decide)
  refine ⟨by rw [hq], by rw [hq], ?_⟩
  unfold settleHold
  dsimp only
  split
  · exact counter_holdRetract_other _ _ (by decide) (by decide)
  · rfl

theorem lossesKept_strike (s : State) (m layer : Nat) : LossesKept s (strike s m layer) := by
  have hR := closing_lossesKept
  have h1 (x : Surf) : LossesKept s (bump (setSurf s m x) 10 5) := lossesKept_trans (hR.setSurf ..) (hR.bump _ _ _ (by decide) (by decide))
  unfold strike
  extract_lets x w ks s1
  have hs1 : LossesKept s s1 := h1 _
  clear_value s1
  refine of_ite ?_ hs1
  refine lossesKept_trans ?_ (lossesKept_settleHold ..)
  refine lossesKept_trans ?_ (hR.checkVolume _)
  refine lossesKept_trans ?_ (lossesKept_of_follows (follows_qualityCal (by decide) (follows_refl _)))
  refine lossesKept_trans ?_ (hR.surfaceFailed ..)
  refine lossesKept_trans ?_ (hR.vendorEvent ..)
  refine lossesKept_trans ?_ (hR.countEvent _ _ _ _ _ _ _ (by decide) (by decide))
  exact lossesKept_trans hs1 (hR.setSurf ..)

theorem lossesKept_rdc (s : State) (x : Rdc) : LossesKept s { s with rdc := x } := ⟨rfl, rfl, rfl⟩

theorem lossesKept_deliver (s : State) (tag slot : Nat) : LossesKept s (deliver_ s tag slot 3) := by
  unfold deliver_
  split
  · exact lossesKept_refl s
  · split
    · exact lossesKept_refl s
    · refine lossesKept_trans ?_ (lossesKept_bumpN _ _ _ _ (by simp))
      refine lossesKept_trans ?_ (lossesKept_rdc _ _)
      exact of_ite ⟨rfl, rfl, rfl⟩ ⟨rfl, rfl, rfl⟩

theorem lossesKept_dropSweep (s : State) (r : ReadSt) : LossesKept s (dropSweep s r).1 :=
  lossesKept_of_follows (follows_dropSweep (by decide) (follows_refl s))

theorem lossesKept_closeRead (s : State) (tag : Nat) : LossesKept s (closeRead s tag) := by
  unfold closeRead
  split
  · exact lossesKept_refl s
  · next r _ =>
    refine of_ite (lossesKept_refl s) ?_
    refine lossesKept_trans ?_ (lossesKept_rdc _ _)
    have hq : LossesKept s (if r.alarm = true then
        qualityCal (dropSweep s r).1 r.req.leaf.surface.val r.req.leaf.layer [.equaliser, .focus, .tilt] else (dropSweep s r).1) := by
      refine of_ite (lossesKept_trans (lossesKept_dropSweep s r) ?_) (lossesKept_dropSweep s r)
      exact lossesKept_of_follows (follows_qualityCal (by decide) (follows_refl _))
    exact of_ite (lossesKept_trans hq (lossesKept_strike ..)) hq

theorem lossesKept_cancelLate (s : State) (q : Quire) (j : Nat) : LossesKept s (cancelLate s q j) := by
  refine closing_lossesKept.foldl (fun s e => ?_) _ s
  refine closing_lossesKept.foldl (fun s f => ?_) _ s
  refine lossesKept_trans ?_ (lossesKept_closeRead ..)
  exact lossesKept_trans (lossesKept_rdc s _) (lossesKept_deliver ..)

theorem cancelLate_of_noReads {s : State} (q : Quire) (j : Nat) (h : s.rdc.reads = []) : cancelLate s q j = s := by
  unfold cancelLate
  rw [h]
  rfl

theorem lossesKept_withSmart (s t : State) : LossesKept t (withSmart s t) :=
  lossesKept_of_follows (follows_withSmart (by decide) (follows_refl t))

theorem withSmart_qre (s t : State) : (withSmart s t).qre = t.qre := by
  have h : OnlyIn [.out, .hiu] t (withSmart s t) := onlyIn_of_follows (follows_withSmart (by decide) (follows_refl t))
  exact h.2 .qre (by decide)

/-! ### The outcome of a row -/

/-- The reads, the bodies kept, the quire in rebuild and the count of lost rows stand. -/
structure RowKept (s t : State) : Prop where
  reads : t.rdc.reads = s.rdc.reads
  rebuilt : t.qre.rebuilt = s.qre.rebuilt
  rebuilding : t.qre.rebuilding = s.qre.rebuilding
  count : counter t 10 11 = counter s 10 11

theorem rowKept_refl (s : State) : RowKept s s := ⟨rfl, rfl, rfl, rfl⟩

theorem rowKept_qre (s : State) {x : Qre} (hb : x.rebuilt = s.qre.rebuilt) (hr : x.rebuilding = s.qre.rebuilding) : RowKept s { s with qre := x } :=
  ⟨rfl, hb, hr, rfl⟩

theorem rowKept_trans {s t u : State} (h : RowKept s t) (k : RowKept t u) : RowKept s u :=
  ⟨k.reads.trans h.reads, k.rebuilt.trans h.rebuilt, k.rebuilding.trans h.rebuilding, k.count.trans h.count⟩

theorem rowKept_send (s : State) (m : SpineMsg) : RowKept s (send s m) := of_ite ⟨rfl, rfl, rfl, rfl⟩ (rowKept_refl s)

theorem send_qre (s : State) (m : SpineMsg) : (send s m).qre = s.qre := by
  unfold send
  split <;> rfl

theorem amendLost_spec (s : State) (q : Quire) (i j : Nat) : RowKept s (amendLost s q i j) ∧ (amendLost s q i j).qre.losses = s.qre.losses := by
  unfold amendLost
  extract_lets was m s1
  split
  · exact ⟨rowKept_refl s, rfl⟩
  · have h1 : RowKept s s1 ∧ s1.qre.losses = s.qre.losses := by
      unfold s1
      split
      · exact ⟨⟨rfl, rfl, rfl, rfl⟩, rfl⟩
      · exact ⟨rowKept_refl s, rfl⟩
    clear_value s1
    split
    · exact h1
    · unfold recordAmend
      refine ⟨rowKept_trans h1.1 (rowKept_trans ?_ (rowKept_send ..)), ?_⟩
      · exact ⟨rfl, rfl, rfl, rfl⟩
      · rw [send_qre]
        exact h1.2

theorem markLost_spec (s : State) (q : Quire) (i j : Nat) : RowKept s (markLost s q i j) ∧ (markLost s q i j).qre.losses = s.qre.losses := by
  obtain ⟨-, hf⟩ := onlyIn_of_follows (parts := [.mem]) (follows_markLost (s0 := s) (s := s) (a1 := q) (a2 := i) (a3 := j) (by decide) (follows_refl s))
  have hq : (markLost s q i j).qre = s.qre := hf .qre (by decide)
  have hr : (markLost s q i j).rdc = s.rdc := hf .rdc (by decide)
  have hc : (markLost s q i j).cnt = s.cnt := hf .cnt (by decide)
  exact ⟨⟨by rw [hr], by rw [hq], by rw [hq], by rw [counter, hc]; rfl⟩, by rw [hq]⟩

/-- The loss of a row of a leaf stands in the report. -/
def LossListed (s : State) (q : Quire) (i j : Nat) : Prop := ∃ l ∈ s.qre.losses, l.quire = q.number ∧ l.leaf = i ∧ l.row = j

theorem reportLoss_spec (s : State) (q : Quire) (i j : Nat) : RowKept s (reportLoss s q i j) ∧
    (s.qre.losses.length < 4096 → (∃ ls, (reportLoss s q i j).qre.losses = s.qre.losses ++ ls ∧ ls.length ≤ 1) ∧ LossListed (reportLoss s q i j) q i j) := by
  unfold reportLoss
  split
  · next h =>
    refine ⟨rowKept_refl s, fun _ => ⟨⟨[], by simp⟩, ?_⟩⟩
    obtain ⟨l, hl, he⟩ := List.any_eq_true.1 h
    simp only [Bool.and_eq_true, beq_iff_eq] at he
    exact ⟨l, hl, he.1.1, he.1.2, he.2⟩
  · refine ⟨rowKept_qre s rfl rfl, fun hlen => ?_⟩
    have hz : s.qre.losses.length + 1 - 4096 = 0 := by omega
    unfold LossListed
    dsimp only
    rw [hz, List.drop_zero]
    exact ⟨⟨_, rfl, by simp⟩, _, List.mem_append_right _ (List.mem_singleton_self _), rfl, rfl, rfl⟩

/-- What a lost folio leads to. -/
def folioLost (q : Quire) (j : Nat) (rebuild : Bool) (s : State) (i : Nat) : State :=
  let s := if rebuild then s else amendLost s q i j
  if i + 2 < q.width then markLost (reportLoss s q i j) q i j else s

theorem rowOutcome_eq (s : State) (q : Quire) (j : Nat) (lost : List Nat) (rebuild : Bool) :
    rowOutcome s q j lost rebuild = if 3 ≤ lost.length then lost.foldl (folioLost q j rebuild) (bump s 10 11)
      else if rebuild = true ∧ lost.length = 1 then bump s 10 9 else if rebuild = true ∧ lost.length = 2 then bump s 10 10 else s := rfl

theorem folioLost_spec (q : Quire) (j : Nat) (rebuild : Bool) (s : State) (i : Nat) : RowKept s (folioLost q j rebuild s i) ∧
    (s.qre.losses.length < 4096 → (∃ ls, (folioLost q j rebuild s i).qre.losses = s.qre.losses ++ ls ∧ ls.length ≤ 1) ∧
      (i + 2 < q.width → LossListed (folioLost q j rebuild s i) q i j)) := by
  unfold folioLost
  extract_lets s1
  have h1 : RowKept s s1 ∧ s1.qre.losses = s.qre.losses := by
    unfold s1
    split
    · exact ⟨rowKept_refl s, rfl⟩
    · exact amendLost_spec s q i j
  clear_value s1
  obtain ⟨hk, hl⟩ := h1
  split
  · next hi =>
    obtain ⟨rk, rl⟩ := reportLoss_spec s1 q i j
    obtain ⟨mk, ml⟩ := markLost_spec (reportLoss s1 q i j) q i j
    refine ⟨rowKept_trans hk (rowKept_trans rk mk), fun hlen => ?_⟩
    unfold LossListed at *
    rw [ml, ← hl]
    obtain ⟨hls, hin⟩ := rl (hl ▸ hlen)
    exact ⟨hls, fun _ => hin⟩
  · next hi => exact ⟨hk, fun _ => ⟨⟨[], by simp [hl], by simp⟩, fun h => absurd h hi⟩⟩

theorem foldl_folioLost (q : Quire) (j : Nat) (rebuild : Bool) (lost : List Nat) (s : State) :
    RowKept s (lost.foldl (folioLost q j rebuild) s) ∧ (s.qre.losses.length + lost.length ≤ 4096 →
      (∃ ls, (lost.foldl (folioLost q j rebuild) s).qre.losses = s.qre.losses ++ ls) ∧
      ∀ i ∈ lost, i + 2 < q.width → LossListed (lost.foldl (folioLost q j rebuild) s) q i j) := by
  induction lost generalizing s with
  | nil => exact ⟨rowKept_refl s, fun _ => ⟨⟨[], by simp⟩, fun i hi => absurd hi (by simp)⟩⟩
  | cons i lost ih =>
    obtain ⟨hk, hf⟩ := folioLost_spec q j rebuild s i
    obtain ⟨ik, il⟩ := ih (folioLost q j rebuild s i)
    refine ⟨rowKept_trans hk ik, fun hlen => ?_⟩
    rw [List.length_cons] at hlen
    obtain ⟨⟨ls, hls, h1⟩, hin⟩ := hf (by omega)
    obtain ⟨⟨ms, hms⟩, hall⟩ := il (by rw [hls, List.length_append]; omega)
    rw [List.foldl_cons]
    refine ⟨⟨ls ++ ms, by rw [hms, hls, List.append_assoc]⟩, fun k hk hw => ?_⟩
    rcases List.mem_cons.1 hk with rfl | hk
    · obtain ⟨l, hl, he⟩ := hin hw
      exact ⟨l, hms ▸ List.mem_append_left _ hl, he⟩
    · exact hall k hk hw

theorem rowOutcome_kept (s : State) (q : Quire) (j : Nat) (lost : List Nat) (rebuild : Bool) :
    (rowOutcome s q j lost rebuild).qre.rebuilding = s.qre.rebuilding := by
  rw [rowOutcome_eq]
  split
  · exact (foldl_folioLost q j rebuild lost (bump s 10 11)).1.rebuilding
  · split
    · rfl
    · split <;> rfl

/-! ### The bodies of a row -/

theorem look_foldl_ins {full r : Tbl Bytes} {f : Nat → Nat} {i : Nat} {x : Bytes} (hm : (i, x) ∈ full) (hx : ∀ e ∈ full, e.1 = i → e.2 = x)
    (hf : ∀ e ∈ full, f e.1 = f i → e.1 = i) : look (full.foldl (fun r e => ins r (f e.1) e.2) r) (f i) = some x := by
  induction full using List.reverseRecOn with
  | nil => exact absurd hm (by simp)
  | append_singleton l e ih =>
    rw [List.foldl_append, List.foldl_cons, List.foldl_nil, look_ins]
    have hel : e ∈ l ++ [e] := List.mem_append_right _ (List.mem_singleton_self _)
    split
    · next h => rw [hx e hel (hf e hel h)]
    · next h =>
      refine ih ?_ (fun d hd => hx d (List.mem_append_left _ hd)) (fun d hd => hf d (List.mem_append_left _ hd))
      rcases List.mem_append.1 hm with hm | hm
      · exact hm
      · rw [List.mem_singleton] at hm
        exact absurd (by rw [← hm]) h

theorem storeRow_spec (s : State) (q : Quire) (j : Fin 64) (full : Tbl Bytes) {i : Nat} {x : Bytes} (hl : look full i = some x)
    (hx : ∀ e ∈ full, e.1 = i → e.2 = x) : look (storeRow s q j full).qre.rebuilt (bodyKey q.number (64 * i + j.val)) = some x := by
  refine look_foldl_ins (f := fun i => bodyKey q.number (64 * i + j.val)) (mem_of_look hl) hx (fun e _ h => ?_)
  simp only [bodyKey] at h
  omega

/-! ### RECONSTRUCTION_DONE -/

/-- Leaves of a row whose body is not known. -/
def lostLeaves (s : State) (q : Quire) (row : Nat) (known : List (Nat × Bytes)) : List Nat :=
  (List.range q.width).filter (fun i => (look (knownRow s q row known) i).isNone)

theorem lostLeaves_length (s : State) (q : Quire) (row : Nat) (known : List (Nat × Bytes)) : (lostLeaves s q row known).length ≤ q.width :=
  (List.length_filter_le ..).trans (by simp)

/-- The state after a row's outcome. -/
def rowDone (s : State) (q : Quire) (row : Nat) (known : List (Nat × Bytes)) (rebuild : Bool) : State :=
  cancelLate (rowOutcome s q row (lostLeaves s q row known) rebuild) q row

theorem rowDone_rebuilding (s : State) (q : Quire) (row : Nat) (known : List (Nat × Bytes)) (rebuild : Bool) :
    (rowDone s q row known rebuild).qre.rebuilding = s.qre.rebuilding :=
  (lossesKept_cancelLate (rowOutcome s q row (lostLeaves s q row known) rebuild) q row).rebuilding.trans (rowOutcome_kept ..)

theorem exec_reconstructionDone_of_read {s : State} {q : Quire} {row : Fin 64} {known : List (Nat × Bytes)} (hq : quireAt s q.number = some q)
    (h2 : q.st = 2) : exec (.reconstructionDone q.number row known false) s = .next (withSmart s
      (match reconstruct q.width (knownRow s q row known) with
      | some full => storeRow (rowDone s q row known false) q row full
      | none => rowDone s q row known false)) := by
  change execReconstructionDone q.number row known false s = _
  simp only [execReconstructionDone, hq, h2]
  cases reconstruct q.width (knownRow s q row known) <;> rfl

/-- The quire with one more row done. -/
def rowCounted (q : Quire) (row : Nat) (lost : List Nat) : Quire :=
  let mask (i : Nat) : Nat := getD q.lostRows 0 i + (if 3 ≤ lost.length ∧ lost.contains i then 2 ^ row else 0)
  { q with
    rowsDone := q.rowsDone ++ [row], hurt := q.hurt ++ lost.filter (fun i => !q.hurt.contains i)
    lostRows := (List.range q.width).foldl (fun r i => put r 0 i (mask i)) q.lostRows }

/-- The bodies that a rebuild keeps of a row. -/
def rowBodies (s : State) (q : Quire) (row : Nat) (known : List (Nat × Bytes)) : Tbl Bytes :=
  (reconstruct q.width (knownRow s q row known)).getD (knownRow s q row known)

theorem exec_reconstructionDone_of_rebuild {s : State} {q : Quire} {row : Fin 64} {known : List (Nat × Bytes)} (hq : quireAt s q.number = some q)
    (h2 : q.st = 2) (hr : s.qre.rebuilding = some q.number) (hd : q.rowsDone.contains row.val = false) :
    exec (.reconstructionDone q.number row known true) s = .next (withSmart s (finishRebuild
      (setQuire (storeRow (rowDone s q row known true) q row (rowBodies s q row known)) (rowCounted q row (lostLeaves s q row known))) q.number)) := by
  change execReconstructionDone q.number row known true s = _
  unfold execReconstructionDone rowBodies
  rw [hq]
  refine (if_neg (by rintro (h | ⟨-, h | h⟩); exacts [h h2, h hr, absurd h (by rw [hd]; decide)])).trans ?_
  cases h : reconstruct q.width (knownRow s q row known) <;> simp only [h] <;> rfl

theorem exec_reconstructionDone_of_other {s : State} {q : Quire} {row : Fin 64} {known : List (Nat × Bytes)} (hq : quireAt s q.number = some q)
    (h : s.qre.rebuilding ≠ some q.number ∨ q.rowsDone.contains row.val = true) : exec (.reconstructionDone q.number row known true) s = .next s := by
  change execReconstructionDone q.number row known true s = _
  unfold execReconstructionDone
  rw [hq]
  exact if_pos (.inr ⟨rfl, h⟩)

/-- A rebuild with rows left goes on. -/
theorem finishRebuild_of_rowsLeft {s : State} {n : Nat} {q : Quire} (hq : quireAt s n = some q) (h : q.rowsDone.length < 64) : finishRebuild s n = s := by
  unfold finishRebuild
  rw [hq]
  exact if_pos h

theorem mem_rowCounted_hurt {q : Quire} {row i : Nat} {lost : List Nat} (h : i ∈ lost) : i ∈ (rowCounted q row lost).hurt := by
  by_cases hq : i ∈ q.hurt
  · exact List.mem_append_left _ hq
  · exact List.mem_append_right _ (List.mem_filter.2 ⟨h, by simpa using hq⟩)

/-! ### Registers -/

theorem regBits_rebuildPause (s : State) (hold : Bool) :
    regBits (setReg s .qreCtl 0 (if hold then 2 else 0)) .qreCtl 0 1 1 = if hold then 1 else 0 := by
  have hl : look (setReg s .qreCtl 0 (if hold then 2 else 0)).regs (regOffset .qreCtl 0) = some (BitVec.ofNat 64 (if hold then 2 else 0)) :=
    look_ins_self ..
  have hr : reg (setReg s .qreCtl 0 (if hold then 2 else 0)) .qreCtl 0 = (BitVec.ofNat 64 (if hold then 2 else 0)).toNat := by
    unfold reg
    rw [hl]
    rfl
  rw [regBits, hr]
  cases hold <;> decide

theorem surfAt_setSurf (s : State) (m : Nat) (x : Surf) (n : Nat) : surfAt (setSurf s m x) n = if m = n then x else surfAt s n := getD_put ..

theorem noteSurface_qre (s : State) (m : Nat) : (noteSurface s m).qre = s.qre := by
  unfold noteSurface
  dsimp only
  split
  · exact send_qre ..
  · rfl

theorem surfAt_clearFail (s : State) (m n : Nat) : surfAt (clearFail s m) n =
    if m = n then { surfAt s m with failedStrikes := false, strikes := [] } else surfAt s n := by
  rw [surfAt, clearFail, noteSurface_qre]
  exact surfAt_setSurf ..

/-- Settles O33. -/
theorem rowsAreRebuilt : Obligations.RowsAreRebuilt := by
  unfold Obligations.RowsAreRebuilt
  refine ⟨fun s hold hb => ?_, fun s n rest q hr hn hc hq hnum h2 => ?_, fun s h => ?_, fun s q row known hq h2 => ?_, fun s m hb => ?_,
    fun s hold m hb => ⟨if_pos hb, if_pos hb⟩⟩
  · exact ⟨_, if_neg (by simp [hb]), regBits_rebuildPause s hold, onlyIn_of_follows (follows_setReg (by decide) (follows_refl s))⟩
  · have hq' : quireAt { s with qre := { s.qre with rebuild := rest } } n = some q := hq
    refine ⟨setQuire { s with qre := { s.qre with rebuild := rest, rebuilding := some n } } { q with hurt := [], rowsDone := [] }, ?_, rfl, rfl,
      ?_, onlyIn_of_follows (follows_setQuire (by decide) (upd_qre (by decide) (follows_refl s)))⟩
    · refine (if_neg (by simp [hc, hn])).trans ?_
      rw [hr]
      dsimp only
      rw [hq']
      exact if_pos h2
    · exact hnum ▸ look_ins_self ..
  · change execRebuildStart s = _
    unfold execRebuildStart
    split
    · rfl
    · next hne =>
      have he : s.qre.rebuild = [] := by
        rcases h with h | h | h
        · exact absurd (.inl h) hne
        · exact absurd (.inr (Option.isSome_iff_ne_none.2 h)) hne
        · exact h
      rw [he]
  · intro t0 lost
    have hcancel := lossesKept_cancelLate (rowOutcome s q row (lostLeaves s q row known) false) q row
    refine ⟨fun h3 hnone => ?_, fun full hlt hfull => ?_, fun hreb hdone hlen => ?_, fun h => exec_reconstructionDone_of_other hq h⟩
    · have hexec := exec_reconstructionDone_of_read (row := row) (known := known) hq h2
      rw [show reconstruct q.width (knownRow s q row known) = none from hnone] at hexec
      have hrow : rowOutcome s q row (lostLeaves s q row known) false = (lostLeaves s q row known).foldl (folioLost q row false) (bump s 10 11) :=
        if_pos h3
      obtain ⟨hk, hloss⟩ := foldl_folioLost q row false (lostLeaves s q row known) (bump s 10 11)
      rw [← hrow] at hk hloss
      have hsmart := lossesKept_withSmart s (rowDone s q row known false)
      refine ⟨_, hexec, ?_, fun hnoreads => ?_, ?_, fun hroom i hi hw => ?_⟩
      · rw [hsmart.count, rowDone, hcancel.count, hk.count]
        exact (counter_bump ..).trans (if_pos rfl)
      · rw [withSmart_qre, rowDone, cancelLate_of_noReads q row (hk.reads.trans hnoreads), hk.rebuilt]
        rfl
      · rw [hsmart.rebuilding, rowDone, hcancel.rebuilding, hk.rebuilding]
        rfl
      · have hlen := lostLeaves_length s q row known
        obtain ⟨-, hall⟩ := hloss (Nat.le_trans (Nat.add_le_add_left hlen _) hroom)
        obtain ⟨l, hl, he⟩ := hall i hi hw
        exact ⟨l, by rw [hsmart.losses, rowDone, hcancel.losses]; exact hl, he⟩
    · have hexec := exec_reconstructionDone_of_read (row := row) (known := known) hq h2
      rw [show reconstruct q.width (knownRow s q row known) = some full from hfull] at hexec
      have hrow : rowOutcome s q row (lostLeaves s q row known) false = s :=
        (if_neg (by change ¬ 3 ≤ lost.length; omega)).trans ((if_neg (by simp)).trans (if_neg (by simp)))
      rw [hrow] at hcancel
      have hsmart := lossesKept_withSmart s (storeRow (rowDone s q row known false) q row full)
      have hdone : rowDone s q row known false = cancelLate s q row := congrArg (fun t => cancelLate t q row) hrow
      refine ⟨_, hexec, fun i x hl hx _ _ => ?_, ?_, ?_⟩
      · rw [withSmart_qre]
        exact storeRow_spec _ q row full hl hx
      · rw [hsmart.count, hdone]
        exact hcancel.count
      · rw [hsmart.losses, hdone]
        exact hcancel.losses
    · have hexec := exec_reconstructionDone_of_rebuild (row := row) (known := known) hq h2 hreb hdone
      have hat : quireAt (setQuire (storeRow (rowDone s q row known true) q row (rowBodies s q row known)) (rowCounted q row (lostLeaves s q row known)))
          q.number = some (rowCounted q row (lostLeaves s q row known)) := look_ins_self ..
      rw [finishRebuild_of_rowsLeft hat (by simp [rowCounted]; omega)] at hexec
      refine ⟨_, rowCounted q row (lostLeaves s q row known), hexec, ?_, rfl, fun i hi => mem_rowCounted_hurt hi, ?_⟩
      · rw [quireAt, withSmart_qre]
        exact hat
      · rw [withSmart_qre]
        exact (rowDone_rebuilding s q row known true).trans hreb
  · refine ⟨_, if_neg (by simp [hb]), (surfAt_clearFail ..).trans (if_pos rfl), fun n hn => (surfAt_clearFail ..).trans (if_neg hn.symm),
      onlyIn_of_follows (follows_clearFail (by decide) (follows_refl s))⟩

end Sys2Proof.Machine
end

section
/-! PROOFS. R189 to R194, R197: calibrations become due, run, agree or fail, and step. -/

namespace Sys2Proof.Machine

/-! ### Records and jobs -/

theorem calAt_setCal (s : State) (o l : Nat) (r : CalRec) (o' l' : Nat) :
    calAt (setCal s o l r) o' l' = if o * 16 + l = o' * 16 + l' then r else calAt s o' l' := getD_put ..

theorem calAt_congr {s : State} {o l o' l' : Nat} (h : o * 16 + l = o' * 16 + l') : calAt s o l = calAt s o' l' := by
  unfold calAt
  rw [h]

/-- What a field of every record keeps when one record is stored with that field as it was. -/
theorem calAt_setCal_keeps {α : Type} {f : CalRec → α} (s : State) (o l : Nat) {r : CalRec} (h : f r = f (calAt s o l)) (o' l' : Nat) :
    f (calAt (setCal s o l r) o' l') = f (calAt s o' l') := by
  rw [calAt_setCal]
  split
  · next he => rw [h, calAt_congr he]
  · rfl

/-- The job of an OPU, layer and kind. -/
def isJob (o l : Nat) (k : CalKind) (j : CalJob) : Bool := j.opu == o && j.layer == l && j.kind == k

theorem isJob_iff {o l : Nat} {k : CalKind} {j : CalJob} : isJob o l k j = true ↔ j.opu = o ∧ j.layer = l ∧ j.kind = k := by
  simp [isJob, and_assoc]

theorem jobOf_eq (s : State) (o l : Nat) (k : CalKind) : jobOf s o l k = s.cal.jobs.find? (isJob o l k) := rfl

theorem jobOf_ne_none {s : State} {o l : Nat} {k : CalKind} : jobOf s o l k ≠ none ↔ ∃ j ∈ s.cal.jobs, isJob o l k j = true := by
  rw [jobOf_eq, ← Option.isSome_iff_ne_none, List.find?_isSome]

theorem isJob_of_jobOf {s : State} {o l : Nat} {k : CalKind} {j : CalJob} (h : jobOf s o l k = some j) : j.opu = o ∧ j.layer = l ∧ j.kind = k :=
  isJob_iff.1 (List.find?_some h)

theorem jobOf_congr {s t : State} (h : t.cal.jobs = s.cal.jobs) (o l : Nat) (k : CalKind) : jobOf t o l k = jobOf s o l k := by
  rw [jobOf_eq, jobOf_eq, h]

theorem jobOf_endJob (s : State) (o l : Nat) (k : CalKind) : jobOf (endJob s o l k) o l k = none := by
  rw [jobOf_eq, List.find?_eq_none]
  intro j hj
  have h := (List.mem_filter.1 hj).2
  change (!isJob o l k j) = true at h
  simpa using h

theorem jobOf_setJob {s : State} {o l : Nat} {k : CalKind} {j n : CalJob} (h : jobOf s o l k = some j) (hn : isJob o l k n = true) :
    jobOf (setJob s n) o l k = some n := by
  obtain ⟨rfl, rfl, rfl⟩ := isJob_iff.1 hn
  rw [jobOf_eq] at h ⊢
  simp only [setJob]
  generalize s.cal.jobs = js at h
  induction js with
  | nil => simp at h
  | cons i js ih =>
    by_cases hi : isJob n.opu n.layer n.kind i = true
    · rw [List.map_cons, if_pos (isJob_iff.1 hi), List.find?_cons_of_pos hn]
    · rw [List.map_cons, if_neg (fun e => hi (isJob_iff.2 e)), List.find?_cons_of_neg hi]
      exact ih (by rwa [List.find?_cons_of_neg hi] at h)

/-! ### Triggers -/

theorem runOnly_dueCal (s : State) (o l : Nat) (k : CalKind) (b w : Bool) (o' l' : Nat) :
    (calAt (dueCal s o l k b w) o' l').runOnly = (calAt s o' l').runOnly := by
  unfold dueCal
  dsimp only
  split
  · exact calAt_setCal_keeps (f := CalRec.runOnly) (r := { calAt s o l with ignored := (calAt s o l).ignored + 1 }) s o l rfl o' l'
  · split <;> rfl

/-- A trigger takes no job away. -/
theorem dueCal_keeps {s : State} {o' l' : Nat} {k' : CalKind} (o l : Nat) (k : CalKind) (b w : Bool) (h : jobOf s o' l' k' ≠ none) :
    jobOf (dueCal s o l k b w) o' l' k' ≠ none := by
  unfold dueCal
  dsimp only
  split
  · exact h
  · rw [jobOf_ne_none] at h ⊢
    obtain ⟨j, hj, he⟩ := h
    split
    · refine ⟨_, List.mem_map.2 ⟨j, hj, rfl⟩, ?_⟩
      split
      · exact he
      · exact he
    · exact ⟨j, List.mem_append_left _ hj, he⟩

/-- A trigger has a job stand, but an OPC trigger on a running-OPC-only layer. -/
theorem dueCal_adds {s : State} {o l : Nat} {k : CalKind} (b w : Bool) (h : k = .opc → (calAt s o l).runOnly = false) :
    jobOf (dueCal s o l k b w) o l k ≠ none := by
  unfold dueCal
  dsimp only
  split
  · next hk => exact absurd hk.2 (by simp [h hk.1])
  · rw [jobOf_ne_none]
    split
    · next ha =>
      obtain ⟨j, hj, he⟩ := List.any_eq_true.1 ha
      have he : isJob o l k j = true := he
      refine ⟨_, List.mem_map.2 ⟨j, hj, rfl⟩, ?_⟩
      split
      · exact he
      · exact he
    · exact ⟨_, List.mem_append_right _ (List.mem_singleton_self _), by simp [isJob]⟩

/-- Whether a job stands, and running OPC only, over triggers. -/
structure Due (s t : State) : Prop where
  jobs : ∀ o l k, jobOf s o l k ≠ none → jobOf t o l k ≠ none
  runOnly : ∀ o l, (calAt t o l).runOnly = (calAt s o l).runOnly

theorem due_refl (s : State) : Due s s := ⟨fun _ _ _ h => h, fun _ _ => rfl⟩

theorem due_trans {s t u : State} (h : Due s t) (g : Due t u) : Due s u :=
  ⟨fun o l k hj => g.jobs o l k (h.jobs o l k hj), fun o l => (g.runOnly o l).trans (h.runOnly o l)⟩

theorem due_dueCal (s : State) (o l : Nat) (k : CalKind) (b w : Bool) : Due s (dueCal s o l k b w) :=
  ⟨fun _ _ _ h => dueCal_keeps o l k b w h, runOnly_dueCal s o l k b w⟩

theorem due_foldl {α : Type} {f : State → α → State} (h : ∀ s a, Due s (f s a)) (l : List α) (s : State) : Due s (l.foldl f s) := by
  induction l generalizing s with
  | nil => exact due_refl s
  | cons a l ih => exact due_trans (h s a) (ih _)

/-- A job that one step of a fold makes stand stands at its end. -/
theorem jobOf_foldl {α : Type} {f : State → α → State} (h : ∀ s a, Due s (f s a)) {l : List α} {a : α} (ha : a ∈ l) {o n : Nat} {k : CalKind}
    {s : State} (hs : ∀ t, Due s t → jobOf (f t a) o n k ≠ none) : jobOf (l.foldl f s) o n k ≠ none := by
  obtain ⟨l1, l2, rfl⟩ := List.append_of_mem ha
  rw [List.foldl_append, List.foldl_cons]
  exact (due_foldl h l2 _).jobs o n k (hs _ (due_foldl h l1 s))

theorem requestCal_adds {s : State} {n o l : Nat} {k : CalKind} (hr : runs s (o / 2) = true) (hk : k ∈ reqKinds n)
    (h : k = .opc → (calAt s o l).runOnly = false) : jobOf (requestCal s n o l) o l k ≠ none := by
  unfold requestCal
  rw [if_pos hr]
  exact jobOf_foldl (fun s k => due_dueCal s o l k false true) hk (fun t ht => dueCal_adds _ _ (fun e => (ht.runOnly o l).trans (h e)))

/-- What CAL_ELAPSED_TIMER does for one record. -/
def elapsed (opc : Bool) (h : Nat) (s : State) (e : Nat × CalRec) : State :=
  let r := e.2
  let old (t : Nat) := decide (t + h * 3600 * Config.sec ≤ now s)
  if opc then (if r.valid.getLsbD 0 && old r.atOpc then dueCal s (e.1 / 16) (e.1 % 16) .opc false else s)
  else if r.valid.getLsbD 1 && old r.atEq then
    [CalKind.equaliser, .focus, .tilt, .corrector].foldl (fun s k => dueCal s (e.1 / 16) (e.1 % 16) k false) s
  else s

theorem exec_calElapsedTimer (opc : Bool) (s : State) : exec (.calElapsedTimer opc) s =
    if (if opc then regBits s .calInterval 0 31 16 else regBits s .calInterval 0 15 0) = 0 then .next s
    else .next (s.cal.recs.foldl (elapsed opc (if opc then regBits s .calInterval 0 31 16 else regBits s .calInterval 0 15 0)) s) := rfl

theorem due_elapsed (opc : Bool) (h : Nat) (s : State) (e : Nat × CalRec) : Due s (elapsed opc h s e) := by
  unfold elapsed
  dsimp only
  refine of_ite (of_ite (due_dueCal ..) (due_refl s)) (of_ite ?_ (due_refl s))
  exact due_foldl (fun s k => due_dueCal s _ _ k false false) _ s

/-- Triggers move no stitch count. -/
theorem now_elapsed (opc : Bool) (h : Nat) (s : State) (e : Nat × CalRec) : now (elapsed opc h s e) = now s := by
  have hd (s : State) (o l : Nat) (k : CalKind) : now (dueCal s o l k false false) = now s := by
    unfold dueCal
    dsimp only
    split
    · rfl
    · split <;> rfl
  unfold elapsed
  dsimp only
  split
  · split
    · exact hd ..
    · rfl
  · split
    · exact foldl_keeps (fun s => now s) (fun s k => hd s _ _ k) _ s
    · rfl

theorem elapsed_true (h : Nat) (s : State) (e : Nat × CalRec) : elapsed true h s e =
    if (e.2.valid.getLsbD 0 && decide (e.2.atOpc + h * 3600 * 250000 ≤ now s)) = true then dueCal s (e.1 / 16) (e.1 % 16) .opc false else s := rfl

theorem elapsed_false (h : Nat) (s : State) (e : Nat × CalRec) : elapsed false h s e =
    if (e.2.valid.getLsbD 1 && decide (e.2.atEq + h * 3600 * 250000 ≤ now s)) = true then
      [CalKind.equaliser, .focus, .tilt, .corrector].foldl (fun s k => dueCal s (e.1 / 16) (e.1 % 16) k false) s else s := rfl

theorem elapsed_opc {h : Nat} {s : State} {e : Nat × CalRec} (hv : e.2.valid.getLsbD 0 = true) (ho : e.2.atOpc + h * 3600 * 250000 ≤ now s)
    (hr : (calAt s (e.1 / 16) (e.1 % 16)).runOnly = false) : jobOf (elapsed true h s e) (e.1 / 16) (e.1 % 16) .opc ≠ none := by
  have he : elapsed true h s e = dueCal s (e.1 / 16) (e.1 % 16) .opc false := by
    refine (elapsed_true h s e).trans (if_pos ?_)
    rw [hv, Bool.true_and, decide_eq_true_eq]
    exact ho
  rw [he]
  exact dueCal_adds _ _ (fun _ => hr)

theorem elapsed_eq {h : Nat} {s : State} {e : Nat × CalRec} {k : CalKind} (hv : e.2.valid.getLsbD 1 = true)
    (ho : e.2.atEq + h * 3600 * 250000 ≤ now s) (hk : k ∈ [CalKind.equaliser, .focus, .tilt, .corrector]) :
    jobOf (elapsed false h s e) (e.1 / 16) (e.1 % 16) k ≠ none := by
  have he : elapsed false h s e = [CalKind.equaliser, .focus, .tilt, .corrector].foldl
      (fun s k => dueCal s (e.1 / 16) (e.1 % 16) k false) s := by
    refine (elapsed_false h s e).trans (if_pos ?_)
    rw [hv, Bool.true_and, decide_eq_true_eq]
    exact ho
  rw [he]
  refine jobOf_foldl (fun s k => due_dueCal s _ _ k false false) hk (fun t _ => dueCal_adds _ _ (fun e => ?_))
  rw [e] at hk
  exact absurd hk (by decide)

theorem now_foldl_elapsed (opc : Bool) (h : Nat) (l : List (Nat × CalRec)) (s : State) : now (l.foldl (elapsed opc h) s) = now s :=
  foldl_keeps (fun s => now s) (fun s e => now_elapsed opc h s e) l s

/-- A record that is as old as the interval has its calibrations due. -/
theorem foldl_elapsed {opc : Bool} {h : Nat} {s : State} {l : List (Nat × CalRec)} {e : Nat × CalRec} (he : e ∈ l) {k : CalKind}
    (hs : ∀ t, Due s t → now t = now s → jobOf (elapsed opc h t e) (e.1 / 16) (e.1 % 16) k ≠ none) :
    jobOf (l.foldl (elapsed opc h) s) (e.1 / 16) (e.1 % 16) k ≠ none := by
  obtain ⟨l1, l2, rfl⟩ := List.append_of_mem he
  rw [List.foldl_append, List.foldl_cons]
  exact (due_foldl (due_elapsed opc h) l2 _).jobs _ _ k (hs _ (due_foldl (due_elapsed opc h) l1 s) (now_foldl_elapsed opc h l1 s))

/-- What CAL_ELAPSED_TIMER leaves. -/
theorem calElapsedTimer_spec (s : State) (opc : Bool) : (regBits s .calInterval 0 31 16 = 0 → exec (.calElapsedTimer true) s = .next s) ∧
    (regBits s .calInterval 0 15 0 = 0 → exec (.calElapsedTimer false) s = .next s) ∧
    (∃ t, exec (.calElapsedTimer opc) s = .next t ∧ OnlyIn [.cal] s t ∧
      (opc = true → regBits s .calInterval 0 31 16 ≠ 0 → ∀ e ∈ s.cal.recs, e.2.valid.getLsbD 0 = true →
        e.2.atOpc + regBits s .calInterval 0 31 16 * 3600 * 250000 ≤ now s → (calAt s (e.1 / 16) (e.1 % 16)).runOnly = false →
        jobOf t (e.1 / 16) (e.1 % 16) .opc ≠ none) ∧
      (opc = false → regBits s .calInterval 0 15 0 ≠ 0 → ∀ e ∈ s.cal.recs, e.2.valid.getLsbD 1 = true →
        e.2.atEq + regBits s .calInterval 0 15 0 * 3600 * 250000 ≤ now s →
        ∀ k ∈ [CalKind.equaliser, .focus, .tilt, .corrector], jobOf t (e.1 / 16) (e.1 % 16) k ≠ none)) := by
  refine ⟨fun h => if_pos h, fun h => if_pos h, ?_⟩
  have hreach (t : State) (h : exec (.calElapsedTimer opc) s = .next t) : OnlyIn [.cal] s t := everyCommandStaysInItsReach _ s t h
  cases opc with
  | true =>
    by_cases h0 : regBits s .calInterval 0 31 16 = 0
    · exact ⟨s, if_pos h0, hreach s (if_pos h0), fun _ h => absurd h0 h, fun h => absurd h (by decide)⟩
    · refine ⟨_, if_neg h0, hreach _ (if_neg h0), fun _ _ e he hv hold hr => ?_, fun h => absurd h (by decide)⟩
      exact foldl_elapsed he (fun t ht hn => elapsed_opc hv (hn ▸ hold) ((ht.runOnly ..).trans hr))
  | false =>
    by_cases h0 : regBits s .calInterval 0 15 0 = 0
    · exact ⟨s, if_pos h0, hreach s (if_pos h0), fun h => absurd h (by decide), fun _ h => absurd h0 h⟩
    · refine ⟨_, if_neg h0, hreach _ (if_neg h0), fun h => absurd h (by decide), fun _ _ e he hv hold k hk => ?_⟩
      exact foldl_elapsed he (fun t _ hn => elapsed_eq hv (hn ▸ hold) hk)

/-! ### The start of a run -/

/-- Jobs and bays stand. -/
structure JobsKept (s t : State) : Prop where
  jobs : t.cal.jobs = s.cal.jobs
  bays : t.bays = s.bays

theorem jobsKept_refl (s : State) : JobsKept s s := ⟨rfl, rfl⟩

theorem jobsKept_trans {s t u : State} (h : JobsKept s t) (g : JobsKept t u) : JobsKept s u := ⟨g.jobs.trans h.jobs, g.bays.trans h.bays⟩

theorem jobsKept_of_onlyIn {l : List Part} {s t : State} (h : OnlyIn l s t) (hc : Part.cal ∉ l) (hb : Part.bays ∉ l) : JobsKept s t := by
  have hcal : t.cal = s.cal := h.2 .cal hc
  exact ⟨by rw [hcal], h.2 .bays hb⟩

theorem jobsKept_setCal (s : State) (o l : Nat) (r : CalRec) : JobsKept s (setCal s o l r) := ⟨rfl, rfl⟩

theorem jobsKept_bump (s : State) (b i : Nat) : JobsKept s (bump s b i) := ⟨rfl, rfl⟩

theorem jobsKept_setNextRun (s : State) (o l n : Nat) : JobsKept s (setNextRun s o l n) := by
  unfold setNextRun
  dsimp only
  exact of_ite (jobsKept_trans (jobsKept_setCal ..) (jobsKept_bump ..)) (jobsKept_setCal ..)

theorem jobsKept_sendPosition (s : State) (m : Nat) (r : Run) : JobsKept s (sendPosition s m r) :=
  jobsKept_of_onlyIn (l := [.bfes, .wrc]) (onlyIn_of_follows (follows_sendPosition (by decide) (follows_refl s))) (by decide) (by decide)

theorem jobsKept_readSpots (s : State) (o l : Nat) (b : Bool) : JobsKept s (readSpots s o l b) :=
  jobsKept_of_onlyIn (l := [.ports, .rdc]) (onlyIn_of_follows (follows_readSpots (by decide) (follows_refl s))) (by decide) (by decide)

theorem jobsKept_trialPoint (s : State) (o l : Nat) (k : CalKind) (n : Nat) : JobsKept s (trialPoint s o l k n) :=
  jobsKept_of_onlyIn (l := [.spn, .cells, .axes]) (onlyIn_of_follows (follows_trialPoint (by decide) (follows_refl s))) (by decide) (by decide)

/-- A run's trail cells loaded, before it stands on its OPU. -/
def runLoaded (s : State) (m : Nat) (r : Run) : State :=
  ((List.range 4).filter (fun k => r.slots.any (fun x => slotLane x.slot = k))).foldl (fun s k => loadChan s m r.layer k 1 false) (latchCfg s m)

/-- The run on its OPU, before its first position goes down. -/
def runSet (s : State) (m : Nat) (r : Run) : State :=
  let cap := capBinds s m r.layer (frameZone r.frame)
  let s := setOpu s m { opuAt s m with run := some r, capBind := cap, cleared := false, streams := [] }
  let s := { s with wrc := { s.wrc with encBusy := s.wrc.encBusy + runLanes r.slots }, cal := { s.cal with curLayer := ins s.cal.curLayer m r.layer } }
  if cap then bump s 9 7 else s

theorem startRun_eq (s : State) (m : Nat) (r : Run) : startRun s m r = sendPosition (runSet (runLoaded s m r) m r) m r := rfl

theorem onlyIn_runLoaded (s : State) (m : Nat) (r : Run) : OnlyIn [.ports, .rdc] s (runLoaded s m r) := by
  refine onlyIn_of_follows (follows_foldl (follows_latchCfg (by decide) (follows_refl s)) ?_)
  exact fun u b h => follows_loadChan (by decide) h

/-- Whatever is read of the calibration store and of the counters but WRC's seventh stands. -/
structure RunBegun (s t : State) : Prop where
  jobs : JobsKept s t
  recs : t.cal.recs = s.cal.recs
  count : counter t 15 1 = counter s 15 1

theorem runBegun_trans {s t u : State} (h : RunBegun s t) (g : RunBegun t u) : RunBegun s u :=
  ⟨jobsKept_trans h.jobs g.jobs, g.recs.trans h.recs, g.count.trans h.count⟩

theorem runBegun_of_onlyIn {l : List Part} {s t : State} (h : OnlyIn l s t) (hc : Part.cal ∉ l) (hb : Part.bays ∉ l) (hn : Part.cnt ∉ l) :
    RunBegun s t := by
  have hcal : t.cal = s.cal := h.2 .cal hc
  have hcnt : t.cnt = s.cnt := h.2 .cnt hn
  exact ⟨jobsKept_of_onlyIn h hc hb, by rw [hcal], by rw [counter, hcnt]; rfl⟩

theorem runBegun_runSet (s : State) (m : Nat) (r : Run) : RunBegun s (runSet s m r) := by
  unfold runSet
  dsimp only
  refine of_ite ⟨⟨rfl, rfl⟩, rfl, ?_⟩ ⟨⟨rfl, rfl⟩, rfl, rfl⟩
  exact (counter_bump ..).trans (if_neg (by decide))

theorem runBegun_startRun (s : State) (m : Nat) (r : Run) : RunBegun s (startRun s m r) := by
  rw [startRun_eq]
  refine runBegun_trans (runBegun_of_onlyIn (onlyIn_runLoaded s m r) (by decide) (by decide) (by decide)) ?_
  refine runBegun_trans (runBegun_runSet (runLoaded s m r) m r) ?_
  have h (u : State) : OnlyIn [.bfes, .wrc] u (sendPosition u m r) := onlyIn_of_follows (follows_sendPosition (by decide) (follows_refl u))
  exact runBegun_of_onlyIn (h _) (by decide) (by decide) (by decide)

/-- The words of a position change no run. -/
theorem run_sendWords (s : State) (m lane : Nat) (ws : List Word) (n : Nat) : (opuAt (sendWords s m lane ws) n).run = (opuAt s n).run := by
  have hset (t : State) (o : OpuW) (h : o.run = (opuAt t m).run) : (opuAt (setOpu t m o) n).run = (opuAt t n).run := by
    rw [opuAt_setOpu]
    split
    · next e => rw [h, e]
    · rfl
  unfold sendWords
  dsimp only
  split
  · exact hset s _ rfl
  · exact hset s _ rfl

/-- The run whose first position has gone down. -/
theorem run_sendPosition (s : State) (m : Nat) (r : Run) : ∃ x, (opuAt (sendPosition s m r) m).run = some x ∧ x.opc = r.opc ∧ x.frame = r.frame ∧
    x.slots.map (·.slot) = r.slots.map (·.slot) ∧ x.start = r.start := by
  unfold sendPosition
  extract_lets p r'
  refine ⟨r', ?_, rfl, rfl, ?_, rfl⟩
  · refine (foldl_keeps (fun s => (opuAt s m).run) (fun s lane => run_sendWords s m lane _ m) _ _).trans ?_
    rw [opuAt_setOpu, if_pos rfl]
  · unfold r'
    rw [List.map_map]
    refine List.map_congr_left (fun x _ => ?_)
    simp only [Function.comp_apply]
    split <;> rfl

/-- The test run's state before it starts. -/
def testCleared (s : State) (opu : Nat) : State :=
  let s := setSurf s opu { surfAt s opu with gen := (surfAt s opu).gen + 8 }
  { s with cal := { s.cal with results := s.cal.results.filter (fun v => v.opu ≠ opu) } }

/-- An OPC run as it starts. -/
def testRun (s : State) (opu layer n act : Nat) (at_ : Nat × Nat × Nat) : Run :=
  { quire := 0, leaf := 0, opc := some n, act := act, layer := layer, frame := n / 8, start := now s + at_.1, stitch16 := at_.2.1, bit := at_.2.2
    encoded := opcSlots n, slots := (List.range 8).map (fun i => testSlot s opu layer n i (now s + at_.1)) }

theorem startTest_eq (s : State) (opu layer n act : Nat) (at_ : Nat × Nat × Nat) :
    startTest s opu layer n act at_ = startRun (testCleared s opu) opu (testRun s opu layer n act at_) := rfl

/-- What the start of an OPC run leaves. -/
theorem startTest_spec (s : State) (opu layer n act : Nat) (at_ : Nat × Nat × Nat) : RunBegun s (startTest s opu layer n act at_) ∧
    ∃ x, (opuAt (startTest s opu layer n act at_) opu).run = some x ∧ x.opc = some n ∧ x.frame = n / 8 ∧ x.slots.map (·.slot) = opcSlots n ∧
      x.start = now s + at_.1 := by
  have hc : RunBegun s (testCleared s opu) := ⟨⟨rfl, rfl⟩, rfl, rfl⟩
  rw [startTest_eq]
  refine ⟨runBegun_trans hc (runBegun_startRun ..), ?_⟩
  rw [startRun_eq]
  obtain ⟨x, hx, ho, hf, hs, ht⟩ := run_sendPosition (runSet (runLoaded (testCleared s opu) opu (testRun s opu layer n act at_)) opu
    (testRun s opu layer n act at_)) opu (testRun s opu layer n act at_)
  refine ⟨x, hx, ho, hf, hs.trans ?_, ht⟩
  simp [testRun, opcSlots, testSlot]

theorem setNextRun_spec (s : State) (opu layer n : Nat) : (calAt (setNextRun s opu layer n) opu layer).nextRun = min n 64 ∧
    (64 ≤ n → (calAt (setNextRun s opu layer n) opu layer).exhausted = true) ∧ counter (setNextRun s opu layer n) 15 1 = counter s 15 1 := by
  unfold setNextRun
  dsimp only
  have hc (t : State) : counter (bump t 15 6) 15 1 = counter t 15 1 := (counter_bump ..).trans (if_neg (by decide))
  have ha (r : CalRec) : calAt (setCal s opu layer r) opu layer = r := (calAt_setCal ..).trans (if_pos rfl)
  split
  · refine ⟨?_, fun h => ?_, hc _⟩
    · exact congrArg CalRec.nextRun (ha _)
    · exact (congrArg CalRec.exhausted (ha _)).trans (by simp [h])
  · refine ⟨congrArg CalRec.nextRun (ha _), fun h => (congrArg CalRec.exhausted (ha _)).trans (by simp [h]), rfl⟩

/-- The next run of a layer taken for an OPC run, and counted. -/
def runTaken (s : State) (opu layer n : Nat) : State := bump (setNextRun s opu layer (n + 1)) 15 1

theorem beginRun_opc (s : State) (opu layer n act : Nat) (at_ : Nat × Nat × Nat) :
    beginRun s opu layer .opc n act at_ = startTest (runTaken s opu layer n) opu layer n act at_ := rfl

theorem jobsKept_beginRun (s : State) (opu layer : Nat) (k : CalKind) (n act : Nat) (at_ : Nat × Nat × Nat) :
    JobsKept s (beginRun s opu layer k n act at_) := by
  have hother (k : CalKind) (b : Bool) : JobsKept s (trialPoint (readSpots s opu layer b) opu layer k 0) :=
    jobsKept_trans (jobsKept_readSpots ..) (jobsKept_trialPoint ..)
  cases k with
  | opc =>
    rw [beginRun_opc]
    refine jobsKept_trans (t := runTaken s opu layer n) ?_ (startTest_spec ..).1.jobs
    exact jobsKept_trans (jobsKept_setNextRun ..) (jobsKept_bump ..)
  | bfeOffsets => exact jobsKept_trans (jobsKept_readSpots s opu layer false) ⟨rfl, rfl⟩
  | equaliser => exact hother .equaliser true
  | focus => exact hother .focus false
  | tilt => exact hother .tilt false
  | corrector => exact hother .corrector false

theorem beginRun_opc_spec {s t : State} {opu layer n act : Nat} {at_ : Nat × Nat × Nat} (hn : n < 64)
    (ht : t = startTest (runTaken s opu layer n) opu layer n act at_) :
    (calAt t opu layer).nextRun = n + 1 ∧ counter t 15 1 = counter s 15 1 + 1 ∧ ∃ x, (opuAt t opu).run = some x ∧ x.opc = some n ∧
      x.frame = n / 8 ∧ x.slots.map (·.slot) = opcSlots n ∧ x.start = now s + at_.1 := by
  obtain ⟨⟨-, hrecs, hcount⟩, hrun⟩ := startTest_spec (runTaken s opu layer n) opu layer n act at_
  rw [← ht] at hrecs hcount hrun
  obtain ⟨hnext, -, hc⟩ := setNextRun_spec s opu layer (n + 1)
  have hnow : now (runTaken s opu layer n) = now s := by
    unfold runTaken setNextRun
    dsimp only
    split <;> rfl
  rw [hnow] at hrun
  refine ⟨?_, hcount.trans ?_, hrun⟩
  · refine (congrArg (fun r => (getD r ({} : CalRec) (opu * 16 + layer)).nextRun) hrecs).trans (hnext.trans ?_)
    omega
  · rw [runTaken, counter_bump, if_pos rfl, hc]

/-- The state in which a run of a job begins. -/
def runGranted (s : State) (opu : Nat) (j : CalJob) : State :=
  grant (setJob s { j with running := true, point := 0, since := now s }) opu (if j.blocking then 1 else 6)

/-- A run has begun: its job runs and its grant stands. -/
theorem runGranted_begun {s t : State} {opu layer : Nat} {k : CalKind} {j : CalJob} (hj : jobOf s opu layer k = some j)
    (h : JobsKept (runGranted s opu j) t) : jobOf t opu layer k = some { j with running := true, point := 0, since := now s } ∧
      (bayAt t (opu / 2)).grants = (bayAt s (opu / 2)).grants ++ [(opu, if j.blocking then 1 else 6)] := by
  have hi : isJob opu layer k { j with running := true, point := 0, since := now s } = true := isJob_iff.2 (isJob_of_jobOf (j := j) hj)
  refine ⟨(jobOf_congr h.jobs ..).trans (jobOf_setJob hj hi), ?_⟩
  refine (congrArg (fun b => (getD b ({} : Bay) (opu / 2)).grants) h.bays).trans ?_
  refine (congrArg Bay.grants (bayAt_setBay ..)).trans ?_
  rw [if_pos rfl, stampBay_grants]
  rfl

theorem exec_calibrationRunStart_of_wanted {s : State} {opu layer : Fin 16} {k : CalKind} {blank : BitVec 7} {j : CalJob}
    (hj : jobOf s opu layer k = some j) (hw : calWanted s j = true) :
    let r := calAt s opu layer
    let n := if r.searched then r.nextRun else searchRun blank
    exec (.calibrationRunStart opu layer k blank) s =
      if k = .opc ∧ 64 ≤ n then .next (exhaustLayer s opu layer)
      else if k ≠ .bfeOffsets ∧ (!opuReady s opu layer (calFrame s j n)) = true then
        .next (if j.blocking ∨ k = .opc then goTo s opu layer (calFrame s j n) else s)
      else if k = .opc then
        match opcStart s opu layer n with
        | none => .next (jumpBack s opu (calFrame s j n) (8 * (n % 8)))
        | some at_ => .next (beginRun (runGranted s opu j) opu layer k n (if j.blocking then 1 else 6) at_)
      else .next (beginRun (latchCfg { runGranted s opu j with cal := { (runGranted s opu j).cal with curLayer := ins (runGranted s opu j).cal.curLayer opu layer.val } }
        opu) opu layer k n (if j.blocking then 1 else 6) (0, 0, 0)) := by
  intro r n
  change execCalibrationRunStart opu layer k blank s = _
  unfold execCalibrationRunStart
  rw [hj]
  exact if_neg (by simp [hw])

theorem exhaustLayer_spec (s : State) (opu layer : Nat) : jobOf (exhaustLayer s opu layer) opu layer .opc = none ∧
    (calAt (exhaustLayer s opu layer) opu layer).runOnly = true ∧ (calAt (exhaustLayer s opu layer) opu layer).exhausted = true ∧
    (exhaustLayer s opu layer).bays = s.bays := by
  have h : OnlyIn [.out, .hiu, .bdy] (endJob (setCal (setNextRun s opu layer 64) opu layer { calAt (setNextRun s opu layer 64) opu layer with
      runOnly := true }) opu layer .opc) (exhaustLayer s opu layer) :=
    onlyIn_of_follows (follows_vendorEvent (by decide) (follows_event (by decide) (follows_refl _)))
  have hc := h.2 .cal (by decide)
  have hb := h.2 .bays (by decide)
  have hr := (calAt_setCal (setNextRun s opu layer 64) opu layer { calAt (setNextRun s opu layer 64) opu layer with runOnly := true } opu layer).trans
    (if_pos rfl)
  have ha : calAt (exhaustLayer s opu layer) opu layer = { calAt (setNextRun s opu layer 64) opu layer with runOnly := true } :=
    (congrArg (fun c : Cal => getD c.recs ({} : CalRec) (opu * 16 + layer)) hc).trans hr
  refine ⟨(jobOf_congr (congrArg Cal.jobs hc) ..).trans (jobOf_endJob ..), by rw [ha], by rw [ha]; exact (setNextRun_spec ..).2.1 (Nat.le_refl _), ?_⟩
  exact hb.trans (jobsKept_setNextRun s opu layer 64).bays

end Sys2Proof.Machine
end

section
/-! PROOFS. R190 to R192, R197: the end of a calibration run, and its steps. -/

namespace Sys2Proof.Machine

/-! ### What the end of a run leaves -/

theorem idleCells_cal (s : State) (opu : Nat) : (idleCells s opu).cal.jobs = s.cal.jobs ∧
    ∀ o l, (calAt (idleCells s opu) o l).nextRun = (calAt s o l).nextRun := by
  have key (α : Type) (g : State → α) (hc : ∀ s o l (r : CalRec), r.nextRun = (calAt s o l).nextRun → g (setCal s o l r) = g s)
      (hp : ∀ s n p, g (setPort s n p) = g s) (hn : ∀ s n c, g (setChan s n c) = g s) : g (idleCells s opu) = g s := by
    refine foldl_keeps g (fun s spot => ?_) (List.range 8) s
    dsimp only
    split
    · rfl
    · split
      · rfl
      · rw [hn, hp]
        split
        · rfl
        · exact hc _ _ _ _ rfl
  refine ⟨key _ (fun s => s.cal.jobs) (fun _ _ _ _ _ => rfl) (fun _ _ _ => rfl) (fun _ _ _ => rfl), fun o l => ?_⟩
  exact key _ (fun s => (calAt s o l).nextRun) (fun s o' l' r h => calAt_setCal_keeps s o' l' h o l) (fun _ _ _ => rfl) (fun _ _ _ => rfl)

/-- The state once a run's displacements, cells and grant are given back. -/
def runEnded (s : State) (opu layer : Nat) (k : CalKind) (act : Nat) : State := endGrant (idleCells (afterRun s opu layer k) opu) opu act

theorem endGrant_ends (s : State) (opu act : Nat) : (opu, act) ∉ (bayAt (endGrant s opu act) (opu / 2)).grants := by
  have hset (y : Bay) (gs : List (Nat × Nat)) (hy : y = bayAt s (opu / 2)) (hg : (opu, act) ∉ gs) :
      (opu, act) ∉ (bayAt (setBay s (opu / 2) { y with grants := gs }) (opu / 2)).grants := by
    subst hy
    rw [bayAt_setBay, if_pos rfl, stampBay_grants]
    exact hg
  have hgone : (opu, act) ∉ (bayAt s (opu / 2)).grants.filter (fun g => g ≠ (opu, act)) := by simp
  unfold endGrant
  dsimp only
  split
  · have h (t : State) : OnlyIn [.cnt, .ports, .spn, .cells, .units, .axes] t (holdRetract t (opu / 2)) :=
      onlyIn_of_follows (follows_holdRetract (by decide) (follows_refl t))
    have hb (t : State) : bayAt (holdRetract t (opu / 2)) (opu / 2) = bayAt t (opu / 2) :=
      congrArg (fun b => getD b ({} : Bay) (opu / 2)) ((h t).2 .bays (by decide))
    rw [hb]
    exact hset _ _ rfl hgone
  · exact hset _ _ rfl hgone

theorem endGrant_keeps (s : State) (opu act : Nat) : (endGrant s opu act).cal = s.cal ∧ counter (endGrant s opu act) 15 4 = counter s 15 4 := by
  have h : OnlyIn [.cnt, .bays, .ports, .spn, .cells, .units, .axes] s (endGrant s opu act) :=
    onlyIn_of_follows (follows_endGrant (by decide) (follows_refl s))
  refine ⟨h.2 .cal (by decide), ?_⟩
  unfold endGrant
  dsimp only
  split
  · exact counter_holdRetract_other _ _ (by decide) (by decide)
  · rfl

theorem runEnded_spec (s : State) (opu layer : Nat) (k : CalKind) (act : Nat) : (runEnded s opu layer k act).cal.jobs = s.cal.jobs ∧
    (∀ o l, (calAt (runEnded s opu layer k act) o l).nextRun = (calAt s o l).nextRun) ∧
    counter (runEnded s opu layer k act) 15 4 = counter s 15 4 ∧ (opu, act) ∉ (bayAt (runEnded s opu layer k act) (opu / 2)).grants := by
  have ha : OnlyIn [.ports, .spn, .cells, .axes] s (afterRun s opu layer k) := onlyIn_of_follows (follows_afterRun (by decide) (follows_refl s))
  have hac : (afterRun s opu layer k).cal = s.cal := ha.2 .cal (by decide)
  have han : (afterRun s opu layer k).cnt = s.cnt := ha.2 .cnt (by decide)
  have hends := endGrant_ends (idleCells (afterRun s opu layer k) opu) opu act
  obtain ⟨he, hc⟩ := endGrant_keeps (idleCells (afterRun s opu layer k) opu) opu act
  have hi (u : State) : OnlyIn [.ports, .rdc, .cal] u (idleCells u opu) := onlyIn_of_follows (follows_idleCells (by decide) (follows_refl u))
  have hin := (hi (afterRun s opu layer k)).2 .cnt (by decide)
  obtain ⟨hj, hn⟩ := idleCells_cal (afterRun s opu layer k) opu
  rw [runEnded]
  refine ⟨by rw [he, hj, hac], fun o l => ?_, hc.trans ?_, hends⟩
  · have : calAt (endGrant (idleCells (afterRun s opu layer k) opu) opu act) o l = calAt (idleCells (afterRun s opu layer k) opu) o l :=
      congrArg (fun c : Cal => getD c.recs ({} : CalRec) (o * 16 + l)) he
    rw [this, hn]
    exact congrArg (fun c : Cal => (getD c.recs ({} : CalRec) (o * 16 + l)).nextRun) hac
  · rw [counter, show (idleCells (afterRun s opu layer k) opu).cnt = _ from hin, show (afterRun s opu layer k).cnt = _ from han]
    rfl

/-! ### Acceptance -/

/-- The valid bit of a kind. -/
def validBit (k : CalKind) : Nat := match k with
  | .opc => 0 | .equaliser => 1 | .focus => 2 | .tilt => 3 | _ => 4

theorem getLsbD_or_twoPow (v : BitVec 5) (n : Fin 5) : (v ||| BitVec.ofNat 5 (2 ^ n.val)).getLsbD n.val = true := by
  rw [BitVec.getLsbD_or]
  have : (BitVec.ofNat 5 (2 ^ n.val)).getLsbD n.val = true := by revert n; decide
  rw [this, Bool.or_true]

theorem calAt_stamp (s : State) (opu layer : Nat) (k : CalKind) : (calAt (stamp s opu layer k) opu layer).failed = false ∧
    (k ≠ .bfeOffsets → (calAt (stamp s opu layer k) opu layer).valid.getLsbD (validBit k) = true) := by
  unfold stamp
  dsimp only
  rw [calAt_setCal, if_pos rfl]
  cases k with
  | opc => exact ⟨rfl, fun _ => getLsbD_or_twoPow _ 0⟩
  | equaliser => exact ⟨rfl, fun _ => getLsbD_or_twoPow _ 1⟩
  | focus => exact ⟨rfl, fun _ => getLsbD_or_twoPow _ 2⟩
  | tilt => exact ⟨rfl, fun _ => getLsbD_or_twoPow _ 3⟩
  | corrector => exact ⟨rfl, fun _ => getLsbD_or_twoPow _ 4⟩
  | bfeOffsets => exact ⟨rfl, fun h => absurd rfl h⟩

/-- Jobs and bays stand, and of the record its verdict. -/
structure Applied (opu layer : Nat) (s t : State) : Prop where
  jobs : JobsKept s t
  failed : (calAt t opu layer).failed = (calAt s opu layer).failed
  valid : (calAt t opu layer).valid = (calAt s opu layer).valid

theorem applied_refl (opu layer : Nat) (s : State) : Applied opu layer s s := ⟨jobsKept_refl s, rfl, rfl⟩

theorem applied_trans {opu layer : Nat} {s t u : State} (h : Applied opu layer s t) (g : Applied opu layer t u) : Applied opu layer s u :=
  ⟨jobsKept_trans h.jobs g.jobs, g.failed.trans h.failed, g.valid.trans h.valid⟩

theorem applied_setCal {opu layer : Nat} {s : State} {o l : Nat} {r : CalRec} (hf : r.failed = (calAt s o l).failed)
    (hv : r.valid = (calAt s o l).valid) : Applied opu layer s (setCal s o l r) :=
  ⟨jobsKept_setCal .., calAt_setCal_keeps (f := CalRec.failed) s o l hf opu layer, calAt_setCal_keeps (f := CalRec.valid) s o l hv opu layer⟩

theorem applied_of_onlyIn {opu layer : Nat} {parts : List Part} {s t : State} (h : OnlyIn parts s t) (hc : Part.cal ∉ parts) (hb : Part.bays ∉ parts) :
    Applied opu layer s t := by
  have ha : calAt t opu layer = calAt s opu layer := congrArg (fun c : Cal => getD c.recs ({} : CalRec) (opu * 16 + layer)) (h.2 .cal hc)
  exact ⟨jobsKept_of_onlyIn h hc hb, by rw [ha], by rw [ha]⟩

theorem applied_storeSet (opu layer : Nat) (s : State) (o l : Nat) (x : Strategy) : Applied opu layer s (storeSet s o l x) :=
  of_ite (applied_setCal rfl rfl) (applied_refl ..)

theorem applied_orderCal (opu layer : Nat) (s : State) (o l : Nat) (v : Int) : Applied opu layer s (orderCal s o l v) :=
  applied_of_onlyIn (parts := [.spn, .cells]) (onlyIn_of_follows (follows_orderCal (by decide) (follows_refl s))) (by decide) (by decide)

theorem applied_orderAxis (opu layer : Nat) (s : State) (n op arg : Nat) : Applied opu layer s (orderAxis s n op arg) :=
  applied_of_onlyIn (parts := [.spn, .axes]) (onlyIn_of_follows (follows_orderAxis (by decide) (follows_refl s))) (by decide) (by decide)

theorem applied_foldl {opu layer : Nat} {α : Type} {f : State → α → State} (h : ∀ s a, Applied opu layer s (f s a)) (l : List α) (s : State) :
    Applied opu layer s (l.foldl f s) := by
  induction l generalizing s with
  | nil => exact applied_refl ..
  | cons a l ih => exact applied_trans (h s a) (ih _)

theorem applied_setPort (opu layer : Nat) (s : State) (n : Nat) (p : Port) : Applied opu layer s (setPort s n p) := ⟨⟨rfl, rfl⟩, rfl, rfl⟩

theorem levelsTo_keeps (s : State) (o l : Nat) (p : Int) : (levelsTo s o l p).failed = (calAt s o l).failed ∧
    (levelsTo s o l p).valid = (calAt s o l).valid := ⟨rfl, rfl⟩

theorem applied_applyWhole (opu layer : Nat) (s : State) (o l : Nat) (k : CalKind) (v : List Int) :
    Applied opu layer s (applyWhole s o l k v) := by
  unfold applyWhole
  cases k with
  | opc =>
    have h := levelsTo_keeps s o l (resultPw v)
    exact applied_trans (applied_setCal h.1 h.2) (applied_storeSet ..)
  | equaliser => exact applied_setCal rfl rfl
  | focus =>
    refine applied_trans ?_ (applied_orderCal ..)
    exact applied_setCal rfl rfl
  | tilt =>
    refine applied_trans ?_ (applied_orderCal ..)
    exact applied_setCal rfl rfl
  | corrector =>
    refine applied_trans ?_ (applied_orderAxis ..)
    exact applied_setCal rfl rfl
  | bfeOffsets =>
    exact applied_trans (applied_foldl (f := fun s l => setCal s o l { calAt s o l with offsets := (List.range 8).map (fun i => (i, v.getD i 0)) })
      (fun s l => applied_setCal rfl rfl) (List.range 16) s) (applied_setPort ..)

theorem focus_applyWhole (s : State) (opu layer : Nat) (v : List Int) : (calAt (applyWhole s opu layer .focus v) opu layer).focus = v.getD 0 0 := by
  have h (u : State) : OnlyIn [.spn, .cells] u (orderCal u opu 0 (v.getD 0 0)) := onlyIn_of_follows (follows_orderCal (by decide) (follows_refl u))
  have ha (u : State) : calAt (orderCal u opu 0 (v.getD 0 0)) opu layer = calAt u opu layer :=
    congrArg (fun c : Cal => getD c.recs ({} : CalRec) (opu * 16 + layer)) ((h u).2 .cal (by decide))
  unfold applyWhole
  dsimp only
  rw [ha, calAt_setCal, if_pos rfl]

/-- The job of an accepted result is gone and its record stamped, before the result is applied. -/
def accepted (s : State) (opu layer : Nat) (k : CalKind) : State :=
  endJob (stamp (match k with
    | .opc => bump s 15 0
    | .equaliser => bump s 15 2
    | .focus | .tilt | .corrector => bump s 15 3
    | .bfeOffsets => s) opu layer k) opu layer k

/-- The state in which a result's goal is noted. -/
def shiftStored (s : State) (opu layer : Nat) (k : CalKind) (v : List Int) : State :=
  if k = .opc then storeSet s opu layer ((strategyOf s opu layer).shifted (v.getD 2 0)) else s

theorem acceptCal_eq (s : State) (opu layer : Nat) (k : CalKind) (whole : Bool) (v : List Int) : acceptCal s opu layer k whole v =
    if (whole || k == .bfeOffsets) = true then applyWhole (accepted s opu layer k) opu layer k v
    else setCal (shiftStored (accepted s opu layer k) opu layer k v) opu layer
      { calAt (shiftStored (accepted s opu layer k) opu layer k v) opu layer with
        goal := (calAt (shiftStored (accepted s opu layer k) opu layer k v) opu layer).goal.filter (fun g => g.1 ≠ k) ++ [(k, v)] } := rfl

theorem applied_acceptCal (s : State) (opu layer : Nat) (k : CalKind) (whole : Bool) (v : List Int) :
    Applied opu layer (accepted s opu layer k) (acceptCal s opu layer k whole v) := by
  rw [acceptCal_eq]
  refine of_ite (applied_applyWhole ..) (applied_trans ?_ (applied_setCal rfl rfl))
  exact of_ite (applied_storeSet ..) (applied_refl ..)

theorem accepted_spec (s : State) (opu layer : Nat) (k : CalKind) : jobOf (accepted s opu layer k) opu layer k = none ∧
    (calAt (accepted s opu layer k) opu layer).failed = false ∧
    (k ≠ .bfeOffsets → (calAt (accepted s opu layer k) opu layer).valid.getLsbD (validBit k) = true) ∧ (accepted s opu layer k).bays = s.bays := by
  refine ⟨jobOf_endJob .., (calAt_stamp ..).1, (calAt_stamp ..).2, ?_⟩
  cases k <;> rfl

/-- What an accepted result leaves (R191, R192). -/
theorem acceptCal_spec (s : State) (opu layer : Nat) (k : CalKind) (whole : Bool) (v : List Int) : let t := acceptCal s opu layer k whole v
    t.bays = s.bays ∧ jobOf t opu layer k = none ∧ (calAt t opu layer).failed = false ∧
      (k ≠ .bfeOffsets → (calAt t opu layer).valid.getLsbD (validBit k) = true) ∧
      (k = .focus → whole = true → (calAt t opu layer).focus = v.getD 0 0) ∧
      (k ≠ .bfeOffsets → whole = false → (k, v) ∈ (calAt t opu layer).goal) := by
  intro t
  have ha : Applied opu layer (accepted s opu layer k) t := applied_acceptCal s opu layer k whole v
  obtain ⟨hj, hf, hv, hb⟩ := accepted_spec s opu layer k
  refine ⟨ha.jobs.bays.trans hb, (jobOf_congr ha.jobs.jobs ..).trans hj, ha.failed.trans hf, fun h => ?_, fun hk hw => ?_, fun hk hw => ?_⟩
  · rw [ha.valid]
    exact hv h
  · subst hk hw
    exact focus_applyWhole ..
  · have ht : t = _ := (acceptCal_eq s opu layer k whole v).trans (if_neg (by simp [hw, hk]))
    rw [ht, calAt_setCal, if_pos rfl]
    exact List.mem_append_right _ (List.mem_singleton_self _)

theorem failCal_spec (s : State) (opu layer : Nat) (k : CalKind) : (failCal s opu layer k).bays = s.bays ∧
    jobOf (failCal s opu layer k) opu layer k = none ∧ (calAt (failCal s opu layer k) opu layer).failed = true ∧
    counter (failCal s opu layer k) 15 4 = counter s 15 4 + 1 := by
  refine ⟨rfl, jobOf_endJob .., ?_, ?_⟩
  · exact congrArg CalRec.failed ((calAt_setCal ..).trans (if_pos rfl))
  · change counter (countEvent (setCal s opu layer { calAt s opu layer with failed := true }) 15 4 1 (opu / 2) opu [layer, firstOrder k]) 15 4 = _
    rw [counter_countEvent, if_pos rfl]
    rfl

/-! ### CALIBRATION_RUN_DONE -/

/-- The results that a run adds (R191, R196). -/
def runResults (s : State) (opu layer : Nat) (k : CalKind) (codes : Option (List Int)) : List (List Int) :=
  if k = .equaliser then (match measured s opu k codes with | some m => [m.take 120, m.drop 120] | none => [])
  else ((measured s opu k codes).bind (fun m => runResult s opu layer k m)).toList

/-- The second of the first two results in a row that agree. -/
def agreed (j : CalJob) (k : CalKind) (seq : List (List Int)) : Option (List Int × List Int) :=
  (List.zip (j.last.toList ++ seq) ((j.last.toList ++ seq).drop 1)).find? (fun e => agrees k e.1 e.2)

/-- The next centre of an OPC run (R193). -/
def nextCentre (s : State) (opu layer : Nat) (k : CalKind) (codes : Option (List Int)) (old : Option Int) : Option Int :=
  match (measured s opu k codes).bind (fun m => runResult s opu layer k m), measured s opu k codes with
  | some v, _ => some (resultPw v)
  | none, none => old
  | none, some m => some (movedCentre (opcCentre s opu layer) (m.take 4))

/-- The state after a run's end, before its result counts. -/
def runClosed (s : State) (opu layer : Nat) (k : CalKind) (codes : Option (List Int)) (act : Nat) : State :=
  let t := runEnded s opu layer k act
  if k = .opc then setCal t opu layer { calAt t opu layer with centre := nextCentre s opu layer k codes (calAt t opu layer).centre } else t

theorem exec_calibrationRunDone_of_over {s : State} {opu layer : Fin 16} {k : CalKind} {codes : Option (List Int)} {j : CalJob}
    (hj : jobOf s opu layer k = some j) (hr : j.running = true) (ho : k = .opc → (opuAt s opu).run = none)
    (hb : k = .bfeOffsets → j.since + 64 ≤ now s) :
    let c := runClosed s opu layer k codes (if j.blocking then 1 else 6)
    let seq := runResults s opu layer k codes
    exec (.calibrationRunDone opu layer k codes) s = match agreed j k seq with
      | some (_, v) => .next (acceptCal c opu layer k j.whole v)
      | none =>
        if 4 ≤ j.runs + max 1 seq.length then .next (failCal c opu layer k)
        else if k = .opc ∧ 64 ≤ (calAt c opu layer).nextRun then .next (exhaustLayer c opu layer)
        else .next (setJob c { j with running := false, runs := j.runs + max 1 seq.length, last := seq.getLast? }) := by
  intro c seq
  have hguard : ¬ (!j.running || (k == .opc && (opuAt s opu).run.isSome) || (k == .bfeOffsets && decide (now s < j.since + 64))) = true := by
    rw [hr]
    cases k with
    | opc => simp [ho rfl]
    | bfeOffsets => have := hb rfl; simp; omega
    | equaliser => simp
    | focus => simp
    | tilt => simp
    | corrector => simp
  change execCalibrationRunDone opu layer k codes s = _
  unfold execCalibrationRunDone
  rw [hj]
  dsimp only
  rw [if_neg hguard]
  rfl

theorem runClosed_spec (s : State) (opu layer : Nat) (k : CalKind) (codes : Option (List Int)) (act : Nat) :
    let c := runClosed s opu layer k codes act
    c.cal.jobs = s.cal.jobs ∧ (calAt c opu layer).nextRun = (calAt s opu layer).nextRun ∧ counter c 15 4 = counter s 15 4 ∧
      (opu, act) ∉ (bayAt c (opu / 2)).grants := by
  intro c
  obtain ⟨h1, h2, h3, h4⟩ := runEnded_spec s opu layer k act
  have hc : c = runClosed s opu layer k codes act := rfl
  clear_value c
  rw [runClosed] at hc
  dsimp only at hc
  split at hc
  · subst hc
    refine ⟨h1, ?_, h3, h4⟩
    exact (congrArg CalRec.nextRun ((calAt_setCal ..).trans (if_pos rfl))).trans (h2 ..)
  · subst hc
    exact ⟨h1, h2 .., h3, h4⟩

theorem grants_of_bays {s t : State} (h : t.bays = s.bays) (n : Nat) : (bayAt t n).grants = (bayAt s n).grants :=
  congrArg (fun b => (getD b ({} : Bay) n).grants) h

end Sys2Proof.Machine
end

section
/-! PROOFS. R189 to R194, R197: calibration steps, and calibrations as a whole. -/

namespace Sys2Proof.Machine

/-! ### Steps -/

theorem towards_within (a b : Int) : (towards a b 10 - a).natAbs ≤ 10 := by
  unfold towards
  split <;> omega

/-- The next quantity of a record to step, once none before it has. -/
def stepNext (opu layer : Nat) (x : State × Bool) (k : CalKind) : State × Bool :=
  if x.2 then x
  else match (calAt x.1 opu layer).goal.find? (fun g => g.1 = k) with
    | some g => stepGoal x.1 opu layer k g.2
    | none => x

theorem recordStep_eq (s : State) (opu : Nat) : recordStep s opu =
    let r := [CalKind.focus, .tilt, .corrector, .equaliser, .opc].foldl (stepNext opu (getD s.cal.curLayer 0 opu)) (s, false)
    if r.2 then { r.1 with cal := { r.1.cal with lastStep := ins r.1.cal.lastStep opu (now s) } } else r.1 := rfl

theorem foldl_stepNext_of_stepped (opu layer : Nat) (l : List CalKind) (t : State) : l.foldl (stepNext opu layer) (t, true) = (t, true) := by
  induction l with
  | nil => rfl
  | cons k l ih => exact ih

theorem recordStep_of_noGoal {s : State} {opu : Nat} (h : (calAt s opu (getD s.cal.curLayer 0 opu)).goal = []) : recordStep s opu = s := by
  have hstep (k : CalKind) : stepNext opu (getD s.cal.curLayer 0 opu) (s, false) k = (s, false) := by
    unfold stepNext
    rw [if_neg (by simp), h]
    rfl
  rw [recordStep_eq]
  simp only [List.foldl_cons, List.foldl_nil, hstep]
  exact if_neg (by simp)

/-- The record with its focus offset moved, its order given. -/
def focusStepped (s : State) (opu layer : Nat) (x : Int) : State :=
  orderCal (setCal s opu layer { calAt s opu layer with focus := x }) opu 0 x

theorem recordStep_of_focus {s : State} {opu : Nat} {v : List Int} (hg : (calAt s opu (getD s.cal.curLayer 0 opu)).goal.find? (fun g => g.1 = .focus) =
    some (.focus, v)) (hne : (calAt s opu (getD s.cal.curLayer 0 opu)).focus ≠ v.getD 0 0) :
    let t := focusStepped s opu (getD s.cal.curLayer 0 opu) (towards (calAt s opu (getD s.cal.curLayer 0 opu)).focus (v.getD 0 0) 10)
    recordStep s opu = { t with cal := { t.cal with lastStep := ins t.cal.lastStep opu (now s) } } := by
  intro t
  have hfirst : stepNext opu (getD s.cal.curLayer 0 opu) (s, false) .focus = (t, true) := by
    unfold stepNext
    rw [if_neg (by simp), hg]
    exact if_neg hne
  rw [recordStep_eq, List.foldl_cons, hfirst, foldl_stepNext_of_stepped]
  exact if_pos rfl

theorem focusStepped_cal (s : State) (opu layer : Nat) (x : Int) :
    (focusStepped s opu layer x).cal = (setCal s opu layer { calAt s opu layer with focus := x }).cal ∧ now (focusStepped s opu layer x) = now s := by
  have h : OnlyIn [.spn, .cells] (setCal s opu layer { calAt s opu layer with focus := x }) (focusStepped s opu layer x) :=
    onlyIn_of_follows (follows_orderCal (by decide) (follows_refl _))
  exact ⟨h.2 .cal (by decide), congrArg Tck.count (h.2 .tck (by decide))⟩

theorem sweepOn_recs {s y : State} {opu : Nat} (h : sweepOn s opu = some y) : y.cal.recs = s.cal.recs := by
  unfold sweepOn at h
  obtain ⟨j, -, rfl⟩ := Option.map_eq_some_iff.1 h
  have ho : OnlyIn [.spn, .cells, .axes] (setJob s { j with point := j.point + 1 })
      (trialPoint (setJob s { j with point := j.point + 1 }) opu j.layer j.kind (j.point + 1)) :=
    onlyIn_of_follows (follows_trialPoint (by decide) (follows_refl _))
  have hc := ho.2 .cal (by decide)
  exact (congrArg Cal.recs hc).trans rfl

theorem calStep_spec (s : State) (opu : Fin 16) : let layer := getD s.cal.curLayer 0 opu
    let r := calAt s opu layer
    (∀ v, sweepOn s opu = none → stepped s opu = false → r.goal.find? (fun g => g.1 = .focus) = some (.focus, v) → r.focus ≠ v.getD 0 0 →
      ∃ t, exec (.calStep opu) s = .next t ∧
        (calAt t opu layer).focus = towards r.focus (v.getD 0 0) 10 ∧ ((calAt t opu layer).focus - r.focus).natAbs ≤ 10 ∧
        stepped t opu = true ∧ (∀ m l, m * 16 + l ≠ opu.val * 16 + layer → calAt t m l = calAt s m l)) ∧
    (sweepOn s opu = none → (stepped s opu = true ∨ r.goal = []) → exec (.calStep opu) s = .next s) ∧
    (∀ y, sweepOn s opu = some y → exec (.calStep opu) s = .next y ∧ y.cal.recs = s.cal.recs) := by
  intro layer r
  have hexec : exec (.calStep opu) s = .next ((sweepOn s opu).getD (if stepped s opu then s else recordStep s opu)) := rfl
  refine ⟨fun v hs hst hg hne => ?_, fun hs h => ?_, fun y hy => ⟨?_, sweepOn_recs hy⟩⟩
  · obtain ⟨hcal, hnow⟩ := focusStepped_cal s opu layer (towards r.focus (v.getD 0 0) 10)
    have hrec := recordStep_of_focus hg hne
    have hat (m l : Nat) : calAt (recordStep s opu) m l = if opu.val * 16 + layer = m * 16 + l then
        { r with focus := towards r.focus (v.getD 0 0) 10 } else calAt s m l := by
      rw [hrec]
      refine (congrArg (fun c : Cal => getD c.recs ({} : CalRec) (m * 16 + l)) hcal).trans ?_
      exact calAt_setCal s opu layer _ m l
    have hf : (calAt (recordStep s opu) opu layer).focus = towards r.focus (v.getD 0 0) 10 := by rw [hat, if_pos rfl]
    refine ⟨recordStep s opu, ?_, hf, ?_, ?_, fun m l hm => ?_⟩
    · rw [hexec, hs, hst]
      rfl
    · rw [hf]
      exact towards_within ..
    · have hl : look (recordStep s opu).cal.lastStep opu = some (now s) := by
        rw [hrec]
        exact look_ins_self ..
      have hn : now (recordStep s opu) = now s := by
        rw [hrec]
        exact hnow
      rw [stepped, hl, hn]
      exact beq_self_eq_true _
    · rw [hat, if_neg hm.symm]
  · rw [hexec, hs]
    refine congrArg _ ?_
    rcases h with h | h
    · exact if_pos h
    · change (if stepped s opu = true then s else recordStep s opu) = s
      split
      · rfl
      · exact recordStep_of_noGoal h
  · rw [hexec, hy]
    rfl

/-! ### The obligation -/

theorem jobsKept_latched (s : State) (x : Tbl Nat) (opu : Nat) : JobsKept s (latchCfg { s with cal := { s.cal with curLayer := x } } opu) := ⟨rfl, rfl⟩

theorem calibrationRunStart_spec (s : State) (opu layer : Fin 16) (k : CalKind) (blank : BitVec 7) (j : CalJob) (hj : jobOf s opu layer k = some j) :
    let r := calAt s opu layer
    let n := if r.searched then r.nextRun else searchRun blank
    let act := if j.blocking then 1 else 6
    let ready := opuReady s opu layer (calFrame s j n)
    let begun (t : State) : Prop := jobOf t opu layer k = some { j with running := true, point := 0, since := now s } ∧
      (bayAt t (opu.val / 2)).grants = (bayAt s (opu.val / 2)).grants ++ [(opu.val, act)]
    (calWanted s j = false → exec (.calibrationRunStart opu layer k blank) s = .next s) ∧
    (calWanted s j = true → k = .opc → 64 ≤ n → ∃ t, exec (.calibrationRunStart opu layer k blank) s = .next t ∧
      jobOf t opu layer k = none ∧ (calAt t opu layer).runOnly = true ∧ (calAt t opu layer).exhausted = true ∧ t.bays = s.bays) ∧
    (∀ a, calWanted s j = true → k = .opc → n < 64 → ready = true → opcStart s opu layer n = some a →
      ∃ t x, exec (.calibrationRunStart opu layer k blank) s = .next t ∧ begun t ∧ (calAt t opu layer).nextRun = n + 1 ∧
        counter t 15 1 = counter s 15 1 + 1 ∧ (opuAt t opu).run = some x ∧ x.opc = some n ∧ x.frame = n / 8 ∧
        x.slots.map (·.slot) = opcSlots n ∧ x.start = now s + a.1) ∧
    (calWanted s j = true → k ≠ .opc → (k = .bfeOffsets ∨ ready = true) →
      ∃ t, exec (.calibrationRunStart opu layer k blank) s = .next t ∧ begun t) ∧
    (calWanted s j = true → k ≠ .bfeOffsets → (k = .opc → n < 64) → ready = false →
      exec (.calibrationRunStart opu layer k blank) s = .next (if j.blocking = true ∨ k = .opc then goTo s opu layer (calFrame s j n) else s)) := by
  intro r n act ready begun
  refine ⟨fun hw => ?_, fun hw hk hn => ?_, fun a hw hk hn hr ha => ?_, fun hw hk hr => ?_, fun hw hk hn hr => ?_⟩
  · change execCalibrationRunStart opu layer k blank s = _
    unfold execCalibrationRunStart
    rw [hj]
    exact if_pos (by simp [hw])
  · obtain ⟨h1, h2, h3, h4⟩ := exhaustLayer_spec s opu layer
    exact ⟨_, (exec_calibrationRunStart_of_wanted hj hw).trans (if_pos ⟨hk, hn⟩), hk ▸ h1, h2, h3, h4⟩
  · subst hk
    have hexec : exec (.calibrationRunStart opu layer .opc blank) s =
        .next (beginRun (runGranted s opu j) opu layer .opc n (if j.blocking then 1 else 6) a) := by
      refine (exec_calibrationRunStart_of_wanted hj hw).trans ((if_neg (fun h => absurd h.2 (Nat.not_le.2 hn))).trans ((if_neg (fun h => ?_)).trans ((if_pos rfl).trans ?_)))
      · rw [show opuReady s opu layer (calFrame s j _) = true from hr] at h
        exact absurd h.2 (by decide)
      · rw [show opcStart s opu layer _ = some a from ha]
    obtain ⟨hnext, hcount, x, hx, ho, hf, hs, ht⟩ := beginRun_opc_spec (s := runGranted s opu j) (opu := opu) (layer := layer) (at_ := a) hn
      (beginRun_opc (runGranted s opu j) opu layer n (if j.blocking then 1 else 6) a)
    exact ⟨_, x, hexec, runGranted_begun hj (jobsKept_beginRun ..), hnext, hcount, hx, ho, hf, hs, ht⟩
  · refine ⟨_, (exec_calibrationRunStart_of_wanted hj hw).trans ((if_neg (fun h => hk h.1)).trans ((if_neg (fun h => ?_)).trans (if_neg hk))),
      runGranted_begun hj ?_⟩
    · rcases hr with hr | hr
      · exact h.1 hr
      · rw [show opuReady s opu layer (calFrame s j _) = true from hr] at h
        exact absurd h.2 (by decide)
    · exact jobsKept_trans (jobsKept_latched ..) (jobsKept_beginRun ..)
  · refine (exec_calibrationRunStart_of_wanted hj hw).trans ((if_neg (fun h => absurd h.2 ?_)).trans (if_pos ⟨hk, ?_⟩))
    · exact Nat.not_le.2 (hn h.1)
    · rw [show opuReady s opu layer (calFrame s j _) = false from hr]
      rfl

theorem calibrationRunDone_spec (s : State) (opu layer : Fin 16) (k : CalKind) (codes : Option (List Int)) (j : CalJob)
    (hj : jobOf s opu layer k = some j) (hr : j.running = true) (ho : k = .opc → (opuAt s opu).run = none)
    (hb : k = .bfeOffsets → j.since + 64 ≤ now s) :
    let seq := runResults s opu layer k codes
    let hit := agreed j k seq
    let n := j.runs + max 1 seq.length
    ∃ t, exec (.calibrationRunDone opu layer k codes) s = .next t ∧
      (opu.val, if j.blocking then 1 else 6) ∉ (bayAt t (opu.val / 2)).grants ∧
      (∀ e, hit = some e → jobOf t opu layer k = none ∧ (calAt t opu layer).failed = false ∧
        (k ≠ .bfeOffsets → (calAt t opu layer).valid.getLsbD (validBit k) = true) ∧
        (k = .focus → j.whole = true → (calAt t opu layer).focus = e.2.getD 0 0) ∧
        (k ≠ .bfeOffsets → j.whole = false → (k, e.2) ∈ (calAt t opu layer).goal)) ∧
      (hit = none → 4 ≤ n → jobOf t opu layer k = none ∧ (calAt t opu layer).failed = true ∧ counter t 15 4 = counter s 15 4 + 1) ∧
      (hit = none → n < 4 → (k = .opc → (calAt s opu layer).nextRun < 64) →
        jobOf t opu layer k = some { j with running := false, runs := n, last := seq.getLast? }) ∧
      (hit = none → n < 4 → k = .opc → 64 ≤ (calAt s opu layer).nextRun → jobOf t opu layer k = none ∧ (calAt t opu layer).runOnly = true) := by
  intro seq hit n
  have hexec := exec_calibrationRunDone_of_over (codes := codes) hj hr ho hb
  obtain ⟨hjobs, hnext, hcount, hgrants⟩ := runClosed_spec s opu layer k codes (if j.blocking then 1 else 6)
  dsimp only at hexec
  generalize runClosed s opu layer k codes (if j.blocking then 1 else 6) = c at *
  have hgone {t : State} (ht : t.bays = c.bays) : (opu.val, if j.blocking then 1 else 6) ∉ (bayAt t (opu.val / 2)).grants := by
    rw [grants_of_bays ht]
    exact hgrants
  cases hh : hit with
  | some e =>
    rw [show agreed j k (runResults s opu layer k codes) = some e from hh] at hexec
    obtain ⟨ab, a1, a2, a3, a4, a5⟩ := acceptCal_spec c opu layer k j.whole e.2
    exact ⟨_, hexec, hgone ab, fun e' he => by cases he; exact ⟨a1, a2, a3, a4, a5⟩, nofun, nofun, nofun⟩
  | none =>
    rw [show agreed j k (runResults s opu layer k codes) = none from hh] at hexec
    dsimp only at hexec
    by_cases hn : 4 ≤ n
    · obtain ⟨fb, f1, f2, f3⟩ := failCal_spec c opu layer k
      refine ⟨_, hexec.trans (if_pos hn), hgone fb, nofun, fun _ _ => ⟨f1, f2, by rw [f3, hcount]⟩, fun _ h => absurd h (by omega),
        fun _ h => absurd h (by omega)⟩
    · rw [if_neg hn] at hexec
      by_cases hx : k = .opc ∧ 64 ≤ (calAt c opu layer).nextRun
      · rw [if_pos hx] at hexec
        obtain ⟨x1, x2, -, xb⟩ := exhaustLayer_spec c opu layer
        obtain ⟨rfl, hx⟩ := hx
        rw [hnext] at hx
        exact ⟨_, hexec, hgone xb, nofun, fun _ h => absurd h hn, fun _ _ h => absurd (h rfl) (by omega), fun _ _ _ _ => ⟨x1, x2⟩⟩
      · rw [if_neg hx] at hexec
        have hjc : jobOf c opu layer k = some j := (jobOf_congr hjobs ..).trans hj
        have hi : isJob opu layer k { j with running := false, runs := n, last := seq.getLast? } = true :=
          isJob_iff.2 (isJob_of_jobOf (j := j) hj)
        refine ⟨_, hexec, hgone rfl, nofun, fun _ h => absurd h hn, fun _ _ _ => jobOf_setJob hjc hi, fun _ _ h1 h2 => ?_⟩
        exact absurd ⟨h1, hnext ▸ h2⟩ hx

/-- Settles O34. -/
theorem calibrationsRunAndAgree : Obligations.CalibrationsRunAndAgree := by
  unfold Obligations.CalibrationsRunAndAgree
  refine ⟨fun s k opu layer => ⟨fun h => if_pos h, fun hb hr => ?_⟩, calElapsedTimer_spec, calibrationRunStart_spec, ?_, ?_, calStep_spec⟩
  · exact ⟨_, if_neg (by simp [hb]), onlyIn_of_follows (follows_requestCal (by decide) (follows_refl s)), fun κ hk h => requestCal_adds hr hk h⟩
  · intro s opu layer k codes j hj hr ho hb
    exact calibrationRunDone_spec s opu layer k codes j hj hr ho hb
  · intro s opu layer k codes j hj hr
    change execCalibrationRunDone opu layer k codes s = _
    unfold execCalibrationRunDone
    rw [hj]
    exact if_pos (by simp [hr])

end Sys2Proof.Machine
end

section
/-! PROOFS. R18, R239, R246: where a posted completion goes. -/

namespace Sys2Proof.Machine

theorem post_of_noDeletion {s : State} (c : Comp) (h : ∀ e ∈ s.hiu.sqs, e.2.deleting = none) :
    post s c = dropCmd (emit s c) c.ref := by
  rw [post_eq_finishDeletes, finishDeletes_eq_foldl]
  exact foldl_finishDelete_of_none _ (by simpa [dropCmd] using h)

theorem emit_of_peer {s : State} {c : Comp} (h : c.ref.peer = true) :
    emit s c = send s (.completion { c.ref with peer := false } c.status c.dw0 c.data) := if_pos h

theorem emit_of_waits {s : State} {c : Comp} (h : c.ref.peer = false) (hw : mustWait s c = true) :
    emit s c = { s with hiu := { s.hiu with held := s.hiu.held ++ [c] } } := by
  rw [emit, if_neg (by simp [h]), if_pos hw]

theorem emit_of_room {s : State} {c : Comp} (h : c.ref.peer = false) (hw : mustWait s c = false) : emit s c = writeEntry s c := by
  rw [emit, if_neg (by simp [h]), if_neg (by simp [hw])]

/-- An interrupt is sent, or only noted at its controller while its vector is masked. -/
theorem interrupt_irqs (s : State) (n v : Nat) :
    (interrupt s n v).hiu.irqs = s.hiu.irqs ++ (if v < 32 ∧ (ctrlAt s n).intMask.getLsbD v = true then [] else [(n, v)]) := by
  unfold interrupt
  dsimp only
  split
  · exact (List.append_nil _).symm
  · rfl

theorem interrupt_out (s : State) (n v : Nat) : (interrupt s n v).out = s.out := by
  unfold interrupt
  dsimp only
  split <;> rfl

/-- The queue's tail has moved past a written entry. -/
def wroteEntry (s : State) (c : Comp) (k : Nat) (q : Cq) : State :=
  { s with hiu := { s.hiu with comps := s.hiu.comps ++ [c], cqs := ins s.hiu.cqs k { q with tail := (q.tail + 1) % q.size } } }

theorem writeEntry_of_queue {s : State} {c : Comp} {k : Nat} {q : Cq} (h : cqOf s c.ref = some (k, q)) :
    writeEntry s c = if q.ien then interrupt (wroteEntry s c k q) c.ref.ctrl q.vector else wroteEntry s c k q := by
  unfold writeEntry
  rw [h]
  rfl

theorem writeEntry_of_noQueue {s : State} {c : Comp} (h : cqOf s c.ref = none) :
    writeEntry s c = { s with hiu := { s.hiu with comps := s.hiu.comps ++ [c] } } := by
  unfold writeEntry
  rw [h]

/-- An entry written into its queue: the tail moves by one and the interrupt follows the queue's and the controller's settings. -/
theorem writeEntry_in_queue {s : State} {c : Comp} {k : Nat} {q : Cq} (h : cqOf s c.ref = some (k, q)) :
    look (writeEntry s c).hiu.cqs k = some { q with tail := (q.tail + 1) % q.size } ∧
      (∀ j, j ≠ k → look (writeEntry s c).hiu.cqs j = look s.hiu.cqs j) ∧
      (writeEntry s c).hiu.irqs = s.hiu.irqs ++ (if q.ien ∧ ¬ (q.vector < 32 ∧ (ctrlAt s c.ref.ctrl).intMask.getLsbD q.vector = true)
        then [(c.ref.ctrl.val, q.vector)] else []) ∧
      (writeEntry s c).out = s.out := by
  have hcqs : (writeEntry s c).hiu.cqs = ins s.hiu.cqs k { q with tail := (q.tail + 1) % q.size } := by
    rw [writeEntry_of_queue h]
    split
    · exact (interrupt_queues _ _ _).2.1
    · rfl
  refine ⟨by simp [hcqs], fun j hj => by simp [hcqs, Ne.symm hj], ?_, ?_⟩ <;> rw [writeEntry_of_queue h]
  · cases q.ien
    · simp [wroteEntry]
    · have hctrl : ctrlAt (wroteEntry s c k q) c.ref.ctrl = ctrlAt s c.ref.ctrl := rfl
      rw [if_pos rfl, interrupt_irqs, hctrl]
      by_cases hm : q.vector < 32 ∧ (ctrlAt s c.ref.ctrl).intMask.getLsbD q.vector = true
      · rw [if_pos hm, if_neg (fun h => h.2 hm)]
        rfl
      · rw [if_neg hm, if_pos ⟨rfl, hm⟩]
        rfl
  · split
    · exact interrupt_out ..
    · rfl

theorem finishDelete_cmds (s : State) (e : Nat × Sq) :
    (finishDelete s e).hiu.cmds = s.hiu.cmds ∨
      ∃ r, e.2.deleting = some r ∧ (finishDelete s e).hiu.cmds = s.hiu.cmds.filter (fun d => d.ref ≠ r) := by
  unfold finishDelete
  split
  case h_1 r hr =>
    split
    · exact .inl rfl
    · exact .inr ⟨r, hr, by rw [emit_cmds]; rfl⟩
  · exact .inl rfl

theorem mem_of_mem_foldl_finishDelete {l : Tbl Sq} {s : State} {d : Cmd} (h : d ∈ (l.foldl finishDelete s).hiu.cmds) :
    d ∈ s.hiu.cmds := by
  induction l generalizing s with
  | nil => exact h
  | cons e l ih =>
    have hd := ih h
    obtain he | ⟨r, -, he⟩ := finishDelete_cmds s e <;> rw [he] at hd
    · exact hd
    · exact List.mem_of_mem_filter hd

theorem mem_foldl_finishDelete {l : Tbl Sq} {s : State} {d : Cmd} (hd : d ∈ s.hiu.cmds)
    (h : ∀ e ∈ l, e.2.deleting ≠ some d.ref) : d ∈ (l.foldl finishDelete s).hiu.cmds := by
  induction l generalizing s with
  | nil => exact hd
  | cons e l ih =>
    refine ih ?_ (fun e he => h e (List.mem_cons_of_mem _ he))
    obtain he | ⟨r, hr, he⟩ := finishDelete_cmds s e <;> rw [he]
    · exact hd
    · refine List.mem_filter.2 ⟨hd, ?_⟩
      have hne := h e (List.mem_cons_self ..)
      simp only [ne_eq, decide_eq_true_eq]
      rintro rfl
      exact hne hr

theorem mem_of_mem_post {s : State} {c : Comp} {d : Cmd} (h : d ∈ (post s c).hiu.cmds) : d ∈ s.hiu.cmds ∧ d.ref ≠ c.ref := by
  have hd := mem_of_mem_foldl_finishDelete (s := dropCmd (emit s c) c.ref) h
  simpa [dropCmd] using hd

theorem mem_post {s : State} {c : Comp} {d : Cmd} (hd : d ∈ s.hiu.cmds) (hne : d.ref ≠ c.ref)
    (h : ∀ e ∈ s.hiu.sqs, e.2.deleting ≠ some d.ref) : d ∈ (post s c).hiu.cmds := by
  rw [post_eq_finishDeletes]
  exact mem_foldl_finishDelete (s := dropCmd (emit s c) c.ref) (by simp [dropCmd, hd, hne]) (by simpa [dropCmd] using h)

theorem onlyIn_post (s : State) (c : Comp) : OnlyIn [.hiu, .out] s (post s c) :=
  onlyIn_of_follows (follows_post (by decide) (follows_refl s))

/-- With no deletion waiting a completion goes to the other twin, behind those that wait, or into its queue. -/
theorem post_reaches_queue {s : State} (c : Comp) (h : ∀ e ∈ s.hiu.sqs, e.2.deleting = none) : let t := post s c
    t.hiu.sqs = s.hiu.sqs ∧
    (c.ref.peer = true → t.hiu.comps = s.hiu.comps ∧ t.hiu.held = s.hiu.held ∧ t.hiu.cqs = s.hiu.cqs ∧ t.hiu.irqs = s.hiu.irqs ∧
      t.out = (send s (.completion { c.ref with peer := false } c.status c.dw0 c.data)).out) ∧
    (c.ref.peer = false → mustWait s c = true → t.hiu.held = s.hiu.held ++ [c] ∧ t.hiu.comps = s.hiu.comps ∧ t.hiu.cqs = s.hiu.cqs ∧
      t.hiu.irqs = s.hiu.irqs ∧ t.out = s.out) ∧
    (∀ k q, c.ref.peer = false → mustWait s c = false → cqOf s c.ref = some (k, q) → t.hiu.comps = s.hiu.comps ++ [c] ∧
      t.hiu.held = s.hiu.held ∧ t.out = s.out ∧ look t.hiu.cqs k = some { q with tail := (q.tail + 1) % q.size } ∧
      (∀ j, j ≠ k → look t.hiu.cqs j = look s.hiu.cqs j) ∧
      t.hiu.irqs = s.hiu.irqs ++ (if q.ien ∧ ¬ (q.vector < 32 ∧ (ctrlAt s c.ref.ctrl).intMask.getLsbD q.vector = true)
        then [(c.ref.ctrl.val, q.vector)] else [])) ∧
    (c.ref.peer = false → cqOf s c.ref = none → t.hiu.comps = s.hiu.comps ++ [c] ∧ t.hiu.held = s.hiu.held ∧ t.hiu.cqs = s.hiu.cqs ∧
      t.out = s.out) := by
  rw [post_of_noDeletion c h]
  refine ⟨by simp [dropCmd], fun hp => ?_, fun hp hw => ?_, fun k q hp hw hq => ?_, fun hp hq => ?_⟩
  · have he := emit_of_peer (s := s) hp
    simp [dropCmd, he]
  · simp [dropCmd, emit_of_waits hp hw]
  · obtain ⟨hk, hj, hi, ho⟩ := writeEntry_in_queue hq
    obtain ⟨-, -, hc, hh⟩ := writeEntry_queues s c
    rw [emit_of_room hp hw]
    exact ⟨hc, hh, ho, hk, hj, hi⟩
  · have hw : mustWait s c = false := by simp [mustWait, hq]
    simp [dropCmd, emit_of_room hp hw, writeEntry_of_noQueue hq]

theorem mustWait_of_full {s : State} {c : Comp} {k : Nat} {q : Cq} (h : cqOf s c.ref = some (k, q))
    (hfull : (q.tail + 1) % q.size = q.head) : mustWait s c = true := by
  simp [mustWait, h, Cq.full, hfull]

/-- Settles O36. -/
theorem completionsReachTheirQueue : Obligations.CompletionsReachTheirQueue :=
  ⟨fun s c => ⟨fun _ h => mem_of_mem_post h, fun _ hd hne h => mem_post hd hne h, onlyIn_post s c⟩,
    fun _ c h => post_reaches_queue c h, fun _ _ _ _ h hfull => mustWait_of_full h hfull⟩

end Sys2Proof.Machine
end

section
/-! PROOFS. R232, R233, R237, R268, R385: doorbells, controllers and interrupt masks. -/

namespace Sys2Proof.Machine

/-! ### Tables of queues -/

@[simp] theorem sqAt_setSq (s : State) (n q m r : Nat) (x : Sq) :
    sqAt (setSq s n q x) m r = if qKey n q = qKey m r then some x else sqAt s m r := look_ins ..

@[simp] theorem cqAt_setCq (s : State) (n q m r : Nat) (x : Cq) :
    cqAt (setCq s n q x) m r = if qKey n q = qKey m r then some x else cqAt s m r := look_ins ..

theorem length_filter_ins_le {α : Type} (t : Tbl α) (k : Nat) (v : α) (p : Nat × α → Bool) :
    ((ins t k v).filter p).length ≤ (t.filter p).length + 1 := by
  induction t with
  | nil => simpa [ins] using List.length_filter_le p [(k, v)]
  | cons e t ih =>
    have hsingle := List.length_filter_le p [(k, v)]
    have hcons (e : Nat × α) (l : Tbl α) : ((e :: l).filter p).length = ([e].filter p).length + (l.filter p).length := by
      rw [← List.length_append, ← List.filter_append, List.singleton_append]
    simp only [List.length_singleton] at hsingle
    simp only [ins]
    split
    · rw [hcons, hcons e]
      omega
    · split
      · rw [hcons, hcons e]
        omega
      · obtain ⟨j, w⟩ := e
        rw [hcons (j, w), hcons (j, w) t]
        omega

theorem length_pinned_setSq_le (s : State) (n q : Nat) (x : Sq) : (pinned (setSq s n q x)).length ≤ (pinned s).length + 1 := by
  simp only [pinned, List.length_map]
  exact length_filter_ins_le ..

/-- A queue that is used has its context on chip wherever the pinned ones leave room. -/
theorem contextHere_useContext {s : State} {k : Nat} (hk : look s.hiu.sqs k ≠ none) (hroom : (pinned s).length < 4096) :
    contextHere (useContext s k) k = true := by
  unfold useContext
  split
  case isTrue h =>
    obtain h | h := h
    · exact Bool.or_eq_true_iff.2 (.inl h)
    · exact absurd (Option.isNone_iff_eq_none.1 h) hk
  case isFalse h =>
    refine Bool.or_eq_true_iff.2 (.inr ?_)
    obtain ⟨n, hn⟩ : ∃ n, chipContexts - (pinned s).length = n + 1 := ⟨chipContexts - (pinned s).length - 1, by rw [chipContexts]; omega⟩
    rw [hn, List.take_succ_cons]
    exact List.contains_iff_mem.2 (List.mem_cons_self ..)

theorem useContext_hiu (s : State) (k : Nat) : { (useContext s k).hiu with onChip := s.hiu.onChip } = s.hiu := by
  unfold useContext
  split <;> rfl

@[simp] theorem useContext_queues (s : State) (k : Nat) :
    (useContext s k).hiu.sqs = s.hiu.sqs ∧ (useContext s k).hiu.cqs = s.hiu.cqs ∧ (useContext s k).hiu.cmds = s.hiu.cmds ∧
      (useContext s k).hiu.comps = s.hiu.comps ∧ (useContext s k).hiu.held = s.hiu.held := by
  unfold useContext
  split <;> exact ⟨rfl, rfl, rfl, rfl, rfl⟩

/-! ### Doorbells -/

theorem exec_sqTailDoorbell {s : State} {c : Fin 2} {q : Fin 65536} {v : Half} {x : Sq} (h : sqAt s c q = some x) (hv : v.toNat < x.size) :
    exec (.sqTailDoorbell c q v) s = .next (useContext (setSq s c q { x with tail := v.toNat }) (qKey c q)) := by
  change execSqTailDoorbell c q v s = _
  unfold execSqTailDoorbell
  rw [h]
  exact if_neg (by omega)

theorem exec_cqHeadDoorbell {s : State} {c : Fin 2} {q : Fin 65536} {v : Half} {x : Cq} (h : cqAt s c q = some x) (hv : v.toNat < x.size) :
    exec (.cqHeadDoorbell c q v) s = .next (useContext (drainHeld (setCq s c q { x with head := v.toNat })) (qKey c q)) := by
  change execCqHeadDoorbell c q v s = _
  unfold execCqHeadDoorbell
  rw [h]
  exact if_neg (by omega)

theorem tailDoorbell_moves (s : State) (c : Fin 2) (q : Fin 65536) (x : Sq) (v : Nat) :
    let t := useContext (setSq s c q { x with tail := v }) (qKey c q)
    sqAt t c q = some { x with tail := v } ∧ (∀ d k, qKey d k ≠ qKey c q → sqAt t d k = sqAt s d k) ∧
      { t.hiu with sqs := s.hiu.sqs, onChip := s.hiu.onChip } = s.hiu ∧
      ((pinned s).length + 1 < 4096 → contextHere t (qKey c q) = true) ∧ OnlyIn [.hiu] s t := by
  intro t
  have hsqs (d k : Nat) : sqAt t d k = sqAt (setSq s c q { x with tail := v }) d k := by
    simp only [sqAt, t, (useContext_queues _ _).1]
  refine ⟨by simp [hsqs], fun d k hne => by simp [hsqs, Ne.symm hne], ?_, fun hroom => ?_, ?_⟩
  · exact congrArg (fun u : Hiu => { u with sqs := s.hiu.sqs }) (useContext_hiu (setSq s c q { x with tail := v }) (qKey c q))
  · refine contextHere_useContext ?_ (lt_of_le_of_lt (length_pinned_setSq_le ..) hroom)
    exact (look_ins ..).trans (if_pos rfl) ▸ Option.some_ne_none _
  · exact onlyIn_of_follows (follows_useContext (by decide) (follows_setSq (by decide) (follows_refl s)))

/-- One held completion is written, or goes on waiting. -/
def drainOne (s : State) (c : Comp) : State :=
  if mustWait s c then { s with hiu := { s.hiu with held := s.hiu.held ++ [c] } } else writeEntry s c

theorem drainHeld_eq (s : State) : drainHeld s = s.hiu.held.foldl drainOne { s with hiu := { s.hiu with held := [] } } := rfl

/-- Each completion that waited stands written or waits again. -/
theorem foldl_drainOne (l : List Comp) (s : State) :
    (∃ done, (l.foldl drainOne s).hiu.comps = s.hiu.comps ++ done ∧
      (done ++ (l.foldl drainOne s).hiu.held).Perm (s.hiu.held ++ l)) ∧
      (l.foldl drainOne s).hiu.cmds = s.hiu.cmds ∧ (l.foldl drainOne s).hiu.sqs = s.hiu.sqs := by
  induction l generalizing s with
  | nil => exact ⟨⟨[], by simp⟩, rfl, rfl⟩
  | cons c l ih =>
    obtain ⟨⟨done, hcomps, hperm⟩, hcmds, hsqs⟩ := ih (drainOne s c)
    rw [List.foldl_cons]
    by_cases hw : mustWait s c = true
    · have hd : drainOne s c = { s with hiu := { s.hiu with held := s.hiu.held ++ [c] } } := if_pos hw
      rw [hd] at hcomps hperm hcmds hsqs
      rw [hd]
      exact ⟨⟨done, hcomps, by simpa using hperm⟩, hcmds, hsqs⟩
    · have hd : drainOne s c = writeEntry s c := if_neg hw
      obtain ⟨hq, hm, hc, hh⟩ := writeEntry_queues s c
      rw [hd] at hcomps hperm hcmds hsqs
      rw [hd]
      refine ⟨⟨c :: done, by rw [hcomps, hc, List.append_assoc, List.singleton_append], ?_⟩, hcmds.trans hm, hsqs.trans hq⟩
      rw [hh] at hperm
      exact (hperm.cons c).trans List.perm_middle.symm

theorem headDoorbell_moves {s : State} {c : Fin 2} {q : Fin 65536} {x : Cq} (v : Nat) :
    let t := useContext (drainHeld (setCq s c q { x with head := v })) (qKey c q)
    (s.hiu.held = [] → cqAt t c q = some { x with head := v }) ∧
      (∃ done, t.hiu.comps = s.hiu.comps ++ done ∧ (done ++ t.hiu.held).Perm s.hiu.held) ∧
      t.hiu.cmds = s.hiu.cmds ∧ t.hiu.sqs = s.hiu.sqs ∧ OnlyIn [.hiu] s t := by
  intro t
  obtain ⟨hsqs, hcqs, hcmds, hcomps, hheld⟩ := useContext_queues (drainHeld (setCq s c q { x with head := v })) (qKey c q)
  obtain ⟨hdone, hm, hq⟩ := foldl_drainOne s.hiu.held
    { setCq s c q { x with head := v } with hiu := { (setCq s c q { x with head := v }).hiu with held := [] } }
  refine ⟨fun hnone => ?_, ?_, hcmds.trans hm, hsqs.trans hq, ?_⟩
  · have hd : drainHeld (setCq s c q { x with head := v }) =
        { setCq s c q { x with head := v } with hiu := { (setCq s c q { x with head := v }).hiu with held := [] } } := by
      rw [drainHeld_eq, show (setCq s c q { x with head := v }).hiu.held = [] from hnone]
      rfl
    have hc : t.hiu.cqs = (setCq s c q { x with head := v }).hiu.cqs := hcqs.trans (by rw [hd])
    simp only [cqAt, hc]
    exact (look_ins ..).trans (if_pos rfl)
  · obtain ⟨done, h1, h2⟩ := hdone
    exact ⟨done, hcomps.trans h1, hheld ▸ h2⟩
  · exact onlyIn_of_follows (follows_useContext (by decide) (follows_drainHeld (by decide) (follows_setCq (by decide) (follows_refl s))))

/-! ### CC.EN -/

@[simp] theorem confirmSlot_hiu (s : State) : (confirmSlot s).hiu = s.hiu := by
  unfold confirmSlot
  split <;> rfl

theorem confirmSlot_of_pending {s : State} (h : s.bdy.pendingSlot ≠ 0) (hb : s.bdy.booted = s.bdy.pendingSlot) :
    (confirmSlot s).bdy.running = s.bdy.pendingSlot ∧ (confirmSlot s).bdy.pendingSlot = 0 ∧ (confirmSlot s).bdy.attempts = 0 := by
  unfold confirmSlot
  rw [if_pos ⟨h, hb⟩]
  exact ⟨rfl, rfl, rfl⟩

theorem confirmSlot_of_none {s : State} (h : s.bdy.pendingSlot = 0 ∨ s.bdy.booted ≠ s.bdy.pendingSlot) : confirmSlot s = s :=
  if_neg (fun hp => h.elim hp.1 (fun hb => hb hp.2))

/-- The admin queues of a controller with AQA. -/
def withAdminQueues (s : State) (n : Nat) (aqa : Word) : State :=
  trimContexts (setCq (setSq s n 0 { size := bits aqa.toNat 11 0 + 1, classU := true }) n 0 { size := bits aqa.toNat 27 16 + 1, ien := true })

theorem withAdminQueues_spec (s : State) (n : Nat) (aqa : Word) : let t := withAdminQueues s n aqa
    t.hiu.ctrl = s.hiu.ctrl ∧ t.bdy = s.bdy ∧ t.kst = s.kst ∧
      sqAt t n 0 = some { size := bits aqa.toNat 11 0 + 1, classU := true } ∧
      cqAt t n 0 = some { size := bits aqa.toNat 27 16 + 1, ien := true } ∧
      ∀ d k, qKey d k ≠ qKey n 0 → sqAt t d k = sqAt s d k ∧ cqAt t d k = cqAt s d k := by
  refine ⟨rfl, rfl, rfl, (look_ins ..).trans (if_pos rfl), (look_ins ..).trans (if_pos rfl), fun d k hne => ?_⟩
  exact ⟨(look_ins ..).trans (if_neg (Ne.symm hne)), (look_ins ..).trans (if_neg (Ne.symm hne))⟩

/-- A controller record as CC.EN leaves it. -/
def enabledCtrl (s : State) (n : Nat) (cc aqa : Word) (asq acq : Dword) : Ctrl :=
  { ctrlAt s n with cc := cc, aqa := aqa, asq := asq, acq := acq, rdy := decide (s.pwr.phase = .running) && !(ctrlAt s n).cfs }

/-- The controller's record is in force; its first readiness confirms the pending slot. -/
def enabled (s : State) (n : Nat) (cc aqa : Word) (asq acq : Dword) : State :=
  let t := setCtrl s n (enabledCtrl s n cc aqa asq acq)
  if (ctrlAt t n).rdy then confirmSlot t else t

theorem exec_controllerEnable {s : State} {c : Fin 2} {cc aqa : Word} {asq acq : Dword} (hc : c.val ∈ controllers s)
    (hoff : (ctrlAt s c).cc.getLsbD 0 = false) (hon : cc.getLsbD 0 = true) :
    exec (.controllerEnable c cc aqa asq acq) s = .next (withAdminQueues (enabled s c cc aqa asq acq) c aqa) := by
  refine if_neg ?_
  simp only [hoff, hon, List.contains_iff_mem.2 hc]
  decide

theorem exec_controllerEnable_of_not {s : State} {c : Fin 2} {cc aqa : Word} {asq acq : Dword}
    (h : c.val ∉ controllers s ∨ (ctrlAt s c).cc.getLsbD 0 = true ∨ cc.getLsbD 0 = false) :
    exec (.controllerEnable c cc aqa asq acq) s = .next s := by
  refine if_pos ?_
  simpa [or_assoc] using h

theorem ctrlAt_enabled (s : State) (n : Nat) (cc aqa : Word) (asq acq : Dword) :
    ctrlAt (enabled s n cc aqa asq acq) n = enabledCtrl s n cc aqa asq acq := by
  have h : ctrlAt (setCtrl s n (enabledCtrl s n cc aqa asq acq)) n = enabledCtrl s n cc aqa asq acq := by simp
  unfold enabled
  dsimp only
  split
  · simpa [ctrlAt] using h
  · exact h

theorem enabled_queues (s : State) (n : Nat) (cc aqa : Word) (asq acq : Dword) :
    (enabled s n cc aqa asq acq).hiu.sqs = s.hiu.sqs ∧ (enabled s n cc aqa asq acq).hiu.cqs = s.hiu.cqs := by
  unfold enabled
  dsimp only
  split
  · rw [confirmSlot_hiu]
    exact ⟨rfl, rfl⟩
  · exact ⟨rfl, rfl⟩

theorem enabled_confirms {s : State} {n : Nat} (cc aqa : Word) (asq acq : Dword) (hrun : s.pwr.phase = .running)
    (hcfs : (ctrlAt s n).cfs = false) (hp : s.bdy.pendingSlot ≠ 0) (hb : s.bdy.booted = s.bdy.pendingSlot) :
    let t := enabled s n cc aqa asq acq
    t.bdy.running = s.bdy.pendingSlot ∧ t.bdy.pendingSlot = 0 ∧ t.bdy.attempts = 0 := by
  have he : enabled s n cc aqa asq acq = confirmSlot (setCtrl s n (enabledCtrl s n cc aqa asq acq)) :=
    if_pos (by simp [enabledCtrl, hrun, hcfs])
  rw [he]
  exact confirmSlot_of_pending hp hb

theorem enabled_keeps {s : State} {n : Nat} (cc aqa : Word) (asq acq : Dword)
    (h : s.pwr.phase ≠ .running ∨ s.bdy.pendingSlot = 0 ∨ s.bdy.booted ≠ s.bdy.pendingSlot) :
    (enabled s n cc aqa asq acq).bdy = s.bdy ∧ (enabled s n cc aqa asq acq).kst = s.kst := by
  unfold enabled
  dsimp only
  split
  case isTrue hr =>
    have hrun : s.pwr.phase = .running := by
      simp only [ctrlAt_setCtrl, if_pos, enabledCtrl, Bool.and_eq_true, decide_eq_true_eq] at hr
      exact hr.1
    rw [confirmSlot_of_none (s := setCtrl ..) (h.resolve_left (fun hn => hn hrun))]
    exact ⟨rfl, rfl⟩
  case isFalse => exact ⟨rfl, rfl⟩

/-- Clearing CC.EN ends this command. -/
def mineOf (n : Nat) (r : CmdRef) : Bool := !r.peer && r.ctrl.val == n

/-- A controller's queues, held completions and commands go. -/
def withoutController (s : State) (n : Nat) : State :=
  { s with hiu := { s.hiu with
      ctrl := put s.hiu.ctrl {} n { aqa := (ctrlAt s n).aqa, asq := (ctrlAt s n).asq, acq := (ctrlAt s n).acq, cfs := (ctrlAt s n).cfs }
      sqs := s.hiu.sqs.filter (fun e => decide (e.1 / 65536 ≠ n)), onChip := s.hiu.onChip.filter (fun k => decide (k / 65536 ≠ n))
      cqs := s.hiu.cqs.filter (fun e => decide (e.1 / 65536 ≠ n))
      held := s.hiu.held.filter (fun x => !mineOf n x.ref)
      cmds := s.hiu.cmds.filter (fun d => !mineOf n d.ref) } }

/-- The pieces that had committed of a controller's writes stand as versions. -/
def keptPieces (s : State) (n : Nat) : State := (s.hiu.cmds.filter (fun d => mineOf n d.ref)).foldl keepPieces s

theorem endController_eq (s : State) (n : Nat) : endController s n = withoutController (keptPieces s n) n := rfl

theorem exec_controllerReset (s : State) (c : Fin 2) : exec (.controllerReset c) s =
    .next (releaseVersions (setCtrl (endController s c) c { ctrlAt (endController s c) c with cfs := false })) := rfl

theorem keepPieces_hiu (s : State) (d : Cmd) : (keepPieces s d).hiu = s.hiu :=
  (onlyIn_of_follows (parts := [.cnt, .bays, .ports, .out, .rdc, .wrc, .cal, .qre, .mem, .bdy])
    (follows_keepPieces (by decide) (follows_refl s))).2 .hiu (by decide)

theorem keptPieces_hiu (s : State) (n : Nat) : (keptPieces s n).hiu = s.hiu := foldl_keeps State.hiu keepPieces_hiu _ s

theorem keptPieces_of_none {s : State} {c : Fin 2} (h : ∀ d ∈ s.hiu.cmds, d.ref.peer = false → d.ref.ctrl = c → d.pieces = 0) :
    keptPieces s c = s := by
  refine foldl_keeps_of_mem id (fun t d hd => ?_) s
  obtain ⟨hd, hm⟩ := List.mem_filter.1 hd
  simp only [mineOf, Bool.and_eq_true, Bool.not_eq_eq_eq_not, Bool.not_true, beq_iff_eq] at hm
  refine if_neg (fun hw => ?_)
  have hz := h d hd hm.1 (Fin.ext hm.2)
  omega

theorem withoutController_queues (s : State) (n d q : Nat) (hq : q < 65536) :
    sqAt (withoutController s n) d q = (if d = n then none else sqAt s d q) ∧
      cqAt (withoutController s n) d q = (if d = n then none else cqAt s d q) := by
  have hk : qKey d q / 65536 = d := qKey_div d hq
  have hl {α : Type} (t : Tbl α) : look (t.filter (fun e => decide (e.1 / 65536 ≠ n))) (qKey d q) = if d = n then none else look t (qKey d q) := by
    rw [look_filter t (fun k => decide (k / 65536 ≠ n)), hk]
    by_cases h : d = n <;> simp [h]
  exact ⟨hl _, hl _⟩

theorem not_mineOf (c : Fin 2) (r : CmdRef) : (!mineOf c r) = (r.peer || r.ctrl != c) := by
  have hval : (r.ctrl.val == c.val) = (r.ctrl == c) := by
    rw [Bool.eq_iff_iff, beq_iff_eq, beq_iff_eq]
    exact Fin.ext_iff.symm
  rw [mineOf, hval, bne]
  cases r.peer <;> rfl

/-- Storing a controller, and releasing versions, leaves the queues and commands. -/
theorem releaseVersions_setCtrl (s : State) (n : Nat) (x : Ctrl) : let t := releaseVersions (setCtrl s n x)
    (∀ d, ctrlAt t d = if n = d then x else ctrlAt s d) ∧ (∀ d q, sqAt t d q = sqAt s d q ∧ cqAt t d q = cqAt s d q) ∧
      t.hiu.cmds = s.hiu.cmds ∧ t.hiu.comps = s.hiu.comps ∧ t.hiu.ns = s.hiu.ns ∧ t.hiu.zones = s.hiu.zones :=
  ⟨fun d => ctrlAt_setCtrl s n d x, fun _ _ => ⟨rfl, rfl⟩, rfl, rfl, rfl, rfl⟩

/-- What is left of the host interface once a controller's record and queues are gone. -/
theorem withoutController_spec (s : State) (c : Fin 2) : let t := withoutController s c
    ctrlAt t c = { aqa := (ctrlAt s c).aqa, asq := (ctrlAt s c).asq, acq := (ctrlAt s c).acq, cfs := (ctrlAt s c).cfs } ∧
    (∀ d, d ≠ c.val → ctrlAt t d = ctrlAt s d) ∧ t.hiu.cmds = s.hiu.cmds.filter (fun d => d.ref.peer || d.ref.ctrl != c) ∧
    t.hiu.comps = s.hiu.comps ∧ t.hiu.ns = s.hiu.ns ∧ t.hiu.zones = s.hiu.zones :=
  ⟨(getD_put ..).trans (if_pos rfl), fun _ hd => (getD_put ..).trans (if_neg (Ne.symm hd)),
    List.filter_congr (fun d _ => not_mineOf c d.ref), rfl, rfl, rfl⟩

/-- What CONTROLLER_RESET leaves of the host interface. -/
theorem controllerReset_spec (s : State) (c : Fin 2) :
    let t := releaseVersions (setCtrl (withoutController s c) c { ctrlAt (withoutController s c) c with cfs := false })
    ctrlAt t c = { aqa := (ctrlAt s c).aqa, asq := (ctrlAt s c).asq, acq := (ctrlAt s c).acq } ∧
    (∀ q : Fin 65536, sqAt t c q = none ∧ cqAt t c q = none) ∧
    (∀ (d : Fin 2) (q : Fin 65536), d ≠ c → ctrlAt t d = ctrlAt s d ∧ sqAt t d q = sqAt s d q ∧ cqAt t d q = cqAt s d q) ∧
    t.hiu.cmds = s.hiu.cmds.filter (fun d => d.ref.peer || d.ref.ctrl != c) ∧ t.hiu.comps = s.hiu.comps ∧ t.hiu.ns = s.hiu.ns ∧
    t.hiu.zones = s.hiu.zones := by
  obtain ⟨hx, hother, hm, hc, hn, hz⟩ := withoutController_spec s c
  have hqueues := withoutController_queues s c
  generalize withoutController s c = w at hx hother hm hc hn hz hqueues ⊢
  obtain ⟨hctrl, hq, hm', hc', hn', hz'⟩ := releaseVersions_setCtrl w c { ctrlAt w c with cfs := false }
  generalize releaseVersions (setCtrl w c { ctrlAt w c with cfs := false }) = t at hctrl hq hm' hc' hn' hz' ⊢
  refine ⟨?_, fun q => ?_, fun d q hd => ?_, hm'.trans hm, hc'.trans hc, hn'.trans hn, hz'.trans hz⟩
  · rw [hctrl, if_pos rfl, hx]
  · obtain ⟨h1, h2⟩ := hq c q
    obtain ⟨h3, h4⟩ := hqueues c q q.isLt
    exact ⟨by rw [h1, h3, if_pos rfl], by rw [h2, h4, if_pos rfl]⟩
  · have hne : d.val ≠ c.val := fun h => hd (Fin.ext h)
    obtain ⟨h1, h2⟩ := hq d q
    obtain ⟨h3, h4⟩ := hqueues d q q.isLt
    exact ⟨by rw [hctrl, if_neg (Ne.symm hne), hother d hne], by rw [h1, h3, if_neg hne], by rw [h2, h4, if_neg hne]⟩

theorem controllerReset_idle {s : State} {c : Fin 2} (h : ∀ d ∈ s.hiu.cmds, d.ref.peer = false → d.ref.ctrl = c → d.pieces = 0) :
    OnlyIn [.hiu, .cmd, .qre] s
      (releaseVersions (setCtrl (endController s c) c { ctrlAt (endController s c) c with cfs := false })) := by
  rw [endController_eq, keptPieces_of_none h]
  refine onlyIn_of_follows (follows_releaseVersions (by decide) (follows_setCtrl (by decide) ?_))
  exact upd_hiu (by decide) (follows_refl s)

theorem controllerReset_ends (s : State) (c : Fin 2) : ∃ t, exec (.controllerReset c) s = .next t ∧
    ctrlAt t c = { aqa := (ctrlAt s c).aqa, asq := (ctrlAt s c).asq, acq := (ctrlAt s c).acq } ∧
    (∀ q : Fin 65536, sqAt t c q = none ∧ cqAt t c q = none) ∧
    (∀ (d : Fin 2) (q : Fin 65536), d ≠ c → ctrlAt t d = ctrlAt s d ∧ sqAt t d q = sqAt s d q ∧ cqAt t d q = cqAt s d q) ∧
    t.hiu.cmds = s.hiu.cmds.filter (fun d => d.ref.peer || d.ref.ctrl != c) ∧ t.hiu.comps = s.hiu.comps ∧ t.hiu.ns = s.hiu.ns ∧
    t.hiu.zones = s.hiu.zones ∧ OnlyIn [.cnt, .bays, .ports, .out, .rdc, .wrc, .cal, .qre, .hiu, .cmd, .mem, .bdy] s t ∧
    ((∀ d ∈ s.hiu.cmds, d.ref.peer = false → d.ref.ctrl = c → d.pieces = 0) → OnlyIn [.hiu, .cmd, .qre] s t) := by
  have hhiu := keptPieces_hiu s c
  obtain ⟨h1, h2, h3, h4, h5, h6, h7⟩ := controllerReset_spec (keptPieces s c) c
  simp only [ctrlAt, sqAt, cqAt, hhiu] at h1 h3 h4 h5 h6 h7
  exact ⟨_, exec_controllerReset s c, h1, h2, h3, h4, h5, h6, h7,
    everyCommandStaysInItsReach (.controllerReset c) s _ (exec_controllerReset s c), controllerReset_idle⟩

/-! ### Masks -/

@[simp] theorem interrupt_intMask (s : State) (n v m : Nat) : (ctrlAt (interrupt s n v) m).intMask = (ctrlAt s m).intMask := by
  unfold interrupt
  dsimp only
  split
  · rw [ctrlAt_setCtrl]
    split
    case isTrue h => rw [← h]
    case isFalse => rfl
  · rfl

theorem ctrlAt_interrupt_other (s : State) {n m : Nat} (v : Nat) (h : m ≠ n) : ctrlAt (interrupt s n v) m = ctrlAt s m := by
  unfold interrupt
  dsimp only
  split
  · rw [ctrlAt_setCtrl, if_neg (Ne.symm h)]
  · rfl

/-- The pending vectors of a controller are sent, those still masked excepted. -/
theorem foldl_interrupt (n : Nat) (l : List Nat) (s : State) :
    let u := l.foldl (fun s v => interrupt s n v) s
    (ctrlAt u n).intMask = (ctrlAt s n).intMask ∧ (∀ d, d ≠ n → ctrlAt u d = ctrlAt s d) ∧
      ∃ k, u.hiu.irqs = s.hiu.irqs ++ k ∧ (∀ v ∈ k, v.1 = n ∧ v.2 ∈ l) ∧
        ∀ v ∈ l, (v < 32 → (ctrlAt s n).intMask.getLsbD v = false) → (n, v) ∈ u.hiu.irqs := by
  induction l generalizing s with
  | nil => exact ⟨rfl, fun _ _ => rfl, [], by simp⟩
  | cons w l ih =>
    obtain ⟨hm, hd, k, hk, hfrom, hto⟩ := ih (interrupt s n w)
    rw [interrupt_irqs] at hk
    refine ⟨hm.trans (interrupt_intMask ..), fun d hne => (hd d hne).trans (ctrlAt_interrupt_other s w hne), _,
      hk.trans (List.append_assoc ..), fun v hv => ?_, fun v hv hopen => ?_⟩
    · obtain hv | hv := List.mem_append.1 hv
      · split at hv
        · exact absurd hv List.not_mem_nil
        · rw [List.mem_singleton.1 hv]
          exact ⟨rfl, List.mem_cons_self ..⟩
      · exact ⟨(hfrom v hv).1, List.mem_cons_of_mem _ (hfrom v hv).2⟩
    · obtain rfl | hv := List.mem_cons.1 hv
      · rw [List.foldl_cons, hk, if_neg (fun h => by simp [hopen h.1] at h)]
        simp
      · exact hto v hv (fun h => by rw [interrupt_intMask]; exact hopen h)

theorem exec_interruptMaskClear (s : State) (c : Fin 2) (m : Word) : exec (.interruptMaskClear c m) s =
    .next ((ctrlAt s c).pendingBits.foldl (fun s v => interrupt s c v)
      (setCtrl s c { ctrlAt s c with intMask := (ctrlAt s c).intMask &&& ~~~m, pendingBits := [] })) := rfl

theorem masks_set_and_clear (s : State) (c : Fin 2) (m : Word) : ∃ t u, exec (.interruptMaskSet c m) s = .next t ∧
    exec (.interruptMaskClear c m) s = .next u ∧
    (ctrlAt t c).intMask = (ctrlAt s c).intMask ||| m ∧ (ctrlAt u c).intMask = (ctrlAt s c).intMask &&& ~~~m ∧
    t.hiu.irqs = s.hiu.irqs ∧ (∃ l, u.hiu.irqs = s.hiu.irqs ++ l ∧ ∀ v ∈ l, v.1 = c.val ∧ v.2 ∈ (ctrlAt s c).pendingBits) ∧
    (∀ v ∈ (ctrlAt s c).pendingBits, v < 32 → m.getLsbD v = true → (c.val, v) ∈ u.hiu.irqs) ∧
    (∀ d, d ≠ c.val → ctrlAt t d = ctrlAt s d ∧ ctrlAt u d = ctrlAt s d) ∧ OnlyIn [.hiu] s t ∧ OnlyIn [.hiu] s u := by
  obtain ⟨hm, hd, k, hk, hfrom, hto⟩ := foldl_interrupt c (ctrlAt s c).pendingBits
    (setCtrl s c { ctrlAt s c with intMask := (ctrlAt s c).intMask &&& ~~~m, pendingBits := [] })
  rw [ctrlAt_setCtrl, if_pos rfl] at hm hto
  refine ⟨_, _, rfl, exec_interruptMaskClear s c m, ?_, hm, rfl, ⟨k, hk, hfrom⟩, fun v hv hv32 hmv => hto v hv (fun _ => ?_),
    fun d hne => ⟨?_, (hd d hne).trans ?_⟩, everyCommandStaysInItsReach (.interruptMaskSet c m) s _ rfl,
    everyCommandStaysInItsReach (.interruptMaskClear c m) s _ (exec_interruptMaskClear s c m)⟩
  · rw [ctrlAt_setCtrl, if_pos rfl]
  · simp [hmv]
  · rw [ctrlAt_setCtrl, if_neg (Ne.symm hne)]
  · rw [ctrlAt_setCtrl, if_neg (Ne.symm hne)]

theorem controllerEnable_enables {s : State} {c : Fin 2} {cc aqa : Word} {asq acq : Dword} (hc : c.val ∈ controllers s)
    (hoff : (ctrlAt s c).cc.getLsbD 0 = false) (hon : cc.getLsbD 0 = true) : let x := ctrlAt s c
    ∃ t, exec (.controllerEnable c cc aqa asq acq) s = .next t ∧
      ctrlAt t c = { x with cc := cc, aqa := aqa, asq := asq, acq := acq, rdy := decide (s.pwr.phase = .running) && !x.cfs } ∧
      sqAt t c 0 = some { size := bits aqa.toNat 11 0 + 1, classU := true } ∧
      cqAt t c 0 = some { size := bits aqa.toNat 27 16 + 1, ien := true } ∧
      (∀ d k, qKey d k ≠ qKey c 0 → sqAt t d k = sqAt s d k ∧ cqAt t d k = cqAt s d k) ∧
      (s.pwr.phase = .running → x.cfs = false → s.bdy.pendingSlot ≠ 0 → s.bdy.booted = s.bdy.pendingSlot →
        t.bdy.running = s.bdy.pendingSlot ∧ t.bdy.pendingSlot = 0 ∧ t.bdy.attempts = 0) ∧
      (s.pwr.phase ≠ .running ∨ s.bdy.pendingSlot = 0 ∨ s.bdy.booted ≠ s.bdy.pendingSlot → t.bdy = s.bdy ∧ t.kst = s.kst) := by
  intro x
  obtain ⟨hctrl, hbdy, hkst, hsq, hcq, hrest⟩ := withAdminQueues_spec (enabled s c cc aqa asq acq) c aqa
  obtain ⟨hsqs, hcqs⟩ := enabled_queues s c cc aqa asq acq
  refine ⟨_, exec_controllerEnable hc hoff hon, ?_, hsq, hcq, fun d k hne => ?_, fun hrun hcfs hp hb => ?_, fun h => ?_⟩
  · exact (congrArg (fun l : Tbl Ctrl => getD l {} c.val) hctrl).trans (ctrlAt_enabled s c cc aqa asq acq)
  · obtain ⟨h1, h2⟩ := hrest d k hne
    exact ⟨h1.trans (congrArg (look · _) hsqs), h2.trans (congrArg (look · _) hcqs)⟩
  · rw [hbdy]
    exact enabled_confirms cc aqa asq acq hrun hcfs hp hb
  · rw [hbdy, hkst]
    exact enabled_keeps cc aqa asq acq h

/-- Settles O37. -/
theorem doorbellsControllersAndMasks : Obligations.DoorbellsControllersAndMasks := by
  refine ⟨fun s c q v => ⟨fun h => ?_, fun x h => ⟨fun hv => ?_, fun hv => ?_⟩, fun h => ?_, fun x h => ⟨fun hv => ?_, fun hv => ?_⟩⟩,
    fun s c cc aqa asq acq => ⟨fun hc hoff hon => controllerEnable_enables hc hoff hon, exec_controllerEnable_of_not⟩,
    controllerReset_ends, masks_set_and_clear⟩
  · change execSqTailDoorbell c q v s = _
    rw [execSqTailDoorbell, h]
    rfl
  · change execSqTailDoorbell c q v s = _
    rw [execSqTailDoorbell, h]
    exact if_pos hv
  · exact ⟨_, exec_sqTailDoorbell h hv, tailDoorbell_moves s c q x v.toNat⟩
  · change execCqHeadDoorbell c q v s = _
    rw [execCqHeadDoorbell, h]
    rfl
  · change execCqHeadDoorbell c q v s = _
    rw [execCqHeadDoorbell, h]
    exact if_pos hv
  · exact ⟨_, exec_cqHeadDoorbell h hv, headDoorbell_moves v.toNat⟩

end Sys2Proof.Machine
end

section
/-! PROOFS. R17, R50, R238, R239, R246, R254: the arbiter and admission. -/

namespace Sys2Proof.Machine

/-! ### Outstanding commands by reference -/

theorem cmdAt_ref {s : State} {r : CmdRef} {c : Cmd} (h : cmdAt s r = some c) : c.ref = r := by
  simpa using List.find?_some h

theorem cmdAt_mem {s : State} {r : CmdRef} {c : Cmd} (h : cmdAt s r = some c) : c ∈ s.hiu.cmds := List.mem_of_find?_eq_some h

/-- The list of commands with each of a reference replaced. -/
def replaced (l : List Cmd) (x : Cmd) : List Cmd := l.map (fun d => if d.ref = x.ref then x else d)

theorem find_replaced {l : List Cmd} {c x : Cmd} (h : l.find? (fun d => d.ref = x.ref) = some c) :
    (replaced l x).find? (fun d => d.ref = x.ref) = some x := by
  induction l with
  | nil => exact absurd h (by simp)
  | cons d l ih =>
    by_cases hd : d.ref = x.ref
    · simp [replaced, hd]
    · simpa [replaced, hd] using ih (by simpa [hd] using h)

theorem find_replaced_other {r : CmdRef} {x : Cmd} (h : x.ref ≠ r) (l : List Cmd) :
    (replaced l x).find? (fun d => d.ref = r) = l.find? (fun d => d.ref = r) := by
  induction l with
  | nil => rfl
  | cons d l ih =>
    simp only [replaced, List.map_cons, List.find?_cons] at ih ⊢
    rw [ih]
    by_cases hd : d.ref = x.ref
    · simp [hd, h]
    · simp [hd]

theorem cmdAt_setCmd {s : State} {r : CmdRef} {c x : Cmd} (h : cmdAt s r = some c) (hx : x.ref = r) : cmdAt (setCmd s x) r = some x := by
  subst hx
  exact find_replaced h

theorem cmdAt_setCmd_other {s : State} {r : CmdRef} {x : Cmd} (h : x.ref ≠ r) : cmdAt (setCmd s x) r = cmdAt s r :=
  find_replaced_other h s.hiu.cmds

theorem mem_setCmd_of_other {s : State} {x d : Cmd} (h : d ∈ s.hiu.cmds) (hne : d.ref ≠ x.ref) : d ∈ (setCmd s x).hiu.cmds :=
  List.mem_map.2 ⟨d, h, if_neg hne⟩

theorem cmdAt_of_hiu {s t : State} (h : t.hiu = s.hiu) (r : CmdRef) : cmdAt t r = cmdAt s r := by
  simp only [cmdAt, h]

/-! ### The arbiter -/

theorem arbGroup_eq_zero_iff (s : State) (k : Nat) (q : Sq) : arbGroup s k q = 0 ↔ q.classU = true := by
  unfold arbGroup
  cases q.classU <;> simp
  split <;> omega

theorem visible_of_fetchable {s : State} {k : Nat} {q : Sq} (h : fetchable s k q = true) : visible s k q = true := by
  simp only [fetchable, Bool.and_eq_true] at h
  exact h.1.1

/-- Class U first, but one class B fetch after 31 of class U in a row. -/
theorem fetchable_order {s : State} {k : Nat} {q : Sq} (h : fetchable s k q = true) :
    (q.classU = false → groupQueues s 0 = [] ∨ 31 ≤ s.hiu.uRun) ∧ (q.classU = true → classBWaits s = true → s.hiu.uRun < 31) := by
  simp only [fetchable, Bool.and_eq_true] at h
  obtain ⟨-, h⟩ := h
  constructor
  · intro hu
    rw [if_neg (by rw [arbGroup_eq_zero_iff]; simp [hu])] at h
    simp only [Bool.and_eq_true, Bool.or_eq_true, List.isEmpty_iff, decide_eq_true_eq] at h
    exact h.1
  · intro hu hb
    rw [if_pos ((arbGroup_eq_zero_iff s k q).2 hu)] at h
    simpa [hb] using h

theorem fetchable_spec {s : State} {k : Nat} {q : Sq} (h : fetchable s k q = true) :
    0 < q.waiting ∧ (ctrlAt s (k / 65536)).rdy = true ∧ q.deleting = none ∧
    (q.classU = false → groupQueues s 0 = [] ∨ 31 ≤ s.hiu.uRun) ∧ (q.classU = true → classBWaits s = true → s.hiu.uRun < 31) := by
  have hv := visible_of_fetchable h
  simp only [visible, Bool.and_eq_true, decide_eq_true_eq, Option.isNone_iff_eq_none] at hv
  obtain ⟨⟨hrdy, hdel⟩, hw⟩ := hv
  exact ⟨hw, hrdy, hdel, fetchable_order h⟩

/-! ### COMMAND_FETCH -/

/-- The outstanding command of a fetched entry. -/
def entryCmd (c : Fin 2) (q : Fin 65536) (u : Bool) (e : Sqe) : Cmd :=
  { ref := { ctrl := c, sqid := q, cid := e.cid }, sqe := e, classU := u, nlb := e.nlb }

theorem takeEntry_of_supported {s : State} {c : Fin 2} {q : Fin 65536} {u : Bool} {e : Sqe} (h : e.kind ≠ .other) :
    takeEntry s c q u e = { s with hiu := { s.hiu with cmds := s.hiu.cmds ++ [entryCmd c q u e] } } := by
  unfold takeEntry
  exact if_neg h

theorem foldl_takeEntry {c : Fin 2} {q : Fin 65536} {u : Bool} {es : List Sqe} (s : State) (h : ∀ e ∈ es, e.kind ≠ .other) :
    es.foldl (fun s e => takeEntry s c q u e) s = { s with hiu := { s.hiu with cmds := s.hiu.cmds ++ es.map (entryCmd c q u) } } := by
  induction es generalizing s with
  | nil => simp
  | cons e es ih =>
    rw [List.foldl_cons, takeEntry_of_supported (h e (List.mem_cons_self ..)), ih _ (fun e he => h e (List.mem_cons_of_mem _ he))]
    simp

/-- The fetch has been noted, the queue's head has moved, its context is on chip. -/
def fetching (s : State) (c : Fin 2) (qid : Fin 65536) (q : Sq) (n : Nat) : State :=
  useContext (setSq (noteFetch s (qKey c qid) q n) c qid { q with head := (q.head + n) % q.size }) (qKey c qid)

theorem exec_commandFetch_fetches {s : State} {c : Fin 2} {qid : Fin 65536} {q : Sq} {es : List Sqe} (hq : sqAt s c qid = some q)
    (hes : es ≠ []) (hf : fetchable s (qKey c qid) q = true) (hb : es.length ≤ burst s c) (hw : es.length ≤ q.waiting)
    (hheld : fetchedCount s + es.length ≤ 131072) (hp : s.cmd.fetchPaused = false) (ha : s.cmd.admission = true) :
    exec (.commandFetch c qid es) s = .next (es.foldl (fun s e => takeEntry s c qid q.classU e) (fetching s c qid q es.length)) := by
  have hempty : es.isEmpty = false := by simpa using hes
  rw [exec_commandFetch, execCommandFetch, hq]
  dsimp only
  rw [if_neg]
  · rfl
  · simp [hf, hempty, hp, ha]
    omega

theorem exec_commandFetch_stopped {s : State} {c : Fin 2} {qid : Fin 65536} {q : Sq} {es : List Sqe} (hq : sqAt s c qid = some q)
    (h : fetchable s (qKey c qid) q = false ∨ s.cmd.fetchPaused = true ∨ s.cmd.admission = false) :
    exec (.commandFetch c qid es) s = .next s := by
  rw [exec_commandFetch, execCommandFetch, hq]
  refine if_pos ?_
  obtain h | h | h := h <;> simp [h]

theorem noteFetch_queues (s : State) (k : Nat) (q : Sq) (n : Nat) :
    (noteFetch s k q n).hiu.sqs = s.hiu.sqs ∧ (noteFetch s k q n).hiu.cmds = s.hiu.cmds ∧ (noteFetch s k q n).hiu.comps = s.hiu.comps :=
  ⟨rfl, rfl, rfl⟩

theorem fetching_spec (s : State) (c : Fin 2) (qid : Fin 65536) (q : Sq) (n : Nat) : let t := fetching s c qid q n
    t.hiu.cmds = s.hiu.cmds ∧ t.hiu.comps = s.hiu.comps ∧ sqAt t c qid = some { q with head := (q.head + n) % q.size } ∧
      (∀ d k, qKey d k ≠ qKey c qid → sqAt t d k = sqAt s d k) := by
  intro t
  obtain ⟨hsqs, -, hcmds, hcomps, -⟩ :=
    useContext_queues (setSq (noteFetch s (qKey c qid) q n) c qid { q with head := (q.head + n) % q.size }) (qKey c qid)
  obtain ⟨hs, hm, hc⟩ := noteFetch_queues s (qKey c qid) q n
  have hsq (d k : Nat) : sqAt t d k =
      sqAt (setSq (noteFetch s (qKey c qid) q n) c qid { q with head := (q.head + n) % q.size }) d k := congrArg (look · _) hsqs
  refine ⟨hcmds.trans hm, hcomps.trans hc, by rw [hsq, sqAt_setSq, if_pos rfl], fun d k hne => ?_⟩
  rw [hsq, sqAt_setSq, if_neg (Ne.symm hne)]
  exact congrArg (look · _) hs

theorem onlyIn_fetch {s t : State} {c : Fin 2} {qid : Fin 65536} {q : Sq} {n : Nat} (l : List Cmd)
    (ht : t = { fetching s c qid q n with hiu := { (fetching s c qid q n).hiu with cmds := l } }) : OnlyIn [.hiu] s t := by
  rw [ht]
  exact onlyIn_of_follows (upd_hiu (by decide) (follows_useContext (by decide) (follows_setSq (by decide)
    (follows_noteFetch (by decide) (follows_refl s)))))

theorem commandFetch_fetches {s : State} {c : Fin 2} {qid : Fin 65536} {q : Sq} {es : List Sqe} (hq : sqAt s c qid = some q)
    (hes : es ≠ []) (hf : fetchable s (qKey c qid) q = true) (hb : es.length ≤ burst s c) (hw : es.length ≤ q.waiting)
    (hheld : (s.hiu.cmds.filter (fun c => !c.ref.peer)).length + es.length ≤ 131072) (hp : s.cmd.fetchPaused = false)
    (ha : s.cmd.admission = true) (hk : ∀ e ∈ es, e.kind ≠ .other) : ∃ t, exec (.commandFetch c qid es) s = .next t ∧
        t.hiu.cmds = s.hiu.cmds ++ es.map (fun e =>
          { ref := { ctrl := c, sqid := qid, cid := e.cid }, sqe := e, classU := q.classU, nlb := e.nlb }) ∧
        sqAt t c qid = some { q with head := (q.head + es.length) % q.size } ∧
        (∀ d k, qKey d k ≠ qKey c qid → sqAt t d k = sqAt s d k) ∧ t.hiu.comps = s.hiu.comps ∧ OnlyIn [.hiu] s t := by
  have hexec := exec_commandFetch_fetches hq hes hf hb hw hheld hp ha
  rw [foldl_takeEntry _ hk] at hexec
  obtain ⟨hcmds, hcomps, hsq, hother⟩ := fetching_spec s c qid q es.length
  exact ⟨_, hexec, congrArg (· ++ es.map (entryCmd c qid q.classU)) hcmds, hsq, hother, hcomps, onlyIn_fetch _ rfl⟩

/-! ### Admission -/

theorem exec_commandAdmission {s : State} {r : CmdRef} {c : Cmd} (late : Bool) (h : cmdAt s r = some c) :
    exec (.commandAdmission r late) s = .next (admitCmd s c late) := by
  change execCommandAdmission r late s = _
  rw [execCommandAdmission, h]

section
variable {s : State} {r : CmdRef} {late : Bool} {c : Cmd} {n : Ns}

theorem admitCmd_of_later (hst : c.st = .fetched) (hk : c.sqe.kind ≠ .admin) (ha : s.cmd.admission = true)
    (hfirst : firstOfQueue s c = false) : admitCmd s c late = s := by
  unfold admitCmd
  rw [if_neg (by simp [hst, ha]), if_neg (by simpa using hk), if_pos (by simp [hfirst])]

theorem admitCmd_of_admin (hst : c.st = .fetched) (hk : c.sqe.kind = .admin) (ha : s.cmd.admission = true) :
    admitCmd s c late = setCmd (noteLate s c late) { c with st := .admitted } := by
  unfold admitCmd
  rw [if_neg (by simp [hst, ha]), if_pos (by simp [hk])]

theorem admitCmd_of_noNamespace (hst : c.st = .fetched) (hk : c.sqe.kind ≠ .admin) (hf : c.sqe.kind ≠ .flush)
    (ha : s.cmd.admission = true) (hfirst : firstOfQueue s c = true) (hns : nsCreateAllowed s = true)
    (hn : nsAt s c.sqe.nsid.toNat = none) : admitCmd s c late = complete s c.ref .invalidNamespace := by
  unfold admitCmd
  rw [if_neg (by simp [hst, ha]), if_neg (by simpa using hk), if_neg (by simp [hfirst]), if_neg (by simp [hns]), if_neg (by simp [hf]), hn]

/-- A command that is next in its queue, on an attached namespace: the state of the path decides. -/
theorem admitCmd_of_path (hst : c.st = .fetched) (hk : c.sqe.kind ≠ .admin) (hf : c.sqe.kind ≠ .flush)
    (ha : s.cmd.admission = true) (hfirst : firstOfQueue s c = true) (hns : nsCreateAllowed s = true)
    (hn : nsAt s c.sqe.nsid.toNat = some n) (hatt : c.ref.peer = true ∨ cntlid s c.ref.ctrl ∈ n.attached) :
    admitCmd s c late = if anaOf s n.ana = 1 then admitHere s c n late
      else if c.ref.peer ∨ anaOf s n.ana = 15 then complete s c.ref .anaTransition
      else if anaOf s n.ana = 2 ∧ s.spn.link = 2 then forward s c
      else complete s c.ref .anaInaccessible := by
  unfold admitCmd
  rw [if_neg (by simp [hst, ha]), if_neg (by simpa using hk), if_neg (by simp [hfirst]), if_neg (by simp [hns]), if_neg (by simp [hf]), hn]
  dsimp only
  rw [if_neg]
  obtain h | h := hatt <;> simp [h]

/-- The command with its place in the admission order. -/
def placed (s : State) (c : Cmd) (lba : Nat) : Cmd := { c with st := .admitted, seq := s.cmd.seq, lba := lba }

/-- A zoned write has moved the write pointer. -/
def zoneTaken (s : State) (c : Cmd) (n : Ns) (lba : Nat) : State :=
  if isWrite c && n.csi == 2 then zoneTake s c.sqe.nsid.toNat (lba / zoneBlocks) c.sqe.nlb else s

/-- The next sequence has been given. -/
def seqGiven (s : State) (c : Cmd) (late : Bool) : State :=
  bump { noteLate s c late with cmd := { (noteLate s c late).cmd with seq := (noteLate s c late).cmd.seq + 1 } } 14 0

/-- Telling the receiving twin of an admitted write. -/
def granted (t : State) (c x : Cmd) : State := if isWrite c && c.ref.peer then grantWrite t x else t

theorem noteLate_frame (s : State) (c : Cmd) (late : Bool) :
    (noteLate s c late).hiu = s.hiu ∧ (noteLate s c late).cmd = s.cmd ∧ (noteLate s c late).spn = s.spn ∧
      (noteLate s c late).out = s.out := by
  unfold noteLate
  split <;> exact ⟨rfl, rfl, rfl, rfl⟩

theorem counter_noteLate (s : State) (c : Cmd) (late : Bool) :
    counter (noteLate s c late) 14 0 = counter s 14 0 ∧ counter (noteLate s c late) 1 1 =
      counter s 1 1 + (if c.classU && late && decide (urgentOut s < 256) && !s.cmd.fetchPaused then 1 else 0) := by
  unfold noteLate
  split <;> simp

theorem zoneAt_zoneTake (s : State) (nsid z nlb : Nat) : (zoneAt (zoneTake s nsid z nlb) nsid z).wp = (zoneAt s nsid z).wp + nlb := by
  simp [zoneAt, zoneTake, setZone]

theorem zoneTaken_frame (s : State) (c : Cmd) (n : Ns) (lba : Nat) :
    (zoneTaken s c n lba).hiu.cmds = s.hiu.cmds ∧ (zoneTaken s c n lba).cmd = s.cmd ∧ (zoneTaken s c n lba).cnt = s.cnt := by
  unfold zoneTaken
  split <;> exact ⟨rfl, rfl, rfl⟩

theorem zoneTaken_wp {s : State} {c : Cmd} {n : Ns} (lba : Nat) (hw : isWrite c = true) (hn : n.csi = 2) :
    (zoneAt (zoneTaken s c n lba) c.sqe.nsid.toNat (lba / zoneBlocks)).wp =
      (zoneAt s c.sqe.nsid.toNat (lba / zoneBlocks)).wp + c.sqe.nlb := by
  rw [zoneTaken, if_pos (by simp [hw, hn])]
  exact zoneAt_zoneTake ..

theorem seqGiven_spec (s : State) (c : Cmd) (late : Bool) : let t := seqGiven s c late
    t.hiu = s.hiu ∧ t.cmd.seq = s.cmd.seq + 1 ∧ counter t 14 0 = counter s 14 0 + 1 ∧ counter t 1 1 =
      counter s 1 1 + (if c.classU && late && decide (urgentOut s < 256) && !s.cmd.fetchPaused then 1 else 0) := by
  obtain ⟨hhiu, hcmd, -, -⟩ := noteLate_frame s c late
  obtain ⟨h140, h11⟩ := counter_noteLate s c late
  refine ⟨hhiu, congrArg (fun m : CmdBlk => m.seq + 1) hcmd, ?_, ?_⟩
  · exact (counter_bump ..).trans ((if_pos rfl).trans (congrArg (· + 1) h140))
  · exact (counter_bump ..).trans ((if_neg (by decide)).trans h11)

theorem giveSeq_eq (s : State) (c : Cmd) (lba : Nat) (late : Bool) :
    giveSeq s c lba late = (setCmd (seqGiven s c late) (placed s c lba), placed s c lba) := by
  have hseq : (noteLate s c late).cmd.seq = s.cmd.seq := congrArg CmdBlk.seq (noteLate_frame s c late).2.1
  have h : giveSeq s c lba late = (setCmd (seqGiven s c late) { c with st := .admitted, seq := (noteLate s c late).cmd.seq, lba := lba },
    { c with st := .admitted, seq := (noteLate s c late).cmd.seq, lba := lba }) := rfl
  rw [h, hseq]
  rfl

/-- The state in which a command here stands admitted. -/
def admitted (s : State) (c : Cmd) (n : Ns) (late : Bool) (lba : Nat) : State :=
  setCmd (seqGiven (zoneTaken s c n lba) c late) (placed s c lba)

/-- Admission here, of a command that is not a flush. -/
theorem admitHere_ok {lba : Nat} (hf : c.sqe.kind ≠ .flush) (hok : admitCheck s c n = .ok lba) :
    admitHere s c n late = if isRead c && blocked (admitted s c n late lba) (placed s c lba) then
        bump (setCmd (admitted s c n late lba) { placed s c lba with st := .waiting }) 14 1
      else granted (admitted s c n late lba) c (placed s c lba) := by
  have hgive : giveSeq (zoneTaken s c n lba) c lba late = (admitted s c n late lba, placed s c lba) := by
    have hp : placed (zoneTaken s c n lba) c lba = placed s c lba := by simp only [placed, (zoneTaken_frame s c n lba).2.1]
    rw [giveSeq_eq, hp]
    rfl
  have hhere : admitHere s c n late =
      let x := giveSeq (zoneTaken s c n lba) c lba late
      let x := if isWrite c && c.ref.peer then (grantWrite x.1 x.2, x.2) else x
      if isRead x.2 && blocked x.1 x.2 then bump (setCmd x.1 { x.2 with st := .waiting }) 14 1
      else if c.sqe.kind = .flush then flushStep (setCmd x.1 { x.2 with barrier := (zoneTaken s c n lba).hiu.flushMedia }) c.ref
      else x.1 := by
    unfold admitHere
    rw [hok]
    rfl
  rw [hhere, hgive]
  dsimp only
  rw [if_neg hf]
  by_cases hw : (isWrite c && c.ref.peer) = true
  · have hr : isRead c = false := by
      simp only [isWrite, isRead, Bool.and_eq_true, Bool.or_eq_true, beq_iff_eq] at hw ⊢
      obtain ⟨h | h, -⟩ := hw <;> simp [h]
    have hr' : isRead (placed s c lba) = false := hr
    simp only [hw, if_pos, hr, hr', granted, Bool.false_and, Bool.false_eq_true, if_false]
  · simp only [granted, if_neg hw]
    rfl

theorem admitHere_error {e : Status} (he : admitCheck s c n = .error e) : admitHere s c n late = complete s c.ref e := by
  unfold admitHere
  rw [he]

theorem isWrite_of_isRead (h : isRead c = true) : isWrite c = false := by
  simp only [isWrite, isRead, Bool.or_eq_true, beq_iff_eq] at h ⊢
  obtain h | h := h <;> simp [h]

/-- Whether a read waits for earlier writes does not depend on its own record. -/
theorem blocked_setCmd_waiting {x : Cmd} (hx : isRead x = true) (s : State) :
    blocked (setCmd (setCmd s x) { x with st := .waiting }) { x with st := .waiting } = blocked (setCmd s x) x := by
  have hnot : openWrite x = false ∧ openWrite { x with st := .waiting } = false := by
    have hw := isWrite_of_isRead hx
    simp only [openWrite, isWrite] at hw ⊢
    simp [hw]
  simp only [blocked, setCmd, List.any_map]
  refine congrArg (List.any s.hiu.cmds) (funext fun d => ?_)
  by_cases hd : d.ref = x.ref <;> simp [hd, hnot]

/-- What an admission here leaves. -/
structure AdmittedAs (s t : State) (c x : Cmd) (n : Ns) (late : Bool) (lba : Nat) : Prop where
  at_ref : cmdAt t c.ref = some x
  seq : x.seq = s.cmd.seq
  next_seq : t.cmd.seq = s.cmd.seq + 1
  lba_eq : x.lba = lba
  sqe : x.sqe = c.sqe
  count : counter t 14 0 = counter s 14 0 + 1
  late_count : counter t 1 1 = counter s 1 1 + (if c.classU && late && decide (urgentOut s < 256) && !s.cmd.fetchPaused then 1 else 0)
  wp : isWrite c = true → n.csi = 2 → (zoneAt t c.sqe.nsid.toNat (lba / zoneBlocks)).wp =
    (zoneAt s c.sqe.nsid.toNat (lba / zoneBlocks)).wp + c.sqe.nlb
  others : ∀ d ∈ s.hiu.cmds, d.ref ≠ c.ref → d ∈ t.hiu.cmds

theorem admittedAs_admitted {lba : Nat} (hc : cmdAt s c.ref = some c) :
    AdmittedAs s (admitted s c n late lba) c (placed s c lba) n late lba := by
  obtain ⟨hhiu, hseq, h140, h11⟩ := seqGiven_spec (zoneTaken s c n lba) c late
  obtain ⟨hcmds, hcmd, hcnt⟩ := zoneTaken_frame s c n lba
  have hcounter (b i : Nat) : counter (zoneTaken s c n lba) b i = counter s b i := by simp only [counter, hcnt]
  have hurgent : urgentOut (zoneTaken s c n lba) = urgentOut s := by simp only [urgentOut, hcmds]
  have hlist : (seqGiven (zoneTaken s c n lba) c late).hiu.cmds = s.hiu.cmds := by rw [hhiu, hcmds]
  rw [hcmd] at hseq h11
  rw [hcounter] at h140 h11
  rw [hurgent] at h11
  refine ⟨?_, rfl, hseq, rfl, rfl, h140, h11, fun hw hn => ?_, fun d hd hne => mem_setCmd_of_other (hlist ▸ hd) hne⟩
  · refine cmdAt_setCmd (c := c) ?_ rfl
    simpa only [cmdAt, hlist] using hc
  · have hzones : (admitted s c n late lba).hiu.zones = (zoneTaken s c n lba).hiu.zones := (congrArg Hiu.zones hhiu :)
    simp only [zoneAt, hzones]
    exact zoneTaken_wp lba hw hn

theorem granted_frame (t : State) (c x : Cmd) :
    (granted t c x).hiu = t.hiu ∧ (granted t c x).cmd = t.cmd ∧ (granted t c x).cnt = t.cnt := by
  unfold granted
  split
  · simp [grantWrite]
  · exact ⟨rfl, rfl, rfl⟩

/-- The waiting read is noted and counted. -/
theorem AdmittedAs.waits {t : State} {x : Cmd} {lba : Nat} (h : AdmittedAs s t c x n late lba) (hx : x.ref = c.ref) :
    AdmittedAs s (bump (setCmd t { x with st := .waiting }) 14 1) c { x with st := .waiting } n late lba where
  at_ref := cmdAt_setCmd (s := t) h.at_ref hx
  seq := h.seq
  next_seq := h.next_seq
  lba_eq := h.lba_eq
  sqe := h.sqe
  count := ((counter_bump ..).trans (if_neg (by decide))).trans h.count
  late_count := ((counter_bump ..).trans (if_neg (by decide))).trans h.late_count
  wp := h.wp
  others := fun d hd hne => mem_setCmd_of_other (h.others d hd hne) (hx ▸ hne)

theorem AdmittedAs.of_frame {t u : State} {x : Cmd} {lba : Nat} (h : AdmittedAs s t c x n late lba) (hhiu : u.hiu = t.hiu)
    (hcmd : u.cmd = t.cmd) (hcnt : u.cnt = t.cnt) : AdmittedAs s u c x n late lba := by
  obtain ⟨h1, h2, h3, h4, h5, h6, h7, h8, h9⟩ := h
  constructor
  all_goals simp only [cmdAt, counter, zoneAt, hhiu, hcmd, hcnt] at *
  all_goals assumption

theorem admitHere_admits {lba : Nat} (hc : cmdAt s c.ref = some c) (hf : c.sqe.kind ≠ .flush) (hok : admitCheck s c n = .ok lba) :
    ∃ x, AdmittedAs s (admitHere s c n late) c x n late lba ∧
      x.st = (if isRead c && blocked (admitHere s c n late) x then .waiting else .admitted) := by
  have hadm := admittedAs_admitted (n := n) (late := late) (lba := lba) hc
  have hsame (hread : isRead c = true) := blocked_setCmd_waiting (x := placed s c lba) hread (seqGiven (zoneTaken s c n lba) c late)
  have hx : (placed s c lba).ref = c.ref := rfl
  have hst : (placed s c lba).st = .admitted := rfl
  rw [admitHere_ok hf hok]
  change ∀ _ : isRead c = true, blocked (setCmd (admitted s c n late lba) _) _ = blocked (admitted s c n late lba) (placed s c lba) at hsame
  generalize admitted s c n late lba = t at hadm hsame ⊢
  generalize placed s c lba = x at hadm hsame hx hst ⊢
  split
  case isTrue h =>
    obtain ⟨hread, hblocked⟩ := Bool.and_eq_true_iff.1 h
    refine ⟨_, hadm.waits hx, ?_⟩
    have hb : blocked (bump (setCmd t { x with st := .waiting }) 14 1) { x with st := .waiting } = true := (hsame hread).trans hblocked
    rw [hb, hread]
    rfl
  case isFalse h =>
    obtain ⟨hhiu, hcmd, hcnt⟩ := granted_frame t c x
    refine ⟨x, hadm.of_frame hhiu hcmd hcnt, ?_⟩
    have hb : blocked (granted t c x) x = blocked t x := by simp only [blocked, hhiu]
    rw [hst, hb, if_neg h]

theorem forward_forwards (hc : cmdAt s c.ref = some c) (hlink : s.spn.link = 2) : ∃ x, cmdAt (forward s c) c.ref = some x ∧
    x.remote = true ∧ x.st = .admitted ∧ (forward s c).cmd = s.cmd ∧ (forward s c).out =
      s.out ++ [{ cls := if c.classU then 1 else 2, msg := .forward { ref := { c.ref with peer := true }, sqe := c.sqe, classU := c.classU } }] := by
  refine ⟨{ c with remote := true, st := .admitted, lba := c.sqe.slba.toNat }, ?_, rfl, rfl, ?_, ?_⟩
  · rw [forward, cmdAt_of_hiu (send_hiu ..)]
    exact cmdAt_setCmd hc rfl
  · simp [forward]
  · have hup (x : Cmd) : (setCmd s x).spn.link = 2 := hlink
    rw [forward, send_out, if_pos (hup _)]
    rfl

theorem admin_admitted (hc : cmdAt s c.ref = some c) : let t := setCmd (noteLate s c late) { c with st := .admitted }
    cmdAt t c.ref = some { c with st := .admitted } ∧ t.cmd = s.cmd ∧ OnlyIn [.hiu, .cnt] s t := by
  obtain ⟨hhiu, hcmd, -, -⟩ := noteLate_frame s c late
  refine ⟨cmdAt_setCmd (c := c) ?_ rfl, hcmd, ?_⟩
  · rw [cmdAt_of_hiu hhiu, hc]
  · exact onlyIn_of_follows (follows_setCmd (by decide) (follows_noteLate (by decide) (follows_refl s)))

end

theorem pathOpcodes {k : IoKind} (h : k ∈ [IoKind.read, .verify, .write, .append, .zoneSend, .zoneRecv]) : k ≠ .admin ∧ k ≠ .flush := by
  simp only [List.mem_cons, List.not_mem_nil, or_false] at h
  obtain rfl | rfl | rfl | rfl | rfl | rfl := h <;> decide

/-- Settles O38. -/
theorem commandsAreFetchedAndAdmitted : Obligations.CommandsAreFetchedAndAdmitted := by
  refine ⟨fun s k q h => fetchable_spec h, fun s c qid q es hq hes => ⟨commandFetch_fetches hq hes, exec_commandFetch_stopped hq⟩,
    fun s r late c n hc hst hk ha hns hn hatt => ?_, fun s r c hc hst hk ha hfirst hns hn => ?_, fun s r late c hc hst hk ha => ?_,
    fun s r c hc hst => ⟨fun hk => ?_, fun hk => ?_, fun hk => ?_, fun hk => ?_, fun hk => ?_⟩⟩
  · obtain ⟨hka, hkf⟩ := pathOpcodes hk
    have hr := cmdAt_ref hc
    subst hr
    rw [exec_commandAdmission late hc]
    refine ⟨fun hfirst => congrArg _ (admitCmd_of_later hst hka ha hfirst), fun hfirst => ?_⟩
    rw [admitCmd_of_path hst hka hkf ha hfirst hns hn hatt]
    refine ⟨fun e ho he => ?_, fun lba ho hok => ?_, fun ho hp hlink => ?_, fun ho => ?_, fun ho hp => ?_⟩
    · rw [if_pos ho, admitHere_error he]
    · rw [if_pos ho]
      obtain ⟨x, hx, hxst⟩ := admitHere_admits (late := late) hc hkf hok
      exact ⟨_, x, rfl, hx.at_ref, hx.seq, hx.next_seq, hx.lba_eq, hx.sqe, hxst, hx.count, hx.late_count, hx.wp, hx.others⟩
    · rw [if_neg (by simp [ho]), if_neg (by simp [ho, hp]), if_pos ⟨ho, hlink⟩]
      obtain ⟨x, hx⟩ := forward_forwards hc hlink
      exact ⟨_, x, rfl, hx⟩
    · rw [if_neg (by simp [ho]), if_pos (.inr ho)]
    · rw [if_neg (by simp [ho]), if_neg (by simp [ho, hp]), if_neg (by simp [ho])]
  · rw [exec_commandAdmission false hc, admitCmd_of_noNamespace hst (by simp [hk]) (by simp [hk]) ha hfirst hns hn, cmdAt_ref hc]
  · have hr := cmdAt_ref hc
    subst hr
    rw [exec_commandAdmission late hc, admitCmd_of_admin hst hk ha]
    exact ⟨_, rfl, admin_admitted hc⟩
  all_goals rw [exec_commandAdmission false hc]
  · change execRead r s = _
    rw [execRead, hc]
    exact (if_pos hk).trans (congrArg _ (if_pos hst))
  · change execVerify r s = _
    rw [execVerify, hc]
    exact (if_pos hk).trans (congrArg _ (if_pos hst))
  · change execWrite r s = _
    rw [execWrite, hc]
    exact (if_pos hk).trans (congrArg _ (if_pos hst))
  · change execZoneAppend r s = _
    rw [execZoneAppend, hc]
    exact (if_pos hk).trans (congrArg _ (if_pos hst))
  · change execFlush r s = _
    rw [execFlush, hc]
    exact (if_neg (by simp [hk])).trans (if_pos hst)

end Sys2Proof.Machine
end

section
/-! PROOFS. R209 to R211, R259, R261, R262, R265: what settling a version keeps. -/

namespace Sys2Proof.Machine

namespace Closing

variable {parts : List Part} {R : State → State → Prop} (hR : Closing parts R)
include hR

theorem closeFull (s : State) (q : Quire) : R s (Machine.closeFull s q) := of_ite (hR.closeQuire ..) (hR.refl s)

theorem waitQuire (s : State) (seq : Nat) : R s (Machine.waitQuire s seq) := hR.qre _ _ rfl rfl

theorem addGranule (s : State) (q : Quire) (seq g : Nat) : R s (Machine.addGranule s q seq g) := hR.trans (hR.setQuire ..) (hR.closeFull ..)

theorem fillZone (seq nsid : Nat) (fuel n lba : Nat) (s : State) : R s (Machine.fillZone s seq nsid lba fuel n) := by
  induction fuel generalizing s lba n with
  | zero => exact hR.refl s
  | succ fuel ih =>
    unfold Machine.fillZone
    split
    case h_1 => exact hR.refl s
    case h_2 => exact hR.refl s
    case h_3 fuel' heq _ =>
      obtain rfl : fuel = fuel' := Nat.succ.inj heq
      split
      · refine hR.trans ?_ (ih _ _ _)
        exact hR.trans (hR.setQuire ..) (hR.closeFull ..)
      · split
        case h_1 t k heq => exact hR.trans (hR.openQuire heq) (ih _ _ _)
        case h_2 => exact hR.waitQuire ..

theorem fillGranules (s : State) (seq nsid : Nat) (gs : List Nat) : R s (Machine.fillGranules s seq nsid gs) := by
  refine hR.foldl (fun s g => ?_) gs s
  split
  · exact of_ite (hR.setQuire ..) (of_ite (hR.waitQuire ..) (hR.addGranule ..))
  · split
    case h_1 t k heq =>
      split
      · exact hR.trans (hR.openQuire heq) (hR.addGranule ..)
      · exact hR.openQuire heq
    case h_2 => exact hR.waitQuire ..

theorem fillVersion (s : State) (v : Version) : R s (Machine.fillVersion s v) := of_ite (hR.fillGranules ..) (hR.fillZone ..)

theorem closeFor (s : State) (seq cause : Nat) : R s (Machine.closeFor s seq cause) :=
  hR.foldl (fun _ _ => of_ite (hR.closeQuire ..) (hR.refl _)) _ s

theorem barrierClose (s : State) (c : Cmd) : R s (Machine.barrierClose s c) :=
  of_ite (hR.foldl (fun _ _ => hR.closeFor ..) _ s) (hR.refl s)

section
variable (hfua : ∀ s n, R s (bumpN s 14 6 n))
include hfua

theorem fuaClose (s : State) (seq : Nat) : R s (Machine.fuaClose s seq) := hR.trans (hfua ..) (hR.closeFor ..)

theorem closeWanted (s : State) : R s (Machine.closeWanted s) :=
  hR.foldl (fun _ _ => of_ite (hR.fuaClose hfua ..) (of_ite (hR.barrierClose ..) (hR.refl _))) _ s

omit hfua in
theorem sendMirror (s : State) (v : Version) (is : List Ingest) : R s (Machine.sendMirror s v is) :=
  hR.trans (hR.send ..) (hR.foldl (fun _ _ => hR.send ..) _ _)

variable (hmem : parts.contains .mem = true)
include hmem

omit hfua in
theorem logVersion (s : State) (v : Version) : R s (Machine.logVersion s v) :=
  hR.writes (follows_logVersion (by simpa using hmem) (follows_refl s))

/-- A version placed into quires, what waits for its seal closed. -/
theorem settleVersion (s : State) (seq : Nat) : R s (Machine.settleVersion s seq) := by
  unfold Machine.settleVersion
  split
  · exact hR.refl s
  · dsimp only
    refine hR.trans ?_ (hR.closeWanted hfua _)
    refine hR.trans ?_ (hR.fillVersion ..)
    exact hR.trans (hR.sendMirror ..) (of_ite (hR.logVersion hmem ..) (hR.refl _))

theorem keepPieces (s : State) (c : Cmd) : R s (Machine.keepPieces s c) := of_ite (hR.settleVersion hfua hmem ..) (hR.refl s)

end

end Closing

/-! ### Packets that wait go on waiting -/

/-- Every packet that waits for the Spine Link still waits. -/
def OutKept (s t : State) : Prop := ∀ p ∈ s.out, p ∈ t.out

theorem outKept_refl (s : State) : OutKept s s := fun _ hp => hp

theorem outKept_trans {s t u : State} (h : OutKept s t) (k : OutKept t u) : OutKept s u := fun p hp => k p (h p hp)

/-- Every part but the packets. -/
def outParts : List Part := [.free, .regs, .splitLatch, .hostRead, .cnt, .tck, .pwr, .bays, .ports, .bfes, .spn, .cells, .units, .bus, .axes, .rdc,
  .wrc, .cal, .qre, .hiu, .cmd, .mem, .kst, .cph, .bdy, .bnd]

theorem outKept_of_eq {s t : State} (h : t.out = s.out) : OutKept s t := fun _ hp => h ▸ hp

theorem outKept_of_follows {s t : State} (h : Follows (fun p => outParts.contains p) s t) : OutKept s t :=
  outKept_of_eq ((onlyIn_of_follows (parts := outParts) h).2 .out (by decide))

theorem outKept_send (s : State) (m : SpineMsg) : OutKept s (send s m) := by
  intro p hp
  rw [send_out]
  exact List.mem_append_left _ hp

theorem outKept_writeEntry (s : State) (c : Comp) : OutKept s (writeEntry s c) :=
  outKept_of_follows (follows_writeEntry (by decide) (follows_refl s))

theorem outKept_emit (s : State) (c : Comp) : OutKept s (emit s c) := by
  unfold emit
  exact of_ite (outKept_send s _) (of_ite (outKept_refl s) (outKept_writeEntry s c))

theorem outKept_finishDelete (s : State) (e : Nat × Sq) : OutKept s (finishDelete s e) := by
  unfold finishDelete
  split
  · exact of_ite (outKept_refl s) (outKept_emit (dropSq s e.1 _) _)
  · exact outKept_refl s

theorem outKept_foldl {α : Type} {f : State → α → State} (h : ∀ s a, OutKept s (f s a)) (l : List α) (s : State) : OutKept s (l.foldl f s) := by
  induction l generalizing s with
  | nil => exact outKept_refl s
  | cons a l ih => exact outKept_trans (h s a) (ih _)

theorem outKept_post (s : State) (c : Comp) : OutKept s (post s c) :=
  outKept_trans (outKept_emit s c) (outKept_foldl outKept_finishDelete _ (dropCmd (emit s c) c.ref))

theorem outKept_deliver (s : State) (n : Nat) : OutKept s (deliver s n) := by
  unfold deliver
  dsimp only
  split
  · exact outKept_post (setCtrl ..) _
  · exact outKept_refl s

theorem outKept_asyncEvent (s : State) (type info lid : Nat) : OutKept s (asyncEvent s type info lid) :=
  outKept_foldl (fun s n => outKept_deliver (setCtrl s n _) n) _ s

theorem closing_outKept : Closing outParts OutKept where
  refl := outKept_refl
  trans := outKept_trans
  writes := outKept_of_follows
  qre _ _ _ _ := outKept_refl _
  count _ _ _ _ _ _ := outKept_refl _
  run s m := outKept_of_follows (follows_endRun (by decide) (follows_refl s))
  surfW s m w := outKept_of_follows (follows_setSurfW (by decide) (follows_refl s))
  send := outKept_send
  vendorEvent s i := outKept_asyncEvent s 7 i 0xC4
  needs := by decide

/-! ### The cipher engine's count of disagreeing passes -/

/-- Counter 5 of the cipher engine's block stands. -/
def FaultsKept (s t : State) : Prop := counter t 11 5 = counter s 11 5

/-- Every part but the counters. -/
def countParts : List Part := [.free, .regs, .splitLatch, .hostRead, .tck, .pwr, .bays, .ports, .bfes, .spn, .out, .cells, .units, .bus, .axes,
  .rdc, .wrc, .cal, .qre, .hiu, .cmd, .mem, .kst, .cph, .bdy, .bnd]

theorem counter_of_follows {s t : State} (h : Follows (fun p => countParts.contains p) s t) (b i : Nat) : counter t b i = counter s b i := by
  have hc : t.cnt = s.cnt := (onlyIn_of_follows (parts := countParts) h).2 .cnt (by decide)
  rw [counter, hc]
  rfl

theorem faultsKept_trans {s t u : State} (h : FaultsKept s t) (k : FaultsKept t u) : FaultsKept s u := Eq.trans k h

theorem faultsKept_of_follows {s t : State} (h : Follows (fun p => countParts.contains p) s t) : FaultsKept s t := counter_of_follows h 11 5

theorem faultsKept_bumpN (s : State) (b i n : Nat) (h : b * 32 + i ≠ 357) : FaultsKept s (bumpN s b i n) :=
  (counter_bumpN ..).trans (if_neg h)

theorem closing_faultsKept : Closing countParts FaultsKept where
  refl _ := rfl
  trans := faultsKept_trans
  writes := faultsKept_of_follows
  qre _ _ _ _ := rfl
  count s b i n hb hi := faultsKept_bumpN s b i n (by omega)
  run s m := faultsKept_of_follows (follows_endRun (by decide) (follows_refl s))
  surfW s m w := faultsKept_of_follows (follows_setSurfW (by decide) (follows_refl s))
  send s m := faultsKept_of_follows (follows_send (by decide) (follows_refl s))
  vendorEvent s i := faultsKept_of_follows (follows_vendorEvent (by decide) (follows_refl s))
  needs := by decide

theorem faultsKept_keepPieces (s : State) (c : Cmd) : FaultsKept s (keepPieces s c) :=
  closing_faultsKept.keepPieces (fun s n => faultsKept_bumpN s 14 6 n (by decide)) (by decide) s c

end Sys2Proof.Machine
end

section
/-! PROOFS. R244, R257 to R262, R267, R325, R331: write data, the cipher engine and the acknowledgement point. -/

namespace Sys2Proof.Machine

/-! ### Write data -/

theorem piFail_eq_none_iff (n : Ns) (c : Cmd) (bs : List BlockIn) :
    piFail n c bs = none ↔ ∀ i b, bs[i]? = some b → piCheck n c i b = none := by
  simp only [piFail, List.findSome?_eq_none_iff]
  constructor
  · intro h i b hb
    obtain ⟨hi, rfl⟩ := List.getElem?_eq_some_iff.1 hb
    refine h (i, bs[i]) (List.mem_iff_getElem.2 ⟨i, by simpa using hi, by simp⟩)
  · rintro h ⟨i, b⟩ hx
    obtain ⟨k, hk, hkx⟩ := List.mem_iff_getElem.1 hx
    simp only [List.getElem_zip, List.getElem_range, Prod.mk.injEq] at hkx
    obtain ⟨rfl, rfl⟩ := hkx
    exact h _ _ (List.getElem?_eq_getElem _)

section
variable {s : State} {r : CmdRef} {c : Cmd} {n : Ns} {bs : List BlockIn}

/-- A write on its twin, its data here whole: dirty space, then the checks, decide. -/
theorem exec_writeDataFetch (hc : cmdAt s r = some c) (hn : nsAt s c.sqe.nsid.toNat = some n) (hw : isWrite c = true)
    (hst : c.st = .admitted) (hp : r.peer = false) (hr : c.remote = false) (hlen : bs.length = c.nlb) (hl : noLanes s = false) :
    exec (.writeDataFetch r bs) s =
      if dirtyLimit s c ≤ dirtyBytes s + 4096 * c.nlb then .next (setCmd s { c with waitFrom := c.waitFrom <|> some (now s) })
      else match piFail n c bs with
        | some e => .next (complete s r e)
        | none => .next (setCmd (takeSeq s c.nlb).1 { c with
            st := .data, waitFrom := none, seqBase := (takeSeq s c.nlb).2, plain := bs.map (·.data)
            pis := ((List.range bs.length).zip bs).map (fun b => storedPi n c b.1 b.2) }) := by
  change execWriteDataFetch r bs s = _
  rw [execWriteDataFetch, hc]
  dsimp only
  rw [hn]
  dsimp only
  rw [if_neg (by simp [hw, hst, hp, hr, hlen]), if_neg (by simp [hl])] <;> rfl

theorem writeDataFetch_fetches (hc : cmdAt s r = some c) (hn : nsAt s c.sqe.nsid.toNat = some n) (hw : isWrite c = true)
    (hst : c.st = .admitted) (hp : r.peer = false) (hr : c.remote = false) (hlen : bs.length = c.nlb) (hl : noLanes s = false) :
    (dirtyLimit s c ≤ dirtyBytes s + 4096 * c.nlb → ∃ t, exec (.writeDataFetch r bs) s = .next t ∧
      cmdAt t r = some { c with waitFrom := some (c.waitFrom.getD (now s)) } ∧ OnlyIn [.hiu] s t) ∧
    (dirtyBytes s + 4096 * c.nlb < dirtyLimit s c →
      (∀ e, piFail n c bs = some e → exec (.writeDataFetch r bs) s = .next (complete s r e)) ∧
      (piFail n c bs = none → ∃ t x, exec (.writeDataFetch r bs) s = .next t ∧ cmdAt t r = some x ∧ x.st = .data ∧ x.seqBase = s.cph.seq ∧
        x.plain = bs.map (·.data) ∧ x.pis.length = c.nlb ∧ x.enc = c.enc ∧ t.cph.seq = s.cph.seq + c.nlb ∧ t.cmd = s.cmd ∧
        OnlyIn [.hiu, .cph] s t)) := by
  rw [exec_writeDataFetch hc hn hw hst hp hr hlen hl]
  have href := cmdAt_ref hc
  refine ⟨fun hd => ?_, fun hd => ⟨fun e he => ?_, fun he => ?_⟩⟩
  · rw [if_pos hd]
    have hwait : (c.waitFrom <|> some (now s)) = some (c.waitFrom.getD (now s)) := by cases c.waitFrom <;> rfl
    rw [hwait]
    exact ⟨_, rfl, cmdAt_setCmd hc href, onlyIn_of_follows (follows_setCmd (by decide) (follows_refl s))⟩
  · rw [if_neg (by omega), he]
  · rw [if_neg (by omega), he]
    refine ⟨_, _, rfl, cmdAt_setCmd (s := (takeSeq s c.nlb).1) hc href, rfl, rfl, rfl, ?_, rfl, rfl, rfl, ?_⟩
    · simp [hlen]
    · exact onlyIn_of_follows (follows_setCmd (by decide) (follows_takeSeq (by decide) (follows_refl s)))

theorem exec_writeDataFetch_of_waiting (hc : cmdAt s r = some c) (hr : c.remote = true) (hp : c.peerDone = false) :
    exec (.writeDataFetch r bs) s = .next s := by
  change execWriteDataFetch r bs s = _
  rw [execWriteDataFetch, hc]
  dsimp only
  split
  · rfl
  · exact if_pos (by simp [hr, hp])

theorem exec_backpressureTimeout {from_ : Nat} (hc : cmdAt s r = some c) (hw : c.waitFrom = some from_) (hst : c.st = .admitted) :
    exec (.backpressureTimeout r) s =
      if regBits s .cmdBpCfg 0 31 16 = 0 ∨ now s < from_ + regBits s .cmdBpCfg 0 31 16 * 250000 then .next s
      else .next (complete (bump s 14 7) r .commandInterrupted) := by
  change execBackpressureTimeout r s = _
  rw [execBackpressureTimeout, hc]
  dsimp only
  rw [hw]
  simp only [hst, ne_eq, not_true_eq_false, false_or]
  rfl

/-! ### The cipher engine -/

/-- A block of a write as its lane leaves it. -/
def blockEnc (s : State) (c : Cmd) (n : Ns) (b : Nat) : EncBlock :=
  encryptBlock s (c.seqBase + b) n.writeSlot s.tck.twinId (aadHost (c.lba + b) (c.pis.getD b [])) (c.plain.getD b [])

/-- A write with a block encrypted. -/
def withBlock (c : Cmd) (b : Nat) (e : EncBlock) : Cmd := { c with enc := ins c.enc b e }

theorem exec_cipherBlockDone_agree {lane : Fin 8} {b : Nat} (hc : cmdAt s r = some c) (hn : nsAt s c.sqe.nsid.toNat = some n)
    (hrun : cipherRuns s = true) (hl : lane.val ∈ lanesInService s) (hw : isWrite c = true) (hst : c.st = .data)
    (he : lane.val ∈ encryptLanes s) (hb : b < c.nlb) (hnew : look c.enc b = none) :
    exec (.cipherBlockDone lane r b true) s = .next (bump (setCmd s (withBlock c b (blockEnc s c n b))) 11 0) := by
  change execCipherBlockDone lane r b true s = _
  rw [execCipherBlockDone, hc]
  dsimp only
  rw [if_neg (by simp [hrun, hl]), if_neg (by simp), hn]
  dsimp only
  rw [if_neg (by simp [hw, hst, he, hb, hnew])]
  rfl

theorem exec_cipherBlockDone_disagree {lane : Fin 8} {b : Nat} (hc : cmdAt s r = some c) (hrun : cipherRuns s = true)
    (hl : lane.val ∈ lanesInService s) : exec (.cipherBlockDone lane r b false) s = .next (retireLane s lane) := by
  change execCipherBlockDone lane r b false s = _
  rw [execCipherBlockDone, hc]
  dsimp only
  rw [if_neg (by simp [hrun, hl])]
  rfl

theorem encrypts {lane : Fin 8} {b : Nat} (hc : cmdAt s r = some c) (hn : nsAt s c.sqe.nsid.toNat = some n)
    (hrun : cipherRuns s = true) (hl : lane.val ∈ lanesInService s) (hw : isWrite c = true) (hst : c.st = .data)
    (he : lane.val ∈ encryptLanes s) (hb : b < c.nlb) (hnew : look c.enc b = none) :
    ∃ t x e, exec (.cipherBlockDone lane r b true) s = .next t ∧ cmdAt t r = some x ∧ look x.enc b = some e ∧
        let iv := ivBytes (c.seqBase + b) n.writeSlot s.tck.twinId
        let key := (slotAt s n.writeSlot).key
        let aad := aadHost (c.lba + b) (c.pis.getD b [])
        e.iv = iv ∧ e.text = Config.gcmText key iv aad (fit 4096 (c.plain.getD b [])) ∧
        e.tag = Config.gcmTag key iv aad (fit 4096 (c.plain.getD b [])) ∧
        (∀ i, i ≠ b → look x.enc i = look c.enc i) ∧ counter t 11 0 = counter s 11 0 + 1 ∧ OnlyIn [.hiu, .cnt] s t := by
  refine ⟨_, withBlock c b (blockEnc s c n b), blockEnc s c n b, exec_cipherBlockDone_agree hc hn hrun hl hw hst he hb hnew,
    cmdAt_setCmd hc ((cmdAt_ref hc : c.ref = r) :), (look_ins ..).trans (if_pos rfl),
    rfl, rfl, rfl, fun i hi => (look_ins ..).trans (if_neg (Ne.symm hi)), (counter_bump ..).trans (if_pos rfl), ?_⟩
  exact onlyIn_of_follows (follows_bump (by decide) (follows_setCmd (by decide) (follows_refl s)))

end

/-- The lane's passes have been counted, the lane is out of service, its buffer wiped. -/
def laneOut (s : State) (lane : Nat) : State :=
  { countEvent (bump s 11 4) 11 5 2 0xFF 0xFF [lane] with
    cph := { s.cph with retired := s.cph.retired ||| BitVec.ofNat 8 (2 ^ lane), buffers := del s.cph.buffers lane } }

theorem retireLane_eq (s : State) (lane : Nat) : retireLane s lane = failForLanes (laneOut s lane) := rfl

theorem failForLanes_cph (s : State) : (failForLanes s).cph = s.cph :=
  (onlyIn_of_follows (parts := [.cnt, .bays, .ports, .out, .rdc, .wrc, .cal, .qre, .hiu, .mem, .bdy])
    (follows_failForLanes (by decide) (follows_refl s))).2 .cph (by decide)

theorem faultsKept_failForLanes (s : State) : FaultsKept s (failForLanes s) := by
  have hR := closing_faultsKept
  refine of_ite (hR.trans (hR.event ..) (hR.foldl (fun s c => ?_) _ _)) (hR.refl s)
  exact hR.trans (faultsKept_keepPieces s c) (faultsKept_of_follows (follows_complete (by decide) (follows_refl _)))

theorem getLsbD_lanes (x : Byte) {lane k : Nat} (hk : k < 8) :
    (x ||| BitVec.ofNat 8 (2 ^ lane)).getLsbD k = (x.getLsbD k || k == lane) := by
  rw [BitVec.getLsbD_or, BitVec.getLsbD_ofNat, Nat.testBit_two_pow]
  have h : (lane = k) = (k = lane) := propext eq_comm
  simp [hk, h, Bool.beq_eq_decide_eq]

theorem noLanes_laneOut {s : State} {lane : Nat} (hl : lane ∈ lanesInService s) (hne : lanesInService s ≠ [lane]) :
    noLanes (laneOut s lane) = false := by
  have hnodup : (lanesInService s).Nodup := List.Nodup.filter _ List.nodup_range
  obtain h | ⟨k, hk, hkne⟩ := (hnodup.ne_singleton_iff lane).1 hne
  · rw [h] at hl
    exact absurd hl List.not_mem_nil
  · have hmem : k ∈ lanesInService (laneOut s lane) := by
      obtain ⟨hk8, hkr⟩ := List.mem_filter.1 hk
      refine List.mem_filter.2 ⟨hk8, ?_⟩
      have hbit : (laneOut s lane).cph.retired.getLsbD k = (s.cph.retired.getLsbD k || k == lane) := getLsbD_lanes _ (List.mem_range.1 hk8)
      rw [hbit]
      simpa [hkne] using hkr
    unfold noLanes
    cases hlist : lanesInService (laneOut s lane) with
    | nil => rw [hlist] at hmem; exact absurd hmem List.not_mem_nil
    | cons => rfl

theorem failForLanes_of_lanes {s : State} (h : noLanes s = false) : failForLanes s = s := if_neg (by simp [h])

theorem laneOut_spec (s : State) (lane : Fin 8) : (laneOut s lane).hiu = s.hiu ∧ look (laneOut s lane).cph.buffers lane.val = none ∧
    (∀ k, k < 8 → (laneOut s lane).cph.retired.getLsbD k = (s.cph.retired.getLsbD k || k == lane.val)) ∧
    counter (laneOut s lane) 11 5 = counter s 11 5 + 1 := by
  have hcph : (laneOut s lane).cph =
      { s.cph with retired := s.cph.retired ||| BitVec.ofNat 8 (2 ^ lane.val), buffers := del s.cph.buffers lane.val } := rfl
  have hhiu : (laneOut s lane).hiu = s.hiu := by simp [laneOut]
  rw [hcph]
  refine ⟨hhiu, (look_del ..).trans (if_pos rfl), fun k hk => getLsbD_lanes _ hk, ?_⟩
  have h : counter (laneOut s lane) 11 5 = counter (countEvent (bump s 11 4) 11 5 2 0xFF 0xFF [lane.val]) 11 5 := rfl
  rw [h, counter_countEvent, if_pos rfl, counter_bump, if_neg (by decide)]

theorem retireLane_spec (s : State) (lane : Fin 8) (hl : lane.val ∈ lanesInService s) : let t := retireLane s lane
    look t.cph.buffers lane.val = none ∧ (∀ k, k < 8 → t.cph.retired.getLsbD k = (s.cph.retired.getLsbD k || k == lane.val)) ∧
      counter t 11 5 = counter s 11 5 + 1 ∧ (lanesInService s ≠ [lane.val] → t.hiu = s.hiu) := by
  rw [retireLane_eq]
  obtain ⟨hhiu, hbuf, hret, hcount⟩ := laneOut_spec s lane
  have hlanes (hne) := failForLanes_of_lanes (noLanes_laneOut hl hne)
  generalize laneOut s lane = u at hhiu hbuf hret hcount hlanes
  dsimp only
  rw [failForLanes_cph, faultsKept_failForLanes]
  exact ⟨hbuf, hret, hcount, fun hne => by rw [hlanes hne, hhiu]⟩

end Sys2Proof.Machine
end

section
/-! PROOFS. R257 to R262: a write commits in pieces and is acknowledged at its point. -/

namespace Sys2Proof.Machine

/-! ### Pieces -/

theorem readyPieces_of_encrypted {c : Cmd} (h : encrypted c = true) : readyPieces c = pieceCount c := by
  have hall : (List.range (pieceCount c)).takeWhile (fun k =>
      (List.range (min 64 (c.nlb - 64 * k))).all (fun i => (look c.enc (64 * k + i)).isSome)) = List.range (pieceCount c) := by
    refine List.takeWhile_eq_self_iff.2 (fun k _ => List.all_eq_true.2 (fun i hi => ?_))
    rw [List.mem_range] at hi
    exact List.all_eq_true.1 h (64 * k + i) (List.mem_range.2 (by omega))
  rw [readyPieces, hall, List.length_range]

theorem exec_writeOrAppend {s : State} {r : CmdRef} {c : Cmd} (hc : cmdAt s r = some c) (hw : isWrite c = true) :
    (if c.sqe.kind = .write then exec (.write r) s else exec (.zoneAppend r) s) = .next (writeStage s c) := by
  split
  case isTrue h =>
    change execWrite r s = _
    rw [execWrite, hc]
    exact if_pos h
  case isFalse h =>
    have ha : c.sqe.kind = .append := by
      simp only [isWrite, Bool.or_eq_true, beq_iff_eq] at hw
      exact hw.resolve_left h
    change execZoneAppend r s = _
    rw [execZoneAppend, hc]
    exact if_pos ha

theorem writeStage_of_data {s : State} {c : Cmd} (hst : c.st = .data) :
    writeStage s c = if c.remote then (if encrypted c then sendForwarded s c else s) else commitWrite s c := by
  unfold writeStage
  rw [if_neg (by simp [hst]), if_neg (by simp [hst])]

/-- The blocks of a write as they travel to its home twin. -/
def packedBlocks (c : Cmd) : List Bytes := (List.range c.nlb).map (fun i => packBlock ((look c.enc i).getD {}) (c.pis.getD i []))

theorem length_packedBlocks (c : Cmd) : (packedBlocks c).length = c.nlb := by simp [packedBlocks]

theorem mem_out_send {s : State} (m : SpineMsg) (h : s.spn.link = 2) : ∃ p ∈ (send s m).out, p.msg = m := by
  refine ⟨{ cls := classOf s m, msg := m }, ?_, rfl⟩
  rw [send_out, if_pos h]
  exact List.mem_append_right _ (List.mem_cons_self ..)

theorem sendForwarded_sends {s : State} {r : CmdRef} {c : Cmd} (hc : cmdAt s r = some c) :
    ∃ x f, cmdAt (sendForwarded s c) r = some x ∧ x.st = .committed ∧ (sendForwarded s c).cmd = s.cmd ∧
      f.ref = { r with peer := true } ∧ f.blocks.length = c.nlb ∧ (s.spn.link = 2 → ∃ p ∈ (sendForwarded s c).out, p.msg = .forward f) := by
  have href := cmdAt_ref hc
  refine ⟨{ c with st := .committed, plain := [], enc := [] },
    { ref := { c.ref with peer := true }, sqe := c.sqe, classU := c.classU, blocks := packedBlocks c }, ?_, rfl, ?_, by rw [href],
    length_packedBlocks c, fun h => mem_out_send (s := setCmd s _) _ h⟩
  · rw [sendForwarded, cmdAt_of_hiu (send_hiu ..)]
    exact cmdAt_setCmd hc href
  · simp [sendForwarded]

/-! ### Commit -/

theorem commitPieces_of_none {s : State} {c : Cmd} (h : readyPieces c ≤ c.pieces) : commitPieces s c = s := if_pos h

/-- The versions held once a write's ready pieces stand. -/
def piecesVersions (s : State) (c : Cmd) : List Version :=
  if c.pieces = 0 then s.cmd.versions ++ [versionOfCmd s c (readyPieces c)]
  else s.cmd.versions.map (fun (w : Version) => if w.own ∧ w.seq = c.seq then versionOfCmd s c (readyPieces c) else w)

/-- The state in which a write's ready pieces stand as a version with their ingest records. -/
def piecesIn (s : State) (c : Cmd) : State :=
  setCmd { s with
      cmd := { s.cmd with versions := piecesVersions s c }
      qre := { s.qre with ingest := s.qre.ingest ++ ingestOf s c c.pieces (readyPieces c) } } { c with pieces := readyPieces c }

theorem commitPieces_of_some {s : State} {c : Cmd} (h : c.pieces < readyPieces c) :
    commitPieces s c = mapBuffered (piecesIn s c) (versionOfCmd s c (readyPieces c)) :=
  if_neg (Nat.not_le.2 h)

theorem mapBuffered_keeps (s : State) (v : Version) : (mapBuffered s v).hiu = s.hiu ∧ (mapBuffered s v).cmd = s.cmd ∧
    (mapBuffered s v).qre = s.qre ∧ (mapBuffered s v).spn = s.spn := by
  obtain ⟨-, hf⟩ := onlyIn_of_follows (parts := [.mem]) (follows_mapBuffered (a1 := v) (by decide) (follows_refl s))
  exact ⟨hf .hiu (by decide), hf .cmd (by decide), hf .qre (by decide), hf .spn (by decide)⟩

theorem commitPieces_commits {s : State} {r : CmdRef} {c : Cmd} (hc : cmdAt s r = some c) (h : c.pieces < readyPieces c) :
    let u := commitPieces s c
    cmdAt u r = some { c with pieces := readyPieces c } ∧
      (c.pieces = 0 → u.cmd.versions = s.cmd.versions ++ [versionOfCmd s c (readyPieces c)]) ∧
      u.qre.ingest = s.qre.ingest ++ ingestOf s c c.pieces (readyPieces c) ∧ u.spn = s.spn := by
  rw [commitPieces_of_some h]
  obtain ⟨hhiu, hcmd, hqre, hspn⟩ := mapBuffered_keeps (piecesIn s c) (versionOfCmd s c (readyPieces c))
  dsimp only
  rw [hqre, hspn, hcmd, cmdAt_of_hiu hhiu]
  refine ⟨?_, fun hz => if_pos hz, rfl, rfl⟩
  have href := cmdAt_ref hc
  exact cmdAt_setCmd (c := c) hc href

theorem commitWrite_of_part {s : State} {c : Cmd} (h : readyPieces c < pieceCount c) : commitWrite s c = commitPieces s c := if_pos h

/-- A write whose last piece has committed. -/
def committedCmd (c : Cmd) : Cmd := { c with st := .committed, plain := [], enc := [], pieces := pieceCount c }

theorem commitWrite_of_whole {s : State} {c : Cmd} (h : readyPieces c = pieceCount c) :
    commitWrite s c = refillNow (releaseVersions (settleVersion (setCmd (commitPieces s c) (committedCmd c)) c.seq)) :=
  if_neg (h ▸ Nat.lt_irrefl _)

theorem settleVersion_frame (s : State) (seq : Nat) : (settleVersion s seq).hiu = s.hiu ∧ (settleVersion s seq).cmd = s.cmd := by
  obtain ⟨-, hf⟩ := onlyIn_of_follows (parts := [.cnt, .bays, .ports, .out, .rdc, .wrc, .cal, .qre, .mem, .bdy])
    (follows_settleVersion (a1 := seq) (by decide) (follows_refl s))
  exact ⟨hf .hiu (by decide), hf .cmd (by decide)⟩

/-- The blocks of a version as they travel to the mirror. -/
def packedVersion (v : Version) : List Bytes := (List.range v.nlb).map (fun i =>
  packBlock { text := v.blocks.getD i [], iv := v.ivs.getD i [], tag := v.tags.getD i 0 } (v.pis.getD i []))

theorem sendMirror_sends {s : State} (v : Version) (is : List Ingest) (h : s.spn.link = 2) :
    ∃ p ∈ (sendMirror s v is).out, p.msg = .mirrorData v.seq (BitVec.ofNat 32 v.nsid) (BitVec.ofNat 64 v.lba) (packedVersion v) := by
  obtain ⟨p, hp, hm⟩ := mem_out_send (.mirrorData v.seq (BitVec.ofNat 32 v.nsid) (BitVec.ofNat 64 v.lba) (packedVersion v)) h
  exact ⟨p, outKept_foldl (fun s i => outKept_send s _) is _ p hp, hm⟩

/-- The version that a settled write leaves goes to the mirror, and nothing after that takes the packet back. -/
theorem settleVersion_sends {s : State} {seq : Nat} {v : Version} (hv : s.cmd.versions.find? (fun v => v.own && v.seq == seq) = some v)
    (h : s.spn.link = 2) : ∃ p ∈ (settleVersion s seq).out,
      p.msg = .mirrorData v.seq (BitVec.ofNat 32 v.nsid) (BitVec.ofNat 64 v.lba) (packedVersion v) := by
  have hR := closing_outKept
  obtain ⟨p, hp, hm⟩ := sendMirror_sends v (s.qre.ingest.filter (fun i => i.twin == v.twin && i.version == v.seq)) h
  refine ⟨p, ?_, hm⟩
  have hkept : OutKept (sendMirror s v (s.qre.ingest.filter (fun i => i.twin == v.twin && i.version == v.seq))) (settleVersion s seq) := by
    unfold settleVersion
    rw [hv]
    refine hR.trans ?_ (hR.closeWanted (fun s n => outKept_refl s) _)
    refine hR.trans ?_ (hR.fillVersion _ v)
    exact of_ite (hR.logVersion (by decide) _ v) (hR.refl _)
  exact hkept p hp

theorem versionOfCmd_whole (s : State) (c : Cmd) : (versionOfCmd s c (pieceCount c)).nlb = c.nlb := by
  have h : (versionOfCmd s c (pieceCount c)).nlb = min c.nlb (64 * pieceCount c) := rfl
  rw [h, pieceCount]
  omega

theorem find_versions_append {vs : List Version} {v : Version} {seq : Nat} (h : ∀ w ∈ vs, w.own = true → w.seq ≠ seq)
    (ho : v.own = true) (hs : v.seq = seq) : (vs ++ [v]).find? (fun v => v.own && v.seq == seq) = some v := by
  rw [List.find?_append, List.find?_eq_none.2, Option.none_or]
  · simp [ho, hs]
  · intro w hw
    simpa using h w hw

theorem commitWrite_commits {s : State} {r : CmdRef} {c : Cmd} (hc : cmdAt s r = some c) (hready : readyPieces c = pieceCount c) :
    ∃ w x, commitWrite s c = refillNow (releaseVersions w) ∧ cmdAt w r = some x ∧
      x.st = .committed ∧ x.plain = [] ∧ (c.pieces = 0 → 0 < c.nlb → (∀ v ∈ s.cmd.versions, v.own = true → v.seq ≠ c.seq) →
        versionOfCmd s c (pieceCount c) ∈ w.cmd.versions ∧ (versionOfCmd s c (pieceCount c)).nlb = c.nlb ∧
        (s.spn.link = 2 → ∃ p ∈ w.out, ∃ bs, bs.length = c.nlb ∧
          p.msg = .mirrorData c.seq (BitVec.ofNat 32 c.sqe.nsid.toNat) (BitVec.ofNat 64 c.lba) bs)) := by
  obtain ⟨hhiu, hcmd⟩ := settleVersion_frame (setCmd (commitPieces s c) (committedCmd c)) c.seq
  refine ⟨_, committedCmd c, commitWrite_of_whole hready, ?_, rfl, rfl, fun hz hn hnew => ?_⟩
  · rw [cmdAt_of_hiu hhiu]
    by_cases h : c.pieces < readyPieces c
    · exact cmdAt_setCmd (commitPieces_commits hc h).1 (cmdAt_ref hc :)
    · rw [commitPieces_of_none (by omega)]
      exact cmdAt_setCmd hc (cmdAt_ref hc :)
  · have hp : c.pieces < readyPieces c := by
      rw [hready, pieceCount]
      omega
    obtain ⟨-, hvs, -, hspn⟩ := commitPieces_commits hc hp
    have hvs := hvs hz
    rw [hready] at hvs
    have hfind : (commitPieces s c).cmd.versions.find? (fun v => v.own && v.seq == c.seq) = some (versionOfCmd s c (pieceCount c)) := by
      rw [hvs]
      exact find_versions_append hnew rfl rfl
    refine ⟨?_, versionOfCmd_whole s c, fun hlink => ?_⟩
    · rw [hcmd]
      exact List.mem_of_find?_eq_some hfind
    · obtain ⟨p, hp, hm⟩ := settleVersion_sends (s := setCmd (commitPieces s c) (committedCmd c)) hfind (hspn ▸ hlink)
      refine ⟨p, hp, packedVersion (versionOfCmd s c (pieceCount c)), ?_, hm⟩
      rw [packedVersion, List.length_map, List.length_range, versionOfCmd_whole]

/-! ### The acknowledgement point -/

theorem ackReached_of_version {s : State} {c : Cmd} {v : Version} (h : s.cmd.versions.find? (fun v => v.own && v.seq == c.seq) = some v) :
    (c.sqe.fua = true ∨ s.cmd.prot = 2 → ackReached s c = versionSealed s v.twin v.seq) ∧
    (c.sqe.fua = false → s.cmd.prot = 1 → ackReached s c = v.vaulted) ∧
    (c.sqe.fua = false → s.cmd.prot = 0 → ackReached s c = v.mirrored) := by
  unfold ackReached
  rw [h]
  refine ⟨fun hs => if_pos (by simpa using hs), fun hf hp => ?_, fun hf hp => ?_⟩
  · exact (if_neg (by simp [hf, hp])).trans (if_pos hp)
  · exact (if_neg (by simp [hf, hp])).trans (if_neg (by simp [hp]))

/-- The state with a write's version marked acknowledged. -/
def ackedVersions (s : State) (c : Cmd) : State :=
  { s with cmd := { s.cmd with versions := s.cmd.versions.map (fun (v : Version) =>
    if v.own ∧ v.seq = c.seq then { v with acked := true } else v) } }

theorem ackedVersions_versions (s : State) (c : Cmd) : (ackedVersions s c).cmd.versions =
    s.cmd.versions.map (fun v => { v with acked := v.acked || (v.own && v.seq == c.seq) }) := by
  refine List.map_congr_left (fun v _ => ?_)
  by_cases h : v.own = true ∧ v.seq = c.seq
  · simp [h]
  · have hb : (v.own && v.seq == c.seq) = false := by simpa using h
    rw [if_neg h, hb, Bool.or_false]

theorem exec_writeAckPoint {s : State} {r : CmdRef} {c : Cmd} (hc : cmdAt s r = some c) : exec (.writeAckPoint r) s =
    if c.st ≠ .committed ∨ c.remote ∨ !ackReached s c then .next s
    else .next (releaseVersions (complete (ackedVersions s c) r .success (if c.sqe.kind = .append then BitVec.ofNat 64 c.lba else 0))) := by
  change execWriteAckPoint r s = _
  rw [execWriteAckPoint, hc]
  rfl

/-- Settles O39. -/
theorem writesAreCheckedEncryptedAndAcknowledged : Obligations.WritesAreCheckedEncryptedAndAcknowledged := by
  refine ⟨fun s r c n bs hc hn hw hst hp hr hlen hl => ?_, fun s r c bs hc hr hp => exec_writeDataFetch_of_waiting hc hr hp,
    fun s r c from_ hc hw hst => ?_, fun s lane r c n b hc hn hrun hl => ⟨encrypts hc hn hrun hl, ?_⟩, fun s r c hc hst hw => ?_,
    fun s c v h => ackReached_of_version h, fun s r c hc => ?_⟩
  · obtain ⟨hwait, hgo⟩ := writeDataFetch_fetches (bs := bs) hc hn hw hst hp hr hlen hl
    exact ⟨hwait, hgo, piFail_eq_none_iff n c bs⟩
  · dsimp only
    rw [exec_backpressureTimeout hc hw hst]
    exact ⟨fun hl ht => if_neg (by omega), fun h => if_pos h⟩
  · exact ⟨_, exec_cipherBlockDone_disagree hc hrun hl, retireLane_spec s lane hl⟩
  · dsimp only
    rw [exec_writeOrAppend hc hw, writeStage_of_data hst]
    refine ⟨fun hr he => ?_, fun hr he => ?_, readyPieces_of_encrypted, fun hr hn hpart => ?_, fun hr hp => ?_, fun hr hready => ?_⟩
    · rw [if_pos hr, if_neg (by simp [he])]
    · rw [if_pos hr, if_pos he]
      obtain ⟨x, f, h⟩ := sendForwarded_sends hc
      exact ⟨_, x, f, rfl, h⟩
    · rw [if_neg (by simp [hr]), commitWrite_of_part hpart, commitPieces_of_none hn]
    · obtain ⟨hx, hv, hi, -⟩ := commitPieces_commits hc hp
      refine ⟨_, _, hx, rfl, hv, hi, fun hpart => ?_⟩
      rw [if_neg (by simp [hr]), commitWrite_of_part hpart]
    · rw [if_neg (by simp [hr])]
      obtain ⟨w, x, hw, h⟩ := commitWrite_commits hc hready
      exact ⟨w, x, congrArg _ hw, h⟩
  · rw [exec_writeAckPoint hc]
    refine ⟨fun hst hr ha => ?_, fun h => ?_⟩
    · rw [if_neg (by simp [hst, hr, ha])]
      exact ⟨ackedVersions s c, rfl, rfl, ackedVersions_versions s c, onlyIn_of_follows (upd_cmd (by decide) (follows_refl s))⟩
    · exact if_pos (by simpa using h)

end Sys2Proof.Machine
end

section
/-! PROOFS. R19, R245, R255 to R258, R262, R264, R328, R329: reads, decryption and flushes. -/

namespace Sys2Proof.Machine

/-! ### The newest version below a sequence -/

/-- The newer of two versions, the first of equals. -/
def newerVersion (b : Option Version) (v : Version) : Option Version :=
  match b with
  | some w => if w.seq < v.seq then some v else b
  | none => some v

theorem foldl_newerVersion {vs : List Version} {b : Option Version} {v : Version} (h : vs.foldl newerVersion b = some v) :
    (v ∈ vs ∨ b = some v) ∧ (∀ w ∈ vs, w.seq ≤ v.seq) ∧ ∀ w, b = some w → w.seq ≤ v.seq := by
  induction vs generalizing b with
  | nil =>
    obtain rfl : b = some v := h
    exact ⟨.inr rfl, by simp, fun w hw => by rw [Option.some.inj hw]⟩
  | cons x vs ih =>
    obtain ⟨hmem, hmax, hb⟩ := ih h
    have hx : (newerVersion b x = some x ∨ newerVersion b x = b) ∧ ∃ y, newerVersion b x = some y ∧ x.seq ≤ y.seq ∧
        ∀ w, b = some w → w.seq ≤ y.seq := by
      cases b with
      | none => exact ⟨.inl rfl, x, rfl, le_refl _, by simp⟩
      | some w =>
        by_cases hlt : w.seq < x.seq
        · refine ⟨.inl (if_pos hlt), x, if_pos hlt, le_refl _, fun y hy => ?_⟩
          rw [← Option.some.inj hy]
          exact hlt.le
        · refine ⟨.inr (if_neg hlt), w, if_neg hlt, by omega, fun y hy => ?_⟩
          rw [← Option.some.inj hy]
    obtain ⟨hwhich, y, hy, hxy, hby⟩ := hx
    have hyv := hb y hy
    refine ⟨?_, fun w hw => ?_, fun w hw => (hby w hw).trans hyv⟩
    · obtain hmem | hmem := hmem
      · exact .inl (List.mem_cons_of_mem _ hmem)
      · obtain hn | hn := hwhich
        · exact .inl (Option.some.inj (hn.symm.trans hmem) ▸ List.mem_cons_self ..)
        · exact .inr (hn.symm.trans hmem)
    · obtain rfl | hw := List.mem_cons.1 hw
      · exact hxy.trans hyv
      · exact hmax w hw

theorem versionBelow_spec {s : State} {seq nsid lba : Nat} {v : Version} (h : versionBelow s seq nsid lba = some v) :
    v ∈ s.cmd.versions ∧ v.own = true ∧ v.seq < seq ∧ v.nsid = nsid ∧ v.lba ≤ lba ∧ lba < v.lba + v.nlb ∧
    ∀ w ∈ s.cmd.versions, w.own = true → w.seq < seq → w.nsid = nsid → w.lba ≤ lba → lba < w.lba + w.nlb → w.seq ≤ v.seq := by
  obtain ⟨hmem, hmax, -⟩ := foldl_newerVersion (show List.foldl newerVersion none _ = some v from h)
  obtain ⟨hv, hp⟩ := List.mem_filter.1 (hmem.resolve_right (by simp))
  simp only [Bool.and_eq_true, decide_eq_true_eq, beq_iff_eq] at hp
  obtain ⟨⟨⟨⟨ho, hs⟩, hn⟩, hl⟩, hu⟩ := hp
  refine ⟨hv, ho, hs, hn, hl, hu, fun w hw h1 h2 h3 h4 h5 => hmax w (List.mem_filter.2 ⟨hw, ?_⟩)⟩
  simp [h1, h2, h3, h4, h5]

/-! ### Sources -/

theorem exec_readOrVerify {s : State} {r : CmdRef} {c : Cmd} (hc : cmdAt s r = some c) (hread : isRead c = true) :
    (if c.sqe.kind = .read then exec (.read r) s else exec (.verify r) s) = .next (readStage s c) := by
  split
  case isTrue h =>
    change execRead r s = _
    rw [execRead, hc]
    exact if_pos h
  case isFalse h =>
    have hv : c.sqe.kind = .verify := by
      simp only [isRead, Bool.or_eq_true, beq_iff_eq] at hread
      exact hread.resolve_left h
    change execVerify r s = _
    rw [execVerify, hc]
    exact if_pos hv

theorem readStage_of_turn {s : State} {c : Cmd} (hst : c.st = .admitted ∨ c.st = .waiting) (hr : c.remote = false) (hl : noLanes s = false) :
    readStage s c = if blocked s c then setCmd s { c with st := .waiting }
      else if c.sqe.fua ∧ !(unsealedFor s c).isEmpty then
        (unsealedFor s c).foldl (fun s v => fuaClose s v.seq) (setCmd s { c with st := .waiting })
      else beginRead s c := by
  unfold readStage
  rw [if_neg (by obtain h | h := hst <;> simp [h]), if_neg (by obtain h | h := hst <;> simp [h, hr]), if_neg (by simp [hl])]

/-- The sources of a read's blocks. -/
def readSources (s : State) (c : Cmd) : List Nat := (List.range c.nlb).map (sourceOf s c)

/-- The map's lines have been looked up and the read has been counted. -/
def readCounted (s : State) (c : Cmd) : State :=
  let nb := ((readSources s c).filter (· = 0)).length
  let s := if c.sqe.nsid = 1 then (granulesOf c.lba c.nlb).foldl (fun s g => cacheTouch s (mapAddr g / 64 * 64)) s else s
  if nb = c.nlb then bump s 14 2 else if nb = 0 then s else bump s 14 3

/-- The blocks of a read that were never written, at hand. -/
def unwrittenBlocks (s : State) (c : Cmd) (src : List Nat) : Tbl Bytes :=
  ((List.range c.nlb).zip src).foldl (fun t e => if e.2 = 2 then ins t e.1 (unwritten s c e.1) else t) []

/-- A read in service with its sources. -/
def inService (s : State) (c : Cmd) (src : List Nat) : Cmd :=
  { c with st := .media, sources := (List.range c.nlb).zip src, got := unwrittenBlocks s c src }

theorem beginRead_eq (s : State) (c : Cmd) : beginRead s c =
    match (readSources s c).findIdx? (· = 3) with
    | some k => failRead (event (readCounted s c) 0 14 2 0xFF 0xFF [c.sqe.nsid.toNat, c.lba + k]) c 0 .unrecoveredRead
    | none => finishRead (drawn (readCounted s c)) (inService (readCounted s c) c (readSources s c)) := rfl

theorem readCounted_keeps (s : State) (c : Cmd) : (readCounted s c).hiu = s.hiu ∧ (readCounted s c).cmd = s.cmd := by
  have h : OnlyIn [.cnt, .mem] s (readCounted s c) := by
    refine onlyIn_of_follows ?_
    unfold readCounted
    extract_lets nb u
    have hu : Follows (fun p => ([.cnt, .mem] : List Part).contains p) s u := by
      unfold u
      exact follows_ite (follows_foldl (follows_refl s) (fun u g hu => follows_cacheTouch (by decide) hu)) (follows_refl s)
    clear_value u
    exact follows_ite (follows_bump (by decide) hu) (follows_ite hu (follows_bump (by decide) hu))
  exact ⟨h.2 .hiu (by decide), h.2 .cmd (by decide)⟩

theorem zip_readSources (s : State) (c : Cmd) :
    (List.range c.nlb).zip (readSources s c) = (List.range c.nlb).map (fun i => (i, sourceOf s c i)) := by
  simpa [readSources] using List.zip_map' (f := fun i => i) (g := sourceOf s c) (l := List.range c.nlb)

theorem look_map_pair {α : Type} (f : Nat → α) {l : List Nat} {i : Nat} (h : i ∈ l) : look (l.map (fun i => (i, f i))) i = some (f i) := by
  induction l with
  | nil => exact absurd h List.not_mem_nil
  | cons j l ih =>
    by_cases hj : j = i
    · simp [look, hj]
    · have hi : i ∈ l := (List.mem_cons.1 h).resolve_left (Ne.symm hj)
      simpa [look, hj] using ih hi

theorem look_foldl_ins_if {α : Type} (p : Nat → Prop) [DecidablePred p] (g : Nat → α) (l : List Nat) (t : Tbl α) (i : Nat) :
    look (l.foldl (fun t i => if p i then ins t i (g i) else t) t) i = if i ∈ l ∧ p i then some (g i) else look t i := by
  induction l generalizing t with
  | nil => simp
  | cons j l ih =>
    rw [List.foldl_cons, ih]
    by_cases hp : p i
    · by_cases hl : i ∈ l
      · simp [hp, hl]
      · by_cases hj : i = j
        · subst hj
          simp [hp, hl]
        · by_cases hpj : p j <;> simp [hp, hl, hj, hpj, Ne.symm hj]
    · by_cases hpj : p j
      · have hj : j ≠ i := fun h => hp (h ▸ hpj)
        simp [hp, hpj, hj]
      · simp [hp, hpj]

theorem look_unwrittenBlocks {s u : State} {c : Cmd} {i : Nat} (hi : i < c.nlb) :
    look (unwrittenBlocks u c (readSources s c)) i = if sourceOf s c i = 2 then some (unwritten u c i) else none := by
  have h : unwrittenBlocks u c (readSources s c) =
      (List.range c.nlb).foldl (fun t i => if sourceOf s c i = 2 then ins t i (unwritten u c i) else t) [] := by
    rw [unwrittenBlocks, zip_readSources, List.foldl_map]
  rw [h, look_foldl_ins_if]
  by_cases h2 : sourceOf s c i = 2 <;> simp [h2, hi, look]

theorem length_unwritten {s u : State} {c : Cmd} {n : Ns} (i : Nat) (hu : u.hiu = s.hiu) (hn : nsAt s c.sqe.nsid.toNat = some n) :
    (unwritten u c i).length = 4096 + lbafMeta n.lbaf := by
  have hn' : nsAt u c.sqe.nsid.toNat = some n := by simpa only [nsAt, hu] using hn
  unfold unwritten
  dsimp only
  rw [hn', Option.map_some, Option.getD_some]
  split
  · simp [zeros]
  · simp only [fit, List.length_take, List.length_append, List.length_replicate]
    omega

/-! ### The ends of a read -/

theorem finishRead_of_all {s : State} {c : Cmd} (h : ∀ i, i < c.nlb → (look c.got i).isSome = true) :
    finishRead s c = releaseVersions (complete s c.ref .success 0 (dataUpTo c c.nlb)) :=
  if_pos (List.all_eq_true.2 (fun i hi => h i (List.mem_range.1 hi)))

theorem finishRead_of_missing {s : State} {c : Cmd} {i : Nat} (hi : i < c.nlb) (h : look c.got i = none) : finishRead s c = setCmd s c := by
  refine if_neg (fun hall => ?_)
  have := List.all_eq_true.1 hall i (List.mem_range.2 hi)
  simp [h] at this

section
variable {s : State} {r : CmdRef} {c : Cmd}

theorem beginRead_lost (hc : cmdAt s r = some c) {i : Nat} (hi : i < c.nlb) (h : sourceOf s c i = 3) :
    ∃ u, beginRead s c = releaseVersions (complete u r .unrecoveredRead) ∧ u.cmd = s.cmd ∧ u.hiu = s.hiu := by
  obtain ⟨hhiu, hcmd⟩ := readCounted_keeps s c
  have hdata : dataUpTo c 0 = [] := by simp [dataUpTo]
  cases hf : (readSources s c).findIdx? (· = 3) with
  | none =>
    rw [List.findIdx?_eq_none_iff] at hf
    have := hf (sourceOf s c i) (List.mem_map.2 ⟨i, List.mem_range.2 hi, rfl⟩)
    simp [h] at this
  | some k =>
    refine ⟨event (readCounted s c) 0 14 2 0xFF 0xFF [c.sqe.nsid.toNat, c.lba + k], ?_, by rw [event_cmd, hcmd], by rw [event_hiu, hhiu]⟩
    rw [beginRead_eq, hf]
    dsimp only
    rw [failRead, hdata, cmdAt_ref hc]

theorem beginRead_none_lost (h : ∀ i, i < c.nlb → sourceOf s c i ≠ 3) :
    beginRead s c = finishRead (drawn (readCounted s c)) (inService (readCounted s c) c (readSources s c)) := by
  have hf : (readSources s c).findIdx? (· = 3) = none := by
    rw [List.findIdx?_eq_none_iff]
    intro x hx
    obtain ⟨i, hi, rfl⟩ := List.mem_map.1 hx
    simpa using h i (List.mem_range.1 hi)
  rw [beginRead_eq, hf]

theorem inService_spec (s u : State) (c : Cmd) : let x := inService u c (readSources s c)
    ∀ i, i < c.nlb → look x.sources i = some (sourceOf s c i) ∧
      look x.got i = if sourceOf s c i = 2 then some (unwritten u c i) else none := by
  refine fun i hi => ⟨?_, look_unwrittenBlocks hi⟩
  have hs : (inService u c (readSources s c)).sources = (List.range c.nlb).zip (readSources s c) := rfl
  rw [hs, zip_readSources, look_map_pair _ (List.mem_range.2 hi)]

theorem beginRead_serves (hc : cmdAt s r = some c) (h3 : ∀ i, i < c.nlb → sourceOf s c i ≠ 3) (h2 : ∃ i, i < c.nlb ∧ sourceOf s c i ≠ 2) :
    ∃ x, cmdAt (beginRead s c) r = some x ∧ x.st = .media ∧
      (∀ i, i < c.nlb → look x.sources i = some (sourceOf s c i) ∧ ((look x.got i).isSome = true ↔ sourceOf s c i = 2)) ∧
      (beginRead s c).cmd = s.cmd ∧ (beginRead s c).hiu.comps = s.hiu.comps := by
  obtain ⟨hhiu, hcmd⟩ := readCounted_keeps s c
  obtain ⟨i, hi, hi2⟩ := h2
  have href := cmdAt_ref hc
  have hx := inService_spec s (readCounted s c) c
  have hbegin := beginRead_none_lost h3
  have hst : (inService (readCounted s c) c (readSources s c)).st = .media := rfl
  have hxref : (inService (readCounted s c) c (readSources s c)).ref = r := href
  have hlb : (inService (readCounted s c) c (readSources s c)).nlb = c.nlb := rfl
  generalize inService (readCounted s c) c (readSources s c) = x at hx hbegin hst hxref hlb
  rw [finishRead_of_missing (i := i) (hlb ▸ hi) ((hx i hi).2.trans (if_neg hi2))] at hbegin
  rw [hbegin]
  refine ⟨x, cmdAt_setCmd (c := c) ?_ hxref, hst, fun k hk => ⟨(hx k hk).1, ?_⟩, hcmd, (congrArg Hiu.comps hhiu :)⟩
  · have hd : (drawn (readCounted s c)).hiu = s.hiu := hhiu
    rw [cmdAt_of_hiu hd, hc]
  · rw [(hx k hk).2]
    by_cases h : sourceOf s c k = 2 <;> simp [h]

theorem length_flatMap_const {α : Type} {f : α → Bytes} {m : Nat} (l : List α) (h : ∀ i ∈ l, (f i).length = m) :
    (l.flatMap f).length = m * l.length := by
  rw [List.length_flatMap, List.map_congr_left h, List.map_const', List.sum_replicate, smul_eq_mul, mul_comm]

theorem length_dataUpTo {m k : Nat} (h : ∀ i, i < k → ∃ d, look c.got i = some d ∧ d.length = m) :
    (dataUpTo c k).length = if c.sqe.kind = .verify then 0 else m * k := by
  unfold dataUpTo
  split
  · rfl
  · refine (length_flatMap_const _ (fun i hi => ?_)).trans (by rw [List.length_range])
    obtain ⟨d, hd, hl⟩ := h i (List.mem_range.1 hi)
    rw [hd]
    exact hl

theorem beginRead_unwritten (hc : cmdAt s r = some c) (h : ∀ i, i < c.nlb → sourceOf s c i = 2) :
    ∃ u data, beginRead s c = releaseVersions (complete u r .success 0 data) ∧ u.cmd = s.cmd ∧
      ∀ n, nsAt s c.sqe.nsid.toNat = some n → data.length = (if c.sqe.kind = .verify then 0 else (4096 + lbafMeta n.lbaf) * c.nlb) := by
  obtain ⟨hhiu, hcmd⟩ := readCounted_keeps s c
  have href := cmdAt_ref hc
  have hx (i : Nat) (hi : i < c.nlb) := ((inService_spec s (readCounted s c) c) i hi).2.trans (if_pos (h i hi))
  have hbegin := beginRead_none_lost (c := c) (s := s) (fun i hi => by rw [h i hi]; decide)
  have hkind : (inService (readCounted s c) c (readSources s c)).sqe = c.sqe := rfl
  have hxref : (inService (readCounted s c) c (readSources s c)).ref = r := href
  have hlb : (inService (readCounted s c) c (readSources s c)).nlb = c.nlb := rfl
  generalize inService (readCounted s c) c (readSources s c) = x at hx hbegin hkind hxref hlb
  rw [finishRead_of_all (fun i hi => by rw [hx i (hlb ▸ hi)]; rfl), hxref] at hbegin
  refine ⟨_, _, hbegin, hcmd, fun n hn => ?_⟩
  rw [length_dataUpTo (fun i hi => ⟨_, hx i (hlb ▸ hi), length_unwritten i hhiu hn⟩), hkind, hlb]

/-! ### Decryption -/

theorem not_eq_true_of_false {b : Bool} (h : b = false) : (!b) = true := by rw [h]; rfl

theorem not_not_of_true {b : Bool} (h : b = true) : ¬ (!b) = true := by rw [h]; decide

/-- A decrypted block's slot is in force for the read's namespace. -/
def slotBound (s : State) (c : Cmd) (b : FolioBlock) : Bool :=
  (slotAt s (ivSlot b.iv)).st == 2 && (slotAt s (ivSlot b.iv)).nsid == c.sqe.nsid.toNat

/-- The words of the log entry on a failing check. -/
def checkDetail (s : State) (c : Cmd) (b : FolioBlock) (i : Nat) : List Nat :=
  [ivSlot b.iv, c.lba + i, if slotBound s c b then 0 else 1]

/-- A decryption has been counted. -/
def decryptCounted (s : State) (c : Cmd) : State := bump s 11 (if c.sqe.kind = .read then 1 else 2)

section
variable {n : Ns} {b : FolioBlock} {i : Nat} {tagOk refOk final : Bool} {chk : BitVec 3}

theorem decryptOutcome_final (hbad : (tagOk && slotBound s c b) = false) (hf : final = true ∨ i ∈ c.recheck) :
    decryptOutcome s c n b i tagOk refOk chk final =
      failRead (event (bump (decryptCounted s c) 11 3) 0x103 11 2 0xFF 0xFF (checkDetail s c b i)) c i .unrecoveredRead := by
  unfold decryptOutcome
  exact (if_pos (not_eq_true_of_false hbad)).trans (if_pos (by simpa using hf))

theorem decryptOutcome_again (hbad : (tagOk && slotBound s c b) = false) (hf : final = false) (hi : i ∉ c.recheck)
    (hcopy : ((look c.sources i).getD 2 == 0) = false ∨ copyStands s c i = true) :
    decryptOutcome s c n b i tagOk refOk chk final = secondTry (bump (decryptCounted s c) 11 3) c i := by
  unfold decryptOutcome
  refine (if_pos (not_eq_true_of_false hbad)).trans ((if_neg (by simp [hf, hi])).trans (if_pos ?_))
  obtain h | h := hcopy
  · simp at h
    simp [h]
  · exact Bool.or_eq_true_iff.2 (.inr h)

/-- The block is noted as lost. -/
def lostNoted (s : State) (c : Cmd) (i : Nat) : State := { s with cmd := { s.cmd with lost := s.cmd.lost ++ [(c.sqe.nsid.toNat, c.lba + i)] } }

theorem decryptOutcome_lost (hbad : (tagOk && slotBound s c b) = false) (hf : final = false) (hi : i ∉ c.recheck)
    (hbuf : ((look c.sources i).getD 2 == 0) = true) (hcopy : copyStands s c i = false) :
    decryptOutcome s c n b i tagOk refOk chk final =
      failRead (event (lostNoted (bump (decryptCounted s c) 11 3) c i) 0x103 11 2 0xFF 0xFF (checkDetail s c b i)) c i .unrecoveredRead := by
  unfold decryptOutcome
  refine (if_pos (not_eq_true_of_false hbad)).trans ((if_neg (by simp [hf, hi])).trans (if_neg ?_))
  simp only [Bool.or_eq_true, not_or]
  refine ⟨by simpa using hbuf, ?_⟩
  have hc : copyStands (bump (decryptCounted s c) 11 3) c i = copyStands s c i := rfl
  exact fun h => Bool.false_ne_true (hcopy.symm.trans (hc.symm.trans h))

theorem decryptOutcome_reference (hgood : (tagOk && slotBound s c b) = true) (hp : n.piType = 1) (hr : refOk = false) :
    decryptOutcome s c n b i tagOk refOk chk final =
      failRead (event (decryptCounted s c) 0 11 2 0xFF 0xFF [ivSlot b.iv, c.lba + i, 2]) c i .unrecoveredRead := by
  unfold decryptOutcome
  exact (if_neg (not_not_of_true hgood)).trans (if_pos (by simp [hp, hr]))

theorem decryptOutcome_host {e : Status} (hgood : (tagOk && slotBound s c b) = true) (hp : n.piType ≠ 1 ∨ refOk = true)
    (he : hostCheck n c chk = some e) : decryptOutcome s c n b i tagOk refOk chk final = failRead (decryptCounted s c) c i e := by
  unfold decryptOutcome
  refine (if_neg (not_not_of_true hgood)).trans ((if_neg (by obtain h | h := hp <;> simp [h])).trans ?_)
  rw [he]
  rfl

/-- The plaintext of a read's block. -/
def plainOf (s : State) (c : Cmd) (b : FolioBlock) (i : Nat) : Bytes :=
  (Config.gcmOpen (slotAt s (ivSlot b.iv)).key b.iv (aadHost (c.lba + i) b.pi) b.text (BitVec.ofNat 128 (leNat b.tag))).getD []

/-- A read with one more block delivered. -/
def delivered (c : Cmd) (i : Nat) (data : Bytes) : Cmd := { c with got := ins c.got i data }

theorem decryptOutcome_good (hgood : (tagOk && slotBound s c b) = true) (hp : n.piType ≠ 1 ∨ refOk = true)
    (he : hostCheck n c chk = none) : decryptOutcome s c n b i tagOk refOk chk final =
      finishRead (decryptCounted s c) (delivered c i (plainOf s c b i ++ fit (lbafMeta n.lbaf) b.pi)) := by
  unfold decryptOutcome
  refine (if_neg (not_not_of_true hgood)).trans ((if_neg (by obtain h | h := hp <;> simp [h])).trans ?_)
  rw [he]
  rfl

theorem secondTry_again (hc : cmdAt s r = some c) : ∃ x, cmdAt (secondTry s c i) r = some x ∧ x.recheck = c.recheck ++ [i] ∧
    x.got = c.got ∧ (secondTry s c i).hiu.comps = s.hiu.comps := by
  have hhiu : (secondTry s c i).hiu = (setCmd s { c with recheck := c.recheck ++ [i] }).hiu := by
    unfold secondTry
    dsimp only
    split
    · split
      · exact send_hiu ..
      · rfl
    · split
      · split <;> rfl
      · rfl
  refine ⟨{ c with recheck := c.recheck ++ [i] }, ?_, rfl, rfl, (congrArg Hiu.comps hhiu :)⟩
  rw [cmdAt_of_hiu hhiu]
  exact cmdAt_setCmd hc (cmdAt_ref hc :)

end

end

theorem exec_blockDecryptDone {s : State} {lane : Fin 8} {r : CmdRef} {i : Nat} {slot : Fin 2048} {tagOk refOk buf final : Bool} {chk : BitVec 3}
    {c : Cmd} {n : Ns} {b : FolioBlock} (hc : cmdAt s r = some c) (hn : nsAt s c.sqe.nsid.toNat = some n) (hb : readBlock s c i = some b)
    (hrun : cipherRuns s = true) (hl : lane.val ∈ lanesInService s) (hread : isRead c = true) (hst : c.st = .media) (hi : i < c.nlb)
    (hnew : look c.got i = none) (hslot : ivSlot b.iv = slot.val) (hbuf : buf = ((look c.sources i).getD 2 == 0)) :
    exec (.blockDecryptDone lane r i slot tagOk refOk chk buf final) s = .next (decryptOutcome s c n b i tagOk refOk chk final) := by
  change execBlockDecryptDone lane r i slot tagOk refOk chk buf final s = _
  rw [execBlockDecryptDone, hc]
  dsimp only
  rw [hn, hb]
  exact if_neg (by simp [hrun, hl, hread, hst, hi, hnew, hslot, hbuf])

theorem decryptCounted_hiu (s : State) (c : Cmd) : (decryptCounted s c).hiu = s.hiu := rfl

theorem counter_decryptCounted (s : State) (c : Cmd) : counter (bump (decryptCounted s c) 11 3) 11 3 = counter s 11 3 + 1 := by
  rw [counter_bump, if_pos rfl, decryptCounted, counter_bump, if_neg (by split <;> decide)]

/-! ### Flushes -/

theorem barrierClose_hiu (s : State) (c : Cmd) : (barrierClose s c).hiu = s.hiu :=
  (onlyIn_of_follows (parts := [.cnt, .bays, .ports, .out, .rdc, .wrc, .cal, .qre, .bdy])
    (follows_barrierClose (by decide) (follows_refl s))).2 .hiu (by decide)

theorem refillNow_hiu (s : State) : (refillNow s).hiu = s.hiu :=
  (onlyIn_of_follows (parts := [.cnt, .bays, .ports, .out, .rdc, .wrc, .cal, .qre, .mem, .bdy])
    (follows_refillNow (by decide) (follows_refl s))).2 .hiu (by decide)

/-- A flush as it stands after a look at what it waits for. -/
def flushed (s : State) (c : Cmd) : Cmd :=
  { c with localDone := !flushOpen s c, waitFrom := if c.barrier ∧ s.qre.vol = 2 then c.waitFrom <|> some (now s) else none }

theorem flushStep_eq {s : State} {r : CmdRef} {c : Cmd} (hc : cmdAt s r = some c) : flushStep s r =
    if (flushed (barrierClose s c) c).localDone && (c.peerDone || !c.remote) then complete (barrierClose s c) r .success
    else setCmd (barrierClose s c) (flushed (barrierClose s c) c) := by
  unfold flushStep
  rw [hc]
  rfl

theorem exec_flush {s : State} {r : CmdRef} {c : Cmd} (hc : cmdAt s r = some c) (hk : c.sqe.kind = .flush) (hst : c.st = .admitted)
    (hr : c.remote = false) : exec (.flush r) s = .next (refillNow (flushStep s r)) := by
  change execFlush r s = _
  rw [execFlush, hc]
  exact (if_neg (by simp [hk])).trans ((if_neg (by simp [hst])).trans (if_neg (by simp [hr])))

theorem flush_waits {s : State} {r : CmdRef} {c : Cmd} (hc : cmdAt s r = some c) (hst : c.st = .admitted)
    (ho : flushOpen (barrierClose s c) c = true) : ∃ x, cmdAt (refillNow (flushStep s r)) r = some x ∧ x.localDone = false ∧
      x.st = .admitted ∧ (refillNow (flushStep s r)).hiu.comps = s.hiu.comps := by
  have hdone : (flushed (barrierClose s c) c).localDone = false := by simp [flushed, ho]
  rw [cmdAt_of_hiu (refillNow_hiu _), refillNow_hiu, flushStep_eq hc, if_neg (by simp [hdone])]
  refine ⟨_, cmdAt_setCmd (c := c) ?_ (cmdAt_ref hc :), hdone, hst, ?_⟩
  · rw [cmdAt_of_hiu (barrierClose_hiu s c), hc]
  · exact (congrArg Hiu.comps (barrierClose_hiu s c) :)

theorem flushOpen_iff {s : State} {c : Cmd} (h : c.barrier = false) : flushOpen s c = true ↔
    ∃ d ∈ s.hiu.cmds, openWrite d = true ∧ d.seq < c.seq ∧ (c.sqe.nsid = 0xFFFFFFFF ∨ c.sqe.nsid.toNat = d.sqe.nsid.toNat) := by
  simp [flushOpen, h, flushNames, and_assoc]

/-- Settles O40. -/
theorem readsTakeTheNewestVersionBelow : Obligations.ReadsTakeTheNewestVersionBelow := by
  refine ⟨fun s seq nsid lba v h => versionBelow_spec h, fun s r c hc hread hst hr hl => ?_,
    fun s lane r i slot tagOk refOk buf final chk c n b hc hn hb hrun hl hread hst hi hnew hslot hbuf => ?_,
    fun s r c hc hk hst hr => ⟨fun ho => ?_, fun ho => ?_⟩, fun s c h => ⟨if_neg (by simp [h]), flushOpen_iff h⟩⟩
  · dsimp only
    rw [exec_readOrVerify hc hread, readStage_of_turn hst hr hl]
    refine ⟨fun hb => ?_, fun hb hf => ?_⟩
    · rw [if_pos hb]
      exact ⟨_, _, rfl, cmdAt_setCmd hc (cmdAt_ref hc :), rfl, rfl, onlyIn_of_follows (follows_setCmd (by decide) (follows_refl s))⟩
    · rw [if_neg (by simp [hb]), if_neg (by simp [hf])]
      refine ⟨fun i hi h3 _ => ?_, fun h3 h2 => ?_, fun h2 => ?_⟩
      · obtain ⟨u, h, hu⟩ := beginRead_lost hc hi h3
        exact ⟨u, congrArg _ h, hu⟩
      · obtain ⟨x, h⟩ := beginRead_serves hc h3 h2
        exact ⟨_, x, rfl, h⟩
      · obtain ⟨u, data, h, hu⟩ := beginRead_unwritten hc h2
        exact ⟨u, data, congrArg _ h, hu⟩
  · have href := cmdAt_ref hc
    dsimp only
    rw [exec_blockDecryptDone hc hn hb hrun hl hread hst hi hnew hslot hbuf, Bool.and_assoc, ← hslot]
    subst href
    refine ⟨fun hg hf => ?_, fun hg hf hre hcopy => ?_, fun hg hf hre hb' hcopy => ?_, fun hg hp hrf => ?_, fun hg hp e he => ?_,
      fun hg hp he => ⟨fun hmiss => ?_, fun hall => ?_⟩⟩
    · exact ⟨_, congrArg _ (decryptOutcome_final hg hf), counter_decryptCounted s c, by simp [decryptCounted]⟩
    · obtain ⟨x, h⟩ := secondTry_again (s := bump (decryptCounted s c) 11 3) (i := i) hc
      exact ⟨_, x, congrArg _ (decryptOutcome_again hg hf hre (hbuf ▸ hcopy)), h⟩
    · refine ⟨_, ?_, congrArg _ (decryptOutcome_lost hg hf hre (hbuf ▸ hb') hcopy), ?_⟩
      · simp [lostNoted, decryptCounted]
      · simp [lostNoted, decryptCounted]
    · refine ⟨_, congrArg _ (decryptOutcome_reference hg hp hrf), ?_⟩
      simp [decryptCounted]
    · exact ⟨_, congrArg _ (decryptOutcome_host hg hp he), rfl⟩
    · obtain ⟨k, hk, hki, hkn⟩ := hmiss
      have hgot : look (delivered c i (plainOf s c b i ++ fit (lbafMeta n.lbaf) b.pi)).got k = none :=
        (look_ins ..).trans ((if_neg (Ne.symm hki)).trans hkn)
      rw [decryptOutcome_good hg hp he, finishRead_of_missing (c := delivered c i _) hk hgot]
      exact ⟨_, _, rfl, cmdAt_setCmd (s := decryptCounted s c) hc rfl, (look_ins ..).trans (if_pos rfl),
        fun k hk => (look_ins ..).trans (if_neg (Ne.symm hk)), rfl⟩
    · rw [decryptOutcome_good hg hp he, finishRead_of_all]
      · exact ⟨_, _, rfl, rfl⟩
      · intro k hk
        refine (congrArg Option.isSome (look_ins ..)).trans ?_
        by_cases h : i = k
        · rw [if_pos h]
          rfl
        · rw [if_neg h]
          exact Option.isSome_iff_ne_none.2 (hall k hk (Ne.symm h))
  · rw [exec_flush hc hk hst hr, flushStep_eq hc, if_pos (by simp [flushed, ho, hr])]
  · obtain ⟨x, h⟩ := flush_waits hc hst ho
    exact ⟨_, x, exec_flush hc hk hst hr, h⟩

end Sys2Proof.Machine
end

section
/-! PROOFS. R243, R253: zone actions, zone reports and placement. -/

namespace Sys2Proof.Machine

/-! ### Sorted tables -/

theorem look_eq_some_iff {α : Type} {t : Tbl α} (h : sortedT t = true) (k : Nat) (v : α) : look t k = some v ↔ (k, v) ∈ t := by
  refine ⟨mem_of_look, fun hm => ?_⟩
  induction t with
  | nil => exact absurd hm List.not_mem_nil
  | cons e t ih =>
    obtain ⟨a, x⟩ := e
    obtain ⟨habove, hs⟩ := sortedT_cons.1 h
    obtain heq | hm := List.mem_cons.1 hm
    · obtain ⟨rfl, rfl⟩ := Prod.mk.inj heq
      exact if_pos rfl
    · have hlt : a < k := habove _ hm
      exact (if_neg (by omega)).trans (ih hs hm)

theorem nodup_keys {α : Type} {t : Tbl α} (h : sortedT t = true) : (t.map (·.1)).Nodup := by
  induction t with
  | nil => exact List.nodup_nil
  | cons e t ih =>
    obtain ⟨a, x⟩ := e
    obtain ⟨habove, hs⟩ := sortedT_cons.1 h
    refine List.nodup_cons.2 ⟨fun hm => ?_, ih hs⟩
    obtain ⟨e, he, hea⟩ := List.mem_map.1 hm
    have hlt := habove e he
    dsimp only at hea
    omega

/-! ### Zones of a namespace by state -/

theorem zoneKey_eq_iff (nsid a b : Nat) : zoneKey nsid a = zoneKey nsid b ↔ a = b := by
  unfold zoneKey
  omega

@[simp] theorem zoneAt_setZone (s : State) (nsid a b : Nat) (x : Zone) :
    zoneAt (setZone s nsid a x) nsid b = if a = b then x else zoneAt s nsid b := by
  refine (getD_put ..).trans ?_
  simp only [zoneKey_eq_iff]
  rfl

theorem mem_selected {s : State} {nsid z : Nat} {sts : List Nat} (hs : sortedT s.hiu.zones = true) (h0 : 0 ∉ sts) :
    z ∈ selected s nsid sts ↔ z < 65536 ∧ (zoneAt s nsid z).st ∈ sts := by
  have hkey (hz : z < 65536) : zoneKey nsid z / 65536 = nsid ∧ zoneKey nsid z % 65536 = z := by
    unfold zoneKey
    omega
  constructor
  · intro h
    obtain ⟨⟨k, x⟩, he, hk⟩ := List.mem_map.1 h
    obtain ⟨hm, hp⟩ := List.mem_filter.1 he
    simp only [Bool.and_eq_true, beq_iff_eq, List.contains_iff_mem] at hp
    obtain ⟨hnsid, hst⟩ := hp
    have hzk : zoneKey nsid z = k := by
      unfold zoneKey
      omega
    refine ⟨by omega, ?_⟩
    rw [zoneAt, hzk, getD, (look_eq_some_iff hs k x).2 hm]
    exact hst
  · rintro ⟨hz, hst⟩
    cases hl : look s.hiu.zones (zoneKey nsid z) with
    | none =>
      rw [zoneAt, getD, hl] at hst
      exact absurd hst h0
    | some x =>
      rw [zoneAt, getD, hl] at hst
      refine List.mem_map.2 ⟨(zoneKey nsid z, x), List.mem_filter.2 ⟨mem_of_look hl, ?_⟩, (hkey hz).2⟩
      simp only [Bool.and_eq_true, beq_iff_eq, List.contains_iff_mem]
      exact ⟨(hkey hz).1, hst⟩

theorem nodup_selected {s : State} {nsid : Nat} {sts : List Nat} (hs : sortedT s.hiu.zones = true) : (selected s nsid sts).Nodup := by
  have hk := nodup_keys (sortedT_filter (p := fun e => e.1 / 65536 == nsid && sts.contains e.2.st) hs)
  have hmap : selected s nsid sts =
      ((s.hiu.zones.filter (fun e => e.1 / 65536 == nsid && sts.contains e.2.st)).map (·.1)).map (· % 65536) := by
    rw [List.map_map]
    rfl
  rw [hmap]
  refine List.Nodup.map_on (fun a ha b hb hab => ?_) hk
  have hdiv (k : Nat) (h : k ∈ (s.hiu.zones.filter (fun e => e.1 / 65536 == nsid && sts.contains e.2.st)).map (·.1)) : k / 65536 = nsid := by
    obtain ⟨e, he, rfl⟩ := List.mem_map.1 h
    have hp := (List.mem_filter.1 he).2
    simp only [Bool.and_eq_true, beq_iff_eq] at hp
    exact hp.1
  have h1 := hdiv a ha
  have h2 := hdiv b hb
  omega

/-! ### Actions over zones -/

theorem same_trans {s t u : State} (p : Part) (h : p.same s t) (k : p.same t u) : p.same s u := by
  cases p <;> exact Eq.trans k h

theorem onlyIn_trans {parts : List Part} {s t u : State} (h : OnlyIn parts s t) (k : OnlyIn parts t u) : OnlyIn parts s u :=
  ⟨k.1.trans h.1, fun p hp => same_trans p (h.2 p hp) (k.2 p hp)⟩

/-- An action that stores a state in every zone of a list succeeds and changes those zones only. -/
theorem overZones_sets {f : State → Nat → Except Status State} {nsid k : Nat} {P : Nat → Prop}
    (hf : ∀ s z, P (zoneAt s nsid z).st → f s z = .ok (setZone s nsid z { zoneAt s nsid z with st := k })) {zs : List Nat} (hn : zs.Nodup)
    (s : State) (hP : ∀ z ∈ zs, P (zoneAt s nsid z).st) : ∃ u, overZones f zs s = .ok u ∧ { u.hiu with zones := s.hiu.zones } = s.hiu ∧
      OnlyIn [.hiu] s u ∧ ∀ z, zoneAt u nsid z = if z ∈ zs then { zoneAt s nsid z with st := k } else zoneAt s nsid z := by
  induction zs generalizing s with
  | nil => exact ⟨s, rfl, rfl, onlyIn_of_follows (follows_refl s), fun z => by simp⟩
  | cons a zs ih =>
    obtain ⟨hna, hn⟩ := List.nodup_cons.1 hn
    have hrest : ∀ z ∈ zs, P (zoneAt (setZone s nsid a { zoneAt s nsid a with st := k }) nsid z).st := by
      intro z hz
      have hne : a ≠ z := fun h => hna (h ▸ hz)
      rw [zoneAt_setZone, if_neg hne]
      exact hP z (List.mem_cons_of_mem _ hz)
    obtain ⟨u, hu, hhiu, ⟨hpend, hin⟩, hz⟩ := ih hn _ hrest
    have hset : OnlyIn [.hiu] s (setZone s nsid a { zoneAt s nsid a with st := k }) :=
      onlyIn_of_follows (follows_setZone (by decide) (follows_refl s))
    refine ⟨u, ?_, ?_, ?_, fun z => ?_⟩
    · rw [overZones, hf s a (hP a (List.mem_cons_self ..))]
      exact hu
    · exact congrArg (fun h : Hiu => { h with zones := s.hiu.zones }) hhiu
    · exact onlyIn_trans hset ⟨hpend, hin⟩
    · rw [hz, zoneAt_setZone]
      by_cases h : a = z
      · subst h
        simp [hna]
      · by_cases hm : z ∈ zs <;> simp [h, hm, Ne.symm h]

theorem zoneOpenOne_of_closed {s : State} {nsid z : Nat} (h : (zoneAt s nsid z).st = 3) :
    zoneOpenOne s nsid z = .ok (setZone s nsid z { zoneAt s nsid z with st := 2 }) := by
  unfold zoneOpenOne
  dsimp only
  rw [if_neg (by omega), if_neg (by omega)]

/-! ### Zone Management Send -/

/-- The zones that a send names. -/
def sendZones (s : State) (nsid : Nat) (n : Ns) (sel : ZoneSel) (sts : List Nat) : Option (List Nat) :=
  match sel with
  | .all => some (selected s nsid sts)
  | .one a => if a.toNat % zoneBlocks = 0 ∧ a.toNat < n.nsze then some [a.toNat / zoneBlocks] else none

section
variable {s : State} {r : CmdRef} {c : Cmd} {n : Ns} (hc : cmdAt s r = some c)
include hc

theorem zoneSend_eq (hk : c.sqe.kind = .zoneSend) (hst : c.st = .admitted) (hr : c.remote = false)
    (hn : nsAt s c.sqe.nsid.toNat = some n) (sel : ZoneSel) (sts : List Nat) (f : State → Nat → Nat → Except Status State) :
    zoneSend s r sel sts f = match sendZones s c.sqe.nsid.toNat n sel sts with
      | none => complete s r .invalidField
      | some zs => match overZones (fun s z => f s c.sqe.nsid.toNat z) zs s with
        | .ok t => complete t r .success
        | .error e => complete s r e := by
  unfold zoneSend
  rw [hc]
  dsimp only
  rw [if_neg (by simp [hk, hst, hr]), hn] <;> rfl

variable (hk : c.sqe.kind = .zoneSend) (hst : c.st = .admitted) (hr : c.remote = false) (hn : nsAt s c.sqe.nsid.toNat = some n)
include hk hst hr hn

/-- A send on one zone of the namespace: the action's outcome on that zone. -/
theorem zoneSend_one {a : Dword} (ha : a.toNat % 1048576 = 0) (hlt : a.toNat < n.nsze) (sts : List Nat)
    (f : State → Nat → Nat → Except Status State) : zoneSend s r (.one a) sts f =
      match f s c.sqe.nsid.toNat (a.toNat / 1048576) with
      | .ok t => complete t r .success
      | .error e => complete s r e := by
  have hz : sendZones s c.sqe.nsid.toNat n (.one a) sts = some [a.toNat / 1048576] := if_pos ⟨ha, hlt⟩
  rw [zoneSend_eq hc hk hst hr hn, hz]
  dsimp only [overZones]
  cases f s c.sqe.nsid.toNat (a.toNat / 1048576) <;> rfl

theorem zoneSend_badLba {a : Dword} (ha : a.toNat % 1048576 ≠ 0 ∨ n.nsze ≤ a.toNat) (sts : List Nat)
    (f : State → Nat → Nat → Except Status State) : zoneSend s r (.one a) sts f = complete s r .invalidField := by
  have hz : sendZones s c.sqe.nsid.toNat n (.one a) sts = none := if_neg (fun h => by
    obtain ⟨h1, h2⟩ := h
    have h1 : a.toNat % 1048576 = 0 := h1
    omega)
  rw [zoneSend_eq hc hk hst hr hn, hz]

theorem zoneSend_all (sts : List Nat) (f : State → Nat → Nat → Except Status State) : zoneSend s r .all sts f =
      match overZones (fun s z => f s c.sqe.nsid.toNat z) (selected s c.sqe.nsid.toNat sts) s with
      | .ok t => complete t r .success
      | .error e => complete s r e := by
  rw [zoneSend_eq hc hk hst hr hn] <;> rfl

/-- Actions on one zone by its state. -/
theorem zoneActions_one {a : Dword} (ha : a.toNat % 1048576 = 0) (hlt : a.toNat < n.nsze) :
    let nsid := c.sqe.nsid.toNat
    let z := a.toNat / 1048576
    let x := zoneAt s nsid z
    (x.st = 4 → exec (.zoneOpen r (.one a)) s = .next (complete s r .invalidZoneTransition)) ∧
    (x.st = 0 → 1024 ≤ activeZones s → exec (.zoneOpen r (.one a)) s = .next (complete s r .tooManyActive)) ∧
    (x.st ≠ 4 → x.st ≠ 0 ∨ activeZones s < 1024 →
      exec (.zoneOpen r (.one a)) s = .next (complete (setZone s nsid z { x with st := 2 }) r .success)) ∧
    (x.st = 0 ∨ x.st = 4 → exec (.zoneClose r (.one a)) s = .next (complete s r .invalidZoneTransition)) ∧
    (x.st ≠ 0 → x.st ≠ 4 → exec (.zoneClose r (.one a)) s = .next (complete (setZone s nsid z { x with st := 3 }) r .success)) ∧
    exec (.zoneFinish r (.one a)) s = .next (complete (setZone s nsid z { x with st := 4 }) r .success) ∧
    (x.st = 0 → exec (.zoneReset r (.one a)) s = .next (complete s r .success)) ∧
    (x.st ≠ 0 → exec (.zoneReset r (.one a)) s = .next (complete s r .invalidZoneTransition)) := by
  intro nsid z x
  have hopen : exec (.zoneOpen r (.one a)) s = .next (zoneSend s r (.one a) [3] zoneOpenOne) := rfl
  have hclose : exec (.zoneClose r (.one a)) s = .next (zoneSend s r (.one a) [1, 2] zoneCloseOne) := rfl
  have hfinish : exec (.zoneFinish r (.one a)) s = .next (zoneSend s r (.one a) [1, 2, 3] zoneFinishOne) := rfl
  have hreset : exec (.zoneReset r (.one a)) s = .next (zoneSend s r (.one a) [1, 2, 3, 4] zoneResetOne) := rfl
  rw [hopen, hclose, hfinish, hreset]
  simp only [zoneSend_one hc hk hst hr hn ha hlt]
  refine ⟨fun h => ?_, fun h hm => ?_, fun h hm => ?_, fun h => ?_, fun h h4 => ?_, rfl, fun h => ?_, fun h => ?_⟩
  · have hf : zoneOpenOne s nsid z = .error .invalidZoneTransition := if_pos h
    rw [hf]
  · have h4 : x.st ≠ 4 := by omega
    have hf : zoneOpenOne s nsid z = .error .tooManyActive := (if_neg h4).trans (if_pos ⟨h, hm⟩)
    rw [hf]
  · have hf : zoneOpenOne s nsid z = .ok (setZone s nsid z { x with st := 2 }) := (if_neg h).trans (if_neg (fun hh => by
      obtain ⟨h0, h1⟩ := hh
      have h0 : x.st = 0 := h0
      omega))
    rw [hf]
  · have hf : zoneCloseOne s nsid z = .error .invalidZoneTransition := if_pos h
    rw [hf]
  · have hf : zoneCloseOne s nsid z = .ok (setZone s nsid z { x with st := 3 }) := if_neg (fun hh => hh.elim h h4)
    rw [hf]
  · have hf : zoneResetOne s nsid z = .ok s := if_pos h
    rw [hf]
  · have hf : zoneResetOne s nsid z = .error .invalidZoneTransition := if_neg h
    rw [hf]

/-- Select All: Reset is refused over any zone that is not Empty, Open and Finish reach exactly the zones of their states. -/
theorem zoneActions_all (hs : sortedT s.hiu.zones = true) :
    (∀ z, z < 65536 → (zoneAt s c.sqe.nsid.toNat z).st ∈ [1, 2, 3, 4] → exec (.zoneReset r .all) s = .next (complete s r .invalidZoneTransition)) ∧
    (∃ u, exec (.zoneOpen r .all) s = .next (complete u r .success) ∧ { u.hiu with zones := s.hiu.zones } = s.hiu ∧ OnlyIn [.hiu] s u ∧
      ∀ z, z < 65536 → zoneAt u c.sqe.nsid.toNat z = (let x := zoneAt s c.sqe.nsid.toNat z; if x.st = 3 then { x with st := 2 } else x)) ∧
    (∃ u, exec (.zoneFinish r .all) s = .next (complete u r .success) ∧
      ∀ z, z < 65536 → zoneAt u c.sqe.nsid.toNat z = (let x := zoneAt s c.sqe.nsid.toNat z; if x.st ∈ [1, 2, 3] then { x with st := 4 } else x)) := by
  have hopen : exec (.zoneOpen r .all) s = .next (zoneSend s r .all [3] zoneOpenOne) := rfl
  have hfinish : exec (.zoneFinish r .all) s = .next (zoneSend s r .all [1, 2, 3] zoneFinishOne) := rfl
  have hreset : exec (.zoneReset r .all) s = .next (zoneSend s r .all [1, 2, 3, 4] zoneResetOne) := rfl
  rw [hopen, hfinish, hreset]
  simp only [zoneSend_all hc hk hst hr hn]
  refine ⟨fun z hz hin => ?_, ?_, ?_⟩
  · have hm := (mem_selected hs (sts := [1, 2, 3, 4]) (by decide)).2 ⟨hz, hin⟩
    cases hl : selected s c.sqe.nsid.toNat [1, 2, 3, 4] with
    | nil => exact absurd (hl ▸ hm) List.not_mem_nil
    | cons y ys =>
      have hy := ((mem_selected hs (sts := [1, 2, 3, 4]) (by decide)).1 (hl ▸ List.mem_cons_self .. : y ∈ selected s c.sqe.nsid.toNat [1, 2, 3, 4])).2
      have hne : (zoneAt s c.sqe.nsid.toNat y).st ≠ 0 := fun h => by simp [h] at hy
      have hf : zoneResetOne s c.sqe.nsid.toNat y = .error .invalidZoneTransition := if_neg hne
      rw [overZones, hf]
  · obtain ⟨u, hu, hhiu, hin, hz⟩ := overZones_sets (nsid := c.sqe.nsid.toNat) (P := (· = 3)) (fun s z h => zoneOpenOne_of_closed h)
      (nodup_selected (sts := [3]) hs) s (fun z hz => by simpa using ((mem_selected hs (by decide)).1 hz).2)
    rw [hu]
    refine ⟨u, rfl, hhiu, hin, fun z hlt => ?_⟩
    rw [hz]
    exact if_congr (by simp [mem_selected hs, hlt]) rfl rfl
  · obtain ⟨u, hu, -, -, hz⟩ := overZones_sets (f := fun s z => zoneFinishOne s c.sqe.nsid.toNat z) (k := 4) (nsid := c.sqe.nsid.toNat)
      (P := fun _ => True) (fun s z _ => rfl) (nodup_selected (sts := [1, 2, 3]) hs) s (fun _ _ => trivial)
    rw [hu]
    refine ⟨u, rfl, fun z hlt => ?_⟩
    rw [hz]
    exact if_congr (by simp [mem_selected hs, hlt]) rfl rfl

end

/-! ### Zone Management Receive -/

theorem length_fit (n : Nat) (bs : Bytes) : (fit n bs).length = n := by
  simp only [fit, List.length_take, List.length_append, List.length_replicate]
  omega

theorem length_layout (n : Nat) (fs : List (Nat × Bytes)) : (layout n fs).length = n := length_fit ..

theorem length_natLe (n v : Nat) : (natLe n v).length = n := by
  induction n generalizing v with
  | zero => rfl
  | succ n ih => simp [natLe, ih]

theorem take_layout_head (n : Nat) (bs : Bytes) (h : bs.length ≤ n) : (layout n [(0, bs)]).take bs.length = bs := by
  have hl : layout n [(0, bs)] = fit n bs := by simp [layout, fit]
  rw [hl, fit, List.take_take, Nat.min_eq_left h, List.take_left']
  rfl

theorem length_zoneDescriptor (s : State) (nsid z : Nat) : (zoneDescriptor s nsid z).length = 64 := length_layout ..

/-- Pieces of one length, in their order. -/
theorem take_drop_flatMap {α : Type} {f : α → Bytes} {m : Nat} (hf : ∀ z, (f z).length = m) (l : List α) {i : Nat} (hi : i < l.length) :
    ((l.flatMap f).drop (m * i)).take m = f l[i] := by
  induction l generalizing i with
  | nil => exact absurd hi (by simp)
  | cons z l ih =>
    rw [List.flatMap_cons]
    cases i with
    | zero =>
      rw [Nat.mul_zero, List.drop_zero, List.take_left' (hf z)]
      rfl
    | succ i =>
      have hadd : m * (i + 1) = (f z).length + m * i := by rw [hf, Nat.mul_succ, Nat.add_comm]
      rw [hadd, List.drop_length_add_append, ih (by simpa using hi)]
      rfl

/-- The zones of a report. -/
def reportZones (n : Ns) (first nlb : Nat) : List Nat :=
  ((List.range (zoneCount n - first)).map (· + first)).take ((4096 * nlb - 64) / 64)

/-- The bytes of a zone report. -/
def zoneReport (s : State) (nsid : Nat) (n : Ns) (first nlb : Nat) : Bytes :=
  layout 64 [(0, natLe 8 (zoneCount n - first))] ++ (reportZones n first nlb).flatMap (zoneDescriptor s nsid)

theorem exec_zoneManagementReceive {s : State} {r : CmdRef} {c : Cmd} {n : Ns} (hc : cmdAt s r = some c) (hk : c.sqe.kind = .zoneRecv)
    (hst : c.st = .admitted) (hr : c.remote = false) (hn : nsAt s c.sqe.nsid.toNat = some n) : exec (.zoneManagementReceive r) s =
      .next (complete s r .success 0 (zoneReport s c.sqe.nsid.toNat n (c.sqe.slba.toNat / zoneBlocks) c.sqe.nlb)) := by
  change execZoneManagementReceive r s = _
  rw [execZoneManagementReceive, hc]
  dsimp only
  rw [if_neg (by simp [hk, hst, hr]), hn]
  rfl

theorem zoneReport_head (s : State) (nsid : Nat) (n : Ns) (first nlb : Nat) :
    (zoneReport s nsid n first nlb).take 8 = natLe 8 (zoneCount n - first) := by
  rw [zoneReport, List.take_append_of_le_length (by rw [length_layout]; omega)]
  have h := take_layout_head 64 (natLe 8 (zoneCount n - first)) (by rw [length_natLe]; omega)
  rwa [length_natLe] at h

theorem zoneReport_descriptor (s : State) (nsid : Nat) (n : Ns) (first : Nat) {nlb i : Nat} (hn : 1 ≤ nlb)
    (hi : i < min (zoneCount n - first) (64 * nlb - 1)) :
    ((zoneReport s nsid n first nlb).drop (64 + 64 * i)).take 64 = zoneDescriptor s nsid (first + i) := by
  have hlen : (reportZones n first nlb).length = min (64 * nlb - 1) (zoneCount n - first) := by
    simp only [reportZones, List.length_take, List.length_map, List.length_range]
    congr 1
    omega
  have hlt : i < (reportZones n first nlb).length := by omega
  have hget : (reportZones n first nlb)[i] = first + i := by simp [reportZones, Nat.add_comm]
  have hadd : 64 + 64 * i = (layout 64 [(0, natLe 8 (zoneCount n - first))]).length + 64 * i := by rw [length_layout]
  rw [zoneReport, hadd, List.drop_length_add_append, take_drop_flatMap (length_zoneDescriptor s nsid) _ hlt, hget]

/-! ### Placement -/

theorem zonePlace_spec (s : State) (nsid slba nlb : Nat) : let x := zoneAt s nsid (slba / 1048576)
    let wp := slba / 1048576 * 1048576 + x.wp
    (x.st = 4 → zonePlace s nsid slba nlb false = .error .zoneFull) ∧
    (x.st ≠ 4 → slba % 1048576 + nlb ≤ 1048576 → slba ≠ wp → zonePlace s nsid slba nlb false = .error .zoneInvalidWrite) ∧
    (x.st ≠ 4 → 1048576 < slba % 1048576 + nlb → zonePlace s nsid slba nlb false = .error .zoneBoundary) ∧
    (x.st = 0 → slba % 1048576 + nlb ≤ 1048576 → slba = wp → 1024 ≤ activeZones s → zonePlace s nsid slba nlb false = .error .tooManyActive) ∧
    (x.st ≠ 4 → x.active = true ∨ activeZones s < 1024 → slba % 1048576 = 0 → x.wp + nlb ≤ 1048576 → zonePlace s nsid slba nlb true = .ok wp) := by
  have hplace (append : Bool) : zonePlace s nsid slba nlb append =
      let x := zoneAt s nsid (slba / 1048576)
      let wp := slba / 1048576 * 1048576 + x.wp
      if append && decide (slba % 1048576 ≠ 0) then .error .invalidField
      else if x.st = 4 then .error .zoneFull
      else if 1048576 < (if append then x.wp else slba % 1048576) + nlb then .error .zoneBoundary
      else if !append && decide (slba ≠ wp) then .error .zoneInvalidWrite
      else if !x.active && decide (1024 ≤ activeZones s) then .error .tooManyActive
      else .ok wp := rfl
  simp only [hplace, Bool.false_and, Bool.false_eq_true, if_false, if_true, Bool.true_and, Bool.not_false, Bool.not_true]
  refine ⟨fun h => if_pos h, fun h hle hne => ?_, fun h hlt => ?_, fun h hle heq hm => ?_, fun h hm h0 hle => ?_⟩
  · rw [if_neg h, if_neg (by omega), if_pos (by simpa using hne)]
  · rw [if_neg h, if_pos hlt]
  · have hact : (zoneAt s nsid (slba / 1048576)).active = false := by simp [Zone.active, h]
    rw [if_neg (by omega), if_neg (by omega), if_neg (by simpa using heq), if_pos (by simp [hact, hm])]
  · rw [if_neg (by simp [h0]), if_neg h, if_neg (by omega), if_neg]
    obtain ha | ha := hm
    · simp [ha]
    · simp [ha]

/-- Settles O41. -/
theorem zonesFollowTheirActions : Obligations.ZonesFollowTheirActions := by
  refine ⟨fun s r c n a hc hk hst hr hn ha hlt => zoneActions_one hc hk hst hr hn ha hlt, fun s r c n hc hk hst hr hn hs => ?_,
    fun s r c n hc hk hst hr hn => ?_, zonePlace_spec⟩
  · obtain ⟨hreset, hopen, hfinish⟩ := zoneActions_all hc hk hst hr hn hs
    have hrefuse : refuseKind s r .invalidField = complete s r .invalidField := by
      unfold refuseKind
      rw [hc]
      exact if_neg (by simp [hk, hst, hr])
    refine ⟨fun a ha e he => ?_, hreset, hopen, hfinish, congrArg _ hrefuse, congrArg _ hrefuse⟩
    simp only [List.mem_cons, List.not_mem_nil, or_false] at he
    obtain rfl | rfl | rfl | rfl := he
    all_goals exact congrArg Host.Outcome.next (zoneSend_badLba hc hk hst hr hn ha _ _)
  · exact ⟨_, exec_zoneManagementReceive hc hk hst hr hn, zoneReport_head .., fun h1 i hi => zoneReport_descriptor s _ n _ h1 hi⟩

end Sys2Proof.Machine
end

section
/-! PROOFS. R231, R237, R238, R240: creating and deleting queues. -/

namespace Sys2Proof.Machine

section
variable {s : State} {r : CmdRef} {q cq : Fin 65536} {size vec : Half} {ien : Bool}

theorem exec_createIoCq : exec (.createIoCq r q size vec ien) s =
    if q = 0 ∨ queueLimit s ≤ q.val ∨ (cqAt s r.ctrl q).isSome then .next (complete s r .invalidQueueId)
    else if size = 0 then .next (complete s r .invalidQueueSize)
    else if vectorLimit s ≤ vec.toNat then .next (complete s r .invalidVector)
    else .next (complete (setCq s r.ctrl q { size := size.toNat + 1, vector := vec.toNat, ien := ien }) r .success) := rfl

/-- The queue that CREATE_IO_SQ makes. -/
def newSq (s : State) (q cq : Fin 65536) (size : Half) : Sq :=
  { size := size.toNat + 1, cqid := cq, classU := classU s q, wrr := (queueRec s q).wrr }

theorem exec_createIoSq : exec (.createIoSq r q size cq) s =
    if q = 0 ∨ queueLimit s ≤ q.val ∨ (sqAt s r.ctrl q).isSome then .next (complete s r .invalidQueueId)
    else if size = 0 then .next (complete s r .invalidQueueSize)
    else if cq = 0 ∨ (cqAt s r.ctrl cq).isNone then .next (complete s r .cqInvalid)
    else .next (complete (trimContexts (setSq s r.ctrl q (newSq s q cq size))) r .success) := rfl

theorem createIoCq_creates (hq : q ≠ 0) (hlim : q.val < queueLimit s) (hnew : cqAt s r.ctrl q = none) :
      (size = 0 → exec (.createIoCq r q size vec ien) s = .next (complete s r .invalidQueueSize)) ∧
      (size ≠ 0 → vectorLimit s ≤ vec.toNat → exec (.createIoCq r q size vec ien) s = .next (complete s r .invalidVector)) ∧
      (size ≠ 0 → vec.toNat < vectorLimit s → ∃ u, exec (.createIoCq r q size vec ien) s = .next (complete u r .success) ∧
        cqAt u r.ctrl q = some { size := size.toNat + 1, vector := vec.toNat, ien := ien } ∧ { u.hiu with cqs := s.hiu.cqs } = s.hiu ∧
        (∀ d k, qKey d k ≠ qKey r.ctrl q → cqAt u d k = cqAt s d k) ∧ OnlyIn [.hiu] s u) := by
  rw [exec_createIoCq, if_neg (by simp [hq, hnew]; omega)]
  refine ⟨fun h => if_pos h, fun h hv => ?_, fun h hv => ?_⟩
  · rw [if_neg h, if_pos hv]
  · rw [if_neg h, if_neg (by omega)]
    refine ⟨_, rfl, by simp, rfl, fun d k hne => by rw [cqAt_setCq, if_neg (Ne.symm hne)], ?_⟩
    exact onlyIn_of_follows (follows_setCq (by decide) (follows_refl s))

/-- A class U queue's context is pinned on chip. -/
theorem contextHere_of_classU {s : State} {k : Nat} {x : Sq} (h : look s.hiu.sqs k = some x) (hu : x.classU = true) :
    contextHere s k = true :=
  Bool.or_eq_true_iff.2 (.inl (List.contains_iff_mem.2 (List.mem_map.2 ⟨(k, x), List.mem_filter.2 ⟨mem_of_look h, hu⟩, rfl⟩)))

theorem createIoSq_creates (hq : q ≠ 0) (hlim : q.val < queueLimit s) (hnew : sqAt s r.ctrl q = none) :
      (size = 0 → exec (.createIoSq r q size cq) s = .next (complete s r .invalidQueueSize)) ∧
      (size ≠ 0 → cq = 0 ∨ cqAt s r.ctrl cq = none → exec (.createIoSq r q size cq) s = .next (complete s r .cqInvalid)) ∧
      (size ≠ 0 → cq ≠ 0 → cqAt s r.ctrl cq ≠ none → ∃ u, exec (.createIoSq r q size cq) s = .next (complete u r .success) ∧
        sqAt u r.ctrl q = some { size := size.toNat + 1, cqid := cq, classU := (queueRec s q).cls == 0, wrr := (queueRec s q).wrr } ∧
        ((queueRec s q).cls = 0 → contextHere u (qKey r.ctrl q) = true) ∧ { u.hiu with sqs := s.hiu.sqs, onChip := s.hiu.onChip } = s.hiu ∧
        (∀ d k, qKey d k ≠ qKey r.ctrl q → sqAt u d k = sqAt s d k) ∧ OnlyIn [.hiu] s u) := by
  rw [exec_createIoSq, if_neg (by simp [hq, hnew]; omega)]
  refine ⟨fun h => if_pos h, fun h hc => ?_, fun h hc hcq => ?_⟩
  · rw [if_neg h, if_pos (by simpa using hc)]
  · rw [if_neg h, if_neg (by simp [hc, hcq])]
    have hclass : classU s q = ((queueRec s q).cls == 0) := by
      have h0 : (q.val == 0) = false := by simpa using fun h => hq (Fin.ext h)
      rw [classU, h0, Bool.false_or]
    have hsq : sqAt (trimContexts (setSq s r.ctrl q (newSq s q cq size))) r.ctrl q = some (newSq s q cq size) :=
      (look_ins ..).trans (if_pos rfl)
    refine ⟨_, rfl, ?_, fun h0 => contextHere_of_classU hsq ?_, rfl, fun d k hne => (look_ins ..).trans (if_neg (Ne.symm hne)), ?_⟩
    · rw [hsq, newSq, hclass]
    · exact hclass.trans (by simp [h0])
    · exact onlyIn_of_follows (follows_trimContexts (by decide) (follows_setSq (by decide) (follows_refl s)))

/-! ### Deletion -/

theorem outstanding_markSq_iff {x : Sq} : Outstanding (markSq s r q x) (qKey r.ctrl q) ↔
    ∃ d ∈ s.hiu.cmds, d.ref.peer = false ∧ d.ref.ctrl = r.ctrl ∧ d.ref.sqid = q :=
  exists_congr fun _ => and_congr_right fun _ => and_congr_right fun _ => qKey_eq_iff ..

theorem sqAt_markSq_other {x : Sq} {d k : Nat} (h : qKey d k ≠ qKey r.ctrl q) : sqAt (markSq s r q x) d k = sqAt s d k :=
  (look_ins ..).trans (if_neg (Ne.symm h))

/-- With none of its commands outstanding the queue goes at once, with the deletion's completion. -/
theorem deleteIoSq_deletes {x : Sq} (hq : q ≠ 0) (hsq : sqAt s r.ctrl q = some x) (hx : x.deleting = none)
    (hnone : ∀ e ∈ s.hiu.sqs, e.2.deleting = none) (hidle : ∀ d ∈ s.hiu.cmds, d.ref.peer = false → d.ref.ctrl = r.ctrl → d.ref.sqid ≠ q)
    (hr : r.peer = false) : ∃ t, exec (.deleteIoSq r q) s = .next t ∧
        sqAt t r.ctrl q = none ∧ (∀ d k, qKey d k ≠ qKey r.ctrl q → sqAt t d k = sqAt s d k) ∧
        (∀ d ∈ t.hiu.cmds, d.ref ≠ r) ∧ ({ ref := r, status := .success } : Comp) ∈ t.hiu.comps ++ t.hiu.held := by
  have hnot : ¬ Outstanding (markSq s r q x) (qKey r.ctrl q) := by
    rw [outstanding_markSq_iff]
    rintro ⟨d, hd, h1, h2, h3⟩
    exact hidle d hd h1 h2 h3
  obtain ⟨hgone, hcmds, hcomps⟩ := emit_dropSq (s := markSq s r q x) (n := r.ctrl) (q := q) hr
  refine ⟨_, by rw [exec_deleteIoSq_of_queue hq hsq hx hnone, finishDelete_of_not_outstanding rfl hnot], hgone, fun d k hne => ?_, hcmds,
    hcomps.mem_iff.2 (by simp)⟩
  rw [sqAt, emit_sqs]
  exact (look_del ..).trans ((if_neg (Ne.symm hne)).trans (sqAt_markSq_other hne))

/-- With a command of the queue outstanding it is marked and nothing more is fetched from it. -/
theorem deleteIoSq_marks {x : Sq} {d : Cmd} (hq : q ≠ 0) (hsq : sqAt s r.ctrl q = some x) (hx : x.deleting = none)
    (hnone : ∀ e ∈ s.hiu.sqs, e.2.deleting = none) (hd : d ∈ s.hiu.cmds) (hp : d.ref.peer = false) (hctrl : d.ref.ctrl = r.ctrl)
    (hsqid : d.ref.sqid = q) : ∃ t, exec (.deleteIoSq r q) s = .next t ∧
        sqAt t r.ctrl q = some { x with deleting := some r } ∧ t.hiu.cmds = s.hiu.cmds ∧ t.hiu.comps = s.hiu.comps ∧
        t.hiu.held = s.hiu.held ∧ ∀ y : Sq, fetchable t (qKey r.ctrl q) { y with deleting := some r } = false := by
  have hout : Outstanding (markSq s r q x) (qKey r.ctrl q) := outstanding_markSq_iff.2 ⟨d, hd, hp, hctrl, hsqid⟩
  refine ⟨markSq s r q x, ?_, sqAt_markSq s r q x, rfl, rfl, rfl, fun y => by simp [fetchable, visible]⟩
  rw [exec_deleteIoSq_of_queue hq hsq hx hnone, finishDelete_of_outstanding _ hout]

end

/-- Settles O42. -/
theorem queuesAreCreatedAndDeleted : Obligations.QueuesAreCreatedAndDeleted := by
  refine ⟨fun s r q cq size vec ien => ⟨fun h => ?_, fun h => ?_, createIoCq_creates, createIoSq_creates⟩,
    fun s r q => ⟨fun h => ?_, fun x hq hsq hx _ hnone hidle hr => deleteIoSq_deletes hq hsq hx hnone hidle hr,
      fun x d hq hsq hx _ hnone hd hp hc hs => deleteIoSq_marks hq hsq hx hnone hd hp hc hs⟩,
    fun s r q => ⟨fun h => ?_, fun hq hcq => ⟨fun k x hk hsq hx => exec_deleteIoCq_of_used hq hcq hk hsq hx, fun hfree => ?_⟩⟩⟩
  · exact if_pos (by simpa [Option.isSome_iff_ne_none] using h)
  · exact if_pos (by simpa [Option.isSome_iff_ne_none] using h)
  · rw [exec_deleteIoSq, execDeleteIoSq]
    split
    case h_1 => rfl
    case h_2 x hx => exact if_pos (.inl (h.resolve_right (by simp [hx])))
  · exact if_pos (by simpa using h)
  · refine ⟨_, exec_deleteIoCq_of_unused hq hcq hfree, (look_del ..).trans (if_pos rfl), fun d k hne => ?_,
      onlyIn_of_follows (upd_hiu (by decide) (follows_refl s))⟩
    exact (look_del ..).trans (if_neg (Ne.symm hne))

end Sys2Proof.Machine
end

section
/-! PROOFS. R234, R236, R249, R252, R266, R270: Identify, log pages, Abort, features and event requests. -/

namespace Sys2Proof.Machine

/-! ### Identify and log pages -/

theorem exec_identify_some {s : State} {r : CmdRef} {cns : Byte} {nsid : Word} {d : Bytes}
    (h : identifyData s r.ctrl cns.toNat nsid.toNat = some d) : exec (.identify r cns nsid) s = .next (complete s r .success 0 d) := by
  change execIdentify r cns nsid s = _
  rw [execIdentify, h]

theorem exec_identify_none {s : State} {r : CmdRef} {cns : Byte} {nsid : Word}
    (h : identifyData s r.ctrl cns.toNat nsid.toNat = none) : ∃ e, e ∈ [Status.invalidNamespace, .invalidField] ∧
      exec (.identify r cns nsid) s = .next (complete s r e) := by
  refine ⟨if cns = 0 ∨ cns = 3 ∨ cns = 5 ∨ cns = 0x12 then .invalidNamespace else .invalidField, ?_, ?_⟩
  · split <;> decide
  · change execIdentify r cns nsid s = _
    rw [execIdentify, h]

/-- The identifiers of R249. -/
def pageIds : List Byte := [0x01, 0x02, 0x03, 0x05, 0x0C, 0xBF, 0xC0, 0xC1, 0xC2, 0xC3, 0xC4]

theorem logPage_of_mem {lid : Byte} (s : State) (h : lid ∈ pageIds) : ∃ p, logPage s lid.toNat = some p := by
  simp only [pageIds, List.mem_cons, List.not_mem_nil, or_false] at h
  obtain rfl | rfl | rfl | rfl | rfl | rfl | rfl | rfl | rfl | rfl | rfl := h <;> exact ⟨_, rfl⟩

theorem logPage_of_notMem {lid : Byte} (s : State) (h : lid ∉ pageIds) : logPage s lid.toNat = none := by
  unfold logPage
  split
  case h_12 => rfl
  all_goals
    next heq =>
      refine absurd ?_ h
      have hl : lid = BitVec.ofNat 8 lid.toNat := by simp
      rw [hl, heq]
      decide

theorem exec_getLogPage (r : CmdRef) (lid : Byte) (off : Dword) (len : Word) (s : State) : exec (.getLogPage r lid off len) s =
    match logPage s lid.toNat with
    | some p => .next (complete s r .success 0 (fit len.toNat (p.drop off.toNat)))
    | none => .next (complete s r .invalidLogPage) := rfl

theorem getD_fit {n i : Nat} (bs : Bytes) (h : i < n) : (fit n bs).getD i 0 = bs.getD i 0 := by
  simp only [fit, List.getD_eq_getElem?_getD, List.getElem?_take, h, if_true, List.getElem?_append, List.getElem?_replicate]
  split
  · rfl
  · split <;> simp_all

/-! ### Abort -/

theorem exec_abort_some {s : State} {r : CmdRef} {q : Fin 65536} {cid : Half} {c : Cmd}
    (h : cmdAt s { ctrl := r.ctrl, sqid := q, cid := cid } = some c) : exec (.abort r q cid) s =
      if abortable c then .next (complete (complete (dropReads (bump s 14 4) c) { ctrl := r.ctrl, sqid := q, cid := cid } .abortRequested) r .success)
      else .next (complete (bump s 14 5) r .success 1) := by
  change execAbort r q cid s = _
  rw [cmdAt] at h
  rw [execAbort, h]

theorem exec_abort_none {s : State} {r : CmdRef} {q : Fin 65536} {cid : Half}
    (h : cmdAt s { ctrl := r.ctrl, sqid := q, cid := cid } = none) : exec (.abort r q cid) s = .next (complete (bump s 14 5) r .success 1) := by
  change execAbort r q cid s = _
  rw [cmdAt] at h
  rw [execAbort, h]

theorem abortable_of_zone {c : Cmd} (hst : c.st = .fetched) (hk : c.sqe.kind ∈ [IoKind.zoneSend, .zoneRecv]) : abortable c = true := by
  simp only [List.mem_cons, List.not_mem_nil, or_false] at hk
  unfold abortable
  obtain hk | hk := hk <;> simp [hk, hst]

theorem abortable_of_read {c : Cmd} (hr : isRead c = true) (hst : c.st ∈ [CmdSt.fetched, .admitted, .waiting, .media])
    (hg : c.granted = false) (hrem : c.remote = false) : abortable c = true := by
  simp only [List.mem_cons, List.not_mem_nil, or_false] at hst
  simp only [isRead, Bool.or_eq_true, beq_iff_eq] at hr
  unfold abortable
  obtain hr | hr := hr <;> obtain hst | hst | hst | hst := hst <;> simp [hr, hst, hg, hrem]

theorem not_abortable {c : Cmd} (h : isWrite c = true ∨ c.sqe.kind = .flush ∨ (isRead c = true ∧ c.granted = true)) : abortable c = false := by
  simp only [isWrite, isRead, Bool.or_eq_true, beq_iff_eq] at h
  unfold abortable
  obtain (h | h) | h | ⟨h | h, hg⟩ := h
  · simp [h]
  · simp [h]
  · simp [h]
  · simp [h, hg]
  · simp [h, hg]

/-! ### Features -/

theorem exec_setFeatures {s : State} {r : CmdRef} {f : Feature} {v : Dword} {save : Bool} (hok : featOk f v.toNat = true)
    (hs : save = false ∨ saveable f = true) : exec (.setFeatures r f v save) s =
      .next (complete (if save then saveFeature (setFeature s r.ctrl f v) f v else setFeature s r.ctrl f v) r .success
        (if f = .queues then BitVec.ofNat 64 (featDefault (if save then saveFeature (setFeature s r.ctrl f v) f v else setFeature s r.ctrl f v)
          .queues) else 0)) := by
  change execSetFeatures r f v save s = _
  unfold execSetFeatures
  rw [if_neg (by simp [hok]), if_neg (by obtain h | h := hs <;> simp [h])]

/-- Features whose value a controller holds. -/
theorem setFeature_of_ctrl {s : State} {n : Nat} {f : Feature} (v : Dword) (hf : f ∉ [Feature.queues, .timestamp, .flushMedia]) :
    setFeature s n f v = setCtrl s n { ctrlAt s n with features := ins (ctrlAt s n).features (fidOf f) v } := by
  cases f <;> first | rfl | exact absurd (by decide) hf

theorem fidOf_feature {s : State} {n : Nat} {f : Feature} (hf : f ∉ [Feature.queues, .timestamp, .flushMedia]) : featCurrent s n f =
    ((look (ctrlAt s n).features (fidOf f)).map (·.toNat)).getD (featSaved s f) := by
  unfold featCurrent
  split
  · exact absurd (by decide) hf
  · exact absurd (by decide) hf
  · exact absurd (by decide) hf
  · cases look (ctrlAt s n).features (fidOf f) <;> rfl

/-- The state with a value stored at its controller, saved too where asked. -/
def featureStored (s : State) (n : Nat) (f : Feature) (v : Dword) (save : Bool) : State :=
  if save then saveFeature (setFeature s n f v) f v else setFeature s n f v

theorem saveFeature_hiu (s : State) (f : Feature) (v : Dword) : (saveFeature s f v).hiu = s.hiu := rfl

theorem featSaved_saveFeature (s : State) (f : Feature) (v : Dword) : featSaved (saveFeature s f v) f = v.toNat := by
  have hsheet : sheet (saveFeature s f v) = { sheet s with features := ins (sheet s).features (fidOf f) v } := by
    have h : sheet (saveFeature s f v) = getD (ins s.bdy.sheets s.bdy.sheetActive { sheet s with features := ins (sheet s).features (fidOf f) v })
      {} s.bdy.sheetActive := rfl
    rw [h, getD, look_ins, if_pos rfl]
    rfl
  rw [featSaved, hsheet, look_ins, if_pos rfl]
  rfl

theorem featureStored_spec {s : State} {n : Nat} {f : Feature} (v : Dword) (save : Bool) (hf : f ∉ [Feature.queues, .timestamp, .flushMedia]) :
    let u := featureStored s n f v save
    featCurrent u n f = v.toNat ∧ (save = true → featSaved u f = v.toNat) ∧ (save = false → u.bdy = s.bdy) ∧
      (∀ m, m ≠ n → ctrlAt u m = ctrlAt s m) ∧ u.hiu.cmds = s.hiu.cmds := by
  intro u
  have hhiu : u.hiu = (setFeature s n f v).hiu := by
    simp only [u, featureStored]
    split <;> rfl
  have hctrl (m : Nat) : ctrlAt u m = if n = m then { ctrlAt s n with features := ins (ctrlAt s n).features (fidOf f) v } else ctrlAt s m := by
    simp only [ctrlAt, hhiu, setFeature_of_ctrl v hf]
    exact ctrlAt_setCtrl ..
  refine ⟨?_, fun h => ?_, fun h => ?_, fun m hm => ?_, ?_⟩
  · rw [fidOf_feature hf, hctrl, if_pos rfl, look_ins, if_pos rfl]
    rfl
  · have hu : u = saveFeature (setFeature s n f v) f v := if_pos h
    rw [hu, featSaved_saveFeature]
  · have hu : u = setFeature s n f v := if_neg (by simp [h])
    rw [hu, setFeature_of_ctrl v hf]
    rfl
  · rw [hctrl, if_neg (Ne.symm hm)]
  · rw [hhiu, setFeature_of_ctrl v hf]
    rfl

theorem hostTime_set (s : State) (v : Dword) :
    (hostTime { s with hiu := { s.hiu with timestamp := v &&& 0xFFFFFFFFFFFF, timestampAt := now s } }).toNat = v.toNat % 2 ^ 48 := by
  have hmask : (v &&& 0xFFFFFFFFFFFF).toNat = v.toNat % 2 ^ 48 := by
    rw [BitVec.toNat_and, ← Nat.and_two_pow_sub_one_eq_mod]
    rfl
  have hidem : v &&& 0xFFFFFFFFFFFF &&& 0xFFFFFFFFFFFF = v &&& 0xFFFFFFFFFFFF := by rw [BitVec.and_assoc, BitVec.and_self]
  have hzero : (s.tck.count - now s) / Config.ms = 0 := by rw [now, Nat.sub_self, Nat.zero_div]
  unfold hostTime
  dsimp only
  split
  case isTrue h => rw [← hmask, h]
  case isFalse =>
    have hadd : (v &&& 0xFFFFFFFFFFFF) + BitVec.ofNat 64 0 = v &&& 0xFFFFFFFFFFFF := BitVec.add_zero _
    rw [hzero, hadd, hidem, hmask]

theorem flushMedia_sent (s : State) (n : Nat) (v : Dword) : let u := setFeature s n .flushMedia v
    u.hiu.flushMedia = v.getLsbD 0 ∧ u.hiu.cmds = s.hiu.cmds ∧
      (s.spn.link = 2 → u.out = s.out ++ [{ cls := 3, msg := .mgmt (.flushMedia (v.getLsbD 0)) }]) := by
  have hhiu : (setFeature s n .flushMedia v).hiu = { s.hiu with flushMedia := v.getLsbD 0 } := send_hiu ..
  refine ⟨congrArg Hiu.flushMedia hhiu, (congrArg Hiu.cmds hhiu :), fun h => ?_⟩
  exact congrArg State.out (if_pos h :)

theorem exec_getFeatures_current {f : Feature} (s : State) (r : CmdRef) (hf : ∀ fid, f ≠ .other fid) : ∃ data, exec (.getFeatures r f 0) s =
    .next (complete s r .success (BitVec.ofNat 64 (featCurrent s r.ctrl f)) data) := by
  change ∃ data, execGetFeatures r f 0 s = _
  unfold execGetFeatures
  split
  case h_1 fid => exact absurd rfl (hf fid)
  case h_2 => exact ⟨_, rfl⟩

/-! ### Event requests -/

theorem exec_asyncEventRequest (s : State) (r : CmdRef) : exec (.asyncEventRequest r) s =
    if 16 ≤ (ctrlAt s r.ctrl).aers.length then .next (complete s r .aerLimit)
    else .next (deliver (setCtrl s r.ctrl { ctrlAt s r.ctrl with aers := (ctrlAt s r.ctrl).aers ++ [r.cid] }) r.ctrl) := rfl

theorem deliver_of_noEvent {s : State} {n : Nat} (h : (ctrlAt s n).events = []) : deliver s n = s := by
  unfold deliver
  dsimp only
  split
  case h_1 heq => exact absurd (h.symm.trans heq) (by simp)
  case h_2 => rfl

theorem deliver_of_event {s : State} {n : Fin 2} {cid : Half} {as : List Half} {ti lid : Nat} {es : List (Nat × Nat)}
    (ha : (ctrlAt s n).aers = cid :: as) (he : (ctrlAt s n).events = (ti, lid) :: es) : deliver s n =
      complete (setCtrl s n { ctrlAt s n with aers := as, events := es }) { ctrl := n, sqid := 0, cid := cid } .success
        (asyncWord (ti % 8) (ti / 256) lid) := by
  have hall : ∀ m : Fin 2, (if m.val = 0 then 0 else 1 : Fin 2) = m := by decide
  have hn := hall n
  unfold deliver
  dsimp only
  split
  case h_1 heq1 heq2 =>
    obtain ⟨rfl, rfl⟩ := List.cons.inj (ha.symm.trans heq1)
    obtain ⟨hp, rfl⟩ := List.cons.inj (he.symm.trans heq2)
    obtain ⟨rfl, rfl⟩ := Prod.mk.inj hp
    rw [hn]
    rfl
  case h_2 hno => exact (hno _ _ _ _ _ ha he).elim

theorem asyncEventRequest_waits {s : State} {r : CmdRef} (hlen : (ctrlAt s r.ctrl).aers.length < 16) (he : (ctrlAt s r.ctrl).events = []) :
    ∃ t, exec (.asyncEventRequest r) s = .next t ∧ ctrlAt t r.ctrl = { ctrlAt s r.ctrl with aers := (ctrlAt s r.ctrl).aers ++ [r.cid] } ∧
      t.hiu.comps = s.hiu.comps ∧ OnlyIn [.hiu] s t := by
  have hctrl := ctrlAt_setCtrl s r.ctrl r.ctrl { ctrlAt s r.ctrl with aers := (ctrlAt s r.ctrl).aers ++ [r.cid] }
  rw [if_pos rfl] at hctrl
  rw [exec_asyncEventRequest, if_neg (by omega), deliver_of_noEvent (by rw [hctrl]; exact he)]
  exact ⟨_, rfl, hctrl, rfl, onlyIn_of_follows (follows_setCtrl (by decide) (follows_refl s))⟩

theorem asyncEventRequest_delivers {s : State} {r : CmdRef} {ti lid : Nat} {es : List (Nat × Nat)} (ha : (ctrlAt s r.ctrl).aers = [])
    (he : (ctrlAt s r.ctrl).events = (ti, lid) :: es) : ∃ u, exec (.asyncEventRequest r) s =
        .next (complete u { ctrl := r.ctrl, sqid := 0, cid := r.cid } .success (asyncWord (ti % 8) (ti / 256) lid)) ∧
      ctrlAt u r.ctrl = { ctrlAt s r.ctrl with events := es } ∧ OnlyIn [.hiu] s u := by
  have hctrl := ctrlAt_setCtrl s r.ctrl r.ctrl { ctrlAt s r.ctrl with aers := (ctrlAt s r.ctrl).aers ++ [r.cid] }
  rw [if_pos rfl, ha, List.nil_append] at hctrl
  rw [exec_asyncEventRequest, if_neg (by simp [ha]), ha, List.nil_append,
    deliver_of_event (s := setCtrl ..) (congrArg Ctrl.aers hctrl) ((congrArg Ctrl.events hctrl).trans he)]
  refine ⟨_, rfl, ?_, onlyIn_of_follows (follows_setCtrl (by decide) (follows_setCtrl (by decide) (follows_refl s)))⟩
  rw [ctrlAt_setCtrl, if_pos rfl, hctrl, ← ha]

/-- Settles O43. -/
theorem adminCommandsAnswer : Obligations.AdminCommandsAnswer := by
  refine ⟨fun s r cns nsid => ⟨fun d h => exec_identify_some h, exec_identify_none, ⟨_, rfl, length_layout ..⟩⟩,
    fun s r lid off len => ⟨fun h => ?_, fun h => ?_⟩,
    fun s r q cid => ⟨fun c hc h => ?_, fun c hc h => ?_, exec_abort_none⟩,
    fun s r f v save => ⟨fun h => ?_, fun h hs hn => ?_, fun h hs hf => ?_⟩, fun s r v => ?_, fun s r v => ?_,
    fun s r f hf => exec_getFeatures_current s r hf,
    fun s r => ⟨fun h => if_pos h, asyncEventRequest_waits, fun ti lid es ha he => asyncEventRequest_delivers ha he⟩⟩
  · rw [exec_getLogPage, logPage_of_notMem s h]
  · obtain ⟨p, hp⟩ := logPage_of_mem s h
    refine ⟨p, fit len.toNat (p.drop off.toNat), hp, by rw [exec_getLogPage, hp], length_fit .., fun i hi => ?_⟩
    rw [getD_fit _ hi, List.getD_eq_getElem?_getD, List.getD_eq_getElem?_getD, List.getElem?_drop]
  · have ha : abortable c = true := h.elim (fun h => abortable_of_zone h.1 h.2) (fun h => abortable_of_read h.1 h.2.1 h.2.2.1 h.2.2.2)
    refine ⟨dropReads (bump s 14 4) c, by rw [exec_abort_some hc, if_pos ha], rfl, ?_⟩
    have hcount (u : State) : counter (dropReads u c) 14 4 = counter u 14 4 := rfl
    rw [hcount, counter_bump, if_pos rfl]
  · rw [exec_abort_some hc, if_neg (by rw [not_abortable h]; decide)]
  · exact if_pos (by simp [h])
  · exact (if_neg (by simp [h])).trans (if_pos (by simp [hs, hn]))
  · have hne : f ≠ .queues := fun h => hf (h ▸ List.mem_cons_self ..)
    have hexec := exec_setFeatures (r := r) (s := s) h hs
    rw [if_neg hne] at hexec
    refine ⟨_, hexec, featureStored_spec v save hf⟩
  · rw [exec_setFeatures rfl (.inl rfl), if_neg (by decide)]
    exact ⟨_, rfl, flushMedia_sent s r.ctrl v⟩
  · rw [exec_setFeatures rfl (.inl rfl), if_neg (by decide)]
    exact ⟨_, rfl, rfl, rfl, hostTime_set s v, rfl⟩

end Sys2Proof.Machine
end

section
/-! PROOFS. R241, R242, R337, R338: namespaces. -/

namespace Sys2Proof.Machine

/-! ### Completions and events leave the namespaces and zones -/

/-- The namespaces and zones of the host interface. -/
def nsOf (s : State) : Tbl Ns × Tbl Zone := (s.hiu.ns, s.hiu.zones)

theorem nsOf_setCtrl (s : State) (n : Nat) (c : Ctrl) : nsOf (setCtrl s n c) = nsOf s := rfl

theorem nsOf_interrupt (s : State) (n v : Nat) : nsOf (interrupt s n v) = nsOf s := by
  unfold interrupt
  dsimp only
  split <;> rfl

theorem nsOf_writeEntry (s : State) (c : Comp) : nsOf (writeEntry s c) = nsOf s := by
  unfold writeEntry
  split
  · rfl
  · dsimp only
    split
    · exact nsOf_interrupt ..
    · rfl

theorem nsOf_send (s : State) (m : SpineMsg) : nsOf (send s m) = nsOf s := by simp only [nsOf, send_hiu]

theorem nsOf_emit (s : State) (c : Comp) : nsOf (emit s c) = nsOf s := by
  unfold emit
  split
  · exact nsOf_send ..
  · split
    · rfl
    · exact nsOf_writeEntry ..

theorem nsOf_finishDelete (s : State) (e : Nat × Sq) : nsOf (finishDelete s e) = nsOf s := by
  unfold finishDelete
  split
  · split
    · rfl
    · exact nsOf_emit (dropSq s e.1 _) _
  · rfl

theorem nsOf_post (s : State) (c : Comp) : nsOf (post s c) = nsOf s := by
  rw [post_eq_finishDeletes, finishDeletes_eq_foldl, foldl_keeps nsOf nsOf_finishDelete]
  exact nsOf_emit s c

theorem nsOf_deliver (s : State) (n : Nat) : nsOf (deliver s n) = nsOf s := by
  unfold deliver
  dsimp only
  split
  · exact nsOf_post (setCtrl ..) _
  · rfl

theorem nsOf_asyncEvent (s : State) (t i l : Nat) : nsOf (asyncEvent s t i l) = nsOf s :=
  foldl_keeps nsOf (fun s n => nsOf_deliver (setCtrl s n _) n) _ s

theorem nsAt_of_nsOf {s t : State} (h : nsOf t = nsOf s) (n : Nat) : nsAt t n = nsAt s n :=
  congrArg (fun p : Tbl Ns × Tbl Zone => look p.1 n) h

theorem zoneAt_of_nsOf {s t : State} (h : nsOf t = nsOf s) (n z : Nat) : zoneAt t n z = zoneAt s n z :=
  congrArg (fun p : Tbl Ns × Tbl Zone => getD p.2 {} (zoneKey n z)) h

/-! ### Creation -/

@[simp] theorem slotAt_setSlot (s : State) (n m : Nat) (k : KeySlot) : slotAt (setSlot s n k) m = if n = m then k else slotAt s m := getD_put ..

theorem freeNsid_spec {s : State} {csi k : Nat} (h : freeNsid s csi = some k) :
    nsAt s k = none ∧ (csi = 0 → k = 1) ∧ (csi ≠ 0 → 2 ≤ k ∧ k ≤ 32) := by
  unfold freeNsid at h
  split at h
  case isTrue h0 =>
    split at h
    · exact absurd h (by simp)
    case isFalse hn =>
      obtain rfl := Option.some.inj h
      exact ⟨by simpa using hn, fun _ => rfl, fun hne => absurd h0 hne⟩
  case isFalse h0 =>
    have hmem := List.mem_of_find?_eq_some h
    have hnone := List.find?_some h
    obtain ⟨j, hj, rfl⟩ := List.mem_map.1 hmem
    rw [List.mem_range] at hj
    exact ⟨by simpa using hnone, fun h => absurd h h0, fun _ => by omega⟩

/-- The record of a namespace as it is created. -/
def newNs (s : State) (n : NsCreate) : Ns where
  csi := n.csi.toNat
  nsze := n.nsze
  lbaf := n.lbaf
  piType := n.piType
  piFirst := n.piFirst
  ana := n.anaGroup
  writeSlot := n.slot
  readSlots := [n.slot.val]
  tagOnly := n.mode == 1
  attached := [0, 1].flatMap (fun t => [1 + 2 * t] ++ (if s.tck.split then [2 + 2 * t] else []))

/-- The namespace's record is stored. -/
def nsStored (s : State) (k : Nat) (x : Ns) : State := { s with hiu := { s.hiu with ns := ins s.hiu.ns k x } }

theorem putNs_eq (s : State) (k : Nat) (n : NsCreate) : putNs s k n =
    asyncEvent (setSlot (nsStored s k (newNs s n)) n.slot { slotAt s n.slot with nsid := k, write := true }) 2 0 4 := rfl

theorem putNs_spec (s : State) (k : Nat) (n : NsCreate) : let u := putNs s k n
    nsAt u k = some (newNs s n) ∧ (∀ j, j ≠ k → nsAt u j = nsAt s j) ∧ u.spn = s.spn ∧
      slotAt u n.slot = { slotAt s n.slot with nsid := k, write := true } ∧ (∀ j, j ≠ n.slot.val → slotAt u j = slotAt s j) := by
  intro u
  have hns := nsOf_asyncEvent (setSlot (nsStored s k (newNs s n)) n.slot { slotAt s n.slot with nsid := k, write := true }) 2 0 4
  have hnsAt (j : Nat) : nsAt u j = if k = j then some (newNs s n) else nsAt s j := (nsAt_of_nsOf hns j).trans (look_ins ..)
  have hslot (j : Nat) : slotAt u j = if n.slot.val = j then { slotAt s n.slot with nsid := k, write := true } else slotAt s j := by
    have hkst : u.kst = (setSlot (nsStored s k (newNs s n)) n.slot { slotAt s n.slot with nsid := k, write := true }).kst := by
      simp only [u, putNs_eq, asyncEvent_frame]
    rw [slotAt, hkst]
    exact slotAt_setSlot ..
  refine ⟨by rw [hnsAt, if_pos rfl], fun j hj => by rw [hnsAt, if_neg (Ne.symm hj)], ?_, by rw [hslot, if_pos rfl],
    fun j hj => by rw [hslot, if_neg (Ne.symm hj)]⟩
  simp only [u, putNs_eq, asyncEvent_frame]
  rfl

section
variable {s : State} {r : CmdRef} {n : NsCreate}

theorem exec_namespaceCreate : exec (.namespaceCreate r n) s =
    if !nsCreateAllowed s then .next (complete s r .commandSequence)
    else if s.spn.link ≠ 2 ∨ s.spn.paired = false then .next (complete s r (.vendor 1))
    else if !nsFieldsOk n || !slotFree s n.slot then .next (complete s r .invalidField)
    else match freeNsid s n.csi.toNat with
      | none => .next (complete s r .nsidUnavailable)
      | some k => .next (complete (send (putNs s k n) (.mgmt (.namespaceCreate (BitVec.ofNat 32 k) n))) r .success (BitVec.ofNat 64 k)) := rfl

theorem nsCreateAllowed_iff : nsCreateAllowed s = true ↔ lifeCycle s = 1 ∨ lifeCycle s = 2 := by simp [nsCreateAllowed]

theorem namespaceCreate_creates {k : Nat} (hlink : s.spn.link = 2) :
    let u := send (putNs s k n) (.mgmt (.namespaceCreate (BitVec.ofNat 32 k) n))
    nsAt u k = some (newNs s n) ∧ (slotAt u n.slot).nsid = k ∧ (slotAt u n.slot).write = true ∧
      (∀ j, j ≠ k → nsAt u j = nsAt s j) ∧ (∀ j, j ≠ n.slot.val → slotAt u j = slotAt s j) ∧
      (∃ p ∈ u.out, p.msg = .mgmt (.namespaceCreate (BitVec.ofNat 32 k) n)) := by
  obtain ⟨hnew, hother, hspn, hslot, hslots⟩ := putNs_spec s k n
  generalize putNs s k n = t at hnew hother hspn hslot hslots ⊢
  intro u
  have hns (j : Nat) : nsAt u j = nsAt t j := nsAt_of_nsOf (nsOf_send t _) j
  have hsl (j : Nat) : slotAt u j = slotAt t j := by simp only [u, slotAt, send_frame]
  exact ⟨by rw [hns, hnew], by rw [hsl, hslot], by rw [hsl, hslot], fun j hj => by rw [hns, hother j hj],
    fun j hj => by rw [hsl, hslots j hj], mem_out_send _ (hspn ▸ hlink)⟩

theorem nsFieldsOk_spec (h : nsFieldsOk n = true) : (n.csi = 0 → n.nsze ≤ 67108864 ∧ n.nsze % 16 = 0) ∧
    (n.csi ≠ 0 → n.csi = 2 ∧ n.nsze ≤ 65536 * 1048576) ∧ (n.anaGroup = 1 ∨ n.anaGroup = 2) ∧ (n.lbaf = 0 → n.piType = 0) := by
  have hcsi (m : Byte) : n.csi.toNat = m.toNat ↔ n.csi = m := BitVec.toNat_inj
  simp only [nsFieldsOk, Bool.and_eq_true, Bool.or_eq_true, beq_iff_eq, decide_eq_true_eq, Bool.not_eq_eq_eq_not, Bool.not_true,
    Bool.and_eq_false_iff, beq_eq_false_iff_ne, bne_eq_false_iff_eq] at h
  obtain ⟨⟨⟨⟨⟨hkind, -⟩, hsize⟩, hpi⟩, hana⟩, -⟩ := h
  have hc0 := hcsi 0
  have hc2 := hcsi 2
  have t0 : (0 : Byte).toNat = 0 := rfl
  have t2 : (2 : Byte).toNat = 2 := rfl
  rw [t0] at hc0
  rw [t2] at hc2
  refine ⟨fun h0 => ?_, fun h0 => ?_, hana, fun hl => ?_⟩
  · rw [if_pos (hc0.2 h0)] at hsize
    simp only [Bool.and_eq_true, decide_eq_true_eq] at hsize
    exact ⟨hsize.2, hsize.1⟩
  · have hne : n.csi.toNat ≠ 0 := fun h => h0 (hc0.1 h)
    rw [if_neg hne] at hsize
    simp only [Bool.and_eq_true, decide_eq_true_eq] at hsize
    exact ⟨hc2.1 (hkind.resolve_left hne), hsize.2⟩
  · exact hpi.resolve_left (fun h => h hl)

end

/-! ### Deletion and attachment -/

/-- A namespace's record and its zones leave the host interface. -/
def withoutNs (s : State) (k : Nat) : State :=
  { s with hiu := { s.hiu with ns := del s.hiu.ns k, zones := s.hiu.zones.filter (fun e => decide (e.1 / 65536 ≠ k)) } }

/-- Key slot `n` is bound to no namespace. -/
def unbindSlot (s : State) (n : Nat) : State := setSlot s n { slotAt s n with nsid := 0, write := false }

/-- The Folio Map, which is of namespace 1, goes with it. -/
def dropMap (k : Nat) (s : State) : State := if k = 1 then { s with mem := { s.mem with map := [] } } else s

theorem dropNs_eq {s : State} {k : Nat} {n : Ns} (h : nsAt s k = some n) :
    dropNs s k = asyncEvent (dropMap k ((n.writeSlot :: n.readSlots).foldl unbindSlot (withoutNs s k))) 2 0 4 := by
  rw [dropNs, h]
  rfl

theorem nsOf_dropMap (k : Nat) (s : State) : nsOf (dropMap k s) = nsOf s := by
  unfold dropMap
  split <;> rfl

theorem dropMap_spn (k : Nat) (s : State) : (dropMap k s).spn = s.spn := by
  unfold dropMap
  split <;> rfl

theorem dropNs_nsOf {s : State} {k : Nat} {n : Ns} (h : nsAt s k = some n) : nsOf (dropNs s k) = nsOf (withoutNs s k) := by
  rw [dropNs_eq h, nsOf_asyncEvent, nsOf_dropMap]
  exact foldl_keeps (f := unbindSlot) nsOf (fun _ _ => rfl) ..

theorem dropNs_spn {s : State} {k : Nat} {n : Ns} (h : nsAt s k = some n) : (dropNs s k).spn = s.spn := by
  rw [dropNs_eq h]
  simp only [asyncEvent_frame]
  rw [dropMap_spn]
  exact foldl_keeps (f := unbindSlot) State.spn (fun _ _ => rfl) ..

theorem dropNs_spec {s : State} {k : Nat} (h : nsAt s k ≠ none) : let u := dropNs s k
    nsAt u k = none ∧ (∀ j, j ≠ k → nsAt u j = nsAt s j) ∧ (∀ z, z < 65536 → zoneAt u k z = {}) ∧ u.spn = s.spn := by
  obtain ⟨n, hn⟩ := Option.ne_none_iff_exists'.1 h
  have hof := dropNs_nsOf hn
  have hns (j : Nat) : nsAt (dropNs s k) j = if k = j then none else nsAt s j := (nsAt_of_nsOf hof j).trans (look_del ..)
  refine ⟨by rw [hns, if_pos rfl], fun j hj => by rw [hns, if_neg (Ne.symm hj)], fun z hz => ?_, dropNs_spn hn⟩
  have hkey : zoneKey k z / 65536 = k := by
    unfold zoneKey
    omega
  have hlook := look_filter s.hiu.zones (fun a => decide (a / 65536 ≠ k)) (zoneKey k z)
  rw [if_neg (by simp [hkey])] at hlook
  rw [zoneAt_of_nsOf hof]
  exact congrArg (fun o : Option Zone => o.getD {}) hlook

/-- The namespace with controllers attached to it or detached from it. -/
def withAttached (x : Ns) (cs : List Nat) (att : Bool) : Ns :=
  { x with attached := if att then x.attached ++ cs.filter (fun c => !x.attached.contains c) else x.attached.filter (fun c => !cs.contains c) }

theorem attachNs_eq {s : State} {k : Nat} {x : Ns} (h : nsAt s k = some x) (cs : List Nat) (att : Bool) : attachNs s k cs att =
    asyncEvent (nsStored s k (withAttached x cs att)) 2 0 4 := by
  rw [attachNs, h]
  rfl

theorem mem_withAttached (x : Ns) (cs : List Nat) (att : Bool) (c : Nat) :
    c ∈ (withAttached x cs att).attached ↔ if att then c ∈ x.attached ∨ c ∈ cs else c ∈ x.attached ∧ c ∉ cs := by
  cases att
  case true =>
    simp only [withAttached, if_true, List.mem_append, List.mem_filter, Bool.not_eq_eq_eq_not, Bool.not_true, List.contains_eq_mem,
      decide_eq_false_iff_not]
    tauto
  case false => simp [withAttached]

section
variable {s : State} {r : CmdRef} {nsid : Word} {cs : List Nat} {att : Bool}

theorem namespaceDelete_refuses (s : State) (r : CmdRef) (nsid : Word) :
    (lifeCycle s = 2 → exec (.namespaceDelete r nsid) s = .next (complete s r .invalidField)) ∧
    (lifeCycle s ≠ 1 → lifeCycle s ≠ 2 → exec (.namespaceDelete r nsid) s = .next (complete s r .commandSequence)) ∧
    (lifeCycle s = 1 → s.spn.link ≠ 2 ∨ s.spn.paired = false → exec (.namespaceDelete r nsid) s = .next (complete s r (.vendor 1))) := by
  change (_ → execNamespaceDelete r nsid s = _) ∧ (_ → _ → execNamespaceDelete r nsid s = _) ∧ (_ → _ → execNamespaceDelete r nsid s = _)
  unfold execNamespaceDelete
  exact ⟨fun h => if_pos h, fun h1 h2 => by rw [if_neg h2, if_pos h1],
    fun h1 hp => by rw [if_neg (by simp [h1]), if_neg (by simp [h1]), if_pos hp]⟩

theorem exec_namespaceDelete (h1 : lifeCycle s = 1) (hlink : s.spn.link = 2) (hp : s.spn.paired = true) (hall : nsid ≠ 0xFFFFFFFF) :
    exec (.namespaceDelete r nsid) s = if (nsAt s nsid.toNat).isNone then .next (complete s r .invalidNamespace)
      else .next (complete (send (dropNs s nsid.toNat) (.mgmt (.namespaceDelete nsid))) r .success) := by
  change execNamespaceDelete r nsid s = _
  unfold execNamespaceDelete
  rw [if_neg (by simp [h1]), if_neg (by simp [h1]), if_neg (by simp [hlink, hp])]
  dsimp only
  simp only [hall, ne_eq, not_false_eq_true, true_and, if_false, List.foldl]

theorem namespaceDelete_removes (h1 : lifeCycle s = 1) (hlink : s.spn.link = 2) (hp : s.spn.paired = true) (hall : nsid ≠ 0xFFFFFFFF)
    (hns : nsAt s nsid.toNat ≠ none) : ∃ u, exec (.namespaceDelete r nsid) s = .next (complete u r .success) ∧ nsAt u nsid.toNat = none ∧
      (∀ j, j ≠ nsid.toNat → nsAt u j = nsAt s j) ∧ (∀ z, z < 65536 → zoneAt u nsid.toNat z = {}) ∧
      (∃ p ∈ u.out, p.msg = .mgmt (.namespaceDelete nsid)) := by
  have hexec := exec_namespaceDelete (r := r) h1 hlink hp hall
  rw [if_neg (by simpa using hns)] at hexec
  obtain ⟨hgone, hother, hzones, hspn⟩ := dropNs_spec hns
  generalize dropNs s nsid.toNat = t at hexec hgone hother hzones hspn
  have hof := nsOf_send t (.mgmt (.namespaceDelete nsid))
  exact ⟨_, hexec, by rw [nsAt_of_nsOf hof, hgone], fun j hj => by rw [nsAt_of_nsOf hof, hother j hj],
    fun z hz => by rw [zoneAt_of_nsOf hof, hzones z hz], mem_out_send _ (hspn ▸ hlink)⟩

variable {x : Ns}

theorem exec_namespaceAttachment (hx : nsAt s nsid.toNat = some x) (hlc : lifeCycle s = 1 ∨ lifeCycle s = 2) :
    exec (.namespaceAttachment r nsid cs att) s =
      if cs.isEmpty || !cs.all (fun c => (allControllers s).contains c) then .next (complete s r .invalidControllerList)
      else if att && cs.any (fun c => x.attached.contains c) then .next (complete s r .nsAttached)
      else if !att && cs.any (fun c => !x.attached.contains c) then .next (complete s r .nsNotAttached)
      else .next (complete (send (attachNs s nsid.toNat cs att) (.mgmt (.namespaceAttach nsid cs att))) r .success) := by
  change execNamespaceAttachment r nsid cs att s = _
  unfold execNamespaceAttachment
  rw [hx]
  dsimp only
  rw [if_neg (by simp [nsCreateAllowed_iff.2 hlc])]

/-- With controllers of the pair only, attachment turns on which of them are attached. -/
theorem exec_namespaceAttachment_of_listed (hx : nsAt s nsid.toNat = some x) (hlc : lifeCycle s = 1 ∨ lifeCycle s = 2)
    (hne : cs ≠ []) (hall : ∀ c ∈ cs, c ∈ allControllers s) : exec (.namespaceAttachment r nsid cs att) s =
      if att && cs.any (fun c => x.attached.contains c) then .next (complete s r .nsAttached)
      else if !att && cs.any (fun c => !x.attached.contains c) then .next (complete s r .nsNotAttached)
      else .next (complete (send (attachNs s nsid.toNat cs att) (.mgmt (.namespaceAttach nsid cs att))) r .success) := by
  rw [exec_namespaceAttachment hx hlc, if_neg]
  simpa [hne] using hall

theorem attachNs_spec (hx : nsAt s nsid.toNat = some x) (cs : List Nat) (att : Bool) : let u := attachNs s nsid.toNat cs att
    ∃ y, nsAt u nsid.toNat = some y ∧ { y with attached := x.attached } = x ∧
      (∀ c, c ∈ y.attached ↔ if att then c ∈ x.attached ∨ c ∈ cs else c ∈ x.attached ∧ c ∉ cs) ∧
      (∀ j, j ≠ nsid.toNat → nsAt u j = nsAt s j) := by
  intro u
  have hof : nsOf u = nsOf (nsStored s nsid.toNat (withAttached x cs att)) := by
    simp only [u, attachNs_eq hx, nsOf_asyncEvent]
  have hns (j : Nat) : nsAt u j = if nsid.toNat = j then some (withAttached x cs att) else nsAt s j := (nsAt_of_nsOf hof j).trans (look_ins ..)
  exact ⟨withAttached x cs att, by rw [hns, if_pos rfl], rfl, mem_withAttached x cs att, fun j hj => by rw [hns, if_neg (Ne.symm hj)]⟩

theorem namespaceAttachment_attaches (hx : nsAt s nsid.toNat = some x) (hlc : lifeCycle s = 1 ∨ lifeCycle s = 2)
    (hne : cs ≠ []) (hall : ∀ c ∈ cs, c ∈ allControllers s) (hatt : ∀ c ∈ cs, (c ∈ x.attached ↔ att = false)) :
    ∃ u y, exec (.namespaceAttachment r nsid cs att) s = .next (complete u r .success) ∧
      nsAt u nsid.toNat = some y ∧ { y with attached := x.attached } = x ∧
      (∀ c, c ∈ y.attached ↔ if att then c ∈ x.attached ∨ c ∈ cs else c ∈ x.attached ∧ c ∉ cs) ∧
      (∀ j, j ≠ nsid.toNat → nsAt u j = nsAt s j) := by
  have hexec := exec_namespaceAttachment_of_listed (r := r) (att := att) hx hlc hne hall
  rw [if_neg, if_neg] at hexec
  · obtain ⟨y, hy, hrest, hmem, hother⟩ := attachNs_spec hx cs att
    have hof := nsOf_send (attachNs s nsid.toNat cs att) (.mgmt (.namespaceAttach nsid cs att))
    exact ⟨_, y, hexec, by rw [nsAt_of_nsOf hof, hy], hrest, hmem, fun j hj => by rw [nsAt_of_nsOf hof, hother j hj]⟩
  · cases att <;> simp_all
  · cases att <;> simp_all

end

end Sys2Proof.Machine

namespace Sys2Proof
open Machine

/-- Settles O44, clause by clause from the refusals of creation, deletion and attachment and from what each does. -/
theorem namespacesComeAndGo : Obligations.NamespacesComeAndGo := by
  unfold Obligations.NamespacesComeAndGo
  refine ⟨fun s r n => ⟨fun h1 h2 => ?_, fun hlc => ⟨fun hp => ?_, fun hlink hp => ⟨fun hbad => ?_, fun hok hfree => ⟨fun hn => ?_, fun k hk => ?_⟩⟩⟩,
    nsFieldsOk_spec⟩, fun s r nsid => ?_, fun s r nsid cs att => ⟨fun hn => ?_, fun x hx hlc => ⟨fun hbad => ?_, fun hne hall =>
      ⟨fun hany ha => ?_, fun hany ha => ?_, namespaceAttachment_attaches hx hlc hne hall⟩⟩⟩⟩
  · have hno : ¬ nsCreateAllowed s = true := fun h => (nsCreateAllowed_iff.1 h).elim h1 h2
    rw [exec_namespaceCreate, if_pos (by simpa using hno)]
  · rw [exec_namespaceCreate, if_neg (by simp [nsCreateAllowed_iff.2 hlc]), if_pos hp]
  · rw [exec_namespaceCreate, if_neg (by simp [nsCreateAllowed_iff.2 hlc]), if_neg (by simp [hlink, hp]), if_pos (by simpa using hbad)]
  · rw [exec_namespaceCreate, if_neg (by simp [nsCreateAllowed_iff.2 hlc]), if_neg (by simp [hlink, hp]), if_neg (by simp [hok, hfree]), hn]
  · obtain ⟨hnone, hconv, hzoned⟩ := freeNsid_spec hk
    have hcsi (m : Byte) : n.csi.toNat = m.toNat ↔ n.csi = m := BitVec.toNat_inj
    obtain ⟨hnew, hbound, hwrite, hother, hslots, hout⟩ := namespaceCreate_creates (k := k) (n := n) hlink
    refine ⟨hnone, fun h => hconv ((hcsi 0).2 h), fun h => hzoned (fun h' => h ((hcsi 0).1 h')), _, _, ?_, hnew,
      rfl, rfl, rfl, rfl, rfl, rfl, hbound, hwrite, hother, hslots, hout⟩
    rw [exec_namespaceCreate, if_neg (by simp [nsCreateAllowed_iff.2 hlc]), if_neg (by simp [hlink, hp]), if_neg (by simp [hok, hfree]), hk]
  · obtain ⟨hsealed, hother, hpair⟩ := namespaceDelete_refuses s r nsid
    refine ⟨hsealed, hother, hpair, fun h1 hlink hp hall => ⟨fun hn => ?_, namespaceDelete_removes h1 hlink hp hall⟩⟩
    rw [exec_namespaceDelete h1 hlink hp hall, if_pos (by simp [hn])]
  · change execNamespaceAttachment r nsid cs att s = _
    rw [execNamespaceAttachment, hn]
  · rw [exec_namespaceAttachment hx hlc, if_pos (by simpa using hbad)]
  · rw [exec_namespaceAttachment_of_listed hx hlc hne hall, if_pos (by simpa [ha] using hany)]
  · rw [exec_namespaceAttachment_of_listed hx hlc hne hall, if_neg (by simp [ha]), if_pos (by simpa [ha] using hany)]

end Sys2Proof
end

section
/-! PROOFS. R348 to R351, R353, R359 to R361: firmware. -/

namespace Sys2Proof.Machine

/-! ### The staging buffer -/

theorem stageAt_spec (old : Bytes) (off : Nat) (data : Bytes) :
    ((stageAt old off data).drop off).take data.length = data ∧
    (∀ i, i < off → (stageAt old off data).getD i 0 = old.getD i 0) ∧
    (∀ i, off + data.length ≤ i → (stageAt old off data).getD i 0 = old.getD i 0) := by
  have hlen : (fit off old).length = off := length_fit ..
  have hpre : (fit off old ++ data).length = off + data.length := by rw [List.length_append, hlen]
  refine ⟨?_, fun i hi => ?_, fun i hi => ?_⟩
  · rw [stageAt, List.append_assoc, List.drop_append_of_le_length (Nat.le_of_eq hlen.symm),
      List.drop_of_length_le (Nat.le_of_eq hlen), List.nil_append, List.take_left]
  · rw [stageAt, List.append_assoc, List.getD_append _ _ _ _ (Nat.lt_of_lt_of_eq hi hlen.symm), getD_fit _ hi]
  · rw [stageAt, List.getD_append_right _ _ _ _ (hpre ▸ hi), hpre, List.getD_eq_getElem?_getD, List.getElem?_drop,
      ← List.getD_eq_getElem?_getD, Nat.add_sub_cancel' hi]

/-! ### The directory (R349) -/

/-- Copy `k` of the directory, where it is valid. -/
def validDir (b : Bdy) (k : Nat) : Option DirCopy := (look b.dirs k).filter dirValid

/-- The number of the newer of two copies. -/
def newerOf : Option DirCopy → Option DirCopy → Option Nat
  | some x, some y => some (if x.seq < y.seq then 1 else 0)
  | some _, none => some 0
  | none, some _ => some 1
  | none, none => none

theorem newestDir_eq (b : Bdy) : newestDir b = newerOf (validDir b 0) (validDir b 1) := by
  unfold newestDir newerOf validDir
  rfl

theorem getD_of_validDir {b : Bdy} {k : Nat} {x : DirCopy} (h : validDir b k = some x) : getD b.dirs {} k = x := by
  rw [getD, (Option.filter_eq_some_iff.1 h).1]
  rfl

/-- The directory after copy `j` is written. -/
theorem validDir_ins (b : Bdy) {j : Nat} {d : DirCopy} (hv : dirValid d = true) (k : Nat) :
    validDir { b with dirs := ins b.dirs j d } k = if j = k then some d else validDir b k := by
  unfold validDir
  rw [look_ins]
  split
  · exact if_pos hv
  · rfl

/-- The copy that holds the older sequence, or copy 0. -/
def olderDir (b : Bdy) : Nat := (newestDir b).elim 0 (1 - ·)

theorem directoryInForce_of_newest {b : Bdy} {k : Nat} {x : DirCopy} (hk : newestDir b = some k) (hx : validDir b k = some x) :
    directoryInForce b = x := by
  rw [directoryInForce, hk]
  exact getD_of_validDir hx

/-- The copy written over the older one with the next sequence is the newest. -/
theorem newestDir_ins {b : Bdy} {d : DirCopy} (hv : dirValid d = true) (hseq : d.seq = (directoryInForce b).seq + 1) :
    newestDir { b with dirs := ins b.dirs (olderDir b) d } = some (olderDir b) := by
  rw [newestDir_eq, validDir_ins b hv, validDir_ins b hv]
  have hnew := newestDir_eq b
  cases h0 : validDir b 0 with
  | none =>
    cases h1 : validDir b 1 with
    | none => simp [olderDir, hnew, h0, h1, newerOf]
    | some y =>
      rw [h0, h1, newerOf] at hnew
      rw [directoryInForce_of_newest hnew h1] at hseq
      simp [olderDir, hnew, newerOf, hseq]
  | some x =>
    cases h1 : validDir b 1 with
    | none =>
      rw [h0, h1, newerOf] at hnew
      rw [directoryInForce_of_newest hnew h0] at hseq
      simp [olderDir, hnew, newerOf, hseq]
    | some y =>
      rw [h0, h1, newerOf] at hnew
      by_cases hlt : x.seq < y.seq
      · rw [if_pos hlt] at hnew
        rw [directoryInForce_of_newest hnew h1] at hseq
        simp [olderDir, hnew, newerOf, hseq]
      · rw [if_neg hlt] at hnew
        rw [directoryInForce_of_newest hnew h0] at hseq
        simp [olderDir, hnew, newerOf, hseq]

theorem directoryInForce_ins {b : Bdy} {d : DirCopy} (hv : dirValid d = true) (hseq : d.seq = (directoryInForce b).seq + 1) :
    directoryInForce { b with dirs := ins b.dirs (olderDir b) d } = d := by
  exact directoryInForce_of_newest (newestDir_ins hv hseq) (by rw [validDir_ins b hv, if_pos rfl])

/-- The copy of the directory that `fileDirectory` writes. -/
def filedDir (b : Bdy) : DirCopy :=
  let d : DirCopy := { seq := (directoryInForce b).seq + 1, running := b.running, pendingSlot := b.pendingSlot
                       attempts := b.attempts, sheetActive := b.sheetActive }
  { d with crc := crc32c (dirBytes d) }

theorem fileDirectory_bdy (s : State) : (fileDirectory s).bdy = { s.bdy with dirs := ins s.bdy.dirs (olderDir s.bdy) (filedDir s.bdy) } := rfl

theorem directoryInForce_fileDirectory (s : State) : directoryInForce (fileDirectory s).bdy = filedDir s.bdy := by
  have hv : dirValid (filedDir s.bdy) = true := decide_eq_true rfl
  rw [fileDirectory_bdy]
  exact directoryInForce_ins hv rfl

/-! ### Download and commit (R350, R359) -/

section
variable {s : State} {r : CmdRef} {slot : BitVec 3} {off : Word} {data : Bytes}

theorem firmware_of_retired (h : lifeRetired s = true) : ∀ c ∈ [Instr.firmwareImageDownload r off data, .fwCommitReplace r slot,
    .fwCommitReplacePending r slot, .fwCommitPending r slot, .fwCommitActivate r slot], exec c s = .next (complete s r .commandSequence) := by
  have hcommit : commitFault s false slot.toNat = some .commandSequence := if_pos h
  have hact : activateFault s false slot.toNat = some .commandSequence := if_pos h
  intro c hc
  simp only [List.mem_cons, List.not_mem_nil, or_false] at hc
  rcases hc with rfl | rfl | rfl | rfl | rfl
  · exact if_pos h
  · change execFwCommitReplace r slot s = _
    rw [execFwCommitReplace, hcommit]
  · change execFwCommitReplacePending r slot s = _
    rw [execFwCommitReplacePending, hcommit]
  · exact if_pos h
  · change execFwCommitActivate r slot s = _
    rw [execFwCommitActivate, hact]

theorem exec_download (h : lifeRetired s = false) : exec (.firmwareImageDownload r off data) s =
    if data.length % 4 ≠ 0 ∨ Config.fwSlotBytes < 4 * off.toNat + data.length then .next (complete s r .invalidField)
    else if stagingBusy s false then .next (complete s r (.vendor 4))
    else .next (complete (stageChunk s false (4 * off.toNat) data) r .success) := by
  change execFirmwareImageDownload r off data s = _
  rw [execFirmwareImageDownload, if_neg (Bool.eq_false_iff.1 h)]

theorem commitFault_none {mi : Bool} {slot : Nat} (h : commitFault s mi slot = none) :
    lifeRetired s = false ∧ stagingBusy s mi = false ∧ (slot = 1 ∨ slot = 2) ∧ s.bdy.staging ≠ none ∧
      (fwValid s (stagedImage s) = true ∧ fwFits (stagedImage s) = true) ∧ runningSlot s (stagedImage s).kind ≠ slot := by
  unfold commitFault at h
  split at h
  · cases h
  case isFalse hret =>
  split at h
  · cases h
  case isFalse hbusy =>
  split at h
  · cases h
  case isFalse hslot =>
  split at h
  · cases h
  case h_2 b hb =>
  have hi : stagedImage s = parseImage b := by rw [stagedImage, hb]; rfl
  dsimp only at h
  rw [← hi] at h
  split at h
  · cases h
  case isFalse hok =>
  split at h
  · cases h
  case isFalse hrun =>
  exact ⟨Bool.eq_false_iff.2 hret, Bool.eq_false_iff.2 hbusy, by omega, by simp [hb], by simpa using hok, hrun⟩

theorem fwValid_floor {i : FwImage} (h : fwValid s i = true) : fwFloor s ≤ i.secVersion := by
  simp only [fwValid, Bool.and_eq_true, decide_eq_true_eq] at h
  exact h.2

theorem fwValid_kind {i : FwImage} (h : fwValid s i = true) : i.kind = 1 ∨ i.kind = 2 := by
  simp only [fwValid, Bool.and_eq_true, Bool.or_eq_true, beq_iff_eq] at h
  obtain ⟨⟨⟨⟨-, hkind⟩, -⟩, -⟩, -⟩ := h
  exact hkind

theorem slotImage_writeSlot {i : FwImage} {n m : Nat} {k : Byte} (hi : i.kind = 1 ∨ i.kind = 2) (hk : k = 1 ∨ k = 2) :
    slotImage (writeSlot s i n) k m = if k = i.kind ∧ n = m then some i else slotImage s k m := by
  unfold slotImage writeSlot
  rcases hi with hi | hi <;> rcases hk with rfl | rfl <;> simp [hi, look_ins]

/-- Writing a slot changes the staging buffer and the slots of the image's kind, and nothing else. -/
theorem writeSlot_spec (s : State) (i : FwImage) (n : Nat) : let u := writeSlot s i n
    u.bdy.staging = none ∧ u.bdy.pendingSlot = s.bdy.pendingSlot ∧ u.bdy.attempts = s.bdy.attempts ∧
      u.bdy.booted = s.bdy.booted ∧ u.bdy.running_ = s.bdy.running_ ∧ u.bdy.running = s.bdy.running ∧ OnlyIn [.bdy] s u := by
  intro u
  refine ⟨?_, ?_, ?_, ?_, ?_, ?_, onlyIn_of_follows (parts := [.bdy]) (follows_writeSlot (by decide) (follows_refl s))⟩ <;>
  · simp only [u, writeSlot]
    split <;> rfl

theorem slotImage_makePending (s : State) (n : Nat) (k : Byte) (m : Nat) : slotImage (makePending s n) k m = slotImage s k m := rfl

theorem fwCommit_writes (h : commitFault s false slot.toNat = none) : let n := slot.toNat
    let i := stagedImage s
    ∃ u v, exec (.fwCommitReplace r slot) s = .next (complete u r .success) ∧
      exec (.fwCommitReplacePending r slot) s = .next (complete v r .success) ∧
      slotImage u i.kind n = some i ∧ slotImage v i.kind n = some i ∧
      (∀ k m, (k = 1 ∨ k = 2) → k ≠ i.kind ∨ m ≠ n → slotImage u k m = slotImage s k m ∧ slotImage v k m = slotImage s k m) ∧
      u.bdy.staging = none ∧ u.bdy.pendingSlot = s.bdy.pendingSlot ∧ u.bdy.attempts = s.bdy.attempts ∧ v.bdy.staging = none ∧ v.bdy.pendingSlot = n ∧ v.bdy.attempts = 3 ∧
      u.bdy.booted = s.bdy.booted ∧ u.bdy.running_ = s.bdy.running_ ∧ OnlyIn [.bdy] s u ∧ OnlyIn [.bdy] s v := by
  intro n i
  obtain ⟨-, -, -, -, ⟨hvalid, -⟩, -⟩ := commitFault_none h
  have hkind := fwValid_kind hvalid
  have hslots (k : Byte) (m : Nat) (hk : k = 1 ∨ k = 2) := slotImage_writeSlot (s := s) (n := n) (m := m) hkind hk
  obtain ⟨hst, hpend, hatt, hboot, hrun, -, honly⟩ := writeSlot_spec s i n
  refine ⟨writeSlot s i n, makePending (writeSlot s i n) n, ?_, ?_, ?_, ?_, fun k m hk hne => ?_, hst, hpend, hatt, hst, rfl, rfl, hboot, hrun,
    honly, onlyIn_trans honly (onlyIn_of_follows (parts := [.bdy]) (follows_makePending (by decide) (follows_refl _)))⟩
  · change execFwCommitReplace r slot s = _
    rw [execFwCommitReplace, h]
  · change execFwCommitReplacePending r slot s = _
    rw [execFwCommitReplacePending, h]
  · rw [hslots _ _ hkind, if_pos ⟨rfl, rfl⟩]
  · rw [slotImage_makePending, hslots _ _ hkind, if_pos ⟨rfl, rfl⟩]
  · have hno : ¬ (k = i.kind ∧ n = m) := fun ⟨hki, hnm⟩ => hne.elim (fun h => h hki) (fun h => h hnm.symm)
    rw [slotImage_makePending, hslots k m hk, if_neg hno]
    exact ⟨rfl, rfl⟩

theorem exec_fwCommitPending (hr : lifeRetired s = false) (hb : stagingBusy s false = false) : exec (.fwCommitPending r slot) s =
    if slot.toNat ≠ 1 ∧ slot.toNat ≠ 2 then .next (complete s r .invalidFwSlot)
    else if !slotValid s slot.toNat then .next (complete s r .invalidFwImage)
    else .next (complete (makePending s slot.toNat) r .success) := by
  have h1 : slot = 1 ↔ slot.toNat = 1 := BitVec.toNat_inj.symm
  have h2 : slot = 2 ↔ slot.toNat = 2 := BitVec.toNat_inj.symm
  change execFwCommitPending r slot s = _
  rw [execFwCommitPending, if_neg (Bool.eq_false_iff.1 hr), if_neg (Bool.eq_false_iff.1 hb)]
  simp only [ne_eq, h1, h2]

theorem makePending_spec (s : State) (n : Nat) : let u := makePending s n
    u.bdy.pendingSlot = n ∧ u.bdy.attempts = 3 ∧ (directoryInForce u.bdy).pendingSlot = n ∧ (directoryInForce u.bdy).attempts = 3 ∧
      { u.bdy with pendingSlot := s.bdy.pendingSlot, attempts := s.bdy.attempts, dirs := s.bdy.dirs } = s.bdy ∧ OnlyIn [.bdy] s u := by
  intro u
  have hdir : directoryInForce u.bdy = filedDir { s.bdy with pendingSlot := n, attempts := 3 } := directoryInForce_fileDirectory _
  exact ⟨rfl, rfl, by rw [hdir]; rfl, by rw [hdir]; rfl, rfl,
    onlyIn_of_follows (parts := [.bdy]) (follows_makePending (by decide) (follows_refl s))⟩

/-! ### Activation (R269, R360, R361) -/

theorem pauseFetch_spec (s : State) (n : Nat) : let u := pauseFetch s n
    u.pwr.activating = n ∧ u.cmd = { s.cmd with fetchPaused := true, pausedAt := now s } ∧ u.bdy.commitBusy = true ∧
      u.bdy.booted = s.bdy.booted ∧ u.bdy.running = s.bdy.running ∧ u.hiu = s.hiu := ⟨rfl, rfl, rfl, rfl, rfl, rfl⟩

theorem beginActivation_spec (s : State) (n : Nat) : let u := beginActivation s n
    u.pwr.activating = n ∧ u.cmd = { s.cmd with fetchPaused := true, pausedAt := now s } ∧ u.bdy.commitBusy = true ∧
      u.bdy.booted = s.bdy.booted ∧ u.bdy.running = s.bdy.running ∧ u.hiu = s.hiu := by
  obtain ⟨-, -, -, hboot, -, hrun, honly⟩ := writeSlot_spec s (stagedImage s) n
  have hcmd : (writeSlot s (stagedImage s) n).cmd = s.cmd := honly.2 .cmd (by decide)
  have htck : (writeSlot s (stagedImage s) n).tck = s.tck := honly.2 .tck (by decide)
  have hhiu : (writeSlot s (stagedImage s) n).hiu = s.hiu := honly.2 .hiu (by decide)
  unfold beginActivation
  obtain ⟨hact, hpaused, hbusy, hb, hr, hh⟩ := pauseFetch_spec (if s.bdy.staging.isSome then writeSlot s (stagedImage s) n else s) n
  refine ⟨hact, hpaused.trans ?_, hbusy, hb.trans ?_, hr.trans ?_, hh.trans ?_⟩ <;> split
  · rw [hcmd, now, htck]
    rfl
  · rfl
  · exact hboot
  · rfl
  · exact hrun
  · rfl
  · exact hhiu
  · rfl

theorem fwCommitActivate_begins (h : activateFault s false slot.toNat = none) :
    ∃ u, exec (.fwCommitActivate r slot) s = .next (complete u r .success) ∧ u.pwr.activating = slot.toNat ∧
      u.cmd = { s.cmd with fetchPaused := true, pausedAt := now s } ∧ u.bdy.commitBusy = true ∧ u.bdy.booted = s.bdy.booted ∧
      u.bdy.running = s.bdy.running ∧ u.hiu = s.hiu := by
  refine ⟨beginActivation s slot.toNat, ?_, beginActivation_spec s slot.toNat⟩
  change execFwCommitActivate r slot s = _
  rw [execFwCommitActivate, h]

theorem activateFault_of_prohibited {n : Nat} (h : commitFault s false n = none) (hp : prohibited s (stagedImage s) = true) :
    activateFault s false n = some .fwProhibited := by
  obtain ⟨hret, -, -, hst, -⟩ := commitFault_none h
  rw [activateFault, if_neg (Bool.eq_false_iff.1 hret), if_pos (Option.isSome_iff_ne_none.2 hst), h]
  exact if_pos hp

theorem prohibited_of (s : State) (i : FwImage) (h : s.mem.dumping = true ∨ s.mem.replaying = true ∨ s.kst.transition ≠ none ∨
    s.bnd.structural ≠ none ∨ s.bnd.trim ≠ none ∨ (∃ b, b < 8 ∧ ((pairAt s b).resync ≠ 0 ∨ (pairAt s b).handover ≠ 0)) ∨
    i.spineVersion ≠ s.bdy.running_.spineVersion ∨ i.kind = 1) : prohibited s i = true := by
  simp only [prohibited, pairMoves, Bool.or_eq_true, List.any_eq_true, List.mem_range, bne_iff_ne, beq_iff_eq, Option.isSome_iff_ne_none]
  rcases h with h | h | h | h | h | h | h | h
  all_goals simp only [h, ne_eq, not_false_eq_true, true_or, or_true]

end

/-- The image of the slot that is activated runs. -/
def handedOff (s : State) : State :=
  { s with bdy := { s.bdy with booted := s.pwr.activating, running_ := (look s.bdy.fwSlots s.pwr.activating).getD {} } }

/-- What an activation waits for: its new image runs only once fetch has stopped for 100 ms or every admitted command has completed. -/
theorem exec_fetchPauseHandoff {s : State} (hp : s.cmd.fetchPaused = true) (ha : s.pwr.activating ≠ 0)
    (hb : s.bdy.booted ≠ s.pwr.activating) : exec .fetchPauseHandoff s =
    if now s < s.cmd.pausedAt + 25000 ∧ ∃ c ∈ s.hiu.cmds, c.st ≠ .fetched then .next s
    else .next (writeColophon (handedOff s) 1) := by
  change execFetchPauseHandoff s = _
  unfold execFetchPauseHandoff
  dsimp only
  congr 1
  simp [hp, ha, hb]

theorem fetchPauseHandoff_runs {s : State} (hp : s.cmd.fetchPaused = true) (ha : s.pwr.activating ≠ 0)
    (hb : s.bdy.booted ≠ s.pwr.activating) (h : s.cmd.pausedAt + 25000 ≤ now s ∨ (∀ c ∈ s.hiu.cmds, c.st = .fetched)) :
    ∃ t, exec .fetchPauseHandoff s = .next t ∧ t.bdy.booted = s.pwr.activating ∧
      t.bdy.running_ = (look s.bdy.fwSlots s.pwr.activating).getD {} ∧ (∃ c, t.bdy.colophon.getLast? = some c ∧ c.reason = 1) ∧ t.hiu = s.hiu ∧
      t.cmd = s.cmd ∧ counter t 0 0 = counter s 0 0 + 1 ∧ OnlyIn [.bdy, .cnt] s t := by
  have hexec := exec_fetchPauseHandoff hp ha hb
  rw [if_neg (fun ⟨hlt, c, hc, hne⟩ => h.elim (fun h => by omega) (fun h => hne (h c hc)))] at hexec
  refine ⟨_, hexec, rfl, rfl, writeColophon_last _ 1, ?_, ?_, counter_bump .., onlyIn_of_follows (parts := [.bdy, .cnt])
    (follows_writeColophon (by decide) (upd_bdy (bdy' := (handedOff s).bdy) (by decide) rfl rfl (follows_refl s)))⟩
  · simp only [writeColophon_frame]
    rfl
  · simp only [writeColophon_frame]
    rfl

/-- Fetch resumes under the image of the slot activated, which the directory is to name. -/
def resumed (s : State) (k : Nat) : State :=
  { s with
    pwr := { s.pwr with activating := 0 }, cmd := { s.cmd with fetchPaused := false }
    bdy := { s.bdy with running := k, commitBusy := false, pendingSlot := if s.bdy.pendingSlot = k then 0 else s.bdy.pendingSlot } }

theorem exec_activationFetchResume {s : State} (hp : s.cmd.fetchPaused = true) (ha : s.pwr.activating ≠ 0) : exec .activationFetchResume s =
    if s.bdy.booted ≠ s.pwr.activating ∨ s.cmd.pausedAt + 50000 < now s then .next s
    else .next (fileDirectory (resumed (countEvent s 0 1 0) s.pwr.activating)) := by
  change execActivationFetchResume s = _
  unfold execActivationFetchResume
  dsimp only
  congr 1
  simp [hp, ha]

theorem activationFetchResume_resumes {s : State} (hp : s.cmd.fetchPaused = true) (ha : s.pwr.activating ≠ 0)
    (hb : s.bdy.booted = s.pwr.activating) (ht : now s ≤ s.cmd.pausedAt + 50000) :
    ∃ t, exec .activationFetchResume s = .next t ∧ t.cmd.fetchPaused = false ∧
      t.pwr.activating = 0 ∧ t.bdy.running = s.pwr.activating ∧ (directoryInForce t.bdy).running = s.pwr.activating ∧ t.bdy.commitBusy = false ∧
      counter t 0 1 = counter s 0 1 + 1 ∧ t.hiu = s.hiu := by
  have hexec := exec_activationFetchResume hp ha
  rw [if_neg (by simpa [hb] using ht)] at hexec
  refine ⟨_, hexec, rfl, rfl, rfl, by rw [directoryInForce_fileDirectory]; rfl, rfl, ?_, ?_⟩
  · have hcount : counter (countEvent s 0 1 0) 0 1 = counter s 0 1 + 1 := by rw [counter_countEvent, if_pos rfl]
    generalize countEvent s 0 1 0 = u at hcount ⊢
    exact hcount
  · have hhiu : (countEvent s 0 1 0).hiu = s.hiu := by simp only [countEvent_hiu]
    generalize countEvent s 0 1 0 = u at hhiu ⊢
    exact hhiu

/-- The slot that was to be activated is pending no longer. -/
def notPending (s : State) (k : Nat) : State := { s with bdy := { s.bdy with pendingSlot := if s.bdy.pendingSlot = k then 0 else s.bdy.pendingSlot } }

theorem exec_activationTimeout {s : State} (hp : s.cmd.fetchPaused = true) (ha : s.pwr.activating ≠ 0) : exec .activationTimeout s =
    if now s < s.cmd.pausedAt + 50000 then .next s
    else .next (countEvent (fileDirectory (notPending (warmed s .warm 3) s.pwr.activating)) 0 2 2) := by
  change execActivationTimeout s = _
  unfold execActivationTimeout
  dsimp only
  congr 1
  simp [hp, ha]

/-- A warm reset keeps the counters of blocks 1 and 2 only. -/
theorem counter_warmed (s : State) (ph : Phase) (c i : Nat) (hi : i < 32) : counter (warmed s ph c) 0 i = 0 := by
  have hlook := look_filter s.cnt (fun a => decide (a / 32 = 1) || decide (a / 32 = 2)) (0 * 32 + i)
  rw [if_neg (by simp; omega)] at hlook
  exact congrArg (fun o : Option Dword => o.getD 0) hlook

theorem event_keeps (s : State) (blk i sev : Nat) : let u := countEvent s blk i sev
    u.pwr = s.pwr ∧ u.tck = s.tck ∧ u.cmd = s.cmd ∧ u.bdy.running = s.bdy.running ∧ u.bdy.pendingSlot = s.bdy.pendingSlot :=
  ⟨by simp, by simp, by simp, rfl, rfl⟩

theorem activationTimeout_resets {s : State} (hp : s.cmd.fetchPaused = true) (ha : s.pwr.activating ≠ 0) (ht : s.cmd.pausedAt + 50000 ≤ now s) :
    ∃ t, exec .activationTimeout s = .next t ∧ t.pwr.phase = .warm ∧ t.cmd.fetchPaused = false ∧
      t.bdy.running = (directoryInForce s.bdy).running ∧ t.bdy.pendingSlot ≠ s.pwr.activating ∧ t.pwr.resetCause = s.pwr.resetCause ||| 8 ∧
      t.tck.aliveOut = false ∧ counter t 0 2 = 1 := by
  have hexec := exec_activationTimeout hp ha
  rw [if_neg (Nat.not_lt.2 ht)] at hexec
  obtain ⟨hpwr, htck, hcmd, hrun, hpend⟩ := event_keeps (fileDirectory (notPending (warmed s .warm 3) s.pwr.activating)) 0 2 2
  refine ⟨_, hexec, by rw [hpwr]; rfl, by rw [hcmd]; rfl, by rw [hrun]; rfl, ?_, by rw [hpwr]; rfl, by rw [htck]; rfl, ?_⟩
  · rw [hpend]
    change (if _ = _ then 0 else _) ≠ s.pwr.activating
    split
    case isTrue h => exact Ne.symm ha
    case isFalse h => exact h
  · rw [counter_countEvent, if_pos rfl]
    have hzero : counter (fileDirectory (notPending (warmed s .warm 3) s.pwr.activating)) 0 2 = 0 := counter_warmed s .warm 3 2 (by decide)
    rw [hzero]
    rfl

end Sys2Proof.Machine

namespace Sys2Proof
open Machine

/-- Settles O45, from what a download, a commit and each moment of an activation do. -/
theorem firmwareIsDownloadedCommittedAndActivated : Obligations.FirmwareIsDownloadedCommittedAndActivated := by
  unfold Obligations.FirmwareIsDownloadedCommittedAndActivated
  refine ⟨fun s r slot off data h => firmware_of_retired h, fun s r off data hr => ⟨fun hbad => ?_, fun h4 hfit => ⟨fun hbusy => ?_, fun hfree => ?_⟩⟩,
    fun s mi slot h => ?_, fun s r slot => ⟨fun e he => ⟨?_, ?_⟩, fwCommit_writes, fun hr hb => ?_, fun hr hb h1 h2 => ?_,
      fun hr hb hslot => ⟨fun hv => ?_, fun hv => ?_⟩, fun e he => ?_, fwCommitActivate_begins, activateFault_of_prohibited⟩, prohibited_of,
    fun s hp ha => ⟨fun hb => ⟨fetchPauseHandoff_runs hp ha hb, fun hlt hc => ?_⟩, activationFetchResume_resumes hp ha, fun h => ?_,
      activationTimeout_resets hp ha, fun hlt => ?_⟩, fun s hp => ⟨?_, ?_, ?_⟩⟩
  · rw [exec_download hr, if_pos hbad]
  · rw [exec_download hr, if_neg (by omega), if_pos hbusy]
  · obtain ⟨hdata, hbefore, hafter⟩ := stageAt_spec (s.bdy.staging.getD []) (4 * off.toNat) data
    refine ⟨stageChunk s false (4 * off.toNat) data, _, ?_, rfl, hdata, hbefore, hafter,
      onlyIn_of_follows (parts := [.bdy]) (follows_stageChunk (by decide) (follows_refl s))⟩
    rw [exec_download hr, if_neg (by omega), if_neg (Bool.eq_false_iff.1 hfree)]
  · obtain ⟨hret, hbusy, hslot, hst, ⟨hvalid, hfits⟩, hrun⟩ := commitFault_none h
    exact ⟨hret, hbusy, hslot, hst, hvalid, fwValid_floor hvalid, hrun, of_decide_eq_true hfits⟩
  · change execFwCommitReplace r slot s = _
    rw [execFwCommitReplace, he]
  · change execFwCommitReplacePending r slot s = _
    rw [execFwCommitReplacePending, he]
  · change execFwCommitPending r slot s = _
    rw [execFwCommitPending, if_neg (Bool.eq_false_iff.1 hr), if_pos hb]
  · rw [exec_fwCommitPending hr hb, if_pos ⟨h1, h2⟩]
  · rw [exec_fwCommitPending hr hb, if_neg (by omega), if_pos (by simp [hv])]
  · refine ⟨makePending s slot.toNat, ?_, makePending_spec s slot.toNat⟩
    rw [exec_fwCommitPending hr hb, if_neg (by omega), if_neg (by simp [hv])]
  · change execFwCommitActivate r slot s = _
    rw [execFwCommitActivate, he]
  · rw [exec_fetchPauseHandoff hp ha hb, if_pos ⟨hlt, hc⟩]
  · rw [exec_activationFetchResume hp ha, if_pos h]
  · rw [exec_activationTimeout hp ha, if_pos hlt]
  · exact if_pos (by simp [hp])
  · exact if_pos (by simp [hp])
  · exact if_pos (by simp [hp])

end Sys2Proof
end

section
/-! PROOFS. R247, R248, R335, R337, R340, R358, R364: the mailbox. -/

namespace Sys2Proof.Machine

/-! ### What the mailbox shows -/

theorem winBytes_winWrite (m : Bytes) (o n : Nat) (h : o + n ≤ m.length) : winBytes (winWrite [] 0 m) o n = (m.drop o).take n := by
  apply List.ext_getElem
  · simp [winBytes]
    omega
  · intro i hi _
    have hin : i < n := by simpa [winBytes] using hi
    have hbyte := winByte_winWrite [] 0 (o + i) m (by omega)
    simp only [Nat.zero_add] at hbyte
    simp only [winBytes, List.getElem_map, List.getElem_range, hbyte, List.getElem_take, List.getElem_drop]
    exact List.getD_eq_getElem _ _ (by omega)

theorem winBytes_winWrite_whole {m : Bytes} {n : Nat} (h : m.length = n) : winBytes (winWrite [] 0 m) 0 n = m := by
  rw [winBytes_winWrite m 0 n (by omega), List.drop_zero, List.take_of_length_le (Nat.le_of_eq h)]

theorem mailResponse_respond (s : State) (type : Nat) (tag : Word) (st : Nat) :
    mailResponse (respond s type tag st) = mailFrame type st tag.toNat [] := winBytes_winWrite_whole rfl

theorem status_respond (s : State) (type : Nat) (tag : Word) {st : Nat} (h : st < 65536) :
    field (mailResponse (respond s type tag st)) 2 2 = st := by
  rw [mailResponse_respond]
  change (BitVec.ofNat 8 st).toNat + 256 * ((BitVec.ofNat 8 (st / 256)).toNat + 256 * 0) = st
  simp only [BitVec.toNat_ofNat]
  omega

theorem tag_respond (s : State) (type : Nat) (tag : Word) (st : Nat) :
    field (mailResponse (respond s type tag st)) 4 4 = tag.toNat := by
  rw [mailResponse_respond]
  have hlt := tag.isLt
  generalize tag.toNat = v at hlt ⊢
  change (BitVec.ofNat 8 v).toNat + 256 * ((BitVec.ofNat 8 (v / 256)).toNat + 256 * ((BitVec.ofNat 8 (v / 256 / 256)).toNat +
    256 * ((BitVec.ofNat 8 (v / 256 / 256 / 256)).toNat + 256 * 0))) = v
  simp only [BitVec.toNat_ofNat]
  omega

/-! ### Posting -/

section
variable {s : State} {r : CmdRef} {m : Bytes}

/-- The mailbox is cleared for a message, which is counted. -/
def mailTaken (s : State) : State := bump { s with bdy := { s.bdy with mboxReady := false, mboxRefused := false } } 0 4

theorem takeMail_malformed (h : mailOk m = false) : takeMail s m = respond (mailTaken s) (mailParts m).1 (BitVec.ofNat 32 (mailParts m).2.1) 1 :=
  if_pos (by simp [h])

theorem takeMail_unknown (h : mailOk m = true) (ht : (mailParts m).1 = 0 ∨ 6 < (mailParts m).1) :
    takeMail s m = respond (mailTaken s) (mailParts m).1 (BitVec.ofNat 32 (mailParts m).2.1) 5 :=
  (if_neg (by simp [h])).trans (if_pos ht)

theorem takeMail_known (h : mailOk m = true) (ht : 1 ≤ (mailParts m).1) (ht' : (mailParts m).1 ≤ 6) : let u := takeMail s m
    u.bdy.mboxMsg = some (mailParts m) ∧ u.bdy.mboxBusy = true ∧ u.bdy.mboxReady = false ∧ counter u 0 4 = counter s 0 4 + 1 := by
  have hu : takeMail s m = { mailTaken s with bdy := { (mailTaken s).bdy with mboxBusy := true, mboxMsg := some (mailParts m) } } :=
    (if_neg (by simp [h])).trans (if_neg (by omega))
  have hcount : counter (mailTaken s) 0 4 = counter s 0 4 + 1 := by rw [mailTaken, counter_bump]; rfl
  have hready : (mailTaken s).bdy.mboxReady = false := rfl
  generalize mailTaken s = t at hu hcount hready
  rw [hu]
  exact ⟨rfl, rfl, hready, hcount⟩

theorem onlyIn_takeMail (s : State) (m : Bytes) : OnlyIn [.bdy, .cnt] s (takeMail s m) :=
  onlyIn_of_follows (parts := [.bdy, .cnt]) (follows_takeMail (by decide) (follows_refl s))

/-- A message into a free mailbox: a transition request that the pair is not ready for is refused, anything else is taken. -/
theorem exec_mailboxPost (h4 : m.length % 4 = 0) (hlen : m.length ≤ 4096) : exec (.mailboxPost r m) s =
    if s.bdy.mboxBusy then .next (complete (bump s 0 5) r (.vendor 4))
    else if mailOk m ∧ (mailParts m).1 = 1 ∧ !(s.spn.paired && s.spn.link == 2) then
      .next (complete (respond (takeMail s m) 1 (BitVec.ofNat 32 (mailParts m).2.1) 3) r (.vendor 1))
    else if mailOk m ∧ (mailParts m).1 = 1 ∧ !transitionReady s then
      .next (complete (respond (takeMail s m) 1 (BitVec.ofNat 32 (mailParts m).2.1) 3) r (.vendor 3))
    else .next (complete (takeMail s m) r .success) := if_neg (by omega)

theorem mailboxPost_takes (h4 : m.length % 4 = 0) (hlen : m.length ≤ 4096) (hb : s.bdy.mboxBusy = false)
    (ht : mailOk m = false ∨ (mailParts m).1 ≠ 1) : exec (.mailboxPost r m) s = .next (complete (takeMail s m) r .success) := by
  have hno (p : Prop) : ¬ (mailOk m = true ∧ (mailParts m).1 = 1 ∧ p) := fun ⟨hok, h1, _⟩ =>
    ht.elim (fun h => Bool.eq_false_iff.1 h hok) (fun h => h h1)
  rw [exec_mailboxPost h4 hlen, if_neg (Bool.eq_false_iff.1 hb), if_neg (hno _), if_neg (hno _)]

theorem mailboxPost_transition (h4 : m.length % 4 = 0) (hlen : m.length ≤ 4096) (hb : s.bdy.mboxBusy = false) (hok : mailOk m = true)
    (h1 : (mailParts m).1 = 1) : exec (.mailboxPost r m) s = if s.spn.paired = false ∨ s.spn.link ≠ 2 then
        .next (complete (respond (takeMail s m) 1 (BitVec.ofNat 32 (mailParts m).2.1) 3) r (.vendor 1))
      else if transitionReady s = false then
        .next (complete (respond (takeMail s m) 1 (BitVec.ofNat 32 (mailParts m).2.1) 3) r (.vendor 3))
      else .next (complete (takeMail s m) r .success) := by
  rw [exec_mailboxPost h4 hlen, if_neg (Bool.eq_false_iff.1 hb)]
  simp only [hok, h1, true_and, Bool.not_eq_eq_eq_not, Bool.not_true, Bool.and_eq_false_iff, beq_eq_false_iff_ne, ne_eq]

/-! ### Fetching and reading an answer -/

variable {len : Half}

theorem exec_mailboxFetch (h4 : len.toNat % 4 = 0) (hlen : len.toNat ≤ 4096) : exec (.mailboxFetch r len) s =
    if s.bdy.mboxReady then
      .next (let t := complete s r .success 0 ((mailResponse s).take len.toNat)
        { t with bdy := { t.bdy with mboxReady := t.bdy.mboxReady && decide (len.toNat < t.bdy.mboxLen) } })
    else if s.bdy.mboxBusy then .next (complete s r (.vendor 4))
    else .next (complete (drawn s) r (if (freeValue s).toNat % 2 = 0 then .success else .commandSequence)) := if_neg (by omega)

theorem mailboxFetch_answers (h4 : len.toNat % 4 = 0) (hlen : len.toNat ≤ 4096) (hr : s.bdy.mboxReady = true) :
    ∃ u, exec (.mailboxFetch r len) s = .next u ∧ u.bdy.mboxReady = decide (len.toNat < s.bdy.mboxLen) ∧
      u.hiu = (complete s r .success 0 ((mailResponse s).take len.toNat)).hiu := by
  have hexec := exec_mailboxFetch (r := r) (s := s) h4 hlen
  rw [if_pos hr] at hexec
  refine ⟨_, hexec, ?_, rfl⟩
  have hbdy : (complete s r .success 0 ((mailResponse s).take len.toNat)).bdy = s.bdy := by simp only [complete_frame]
  generalize complete s r .success 0 ((mailResponse s).take len.toNat) = t at hbdy ⊢
  change (t.bdy.mboxReady && decide (len.toNat < t.bdy.mboxLen)) = _
  rw [hbdy, hr, Bool.true_and]

theorem mailboxResponseRead_reads (s : State) : ∃ t, exec .mailboxResponseRead s = .next t ∧ t.bdy = { s.bdy with mboxReady := false } ∧
    t.splitLatch = none ∧
    (∀ m, s.bdy.mboxRsp = winWrite [] 0 m → s.bdy.mboxLen = m.length → m.length % 4 = 0 → 0 < m.length →
      t.hostRead = BitVec.ofNat 64 (leNat (m.drop (m.length - 4)))) ∧ OnlyIn [.bdy, .hostRead, .splitLatch] s t := by
  refine ⟨_, rfl, rfl, rfl, fun m hw hl h4 hpos => ?_, onlyIn_of_follows (parts := [.bdy, .hostRead, .splitLatch]) ?_⟩
  rotate_left
  · refine upd_bdy (s := { s with splitLatch := none, hostRead := _ }) (bdy' := { s.bdy with mboxReady := false }) (by decide) rfl rfl ?_
    exact upd_hostRead (s := { s with splitLatch := none }) (by decide) (upd_splitLatch (by decide) (follows_refl s))
  change BitVec.ofNat 64 (leNat (winBytes s.bdy.mboxRsp ((s.bdy.mboxLen - 1) / 4 * 4) 4)) = _
  have hlast : (m.length - 1) / 4 * 4 = m.length - 4 := by omega
  rw [hw, hl, hlast, winBytes_winWrite m _ _ (by omega), List.take_of_length_le (by rw [List.length_drop]; omega)]

/-! ### Requests -/

variable {tag : Word}

theorem inHand_iff {type : Nat} {body : Bytes} : inHand s type tag body = true ↔ s.bdy.mboxMsg = some (type, tag.toNat, body) := by
  rw [inHand, beq_iff_eq]

/-- Without a message in hand a request changes nothing. -/
theorem requests_of_noMessage {nsid off : Word} {which fuses : Byte} {slot : Half} {last : Bool} {data : Bytes} (h : s.bdy.mboxMsg = none) :
    exec (.mailboxKeyImport tag data) s = .next s ∧ exec (.lowerVotedLimit tag which fuses) s = .next s ∧
    exec (.newWriteSlot tag nsid slot) s = .next s ∧ exec (.endsheetOwnerSection tag off last data) s = .next s ∧
    exec (.lifecycleTransition tag data) s = .next s := by
  have hno (type : Nat) (body : Bytes) : (!inHand s type tag body) = true := by simp [inHand, h]
  have hsheet : (!sheetInHand s tag off last data) = true := by simp [sheetInHand, h]
  exact ⟨if_pos (hno ..), if_pos (hno ..), if_pos (hno ..), if_pos hsheet, if_pos (hno ..)⟩

/-- Result 0 is of a free slot. -/
theorem importResult_free {b : Bytes} (h : importResult s b = 0) : (slotAt s (field b 4 2)).st = 0 := by
  unfold importResult at h
  split at h
  · cases h
  split at h
  · cases h
  split at h
  · cases h
  case isFalse hst => exact not_not.1 hst

/-- An import puts its result in the register and, where the result is 0, a pending key in its slot. -/
theorem importKey_spec {b : Bytes} (hw : winBytes s.kst.importWin 0 152 = b) : let u := importKey s
    u.kst.result = importResult s b ∧ (importResult s b = 0 → (slotAt u (field b 4 2)).st = 1 ∧ (slotAt s (field b 4 2)).st = 0) ∧
      (importResult s b ≠ 0 → u.kst.slots = s.kst.slots) := by
  subst hw
  unfold importKey
  dsimp only
  generalize winBytes s.kst.importWin 0 152 = b
  by_cases h0 : importResult s b = 0
  · rw [if_neg (by simp [h0])]
    refine ⟨?_, fun _ => ⟨?_, importResult_free h0⟩, fun hne => absurd h0 hne⟩
    · simp only [sendKcv, send_frame, bump_kst]
      rfl
    · simp only [slotAt, sendKcv, send_frame, bump_kst]
      exact congrArg KeySlot.st ((slotAt_setSlot ..).trans (if_pos rfl))
  · rw [if_pos h0]
    refine ⟨?_, fun h => absurd h h0, fun _ => ?_⟩ <;> simp only [countEvent_kst]

/-- The state with the blob of a message in the import window. -/
def blobTaken (s : State) (blob : Bytes) : State := { s with kst := { s.kst with importWin := winWrite [] 0 blob } }

theorem exec_mailboxKeyImport {blob : Bytes} (h : s.bdy.mboxMsg = some (2, tag.toNat, blob)) : exec (.mailboxKeyImport tag blob) s =
    if blob.length ≠ 152 then .next (respond s 2 tag 1)
    else .next (let t := importKey (blobTaken s blob); respond t 2 tag (if t.kst.result = 0 then 0 else if t.kst.result = 1 then 1 else 3)) :=
  if_neg (by simp [inHand_iff.2 h])

theorem mailboxKeyImport_answers {blob : Bytes} (h : s.bdy.mboxMsg = some (2, tag.toNat, blob)) :
    let st := if blob.length ≠ 152 then 1 else
      let k := importResult s blob
      if k = 0 then 0 else if k = 1 then 1 else 3
    ∃ t, exec (.mailboxKeyImport tag blob) s = .next t ∧ t.bdy.mboxReady = true ∧ t.bdy.mboxBusy = false ∧ t.bdy.mboxMsg = none ∧
      field (mailResponse t) 2 2 = st ∧ field (mailResponse t) 4 4 = tag.toNat ∧
      (st = 0 → (slotAt t (field blob 4 2)).st = 1 ∧ (slotAt s (field blob 4 2)).st = 0) ∧ (st ≠ 0 → t.kst.slots = s.kst.slots) := by
  intro st
  have hexec := exec_mailboxKeyImport h
  by_cases hlen : blob.length = 152
  · rw [if_neg (not_not.2 hlen)] at hexec
    obtain ⟨hres, hzero, hother⟩ := importKey_spec (s := blobTaken s blob) (winBytes_winWrite_whole hlen)
    have hsame : importResult (blobTaken s blob) blob = importResult s blob := rfl
    have hslots : (blobTaken s blob).kst.slots = s.kst.slots := rfl
    have hslot (n : Nat) : slotAt (blobTaken s blob) n = slotAt s n := rfl
    rw [hsame] at hres hzero hother
    rw [hslot] at hzero
    rw [hslots] at hother
    have hst : st = if importResult s blob = 0 then 0 else if importResult s blob = 1 then 1 else 3 := if_neg (not_not.2 hlen)
    have hst0 : st = 0 ↔ importResult s blob = 0 := by grind
    have hlt : st < 65536 := by grind
    dsimp only at hexec
    rw [hres, ← hst] at hexec
    generalize importKey (blobTaken s blob) = t at hexec hzero hother
    exact ⟨_, hexec, rfl, rfl, rfl, status_respond t 2 tag hlt, tag_respond .., fun h0 => hzero (hst0.1 h0), fun h0 => hother (fun h => h0 (hst0.2 h))⟩
  · rw [if_pos hlen] at hexec
    have hst : st = 1 := if_pos hlen
    rw [hst]
    exact ⟨_, hexec, rfl, rfl, rfl, status_respond s 2 tag (by decide), tag_respond .., fun h0 => absurd h0 (by decide), fun _ => rfl⟩

/-- The voted limit named, lowered by fuses (R340). -/
def limitLowered (s : State) (which fuses : Byte) : State :=
  if which = 0 then { s with kst := { s.kst with spindle := blow s.kst.spindle (min 75 (votedFuses s.kst.spindle + fuses.toNat)) } }
  else { s with kst := { s.kst with laser := blow s.kst.laser (min 15 (votedFuses s.kst.laser + fuses.toNat)) } }

theorem exec_lowerVotedLimit {which fuses : Byte} (h : s.bdy.mboxMsg = some (3, tag.toNat, [which, fuses])) :
    exec (.lowerVotedLimit tag which fuses) s =
      if 1 < which.toNat ∨ fuses.toNat = 0 ∨ 15 < fuses.toNat then .next (respond s 3 tag 1)
      else if !(lifeCycle s == 1 || lifeCycle s == 2) then .next (respond s 3 tag 3)
      else .next (respond (limitLowered s which fuses) 3 tag 0) := by
  change execLowerVotedLimit tag which fuses s = _
  rw [execLowerVotedLimit, if_neg (by simp [inHand_iff.2 h])]
  unfold limitLowered
  by_cases h0 : which = 0 <;> simp only [h0, if_true, if_false]

theorem lowerVotedLimit_answers {which fuses : Byte} (h : s.bdy.mboxMsg = some (3, tag.toNat, [which, fuses])) :
    let good := which.toNat ≤ 1 ∧ 1 ≤ fuses.toNat ∧ fuses.toNat ≤ 15
    ∃ t, exec (.lowerVotedLimit tag which fuses) s = .next t ∧ t.bdy.mboxReady = true ∧
      (¬ good → field (mailResponse t) 2 2 = 1 ∧ t.kst = s.kst) ∧
      (good → lifeCycle s ≠ 1 → lifeCycle s ≠ 2 → field (mailResponse t) 2 2 = 3 ∧ t.kst = s.kst) ∧
      (good → lifeCycle s = 1 ∨ lifeCycle s = 2 → field (mailResponse t) 2 2 = 0 ∧
        (which = 0 → let v := s.kst.spindle
          let m := min 75 (votedFuses v + fuses.toNat)
          t.kst = { s.kst with spindle := { a := max v.a m, b := max v.b m, c := max v.c m } }) ∧
        (which = 1 → let v := s.kst.laser
          let m := min 15 (votedFuses v + fuses.toNat)
          t.kst = { s.kst with laser := { a := max v.a m, b := max v.b m, c := max v.c m } })) := by
  intro good
  have hexec := exec_lowerVotedLimit h
  by_cases hg : good
  · obtain ⟨hw, hf, hf'⟩ := id hg
    rw [if_neg (by omega)] at hexec
    by_cases hlc : lifeCycle s = 1 ∨ lifeCycle s = 2
    · rw [if_neg (by rcases hlc with h | h <;> simp [h])] at hexec
      refine ⟨_, hexec, rfl, fun h => absurd hg h, fun _ h1 h2 => (hlc.elim h1 h2).elim, fun _ _ => ⟨status_respond _ 3 tag (by decide), fun h0 => ?_, fun h1 => ?_⟩⟩
      · rw [limitLowered, if_pos h0]
        rfl
      · rw [limitLowered, if_neg (by rw [h1]; decide)]
        rfl
    · rw [if_pos (by simpa using hlc)] at hexec
      exact ⟨_, hexec, rfl, fun h => absurd hg h, fun _ _ _ => ⟨status_respond s 3 tag (by decide), rfl⟩, fun _ h => absurd h hlc⟩
  · rw [if_pos (by simp only [good] at hg; omega)] at hexec
    exact ⟨_, hexec, rfl, fun _ => ⟨status_respond s 3 tag (by decide), rfl⟩, fun h => absurd h hg, fun h => absurd h hg⟩

/-- A new slot is bound to a namespace for writing, the old one for reading only. -/
def writeSlotBound (s : State) (nsid slot : Nat) (n : Ns) : State :=
  let t := setSlot s n.writeSlot { slotAt s n.writeSlot with write := false }
  nsStored (setSlot t slot { slotAt t slot with nsid := nsid, write := true }) nsid { n with writeSlot := slot, readSlots := n.readSlots ++ [slot] }

theorem exec_newWriteSlot {nsid : Word} {slot : Half} {n : Ns}
    (h : s.bdy.mboxMsg = some (4, tag.toNat, natLe 4 nsid.toNat ++ natLe 2 slot.toNat)) (hn : nsAt s nsid.toNat = some n)
    (hlt : slot.toNat < 2048) : exec (.newWriteSlot tag nsid slot) s =
      if !slotFree s slot.toNat || !nsCreateAllowed s then .next (respond s 4 tag 3)
      else .next (respond (writeSlotBound s nsid.toNat slot.toNat n) 4 tag 0) := by
  change execNewWriteSlot tag nsid slot s = _
  rw [execNewWriteSlot, if_neg (by simp [inHand_iff.2 h]), hn]
  exact if_neg (Nat.not_le.2 hlt)

theorem slotAt_writeSlotBound {nsid slot : Nat} {n : Ns} (hne : n.writeSlot ≠ slot) : let t := writeSlotBound s nsid slot n
    slotAt t slot = { slotAt s slot with nsid := nsid, write := true } ∧ slotAt t n.writeSlot = { slotAt s n.writeSlot with write := false } := by
  intro t
  have hat (j : Nat) : slotAt t j = slotAt (setSlot (setSlot s n.writeSlot { slotAt s n.writeSlot with write := false }) slot
    { slotAt (setSlot s n.writeSlot { slotAt s n.writeSlot with write := false }) slot with nsid := nsid, write := true }) j := rfl
  simp [hat, slotAt_setSlot, hne, hne.symm]

theorem newWriteSlot_binds {nsid : Word} {slot : Half} {n : Ns}
    (h : s.bdy.mboxMsg = some (4, tag.toNat, natLe 4 nsid.toNat ++ natLe 2 slot.toNat)) (hn : nsAt s nsid.toNat = some n)
    (hlt : slot.toNat < 2048) (hfree : slotFree s slot.toNat = true) (hok : nsCreateAllowed s = true) (hne : n.writeSlot ≠ slot.toNat) :
    ∃ t x, exec (.newWriteSlot tag nsid slot) s = .next t ∧
      nsAt t nsid.toNat = some x ∧ x = { n with writeSlot := slot.toNat, readSlots := n.readSlots ++ [slot.toNat] } ∧
      (slotAt t slot.toNat).nsid = nsid.toNat ∧ (slotAt t slot.toNat).write = true ∧ (slotAt t n.writeSlot).write = false ∧
      (slotAt t n.writeSlot).nsid = (slotAt s n.writeSlot).nsid ∧ field (mailResponse t) 2 2 = 0 := by
  have hexec := exec_newWriteSlot h hn hlt
  rw [if_neg (by simp [hfree, hok])] at hexec
  obtain ⟨hnew, hold⟩ := slotAt_writeSlotBound (s := s) (nsid := nsid.toNat) hne
  have hns : nsAt (writeSlotBound s nsid.toNat slot.toNat n) nsid.toNat =
      some { n with writeSlot := slot.toNat, readSlots := n.readSlots ++ [slot.toNat] } := (look_ins ..).trans (if_pos rfl)
  generalize writeSlotBound s nsid.toNat slot.toNat n = t at hexec hnew hold hns
  have hslot (j : Nat) : slotAt (respond t 4 tag 0) j = slotAt t j := rfl
  exact ⟨_, _, hexec, hns, rfl, by rw [hslot, hnew], by rw [hslot, hnew], by rw [hslot, hold], by rw [hslot, hold], status_respond t 4 tag (by decide)⟩

/-! ### The owner section (R358) -/

/-- The owner section as far as it has arrived. -/
def sheetRxSet (s : State) (rx : Bytes) : State := { s with bdy := { s.bdy with sheetRx := rx } }

/-- The owner section with a further chunk. -/
def sheetRxWith (s : State) (off : Word) (data : Bytes) : Bytes := stageAt (if off = 0 then [] else s.bdy.sheetRx) off.toNat data

theorem exec_endsheet {off : Word} {last : Bool} {data : Bytes} (h : sheetInHand s tag off last data = true) (hr : lifeRetired s = false)
    (hfit : off.toNat + data.length ≤ 262144) : exec (.endsheetOwnerSection tag off last data) s =
      if last then .next (respond (if sheetStatus s (sheetRxWith s off data) = 0 then writeSheet s (sheetRxWith s off data) else sheetRxSet s [])
        5 tag (sheetStatus s (sheetRxWith s off data)))
      else .next (respond (sheetRxSet s (sheetRxWith s off data)) 5 tag 0) := by
  refine (if_neg (by simp [h])).trans ((if_neg (Bool.eq_false_iff.1 hr)).trans ((if_neg (Nat.not_lt.2 hfit)).trans ?_))
  cases last <;> rfl

theorem sheetStatus_lt (s : State) (rx : Bytes) : sheetStatus s rx < 65536 := by
  unfold sheetStatus
  split
  · decide
  · split <;> decide

theorem sheetStatus_zero {rx : Bytes} (h : sheetStatus s rx = 0) : signatureOk s rx = true := by
  unfold sheetStatus at h
  split at h
  · cases h
  split at h
  · cases h
  case isFalse hno =>
    rw [not_or] at hno
    simpa using hno.2

/-- The owner section as the inactive copy of the Endsheet, made active. -/
def sheetPlaced (s : State) (rx : Bytes) : State :=
  { s with bdy := { s.bdy with
      sheets := ins s.bdy.sheets (1 - s.bdy.sheetActive) (sheetOf s rx), sheetActive := 1 - s.bdy.sheetActive, sheetRx := [] } }

theorem writeSheet_spec (s : State) (rx : Bytes) : let t := writeSheet s rx
    t.bdy.sheetRx = [] ∧ t.bdy.sheetActive = 1 - s.bdy.sheetActive ∧ (sheet t).raw = rx ∧ (sheet t).features = (sheet s).features ∧
      (∃ c, t.bdy.colophon.getLast? = some c ∧ c.reason = 4) ∧ t.bnd = s.bnd := by
  intro t
  have ht : t = writeColophon (fileDirectory (sheetPlaced s rx)) 4 := rfl
  have hsheets : t.bdy.sheets = ins s.bdy.sheets (1 - s.bdy.sheetActive) (sheetOf s rx) := rfl
  have hact : t.bdy.sheetActive = 1 - s.bdy.sheetActive := rfl
  have hsheet : sheet t = sheetOf s rx := by
    rw [sheet, hsheets, hact, getD, look_ins, if_pos rfl]
    rfl
  refine ⟨rfl, hact, by rw [hsheet]; rfl, by rw [hsheet]; rfl, ht ▸ writeColophon_last _ 4, ?_⟩
  rw [ht]
  simp only [writeColophon_frame, fileDirectory_frame]
  rfl

theorem respond_sheets (s : State) (type : Nat) (tag : Word) (st : Nat) : let u := respond s type tag st
    u.bdy.sheetRx = s.bdy.sheetRx ∧ u.bdy.sheets = s.bdy.sheets ∧ u.bdy.sheetActive = s.bdy.sheetActive ∧
      u.bdy.colophon = s.bdy.colophon ∧ u.bnd = s.bnd := ⟨rfl, rfl, rfl, rfl, rfl⟩

theorem sheet_of_bdy {s u : State} (hs : u.bdy.sheets = s.bdy.sheets) (ha : u.bdy.sheetActive = s.bdy.sheetActive) : sheet u = sheet s := by
  rw [sheet, hs, ha, sheet]

/-- The last chunk of an owner section closes it. -/
def sheetClosed (s : State) (tag : Word) (rx : Bytes) : State :=
  respond (if sheetStatus s rx = 0 then writeSheet s rx else sheetRxSet s []) 5 tag (sheetStatus s rx)

theorem sheetClosed_spec (s : State) (tag : Word) (rx : Bytes) : let t := sheetClosed s tag rx
    t.bdy.sheetRx = [] ∧ field (mailResponse t) 2 2 = sheetStatus s rx ∧
      (sheetStatus s rx ≠ 0 → t.bdy.sheets = s.bdy.sheets ∧ t.bdy.sheetActive = s.bdy.sheetActive) ∧
      (sheetStatus s rx = 0 → signatureOk s rx = true ∧ t.bdy.sheetActive = 1 - s.bdy.sheetActive ∧ (sheet t).raw = rx ∧
        (sheet t).features = (sheet s).features ∧ (∃ c, t.bdy.colophon.getLast? = some c ∧ c.reason = 4) ∧ t.bnd = s.bnd) := by
  intro t
  have hstatus : field (mailResponse t) 2 2 = sheetStatus s rx := status_respond _ 5 tag (sheetStatus_lt s rx)
  obtain ⟨krx, ksheets, kact, kcol, kbnd⟩ := respond_sheets (if sheetStatus s rx = 0 then writeSheet s rx else sheetRxSet s []) 5 tag (sheetStatus s rx)
  change t.bdy.sheetRx = _ at krx
  change t.bdy.sheets = _ at ksheets
  change t.bdy.sheetActive = _ at kact
  change t.bdy.colophon = _ at kcol
  change t.bnd = _ at kbnd
  clear_value t
  by_cases h0 : sheetStatus s rx = 0
  · rw [if_pos h0] at krx ksheets kact kcol kbnd
    obtain ⟨hrx, hact, hraw, hfeat, hcol, hbnd⟩ := writeSheet_spec s rx
    have ksheet := sheet_of_bdy ksheets kact
    rw [krx, kact, ksheet, kcol, kbnd]
    exact ⟨hrx, hstatus, fun hne => absurd h0 hne, fun _ => ⟨sheetStatus_zero h0, hact, hraw, hfeat, hcol, hbnd⟩⟩
  · rw [if_neg h0] at krx ksheets kact kcol kbnd
    exact ⟨krx, hstatus, fun _ => ⟨ksheets, kact⟩, fun h => absurd h h0⟩

section
variable {off : Word} {last : Bool} {data : Bytes} (h : sheetInHand s tag off last data = true)
include h

theorem endsheet_retired (hr : lifeRetired s = true) : ∃ t, exec (.endsheetOwnerSection tag off last data) s = .next t ∧
    field (mailResponse t) 2 2 = 3 ∧ t.bdy.sheetRx = s.bdy.sheetRx ∧ t.bdy.sheets = s.bdy.sheets ∧ t.bdy.sheetActive = s.bdy.sheetActive :=
  ⟨respond s 5 tag 3, (if_neg (by simp [h])).trans (if_pos hr), status_respond s 5 tag (by decide), rfl, rfl, rfl⟩

theorem endsheet_tooLong (hr : lifeRetired s = false) (hbig : 262144 < off.toNat + data.length) :
    ∃ t, exec (.endsheetOwnerSection tag off last data) s = .next t ∧
      field (mailResponse t) 2 2 = 1 ∧ t.bdy.sheetRx = s.bdy.sheetRx ∧ t.bdy.sheets = s.bdy.sheets ∧ t.bdy.sheetActive = s.bdy.sheetActive :=
  ⟨respond s 5 tag 1, (if_neg (by simp [h])).trans ((if_neg (by simp [hr])).trans (if_pos hbig)),
    status_respond s 5 tag (by decide), rfl, rfl, rfl⟩

theorem endsheet_chunk (hr : lifeRetired s = false) (hfit : off.toNat + data.length ≤ 262144) (hl : last = false) :
    let rx := stageAt (if off = 0 then [] else s.bdy.sheetRx) off.toNat data
    ∃ t, exec (.endsheetOwnerSection tag off false data) s = .next t ∧ t.bdy.sheetRx = rx ∧
      field (mailResponse t) 2 2 = 0 ∧ t.bdy.sheets = s.bdy.sheets ∧ t.bdy.sheetActive = s.bdy.sheetActive := by
  intro rx
  subst hl
  exact ⟨respond (sheetRxSet s rx) 5 tag 0, (exec_endsheet h hr hfit).trans (if_neg (by decide)), rfl, status_respond _ 5 tag (by decide), rfl, rfl⟩

theorem endsheet_last (hr : lifeRetired s = false) (hfit : off.toNat + data.length ≤ 262144) (hl : last = true) :
    let rx := stageAt (if off = 0 then [] else s.bdy.sheetRx) off.toNat data
    ∃ t, exec (.endsheetOwnerSection tag off true data) s = .next t ∧ t.bdy.sheetRx = [] ∧
      field (mailResponse t) 2 2 = sheetStatus s rx ∧
      (sheetStatus s rx ≠ 0 → t.bdy.sheets = s.bdy.sheets ∧ t.bdy.sheetActive = s.bdy.sheetActive) ∧
      (sheetStatus s rx = 0 → signatureOk s rx = true ∧ t.bdy.sheetActive = 1 - s.bdy.sheetActive ∧ (sheet t).raw = rx ∧
        (sheet t).features = (sheet s).features ∧ (∃ c, t.bdy.colophon.getLast? = some c ∧ c.reason = 4) ∧ t.bnd = s.bnd) := by
  subst hl
  exact ⟨sheetClosed s tag (sheetRxWith s off data), (exec_endsheet h hr hfit).trans (if_pos rfl), sheetClosed_spec ..⟩

end

end

end Sys2Proof.Machine

namespace Sys2Proof
open Machine

/-- Settles O46, request by request: what each answers and what it changes. -/
theorem mailboxCarriesOneMessage : Obligations.MailboxCarriesOneMessage := by
  unfold Obligations.MailboxCarriesOneMessage
  refine ⟨fun s r m => ⟨fun hbad => if_pos hbad, fun h4 hlen => ⟨fun hb => ?_, fun hb hok => ?_, fun hb hok ht => ?_, fun hb hok h2 h6 => ?_,
      fun hb hok h1 => ⟨fun hp => ?_, fun hp hl hr => ?_, fun hp hl hr => ?_⟩⟩⟩,
    fun s r len => ⟨fun hbad => if_pos hbad, mailboxFetch_answers, fun h4 hlen hr hb => ?_, fun h4 hlen hr hb => ?_⟩,
    mailboxResponseRead_reads, fun s tag blob => mailboxKeyImport_answers, fun s tag which fuses => lowerVotedLimit_answers,
    fun s tag nsid slot n h hn hlt => ⟨newWriteSlot_binds h hn hlt, fun hbad => ?_⟩, fun s tag off last data h => ?_,
    fun s tag nsid off which fuses slot last data h => requests_of_noMessage h⟩
  · rw [exec_mailboxPost h4 hlen, if_pos hb]
  · exact ⟨_, mailboxPost_takes h4 hlen hb (.inl hok), by rw [takeMail_malformed hok]; rfl, by rw [takeMail_malformed hok]; rfl,
      by rw [takeMail_malformed hok, status_respond _ _ _ (by decide)], onlyIn_takeMail s m⟩
  · refine ⟨_, mailboxPost_takes h4 hlen hb (.inr (by omega)), by rw [takeMail_unknown hok ht]; rfl, ?_⟩
    rw [takeMail_unknown hok ht, status_respond _ _ _ (by decide)]
  · obtain ⟨hmsg, hbusy, hready, hcount⟩ := takeMail_known (s := s) hok (by omega) h6
    exact ⟨_, mailboxPost_takes h4 hlen hb (.inr (by omega)), hmsg, hbusy, hready, hcount, onlyIn_takeMail s m⟩
  · exact ⟨_, by rw [mailboxPost_transition h4 hlen hb hok h1, if_pos hp], rfl⟩
  · exact ⟨_, by rw [mailboxPost_transition h4 hlen hb hok h1, if_neg (by simp [hp, hl]), if_pos hr], rfl⟩
  · obtain ⟨hmsg, -⟩ := takeMail_known (s := s) hok (by omega) (by omega)
    exact ⟨_, by rw [mailboxPost_transition h4 hlen hb hok h1, if_neg (by simp [hp, hl]), if_neg (by simp [hr])], hmsg⟩
  · exact ⟨_, by rw [exec_mailboxFetch h4 hlen, if_neg (by simp [hr]), if_neg (by simp [hb])]⟩
  · rw [exec_mailboxFetch h4 hlen, if_neg (by simp [hr]), if_pos hb]
  · refine ⟨respond s 4 tag 3, ?_, status_respond s 4 tag (by decide), rfl, rfl⟩
    rw [exec_newWriteSlot h hn hlt, if_pos (by simpa using hbad)]
  · exact ⟨endsheet_retired h, endsheet_tooLong h, endsheet_chunk h, endsheet_last h⟩

end Sys2Proof
end

section
/-! PROOFS. R334 to R342, R365: key slots, the life-cycle and the voted words. -/

namespace Sys2Proof.Machine

section
variable {s : State}

/-! ### Key slots -/

theorem importResult_zero {b : Bytes} (h : importResult s b = 0) : field b 4 2 < 2048 ∧ (slotAt s (field b 4 2)).st = 0 ∧
    ∃ k, Config.unwrapKey (lifeCycle s) b = some k := by
  have hfree := importResult_free h
  unfold importResult at h
  split at h
  · cases h
  split at h
  · cases h
  case isFalse hok =>
  split at h
  · cases h
  split at h
  · cases h
  case h_2 k hk =>
  refine ⟨?_, hfree, k, hk⟩
  simp only [blobOk, Bool.not_eq_eq_eq_not, Bool.not_true, Bool.not_eq_false, Bool.and_eq_true, decide_eq_true_eq] at hok
  obtain ⟨⟨⟨⟨⟨-, -⟩, hn⟩, -⟩, -⟩, -⟩ := hok
  exact hn

theorem importResult_of_lifeCycle (b : Bytes) (h1 : lifeCycle s ≠ 1) (h2 : lifeCycle s ≠ 2) : importResult s b = 5 := if_pos (by simp [h1, h2])

theorem sendKcv_out (n : Nat) (h : s.spn.link = 2) :
    (sendKcv s n).out = s.out ++ [{ cls := 3, msg := .kcv n (slotAt s n).kcv }] := by
  rw [sendKcv, send_out, if_pos h]
  rfl

theorem sendKcv_kst (n : Nat) : (sendKcv s n).kst = s.kst := by simp only [sendKcv, send_frame]

theorem slotAt_of_kst {t : State} (h : t.kst = s.kst) (n : Nat) : slotAt t n = slotAt s n := congrArg (fun k : Kst => getD k.slots {} n) h

/-- The record of a key as its import writes it. -/
def importRecord (n : Nat) (key : BitVec 256) : SlotRecord :=
  { slot := Fin.ofNat 2048 n, active := false, kcv := Config.kcv key, key := key, nsid := 0, write := false }

/-- The import window is wiped, the result is 0 and the key's record is written. -/
def importFiled (s : State) (n : Nat) (key : BitVec 256) : State :=
  { s with kst := { s.kst with
      importWin := [], result := 0, nor := s.kst.nor.filter (fun x => x.slot.val ≠ n) ++ [importRecord n key] } }

/-- The key stands in its slot, pending, and is counted. -/
def importStored (s : State) (n : Nat) (key : BitVec 256) : State :=
  bump (setSlot (importFiled s n key) n { st := 1, kcv := Config.kcv key, key := key }) 12 0

theorem exec_keyImport (h : barSealed s = false) : exec .keyImport s = .next (importKey s) := if_neg (Bool.eq_false_iff.1 h)

theorem importKey_good {key : BitVec 256} (h0 : importResult s (winBytes s.kst.importWin 0 152) = 0)
    (hk : Config.unwrapKey (lifeCycle s) (winBytes s.kst.importWin 0 152) = some key) :
    let n := field (winBytes s.kst.importWin 0 152) 4 2
    importKey s = sendKcv (importStored s n key) n := by
  unfold importKey
  dsimp only
  rw [if_neg (by simp [h0]), hk, h0]
  rfl

theorem importStored_spec {n : Nat} (hn : n < 2048) (key : BitVec 256) : let t := importStored s n key
    slotAt t n = { st := 1, kcv := Config.kcv key, key := key } ∧ (∀ m, m ≠ n → slotAt t m = slotAt s m) ∧ t.kst.result = 0 ∧
      t.kst.importWin = [] ∧ (∃ e ∈ t.kst.nor, e.slot.val = n ∧ e.key = key ∧ e.active = false) ∧ t.spn = s.spn ∧ t.out = s.out ∧
      counter t 12 0 = counter s 12 0 + 1 := by
  intro t
  have hslot (m : Nat) : slotAt t m = if n = m then { st := 1, kcv := Config.kcv key, key := key } else slotAt s m := slotAt_setSlot ..
  refine ⟨by rw [hslot, if_pos rfl], fun m hm => by rw [hslot, if_neg (Ne.symm hm)], rfl, rfl, ?_, rfl, rfl, ?_⟩
  · have hval : (importRecord n key).slot.val = n := Nat.mod_eq_of_lt hn
    refine ⟨_, List.mem_map_of_mem (List.mem_append_right _ (List.mem_singleton_self _)), ?_⟩
    rw [if_pos hval]
    exact ⟨hval, rfl, rfl⟩
  · have hcount : counter (importStored s n key) 12 0 =
        counter (setSlot (importFiled s n key) n { st := 1, kcv := Config.kcv key, key := key }) 12 0 + 1 := by
      rw [importStored, counter_bump, if_pos rfl]
    exact hcount

theorem keyImport_imports (hs : barSealed s = false) : let b := winBytes s.kst.importWin 0 152
    let n := field b 4 2
    importResult s b = 0 → ∃ t k, exec .keyImport s = .next t ∧ Config.unwrapKey (lifeCycle s) b = some k ∧ n < 2048 ∧
      (slotAt s n).st = 0 ∧ slotAt t n = { st := 1, kcv := Config.kcv k, key := k } ∧ (∀ m, m ≠ n → slotAt t m = slotAt s m) ∧
      t.kst.result = 0 ∧ t.kst.importWin = [] ∧ (∃ e ∈ t.kst.nor, e.slot.val = n ∧ e.key = k ∧ e.active = false) ∧
      counter t 12 0 = counter s 12 0 + 1 ∧ (s.spn.link = 2 → t.out = s.out ++ [{ cls := 3, msg := .kcv n (Config.kcv k) }]) := by
  intro b n h0
  obtain ⟨hn, hfree, k, hk⟩ := importResult_zero h0
  have hexec := exec_keyImport hs
  rw [importKey_good h0 hk] at hexec
  obtain ⟨hslot, hother, hres, hwin, hnor, hspn, hout, hcount⟩ := importStored_spec (s := s) hn k
  change exec .keyImport s = .next (sendKcv (importStored s n k) n) at hexec
  generalize importStored s n k = t at hexec hslot hother hres hwin hnor hspn hout hcount
  have hkst := sendKcv_kst (s := t) n
  have hcnt : (sendKcv t n).cnt = t.cnt := by simp only [sendKcv, send_frame]
  refine ⟨_, k, hexec, hk, hn, hfree, by rw [slotAt_of_kst hkst, hslot], fun m hm => by rw [slotAt_of_kst hkst, hother m hm],
    by rw [hkst, hres], by rw [hkst, hwin], by rw [hkst]; exact hnor, ?_, fun hlink => ?_⟩
  · rw [counter, hcnt]
    exact hcount
  · rw [sendKcv_out n (hspn ▸ hlink), hout, hslot]

theorem keyImport_refuses (hs : barSealed s = false) : let b := winBytes s.kst.importWin 0 152
    importResult s b ≠ 0 → ∃ t, exec .keyImport s = .next t ∧ t.kst = { s.kst with importWin := [], result := importResult s b } ∧
      counter t 12 1 = counter s 12 1 + 1 ∧ t.out = s.out := by
  intro b h0
  have hexec := exec_keyImport hs
  unfold importKey at hexec
  dsimp only at hexec
  rw [if_pos h0] at hexec
  refine ⟨_, hexec, by simp only [countEvent_kst]; rfl, ?_, by simp⟩
  rw [counter_countEvent, if_pos rfl]
  rfl

/-- A report of the twin's check value. -/
theorem kcvMatch_activates {n : Fin 2048} {kcv : Word} (hst : (slotAt s n).st = 1) (hkcv : (slotAt s n).kcv = kcv) :
    ∃ t, exec (.kcvMatch n kcv) s = .next t ∧ slotAt t n = { slotAt s n with st := 2 } ∧
      (∀ m, m ≠ n.val → slotAt t m = slotAt s m) ∧ (s.spn.link = 2 → t.out = s.out ++ [{ cls := 3, msg := .kcv n kcv }]) ∧ OnlyIn [.kst, .out] s t := by
  have hexec : exec (.kcvMatch n kcv) s = .next (sendKcv (setSlot s n { slotAt s n with st := 2 }) n) := if_pos ⟨hst, hkcv⟩
  have hslot (m : Nat) := slotAt_setSlot s n m { slotAt s n with st := 2 }
  have hspn : (setSlot s n { slotAt s n with st := 2 }).spn = s.spn := rfl
  have hout : (setSlot s n { slotAt s n with st := 2 }).out = s.out := rfl
  have honly : OnlyIn [.kst, .out] s (sendKcv (setSlot s n { slotAt s n with st := 2 }) n) :=
    onlyIn_of_follows (parts := [.kst, .out]) (follows_sendKcv (by decide) (follows_setSlot (by decide) (follows_refl s)))
  generalize setSlot s n { slotAt s n with st := 2 } = t at hexec hslot hspn hout honly
  have hkst := sendKcv_kst (s := t) n
  refine ⟨_, hexec, by rw [slotAt_of_kst hkst, hslot, if_pos rfl], fun m hm => by rw [slotAt_of_kst hkst, hslot, if_neg (Ne.symm hm)],
    fun hlink => ?_, honly⟩
  rw [sendKcv_out n.val (hspn ▸ hlink), hout, hslot, if_pos rfl, hkcv]

theorem keySlotClear_clears {n : Fin 2048} (hs : barSealed s = false) (h0 : (slotAt s n).nsid = 0) :
    ∃ t, exec (.keySlotClear n) s = .next t ∧ slotAt t n = {} ∧ (∀ e ∈ t.kst.nor, e.slot ≠ n) ∧
      (∀ m, m ≠ n.val → slotAt t m = slotAt s m) ∧ OnlyIn [.kst] s t := by
  have hexec : exec (.keySlotClear n) s = .next (clearSlot s n) := if_neg (Bool.eq_false_iff.1 hs)
  have honly : OnlyIn [.kst] s (clearSlot s n) := onlyIn_of_follows (parts := [.kst]) (follows_clearSlot (by decide) (follows_refl s))
  have hslot (m : Nat) : slotAt (clearSlot s n) m = if n.val = m then {} else slotAt s m := by
    rw [clearSlot, if_neg (not_not.2 h0)]
    exact slotAt_setSlot ..
  refine ⟨_, hexec, by rw [hslot, if_pos rfl], fun e he => ?_, fun m hm => by rw [hslot, if_neg (Ne.symm hm)], honly⟩
  rw [clearSlot, if_neg (not_not.2 h0)] at he
  obtain ⟨r, hr, rfl⟩ := List.mem_map.1 he
  have hne : r.slot.val ≠ n.val := of_decide_eq_true (List.mem_filter.1 hr).2
  rw [if_neg hne]
  exact fun h => hne (congrArg Fin.val h)

/-! ### The life-cycle -/

theorem lcNonceRead_draws (s : State) : ∃ t, exec .lcNonceRead s = .next t ∧ t.kst = { s.kst with nonce := some (Config.freshNonce s.free) } ∧
    t.hostRead = Config.freshNonce s.free ∧ t.free = s.free + 1 ∧ t.splitLatch = none ∧ OnlyIn [.free, .hostRead, .kst, .splitLatch] s t := by
  refine ⟨drawNonce { s with splitLatch := none }, rfl, rfl, rfl, rfl, rfl, ?_⟩
  exact onlyIn_of_follows (parts := [.free, .hostRead, .kst, .splitLatch])
    (follows_drawNonce (by decide) (upd_splitLatch (by decide) (follows_refl s)))

theorem transitionStatus_zero {b : Bytes} (h : transitionStatus s b = 0) : updating s = false ∧
    field b 0 1 = lifeCycle s + 1 ∧ field b 0x10 16 = s.bdy.serial.toNat ∧ s.kst.nonce = some (BitVec.ofNat 64 (field b 8 8)) ∧
    s.kst.transition = none ∧ transitionSigned s b = true ∧ s.spn.paired = true ∧ s.spn.link = 2 ∧ transitionReady s = true := by
  unfold transitionStatus at h
  split at h
  · cases h
  split at h
  · cases h
  case isFalse hup =>
  split at h
  · cases h
  case isFalse hstate =>
  split at h
  · cases h
  case isFalse hsigned =>
  split at h
  · cases h
  case isFalse hpair =>
  simp only [not_or, not_not, ne_eq, Bool.not_eq_true, Option.isSome_eq_false_iff, Option.isNone_iff_eq_none] at hstate
  simp only [Bool.or_eq_true, Bool.not_eq_eq_eq_not, Bool.not_true, not_or, Bool.not_eq_false, Bool.and_eq_true, beq_iff_eq] at hpair
  obtain ⟨hnext, hserial, hnonce, htrans⟩ := hstate
  obtain ⟨⟨hp, hl⟩, hready⟩ := hpair
  exact ⟨Bool.eq_false_iff.2 hup, hnext, hserial, hnonce, htrans, by simpa using hsigned, hp, hl, hready⟩

theorem transitionStatus_lt (s : State) (b : Bytes) : transitionStatus s b < 65536 := by
  unfold transitionStatus
  repeat' split
  all_goals decide

theorem transitionReady_spec (h : transitionReady s = true) : s.qre.vol = 0 ∧ dirtyBytes s = 0 ∧ s.qre.ingest = [] ∧ journalQuires s = 0 ∧
    s.qre.amends = [] ∧ readHold s 0xFF = true := by
  simpa only [transitionReady, Bool.and_eq_true, beq_iff_eq, List.isEmpty_iff, and_assoc] using h

theorem updating_spec (h : updating s = false) : s.bdy.staging = none ∧ s.bdy.commitBusy = false := by
  simpa only [updating, Bool.or_eq_false_iff, Option.isSome_eq_false_iff, Option.isNone_iff_eq_none] using h

variable {tag : Word} {b : Bytes}

theorem exec_lifecycleTransition (h : s.bdy.mboxMsg = some (1, tag.toNat, b)) : exec (.lifecycleTransition tag b) s =
    if transitionStatus s b ≠ 0 then .next (respond s 1 tag (transitionStatus s b))
    else .next (respond (send (armTransition s b (now s + 256)) (.mgmt (.transition b (BitVec.ofNat 64 (now s + 256))))) 1 tag 0) :=
  if_neg (by simp [inHand_iff.2 h])

theorem lifecycleTransition_arms (h : s.bdy.mboxMsg = some (1, tag.toNat, b)) (h0 : transitionStatus s b = 0) :
    ∃ t, exec (.lifecycleTransition tag b) s = .next t ∧ t.kst.transition = some (field b 0 1, now s + 256) ∧
      t.kst.nonce = none ∧ field (mailResponse t) 2 2 = 0 ∧ t.out = s.out ++ [{ cls := 3, msg := .mgmt (.transition b (BitVec.ofNat 64 (now s + 256))) }] ∧
      OnlyIn [.kst, .bdy, .out] s t := by
  have hexec := exec_lifecycleTransition h
  rw [if_neg (not_not.2 h0)] at hexec
  obtain ⟨-, -, -, -, -, -, -, hlink, -⟩ := transitionStatus_zero h0
  have hkst : (send (armTransition s b (now s + 256)) (.mgmt (.transition b (BitVec.ofNat 64 (now s + 256))))).kst =
    (armTransition s b (now s + 256)).kst := by simp only [send_frame]
  have hout := send_out (armTransition s b (now s + 256)) (.mgmt (.transition b (BitVec.ofNat 64 (now s + 256))))
  have hspn : (armTransition s b (now s + 256)).spn = s.spn := rfl
  rw [hspn, if_pos hlink] at hout
  refine ⟨_, hexec, ?_, ?_, status_respond _ 1 tag (by decide), ?_, ?_⟩
  · simp only [respond_frame, hkst]
    rfl
  · simp only [respond_frame, hkst]
    rfl
  · simp only [respond_frame, hout]
    rfl
  · exact onlyIn_of_follows (parts := [.kst, .bdy, .out]) (follows_respond (by decide) (follows_send (by decide)
      (follows_armTransition (by decide) (follows_refl s))))

theorem tornColophon_dropLast (s : State) : (tornColophon s).dropLast = s.bdy.colophon.dropLast := by
  unfold tornColophon
  split
  · split
    · exact List.dropLast_concat
    · rfl
  case h_2 h => rw [List.getLast?_eq_none_iff.1 h, List.dropLast_nil]

/-- A record that was formed 10 ms or more before is whole. -/
theorem tornColophon_of_old (h : ∀ c, s.bdy.colophon.getLast? = some c → c.stitch + 2500 ≤ s.tck.count) : tornColophon s = s.bdy.colophon := by
  unfold tornColophon
  split
  case h_1 c hc =>
    have hold := h c hc
    exact if_neg (fun ⟨_, hlt, _⟩ => by omega)
  case h_2 hnone => rw [List.getLast?_eq_none_iff.1 hnone]

/-- The last entries of the event log, the transition's own among them, are on its pages. -/
def transitLogged (s : State) (target : Nat) : State := writePages (event (bump s 12 3) (0x400 + target) 12 0)

theorem writePage_colophon (s : State) : (writePage s).bdy.colophon = s.bdy.colophon := by
  unfold writePage
  dsimp only
  split <;> rfl

theorem transitLogged_keeps (s : State) (target : Nat) : let u := transitLogged s target
    u.kst = s.kst ∧ u.mem = s.mem ∧ u.pwr = s.pwr ∧ u.tck = s.tck ∧ u.bdy.colophon = s.bdy.colophon := by
  intro u
  refine ⟨?_, ?_, ?_, ?_, foldl_keeps (fun t => t.bdy.colophon) (fun t _ => writePage_colophon t) _ _⟩ <;>
  · simp only [u, transitLogged, writePages_frame]
    rfl

theorem transit_spec (s : State) (target : Nat) : let t := transit s target
    t.kst.slots = [] ∧ t.kst.lc = { a := max s.kst.lc.a target, b := max s.kst.lc.b target, c := max s.kst.lc.c target } ∧ t.kst.nor = [] ∧
      t.kst.transition = none ∧ t.hiu.ns = [] ∧ t.hiu.zones = [] ∧ t.hiu.cmds = [] ∧ t.qre = {} ∧ t.cmd = {} ∧
      t.mem.epoch = s.mem.epoch + 1 ∧ t.mem.image = none ∧ t.mem.log = [] ∧ t.bdy.colophon.dropLast = s.bdy.colophon.dropLast ∧
      ((∀ c, s.bdy.colophon.getLast? = some c → c.stitch + 2500 ≤ s.tck.count) → t.bdy.colophon = s.bdy.colophon) ∧ t.bdy.staged = [] ∧
      t.pwr.phase = .warm ∧ t.pwr.resetCause = s.pwr.resetCause ∧ t.tck.count = s.tck.count := by
  intro t
  obtain ⟨hkst, hmem, hpwr, htck, hcol⟩ := transitLogged_keeps s target
  have hlc : t.kst.lc = blow (transitLogged s target).kst.lc target := rfl
  have hepoch : t.mem.epoch = (transitLogged s target).mem.epoch + 1 := rfl
  have htorn : t.bdy.colophon = tornColophon (transitLogged s target) := rfl
  have hcause : t.pwr.resetCause = (transitLogged s target).pwr.resetCause := rfl
  have hcount : t.tck.count = (transitLogged s target).tck.count := rfl
  refine ⟨rfl, by rw [hlc, hkst]; rfl, rfl, rfl, rfl, rfl, rfl, rfl, rfl, by rw [hepoch, hmem], rfl, rfl, ?_, fun hold => ?_, rfl, rfl,
    by rw [hcause, hpwr], by rw [hcount, htck]⟩
  · rw [htorn, tornColophon_dropLast, hcol]
  · rw [htorn, tornColophon_of_old (by rw [hcol, htck]; exact hold), hcol]

/-! ### Voted words -/

/-- The voted word of a number. -/
def votedWord (w : Nat) (t : State) : Voted :=
  match w with | 0 => t.kst.lc | 1 => t.kst.bndFloor | 2 => t.kst.fwFloor | 3 => t.kst.spindle | _ => t.kst.laser

theorem votedWord_setVoted (s : State) : ∀ (w : Nat) (v : Voted), votedWord w (setVoted s w v) = v
  | 0, _ => rfl
  | 1, _ => rfl
  | 2, _ => rfl
  | 3, _ => rfl
  | _ + 4, _ => rfl

/-- A voted word lies in the key store. -/
theorem setVoted_keeps {γ : Type} (g : State → γ) (hg : ∀ k, g { s with kst := k } = g s) : ∀ (w : Nat) (v : Voted), g (setVoted s w v) = g s
  | 0, _ => hg _
  | 1, _ => hg _
  | 2, _ => hg _
  | 3, _ => hg _
  | _ + 4, _ => hg _

theorem votedWord_of_kst {t : State} (w : Nat) (h : t.kst = s.kst) : votedWord w t = votedWord w s := by
  unfold votedWord
  rw [h]

theorem votedWordMismatch_restores (w : Fin 5) {a b c : Nat} (hne : a ≠ b ∨ b ≠ c) (heq : a = b ∨ a = c ∨ b = c) :
    ∃ t m, exec (.votedWordMismatch w a b c) s = .next t ∧ votedWord w.val t = { a := m, b := m, c := m } ∧
      (a = b → m = a) ∧ (a = c → m = a) ∧ (b = c → m = b) ∧ counter t 12 2 = counter s 12 2 + 1 ∧ OnlyIn [.kst, .cnt, .bdy] s t := by
  have hexec : exec (.votedWordMismatch w a b c) s =
      .next (countEvent (setVoted s w { a := votedFuses ⟨a, b, c⟩, b := votedFuses ⟨a, b, c⟩, c := votedFuses ⟨a, b, c⟩ }) 12 2 2 0xFF 0xFF
        [w, a, b, c]) := (if_neg (by omega)).trans (if_pos heq)
  refine ⟨_, votedFuses ⟨a, b, c⟩, hexec, ?_, fun h => ?_, fun h => ?_, fun h => ?_, ?_,
    onlyIn_of_follows (parts := [.kst, .cnt, .bdy]) (follows_countEvent (by decide) (follows_setVoted (by decide) (follows_refl s)))⟩
  · rw [votedWord_of_kst w.val (countEvent_kst ..), votedWord_setVoted]
  · exact if_pos (.inl h)
  · exact if_pos (.inr h)
  · unfold votedFuses
    rw [if_pos h]
    split
    case isTrue hor => exact hor.elim id (fun hac => hac.trans h.symm)
    case isFalse => rfl
  · have hcnt (v : Voted) : (setVoted s w v).cnt = s.cnt := setVoted_keeps State.cnt (fun _ => rfl) ..
    rw [counter_countEvent, if_pos rfl, counter, hcnt]
    rfl

theorem foldl_setCfs (l : List Nat) : ∀ (s : State) {n : Nat}, (ctrlAt s n).cfs = true ∨ n ∈ l →
    (ctrlAt (l.foldl (fun s n => setCtrl s n { ctrlAt s n with cfs := true }) s) n).cfs = true := by
  induction l with
  | nil => exact fun s n h => h.resolve_right (by simp)
  | cons m l ih =>
    intro s n h
    refine ih _ ?_
    rw [ctrlAt_setCtrl]
    by_cases hmn : m = n
    · exact .inl (by rw [if_pos hmn])
    · rw [if_neg hmn]
      exact h.imp id (fun h => (List.mem_cons.1 h).resolve_left (Ne.symm hmn))

/-- With no two copies alike the word stands as read, with the fault, and every bay run stops. -/
def votedFaulted (s : State) (w : Fin 5) (a b c : Nat) : State :=
  let t := event (setVoted s w { a := a, b := b, c := c }) 0 12 3 0xFF 0xFF [w, a, b, c]
  (List.range 8).foldl (fun s k => if runs s k then stopBay s k false else s) { t with kst := { t.kst with votedFault := true } }

theorem stopIf_keeps (t : State) (k : Nat) :
    (if runs t k then stopBay t k false else t).kst = t.kst ∧ (if runs t k then stopBay t k false else t).tck = t.tck := by
  split
  · simp only [stopBay_frame, and_self]
  · exact ⟨rfl, rfl⟩

theorem votedFaulted_spec (s : State) (w : Fin 5) (a b c : Nat) : let t := votedFaulted s w a b c
    t.kst.votedFault = true ∧ votedWord w.val t = { a := a, b := b, c := c } ∧ controllers t = controllers s := by
  intro t
  have hkst : t.kst = { (setVoted s w { a := a, b := b, c := c }).kst with votedFault := true } :=
    foldl_keeps State.kst (fun u k => (stopIf_keeps u k).1) _ _
  have htck : t.tck = (setVoted s w { a := a, b := b, c := c }).tck := foldl_keeps State.tck (fun u k => (stopIf_keeps u k).2) _ _
  have htck' : (setVoted s w { a := a, b := b, c := c }).tck = s.tck := setVoted_keeps State.tck (fun _ => rfl) ..
  have hword := votedWord_setVoted s w { a := a, b := b, c := c }
  refine ⟨by rw [hkst], ?_, by rw [controllers, htck, htck', controllers]⟩
  generalize setVoted s w { a := a, b := b, c := c } = u at hkst hword
  rw [← hword]
  unfold votedWord
  rw [hkst]

theorem votedWordMismatch_faults (w : Fin 5) {a b c : Nat} (hab : a ≠ b) (hac : a ≠ c) (hbc : b ≠ c) :
    ∃ t, exec (.votedWordMismatch w a b c) s = .next t ∧ t.kst.votedFault = true ∧
      votedWord w.val t = { a := a, b := b, c := c } ∧ ∀ n ∈ controllers s, (ctrlAt t n).cfs = true := by
  have hexec : exec (.votedWordMismatch w a b c) s = .next ((controllers (votedFaulted s w a b c)).foldl
      (fun s n => setCtrl s n { ctrlAt s n with cfs := true }) (votedFaulted s w a b c)) := (if_neg (by omega)).trans (if_neg (by omega))
  obtain ⟨hfault, hword, hctrl⟩ := votedFaulted_spec s w a b c
  generalize votedFaulted s w a b c = t at hexec hfault hword hctrl
  rw [hctrl] at hexec
  have hkst : ((controllers s).foldl (fun s n => setCtrl s n { ctrlAt s n with cfs := true }) t).kst = t.kst :=
    foldl_keeps (f := fun s n => setCtrl s n { ctrlAt s n with cfs := true }) State.kst (fun _ _ => rfl) _ _
  exact ⟨_, hexec, by rw [hkst, hfault], by rw [votedWord_of_kst w.val hkst, hword], fun n hn => foldl_setCfs _ t (.inr hn)⟩

end

end Sys2Proof.Machine

namespace Sys2Proof
open Machine

/-- Settles O47, from the rules of the key slots, of the life-cycle and of the voted words. -/
theorem keysAndLifeCycleMoveForward : Obligations.KeysAndLifeCycleMoveForward := by
  unfold Obligations.KeysAndLifeCycleMoveForward
  refine ⟨fun s hs => ⟨keyImport_imports hs, keyImport_refuses hs, importResult_of_lifeCycle _⟩, fun s hs => ⟨if_pos hs, fun n => if_pos hs⟩,
    fun s n kcv => ⟨kcvMatch_activates, fun h => if_neg (fun ⟨h1, h2⟩ => h.elim (fun h => h h1) (fun h => h h2)), keySlotClear_clears, fun hs hn => ?_⟩,
    lcNonceRead_draws, fun s tag b h => ⟨lifecycleTransition_arms h, fun h0 => ?_, fun h0 => ?_⟩,
    fun s target commit h => ⟨fun hne => ?_, fun heq => ⟨transit s target, ?_, transit_spec s target⟩⟩, fun s h => ?_,
    fun s w a b c => ⟨fun hab hbc => if_pos ⟨hab, hbc⟩, votedWordMismatch_restores w, votedWordMismatch_faults w⟩⟩
  · change execKeySlotClear n s = _
    rw [execKeySlotClear, if_neg (Bool.eq_false_iff.1 hs), clearSlot, if_pos hn]
  · refine ⟨respond s 1 tag (transitionStatus s b), ?_, rfl, rfl, status_respond s 1 tag (transitionStatus_lt s b)⟩
    rw [exec_lifecycleTransition h, if_pos h0]
  · obtain ⟨hup, hnext, hserial, hnonce, htrans, hsigned, hp, hl, hready⟩ := transitionStatus_zero h0
    obtain ⟨hstaging, hbusy⟩ := updating_spec hup
    obtain ⟨hvol, hdirty, hingest, hjournal, hamends, hhold⟩ := transitionReady_spec hready
    exact ⟨hnext, hserial, hnonce, htrans, hstaging, hp, hl, hvol, hdirty, hingest, hjournal, hamends, hhold, hbusy, hsigned⟩
  · change execLifecycleCommit s = _
    rw [execLifecycleCommit, h]
    exact if_neg hne
  · change execLifecycleCommit s = _
    rw [execLifecycleCommit, h]
    exact if_pos heq
  · change execLifecycleCommit s = _
    rw [execLifecycleCommit, h]

end Sys2Proof
end

section
/-! PROOFS. R330, R345, R346, R354, R355: entropy, lockstep, bay release, the Colophon read. -/

namespace Sys2Proof.Machine

section
variable {s : State}

/-! ### The entropy source and the lockstep pair -/

theorem drbgReseed_counts (h : s.cph.drbg = 0) : ∃ t, exec .drbgReseed s = .next t ∧ t.cph = { s.cph with drbgAt := now s } ∧
    counter t 11 6 = counter s 11 6 + 1 ∧ OnlyIn [.cph, .cnt] s t := by
  have hexec : exec .drbgReseed s = .next (bump { s with cph := { s.cph with drbgAt := now s } } 11 6) := if_neg (not_not.2 h)
  refine ⟨_, hexec, rfl, ?_, onlyIn_of_follows (parts := [.cph, .cnt]) (follows_bump (by decide) ?_)⟩
  · rw [counter_bump, if_pos rfl]
    rfl
  · exact upd_cph (cph' := { s.cph with drbgAt := now s }) (by decide) rfl rfl rfl (follows_refl s)

/-- The entropy source has failed a health test. -/
def entropyFailed (s : State) : State := countEvent { s with cph := { s.cph with drbg := 1 } } 11 7 2

theorem entropyFailed_spec (s : State) : let t := entropyFailed s
    t.cph = { s.cph with drbg := 1 } ∧ counter t 11 7 = counter s 11 7 + 1 ∧ OnlyIn [.cph, .cnt, .bdy] s t := by
  refine ⟨by simp [entropyFailed], ?_, onlyIn_of_follows (parts := [.cph, .cnt, .bdy]) (follows_countEvent (by decide) ?_)⟩
  · rw [entropyFailed, counter_countEvent, if_pos rfl]
    rfl
  · exact upd_cph (cph' := { s.cph with drbg := 1 }) (by decide) rfl rfl rfl (follows_refl s)

theorem entropyHealthFail_stops (h : s.cph.drbg ≠ 1) : ∃ t, exec .entropyHealthFail s = .next t ∧ t.cph = { s.cph with drbg := 1 } ∧
    cipherRuns t = false ∧ counter t 11 7 = counter s 11 7 + 1 ∧ OnlyIn [.cph, .cnt, .bdy] s t := by
  have hexec : exec .entropyHealthFail s = .next (if (entropyFailed s).mem.dumping then event (entropyFailed s) 0 12 1 else entropyFailed s) :=
    if_neg h
  obtain ⟨hcph, hcount, honly⟩ := entropyFailed_spec s
  have hruns {t : State} (ht : t.cph = { s.cph with drbg := 1 }) : cipherRuns t = false := by
    rw [cipherRuns, ht]
    rfl
  generalize entropyFailed s = u at hexec hcph hcount honly
  by_cases hd : u.mem.dumping = true
  · rw [if_pos hd] at hexec
    have hecph : (event u 0 12 1).cph = u.cph := by simp
    have hecnt : (event u 0 12 1).cnt = u.cnt := by simp
    refine ⟨_, hexec, hecph.trans hcph, hruns (hecph.trans hcph), ?_,
      onlyIn_trans honly (onlyIn_of_follows (parts := [.cph, .cnt, .bdy]) (follows_event (by decide) (follows_refl u)))⟩
    rw [counter, hecnt]
    exact hcount
  · rw [if_neg hd] at hexec
    exact ⟨_, hexec, hcph, hruns hcph, hcount, honly⟩

/-- The cores are halted and the twin falls silent; the warm reset comes 64 stitches on. -/
def lockstepHalted (s : State) : State :=
  { s with
    bdy := { s.bdy with halted := true }, tck := { s.tck with aliveOn := false, aliveOut := false }
    spn := { s.spn with silent := true, haltAt := now s + 64 } }

theorem lockstepMismatch_halts (h : s.bdy.halted = false) (ha : alive s = true) :
    ∃ t, exec .lockstepMismatch s = .next t ∧ t.bdy = { s.bdy with halted := true } ∧
      t.tck.aliveOut = false ∧ t.tck.aliveOn = false ∧ t.spn.silent = true ∧ t.spn.haltAt = now s + 64 ∧ now t = now s ∧
      OnlyIn [.bdy, .tck, .spn] s t := by
  have hexec : exec .lockstepMismatch s = .next (lockstepHalted s) := if_neg (by simp [h, ha])
  refine ⟨_, hexec, rfl, rfl, rfl, rfl, rfl, rfl, onlyIn_of_follows (parts := [.bdy, .tck, .spn]) ?_⟩
  refine upd_spn (s := { s with bdy := (lockstepHalted s).bdy, tck := (lockstepHalted s).tck }) (spn' := (lockstepHalted s).spn) (by decide) ?_
  exact upd_tck (s := { s with bdy := (lockstepHalted s).bdy }) (by decide) (upd_bdy (by decide) rfl rfl (follows_refl s))

/-! ### Release of the bays -/

/-- The bays are released from this stitch. -/
def baysReleased (s : State) : State := { s with bdy := { s.bdy with released := true, releasedAt := now s } }

theorem bayRelease_releases (h : s.bdy.released = false) (ha : alive s = true) : ∃ t, exec .bayRelease s = .next t ∧
    t.bdy.released = true ∧ t.bdy.releasedAt = now s ∧ counter t 0 6 = counter s 0 6 + 1 ∧ OnlyIn [.bdy, .cnt] s t := by
  have hexec : exec .bayRelease s = .next (countEvent (baysReleased s) 0 6 2) := if_neg (by simp [h, ha])
  refine ⟨_, hexec, rfl, rfl, ?_, onlyIn_of_follows (parts := [.bdy, .cnt]) (follows_countEvent (by decide) ?_)⟩
  · rw [counter_countEvent, if_pos rfl]
    rfl
  · exact upd_bdy (bdy' := (baysReleased s).bdy) (by decide) rfl rfl (follows_refl s)

/-- What withholding makes of the pair state of a bay. -/
def withheld (p : PairBay) (cause : Nat) : PairBay :=
  let under := decide (2 ≤ p.resync)
  { p with
    withhold := if p.withhold = 0 then cause else p.withhold, hits := 0
    resync := if under then 0 else p.resync, kKnown := p.kKnown && !under
    ring := if under then [] else p.ring, cmdRing := if under then [] else p.cmdRing }

theorem pairAt_withhold (s : State) (b cause j : Nat) :
    pairAt (withhold s b cause) j = if b = j then withheld (pairAt s b) cause else pairAt s j := pairAt_setPair ..

theorem withheld_of_noResync {p : PairBay} (h : p.resync < 2) (cause : Nat) :
    withheld p cause = { p with withhold := if p.withhold = 0 then cause else p.withhold, hits := 0 } := by
  have hno : decide (2 ≤ p.resync) = false := decide_eq_false (by omega)
  simp [withheld, hno]

theorem withheld_spec (p : PairBay) (cause : Nat) : (withheld p cause).withhold = (if p.withhold = 0 then cause else p.withhold) ∧
    (withheld p cause).hits = 0 ∧ (2 ≤ p.resync → (withheld p cause).resync = 0) ∧
    (p.resync < 2 → withheld p cause = { p with withhold := if p.withhold = 0 then cause else p.withhold, hits := 0 }) :=
  ⟨rfl, rfl, fun h => if_pos (decide_eq_true h), fun h => withheld_of_noResync h cause⟩

/-- A shadowed bay is withheld, no other bay changes. -/
def withholdShadow (cause : Nat) (s : State) (b : Nat) : State := if shadows s b then withhold s b cause else s

theorem pairAt_withholdShadow (cause : Nat) (s : State) (b j : Nat) : pairAt (withholdShadow cause s b) j =
    if b = j ∧ shadows s b = true then withheld (pairAt s b) cause else pairAt s j := by
  unfold withholdShadow
  by_cases h : shadows s b = true
  · rw [if_pos h, pairAt_withhold]
    simp [h]
  · rw [if_neg h, if_neg (fun hj => h hj.2)]

theorem pairAt_withholdShadows (cause : Nat) {l : List Nat} (hl : l.Nodup) (s : State) (j : Nat) :
    pairAt (l.foldl (withholdShadow cause) s) j = if j ∈ l ∧ shadows s j = true then withheld (pairAt s j) cause else pairAt s j := by
  induction l generalizing s with
  | nil => simp
  | cons b l ih =>
    obtain ⟨hb, hl⟩ := List.nodup_cons.1 hl
    rw [List.foldl_cons, ih hl]
    by_cases hj : b = j
    · subst hj
      rw [if_neg (fun h => hb h.1), pairAt_withholdShadow]
      simp
    · have hsame : pairAt (withholdShadow cause s b) j = pairAt s j := by
        rw [pairAt_withholdShadow, if_neg (fun h => hj h.1)]
      simp only [shadows, hsame, List.mem_cons, Ne.symm hj, false_or]

/-- The release of the bays ends. -/
def releaseEnded (s : State) : State := { s with bdy := { s.bdy with released := false } }

theorem bayReleaseEnd_ends (h : s.bdy.released = true) (ht : s.bdy.releasedAt + 250000 ≤ now s) :
    ∃ t, exec .bayReleaseEnd s = .next t ∧ t.bdy = { s.bdy with released := false } ∧
      (∀ b, b < 8 → shadows s b = true → let p := pairAt s b
        (pairAt t b).withhold = (if p.withhold = 0 then 10 else p.withhold) ∧ (pairAt t b).hits = 0 ∧ (2 ≤ p.resync → (pairAt t b).resync = 0) ∧
        (p.resync < 2 → pairAt t b = { p with withhold := if p.withhold = 0 then 10 else p.withhold, hits := 0 })) ∧
      (∀ b, b < 8 → shadows s b = false → pairAt t b = pairAt s b) ∧ OnlyIn [.bdy, .spn] s t := by
  have hnot : ¬ (!s.bdy.released || decide (now s < s.bdy.releasedAt + Config.sec)) = true := by
    rw [h, decide_eq_false (by simpa [Config.sec] using ht)]
    decide
  have hexec : exec .bayReleaseEnd s = .next ((List.range 8).foldl (withholdShadow 10) (releaseEnded s)) := if_neg hnot
  have hpair (b : Nat) := pairAt_withholdShadows 10 (List.nodup_range (n := 8)) (releaseEnded s) b
  have hbdy : ((List.range 8).foldl (withholdShadow 10) (releaseEnded s)).bdy = (releaseEnded s).bdy := by
    refine foldl_keeps (f := withholdShadow 10) State.bdy (fun u b => ?_) ..
    unfold withholdShadow
    split
    · simp only [withhold_frame]
    · rfl
  have honly : OnlyIn [.bdy, .spn] s ((List.range 8).foldl (withholdShadow 10) (releaseEnded s)) :=
    onlyIn_of_follows (parts := [.bdy, .spn]) (follows_foldl
      (upd_bdy (bdy' := (releaseEnded s).bdy) (by decide) rfl rfl (follows_refl s))
      (fun u b hu => follows_ite (follows_withhold (by decide) hu) hu))
  generalize (List.range 8).foldl (withholdShadow 10) (releaseEnded s) = t at hexec hpair hbdy honly
  have hsame (b : Nat) : pairAt (releaseEnded s) b = pairAt s b := rfl
  have hshadows (b : Nat) : shadows (releaseEnded s) b = shadows s b := rfl
  simp only [hsame, hshadows, List.mem_range] at hpair
  refine ⟨t, hexec, hbdy, fun b hb hs => ?_, fun b hb hs => by rw [hpair, if_neg (by simp [hs])], honly⟩
  intro p
  rw [hpair, if_pos ⟨hb, hs⟩]
  exact withheld_spec p 10

/-! ### The Colophon read -/

theorem length_measurements (c : ColRec) : ((List.range 13).flatMap (fun i => natLe 48 (c.meas.getD i 0).toNat)).length = 624 := by
  rw [length_flatMap_const (m := 48) _ (fun i _ => length_natLe 48 _), List.length_range]

theorem length_colBody (c : ColRec) : (colBody c).length = 880 := by
  have hmeas := length_measurements c
  unfold colBody
  generalize (List.range 13).flatMap (fun i => natLe 48 (c.meas.getD i 0).toNat) = meas at hmeas ⊢
  simp only [List.length_append, length_natLe, hmeas, zeros, List.length_replicate, List.length_cons, List.length_nil]

theorem length_colBytes (c : ColRec) : (colBytes c).length = 1024 := by
  simp only [colBytes, List.length_append, length_colBody, length_natLe]

theorem take_colBytes (c : ColRec) : (colBytes c).take 880 = colBody c := by
  rw [colBytes, List.append_assoc, List.take_left' (length_colBody c)]

/-- The records of a read, newest first. -/
def readRecords (s : State) (first count : Nat) : List ColRec := ((heldRecords s).reverse.drop first).take count

theorem length_readRecords (s : State) (first count : Nat) :
    (readRecords s first count).length = min count ((heldRecords s).length - first) := by simp [readRecords]

theorem readRecords_get {first count k : Nat} {c : ColRec} (hk : k < count) (hlt : first + k < (heldRecords s).length)
    (hc : (heldRecords s)[(heldRecords s).length - 1 - (first + k)]? = some c) : (readRecords s first count)[k]? = some c := by
  rw [readRecords, List.getElem?_take_of_lt hk, List.getElem?_drop, List.getElem?_reverse hlt, hc]

theorem colophonRead_reads (s : State) (r : CmdRef) (first count : Word) :
    ∃ data, exec (.colophonRead r first count) s = .next (complete s r .success 0 data) ∧
    let held := s.bdy.colophon.filter recValid
    data.length = 1024 * count.toNat ∧ (held.length ≤ first.toNat → data = zeros (1024 * count.toNat)) ∧
    (∀ k c, k < count.toNat → first.toNat + k < held.length → held[held.length - 1 - (first.toNat + k)]? = some c →
      (data.drop (1024 * k)).take 1024 = colBytes c ∧ (colBytes c).take 880 = colBody c) := by
  have hlen := length_readRecords s first.toNat count.toNat
  have hflat : ((readRecords s first.toNat count.toNat).flatMap colBytes).length = 1024 * (readRecords s first.toNat count.toNat).length :=
    length_flatMap_const _ (fun c _ => length_colBytes c)
  refine ⟨_, rfl, ?_, fun hle => ?_, fun k c hk hlt hc => ⟨?_, take_colBytes c⟩⟩
  · change ((readRecords s first.toNat count.toNat).flatMap colBytes ++ zeros (1024 * (count.toNat - (readRecords s first.toNat count.toNat).length))).length = _
    rw [List.length_append, hflat, zeros, List.length_replicate]
    omega
  · have hnil : readRecords s first.toNat count.toNat = [] := by
      rw [← List.length_eq_zero_iff, hlen]
      exact Nat.le_zero.1 (Nat.le_trans (Nat.min_le_right ..) (Nat.le_of_eq (Nat.sub_eq_zero_of_le hle)))
    change (readRecords s first.toNat count.toNat).flatMap colBytes ++ zeros (1024 * (count.toNat - (readRecords s first.toNat count.toNat).length)) = _
    rw [hnil]
    rfl
  · have hget := readRecords_get hk hlt hc
    obtain ⟨hi, hrec⟩ := List.getElem?_eq_some_iff.1 hget
    change (((readRecords s first.toNat count.toNat).flatMap colBytes ++ zeros (1024 * (count.toNat - (readRecords s first.toNat count.toNat).length))).drop
      (1024 * k)).take 1024 = _
    rw [List.drop_append_of_le_length (by omega), List.take_append_of_le_length (by rw [List.length_drop]; omega),
      take_drop_flatMap length_colBytes _ hi, hrec]

end

end Sys2Proof.Machine

namespace Sys2Proof
open Machine

/-- Settles O48. -/
theorem theBinderyWatchesItsTwin : Obligations.TheBinderyWatchesItsTwin := by
  unfold Obligations.TheBinderyWatchesItsTwin
  refine ⟨fun s => ⟨drbgReseed_counts, fun h => if_pos h, entropyHealthFail_stops, fun h => ⟨if_pos h, if_pos h⟩, fun h => if_neg h⟩,
    fun s => ⟨lockstepMismatch_halts, fun h => if_pos ?_⟩, fun s => ⟨bayRelease_releases, fun h => if_pos ?_, bayReleaseEnd_ends⟩, colophonRead_reads⟩
  · rcases h with h | h <;> simp [h]
  · rcases h with h | h
    · simp [h]
    · simp [Config.sec, h]

end Sys2Proof
end

section
/-! PROOFS. R356, R357, R359: the SMBus endpoint. -/

namespace Sys2Proof.Machine

section
variable {s : State}

theorem answer_of_up (h : endpointUp s = true) (type : Nat) (b : Bytes) :
    answer s type b = { s with bdy := { s.bdy with smbOut := s.bdy.smbOut ++ [(type, b)] } } := if_pos h

theorem answer_of_down (h : endpointUp s = false) (type : Nat) (b : Bytes) : answer s type b = s := if_neg (Bool.eq_false_iff.1 h)

theorem onlyIn_answer (s : State) (type : Nat) (b : Bytes) : OnlyIn [.bdy] s (answer s type b) :=
  onlyIn_of_follows (parts := [.bdy]) (follows_answer (by decide) (follows_refl s))

/-- A command that only answers sends one response and changes nothing else. -/
theorem tells_of_exec {c : Instr} {type : Nat} {b : Bytes} (hup : endpointUp s = true) (h : exec c s = .next (answer s type b)) :
    ∃ t, exec c s = .next t ∧ t.bdy = { s.bdy with smbOut := s.bdy.smbOut ++ [(type, b)] } ∧ OnlyIn [.bdy] s t :=
  ⟨_, h, by rw [answer_of_up hup], onlyIn_answer s type b⟩

/-! ### MCTP and NVMe-MI -/

/-- The endpoint has an identifier. -/
def eidSet (s : State) (e : Byte) : State := { s with bdy := { s.bdy with eid := e.toNat } }

theorem mctpSetEndpointId_sets (hup : endpointUp s = true) {e : Byte} (h0 : e ≠ 0) (hff : e ≠ 0xFF) :
    ∃ t, exec (.mctpSetEndpointId e) s = .next t ∧ t.bdy.eid = e.toNat ∧
      exec .mctpGetEndpointId t = .next (answer t 0 [2, 0, e, 0, 0]) ∧ OnlyIn [.bdy] s t := by
  have hexec : exec (.mctpSetEndpointId e) s = .next (answer (eidSet s e) 0 [1, 0, 0, e, 0]) := if_neg (by rintro (h | h | h); exacts [h0 h, hff h, by simp [hup] at h])
  have heid : (answer (eidSet s e) 0 [1, 0, 0, e, 0]).bdy.eid = e.toNat := by rw [answer_of_up (s := eidSet s e) hup]; rfl
  refine ⟨_, hexec, heid, ?_, onlyIn_trans (onlyIn_of_follows (parts := [.bdy]) ?_) (onlyIn_answer ..)⟩
  · change Host.Outcome.next (answer _ 0 [2, 0, BitVec.ofNat 8 (answer (eidSet s e) 0 [1, 0, 0, e, 0]).bdy.eid, 0, 0]) = _
    rw [heid, BitVec.ofNat_toNat, BitVec.setWidth_eq]
  · exact upd_bdy (bdy' := (eidSet s e).bdy) (by decide) rfl rfl (follows_refl s)

theorem exec_mctpGetVersionSupport (ty : Byte) : exec (.mctpGetVersionSupport ty) s =
    .next (answer s 0 ((versions ty).elim [4, 0x80] ([4, 0] ++ ·))) := by
  change execMctpGetVersionSupport ty s = _
  rw [execMctpGetVersionSupport]
  cases versions ty <;> rfl

theorem versions_of_notMem {ty : Byte} (h : ty ∉ [0, 0xFF, 1, 4, 5]) : versions ty = none := by
  simp only [List.mem_cons, List.not_mem_nil, or_false, not_or] at h
  obtain ⟨h0, hff, h1, h4, h5⟩ := h
  exact (if_neg (by rintro (h | h); exacts [h0 h, hff h])).trans (if_neg (by rintro (h | h | h); exacts [h1 h, h4 h, h5 h]))

theorem versions_of_mem {ty : Byte} (h : ty ∈ [0, 0xFF, 1, 4, 5]) : ∃ v, versions ty = some v := by
  simp only [List.mem_cons, List.not_mem_nil, or_false] at h
  rcases h with rfl | rfl | rfl | rfl | rfl <;> exact ⟨_, rfl⟩

theorem exec_nvmeMiConfigurationGet (id : Byte) : exec (.nvmeMiConfigurationGet id) s =
    .next (answer s 4 (if miKnown id then [0] ++ natLe 4 (getD s.bdy.miConfig 0 id.toNat).toNat else [4])) := by
  change execNvmeMiConfigurationGet id s = _
  rw [execNvmeMiConfigurationGet]
  split <;> rfl

theorem miKnown_iff {id : Byte} : miKnown id = true ↔ 1 ≤ id.toNat ∧ id.toNat ≤ 3 := by simp [miKnown]

/-- A configuration value is stored. -/
def configStored (s : State) (id : Byte) (v : Word) : State := { s with bdy := { s.bdy with miConfig := put s.bdy.miConfig 0 id.toNat v } }

theorem nvmeMiConfiguration_readsBack (hup : endpointUp s = true) {id : Byte} (v : Word) (h : miKnown id = true) :
    ∃ t, exec (.nvmeMiConfigurationSet id v) s = .next t ∧ t.bdy.smbOut = s.bdy.smbOut ++ [(4, [0])] ∧
      ∃ u, exec (.nvmeMiConfigurationGet id) t = .next u ∧
        u.bdy = { t.bdy with smbOut := t.bdy.smbOut ++ [(4, [0] ++ natLe 4 v.toNat)] } ∧ OnlyIn [.bdy] t u := by
  have hexec : exec (.nvmeMiConfigurationSet id v) s = .next (answer (configStored s id v) 4 [0]) :=
    (if_neg (by simp [h])).trans (if_neg (by simp [hup]))
  rw [answer_of_up (s := configStored s id v) hup] at hexec
  refine ⟨_, hexec, rfl, tells_of_exec hup ?_⟩
  have hread : getD (put s.bdy.miConfig 0 id.toNat v) 0 id.toNat = v := (getD_put ..).trans (if_pos rfl)
  rw [exec_nvmeMiConfigurationGet, if_pos h]
  change Host.Outcome.next (answer _ 4 ([0] ++ natLe 4 (getD (put s.bdy.miConfig 0 id.toNat v) 0 id.toNat).toNat)) = _
  rw [hread]

/-- What a tunnelled command is answered with (R356). -/
def tunnelled (s : State) (op arg : Byte) : Bytes :=
  if op = 0x06 then (identifyData s 0 arg.toNat 0).elim [4] ([0] ++ ·)
  else if op = 0x02 then (logPage s arg.toNat).elim [4] ([0] ++ ·)
  else if op = 0x0A then
    match featureOf arg with
    | .other _ => [4]
    | f => [0] ++ natLe 8 (featCurrent s 0 f)
  else [3]

theorem exec_nvmeMiTunnelledAdmin (op arg : Byte) : exec (.nvmeMiTunnelledAdmin op arg) s = .next (answer s 4 (tunnelled s op arg)) := by
  change execNvmeMiTunnelledAdmin op arg s = _
  unfold execNvmeMiTunnelledAdmin tunnelled
  split
  · cases identifyData s 0 arg.toNat 0 <;> rfl
  split
  · cases logPage s arg.toNat <;> rfl
  split
  · cases featureOf arg <;> rfl
  · rfl

/-! ### SPDM -/

/-- What a challenge response says before its signature. -/
def challengeBody (s : State) (k : Byte) (n : BitVec 256) : Bytes :=
  [k] ++ natLe 32 n.toNat ++ natLe 48 (Config.sha384 (Config.certChain k.toNat)).toNat ++ natLe 8 (freeValue s).toNat

theorem exec_spdmChallenge {k : Byte} (n : BitVec 256) (h : k.toNat ≤ 4) : exec (.spdmChallenge k n) s =
    .next (answer (drawn s) 5 ([0] ++ signedAnswer s 3 (challengeBody s k n))) := if_neg (Nat.not_lt.2 h)

theorem challengeBody_nonce (s : State) (k : Byte) (n : BitVec 256) : ((challengeBody s k n).drop 1).take 32 = natLe 32 n.toNat := by
  unfold challengeBody
  rw [List.append_assoc, List.append_assoc, List.singleton_append, List.drop_succ_cons, List.drop_zero,
    List.take_left' (length_natLe ..)]

/-- The blocks that a measurement index asks for. -/
def measurementBlocks (s : State) (k : Byte) : Bytes :=
  if k.toNat = 0 then [15] else if k.toNat = 255 then (List.range 15).flatMap (fun i => measurement s (i + 1)) else measurement s k.toNat

theorem exec_spdmGetMeasurements {k : Byte} (n : BitVec 256) (h : k.toNat ≤ 15 ∨ k = 255) : exec (.spdmGetMeasurements k n) s =
    .next (answer s 5 ([0] ++ signedAnswer s 0x60 ([k] ++ natLe 32 n.toNat ++ measurementBlocks s k))) :=
  if_neg (fun ⟨h15, h255⟩ => h.elim (fun h => by omega) (fun h => h255 (by rw [h]; rfl)))

/-! ### PLDM firmware update -/

section
variable {comp : Half} {off : Word} {data : Bytes}

theorem exec_pldm {act : Bool} (hup : endpointUp s = true) (hc : comp = 1 ∨ comp = 2) (hfree : stagingBusy s true = false) :
    exec (.pldmFirmwareUpdate comp off data act) s =
      if !act then
        if Config.fwSlotBytes < off.toNat + data.length then .next (pldmAnswer s 2)
        else .next (pldmAnswer (stageChunk s true off.toNat data) 0)
      else
        let i := stagedImage s
        let slot := 3 - runningSlot s i.kind
        if i.kind.toNat ≠ comp.toNat then .next (pldmAnswer s 2)
        else if i.kind = 1 then
          if (commitFault s true slot).isSome then .next (pldmAnswer s 2)
          else .next (pldmAnswer (makePending (writeSlot s i slot) slot) 0)
        else if (activateFault s true slot).isSome then .next (pldmAnswer s 2)
        else .next (pldmAnswer (beginActivation s slot) 0) :=
  (if_neg (by simp [hup])).trans ((if_neg (fun ⟨h1, h2⟩ => hc.elim h1 h2)).trans (if_neg (by simp [hfree])))

theorem pldm_stages (hup : endpointUp s = true) (hc : comp = 1 ∨ comp = 2) (hfree : stagingBusy s true = false)
    (hfit : off.toNat + data.length ≤ Config.fwSlotBytes) : ∃ t b, exec (.pldmFirmwareUpdate comp off data false) s = .next t ∧
      t.bdy.staging = some b ∧ t.bdy.stagingMi = true ∧ (b.drop off.toNat).take data.length = data ∧
      t.bdy.smbOut = s.bdy.smbOut ++ [(1, Config.stdData 0x20 0)] ∧ OnlyIn [.bdy] s t := by
  have hexec : exec (.pldmFirmwareUpdate comp off data false) s = .next (pldmAnswer (stageChunk s true off.toNat data) 0) :=
    (exec_pldm hup hc hfree).trans ((if_pos rfl).trans (if_neg (Nat.not_lt.2 hfit)))
  obtain ⟨hdata, -, -⟩ := stageAt_spec (s.bdy.staging.getD []) off.toNat data
  have honly : OnlyIn [.bdy] s (pldmAnswer (stageChunk s true off.toNat data) 0) :=
    onlyIn_trans (onlyIn_of_follows (parts := [.bdy]) (follows_stageChunk (by decide) (follows_refl s))) (onlyIn_answer ..)
  rw [pldmAnswer, answer_of_up (s := stageChunk s true off.toNat data) hup] at hexec honly
  exact ⟨_, _, hexec, rfl, rfl, hdata, rfl, honly⟩

/-- An answer only joins those sent. -/
theorem pldmAnswer_keeps (s : State) (code : Nat) : let u := pldmAnswer s code
    u.pwr = s.pwr ∧ u.cmd = s.cmd ∧ { u.bdy with smbOut := s.bdy.smbOut } = s.bdy ∧ OnlyIn [.bdy] s u := by
  unfold pldmAnswer
  refine ⟨(onlyIn_answer s 1 _).2 .pwr (by decide), (onlyIn_answer s 1 _).2 .cmd (by decide), ?_, onlyIn_answer ..⟩
  unfold answer
  split <;> rfl

theorem pldm_activates (hup : endpointUp s = true) (hc : comp = 1 ∨ comp = 2) (hfree : stagingBusy s true = false)
    (hk : (stagedImage s).kind.toNat = comp.toNat) (hk2 : (stagedImage s).kind = 2) (hok : activateFault s true (3 - s.bdy.booted) = none) :
    ∃ t, exec (.pldmFirmwareUpdate comp off data true) s = .next t ∧
      t.pwr.activating = 3 - s.bdy.booted ∧ t.cmd.fetchPaused = true ∧ t.bdy.booted = s.bdy.booted := by
  have hrun : runningSlot s (stagedImage s).kind = s.bdy.booted := if_neg (by rw [hk2]; decide)
  have hexec := exec_pldm (off := off) (data := data) (act := true) hup hc hfree
  dsimp only [Bool.not_true] at hexec
  rw [if_neg (by decide), hrun, if_neg (not_not.2 hk), if_neg (by rw [hk2]; decide), hok, if_neg (by decide)] at hexec
  obtain ⟨hact, hcmd, -, hboot, -, -⟩ := beginActivation_spec s (3 - s.bdy.booted)
  generalize beginActivation s (3 - s.bdy.booted) = u at hexec hact hcmd hboot
  obtain ⟨kpwr, kcmd, kbdy, -⟩ := pldmAnswer_keeps u 0
  refine ⟨_, hexec, by rw [kpwr, hact], by rw [kcmd, hcmd], ?_⟩
  exact (congrArg Bdy.booted kbdy :).trans hboot

theorem pldm_makesPending (hup : endpointUp s = true) (hc : comp = 1) (hfree : stagingBusy s true = false)
    (hk : (stagedImage s).kind = 1) (hok : commitFault s true (3 - s.bdy.bootedLoader) = none) :
    ∃ t, exec (.pldmFirmwareUpdate comp off data true) s = .next t ∧ slotImage t 1 (3 - s.bdy.bootedLoader) = some (stagedImage s) ∧
      t.bdy.pendingSlot = 3 - s.bdy.bootedLoader ∧ t.bdy.attempts = 3 ∧ t.bdy.staging = none ∧ OnlyIn [.bdy] s t := by
  have hrun : runningSlot s (stagedImage s).kind = s.bdy.bootedLoader := if_pos hk
  have hexec := exec_pldm (off := off) (data := data) (act := true) hup (.inl hc) hfree
  dsimp only [Bool.not_true] at hexec
  rw [if_neg (by decide), hrun, if_neg (by rw [hk, hc]; decide), if_pos hk, hok, if_neg (by decide)] at hexec
  obtain ⟨hstaging, -, -, -, -, -, honly⟩ := writeSlot_spec s (stagedImage s) (3 - s.bdy.bootedLoader)
  have hslot := slotImage_writeSlot (s := s) (n := 3 - s.bdy.bootedLoader) (m := 3 - s.bdy.bootedLoader) (.inl hk) (.inl rfl)
  rw [if_pos ⟨hk.symm, rfl⟩, ← slotImage_makePending] at hslot
  obtain ⟨hpend, hatt, -, -, hrest, hmore⟩ := makePending_spec (writeSlot s (stagedImage s) (3 - s.bdy.bootedLoader)) (3 - s.bdy.bootedLoader)
  have hst := (congrArg Bdy.staging hrest :).trans hstaging
  have hreach := onlyIn_trans honly hmore
  generalize makePending (writeSlot s (stagedImage s) (3 - s.bdy.bootedLoader)) (3 - s.bdy.bootedLoader) = u at hexec hslot hpend hatt hst hreach
  obtain ⟨-, -, kbdy, konly⟩ := pldmAnswer_keeps u 0
  have kslots : slotImage (pldmAnswer u 0) 1 = slotImage u 1 := (congrArg (fun b : Bdy => look b.bootSlots) kbdy :)
  exact ⟨_, hexec, by rw [kslots, hslot], (congrArg Bdy.pendingSlot kbdy :).trans hpend, (congrArg Bdy.attempts kbdy :).trans hatt,
    (congrArg Bdy.staging kbdy :).trans hst, onlyIn_trans hreach konly⟩

/-! ### While the endpoint is down -/

theorem exec_of_down (hdown : endpointUp s = false) (k arg : Byte) (v : Word) (ct : Option (Fin 2)) (n : BitVec 256) (act : Bool) :
    ∀ c ∈ [Instr.mctpSetEndpointId k, .mctpGetEndpointId, .mctpGetVersionSupport k, .mctpGetMessageTypeSupport, .nvmeMiReadDataStructure k,
      .nvmeMiHealthStatusPoll ct, .nvmeMiConfigurationGet k, .nvmeMiConfigurationSet k v, .nvmeMiTunnelledAdmin k arg, .spdmGetCertificate k,
      .spdmGetMeasurements k n, .pldmFirmwareUpdate comp off data act], exec c s = .next s := by
  have hsilent (type : Nat) (b : Bytes) : (.next (answer s type b) : Out) = .next s := by rw [answer_of_down hdown]
  have hno : (!endpointUp s) = true := by simp [hdown]
  intro c hc
  simp only [List.mem_cons, List.not_mem_nil, or_false] at hc
  rcases hc with rfl | rfl | rfl | rfl | rfl | rfl | rfl | rfl | rfl | rfl | rfl | rfl
  · exact (if_pos (.inr (.inr hno))).trans (hsilent ..)
  · exact hsilent ..
  · exact (exec_mctpGetVersionSupport k).trans (hsilent ..)
  · exact hsilent ..
  · exact hsilent ..
  · cases ct with
    | none => exact hsilent ..
    | some m =>
      change (if _ then _ else _) = _
      split <;> exact hsilent ..
  · exact (exec_nvmeMiConfigurationGet k).trans (hsilent ..)
  · by_cases hk : miKnown k = true
    · exact (if_neg (by simp [hk])).trans (if_pos hno)
    · exact (if_pos (by simp [hk])).trans (hsilent ..)
  · exact (exec_nvmeMiTunnelledAdmin k arg).trans (hsilent ..)
  · change (if _ then _ else _) = _
    split <;> exact hsilent ..
  · change execSpdmGetMeasurements k n s = _
    unfold execSpdmGetMeasurements
    dsimp only
    split <;> exact hsilent ..
  · exact if_pos hno

end

end

end Sys2Proof.Machine

namespace Sys2Proof
open Machine

/-- Settles O49, from the response of each request. -/
theorem theEndpointAnswersOnSmbus : Obligations.TheEndpointAnswersOnSmbus := by
  unfold Obligations.TheEndpointAnswersOnSmbus
  intro tells
  refine ⟨fun s hup => ⟨fun e => mctpSetEndpointId_sets hup, tells_of_exec hup rfl, tells_of_exec hup rfl, tells_of_exec hup rfl, fun ty h => ?_,
      fun ty h => ?_, fun k => ⟨_, tells_of_exec hup rfl⟩, tells_of_exec hup rfl, fun n hn => tells_of_exec hup (if_pos (by simpa using hn)),
      fun id v h1 h3 => nvmeMiConfiguration_readsBack hup v (miKnown_iff.2 ⟨h1, h3⟩), fun id v h => ?_, fun op arg h => ?_,
      fun op arg => ⟨_, tells_of_exec hup (exec_nvmeMiTunnelledAdmin op arg)⟩, fun arg p h => ?_,
      fun k => ⟨fun h => tells_of_exec hup (if_pos h), fun h => tells_of_exec hup (if_neg (Nat.not_le.2 h))⟩,
      fun k n => ⟨fun h => tells_of_exec hup (if_pos h), fun h => ?_⟩,
      fun k n => ⟨fun h15 h255 => tells_of_exec hup (if_pos ⟨h15, fun h => h255 (BitVec.eq_of_toNat_eq h)⟩),
        fun h => ⟨_, tells_of_exec hup (exec_spdmGetMeasurements n h)⟩⟩⟩,
    fun s comp off data hup hc => ⟨fun hbusy => tells_of_exec hup ?_, pldm_stages hup hc, pldm_activates hup hc, fun hfree h1 => pldm_makesPending hup h1 hfree⟩,
    fun s comp off data act hup h1 h2 => tells_of_exec hup ((if_neg (by simp [hup])).trans (if_pos ⟨h1, h2⟩)),
    fun s k arg v off ct n comp data act hdown => ⟨exec_of_down hdown k arg v ct n act, fun h => ?_, fun h => ?_⟩⟩
  · have hexec := exec_mctpGetVersionSupport (s := s) ty
    rw [versions_of_notMem h] at hexec
    exact tells_of_exec hup hexec
  · obtain ⟨v, hv⟩ := versions_of_mem h
    have hexec := exec_mctpGetVersionSupport (s := s) ty
    rw [hv] at hexec
    exact ⟨v, tells_of_exec hup hexec⟩
  · have hk : miKnown id = false := Bool.eq_false_iff.2 (fun hk => by have := miKnown_iff.1 hk; omega)
    have hget := exec_nvmeMiConfigurationGet (s := s) id
    rw [if_neg (Bool.eq_false_iff.1 hk)] at hget
    exact ⟨tells_of_exec hup (if_pos (by simp [hk])), tells_of_exec hup hget⟩
  · simp only [List.mem_cons, List.not_mem_nil, or_false, not_or] at h
    obtain ⟨h6, h2, h10⟩ := h
    exact tells_of_exec hup ((if_neg h6).trans ((if_neg h2).trans (if_neg h10)))
  · have hexec := exec_nvmeMiTunnelledAdmin (s := s) 0x02 arg
    rw [tunnelled, if_neg (by decide), if_pos rfl, h] at hexec
    exact tells_of_exec hup hexec
  · have hexec := exec_spdmChallenge (s := s) n h
    rw [answer_of_up (s := drawn s) hup] at hexec
    exact ⟨_, challengeBody s k n, hexec, rfl, rfl, challengeBody_nonce s k n⟩
  · exact (if_neg (by simp [hup])).trans ((if_neg (fun ⟨h1, h2⟩ => hc.elim h1 h2)).trans (if_pos hbusy))
  · rw [exec_spdmChallenge n h, answer_of_down (s := drawn s) hdown]
  · exact (if_pos h).trans (by rw [answer_of_down hdown])

end Sys2Proof
end

section
/-! PROOFS. R372: bring-up orders CLOSE of the focus cells, among cells listed out of order. -/

namespace Sys2Proof.Machine

/-- Bay 0 in step 2 of bring-up. Key 3 is listed twice, behind key 9: first as a focus cell of OPU 1, then as one of OPU 0; key 9 is the focus
cell that OPU 1 is found by. -/
def misordered : State :=
  { spn := { bays := [(0, { role := 1 })] }
    bays := [(0, { mode := 0, req := 0, bringing := true, bringup := 1 })]
    cells := [(9, { named := true, opu := 1 }), (3, { named := true, opu := 1 }), (3, { named := true, opu := 0 })] }

/-- The order for OPU 0 moves key 3 to the front, so OPU 1 is found by it next: key 9 gets no order. -/
theorem bringupStep_misordered : ∃ t, exec (.bayBringupStep 0) misordered = .next t ∧ (cellAt t 9).queue = [] := ⟨_, rfl, by decide +kernel⟩

/-- Refutes O51: of cells listed out of order, with one key twice, the focus cell of OPU 1 gets no CLOSE. -/
theorem not_baysAreControlledAndBroughtUp : ¬ Obligations.BaysAreControlledAndBroughtUp := by
  unfold Obligations.BaysAreControlledAndBroughtUp
  rintro ⟨-, -, hstep, -⟩
  obtain ⟨-, hsteps⟩ := hstep misordered 0
  obtain ⟨-, -, hclose, -⟩ := hsteps (by decide) (by decide) (by decide) (by decide)
  obtain ⟨t, hexec, -, horder, -⟩ := hclose (by decide)
  obtain ⟨u, hexec', hqueue⟩ := bringupStep_misordered
  obtain rfl := Host.Outcome.next.inj (hexec'.symm.trans hexec)
  obtain ⟨q, hq, -⟩ := horder 1 9 (.inr rfl) (by decide) (by decide) (by decide) (by decide) (by decide) (by decide) (by decide)
  rw [hqueue] at hq
  exact absurd hq (by simp)

end Sys2Proof.Machine
end

section
/-! PROOFS. R259, R287, R288, R380 to R383: the power window, heat, power failure. -/

namespace Sys2Proof.Machine

/-! ### Stopping a bay leaves which bays the twin runs -/

/-- The pair state of every bay. -/
def pairBays (s : State) : Tbl PairBay := s.spn.bays

theorem pairBays_of_onlyIn {parts : List Part} {s t : State} (h : OnlyIn parts s t) (hp : Part.spn ∉ parts) : pairBays t = pairBays s :=
  congrArg Spn.bays (h.2 .spn hp :)

theorem pairBays_issue (s : State) (o : Obj) (op arg e : Nat) : pairBays (issue s o op arg e) = pairBays s := rfl

theorem pairBays_queueCell (s : State) (n op arg : Nat) (bad : Bool) (at_ : Nat) : pairBays (queueCell s n op arg bad at_) = pairBays s := by
  unfold queueCell
  dsimp only
  split
  · rfl
  split
  · rfl
  split <;> rfl

theorem pairBays_queueAxis (s : State) (n op arg at_ : Nat) : pairBays (queueAxis s n op arg at_) = pairBays s := by
  unfold queueAxis
  dsimp only
  split
  · rfl
  split
  · rfl
  split <;> rfl

theorem pairBays_orderOffset (s : State) (opu l arg : Nat) : pairBays (orderOffset s opu l arg) = pairBays s := by
  unfold orderOffset
  split
  · exact pairBays_queueCell ..
  · rfl

theorem pairBays_afterRun (s : State) (opu layer : Nat) (k : CalKind) : pairBays (afterRun s opu layer k) = pairBays s := by
  unfold afterRun
  split
  · rfl
  · cases k with
    | focus => exact pairBays_orderOffset ..
    | tilt => exact pairBays_orderOffset ..
    | corrector => exact pairBays_queueAxis ..
    | bfeOffsets =>
      dsimp only
      split <;> rfl
    | opc => rfl
    | equaliser => rfl

theorem pairBays_voidRun (s : State) (opu : Nat) : pairBays (voidRun s opu) = pairBays s :=
  foldl_keeps pairBays (fun s (j : CalJob) => pairBays_afterRun s opu j.layer j.kind) _ s

theorem pairBays_revokeGrants (s : State) (opu : Nat) : pairBays (revokeGrants s opu) = pairBays s := by
  have hcut (u : State) : pairBays (cutRun u opu false) = pairBays u :=
    pairBays_of_onlyIn (onlyIn_of_follows (parts := [.wrc]) (follows_cutRun (by decide) (follows_refl u))) (by decide)
  have hidle (u : State) : pairBays (idleCells u opu) = pairBays u :=
    pairBays_of_onlyIn (onlyIn_of_follows (parts := [.ports, .rdc, .cal]) (follows_idleCells (by decide) (follows_refl u))) (by decide)
  unfold revokeGrants
  dsimp only
  rw [pairBays_voidRun]
  change pairBays (if _ then _ else _) = _
  split
  · exact hcut _
  · exact hidle _

theorem pairBays_stopBay (s : State) (b : Nat) (coast : Bool) : pairBays (stopBay s b coast) = pairBays s := by
  unfold stopBay
  split
  · rfl
  · have hlost : OnlyIn [.free, .cnt, .bays, .ports, .out, .rdc, .wrc, .cal, .qre, .hiu, .cph, .bdy] (safeStop s b coast)
        (bayLost (safeStop s b coast) b) := onlyIn_of_follows (follows_bayLost (by decide) (follows_refl _))
    obtain ⟨hdrives, -⟩ := stopDrives_spec s b coast
    obtain ⟨hnoted, -⟩ := stopNoted_spec (stopDrives s b coast) b coast
    rw [pairBays_of_onlyIn hlost (by decide), safeStop_eq, revokeBay, pairBays_revokeGrants, pairBays_revokeGrants,
      pairBays_of_onlyIn hnoted (by decide), pairBays_of_onlyIn hdrives (by decide)]

theorem runs_of_pairBays {s t : State} (h : pairBays t = pairBays s) (b : Nat) : runs t b = runs s b :=
  congrArg (fun x : Tbl PairBay => (getD x {} b).role == 1) h

/-! ### Every bay run stops, and the dump begins (R259, R287, R288) -/

/-- A bay that the twin runs stops. -/
def stopRun (s : State) (b : Nat) : State := if runs s b then stopBay s b false else s

theorem pairBays_stopRun (s : State) (b : Nat) : pairBays (stopRun s b) = pairBays s := by
  unfold stopRun
  split
  · exact pairBays_stopBay ..
  · rfl

theorem stopRun_stopped {s : State} {b m : Nat} (h : b = m ∧ runs s b = true ∨ (bayAt s m).safeStop = true) :
    (bayAt (stopRun s b) m).safeStop = true := by
  unfold stopRun
  split
  case isTrue hr =>
    have hstop := stopping_stopBay s b false
    by_cases hbm : b = m
    · subst hbm
      exact hstop.stopped.1
    · obtain ⟨hs, -⟩ := bayKept_stops (hstop.bays m (Ne.symm hbm))
      rw [hs]
      exact h.resolve_left (fun h => hbm h.1)
  case isFalse hr => exact h.resolve_left (fun h => hr h.2)

theorem foldl_stopRun_stopped {l : List Nat} {s : State} {m : Nat} (h : m ∈ l ∧ runs s m = true ∨ (bayAt s m).safeStop = true) :
    (bayAt (l.foldl stopRun s) m).safeStop = true := by
  induction l generalizing s with
  | nil => exact h.resolve_left (fun h => List.not_mem_nil h.1)
  | cons b l ih =>
    refine ih ?_
    rw [runs_of_pairBays (pairBays_stopRun s b)]
    rcases h with ⟨hm, hr⟩ | hs
    · rcases List.mem_cons.1 hm with rfl | hm
      · exact .inr (stopRun_stopped (.inl ⟨rfl, hr⟩))
      · exact .inl ⟨hm, hr⟩
    · exact .inr (stopRun_stopped (.inr hs))

/-- What a stop of the bays writes. -/
def stopParts : List Part := [.free, .cnt, .bays, .ports, .spn, .out, .cells, .units, .axes, .rdc, .wrc, .cal, .qre, .hiu, .cph, .bdy]

/-- Writes not acknowledged are abandoned, admission stops, a pending transition is dropped. -/
def dumpPrepared (s : State) : State :=
  { s with
    cmd := { s.cmd with admission := false, versions := s.cmd.versions.filter (fun v => v.acked || !v.own) }
    qre := { s.qre with ingest := s.qre.ingest.filter (fun i =>
      s.cmd.versions.any (fun v => (v.acked || !v.own) && v.seq == i.version && v.twin == i.twin)) }
    hiu := { s.hiu with cmds := s.hiu.cmds.filter (fun c => !isWrite c) }
    kst := { s.kst with transition := none } }

/-- The bays are stopped, the twin is told, the event page is written. -/
def dumpStopped (s : State) : State :=
  writePages (countEvent (send ((List.range 8).foldl stopRun (dumpPrepared s)) (.mgmt .powerFail)) 13 5 2)

/-- The image is taken, unless one still stands. -/
def dumpTaken (s : State) : State :=
  let fresh := !s.mem.replayed && decide (s.mem.vault ≠ 2)
  { s with mem := { s.mem with
      dumping := true, dumpAt := now s, imageSeq := if fresh then s.mem.imageSeq + 1 else s.mem.imageSeq
      image := if fresh then some (imageOf s) else s.mem.image } }

theorem beginDump_eq (s : State) : beginDump s = dumpTaken (dumpStopped s) := rfl

theorem onlyIn_dumpStopped (s : State) : OnlyIn stopParts (dumpPrepared s) (dumpStopped s) :=
  onlyIn_of_follows (follows_writePages (by decide) (follows_countEvent (by decide) (follows_send (by decide)
    (follows_foldl (follows_refl _) (fun u b hu => follows_ite (follows_stopBay (by decide) hu) hu)))))

theorem dumpStopped_spec (s : State) : let u := dumpStopped s
    u.cmd.admission = false ∧ u.cmd.versions = s.cmd.versions.filter (fun v => v.acked || !v.own) ∧ u.kst.transition = none ∧ u.mem = s.mem ∧
      u.pwr = s.pwr ∧ u.tck = s.tck ∧ (∀ b, b < 8 → runs s b = true → (bayAt u b).safeStop = true) := by
  intro u
  obtain ⟨-, hf⟩ := onlyIn_dumpStopped s
  have hcmd : u.cmd = (dumpPrepared s).cmd := hf .cmd (by decide)
  have hkst : u.kst = (dumpPrepared s).kst := hf .kst (by decide)
  have hmem : u.mem = (dumpPrepared s).mem := hf .mem (by decide)
  have hpwr : u.pwr = (dumpPrepared s).pwr := hf .pwr (by decide)
  have htck : u.tck = (dumpPrepared s).tck := hf .tck (by decide)
  have hbays (t : State) : (writePages (countEvent (send t (.mgmt .powerFail)) 13 5 2)).bays = t.bays := by simp
  have hbay (b : Nat) : bayAt u b = bayAt ((List.range 8).foldl stopRun (dumpPrepared s)) b := congrArg (fun x => getD x ({} : Bay) b) (hbays _)
  refine ⟨by rw [hcmd]; rfl, by rw [hcmd]; rfl, by rw [hkst]; rfl, hmem, hpwr, htck, fun b hb hr => ?_⟩
  rw [hbay]
  exact foldl_stopRun_stopped (.inl ⟨List.mem_range.2 hb, hr⟩)

theorem beginDump_spec (s : State) : let t := beginDump s
    t.cmd.admission = false ∧ t.cmd.versions = s.cmd.versions.filter (fun v => v.acked || !v.own) ∧ t.kst.transition = none ∧
      t.mem.dumping = true ∧ t.mem.dumpAt = now s ∧ (∀ b, b < 8 → runs s b = true → (bayAt t b).safeStop = true) ∧ t.pwr = s.pwr ∧ t.tck = s.tck ∧
      (s.mem.replayed = false → s.mem.vault ≠ 2 → ∃ i, t.mem.image = some i ∧ i.versions = t.cmd.versions ∧ i.quires = t.qre.quires ∧
        i.complete = false ∧ i.seq = t.mem.imageSeq ∧ i.epoch = s.mem.epoch) ∧
      (s.mem.replayed = true ∨ s.mem.vault = 2 → t.mem.image = s.mem.image) := by
  obtain ⟨hadm, hver, htrans, hmem, hpwr, htck, hstop⟩ := dumpStopped_spec s
  rw [beginDump_eq]
  generalize dumpStopped s = u at hadm hver htrans hmem hpwr htck hstop
  refine ⟨hadm, hver, htrans, rfl, by rw [now, ← htck]; rfl, hstop, hpwr, htck, fun hr hv => ?_, fun hkeep => ?_⟩
  · have hfresh : (!u.mem.replayed && decide (u.mem.vault ≠ 2)) = true := by simp [hmem, hr, hv]
    refine ⟨imageOf u, if_pos hfresh, rfl, rfl, rfl, ?_, by rw [← hmem]; rfl⟩
    exact (if_pos hfresh : (if _ then u.mem.imageSeq + 1 else _) = _).symm
  · have hold : (!u.mem.replayed && decide (u.mem.vault ≠ 2)) = false := by
      rw [hmem]
      rcases hkeep with h | h <;> simp [h]
    rw [← hmem]
    exact if_neg (Bool.eq_false_iff.1 hold)

/-! ### Heat (R382) -/

/-- A thermal shutdown stands and is counted. -/
def shutdownNoted (s : State) : State := countEvent { s with pwr := { s.pwr with therm := 3 } } 2 5 3

theorem shutdownNoted_spec (s : State) : let u := shutdownNoted s
    u.pwr = { s.pwr with therm := 3 } ∧ u.mem = s.mem ∧ u.tck = s.tck ∧ counter u 2 5 = counter s 2 5 + 1 := by
  refine ⟨by simp [shutdownNoted], by simp [shutdownNoted], by simp [shutdownNoted], ?_⟩
  rw [shutdownNoted, counter_countEvent, if_pos rfl]
  rfl

/-- The twin is held after a thermal shutdown during replay. -/
def heldHot (s : State) : State :=
  let w := warmed s .thermal 5
  { w with pwr := { w.pwr with thermTrip := true } }

theorem exec_thermalShutdown {s : State} (hp : s.pwr.phase = .starting ∨ s.pwr.phase = .running) (ht : 420 ≤ composite s.bdy.temps)
    (h3 : s.pwr.therm ≠ 3) : exec .thermalShutdown s = if (shutdownNoted s).mem.dumping then .next (shutdownNoted s)
      else if (shutdownNoted s).mem.replaying then .next (heldHot (shutdownNoted s)) else .next (beginDump (shutdownNoted s)) := by
  refine if_neg ?_
  rw [decide_eq_false (Int.not_lt.2 ht)]
  rcases hp with h | h <;> simp [h, h3]

theorem thermalShutdown_quiet {s : State} (h : composite s.bdy.temps < 420 ∨ s.pwr.therm = 3 ∨ (s.pwr.phase ≠ .starting ∧ s.pwr.phase ≠ .running)) :
    exec .thermalShutdown s = .next s := by
  refine if_pos ?_
  rcases h with h | h | ⟨h, h'⟩
  · simp [h]
  · simp [h]
  · simp [h, h']

/-! ### The power window (R380 to R382) -/

/-- The sensors' means are noted. -/
def windowNoted (s : State) (temps : List Int) (volts : List Nat) (ppm : Int) (refs : BitVec 2) : State :=
  { s with bdy := { s.bdy with temps := temps, volts := volts, ppm := ppm, refs := refs } }

/-- The sensors' means, the registers' sources, the pair state and the bays: what the window's steps keep. -/
def winView (s : State) : (List Int × List Nat × Int) × (Tbl Dword × List Override × Option Binding) × Tbl PairBay × Tbl Bay :=
  ((s.bdy.temps, s.bdy.volts, s.bdy.ppm), (s.regs, s.bdy.overrides, s.bnd.active), s.spn.bays, s.bays)

theorem winView_voltWarnings (s : State) (volts : List Nat) : winView (voltWarnings s volts) = winView s := by
  refine foldl_keeps winView (fun u i => ?_) _ s
  dsimp only
  split
  · rfl
  split <;> rfl

theorem onlyIn_voltWarnings (s : State) (volts : List Nat) : OnlyIn [.bdy] s (voltWarnings s volts) :=
  onlyIn_of_follows (follows_voltWarnings (by decide) (follows_refl s))

theorem regBits_of_winView {s t : State} (h : winView t = winView s) (id : RegId) (i hi lo : Nat) :
    regBits t id i hi lo = regBits s id i hi lo := by
  have hsrc := congrArg (fun x => x.2.1) h
  rw [regBits, reg_congr (congrArg (·.1) hsrc :) (congrArg (·.2.1) hsrc :) (congrArg (·.2.2) hsrc :), regBits]

theorem moveCut_spec (s : State) (t : Int) : ∃ ms cut, moveCut s t = { s with pwr := { s.pwr with capMs := ms, capCut := cut } } ∧
    (t < 4 * (regBits s .pwrThermCfg 0 7 0 : Int) → s.pwr.capCut = 0 → cut = 0) := by
  unfold moveCut
  dsimp only
  split
  case isTrue hge =>
    split
    · exact ⟨_, s.pwr.capCut, rfl, fun _ h => h⟩
    · exact ⟨_, _, rfl, fun hlt => absurd hge (Int.not_le.2 hlt)⟩
  split
  case isTrue hcut =>
    split
    · exact ⟨_, s.pwr.capCut, rfl, fun _ h => h⟩
    · exact ⟨_, _, rfl, fun _ h => absurd h hcut.2⟩
  · exact ⟨_, s.pwr.capCut, rfl, fun _ h => h⟩

theorem thermState_spec (s : State) (t : Int) (h3 : s.pwr.therm ≠ 3) :
    (4 * (regBits s .pwrThermCfg 0 15 8 : Int) ≤ t → thermState s t = 2) ∧
    (4 * (regBits s .pwrThermCfg 0 7 0 : Int) ≤ t → t < 4 * (regBits s .pwrThermCfg 0 15 8 : Int) → thermState s t = 1) ∧
    (t < 4 * (regBits s .pwrThermCfg 0 7 0 : Int) → t < 4 * (regBits s .pwrThermCfg 0 15 8 : Int) → s.pwr.capCut = 0 → thermState s t = 0) := by
  unfold thermState
  rw [if_neg h3]
  refine ⟨fun h => if_pos h, fun h h' => ?_, fun h h' h0 => ?_⟩
  · rw [if_neg (Int.not_le.2 h'), if_pos (.inl h)]
  · rw [if_neg (Int.not_le.2 h'), if_neg]
    exact fun hor => hor.elim (fun hle => absurd hle (Int.not_le.2 h)) (fun hne => hne h0)

/-- The state with another power state. -/
def setPwr (s : State) (p : Pwr) : State := { s with pwr := p }

theorem counter_setPwr (s : State) (p : Pwr) (b i : Nat) : counter (setPwr s p) b i = counter s b i := rfl

theorem winView_setPwr (s : State) (p : Pwr) : winView (setPwr s p) = winView s := rfl

/-- The thermal state is shown; an entry into throttling is counted. -/
def thermSet (s : State) (n : Nat) : State :=
  let u := if s.pwr.therm = 0 ∧ n ≠ 0 then countEvent s 2 4 1 else s
  setPwr u { u.pwr with therm := n }

theorem thermalStep_eq (s : State) (t : Int) : thermalStep s t = thermSet (moveCut s t) (thermState (moveCut s t) t) := rfl

theorem thermSet_spec (s : State) (n : Nat) : let u := thermSet s n
    u.pwr = { s.pwr with therm := n } ∧ winView u = winView s ∧ (∀ i, i < 32 → i ≠ 4 → counter u 2 i = counter s 2 i) := by
  unfold thermSet
  dsimp only
  split
  · have hpwr : (countEvent s 2 4 1).pwr = s.pwr := by simp
    refine ⟨by rw [hpwr]; rfl, rfl, fun i hi hne => ?_⟩
    rw [counter_setPwr, counter_countEvent, if_neg (by omega)]
  · exact ⟨rfl, rfl, fun _ _ _ => rfl⟩

/-- The power state after the thermal step: the cut, and the thermal state that R382 gives. -/
structure ThermalStepped (s t : State) (hot : Int) : Prop where
  pwr : ∃ ms cut th, t.pwr = { s.pwr with capMs := ms, capCut := cut, therm := th }
  view : winView t = winView s
  cnt : ∀ i, i < 32 → i ≠ 4 → counter t 2 i = counter s 2 i
  above : s.pwr.therm ≠ 3 → 4 * (regBits s .pwrThermCfg 0 15 8 : Int) ≤ hot → t.pwr.therm = 2
  between : s.pwr.therm ≠ 3 → 4 * (regBits s .pwrThermCfg 0 7 0 : Int) ≤ hot → hot < 4 * (regBits s .pwrThermCfg 0 15 8 : Int) → t.pwr.therm = 1
  below : s.pwr.therm ≠ 3 → hot < 4 * (regBits s .pwrThermCfg 0 7 0 : Int) → hot < 4 * (regBits s .pwrThermCfg 0 15 8 : Int) → s.pwr.capCut = 0 →
    t.pwr.therm = 0

theorem thermalStepped (s : State) (hot : Int) : ThermalStepped s (thermalStep s hot) hot := by
  obtain ⟨ms, cut, hmove, hcut⟩ := moveCut_spec s hot
  have hview : winView (moveCut s hot) = winView s := by rw [hmove]; rfl
  have hth : (moveCut s hot).pwr.therm = s.pwr.therm := by rw [hmove]
  have hcnt (i : Nat) : counter (moveCut s hot) 2 i = counter s 2 i := by rw [hmove]; rfl
  have hzero := (congrArg (fun u : State => u.pwr.capCut) hmove :)
  have hpwr := (congrArg State.pwr hmove :)
  have hbits := regBits_of_winView hview
  rw [thermalStep_eq]
  generalize moveCut s hot = m at hview hth hcnt hzero hpwr hbits
  obtain ⟨kpwr, kview, kcnt⟩ := thermSet_spec m (thermState m hot)
  have htherm : (thermSet m (thermState m hot)).pwr.therm = thermState m hot := by rw [kpwr]
  refine ⟨⟨ms, cut, thermState m hot, by rw [kpwr, hpwr]⟩, kview.trans hview, fun i hi hne => (kcnt i hi hne).trans (hcnt i), fun h3 h => ?_,
    fun h3 h h' => ?_, fun h3 h h' h0 => ?_⟩ <;> rw [htherm]
  · exact (thermState_spec m hot (hth ▸ h3)).1 (by rw [hbits]; exact h)
  · exact (thermState_spec m hot (hth ▸ h3)).2.1 (by rw [hbits]; exact h) (by rw [hbits]; exact h')
  · exact (thermState_spec m hot (hth ▸ h3)).2.2 (by rw [hbits]; exact h) (by rw [hbits]; exact h') (hzero.trans (hcut h h0))

/-! ### The ladder (R381) -/

/-- The estimate and the runs of windows above and below the cap are noted; a window above the cap is counted. -/
def ladderNoted (s : State) (est : Nat) : State :=
  let cap := twinCap s
  let u := if cap < est then bump s 2 3 else s
  setPwr u { u.pwr with
    est := est, overRun := if cap < est then u.pwr.overRun + 1 else 0, underRun := if est + 20 < cap then u.pwr.underRun + 1 else 0
    capUnmet := u.pwr.capUnmet && decide (cap < est) }

theorem ladderNoted_spec (s : State) (est : Nat) : let u := ladderNoted s est
    u.pwr = { s.pwr with
      est := est, overRun := if twinCap s < est then s.pwr.overRun + 1 else 0, underRun := if est + 20 < twinCap s then s.pwr.underRun + 1 else 0
      capUnmet := s.pwr.capUnmet && decide (twinCap s < est) } ∧ winView u = winView s ∧
    (counter u 2 3 = if twinCap s < est then counter s 2 3 + 1 else counter s 2 3) ∧ counter u 2 2 = counter s 2 2 := by
  unfold ladderNoted
  dsimp only
  split
  · exact ⟨rfl, rfl, by rw [counter_setPwr, counter_bump, if_pos rfl], by rw [counter_setPwr, counter_bump, if_neg (by decide)]⟩
  · exact ⟨rfl, rfl, rfl, rfl⟩

/-- One step of the ladder from the windows noted. -/
def ladderMoved (u : State) : State :=
  if regBits u .pwrModeCfg 0 31 24 ≤ u.pwr.overRun ∧ 0 < u.pwr.overRun then
    if u.pwr.throttle < 15 then bump { u with pwr := { u.pwr with throttle := u.pwr.throttle + 1, overRun := 0 } } 2 2
    else if u.pwr.capUnmet then u
    else event { u with pwr := { u.pwr with capUnmet := true } } 0 2 2
  else if regBits u .pwrModeCfg 0 23 16 ≤ u.pwr.underRun ∧ 0 < u.pwr.underRun ∧ 0 < u.pwr.throttle then
    { u with pwr := { u.pwr with throttle := u.pwr.throttle - 1, underRun := 0 } }
  else u

theorem ladderStep_eq (s : State) (est : Nat) : ladderStep s est = ladderMoved (ladderNoted s est) := by
  unfold ladderStep ladderMoved ladderNoted
  dsimp only
  split <;> rfl

/-- What a step of the ladder leaves of the power state, the window's view and the count of windows above the cap. -/
theorem ladderMoved_keeps (u : State) : let t := ladderMoved u
    t.pwr.est = u.pwr.est ∧ t.pwr.phase = u.pwr.phase ∧ t.pwr.therm = u.pwr.therm ∧ t.pwr.capCut = u.pwr.capCut ∧ winView t = winView u ∧
      counter t 2 3 = counter u 2 3 := by
  have hcount (v : State) : counter (bump v 2 2) 2 3 = counter v 2 3 := by rw [counter_bump, if_neg (by decide)]
  unfold ladderMoved
  split
  · split
    · exact ⟨rfl, rfl, rfl, rfl, rfl, hcount _⟩
    split
    · exact ⟨rfl, rfl, rfl, rfl, rfl, rfl⟩
    · exact ⟨rfl, rfl, rfl, rfl, rfl, rfl⟩
  split
  · exact ⟨rfl, rfl, rfl, rfl, rfl, rfl⟩
  · exact ⟨rfl, rfl, rfl, rfl, rfl, rfl⟩

/-- THR_UP windows above the cap. -/
def climbs (u : State) : Prop := regBits u .pwrModeCfg 0 31 24 ≤ u.pwr.overRun ∧ 0 < u.pwr.overRun

/-- THR_DOWN windows below it. -/
def falls (u : State) : Prop := regBits u .pwrModeCfg 0 23 16 ≤ u.pwr.underRun ∧ 0 < u.pwr.underRun

theorem ladderMoved_climbs {u : State} (h : climbs u) (ht : u.pwr.throttle < 15) : let t := ladderMoved u
    t.pwr.throttle = u.pwr.throttle + 1 ∧ t.pwr.overRun = 0 ∧ counter t 2 2 = counter u 2 2 + 1 := by
  have hcount (p : Pwr) : counter (bump (setPwr u p) 2 2) 2 2 = counter u 2 2 + 1 := by
    rw [counter_bump, if_pos rfl, counter_setPwr]
  have heq : ladderMoved u = bump (setPwr u { u.pwr with throttle := u.pwr.throttle + 1, overRun := 0 }) 2 2 := (if_pos h).trans (if_pos ht)
  rw [heq]
  exact ⟨rfl, rfl, hcount _⟩

theorem ladderMoved_top {u : State} (h : climbs u) (ht : 15 ≤ u.pwr.throttle) : let t := ladderMoved u
    t.pwr.throttle = u.pwr.throttle ∧ t.pwr.capUnmet = true := by
  have heq : ladderMoved u = if u.pwr.capUnmet then u else event (setPwr u { u.pwr with capUnmet := true }) 0 2 2 :=
    (if_pos h).trans (if_neg (Nat.not_lt.2 ht))
  rw [heq]
  split
  case isTrue hun => exact ⟨rfl, hun⟩
  case isFalse => exact ⟨rfl, rfl⟩

theorem ladderMoved_falls {u : State} (h : ¬ climbs u) (hf : falls u) (ht : 0 < u.pwr.throttle) : let t := ladderMoved u
    t.pwr.throttle = u.pwr.throttle - 1 ∧ t.pwr.underRun = 0 := by
  obtain ⟨hle, hpos⟩ := hf
  have heq : ladderMoved u = setPwr u { u.pwr with throttle := u.pwr.throttle - 1, underRun := 0 } :=
    (if_neg h).trans (if_pos ⟨hle, hpos, ht⟩)
  rw [heq]
  exact ⟨rfl, rfl⟩

theorem ladderMoved_stays {u : State} (h : ¬ climbs u) (hf : ¬ falls u) : ladderMoved u = u := by
  exact (if_neg h).trans (if_neg (fun ⟨hle, hpos, _⟩ => hf ⟨hle, hpos⟩))

/-! ### The flags of the ladder -/

theorem pairBays_orderSpeed (s : State) (b : Nat) : pairBays (orderSpeed s b) = pairBays s := by
  unfold orderSpeed orderUnit queueUnit
  dsimp only
  split
  · split
    · rfl
    split
    · rfl
    split <;> rfl
  · rfl

theorem bays_orderSpeed (s : State) (b : Nat) : (orderSpeed s b).bays = s.bays :=
  (onlyIn_of_follows (parts := [.spn, .units]) (follows_orderSpeed (by decide) (follows_refl s))).2 .bays (by decide)

theorem mode_setFlags (s : State) (b m : Nat) (o p : Bool) :
    (bayAt (setBay s b { bayAt s b with opuThrottle := o, spinThrottle := p }) m).mode = (bayAt s m).mode := by
  obtain ⟨l, hl⟩ := stampBay_cases s.tck.count (bayAt s b) { bayAt s b with opuThrottle := o, spinThrottle := p }
  rw [bayAt_setBay, hl]
  split
  case isTrue h => rw [← h]
  case isFalse => rfl

theorem applyLadder_keeps (s : State) : OnlyIn [.bays, .spn, .units] s (applyLadder s) ∧ pairBays (applyLadder s) = pairBays s ∧
    ∀ m, (bayAt (applyLadder s) m).mode = (bayAt s m).mode := by
  refine ⟨onlyIn_of_follows (follows_applyLadder (by decide) (follows_refl s)), foldl_keeps pairBays (fun u b => ?_) _ s,
    fun m => foldl_keeps (fun u => (bayAt u m).mode) (fun u b => ?_) _ s⟩
  · dsimp only
    split
    · exact pairBays_orderSpeed ..
    · rfl
  · dsimp only
    split
    · rw [bayAt, bays_orderSpeed]
      exact mode_setFlags ..
    · exact mode_setFlags ..

theorem twinCap_congr {s t : State} (hr : pairBays t = pairBays s) (hm : ∀ m, (bayAt t m).mode = (bayAt s m).mode)
    (ha : t.bnd.active = s.bnd.active) (hth : t.pwr.therm = s.pwr.therm) (hc : t.pwr.capCut = s.pwr.capCut) : twinCap t = twinCap s := by
  have hruns : runs t = runs s := funext (runs_of_pairBays hr)
  have hshare : effShare t = effShare s := by
    funext b
    rw [effShare, effShare, hm, modeRec, modeRec, ha]
  rw [twinCap, twinCap, baseCap, baseCap, hruns, hshare, hth, hc]

theorem twinCap_of_winView {s t : State} (h : winView t = winView s) (hth : t.pwr.therm = s.pwr.therm) (hc : t.pwr.capCut = s.pwr.capCut) :
    twinCap t = twinCap s :=
  have hb : t.bays = s.bays := (congrArg (fun x => x.2.2.2) h :)
  twinCap_congr (congrArg (fun x => x.2.2.1) h :) (fun m => by rw [bayAt, hb, bayAt]) (congrArg (fun x => x.2.1.2.2) h :) hth hc

/-! ### The whole window -/

section
variable {s : State} {est : Half} {temps : List Int} {volts : List Nat} {ppm : Int} {refs : BitVec 2}

/-- The window's means are noted, the voltages watched and the temperature has acted. -/
def windowHeated (s : State) (temps : List Int) (volts : List Nat) (ppm : Int) (refs : BitVec 2) : State :=
  thermalStep (voltWarnings (windowNoted s temps volts ppm refs) volts) (composite temps)

/-- Then the ladder has moved, and its flags with it. -/
def windowDone (s : State) (est : Half) (temps : List Int) (volts : List Nat) (ppm : Int) (refs : BitVec 2) : State :=
  withSmart s (applyLadder (ladderStep (windowHeated s temps volts ppm refs) est.toNat))

theorem exec_powerWindow (hp : s.pwr.phase = .starting ∨ s.pwr.phase = .running) :
    exec (.powerWindow est temps volts ppm refs) s = .next (windowDone s est temps volts ppm refs) := by
  change execPowerWindow est temps volts ppm refs s = _
  unfold execPowerWindow
  rcases hp with h | h <;> simp only [h] <;> rfl

theorem windowHeated_spec (s : State) (temps : List Int) (volts : List Nat) (ppm : Int) (refs : BitVec 2) :
    let u := windowHeated s temps volts ppm refs
    winView u = winView (windowNoted s temps volts ppm refs) ∧ ThermalStepped (voltWarnings (windowNoted s temps volts ppm refs) volts) u (composite temps) ∧
      (voltWarnings (windowNoted s temps volts ppm refs) volts).pwr = s.pwr ∧ (voltWarnings (windowNoted s temps volts ppm refs) volts).cnt = s.cnt ∧
      (∀ id i hi lo, regBits (voltWarnings (windowNoted s temps volts ppm refs) volts) id i hi lo = regBits s id i hi lo) := by
  have hw := thermalStepped (voltWarnings (windowNoted s temps volts ppm refs) volts) (composite temps)
  have hview := winView_voltWarnings (windowNoted s temps volts ppm refs) volts
  obtain ⟨-, hf⟩ := onlyIn_voltWarnings (windowNoted s temps volts ppm refs) volts
  have hpwr : (voltWarnings (windowNoted s temps volts ppm refs) volts).pwr = (windowNoted s temps volts ppm refs).pwr := hf .pwr (by decide)
  have hcnt : (voltWarnings (windowNoted s temps volts ppm refs) volts).cnt = (windowNoted s temps volts ppm refs).cnt := hf .cnt (by decide)
  refine ⟨hw.view.trans hview, hw, hpwr, hcnt, fun id i hi lo => ?_⟩
  rw [regBits_of_winView hview]
  exact congrArg (fun x => bits x hi lo) (reg_congr (s := s) (t := windowNoted s temps volts ppm refs) rfl rfl rfl id i)

/-- The last two parts of a window leave the power state, the counters and the Bindery, and the cap in force. -/
theorem windowDone_keeps (s u : State) : let t := withSmart s (applyLadder u)
    t.pwr = u.pwr ∧ t.cnt = u.cnt ∧ t.bdy = u.bdy ∧ twinCap t = twinCap u := by
  intro t
  obtain ⟨⟨-, hl⟩, hpair, hmode⟩ := applyLadder_keeps u
  have hsm : OnlyIn [.out, .hiu] (applyLadder u) t := onlyIn_of_follows (follows_withSmart (by decide) (follows_refl _))
  have hpwr : t.pwr = u.pwr := (hsm.2 .pwr (by decide)).trans (hl .pwr (by decide))
  have hbnd : t.bnd = u.bnd := (hsm.2 .bnd (by decide)).trans (hl .bnd (by decide))
  have hbays : t.bays = (applyLadder u).bays := hsm.2 .bays (by decide)
  refine ⟨hpwr, (hsm.2 .cnt (by decide)).trans (hl .cnt (by decide)), (hsm.2 .bdy (by decide)).trans (hl .bdy (by decide)), ?_⟩
  refine twinCap_congr ((pairBays_of_onlyIn hsm (by decide)).trans hpair) (fun m => ?_) (by rw [hbnd]) (by rw [hpwr]) (by rw [hpwr])
  rw [bayAt, hbays]
  exact hmode m

theorem powerWindow_runs (hp : s.pwr.phase = .starting ∨ s.pwr.phase = .running) : let hot := composite temps
    let lim := fun hi lo => 4 * (regBits s .pwrThermCfg 0 hi lo : Int)
    ∃ t, exec (.powerWindow est temps volts ppm refs) s = .next t ∧
      t.bdy.temps = temps ∧ t.bdy.volts = volts ∧ t.bdy.ppm = ppm ∧ t.pwr.est = est.toNat ∧ t.pwr.phase = s.pwr.phase ∧
      (s.pwr.therm ≠ 3 → lim 15 8 ≤ hot → t.pwr.therm = 2) ∧ (s.pwr.therm ≠ 3 → lim 7 0 ≤ hot → hot < lim 15 8 → t.pwr.therm = 1) ∧
      (s.pwr.therm ≠ 3 → hot < lim 7 0 → hot < lim 15 8 → s.pwr.capCut = 0 → t.pwr.therm = 0) ∧
      (let up := if twinCap t < est.toNat then s.pwr.overRun + 1 else 0
       let down := if est.toNat + 20 < twinCap t then s.pwr.underRun + 1 else 0
       let climbs := regBits s .pwrModeCfg 0 31 24 ≤ up ∧ 0 < up
       let falls := regBits s .pwrModeCfg 0 23 16 ≤ down ∧ 0 < down
       (climbs → s.pwr.throttle < 15 → t.pwr.throttle = s.pwr.throttle + 1 ∧ t.pwr.overRun = 0 ∧ counter t 2 2 = counter s 2 2 + 1) ∧
       (climbs → 15 ≤ s.pwr.throttle → t.pwr.throttle = s.pwr.throttle ∧ t.pwr.capUnmet = true) ∧
       (¬ climbs → falls → 0 < s.pwr.throttle → t.pwr.throttle = s.pwr.throttle - 1 ∧ t.pwr.underRun = 0) ∧
       (¬ climbs → ¬ falls → t.pwr.throttle = s.pwr.throttle ∧ t.pwr.overRun = up ∧ t.pwr.underRun = down) ∧
       (twinCap t < est.toNat → counter t 2 3 = counter s 2 3 + 1) ∧ (est.toNat ≤ twinCap t → counter t 2 3 = counter s 2 3)) := by
  intro hot lim
  have hexec := exec_powerWindow (est := est) (temps := temps) (volts := volts) (ppm := ppm) (refs := refs) hp
  obtain ⟨hview, hth, hvpwr, hvcnt, hbits⟩ := windowHeated_spec s temps volts ppm refs
  generalize voltWarnings (windowNoted s temps volts ppm refs) volts = v at hth hvpwr hvcnt hbits
  rw [windowDone, ladderStep_eq] at hexec
  generalize windowHeated s temps volts ppm refs = w at hexec hview hth
  obtain ⟨hnpwr, hnview, hn3, hn2⟩ := ladderNoted_spec w est.toNat
  generalize ladderNoted w est.toNat = n at hexec hnpwr hnview hn3 hn2
  obtain ⟨kest, kphase, ktherm, kcut, kview, k3⟩ := ladderMoved_keeps n
  obtain ⟨hpwr, hcnt, hbdy, hcap⟩ := windowDone_keeps s (ladderMoved n)
  generalize withSmart s (applyLadder (ladderMoved n)) = t at hexec hpwr hcnt hbdy hcap
  obtain ⟨ms, cut, th, hwpwr⟩ := hth.pwr
  rw [hvpwr] at hwpwr
  have hbdyView : (t.bdy.temps, t.bdy.volts, t.bdy.ppm) = (temps, volts, ppm) := by
    rw [hbdy]
    exact (congrArg Prod.fst (kview.trans (hnview.trans hview)) :)
  have hcapT : twinCap t = twinCap w :=
    hcap.trans (twinCap_of_winView (kview.trans hnview) (by rw [ktherm, hnpwr]) (by rw [kcut, hnpwr]))
  have hregs (hi lo : Nat) : regBits n .pwrModeCfg 0 hi lo = regBits s .pwrModeCfg 0 hi lo := by
    rw [regBits_of_winView (hnview.trans hth.view), hbits]
  have htherm : t.pwr.therm = w.pwr.therm := by rw [hpwr, ktherm, hnpwr]
  have hover : n.pwr.overRun = if twinCap t < est.toNat then s.pwr.overRun + 1 else 0 := by rw [hnpwr, hwpwr, hcapT]
  have hunder : n.pwr.underRun = if est.toNat + 20 < twinCap t then s.pwr.underRun + 1 else 0 := by rw [hnpwr, hwpwr, hcapT]
  have hthrottle : n.pwr.throttle = s.pwr.throttle := by rw [hnpwr, hwpwr]
  have hcounts (i : Nat) (hi : i < 32) (hne : i ≠ 4) : counter w 2 i = counter s 2 i := by
    rw [hth.cnt i hi hne, counter, hvcnt, counter]
  have hcount (u : State) (h : t.cnt = u.cnt) (i : Nat) : counter t 2 i = counter u 2 i := by rw [counter, h, counter]
  refine ⟨t, hexec, (congrArg Prod.fst hbdyView :), (congrArg (fun x => x.2.1) hbdyView :), (congrArg (fun x => x.2.2) hbdyView :),
    by rw [hpwr, kest, hnpwr], by rw [hpwr, kphase, hnpwr, hwpwr], ?_, ?_, ?_, ?_⟩
  · intro h3 h
    exact htherm.trans (hth.above (hvpwr ▸ h3) (by rw [hbits]; exact h))
  · intro h3 h h'
    exact htherm.trans (hth.between (hvpwr ▸ h3) (by rw [hbits]; exact h) (by rw [hbits]; exact h'))
  · intro h3 h h' h0
    exact htherm.trans (hth.below (hvpwr ▸ h3) (by rw [hbits]; exact h) (by rw [hbits]; exact h') (hvpwr ▸ h0))
  · rw [← hover, ← hunder, ← hthrottle, ← hregs, ← hregs, hpwr]
    refine ⟨fun hc ht => ?_, fun hc ht => ladderMoved_top hc ht, fun hc hf ht => ladderMoved_falls hc hf ht, fun hc hf => ?_, fun hc => ?_,
      fun hc => ?_⟩
    · obtain ⟨hstep, hzero, hcounted⟩ := ladderMoved_climbs hc ht
      exact ⟨hstep, hzero, by rw [hcount _ hcnt, hcounted, hn2, hcounts 2 (by decide) (by decide)]⟩
    · rw [ladderMoved_stays hc hf]
      exact ⟨rfl, rfl, rfl⟩
    · rw [hcount _ hcnt, k3, hn3, if_pos (hcapT ▸ hc), hcounts 3 (by decide) (by decide)]
    · rw [hcount _ hcnt, k3, hn3, if_neg (Nat.not_lt.2 (hcapT ▸ hc)), hcounts 3 (by decide) (by decide)]

/-- A twin held by a thermal shutdown only notes the means, and is let go below T_THROT. -/
theorem powerWindow_held (hp : s.pwr.phase = .thermal) : let hot := composite temps
    ∃ t, exec (.powerWindow est temps volts ppm refs) s = .next t ∧
      (hot < 4 * (regBits s .pwrThermCfg 0 7 0 : Int) → t.pwr = { s.pwr with phase := .warm, thermTrip := false, therm := 0 }) ∧
      (4 * (regBits s .pwrThermCfg 0 7 0 : Int) ≤ hot → t.pwr = s.pwr) ∧ OnlyIn [.bdy, .pwr] s t := by
  intro hot
  have hexec : exec (.powerWindow est temps volts ppm refs) s =
      if hot < 4 * (regBits (windowNoted s temps volts ppm refs) .pwrThermCfg 0 7 0 : Int) then
        .next (setPwr (windowNoted s temps volts ppm refs) { s.pwr with phase := .warm, thermTrip := false, therm := 0 })
      else .next (windowNoted s temps volts ppm refs) := by
    change execPowerWindow est temps volts ppm refs s = _
    unfold execPowerWindow
    simp only [hp] <;> rfl
  have hlim : regBits (windowNoted s temps volts ppm refs) .pwrThermCfg 0 7 0 = regBits s .pwrThermCfg 0 7 0 :=
    congrArg (fun x => bits x 7 0) (reg_congr (s := s) (t := windowNoted s temps volts ppm refs) rfl rfl rfl .pwrThermCfg 0)
  rw [hlim] at hexec
  have hnoted : OnlyIn [.bdy, .pwr] s (windowNoted s temps volts ppm refs) := onlyIn_of_follows (upd_bdy (by decide) rfl rfl (follows_refl s))
  by_cases h : hot < 4 * (regBits s .pwrThermCfg 0 7 0 : Int)
  · exact ⟨_, hexec.trans (if_pos h), fun _ => rfl, fun h' => absurd h (Int.not_lt.2 h'),
      onlyIn_of_follows (upd_pwr (by decide) (upd_bdy (by decide) rfl rfl (follows_refl s)))⟩
  · exact ⟨_, hexec.trans (if_neg h), fun h' => absurd h' h, fun _ => rfl, hnoted⟩

theorem thermalShutdown_acts (hp : s.pwr.phase = .starting ∨ s.pwr.phase = .running) (ht : 420 ≤ composite s.bdy.temps) (h3 : s.pwr.therm ≠ 3) :
    (s.mem.dumping = true → ∃ t, exec .thermalShutdown s = .next t ∧ t.pwr = { s.pwr with therm := 3 } ∧ t.mem = s.mem ∧
      counter t 2 5 = counter s 2 5 + 1) ∧
    (s.mem.dumping = false → s.mem.replaying = false → ∃ t, exec .thermalShutdown s = .next t ∧ t.pwr = { s.pwr with therm := 3 } ∧
      t.mem.dumping = true ∧ t.mem.dumpAt = now s ∧ t.cmd.admission = false) ∧
    (s.mem.dumping = false → s.mem.replaying = true → ∃ t, exec .thermalShutdown s = .next t ∧ t.pwr.phase = .thermal ∧ t.pwr.thermTrip = true ∧
      t.mem.dumping = false ∧ t.mem.image = s.mem.image) := by
  have hexec := exec_thermalShutdown hp ht h3
  obtain ⟨hpwr, hmem, htck, hcount⟩ := shutdownNoted_spec s
  generalize shutdownNoted s = u at hexec hpwr hmem htck hcount
  rw [hmem] at hexec
  refine ⟨fun hd => ⟨u, hexec.trans (if_pos hd), hpwr, hmem, hcount⟩, fun hd hr => ?_, fun hd hr => ?_⟩
  · obtain ⟨hadm, -, -, hdump, hat, -, hp, -⟩ := beginDump_spec u
    exact ⟨_, hexec.trans ((if_neg (Bool.eq_false_iff.1 hd)).trans (if_neg (Bool.eq_false_iff.1 hr))), hp.trans hpwr, hdump,
      by rw [hat, now, htck, now], hadm⟩
  · exact ⟨_, hexec.trans ((if_neg (Bool.eq_false_iff.1 hd)).trans (if_pos hr)), rfl, rfl, rfl, (congrArg Mem.image hmem :)⟩

theorem powerFailDetect_acts (s : State) :
    (alive s = false ∨ s.pwr.failRun < 2 → exec .powerFailDetect s = .next s) ∧
    (alive s = true → 2 ≤ s.pwr.failRun → s.mem.replaying = true → exec .powerFailDetect s = .next { s with pwr := { s.pwr with halted := true } }) ∧
    (alive s = true → 2 ≤ s.pwr.failRun → s.mem.replaying = false → exec .powerFailDetect s = .next (beginDump s)) := by
  have hexec : exec .powerFailDetect s = if !alive s || decide (s.pwr.failRun < 2) then .next s
      else if s.mem.replaying then .next (setPwr s { s.pwr with halted := true }) else .next (beginDump s) := rfl
  have hon (ha : alive s = true) (hr : 2 ≤ s.pwr.failRun) : ¬ (!alive s || decide (s.pwr.failRun < 2)) = true := by
    simp [ha, Nat.not_lt.2 hr]
  refine ⟨fun h => hexec.trans (if_pos ?_), fun ha hr hrep => hexec.trans ((if_neg (hon ha hr)).trans (if_pos hrep)),
    fun ha hr hrep => hexec.trans ((if_neg (hon ha hr)).trans (if_neg (Bool.eq_false_iff.1 hrep)))⟩
  rcases h with h | h <;> simp [h]

end

end Sys2Proof.Machine

namespace Sys2Proof
open Machine

/-- Settles O52: the window's steps act in turn (the sensors' means, the temperature, the ladder, its flags), and each leaves what the next one
reads; a dump's facts hold whatever began it. -/
theorem powerAndHeatAreHeldDown : Obligations.PowerAndHeatAreHeldDown := by
  refine ⟨fun s est temps volts ppm refs => ⟨powerWindow_runs, powerWindow_held⟩, fun s hp ht h3 => thermalShutdown_acts hp ht h3,
    fun s h => thermalShutdown_quiet h, fun s => ⟨_, rfl, rfl, rfl, rfl, rfl, rfl, rfl⟩, fun s => ?_⟩
  obtain ⟨hquiet, hhalt, hdump⟩ := powerFailDetect_acts s
  refine ⟨hquiet, hhalt, fun ha hr hrep => ?_⟩
  obtain ⟨hadm, hver, htrans, hd, hat, hstop, hpwr, htck, hnew, hold⟩ := beginDump_spec s
  exact ⟨_, hdump ha hr hrep, hadm, hver, htrans, hd, hat, hstop, hpwr, htck, hnew, hold⟩

end Sys2Proof
end

section
/-! PROOFS. R284 to R290: the end of a dump, replay, the log of single-board protection. -/

namespace Sys2Proof.Machine

/-! ### The end of a dump -/

theorem vaultDone_acts {s : State} (hd : s.mem.dumping = true) : ∃ t, exec .vaultDone s = .next t ∧ t.mem.dumping = false ∧
    (∀ i, s.mem.image = some i → t.mem.replaying = true ∧ t.mem.image = some { i with complete := true }) ∧
    (s.mem.image = none → t.mem.replaying = false) ∧
    (s.pwr.therm ≠ 3 → t.pwr.phase = .warm ∧ t.pwr.resetCause = s.pwr.resetCause ||| 0x10 ∧ t.pwr.thermTrip = false) ∧
    (s.pwr.therm = 3 → t.pwr.phase = .thermal ∧ t.pwr.resetCause = s.pwr.resetCause ||| 0x20 ∧ t.pwr.thermTrip = true) ∧
    t.pwr.vaultDone = true ∧ t.tck.aliveOut = false ∧ t.tck.count = s.tck.count := by
  refine ⟨_, if_neg (by simp [hd]), rfl, fun i hi => ⟨?_, ?_⟩, fun hi => ?_, fun h => ?_, fun h => ?_, rfl, rfl, rfl⟩
  · exact congrArg Option.isSome hi
  · exact congrArg (Option.map (fun i : Image => { i with complete := true })) hi
  · exact congrArg Option.isSome hi
  · have hcool : (s.pwr.therm == 3) = false := beq_false_of_ne h
    exact ⟨congrArg (fun b : Bool => if b then Phase.thermal else .warm) hcool,
      congrArg (fun b : Bool => s.pwr.resetCause ||| BitVec.ofNat 7 (2 ^ (if b then 5 else 4))) hcool, hcool⟩
  · have hhot : (s.pwr.therm == 3) = true := beq_iff_eq.2 h
    exact ⟨congrArg (fun b : Bool => if b then Phase.thermal else .warm) hhot,
      congrArg (fun b : Bool => s.pwr.resetCause ||| BitVec.ofNat 7 (2 ^ (if b then 5 else 4))) hhot, hhot⟩

/-! ### Dropped versions (R289) -/

/-- What is lost with a version: each of its blocks. -/
def blocksOf (v : Version) : List (Nat × Nat) := (List.range v.nlb).map (fun k => (v.nsid, v.lba + k))

theorem mem_blocksOf {v : Version} {k : Nat} (h : k < v.nlb) : (v.nsid, v.lba + k) ∈ blocksOf v :=
  List.mem_map.2 ⟨k, List.mem_range.2 h, rfl⟩

theorem loseVersion_spec (s : State) (v : Version) :
    (loseVersion s v).cmd = { s.cmd with lost := s.cmd.lost ++ blocksOf v } ∧ (loseVersion s v).mem = s.mem ∧ (loseVersion s v).pwr = s.pwr := by
  have hev : OnlyIn [.bdy] s ((ingestsOf s.qre.ingest v).foldl (fun s i => event s 0 13 3 0xFF 0xFF [i.nsid, i.lba, i.blocks, i.seq]) s) :=
    onlyIn_of_follows (follows_foldl (follows_refl s) (fun u i hu => follows_event (by decide) hu))
  have hcmd : _ = s.cmd := hev.2 .cmd (by decide)
  refine ⟨?_, hev.2 .mem (by decide), hev.2 .pwr (by decide)⟩
  exact congrArg (fun c : CmdBlk => { c with lost := c.lost ++ blocksOf v }) hcmd

theorem foldl_loseVersion_spec (l : List Version) (s : State) : let t := l.foldl loseVersion s
    t.cmd = { s.cmd with lost := s.cmd.lost ++ l.flatMap blocksOf } ∧ t.mem = s.mem ∧ t.pwr = s.pwr := by
  induction l generalizing s with
  | nil => exact ⟨by simp, rfl, rfl⟩
  | cons v l ih =>
    obtain ⟨hcmd, hmem, hpwr⟩ := loseVersion_spec s v
    obtain ⟨ihc, ihm, ihp⟩ := ih (loseVersion s v)
    exact ⟨ihc.trans (by rw [hcmd, List.flatMap_cons, ← List.append_assoc]), ihm.trans hmem, ihp.trans hpwr⟩

/-- A commit page stands for every version of an image. -/
theorem commitPages_fst (vs : List Version) : (commitPages vs).map (·.1) = dumpOrder vs := by
  have hgen (l : List Version) (x : List (Version × Nat) × Nat) : ((l.foldl (fun (x : List (Version × Nat) × Nat) v =>
      (x.1 ++ [(v, (x.2 + 4096 * v.nlb - 1) / 2 ^ 30)], x.2 + 4096 * v.nlb)) x).1).map (·.1) = x.1.map (·.1) ++ l := by
    induction l generalizing x with
    | nil => simp
    | cons v l ih => rw [List.foldl_cons, ih]; simp
  exact (hgen (dumpOrder vs) ([], 0)).trans (List.nil_append _)

theorem exists_commitPage {vs : List Version} {v : Version} (h : v ∈ vs) : ∃ n, (v, n) ∈ commitPages vs := by
  have hord : v ∈ (commitPages vs).map (·.1) := by
    rw [commitPages_fst]
    exact List.mem_mergeSort.2 h
  obtain ⟨⟨w, n⟩, hmem, rfl⟩ := List.mem_map.1 hord
  exact ⟨n, hmem⟩

/-- A version is dropped exactly where its page does not come before the page of every version with lost data. -/
theorem mem_droppedOf {i : Image} {dropped : List (Nat × Nat)} (hc : i.complete = false) {v : Version} : v ∈ droppedOf i dropped ↔
    ∃ n, (v, n) ∈ commitPages i.versions ∧ ∃ f ∈ commitPages i.versions, (f.1.twin, f.1.seq) ∈ dropped ∧ f.2 ≤ n := by
  have hhit (e : Version × Nat) : dropped.contains (e.1.twin, e.1.seq) = true ↔ (e.1.twin, e.1.seq) ∈ dropped := List.contains_iff_mem
  have hpages (n : Nat) : n ∈ ((commitPages i.versions).filter (fun e => dropped.contains (e.1.twin, e.1.seq))).map (·.2) ↔
      ∃ f ∈ commitPages i.versions, (f.1.twin, f.1.seq) ∈ dropped ∧ f.2 = n := by
    simp only [List.mem_map, List.mem_filter, hhit, and_assoc]
  rw [droppedOf, if_neg (by simp [hc])]
  generalize hps : ((commitPages i.versions).filter (fun e => dropped.contains (e.1.twin, e.1.seq))).map (·.2) = ps at hpages
  dsimp only
  rw [hps]
  cases ps with
  | nil =>
    refine ⟨fun h => absurd h List.not_mem_nil, fun ⟨n, _, f, hf, hd, _⟩ => ?_⟩
    exact absurd ((hpages f.2).2 ⟨f, hf, hd, rfl⟩) List.not_mem_nil
  | cons k ks =>
    have hmin : ks.foldl min k ≤ k ∧ (∀ x ∈ ks, ks.foldl min k ≤ x) ∧ (ks.foldl min k = k ∨ ∃ x ∈ ks, ks.foldl min k = x) :=
      foldl_min_le (fun n => n) ks k
    obtain ⟨hle, hall, hin⟩ := hmin
    have hfirst : ks.foldl min k ∈ k :: ks := by
      rcases hin with h | ⟨x, hx, h⟩
      · exact List.mem_cons.2 (.inl h)
      · exact List.mem_cons_of_mem _ (h ▸ hx)
    have hleast (n : Nat) (hn : n ∈ k :: ks) : ks.foldl min k ≤ n := by
      rcases List.mem_cons.1 hn with rfl | hn
      · exact hle
      · exact hall n hn
    simp only [List.mem_map, List.mem_filter, decide_eq_true_eq]
    constructor
    · rintro ⟨⟨w, n⟩, ⟨hmem, hn⟩, rfl⟩
      obtain ⟨f, hf, hd, hfn⟩ := (hpages _).1 hfirst
      exact ⟨n, hmem, f, hf, hd, hfn ▸ hn⟩
    · rintro ⟨n, hmem, f, hf, hd, hfn⟩
      exact ⟨(v, n), ⟨hmem, (hleast _ ((hpages _).2 ⟨f, hf, hd, rfl⟩)).trans hfn⟩, rfl⟩

/-! ### Replay (R289, R290) -/

/-- Replay ends: admission resumes above every sequence held, and the replay is counted. -/
def replayEnded (s : State) : State :=
  bump (aboveAll { s with mem := { s.mem with replaying := false }, pwr := { s.pwr with stage := max s.pwr.stage 8 } }) 13 6

theorem foldl_max_le (l : List Version) (n : Nat) : n ≤ l.foldl (fun n v => max n v.seq) n ∧ ∀ v ∈ l, v.seq ≤ l.foldl (fun n v => max n v.seq) n := by
  induction l generalizing n with
  | nil => simp
  | cons w l ih =>
    obtain ⟨hle, hall⟩ := ih (max n w.seq)
    rw [List.foldl_cons]
    refine ⟨by omega, fun v hv => ?_⟩
    rcases List.mem_cons.1 hv with rfl | hv
    · omega
    · exact hall v hv

theorem replayEnded_spec (s : State) : let t := replayEnded s
    t.mem = { s.mem with replaying := false } ∧ t.cmd.versions = s.cmd.versions ∧ t.cmd.lost = s.cmd.lost ∧ t.qre = s.qre ∧ t.hiu = s.hiu ∧
      counter t 13 6 = counter s 13 6 + 1 ∧ ∀ v ∈ s.cmd.versions, v.seq ≤ t.cmd.seq := by
  refine ⟨rfl, rfl, rfl, rfl, rfl, ?_, (foldl_max_le s.cmd.versions s.cmd.seq).2⟩
  rw [replayEnded, counter_bump, if_pos rfl]
  rfl

/-- Without a valid image only the log is loaded. -/
def logOnly (s : State) : State := loadLog { s with mem := { s.mem with image := none, replayed := false } }

/-- The versions of an image that replay keeps. -/
def heldOf (i : Image) (gone : List Version) : List Version := i.versions.filter (fun v => !gone.contains v)

/-- The image without its dropped versions is loaded, and what is dropped is lost. -/
def imageLoaded (s : State) (i : Image) (gone : List Version) : State :=
  gone.foldl loseVersion (loadImage s { i with versions := heldOf i gone })

/-- A replayed image is loaded again with the log; a new one without it. -/
def logFollowed (s : State) : State := if s.mem.replayed then loadLog s else { s with mem := { s.mem with log := [], logIngest := [] } }

/-- The image stands as replayed. -/
def imageStands (s : State) (i : Image) : State := { s with mem := { s.mem with image := some { i with complete := true }, replayed := true } }

section
variable {s : State} {control : Bool} {dropped : List (Nat × Nat)}

theorem exec_vaultReplayDone_none (hp : s.pwr.phase = .starting) (hr : s.mem.replaying = true) (hh : s.pwr.halted = false)
    (hi : s.mem.image.filter (fun i => imageValid i control) = none) : exec (.vaultReplayDone control dropped) s = .next (replayEnded (logOnly s)) := by
  refine (if_neg (by simp [hp, hr, hh])).trans ?_
  simp only [hi]
  rfl

theorem exec_vaultReplayDone_some (hp : s.pwr.phase = .starting) (hr : s.mem.replaying = true) (hh : s.pwr.halted = false) {i : Image}
    (hi : s.mem.image.filter (fun i => imageValid i control) = some i) : exec (.vaultReplayDone control dropped) s =
      .next (replayEnded (imageStands (logFollowed (imageLoaded s i (droppedOf i dropped))) i)) := by
  refine (if_neg (by simp [hp, hr, hh])).trans ?_
  simp only [hi]
  rfl

theorem vaultReplayDone_quiet (h : s.pwr.phase ≠ .starting ∨ s.mem.replaying = false ∨ s.pwr.halted = true) :
    exec (.vaultReplayDone control dropped) s = .next s := by
  refine if_pos ?_
  rcases h with h | h | h <;> simp [h]

/-- A complete image that was not yet replayed is loaded whole, and the log goes. -/
theorem vaultReplayDone_complete (hp : s.pwr.phase = .starting) (hr : s.mem.replaying = true) (hh : s.pwr.halted = false) {i : Image}
    (hi : s.mem.image = some i) (hc : i.complete = true) (hnew : s.mem.replayed = false) : ∃ t, exec (.vaultReplayDone control dropped) s = .next t ∧
      t.cmd.versions = i.versions ∧ t.qre.quires = i.quires ∧ t.qre.ingest = i.ingest ∧ t.mem.map = i.map ∧ t.hiu.zones = i.zones ∧
      t.mem.image = some i ∧ t.mem.replayed = true ∧ t.mem.replaying = false ∧ t.mem.log = [] ∧ counter t 13 6 = counter s 13 6 + 1 ∧
      (∀ v ∈ i.versions, v.seq ≤ t.cmd.seq) ∧ t.cmd.lost = s.cmd.lost := by
  have hvalid : s.mem.image.filter (fun i => imageValid i control) = some i := by
    rw [hi]
    exact if_pos (by simp [imageValid, hc])
  have hall : heldOf i [] = i.versions := by simp [heldOf]
  have hload : imageLoaded s i (droppedOf i dropped) = loadImage s i := by
    rw [droppedOf, if_pos hc, imageLoaded, hall]
    rfl
  have hfollow : logFollowed (loadImage s i) = { loadImage s i with mem := { (loadImage s i).mem with log := [], logIngest := [] } } :=
    if_neg (Bool.eq_false_iff.1 hnew)
  have hself : ({ i with complete := true } : Image) = i := by rw [← hc]
  have hexec := exec_vaultReplayDone_some (dropped := dropped) hp hr hh hvalid
  rw [hload, hfollow, imageStands, hself] at hexec
  obtain ⟨hmem, hver, hlost, hqre, hhiu, hcount, hseq⟩ := replayEnded_spec { loadImage s i with mem :=
    { (loadImage s i).mem with log := [], logIngest := [], image := some i, replayed := true } }
  exact ⟨_, hexec, hver, congrArg Qre.quires hqre, congrArg Qre.ingest hqre, congrArg Mem.map hmem, congrArg Hiu.zones hhiu, congrArg Mem.image hmem,
    congrArg Mem.replayed hmem, congrArg Mem.replaying hmem, congrArg Mem.log hmem, hcount, hseq, hlost⟩

/-- Of an image that ended early the versions before the first dropped page group are held, and the blocks of the others are lost. -/
theorem vaultReplayDone_early (hp : s.pwr.phase = .starting) (hr : s.mem.replaying = true) (hh : s.pwr.halted = false) {i : Image}
    (hi : s.mem.image = some i) (hc : i.complete = false) : ∃ t, exec (.vaultReplayDone true dropped) s = .next t ∧
      (∀ v ∈ i.versions, (v.twin, v.seq) ∈ dropped → ∀ k, k < v.nlb → (v.nsid, v.lba + k) ∈ t.cmd.lost) ∧
      (∀ v ∈ i.versions, v ∈ t.cmd.versions ∨ ∀ k, k < v.nlb → (v.nsid, v.lba + k) ∈ t.cmd.lost) ∧
      (∀ v ∈ i.versions, (∀ e ∈ commitPages i.versions, e.1 = v → ∀ f ∈ commitPages i.versions, (f.1.twin, f.1.seq) ∈ dropped → e.2 < f.2) →
        v ∈ t.cmd.versions) ∧ t.mem.replaying = false ∧ t.mem.replayed = true := by
  have hvalid : s.mem.image.filter (fun i => imageValid i true) = some i := by
    rw [hi]
    exact if_pos (by simp [imageValid])
  have hexec := exec_vaultReplayDone_some (dropped := dropped) hp hr hh hvalid
  obtain ⟨hcmd, -, -⟩ := foldl_loseVersion_spec (droppedOf i dropped) (loadImage s { i with versions := heldOf i (droppedOf i dropped) })
  have hlost : (logFollowed (imageLoaded s i (droppedOf i dropped))).cmd.lost = s.cmd.lost ++ (droppedOf i dropped).flatMap blocksOf := by
    unfold logFollowed
    split <;> exact congrArg CmdBlk.lost hcmd
  have hheld (v : Version) (hv : v ∈ heldOf i (droppedOf i dropped)) : v ∈ (logFollowed (imageLoaded s i (droppedOf i dropped))).cmd.versions := by
    have hload : (imageLoaded s i (droppedOf i dropped)).cmd.versions = heldOf i (droppedOf i dropped) := congrArg CmdBlk.versions hcmd
    unfold logFollowed
    split
    · exact List.mem_append_left _ (hload ▸ hv)
    · exact hload ▸ hv
  generalize logFollowed (imageLoaded s i (droppedOf i dropped)) = u at hexec hlost hheld
  obtain ⟨hmem, hver, hlost', -⟩ := replayEnded_spec (imageStands u i)
  have hgone (v : Version) (hv : v ∈ droppedOf i dropped) (k : Nat) (hk : k < v.nlb) : (v.nsid, v.lba + k) ∈ (replayEnded (imageStands u i)).cmd.lost := by
    rw [hlost', show (imageStands u i).cmd.lost = u.cmd.lost from rfl, hlost]
    exact List.mem_append_right _ (List.mem_flatMap.2 ⟨v, hv, mem_blocksOf hk⟩)
  have hkept (v : Version) (hv : v ∈ i.versions) (hn : v ∉ droppedOf i dropped) : v ∈ (replayEnded (imageStands u i)).cmd.versions := by
    rw [hver]
    exact hheld v (List.mem_filter.2 ⟨hv, by simpa using hn⟩)
  refine ⟨_, hexec, fun v hv hd => hgone v ?_, fun v hv => ?_, fun v hv hbefore => hkept v hv ?_, congrArg Mem.replaying hmem,
    congrArg Mem.replayed hmem⟩
  · obtain ⟨n, hn⟩ := exists_commitPage hv
    exact (mem_droppedOf hc).2 ⟨n, hn, (v, n), hn, hd, le_refl n⟩
  · by_cases hg : v ∈ droppedOf i dropped
    · exact .inr (hgone v hg)
    · exact .inl (hkept v hv hg)
  · intro hg
    obtain ⟨n, hn, f, hf, hd, hle⟩ := (mem_droppedOf hc).1 hg
    exact absurd (hbefore (v, n) hn rfl f hf hd) (Nat.not_lt.2 hle)

/-- Without a valid image the versions of the log join those held. -/
theorem vaultReplayDone_log (hp : s.pwr.phase = .starting) (hr : s.mem.replaying = true) (hh : s.pwr.halted = false)
    (hi : s.mem.image = none ∨ ∃ i, s.mem.image = some i ∧ i.complete = false ∧ control = false) :
    ∃ t, exec (.vaultReplayDone control dropped) s = .next t ∧ t.mem.image = none ∧ t.mem.replayed = false ∧ t.mem.replaying = false ∧
      (∀ v ∈ s.mem.log, ∃ w ∈ t.cmd.versions, w.twin = v.twin ∧ w.seq = v.seq) ∧ (∀ v ∈ s.cmd.versions, v ∈ t.cmd.versions) := by
  have hnone : s.mem.image.filter (fun i => imageValid i control) = none := by
    rcases hi with h | ⟨i, h, hc, rfl⟩
    · rw [h]; rfl
    · rw [h]
      exact if_neg (by simp [imageValid, hc])
  obtain ⟨hmem, hver, -⟩ := replayEnded_spec (logOnly s)
  refine ⟨_, exec_vaultReplayDone_none hp hr hh hnone, congrArg Mem.image hmem, congrArg Mem.replayed hmem, congrArg Mem.replaying hmem,
    fun v hv => ?_, fun v hv => ?_⟩
  · rw [hver]
    by_cases hheld : s.cmd.versions.any (fun w => w.twin == v.twin && w.seq == v.seq) = true
    · obtain ⟨w, hw, heq⟩ := List.any_eq_true.1 hheld
      rw [Bool.and_eq_true, beq_iff_eq, beq_iff_eq] at heq
      exact ⟨w, List.mem_append_left _ hw, heq⟩
    · exact ⟨v, List.mem_append_right _ (List.mem_filter.2 ⟨hv, by rw [Bool.eq_false_iff.2 hheld]; rfl⟩), rfl, rfl⟩
  · rw [hver]
    exact List.mem_append_left _ hv

end

/-! ### The log of single-board protection, and erasures (R285, R286) -/

theorem replayedImageErase_cases (s : State) :
    (s.mem.replayed = true → s.mem.dumping = false → dirtyBytes s + controlBytes s ≤ armedBytes s →
      exec .replayedImageErase s = .next { s with mem := { s.mem with image := none, replayed := false } }) ∧
    (s.mem.replayed = false ∨ s.mem.dumping = true ∨ armedBytes s < dirtyBytes s + controlBytes s → exec .replayedImageErase s = .next s) := by
  refine ⟨fun hr hd hle => if_pos ⟨hr, by simp [hd], hle⟩, fun h => if_neg ?_⟩
  rintro ⟨hr, hd, hle⟩
  rcases h with h | h | h
  · simp [h] at hr
  · simp [h] at hd
  · omega

theorem vaultEraseDone_acts (s : State) (n : Dword) : ∃ t, exec (.vaultEraseDone n) s = .next t ∧ t.mem.erased = s.mem.erased + n.toNat ∧
    t.mem.image = s.mem.image ∧ (∀ v ∈ s.mem.log, versionSealed s v.twin v.seq = false → v ∈ t.mem.log) ∧ OnlyIn [.mem] s t :=
  ⟨_, rfl, rfl, rfl, fun _ hv h => List.mem_filter.2 ⟨hv, by rw [h]; rfl⟩, onlyIn_of_follows (upd_mem (by decide) rfl rfl (follows_refl s))⟩

theorem vaultGroupClose_cases (s : State) :
    (∀ g, s.mem.group = some g → (g.born + 16 ≤ now s ∨ 4194304 ≤ g.bytes → exec .vaultGroupClose s =
        .next { s with mem := { s.mem with group := none, closing := s.mem.closing ++ [g] } }) ∧
      (now s < g.born + 16 → g.bytes < 4194304 → exec .vaultGroupClose s = .next s)) ∧
    (s.mem.group = none → exec .vaultGroupClose s = .next s) := by
  refine ⟨fun g hg => ⟨fun h => ?_, fun h h' => ?_⟩, fun hg => ?_⟩ <;> change execVaultGroupClose s = _ <;> rw [execVaultGroupClose, hg]
  · exact if_pos h
  · exact if_neg (by omega)

/-- The version with its group's commit page written. -/
def vaultMarked (g : Group) (v : Version) : Version := if g.seqs.contains (v.twin, v.seq) then { v with vaulted := true } else v

theorem vaultMarked_eq (g : Group) (v : Version) : vaultMarked g v = { v with vaulted := v.vaulted || g.seqs.contains (v.twin, v.seq) } := by
  unfold vaultMarked
  split
  case isTrue h => rw [h, Bool.or_true]
  case isFalse h => rw [Bool.eq_false_iff.2 h, Bool.or_false]

theorem vaultCommitDone_acts {s : State} {g : Group} {rest : List Group} (hg : s.mem.closing = g :: rest) : ∃ t, exec .vaultCommitDone s = .next t ∧
    t.mem.closing = rest ∧ t.mem.imageSeq = s.mem.imageSeq + 1 ∧
    t.cmd.versions = s.cmd.versions.map (fun v => { v with vaulted := v.vaulted || g.seqs.contains (v.twin, v.seq) }) ∧
    (∀ v ∈ t.cmd.versions, (v.twin, v.seq) ∈ g.seqs → v ∈ t.mem.log ∧ v.vaulted = true) ∧ (∀ v ∈ s.mem.log, v ∈ t.mem.log) ∧
    OnlyIn [.cmd, .mem] s t := by
  change ∃ t, execVaultCommitDone s = .next t ∧ _
  rw [execVaultCommitDone, hg]
  have hmarked : s.cmd.versions.map (vaultMarked g) = s.cmd.versions.map (fun v => { v with vaulted := v.vaulted || g.seqs.contains (v.twin, v.seq) }) :=
    List.map_congr_left (fun v _ => vaultMarked_eq g v)
  refine ⟨_, rfl, rfl, rfl, hmarked, fun v hv hin => ⟨?_, ?_⟩, fun v hv => List.mem_append_left _ hv, ?_⟩
  · exact List.mem_append_right _ (List.mem_filter.2 ⟨hv, List.contains_iff_mem.2 hin⟩)
  · obtain ⟨w, -, rfl⟩ := List.mem_map.1 (hmarked ▸ hv : v ∈ s.cmd.versions.map _)
    exact Bool.or_eq_true_iff.2 (.inr (List.contains_iff_mem.2 hin))
  · exact onlyIn_of_follows (upd_mem (s := { s with cmd := { s.cmd with versions := s.cmd.versions.map (vaultMarked g) } }) (by decide) rfl rfl
      (upd_cmd (by decide) (follows_refl s)))

end Sys2Proof.Machine
end

section
/-! PROOFS. R273 to R275, R277, R281: the protecting code, the Burnisher, injection and the lock of the Map Cache. -/

namespace Sys2Proof.Machine

/-! ### The protecting code is linear (R273) -/

/-- The columns of the data bits set among the first `n`, added up. -/
def checkUpTo (n d : Nat) : Nat := ((List.range n).filter (fun i => d.testBit i)).foldl (fun c i => c ^^^ columns.getD i 0) 0

theorem checkUpTo_succ (n d : Nat) : checkUpTo (n + 1) d = checkUpTo n d ^^^ (if d.testBit n then columns.getD n 0 else 0) := by
  unfold checkUpTo
  rw [List.range_succ, List.filter_append, List.foldl_append]
  cases hd : d.testBit n <;> simp [hd]

/-- Flipping a data bit adds its column. -/
theorem checkUpTo_flip (n d i : Nat) : checkUpTo n (d ^^^ 2 ^ i) = checkUpTo n d ^^^ (if i < n then columns.getD i 0 else 0) := by
  induction n with
  | zero => simp [checkUpTo]
  | succ n ih =>
    rw [checkUpTo_succ, checkUpTo_succ, ih, Nat.testBit_xor, Nat.testBit_two_pow]
    by_cases hin : i = n
    · subst hin
      cases hd : d.testBit i <;> simp
    · by_cases hlt : i < n
      · rw [decide_eq_false hin, Bool.xor_false, if_pos hlt, if_pos (by omega : i < n + 1), Nat.xor_assoc, Nat.xor_assoc, Nat.xor_comm (columns.getD i 0)]
      · rw [decide_eq_false hin, Bool.xor_false, if_neg hlt, if_neg (by omega : ¬ i < n + 1), Nat.xor_zero, Nat.xor_zero]

theorem checkBits_flip (d : Nat) {i : Nat} (hi : i < 32) : checkBits (d ^^^ 2 ^ i) = checkBits d ^^^ columns.getD i 0 := by
  have h := checkUpTo_flip 32 d i
  rwa [if_pos hi] at h

/-- A difference in the check bits changes the syndrome by itself. -/
theorem syndrome_checkBits (w : Nat) {c : Nat} (hc : c < 128) : syndrome (w ^^^ c * 2 ^ 32) = syndrome w ^^^ c := by
  have hhigh : (w ^^^ c * 2 ^ 32) / 2 ^ 32 % 128 = w / 2 ^ 32 % 128 ^^^ c := by
    rw [Nat.xor_div_two_pow, Nat.mul_div_cancel _ (by decide), (Nat.xor_mod_two_pow : (_ ^^^ c) % 2 ^ 7 = _), Nat.mod_eq_of_lt hc]
  have hlow : (w ^^^ c * 2 ^ 32) % 2 ^ 32 = w % 2 ^ 32 := by
    rw [Nat.xor_mod_two_pow, Nat.mul_mod_left, Nat.xor_zero]
  rw [syndrome, syndrome, hhigh, hlow, Nat.xor_assoc, Nat.xor_assoc, Nat.xor_comm c]

/-- A difference in a data bit changes the syndrome by its column. -/
theorem syndrome_dataBit (w : Nat) {i : Nat} (hi : i < 32) : syndrome (w ^^^ 2 ^ i) = syndrome w ^^^ columns.getD i 0 := by
  have hlt : 2 ^ i < 2 ^ 32 := Nat.pow_lt_pow_right (by decide) hi
  have hhigh : (w ^^^ 2 ^ i) / 2 ^ 32 = w / 2 ^ 32 := by
    rw [Nat.xor_div_two_pow, Nat.div_eq_of_lt hlt, Nat.xor_zero]
  have hlow : (w ^^^ 2 ^ i) % 2 ^ 32 = w % 2 ^ 32 ^^^ 2 ^ i := by
    rw [Nat.xor_mod_two_pow, Nat.mod_eq_of_lt hlt]
  rw [syndrome, syndrome, hhigh, hlow, checkBits_flip _ hi, Nat.xor_assoc]

theorem columns_getD_idxOf {c : Nat} (h : c ∈ columns.take 32) : columns.idxOf c < 32 ∧ columns.getD (columns.idxOf c) 0 = c := by
  have hidx : columns.idxOf c = (columns.take 32).idxOf c := by
    conv_lhs => rw [← List.take_append_drop 32 columns]
    exact List.idxOf_append_of_mem h
  have hlt : (columns.take 32).idxOf c < (columns.take 32).length := List.idxOf_lt_length_of_mem h
  have hmem : c ∈ columns := List.mem_of_mem_take h
  refine ⟨by rw [hidx]; exact lt_of_lt_of_le hlt (List.length_take_le ..), ?_⟩
  rw [List.getD_eq_getElem _ _ (List.idxOf_lt_length_of_mem hmem), List.getElem_idxOf]

theorem decideSyndrome_clean {s : Nat} (h : decideSyndrome s = .clean) : s = 0 := by
  unfold decideSyndrome at h
  split at h
  case isTrue h0 => exact h0
  split at h
  · exact absurd h (by simp)
  split at h
  · exact absurd h (by simp)
  · exact absurd h (by simp)

theorem decideSyndrome_dataBit {s i : Nat} (h : decideSyndrome s = .dataBit i) : i < 32 ∧ columns.getD i 0 = s := by
  unfold decideSyndrome at h
  split at h
  · exact absurd h (by simp)
  split at h
  · exact absurd h (by simp)
  split at h
  case isTrue hc =>
    obtain rfl : columns.idxOf s = i := Decision.dataBit.inj h
    exact columns_getD_idxOf (List.contains_iff_mem.1 hc)
  case isFalse => exact absurd h (by simp)

theorem checkUpTo_lt (n d : Nat) : checkUpTo n d < 2 ^ 7 := by
  have hcol (i : Nat) : columns.getD i 0 < 2 ^ 7 := by
    rw [List.getD_eq_getElem?_getD]
    rcases hc : columns[i]? with _ | c
    · decide
    · exact List.mem_range.1 (List.mem_of_mem_filter (List.mem_of_getElem? hc))
  induction n with
  | zero => exact (by decide : 0 < 2 ^ 7)
  | succ n ih =>
    rw [checkUpTo_succ]
    refine Nat.xor_lt_two_pow ih ?_
    split
    · exact hcol n
    · decide

theorem syndrome_lt (w : Nat) : syndrome w < 128 := Nat.xor_lt_two_pow (n := 7) (Nat.mod_lt _ (by decide)) (checkUpTo_lt 32 (w % 2 ^ 32))

/-- A word that is not uncorrectable is correct after its correction. -/
theorem syndrome_corrected {e : BitVec 39} (h : decideSyndrome (syndrome e.toNat) ≠ .uncorrectable) : syndrome (corrected e).toNat = 0 := by
  unfold corrected
  cases hd : decideSyndrome (syndrome e.toNat) with
  | clean => exact decideSyndrome_clean hd
  | uncorrectable => exact absurd hd h
  | checkBit =>
    have hlt := syndrome_lt e.toNat
    dsimp only
    rw [BitVec.toNat_xor, BitVec.toNat_ofNat, Nat.mod_eq_of_lt (by omega), syndrome_checkBits _ hlt, Nat.xor_self]
  | dataBit i =>
    obtain ⟨hi, hcol⟩ := decideSyndrome_dataBit hd
    have hlt : 2 ^ i < 2 ^ 39 := Nat.pow_lt_pow_right (by decide) (by omega)
    dsimp only
    rw [BitVec.toNat_xor, BitVec.toNat_ofNat, Nat.mod_eq_of_lt hlt, syndrome_dataBit _ hi, hcol, Nat.xor_self]

/-! ### A line of DRAM (R274, R281) -/

/-- What the Burnisher finds in word `j` of its line. -/
def wordFound (s : State) (flips : List (BitVec 39)) (j : Nat) : Decision :=
  decideSyndrome (syndrome (getD s.mem.dram 0 (64 * s.mem.burnLine / 4 + j) ^^^ flips.getD j 0).toNat)

/-- The 16 words of the line as read. -/
def lineErrs (s : State) (flips : List (BitVec 39)) : List (BitVec 39) := (List.range 16).map (wordErr s flips (64 * s.mem.burnLine))

/-- The words of the line in error. -/
def errorsFound (s : State) (flips : List (BitVec 39)) : Nat := ((List.range 16).filter (fun j => wordFound s flips j != .clean)).length

theorem length_errors (s : State) (flips : List (BitVec 39)) :
    ((lineErrs s flips).filter (fun e => decideSyndrome (syndrome e.toNat) != .clean)).length = errorsFound s flips := by
  rw [lineErrs, List.filter_map, List.length_map]
  rfl

theorem any_uncorrectable (s : State) (flips : List (BitVec 39)) :
    (lineErrs s flips).any (fun e => decideSyndrome (syndrome e.toNat) == .uncorrectable) = true ↔ ∃ j, j < 16 ∧ wordFound s flips j = .uncorrectable := by
  rw [lineErrs, List.any_map, List.any_eq_true]
  simp only [List.mem_range, Function.comp_apply, beq_iff_eq]
  rfl

theorem lineErrs_getD (s : State) (flips : List (BitVec 39)) {j : Nat} (hj : j < 16) :
    (lineErrs s flips).getD j 0 = getD s.mem.dram 0 (64 * s.mem.burnLine / 4 + j) ^^^ flips.getD j 0 := by
  have hlen : j < (lineErrs s flips).length := by simpa [lineErrs] using hj
  rw [List.getD_eq_getElem _ _ hlen]
  simp [lineErrs, wordErr]

theorem errorsFound_eq_zero {s : State} {flips : List (BitVec 39)} : errorsFound s flips = 0 ↔ ∀ j, j < 16 → wordFound s flips j = .clean := by
  rw [errorsFound, List.length_eq_zero_iff, List.filter_eq_nil_iff]
  simp only [List.mem_range, bne_iff_ne, ne_eq, not_not]

section
variable {s : State} {flips : List (BitVec 39)} {holds : LineKind} {overtaken : Bool}

theorem burnDram_hard (h : ∃ j, j < 16 ∧ wordFound s flips j = .uncorrectable) : burnDram s flips holds overtaken =
    actOnLine (poisonLine s (64 * s.mem.burnLine)) (64 * s.mem.burnLine) (lineHolds s (64 * s.mem.burnLine) holds) :=
  if_pos ((any_uncorrectable s flips).2 h)

theorem burnDram_clean (h : ∀ j, j < 16 → wordFound s flips j = .clean) : burnDram s flips holds overtaken = s := by
  refine (if_neg (fun hany => ?_)).trans (if_pos ((length_errors s flips).trans (errorsFound_eq_zero.2 h)))
  obtain ⟨j, hj, hd⟩ := (any_uncorrectable s flips).1 hany
  rw [h j hj] at hd
  exact absurd hd (by decide)

/-- The line with each word corrected. -/
def lineWritten (s : State) (flips : List (BitVec 39)) : Tbl (BitVec 39) :=
  (List.range 16).foldl (fun t j => put t 0 (64 * s.mem.burnLine / 4 + j) (corrected ((lineErrs s flips).getD j 0))) s.mem.dram

/-- Errors of a line are counted for its DIMM and for the Burnisher. -/
def errorsCounted (s : State) (n : Nat) : State := bumpN (bumpN s 13 (64 * s.mem.burnLine / 4096 % 2) n) 13 4 n

theorem counter_errorsCounted (s : State) (n : Nat) : counter (errorsCounted s n) 13 4 = counter s 13 4 + BitVec.ofNat 64 n := by
  rw [errorsCounted, counter_bumpN, if_pos rfl, counter_bumpN, if_neg (by omega)]

theorem burnDram_soft (h : ∀ j, j < 16 → wordFound s flips j ≠ .uncorrectable) (he : ∃ j, j < 16 ∧ wordFound s flips j ≠ .clean)
    (hinj : s.mem.injArmed = false) : burnDram s flips holds false =
      { errorsCounted s (errorsFound s flips) with mem := { s.mem with dram := lineWritten s flips } } := by
  have hany : ¬ (lineErrs s flips).any (fun e => decideSyndrome (syndrome e.toNat) == .uncorrectable) = true := fun hany => by
    obtain ⟨j, hj, hd⟩ := (any_uncorrectable s flips).1 hany
    exact h j hj hd
  have hn : ¬ ((lineErrs s flips).filter (fun e => decideSyndrome (syndrome e.toNat) != .clean)).length = 0 := by
    rw [length_errors, errorsFound_eq_zero]
    obtain ⟨j, hj, hd⟩ := he
    exact fun hall => hd (hall j hj)
  refine (if_neg hany).trans ((if_neg hn).trans ((if_neg Bool.false_ne_true).trans ((if_neg ?_).trans ?_)))
  · rintro ⟨harmed, -⟩
    exact absurd (hinj.symm.trans harmed) Bool.false_ne_true
  · rw [← length_errors]
    rfl

theorem getD_foldl_put (l : List Nat) (t : Tbl (BitVec 39)) (w : Nat) (f : Nat → BitVec 39) (j : Nat) :
    getD (l.foldl (fun t j => put t 0 (w + j) (f j)) t) 0 (w + j) = if j ∈ l then f j else getD t 0 (w + j) := by
  induction l generalizing t with
  | nil => rfl
  | cons k l ih =>
    rw [List.foldl_cons, ih, getD_put]
    by_cases hl : j ∈ l
    · rw [if_pos hl, if_pos (List.mem_cons_of_mem _ hl)]
    · rw [if_neg hl]
      by_cases hk : k = j
      · rw [if_pos (by omega), if_pos (by simp [hk]), hk]
      · rw [if_neg (by omega), if_neg (by simp [hl, Ne.symm hk])]

theorem syndrome_lineWritten {j : Nat} (hj : j < 16) (h : wordFound s flips j ≠ .uncorrectable) :
    syndrome (getD (lineWritten s flips) 0 (64 * s.mem.burnLine / 4 + j)).toNat = 0 := by
  rw [lineWritten, getD_foldl_put, if_pos (List.mem_range.2 hj), lineErrs_getD _ _ hj]
  exact syndrome_corrected h

end

/-! ### The lap -/

/-- What the step to the next line reads and writes: the DIMMs' sizes, the line and the laps. -/
def lapOf (s : State) : (Nat × Nat) × (Nat × Nat) := ((s.mem.dimm0, s.mem.dimm1), (s.mem.burnLine, s.mem.burnLaps))

theorem nextLine_spec {s u : State} (h : lapOf u = lapOf s) : let t := nextLine u
    (s.mem.burnLine + 1 < dramLines s + cacheLines → t.mem.burnLine = s.mem.burnLine + 1 ∧ t.mem.burnLaps = s.mem.burnLaps) ∧
    (dramLines s + cacheLines ≤ s.mem.burnLine + 1 → t.mem.burnLine = 0 ∧ t.mem.burnLaps = min 65535 (s.mem.burnLaps + 1)) := by
  have hline : u.mem.burnLine = s.mem.burnLine := (congrArg (fun x => x.2.1) h :)
  have hlaps : u.mem.burnLaps = s.mem.burnLaps := (congrArg (fun x => x.2.2) h :)
  have hlines : dramLines u = dramLines s := congrArg (fun x : (Nat × Nat) × (Nat × Nat) => (x.1.1 + x.1.2) * 2 ^ 24) h
  unfold nextLine
  rw [← hline, ← hlaps, ← hlines]
  refine ⟨fun hlt => ?_, fun hle => ?_⟩
  · rw [if_pos hlt]
    exact ⟨rfl, rfl⟩
  · rw [if_neg (by omega)]
    exact ⟨rfl, rfl⟩

theorem nextLine_keeps (u : State) : let t := nextLine u
    t.mem.dram = u.mem.dram ∧ t.mem.poisoned = u.mem.poisoned ∧ t.mem.eccAddr = u.mem.eccAddr ∧ t.cnt = u.cnt ∧ t.cmd = u.cmd ∧ t.hiu = u.hiu := by
  unfold nextLine
  split <;> exact ⟨rfl, rfl, rfl, rfl, rfl, rfl⟩

/-- What acting on a line keeps of memory: the lap and the address shown. -/
def lapAddr (s : State) : ((Nat × Nat) × (Nat × Nat)) × Nat := (lapOf s, s.mem.eccAddr)

theorem mended_spec (s : State) (b : Nat) : lapAddr (mended s (64 * b)) = lapAddr s ∧ 64 * b ∉ (mended s (64 * b)).mem.poisoned := by
  have hclear : (if 16 = 16 ∧ 64 * b % 64 = 0 then s.mem.poisoned.filter (fun l => l ≠ 64 * b) else s.mem.poisoned) =
      s.mem.poisoned.filter (fun l => l ≠ 64 * b) := if_pos ⟨rfl, Nat.mul_mod_right ..⟩
  unfold mended dramWrite
  dsimp only
  rw [hclear]
  split
  · exact ⟨rfl, by simp⟩
  · exact ⟨rfl, by simp⟩

theorem lapAddr_of_onlyIn {parts : List Part} {s t : State} (h : OnlyIn parts s t) (hp : Part.mem ∉ parts) : lapAddr t = lapAddr s :=
  congrArg (fun m : Mem => (((m.dimm0, m.dimm1), (m.burnLine, m.burnLaps)), m.eccAddr)) (h.2 .mem hp :)

theorem awaitCopy_keeps (s : State) (a : Nat) (k : LineKind) (seq : Nat) : lapAddr (awaitCopy s a k seq) = lapAddr s :=
  lapAddr_of_onlyIn (s := { s with mem := { s.mem with holders := s.mem.holders.filter (fun e => e.1 ≠ a) ++ [(a, k)] } })
    (onlyIn_of_follows (parts := [.out]) (follows_send (by decide) (follows_refl _))) (by decide)

theorem actOnLine_keeps (s : State) (b : Nat) (k : LineKind) : lapAddr (actOnLine s (64 * b) k) = lapAddr s := by
  cases k with
  | own seq block =>
    unfold actOnLine
    dsimp only
    split
    · rfl
    split
    · exact awaitCopy_keeps ..
    split
    · exact (mended_spec s b).1
    · rfl
  | mirror seq => exact awaitCopy_keeps ..
  | folioMap => exact (mended_spec s b).1
  | journal =>
    unfold actOnLine
    dsimp only
    split
    · exact (mended_spec s b).1
    · exact lapAddr_of_onlyIn (s := { s with cmd := { s.cmd with prot := 2 } })
        (onlyIn_of_follows (parts := [.out, .hiu]) (follows_vendorEvent (by decide) (follows_refl _))) (by decide)
  | queueContext c => rfl
  | calibration opu layer =>
    exact lapAddr_of_onlyIn (onlyIn_of_follows (parts := [.cal]) (follows_discLoad (by decide) (follows_setCal (by decide) (follows_refl s)))) (by decide)
  | mapCache => rfl
  | other => rfl

/-- A poisoned line is counted, its address shown, and what it held acts. -/
theorem burnHard_spec (s : State) (b : Nat) (k : LineKind) : let u := actOnLine (poisonLine s (64 * b)) (64 * b) k
    counter u 13 2 = counter s 13 2 + 1 ∧ u.mem.eccAddr = 64 * b ∧ lapOf u = lapOf s ∧ (k = .other → 64 * b ∈ u.mem.poisoned) ∧
      (k = .folioMap → 64 * b ∉ u.mem.poisoned) := by
  intro u
  have hacts : OnlyIn [.out, .cal, .hiu, .cmd, .mem] (poisonLine s (64 * b)) u := onlyIn_of_follows (follows_actOnLine (by decide) (follows_refl _))
  have hcnt : u.cnt = (poisonLine s (64 * b)).cnt := hacts.2 .cnt (by decide)
  have hkeep : lapAddr u = lapAddr (poisonLine s (64 * b)) := actOnLine_keeps _ b k
  have hpoison : (poisonLine s (64 * b)).mem.poisoned = if s.mem.poisoned.contains (64 * b) then s.mem.poisoned else s.mem.poisoned ++ [64 * b] := rfl
  refine ⟨?_, (congrArg Prod.snd hkeep :), (congrArg Prod.fst hkeep :), ?_, ?_⟩
  · have hcount : counter (poisonLine s (64 * b)) 13 2 = counter s 13 2 + 1 := by
      rw [poisonLine, counter_countEvent, if_pos rfl]
      rfl
    rw [counter, hcnt, ← hcount, counter]
  · rintro rfl
    change 64 * b ∈ (poisonLine s (64 * b)).mem.poisoned
    rw [hpoison]
    split
    case isTrue h => exact List.contains_iff_mem.1 h
    case isFalse => exact List.mem_append_right _ (List.mem_singleton.2 rfl)
  · rintro rfl
    exact (mended_spec (poisonLine s (64 * b)) b).2

theorem burnDram_lap (s : State) (flips : List (BitVec 39)) (k : LineKind) (over_ : Bool) : lapOf (burnDram s flips k over_) = lapOf s := by
  have hwrite (u : State) (a n : Nat) : lapOf (dramWrite u a n) = lapOf u := by
    unfold dramWrite
    dsimp only
    split <;> rfl
  unfold burnDram
  dsimp only
  split
  · exact (burnHard_spec s s.mem.burnLine _).2.2.1
  split
  · rfl
  split
  · rfl
  split
  · exact hwrite ..
  · rfl

/-! ### A line of the Map Cache (R278) -/

theorem burnCache_spec (s : State) (flips : List (BitVec 39)) (tp : Bool) : let u := burnCache s flips tp
    lapOf u = lapOf s ∧ u.mem.dram = s.mem.dram ∧ u.mem.poisoned = s.mem.poisoned ∧ u.cmd = s.cmd ∧ u.hiu = s.hiu := by
  unfold burnCache
  dsimp only
  split
  · exact ⟨rfl, rfl, rfl, rfl, rfl⟩
  split
  · split <;> exact ⟨rfl, rfl, rfl, rfl, rfl⟩
  split <;> exact ⟨rfl, rfl, rfl, rfl, rfl⟩

/-! ### BURNISHER_LINE -/

/-- One line of the lap. -/
def lineBurned (s : State) (flips : List (BitVec 39)) (tp : Bool) (k : LineKind) (over_ : Bool) : State :=
  if s.mem.burnLine < dramLines s then burnDram s flips k over_ else burnCache s flips tp

theorem lineBurned_lap (s : State) (flips : List (BitVec 39)) (tp : Bool) (k : LineKind) (over_ : Bool) : lapOf (lineBurned s flips tp k over_) = lapOf s := by
  unfold lineBurned
  split
  · exact burnDram_lap ..
  · exact (burnCache_spec s flips tp).1

theorem burnisherLine_acts {s : State} (h : burns s = true) (flips : List (BitVec 39)) (tp over_ : Bool) (k : LineKind) :
    let a := 64 * s.mem.burnLine
    let e := fun j => getD s.mem.dram 0 (a / 4 + j) ^^^ flips.getD j 0
    let d := fun j => decideSyndrome (syndrome (e j).toNat)
    ∃ t, exec (.burnisherLine flips tp k over_) s = .next t ∧
      (s.mem.burnLine + 1 < dramLines s + cacheLines → t.mem.burnLine = s.mem.burnLine + 1 ∧ t.mem.burnLaps = s.mem.burnLaps) ∧
      (dramLines s + cacheLines ≤ s.mem.burnLine + 1 → t.mem.burnLine = 0 ∧ t.mem.burnLaps = min 65535 (s.mem.burnLaps + 1)) ∧
      (s.mem.burnLine < dramLines s → (∀ j, j < 16 → d j = .clean) → t.mem.dram = s.mem.dram ∧ t.mem.poisoned = s.mem.poisoned ∧
        t.cnt = s.cnt ∧ t.cmd = s.cmd ∧ t.hiu = s.hiu) ∧
      (s.mem.burnLine < dramLines s → (∀ j, j < 16 → d j ≠ .uncorrectable) → over_ = false → s.mem.injArmed = false →
        (∃ j, j < 16 ∧ d j ≠ .clean) → (∀ j, j < 16 → (d j ≠ .clean → syndrome (getD t.mem.dram 0 (a / 4 + j)).toNat = 0)) ∧
        counter t 13 4 = counter s 13 4 + BitVec.ofNat 64 ((List.range 16).filter (fun j => d j != .clean)).length) ∧
      (s.mem.burnLine < dramLines s → (∃ j, j < 16 ∧ d j = .uncorrectable) → counter t 13 2 = counter s 13 2 + 1 ∧ t.mem.eccAddr = a ∧
        (lineHolds s a k = .other → a ∈ t.mem.poisoned) ∧ (lineHolds s a k = .folioMap → a ∉ t.mem.poisoned)) ∧
      (dramLines s ≤ s.mem.burnLine → t.mem.dram = s.mem.dram ∧ t.mem.poisoned = s.mem.poisoned ∧ t.cmd = s.cmd ∧ t.hiu = s.hiu) := by
  intro a e d
  have hexec : exec (.burnisherLine flips tp k over_) s = .next (nextLine (lineBurned s flips tp k over_)) := if_neg (by simp [h])
  obtain ⟨hnext, hwrap⟩ := nextLine_spec (lineBurned_lap s flips tp k over_)
  have hburn (hl : s.mem.burnLine < dramLines s) : lineBurned s flips tp k over_ = burnDram s flips k over_ := if_pos hl
  have hcache (hl : dramLines s ≤ s.mem.burnLine) : lineBurned s flips tp k over_ = burnCache s flips tp := if_neg (Nat.not_lt.2 hl)
  generalize lineBurned s flips tp k over_ = u at hexec hnext hwrap hburn hcache
  obtain ⟨hdram, hpois, hecc, hcnt, hcmd, hhiu⟩ := nextLine_keeps u
  generalize nextLine u = t at hexec hnext hwrap hdram hpois hecc hcnt hcmd hhiu
  have hcount (i : Nat) : counter t 13 i = counter u 13 i := by
    rw [counter, hcnt, counter]
  refine ⟨t, hexec, hnext, hwrap, fun hl hclean => ?_, fun hl hsoft hover hinj herr => ?_, fun hl hhard => ?_, fun hl => ?_⟩
  · obtain rfl : u = s := (hburn hl).trans (burnDram_clean hclean)
    exact ⟨hdram, hpois, hcnt, hcmd, hhiu⟩
  · have hline : u = _ := (hburn hl).trans (hover ▸ burnDram_soft hsoft herr hinj)
    refine ⟨fun j hj _ => ?_, ?_⟩
    · have hwritten : u.mem.dram = lineWritten s flips := by rw [hline]
      rw [hdram, hwritten]
      exact syndrome_lineWritten hj (hsoft j hj)
    · refine (hcount 4).trans ?_
      rw [hline]
      exact counter_errorsCounted s (errorsFound s flips)
  · have hline : u = _ := (hburn hl).trans (burnDram_hard hhard)
    obtain ⟨hcounted, haddr, -, hother, hmap⟩ := burnHard_spec s s.mem.burnLine (lineHolds s (64 * s.mem.burnLine) k)
    rw [← hline] at hcounted haddr hother hmap
    exact ⟨(hcount 2).trans hcounted, hecc.trans haddr, fun hk => hpois ▸ hother hk, fun hk => hpois ▸ hmap hk⟩
  · obtain ⟨-, hd, hp, hc, hh⟩ := burnCache_spec s flips tp
    rw [← hcache hl] at hd hp hc hh
    exact ⟨hdram.trans hd, hpois.trans hp, hcmd.trans hc, hhiu.trans hh⟩

/-! ### Injection and the lock (R275, R277) -/

theorem flipMaskArm_acts {s : State} (hb : barSealed s = false) (hd : s.mem.dumping = false) (hr : s.mem.replaying = false) (v : Word) :
    ∃ t, exec (.flipMaskArm v) s = .next t ∧
      t.mem = { s.mem with injArmed := v.getLsbD 0, injLeft := if v.getLsbD 0 then max (v.toNat / 65536) 1 else 0 } ∧ OnlyIn [.regs, .mem] s t := by
  have hn : v.toNat / 65536 % 65536 = v.toNat / 65536 := by omega
  have hexec : exec (.flipMaskArm v) s = .next (writeInjCtl s v.toNat) := if_neg (Bool.eq_false_iff.1 hb)
  refine ⟨_, hexec, ?_, onlyIn_of_follows (follows_writeInjCtl (by decide) (follows_refl s))⟩
  rw [writeInjCtl, if_neg (by simp [hd, hr]), hn]
  rfl

/-- A way that stays in the cache through a change of the lock was locked before exactly where it is afterwards. -/
theorem mem_lockedCache {t : Tbl (List (Nat × Nat))} {hit : Nat → Bool} {e : Nat × List (Nat × Nat)} {x : Nat × Nat}
    (he : e ∈ t.filterMap (fun e => let l := e.2.filter (fun x => !hit x.1); if l = [] then none else some (e.1, l))) (hx : x ∈ e.2) :
    (∃ f ∈ t, f.1 = e.1 ∧ x ∈ f.2) ∧ hit x.1 = false := by
  obtain ⟨f, hf, hfe⟩ := List.mem_filterMap.1 he
  dsimp only at hfe
  split at hfe
  · exact absurd hfe (by simp)
  · obtain rfl := Option.some.inj hfe
    obtain ⟨hmem, hkeep⟩ := List.mem_filter.1 hx
    exact ⟨⟨f, hf, rfl, hmem⟩, by simpa using hkeep⟩

theorem mapCacheLock_acts {s : State} (hb : barSealed s = false) {v : Word} (hv : v.toNat / 2 ^ 28 ≤ 8) :
    ∃ t, exec (.mapCacheLock v) s = .next t ∧ t.mem.lockWays = v.toNat / 2 ^ 28 ∧
      (∀ e ∈ t.mem.cache, ∀ x ∈ e.2, (∃ f ∈ s.mem.cache, f.1 = e.1 ∧ x ∈ f.2) ∧
        ((16 - v.toNat / 2 ^ 28 ≤ x.1) ↔ (16 - s.mem.lockWays ≤ x.1))) ∧ t.mem.dram = s.mem.dram ∧ OnlyIn [.regs, .mem] s t := by
  have hn : v.toNat / 2 ^ 28 % 16 = v.toNat / 2 ^ 28 := by omega
  have hexec : exec (.mapCacheLock v) s = .next (writeMcLock s v.toNat) := if_neg (Bool.eq_false_iff.1 hb)
  have honly : OnlyIn [.regs, .mem] s (writeMcLock s v.toNat) := onlyIn_of_follows (follows_writeMcLock (by decide) (follows_refl s))
  rw [writeMcLock, hn, if_neg (Nat.not_lt.2 hv)] at hexec honly
  refine ⟨_, hexec, rfl, fun e he x hx => ?_, rfl, honly⟩
  obtain ⟨hmem, hkeep⟩ := mem_lockedCache (hit := fun w => decide (16 - v.toNat / 2 ^ 28 ≤ w) != decide (16 - s.mem.lockWays ≤ w)) he hx
  refine ⟨hmem, ?_⟩
  rw [bne_eq_false_iff_eq, decide_eq_decide] at hkeep
  exact hkeep

end Sys2Proof.Machine

namespace Sys2Proof
open Machine

/-- Settles O53: the commit page of every version tells what an early end drops; the protecting code is linear, so a correction leaves syndrome 0. -/
theorem theVaultKeepsWhatWasHeld : Obligations.TheVaultKeepsWhatWasHeld := by
  refine ⟨fun s => ⟨fun hd => if_pos (by simp [hd]), vaultDone_acts⟩, fun s ctl gone hp hr hh => ⟨fun i hi hc hn => ?_, fun i hi hc hctl => ?_, ?_⟩,
    fun s h c g => vaultReplayDone_quiet h, replayedImageErase_cases, vaultEraseDone_acts, fun s => ?_, fun s flips tp over_ k => ⟨fun h => ?_, fun h => ?_⟩,
    fun s v => ⟨fun hb => ⟨if_pos hb, if_pos hb⟩, fun hb hdr => ?_, fun hb hd hr => flipMaskArm_acts hb hd hr v, fun hb hv => ?_, fun hb hv => mapCacheLock_acts hb hv⟩⟩
  · exact vaultReplayDone_complete hp hr hh hi hc hn
  · subst hctl
    exact vaultReplayDone_early hp hr hh hi hc
  · exact vaultReplayDone_log hp hr hh
  · obtain ⟨hsome, hnone⟩ := vaultGroupClose_cases s
    refine ⟨hsome, hnone, fun hc => ?_, fun g rest => vaultCommitDone_acts⟩
    change execVaultCommitDone s = _
    rw [execVaultCommitDone, hc]
  · exact if_pos (by simp [h])
  · exact burnisherLine_acts h flips tp over_ k
  · refine (if_neg (Bool.eq_false_iff.1 hb)).trans (congrArg Host.Outcome.next (if_pos ?_))
    rcases hdr with h | h <;> simp [h]
  · refine (if_neg (Bool.eq_false_iff.1 hb)).trans (congrArg Host.Outcome.next (if_pos ?_))
    omega

end Sys2Proof
end

section
/-! PROOFS. R31, R46, R252, R260, R294, R303, R307, R308: pairing and hand-back. -/

namespace Sys2Proof.Machine

/-! ### The exchange (R303) -/

theorem outKept_sendMirror (s : State) (v : Version) (is : List Ingest) : OutKept s (sendMirror s v is) :=
  outKept_trans (outKept_send s _) (outKept_foldl (fun s _ => outKept_send s _) is _)

theorem outKept_sendQuire (s : State) (n : Nat) : OutKept s (sendQuire s n) := by
  unfold sendQuire
  split
  · exact outKept_refl s
  · exact outKept_send s _

theorem outKept_sendSurface (s : State) (m : Nat) : OutKept s (noteSurface (sendPointer s (Fin.ofNat 16 m)) m) :=
  outKept_trans (outKept_send s _) (of_ite (outKept_send _ _) (outKept_refl _))

/-- What the exchange sends beside the versions: quires, amendments, surfaces, check values, transition requests. -/
def recordsSent (s : State) : State :=
  let s := ((s.qre.quires.filter (fun e => e.2.twin == s.tck.twinId && !e.2.filed)).map (·.1)).foldl sendQuire s
  let s := s.qre.amends.foldl (fun s a => send s (.journal (.amendment a))) s
  let s := ((List.range 16).filter (fun m => runs s (m / 2))).foldl (fun s m => noteSurface (sendPointer s (Fin.ofNat 16 m)) m) s
  let s := ((s.kst.slots.filter (fun e => decide (e.2.st ≠ 0))).map (·.1)).foldl sendKcv s
  s.kst.requests.foldl (fun s b => send s (.mgmt (.transition b 0))) s

theorem outKept_recordsSent (s : State) : OutKept s (recordsSent s) :=
  outKept_trans (outKept_foldl outKept_sendQuire _ s) (outKept_trans (outKept_foldl (fun s _ => outKept_send s _) _ _)
    (outKept_trans (outKept_foldl outKept_sendSurface _ _) (outKept_trans (outKept_foldl (fun s _ => outKept_send s _) _ _)
      (outKept_foldl (fun s _ => outKept_send s _) _ _))))

/-- The own versions of a list go to the mirror. -/
def mirrorSent (l : List Version) (s : State) : State := l.foldl (fun s v => sendMirror s v (ingestsOf s.qre.ingest v)) s

theorem mirrorSent_sends {l : List Version} {s : State} (hl : s.spn.link = 2) {v : Version} (hv : v ∈ l) :
    ∃ p ∈ (mirrorSent l s).out, ∃ n a bs, p.msg = .mirrorData v.seq n a bs := by
  induction l generalizing s with
  | nil => exact absurd hv List.not_mem_nil
  | cons w l ih =>
    rcases List.mem_cons.1 hv with rfl | hv
    · obtain ⟨p, hp, hm⟩ := sendMirror_sends v (ingestsOf s.qre.ingest v) hl
      exact ⟨p, outKept_foldl (fun s v => outKept_sendMirror s v _) l _ p hp, _, _, _, hm⟩
    · refine ih (s := sendMirror s w (ingestsOf s.qre.ingest w)) ?_ hv
      have hspn : (sendMirror s w (ingestsOf s.qre.ingest w)).spn = s.spn :=
        (onlyIn_of_follows (parts := [.out]) (follows_sendMirror (by decide) (follows_refl s))).2 .spn (by decide)
      exact hspn ▸ hl

theorem exchange_eq (s : State) : exchange s = recordsSent (mirrorSent (s.cmd.versions.filter (·.own)) s) := by
  simp only [exchange, recordsSent, mirrorSent]

theorem onlyIn_exchange (s : State) : OnlyIn [.out] s (exchange s) := onlyIn_of_follows (follows_exchange (by decide) (follows_refl s))

theorem exchange_sends {s : State} (hl : s.spn.link = 2) {v : Version} (hv : v ∈ s.cmd.versions) (ho : v.own = true) :
    ∃ p ∈ (exchange s).out, ∃ n a bs, p.msg = .mirrorData v.seq n a bs := by
  obtain ⟨p, hp, hm⟩ := mirrorSent_sends hl (List.mem_filter.2 ⟨hv, ho⟩ : v ∈ s.cmd.versions.filter (·.own))
  rw [exchange_eq]
  exact ⟨p, outKept_recordsSent _ p hp, hm⟩

/-! ### Paired (R252, R260, R303) -/

theorem look_ana_setAna_ne (s : State) {g g' : Nat} (st : Nat) (h : g ≠ g') : look (setAna s g st).hiu.ana g' = look s.hiu.ana g' := by
  unfold setAna
  split
  · rfl
  · rw [asyncEvent_ana, look_ins, if_neg h]

/-- The state that pairing leaves, before the groups and the shadows are told. -/
def madePaired (s : State) : State :=
  { s with
    spn := { s.spn with paired := true, pairing := false, peerLost := false, tookOver := false }
    cmd := { s.cmd with prot := if bothVaultsFailed s then 2 else 0 }
    pwr := { s.pwr with stage := if s.pwr.phase = .starting then max s.pwr.stage 9 else s.pwr.stage } }

/-- The address groups are told. -/
def groupsTold (s : State) : State := setAna (setAna s (s.tck.twinId + 1) 1) (2 - s.tck.twinId) 2

theorem enterPaired_eq (s : State) : enterPaired s = (List.range 8).foldl (withholdShadow 10) (groupsTold (madePaired (tellSealOnly s))) := rfl

theorem onlyIn_groupsTold (s : State) : OnlyIn [.out, .hiu] s (groupsTold s) :=
  onlyIn_of_follows (follows_setAna (by decide) (follows_setAna (by decide) (follows_refl s)))

theorem anaOf_groupsTold (s : State) :
    anaOf (groupsTold s) (s.tck.twinId + 1) = 1 ∧ (s.tck.twinId < 2 → anaOf (groupsTold s) (2 - s.tck.twinId) = 2) := by
  refine ⟨anaOf_of_look ?_, fun _ => anaOf_of_look (look_ana_setAna ..)⟩
  rw [groupsTold, look_ana_setAna_ne _ _ (by omega), look_ana_setAna]

/-- What the shadows' withholding keeps of the Spine. -/
theorem foldl_withholdShadow_keeps (l : List Nat) (cause : Nat) (s : State) : let t := l.foldl (withholdShadow cause) s
    t.spn.paired = s.spn.paired ∧ t.spn.pairing = s.spn.pairing ∧ OnlyIn [.spn] s t := by
  have hflags (u : State) (b : Nat) : ((withholdShadow cause u b).spn.paired, (withholdShadow cause u b).spn.pairing) = (u.spn.paired, u.spn.pairing) := by
    unfold withholdShadow
    split <;> rfl
  have hfold := foldl_keeps (fun u : State => (u.spn.paired, u.spn.pairing)) (f := withholdShadow cause) hflags l s
  exact ⟨(congrArg Prod.fst hfold :), (congrArg Prod.snd hfold :),
    onlyIn_of_follows (follows_foldl (follows_refl s) (fun u b hu => follows_ite (follows_withhold (by decide) hu) hu))⟩

theorem withheld_ne_zero (p : PairBay) : (withheld p 10).withhold ≠ 0 := by
  change (if p.withhold = 0 then 10 else p.withhold) ≠ 0
  split
  · decide
  · assumption

theorem enterPaired_spec (s : State) : let t := enterPaired s
    t.spn.paired = true ∧ t.spn.pairing = false ∧ t.cmd.prot = (if s.mem.vaultKind = 2 ∧ s.spn.peer.any (fun h => !h.vaultOk) = true then 2 else 0) ∧
      anaOf t (s.tck.twinId + 1) = 1 ∧ (s.tck.twinId < 2 → anaOf t (2 - s.tck.twinId) = 2) ∧
      (∀ b, b < 8 → shadows s b = true → (pairAt t b).withhold ≠ 0) ∧ t.tck = s.tck := by
  have htell : OnlyIn [.out, .hiu] s (tellSealOnly s) := onlyIn_of_follows (follows_tellSealOnly (by decide) (follows_refl s))
  have hspn : (tellSealOnly s).spn = s.spn := htell.2 .spn (by decide)
  have htck : (tellSealOnly s).tck = s.tck := htell.2 .tck (by decide)
  have hmem : (tellSealOnly s).mem = s.mem := htell.2 .mem (by decide)
  have hprot : (madePaired (tellSealOnly s)).cmd.prot = if s.mem.vaultKind = 2 ∧ s.spn.peer.any (fun h => !h.vaultOk) = true then 2 else 0 := by
    change (if bothVaultsFailed (tellSealOnly s) then 2 else 0) = _
    rw [bothVaultsFailed, hmem, hspn]
    simp only [Bool.and_eq_true, beq_iff_eq]
  rw [enterPaired_eq]
  generalize tellSealOnly s = u at hspn htck hprot
  have htck' : (madePaired u).tck = s.tck := htck
  have hpaired : (madePaired u).spn.paired = true := rfl
  have hpairing : (madePaired u).spn.pairing = false := rfl
  have hpair (b : Nat) : pairAt (madePaired u) b = pairAt s b :=
    (rfl : _ = pairAt u b).trans (congrArg (fun x : Spn => getD x.bays ({} : PairBay) b) hspn)
  generalize madePaired u = w at hprot htck' hpaired hpairing hpair
  have hgroups := onlyIn_groupsTold w
  have hgspn : (groupsTold w).spn = w.spn := hgroups.2 .spn (by decide)
  have hgcmd : (groupsTold w).cmd = w.cmd := hgroups.2 .cmd (by decide)
  have hgtck : (groupsTold w).tck = w.tck := hgroups.2 .tck (by decide)
  have hana := anaOf_groupsTold w
  rw [htck'] at hana
  generalize groupsTold w = x at hgspn hgcmd hgtck hana
  obtain ⟨hp, hq, honly⟩ := foldl_withholdShadow_keeps (List.range 8) 10 x
  have hwith (b : Nat) := pairAt_withholdShadows 10 (List.nodup_range (n := 8)) x b
  have hxpair (b : Nat) : pairAt x b = pairAt s b := (congrArg (fun x : Spn => getD x.bays ({} : PairBay) b) hgspn).trans (hpair b)
  have hxcmd : _ = x.cmd := honly.2 .cmd (by decide)
  have hxhiu : _ = x.hiu := honly.2 .hiu (by decide)
  have hxtck : _ = x.tck := honly.2 .tck (by decide)
  have hanaOf (g : Nat) : anaOf ((List.range 8).foldl (withholdShadow 10) x) g = anaOf x g := by rw [anaOf, anaOf, hxhiu, hxtck]
  refine ⟨by rw [hp, hgspn, hpaired], by rw [hq, hgspn, hpairing], by rw [hxcmd, hgcmd, hprot], by rw [hanaOf, hana.1],
    fun h => by rw [hanaOf, hana.2 h], fun b hb hs => ?_, by rw [hxtck, hgtck, htck']⟩
  have hsx : shadows x b = true := by rwa [shadows, hxpair]
  rw [hwith, if_pos ⟨List.mem_range.2 hb, hsx⟩]
  exact withheld_ne_zero _

/-- The exchange of a pairing has begun. -/
def exchangeBegun (s : State) : State :=
  { s with spn := { s.spn with pairing := true, awaitBinding := false, exchange := (s.cmd.versions.filter (·.own)).map (·.seq) } }

theorem completePairing_eq (s : State) : completePairing s = endExchange (exchange (exchangeBegun s)) := rfl

theorem ownSeqs_eq_nil {l : List Version} : (l.filter (·.own)).map (·.seq) = [] ↔ ∀ v ∈ l, v.own = false := by
  rw [List.map_eq_nil_iff, List.filter_eq_nil_iff]
  simp only [Bool.not_eq_true]

/-- With own versions the exchange waits for their acknowledgement. -/
theorem completePairing_waits {s : State} (h : ∃ v ∈ s.cmd.versions, v.own = true) : completePairing s = exchange (exchangeBegun s) ∧
    (completePairing s).spn = (exchangeBegun s).spn ∧ (completePairing s).tck = s.tck := by
  have honly := onlyIn_exchange (exchangeBegun s)
  have hspn : (exchange (exchangeBegun s)).spn = (exchangeBegun s).spn := honly.2 .spn (by decide)
  have hwait : completePairing s = exchange (exchangeBegun s) := by
    rw [completePairing_eq]
    refine if_neg ?_
    rw [hspn]
    rintro ⟨-, -, hnone⟩
    obtain ⟨v, hv, ho⟩ := h
    exact absurd (ho.symm.trans (ownSeqs_eq_nil.1 hnone v hv)) (by decide)
  exact ⟨hwait, hwait ▸ hspn, hwait ▸ (honly.2 .tck (by decide))⟩

/-- Without any the twins are Paired at once. -/
theorem completePairing_pairs {s : State} (h : ∀ v ∈ s.cmd.versions, v.own = false) : let t := completePairing s
    t.spn.paired = true ∧ t.spn.pairing = false ∧ t.cmd.prot = (if s.mem.vaultKind = 2 ∧ s.spn.peer.any (fun h => !h.vaultOk) = true then 2 else 0) ∧
      anaOf t (s.tck.twinId + 1) = 1 ∧ (s.tck.twinId < 2 → anaOf t (2 - s.tck.twinId) = 2) ∧
      (∀ b, b < 8 → shadows s b = true → (pairAt t b).withhold ≠ 0) ∧ t.tck = s.tck := by
  have honly := onlyIn_exchange (exchangeBegun s)
  have hspn : (exchange (exchangeBegun s)).spn = (exchangeBegun s).spn := honly.2 .spn (by decide)
  have hmem : (exchange (exchangeBegun s)).mem = s.mem := honly.2 .mem (by decide)
  have htck : (exchange (exchangeBegun s)).tck = s.tck := honly.2 .tck (by decide)
  have henter : completePairing s = enterPaired (exchange (exchangeBegun s)) := by
    rw [completePairing_eq]
    refine if_pos ?_
    rw [hspn]
    exact ⟨rfl, rfl, ownSeqs_eq_nil.2 h⟩
  have hspec := enterPaired_spec (exchange (exchangeBegun s))
  have hshadows (b : Nat) : shadows (exchange (exchangeBegun s)) b = shadows s b := by rw [shadows, pairAt, hspn, shadows, pairAt]; rfl
  rw [hmem, htck, show (exchange (exchangeBegun s)).spn.peer = s.spn.peer by rw [hspn]; rfl] at hspec
  rw [henter]
  simp only [hshadows] at hspec
  exact hspec

end Sys2Proof.Machine
end

section
/-! PROOFS. R31, R46, R303, R307: what a pairing shows, the Binding it awaits, and the hand-back of a bay. -/

namespace Sys2Proof.Machine

/-! ### What the other twin shows -/

theorem outKept_loseMirror (s : State) : OutKept s (loseMirror s) := by
  unfold loseMirror
  split
  · exact outKept_asyncEvent { s with cmd := { s.cmd with prot := 2 } } 7 3 0xC4
  split
  · exact outKept_refl s
  · exact outKept_trans (outKept_asyncEvent { s with cmd := { s.cmd with prot := 1 } } 7 2 0xC4)
      (outKept_foldl (fun u v => outKept_of_follows (follows_logVersion (by decide) (follows_refl u))) _ _)

theorem onlyIn_loseMirror (s : State) : OnlyIn [.out, .hiu, .cmd, .mem] s (loseMirror s) :=
  onlyIn_of_follows (follows_loseMirror (by decide) (follows_refl s))

theorem refusePairing_spec (s : State) (code : Nat) : let t := refusePairing s code
    t.spn.paired = s.spn.paired ∧ t.spn.pairing = false ∧ t.bnd = s.bnd ∧ t.spn.awaitBinding = false ∧ 1 ≤ t.cmd.prot ∧ t.tck = s.tck ∧
      t.bdy.staged.length = s.bdy.staged.length + 1 := by
  obtain ⟨-, hf⟩ := onlyIn_loseMirror (event { s with spn := { s.spn with pairing := false, awaitBinding := false } } code 4 2)
  obtain ⟨-, -, hprot⟩ := loseMirror_spec (event { s with spn := { s.spn with pairing := false, awaitBinding := false } } code 4 2)
  have hspn : (refusePairing s code).spn = { s.spn with pairing := false, awaitBinding := false } := hf .spn (by decide)
  have hbdy : (refusePairing s code).bdy = (event { s with spn := { s.spn with pairing := false, awaitBinding := false } } code 4 2).bdy :=
    hf .bdy (by decide)
  refine ⟨by rw [hspn], by rw [hspn], hf .bnd (by decide), by rw [hspn], hprot, hf .tck (by decide), ?_⟩
  rw [hbdy]
  exact List.length_append

/-- The stitch master that the pairing names. -/
def masterNamed (s : State) (single : Bool) : State := { s with tck := { s.tck with master := namedMaster s single } }

/-- The exchange waits for one Binding. -/
def bindingAwaited (s : State) : State := { s with spn := { s.spn with pairing := true, awaitBinding := true } }

/-- The stitch master sends its container. -/
def bindingSent (s : State) : State := send { s with spn := { s.spn with pairing := true } } (.mgmt (.stageContainer s.bnd.actBytes))

section
variable {s : State} {id : Fin 2} {ser : BitVec 128} {dig : BitVec 384} {single : Bool}

theorem pairing_quiet (h : s.spn.link ≠ 2 ∨ s.spn.paired = true ∨ s.spn.pairing = true ∨ alive s = false ∨ s.mem.replaying = true) :
    exec (.pairing id ser dig single) s = .next s := by
  refine if_pos ?_
  rcases h with h | h | h | h | h <;> simp [h]

theorem exec_pairing (hl : s.spn.link = 2) (hp : s.spn.paired = false) (hq : s.spn.pairing = false) (ha : alive s = true) (hr : s.mem.replaying = false) :
    exec (.pairing id ser dig single) s = if id.val = s.tck.twinId ∨ ser ≠ s.bdy.serial then .next (refusePairing s 0)
      else if (s.bnd.active.map (fun (b : Binding) => b.digest)).getD 0 = dig then .next (completePairing (masterNamed s single))
      else if (masterNamed s single).tck.master then .next (loseMirror (bindingSent (masterNamed s single)))
      else .next (loseMirror (bindingAwaited (masterNamed s single))) :=
  if_neg (by simp [hl, hp, hq, ha, hr])

theorem pairing_unequal (hl : s.spn.link = 2) (hp : s.spn.paired = false) (hq : s.spn.pairing = false) (ha : alive s = true)
    (hr : s.mem.replaying = false) (hid : ¬ (id.val = s.tck.twinId ∨ ser ≠ s.bdy.serial))
    (hd : (s.bnd.active.map (fun b => b.digest)).getD 0 ≠ dig) : ∃ t, exec (.pairing id ser dig single) s = .next t ∧
      t.tck = { s.tck with master := namedMaster s single } ∧ t.spn.paired = false ∧ t.spn.pairing = true ∧
      (t.tck.master = true → ∃ p ∈ t.out, p.msg = .mgmt (.stageContainer s.bnd.actBytes)) ∧ (t.tck.master = false → t.spn.awaitBinding = true) := by
  have hexec := exec_pairing (id := id) (ser := ser) (dig := dig) (single := single) hl hp hq ha hr
  rw [if_neg hid, if_neg hd] at hexec
  have hpaired : (masterNamed s single).spn.paired = false := hp
  have hlink : (masterNamed s single).spn.link = 2 := hl
  have hact : (masterNamed s single).bnd.actBytes = s.bnd.actBytes := rfl
  have htck : (masterNamed s single).tck = { s.tck with master := namedMaster s single } := rfl
  rw [← htck]
  generalize masterNamed s single = w at hexec hpaired hlink hact
  by_cases hm : w.tck.master = true
  · rw [if_pos hm] at hexec
    have hlose := onlyIn_loseMirror (bindingSent w)
    have hsent : OnlyIn [.out] { w with spn := { w.spn with pairing := true } } (bindingSent w) :=
      onlyIn_of_follows (follows_send (by decide) (follows_refl _))
    have hspn : (loseMirror (bindingSent w)).spn = { w.spn with pairing := true } := (hlose.2 .spn (by decide)).trans (hsent.2 .spn (by decide))
    have htck' : (loseMirror (bindingSent w)).tck = w.tck := (hlose.2 .tck (by decide)).trans (hsent.2 .tck (by decide))
    refine ⟨_, hexec, htck', by rw [hspn]; exact hpaired, by rw [hspn], fun _ => ?_, fun hm' => ?_⟩
    · obtain ⟨p, hp, hmsg⟩ := mem_out_send (s := { w with spn := { w.spn with pairing := true } }) (.mgmt (.stageContainer w.bnd.actBytes)) hlink
      exact ⟨p, outKept_loseMirror _ p hp, hact ▸ hmsg⟩
    · rw [htck', hm] at hm'
      exact absurd hm' (by decide)
  · rw [if_neg hm] at hexec
    have hlose := onlyIn_loseMirror (bindingAwaited w)
    have hspn : (loseMirror (bindingAwaited w)).spn = { w.spn with pairing := true, awaitBinding := true } := hlose.2 .spn (by decide)
    have htck' : (loseMirror (bindingAwaited w)).tck = w.tck := hlose.2 .tck (by decide)
    refine ⟨_, hexec, htck', by rw [hspn]; exact hpaired, by rw [hspn], fun hm' => ?_, fun _ => by rw [hspn]⟩
    rw [htck'] at hm'
    exact absurd hm' hm

theorem pairing_acts (hl : s.spn.link = 2) (hp : s.spn.paired = false) (hq : s.spn.pairing = false) (ha : alive s = true) (hr : s.mem.replaying = false) :
    (id.val = s.tck.twinId ∨ ser ≠ s.bdy.serial → ∃ t, exec (.pairing id ser dig single) s = .next t ∧ t.spn.paired = false ∧
      t.spn.pairing = false ∧ 1 ≤ t.cmd.prot ∧ t.tck = s.tck ∧ t.bdy.staged.length = s.bdy.staged.length + 1) ∧
    (id.val ≠ s.tck.twinId → ser = s.bdy.serial → ∃ t, exec (.pairing id ser dig single) s = .next t ∧
      t.tck = { s.tck with master := namedMaster s single } ∧
      ((s.bnd.active.map (fun b => b.digest)).getD 0 = dig → (∃ v ∈ s.cmd.versions, v.own = true) → t.spn.paired = false ∧ t.spn.pairing = true ∧
        t.spn.exchange = (s.cmd.versions.filter (fun v => v.own)).map (fun v => v.seq) ∧
        (∀ v ∈ s.cmd.versions, v.own = true → ∃ p ∈ t.out, ∃ n l bs, p.msg = .mirrorData v.seq n l bs)) ∧
      ((s.bnd.active.map (fun b => b.digest)).getD 0 = dig → (∀ v ∈ s.cmd.versions, v.own = false) → t.spn.paired = true ∧ t.spn.pairing = false ∧
        t.cmd.prot = (if s.mem.vaultKind = 2 ∧ s.spn.peer.any (fun h => !h.vaultOk) = true then 2 else 0) ∧ anaOf t (s.tck.twinId + 1) = 1 ∧
        (s.tck.twinId < 2 → anaOf t (2 - s.tck.twinId) = 2) ∧
        (∀ b, b < 8 → shadows s b = true → (pairAt t b).withhold ≠ 0)) ∧
      ((s.bnd.active.map (fun b => b.digest)).getD 0 ≠ dig → t.spn.paired = false ∧ t.spn.pairing = true ∧
        (t.tck.master = true → ∃ p ∈ t.out, p.msg = .mgmt (.stageContainer s.bnd.actBytes)) ∧
        (t.tck.master = false → t.spn.awaitBinding = true))) := by
  have hexec := exec_pairing (id := id) (ser := ser) (dig := dig) (single := single) hl hp hq ha hr
  refine ⟨fun h => ?_, fun hne hser => ?_⟩
  · obtain ⟨hpaired, hpairing, -, -, hprot, htck, hlen⟩ := refusePairing_spec s 0
    exact ⟨_, hexec.trans (if_pos h), hpaired.trans hp, hpairing, hprot, htck, hlen⟩
  have hid : ¬ (id.val = s.tck.twinId ∨ ser ≠ s.bdy.serial) := fun h => h.elim hne (fun h => h hser)
  by_cases hd : (s.bnd.active.map (fun b => b.digest)).getD 0 = dig
  · rw [if_neg hid, if_pos hd] at hexec
    have htck : (completePairing (masterNamed s single)).tck = (masterNamed s single).tck := by
      by_cases hown : ∃ v ∈ (masterNamed s single).cmd.versions, v.own = true
      · exact (completePairing_waits hown).2.2
      · have hnone : ∀ v ∈ (masterNamed s single).cmd.versions, v.own = false := fun v hv => Bool.eq_false_iff.2 (fun ho => hown ⟨v, hv, ho⟩)
        exact (completePairing_pairs hnone).2.2.2.2.2.2
    refine ⟨_, hexec, htck, fun _ hown => ?_, fun _ hnone => ?_, fun h => absurd hd h⟩
    · obtain ⟨hwait, hspn, -⟩ := completePairing_waits (s := masterNamed s single) hown
      refine ⟨by rw [hspn]; exact hp, by rw [hspn]; rfl, by rw [hspn]; rfl, fun v hv ho => ?_⟩
      rw [hwait]
      exact exchange_sends (s := exchangeBegun (masterNamed s single)) hl hv ho
    · obtain ⟨hpaired, hpairing, hprot, hanaOwn, hanaPeer, hshadow, -⟩ := completePairing_pairs (s := masterNamed s single) hnone
      exact ⟨hpaired, hpairing, hprot, hanaOwn, hanaPeer, hshadow⟩
  · obtain ⟨t, ht, htck, hrest⟩ := pairing_unequal (single := single) hl hp hq ha hr hid hd
    exact ⟨t, ht, htck, fun h => absurd h hd, fun h => absurd h hd, fun _ => hrest⟩

end

/-! ### The Binding that a pairing awaits (R31, R32) -/

/-- The registers show the check. -/
def peerCheckShown (s : State) (bytes : Bytes) : State :=
  setResult (showCheck s (loadChecks s bytes true true) (parse bytes)) (loadChecks s bytes true true).code

theorem peerCheckShown_spec (s : State) (bytes : Bytes) : let u := peerCheckShown s bytes
    u.bnd.lastResult = (loadChecks s bytes true true).code ∧ u.bnd.detCode = (loadChecks s bytes true true).code ∧ u.bnd.active = s.bnd.active ∧
      OnlyIn [.bnd] s u := by
  have honly : OnlyIn [.bnd] s (peerCheckShown s bytes) := onlyIn_of_follows (follows_setResult (by decide) (follows_showCheck (by decide) (follows_refl s)))
  refine ⟨rfl, ?_, ?_, honly⟩ <;> unfold peerCheckShown showCheck setResult <;> dsimp only <;> split <;> rfl

/-- Every bay that the twin runs reads Hold. -/
def allHeld (s : State) : Bool := (List.range 8).all (fun b => !runs s b || (bayAt s b).mode == 5)

theorem allHeld_iff (s : State) : allHeld s = true ↔ ∀ b, b < 8 → runs s b = true → (bayAt s b).mode = 5 := by
  rw [allHeld, List.all_eq_true]
  simp only [List.mem_range, Bool.or_eq_true, Bool.not_eq_true', beq_iff_eq]
  refine forall₂_congr fun b _ => ?_
  cases runs s b <;> simp

/-- A twin that runs writes a record of the Binding it has taken. -/
def takingRecorded (s : State) : State := if s.pwr.phase = .running then writeColophon s 2 else s

theorem takingRecorded_keeps (s : State) : (takingRecorded s).bnd = s.bnd ∧ (takingRecorded s).cmd = s.cmd := by
  unfold takingRecorded
  split <;> exact ⟨rfl, rfl⟩

/-- The master's Binding is in force. -/
def bindingTaken (s : State) (bytes : Bytes) : State := takingRecorded (activate s (parse bytes) bytes 3 0xFF)

theorem exec_pairingBindingCheck (s : State) (bytes : Bytes) : exec (.pairingBindingCheck bytes) s =
    if !s.spn.awaitBinding || s.spn.link != 2 || !allHeld s then .next s
    else if (loadChecks s bytes true true).code = 0 then .next (completePairing (bindingTaken (peerCheckShown s bytes) bytes))
    else .next (refusePairing (peerCheckShown s bytes) (0x200 + (loadChecks s bytes true true).code)) := by
  change execPairingBindingCheck bytes s = _
  rw [bindingTaken, takingRecorded, peerCheckShown, allHeld, execPairingBindingCheck]

theorem bindingTaken_spec (s : State) (bytes : Bytes) : let u := bindingTaken s bytes
    u.bnd.lastResult = s.bnd.lastResult ∧ u.bnd.detCode = s.bnd.detCode ∧ u.bnd.active = some (parse bytes) ∧ u.bnd.source = 3 ∧ u.cmd = s.cmd := by
  obtain ⟨hbnd, -⟩ := activate_spec s (parse bytes) bytes 3 0xFF
  have honly : OnlyIn [.cnt, .bays, .ports, .spn, .cells, .units, .axes, .cal, .kst, .bdy, .bnd] s (activate s (parse bytes) bytes 3 0xFF) :=
    onlyIn_of_follows (follows_activate (by decide) (follows_refl s))
  have hcmd : (activate s (parse bytes) bytes 3 0xFF).cmd = s.cmd := honly.2 .cmd (by decide)
  obtain ⟨hb, hc⟩ := takingRecorded_keeps (activate s (parse bytes) bytes 3 0xFF)
  rw [← bindingTaken] at hb hc
  exact ⟨by rw [hb, hbnd], by rw [hb, hbnd], by rw [hb, hbnd], by rw [hb, hbnd], hc.trans hcmd⟩

theorem enterPaired_awaitBinding (s : State) : (enterPaired s).spn.awaitBinding = s.spn.awaitBinding := by
  have htell : (tellSealOnly s).spn = s.spn :=
    (onlyIn_of_follows (parts := [.out, .hiu]) (follows_tellSealOnly (by decide) (follows_refl s))).2 .spn (by decide)
  have hgroups : (groupsTold (madePaired (tellSealOnly s))).spn = (madePaired (tellSealOnly s)).spn := (onlyIn_groupsTold _).2 .spn (by decide)
  have hmade (u : State) : (madePaired u).spn.awaitBinding = u.spn.awaitBinding := rfl
  have hwith (u : State) (b : Nat) : (withholdShadow 10 u b).spn.awaitBinding = u.spn.awaitBinding := by
    unfold withholdShadow
    split <;> rfl
  rw [enterPaired_eq, foldl_keeps (fun u : State => u.spn.awaitBinding) (f := withholdShadow 10) hwith, hgroups, hmade, htell]

theorem completePairing_awaitBinding (s : State) : (completePairing s).spn.awaitBinding = false := by
  have hspn : (exchange (exchangeBegun s)).spn = (exchangeBegun s).spn := (onlyIn_exchange (exchangeBegun s)).2 .spn (by decide)
  have hoff : (exchange (exchangeBegun s)).spn.awaitBinding = false := by rw [hspn]; rfl
  rw [completePairing_eq, endExchange]
  split
  · rw [enterPaired_awaitBinding, hoff]
  · exact hoff

theorem completePairing_bnd (s : State) : (completePairing s).bnd = s.bnd := by
  have honly : OnlyIn [.pwr, .spn, .out, .hiu, .cmd] s (completePairing s) := onlyIn_of_follows (follows_completePairing (by decide) (follows_refl s))
  exact honly.2 .bnd (by decide)

theorem pairingBindingCheck_acts (s : State) (bytes : Bytes) : let held := ∀ b, b < 8 → runs s b = true → (bayAt s b).mode = 5
    (s.spn.awaitBinding = false ∨ s.spn.link ≠ 2 ∨ ¬ held → exec (.pairingBindingCheck bytes) s = .next s) ∧
    (s.spn.awaitBinding = true → s.spn.link = 2 → held → ∃ t, exec (.pairingBindingCheck bytes) s = .next t ∧ t.spn.awaitBinding = false ∧
      t.bnd.lastResult = (loadChecks s bytes true true).code ∧ t.bnd.detCode = (loadChecks s bytes true true).code ∧
      ((loadChecks s bytes true true).code = 0 → t.bnd.active = some (parse bytes) ∧ t.bnd.source = 3 ∧
        ((∀ v ∈ s.cmd.versions, v.own = false) → t.spn.paired = true) ∧ ((∃ v ∈ s.cmd.versions, v.own = true) → t.spn.pairing = true)) ∧
      ((loadChecks s bytes true true).code ≠ 0 → t.spn.paired = s.spn.paired ∧ t.spn.pairing = false ∧ t.bnd.active = s.bnd.active ∧ 1 ≤ t.cmd.prot)) := by
  intro held
  have hexec := exec_pairingBindingCheck s bytes
  have hheld : allHeld s = true ↔ held := allHeld_iff s
  refine ⟨fun h => hexec.trans (if_pos ?_), fun ha hl hh => ?_⟩
  · rcases h with h | h | h
    · simp [h]
    · simp [h]
    · have hnot : allHeld s = false := Bool.eq_false_iff.2 (fun hall => h (hheld.1 hall))
      simp [hnot]
  rw [if_neg (by simp [ha, hl, hheld.2 hh])] at hexec
  obtain ⟨hres, hdet, hact, -, hf⟩ := peerCheckShown_spec s bytes
  have hspn : (peerCheckShown s bytes).spn = s.spn := hf .spn (by decide)
  have hcmd : (peerCheckShown s bytes).cmd = s.cmd := hf .cmd (by decide)
  generalize peerCheckShown s bytes = u at hexec hres hdet hact hspn hcmd
  by_cases hc : (loadChecks s bytes true true).code = 0
  · rw [if_pos hc] at hexec
    obtain ⟨bres, bdet, bact, bsrc, bcmd⟩ := bindingTaken_spec u bytes
    have hver : (bindingTaken u bytes).cmd.versions = s.cmd.versions := by rw [bcmd, hcmd]
    generalize bindingTaken u bytes = w at hexec bres bdet bact bsrc hver
    have hbnd := completePairing_bnd w
    refine ⟨_, hexec, completePairing_awaitBinding w, by rw [hbnd, bres, hres], by rw [hbnd, bdet, hdet], fun _ => ⟨by rw [hbnd, bact], by rw [hbnd, bsrc],
      fun hnone => ?_, fun hown => ?_⟩, fun h => absurd hc h⟩
    · exact (completePairing_pairs (hver ▸ hnone)).1
    · rw [(completePairing_waits (hver ▸ hown)).2.1]
      rfl
  · rw [if_neg hc] at hexec
    obtain ⟨hpaired, hpairing, hbnd, hawait, hprot, -⟩ := refusePairing_spec u (0x200 + (loadChecks s bytes true true).code)
    exact ⟨_, hexec, hawait, by rw [hbnd, hres], by rw [hbnd, hdet], fun h => absurd h hc,
      fun _ => ⟨by rw [hpaired, hspn], hpairing, by rw [hbnd, hact], hprot⟩⟩

/-! ### Hand-back (R307) -/

/-- A bay that the twin runs beyond its ownership is asked back. -/
def returnAsked (s : State) (b : Nat) : State :=
  if runs s b && (ownRec s b).owner != s.tck.twinId then setPair s b { pairAt s b with returnReq := true, returnAt := now s } else s

theorem pairAt_returnAsked (s : State) (b j : Nat) : pairAt (returnAsked s b) j =
    if b = j ∧ runs s b = true ∧ (ownRec s b).owner ≠ s.tck.twinId then { pairAt s b with returnReq := true, returnAt := now s } else pairAt s j := by
  unfold returnAsked
  by_cases h : (runs s b && (ownRec s b).owner != s.tck.twinId) = true
  · rw [if_pos h, pairAt_setPair]
    rw [Bool.and_eq_true, bne_iff_ne] at h
    simp [h]
  · rw [if_neg h, if_neg (fun hj => h (by rw [Bool.and_eq_true, bne_iff_ne]; exact hj.2))]

theorem pairAt_returnsAsked {l : List Nat} (hl : l.Nodup) (s : State) (j : Nat) : pairAt (l.foldl returnAsked s) j =
    if j ∈ l ∧ runs s j = true ∧ (ownRec s j).owner ≠ s.tck.twinId then { pairAt s j with returnReq := true, returnAt := now s } else pairAt s j := by
  induction l generalizing s with
  | nil => simp
  | cons b l ih =>
    obtain ⟨hb, hl⟩ := List.nodup_cons.1 hl
    have hfix : OnlyIn [.spn] s (returnAsked s b) := onlyIn_of_follows (follows_ite (follows_setPair (by decide) (follows_refl s)) (follows_refl s))
    have hbnd : (returnAsked s b).bnd = s.bnd := hfix.2 .bnd (by decide)
    have htck : (returnAsked s b).tck = s.tck := hfix.2 .tck (by decide)
    have hown (k : Nat) : ownRec (returnAsked s b) k = ownRec s k := by rw [ownRec, hbnd, ownRec]
    have hnow : now (returnAsked s b) = now s := congrArg Tck.count htck
    rw [List.foldl_cons, ih hl, hown, htck, hnow]
    by_cases hj : b = j
    · subst hj
      rw [if_neg (fun h => hb h.1), pairAt_returnAsked]
      simp
    · have hsame : pairAt (returnAsked s b) j = pairAt s j := by
        rw [pairAt_returnAsked, if_neg (fun h => hj h.1)]
      simp only [runs, hsame, List.mem_cons, Ne.symm hj, false_or]

theorem handBackRequest_acts (s : State) (mask : Byte) : (barSealed s = true → exec (.handBackRequest mask) s = .next s) ∧
    (barSealed s = false → ∃ t, exec (.handBackRequest mask) s = .next t ∧ OnlyIn [.spn] s t ∧ ∀ b, b < 8 →
      pairAt t b = (if mask.getLsbD b ∧ runs s b = true ∧ (ownRec s b).owner ≠ s.tck.twinId
        then { pairAt s b with returnReq := true, returnAt := now s } else pairAt s b)) := by
  refine ⟨fun hb => if_pos hb, fun hb => ⟨(baysIn mask).foldl returnAsked s, if_neg (Bool.eq_false_iff.1 hb), ?_, fun b hlt => ?_⟩⟩
  · exact onlyIn_of_follows (follows_foldl (follows_refl s) (fun u b hu => follows_ite (follows_setPair (by decide) hu) hu))
  · rw [pairAt_returnsAsked (l := baysIn mask) ((List.nodup_range (n := 8)).filter _)]
    simp only [baysIn, List.mem_filter, List.mem_range, hlt, true_and]

section
variable {s : State} {b : Fin 8}

/-- The pair state of a bay from which the hand-back has started. -/
def handedBack (s : State) (b : Nat) : PairBay :=
  let p := pairAt s b
  let at_ := if p.returning || p.returnReq then p.returnAt else now s
  { p with returning := true, returnAt := at_, handover := if (bayAt s b).grants.isEmpty then max (at_ + 256) (now s + 8) else 0 }

theorem handBackStart_quiet (h : mayReturn s b = false ∨ (pairAt s b).handover ≠ 0) : exec (.handBackStart b) s = .next s := by
  refine if_pos ?_
  rcases h with h | h <;> simp [h]

theorem exec_handBackStart (hm : mayReturn s b = true) (h0 : (pairAt s b).handover = 0) :
    exec (.handBackStart b) s = .next (setPair s b (handedBack s b)) := if_neg (by simp [hm, h0])

theorem grantable_of_returning {t : State} {opu : Nat} (h : (pairAt t (opu / 2)).returning = true) (act : Nat) : grantable t opu act = false := by
  rw [grantable]
  simp [h]

theorem handBackStart_acts (hm : mayReturn s b = true) (h0 : (pairAt s b).handover = 0) : ∃ t, exec (.handBackStart b) s = .next t ∧
    (pairAt t b).returning = true ∧ (∀ act, grantable t (2 * b) act = false ∧ grantable t (2 * b + 1) act = false) ∧
    ((bayAt s b).grants ≠ [] → (pairAt t b).handover = 0) ∧
    ((bayAt s b).grants = [] → now s + 8 ≤ (pairAt t b).handover ∧ (pairAt t b).returnAt + 256 ≤ (pairAt t b).handover ∧
      ((pairAt t b).handover = now s + 8 ∨ (pairAt t b).handover = (pairAt t b).returnAt + 256)) ∧
    (∀ n, n ≠ b.val → pairAt t n = pairAt s n) ∧ OnlyIn [.spn] s t := by
  have hpair : pairAt (setPair s b (handedBack s b)) b = handedBack s b := by rw [pairAt_setPair, if_pos rfl]
  have hret : (pairAt (setPair s b (handedBack s b)) b).returning = true := by rw [hpair]; rfl
  refine ⟨_, exec_handBackStart hm h0, hret, fun act => ⟨grantable_of_returning ?_ act, grantable_of_returning ?_ act⟩, fun hg => ?_, fun hg => ?_,
    fun n hn => ?_, onlyIn_of_follows (follows_setPair (by decide) (follows_refl s))⟩
  · rwa [Nat.mul_div_cancel_left _ (by decide)]
  · rwa [show (2 * b.val + 1) / 2 = b.val by omega]
  · rw [hpair]
    exact if_neg (by simpa using hg)
  · have hhand : (handedBack s b).handover = max ((handedBack s b).returnAt + 256) (now s + 8) := if_pos (by simp [hg])
    rw [hpair, hhand]
    omega
  · rw [pairAt_setPair, if_neg (Ne.symm hn)]

theorem mayReturn_conditions (h : mayReturn s b = true) : runs s b = true ∧ (ownRec s b).owner ≠ s.tck.twinId ∧ s.spn.paired = true ∧ s.spn.link = 2 ∧
    (pairAt s b).peerReady = true ∧ handing s b = false := by
  simp only [mayReturn, Bool.and_eq_true, bne_iff_ne, beq_iff_eq, Bool.not_eq_true'] at h
  obtain ⟨⟨⟨⟨⟨⟨hr, ho⟩, hp⟩, hl⟩, hready⟩, -⟩, hh⟩ := h
  exact ⟨hr, ho, hp, hl, hready, hh⟩

theorem handoverStitch_quiet (h : (pairAt s b).handover = 0 ∨ now s < (pairAt s b).handover ∨ (portAt s b).landed = none) :
    exec (.handoverStitch b) s = .next s := by
  refine if_pos ?_
  rcases h with h | h | h <;> simp [h]

theorem handoverStitch_acts (h0 : (pairAt s b).handover ≠ 0) (hle : (pairAt s b).handover ≤ now s) (hl : (portAt s b).landed ≠ none) :
    ∃ t, exec (.handoverStitch b) s = .next t ∧ (pairAt t b).handover = 0 ∧ counter t 4 4 = counter s 4 4 + 1 ∧
      (runs s b = true → (pairAt t b).returning = false) ∧ (runs s b = false → pairAt t b = { pairAt s b with handover := 0 }) ∧
      (∀ n, n ≠ b.val → pairAt t n = pairAt s n) := by
  have hport : (portAt s b).landed.isNone = false := Bool.eq_false_iff.2 (fun h => hl (Option.isNone_iff_eq_none.1 h))
  have hexec : exec (.handoverStitch b) s = if runs (bump s 4 4) b then
      .next (event (setPair (bump s 4 4) b { pairAt s b with handover := 0, returning := false, returnAt := now s }) 0x104 4 1 b)
    else .next (setPair (bump s 4 4) b { pairAt s b with handover := 0 }) := if_neg (by simp [h0, Nat.not_lt.2 hle, hport])
  have hruns : runs (bump s 4 4) b = runs s b := rfl
  have hcount : counter (bump s 4 4) 4 4 = counter s 4 4 + 1 := by rw [counter_bump, if_pos rfl]
  have hpair (p : PairBay) (n : Nat) : pairAt (setPair (bump s 4 4) b p) n = if b.val = n then p else pairAt s n := pairAt_setPair ..
  rw [hruns] at hexec
  have hev (u : State) (n : Nat) : pairAt (event u 0x104 4 1 b) n = pairAt u n := rfl
  by_cases hr : runs s b = true
  · refine ⟨_, hexec.trans (if_pos hr), ?_, hcount, fun _ => ?_, fun h => absurd (hr.symm.trans h) (by decide), fun n hn => ?_⟩
    · rw [hev, hpair, if_pos rfl]
    · rw [hev, hpair, if_pos rfl]
    · rw [hev, hpair, if_neg (Ne.symm hn)]
  · refine ⟨_, hexec.trans (if_neg hr), ?_, hcount, fun h => absurd h hr, fun _ => ?_, fun n hn => ?_⟩
    · rw [hpair, if_pos rfl]
    · rw [hpair, if_pos rfl]
    · rw [hpair, if_neg (Ne.symm hn)]

end

end Sys2Proof.Machine

namespace Sys2Proof
open Machine

/-- Settles O55: with no own version to await the exchange ends at once, and the twins are Paired; a bay in hand-back grants nothing more. -/
theorem twinsPairAndHandBack : Obligations.TwinsPairAndHandBack :=
  ⟨fun _ _ _ _ _ => ⟨pairing_quiet, pairing_acts⟩, pairingBindingCheck_acts, handBackRequest_acts,
    fun _ _ => ⟨handBackStart_quiet, handBackStart_acts, mayReturn_conditions, handoverStitch_quiet, handoverStitch_acts⟩⟩

end Sys2Proof
end

section
/-! PROOFS. R49, R140, R294, R302: a shadow is resynchronised. -/

namespace Sys2Proof.Machine

/-! ### Resynchronisation asked for -/

/-- The pair state of a bay for which the runner has named a capture stitch. -/
def captureNamed (s : State) (b : Nat) : PairBay := { pairAt s b with resync := 1, k := now s + 4, kKnown := true, askedAt := now s + 4 }

theorem nameCapture_eq (s : State) (b : Nat) : nameCapture s b = setPair s b (captureNamed s b) := rfl

/-- One bay of a request: the runner names a capture stitch, the shadow is withheld. -/
def resyncAsked (s : State) (b : Nat) : State :=
  if runs s b && (pairAt s b).resync == 0 then nameCapture s b else if shadows s b then withhold s b 10 else s

/-- What a request makes of the pair state of a bay. -/
def askedPair (s : State) (b : Nat) : PairBay :=
  if runs s b && (pairAt s b).resync == 0 then captureNamed s b else if shadows s b then withheld (pairAt s b) 10 else pairAt s b

theorem pairAt_resyncAsked (s : State) (b j : Nat) : pairAt (resyncAsked s b) j = if b = j then askedPair s b else pairAt s j := by
  unfold resyncAsked askedPair
  split
  · rw [nameCapture_eq, pairAt_setPair]
  split
  · exact pairAt_withhold ..
  · split
    case isTrue h => rw [h]
    case isFalse => rfl

theorem onlyIn_resyncAsked (s : State) (b : Nat) : OnlyIn [.spn] s (resyncAsked s b) :=
  onlyIn_of_follows (follows_ite (follows_nameCapture (by decide) (follows_refl s))
    (follows_ite (follows_withhold (by decide) (follows_refl s)) (follows_refl s)))

theorem pairAt_foldl_resyncAsked {l : List Nat} (hl : l.Nodup) (s : State) (j : Nat) :
    pairAt (l.foldl resyncAsked s) j = if j ∈ l then askedPair s j else pairAt s j := by
  induction l generalizing s with
  | nil => rfl
  | cons b l ih =>
    obtain ⟨hb, hl⟩ := List.nodup_cons.1 hl
    have htck : (resyncAsked s b).tck = s.tck := (onlyIn_resyncAsked s b).2 .tck (by decide)
    have hnow : now (resyncAsked s b) = now s := congrArg Tck.count htck
    rw [List.foldl_cons, ih hl]
    by_cases hj : b = j
    · subst hj
      rw [if_neg hb, if_pos List.mem_cons_self, pairAt_resyncAsked, if_pos rfl]
    · have hsame : pairAt (resyncAsked s b) j = pairAt s j := by rw [pairAt_resyncAsked, if_neg hj]
      have hasked : askedPair (resyncAsked s b) j = askedPair s j := by
        unfold askedPair captureNamed runs shadows
        rw [hsame, hnow]
      simp only [hasked, hsame, List.mem_cons, Ne.symm hj, false_or]

theorem resync_acts (s : State) (mask : Byte) : (barSealed s = true → exec (.resync mask) s = .next s) ∧
    (barSealed s = false → ∃ t, exec (.resync mask) s = .next t ∧ OnlyIn [.spn] s t ∧ ∀ b, b < 8 → let p := pairAt s b
      (mask.getLsbD b = false → pairAt t b = p) ∧
      (mask.getLsbD b = true → runs s b = true → p.resync = 0 →
        pairAt t b = { p with resync := 1, k := now s + 4, kKnown := true, askedAt := now s + 4 }) ∧
      (mask.getLsbD b = true → runs s b = true → p.resync ≠ 0 → pairAt t b = p) ∧
      (mask.getLsbD b = true → shadows s b = true → (pairAt t b).withhold = (if p.withhold = 0 then 10 else p.withhold) ∧ (pairAt t b).hits = 0 ∧
        (2 ≤ p.resync → (pairAt t b).resync = 0) ∧
        (p.resync < 2 → pairAt t b = { p with withhold := if p.withhold = 0 then 10 else p.withhold, hits := 0 }))) := by
  refine ⟨fun h => if_pos h, fun h => ⟨(baysIn mask).foldl resyncAsked s, if_neg (Bool.eq_false_iff.1 h), ?_, fun b hb => ?_⟩⟩
  · exact onlyIn_of_follows (follows_foldl (follows_refl s) (fun u b hu => follows_ite (follows_nameCapture (by decide) hu)
      (follows_ite (follows_withhold (by decide) hu) hu)))
  intro p
  have hmem : b ∈ baysIn mask ↔ mask.getLsbD b = true := by simp [baysIn, hb]
  have hpair := pairAt_foldl_resyncAsked (l := baysIn mask) ((List.nodup_range (n := 8)).filter _) s b
  have hrole (hr : runs s b = true) : shadows s b = false := by
    rw [runs, beq_iff_eq] at hr
    rw [shadows, hr]
    rfl
  have hrole' (hs : shadows s b = true) : runs s b = false := Bool.eq_false_iff.2 (fun hr => by rw [hrole hr] at hs; exact absurd hs (by decide))
  refine ⟨fun hm => ?_, fun hm hr h0 => ?_, fun hm hr h0 => ?_, fun hm hs => ?_⟩
  · rw [hpair, if_neg (by rw [hmem, hm]; decide)]
  · rw [hpair, if_pos (hmem.2 hm), askedPair, if_pos (by rw [hr, h0]; rfl)]
    rfl
  · rw [hpair, if_pos (hmem.2 hm), askedPair, if_neg (by simpa [hr] using h0), if_neg (by rw [hrole hr]; decide)]
  · rw [hpair, if_pos (hmem.2 hm), askedPair, if_neg (by simp [hrole' hs]), if_pos hs]
    exact withheld_spec p 10

/-! ### Capture, and its time-out -/

section
variable {s : State} {b : Fin 8}

theorem resyncCapture_quiet (h : runs s b = false ∨ (pairAt s b).resync ≠ 1 ∨ now s ≠ (pairAt s b).k + 1) : exec (.resyncCapture b) s = .next s := by
  refine if_pos ?_
  rcases h with h | h | h <;> simp [h]

/-- The runner's part ends. -/
def captureEnded (s : State) (b : Nat) : State := setPair s b { pairAt s b with resync := 0 }

theorem resyncCapture_acts (hr : runs s b = true) (h1 : (pairAt s b).resync = 1) (hk : now s = (pairAt s b).k + 1) :
    ∃ t, exec (.resyncCapture b) s = .next t ∧ pairAt t b = { pairAt s b with resync := 0 } ∧
      (s.spn.link = 2 → t.out = s.out ++ [{ cls := 0, msg := .state b (captureBay s b) }]) ∧ counter t 4 5 = counter s 4 5 + 1 ∧
      OnlyIn [.spn, .out, .cnt] s t := by
  have hexec : exec (.resyncCapture b) s = .next (bump (send (captureEnded s b) (.state b (captureBay s b))) 4 5) :=
    if_neg (by simp [hr, h1, hk])
  have hsent : OnlyIn [.out] (captureEnded s b) (send (captureEnded s b) (.state b (captureBay s b))) :=
    onlyIn_of_follows (follows_send (by decide) (follows_refl _))
  have hspn : (send (captureEnded s b) (.state b (captureBay s b))).spn = (captureEnded s b).spn := hsent.2 .spn (by decide)
  have hcnt : (send (captureEnded s b) (.state b (captureBay s b))).cnt = s.cnt := hsent.2 .cnt (by decide)
  refine ⟨_, hexec, ?_, fun hl => (send_out _ _).trans (congrArg (s.out ++ ·) (if_pos hl)), ?_, ?_⟩
  · have hpair : pairAt (captureEnded s b) b = { pairAt s b with resync := 0 } := by rw [captureEnded, pairAt_setPair, if_pos rfl]
    rw [← hpair]
    exact congrArg (fun x : Spn => getD x.bays ({} : PairBay) b) hspn
  · rw [counter_bump, if_pos rfl, counter, hcnt, counter]
  · exact onlyIn_of_follows (follows_bump (by decide) (follows_send (by decide) (follows_setPair (by decide) (follows_refl s))))

theorem resyncTimeout_quiet (h : runs s b = false ∨ (pairAt s b).askedAt = 0 ∨ (pairAt s b).peerReady = true ∨ now s < (pairAt s b).askedAt + 64) :
    exec (.resyncTimeout b) s = .next s := by
  refine if_pos ?_
  rcases h with h | h | h | h <;> simp [h]

theorem resyncTimeout_acts (hr : runs s b = true) (h0 : (pairAt s b).askedAt ≠ 0) (hready : (pairAt s b).peerReady = false)
    (ht : (pairAt s b).askedAt + 64 ≤ now s) : ∃ t, exec (.resyncTimeout b) s = .next t ∧
      pairAt t b = { pairAt s b with resync := 1, k := now s + 4, kKnown := true, askedAt := now s + 4 } ∧ counter t 4 6 = counter s 4 6 + 1 ∧
      OnlyIn [.spn, .cnt] s t := by
  refine ⟨bump (nameCapture s b) 4 6, if_neg (by simp [hr, h0, hready, Nat.not_lt.2 ht]), ?_, ?_, ?_⟩
  · change pairAt (setPair s b (captureNamed s b)) b = captureNamed s b
    rw [pairAt_setPair, if_pos rfl]
  · rw [counter_bump, if_pos rfl]
    rfl
  · exact onlyIn_of_follows (follows_bump (by decide) (follows_nameCapture (by decide) (follows_refl s)))

end

/-! ### The State packet at the shadow (R302 step 3) -/

/-- The states of the packet stand, and the commands of the ring with them. -/
def stateLoaded (s : State) (b : Nat) (i : StateImage) : State := (pairAt s b).cmdRing.foldl queueShadow (loadBay s b i)

theorem onlyIn_stateLoaded (s : State) (b : Nat) (i : StateImage) : OnlyIn [.cells, .units, .axes] s (stateLoaded s b i) :=
  onlyIn_of_follows (follows_foldl (follows_loadBay (by decide) (follows_refl s)) (fun u c hu => follows_queueShadow (by decide) hu))

theorem replayBay_keeps (s : State) (b : Nat) : now (replayBay s b) = now s ∧ portAt (replayBay s b) b = portAt s b := by
  refine ⟨rfl, ?_⟩
  unfold replayBay
  dsimp only
  rw [portAt_setPort, if_pos rfl]

/-- With an empty ring nothing is recomputed. -/
theorem replayBay_of_noRing {s : State} {b : Nat} (h : (pairAt s b).ring = []) : OnlyIn [.tck, .ports] s (replayBay s b) := by
  have hnone : (pairAt s b).ring.filter (fun e => decide ((pairAt s b).k < e.1)) = [] := by rw [h]; rfl
  unfold replayBay
  dsimp only
  rw [hnone]
  exact onlyIn_of_follows (follows_setPort (by decide) (upd_tck (by decide) (follows_setPort (by decide) (follows_refl s))))

/-- The shadow goes on live. -/
def resyncedLive (s : State) (b : Nat) : State :=
  setPair s b { pairAt s b with resync := 3, k := now s, kKnown := false, ring := [], cmdRing := [], hits := 0, missed := false }

/-- A queue as a packet brings it, in this twin's count. -/
def ownQueue (s : State) (q : List QCmd) : List QCmd := q.map (fun q => { q with effect := ownStitch s q.effect })

theorem loadBay_unit (s : State) (b : Nat) (i : StateImage) : unitAt (loadBay s b i) b = { i.unit with queue := ownQueue s i.unit.queue } := by
  unfold loadBay
  dsimp only
  rw [foldl_keeps (fun u : State => unitAt u b) (fun u e => by split <;> rfl), unitAt_setUnit, if_pos rfl]
  rfl

theorem loadBay_axis (s : State) (b : Nat) {i : StateImage} {n : Nat} {x : Axis} (hi : i.axes = [(n, x)]) (hn : n ∈ bayAxes b) :
    axisAt (loadBay s b i) n = { x with queue := ownQueue s x.queue } := by
  unfold loadBay
  dsimp only
  rw [hi, List.foldl_cons, List.foldl_nil, if_pos (List.contains_iff_mem.2 hn), axisAt_setAxis, if_pos rfl]
  rfl

section
variable {s : State} {b : Fin 8} {i : StateImage}

theorem statePacketReceive_quiet (h : shadows s b = false ∨ (pairAt s b).resync ≠ 2 ∨ (pairAt s b).kKnown = false) :
    exec (.statePacketReceive b i) s = .next s := by
  refine if_pos ?_
  rcases h with h | h | h <;> simp [h]

theorem statePacketReceive_acts (hs : shadows s b = true) (h2 : (pairAt s b).resync = 2) (hk : (pairAt s b).kKnown = true) :
    ∃ t, exec (.statePacketReceive b i) s = .next t ∧
      (pairAt t b).resync = 3 ∧ (pairAt t b).ring = [] ∧ (pairAt t b).cmdRing = [] ∧ (pairAt t b).hits = 0 ∧ now t = now s ∧
      portAt t b = portAt s b ∧
      ((pairAt s b).ring = [] → (pairAt s b).cmdRing = [] → unitAt t b = { i.unit with queue := ownQueue s i.unit.queue } ∧
        (∀ n x, i.axes = [(n, x)] → n ∈ bayAxes b → axisAt t n = { x with queue := ownQueue s x.queue })) := by
  have hexec : exec (.statePacketReceive b i) s = .next (resyncedLive (replayBay (stateLoaded s b i) b) b) := if_neg (by simp [hs, h2, hk])
  obtain ⟨-, hf⟩ := onlyIn_stateLoaded s b i
  have htck : (stateLoaded s b i).tck = s.tck := hf .tck (by decide)
  have hports : (stateLoaded s b i).ports = s.ports := hf .ports (by decide)
  have hspn : (stateLoaded s b i).spn = s.spn := hf .spn (by decide)
  have hload (h : (pairAt s b).cmdRing = []) : stateLoaded s b i = loadBay s b i := by rw [stateLoaded, h]; rfl
  generalize stateLoaded s b i = u at hexec htck hports hspn hload
  obtain ⟨hnow, hport⟩ := replayBay_keeps u b
  have hring (h : (pairAt s b).ring = []) : OnlyIn [.tck, .ports] u (replayBay u b) := replayBay_of_noRing (by rw [pairAt, hspn]; exact h)
  generalize replayBay u b = w at hexec hnow hport hring
  have hpair (x : PairBay) : pairAt (setPair w b x) b = x := by rw [pairAt_setPair, if_pos rfl]
  have hlive : pairAt (resyncedLive w b) b = _ := hpair _
  refine ⟨_, hexec, by rw [hlive], by rw [hlive], by rw [hlive], by rw [hlive], ?_, ?_, fun hr hc => ⟨?_, fun n x hi hn => ?_⟩⟩
  · exact hnow.trans (congrArg Tck.count htck)
  · exact hport.trans (congrArg (fun x => getD x ({} : Port) b) hports)
  · have hunits : w.units = u.units := (hring hr).2 .units (by decide)
    exact (congrArg (fun x => getD x ({} : Unit) b) hunits).trans (hload hc ▸ loadBay_unit s b i)
  · have haxes : w.axes = u.axes := (hring hr).2 .axes (by decide)
    exact (congrArg (fun x => getD x ({} : Axis) n) haxes).trans (hload hc ▸ loadBay_axis s b hi hn)

end

/-! ### Overrun packets (R49) -/

theorem overrunPacketReceive_acts {s : State} {b : Fin 8} {k : Dword} (hs : shadows s b = true) : ∃ t, exec (.overrunPacketReceive b k) s = .next t ∧
    (bayAt t b).overrun = true ∧ (pairAt t b).withhold = (if (pairAt s b).withhold = 0 then 4 else (pairAt s b).withhold) ∧ (pairAt t b).hits = 0 ∧
    (∀ n, n ≠ b.val → bayAt t n = bayAt s n ∧ pairAt t n = pairAt s n) ∧ OnlyIn [.bays, .spn] s t := by
  have hbay (n : Nat) : bayAt (withhold (setBay s b { bayAt s b with overrun := true }) b 4) n = bayAt (setBay s b { bayAt s b with overrun := true }) n :=
    rfl
  have hpair (n : Nat) := pairAt_withhold (setBay s b { bayAt s b with overrun := true }) b 4 n
  refine ⟨_, if_pos hs, ?_, ?_, ?_, fun n hn => ⟨?_, ?_⟩, onlyIn_of_follows (follows_withhold (by decide) (follows_setBay (by decide) (follows_refl s)))⟩
  · obtain ⟨l, hl⟩ := stampBay_cases s.tck.count (bayAt s b) { bayAt s b with overrun := true }
    rw [hbay, bayAt_setBay, if_pos rfl, hl]
  · rw [hpair, if_pos rfl]
    rfl
  · rw [hpair, if_pos rfl]
    rfl
  · rw [hbay, bayAt_setBay, if_neg (Ne.symm hn)]
  · rw [hpair, if_neg (Ne.symm hn)]
    rfl

end Sys2Proof.Machine

namespace Sys2Proof
open Machine

/-- Settles O56: each step turns on the pair state of the bay alone; with an empty ring the packet's states stand as they came. -/
theorem shadowsResynchronise : Obligations.ShadowsResynchronise :=
  ⟨resync_acts, fun _ _ => ⟨resyncCapture_quiet, resyncCapture_acts, resyncTimeout_quiet, resyncTimeout_acts⟩,
    fun _ _ _ => ⟨statePacketReceive_quiet, statePacketReceive_acts⟩,
    fun _ _ _ => ⟨fun h => if_neg (Bool.eq_false_iff.1 h), overrunPacketReceive_acts⟩⟩

end Sys2Proof
end

section
/-! PROOFS. R219, R221, R246, R264, R274, R297, R303: mirror, journal and forwarded-command packets. -/

namespace Sys2Proof.Machine

/-! ### Mirror data (R274, R297) -/

/-- What a send adds to the packets. -/
theorem msgs_send {s : State} (h : s.spn.link = 2) (m : SpineMsg) : (send s m).out.map (fun p => p.msg) = s.out.map (fun p => p.msg) ++ [m] := by
  rw [send_out, if_pos h, List.map_append]
  rfl

theorem ackMirror_msgs {s : State} (h : s.spn.link = 2) (v : Version) : (ackMirror s v).out.map (fun p => p.msg) = s.out.map (fun p => p.msg) ++
    (if v.nlb ≤ ((s.qre.ingest.filter (fun i => i.twin == v.twin && i.version == v.seq)).map (·.blocks)).sum then [.mirrorAck v.seq] else []) := by
  unfold ackMirror
  dsimp only
  split
  · exact msgs_send h _
  · rw [List.append_nil]

theorem onlyIn_ackMirror (s : State) (v : Version) : OnlyIn [.out] s (ackMirror s v) := onlyIn_of_follows (follows_ackMirror (by decide) (follows_refl s))

theorem onlyIn_mendVersion (s : State) (own : Bool) (seq : Nat) : OnlyIn [.mem] s (mendVersion s own seq) :=
  onlyIn_of_follows (follows_mendVersion (by decide) (follows_refl s))

/-- A version of the other twin replaces what was held of it. -/
def versionKept (s : State) (v : Version) : State :=
  { s with cmd := { s.cmd with versions := s.cmd.versions.filter (fun w => !(!w.own && w.twin == v.twin && w.seq == v.seq)) ++ [v] } }

theorem mirrorDataReceive_other {s : State} {w : Fin 2} {seq lba : Dword} {nsid : Word} {bs : List Bytes} {u : Bool} (hl : s.spn.link = 2)
    (hw : w.val ≠ s.tck.twinId) : ∃ t v,
    exec (.mirrorDataReceive w seq nsid lba bs u) s = .next t ∧ v ∈ t.cmd.versions ∧ v.own = false ∧ v.seq = seq.toNat ∧ v.nsid = nsid.toNat ∧
      v.lba = lba.toNat ∧ v.nlb = bs.length ∧ v.twin = w.val ∧ v.classU = u ∧ (∀ x ∈ s.cmd.versions, x.own = true → x ∈ t.cmd.versions) ∧
      (let n := ((s.qre.ingest.filter (fun i => i.twin == w.val && i.version == seq.toNat)).map (·.blocks)).sum
       t.out.map (fun p => p.msg) = s.out.map (fun p => p.msg) ++ (if bs.length ≤ n then [.mirrorAck seq.toNat] else [])) := by
  obtain ⟨-, hmend⟩ := onlyIn_mendVersion s (w.val == s.tck.twinId) seq.toNat
  have hexec : exec (.mirrorDataReceive w seq nsid lba bs u) s = .next (ackMirror (mapBuffered (versionKept (mendVersion s (w.val == s.tck.twinId) seq.toNat)
      (mirrored w seq.toNat nsid.toNat lba.toNat bs u)) (mirrored w seq.toNat nsid.toNat lba.toNat bs u))
      (mirrored w seq.toNat nsid.toNat lba.toNat bs u)) := by
    refine (if_neg (not_not.2 hl)).trans (if_neg ?_)
    rwa [show (mendVersion s (w.val == s.tck.twinId) seq.toNat).tck = s.tck from hmend .tck (by decide)]
  have hcmd : (mendVersion s (w.val == s.tck.twinId) seq.toNat).cmd = s.cmd := hmend .cmd (by decide)
  have hspn : (mendVersion s (w.val == s.tck.twinId) seq.toNat).spn = s.spn := hmend .spn (by decide)
  have hqre : (mendVersion s (w.val == s.tck.twinId) seq.toNat).qre = s.qre := hmend .qre (by decide)
  have hout : (mendVersion s (w.val == s.tck.twinId) seq.toNat).out = s.out := hmend .out (by decide)
  generalize mendVersion s (w.val == s.tck.twinId) seq.toNat = m at hexec hcmd hspn hqre hout
  have hv : (mirrored w seq.toNat nsid.toNat lba.toNat bs u).own = false ∧ (mirrored w seq.toNat nsid.toNat lba.toNat bs u).seq = seq.toNat ∧
      (mirrored w seq.toNat nsid.toNat lba.toNat bs u).nsid = nsid.toNat ∧ (mirrored w seq.toNat nsid.toNat lba.toNat bs u).lba = lba.toNat ∧
      (mirrored w seq.toNat nsid.toNat lba.toNat bs u).nlb = bs.length ∧ (mirrored w seq.toNat nsid.toNat lba.toNat bs u).twin = w.val ∧
      (mirrored w seq.toNat nsid.toNat lba.toNat bs u).classU = u := ⟨rfl, rfl, rfl, rfl, rfl, rfl, rfl⟩
  generalize mirrored w seq.toNat nsid.toNat lba.toNat bs u = v at hexec hv
  obtain ⟨hown, hseq, hnsid, hlba, hnlb, htwin, hclass⟩ := hv
  have hmap : OnlyIn [.mem] (versionKept m v) (mapBuffered (versionKept m v) v) := onlyIn_of_follows (follows_mapBuffered (by decide) (follows_refl _))
  have hack := onlyIn_ackMirror (mapBuffered (versionKept m v) v) v
  have hvers : (ackMirror (mapBuffered (versionKept m v) v) v).cmd = (versionKept m v).cmd := (hack.2 .cmd (by decide)).trans (hmap.2 .cmd (by decide))
  have hlink : (mapBuffered (versionKept m v) v).spn.link = 2 := by
    rw [show (mapBuffered (versionKept m v) v).spn = s.spn from (hmap.2 .spn (by decide)).trans hspn]
    exact hl
  have hing : (mapBuffered (versionKept m v) v).qre = s.qre := (hmap.2 .qre (by decide)).trans hqre
  have hpack : (mapBuffered (versionKept m v) v).out = s.out := (hmap.2 .out (by decide)).trans hout
  refine ⟨_, v, hexec, ?_, hown, hseq, hnsid, hlba, hnlb, htwin, hclass, fun x hx ho => ?_, ?_⟩
  · rw [hvers]
    exact List.mem_append_right _ (List.mem_singleton.2 rfl)
  · rw [hvers]
    refine List.mem_append_left _ (List.mem_filter.2 ⟨hcmd ▸ hx, ?_⟩)
    rw [ho]
    rfl
  · rw [ackMirror_msgs hlink, hing, hpack, hnlb, htwin, hseq]

/-- A version of this twin's own takes its blocks from the copy. -/
def copyTaken (v w : Version) : Version :=
  if w.own && w.seq == v.seq then { w with blocks := v.blocks, pis := v.pis, ivs := v.ivs, tags := v.tags } else w

theorem mirrorDataReceive_own {s : State} {w : Fin 2} {seq lba : Dword} {nsid : Word} {bs : List Bytes} {u : Bool} (hl : s.spn.link = 2)
    (hw : w.val = s.tck.twinId) : ∃ t,
    exec (.mirrorDataReceive w seq nsid lba bs u) s = .next t ∧ t.cmd.versions.length = s.cmd.versions.length ∧
      (∀ v ∈ t.cmd.versions, v.own = true → v.seq = seq.toNat → v.blocks.length = bs.length) ∧
      (∀ v ∈ s.cmd.versions, v.own = false ∨ v.seq ≠ seq.toNat → v ∈ t.cmd.versions) ∧ OnlyIn [.cmd, .mem] s t := by
  obtain ⟨-, hmend⟩ := onlyIn_mendVersion s (w.val == s.tck.twinId) seq.toNat
  have hlen : (mirrored w seq.toNat nsid.toNat lba.toNat bs u).blocks.length = bs.length := by simp [mirrored]
  have hseq : (mirrored w seq.toNat nsid.toNat lba.toNat bs u).seq = seq.toNat := rfl
  have hexec : exec (.mirrorDataReceive w seq nsid lba bs u) s =
      .next (let m := mendVersion s (w.val == s.tck.twinId) seq.toNat
        { m with cmd := { m.cmd with versions := m.cmd.versions.map (copyTaken (mirrored w seq.toNat nsid.toNat lba.toNat bs u)) } }) := by
    refine (if_neg (not_not.2 hl)).trans (if_pos ?_)
    rwa [show (mendVersion s (w.val == s.tck.twinId) seq.toNat).tck = s.tck from hmend .tck (by decide)]
  have hcmd : (mendVersion s (w.val == s.tck.twinId) seq.toNat).cmd = s.cmd := hmend .cmd (by decide)
  have honly : OnlyIn [.cmd, .mem] s (mendVersion s (w.val == s.tck.twinId) seq.toNat) :=
    onlyIn_of_follows (follows_mendVersion (by decide) (follows_refl s))
  generalize mendVersion s (w.val == s.tck.twinId) seq.toNat = m at hexec hcmd honly
  generalize mirrored w seq.toNat nsid.toNat lba.toNat bs u = v at hexec hlen hseq
  refine ⟨_, hexec, ?_, fun x hx ho hs => ?_, fun x hx h => ?_, onlyIn_trans honly ?_⟩
  · exact (List.length_map _).trans (congrArg (fun c : CmdBlk => c.versions.length) hcmd)
  · obtain ⟨y, -, rfl⟩ := List.mem_map.1 hx
    unfold copyTaken at ho hs ⊢
    split
    · exact hlen
    case isFalse hno =>
      rw [if_neg hno] at ho hs
      rw [ho, hs, hseq] at hno
      exact absurd (by simp) hno
  · refine List.mem_map.2 ⟨x, hcmd ▸ hx, if_neg ?_⟩
    rw [hseq]
    rcases h with h | h <;> simp [h]
  · exact onlyIn_of_follows (upd_cmd (by decide) (follows_refl m))

/-! ### Journal records (R219, R221) -/

/-- The newest version of the other twin that an ingest record lies in. -/
def ingestOwner (s : State) (nsid blocks twin lba : Nat) : Option Version :=
  (s.cmd.versions.filter (fun v => !v.own && v.twin == twin && v.nsid == nsid && decide (v.lba ≤ lba) && decide (lba + blocks ≤ v.lba + v.nlb))).foldl
    (fun b v => match b with | some w => if w.seq < v.seq then some v else b | none => some v) none

/-- The ingest record as it is kept. -/
def peerIngest (s : State) (seq nsid blocks : Nat) (fua : Bool) (twin lba : Nat) : Ingest :=
  { seq := seq, nsid := nsid, blocks := blocks, fua := fua, twin := twin, lba := lba
    version := ((ingestOwner s nsid blocks twin lba).map (·.seq)).getD 0 }

/-- An ingest record replaces what was held of it. -/
def ingestKept (s : State) (i : Ingest) : State :=
  { s with qre := { s.qre with ingest := s.qre.ingest.filter (fun j => !(j.twin == i.twin && j.seq == i.seq)) ++ [i] } }

/-- The acknowledgement of the version that an ingest record belongs to. -/
def ackOwner (s : State) : Option Version → State
  | some v => ackMirror s v
  | none => s

theorem takeIngest_eq (s : State) (seq nsid blocks : Nat) (fua : Bool) (twin lba : Nat) : takeIngest s seq nsid blocks fua twin lba =
    ackOwner (followZone (ingestKept s (peerIngest s seq nsid blocks fua twin lba)) nsid lba blocks) (ingestOwner s nsid blocks twin lba) := rfl

theorem onlyIn_ackOwner (s : State) (o : Option Version) : OnlyIn [.out] s (ackOwner s o) := by
  cases o with
  | none => exact onlyIn_of_follows (follows_refl s)
  | some v => exact onlyIn_ackMirror s v

theorem followZone_wp (s : State) {nsid : Nat} (h : 2 ≤ nsid) (lba blocks : Nat) :
    lba % zoneBlocks + blocks ≤ (zoneAt (followZone s nsid lba blocks) nsid (lba / zoneBlocks)).wp := by
  rw [followZone, if_neg (by omega)]
  dsimp only
  rw [zoneAt_setZone, if_pos rfl]
  exact le_max_right ..

theorem takeIngest_spec (s : State) (seq nsid blocks : Nat) (fua : Bool) (twin lba : Nat) : let t := takeIngest s seq nsid blocks fua twin lba
    (∃ i ∈ t.qre.ingest, i.seq = seq ∧ i.twin = twin ∧ i.nsid = nsid ∧ i.blocks = blocks ∧ i.lba = lba) ∧ t.cmd = s.cmd ∧
      (2 ≤ nsid → lba % zoneBlocks + blocks ≤ (zoneAt t nsid (lba / zoneBlocks)).wp) := by
  have honly : OnlyIn [.out, .qre, .hiu] s (takeIngest s seq nsid blocks fua twin lba) := onlyIn_of_follows (follows_takeIngest (by decide) (follows_refl s))
  rw [takeIngest_eq] at honly ⊢
  have hrec : (peerIngest s seq nsid blocks fua twin lba).seq = seq ∧ (peerIngest s seq nsid blocks fua twin lba).twin = twin ∧
      (peerIngest s seq nsid blocks fua twin lba).nsid = nsid ∧ (peerIngest s seq nsid blocks fua twin lba).blocks = blocks ∧
      (peerIngest s seq nsid blocks fua twin lba).lba = lba := ⟨rfl, rfl, rfl, rfl, rfl⟩
  generalize peerIngest s seq nsid blocks fua twin lba = i at honly hrec
  have hto := onlyIn_ackOwner (followZone (ingestKept s i) nsid lba blocks) (ingestOwner s nsid blocks twin lba)
  generalize ackOwner (followZone (ingestKept s i) nsid lba blocks) (ingestOwner s nsid blocks twin lba) = t at honly hto
  have hqre : t.qre = (followZone (ingestKept s i) nsid lba blocks).qre := hto.2 .qre (by decide)
  have hhiu : t.hiu = (followZone (ingestKept s i) nsid lba blocks).hiu := hto.2 .hiu (by decide)
  have hzone : (followZone (ingestKept s i) nsid lba blocks).qre = (ingestKept s i).qre :=
    (onlyIn_of_follows (parts := [.hiu]) (follows_followZone (by decide) (follows_refl _))).2 .qre (by decide)
  refine ⟨⟨i, ?_, hrec⟩, honly.2 .cmd (by decide), fun h => ?_⟩
  · rw [hqre, hzone]
    exact List.mem_append_right _ (List.mem_singleton.2 rfl)
  · rw [zoneAt, hhiu]
    exact followZone_wp (ingestKept s i) h lba blocks

theorem journalIngest_kept {s : State} {seq blocks : Nat} {nsid : Word} {fua : Bool} {w : Fin 2} {lba : Dword} (hl : s.spn.link = 2)
    (hw : w.val ≠ s.tck.twinId) : ∃ t i,
    exec (.journalRecordReceive (.ingest seq nsid blocks fua w lba)) s = .next t ∧ i ∈ t.qre.ingest ∧ i.seq = seq ∧ i.twin = w.val ∧
      i.nsid = nsid.toNat ∧ i.blocks = blocks ∧ i.lba = lba.toNat ∧ t.cmd = s.cmd ∧
      (2 ≤ nsid.toNat → lba.toNat % 1048576 + blocks ≤ (zoneAt t nsid.toNat (lba.toNat / 1048576)).wp) := by
  obtain ⟨⟨i, hmem, hseq, htwin, hns, hbl, hlba⟩, hcmd, hzone⟩ := takeIngest_spec s seq nsid.toNat blocks fua w lba.toNat
  exact ⟨_, i, (if_neg (not_not.2 hl)).trans (if_neg hw), hmem, hseq, htwin, hns, hbl, hlba, hcmd, hzone⟩

theorem journalPointer_acts {s : State} {m : Fin 16} {layer frame gen : Nat} (hl : s.spn.link = 2) :
    (runs s (m.val / 2) = true → exec (.journalRecordReceive (.pointer m layer frame gen)) s = .next s) ∧
    (runs s (m.val / 2) = false → ∃ t, exec (.journalRecordReceive (.pointer m layer frame gen)) s = .next t ∧ (surfAt t m).gen = gen ∧
      (catalogueFrame layer frame = false → (surfAt t m).layer = layer ∧ (surfAt t m).frame = frame) ∧
      (∀ n, n ≠ m.val → surfAt t n = surfAt s n)) := by
  refine ⟨fun hr => (if_neg (not_not.2 hl)).trans (if_pos hr), fun hr => ⟨_, (if_neg (not_not.2 hl)).trans (if_neg (Bool.eq_false_iff.1 hr)), ?_,
    fun hc => ?_, fun n hn => ?_⟩⟩
  · rw [surfAt_setSurf, if_pos rfl]
  · rw [surfAt_setSurf, if_pos rfl]
    simp [hc]
  · rw [surfAt_setSurf, if_neg (Ne.symm hn)]

/-! ### Acknowledgements (R297, R303) -/

/-- The own version of a sequence is mirrored, and nothing of an exchange awaits it any more. -/
def ackNoted (s : State) (seq : Nat) : State :=
  { s with
    cmd := { s.cmd with versions := s.cmd.versions.map (fun (v : Version) => if v.own && v.seq == seq then { v with mirrored := true } else v) }
    spn := { s.spn with exchange := s.spn.exchange.filter (fun n => n ≠ seq) } }

theorem enterPaired_versions (s : State) : (enterPaired s).cmd.versions = s.cmd.versions := by
  have htell : (tellSealOnly s).cmd = s.cmd :=
    (onlyIn_of_follows (parts := [.out, .hiu]) (follows_tellSealOnly (by decide) (follows_refl s))).2 .cmd (by decide)
  have hmade : (madePaired (tellSealOnly s)).cmd.versions = (tellSealOnly s).cmd.versions := rfl
  have hgroups : (groupsTold (madePaired (tellSealOnly s))).cmd = (madePaired (tellSealOnly s)).cmd := (onlyIn_groupsTold _).2 .cmd (by decide)
  have hwith : (enterPaired s).cmd = (groupsTold (madePaired (tellSealOnly s))).cmd := by
    rw [enterPaired_eq]
    exact (foldl_withholdShadow_keeps (List.range 8) 10 _).2.2.2 .cmd (by decide)
  rw [hwith, hgroups, hmade, htell]

theorem endExchange_versions (s : State) : (endExchange s).cmd.versions = s.cmd.versions := by
  unfold endExchange
  split
  · exact enterPaired_versions s
  · rfl

theorem mirrorAckReceive_acts (s : State) (seq : Dword) : ∃ t, exec (.mirrorAckReceive seq) s = .next t ∧
    t.cmd.versions = s.cmd.versions.map (fun v => { v with mirrored := v.mirrored || (v.own && v.seq == seq.toNat) }) ∧
    (s.spn.pairing = false → OnlyIn [.cmd, .spn] s t ∧ t.spn.paired = s.spn.paired) ∧
    (s.spn.pairing = true → s.spn.awaitBinding = false → (∀ n ∈ s.spn.exchange, n = seq.toNat) → t.spn.paired = true) ∧
    (s.spn.pairing = true → (∃ n ∈ s.spn.exchange, n ≠ seq.toNat) → t.spn.paired = s.spn.paired ∧ t.spn.pairing = true) := by
  have hexec : exec (.mirrorAckReceive seq) s = .next (endExchange (ackNoted s seq.toNat)) := rfl
  have hver : (ackNoted s seq.toNat).cmd.versions = s.cmd.versions.map (fun v => { v with mirrored := v.mirrored || (v.own && v.seq == seq.toNat) }) :=
    List.map_congr_left (fun v _ => by cases h : v.own && v.seq == seq.toNat <;> simp)
  have honly : OnlyIn [.cmd, .spn] s (ackNoted s seq.toNat) := onlyIn_of_follows (upd_spn
    (s := { s with cmd := (ackNoted s seq.toNat).cmd }) (by decide) (upd_cmd (by decide) (follows_refl s)))
  have hpaired : (ackNoted s seq.toNat).spn.paired = s.spn.paired := rfl
  have hpairing : (ackNoted s seq.toNat).spn.pairing = s.spn.pairing := rfl
  have hawait : (ackNoted s seq.toNat).spn.awaitBinding = s.spn.awaitBinding := rfl
  have hexch : (ackNoted s seq.toNat).spn.exchange = s.spn.exchange.filter (fun n => n ≠ seq.toNat) := rfl
  generalize ackNoted s seq.toNat = u at hexec hver honly hpaired hpairing hawait hexch
  have hstill (h : ¬ (u.spn.pairing ∧ !u.spn.awaitBinding ∧ u.spn.exchange = [])) : endExchange u = u := if_neg h
  refine ⟨_, hexec, (endExchange_versions u).trans hver, fun hp => ?_, fun hp ha hall => ?_, fun hp hex => ?_⟩
  · rw [hstill (by rw [hpairing, hp]; simp)]
    exact ⟨honly, hpaired⟩
  · have hdone : u.spn.pairing ∧ !u.spn.awaitBinding ∧ u.spn.exchange = [] := by
      rw [hpairing, hp, hawait, ha, hexch]
      exact ⟨rfl, rfl, List.filter_eq_nil_iff.2 (fun n hn => by simp [hall n hn])⟩
    rw [endExchange, if_pos hdone]
    exact (enterPaired_spec u).1
  · obtain ⟨n, hn, hne⟩ := hex
    have hopen : ¬ (u.spn.pairing ∧ !u.spn.awaitBinding ∧ u.spn.exchange = []) := fun h => by
      rw [hexch] at h
      exact List.not_mem_nil (h.2.2 ▸ List.mem_filter.2 ⟨hn, by simpa using hne⟩)
    rw [hstill hopen]
    exact ⟨hpaired, hpairing.trans hp⟩

/-! ### Forwarded commands (R246, R264) -/

section
variable {s : State} {f : Forwarded}

/-- A command that the other twin has forwarded. -/
def forwardedCmd (f : Forwarded) : Cmd := { ref := f.ref, sqe := f.sqe, classU := f.classU, nlb := f.sqe.nlb }

theorem forwarded_new (hl : s.spn.link = 2) (hn : cmdAt s f.ref = none) (hp : f.ref.peer = true) (hb : f.blocks = []) : ∃ t x,
    exec (.forwardedCommandReceive f) s = .next t ∧ cmdAt t f.ref = some x ∧ x.sqe = f.sqe ∧ x.st = .fetched ∧ x.classU = f.classU ∧
      t.hiu.cmds = s.hiu.cmds ++ [x] ∧ OnlyIn [.hiu] s t := by
  have hexec : exec (.forwardedCommandReceive f) s = .next { s with hiu := { s.hiu with cmds := s.hiu.cmds ++ [forwardedCmd f] } } := by
    change execForwardedCommandReceive f s = _
    unfold execForwardedCommandReceive
    rw [if_neg (not_not.2 hl), hn]
    exact if_pos (by simp [hp, hb])
  refine ⟨_, forwardedCmd f, hexec, ?_, rfl, rfl, rfl, rfl, onlyIn_of_follows (upd_hiu (by decide) (follows_refl s))⟩
  change (s.hiu.cmds ++ [forwardedCmd f]).find? _ = _
  rw [List.find?_append, show s.hiu.cmds.find? (fun c => decide (c.ref = f.ref)) = none from hn, Option.none_or]
  exact List.find?_cons_of_pos (by simp [forwardedCmd])

theorem exec_forwarded_known (hl : s.spn.link = 2) {c : Cmd} (hc : cmdAt s f.ref = some c) : exec (.forwardedCommandReceive f) s =
    if f.ref.peer then if !f.blocks.isEmpty && c.st == .admitted && f.blocks.length == c.nlb then .next (takeBlocks s c f.blocks) else .next s
    else if c.remote then .next (setCmd s { c with lba := f.sqe.slba.toNat, peerDone := true }) else .next s := by
  change execForwardedCommandReceive f s = _
  unfold execForwardedCommandReceive
  rw [if_neg (not_not.2 hl), hc]

/-- The command with the blocks of the packet as its data. -/
def blocksTaken (c : Cmd) (blocks : List Bytes) : Cmd :=
  { c with st := .data, enc := (List.range (blocks.map unpackBlock).length).zip ((blocks.map unpackBlock).map (·.1)), pis := (blocks.map unpackBlock).map (·.2) }

theorem look_isSome_of_mem {α : Type} {t : Tbl α} {k : Nat} {v : α} (h : (k, v) ∈ t) : (look t k).isSome = true := by
  induction t with
  | nil => exact absurd h List.not_mem_nil
  | cons e t ih =>
    unfold look
    split
    · rfl
    case isFalse hne => exact ih ((List.mem_cons.1 h).resolve_left (fun he => hne (congrArg Prod.fst he).symm))

theorem look_zip_range {α : Type} (l : List α) {i : Nat} (h : i < l.length) : (look ((List.range l.length).zip l) i).isSome = true := by
  have hmem : (i, l[i]) ∈ (List.range l.length).zip l := List.mem_iff_getElem.2 ⟨i, by simpa using h, by simp⟩
  exact look_isSome_of_mem hmem

theorem encrypted_blocksTaken {c : Cmd} {blocks : List Bytes} (h : blocks.length = c.nlb) : encrypted (blocksTaken c blocks) = true := by
  refine List.all_eq_true.2 (fun i hi => ?_)
  have hi' : i < ((blocks.map unpackBlock).map (·.1)).length := by simpa [h, blocksTaken] using List.mem_range.1 hi
  have hz := look_zip_range _ hi'
  rw [List.length_map] at hz
  exact hz

theorem forwarded_blocks (hl : s.spn.link = 2) {c : Cmd} (hc : cmdAt s f.ref = some c) (hp : f.ref.peer = true) (hst : c.st = .admitted)
    (hb : f.blocks ≠ []) (hlen : f.blocks.length = c.nlb) : ∃ t x,
    exec (.forwardedCommandReceive f) s = .next t ∧ cmdAt t f.ref = some x ∧ x.st = .data ∧ encrypted x = true ∧ x.pis.length = c.nlb := by
  have href : c.ref = f.ref := cmdAt_ref hc
  have hexec := exec_forwarded_known hl hc
  rw [if_pos hp, if_pos (by simp [hb, hst, hlen])] at hexec
  exact ⟨_, blocksTaken c f.blocks, hexec, cmdAt_setCmd (x := blocksTaken c f.blocks) hc href, rfl, encrypted_blocksTaken hlen, by simp [blocksTaken, hlen]⟩

theorem forwarded_admitted (hl : s.spn.link = 2) {c : Cmd} (hc : cmdAt s f.ref = some c) (hp : f.ref.peer = false) (hr : c.remote = true) :
    exec (.forwardedCommandReceive f) s = .next (setCmd s { c with lba := f.sqe.slba.toNat, peerDone := true }) :=
  (exec_forwarded_known hl hc).trans ((if_neg (Bool.eq_false_iff.1 hp)).trans (if_pos hr))

end

theorem forwardedCompletion_acts {s : State} {r : CmdRef} {st : Status} {dw : Dword} {data : Bytes} {c : Cmd} (hc : cmdAt s r = some c)
    (hk : c.sqe.kind ≠ .flush) :
    (c.remote = true ∨ c.sqe.kind = .admin → exec (.forwardedCompletionReceive r st dw data) s = .next (complete s r st dw data)) ∧
    (c.remote = false → c.sqe.kind ≠ .admin → exec (.forwardedCompletionReceive r st dw data) s = .next s) := by
  have hexec : exec (.forwardedCompletionReceive r st dw data) s =
      if c.remote || c.sqe.kind == .admin then .next (complete s r st dw data) else .next s := by
    change execForwardedCompletionReceive r st dw data s = _
    unfold execForwardedCompletionReceive
    rw [hc]
    exact if_neg (fun h => hk h.1)
  refine ⟨fun h => hexec.trans (if_pos ?_), fun hr hn => hexec.trans (if_neg (by simp [hr, hn]))⟩
  rcases h with h | h <;> simp [h]

end Sys2Proof.Machine
end

section
/-! PROOFS. R215, R52, R241, R248, R287, R339: peer leaves and management packets. -/

namespace Sys2Proof.Machine

/-! ### Peer leaves (R215) -/

section
variable {s : State} {q : Nat} {leaf m : Fin 16}

/-- A leaf of a directory quire is asked for. -/
def asksDirectory (s : State) (q : Nat) : Bool := (quireAt s q).any (fun (q : Quire) => q.kind == 3)

theorem peerLeafRequest_refused (h : runs s (m.val / 2) = false ∨ placeable s (if asksDirectory s q then 3 else 0) m = false) :
    exec (.peerLeafRequest q leaf m) s = .next (send s (.leafVerdict q leaf false false)) := by
  refine if_pos ?_
  rcases h with h | h
  · rw [h]; rfl
  · rw [show placeable s (if (quireAt s q).any (fun (q : Quire) => q.kind == 3) then 3 else 0) m = false from h]
    simp

theorem placeable_of_notWritable (kind : Nat) (h : writable s m = false) : placeable s kind m = false := by
  rw [placeable, h, Bool.false_and]

/-- The surface with its next frame taken. -/
def nextFrameTaken (x : Surf) : Surf := { x with layer := (nextFrame x.layer x.frame).1, frame := (nextFrame x.layer x.frame).2, gen := x.gen + 68 }

/-- The leaf's place goes to the other twin, with the surface's pointer. -/
def frameTold (s : State) (q : Nat) (leaf m : Fin 16) : State :=
  send (sendPointer (setSurf s m (nextFrameTaken (surfAt s m))) m) (.leafReply q leaf (surfAt s m).layer (surfAt s m).frame (surfAt s m).gen)

/-- The leaf stands in the copy of the record that this twin holds. -/
def leafPlaced (s t : State) (q : Nat) (leaf m : Fin 16) : State :=
  match quireAt t q with
  | some x =>
    let l : Leaf := { surface := m, layer := (surfAt s m).layer, frame := (surfAt s m).frame, gen := (surfAt s m).gen }
    setQuire t { x with leaves := x.leaves.set leaf l }
  | none => t

theorem exec_peerLeafRequest_placed (hr : runs s (m.val / 2) = true) (hw : writable s m = true) (hd : asksDirectory s q = false) :
    exec (.peerLeafRequest q leaf m) s = .next (leafPlaced s (frameTold s q leaf m) q leaf m) := by
  have hdir : (quireAt s q).any (fun (q : Quire) => q.kind == 3) = false := hd
  have hplace : placeable s 0 m = true := by rw [placeable, hw]; rfl
  change execPeerLeafRequest q leaf m s = _
  unfold execPeerLeafRequest
  rw [hdir]
  refine (if_neg (by rw [hr, if_neg Bool.false_ne_true, hplace]; decide)).trans ?_
  dsimp only
  split
  case h_1 x hx =>
    have hx' : quireAt (frameTold s q leaf m) q = some x := hx
    rw [leafPlaced, hx']
    rfl
  case h_2 hx =>
    have hx' : quireAt (frameTold s q leaf m) q = none := hx
    rw [leafPlaced, hx']
    rfl

theorem leafPlaced_keeps (s t : State) (q : Nat) (leaf m : Fin 16) : let u := leafPlaced s t q leaf m
    u.out = t.out ∧ (∀ n, surfAt u n = surfAt t n) ∧ OnlyIn [.qre] t u := by
  unfold leafPlaced
  split
  · exact ⟨rfl, fun _ => rfl, onlyIn_of_follows (follows_setQuire (by decide) (follows_refl t))⟩
  · exact ⟨rfl, fun _ => rfl, onlyIn_of_follows (follows_refl t)⟩

theorem onlyIn_frameTold (s : State) (q : Nat) (leaf m : Fin 16) : OnlyIn [.out] (setSurf s m (nextFrameTaken (surfAt s m))) (frameTold s q leaf m) :=
  onlyIn_of_follows (follows_send (by decide) (follows_sendPointer (by decide) (follows_refl _)))

theorem frameTold_sends (hl : s.spn.link = 2) :
    ∃ p ∈ (frameTold s q leaf m).out, p.msg = .leafReply q leaf (surfAt s m).layer (surfAt s m).frame (surfAt s m).gen := by
  have hspn : (sendPointer (setSurf s m (nextFrameTaken (surfAt s m))) m).spn = s.spn :=
    (onlyIn_of_follows (parts := [.out, .qre]) (follows_sendPointer (by decide) (follows_setSurf (by decide) (follows_refl s)))).2 .spn (by decide)
  exact mem_out_send _ (hspn ▸ hl)

theorem peerLeafRequest_placed (hr : runs s (m.val / 2) = true) (hw : writable s m = true) (hl : s.spn.link = 2)
    (hk : ∀ x, quireAt s q = some x → x.kind ≠ 3) : ∃ t,
    exec (.peerLeafRequest q leaf m) s = .next t ∧ (surfAt t m).gen = (surfAt s m).gen + 68 ∧
      (∃ p ∈ t.out, p.msg = .leafReply q leaf (surfAt s m).layer (surfAt s m).frame (surfAt s m).gen) ∧
      ((surfAt t m).layer, (surfAt t m).frame) = nextFrame (surfAt s m).layer (surfAt s m).frame ∧
      (∀ n, n ≠ m.val → surfAt t n = surfAt s n) ∧ OnlyIn [.qre, .out] s t := by
  have hd : asksDirectory s q = false := by
    unfold asksDirectory
    cases hx : quireAt s q with
    | none => rfl
    | some x => exact beq_false_of_ne (hk x hx)
  have hexec := exec_peerLeafRequest_placed (leaf := leaf) hr hw hd
  have htold := onlyIn_frameTold s q leaf m
  have hsent := frameTold_sends (q := q) (leaf := leaf) (m := m) hl
  have honly : OnlyIn [.qre, .out] s (frameTold s q leaf m) := onlyIn_of_follows (follows_send (by decide) (follows_sendPointer (by decide)
    (follows_setSurf (by decide) (follows_refl s))))
  have hqre : (frameTold s q leaf m).qre = (setSurf s m (nextFrameTaken (surfAt s m))).qre := htold.2 .qre (by decide)
  generalize frameTold s q leaf m = u at hexec hsent honly hqre
  obtain ⟨hout, hsurf, hplaced⟩ := leafPlaced_keeps s u q leaf m
  have hplaced' : OnlyIn [.qre, .out] u (leafPlaced s u q leaf m) :=
    ⟨hplaced.1, fun p hp => hplaced.2 p (fun h => hp (by rw [List.mem_singleton.1 h]; decide))⟩
  have hall (n : Nat) : surfAt (leafPlaced s u q leaf m) n = if m.val = n then nextFrameTaken (surfAt s m) else surfAt s n := by
    rw [hsurf, surfAt, hqre]
    exact surfAt_setSurf ..
  have hself := (hall m).trans (if_pos rfl)
  exact ⟨_, hexec, by rw [hself]; rfl, hout ▸ hsent, by rw [hself]; rfl, fun n hn => (hall n).trans (if_neg (Ne.symm hn)), onlyIn_trans honly hplaced'⟩

end

theorem quireAt_setQuire_self (s : State) (q : Quire) : quireAt (setQuire s q) q.number = some q := by
  rw [quireAt, setQuire, look_ins, if_pos rfl]

/-- The quire with a leaf replaced. -/
def leafSet (x : Quire) (leaf : Nat) (l : Leaf) : Quire := { x with leaves := x.leaves.set leaf l }

theorem leafSet_getD (x : Quire) {leaf : Nat} (l : Leaf) (h : leaf < x.leaves.length) : (leafSet x leaf l).leaves.getD leaf {} = l ∧
    ∀ k, k ≠ leaf → (leafSet x leaf l).leaves.getD k {} = x.leaves.getD k {} := by
  refine ⟨?_, fun k hk => ?_⟩
  · rw [leafSet, List.getD_eq_getElem?_getD, List.getElem?_set_self h]
    rfl
  · rw [leafSet, List.getD_eq_getElem?_getD, List.getElem?_set_ne (Ne.symm hk), List.getD_eq_getElem?_getD]

section
variable {s : State} {x : Quire} {leaf layer : Fin 16} {frame gen : Nat} {counted : Bool}

theorem exec_peerLeafReply (hx : quireAt s x.number = some x) : exec (.peerLeafReply x.number leaf layer frame gen) s =
    if x.twin ≠ s.tck.twinId ∨ x.st ≠ 1 ∨ !(x.leaves.getD leaf {}).peer ∨ (x.leaves.getD leaf {}).st ≠ 0 then .next s
    else .next (sendQuire (setQuire s (leafSet x leaf { x.leaves.getD leaf {} with layer := layer, frame := frame, gen := gen })) x.number) := by
  change execPeerLeafReply x.number leaf layer frame gen s = _
  unfold execPeerLeafReply
  rw [hx]
  rfl

theorem exec_peerLeafVerdict (hx : quireAt s x.number = some x) (v : Bool) : exec (.peerLeafVerdict x.number leaf v counted) s =
    if x.twin ≠ s.tck.twinId ∨ x.st ≠ 1 ∨ !(x.leaves.getD leaf {}).peer ∨ 2 ≤ (x.leaves.getD leaf {}).st then .next s
    else if v then .next (leafVerified s x.number leaf)
    else .next (checkAbandoned (abandonLeaf s x.number leaf counted) (x.leaves.getD leaf {}).surface) := by
  change execPeerLeafVerdict x.number leaf v counted s = _
  unfold execPeerLeafVerdict
  rw [hx]

theorem peerLeaf_closed (hx : quireAt s x.number = some x) (h : x.twin ≠ s.tck.twinId ∨ x.st ≠ 1 ∨ (x.leaves.getD leaf {}).peer = false) :
    exec (.peerLeafReply x.number leaf layer frame gen) s = .next s ∧ ∀ v, exec (.peerLeafVerdict x.number leaf v counted) s = .next s := by
  refine ⟨(exec_peerLeafReply hx).trans (if_pos ?_), fun v => (exec_peerLeafVerdict hx v).trans (if_pos ?_)⟩ <;>
    rcases h with h | h | h
  · exact .inl h
  · exact .inr (.inl h)
  · exact .inr (.inr (.inl (by rw [h]; rfl)))
  · exact .inl h
  · exact .inr (.inl h)
  · exact .inr (.inr (.inl (by rw [h]; rfl)))

theorem quireAt_sendQuire (s : State) (n k : Nat) : quireAt (sendQuire s n) k = quireAt s k := by
  have honly : OnlyIn [.out] s (sendQuire s n) := onlyIn_of_follows (follows_sendQuire (by decide) (follows_refl s))
  have hqre : (sendQuire s n).qre = s.qre := honly.2 .qre (by decide)
  rw [quireAt, hqre, quireAt]

theorem peerLeafReply_placed (hx : quireAt s x.number = some x) (ht : x.twin = s.tck.twinId) (h1 : x.st = 1) (hp : (x.leaves.getD leaf {}).peer = true)
    (hlen : leaf.val < x.leaves.length) (h0 : (x.leaves.getD leaf {}).st = 0) : ∃ t y,
    exec (.peerLeafReply x.number leaf layer frame gen) s = .next t ∧ quireAt t x.number = some y ∧
      y.leaves.getD leaf {} = { x.leaves.getD leaf {} with layer := layer, frame := frame, gen := gen } ∧
      (∀ k, k ≠ leaf.val → y.leaves.getD k {} = x.leaves.getD k {}) ∧ OnlyIn [.qre, .out] s t := by
  obtain ⟨hself, hothers⟩ := leafSet_getD x { x.leaves.getD leaf {} with layer := layer, frame := frame, gen := gen } hlen
  refine ⟨_, _, (exec_peerLeafReply hx).trans
    (if_neg (not_or.2 ⟨not_not.2 ht, not_or.2 ⟨not_not.2 h1, not_or.2 ⟨by rw [hp]; decide, not_not.2 h0⟩⟩⟩)), ?_, hself, hothers, ?_⟩
  · rw [quireAt_sendQuire]
    exact quireAt_setQuire_self s (leafSet x leaf _)
  · exact onlyIn_of_follows (follows_sendQuire (by decide) (follows_setQuire (by decide) (follows_refl s)))

theorem checkSeal_leaves {t : State} {y : Quire} (hy : quireAt t y.number = some y) :
    ∃ z, quireAt (checkSeal t y.number) y.number = some z ∧ z.leaves = y.leaves := by
  unfold checkSeal
  rw [hy]
  dsimp only
  split
  · refine ⟨{ y with sealing := true, committed := false }, ?_, rfl⟩
    rw [quireAt_sendQuire]
    exact quireAt_setQuire_self t { y with sealing := true, committed := false }
  · exact ⟨y, hy, rfl⟩

theorem peerLeafVerdict_verified (hx : quireAt s x.number = some x) (ht : x.twin = s.tck.twinId) (h1 : x.st = 1)
    (hp : (x.leaves.getD leaf {}).peer = true) (hlen : leaf.val < x.leaves.length) (h2 : (x.leaves.getD leaf {}).st < 2) : ∃ t y,
    exec (.peerLeafVerdict x.number leaf true counted) s = .next t ∧ quireAt t x.number = some y ∧
      (y.leaves.getD leaf {}).st = 2 ∧ (∀ k, k ≠ leaf.val → y.leaves.getD k {} = x.leaves.getD k {}) := by
  have hverified : leafVerified s x.number leaf = checkSeal (setQuire s (leafSet x leaf { x.leaves.getD leaf {} with st := 2 })) x.number := by
    unfold leafVerified
    rw [hx]
    rfl
  obtain ⟨hself, hothers⟩ := leafSet_getD x { x.leaves.getD leaf {} with st := 2 } hlen
  obtain ⟨z, hz, hleaves⟩ := checkSeal_leaves (quireAt_setQuire_self s (leafSet x leaf { x.leaves.getD leaf {} with st := 2 }))
  refine ⟨_, z, (exec_peerLeafVerdict hx true).trans
    ((if_neg (not_or.2 ⟨not_not.2 ht, not_or.2 ⟨not_not.2 h1, not_or.2 ⟨by rw [hp]; decide, Nat.not_le.2 h2⟩⟩⟩)).trans (if_pos rfl)), ?_, ?_, fun k hk => ?_⟩
  · rw [hverified]
    exact hz
  · rw [hleaves, hself]
  · rw [hleaves, hothers k hk]

end

/-! ### Management packets (R52, R241, R248, R287, R339) -/

section
variable {s : State}

theorem exec_management (hl : s.spn.link = 2) :
    (∀ on, exec (.managementPacketReceive (.flushMedia on)) s = .next { s with hiu := { s.hiu with flushMedia := on } }) ∧
    exec (.managementPacketReceive .powerFail) s = .next ((List.range 8).foldl (withholdShadow 4) s) ∧
    (∀ nsid n, exec (.managementPacketReceive (.namespaceCreate nsid n)) s = .next (putNs s nsid.toNat n)) ∧
    (∀ nsid : Word, nsid ≠ 0xFFFFFFFF → exec (.managementPacketReceive (.namespaceDelete nsid)) s = .next (dropNs s nsid.toNat)) ∧
    (∀ k, exec (.managementPacketReceive (.snapshotRequest k)) s = .next (askSnapshot s (ownStitch s k.toNat) true)) := by
  have hon : ¬ s.spn.link ≠ 2 := not_not.2 hl
  refine ⟨fun on => if_neg hon, if_neg hon, fun nsid n => if_neg hon, fun nsid hne => (if_neg hon).trans ?_, fun k => if_neg hon⟩
  change Host.Outcome.next ((if nsid = 0xFFFFFFFF then s.hiu.ns.map (·.1) else [nsid.toNat]).foldl dropNs s) = _
  rw [if_neg hne]
  rfl

theorem powerFailTold (hl : s.spn.link = 2) : ∃ t, exec (.managementPacketReceive .powerFail) s = .next t ∧ OnlyIn [.spn] s t ∧
    ∀ b, b < 8 → shadows s b = true → (pairAt t b).withhold = (if (pairAt s b).withhold = 0 then 4 else (pairAt s b).withhold) := by
  obtain ⟨-, hexec, -⟩ := exec_management hl
  refine ⟨_, hexec, (foldl_withholdShadow_keeps (List.range 8) 4 s).2.2, fun b hb hs => ?_⟩
  rw [pairAt_withholdShadows 4 (List.nodup_range (n := 8)), if_pos ⟨List.mem_range.2 hb, hs⟩]
  rfl

theorem namespaceDeleteTold (hl : s.spn.link = 2) {nsid : Word} (hne : nsid ≠ 0xFFFFFFFF) :
    ∃ t, exec (.managementPacketReceive (.namespaceDelete nsid)) s = .next t ∧ nsAt t nsid.toNat = none ∧
      ∀ j, j ≠ nsid.toNat → nsAt t j = nsAt s j := by
  obtain ⟨-, -, -, hdel, -⟩ := exec_management hl
  by_cases h : nsAt s nsid.toNat = none
  · have hquiet : dropNs s nsid.toNat = s := by
      unfold dropNs
      rw [h]
    exact ⟨s, (hdel nsid hne).trans (congrArg Host.Outcome.next hquiet), h, fun _ _ => rfl⟩
  · obtain ⟨hgone, hothers, -⟩ := dropNs_spec h
    exact ⟨_, hdel nsid hne, hgone, hothers⟩

theorem transitionTold (hl : s.spn.link = 2) {body : Bytes} {k : Dword} (hk : k ≠ 0) (hf : transitionFormat body = true)
    (hs : transitionSigned s body = true) : ∃ t, exec (.managementPacketReceive (.transition body k)) s = .next t ∧
      t.kst.transition = some (field body 0 1, ownStitch s k.toNat) := by
  have hexec : exec (.managementPacketReceive (.transition body k)) s = .next (armTransition s body (ownStitch s k.toNat)) := by
    exact (if_neg (not_not.2 hl)).trans ((if_neg hk).trans (if_pos (by rw [hf, hs]; rfl)))
  exact ⟨_, hexec, rfl⟩

theorem snapshotTold (hl : s.spn.link = 2) (k : Dword) : ∃ t, exec (.managementPacketReceive (.snapshotRequest k)) s = .next t ∧ OnlyIn [.tck] s t ∧
    t.tck.snapTwin = s.tck.snapTwin ∧
    (s.tck.snapPair.state = 0 → t.tck.snapPair = { state := 1, due := ownStitch s k.toNat } ∧ t.tck.snapRefused = false) ∧
    (s.tck.snapPair.state ≠ 0 → t.tck.snapPair = s.tck.snapPair ∧ t.tck.snapRefused = true) := by
  obtain ⟨-, -, -, -, hsnap⟩ := exec_management hl
  by_cases h : s.tck.snapPair.state = 0
  · have hask := askSnapshot_of_free (s := s) (pair := true) (ownStitch s k.toNat) h
    refine ⟨_, (hsnap k).trans (congrArg Host.Outcome.next hask), ?_, rfl, fun _ => ⟨rfl, rfl⟩, fun h' => absurd h h'⟩
    exact onlyIn_of_follows (upd_tck (s := { s with tck := { s.tck with snapRefused := false } }) (by decide) (upd_tck (by decide) (follows_refl s)))
  · have hask := askSnapshot_of_busy (s := s) (pair := true) (ownStitch s k.toNat) h
    exact ⟨_, (hsnap k).trans (congrArg Host.Outcome.next hask), onlyIn_of_follows (upd_tck (by decide) (follows_refl s)), rfl, fun h' => absurd h' h,
      fun _ => ⟨rfl, rfl⟩⟩

end

end Sys2Proof.Machine

namespace Sys2Proof
open Machine

/-- Settles O57: what each packet writes is read off its meaning; an acknowledgement goes exactly where the records held cover a version. -/
theorem packetsCarryThePairsData : Obligations.PacketsCarryThePairsData := by
  refine ⟨fun s w seq lba nsid bs u => mirrorDataReceive_other, fun s w seq lba nsid bs u => mirrorDataReceive_own,
    fun s seq blocks nsid fua w lba => journalIngest_kept, fun s m layer frame gen => journalPointer_acts, mirrorAckReceive_acts,
    fun s f hl => ⟨forwarded_new hl, fun c hc hp hst => forwarded_blocks hl hc hp hst, fun c hc hp hr => forwarded_admitted hl hc hp hr⟩,
    fun s r st dw data c => forwardedCompletion_acts, fun s q leaf m => ⟨fun h => ?_, fun x hx hk hroom => ?_, peerLeafRequest_placed⟩,
    fun s x leaf layer frame gen counted hx => ⟨peerLeaf_closed hx, fun ht h1 hp hlen => ⟨peerLeafReply_placed hx ht h1 hp hlen,
      peerLeafVerdict_verified hx ht h1 hp hlen⟩⟩,
    fun s hl => ⟨(exec_management hl).1, powerFailTold hl, fun nsid n => ?_, fun nsid => namespaceDeleteTold hl, fun body k => transitionTold hl,
      snapshotTold hl⟩,
    fun s hl => ⟨fun m => if_pos hl, fun r => if_pos hl, fun f => if_pos hl, fun a b c d e u => if_pos hl⟩⟩
  · exact peerLeafRequest_refused (h.imp_right (placeable_of_notWritable _))
  · refine peerLeafRequest_refused (.inr ?_)
    have hdir : asksDirectory s q = true := by
      rw [asksDirectory, hx]
      exact beq_iff_eq.2 hk
    rw [hdir, if_pos rfl, placeable, hroom]
    simp
  · obtain ⟨hns, -, -, hslot, -⟩ := putNs_spec s nsid.toNat n
    exact ⟨_, _, (exec_management hl).2.2.1 nsid n, hns, rfl, rfl, rfl, by rw [hslot]⟩

end Sys2Proof
end

section
/-! PROOFS. R121, R173, R174, R185, R317 to R321: one edge of a bay front end. -/

namespace Sys2Proof.Machine

/-! ### Axis drivers (R173, R174, R185) -/

/-- The four drivers under their words. -/
def driven (ws : List Half) (t : Tbl BfeAxis) (i : Nat) : Tbl BfeAxis := put t {} i (driveAxis i (getD t {} i) (ws.getD i 0))

theorem getD_driven (ws : List Half) {l : List Nat} (hl : l.Nodup) (t : Tbl BfeAxis) (i : Nat) :
    getD (l.foldl (driven ws) t) {} i = if i ∈ l then driveAxis i (getD t {} i) (ws.getD i 0) else getD t {} i := by
  induction l generalizing t with
  | nil => rfl
  | cons k l ih =>
    obtain ⟨hk, hl⟩ := List.nodup_cons.1 hl
    rw [List.foldl_cons, ih hl, driven, getD_put]
    by_cases hik : k = i
    · subst hik
      rw [if_neg hk, if_pos rfl, if_pos List.mem_cons_self]
    · simp only [if_neg hik, List.mem_cons, Ne.symm hik, false_or]

/-- What a driver makes of each output word. -/
structure Driven (i : Nat) (d y : BfeAxis) (w : Nat) : Prop where
  hold : w / 8192 = 0 → y = d
  step : w / 8192 = 1 → d.powered = true → y = { d with pos := d.pos + stepWay d.pos (w % 8192) } ∧ (y.pos - w) % 8192 = 0 ∧
    -4096 ≤ y.pos - d.pos ∧ y.pos - d.pos ≤ 4095
  park : w / 8192 = 2 → d.powered = true → y.powered = false ∧ y.latched = some (d.pos % indexSpan i).toNat ∧ y.pos = d.pos
  release : w / 8192 = 3 → y.powered = false ∧ y.latched = none
  energise : w / 8192 = 4 → d.powered = false → y.powered = true ∧ y.pos = ((d.latched.getD 0 : Nat) : Int) ∧ y.retained = d.latched.isSome

/-- The way to a target is shorter than half a turn of the 13 bits, and ends on the target. -/
theorem stepWay_spec (p : Int) (w : Nat) : (p + stepWay p (w % 8192) - w) % 8192 = 0 ∧ -4096 ≤ stepWay p (w % 8192) ∧ stepWay p (w % 8192) ≤ 4095 := by
  unfold stepWay
  omega

theorem driven_driveAxis (i : Nat) (d : BfeAxis) (w : Half) : Driven i d (driveAxis i d w) w.toNat where
  hold h := by
    unfold driveAxis
    rw [h]
    rfl
  step h hp := by
    have hd : driveAxis i d w = { d with pos := d.pos + stepWay d.pos (w.toNat % 8192) } := by
      unfold driveAxis
      rw [h]
      exact if_pos hp
    obtain ⟨hend, hlow, hhigh⟩ := stepWay_spec d.pos w.toNat
    refine ⟨hd, ?_, ?_, ?_⟩ <;> rw [hd]
    · exact hend
    · dsimp only; omega
    · dsimp only; omega
  park h hp := by
    have hd : driveAxis i d w = { d with powered := false, latched := some (d.pos % indexSpan i).toNat, retained := false } := by
      unfold driveAxis
      rw [h]
      exact if_pos hp
    rw [hd]
    exact ⟨rfl, rfl, rfl⟩
  release h := by
    unfold driveAxis
    rw [h]
    exact ⟨rfl, rfl⟩
  energise h hp := by
    have hd : driveAxis i d w = { d with powered := true, pos := ((d.latched.getD 0 : Nat) : Int), retained := d.latched.isSome, latched := none } := by
      unfold driveAxis
      rw [h]
      exact if_neg (Bool.eq_false_iff.1 hp)
    rw [hd]
    exact ⟨rfl, rfl, rfl⟩

/-! ### What ramps and streams change -/

/-- A front end but for its beams and its focus ramp. -/
theorem rampFocus_clearEnds (x : Bfe) : ∃ bs i u, rampFocus (clearEnds x) = { x with beams := bs, focusI := i, u := u } ∧ (x.safeStop = false → u = x.u) := by
  unfold rampFocus clearEnds
  dsimp only
  split
  case isTrue h => exact ⟨_, _, _, rfl, fun h' => absurd (h.symm.trans h') (by decide)⟩
  case isFalse => exact ⟨_, x.focusI, x.u, rfl, fun _ => rfl⟩

/-- The beams with their runs ended. -/
def endedBeams (t : Tbl Beam) : Tbl Beam := t.map (fun e => (e.1, if e.2.on then endBeam e.2 4 else { e.2 with words := [] }))

/-- The beams over an edge. -/
def steppedBeams (count : Nat) (t : Tbl Beam) : Tbl Beam := t.map (fun e => (e.1, stepBeam count e.2))

theorem stepBeams_eq (x : Bfe) : stepBeams x = { x with beams := steppedBeams x.count x.beams } := rfl

theorem stepBeam_off (count : Nat) {b : Beam} (hw : b.words = []) (ho : b.on = false) : (stepBeam count b).on = false := by
  unfold stepBeam
  rw [hw]
  unfold playBeam
  dsimp only
  rw [ho, Bool.false_and, if_neg Bool.false_ne_true]

theorem endedBeams_off {t : Tbl Beam} {e : Nat × Beam} (he : e ∈ endedBeams t) : e.2.words = [] ∧ e.2.on = false := by
  obtain ⟨a, -, rfl⟩ := List.mem_map.1 he
  dsimp only
  split
  case isTrue => exact ⟨rfl, rfl⟩
  case isFalse h => exact ⟨rfl, Bool.eq_false_iff.2 h⟩

theorem steppedBeams_off (count : Nat) {t : Tbl Beam} {e : Nat × Beam} (he : e ∈ steppedBeams count (endedBeams t)) : e.2.on = false := by
  obtain ⟨a, ha, rfl⟩ := List.mem_map.1 he
  obtain ⟨hw, ho⟩ := endedBeams_off ha
  exact stepBeam_off count hw ho

/-! ### A frame applied (R319, R320) -/

/-- What an applied frame makes of a front end. -/
structure FrameApplied (x : Bfe) (f : CmdFrame) (y : Bfe) : Prop where
  obeys : y.obeys = x.obeys
  misses : y.misses = 0
  holding : y.holding = false
  count : y.count = f.stitch.toNat + 1
  spin : y.spin = f.spin
  exempt : y.exempt = false
  live : f.safeStop = false → x.ownStop = false → y.safeStop = false ∧ y.u = (List.range 8).map (fun i => (f.u.getD i 0).toInt) ∧ y.axis = f.axis ∧
    y.drivers = (List.range 4).foldl (driven f.axis) x.drivers
  stop : f.safeStop = true → y.safeStop = true ∧ y.emitters = false

/-- The frame noted, before its commands act. -/
def frameNoted (x : Bfe) (f : CmdFrame) (off : Int) (hold : Bool) : Bfe :=
  frameExtras (alignEdge { x with
    misses := 0, holding := false, last := some f, count := f.stitch.toNat + 1, exempt := false, hold := f.hold.toNat
    spin := f.spin, braking := false } off) f hold

theorem frameApplied_applyFrame (x : Bfe) (f : CmdFrame) (off : Int) (hold : Bool) : FrameApplied x f (applyFrame x f off hold) := by
  have heq : applyFrame x f off hold = driveAxes (if f.safeStop then { stopLoops (frameNoted x f off hold) with ownStop := false }
      else if x.ownStop && decide (x.focusI < 500) then { frameNoted x f off hold with axis := f.axis }
      else { frameNoted x f off hold with
        safeStop := false, ownStop := false, u := (List.range 8).map (fun i => (f.u.getD i 0).toInt), axis := f.axis
        emitters := f.readEn != 0, runEnd := 0 }) := rfl
  have hstop (y : Bfe) : (stopLoops y).obeys = y.obeys ∧ (stopLoops y).misses = y.misses ∧ (stopLoops y).holding = y.holding ∧
      (stopLoops y).count = y.count ∧ (stopLoops y).spin = y.spin ∧ (stopLoops y).exempt = y.exempt ∧ (stopLoops y).safeStop = true ∧
      (stopLoops y).emitters = false := by
    unfold stopLoops
    dsimp only
    split
    case isTrue h => exact ⟨rfl, rfl, rfl, rfl, rfl, rfl, h, rfl⟩
    case isFalse => exact ⟨rfl, rfl, rfl, rfl, rfl, rfl, rfl, rfl⟩
  rw [heq]
  cases hs : f.safeStop with
  | true =>
    rw [if_pos rfl]
    obtain ⟨hob, hmi, hho, hco, hsp, hex, hss, hem⟩ := hstop (frameNoted x f off hold)
    exact ⟨hob, hmi, hho, hco, hsp, hex, fun h => absurd (hs.symm.trans h) (by decide), fun _ => ⟨hss, hem⟩⟩
  | false =>
    rw [if_neg Bool.false_ne_true]
    split
    case isTrue h =>
      refine ⟨rfl, rfl, rfl, rfl, rfl, rfl, fun _ ho => ?_, fun h => absurd (hs.symm.trans h) (by decide)⟩
      rw [ho] at h
      exact absurd h (by simp)
    case isFalse => exact ⟨rfl, rfl, rfl, rfl, rfl, rfl, fun _ _ => ⟨rfl, rfl, rfl, rfl⟩, fun h => absurd (hs.symm.trans h) (by decide)⟩

/-! ### What an arrival carries -/

theorem validFrame_eq_some {x : Bfe} {b : Fin 8} {a : Arrival} {f : CmdFrame} (ha : a = .command f true) (hb : f.bay = b)
    (hv : x.exempt = true ∨ f.stitch.toNat = x.count) : validFrame x b a = some f := by
  subst ha
  have hin : cmdIn b (.command f true) = some f := if_pos (congrArg Fin.val hb)
  rw [validFrame, hin, Option.bind_some]
  exact if_pos (by rcases hv with h | h <;> simp [h])

theorem validFrame_eq_none {x : Bfe} {b : Fin 8} {a : Arrival}
    (h : ∀ f, a = .command f true → f.bay ≠ b ∨ (x.exempt = false ∧ f.stitch.toNat ≠ x.count)) : validFrame x b a = none := by
  match a with
  | .nothing => rfl
  | .keep _ _ => rfl
  | .command f false => rfl
  | .command f true =>
    by_cases hb : f.bay = b
    · obtain ⟨he, hc⟩ := (h f rfl).resolve_left (fun hn => hn hb)
      have hin : cmdIn b (.command f true) = some f := if_pos (congrArg Fin.val hb)
      rw [validFrame, hin, Option.bind_some]
      exact if_neg (by simp [he, hc])
    · have hin : cmdIn b (.command f true) = none := if_neg (fun h => hb (Fin.ext h))
      rw [validFrame, hin]
      rfl

theorem showsReady_iff {b : Fin 8} {a : Arrival} : showsReady b a = true ↔ ∃ k, a = .keep k true ∧ k.bay = b ∧ k.ready = true := by
  match a with
  | .nothing => simp [showsReady]
  | .command _ _ => simp [showsReady]
  | .keep k false => simp [showsReady]
  | .keep k true => simp [showsReady, Fin.ext_iff]

/-- The claim of an arrival. -/
def claimIn (b : Nat) (a : Arrival) : Option CmdFrame := (cmdIn b a).bind (fun f => if f.claim then some f else none)

theorem claimIn_eq_none {b : Fin 8} {a : Arrival} (h : ∀ f, a = .command f true → f.bay = b → f.claim = false) : claimIn b a = none := by
  match a with
  | .nothing => rfl
  | .keep _ _ => rfl
  | .command f false => rfl
  | .command f true =>
    by_cases hb : f.bay = b
    · have hin : cmdIn b (.command f true) = some f := if_pos (congrArg Fin.val hb)
      rw [claimIn, hin, Option.bind_some, h f rfl hb]
      rfl
    · have hin : cmdIn b (.command f true) = none := if_neg (fun h => hb (Fin.ext h))
      rw [claimIn, hin]
      rfl

theorem claimIn_eq_some {b : Fin 8} {f : CmdFrame} (hb : f.bay = b) (hc : f.claim = true) : claimIn b (.command f true) = some f := by
  have hin : cmdIn b (.command f true) = some f := if_pos (congrArg Fin.val hb)
  rw [claimIn, hin, Option.bind_some, if_pos hc]

theorem chosenClaim_of_none {b : Nat} {p0 p1 : Arrival} (h0 : claimIn b p0 = none) (h1 : claimIn b p1 = none) : chosenClaim b p0 p1 = none := by
  unfold chosenClaim
  change (match claimIn b p0, claimIn b p1 with | some f, some g => _ | some f, none => _ | none, some g => _ | none, none => _) = _
  rw [h0, h1]

theorem chosenClaim_of_two {b : Nat} {p0 p1 : Arrival} {f g : CmdFrame} (h0 : claimIn b p0 = some f) (h1 : claimIn b p1 = some g) :
    chosenClaim b p0 p1 = if g.owner && !f.owner then some (1, g) else some (0, f) := by
  unfold chosenClaim
  change (match claimIn b p0, claimIn b p1 with | some f, some g => _ | some f, none => _ | none, some g => _ | none, none => _) = _
  rw [h0, h1]

end Sys2Proof.Machine
end

section
/-! PROOFS. R310, R317 to R321, R324, R353, R406: which port a front end obeys; ports and identities. -/

namespace Sys2Proof.Machine

/-! ### The obeyed port at an edge -/

section
variable {x : Bfe} {b : Fin 8} {p0 p1 : Arrival} {off : Int} {hold : Bool}

/-- The arrival at the port that the front end obeys. -/
def arrivalObeyed (x : Bfe) (p0 p1 : Arrival) : Arrival := if x.obeys = 0 then p0 else p1

/-- The arrival at the other port. -/
def arrivalOther (x : Bfe) (p0 p1 : Arrival) : Arrival := if x.obeys = 0 then p1 else p0

theorem bfeStep_valid (ho : (rampFocus x).obeys ≠ 2) {f : CmdFrame} (hv : validFrame (rampFocus x) b (arrivalObeyed (rampFocus x) p0 p1) = some f) :
    bfeStep x b p0 p1 off hold =
      (let y := { applyFrame (rampFocus x) f off hold with readySeen := showsReady b (arrivalOther (rampFocus x) p0 p1) }
       if handsOver f && showsReady b (arrivalOther (rampFocus x) p0 p1) then switchPort y else y) := by
  refine (if_neg ho).trans ?_
  dsimp only
  rw [arrivalObeyed] at hv
  rw [hv]
  rfl

/-- The front end holds for want of a frame. -/
def frameMissed (x : Bfe) (ready : Bool) : Bfe :=
  { endBeams x with
    misses := min (x.misses + 1) 64, holding := true, count := x.count + 1, readySeen := ready
    runEnd := if x.emitters then 4 else x.runEnd }

theorem bfeStep_missed (ho : (rampFocus x).obeys ≠ 2) (hv : validFrame (rampFocus x) b (arrivalObeyed (rampFocus x) p0 p1) = none) :
    bfeStep x b p0 p1 off hold = frameMissed (rampFocus x) (showsReady b (arrivalOther (rampFocus x) p0 p1)) := by
  refine (if_neg ho).trans ?_
  dsimp only
  rw [arrivalObeyed] at hv
  rw [hv]
  rfl

theorem bfeStep_unclaimed (ho : (rampFocus x).obeys = 2) (hc : chosenClaim b p0 p1 = none) : (bfeStep x b p0 p1 off hold).obeys = 2 := by
  have hstep : bfeStep x b p0 p1 off hold = { rampFocus x with count := (rampFocus x).count + 1, readySeen := false } := by
    refine (if_pos ho).trans ?_
    rw [hc]
  rw [hstep]
  exact ho

theorem bfeStep_claimed (ho : (rampFocus x).obeys = 2) {p : Nat} {f : CmdFrame} (hc : chosenClaim b p0 p1 = some (p, f)) :
    (bfeStep x b p0 p1 off hold).obeys = p ∧ (bfeStep x b p0 p1 off hold).reset = false ∧ (bfeStep x b p0 p1 off hold).exempt = true := by
  have hstep : bfeStep x b p0 p1 off hold = { rampFocus x with
      obeys := p, reset := false, exempt := true, misses := 0, holding := false, count := f.stitch.toNat + 1, hold := f.hold.toNat
      last := some f, readySeen := false } := by
    refine (if_pos ho).trans ?_
    rw [hc]
  rw [hstep]
  exact ⟨rfl, rfl, rfl⟩

end

/-! ### One edge -/

/-- The front end after an edge. -/
def bfeEdged (s : State) (b : Fin 8) (p0 p1 : Arrival) (off : Int) : Bfe :=
  stepBeams (bfeStep (clearEnds (bfeAt s b)) b p0 p1 off ((bayAt s b).mode == 5))

theorem exec_bfeEdge (s : State) (b : Fin 8) (p0 p1 : Arrival) (off : Int) : exec (.bfeEdge b p0 p1 off) s = .next (setBfe s b (bfeEdged s b p0 p1 off)) :=
  rfl

theorem bfeAt_edged (s : State) (b : Fin 8) (y : Bfe) : bfeAt (setBfe s b y) b = y ∧ ∀ n, n ≠ b.val → bfeAt (setBfe s b y) n = bfeAt s n :=
  ⟨by rw [bfeAt_setBfe, if_pos rfl], fun n hn => by rw [bfeAt_setBfe, if_neg (Ne.symm hn)]⟩

section
variable {s : State} {b : Fin 8} {p0 p1 : Arrival} {off : Int}

theorem bfeEdged_missed (ho : (bfeAt s b).obeys ≠ 2)
    (h : ∀ f, arrivalObeyed (bfeAt s b) p0 p1 = .command f true → f.bay ≠ b ∨ ((bfeAt s b).exempt = false ∧ f.stitch.toNat ≠ (bfeAt s b).count)) :
    let x := bfeAt s b
    let y := bfeEdged s b p0 p1 off
    y.obeys = x.obeys ∧ y.misses = min (x.misses + 1) 64 ∧ y.holding = true ∧ y.count = x.count + 1 ∧ y.spin = x.spin ∧ y.axis = x.axis ∧
      y.drivers = x.drivers ∧ (∀ e ∈ y.beams, e.2.on = false) ∧ (x.safeStop = false → y.u = x.u) := by
  obtain ⟨bs, i, u, hz, hu⟩ := rampFocus_clearEnds (bfeAt s b)
  have hmissed (ready : Bool) : (frameMissed (rampFocus (clearEnds (bfeAt s b))) ready).beams = endedBeams bs := by rw [hz]; rfl
  have hstep := bfeStep_missed (x := clearEnds (bfeAt s b)) (b := b) (p0 := p0) (p1 := p1) (off := off) (hold := (bayAt s b).mode == 5)
    (by rw [hz]; exact ho) (by rw [hz]; exact validFrame_eq_none h)
  intro x y
  have hy : y = stepBeams (frameMissed (rampFocus (clearEnds (bfeAt s b))) (showsReady b (arrivalOther (rampFocus (clearEnds (bfeAt s b))) p0 p1))) :=
    congrArg stepBeams hstep
  rw [hy, stepBeams_eq, hz]
  exact ⟨rfl, rfl, rfl, rfl, rfl, rfl, rfl, fun e he => steppedBeams_off _ he, hu⟩

/-- The other port is ready and the frame hands over at this edge. -/
def switches (x : Bfe) (b : Fin 8) (p0 p1 : Arrival) (f : CmdFrame) : Prop :=
  f.handover = true ∧ f.hStitch.toNat = f.stitch.toNat + 1 ∧ ∃ k, arrivalOther x p0 p1 = .keep k true ∧ k.bay = b ∧ k.ready = true

theorem switches_iff {x : Bfe} {f : CmdFrame} : (handsOver f && showsReady b (arrivalOther x p0 p1)) = true ↔ switches x b p0 p1 f := by
  rw [Bool.and_eq_true, showsReady_iff, handsOver, Bool.and_eq_true, decide_eq_true_eq, and_assoc, switches]

theorem bfeEdged_applied {f : CmdFrame} (ho : (bfeAt s b).obeys ≠ 2) (ha : arrivalObeyed (bfeAt s b) p0 p1 = .command f true) (hb : f.bay = b)
    (hv : (bfeAt s b).exempt = true ∨ f.stitch.toNat = (bfeAt s b).count) :
    let x := bfeAt s b
    let y := bfeEdged s b p0 p1 off
    y.misses = 0 ∧ y.holding = false ∧ y.count = f.stitch.toNat + 1 ∧ y.spin = f.spin ∧
      (switches x b p0 p1 f → y.obeys = 1 - x.obeys ∧ y.exempt = true) ∧ (¬ switches x b p0 p1 f → y.obeys = x.obeys ∧ y.exempt = false) ∧
      (f.safeStop = false → x.ownStop = false → y.safeStop = false ∧ y.u = (List.range 8).map (fun i => (f.u.getD i 0).toInt) ∧ y.axis = f.axis ∧
        y.drivers = (List.range 4).foldl (driven f.axis) x.drivers) ∧
      (f.safeStop = true → y.safeStop = true ∧ y.emitters = false) := by
  obtain ⟨bs, i, u, hz, -⟩ := rampFocus_clearEnds (bfeAt s b)
  have hstep := bfeStep_valid (x := clearEnds (bfeAt s b)) (b := b) (p0 := p0) (p1 := p1) (off := off) (hold := (bayAt s b).mode == 5) (f := f)
    (by rw [hz]; exact ho) (by rw [hz]; exact validFrame_eq_some ha hb hv)
  have hother : arrivalOther (rampFocus (clearEnds (bfeAt s b))) p0 p1 = arrivalOther (bfeAt s b) p0 p1 := by rw [hz]; rfl
  have happ := frameApplied_applyFrame (rampFocus (clearEnds (bfeAt s b))) f off ((bayAt s b).mode == 5)
  rw [hother] at hstep
  intro x y
  have hy : y = stepBeams _ := congrArg stepBeams hstep
  generalize applyFrame (rampFocus (clearEnds (bfeAt s b))) f off ((bayAt s b).mode == 5) = a at happ hy
  have hsame : (rampFocus (clearEnds (bfeAt s b))).obeys = x.obeys ∧ (rampFocus (clearEnds (bfeAt s b))).ownStop = x.ownStop ∧
      (rampFocus (clearEnds (bfeAt s b))).drivers = x.drivers := by rw [hz]; exact ⟨rfl, rfl, rfl⟩
  obtain ⟨hobeys, hown, hdrv⟩ := hsame
  have hlive := happ.live
  rw [hown, hdrv] at hlive
  have hob := happ.obeys
  rw [hobeys] at hob
  by_cases hsw : switches x b p0 p1 f
  · rw [if_pos (switches_iff.2 hsw)] at hy
    rw [hy]
    exact ⟨rfl, happ.holding, happ.count, happ.spin, fun _ => ⟨congrArg (1 - ·) hob, rfl⟩, fun h => absurd hsw h, hlive, happ.stop⟩
  · rw [if_neg (fun h => hsw (switches_iff.1 h))] at hy
    rw [hy]
    exact ⟨happ.misses, happ.holding, happ.count, happ.spin, fun h => absurd h hsw, fun _ => ⟨hob, happ.exempt⟩, hlive, happ.stop⟩

theorem bfeEdged_unclaimed (ho : (bfeAt s b).obeys = 2) (h : ∀ f a, a ∈ [p0, p1] → a = .command f true → f.bay = b → f.claim = false) :
    (bfeEdged s b p0 p1 off).obeys = 2 := by
  obtain ⟨bs, i, u, hz, -⟩ := rampFocus_clearEnds (bfeAt s b)
  have h0 : claimIn b p0 = none := claimIn_eq_none (fun f ha hb => h f p0 (by simp) ha hb)
  have h1 : claimIn b p1 = none := claimIn_eq_none (fun f ha hb => h f p1 (by simp) ha hb)
  exact bfeStep_unclaimed (x := clearEnds (bfeAt s b)) (by rw [hz]; exact ho) (chosenClaim_of_none h0 h1)

theorem bfeEdged_claimed {f g : CmdFrame} (ho : (bfeAt s b).obeys = 2) (h0 : p0 = .command f true) (h1 : p1 = .command g true) (hf : f.bay = b)
    (hg : g.bay = b) (hcf : f.claim = true) (hcg : g.claim = true) :
    (bfeEdged s b p0 p1 off).obeys = (if g.owner && !f.owner then 1 else 0) ∧ (bfeEdged s b p0 p1 off).reset = false ∧
      (bfeEdged s b p0 p1 off).exempt = true := by
  subst h0 h1
  obtain ⟨bs, i, u, hz, -⟩ := rampFocus_clearEnds (bfeAt s b)
  have hclaim := chosenClaim_of_two (claimIn_eq_some hf hcf) (claimIn_eq_some hg hcg)
  have hro : (rampFocus (clearEnds (bfeAt s b))).obeys = 2 := by rw [hz]; exact ho
  by_cases hown : (g.owner && !f.owner) = true
  · rw [if_pos hown] at hclaim ⊢
    exact bfeStep_claimed hro hclaim
  · rw [if_neg hown] at hclaim ⊢
    exact bfeStep_claimed hro hclaim

end

/-! ### The end of a hold, and resets (R319 to R321) -/

theorem bfeHoldExpiry_quiet {s : State} {b : Fin 8} {a : Arrival} (h : (bfeAt s b).obeys = 2 ∨ (bfeAt s b).misses < (bfeAt s b).hold) :
    exec (.bfeHoldExpiry b a) s = .next s := if_pos h

theorem ownStop_spec (x : Bfe) : (ownStop x).obeys = 2 ∧ (ownStop x).safeStop = true ∧ (ownStop x).ownStop = true ∧ (ownStop x).emitters = false ∧
    (∀ w ∈ (ownStop x).axis, w = 0) ∧ (x.safeStop = false → (ownStop x).u = [x.u.getD 0 0, 0, 0, 0, x.u.getD 4 0, 0, 0, 0]) := by
  have hstop : (stopLoops x).safeStop = true ∧ (stopLoops x).emitters = false ∧ (stopLoops x).axis = List.replicate 4 0 ∧
      (x.safeStop = false → (stopLoops x).u = [x.u.getD 0 0, 0, 0, 0, x.u.getD 4 0, 0, 0, 0]) := by
    unfold stopLoops
    dsimp only
    split
    case isTrue h => exact ⟨h, rfl, rfl, fun h' => absurd ((h.symm.trans h' : true = false)) (by decide)⟩
    case isFalse => exact ⟨rfl, rfl, rfl, fun _ => rfl⟩
  obtain ⟨hsafe, hem, haxis, hu⟩ := hstop
  refine ⟨rfl, hsafe, rfl, hem, fun w hw => ?_, hu⟩
  exact List.eq_of_mem_replicate (haxis ▸ hw : w ∈ List.replicate 4 0)

theorem bfeHoldExpiry_acts {s : State} {b : Fin 8} {a : Arrival} (ho : (bfeAt s b).obeys ≠ 2) (hm : (bfeAt s b).hold ≤ (bfeAt s b).misses) :
    let x := bfeAt s b
    ∃ t, exec (.bfeHoldExpiry b a) s = .next t ∧ OnlyIn [.bfes] s t ∧
      (∀ k, a = .keep k true → k.bay = b → k.ready = true → bfeAt t b = { x with obeys := 1 - x.obeys, misses := 0, exempt := true, readySeen := false }) ∧
      ((∀ k, a = .keep k true → k.bay ≠ b ∨ k.ready = false) → (bfeAt t b).obeys = 2 ∧ (bfeAt t b).safeStop = true ∧ (bfeAt t b).ownStop = true ∧
        (bfeAt t b).emitters = false ∧ (∀ w ∈ (bfeAt t b).axis, w = 0) ∧
        (x.safeStop = false → (bfeAt t b).u = [x.u.getD 0 0, 0, 0, 0, x.u.getD 4 0, 0, 0, 0])) := by
  intro x
  have hexec : exec (.bfeHoldExpiry b a) s = .next (setBfe s b (if showsReady b a then switchPort x else ownStop x)) :=
    if_neg (not_or.2 ⟨ho, Nat.not_lt.2 hm⟩)
  refine ⟨_, hexec, onlyIn_of_follows (follows_setBfe (by decide) (follows_refl s)), fun k ha hb hr => ?_, fun h => ?_⟩
  · rw [(bfeAt_edged s b _).1, if_pos (showsReady_iff.2 ⟨k, ha, hb, hr⟩)]
    rfl
  · have hnot : ¬ showsReady b a = true := fun hready => by
      obtain ⟨k, ha, hb, hr⟩ := showsReady_iff.1 hready
      rcases h k ha with hn | hn
      · exact hn hb
      · exact absurd (hr.symm.trans hn) (by decide)
    rw [(bfeAt_edged s b _).1, if_neg hnot]
    exact ownStop_spec x

theorem bfeReset_acts (s : State) (b : Fin 8) : ∃ t, exec (.bfeReset b) s = .next t ∧ (bfeAt t b).obeys = 2 ∧ (bfeAt t b).hold = 8 ∧
    (bfeAt t b).reset = true ∧ (bfeAt t b).safeStop = false ∧ (bfeAt t b).emitters = false ∧ (∀ n, n ≠ b.val → bfeAt t n = bfeAt s n) ∧
    OnlyIn [.bfes] s t := by
  obtain ⟨hself, hothers⟩ := bfeAt_edged s b {}
  exact ⟨setBfe s b {}, rfl, by rw [hself], by rw [hself], by rw [hself], by rw [hself], by rw [hself], hothers,
    onlyIn_of_follows (follows_setBfe (by decide) (follows_refl s))⟩

/-! ### Ports and lanes (R310, R324) -/

theorem portAt_set (s : State) (b : Fin 8) (p : Port) : portAt (setPort s b p) b = p ∧ ∀ n, n ≠ b.val → portAt (setPort s b p) n = portAt s n :=
  ⟨by rw [portAt_setPort, if_pos rfl], fun n hn => by rw [portAt_setPort, if_neg (Ne.symm hn)]⟩

/-- The mask of the bits of a rising list has exactly those bits. -/
theorem getLsbD_ofSum {l : List Nat} (hl : l.SortedLT) {k : Nat} (hk : k < 16) :
    (BitVec.ofNat 16 ((l.map (fun k => 2 ^ k)).sum)).getLsbD k = true ↔ k ∈ l := by
  rw [BitVec.getLsbD_ofNat, decide_eq_true hk, Bool.true_and, ← Nat.mem_bitIndices, Nat.bitIndices_sum_map_two_pow hl]

/-- The numbers of the first `n` bits of a mask. -/
def firstOnes (m : Half) (n : Nat) : List Nat := ((List.range 16).filter (fun k => m.getLsbD k)).take n

theorem firstOnes_sorted (m : Half) (n : Nat) : (firstOnes m n).SortedLT :=
  ((List.sortedLT_range 16).pairwise.sublist ((List.take_sublist ..).trans List.filter_sublist)).sortedLT

theorem firstBits_getLsbD (m : Half) (n : Nat) {k : Nat} (hk : k < 16) : (firstBits m n).getLsbD k = true ↔ k ∈ firstOnes m n :=
  getLsbD_ofSum (firstOnes_sorted m n) hk

theorem firstBits_spec (m : Half) (n : Nat) : ((List.range 16).filter (fun k => (firstBits m n).getLsbD k)).length ≤ n ∧
    ∀ k, k < 16 → (firstBits m n).getLsbD k = true → m.getLsbD k = true := by
  refine ⟨?_, fun k hk h => (List.mem_filter.1 (List.mem_of_mem_take ((firstBits_getLsbD m n hk).1 h))).2⟩
  have hsub : (List.range 16).filter (fun k => (firstBits m n).getLsbD k) ⊆ firstOnes m n := fun k hk => by
    obtain ⟨hr, hbit⟩ := List.mem_filter.1 hk
    exact (firstBits_getLsbD m n (List.mem_range.1 hr)).1 hbit
  exact (List.subperm_of_subset (List.nodup_range.filter _) hsub).length_le.trans (List.length_take_le ..)

theorem headbandPortUp_acts (s : State) (b : Fin 8) (lat : Half) :
    (150 < lat.toNat → exec (.headbandPortUp b lat) s = .next s) ∧
    (lat.toNat ≤ 150 → ∃ t, exec (.headbandPortUp b lat) s = .next t ∧ (portAt t b).up = true ∧ (portAt t b).lanes = 0x1F ∧
      (portAt t b).latNs = lat ∧ (portAt t b).ident = none ∧ (∀ n, n ≠ b.val → portAt t n = portAt s n) ∧ OnlyIn [.ports] s t) := by
  refine ⟨fun h => if_pos h, fun h => ?_⟩
  obtain ⟨hself, hothers⟩ := portAt_set s b { portAt s b with
    up := true, lanes := 0x1F, latNs := lat, slices := [], ident := none, idRecorded := false, wake := true }
  exact ⟨_, if_neg (Nat.not_lt.2 h), by rw [hself], by rw [hself], by rw [hself], by rw [hself], hothers,
    onlyIn_of_follows (follows_setPort (by decide) (follows_refl s))⟩

/-- The lanes left. -/
def lanesLeft (p : Port) (lane : Fin 3) : BitVec 5 := p.lanes &&& ~~~(BitVec.ofNat 5 (2 ^ lane.val))

/-- The port on the lanes left. -/
def laneLost (p : Port) (lane : Fin 3) : Port :=
  { p with
    lanes := lanesLeft p lane, up := p.up && (lanesLeft p lane).getLsbD 0 && (lanesLeft p lane).getLsbD 3
    spotEn := firstBits p.spotEn (streamsOn ((List.range 3).filter (fun i => (lanesLeft p lane).getLsbD i)).length) }

theorem lanesLeft_getLsbD (p : Port) (lane : Fin 3) {i : Nat} (hi : i < 5) : (lanesLeft p lane).getLsbD i = (p.lanes.getLsbD i && i != lane.val) := by
  rw [lanesLeft, BitVec.getLsbD_and, BitVec.getLsbD_not, BitVec.getLsbD_ofNat, Nat.testBit_two_pow]
  simp only [hi, decide_true, Bool.true_and]
  by_cases h : lane.val = i
  · simp [h]
  · simp [h, Ne.symm h]

theorem streamsOn_le {n : Nat} (h : n ≤ 3) : streamsOn n ≤ if n = 3 then 16 else 6 * n := by
  interval_cases n <;> decide

theorem headbandLaneLoss_acts {s : State} {b : Fin 8} {lane : Fin 3} (hl : (portAt s b).lanes.getLsbD lane = true) :
    let p := portAt s b
    ∃ t, exec (.headbandLaneLoss b lane) s = .next t ∧
      (∀ i, i < 5 → (portAt t b).lanes.getLsbD i = (p.lanes.getLsbD i && i != lane.val)) ∧ (lane = 0 → (portAt t b).up = false) ∧
      (let n := ((List.range 3).filter (fun i => (portAt t b).lanes.getLsbD i)).length
       ((List.range 16).filter (fun k => (portAt t b).spotEn.getLsbD k)).length ≤ (if n = 3 then 16 else 6 * n)) ∧
      (∀ k, k < 16 → (portAt t b).spotEn.getLsbD k = true → p.spotEn.getLsbD k = true) ∧ OnlyIn [.ports, .bdy] s t := by
  intro p
  have hexec : exec (.headbandLaneLoss b lane) s = .next (event (setPort s b (laneLost p lane)) 0 3 1 b 0xFF [lane]) :=
    if_neg (by rw [hl]; decide)
  have hport : portAt (event (setPort s b (laneLost p lane)) 0 3 1 b 0xFF [lane]) b = laneLost p lane := (portAt_set s b _).1
  refine ⟨_, hexec, ?_, ?_, ?_, ?_, onlyIn_of_follows (follows_event (by decide) (follows_setPort (by decide) (follows_refl s)))⟩ <;> rw [hport]
  · exact fun i hi => lanesLeft_getLsbD p lane hi
  · rintro rfl
    have h0 : (lanesLeft p 0).getLsbD 0 = false := by rw [lanesLeft_getLsbD p 0 (by decide)]; simp
    change (p.up && (lanesLeft p 0).getLsbD 0 && _) = false
    rw [h0, Bool.and_false, Bool.false_and]
  · have hle : ((List.range 3).filter (fun i => (lanesLeft p lane).getLsbD i)).length ≤ 3 := (List.length_filter_le ..).trans_eq List.length_range
    exact (firstBits_spec p.spotEn _).1.trans (streamsOn_le hle)
  · exact (firstBits_spec p.spotEn _).2

/-! ### Identities (R353) -/

theorem bfeIdentityAssembled_acts (s : State) (b : Fin 8) : let p := portAt s b
    (sliceIdent p = none → exec (.bfeIdentityAssembled b) s = .next s) ∧
    (∀ i, sliceIdent p = some i →
      (s.pwr.phase ≠ .running → exec (.bfeIdentityAssembled b) s = .next (setPort s b { p with ident := some i })) ∧
      (s.pwr.phase = .running → p.idRecorded = true → p.ident = some i → exec (.bfeIdentityAssembled b) s = .next s) ∧
      (s.pwr.phase = .running → p.idRecorded = false ∨ p.ident ≠ some i → ∃ t c, exec (.bfeIdentityAssembled b) s = .next t ∧
        portAt t b = { p with ident := some i, idRecorded := true } ∧ t.bdy.colophon.getLast? = some c ∧ c.reason = 5 ∧
        counter t 0 0 = counter s 0 0 + 1)) := by
  intro p
  have hnone (h : sliceIdent p = none) : execBfeIdentityAssembled b s = .next s := by
    unfold execBfeIdentityAssembled
    dsimp only
    rw [show sliceIdent (portAt s b) = _ from h]
  have hsome {i : Bytes} (h : sliceIdent p = some i) : execBfeIdentityAssembled b s =
      if s.pwr.phase ≠ .running then .next (setPort s b { p with ident := some i })
      else if p.idRecorded ∧ p.ident = some i then .next s
      else .next (setPort (writeColophon (setPort s b { p with ident := some i }) 5) b
        { portAt (writeColophon (setPort s b { p with ident := some i }) 5) b with idRecorded := true }) := by
    unfold execBfeIdentityAssembled
    dsimp only
    rw [show sliceIdent (portAt s b) = _ from h]
  refine ⟨hnone, fun i hi => ⟨fun hp => (hsome hi).trans (if_pos hp), fun hp hr hid => (hsome hi).trans ((if_neg (not_not.2 hp)).trans (if_pos ⟨hr, hid⟩)),
    fun hp hnew => ?_⟩⟩
  have hnot : ¬ (p.idRecorded ∧ p.ident = some i) := fun ⟨hr, hid⟩ => by
    rcases hnew with h | h
    · exact absurd (hr.symm.trans h) (by decide)
    · exact h hid
  have hexec := (hsome hi).trans ((if_neg (not_not.2 hp)).trans (if_neg hnot))
  obtain ⟨c, hlast, hreason⟩ := writeColophon_last (setPort s b { p with ident := some i }) 5
  have hcount : counter (writeColophon (setPort s b { p with ident := some i }) 5) 0 0 = counter s 0 0 + 1 := by
    rw [writeColophon, counter_bump, if_pos rfl]
    rfl
  have hport : portAt (writeColophon (setPort s b { p with ident := some i }) 5) b = { p with ident := some i } := (portAt_set s b _).1
  generalize writeColophon (setPort s b { p with ident := some i }) 5 = u at hexec hlast hcount hport
  rw [hport] at hexec
  exact ⟨_, c, hexec, (portAt_set u b _).1, hlast, hreason, hcount⟩

end Sys2Proof.Machine

namespace Sys2Proof
open Machine

/-- Settles O58: an edge turns on the frame of the obeyed port alone: applied, missed, or, with no port obeyed, a claim. -/
theorem frontEndsObeyOnePort : Obligations.FrontEndsObeyOnePort := by
  refine ⟨fun s b p0 p1 off => ?_, fun s b a => ⟨bfeHoldExpiry_quiet, bfeHoldExpiry_acts, bfeReset_acts s b⟩, fun s b lat lane => ?_,
    bfeIdentityAssembled_acts⟩
  · obtain ⟨hself, hothers⟩ := bfeAt_edged s b (bfeEdged s b p0 p1 off)
    refine ⟨_, exec_bfeEdge s b p0 p1 off, hothers, onlyIn_of_follows (follows_setBfe (by decide) (follows_refl s)), ?_⟩
    rw [hself]
    refine ⟨bfeEdged_missed, fun f ho ha hb hv => ?_, bfeEdged_unclaimed, fun f g => bfeEdged_claimed⟩
    obtain ⟨hmiss, hhold, hcount, hspin, hsw, hstay, hlive, hstop⟩ := bfeEdged_applied (off := off) ho ha hb hv
    refine ⟨hmiss, hhold, hcount, hspin, hsw, hstay, fun hs hown => ?_, hstop⟩
    obtain ⟨hsafe, hu, haxis, hdrivers⟩ := hlive hs hown
    refine ⟨hsafe, fun i hi => ?_, haxis, fun i hi => ?_⟩
    · rw [hu, List.getD_eq_getElem?_getD, List.getElem?_map, List.getElem?_range hi]
      rfl
    · have hdriver := driven_driveAxis i (getD (bfeAt s b).drivers {} i) (f.axis.getD i 0)
      rw [hdrivers, getD_driven f.axis (List.nodup_range (n := 4)), if_pos (List.mem_range.2 hi)]
      exact ⟨hdriver.hold, hdriver.step, hdriver.park, hdriver.release, hdriver.energise⟩
  · obtain ⟨hslow, hup⟩ := headbandPortUp_acts s b lat
    exact ⟨hslow, hup, fun h => if_pos (by rw [h]; rfl), headbandLaneLoss_acts⟩

end Sys2Proof
end

section
/-! PROOFS. Host access to BAR2: reads, the latch of the split read, writes, the domain request (00_scope.md R3 to R6; 18_bindery.md R364). -/

namespace Sys2Proof.Machine

/-! ### Reads -/

theorem exec_splitReadLatch (s : State) (off w : Nat) :
    exec (.splitReadLatch off w) s = .next { (readBar s off w).1 with hostRead := BitVec.ofNat 64 (readBar s off w).2 } := rfl

theorem readBar_of_noLatch {s : State} {off w : Nat} (h : s.splitLatch = none) : readBar s off w = readBar.readLive s off w := by
  unfold readBar
  rw [h]

/-- The read a latched high word is held for returns it and releases the latch. -/
theorem readBar_latched {s : State} {off : Nat} {v : Word} (h : s.splitLatch = some (off, v)) :
    readBar s off 4 = ({ s with splitLatch := none }, v.toNat) := by
  unfold readBar
  rw [h]
  exact if_pos ⟨rfl, rfl⟩

/-- Any other read releases the latch. -/
theorem readBar_otherOffset {s : State} {o off w : Nat} {v : Word} (h : s.splitLatch = some (o, v)) (hne : off ≠ o) :
    readBar s off w = readBar.readLive { s with splitLatch := none } off w := by
  unfold readBar
  rw [h]
  exact if_neg fun hc => hne hc.1.symm

theorem readLive_unassigned {s : State} {off w : Nat} (h : findReg off = none) (hw : off < 4 ∨ w ≠ 4 ∨ findReg (off - 4) = none) :
    readBar.readLive s off w = (s, 0) := by
  unfold readBar.readLive
  rw [h]
  dsimp only
  by_cases hc : off < 4 ∨ w ≠ 4
  · exact if_pos hc
  · rw [if_neg hc, (or_assoc.2 hw).resolve_left hc]

theorem readLive_narrow {s : State} {off w i : Nat} {r : RegRow} (h : findReg off = some (r, i)) (hb : w ≠ r.bytes) (h4 : w ≠ 4) :
    readBar.readLive s off w = (s, 0) := by
  unfold readBar.readLive
  rw [h]
  dsimp only
  rw [if_neg hb, if_neg h4]

/-- A 32-bit read of the low word of a wide register latches its high word. -/
theorem readLive_lowWord {s : State} {off i : Nat} {r : RegRow} (h : findReg off = some (r, i)) (hw : r.wide = true) :
    let t := readEffect s r.id i
    let v := regView t r i
    readBar.readLive s off 4 = ({ t with splitLatch := some (off + 4, BitVec.ofNat 32 (v / 2 ^ 32)) }, v % 2 ^ 32) := by
  have hb : (4 : Nat) ≠ r.bytes := by simp [RegRow.bytes, hw]
  unfold readBar.readLive
  rw [h]
  dsimp only
  rw [if_neg hb, if_pos rfl]

/-- No effect of a read touches the latch. -/
theorem readEffect_splitLatch (s : State) (id : RegId) (i : Nat) : (readEffect s id i).splitLatch = s.splitLatch :=
  (follows_readEffect (T := fun p => [Part.free, .hostRead, .kst, .bdy].contains p) (by decide) (follows_refl s)).frame .splitLatch (by decide)

/-- A read holds no latch but for the word after its own offset. -/
theorem readLive_splitLatch {s : State} {off w : Nat} (h : s.splitLatch = none) :
    (readBar.readLive s off w).1.splitLatch = none ∨ ∃ x, (readBar.readLive s off w).1.splitLatch = some (off + 4, x) := by
  unfold readBar.readLive
  split
  · split
    · exact .inl ((readEffect_splitLatch ..).trans h)
    · split
      · exact .inr ⟨_, rfl⟩
      · exact .inl h
  · split
    · exact .inl h
    · split
      · split
        · exact .inl ((readEffect_splitLatch ..).trans h)
        · exact .inl h
      · exact .inl h

theorem mem_regTable_of_findReg {off i : Nat} {r : RegRow} (h : findReg off = some (r, i)) : r ∈ regTable := by
  obtain ⟨r', hr', hm⟩ := List.exists_of_findSome?_eq_some h
  obtain ⟨j, -, hj⟩ := Option.map_eq_some_iff.1 hm
  exact (Prod.mk.inj hj).1 ▸ hr'

/-- A fact about every row of the register index, block by block. -/
theorem regTable_all {p : RegRow → Bool} (h : ∀ t ∈ [regsBdy, regsTck, regsPwr, regsHbl, regsSpn, regsSrv, regsSpd, regsMot, regsRdc, regsWrc,
    regsQre, regsCph, regsKst, regsMem, regsCmd, regsCal, regsBnd], t.all p = true) : regTable.all p = true := by
  simp only [List.forall_mem_cons] at h
  simp only [regTable, List.all_append, h, Bool.and_self]

theorem wide_ne_mboxRsp {r : RegRow} (h : r ∈ regTable) (hw : r.wide = true) : r.id ≠ .bdyMboxRsp := by
  have hall : regTable.all (fun r => !r.wide || r.id != .bdyMboxRsp) = true := regTable_all (by decide)
  simpa [hw] using List.all_eq_true.1 hall r h

/-- A read of a wide register other than KST_LC_NONCE has no effect. -/
theorem readEffect_of_wide {off i j : Nat} {r : RegRow} (s : State) (h : findReg off = some (r, i)) (hw : r.wide = true)
    (hn : r.id ≠ .kstLcNonce) : readEffect s r.id j = s := by
  have hm := wide_ne_mboxRsp (mem_regTable_of_findReg h) hw
  generalize r.id = id at hn hm
  unfold readEffect
  split
  · exact absurd rfl hn
  · exact absurd rfl hm
  · rfl

/-! ### Writes -/

theorem writeBar_unassigned {s : State} {src : Src} {off w v : Nat} (h : findReg off = none) : writeBar s src off w v = s := by
  unfold writeBar
  rw [h]

theorem writeBar_assigned {s : State} {src : Src} {off w v i : Nat} {r : RegRow} (h : findReg off = some (r, i)) :
    writeBar s src off w v = if w = r.bytes then writeReg s src r i (v % 2 ^ (8 * r.bytes)) else s := by
  unfold writeBar
  rw [h]

/-- A host write outside the mailbox is gated in the Sealed state; else it is a BAR2 write. -/
theorem exec_registerWrite (s : State) (off w : Nat) (v : Dword) :
    exec (.registerWrite off w v) s = .next (if (barSealed s && !mailboxOffset off) = true then s else writeBar s .host off w v.toNat) := by
  change execRegisterWrite off w v s = _
  unfold execRegisterWrite
  split <;> rfl

theorem exec_registerWrite_of_idle {s : State} {off w : Nat} {v : Dword} (h : writeBar s .host off w v.toNat = s) :
    exec (.registerWrite off w v) s = .next s := by
  rw [exec_registerWrite, h, ite_self]

/-- The plain read/write registers that the statement names. -/
def plainRegs : List RegId := [.hblCfg, .cmdBpCfg, .calInterval, .pwrModeCfg, .pwrThermCfg]

theorem plain_rw_ne_zero {r : RegRow} (h : r ∈ regTable) (hid : r.id ∈ plainRegs) : r.rw ≠ 0 := by
  have hall : regTable.all (fun r => !plainRegs.contains r.id || r.rw != 0) = true := regTable_all (by decide)
  simpa [hid] using List.all_eq_true.1 hall r h

theorem writeReg_of_plain {s : State} {src : Src} {r : RegRow} {i v : Nat} (h : r.id ∈ plainRegs) (hrw : r.rw ≠ 0) :
    writeReg s src r i v = storeReg s r i v := by
  have hplain : r.id = .hblCfg ∨ r.id = .cmdBpCfg ∨ r.id = .calInterval ∨ r.id = .pwrModeCfg ∨ r.id = .pwrThermCfg := by
    simpa [plainRegs] using h
  rcases hplain with h | h | h | h | h <;> (unfold writeReg; rw [h]; exact if_neg hrw)

/-- A store takes the bits a register has, within range and no looser than the Binding allows. -/
theorem storeReg_spec (s : State) (r : RegRow) (i v : Nat) :
    let x := v &&& r.rw
    OnlyIn [.regs] s (storeReg s r i v) ∧
      (inRange r.id x = true → tightest r.id i (reg s r.id i) x = x →
        look (storeReg s r i v).regs (regOffset r.id i) = some (BitVec.ofNat 64 x) ∧
        ∀ k, k ≠ regOffset r.id i → look (storeReg s r i v).regs k = look s.regs k) ∧
      (inRange r.id x = false ∨ tightest r.id i (reg s r.id i) x ≠ x → storeReg s r i v = s) := by
  refine ⟨onlyIn_of_follows (follows_storeReg (by decide) (follows_refl s)), fun hr ht => ?_, fun hbad => if_neg ?_⟩
  · have hstore : storeReg s r i v = setReg s r.id i (v &&& r.rw) := if_pos ⟨hr, ht⟩
    rw [hstore]
    refine ⟨(look_ins ..).trans (if_pos rfl), fun k hk => (look_ins ..).trans (if_neg (Ne.symm hk))⟩
  · rintro ⟨hr, ht⟩
    exact hbad.elim (fun h => absurd hr (by simp [h])) (fun h => h ht)

/-! ### The domain request -/

theorem exec_domainRequest (s : State) (tag off : Word) (v : Dword) (w : Byte) :
    exec (.domainRequest tag off v w) s =
      if !inHand s 6 tag (natLe 4 off.toNat ++ natLe 8 v.toNat ++ [w]) then .next s
      else if lifeRetired s || requestRefused off.toNat then .next (respond s 6 tag 3)
      else .next (respond (writeBar s .domain off.toNat w.toNat v.toNat) 6 tag 0) := rfl

theorem domainRequest_notInHand {s : State} {tag off : Word} {v : Dword} {w : Byte}
    (h : inHand s 6 tag (natLe 4 off.toNat ++ natLe 8 v.toNat ++ [w]) = false) : exec (.domainRequest tag off v w) s = .next s := by
  rw [exec_domainRequest, h]
  rfl

theorem domainRequest_refused {s : State} {tag off : Word} {v : Dword} {w : Byte}
    (h : inHand s 6 tag (natLe 4 off.toNat ++ natLe 8 v.toNat ++ [w]) = true) (hr : lifeRetired s = true ∨ requestRefused off.toNat = true) :
    exec (.domainRequest tag off v w) s = .next (respond s 6 tag 3) := by
  rw [exec_domainRequest, h, if_neg (by decide), if_pos (by simpa using hr)]

theorem domainRequest_taken {s : State} {tag off : Word} {v : Dword} {w : Byte}
    (h : inHand s 6 tag (natLe 4 off.toNat ++ natLe 8 v.toNat ++ [w]) = true) (hl : lifeRetired s = false)
    (hr : requestRefused off.toNat = false) :
    exec (.domainRequest tag off v w) s = .next (respond (writeBar s .domain off.toNat w.toNat v.toNat) 6 tag 0) := by
  rw [exec_domainRequest, h, hl, hr]
  rfl

end Sys2Proof.Machine

namespace Sys2Proof
open Machine

/-- Settles O59: a read depends on the latch, the register found at its offset and its width; only a read of a low word latches; a plain
register is stored through `storeReg`, a domain request through the same `writeBar` as a host write. -/
theorem registersAreReadAndWritten : Obligations.RegistersAreReadAndWritten := by
  unfold Obligations.RegistersAreReadAndWritten
  refine ⟨fun s off w hl hf hw => ?_, fun s off w r i hl hf hb h4 => ?_, fun s off r i hl hf hw hn => ?_,
    fun u => ⟨⟨_, rfl, rfl⟩, ⟨_, rfl, rfl⟩⟩, fun c u v hc hex => (everyCommandStaysInItsReach c u v hex).2 .splitLatch hc,
    fun s off w v => ⟨fun hf => exec_registerWrite_of_idle (writeBar_unassigned hf),
      fun r i hf hb => exec_registerWrite_of_idle ((writeBar_assigned hf).trans (if_neg hb)), fun hs hm => ?_, fun i r hf hid hs hb => ?_⟩,
    fun s tag off v w => ⟨domainRequest_notInHand, fun h => ⟨fun hr => ?_, fun hl hr => ?_⟩⟩⟩
  · rw [exec_splitReadLatch, readBar_of_noLatch hl, readLive_unassigned hf hw]
    rfl
  · rw [exec_splitReadLatch, readBar_of_noLatch hl, readLive_narrow hf hb h4]
    rfl
  · have hread : readBar s off 4 = ({ s with splitLatch := some (off + 4, BitVec.ofNat 32 (regView s r i / 2 ^ 32)) }, regView s r i % 2 ^ 32) := by
      rw [readBar_of_noLatch hl, readLive_lowWord hf hw, readEffect_of_wide s hf hw hn]
    refine ⟨_, (exec_splitReadLatch ..).trans (by rw [hread]), rfl, rfl, fun u hu => ?_, fun u off' w' v hu hhigh hlow hex x hx => ?_⟩
    · rw [exec_splitReadLatch, readBar_latched hu, BitVec.toNat_ofNat]
    · rw [exec_splitReadLatch, readBar_otherOffset hu hhigh] at hex
      have hlatch : v.splitLatch = (readBar.readLive { u with splitLatch := none } off' w').1.splitLatch :=
        (congrArg State.splitLatch (Host.Outcome.next.inj hex)).symm
      rcases readLive_splitLatch (s := { u with splitLatch := none }) (off := off') (w := w') rfl with h | ⟨y, h⟩
      · rw [hlatch, h] at hx
        exact Option.some_ne_none _ hx.symm
      · rw [hlatch, h] at hx
        exact hlow (Nat.add_right_cancel (Prod.mk.inj (Option.some.inj hx)).1)
  · rw [exec_registerWrite, if_pos (by simp [hs, hm])]
  · have hwrite : exec (.registerWrite off w v) s = .next (storeReg s r i (v.toNat % 2 ^ (8 * r.bytes))) := by
      rw [exec_registerWrite, if_neg (by simp [hs]), writeBar_assigned hf, if_pos hb,
        writeReg_of_plain hid (plain_rw_ne_zero (mem_regTable_of_findReg hf) hid)]
    exact ⟨_, hwrite, storeReg_spec ..⟩
  · exact ⟨_, domainRequest_refused h hr, status_respond s 6 tag (by decide), onlyIn_of_follows (follows_respond (by decide) (follows_refl s))⟩
  · exact ⟨_, domainRequest_taken h hl hr, rfl, rfl, status_respond _ 6 tag (by decide), rfl⟩

end Sys2Proof
end
